-- ==== Sys2Proof/Word.lean ====
section
/-! DEFINITION. The plain types of the machine: the 20-bit word, the 40-bit pair, the byte, and the numbered resources
of spec/00_scope.md ("Names used throughout"). -/

namespace Sys2Proof

/-- A 20-bit word: a general register, a register of a block, an instruction word (R45, R49, R121). -/
abbrev W20 := BitVec 20

/-- A 40-bit value: a pair, mesh time, an ASN, a wide address (R8, R11, R46). -/
abbrev W40 := BitVec 40

/-- A byte of memory (R52). -/
abbrev Byte := BitVec 8

/-- One of the four Balrath cores B0-B3. -/
abbrev CoreId := Fin 4

/-- One of the sixteen general registers w0-w15 (R45). -/
abbrev RegId := Fin 16

/-- A stall position S0-S47 (R164). -/
abbrev Pos := Fin 48

/-- A named field of a register: the register's core address and the field's highest and lowest bit (R4). -/
structure Field where
  reg : Nat
  hi  : Nat
  lo  : Nat
deriving DecidableEq, Repr

end Sys2Proof
end

