-- ==== Sys2Proof/Config.lean ====
section
/-! DEFINITION. What the implementation fixes and the spec leaves open.  Every constant here has no body: nothing can
evaluate it and nothing can be proved about its value, so whatever is proved holds for every value. -/

namespace Sys2Proof.Config

/-- A fresh value the spec leaves open, at the state's counter of free values (notes/assumptions/6.md). -/
opaque freeW20 : Nat → W20

/-- A bit the spec leaves open, at a value of the counter of free values and its place (notes/assumptions/6.md): the
decision of a soft value of exactly zero (R200, R212). -/
opaque freeBit : Nat → Nat → Bool

/-- Whether coefficient `k` of the Gaussian filter of a SHAPE code is rounded up: the spec gives the curve and leaves
its rounding open (R150, notes/assumptions/53.md). -/
opaque gaussUp : Nat → Nat → Bool

/-- A fresh 256-bit random value: TRNG output, generated keys and nonces (R297, R283, R299). -/
opaque freeKey : Nat → BitVec 256

/-- A yard byte that nothing has written since its contents were lost (R429, R431). -/
opaque freeYardByte : Nat → Byte

/-- The check byte of eight stored yard bytes: the spec names a (72,64) Hsiao code and not its columns (R431). -/
opaque hsiao : BitVec 64 → Byte

/-- The boot ROM's word `i`: the spec gives its place, not its contents (R55). -/
opaque romWord : Nat → W20

/-- The level that the lattice, a wake condition and an orbit test see at pin `n` while it floats, at a tick and a
value of the counter of free values (R136, notes/assumptions/41.md). -/
opaque floatLevel : Nat → Nat → Nat → Bool

end Sys2Proof.Config
end

