-- ==== Sys2Proof/Syntax.lean ====
section
/-! DEFINITION. The commands of the block: one constructor of `Instr` per row of spec/opcode_table.json, with the
operands the row's rule gives it.  No row of the table has bits.  A constructor names what an outside agent (a core's
instruction stream, the air, a pin, a cable, a clock, the host) does to the device; measured and decoded values that
the device takes from its analogue parts are operands (notes/assumptions/3.md).  An operand with a default is one that a
sender may leave out. -/

namespace Sys2Proof

/-- Who makes a register access or an order (R100, R114, R132, R357, R454). -/
inductive Source
  | core (c : CoreId) (priv : Bool)
  | host | debug | dma | keeper | lattice
deriving DecidableEq, Repr

/-- Whose bus access a bus timeout ends (R120). -/
inductive BusMaster
  | core (c : CoreId) (a : W20) | dma (access : Nat) | host | fold
deriving DecidableEq, Repr

/-- What one aerial's correlator has at the end of a symbol (R175, R177): the hard decisions of its last 32 symbols, the
latest in the low bit, their soft correlation, and the RSSI, carrier offset and overload measured over the sync word. -/
structure AerialRx where
  hard : BitVec 32
  corr : BitVec 10
  rssi : BitVec 12
  fofs : BitVec 12
  ovl  : Bool
deriving DecidableEq, Repr

/-- Which of a pool's configuration registers is written (R191). -/
inductive PoolReg
  | cfg | buf | desc
deriving DecidableEq, Repr

/-- A chord port (R309). -/
inductive Port
  | a | b
deriving DecidableEq, Repr

/-- A chord frame as it comes over the line (R311-R313, R328): the symbols after its delimiter, positive true, whether
it arrived whole, and the 256ths of the present tick that had passed at the end of its last symbol. -/
structure ChordRx where
  syms  : List Bool
  whole : Bool
  frac  : BitVec 8
deriving DecidableEq, Repr

/-- What wakes the device (R402, R406). -/
inductive WakeSource
  | gpioLevel | gpioEdge (n : Fin 24) (rising : Bool) | hitch | rtc | timer | chord
deriving DecidableEq, Repr

/-- What the keeper's start sequence finds (R438-R441, R451, R467, R469): the failing lanes, SRAM rows and loft rows,
the flash's SFDP results, the level of RECOV_N, the smallest ageing margin, and whether OTP programming succeeds. -/
structure SelfTest where
  lanes    : List (BitVec 6)
  sramRows : List (Fin 10 × BitVec 7)
  loftRows : List (CoreId × BitVec 7)
  flcInfo  : W20
  recovLow : Bool
  margin   : BitVec 7
  otpOk    : Bool
deriving DecidableEq, Repr

/-- The interface a recovery block arrives on (R492). -/
inductive RecovIface
  | radio | chord | uart
deriving DecidableEq, Repr

/-- A supply that SUP_STAT reports (R411). -/
inductive Supply
  | vio | vfl | vbkp | vddq | vpp
deriving DecidableEq, Repr

/-- The commands: the rows of spec/opcode_table.json, in its order. -/
inductive Instr
  /-- ADD (R63): Adds two registers modulo 2^20 and sets the flags by the arith rule. -/
  | iAdd (c : CoreId) (d : RegId) (a : RegId) (b : RegId)
  /-- ADC (R63): Adds two registers and the carry flag modulo 2^20. -/
  | iAdc (c : CoreId) (d : RegId) (a : RegId) (b : RegId)
  /-- SUB (R63): Subtracts one register from another and sets the flags as sub_flags. -/
  | iSub (c : CoreId) (d : RegId) (a : RegId) (b : RegId)
  /-- SBC (R63): Adds the first register, the inverted second register and the carry. -/
  | iSbc (c : CoreId) (d : RegId) (a : RegId) (b : RegId)
  /-- AND (R63): Takes the bitwise AND of two registers and sets the logic flags. -/
  | iAnd (c : CoreId) (d : RegId) (a : RegId) (b : RegId)
  /-- OR (R63): Takes the bitwise OR of two registers and sets the logic flags. -/
  | iOr (c : CoreId) (d : RegId) (a : RegId) (b : RegId)
  /-- XOR (R63): Takes the bitwise XOR of two registers and sets the logic flags. -/
  | iXor (c : CoreId) (d : RegId) (a : RegId) (b : RegId)
  /-- ANDN (R63): ANDs the first register with the complement of the second. -/
  | iAndn (c : CoreId) (d : RegId) (a : RegId) (b : RegId)
  /-- SLL (R64): Shifts a register left by a register amount modulo 32. -/
  | iSll (c : CoreId) (d : RegId) (a : RegId) (b : RegId)
  /-- SRL (R64): Shifts a register right, with zeros shifted in. -/
  | iSrl (c : CoreId) (d : RegId) (a : RegId) (b : RegId)
  /-- SRA (R64): Shifts a register right, with copies of bit 19 shifted in. -/
  | iSra (c : CoreId) (d : RegId) (a : RegId) (b : RegId)
  /-- ROR (R64): Rotates a register right by the amount modulo 20. -/
  | iRor (c : CoreId) (d : RegId) (a : RegId) (b : RegId)
  /-- SLT (R63): Sets the destination to 1 when the first operand is less than the second, signed. -/
  | iSlt (c : CoreId) (d : RegId) (a : RegId) (b : RegId)
  /-- SLTU (R63): Sets the destination to 1 when the first operand is less than the second, unsigned. -/
  | iSltu (c : CoreId) (d : RegId) (a : RegId) (b : RegId)
  /-- JALR (R69): Writes the return address to the destination and jumps to the address held in a register. -/
  | iJalr (c : CoreId) (d : RegId) (a : RegId)
  /-- ADDI (R65): Adds a sign-extended 8-bit immediate to a register. -/
  | iAddi (c : CoreId) (d : RegId) (a : RegId) (imm8 : BitVec 8)
  /-- LUI (R66): Loads a 12-bit immediate times 256 and changes no flag. -/
  | iLui (c : CoreId) (d : RegId) (imm12 : BitVec 12)
  /-- LDW (R67): Loads a word from a base register plus an 8-bit displacement. -/
  | iLdw (c : CoreId) (d : RegId) (a : RegId) (disp8 : BitVec 8)
  /-- STW (R67): Stores a word to a base register plus an 8-bit displacement. -/
  | iStw (c : CoreId) (d : RegId) (a : RegId) (disp8 : BitVec 8)
  /-- BRANCH (R68): Branches by a 12-bit displacement when the cond field's condition holds. -/
  | iBranch (c : CoreId) (cond : BitVec 4) (disp12 : BitVec 12)
  /-- J (R69): Jumps to a 16-bit absolute address. -/
  | iJ (c : CoreId) (imm16 : BitVec 16)
  /-- CALL (R69): Writes pc + 1 to w15 and jumps to a 16-bit address. -/
  | iCall (c : CoreId) (imm16 : BitVec 16)
  /-- PADD (R70): Adds two 40-bit pairs. -/
  | iPadd (c : CoreId) (d : RegId) (a : RegId) (b : RegId)
  /-- PSUB (R70): Subtracts one 40-bit pair from another. -/
  | iPsub (c : CoreId) (d : RegId) (a : RegId) (b : RegId)
  /-- PCMP (R70): Sets the flags from the difference of two pairs and writes no register. -/
  | iPcmp (c : CoreId) (a : RegId) (b : RegId)
  /-- PADDSX (R70): Adds a sign-extended register to a pair. -/
  | iPaddsx (c : CoreId) (d : RegId) (a : RegId) (b : RegId)
  /-- PADDZX (R70): Adds a zero-extended register to a pair. -/
  | iPaddzx (c : CoreId) (d : RegId) (a : RegId) (b : RegId)
  /-- PSLL (R71): Shifts a pair left. -/
  | iPsll (c : CoreId) (d : RegId) (a : RegId) (b : RegId)
  /-- PSRL (R71): Shifts a pair right, with zeros shifted in. -/
  | iPsrl (c : CoreId) (d : RegId) (a : RegId) (b : RegId)
  /-- PSRA (R71): Shifts a pair right, with copies of bit 39 shifted in. -/
  | iPsra (c : CoreId) (d : RegId) (a : RegId) (b : RegId)
  /-- PMOV (R70): Copies one pair to another. -/
  | iPmov (c : CoreId) (d : RegId) (a : RegId)
  /-- MUL (R72): Multiplies two registers modulo 2^20. -/
  | iMul (c : CoreId) (d : RegId) (a : RegId) (b : RegId)
  /-- MULU_P (R72): Writes the unsigned 40-bit product of two registers to a pair. -/
  | iMuluP (c : CoreId) (d : RegId) (a : RegId) (b : RegId)
  /-- MULS_P (R72): Writes the signed 40-bit product of two registers to a pair. -/
  | iMulsP (c : CoreId) (d : RegId) (a : RegId) (b : RegId)
  /-- MACU_P (R72): Adds an unsigned product to a pair. -/
  | iMacuP (c : CoreId) (d : RegId) (a : RegId) (b : RegId)
  /-- MACS_P (R72): Adds a signed product to a pair. -/
  | iMacsP (c : CoreId) (d : RegId) (a : RegId) (b : RegId)
  /-- DIVU_P (R73): Divides a 40-bit pair by a register, unsigned, giving quotient and remainder. -/
  | iDivuP (c : CoreId) (d : RegId) (a : RegId) (b : RegId)
  /-- DIVS_P (R73): Divides a 40-bit pair by a register, signed, giving quotient and remainder. -/
  | iDivsP (c : CoreId) (d : RegId) (a : RegId) (b : RegId)
  /-- DIVU (R73): Divides two registers, unsigned. -/
  | iDivu (c : CoreId) (d : RegId) (a : RegId) (b : RegId)
  /-- DIVS (R73): Divides two registers, signed, truncating toward zero. -/
  | iDivs (c : CoreId) (d : RegId) (a : RegId) (b : RegId)
  /-- REMU (R73): Writes the unsigned remainder of two registers. -/
  | iRemu (c : CoreId) (d : RegId) (a : RegId) (b : RegId)
  /-- REMS (R73): Writes the signed remainder, with the sign of the dividend. -/
  | iRems (c : CoreId) (d : RegId) (a : RegId) (b : RegId)
  /-- SLLI (R74): Shifts a register left by an immediate amount. -/
  | iSlli (c : CoreId) (d : RegId) (a : RegId) (n : BitVec 5)
  /-- SRLI (R74): Shifts a register right logically by an immediate amount. -/
  | iSrli (c : CoreId) (d : RegId) (a : RegId) (n : BitVec 5)
  /-- SRAI (R74): Shifts a register right arithmetically by an immediate amount. -/
  | iSrai (c : CoreId) (d : RegId) (a : RegId) (n : BitVec 5)
  /-- RORI (R74): Rotates a register right by an immediate amount. -/
  | iRori (c : CoreId) (d : RegId) (a : RegId) (n : BitVec 5)
  /-- EXTU (R75): Extracts a bit field and zero-extends it. -/
  | iExtu (c : CoreId) (d : RegId) (a : RegId) (pos : BitVec 5) (width : BitVec 5)
  /-- EXTS (R75): Extracts a bit field and sign-extends it. -/
  | iExts (c : CoreId) (d : RegId) (a : RegId) (pos : BitVec 5) (width : BitVec 5)
  /-- INS (R75): Inserts the low bits of a register into a field of the destination. -/
  | iIns (c : CoreId) (d : RegId) (a : RegId) (pos : BitVec 5) (width : BitVec 5)
  /-- CLZ (R74): Counts the leading zero bits of a register. -/
  | iClz (c : CoreId) (d : RegId) (a : RegId)
  /-- POPC (R74): Counts the one bits of a register. -/
  | iPopc (c : CoreId) (d : RegId) (a : RegId)
  /-- LONG_IMMEDIATE_ALU_FORM (R76): Performs an ALU operation of R63 with a 20-bit immediate in place of the second register. -/
  | iLongAlu (c : CoreId) (fn : BitVec 4) (d : RegId) (a : RegId) (imm20 : W20)
  /-- LI (R76): Loads a 20-bit immediate and changes no flag. -/
  | iLi (c : CoreId) (d : RegId) (imm20 : W20)
  /-- LDBU (R77): Loads a byte and zero-extends it. -/
  | iLdbu (c : CoreId) (d : RegId) (a : RegId) (imm20 : W20)
  /-- LDBS (R77): Loads a byte and sign-extends it. -/
  | iLdbs (c : CoreId) (d : RegId) (a : RegId) (imm20 : W20)
  /-- LDHU (R77): Loads a half and zero-extends it. -/
  | iLdhu (c : CoreId) (d : RegId) (a : RegId) (imm20 : W20)
  /-- LDHS (R77): Loads a half and sign-extends it. -/
  | iLdhs (c : CoreId) (d : RegId) (a : RegId) (imm20 : W20)
  /-- LDWL (R77): Loads a word with a 20-bit displacement. -/
  | iLdwl (c : CoreId) (d : RegId) (a : RegId) (imm20 : W20)
  /-- LDP (R78): Loads a pair from two triples. -/
  | iLdp (c : CoreId) (d : RegId) (a : RegId) (imm20 : W20)
  /-- STB (R77): Stores a byte. -/
  | iStb (c : CoreId) (d : RegId) (a : RegId) (imm20 : W20)
  /-- STH (R77): Stores a half. -/
  | iSth (c : CoreId) (d : RegId) (a : RegId) (imm20 : W20)
  /-- STWL (R77): Stores a word with a 20-bit displacement. -/
  | iStwl (c : CoreId) (d : RegId) (a : RegId) (imm20 : W20)
  /-- STP (R78): Stores a pair as two triples. -/
  | iStp (c : CoreId) (d : RegId) (a : RegId) (imm20 : W20)
  /-- TRAP (R79): Raises TRAP with a 12-bit code. -/
  | iTrap (c : CoreId) (imm12 : BitVec 12)
  /-- TNOW (R84): Reads mesh time into a pair. -/
  | iTnow (c : CoreId) (d : RegId)
  /-- WAT (R85): Gates the core clock until a mesh time is reached. -/
  | iWat (c : CoreId) (a : RegId)
  /-- WAT_RELEASE (R85): Resumes a core waiting in wat once its time is reached, or after a forward step passes it. -/
  | watRelease (c : CoreId)
  /-- ARM (R86): Waits for the store buffer to drain, then places an action-table entry with its fire tick, action word and reservation. -/
  | iArm (c : CoreId) (d : RegId) (a : RegId) (b : RegId)
  /-- ACTION_FIRE (R7): Fires the armed actions whose tick is reached, after resolving conflicts under R89 and reservations under R40. -/
  | actionFire (temp : BitVec 10)
  /-- POST (R93): Sets a core event line or emits a lattice pulse. -/
  | iPost (c : CoreId) (a : RegId) (b : RegId)
  /-- SENSE (R92): Reads 16 pending bits of the core's event lines. -/
  | iSense (c : CoreId) (d : RegId) (a : RegId)
  /-- WEV (R95): Waits for one of a set of event lines, with a timeout. -/
  | iWev (c : CoreId) (d : RegId) (a : RegId) (b : RegId)
  /-- WEV_EVENT (R95): Resumes a waiting core with the lowest pending line of its mask. -/
  | wevEvent (c : CoreId)
  /-- WEV_TIMEOUT (R95): Ends a wev whose timeout expires, with d := 0xFFFFF and Z := 1. -/
  | wevTimeout (c : CoreId)
  /-- ACK (R94): Clears the pending bit of an event line. -/
  | iAck (c : CoreId) (a : RegId)
  /-- TAKE (R96): Requests rations for a program holder, judging at once for timeout 0 or otherwise waiting. -/
  | iTake (c : CoreId) (d : RegId) (a : RegId) (b : RegId)
  /-- TAKE_TIMEOUT (R96): Withdraws a waiting take whose timeout expires, with code 2. -/
  | takeTimeout (c : CoreId)
  /-- GIVE (R35): Returns rations from a program holder. -/
  | iGive (c : CoreId) (d : RegId) (a : RegId)
  /-- XCHG (R97): Waits for the store buffer to drain, then atomically swaps a register with a word. -/
  | iXchg (c : CoreId) (d : RegId) (a : RegId)
  /-- FENCE (R99): Holds later loads and stores until every earlier store is visible. -/
  | iFence (c : CoreId)
  /-- STORE_VISIBLE (R98): Makes a buffered store visible at its target, in program order. -/
  | storeVisible (c : CoreId)
  /-- RTI (R112): Returns from the highest bank in use. -/
  | iRti (c : CoreId)
  /-- SYS (R103): Raises SYS with an 8-bit detail. -/
  | iSys (c : CoreId) (imm8 : BitVec 8)
  /-- MFS (R104): Reads a system register. -/
  | iMfs (c : CoreId) (d : RegId) (sr : BitVec 8)
  /-- MTS (R104): Writes a system register, under the task-mode limits of R100. -/
  | iMts (c : CoreId) (sr : BitVec 8) (d : RegId)
  /-- HALT (R105): Gates the core clock until an interrupt is taken. -/
  | iHalt (c : CoreId)
  /-- INTERRUPT_ENTRY (R108): Takes a pending, enabled and unmasked event line at an instruction boundary, abandoning a divide, wat, wev or waiting take. -/
  | interruptEntry (c : CoreId)
  /-- CORE_RESET (R113): Resets a core through CC_RUN.CRESET once its store buffer has drained, and clears its action table. -/
  | coreReset (c : CoreId)
  /-- CORE_RUN (R517): Writes CC_RUN.RUN: 1 requests the core's charge and starts it after the grant; 0 stops it and returns the charge. -/
  | coreRun (c : CoreId) (run : Bool)
  /-- LOFT_WRITE (R113): Writes a loft word through CC_LOFTDATA while RUN is 0, or refuses the write with LOFT_REFUSED. -/
  | loftWrite (c : CoreId) (v : W20)
  /-- LOFT_READ (R113): Reads a loft word through CC_LOFTDATA and advances the address when AUTOINC is 1. -/
  | loftRead (c : CoreId)
  /-- POOL_WRITE (R27): Applies, clamps or refuses a write of the pool total and pays OWED first. -/
  | poolWrite (v : W20)
  /-- VBAT_SAMPLE (R31): Samples VBAT once per slow-clock cycle and moves the measured band. -/
  | vbatSample (vbat : BitVec 10)
  /-- MANGER_EVALUATION (R36): Evaluates the waiting ration requests once per tick or slow-clock cycle and grants those that fit. -/
  | mangerEvaluation
  /-- PATIENCE_EXPIRY (R14): Makes a request urgent once its waiting time exceeds the patience of its class. -/
  | patienceExpiry
  /-- EXTERNAL_HOLDER_MODE_WRITE (R38): Sets an external holder off, static or tied, requesting or returning its AMOUNT. -/
  | extHolderModeWrite (n : Fin 4) (v : W20)
  /-- TIED_PIN_ASSERT (R38): Holds a tied pin deasserted until its holder's grant, and returns the holding when the pin deasserts. -/
  | tiedPinAssert (n : Fin 4) (level : Bool)
  /-- RESERVATION_REQUEST (R39): Places a class 3 request at the fire tick minus LEAD for an armed reservation. -/
  | reservationRequest (c : CoreId) (e : Fin 16)
  /-- HITCH_READ (R130): Performs a host READ transaction, returning data after 0x5A or an error marker. -/
  | hitchRead (addr : W20) (n : Nat)
  /-- HITCH_WRITE (R132): Performs a host WRITE transaction, writing bytes or whole register groups. -/
  | hitchWrite (addr : W20) (bytes : List Byte)
  /-- HITCH_STATUS (R131): Returns the status byte repeatedly. -/
  | hitchStatus (cmd : Byte := 0x05) (n : Nat := 1)
  /-- HSP_RING_WRITE (R133): Sets host doorbell bits from a core. -/
  | hspRingWrite (v : W20)
  /-- HSP_H2C_WRITE (R133): Sets doorbells to the cores and fires the hitch doorbell producer for each bit newly set. -/
  | hspH2cWrite (v : W20)
  /-- FLASH_PROGRAM (R126): Programs 1–256 bytes from SRAM into a flash page. -/
  | flashProgram (len : BitVec 9) (pageOfs : BitVec 8)
  /-- FLASH_ERASE (R126): Erases the flash block that contains the page. -/
  | flashErase
  /-- FLASH_OP_DONE (R127): Sets DONE, or ERR with cause 5, when the flash reports the end of an operation. -/
  | flashOpDone (ok : Bool)
  /-- UART_RX_BYTE (R134): Receives a byte into the RX FIFO, or discards it and sets OVERRUN. -/
  | uartRxByte (b : Byte) (ferr : Bool) (brk : Bool)
  /-- UART_TX_BYTE_SENT (R134): Completes the shifting of one byte out of the TX FIFO. -/
  | uartTxByteSent
  /-- UART_DATA_READ (R134): Pops a byte from the RX FIFO. -/
  | uartDataRead
  /-- UART_DATA_WRITE (R134): Pushes a byte onto the TX FIFO, or sets TXOVF. -/
  | uartDataWrite (b : Byte)
  /-- GPIO_INPUT_CHANGE (R136): Takes a filtered pin edge and fires its lattice producer as PEV selects. -/
  | gpioInputChange (p : Fin 24) (level : Bool)
  /-- BUS_TIMEOUT (R120): Ends an access still unanswered after 256 bus cycles as a bus timeout. -/
  | busTimeout (who : BusMaster)
  /-- RADIO_REQ (R143): Requests STANDBY or OFF through RFE_CTL.REQ. -/
  | radioReq (req : BitVec 2)
  /-- LISTEN_WINDOW_OPEN (R144): Opens a listen window on the named chains, by action or register. -/
  | listenWindowOpen (chains : BitVec 2)
  /-- LISTEN_WINDOW_CLOSE (R144): Closes the listen window, by action or register. -/
  | listenWindowClose
  /-- RADIO_TRANSITION_DONE (R143): Completes a timed radio transition such as OFF→STANDBY or STANDBY→LISTEN. -/
  | radioTransitionDone
  /-- RX_LO_WRITE (R138): Applies INT and FRAC of the RX LO, or refuses them, and starts a relock. -/
  | rxLoWrite (int : BitVec 7) (frac : W20)
  /-- SYNTH_LOCK (R139): Completes the lock of a synthesizer and ends its blanking. -/
  | synthLock (tx : Bool)
  /-- GAIN_WRITE (R141): Applies a chain gain at the next tick, or holds it until the next listen opening. -/
  | gainWrite (chainB : Bool) (v : W20)
  /-- OVERLOAD_DETECT (R142): Sets OVLA or OVLB when the ADC input exceeds −1 dBFS on 4 samples. -/
  | overloadDetect (chainB : Bool)
  /-- ENERGY_WINDOW_END (R142): Updates LEVEL at the end of each 1,024-sample window. -/
  | energyWindowEnd (chainB : Bool) (level : BitVec 12)
  /-- TX_HOLD_CHECK (R148): Checks at tick 1,344 whether rations, lock and PA steps allow the driver ramp, and otherwise holds. -/
  | txHoldCheck
  /-- TX_LATE (R148): Abandons a transmission whose hold reaches LIMIT. -/
  | txLate
  /-- TALK_REACHED (R146): Enters TALK 192 ticks after the ramp starts, with the first preamble symbol at RFOUT. -/
  | talkReached
  /-- FRAME_SENT (R217): Clears READY and sets TX_DONE when the last symbol of a frame leaves RFOUT. -/
  | frameSent
  /-- TURN_BACK_SWAP (R147): Returns the transmit set and takes the receive set at tick 192, or waits. -/
  | turnBackSwap
  /-- MASK_WINDOW_END (R152): Measures the power at each enabled mask point over a 32-symbol window. -/
  | maskWindowEnd (meas : List (Nat×Nat))
  /-- LOCK_LOST (R154): Handles the loss of TX or RX synthesizer lock. -/
  | lockLost (tx : Bool) (temp : BitVec 10)
  /-- PA_STEP (R155): Applies the next PA table step when its delay expires. -/
  | paStep
  /-- PA_STEP_GRANT (R158): Applies a PA step that was waiting on its tied holder's grant. -/
  | paStepGrant
  /-- RXSYN (R162): Runs the commanded RX synthesizer calibration step. -/
  | calRxsyn (temp : BitVec 10)
  /-- TXSYN (R162): Runs the commanded TX synthesizer calibration step. -/
  | calTxsyn (temp : BitVec 10)
  /-- TPM (R162): Runs the commanded two-point modulation calibration step. -/
  | calTpm (temp : BitVec 10)
  /-- IQA (R162): Runs the commanded IQ calibration step of chain A. -/
  | calIqa (temp : BitVec 10)
  /-- IQB (R162): Runs the commanded IQ calibration step of chain B. -/
  | calIqb (temp : BitVec 10)
  /-- CAL_STEP_DONE (R162): Ends a calibration step, starts the next one or sets CAL_DONE. -/
  | calStepDone (trim : W20) (temp : BitVec 10 := 0)
  /-- DIE_TEMP_SAMPLE (R160): Samples the die temperature every 32 slow-clock cycles and marks temperature calibrations pending. -/
  | dieTempSample (temp : BitVec 10)
  /-- TEMP_CAL_START (R161): Starts a pending temperature calibration once its conditions hold. -/
  | tempCalStart (temp : BitVec 10)
  /-- SYNTH_CAL_DONE (R160): Ends a synthesizer calibration with the synthesizer locked. -/
  | synthCalDone (tx : Bool)
  /-- STC_PLAN_WRITE (R166): Applies or refuses a change of channel spacing. -/
  | stcPlanWrite (v : W20)
  /-- STC_MAP_WRITE (R168): Applies lane-map fields in two passes and refuses conflicting fields. -/
  | stcMapWrite (k : Fin 16) (v : W20)
  /-- STALL_ENABLE (R170): Sets or clears a stall's EN by register or by a kind 0x4 or 0x5 action. -/
  | stallEnable (p : Pos) (en : Bool) (byAction : Bool)
  /-- PREAMBLE_DETECT (R173): Enters PREAMBLE when QUAL reaches PTHR on either aerial. -/
  | preambleDetect (p : Pos) (qualA : BitVec 10) (qualB : BitVec 10)
  /-- AERIAL_CHOICE (R174): Chooses the aerial after DWIN symbols and enters SYNCWAIT. -/
  | aerialChoice (p : Pos) (meanA : BitVec 10) (meanB : BitVec 10)
  /-- SYNC_DECLARED (R179): Latches the sync record, takes a descriptor and enters RECEIVE, or captures. -/
  | syncDeclared (p : Pos) (rxA : AerialRx) (rxB : AerialRx)
  /-- NOSYNC (R176): Returns to SEARCH when SYNC_TO symbols pass without a sync. -/
  | nosync (p : Pos)
  /-- PACKET_RECEIVED (R185): Marks LAST RECEIVED when a packet's last symbol leaves the stall and passes its descriptor to FRAME. -/
  | packetReceived (p : Pos) (body : List Bool)
  /-- STL_TSLO_READ (R178): Copies the sync record into a snapshot. -/
  | stlTsloRead (p : Pos)
  /-- STC_GIVE (R189): Returns a descriptor from PROGRAM to FREE, or refuses. -/
  | stcGive (v : W20)
  /-- POOL_CONFIG_WRITE (R191): Applies or refuses a pool configuration and refills its queue. -/
  | poolConfigWrite (q : Fin 2) (which : PoolReg) (v : W20)
  /-- HEADER_RECEIVED (R200): Judges the header or PHR at its last bit: accepted, HEADER_BAD or OVERSIZE. -/
  | headerReceived (p : Pos) (soft : List Int)
  /-- BLOCK_QUEUED (R208): Makes a block a decode job when its last bit leaves the stall and requests decoder rations. -/
  | blockQueued (p : Pos) (soft : List Int := [])
  /-- DECODE_START (R210): Starts the next job when the decoder is free and holds its rations. -/
  | decodeStart
  /-- DECODE_DONE (R209): Ends a decode on zero syndrome or at ITER, and checks the CRC-24. -/
  | decodeDone (iters : Nat) (info parity : List Bool)
  /-- DECODER_IDLE (R211): Returns the decoder's rations in the tick after it becomes idle. -/
  | decoderIdle
  /-- DEC_HOLD_WRITE (R211): Sets DEC_CTL.HOLD and requests or returns the decoder's charge. -/
  | decHoldWrite (hold : Bool)
  /-- TX_SLOT_READY_WRITE (R216): Accepts or refuses READY for a transmit slot, or withdraws a frame. -/
  | txSlotReadyWrite (k : Fin 16) (v : W20)
  /-- SRAM_ERR (R218): Abandons a transmission whose frame read finds an uncorrectable error. -/
  | sramErr (addr : W20)
  /-- SLOT_BOUNDARY (R224): Advances START and ASN, activates staged tables and fires the slot-start producer. -/
  | slotBoundary
  /-- SCH_SLOTLEN_WRITE (R225): Stages a slot length or refuses it. -/
  | schSlotlenWrite (v : W20)
  /-- SCH_SYNCOFS_WRITE (R225): Sets the mark offset at once, or refuses it. -/
  | schSyncofsWrite (v : W20)
  /-- LOAD (R226): Loads ASN and START, activates staged tables and normalises. -/
  | schLoad
  /-- SCH_RUN_SET (R226): Starts the schedule engine and normalises. -/
  | schRunSet
  /-- SCH_ASNLO_READ (R227): Snapshots the ASN and START halves. -/
  | schAsnloRead
  /-- HOP_WRITE (R229): Writes staged hop entries or L, refusing out-of-range values. -/
  | hopWrite (k : Option (Fin 22)) (v : W20)
  /-- SCH_HOPQ_READ (R230): Computes a cell's channel from the active hop table. -/
  | schHopqRead
  /-- KNOCK_CAUGHT (R234): Latches the sync record on a knock and reads the next 52 symbols. -/
  | knockCaught (p : Pos) (rxA : AerialRx) (rxB : AerialRx)
  /-- COUNTDOWN_RECEIVED (R235): Checks the count fields and writes a catch record with D, or counts BAD. -/
  | countdownReceived (p : Pos) (fields : BitVec 52)
  /-- FIND (R246): Looks a key up in the neighbour table. -/
  | nbtFind
  /-- ADD_RECORD (R246): Adds a NEW neighbour record for a key. -/
  | nbtAdd (i : BitVec 11)
  /-- CLEAR (R246): Empties a neighbour record. -/
  | nbtClear (i : BitVec 11)
  /-- MISS (R242): Counts a miss and makes a TRACKED record LOST at MISS_LIMIT. -/
  | nbtMiss (i : BitVec 11)
  /-- SET (R246): Sets a record's time, offset, drift and uncertainty. -/
  | nbtSet (i : BitVec 11)
  /-- PREDICT (R243): Reports the predicted offset and the receive and send half-widths. -/
  | nbtPredict (i : BitVec 11)
  /-- TSRC1 (R246): Marks a record as a time source. -/
  | nbtTsrc1 (i : BitVec 11)
  /-- TSRC0 (R246): Clears the time-source mark. -/
  | nbtTsrc0 (i : BitVec 11)
  /-- NBT_COMMAND_DONE (R246): Ends a neighbour-table command and clears BUSY. -/
  | nbtCommandDone
  /-- MESH_TIME_STEP (R245): Steps mesh time by a signed value, updates ERA and normalises the schedule. -/
  | meshTimeStep (delta : W40)
  /-- STEP_SWEEP_DONE (R245): Ends a sweep, letting waiting samples and commands run. -/
  | stepSweepDone
  /-- RELAY_FIRE (R270): Rechecks HEARD and fires or suppresses the relay's TX start at START + RLY_FIRE. -/
  | relayFire (temp : BitVec 10)
  /-- RELAY_TRY (R271): Counts a failed relay try and drops the relay after TRIES. -/
  | relayTry
  /-- IMMEDIATE_ACK_START (R273): Loads and fires an immediate ACK, or ends it as NOWIN or BUSY. -/
  | immediateAckStart (temp : BitVec 10)
  /-- ACK_DECISION (R275): Sends the ACK in full or cuts it, by the frame's state at the tick of its last sync symbol. -/
  | ackDecision
  /-- ACK_WAIT_TIMEOUT (R276): Ends an ACK wait as MISS after ACKW_TO ticks. -/
  | ackWaitTimeout
  /-- ACK_PRIM_WRITE (R273): Stages the primary position for the next slot. -/
  | ackPrimWrite (v : W20)
  /-- RC_COPY (R279): Removes roll-call entries and writes them to SRAM. -/
  | rcCopy (addr : W20)
  /-- RC_COPY_DONE (R279): Ends a roll-call copy and clears BUSY. -/
  | rcCopyDone
  /-- FOLD_ENABLE (R265): Clears the whole fold on EN := 1. -/
  | foldEnable (v : W20)
  /-- FOLD_CLEAR_DONE (R265): Ends the fold clearing and lets the fold be used. -/
  | foldClearDone
  /-- FOLD_ERR (R265): Disables the fold on a bus error and withdraws the pending relays. -/
  | foldErr
  /-- RELAY_DISABLE (R280): Withdraws every pending relay on RLY_CFG.EN := 0. -/
  | relayDisable
  /-- KEYMAP_WRITE (R282): Maps a key index to a slot, or refuses it. -/
  | keymapWrite (k : Fin 64) (v : W20)
  /-- GENERATE (R283): Provisions a slot with a key from the TRNG. -/
  | trGenerate (src : Source) (slot : Fin 64)
  /-- IMPORT_ECDH (R284): Unwraps a key wrapped to the identity key through ECDH. -/
  | trImportEcdh (src : Source) (slot : Fin 64)
  /-- IMPORT_KEK (R285): Unwraps a key under a KEK slot. -/
  | trImportKek (src : Source) (slot : Fin 64)
  /-- ERASE (R283): Zeroes a slot and makes it EMPTY. -/
  | trErase (src : Source) (slot : Fin 64)
  /-- EXPORT (R286): Sets RESERVE and writes the slot's blob. -/
  | trExport (src : Source) (slot : Fin 64)
  /-- RESTORE (R286): Unwraps a blob into an EMPTY slot. -/
  | trRestore (src : Source) (slot : Fin 64)
  /-- TR_COMMAND_DONE (R283): Ends a tack-room command with its RESULT and sets TR_DONE. -/
  | trCommandDone
  /-- CPH_SUBMIT (R290): Submits a request record from a source, or refuses a second submission. -/
  | cphSubmit (src : Fin 7) (addr : W20)
  /-- CIPHER_ACCEPT (R289): Checks and accepts a waiting submission into a free queue entry, counting a key use. -/
  | cipherAccept
  /-- CIPHER_REQUEST_START (R291): Starts the next queued request, waiting for a free hold half for decryption. -/
  | cipherRequestStart
  /-- CIPHER_REQUEST_DONE (R291): Compares the tag, releases or zeroes the hold half and writes w0 last. -/
  | cipherRequestDone
  /-- CIPHER_IDLE (R293): Returns holder 14's charge in the tick after the engines become idle. -/
  | cipherIdle
  /-- HASH_INIT (R295): Resets the SHA-256 state. -/
  | hashInit
  /-- HASH_UPDATE (R295): Hashes bytes from a wide address. -/
  | hashUpdate
  /-- HASH_FINAL (R295): Writes the 32-byte digest. -/
  | hashFinal
  /-- VERIFY (R295): Verifies an ECDSA P-256 signature. -/
  | hpkVerify
  /-- SIGN_ID (R296): Signs a digest with the identity key, at most 16 per boot. -/
  | hpkSignId (src : Source)
  /-- ID_RECORD (R301): Writes the 84-byte identity record. -/
  | hpkIdRecord
  /-- HPK_COMMAND_DONE (R295): Ends a hash or public-key command with its RESULT. -/
  | hpkCommandDone
  /-- TRNG_DATA_READ (R297): Consumes 16 conditioned bits. -/
  | trngDataRead
  /-- TRNG_HEALTH_FAIL (R297): Stops TRNG output on a failed health test. -/
  | trngHealthFail (rct : Bool) (apt : Bool)
  /-- TRNG_RESTART (R297): Reruns the start-up tests over 1,024 samples. -/
  | trngRestart (passed : Bool)
  /-- ROOT_SET (R302): Sets a customer root, unsigned before seal and signed after. -/
  | koRootSet (src : Source)
  /-- ROOT_REVOKE (R302): Revokes a customer root. -/
  | koRootRevoke (src : Source)
  /-- SEAL (R302): Seals the device irreversibly. -/
  | koSeal (src : Source)
  /-- DBG_UNLOCK (R305): Opens debug scopes on a signed order. -/
  | koDbgUnlock (src : Source)
  /-- CHD_CTL_WRITE (R317): Enables ports and sets chord roles, refusing changes of ANCHOR or TOPO while in line. -/
  | chdCtlWrite (v : W20)
  /-- BYPASS_CHANGE (R317): Opens or closes the bypass once the line has been idle for 200 ns outside the node's bays. -/
  | bypassChange
  /-- REPEAT_LOCK (R314): Locks the first port whose input crosses squelch and drives the other. -/
  | repeatLock (portA : Bool) (portB : Bool)
  /-- REPEAT_RELEASE (R314): Re-arms both receivers after 200 ns without a transition. -/
  | repeatRelease
  /-- BAY_START (R320): Begins an active bay and acts by its role: drive, time, range or knock. -/
  | bayStart (e : Fin 32)
  /-- BAY_END (R323): Ends a bay, returns its tokens and judges loop checks. -/
  | bayEnd
  /-- CTX_READY_WRITE (R322): Queues or withdraws a chord transmit frame. -/
  | ctxReadyWrite (k : Fin 8) (v : W20)
  /-- CHORD_FRAME_RECEIVED (R313): Judges a decoded chord frame, captures it or takes it as a time frame. -/
  | chordFrameReceived (port : Port) (rx : ChordRx)
  /-- CHORD_FRAME_SENT (R322): Clears READY and sets TX_DONE when the last check symbol leaves. -/
  | chordFrameSent
  /-- RANGING_BURST_RECEIVED (R325): Sends an echo burst 2,000 ns after a received burst. -/
  | rangingBurstReceived (port : Port) (frac : BitVec 8 := 0)
  /-- RANGING_ECHO_RECEIVED (R326): Measures the round trip and writes the latency to CHD_RNGA or CHD_RNGB. -/
  | rangingEchoReceived (port : Port) (ns : Nat)
  /-- NORANGE (R326): Marks a port with no echo by the end of its phase. -/
  | norange (port : Port)
  /-- TIME_FRAME_EMIT (R328): Emits the node's own time frame 1,000 ns after taking one. -/
  | timeFrameEmit (frac : BitVec 8)
  /-- KNOCKED (R333): Detects a 64-symbol chord knock. -/
  | chordKnocked (syms : BitVec 64 := 0xF0E1D2C3B4A59687)
  /-- START (R340): Starts a DMA channel from DMA_CHn_NEXT, or sets MISSED. -/
  | dmaStart (ch : Fin 12)
  /-- DESCRIPTOR_FETCH (R340): Fetches a descriptor, ending with BAD_NEXT, CHAIN_LIMIT or NOT_OWNED, or running it. -/
  | dmaDescriptorFetch (ch : Fin 12)
  /-- CHUNK_READ (R345): Grants a credit and reads a chunk for a channel. -/
  | dmaChunkRead (ch : Fin 16)
  /-- CHUNK_WRITTEN (R345): Returns a credit when the last write of a chunk is acknowledged. -/
  | dmaChunkWritten
  /-- DESCRIPTOR_COMPLETE (R346): Writes w7 then w0 with OWN clear, sets DONE and chains. -/
  | dmaDescriptorComplete (ch : Fin 12)
  /-- ABORT (R347): Aborts a channel, or a halted descriptor. -/
  | dmaAbort (ch : Fin 12)
  /-- RESUME (R350): Re-runs a halted descriptor from byte DONE. -/
  | dmaResume (ch : Fin 12)
  /-- HALT_RELEASE (R350): Releases the engines on a W1C of HALT. -/
  | dmaHaltRelease
  /-- DMA_IDLE (R351): Returns holder 15's charge in the tick after the engines become idle. -/
  | dmaIdle
  /-- LATTICE_EVENT_DELIVERY (R358): Delivers a producer event through a channel to its consumer. -/
  | latticeEventDelivery (ch : Fin 64)
  /-- STORM (R363): Disables a clocked channel after 1,024 consecutive deliveries. -/
  | storm (ch : Fin 64)
  /-- LATTICE_CONFIG_WRITE (R362): Applies a lattice write, or refuses it with LOOP_REFUSED or PRIV_REFUSED. -/
  | latticeConfigWrite (src : Source) (ofs : BitVec 12) (v : W20)
  /-- TIMER_WRAP (R368): Wraps a timer to 0, sets OUT, copies the preload and steps the chain. -/
  | timerWrap (i : Fin 8)
  /-- TIMER_MATCH (R368): Matches a timer's compare value and clears OUT. -/
  | timerMatch (i : Fin 8)
  /-- TMR_CTL_WRITE (R370): Configures a timer, or refuses the write whole. -/
  | tmrCtlWrite (i : Fin 8) (v : W20)
  /-- TMR_CNT_WRITE (R369): Sets the count without a wrap or match. -/
  | tmrCntWrite (i : Fin 8) (v : W20)
  /-- TMR_CNT_READ (R374): Returns the count and latches the upper chain members. -/
  | tmrCntRead (i : Fin 8)
  /-- TMR_TOP_CMP_WRITE (R372): Writes TOP or CMP directly, or to a preload. -/
  | tmrTopCmpWrite (i : Fin 8) (cmp : Bool) (v : W20)
  /-- TIMER_EVENT_INPUT (R376): Acts on an event at the timer input as EVFN selects. -/
  | timerEventInput (i : Fin 8)
  /-- TMR_GSTART (R377): Starts and stops several timers together. -/
  | tmrGstart (v : W20)
  /-- RTC_SECOND (R380): Rolls SUBSEC into the next second through the calendar. -/
  | rtcSecond
  /-- RTC_SUBSEC_READ (R381): Snapshots the time and date. -/
  | rtcSubsecRead
  /-- RTC_APPLY_SUB (R382): Stages the application of RTC_SSUB. -/
  | rtcApplySub
  /-- RTC_APPLY_TIME (R382): Stages the application of RTC_STIME. -/
  | rtcApplyTime
  /-- RTC_APPLY_DATE (R382): Stages the application of RTC_SDATE. -/
  | rtcApplyDate
  /-- RTC_STAGED_APPLY (R382): Applies the staged groups at the next slow-clock edge. -/
  | rtcStagedApply
  /-- RTC_SHIFT (R383): Shifts the time by N/32,768 s at the next edge. -/
  | rtcShift (n : BitVec 16)
  /-- ALARM (R384): Fires an alarm when the time enters a match. -/
  | rtcAlarm (k : Fin 2)
  /-- BACKUP_STORE_COMPLETE (R386): Completes a store to the backup domain within 2 slow-clock cycles. -/
  | backupStoreComplete
  /-- BKP_INVALID (R388): Invalidates the time and backup bytes on a detector trip or a start from no supply. -/
  | bkpInvalid
  /-- SLK_FAIL (R392): Switches to the slow RC on a missing crystal edge. -/
  | slkFail
  /-- SLK_CFG_WRITE (R392): Selects the slow-clock source. -/
  | slkCfgWrite (v : W20)
  /-- REF_FAIL (R393): Handles a reference that fails to start or stops. -/
  | refFail
  /-- RETRY (R393): Restarts the reference. -/
  | refRetry
  /-- REFERENCE_READY (R397): Rejoins mesh time to the reference at the next slow-clock edge. -/
  | referenceReady
  /-- SYSTEM_PLL_LOCK (R394): Moves the clocks from the fast RC to the system PLL. -/
  | systemPllLock
  /-- CDIV_WRITE (R394): Changes the core clock at each core's next boundary. -/
  | cdivWrite (d : BitVec 2)
  /-- RATE_WINDOW_END (R396): Updates the slow-clock rate after each window. -/
  | rateWindowEnd (n : Nat)
  /-- DOZE (R399): Enters or leaves DOZE as the cores gate and resume. -/
  | doze
  /-- ENTER_REST (R400): Requests entry to REST. -/
  | enterRest
  /-- ENTER_ORBIT (R400): Requests entry to ORBIT. -/
  | enterOrbit
  /-- ENTER_DORMANT (R400): Requests entry to DORMANT. -/
  | enterDormant
  /-- ENTRY_CANCEL (R400): Cancels a pending entry by write or by a wake source. -/
  | entryCancel
  /-- SLEEP_ENTRY_BEGIN (R401): Begins entry at E0 once the conditions hold: stops the fast clocks and closes the bypass. -/
  | sleepEntryBegin
  /-- SLEEP_STATE_ENTERED (R401): Enters the state at E4, or wakes at once on a level source. -/
  | sleepStateEntered
  /-- WAKE (R405): Takes a wake from REST or ORBIT and enables the clocks. -/
  | wake (ws : WakeSource)
  /-- WAKE_RUN_REACHED (R405): Reaches RUN at the end of the wake sequence. -/
  | wakeRunReached
  /-- ACTION_WAKE (R403): Wakes for an armed action at its fire tick minus LEAD. -/
  | actionWake
  /-- DORMANT_EXIT (R406): Wakes from DORMANT as a cold reset of the core domain. -/
  | dormantExit (ws : WakeSource)
  /-- ORBIT_PASS_START (R407): Starts a pass in each slot of the interval, or sets SKIPPED or NOSCHED. -/
  | orbitPassStart
  /-- ORBIT_PREPARE (R408): Requests the reference and the radio holders ahead of step 0. -/
  | orbitPrepare
  /-- ORBIT_LISTEN (R409): Runs stalls on the step's channels for DUR ticks. -/
  | orbitListen
  /-- ORBIT_CHECK (R409): Evaluates TEST once. -/
  | orbitCheck
  /-- ORBIT_PAUSE (R409): Waits DUR ticks. -/
  | orbitPause
  /-- ORBIT_END (R409): Ends the pass. -/
  | orbitEnd
  /-- ORBIT_STEP_END (R409): Ends a step at its first hit or after DUR, taking its outcome. -/
  | orbitStepEnd (hit : Bool)
  /-- ORBIT_PASS_SLEEP (R408): Closes the window, returns the holders and begins the sleep phase. -/
  | orbitPassSleep
  /-- VBAT_BROWNOUT (R411): Enters or releases reset as VBAT crosses its thresholds. -/
  | vbatBrownout (below : Bool)
  /-- YARD_ENABLE (R422): Requests holder 11 and starts training on EN := 1. -/
  | yardEnable
  /-- YARD_DISABLE (R423): Completes queued requests and powers the yard down on EN := 0. -/
  | yardDisable
  /-- TRAINING_DONE (R422): Enters READY, or FAILED with TRAIN_FAIL. -/
  | trainingDone (ok : Bool) (stp : W20)
  /-- YARD_REQUEST_SERVE (R424): Serves the next yard request by class, row, age and number. -/
  | yardRequestServe (ch : Fin 2)
  /-- REFRESH (R425): Issues a REFRESH at tREFI, or postpones it. -/
  | yardRefresh (ch : Fin 2)
  /-- RETRAIN (R426): Starts a pause on each channel on command. -/
  | yardRetrain
  /-- RETRAIN_TRIGGER (R426): Starts a pause when PERIOD elapses or the temperature moves by TSTEP. -/
  | yardRetrainTrigger (ch : Fin 2)
  /-- RETRAIN_PAUSE_DONE (R426): Ends a retraining pause and resumes service. -/
  | yardRetrainPauseDone (ch : Fin 2)
  /-- COMMAND_RETIRE (R427): Retires a DRAM command 64 cycles after issue and releases its read data. -/
  | yardCommandRetire (ch : Fin 2)
  /-- ALERT (R427): Replays the unretired commands when ALERT_n falls, or fails after three alerts. -/
  | yardAlert (ch : Fin 2)
  /-- SELF_REFRESH_ENTER (R428): Enters self-refresh on SR := 1. -/
  | yardSelfRefreshEnter
  /-- SELF_REFRESH_EXIT (R428): Leaves self-refresh on SR := 0 after the grant. -/
  | yardSelfRefreshExit
  /-- SUPPLY_LOST (R430): Fails the yard when VDDQ or VPP is lost. -/
  | yardSupplyLost
  /-- INIT (R431): Fills the yard with zeros and valid check bytes. -/
  | yardInit
  /-- INIT_DONE (R431): Ends INIT. -/
  | yardInitDone
  /-- SOFT_REPAIR (R433): Runs a soft post-package repair. -/
  | yardSoftRepair (v : W20) (noResource : Bool)
  /-- HARD_REPAIR (R433): Runs a hard post-package repair. -/
  | yardHardRepair (v : W20) (noResource : Bool)
  /-- REPAIR_DONE (R433): Ends a repair with its RESULT. -/
  | yardRepairDone (ok : Bool)
  /-- POR (R435): Makes a cold reset on VBAT rising through brown-out release. -/
  | resetPor
  /-- PIN (R435): Makes a cold reset when DBG_RST_N is held low. -/
  | resetPin
  /-- SOFT_WARM (R436): Makes a warm reset through SYS_RST.KIND 1. -/
  | resetSoftWarm (src : Source)
  /-- SOFT_COLD (R435): Makes a cold reset through SYS_RST.KIND 2. -/
  | resetSoftCold (src : Source)
  /-- RECOVERY (R451): Makes a warm reset into recovery through SYS_RST.KIND 3. -/
  | resetRecovery (src : Source)
  /-- KEEPER_SEQUENCE (R438): Runs the keeper's start sequence up to B0's release. -/
  | keeperSequence (st : SelfTest)
  /-- KEEPER_SHORT_SEQUENCE (R439): Runs the shortened sequence after a warm reset or a DORMANT exit. -/
  | keeperShortSequence (recovLow : Bool)
  /-- HALTER_MODE_IN_FORCE (R452): Puts halter radio and chord service in force at tick 96,000, or at a later grant. -/
  | halterModeInForce
  /-- BOOT (R448): Verifies and launches a loader from the active or previous area. -/
  | koBoot (src : Source)
  /-- FAILS_CLEAR (R454): Clears FAILS. -/
  | koFailsClear (src : Source)
  /-- CEIL_SET (R454): Commits the ceiling record. -/
  | koCeilSet (src : Source)
  /-- HALTER_SET (R454): Commits the halter record. -/
  | koHalterSet (src : Source)
  /-- ENERGY_CLASS (R510): Commits the energy-class bit and forces limited drive. -/
  | koEnergyClass (src : Source)
  /-- FLOOR_RAISE (R450): Commits a loader-floor record. -/
  | koFloorRaise (src : Source)
  /-- KEEPER_ORDER_DONE (R454): Ends a keeper order with its result and sets DONE. -/
  | keeperOrderDone (otpOk : Bool)
  /-- START_TIMEOUT (R449): Makes a warm reset when the start watchdog expires. -/
  | startTimeout
  /-- KMB_WDOG_WRITE (R449): Sets or stops the start watchdog. -/
  | kmbWdogWrite (v : W20)
  /-- DECLARE (R453): Declares full service, ending halter mode. -/
  | declareService (src : Source)
  /-- FAULT_REPORT (R460): Sets a source's status bit and logs or repeats an entry. -/
  | faultReport (code : Fin 36) (detail : W20)
  /-- FATAL_WARM_RESET (R461): Asserts the warm reset 64 ticks after a fatal report. -/
  | fatalWarmReset
  /-- FLT_SRC_CLEAR (R459): Clears status bits, re-reporting any cause that persists. -/
  | fltSrcClear (k : Fin 2) (v : W20)
  /-- FLT_RELEASE (R464): Frees log entries. -/
  | fltRelease (v : W20)
  /-- TRACKER_HALVING (R466): Halves every tracker count each WIN hours. -/
  | trackerHalving
  /-- WITHDRAW (R468): Marks a lane failed and moves its position to a spare. -/
  | laneWithdraw (lane : BitVec 6)
  /-- AGEING_CHECK (R469): Measures the timing margin and raises VCORE by a step if needed. -/
  | ageingCheck (margin : BitVec 7)
  /-- MANIFEST (R477): Judges and stores a campaign manifest and imports its key. -/
  | updManifest (src : Source)
  /-- RESUME_CAMPAIGN (R478): Re-judges the stored manifest without erasing. -/
  | updResume (src : Source)
  /-- PIECE (R481): Authenticates a piece, programs it and commits its receipt. -/
  | updPiece (src : Source)
  /-- APPLY (R486): Copies, counts or reverts a part by its phase. -/
  | updApply (src : Source) (part : BitVec 3)
  /-- CONFIRM (R487): Confirms a part in TRIAL. -/
  | updConfirm (src : Source) (part : BitVec 3)
  /-- PIECE_OUT (R483): Rebuilds an encrypted piece from staging. -/
  | updPieceOut (src : Source) (part : BitVec 3) (idx : BitVec 14)
  /-- ABANDON (R490): Abandons the campaign. -/
  | updAbandon (src : Source)
  /-- UPDATE_COMMAND_DONE (R496): Ends an update command with its result. -/
  | updCommandDone (flashOk : Bool)
  /-- UPD_AREA_WRITE (R474): Places a part's areas, or refuses the write. -/
  | updAreaWrite (q : Fin 4) (v : W20)
  /-- RECOVERY_BLOCK (R493): Commits a recovery block received on any interface. -/
  | recoveryBlock (ifc : RecovIface) (payload : List Byte)
  /-- RECOVERY_STATUS (R494): Answers a BLOCK with a STATUS. -/
  | recoveryStatus
  /-- RECOVERY_IMAGE_JUDGED (R495): Judges and installs, or refuses, the downloaded loader. -/
  | recoveryImageJudged
  /-- PAD_CFG_WRITE (R509): Selects limited or full drive, unless the energy-class bit holds it limited. -/
  | padCfgWrite (v : W20)
  /-- REGISTER_WRITE (R122): Writes a register that has no row of its own, under its access codes. -/
  | registerWrite (src : Source) (addr : W20) (v : W20)
  /-- ILLEGAL_OP (R59): Executing an encoding that meets any condition of R59, such as 0xFFFFF in unloaded loft, raises ILLEGAL_OP and enters the exception vector. -/
  | illegalOp (c : CoreId) (w : W20) (x : W20)
  /-- FETCH_FAULT (R49): A fetch from 0x4000–0xBFFF, or of a loft or ROM word with an uncorrectable error, raises FETCH_FAULT at that address. -/
  | fetchFault (c : CoreId) (addr : BitVec 16) (twoWord : Bool)
  /-- SUPPLY_GOOD_CHANGE (R411): A bank supply (VIO, VFL, VBKP, VDDQ or VPP) becomes good or stops being good, updating SUP_STAT and moving the bank's pins between their unpowered and powered states. -/
  | supplyGoodChange (bank : Supply) (good : Bool)
  /-- HALTER_DATA_FRAME_START (R334): In halter mode, a queued chord DATA frame starts once the node's ports have been idle for 2,458 ticks. -/
  | halterDataFrameStart (k : Fin 8)
  /-- RANGING_PHASE_2 (R325): At 8,000 ns into a RANGE bay, each node in line sends its burst on port A and echoes on port B. -/
  | rangingPhase2
  /-- FAST_RC_RUNNING (R405): 768 ticks into a wake the fast RC is running, and with PWR_CTL.EARLY at 1 the cores resume at 16 MHz before the reference and PLL are ready. -/
  | fastRcRunning
deriving DecidableEq, Repr

end Sys2Proof
end

