-- ==== Sys2Proof/Machine/Regs.lean ====
section
/-! DEFINITION. The register space: one constant per register (its core address, from the block bases of R13 and the
register maps of spec/), one `Field` per named field, and the table of every register's reset value and access masks
(R4-R6, R121, R122).  Written from the maps; the mask columns are the RW, W1C and W1S bits of each map. -/

namespace Sys2Proof.Machine

/-! ## Register addresses and fields -/

def SYS_ID (k : Nat) : Nat := 0xC0000 + 4 * k
def SYS_ID_ID (k : Nat) : Field := ⟨(SYS_ID k), 19, 0⟩
def SYS_RSTCAUSE : Nat := 0xC0040
def SYS_RSTCAUSE_WARM : Field := ⟨SYS_RSTCAUSE, 4, 4⟩
def SYS_RSTCAUSE_CAUSE : Field := ⟨SYS_RSTCAUSE, 3, 0⟩
def SYS_RST : Nat := 0xC0044
def SYS_RST_KIND : Field := ⟨SYS_RST, 1, 0⟩
def SYS_OTP : Nat := 0xC0048
def SYS_OTP_CEIL : Field := ⟨SYS_OTP, 19, 19⟩
def SYS_OTP_HALTER : Field := ⟨SYS_OTP, 18, 18⟩
def SYS_OTP_ENERGY : Field := ⟨SYS_OTP, 17, 17⟩
def SYS_OTP_ID_BAD : Field := ⟨SYS_OTP, 16, 16⟩
def SYS_OTP_BCNT_SPENT : Field := ⟨SYS_OTP, 15, 15⟩
def SYS_OTP_FLOORS : Field := ⟨SYS_OTP, 12, 8⟩
def SYS_OTP_EPOCH : Field := ⟨SYS_OTP, 7, 0⟩
def SYS_HALTER (k : Nat) : Nat := 0xC0050 + 4 * k
def SYS_HALTER_VALUE (k : Nat) : Field := ⟨(SYS_HALTER k), 19, 0⟩
def PWR_CTL : Nat := 0xC0400
def PWR_CTL_EARLY : Field := ⟨PWR_CTL, 3, 3⟩
def PWR_CTL_ENTER : Field := ⟨PWR_CTL, 2, 0⟩
def PWR_STATE : Nat := 0xC0404
def PWR_STATE_PEND : Field := ⟨PWR_STATE, 19, 19⟩
def PWR_STATE_STATE : Field := ⟨PWR_STATE, 2, 0⟩
def PWR_RETAIN : Nat := 0xC0408
def PWR_RETAIN_BANK : Field := ⟨PWR_RETAIN, 9, 0⟩
def PWR_WAKE : Nat := 0xC040C
def PWR_WAKE_ACTION : Field := ⟨PWR_WAKE, 9, 9⟩
def PWR_WAKE_ORBIT : Field := ⟨PWR_WAKE, 8, 8⟩
def PWR_WAKE_CHORD : Field := ⟨PWR_WAKE, 7, 7⟩
def PWR_WAKE_TIMER : Field := ⟨PWR_WAKE, 6, 6⟩
def PWR_WAKE_RTC : Field := ⟨PWR_WAKE, 5, 5⟩
def PWR_WAKE_HITCH : Field := ⟨PWR_WAKE, 4, 4⟩
def PWR_WAKE_GPIO_LEVEL : Field := ⟨PWR_WAKE, 3, 3⟩
def PWR_WAKE_GPIO_EDGE : Field := ⟨PWR_WAKE, 2, 2⟩
def PWR_WAKE_AT_ENTRY : Field := ⟨PWR_WAKE, 1, 1⟩
def PWR_WAKE_ENTRY_CANCEL : Field := ⟨PWR_WAKE, 0, 0⟩
def PWR_AWAKE : Nat := 0xC0410
def PWR_AWAKE_LEAD : Field := ⟨PWR_AWAKE, 19, 0⟩
def PWR_DWAKE : Nat := 0xC0414
def PWR_DWAKE_HITCH : Field := ⟨PWR_DWAKE, 8, 8⟩
def PWR_DWAKE_LEVEL : Field := ⟨PWR_DWAKE, 7, 0⟩
def SLK_CFG : Nat := 0xC0418
def SLK_CFG_SRC : Field := ⟨SLK_CFG, 0, 0⟩
def CLK_CTL : Nat := 0xC0420
def CLK_CTL_RETRY : Field := ⟨CLK_CTL, 3, 3⟩
def CLK_CTL_REF_TYPE : Field := ⟨CLK_CTL, 2, 2⟩
def CLK_CTL_CDIV : Field := ⟨CLK_CTL, 1, 0⟩
def CLK_STAT : Nat := 0xC0424
def CLK_STAT_REF_FAIL : Field := ⟨CLK_STAT, 5, 5⟩
def CLK_STAT_SLK_FAIL : Field := ⟨CLK_STAT, 4, 4⟩
def CLK_STAT_SLK_RC : Field := ⟨CLK_STAT, 3, 3⟩
def CLK_STAT_REF_OK : Field := ⟨CLK_STAT, 2, 2⟩
def CLK_STAT_SPLL : Field := ⟨CLK_STAT, 1, 1⟩
def CLK_STAT_RATE_OK : Field := ⟨CLK_STAT, 0, 0⟩
def MT_RATEI : Nat := 0xC0428
def MT_RATEI_VALUE : Field := ⟨MT_RATEI, 19, 0⟩
def MT_RATEF : Nat := 0xC042C
def MT_RATEF_VALUE : Field := ⟨MT_RATEF, 19, 0⟩
def MT_CAL : Nat := 0xC0430
def MT_CAL_AUTO : Field := ⟨MT_CAL, 7, 7⟩
def MT_CAL_CALW : Field := ⟨MT_CAL, 6, 3⟩
def MT_CAL_CALG : Field := ⟨MT_CAL, 2, 0⟩
def SUP_STAT : Nat := 0xC0434
def SUP_STAT_VPP : Field := ⟨SUP_STAT, 4, 4⟩
def SUP_STAT_VDDQ : Field := ⟨SUP_STAT, 3, 3⟩
def SUP_STAT_VFL : Field := ⟨SUP_STAT, 2, 2⟩
def SUP_STAT_VIO : Field := ⟨SUP_STAT, 1, 1⟩
def SUP_STAT_VBKP : Field := ⟨SUP_STAT, 0, 0⟩
def ORB_CTL : Nat := 0xC0440
def ORB_CTL_EN : Field := ⟨ORB_CTL, 19, 19⟩
def ORB_CTL_SI : Field := ⟨ORB_CTL, 13, 0⟩
def ORB_PHASE : Nat := 0xC0444
def ORB_PHASE_PHASE : Field := ⟨ORB_PHASE, 13, 0⟩
def ORB_T0 : Nat := 0xC0448
def ORB_T0_VALUE : Field := ⟨ORB_T0, 19, 0⟩
def ORB_PREP : Nat := 0xC044C
def ORB_PREP_VALUE : Field := ⟨ORB_PREP, 19, 0⟩
def ORB_ETHR : Nat := 0xC0450
def ORB_ETHR_VALUE : Field := ⟨ORB_ETHR, 19, 0⟩
def ORB_GMASK (k : Nat) : Nat := 0xC0454 + 4 * k
def ORB_GMASK_BITS (k : Nat) : Field := ⟨(ORB_GMASK k), 19, 0⟩
def ORB_GVAL (k : Nat) : Nat := 0xC045C + 4 * k
def ORB_GVAL_BITS (k : Nat) : Field := ⟨(ORB_GVAL k), 19, 0⟩
def ORB_STAT : Nat := 0xC0464
def ORB_STAT_NOSCHED : Field := ⟨ORB_STAT, 9, 9⟩
def ORB_STAT_LOOP : Field := ⟨ORB_STAT, 8, 8⟩
def ORB_STAT_SKIPPED : Field := ⟨ORB_STAT, 7, 7⟩
def ORB_STAT_LATE : Field := ⟨ORB_STAT, 6, 6⟩
def ORB_STAT_TEST : Field := ⟨ORB_STAT, 5, 3⟩
def ORB_STAT_STEP : Field := ⟨ORB_STAT, 2, 0⟩
def ORB_S_OP (k : Nat) : Nat := 0xC0480 + 8 * k
def ORB_S_OP_OP (k : Nat) : Field := ⟨(ORB_S_OP k), 19, 18⟩
def ORB_S_OP_TEST (k : Nat) : Field := ⟨(ORB_S_OP k), 17, 15⟩
def ORB_S_OP_HIT (k : Nat) : Field := ⟨(ORB_S_OP k), 14, 13⟩
def ORB_S_OP_MISS (k : Nat) : Field := ⟨(ORB_S_OP k), 12, 11⟩
def ORB_S_OP_JUMP (k : Nat) : Field := ⟨(ORB_S_OP k), 10, 8⟩
def ORB_S_OP_NST (k : Nat) : Field := ⟨(ORB_S_OP k), 7, 6⟩
def ORB_S_OP_OFS (k : Nat) : Field := ⟨(ORB_S_OP k), 5, 0⟩
def ORB_S_DUR (k : Nat) : Nat := 0xC0484 + 8 * k
def ORB_S_DUR_DUR (k : Nat) : Field := ⟨(ORB_S_DUR k), 19, 0⟩
def PAD_CFG : Nat := 0xC0500
def PAD_CFG_ENERGY : Field := ⟨PAD_CFG, 19, 19⟩
def PAD_CFG_LIM_VFL : Field := ⟨PAD_CFG, 1, 1⟩
def PAD_CFG_LIM_VIO : Field := ⟨PAD_CFG, 0, 0⟩
def MNG_POOL : Nat := 0xC1000
def MNG_POOL_BAND_FLOOR : Field := ⟨MNG_POOL, 12, 10⟩
def MNG_POOL_POOL : Field := ⟨MNG_POOL, 9, 0⟩
def MNG_CEIL : Nat := 0xC1004
def MNG_CEIL_BAND0_LOCK : Field := ⟨MNG_CEIL, 12, 12⟩
def MNG_CEIL_CEIL_FUSED : Field := ⟨MNG_CEIL, 11, 11⟩
def MNG_CEIL_CEILING : Field := ⟨MNG_CEIL, 9, 0⟩
def MNG_STATE : Nat := 0xC1008
def MNG_STATE_HELD : Field := ⟨MNG_STATE, 19, 10⟩
def MNG_STATE_FREE : Field := ⟨MNG_STATE, 9, 0⟩
def MNG_BAND : Nat := 0xC100C
def MNG_BAND_VBAT : Field := ⟨MNG_BAND, 19, 10⟩
def MNG_BAND_CHARGE_BAND : Field := ⟨MNG_BAND, 5, 3⟩
def MNG_BAND_MEAS_BAND : Field := ⟨MNG_BAND, 2, 0⟩
def MNG_FLAGS : Nat := 0xC1010
def MNG_FLAGS_NO_RATIONS : Field := ⟨MNG_FLAGS, 7, 7⟩
def MNG_FLAGS_BAND_UP : Field := ⟨MNG_FLAGS, 6, 6⟩
def MNG_FLAGS_BAND_DOWN : Field := ⟨MNG_FLAGS, 5, 5⟩
def MNG_FLAGS_DEBT : Field := ⟨MNG_FLAGS, 4, 4⟩
def MNG_FLAGS_GIVE_EXCESS : Field := ⟨MNG_FLAGS, 3, 3⟩
def MNG_FLAGS_EXCEEDS_POOL : Field := ⟨MNG_FLAGS, 2, 2⟩
def MNG_FLAGS_CLAMPED : Field := ⟨MNG_FLAGS, 1, 1⟩
def MNG_FLAGS_POOL_REFUSED : Field := ⟨MNG_FLAGS, 0, 0⟩
def MNG_IRQEN : Nat := 0xC1014
def MNG_IRQEN_EN : Field := ⟨MNG_IRQEN, 19, 0⟩
def MNG_DEBT : Nat := 0xC1018
def MNG_DEBT_OWED : Field := ⟨MNG_DEBT, 9, 0⟩
def MNG_WAIT : Nat := 0xC101C
def MNG_WAIT_URGENT : Field := ⟨MNG_WAIT, 13, 7⟩
def MNG_WAIT_WAITING : Field := ⟨MNG_WAIT, 6, 0⟩
def MNG_PAT (k : Nat) : Nat := 0xC1020 + 4 * k
def MNG_PAT_PATIENCE (k : Nat) : Field := ⟨(MNG_PAT k), 19, 0⟩
def MNG_LEAD : Nat := 0xC1030
def MNG_LEAD_LEAD : Field := ⟨MNG_LEAD, 19, 0⟩
def MNG_EXT (k : Nat) : Nat := 0xC1040 + 4 * k
def MNG_EXT_MODE (k : Nat) : Field := ⟨(MNG_EXT k), 19, 18⟩
def MNG_EXT_PIN (k : Nat) : Field := ⟨(MNG_EXT k), 17, 15⟩
def MNG_EXT_SCALE (k : Nat) : Field := ⟨(MNG_EXT k), 14, 14⟩
def MNG_EXT_GRANTED (k : Nat) : Field := ⟨(MNG_EXT k), 13, 13⟩
def MNG_EXT_WAITING (k : Nat) : Field := ⟨(MNG_EXT k), 12, 12⟩
def MNG_EXT_AMOUNT (k : Nat) : Field := ⟨(MNG_EXT k), 9, 0⟩
def MNG_HOLD (k : Nat) : Nat := 0xC1080 + 4 * k
def MNG_HOLD_REQ (k : Nat) : Field := ⟨(MNG_HOLD k), 19, 10⟩
def MNG_HOLD_HELD (k : Nat) : Field := ⟨(MNG_HOLD k), 9, 0⟩
def MNG_COST (k : Nat) : Nat := 0xC1100 + 4 * k
def MNG_COST_SCALED (k : Nat) : Field := ⟨(MNG_COST k), 19, 10⟩
def MNG_COST_COST3V (k : Nat) : Field := ⟨(MNG_COST k), 9, 0⟩
def MNG_FACTOR (k : Nat) : Nat := 0xC1140 + 4 * k
def MNG_FACTOR_F (k : Nat) : Field := ⟨(MNG_FACTOR k), 4, 0⟩
def CONS_RATIONS : Nat := 0xC1180
def CONS_RATIONS_HELD_SUM : Field := ⟨CONS_RATIONS, 19, 10⟩
def CONS_RATIONS_FREE : Field := ⟨CONS_RATIONS, 9, 0⟩
def CONS_DMA : Nat := 0xC1184
def CONS_DMA_HELD_SUM : Field := ⟨CONS_DMA, 19, 10⟩
def CONS_DMA_FREE : Field := ⟨CONS_DMA, 9, 0⟩
def CONS_DESC : Nat := 0xC1188
def CONS_DESC_HELD_SUM : Field := ⟨CONS_DESC, 19, 10⟩
def CONS_DESC_FREE : Field := ⟨CONS_DESC, 9, 0⟩
def CONS_BAY : Nat := 0xC118C
def CONS_BAY_HELD_SUM : Field := ⟨CONS_BAY, 19, 10⟩
def CONS_BAY_FREE : Field := ⟨CONS_BAY, 9, 0⟩
def CONS_CQ : Nat := 0xC1190
def CONS_CQ_HELD_SUM : Field := ⟨CONS_CQ, 19, 10⟩
def CONS_CQ_FREE : Field := ⟨CONS_CQ, 9, 0⟩
def FLT_FLAGS : Nat := 0xC2000
def FLT_FLAGS_CAND_FULL : Field := ⟨FLT_FLAGS, 5, 5⟩
def FLT_FLAGS_SUBST : Field := ⟨FLT_FLAGS, 4, 4⟩
def FLT_FLAGS_OVERFLOW : Field := ⟨FLT_FLAGS, 3, 3⟩
def FLT_FLAGS_NEW_FATAL : Field := ⟨FLT_FLAGS, 2, 2⟩
def FLT_FLAGS_NEW_CONT : Field := ⟨FLT_FLAGS, 1, 1⟩
def FLT_FLAGS_NEW_CORR : Field := ⟨FLT_FLAGS, 0, 0⟩
def FLT_IRQEN : Nat := 0xC2004
def FLT_IRQEN_EN : Field := ⟨FLT_IRQEN, 19, 0⟩
def FLT_SRC0 : Nat := 0xC2008
def FLT_SRC0_SRC : Field := ⟨FLT_SRC0, 19, 0⟩
def FLT_SRC1 : Nat := 0xC200C
def FLT_SRC1_SRC : Field := ⟨FLT_SRC1, 19, 0⟩
def FLT_LOST (k : Nat) : Nat := 0xC2010 + 4 * k
def FLT_LOST_LOST (k : Nat) : Field := ⟨(FLT_LOST k), 19, 0⟩
def FLT_CFG : Nat := 0xC201C
def FLT_CFG_LOGCE : Field := ⟨FLT_CFG, 19, 19⟩
def FLT_CFG_CETHR : Field := ⟨FLT_CFG, 11, 8⟩
def FLT_CFG_WIN : Field := ⟨FLT_CFG, 7, 0⟩
def FLT_RELEASE : Nat := 0xC2020
def FLT_RELEASE_ENTRY : Field := ⟨FLT_RELEASE, 15, 0⟩
def FLT_USED : Nat := 0xC2024
def FLT_USED_ENTRY : Field := ⟨FLT_USED, 15, 0⟩
def FLT_SPCMD : Nat := 0xC2028
def FLT_SPCMD_OP : Field := ⟨FLT_SPCMD, 19, 16⟩
def FLT_SPCMD_LANE : Field := ⟨FLT_SPCMD, 5, 0⟩
def FLT_SPSTAT : Nat := 0xC202C
def FLT_SPSTAT_BUSY : Field := ⟨FLT_SPSTAT, 19, 19⟩
def FLT_SPSTAT_RESULT : Field := ⟨FLT_SPSTAT, 18, 16⟩
def FLT_SPARE : Nat := 0xC2030
def FLT_SPARE_LANES : Field := ⟨FLT_SPARE, 19, 17⟩
def FLT_SPARE_VSTEPS : Field := ⟨FLT_SPARE, 16, 14⟩
def FLT_SPARE_OTPROWS : Field := ⟨FLT_SPARE, 13, 7⟩
def FLT_SPARE_MARGIN : Field := ⟨FLT_SPARE, 6, 0⟩
def FLT_SRAMSP0 : Nat := 0xC2034
def FLT_SRAMSP0_USED : Field := ⟨FLT_SRAMSP0, 19, 0⟩
def FLT_SRAMSP1 : Nat := 0xC2038
def FLT_SRAMSP1_USED : Field := ⟨FLT_SRAMSP1, 19, 0⟩
def FLT_LOFTSP : Nat := 0xC203C
def FLT_LOFTSP_USED : Field := ⟨FLT_LOFTSP, 19, 0⟩
def FLT_YCAND_LO (k : Nat) : Nat := 0xC2080 + 8 * k
def FLT_YCAND_LO_VALID (k : Nat) : Field := ⟨(FLT_YCAND_LO k), 19, 19⟩
def FLT_YCAND_LO_UE (k : Nat) : Field := ⟨(FLT_YCAND_LO k), 18, 18⟩
def FLT_YCAND_LO_CH (k : Nat) : Field := ⟨(FLT_YCAND_LO k), 17, 17⟩
def FLT_YCAND_LO_BG (k : Nat) : Field := ⟨(FLT_YCAND_LO k), 16, 16⟩
def FLT_YCAND_LO_BA (k : Nat) : Field := ⟨(FLT_YCAND_LO k), 15, 14⟩
def FLT_YCAND_HI (k : Nat) : Nat := 0xC2084 + 8 * k
def FLT_YCAND_HI_ROW (k : Nat) : Field := ⟨(FLT_YCAND_HI k), 16, 0⟩
def FLT_E_HDR (k : Nat) : Nat := 0xC2100 + 16 * k
def FLT_E_HDR_COMMIT (k : Nat) : Field := ⟨(FLT_E_HDR k), 19, 16⟩
def FLT_E_HDR_CLASS (k : Nat) : Field := ⟨(FLT_E_HDR k), 15, 14⟩
def FLT_E_HDR_REPEAT (k : Nat) : Field := ⟨(FLT_E_HDR k), 13, 10⟩
def FLT_E_HDR_CODE (k : Nat) : Field := ⟨(FLT_E_HDR k), 7, 0⟩
def FLT_E_DET (k : Nat) : Nat := 0xC2104 + 16 * k
def FLT_E_DET_VALUE (k : Nat) : Field := ⟨(FLT_E_DET k), 19, 0⟩
def FLT_E_TLO (k : Nat) : Nat := 0xC2108 + 16 * k
def FLT_E_TLO_VALUE (k : Nat) : Field := ⟨(FLT_E_TLO k), 19, 0⟩
def FLT_E_THI (k : Nat) : Nat := 0xC210C + 16 * k
def FLT_E_THI_VALUE (k : Nat) : Field := ⟨(FLT_E_THI k), 19, 0⟩
def LAT_CH (k : Nat) : Nat := 0xC3000 + 4 * k
def LAT_CH_EN (k : Nat) : Field := ⟨(LAT_CH k), 19, 19⟩
def LAT_CH_MODE (k : Nat) : Field := ⟨(LAT_CH k), 18, 18⟩
def LAT_CH_PROD (k : Nat) : Field := ⟨(LAT_CH k), 15, 8⟩
def LAT_CH_CONS (k : Nat) : Field := ⟨(LAT_CH k), 7, 0⟩
def LAT_CCFG (k : Nat) : Nat := 0xC3100 + 16 * k
def LAT_CCFG_RANK (k : Nat) : Field := ⟨(LAT_CCFG k), 19, 16⟩
def LAT_CCFG_FF (k : Nat) : Field := ⟨(LAT_CCFG k), 13, 12⟩
def LAT_CCFG_FILT (k : Nat) : Field := ⟨(LAT_CCFG k), 11, 10⟩
def LAT_CCFG_Q (k : Nat) : Field := ⟨(LAT_CCFG k), 0, 0⟩
def LAT_CLUT (k : Nat) : Nat := 0xC3104 + 16 * k
def LAT_CLUT_TRUTH (k : Nat) : Field := ⟨(LAT_CLUT k), 15, 0⟩
def LAT_CINA (k : Nat) : Nat := 0xC3108 + 16 * k
def LAT_CINA_IN1 (k : Nat) : Field := ⟨(LAT_CINA k), 15, 8⟩
def LAT_CINA_IN0 (k : Nat) : Field := ⟨(LAT_CINA k), 7, 0⟩
def LAT_CINB (k : Nat) : Nat := 0xC310C + 16 * k
def LAT_CINB_IN3 (k : Nat) : Field := ⟨(LAT_CINB k), 15, 8⟩
def LAT_CINB_IN2 (k : Nat) : Field := ⟨(LAT_CINB k), 7, 0⟩
def LAT_FLAGS : Nat := 0xC3200
def LAT_FLAGS_OVERLAP : Field := ⟨LAT_FLAGS, 3, 3⟩
def LAT_FLAGS_PRIV_REFUSED : Field := ⟨LAT_FLAGS, 2, 2⟩
def LAT_FLAGS_LOOP_REFUSED : Field := ⟨LAT_FLAGS, 1, 1⟩
def LAT_FLAGS_STORM : Field := ⟨LAT_FLAGS, 0, 0⟩
def LAT_IRQEN : Nat := 0xC3204
def LAT_IRQEN_EN : Field := ⟨LAT_IRQEN, 19, 0⟩
def LAT_SINFO : Nat := 0xC3208
def LAT_SINFO_VALID : Field := ⟨LAT_SINFO, 6, 6⟩
def LAT_SINFO_CHAN : Field := ⟨LAT_SINFO, 5, 0⟩
def LAT_LREF : Nat := 0xC320C
def LAT_LREF_OFS : Field := ⟨LAT_LREF, 11, 0⟩
def LAT_OVL (k : Nat) : Nat := 0xC3210 + 4 * k
def LAT_OVL_OVL (k : Nat) : Field := ⟨(LAT_OVL k), 19, 0⟩
def LAT_REQ (k : Nat) : Nat := 0xC3240 + 4 * k
def LAT_REQ_EN (k : Nat) : Field := ⟨(LAT_REQ k), 7, 7⟩
def LAT_REQ_CORE (k : Nat) : Field := ⟨(LAT_REQ k), 6, 5⟩
def LAT_REQ_LINE (k : Nat) : Field := ⟨(LAT_REQ k), 4, 0⟩
def LAT_CSUB0 : Nat := 0xC3280
def LAT_CSUB0_ADDR : Field := ⟨LAT_CSUB0, 19, 0⟩
def LAT_CSUB1 : Nat := 0xC3284
def LAT_CSUB1_ADDR : Field := ⟨LAT_CSUB1, 19, 0⟩
def LAT_CSUBCFG : Nat := 0xC3288
def LAT_CSUBCFG_CORE1 : Field := ⟨LAT_CSUBCFG, 3, 2⟩
def LAT_CSUBCFG_CORE0 : Field := ⟨LAT_CSUBCFG, 1, 0⟩
def TMR_CTL (k : Nat) : Nat := 0xC4000 + 32 * k
def TMR_CTL_EVFN (k : Nat) : Field := ⟨(TMR_CTL k), 18, 16⟩
def TMR_CTL_SLAVE (k : Nat) : Field := ⟨(TMR_CTL k), 15, 14⟩
def TMR_CTL_MASTER (k : Nat) : Field := ⟨(TMR_CTL k), 13, 11⟩
def TMR_CTL_PRE (k : Nat) : Field := ⟨(TMR_CTL k), 10, 7⟩
def TMR_CTL_CLK (k : Nat) : Field := ⟨(TMR_CTL k), 6, 4⟩
def TMR_CTL_CHAIN (k : Nat) : Field := ⟨(TMR_CTL k), 3, 3⟩
def TMR_CTL_PRELOAD (k : Nat) : Field := ⟨(TMR_CTL k), 2, 2⟩
def TMR_CTL_ONESHOT (k : Nat) : Field := ⟨(TMR_CTL k), 1, 1⟩
def TMR_CTL_RUN (k : Nat) : Field := ⟨(TMR_CTL k), 0, 0⟩
def TMR_CNT (k : Nat) : Nat := 0xC4004 + 32 * k
def TMR_CNT_CNT (k : Nat) : Field := ⟨(TMR_CNT k), 19, 0⟩
def TMR_TOP (k : Nat) : Nat := 0xC4008 + 32 * k
def TMR_TOP_VALUE (k : Nat) : Field := ⟨(TMR_TOP k), 19, 0⟩
def TMR_CMP (k : Nat) : Nat := 0xC400C + 32 * k
def TMR_CMP_VALUE (k : Nat) : Field := ⟨(TMR_CMP k), 19, 0⟩
def TMR_CAP (k : Nat) : Nat := 0xC4010 + 32 * k
def TMR_CAP_CAP (k : Nat) : Field := ⟨(TMR_CAP k), 19, 0⟩
def TMR_STAT (k : Nat) : Nat := 0xC4014 + 32 * k
def TMR_STAT_OUT (k : Nat) : Field := ⟨(TMR_STAT k), 2, 2⟩
def TMR_STAT_PEND (k : Nat) : Field := ⟨(TMR_STAT k), 1, 1⟩
def TMR_STAT_COUNTING (k : Nat) : Field := ⟨(TMR_STAT k), 0, 0⟩
def TMR_FLAGS : Nat := 0xC4100
def TMR_FLAGS_CFG_REFUSED : Field := ⟨TMR_FLAGS, 16, 16⟩
def TMR_FLAGS_WRAP : Field := ⟨TMR_FLAGS, 15, 8⟩
def TMR_FLAGS_CMP : Field := ⟨TMR_FLAGS, 7, 0⟩
def TMR_IRQEN : Nat := 0xC4104
def TMR_IRQEN_EN : Field := ⟨TMR_IRQEN, 19, 0⟩
def TMR_WAKEEN : Nat := 0xC4108
def TMR_WAKEEN_EN : Field := ⟨TMR_WAKEEN, 19, 0⟩
def TMR_GSTART : Nat := 0xC410C
def TMR_GSTART_STOP : Field := ⟨TMR_GSTART, 15, 8⟩
def TMR_GSTART_START : Field := ⟨TMR_GSTART, 7, 0⟩
def RTC_SUBSEC : Nat := 0xC5000
def RTC_SUBSEC_SUBSEC : Field := ⟨RTC_SUBSEC, 14, 0⟩
def RTC_TIME : Nat := 0xC5004
def RTC_TIME_HOUR : Field := ⟨RTC_TIME, 16, 12⟩
def RTC_TIME_MIN : Field := ⟨RTC_TIME, 11, 6⟩
def RTC_TIME_SEC : Field := ⟨RTC_TIME, 5, 0⟩
def RTC_DATE : Nat := 0xC5008
def RTC_DATE_YEAR : Field := ⟨RTC_DATE, 19, 12⟩
def RTC_DATE_MONTH : Field := ⟨RTC_DATE, 11, 8⟩
def RTC_DATE_DAY : Field := ⟨RTC_DATE, 7, 3⟩
def RTC_DATE_WDAY : Field := ⟨RTC_DATE, 2, 0⟩
def RTC_SSUB : Nat := 0xC500C
def RTC_SSUB_SUBSEC : Field := ⟨RTC_SSUB, 14, 0⟩
def RTC_STIME : Nat := 0xC5010
def RTC_STIME_HOUR : Field := ⟨RTC_STIME, 16, 12⟩
def RTC_STIME_MIN : Field := ⟨RTC_STIME, 11, 6⟩
def RTC_STIME_SEC : Field := ⟨RTC_STIME, 5, 0⟩
def RTC_SDATE : Nat := 0xC5014
def RTC_SDATE_YEAR : Field := ⟨RTC_SDATE, 19, 12⟩
def RTC_SDATE_MONTH : Field := ⟨RTC_SDATE, 11, 8⟩
def RTC_SDATE_DAY : Field := ⟨RTC_SDATE, 7, 3⟩
def RTC_SDATE_WDAY : Field := ⟨RTC_SDATE, 2, 0⟩
def RTC_CMD : Nat := 0xC5018
def RTC_CMD_SUB : Field := ⟨RTC_CMD, 2, 2⟩
def RTC_CMD_TIME : Field := ⟨RTC_CMD, 1, 1⟩
def RTC_CMD_DATE : Field := ⟨RTC_CMD, 0, 0⟩
def RTC_SHIFT : Nat := 0xC501C
def RTC_SHIFT_N : Field := ⟨RTC_SHIFT, 15, 0⟩
def RTC_FLAGS : Nat := 0xC5020
def RTC_FLAGS_BKP_INVALID : Field := ⟨RTC_FLAGS, 6, 6⟩
def RTC_FLAGS_REFUSED : Field := ⟨RTC_FLAGS, 5, 5⟩
def RTC_FLAGS_WRAP : Field := ⟨RTC_FLAGS, 4, 4⟩
def RTC_FLAGS_SECOND : Field := ⟨RTC_FLAGS, 3, 3⟩
def RTC_FLAGS_ALARM1 : Field := ⟨RTC_FLAGS, 1, 1⟩
def RTC_FLAGS_ALARM0 : Field := ⟨RTC_FLAGS, 0, 0⟩
def RTC_IRQEN : Nat := 0xC5024
def RTC_IRQEN_EN : Field := ⟨RTC_IRQEN, 19, 0⟩
def RTC_STAT : Nat := 0xC5028
def RTC_STAT_PEND : Field := ⟨RTC_STAT, 0, 0⟩
def RTC_ALSUB (k : Nat) : Nat := 0xC5040 + 16 * k
def RTC_ALSUB_FIELDS (k : Nat) : Field := ⟨(RTC_ALSUB k), 19, 0⟩
def RTC_ALTIME (k : Nat) : Nat := 0xC5044 + 16 * k
def RTC_ALTIME_FIELDS (k : Nat) : Field := ⟨(RTC_ALTIME k), 19, 0⟩
def RTC_ALDATE (k : Nat) : Nat := 0xC5048 + 16 * k
def RTC_ALDATE_FIELDS (k : Nat) : Field := ⟨(RTC_ALDATE k), 19, 0⟩
def RTC_ALCFG (k : Nat) : Nat := 0xC504C + 16 * k
def RTC_ALCFG_EN (k : Nat) : Field := ⟨(RTC_ALCFG k), 19, 19⟩
def RTC_ALCFG_WAKE (k : Nat) : Field := ⟨(RTC_ALCFG k), 18, 18⟩
def RTC_ALCFG_MASK (k : Nat) : Field := ⟨(RTC_ALCFG k), 7, 0⟩
def RTC_BKP (k : Nat) : Nat := 0xC5080 + 4 * k
def RTC_BKP_DATA (k : Nat) : Field := ⟨(RTC_BKP k), 15, 0⟩
def DMA_DONE : Nat := 0xC6000
def DMA_DONE_DONE : Field := ⟨DMA_DONE, 15, 0⟩
def DMA_DONEEN : Nat := 0xC6004
def DMA_DONEEN_EN : Field := ⟨DMA_DONEEN, 19, 0⟩
def DMA_FLAGS : Nat := 0xC6008
def DMA_FLAGS_ENDED : Field := ⟨DMA_FLAGS, 1, 1⟩
def DMA_FLAGS_HALT : Field := ⟨DMA_FLAGS, 0, 0⟩
def DMA_IRQEN : Nat := 0xC600C
def DMA_IRQEN_EN : Field := ⟨DMA_IRQEN, 19, 0⟩
def DMA_ERRLO : Nat := 0xC6010
def DMA_ERRLO_ADDR : Field := ⟨DMA_ERRLO, 19, 0⟩
def DMA_ERRHI : Nat := 0xC6014
def DMA_ERRHI_ADDR : Field := ⟨DMA_ERRHI, 19, 0⟩
def DMA_ERRINFO : Nat := 0xC6018
def DMA_ERRINFO_ENGINE : Field := ⟨DMA_ERRINFO, 19, 19⟩
def DMA_ERRINFO_CAUSE : Field := ⟨DMA_ERRINFO, 18, 16⟩
def DMA_ERRINFO_MORE : Field := ⟨DMA_ERRINFO, 15, 15⟩
def DMA_ERRINFO_CHV : Field := ⟨DMA_ERRINFO, 4, 4⟩
def DMA_ERRINFO_CHAN : Field := ⟨DMA_ERRINFO, 3, 0⟩
def DMA_HOPLIM : Nat := 0xC601C
def DMA_HOPLIM_LIMIT : Field := ⟨DMA_HOPLIM, 19, 0⟩
def DMA_CRED : Nat := 0xC6020
def DMA_CRED_HELD : Field := ⟨DMA_CRED, 13, 7⟩
def DMA_CRED_FREE : Field := ⟨DMA_CRED, 6, 0⟩
def DMA_BUSY : Nat := 0xC6024
def DMA_BUSY_HELD : Field := ⟨DMA_BUSY, 16, 16⟩
def DMA_BUSY_ACTIVE : Field := ⟨DMA_BUSY, 15, 0⟩
def DMA_CH_CTL (k : Nat) : Nat := 0xC6100 + 32 * k
def DMA_CH_CTL_RESUME (k : Nat) : Field := ⟨(DMA_CH_CTL k), 2, 2⟩
def DMA_CH_CTL_ABORT (k : Nat) : Field := ⟨(DMA_CH_CTL k), 1, 1⟩
def DMA_CH_CTL_START (k : Nat) : Field := ⟨(DMA_CH_CTL k), 0, 0⟩
def DMA_CH_NEXT (k : Nat) : Nat := 0xC6104 + 32 * k
def DMA_CH_NEXT_ADDR (k : Nat) : Field := ⟨(DMA_CH_NEXT k), 19, 0⟩
def DMA_CH_CUR (k : Nat) : Nat := 0xC6108 + 32 * k
def DMA_CH_CUR_VALUE (k : Nat) : Field := ⟨(DMA_CH_CUR k), 19, 0⟩
def DMA_CH_DONE (k : Nat) : Nat := 0xC610C + 32 * k
def DMA_CH_DONE_VALUE (k : Nat) : Field := ⟨(DMA_CH_DONE k), 19, 0⟩
def DMA_CH_HOPS (k : Nat) : Nat := 0xC6110 + 32 * k
def DMA_CH_HOPS_VALUE (k : Nat) : Field := ⟨(DMA_CH_HOPS k), 19, 0⟩
def DMA_CH_STAT (k : Nat) : Nat := 0xC6114 + 32 * k
def DMA_CH_STAT_STATE (k : Nat) : Field := ⟨(DMA_CH_STAT k), 19, 17⟩
def DMA_CH_STAT_CAUSE (k : Nat) : Field := ⟨(DMA_CH_STAT k), 16, 13⟩
def DMA_CH_STAT_MISSED (k : Nat) : Field := ⟨(DMA_CH_STAT k), 12, 12⟩
def DMA_CH_PAT (k : Nat) : Nat := 0xC6118 + 32 * k
def DMA_CH_PAT_PATIENCE (k : Nat) : Field := ⟨(DMA_CH_PAT k), 19, 0⟩
def DMA_CH_CFG (k : Nat) : Nat := 0xC611C + 32 * k
def DMA_CH_CFG_LSTART (k : Nat) : Field := ⟨(DMA_CH_CFG k), 7, 7⟩
def DMA_CH_CFG_CREDMAX (k : Nat) : Field := ⟨(DMA_CH_CFG k), 6, 0⟩
def CPH_SUBMIT : Nat := 0xC7000
def CPH_SUBMIT_ADDR : Field := ⟨CPH_SUBMIT, 19, 0⟩
def CPH_STATE : Nat := 0xC7004
def CPH_STATE_RUNNING : Field := ⟨CPH_STATE, 19, 19⟩
def CPH_STATE_HELD : Field := ⟨CPH_STATE, 18, 18⟩
def CPH_STATE_HOLD : Field := ⟨CPH_STATE, 17, 16⟩
def CPH_STATE_QUEUED : Field := ⟨CPH_STATE, 11, 7⟩
def CPH_STATE_WAITING : Field := ⟨CPH_STATE, 6, 0⟩
def CPH_FLAGS : Nat := 0xC7008
def CPH_FLAGS_SUBMIT_REFUSED : Field := ⟨CPH_FLAGS, 8, 8⟩
def CPH_FLAGS_EXPORT_DUE : Field := ⟨CPH_FLAGS, 7, 7⟩
def CPH_FLAGS_KEY_WARN : Field := ⟨CPH_FLAGS, 6, 6⟩
def CPH_FLAGS_KEY_SPENT : Field := ⟨CPH_FLAGS, 5, 5⟩
def CPH_FLAGS_TOO_LONG : Field := ⟨CPH_FLAGS, 4, 4⟩
def CPH_FLAGS_AUTH_FAIL : Field := ⟨CPH_FLAGS, 3, 3⟩
def CPH_FLAGS_TR_DONE : Field := ⟨CPH_FLAGS, 2, 2⟩
def CPH_FLAGS_TR_REFUSED : Field := ⟨CPH_FLAGS, 1, 1⟩
def CPH_FLAGS_DONE : Field := ⟨CPH_FLAGS, 0, 0⟩
def CPH_IRQEN : Nat := 0xC700C
def CPH_IRQEN_EN : Field := ⟨CPH_IRQEN, 19, 0⟩
def CPH_PAT (k : Nat) : Nat := 0xC7010 + 4 * k
def CPH_PAT_PATIENCE (k : Nat) : Field := ⟨(CPH_PAT k), 19, 0⟩
def CPH_CNT0 : Nat := 0xC7020
def CPH_CNT0_AUTH_FAIL : Field := ⟨CPH_CNT0, 19, 10⟩
def CPH_CNT0_KEY_SPENT : Field := ⟨CPH_CNT0, 9, 0⟩
def CPH_CNT1 : Nat := 0xC7024
def CPH_CNT1_TOO_LONG : Field := ⟨CPH_CNT1, 19, 10⟩
def CPH_CNT1_BAD : Field := ⟨CPH_CNT1, 9, 0⟩
def TR_CMD : Nat := 0xC7040
def TR_CMD_OP : Field := ⟨TR_CMD, 19, 16⟩
def TR_CMD_SLOT : Field := ⟨TR_CMD, 15, 10⟩
def TR_ATTR : Nat := 0xC7044
def TR_ATTR_SIZE : Field := ⟨TR_ATTR, 19, 19⟩
def TR_ATTR_PERSIST : Field := ⟨TR_ATTR, 18, 18⟩
def TR_ATTR_USE : Field := ⟨TR_ATTR, 17, 14⟩
def TR_ATTR_KEKSLOT : Field := ⟨TR_ATTR, 5, 0⟩
def TR_ARG : Nat := 0xC7048
def TR_ARG_VALUE : Field := ⟨TR_ARG, 19, 0⟩
def TR_LIMIT : Nat := 0xC704C
def TR_LIMIT_VALUE : Field := ⟨TR_LIMIT, 19, 0⟩
def TR_WARN : Nat := 0xC7050
def TR_WARN_VALUE : Field := ⟨TR_WARN, 19, 0⟩
def TR_STAT : Nat := 0xC7054
def TR_STAT_BUSY : Field := ⟨TR_STAT, 19, 19⟩
def TR_STAT_RESULT : Field := ⟨TR_STAT, 18, 16⟩
def TR_STEP : Nat := 0xC7058
def TR_STEP_STEP : Field := ⟨TR_STEP, 19, 0⟩
def TR_INFO (k : Nat) : Nat := 0xC7400 + 32 * k
def TR_INFO_STATE (k : Nat) : Field := ⟨(TR_INFO k), 19, 18⟩
def TR_INFO_SIZE (k : Nat) : Field := ⟨(TR_INFO k), 17, 17⟩
def TR_INFO_PERSIST (k : Nat) : Field := ⟨(TR_INFO k), 16, 16⟩
def TR_INFO_USE (k : Nat) : Field := ⟨(TR_INFO k), 15, 12⟩
def TR_COUNT (k : Nat) : Nat := 0xC7404 + 32 * k
def TR_COUNT_VALUE (k : Nat) : Field := ⟨(TR_COUNT k), 19, 0⟩
def TR_LIMITS (k : Nat) : Nat := 0xC7408 + 32 * k
def TR_LIMITS_VALUE (k : Nat) : Field := ⟨(TR_LIMITS k), 19, 0⟩
def TR_WARNS (k : Nat) : Nat := 0xC740C + 32 * k
def TR_WARNS_VALUE (k : Nat) : Field := ⟨(TR_WARNS k), 19, 0⟩
def TR_RESERVE (k : Nat) : Nat := 0xC7410 + 32 * k
def TR_RESERVE_VALUE (k : Nat) : Field := ⟨(TR_RESERVE k), 19, 0⟩
def HPK_CMD : Nat := 0xC8000
def HPK_CMD_OP : Field := ⟨HPK_CMD, 19, 16⟩
def HPK_A : Nat := 0xC8004
def HPK_A_ADDR : Field := ⟨HPK_A, 19, 0⟩
def HPK_B : Nat := 0xC8008
def HPK_B_ADDR : Field := ⟨HPK_B, 19, 0⟩
def HPK_C : Nat := 0xC800C
def HPK_C_ADDR : Field := ⟨HPK_C, 19, 0⟩
def HPK_WLO : Nat := 0xC8010
def HPK_WLO_VALUE : Field := ⟨HPK_WLO, 19, 0⟩
def HPK_WHI : Nat := 0xC8014
def HPK_WHI_VALUE : Field := ⟨HPK_WHI, 19, 0⟩
def HPK_LEN : Nat := 0xC8018
def HPK_LEN_VALUE : Field := ⟨HPK_LEN, 19, 0⟩
def HPK_STAT : Nat := 0xC801C
def HPK_STAT_BUSY : Field := ⟨HPK_STAT, 19, 19⟩
def HPK_STAT_RESULT : Field := ⟨HPK_STAT, 18, 16⟩
def HPK_STAT_DONE : Field := ⟨HPK_STAT, 15, 15⟩
def HPK_STAT_REFUSED : Field := ⟨HPK_STAT, 14, 14⟩
def TRNG_DATA : Nat := 0xC8040
def TRNG_DATA_VALID : Field := ⟨TRNG_DATA, 19, 19⟩
def TRNG_DATA_DATA : Field := ⟨TRNG_DATA, 15, 0⟩
def TRNG_STAT : Nat := 0xC8044
def TRNG_STAT_FAIL : Field := ⟨TRNG_STAT, 19, 19⟩
def TRNG_STAT_RCT : Field := ⟨TRNG_STAT, 18, 18⟩
def TRNG_STAT_APT : Field := ⟨TRNG_STAT, 17, 17⟩
def TRNG_STAT_RESTART : Field := ⟨TRNG_STAT, 0, 0⟩
def TRUST_STATE : Nat := 0xC8080
def TRUST_STATE_FIRSTLIT : Field := ⟨TRUST_STATE, 19, 19⟩
def TRUST_STATE_SEALED : Field := ⟨TRUST_STATE, 18, 18⟩
def TRUST_STATE_DBG_OPEN : Field := ⟨TRUST_STATE, 17, 17⟩
def TRUST_STATE_ORDER_USED : Field := ⟨TRUST_STATE, 16, 16⟩
def TRUST_STATE_SCOPE : Field := ⟨TRUST_STATE, 15, 13⟩
def TRUST_STATE_ROOT1_REV : Field := ⟨TRUST_STATE, 12, 12⟩
def TRUST_STATE_ROOT1_SET : Field := ⟨TRUST_STATE, 11, 11⟩
def TRUST_STATE_ROOT0_REV : Field := ⟨TRUST_STATE, 10, 10⟩
def TRUST_STATE_ROOT0_SET : Field := ⟨TRUST_STATE, 9, 9⟩
def TRUST_STATE_ID_USES : Field := ⟨TRUST_STATE, 4, 0⟩
def RFE_CTL : Nat := 0xC9000
def RFE_CTL_CLOSE : Field := ⟨RFE_CTL, 4, 4⟩
def RFE_CTL_OPEN : Field := ⟨RFE_CTL, 3, 2⟩
def RFE_CTL_REQ : Field := ⟨RFE_CTL, 1, 0⟩
def RFE_STATE : Nat := 0xC9004
def RFE_STATE_STATE : Field := ⟨RFE_STATE, 19, 16⟩
def RFE_STATE_CHAINS : Field := ⟨RFE_STATE, 15, 14⟩
def RFE_STATE_RXLOCK : Field := ⟨RFE_STATE, 13, 13⟩
def RFE_STATE_TXLOCK : Field := ⟨RFE_STATE, 12, 12⟩
def RFE_STATE_CAL : Field := ⟨RFE_STATE, 11, 11⟩
def RFE_STATE_TCALP_RX : Field := ⟨RFE_STATE, 10, 10⟩
def RFE_STATE_TCALP_TX : Field := ⟨RFE_STATE, 9, 9⟩
def RFE_FLAGS : Nat := 0xC9008
def RFE_FLAGS_CFG_REFUSED : Field := ⟨RFE_FLAGS, 13, 13⟩
def RFE_FLAGS_PA_REFUSED : Field := ⟨RFE_FLAGS, 12, 12⟩
def RFE_FLAGS_CAL_DONE : Field := ⟨RFE_FLAGS, 11, 11⟩
def RFE_FLAGS_CAL_REFUSED : Field := ⟨RFE_FLAGS, 10, 10⟩
def RFE_FLAGS_TCAL_DEFERRED : Field := ⟨RFE_FLAGS, 9, 9⟩
def RFE_FLAGS_MASK_BREACH : Field := ⟨RFE_FLAGS, 8, 8⟩
def RFE_FLAGS_LATE : Field := ⟨RFE_FLAGS, 7, 7⟩
def RFE_FLAGS_TX_BUSY : Field := ⟨RFE_FLAGS, 6, 6⟩
def RFE_FLAGS_TX_DONE : Field := ⟨RFE_FLAGS, 5, 5⟩
def RFE_FLAGS_RX_HELD : Field := ⟨RFE_FLAGS, 4, 4⟩
def RFE_FLAGS_LOCK_LOST : Field := ⟨RFE_FLAGS, 3, 3⟩
def RFE_FLAGS_OVLB : Field := ⟨RFE_FLAGS, 1, 1⟩
def RFE_FLAGS_OVLA : Field := ⟨RFE_FLAGS, 0, 0⟩
def RFE_IRQEN : Nat := 0xC900C
def RFE_IRQEN_EN : Field := ⟨RFE_IRQEN, 19, 0⟩
def RFE_RXSYN : Nat := 0xC9010
def RFE_RXSYN_INT : Field := ⟨RFE_RXSYN, 6, 0⟩
def RFE_RXFRAC : Nat := 0xC9014
def RFE_RXFRAC_FRAC : Field := ⟨RFE_RXFRAC, 19, 0⟩
def RFE_TXCH : Nat := 0xC9018
def RFE_TXCH_DRV : Field := ⟨RFE_TXCH, 19, 15⟩
def RFE_TXCH_CH : Field := ⟨RFE_TXCH, 5, 0⟩
def RFE_TXOFS : Nat := 0xC901C
def RFE_TXOFS_OFS : Field := ⟨RFE_TXOFS, 19, 0⟩
def RFE_TXMOD : Nat := 0xC9020
def RFE_TXMOD_ORDER : Field := ⟨RFE_TXMOD, 19, 19⟩
def RFE_TXMOD_RATE : Field := ⟨RFE_TXMOD, 18, 17⟩
def RFE_TXMOD_SHAPE : Field := ⟨RFE_TXMOD, 16, 13⟩
def RFE_TXMOD_DEV : Field := ⟨RFE_TXMOD, 12, 0⟩
def RFE_TXLATE : Nat := 0xC9024
def RFE_TXLATE_LIMIT : Field := ⟨RFE_TXLATE, 19, 0⟩
def RFE_TXSTAT : Nat := 0xC9028
def RFE_TXSTAT_CODE : Field := ⟨RFE_TXSTAT, 19, 16⟩
def RFE_TXSTAT_HOLD : Field := ⟨RFE_TXSTAT, 15, 0⟩
def RFE_GAINA : Nat := 0xC9030
def RFE_GAINA_PEND : Field := ⟨RFE_GAINA, 19, 19⟩
def RFE_GAINA_WHEN : Field := ⟨RFE_GAINA, 18, 18⟩
def RFE_GAINA_LNA : Field := ⟨RFE_GAINA, 9, 7⟩
def RFE_GAINA_PGA : Field := ⟨RFE_GAINA, 4, 0⟩
def RFE_GAINB : Nat := 0xC9034
def RFE_GAINB_PEND : Field := ⟨RFE_GAINB, 19, 19⟩
def RFE_GAINB_WHEN : Field := ⟨RFE_GAINB, 18, 18⟩
def RFE_GAINB_LNA : Field := ⟨RFE_GAINB, 9, 7⟩
def RFE_GAINB_PGA : Field := ⟨RFE_GAINB, 4, 0⟩
def RFE_ENERGYA : Nat := 0xC9038
def RFE_ENERGYA_OVL : Field := ⟨RFE_ENERGYA, 19, 19⟩
def RFE_ENERGYA_LEVEL : Field := ⟨RFE_ENERGYA, 11, 0⟩
def RFE_ENERGYB : Nat := 0xC903C
def RFE_ENERGYB_OVL : Field := ⟨RFE_ENERGYB, 19, 19⟩
def RFE_ENERGYB_LEVEL : Field := ⟨RFE_ENERGYB, 11, 0⟩
def RFE_IQA : Nat := 0xC9040
def RFE_IQA_PHASE : Field := ⟨RFE_IQA, 19, 10⟩
def RFE_IQA_AMP : Field := ⟨RFE_IQA, 9, 0⟩
def RFE_IQB : Nat := 0xC9044
def RFE_IQB_PHASE : Field := ⟨RFE_IQB, 19, 10⟩
def RFE_IQB_AMP : Field := ⟨RFE_IQB, 9, 0⟩
def RFE_CAL : Nat := 0xC9050
def RFE_CAL_BUSY : Field := ⟨RFE_CAL, 19, 19⟩
def RFE_CAL_IQB : Field := ⟨RFE_CAL, 4, 4⟩
def RFE_CAL_IQA : Field := ⟨RFE_CAL, 3, 3⟩
def RFE_CAL_TPM : Field := ⟨RFE_CAL, 2, 2⟩
def RFE_CAL_TXSYN : Field := ⟨RFE_CAL, 1, 1⟩
def RFE_CAL_RXSYN : Field := ⟨RFE_CAL, 0, 0⟩
def RFE_TCAL : Nat := 0xC9054
def RFE_TCAL_RXDEFER : Field := ⟨RFE_TCAL, 9, 9⟩
def RFE_TCAL_AUTO_TX : Field := ⟨RFE_TCAL, 8, 8⟩
def RFE_TCAL_AUTO_RX : Field := ⟨RFE_TCAL, 7, 7⟩
def RFE_TCAL_DELTA : Field := ⟨RFE_TCAL, 4, 0⟩
def RFE_TEMP : Nat := 0xC9058
def RFE_TEMP_DIE : Field := ⟨RFE_TEMP, 9, 0⟩
def RFE_TCALT : Nat := 0xC905C
def RFE_TCALT_TX : Field := ⟨RFE_TCALT, 19, 10⟩
def RFE_TCALT_RX : Field := ⟨RFE_TCALT, 9, 0⟩
def RFE_PACFG : Nat := 0xC9060
def RFE_PACFG_RXFIRST : Field := ⟨RFE_PACFG, 6, 4⟩
def RFE_PACFG_TXFIRST : Field := ⟨RFE_PACFG, 2, 0⟩
def PAS_TX (k : Nat) : Nat := 0xC9080 + 8 * k
def PAS_TX_LAST (k : Nat) : Field := ⟨(PAS_TX k), 19, 19⟩
def PAS_TX_PA_EN (k : Nat) : Field := ⟨(PAS_TX k), 14, 14⟩
def PAS_TX_LNA_EN (k : Nat) : Field := ⟨(PAS_TX k), 13, 13⟩
def PAS_TX_TR_SW (k : Nat) : Field := ⟨(PAS_TX k), 12, 12⟩
def PAS_TX_ANT_A (k : Nat) : Field := ⟨(PAS_TX k), 11, 11⟩
def PAS_TX_ANT_B (k : Nat) : Field := ⟨(PAS_TX k), 10, 10⟩
def PAS_TX_VCTL (k : Nat) : Field := ⟨(PAS_TX k), 9, 0⟩
def PAD_TX (k : Nat) : Nat := 0xC9084 + 8 * k
def PAD_TX_DELAY (k : Nat) : Field := ⟨(PAD_TX k), 19, 0⟩
def PAS_RX (k : Nat) : Nat := 0xC90C0 + 8 * k
def PAS_RX_LAST (k : Nat) : Field := ⟨(PAS_RX k), 19, 19⟩
def PAS_RX_PA_EN (k : Nat) : Field := ⟨(PAS_RX k), 14, 14⟩
def PAS_RX_LNA_EN (k : Nat) : Field := ⟨(PAS_RX k), 13, 13⟩
def PAS_RX_TR_SW (k : Nat) : Field := ⟨(PAS_RX k), 12, 12⟩
def PAS_RX_ANT_A (k : Nat) : Field := ⟨(PAS_RX k), 11, 11⟩
def PAS_RX_ANT_B (k : Nat) : Field := ⟨(PAS_RX k), 10, 10⟩
def PAS_RX_VCTL (k : Nat) : Field := ⟨(PAS_RX k), 9, 0⟩
def PAD_RX (k : Nat) : Nat := 0xC90C4 + 8 * k
def PAD_RX_DELAY (k : Nat) : Field := ⟨(PAD_RX k), 19, 0⟩
def RFE_MASK (k : Nat) : Nat := 0xC9100 + 4 * k
def RFE_MASK_EN (k : Nat) : Field := ⟨(RFE_MASK k), 19, 19⟩
def RFE_MASK_OFS (k : Nat) : Field := ⟨(RFE_MASK k), 17, 8⟩
def RFE_MASK_LIMIT (k : Nat) : Field := ⟨(RFE_MASK k), 7, 0⟩
def RFE_TXCOEF (k : Nat) : Nat := 0xC9140 + 4 * k
def RFE_TXCOEF_C (k : Nat) : Field := ⟨(RFE_TXCOEF k), 19, 0⟩
def STC_PLAN : Nat := 0xCA000
def STC_PLAN_SPACING : Field := ⟨STC_PLAN, 1, 0⟩
def STC_RXCFG : Nat := 0xCA004
def STC_RXCFG_CAPTURE_DB : Field := ⟨STC_RXCFG, 19, 16⟩
def STC_RXCFG_PDET : Field := ⟨STC_RXCFG, 15, 11⟩
def STC_RXCFG_DWIN : Field := ⟨STC_RXCFG, 10, 7⟩
def STC_RXCFG_PWIN : Field := ⟨STC_RXCFG, 6, 0⟩
def STC_SYNCTO : Nat := 0xCA008
def STC_SYNCTO_SYNC_TO : Field := ⟨STC_SYNCTO, 9, 0⟩
def STC_STATE : Nat := 0xCA00C
def STC_STATE_HALTER : Field := ⟨STC_STATE, 19, 19⟩
def STC_STATE_BLANK : Field := ⟨STC_STATE, 18, 18⟩
def STC_FLAGS : Nat := 0xCA010
def STC_FLAGS_GIVE_REFUSED : Field := ⟨STC_FLAGS, 7, 7⟩
def STC_FLAGS_CFG_REFUSED : Field := ⟨STC_FLAGS, 6, 6⟩
def STC_FLAGS_NODESC : Field := ⟨STC_FLAGS, 5, 5⟩
def STC_FLAGS_OVERSIZE : Field := ⟨STC_FLAGS, 4, 4⟩
def STC_FLAGS_CAPTURED : Field := ⟨STC_FLAGS, 3, 3⟩
def STC_FLAGS_BLANKED : Field := ⟨STC_FLAGS, 2, 2⟩
def STC_FLAGS_DONE1 : Field := ⟨STC_FLAGS, 1, 1⟩
def STC_FLAGS_DONE0 : Field := ⟨STC_FLAGS, 0, 0⟩
def STC_IRQEN : Nat := 0xCA014
def STC_IRQEN_EN : Field := ⟨STC_IRQEN, 19, 0⟩
def STC_GIVE : Nat := 0xCA018
def STC_GIVE_POOL : Field := ⟨STC_GIVE, 8, 8⟩
def STC_GIVE_INDEX : Field := ⟨STC_GIVE, 7, 0⟩
def STC_DETCFG : Nat := 0xCA01C
def STC_DETCFG_PTHR : Field := ⟨STC_DETCFG, 9, 0⟩
def STC_POOL_CFG (k : Nat) : Nat := 0xCA020 + 16 * k
def STC_POOL_CFG_SIZE (k : Nat) : Field := ⟨(STC_POOL_CFG k), 14, 9⟩
def STC_POOL_CFG_COUNT (k : Nat) : Field := ⟨(STC_POOL_CFG k), 8, 0⟩
def STC_POOL_BUF (k : Nat) : Nat := 0xCA024 + 16 * k
def STC_POOL_BUF_BASE (k : Nat) : Field := ⟨(STC_POOL_BUF k), 19, 0⟩
def STC_POOL_DESC (k : Nat) : Nat := 0xCA028 + 16 * k
def STC_POOL_DESC_BASE (k : Nat) : Field := ⟨(STC_POOL_DESC k), 19, 0⟩
def STC_POOL_STATE (k : Nat) : Nat := 0xCA02C + 16 * k
def STC_POOL_STATE_HELD (k : Nat) : Field := ⟨(STC_POOL_STATE k), 17, 9⟩
def STC_POOL_STATE_FREE (k : Nat) : Field := ⟨(STC_POOL_STATE k), 8, 0⟩
def STC_MAP (k : Nat) : Nat := 0xCA040 + 4 * k
def STC_MAP_LANE2 (k : Nat) : Field := ⟨(STC_MAP k), 17, 12⟩
def STC_MAP_LANE1 (k : Nat) : Field := ⟨(STC_MAP k), 11, 6⟩
def STC_MAP_LANE0 (k : Nat) : Field := ⟨(STC_MAP k), 5, 0⟩
def STC_LANEFAIL (k : Nat) : Nat := 0xCA080 + 4 * k
def STC_LANEFAIL_FAIL (k : Nat) : Field := ⟨(STC_LANEFAIL k), 19, 0⟩
def STC_BUSY (k : Nat) : Nat := 0xCA090 + 4 * k
def STC_BUSY_BUSY (k : Nat) : Field := ⟨(STC_BUSY k), 19, 0⟩
def STC_EN (k : Nat) : Nat := 0xCA0A0 + 4 * k
def STC_EN_EN (k : Nat) : Field := ⟨(STC_EN k), 19, 0⟩
def STL_CFG (k : Nat) : Nat := 0xCB000 + 64 * k
def STL_CFG_EN (k : Nat) : Field := ⟨(STL_CFG k), 19, 19⟩
def STL_CFG_ORDER (k : Nat) : Field := ⟨(STL_CFG k), 18, 18⟩
def STL_CFG_RATE (k : Nat) : Field := ⟨(STL_CFG k), 17, 16⟩
def STL_CFG_AERIAL (k : Nat) : Field := ⟨(STL_CFG k), 15, 14⟩
def STL_CFG_POOL (k : Nat) : Field := ⟨(STL_CFG k), 13, 13⟩
def STL_CFG_FORMAT (k : Nat) : Field := ⟨(STL_CFG k), 12, 12⟩
def STL_CFG_DEV (k : Nat) : Field := ⟨(STL_CFG k), 11, 0⟩
def STL_SYNCLO (k : Nat) : Nat := 0xCB004 + 64 * k
def STL_SYNCLO_LO (k : Nat) : Field := ⟨(STL_SYNCLO k), 19, 0⟩
def STL_SYNCHI (k : Nat) : Nat := 0xCB008 + 64 * k
def STL_SYNCHI_ERRS (k : Nat) : Field := ⟨(STL_SYNCHI k), 19, 18⟩
def STL_SYNCHI_LEN (k : Nat) : Field := ⟨(STL_SYNCHI k), 17, 12⟩
def STL_SYNCHI_HI (k : Nat) : Field := ⟨(STL_SYNCHI k), 11, 0⟩
def STL_STATUS (k : Nat) : Nat := 0xCB00C + 64 * k
def STL_STATUS_STATE (k : Nat) : Field := ⟨(STL_STATUS k), 19, 17⟩
def STL_STATUS_LAST (k : Nat) : Field := ⟨(STL_STATUS k), 16, 13⟩
def STL_STATUS_AERIAL (k : Nat) : Field := ⟨(STL_STATUS k), 12, 12⟩
def STL_STATUS_NOCHAIN (k : Nat) : Field := ⟨(STL_STATUS k), 11, 11⟩
def STL_STATUS_HOLDS (k : Nat) : Field := ⟨(STL_STATUS k), 9, 9⟩
def STL_STATUS_POOL (k : Nat) : Field := ⟨(STL_STATUS k), 8, 8⟩
def STL_STATUS_INDEX (k : Nat) : Field := ⟨(STL_STATUS k), 7, 0⟩
def STL_TSLO (k : Nat) : Nat := 0xCB010 + 64 * k
def STL_TSLO_TS (k : Nat) : Field := ⟨(STL_TSLO k), 19, 0⟩
def STL_TSHI (k : Nat) : Nat := 0xCB014 + 64 * k
def STL_TSHI_TS (k : Nat) : Field := ⟨(STL_TSHI k), 19, 0⟩
def STL_RSSI (k : Nat) : Nat := 0xCB018 + 64 * k
def STL_RSSI_OVL (k : Nat) : Field := ⟨(STL_RSSI k), 13, 13⟩
def STL_RSSI_AERIAL (k : Nat) : Field := ⟨(STL_RSSI k), 12, 12⟩
def STL_RSSI_RSSI (k : Nat) : Field := ⟨(STL_RSSI k), 11, 0⟩
def STL_FOFS (k : Nat) : Nat := 0xCB01C + 64 * k
def STL_FOFS_FOFS (k : Nat) : Field := ⟨(STL_FOFS k), 11, 0⟩
def STL_QUAL (k : Nat) : Nat := 0xCB020 + 64 * k
def STL_QUAL_OTHER (k : Nat) : Field := ⟨(STL_QUAL k), 19, 10⟩
def STL_QUAL_QUAL (k : Nat) : Field := ⟨(STL_QUAL k), 9, 0⟩
def STL_LIVE (k : Nat) : Nat := 0xCB024 + 64 * k
def STL_LIVE_LEVEL (k : Nat) : Field := ⟨(STL_LIVE k), 11, 0⟩
def STL_CNT0 (k : Nat) : Nat := 0xCB028 + 64 * k
def STL_CNT0_SYNCS (k : Nat) : Field := ⟨(STL_CNT0 k), 19, 10⟩
def STL_CNT0_RECEIVED (k : Nat) : Field := ⟨(STL_CNT0 k), 9, 0⟩
def STL_CNT1 (k : Nat) : Nat := 0xCB02C + 64 * k
def STL_CNT1_CAPTURED (k : Nat) : Field := ⟨(STL_CNT1 k), 19, 10⟩
def STL_CNT1_BLANKED (k : Nat) : Field := ⟨(STL_CNT1 k), 9, 0⟩
def STL_CNT2 (k : Nat) : Nat := 0xCB030 + 64 * k
def STL_CNT2_OVERSIZE (k : Nat) : Field := ⟨(STL_CNT2 k), 19, 10⟩
def STL_CNT2_NODESC (k : Nat) : Field := ⟨(STL_CNT2 k), 9, 0⟩
def STL_CNT3 (k : Nat) : Nat := 0xCB034 + 64 * k
def STL_CNT3_NOSYNC (k : Nat) : Field := ⟨(STL_CNT3 k), 19, 10⟩
def STL_CNT3_DISABLED (k : Nat) : Field := ⟨(STL_CNT3 k), 9, 0⟩
def DEC_CTL : Nat := 0xCC000
def DEC_CTL_KEEPBAD : Field := ⟨DEC_CTL, 5, 5⟩
def DEC_CTL_HOLD : Field := ⟨DEC_CTL, 4, 4⟩
def DEC_CTL_ITER : Field := ⟨DEC_CTL, 3, 0⟩
def DEC_PAT : Nat := 0xCC004
def DEC_PAT_PATIENCE : Field := ⟨DEC_PAT, 19, 0⟩
def DEC_STATE : Nat := 0xCC008
def DEC_STATE_RUNNING : Field := ⟨DEC_STATE, 19, 19⟩
def DEC_STATE_HELD : Field := ⟨DEC_STATE, 18, 18⟩
def DEC_STATE_QUEUED : Field := ⟨DEC_STATE, 15, 8⟩
def DEC_STATE_URGENT : Field := ⟨DEC_STATE, 7, 0⟩
def DEC_LAST : Nat := 0xCC00C
def DEC_LAST_ITERS : Field := ⟨DEC_LAST, 19, 15⟩
def DEC_LAST_ESTOP : Field := ⟨DEC_LAST, 14, 14⟩
def DEC_LAST_GOOD : Field := ⟨DEC_LAST, 13, 13⟩
def DEC_LAST_POS : Field := ⟨DEC_LAST, 5, 0⟩
def FU_FLAGS : Nat := 0xCC010
def FU_FLAGS_EMPTY_START : Field := ⟨FU_FLAGS, 6, 6⟩
def FU_FLAGS_CFG_REFUSED : Field := ⟨FU_FLAGS, 5, 5⟩
def FU_FLAGS_DEADLINE : Field := ⟨FU_FLAGS, 4, 4⟩
def FU_FLAGS_BLOCK_FAIL : Field := ⟨FU_FLAGS, 3, 3⟩
def FU_FLAGS_FCS_BAD : Field := ⟨FU_FLAGS, 2, 2⟩
def FU_FLAGS_HEADER_BAD : Field := ⟨FU_FLAGS, 1, 1⟩
def FU_FLAGS_DROPPED : Field := ⟨FU_FLAGS, 0, 0⟩
def FU_IRQEN : Nat := 0xCC014
def FU_IRQEN_EN : Field := ⟨FU_IRQEN, 19, 0⟩
def FU_CNT0 : Nat := 0xCC018
def FU_CNT0_BLKFAIL : Field := ⟨FU_CNT0, 19, 10⟩
def FU_CNT0_DEADLINE : Field := ⟨FU_CNT0, 9, 0⟩
def FU_CNT1 : Nat := 0xCC01C
def FU_CNT1_HDRBAD : Field := ⟨FU_CNT1, 19, 10⟩
def FU_CNT1_FCSBAD : Field := ⟨FU_CNT1, 9, 0⟩
def FU_TXSYNCLO : Nat := 0xCC020
def FU_TXSYNCLO_LO : Field := ⟨FU_TXSYNCLO, 19, 0⟩
def FU_TXSYNCHI : Nat := 0xCC024
def FU_TXSYNCHI_LEN : Field := ⟨FU_TXSYNCHI, 17, 12⟩
def FU_TXSYNCHI_HI : Field := ⟨FU_TXSYNCHI, 11, 0⟩
def FU_TXBUSY : Nat := 0xCC02C
def FU_TXBUSY_SENDING : Field := ⟨FU_TXBUSY, 4, 4⟩
def FU_TXBUSY_SLOT : Field := ⟨FU_TXBUSY, 3, 0⟩
def FU_TX_CTL (k : Nat) : Nat := 0xCC100 + 16 * k
def FU_TX_CTL_READY (k : Nat) : Field := ⟨(FU_TX_CTL k), 19, 19⟩
def FU_TX_CTL_SENDING (k : Nat) : Field := ⟨(FU_TX_CTL k), 18, 18⟩
def FU_TX_CTL_FORMAT (k : Nat) : Field := ⟨(FU_TX_CTL k), 17, 17⟩
def FU_TX_CTL_RATE (k : Nat) : Field := ⟨(FU_TX_CTL k), 16, 15⟩
def FU_TX_CTL_BS (k : Nat) : Field := ⟨(FU_TX_CTL k), 14, 14⟩
def FU_TX_CTL_MODE (k : Nat) : Field := ⟨(FU_TX_CTL k), 13, 12⟩
def FU_TX_CTL_CH_EN (k : Nat) : Field := ⟨(FU_TX_CTL k), 11, 11⟩
def FU_TX_CTL_CH (k : Nat) : Field := ⟨(FU_TX_CTL k), 10, 5⟩
def FU_TX_SRC (k : Nat) : Nat := 0xCC104 + 16 * k
def FU_TX_SRC_SRC (k : Nat) : Field := ⟨(FU_TX_SRC k), 19, 0⟩
def FU_TX_LEN (k : Nat) : Nat := 0xCC108 + 16 * k
def FU_TX_LEN_LENGTH (k : Nat) : Field := ⟨(FU_TX_LEN k), 10, 0⟩
def FU_TX_PRE (k : Nat) : Nat := 0xCC10C + 16 * k
def FU_TX_PRE_PRE (k : Nat) : Field := ⟨(FU_TX_PRE k), 19, 0⟩
def SCH_CTL : Nat := 0xCD000
def SCH_CTL_LOAD : Field := ⟨SCH_CTL, 3, 3⟩
def SCH_CTL_AUTOSTEP : Field := ⟨SCH_CTL, 2, 2⟩
def SCH_CTL_RUN : Field := ⟨SCH_CTL, 0, 0⟩
def SCH_SLOTLEN : Nat := 0xCD004
def SCH_SLOTLEN_LEN : Field := ⟨SCH_SLOTLEN, 19, 0⟩
def SCH_ASNLO : Nat := 0xCD008
def SCH_ASNLO_VALUE : Field := ⟨SCH_ASNLO, 19, 0⟩
def SCH_ASNHI : Nat := 0xCD00C
def SCH_ASNHI_VALUE : Field := ⟨SCH_ASNHI, 19, 0⟩
def SCH_STARTLO : Nat := 0xCD010
def SCH_STARTLO_VALUE : Field := ⟨SCH_STARTLO, 19, 0⟩
def SCH_STARTHI : Nat := 0xCD014
def SCH_STARTHI_VALUE : Field := ⟨SCH_STARTHI, 19, 0⟩
def SCH_LDASNLO : Nat := 0xCD018
def SCH_LDASNLO_VALUE : Field := ⟨SCH_LDASNLO, 19, 0⟩
def SCH_LDASNHI : Nat := 0xCD01C
def SCH_LDASNHI_VALUE : Field := ⟨SCH_LDASNHI, 19, 0⟩
def SCH_LDSTARTLO : Nat := 0xCD020
def SCH_LDSTARTLO_VALUE : Field := ⟨SCH_LDSTARTLO, 19, 0⟩
def SCH_LDSTARTHI : Nat := 0xCD024
def SCH_LDSTARTHI_VALUE : Field := ⟨SCH_LDSTARTHI, 19, 0⟩
def SCH_SYNCOFS : Nat := 0xCD028
def SCH_SYNCOFS_OFS : Field := ⟨SCH_SYNCOFS, 19, 0⟩
def SCH_HOPLEN : Nat := 0xCD02C
def SCH_HOPLEN_L : Field := ⟨SCH_HOPLEN, 6, 0⟩
def SCH_HOPQ : Nat := 0xCD030
def SCH_HOPQ_DELTA : Field := ⟨SCH_HOPQ, 17, 8⟩
def SCH_HOPQ_OFS_CH : Field := ⟨SCH_HOPQ, 5, 0⟩
def SCH_STEPLO : Nat := 0xCD034
def SCH_STEPLO_STEP : Field := ⟨SCH_STEPLO, 19, 0⟩
def SCH_STEPHI : Nat := 0xCD038
def SCH_STEPHI_STEP : Field := ⟨SCH_STEPHI, 19, 0⟩
def SCH_STEPMIN : Nat := 0xCD03C
def SCH_STEPMIN_MIN : Field := ⟨SCH_STEPMIN, 19, 0⟩
def SCH_ERA : Nat := 0xCD040
def SCH_ERA_ERA : Field := ⟨SCH_ERA, 19, 0⟩
def SCH_FLAGS : Nat := 0xCD044
def SCH_FLAGS_CFG_REFUSED : Field := ⟨SCH_FLAGS, 9, 9⟩
def SCH_FLAGS_CMD_REFUSED : Field := ⟨SCH_FLAGS, 8, 8⟩
def SCH_FLAGS_KC_FULL : Field := ⟨SCH_FLAGS, 7, 7⟩
def SCH_FLAGS_KNOCK : Field := ⟨SCH_FLAGS, 6, 6⟩
def SCH_FLAGS_RESYNC : Field := ⟨SCH_FLAGS, 5, 5⟩
def SCH_FLAGS_LOST : Field := ⟨SCH_FLAGS, 4, 4⟩
def SCH_FLAGS_STEPPED : Field := ⟨SCH_FLAGS, 3, 3⟩
def SCH_FLAGS_BACK : Field := ⟨SCH_FLAGS, 2, 2⟩
def SCH_FLAGS_SKIP : Field := ⟨SCH_FLAGS, 1, 1⟩
def SCH_FLAGS_SLOT : Field := ⟨SCH_FLAGS, 0, 0⟩
def SCH_IRQEN : Nat := 0xCD048
def SCH_IRQEN_EN : Field := ⟨SCH_IRQEN, 19, 0⟩
def HOP (k : Nat) : Nat := 0xCD080 + 4 * k
def HOP_E2 (k : Nat) : Field := ⟨(HOP k), 17, 12⟩
def HOP_E1 (k : Nat) : Field := ⟨(HOP k), 11, 6⟩
def HOP_E0 (k : Nat) : Field := ⟨(HOP k), 5, 0⟩
def NBT_BASE : Nat := 0xCD100
def NBT_BASE_BASE : Field := ⟨NBT_BASE, 19, 0⟩
def NBT_SIZE : Nat := 0xCD104
def NBT_SIZE_EN : Field := ⟨NBT_SIZE, 19, 19⟩
def NBT_SIZE_UNSEC : Field := ⟨NBT_SIZE, 18, 18⟩
def NBT_SIZE_PROBE : Field := ⟨NBT_SIZE, 17, 14⟩
def NBT_SIZE_COUNT : Field := ⟨NBT_SIZE, 10, 0⟩
def NBT_CFG : Nat := 0xCD108
def NBT_CFG_MISS_LIMIT : Field := ⟨NBT_CFG, 19, 17⟩
def NBT_CFG_WMAX : Field := ⟨NBT_CFG, 16, 15⟩
def NBT_CFG_GBASE : Field := ⟨NBT_CFG, 14, 0⟩
def NBT_UCFG : Nat := 0xCD10C
def NBT_UCFG_UINIT : Field := ⟨NBT_UCFG, 19, 10⟩
def NBT_UCFG_UMIN : Field := ⟨NBT_UCFG, 9, 0⟩
def NBT_DBOUND : Nat := 0xCD110
def NBT_DBOUND_DBOUND : Field := ⟨NBT_DBOUND, 9, 0⟩
def NBT_ACQWIN : Nat := 0xCD114
def NBT_ACQWIN_WIN : Field := ⟨NBT_ACQWIN, 19, 0⟩
def NBT_CMD : Nat := 0xCD118
def NBT_CMD_OP : Field := ⟨NBT_CMD, 19, 16⟩
def NBT_CMD_INDEX : Field := ⟨NBT_CMD, 10, 0⟩
def NBT_STAT : Nat := 0xCD11C
def NBT_STAT_BUSY : Field := ⟨NBT_STAT, 19, 19⟩
def NBT_STAT_RESULT : Field := ⟨NBT_STAT, 18, 16⟩
def NBT_STAT_INDEX : Field := ⟨NBT_STAT, 10, 0⟩
def NBT_KEYLO : Nat := 0xCD120
def NBT_KEYLO_KEY : Field := ⟨NBT_KEYLO, 19, 0⟩
def NBT_KEYHI : Nat := 0xCD124
def NBT_KEYHI_KEY : Field := ⟨NBT_KEYHI, 11, 0⟩
def NBT_TLO : Nat := 0xCD128
def NBT_TLO_T : Field := ⟨NBT_TLO, 19, 0⟩
def NBT_THI : Nat := 0xCD12C
def NBT_THI_T : Field := ⟨NBT_THI, 19, 0⟩
def NBT_OFSLO : Nat := 0xCD130
def NBT_OFSLO_OFS : Field := ⟨NBT_OFSLO, 19, 0⟩
def NBT_OFSHI : Nat := 0xCD134
def NBT_OFSHI_OFS : Field := ⟨NBT_OFSHI, 19, 0⟩
def NBT_DRIFT : Nat := 0xCD138
def NBT_DRIFT_DRIFT : Field := ⟨NBT_DRIFT, 19, 0⟩
def NBT_HALF : Nat := 0xCD13C
def NBT_HALF_HALF : Field := ⟨NBT_HALF, 19, 0⟩
def NBT_SENDH : Nat := 0xCD140
def NBT_SENDH_SENDH : Field := ⟨NBT_SENDH, 19, 0⟩
def NBT_RVASN : Nat := 0xCD144
def NBT_RVASN_ASN : Field := ⟨NBT_RVASN, 19, 0⟩
def NBT_CNT0 : Nat := 0xCD148
def NBT_CNT0_ACCEPTED : Field := ⟨NBT_CNT0, 19, 10⟩
def NBT_CNT0_OUTLIER : Field := ⟨NBT_CNT0, 9, 0⟩
def NBT_CNT1 : Nat := 0xCD14C
def NBT_CNT1_LOSTS : Field := ⟨NBT_CNT1, 19, 10⟩
def NBT_CNT1_RESYNCS : Field := ⟨NBT_CNT1, 9, 0⟩
def KNK_EN (k : Nat) : Nat := 0xCD180 + 4 * k
def KNK_EN_EN (k : Nat) : Field := ⟨(KNK_EN k), 19, 0⟩
def KNK_CNT : Nat := 0xCD18C
def KNK_CNT_CAUGHT : Field := ⟨KNK_CNT, 19, 10⟩
def KNK_CNT_BAD : Field := ⟨KNK_CNT, 9, 0⟩
def KC_INFO (k : Nat) : Nat := 0xCD190 + 16 * k
def KC_INFO_VALID (k : Nat) : Field := ⟨(KC_INFO k), 19, 19⟩
def KC_INFO_POS (k : Nat) : Field := ⟨(KC_INFO k), 5, 0⟩
def KC_DLO (k : Nat) : Nat := 0xCD194 + 16 * k
def KC_DLO_VALUE (k : Nat) : Field := ⟨(KC_DLO k), 19, 0⟩
def KC_DHI (k : Nat) : Nat := 0xCD198 + 16 * k
def KC_DHI_VALUE (k : Nat) : Field := ⟨(KC_DHI k), 19, 0⟩
def KC_ASN (k : Nat) : Nat := 0xCD19C + 16 * k
def KC_ASN_VALUE (k : Nat) : Field := ⟨(KC_ASN k), 19, 0⟩
def SCH_CD (k : Nat) : Nat := 0xCD1E0 + 4 * k
def SCH_CD_UNITS (k : Nat) : Field := ⟨(SCH_CD k), 19, 0⟩
def LNK_ADDRLO : Nat := 0xCD240
def LNK_ADDRLO_ADDR : Field := ⟨LNK_ADDRLO, 19, 0⟩
def LNK_ADDRHI : Nat := 0xCD244
def LNK_ADDRHI_ADDR : Field := ⟨LNK_ADDRHI, 11, 0⟩
def LNK_NETID : Nat := 0xCD248
def LNK_NETID_NETID : Field := ⟨LNK_NETID, 15, 0⟩
def LNK_CFG : Nat := 0xCD24C
def LNK_CFG_EN : Field := ⟨LNK_CFG, 19, 19⟩
def LNK_CFG_OVERHEAR : Field := ⟨LNK_CFG, 18, 18⟩
def LNK_CFG_STRANGER : Field := ⟨LNK_CFG, 17, 17⟩
def LNK_CFG_KEEP : Field := ⟨LNK_CFG, 16, 16⟩
def LNK_FLAGS : Nat := 0xCD250
def LNK_FLAGS_CFG_REFUSED : Field := ⟨LNK_FLAGS, 10, 10⟩
def LNK_FLAGS_RC_OVF : Field := ⟨LNK_FLAGS, 9, 9⟩
def LNK_FLAGS_ACK_MISS : Field := ⟨LNK_FLAGS, 8, 8⟩
def LNK_FLAGS_ACK_OK : Field := ⟨LNK_FLAGS, 7, 7⟩
def LNK_FLAGS_SLOTBUSY : Field := ⟨LNK_FLAGS, 6, 6⟩
def LNK_FLAGS_RELAY_DROP : Field := ⟨LNK_FLAGS, 5, 5⟩
def LNK_FLAGS_FOLD_ERR : Field := ⟨LNK_FLAGS, 4, 4⟩
def LNK_FLAGS_FOLD_FULL : Field := ⟨LNK_FLAGS, 3, 3⟩
def LNK_FLAGS_NOBUF : Field := ⟨LNK_FLAGS, 2, 2⟩
def LNK_FLAGS_DUPLICATE : Field := ⟨LNK_FLAGS, 1, 1⟩
def LNK_FLAGS_DELIVERED : Field := ⟨LNK_FLAGS, 0, 0⟩
def LNK_IRQEN : Nat := 0xCD254
def LNK_IRQEN_EN : Field := ⟨LNK_IRQEN, 19, 0⟩
def LNK_CNT (k : Nat) : Nat := 0xCD258 + 4 * k
def LNK_CNT_HI (k : Nat) : Field := ⟨(LNK_CNT k), 19, 10⟩
def LNK_CNT_LO (k : Nat) : Field := ⟨(LNK_CNT k), 9, 0⟩
def KEYMAP (k : Nat) : Nat := 0xCD280 + 4 * k
def KEYMAP_VALID (k : Nat) : Field := ⟨(KEYMAP k), 19, 19⟩
def KEYMAP_SLOT (k : Nat) : Field := ⟨(KEYMAP k), 5, 0⟩
def RPW_BASE : Nat := 0xCD380
def RPW_BASE_BASE : Field := ⟨RPW_BASE, 19, 0⟩
def FOLD_CFG : Nat := 0xCD384
def FOLD_CFG_EN : Field := ⟨FOLD_CFG, 19, 19⟩
def FOLD_CFG_BUSY : Field := ⟨FOLD_CFG, 18, 18⟩
def FOLD_CFG_AUTHCOUNT : Field := ⟨FOLD_CFG, 17, 17⟩
def FOLD_CFG_SETS_LOG2 : Field := ⟨FOLD_CFG, 4, 0⟩
def FOLD_BASELO : Nat := 0xCD388
def FOLD_BASELO_BASE : Field := ⟨FOLD_BASELO, 19, 0⟩
def FOLD_BASEHI : Nat := 0xCD38C
def FOLD_BASEHI_BASE : Field := ⟨FOLD_BASEHI, 19, 0⟩
def RLY_CFG : Nat := 0xCD390
def RLY_CFG_EN : Field := ⟨RLY_CFG, 19, 19⟩
def RLY_CFG_K : Field := ⟨RLY_CFG, 18, 16⟩
def RLY_CFG_DMAX : Field := ⟨RLY_CFG, 15, 13⟩
def RLY_CFG_TRIES : Field := ⟨RLY_CFG, 12, 10⟩
def RLY_CFG_SLOT : Field := ⟨RLY_CFG, 3, 0⟩
def RLY_CELL : Nat := 0xCD394
def RLY_CELL_OFS : Field := ⟨RLY_CELL, 5, 0⟩
def RLY_FIRE : Nat := 0xCD398
def RLY_FIRE_FIRE : Field := ⟨RLY_FIRE, 19, 0⟩
def RLY_POOL : Nat := 0xCD39C
def RLY_POOL_BASE : Field := ⟨RLY_POOL, 19, 0⟩
def RLY_PCFG : Nat := 0xCD3A0
def RLY_PCFG_SIZE : Field := ⟨RLY_PCFG, 9, 4⟩
def RLY_PCFG_COUNT1 : Field := ⟨RLY_PCFG, 3, 0⟩
def RLY_STATE : Nat := 0xCD3A4
def RLY_STATE_PENDING : Field := ⟨RLY_STATE, 4, 0⟩
def ACK_CFG : Nat := 0xCD3B0
def ACK_CFG_EN : Field := ⟨ACK_CFG, 19, 19⟩
def ACK_CFG_RATE : Field := ⟨ACK_CFG, 18, 17⟩
def ACK_CFG_BS : Field := ⟨ACK_CFG, 16, 16⟩
def ACK_CFG_WIN : Field := ⟨ACK_CFG, 15, 4⟩
def ACK_CFG_SLOT : Field := ⟨ACK_CFG, 3, 0⟩
def ACK_PRIM : Nat := 0xCD3B4
def ACK_PRIM_NONE : Field := ⟨ACK_PRIM, 6, 6⟩
def ACK_PRIM_POS : Field := ⟨ACK_PRIM, 5, 0⟩
def ACK_BUF : Nat := 0xCD3B8
def ACK_BUF_ADDR : Field := ⟨ACK_BUF, 19, 0⟩
def ACKW_TO : Nat := 0xCD3BC
def ACKW_TO_TO : Field := ⟨ACKW_TO, 19, 0⟩
def ACK_STAT : Nat := 0xCD3C0
def ACK_STAT_LAST : Field := ⟨ACK_STAT, 19, 17⟩
def ACK_STAT_WAIT : Field := ⟨ACK_STAT, 16, 14⟩
def ACK_STAT_CODE : Field := ⟨ACK_STAT, 7, 0⟩
def RC_CFG : Nat := 0xCD3C4
def RC_CFG_ALL : Field := ⟨RC_CFG, 0, 0⟩
def RC_COPY : Nat := 0xCD3C8
def RC_COPY_ADDR : Field := ⟨RC_COPY, 19, 0⟩
def RC_STATE : Nat := 0xCD3CC
def RC_STATE_BUSY : Field := ⟨RC_STATE, 19, 19⟩
def RC_STATE_HELD : Field := ⟨RC_STATE, 18, 13⟩
def RC_STATE_N : Field := ⟨RC_STATE, 12, 7⟩
def RC_STATE_MAX : Field := ⟨RC_STATE, 5, 0⟩
def CHD_CTL : Nat := 0xCE000
def CHD_CTL_ACQ : Field := ⟨CHD_CTL, 7, 7⟩
def CHD_CTL_KDET : Field := ⟨CHD_CTL, 6, 6⟩
def CHD_CTL_HEAL : Field := ⟨CHD_CTL, 5, 5⟩
def CHD_CTL_MASTER : Field := ⟨CHD_CTL, 4, 4⟩
def CHD_CTL_ANCHOR : Field := ⟨CHD_CTL, 3, 3⟩
def CHD_CTL_TOPO : Field := ⟨CHD_CTL, 2, 2⟩
def CHD_CTL_EN_B : Field := ⟨CHD_CTL, 1, 1⟩
def CHD_CTL_EN_A : Field := ⟨CHD_CTL, 0, 0⟩
def CHD_STATE : Nat := 0xCE004
def CHD_STATE_BYPASS : Field := ⟨CHD_STATE, 19, 19⟩
def CHD_STATE_INA : Field := ⟨CHD_STATE, 18, 18⟩
def CHD_STATE_INB : Field := ⟨CHD_STATE, 17, 17⟩
def CHD_STATE_HALTER : Field := ⟨CHD_STATE, 16, 16⟩
def CHD_STATE_HEALED : Field := ⟨CHD_STATE, 15, 15⟩
def CHD_STATE_TVALID : Field := ⟨CHD_STATE, 14, 14⟩
def CHD_STATE_BAY : Field := ⟨CHD_STATE, 13, 8⟩
def CHD_FLAGS : Nat := 0xCE008
def CHD_FLAGS_CFG_REFUSED : Field := ⟨CHD_FLAGS, 15, 15⟩
def CHD_FLAGS_TBL_REFUSED : Field := ⟨CHD_FLAGS, 14, 14⟩
def CHD_FLAGS_KNOCKED : Field := ⟨CHD_FLAGS, 13, 13⟩
def CHD_FLAGS_TIME_OK : Field := ⟨CHD_FLAGS, 12, 12⟩
def CHD_FLAGS_TSTEP : Field := ⟨CHD_FLAGS, 11, 11⟩
def CHD_FLAGS_TIME_MISS : Field := ⟨CHD_FLAGS, 10, 10⟩
def CHD_FLAGS_LATFAIL : Field := ⟨CHD_FLAGS, 9, 9⟩
def CHD_FLAGS_NORANGE : Field := ⟨CHD_FLAGS, 8, 8⟩
def CHD_FLAGS_ASN_MISMATCH : Field := ⟨CHD_FLAGS, 7, 7⟩
def CHD_FLAGS_HEALED : Field := ⟨CHD_FLAGS, 6, 6⟩
def CHD_FLAGS_REJOINED : Field := ⟨CHD_FLAGS, 5, 5⟩
def CHD_FLAGS_NOBUF : Field := ⟨CHD_FLAGS, 4, 4⟩
def CHD_FLAGS_CRC_BAD : Field := ⟨CHD_FLAGS, 3, 3⟩
def CHD_FLAGS_CUT : Field := ⟨CHD_FLAGS, 2, 2⟩
def CHD_FLAGS_RX_DONE : Field := ⟨CHD_FLAGS, 1, 1⟩
def CHD_FLAGS_TX_DONE : Field := ⟨CHD_FLAGS, 0, 0⟩
def CHD_IRQEN : Nat := 0xCE00C
def CHD_IRQEN_EN : Field := ⟨CHD_IRQEN, 19, 0⟩
def CHD_PAT : Nat := 0xCE010
def CHD_PAT_PATIENCE : Field := ⟨CHD_PAT, 19, 0⟩
def CHD_DOMAIN : Nat := 0xCE014
def CHD_DOMAIN_DOMAIN : Field := ⟨CHD_DOMAIN, 15, 0⟩
def CHD_TSTEP : Nat := 0xCE018
def CHD_TSTEP_MIN : Field := ⟨CHD_TSTEP, 19, 0⟩
def CHD_HEAL : Nat := 0xCE01C
def CHD_HEAL_PROBE : Field := ⟨CHD_HEAL, 19, 12⟩
def CHD_HEAL_LIMIT : Field := ⟨CHD_HEAL, 3, 0⟩
def CHD_RNGA : Nat := 0xCE020
def CHD_RNGA_NS : Field := ⟨CHD_RNGA, 19, 0⟩
def CHD_RNGB : Nat := 0xCE024
def CHD_RNGB_NS : Field := ⟨CHD_RNGB, 19, 0⟩
def CHD_CUMLAT : Nat := 0xCE028
def CHD_CUMLAT_NS : Field := ⟨CHD_CUMLAT, 19, 0⟩
def CHD_TRES : Nat := 0xCE02C
def CHD_TRES_RES : Field := ⟨CHD_TRES, 19, 0⟩
def CHD_TINFO : Nat := 0xCE030
def CHD_TINFO_HOPS : Field := ⟨CHD_TINFO, 7, 0⟩
def CHD_KNOCK : Nat := 0xCE034
def CHD_KNOCK_REP : Field := ⟨CHD_KNOCK, 3, 0⟩
def CHD_CNT (k : Nat) : Nat := 0xCE038 + 4 * k
def CHD_CNT_HI (k : Nat) : Field := ⟨(CHD_CNT k), 19, 10⟩
def CHD_CNT_LO (k : Nat) : Field := ⟨(CHD_CNT k), 9, 0⟩
def CHD_RXBASE : Nat := 0xCE044
def CHD_RXBASE_BASE : Field := ⟨CHD_RXBASE, 19, 0⟩
def CHD_RXCFG : Nat := 0xCE048
def CHD_RXCFG_SIZE : Field := ⟨CHD_RXCFG, 9, 4⟩
def CHD_RXCFG_COUNT1 : Field := ⟨CHD_RXCFG, 3, 0⟩
def CHD_RXNEXT : Nat := 0xCE04C
def CHD_RXNEXT_NEXT : Field := ⟨CHD_RXNEXT, 3, 0⟩
def CHB_OFS (k : Nat) : Nat := 0xCE100 + 16 * k
def CHB_OFS_OFS (k : Nat) : Field := ⟨(CHB_OFS k), 19, 0⟩
def CHB_LEN (k : Nat) : Nat := 0xCE104 + 16 * k
def CHB_LEN_LEN (k : Nat) : Field := ⟨(CHB_LEN k), 19, 0⟩
def CHB_CTL (k : Nat) : Nat := 0xCE108 + 16 * k
def CHB_CTL_ROLE (k : Nat) : Field := ⟨(CHB_CTL k), 19, 17⟩
def CHB_CTL_DIR (k : Nat) : Field := ⟨(CHB_CTL k), 16, 15⟩
def CHB_CTL_EVERY (k : Nat) : Field := ⟨(CHB_CTL k), 14, 11⟩
def CTX_CTL (k : Nat) : Nat := 0xCE300 + 16 * k
def CTX_CTL_READY (k : Nat) : Field := ⟨(CTX_CTL k), 19, 19⟩
def CTX_CTL_GRANTED (k : Nat) : Field := ⟨(CTX_CTL k), 18, 18⟩
def CTX_CTL_PORTS (k : Nat) : Field := ⟨(CTX_CTL k), 17, 16⟩
def CTX_CTL_SEQ (k : Nat) : Field := ⟨(CTX_CTL k), 7, 0⟩
def CTX_SRC (k : Nat) : Nat := 0xCE304 + 16 * k
def CTX_SRC_SRC (k : Nat) : Field := ⟨(CTX_SRC k), 19, 0⟩
def CTX_LEN (k : Nat) : Nat := 0xCE308 + 16 * k
def CTX_LEN_LENGTH (k : Nat) : Field := ⟨(CTX_LEN k), 10, 0⟩
def YRD_CTL : Nat := 0xCF000
def YRD_CTL_INIT : Field := ⟨YRD_CTL, 5, 5⟩
def YRD_CTL_RETRAIN : Field := ⟨YRD_CTL, 4, 4⟩
def YRD_CTL_SR : Field := ⟨YRD_CTL, 3, 3⟩
def YRD_CTL_ENC : Field := ⟨YRD_CTL, 2, 2⟩
def YRD_CTL_ECC : Field := ⟨YRD_CTL, 1, 1⟩
def YRD_CTL_EN : Field := ⟨YRD_CTL, 0, 0⟩
def YRD_CFG : Nat := 0xCF004
def YRD_CFG_FGR : Field := ⟨YRD_CFG, 7, 6⟩
def YRD_CFG_SPEED : Field := ⟨YRD_CFG, 5, 5⟩
def YRD_CFG_DENS : Field := ⟨YRD_CFG, 4, 3⟩
def YRD_CFG_CHANS : Field := ⟨YRD_CFG, 1, 0⟩
def YRD_MAP : Nat := 0xCF008
def YRD_MAP_GRAIN : Field := ⟨YRD_MAP, 19, 16⟩
def YRD_MAP_QTOP : Field := ⟨YRD_MAP, 8, 0⟩
def YRD_QXOR (k : Nat) : Nat := 0xCF00C + 4 * k
def YRD_QXOR_MASK (k : Nat) : Field := ⟨(YRD_QXOR k), 19, 0⟩
def YRD_STAT : Nat := 0xCF018
def YRD_STAT_STATE : Field := ⟨YRD_STAT, 19, 17⟩
def YRD_STAT_HELD : Field := ⟨YRD_STAT, 16, 16⟩
def YRD_STAT_HOT : Field := ⟨YRD_STAT, 15, 15⟩
def YRD_STAT_INITBUSY : Field := ⟨YRD_STAT, 14, 14⟩
def YRD_STAT_CAP : Field := ⟨YRD_STAT, 8, 0⟩
def YRD_FLAGS : Nat := 0xCF01C
def YRD_FLAGS_SUPPLY_LOST : Field := ⟨YRD_FLAGS, 8, 8⟩
def YRD_FLAGS_CFG_REFUSED : Field := ⟨YRD_FLAGS, 7, 7⟩
def YRD_FLAGS_TRAIN_FAIL : Field := ⟨YRD_FLAGS, 6, 6⟩
def YRD_FLAGS_REPLAY_FAIL : Field := ⟨YRD_FLAGS, 5, 5⟩
def YRD_FLAGS_REPLAY : Field := ⟨YRD_FLAGS, 4, 4⟩
def YRD_FLAGS_UE : Field := ⟨YRD_FLAGS, 3, 3⟩
def YRD_FLAGS_CE : Field := ⟨YRD_FLAGS, 2, 2⟩
def YRD_FLAGS_CLASS_ERR : Field := ⟨YRD_FLAGS, 1, 1⟩
def YRD_FLAGS_INIT_DONE : Field := ⟨YRD_FLAGS, 0, 0⟩
def YRD_PAT0 : Nat := 0xCF024
def YRD_PAT0_PATIENCE : Field := ⟨YRD_PAT0, 19, 0⟩
def YRD_PAT1 : Nat := 0xCF028
def YRD_PAT1_PATIENCE : Field := ⟨YRD_PAT1, 19, 0⟩
def YRD_RTCFG : Nat := 0xCF02C
def YRD_RTCFG_TSTEP : Field := ⟨YRD_RTCFG, 14, 10⟩
def YRD_RTCFG_PERIOD : Field := ⟨YRD_RTCFG, 9, 0⟩
def YRD_ERRA : Nat := 0xCF030
def YRD_ERRA_A : Field := ⟨YRD_ERRA, 19, 0⟩
def YRD_ERRB : Nat := 0xCF034
def YRD_ERRB_UE : Field := ⟨YRD_ERRB, 19, 19⟩
def YRD_ERRB_CH : Field := ⟨YRD_ERRB, 18, 18⟩
def YRD_ERRB_A_HI : Field := ⟨YRD_ERRB, 10, 0⟩
def YRD_CNT0 : Nat := 0xCF038
def YRD_CNT0_CE : Field := ⟨YRD_CNT0, 19, 10⟩
def YRD_CNT0_UE : Field := ⟨YRD_CNT0, 9, 0⟩
def YRD_CNT1 : Nat := 0xCF03C
def YRD_CNT1_REPLAY : Field := ⟨YRD_CNT1, 19, 10⟩
def YRD_CNT1_PAUSES : Field := ⟨YRD_CNT1, 9, 0⟩
def YRD_PPRROW : Nat := 0xCF040
def YRD_PPRROW_ROW : Field := ⟨YRD_PPRROW, 16, 0⟩
def YRD_PPRCMD : Nat := 0xCF044
def YRD_PPRCMD_START : Field := ⟨YRD_PPRCMD, 19, 19⟩
def YRD_PPRCMD_HARD : Field := ⟨YRD_PPRCMD, 18, 18⟩
def YRD_PPRCMD_CH : Field := ⟨YRD_PPRCMD, 17, 17⟩
def YRD_PPRCMD_BG : Field := ⟨YRD_PPRCMD, 16, 16⟩
def YRD_PPRCMD_BA : Field := ⟨YRD_PPRCMD, 15, 14⟩
def YRD_PPRCMD_BUSY : Field := ⟨YRD_PPRCMD, 13, 13⟩
def YRD_PPRCMD_RESULT : Field := ⟨YRD_PPRCMD, 12, 10⟩
def GATE_CTL (k : Nat) : Nat := 0xD0000 + 8 * k
def GATE_CTL_BASE_LO (k : Nat) : Field := ⟨(GATE_CTL k), 19, 15⟩
def GATE_CTL_PRIVONLY (k : Nat) : Field := ⟨(GATE_CTL k), 2, 2⟩
def GATE_CTL_WRITE (k : Nat) : Field := ⟨(GATE_CTL k), 1, 1⟩
def GATE_CTL_EN (k : Nat) : Field := ⟨(GATE_CTL k), 0, 0⟩
def GATE_HI (k : Nat) : Nat := 0xD0004 + 8 * k
def GATE_HI_BASE_HI (k : Nat) : Field := ⟨(GATE_HI k), 19, 0⟩
def FLC_INFO : Nat := 0xD0040
def FLC_INFO_PRESENT : Field := ⟨FLC_INFO, 19, 19⟩
def FLC_INFO_ERASE_LOG2 : Field := ⟨FLC_INFO, 12, 8⟩
def FLC_INFO_MODE : Field := ⟨FLC_INFO, 7, 5⟩
def FLC_INFO_SIZE_LOG2 : Field := ⟨FLC_INFO, 4, 0⟩
def FLC_CMD : Nat := 0xD0044
def FLC_CMD_OP : Field := ⟨FLC_CMD, 19, 18⟩
def FLC_CMD_LEN : Field := ⟨FLC_CMD, 17, 9⟩
def FLC_CMD_PAGE_OFS : Field := ⟨FLC_CMD, 7, 0⟩
def FLC_ADDR : Nat := 0xD0048
def FLC_ADDR_PAGE : Field := ⟨FLC_ADDR, 19, 0⟩
def FLC_SRC : Nat := 0xD004C
def FLC_SRC_SRC : Field := ⟨FLC_SRC, 19, 0⟩
def FLC_STATUS : Nat := 0xD0050
def FLC_STATUS_CAUSE : Field := ⟨FLC_STATUS, 6, 4⟩
def FLC_STATUS_ERR : Field := ⟨FLC_STATUS, 2, 2⟩
def FLC_STATUS_DONE : Field := ⟨FLC_STATUS, 1, 1⟩
def FLC_STATUS_BUSY : Field := ⟨FLC_STATUS, 0, 0⟩
def HSP_PERM : Nat := 0xD1000
def HSP_PERM_BLOCK : Field := ⟨HSP_PERM, 19, 0⟩
def HSP_BANKPERM : Nat := 0xD1004
def HSP_BANKPERM_ROM : Field := ⟨HSP_BANKPERM, 10, 10⟩
def HSP_BANKPERM_BANK : Field := ⟨HSP_BANKPERM, 9, 0⟩
def HSP_FLAGS : Nat := 0xD1008
def HSP_FLAGS_ERR : Field := ⟨HSP_FLAGS, 19, 19⟩
def HSP_FLAGS_CAUSE : Field := ⟨HSP_FLAGS, 18, 16⟩
def HSP_FLAGS_DB : Field := ⟨HSP_FLAGS, 15, 0⟩
def HSP_IRQEN : Nat := 0xD100C
def HSP_IRQEN_EN : Field := ⟨HSP_IRQEN, 19, 0⟩
def HSP_RING : Nat := 0xD1010
def HSP_RING_RING : Field := ⟨HSP_RING, 15, 0⟩
def HSP_H2C : Nat := 0xD1014
def HSP_H2C_H2C : Field := ⟨HSP_H2C, 15, 0⟩
def HSP_H2CCLR : Nat := 0xD1018
def U0_DATA : Nat := 0xD1100
def U0_DATA_FERR : Field := ⟨U0_DATA, 9, 9⟩
def U0_DATA_VALID : Field := ⟨U0_DATA, 8, 8⟩
def U0_DATA_DATA : Field := ⟨U0_DATA, 7, 0⟩
def U0_STATUS : Nat := 0xD1104
def U0_STATUS_TXLVL : Field := ⟨U0_STATUS, 19, 14⟩
def U0_STATUS_RXLVL : Field := ⟨U0_STATUS, 13, 8⟩
def U0_STATUS_BREAK : Field := ⟨U0_STATUS, 4, 4⟩
def U0_STATUS_FERR : Field := ⟨U0_STATUS, 3, 3⟩
def U0_STATUS_OVERRUN : Field := ⟨U0_STATUS, 2, 2⟩
def U0_STATUS_TXOVF : Field := ⟨U0_STATUS, 1, 1⟩
def U0_STATUS_TXIDLE : Field := ⟨U0_STATUS, 0, 0⟩
def U0_CTRL : Nat := 0xD1108
def U0_CTRL_RXTHR : Field := ⟨U0_CTRL, 17, 12⟩
def U0_CTRL_TXTHR : Field := ⟨U0_CTRL, 11, 6⟩
def U0_CTRL_IE_ERR : Field := ⟨U0_CTRL, 5, 5⟩
def U0_CTRL_IE_TX : Field := ⟨U0_CTRL, 4, 4⟩
def U0_CTRL_IE_RX : Field := ⟨U0_CTRL, 3, 3⟩
def U0_CTRL_LOOP : Field := ⟨U0_CTRL, 2, 2⟩
def U0_CTRL_RXEN : Field := ⟨U0_CTRL, 1, 1⟩
def U0_CTRL_TXEN : Field := ⟨U0_CTRL, 0, 0⟩
def U0_BAUD : Nat := 0xD110C
def U0_BAUD_DIV : Field := ⟨U0_BAUD, 15, 6⟩
def U0_BAUD_FRAC : Field := ⟨U0_BAUD, 5, 0⟩
def GPIO_IN (k : Nat) : Nat := 0xD1200 + 4 * k
def GPIO_IN_LEVEL (k : Nat) : Field := ⟨(GPIO_IN k), 15, 0⟩
def GPIO_OUT (k : Nat) : Nat := 0xD1208 + 4 * k
def GPIO_OUT_LEVEL (k : Nat) : Field := ⟨(GPIO_OUT k), 15, 0⟩
def GPIO_OUTSET (k : Nat) : Nat := 0xD1210 + 4 * k
def GPIO_OUTCLR (k : Nat) : Nat := 0xD1218 + 4 * k
def GPIO_CFG (k : Nat) : Nat := 0xD1240 + 4 * k
def GPIO_CFG_WAKE (k : Nat) : Field := ⟨(GPIO_CFG k), 19, 17⟩
def GPIO_CFG_PEV (k : Nat) : Field := ⟨(GPIO_CFG k), 16, 15⟩
def GPIO_CFG_CACT (k : Nat) : Field := ⟨(GPIO_CFG k), 14, 13⟩
def GPIO_CFG_FILT (k : Nat) : Field := ⟨(GPIO_CFG k), 12, 10⟩
def GPIO_CFG_PULL (k : Nat) : Field := ⟨(GPIO_CFG k), 9, 8⟩
def GPIO_CFG_MODE (k : Nat) : Field := ⟨(GPIO_CFG k), 7, 6⟩
def CC_RUN (k : Nat) : Nat := 0xD2000 + 256 * k
def CC_RUN_CRESET (k : Nat) : Field := ⟨(CC_RUN k), 1, 1⟩
def CC_RUN_RUN (k : Nat) : Field := ⟨(CC_RUN k), 0, 0⟩
def CC_START (k : Nat) : Nat := 0xD2004 + 256 * k
def CC_START_START (k : Nat) : Field := ⟨(CC_START k), 15, 0⟩
def CC_STATUS (k : Nat) : Nat := 0xD2008 + 256 * k
def CC_STATUS_STATE (k : Nat) : Field := ⟨(CC_STATUS k), 19, 16⟩
def CC_STATUS_LOFT_REFUSED (k : Nat) : Field := ⟨(CC_STATUS k), 0, 0⟩
def CC_TASKPERM (k : Nat) : Nat := 0xD200C + 256 * k
def CC_TASKPERM_BLOCK (k : Nat) : Field := ⟨(CC_TASKPERM k), 19, 0⟩
def CC_ACTPERM (k : Nat) : Nat := 0xD2010 + 256 * k
def CC_ACTPERM_KIND (k : Nat) : Field := ⟨(CC_ACTPERM k), 8, 1⟩
def CC_LOFTADDR (k : Nat) : Nat := 0xD2014 + 256 * k
def CC_LOFTADDR_AUTOINC (k : Nat) : Field := ⟨(CC_LOFTADDR k), 19, 19⟩
def CC_LOFTADDR_ADDR (k : Nat) : Field := ⟨(CC_LOFTADDR k), 13, 0⟩
def CC_LOFTDATA (k : Nat) : Nat := 0xD2018 + 256 * k
def CC_LOFTDATA_DATA (k : Nat) : Field := ⟨(CC_LOFTDATA k), 19, 0⟩
def CC_PC (k : Nat) : Nat := 0xD201C + 256 * k
def CC_PC_PC (k : Nat) : Field := ⟨(CC_PC k), 15, 0⟩
def CC_ACT (c k : Nat) : Nat := 0xD2040 + 256 * c + 4 * k
def CC_ACT_KIND (c k : Nat) : Field := ⟨(CC_ACT c k), 19, 16⟩
def CC_ACT_STATUS (c k : Nat) : Field := ⟨(CC_ACT c k), 15, 12⟩
def CC_ACT_RESV (c k : Nat) : Field := ⟨(CC_ACT c k), 9, 0⟩
def KMB_ORDER : Nat := 0xD3000
def KMB_ORDER_START : Field := ⟨KMB_ORDER, 19, 19⟩
def KMB_ORDER_CODE : Field := ⟨KMB_ORDER, 7, 0⟩
def KMB_ADDR : Nat := 0xD3004
def KMB_ADDR_VALUE : Field := ⟨KMB_ADDR, 19, 0⟩
def KMB_ARG : Nat := 0xD3008
def KMB_ARG_VALUE : Field := ⟨KMB_ARG, 19, 0⟩
def KMB_STAT : Nat := 0xD300C
def KMB_STAT_BUSY : Field := ⟨KMB_STAT, 19, 19⟩
def KMB_STAT_RESULT : Field := ⟨KMB_STAT, 18, 15⟩
def KMB_STAT_LAST : Field := ⟨KMB_STAT, 7, 0⟩
def KMB_FLAGS : Nat := 0xD3010
def KMB_FLAGS_REFUSED : Field := ⟨KMB_FLAGS, 1, 1⟩
def KMB_FLAGS_DONE : Field := ⟨KMB_FLAGS, 0, 0⟩
def KMB_IRQEN : Nat := 0xD3014
def KMB_IRQEN_EN : Field := ⟨KMB_IRQEN, 19, 0⟩
def KMB_BOOT : Nat := 0xD3018
def KMB_BOOT_UNVERIFIED : Field := ⟨KMB_BOOT, 19, 19⟩
def KMB_BOOT_AREA : Field := ⟨KMB_BOOT, 18, 18⟩
def KMB_BOOT_REASON : Field := ⟨KMB_BOOT, 17, 15⟩
def KMB_BOOT_HALTER : Field := ⟨KMB_BOOT, 14, 14⟩
def KMB_BOOT_HRADIO : Field := ⟨KMB_BOOT, 13, 13⟩
def KMB_BOOT_HCHORD : Field := ⟨KMB_BOOT, 12, 12⟩
def KMB_BOOT_SERVICE : Field := ⟨KMB_BOOT, 11, 11⟩
def KMB_VERLO : Nat := 0xD301C
def KMB_VERLO_VALUE : Field := ⟨KMB_VERLO, 19, 0⟩
def KMB_VERHI : Nat := 0xD3020
def KMB_VERHI_VALUE : Field := ⟨KMB_VERHI, 19, 0⟩
def KMB_BCNTLO : Nat := 0xD3024
def KMB_BCNTLO_VALUE : Field := ⟨KMB_BCNTLO, 19, 0⟩
def KMB_BCNTHI : Nat := 0xD3028
def KMB_BCNTHI_VALUE : Field := ⟨KMB_BCNTHI, 19, 0⟩
def KMB_FAILS : Nat := 0xD302C
def KMB_FAILS_FAILS : Field := ⟨KMB_FAILS, 3, 0⟩
def KMB_FLOORLO : Nat := 0xD3030
def KMB_FLOORLO_VALUE : Field := ⟨KMB_FLOORLO, 19, 0⟩
def KMB_FLOORHI : Nat := 0xD3034
def KMB_FLOORHI_VALUE : Field := ⟨KMB_FLOORHI, 19, 0⟩
def KMB_WDOG : Nat := 0xD3038
def KMB_WDOG_MS : Field := ⟨KMB_WDOG, 19, 0⟩
def KMB_SVC : Nat := 0xD303C
def KMB_SVC_DECLARE : Field := ⟨KMB_SVC, 0, 0⟩
def UPD_CMD : Nat := 0xD3100
def UPD_CMD_OP : Field := ⟨UPD_CMD, 19, 17⟩
def UPD_CMD_PART : Field := ⟨UPD_CMD, 16, 14⟩
def UPD_CMD_INDEX : Field := ⟨UPD_CMD, 13, 0⟩
def UPD_ADDR : Nat := 0xD3104
def UPD_ADDR_ADDR : Field := ⟨UPD_ADDR, 19, 0⟩
def UPD_KEYS : Nat := 0xD3108
def UPD_KEYS_KEKSLOT : Field := ⟨UPD_KEYS, 13, 8⟩
def UPD_KEYS_CSLOT : Field := ⟨UPD_KEYS, 5, 0⟩
def UPD_STAT : Nat := 0xD310C
def UPD_STAT_BUSY : Field := ⟨UPD_STAT, 19, 19⟩
def UPD_STAT_RESULT : Field := ⟨UPD_STAT, 18, 15⟩
def UPD_STAT_CAMP : Field := ⟨UPD_STAT, 14, 14⟩
def UPD_STAT_INDEX : Field := ⟨UPD_STAT, 13, 0⟩
def UPD_FLAGS : Nat := 0xD3110
def UPD_FLAGS_DONE_ALL : Field := ⟨UPD_FLAGS, 4, 4⟩
def UPD_FLAGS_REVERTED : Field := ⟨UPD_FLAGS, 3, 3⟩
def UPD_FLAGS_STAGED : Field := ⟨UPD_FLAGS, 2, 2⟩
def UPD_FLAGS_REFUSED : Field := ⟨UPD_FLAGS, 1, 1⟩
def UPD_FLAGS_DONE : Field := ⟨UPD_FLAGS, 0, 0⟩
def UPD_CAMPLO : Nat := 0xD3114
def UPD_CAMPLO_VALUE : Field := ⟨UPD_CAMPLO, 19, 0⟩
def UPD_CAMPHI : Nat := 0xD3118
def UPD_CAMPHI_VALUE : Field := ⟨UPD_CAMPHI, 19, 0⟩
def UPD_ORDER : Nat := 0xD311C
def UPD_ORDER_VALUE : Field := ⟨UPD_ORDER, 19, 0⟩
def UPD_AREA (k : Nat) : Nat := 0xD3120 + 4 * k
def UPD_AREA_BASE (k : Nat) : Field := ⟨(UPD_AREA k), 19, 8⟩
def UPD_AREA_SIZE (k : Nat) : Field := ⟨(UPD_AREA k), 7, 0⟩
def UPD_PSTAT (k : Nat) : Nat := 0xD3140 + 16 * k
def UPD_PSTAT_PHASE (k : Nat) : Field := ⟨(UPD_PSTAT k), 19, 16⟩
def UPD_PSTAT_TRIES (k : Nat) : Field := ⟨(UPD_PSTAT k), 15, 12⟩
def UPD_PSTAT_LIMIT (k : Nat) : Field := ⟨(UPD_PSTAT k), 11, 8⟩
def UPD_PRCV (k : Nat) : Nat := 0xD3144 + 16 * k
def UPD_PRCV_VALUE (k : Nat) : Field := ⟨(UPD_PRCV k), 19, 0⟩
def UPD_PVERLO (k : Nat) : Nat := 0xD3148 + 16 * k
def UPD_PVERLO_VALUE (k : Nat) : Field := ⟨(UPD_PVERLO k), 19, 0⟩
def UPD_PVERHI (k : Nat) : Nat := 0xD314C + 16 * k
def UPD_PVERHI_VALUE (k : Nat) : Field := ⟨(UPD_PVERHI k), 19, 0⟩

/-! ## The table of registers -/

/-- One line of the register table: `n` registers from `base` at `stride`, their common reset value, and the bits
that a write stores (RW), clears by 1 (W1C) and sets by 1 (W1S).  Every other bit is RO, WO or reserved (R4, R5). -/
structure RegRow where
  base   : Nat
  n      : Nat
  stride : Nat
  reset  : Nat
  rw     : Nat
  w1c    : Nat
  w1s    : Nat
deriving DecidableEq, Repr

def regRowsC0 : List RegRow :=
  [⟨0xC0000, 6, 4, 0x00000, 0x00000, 0x00000, 0x00000⟩,
   ⟨0xC0040, 1, 4, 0x00001, 0x00000, 0x00000, 0x00000⟩,
   ⟨0xC0044, 1, 4, 0x00000, 0x00000, 0x00000, 0x00000⟩,
   ⟨0xC0048, 1, 4, 0x00000, 0x00000, 0x00000, 0x00000⟩,
   ⟨0xC0050, 1, 4, 0x00B15, 0x00000, 0x00000, 0x00000⟩,
   ⟨0xC0054, 1, 4, 0xE5555, 0x00000, 0x00000, 0x00000⟩,
   ⟨0xC0058, 2, 4, 0x00000, 0x00000, 0x00000, 0x00000⟩,
   ⟨0xC0400, 1, 4, 0x00000, 0x0000F, 0x00000, 0x00000⟩,
   ⟨0xC0404, 1, 4, 0x00000, 0x00000, 0x00000, 0x00000⟩,
   ⟨0xC0408, 1, 4, 0x003FF, 0x003FF, 0x00000, 0x00000⟩,
   ⟨0xC040C, 1, 4, 0x00000, 0x00000, 0x003FF, 0x00000⟩,
   ⟨0xC0410, 1, 4, 0x04B00, 0xFFFFF, 0x00000, 0x00000⟩,
   ⟨0xC0414, 1, 4, 0x00000, 0x001FF, 0x00000, 0x00000⟩,
   ⟨0xC0418, 1, 4, 0x00000, 0x00001, 0x00000, 0x00000⟩,
   ⟨0xC0420, 1, 4, 0x00000, 0x00007, 0x00000, 0x00000⟩,
   ⟨0xC0424, 1, 4, 0x00000, 0x00000, 0x00030, 0x00000⟩,
   ⟨0xC0428, 1, 4, 0x00493, 0xFFFFF, 0x00000, 0x00000⟩,
   ⟨0xC042C, 1, 4, 0xE0000, 0xFFFFF, 0x00000, 0x00000⟩,
   ⟨0xC0430, 1, 4, 0x000D2, 0x000FF, 0x00000, 0x00000⟩,
   ⟨0xC0434, 1, 4, 0x00000, 0x00000, 0x00000, 0x00000⟩,
   ⟨0xC0440, 1, 4, 0x00000, 0x83FFF, 0x00000, 0x00000⟩,
   ⟨0xC0444, 1, 4, 0x00000, 0x03FFF, 0x00000, 0x00000⟩,
   ⟨0xC0448, 1, 4, 0x00000, 0xFFFFF, 0x00000, 0x00000⟩,
   ⟨0xC044C, 1, 4, 0x08700, 0xFFFFF, 0x00000, 0x00000⟩,
   ⟨0xC0450, 1, 4, 0x00000, 0xFFFFF, 0x00000, 0x00000⟩,
   ⟨0xC0454, 1, 4, 0x00000, 0x0FFFF, 0x00000, 0x00000⟩,
   ⟨0xC0458, 1, 4, 0x00000, 0x000FF, 0x00000, 0x00000⟩,
   ⟨0xC045C, 1, 4, 0x00000, 0x0FFFF, 0x00000, 0x00000⟩,
   ⟨0xC0460, 1, 4, 0x00000, 0x000FF, 0x00000, 0x00000⟩,
   ⟨0xC0464, 1, 4, 0x00000, 0x00000, 0x003C0, 0x00000⟩,
   ⟨0xC0480, 8, 8, 0x00000, 0xFFFFF, 0x00000, 0x00000⟩,
   ⟨0xC0484, 8, 8, 0x00000, 0xFFFFF, 0x00000, 0x00000⟩,
   ⟨0xC0500, 1, 4, 0x00003, 0x00003, 0x00000, 0x00000⟩]

def regRowsC1 : List RegRow :=
  [⟨0xC1000, 1, 4, 0x01FFF, 0x01FFF, 0x00000, 0x00000⟩,
   ⟨0xC1004, 1, 4, 0x003FF, 0x00000, 0x00000, 0x00000⟩,
   ⟨0xC1008, 1, 4, 0x003FF, 0x00000, 0x00000, 0x00000⟩,
   ⟨0xC100C, 1, 4, 0x00000, 0x00000, 0x00000, 0x00000⟩,
   ⟨0xC1010, 1, 4, 0x00000, 0x00000, 0x000FF, 0x00000⟩,
   ⟨0xC1014, 1, 4, 0x00000, 0x000FF, 0x00000, 0x00000⟩,
   ⟨0xC1018, 1, 4, 0x00000, 0x00000, 0x00000, 0x00000⟩,
   ⟨0xC101C, 1, 4, 0x00000, 0x00000, 0x00000, 0x00000⟩,
   ⟨0xC1020, 1, 4, 0x00180, 0xFFFFF, 0x00000, 0x00000⟩,
   ⟨0xC1024, 1, 4, 0x09600, 0xFFFFF, 0x00000, 0x00000⟩,
   ⟨0xC1028, 1, 4, 0x00F00, 0xFFFFF, 0x00000, 0x00000⟩,
   ⟨0xC102C, 1, 4, 0x00000, 0xFFFFF, 0x00000, 0x00000⟩,
   ⟨0xC1030, 1, 4, 0x09600, 0xFFFFF, 0x00000, 0x00000⟩,
   ⟨0xC1040, 4, 4, 0x00000, 0xFC3FF, 0x00000, 0x00000⟩,
   ⟨0xC1080, 32, 4, 0x00000, 0x00000, 0x00000, 0x00000⟩,
   ⟨0xC1100, 16, 4, 0x00000, 0x00000, 0x00000, 0x00000⟩,
   ⟨0xC1140, 8, 4, 0x00000, 0x00000, 0x00000, 0x00000⟩,
   ⟨0xC1180, 1, 4, 0x003FF, 0x00000, 0x00000, 0x00000⟩,
   ⟨0xC1184, 1, 4, 0x00040, 0x00000, 0x00000, 0x00000⟩,
   ⟨0xC1188, 1, 4, 0x00000, 0x00000, 0x00000, 0x00000⟩,
   ⟨0xC118C, 1, 4, 0x00000, 0x00000, 0x00000, 0x00000⟩,
   ⟨0xC1190, 1, 4, 0x00010, 0x00000, 0x00000, 0x00000⟩]

def regRowsC2 : List RegRow :=
  [⟨0xC2000, 1, 4, 0x00000, 0x00000, 0x0003F, 0x00000⟩,
   ⟨0xC2004, 1, 4, 0x00000, 0x0003F, 0x00000, 0x00000⟩,
   ⟨0xC2008, 1, 4, 0x00000, 0x00000, 0xFFFFF, 0x00000⟩,
   ⟨0xC200C, 1, 4, 0x00000, 0x00000, 0xFFFFF, 0x00000⟩,
   ⟨0xC2010, 3, 4, 0x00000, 0xFFFFF, 0x00000, 0x00000⟩,
   ⟨0xC201C, 1, 4, 0x00418, 0x80FFF, 0x00000, 0x00000⟩,
   ⟨0xC2020, 1, 4, 0x00000, 0x00000, 0x00000, 0x00000⟩,
   ⟨0xC2024, 1, 4, 0x00000, 0x00000, 0x00000, 0x00000⟩,
   ⟨0xC2028, 1, 4, 0x00000, 0x00000, 0x00000, 0x00000⟩,
   ⟨0xC202C, 1, 4, 0x00000, 0x00000, 0x00000, 0x00000⟩,
   ⟨0xC2030, 1, 4, 0x00000, 0x00000, 0x00000, 0x00000⟩,
   ⟨0xC2034, 1, 4, 0x00000, 0x00000, 0x00000, 0x00000⟩,
   ⟨0xC2038, 1, 4, 0x00000, 0x00000, 0x00000, 0x00000⟩,
   ⟨0xC203C, 1, 4, 0x00000, 0x00000, 0x00000, 0x00000⟩,
   ⟨0xC2080, 8, 8, 0x00000, 0x00000, 0x80000, 0x00000⟩,
   ⟨0xC2084, 8, 8, 0x00000, 0x00000, 0x00000, 0x00000⟩,
   ⟨0xC2100, 16, 16, 0x00000, 0x00000, 0x00000, 0x00000⟩,
   ⟨0xC2104, 16, 16, 0x00000, 0x00000, 0x00000, 0x00000⟩,
   ⟨0xC2108, 16, 16, 0x00000, 0x00000, 0x00000, 0x00000⟩,
   ⟨0xC210C, 16, 16, 0x00000, 0x00000, 0x00000, 0x00000⟩]

def regRowsC3 : List RegRow :=
  [⟨0xC3000, 64, 4, 0x00000, 0xCFFFF, 0x00000, 0x00000⟩,
   ⟨0xC3100, 16, 16, 0x10000, 0xF3C00, 0x00000, 0x00000⟩,
   ⟨0xC3104, 16, 16, 0x00000, 0x0FFFF, 0x00000, 0x00000⟩,
   ⟨0xC3108, 16, 16, 0x0FFFF, 0x0FFFF, 0x00000, 0x00000⟩,
   ⟨0xC310C, 16, 16, 0x0FFFF, 0x0FFFF, 0x00000, 0x00000⟩,
   ⟨0xC3200, 1, 4, 0x00000, 0x00000, 0x0000F, 0x00000⟩,
   ⟨0xC3204, 1, 4, 0x00000, 0x0000F, 0x00000, 0x00000⟩,
   ⟨0xC3208, 1, 4, 0x00000, 0x00000, 0x00040, 0x00000⟩,
   ⟨0xC320C, 1, 4, 0x00000, 0x00000, 0x00000, 0x00000⟩,
   ⟨0xC3210, 3, 4, 0x00000, 0x00000, 0xFFFFF, 0x00000⟩,
   ⟨0xC3240, 16, 4, 0x00000, 0x000FF, 0x00000, 0x00000⟩,
   ⟨0xC3280, 1, 4, 0x00000, 0xFFFFF, 0x00000, 0x00000⟩,
   ⟨0xC3284, 1, 4, 0x00000, 0xFFFFF, 0x00000, 0x00000⟩,
   ⟨0xC3288, 1, 4, 0x00000, 0x0000F, 0x00000, 0x00000⟩]

def regRowsC4 : List RegRow :=
  [⟨0xC4000, 8, 32, 0x00000, 0x7FFFF, 0x00000, 0x00000⟩,
   ⟨0xC4004, 8, 32, 0x00000, 0xFFFFF, 0x00000, 0x00000⟩,
   ⟨0xC4008, 8, 32, 0xFFFFF, 0xFFFFF, 0x00000, 0x00000⟩,
   ⟨0xC400C, 8, 32, 0xFFFFF, 0xFFFFF, 0x00000, 0x00000⟩,
   ⟨0xC4010, 8, 32, 0x00000, 0x00000, 0x00000, 0x00000⟩,
   ⟨0xC4014, 8, 32, 0x00000, 0x00000, 0x00000, 0x00000⟩,
   ⟨0xC4100, 1, 4, 0x00000, 0x00000, 0x1FFFF, 0x00000⟩,
   ⟨0xC4104, 1, 4, 0x00000, 0x0FFFF, 0x00000, 0x00000⟩,
   ⟨0xC4108, 1, 4, 0x00000, 0x0FFFF, 0x00000, 0x00000⟩,
   ⟨0xC410C, 1, 4, 0x00000, 0x00000, 0x00000, 0x00000⟩]

def regRowsC5 : List RegRow :=
  [⟨0xC5000, 1, 4, 0x00000, 0x00000, 0x00000, 0x00000⟩,
   ⟨0xC5004, 1, 4, 0x00000, 0x00000, 0x00000, 0x00000⟩,
   ⟨0xC5008, 1, 4, 0x0010E, 0x00000, 0x00000, 0x00000⟩,
   ⟨0xC500C, 1, 4, 0x00000, 0x07FFF, 0x00000, 0x00000⟩,
   ⟨0xC5010, 1, 4, 0x00000, 0x1FFFF, 0x00000, 0x00000⟩,
   ⟨0xC5014, 1, 4, 0x00000, 0xFFFFF, 0x00000, 0x00000⟩,
   ⟨0xC5018, 1, 4, 0x00000, 0x00000, 0x00000, 0x00000⟩,
   ⟨0xC501C, 1, 4, 0x00000, 0x00000, 0x00000, 0x00000⟩,
   ⟨0xC5020, 1, 4, 0x00040, 0x00000, 0x0007B, 0x00000⟩,
   ⟨0xC5024, 1, 4, 0x00000, 0x0007B, 0x00000, 0x00000⟩,
   ⟨0xC5028, 1, 4, 0x00000, 0x00000, 0x00000, 0x00000⟩,
   ⟨0xC5040, 2, 16, 0x00000, 0x07FFF, 0x00000, 0x00000⟩,
   ⟨0xC5044, 2, 16, 0x00000, 0x1FFFF, 0x00000, 0x00000⟩,
   ⟨0xC5048, 2, 16, 0x0010E, 0xFFFFF, 0x00000, 0x00000⟩,
   ⟨0xC504C, 2, 16, 0x00000, 0xC00FF, 0x00000, 0x00000⟩,
   ⟨0xC5080, 16, 4, 0x00000, 0x0FFFF, 0x00000, 0x00000⟩]

def regRowsC6 : List RegRow :=
  [⟨0xC6000, 1, 4, 0x00000, 0x00000, 0x0FFFF, 0x00000⟩,
   ⟨0xC6004, 1, 4, 0x00000, 0x0FFFF, 0x00000, 0x00000⟩,
   ⟨0xC6008, 1, 4, 0x00000, 0x00000, 0x00003, 0x00000⟩,
   ⟨0xC600C, 1, 4, 0x00000, 0x00003, 0x00000, 0x00000⟩,
   ⟨0xC6010, 1, 4, 0x00000, 0x00000, 0x00000, 0x00000⟩,
   ⟨0xC6014, 1, 4, 0x00000, 0x00000, 0x00000, 0x00000⟩,
   ⟨0xC6018, 1, 4, 0x00000, 0x00000, 0x00000, 0x00000⟩,
   ⟨0xC601C, 1, 4, 0x01000, 0xFFFFF, 0x00000, 0x00000⟩,
   ⟨0xC6020, 1, 4, 0x00040, 0x00000, 0x00000, 0x00000⟩,
   ⟨0xC6024, 1, 4, 0x00000, 0x00000, 0x00000, 0x00000⟩,
   ⟨0xC6100, 16, 32, 0x00000, 0x00000, 0x00000, 0x00000⟩,
   ⟨0xC6104, 16, 32, 0x00000, 0xFFFFF, 0x00000, 0x00000⟩,
   ⟨0xC6108, 16, 32, 0x00000, 0x00000, 0x00000, 0x00000⟩,
   ⟨0xC610C, 16, 32, 0x00000, 0x00000, 0x00000, 0x00000⟩,
   ⟨0xC6110, 16, 32, 0x00000, 0x00000, 0x00000, 0x00000⟩,
   ⟨0xC6114, 16, 32, 0x00000, 0x00000, 0x01000, 0x00000⟩,
   ⟨0xC6118, 16, 32, 0x00000, 0xFFFFF, 0x00000, 0x00000⟩,
   ⟨0xC611C, 16, 32, 0x00000, 0x000FF, 0x00000, 0x00000⟩]

def regRowsC7 : List RegRow :=
  [⟨0xC7000, 1, 4, 0x00000, 0x00000, 0x00000, 0x00000⟩,
   ⟨0xC7004, 1, 4, 0x00000, 0x00000, 0x00000, 0x00000⟩,
   ⟨0xC7008, 1, 4, 0x00000, 0x00000, 0x001FF, 0x00000⟩,
   ⟨0xC700C, 1, 4, 0x00000, 0x001FF, 0x00000, 0x00000⟩,
   ⟨0xC7010, 1, 4, 0x000C8, 0xFFFFF, 0x00000, 0x00000⟩,
   ⟨0xC7014, 1, 4, 0x003E8, 0xFFFFF, 0x00000, 0x00000⟩,
   ⟨0xC7018, 1, 4, 0x04E20, 0xFFFFF, 0x00000, 0x00000⟩,
   ⟨0xC701C, 1, 4, 0x04E20, 0xFFFFF, 0x00000, 0x00000⟩,
   ⟨0xC7020, 1, 4, 0x00000, 0xFFFFF, 0x00000, 0x00000⟩,
   ⟨0xC7024, 1, 4, 0x00000, 0xFFFFF, 0x00000, 0x00000⟩,
   ⟨0xC7040, 1, 4, 0x00000, 0x00000, 0x00000, 0x00000⟩,
   ⟨0xC7044, 1, 4, 0x00000, 0xFC03F, 0x00000, 0x00000⟩,
   ⟨0xC7048, 1, 4, 0x00000, 0xFFFFF, 0x00000, 0x00000⟩,
   ⟨0xC704C, 1, 4, 0x00000, 0xFFFFF, 0x00000, 0x00000⟩,
   ⟨0xC7050, 1, 4, 0x00000, 0xFFFFF, 0x00000, 0x00000⟩,
   ⟨0xC7054, 1, 4, 0x00000, 0x00000, 0x00000, 0x00000⟩,
   ⟨0xC7058, 1, 4, 0x01000, 0xFFFFF, 0x00000, 0x00000⟩,
   ⟨0xC7400, 64, 32, 0x00000, 0x00000, 0x00000, 0x00000⟩,
   ⟨0xC7404, 64, 32, 0x00000, 0x00000, 0x00000, 0x00000⟩,
   ⟨0xC7408, 64, 32, 0x00000, 0x00000, 0x00000, 0x00000⟩,
   ⟨0xC740C, 64, 32, 0x00000, 0x00000, 0x00000, 0x00000⟩,
   ⟨0xC7410, 64, 32, 0x00000, 0x00000, 0x00000, 0x00000⟩]

def regRowsC8 : List RegRow :=
  [⟨0xC8000, 1, 4, 0x00000, 0x00000, 0x00000, 0x00000⟩,
   ⟨0xC8004, 1, 4, 0x00000, 0xFFFFF, 0x00000, 0x00000⟩,
   ⟨0xC8008, 1, 4, 0x00000, 0xFFFFF, 0x00000, 0x00000⟩,
   ⟨0xC800C, 1, 4, 0x00000, 0xFFFFF, 0x00000, 0x00000⟩,
   ⟨0xC8010, 1, 4, 0x00000, 0xFFFFF, 0x00000, 0x00000⟩,
   ⟨0xC8014, 1, 4, 0x00000, 0xFFFFF, 0x00000, 0x00000⟩,
   ⟨0xC8018, 1, 4, 0x00000, 0xFFFFF, 0x00000, 0x00000⟩,
   ⟨0xC801C, 1, 4, 0x00000, 0x00000, 0x0C000, 0x00000⟩,
   ⟨0xC8040, 1, 4, 0x00000, 0x00000, 0x00000, 0x00000⟩,
   ⟨0xC8044, 1, 4, 0x00000, 0x00000, 0x60000, 0x00000⟩,
   ⟨0xC8080, 1, 4, 0x00000, 0x00000, 0x00000, 0x00000⟩]

def regRowsC9 : List RegRow :=
  [⟨0xC9000, 1, 4, 0x00000, 0x00003, 0x00000, 0x00000⟩,
   ⟨0xC9004, 1, 4, 0x00000, 0x00000, 0x00000, 0x00000⟩,
   ⟨0xC9008, 1, 4, 0x00000, 0x00000, 0x03FFB, 0x00000⟩,
   ⟨0xC900C, 1, 4, 0x00000, 0x03FFB, 0x00000, 0x00000⟩,
   ⟨0xC9010, 1, 4, 0x00000, 0x0007F, 0x00000, 0x00000⟩,
   ⟨0xC9014, 1, 4, 0x00000, 0xFFFFF, 0x00000, 0x00000⟩,
   ⟨0xC9018, 1, 4, 0x00000, 0xF803F, 0x00000, 0x00000⟩,
   ⟨0xC901C, 1, 4, 0x00000, 0xFFFFF, 0x00000, 0x00000⟩,
   ⟨0xC9020, 1, 4, 0x24000, 0xFFFFF, 0x00000, 0x00000⟩,
   ⟨0xC9024, 1, 4, 0x004CD, 0xFFFFF, 0x00000, 0x00000⟩,
   ⟨0xC9028, 1, 4, 0x00000, 0x00000, 0x00000, 0x00000⟩,
   ⟨0xC9030, 1, 4, 0x00180, 0x4039F, 0x00000, 0x00000⟩,
   ⟨0xC9034, 1, 4, 0x00180, 0x4039F, 0x00000, 0x00000⟩,
   ⟨0xC9038, 1, 4, 0x00000, 0x00000, 0x00000, 0x00000⟩,
   ⟨0xC903C, 1, 4, 0x00000, 0x00000, 0x00000, 0x00000⟩,
   ⟨0xC9040, 1, 4, 0x00000, 0xFFFFF, 0x00000, 0x00000⟩,
   ⟨0xC9044, 1, 4, 0x00000, 0xFFFFF, 0x00000, 0x00000⟩,
   ⟨0xC9050, 1, 4, 0x00000, 0x0001F, 0x00000, 0x00000⟩,
   ⟨0xC9054, 1, 4, 0x0018A, 0x0039F, 0x00000, 0x00000⟩,
   ⟨0xC9058, 1, 4, 0x00000, 0x00000, 0x00000, 0x00000⟩,
   ⟨0xC905C, 1, 4, 0x00000, 0x00000, 0x00000, 0x00000⟩,
   ⟨0xC9060, 1, 4, 0x00000, 0x00077, 0x00000, 0x00000⟩,
   ⟨0xC9080, 8, 8, 0x00000, 0x87FFF, 0x00000, 0x00000⟩,
   ⟨0xC9084, 8, 8, 0x00000, 0xFFFFF, 0x00000, 0x00000⟩,
   ⟨0xC90C0, 8, 8, 0x00000, 0x87FFF, 0x00000, 0x00000⟩,
   ⟨0xC90C4, 8, 8, 0x00000, 0xFFFFF, 0x00000, 0x00000⟩,
   ⟨0xC9100, 8, 4, 0x00000, 0xBFFFF, 0x00000, 0x00000⟩,
   ⟨0xC9140, 32, 4, 0x00000, 0xFFFFF, 0x00000, 0x00000⟩]

def regRowsCA : List RegRow :=
  [⟨0xCA000, 1, 4, 0x00000, 0x00003, 0x00000, 0x00000⟩,
   ⟨0xCA004, 1, 4, 0x64440, 0xFFFFF, 0x00000, 0x00000⟩,
   ⟨0xCA008, 1, 4, 0x00060, 0x003FF, 0x00000, 0x00000⟩,
   ⟨0xCA00C, 1, 4, 0x00000, 0x00000, 0x00000, 0x00000⟩,
   ⟨0xCA010, 1, 4, 0x00000, 0x00000, 0x000FF, 0x00000⟩,
   ⟨0xCA014, 1, 4, 0x00000, 0x000FF, 0x00000, 0x00000⟩,
   ⟨0xCA018, 1, 4, 0x00000, 0x00000, 0x00000, 0x00000⟩,
   ⟨0xCA01C, 1, 4, 0x00180, 0x003FF, 0x00000, 0x00000⟩,
   ⟨0xCA020, 2, 16, 0x00000, 0x07FFF, 0x00000, 0x00000⟩,
   ⟨0xCA024, 2, 16, 0x00000, 0xFFFFF, 0x00000, 0x00000⟩,
   ⟨0xCA028, 2, 16, 0x00000, 0xFFFFF, 0x00000, 0x00000⟩,
   ⟨0xCA02C, 2, 16, 0x00000, 0x00000, 0x00000, 0x00000⟩,
   ⟨0xCA040, 16, 4, 0x00000, 0x3FFFF, 0x00000, 0x00000⟩,
   ⟨0xCA080, 3, 4, 0x00000, 0x00000, 0x00000, 0x00000⟩,
   ⟨0xCA090, 3, 4, 0x00000, 0x00000, 0x00000, 0x00000⟩,
   ⟨0xCA0A0, 3, 4, 0x00000, 0xFFFFF, 0x00000, 0x00000⟩]

def regRowsCB : List RegRow :=
  [⟨0xCB000, 48, 64, 0x102AB, 0xFFFFF, 0x00000, 0x00000⟩,
   ⟨0xCB004, 48, 64, 0x2D4B7, 0xFFFFF, 0x00000, 0x00000⟩,
   ⟨0xCB008, 48, 64, 0x609E3, 0xFFFFF, 0x00000, 0x00000⟩,
   ⟨0xCB00C, 48, 64, 0x00000, 0x00000, 0x00000, 0x00000⟩,
   ⟨0xCB010, 48, 64, 0x00000, 0x00000, 0x00000, 0x00000⟩,
   ⟨0xCB014, 48, 64, 0x00000, 0x00000, 0x00000, 0x00000⟩,
   ⟨0xCB018, 48, 64, 0x00000, 0x00000, 0x00000, 0x00000⟩,
   ⟨0xCB01C, 48, 64, 0x00000, 0x00000, 0x00000, 0x00000⟩,
   ⟨0xCB020, 48, 64, 0x00000, 0x00000, 0x00000, 0x00000⟩,
   ⟨0xCB024, 48, 64, 0x00800, 0x00000, 0x00000, 0x00000⟩,
   ⟨0xCB028, 48, 64, 0x00000, 0xFFFFF, 0x00000, 0x00000⟩,
   ⟨0xCB02C, 48, 64, 0x00000, 0xFFFFF, 0x00000, 0x00000⟩,
   ⟨0xCB030, 48, 64, 0x00000, 0xFFFFF, 0x00000, 0x00000⟩,
   ⟨0xCB034, 48, 64, 0x00000, 0xFFFFF, 0x00000, 0x00000⟩]

def regRowsCC : List RegRow :=
  [⟨0xCC000, 1, 4, 0x0000C, 0x0003F, 0x00000, 0x00000⟩,
   ⟨0xCC004, 1, 4, 0x0C350, 0xFFFFF, 0x00000, 0x00000⟩,
   ⟨0xCC008, 1, 4, 0x00000, 0x00000, 0x00000, 0x00000⟩,
   ⟨0xCC00C, 1, 4, 0x00000, 0x00000, 0x00000, 0x00000⟩,
   ⟨0xCC010, 1, 4, 0x00000, 0x00000, 0x0007F, 0x00000⟩,
   ⟨0xCC014, 1, 4, 0x00000, 0x0007F, 0x00000, 0x00000⟩,
   ⟨0xCC018, 1, 4, 0x00000, 0xFFFFF, 0x00000, 0x00000⟩,
   ⟨0xCC01C, 1, 4, 0x00000, 0xFFFFF, 0x00000, 0x00000⟩,
   ⟨0xCC020, 1, 4, 0x2D4B7, 0xFFFFF, 0x00000, 0x00000⟩,
   ⟨0xCC024, 1, 4, 0x209E3, 0x3FFFF, 0x00000, 0x00000⟩,
   ⟨0xCC02C, 1, 4, 0x00000, 0x00000, 0x00000, 0x00000⟩,
   ⟨0xCC100, 16, 16, 0x00000, 0xBFFE0, 0x00000, 0x00000⟩,
   ⟨0xCC104, 16, 16, 0x00000, 0xFFFFF, 0x00000, 0x00000⟩,
   ⟨0xCC108, 16, 16, 0x00000, 0x007FF, 0x00000, 0x00000⟩,
   ⟨0xCC10C, 16, 16, 0x00020, 0xFFFFF, 0x00000, 0x00000⟩]

def regRowsCD : List RegRow :=
  [⟨0xCD000, 1, 4, 0x00000, 0x00005, 0x00000, 0x00000⟩,
   ⟨0xCD004, 1, 4, 0x5DC00, 0xFFFFF, 0x00000, 0x00000⟩,
   ⟨0xCD008, 1, 4, 0x00000, 0x00000, 0x00000, 0x00000⟩,
   ⟨0xCD00C, 1, 4, 0x00000, 0x00000, 0x00000, 0x00000⟩,
   ⟨0xCD010, 1, 4, 0x00000, 0x00000, 0x00000, 0x00000⟩,
   ⟨0xCD014, 1, 4, 0x00000, 0x00000, 0x00000, 0x00000⟩,
   ⟨0xCD018, 1, 4, 0x00000, 0xFFFFF, 0x00000, 0x00000⟩,
   ⟨0xCD01C, 1, 4, 0x00000, 0xFFFFF, 0x00000, 0x00000⟩,
   ⟨0xCD020, 1, 4, 0x00000, 0xFFFFF, 0x00000, 0x00000⟩,
   ⟨0xCD024, 1, 4, 0x00000, 0xFFFFF, 0x00000, 0x00000⟩,
   ⟨0xCD028, 1, 4, 0x17700, 0xFFFFF, 0x00000, 0x00000⟩,
   ⟨0xCD02C, 1, 4, 0x00001, 0x0007F, 0x00000, 0x00000⟩,
   ⟨0xCD030, 1, 4, 0x00000, 0x3FF3F, 0x00000, 0x00000⟩,
   ⟨0xCD034, 1, 4, 0x00000, 0x00000, 0x00000, 0x00000⟩,
   ⟨0xCD038, 1, 4, 0x00000, 0x00000, 0x00000, 0x00000⟩,
   ⟨0xCD03C, 1, 4, 0x00001, 0xFFFFF, 0x00000, 0x00000⟩,
   ⟨0xCD040, 1, 4, 0x00000, 0x00000, 0x00000, 0x00000⟩,
   ⟨0xCD044, 1, 4, 0x00000, 0x00000, 0x003FF, 0x00000⟩,
   ⟨0xCD048, 1, 4, 0x00000, 0x003FF, 0x00000, 0x00000⟩,
   ⟨0xCD080, 22, 4, 0x00000, 0x3FFFF, 0x00000, 0x00000⟩,
   ⟨0xCD100, 1, 4, 0x00000, 0xFFFFF, 0x00000, 0x00000⟩,
   ⟨0xCD104, 1, 4, 0x00000, 0xFC7FF, 0x00000, 0x00000⟩,
   ⟨0xCD108, 1, 4, 0x700C0, 0xFFFFF, 0x00000, 0x00000⟩,
   ⟨0xCD10C, 1, 4, 0x64001, 0xFFFFF, 0x00000, 0x00000⟩,
   ⟨0xCD110, 1, 4, 0x00190, 0x003FF, 0x00000, 0x00000⟩,
   ⟨0xCD114, 1, 4, 0x00780, 0xFFFFF, 0x00000, 0x00000⟩,
   ⟨0xCD118, 1, 4, 0x00000, 0x00000, 0x00000, 0x00000⟩,
   ⟨0xCD11C, 1, 4, 0x00000, 0x00000, 0x00000, 0x00000⟩,
   ⟨0xCD120, 1, 4, 0x00000, 0xFFFFF, 0x00000, 0x00000⟩,
   ⟨0xCD124, 1, 4, 0x00000, 0x00FFF, 0x00000, 0x00000⟩,
   ⟨0xCD128, 1, 4, 0x00000, 0xFFFFF, 0x00000, 0x00000⟩,
   ⟨0xCD12C, 1, 4, 0x00000, 0xFFFFF, 0x00000, 0x00000⟩,
   ⟨0xCD130, 1, 4, 0x00000, 0xFFFFF, 0x00000, 0x00000⟩,
   ⟨0xCD134, 1, 4, 0x00000, 0xFFFFF, 0x00000, 0x00000⟩,
   ⟨0xCD138, 1, 4, 0x00000, 0xFFFFF, 0x00000, 0x00000⟩,
   ⟨0xCD13C, 1, 4, 0x00000, 0xFFFFF, 0x00000, 0x00000⟩,
   ⟨0xCD140, 1, 4, 0x00000, 0x00000, 0x00000, 0x00000⟩,
   ⟨0xCD144, 1, 4, 0x00000, 0x00000, 0x00000, 0x00000⟩,
   ⟨0xCD148, 1, 4, 0x00000, 0xFFFFF, 0x00000, 0x00000⟩,
   ⟨0xCD14C, 1, 4, 0x00000, 0xFFFFF, 0x00000, 0x00000⟩,
   ⟨0xCD180, 3, 4, 0x00000, 0xFFFFF, 0x00000, 0x00000⟩,
   ⟨0xCD18C, 1, 4, 0x00000, 0xFFFFF, 0x00000, 0x00000⟩,
   ⟨0xCD190, 4, 16, 0x00000, 0x00000, 0x80000, 0x00000⟩,
   ⟨0xCD194, 4, 16, 0x00000, 0x00000, 0x00000, 0x00000⟩,
   ⟨0xCD198, 4, 16, 0x00000, 0x00000, 0x00000, 0x00000⟩,
   ⟨0xCD19C, 4, 16, 0x00000, 0x00000, 0x00000, 0x00000⟩,
   ⟨0xCD1E0, 16, 4, 0x00000, 0xFFFFF, 0x00000, 0x00000⟩,
   ⟨0xCD240, 1, 4, 0x00000, 0xFFFFF, 0x00000, 0x00000⟩,
   ⟨0xCD244, 1, 4, 0x00000, 0x00FFF, 0x00000, 0x00000⟩,
   ⟨0xCD248, 1, 4, 0x00000, 0x0FFFF, 0x00000, 0x00000⟩,
   ⟨0xCD24C, 1, 4, 0x00000, 0xF0000, 0x00000, 0x00000⟩,
   ⟨0xCD250, 1, 4, 0x00000, 0x00000, 0x007FF, 0x00000⟩,
   ⟨0xCD254, 1, 4, 0x00000, 0x007FF, 0x00000, 0x00000⟩,
   ⟨0xCD258, 8, 4, 0x00000, 0xFFFFF, 0x00000, 0x00000⟩,
   ⟨0xCD280, 64, 4, 0x00000, 0x8003F, 0x00000, 0x00000⟩,
   ⟨0xCD380, 1, 4, 0x00000, 0xFFFFF, 0x00000, 0x00000⟩,
   ⟨0xCD384, 1, 4, 0x00000, 0xA001F, 0x00000, 0x00000⟩,
   ⟨0xCD388, 1, 4, 0x00000, 0xFFFFF, 0x00000, 0x00000⟩,
   ⟨0xCD38C, 1, 4, 0x00000, 0xFFFFF, 0x00000, 0x00000⟩,
   ⟨0xCD390, 1, 4, 0x3EC00, 0xFFC0F, 0x00000, 0x00000⟩,
   ⟨0xCD394, 1, 4, 0x00000, 0x0003F, 0x00000, 0x00000⟩,
   ⟨0xCD398, 1, 4, 0x00000, 0xFFFFF, 0x00000, 0x00000⟩,
   ⟨0xCD39C, 1, 4, 0x00000, 0xFFFFF, 0x00000, 0x00000⟩,
   ⟨0xCD3A0, 1, 4, 0x00000, 0x003FF, 0x00000, 0x00000⟩,
   ⟨0xCD3A4, 1, 4, 0x00000, 0x00000, 0x00000, 0x00000⟩,
   ⟨0xCD3B0, 1, 4, 0x07800, 0xFFFFF, 0x00000, 0x00000⟩,
   ⟨0xCD3B4, 1, 4, 0x00040, 0x0007F, 0x00000, 0x00000⟩,
   ⟨0xCD3B8, 1, 4, 0x00000, 0xFFFFF, 0x00000, 0x00000⟩,
   ⟨0xCD3BC, 1, 4, 0x5DC00, 0xFFFFF, 0x00000, 0x00000⟩,
   ⟨0xCD3C0, 1, 4, 0x00000, 0x00000, 0x00000, 0x00000⟩,
   ⟨0xCD3C4, 1, 4, 0x00000, 0x00001, 0x00000, 0x00000⟩,
   ⟨0xCD3C8, 1, 4, 0x00000, 0x00000, 0x00000, 0x00000⟩,
   ⟨0xCD3CC, 1, 4, 0x00020, 0x0003F, 0x00000, 0x00000⟩]

def regRowsCE : List RegRow :=
  [⟨0xCE000, 1, 4, 0x00000, 0x000FF, 0x00000, 0x00000⟩,
   ⟨0xCE004, 1, 4, 0x83F00, 0x00000, 0x00000, 0x00000⟩,
   ⟨0xCE008, 1, 4, 0x00000, 0x00000, 0x0FFFF, 0x00000⟩,
   ⟨0xCE00C, 1, 4, 0x00000, 0x0FFFF, 0x00000, 0x00000⟩,
   ⟨0xCE010, 1, 4, 0x5DC00, 0xFFFFF, 0x00000, 0x00000⟩,
   ⟨0xCE014, 1, 4, 0x00000, 0x0FFFF, 0x00000, 0x00000⟩,
   ⟨0xCE018, 1, 4, 0x00001, 0xFFFFF, 0x00000, 0x00000⟩,
   ⟨0xCE01C, 1, 4, 0x40002, 0xFF00F, 0x00000, 0x00000⟩,
   ⟨0xCE020, 1, 4, 0xFFFFF, 0x00000, 0x00000, 0x00000⟩,
   ⟨0xCE024, 1, 4, 0xFFFFF, 0x00000, 0x00000, 0x00000⟩,
   ⟨0xCE028, 1, 4, 0x00000, 0x00000, 0x00000, 0x00000⟩,
   ⟨0xCE02C, 1, 4, 0x00000, 0x00000, 0x00000, 0x00000⟩,
   ⟨0xCE030, 1, 4, 0x00000, 0x00000, 0x00000, 0x00000⟩,
   ⟨0xCE034, 1, 4, 0x00001, 0x0000F, 0x00000, 0x00000⟩,
   ⟨0xCE038, 3, 4, 0x00000, 0xFFFFF, 0x00000, 0x00000⟩,
   ⟨0xCE044, 1, 4, 0x00000, 0xFFFFF, 0x00000, 0x00000⟩,
   ⟨0xCE048, 1, 4, 0x00000, 0x003FF, 0x00000, 0x00000⟩,
   ⟨0xCE04C, 1, 4, 0x00000, 0x00000, 0x00000, 0x00000⟩,
   ⟨0xCE100, 32, 16, 0x00000, 0xFFFFF, 0x00000, 0x00000⟩,
   ⟨0xCE104, 32, 16, 0x00000, 0xFFFFF, 0x00000, 0x00000⟩,
   ⟨0xCE108, 32, 16, 0x00000, 0xFF800, 0x00000, 0x00000⟩,
   ⟨0xCE300, 8, 16, 0x00000, 0xB00FF, 0x00000, 0x00000⟩,
   ⟨0xCE304, 8, 16, 0x00000, 0xFFFFF, 0x00000, 0x00000⟩,
   ⟨0xCE308, 8, 16, 0x00000, 0x007FF, 0x00000, 0x00000⟩]

def regRowsCF : List RegRow :=
  [⟨0xCF000, 1, 4, 0x00000, 0x0000F, 0x00000, 0x00000⟩,
   ⟨0xCF004, 1, 4, 0x00003, 0x000FB, 0x00000, 0x00000⟩,
   ⟨0xCF008, 1, 4, 0x60000, 0xF01FF, 0x00000, 0x00000⟩,
   ⟨0xCF00C, 3, 4, 0x00000, 0xFFFFF, 0x00000, 0x00000⟩,
   ⟨0xCF018, 1, 4, 0x00000, 0x00000, 0x00000, 0x00000⟩,
   ⟨0xCF01C, 1, 4, 0x00000, 0x00000, 0x001FF, 0x00000⟩,
   ⟨0xCF024, 1, 4, 0x000C8, 0xFFFFF, 0x00000, 0x00000⟩,
   ⟨0xCF028, 1, 4, 0x00FA0, 0xFFFFF, 0x00000, 0x00000⟩,
   ⟨0xCF02C, 1, 4, 0x01464, 0x07FFF, 0x00000, 0x00000⟩,
   ⟨0xCF030, 1, 4, 0x00000, 0x00000, 0x00000, 0x00000⟩,
   ⟨0xCF034, 1, 4, 0x00000, 0x00000, 0x00000, 0x00000⟩,
   ⟨0xCF038, 1, 4, 0x00000, 0xFFFFF, 0x00000, 0x00000⟩,
   ⟨0xCF03C, 1, 4, 0x00000, 0xFFFFF, 0x00000, 0x00000⟩,
   ⟨0xCF040, 1, 4, 0x00000, 0x1FFFF, 0x00000, 0x00000⟩,
   ⟨0xCF044, 1, 4, 0x00000, 0x7C000, 0x00000, 0x00000⟩]

def regRowsD0 : List RegRow :=
  [⟨0xD0000, 4, 8, 0x00000, 0xF8007, 0x00000, 0x00000⟩,
   ⟨0xD0004, 4, 8, 0x00000, 0xFFFFF, 0x00000, 0x00000⟩,
   ⟨0xD0040, 1, 4, 0x00000, 0x00000, 0x00000, 0x00000⟩,
   ⟨0xD0044, 1, 4, 0x00000, 0xFFEFF, 0x00000, 0x00000⟩,
   ⟨0xD0048, 1, 4, 0x00000, 0xFFFFF, 0x00000, 0x00000⟩,
   ⟨0xD004C, 1, 4, 0x00000, 0xFFFFF, 0x00000, 0x00000⟩,
   ⟨0xD0050, 1, 4, 0x00000, 0x00000, 0x00006, 0x00000⟩]

def regRowsD1 : List RegRow :=
  [⟨0xD1000, 1, 4, 0x00000, 0xFFFFF, 0x00000, 0x00000⟩,
   ⟨0xD1004, 1, 4, 0x00000, 0x007FF, 0x00000, 0x00000⟩,
   ⟨0xD1008, 1, 4, 0x00000, 0x00000, 0x8FFFF, 0x00000⟩,
   ⟨0xD100C, 1, 4, 0x00000, 0xFFFFF, 0x00000, 0x00000⟩,
   ⟨0xD1010, 1, 4, 0x00000, 0x00000, 0x00000, 0x00000⟩,
   ⟨0xD1014, 1, 4, 0x00000, 0x00000, 0x00000, 0x0FFFF⟩,
   ⟨0xD1018, 1, 4, 0x00000, 0x00000, 0x00000, 0x00000⟩,
   ⟨0xD1100, 1, 4, 0x00000, 0x000FF, 0x00000, 0x00000⟩,
   ⟨0xD1104, 1, 4, 0x00001, 0x00000, 0x0001E, 0x00000⟩,
   ⟨0xD1108, 1, 4, 0x00000, 0x3FFFF, 0x00000, 0x00000⟩,
   ⟨0xD110C, 1, 4, 0x00535, 0x0FFFF, 0x00000, 0x00000⟩,
   ⟨0xD1200, 2, 4, 0x00000, 0x00000, 0x00000, 0x00000⟩,
   ⟨0xD1208, 2, 4, 0x00000, 0x0FFFF, 0x00000, 0x00000⟩,
   ⟨0xD1210, 2, 4, 0x00000, 0x00000, 0x00000, 0x00000⟩,
   ⟨0xD1218, 2, 4, 0x00000, 0x00000, 0x00000, 0x00000⟩,
   ⟨0xD1240, 24, 4, 0x00000, 0xFFFC0, 0x00000, 0x00000⟩]

def regRowsD2 : List RegRow :=
  [⟨0xD2000, 4, 256, 0x00000, 0x00001, 0x00000, 0x00000⟩,
   ⟨0xD2004, 4, 256, 0x0C000, 0x0FFFF, 0x00000, 0x00000⟩,
   ⟨0xD2008, 4, 256, 0x00000, 0x00000, 0x00001, 0x00000⟩,
   ⟨0xD200C, 4, 256, 0x00000, 0xFFFFF, 0x00000, 0x00000⟩,
   ⟨0xD2010, 4, 256, 0x00000, 0x001FE, 0x00000, 0x00000⟩,
   ⟨0xD2014, 4, 256, 0x00000, 0x83FFF, 0x00000, 0x00000⟩,
   ⟨0xD2018, 4, 256, 0x00000, 0xFFFFF, 0x00000, 0x00000⟩,
   ⟨0xD201C, 4, 256, 0x00000, 0x00000, 0x00000, 0x00000⟩,
   ⟨0xD2040, 16, 4, 0x00000, 0x00000, 0x00000, 0x00000⟩,
   ⟨0xD2140, 16, 4, 0x00000, 0x00000, 0x00000, 0x00000⟩,
   ⟨0xD2240, 16, 4, 0x00000, 0x00000, 0x00000, 0x00000⟩,
   ⟨0xD2340, 16, 4, 0x00000, 0x00000, 0x00000, 0x00000⟩]

def regRowsD3 : List RegRow :=
  [⟨0xD3000, 1, 4, 0x00000, 0x000FF, 0x00000, 0x00000⟩,
   ⟨0xD3004, 1, 4, 0x00000, 0xFFFFF, 0x00000, 0x00000⟩,
   ⟨0xD3008, 1, 4, 0x00000, 0xFFFFF, 0x00000, 0x00000⟩,
   ⟨0xD300C, 1, 4, 0x00000, 0x00000, 0x00000, 0x00000⟩,
   ⟨0xD3010, 1, 4, 0x00000, 0x00000, 0x00003, 0x00000⟩,
   ⟨0xD3014, 1, 4, 0x00000, 0x00003, 0x00000, 0x00000⟩,
   ⟨0xD3018, 1, 4, 0x00000, 0x00000, 0x00000, 0x00000⟩,
   ⟨0xD301C, 1, 4, 0x00000, 0x00000, 0x00000, 0x00000⟩,
   ⟨0xD3020, 1, 4, 0x00000, 0x00000, 0x00000, 0x00000⟩,
   ⟨0xD3024, 1, 4, 0x00000, 0x00000, 0x00000, 0x00000⟩,
   ⟨0xD3028, 1, 4, 0x00000, 0x00000, 0x00000, 0x00000⟩,
   ⟨0xD302C, 1, 4, 0x00000, 0x00000, 0x00000, 0x00000⟩,
   ⟨0xD3030, 1, 4, 0x00000, 0x00000, 0x00000, 0x00000⟩,
   ⟨0xD3034, 1, 4, 0x00000, 0x00000, 0x00000, 0x00000⟩,
   ⟨0xD3038, 1, 4, 0x01388, 0xFFFFF, 0x00000, 0x00000⟩,
   ⟨0xD303C, 1, 4, 0x00000, 0x00000, 0x00000, 0x00000⟩,
   ⟨0xD3100, 1, 4, 0x00000, 0x00000, 0x00000, 0x00000⟩,
   ⟨0xD3104, 1, 4, 0x00000, 0xFFFFF, 0x00000, 0x00000⟩,
   ⟨0xD3108, 1, 4, 0x00000, 0x03F3F, 0x00000, 0x00000⟩,
   ⟨0xD310C, 1, 4, 0x00000, 0x00000, 0x00000, 0x00000⟩,
   ⟨0xD3110, 1, 4, 0x00000, 0x00000, 0x0001F, 0x00000⟩,
   ⟨0xD3114, 1, 4, 0x00000, 0x00000, 0x00000, 0x00000⟩,
   ⟨0xD3118, 1, 4, 0x00000, 0x00000, 0x00000, 0x00000⟩,
   ⟨0xD311C, 1, 4, 0x07FFF, 0x00000, 0x00000, 0x00000⟩,
   ⟨0xD3120, 4, 4, 0x00000, 0xFFFFF, 0x00000, 0x00000⟩,
   ⟨0xD3140, 5, 16, 0x00000, 0x00000, 0x00000, 0x00000⟩,
   ⟨0xD3144, 5, 16, 0x00000, 0x00000, 0x00000, 0x00000⟩,
   ⟨0xD3148, 5, 16, 0x00000, 0x00000, 0x00000, 0x00000⟩,
   ⟨0xD314C, 5, 16, 0x00000, 0x00000, 0x00000, 0x00000⟩]

/-- The rows of the block that address `a` lies in (R13). -/
def regRows (a : Nat) : List RegRow :=
  match a / 0x1000 with
  | 0xC0 => regRowsC0
  | 0xC1 => regRowsC1
  | 0xC2 => regRowsC2
  | 0xC3 => regRowsC3
  | 0xC4 => regRowsC4
  | 0xC5 => regRowsC5
  | 0xC6 => regRowsC6
  | 0xC7 => regRowsC7
  | 0xC8 => regRowsC8
  | 0xC9 => regRowsC9
  | 0xCA => regRowsCA
  | 0xCB => regRowsCB
  | 0xCC => regRowsCC
  | 0xCD => regRowsCD
  | 0xCE => regRowsCE
  | 0xCF => regRowsCF
  | 0xD0 => regRowsD0
  | 0xD1 => regRowsD1
  | 0xD2 => regRowsD2
  | 0xD3 => regRowsD3
  | _ => []

/-- The row that lists register address `a`, or none where the block's map lists no register there (R122). -/
def regRow (a : Nat) : Option RegRow :=
  (regRows a).find? (fun r => r.base ≤ a && a < r.base + r.n * r.stride && (a - r.base) % r.stride = 0)

/-- Whether a map lists a register at `a`. -/
def regListed (a : Nat) : Bool := (regRow a).isSome

/-- L0-L55 as wired (R356): (producer, consumer). -/
def latWired (k : Nat) : Nat × Nat :=
  if k < 8 then (0x30 + 8 * (k / 2) + k % 2, 0x80 + k)
  else if k < 16 then (k, 0xA8 + (k - 8))
  else if k < 28 then (0x30 + 8 * ((k - 16) / 3) + 2 + (k - 16) % 3, 0x98 + (k - 16))
  else if k < 36 then (0x18 + (k - 28), 32 * ((k - 28) / 2) + 24 + (k - 28) % 2)
  else if k < 40 then (0x90, 32 * (k - 36) + 16)
  else if k < 44 then (0x2A, 32 * (k - 40) + 17)
  else if k < 48 then (0x50 + 3 * (k - 44), 32 * (k - 44) + 18)
  else if k < 51 then (0x2B + (k - 48), 96 + 19 + (k - 48))
  else if k = 51 then (0x28, 96 + 22)
  else if k = 52 then (0x96, 19)
  else if k = 53 then (0x94, 20)
  else if k = 54 then (0xCD, 21)
  else if k = 55 then (0x29, 22)
  else (0xFF, 0xFF)

/-- The reset value of the register at `a`: its Reset column (R6). The identity words read as OTP holds them (R441;
notes/assumptions/5.md); a register whose Reset column names supplies, a journal or flash contents has 0 until they
are read. -/
def regReset (a : Nat) : W20 :=
  if 0xC3000 ≤ a ∧ a < 0xC3100 then
    let p := latWired ((a - 0xC3000) / 4)
    BitVec.ofNat 20 (if a % 4 = 0 then p.1 * 256 + p.2 else 0)
  else if 0xC3240 ≤ a ∧ a < 0xC3280 then BitVec.ofNat 20 (if a % 4 = 0 then (a - 0xC3240) / 4 else 0)
  else if 0xC6100 ≤ a ∧ a < 0xC6300 ∧ a % 32 = 0x18 then if a < 0xC6280 then 0x02710 else 0x000C8
  else if 0xC6100 ≤ a ∧ a < 0xC6300 ∧ a % 32 = 0x1C then if a < 0xC6280 then 0x00010 else 0x00040
  else if 0xCA040 ≤ a ∧ a < 0xCA080 ∧ a % 4 = 0 then
    let k := (a - 0xCA040) / 4
    BitVec.ofNat 20 ((3 * k + 2) * 4096 + (3 * k + 1) * 64 + 3 * k)
  else if a = SYS_ID 3 then 0x00011
  else if a = SYS_ID 5 then 0x00E85
  else match regRow a with
    | some r => BitVec.ofNat 20 r.reset
    | none => 0

/-! ## Fields of a word -/

/-- The value of bits `hi` to `lo` of a word. -/
def fieldGet (w : W20) (hi lo : Nat) : Nat := (w.toNat >>> lo) % 2 ^ (hi + 1 - lo)

/-- A word with bits `hi` to `lo` replaced by `x`. -/
def fieldSet (w : W20) (hi lo x : Nat) : W20 :=
  let m : W20 := BitVec.ofNat 20 ((2 ^ (hi + 1 - lo) - 1) <<< lo)
  (w &&& ~~~m) ||| (BitVec.ofNat 20 (x <<< lo) &&& m)

/-- The effect of a word write on a register's stored bits, by its access codes (R4, R5). -/
def regMerge (r : RegRow) (old v : W20) : W20 :=
  let rw := BitVec.ofNat 20 r.rw
  let w1c := BitVec.ofNat 20 r.w1c
  let w1s := BitVec.ofNat 20 r.w1s
  (((old &&& ~~~rw) ||| (v &&& rw)) &&& ~~~(v &&& w1c)) ||| (v &&& w1s)

end Sys2Proof.Machine
end

