-- ==== Sys2Proof/Machine/Tab.lean ====
section
/-! DEFINITION. Sparse tables in one canonical form: a list of (key, value) pairs with strictly rising keys and no
entry equal to what an unlisted key reads as.  Every sparse part of the state (registers, memory, lofts, check states)
is one of these. -/

namespace Sys2Proof.Machine

/-- A sparse table. -/
abbrev Tab (α : Type) := List (Nat × α)

/-- The entry of key `k`, if the table lists one. -/
def tabFind {α : Type} : Tab α → Nat → Option α
  | [], _ => none
  | (j, v) :: r, k => if j = k then some v else tabFind r k

/-- The table with `(k, v)` listed in key order. -/
def tabInsert {α : Type} : Tab α → Nat → α → Tab α
  | [], k, v => [(k, v)]
  | (j, u) :: r, k, v =>
    if k < j then (k, v) :: (j, u) :: r
    else if j = k then (k, v) :: r
    else (j, u) :: tabInsert r k v

/-- The table with no entry for `k`. -/
def tabErase {α : Type} (t : Tab α) (k : Nat) : Tab α := t.filter (fun e => e.1 ≠ k)

/-- What key `k` reads as: its entry, or the value `d` gives an unlisted key. -/
def tabGet {α : Type} (d : Nat → α) (t : Tab α) (k : Nat) : α := (tabFind t k).getD (d k)

/-- The table in which `k` reads as `v`: the entry goes when `v` is what an unlisted `k` reads as. -/
def tabSet {α : Type} [DecidableEq α] (d : Nat → α) (t : Tab α) (k : Nat) (v : α) : Tab α :=
  if v = d k then tabErase t k else tabInsert t k v

/-- The table in which the `n` keys from `lo` read as `f` says. -/
def tabFill {α : Type} [DecidableEq α] (d : Nat → α) (t : Tab α) (lo n : Nat) (f : Nat → α) : Tab α :=
  t.filter (fun e => e.1 < lo) ++
    (((List.range n).map (fun i => (lo + i, f i))).filter (fun e => e.2 ≠ d e.1) ++ t.filter (fun e => lo + n ≤ e.1))

/-- The canonical form: keys strictly rising, no entry equal to its unlisted value. -/
abbrev tabWf {α : Type} [DecidableEq α] (d : Nat → α) (t : Tab α) : Prop :=
  t.Pairwise (fun x y => x.1 < y.1) ∧ ∀ e ∈ t, e.2 ≠ d e.1

end Sys2Proof.Machine
end

