-- ==== Sys2Proof/Machine/State.lean ====
section
/-! DEFINITION. The machine's state as plain data: everything the spec gives the block, and the queue of the commands
that wait.  The software-visible register bits live in `regs`, one word per register at its core address; what the
registers do not show lives in one structure per block.  `State.reset` is the machine right after a cold reset whose
backup domain started from no supply (R6, R388, R435; notes/assumptions/5.md). -/

namespace Sys2Proof.Machine

/-! ## Cores (spec/03, spec/04) -/

/-- The statuses of an action-table entry (R90), in code order. -/
inductive ActStatus
  | empty | armed | reserving | reserved | fired | firedPassed | noRations | clash
deriving DecidableEq, Repr

/-- An action-table entry (R86, R90): kind, parameter, fire tick, reservation at 3.0 V, status, and whether its time
was already reached when it was armed or was passed by a forward step (R86, R10). -/
structure ActEntry where
  kind   : BitVec 4
  param  : BitVec 16
  fire   : W40
  resv   : BitVec 10
  status : ActStatus
  passed : Bool
deriving DecidableEq, Repr

/-- What a core is doing (CC_STATUS.STATE, R85, R95, R96, R105, R110, R517).  `starting` waits for its charge and
reads as stopped. -/
inductive CoreRun
  | stopped | starting | running | halted
  | inWat (t : W40)
  | inWev (high : Bool) (mask : BitVec 16) (start : Nat) (timeout : W20) (d : RegId)
  | inTake (holder : Nat) (start : Nat) (timeout : W20) (d : RegId)
  | doubleExc
deriving DecidableEq, Repr

/-- A store waiting in a core's store buffer (R98): address, bytes in address order, whether it is a word store of
`stw` or `stwl` (R122), and the mode it was made in. -/
structure Store where
  addr  : W20
  bytes : List Byte
  word  : Bool
  priv  : Bool
deriving DecidableEq, Repr

/-- One Balrath core: general registers, pc and status word; entry banks 0-3 and X (index 4) of EPC and ESW; the
exception registers; event lines; the store buffer; the action table; whether the core has yet to start since its
reset, and since a reset of the device (CC_PC then reads 0, R113); a core reset that waits (CC_RUN); and the tick in
which RUN := 0 stopped the core, while its charge has still to return (R517). -/
structure CoreSt where
  w      : Vector W20 16
  pc     : BitVec 16
  sw     : W20
  run    : CoreRun
  act    : BitVec 5
  epc    : Vector W20 5
  esw    : Vector W20 5
  ecause : W20
  eaddr  : W20
  pend   : BitVec 32
  ien    : BitVec 32
  ilvl   : Vector (BitVec 16) 4
  emiss  : BitVec 32
  stores : List Store
  acts   : Vector ActEntry 16
  fresh  : Bool
  cold   : Bool
  creset : Bool
  stopAt : Option Nat
deriving DecidableEq, Repr

/-! ## The manger (spec/02) -/

/-- Why a ration request waits: consumers or an external holder (one request for all named), a `take`, an
action-table reservation, or a radio swap. -/
inductive WaitKind
  | holders (hs : List Nat)
  | program (c : CoreId) (amount : Nat)
  | resv (c : CoreId) (e : Nat)
  | swap (ret : List Nat) (take : List Nat)
deriving DecidableEq, Repr

/-- A waiting request (R36): its account number for ties, patience class, the tick it arrived, whether it is urgent,
and what it asks for. -/
structure Wait where
  id     : Nat
  cls    : Nat
  since  : Nat
  urgent : Bool
  kind   : WaitKind
deriving DecidableEq, Repr

/-- A holding or reservation: account number (0-31 the holders, 32 + 16c + e the reservation of entry e of core c),
cost at 3.0 V and its number of equal parts, whether it is scaled, what it holds, and what a re-charge left short. -/
structure Acct where
  id     : Nat
  base   : Nat
  parts  : Nat
  scaled : Bool
  held   : Nat
  short  : Nat
deriving DecidableEq, Repr

/-- A change that would assert a tied GPIO, held until the grant (R38). -/
inductive HeldPin
  | out (pin : Nat)
  | mode (pin : Nat) (m : Nat)
deriving DecidableEq, Repr

structure Manger where
  accts   : List Acct
  free    : Nat
  waits   : List Wait
  sampled : Bool
  up      : Vector Nat 8
  heldPin : List (Nat × HeldPin)
deriving DecidableEq, Repr

/-! ## Faults and wear (spec/19) -/

/-- A tracked row and its count of corrected errors (R466), oldest entry first in its tracker. -/
structure Track where
  row   : Nat
  count : Nat
deriving DecidableEq, Repr

/-- The fault block beyond its registers: the entries in the order of their reports, the tick of a fatal report, the
trackers, the rows that count nothing until the next cold start, slow-clock cycles of the wear window (R461-R466), the
DETAIL that each source reported last, and the tick of the last ageing measurement (R469). -/
structure Faults where
  order   : List Nat
  fatalAt : Option Nat
  trkSram : List Track
  trkLoft : List Track
  trkYard : List Track
  doneRow : List (Nat × Nat)
  slow    : Nat
  last    : Tab W20
  aged    : Nat
deriving DecidableEq, Repr

/-! ## The lattice (spec/14) -/

/-- An event inside a channel (R358): the channel, the consumer and the mode it entered under, and the bus cycle in
which it reaches the consumer. -/
structure Flight where
  ch    : Nat
  cons  : Nat
  async : Bool
  due   : Nat
deriving DecidableEq, Repr

/-- The lattice beyond its registers: the events inside channels; the number of the bus cycle and how many of the
tick's bus edges are still to come (notes/assumptions/9.md); the flip-flops and filter counts of the clocked cells;
the phase of the bus clock in the tick; of each clocked channel the cycle of its last delivery and its run of
consecutive cycles (R363); the producers that pulse in this bus cycle, and the pulses of later ones; and the consumers
that channels (`acts`) and register writes (`writes`) reached, with the cycle (R364). -/
structure Lattice where
  flights : List Flight
  cyc     : Nat
  left    : Nat
  cellQ   : BitVec 16
  filtN   : Vector Nat 16
  phase   : Nat
  storm   : Tab (Nat × Nat)
  live    : List Nat
  again   : List Nat
  acts    : List (Nat × Nat)
  writes  : List (Nat × Nat)
deriving DecidableEq, Repr

/-- The pin filters (R136): the filtered levels, and the pins whose balls have another level, each with the bus cycles
for which it has held. -/
structure PinFilter where
  lvl  : BitVec 24
  wait : List (Nat × Nat)
deriving DecidableEq, Repr

/-! ## Timers and the real-time clock (spec/15) -/

/-- What a timer's registers do not show: the active TOP and CMP, the upper-member latch, the source-clock edges since
its last step, and whether its master resets it in the next bus cycle (R375). -/
structure TimerH where
  top   : W20
  cmp   : W20
  latch : W20
  phase : Nat
  rst   : Bool
deriving DecidableEq, Repr

/-- A write or shift the RTC applies at the next slow-clock edge (R382, R383): of a write, the values staged for its
groups. -/
inductive RtcPend
  | none
  | apply (sub time date : Option W20)
  | shift (n : Int)
deriving DecidableEq, Repr

/-- The running time of day and date in the layouts of RTC_TIME and RTC_DATE, the pending write, whether each alarm
matched at the last edge, whether an alarm's firing is due (R384), and the alarm, IRQEN and backup stores still on
their way (R386). -/
structure Rtc where
  time  : W20
  date  : W20
  pend  : RtcPend
  match0 : Bool
  match1 : Bool
  due0  : Bool
  due1  : Bool
  late  : List (Nat × W20)
deriving DecidableEq, Repr

/-! ## Clocks and power (spec/16) -/

/-- Where the device stands between RUN and its sleep states (R398-R409): `leaving` is the end of an orbit pass,
before the slow-clock edge E0 of its sleep phase. -/
inductive PwrPhase
  | run
  | leaving
  | entry (edge : Nat)
  | rest | orbit | dormant
  | waking (since : Nat) (early : Bool)
  | pass
deriving DecidableEq, Repr

/-- The step an orbit pass is at: the pass's slot, whether its start has come (it is prepared before), the step, how
many steps it has executed, the tick the step began, the positions the step's stalls run on, whether the radio was
prepared, and which of tests 1 to 3 the step has hit. -/
structure OrbitRun where
  slot     : W40
  started  : Bool
  step     : Nat
  executed : Nat
  begun    : Option Nat
  stalls   : List Nat
  prepared : Bool
  heard    : List Nat
deriving DecidableEq, Repr

/-- The clocks and power states beyond their registers: the phase and the target of the last entry; whether the fast
reference carries mesh time, else its fraction (R395); the phase of the slow clock in ticks and whether the slow RC is
its source (R392); edge-type events: one taken between E0 and E1, and the causes captured for the next slow-clock edge
(R401, R402); the level of HSPI_CS_N low; an asked RETRY; the orbit pass and the slot of the last one, and whether the
present wake came from a pass (R409); VBAT below brown-out, RESET_CONFIRM's hold, the tick of the last reset; and the
learning window: the tick of its first edge, its edges since then, and the ticks counted in a complete one (R396). -/
structure Power where
  phase    : PwrPhase
  target   : Nat
  refMesh  : Bool
  frac     : BitVec 20
  slowAcc  : Nat
  captured : Bool
  retry    : Bool
  orbit    : Option OrbitRun
  lastPass : Option W40
  vbatLow  : Bool
  held     : Bool
  rstTick  : Nat
  win      : Nat
  winAt    : Option Nat
  winN     : Option Nat
  slowRc   : Bool
  wakes    : List Field
  csLow    : Bool
  fromPass : Bool
deriving DecidableEq, Repr

/-! ## Memory (spec/05) -/

/-- The check state of a 32-bit group (R115, R116). -/
inductive Chk
  | good | correctable | bad | poison
deriving DecidableEq, Repr

/-- A flash operation in progress (R126): opcode, flash offset, length, the bytes taken. -/
structure FlashOp where
  erase : Bool
  ofs   : Nat
  len   : Nat
  data  : List Byte
deriving DecidableEq, Repr

/-! ## Radio front end (spec/06) -/

/-- A transmission from its TX start (R146-R148): frame-unit slot, channel, start tick, the tick the hold began, the
tick the driver ramp started, and the levels that the amplifier's pins had before it (R157). -/
structure TxRun where
  slot  : Nat
  ch    : Nat
  begun : Nat
  hold  : Option Nat
  ramp  : Option Nat
  pins  : BitVec 15
deriving DecidableEq, Repr

/-- The last action of kind 0x6 that ran (R157): its tick, table and step, and the levels of the pins before it. -/
structure PaAct where
  tick  : Nat
  table : Nat
  step  : Nat
  pins  : BitVec 15
deriving DecidableEq, Repr

/-- A PA table run (R155, R158): table, the step to apply next, the tick it is due, whether it waits for a grant. -/
structure PaRun where
  table : Nat
  step  : Nat
  due   : Nat
  wait  : Bool
deriving DecidableEq, Repr

/-- The calibration steps of R162, in run order. -/
inductive CalStep
  | rxsyn | txsyn | tpm | iqa | iqb
deriving DecidableEq, Repr

/-- A synthesizer calibration started by temperature, by R154 or by a TX start (R160, R518): the tick its time runs
from, none while its rations wait. -/
structure SynCal where
  begun : Option Nat
deriving DecidableEq, Repr

/-- The radio front end's hidden state. `rxPend` is an RX LO change that waits for STANDBY or LISTEN (R139); `winIdle`
marks a recorded listen window that has no effect until it is reopened (R144). -/
structure Radio where
  since    : Option Nat
  tx       : Option TxRun
  turn     : Option Nat
  swapped  : Bool
  rxInt    : Nat
  rxFrac   : W20
  rxPend   : Option (Nat × W20)
  blankTo  : Nat
  winIdle  : Bool
  pa       : Option PaRun
  paAct    : Option PaAct
  cal      : List CalStep
  calBegun : Option Nat
  rxCal    : Option SynCal
  txCal    : Option SynCal
  rxCaled  : Bool
  txCaled  : Bool
  deferRx  : Bool
  deferTx  : Bool
  gainA    : Option W20
  gainB    : Option W20
  pins     : BitVec 15
  maskPrev : List Nat
  ovlA     : Option Nat
  ovlB     : Option Nat
deriving DecidableEq, Repr

/-! ## Channelizer, stalls and descriptor pools (spec/07) -/

/-- A sync record (R177): timestamp, RSSI, carrier offset, QUAL of the packet's aerial and of the other, overload,
whether the aerial is B, and the catch record and ASN that announce the frame (R235). -/
structure SyncRec where
  ts    : W40
  rssi  : BitVec 12
  fofs  : BitVec 12
  qual  : BitVec 10
  other : BitVec 10
  ovl   : Bool
  onB   : Bool
  ann   : Option (Nat × W40)
deriving DecidableEq, Repr

/-- What a stall's registers do not show: the latched sync record, the tick from which it searches (R183), the ticks
of the preamble and of the choice, its aerial and the mean QUAL of both aerials (R174), the frame in progress, a knock
being read with its timestamp and tick (R234), and the last action on its EN bit: the tick, the value, and EN before
it (R170). -/
structure StallH where
  sync   : SyncRec
  search : Nat
  heard  : Nat
  choice : Nat
  onB    : Bool
  meanA  : BitVec 10
  meanB  : BitVec 10
  frame  : Option Nat
  knock  : Option (W40 × Nat)
  acted  : Option (Nat × Bool × Bool)
deriving DecidableEq, Repr

/-- The four states of a descriptor (R189). -/
inductive DescSt
  | free | stall | frame | program
deriving DecidableEq, Repr

/-- A descriptor pool: its queue of free indices and the state of every index not in it (R187, R189). -/
structure Pool where
  queue : List Nat
  st    : Tab DescSt
deriving DecidableEq, Repr

/-! ## Frame unit and decoder (spec/08) -/

/-- What became of a block (R209, R212, R214): its bytes as decided. -/
inductive BlkRes
  | good (b : List Byte) | crcBad (b : List Byte) | deadline (b : List Byte)
deriving DecidableEq, Repr

/-- A frame being received: its number, position, descriptor and whether its sync took it (R187), sync record, the
tick of its sync, ticks a symbol and bits a symbol (R204), header word or PHR, the fields read from it, the outcome of
each block, how many blocks have been queued, and whether its last symbol has left the stall. -/
structure Frame where
  id     : Nat
  pos    : Nat
  pool   : Nat
  idx    : Nat
  took   : Bool
  sync   : SyncRec
  began  : Nat
  sym    : Nat
  order  : Nat
  hdr    : W20
  sun    : Bool
  headed : Bool
  len    : Nat
  rate   : Nat
  bs     : Nat
  mode   : Nat
  blocks : List (Option BlkRes)
  queued : Nat
  last   : Bool
deriving DecidableEq, Repr

/-- A decode job in its slot of the soft store (R208): frame, block number, position, arrival tick, urgency, and the
block's received soft values as sent. -/
structure Job where
  frame : Nat
  block : Nat
  pos   : Nat
  since : Nat
  urgent : Bool
  soft  : List Int
deriving DecidableEq, Repr

/-- The frame being sent (R196, R217, R218, R233): the symbol values up to the end of its sync word, ticks a symbol
and bits a symbol, the bytes read so far, the next block to read, and the header and body bits of what has been read.
-/
structure TxFrame where
  lead  : List Int
  sym   : Nat
  order : Nat
  data  : List Byte
  next  : Nat
  bits  : List Bool
deriving DecidableEq, Repr

/-- The frame unit and decoder: frames received, the job queue, the running decode with its start tick, iteration
limit and the tick of its deadline, when the decoder went idle, the frame being sent, and the symbols of the last one
sent. -/
structure FrameUnit where
  frames  : List Frame
  nextId  : Nat
  jobs    : List Job
  running : Option Job
  begun   : Nat
  iter    : Nat
  dead    : Option Nat
  idleAt  : Option Nat
  tx      : Option TxFrame
  sent    : List Int
deriving DecidableEq, Repr

/-! ## Slot schedule and neighbour table (spec/09) -/

/-- A time sample waiting for the neighbour table (R240, R241): source address, position, timestamp, the catch record
and ASN that announce it, and the tick in which its frame became eligible. -/
structure Sample where
  addr : BitVec 32
  pos  : Nat
  t    : W40
  ann  : Option (Nat × W40)
  at_  : Nat
deriving DecidableEq, Repr

/-- The live ASN and START, the active slot length and hop table (R224-R230), the held SCH_STEPHI, the steps due in
the next tick and whether AUTOSTEP made them, the waiting samples, the deltas of the running and the waiting sweeps,
whether a command runs (R241, R245, R246), the era of LAST in full for records that the device wrote (R240), the tick
and record of each sample accepted in the tick of the last (R242), and whether a LOAD waits for the next tick (R226).
-/
structure Sched where
  asn     : W40
  start   : W40
  slotLen : Nat
  hop     : Tab Nat
  hopL    : Nat
  stepHi  : W20
  steps   : List (Int × Bool)
  samples : List Sample
  sweep   : Bool
  sweepQ  : List Int
  busy    : Bool
  eras    : Tab (Option Nat)
  taken   : List (Nat × Nat)
  load    : Bool
deriving DecidableEq, Repr

/-! ## DMA (spec/13) -/

/-- What the client of a block transfer is told when its last byte is acknowledged, or that it was abandoned (R188,
R267, R291, R324, R349): word 0 of a receive record at its take, a part of the record and its last word, the plaintext
of a hold half and other output of the cipher request whose record stands at `rec`, that record's last word, a part of
a chord capture and its last transfer, a relay copy; and of a read: an operand of the running request of a source, a
line of HASH_UPDATE, the frame of a chord transmit slot (R291, R295, R322). `macIn` is a secured frame put into its
receive buffer, `linkOut` its plaintext written over it (R294). -/
inductive XferTag
  | none
  | operand (src rec : Nat)
  | hashLine
  | chordTx (slot : Nat)
  | macIn (id : Nat)
  | linkOut (id half : Nat)
  | take (pool idx : Nat)
  | part (pool idx : Nat)
  | record (pool idx : Nat)
  | cipherOut (rec half : Nat)
  | cipher (rec : Nat)
  | chordPart
  | chordRx (buf len : Nat)
  | relay (buf : Nat)
deriving DecidableEq, Repr

/-- A transfer of a block channel in its queue (R336): where it goes on, in wide addresses; of a write, the bytes
still to be read into credits; of a read, how many bytes are still to be read; what its client is told, and whether a
chunk of it has been taken. -/
structure Xfer where
  addr  : Nat
  data  : List Byte
  rd    : Nat
  tag   : XferTag
  begun : Bool
deriving DecidableEq, Repr

/-- A chunk in a credit (R343, R345): its channel, where its first byte goes and how many bytes it has, the bytes once
they are read (none while a yard read is outstanding), the number of its yard read, whether its writes have been
issued, the numbers of the yard writes not yet acknowledged, its class, what the client is told and whether this is
the transfer's last chunk, and the count of the descriptor it belongs to.  `id` numbers the credits in the order of
their grants, and `rd` marks a chunk that a block reads and that is written nowhere. -/
structure Credit where
  id    : Nat
  rd    : Bool
  ch    : Nat
  addr  : Nat
  len   : Nat
  data  : Option (List Byte)
  rid   : Option Nat
  wrote : Bool
  wids  : List Nat
  bulk  : Bool
  tag   : XferTag
  fin   : Bool
  hop   : Nat
deriving DecidableEq, Repr

/-- A data write to the yard that is not yet acknowledged: its number, its channel, the bytes it stands for, and the
count of the descriptor it belongs to. -/
structure DmaAck where
  wid : Nat
  ch  : Nat
  len : Nat
  hop : Nat
deriving DecidableEq, Repr

/-- A descriptor in progress, as fetched (R338, R339), with the bytes read so far, whether it runs downward, and the
bytes in the funnel that belong to a register group not yet whole (R343). -/
structure DmaDesc where
  w0      : W20
  len     : Nat
  src     : Nat
  dst     : Nat
  next    : W20
  down    : Bool
  read    : Nat
  carry   : List Byte
  aborted : Bool
deriving DecidableEq, Repr

/-- The engines: the descriptor of each program channel, the queues of channels 12, 13, 14, 15 (relay) and 15 (hash),
the credits in flight in read order, the channel the read engine served last, the tick since when each channel has
waited for its next grant (R345), the yard writes issued and not yet acknowledged, oldest first, and the number of the
next credit. -/
structure Dma where
  desc    : Vector (Option DmaDesc) 12
  blk     : Vector (List Xfer) 5
  credits : List Credit
  served  : Nat
  since   : Vector Nat 16
  acks    : List DmaAck
  nextId  : Nat
deriving DecidableEq, Repr

/-! ## Link assists (spec/10) -/

/-- What steps 1 to 10 of R253 made of a MAC frame: it goes on, it is dropped, it completes with a STATUS under KEEP,
it is a duplicate (R259), or it completes as MODE 1 (LNK_CFG.EN 0). -/
inductive MacVerdict
  | go | drop | keep (status : Nat) | duplicate | plain
deriving DecidableEq, Repr

/-- A MAC frame in the link assists (R253, R254): the frame's number, position, descriptor, sync record, header word,
length, rate and block size, the bytes decoded so far, what the steps made of it, the source's record index, the relay
buffer held for its copy, whether it is a flood copy that counts at commit (R264), and whether its bytes stand in its
receive buffer (R294). -/
structure Mac where
  id      : Nat
  pos     : Nat
  pool    : Nat
  idx     : Nat
  sync    : SyncRec
  hdr     : W20
  len     : Nat
  rate    : Nat
  bs      : Nat
  bytes   : List Byte
  verdict : MacVerdict
  nbr     : Option Nat
  relay   : Option Nat
  counts  : Bool
  placed  : Bool
deriving DecidableEq, Repr

/-- How far a relay has come (R267-R271): its buffer holds a copy, it is PENDING, it stands loaded in the relay
transmit slot, its TX start was made, or its start was refused. -/
inductive RelaySt
  | copy | pending | loaded | fired | failed
deriving DecidableEq, Repr

/-- A relay (R267-R271): its buffer, how far it has come, the fold entry's address, due slot, tries, the frame's
length, rate and block size. -/
structure Relay where
  buf    : Nat
  st     : RelaySt
  entry  : Nat
  due    : W40
  tries  : Nat
  len    : Nat
  rate   : Nat
  bs     : Nat
deriving DecidableEq, Repr

/-- How far the frame that an immediate ACK acknowledges has come (R275). -/
inductive AckSt
  | waiting | accepted | duplicate | rejected
deriving DecidableEq, Repr

/-- An immediate ACK in preparation or on its way (R273-R275): its frame's number, position, source, counter and
report, the source's record, how the frame stands, the ticks of its last symbol and of its first block's decode, once
fired whether it is cut or sent in full, and whether the frame's roll-call entry waits for its end (R278). -/
structure AckRun where
  frame : Nat
  pos   : Nat
  src   : BitVec 32
  ctr   : BitVec 32
  rpt   : Byte
  nbr   : Option Nat
  st    : AckSt
  decAt : Nat
  endAt : Option Nat
  fired : Bool
  full  : Bool
  cut   : Bool
  owed  : Bool
deriving DecidableEq, Repr

structure Link where
  macs    : List Mac
  relays  : List Relay
  primNow : Option Nat
  ack     : Option AckRun
  ackWait : Option (BitVec 32 × BitVec 32 × Nat)
  rc      : List (BitVec 32 × BitVec 32)
  rcCopy  : Option (Nat × List Byte)
  foldClr : Bool
deriving DecidableEq, Repr

/-! ## UART, pins and supplies (spec/05, spec/16, spec/21) -/

structure Uart where
  rx      : List (Byte × Bool)
  tx      : List Byte
  shift   : Option Byte
deriving DecidableEq, Repr

/-! ## Cipher, tack room, hash and public-key engine, TRNG (spec/11) -/

/-- A tack-room command on its way to its end (R283): what it will leave when it is done, and the tick of its write.
-/
structure TrRun where
  op      : Nat
  slot    : Nat
  res     : Nat
  key     : BitVec 256
  attr    : W20
  count   : Nat
  limit   : Nat
  warn    : Nat
  reserve : Nat
  out     : List Byte
  outAt   : Nat
  wrAt    : Nat
deriving DecidableEq, Repr

/-- A submission waiting for a queue entry (R290): source, record address, arrival; source 0 carries the MAC frame's
number in place of an address. -/
structure CphWait where
  src    : Nat
  addr   : Nat
  since  : Nat
deriving DecidableEq, Repr

/-- An accepted request (R289, R291, R294): source, record address, operation, slot, tag bytes, lengths, operand
addresses, and for a link request the MAC frame's number. -/
structure CphReq where
  src   : Nat
  recAt : Nat
  op    : Nat
  slot  : Nat
  tagN  : Nat
  aadN  : Nat
  len   : Nat
  nonce : Nat
  aad   : Nat
  srcAt : Nat
  dst   : Nat
  tagAt : Nat
deriving DecidableEq, Repr

/-- A hash or public-key command on its way to its end (R295): its RESULT, the bytes that a HASH_UPDATE still waits
for, and the bytes it writes. -/
structure HpkRun where
  op    : Nat
  res   : Nat
  left  : Nat
  out   : List Byte
  outAt : Nat
deriving DecidableEq, Repr

/-- The SHA-256 context (R295): chaining value, bytes not yet hashed, bytes hashed. -/
structure ShaCtx where
  h     : List (BitVec 32)
  buf   : List Byte
  total : Nat
deriving DecidableEq, Repr

/-- The tack room and its engines: keys and attributes of the slots, the tack-room command, the submissions waiting,
the queue, the request running with its hold half and the operand bytes read so far (R291), the slots whose requests
hold the halves, the hash or public-key command, and the hash context; the TRNG's 16-bit words ready for TRNG_DATA,
whether it makes more, and the outcome of start-up tests that wait for its charge (R293, R297); the last tick with
work for holder 14, and the tick in which its charge last returned (R293). -/
structure Cipher where
  keys    : Tab (BitVec 256)
  attrs   : Tab W20
  tr      : Option TrRun
  waits   : List CphWait
  queue   : List CphReq
  running : Option (CphReq × Option Nat)
  got     : List Byte
  half0   : Option Nat
  half1   : Option Nat
  hpk     : Option HpkRun
  sha     : ShaCtx
  trngN   : Nat
  trngRun : Bool
  trngTest : Option Bool
  workAt  : Nat
  gaveAt  : Option Nat
deriving DecidableEq, Repr

/-! ## OTP, keeper and backup area (spec/11, spec/18, spec/19) -/

/-- The OTP records (R20, R21, R28, R299, R302, R441, R443, R450, R454, R470, R510).  A spare record is its kind and
index in the layout of R471; `inForce` of them, the oldest, were applied at the last cold start that applies rows
(R467). -/
structure Otp where
  id      : Vector W20 6
  lit     : Bool
  kek     : BitVec 256
  d       : BitVec 256
  qx      : BitVec 256
  qy      : BitVec 256
  root0   : Option (BitVec 256)
  root1   : Option (BitVec 256)
  rev0    : Bool
  rev1    : Bool
  isSealed : Bool
  epoch   : Nat
  ceil    : Option (BitVec 11)
  halter  : Option (Vector W20 4)
  energy  : Bool
  floors  : List (BitVec 32)
  spares  : List (Nat × Nat)
  inForce : Nat
  rows    : Nat
deriving DecidableEq, Repr

/-- A keeper order on its way to its end (R454): code, result, and what it commits when the OTP takes it. -/
inductive OtpCommit
  | none | ceil (r : BitVec 11) | halter (v : Vector W20 4) | energy | floor (v : BitVec 32)
  | rootSet (n : Nat) (digest : BitVec 256) | rootRevoke (n : Nat) | seal | unlock (scope : Nat)
deriving DecidableEq, Repr

structure KOrder where
  code   : Nat
  res    : Nat
  commit : OtpCommit
deriving DecidableEq, Repr

/-- Which of the keeper's start sequences is due (R438, R439). -/
inductive StartKind
  | cold | dormant | warm
deriving DecidableEq, Repr

/-- The keeper: its backup area (COUNT, FAILS, validity; R443), the order in progress, the tick of the launch that the
start watchdog counts from (R449), whether the reset asked for recovery (R451), which start sequence follows the last
reset, whether it has ended, whether its rows up to the 900 µs one are done (R438), and whether BOOT waits for an
update command that has the engines (R496). -/
structure Keeper where
  count   : Nat
  fails   : Nat
  valid   : Bool
  order   : Option KOrder
  launch  : Option Nat
  recov   : Bool
  kind    : StartKind
  started : Bool
  early   : Bool
  bootWaits : Bool
deriving DecidableEq, Repr

/-! ## Chord (spec/12) -/

/-- An entry of the active bay table (R319). -/
structure BayEnt where
  ofs   : Nat
  len   : Nat
  role  : Nat
  dir   : Nat
  every : Nat
deriving DecidableEq, Repr

/-- The bay in progress (R320, R323, R325, R331): its entry, the transmit slot it drives and the ports it drives on,
the ports whose tokens it holds, whether it is a loop check and has passed, whether it is a probe, whether a time
frame was taken or sent in it, the SEQ of the frame driven, the phase of a ranging exchange with the echoes measured
and the echo bursts sent (A, B), and whether the node repeats nothing in it. -/
structure BayRun where
  entry  : Nat
  drive  : Option Nat
  ports  : Nat
  tokens : Nat
  check  : Bool
  passed : Bool
  probe  : Bool
  taken  : Bool
  seq    : Nat
  phase  : Nat
  echoA  : Bool
  echoB  : Bool
  replyA : Bool
  replyB : Bool
  silent : Bool
deriving DecidableEq, Repr

/-- The time frame a node takes and passes on (R328, R329): C, HOPS, the port it came in on, and what the node's own
time lacks to the master's once any step is made, in 1/256 tick. -/
structure TimeRelay where
  c    : Nat
  hops : Nat
  port : Port
  res  : Int
deriving DecidableEq, Repr

/-- What the node drives on its ports (R311, R320): the ports (1 A, 2 B, 3 both), the instant of the first symbol in
1/256 tick of mesh time, and the symbols, positive true.  A port is undriven at any other time. -/
structure ChordOut where
  ports : Nat
  start : BitVec 48
  syms  : List Bool
deriving DecidableEq, Repr

/-- What the chord's registers do not show: the active bay table, the port locked as input, the grants of the slot
(entry, transmit slot), the bay in progress and the entries whose bay has ended in this slot, the bays of the slot
before in which frames are captured (entry, start, length), the count of consecutive failed loop checks, whether the
slot's probe has been used, the tick each transmit slot became READY, the frame a halter-mode node is sending, the
header of the frame being sent and the bytes of it that have been read (R322), the time frame to pass on, the ASN and
START that ACQ loads in the next tick (R330), the tokens held on each port, what the node has driven since the last
bay began, and the tick at which its ports were last active in halter mode (R334). -/
structure Chord where
  active  : Tab BayEnt
  lock    : Option Port
  grants  : List (Nat × Nat)
  bay     : Option BayRun
  ended   : List Nat
  prev    : List (Nat × W40 × Nat)
  fails   : Nat
  probed  : Bool
  ready   : Vector Nat 8
  halter  : Option Nat
  txHdr   : BitVec 32
  txGot   : List Byte
  relay   : Option TimeRelay
  acq     : Option (W40 × W40)
  tokA    : Nat
  tokB    : Nat
  out     : List ChordOut
  busyAt  : Nat
deriving DecidableEq, Repr

/-! ## The yard (spec/17) -/

/-- A yard request (R424): its number, requester, class, yard offset and length, whether it writes, the bytes it
writes or has read, how it ended (0 done, 1 bus error, 2 uncorrectable), and its arrival. -/
structure YReq where
  id     : Nat
  req    : Nat
  cls    : Nat
  q      : Nat
  len    : Nat
  wr     : Bool
  data   : List Byte
  status : Nat
  since  : Nat
deriving DecidableEq, Repr

/-- One channel of the yard: its queue in arrival order, its retry buffer in issue order, the retired commands whose
answers are on their way, the open row of each of the eight banks, the refreshes owed, whether it pauses, the tick and
die temperature of its last pause, the alerts since the last retirement, how many commands of a replay have not
retired (R424-R427), the tick at which a REFRESH was last due, the tick at which the last one ends (R425), and whether
INIT has filled it with zeros (R431). -/
structure YChan where
  queue   : List YReq
  cmds    : List YReq
  done    : List YReq
  openRow : Tab (Option Nat)
  owed    : Nat
  pause   : Bool
  paused  : Nat
  ptemp   : Int
  alerts  : Nat
  replay  : Nat
  refAt   : Nat
  rfcTo   : Nat
  zeroed  : Bool
deriving DecidableEq, Repr

/-- The yard beyond its registers: contents by channel and device location (`none`: lost or never written), the rows
lost since INIT filled their channel, how often contents were lost, words whose stored check byte is not that of the
data (R431), the XTS keys (R432), the repair in progress, the tick of the grant that training or the exit from
self-refresh runs from, the channels whose pauses wait for another's or for a replay (R426), and the slow-clock cycles
since the die temperature was sampled (R425). -/
structure Yard where
  bytes  : Tab (Option Byte)
  lost   : List Nat
  epoch  : Nat
  chk    : Tab Chk
  keys   : Option (BitVec 256)
  ch     : Vector YChan 2
  nextId : Nat
  ppr    : Option (Bool × Nat)
  since  : Option Nat
  waitP  : List Nat
  slow   : Nat
deriving DecidableEq, Repr

/-! ## Field update (spec/20) -/

/-- How far the update engine is with a piece (R481): not begun; refused with a result before any submission; its
CCM_DEC submitted; that ended with a STATUS; the plaintext on its way to the piece; and in place. -/
inductive PieceDec
  | idle | refused (res : Nat) | waits | failed (status : Nat) | out (l : List Byte) | plain (l : List Byte)
deriving DecidableEq, Repr

/-- An update command in progress (R496): opcode, part, piece index, UPD_ADDR as it stood, and the decryption of its
piece. -/
structure UpdRun where
  op    : Nat
  part  : Nat
  idx   : Nat
  addr  : Nat
  dec   : PieceDec
deriving DecidableEq, Repr

/-- The update engine and ROM recovery (R492-R496): the command in progress; while its end is worked out, which of its
flash operations is the torn one (1 the next, 0 none after it), where one is; what the ROM has received on UART0 and
not yet taken as a packet; TOTAL of the recovery download; the interface and INDEX of the last BLOCK addressed to this
device; the answers owed, each with its interface, INDEX and the tick of its BLOCK; and the STATUS frames sent. -/
structure Update where
  run     : Option UpdRun
  fuse    : Option Nat
  rx      : List Byte
  total   : Option Nat
  last    : Option (RecovIface × Nat)
  owed    : List (RecovIface × Nat × Nat)
  sent    : List (RecovIface × List Byte)
deriving DecidableEq, Repr

/-! ## The whole machine -/

/-- The state of the machine.  `hitch` is what HSPI_DO sent in the last transaction of the hitch port, less the zeros
before the first datum (R130). -/
structure State where
  regs    : Tab W20
  tick    : Nat
  mesh    : W40
  free    : Nat
  cores   : Vector CoreSt 4
  manger  : Manger
  faults  : Faults
  lattice : Lattice
  timers  : Vector TimerH 8
  rtc     : Rtc
  power   : Power
  sram    : Tab Byte
  pram    : Tab Byte
  loft    : Tab W20
  memChk  : Tab Chk
  flash   : Tab Byte
  flashOp : Option FlashOp
  uart    : Uart
  hitch   : List Byte
  pins    : BitVec 24
  pinLvl  : BitVec 24
  filt    : PinFilter
  radio   : Radio
  stalls  : Vector StallH 48
  pools   : Vector Pool 2
  frame   : FrameUnit
  sched   : Sched
  link    : Link
  cipher  : Cipher
  chord   : Chord
  dma     : Dma
  yard    : Yard
  otp     : Otp
  keeper  : Keeper
  update  : Update
  pending : List Instr
deriving DecidableEq, Repr

/-! ## Why a command could stop -/

/-- Why the machine could stop with a fault.  `heldInReset` names the one stuck state of the spec, a device that
RESET_CONFIRM holds in reset (R43).  No command raises it: such a device ignores commands, and each answers a next
state (safe: nothing is claimed of it). -/
inductive Fault
  | heldInReset
deriving DecidableEq, Repr

/-- Why a command could be refused.  `notModelled` is raised by the dispatcher for a command that has no meaning
(safe: the machine stops).  No command raises it now. -/
inductive Refusal
  | notModelled (mnemonic : String)
deriving DecidableEq, Repr

/-- What every meaning answers. -/
abbrev Out := Host.Outcome State Fault Refusal

/-! ## Reset (R6, R47, R388, R435; notes/assumptions/5.md) -/

/-- A core after a core reset (R47, R104, R113). -/
def CoreSt.reset : CoreSt :=
  { w := Vector.replicate 16 0, pc := 0, sw := 0x800F0, run := .stopped, act := 0, epc := Vector.replicate 5 0,
    esw := Vector.replicate 5 0, ecause := 0, eaddr := 0, pend := 0, ien := 0, ilvl := Vector.replicate 4 0, emiss := 0,
    stores := [], acts := Vector.replicate 16 ⟨0, 0, 0, 0, .empty, false⟩, fresh := true, cold := true, creset := false
    stopAt := none }

/-- The manger with every ration free (R27, R43, R44). -/
def Manger.reset : Manger :=
  { accts := [], free := 1023, waits := [], sampled := false, up := Vector.replicate 8 0, heldPin := [] }

def Faults.reset : Faults :=
  { order := [], fatalAt := none, trkSram := [], trkLoft := [], trkYard := [], doneRow := [], slow := 0, last := [],
    aged := 0 }

def Lattice.reset : Lattice :=
  { flights := [], cyc := 0, left := 0, cellQ := 0, filtN := Vector.replicate 16 0, phase := 0, storm := [], live := [],
    again := [], acts := [], writes := [] }

def TimerH.reset : TimerH := { top := 0xFFFFF, cmp := 0xFFFFF, latch := 0, phase := 0, rst := false }

/-- The real-time clock after a start from no supply (R388): 2000-01-01 00:00:00, a Saturday. -/
def Rtc.reset : Rtc :=
  { time := 0, date := 0x0010E, pend := .none, match0 := false, match1 := false, due0 := false,
    due1 := false, late := [] }

def Power.reset : Power :=
  { phase := .run, target := 0, refMesh := false, frac := 0, slowAcc := 0, captured := false, retry := false,
    orbit := none, lastPass := none, vbatLow := false, held := false, rstTick := 0, win := 0,
    winAt := none, winN := none, slowRc := false, wakes := [], csLow := false, fromPass := false }

def Radio.reset : Radio :=
  { since := none, tx := none, turn := none, swapped := false, rxInt := 0, rxFrac := 0, rxPend := none,
    blankTo := 0, winIdle := false, pa := none, paAct := none, cal := [], calBegun := none, rxCal := none,
    txCal := none, rxCaled := false, txCaled := false,
    deferRx := false, deferTx := false, gainA := none, gainB := none, pins := 0, maskPrev := [],
    ovlA := none, ovlB := none }

def SyncRec.zero : SyncRec :=
  { ts := 0, rssi := 0, fofs := 0, qual := 0, other := 0, ovl := false, onB := false, ann := none }

def StallH.reset : StallH :=
  { sync := SyncRec.zero, search := 0, heard := 0, choice := 0, onB := false, meanA := 0, meanB := 0, frame := none,
    knock := none, acted := none }

def FrameUnit.reset : FrameUnit :=
  { frames := [], nextId := 0, jobs := [], running := none, begun := 0, iter := 12, dead := none, idleAt := none,
    tx := none, sent := [] }

def Sched.reset : Sched :=
  { asn := 0, start := 0, slotLen := 384000, hop := [], hopL := 1, stepHi := 0, steps := [], samples := [],
    sweep := false, sweepQ := [], busy := false, eras := [], taken := [], load := false }

def Dma.reset : Dma :=
  { desc := Vector.replicate 12 none, blk := Vector.replicate 5 [], credits := [], served := 15,
    since := Vector.replicate 16 0, acks := [], nextId := 0 }

def Link.reset : Link :=
  { macs := [], relays := [], primNow := none, ack := none, ackWait := none, rc := [], rcCopy := none,
    foldClr := false }

def Uart.reset : Uart := { rx := [], tx := [], shift := none }

def ShaCtx.reset : ShaCtx :=
  { h := [0x6a09e667, 0xbb67ae85, 0x3c6ef372, 0xa54ff53a, 0x510e527f, 0x9b05688c, 0x1f83d9ab, 0x5be0cd19], buf := [],
    total := 0 }

def Cipher.reset : Cipher :=
  { keys := [], attrs := [], tr := none, waits := [], queue := [], running := none, got := [], half0 := none, half1 := none,
    hpk := none, sha := ShaCtx.reset, trngN := 0, trngRun := false, trngTest := none, workAt := 0, gaveAt := none }

/-- Blank OTP but for the identity words: ID3 names A1, ID5 is their check, and the other fields are 0 (R299, R302,
R441-R443; notes/assumptions/5.md). -/
def Otp.reset : Otp :=
  { id := #v[0, 0, 0, 0x00011, 0, 3717], lit := false, kek := 0, d := 0, qx := 0, qy := 0, root0 := none, root1 := none,
    rev0 := false, rev1 := false, isSealed := false, epoch := 0, ceil := none, halter := none, energy := false,
    floors := [], spares := [], inForce := 0, rows := 0 }

def Keeper.reset : Keeper :=
  { count := 0, fails := 0, valid := false, order := none, launch := none, recov := false, kind := .cold,
    started := false, early := false, bootWaits := false }

def Chord.reset : Chord :=
  { active := [], lock := none, grants := [], bay := none, ended := [], prev := [], fails := 0, probed := false,
    ready := Vector.replicate 8 0, halter := none, txHdr := 0, txGot := [], relay := none, acq := none, tokA := 0, tokB := 0,
    out := [], busyAt := 0 }

def YChan.reset : YChan :=
  { queue := [], cmds := [], done := [], openRow := [], owed := 0, pause := false, paused := 0, ptemp := 0,
    alerts := 0, replay := 0,
    refAt := 0, rfcTo := 0, zeroed := false }

def Yard.reset : Yard :=
  { bytes := [], lost := [], epoch := 0, chk := [], keys := none, ch := Vector.replicate 2 YChan.reset, nextId := 0,
    ppr := none, since := none, waitP := [], slow := 0 }

def Update.reset : Update :=
  { run := none, fuse := none, rx := [], total := none, last := none, owed := [], sent := [] }

/-- The machine right after a cold reset whose backup domain started from no supply: every register at the value of
its map, mesh time 0, nothing stored, no command waiting.  The keeper has not yet run its start sequence (R438). -/
def State.reset : State :=
  { regs := [], tick := 0, mesh := 0, free := 0, cores := Vector.replicate 4 CoreSt.reset, manger := Manger.reset,
    faults := Faults.reset, lattice := Lattice.reset, timers := Vector.replicate 8 TimerH.reset, rtc := Rtc.reset,
    power := Power.reset, sram := [], pram := [], loft := [], memChk := [], flash := [], flashOp := none,
    uart := Uart.reset, hitch := [], pins := 0, pinLvl := 0, filt := ⟨0, []⟩, radio := Radio.reset,
    stalls := Vector.replicate 48 StallH.reset,
    pools := Vector.replicate 2 ⟨[], []⟩, frame := FrameUnit.reset, sched := Sched.reset, link := Link.reset,
    cipher := Cipher.reset, chord := Chord.reset, dma := Dma.reset, yard := Yard.reset, otp := Otp.reset,
    keeper := Keeper.reset, update := Update.reset, pending := [] }

end Sys2Proof.Machine
end

