-- ==== Sys2Proof/Machine/Ops.lean ====
section
/-! DEFINITION. The operations that every block shares: registers and their fields, event lines and block requests
(R91, R365), the lattice's producers (R353-R359), event flags, and the fault log (R457-R466). -/

namespace Sys2Proof.Machine

/-! ## Registers -/

/-- The stored bits of the register at core address `a`. -/
def State.rg (s : State) (a : Nat) : W20 := tabGet regReset s.regs a

/-- The state with the register at `a` holding `v`. -/
def State.setRg (s : State) (a : Nat) (v : W20) : State := { s with regs := tabSet regReset s.regs a v }

/-- A field's value. -/
def State.get (s : State) (f : Field) : Nat := fieldGet (s.rg f.reg) f.hi f.lo

/-- The state with a field holding `n`. -/
def State.put (s : State) (f : Field) (n : Nat) : State := s.setRg f.reg (fieldSet (s.rg f.reg) f.hi f.lo n)

/-- Whether a field is non-zero. -/
def State.test (s : State) (f : Field) : Bool := s.get f != 0

/-- A field read as a signed number. -/
def State.getInt (s : State) (f : Field) : Int :=
  let n := s.get f
  if 2 ^ (f.hi - f.lo) ≤ n then (n : Int) - 2 ^ (f.hi + 1 - f.lo) else n

/-- A counter one higher, saturating at the field's largest value. -/
def State.bump (s : State) (f : Field) : State := s.put f (min (s.get f + 1) (2 ^ (f.hi + 1 - f.lo) - 1))

/-- A 0 or 1 for a field of one bit. -/
def bit (b : Bool) : Nat := if b then 1 else 0

/-- The two registers that hold the halves of a 40-bit value. -/
def State.get40 (s : State) (lo hi : Nat) : W40 := BitVec.ofNat 40 ((s.rg hi).toNat * 2 ^ 20 + (s.rg lo).toNat)

/-- Both halves of a 40-bit value written. -/
def State.set40 (s : State) (lo hi : Nat) (v : W40) : State :=
  (s.setRg lo (BitVec.ofNat 20 v.toNat)).setRg hi (BitVec.ofNat 20 (v.toNat / 2 ^ 20))

/-- A 32-bit value in two registers, bits [19:0] and then [31:20]. -/
def State.get32 (s : State) (lo hi : Nat) : BitVec 32 :=
  BitVec.ofNat 32 (((s.rg hi).toNat % 2 ^ 12) * 2 ^ 20 + (s.rg lo).toNat)

def State.set32 (s : State) (lo hi : Nat) (v : BitVec 32) : State :=
  (s.setRg lo (BitVec.ofNat 20 v.toNat)).setRg hi (BitVec.ofNat 20 (v.toNat / 2 ^ 20))

/-- A fresh open value, and the state whose counter of open values has moved on (notes/assumptions/6.md). -/
def State.fresh (s : State) : Nat × State := (s.free, { s with free := s.free + 1 })

/-- A value as a signed number of `n` bits. -/
def signed (n v : Nat) : Int :=
  if 2 ^ (n - 1) ≤ v % 2 ^ n then ((v % 2 ^ n : Nat) : Int) - 2 ^ n else ((v % 2 ^ n : Nat) : Int)

/-- A signed number in two's complement over `n` bits. -/
def unsigned (n : Nat) (v : Int) : Nat := (v % 2 ^ n).toNat

/-- Ceiling division. -/
def ceilDiv (a b : Nat) : Nat := (a + (b - 1)) / b

/-- Division rounded to the nearest integer, halves away from zero. -/
def roundDiv (a : Int) (b : Nat) : Int :=
  if 0 ≤ a then ((2 * a.toNat + b) / (2 * b) : Nat) else -(((2 * (-a).toNat + b) / (2 * b) : Nat) : Int)

/-- Mesh time `t` counts as reached (R9). -/
def State.reached (s : State) (t : W40) : Bool := (s.mesh - t).toNat < 2 ^ 39

/-! ## Cores -/

def State.core (s : State) (c : CoreId) : CoreSt := s.cores[c]

def State.setCore (s : State) (c : CoreId) (x : CoreSt) : State := { s with cores := s.cores.set c x }

def State.modCore (s : State) (c : CoreId) (f : CoreSt → CoreSt) : State := s.setCore c (f (s.core c))

/-- An event reaches line `k` of a core: the pending bit is set, and EMISS if it was set before (R91). -/
def CoreSt.event (x : CoreSt) (k : Nat) : CoreSt :=
  if x.pend.getLsbD k then { x with emiss := x.emiss ||| BitVec.twoPow 32 k }
  else { x with pend := x.pend ||| BitVec.twoPow 32 k }

/-- A held request sets the pending bit and never EMISS (R365), unless a channel set the line in the same bus cycle
(`met`), which counts as a merge (R364). -/
def CoreSt.hold (x : CoreSt) (met : Bool) (k : Nat) : CoreSt :=
  { x with pend := x.pend ||| BitVec.twoPow 32 k, emiss := if met then x.emiss ||| BitVec.twoPow 32 k else x.emiss }

def State.event (s : State) (c : CoreId) (k : Nat) : State := s.modCore c (fun x => x.event k)

/-! ## Block requests (R365) -/

/-- Whether the flags at `f` meet their enables at `e`. -/
def State.meets (s : State) (f e : Nat) : Bool := (s.rg f &&& s.rg e) != 0

/-- Whether block request `k` is asserted. -/
def State.request (s : State) : Nat → Bool
  | 0 => s.meets MNG_FLAGS MNG_IRQEN
  | 1 => s.meets RFE_FLAGS RFE_IRQEN
  | 2 => s.meets STC_FLAGS STC_IRQEN
  | 3 => s.meets FU_FLAGS FU_IRQEN
  | 4 => s.meets SCH_FLAGS SCH_IRQEN || s.meets LNK_FLAGS LNK_IRQEN
  | 5 => s.meets CPH_FLAGS CPH_IRQEN
  | 6 => s.meets CHD_FLAGS CHD_IRQEN
  | 7 => s.meets DMA_DONE DMA_DONEEN || s.meets DMA_FLAGS DMA_IRQEN
  | 8 => s.meets TMR_FLAGS TMR_IRQEN
  | 9 => s.meets RTC_FLAGS RTC_IRQEN
  | 10 => s.meets FLT_FLAGS FLT_IRQEN
  | 11 => s.meets KMB_FLAGS KMB_IRQEN
  | 12 => s.test FLC_STATUS_DONE || s.test FLC_STATUS_ERR
  | 13 => s.test HPK_STAT_DONE
  | 14 => s.meets LAT_FLAGS LAT_IRQEN
  | _ => false

/-- The core and line of request `k`, when it is routed and asserted. -/
def State.routed (s : State) (k : Nat) : Option (CoreId × Nat) :=
  if s.test (LAT_REQ_EN k) && s.request k then
    some (⟨s.get (LAT_REQ_CORE k) % 4, Nat.mod_lt _ (by decide)⟩, s.get (LAT_REQ_LINE k))
  else none

/-- Every routed and asserted request holds its line's pending bit set. -/
def State.latchReqs (s : State) : State :=
  (List.range 16).foldl (fun t k => match s.routed k with
    | some (c, l) => t.modCore c (fun x => x.hold (t.lattice.acts.contains (32 * c.val + l, t.lattice.cyc)) l)
    | none => t) s

/-! ## The lattice (R353-R361, R366) -/

/-- Whether the bus clock runs in RUN or DOZE, so that the lattice delivers events (R366). -/
def State.busRuns (s : State) : Bool := s.power.phase = .run

/-- Bus cycles in 48 mesh ticks: 100 MHz once the system PLL has locked, the fast RC's 16 MHz before (R394). -/
def State.busRate (s : State) : Nat := if s.test CLK_STAT_SPLL then 125 else 20

/-- The OUT bit of pin `n`. -/
def State.gpioOut (s : State) (n : Nat) : Bool := (s.rg (GPIO_OUT (n / 16))).getLsbD (n % 16)

/-- The pads of the VIO bank are at work: VBAT and VIO are good, and the device is not in DORMANT, which its entry
reaches at E0 (R411, R501, R502). -/
def State.padsOn (s : State) : Bool :=
  s.test SUP_STAT_VIO && !s.power.vbatLow && (match s.power.phase with
    | .dormant => false
    | .entry _ => s.power.target != 4
    | _ => true)

/-- The level that something holds at the ball of GPIOn: the output, where it drives, else what drives it from
outside, else its pull; none where the pin floats (R136, R411, R501, notes/assumptions/41.md). -/
def State.ball (s : State) (n : Nat) : Option Bool :=
  let m := if s.padsOn then s.get (GPIO_CFG_MODE n) else 0
  if m = 1 then some (s.gpioOut n)
  else if m = 2 ∧ s.gpioOut n = false then some false
  else if s.pins.getLsbD n then some (s.pinLvl.getLsbD n)
  else match (if s.padsOn then s.get (GPIO_CFG_PULL n) else 0) with
    | 1 => some true
    | 2 => some false
    | _ => none

/-- The level at the ball of GPIOn, an open value where the pin floats. -/
def State.ballLvl (s : State) (n : Nat) : Bool := (s.ball n).getD (Config.floatLevel n s.tick s.free)

/-- The level of GPIOn as GPIO_IN shows it: the filtered level, an open value where the pin floats (R136). -/
def State.gpioIn (s : State) (n : Nat) : Bool :=
  match s.ball n with
  | some _ => s.filt.lvl.getLsbD n
  | none => Config.floatLevel n s.tick s.free

/-- The producer that input `i` of cell `n` taps. -/
def State.cellTap (s : State) (n i : Nat) : Nat :=
  match i with
  | 0 => s.get (LAT_CINA_IN0 n)
  | 1 => s.get (LAT_CINA_IN1 n)
  | 2 => s.get (LAT_CINB_IN2 n)
  | _ => s.get (LAT_CINB_IN3 n)

/-- An input's level while the producers of `pulses` pulse (R359). -/
def State.cellIn (s : State) (pulses : List Nat) (n i : Nat) : Bool :=
  let p := s.cellTap n i
  if p < 24 then s.gpioIn p else p != 0xFF && pulses.contains p

/-- The LUT value of cell `n` while the producers of `pulses` pulse. -/
def State.cellLut (s : State) (pulses : List Nat) (n : Nat) : Bool :=
  let i := 8 * bit (s.cellIn pulses n 3) + 4 * bit (s.cellIn pulses n 2) + 2 * bit (s.cellIn pulses n 1) +
    bit (s.cellIn pulses n 0)
  (s.rg (LAT_CLUT n)).getLsbD i

/-- Whether some input of cell `n` taps producer `p`. -/
def State.cellTaps (s : State) (n p : Nat) : Bool :=
  s.cellTap n 0 == p || s.cellTap n 1 == p || s.cellTap n 2 == p || s.cellTap n 3 == p

/-- Producer `p` enters every enabled channel that names it (R356, R358): a clocked channel delivers it in the second
bus cycle after this one, an asynchronous one at once. -/
def State.enter (s : State) (p : Nat) : State :=
  let new := ((List.range 64).filter (fun k => s.test (LAT_CH_EN k) && s.get (LAT_CH_PROD k) == p)).map
    (fun k => (⟨k, s.get (LAT_CH_CONS k), s.test (LAT_CH_MODE k),
      s.lattice.cyc + (if s.test (LAT_CH_MODE k) then 0 else 2)⟩ : Flight))
  { s with lattice := { s.lattice with flights := s.lattice.flights ++ new } }

/-- Whether the pulse of `p`, which joins the pulses `live` of the same bus cycle, brings asynchronous cell `n` a
0-to-1 change of its output (R353, R359). -/
def State.cellRises (s : State) (live : List Nat) (n p : Nat) : Bool :=
  !s.cellLut live n && s.cellLut (live ++ [p]) n

/-- A producer fires: its pulse enters the channels, a clocked cell registers it at the next bus edge, and each
asynchronous cell that taps it and so rises fires in turn.  Ranks rise along such a path, so sixteen levels suffice
(R360). -/
def State.fireAt : Nat → Nat → State → State
  | 0, _, s => s
  | fuel + 1, p, s =>
    let live := s.lattice.live.filter (· != p)
    let t := s.enter p
    let t := { t with lattice := { t.lattice with live := live ++ [p] } }
    (List.range 16).foldl (fun u n =>
      if u.get (LAT_CCFG_FF n) == 0 && 24 ≤ p && u.cellTaps n p && u.cellRises live n p
      then State.fireAt fuel (0x60 + n) u else u) t

/-- The pulse of producer `p` in the present bus cycle; nothing is delivered while the bus clock is stopped (R366). -/
def State.pulse (p : Nat) (s : State) : State := if s.busRuns then State.fireAt 17 p s else s

/-- The outputs of asynchronous cells follow their inputs' levels; each 0-to-1 change fires (R359). -/
def State.settleCells (s : State) : State :=
  (List.range 16).foldl (fun u n =>
    if u.get (LAT_CCFG_FF n) == 0 then
      let v := u.cellLut [] n
      let was := u.test (LAT_CCFG_Q n)
      let u := u.put (LAT_CCFG_Q n) (bit v)
      if v && !was then u.pulse (0x60 + n) else u
    else u) s

/-! ## The pin filters (R136) -/

/-- The level of pin `n` that the filter passes goes from `was` to `now`: an edge that PEV selects fires, and the
cells that tap the pin follow (R136, R353, R359). -/
def State.pinPev (s : State) (n : Nat) (was now : Bool) : State :=
  let e := s.get (GPIO_CFG_PEV n)
  let t := if (e = 1 && !was && now) || (e = 2 && was && !now) || (e = 3 && (was != now)) then s.pulse n else s
  t.settleCells

/-- The filtered level of pin `n` becomes `v`, where GPIO_IN showed `was`. -/
def State.pinShow (s : State) (n : Nat) (was v : Bool) : State :=
  let m := BitVec.twoPow 24 n
  ({ s with filt := ⟨if v then s.filt.lvl ||| m else s.filt.lvl &&& ~~~m, s.filt.wait.filter (fun e => e.1 != n)⟩ }).pinPev
    n was v

/-- One bus edge for the filters: a level that has held for 2^FILT bus cycles counts, and a shorter one is forgotten.
-/
def State.filterEdge (s : State) : State :=
  let wait := (s.filt.wait.map (fun (e : Nat × Nat) => (e.1, e.2 + 1))).filter (fun e =>
    s.ball e.1 == some (!s.filt.lvl.getLsbD e.1))
  wait.foldl (fun u (e : Nat × Nat) =>
    if 2 ^ u.get (GPIO_CFG_FILT e.1) ≤ e.2 then
      u.pinShow e.1 (u.filt.lvl.getLsbD e.1) (!u.filt.lvl.getLsbD e.1) else u) { s with filt := { s.filt with wait := wait } }

/-! ## The bus edge (R353, R359) -/

/-- The unfiltered output of clocked cell `n` at a bus edge that registers `pulses`. -/
def State.cellEdge (s : State) (pulses : List Nat) (n : Nat) : Bool :=
  let q := s.lattice.cellQ.getLsbD n
  let v := s.cellLut pulses n
  match s.get (LAT_CCFG_FF n) with
  | 1 => v
  | 2 => if v then !q else q
  | _ => if s.cellIn pulses n 3 then false else if v then true else q

/-- One bus edge for clocked cell `n`: its output follows once the filter has seen the new value for FILT cycles, and
a 0-to-1 change fires. -/
def State.cellStep (s : State) (pulses : List Nat) (n : Nat) : State :=
  let v := s.cellEdge pulses n
  let q := if v then s.lattice.cellQ ||| BitVec.twoPow 16 n else s.lattice.cellQ &&& ~~~(BitVec.twoPow 16 n)
  let out := s.test (LAT_CCFG_Q n)
  let held := if v = out then 0 else (s.lattice.filtN.toList[n]?).getD 0 + 1
  let t := { s with lattice := { s.lattice with cellQ := q, filtN := s.lattice.filtN.setIfInBounds n held } }
  if v ≠ out ∧ s.get (LAT_CCFG_FILT n) < held then
    let t := { t.put (LAT_CCFG_Q n) (bit v) with
      lattice := { t.lattice with filtN := t.lattice.filtN.setIfInBounds n 0 } }
    if v then t.pulse (0x60 + n) else t.settleCells
  else t

/-- Each producer of a list once, in order. -/
def onceEach (l : List Nat) : List Nat := l.foldl (fun m p => if m.contains p then m else m ++ [p]) []

/-- One bus edge: the pulses of the bus cycle that ends are registered by the clocked cells, an asynchronous cell that
they held low rises as they end, the pulses that waited for the next cycle begin, and the pin filters count. -/
def State.busEdge (s : State) : State :=
  let l := s.lattice
  let now := onceEach l.again
  let t := { s with lattice := { l with
    cyc := l.cyc + 1
    left := l.left - 1
    live := []
    again := now.foldl List.erase l.again
    acts := l.acts.filter (fun e => l.cyc ≤ e.2 + 2)
    writes := l.writes.filter (fun e => l.cyc ≤ e.2 + 2) } }
  let t := (List.range 16).foldl (fun u n =>
    if s.get (LAT_CCFG_FF n) != 0 then u.cellStep l.live n
    else if l.live != [] && !s.cellLut l.live n && s.cellLut [] n then u.pulse (0x60 + n)
    else u) t
  (now.foldl (fun u p => u.pulse p) t).filterEdge

/-- Producer `p` fires an event (R353). A pulse lasts one bus cycle, so a producer that pulses again does so in the
next bus cycle that has no pulse of it (notes/assumptions/9.md). -/
def State.fire (p : Nat) (s : State) : State :=
  if s.busRuns && s.lattice.live.contains p then
    { s with lattice := { s.lattice with again := s.lattice.again ++ [p] } }
  else s.pulse p

/-! ## Event flags -/

/-- The producer that a flag bit fires, by its register (R353). -/
def flagProducer (f : Field) : Option Nat :=
  if f.reg = RFE_FLAGS then some (0x70 + f.lo)
  else if f.reg = STC_FLAGS then some (0x80 + f.lo)
  else if f.reg = FU_FLAGS then some (0x88 + f.lo)
  else if f.reg = SCH_FLAGS then some (0x90 + f.lo)
  else if f.reg = LNK_FLAGS then some (0xA0 + f.lo)
  else if f.reg = CPH_FLAGS then some (0xB0 + f.lo)
  else if f.reg = CHD_FLAGS then some (0xC0 + f.lo)
  else if f.reg = DMA_FLAGS then some (0xD0 + f.lo)
  else none

/-- An event sets flag `f`: its producer fires whether or not the bit was set, and the block's request follows
(R19, R353, R365). -/
def State.raise (f : Field) (s : State) : State :=
  let t := s.put f 1
  (match flagProducer f with
    | some p => t.fire p
    | none => t).latchReqs

/-! ## Events that coincide (R364) -/

/-- The bit of LAT_OVL0-LAT_OVL2 for a consumer: register and bit. -/
def ovlBit (k : Nat) : Option (Nat × Nat) :=
  if 0x80 ≤ k ∧ k < 0x94 then some (0, k - 0x80)
  else if 0x94 ≤ k ∧ k < 0xA4 then some (1, k - 0x94)
  else if 0xA8 ≤ k ∧ k < 0xB0 then some (2, k - 0xA8)
  else if 0xF0 ≤ k ∧ k ≤ 0xF2 then some (2, k - 0xE8)
  else none

/-- Two or more events met at consumer `k`: its OVL bit and OVERLAP. -/
def State.overlap (s : State) (k : Nat) : State :=
  match ovlBit k with
  | some (r, b) => (s.setRg (LAT_OVL r) (s.rg (LAT_OVL r) ||| BitVec.twoPow 20 b)).raise LAT_FLAGS_OVERLAP
  | none => s

/-- A register write that triggers the action `act` of consumer `k`: it merges with an event that reached the consumer
through a channel in the same bus cycle. -/
def State.writeAction (s : State) (k : Nat) (act : State → State) : State :=
  if s.lattice.acts.contains (k, s.lattice.cyc) then s.overlap k
  else act { s with lattice := { s.lattice with writes := s.lattice.writes ++ [(k, s.lattice.cyc)] } }

/-! ## The fault log (R457-R465) -/

/-- The class of a source: 0 corrected, 1 contained, 2 fatal (R460). -/
def faultClass (code : Nat) : Nat :=
  if code ≤ 5 ∨ code = 35 then 2
  else if code = 7 ∨ code = 9 ∨ code = 11 ∨ code = 22 ∨ code = 25 ∨ code = 34 then 0
  else 1

/-- The status bit of a source (R460). -/
def faultBit (code : Nat) : Field := if code < 20 then ⟨FLT_SRC0, code, code⟩ else ⟨FLT_SRC1, code - 20, code - 20⟩

/-- Entry `k` is committed (R463). -/
def State.committed (s : State) (k : Nat) : Bool := s.get (FLT_E_HDR_COMMIT k) == 0b1010

/-- The entry a report of class `cls` takes (R462). -/
def State.freeEntry (s : State) (cls : Nat) : Option Nat :=
  (List.range (if cls = 2 then 16 else 14)).find? (fun k => !s.committed k)

/-- Entry `k` written: DETAIL, the mesh time of the report, then the header with COMMIT (R463). -/
def State.commitEntry (s : State) (k cls code : Nat) (detail : W20) : State :=
  let t := s.setRg (FLT_E_DET k) detail
  let t := t.set40 (FLT_E_TLO k) (FLT_E_THI k) s.mesh
  let t := t.setRg (FLT_E_HDR k) (BitVec.ofNat 20 (0b1010 * 2 ^ 16 + cls * 2 ^ 14 + code))
  { t with faults := { t.faults with order := k :: t.faults.order.filter (· != k) } }

/-- The most recent committed entry of a source. -/
def State.lastEntry (s : State) (code : Nat) : Option Nat :=
  s.faults.order.find? (fun k => s.committed k && s.get (FLT_E_HDR_CODE k) == code)

/-- Whether a report of this source is logged (R462). -/
def State.logged (s : State) (code : Nat) : Bool :=
  faultClass code != 0 || code == 34 || s.test FLT_CFG_LOGCE

/-- The counter of lost reports of a class (R465). -/
def lostField (cls : Nat) : Field := ⟨FLT_LOST cls, 19, 0⟩

/-- The log's part of a report: REPEAT for a source whose bit is set, else a new entry, else LOST and OVERFLOW. -/
def State.logReport (s : State) (code : Nat) (detail : W20) : State :=
  let cls := faultClass code
  if s.test (faultBit code) then
    match s.lastEntry code with
    | some k => s.bump (FLT_E_HDR_REPEAT k)
    | none => s
  else if s.logged code then
    match s.freeEntry cls with
    | some k =>
      let t := s.commitEntry k cls code detail
      if cls = 2 then t.raise FLT_FLAGS_NEW_FATAL else t
    | none => (s.bump (lostField cls)).raise FLT_FLAGS_OVERFLOW
  else s

/-- The first tick of a fatal sequence: the driver is cut, the radio pins go to their safe levels, the bypass closes,
and the slot that was sending keeps READY (R159, R317, R461). -/
def State.fatalCut (s : State) : State :=
  let t := match s.radio.tx with
    | some x => (s.put (FU_TX_CTL_SENDING x.slot) 0).setRg FU_TXBUSY 0
    | none => s
  let t := { t with radio := { t.radio with tx := none, pa := none, pins := 0 }, frame := { t.frame with tx := none } }
  let t := ((t.put CHD_STATE_BYPASS 1).put CHD_STATE_INA 0).put CHD_STATE_INB 0
  { t with faults := { t.faults with fatalAt := some (t.faults.fatalAt.getD t.tick) } }

/-- A source reports (R457-R465).  A fatal report begins the fatal sequence of R461; RESET_CONFIRM holds the device in
reset (R43). -/
def State.report (code : Nat) (detail : W20) (s : State) : State :=
  let t := (s.logReport code detail).put (faultBit code) 1
  let t := { t with faults := { t.faults with last := tabSet (fun _ => 0) t.faults.last code detail } }
  let t := match faultClass code with
    | 0 => t.raise FLT_FLAGS_NEW_CORR
    | 1 => t.raise FLT_FLAGS_NEW_CONT
    | _ => t
  let t := if code = 34 then t.raise FLT_FLAGS_SUBST else t
  if faultClass code = 2 then
    if code = 35 then { t.fatalCut with power := { t.power with held := true } } else t.fatalCut
  else t

/-- A fatal sequence is in progress or the device is held in reset: every block has stopped (R43, R411, R457, R461).
-/
def State.stopped (s : State) : Bool := s.faults.fatalAt.isSome || s.power.held || s.power.vbatLow

/-- Nothing but a reset, or what happens outside it, changes a device that has stopped: a command has no effect then.
-/
def State.live (s : State) (o : Out) : Out := if s.stopped then .next s else o

/-! ### What runs in which power state (R398, R405, R410; notes/assumptions/61.md) -/

/-- The core clocks run: in RUN or DOZE, and after an early resume (R398, R405).  Registers are accessed only then. -/
def State.clocked (s : State) : Bool :=
  !s.stopped && (match s.power.phase with
    | .run => true
    | .waking _ early => early
    | _ => false)

/-- A core is gated: it neither runs nor starts (R399). -/
def CoreRun.gated : CoreRun → Bool
  | .running | .starting => false
  | _ => true

/-- Every core is gated: DOZE in place of RUN (R399). -/
def State.allGated (s : State) : Bool := s.cores.toList.all (fun x => x.run.gated)

/-- RUN or DOZE, in which every block may run (R398). -/
def State.inRun (s : State) : Bool := !s.stopped && s.power.phase == .run

/-- The radio, the stalls and the frame unit's reception may run: in RUN and DOZE, in an orbit pass, and while a wake
from one goes on (R398, R408-R410). -/
def State.inAir (s : State) : Bool :=
  !s.stopped && (match s.power.phase with
    | .run | .pass | .waking .. => true
    | _ => false)

/-- What REST and ORBIT keep running, and DORMANT does not: the schedule engine, the manger, timers on CLK 2 and the
chord knock detector (R398). -/
def State.notDormant (s : State) : Bool := !s.stopped && s.power.phase != .dormant

/-- What runs while `on` has its effect only then. -/
def State.during (s : State) (on : Bool) (o : Out) : Out := if on then o else .next s

end Sys2Proof.Machine
end

