-- ==== Sys2Proof/Machine/Manger.lean ====
section
/-! DEFINITION. The manger (spec/02): accounts and charges, requests and their evaluation, swaps, re-charges and the
ration check.  Account numbers are the holders 0-31, then 32 + 16c + e for the reservation of entry e of core c (R36),
and from 96 on the reservations that a fired action has applied and whose shortfall still waits (R39,
notes/assumptions/43.md). -/

namespace Sys2Proof.Machine

/-! ## Charges (R29, R30) -/

/-- The factor of a charge band in sixteenths (R30). -/
def bandFactor : Nat → Nat
  | 0 => 22 | 1 => 20 | 2 => 19 | 3 => 18 | 4 => 16 | 5 => 15 | 6 => 14 | _ => 13

/-- The lower edge of a band in 10 mV (R30). -/
def bandEdge : Nat → Nat
  | 0 => 220 | 1 => 240 | 2 => 260 | 3 => 280 | 4 => 300 | 5 => 320 | 6 => 345 | _ => 370

/-- The highest band whose lower edge plus `m` (10 mV) VBAT has reached; band 0 below all of them. -/
def bandOf (m v : Nat) : Nat :=
  ([7, 6, 5, 4, 3, 2, 1].find? (fun b => bandEdge b + m ≤ v)).getD 0

/-- The pool total (R27). -/
def State.mngTotal (s : State) : Nat := min (s.get MNG_POOL_POOL) (s.get MNG_CEIL_CEILING)

/-- The factor of the present charge band. -/
def State.mngF (s : State) : Nat := bandFactor (s.get MNG_BAND_CHARGE_BAND)

/-- `parts` equal consumers that cost `base` together, each charged separately (R30). -/
def chargeAt (f base parts : Nat) (scaled : Bool) : Nat :=
  if scaled then (if parts = 0 then 0 else parts * ceilDiv (base / parts * f) 16) else base

/-- The populated yard channels (R415). -/
def State.yardChans (s : State) : Nat := if s.get YRD_CFG_CHANS = 1 then 1 else 2

/-- The cost at 3.0 V of holders 0-15 (R29). -/
def holderCost (chans : Nat) : Nat → Nat
  | 0 => 32 | 1 => 32 | 2 => 80 | 3 => 48 | 4 => 96 | 5 => 24 | 6 => 24
  | 7 => 16 | 8 => 16 | 9 => 16 | 10 => 16 | 11 => 120 * chans | 12 => 24 | 13 => 24 | 14 => 12 | 15 => 8
  | _ => 0

/-- A new account of holder `h`: its cost, and for an external holder its declared AMOUNT (R29, R38). -/
def State.newAcct (s : State) (h : Nat) : Acct :=
  let (base, parts, scaled) :=
    if h < 28 then (holderCost s.yardChans h, if h = 11 then s.yardChans else 1, true)
    else (s.get (MNG_EXT_AMOUNT (h - 28)), 1, s.test (MNG_EXT_SCALE (h - 28)))
  { id := h, base := base, parts := parts, scaled := scaled, held := chargeAt s.mngF base parts scaled, short := 0 }

/-- What an account is charged at factor `f`. -/
def Acct.charge (a : Acct) (f : Nat) : Nat := chargeAt f a.base a.parts a.scaled

/-! ## Accounts -/

def State.acct (s : State) (h : Nat) : Option Acct := s.manger.accts.find? (fun a => a.id == h)

/-- Holder `h` holds its charge. -/
def State.holds (s : State) (h : Nat) : Bool := (s.acct h).isSome

def State.heldOf (s : State) (h : Nat) : Nat := ((s.acct h).map (·.held)).getD 0

/-- What holder `h` is charged: what it holds and what a re-charge left short (R32). -/
def State.chargeOf (s : State) (h : Nat) : Nat := ((s.acct h).map (fun a => a.held + a.short)).getD 0

/-- A program holder's amount at 3.0 V (R35). -/
def State.progAmount (s : State) (h : Nat) : Nat := ((s.acct h).map (·.base)).getD 0

/-- The sum of all holdings and reservations. -/
def Manger.heldSum (m : Manger) : Nat := (m.accts.map (·.held)).sum

/-- OWED: what re-charges left short (R32). -/
def Manger.owed (m : Manger) : Nat := (m.accts.map (·.short)).sum

/-- Rations paid to the accounts that are short, in holder order; what is left over. -/
def payShort : List Acct → Nat → List Acct × Nat
  | [], n => ([], n)
  | a :: r, n =>
    let p := min a.short n
    let (r', n') := payShort r (n - p)
    ({ a with held := a.held + p, short := a.short - p } :: r', n')

/-- Returned rations pay OWED first, the rest goes to free (R32). -/
def Manger.credit (m : Manger) (n : Nat) : Manger :=
  let (as, rest) := payShort m.accts n
  { m with accts := as, free := m.free + rest }

/-- An account put in holder order. -/
def acctInsert : List Acct → Acct → List Acct
  | [], a => [a]
  | b :: r, a => if a.id < b.id then a :: b :: r else if a.id = b.id then a :: r else b :: acctInsert r a

def Manger.without (m : Manger) (hs : List Nat) : Manger :=
  { m with accts := m.accts.filter (fun a => !hs.contains a.id) }

/-- Accounts return what they hold. -/
def Manger.release (m : Manger) (hs : List Nat) : Manger :=
  (m.without hs).credit ((m.accts.filter (fun a => hs.contains a.id)).map (·.held)).sum

def State.modManger (s : State) (f : Manger → Manger) : State := { s with manger := f s.manger }

/-- Consumers return their charges (R33). -/
def State.release (s : State) (hs : List Nat) : State := s.modManger (·.release hs)

/-- The accounts of applied reservations that a waiting request counts on (R39). -/
def Wait.applied (w : Wait) : List Nat :=
  match w.kind with
  | .swap ret _ => ret.filter (96 ≤ ·)
  | _ => []

/-- The waiting requests that `p` selects are withdrawn; a reservation applied to one of them returns (R39). -/
def State.withdraw (s : State) (p : Wait → Bool) : State :=
  (s.modManger (fun m => { m with waits := m.waits.filter (fun w => !p w) })).release
    ((s.manger.waits.filter p).flatMap Wait.applied)

/-! ## Requests (R33-R37) -/

/-- Requests in order of arrival, ties to the lower account number (R36). -/
def waitInsert : List Wait → Wait → List Wait
  | [], w => [w]
  | v :: r, w => if w.since < v.since ∨ (w.since = v.since ∧ w.id < v.id) then w :: v :: r else v :: waitInsert r w

def State.addWait (s : State) (id cls : Nat) (k : WaitKind) : State :=
  s.modManger (fun m => { m with waits := waitInsert m.waits ⟨id, cls, s.tick, false, k⟩ })

/-- Whether a request of these holders waits. -/
def State.asked (s : State) (h : Nat) : Bool :=
  s.manger.waits.any (fun w => match w.kind with
    | .holders hs => hs.contains h
    | .swap _ take => take.contains h
    | .program _ _ => w.id == h
    | .resv _ _ => w.id == h)

/-- Consumers request their charges in one request, less those that hold or wait already (R408). -/
def State.askOne (s : State) (cls : Nat) (hs : List Nat) : State :=
  match hs.filter (fun h => !s.holds h && !s.asked h) with
  | [] => s
  | h :: r => s.addWait (r.foldl min h) cls (.holders (h :: r))

/-- Each consumer requests its charge, unless it holds or waits already (R33). -/
def State.ask (s : State) (cls : Nat) (hs : List Nat) : State := hs.foldl (fun t h => t.askOne cls [h]) s

/-- The request for the shortfall of an applied reservation, less the consumers `hs` (R39); the set of a TX start
stays whole. -/
def Wait.less (w : Wait) (hs : List Nat) : Wait :=
  match w.kind with
  | .swap ret take =>
    if w.applied.isEmpty || take.contains 4 then w else { w with kind := .swap ret (take.filter (!hs.contains ·)) }
  | _ => w

/-- Consumers are disabled: they return what they hold, and their own waiting requests go; a reservation that an
action had applied to them alone returns (R33, R39). -/
def State.drop (s : State) (hs : List Nat) : State :=
  ((s.release hs).modManger (fun m => { m with waits := m.waits.map (·.less hs) })).withdraw (fun w => match w.kind with
    | .holders l => l.any hs.contains
    | .swap _ take => take.isEmpty
    | _ => false)

/-- What holders cost now, those that hold already apart. -/
def State.costOf (s : State) (hs : List Nat) : Nat :=
  ((hs.filter (fun h => !s.holds h)).map (fun h => (s.newAcct h).held)).sum

/-- The increase of charge that a program holder's take of `m` asks for (R35). -/
def State.takeCost (s : State) (h m : Nat) : Nat :=
  ceilDiv ((s.progAmount h + m) * s.mngF) 16 - s.chargeOf h

/-- The charge of a swap's taken set: a holder of the returned set that is taken again is charged anew (R34). -/
def State.takenCost (s : State) (ret take : List Nat) : Nat :=
  ((take.filter (fun h => !s.holds h || ret.contains h)).map (fun h => (s.newAcct h).held)).sum

/-- The charge of a swap's returned set (R34). -/
def State.returnedCost (s : State) (ret : List Nat) : Nat := (ret.map s.chargeOf).sum

/-- The reservation amount of an entry at 3.0 V. -/
def State.resvBase (s : State) (c : CoreId) (e : Nat) : Nat :=
  (((s.core c).acts.toList[e]?).map (·.resv.toNat)).getD 0

def resvId (c : CoreId) (e : Nat) : Nat := 32 + 16 * c.val + e

/-- What a request needs from free to be granted. -/
def State.waitCost (s : State) (w : Wait) : Nat :=
  match w.kind with
  | .holders hs => s.costOf hs
  | .program _ m => s.takeCost w.id m
  | .resv c e => ceilDiv (s.resvBase c e * s.mngF) 16
  | .swap ret take => s.takenCost ret take - s.returnedCost ret

/-- Consumers are charged: accounts placed, their charges taken from free. -/
def State.charge (s : State) (hs : List Nat) : State :=
  let new := (hs.filter (fun h => !s.holds h)).map s.newAcct
  s.modManger (fun m => { m with
    accts := new.foldl acctInsert m.accts
    free := m.free - (new.map (·.held)).sum })

/-- A program holder's amount changed to `h3` at 3.0 V, its charge recomputed: a rise is taken from free, a fall
returned, in a debt as far as the holder holds it (R32, R35). -/
def State.setProgram (s : State) (h h3 : Nat) : State :=
  if h3 = 0 then s.release [h]
  else
    let old := s.chargeOf h
    let new := ceilDiv (h3 * s.mngF) 16
    let held := s.heldOf h
    s.modManger (fun m =>
      if old ≤ new then { m with
        accts := acctInsert m.accts ⟨h, h3, 1, true, held + (new - old), old - held⟩
        free := m.free - (new - old) }
      else
        let back := min held (old - new)
        Manger.credit { m with accts := acctInsert m.accts ⟨h, h3, 1, true, held - back, new - (held - back)⟩ } back)

/-- A swap's exchange: the returned set is credited and the taken set charged within one evaluation, the surplus
paying OWED first (R34).  In a debt the taken set may itself be left short, by no more than the returned set was. -/
def State.exchange (s : State) (ret take : List Nat) : State :=
  let new := ((take.filter (fun h => !s.holds h || ret.contains h)).map s.newAcct).map
    (fun a => { a with held := 0, short := a.held })
  s.modManger (fun m =>
    let pot := ((m.accts.filter (fun a => ret.contains a.id)).map (·.held)).sum
    let (new, rest) := payShort new (pot + m.free)
    Manger.credit { m.without ret with accts := new.foldl acctInsert (m.without ret).accts, free := 0 } rest)

/-- No waiting request is urgent. -/
def State.noneUrgent (s : State) : Bool := !s.manger.waits.any (·.urgent)

/-- The swap of R34 in its own tick, if it completes there. -/
def State.trySwap (s : State) (ret take : List Nat) : Option State :=
  let r := s.returnedCost ret
  let t := s.takenCost ret take
  if t ≤ r then some (s.exchange ret take)
  else if s.manger.owed = 0 ∧ s.noneUrgent ∧ t - r ≤ s.manger.free then some (s.exchange ret take)
  else none

/-- A request is granted: its charge taken. -/
def State.grantWait (s : State) (w : Wait) : State :=
  match w.kind with
  | .holders hs => s.charge hs
  | .program _ m => s.setProgram w.id (s.progAmount w.id + m)
  | .resv c e =>
    let b := s.resvBase c e
    let h := ceilDiv (b * s.mngF) 16
    s.modManger (fun m => { m with accts := acctInsert m.accts ⟨w.id, b, 1, true, h, 0⟩, free := m.free - h })
  | .swap ret take => s.exchange ret take

/-- The patience of a class in mesh ticks (R37). -/
def State.patience (s : State) (cls : Nat) : Nat := s.get (MNG_PAT_PATIENCE cls)

/-- Every request whose waiting time exceeds its class's patience is urgent (R14, R37). -/
def State.refreshUrgent (s : State) : State :=
  s.modManger (fun m => { m with
    waits := m.waits.map (fun w => { w with urgent := w.urgent || s.patience w.cls < s.tick - w.since }) })

/-- Whether a request may be granted now: OWED is 0 and it fits, or it is a swap whose taken set does not exceed its
returned set (R32, R34). -/
def State.grantable (s : State) (w : Wait) : Bool :=
  (s.manger.owed == 0 && s.waitCost w ≤ s.manger.free) ||
    (match w.kind with
     | .swap ret take => s.takenCost ret take ≤ s.returnedCost ret
     | _ => false)

/-- The requests of a list granted in order where they may be, with the state and those granted. -/
def State.grantEach : List Wait → State × List Wait → State × List Wait
  | [], r => r
  | w :: ws, (s, g) =>
    if s.grantable w then
      State.grantEach ws ((s.grantWait w).withdraw (fun v => v == w), g ++ [w])
    else State.grantEach ws (s, g)

/-- One evaluation (R36): the requests that arrived before this tick; while any request is urgent, only the oldest
urgent one.  Answers the accounts after it and the requests granted. -/
def State.evaluate (s : State) : State × List Wait :=
  let t := s.refreshUrgent
  let due := t.manger.waits.filter (fun w => w.since < t.tick)
  match t.manger.waits.find? (·.urgent) with
  | some u => State.grantEach (due.filter (· == u)) (t, [])
  | none => State.grantEach due (t, [])

/-! ## Bands (R30-R32) -/

/-- Every account re-charged at the present factor: falls return to free, rises are taken from free in holder order,
and what free does not hold is short (R31, R32). -/
def Manger.recharge (m : Manger) (f : Nat) : Manger :=
  let back := (m.accts.map (fun a => a.held - a.charge f)).sum
  let as := m.accts.map (fun a => { a with held := min a.held (a.charge f), short := a.charge f - a.held })
  let (as, rest) := payShort as (m.free + back)
  { m with accts := as, free := rest }

/-- The charge band that a measured band gives (R28, R30). -/
def State.bandFor (s : State) (meas : Nat) : Nat :=
  if s.test MNG_CEIL_BAND0_LOCK then 0 else min meas (s.get MNG_POOL_BAND_FLOOR)

/-- The charge band moved to `b`, with its re-charge; `quiet` for the first sample's placement (R31). -/
def State.moveBand (s : State) (b : Nat) (quiet : Bool) : State :=
  let old := s.get MNG_BAND_CHARGE_BAND
  if b = old then s
  else
    let t := s.put MNG_BAND_CHARGE_BAND b
    let t := t.modManger (·.recharge t.mngF)
    let t := if quiet then t else if b < old then t.raise MNG_FLAGS_BAND_DOWN else t.raise MNG_FLAGS_BAND_UP
    if t.manger.owed ≠ 0 then t.raise MNG_FLAGS_DEBT else t

/-- The samples in a row for which VBAT has stayed at least 20 mV above each band's lower edge (R31). -/
def Manger.countUp (m : Manger) (v : Nat) : Manger :=
  { m with up := Vector.ofFn (fun b : Fin 8 => if bandEdge b.val + 2 ≤ v then m.up[b] + 1 else 0) }

/-- The highest band whose 32 consecutive cycles have passed (R31). -/
def Manger.risen (m : Manger) : Nat := ([7, 6, 5, 4, 3, 2, 1].find? (fun b => 32 ≤ (m.up.toList[b]?).getD 0)).getD 0

/-- The measured band after a sample (R31): at once to a lower band, to a higher one after 32 samples at least 20 mV
above its edge. -/
def State.sampleBand (s : State) (v : Nat) : State :=
  let meas := s.get MNG_BAND_MEAS_BAND
  let t := s.modManger (fun m => { m.countUp v with sampled := true })
  let b := if !s.manger.sampled ∨ bandOf 0 v < meas then bandOf 0 v else max meas t.manger.risen
  (t.put MNG_BAND_MEAS_BAND b).moveBand (s.bandFor b) (!s.manger.sampled)

/-- The ration check: its snapshot, and the fatal report of a mismatch (R41, R42). -/
def State.checkRations (s : State) : State :=
  let h := s.manger.heldSum
  let t := (s.put CONS_RATIONS_HELD_SUM h).put CONS_RATIONS_FREE s.manger.free
  if h + s.manger.free = s.mngTotal then t else t.report 0 (BitVec.ofNat 20 h)

/-! ## The commands -/

/-- VBAT_SAMPLE (R31, R41): one sample per slow-clock cycle, then the check of that cycle. -/
def execVbatSample (vbat : BitVec 10) (s : State) : Out := s.during s.notDormant <|
  .next ((((s.put MNG_BAND_VBAT vbat.toNat).sampleBand vbat.toNat)).checkRations)

/-- POOL_WRITE (R27, R30): POOL applied, clamped or refused, and BAND_FLOOR written. -/
def State.writePool (s : State) (v : W20) : State :=
  let p := v.toNat % 1024
  let ceil := s.get MNG_CEIL_CEILING
  let t := s.put MNG_POOL_BAND_FLOOR (v.toNat / 1024 % 8)
  let t :=
    if p = 0 ∨ min p ceil < t.manger.heldSum then t.raise MNG_FLAGS_POOL_REFUSED
    else
      let u := t.put MNG_POOL_POOL (min p ceil)
      let u := u.modManger (fun m =>
        let (as, rest) := payShort m.accts (u.mngTotal - m.heldSum)
        { m with accts := as, free := rest })
      if ceil < p then u.raise MNG_FLAGS_CLAMPED else u
  t.moveBand (t.bandFor (t.get MNG_BAND_MEAS_BAND)) false

def execPoolWrite (v : W20) (s : State) : Out := s.during s.clocked <| .next (s.writePool v)

/-- PATIENCE_EXPIRY (R14). -/
def execPatienceExpiry (s : State) : Out := s.during s.notDormant <| .next s.refreshUrgent

/-- RESERVATION_REQUEST (R39): the class 3 request of an armed reservation whose lead is reached. -/
def execReservationRequest (c : CoreId) (e : Fin 16) (s : State) : Out := s.during s.notDormant <|
  let a := (s.core c).acts[e]
  if a.status = .armed ∧ a.resv ≠ 0 ∧ s.reached (a.fire - BitVec.ofNat 40 (s.get MNG_LEAD_LEAD)) then
    let t := s.addWait (resvId c e) 3 (.resv c e)
    .next (t.modCore c (fun x => { x with acts := x.acts.set e { a with status := .reserving } }))
  else .next s

/-! ## Program requests (R35, R96) -/

/-- The code of a `give`, and the state after it. -/
def State.give (s : State) (h m : Nat) : Nat × State :=
  if h < 16 ∨ 27 < h then (3, s)
  else
    let a := s.progAmount h
    if a < m then (5, (s.release [h]).raise MNG_FLAGS_GIVE_EXCESS)
    else if m = 0 then (0, s)
    else (0, s.setProgram h (a - m))

/-- What a `take` meets at once: a code, or none when it waits (R35, R96). -/
def State.takeCode (s : State) (h m : Nat) (now : Bool) : Option Nat :=
  if h < 16 ∨ 27 < h then some 3
  else if s.manger.waits.any (fun w => w.id == h && (match w.kind with | .program _ _ => true | _ => false)) then some 4
  else if m = 0 then some 0
  else if s.mngTotal < ceilDiv ((s.progAmount h + m) * s.mngF) 16 then some 1
  else if now then
    if s.manger.owed = 0 ∧ s.noneUrgent ∧ s.takeCost h m ≤ s.manger.free then some 0 else some 2
  else none

end Sys2Proof.Machine
end

