-- ==== Sys2Proof/Machine/Flags.lean ====
section
/-! DEFINITION. The status word's flags and the flag rules of R48, R61 and R62. -/

namespace Sys2Proof.Machine

def swV (sw : W20) : Bool := sw.getLsbD 0
def swC (sw : W20) : Bool := sw.getLsbD 1
def swZ (sw : W20) : Bool := sw.getLsbD 2
def swN (sw : W20) : Bool := sw.getLsbD 3
def swPriv (sw : W20) : Bool := sw.getLsbD 19

/-- The status word with all four flags written; PRIV and IMASK stay. -/
def swFlags (sw : W20) (n z c v : Bool) : W20 :=
  (sw &&& 0xFFFF0) ||| BitVec.ofNat 20 (8 * bit n + 4 * bit z + 2 * bit c + bit v)

/-- The status word with Z written alone. -/
def swSetZ (sw : W20) (z : Bool) : W20 := swFlags sw (swN sw) z (swC sw) (swV sw)

/-- The top bit of an `n`-bit number. -/
def topBit (n r : Nat) : Bool := r / 2 ^ (n - 1) % 2 = 1

/-- Result, carry and overflow of `x + y + cin` over `n` bits (R61). -/
def addFlags (n x y cin : Nat) : Nat × Bool × Bool :=
  let s := x + y + cin
  let r := s % 2 ^ n
  (r, 2 ^ n ≤ s, topBit n x == topBit n y && topBit n r != topBit n x)

/-- Subtraction adds the inverted operand with a carry in of 1 (R61). -/
def subFlags (n x y : Nat) : Nat × Bool × Bool := addFlags n x (2 ^ n - 1 - y) 1

/-- The arith rule. -/
def swArith (n : Nat) (sw : W20) (p : Nat × Bool × Bool) : W20 :=
  swFlags sw (topBit n p.1) (p.1 = 0) p.2.1 p.2.2

/-- The logic rule: C kept, V 0. -/
def swLogic (sw : W20) (r : Nat) : W20 := swFlags sw (topBit 20 r) (r = 0) (swC sw) false

/-- The shift rule: C the last bit shifted out, kept when there is none; V 0. -/
def swShift (n : Nat) (sw : W20) (r : Nat) (c : Option Bool) : W20 :=
  swFlags sw (topBit n r) (r = 0) (c.getD (swC sw)) false

/-- The count rule: C and V kept. -/
def swCount (sw : W20) (r : Nat) : W20 := swFlags sw (topBit 20 r) (r = 0) (swC sw) (swV sw)

/-- The mul rule: C and V 0. -/
def swMul (n : Nat) (sw : W20) (r : Nat) : W20 := swFlags sw (topBit n r) (r = 0) false false

/-- The div rule: C 0, V on a zero divisor or a quotient out of range. -/
def swDiv (sw : W20) (q : Nat) (v : Bool) : W20 := swFlags sw (topBit 20 q) (q = 0) false v

/-- The conditions of R62; `none` for the illegal value 0xF. -/
def condition (sw : W20) (cond : Nat) : Option Bool :=
  let n := swN sw
  let z := swZ sw
  let c := swC sw
  let v := swV sw
  match cond with
  | 0x0 => some z
  | 0x1 => some !z
  | 0x2 => some c
  | 0x3 => some !c
  | 0x4 => some n
  | 0x5 => some !n
  | 0x6 => some v
  | 0x7 => some !v
  | 0x8 => some (c && !z)
  | 0x9 => some (!c || z)
  | 0xA => some (n == v)
  | 0xB => some (n != v)
  | 0xC => some (!z && n == v)
  | 0xD => some (z || n != v)
  | 0xE => some true
  | _ => none

end Sys2Proof.Machine
end

