-- ==== Sys2Proof/Machine/Operands.lean ====
section
/-! DEFINITION. The operand forms of the Balrath instructions: registers and pairs (R45, R46), immediates, shift and
rotate amounts (R64, R71, R74), bit fields (R75), products and quotients (R72, R73). -/

namespace Sys2Proof.Machine

/-! ## Registers and pairs -/

/-- A general register; w0 reads 0 (R45). -/
def CoreSt.get (x : CoreSt) (r : RegId) : W20 := if r = 0 then 0 else x.w[r]

/-- A general register written; a value written to w0 is discarded (R45). -/
def CoreSt.set (x : CoreSt) (r : RegId) (v : W20) : CoreSt := if r = 0 then x else { x with w := x.w.set r v }

/-- A register number by its value. -/
def regId (n : Nat) : RegId := ⟨n % 16, Nat.mod_lt _ (by decide)⟩

/-- The odd register of a pair. -/
def oddOf (r : RegId) : RegId := regId (r.val + 1)

/-- The pair named by even register `r` (R46). -/
def CoreSt.pair (x : CoreSt) (r : RegId) : Nat := (x.get r).toNat * 2 ^ 20 + (x.get (oddOf r)).toNat

def CoreSt.setPair (x : CoreSt) (r : RegId) (v : Nat) : CoreSt :=
  (x.set r (BitVec.ofNat 20 (v / 2 ^ 20))).set (oddOf r) (BitVec.ofNat 20 v)

/-- A field that names a pair must be even (R46). -/
def isPair (r : RegId) : Bool := r.val % 2 = 0

/-! ## Shifts (R64, R71): the result, and the bit for C where one is shifted out -/

def shl (w a n : Nat) : Nat × Option Bool :=
  if n = 0 then (a, none)
  else if n ≤ w then (a * 2 ^ n % 2 ^ w, some (a / 2 ^ (w - n) % 2 = 1))
  else (0, some false)

def shr (w a n : Nat) : Nat × Option Bool :=
  if n = 0 then (a, none)
  else if n ≤ w then (a / 2 ^ n, some (a / 2 ^ (n - 1) % 2 = 1))
  else (0, some false)

def sar (w a n : Nat) : Nat × Option Bool :=
  if n = 0 then (a, none)
  else if n < w then (unsigned w (signed w a / 2 ^ n), some (a / 2 ^ (n - 1) % 2 = 1))
  else (if topBit w a then 2 ^ w - 1 else 0, some (topBit w a))

def rotr (a n : Nat) : Nat × Option Bool :=
  if n % 20 = 0 then (a, none)
  else
    let r := a / 2 ^ (n % 20) + a % 2 ^ (n % 20) * 2 ^ (20 - n % 20)
    (r, some (topBit 20 r))

/-! ## The ALU of R63, with a register or a 20-bit immediate as its second operand -/

/-- Operations 0x0-0xD of R63: the result and the new status word; none for an illegal fn. -/
def aluFn (fn : Nat) (sw : W20) (a b : Nat) : Option (Nat × W20) :=
  let arith := fun (p : Nat × Bool × Bool) => some (p.1, swArith 20 sw p)
  let logic := fun r => some (r, swLogic sw r)
  let shift := fun (p : Nat × Option Bool) => some (p.1, swShift 20 sw p.1 p.2)
  match fn with
  | 0x0 => arith (addFlags 20 a b 0)
  | 0x1 => arith (addFlags 20 a b (bit (swC sw)))
  | 0x2 => arith (subFlags 20 a b)
  | 0x3 => arith (addFlags 20 a (2 ^ 20 - 1 - b) (bit (swC sw)))
  | 0x4 => logic (a &&& b)
  | 0x5 => logic (a ||| b)
  | 0x6 => logic (a ^^^ b)
  | 0x7 => logic (a &&& (2 ^ 20 - 1 - b))
  | 0x8 => shift (shl 20 a (b % 32))
  | 0x9 => shift (shr 20 a (b % 32))
  | 0xA => shift (sar 20 a (b % 32))
  | 0xB => shift (rotr a (b % 32))
  | 0xC => some (bit (signed 20 a < signed 20 b), swArith 20 sw (subFlags 20 a b))
  | 0xD => some (bit (a < b), swArith 20 sw (subFlags 20 a b))
  | _ => none

/-! ## Bit fields and counts (R74, R75) -/

/-- A position and width in range (R75). -/
def fieldOk (pos width : Nat) : Bool := 1 ≤ width && width ≤ 20 && pos ≤ 19 && pos + width ≤ 20

def extract (a pos width : Nat) : Nat := a / 2 ^ pos % 2 ^ width

def insert (d a pos width : Nat) : Nat :=
  d % 2 ^ pos + a % 2 ^ width * 2 ^ pos + d / 2 ^ (pos + width) * 2 ^ (pos + width)

def popCount (a : Nat) : Nat := ((List.range 20).map (fun i => a / 2 ^ i % 2)).sum

/-- Leading zeros of a 20-bit word. -/
def leadZeros (a : Nat) : Nat := ((List.range 20).find? (fun i => a / 2 ^ (19 - i) % 2 = 1)).getD 20

/-! ## Division (R73): quotient, remainder, V -/

def divU (n m : Nat) : Nat × Nat × Bool :=
  if m = 0 then (0xFFFFF, n % 2 ^ 20, true)
  else if 2 ^ 20 ≤ n / m then (0xFFFFF, 0, true)
  else (n / m, n % m, false)

def divS (n m : Int) : Nat × Nat × Bool :=
  if m = 0 then (if 0 ≤ n then 0x7FFFF else 0x80000, unsigned 20 n, true)
  else
    let q := n.tdiv m
    if 2 ^ 19 - 1 < q then (0x7FFFF, 0, true)
    else if q < -(2 ^ 19) then (0x80000, 0, true)
    else (unsigned 20 q, unsigned 20 (n.tmod m), false)

end Sys2Proof.Machine
end

