-- ==== Sys2Proof/Machine/Entry.lean ====
section
/-! DEFINITION. Exceptions, interrupts and the return from them (R81, R100, R106-R112), and the shape every Balrath
instruction shares. -/

namespace Sys2Proof.Machine

/-- Core `c` executes: it runs, the core clocks run, and no core reset waits for its stores to drain (R113). -/
def State.runs (s : State) (c : CoreId) : Bool := (s.core c).run == .running && s.clocked && !(s.core c).creset

/-- The causes of R111 by class: 1 ILLEGAL_OP, 2 FETCH_FAULT, 3 DATA_FAULT, 4 TRAP, 5 SYS, 6 PRIV_OP. -/
abbrev Cause := Nat

/-- Taking an exception (R108, R110, R111): EPCX and ESWX saved, ACT.X and ECAUSE and EADDR written, privileged mode
with every level masked, and the vector's address in pc. With ACT.X already 1 the core stops with STATE 6 and reports
CORE_DOUBLE. -/
def State.takeException (s : State) (c : CoreId) (cls : Cause) (detail : Nat) (eaddr : W20) (ret : BitVec 16) : State :=
  let x := s.core c
  if x.act.getLsbD 4 then (s.setCore c { x with run := .doubleExc }).report 6 (BitVec.ofNat 20 c.val)
  else s.setCore c { x with
    epc := x.epc.set 4 (ret.setWidth 20)
    esw := x.esw.set 4 x.sw
    act := x.act ||| 0x10
    sw := x.sw ||| 0x800F0
    ecause := BitVec.ofNat 20 (cls * 2 ^ 16 + detail)
    eaddr := eaddr
    pc := BitVec.ofNat 16 (cls - 1) }

/-- ILLEGAL_OP at the instruction's own address (R59, R81). -/
def State.illegal (s : State) (c : CoreId) : State := s.takeException c 1 0 0 (s.core c).pc

/-- PRIV_OP (R100). -/
def State.privOp (s : State) (c : CoreId) : State := s.takeException c 6 0 0 (s.core c).pc

/-- DATA_FAULT with its detail and the faulting address (R104, R111). -/
def State.dataFault (s : State) (c : CoreId) (detail : Nat) (a : W20) : State :=
  s.takeException c 3 detail a (s.core c).pc

/-- The level of line `k` (R104). -/
def CoreSt.level (x : CoreSt) (k : Nat) : Nat :=
  ((x.ilvl.toList[k / 8]?).getD 0).toNat / 4 ^ (k % 8) % 4

/-- A line the core takes an interrupt for (R107). -/
def CoreSt.takeable (x : CoreSt) (k : Nat) : Bool :=
  x.pend.getLsbD k && x.ien.getLsbD k && !x.sw.getLsbD (4 + x.level k) && !x.act.getLsbD (x.level k)

/-- The line taken: of the highest level, the lowest-numbered (R107). -/
def CoreSt.interrupt (x : CoreSt) : Option Nat :=
  [3, 2, 1, 0].findSome? (fun n => (List.range 32).find? (fun k => x.takeable k && x.level k == n))

/-- Entry for line `k` (R108): the level's bank saved, levels 0 to n masked, privileged mode, the line's vector. -/
def CoreSt.enterLine (x : CoreSt) (k : Nat) : CoreSt :=
  let n := x.level k
  { x with
    epc := x.epc.setIfInBounds n (x.pc.setWidth 20)
    esw := x.esw.setIfInBounds n x.sw
    act := x.act ||| BitVec.ofNat 5 (2 ^ n)
    sw := x.sw ||| BitVec.ofNat 20 (0x80000 + (2 ^ (n + 1) - 1) * 16)
    pc := BitVec.ofNat 16 (8 + k)
    run := .running }

/-- The highest bank in use: 4 for X, then 3 to 0 (R112). -/
def CoreSt.topBank (x : CoreSt) : Option Nat := [4, 3, 2, 1, 0].find? (fun n => x.act.getLsbD n)

/-- The return from bank `n` (R112). -/
def CoreSt.leave (x : CoreSt) (n : Nat) : CoreSt :=
  { x with
    pc := ((x.epc.toList[n]?).getD 0).setWidth 16
    sw := (x.esw.toList[n]?).getD 0
    act := x.act &&& ~~~(BitVec.ofNat 5 (2 ^ n)) }

/-- Whether a core's waits can be interrupted: it runs, is halted or gated (R105, R109). -/
def CoreRun.interruptible : CoreRun → Bool
  | .running | .halted | .inWat _ | .inWev .. | .inTake .. => true
  | _ => false

/-- A waiting `take` of core `c` is withdrawn (R96, R109). -/
def State.withdrawTake (s : State) (c : CoreId) : State :=
  s.withdraw (fun w => match w.kind with
    | .program d _ => d == c
    | _ => false)

/-! ## The shape of an instruction -/

/-- An instruction of a core that runs; of any other core the command has no effect (notes/assumptions/4.md). -/
def State.instr (s : State) (c : CoreId) (f : CoreSt → State) : Out :=
  .next (if s.runs c then f (s.core c) else s)

/-- The core after an instruction of `n` words that did not transfer control. -/
def CoreSt.advance (x : CoreSt) (n : Nat) : CoreSt := { x with pc := x.pc + BitVec.ofNat 16 n }

/-- An instruction of `n` words whose encoding is legal when `ok`; else it takes ILLEGAL_OP. -/
def State.plain (s : State) (c : CoreId) (n : Nat) (ok : Bool) (f : CoreSt → CoreSt) : Out :=
  s.instr c (fun x => if ok then s.setCore c ((f x).advance n) else s.illegal c)

end Sys2Proof.Machine
end

