-- ==== Sys2Proof/Machine/Balrath.lean ====
section
/-! DEFINITION. The Balrath instructions that touch no memory: ALU, immediates, branches and jumps, pairs, multiply and
divide, bit fields, long immediates, and trap (R63-R76, R79). -/

namespace Sys2Proof.Machine

/-! ## ALU register (R63, R64) -/

/-- An ALU operation of R63 with second operand `b`, in an instruction of `n` words. -/
def State.alu (s : State) (c : CoreId) (fn n : Nat) (d a : RegId) (b : CoreSt → W20) : Out :=
  s.instr c (fun x => match aluFn fn x.sw (x.get a).toNat (b x).toNat with
    | some (r, sw) => s.setCore c ({ x.set d (BitVec.ofNat 20 r) with sw := sw }.advance n)
    | none => s.illegal c)

def execIAdd (c : CoreId) (d a b : RegId) (s : State) : Out := s.alu c 0x0 1 d a (·.get b)
def execIAdc (c : CoreId) (d a b : RegId) (s : State) : Out := s.alu c 0x1 1 d a (·.get b)
def execISub (c : CoreId) (d a b : RegId) (s : State) : Out := s.alu c 0x2 1 d a (·.get b)
def execISbc (c : CoreId) (d a b : RegId) (s : State) : Out := s.alu c 0x3 1 d a (·.get b)
def execIAnd (c : CoreId) (d a b : RegId) (s : State) : Out := s.alu c 0x4 1 d a (·.get b)
def execIOr (c : CoreId) (d a b : RegId) (s : State) : Out := s.alu c 0x5 1 d a (·.get b)
def execIXor (c : CoreId) (d a b : RegId) (s : State) : Out := s.alu c 0x6 1 d a (·.get b)
def execIAndn (c : CoreId) (d a b : RegId) (s : State) : Out := s.alu c 0x7 1 d a (·.get b)
def execISll (c : CoreId) (d a b : RegId) (s : State) : Out := s.alu c 0x8 1 d a (·.get b)
def execISrl (c : CoreId) (d a b : RegId) (s : State) : Out := s.alu c 0x9 1 d a (·.get b)
def execISra (c : CoreId) (d a b : RegId) (s : State) : Out := s.alu c 0xA 1 d a (·.get b)
def execIRor (c : CoreId) (d a b : RegId) (s : State) : Out := s.alu c 0xB 1 d a (·.get b)
def execISlt (c : CoreId) (d a b : RegId) (s : State) : Out := s.alu c 0xC 1 d a (·.get b)
def execISltu (c : CoreId) (d a b : RegId) (s : State) : Out := s.alu c 0xD 1 d a (·.get b)

/-- `jalr` (R63, R69): the target is the value read before d is written; a[19:16] is ignored. -/
def execIJalr (c : CoreId) (d a : RegId) (s : State) : Out :=
  s.instr c (fun x => s.setCore c { x.set d ((x.pc + 1).setWidth 20) with pc := (x.get a).setWidth 16 })

/-! ## Immediates (R65, R66, R76) -/

def execIAddi (c : CoreId) (d a : RegId) (imm8 : BitVec 8) (s : State) : Out :=
  s.alu c 0x0 1 d a (fun _ => imm8.signExtend 20)

def execILui (c : CoreId) (d : RegId) (imm12 : BitVec 12) (s : State) : Out :=
  s.plain c 1 true (fun x => x.set d (BitVec.ofNat 20 (imm12.toNat * 256)))

def execILongAlu (c : CoreId) (fn : BitVec 4) (d a : RegId) (imm20 : W20) (s : State) : Out :=
  s.alu c fn.toNat 2 d a (fun _ => imm20)

def execILi (c : CoreId) (d : RegId) (imm20 : W20) (s : State) : Out := s.plain c 2 true (fun x => x.set d imm20)

/-! ## Branch, jump and call (R68, R69) -/

def execIBranch (c : CoreId) (cond : BitVec 4) (disp12 : BitVec 12) (s : State) : Out :=
  s.instr c (fun x => match condition x.sw cond.toNat with
    | some true => s.setCore c { x with pc := x.pc + 1 + disp12.signExtend 16 }
    | some false => s.setCore c (x.advance 1)
    | none => s.illegal c)

def execIJ (c : CoreId) (imm16 : BitVec 16) (s : State) : Out :=
  s.instr c (fun x => s.setCore c { x with pc := imm16 })

def execICall (c : CoreId) (imm16 : BitVec 16) (s : State) : Out :=
  s.instr c (fun x => s.setCore c { x.set 15 ((x.pc + 1).setWidth 20) with pc := imm16 })

/-! ## Pairs (R70, R71) -/

/-- A pair result with its status word. -/
def CoreSt.pairResult (x : CoreSt) (d : RegId) (r : Nat) (sw : W20) : CoreSt := { x.setPair d r with sw := sw }

def State.pairArith (s : State) (c : CoreId) (ok : Bool) (d a : RegId)
    (f : CoreSt → Nat → Nat × Bool × Bool) : Out :=
  s.plain c 1 (isPair d && isPair a && ok)
    (fun x => x.pairResult d (f x (x.pair a)).1 (swArith 40 x.sw (f x (x.pair a))))

def execIPadd (c : CoreId) (d a b : RegId) (s : State) : Out :=
  s.pairArith c (isPair b) d a (fun x v => addFlags 40 v (x.pair b) 0)

def execIPsub (c : CoreId) (d a b : RegId) (s : State) : Out :=
  s.pairArith c (isPair b) d a (fun x v => subFlags 40 v (x.pair b))

def execIPcmp (c : CoreId) (a b : RegId) (s : State) : Out :=
  s.plain c 1 (isPair a && isPair b)
    (fun x => { x with sw := swArith 40 x.sw (subFlags 40 (x.pair a) (x.pair b)) })

def execIPaddsx (c : CoreId) (d a b : RegId) (s : State) : Out :=
  s.pairArith c true d a (fun x v => addFlags 40 v ((x.get b).signExtend 40).toNat 0)

def execIPaddzx (c : CoreId) (d a b : RegId) (s : State) : Out :=
  s.pairArith c true d a (fun x v => addFlags 40 v (x.get b).toNat 0)

def State.pairShift (s : State) (c : CoreId) (d a b : RegId) (f : Nat → Nat → Nat × Option Bool) : Out :=
  s.plain c 1 (isPair d && isPair a) (fun x =>
    let p := f (x.pair a) ((x.get b).toNat % 64)
    x.pairResult d p.1 (swShift 40 x.sw p.1 p.2))

def execIPsll (c : CoreId) (d a b : RegId) (s : State) : Out := s.pairShift c d a b (shl 40)
def execIPsrl (c : CoreId) (d a b : RegId) (s : State) : Out := s.pairShift c d a b (shr 40)
def execIPsra (c : CoreId) (d a b : RegId) (s : State) : Out := s.pairShift c d a b (sar 40)

def execIPmov (c : CoreId) (d a : RegId) (s : State) : Out :=
  s.plain c 1 (isPair d && isPair a) (fun x => x.setPair d (x.pair a))

/-! ## Multiply and divide (R72, R73) -/

def execIMul (c : CoreId) (d a b : RegId) (s : State) : Out :=
  s.plain c 1 true (fun x =>
    let r := (x.get a).toNat * (x.get b).toNat % 2 ^ 20
    { x.set d (BitVec.ofNat 20 r) with sw := swMul 20 x.sw r })

/-- The signed or unsigned product modulo 2^40. -/
def product (sgn : Bool) (a b : W20) : Nat :=
  if sgn then unsigned 40 (a.toInt * b.toInt) else a.toNat * b.toNat

/-- A product written to a pair, added to the pair's value when `acc`. -/
def State.pairMul (s : State) (c : CoreId) (sgn acc : Bool) (d a b : RegId) : Out :=
  s.plain c 1 (isPair d) (fun x =>
    let r := ((if acc then x.pair d else 0) + product sgn (x.get a) (x.get b)) % 2 ^ 40
    x.pairResult d r (swMul 40 x.sw r))

def execIMuluP (c : CoreId) (d a b : RegId) (s : State) : Out := s.pairMul c false false d a b
def execIMulsP (c : CoreId) (d a b : RegId) (s : State) : Out := s.pairMul c true false d a b
def execIMacuP (c : CoreId) (d a b : RegId) (s : State) : Out := s.pairMul c false true d a b
def execIMacsP (c : CoreId) (d a b : RegId) (s : State) : Out := s.pairMul c true true d a b

/-- A 40/20 divide: the quotient to the pair's odd register, the remainder to its even one. -/
def State.pairDiv (s : State) (c : CoreId) (d a : RegId) (f : CoreSt → Nat × Nat × Bool) : Out :=
  s.plain c 1 (isPair d && isPair a) (fun x =>
    let (q, r, v) := f x
    { (x.set (oddOf d) (BitVec.ofNat 20 q)).set d (BitVec.ofNat 20 r) with sw := swDiv x.sw q v })

def execIDivuP (c : CoreId) (d a b : RegId) (s : State) : Out :=
  s.pairDiv c d a (fun x => divU (x.pair a) (x.get b).toNat)

def execIDivsP (c : CoreId) (d a b : RegId) (s : State) : Out :=
  s.pairDiv c d a (fun x => divS (signed 40 (x.pair a)) (x.get b).toInt)

/-- A 20/20 divide or remainder, its flags on the value written (R61, R72). -/
def State.wordDiv (s : State) (c : CoreId) (d : RegId) (rem : Bool) (f : CoreSt → Nat × Nat × Bool) : Out :=
  s.plain c 1 true (fun x =>
    let (q, r, v) := f x
    let y := if rem then r else q
    { x.set d (BitVec.ofNat 20 y) with sw := swDiv x.sw y v })

def execIDivu (c : CoreId) (d a b : RegId) (s : State) : Out :=
  s.wordDiv c d false (fun x => divU (x.get a).toNat (x.get b).toNat)

def execIDivs (c : CoreId) (d a b : RegId) (s : State) : Out :=
  s.wordDiv c d false (fun x => divS (x.get a).toInt (x.get b).toInt)

def execIRemu (c : CoreId) (d a b : RegId) (s : State) : Out :=
  s.wordDiv c d true (fun x => divU (x.get a).toNat (x.get b).toNat)

def execIRems (c : CoreId) (d a b : RegId) (s : State) : Out :=
  s.wordDiv c d true (fun x => divS (x.get a).toInt (x.get b).toInt)

/-! ## Bit fields (R74, R75) -/

/-- A shift by an immediate; an amount of 20 or more is illegal. -/
def State.shiftImm (s : State) (c : CoreId) (d a : RegId) (n : BitVec 5) (f : Nat → Nat → Nat × Option Bool) : Out :=
  s.plain c 1 (n.toNat < 20) (fun x =>
    let p := f (x.get a).toNat n.toNat
    { x.set d (BitVec.ofNat 20 p.1) with sw := swShift 20 x.sw p.1 p.2 })

def execISlli (c : CoreId) (d a : RegId) (n : BitVec 5) (s : State) : Out := s.shiftImm c d a n (shl 20)
def execISrli (c : CoreId) (d a : RegId) (n : BitVec 5) (s : State) : Out := s.shiftImm c d a n (shr 20)
def execISrai (c : CoreId) (d a : RegId) (n : BitVec 5) (s : State) : Out := s.shiftImm c d a n (sar 20)
def execIRori (c : CoreId) (d a : RegId) (n : BitVec 5) (s : State) : Out := s.shiftImm c d a n rotr

/-- A result under the count rule. -/
def State.count (s : State) (c : CoreId) (n : Nat) (ok : Bool) (d : RegId) (f : CoreSt → Nat) : Out :=
  s.plain c n ok (fun x => { x.set d (BitVec.ofNat 20 (f x)) with sw := swCount x.sw (f x) })

def execIExtu (c : CoreId) (d a : RegId) (pos width : BitVec 5) (s : State) : Out :=
  s.count c 2 (fieldOk pos.toNat width.toNat) d (fun x => extract (x.get a).toNat pos.toNat width.toNat)

def execIExts (c : CoreId) (d a : RegId) (pos width : BitVec 5) (s : State) : Out :=
  s.count c 2 (fieldOk pos.toNat width.toNat) d
    (fun x => unsigned 20 (signed width.toNat (extract (x.get a).toNat pos.toNat width.toNat)))

def execIIns (c : CoreId) (d a : RegId) (pos width : BitVec 5) (s : State) : Out :=
  s.count c 2 (fieldOk pos.toNat width.toNat) d
    (fun x => insert (x.get d).toNat (x.get a).toNat pos.toNat width.toNat)

def execIClz (c : CoreId) (d a : RegId) (s : State) : Out := s.count c 1 true d (fun x => leadZeros (x.get a).toNat)

def execIPopc (c : CoreId) (d a : RegId) (s : State) : Out := s.count c 1 true d (fun x => popCount (x.get a).toNat)

/-! ## Exceptions raised by instructions (R59, R49, R79, R103) -/

/-- `trap` (R79, R110): EPCX holds the address after it. -/
def execITrap (c : CoreId) (imm12 : BitVec 12) (s : State) : Out :=
  s.instr c (fun x => s.takeException c 4 imm12.toNat 0 (x.pc + 1))

/-- `sys` (R103, R110). -/
def execISys (c : CoreId) (imm8 : BitVec 8) (s : State) : Out :=
  s.instr c (fun x => s.takeException c 5 imm8.toNat 0 (x.pc + 1))

end Sys2Proof.Machine
end

