-- ==== Sys2Proof/Machine/Access.lean ====
section
/-! DEFINITION. Which master may reach which register (R100, R101, R131, R132, R305). -/

namespace Sys2Proof.Machine

/-- Whether CC_TASKPERM permits every register block that the access touches (R100, R101). -/
def State.taskMay (s : State) (c : CoreId) (a n : Nat) : Bool :=
  let p := s.rg (CC_TASKPERM c.val)
  p.getLsbD ((a - 0xC0000) / 0x1000) && p.getLsbD ((a + n - 1 - 0xC0000) / 0x1000)

/-! ## The host (R131, R132) -/

/-- AWAKE: RUN or DOZE (R131). -/
def State.awake (s : State) : Bool := s.busRuns

/-- The host may reach SRAM, the ROM view or a register at `a` (R132). -/
def State.hostMay (s : State) (a : Nat) : Bool :=
  if a < 0xA0000 then (s.rg HSP_BANKPERM).getLsbD (a / 0x10000)
  else if 0xC0000 ≤ a ∧ a < 0xD4000 then
    a / 4 * 4 == HSP_FLAGS || a / 4 * 4 == HSP_H2C || (s.rg HSP_PERM).getLsbD ((a - 0xC0000) / 0x1000)
  else if 0xF0000 ≤ a ∧ a < 0x100000 then s.test HSP_BANKPERM_ROM
  else false

/-- The cause of a refusal at `a`: 2 where the host's map has nothing, else 1. -/
def hostCause (a : Nat) : Nat :=
  if a < 0xA0000 ∨ (0xC0000 ≤ a ∧ a < 0xD4000) ∨ (0xF0000 ≤ a ∧ a < 0x100000) then 1 else 2

/-- A host access was refused or failed. -/
def State.hitchErr (cause : Nat) (s : State) : State := (s.put HSP_FLAGS_CAUSE cause).put HSP_FLAGS_ERR 1

/-! ## The debug port (R305) -/

/-- What a debug access is to: core halt, step, registers and lofts; core space; the wide space. -/
inductive DebugScope
  | cores | space | wide
deriving DecidableEq, Repr

/-- A scope is open to the debug port: before SEAL, or by an accepted DBG_UNLOCK (R305). -/
def State.debugOpen (s : State) (k : DebugScope) : Bool :=
  !s.otp.isSealed || (s.test TRUST_STATE_DBG_OPEN && (BitVec.ofNat 3 (s.get TRUST_STATE_SCOPE)).getLsbD
    (match k with
     | .cores => 0
     | .space => 1
     | .wide => 2))

/-- The registers of the keeper mailbox. -/
def mailbox (a : Nat) : Bool := KMB_ORDER ≤ a && a < UPD_CMD

/-- The debug port may reach the register at `a` (R305): the mailbox always, the core control registers with either of
the first two scopes, any other with the second. -/
def State.debugMay (s : State) (a : Nat) : Bool :=
  mailbox a || s.debugOpen .space || (a / 0x1000 == 0xD2 && s.debugOpen .cores)

/-! ## Register accesses -/

/-- A master may reach the register at `a`. -/
def State.mayReach (s : State) (src : Source) (a : Nat) : Bool :=
  match src with
  | .core c priv => priv || s.taskMay c a 1
  | .host => s.awake && s.hostMay a
  | .debug => s.debugMay a
  | _ => true

/-- What a master's write of the register at `a` does, where the master may reach it; a host that may not is refused
in HSP_FLAGS (R132), any other has no effect. -/
def State.reachWith (s : State) (src : Source) (a : Nat) (f : State → State) : State :=
  if s.mayReach src a then f s
  else if src = .host ∧ s.awake then s.hitchErr (hostCause a)
  else s

/-- Privileged mode of a core (R100). -/
def privCore : Source → Bool
  | .core _ p => p
  | _ => false

end Sys2Proof.Machine
end

