-- ==== Sys2Proof/Machine/Coding.lean ====
section
/-! DEFINITION. The frame's checks, whitening, block sizes and the LDPC code's encoder (R196-R207, R219-R221). -/

namespace Sys2Proof.Machine

/-! ## Bits and checks -/

/-- The bits of a byte, most significant first (R197). -/
def bitsMsb (b : BitVec 8) : List Bool := (List.range 8).map (fun i => b.getLsbD (7 - i))

/-- The bits of a byte, least significant first (R219). -/
def bitsLsb (b : BitVec 8) : List Bool := (List.range 8).map (fun i => b.getLsbD i)

/-- `n` bits of a number, most significant first. -/
def natBits (n v : Nat) : List Bool := (List.range n).map (fun i => v.testBit (n - 1 - i))

/-- A number from its bits, most significant first. -/
def bitsNat (l : List Bool) : Nat := l.foldl (fun v b => 2 * v + (if b then 1 else 0)) 0

/-- A number from its bits, least significant first. -/
def bitsNatLsb (l : List Bool) : Nat := bitsNat l.reverse

/-- Bytes from bits, most significant first; a rest of fewer than 8 bits is dropped. -/
def packMsb : Nat → List Bool → List Byte
  | 0, _ => []
  | n + 1, l => if l.length < 8 then [] else BitVec.ofNat 8 (bitsNat (l.take 8)) :: packMsb n (l.drop 8)

/-- Bytes from bits, least significant first. -/
def packLsb : Nat → List Bool → List Byte
  | 0, _ => []
  | n + 1, l => if l.length < 8 then [] else BitVec.ofNat 8 (bitsNatLsb (l.take 8)) :: packLsb n (l.drop 8)

/-- A CRC register of `n` bits fed most significant bit first: generator `g` with its top term implicit. -/
def crcRun (n : Nat) (g : Nat) (r : Nat) (l : List Bool) : Nat :=
  l.foldl (fun r b =>
    let top := r.testBit (n - 1) != b
    let s := r * 2 % 2 ^ n
    if top then Nat.xor s g else s) r

/-- The CRC-12 of a header word or of count and ASN bits (R199). -/
def crc12 (n v : Nat) : Nat := crcRun 12 0x80F 0 (natBits n v)

/-- The CRC-24 of bytes (R202). -/
def crc24 (l : List Byte) : Nat := crcRun 24 0x84C8A5 0xFFFFFF (l.flatMap bitsMsb)

/-- The first `n` bits of the PN9 sequence x^9 + x^5 + 1 from register `r` (R198): each output is the register's low
bit, and the new top bit is the sum of the bits of x^0 and x^5. -/
def pn9 : Nat → Nat → List Bool
  | 0, _ => []
  | n + 1, r => r.testBit 0 :: pn9 n (r / 2 + (if r.testBit 0 != r.testBit 5 then 256 else 0))

/-- Bits whitened, or de-whitened, from output `o` of the generator on (R198). -/
def whitenAt (o : Nat) (l : List Bool) : List Bool := List.zipWith (· != ·) l ((pn9 (o + l.length) 0x1FF).drop o)

/-- Body bits whitened, or de-whitened (R198). -/
def whiten (l : List Bool) : List Bool := whitenAt 0 l

/-! ## Header and blocks (R199-R204) -/

/-- A header word. -/
def headerWord (len rate bs mode : Nat) : Nat := len * 2 ^ 9 + rate * 2 ^ 7 + bs * 2 ^ 6 + mode * 2 ^ 4

/-- The extended header word of 32 bits (R199). -/
def headerExt (w : Nat) : Nat := w * 2 ^ 12 + crc12 20 w

/-- Information bits of a block: 24 - mb columns of Z (R201). -/
def codeZ (bs : Nat) : Nat := if bs = 0 then 40 else 20
def codeRows (rate : Nat) : Nat := match rate with | 0 => 12 | 1 => 8 | _ => 4
def codeK (rate bs : Nat) : Nat := (24 - codeRows rate) * codeZ bs

/-- Data bytes of a block (R201). -/
def codeD (rate bs : Nat) : Nat := codeK rate bs / 8 - 3

/-- Blocks of a frame of `len` bytes; an uncoded frame's body counts as one. -/
def blockCount (len rate bs : Nat) : Nat := if rate = 3 then 1 else (len + codeD rate bs - 1) / codeD rate bs

/-- Body bits of a frame (R203, R204). -/
def bodyBits (len rate bs : Nat) : Nat :=
  if rate = 3 then 8 * len + 24
  else
    let b := blockCount len rate bs
    b * 24 * codeZ bs - 8 * (b * codeD rate bs - len)

/-- Data bytes of block `b` of a coded frame: the last block has fewer, and fill bytes in place of the rest (R201). -/
def blockData (len rate bs b : Nat) : Nat := min (codeD rate bs) (len - b * codeD rate bs)

/-- `n` bits: those of `l`, and 0 for what it lacks. -/
def bitsTo (n : Nat) (l : List Bool) : List Bool := l.take n ++ List.replicate (n - l.length) false

/-- The codeword of a block from its bits as sent, `d` of its data bytes among them: the fill positions are 0 (R203).
-/
def codeFill (rate bs d : Nat) (sent : List Bool) : List Bool :=
  sent.take (8 * d) ++ List.replicate (8 * (codeD rate bs - d)) false ++ sent.drop (8 * d)

/-- Hard decisions of a whole codeword with the fill positions at their known value 0 (R203). -/
def codeKnown (rate bs d : Nat) (hard : List Bool) : List Bool :=
  codeFill rate bs d (hard.take (8 * d) ++ hard.drop (8 * codeD rate bs))

/-! ## The LDPC code (R205-R207) -/

/-- The presence masks of the base rows (R205). -/
def codeMasks (rate : Nat) : List Nat :=
  match rate with
  | 0 => [0x00108B, 0x003116, 0x00622C, 0x00C458, 0x0188B0, 0x030161, 0x0602C2, 0x0C0584, 0x180B08, 0x300611,
          0x600C22, 0xC00845]
  | 1 => [0x012493, 0x03924C, 0x064932, 0x0C24C9, 0x189324, 0x304C92, 0x603249, 0xC0C924]
  | _ => [0x159359, 0x3A36A3, 0x656C56, 0xCAC9AC]

/-- The shift of an information column (R206). -/
def codeShift (z i j : Nat) : Nat := (7 * i * j + 3 * i + 11 * j) % z

/-- The parity bits of information bits `u` (R207). -/
def codeParity (rate bs : Nat) (u : List Bool) : List Bool :=
  let z := codeZ bs
  let kb := 24 - codeRows rate
  let rows := (codeMasks rate).zipIdx
  (rows.foldl (fun (st : List Bool × List Bool) row =>
    let acc := (List.range z).map (fun r =>
      (List.range kb).foldl (fun (b : Bool) j =>
        if row.1.testBit j then b != (u[j * z + (r + codeShift z row.2 j) % z]?).getD false else b)
        ((st.1[r]?).getD false))
    (acc, st.2 ++ acc)) (List.replicate z false, [])).2

/-- `z` bits rotated so that bit `r` is bit `(r + s) mod z` of `v`. -/
def rotBits (z s v : Nat) : Nat := (v / 2 ^ s + v * 2 ^ (z - s)) % 2 ^ z

/-- Every check of the code holds on codeword `c`: its syndrome is zero (R206). -/
def synZero (rate bs : Nat) (c : List Bool) : Bool :=
  let z := codeZ bs
  let kb := 24 - codeRows rate
  let cols := (List.range 24).map (fun j => bitsNatLsb ((c.drop (j * z)).take z))
  (codeMasks rate).zipIdx.all (fun row =>
    cols.zipIdx.foldl (fun acc col =>
      if row.1.testBit col.2 then Nat.xor acc (rotBits z (if col.2 < kb then codeShift z row.2 col.2 else 0) col.1)
      else acc) 0 == 0)

/-- Decoder cycles of one iteration: the sum over the base rows of 4 × row weight + 9 (R209). -/
def iterCycles (rate : Nat) : Nat := match rate with | 0 => 392 | 1 => 324 | _ => 224

/-- The bits of block `b` of a coded frame as sent (R201, R203): information and parity, fill bytes left out. -/
def blockBits (rate bs : Nat) (payload : List Byte) (b : Nat) : List Bool :=
  let d := codeD rate bs
  let part := (payload.drop (b * d)).take d
  let full := part ++ List.replicate (d - part.length) 0
  let info := full.flatMap bitsMsb ++ natBits 24 (crc24 full)
  let sent := part.flatMap bitsMsb ++ natBits 24 (crc24 full)
  sent ++ codeParity rate bs info

/-! ## SUN FSK (R219-R221) -/

/-- The 32-bit FCS of IEEE 802.15.4 (PRESUMED, notes/assumptions/13.md): reflected CRC-32, complemented. -/
def fcs32 (l : List Byte) : Nat :=
  let r := (l.flatMap bitsLsb).foldl (fun r b =>
    let low := r.testBit 0 != b
    if low then Nat.xor (r / 2) 0xEDB88320 else r / 2) 0xFFFFFFFF
  Nat.xor r 0xFFFFFFFF

/-- The 16-bit FCS of IEEE 802.15.4: reflected ITU-T CRC-16 from 0. -/
def fcs16 (l : List Byte) : Nat :=
  (l.flatMap bitsLsb).foldl (fun r b =>
    let low := r.testBit 0 != b
    if low then Nat.xor (r / 2) 0x8408 else r / 2) 0

/-- A short PSDU's FCS of 4 octets covers at least 4 octets: the standard pads it with zeros. -/
def fcsOf (two : Bool) (l : List Byte) : List Byte :=
  if two then [BitVec.ofNat 8 (fcs16 l), BitVec.ofNat 8 (fcs16 l / 256)]
  else
    let v := fcs32 (l ++ List.replicate (4 - l.length) 0)
    (List.range 4).map (fun i => BitVec.ofNat 8 (v / 256 ^ i))

/-- The PHR of a PPDU with `n` octets of PSDU (PRESUMED, notes/assumptions/13.md): mode switch [15], FCS type [12],
DW [11], frame length [10:0]. -/
def phrWord (two dw : Bool) (n : Nat) : Nat := (if two then 2 ^ 12 else 0) + (if dw then 2 ^ 11 else 0) + n

/-- The standard's data whitening (R219, PRESUMED, notes/assumptions/13.md): its PN9 begins 0000 1111 0111, nine bits
after the nine ones of its seed. -/
def sunWhiten (l : List Bool) : List Bool := whitenAt 9 l

/-- The bits of a SUN FSK PSDU with its FCS, whitened where DW says so. -/
def sunBody (two dw : Bool) (payload : List Byte) : List Bool :=
  let psdu := (payload ++ fcsOf two payload).flatMap bitsLsb
  if dw then sunWhiten psdu else psdu

/-- Octets of the FCS that a PHR names, and the whitening it states (notes/assumptions/13.md). -/
def phrFcs (phr : Nat) : Nat := if phr.testBit 12 then 2 else 4
def phrDw (phr : Nat) : Bool := phr.testBit 11

/-! ## Bits and symbols (R172, R197, R219) -/

/-- A bit sent one to a symbol, as preamble and sync word are: the outermost values, ±1 or ±3 (R172). -/
def symOne (order : Nat) (b : Bool) : Int := (if b then 1 else -1) * (if order = 2 then 3 else 1)

/-- The symbols of header and body bits, `order` bits to a symbol (R197); the pairs of SUN 4-FSK are the standard's,
which the spec does not print: PRESUMED, 01, 00, 10 and 11 are -3, -1, +1 and +3 (notes/assumptions/13.md). -/
def symbolsOf (order : Nat) (sun : Bool) : List Bool → List Int
  | [] => []
  | a :: l =>
    if order = 2 then match l with
      | [] => []
      | b :: r =>
        (match a, b with
        | false, true => if sun then -3 else 3
        | false, false => if sun then -1 else 1
        | true, false => if sun then 1 else -1
        | true, true => if sun then 3 else -3) :: symbolsOf order sun r
    else symOne 1 a :: symbolsOf order sun l

/-- `n` preamble symbols: alternating, the positive value first (R172). -/
def preambleSyms (order n : Nat) : List Int := (List.range n).map (fun i => symOne order (i % 2 == 0))

/-- A countdown unit (R232): 8 preamble symbols, the complement of the sync word, the count, the ASN and their CRC-12.
-/
def countUnit (order : Nat) (sync : BitVec 32) (n asn : Nat) : List Int :=
  let v := n % 2 ^ 20 * 2 ^ 20 + asn % 2 ^ 20
  preambleSyms order 8 ++
    (natBits 32 (~~~sync).toNat ++ natBits 40 v ++ natBits 12 (crc12 40 v)).map (symOne order)

/-- What is sent up to the end of the sync word (R196, R233): the preamble, `u` countdown units with 16 more preamble
symbols where there are any, and the last `len` bits of the sync word. -/
def leadSyms (order pre u asn len : Nat) (sync : BitVec 32) : List Int :=
  preambleSyms order pre ++
    (if u = 0 then [] else (List.range u).flatMap (fun i => countUnit order sync (u - 1 - i) asn) ++ preambleSyms order 16) ++
    (natBits len sync.toNat).map (symOne order)

/-! ## The modulator's filter (R150) -/

/-- The first `n` terms of the series of exp(-e / 2^64), scaled by 2^64, from its term `i` of size `t` on. -/
def expSeries (e : Nat) : Nat → Nat → Nat → Int
  | 0, _, _ => 0
  | n + 1, i, t => (t : Int) - expSeries e n (i + 1) (t * e / 2 ^ 64 / (i + 1))

/-- exp(-e / 2^64) scaled by 2^64: the series at e / 128, squared seven times. -/
def expNeg (e : Nat) : Nat :=
  (List.range 7).foldl (fun v _ => v * v / 2 ^ 64) (expSeries (e / 128) 30 0 (2 ^ 64)).toNat

/-- The Gaussian curve of BT = 0.3 + 0.1 × SHAPE at tap `k`, scaled by 2^64: exp(-2 π² BT² x² / ln 2), where `x` is
the tap's distance in symbols from the middle of the 32 taps, 8 to a symbol (notes/assumptions/53.md). -/
def gaussTap (shape k : Nat) : Nat :=
  expNeg (525320080934550082037 * (3 + shape) ^ 2 * ((2 * k : Nat) - 31 : Int).natAbs ^ 2 / 25600)

/-- A coefficient of the curve before its rounding: the taps in proportion to it, with the sum 2^18. -/
def gaussFloor (shape k : Nat) : Nat := 2 ^ 18 * gaussTap shape k / ((List.range 32).map (gaussTap shape)).sum

/-- A Gaussian coefficient, rounded down or up. -/
def gaussCoef (shape k : Nat) : Int := (gaussFloor shape k + (if Config.gaussUp shape k then 1 else 0) : Nat)

/-- A filter coefficient: Gaussian for SHAPE 0-7, the last making their sum 2^18, else the program's `c k`. -/
def shapeCoef (shape : Nat) (c : Nat → Int) (k : Nat) : Int :=
  if 8 ≤ shape then c k
  else if k < 31 then gaussCoef shape k
  else 2 ^ 18 - ((List.range 31).map (gaussCoef shape)).sum

/-- The filter's output at sample `n`: each symbol held for 8 samples, 32 taps, saturating at ±2^19; the deviation is
this times DEV × 36.621 Hz / 2^18. -/
def shapeOut (coef : Nat → Int) (syms : List Int) (n : Nat) : Int :=
  let s := fun (i : Nat) => if n < i then 0 else (syms[(n - i) / 8]?).getD 0
  max (-(2 ^ 19)) (min (2 ^ 19) ((List.range 32).map (fun k => coef k * s k)).sum)

end Sys2Proof.Machine
end

