-- ==== Sys2Proof/Machine/Wear.lean ====
section
/-! DEFINITION. Wear tracking and spare records (R466-R471): the trackers of corrected errors, the spare-record rows of
OTP, and the yard candidates. -/

namespace Sys2Proof.Machine

/-- A spare record committed to OTP and its SUBST report; with no row left, OTP_ROWS_OUT (R470, R471). -/
def State.commitSpare (kind idx : Nat) (s : State) : State :=
  if 64 ≤ s.otp.rows then s.report 33 0
  else
    let t := { s with otp := { s.otp with rows := s.otp.rows + 1, spares := s.otp.spares ++ [(kind, idx)] } }
    (t.put FLT_SPARE_OTPROWS t.otp.rows).report 34 (BitVec.ofNat 20 (kind * 2 ^ 16 + idx))

/-- A spare record tried: a row whose programming fails counts as used and holds nothing (R470). -/
def State.spareTry (s : State) (kind idx : Nat) (ok : Bool) : State :=
  if ok ∨ 64 ≤ s.otp.rows then s.commitSpare kind idx
  else
    let t := { s with otp := { s.otp with rows := s.otp.rows + 1 } }
    t.put FLT_SPARE_OTPROWS t.otp.rows

/-- A spare record tried in service: whether its row's programming fails is open (R470, notes/assumptions/59.md). -/
def State.spareOpen (s : State) (kind idx : Nat) : State :=
  let (n, t) := s.fresh
  t.spareTry kind idx (Config.freeBit n 0)

/-- The tracker with its row's count one higher: the row's entry, a free entry, or else the entry with the lowest
count, the older among equals (R466).  Answers the new tracker and the row's count. -/
def trackBump (t : List Track) (row : Nat) : List Track × Nat :=
  match t.find? (fun e => e.row == row) with
  | some e => (t.map (fun x => if x.row = row then { x with count := x.count + 1 } else x), e.count + 1)
  | none =>
    if t.length < 8 then (t ++ [⟨row, 1⟩], 1)
    else
      let low := t.foldl (fun m x => min m x.count) ((t.head?.map (·.count)).getD 0)
      let out := (t.find? (fun e => e.count == low)).map (·.row)
      (t.filter (fun e => some e.row != out) ++ [⟨row, 1⟩], 1)

/-- The count at which a row is substituted (R466). -/
def State.ceThreshold (s : State) : Nat := max 1 (s.get FLT_CFG_CETHR)

/-- A corrected error in row `idx` (as R471 numbers it) of shared SRAM (kind 2) or a loft (kind 3). -/
def State.trackRow (kind idx : Nat) (s : State) : State :=
  if s.faults.doneRow.contains (kind, idx) then s
  else
    let tr := if kind = 2 then s.faults.trkSram else s.faults.trkLoft
    let (tr, n) := trackBump tr idx
    let full := s.ceThreshold ≤ n
    let tr := if full then tr.filter (fun e => e.row != idx) else tr
    let t := { s with faults :=
      if kind = 2 then { s.faults with trkSram := tr } else { s.faults with trkLoft := tr } }
    if full then
      { t with faults := { t.faults with doneRow := (kind, idx) :: t.faults.doneRow } }.spareOpen kind idx
    else t

/-- A yard row becomes a candidate in the first free FLT_YCAND, and SUBST is logged; with none free, CAND_FULL
(R466).  A row is numbered channel, bank group and bank, row: (8 x ch + 4 x BG + BA) x 2^17 + row. -/
def State.candidate (row : Nat) (ue : Bool) (s : State) : State :=
  match (List.range 8).find? (fun k => !s.test (FLT_YCAND_LO_VALID k)) with
  | none => s.raise FLT_FLAGS_CAND_FULL
  | some k =>
    let b := row / 2 ^ 17
    let t := s.setRg (FLT_YCAND_LO k)
      (BitVec.ofNat 20 (2 ^ 19 + bit ue * 2 ^ 18 + b / 8 % 2 * 2 ^ 17 + b / 4 % 2 * 2 ^ 16 + b % 4 * 2 ^ 14))
    (t.setRg (FLT_YCAND_HI k) (BitVec.ofNat 20 (row % 2 ^ 17))).report 34 (BitVec.ofNat 20 (5 * 2 ^ 16 + k))

/-- A corrected error in a yard row: it becomes a candidate as its count reaches CETHR, and its entry stays (R466). -/
def State.trackYard (row : Nat) (s : State) : State :=
  let (tr, n) := trackBump s.faults.trkYard row
  let t := { s with faults := { s.faults with trkYard := tr } }
  if n = s.ceThreshold then t.candidate row false else t

/-- Slow-clock cycles of FLT_CFG.WIN hours; 0 is taken as 1 (R466). -/
def State.wearWindow (s : State) : Nat := max 1 (s.get FLT_CFG_WIN) * 3600 * 32768

/-- A slow-clock edge of the wear window (R466). -/
def State.wearEdge (s : State) : State := { s with faults := { s.faults with slow := s.faults.slow + 1 } }

/-- TRACKER_HALVING (R466): once WIN hours of the slow clock have passed, every count is halved, rounding down. -/
def execTrackerHalving (s : State) : Out := s.during s.notDormant <|
  let h := fun (l : List Track) => l.map (fun e => { e with count := e.count / 2 })
  .next (if s.faults.slow < s.wearWindow then s
    else { s with faults := { s.faults with
      trkSram := h s.faults.trkSram, trkLoft := h s.faults.trkLoft, trkYard := h s.faults.trkYard, slow := 0 } })

end Sys2Proof.Machine
end

