-- ==== Sys2Proof/Machine/Mem.lean ====
section
/-! DEFINITION. On-chip memory: shared SRAM, the cores' private data RAMs, the lofts and the boot ROM, with their check
states (R49-R55, R115, R116, R118). -/

namespace Sys2Proof.Machine

/-- A byte-addressed on-chip memory with 32-bit check groups. -/
inductive Ram
  | sram
  | pram (c : CoreId)
deriving DecidableEq, Repr

/-- The table key of a byte: SRAM by address, a private RAM by core and offset. -/
def Ram.key : Ram → Nat → Nat
  | .sram, a => a
  | .pram c, a => c.val * 0x4000 + a % 0x4000

/-- The key of a byte's 32-bit group among the check states. -/
def Ram.group : Ram → Nat → Nat
  | .sram, a => a / 4
  | .pram c, a => 0x100000 + (c.val * 0x4000 + a % 0x4000) / 4

/-- Fault codes for a corrected and an uncorrectable error (R460). -/
def Ram.ce : Ram → Nat
  | .sram => 7
  | .pram _ => 11

/-- DETAIL of an error in the group at `a` (R460). -/
def Ram.detail : Ram → Nat → W20
  | .sram, a => BitVec.ofNat 20 (a / 4 * 4)
  | .pram c, a => BitVec.ofNat 20 (c.val * 2 ^ 18 + a % 0x4000 / 4 * 4)

/-- A byte nothing has written reads 0 (notes/assumptions/7.md). -/
def byteDflt : Nat → Byte := fun _ => 0

def chkDflt : Nat → Chk := fun _ => .good

/-- A loft word nothing has written (R51). -/
def loftDflt : Nat → W20 := fun _ => 0xFFFFF

def State.byte (s : State) (r : Ram) (a : Nat) : Byte :=
  match r with
  | .sram => tabGet byteDflt s.sram (r.key a)
  | .pram _ => tabGet byteDflt s.pram (r.key a)

def State.setByte (s : State) (r : Ram) (a : Nat) (b : Byte) : State :=
  match r with
  | .sram => { s with sram := tabSet byteDflt s.sram (r.key a) b }
  | .pram _ => { s with pram := tabSet byteDflt s.pram (r.key a) b }

def State.chk (s : State) (k : Nat) : Chk := tabGet chkDflt s.memChk k

def State.setChk (s : State) (k : Nat) (c : Chk) : State := { s with memChk := tabSet chkDflt s.memChk k c }

/-- `n` bytes from `a` in address order. -/
def State.bytes (s : State) (r : Ram) (a : Nat) : Nat → List Byte
  | 0 => []
  | n + 1 => s.byte r a :: State.bytes s r (a + 1) n

def State.setBytes (s : State) (r : Ram) (a : Nat) : List Byte → State
  | [] => s
  | b :: l => State.setBytes (s.setByte r a b) r (a + 1) l

/-- The addresses of the 32-bit groups that `n` bytes at `a` touch. -/
def groupsOf (a n : Nat) : List Nat :=
  if n = 0 then [] else (List.range ((a + n - 1) / 4 - a / 4 + 1)).map (fun i => a / 4 * 4 + 4 * i)

/-- A corrected error counted against its row (R466). -/
def State.ramTrack (r : Ram) (g : Nat) (s : State) : State :=
  match r with
  | .sram => s.trackRow 2 (128 * (g / 0x10000) + g % 0x10000 / 512)
  | .pram _ => s

/-- The groups of `ces` are written back corrected and those of `ues` left; their reports are logged in the order of
their codes, that of a spare record last (R115, R464, R466). -/
def State.ramErrors (r : Ram) (ces ues : List Nat) (s : State) : State :=
  let t := ces.foldl (fun (t : State) g => (t.setChk (r.group g) .good).report r.ce (r.detail g)) s
  let t := ues.foldl (fun (t : State) g => t.report (r.ce + 1) (r.detail g)) t
  ces.foldl (fun (t : State) g => t.ramTrack r g) t

/-- An error in this group cannot be corrected. -/
def State.ramBad (s : State) (r : Ram) (g : Nat) : Bool := s.chk (r.group g) == .bad || s.chk (r.group g) == .poison

/-- A read of `n` bytes (R115): corrected errors are put right; none where a group holds an error that cannot be
corrected. -/
def State.ramRead (s : State) (r : Ram) (a n : Nat) : Option (List Byte) × State :=
  let bad := (groupsOf a n).filter (s.ramBad r)
  let t := s.ramErrors r ((groupsOf a n).filter (fun g => s.chk (r.group g) == .correctable)) bad
  if bad.isEmpty then (some (t.bytes r a n), t) else (none, t)

/-- A write (R116): a group written whole is good; any other is a read-modify-write that corrects an error it can, and
poisons the group of one it cannot. -/
def State.ramWrite (s : State) (r : Ram) (a : Nat) (bs : List Byte) : State :=
  let (whole, part) := (groupsOf a bs.length).partition (fun g => a ≤ g && g + 4 ≤ a + bs.length)
  let bad := part.filter (s.ramBad r)
  let t := whole.foldl (fun (t : State) g => t.setChk (r.group g) .good) s
  let t := bad.foldl (fun (t : State) g => t.setChk (r.group g) .poison) t
  (t.ramErrors r (part.filter (fun g => s.chk (r.group g) == .correctable)) bad).setBytes r a bs

/-! ## Words in memory (R53) -/

def ofBytesLE : List Byte → Nat
  | [] => 0
  | b :: l => b.toNat + 256 * ofBytesLE l

def toBytesLE : Nat → Nat → List Byte
  | 0, _ => []
  | n + 1, v => BitVec.ofNat 8 v :: toBytesLE n (v / 256)

def ofBytesBE (l : List Byte) : Nat := l.foldl (fun v b => 256 * v + b.toNat) 0

def toBytesBE (n v : Nat) : List Byte := (toBytesLE n v).reverse

/-- A word from its triple: bits [23:20] of the container are ignored. -/
def wordOf (l : List Byte) : W20 := BitVec.ofNat 20 (ofBytesLE (l.take 3))

/-- A word's triple, with bits [23:20] of the container 0. -/
def tripleOf (v : W20) : List Byte := toBytesLE 3 v.toNat

/-- A word that a block reads from shared SRAM; an error it cannot correct leaves none. -/
def State.sramWord (s : State) (a : Nat) : Option W20 × State :=
  let (r, t) := s.ramRead .sram a 3
  (r.map wordOf, t)

def State.setSramWord (s : State) (a : Nat) (v : W20) : State := s.ramWrite .sram a (tripleOf v)

/-- Whether `n` bytes at `a` lie in shared SRAM. -/
def inSram (a n : Nat) : Bool := a + n ≤ 0xA0000

/-! ## Lofts and the boot ROM (R49, R51, R55) -/

def State.loftKey (c : CoreId) (w : Nat) : Nat := c.val * 0x4000 + w % 0x4000

def State.loftWord (s : State) (c : CoreId) (w : Nat) : W20 := tabGet loftDflt s.loft (State.loftKey c w)

def State.setLoft (s : State) (c : CoreId) (w : Nat) (v : W20) : State :=
  ({ s with loft := tabSet loftDflt s.loft (State.loftKey c w) v }).setChk (0x200000 + State.loftKey c w) .good

/-- A loft word read under its check (R460, R466): none where the error cannot be corrected. -/
def State.loftRead (s : State) (c : CoreId) (w : Nat) : Option W20 × State :=
  let k := 0x200000 + State.loftKey c w
  let d : W20 := BitVec.ofNat 20 (c.val * 2 ^ 18 + w % 0x4000)
  match s.chk k with
  | .good => (some (s.loftWord c w), s)
  | .correctable =>
    (some (s.loftWord c w), ((s.setChk k .good).report 9 d).trackRow 3 (128 * c.val + w % 0x4000 / 128))
  | _ => (none, s.report 10 d)

/-- A byte of the boot ROM's data view (R55). DESIGN CHOICE: a data load returns it whatever the word's check says,
for R80 and R111 name an error that cannot be corrected in a ROM word for fetches alone (notes/assumptions/62.md). -/
def romByte (a : Nat) : Byte :=
  let i := (a - 0xF0000) / 3
  if i < 0x4000 then BitVec.ofNat 8 ((Config.romWord i).toNat / 256 ^ ((a - 0xF0000) % 3)) else 0

def romBytes (a : Nat) : Nat → List Byte
  | 0 => []
  | n + 1 => romByte a :: romBytes (a + 1) n

end Sys2Proof.Machine
end

