-- ==== Sys2Proof/Machine/Descpool.lean ====
section
/-! DEFINITION. The receive-buffer descriptor pools (R186-R191), and the transfers that blocks hand to their DMA
channels (R336, R351). -/

namespace Sys2Proof.Machine

/-! ## Block transfers -/

/-- A transfer joins the queue of a block channel: 0 frame unit (12), 1 cipher (13), 2 chord (14), 3 relay and 4 hash
(15).  The engines request holder 15 when they do not hold it (R351). -/
def State.dmaPush (s : State) (q : Fin 5) (x : Xfer) : State :=
  let t := { s with dma := { s.dma with blk := s.dma.blk.set q (s.dma.blk[q] ++ [x]) } }
  t.ask 0 [15]

/-- Bytes to be written by a block channel at wide address `a`. -/
def State.dmaWrite (s : State) (q : Fin 5) (a : Nat) (l : List Byte) (tag : XferTag) : State :=
  s.dmaPush q { addr := a, data := l, rd := 0, tag := tag, begun := false }

/-- `n` bytes to be read by a block channel at wide address `a`. -/
def State.dmaRead (s : State) (q : Fin 5) (a n : Nat) (tag : XferTag) : State :=
  if n = 0 then s else s.dmaPush q { addr := a, data := [], rd := n, tag := tag, begun := false }

/-! ## Pools -/

/-- An unlisted descriptor is in the queue. -/
def descDflt : Nat → DescSt := fun _ => .free

def State.pool (s : State) (q : Fin 2) : Pool := s.pools[q]

/-- A pool number from a register field. -/
def poolIx (n : Nat) : Fin 2 := ⟨n % 2, Nat.mod_lt _ (by decide)⟩

/-- HELD: the descriptors in STALL, FRAME or PROGRAM. -/
def Pool.held (p : Pool) : Nat := p.st.length

/-- The check of R41 for a pool: CONS_DESC shows both pools summed, and a mismatch is fatal. -/
def State.poolCheck (s : State) (q : Fin 2) : State :=
  let t := (s.put CONS_DESC_HELD_SUM ((s.pool 0).held + (s.pool 1).held)).put CONS_DESC_FREE
    ((s.pool 0).queue.length + (s.pool 1).queue.length)
  if (s.pool q).held + (s.pool q).queue.length = s.get (STC_POOL_CFG_COUNT q) then t
  else t.report 2 (BitVec.ofNat 20 ((s.pool 0).held + (s.pool 1).held))

/-- The state of descriptor `i` of pool `q`. -/
def State.desc (s : State) (q : Fin 2) (i : Nat) : DescSt := tabGet descDflt (s.pool q).st i

def State.setPool (s : State) (q : Fin 2) (p : Pool) : State := { s with pools := s.pools.set q p }

/-- Descriptor `i` moves to a held state. -/
def State.descSet (s : State) (q : Fin 2) (i : Nat) (d : DescSt) : State :=
  s.setPool q { s.pool q with st := tabSet descDflt (s.pool q).st i d }

/-- Where the record and the buffer of descriptor `i` stand (R186). -/
def State.recAt (s : State) (q : Fin 2) (i : Nat) : Nat := s.get (STC_POOL_DESC_BASE q) + 24 * i
def State.bufSize (s : State) (q : Fin 2) : Nat := s.get (STC_POOL_CFG_SIZE q) * 64
def State.bufAt (s : State) (q : Fin 2) (i : Nat) : Nat := s.get (STC_POOL_BUF_BASE q) + s.bufSize q * i

/-- A take of the descriptor at the head of the queue, with word 0 of its record written as 0 (R187). -/
def State.descTake (s : State) (q : Fin 2) : Option (Nat × State) :=
  match (s.pool q).queue with
  | [] => none
  | i :: r =>
    let t := (s.setPool q { queue := r, st := tabSet descDflt (s.pool q).st i .stall }).poolCheck q
    some (i, t.dmaWrite 0 (s.recAt q i) [0, 0, 0] (.take q.val i))

/-- A descriptor that is not free returns to the tail of the queue (R187, R189). -/
def State.descFree (s : State) (q : Fin 2) (i : Nat) : State :=
  if s.desc q i = .free then s
  else (s.setPool q { queue := (s.pool q).queue ++ [i], st := tabSet descDflt (s.pool q).st i .free }).poolCheck q

/-- STC_GIVE (R189). -/
def State.stcGive (s : State) (v : W20) : State :=
  let q := poolIx (v.toNat / 256)
  let i := v.toNat % 256
  if s.get (STC_POOL_CFG_COUNT q) ≤ i ∨ s.desc q i ≠ .program then s.raise STC_FLAGS_GIVE_REFUSED
  else s.descFree q i

def execStcGive (v : W20) (s : State) : Out := s.during s.clocked <| .next (s.stcGive v)

/-- Writes from outside to the stall blocks are discarded while halter mode is in force (R192). -/
def State.stcLocked (s : State) : Bool := s.test STC_STATE_HALTER

/-- Whether an enabled stall names pool `q`. -/
def State.poolNamed (s : State) (q : Fin 2) : Bool :=
  (List.range 48).any (fun p => s.test (STL_CFG_EN p) && s.get (STL_CFG_POOL p) == q.val)

/-- Pool `q` sized by a CFG value: the queue filled with 0 to COUNT - 1 (R187). -/
def State.poolFill (s : State) (q : Fin 2) (v : W20) : State :=
  (s.setRg (STC_POOL_CFG q) (v &&& 0x7FFF)).setPool q { queue := List.range (v.toNat % 512), st := [] }

/-- A pool configuration write (R191). -/
def State.poolWrite (s : State) (q : Fin 2) (which : PoolReg) (v : W20) : State :=
  if s.stcLocked then s
  else if (s.pool q).held ≠ 0 ∨ s.poolNamed q then s.raise STC_FLAGS_CFG_REFUSED
  else match which with
    | .buf => s.setRg (STC_POOL_BUF q) v
    | .desc => s.setRg (STC_POOL_DESC q) v
    | .cfg =>
      let n := v.toNat % 512
      let z := v.toNat / 512 % 64
      if z = 0 ∨ 32 < z ∨ 256 < n ∨
          (n ≠ 0 ∧ (0xA0000 < s.get (STC_POOL_BUF_BASE q) + 64 * z * n ∨
            0xA0000 < s.get (STC_POOL_DESC_BASE q) + 24 * n)) then s.raise STC_FLAGS_CFG_REFUSED
      else s.poolFill q v

/-- POOL_CONFIG_WRITE (R191). -/
def execPoolConfigWrite (q : Fin 2) (which : PoolReg) (v : W20) (s : State) : Out :=
  s.during s.clocked <| .next (s.poolWrite q which v)

/-! ## Records (R188) -/

/-- Words 1 to 7 of a record, as triples. -/
def recordBody (len : Nat) (hdr : W20) (r : SyncRec) : List Byte :=
  tripleOf (BitVec.ofNat 20 len) ++ tripleOf hdr ++ tripleOf (BitVec.ofNat 20 r.ts.toNat) ++
    tripleOf (BitVec.ofNat 20 (r.ts.toNat / 2 ^ 20)) ++
    tripleOf (BitVec.ofNat 20 (bit r.ovl * 2 ^ 13 + bit r.onB * 2 ^ 12 + r.rssi.toNat)) ++
    tripleOf (r.fofs.setWidth 20) ++ tripleOf (BitVec.ofNat 20 (r.other.toNat * 2 ^ 10 + r.qual.toNat))

/-- Word 0 of a record with FULL set. -/
def recordHead (status pool pos : Nat) : List Byte :=
  tripleOf (BitVec.ofNat 20 (2 ^ 19 + status * 2 ^ 8 + pool * 2 ^ 6 + pos))

/-- A record of `n` bytes already in their buffer is completed: words 1 to 7, then word 0 last, through channel 12
(R188). -/
def State.completeRec (s : State) (q : Fin 2) (i status pos : Nat) (hdr : W20) (r : SyncRec) (n : Nat) : State :=
  (s.dmaWrite 0 (s.recAt q i + 3) (recordBody n hdr r) (.part q.val i)).dmaWrite 0 (s.recAt q i)
    (recordHead status q.val pos) (.record q.val i)

/-- A record is completed: the buffer's bytes, then the record (R188). -/
def State.complete (s : State) (q : Fin 2) (i status pos : Nat) (hdr : W20) (r : SyncRec) (data : List Byte) : State :=
  let t := if data.isEmpty then s else s.dmaWrite 0 (s.bufAt q i) data (.part q.val i)
  t.completeRec q i status pos hdr r data.length

end Sys2Proof.Machine
end

