-- ==== Sys2Proof/Machine/Rollcall.lean ====
section
/-! DEFINITION. The roll-call collector (R278) and the end of an immediate ACK (R275). -/

namespace Sys2Proof.Machine

def State.modLink (s : State) (f : Link → Link) : State := { s with link := f s.link }

/-- The upper or lower counter of LNK_CNTk one higher. -/
def State.linkHi (s : State) (k : Nat) : State := s.bump (LNK_CNT_HI k)
def State.linkLo (s : State) (k : Nat) : State := s.bump (LNK_CNT_LO k)

/-- An entry (source, counter) for the collector (R278). -/
def State.rcAdd (s : State) (src ctr : BitVec 32) : State :=
  if s.link.rc.contains (src, ctr) then s
  else if 32 ≤ s.link.rc.length then (s.linkHi 7).raise LNK_FLAGS_RC_OVF
  else s.modLink (fun l => { l with rc := l.rc ++ [(src, ctr)] })

/-- An immediate ACK ends without being sent in full, with a LAST code; the frame it would have acknowledged gets the
roll-call entry that was withheld for it (R275, R278; notes/assumptions/14.md). -/
def State.ackFail (s : State) (code : Nat) : State :=
  match s.link.ack with
  | none => s
  | some a =>
    let t := ((s.put ACK_STAT_LAST code).linkLo 6).modLink (fun l => { l with ack := none })
    if a.owed then t.rcAdd a.src a.ctr else t

/-- The transmission of the ACK slot ends before its last symbol: the ACK ends as BUSY and its slot is withdrawn; one
that was cut is already decided and is over (notes/assumptions/14.md). -/
def State.ackAbandon (s : State) (slot : Nat) : State :=
  match s.link.ack with
  | some a =>
    if !a.fired || s.get ACK_CFG_SLOT != slot then s
    else if a.cut then s.modLink (fun l => { l with ack := none })
    else (s.ackFail 6).put (FU_TX_CTL_READY slot) 0
  | none => s

end Sys2Proof.Machine
end

