-- ==== Sys2Proof/Machine/Blank.lean ====
section
/-! DEFINITION. What holds a stall back: its aerial's chains, blanking, and the abandonment of packets (R169-R171,
R182-R185), with the decoder's idle rule (R211, R213). -/

namespace Sys2Proof.Machine

/-! ## Frames in time (R200, R204) -/

def State.modFrames (s : State) (f : FrameUnit → FrameUnit) : State := { s with frame := f s.frame }

def State.frameOf (s : State) (id : Nat) : Option Frame := s.frame.frames.find? (fun f => f.id == id)

def State.setFrame (s : State) (f : Frame) : State :=
  s.modFrames (fun u => { u with frames := u.frames.map (fun x => if x.id = f.id then f else x) })

/-- Header and body bits of a frame whose header is accepted (R196, R203, R204, R219). -/
def Frame.headBits (f : Frame) : Nat := if f.sun then 16 else 64
def Frame.bodyBits (f : Frame) : Nat :=
  if f.sun then 8 * (f.len + phrFcs f.hdr.toNat) else Sys2Proof.Machine.bodyBits f.len f.rate f.bs

/-- The tick in which bit `n` after the sync word has reached RFIN, `order` bits to a symbol. -/
def Frame.bitTick (f : Frame) (n : Nat) : Nat := f.began + ceilDiv n (max 1 f.order) * f.sym

/-- The ticks of the last header bit, of the last bit of block `b`, and of the packet's last symbol (R200, R204,
R208). -/
def Frame.headTick (f : Frame) : Nat := f.bitTick f.headBits
def Frame.blockTick (f : Frame) (b : Nat) : Nat :=
  f.bitTick (f.headBits + min ((b + 1) * 24 * codeZ f.bs) f.bodyBits)
def Frame.lastTick (f : Frame) : Nat := f.bitTick (f.headBits + f.bodyBits)

/-! ## The frame unit's queue -/

/-- The decoder has gone idle, or the last job has left the queue: its rations go in the next tick (R211). -/
def State.decIdle (s : State) : State :=
  if s.frame.running.isNone && s.frame.jobs.isEmpty && s.frame.idleAt.isNone then
    { s with frame := { s.frame with idleAt := some s.tick } }
  else s

/-- A frame leaves the link assists: its relay copy is freed, and an immediate ACK whose frame never ended is not
drawn; the roll-call entry that waited for the ACK is made (R278). -/
def State.macDrop (s : State) (id : Nat) : State :=
  let l := s.link
  let bufs := (l.macs.filter (fun m => m.id == id)).filterMap (·.relay)
  let gone := fun (a : AckRun) => !a.fired && a.endAt.isNone && a.frame == id
  let t := s.modLink (fun l => { l with
      macs := l.macs.filter (fun m => m.id != id)
      relays := l.relays.filter (fun r => !(r.st == .copy && bufs.contains r.buf))
      ack := l.ack.filter (fun a => !gone a) })
  match l.ack with
  | some a => if gone a && a.owed then t.rcAdd a.src a.ctr else t
  | none => t

/-- A frame's blocks are withdrawn: its jobs leave the queue, a running decode of one stops (R213), and what the link
assists made of its first block goes. -/
def State.frameWithdraw (s : State) (id : Nat) : State :=
  let f := s.frame
  ({ s with frame := { f with
      frames := f.frames.filter (fun x => x.id != id)
      jobs := f.jobs.filter (fun j => j.frame != id)
      running := f.running.filter (fun j => j.frame != id) } }.decIdle).macDrop id

/-! ## Outcomes (R185) -/

def State.stall (s : State) (p : Nat) : StallH := (s.stalls.toList[p]?).getD StallH.reset

def State.modStall (s : State) (p : Nat) (f : StallH → StallH) : State :=
  { s with stalls := s.stalls.setIfInBounds p (f (s.stall p)) }

/-- An outcome's LAST, counter and flag. -/
def State.stallLast (s : State) (p o : Nat) : State :=
  let t := s.put (STL_STATUS_LAST p) o
  match o with
  | 1 => t.bump (STL_CNT0_RECEIVED p)
  | 2 => (t.bump (STL_CNT1_CAPTURED p)).raise STC_FLAGS_CAPTURED
  | 3 => (t.bump (STL_CNT1_BLANKED p)).raise STC_FLAGS_BLANKED
  | 4 => (t.bump (STL_CNT2_OVERSIZE p)).raise STC_FLAGS_OVERSIZE
  | 5 => (t.bump (STL_CNT2_NODESC p)).raise STC_FLAGS_NODESC
  | 6 => t.bump (STL_CNT3_NOSYNC p)
  | 7 => t.bump (STL_CNT3_DISABLED p)
  | _ => t

/-- The stall's packet ends without its descriptor: blocks withdrawn, the descriptor returned to FREE. -/
def State.stallDrop (s : State) (p : Nat) : State :=
  let t := match (s.stall p).frame with
    | some id => s.frameWithdraw id
    | none => s
  let t := if t.test (STL_STATUS_HOLDS p) then
      (t.descFree (poolIx (t.get (STL_STATUS_POOL p))) (t.get (STL_STATUS_INDEX p))).put (STL_STATUS_HOLDS p) 0
    else t
  t.modStall p (fun x => { x with frame := none, knock := none })

/-- A packet in progress is abandoned with outcome `o`. -/
def State.stallAbandon (s : State) (p o : Nat) : State := (s.stallDrop p).stallLast p o

/-- The packet's last symbol has left the stall (R185, R189): LAST 1, its descriptor passes to FRAME, and an immediate
ACK of it counts from that symbol. -/
def State.packetEnd (s : State) (p : Nat) (f : Frame) : State :=
  let t := ((s.setFrame { f with last := true }).stallLast p 1).descSet (poolIx f.pool) f.idx .frame
  let t := ((t.put (STL_STATUS_HOLDS p) 0).put (STL_STATUS_STATE p) 2).modStall p (fun x => { x with frame := none })
  let ack := t.link.ack.map (fun a => if a.frame == f.id then { a with endAt := some f.lastTick } else a)
  { t with link := { t.link with ack := ack } }

/-- The stall's packet when its last symbol has reached RFIN (R181, R183). -/
def State.packetOver (s : State) (p : Nat) : Option Frame :=
  match (s.stall p).frame.bind s.frameOf with
  | some f => if f.headed && decide (f.lastTick ≤ s.tick) then some f else none
  | none => none

/-- The stall leaves its packet: one whose last symbol has reached RFIN completes, another is abandoned with outcome
`o` (R183-R185). -/
def State.packetLeave (s : State) (p o : Nat) : State :=
  match s.packetOver p with
  | some f => s.packetEnd p f
  | none => s.stallAbandon p o

/-! ## Blanking (R171, R182) -/

/-- `blankTo` while a blanking lasts until the next LISTEN. -/
def untilListen : Nat := 2 ^ 64

def State.rfe (s : State) : Nat := s.get RFE_STATE_STATE

/-- The chains of the open window: bit 0 A, bit 1 B (R87, R144). -/
def State.window (s : State) : Nat := s.get RFE_STATE_CHAINS

/-- The chains of the window that has effect: none for one that was opened in OFF or OFF→STANDBY, or kept through OFF,
and has not been reopened since (R144, notes/assumptions/44.md). -/
def State.winOpen (s : State) : Nat := if s.radio.winIdle then 0 else s.window

/-- A blanking source holds (R182). -/
def State.blanked (s : State) : Bool :=
  (5 ≤ s.rfe && s.rfe ≤ 8) || s.tick < s.radio.blankTo || (2 ≤ s.rfe && !s.test RFE_STATE_RXLOCK)

/-- The stalls that the step of an orbit pass runs, while one does (R409). -/
def State.orbitStalls (s : State) : Option (List Nat) :=
  if s.power.phase = .pass then some ((s.power.orbit.map (·.stalls)).getD []) else none

/-- DUR of orbit step `k`: 0 is taken as 1 (R409). -/
def State.orbitDur (s : State) (k : Nat) : Nat := max 1 (s.get (ORB_S_DUR_DUR k))

/-- The present orbit step has begun, and its DUR ticks have not passed: a hit in its last tick counts (R18, R409). -/
def State.stepLasts (s : State) (o : OrbitRun) : Bool :=
  o.begun.any (fun b => decide (s.tick ≤ b + s.orbitDur o.step))

/-- A stall of the present orbit step has met the condition of test `n` (R410). -/
def State.orbitHear (s : State) (n p : Nat) : State :=
  match s.power.orbit with
  | some o =>
    if s.power.phase = .pass ∧ s.stepLasts o ∧ o.stalls.contains p then
      { s with power := { s.power with orbit := some { o with heard := n :: o.heard } } }
    else s
  | none => s

/-- A 1,024-sample window of chain A has ended at or above the threshold in an orbit step (R410, test 2). -/
def State.orbitLevel (s : State) : State :=
  match s.power.orbit with
  | some o =>
    if s.stepLasts o ∧ s.getInt ⟨ORB_ETHR, 11, 0⟩ ≤ s.getInt RFE_ENERGYA_LEVEL then
      { s with power := { s.power with orbit := some { o with heard := 2 :: o.heard } } }
    else s
  | none => s

/-- The stall is on: its EN bit, and in an orbit pass its place among the step's stalls, or a packet that it has begun
there (R170, R409). -/
def State.stallOn (s : State) (p : Nat) : Bool :=
  match s.orbitStalls with
  | some l => l.contains p || s.get (STL_STATUS_STATE p) == 5
  | none => s.test (STL_CFG_EN p)

/-- A stall's AERIAL, taken as A in an orbit pass (R409). -/
def State.aerial (s : State) (p : Nat) : Nat := if s.power.phase = .pass then 1 else s.get (STL_CFG_AERIAL p)

/-- Whether a stall's aerial has a chain among `ch` (R171). -/
def State.chainFor (s : State) (p ch : Nat) : Bool :=
  match s.aerial p with
  | 1 => ch % 2 == 1
  | 2 => ch / 2 == 1
  | _ => ch != 0

/-- Diversity runs on a stall: both chains in the window and the aerial auto (R171). -/
def State.diversity (s : State) (p : Nat) : Bool :=
  s.window == 3 && (s.aerial p == 0 || s.aerial p == 3)

/-- The state that a stall's conditions give it: 0 OFF, 1 IDLE, 6 BLANKED, 2 where it may search. -/
def State.stallTarget (s : State) (p : Nat) : Nat :=
  if !s.stallOn p then 0
  else if !(4 ≤ s.rfe && s.rfe ≤ 7) || !s.chainFor p s.winOpen then 1
  else if s.blanked then 6
  else 2

/-- A stall follows its conditions: it starts to search, or leaves its packet (R170, R171, R184, R185). -/
def State.stallFollow (s : State) (p : Nat) : State :=
  let st := s.get (STL_STATUS_STATE p)
  let goal := s.stallTarget p
  let a := s.aerial p
  let t := s.put (STL_STATUS_NOCHAIN p) (bit (s.window != 0 && (a == 1 || a == 2) && !s.chainFor p s.window))
  if goal = 2 then
    if 2 ≤ st ∧ st ≤ 5 then t
    else (t.modStall p (fun x => { x with search := t.tick })).put (STL_STATUS_STATE p) 2
  else
    let t := if st = 5 then t.packetLeave p (if goal = 0 then 7 else 3)
      else t.modStall p (fun x => { x with knock := none })
    t.put (STL_STATUS_STATE p) goal

/-- Every stall follows its conditions, in position order. -/
def State.stallSync (s : State) : State :=
  (List.range 48).foldl State.stallFollow (s.put STC_STATE_BLANK (bit s.blanked))

/-! ## EN (R168, R170, R194) -/

/-- The field of STC_MAP that names the lane of position `p`. -/
def laneOf (p : Nat) : Field := ⟨STC_MAP (p / 3), 6 * (p % 3) + 5, 6 * (p % 3)⟩

def State.mapped (s : State) (p : Nat) : Bool := s.get (laneOf p) != 63

/-- A position's EN bit set or cleared: refused for an unmapped position. -/
def State.stallEn (s : State) (p : Nat) (en : Bool) : State :=
  if en && !s.mapped p then (if s.test (STL_CFG_EN p) then s else s.raise STC_FLAGS_CFG_REFUSED)
  else (s.put (STL_CFG_EN p) (bit en)).stallFollow p

/-- An action sets or clears a position's EN bit; the tick's last action is remembered, with EN before the first. -/
def State.stallAct (s : State) (p : Nat) (en : Bool) : State :=
  let old := match (s.stall p).acted with
    | some (b, _, o) => if b = s.tick then o else s.test (STL_CFG_EN p)
    | none => s.test (STL_CFG_EN p)
  (s.modStall p (fun x => { x with acted := some (s.tick, en, old) })).stallEn p en

/-- Actions of kinds 0x4 and 0x5 (R170): with `all`, every mapped position, unmapped ones passed over silently. -/
def State.stallAction (s : State) (all : Bool) (p : Nat) (en : Bool) : State :=
  if all then (List.range 48).foldl (fun t q => if en && !t.mapped q then t else t.stallAct q en) s
  else s.stallAct p en

/-- A register write that reaches a stall's EN bit: an action of the same tick is applied after it, whichever came
first (R170). -/
def State.enWritten (s : State) (p : Nat) (write : State → State) : State :=
  match (s.stall p).acted with
  | some (b, en, old) => if b = s.tick then (write (s.put (STL_CFG_EN p) (bit old))).stallEn p en else write s
  | none => write s

end Sys2Proof.Machine
end

