-- ==== Sys2Proof/Machine/Io.lean ====
section
/-! DEFINITION. UART0 (R134, R135), the GPIO pins (R136), and the external holders that tie a pin to a grant (R38). -/

namespace Sys2Proof.Machine

/-! ## UART0 -/

/-- The three UART requests: RX, TX and error (R135, R353). -/
def State.uartReqs (s : State) : Bool × Bool × Bool :=
  (s.test U0_CTRL_IE_RX && max 1 (s.get U0_CTRL_RXTHR) ≤ s.uart.rx.length,
   s.test U0_CTRL_IE_TX && s.uart.tx.length ≤ s.get U0_CTRL_TXTHR,
   s.test U0_CTRL_IE_ERR && (s.test U0_STATUS_BREAK || s.test U0_STATUS_FERR || s.test U0_STATUS_OVERRUN ||
     s.test U0_STATUS_TXOVF))

/-- U0_STATUS shows the levels, and each request that `old` did not have fires its producer (R353). -/
def State.uartSettle (s old : State) : State :=
  let t := ((s.put U0_STATUS_TXLVL s.uart.tx.length).put U0_STATUS_RXLVL s.uart.rx.length).put U0_STATUS_TXIDLE
    (bit (s.uart.tx.isEmpty && s.uart.shift.isNone))
  let (r0, t0, e0) := old.uartReqs
  let (r1, t1, e1) := t.uartReqs
  let t := if r1 && !r0 then t.fire 0x2B else t
  let t := if t1 && !t0 then t.fire 0x2C else t
  if e1 && !e0 then t.fire 0x2D else t

/-- The shifter takes the next byte while the transmitter is on. -/
def State.uartLoad (s : State) : State :=
  match s.uart.shift, s.uart.tx with
  | none, b :: l => if s.test U0_CTRL_TXEN then { s with uart := { s.uart with shift := some b, tx := l } } else s
  | _, _ => s

/-- A received byte (R134): stored, or discarded with OVERRUN when the FIFO holds 32. -/
def State.uartStore (s : State) (b : Byte) (ferr : Bool) : State :=
  if !s.test U0_CTRL_RXEN then s
  else
    let t := if ferr then s.put U0_STATUS_FERR 1 else s
    if 32 ≤ t.uart.rx.length then t.put U0_STATUS_OVERRUN 1
    else { t with uart := { t.uart with rx := t.uart.rx ++ [(b, ferr)] } }

/-- UART_TX_BYTE_SENT (R134): the shifter is empty and takes the next byte; with LOOP the byte is received. -/
def execUartTxByteSent (s : State) : Out := s.during s.inRun <|
  match s.uart.shift with
  | none => .next s
  | some b =>
    let t := { s with uart := { s.uart with shift := none } }
    let t := if t.test U0_CTRL_LOOP then t.uartStore b false else t
    .next (t.uartLoad.uartSettle s)

/-- A read of U0_DATA (R134): it pops the FIFO; VALID 0 when it is empty. -/
def State.uartPop (s : State) : W20 × State :=
  match s.uart.rx with
  | [] => (0, s.setRg U0_DATA 0)
  | (b, f) :: l =>
    let v := BitVec.ofNat 20 (512 * bit f + 256 + b.toNat)
    (v, ({ s with uart := { s.uart with rx := l } }.setRg U0_DATA v).uartSettle s)

def execUartDataRead (s : State) : Out := s.during s.clocked <| .next s.uartPop.2

/-- A write of U0_DATA (R134): queued, or discarded with TXOVF when the FIFO holds 32. -/
def State.uartPush (s : State) (b : Byte) : State :=
  let t := if 32 ≤ s.uart.tx.length then s.put U0_STATUS_TXOVF 1
    else { s with uart := { s.uart with tx := s.uart.tx ++ [b] } }
  t.uartLoad.uartSettle s

def execUartDataWrite (b : Byte) (s : State) : Out := s.during s.clocked <| .next (s.uartPush b)

/-- A write of U0_CTRL: the shifter starts if TXEN now allows it, and newly true requests fire. -/
def State.uartCtrl (s : State) (v : W20) : State := ((s.setRg U0_CTRL (v &&& 0x3FFFF)).uartLoad).uartSettle s

/-! ## GPIO (R136) and tied pins (R38) -/

/-- The register and bit of pin `n`. -/
def gpioAt (base : Nat) (n : Nat) : Field := ⟨base + 4 * (n / 16), n % 16, n % 16⟩

/-- A pin in an output mode. -/
def modeDrives (m : Nat) : Bool := m = 1 || m = 2

/-- The external holders tied to pin index `p` of MNG_EXT.PIN (R38). -/
def State.tiedTo (s : State) (p : Nat) : List Nat :=
  (List.range 4).filter (fun n => s.get (MNG_EXT_MODE n) == 2 && s.get (MNG_EXT_PIN n) == p)

/-- Every holder tied to pin index `p` holds its charge. -/
def State.tiedGranted (s : State) (p : Nat) : Bool := (s.tiedTo p).all (fun n => s.holds (28 + n))

/-- A tied pin is about to be asserted: its holders request their AMOUNT (R38). -/
def State.tiedAsk (s : State) (p : Nat) : State := (s.tiedTo p).foldl (fun t n => t.ask 2 [28 + n]) s

/-- A tied pin is no longer asserted: its holders return, and a change that waited for them is forgotten (R38). -/
def State.tiedDrop (s : State) (p : Nat) : State :=
  let t := if (s.tiedTo p).isEmpty then s else s.drop ((s.tiedTo p).map (28 + ·))
  t.modManger (fun m => { m with heldPin := m.heldPin.filter (fun e => e.1 != p) })

/-- Pin `n` is asserted: an output mode with its OUT bit 1 (R38). -/
def State.gpioAsserted (s : State) (n : Nat) : Bool := modeDrives (s.get (GPIO_CFG_MODE n)) && s.gpioOut n

/-- The ball of pin `n` may have changed from `old`.  A new level shows at once where the pin is unfiltered or no bus
cycle counts, else once it has held; a pin that floats shows an open value (R136, notes/assumptions/41.md). -/
def State.pinMoved (s : State) (n : Nat) (old : State) : State :=
  if s.ball n = old.ball n then s
  else
    let was := old.gpioIn n
    match s.ball n with
    | none => ({ s with filt := { s.filt with wait := s.filt.wait.filter (fun e => e.1 != n) } }).pinPev n was (s.gpioIn n)
    | some v =>
      if s.get (GPIO_CFG_FILT n) = 0 || !s.busRuns then s.pinShow n was v
      else
        let m := BitVec.twoPow 24 n
        { s with filt := ⟨if was then s.filt.lvl ||| m else s.filt.lvl &&& ~~~m,
          s.filt.wait.filter (fun e => e.1 != n) ++ (if v = was then [] else [(n, 0)])⟩ }

/-- A change that waits for a tied pin's grant takes effect (R38). -/
def State.heldApply (s : State) (h : HeldPin) : State :=
  match h with
  | .out n => s.put (gpioAt (GPIO_OUT 0) n) 1
  | .mode n m => s.put (GPIO_CFG_MODE n) m

/-- The changes that wait for the grant of pin index `p`. -/
def State.heldFor (s : State) (p : Nat) : List HeldPin := (s.manger.heldPin.filter (fun e => e.1 == p)).map (·.2)

/-- Those of the changes held for pin index `p` that `f` selects are forgotten. -/
def State.heldForget (s : State) (p : Nat) (f : HeldPin → Bool) : State :=
  s.modManger (fun m => { m with heldPin := m.heldPin.filter (fun e => !(e.1 == p && f e.2)) })

/-- A held change that would no longer assert its pin takes effect at once, and its request is withdrawn (R38,
notes/assumptions/47.md); so is the request of a pin that is not asserted and for which no change is held any more. -/
def State.heldDone (s : State) (n : Nat) : State :=
  let t := (s.heldFor (n + 2)).foldl State.heldApply s
  if t.gpioAsserted n || 6 ≤ n then s else (t.pinMoved n s).tiedDrop (n + 2)

/-- The OUT bit of pin `n` written; a change that would assert a tied pin is held until the grant (R38). -/
def State.gpioSet (s : State) (n : Nat) (v : Bool) : State :=
  let p := n + 2
  let s := s.heldForget p (· == .out n)
  if v && modeDrives (s.get (GPIO_CFG_MODE n)) && !s.gpioOut n && n < 6 && !s.tiedGranted p then
    (s.tiedAsk p).modManger (fun m => { m with heldPin := m.heldPin ++ [(p, .out n)] })
  else
    let t := ((s.put (gpioAt (GPIO_OUT 0) n) (bit v)).pinMoved n s).heldDone n
    if !v && n < 6 && modeDrives (t.get (GPIO_CFG_MODE n)) then t.tiedDrop p else t

/-- GPIO_CFGn written: a MODE that would assert a tied pin is held, the other fields apply at once (R38, R136). -/
def State.gpioCfg (s : State) (n : Nat) (v : W20) : State :=
  let p := n + 2
  let s := s.heldForget p (· != .out n)
  let was := s.gpioAsserted n
  let old := s.get (GPIO_CFG_MODE n)
  let new := v.toNat / 64 % 4
  let t := s.setRg (GPIO_CFG n) (v &&& 0xFFFC0)
  if !was && modeDrives new && s.gpioOut n && n < 6 && !s.tiedGranted p then
    (((t.put (GPIO_CFG_MODE n) old).pinMoved n s).tiedAsk p).modManger
      (fun m => { m with heldPin := m.heldPin ++ [(p, .mode n new)] })
  else if was && !modeDrives new && n < 6 then (t.pinMoved n s).tiedDrop p
  else (t.pinMoved n s).heldDone n

/-- The grant of an external holder: the changes that waited for it take effect (R38). -/
def State.tiedApply (s : State) (p : Nat) : State :=
  if !s.tiedGranted p then s
  else
    let t := (s.heldFor p).foldl State.heldApply s
    (if 2 ≤ p then t.pinMoved (p - 2) s else t).heldForget p (fun _ => true)

/-- Sixteen OUT bits written where `mask` has them. -/
def State.gpioWrite (s : State) (r : Nat) (mask v : W20) : State :=
  (List.range (if r = 0 then 16 else 8)).foldl
    (fun t i => if mask.getLsbD i then t.gpioSet (16 * r + i) (v.getLsbD i) else t) s

/-- The lattice action on pin `n` (R136, R355). -/
def State.gpioAct (s : State) (n : Nat) : State :=
  match s.get (GPIO_CFG_CACT n) with
  | 1 => s.gpioSet n true
  | 2 => s.gpioSet n false
  | 3 => s.gpioSet n (!s.gpioOut n)
  | _ => s

/-- GPIO_INPUT_CHANGE (R136, R353, R359): a filtered edge of the level that drives the pin from outside. Where the
pin's own output does not hold the ball it is the pin's level; it fires as PEV selects, and the cells that tap it
follow. -/
def execGpioInputChange (p : Fin 24) (level : Bool) (s : State) : Out :=
  let m := BitVec.twoPow 24 p.val
  let t := { s with pins := s.pins ||| m, pinLvl := if level then s.pinLvl ||| m else s.pinLvl &&& ~~~m }
  .next (if t.ball p.val = s.ball p.val then t else t.pinShow p.val (s.gpioIn p.val) level)

/-- A read of GPIO_IN (R136): the filtered levels, with an open value in the bit of every pin that floats. -/
def State.gpioRead (s : State) (r : Nat) : W20 × State :=
  let (k, t) := s.fresh
  let shows := fun (i : Nat) =>
    if s.ball (16 * r + i) = none then (Config.freeW20 k).getLsbD i else s.filt.lvl.getLsbD (16 * r + i)
  ((List.range (if r = 0 then 16 else 8)).foldl (fun (m : W20) i => if shows i then m ||| BitVec.twoPow 20 i else m) 0, t)

/-! ## External holders (R38) -/

/-- A write of MNG_EXTn (R38, R44): AMOUNT stays while its request waits or is granted. DESIGN CHOICE: a new PIN of a
tied holder takes over its holding or its request (notes/assumptions/47.md). -/
def State.extWrite (s : State) (n : Nat) (v : W20) : State :=
  let h := 28 + n
  let busy := s.holds h || s.asked h
  let p := s.get (MNG_EXT_PIN n)
  let amount := if busy then s.get (MNG_EXT_AMOUNT n) else v.toNat % 1024
  let t := s.setRg (MNG_EXT n) (BitVec.ofNat 20 (v.toNat / 2 ^ 14 * 2 ^ 14 + amount))
  match v.toNat / 2 ^ 18 % 4 with
  | 1 => t.ask 2 [h]
  | 2 => if p = t.get (MNG_EXT_PIN n) then t else t.tiedApply p
  | _ => (t.drop [h]).tiedApply p

/-- EXTERNAL_HOLDER_MODE_WRITE (R38). -/
def execExtHolderModeWrite (n : Fin 4) (v : W20) (s : State) : Out := s.during s.clocked <| .next (s.extWrite n.val v)

/-- TIED_PIN_ASSERT (R38): the device is about to assert the pin tied to EXTn, or deasserts it. -/
def execTiedPinAssert (n : Fin 4) (level : Bool) (s : State) : Out := s.during s.notDormant <|
  if s.get (MNG_EXT_MODE n.val) ≠ 2 then .next s
  else
    let p := s.get (MNG_EXT_PIN n.val)
    if 2 ≤ p then .next (s.gpioSet (p - 2) level)
    else if level then .next (s.tiedAsk p)
    else
      let t := { s with radio := { s.radio with pins := s.radio.pins &&& ~~~(BitVec.twoPow 15 (14 - p)) } }
      .next (t.tiedDrop p)

end Sys2Proof.Machine
end

