-- ==== Sys2Proof/Machine/Modem.lean ====
section
/-! DEFINITION. What stands between registers and samples: the receive chain's gain, input level and IQ correction
(R140-R142, R172), the modulator's output (R150), and the frame that a transmit slot sends, planned at its fire tick and
read block by block (R196, R197, R217, R218, R232, R233). -/

namespace Sys2Proof.Machine

/-! ## Receive chains (R140-R142, R172) -/

/-- LNA gain of a step, in dB (R141). -/
def lnaGain (step : Nat) : Int := 18 - 6 * (step : Int)

/-- The gain word in force on a chain: the one before it while a held write waits (R141). -/
def State.gainWord (s : State) (b : Bool) : W20 :=
  if b then s.radio.gainB.getD (s.rg RFE_GAINB) else s.radio.gainA.getD (s.rg RFE_GAINA)

/-- The chain gain in dB: LNA gain and 2 × PGA (R141). -/
def State.chainGain (s : State) (b : Bool) : Int :=
  let w := (s.gainWord b).toNat
  lnaGain (w / 2 ^ 7 % 8) + 2 * (w % 2 ^ 5 : Nat)

/-- The input level at RFIN that RFE_ENERGYx.LEVEL stands for, in 0.25 dB units of dBm (R142). -/
def State.inputLevel (s : State) (b : Bool) : Int :=
  s.getInt (if b then RFE_ENERGYB_LEVEL else RFE_ENERGYA_LEVEL) + 8 - 4 * s.chainGain b

/-- A chain's IQ correction (R140): the factor on its Q stream in 1/2^12, and its rotation in 1/2^11 rad. -/
def State.iqCorrection (s : State) (b : Bool) : Int × Int :=
  if b then (2 ^ 12 + s.getInt RFE_IQB_AMP, s.getInt RFE_IQB_PHASE)
  else (2 ^ 12 + s.getInt RFE_IQA_AMP, s.getInt RFE_IQA_PHASE)

/-- The deviation that a stall expects of a symbol of value `v`, in units of 36.621 Hz (R172). -/
def State.stallDeviation (s : State) (p : Nat) (v : Int) : Int := v * s.get (STL_CFG_DEV p)

/-! ## The modulator (R150) -/

/-- The ticks of a transmitted symbol. -/
def State.txSym (s : State) : Nat :=
  match s.get RFE_TXMOD_RATE with
  | 0 => 1536 | 1 => 768 | 2 => 384 | _ => 192

/-- The coefficients in use. -/
def State.txCoef (s : State) : Nat → Int := shapeCoef (s.get RFE_TXMOD_SHAPE) (fun k => s.getInt (RFE_TXCOEF_C k))

/-- The frequency deviation at sample `n` of a symbol stream, in units of 36.621 Hz / 2^18. -/
def State.txDeviation (s : State) (syms : List Int) (n : Nat) : Int :=
  s.get RFE_TXMOD_DEV * shapeOut s.txCoef syms n

/-! ## A slot's frame as sent -/

/-- The slot of the sender's schedule that contains mesh time `t` (R233). -/
def State.slotAt (s : State) (t : W40) : W40 :=
  BitVec.ofInt 40 (s.sched.asn.toNat + (t - s.sched.start).toInt / (max 1 s.sched.slotLen : Nat))

/-- The sync word sent. -/
def State.txSync (s : State) : BitVec 32 := BitVec.ofNat 32 (s.get FU_TXSYNCHI_HI * 2 ^ 20 + s.get FU_TXSYNCLO_LO)

/-- The header bits of slot `k` (R199, R221). -/
def State.txHead (s : State) (k : Nat) : List Bool :=
  let n := s.get (FU_TX_LEN_LENGTH k)
  let rate := s.get (FU_TX_CTL_RATE k)
  if s.test (FU_TX_CTL_FORMAT k) then
    natBits 16 (phrWord (2 ≤ rate) (rate % 2 = 1) (n + (if 2 ≤ rate then 2 else 4)))
  else
    let h := natBits 32 (headerExt (headerWord n rate (s.get (FU_TX_CTL_BS k)) (s.get (FU_TX_CTL_MODE k))))
    h ++ h

/-- What slot `k` sends, planned at the fire tick (R196, R233): the countdown units' ASN is that of the slot that
holds the planned end of the sync word. -/
def State.txPlan (s : State) (k : Nat) : TxFrame :=
  let order := s.get RFE_TXMOD_ORDER + 1
  let pre := max 8 (s.get (FU_TX_PRE_PRE k))
  let u := s.get (SCH_CD_UNITS k)
  let asn := s.slotAt (s.mesh + BitVec.ofNat 40 (1536 + (pre + 92 * u + 48) * s.txSym))
  { lead := leadSyms order pre u asn.toNat (s.get FU_TXSYNCHI_LEN) s.txSync
    sym := s.txSym, order := order, data := [], next := 0, bits := s.txHead k }

/-- Blocks of slot `k`'s body: an uncoded or SUN FSK body is one (R201, R204, R221). -/
def State.txBlocks (s : State) (k : Nat) : Nat :=
  if s.test (FU_TX_CTL_FORMAT k) then 1
  else blockCount (s.get (FU_TX_LEN_LENGTH k)) (s.get (FU_TX_CTL_RATE k)) (s.get (FU_TX_CTL_BS k))

/-- The data bytes of block `j` of slot `k`: where they begin and how many they are. -/
def State.txPart (s : State) (k j : Nat) : Nat × Nat :=
  let n := s.get (FU_TX_LEN_LENGTH k)
  let rate := s.get (FU_TX_CTL_RATE k)
  let bs := s.get (FU_TX_CTL_BS k)
  if s.test (FU_TX_CTL_FORMAT k) ∨ rate = 3 then (s.get (FU_TX_SRC_SRC k), n)
  else (s.get (FU_TX_SRC_SRC k) + j * codeD rate bs, blockData n rate bs j)

/-- The bits of block `j` of slot `k` as sent, from its data bytes (R198, R201-R204, R221). -/
def State.txBody (s : State) (k j : Nat) (data : List Byte) : List Bool :=
  let rate := s.get (FU_TX_CTL_RATE k)
  let bs := s.get (FU_TX_CTL_BS k)
  if s.test (FU_TX_CTL_FORMAT k) then sunBody (2 ≤ rate) (rate % 2 = 1) data
  else if rate = 3 then whiten (data.flatMap bitsMsb ++ natBits 24 (crc24 data))
  else whitenAt (j * 24 * codeZ bs) (blockBits rate bs data 0)

/-- Symbols of the frame up to the end of the bits read so far. -/
def TxFrame.symbols (f : TxFrame) (sun : Bool) : List Int := f.lead ++ symbolsOf f.order sun f.bits

/-- The tick in which symbol `n` of the frame begins, from the tick the driver ramp started (R146). -/
def TxFrame.symTick (f : TxFrame) (ramp n : Nat) : Nat := ramp + 192 + n * f.sym

/-- The tick in which the first symbol after the bits read so far begins. -/
def TxFrame.nextTick (f : TxFrame) (ramp : Nat) : Nat :=
  f.symTick ramp (f.lead.length + f.bits.length / max 1 f.order)

end Sys2Proof.Machine
end

