-- ==== Sys2Proof/Machine/Radio.lean ====
section
/-! DEFINITION. The radio front end (spec/06): states and listen windows, both turnarounds, the TX start, gains and
detectors, the mask monitor, loss of lock, and the amplifier's sequencing tables. -/

namespace Sys2Proof.Machine

def State.modRadio (s : State) (f : Radio → Radio) : State := { s with radio := f s.radio }

/-- Ticks since `t`. -/
def State.since (s : State) (t : Nat) : Nat := s.tick - t

/-- The state code moves, and the stalls follow. -/
def State.rfeGo (s : State) (st : Nat) : State := (s.put RFE_STATE_STATE st).stallSync

/-- The holders of the chains in `ch`. -/
def chainHolders (ch : Nat) : List Nat := (if ch % 2 = 1 then [0] else []) ++ (if ch / 2 % 2 = 1 then [1] else [])

/-- The receive set beyond the RX synthesizer (R23, R144). -/
def rxSet (ch : Nat) : List Nat := chainHolders ch ++ [2]

/-- CAL shows whether a calibration runs. -/
def State.calShow (s : State) : State :=
  s.put RFE_STATE_CAL (bit (s.radio.calBegun.isSome || s.radio.rxCal.isSome || s.radio.txCal.isSome))

/-- What a calibration step holds besides the present state's set (R162). -/
def CalStep.extra : CalStep → List Nat
  | .rxsyn => [] | .txsyn => [6] | .tpm => [6, 4, 0] | .iqa => [6, 0] | .iqb => [6, 1]

/-- The steps that RFE_CAL selects, in run order (R162). -/
def calSteps (v : Nat) : List CalStep :=
  (if v % 2 = 1 then [.rxsyn] else []) ++ (if v / 2 % 2 = 1 then [.txsyn] else []) ++
    (if v / 4 % 2 = 1 then [.tpm] else []) ++ (if v / 8 % 2 = 1 then [.iqa] else []) ++
    (if v / 16 % 2 = 1 then [.iqb] else [])

/-- What the commanded run needs: the extra holders of its present step and of those before it, until the run ends
(R162). -/
def State.calHeld (s : State) : List Nat :=
  if s.radio.cal.isEmpty then []
  else ((calSteps (s.rg RFE_CAL).toNat).filter (fun c => !s.radio.cal.tail.contains c)).flatMap CalStep.extra

/-- What the calibrations need: the run's holders, and the TX synthesizer of any other TX calibration (R160). -/
def State.calNeeds (s : State) : List Nat := s.calHeld ++ (if s.radio.txCal.isSome then [6] else [])

/-- The radio's holders that something needs, the RX synthesizer apart: the receive set, the transmit set from the TX
start to tick 192 of the turn back, and the calibrations' (R23, R144, R147, R160, R162). -/
def State.radioNeeds (s : State) : List Nat :=
  (if s.winOpen != 0 && (s.rfe == 3 || s.rfe == 4 || (s.rfe == 7 && s.radio.swapped)) then rxSet s.winOpen else []) ++
    (if s.rfe == 5 || s.rfe == 6 || ((s.rfe == 7 || s.rfe == 8) && !s.radio.swapped) then [4, 6] else []) ++ s.calNeeds

/-- Those of `hs` that nothing needs any longer return their charges and withdraw their requests. -/
def State.settle (s : State) (hs : List Nat) : State := s.drop (hs.filter (fun h => !s.radioNeeds.contains h))

/-! ## The amplifier's tables (R155-R159) -/

/-- The register of step `k` of a table, and of its delay. -/
def pasReg (table k : Nat) : Nat := 0xC9080 + 0x40 * table + 8 * k
def padReg (table k : Nat) : Nat := pasReg table k + 4

/-- The pins of tied holders that levels `v` would newly assert: 0 PA_EN, 1 LNA_EN. -/
def State.paAsserts (s : State) (v : BitVec 15) : List Nat :=
  (if v.getLsbD 14 && !s.radio.pins.getLsbD 14 then [0] else []) ++
    (if v.getLsbD 13 && !s.radio.pins.getLsbD 13 then [1] else [])

/-- The levels of step `k` applied; the run moves on or ends. In an ORBIT pass the one step stands until OFF (R501).
-/
def State.paApply (s : State) (table k : Nat) : State :=
  let w := s.rg (pasReg table k)
  let v : BitVec 15 := w.setWidth 15
  let off := (if s.radio.pins.getLsbD 14 && !v.getLsbD 14 then [0] else []) ++
    (if s.radio.pins.getLsbD 13 && !v.getLsbD 13 then [1] else [])
  let t := s.modRadio (fun r => { r with
    pins := v
    pa := if w.getLsbD 19 ∨ 7 ≤ k ∨ s.power.phase = .pass then none
      else some ⟨table, k + 1, s.tick + max 1 (s.rg (padReg table k)).toNat, false⟩ })
  off.foldl (fun t p => t.tiedDrop p) t

/-- Step `k` is due: it applies, or waits whole for the holder tied to a pin it asserts (R158). -/
def State.paDo (s : State) (table k : Nat) : State :=
  let need := (s.paAsserts ((s.rg (pasReg table k)).setWidth 15)).filter (fun p => !s.tiedGranted p)
  if need.isEmpty then s.paApply table k
  else (need.foldl (fun t p => t.tiedAsk p) s).modRadio (fun r => { r with pa := some ⟨table, k, s.tick, true⟩ })

/-- A table run starts, ending any other (R155). DESIGN CHOICE: the request of a tied holder that a step of the ended
run waited for stands, the spec being silent (notes/assumptions/63.md). -/
def State.paStart (s : State) (table k : Nat) : State := (s.modRadio (fun r => { r with pa := none })).paDo table k

/-- PA_STEP (R155). -/
def execPaStep (s : State) : Out := s.during s.inAir <|
  match s.radio.pa with
  | some p => .next (if !p.wait ∧ p.due ≤ s.tick then s.paDo p.table p.step else s)
  | none => .next s

/-- PA_STEP_GRANT (R158): every pin of the step changes together once the tied holders hold. -/
def execPaStepGrant (s : State) : Out := s.during s.inAir <|
  match s.radio.pa with
  | some p =>
    .next (if p.wait ∧ (s.paAsserts ((s.rg (pasReg p.table p.step)).setWidth 15)).all (fun q => s.tiedGranted q)
      then s.paApply p.table p.step else s)
  | none => .next s

/-- A PA table step that asserts PA_EN waits (R148). -/
def State.paHolds (s : State) : Bool :=
  match s.radio.pa with
  | some p => p.wait && (s.paAsserts ((s.rg (pasReg p.table p.step)).setWidth 15)).contains 0
  | none => false

/-- A pin that a run which does not count took from 1 to 0 is asserted again, with the holdings that it returned,
where they still fit (notes/assumptions/63.md). -/
def State.paRetie (s : State) (p : Nat) : State :=
  let hs := ((s.tiedTo p).map (28 + ·)).filter (fun h => !s.holds h)
  if s.costOf hs ≤ s.manger.free then
    (s.charge hs).modRadio (fun r => { r with pins := r.pins ||| BitVec.twoPow 15 (14 - p) })
  else s

/-- The pins back at the levels `old` that they had before a run that does not count: what it asserted is given up,
and what it released is held again. -/
def State.paUndo (s : State) (old : BitVec 15) : State :=
  let t := s.modRadio (fun r => { r with pins := old &&& (r.pins ||| 0x1FFF), pa := none })
  let t := ([0, 1].filter (fun p => old.getLsbD (14 - p) && !s.radio.pins.getLsbD (14 - p))).foldl State.paRetie t
  ([0, 1].filter (fun p => !old.getLsbD (14 - p))).foldl (fun t p => t.tiedDrop p) t

/-- An action of kind 0x6 (R144, R156, R157): it runs in STANDBY and LISTEN; in the tick of a TX start, one that names
table 0 sets the first step of that start's run. -/
def State.paAction (s : State) (table k : Nat) : State :=
  if 2 ≤ s.rfe ∧ s.rfe ≤ 4 then
    (s.modRadio (fun r => { r with paAct := some ⟨s.tick, table, k, r.pins⟩ })).paStart table k
  else match s.radio.tx with
    | some x =>
      if s.rfe = 5 ∧ x.begun = s.tick ∧ table = 0 then (s.paUndo x.pins).paStart 0 k else s.raise RFE_FLAGS_PA_REFUSED
    | none => s.raise RFE_FLAGS_PA_REFUSED

/-- The transmit table starts at tick 0 of a TURN toward TALK: at TXFIRST, or where an action of kind 0x6 of the same
tick says; one that names table 1 is ignored (R156, R157). -/
def State.paTransmit (s : State) : State :=
  match s.radio.paAct with
  | some a =>
    if a.tick = s.tick then
      let t := s.paUndo a.pins
      if a.table = 0 then t.paStart 0 a.step else (t.raise RFE_FLAGS_PA_REFUSED).paStart 0 (s.get RFE_PACFG_TXFIRST)
    else s.paStart 0 (s.get RFE_PACFG_TXFIRST)
  | none => s.paStart 0 (s.get RFE_PACFG_TXFIRST)

/-- A write to a step or a delay (R155): discarded while its table runs. -/
def State.paWrite (s : State) (ofs : Nat) (v : W20) : State :=
  let table := (ofs - 0x80) / 0x40
  if (s.radio.pa.map (·.table)) = some table then s.raise RFE_FLAGS_CFG_REFUSED
  else s.setRg (0xC9000 + ofs) (if ofs % 8 = 0 then v &&& 0x87FFF else v)

/-- The pins at their safe levels (R159). -/
def State.paSafe (s : State) : State :=
  ((s.modRadio (fun r => { r with pins := 0, pa := none })).tiedDrop 0).tiedDrop 1

/-! ## OFF, STANDBY and LISTEN (R139, R143, R144) -/

/-- The slot of a transmission that ends before its last symbol: SENDING clears and READY stays (R217). -/
def State.txDrop (s : State) : State :=
  match s.radio.tx with
  | some x =>
    (((s.put (FU_TX_CTL_SENDING x.slot) 0).setRg FU_TXBUSY 0).modFrames (fun u => { u with tx := none })).ackAbandon x.slot
  | none => s

/-- The radio goes OFF: all its rations return and waiting requests are withdrawn (R143); an RX LO change that waited
is stored (R139); leaving LISTEN, a turn or TALK blanks until the next LISTEN (R182); a transmission is not sent
(R217). DESIGN CHOICE: a commanded run and a calibration in progress end at once, BUSY reading 0 without CAL_DONE
(notes/assumptions/63.md). -/
def State.radioOff (s : State) : State :=
  let t := (s.drop [0, 1, 2, 4, 5, 6]).withdraw (fun w => match w.kind with
    | .swap _ take => take.any ([0, 1, 2, 4, 6].contains ·)
    | _ => false)
  let t := t.txDrop
  let t := t.modRadio (fun r => { r with
    since := none, tx := none, turn := none, swapped := false, cal := [], calBegun := none, rxCal := none
    txCal := none, maskPrev := [], winIdle := true, paAct := none
    rxInt := (r.rxPend.map (·.1)).getD r.rxInt, rxFrac := (r.rxPend.map (·.2)).getD r.rxFrac, rxPend := none
    blankTo := if 4 ≤ s.rfe then untilListen else r.blankTo })
  let t := ((t.put RFE_STATE_RXLOCK 0).put RFE_STATE_TXLOCK 0).put RFE_CAL_BUSY 0
  (t.paSafe.calShow).rfeGo 0

/-- The wait of a swap that takes receive chains (R34, R147). -/
def Wait.takesRx (w : Wait) : Bool :=
  match w.kind with
  | .swap _ take => take.any ([0, 1, 2].contains ·)
  | _ => false

/-- The transition's time runs from the grant of what it requests, and that of a turn back from its swap (R33, R143,
R147). -/
def State.radioSettle (s : State) : State :=
  let r := s.radio
  let t :=
    if r.since.isNone ∧
        ((s.rfe = 1 ∧ s.holds 5) ∨ (s.rfe = 3 ∧ (rxSet s.window).all s.holds) ∨
          (s.rfe = 7 ∧ r.swapped ∧ !s.manger.waits.any (·.takesRx))) then
      s.modRadio (fun r => { r with since := some s.tick })
    else s
  match t.radio.txCal with
  | some ⟨none⟩ => if t.holds 6 then t.modRadio (fun r => { r with txCal := some ⟨some t.tick⟩ }) else t
  | _ => t

/-- The STANDBY→LISTEN ramp begins, or begins again, with the named chains. -/
def State.rampStart (s : State) (ch : Nat) : State :=
  let t := (s.put RFE_STATE_CHAINS ch).put RFE_STATE_STATE 3
  let t := ((t.settle [0, 1, 2]).ask 0 (rxSet ch)).modRadio (fun r => { r with since := none })
  t.radioSettle.rfeGo 3

/-- An RX LO change applied (R139): a relock outside OFF and OFF→STANDBY. -/
def State.loApply (s : State) (int : Nat) (frac : W20) : State :=
  let t := s.modRadio (fun r => { r with rxInt := int, rxFrac := frac, rxPend := none })
  if 2 ≤ s.rfe then (t.put RFE_STATE_RXLOCK 0).stallSync else t

/-- Held gains apply (R141). -/
def State.gainApply (s : State) : State :=
  ((s.put RFE_GAINA_PEND 0).put RFE_GAINB_PEND 0).modRadio (fun r => { r with gainA := none, gainB := none })

/-- LISTEN is reached. -/
def State.listenReached (s : State) : State :=
  (s.modRadio (fun r => { r with since := none, blankTo := 0, turn := none, swapped := false })).rfeGo 4

/-- A listen-window open (R141, R144): in OFF and OFF→STANDBY it is recorded only; in STANDBY and on a ramp the ramp
starts; in LISTEN the chains change; during a commanded run, a turn or TALK it is recorded for what follows.  DESIGN
CHOICE: an open in LISTEN that names the chains already open blanks the stalls too (notes/assumptions/64.md). -/
def State.windowOpen (s : State) (ch : Nat) : State :=
  let s := s.gainApply.modRadio (fun r => { r with winIdle := s.rfe < 2 })
  match s.rfe with
  | 2 => if s.radio.cal.isEmpty then s.rampStart ch else (s.put RFE_STATE_CHAINS ch).stallSync
  | 3 => s.rampStart ch
  | 4 =>
    let t := ((s.put RFE_STATE_CHAINS ch).settle [0, 1]).ask 0 (rxSet ch)
    (t.modRadio (fun r => { r with blankTo := max r.blankTo (s.tick + 96) })).stallSync
  | _ => (s.put RFE_STATE_CHAINS ch).stallSync

/-- A listen-window close (R144, R182).  DESIGN CHOICE: on the ramp it leaves the blanking as it was
(notes/assumptions/64.md). -/
def State.windowClose (s : State) : State :=
  let t := (s.put RFE_STATE_CHAINS 0).modRadio (fun r => { r with winIdle := false })
  if s.rfe = 3 ∨ s.rfe = 4 then
    let t := ((t.put RFE_STATE_STATE 2).settle [0, 1, 2]).modRadio (fun r => { r with
      since := none, blankTo := if s.rfe = 4 then untilListen else r.blankTo })
    t.rfeGo 2
  else t.stallSync

/-- RFE_CTL.REQ (R143, R163); the radio stays OFF while REF_FAIL is set (R393). -/
def State.radioRequest (s : State) (req : Nat) : State :=
  let t := s.put RFE_CTL_REQ req
  if req = 1 ∧ s.rfe = 0 ∧ !s.test CLK_STAT_REF_FAIL then
    let t := (t.ask 0 [5]).modRadio (fun r => { r with since := none })
    (t.radioSettle).rfeGo 1
  else if req = 0 ∧ 1 ≤ s.rfe ∧ s.rfe ≤ 4 then t.radioOff
  else t

/-- A write of RFE_CTL (R144): CLOSE with OPEN is refused whole. -/
def State.rfeCtl (s : State) (v : W20) : State :=
  let o := v.toNat / 4 % 4
  let c := v.getLsbD 4
  if c ∧ o ≠ 0 then s.raise RFE_FLAGS_CFG_REFUSED
  else
    let t := s.radioRequest (v.toNat % 4)
    if c then t.windowClose else if o ≠ 0 then t.windowOpen o else t

def execRadioReq (req : BitVec 2) (s : State) : Out := s.during s.clocked <| .next (s.radioRequest req.toNat)

/-- LISTEN_WINDOW_OPEN (R144): a window names at least one chain (R87). -/
def execListenWindowOpen (chains : BitVec 2) (s : State) : Out := s.during s.inAir <|
  .next (if chains = 0 then s else s.windowOpen chains.toNat)

def execListenWindowClose (s : State) : Out := s.during s.inAir <| .next s.windowClose

/-- What waited for the return to LISTEN or STANDBY: an OFF request, an RX LO change, the window's chains. -/
def State.radioArrive (s : State) : State :=
  if s.get RFE_CTL_REQ = 0 then s.radioOff
  else
    let t := match s.radio.rxPend with
      | some (i, f) => s.loApply i f
      | none => s
    if t.rfe = 4 then
      if t.winOpen = 0 then t.windowClose else (t.settle [0, 1]).ask 0 (rxSet t.winOpen)
    else if t.winOpen ≠ 0 ∧ t.radio.cal.isEmpty then t.rampStart t.window
    else t

/-- STANDBY in an ORBIT pass: the pins take the receive step RXFIRST (R501). -/
def State.passPins (s : State) : State :=
  if s.power.phase = .pass then s.paStart 1 (s.get RFE_PACFG_RXFIRST) else s

/-- RADIO_TRANSITION_DONE (R143, R147): the transition's ticks have run since its grant. -/
def execRadioTransitionDone (s : State) : Out := s.during s.inAir <|
  match s.radio.since with
  | none => .next s
  | some b =>
    let n := s.since b
    match s.rfe with
    | 1 => .next (if 23040 ≤ n then
        (((s.put RFE_STATE_RXLOCK 1).modRadio (fun r => { r with since := none })).rfeGo 2).passPins else s)
    | 3 => .next (if 4608 ≤ n then s.listenReached else s)
    | 7 => .next (if s.radio.swapped ∧ 1344 ≤ n then s.gainApply.listenReached.radioArrive else s)
    | 8 => .next (if s.radio.swapped ∧ 1344 ≤ n then
        ((s.modRadio (fun r => { r with since := none, turn := none, swapped := false })).rfeGo 2).radioArrive else s)
    | _ => .next s

/-! ## The RX LO, gains and detectors (R138-R142) -/

/-- Whether INT and FRAC give 750-960 MHz (R138). -/
def loInRange (int frac : Nat) : Bool :=
  750000000 * 2 ^ 20 ≤ 9600000 * (int * 2 ^ 20 + frac) && 9600000 * (int * 2 ^ 20 + frac) ≤ 960000000 * 2 ^ 20

/-- A write of RFE_RXFRAC (R138, R139). -/
def State.rxFracWrite (s : State) (v : W20) : State :=
  if !loInRange (s.get RFE_RXSYN_INT) v.toNat then s.raise RFE_FLAGS_CFG_REFUSED
  else
    let t := s.setRg RFE_RXFRAC v
    let i := s.get RFE_RXSYN_INT
    if 5 ≤ s.rfe ∧ s.rfe ≤ 8 then t.modRadio (fun r => { r with rxPend := some (i, v) }) else t.loApply i v

/-- RX_LO_WRITE (R138, R139): INT held, then FRAC, which applies the pair. -/
def execRxLoWrite (int : BitVec 7) (frac : W20) (s : State) : Out := s.during s.clocked <|
  .next ((s.put RFE_RXSYN_INT int.toNat).rxFracWrite frac)

/-- SYNTH_LOCK (R139, R146, R518): the RX synthesizer relocks; the TX synthesizer locks for a TX start, except while a
calibration or a commanded run has it, or while it is uncalibrated. -/
def execSynthLock (tx : Bool) (s : State) : Out := s.during s.inAir <|
  if tx then
    .next (if s.rfe = 5 ∧ s.holds 6 ∧ s.radio.txCal.isNone ∧ s.radio.cal.isEmpty ∧ s.radio.txCaled
      then s.put RFE_STATE_TXLOCK 1 else s)
  else
    .next (if 2 ≤ s.rfe ∧ s.radio.rxCal.isNone ∧ !(s.radio.cal.head? = some .rxsyn ∧ s.radio.calBegun.isSome)
      then (s.put RFE_STATE_RXLOCK 1).stallSync else s)

/-- A gain write (R141): at the next tick, or held with PEND. -/
def State.gainWrite (s : State) (b : Bool) (v : W20) : State :=
  let r := if b then RFE_GAINB else RFE_GAINA
  let held := v.getLsbD 18
  let w := (v &&& 0x4039F) ||| (if held then 0x80000 else 0)
  let old := some (s.rg r)
  let t := s.setRg r w
  t.modRadio (fun x => if b then { x with gainB := if held then (if x.gainB.isSome then x.gainB else old) else none }
    else { x with gainA := if held then (if x.gainA.isSome then x.gainA else old) else none })

def execGainWrite (chainB : Bool) (v : W20) (s : State) : Out := s.during s.clocked <| .next (s.gainWrite chainB v)

/-- OVERLOAD_DETECT (R142). -/
def execOverloadDetect (chainB : Bool) (s : State) : Out := s.during s.inAir <|
  .next (if chainB then
      ((s.modRadio (fun r => { r with ovlB := some s.tick })).put RFE_ENERGYB_OVL 1).raise RFE_FLAGS_OVLB
    else ((s.modRadio (fun r => { r with ovlA := some s.tick })).put RFE_ENERGYA_OVL 1).raise RFE_FLAGS_OVLA)

/-- The spacing in Hz (R164). -/
def State.spacing (s : State) : Nat :=
  match s.get STC_PLAN_SPACING with
  | 0 => 200000 | 1 => 250000 | 2 => 400000 | _ => 500000

/-- Whether the detector fired at tick `t` within the last 1,024 samples (R142): 1,024 samples last 8 / spacing. -/
def State.ovlRecent (s : State) (t : Option Nat) : Bool :=
  match t with
  | some a => s.since a * s.spacing < 8 * 38400000
  | none => false

/-- ENERGY_WINDOW_END (R142). -/
def execEnergyWindowEnd (chainB : Bool) (level : BitVec 12) (s : State) : Out := s.during s.inAir <|
  .next (if chainB then
      (s.put RFE_ENERGYB_LEVEL level.toNat).put RFE_ENERGYB_OVL (bit (s.ovlRecent s.radio.ovlB))
    else ((s.put RFE_ENERGYA_LEVEL level.toNat).put RFE_ENERGYA_OVL (bit (s.ovlRecent s.radio.ovlA))).orbitLevel)

/-! ## The TX start (R144, R146, R149, R217) -/

/-- A TX start is refused: TXSTAT and TX_BUSY. -/
def State.txRefuse (s : State) (code : Nat) : State :=
  ((s.setRg RFE_TXSTAT 0).put RFE_TXSTAT_CODE code).raise RFE_FLAGS_TX_BUSY

/-- Whether the carrier of channel `c` lies in 750-960 MHz (R149), in units of 9.6 MHz / 2^20. -/
def State.carrierOk (s : State) (c : Nat) : Bool :=
  let f : Int := 9600000 * ((s.radio.rxInt * 2 ^ 20 + s.radio.rxFrac.toNat : Nat) + s.getInt RFE_TXOFS_OFS) +
    ((c + 8) * s.spacing * 2 ^ 20 : Nat)
  c < 48 && decide ((750000000 * 2 ^ 20 : Nat) ≤ f) && decide (f ≤ (960000000 * 2 ^ 20 : Nat))

/-- The TX synthesizer is uncalibrated: no calibration has ended since the last cold reset, or lock was lost and the
calibration that the loss made pending has not ended (R518). -/
def State.txUncal (s : State) : Bool := !s.radio.txCaled

/-- A TX synthesizer calibration starts at die temperature `temp` (R160); one that temperature or a loss of lock had
made pending is thereby served (notes/assumptions/45.md). -/
def State.txCalStart (s : State) (temp : BitVec 10) : State :=
  let t := ((s.put RFE_TCALT_TX temp.toNat).put RFE_STATE_TCALP_TX 0).ask 0 [6]
  (t.modRadio (fun r => { r with txCal := some ⟨if t.holds 6 then some t.tick else none⟩ })).calShow

/-- The reservation at account `r` is applied (R39): it stands under a number of its own from now on, so that
re-arming its entry does not release it. -/
def Manger.applied (m : Manger) (r : Nat) : Manger × List Nat :=
  match m.accts.find? (fun a => a.id == r) with
  | none => (m, [])
  | some a =>
    let k := (m.accts.map (·.id)).foldl max 95 + 1
    ({ m with accts := acctInsert (m.without [r]).accts { a with id := k } }, [k])

def State.applied (s : State) (r : Option Nat) : State × List Nat :=
  match r with
  | none => (s, [])
  | some r => ({ s with manger := (s.manger.applied r).1 }, (s.manger.applied r).2)

/-- An applied reservation covers the charges of `hs`, its excess returning at once, or their shortfall waits as one
request of class 0 (R39). -/
def State.applyTo (s : State) (ret hs : List Nat) : State :=
  if s.takenCost ret hs ≤ s.returnedCost ret then (s.exchange ret hs)
  else s.addWait (hs.foldl min 95) 0 (.swap ret hs)

/-- The taken set of a TX start, with the reservation `resv` applied to it: from LISTEN a swap, else a take
(R34, R39, R144). -/
def State.txTake (s : State) (resv : Option Nat) : State :=
  let (t, ret) := s.applied resv
  let take := [4, 6].filter (fun h => !t.holds h)
  if s.rfe = 4 then
    let ret := [0, 1, 2].filter t.holds ++ ret
    match t.trySwap ret take with
    | some u => u
    | none => t.addWait 4 0 (.swap ret take)
  else if ret.isEmpty then t.ask 0 take
  else t.applyTo ret take

/-- The TX start's tick 0 calibrates an uncalibrated TX synthesizer, unless a calibration or a commanded run has it
(R518). -/
def State.txCalNeed (s : State) (temp : BitVec 10) : State :=
  if s.txUncal ∧ s.radio.txCal.isNone ∧ s.radio.cal.isEmpty then s.txCalStart temp else s

/-- A TX start accepted on channel `ch` (R146), at die temperature `temp` for a calibration that it starts.  A ramp is
abandoned and its rations return; a chain request of LISTEN that still waits is withdrawn (R144). -/
def State.txGo (s : State) (slot ch : Nat) (resv : Option Nat) (temp : BitVec 10) : State :=
  let t := s.drop ([0, 1, 2].filter (fun h => (s.rfe == 3 || !s.holds h) && !s.calNeeds.contains h))
  let t := (t.txTake resv).setRg RFE_TXSTAT 0
  let t := ((t.put (FU_TX_CTL_SENDING slot) 1).put FU_TXBUSY_SENDING 1).put FU_TXBUSY_SLOT slot
  let t := t.modRadio (fun r => { r with
    tx := some ⟨slot, ch, s.tick, none, none, r.pins⟩, since := none, maskPrev := [], blankTo := untilListen })
  let t := t.modFrames (fun u => { u with tx := some (s.txPlan slot) })
  let t := (t.put RFE_STATE_TXLOCK 0).rfeGo 5
  ((t.txCalNeed temp).paTransmit).radioSettle

/-- Frame-unit slot `k` can be started: READY, and with countdown units a sync word of 32 bits (R217, R233). -/
def State.txReady (s : State) (k : Nat) : Bool :=
  s.test (FU_TX_CTL_READY k) && (s.get (SCH_CD_UNITS k) == 0 || s.get FU_TXSYNCHI_LEN == 32)

/-- The channel of a start of slot `k` (R149, R217). -/
def State.txChannel (s : State) (k : Nat) : Nat :=
  if s.test (FU_TX_CTL_CH_EN k) then s.get (FU_TX_CTL_CH k) else s.get RFE_TXCH_CH

/-- What refuses a TX start, as TXSTAT.CODE names it: 6 OFF, 5 BUSY, 7 MASK_HOLD, 8 RANGE (R144, R149, R153, R217).
DESIGN CHOICE: of several reasons the first in this order, the spec giving none (notes/assumptions/63.md). -/
def State.txBar (s : State) (k : Nat) : Option Nat :=
  if s.rfe ≤ 1 then some 6
  else if 5 ≤ s.rfe then some 5
  else if !s.txReady k then some 5
  else if s.test RFE_FLAGS_MASK_BREACH then some 7
  else if !s.carrierOk (s.txChannel k) then some 8
  else none

/-- A TX start of frame-unit slot `k`, with a reservation where it has one; whether it was accepted. -/
def State.txStart (s : State) (k : Nat) (resv : Option Nat) (temp : BitVec 10) : State × Bool :=
  match s.txBar k with
  | some code =>
    let t := s.txRefuse code
    let t := if s.txReady k then t else t.raise FU_FLAGS_EMPTY_START
    (t.release resv.toList, false)
  | none => (s.txGo k (s.txChannel k) resv temp, true)

/-- An armed action whose tick is reached is about to fire a TX start, before which every other start of the tick
gives way (R272). -/
def State.txArmed (s : State) : Bool :=
  s.cores.toList.any (fun x => x.acts.toList.any (fun a =>
    a.kind == 1 && s.reached a.fire && (a.status == .reserved || (a.status == .armed && a.resv == 0))))

/-- A TX start of the relay assist or of the immediate ACK: refused as BUSY where it gives way (R272). -/
def State.txLesser (s : State) (k : Nat) (gives : Bool) (temp : BitVec 10) : State × Bool :=
  if gives then (s.txRefuse 5, false) else s.txStart k none temp

/-! ## The turn back (R147) -/

/-- The TURN toward LISTEN or STANDBY at its tick 0.  What the TX start still waits for is withdrawn, but for what a
calibration needs. -/
def State.turnBack (s : State) : State :=
  let t := s.modRadio (fun r => { r with tx := none, turn := some s.tick, swapped := false, since := none, maskPrev := [] })
  let t := t.withdraw (fun w => match w.kind with
    | .swap _ take => take.contains 4 || (take.contains 6 && !take.contains 2)
    | .holders hs => (hs.contains 4 && !s.calNeeds.contains 4) || (hs.contains 6 && !s.calNeeds.contains 6)
    | _ => false)
  let t := (t.ask 0 s.calNeeds).rfeGo (if s.winOpen = 0 then 8 else 7)
  t.paStart 1 (s.get RFE_PACFG_RXFIRST)

/-- A transmission ends before its last symbol, with its slot still READY (R217). -/
def State.txAbandon (s : State) (code : Nat) : State := ((s.put RFE_TXSTAT_CODE code).txDrop).turnBack

/-- TURN_BACK_SWAP (R147): at tick 192 the transmit set returns, but for what a calibration holds; toward LISTEN the
swap completes or waits. -/
def execTurnBackSwap (s : State) : Out := s.during s.inAir <|
  match s.radio.turn with
  | none => .next s
  | some b =>
    if (s.rfe ≠ 7 ∧ s.rfe ≠ 8) ∨ s.radio.swapped ∨ s.since b < 192 then .next s
    else
      let t := if s.calNeeds.contains 6 then s else s.put RFE_STATE_TXLOCK 0
      let t := t.modRadio (fun r => { r with swapped := true })
      if s.rfe = 8 ∨ s.winOpen = 0 then
        .next ((t.settle [0, 1, 2, 4, 6]).modRadio (fun r => { r with since := some s.tick }))
      else
        let ret := [0, 1, 2, 4, 6].filter (fun h => t.holds h && !t.radioNeeds.contains h)
        let take := (rxSet s.winOpen).filter (fun h => !t.holds h)
        match t.trySwap ret take with
        | some u => .next (u.modRadio (fun r => { r with since := some s.tick }))
        | none => .next ((t.addWait 0 0 (.swap ret take)).raise RFE_FLAGS_RX_HELD)

/-! ## The hold, TALK and the end of a frame (R146, R148, R152-R154) -/

/-- Nothing holds the driver ramp (R148). -/
def State.txFree (s : State) : Bool := s.holds 4 && s.holds 6 && s.test RFE_STATE_TXLOCK && !s.paHolds

/-- The ramp starts, with the hold of `n` ticks recorded. -/
def State.rampGo (s : State) (x : TxRun) (n : Nat) : State :=
  (s.put RFE_TXSTAT_HOLD (min n 0xFFFF)).modRadio (fun r => { r with tx := some { x with ramp := some s.tick } })

/-- TX_HOLD_CHECK (R148): from tick 1,344 on. -/
def execTxHoldCheck (s : State) : Out := s.during s.inAir <|
  match s.radio.tx with
  | some x =>
    let n := s.since x.begun
    if s.rfe ≠ 5 ∨ x.ramp.isSome ∨ n < 1344 then .next s
    else if s.txFree then .next (s.rampGo x (n - 1344))
    else .next (s.modRadio (fun r => { r with tx := some { x with hold := some (x.begun + 1344) } }))
  | none => .next s

/-- TX_LATE (R148): a hold that reaches LIMIT abandons the transmission, unless it ends in the same tick (R18). -/
def execTxLate (s : State) : Out := s.during s.inAir <|
  match s.radio.tx with
  | some x =>
    let n := s.since x.begun
    if s.rfe ≠ 5 ∨ x.ramp.isSome ∨ n < 1344 + s.get RFE_TXLATE_LIMIT then .next s
    else if s.txFree then .next (s.rampGo x (n - 1344))
    else .next (((s.put RFE_TXSTAT_HOLD (min (n - 1344) 0xFFFF)).txAbandon 2).raise RFE_FLAGS_LATE)
  | none => .next s

/-- TALK_REACHED (R146): 192 ticks after the ramp started. -/
def execTalkReached (s : State) : Out := s.during s.inAir <|
  match s.radio.tx with
  | some x => match x.ramp with
    | some r => .next (if s.rfe = 5 ∧ 192 ≤ s.since r then s.rfeGo 6 else s)
    | none => .next s
  | none => .next s

/-- The mask points that exceed their limits, from a list of point numbers with the smaller suppression of its two
sides in units of 0.5 dB (R152, R153). -/
def State.maskOver (s : State) (meas : List (Nat × Nat)) : List Nat :=
  (meas.filter (fun e => e.1 < 8 && s.test (RFE_MASK_EN e.1) && e.2 < s.get (RFE_MASK_LIMIT e.1))).map (·.1)

/-- MASK_WINDOW_END (R152, R153): a point over its limit in two consecutive windows is a breach. -/
def execMaskWindowEnd (meas : List (Nat × Nat)) (s : State) : Out := s.during s.inAir <|
  if s.rfe ≠ 6 then .next s
  else
    let above := s.maskOver meas
    match above.find? (fun k => s.radio.maskPrev.contains k) with
    | some k => .next (((s.txAbandon 3).raise RFE_FLAGS_MASK_BREACH).report 13 (BitVec.ofNat 20 k))
    | none => .next (s.modRadio (fun r => { r with maskPrev := above }))

/-- LOCK_LOST (R154). -/
def execLockLost (tx : Bool) (temp : BitVec 10) (s : State) : Out := s.during s.inAir <|
  if tx then
    if s.rfe ≠ 6 then .next s
    else
      let ch := (s.radio.tx.map (·.ch)).getD 0
      let t := (((s.put RFE_STATE_TXLOCK 0).put RFE_STATE_TCALP_TX 1).modRadio
        (fun r => { r with txCaled := false, deferTx := false })).txAbandon 4
      .next ((t.raise RFE_FLAGS_LOCK_LOST).report 14 (BitVec.ofNat 20 ch))
  else if s.rfe = 2 ∨ s.rfe = 4 then
    let t := ((s.put RFE_STATE_RXLOCK 0).put RFE_TCALT_RX temp.toNat).modRadio
      (fun r => { r with rxCal := some ⟨some s.tick⟩, deferRx := false })
    .next ((t.put RFE_STATE_TCALP_RX 0).calShow.stallSync.raise RFE_FLAGS_LOCK_LOST)
  else .next s

end Sys2Proof.Machine
end

