-- ==== Sys2Proof/Machine/ChordSlot.lean ====
section
/-! DEFINITION. What the chord does at a slot's start and where a bay ends: the bay table that becomes active (R319), the
grants of its DRIVE entries (R322), the bay tokens (R323), and what a bay's end returns and judges (R329, R331). -/

namespace Sys2Proof.Machine

def State.modChord (s : State) (f : Chord → Chord) : State := { s with chord := f s.chord }

/-! ## Ports (R314) -/

/-- A port takes part on the line: in line, with the bypass open. -/
def State.inLine (s : State) (p : Port) : Bool :=
  !s.test CHD_STATE_BYPASS && (match p with
    | .a => s.test CHD_STATE_INA
    | .b => s.test CHD_STATE_INB)

/-- The ports of `dir` that take part. -/
def State.portsIn (s : State) (dir : Nat) : Nat :=
  (if dir % 2 = 1 ∧ s.inLine .a then 1 else 0) + (if dir / 2 % 2 = 1 ∧ s.inLine .b then 2 else 0)

/-- Some port is granted in line. -/
def State.anyIn (s : State) : Bool := s.test CHD_STATE_INA || s.test CHD_STATE_INB

/-! ## The bay table (R319) -/

/-- An entry of no role. -/
def bayNone : BayEnt := { ofs := 0, len := 0, role := 0, dir := 0, every := 0 }

def bayDflt : Nat → BayEnt := fun _ => bayNone

/-- Staged entry `k`. -/
def State.bayStaged (s : State) (k : Nat) : BayEnt :=
  { ofs := s.get (CHB_OFS_OFS k), len := s.get (CHB_LEN_LEN k), role := s.get (CHB_CTL_ROLE k)
    dir := s.get (CHB_CTL_DIR k), every := s.get (CHB_CTL_EVERY k) }

/-- Active entry `k`. -/
def State.bay (s : State) (k : Nat) : BayEnt := tabGet bayDflt s.chord.active k

/-- An entry's own conditions (R319). -/
def BayEnt.ok (e : BayEnt) (slotLen : Nat) : Bool :=
  64 ≤ e.len && e.ofs + e.len ≤ slotLen && (e.role != 4 || 615 ≤ e.len) &&
    (!(e.role == 2 || e.role == 3 || e.role == 5) || e.dir != 0)

/-- The conditions of R319 on the entries with a role. -/
def tableOk (slotLen : Nat) (l : List BayEnt) : Bool :=
  let used := l.filter (fun e => e.role != 0)
  used.all (fun e => e.ok slotLen) &&
    used.zipIdx.all (fun a => used.zipIdx.all (fun b =>
      a.2 == b.2 || a.1.ofs + a.1.len ≤ b.1.ofs || b.1.ofs + b.1.len ≤ a.1.ofs)) &&
    (used.filter (fun e => e.role == 3)).length ≤ 1

/-- Entry `k` is active in slot `asn` (R319). -/
def State.bayActive (s : State) (k : Nat) : Bool :=
  (s.bay k).role != 0 && s.sched.asn.toNat % 2 ^ (s.bay k).every == 0

/-- The bay table applies: RUN, and neither halter mode nor ACQ (R319, R330, R334). -/
def State.baysRun (s : State) : Bool := s.test SCH_CTL_RUN && !s.test CHD_STATE_HALTER && !s.test CHD_CTL_ACQ

/-! ## Tokens (R323) -/

/-- The tokens of a port: the active DRIVE and KNOCK entries whose DIR includes it (bit 0 A, bit 1 B). -/
def State.bayTotal (s : State) (p : Nat) : Nat :=
  ((List.range 32).filter (fun k =>
    let e := s.bay k
    (e.role == 2 || e.role == 5) && e.dir / 2 ^ p % 2 == 1)).length

/-- The check of R41 on every take and return. -/
def State.tokenCheck (s : State) : State :=
  let h := s.chord.tokA + s.chord.tokB
  let free := (s.bayTotal 0 - s.chord.tokA) + (s.bayTotal 1 - s.chord.tokB)
  let t := (s.put CONS_BAY_HELD_SUM h).put CONS_BAY_FREE free
  if s.chord.tokA ≤ s.bayTotal 0 ∧ s.chord.tokB ≤ s.bayTotal 1 then t else t.report 3 (BitVec.ofNat 20 h)

/-- A token taken on each port of `dir`. -/
def State.tokenTake (s : State) (dir : Nat) : State :=
  (s.modChord (fun c => { c with tokA := c.tokA + dir % 2, tokB := c.tokB + dir / 2 % 2 })).tokenCheck

def State.tokenGive (s : State) (dir : Nat) : State :=
  (s.modChord (fun c => { c with tokA := c.tokA - dir % 2, tokB := c.tokB - dir / 2 % 2 })).tokenCheck

/-- The staged table becomes active where it passes, else the active table stays (R319); the pools of
tokens follow it (R323). -/
def State.chordTable (s : State) : State :=
  let l := (List.range 32).map s.bayStaged
  if tableOk s.sched.slotLen l then
    (s.modChord (fun c => { c with
      active := (l.zipIdx).foldl (fun t e => tabSet bayDflt t e.2 e.1) [] })).tokenCheck
  else s.raise CHD_FLAGS_TBL_REFUSED

/-! ## The end of a bay (R323, R329, R331) -/

/-- The grant of entry `e` in this slot. -/
def State.grantOf (s : State) (e : Nat) : Option Nat := (s.chord.grants.find? (fun g => g.1 == e)).map (·.2)

/-- The start of entry `e` in the present slot, and whether mesh time is within it. -/
def State.bayAt (s : State) (e : Nat) : W40 := s.sched.start + BitVec.ofNat 40 (s.bay e).ofs

/-- PROBE and LIMIT: 0 is taken as 1. -/
def State.chordProbe (s : State) : Nat := max 1 (s.get CHD_HEAL_PROBE)
def State.chordLimit (s : State) : Nat := max 1 (s.get CHD_HEAL_LIMIT)

/-- The reads of a chord frame that are still waiting go (R322). -/
def State.txForget (s : State) : State :=
  { s with dma := { s.dma with blk := s.dma.blk.set 2 (s.dma.blk[2].filter (fun x => match x.tag with
      | .chordTx _ => false
      | _ => true)) } }

/-- A loop check passes (R331, R332). -/
def State.loopPass (s : State) (b : BayRun) : State :=
  let t := s.modChord (fun c => { c with fails := 0 })
  if b.probe then (t.put CHD_STATE_HEALED 0).raise CHD_FLAGS_REJOINED else t

/-- A loop check fails: LIMIT consecutive failures heal the node. -/
def State.loopFail (s : State) : State :=
  let n := s.chord.fails + 1
  let t := (s.bump (CHD_CNT_LO 1)).modChord (fun c => { c with fails := n })
  if s.chordLimit ≤ n ∧ !s.test CHD_STATE_HEALED then (t.put CHD_STATE_HEALED 1).raise CHD_FLAGS_HEALED else t

/-- A bay ends, at its end or because the schedule leaves it: a frame not sent to its end stays READY, tokens return,
a loop check is judged, and a TIME bay without a frame taken is missed. -/
def State.bayClose (s : State) (b : BayRun) : State :=
  let t := (s.put CHD_STATE_BAY 63).modChord (fun c => { c with
    bay := none, relay := none, ended := b.entry :: c.ended, txGot := if b.drive.isSome then [] else c.txGot })
  let t := if b.drive.isSome then t.txForget else t
  let t := match s.grantOf b.entry with
    | some k => t.put (CTX_CTL_GRANTED k) 0
    | none => t
  let t := if b.tokens = 0 then t else t.tokenGive b.tokens
  let t := if b.check then (if b.passed then t.loopPass b else t.loopFail) else t
  if (s.bay b.entry).role = 3 ∧ !s.test CHD_CTL_MASTER ∧ !b.taken ∧ (s.inLine .a ∨ s.inLine .b) then
    ((t.bump (CHD_CNT_HI 1)).put CHD_STATE_TVALID 0).raise CHD_FLAGS_TIME_MISS
  else t

/-- The slot's bays are over: the one in progress ends, and the tokens of grants whose bay never came return. -/
def State.chordEnd (s : State) : State :=
  let t := match s.chord.bay with
    | some b => s.bayClose b
    | none => s
  let t := t.chord.grants.foldl (fun t g =>
    if t.chord.ended.contains g.1 then t else (t.put (CTX_CTL_GRANTED g.2) 0).tokenGive (t.bay g.1).dir) t
  t.modChord (fun c => { c with grants := [], ended := [], probed := false, relay := none })

/-- An entry that captures: RECV, or DRIVE without a grant. -/
def State.bayCaptures (s : State) (e : Nat) : Bool :=
  (s.bay e).role == 1 || ((s.bay e).role == 2 && (s.grantOf e).isNone)

/-- The slot is left: the bays in which it captured frames are kept for a frame that ends after it (R320). -/
def State.slotLeave (s : State) : State :=
  let l := if s.baysRun then ((List.range 32).filter (fun e => s.bayActive e && s.bayCaptures e)).map
    (fun e => (e, s.bayAt e, (s.bay e).len)) else []
  s.chordEnd.modChord (fun c => { c with prev := l })

/-! ## Grants (R322) -/

/-- Whether transmit slot `a` goes before `b` among those whose PORTS match: urgent ones first and among them the
oldest, otherwise the lower number (R14, R15). -/
def State.ctxBefore (s : State) (a b : Nat) : Bool :=
  let t := fun k => (s.chord.ready.toList[k]?).getD 0
  let u := fun k => decide (s.get CHD_PAT_PATIENCE < s.tick - t k)
  if u a && u b then t a < t b || (t a == t b && a < b)
  else if u a then true
  else if u b then false
  else a < b

/-- The READY transmit slot that a DRIVE entry of `dir` is granted. -/
def State.ctxPick (s : State) (dir : Nat) : Option Nat :=
  ((List.range 8).filter (fun k => s.test (CTX_CTL_READY k) && !s.test (CTX_CTL_GRANTED k) &&
    s.get (CTX_CTL_PORTS k) == dir)).foldl (fun b k => match b with
      | none => some k
      | some x => if s.ctxBefore k x then some k else some x) none

/-- Entry `k` put into a list in OFS order. -/
def State.ofsInsert (s : State) (k : Nat) : List Nat → List Nat
  | [] => [k]
  | x :: l => if (s.bay k).ofs < (s.bay x).ofs then k :: x :: l else x :: State.ofsInsert s k l

/-- The DRIVE entries of the slot, in OFS order. -/
def State.drives (s : State) : List Nat :=
  ((List.range 32).filter (fun k => s.bayActive k && (s.bay k).role == 2)).foldl (fun l k => s.ofsInsert k l) []

/-- The first tick of a slot (R322). -/
def State.chordGrant (s : State) : State :=
  let t := s.put CHD_STATE_BAY 63
  if !t.baysRun then t
  else t.drives.foldl (fun t e =>
    match t.ctxPick (t.bay e).dir with
    | none => t
    | some k =>
      ((t.put (CTX_CTL_GRANTED k) 1).modChord (fun c => { c with grants := c.grants ++ [(e, k)] })).tokenTake
        (t.bay e).dir) t

end Sys2Proof.Machine
end

