-- ==== Sys2Proof/Machine/Txslots.lean ====
section
/-! DEFINITION. The frame unit's sixteen transmit slots: READY and the writes of their registers (R216, R223, R233). -/

namespace Sys2Proof.Machine

/-- The conditions under which READY = 1 is accepted (R216). -/
def State.txValid (s : State) (k : Nat) : Bool :=
  let n := s.get (FU_TX_LEN_LENGTH k)
  1 ≤ n && n ≤ 1600 && inSram (s.get (FU_TX_SRC_SRC k)) n &&
    (if s.test (FU_TX_CTL_FORMAT k) then s.get (FU_TX_CTL_BS k) == 0 && s.get (FU_TX_CTL_MODE k) == 0
     else s.get (FU_TX_CTL_MODE k) ≤ 1 && !(s.get (FU_TX_CTL_RATE k) == 3 && s.test (FU_TX_CTL_BS k)))

/-- A write of FU_TXk_CTL (R216). -/
def State.txCtl (s : State) (k : Nat) (v : W20) : State :=
  let w : W20 := v &&& 0x3FFE0
  if s.test (FU_TX_CTL_READY k) then
    if v.getLsbD 19 || s.test (FU_TX_CTL_SENDING k) then s.raise FU_FLAGS_CFG_REFUSED else s.setRg (FU_TX_CTL k) w
  else
    let t := s.setRg (FU_TX_CTL k) w
    if !v.getLsbD 19 then t
    else if t.txValid k then t.put (FU_TX_CTL_READY k) 1 else t.raise FU_FLAGS_CFG_REFUSED

/-- TX_SLOT_READY_WRITE (R216): a write of FU_TXk_CTL. -/
def execTxSlotReadyWrite (k : Fin 16) (v : W20) (s : State) : Out := s.during s.clocked <| .next (s.txCtl k.val v)

/-- A write of another register of slot `k`, or of SCH_CDk, which `refuse` flags (R216, R247). -/
def State.txReg (s : State) (k a : Nat) (v : W20) (refuse : Field) : State :=
  if s.test (FU_TX_CTL_READY k) then s.raise refuse else s.setRg a v

/-- A write of FU_TXSYNCHI (R223). -/
def State.txSyncHi (s : State) (v : W20) : State :=
  let n := v.toNat / 2 ^ 12 % 64
  if n < 16 ∨ 32 < n then s.raise FU_FLAGS_CFG_REFUSED else s.setRg FU_TXSYNCHI (v &&& 0x3FFFF)

end Sys2Proof.Machine
end

