-- ==== Sys2Proof/Machine/Sched.lean ====
section
/-! DEFINITION. The slot schedule (R224-R230), the neighbour table's records and samples (R237-R246), and steps of mesh
time (R10, R245). -/

namespace Sys2Proof.Machine

def State.modSched (s : State) (f : Sched → Sched) : State := { s with sched := f s.sched }

/-! ## Slots (R224-R230) -/

/-- The staged hop entry `i`. -/
def State.hopStaged (s : State) (i : Nat) : Nat :=
  match i % 3 with
  | 0 => s.get (HOP_E0 (i / 3)) | 1 => s.get (HOP_E1 (i / 3)) | _ => s.get (HOP_E2 (i / 3))

def hopDflt : Nat → Nat := fun _ => 0

/-- The staged slot length, hop table and bay table become active (R225, R226, R230, R319). -/
def State.tables (s : State) : State :=
  let hop := (List.range 64).foldl (fun h i => tabSet hopDflt h i (s.hopStaged i)) []
  (s.modSched (fun c => { c with slotLen := s.get SCH_SLOTLEN_LEN, hop := hop, hopL := s.get SCH_HOPLEN_L })).chordTable

/-- A slot boundary: what is staged becomes active, the primary position too (R225, R230, R273, R319). -/
def State.activate (s : State) : State :=
  let prim := if s.test ACK_PRIM_NONE then none else some (s.get ACK_PRIM_POS)
  ({ s with link := { s.link with primNow := prim } }).tables

/-- The hop channel of slot `asn` and channel offset `ofs` in the active table (R229). -/
def State.hopChannel (s : State) (asn : W40) (ofs : Nat) : Nat :=
  tabGet hopDflt s.sched.hop ((asn.toNat + ofs) % max 1 s.sched.hopL)

/-- START and ASN brought to the slot of the present mesh time, and by how many slots they moved (R226). -/
def State.normalise (s : State) : State × Int :=
  let c := s.sched
  let d := (s.mesh - c.start).toNat
  let len := max 1 c.slotLen
  let k : Int := if d < 2 ^ 39 then (d / len : Nat) else -(ceilDiv (2 ^ 40 - d) len : Nat)
  (s.modSched (fun c => { c with
    start := BitVec.ofInt 40 (c.start.toNat + k * len), asn := BitVec.ofInt 40 (c.asn.toNat + k) }), k)

/-- Slot `A`'s start in the node's own schedule, and its mark (R227, R228). -/
def State.slotStart (s : State) (asn : Int) : Int :=
  s.sched.start.toNat + (asn - s.sched.asn.toNat) * s.sched.slotLen

def State.mark (s : State) (asn : Int) : Int := s.slotStart asn + s.get SCH_SYNCOFS_OFS

/-- The PENDING relay of the oldest due slot at or before slot `now`, ties to the lower buffer (R269). -/
def oldestRelay (now : W40) (l : List Relay) : Option Relay :=
  (l.filter (fun r => r.st == .pending && (now - r.due).toNat < 2 ^ 39)).foldl (fun b r => match b with
    | none => some r
    | some x =>
      if (now - x.due).toNat < (now - r.due).toNat ∨ (r.due = x.due ∧ r.buf < x.buf) then some r else b) none

def State.modRelay (s : State) (buf : Nat) (f : Relay → Relay) : State :=
  { s with link := { s.link with relays := s.link.relays.map (fun r => if r.buf = buf then f r else r) } }

/-- The first tick of a slot: the relay assist loads its transmit slot (R269).  A refused load is a failed try, which
RELAY_TRY counts. -/
def State.relayLoad (s : State) : State :=
  match oldestRelay s.sched.asn s.link.relays, s.test FOLD_CFG_EN && !s.test FOLD_CFG_BUSY with
  | none, _ => s
  | _, false => s
  | some r, true =>
    let k := s.get RLY_CFG_SLOT
    if s.test (FU_TX_CTL_READY k) then s.raise LNK_FLAGS_SLOTBUSY
    else
      let src := s.get RLY_POOL_BASE + s.get RLY_PCFG_SIZE * 64 * r.buf
      let ch := s.hopChannel s.sched.asn (s.get RLY_CELL_OFS)
      let t := (s.setRg (FU_TX_SRC k) (BitVec.ofNat 20 src)).setRg (FU_TX_LEN k) (BitVec.ofNat 20 r.len)
      let t := t.setRg (FU_TX_CTL k) (BitVec.ofNat 20 (r.rate * 2 ^ 15 + r.bs * 2 ^ 14 + 2 ^ 11 + ch * 2 ^ 5))
      if t.txValid k && src < 2 ^ 20 then
        (t.put (FU_TX_CTL_READY k) 1).modRelay r.buf (fun x => { x with st := .loaded })
      else (t.raise FU_FLAGS_CFG_REFUSED).modRelay r.buf (fun x => { x with st := .failed })

/-- The first tick of a slot: SLOT, the chord's grants and the relay (R224, R269, R322). -/
def State.slotBegin (s : State) : State := ((s.raise SCH_FLAGS_SLOT).chordGrant).relayLoad

/-- SLOT_BOUNDARY (R224): in the tick in which START + SLOTLEN is reached. -/
def execSlotBoundary (s : State) : Out := s.during s.notDormant <|
  if s.test SCH_CTL_RUN ∧ s.reached (s.sched.start + BitVec.ofNat 40 s.sched.slotLen) then
    let t := s.slotLeave.modSched (fun c => { c with start := c.start + BitVec.ofNat 40 c.slotLen, asn := c.asn + 1 })
    .next t.activate.slotBegin
  else .next s

/-- A write of SCH_SLOTLEN (R225). -/
def State.slotLenWrite (s : State) (v : W20) : State :=
  let n := v.toNat
  if 38400 ≤ n ∧ n ≤ 1036800 ∧ s.get SCH_SYNCOFS_OFS < n then s.setRg SCH_SLOTLEN v
  else s.raise SCH_FLAGS_CFG_REFUSED

def execSchSlotlenWrite (v : W20) (s : State) : Out := s.during s.clocked <| .next (s.slotLenWrite v)

/-- A write of SCH_SYNCOFS (R225). -/
def State.syncOfsWrite (s : State) (v : W20) : State :=
  if v.toNat < s.sched.slotLen ∧ v.toNat < s.get SCH_SLOTLEN_LEN then s.setRg SCH_SYNCOFS v
  else s.raise SCH_FLAGS_CFG_REFUSED

def execSchSyncofsWrite (v : W20) (s : State) : Out := s.during s.clocked <| .next (s.syncOfsWrite v)

/-- The schedule loaded with an ASN and its START (R226). -/
def State.schAt (s : State) (asn start : W40) : State :=
  let t := s.slotLeave.modSched (fun c => { c with asn := asn, start := start })
  (t.tables.normalise).1

/-- LOAD (R226). -/
def State.schLoad (s : State) : State :=
  s.schAt (s.get40 SCH_LDASNLO SCH_LDASNHI) (s.get40 SCH_LDSTARTLO SCH_LDSTARTHI)

/-- RUN set or cleared (R226); with RUN 0 no bay occurs (R319). -/
def State.schRun (s : State) (run : Bool) : State :=
  let t := s.put SCH_CTL_RUN (bit run)
  if run && !s.test SCH_CTL_RUN then t.normalise.1 else if run then t else t.chordEnd

/-- A write of SCH_CTL: LOAD acts at the next tick (R226). -/
def State.schCtl (s : State) (v : W20) : State :=
  let t := s.put SCH_CTL_AUTOSTEP (bit (v.getLsbD 2))
  let t := if v.getLsbD 3 then t.modSched (fun c => { c with load := true }) else t
  t.schRun (v.getLsbD 0)

def execSchLoad (s : State) : Out := s.during s.clocked <| .next s.schLoad
def execSchRunSet (s : State) : Out := s.during s.clocked <| .next (s.schRun true)

/-- A read of SCH_ASNLO takes the snapshot (R227). -/
def State.asnSnapshot (s : State) : State :=
  (s.set40 SCH_ASNLO SCH_ASNHI s.sched.asn).set40 SCH_STARTLO SCH_STARTHI s.sched.start

def execSchAsnloRead (s : State) : Out := s.during s.clocked <| .next s.asnSnapshot

/-- A write of HOP_k: each entry on its own (R229). -/
def State.hopWrite (s : State) (k : Nat) (v : W20) : State :=
  (List.range (if k = 21 then 1 else 3)).foldl (fun t i =>
    let ch := v.toNat / 64 ^ i % 64
    if 47 < ch then t.raise SCH_FLAGS_CFG_REFUSED else t.put ⟨HOP k, 6 * i + 5, 6 * i⟩ ch) s

/-- A write of SCH_HOPLEN (R229). -/
def State.hopLenWrite (s : State) (v : W20) : State :=
  let n := v.toNat % 128
  if n = 0 ∨ 64 < n then s.raise SCH_FLAGS_CFG_REFUSED else s.put SCH_HOPLEN_L n

/-- HOP_WRITE (R229): of HOP_k, or of SCH_HOPLEN. -/
def execHopWrite (k : Option (Fin 22)) (v : W20) (s : State) : Out := s.during s.clocked <|
  match k with
  | some k => .next (s.hopWrite k.val v)
  | none => .next (s.hopLenWrite v)

/-- What SCH_HOPQ reads as (R230): the channel of slot ASN + DELTA in the active table. -/
def State.hopQuery (s : State) : W20 :=
  let ch := s.hopChannel (BitVec.ofInt 40 (s.sched.asn.toNat + s.getInt SCH_HOPQ_DELTA)) (s.get SCH_HOPQ_OFS_CH)
  (s.rg SCH_HOPQ &&& 0x3FF00) ||| BitVec.ofNat 20 ch

/-- SCH_HOPQ_READ (R230): what is read is `hopQuery`; the read changes nothing. -/
def execSchHopqRead (s : State) : Out := s.during s.clocked <| .next s

/-! ## Records of the neighbour table (R237) -/

/-- A neighbour record's fields; `era` is SCH_ERA at LAST, of which the record in memory keeps four bits. -/
structure NbRec where
  st    : Nat
  miss  : Nat
  tsrc  : Bool
  nsamp : Nat
  unc   : Nat
  addr  : BitVec 32
  era   : Nat
  ofs   : Int
  last  : W40
  drift : Int
  si    : Nat
  rvOfs : Nat
  phase : Nat
  llen  : Nat
deriving DecidableEq, Repr

/-- Word `k` of ten words stored as triples. -/
def tripleAt (l : List Byte) (k : Nat) : Nat := (wordOf (l.drop (3 * k))).toNat

/-- A record from its 30 bytes. -/
def NbRec.ofBytes (l : List Byte) : NbRec :=
  let w := tripleAt l
  { st := w 0 / 2 ^ 18, miss := w 0 / 2 ^ 15 % 8, tsrc := w 0 / 2 ^ 14 % 2 = 1, nsamp := w 0 / 2 ^ 10 % 8
    unc := w 0 % 2 ^ 10, addr := BitVec.ofNat 32 (w 2 % 2 ^ 12 * 2 ^ 20 + w 1), era := w 2 / 2 ^ 16
    ofs := signed 40 (w 4 * 2 ^ 20 + w 3), last := BitVec.ofNat 40 (w 6 * 2 ^ 20 + w 5), drift := signed 20 (w 7)
    si := w 8 / 2 ^ 6, rvOfs := w 8 % 2 ^ 6, phase := w 9 / 2 ^ 6, llen := w 9 % 2 ^ 6 }

/-- Words 0 to 7, which the device writes. -/
def NbRec.toBytes (r : NbRec) : List Byte :=
  let o := unsigned 40 r.ofs
  toBytesLE 3 (r.st * 2 ^ 18 + r.miss * 2 ^ 15 + bit r.tsrc * 2 ^ 14 + r.nsamp * 2 ^ 10 + r.unc) ++
    toBytesLE 3 (r.addr.toNat % 2 ^ 20) ++ toBytesLE 3 (r.era % 16 * 2 ^ 16 + r.addr.toNat / 2 ^ 20) ++
    toBytesLE 3 (o % 2 ^ 20) ++ toBytesLE 3 (o / 2 ^ 20) ++
    toBytesLE 3 (r.last.toNat % 2 ^ 20) ++ toBytesLE 3 (r.last.toNat / 2 ^ 20) ++ toBytesLE 3 (unsigned 20 r.drift)

def State.nbAt (s : State) (i : Nat) : Nat := s.get NBT_BASE_BASE + 32 * i

def eraDflt : Nat → Option Nat := fun _ => none

/-- SCH_ERA at the LAST of record `i`, whose record keeps its low bits `low`: as the device wrote it, else the latest
era not after the present one (notes/assumptions/12.md). -/
def State.eraFull (s : State) (i low : Nat) : Nat :=
  let now := s.get SCH_ERA_ERA
  let near := (now + 2 ^ 20 - (now + 16 - low % 16) % 16) % 2 ^ 20
  match tabGet eraDflt s.sched.eras i with
  | some e => if e % 16 = low % 16 then e else near
  | none => near

/-- Record `i` as its bytes stand; its read is checked like any read of SRAM (R115). -/
def State.nbRead (s : State) (i : Nat) : NbRec × State :=
  let r := NbRec.ofBytes (s.bytes .sram (s.nbAt i) 30)
  ({ r with era := s.eraFull i r.era }, (s.ramRead .sram (s.nbAt i) 30).2)

def State.nbWrite (s : State) (i : Nat) (r : NbRec) : State :=
  (s.ramWrite .sram (s.nbAt i) r.toBytes).modSched (fun c => { c with eras := tabSet eraDflt c.eras i (some r.era) })

/-- A record as it stands. -/
def State.nb (s : State) (i : Nat) : NbRec := (s.nbRead i).1

def State.nbCount (s : State) : Nat := s.get NBT_SIZE_COUNT
def State.nbOn (s : State) : Bool := s.test NBT_SIZE_EN && s.nbCount != 0

/-- The probe sequence of a key (R239). -/
def State.nbProbe (s : State) (key : BitVec 32) : List Nat :=
  let n := s.get NBT_SIZE_PROBE
  (List.range (if n = 0 then 16 else n)).map (fun j => (key.toNat % s.nbCount + j) % s.nbCount)

/-- The record of a key (R239). -/
def State.nbFind (s : State) (key : BitVec 32) : Option Nat :=
  if s.nbOn then (s.nbProbe key).find? (fun i => (s.nb i).st != 0 && (s.nb i).addr == key) else none

/-! ## Age, prediction and guard (R240) -/

/-- The era of mesh time `t`, the instant nearest the present (R245). -/
def State.eraOf (s : State) (t : W40) : Nat :=
  let full : Int := s.get SCH_ERA_ERA * 2 ^ 40 + s.mesh.toNat + (t - s.mesh).toInt
  (full / 2 ^ 40 % 2 ^ 20).toNat

/-- The age of a record at `t`, with wraps counted: 16 or more are taken as 2^44 - 1, and a time before LAST as 0. -/
def State.nbAge (s : State) (r : NbRec) (t : W40) : Nat :=
  let d := signed 20 (unsigned 20 ((s.eraOf t : Int) - r.era)) * 2 ^ 40 + t.toNat - r.last.toNat
  if 2 ^ 44 ≤ d then 2 ^ 44 - 1 else d.toNat

def State.nbPred (s : State) (r : NbRec) (t : W40) : Int :=
  r.ofs + roundDiv (r.drift * 16 * s.nbAge r t) (10 ^ 10)

def State.nbGuard (s : State) (r : NbRec) (t : W40) : Nat :=
  s.get NBT_CFG_GBASE + ceilDiv (r.unc * s.nbAge r t) (10 ^ 7)

/-- A drift within its field. -/
def clampDrift (d : Int) : Int := max (-524287) (min 524287 d)

/-- An accepted sample (R240). -/
def State.nbAccept (s : State) (r : NbRec) (t : W40) (θ : Int) : NbRec :=
  let a := s.nbAge r t
  let c := if a = 0 then 0 else roundDiv ((θ - s.nbPred r t) * 10 ^ 10) (16 * a)
  let w := if r.nsamp = 1 then 0 else min (r.nsamp - 1) (s.get NBT_CFG_WMAX)
  let r := if r.nsamp = 0 then r
    else { r with drift := clampDrift (r.drift + roundDiv c (2 ^ w))
                  unc := min 1023 (max (s.get NBT_UCFG_UMIN) (ceilDiv (2 * c.natAbs) 1000)) }
  { r with ofs := θ, last := t, era := s.eraOf t, nsamp := min (r.nsamp + 1) 7, miss := 0, st := 2 }

/-- A resynchronisation (R244). -/
def State.nbResync (s : State) (r : NbRec) (t : W40) (θ : Int) : NbRec :=
  { r with ofs := θ, last := t, era := s.eraOf t, nsamp := 1, miss := 0, unc := min 1023 (2 * r.unc), st := 2 }

/-! ## Steps of mesh time (R10, R245) -/

/-- Every non-EMPTY record follows a step of `d` ticks, and every VALID catch record. -/
def State.sweepNow (s : State) (d : Int) : State :=
  let t := (List.range s.nbCount).foldl (fun t i =>
    let (r, t) := t.nbRead i
    if r.st = 0 then t
    else
      let full : Int := (r.era * 2 ^ 40 + r.last.toNat : Nat) + d
      t.nbWrite i { r with last := BitVec.ofInt 40 full, era := (full / 2 ^ 40 % 2 ^ 20).toNat, ofs := r.ofs - 16 * d }) s
  (List.range 4).foldl (fun t n =>
    if t.test (KC_INFO_VALID n) then
      t.set40 (KC_DLO n) (KC_DHI n) (t.get40 (KC_DLO n) (KC_DHI n) + BitVec.ofInt 40 d)
    else t) t

/-- A sweep begins, or waits for the one that runs. -/
def State.sweepGo (s : State) (d : Int) : State :=
  if s.sched.sweep then s.modSched (fun c => { c with sweepQ := c.sweepQ ++ [d] })
  else ((s.sweepNow d).modSched (fun c => { c with sweep := true })).put NBT_STAT_BUSY 1

/-- Mesh time moves, with the era of its wraps. -/
def State.meshMove (s : State) (d : Int) : State :=
  let m : Int := s.mesh.toNat + d
  let t := s.put SCH_ERA_ERA (((s.get SCH_ERA_ERA : Int) + m / 2 ^ 40) % 2 ^ 20).toNat
  { t with mesh := BitVec.ofInt 40 m }

/-- The armed actions whose time a forward step passed (R10). -/
def State.markPassed (s : State) (old : W40) : State :=
  { s with cores := s.cores.map (fun x => { x with acts := x.acts.map (fun a =>
      if (a.status == .armed || a.status == .reserving || a.status == .reserved) &&
          !((old - a.fire).toNat < 2 ^ 39) && (s.mesh - a.fire).toNat < 2 ^ 39 && s.mesh != a.fire
      then { a with passed := true } else a) }) }

/-- A step of mesh time (R10, R245): the schedule follows with SLOT, SKIP or BACK; a forward move is a boundary. -/
def State.meshStep (s : State) (d : Int) : State :=
  if d = 0 then s
  else
    let t := s.meshMove d
    let t := if 0 < d then t.markPassed s.mesh else t
    let t :=
      if t.test SCH_CTL_RUN then
        let (u, k) := t.normalise
        if 0 < k then
          let u := t.slotLeave.normalise.1.activate.slotBegin
          if 2 ≤ k then u.raise SCH_FLAGS_SKIP else u
        else if k < 0 then u.raise SCH_FLAGS_BACK
        else u
      else t
    t.sweepGo d

/-- MESH_TIME_STEP (R245): the step itself; a write of SCH_STEPLO brings it in the next tick. -/
def execMeshTimeStep (delta : W40) (s : State) : Out := s.during s.notDormant <| .next (s.meshStep delta.toInt)

/-! ## Samples (R240, R241) -/

/-- The sample is applied (R240). -/
def State.sampleApply (s : State) (x : Sample) : State :=
  let s := match x.ann with
    | some (n, _) => s.put (KC_INFO_VALID n) 0
    | none => s
  match s.nbFind x.addr with
  | none => s
  | some i =>
    let (r, s) := s.nbRead i
    let pred := if r.st = 1 then 0 else s.nbPred r x.t
    let m0 := s.mark s.sched.asn.toNat
    let e : Int := match x.ann with
      | some (_, a) => (BitVec.ofInt 40 (s.mark a.toNat) - x.t).toInt
      | none =>
        let d := (x.t - BitVec.ofInt 40 m0).toInt
        roundDiv (16 * d + pred) (16 * max 1 s.sched.slotLen) * s.sched.slotLen - d
    let θ := 16 * e
    let within := if r.st = 1 then decide (θ.natAbs ≤ 16 * s.get NBT_ACQWIN_WIN)
      else decide ((θ - s.nbPred r x.t).natAbs ≤ 16 * s.nbGuard r x.t)
    let resync := fun (t : State) => ((t.nbWrite i (t.nbResync r x.t θ)).bump NBT_CNT1_RESYNCS).raise SCH_FLAGS_RESYNC
    if r.st = 0 then s
    else if r.st = 3 then (if x.ann.isSome then resync s else s)
    else if (r.st = 1 ∧ x.ann.isSome) ∨ within then
      let t := ((s.nbWrite i (s.nbAccept r x.t θ)).bump NBT_CNT0_ACCEPTED).modSched
        (fun c => { c with taken := c.taken.filter (fun e => e.1 == s.tick) ++ [(s.tick, i)] })
      let d := roundDiv θ 16
      if t.test SCH_CTL_AUTOSTEP && r.tsrc && decide (t.get SCH_STEPMIN_MIN ≤ d.natAbs) && d != 0 then
        t.modSched (fun c => { c with steps := c.steps ++ [(d, true)] })
      else t
    else if x.ann.isSome then resync s
    else s.bump NBT_CNT0_OUTLIER

/-- A frame of source `addr` and position `p` is offered as a time sample (R240): it waits in order of arrival, those
of one tick in ascending position order (R241). -/
def State.sampleOffer (s : State) (addr : BitVec 32) (p : Nat) (r : SyncRec) : State :=
  if s.test SCH_CTL_RUN && s.nbOn && (s.nbFind addr).isSome then
    let x : Sample := { addr := addr, pos := p, t := r.ts, ann := r.ann, at_ := s.tick }
    let first := fun (y : Sample) => decide (y.at_ < s.tick ∨ y.pos ≤ p)
    s.modSched (fun c => { c with samples := c.samples.takeWhile first ++ [x] ++ c.samples.dropWhile first })
  else s

/-- Samples are applied from the tick after their frame became eligible, while no command and no sweep runs (R241);
while RUN is 0 none is taken (R224). -/
def State.sampleRun (s : State) : State :=
  s.sched.samples.foldl (fun t x =>
    if t.sched.sweep || t.sched.busy || t.tick ≤ x.at_ then t
    else
      let u := t.modSched (fun c => { c with samples := c.samples.drop 1 })
      if u.test SCH_CTL_RUN then u.sampleApply x else u) s

/-- The schedule of an acquired time frame is loaded, after its step; RUN is set and ACQ clears (R330). -/
def State.acqLoad (s : State) : State :=
  match s.chord.acq with
  | some (asn, start) =>
    (((s.modChord (fun c => { c with acq := none })).schAt asn start).put CHD_CTL_ACQ 0).put SCH_CTL_RUN 1
  | none => s

/-- What a tick brings: a LOAD written in the last tick, the steps written or found in it, then the waiting samples
(R226, R241, R245). -/
def State.schedTick (s : State) : State :=
  let s := if s.sched.load then (s.modSched (fun c => { c with load := false })).schLoad else s
  let t := s.sched.steps.foldl (fun t e => if e.2 then (t.meshStep e.1).raise SCH_FLAGS_STEPPED else t.meshStep e.1)
    (s.modSched (fun c => { c with steps := [] }))
  t.acqLoad.sampleRun

/-- STEP_SWEEP_DONE (R245): the next sweep begins, or the samples that waited are taken (R241). -/
def execStepSweepDone (s : State) : Out := s.during s.notDormant <|
  if !s.sched.sweep then .next s
  else match s.sched.sweepQ with
    | d :: q => .next ((s.sweepNow d).modSched (fun c => { c with sweepQ := q }))
    | [] =>
      .next ((s.modSched (fun c => { c with sweep := false })).put NBT_STAT_BUSY (bit s.sched.busy)).sampleRun

end Sys2Proof.Machine
end

