-- ==== Sys2Proof/Machine/Stalls.lean ====
section
/-! DEFINITION. The channel plan, the lane map and the 48 stalls from preamble to sync and capture (R164-R181, R194,
R195).  What the bin detectors measure is an operand. -/

namespace Sys2Proof.Machine

/-! ## Plan, map and configuration writes (R164, R166, R168, R194, R195) -/

/-- The RATE code of a spacing's highest symbol rate (R164). -/
def topRate : Nat → Nat
  | 0 => 1 | 1 => 2 | 2 => 2 | _ => 3

/-- A write of STC_PLAN (R166). -/
def State.planWrite (s : State) (v : W20) : State :=
  let n := v.toNat % 4
  if s.stcLocked then s
  else if (s.get RFE_STATE_STATE = 0 ∨ s.get RFE_STATE_STATE = 2) ∧
      (List.range 48).all (fun p => s.get (STL_CFG_RATE p) ≤ topRate n) then
    { s.put STC_PLAN_SPACING n with radio := { s.radio with blankTo := untilListen } }.stallSync
  else s.raise STC_FLAGS_CFG_REFUSED

def execStcPlanWrite (v : W20) (s : State) : Out := s.during s.clocked <| .next (s.planWrite v)

/-- The lane that carries each position. -/
def State.laneMap (s : State) : List Nat := (List.range 48).map (fun p => s.get (laneOf p))

/-- FLT_SPARE.LANES: the spare lanes in use (R472). -/
def State.lanesShow (s : State) : State :=
  s.put FLT_SPARE_LANES (([48, 49, 50, 51].filter s.laneMap.contains).length)

/-- Lane `n` is marked in STC_LANEFAIL. -/
def State.laneFailed (s : State) (n : Nat) : Bool := n < 52 && (s.rg (STC_LANEFAIL (n / 20))).getLsbD (n % 20)

/-- Whether another position than `p` carries lane `n` in map `m`. -/
def laneTaken (m : List Nat) (p n : Nat) : Bool := (List.range 48).any (fun q => q != p && m[q]? == some n)

/-- The second pass of R168: of the changed fields (position, lane) not yet refused, those that no other position
carries in the map they form, repeated until no further field is refused. -/
def mapSettle : Nat → List Nat → List (Nat × Nat) → List (Nat × Nat)
  | 0, _, l => l
  | n + 1, m, l =>
    let formed := l.foldl (fun m e => m.set e.1 e.2) m
    mapSettle n m (l.filter (fun e => e.2 == 63 || !laneTaken formed e.1 e.2))

/-- A write of STC_MAPk (R168). DESIGN CHOICE: a value from 52 to 62 names no lane, and the spec says nothing of it;
the field takes it as it takes a healthy lane's number (notes/assumptions/62.md). -/
def State.mapWrite (s : State) (k : Nat) (v : W20) : State :=
  if s.stcLocked then s
  else
    let changed := ((List.range 3).map (fun i => (3 * k + i, v.toNat / 64 ^ i % 64))).filter
      (fun e => s.get (laneOf e.1) != e.2)
    let first := changed.filter (fun e => !s.test (STL_CFG_EN e.1) && !s.laneFailed e.2)
    let done := mapSettle 4 s.laneMap first
    let t := (done.foldl (fun t e => t.put (laneOf e.1) e.2) s).lanesShow
    if done.length < changed.length then t.raise STC_FLAGS_CFG_REFUSED else t

def execStcMapWrite (k : Fin 16) (v : W20) (s : State) : Out := s.during s.clocked <| .next (s.mapWrite k.val v)

/-- STL_CFG written, the EN bit apart from actions of the tick. -/
def State.stlCfgPut (p : Nat) (v : W20) (s : State) : State :=
  let old := s.rg (STL_CFG p)
  if (old.getLsbD 19 && (old &&& 0x7FFFF) != (v &&& 0x7FFFF)) ∨
      topRate (s.get STC_PLAN_SPACING) < v.toNat / 2 ^ 16 % 4 ∨
      (v.getLsbD 19 && !old.getLsbD 19 && !s.mapped p) then s.raise STC_FLAGS_CFG_REFUSED
  else (s.setRg (STL_CFG p) v).stallFollow p

/-- A write of STL_CFG (R168, R170, R195). -/
def State.stlCfg (s : State) (p : Nat) (v : W20) : State :=
  if s.stcLocked then s else s.enWritten p (State.stlCfgPut p v)

/-- A write of STL_SYNCHI (R195). -/
def State.stlSyncHi (s : State) (p : Nat) (v : W20) : State :=
  let n := v.toNat / 2 ^ 12 % 64
  if s.stcLocked then s
  else if n < 16 ∨ 32 < n then s.raise STC_FLAGS_CFG_REFUSED
  else s.setRg (STL_SYNCHI p) v

/-- A write of STC_EN0-STC_EN2 (R194): every bit at once. -/
def State.enWrite (s : State) (r : Nat) (v : W20) : State :=
  if s.stcLocked then s
  else (List.range (if r < 2 then 20 else 8)).foldl (fun t i =>
    t.enWritten (20 * r + i) (fun t => t.stallEn (20 * r + i) (v.getLsbD i))) s

/-- STALL_ENABLE (R170): by register, or by an action of kind 0x4 or 0x5. -/
def execStallEnable (p : Pos) (en byAction : Bool) (s : State) : Out := s.during s.clocked <|
  .next (if byAction then s.stallAction false p.val en
    else if s.stcLocked then s else s.enWritten p.val (fun t => t.stallEn p.val en))

/-! ## From preamble to sync (R172-R176) -/

def State.stl (s : State) (p : Nat) : Nat := s.get (STL_STATUS_STATE p)

/-- The ticks of one symbol at the stall's rate. -/
def State.symTicks (s : State) (p : Nat) : Nat :=
  match s.get (STL_CFG_RATE p) with
  | 0 => 1536 | 1 => 768 | 2 => 384 | _ => 192

/-- Whether aerial B (else A) counts on a stall: its chain is in the window, and no other aerial is forced (R171). -/
def State.aerialOn (s : State) (p : Nat) (b : Bool) : Bool :=
  let a := s.aerial p
  if b then s.window / 2 == 1 && a != 1 else s.window % 2 == 1 && a != 2

/-- SYNCWAIT is entered on an aerial, with the means where diversity measured them (R174). -/
def State.syncWait (s : State) (p : Nat) (onB : Bool) (meanA meanB : BitVec 10) : State :=
  (s.modStall p (fun x => { x with choice := s.tick, onB := onB, meanA := meanA, meanB := meanB })).put
    (STL_STATUS_STATE p) 4

/-- `n` symbols have reached RFIN since tick `b`. -/
def State.symsSince (s : State) (p b n : Nat) : Bool := b + n * s.symTicks p ≤ s.tick

/-- PREAMBLE_DETECT (R173): over PDET symbols that reached RFIN since the stall searches (R183); without diversity the
only aerial is chosen at once (R174). -/
def execPreambleDetect (p : Pos) (qualA qualB : BitVec 10) (s : State) : Out := s.during s.inAir <|
  let th := s.get STC_DETCFG_PTHR
  let a := s.aerialOn p.val false && th ≤ qualA.toNat
  let b := s.aerialOn p.val true && th ≤ qualB.toNat
  if s.stl p.val ≠ 2 ∨ !(a || b) ∨ !s.symsSince p.val (s.stall p.val).search (max 4 (s.get STC_RXCFG_PDET)) then .next s
  else if s.diversity p.val then
    .next ((s.modStall p.val (fun x => { x with heard := s.tick })).put (STL_STATUS_STATE p.val) 3)
  else .next (s.syncWait p.val (s.aerialOn p.val true) 0 0)

/-- AERIAL_CHOICE (R174): over DWIN symbols since the preamble. -/
def execAerialChoice (p : Pos) (meanA meanB : BitVec 10) (s : State) : Out := s.during s.inAir <|
  .next (if s.stl p.val = 3 ∧ s.symsSince p.val (s.stall p.val).heard (max 1 (s.get STC_RXCFG_DWIN)) then
    s.syncWait p.val (meanA.toNat < meanB.toNat) meanA meanB else s)

/-- NOSYNC (R176): the count of symbols since the choice has passed SYNC_TO, and so no sync can still be declared in
the symbol in which the timeout expires (R18, notes/assumptions/52.md). -/
def execNosync (p : Pos) (s : State) : Out := s.during s.inAir <|
  .next (if s.stl p.val = 4 ∧ (s.stall p.val).knock = none ∧
      s.symsSince p.val (s.stall p.val).choice (max 1 (s.get STC_SYNCTO_SYNC_TO) + 1) then
    (s.put (STL_STATUS_STATE p.val) 2).stallLast p.val 6 else s)

/-! ## At sync, and capture (R172, R175, R177-R181) -/

/-- A stall's sync word (R172). -/
def State.syncWord (s : State) (p : Nat) : BitVec 32 :=
  BitVec.ofNat 32 (s.get (STL_SYNCHI_HI p) * 2 ^ 20 + s.get (STL_SYNCLO_LO p))

/-- In how many of the last `n` positions hard decisions differ from the sync word (R175, R234). -/
def State.syncDiff (s : State) (p n : Nat) (hard : BitVec 32) : Nat :=
  (List.range n).countP (fun i => hard.getLsbD i != (s.syncWord p).getLsbD i)

/-- A correlator matches: its last LEN hard decisions differ from the sync word in at most ERRS positions (R175). -/
def State.syncMatch (s : State) (p : Nat) (rx : AerialRx) : Bool :=
  s.syncDiff p (s.get (STL_SYNCHI_LEN p)) rx.hard ≤ s.get (STL_SYNCHI_ERRS p)

/-- Of the aerials that count, the one with the larger sync correlation, A on a tie: some true for B (R175, R234). -/
def bestAerial (a b : Bool) (rxA rxB : AerialRx) : Option Bool :=
  if a && b then some (decide (rxA.corr.toNat < rxB.corr.toNat)) else if a then some false
  else if b then some true else none

/-- The aerial that declares a sync in the stall's state, of LEN symbols since the stall searches: some true for B;
none where no match counts (R175, R183). -/
def State.declares (s : State) (p : Nat) (rxA rxB : AerialRx) : Option Bool :=
  let a := s.syncMatch p rxA && s.aerialOn p false
  let b := s.syncMatch p rxB && s.aerialOn p true
  let x := s.stall p
  let near := s.tick - x.choice ≤ max 1 (s.get STC_RXCFG_PWIN) * s.symTicks p
  if s.stl p < 2 ∨ 5 < s.stl p ∨ !s.symsSince p x.search (s.get (STL_SYNCHI_LEN p)) then none
  else if s.stl p = 4 ∧ near then (if x.onB then (if b then some true else none) else if a then some false else none)
  else bestAerial a b rxA rxB

/-- The catch record that announces a frame of position `p` with its sync at mesh time `t` (R235). -/
def State.announced (s : State) (p : Nat) (t : W40) : Option Nat :=
  (List.range 4).find? (fun n => s.test (KC_INFO_VALID n) && s.get (KC_INFO_POS n) == p &&
    (t - s.get40 (KC_DLO n) (KC_DHI n)).toInt.natAbs ≤ 2 * s.symTicks p)

/-- The announced ASN nearest the present whose low bits are `low` (R235). -/
def State.asnNear (s : State) (low : Nat) : W40 :=
  let a := s.sched.asn.toNat
  let b : Int := (a / 2 ^ 20 * 2 ^ 20 + low : Nat)
  BitVec.ofInt 40 (if 2 ^ 19 < b - a then b - 2 ^ 20 else if b - a < -(2 ^ 19) then b + 2 ^ 20 else b)

/-- The sync record of a sync on an aerial (R177): mesh time, what the correlator measured, and the mean QUALs of the
aerial choice in SYNCWAIT (0 where none was measured, notes/assumptions/52.md); a sync that is declared is announced
or not as the catch records then stand (R235). -/
def State.syncRec (s : State) (p : Nat) (onB : Bool) (rxA rxB : AerialRx) : SyncRec :=
  let rx := if onB then rxB else rxA
  let x := s.stall p
  let (q, o) := if s.stl p = 4 then (if onB then (x.meanB, x.meanA) else (x.meanA, x.meanB)) else (0, 0)
  { ts := s.mesh, rssi := rx.rssi, fofs := rx.fofs, ovl := rx.ovl, onB := onB, qual := q, other := o
    ann := (s.announced p s.mesh).map (fun n => (n, s.asnNear (s.get (KC_ASN_VALUE n)))) }

/-- A packet begins with descriptor `i` of pool `q`, which its sync took or which a captured packet leaves it (R179,
R180). A knock being read is left for it. -/
def State.packetStart (s : State) (p : Nat) (q : Fin 2) (i : Nat) (took : Bool) (r : SyncRec) : State :=
  let id := s.frame.nextId
  let f : Frame := { id := id, pos := p, pool := q.val, idx := i, took := took, sync := r, began := s.tick
                     sym := s.symTicks p, order := s.get (STL_CFG_ORDER p) + 1, hdr := 0, sun := s.test (STL_CFG_FORMAT p)
                     headed := false, len := 0, rate := 0, bs := 0, mode := 0, blocks := [], queued := 0, last := false }
  let t := { s with frame := { s.frame with frames := s.frame.frames ++ [f], nextId := id + 1 } }
  let t := t.modStall p (fun x => { x with sync := r, frame := some id, knock := none })
  let t := (t.put (STL_STATUS_STATE p) 5).put (STL_STATUS_AERIAL p) (bit r.onB)
  ((t.put (STL_STATUS_HOLDS p) 1).put (STL_STATUS_POOL p) q.val).put (STL_STATUS_INDEX p) i

/-- A sync finds no free descriptor: the packet is abandoned in the same symbol (R179, R185). -/
def State.noDesc (s : State) (p : Nat) (r : SyncRec) : State :=
  let t := s.modStall p (fun x => { x with sync := r, frame := none, knock := none })
  (((t.put (STL_STATUS_AERIAL p) (bit r.onB)).put (STL_STATUS_HOLDS p) 0).put (STL_STATUS_STATE p) 2).stallLast p 5

/-! ### Takes of one tick (R187) -/

/-- The positions above `p` that have taken a descriptor of pool `q` in this tick, ascending. -/
def State.tookAbove (s : State) (q : Fin 2) (p : Nat) : List Nat :=
  (List.range 48).filter (fun x => p < x && (match (s.stall x).frame.bind s.frameOf with
    | some f => f.took && f.began == s.tick && f.pool == q.val
    | none => false))

/-- Position `p`'s packet takes over descriptor `i`. -/
def State.reseat (s : State) (p i : Nat) : State :=
  let t := match (s.stall p).frame.bind s.frameOf with
    | some f => s.setFrame { f with idx := i }
    | none => s
  t.put (STL_STATUS_INDEX p) i

/-- A take for position `p`: higher positions that took in the same tick are served after it, so each passes its
descriptor down, and the last takes the new one or goes without. -/
def State.takeFor (s : State) (p : Nat) (q : Fin 2) : Option (Nat × State) :=
  let above := s.tookAbove q p
  let idx := above.map (fun x => s.get (STL_STATUS_INDEX x))
  match idx.head?, s.descTake q with
  | none, r => r
  | some i, some (j, t) => some (i, (above.zip (idx.tail ++ [j])).foldl (fun t e => t.reseat e.1 e.2) t)
  | some i, none =>
    let t := (above.zip idx.tail).foldl (fun t e => t.reseat e.1 e.2) s
    let x := (above.getLast?).getD 0
    let t := match (t.stall x).frame with
      | some id => t.frameWithdraw id
      | none => t
    some (i, t.noDesc x (t.stall x).sync)

/-- Whether a sync of record `r` captures the stall's packet (R180). -/
def State.captures (s : State) (p : Nat) (r : SyncRec) : Bool :=
  (s.stall p).sync.rssi.toInt + 4 * s.get STC_RXCFG_CAPTURE_DB ≤ r.rssi.toInt

/-- A sync that starts a packet from a state other than RECEIVE (R179). -/
def State.packetNew (s : State) (p : Nat) (r : SyncRec) : State :=
  let q := poolIx (s.get (STL_CFG_POOL p))
  match s.takeFor p q with
  | some (i, u) => u.packetStart p q i true r
  | none => s.noDesc p r

/-- A sync captures the stall's packet (R180). -/
def State.packetCapture (s : State) (p : Nat) (r : SyncRec) : State :=
  let t := match (s.stall p).frame with
    | some id => s.frameWithdraw id
    | none => s
  (t.stallLast p 2).packetStart p (poolIx (s.get (STL_STATUS_POOL p))) (s.get (STL_STATUS_INDEX p)) false r

/-- SYNC_DECLARED (R175, R179-R181). -/
def execSyncDeclared (p : Pos) (rxA rxB : AerialRx) (s : State) : Out := s.during s.inAir <|
  match s.declares p.val rxA rxB with
  | none => .next s
  | some onB =>
    let r := s.syncRec p.val onB rxA rxB
    let t := (s.bump (STL_CNT0_SYNCS p.val)).orbitHear 3 p.val
    if s.stl p.val ≠ 5 then .next (t.packetNew p.val r)
    else match s.packetOver p.val with
      | some f => .next ((t.packetEnd p.val f).packetNew p.val r)
      | none => .next (if s.captures p.val r then t.packetCapture p.val r else s)

/-- A read of STL_TSLO takes the snapshot (R178). -/
def State.snapshot (s : State) (p : Nat) : State :=
  let r := (s.stall p).sync
  let t := s.set40 (STL_TSLO p) (STL_TSHI p) r.ts
  let t := t.setRg (STL_RSSI p) (BitVec.ofNat 20 (bit r.ovl * 2 ^ 13 + bit r.onB * 2 ^ 12 + r.rssi.toNat))
  (t.setRg (STL_FOFS p) (r.fofs.setWidth 20)).setRg (STL_QUAL p)
    (BitVec.ofNat 20 (r.other.toNat * 2 ^ 10 + r.qual.toNat))

def execStlTsloRead (p : Pos) (s : State) : Out := s.during s.clocked <| .next (s.snapshot p.val)

end Sys2Proof.Machine
end

