-- ==== Sys2Proof/Machine/Yard.lean ====
section
/-! DEFINITION. The yard (spec/17): how an offset becomes a device location, contents and inline ECC, the schedulers,
enabling, refresh, retraining, replay, self-refresh and repair. -/

namespace Sys2Proof.Machine

/-! ## Mapping (R415-R419) -/

/-- The device size in bytes (R415). -/
def State.yardD (s : State) : Nat := 2 ^ (29 + s.get YRD_CFG_DENS)

/-- Row bits (R415). -/
def State.yardR (s : State) : Nat := 15 + s.get YRD_CFG_DENS

/-- A channel's usable size (R416). -/
def State.yardU (s : State) : Nat := if s.test YRD_CTL_ECC then 7 * s.yardD / 8 else s.yardD

def State.yardCap (s : State) : Nat := s.yardChans * s.yardU

/-- The start of the bulk area. -/
def State.yardTop (s : State) : Nat := s.get YRD_MAP_QTOP * 2 ^ 24

/-- The queue area's share on each channel (R416). -/
def State.yardH (s : State) : Nat := s.yardTop / s.yardChans

/-- The class of the area an offset lies in: 0 queue, 1 bulk (R416). -/
def State.yardArea (s : State) (q : Nat) : Nat := if q < s.yardTop then 0 else 1

/-- The channel and channel-local address of an offset (R417, R418). -/
def State.yardLocal (s : State) (q : Nat) : Nat × Nat :=
  if q < s.yardTop then
    if s.yardChans = 1 ∨ q < s.yardH then (0, q) else (1, q - s.yardH)
  else
    let b := q - s.yardTop
    if s.yardChans = 1 then (0, s.yardH + b)
    else
      let g := 2 ^ (6 + s.get YRD_MAP_GRAIN)
      (b / g % 2, s.yardH + b / (2 * g) * g + b % g)

/-- The parity of the bits of `n` below bit 20. -/
def parity (n : Nat) : Nat := ((List.range 20).map (fun i => n / 2 ^ i % 2)).sum % 2

/-- Row, bank bits (BG0 BA1 BA0) and byte within the bank's page of a channel-local address; the bank bits of a
queue-class access are changed by the row masks (R419). -/
def State.yardPlace (s : State) (cls a : Nat) : Nat × Nat × Nat :=
  let row := a / 2 ^ 14 % 2 ^ s.yardR
  let m := fun k => if cls = 0 then parity (row &&& (s.rg (YRD_QXOR k)).toNat) else 0
  let x := fun i k => (a / 2 ^ i % 2 + m k) % 2
  (row, 4 * x 13 2 + 2 * x 12 1 + x 11 0, a % 2 ^ 11)

/-- The key of the byte at channel-local address `a` of channel `c`: its channel and device location. -/
def State.yardKeyAt (s : State) (c a : Nat) : Nat :=
  let (row, bank, col) := s.yardPlace (if a < s.yardH then 0 else 1) a
  c * 2 ^ 32 + row * 2 ^ 14 + bank * 2 ^ 11 + col

/-- The key of the yard byte at offset `q`. -/
def State.yardKey (s : State) (q : Nat) : Nat := s.yardKeyAt (s.yardLocal q).1 (s.yardLocal q).2

/-- The number of the row of a channel-local address as R466's tracker keeps it. -/
def State.yardRowAt (s : State) (c a : Nat) : Nat :=
  let (row, bank, _) := s.yardPlace (if a < s.yardH then 0 else 1) a
  (8 * c + bank) * 2 ^ 17 + row

/-! ## Contents and inline ECC (R431) -/

def State.modYard (s : State) (f : Yard → Yard) : State := { s with yard := f s.yard }

def State.ych (s : State) (c : Nat) : YChan := s.yard.ch[c % 2]'(Nat.mod_lt _ (by decide))

def State.modYch (s : State) (c : Nat) (f : YChan → YChan) : State :=
  s.modYard (fun y => { y with ch := y.ch.set (c % 2) (f (s.ych c)) (Nat.mod_lt _ (by decide)) })

/-- The row a key lies in. -/
def keyRow (k : Nat) : Nat := (8 * (k / 2 ^ 32) + k / 2 ^ 11 % 8) * 2 ^ 17 + k / 2 ^ 14 % 2 ^ 17

/-- What an unlisted key holds: 0 where INIT has filled it, and otherwise nothing. -/
def State.yardBase (s : State) (k : Nat) : Option Byte :=
  if (s.ych (k / 2 ^ 32)).zeroed && !s.yard.lost.contains (keyRow k) then some 0 else none

def State.yardByte (s : State) (k : Nat) : Option Byte := tabGet s.yardBase s.yard.bytes k

def State.setYardByte (s : State) (k : Nat) (b : Byte) : State :=
  s.modYard (fun y => { y with bytes := tabSet s.yardBase y.bytes k (some b) })

/-- A byte that holds nothing reads as an open value (R429, R431). -/
def State.yardRead1 (s : State) (k : Nat) : Byte :=
  (s.yardByte k).getD (Config.freeYardByte (s.yard.epoch * 2 ^ 34 + k))

/-- Contents lost: the whole yard. -/
def State.yardLose (s : State) : State :=
  (s.modYard (fun y => { y with bytes := [], lost := [], chk := [], epoch := y.epoch + 1 }))
    |>.modYch 0 (fun c => { c with zeroed := false }) |>.modYch 1 (fun c => { c with zeroed := false })

/-- The check state of the 8-byte word at key `k`: a word with a byte never written fails its check (R431,
notes/assumptions/68.md). -/
def State.yardChk (s : State) (k : Nat) : Chk :=
  if (List.range 8).all (fun i => (s.yardByte (k / 8 * 8 + i)).isSome) then tabGet chkDflt s.yard.chk (k / 8)
  else .bad

def State.setYardChk (s : State) (k : Nat) (c : Chk) : State :=
  s.modYard (fun y => { y with chk := tabSet chkDflt y.chk (k / 8) c })

/-- The address of an error recorded (R431). -/
def State.yardErr (s : State) (c a : Nat) (ue : Bool) : State :=
  (s.setRg YRD_ERRA (BitVec.ofNat 20 a)).setRg YRD_ERRB
    (BitVec.ofNat 20 (bit ue * 2 ^ 19 + c * 2 ^ 18 + a / 2 ^ 20 % 2 ^ 11))

/-- An error the check corrects: written back, counted, recorded and reported (R431). -/
def State.yardFix (s : State) (c a : Nat) : State :=
  let t := (((s.setYardChk (s.yardKeyAt c a) .good).bump YRD_CNT0_CE).yardErr c a false).raise YRD_FLAGS_CE
  t.report 25 (t.rg YRD_ERRA)

/-- An error the check corrects, with its row's count (R431, R466). -/
def State.yardCe (s : State) (c a : Nat) : State := (s.yardFix c a).trackYard (s.yardRowAt c a)

/-- An error the check cannot correct (R431, R466). -/
def State.yardUe (s : State) (c a : Nat) : State :=
  let t := ((s.bump YRD_CNT0_UE).yardErr c a true).raise YRD_FLAGS_UE
  (t.report 26 (t.rg YRD_ERRA)).candidate (s.yardRowAt c a) true

/-- The channel-local places of the first byte of `len` bytes at offset `q` in each 8-byte word they touch, with
whether the bytes cover the word whole. -/
def State.yardWords (s : State) (q len : Nat) : List ((Nat × Nat) × Bool) :=
  (List.range len).filterMap (fun i =>
    if i = 0 ∨ (q + i) % 8 = 0 then some (s.yardLocal (q + i), (q + i) % 8 == 0 && i + 8 ≤ len) else none)

/-- The state of the word at a channel-local place. -/
def State.wordChk (s : State) (w : Nat × Nat) : Chk := s.yardChk (s.yardKeyAt w.1 w.2)

/-- The errors of the words that a read finds: those it corrects, then the first it cannot, then the rows' counts, so
that the reports of one access stand in the order of their codes (R431, R464, R466). -/
def State.yardFound (s : State) (ws : List (Nat × Nat)) (ue : Option (Nat × Nat)) : State :=
  let ces := ws.filter (fun w => s.wordChk w == .correctable)
  let t := ces.foldl (fun (t : State) w => t.yardFix w.1 w.2) s
  let t := (ue.map (fun w => t.yardUe w.1 w.2)).getD t
  ces.foldl (fun (t : State) w => t.trackYard (t.yardRowAt w.1 w.2)) t

/-- A read performed: its bytes, or none where a word cannot be corrected. -/
def State.yardLoad (s : State) (q len : Nat) : Option (List Byte) × State :=
  if !s.test YRD_CTL_ECC then (some ((List.range len).map (fun i => s.yardRead1 (s.yardKey (q + i)))), s)
  else
    let ws := (s.yardWords q len).map (·.1)
    let ue := ws.find? (fun w => s.wordChk w == .bad || s.wordChk w == .poison)
    let t := s.yardFound ws ue
    (if ue.isSome then none else some ((List.range len).map (fun i => t.yardRead1 (t.yardKey (q + i)))), t)

/-- A write performed: a word written whole needs no read; of any other, an error that cannot be corrected leaves the
word poisoned and its row a candidate (R431, R466). -/
def State.yardStore (s : State) (q : Nat) (bs : List Byte) : State :=
  let t := if !s.test YRD_CTL_ECC then s else
    let (whole, part) := (s.yardWords q bs.length).partition (·.2)
    let bad := (part.map (·.1)).filter (fun w => s.wordChk w == .bad || s.wordChk w == .poison)
    let t := whole.foldl (fun (t : State) w => t.setYardChk (t.yardKeyAt w.1.1 w.1.2) .good) s
    let t := t.yardFound (part.map (·.1)) none
    bad.foldl (fun (t : State) w =>
      (t.setYardChk (t.yardKeyAt w.1 w.2) .poison).candidate (t.yardRowAt w.1 w.2) true) t
  (List.range bs.length).foldl (fun t i => t.setYardByte (t.yardKey (q + i)) (bs[i]?.getD 0)) t

/-! ## States and requests (R420, R423, R424) -/

def yOFF : Nat := 0
def yTRAINING : Nat := 1
def yREADY : Nat := 2
def ySELF : Nat := 3
def yFAILED : Nat := 4

def State.yst (s : State) : Nat := s.get YRD_STAT_STATE

/-- The yard's state changed; CAP reads 0 outside READY (R416, R423). -/
def State.setYst (s : State) (n : Nat) : State :=
  let t := s.put YRD_STAT_STATE n
  t.put YRD_STAT_CAP (if n = yREADY then t.yardCap / 2 ^ 24 else 0)

/-- Controller cycles in `n` mesh ticks (R415). -/
def State.yardCycles (s : State) (n : Nat) : Nat := if s.test YRD_CFG_SPEED then n * 625 / 72 else n * 125 / 12

/-- The yard decodes an access of `len` bytes at offset `q` (R11, R423). -/
def State.yardDecodes (s : State) (q len : Nat) : Bool := s.yst == yREADY && q + len ≤ s.yardCap

/-- An access to this offset waits until the bus timeout: INIT runs, or a repair on its channel (R431, R433). -/
def State.yardStuck (s : State) (q : Nat) : Bool :=
  s.test YRD_STAT_INITBUSY || s.yard.ppr.any (fun p => p.2 / 2 ^ 20 == (s.yardLocal q).1)

/-- A request performed at its device. -/
def State.yardPerform (s : State) (r : YReq) : State × YReq :=
  let (c, a) := s.yardLocal r.q
  let (row, bank, _) := s.yardPlace (s.yardArea r.q) a
  let s := s.modYch c (fun y => { y with openRow := tabSet (fun _ => none) y.openRow bank (some row) })
  if r.wr then (s.yardStore r.q r.data, r)
  else match s.yardLoad r.q r.len with
    | (some d, t) => (t, { r with data := d })
    | (none, t) => (t, { r with status := 2 })

/-- A DMA request enters its channel's queue; a class that is not its area's is answered at once (R420, R424).
Answers the request's number and whether it was refused. -/
def State.yardEnqueue (s : State) (port cls q len : Nat) (wr : Bool) (data : List Byte) : Nat × Bool × State :=
  let id := s.yard.nextId
  if cls ≠ s.yardArea q then (id, true, s.raise YRD_FLAGS_CLASS_ERR)
  else
    let r : YReq := ⟨id, 2 * port + cls, cls, q, len, wr, data, 0, s.tick⟩
    (id, false, (s.modYch (s.yardLocal q).1 (fun y => { y with queue := y.queue ++ [r] })).modYard
      (fun y => { y with nextId := id + 1 }))

/-- Whether two requests touch one 64-byte line. -/
def YReq.sameLine (r t : YReq) : Bool := r.q / 64 ≤ (t.q + t.len - 1) / 64 && t.q / 64 ≤ (r.q + r.len - 1) / 64

/-- A request is urgent (R14, R424). -/
def State.yardUrgent (s : State) (r : YReq) : Bool :=
  s.get (if r.cls = 0 then ⟨YRD_PAT0, 19, 0⟩ else ⟨YRD_PAT1, 19, 0⟩) < s.yardCycles (s.tick - r.since)

/-- Requests with no earlier one in the queue on their line. -/
def unblocked : List YReq → List YReq → List YReq
  | _, [] => []
  | seen, r :: l => if seen.any r.sameLine then unblocked (seen ++ [r]) l else r :: unblocked (seen ++ [r]) l

/-- The better of two requests by a key, the first on a tie. -/
def pickMin (key : YReq → Nat) : List YReq → Option YReq
  | [] => none
  | r :: l => some (l.foldl (fun m x => if key x < key m then x else m) r)

/-- Whether a request's row is open. -/
def State.yardOpen (s : State) (r : YReq) : Bool :=
  let (c, a) := s.yardLocal r.q
  let (row, bank, _) := s.yardPlace (s.yardArea r.q) a
  tabGet (fun _ => none) (s.ych c).openRow bank == some row

/-- The request that channel `c` serves next (R15, R424): the oldest urgent one; else queue class, then open rows,
then the oldest, then the lower requester. -/
def State.yardNext (s : State) (c : Nat) : Option YReq :=
  let free := unblocked [] (s.ych c).queue
  match free.filter s.yardUrgent with
  | [] => pickMin (fun r => ((r.cls * 2 + bit (!s.yardOpen r)) * 2 ^ 60 + r.since) * 8 + r.req) free
  | u => pickMin (fun r => r.since * 8 + r.req) u

/-- A request leaves its queue for the retry buffer as it is issued (R427). -/
def State.yardIssue (s : State) (c : Nat) (r : YReq) : State :=
  let (t, r') := s.yardPerform r
  t.modYch c (fun y => { y with queue := y.queue.filter (fun x => x.id != r.id), cmds := y.cmds ++ [r'] })

/-- The requests of a channel issued in arrival order. -/
def State.yardIssueAll (s : State) (c : Nat) : State := (s.ych c).queue.foldl (fun t r => t.yardIssue c r) s

/-- Every queued request of a channel completed and its commands retired; the answers (R423, R428, R433). -/
def State.yardDrain (s : State) (c : Nat) : State × List YReq :=
  let t := s.yardIssueAll c
  (t.modYch c (fun y => { y with cmds := [], done := [], openRow := [], alerts := 0, replay := 0 }),
    (t.ych c).done ++ (t.ych c).cmds)

/-- Every queued and unretired request of both channels answered with a bus error. -/
def State.yardFailAll (s : State) : State × List YReq :=
  let out := (s.ych 0).done ++ (s.ych 1).done ++
    ((s.ych 0).cmds ++ (s.ych 0).queue ++ (s.ych 1).cmds ++ (s.ych 1).queue).map (fun r => { r with status := 1 })
  let clear := fun (y : YChan) =>
    { y with queue := [], cmds := [], done := [], openRow := [], pause := false, alerts := 0, replay := 0 }
  ((s.modYch 0 clear).modYch 1 clear, out)

/-! ## Pauses and refresh (R425, R426) -/

/-- The die temperature in 0.25 degrees, as RFE_TEMP reports it. -/
def State.dieTemp (s : State) : Int := s.getInt RFE_TEMP_DIE

/-- A pause begins on a channel: its banks are precharged (R426). -/
def State.yardPause (s : State) (c : Nat) : State := s.modYch c (fun y => { y with pause := true, openRow := [] })

/-- A pause of channel `c` may begin: the other channel does not pause, and no replay runs (R426). -/
def State.pauseFree (s : State) (c : Nat) : Bool := !(s.ych 0).pause && !(s.ych 1).pause && (s.ych c).replay == 0

/-- A pause of channel `c` is due: it begins, or waits for the other channel's pause or for a replay (R426). -/
def State.yardPauseAsk (s : State) (c : Nat) : State :=
  if (s.ych c).pause ∨ s.yard.waitP.contains c then s
  else if s.pauseFree c then s.yardPause c
  else s.modYard (fun y => { y with waitP := y.waitP ++ [c] })

/-- The next pause that waits begins, where it may. -/
def State.yardPauseNext (s : State) : State :=
  match s.yard.waitP.find? s.pauseFree with
  | some c => (s.modYard (fun y => { y with waitP := y.waitP.filter (· != c) })).yardPause c
  | none => s

/-- tREFI in nanoseconds, halved while HOT (R425). -/
def State.tREFI (s : State) : Nat := 7800 / 2 ^ s.get YRD_CFG_FGR / (if s.test YRD_STAT_HOT then 2 else 1)

/-- tRFC in nanoseconds (R425). -/
def State.tRFC (s : State) : Nat :=
  match s.get YRD_CFG_FGR, s.get YRD_CFG_DENS with
  | 0, 0 => 260 | 0, 1 => 350 | 0, _ => 550
  | 1, 0 => 160 | 1, 1 => 260 | 1, _ => 350
  | _, 0 => 110 | _, 1 => 160 | _, _ => 260

/-- tREFI has passed since a REFRESH of channel `c` was last due; a tick is 10,000/384 ns. -/
def State.refreshDue (s : State) (c : Nat) : Bool := s.tREFI * 384 ≤ (s.tick - (s.ych c).refAt) * 10000

/-- A REFRESH issued: the banks are precharged and the channel is busy for tRFC. It answers the interval that is due,
or else one of those owed. -/
def State.refreshIssue (s : State) (c : Nat) : State :=
  let due := s.refreshDue c
  s.modYch c (fun y => { y with
    owed := if due then y.owed else y.owed - 1
    refAt := if due then s.tick else y.refAt
    rfcTo := s.tick + (s.tRFC * 384 + 9999) / 10000
    openRow := [] })

/-- A pause of channel `c` ends: service resumes, and a pause that waits begins (R426). -/
def State.yardPauseEnd (s : State) (c : Nat) : State :=
  ((s.modYch c (fun y => { y with pause := false, paused := s.tick, ptemp := s.dieTemp })).bump YRD_CNT1_PAUSES).yardPauseNext

/-- The oldest unretired command of channel `c` retires, its answer on its way; a replay whose commands have all
retired ends (R427). -/
def State.yardRetire1 (s : State) (c : Nat) : State :=
  match (s.ych c).cmds with
  | [] => s
  | r :: l =>
    let last := (s.ych c).replay == 1
    let t := s.modYch c (fun y => { y with cmds := l, done := y.done ++ [r], alerts := 0, replay := y.replay - 1 })
    if last then (t.report 22 (BitVec.ofNat 20 c)).yardPauseNext else t

/-- The `n` oldest unretired commands retire. -/
def State.yardRetireN (c : Nat) : Nat → State → State
  | 0, s => s
  | n + 1, s => State.yardRetireN c n (s.yardRetire1 c)

/-! ## Accesses by gates and link assists (R420, R423-R427; notes/assumptions/56.md) -/

/-- What an access that its requester waits for outlasts on channel `c`: a replay, a pause, and the REFRESH that goes
before every request while eight are owed. -/
def State.yardClear (s : State) (c : Nat) : State :=
  let s := State.yardRetireN c (s.ych c).replay s
  let s := if (s.ych c).pause then s.yardPauseEnd c else s
  if 8 ≤ (s.ych c).owed then s.refreshIssue c else s

/-- A channel issues its requests in the scheduler's order until request `id` is issued; while 16 commands are
unretired issue waits for the oldest to retire. `fuel` bounds the requests. -/
def State.yardServeTo (c id : Nat) : Nat → State → State
  | 0, s => s
  | fuel + 1, s => match s.yardNext c with
    | none => s
    | some r =>
      let t := (if 16 ≤ (s.ych c).cmds.length then s.yardRetire1 c else s).yardIssue c r
      if r.id = id then t else State.yardServeTo c id fuel t

/-- An access by a gate (port 2) or a link assist (port 3), of its area's class (R420, R424). Its requester waits
until its command retires, and with it every earlier one of the channel. -/
def State.yardAccess (s : State) (port q len : Nat) (wr : Bool) (data : List Byte) : State × Option YReq :=
  let c := (s.yardLocal q).1
  let (id, _, t) := (s.yardClear c).yardEnqueue port (s.yardArea q) q len wr data
  let t := State.yardServeTo c id ((t.ych c).queue.length + 1) t
  let t := State.yardRetireN c (t.ych c).cmds.length t
  (t.modYch c (fun y => { y with done := y.done.filter (fun x => x.id != id) }), (t.ych c).done.find? (fun x => x.id == id))

/-- Its bytes, or none for an error that cannot be corrected. -/
def State.yardNowRead (s : State) (port q len : Nat) : Option (List Byte) × State :=
  match s.yardAccess port q len false [] with
  | (t, some r) => (if r.status = 0 then some r.data else none, t)
  | (t, none) => (none, t)

def State.yardNowWrite (s : State) (port q : Nat) (bs : List Byte) : State :=
  (s.yardAccess port q bs.length true bs).1

/-! ## The yard's own states -/

/-- READY: the refresh intervals run from now. -/
def State.yardReady (s : State) : State :=
  (List.range 2).foldl (fun t c => t.modYch c (fun y => { y with refAt := s.tick, owed := 0 })) (s.setYst yREADY)

/-! ## Enabling and configuration (R415, R416, R421-R423, R429, R430) -/

/-- The configuration may change (R421). -/
def State.yardIdle (s : State) : Bool := !s.test YRD_CTL_EN && s.yst == yOFF

/-- A write of YRD_CFG, YRD_MAP or a row mask (R415, R416, R418, R421). -/
def State.yardCfgWrite (s : State) (a : Nat) (v : W20) : State :=
  let t := match regRow a with
    | some r => s.setRg a (regMerge r (s.rg a) v)
    | none => s
  let chans := t.get YRD_CFG_CHANS
  let bad :=
    if a = YRD_CFG then chans = 0 || chans = 2 || t.get YRD_CFG_DENS = 3 || t.get YRD_CFG_FGR = 3
    else if a = YRD_MAP then 10 < t.get YRD_MAP_GRAIN || t.yardCap < t.yardTop
    else false
  if s.yardIdle && !bad then t else s.raise YRD_FLAGS_CFG_REFUSED

/-- EN := 1 accepted: the class 0 request for holder 11 (R421, R422). -/
def State.yardTurnOn (s : State) : State :=
  if !s.test SUP_STAT_VDDQ || !s.test SUP_STAT_VPP || (s.test YRD_CTL_ENC && s.test TRNG_STAT_FAIL) then
    s.raise YRD_FLAGS_CFG_REFUSED
  else if s.test CLK_STAT_REF_FAIL then s
  else if s.test YRD_CTL_EN then s
  else (s.put YRD_CTL_EN 1).ask 0 [11]

/-- The two XTS keys, drawn again where they are equal (R432). -/
def State.yardKeys (s : State) : BitVec 256 × State :=
  let (i, t) := s.fresh
  let k := Config.freeKey i
  if k.setWidth 128 = (k >>> 128).setWidth 128 then
    let (j, t) := t.fresh
    (Config.freeKey j, t)
  else (k, t)

/-- The grant of holder 11 (R422, R428): training begins, or the exit from self-refresh. -/
def State.yardGranted (s : State) : State :=
  let t := (s.put YRD_STAT_HELD 1).modYard (fun y => { y with since := some s.tick })
  if t.yst = ySELF then
    (List.range s.yardChans).foldl State.yardPauseAsk t
  else
    let u := t.yardLose.setYst yTRAINING
    if u.test YRD_CTL_ENC then
      let (k, u) := u.yardKeys
      u.modYard (fun y => { y with keys := some k })
    else u

/-- Holder 11 returned. -/
def State.yardReturn (s : State) : State :=
  ((s.drop [11]).put YRD_STAT_HELD 0).modYard (fun y => { y with since := none, waitP := [] })

/-- EN := 0 (R423): queued requests complete, then the yard powers down and its contents and keys are lost. -/
def State.yardTurnOff (s : State) : State × List YReq :=
  let (t, a0) := s.yardDrain 0
  let (t, a1) := t.yardDrain 1
  let t := (((t.put YRD_CTL_EN 0).yardReturn.setYst yOFF).yardLose.put YRD_STAT_INITBUSY 0).put YRD_PPRCMD_BUSY 0
  (((t.modYard (fun y => { y with keys := none, ppr := none })).modYch 0 (fun y => { y with pause := false })).modYch 1
    (fun y => { y with pause := false }), a0 ++ a1)

/-- The yard fails: charge returned, every request answered with a bus error (R422, R427, R430). -/
def State.yardFail (s : State) : State × List YReq :=
  let (t, a) := s.yardFailAll
  (((t.yardReturn.setYst yFAILED).put YRD_STAT_INITBUSY 0).put YRD_PPRCMD_BUSY 0, a)

/-- VDDQ or VPP lost (R430). -/
def State.yardLostSupply (s : State) : State × List YReq :=
  if !s.test YRD_CTL_EN then (s, [])
  else
    let (t, a) := s.yardFail
    (((t.put YRD_CTL_EN 0).raise YRD_FLAGS_SUPPLY_LOST).report 24 0, a)

/-- SR := 1 in READY (R428). -/
def State.yardRest (s : State) : State × List YReq :=
  if s.yst ≠ yREADY then (s, [])
  else
    let (t, a0) := s.yardDrain 0
    let (t, a1) := t.yardDrain 1
    ((t.put YRD_CTL_SR 1).yardReturn.setYst ySELF, a0 ++ a1)

/-- SR := 0 in SELF_REFRESH (R428). -/
def State.yardWake (s : State) : State :=
  if s.yst = ySELF ∧ s.test YRD_CTL_SR then (s.put YRD_CTL_SR 0).ask 0 [11] else s

/-- The yard at a warm reset (R429): requests not issued are discarded, and an enabled yard is in self-refresh. -/
def State.yardWarm (s : State) : State :=
  let (t, _) := s.yardFailAll
  let t := t.modYard (fun y => { y with since := none, waitP := [], ppr := none })
  if s.test YRD_CTL_EN && (s.yst == yTRAINING || s.yst == yREADY || s.yst == ySELF) then
    (t.put YRD_CTL_SR 1).setYst ySELF
  else t

/-! ## Refresh, retraining, retirement -/

/-- RETRAIN := 1 (R426): a pause on each channel, one after the other. -/
def State.yardRetrainNow (s : State) : State :=
  if s.yst ≠ yREADY then s else (List.range s.yardChans).foldl State.yardPauseAsk s

/-- INIT := 1 (R431). -/
def State.yardInitNow (s : State) : State := if s.yst = yREADY then s.put YRD_STAT_INITBUSY 1 else s

/-- A repair commanded (R433); `none` when the device's MPR page reports no resource. -/
def State.yardRepair (s : State) (v : W20) (noResource : Bool) : State × List YReq :=
  if s.test YRD_PPRCMD_BUSY then (s.put YRD_PPRCMD_RESULT 1, [])
  else
    let t := s.setRg YRD_PPRCMD (BitVec.ofNat 20 (v.toNat / 2 ^ 14 % 2 ^ 5 * 2 ^ 14))
    if s.yst ≠ yREADY ∨ s.test YRD_STAT_INITBUSY ∨ 2 ^ s.yardR ≤ s.get YRD_PPRROW_ROW ∨
        s.yardChans ≤ t.get YRD_PPRCMD_CH then (t.put YRD_PPRCMD_RESULT 1, [])
    else if noResource then (t.put YRD_PPRCMD_RESULT 2, [])
    else
      let c := t.get YRD_PPRCMD_CH
      let (u, a) := t.yardDrain c
      let row := (8 * c + 4 * t.get YRD_PPRCMD_BG + t.get YRD_PPRCMD_BA) * 2 ^ 17 + t.get YRD_PPRROW_ROW
      ((u.put YRD_PPRCMD_BUSY 1).modYard (fun y => { y with ppr := some (t.test YRD_PPRCMD_HARD, row) }), a)

/-- Contents lost in one row, or in one whole channel (R433). -/
def State.yardLoseRow (s : State) (row : Nat) : State :=
  s.modYard (fun y => { y with bytes := y.bytes.filter (fun e => keyRow e.1 != row), lost := row :: y.lost,
                               epoch := y.epoch + 1 })

def State.yardLoseChan (s : State) (c : Nat) : State :=
  (s.modYard (fun y => { y with bytes := y.bytes.filter (fun e => e.1 / 2 ^ 32 != c), epoch := y.epoch + 1 })).modYch c
    (fun y => { y with zeroed := false })

/-- The yard's sample of the die temperature (R425): HOT above 85 degrees. -/
def State.yardTemp (s : State) : State :=
  if s.test YRD_CTL_EN then s.put YRD_STAT_HOT (bit (340 < s.dieTemp)) else s

/-- A slow-clock edge: every 32nd, while EN is 1, the temperature is sampled (R425). -/
def State.yardEdge (s : State) : State :=
  if !s.test YRD_CTL_EN then s.modYard (fun y => { y with slow := 0 })
  else if s.yard.slow < 31 then s.modYard (fun y => { y with slow := y.slow + 1 })
  else (s.modYard (fun y => { y with slow := 0 })).yardTemp

/-! ## Commands with no answer to a requester -/

/-- YARD_ENABLE (R421, R422). -/
def execYardEnable (s : State) : Out := s.during s.clocked <| .next s.yardTurnOn

/-- TRAINING_DONE (R422): READY, or FAILED with TRAIN_FAIL. -/
def execTrainingDone (ok : Bool) (stp : W20) (s : State) : Out := s.during s.inRun <|
  if s.yst ≠ yTRAINING then .next s
  else if ok then
    .next ((s.yardReady.modYch 0 (fun y => { y with paused := s.tick, ptemp := s.dieTemp })).modYch 1
      (fun y => { y with paused := s.tick, ptemp := s.dieTemp }))
  else .next (((s.yardFail.1).raise YRD_FLAGS_TRAIN_FAIL).report 21 stp)

/-- YARD_REQUEST_SERVE (R424-R427): the next request of the channel is issued, unless eight refreshes are owed, one
runs, the channel pauses or replays, 16 commands are unretired, or INIT or a repair holds it. -/
def execYardRequestServe (ch : Fin 2) (s : State) : Out := s.during s.inRun <|
  let y := s.ych ch.val
  if y.pause ∨ y.replay ≠ 0 ∨ 8 ≤ y.owed ∨ s.tick < y.rfcTo ∨ 16 ≤ y.cmds.length ∨ s.yst ≠ yREADY then .next s
  else match s.yardNext ch.val with
    | some r => .next (if s.yardStuck r.q then s else s.yardIssue ch.val r)
    | none => .next s

/-- REFRESH (R425): one that is due is postponed while a request is urgent and fewer than eight are owed; else one
that is due or owed is issued, once the last has ended. -/
def execYardRefresh (ch : Fin 2) (s : State) : Out := s.during s.inRun <|
  let y := s.ych ch.val
  let due := s.refreshDue ch.val
  if s.yst ≠ yREADY ∨ s.tick < y.rfcTo ∨ (!due ∧ y.owed = 0) then .next s
  else if y.queue.any s.yardUrgent ∧ y.owed < 8 then
    .next (if due then s.modYch ch.val (fun y => { y with owed := y.owed + 1, refAt := s.tick }) else s)
  else .next (s.refreshIssue ch.val)

/-- RETRAIN (R426). -/
def execYardRetrain (s : State) : Out := s.during s.clocked <| .next s.yardRetrainNow

/-- RETRAIN_TRIGGER (R426): PERIOD has passed, or the die temperature has moved by TSTEP; one channel
pauses at a time. -/
def execYardRetrainTrigger (ch : Fin 2) (s : State) : Out := s.during s.inRun <|
  let y := s.ych ch.val
  let ms := max 1 (min 1000 (s.get YRD_RTCFG_PERIOD))
  let step := s.get YRD_RTCFG_TSTEP
  let due := 38400 * ms ≤ s.tick - y.paused ∨ (step ≠ 0 ∧ 4 * step ≤ (s.dieTemp - y.ptemp).natAbs)
  .next (if s.yst = yREADY ∧ due ∧ ch.val < s.yardChans then s.yardPauseAsk ch.val else s)

/-- RETRAIN_PAUSE_DONE (R426, R428): service resumes, and a pause that waits begins; the exit from self-refresh ends
with the last pause. -/
def execYardRetrainPauseDone (ch : Fin 2) (s : State) : Out := s.during s.inRun <|
  let y := s.ych ch.val
  if !y.pause then .next s
  else
    let u := s.yardPauseEnd ch.val
    .next (if u.yst = ySELF ∧ u.yard.since.isSome ∧ u.yard.waitP.isEmpty ∧ !(u.ych 0).pause ∧ !(u.ych 1).pause then
      u.yardReady else u)

/-- SELF_REFRESH_EXIT (R428). -/
def execYardSelfRefreshExit (s : State) : Out := s.during s.clocked <| .next s.yardWake

/-- INIT (R431). -/
def execYardInit (s : State) : Out := s.during s.clocked <| .next s.yardInitNow

/-- INIT_DONE (R431): zeros with valid check bytes over both channels. -/
def execYardInitDone (s : State) : Out := s.during s.inRun <|
  if !s.test YRD_STAT_INITBUSY then .next s
  else
    let t := s.modYard (fun y => { y with bytes := [], lost := [], chk := [] })
    let t := (t.modYch 0 (fun c => { c with zeroed := true })).modYch 1 (fun c => { c with zeroed := true })
    .next ((t.put YRD_STAT_INITBUSY 0).raise YRD_FLAGS_INIT_DONE)

/-- REPAIR_DONE (R433): RESULT 0, or 3 with a contained fault; a soft repair loses its row, a hard one its channel. -/
def execYardRepairDone (ok : Bool) (s : State) : Out := s.during s.inRun <|
  match s.yard.ppr with
  | none => .next s
  | some (hard, row) =>
    let t := (s.put YRD_PPRCMD_BUSY 0).modYard (fun y => { y with ppr := none })
    let t := if hard then t.yardLoseChan (row / 2 ^ 20) else t.yardLoseRow row
    if ok then .next (t.put YRD_PPRCMD_RESULT 0)
    else .next ((t.put YRD_PPRCMD_RESULT 3).report 27 (BitVec.ofNat 20 (row % 2 ^ 17)))

end Sys2Proof.Machine
end

