-- ==== Sys2Proof/Machine/Wide.lean ====
section
/-! DEFINITION. The wide space (R11, R12) as a block's engine reads and writes it, the external flash (R126-R128), and
the flash controller's commands. -/

namespace Sys2Proof.Machine

/-! ## Decoding -/

/-- What a wide address reaches (R11). -/
inductive Target
  | chip (a : Nat)
  | yard (q : Nat)
  | flash (f : Nat)
  | undecoded
deriving DecidableEq, Repr

/-- The flash's capacity, 0 with none fitted (R11). -/
def State.flashSize (s : State) : Nat := if s.test FLC_INFO_PRESENT then 2 ^ s.get FLC_INFO_SIZE_LOG2 else 0

/-- The target of an access of `n` bytes, undecoded where any byte lies outside the populated part of one region
(R11, R12). -/
def State.target (s : State) (a n : Nat) : Target :=
  if a + n ≤ 0x100000 then .chip a
  else if 0x100000000 ≤ a ∧ a < 0x200000000 ∧ s.yardDecodes (a - 0x100000000) n then .yard (a - 0x100000000)
  else if 0x200000000 ≤ a ∧ a < 0x210000000 ∧ a - 0x200000000 + n ≤ s.flashSize then .flash (a - 0x200000000)
  else .undecoded

/-- How an access ended, as DMA_ERRINFO.CAUSE names it: 0 done, 2 an error from the target, 3 bus timeout,
4 uncorrectable, 5 flash busy (R348). -/
abbrev Ending := Nat

/-! ## Flash -/

/-- An erased byte (notes/assumptions/7.md). -/
def flashDflt : Nat → Byte := fun _ => 0xFF

def State.flashByte (s : State) (f : Nat) : Byte := tabGet flashDflt s.flash f

def State.flashBytes (s : State) (f : Nat) : Nat → List Byte
  | 0 => []
  | n + 1 => s.flashByte f :: State.flashBytes s (f + 1) n

/-- Programming clears bits and sets none (R481). -/
def State.flashProgram (s : State) (f : Nat) : List Byte → State
  | [] => s
  | b :: l =>
    State.flashProgram { s with flash := tabSet flashDflt s.flash f (s.flashByte f &&& b) } (f + 1) l

/-- A range erased. -/
def State.flashErase (s : State) (f n : Nat) : State :=
  { s with flash := s.flash.filter (fun e => e.1 < f || f + n ≤ e.1) }

/-- A flash operation that succeeds. -/
def State.flashApply (s : State) (op : FlashOp) : State :=
  if op.erase then s.flashErase op.ofs op.len else s.flashProgram op.ofs op.data

/-- Flash reads end as bus errors while an operation runs, and while an update command runs (R128, R496). -/
def State.flashBusy (s : State) : Bool := s.test FLC_STATUS_BUSY || s.update.run.isSome

/-- A BOOT that the keeper has taken. -/
def KOrder.boots (o : KOrder) : Bool := o.code == 1 && o.res == 0

/-- An update command holds the flash controller and the hash engine: it found both idle, and BOOT, which has the hash
engine from its start on, was given later (R448, R496). -/
def State.updHolds (s : State) : Bool :=
  s.update.run.isSome && s.flashOp.isNone && s.cipher.hpk.isNone && (!s.keeper.order.any KOrder.boots || s.keeper.bootWaits)

/-! ## Reads and writes by a block's engine -/

/-- A block reads `n` bytes: shared SRAM, the ROM view, the yard, or flash; `port` is its port of the yard. -/
def State.wideRead (s : State) (port a n : Nat) : Ending × List Byte × State :=
  match s.target a n with
  | .chip c =>
    if inSram c n then
      match s.ramRead .sram c n with
      | (some d, t) => (0, d, t)
      | (none, t) => (4, [], t)
    else if 0xF0000 ≤ c then (0, romBytes c n, s)
    else (2, [], s)
  | .yard q =>
    if s.yardStuck q then (3, [], s)
    else match s.yardNowRead port q n with
      | (some d, t) => (0, d, t)
      | (none, t) => (4, [], t)
  | .flash f => if s.flashBusy then (5, [], s) else (0, s.flashBytes f n, s)
  | .undecoded => (2, [], s)

/-- A block writes bytes: shared SRAM or the yard. -/
def State.wideWrite (s : State) (port a : Nat) (bs : List Byte) : Ending × State :=
  match s.target a bs.length with
  | .chip c => if inSram c bs.length then (0, s.ramWrite .sram c bs) else (2, s)
  | .yard q => if s.yardStuck q then (3, s) else (0, s.yardNowWrite port q bs)
  | .flash _ => (2, s)
  | .undecoded => (2, s)

/-! ## Ranges (R342) -/

/-- The end of the region that holds wide address `a`, for a read or a write; `a` itself where none does (R11, R114).
-/
def State.regionEnd (s : State) (wr : Bool) (a : Nat) : Nat :=
  if a < 0xA0000 then 0xA0000
  else if 0xC0000 ≤ a ∧ a < 0xD4000 then 0xD4000
  else if 0xF0000 ≤ a ∧ a < 0x100000 ∧ !wr then 0x100000
  else if 0x100000000 ≤ a ∧ s.yst = yREADY ∧ a < 0x100000000 + s.yardCap then 0x100000000 + s.yardCap
  else if 0x200000000 ≤ a ∧ a < 0x200000000 + s.flashSize ∧ !wr then 0x200000000 + s.flashSize
  else a

/-- The first address of a range outside its region, if the range leaves it. -/
def State.rangeFail (s : State) (wr : Bool) (a n : Nat) : Option Nat :=
  let e := s.regionEnd wr a
  if a + n ≤ e then none else some e

/-! ## The flash controller (R126, R127) -/

/-- An operation refused or failed: ERR with its cause. -/
def State.flashErr (cause : Nat) (s : State) : State := (s.put FLC_STATUS_CAUSE cause).raise FLC_STATUS_ERR

/-- A write of FLC_CMD (R126, R496).  DESIGN CHOICE: what is programmed is what the SRAM source holds at the write
(notes/assumptions/65.md). -/
def State.flashCmd (s : State) (v : W20) : State :=
  if s.test FLC_STATUS_BUSY || s.updHolds then s.flashErr 1
  else
    let t := s.setRg FLC_CMD (v &&& 0xFFEFF)
    let op := t.get FLC_CMD_OP
    let page := 256 * t.get FLC_ADDR_PAGE
    if op = 0 ∨ op = 3 then t
    else if t.flashSize ≤ page then t.flashErr 2
    else if op = 1 then
      let n := t.get FLC_CMD_LEN
      let o := t.get FLC_CMD_PAGE_OFS
      if n = 0 ∨ 256 < n ∨ 256 < o + n then t.flashErr 3
      else if !inSram (t.get FLC_SRC_SRC) n then t.flashErr 4
      else match t.ramRead .sram (t.get FLC_SRC_SRC) n with
        | (some d, u) => { u.put FLC_STATUS_BUSY 1 with flashOp := some ⟨false, page + o, n, d⟩ }
        | (none, u) => u.flashErr 5
    else
      let sz := 2 ^ t.get FLC_INFO_ERASE_LOG2
      { t.put FLC_STATUS_BUSY 1 with flashOp := some ⟨true, page / sz * sz, sz, []⟩ }

/-- FLASH_PROGRAM (R126): a write of FLC_CMD with OP 1. -/
def execFlashProgram (len : BitVec 9) (pageOfs : BitVec 8) (s : State) : Out := s.during s.clocked <|
  .next (s.flashCmd (BitVec.ofNat 20 (2 ^ 18 + len.toNat * 2 ^ 9 + pageOfs.toNat)))

/-- FLASH_ERASE (R126): a write of FLC_CMD with OP 2. -/
def execFlashErase (s : State) : Out := s.during s.clocked <| .next (s.flashCmd 0x80000)

/-- An operation that failed or was cut short: what it covered holds open values, of which a program has cleared no
bit that its data does not clear (R481, notes/assumptions/8.md). -/
def State.flashTorn (s : State) (op : FlashOp) : State :=
  let v := fun i => BitVec.ofNat 8 (Config.freeW20 (s.free + i)).toNat
  { s with
    free := s.free + op.len
    flash := tabFill flashDflt s.flash op.ofs op.len (fun i =>
      if op.erase then v i else s.flashByte (op.ofs + i) &&& (op.data.getD i 0 ||| v i)) }

/-- FLASH_OP_DONE (R127): the flash reports the end; DONE, or ERR with cause 5. -/
def execFlashOpDone (ok : Bool) (s : State) : Out := s.during s.inRun <|
  match s.flashOp with
  | none => .next s
  | some op =>
    let t := { s.put FLC_STATUS_BUSY 0 with flashOp := none }
    if ok then
      .next ((t.flashApply op).raise FLC_STATUS_DONE)
    else .next ((t.flashTorn op).flashErr 5)

end Sys2Proof.Machine
end

