-- ==== Sys2Proof/Machine/Link.lean ====
section
/-! DEFINITION. The link assists (spec/10): the judgement and commit of MAC frames, replay windows, the fold, the relay
assist, the immediate ACK, the ACK wait, the roll call, and the end of a transmission. -/

namespace Sys2Proof.Machine

/-! ## The MAC frame (R248-R252) -/

/-- `n` bytes at offset `o` of a frame, most significant byte first. -/
def macWord (l : List Byte) (o n : Nat) : Nat := ofBytesBE ((l.drop o).take n)

def macControl (l : List Byte) : Nat := macWord l 0 2
def macType (l : List Byte) : Nat := macControl l / 2 ^ 14
def macSec (l : List Byte) : Bool := (macControl l).testBit 13
def macMicLen (l : List Byte) : Nat := macControl l / 2 ^ 11 % 4
def macFlood (l : List Byte) : Bool := (macControl l).testBit 10
def macAckReq (l : List Byte) : Bool := (macControl l).testBit 9
def macRc (l : List Byte) : Bool := (macControl l).testBit 8
def macKeyId (l : List Byte) : Nat := macControl l / 4 % 64
def macVer (l : List Byte) : Nat := macControl l % 4
def macNet (l : List Byte) : Nat := macWord l 2 2
def macDst (l : List Byte) : BitVec 32 := BitVec.ofNat 32 (macWord l 4 4)
def macSrc (l : List Byte) : BitVec 32 := BitVec.ofNat 32 (macWord l 8 4)
def macCtr (l : List Byte) : BitVec 32 := BitVec.ofNat 32 (macWord l 12 4)
def macOrigin (l : List Byte) : BitVec 32 := BitVec.ofNat 32 (macWord l 16 4)
def macSeq (l : List Byte) : Nat := macWord l 20 3 % 2 ^ 20
def macTtl (l : List Byte) : Nat := macWord l 23 1 % 64

/-- The header's bytes, and the MIC's bytes (R248, R249). -/
def macHead (l : List Byte) : Nat := if macFlood l then 24 else 16
def macMic (l : List Byte) : Nat := if macSec l then 4 * 2 ^ macMicLen l else 0

/-- A frame of `len` bytes is malformed (R252). -/
def macBad (l : List Byte) (len : Nat) : Bool :=
  2 ≤ macType l || macVer l != 0 || (macSec l && macMicLen l == 3) ||
    (macType l == 1 && (len != 18 || macSec l || macFlood l || macAckReq l || macRc l)) ||
    len < macHead l + macMic l + (if macRc l then 1 else 0)

def broadcast : BitVec 32 := 0xFFFFFFFF

/-- This node's address. -/
def State.linkAddr (s : State) : BitVec 32 := s.get32 LNK_ADDRLO LNK_ADDRHI

/-- A unicast DATA frame to this node that asks for acknowledgement (R254). -/
def State.asksAck (s : State) (l : List Byte) : Bool :=
  macType l == 0 && macAckReq l && macDst l == s.linkAddr && macDst l != broadcast

/-! ## Replay records (R257, R258) -/

structure Replay where
  valid : Bool
  key   : Nat
  ackV  : Bool
  code  : Nat
  rpt   : Nat
  last  : Nat
  map   : BitVec 64
  ctr   : Nat
deriving DecidableEq, Repr

def Replay.ofBytes (l : List Byte) : Replay :=
  let w := tripleAt l
  { valid := (w 0).testBit 19, key := w 0 / 2 ^ 13 % 64, ackV := (w 0).testBit 12, code := w 0 / 2 ^ 11 % 2
    rpt := w 0 % 2 ^ 8, last := w 2 % 2 ^ 12 * 2 ^ 20 + w 1
    map := BitVec.ofNat 64 (w 6 % 16 * 2 ^ 60 + w 5 * 2 ^ 40 + w 4 * 2 ^ 20 + w 3)
    ctr := w 6 / 16 % 2 ^ 12 * 2 ^ 20 + w 7 }

def Replay.toBytes (r : Replay) : List Byte :=
  let m := r.map.toNat
  toBytesLE 3 (bit r.valid * 2 ^ 19 + r.key * 2 ^ 13 + bit r.ackV * 2 ^ 12 + r.code * 2 ^ 11 + r.rpt) ++
    toBytesLE 3 (r.last % 2 ^ 20) ++ toBytesLE 3 (r.last / 2 ^ 20) ++ toBytesLE 3 (m % 2 ^ 20) ++
    toBytesLE 3 (m / 2 ^ 20 % 2 ^ 20) ++ toBytesLE 3 (m / 2 ^ 40 % 2 ^ 20) ++
    toBytesLE 3 (r.ctr / 2 ^ 20 * 16 + m / 2 ^ 60) ++ toBytesLE 3 (r.ctr % 2 ^ 20)

/-- The three verdicts of R258. -/
inductive Verdict
  | new | duplicate | replay
deriving DecidableEq, Repr

/-- Counter `c` under key index `k` judged against a record (R258). -/
def Replay.judge (r : Replay) (c k : Nat) : Verdict :=
  if !r.valid ∨ r.key ≠ k then .new
  else if r.last < c then .new
  else if r.last - c ≤ 63 then (if r.map.getLsbD (r.last - c) then .duplicate else .new)
  else .replay

/-- The record after a commit of a new counter (R258). -/
def Replay.accept (r : Replay) (c k : Nat) : Replay :=
  if !r.valid ∨ r.key ≠ k then { r with valid := true, key := k, last := c, map := 1, ackV := false }
  else if r.last < c then { r with map := (r.map <<< (c - r.last)) ||| 1, last := c }
  else { r with map := r.map ||| BitVec.twoPow 64 (r.last - c) }

def State.rpwAt (s : State) (i : Nat) : Nat := s.get RPW_BASE_BASE + 32 * i

def State.rpw (s : State) (i : Nat) : Replay := Replay.ofBytes (s.bytes .sram (s.rpwAt i) 24)

/-- A record's write, after the checked read of it (R115). -/
def State.setRpw (s : State) (i : Nat) (r : Replay) : State :=
  (s.ramRead .sram (s.rpwAt i) 24).2.ramWrite .sram (s.rpwAt i) r.toBytes

/-! ## The fold (R262-R265) -/

structure FoldEnt where
  valid  : Bool
  heard  : Nat
  state  : Nat
  buf    : Nat
  origin : BitVec 32
  seq    : Nat
  asn    : Nat
deriving DecidableEq, Repr

def FoldEnt.ofBytes (l : List Byte) : FoldEnt :=
  let w := tripleAt l
  { valid := (w 0).testBit 19, heard := w 0 / 2 ^ 16 % 8, state := w 0 / 2 ^ 14 % 4, buf := w 0 % 16
    origin := BitVec.ofNat 32 (w 2 % 2 ^ 12 * 2 ^ 20 + w 1), seq := w 3, asn := w 4 }

def FoldEnt.toBytes (e : FoldEnt) : List Byte :=
  toBytesLE 3 (bit e.valid * 2 ^ 19 + e.heard * 2 ^ 16 + e.state * 2 ^ 14 + e.buf) ++
    toBytesLE 3 (e.origin.toNat % 2 ^ 20) ++ toBytesLE 3 (e.origin.toNat / 2 ^ 20) ++ toBytesLE 3 e.seq ++
    toBytesLE 3 e.asn

/-- The set of a flood (R262). -/
def foldSet (log2 : Nat) (o : BitVec 32) (q : Nat) : Nat :=
  (o ^^^ (o >>> 16) ^^^ BitVec.ofNat 32 (q * 40503)).toNat % 2 ^ log2

def State.foldBase (s : State) : Nat := (s.get40 FOLD_BASELO FOLD_BASEHI).toNat

/-- The fold may be used (R265). -/
def State.foldUsable (s : State) : Bool := s.test FOLD_CFG_EN && !s.test FOLD_CFG_BUSY

/-- A relay's transmit slot is emptied, unless it is being sent: then it goes on being sent. -/
def State.relayEmpty (s : State) (r : Relay) : State :=
  let k := s.get RLY_CFG_SLOT
  if r.st == .loaded || (r.st == .failed && !s.test (FU_TX_CTL_SENDING k)) then s.put (FU_TX_CTL_READY k) 0 else s

/-- Every PENDING relay is withdrawn, its buffer freed (R265, R280). -/
def State.relaysOut (s : State) : State :=
  let gone := s.link.relays.filter (fun r => r.st != .copy)
  (gone.foldl State.relayEmpty s).modLink (fun l => { l with relays := l.relays.filter (fun r => r.st == .copy) })

/-- A bus error or timeout on a fold access (R265). -/
def State.foldFail (s : State) : State :=
  let t := ((s.put FOLD_CFG_EN 0).put FOLD_CFG_BUSY 0).modLink (fun l => { l with foldClr := false })
  (t.raise LNK_FLAGS_FOLD_ERR).relaysOut.report 15 0

/-- The entry at wide address `a`. -/
def State.foldRead (s : State) (a : Nat) : Option FoldEnt × State :=
  match s.wideRead 3 a 15 with
  | (0, d, t) => (some (FoldEnt.ofBytes d), t)
  | (_, _, t) => (none, t.foldFail)

def State.foldWrite (s : State) (a : Nat) (e : FoldEnt) : State :=
  match s.wideWrite 3 a (e.toBytes ++ [0]) with
  | (0, t) => t
  | (_, t) => t.foldFail

/-- An entry changed while the fold is in use. -/
def State.foldMod (s : State) (a : Nat) (f : FoldEnt → FoldEnt) : State :=
  if s.foldUsable then
    match s.foldRead a with
    | (some e, t) => t.foldWrite a (f e)
    | (none, t) => t
  else s

def State.foldWays (s : State) (o : BitVec 32) (q : Nat) : List Nat :=
  let set := foldSet (s.get FOLD_CFG_SETS_LOG2) o q
  (List.range 4).map (fun w => s.foldBase + 64 * set + 16 * w)

/-- The four entries of a flood's set, with their addresses; none while the fold cannot be used. -/
def State.foldLoad (s : State) (o : BitVec 32) (q : Nat) : Option (List (Nat × FoldEnt)) × State :=
  if !s.foldUsable then (none, s)
  else (s.foldWays o q).foldl (fun (r : Option (List (Nat × FoldEnt)) × State) a =>
    match r with
    | (some l, t) => match t.foldRead a with
      | (some e, u) => (some (l ++ [(a, e)]), u)
      | (none, u) => (none, u)
    | (none, t) => (none, t)) (some [], s)

/-- The address of the entry that holds a flood. -/
def foldHit (l : List (Nat × FoldEnt)) (o : BitVec 32) (q : Nat) : Option Nat :=
  (l.find? (fun e => e.2.valid && e.2.origin == o && e.2.seq == q)).map (·.1)

/-- The way an insertion takes (R265). -/
def foldVictim (asn : Nat) (l : List (Nat × FoldEnt)) : Option Nat :=
  match l.find? (fun e => !e.2.valid) with
  | some e => some e.1
  | none => ((l.filter (fun e => e.2.state != 1)).foldl (fun (b : Option (Nat × Nat)) e =>
      let age := (asn + 2 ^ 20 - e.2.asn) % 2 ^ 20
      match b with
      | some x => if x.2 < age then some (e.1, age) else b
      | none => some (e.1, age)) none).map (·.1)

/-- RLY_CFG.K: 0 and 1 are taken as 2. -/
def State.relayK (s : State) : Nat := max 2 (s.get RLY_CFG_K)

/-- A relay is suppressed (R264, R270): its entry SUPPRESSED, its buffer freed and its loaded slot emptied. -/
def State.suppress (s : State) (r : Relay) : State :=
  (((s.relayEmpty r).modLink (fun l => { l with relays := l.relays.filter (· != r) })).foldMod r.entry
    (fun e => { e with state := 3 })).linkHi 4

/-- A copy is counted (R264): HEARD one higher, and the relay of a PENDING entry suppressed at K. -/
def State.foldHeard (s : State) (a : Nat) : State :=
  let t := s.foldMod a (fun e => { e with heard := min 7 (e.heard + 1) })
  match t.foldRead a with
  | (some e, u) =>
    if t.foldUsable && e.state == 1 && t.relayK ≤ e.heard then
      match u.link.relays.find? (fun r => r.entry == a && r.st != .copy) with
      | some r => u.suppress r
      | none => u
    else u
  | (none, u) => u

/-- A flood copy (R264). -/
def State.floodCopy (s : State) (a : Nat) : State := (s.linkLo 3).foldHeard a

/-! ## What happens to a descriptor at the end -/

def State.macFind (s : State) (id : Nat) : Option Mac := s.link.macs.find? (fun m => m.id == id)

/-- A MAC frame leaves the assists; a copy that no relay took is freed (R255, R267). -/
def State.macOut (s : State) (m : Mac) : State :=
  s.modLink (fun l => { l with
    macs := l.macs.filter (fun x => x.id != m.id)
    relays := l.relays.filter (fun r => !(r.st == .copy && m.relay == some r.buf)) })

/-- The record completes with a STATUS; the bytes of a frame that went to the cipher engine stand in their buffer. -/
def State.macComplete (s : State) (m : Mac) (status : Nat) (data : List Byte) : State :=
  if m.placed then (s.macOut m).completeRec (poolIx m.pool) m.idx status m.pos m.hdr m.sync data.length
  else (s.macOut m).complete (poolIx m.pool) m.idx status m.pos m.hdr m.sync data

/-- The descriptor returns to FREE. -/
def State.macFree (s : State) (m : Mac) : State := (s.macOut m).descFree (poolIx m.pool) m.idx

/-- How the frame of an immediate ACK stands. -/
def State.ackMark (s : State) (id : Nat) (st : AckSt) : State :=
  s.modLink (fun l => { l with ack := l.ack.map (fun a => if a.frame == id && !a.cut && !a.full then { a with st := st } else a) })

/-- The roll-call entry of a frame (R278): withheld while an immediate ACK of it may still be sent in full and ALL is
0. -/
def State.rollCall (s : State) (m : Mac) : State :=
  if !s.asksAck m.bytes then s
  else if !s.test RC_CFG_ALL && s.link.ack.any (fun a => a.frame == m.id && !a.cut) then
    s.modLink (fun l => { l with ack := l.ack.map (fun a => { a with owed := !a.full }) })
  else s.rcAdd (macSrc m.bytes) (macCtr m.bytes)

/-- A duplicate (R259): counted, flagged, re-acknowledged. -/
def State.macDuplicate (s : State) (m : Mac) : State :=
  (((s.linkHi 0).raise LNK_FLAGS_DUPLICATE).ackMark m.id .duplicate).rollCall m

/-! ## Commit (R254) -/

/-- A flood frame's insertion (R265, R268): where it stands, and its relay queued when it holds a copy. -/
def State.foldInsert (s : State) (m : Mac) (l : List (Nat × FoldEnt)) : State :=
  let asn := s.sched.asn.toNat % 2 ^ 20
  match foldVictim asn l with
  | none => s.raise LNK_FLAGS_FOLD_FULL
  | some a =>
    let r := s.link.relays.find? (fun r => r.st == .copy && m.relay == some r.buf)
    let e : FoldEnt := { valid := true, heard := 1, state := bit r.isSome, buf := (r.map (·.buf)).getD 0
                         origin := macOrigin m.bytes, seq := macSeq m.bytes, asn := asn }
    let t := s.foldWrite a e
    match r with
    | none => t
    | some r =>
      if !t.foldUsable then t
      else
        let (k, t) := t.fresh
        let d := (Config.freeW20 k).toNat % (t.get RLY_CFG_DMAX + 1)
        t.modRelay r.buf (fun x => { x with st := .pending, entry := a, due := s.sched.asn + 1 + BitVec.ofNat 40 d
                                            tries := 0 })

/-- The commit's end: roll call, time sample (R240; `auth` when the cipher engine authenticated it), delivery. -/
def State.macAccept (s : State) (m : Mac) (auth : Bool) (data : List Byte) : State :=
  let t := (s.ackMark m.id .accepted).rollCall m
  let t := if !macFlood m.bytes && m.nbr.isSome && (auth || t.test NBT_SIZE_UNSEC) then
      t.sampleOffer (macSrc m.bytes) m.pos m.sync else t
  if macDst m.bytes = t.linkAddr ∨ macDst m.bytes = broadcast then
    (t.macComplete m 0 data).raise LNK_FLAGS_DELIVERED
  else t.macFree m

/-- The commit of a frame, with the bytes it delivers (R254). -/
def State.macCommit (s : State) (m : Mac) (auth : Bool) (data : List Byte) : State :=
  if macFlood m.bytes then
    match s.foldLoad (macOrigin m.bytes) (macSeq m.bytes) with
    | (some l, t) =>
      match foldHit l (macOrigin m.bytes) (macSeq m.bytes) with
      | some a => (t.floodCopy a).macFree m
      | none => (t.foldInsert m l).macAccept m auth data
    | (none, t) => t.macAccept m auth data
  else
    match m.nbr with
    | some i =>
      let r := s.rpw i
      match r.judge (macCtr m.bytes).toNat (macKeyId m.bytes) with
      | .duplicate => (s.macDuplicate m).macFree m
      | .replay => ((s.linkLo 0).ackMark m.id .rejected).macFree m
      | .new => (s.setRpw i (r.accept (macCtr m.bytes).toNat (macKeyId m.bytes))).macAccept m auth data
    | none => s.macAccept m auth data

/-! ## Judgement (R253) -/

/-- The ACK wait takes a TYPE 1 frame (R276). -/
def State.ackFrame (s : State) (l : List Byte) : State :=
  match s.link.ackWait with
  | some (d, c, _) =>
    if macDst l = s.linkAddr ∧ macSrc l = d ∧ macCtr l = c then
      (((s.put ACK_STAT_WAIT 2).put ACK_STAT_CODE (macWord l 16 1)).modLink
        (fun k => { k with ackWait := none })).raise LNK_FLAGS_ACK_OK
    else s.linkLo 7
  | none => s.linkLo 7

/-- A drop outcome of R253, which KEEP turns into a completion. -/
def State.dropKeep (s : State) (st : Nat) : MacVerdict := if s.test LNK_CFG_KEEP then .keep st else .drop

/-- A relay buffer taken for a candidate (R267). -/
def State.relayTake (s : State) (m : Mac) : Option Nat × State :=
  let used := s.link.relays.map (·.buf)
  match (List.range (s.get RLY_PCFG_COUNT1 + 1)).find? (fun j => !used.contains j) with
  | some j =>
    if s.get RLY_PCFG_SIZE * 64 < m.len then (none, (s.linkHi 5).raise LNK_FLAGS_NOBUF)
    else (some j, s.modLink (fun l => { l with
      relays := l.relays ++ [⟨j, .copy, 0, 0, 0, m.len, m.rate, m.bs⟩] }))
  | none => (none, (s.linkHi 5).raise LNK_FLAGS_NOBUF)

/-- Steps 9 and 10 of R253; `miss` when a flood's lookup missed. -/
def State.macKeyed (s : State) (m : Mac) (miss : Bool) : MacVerdict × Option Nat × State :=
  if macSec m.bytes ∧ !s.test (KEYMAP_VALID (macKeyId m.bytes)) then (s.dropKeep 0x11, none, s.linkHi 1)
  else if macFlood m.bytes ∧ miss ∧ s.test RLY_CFG_EN ∧ 1 ≤ macTtl m.bytes ∧ macDst m.bytes ≠ s.linkAddr ∧
      s.foldUsable then
    let (b, t) := s.relayTake m
    (.go, b, t)
  else (.go, none, s)

/-- A frame that draws no immediate ACK after all (R260). -/
def State.ackUndraw (s : State) (id : Nat) : State :=
  s.modLink (fun l => { l with ack := l.ack.filter (fun a => a.frame != id) })

/-- Steps 1 to 10 of R253 for a DATA frame: the verdict, the relay buffer and whether it counts as a copy at commit.
-/
def State.macSteps (s : State) (m : Mac) : Mac × State :=
  let l := m.bytes
  if macBad l m.len then ({ m with verdict := s.dropKeep 0x10 }, s.linkLo 1)
  else if macNet l ≠ s.get LNK_NETID_NETID then ({ m with verdict := .drop }, s.linkHi 2)
  else if macType l = 1 then ({ m with verdict := .drop }, s.ackFrame l)
  else if macFlood l then
    if macOrigin l = s.linkAddr then ({ m with verdict := .drop }, s.linkHi 3)
    else match s.foldLoad (macOrigin l) (macSeq l) with
      | (some es, t) =>
        match foldHit es (macOrigin l) (macSeq l) with
        | some a =>
          if t.test FOLD_CFG_AUTHCOUNT then
            let (v, b, u) := t.macKeyed m false
            ({ m with verdict := v, relay := b, counts := true }, u)
          else ({ m with verdict := .drop }, t.floodCopy a)
        | none =>
          let (v, b, u) := t.macKeyed m true
          ({ m with verdict := v, relay := b }, u)
      | (none, t) =>
        let (v, b, u) := t.macKeyed m true
        ({ m with verdict := v, relay := b }, u)
  else if macDst l ≠ s.linkAddr ∧ macDst l ≠ broadcast ∧ !s.test LNK_CFG_OVERHEAR then
    ({ m with verdict := s.dropKeep 0x12 }, s.linkLo 2)
  else
    let i := s.nbFind (macSrc l)
    if i = none ∧ !s.test LNK_CFG_STRANGER then ({ m with verdict := s.dropKeep 0x12 }, s.linkLo 2)
    else
      let m := { m with nbr := i }
      match i.map (fun i => (s.rpw i).judge (macCtr l).toNat (macKeyId l)) with
      | some .duplicate => ({ m with verdict := .duplicate }, s.macDuplicate m)
      | some .replay => ({ m with verdict := .drop }, (s.linkLo 0).ackUndraw m.id)
      | _ =>
        let (v, b, t) := s.macKeyed m false
        ({ m with verdict := v, relay := b }, t)

/-- A frame's RSSI rounded to 1 dB, as a report byte (R274). -/
def reportOf (r : SyncRec) : Byte := BitVec.ofInt 8 (max (-128) (min 127 (roundDiv r.rssi.toInt 4)))

/-- The immediate ACK that a frame draws (R273), its last symbol in tick `gone` where that has left the stall. -/
def State.ackDraw (s : State) (m : Mac) (gone : Option Nat) : State :=
  if !macBad m.bytes m.len && s.test ACK_CFG_EN && s.link.primNow == some m.pos && s.asksAck m.bytes &&
      !macFlood m.bytes && s.link.ack.isNone then
    s.modLink (fun l => { l with ack := some {
      frame := m.id, pos := m.pos, src := macSrc m.bytes, ctr := macCtr m.bytes, rpt := reportOf m.sync
      nbr := s.nbFind (macSrc m.bytes), st := .waiting, decAt := s.tick, endAt := gone, fired := false, full := false
      cut := false, owed := false } })
  else s

/-- A MODE 0 frame's first block is decoded: the assists judge it (R253; notes/assumptions/15.md). -/
def State.macJudge (s : State) (f : Frame) (head : List Byte) : State :=
  let m : Mac := { id := f.id, pos := f.pos, pool := f.pool, idx := f.idx, sync := f.sync, hdr := f.hdr, len := f.len
                   rate := f.rate, bs := f.bs, bytes := head, verdict := .plain, nbr := none, relay := none
                   counts := false, placed := false }
  let (m, t) := if s.test LNK_CFG_EN then (s.ackDraw m (if f.last then some f.lastTick else none)).macSteps m else (m, s)
  let t := match m.verdict with
    | .drop | .keep _ => t.ackMark m.id .rejected
    | _ => t
  t.modLink (fun l => { l with macs := l.macs ++ [m] })

/-- The copy that a relay buffer takes: TTL - 1 in byte 23 (R267). -/
def relayBytes (l : List Byte) : List Byte :=
  l.take 23 ++ ((l.drop 23).take 1).map (fun b => (b &&& 0xC0) ||| ((b &&& 0x3F) - 1)) ++ l.drop 24

/-- What the assists know of a frame, changed. -/
def State.setMac (s : State) (m : Mac) : State :=
  s.modLink (fun l => { l with macs := l.macs.map (fun x => if x.id = m.id then m else x) })

/-- A MODE 0 frame whose every block is good is released to the assists (R214, R253). -/
def State.macRelease (s : State) (id : Nat) (data : List Byte) : State :=
  match s.macFind id with
  | none => s
  | some m =>
    let m := { m with bytes := data }
    let s := s.setMac m
    match m.verdict with
    | .plain => s.macComplete m 0 data
    | .drop | .duplicate => s.macFree m
    | .keep st => s.macComplete m st data
    | .go =>
      let t := match m.relay with
        | some j => s.dmaWrite 3 (s.get RLY_POOL_BASE + s.get RLY_PCFG_SIZE * 64 * j) (relayBytes data) (.relay j)
        | none => s
      if macSec data then
        (t.setMac { m with placed := true }).dmaWrite 0 (t.bufAt (poolIx m.pool) m.idx) data (.macIn id)
      else t.macCommit m false data

/-- A secured frame does not commit (R294): dropped, or with KEEP completed with the STATUS it failed with, if any. -/
def State.macFail (s : State) (id : Nat) (status : Option Nat) : State :=
  match s.macFind id with
  | none => s
  | some m =>
    let t := s.ackMark id .rejected
    match status with
    | some r => if t.test LNK_CFG_KEEP then t.macComplete m r m.bytes else t.macFree m
    | none => t.macFree m

/-- A secured frame stands in its receive buffer: its request to the cipher engine is submitted (R253, R294). A second
submission while one waits is discarded (R290), and its frame dropped (notes/assumptions/55.md). -/
def State.macSubmit (s : State) (id : Nat) : State :=
  if s.cipher.waits.any (fun w => w.src == 0) then (s.raise CPH_FLAGS_SUBMIT_REFUSED).macFail id none
  else { s with cipher := { s.cipher with waits := s.cipher.waits ++ [⟨0, id, s.tick⟩] } }

/-- A frame whose tag matched takes its plaintext: `plain` in place of the payload (R294). -/
def State.macPlain (s : State) (id : Nat) (plain : List Byte) : State :=
  match s.macFind id with
  | none => s
  | some m => s.setMac { m with
      bytes := m.bytes.take (macHead m.bytes) ++ plain ++ m.bytes.drop (m.len - macMic m.bytes) }

/-- The plaintext of a frame stands in its receive buffer: the frame commits (R254, R294). -/
def State.macOpened (s : State) (id : Nat) : State :=
  match s.macFind id with
  | none => s
  | some m => s.macCommit m true m.bytes

/-! ## The fold's commands -/

/-- The fold's placement (R262). -/
def State.foldPlaced (s : State) (log2 : Nat) : Bool :=
  let b := s.foldBase
  b % 64 == 0 && ((log2 ≤ 10 && b + 64 * 2 ^ log2 ≤ 0xA0000) ||
    (log2 ≤ 18 && 0x100000000 ≤ b && b + 64 * 2 ^ log2 ≤ 0x200000000))

/-- A write of FOLD_CFG (R262, R265): EN := 1 writes 0 to the whole fold. -/
def State.foldCfg (s : State) (v : W20) : State :=
  let w := v &&& 0xA001F
  if s.test FOLD_CFG_EN || s.test FOLD_CFG_BUSY then
    if v.getLsbD 19 then s.raise LNK_FLAGS_CFG_REFUSED
    else s.setRg FOLD_CFG (w ||| (s.rg FOLD_CFG &&& 0x40000))
  else if !v.getLsbD 19 then s.setRg FOLD_CFG w
  else if !s.foldPlaced (v.toNat % 32) then s.raise LNK_FLAGS_CFG_REFUSED
  else
    let t := ((s.setRg FOLD_CFG w).put FOLD_CFG_BUSY 1).modLink (fun l => { l with foldClr := true })
    match t.wideWrite 3 t.foldBase (List.replicate (64 * 2 ^ (v.toNat % 32)) 0) with
    | (0, u) => u
    | (_, u) => u.foldFail

/-- FOLD_ENABLE (R265): a write of FOLD_CFG. -/
def execFoldEnable (v : W20) (s : State) : Out := s.during s.clocked <| .next (s.foldCfg v)

/-- FOLD_CLEAR_DONE (R265). -/
def execFoldClearDone (s : State) : Out := s.during s.inRun <|
  .next (if s.link.foldClr then (s.put FOLD_CFG_BUSY 0).modLink (fun l => { l with foldClr := false }) else s)

/-- FOLD_ERR (R265). -/
def execFoldErr (s : State) : Out := s.during s.inRun <| .next (if s.test FOLD_CFG_EN then s.foldFail else s)

/-! ## The relay assist (R269-R271) -/

/-- A write of RLY_CFG: EN := 0 withdraws every PENDING relay, whose entries become SEEN (notes/assumptions/16.md). -/
def State.relayCfg (s : State) (v : W20) : State :=
  if s.test RLY_CFG_EN then
    if v.getLsbD 19 then s.raise LNK_FLAGS_CFG_REFUSED
    else
      let gone := s.link.relays.filter (fun r => r.st != .copy)
      (gone.foldl (fun t r => t.foldMod r.entry (fun e => { e with state := 0 })) s.relaysOut).setRg RLY_CFG
        (v &&& 0x7FC0F)
  else s.setRg RLY_CFG (v &&& 0xFFC0F)

/-- A write of RLY_POOL or RLY_PCFG. -/
def State.relayPool (s : State) (a : Nat) (v : W20) : State :=
  if s.test RLY_CFG_EN then s.raise LNK_FLAGS_CFG_REFUSED else s.setRg a v

/-- RELAY_DISABLE (R280): RLY_CFG.EN := 0. -/
def execRelayDisable (s : State) : Out := s.during s.clocked <| .next (s.relayCfg (s.rg RLY_CFG &&& 0x7FFFF))

/-- The 18 bytes of an ACK (R274). -/
def State.ackBytes (s : State) (a : AckRun) : List Byte :=
  let dup := a.st == .duplicate
  let r := a.nbr.map s.rpw
  let rpt : Byte := match dup, r with
    | true, some r => if r.ackV then BitVec.ofNat 8 r.rpt else a.rpt
    | _, _ => a.rpt
  toBytesBE 2 0x4000 ++ toBytesBE 2 (s.get LNK_NETID_NETID) ++ toBytesBE 4 a.src.toNat ++
    toBytesBE 4 s.linkAddr.toNat ++ toBytesBE 4 a.ctr.toNat ++ [BitVec.ofNat 8 (bit dup), rpt]

/-- The ACK slot loaded under R216; none where the load fails. -/
def State.ackLoad (s : State) (a : AckRun) : Option State :=
  let k := s.get ACK_CFG_SLOT
  let b := s.get ACK_BUF_ADDR
  let t := if inSram b 18 then s.ramWrite .sram b (s.ackBytes a) else s
  let t := (t.setRg (FU_TX_SRC k) (BitVec.ofNat 20 b)).setRg (FU_TX_LEN k) 18
  let t := t.setRg (FU_TX_CTL k) (BitVec.ofNat 20
    (s.get ACK_CFG_RATE * 2 ^ 15 + s.get ACK_CFG_BS * 2 ^ 14 + 2 ^ 11 + a.pos * 2 ^ 5))
  if t.txValid k then some (t.put (FU_TX_CTL_READY k) 1) else none

/-- An immediate ACK whose TX start is due and would fire: its slot can be loaded (R272-R274). -/
def State.ackDue (s : State) : Bool :=
  match s.link.ack with
  | some a => (match a.endAt with
    | some e => !a.fired && max e a.decAt < s.tick && a.decAt - e ≤ s.get ACK_CFG_WIN &&
        !s.test (FU_TX_CTL_READY (s.get ACK_CFG_SLOT)) && (s.ackLoad a).isSome
    | none => false)
  | none => false

/-- RELAY_FIRE (R270): at START + RLY_FIRE; `temp` is the die temperature of a calibration that it starts (R518). -/
def execRelayFire (temp : BitVec 10) (s : State) : Out := s.during s.inRun <|
  match s.link.relays.find? (fun r => r.st == .loaded) with
  | none => .next s
  | some r =>
    if !s.foldUsable || !s.reached (s.sched.start + BitVec.ofNat 40 (s.get RLY_FIRE_FIRE)) then .next s
    else
      match s.foldRead r.entry with
      | (none, t) => .next t
      | (some e, s) =>
        if s.relayK ≤ e.heard then .next (s.suppress r)
        else
          let (t, ok) := s.txLesser (s.get RLY_CFG_SLOT) (s.txArmed || s.ackDue) temp
          .next (t.modRelay r.buf (fun x => { x with st := if ok then .fired else .failed }))

/-- Whether the start of a relay has ended without TX_DONE. -/
def State.relayFailed (s : State) (r : Relay) : Bool :=
  r.st == .failed || (r.st == .fired && !(s.radio.tx.any (fun x => x.slot == s.get RLY_CFG_SLOT)))

/-- RELAY_TRY (R271): a relay whose start was refused, abandoned or could not be loaded goes to the next slot, its
transmit slot emptied (notes/assumptions/16.md), or is dropped after TRIES. -/
def execRelayTry (s : State) : Out := s.during s.inRun <|
  match s.link.relays.find? s.relayFailed with
  | none => .next s
  | some r =>
    let k := s.get RLY_CFG_SLOT
    let t := if s.test (FU_TX_CTL_SENDING k) then s else s.put (FU_TX_CTL_READY k) 0
    if max 1 (s.get RLY_CFG_TRIES) ≤ r.tries + 1 then
      let t := t.modLink (fun l => { l with relays := l.relays.filter (· != r) })
      .next (((t.foldMod r.entry (fun e => { e with state := 0 })).linkLo 5).raise LNK_FLAGS_RELAY_DROP)
    else
      .next (t.modRelay r.buf (fun x => { x with tries := x.tries + 1, due := s.sched.asn + 1, st := .pending }))

/-! ## The immediate ACK (R273-R275) -/

/-- IMMEDIATE_ACK_START (R273): in the tick after the later of the frame's last symbol and its first block's decode.
-/
def execImmediateAckStart (temp : BitVec 10) (s : State) : Out := s.during s.inRun <|
  match s.link.ack with
  | none => .next s
  | some a =>
    match a.endAt with
    | none => .next s
    | some e =>
      let k := s.get ACK_CFG_SLOT
      if a.fired ∨ s.tick ≤ max e a.decAt then .next s
      else if s.get ACK_CFG_WIN < a.decAt - e then .next (s.ackFail 5)
      else if s.test (FU_TX_CTL_READY k) then .next (s.ackFail 6)
      else match s.ackLoad a with
        | none => .next ((s.raise FU_FLAGS_CFG_REFUSED).ackFail 6)
        | some t =>
          let (u, ok) := t.txLesser k t.txArmed temp
          if ok then .next (u.modLink (fun l => { l with ack := some { a with fired := true } }))
          else .next ((u.ackFail 6).put (FU_TX_CTL_READY k) 0)

/-- The ACK is cut: it ends after its sync word, and its slot's READY is cleared. -/
def State.ackCut (s : State) (a : AckRun) (code : Nat) : State :=
  let t := (s.ackFail code).put (FU_TX_CTL_READY (s.get ACK_CFG_SLOT)) 0
  t.modLink (fun l => { l with ack := some { a with cut := true, owed := false } })

/-- The ACK is sent in full, its bytes as the frame now stands; an accepted frame's replay record keeps it. -/
def State.ackFull (s : State) (a : AckRun) : State :=
  let t := (s.ramWrite .sram (s.get ACK_BUF_ADDR) (s.ackBytes a)).put ACK_STAT_LAST (if a.st == .duplicate then 2 else 1)
  let t := match a.st, a.nbr with
    | .accepted, some i =>
      t.setRpw i { t.rpw i with ackV := true, code := 0, rpt := a.rpt.toNat, ctr := a.ctr.toNat }
    | _, _ => t
  t.modLink (fun l => { l with ack := some { a with full := true } })

/-- ACK_DECISION (R275): in the tick in which the last sync symbol of the ACK begins. -/
def execAckDecision (s : State) : Out := s.during s.inRun <|
  match s.link.ack, s.radio.tx with
  | some a, some x =>
    let k := s.get ACK_CFG_SLOT
    let lead := (s.frame.tx.map (·.lead.length)).getD 0
    let n := 192 + (lead - 1) * s.txSym
    if !a.fired ∨ a.full ∨ a.cut ∨ x.slot ≠ k ∨ s.rfe ≠ 6 ∨ s.since (x.ramp.getD s.tick) < n then .next s
    else match a.st with
      | .accepted | .duplicate => .next (s.ackFull a)
      | .rejected => .next (s.ackCut a 3)
      | .waiting => .next (s.ackCut a 4)
  | _, _ => .next s

/-- ACK_WAIT_TIMEOUT (R276): the tick of the timeout has passed, and so no ACK of that tick can still end the wait as
OK (R18, notes/assumptions/52.md). -/
def execAckWaitTimeout (s : State) : Out := s.during s.inRun <|
  match s.link.ackWait with
  | some (_, _, b) =>
    .next (if (s.rg ACKW_TO).toNat < s.since b then
      ((s.put ACK_STAT_WAIT 3).modLink (fun l => { l with ackWait := none })).raise LNK_FLAGS_ACK_MISS else s)
  | none => .next s

/-- ACK_PRIM_WRITE (R273): staged; the slot boundary applies it. -/
def execAckPrimWrite (v : W20) (s : State) : Out := s.during s.clocked <| .next (s.setRg ACK_PRIM (v &&& 0x7F))

/-! ## The roll call (R277, R279) -/

/-- A write of RC_COPY. -/
def State.rcCopy (s : State) (addr : W20) : State :=
  let n := min (min (max 1 (s.get RC_STATE_MAX)) 32) s.link.rc.length
  if s.test RC_STATE_BUSY ∨ !inSram addr.toNat (1 + 8 * n) then s.raise LNK_FLAGS_CFG_REFUSED
  else
    let es := s.link.rc.take n
    let bytes := BitVec.ofNat 8 n :: es.flatMap (fun e => toBytesBE 4 e.1.toNat ++ toBytesBE 4 e.2.toNat)
    (((s.put RC_STATE_BUSY 1).put RC_STATE_N n)).modLink
      (fun l => { l with rc := l.rc.drop n, rcCopy := some (addr.toNat, bytes) })

def execRcCopy (addr : W20) (s : State) : Out := s.during s.clocked <| .next (s.rcCopy addr)

/-- RC_COPY_DONE: the bytes are written. -/
def execRcCopyDone (s : State) : Out := s.during s.inRun <|
  match s.link.rcCopy with
  | some (a, bytes) =>
    .next (((s.ramWrite .sram a bytes).put RC_STATE_BUSY 0).modLink (fun l => { l with rcCopy := none }))
  | none => .next s

/-! ## KEYMAP (R282) -/

/-- A write of KEYMAPk. -/
def State.keymapSet (s : State) (k : Nat) (v : W20) : State :=
  let n := v.toNat % 64
  if v.getLsbD 19 ∧ (s.get (TR_INFO_STATE n) = 0 ∨ s.get (TR_INFO_USE n) < 8) then s.raise LNK_FLAGS_CFG_REFUSED
  else s.setRg (KEYMAP k) (v &&& 0x8003F)

def execKeymapWrite (k : Fin 64) (v : W20) (s : State) : Out := s.during s.clocked <| .next (s.keymapSet k.val v)

/-! ## The end of a transmission (R217, R218, R270, R276) -/

/-- The frame unit reads the next block of the frame being sent, in the tick before its first symbol is due (R218,
notes/assumptions/54.md); a read that cannot be corrected abandons the transmission, and nothing of the block is sent.
-/
def State.txRead (s : State) (x : TxRun) (f : TxFrame) : State :=
  let (a, n) := s.txPart x.slot f.next
  match s.ramRead .sram a n with
  | (some data, t) => t.modFrames (fun u => { u with tx := some { f with
      data := f.data ++ data, next := f.next + 1, bits := f.bits ++ s.txBody x.slot f.next data } })
  | (none, t) => t.txAbandon 9

/-- The slot sends an immediate ACK that has been cut: nothing follows its sync word (R275). -/
def State.txCut (s : State) (k : Nat) : Bool := s.link.ack.any (fun a => a.cut) && s.get ACK_CFG_SLOT == k

/-- The reads that a tick brings (R218). -/
def State.txFeed (s : State) : State :=
  match s.radio.tx, s.frame.tx with
  | some x, some f =>
    if s.rfe = 6 ∧ f.next < s.txBlocks x.slot ∧ f.nextTick (x.ramp.getD s.tick) ≤ s.tick + 1 ∧ !s.txCut x.slot
    then s.txRead x f else s
  | _, _ => s

/-- The last symbol of the frame, or of a cut ACK's sync word, has left RFOUT (R204, R217, R275). -/
def State.txOver (s : State) : Bool :=
  match s.radio.tx, s.frame.tx with
  | some x, some f =>
    let r := x.ramp.getD s.tick
    if s.txCut x.slot then decide (f.symTick r f.lead.length ≤ s.tick)
    else s.txBlocks x.slot ≤ f.next && decide (f.nextTick r ≤ s.tick)
  | _, _ => false

/-- A relay sent in full (R270). -/
def State.relaySent (s : State) (k : Nat) : State :=
  match s.link.relays.find? (fun r => r.st == .fired && s.get RLY_CFG_SLOT == k) with
  | some r =>
    ((s.modLink (fun l => { l with relays := l.relays.filter (· != r) })).foldMod r.entry
      (fun e => { e with state := 2 })).linkLo 4
  | none => s

/-- The ACK wait that a frame sent from slot `k` opens (R276). -/
def State.waitOpen (s : State) (k : Nat) : State :=
  let l := (s.frame.tx.map (·.data)).getD []
  if !s.test (FU_TX_CTL_FORMAT k) && s.get (FU_TX_CTL_MODE k) == 0 && !macBad l l.length && macType l == 0 &&
      macAckReq l && !macFlood l && macDst l != broadcast then
    (s.put ACK_STAT_WAIT 1).modLink (fun x => { x with ackWait := some (macDst l, macCtr l, s.tick) })
  else s

/-- The frame being sent leaves the frame unit, its symbols kept as the last that were sent. -/
def State.txSent (s : State) (k : Nat) : State :=
  s.modFrames (fun u => { u with
    sent := (u.tx.map (fun f => if s.txCut k then f.lead else f.symbols (s.test (FU_TX_CTL_FORMAT k)))).getD [], tx := none })

/-- The last symbol of slot `k`'s frame has left RFOUT (R217). -/
def State.txDone (s : State) (k : Nat) : State :=
  let t := ((s.put (FU_TX_CTL_READY k) 0).put (FU_TX_CTL_SENDING k) 0).setRg FU_TXBUSY 0
  let t := (t.put RFE_TXSTAT_CODE 1).raise RFE_FLAGS_TX_DONE
  let t := match t.link.ack with
    | some a => if a.fired && t.get ACK_CFG_SLOT == k then (t.linkHi 6).modLink (fun l => { l with ack := none }) else t
    | none => t
  (((t.relaySent k).waitOpen k).txSent k).turnBack

/-- The sync word of a cut ACK has ended (R275). -/
def State.cutDone (s : State) (k : Nat) : State :=
  let t := (((s.put (FU_TX_CTL_SENDING k) 0).setRg FU_TXBUSY 0).put RFE_TXSTAT_CODE 0).txSent k
  (t.modLink (fun l => { l with ack := none })).turnBack

/-- FRAME_SENT (R217): the last symbol of the frame, or of a cut ACK's sync word, leaves RFOUT. -/
def execFrameSent (s : State) : Out := s.during s.inRun <|
  match s.radio.tx with
  | some x =>
    if s.rfe ≠ 6 ∨ !s.txOver then .next s
    else if s.txCut x.slot then .next (s.cutDone x.slot)
    else .next (s.txDone x.slot)
  | none => .next s

/-- SRAM_ERR (R218): a read of the frame finds an error that cannot be corrected. -/
def execSramErr (addr : W20) (s : State) : Out := s.during s.inRun <|
  match s.radio.tx with
  | some x =>
    .next (if 5 ≤ s.rfe ∧ s.rfe ≤ 6 ∧ s.get (FU_TX_SRC_SRC x.slot) ≤ addr.toNat + 3 ∧
        addr.toNat < s.get (FU_TX_SRC_SRC x.slot) + s.get (FU_TX_LEN_LENGTH x.slot)
      then (s.report 8 (BitVec.ofNat 20 (addr.toNat / 4 * 4))).txAbandon 9 else s)
  | none => .next s

end Sys2Proof.Machine
end

