-- ==== Sys2Proof/Machine/FrameUnit.lean ====
section
/-! DEFINITION. The frame unit's receive side and the LDPC decoder's queue (spec/08): headers, blocks, decodes,
deadlines and the outcomes of frames. -/

namespace Sys2Proof.Machine

/-- `n` bytes that the spec leaves open. -/
def State.freshBytes : Nat → State → List Byte × State
  | 0, s => ([], s)
  | n + 1, s =>
    let (k, t) := s.fresh
    let (l, u) := State.freshBytes n t
    (BitVec.ofNat 8 (Config.freeW20 k).toNat :: l, u)

/-! ## Outcomes (R214) -/

def BlkRes.bytes : BlkRes → List Byte
  | .good b => b | .crcBad b => b | .deadline b => b

def BlkRes.ok : BlkRes → Bool
  | .good _ => true | _ => false

/-- The STATUS of a failed block (R215). -/
def BlkRes.status : BlkRes → Nat
  | .good _ => 0 | .crcBad _ => 1 | .deadline _ => 2

/-- Halter mode turns a MODE 0 frame into a MODE 1 frame (R222). -/
def State.asMac (s : State) (f : Frame) : Bool := !f.sun && f.mode == 0 && !s.stcLocked

/-- A frame ends: its record leaves the frame unit. -/
def State.frameEnd (s : State) (id : Nat) : State :=
  s.modFrames (fun u => { u with frames := u.frames.filter (fun x => x.id != id) })

/-- A frame with a failure of STATUS `st` (R214). -/
def State.frameFailed (s : State) (f : Frame) (st : Nat) (data : List Byte) : State :=
  let t := ((s.frameEnd f.id).ackMark f.id .rejected).macDrop f.id
  if t.test DEC_CTL_KEEPBAD then t.complete (poolIx f.pool) f.idx st f.pos f.hdr f.sync data
  else (t.descFree (poolIx f.pool) f.idx).raise FU_FLAGS_DROPPED

/-- A frame whose every block is good (R214). -/
def State.frameGood (s : State) (f : Frame) (data : List Byte) : State :=
  let t := s.frameEnd f.id
  if t.asMac f then t.macRelease f.id data
  else (t.macDrop f.id).complete (poolIx f.pool) f.idx 0 f.pos f.hdr f.sync data

/-- A frame is released once its last symbol has left the stall and every block is decided. -/
def State.frameSettle (s : State) (id : Nat) : State :=
  match s.frameOf id with
  | none => s
  | some f =>
    let done := f.blocks.filterMap (fun b => b)
    if !f.last ∨ done.length ≠ f.blocks.length then s
    else
      let data := (done.flatMap (·.bytes)).take f.len
      match done.find? (fun b => !b.ok) with
      | some b => s.frameFailed f b.status data
      | none => s.frameGood f data

/-- Block `b` of a frame is decided; the first block of a MAC frame, once good, is judged by the link assists (R253).
-/
def State.blockDone (s : State) (id b : Nat) (r : BlkRes) : State :=
  match s.frameOf id with
  | none => s
  | some f =>
    let f := { f with blocks := f.blocks.set b (some r) }
    let t := s.setFrame f
    let t := if b = 0 ∧ r.ok ∧ t.asMac f then t.macJudge f (r.bytes.take f.len) else t
    t.frameSettle id

/-! ## Headers (R200, R220) -/

/-- How a header is judged. -/
inductive HdrJudge
  | bad | oversize | ok (len rate bs mode : Nat)
deriving DecidableEq, Repr

/-- The native header (R200): `size` is the pool's buffer size. -/
def judgeNative (halter : Bool) (size : Nat) (ext : BitVec 32) : HdrJudge :=
  let w := ext.toNat / 2 ^ 12
  let len := w / 2 ^ 9
  let rate := w / 2 ^ 7 % 4
  let bs := w / 2 ^ 6 % 2
  let mode := w / 2 ^ 4 % 4
  if crc12 20 w ≠ ext.toNat % 2 ^ 12 then .bad
  else if len = 0 ∨ 1600 < len then .bad
  else if 2 ≤ mode then .bad
  else if rate = 3 ∧ bs = 1 then .bad
  else if halter ∧ rate ≠ 3 then .bad
  else if size < len then .oversize
  else .ok len rate bs mode

/-- The PHR (R220). -/
def judgeSun (size phr : Nat) : HdrJudge :=
  let n := phr % 2 ^ 11
  if phr.testBit 15 then .bad
  else if n < phrFcs phr + 1 ∨ 1600 < n - phrFcs phr then .bad
  else if size < n - phrFcs phr then .oversize
  else .ok (n - phrFcs phr) 3 0 1

/-- The jobs of position `p` that hold a slot of the soft store: those that wait, and a running one that has not
reached its deadline. -/
def State.jobsOf (s : State) (p : Nat) : List Job :=
  (s.frame.running.toList.filter (fun j => j.pos == p && s.frame.dead.isNone)) ++ s.frame.jobs.filter (fun j => j.pos == p)

/-- The oldest of a list of jobs, ties to the lower position and then the lower block. -/
def oldestJob : List Job → Option Job
  | [] => none
  | j :: r => match oldestJob r with
    | none => some j
    | some k => if k.since < j.since ∨ (k.since = j.since ∧ k.pos < j.pos) then some k else some j

/-- A block fails with DEADLINE (R212). -/
def State.blockLate (s : State) (id b : Nat) (bytes : List Byte) : State :=
  ((s.bump FU_CNT0_DEADLINE).raise FU_FLAGS_DEADLINE).blockDone id b (.deadline bytes)

/-- A stall needs a slot for a new block (R208, R212): with three jobs held, the oldest reaches its deadline.  A
waiting job fails undecoded, what it leaves open being free; a running decode stops, and DECODE_DONE reports it. -/
def State.slotNeeded (s : State) (p : Nat) : State :=
  let js := s.jobsOf p
  if js.length < 3 then s
  else match oldestJob js with
    | none => s
    | some j =>
      if s.frame.running = some j then s.modFrames (fun u => { u with dead := some s.tick })
      else
        let t := (s.modFrames (fun u => { u with jobs := u.jobs.filter (· != j) })).decIdle
        let n := match t.frameOf j.frame with
          | some f => codeD f.rate f.bs
          | none => 0
        let (bytes, t) := t.freshBytes n
        t.blockLate j.frame j.block bytes

/-- HEADER_BAD (R179, R200). -/
def State.headerBad (s : State) (p : Nat) : State :=
  (((s.stallAbandon p 8).put (STL_STATUS_STATE p) 2).bump FU_CNT1_HDRBAD).raise FU_FLAGS_HEADER_BAD

/-- A header accepted: the stall receives the body. -/
def State.headerOk (s : State) (f : Frame) (hdr : W20) (len rate bs mode : Nat) : State :=
  let f := { f with hdr := hdr, headed := true, len := len, rate := rate, bs := bs, mode := mode
                    blocks := List.replicate (blockCount len rate bs) none }
  let t := s.setFrame f
  if rate = 3 then t else t.slotNeeded f.pos

/-- The decisions of soft values: by their sign, and open where a value is 0 (R200, R212). -/
def State.decisions (s : State) (soft : List Int) : List Bool × State :=
  let (k, t) := s.fresh
  (soft.zipIdx.map (fun e => if e.1 = 0 then Config.freeBit k e.2 else decide (0 < e.1)), t)

/-- HEADER_RECEIVED (R200, R220), once its last bit has reached RFIN: `soft` holds the soft values of the header's
bits in the order received, which for the native header are its two copies, added bit by bit. -/
def execHeaderReceived (p : Pos) (soft : List Int) (s : State) : Out := s.during s.inAir <|
  match (s.stall p.val).frame.bind s.frameOf with
  | none => .next s
  | some f =>
    if f.headed ∨ s.stl p.val ≠ 5 ∨ s.tick < f.headTick then .next s
    else
      let at_ := fun i => (soft[i]?).getD 0
      let (bits, s) := s.decisions (if f.sun then (List.range 16).map at_
        else (List.range 32).map (fun i => at_ i + at_ (32 + i)))
      let v := bitsNat bits
      let size := s.bufSize (poolIx f.pool)
      let j := if f.sun then judgeSun size v else judgeNative s.stcLocked size (BitVec.ofNat 32 v)
      let hdr : W20 := BitVec.ofNat 20 (if f.sun then v else v / 2 ^ 12)
      match j with
      | .bad => .next (s.headerBad p.val)
      | .oversize => .next ((s.stallAbandon p.val 4).put (STL_STATUS_STATE p.val) 2)
      | .ok len rate bs mode => .next (s.headerOk f hdr len rate bs mode)

/-! ## Blocks and decodes (R208-R213) -/

/-- The coded frame of position `p` whose next block is being received, the oldest first. -/
def State.blockFrame (s : State) (p : Nat) : Option Frame :=
  s.frame.frames.find? (fun f => f.pos == p && f.headed && f.rate != 3 && f.queued < f.blocks.length)

/-- BLOCK_QUEUED (R208, R211): the last bit of the next block has left the stall, and its soft values stand in a slot
of the soft store. -/
def execBlockQueued (p : Pos) (s : State) (soft : List Int := []) : Out := s.during s.inAir <|
  match s.blockFrame p.val with
  | none => .next s
  | some f =>
    if s.tick < f.blockTick f.queued then .next s
    else
      let j : Job := { frame := f.id, block := f.queued, pos := f.pos, since := s.tick, urgent := false, soft := soft }
      let t := (s.setFrame { f with queued := f.queued + 1 }).modFrames
        (fun u => { u with jobs := u.jobs ++ [j], idleAt := none })
      let t := t.ask 0 [3]
      .next (if f.queued + 1 < f.blocks.length then t.slotNeeded p.val else t)

/-- A job is urgent once it has waited more than DEC_PAT decoder cycles, 125 to 48 mesh ticks (R14, R210). -/
def State.jobUrgent (s : State) (j : Job) : Bool := s.get DEC_PAT_PATIENCE * 48 < s.since j.since * 125

/-- The job that the decoder takes next (R210). -/
def State.nextJob (s : State) : Option Job :=
  let js := s.frame.jobs
  match oldestJob (js.filter s.jobUrgent) with
  | some j => some j
  | none => match oldestJob (js.filter (fun j => 3 ≤ (s.jobsOf j.pos).length)) with
    | some j => some j
    | none => oldestJob js

/-- DECODE_START (R210). -/
def execDecodeStart (s : State) : Out := s.during s.inRun <|
  if s.frame.running.isSome ∨ !s.holds 3 then .next s
  else match s.nextJob with
    | none => .next s
    | some j =>
      let n := s.get DEC_CTL_ITER
      .next (s.modFrames (fun u => { u with
        jobs := u.jobs.filter (· != j), running := some j, begun := s.tick, dead := none, iter := if n = 0 then 16 else n }))

/-- The whole iterations that a decode completes by tick `d`, of 125/48 decoder cycles a tick: none in its first 40
cycles, and at most ITER (R209). -/
def State.itersBy (s : State) (rate d : Nat) : Nat :=
  min s.frame.iter ((125 * (d - s.frame.begun) / 48 - 40) / iterCycles rate)

/-- A decode ends as it reports (R209): by itself, after an iteration that left a zero syndrome or at ITER, once its
cycles have run; where its deadline stopped it, with the iterations of that tick, unless a zero syndrome had ended it
before (R212). -/
def State.decodeTime (s : State) (rate iters : Nat) (zero : Bool) : Bool :=
  match s.frame.dead with
  | none => (zero || iters == s.frame.iter) && 48 * (40 + iters * iterCycles rate) ≤ 125 * s.since s.frame.begun
  | some d => iters == s.itersBy rate d || (zero && iters < s.itersBy rate d)

/-- The hard decisions of a decode: the decoder's own, with the fill at its known value; those of the received soft
values where its deadline stopped it in the tick of its start (R203, R212). -/
def State.decodeBits (s : State) (f : Frame) (j : Job) (hard : List Bool) : List Bool × State :=
  let n := 24 * codeZ f.bs
  let d := blockData f.len f.rate f.bs j.block
  if s.frame.dead = some s.frame.begun then
    let (l, t) := s.decisions ((List.range (n - 8 * (codeD f.rate f.bs - d))).map (fun i => (j.soft[i]?).getD 0))
    (codeFill f.rate f.bs d (whitenAt (j.block * n) l), t)
  else (codeKnown f.rate f.bs d (bitsTo n hard), s)

/-- A decode ends: its CRC-24 decides (R209, R212). -/
def State.decodeEnd (s : State) (f : Frame) (j : Job) (iters : Nat) (bits : List Bool) : State :=
  let k := codeK f.rate f.bs / 8
  let info := packMsb k bits
  let good := crc24 info == 0
  let data := info.take (k - 3)
  let late := s.frame.dead.any (fun d => iters == s.itersBy f.rate d)
  let t := s.setRg DEC_LAST (BitVec.ofNat 20
    (iters * 2 ^ 15 + bit (synZero f.rate f.bs bits && !late) * 2 ^ 14 + bit good * 2 ^ 13 + j.pos))
  let t := (t.modFrames (fun u => { u with running := none, dead := none })).decIdle
  if good then t.blockDone j.frame j.block (.good data)
  else if late then t.blockLate j.frame j.block data
  else ((t.bump FU_CNT0_BLKFAIL).raise FU_FLAGS_BLOCK_FAIL).blockDone j.frame j.block (.crcBad data)

/-- DECODE_DONE (R209, R212): `iters` whole iterations completed and the codeword's hard decisions, those of its
information bits and then of its parity bits.  A decode ends by itself after an iteration that leaves a zero syndrome,
or at ITER, and never before its cycles have run. -/
def execDecodeDone (iters : Nat) (info parity : List Bool) (s : State) : Out := s.during s.inRun <|
  match s.frame.running with
  | none => .next s
  | some j => match s.frameOf j.frame with
    | none => .next s
    | some f =>
      let (bits, t) := s.decodeBits f j (info ++ parity)
      let zero := 1 ≤ iters && synZero f.rate f.bs bits
      .next (if s.frame.iter < iters ∨ !s.decodeTime f.rate iters zero then s else t.decodeEnd f j iters bits)

/-- DECODER_IDLE (R211): in the tick after it became idle. -/
def execDecoderIdle (s : State) : Out := s.during s.inRun <|
  match s.frame.idleAt with
  | none => .next s
  | some b =>
    if s.tick ≤ b ∨ s.frame.running.isSome ∨ !s.frame.jobs.isEmpty then .next s
    else
      let t := s.modFrames (fun u => { u with idleAt := none })
      .next (if t.test DEC_CTL_HOLD then t else t.drop [3])

/-- DEC_CTL.HOLD written (R211). -/
def State.decHold (s : State) (hold : Bool) : State :=
  let t := s.put DEC_CTL_HOLD (bit hold)
  if hold then t.ask 0 [3] else t.decIdle

/-- A write of DEC_CTL. -/
def State.decCtl (s : State) (v : W20) : State := (s.setRg DEC_CTL (v &&& 0x3F)).decHold (v.getLsbD 4)

def execDecHoldWrite (hold : Bool) (s : State) : Out := s.during s.clocked <| .next (s.decHold hold)

/-! ## The packet's last symbol (R185, R204, R220) -/

/-- The body of a SUN FSK frame: PSDU and FCS, de-whitened where the PHR says so (R220). -/
def State.sunBody (s : State) (f : Frame) (body : List Bool) : State :=
  let phr := f.hdr.toNat
  let two := phr.testBit 12
  let bits := if phrDw phr then sunWhiten body else body
  let all := packLsb (f.len + phrFcs phr) bits
  let data := all.take f.len
  if all.drop f.len == fcsOf two data && data.length == f.len then s.frameGood f data
  else ((s.bump FU_CNT1_FCSBAD).raise FU_FLAGS_FCS_BAD).frameFailed f 3 data

/-- The body of an uncoded native frame: payload and CRC-24 (R204). -/
def State.rawBody (s : State) (f : Frame) (body : List Bool) : State :=
  let all := packMsb (f.len + 3) (whiten body)
  let data := all.take f.len
  if all.length = f.len + 3 ∧ crc24 all = 0 then s.blockDone f.id 0 (.good data)
  else ((s.bump FU_CNT0_BLKFAIL).raise FU_FLAGS_BLOCK_FAIL).blockDone f.id 0 (.crcBad data)

/-- The frame of position `p` whose last symbol, or whose uncoded body, is still to come; the oldest first. -/
def State.packetFrame (s : State) (p : Nat) : Option Frame :=
  s.frame.frames.find? (fun f => f.pos == p && f.headed && (!f.last || f.rate == 3))

/-- PACKET_RECEIVED (R185, R204), once the packet's last symbol has reached RFIN: `body` holds the hard decisions of
an uncoded body, as sent on air. -/
def execPacketReceived (p : Pos) (body : List Bool) (s : State) : Out := s.during s.inAir <|
  match s.packetFrame p.val with
  | none => .next s
  | some f =>
    if s.tick < f.lastTick then .next s
    else
      let t := if f.last then s else s.packetEnd p.val f
      let f := { f with last := true }
      if f.sun then .next (t.sunBody f body)
      else if f.rate = 3 then .next (t.rawBody f body)
      else .next (t.frameSettle f.id)

end Sys2Proof.Machine
end

