-- ==== Sys2Proof/Machine/Lattice.lean ====
section
/-! DEFINITION. The lattice's configuration with its ranks (R356-R362), and the storm detector (R363).  Ops.lean has its
channels and cells. -/

namespace Sys2Proof.Machine

/-! ## Ranks (R360, R361) -/

/-- Whether producer `p` is assigned (R353, R354). -/
def prodAssigned (p : Nat) : Bool :=
  p ≤ 0x2D || (0x30 ≤ p && p ≤ 0x71) || (0x73 ≤ p && p ≤ 0x7D) || (0x80 ≤ p && p ≤ 0x8E) ||
    (0x90 ≤ p && p ≤ 0x99) || (0xA0 ≤ p && p ≤ 0xAA) || (0xB0 ≤ p && p ≤ 0xB8) || (0xC0 ≤ p && p ≤ 0xD1)

/-- A cell's rank while it is asynchronous. -/
def State.cellRank (s : State) (n : Nat) : Nat := max 1 (s.get (LAT_CCFG_RANK n))

def State.cellAsync (s : State) (n : Nat) : Bool := s.get (LAT_CCFG_FF n) == 0

/-- The rank of a producer (R360). -/
def State.prodRank (s : State) (p : Nat) : Nat :=
  if 0x60 ≤ p ∧ p < 0x70 then (if s.cellAsync (p - 0x60) then s.cellRank (p - 0x60) else 0) else 0

/-- Every input of an asynchronous cell taps a producer of lower rank, or reads 0 (R360). -/
def State.ranksOk (s : State) : Bool :=
  (List.range 16).all (fun n => !s.cellAsync n ||
    (List.range 4).all (fun i => !prodAssigned (s.cellTap n i) || s.prodRank (s.cellTap n i) < s.cellRank n))

/-- Whether an asynchronous path leads from the pin of GPIO `g` to producer `p`. -/
def State.fromPin (s : State) (g : Nat) : Nat → Nat → Bool
  | 0, p => p == g
  | fuel + 1, p => p == g ||
      (0x60 ≤ p && p < 0x70 && s.cellAsync (p - 0x60) &&
        (List.range 4).any (fun i => State.fromPin s g fuel (s.cellTap (p - 0x60) i)))

/-- No enabled asynchronous channel leads from a pin to the action of the same pin (R361). -/
def State.pinsOk (s : State) : Bool :=
  (List.range 64).all (fun k =>
    !(s.test (LAT_CH_EN k) && s.test (LAT_CH_MODE k)) ||
      (let c := s.get (LAT_CH_CONS k)
       !(0x80 ≤ c && c < 0x98 && s.fromPin (c - 0x80) 16 (s.get (LAT_CH_PROD k)))))

/-! ## Writes (R356, R357, R362) -/

/-- The sources whose writes of the matrix channels and of the cipher submissions are refused (R357). -/
def srcTask : Source → Bool
  | .core _ priv => !priv
  | _ => false

/-- A register that only privileged code may write (R357). -/
def latPrivileged (ofs : Nat) : Bool := (0x0E0 ≤ ofs && ofs < 0x100) || (0x280 ≤ ofs && ofs ≤ 0x288)

/-- A write to the lattice block (R356, R357, R362): PRIV_REFUSED or HSP_FLAGS.ERR, LOOP_REFUSED with the offset in
LAT_LREF, or applied. -/
def State.latWrite (s : State) (src : Source) (ofs : Nat) (v : W20) : State :=
  let a := 0xC3000 + ofs
  if latPrivileged ofs && srcTask src then s.raise LAT_FLAGS_PRIV_REFUSED
  else if latPrivileged ofs && src == .host then (s.put HSP_FLAGS_CAUSE 1).put HSP_FLAGS_ERR 1
  else match regRow a with
    | none => s
    | some r =>
      let mask : W20 := if ofs < 0x0E0 then 0xC0000 else 0xFFFFF
      let t := s.setRg a (regMerge r (s.rg a) ((v &&& mask) ||| (s.rg a &&& ~~~mask)))
      if ofs < 0x200 then
        if t.ranksOk && t.pinsOk then t.settleCells
        else (s.put LAT_LREF_OFS ofs).raise LAT_FLAGS_LOOP_REFUSED
      else t.latchReqs

/-- LATTICE_CONFIG_WRITE (R356, R357, R362). -/
def execLatticeConfigWrite (src : Source) (ofs : BitVec 12) (v : W20) (s : State) : Out := s.during s.clocked <|
  .next (s.reachWith src (0xC3000 + ofs.toNat) (fun t => t.latWrite src ofs.toNat v))

/-! ## Storms (R363) -/

/-- The cycle of the last delivery of channel `ch` and its run of consecutive cycles with a delivery (R363). -/
def State.stormOf (s : State) (ch : Nat) : Nat × Nat := tabGet (fun _ => (0, 0)) s.lattice.storm ch

/-- STORM (R363): a clocked channel that delivered in each of 1,024 consecutive bus cycles is disabled. -/
def execStorm (ch : Fin 64) (s : State) : Out := s.during s.inRun <|
  if (s.stormOf ch.val).2 < 1024 then .next s
  else
    let t := { s with lattice := { s.lattice with storm := tabSet (fun _ => (0, 0)) s.lattice.storm ch.val (0, 0) } }
    let t := ((t.put (LAT_CH_EN ch.val) 0).put LAT_SINFO_CHAN ch.val).put LAT_SINFO_VALID 1
    .next ((t.raise LAT_FLAGS_STORM).report 18 (BitVec.ofNat 20 ch.val))

end Sys2Proof.Machine
end

