-- ==== Sys2Proof/Machine/DmaCtl.lean ====
section
/-! DEFINITION. The control side of the DMA engine (spec/13): the bus stop, and START, ABORT, RESUME and the release of
HALT.  Fetching and moving stand in Dma.lean, after the register space they reach. -/

namespace Sys2Proof.Machine

def State.modDma (s : State) (f : Dma → Dma) : State := { s with dma := f s.dma }

def State.dmaSt (s : State) (n : Nat) : Nat := s.get (DMA_CH_STAT_STATE n)

def State.dmaDesc (s : State) (n : Nat) : Option DmaDesc := (s.dma.desc.toList[n]?).getD none

def State.setDesc (s : State) (n : Nat) (d : Option DmaDesc) : State :=
  s.modDma (fun x => { x with desc := x.desc.setIfInBounds n d })

/-- The check of R41 on every credit take and return. -/
def State.credCheck (s : State) : State :=
  let n := s.dma.credits.length
  let t := (s.put CONS_DMA_HELD_SUM n).put CONS_DMA_FREE (64 - n)
  if n ≤ 64 then t else t.report 1 (BitVec.ofNat 20 n)

/-! ## The bus stop (R348, R349) -/

/-- The transfer that the parts of one belong to. -/
def XferTag.whole : XferTag → XferTag
  | .part p i => .record p i
  | .cipherOut r _ => .cipher r
  | .linkOut r _ => .linkOut r 2
  | .chordPart => .chordRx 0 0
  | .chordRx _ _ => .chordRx 0 0
  | t => t

/-- The waiting parts of an abandoned chord capture, at the head of its queue, go. -/
def chordCut : List Xfer → List Xfer
  | [] => []
  | x :: l => match x.tag with
    | .chordPart => chordCut l
    | .chordRx _ _ => l
    | _ => x :: l

def State.modBlk (s : State) (q : Fin 5) (f : List Xfer → List Xfer) : State :=
  s.modDma (fun d => { d with blk := d.blk.set q (f d.blk[q]) })

def State.modCipher (s : State) (f : Cipher → Cipher) : State := { s with cipher := f s.cipher }

/-- The check of R41 for the cipher queue: queued and running requests and free entries. -/
def State.cqCheck (s : State) : State :=
  let n := s.cipher.queue.length + (if s.cipher.running.isSome then 1 else 0)
  let t := (s.put CONS_CQ_HELD_SUM n).put CONS_CQ_FREE (16 - n)
  if n ≤ 16 then t else t.report 4 (BitVec.ofNat 20 n)

/-- Word 0 of a request's record with DONE and a STATUS (R289). -/
def cphDone (status : Nat) : List Byte := tripleOf (BitVec.ofNat 20 (2 ^ 19 + status * 2 ^ 8))

/-- A hold half of the cipher engine is freed (R291). -/
def State.halfFree (s : State) (h : Nat) : State :=
  if h = 0 then { s with cipher := { s.cipher with half0 := none } }
  else if h = 1 then { s with cipher := { s.cipher with half1 := none } }
  else s

/-- What stands for the record of the update engine's own request, which has none: no address of a record is so high
(R290, R481). -/
def updReqAt : Nat := 2 ^ 20

/-- The update engine hears how the decryption of its piece ended (R481). -/
def State.updHears (s : State) (d : PieceDec) : State :=
  { s with update := { s.update with run := s.update.run.map (fun r => { r with dec := d }) } }

/-- The plaintext of the update engine's piece is in place (R481). -/
def State.pieceOut (s : State) : State :=
  match s.update.run with
  | some { dec := .out l, .. } => s.updHears (.plain l)
  | _ => s

/-- A cipher request ends with BAD_ADDR (R291, R349): its record `r`, or of source 0 its frame. -/
def State.cphBad (s : State) (src r : Nat) : State :=
  let t := s.bump CPH_CNT1_BAD
  if src = 0 then t.macFail r (some 0x25)
  else if r = updReqAt then t.updHears (.failed 0x25)
  else t.dmaWrite 1 r (cphDone 0x25) (.cipher r)

/-- The record of a descriptor that has been taken is lost: the packet or frame that holds it goes, and the descriptor
returns to FREE (R349). -/
def State.takeLost (s : State) (p i : Nat) : State :=
  let t := match (List.range 48).find? (fun k => s.test (STL_STATUS_HOLDS k) && s.get (STL_STATUS_POOL k) == p &&
      s.get (STL_STATUS_INDEX k) == i) with
    | some k => (s.stallDrop k).put (STL_STATUS_STATE k) 2
    | none => match s.frame.frames.find? (fun (f : Frame) => f.pool == p && f.idx == i),
          s.link.macs.find? (fun (m : Mac) => m.pool == p && m.idx == i) with
      | some f, _ => (s.frameWithdraw f.id).descFree (poolIx p) i
      | none, some m => s.macFail m.id none
      | none, none => s.descFree (poolIx p) i
  t.raise FU_FLAGS_DROPPED

/-- A block is told that its transfer was abandoned (R349); `ended` when no part of it waits any more. -/
def State.dmaTell (s : State) (ended : Bool) (t : XferTag) : State :=
  match t with
  | .take p i => s.takeLost p i
  | .record p i =>
    ((s.modBlk 0 (·.filter (fun x => x.tag.whole != t))).descFree (poolIx p) i).raise FU_FLAGS_DROPPED
  | .macIn id => ((s.modBlk 0 (·.filter (fun x => x.tag != t))).macFail id none).raise FU_FLAGS_DROPPED
  | .cipher r => (s.modBlk 1 (·.filter (fun x => x.tag.whole != t))).cphBad 1 r
  | .linkOut id _ => (s.modBlk 1 (·.filter (fun x => x.tag.whole != t))).cphBad 0 id
  | .operand src r =>
    let h := (s.cipher.running.bind (·.2)).getD 2
    (((s.modBlk 1 (·.filter (fun x => x.tag != t))).halfFree h).modCipher
      (fun c => { c with running := none, got := [] })).cqCheck.cphBad src r
  | .hashLine =>
    (s.modBlk 4 (fun _ => [])).modCipher (fun c => { c with hpk := c.hpk.map (fun h => { h with res := 3, left := 0 }) })
  | .chordTx k =>
    ((s.modBlk 2 (·.filter (fun x => x.tag != .chordTx k))).modChord (fun c => { c with
      bay := c.bay.map (fun b => { b with drive := none }), halter := none, txGot := [] })).raise CHD_FLAGS_CUT
  | .chordRx _ _ => (if ended then s else s.modBlk 2 chordCut).bump (CHD_CNT_HI 2)
  | .relay b =>
    let gone := s.link.relays.filter (fun r => r.buf == b)
    let u := (s.modBlk 3 (·.filter (fun x => x.tag != t))).modLink
      (fun l => { l with relays := l.relays.filter (fun r => r.buf != b) })
    ((gone.foldl (fun u r => if r.st == .copy then u else u.foldMod r.entry (fun e => { e with state := 0 })) u).linkHi
      5).raise LNK_FLAGS_NOBUF
  | _ => s

/-- The halves that abandoned transfers were leaving. -/
def halvesOf (l : List XferTag) : List Nat :=
  l.filterMap (fun t => match t with
    | .cipherOut _ h => some h
    | .linkOut _ h => some h
    | _ => none)

/-- The engines discard their data and return every credit, the blocks are told, and every channel that is not IDLE is
HALTED.  Yard writes already issued still count. -/
def State.dmaHalt (s : State) : State :=
  let cs := s.dma.credits
  let begun := (List.finRange 5).flatMap (fun q => (s.dma.blk[q].filter (·.begun)).map (·.tag))
  let tags := ((cs.map (·.tag)) ++ begun)
  let ended := cs.any (fun c => c.fin && c.tag.whole == .chordRx 0 0)
  let t := (s.modDma (fun d => { d with credits := [] })).credCheck
  let t := (halvesOf tags).foldl State.halfFree t
  let t := (((tags.map (·.whole)).filter (· != .none)).eraseDups).foldl (fun t g => t.dmaTell ended g) t
  (List.range 12).foldl (fun t n => if t.dmaSt n = 0 then t else t.put (DMA_CH_STAT_STATE n) 4) t

/-- A bus stop (R348, R350): `eng` 0 the read engine or source range, 1 the write engine or destination range. -/
def State.dmaStop (s : State) (eng cause addr : Nat) (chan : Option Nat) : State :=
  let t := if s.test DMA_FLAGS_HALT then s.put DMA_ERRINFO_MORE 1
    else
      let info := eng * 2 ^ 19 + cause * 2 ^ 16 + (match chan with
        | some c => 2 ^ 4 + c
        | none => 0)
      (s.set40 DMA_ERRLO DMA_ERRHI (BitVec.ofNat 40 addr)).setRg DMA_ERRINFO (BitVec.ofNat 20 info)
  let t := t.dmaHalt.raise DMA_FLAGS_HALT
  t.report 17 (t.rg DMA_ERRINFO)

/-! ## Ranges (R342) -/

def DmaDesc.srcFix (d : DmaDesc) : Bool := d.w0.getLsbD 14
def DmaDesc.dstFix (d : DmaDesc) : Bool := d.w0.getLsbD 13

/-- The ranges to be checked: a fixed one has four bytes. -/
def DmaDesc.srcLen (d : DmaDesc) : Nat := if d.srcFix then 4 else d.len
def DmaDesc.dstLen (d : DmaDesc) : Nat := if d.dstFix then 4 else d.len

/-- Both ranges of a descriptor are checked before a byte moves (R342). -/
def State.rangeCheck (s : State) (n : Nat) (d : DmaDesc) : State :=
  match s.rangeFail false d.src d.srcLen, s.rangeFail true d.dst d.dstLen with
  | some e, _ => s.dmaStop 0 1 e (some n)
  | none, some e => s.dmaStop 1 1 e (some n)
  | none, none => s

/-! ## Channel control (R340, R347, R350) -/

/-- A program channel ends with a cause. -/
def State.dmaEnd (s : State) (n cause : Nat) : State :=
  let t := ((s.put (DMA_CH_STAT_STATE n) 0).put (DMA_CH_STAT_CAUSE n) cause).setDesc n none
  if cause = 1 then t else t.raise DMA_FLAGS_ENDED

/-- Completion writes: w7 with a CODE, then w0 with OWN cleared and its other bits kept (R339, R346). -/
def State.dmaClose (s : State) (n code : Nat) (w0 : W20) : State :=
  let a := s.get (DMA_CH_CUR_VALUE n)
  (s.setSramWord (a + 21) (BitVec.ofNat 20 (code * 2 ^ 16))).setSramWord a (w0 &&& 0x7FFFF)

/-- The writes still on their way from a channel's earlier descriptors count no more toward its DONE. -/
def State.dmaForget (s : State) (n : Nat) : State :=
  s.modDma (fun d => { d with
    credits := d.credits.map (fun c => if c.ch = n then { c with hop := 0 } else c)
    acks := d.acks.map (fun a => if a.ch = n then { a with hop := 0 } else a) })

/-- START = 1, written or from the lattice (R340). -/
def State.dmaStart (s : State) (n : Nat) : State :=
  if s.dmaSt n ≠ 0 then s.put (DMA_CH_STAT_MISSED n) 1
  else ((s.dmaForget n).setRg (DMA_CH_HOPS n) 0 |>.put (DMA_CH_STAT_STATE n) 1).ask 0 [15]

/-- Everything of channel `n`'s descriptor has been read, or it is aborted, and what was read is written. -/
def State.dmaIssued (s : State) (n : Nat) (d : DmaDesc) : Bool :=
  (d.len ≤ d.read || d.aborted) && !s.dma.credits.any (fun c => c.ch == n && !c.wrote)

def DmaDesc.barrier (d : DmaDesc) : Bool := d.w0.getLsbD 18

/-- Channel `n`'s descriptor may complete. -/
def State.dmaFinished (s : State) (n : Nat) (d : DmaDesc) : Bool :=
  s.dmaIssued n d && (!d.barrier ||
    (!s.dma.credits.any (fun c => c.ch == n) &&
      !s.dma.acks.any (fun a => a.ch == n && a.hop == s.get (DMA_CH_HOPS_VALUE n))))

/-- ABORT = 1 (R347, R350): discarded while HALT is set, for an IDLE channel, and once the completion of the
descriptor begins. -/
def State.dmaAbort (s : State) (n : Nat) : State :=
  if s.test DMA_FLAGS_HALT then s
  else match s.dmaSt n, s.dmaDesc n with
    | 0, _ => s
    | 1, _ => s.dmaEnd n 5
    | 4, some d => (s.dmaClose n 3 d.w0).dmaEnd n 5
    | 4, none => s.dmaEnd n 5
    | _, some d => if s.dmaFinished n d then s else s.setDesc n (some { d with aborted := true })
    | _, none => s

/-- START = 1 by a register write: it merges with an event at the channel's lattice input (R340, R364). -/
def State.dmaStartWrite (s : State) (n : Nat) : State :=
  if s.test (DMA_CH_CFG_LSTART n) then s.writeAction (0x98 + n) (fun t => t.dmaStart n) else s.dmaStart n

/-- RESUME = 1 (R342, R350). -/
def State.dmaResume (s : State) (n : Nat) : State :=
  if s.dmaSt n ≠ 4 ∨ s.test DMA_FLAGS_HALT then s
  else
    let t := (s.dmaForget n).ask 0 [15]
    match s.dmaDesc n with
    | some d => ((t.setDesc n (some { d with read := s.get (DMA_CH_DONE_VALUE n), carry := [], aborted := false })).put
        (DMA_CH_STAT_STATE n) 2).rangeCheck n d
    | none => t.put (DMA_CH_STAT_STATE n) 1

/-- A write of DMA_CHn_CTL. -/
def State.dmaCtl (s : State) (n : Nat) (v : W20) : State :=
  if 12 ≤ n then s
  else
    let t := if v.getLsbD 1 then s.dmaAbort n else s
    let t := if v.getLsbD 2 then t.dmaResume n else t
    if v.getLsbD 0 then t.dmaStartWrite n else t

/-- A write of DMA_CHn_NEXT: discarded for a block channel, and while the channel is not IDLE. -/
def State.dmaNext (s : State) (n : Nat) (v : W20) : State :=
  if 12 ≤ n ∨ s.dmaSt n ≠ 0 then s else s.setRg (DMA_CH_NEXT n) v

def execDmaStart (ch : Fin 12) (s : State) : Out := s.during s.clocked <| .next (s.dmaStartWrite ch.val)
def execDmaAbort (ch : Fin 12) (s : State) : Out := s.during s.clocked <| .next (s.dmaAbort ch.val)
def execDmaResume (ch : Fin 12) (s : State) : Out := s.during s.clocked <| .next (s.dmaResume ch.val)

/-- DMA_HALT_RELEASE (R350): a W1C write of 1 to HALT. -/
def execDmaHaltRelease (s : State) : Out := s.during s.clocked <| .next (s.put DMA_FLAGS_HALT 0)

/-- No channel has anything in flight or to fetch (R351). -/
def State.dmaQuiet (s : State) : Bool :=
  s.dma.credits.isEmpty && (List.range 12).all (fun n => s.dmaSt n == 0 || s.dmaSt n == 4) &&
    (List.finRange 5).all (fun q => s.dma.blk[q].isEmpty)

/-- DMA_IDLE (R351). -/
def execDmaIdle (s : State) : Out := s.during s.inRun <| .next (if s.dmaQuiet then s.drop [15] else s)

end Sys2Proof.Machine
end

