-- ==== Sys2Proof/Machine/Chord.lean ====
section
/-! DEFINITION. The chord (spec/12): ports and bypass, repeating, bays, frames, ranging, mesh time over the line, loop
checks, knocks and halter service. -/

namespace Sys2Proof.Machine

/-! ## Ports and bypass (R314, R317) -/

/-- A port's bit: A 1, B 2, as DIR has them. -/
def portBit : Port → Nat
  | .a => 1 | .b => 2

def otherPort : Port → Port
  | .a => .b | .b => .a

/-- INA and INB follow the enables and the charges of holders 12 and 13 (R314); a port out of line has no range. -/
def State.chordSettle (s : State) : State :=
  let a := s.test CHD_CTL_EN_A && s.holds 12
  let b := s.test CHD_CTL_EN_B && s.holds 13
  let t := (s.put CHD_STATE_INA (bit a)).put CHD_STATE_INB (bit b)
  let t := if a then t else t.setRg CHD_RNGA 0xFFFFF
  let t := if b then t else t.setRg CHD_RNGB 0xFFFFF
  if a && b then t else t.modChord (fun c => { c with lock := none })

/-- A port requested in line, or not: its holder asks or returns. -/
def State.portWant (s : State) (h : Nat) (on : Bool) : State := if on then s.ask 0 [h] else s.drop [h]

/-- A write of CHD_CTL (R317, R335).  While ACQ is 1 the bay table is ignored, so a bay in progress ends (R330). -/
def State.chdCtl (s : State) (v : W20) : State :=
  if s.anyIn && (s.rg CHD_CTL &&& 0xC) != (v &&& 0xC) then s.raise CHD_FLAGS_CFG_REFUSED
  else
    let t := (((s.setRg CHD_CTL (v &&& 0xFF)).portWant 12 (v.getLsbD 0)).portWant 13 (v.getLsbD 1)).chordSettle
    if v.getLsbD 7 then t.chordEnd else t

def execChdCtlWrite (v : W20) (s : State) : Out := s.during s.clocked <| .next (s.chdCtl v)

/-- BYPASS_CHANGE (R317): the line has been idle for 200 ns outside the node's bays.  The bypass opens with a port in
line, and closes when neither is requested. -/
def execBypassChange (s : State) : Out := s.during s.inRun <|
  let on := s.test CHD_CTL_EN_A || s.test CHD_CTL_EN_B
  if s.chord.bay.isSome || (on && !s.anyIn) then .next s
  else .next ((s.put CHD_STATE_BYPASS (bit (!s.anyIn))).modChord (fun c => { c with lock := none }))

/-- Entry to a sleep state: a bay in progress ends, the bypass closes and both ports leave the line (R317). -/
def State.chordSleep (s : State) : State :=
  let t := (((s.chordEnd).put CHD_STATE_BYPASS 1).put CHD_STATE_INA 0).put CHD_STATE_INB 0
  ((t.setRg CHD_RNGA 0xFFFFF).setRg CHD_RNGB 0xFFFFF).modChord
    (fun c => { c with lock := none, halter := none, txGot := [], acq := none, prev := [] })

/-- A write of CHD_RXBASE or CHD_RXCFG. -/
def State.chdRing (s : State) (a : Nat) (v : W20) : State :=
  if s.anyIn then s.raise CHD_FLAGS_CFG_REFUSED else s.setRg a v

/-! ## Repeating (R314, R320) -/

/-- The node repeats nothing for the rest of the bay in progress. -/
def State.chordSilent (s : State) : Bool := s.chord.bay.any (·.silent)

/-- REPEAT_LOCK: the first port whose input crosses squelch, port A when both do. -/
def execRepeatLock (portA portB : Bool) (s : State) : Out := s.during s.inRun <|
  if !(s.inLine .a && s.inLine .b) || s.chord.lock.isSome || s.chordSilent || !(portA || portB) then .next s
  else .next (s.modChord (fun c => { c with lock := some (if portA then .a else .b) }))

/-- The ports are active in this tick (R334). -/
def State.chordBusy (s : State) : State := s.modChord (fun c => { c with busyAt := s.tick })

def execRepeatRelease (s : State) : Out := s.during s.inRun <|
  .next (if s.chord.lock.isSome then (s.modChord (fun c => { c with lock := none })).chordBusy else s)

/-- A frame cut (R313). -/
def State.chordCutOne (s : State) : State := (s.bump (CHD_CNT_LO 0)).raise CHD_FLAGS_CUT

/-- The node stops repeating: a repeated frame is cut (R320). -/
def State.unrepeat (s : State) : State :=
  if s.chord.lock.isSome then (s.modChord (fun c => { c with lock := none })).chordCutOne else s

/-! ## Symbols and frames (R311-R313, R327) -/

/-- The two symbols of a bit, positive true: 1 is positive then negative, 0 negative then positive (R311). -/
def lineBit (b : Bool) : List Bool := [b, !b]

/-- Bits as symbols, in order. -/
def lineSyms (l : List Bool) : List Bool := l.flatMap lineBit

/-- Bytes as symbols, each most significant bit first. -/
def chordBytes (l : List Byte) : List Bool := lineSyms (l.flatMap bitsMsb)

/-- The bits of symbols; none where a pair is of one value, which no bit is. -/
def symBits : List Bool → Option (List Bool)
  | [] => some []
  | [_] => none
  | a :: b :: l => if a == b then none else (symBits l).map (a :: ·)

/-- A header: TYPE, LENGTH, BAY, SEQ. -/
def chordHdr (type len bay seq : Nat) : BitVec 32 :=
  BitVec.ofNat 32 (type * 2 ^ 28 + len * 2 ^ 16 + bay * 2 ^ 8 + seq)

def hdrType (h : BitVec 32) : Nat := h.toNat / 2 ^ 28
def hdrLen (h : BitVec 32) : Nat := h.toNat / 2 ^ 16 % 2 ^ 11
def hdrBay (h : BitVec 32) : Nat := h.toNat / 2 ^ 8 % 2 ^ 8
def hdrSeq (h : BitVec 32) : Nat := h.toNat % 2 ^ 8

/-- The check of a frame: the CRC-24 over header and payload (R312). -/
def chordCheck (hdr : BitVec 32) (payload : List Byte) : Nat := crc24 (toBytesBE 4 hdr.toNat ++ payload)

/-- What precedes the payload: 24 ones, the delimiter 0xB3, the header (R312). -/
def chordLead (hdr : BitVec 32) : List Bool :=
  lineSyms (List.replicate 24 true ++ natBits 8 0xB3 ++ natBits 32 hdr.toNat)

/-- What follows it: the check. -/
def chordTail (hdr : BitVec 32) (payload : List Byte) : List Bool := lineSyms (natBits 24 (chordCheck hdr payload))

/-- The symbols of a frame. -/
def chordSyms (hdr : BitVec 32) (payload : List Byte) : List Bool :=
  chordLead hdr ++ chordBytes payload ++ chordTail hdr payload

/-- A frame as decoded, with the instant of its delimiter's end in 1/256 tick of mesh time (R312, R328). -/
structure ChordFrame where
  hdr     : BitVec 32
  payload : List Byte
  check   : BitVec 24
  arrived : BitVec 48
deriving DecidableEq, Repr

/-- Nanoseconds in 1/256 tick, rounded (R329): 9.8304 to one. -/
def nsTo256 (ns : Nat) : Nat := (ns * 98304 + 5000) / 10000

/-- The instant `frac` 256ths into the present tick. -/
def State.now256 (s : State) (frac : BitVec 8) : BitVec 48 := BitVec.ofNat 48 (s.mesh.toNat * 256 + frac.toNat)

/-- A frame decoded (R311, R312): its symbols are whole bits, as many as its LENGTH asks for.  Its delimiter ended
56 + 8 × LENGTH bits of 40 ns before its last symbol. -/
def State.chordDecode (s : State) (r : ChordRx) : Option ChordFrame :=
  match symBits r.syms with
  | none => none
  | some bits =>
    let hdr := BitVec.ofNat 32 (bitsNat (bits.take 32))
    let n := hdrLen hdr
    if bits.length ≠ 56 + 8 * n then none
    else some { hdr := hdr, payload := packMsb n (bits.drop 32), check := BitVec.ofNat 24 (bitsNat (bits.drop (32 + 8 * n)))
                arrived := s.now256 r.frac - BitVec.ofNat 48 (nsTo256 ((56 + 8 * n) * 40)) }

/-- A good frame among those that arrive whole (R313). -/
def chordGood (f : ChordFrame) : Bool :=
  ((hdrType f.hdr == 0 && 1 ≤ hdrLen f.hdr && hdrLen f.hdr ≤ 1600) || (hdrType f.hdr == 1 && hdrLen f.hdr == 22)) &&
    chordCheck f.hdr f.payload == f.check.toNat

/-- Whether a frame of `len` bytes outlasts `ticks` mesh ticks (R312, R322): 40 ns a bit, 10,000/384 ns a tick. -/
def outlasts (len ticks : Nat) : Bool := ticks * 10000 < (88 + 8 * len) * 40 * 384

/-- The payload of a time frame (R327), with the node's time `t` and its START corrected by `res`, both in 1/256 tick,
to the master's. -/
def State.timePayload (s : State) (t : BitVec 48) (res : Int) (cum hops : Nat) : List Byte :=
  toBytesBE 6 (t + BitVec.ofInt 48 res).toNat ++ toBytesBE 3 cum ++ toBytesBE 1 hops ++
    toBytesBE 2 (s.get CHD_DOMAIN_DOMAIN) ++ toBytesBE 5 s.sched.asn.toNat ++
    toBytesBE 5 (s.sched.start + BitVec.ofInt 40 (roundDiv res 256)).toNat

/-- Symbols driven on `ports` from instant `start` on (R311). -/
def State.drivePins (s : State) (ports : Nat) (start : BitVec 48) (syms : List Bool) : State :=
  s.modChord (fun c => { c with out := c.out ++ [⟨ports, start, syms⟩] })

/-- More symbols of the frame that is being sent. -/
def State.driveMore (s : State) (syms : List Bool) : State :=
  s.modChord (fun c => { c with out := match c.out.getLast? with
    | some o => c.out.dropLast ++ [{ o with syms := o.syms ++ syms }]
    | none => [] })

/-- From the start of a frame to its reference instant (R312): 1,280 ns. -/
def chordRef : BitVec 48 := BitVec.ofNat 48 (nsTo256 1280)

/-- A time frame sent in entry `e` on `ports` from instant `start` on; its SEQ is open. -/
def State.emitTime (s : State) (e ports : Nat) (start : BitVec 48) (res : Int) (cum hops : Nat) : State :=
  let (k, u) := s.fresh
  u.drivePins ports start
    (chordSyms (chordHdr 1 22 e (Config.freeW20 k).toNat) (s.timePayload (start + chordRef) res cum hops))

/-! ## Bays (R319-R323, R331, R332) -/

/-- A bay that sends is a probe of R332. -/
def State.isProbe (s : State) : Bool :=
  s.test CHD_STATE_HEALED && s.sched.asn.toNat % s.chordProbe == 0 && !s.chord.probed

/-- The ports a sending bay drives: both when HEALED, but for a probe (R320, R332). -/
def State.drivePorts (s : State) (dir : Nat) : Nat :=
  s.portsIn (if s.test CHD_STATE_HEALED && !s.isProbe then 3 else dir)

/-- A loop check: ring mode, HEAL, and one port driven (R331). -/
def State.loopCheck (s : State) (ports : Nat) : Bool :=
  s.test CHD_CTL_TOPO && s.test CHD_CTL_HEAL && (ports == 1 || ports == 2)

/-- A bay in progress that does nothing yet. -/
def bayRun (e : Nat) : BayRun :=
  { entry := e, drive := none, ports := 0, tokens := 0, check := false, passed := false, probe := false, taken := false
    seq := 0, phase := 0, echoA := false, echoB := false, replyA := false, replyB := false, silent := false }

def State.setBay (s : State) (b : BayRun) : State := s.modChord (fun c => { c with bay := some b })

def State.modBay (s : State) (f : BayRun → BayRun) : State := s.modChord (fun c => { c with bay := c.bay.map f })

/-- The start of entry `e` in the present slot in 1/256 tick. -/
def State.bayAt256 (s : State) (e : Nat) : BitVec 48 := BitVec.ofNat 48 ((s.bayAt e).toNat * 256)

/-- The frame of transmit slot `k` begins on `ports` at instant `start` with `bay` in its header; its bytes are read
through channel 14 while it is sent (R322). -/
def State.ctxBegin (s : State) (k bay ports : Nat) (start : BitVec 48) : State :=
  let n := s.get (CTX_LEN_LENGTH k)
  let hdr := chordHdr 0 n bay (s.get (CTX_CTL_SEQ k))
  ((s.modChord (fun c => { c with txHdr := hdr, txGot := [] })).drivePins ports start (chordLead hdr)).dmaRead 2
    (s.get (CTX_SRC_SRC k)) n (.chordTx k)

/-- A sending bay marks the slot's probe as used. -/
def State.probeUse (s : State) (probe : Bool) : State :=
  if probe then s.modChord (fun c => { c with probed := true }) else s

/-- DRIVE with a granted transmit slot: its frame is sent on the ports that take part, unless it outlasts the bay. -/
def State.bayDrive (s : State) (e k : Nat) : State :=
  let b := bayRun e
  let dir := (s.bay e).dir
  let probe := s.isProbe
  let ports := s.drivePorts dir
  if ports = 0 then s.setBay { b with tokens := dir }
  else if outlasts (s.get (CTX_LEN_LENGTH k)) (s.bay e).len then (s.setBay { b with tokens := dir }).raise CHD_FLAGS_CUT
  else
    let t := (s.unrepeat).setBay { b with drive := some k, ports := ports, tokens := dir, check := s.loopCheck ports
                                          probe := probe, seq := s.get (CTX_CTL_SEQ k), silent := true }
    (t.probeUse probe).ctxBegin k e ports (s.bayAt256 e)

/-- TIME: the master emits its time frame at the bay start (R320, R328). -/
def State.bayTime (s : State) (e : Nat) : State :=
  let b := { bayRun e with silent := true }
  let t := s.unrepeat
  if s.test CHD_CTL_MASTER then
    let ports := s.drivePorts (s.bay e).dir
    if ports = 0 then t.setBay b
    else
      let probe := s.isProbe
      ((t.setBay { b with ports := ports, check := s.loopCheck ports, probe := probe, taken := true }).probeUse
        probe).emitTime e ports (s.bayAt256 e) 0 0 0
  else t.setBay b

/-- The 64 symbols of the knock, from bit 63 down, 1 positive (R333). -/
def knockWord : BitVec 64 := 0xF0E1D2C3B4A59687
def knockSyms : List Bool := natBits 64 knockWord.toNat

/-- KNOCK: tokens taken, and the knock driven REP times, back to back (R320, R323, R335). -/
def State.bayKnock (s : State) (e : Nat) : State :=
  let dir := (s.bay e).dir
  let ports := s.portsIn dir
  let t := ((s.unrepeat).tokenTake dir).setBay { bayRun e with ports := ports, tokens := dir, silent := true }
  if ports = 0 then t
  else t.drivePins ports (s.bayAt256 e) ((List.replicate (max 1 (s.get CHD_KNOCK_REP)) knockSyms).flatten)

/-- A ranging burst (R325): 16 ones and the delimiter 0x6A. -/
def burstSyms : List Bool := lineSyms (List.replicate 16 true ++ natBits 8 0x6A)

/-- A burst on port `p`, where it is in line. -/
def State.burst (s : State) (p : Port) (start : BitVec 48) : State :=
  if s.inLine p then s.drivePins (portBit p) start burstSyms else s

/-- BAY_START (R320). -/
def execBayStart (e : Fin 32) (s : State) : Out := s.during s.inRun <|
  let b := s.bay e.val
  if !s.baysRun || !s.bayActive e.val || s.chord.bay.isSome || s.chord.ended.contains e.val || 6 ≤ b.role ||
      !s.reached (s.bayAt e.val) || s.reached (s.bayAt e.val + BitVec.ofNat 40 b.len) then .next s
  else
    let t := (s.put CHD_STATE_BAY e.val).modChord (fun c => { c with out := [] })
    match b.role with
    | 2 => match s.grantOf e.val with
      | some k => .next (t.bayDrive e.val k)
      | none => .next (t.setBay (bayRun e.val))
    | 3 => .next (t.bayTime e.val)
    | 4 => .next (((t.unrepeat).setBay { bayRun e.val with phase := 1, silent := true }).burst .b (t.bayAt256 e.val))
    | 5 => .next (t.bayKnock e.val)
    | _ => .next (t.setBay (bayRun e.val))

/-- BAY_END (R323, R329, R331). -/
def execBayEnd (s : State) : Out := s.during s.inRun <|
  match s.chord.bay with
  | none => .next s
  | some b =>
    .next (if s.reached (s.bayAt b.entry + BitVec.ofNat 40 (s.bay b.entry).len) then s.bayClose b else s)

/-! ## Transmit slots (R322, R334) -/

/-- A write of CTXk_CTL. -/
def State.ctxCtl (s : State) (k : Nat) (v : W20) : State :=
  let w : W20 := v &&& 0x300FF
  if s.test (CTX_CTL_READY k) then
    if v.getLsbD 19 ∨ s.test (CTX_CTL_GRANTED k) then s.raise CHD_FLAGS_CFG_REFUSED else s.setRg (CTX_CTL k) w
  else if !v.getLsbD 19 then s.setRg (CTX_CTL k) w
  else
    let n := s.get (CTX_LEN_LENGTH k)
    if n = 0 ∨ 1600 < n ∨ !inSram (s.get (CTX_SRC_SRC k)) n then s.raise CHD_FLAGS_CFG_REFUSED
    else (s.setRg (CTX_CTL k) (w ||| 0x80000)).modChord
      (fun c => { c with ready := c.ready.setIfInBounds k s.tick })

/-- A write of CTXk_SRC or CTXk_LEN. -/
def State.ctxReg (s : State) (k a : Nat) (v : W20) : State :=
  if s.test (CTX_CTL_READY k) then s.raise CHD_FLAGS_CFG_REFUSED else s.setRg a v

def execCtxReadyWrite (k : Fin 8) (v : W20) (s : State) : Out := s.during s.clocked <| .next (s.ctxCtl k.val v)

/-- The last check symbol of slot `k`'s frame leaves. -/
def State.ctxSent (s : State) (k : Nat) : State :=
  ((((s.driveMore (chordTail s.chord.txHdr s.chord.txGot)).modChord (fun c => { c with txGot := [] })).put
    (CTX_CTL_READY k) 0).put (CTX_CTL_GRANTED k) 0).raise CHD_FLAGS_TX_DONE

/-- Every byte of slot `k`'s frame has been read. -/
def State.ctxWhole (s : State) (k : Nat) : Bool := s.get (CTX_LEN_LENGTH k) ≤ s.chord.txGot.length

/-- CHORD_FRAME_SENT (R322): not before its last byte has been read. -/
def execChordFrameSent (s : State) : Out := s.during s.inRun <|
  match s.chord.halter with
  | some k => .next (if s.ctxWhole k then ((s.modChord (fun c => { c with halter := none })).ctxSent k).chordBusy else s)
  | none => match s.chord.bay.bind (·.drive) with
    | some k => .next (if s.ctxWhole k then (s.modBay (fun b => { b with drive := none })).ctxSent k else s)
    | none => .next s

/-- The node's ports have been idle for 2,458 ticks: a DATA frame may start (R334). -/
def State.chordIdle (s : State) : Bool :=
  s.portsIn 3 != 0 && s.chord.lock.isNone && s.chord.halter.isNone && 2458 ≤ s.tick - s.chord.busyAt

/-- HALTER_DATA_FRAME_START (R334).  The header's BAY is open: no bay applies.  Symbols last 80 ns at this rate. -/
def execHalterDataFrameStart (k : Fin 8) (s : State) : Out := s.during s.inRun <|
  if !s.test CHD_STATE_HALTER || !s.test (CTX_CTL_READY k.val) || !s.chordIdle then .next s
  else
    let (n, t) := s.fresh
    .next ((t.modChord (fun c => { c with halter := some k.val, out := [] })).ctxBegin k.val
      ((Config.freeW20 n).toNat % 256) (s.portsIn 3) (s.now256 0))

/-- A DATA frame that the ROM sends in halter mode (R334, R494); its BAY and SEQ are open. -/
def State.chordSend (s : State) (l : List Byte) : State :=
  let (n, t) := s.fresh
  let v := (Config.freeW20 n).toNat
  (t.modChord (fun c => { c with out := [], busyAt := s.tick + ceilDiv ((88 + 8 * l.length) * 3072) 1000 })).drivePins
    (s.portsIn 3) (s.now256 0) (chordSyms (chordHdr 0 l.length (v % 256) (v / 256 % 256)) l)

/-! ## Capture (R324) -/

/-- Captures on their way to memory. -/
def State.capturesOut (s : State) : Nat :=
  (s.dma.blk[(2 : Fin 5)].filter (fun x => x.tag.whole == .chordRx 0 0 && x.tag != .chordPart)).length +
    (s.dma.credits.filter (fun c => c.tag.whole == .chordRx 0 0 && c.tag != .chordPart)).length

/-- A frame not captured for want of a buffer. -/
def State.chordNobuf (s : State) : State := (s.bump (CHD_CNT_HI 2)).raise CHD_FLAGS_NOBUF

/-- A frame captured by entry `e`: payload, then w1, then w0. -/
def State.capture (s : State) (p : Port) (e : Nat) (f : ChordFrame) : State :=
  let n := s.get CHD_RXCFG_COUNT1 + 1
  let j := (s.get CHD_RXNEXT_NEXT + s.capturesOut) % n
  let size := s.get CHD_RXCFG_SIZE * 64
  let a := s.get CHD_RXBASE_BASE + size * j
  let w := s.sramWord a
  let full := w.1.any (fun v => v.getLsbD 19)
  if n ≤ s.capturesOut ∨ full ∨ size < hdrLen f.hdr + 6 then w.2.chordNobuf
  else
    let w1 := hdrBay f.hdr * 2 ^ 8 + hdrSeq f.hdr
    let w0 := 2 ^ 19 + (match p with | .a => 0 | .b => 2 ^ 18) + e * 2 ^ 13 + hdrLen f.hdr
    let t := w.2.dmaWrite 2 (a + 6) f.payload .chordPart
    let t := t.dmaWrite 2 (a + 3) (tripleOf (BitVec.ofNat 20 w1)) .chordPart
    t.dmaWrite 2 a (tripleOf (BitVec.ofNat 20 w0)) (.chordRx j f.payload.length)

/-- A capture's w0 is acknowledged: RX_DONE, and CHD_RXNEXT advances. -/
def State.captured (s : State) (j : Nat) : State :=
  (s.put CHD_RXNEXT_NEXT ((j + 1) % (s.get CHD_RXCFG_COUNT1 + 1))).raise CHD_FLAGS_RX_DONE

/-! ## Mesh time over the chord (R327-R330) -/

/-- `n` bytes of a payload at offset `o`, most significant first. -/
def payWord (f : ChordFrame) (o n : Nat) : Nat := ofBytesBE ((f.payload.drop o).take n)

/-- The latency register of a port. -/
def rngReg : Port → Nat
  | .a => CHD_RNGA | .b => CHD_RNGB

/-- A time frame taken with latency `r` and `c` (R329): mesh time steps in the next tick; `force` steps it whatever
the size of the offset. -/
def State.timeTake (s : State) (p : Port) (f : ChordFrame) (r c : Nat) (force : Bool) : State :=
  let θ : Int := (BitVec.ofInt 48 ((payWord f 0 6 : Nat) + roundDiv (r * 98304) 10000) - f.arrived).toInt
  let δ := roundDiv θ 256
  let step := force || decide (256 * max 1 (s.get CHD_TSTEP_MIN) ≤ θ.natAbs)
  let t := if step then (s.modSched (fun x => { x with steps := x.steps ++ [(δ, false)] })).raise CHD_FLAGS_TSTEP else s
  let res := if step then θ - 256 * δ else θ
  let t := (t.setRg CHD_TRES (BitVec.ofInt 20 (max (-524288) (min 524287 res)))).setRg CHD_CUMLAT (BitVec.ofNat 20 c)
  let t := (t.put CHD_TINFO_HOPS (payWord f 9 1 + 1)).put CHD_STATE_TVALID 1
  let t := t.modChord (fun x => { x with relay := some ⟨c, payWord f 9 1 + 1, p, res⟩ })
  (t.modBay (fun b => { b with taken := true })).raise CHD_FLAGS_TIME_OK

/-- A good time frame of the domain in a TIME bay (R329). -/
def State.timeFrame (s : State) (p : Port) (f : ChordFrame) : State :=
  let r := (s.rg (rngReg p)).toNat
  let c := payWord f 6 3 % 2 ^ 20 + r
  let t := if BitVec.ofNat 40 (payWord f 12 5) ≠ s.sched.asn then s.raise CHD_FLAGS_ASN_MISMATCH else s
  let t := if r = 0xFFFFF then t.raise CHD_FLAGS_NORANGE else t
  let t := if 1048575 < c then t.raise CHD_FLAGS_LATFAIL else t
  if BitVec.ofNat 40 (payWord f 12 5) = s.sched.asn ∧ r ≠ 0xFFFFF ∧ c ≤ 1048575 then s.timeTake p f r c false else t

/-- The first good time frame of the domain while ACQ is 1 (R330): after the step, the schedule is loaded, RUN set and
ACQ cleared. -/
def State.timeAcquire (s : State) (p : Port) (f : ChordFrame) : State :=
  let r := let n := (s.rg (rngReg p)).toNat; if n = 0xFFFFF then 0 else n
  let c := payWord f 6 3 % 2 ^ 20 + r
  if 1048575 < c then s.raise CHD_FLAGS_LATFAIL
  else (s.timeTake p f r c true).modChord (fun x => { x with
    relay := none, acq := some (BitVec.ofNat 40 (payWord f 12 5), BitVec.ofNat 40 (payWord f 17 5)) })

/-- TIME_FRAME_EMIT (R328): the frame taken is passed on, on the other port, from `frac` 256ths into the present tick
on.  An emission that would not end within the bay, 9,280 ns after its reference instant, is not made. -/
def execTimeFrameEmit (frac : BitVec 8) (s : State) : Out := s.during s.inRun <|
  match s.chord.relay, s.chord.bay with
  | some r, some b =>
    let u := s.modChord (fun c => { c with relay := none })
    let stop := (s.bayAt b.entry + BitVec.ofNat 40 (s.bay b.entry).len).toNat * 256
    let left := (BitVec.ofNat 48 stop - (s.now256 frac + chordRef)).toInt
    let hop := if s.test CHD_CTL_ANCHOR then 80 else 4
    if (s.bay b.entry).role ≠ 3 ∨ !s.inLine (otherPort r.port) ∨ left < (nsTo256 9280 : Nat) then .next u
    else .next (u.emitTime b.entry (portBit (otherPort r.port)) (s.now256 frac) r.res ((r.c + hop) % 2 ^ 20) (r.hops % 2 ^ 8))
  | _, _ => .next s

/-! ## Frames received (R313, R320, R324, R331) -/

/-- The entry in whose bay a frame's delimiter ended and that captures it, of this slot or of the slot before (R320).
-/
def State.bayOf (s : State) (arrived : BitVec 48) : Option Nat :=
  let tick := BitVec.ofNat 40 (arrived.toNat / 256)
  match (List.range 32).find? (fun e => s.bayActive e && s.bayCaptures e && (tick - s.bayAt e).toNat < (s.bay e).len) with
  | some e => some e
  | none => (s.chord.prev.find? (fun p => (tick - p.2.1).toNat < p.2.2)).map (·.1)

/-- A frame that returns passes the loop check of the bay in progress (R331). -/
def State.loopSee (s : State) (p : Port) (f : ChordFrame) : State :=
  match s.chord.bay with
  | none => s
  | some b =>
    let other := b.ports == portBit (otherPort p)
    let own := hdrType f.hdr == 0 && hdrBay f.hdr == b.entry && hdrSeq f.hdr == b.seq
    let time := hdrType f.hdr == 1 && payWord f 10 2 == s.get CHD_DOMAIN_DOMAIN
    if b.check && other && (if (s.bay b.entry).role = 3 then time else own) then
      s.modBay (fun b => { b with passed := true })
    else s

/-- A good frame. -/
def State.chordFrame (s : State) (p : Port) (f : ChordFrame) : State :=
  let domain := hdrType f.hdr == 1 && payWord f 10 2 == s.get CHD_DOMAIN_DOMAIN
  if s.test CHD_STATE_HALTER then
    if hdrType f.hdr = 0 then
      let (k, t) := s.fresh
      t.capture p ((Config.freeW20 k).toNat % 32) f
    else s
  else if s.test CHD_CTL_ACQ then
    if domain ∧ !s.test CHD_CTL_MASTER ∧ s.chord.acq.isNone then s.timeAcquire p f else s
  else if !s.baysRun then s
  else
    let t := s.loopSee p f
    if hdrType f.hdr = 0 then
      match t.bayOf f.arrived with
      | some e => t.capture p e f
      | none => t
    else if domain && !t.test CHD_CTL_MASTER &&
        t.chord.bay.any (fun b => (t.bay b.entry).role == 3 && !b.taken) then t.timeFrame p f
    else t

/-- CHORD_FRAME_RECEIVED (R313). -/
def execChordFrameReceived (port : Port) (rx : ChordRx) (s : State) : Out := s.during s.inRun <|
  if !s.inLine port then .next s
  else
    let t := s.chordBusy
    if !rx.whole then .next t.chordCutOne
    else match (s.chordDecode rx).filter chordGood with
      | some f => .next (t.chordFrame port f)
      | none => .next ((t.bump (CHD_CNT_HI 0)).raise CHD_FLAGS_CRC_BAD)

/-! ## Ranging (R325, R326) -/

/-- The port a phase sends bursts on: B in phase 1, A in phase 2. -/
def phasePort (n : Nat) : Port := if n = 1 then .b else .a

/-- Phase 1 or 2 of a ranging exchange has ended, at 8,000 or 16,000 ns: no event of it falls in this tick (R325). -/
def State.phaseOver (s : State) (b : BayRun) : Bool :=
  s.reached (s.bayAt b.entry + (if b.phase = 1 then 308 else 615))

/-- The exchange is in the phase in which port `p` sends bursts and takes echoes. -/
def State.ranging (s : State) (b : BayRun) (p : Port) : Bool :=
  (b.phase == 1 || b.phase == 2) && p == phasePort b.phase && s.inLine p && !s.phaseOver b

/-- RANGING_BURST_RECEIVED (R325): the node's echo burst on the port it came in on, 2,000 ns after the burst's
delimiter, which ended `frac` 256ths into the present tick. -/
def execRangingBurstReceived (port : Port) (s : State) (frac : BitVec 8 := 0) : Out := s.during s.inRun <|
  match s.chord.bay with
  | some b =>
    if (b.phase = 1 ∨ b.phase = 2) ∧ port = otherPort (phasePort b.phase) ∧ s.inLine port ∧ !s.phaseOver b then
      .next ((s.modBay (fun b => match port with
        | .a => { b with replyA := true }
        | .b => { b with replyB := true })).burst port (s.now256 frac + BitVec.ofNat 48 (nsTo256 2000)))
    else .next s
  | none => .next s

/-- RANGING_ECHO_RECEIVED (R326): `ns` is the round trip in nanoseconds. -/
def execRangingEchoReceived (port : Port) (ns : Nat) (s : State) : Out := s.during s.inRun <|
  match s.chord.bay with
  | some b =>
    if s.ranging b port then
      .next ((s.setRg (rngReg port) (BitVec.ofNat 20 (roundDiv ((ns : Int) - 2960) 2).toNat)).modBay (fun b =>
        match port with
        | .a => { b with echoA := true }
        | .b => { b with echoB := true }))
    else .next s
  | none => .next s

/-- NORANGE (R326): no echo on the port by the end of its phase. -/
def execNorange (port : Port) (s : State) : Out := s.during s.inRun <|
  match s.chord.bay with
  | some b =>
    let (echoed, due) := match port with
      | .a => (b.echoA, b.phase == 2 && s.reached (s.bayAt b.entry + 614))
      | .b => (b.echoB, (b.phase == 1 || b.phase == 2) && s.reached (s.bayAt b.entry + 307))
    if due && !echoed && s.inLine port then .next ((s.setRg (rngReg port) 0xFFFFF).raise CHD_FLAGS_NORANGE)
    else .next s
  | none => .next s

/-- RANGING_PHASE_2 (R325): 8,000 ns into a RANGE bay, which is 307.2 ticks, the node's burst on port A. -/
def execRangingPhase2 (s : State) : Out := s.during s.inRun <|
  match s.chord.bay with
  | some b =>
    .next (if b.phase = 1 ∧ s.reached (s.bayAt b.entry + 307) then
      (s.modBay (fun b => { b with phase := 2 })).burst .a (s.bayAt256 b.entry + BitVec.ofNat 48 (nsTo256 8000)) else s)
  | none => .next s

/-! ## Knock (R333) -/

/-- Symbols that match the knock with at most 3 errors (R333). -/
def knockHeard (syms : BitVec 64) : Bool := ((natBits 64 (syms ^^^ knockWord).toNat).filter id).length ≤ 3

/-- CHORD_KNOCKED (R333): the last 64 symbols on a port, the latest in bit 0, in RUN, DOZE, REST or ORBIT. -/
def execChordKnocked (s : State) (syms : BitVec 64 := 0xF0E1D2C3B4A59687) : Out := s.during s.notDormant <|
  .next (if s.test CHD_CTL_KDET ∧ s.power.phase ≠ .dormant ∧ knockHeard syms then
    (s.bump (CHD_CNT_LO 2)).raise CHD_FLAGS_KNOCKED else s)

end Sys2Proof.Machine
end

