-- ==== Sys2Proof/WellFormed.lean ====
section
/-! DEFINITION. Which commands are well formed: the operand limits that the encodings of the Balrath instructions set
(R46, R59, R62, R63, R74, R75).  A command that is not well formed is still given a meaning: its core takes ILLEGAL_OP. -/

namespace Sys2Proof

/-- A pair field names an even register (R46). -/
def evenReg (r : RegId) : Bool := r.val % 2 == 0

/-- A field position and width in range (R75). -/
def fieldInRange (pos width : BitVec 5) : Bool :=
  1 ≤ width.toNat && width.toNat ≤ 20 && pos.toNat ≤ 19 && pos.toNat + width.toNat ≤ 20

/-- The encoding of a Balrath instruction exists; every other command is well formed. -/
def Instr.wellFormed : Instr → Bool
  | .iBranch _ cond _ => cond != 0xF
  | .iPadd _ d a b => evenReg d && evenReg a && evenReg b
  | .iPsub _ d a b => evenReg d && evenReg a && evenReg b
  | .iPcmp _ a b => evenReg a && evenReg b
  | .iPaddsx _ d a _ => evenReg d && evenReg a
  | .iPaddzx _ d a _ => evenReg d && evenReg a
  | .iPsll _ d a _ => evenReg d && evenReg a
  | .iPsrl _ d a _ => evenReg d && evenReg a
  | .iPsra _ d a _ => evenReg d && evenReg a
  | .iPmov _ d a => evenReg d && evenReg a
  | .iMuluP _ d _ _ => evenReg d
  | .iMulsP _ d _ _ => evenReg d
  | .iMacuP _ d _ _ => evenReg d
  | .iMacsP _ d _ _ => evenReg d
  | .iDivuP _ d a _ => evenReg d && evenReg a
  | .iDivsP _ d a _ => evenReg d && evenReg a
  | .iSlli _ _ _ n => n.toNat < 20
  | .iSrli _ _ _ n => n.toNat < 20
  | .iSrai _ _ _ n => n.toNat < 20
  | .iRori _ _ _ n => n.toNat < 20
  | .iExtu _ _ _ pos width => fieldInRange pos width
  | .iExts _ _ _ pos width => fieldInRange pos width
  | .iIns _ _ _ pos width => fieldInRange pos width
  | .iLongAlu _ fn _ _ _ => fn.toNat < 14
  | .iLdp _ d _ _ => evenReg d
  | .iStp _ d _ _ => evenReg d
  | .iTnow _ d => evenReg d
  | .iWat _ a => evenReg a
  | .iArm _ _ a _ => evenReg a
  | _ => true

end Sys2Proof
end

