-- ==== Sys2Proof/Decode.lean ====
section
/-! DEFINITION. Decoding.  No row of spec/opcode_table.json has bits, so no word spells a command; the Balrath cores'
instruction words have the encodings of R57-R79, R83, R92 and R103, which `decodeCore` reads and `encodeCore` writes. -/

namespace Sys2Proof

/-- The command a word spells by the table's bits: none, since no row of the table has bits. -/
def decodeTableWord (_nbits _w : Nat) : Option Instr := none

/-! ## Balrath words -/

/-- A four-bit field of a word as a register number. -/
def regField (w : W20) (lo : Nat) : RegId := ⟨w.toNat / 2 ^ lo % 16, Nat.mod_lt _ (by decide)⟩

def nibble (w : W20) (lo : Nat) : Nat := w.toNat / 2 ^ lo % 16

/-- Major opcode 0x0 (R63). -/
def decodeAlu (c : CoreId) (w : W20) : Option Instr :=
  let d := regField w 12
  let a := regField w 8
  let b := regField w 4
  match nibble w 0 with
  | 0x0 => some (.iAdd c d a b)
  | 0x1 => some (.iAdc c d a b)
  | 0x2 => some (.iSub c d a b)
  | 0x3 => some (.iSbc c d a b)
  | 0x4 => some (.iAnd c d a b)
  | 0x5 => some (.iOr c d a b)
  | 0x6 => some (.iXor c d a b)
  | 0x7 => some (.iAndn c d a b)
  | 0x8 => some (.iSll c d a b)
  | 0x9 => some (.iSrl c d a b)
  | 0xA => some (.iSra c d a b)
  | 0xB => some (.iRor c d a b)
  | 0xC => some (.iSlt c d a b)
  | 0xD => some (.iSltu c d a b)
  | 0xE => if b = 0 then some (.iJalr c d a) else none
  | _ => none

/-- Major opcode 0x8 (R83). -/
def decodeTimed (c : CoreId) (w : W20) : Option Instr :=
  let d := regField w 12
  let a := regField w 8
  let b := regField w 4
  match nibble w 0 with
  | 0x0 => if a = 0 ∧ b = 0 then some (.iTnow c d) else none
  | 0x1 => if d = 0 ∧ b = 0 then some (.iWat c a) else none
  | 0x2 => some (.iArm c d a b)
  | _ => none

/-- Major opcode 0x9 (R92). -/
def decodeEvent (c : CoreId) (w : W20) : Option Instr :=
  let d := regField w 12
  let a := regField w 8
  let b := regField w 4
  match nibble w 0 with
  | 0x0 => if d = 0 then some (.iPost c a b) else none
  | 0x1 => if b = 0 then some (.iSense c d a) else none
  | 0x2 => some (.iWev c d a b)
  | 0x3 => if d = 0 ∧ b = 0 then some (.iAck c a) else none
  | 0x4 => some (.iTake c d a b)
  | 0x5 => if b = 0 then some (.iGive c d a) else none
  | _ => none

/-- Major opcode 0xA (R103). -/
def decodeSystem (c : CoreId) (w : W20) : Option Instr :=
  let d := regField w 12
  let a := regField w 8
  let b := regField w 4
  let imm := BitVec.ofNat 8 (w.toNat / 16)
  match nibble w 0 with
  | 0x0 => if d = 0 ∧ a = 0 ∧ b = 0 then some (.iRti c) else none
  | 0x1 => if d = 0 then some (.iSys c imm) else none
  | 0x2 => some (.iMfs c d imm)
  | 0x3 => some (.iMts c imm d)
  | 0x4 => if d = 0 ∧ a = 0 ∧ b = 0 then some (.iHalt c) else none
  | 0x5 => if b = 0 then some (.iXchg c d a) else none
  | 0x6 => if d = 0 ∧ a = 0 ∧ b = 0 then some (.iFence c) else none
  | _ => none

/-- Major opcode 0xB (R70). -/
def decodePair (c : CoreId) (w : W20) : Option Instr :=
  let d := regField w 12
  let a := regField w 8
  let b := regField w 4
  match nibble w 0 with
  | 0x0 => some (.iPadd c d a b)
  | 0x1 => some (.iPsub c d a b)
  | 0x2 => if d = 0 then some (.iPcmp c a b) else none
  | 0x3 => some (.iPaddsx c d a b)
  | 0x4 => some (.iPaddzx c d a b)
  | 0x5 => some (.iPsll c d a b)
  | 0x6 => some (.iPsrl c d a b)
  | 0x7 => some (.iPsra c d a b)
  | 0x8 => if b = 0 then some (.iPmov c d a) else none
  | _ => none

/-- Major opcode 0xC (R72). -/
def decodeMulDiv (c : CoreId) (w : W20) : Option Instr :=
  let d := regField w 12
  let a := regField w 8
  let b := regField w 4
  match nibble w 0 with
  | 0x0 => some (.iMul c d a b)
  | 0x1 => some (.iMuluP c d a b)
  | 0x2 => some (.iMulsP c d a b)
  | 0x3 => some (.iMacuP c d a b)
  | 0x4 => some (.iMacsP c d a b)
  | 0x8 => some (.iDivuP c d a b)
  | 0x9 => some (.iDivsP c d a b)
  | 0xA => some (.iDivu c d a b)
  | 0xB => some (.iDivs c d a b)
  | 0xC => some (.iRemu c d a b)
  | 0xD => some (.iRems c d a b)
  | _ => none

/-- Major opcode 0xD (R74, R75); the X word holds position and width. -/
def decodeBits (c : CoreId) (w x : W20) : Option Instr :=
  let d := regField w 12
  let a := regField w 8
  let b := regField w 4
  let fn := nibble w 0
  let n := BitVec.ofNat 5 (fn % 2 * 16 + nibble w 4)
  let pos := BitVec.ofNat 5 x.toNat
  let width := BitVec.ofNat 5 (x.toNat / 32)
  match fn / 2 with
  | 0 => some (.iSlli c d a n)
  | 1 => some (.iSrli c d a n)
  | 2 => some (.iSrai c d a n)
  | 3 => some (.iRori c d a n)
  | _ =>
    if b ≠ 0 then none
    else if fn = 0xB then some (.iClz c d a)
    else if fn = 0xC then some (.iPopc c d a)
    else if 1024 ≤ x.toNat then none
    else if fn = 0x8 then some (.iExtu c d a pos width)
    else if fn = 0x9 then some (.iExts c d a pos width)
    else if fn = 0xA then some (.iIns c d a pos width)
    else none

/-- Major opcode 0xE (R76, R77); the X word holds imm20. -/
def decodeLong (c : CoreId) (w x : W20) : Option Instr :=
  let d := regField w 12
  let a := regField w 8
  let fn := nibble w 0
  if nibble w 4 = 0 then
    if fn = 0xF then none
    else if fn = 0xE then (if a = 0 then some (.iLi c d x) else none)
    else some (.iLongAlu c (BitVec.ofNat 4 fn) d a x)
  else if nibble w 4 = 1 then
    match fn with
    | 0x0 => some (.iLdbu c d a x)
    | 0x1 => some (.iLdbs c d a x)
    | 0x2 => some (.iLdhu c d a x)
    | 0x3 => some (.iLdhs c d a x)
    | 0x4 => some (.iLdwl c d a x)
    | 0x5 => some (.iLdp c d a x)
    | 0x8 => some (.iStb c d a x)
    | 0x9 => some (.iSth c d a x)
    | 0xA => some (.iStwl c d a x)
    | 0xB => some (.iStp c d a x)
    | _ => none
  else none

/-- The instruction that word `w` spells, by its fields alone (R57, R58). -/
def decodeFields (c : CoreId) (w x : W20) : Option Instr :=
  let d := regField w 12
  let a := regField w 8
  match nibble w 16 with
  | 0x0 => decodeAlu c w
  | 0x1 => some (.iAddi c d a (BitVec.ofNat 8 w.toNat))
  | 0x2 => some (.iLui c d (BitVec.ofNat 12 w.toNat))
  | 0x3 => some (.iLdw c d a (BitVec.ofNat 8 w.toNat))
  | 0x4 => some (.iStw c d a (BitVec.ofNat 8 w.toNat))
  | 0x5 => some (.iBranch c (BitVec.ofNat 4 (nibble w 12)) (BitVec.ofNat 12 w.toNat))
  | 0x6 => some (.iJ c (BitVec.ofNat 16 w.toNat))
  | 0x7 => some (.iCall c (BitVec.ofNat 16 w.toNat))
  | 0x8 => decodeTimed c w
  | 0x9 => decodeEvent c w
  | 0xA => decodeSystem c w
  | 0xB => decodePair c w
  | 0xC => decodeMulDiv c w
  | 0xD => decodeBits c w x
  | 0xE => decodeLong c w x
  | _ => if d = 0 then some (.iTrap c (BitVec.ofNat 12 w.toNat)) else none

/-- The instruction of core `c` that a word and its extension word spell; none for an encoding that raises ILLEGAL_OP
(R59). -/
def decodeCore (c : CoreId) (w x : W20) : Option Instr :=
  match decodeFields c w x with
  | some i => if i.wellFormed then some i else none
  | none => none

/-! ## The encoder -/

/-- A word in format A. -/
def formA (op d a b fn : Nat) : W20 := BitVec.ofNat 20 (op * 2 ^ 16 + d * 2 ^ 12 + a * 2 ^ 8 + b * 2 ^ 4 + fn)

/-- A word with an 8-, 12- or 16-bit immediate at its foot. -/
def formI (op d a imm : Nat) : W20 := BitVec.ofNat 20 (op * 2 ^ 16 + d * 2 ^ 12 + a * 2 ^ 8 + imm)

/-- The word and extension word of a Balrath instruction (R57-R79, R83, R92, R103); a one-word instruction has
extension 0.  None for a command that is no instruction of a core. -/
def encodeCore : Instr → Option (W20 × W20)
  | .iAdd _ d a b => some (formA 0x0 d.val a.val b.val 0x0, 0)
  | .iAdc _ d a b => some (formA 0x0 d.val a.val b.val 0x1, 0)
  | .iSub _ d a b => some (formA 0x0 d.val a.val b.val 0x2, 0)
  | .iSbc _ d a b => some (formA 0x0 d.val a.val b.val 0x3, 0)
  | .iAnd _ d a b => some (formA 0x0 d.val a.val b.val 0x4, 0)
  | .iOr _ d a b => some (formA 0x0 d.val a.val b.val 0x5, 0)
  | .iXor _ d a b => some (formA 0x0 d.val a.val b.val 0x6, 0)
  | .iAndn _ d a b => some (formA 0x0 d.val a.val b.val 0x7, 0)
  | .iSll _ d a b => some (formA 0x0 d.val a.val b.val 0x8, 0)
  | .iSrl _ d a b => some (formA 0x0 d.val a.val b.val 0x9, 0)
  | .iSra _ d a b => some (formA 0x0 d.val a.val b.val 0xA, 0)
  | .iRor _ d a b => some (formA 0x0 d.val a.val b.val 0xB, 0)
  | .iSlt _ d a b => some (formA 0x0 d.val a.val b.val 0xC, 0)
  | .iSltu _ d a b => some (formA 0x0 d.val a.val b.val 0xD, 0)
  | .iJalr _ d a => some (formA 0x0 d.val a.val 0 0xE, 0)
  | .iAddi _ d a imm8 => some (formI 0x1 d.val a.val imm8.toNat, 0)
  | .iLui _ d imm12 => some (formI 0x2 d.val 0 imm12.toNat, 0)
  | .iLdw _ d a disp8 => some (formI 0x3 d.val a.val disp8.toNat, 0)
  | .iStw _ d a disp8 => some (formI 0x4 d.val a.val disp8.toNat, 0)
  | .iBranch _ cond disp12 => some (formI 0x5 cond.toNat 0 disp12.toNat, 0)
  | .iJ _ imm16 => some (formI 0x6 0 0 imm16.toNat, 0)
  | .iCall _ imm16 => some (formI 0x7 0 0 imm16.toNat, 0)
  | .iTnow _ d => some (formA 0x8 d.val 0 0 0x0, 0)
  | .iWat _ a => some (formA 0x8 0 a.val 0 0x1, 0)
  | .iArm _ d a b => some (formA 0x8 d.val a.val b.val 0x2, 0)
  | .iPost _ a b => some (formA 0x9 0 a.val b.val 0x0, 0)
  | .iSense _ d a => some (formA 0x9 d.val a.val 0 0x1, 0)
  | .iWev _ d a b => some (formA 0x9 d.val a.val b.val 0x2, 0)
  | .iAck _ a => some (formA 0x9 0 a.val 0 0x3, 0)
  | .iTake _ d a b => some (formA 0x9 d.val a.val b.val 0x4, 0)
  | .iGive _ d a => some (formA 0x9 d.val a.val 0 0x5, 0)
  | .iRti _ => some (formA 0xA 0 0 0 0x0, 0)
  | .iSys _ imm8 => some (formI 0xA 0 0 (imm8.toNat * 16 + 0x1), 0)
  | .iMfs _ d sr => some (formI 0xA d.val 0 (sr.toNat * 16 + 0x2), 0)
  | .iMts _ sr d => some (formI 0xA d.val 0 (sr.toNat * 16 + 0x3), 0)
  | .iHalt _ => some (formA 0xA 0 0 0 0x4, 0)
  | .iXchg _ d a => some (formA 0xA d.val a.val 0 0x5, 0)
  | .iFence _ => some (formA 0xA 0 0 0 0x6, 0)
  | .iPadd _ d a b => some (formA 0xB d.val a.val b.val 0x0, 0)
  | .iPsub _ d a b => some (formA 0xB d.val a.val b.val 0x1, 0)
  | .iPcmp _ a b => some (formA 0xB 0 a.val b.val 0x2, 0)
  | .iPaddsx _ d a b => some (formA 0xB d.val a.val b.val 0x3, 0)
  | .iPaddzx _ d a b => some (formA 0xB d.val a.val b.val 0x4, 0)
  | .iPsll _ d a b => some (formA 0xB d.val a.val b.val 0x5, 0)
  | .iPsrl _ d a b => some (formA 0xB d.val a.val b.val 0x6, 0)
  | .iPsra _ d a b => some (formA 0xB d.val a.val b.val 0x7, 0)
  | .iPmov _ d a => some (formA 0xB d.val a.val 0 0x8, 0)
  | .iMul _ d a b => some (formA 0xC d.val a.val b.val 0x0, 0)
  | .iMuluP _ d a b => some (formA 0xC d.val a.val b.val 0x1, 0)
  | .iMulsP _ d a b => some (formA 0xC d.val a.val b.val 0x2, 0)
  | .iMacuP _ d a b => some (formA 0xC d.val a.val b.val 0x3, 0)
  | .iMacsP _ d a b => some (formA 0xC d.val a.val b.val 0x4, 0)
  | .iDivuP _ d a b => some (formA 0xC d.val a.val b.val 0x8, 0)
  | .iDivsP _ d a b => some (formA 0xC d.val a.val b.val 0x9, 0)
  | .iDivu _ d a b => some (formA 0xC d.val a.val b.val 0xA, 0)
  | .iDivs _ d a b => some (formA 0xC d.val a.val b.val 0xB, 0)
  | .iRemu _ d a b => some (formA 0xC d.val a.val b.val 0xC, 0)
  | .iRems _ d a b => some (formA 0xC d.val a.val b.val 0xD, 0)
  | .iSlli _ d a n => some (formA 0xD d.val a.val (n.toNat % 16) (0 + n.toNat / 16), 0)
  | .iSrli _ d a n => some (formA 0xD d.val a.val (n.toNat % 16) (2 + n.toNat / 16), 0)
  | .iSrai _ d a n => some (formA 0xD d.val a.val (n.toNat % 16) (4 + n.toNat / 16), 0)
  | .iRori _ d a n => some (formA 0xD d.val a.val (n.toNat % 16) (6 + n.toNat / 16), 0)
  | .iExtu _ d a pos width => some (formA 0xD d.val a.val 0 0x8, BitVec.ofNat 20 (width.toNat * 32 + pos.toNat))
  | .iExts _ d a pos width => some (formA 0xD d.val a.val 0 0x9, BitVec.ofNat 20 (width.toNat * 32 + pos.toNat))
  | .iIns _ d a pos width => some (formA 0xD d.val a.val 0 0xA, BitVec.ofNat 20 (width.toNat * 32 + pos.toNat))
  | .iClz _ d a => some (formA 0xD d.val a.val 0 0xB, 0)
  | .iPopc _ d a => some (formA 0xD d.val a.val 0 0xC, 0)
  | .iLongAlu _ fn d a imm20 => some (formA 0xE d.val a.val 0 fn.toNat, imm20)
  | .iLi _ d imm20 => some (formA 0xE d.val 0 0 0xE, imm20)
  | .iLdbu _ d a imm20 => some (formA 0xE d.val a.val 1 0x0, imm20)
  | .iLdbs _ d a imm20 => some (formA 0xE d.val a.val 1 0x1, imm20)
  | .iLdhu _ d a imm20 => some (formA 0xE d.val a.val 1 0x2, imm20)
  | .iLdhs _ d a imm20 => some (formA 0xE d.val a.val 1 0x3, imm20)
  | .iLdwl _ d a imm20 => some (formA 0xE d.val a.val 1 0x4, imm20)
  | .iLdp _ d a imm20 => some (formA 0xE d.val a.val 1 0x5, imm20)
  | .iStb _ d a imm20 => some (formA 0xE d.val a.val 1 0x8, imm20)
  | .iSth _ d a imm20 => some (formA 0xE d.val a.val 1 0x9, imm20)
  | .iStwl _ d a imm20 => some (formA 0xE d.val a.val 1 0xA, imm20)
  | .iStp _ d a imm20 => some (formA 0xE d.val a.val 1 0xB, imm20)
  | .iTrap _ imm12 => some (formI 0xF 0 0 imm12.toNat, 0)
  | _ => none

end Sys2Proof
end

