-- ==== Sys2Proof/Machine/Timed.lean ====
section
/-! DEFINITION. The timed, event and system instructions that touch no memory, the ends of their waits, interrupt entry,
and the exceptions that a fetched word raises (R83-R85, R91-R96, R100, R103-R112). -/

namespace Sys2Proof.Machine

/-! ## Mesh time (R84, R85) -/

def execITnow (c : CoreId) (d : RegId) (s : State) : Out :=
  s.plain c 1 (isPair d) (fun x => x.setPair d s.mesh.toNat)

/-- `wat` (R85): passes when the time is reached, else gates the core at its own address. -/
def execIWat (c : CoreId) (a : RegId) (s : State) : Out :=
  s.instr c (fun x =>
    if !isPair a then s.illegal c
    else
      let t := BitVec.ofNat 40 (x.pair a)
      s.setCore c (if s.reached t then x.advance 1 else { x with run := .inWat t }))

/-- WAT_RELEASE (R85): the core resumes once its time is reached, or a forward step has passed it. -/
def execWatRelease (c : CoreId) (s : State) : Out :=
  let x := s.core c
  match x.run with
  | .inWat t => .next (if s.clocked && s.reached t then s.setCore c ({ x with run := .running }.advance 1) else s)
  | _ => .next s

/-! ## Events (R91-R95) -/

/-- `post` (R93, R100). -/
def execIPost (c : CoreId) (a b : RegId) (s : State) : Out :=
  s.instr c (fun x =>
    let w := (x.get a).toNat
    let k := (x.get b).toNat
    if w / 4 % 2 = 1 then (s.fire (0x30 + 8 * c.val + k % 8)).modCore c (·.advance 1)
    else
      let t : CoreId := ⟨w % 4, Nat.mod_lt _ (by decide)⟩
      if t ≠ c ∧ !swPriv x.sw then s.privOp c
      else (s.event t (k % 32)).modCore c (·.advance 1))

/-- `sense` (R92). -/
def execISense (c : CoreId) (d a : RegId) (s : State) : Out :=
  s.plain c 1 true (fun x =>
    let v := x.pend.toNat / 2 ^ (16 * ((x.get a).toNat % 2)) % 2 ^ 16
    { x.set d (BitVec.ofNat 20 v) with sw := swSetZ x.sw (v = 0) })

/-- `ack` (R94): the pending bit is cleared; a request still asserted holds it set (R365). -/
def execIAck (c : CoreId) (a : RegId) (s : State) : Out :=
  s.instr c (fun x => (s.setCore c ({ x with
    pend := x.pend &&& ~~~(BitVec.twoPow 32 ((x.get a).toNat % 32)) }.advance 1)).latchReqs)

/-- The lowest-numbered pending line of a `wev` mask (R95). -/
def CoreSt.masked (x : CoreSt) (high : Bool) (mask : BitVec 16) : Option Nat :=
  ((List.range 16).find? (fun i => mask.getLsbD i && x.pend.getLsbD (16 * bit high + i))).map (16 * bit high + ·)

/-- A `wev` or `take` ends: d and Z written, the core past the instruction. -/
def CoreSt.finish (x : CoreSt) (d : RegId) (v : W20) (z : Bool) : CoreSt :=
  { x.set d v with sw := swSetZ x.sw z, run := .running }.advance 1

/-- `wev` (R95). -/
def execIWev (c : CoreId) (d a b : RegId) (s : State) : Out :=
  s.instr c (fun x =>
    let high := (x.get a).getLsbD 16
    let mask := (x.get a).setWidth 16
    let limit := x.get b
    match x.masked high mask with
    | some k => s.setCore c (x.finish d (BitVec.ofNat 20 k) false)
    | none =>
      if limit = 0 then s.setCore c (x.finish d 0xFFFFF true)
      else s.setCore c { x with run := .inWev high mask s.tick limit d })

/-- WEV_EVENT (R95). -/
def execWevEvent (c : CoreId) (s : State) : Out :=
  let x := s.core c
  match x.run with
  | .inWev high mask _ _ d => match x.masked high mask with
    | some k => .next (if s.clocked then s.setCore c (x.finish d (BitVec.ofNat 20 k) false) else s)
    | none => .next s
  | _ => .next s

/-- WEV_TIMEOUT (R95): an event that has arrived is taken instead (R18). -/
def execWevTimeout (c : CoreId) (s : State) : Out :=
  let x := s.core c
  match x.run with
  | .inWev high mask start limit d =>
    if !s.clocked ∨ limit = 0xFFFFF ∨ s.tick - start < limit.toNat then .next s
    else match x.masked high mask with
      | some k => .next (s.setCore c (x.finish d (BitVec.ofNat 20 k) false))
      | none => .next (s.setCore c (x.finish d 0xFFFFF true))
  | _ => .next s

/-! ## Rations (R35, R96) -/

/-- `take` (R35, R96). -/
def execITake (c : CoreId) (d a b : RegId) (s : State) : Out :=
  s.instr c (fun x =>
    let h := (x.get a).toNat % 32
    let m := (x.get a).toNat / 1024
    let limit := x.get b
    match s.takeCode h m (limit = 0) with
    | some code =>
      let t := if code = 1 then s.raise MNG_FLAGS_EXCEEDS_POOL
        else if code = 0 ∧ m ≠ 0 then s.setProgram h (s.progAmount h + m) else s
      t.modCore c (fun x => x.finish d (BitVec.ofNat 20 code) (code = 0))
    | none => (s.addWait h 1 (.program c m)).setCore c { x with run := .inTake h s.tick limit d })


/-- `give` (R35, R96). -/
def execIGive (c : CoreId) (d a : RegId) (s : State) : Out :=
  s.instr c (fun x =>
    let (code, t) := s.give ((x.get a).toNat % 32) ((x.get a).toNat / 1024)
    t.modCore c (fun x => x.finish d (BitVec.ofNat 20 code) (code = 0)))

/-! ## System registers (R100, R104) -/

/-- The value of system register `sr`; none for an unlisted number. -/
def CoreSt.sysReg (x : CoreSt) (c : CoreId) (sr : Nat) : Option W20 :=
  let half := fun (v : BitVec 32) (k : Nat) => some (BitVec.ofNat 20 (v.toNat / 2 ^ (16 * k) % 2 ^ 16))
  if sr = 0x00 then some x.sw
  else if sr = 0x01 then some (x.act.setWidth 20)
  else if sr ≤ 0x03 then half x.pend (sr - 2)
  else if sr ≤ 0x05 then half x.ien (sr - 4)
  else if sr ≤ 0x09 then some (((x.ilvl.toList[sr - 6]?).getD 0).setWidth 20)
  else if sr ≤ 0x0B then half x.emiss (sr - 10)
  else if sr < 0x10 then none
  else if sr ≤ 0x14 then x.epc.toList[sr - 0x10]?
  else if sr < 0x18 then none
  else if sr ≤ 0x1C then x.esw.toList[sr - 0x18]?
  else if sr = 0x1D then some x.ecause
  else if sr = 0x1E then some x.eaddr
  else if sr = 0x1F then some (BitVec.ofNat 20 c.val)
  else none

/-- A half of a 32-bit register replaced. -/
def setHalf (v : BitVec 32) (k : Nat) (n : Nat) : BitVec 32 :=
  if k = 0 then BitVec.ofNat 32 (v.toNat / 2 ^ 16 * 2 ^ 16 + n % 2 ^ 16)
  else BitVec.ofNat 32 (n % 2 ^ 16 * 2 ^ 16 + v.toNat % 2 ^ 16)

/-- System register `sr` written in privileged mode; a read-only one keeps its value. -/
def CoreSt.setSysReg (x : CoreSt) (sr : Nat) (v : W20) : CoreSt :=
  if sr = 0x00 then { x with sw := v &&& 0x800FF }
  else if sr = 0x04 ∨ sr = 0x05 then { x with ien := setHalf x.ien (sr - 4) v.toNat }
  else if 0x06 ≤ sr ∧ sr ≤ 0x09 then { x with ilvl := x.ilvl.setIfInBounds (sr - 6) (v.setWidth 16) }
  else if sr = 0x0A ∨ sr = 0x0B then
    { x with emiss := x.emiss &&& ~~~(BitVec.ofNat 32 (v.toNat % 2 ^ 16 * 2 ^ (16 * (sr - 10)))) }
  else if 0x10 ≤ sr ∧ sr ≤ 0x14 then { x with epc := x.epc.setIfInBounds (sr - 0x10) (v &&& 0xFFFF) }
  else if 0x18 ≤ sr ∧ sr ≤ 0x1C then { x with esw := x.esw.setIfInBounds (sr - 0x18) (v &&& 0x800FF) }
  else if sr = 0x1D then { x with ecause := v &&& 0xF0FFF }
  else x

/-- `mfs` (R100, R103, R104). -/
def execIMfs (c : CoreId) (d : RegId) (sr : BitVec 8) (s : State) : Out :=
  s.instr c (fun x => match x.sysReg c sr.toNat with
    | none => s.illegal c
    | some v =>
      if swPriv x.sw ∨ sr = 0x00 ∨ sr = 0x02 ∨ sr = 0x03 ∨ sr = 0x1F then s.setCore c ((x.set d v).advance 1)
      else s.privOp c)

/-- `mts` (R100, R103, R104): in task mode only the flags of SW. -/
def execIMts (c : CoreId) (sr : BitVec 8) (d : RegId) (s : State) : Out :=
  s.instr c (fun x => match x.sysReg c sr.toNat with
    | none => s.illegal c
    | some _ =>
      if swPriv x.sw then s.setCore c ((x.setSysReg sr.toNat (x.get d)).advance 1)
      else if sr = 0x00 then s.setCore c ({ x with sw := (x.sw &&& 0xFFFF0) ||| (x.get d &&& 0xF) }.advance 1)
      else s.privOp c)

/-! ## Return, halt and interrupts (R105-R109, R112) -/

/-- `rti` (R100, R112). -/
def execIRti (c : CoreId) (s : State) : Out :=
  s.instr c (fun x =>
    if !swPriv x.sw then s.privOp c
    else match x.topBank with
      | some n => s.setCore c (x.leave n)
      | none => s.illegal c)

/-- `halt` (R100, R105): pc names the address after it. -/
def execIHalt (c : CoreId) (s : State) : Out :=
  s.instr c (fun x =>
    if swPriv x.sw then s.setCore c ({ x with run := .halted }.advance 1) else s.privOp c)

/-- INTERRUPT_ENTRY (R107-R109): the line taken, a wait abandoned at its own address, a waiting `take` withdrawn. -/
def execInterruptEntry (c : CoreId) (s : State) : Out :=
  let x := s.core c
  match x.interrupt with
  | some k =>
    if x.run.interruptible ∧ s.clocked then .next ((s.withdrawTake c).setCore c (x.enterLine k)) else .next s
  | none => .next s

/-! ## Exceptions of a fetched word (R49, R50, R59, R111) -/

/-- ILLEGAL_OP (R59): the core executes a word, with the extension word that follows it, whose encoding is illegal. -/
def execIllegalOp (c : CoreId) (w x : W20) (s : State) : Out :=
  s.instr c (fun _ => if decodeCore c w x = none then s.illegal c else s)

/-- FETCH_FAULT (R49, R50, R81, R111): the core's fetch of the word at `addr`, or of the extension word there when
`twoWord`, reaches an undecoded address or a word whose error cannot be corrected. Whether a ROM word holds such an
error is open: nothing the device does writes one (notes/assumptions/6.md). -/
def execFetchFault (c : CoreId) (addr : BitVec 16) (twoWord : Bool) (s : State) : Out :=
  s.instr c (fun x =>
    let a := addr.toNat
    let ea := addr.setWidth 20
    if addr ≠ (if twoWord then x.pc + 1 else x.pc) then s
    else if 0x4000 ≤ a ∧ a < 0xC000 then s.takeException c 2 1 ea x.pc
    else if a < 0x4000 then
      match s.loftRead c a with
      | (none, t) => t.takeException c 2 2 ea x.pc
      | (some _, _) => s
    else
      let (n, t) := s.fresh
      if Config.freeBit n 1 then t.takeException c 2 2 ea x.pc else s)

end Sys2Proof.Machine
end

