-- ==== Sys2Proof/Machine/CoreCtl.lean ====
section
/-! DEFINITION. Starting, stopping and resetting a core through its control registers (R47, R105, R113, R517), and
clearing an action table (R7). -/

namespace Sys2Proof.Machine

/-- The holder of a core's charge (R29, R517). -/
def coreHolder (c : CoreId) : Nat := 7 + c.val

/-- The reservations and reservation requests of a core's action table go, and every entry is EMPTY (R7, R39). -/
def State.actClear (s : State) (c : CoreId) : State :=
  let t := (s.release ((List.range 16).map (resvId c))).withdraw (fun w => match w.kind with
    | .resv d _ => d == c
    | _ => false)
  t.modCore c (fun x => { x with acts := CoreSt.reset.acts })

/-- Where a core that is not running goes on: START after a core reset, else its pc (R113). -/
def State.nextPc (s : State) (c : CoreId) : BitVec 16 :=
  if (s.core c).fresh then BitVec.ofNat 16 (s.get (CC_START_START c.val)) else (s.core c).pc

/-- RUN := 1 (R113, R517): a stopped core runs from where it goes on, once it holds its charge.  A core that is not
stopped goes on as it was (notes/assumptions/48.md). -/
def State.coreOn (s : State) (c : CoreId) : State :=
  let x := s.core c
  let t := s.put (CC_RUN_RUN c.val) 1
  if x.run ≠ .stopped then t
  else
    let y := { x with pc := s.nextPc c, fresh := false, cold := false, stopAt := none }
    if s.holds (coreHolder c) then t.setCore c { y with run := .running }
    else (t.setCore c { y with run := .starting }).ask 0 [coreHolder c]

/-- RUN := 0 (R109, R113, R517): the core stops at the next boundary, abandons a wait at its own address, and returns
its charge in the tick after.  A core stopped by a double exception stays so, with its charge (R110, R517). -/
def State.coreOff (s : State) (c : CoreId) : State :=
  let t := s.put (CC_RUN_RUN c.val) 0
  match (s.core c).run with
  | .doubleExc => t
  | .stopped => t
  | .starting => (t.modCore c (fun x => { x with run := .stopped })).drop [coreHolder c]
  | _ => (t.withdrawTake c).modCore c (fun x => { x with run := .stopped, stopAt := some s.tick })

/-- The charges of the cores that RUN := 0 stopped in an earlier tick return (R517). -/
def State.coreReturns (s : State) : State :=
  ([0, 1, 2, 3] : List CoreId).foldl (fun t c => match (t.core c).stopAt with
    | some k => if k < t.tick then (t.modCore c (fun x => { x with stopAt := none })).drop [coreHolder c] else t
    | none => t) s

/-- The core reset itself (R7, R47, R104, R113, R365); RUN then stands as its register says. -/
def State.coreResetNow (s : State) (c : CoreId) : State :=
  let t := ((s.withdrawTake c).actClear c).drop [coreHolder c]
  let t := t.modCore c (fun _ => { CoreSt.reset with cold := false, pc := BitVec.ofNat 16 (s.get (CC_START_START c.val)) })
  (if t.test (CC_RUN_RUN c.val) then t.coreOn c else t).latchReqs

/-- CRESET := 1 (R113): the reset waits until the store buffer is empty. -/
def State.coreReset (s : State) (c : CoreId) : State :=
  if (s.core c).stores.isEmpty then s.coreResetNow c else s.modCore c (fun x => { x with creset := true })

/-- A write of CC_RUN (R113). -/
def State.ccRun (s : State) (c : CoreId) (v : W20) : State :=
  if v.getLsbD 1 then (s.put (CC_RUN_RUN c.val) (bit (v.getLsbD 0))).coreReset c
  else if v.getLsbD 0 then s.coreOn c
  else s.coreOff c

/-- CORE_RESET (R113): a write of CRESET with RUN as it stands; or, once the buffer has drained, the reset itself. -/
def execCoreReset (c : CoreId) (s : State) : Out := s.during s.clocked <| .next (s.coreReset c)

/-- CORE_RUN (R113, R517). -/
def execCoreRun (c : CoreId) (run : Bool) (s : State) : Out :=
  s.during s.clocked <| .next (if run then s.coreOn c else s.coreOff c)

/-- CC_STATUS.STATE of a core (R113). -/
def CoreRun.code : CoreRun → Nat
  | .stopped | .starting => 0 | .running => 1 | .halted => 2 | .inWat _ => 3 | .inWev .. => 4 | .inTake .. => 5
  | .doubleExc => 6

/-! ## The loft port (R113) -/

/-- The loft address advances under AUTOINC. -/
def State.loftStep (s : State) (c : CoreId) : State :=
  if s.test (CC_LOFTADDR_AUTOINC c.val) then
    s.put (CC_LOFTADDR_ADDR c.val) ((s.get (CC_LOFTADDR_ADDR c.val) + 1) % 0x4000)
  else s

/-- A write of CC_LOFTDATA: stored while RUN is 0. -/
def State.loftPut (s : State) (c : CoreId) (v : W20) : State :=
  if s.test (CC_RUN_RUN c.val) then (s.put (CC_STATUS_LOFT_REFUSED c.val) 1).loftStep c
  else (s.setLoft c (s.get (CC_LOFTADDR_ADDR c.val)) v).loftStep c

/-- A read of CC_LOFTDATA: the word; one whose error cannot be corrected reads as an open value
(notes/assumptions/6.md). -/
def State.loftGet (s : State) (c : CoreId) : W20 × State :=
  match s.loftRead c (s.get (CC_LOFTADDR_ADDR c.val)) with
  | (some v, t) => (v, t.loftStep c)
  | (none, t) =>
    let (k, t) := t.fresh
    (Config.freeW20 k, t.loftStep c)

def execLoftWrite (c : CoreId) (v : W20) (s : State) : Out := s.during s.clocked <| .next (s.loftPut c v)
def execLoftRead (c : CoreId) (s : State) : Out := s.during s.clocked <| .next (s.loftGet c).2

end Sys2Proof.Machine
end

