-- ==== Sys2Proof/Machine/Crypto.lean ====
section
/-! DEFINITION. The algorithms that spec/11 names by their standards (R284-R301): AES (FIPS 197) with CCM, GCM, CTR,
CBC-MAC and KW, SHA-256 (FIPS 180-4), and ECDSA over P-256 (FIPS 186).  The standards' text is not in the spec: what
stands here is PRESUMED from them (notes/assumptions/17.md). -/

namespace Sys2Proof.Machine

/-! ## AES -/

/-- x times a byte in GF(2^8). -/
def gfDouble (a : Nat) : Nat := let d := a * 2; if 256 ≤ d then Nat.xor (d - 256) 0x1B else d

/-- A product in GF(2^8), over the low `n` bits of `b`. -/
def gfMul : Nat → Nat → Nat → Nat
  | 0, _, _ => 0
  | n + 1, a, b => Nat.xor (if b % 2 = 1 then a else 0) (gfMul n (gfDouble a) (b / 2))

/-- `a` to the power of 254, its inverse (0 for 0). -/
def gfInv (a : Nat) : Nat :=
  let sq := fun x => gfMul 8 x x
  let a2 := sq a; let a4 := sq a2; let a8 := sq a4; let a16 := sq a8; let a32 := sq a16; let a64 := sq a32
  let a128 := sq a64
  [a4, a8, a16, a32, a64, a128].foldl (gfMul 8) a2

def rotByte (b : BitVec 8) (n : Nat) : BitVec 8 := b.rotateLeft n

/-- The S-box. -/
def aesSub (x : Byte) : Byte :=
  let b := BitVec.ofNat 8 (gfInv x.toNat)
  b ^^^ rotByte b 1 ^^^ rotByte b 2 ^^^ rotByte b 3 ^^^ rotByte b 4 ^^^ 0x63

/-- The inverse S-box. -/
def aesInvSub (y : Byte) : Byte :=
  let b := rotByte y 1 ^^^ rotByte y 3 ^^^ rotByte y 6 ^^^ 0x05
  BitVec.ofNat 8 (gfInv b.toNat)

def xorBytes (a b : List Byte) : List Byte := List.zipWith (· ^^^ ·) a b

/-- The key schedule's words: `nk` words of the key, then `fuel` more; the accumulator holds the newest first. -/
def aesExpand (nk : Nat) : Nat → Nat → Nat → List (List Byte) → List (List Byte)
  | 0, _, _, w => w.reverse
  | fuel + 1, i, rc, w =>
    let t := (w[0]?).getD []
    let (t, rc) :=
      if i % nk = 0 then
        let r := (t.drop 1 ++ t.take 1).map aesSub
        (xorBytes r [BitVec.ofNat 8 rc, 0, 0, 0], gfDouble rc)
      else if 6 < nk ∧ i % nk = 4 then (t.map aesSub, rc)
      else (t, rc)
    aesExpand nk fuel (i + 1) rc (xorBytes ((w[nk - 1]?).getD []) t :: w)

def chunks (n : Nat) : Nat → List Byte → List (List Byte)
  | 0, _ => []
  | fuel + 1, l => if l.isEmpty then [] else l.take n :: chunks n fuel (l.drop n)

/-- The round keys of a key of 16 or 32 bytes. -/
def aesKeys (key : List Byte) : List (List Byte) :=
  let nk := key.length / 4
  let w := aesExpand nk (4 * (nk + 7) - nk) nk 1 (chunks 4 nk key).reverse
  chunks 16 (nk + 7) w.flatten

def aesShift (l : List Byte) : List Byte :=
  [0, 5, 10, 15, 4, 9, 14, 3, 8, 13, 2, 7, 12, 1, 6, 11].map (fun i => (l[i]?).getD 0)

def aesInvShift (l : List Byte) : List Byte :=
  [0, 13, 10, 7, 4, 1, 14, 11, 8, 5, 2, 15, 12, 9, 6, 3].map (fun i => (l[i]?).getD 0)

/-- A column times the circulant matrix of the row `c`. -/
def aesColumn (row : List Nat) (l : List Byte) : List Byte :=
  (List.range 4).map (fun i => (List.range 4).foldl (fun (x : Byte) j =>
    x ^^^ BitVec.ofNat 8 (gfMul 8 (((l[j]?).getD 0).toNat) ((row[(j + 4 - i) % 4]?).getD 0))) 0)

def aesMix (row : List Nat) (l : List Byte) : List Byte := (chunks 4 4 l).flatMap (aesColumn row)

/-- One block encrypted. -/
def aesEnc (key blk : List Byte) : List Byte :=
  match aesKeys key with
  | [] => blk
  | k0 :: ks =>
    let s := (ks.dropLast).foldl (fun s k => xorBytes (aesMix [2, 3, 1, 1] (aesShift (s.map aesSub))) k)
      (xorBytes blk k0)
    xorBytes (aesShift (s.map aesSub)) (ks.getLastD [])

/-- One block decrypted. -/
def aesDec (key blk : List Byte) : List Byte :=
  match (aesKeys key).reverse with
  | [] => blk
  | k0 :: ks =>
    let s := (ks.dropLast).foldl (fun s k =>
      aesMix [14, 11, 13, 9] (xorBytes ((aesInvShift s).map aesInvSub) k)) (xorBytes blk k0)
    xorBytes ((aesInvShift s).map aesInvSub) (ks.getLastD [])

/-- Zero bytes up to a multiple of 16. -/
def pad16 (l : List Byte) : List Byte := l ++ List.replicate ((16 - l.length % 16) % 16) 0

def blocks16 (l : List Byte) : List (List Byte) := chunks 16 l.length l

/-- CBC-MAC of whole blocks, zero IV. -/
def cbcMac (key l : List Byte) : List Byte :=
  (blocks16 l).foldl (fun t b => aesEnc key (xorBytes t b)) (List.replicate 16 0)

/-- CBC_MAC (R288): zero-padded; no bytes are one zero block. -/
def cbcMacOp (key l : List Byte) : List Byte := cbcMac key (if l.isEmpty then List.replicate 16 0 else pad16 l)

/-- Bytes XORed with the encryption of the counter blocks `ctr 0`, `ctr 1`, ... -/
def ctrXor (key : List Byte) (ctr : Nat → List Byte) (l : List Byte) : List Byte :=
  ((blocks16 l).zipIdx).flatMap (fun b => xorBytes b.1 (aesEnc key (ctr b.2)))

/-- The initial block with its low 32 bits advanced by `i`. -/
def incr32 (b : List Byte) (i : Nat) : List Byte :=
  b.take 12 ++ toBytesBE 4 ((ofBytesBE (b.drop 12) + i) % 2 ^ 32)

/-- The counter blocks of CCM with L = 2. -/
def ccmCtr (nonce : List Byte) (i : Nat) : List Byte := 0x01 :: nonce ++ toBytesBE 2 i

/-- The tag of CCM over a plaintext. -/
def ccmTag (key nonce aad plain : List Byte) (m : Nat) : List Byte :=
  let flags := (if aad.isEmpty then 0 else 64) + 8 * ((m - 2) / 2) + 1
  let b0 := BitVec.ofNat 8 flags :: nonce ++ toBytesBE 2 plain.length
  let a := if aad.isEmpty then [] else pad16 (toBytesBE 2 aad.length ++ aad)
  let t := cbcMac key (b0 ++ a ++ pad16 plain)
  (xorBytes t (aesEnc key (ccmCtr nonce 0))).take m

/-- CCM's payload, either way. -/
def ccmXor (key nonce l : List Byte) : List Byte := ctrXor key (fun i => ccmCtr nonce (i + 1)) l

/-- A product in GCM's field, over the bits of `x` from the highest down. -/
def ghashMul : Nat → Nat → Nat → Nat → Nat
  | 0, _, _, z => z
  | n + 1, x, v, z =>
    let z := if x.testBit n then Nat.xor z v else z
    let v' := if v % 2 = 1 then Nat.xor (v / 2) (0xE1 * 2 ^ 120) else v / 2
    ghashMul n x v' z

def ghash (h : Nat) (l : List Byte) : Nat :=
  (blocks16 l).foldl (fun y b => ghashMul 128 (Nat.xor y (ofBytesBE b)) h 0) 0

/-- GCM's payload with a nonce of 12 bytes, either way. -/
def gcmXor (key nonce l : List Byte) : List Byte :=
  ctrXor key (fun i => incr32 (nonce ++ [0, 0, 0, 1]) (i + 1)) l

/-- The tag of GCM over a ciphertext. -/
def gcmTag (key nonce aad ct : List Byte) : List Byte :=
  let h := ofBytesBE (aesEnc key (List.replicate 16 0))
  let s := ghash h (pad16 aad ++ pad16 ct ++ toBytesBE 8 (8 * aad.length) ++ toBytesBE 8 (8 * ct.length))
  xorBytes (toBytesBE 16 s) (aesEnc key (nonce ++ [0, 0, 0, 1]))

/-! ## Key wrapping (SP 800-38F KW) -/

/-- One step of the wrapping: register `A`, the semiblocks as a queue, step number `t`. -/
def kwSteps (key : List Byte) : Nat → Nat → List Byte → List (List Byte) → List Byte × List (List Byte)
  | 0, _, a, r => (a, r)
  | fuel + 1, t, a, r =>
    match r with
    | [] => (a, r)
    | r1 :: rest =>
      let b := aesEnc key (a ++ r1)
      kwSteps key fuel (t + 1) (xorBytes (b.take 8) (toBytesBE 8 t)) (rest ++ [b.drop 8])

def kwIv : List Byte := List.replicate 8 0xA6

def kwWrap (key l : List Byte) : List Byte :=
  let r := chunks 8 l.length l
  let (a, r) := kwSteps key (6 * r.length) 1 kwIv r
  a ++ r.flatten

/-- The steps taken back, from step `t` down to 1; the queue holds the newest semiblock first. -/
def kwBack (key : List Byte) : Nat → List Byte → List (List Byte) → List Byte × List (List Byte)
  | 0, a, r => (a, r)
  | t + 1, a, r =>
    match r with
    | [] => (a, r)
    | rn :: rest =>
      let b := aesDec key (xorBytes a (toBytesBE 8 (t + 1)) ++ rn)
      kwBack key t (b.take 8) (rest ++ [b.drop 8])

/-- The unwrapped bytes; none where the integrity check fails. -/
def kwUnwrap (key l : List Byte) : Option (List Byte) :=
  let r := (chunks 8 l.length (l.drop 8)).reverse
  let (a, r) := kwBack key (6 * r.length) (l.take 8) r
  if a = kwIv then some r.reverse.flatten else none

/-! ## SHA-256 -/

def shaK : List (BitVec 32) :=
  [0x428a2f98, 0x71374491, 0xb5c0fbcf, 0xe9b5dba5, 0x3956c25b, 0x59f111f1, 0x923f82a4, 0xab1c5ed5] ++
  [0xd807aa98, 0x12835b01, 0x243185be, 0x550c7dc3, 0x72be5d74, 0x80deb1fe, 0x9bdc06a7, 0xc19bf174] ++
  [0xe49b69c1, 0xefbe4786, 0x0fc19dc6, 0x240ca1cc, 0x2de92c6f, 0x4a7484aa, 0x5cb0a9dc, 0x76f988da] ++
  [0x983e5152, 0xa831c66d, 0xb00327c8, 0xbf597fc7, 0xc6e00bf3, 0xd5a79147, 0x06ca6351, 0x14292967] ++
  [0x27b70a85, 0x2e1b2138, 0x4d2c6dfc, 0x53380d13, 0x650a7354, 0x766a0abb, 0x81c2c92e, 0x92722c85] ++
  [0xa2bfe8a1, 0xa81a664b, 0xc24b8b70, 0xc76c51a3, 0xd192e819, 0xd6990624, 0xf40e3585, 0x106aa070] ++
  [0x19a4c116, 0x1e376c08, 0x2748774c, 0x34b0bcb5, 0x391c0cb3, 0x4ed8aa4a, 0x5b9cca4f, 0x682e6ff3] ++
  [0x748f82ee, 0x78a5636f, 0x84c87814, 0x8cc70208, 0x90befffa, 0xa4506ceb, 0xbef9a3f7, 0xc67178f2]

def shaRot (x : BitVec 32) (n : Nat) : BitVec 32 := x.rotateRight n

/-- The message schedule beyond its first sixteen words, newest first. -/
def shaSchedule : Nat → List (BitVec 32) → List (BitVec 32)
  | 0, w => w.reverse
  | n + 1, w =>
    let g := fun i => (w[i]?).getD 0
    let s0 := shaRot (g 14) 7 ^^^ shaRot (g 14) 18 ^^^ (g 14 >>> 3)
    let s1 := shaRot (g 1) 17 ^^^ shaRot (g 1) 19 ^^^ (g 1 >>> 10)
    shaSchedule n ((g 15 + s0 + g 6 + s1) :: w)

def shaRound (v : List (BitVec 32)) (kw : BitVec 32) : List (BitVec 32) :=
  match v with
  | [a, b, c, d, e, f, g, h] =>
    let t1 := h + (shaRot e 6 ^^^ shaRot e 11 ^^^ shaRot e 25) + ((e &&& f) ^^^ (~~~e &&& g)) + kw
    let t2 := (shaRot a 2 ^^^ shaRot a 13 ^^^ shaRot a 22) + ((a &&& b) ^^^ (a &&& c) ^^^ (b &&& c))
    [t1 + t2, a, b, c, d + t1, e, f, g]
  | _ => v

/-- One block of 64 bytes hashed into a chaining value. -/
def shaBlock (h : List (BitVec 32)) (blk : List Byte) : List (BitVec 32) :=
  let w := shaSchedule 48 ((chunks 4 16 blk).map (fun b => BitVec.ofNat 32 (ofBytesBE b))).reverse
  let v := (List.zipWith (· + ·) shaK w).foldl shaRound h
  List.zipWith (· + ·) h v

/-- Whole blocks hashed; what is left over. -/
def shaBlocks : Nat → List (BitVec 32) → List Byte → List (BitVec 32) × List Byte
  | 0, h, l => (h, l)
  | n + 1, h, l => if l.length < 64 then (h, l) else shaBlocks n (shaBlock h (l.take 64)) (l.drop 64)

def ShaCtx.update (c : ShaCtx) (l : List Byte) : ShaCtx :=
  let all := c.buf ++ l
  let (h, rest) := shaBlocks (all.length / 64) c.h all
  { h := h, buf := rest, total := c.total + l.length }

def ShaCtx.final (c : ShaCtx) : List Byte :=
  let z := (119 - c.total % 64) % 64
  let d := c.update (0x80 :: List.replicate z 0 ++ toBytesBE 8 (8 * c.total))
  d.h.flatMap (fun w => toBytesBE 4 w.toNat)

def sha256 (l : List Byte) : List Byte := (ShaCtx.reset.update l).final

/-! ## P-256 -/

def p256P : Nat := 0xFFFFFFFF00000001000000000000000000000000FFFFFFFFFFFFFFFFFFFFFFFF
def p256N : Nat := 0xFFFFFFFF00000000FFFFFFFFFFFFFFFFBCE6FAADA7179E84F3B9CAC2FC632551
def p256B : Nat := 0x5AC635D8AA3A93E7B3EBBD55769886BC651D06B0CC53B0F63BCE3C3E27D2604B
def p256Gx : Nat := 0x6B17D1F2E12C4247F8BCE6E563A440F277037D812DEB33A0F4A13945D898C296
def p256Gy : Nat := 0x4FE342E2FE1A7F9B8EE7EB4A7C0F9E162BCE33576B315ECECBB6406837BF51F5

/-- `a` to the power of the low `n` bits of `e`, mod `m`. -/
def powMod (m : Nat) : Nat → Nat → Nat → Nat
  | 0, _, _ => 1 % m
  | n + 1, a, e =>
    let r := powMod m n (a * a % m) (e / 2)
    if e % 2 = 1 then a * r % m else r

def invMod (m a : Nat) : Nat := powMod m 256 (a % m) (m - 2)

/-- An affine point; none is the point at infinity. -/
abbrev EcPoint := Option (Nat × Nat)

def ecDouble (q : EcPoint) : EcPoint :=
  match q with
  | none => none
  | some (x, y) =>
    if y = 0 then none
    else
      let l := (3 * x * x + p256P - 3) * invMod p256P (2 * y) % p256P
      let x3 := (l * l + 2 * p256P - 2 * x) % p256P
      some (x3, (l * (x + p256P - x3) + p256P - y) % p256P)

def ecAdd (q r : EcPoint) : EcPoint :=
  match q, r with
  | none, _ => r
  | _, none => q
  | some (x1, y1), some (x2, y2) =>
    if x1 = x2 then (if y1 = y2 then ecDouble q else none)
    else
      let l := (y2 + p256P - y1) * invMod p256P (x2 + p256P - x1) % p256P
      let x3 := (l * l + 2 * p256P - x1 - x2) % p256P
      some (x3, (l * (x1 + p256P - x3) + p256P - y1) % p256P)

/-- The low `n` bits of `k` times a point. -/
def ecMul : Nat → Nat → EcPoint → EcPoint
  | 0, _, _ => none
  | n + 1, k, q =>
    let r := ecMul n (k / 2) (ecDouble q)
    if k % 2 = 1 then ecAdd q r else r

def ecG : EcPoint := some (p256Gx, p256Gy)

/-- Whether (x, y) is a point of the curve. -/
def onCurve (x y : Nat) : Bool :=
  x < p256P && y < p256P && (y * y) % p256P == (x * x * x + (p256P - 3) * x + p256B) % p256P

/-- ECDSA verification of a digest under public key (x, y). -/
def ecdsaVerify (x y : Nat) (digest sig : List Byte) : Bool :=
  let r := ofBytesBE (sig.take 32)
  let t := ofBytesBE (sig.drop 32)
  if r = 0 ∨ p256N ≤ r ∨ t = 0 ∨ p256N ≤ t then false
  else
    let w := invMod p256N t
    match ecAdd (ecMul 256 (ofBytesBE digest * w % p256N) ecG) (ecMul 256 (r * w % p256N) (some (x, y))) with
    | some (x1, _) => x1 % p256N == r
    | none => false

/-- ECDSA signature of a digest under private key `d` with the number `k`. -/
def ecdsaSign (d k : Nat) (digest : List Byte) : List Byte :=
  let r := ((ecMul 256 k ecG).map (·.1)).getD 0 % p256N
  let t := invMod p256N k * (ofBytesBE digest + r * d) % p256N
  toBytesBE 32 r ++ toBytesBE 32 t

/-- A scalar in 1 to n - 1 from a random number. -/
def ecScalar (v : BitVec 256) : Nat := v.toNat % (p256N - 1) + 1

end Sys2Proof.Machine
end

