-- ==== Sys2Proof/Machine/Cipher.lean ====
section
/-! DEFINITION. The tack room, the cipher engine, the hash and public-key engine and the TRNG (R281-R301). -/

namespace Sys2Proof.Machine

/-! ## The charge of the engines (R293) -/

/-- Work arrives for an engine or the TRNG: its charge is requested, unless it is held or returned in this very tick,
when the work keeps it. -/
def State.cphWork (s : State) : State :=
  let t := s.modCipher (fun c => { c with workAt := s.tick })
  if s.cipher.gaveAt = some s.tick ∧ !s.holds 14 ∧ s.costOf [14] ≤ s.manger.free then t.charge [14] else t.ask 0 [14]

/-! ## Slots (R281, R287) -/

def keyDflt : Nat → BitVec 256 := fun _ => 0
def attrDflt : Nat → W20 := fun _ => 0

/-- The state of a slot: 0 EMPTY, 1 READY, 2 SPENT. -/
def State.slotSt (s : State) (k : Nat) : Nat := s.get (TR_INFO_STATE k)

def State.slotKey (s : State) (k : Nat) : BitVec 256 := tabGet keyDflt s.cipher.keys k
def State.slotAttr (s : State) (k : Nat) : W20 := tabGet attrDflt s.cipher.attrs k

/-- A key of SIZE `size` as bytes: a 128-bit key fills bytes 0 to 15. -/
def keyBytes (size : Bool) (k : BitVec 256) : List Byte := (toBytesBE 32 k.toNat).take (if size then 32 else 16)

def State.slotBytes (s : State) (k : Nat) : List Byte := keyBytes (s.test (TR_INFO_SIZE k)) (s.slotKey k)

/-- A key from its bytes. -/
def keyOf (l : List Byte) : BitVec 256 := BitVec.ofNat 256 (ofBytesBE (l ++ List.replicate (32 - l.length) 0))

/-- One use of a slot's key (R286, R287). -/
def State.slotUse (s : State) (k : Nat) : State :=
  let n := s.get (TR_COUNT_VALUE k) + 1
  let t := s.put (TR_COUNT_VALUE k) n
  let t := if n = s.get (TR_WARNS_VALUE k) then t.raise CPH_FLAGS_KEY_WARN else t
  let t := if n = s.get (TR_LIMITS_VALUE k) then t.put (TR_INFO_STATE k) 2 else t
  if s.test (TR_INFO_PERSIST k) ∧ n = s.get (TR_RESERVE_VALUE k) - max 1 (s.get TR_STEP_STEP) / 2
  then t.raise CPH_FLAGS_EXPORT_DUE else t

/-- A slot provisioned: key, attributes and counts, then READY, or SPENT where COUNT has reached LIMIT (R283, R286).
-/
def State.slotFill (s : State) (r : TrRun) : State :=
  let k := r.slot
  let a := r.attr
  let t := s.modCipher (fun c => { c with keys := tabSet keyDflt c.keys k r.key, attrs := tabSet attrDflt c.attrs k a })
  let t := (t.put (TR_COUNT_VALUE k) r.count).put (TR_LIMITS_VALUE k) r.limit
  let t := (t.put (TR_WARNS_VALUE k) r.warn).put (TR_RESERVE_VALUE k) r.reserve
  let t := (t.put (TR_INFO_SIZE k) (a.toNat / 2 ^ 19)).put (TR_INFO_PERSIST k) (a.toNat / 2 ^ 18 % 2)
  (t.put (TR_INFO_USE k) (a.toNat / 2 ^ 14 % 16)).put (TR_INFO_STATE k) (if r.count = r.limit then 2 else 1)

/-- A slot overwritten with zeros, EMPTY. -/
def State.slotErase (s : State) (k : Nat) : State :=
  let t := s.modCipher (fun c => { c with keys := tabSet keyDflt c.keys k 0, attrs := tabSet attrDflt c.attrs k 0 })
  ((((t.setRg (TR_INFO k) 0).setRg (TR_COUNT k) 0).setRg (TR_LIMITS k) 0).setRg (TR_WARNS k) 0).setRg (TR_RESERVE k) 0

/-- Every slot EMPTY (R281). -/
def State.slotsClear (s : State) : State := (List.range 64).foldl State.slotErase s

/-- A request names slot `k` (R283). -/
def State.slotBusy (s : State) (k : Nat) : Bool :=
  s.cipher.queue.any (fun r => r.slot == k) || s.cipher.running.any (fun r => r.1.slot == k) ||
    s.cipher.half0 == some k || s.cipher.half1 == some k

/-! ## Identity (R301) -/

/-- The identity record of 84 bytes. -/
def State.idRecord (s : State) : List Byte :=
  (s.otp.id.toList.flatMap tripleOf) ++ [0, 0] ++ toBytesBE 32 s.otp.qx.toNat ++ toBytesBE 32 s.otp.qy.toNat

def State.idDigest (s : State) : List Byte := sha256 s.idRecord

/-! ## Tack-room commands (R283-R286) -/

/-- A command that ends with a RESULT and nothing else. -/
def TrRun.fail (op slot res : Nat) : TrRun :=
  { op := op, slot := slot, res := res, key := 0, attr := 0, count := 0, limit := 0, warn := 0, reserve := 0, out := []
    outAt := 0, wrAt := 0 }

/-- TR_LIMIT, where 0 means 65,536 (R287). -/
def State.trLimit (s : State) : Nat := if s.get TR_LIMIT_VALUE = 0 then 65536 else s.get TR_LIMIT_VALUE

/-- The attributes of TR_ATTR, TR_LIMIT and TR_WARN are valid. -/
def State.trAttrOk (s : State) : Bool := s.get TR_ATTR_USE != 0 && s.get TR_WARN_VALUE < s.trLimit

/-- A provisioning of `slot` with the registers' attributes. -/
def State.trFresh (s : State) (op slot : Nat) (key : BitVec 256) : TrRun :=
  { op := op, slot := slot, res := 0, key := key, attr := s.rg TR_ATTR &&& 0xFC03F, count := 0, limit := s.trLimit
    warn := s.get TR_WARN_VALUE, reserve := 0, out := [], outAt := 0, wrAt := 0 }

/-- The wrapped key's length for the SIZE of TR_ATTR. -/
def State.trWrapped (s : State) : Nat := if s.test TR_ATTR_SIZE then 40 else 24

/-- GENERATE. -/
def State.trGenerate (s : State) (slot : Nat) : TrRun × State :=
  if s.slotSt slot ≠ 0 then (TrRun.fail 1 slot 2, s)
  else if !s.trAttrOk then (TrRun.fail 1 slot 4, s)
  else if s.test TRNG_STAT_FAIL then (TrRun.fail 1 slot 6, s)
  else
    let (n, t) := s.fresh
    (s.trFresh 1 slot (keyOf (keyBytes (s.test TR_ATTR_SIZE) (Config.freeKey n))), t)

/-- The key-encryption key of an import block (R284). -/
def State.importKek (s : State) (slot x y : Nat) : List Byte :=
  let z := ((ecMul 256 s.otp.d.toNat (some (x, y))).map (·.1)).getD 0
  sha256 (toBytesBE 32 z ++ s.idDigest ++ toBytesBE 1 slot ++ toBytesBE 3 (s.rg TR_ATTR &&& 0xFC03F).toNat ++
    [0x54, 0x52, 0x4B, 0x31])

/-- IMPORT_ECDH (R284). -/
def State.trImportEcdh (s : State) (slot : Nat) : TrRun × State :=
  let n := 64 + s.trWrapped
  let a := s.get TR_ARG_VALUE
  if s.slotSt slot ≠ 0 then (TrRun.fail 2 slot 2, s)
  else if !s.trAttrOk then (TrRun.fail 2 slot 4, s)
  else if !inSram a n then (TrRun.fail 2 slot 7, s)
  else match s.ramRead .sram a n with
    | (none, t) => (TrRun.fail 2 slot 5, t)
    | (some b, t) =>
      let x := ofBytesBE (b.take 32)
      let y := ofBytesBE ((b.drop 32).take 32)
      if !onCurve x y then (TrRun.fail 2 slot 5, t)
      else match kwUnwrap (s.importKek slot x y) (b.drop 64) with
        | some k => (s.trFresh 2 slot (keyOf k), t)
        | none => (TrRun.fail 2 slot 5, t)

/-- IMPORT_KEK (R285): one use of KEKSLOT, whether or not the unwrap succeeds. -/
def State.trImportKek (s : State) (slot : Nat) : TrRun × State :=
  let n := s.trWrapped
  let a := s.get TR_ARG_VALUE
  let q := s.get TR_ATTR_KEKSLOT
  if s.slotSt slot ≠ 0 ∨ s.slotSt q ≠ 1 ∨ s.get (TR_INFO_USE q) % 2 = 0 then (TrRun.fail 3 slot 2, s)
  else if !s.trAttrOk then (TrRun.fail 3 slot 4, s)
  else if !inSram a n then (TrRun.fail 3 slot 7, s)
  else
    let kek := s.slotBytes q
    match (s.slotUse q).ramRead .sram a n with
    | (none, t) => (TrRun.fail 3 slot 5, t)
    | (some b, t) =>
      match kwUnwrap kek b with
      | some k => (s.trFresh 3 slot (keyOf k), t)
      | none => (TrRun.fail 3 slot 5, t)

/-- EXPORT (R286): the blob of the slot, with RESERVE as its count. -/
def State.trExport (s : State) (slot : Nat) : TrRun × State :=
  let a := s.get TR_ARG_VALUE
  if s.slotSt slot = 0 then (TrRun.fail 5 slot 2, s)
  else if !inSram a 56 then (TrRun.fail 5 slot 7, s)
  else
    let r := min (s.get (TR_LIMITS_VALUE slot)) (s.get (TR_COUNT_VALUE slot) + max 1 (s.get TR_STEP_STEP))
    let rec48 := toBytesBE 32 (s.slotKey slot).toNat ++ toBytesBE 3 (s.slotAttr slot).toNat ++
      toBytesBE 3 (s.get (TR_LIMITS_VALUE slot)) ++ toBytesBE 3 (s.get (TR_WARNS_VALUE slot)) ++ toBytesBE 3 r ++
      toBytesBE 1 slot ++ [0, 0, 0]
    ({ TrRun.fail 5 slot 0 with reserve := r, out := kwWrap (toBytesBE 32 s.otp.kek.toNat) rec48, outAt := a }, s)

/-- RESTORE (R286). -/
def State.trRestore (s : State) (slot : Nat) : TrRun × State :=
  let a := s.get TR_ARG_VALUE
  if s.slotSt slot ≠ 0 then (TrRun.fail 6 slot 2, s)
  else if !inSram a 56 then (TrRun.fail 6 slot 7, s)
  else match s.ramRead .sram a 56 with
    | (none, t) => (TrRun.fail 6 slot 5, t)
    | (some b, t) =>
      match kwUnwrap (toBytesBE 32 s.otp.kek.toNat) b with
      | none => (TrRun.fail 6 slot 5, t)
      | some r =>
        let f := fun o n => ofBytesBE ((r.drop o).take n)
        if f 44 1 ≠ slot then (TrRun.fail 6 slot 4, t)
        else
          ({ op := 6, slot := slot, res := 0, key := BitVec.ofNat 256 (f 0 32), attr := BitVec.ofNat 20 (f 32 3)
             count := f 41 3, limit := f 35 3, warn := f 38 3, reserve := f 41 3, out := [], outAt := 0, wrAt := 0 }, t)

/-- Whether a source may give tack-room commands: not task mode, not the host (R283). -/
def mayTrust : Source → Bool
  | .core _ priv => priv
  | .host => false
  | _ => true

/-- A tack-room command works with the engines or the TRNG, whose charge it needs (R293). -/
def trWork (op : Nat) : Bool := op == 1 || op == 2 || op == 3 || op == 5 || op == 6

/-- A write of TR_CMD (R283, R293). -/
def State.trCmd (s : State) (src : Source) (op slot : Nat) : State :=
  if !mayTrust src ∨ s.test TR_STAT_BUSY then (s.put TR_STAT_RESULT 1).raise CPH_FLAGS_TR_REFUSED
  else
    let (r, t) := match op with
      | 1 => s.trGenerate slot
      | 2 => s.trImportEcdh slot
      | 3 => s.trImportKek slot
      | 4 => (TrRun.fail 4 slot (if s.slotBusy slot then 3 else 0), s)
      | 5 => s.trExport slot
      | 6 => s.trRestore slot
      | _ => (TrRun.fail op slot 4, s)
    let t := (t.put TR_STAT_BUSY 1).modCipher (fun c => { c with tr := some { r with wrAt := s.tick } })
    if trWork op then t.cphWork else t

def execTrGenerate (src : Source) (slot : Fin 64) (s : State) : Out :=
  s.during s.clocked <| .next (s.reachWith src TR_CMD (fun t => t.trCmd src 1 slot.val))
def execTrImportEcdh (src : Source) (slot : Fin 64) (s : State) : Out :=
  s.during s.clocked <| .next (s.reachWith src TR_CMD (fun t => t.trCmd src 2 slot.val))
def execTrImportKek (src : Source) (slot : Fin 64) (s : State) : Out :=
  s.during s.clocked <| .next (s.reachWith src TR_CMD (fun t => t.trCmd src 3 slot.val))
def execTrErase (src : Source) (slot : Fin 64) (s : State) : Out :=
  s.during s.clocked <| .next (s.reachWith src TR_CMD (fun t => t.trCmd src 4 slot.val))
def execTrExport (src : Source) (slot : Fin 64) (s : State) : Out :=
  s.during s.clocked <| .next (s.reachWith src TR_CMD (fun t => t.trCmd src 5 slot.val))
def execTrRestore (src : Source) (slot : Fin 64) (s : State) : Out :=
  s.during s.clocked <| .next (s.reachWith src TR_CMD (fun t => t.trCmd src 6 slot.val))

/-- What a tack-room command leaves (R283, R286). -/
def State.trApply (s : State) (r : TrRun) : State :=
  if r.res ≠ 0 then s
  else match r.op with
    | 4 => s.slotErase r.slot
    | 5 => (s.put (TR_RESERVE_VALUE r.slot) r.reserve).ramWrite .sram r.outAt r.out
    | _ => s.slotFill r

/-- TR_COMMAND_DONE (R283, R293). -/
def execTrCommandDone (s : State) : Out := s.during s.inRun <|
  match s.cipher.tr with
  | none => .next s
  | some r =>
    if trWork r.op && !s.holds 14 then .next s
    else
    let t := (s.trApply r).modCipher (fun c => { c with tr := none })
    .next (((t.put TR_STAT_BUSY 0).put TR_STAT_RESULT r.res).raise CPH_FLAGS_TR_DONE)

/-! ## Submission and acceptance (R289, R290) -/

/-- A write of CPH_SUBMIT by a source 1-6. -/
def State.cphSubmit (s : State) (src : Nat) (addr : W20) : State :=
  if src = 0 ∨ 6 < src then s
  else if s.cipher.waits.any (fun w => w.src == src) then s.raise CPH_FLAGS_SUBMIT_REFUSED
  else s.modCipher (fun c => { c with waits := c.waits ++ [⟨src, addr.toNat, s.tick⟩] })

/-- CPH_SUBMIT (R290). Source 0, the link assists, has no register: its requests come from MAC frames. The host
reaches the register through the hitch port alone (R131, R132). -/
def execCphSubmit (src : Fin 7) (addr : W20) (s : State) : Out := s.during s.clocked <|
  .next (if src.val = 6 then s.reachWith .host CPH_SUBMIT (fun t => t.cphSubmit 6 addr) else s.cphSubmit src.val addr)

/-- The patience class of a source (R290). -/
def cphClass (src : Nat) : Nat := if src = 0 then 0 else if src = 1 then 1 else if src ≤ 5 then 2 else 3

/-- A waiting submission is urgent: it has waited more bus cycles than its patience (R14, R290, R394). -/
def State.cphUrgent (s : State) (w : CphWait) : Bool :=
  s.get (CPH_PAT_PATIENCE (cphClass w.src)) * 48 < (s.tick - w.since) * s.busRate

/-- The first submission by a rule that says which of two goes first. -/
def cphFirst (lt : CphWait → CphWait → Bool) : List CphWait → Option CphWait
  | [] => none
  | w :: l => some (l.foldl (fun m x => if lt x m then x else m) w)

/-- The submission that takes the next free entry (R290). -/
def State.cphNext (s : State) : Option CphWait :=
  match cphFirst (fun a b => a.since < b.since || (a.since == b.since && a.src < b.src))
      (s.cipher.waits.filter s.cphUrgent) with
  | some w => some w
  | none => cphFirst (fun a b => a.src < b.src || (a.src == b.src && a.since < b.since)) s.cipher.waits

/-- Nonce and tag bytes of an operation (R288). -/
def cphNonce (op : Nat) : Nat := match op with | 1 => 13 | 2 => 13 | 3 => 12 | 4 => 12 | 5 => 16 | _ => 0
def cphTag (op tagN : Nat) : Nat := match op with | 1 => tagN | 2 => tagN | 3 => 16 | 4 => 16 | 6 => 16 | _ => 0

/-- An operand of `n` bytes lies in shared SRAM; one of no bytes lies anywhere. -/
def operandOk (a n : Nat) : Bool := n == 0 || inSram a n

/-- A request from the 24 bytes of its record (R289). -/
def CphReq.ofBytes (src recAt : Nat) (l : List Byte) : CphReq :=
  let w := tripleAt l
  { src := src, recAt := recAt, op := w 1 / 2 ^ 16, slot := w 1 / 2 ^ 10 % 64, tagN := w 1 / 2 ^ 8 % 4
    aadN := w 1 % 2 ^ 8, len := w 2 % 2 ^ 12, nonce := w 3, aad := w 4, srcAt := w 5, dst := w 6, tagAt := w 7 }

/-- Whether a slot's USE permits an operation (R281). -/
def usePermits (use op : Nat) : Bool :=
  match op with
  | 1 | 3 | 6 => use.testBit 2
  | 2 | 4 => use.testBit 1
  | 5 => use.testBit 2 || use.testBit 1
  | _ => false

/-- The first check of R289 on operands and parameters that fails. -/
def CphReq.refuse (r : CphReq) : Option Nat :=
  let tag := cphTag r.op (4 * 2 ^ r.tagN)
  let aad := if r.op ≤ 4 then r.aadN else 0
  if !operandOk r.nonce (cphNonce r.op) || !operandOk r.aad aad || !operandOk r.srcAt r.len ||
      (r.op != 6 && !operandOk r.dst r.len) || !operandOk r.tagAt tag ||
      (r.op != 6 && r.dst != r.srcAt && r.dst < r.srcAt + r.len && r.srcAt < r.dst + r.len) then some 0x25
  else if r.op = 0 ∨ 6 < r.op ∨ r.tagN = 3 ∨ ((r.op = 3 ∨ r.op = 4 ∨ r.op = 6) ∧ r.tagN ≠ 2) then some 0x24
  else if 2048 < r.len then some 0x22
  else none

/-- The checks of R289 on the slot; `permit` says that its USE permits the operation. -/
def State.slotRefuse (s : State) (k : Nat) (permit : Bool) : Option Nat :=
  if s.slotSt k = 0 ∨ !permit then some 0x23
  else if s.slotSt k = 2 then some 0x21
  else if s.test (TR_INFO_PERSIST k) ∧ s.get (TR_RESERVE_VALUE k) ≤ s.get (TR_COUNT_VALUE k) then some 0x26
  else none

/-- The flags and counters of a refusal. -/
def State.cphCount (s : State) (status : Nat) : State :=
  match status with
  | 0x21 => (s.bump CPH_CNT0_KEY_SPENT).raise CPH_FLAGS_KEY_SPENT
  | 0x22 => (s.bump CPH_CNT1_TOO_LONG).raise CPH_FLAGS_TOO_LONG
  | _ => s.bump CPH_CNT1_BAD

/-- A refused request: a record's w0 is written at once; a link request's frame ends (R289, R294). -/
def State.cphRefuse (s : State) (src recAt status : Nat) : State :=
  let t := s.cphCount status
  if src = 0 then t.macFail recAt (some status)
  else if recAt = updReqAt then t.updHears (.failed status)
  else if inSram recAt 3 then t.ramWrite .sram recAt (cphDone status)
  else t

/-- A request accepted into the queue: one use of its key, and the engine's charge (R287, R293).  An ERASE of its slot
written in this very tick is refused after all (R283; notes/assumptions/57.md). -/
def State.cphAccept (s : State) (r : CphReq) : State :=
  let erase := fun (x : TrRun) => if x.op = 4 ∧ x.slot = r.slot ∧ x.wrAt = s.tick then { x with res := 3 } else x
  (((s.slotUse r.slot).modCipher (fun c => { c with queue := c.queue ++ [r], tr := c.tr.map erase })).cqCheck).cphWork

/-- A link request (R294): its record index is the frame's number. -/
def State.linkReq (s : State) (m : Mac) : CphReq :=
  { src := 0, recAt := m.id, op := 2, slot := s.get (KEYMAP_SLOT (macKeyId m.bytes)), tagN := macMicLen m.bytes
    aadN := macHead m.bytes, len := m.len - macHead m.bytes - macMic m.bytes, nonce := 0, aad := 0, srcAt := 0, dst := 0
    tagAt := 0 }

/-- The update engine's CCM_DEC of the piece at UPD_ADDR, with DST equal to SRC (R481). -/
def State.pieceReq (s : State) : CphReq :=
  let a := ((s.update.run).map (·.addr)).getD 0
  { src := 1, recAt := updReqAt, op := 2, slot := s.get UPD_KEYS_CSLOT, tagN := 1, aadN := 8, len := 1024, nonce := 0
    aad := a, srcAt := a + 8, dst := a + 8, tagAt := a + 1032 }

/-- The free entries of the queue. -/
def State.cqFree (s : State) : Bool := s.cipher.queue.length + (if s.cipher.running.isSome then 1 else 0) < 16

/-- A record submitted by a program, the keeper or the host is judged (R289). -/
def State.cphRecord (s : State) (w : CphWait) : State :=
  if !inSram w.addr 24 then s.cphRefuse w.src w.addr 0x25
  else match s.ramRead .sram w.addr 24 with
    | (none, t) => t.cphRefuse w.src w.addr 0x25
    | (some b, t) =>
      let r := CphReq.ofBytes w.src w.addr b
      match r.refuse with
      | some c => t.cphRefuse w.src w.addr c
      | none =>
        match t.slotRefuse r.slot (usePermits (t.get (TR_INFO_USE r.slot)) r.op) with
        | some c => t.cphRefuse w.src w.addr c
        | none => t.cphAccept r

/-- CIPHER_ACCEPT (R289, R290): a waiting submission takes a free entry, after its checks. -/
def execCipherAccept (s : State) : Out := s.during s.inRun <|
  if !s.cqFree then .next s
  else match s.cphNext with
    | none => .next s
    | some w =>
      let t := s.modCipher (fun c => { c with waits := c.waits.filter (· != w) })
      if w.src = 0 then
        match t.macFind w.addr with
        | none => .next t
        | some m =>
          let r := t.linkReq m
          match t.slotRefuse r.slot ((t.get (TR_INFO_USE r.slot)).testBit 3) with
          | some c => .next (t.cphRefuse 0 w.addr c)
          | none => .next (t.cphAccept r)
      else if w.addr = updReqAt then
        match t.slotRefuse t.pieceReq.slot (usePermits (t.get (TR_INFO_USE t.pieceReq.slot)) 2) with
        | some c => .next (t.cphRefuse 1 updReqAt c)
        | none => .next (t.cphAccept t.pieceReq)
      else .next (t.cphRecord w)

/-! ## Requests run (R291, R294) -/

/-- Whether a request needs a hold half. -/
def CphReq.holds (r : CphReq) : Bool := r.op == 2 || r.op == 4

/-- The operands of a request, in the order in which they are read (R288, R289): nonce, AAD, source and received tag;
of a link request, its frame in the receive buffer (R294). -/
def State.operands (s : State) (r : CphReq) : List (Nat × Nat) :=
  if r.src = 0 then
    match s.macFind r.recAt with
    | some m => [(s.bufAt (poolIx m.pool) m.idx, m.len)]
    | none => []
  else if r.recAt = updReqAt then [(r.aad, 1040)]
  else
    [(r.nonce, cphNonce r.op), (r.aad, if r.op ≤ 4 then r.aadN else 0), (r.srcAt, r.len),
      (r.tagAt, if r.holds then cphTag r.op (4 * 2 ^ r.tagN) else 0)]

/-- A request starts, in hold half `h` where it has one: its operands are read through channel 13. -/
def State.cphBegin (s : State) (r : CphReq) (rest : List CphReq) (h : Option Nat) : State :=
  let t := s.modCipher (fun c => { c with
    queue := rest, running := some (r, h), got := []
    half0 := if h = some 0 then some r.slot else c.half0, half1 := if h = some 1 then some r.slot else c.half1 })
  (s.operands r).foldl (fun t o => t.dmaRead 1 o.1 o.2 (.operand r.src r.recAt)) t

/-- CIPHER_REQUEST_START (R291): the oldest queued request, with a hold half where it needs one. -/
def execCipherRequestStart (s : State) : Out := s.during s.inRun <|
  match s.cipher.queue with
  | [] => .next s
  | r :: rest =>
    if s.cipher.running.isSome ∨ !s.holds 14 then .next s
    else if !r.holds then .next (s.cphBegin r rest none)
    else if s.cipher.half0.isNone then .next (s.cphBegin r rest (some 0))
    else if s.cipher.half1.isNone then .next (s.cphBegin r rest (some 1))
    else .next s

/-- The nonce and the authenticated bytes of a link request (R251). -/
def macNonce (l : List Byte) : List Byte :=
  (l.drop 8).take 8 ++ (l.drop 2).take 2 ++ [BitVec.ofNat 8 (macMicLen l * 64 + macKeyId l), 0, 0]
def macAad (l : List Byte) : List Byte := if macFlood l then l.take 23 ++ [0] else l.take 16

/-- The end of a link request (R291, R294): on a match the plaintext goes to the receive buffer, through channel 13;
otherwise the half is freed and the STATUS is AUTH_FAIL. -/
def State.linkEnd (s : State) (r : CphReq) (half : Nat) (got : List Byte) : State :=
  match s.macFind r.recAt with
  | none => s.halfFree half
  | some m =>
    let key := s.slotBytes r.slot
    let h := macHead m.bytes
    let plain := ccmXor key (macNonce m.bytes) ((got.drop h).take r.len)
    let tag := (got.drop (m.len - macMic m.bytes)).take (macMic m.bytes)
    if ccmTag key (macNonce m.bytes) (macAad got) plain (macMic m.bytes) = tag then
      let t := s.macPlain m.id plain
      if plain.isEmpty then (t.halfFree half).macOpened m.id
      else t.dmaWrite 1 (t.bufAt (poolIx m.pool) m.idx + h) plain (.linkOut m.id half)
    else (((s.halfFree half).bump CPH_CNT0_AUTH_FAIL).raise CPH_FLAGS_AUTH_FAIL).macFail m.id (some 0x20)

/-- Output bytes of a request, through channel 13. -/
def State.cphOut (s : State) (r : CphReq) (half a : Nat) (l : List Byte) : State :=
  if l.isEmpty then s.halfFree half
  else s.dmaWrite 1 a l (.cipherOut r.recAt half)

/-- The nonce of a piece from its header (R480). -/
def pieceNonce (h : List Byte) : List Byte := h.take 7 ++ [0x55, 0x50, 0x44, 0, 0, 0]

/-- The end of the update engine's request (R481): on a match its plaintext is written over the piece; otherwise the
half is zeroed. -/
def State.pieceEnd (s : State) (r : CphReq) (half : Nat) (got : List Byte) : State :=
  let h := got.take 8
  let key := s.slotBytes r.slot
  let plain := ccmXor key (pieceNonce h) ((got.drop 8).take 1024)
  if ccmTag key (pieceNonce h) h plain 8 = got.drop 1032 then
    (s.updHears (.out plain)).cphOut r half r.dst plain
  else (((s.halfFree half).bump CPH_CNT0_AUTH_FAIL).raise CPH_FLAGS_AUTH_FAIL).updHears (.failed 0x20)

/-- w0 of a request's record, written last. -/
def State.cphEnd (s : State) (r : CphReq) (status : Nat) : State :=
  s.dmaWrite 1 r.recAt (cphDone status) (.cipher r.recAt)

/-- A request's result: its output and tag, or the failure of a received tag (R288, R291). -/
def State.cphResult (s : State) (r : CphReq) (half : Nat) (nonce aad data tag : List Byte) : State :=
  let key := s.slotBytes r.slot
  let m := 4 * 2 ^ r.tagN
  let ok := fun (t : State) => t.cphEnd r 0
  let bad := (((s.halfFree half).bump CPH_CNT0_AUTH_FAIL).raise CPH_FLAGS_AUTH_FAIL).cphEnd r 0x20
  match r.op with
  | 1 => ok ((s.cphOut r 2 r.dst (ccmXor key nonce data)).cphOut r 2 r.tagAt (ccmTag key nonce aad data m))
  | 2 =>
    let p := ccmXor key nonce data
    if ccmTag key nonce aad p m = tag then ok (s.cphOut r half r.dst p) else bad
  | 3 =>
    let c := gcmXor key nonce data
    ok ((s.cphOut r 2 r.dst c).cphOut r 2 r.tagAt (gcmTag key nonce aad c))
  | 4 => if gcmTag key nonce aad data = tag then ok (s.cphOut r half r.dst (gcmXor key nonce data)) else bad
  | 5 => ok (s.cphOut r 2 r.dst (ctrXor key (incr32 nonce) data))
  | _ => ok (s.cphOut r 2 r.tagAt (cbcMacOp key data))

/-- CIPHER_REQUEST_DONE (R291, R292): the result of the running request, once every operand has been read. -/
def execCipherRequestDone (s : State) : Out := s.during s.inRun <|
  match s.cipher.running with
  | none => .next s
  | some (r, h) =>
    let ns := (s.operands r).map (·.2)
    if s.cipher.got.length < ns.sum then .next s
    else
      let got := s.cipher.got
      let half := h.getD 2
      let t := (s.modCipher (fun c => { c with running := none, got := [] })).cqCheck
      if r.src = 0 then .next (t.linkEnd r half got)
      else if r.recAt = updReqAt then .next (t.pieceEnd r half got)
      else
        let op := fun k => (got.drop (ns.take k).sum).take ((ns[k]?).getD 0)
        .next (t.cphResult r half (op 0) (op 1) (op 2) (op 3))

/-- The last word of a record is acknowledged: the program's request is complete. -/
def State.cphAcked (s : State) : State := s.raise CPH_FLAGS_DONE

/-- A keeper order works with the hash and public-key engine: BOOT and the trust orders (R293, R302, R448). -/
def KOrder.engine (o : KOrder) : Bool :=
  o.res != 8 && (o.code == 1 || o.code == 0x10 || o.code == 0x11 || o.code == 0x13)

/-- The cipher engine, the hash and public-key engine and the TRNG are idle with the queue empty (R293). -/
def State.cphQuiet (s : State) : Bool :=
  s.cipher.queue.isEmpty && s.cipher.running.isNone && s.cipher.half0.isNone && s.cipher.half1.isNone &&
    s.cipher.hpk.isNone && !s.cipher.tr.any (fun r => trWork r.op) && !s.cipher.trngRun && s.cipher.trngTest.isNone &&
    s.update.run.isNone && !s.keeper.order.any KOrder.engine

/-- A tick in which there is work for holder 14 (R293). -/
def State.cphTouch (s : State) : State :=
  if s.cphQuiet then s else s.modCipher (fun c => { c with workAt := s.tick })

/-- CIPHER_IDLE (R293): in the tick after they become idle. -/
def execCipherIdle (s : State) : Out := s.during s.inRun <|
  .next (if s.cphQuiet ∧ s.cipher.workAt < s.tick ∧ s.holds 14 then
    (s.drop [14]).modCipher (fun c => { c with gaveAt := some s.tick }) else s)

/-! ## Hash and public key (R295, R296) -/

/-- Operand bytes of the hash and public-key engine; an access that errs stops the DMA channels (R12, R295). -/
def State.hpkRead (s : State) (a n : Nat) : Option (List Byte) × State :=
  match s.wideRead 3 a n with
  | (0, l, t) => (some l, t)
  | (e, _, t) => (none, t.dmaStop 0 e a none)

/-- A command that ends with a RESULT and writes nothing. -/
def HpkRun.plain (op res : Nat) : HpkRun := { op := op, res := res, left := 0, out := [], outAt := 0 }

/-- HASH_UPDATE: a run of reads of one 64-byte line each through channel 15 (R337). -/
def State.hashUpdate (s : State) : HpkRun × State :=
  let n := s.get HPK_LEN_VALUE
  ({ HpkRun.plain 2 0 with left := n }, s.dmaRead 4 (s.get40 HPK_WLO HPK_WHI).toNat n .hashLine)

/-- VERIFY. -/
def State.hpkVerify (s : State) : HpkRun × State :=
  match s.hpkRead (s.get HPK_A_ADDR) 64 with
  | (none, t) => (HpkRun.plain 4 3, t)
  | (some q, t) => match t.hpkRead (s.get HPK_B_ADDR) 32 with
    | (none, t) => (HpkRun.plain 4 3, t)
    | (some e, t) => match t.hpkRead (s.get HPK_C_ADDR) 64 with
      | (none, t) => (HpkRun.plain 4 3, t)
      | (some g, t) =>
        let x := ofBytesBE (q.take 32)
        let y := ofBytesBE (q.drop 32)
        (HpkRun.plain 4 (if !onCurve x y then 2 else if ecdsaVerify x y e g then 0 else 1), t)

/-- SIGN_ID (R296). -/
def State.hpkSign (s : State) : HpkRun × State :=
  if 16 ≤ s.get TRUST_STATE_ID_USES then (HpkRun.plain 5 4, s)
  else if s.test TRNG_STAT_FAIL then (HpkRun.plain 5 5, s)
  else match s.hpkRead (s.get HPK_B_ADDR) 32 with
    | (none, t) => (HpkRun.plain 5 3, t)
    | (some e, t) =>
      let (k, t) := t.fresh
      ({ op := 5, res := 0, left := 0, out := ecdsaSign s.otp.d.toNat (ecScalar (Config.freeKey k)) e, outAt := s.get HPK_C_ADDR },
        t.bump TRUST_STATE_ID_USES)

/-- HPK_STAT.BUSY: a command runs, an update command or BOOT has the engine, or first light has not committed (R442,
R448, R496). -/
def State.hpkBusy (s : State) : Bool :=
  s.cipher.hpk.isSome || s.updHolds || s.keeper.order.any KOrder.boots || !s.otp.lit

/-- A write of HPK_CMD; `priv` for SIGN_ID, which task mode and the host may not give. -/
def State.hpkCmd (s : State) (priv : Bool) (op : Nat) : State :=
  if s.hpkBusy then s.put HPK_STAT_REFUSED 1
  else if op = 0 ∨ 6 < op ∨ (op = 5 ∧ !priv) then s
  else
    let (r, t) := match op with
      | 1 => (HpkRun.plain 1 0, s.modCipher (fun c => { c with sha := ShaCtx.reset }))
      | 2 => s.hashUpdate
      | 3 => ({ op := 3, res := 0, left := 0, out := s.cipher.sha.final, outAt := s.get HPK_A_ADDR }, s)
      | 4 => s.hpkVerify
      | 5 => s.hpkSign
      | _ => ({ op := 6, res := 0, left := 0, out := s.idRecord, outAt := s.get HPK_A_ADDR }, s)
    (t.modCipher (fun c => { c with hpk := some r })).cphWork

def execHashInit (s : State) : Out := s.during s.clocked <| .next (s.hpkCmd true 1)
def execHashUpdate (s : State) : Out := s.during s.clocked <| .next (s.hpkCmd true 2)
def execHashFinal (s : State) : Out := s.during s.clocked <| .next (s.hpkCmd true 3)
def execHpkVerify (s : State) : Out := s.during s.clocked <| .next (s.hpkCmd true 4)
def execHpkSignId (src : Source) (s : State) : Out := s.during s.clocked <|
  .next (s.reachWith src HPK_CMD (fun t => t.hpkCmd (privCore src) 5))
def execHpkIdRecord (s : State) : Out := s.during s.clocked <| .next (s.hpkCmd true 6)

/-- HPK_COMMAND_DONE (R293, R295): with the engine's charge held. -/
def execHpkCommandDone (s : State) : Out := s.during s.inRun <|
  match s.cipher.hpk with
  | none => .next s
  | some r =>
    if !s.holds 14 || r.left != 0 then .next s
    else
      let t := s.modCipher (fun c => { c with hpk := none })
      let (res, t) := if r.out.isEmpty then (r.res, t)
        else match t.wideWrite 3 r.outAt r.out with
          | (0, u) => (r.res, u)
          | (e, u) => (3, u.dmaStop 1 e r.outAt none)
      .next ((t.put HPK_STAT_RESULT res).raise HPK_STAT_DONE)

/-! ## The TRNG (R297) -/

/-- What the TRNG has under way is done while its charge is held: the start-up tests of a RESTART, of whose failure
RCT and APT tell, and 256 fresh bits (R293, R297; notes/assumptions/67.md). -/
def State.trngStep (s : State) : State :=
  if !s.holds 14 then s
  else
    let t := match s.cipher.trngTest with
      | none => s
      | some true => (s.put TRNG_STAT_FAIL 0).modCipher (fun c => { c with trngTest := none })
      | some false =>
        let (n, t) := (s.modCipher (fun c => { c with trngTest := none })).fresh
        let rct := Config.freeBit n 0
        let t := if rct then t.put TRNG_STAT_RCT 1 else t
        let t := if !rct || Config.freeBit n 1 then t.put TRNG_STAT_APT 1 else t
        (t.put TRNG_STAT_FAIL 1).report 16 0
    if t.cipher.trngRun && !t.test TRNG_STAT_FAIL then
      t.modCipher (fun c => { c with trngN := 16, trngRun := false })
    else t

/-- A read of TRNG_DATA: 16 of the bits that are ready, with VALID; without any, and while FAIL is set, VALID 0. The
TRNG makes more once none is left (R293, R297; notes/assumptions/67.md). -/
def State.trngRead (s : State) : W20 × State :=
  if s.test TRNG_STAT_FAIL then (0, s)
  else
    let t := if s.cipher.trngN ≤ 1 then (s.modCipher (fun c => { c with trngRun := true })).cphWork else s
    if s.cipher.trngN = 0 then (0, t)
    else
      let (k, u) := t.fresh
      (0x80000 ||| (Config.freeW20 k &&& 0xFFFF), u.modCipher (fun c => { c with trngN := c.trngN - 1 }))

def execTrngDataRead (s : State) : Out := s.during s.clocked <| .next s.trngRead.2

/-- TRNG_HEALTH_FAIL (R297). -/
def execTrngHealthFail (rct apt : Bool) (s : State) : Out := s.during s.inRun <|
  if !rct ∧ !apt then .next s
  else
    let t := (s.put TRNG_STAT_FAIL 1).modCipher (fun c => { c with trngN := 0, trngRun := false })
    let t := if rct then t.put TRNG_STAT_RCT 1 else t
    let t := if apt then t.put TRNG_STAT_APT 1 else t
    .next (t.report 16 0)

/-- RESTART reruns the start-up tests, once the TRNG has its charge (R293, R297): FAIL clears when they pass. -/
def State.trngRestart (s : State) (passed : Bool) : State :=
  ((s.modCipher (fun c => { c with trngTest := some passed })).cphWork).trngStep

def execTrngRestart (passed : Bool) (s : State) : Out := s.during s.clocked <| .next (s.trngRestart passed)

end Sys2Proof.Machine
end

