-- ==== Sys2Proof/Machine/YardEnd.lean ====
section
/-! DEFINITION. Acknowledgements of the DMA engine's accesses (R345, R346, R348), and the yard commands that answer
requests of the engine: disabling, retirement, replay, self-refresh, supply loss and repair (spec/17). -/

namespace Sys2Proof.Machine

/-! ## Which channels wait for a grant (R345) -/

/-- The credits that channel `n` holds. -/
def State.credHeld (s : State) (n : Nat) : Nat := (s.dma.credits.filter (fun c => c.ch == n)).length

/-- CREDMAX: 0 taken as 1, above 64 as 64. -/
def State.credMax (s : State) (n : Nat) : Nat := max 1 (min 64 (s.get (DMA_CH_CFG_CREDMAX n)))

/-- The queues of a block channel, the one that goes first at the head (R337). -/
def blkQueues : Nat → List (Fin 5)
  | 12 => [0] | 13 => [1] | 14 => [2] | 15 => [3, 4]
  | _ => []

/-- Channel `n` has a chunk to read. -/
def State.dmaHasChunk (s : State) (n : Nat) : Bool :=
  if n < 12 then
    s.dmaSt n == 2 && (match s.dmaDesc n with
      | some d => d.read < d.len && !d.aborted
      | none => false)
  else (blkQueues n).any (fun q => !s.dma.blk[q].isEmpty)

/-- A chunk ready and room under CREDMAX. -/
def State.dmaReady (s : State) (n : Nat) : Bool := s.dmaHasChunk n && s.credHeld n < s.credMax n

/-- A channel that is not ready now has waited since no earlier than now. -/
def State.dmaTouch (s : State) : State :=
  (List.range 16).foldl (fun t n =>
    if s.dmaReady n then t else t.modDma (fun d => { d with since := d.since.setIfInBounds n s.tick })) s

/-! ## Acknowledgements -/

/-- The client of a block transfer is told that its last byte is in place (R188, R194, R291, R294, R324). -/
def State.dmaTold (s : State) (t : XferTag) : State :=
  match t with
  | .record p i =>
    if s.desc (poolIx p) i = .frame then
      (s.descSet (poolIx p) i .program).raise (if p = 0 then STC_FLAGS_DONE0 else STC_FLAGS_DONE1)
    else s
  | .macIn id => s.macSubmit id
  | .linkOut id h => (s.halfFree h).macOpened id
  | .cipherOut r h => if r = updReqAt then (s.halfFree h).pieceOut else s.halfFree h
  | .cipher _ => s.cphAcked
  | .chordRx j _ => s.captured j
  | _ => s

/-- Bytes of the descriptor in progress written and acknowledged. -/
def State.dmaCount (s : State) (n len hop : Nat) : State :=
  if n < 12 ∧ s.get (DMA_CH_HOPS_VALUE n) = hop then
    s.put (DMA_CH_DONE_VALUE n) (s.get (DMA_CH_DONE_VALUE n) + len)
  else s

/-- A credit whose writes have all been issued and acknowledged returns (R345). -/
def State.credReturn (s : State) (c : Credit) : State :=
  let t := (s.modDma (fun d => { d with credits := d.credits.filter (fun x => x.id != c.id) })).credCheck
  if c.fin then t.dmaTold c.tag else t

/-- The bytes of a block's read reach it (R291, R295, R322). -/
def State.dmaGot (s : State) (t : XferTag) (l : List Byte) : State :=
  match t with
  | .operand _ _ => s.modCipher (fun c => { c with got := c.got ++ l })
  | .hashLine => s.modCipher (fun c => { c with
      sha := c.sha.update l, hpk := c.hpk.map (fun h => { h with left := h.left - l.length }) })
  | .chordTx k =>
    if s.chord.halter = some k ∨ s.chord.bay.bind (·.drive) = some k then
      (s.modChord (fun c => { c with txGot := c.txGot ++ l })).driveMore (chordBytes l)
    else s
  | _ => s

/-- A chunk that a block has read is handed over, and its credit returns. -/
def State.readGive (s : State) (c : Credit) : State :=
  (s.dmaGot c.tag (c.data.getD [])).credReturn { c with fin := false }

/-- The chunks of blocks' reads that have arrived are handed over, in each channel's order (R337). -/
def State.readSweep (s : State) : State :=
  let rs := s.dma.credits.filter (·.rd)
  (rs.filter (fun c => !rs.any (fun x => x.ch == c.ch && x.id ≤ c.id && x.data.isNone))).foldl State.readGive s

/-- The credits that are done return. -/
def State.credSweep (s : State) : State :=
  (s.dma.credits.filter (fun c => c.wrote && c.wids.isEmpty)).foldl State.credReturn s

/-- A yard write is acknowledged. DONE counts bytes in their order, so what is acknowledged before an earlier write of
the same descriptor counts with that one (R350). -/
def State.ackWrite (s : State) (a : DmaAck) : State :=
  let before := s.dma.acks.takeWhile (fun x => x.wid != a.wid)
  let rest := s.dma.acks.filter (fun x => x.wid != a.wid)
  let t := s.dmaTouch.modDma (fun d => { d with
    credits := d.credits.map (fun c => { c with wids := c.wids.filter (fun w => w != a.wid) }) })
  let t := match before.reverse.find? (fun x => x.ch == a.ch && x.hop == a.hop) with
    | some e => t.modDma (fun d => { d with
        acks := rest.map (fun (x : DmaAck) => if x.wid = e.wid then { x with len := x.len + a.len } else x) })
    | none => (t.modDma (fun d => { d with acks := rest })).dmaCount a.ch a.len a.hop
  t.credSweep

/-- The bus address of a yard offset. -/
def yardBus (q : Nat) : Nat := 0x100000000 + q

/-- An answer of the yard reaches the engines (R345, R348): read data enters its credit, a write is acknowledged, and
an error stops every channel. An answer for a credit that a stop discarded is dropped. -/
def State.dmaAnswer (s : State) (r : YReq) : State :=
  if r.wr then
    match s.dma.acks.find? (fun a => a.wid == r.id) with
    | none => s
    | some a =>
      if r.status = 0 then s.ackWrite a
      else (s.modDma (fun d => { d with acks := d.acks.filter (fun x => x.wid != r.id) })).dmaStop 1
        (if r.status = 2 then 4 else 2) (yardBus r.q) none
  else if s.dma.credits.any (fun c => c.rid == some r.id && c.data.isNone) then
    if r.status = 0 then
      (s.modDma (fun d => { d with
        credits := d.credits.map (fun c => if c.rid = some r.id then { c with data := some r.data } else c) })).readSweep
    else s.dmaStop 0 (if r.status = 2 then 4 else 2) (yardBus r.q) none
  else s

def State.dmaAnswers (s : State) (l : List YReq) : State := l.foldl State.dmaAnswer s

/-- A yard operation's answers delivered. -/
def deliver (p : State × List YReq) : State := p.1.dmaAnswers p.2

/-! ## The yard commands -/

/-- YARD_DISABLE (R423): EN := 0.  DEDUCED: it takes a yard that has FAILED to OFF, whatever EN reads
(notes/assumptions/58.md). -/
def State.yardStop (s : State) : State := if s.test YRD_CTL_EN ∨ s.yst = yFAILED then deliver s.yardTurnOff else s

def execYardDisable (s : State) : Out := s.during s.clocked <| .next s.yardStop

/-- The oldest unretired command of a channel retires, and the answers on their way reach the engines (R427). -/
def State.yardRetire (s : State) (c : Nat) : State :=
  let t := s.yardRetire1 c
  (t.modYch c (fun y => { y with done := [] })).dmaAnswers (t.ych c).done

/-- COMMAND_RETIRE (R427). -/
def execYardCommandRetire (ch : Fin 2) (s : State) : Out := s.during s.inRun <| .next (s.yardRetire ch.val)

/-- ALERT (R427): the unretired commands are replayed; the third alert in a row with no retirement fails the yard. -/
def State.yardAlert (s : State) (c : Nat) : State :=
  if s.yst ≠ yREADY then s
  else if 2 ≤ (s.ych c).alerts then
    (deliver (s.raise YRD_FLAGS_REPLAY_FAIL).yardFail).report 23 (BitVec.ofNat 20 c)
  else
    let n := (s.ych c).cmds.length
    let t := s.modYch c (fun y => { y with alerts := y.alerts + 1, replay := n, openRow := [] })
    let t := (t.bump YRD_CNT1_REPLAY).raise YRD_FLAGS_REPLAY
    if n = 0 then t.report 22 (BitVec.ofNat 20 c) else t

def execYardAlert (ch : Fin 2) (s : State) : Out := s.during s.inRun <| .next (s.yardAlert ch.val)

/-- SELF_REFRESH_ENTER (R428). -/
def execYardSelfRefreshEnter (s : State) : Out := s.during s.clocked <| .next (deliver s.yardRest)

/-- SUPPLY_LOST (R430). -/
def execYardSupplyLost (s : State) : Out := s.live <| .next (deliver s.yardLostSupply)

/-- SOFT_REPAIR and HARD_REPAIR (R433): a write of START with HARD as the command names it. -/
def execYardSoftRepair (v : W20) (noResource : Bool) (s : State) : Out := s.during s.clocked <|
  .next (deliver (s.yardRepair (v &&& 0xBFFFF) noResource))

def execYardHardRepair (v : W20) (noResource : Bool) (s : State) : Out := s.during s.clocked <|
  .next (deliver (s.yardRepair (v ||| 0x40000) noResource))

/-- A write of YRD_PPRCMD; what the device's MPR page would report is open (notes/assumptions/6.md). -/
def State.yardPprWrite (s : State) (v : W20) : State :=
  if v.getLsbD 19 then
    let (k, t) := s.fresh
    deliver (t.yardRepair v ((Config.freeW20 k).getLsbD 0))
  else s.setRg YRD_PPRCMD (s.rg YRD_PPRCMD &&& 0x83FFF ||| (v &&& 0x7C000))

/-- A write of YRD_CTL that is not discarded (R422, R423, R426, R428, R431). -/
def State.yardCtlTake (s : State) (v : W20) : State :=
  let prot := s.rg YRD_CTL &&& 0x00006
  let t := if v &&& 0x00006 = prot then s
    else if s.yardIdle then s.setRg YRD_CTL (s.rg YRD_CTL &&& 0xFFFF9 ||| (v &&& 0x00006))
    else s.raise YRD_FLAGS_CFG_REFUSED
  let t := if v.getLsbD 0 then t.yardTurnOn else t.yardStop
  let t := if v.getLsbD 3 then (if t.yst = yREADY then deliver t.yardRest else t.put YRD_CTL_SR 1)
    else if t.yst = ySELF then t.yardWake else t.put YRD_CTL_SR 0
  let t := if v.getLsbD 4 then t.yardRetrainNow else t
  if v.getLsbD 5 then t.yardInitNow else t

/-- A write of YRD_CTL: one of EN := 1 that R421 refuses is discarded whole. -/
def State.yardCtl (s : State) (v : W20) : State :=
  let enc := if s.yardIdle then v.getLsbD 2 else s.test YRD_CTL_ENC
  if v.getLsbD 0 && !s.test YRD_CTL_EN &&
      (!s.test SUP_STAT_VDDQ || !s.test SUP_STAT_VPP || (enc && s.test TRNG_STAT_FAIL)) then
    s.raise YRD_FLAGS_CFG_REFUSED
  else s.yardCtlTake v

/-! ## What the devices store (R431, R432) -/

/-- A tweak times alpha in GF(2^128), little-endian (IEEE 1619; notes/assumptions/17.md). -/
def xtsDouble (t : Nat) : Nat := if 2 ^ 127 ≤ t then Nat.xor (2 * t - 2 ^ 128) 0x87 else 2 * t

/-- The blocks of a data unit under XTS, from the tweak `t` on. -/
def xtsBlocks (key : List Byte) : Nat → List (List Byte) → List Byte
  | _, [] => []
  | t, b :: l =>
    let w := toBytesLE 16 t
    xorBytes (aesEnc key (xorBytes b w)) w ++ xtsBlocks key (xtsDouble t) l

/-- A data unit of number `n` encrypted with XTS-AES-128. -/
def xtsEnc (k1 k2 : List Byte) (n : Nat) (l : List Byte) : List Byte :=
  xtsBlocks k1 (ofBytesBE (aesEnc k2 (toBytesLE 16 n)).reverse) (blocks16 l)

/-- The 64 bytes that channel `c` stores for the line of channel-local address `a`: the line itself, or with ENC its
XTS-AES-128 ciphertext under the tweak of R432.  `Yard.bytes` holds what the keys make of them. -/
def State.yardStored (s : State) (c a : Nat) : List Byte :=
  let l := (List.range 64).map (fun i => s.yardRead1 (s.yardKeyAt c (a / 64 * 64 + i)))
  match s.yard.keys with
  | some k => xtsEnc (toBytesBE 16 (k.toNat / 2 ^ 128)) (toBytesBE 16 (k.toNat % 2 ^ 128)) (2 ^ 32 * c + a / 64) l
  | none => l

/-- The channel-local address of the check byte of the data word at `a`, below 7D/8 (R431). -/
def State.yardChkAddr (s : State) (a : Nat) : Nat := 7 * s.yardD / 8 + a / 8

/-- The check byte of the data word at channel-local address `a` of channel `c`: that of its stored bytes, or none
that is one of theirs where the word holds an error or is poisoned (R431). -/
def State.yardCheckByte (s : State) (c a : Nat) : Option Byte :=
  match s.yardChk (s.yardKeyAt c a) with
  | .good => some (Config.hsiao (BitVec.ofNat 64 (ofBytesLE (((s.yardStored c a).drop (a % 64 / 8 * 8)).take 8))))
  | _ => none

end Sys2Proof.Machine
end

