-- ==== Sys2Proof/Machine/Journal.lean ====
section
/-! DEFINITION. What the external flash and OTP hold for the keeper and the update engine: the update region, the
journal, the stored manifest and the receipts (R473-R484), loader images (R447), roots, floors and the boot counter
(R302, R443, R444, R450). -/

namespace Sys2Proof.Machine

/-- The big-endian number in `n` bytes at offset `o`. -/
def beAt (l : List Byte) (o n : Nat) : Nat := ofBytesBE ((l.drop o).take n)

/-! ## Areas (R473, R474) -/

/-- The size of each of a part's areas in bytes. -/
def State.areaSize (s : State) (p : Nat) : Nat := if p = 0 then 0x40000 else s.get (UPD_AREA_SIZE (p - 1)) * 0x10000

def State.areaBase (s : State) (p : Nat) : Nat := if p = 0 then 0 else s.get (UPD_AREA_BASE (p - 1)) * 0x10000

def State.previousAt (s : State) (p : Nat) : Nat := s.areaBase p + s.areaSize p

def State.stagingAt (s : State) (p : Nat) : Nat := s.areaBase p + 2 * s.areaSize p

/-- Part `p` has its areas where R474 allows them. -/
def State.areaOk (s : State) (p : Nat) : Bool :=
  p == 0 || (s.areaSize p != 0 && 0x200000 ≤ s.areaBase p && s.areaBase p + 3 * s.areaSize p ≤ s.flashSize)

/-- The flash cannot take updates (R474). -/
def State.flashUnfit (s : State) : Bool :=
  !s.test FLC_INFO_PRESENT || 16 < s.get FLC_INFO_ERASE_LOG2 || s.get FLC_INFO_SIZE_LOG2 < 21

/-- `n` bytes rounded up to whole erase blocks. -/
def State.wholeBlocks (s : State) (n : Nat) : Nat :=
  ceilDiv n (2 ^ s.get FLC_INFO_ERASE_LOG2) * 2 ^ s.get FLC_INFO_ERASE_LOG2

/-! ## The engine's flash operations (R20, R488) -/

def State.setFuse (s : State) (n : Option Nat) : State := { s with update := { s.update with fuse := n } }

/-- The flash has failed the engine, or a reset has cut it short: no operation follows. -/
def State.flashDead (s : State) : Bool := s.update.fuse == some 0

/-- One operation of the engine: it succeeds, is the torn one, or comes after it and does not begin. -/
def State.flashDo (s : State) (op : FlashOp) : State :=
  match s.update.fuse with
  | none => s.flashApply op
  | some 0 => s
  | some 1 => (s.flashTorn op).setFuse (some 0)
  | some (n + 2) => (s.flashApply op).setFuse (some (n + 1))

def State.updErase (s : State) (f n : Nat) : State := s.flashDo ⟨true, f, n, []⟩

def State.updProgram (s : State) (f : Nat) (l : List Byte) : State := s.flashDo ⟨false, f, l.length, l⟩

/-- A copy between areas: the destination's blocks that cover `n` bytes are erased and then programmed (R486). -/
def State.flashCopy (s : State) (src dst n : Nat) : State :=
  let m := s.wholeBlocks n
  (s.updErase dst m).updProgram dst (s.flashBytes src m)

/-- The manifest's region. -/
def manifestAt : Nat := 0x100000
def manifestMark : Nat := 0x100400
def manifestCode : List Byte := [0x4D, 0x53, 0x54, 0x44]

/-! ## Receipts (R474, R481) -/

def receiptAt (p : Nat) : Nat := 0x110000 + 0x4000 * p

/-- Piece `i` of part `p` is committed. -/
def State.received (s : State) (p i : Nat) : Bool := s.flashByte (receiptAt p + i) == 0x5A

/-- The number of a part's committed pieces. -/
def State.receivedCount (s : State) (p : Nat) : Nat :=
  (s.flash.filter (fun e => receiptAt p ≤ e.1 && e.1 < receiptAt p + 0x4000 && e.2 == 0x5A)).length

/-- The number of pieces of an image of `n` bytes (R480). -/
def pieceCount (n : Nat) : Nat := ceilDiv n 1024

/-- Every piece of an image of `n` bytes is committed. -/
def State.receivedAll (s : State) (p n : Nat) : Bool := (List.range (pieceCount n)).all (s.received p)

/-- A piece's bytes programmed into staging, and then its receipt (R481). -/
def State.commitPiece (s : State) (p i : Nat) (data : List Byte) : State :=
  (s.updProgram (s.stagingAt p + 1024 * i) data).updProgram (receiptAt p + i) [0x5A]

/-! ## The journal (R484) -/

/-- What a journal record says of a part; its SEQ stands beside it. -/
structure PartRec where
  part     : Nat
  phase    : Nat
  tries    : Nat
  limit    : Nat
  active   : Nat
  target   : Nat
  campaign : Nat
  boot     : Nat
  prev     : Nat
deriving DecidableEq, Repr

def journalCode : List Byte := [0x4A, 0x52, 0x4E, 0x31]

/-- The base of a journal half. -/
def journalHalf (h : Nat) : Nat := 0xC0000 + 0x20000 * h

/-- The offsets of the committed records of both halves, rising. -/
def State.journalAt (s : State) : List Nat :=
  ((s.flash.filter (fun e => 0xC0000 ≤ e.1 && e.1 < 0x100000 && e.1 % 32 == 28)).map (fun e => e.1 - 28)).filter
    (fun o => s.flashBytes (o + 28) 4 == journalCode)

/-- SEQ of the record at an offset. -/
def State.seqAt (s : State) (o : Nat) : Nat := beAt (s.flashBytes o 3) 0 3

/-- A record's fields from its bytes. -/
def PartRec.ofBytes (l : List Byte) : PartRec :=
  { part := beAt l 3 1, phase := beAt l 4 1, tries := beAt l 5 1, limit := beAt l 6 1, active := beAt l 8 4
    target := beAt l 12 4, campaign := beAt l 16 4, boot := beAt l 20 4, prev := beAt l 24 4 }

/-- A record's bytes before its commit code. -/
def PartRec.toBytes (r : PartRec) (seq : Nat) : List Byte :=
  toBytesBE 3 seq ++ toBytesBE 1 r.part ++ toBytesBE 1 r.phase ++ toBytesBE 1 r.tries ++ toBytesBE 1 r.limit ++ [0] ++
    toBytesBE 4 r.active ++ toBytesBE 4 r.target ++ toBytesBE 4 r.campaign ++ toBytesBE 4 r.boot ++ toBytesBE 4 r.prev

/-- The offset with the highest SEQ among some records. -/
def State.lastOf (s : State) (l : List Nat) : Option Nat :=
  l.foldl (fun m o => match m with
    | none => some o
    | some q => if s.seqAt q < s.seqAt o then some o else some q) none

/-- The latest record of part `p`. -/
def State.latestRec (s : State) (p : Nat) : Option PartRec :=
  (s.lastOf (s.journalAt.filter (fun o => s.flashByte (o + 3) == BitVec.ofNat 8 p))).map
    (fun o => PartRec.ofBytes (s.flashBytes o 32))

/-- The state of part `p`; a part with no record is IDLE with version 0, the loader with KMB_VER (R479). -/
def State.partRec (s : State) (p : Nat) : PartRec :=
  (s.latestRec p).getD
    { part := p, phase := 0, tries := 0, limit := 0
      active := if p = 0 then (s.get32 KMB_VERLO KMB_VERHI).toNat else 0
      target := 0, campaign := 0, boot := 0, prev := 0 }

def State.phase (s : State) (p : Nat) : Nat := (s.partRec p).phase

/-- Part `p` is SAVED or TRIAL. -/
def State.installing (s : State) (p : Nat) : Bool := s.phase p == 3 || s.phase p == 4

/-- SEQ of the next record. -/
def State.nextSeq (s : State) : Nat := (s.journalAt.map s.seqAt).foldl max 0 + 1

/-- The half that holds the newest record. -/
def State.journalNow (s : State) : Nat := ((s.lastOf s.journalAt).map (fun o => (o - 0xC0000) / 0x20000)).getD 0

/-- The records that a half holds, torn ones included. -/
def State.journalUsed (s : State) (h : Nat) : Nat :=
  (s.flash.filter (fun e => journalHalf h ≤ e.1 && e.1 < journalHalf h + 0x20000)).foldl
    (fun n e => max n ((e.1 - journalHalf h) / 32 + 1)) 0

/-- A record programmed at slot `n` of half `h`: its data, then its commit code (R20). -/
def State.recordAt (s : State) (h n seq : Nat) (r : PartRec) : State :=
  (s.updProgram (journalHalf h + 32 * n) (r.toBytes seq)).updProgram (journalHalf h + 32 * n + 28) journalCode

/-- A full half: the other is erased and takes each part's latest record, and then the full half is erased. -/
def State.journalMove (s : State) : State :=
  let h := s.journalNow
  let k := (h + 1) % 2
  let recs := (List.range 5).filterMap s.latestRec
  let q := s.nextSeq
  let t := (recs.zip (List.range 5)).foldl (fun (t : State) e => t.recordAt k e.2 (q + e.2) e.1)
    (s.updErase (journalHalf k) 0x20000)
  t.updErase (journalHalf h) 0x20000

/-- A half with room for one more record. -/
def State.journalRoom (s : State) : State := if s.journalUsed s.journalNow < 4096 then s else s.journalMove

/-- A record appended. -/
def State.journal (s : State) (r : PartRec) : State :=
  let t := s.journalRoom
  t.recordAt t.journalNow (t.journalUsed t.journalNow) t.nextSeq r

/-! ## Roots, floors and the boot counter (R302, R443, R444, R450) -/

/-- Root `n` is set. -/
def Otp.rootSet (o : Otp) (n : Nat) : Option (BitVec 256) :=
  if n = 0 then o.root0 else if n = 1 then o.root1 else none

/-- Root `n`'s digest while it is set and not revoked. -/
def Otp.validRoot (o : Otp) (n : Nat) : Option (BitVec 256) :=
  if (n = 0 ∧ o.rev0) ∨ (n = 1 ∧ o.rev1) then none else o.rootSet n

def Otp.anyRoot (o : Otp) : Bool := (o.validRoot 0).isSome || (o.validRoot 1).isSome

/-- Root `n` is valid and equals the SHA-256 of the key. -/
def Otp.rootIs (o : Otp) (n : Nat) (key : List Byte) : Bool :=
  o.validRoot n == some (BitVec.ofNat 256 (ofBytesBE (sha256 key)))

/-- A signature by the key `X || Y` over the SHA-256 of `l`. -/
def signedBy (key sig l : List Byte) : Bool :=
  onCurve (ofBytesBE (key.take 32)) (ofBytesBE (key.drop 32)) &&
    ecdsaVerify (ofBytesBE (key.take 32)) (ofBytesBE (key.drop 32)) (sha256 l) sig

/-- The loader floor (R450). -/
def Otp.floor (o : Otp) : Nat := (o.floors.map (·.toNat)).foldl max 0

/-- The boot counter (R444). -/
def State.bootCount (s : State) : Nat := s.otp.epoch * 2 ^ 24 + s.keeper.count

/-- FAILS and the register that shows it (R445). -/
def State.setFails (s : State) (n : Nat) : State :=
  { s.put KMB_FAILS_FAILS n with keeper := { s.keeper with fails := n } }

/-! ## Loader images (R447, R448) -/

/-- The fields of a loader's header. -/
structure Loader where
  version : Nat
  ncode   : Nat
  entry   : Nat
  ndata   : Nat
  daddr   : Nat
  root    : Nat
  key     : List Byte
  sig     : List Byte
deriving DecidableEq, Repr

/-- The header at flash offset `f`, when every field lies within R447. -/
def State.loaderAt (s : State) (f : Nat) : Option Loader :=
  let l := s.flashBytes f 160
  let r : Loader :=
    { version := beAt l 4 4, ncode := beAt l 8 3, entry := beAt l 11 2, ndata := beAt l 13 3, daddr := beAt l 16 3
      root := beAt l 20 1, key := (l.drop 32).take 64, sig := (l.drop 96).take 64 }
  if l.take 4 = [0x4C, 0x44, 0x52, 0x31] ∧ 1 ≤ r.ncode ∧ r.ncode ≤ 16384 ∧ r.entry < r.ncode ∧ r.ndata ≤ 0x8FFFF ∧
      r.daddr + r.ndata ≤ 0x90000 ∧ beAt l 19 1 = 0 ∧ r.root ≤ 1 ∧ beAt l 21 11 = 0 ∧
      160 + 3 * r.ncode + r.ndata ≤ 0x40000 then some r
  else none

/-- The code and the data of an image. -/
def State.loaderCode (s : State) (f : Nat) (r : Loader) : List Byte := s.flashBytes (f + 160) (3 * r.ncode)
def State.loaderData (s : State) (f : Nat) (r : Loader) : List Byte := s.flashBytes (f + 160 + 3 * r.ncode) r.ndata

/-- The image passes the floor, the signature and the root (R448). -/
def State.loaderPasses (s : State) (f : Nat) (r : Loader) : Bool :=
  s.otp.floor ≤ r.version &&
    signedBy r.key r.sig (s.flashBytes f 96 ++ s.loaderCode f r ++ s.loaderData f r) &&
    (!s.otp.anyRoot || s.otp.rootIs r.root r.key)

/-- The image at `f`, when it passes every condition of R448. -/
def State.goodLoader (s : State) (f : Nat) : Option Loader :=
  if !s.test FLC_INFO_PRESENT then none
  else match s.loaderAt f with
    | some r => if s.loaderPasses f r then some r else none
    | none => none

end Sys2Proof.Machine
end

