-- ==== Sys2Proof/Machine/Update.lean ====
section
/-! DEFINITION. The update engine (R475-R491, R496).  A command is judged and takes effect when it ends. -/

namespace Sys2Proof.Machine

/-! ## The manifest (R475, R476) -/

/-- A part entry of a manifest; a rule is a part with the least and the largest version. -/
structure MPart where
  part    : Nat
  health  : Nat
  version : Nat
  length  : Nat
  digest  : List Byte
  rules   : List (Nat × Nat × Nat)
deriving DecidableEq, Repr

/-- A manifest; `body` is what its signature covers, `bytes` the whole. -/
structure Manifest where
  campaign : Nat
  netid    : Nat
  root     : Nat
  wrapped  : List Byte
  key      : List Byte
  sig      : List Byte
  body     : List Byte
  bytes    : List Byte
  parts    : List MPart
deriving DecidableEq, Repr

/-- The bytes of a manifest of `n` parts. -/
def manifestSize (n : Nat) : Nat := 164 + 80 * n

def MPart.ofBytes (l : List Byte) : MPart :=
  { part := beAt l 0 1, health := if beAt l 2 1 = 0 then 3 else beAt l 2 1, version := beAt l 4 4, length := beAt l 8 4
    digest := (l.drop 12).take 32
    rules := (List.range (min 4 (beAt l 1 1))).map (fun i =>
      (beAt l (44 + 9 * i) 1, beAt l (45 + 9 * i) 4, beAt l (49 + 9 * i) 4)) }

/-- No element stands twice. -/
def distinct : List Nat → Bool
  | [] => true
  | x :: l => !l.contains x && distinct l

/-- A manifest from its bytes, unless it is malformed (result 14 of R477). -/
def manifestOf (l : List Byte) : Option Manifest :=
  let n := beAt l 10 1
  let ps := (List.range n).map (fun i => MPart.ofBytes (l.drop (100 + 80 * i)))
  if l.take 4 = [0x4D, 0x4E, 0x46, 0x31] ∧ 1 ≤ n ∧ n ≤ 5 ∧ distinct (ps.map (·.part)) ∧
      ps.all (fun p => p.part ≤ 4 && p.rules.all (fun r => r.1 ≤ 4)) then
    some { campaign := beAt l 4 4, netid := beAt l 8 2, root := beAt l 11 1, wrapped := (l.drop 12).take 24
           key := (l.drop 36).take 64, sig := (l.drop (100 + 80 * n)).take 64, body := l.take (100 + 80 * n)
           bytes := l.take (manifestSize n), parts := ps }
  else none

/-- The stored manifest, while its commit code stands. -/
def State.stored (s : State) : Option Manifest :=
  if s.flashBytes manifestMark 4 = manifestCode then manifestOf (s.flashBytes manifestAt (manifestSize 5)) else none

/-- The manifest's entry of part `p`. -/
def Manifest.entry (m : Manifest) (p : Nat) : Option MPart := m.parts.find? (fun e => e.part == p)

/-! ## Order of application (R479) -/

/-- The orders of some parts, lexicographic when the parts rise. -/
def orders : Nat → List Nat → List (List Nat)
  | 0, _ => [[]]
  | n + 1, l => l.flatMap (fun x => (orders n (l.erase x)).map (x :: ·))

/-- A combination is allowed. -/
def Manifest.allows (m : Manifest) (c : List Nat) : Bool :=
  m.parts.all (fun p => c.getD p.part 0 != p.version ||
    p.rules.all (fun r => r.2.1 ≤ c.getD r.1 0 && c.getD r.1 0 ≤ r.2.2))

/-- Every step of an order, applied in turn, leaves an allowed combination. -/
def Manifest.walks (m : Manifest) : List Nat → List Nat → Bool
  | _, [] => true
  | c, p :: l =>
    let d := c.set p (((m.entry p).map (·.version)).getD 0)
    m.allows d && m.walks d l

/-- The order of the parts of the campaign that are not yet CONFIRMED. -/
def State.findOrder (s : State) (m : Manifest) : Option (List Nat) :=
  let todo := (List.range 5).filter (fun p => (m.entry p).isSome &&
    !(s.phase p == 5 && (s.partRec p).campaign == m.campaign))
  (orders todo.length todo).find? (m.walks ((List.range 5).map (fun p => (s.partRec p).active)))

/-- UPD_ORDER of an order. -/
def orderCode (l : List Nat) : Nat :=
  ((l ++ List.replicate (5 - l.length) 7).take 5).foldr (fun p n => p + 8 * n) 0

/-- The parts before `p` in UPD_ORDER; none where UPD_ORDER does not name `p` (R486, R489). -/
def State.orderBefore (s : State) (p : Nat) : List Nat :=
  let l := (List.range 5).map (fun i => s.get UPD_ORDER_VALUE / 8 ^ i % 8)
  if l.contains p then l.takeWhile (· != p) else []

/-- The last part of UPD_ORDER. -/
def State.orderLast (s : State) : Option Nat :=
  ((List.range 5).map (fun i => s.get UPD_ORDER_VALUE / 8 ^ i % 8)).reverse.find? (· != 7)

/-! ## MANIFEST and RESUME (R477, R478) -/

/-- The first condition of R477 that fails, before the import of the key. -/
def State.manifestBar (s : State) (m : Manifest) : Option Nat :=
  if m.netid ≠ 0 ∧ m.netid ≠ s.get LNK_NETID_NETID then some 4
  else if !(s.otp.rootIs m.root m.key && signedBy m.key m.sig m.body) then some 3
  else if !m.parts.all (fun p => 1 ≤ p.length && s.areaOk p.part && p.length ≤ s.areaSize p.part) then some 10
  else if m.parts.any (fun p => p.part == 0 && p.version < s.otp.floor) then some 6
  else if (List.range 5).any (fun p => s.installing p && (s.partRec p).campaign != m.campaign) then some 13
  else if (s.findOrder m).isNone then some 5
  else none

/-- IMPORT_KEK of the campaign key into CSLOT (R285, R477): one use of KEKSLOT, whether or not the unwrap succeeds. -/
def State.campaignKey (s : State) (m : Manifest) : Bool × State :=
  let q := s.get UPD_KEYS_KEKSLOT
  let c := s.get UPD_KEYS_CSLOT
  if s.slotSt c ≠ 0 ∨ s.slotSt q ≠ 1 ∨ s.get (TR_INFO_USE q) % 2 = 0 then (false, s)
  else match kwUnwrap (s.slotBytes q) m.wrapped with
    | some k =>
      (true, (s.slotUse q).slotFill { TrRun.fail 3 c 0 with
        key := keyOf k, attr := BitVec.ofNat 20 (6 * 2 ^ 14 + q), limit := 1048575 })
    | none => (false, s.slotUse q)

/-- The campaign's registers. -/
def State.campaignShow (s : State) (m : Manifest) : State :=
  let t := (s.put UPD_STAT_CAMP 1).set32 UPD_CAMPLO UPD_CAMPHI (BitVec.ofNat 32 m.campaign)
  t.put UPD_ORDER_VALUE (orderCode ((t.findOrder m).getD []))

/-- The listed parts that a manifest may touch: none that is SAVED or TRIAL (R490). -/
def State.touched (s : State) (m : Manifest) : List MPart := m.parts.filter (fun p => !s.installing p.part)

/-- A listed part becomes RECEIVING. -/
def State.receiving (s : State) (m : Manifest) (p : MPart) : State :=
  s.journal { s.partRec p.part with
    part := p.part, phase := 1, tries := 0, limit := p.health, target := p.version, campaign := m.campaign }

/-- Steps 1 to 3 of R478. -/
def State.manifestStore (s : State) (m : Manifest) : State :=
  let ps := s.touched m
  let t := s.updErase manifestAt 0x10000
  let t := ps.foldl (fun (t : State) p =>
    (t.updErase (s.stagingAt p.part) (s.areaSize p.part)).updErase (receiptAt p.part) 0x4000) t
  let t := (t.updProgram manifestAt m.bytes).updProgram manifestMark manifestCode
  ps.foldl (fun (t : State) p => t.receiving m p) t

/-- Result 12 once the flash has failed, else what follows. -/
def State.ifSound (s : State) (k : State → Nat × State) : Nat × State := if s.flashDead then (12, s) else k s

/-- A manifest judged and taken. -/
def State.manifestTake (s : State) (m : Manifest) : Nat × State :=
  match s.manifestBar m with
  | some r => (r, s)
  | none => match s.campaignKey m with
    | (false, t) => (7, t)
    | (true, t) =>
      if (t.stored.map (·.campaign)) = some m.campaign then (0, t.campaignShow m)
      else (t.manifestStore m).ifSound (fun u => (0, u.campaignShow m))

/-- The bytes at an SRAM operand; none where they do not lie in shared SRAM or cannot be corrected. -/
def State.operand (s : State) (a n : Nat) : Option (List Byte) × State :=
  if inSram a n then s.ramRead .sram a n else (none, s)

/-- MANIFEST. -/
def State.updManifest (s : State) (a : Nat) : Nat × State :=
  if s.flashUnfit then (10, s)
  else match s.operand a 12 with
    | (none, t) => (10, t)
    | (some h, t) =>
      let n := beAt h 10 1
      if n = 0 ∨ 5 < n then (14, t)
      else match t.operand a (manifestSize n) with
        | (none, t) => (10, t)
        | (some l, t) => match manifestOf l with
          | none => (14, t)
          | some m => t.manifestTake m

/-- RESUME.  DESIGN CHOICE: with no stored manifest, or a malformed one, it gives 14 (notes/assumptions/34.md). -/
def State.updResume (s : State) : Nat × State :=
  if s.flashUnfit then (10, s)
  else match s.stored with
    | none => (14, s)
    | some m => s.manifestTake m

/-! ## Pieces (R480-R483) -/

/-- The header of piece `i` of part `p`. -/
def pieceHead (campaign p i : Nat) : List Byte := toBytesBE 4 campaign ++ toBytesBE 1 p ++ toBytesBE 2 i ++ [0]

/-- The last piece of a part is committed: its digest decides (R482). -/
def State.partWhole (s : State) (p : MPart) : Nat × State :=
  if sha256 (s.flashBytes (s.stagingAt p.part) p.length) = p.digest then
    (s.journal { s.partRec p.part with part := p.part, phase := 2 }).ifSound (fun t => (0, t.put UPD_FLAGS_STAGED 1))
  else (s.updErase (receiptAt p.part) 0x4000).ifSound (fun t => (11, t))

/-- A piece whose tag matched is programmed, and its part may be whole. -/
def State.pieceStore (s : State) (p : MPart) (i : Nat) (data : List Byte) : Nat × State :=
  (s.commitPiece p.part i data).ifSound (fun t => if t.receivedAll p.part p.length then t.partWhole p else (0, t))

/-- The first condition of R481 that refuses a piece before its tag is tried, from the piece's header. -/
def State.pieceBar (s : State) (h : List Byte) : Option Nat :=
  match s.stored with
  | none => some 10
  | some m => match m.entry (beAt h 4 1) with
    | none => some 10
    | some p =>
      if beAt h 0 4 ≠ m.campaign ∨ pieceCount p.length ≤ beAt h 5 2 then some 10
      else if s.phase p.part ≠ 1 ∨ s.received p.part (beAt h 5 2) then some 9
      else none

/-- A PIECE begins: it is refused, or its CCM_DEC is submitted as source 1 (R290, R481). UPD_STAT.INDEX names the last
piece that was not refused with 10 (notes/assumptions/34.md). -/
def State.pieceBegin (s : State) (r : UpdRun) : State :=
  let refuse := fun (t : State) (n : Nat) => t.updHears (.refused n)
  if !s.test UPD_STAT_CAMP then refuse s 2
  else if !inSram r.addr 1040 then refuse s 10
  else match s.ramRead .sram r.addr 8 with
    | (none, t) => refuse t 10
    | (some h, t) =>
      match t.pieceBar h with
      | some 9 => refuse (t.put UPD_STAT_INDEX (beAt h 5 2)) 9
      | some n => refuse t n
      | none =>
        let t := { t with update := { t.update with
          run := some { r with part := beAt h 4 1, idx := beAt h 5 2, dec := .waits } } }
        (t.put UPD_STAT_INDEX (beAt h 5 2)).modCipher (fun c => { c with waits := c.waits ++ [⟨1, updReqAt, s.tick⟩] })

/-- The update engine in one tick: a PIECE that holds the hash engine and the flash controller begins once source 1
has no submission waiting (R290, R481, R496). -/
def State.updStep (s : State) : State :=
  match s.update.run with
  | some r =>
    if r.op = 3 ∧ r.dec = .idle ∧ s.updHolds ∧ !s.cipher.waits.any (fun w => w.src == 1) then s.pieceBegin r else s
  | none => s

/-- The end of PIECE, once the engine knows how its decryption ended: a slot that does not decrypt gives 2, an operand
that cannot be read 10 (notes/assumptions/34.md). -/
def State.updPiece (s : State) (r : UpdRun) : Nat × State :=
  match r.dec with
  | .refused n => (n, s)
  | .failed c => (if c = 0x20 then 8 else if c = 0x25 then 10 else 2, s)
  | .plain l => match s.stored.bind (·.entry r.part) with
    | some p => s.pieceStore p r.idx l
    | none => (10, s)
  | _ => (0, s)

/-- PIECE_OUT. -/
def State.updPieceOut (s : State) (part i a : Nat) : Nat × State :=
  let k := s.get UPD_KEYS_CSLOT
  if !s.test UPD_STAT_CAMP then (2, s)
  else match s.stored with
    | none => (10, s)
    | some m =>
      if (m.entry part).isNone ∨ !s.received part i ∨ !inSram a 1040 then (10, s)
      else match s.slotRefuse k (usePermits (s.get (TR_INFO_USE k)) 1) with
        | some st => (2, s.cphCount st)
        | none =>
          let h := pieceHead m.campaign part i
          let data := s.flashBytes (s.stagingAt part + 1024 * i) 1024
          (0, (((s.slotUse k).put UPD_STAT_INDEX i).ramWrite .sram a
            (h ++ ccmXor (s.slotBytes k) (pieceNonce h) data ++ ccmTag (s.slotBytes k) (pieceNonce h) h data 8)))

/-! ## APPLY, CONFIRM and ABANDON (R486, R487, R490) -/

/-- LENGTH of part `p` in the stored manifest. -/
def State.lengthOf (s : State) (p : Nat) : Option Nat := (s.stored.bind (·.entry p)).map (·.length)

/-- Every part for which `f` holds is recorded IDLE. -/
def State.idle (s : State) (f : PartRec → Bool) : State :=
  (List.range 5).foldl (fun (t : State) p =>
    let r := t.partRec p
    if (r.phase == 1 || r.phase == 2) && f r then t.journal { r with part := p, phase := 0 } else t) s

/-- SAVED: staging becomes active, and the part is on trial. -/
def State.applySaved (s : State) (p n : Nat) : State :=
  let t := s.flashCopy (s.stagingAt p) (s.areaBase p) n
  t.journal { t.partRec p with part := p, phase := 4, tries := 1, boot := t.bootCount % 2 ^ 32 }

/-- TRIAL whose start is not counted: a further start, or the previous image comes back. -/
def State.applyTrial (s : State) (p : Nat) : Nat × State :=
  let r := s.partRec p
  if r.tries < r.limit then
    (s.journal { r with part := p, tries := r.tries + 1, boot := s.bootCount % 2 ^ 32 }).ifSound (fun t => (0, t))
  else match s.lengthOf p with
    | none => (10, s)
    | some n =>
      let t := s.flashCopy (s.previousAt p) (s.areaBase p) n
      let t := t.journal { r with part := p, phase := 6, active := r.prev }
      (t.idle (fun q => q.campaign == r.campaign)).ifSound (fun u => (0, u.put UPD_FLAGS_REVERTED 1))

/-- APPLY. -/
def State.updApply (s : State) (p : Nat) : Nat × State :=
  let r := s.partRec p
  match r.phase with
  | 2 =>
    if !(s.orderBefore p).all (fun q => s.phase q == 5) || (List.range 5).any s.installing then (13, s)
    else match s.lengthOf p with
      | none => (10, s)
      | some n =>
        let t := s.flashCopy (s.areaBase p) (s.previousAt p) n
        ((t.journal { r with part := p, phase := 3, prev := r.active }).applySaved p n).ifSound (fun u => (0, u))
  | 3 => match s.lengthOf p with
    | none => (10, s)
    | some n => (s.applySaved p n).ifSound (fun u => (0, u))
  | 4 => if r.boot = s.bootCount % 2 ^ 32 then (0, s) else s.applyTrial p
  | _ => (0, s)

/-- CONFIRM. -/
def State.updConfirm (s : State) (p : Nat) : Nat × State :=
  let r := s.partRec p
  if r.phase ≠ 4 then (13, s)
  else (s.journal { r with part := p, phase := 5, active := r.target }).ifSound (fun t =>
    (0, if s.orderLast = some p then t.put UPD_FLAGS_DONE_ALL 1 else t))

/-- ABANDON. -/
def State.updAbandon (s : State) : Nat × State :=
  if (List.range 5).any s.installing then (13, s)
  else ((s.idle (fun _ => true)).updErase manifestMark 4).ifSound (fun t =>
    (0, (t.slotErase (s.get UPD_KEYS_CSLOT)).put UPD_STAT_CAMP 0))

/-! ## Commands (R496) -/

/-- A write of UPD_CMD; the command holds the hash engine, whose charge it needs (R293). -/
def State.updCmd (s : State) (src : Source) (v : W20) : State :=
  let op := v.toNat / 2 ^ 17
  if op = 0 then s
  else if !mayTrust src ∨ s.update.run.isSome then (s.put UPD_STAT_RESULT 1).put UPD_FLAGS_REFUSED 1
  else
    { s.put UPD_STAT_BUSY 1 with update := { s.update with
        run := some ⟨op, v.toNat / 2 ^ 14 % 8, v.toNat % 2 ^ 14, s.get UPD_ADDR_ADDR, .idle⟩ } }.cphWork

/-- What a command does, with its result; a part above 4 is out of range. -/
def State.updDo (s : State) (r : UpdRun) : Nat × State :=
  if 4 ≤ r.op ∧ r.op ≤ 6 ∧ 4 < r.part then (10, s)
  else match r.op with
    | 1 => s.updManifest r.addr
    | 2 => s.updResume
    | 3 => s.updPiece r
    | 4 => s.updApply r.part
    | 5 => s.updConfirm r.part
    | 6 => s.updPieceOut r.part r.idx r.addr
    | _ => s.updAbandon

/-- The number of flash operations of a command; more than 2^30 are none's. -/
def State.updOps (s : State) (r : UpdRun) : Nat :=
  2 ^ 30 - (((s.setFuse (some (2 ^ 30))).updDo r).2.update.fuse.getD 0)

/-- A command whose flash operation number `k`, from 1, is torn. -/
def State.updFail (s : State) (r : UpdRun) (k : Nat) : Nat × State :=
  let (res, t) := (s.setFuse (some k)).updDo r
  (res, t.setFuse none)

/-- A command to its end.  Where the flash reports failure, which of its operations failed is open (R481,
notes/assumptions/8.md). -/
def State.updEnd (s : State) (r : UpdRun) (ok : Bool) : Nat × State :=
  let s := s.setFuse none
  if ok || s.updOps r == 0 then s.updDo r
  else
    let (n, t) := s.fresh
    t.updFail r (1 + (Config.freeW20 n).toNat % s.updOps r)

/-- A reset cuts a running command short, before its first flash operation or within an open one (R488,
notes/assumptions/8.md). -/
def State.updCut (s : State) : State :=
  match s.update.run with
  | some r =>
    if !s.updHolds then s
    else
      let (n, t) := s.fresh
      let k := (Config.freeW20 n).toNat % (s.updOps r + 1)
      if k = 0 then t else (t.updFail r k).2
  | none => s

def updWord (op part idx : Nat) : W20 := BitVec.ofNat 20 (op * 2 ^ 17 + part * 2 ^ 14 + idx)

def execUpdManifest (src : Source) (s : State) : Out :=
  s.during s.clocked <| .next (s.reachWith src UPD_CMD (fun t => t.updCmd src (updWord 1 0 0)))
def execUpdResume (src : Source) (s : State) : Out :=
  s.during s.clocked <| .next (s.reachWith src UPD_CMD (fun t => t.updCmd src (updWord 2 0 0)))
def execUpdPiece (src : Source) (s : State) : Out :=
  s.during s.clocked <| .next (s.reachWith src UPD_CMD (fun t => t.updCmd src (updWord 3 0 0)))
def execUpdApply (src : Source) (part : BitVec 3) (s : State) : Out :=
  s.during s.clocked <| .next (s.reachWith src UPD_CMD (fun t => t.updCmd src (updWord 4 part.toNat 0)))
def execUpdConfirm (src : Source) (part : BitVec 3) (s : State) : Out :=
  s.during s.clocked <| .next (s.reachWith src UPD_CMD (fun t => t.updCmd src (updWord 5 part.toNat 0)))
def execUpdPieceOut (src : Source) (part : BitVec 3) (idx : BitVec 14) (s : State) : Out := s.during s.clocked <|
  .next (s.reachWith src UPD_CMD (fun t => t.updCmd src (updWord 6 part.toNat idx.toNat)))
def execUpdAbandon (src : Source) (s : State) : Out :=
  s.during s.clocked <| .next (s.reachWith src UPD_CMD (fun t => t.updCmd src (updWord 7 0 0)))

/-- A command can end: it holds the hash engine, with its charge, and the flash controller, and its piece is decrypted
(R293, R481, R496). -/
def State.updReady (s : State) (r : UpdRun) : Bool :=
  s.updHolds && s.holds 14 && (r.op != 3 || !(match r.dec with
    | .idle | .waits | .out _ => true
    | _ => false))

/-- UPDATE_COMMAND_DONE (R496). -/
def execUpdCommandDone (flashOk : Bool) (s : State) : Out := s.during s.inRun <|
  match s.update.run with
  | none => .next s
  | some r =>
    if !s.updReady r then .next s
    else
      let (res, t) := s.updEnd r flashOk
      let t := { t with update := { t.update with run := none }, keeper := { t.keeper with bootWaits := false } }
      .next (((t.put UPD_STAT_BUSY 0).put UPD_STAT_RESULT res).put UPD_FLAGS_DONE 1)

/-- UPD_AREA_WRITE (R474): refused while the engine is BUSY or the part is SAVED or TRIAL. -/
def State.areaWrite (s : State) (q : Nat) (v : W20) : State :=
  if s.update.run.isSome ∨ s.installing (q + 1) then s.put UPD_FLAGS_REFUSED 1 else s.setRg (UPD_AREA q) v

def execUpdAreaWrite (q : Fin 4) (v : W20) (s : State) : Out := s.during s.clocked <| .next (s.areaWrite q.val v)

end Sys2Proof.Machine
end

