-- ==== Sys2Proof/Machine/Reset.lean ====
section
/-! DEFINITION. The resets of the device (R6, R43, R435-R437): what a cold and a warm reset keep. -/

namespace Sys2Proof.Machine

/-- The register at `a` is one of `n` from `base`, `stride` apart. -/
def among (a base stride n : Nat) : Bool := base ≤ a && a < base + n * stride && (a - base) % stride == 0

/-- Registers of the backup domain (R389, R391, R413). -/
def backupReg (a : Nat) : Bool :=
  (0xC5000 ≤ a && a < 0xC6000) || a == PWR_WAKE || a == PWR_DWAKE || a == SLK_CFG

/-- Registers that show supplies, the flash found, or OTP records: no reset changes what they show
(R6; notes/assumptions/5.md). -/
def shownReg (a : Nat) : Bool :=
  a == SUP_STAT || a == FLC_INFO || among a (SYS_ID 0) 4 6 || a == SYS_OTP || among a (SYS_HALTER 0) 4 4 ||
    a == MNG_CEIL || a == KMB_FLOORLO || a == KMB_FLOORHI || a == FLT_SPARE || a == FLT_SRAMSP0 || a == FLT_SRAMSP1 ||
    a == FLT_LOFTSP || a == KMB_FAILS

/-- Registers that a warm reset keeps (R6, R29, R43, R281, R429, R436, R458, R472). -/
def warmReg (a : Nat) : Bool :=
  a == MNG_POOL || among a (MNG_PAT 0) 4 4 || a == SCH_ERA || a == DEC_PAT || among a (CPH_PAT 0) 4 4 ||
    a == CHD_PAT || a == DMA_HOPLIM || among a (DMA_CH_PAT 0) 32 16 || a == YRD_CFG || a == YRD_MAP ||
    among a (YRD_QXOR 0) 4 3 || a == YRD_RTCFG || a == YRD_PAT0 || a == YRD_PAT1 || a == FLT_SRC0 || a == FLT_SRC1 ||
    among a (FLT_E_HDR 0) 4 64 || among a (STC_MAP 0) 4 16 || among a (STC_LANEFAIL 0) 4 3 ||
    among a (TR_INFO 0) 4 512 || among a (UPD_AREA 0) 4 4 || a == RFE_TCALT

/-- The registers that `p` keeps. -/
def State.keepRegs (s : State) (p : Nat → Bool) : Tab W20 := s.regs.filter (fun e => p e.1)

/-- A flash operation cut short by a reset: the controller's own, or one of the update engine's (R488). -/
def State.flashCut (s : State) : State :=
  match s.flashOp with
  | some op => { s.flashTorn op with flashOp := none }
  | none => s.updCut

/-- The bits of TRUST_STATE that OTP gives (R302, R308). -/
def State.trustShow (s : State) : State :=
  let o := s.otp
  ((((((s.put TRUST_STATE_FIRSTLIT (bit o.lit)).put TRUST_STATE_SEALED (bit o.isSealed)).put TRUST_STATE_ROOT0_SET
    (bit o.root0.isSome)).put TRUST_STATE_ROOT0_REV (bit o.rev0)).put TRUST_STATE_ROOT1_SET (bit o.root1.isSome)).put
    TRUST_STATE_ROOT1_REV (bit o.rev1))

/-- Every ration is free again, OWED is cleared, and each check confirms that free equals total; a failure holds the
device in reset (R27, R43). -/
def State.rationsBack (s : State) : State :=
  let t := s.modManger (fun _ => { Manger.reset with free := s.mngTotal })
  let t := (t.put CONS_RATIONS_HELD_SUM 0).put CONS_RATIONS_FREE t.manger.free
  if t.manger.heldSum + t.manger.free = t.mngTotal then t else t.report 35 0

/-- What both kinds of reset share: the core domain's hidden state at its reset, with what no reset changes. -/
def State.resetCore (s : State) (regs : Tab W20) (kind : StartKind) : State :=
  let u := s.flashCut
  { State.reset with
    regs := regs, tick := s.tick, free := u.free, rtc := s.rtc, flash := u.flash, pins := s.pins,
    pinLvl := s.pinLvl, filt := ⟨s.pinLvl, []⟩, otp := s.otp
    keeper := { Keeper.reset with count := s.keeper.count, fails := s.keeper.fails, valid := s.keeper.valid, kind := kind }
    power := { Power.reset with rstTick := s.tick, slowAcc := s.power.slowAcc, vbatLow := s.power.vbatLow
                                slowRc := s.power.slowRc, csLow := s.power.csLow }
    update := { Update.reset with sent := s.update.sent }
    pending := s.pending }

/-- A cold reset of the core domain with its cause (R6, R43, R51, R406, R435): the yard's contents are lost, and POOL
takes the effective ceiling. -/
def State.coldReset (s : State) (cause : Nat) (kind : StartKind) : State :=
  let t := s.resetCore (s.keepRegs (fun a => backupReg a || shownReg a)) kind
  let t := ({ t with yard := { Yard.reset with epoch := s.yard.epoch + 1, nextId := s.yard.nextId } }).trustShow
  let t := t.put SYS_RSTCAUSE_CAUSE cause
  let t := (t.put FLT_SPARE_MARGIN 0).put PAD_CFG_ENERGY (bit s.otp.energy)
  ((t.put MNG_POOL_POOL (t.get MNG_CEIL_CEILING)).rationsBack).latchReqs

/-- A warm reset with its cause (R43, R429, R436, R458). -/
def State.warmReset (s : State) (cause : Nat) (recov : Bool) : State :=
  let y := s.yardWarm
  let t := s.resetCore (s.keepRegs (fun a => backupReg a || shownReg a || warmReg a)) .warm
  let t := { t with
    mesh := s.mesh, sram := s.sram, pram := s.pram, loft := s.loft, memChk := s.memChk
    radio := { t.radio with rxCaled := s.radio.rxCaled, txCaled := s.radio.txCaled }
    cipher := { Cipher.reset with keys := s.cipher.keys, attrs := s.cipher.attrs }
    faults := { s.faults with fatalAt := none }
    yard := y.yard
    power := { t.power with refMesh := s.power.refMesh, frac := s.power.frac, held := s.power.held }
    keeper := { t.keeper with recov := recov } }
  let t := (t.put YRD_CTL_EN (s.get YRD_CTL_EN)).put YRD_CTL_SR (y.get YRD_CTL_SR)
  let t := ((t.put YRD_STAT_STATE y.yst).trustShow).put FLT_FLAGS_NEW_FATAL (s.get FLT_FLAGS_NEW_FATAL)
  let t := ((t.setRg CLK_STAT (s.rg CLK_STAT &&& 0xF)).put FLT_SPARE_MARGIN 0).put PAD_CFG_ENERGY (bit s.otp.energy)
  let t := (t.put SYS_RSTCAUSE_WARM 1).put SYS_RSTCAUSE_CAUSE cause
  t.rationsBack.latchReqs

/-- Whether a source may write SYS_RST: not task mode, not the host (R455). -/
def mayReset : Source → Bool
  | .core _ p => p
  | .host => false
  | _ => true

/-- A reset answers only where nothing holds the device in reset (R43, R411, R461). -/
def State.ifFree (s : State) (t : State) : State := if s.power.held || s.power.vbatLow then s else t

/-- A write of SYS_RST (R435, R455). -/
def State.sysRst (s : State) (src : Source) (v : W20) : State :=
  if !mayReset src then s
  else match v.toNat % 4 with
    | 1 => s.ifFree (s.warmReset 5 false)
    | 2 => s.ifFree (s.coldReset 4 .cold)
    | 3 => s.ifFree (s.warmReset 8 true)
    | _ => s

def execResetSoftWarm (src : Source) (s : State) : Out := .next (s.reachWith src SYS_RST (fun t => t.sysRst src 1))
def execResetSoftCold (src : Source) (s : State) : Out := .next (s.reachWith src SYS_RST (fun t => t.sysRst src 2))
def execResetRecovery (src : Source) (s : State) : Out := .next (s.reachWith src SYS_RST (fun t => t.sysRst src 3))

/-- POR (R435): VBAT rises through the release threshold.  A device that RESET_CONFIRM holds starts again here. -/
def execResetPor (s : State) : Out :=
  .next ({ s with power := { s.power with vbatLow := false, held := false } }.coldReset 1 .cold)

/-- PIN (R435): DBG_RST_N held low. -/
def execResetPin (s : State) : Out :=
  .next (if s.power.vbatLow then s else { s with power := { s.power with held := false } }.coldReset 2 .cold)

/-- VBAT_BROWNOUT (R411): VBAT below the threshold holds the device in reset; above it, the start of R435. -/
def execVbatBrownout (below : Bool) (s : State) : Out :=
  if below then .next ({ s with power := { s.power with vbatLow := true, held := false } }.coldReset 1 .cold)
  else if s.power.vbatLow then execResetPor s
  else .next s

/-- FATAL_WARM_RESET (R461): 64 ticks after the fatal report. -/
def execFatalWarmReset (s : State) : Out :=
  match s.faults.fatalAt with
  | some t0 => .next (if s.power.held ∨ s.tick - t0 < 64 then s else s.warmReset 6 false)
  | none => .next s

end Sys2Proof.Machine
end

