-- ==== Sys2Proof/Machine/Recovery.lean ====
section
/-! DEFINITION. ROM recovery mode (R492-R495): what the ROM hears on its three interfaces, the image it receives, and its
answers. -/

namespace Sys2Proof.Machine

def State.modUpdate (s : State) (f : Update → Update) : State := { s with update := f s.update }

/-- Entry to ROM recovery mode: the receipts of part 0 are erased, and UART0 runs at 921,600 baud, DIV 2 and FRAC 39
(R134, R492). -/
def State.enterRecovery (s : State) : State :=
  let t := ((s.setFuse none).updErase (receiptAt 0) 0x4000).modUpdate
    (fun u => { u with rx := [], total := none, last := none, owed := [] })
  ((t.setRg U0_BAUD 0x000A7).put U0_CTRL_RXEN 1).put U0_CTRL_TXEN 1

/-- ROM recovery mode runs: B0 was released with a REASON. -/
def State.recovering (s : State) : Bool := s.keeper.started && s.test KMB_BOOT_REASON

/-- Whether the ROM listens on an interface: the halter services once they are in force, UART0 at once (R492). -/
def State.recoveryHears (s : State) : RecovIface → Bool
  | .radio => s.test KMB_BOOT_HRADIO
  | .chord => s.test KMB_BOOT_HCHORD
  | .uart => true

/-! ## Frames (R493) -/

/-- A BLOCK that fits. -/
def State.blockFits (s : State) (l : List Byte) : Bool :=
  l.length == 1034 && beAt l 0 1 == 1 && ((l.drop 1).take 4 == s.idDigest.take 4 || beAt l 1 4 == 0xFFFFFFFF) &&
    160 ≤ beAt l 5 3 && beAt l 5 3 ≤ 262144 && beAt l 8 2 < pieceCount (beAt l 5 3) &&
    (s.update.total == none || s.update.total == some (beAt l 5 3))

/-- A UART packet: 0x7E 0xA5, LEN, the payload, and the CRC-24 of LEN and payload, big-endian. -/
def uartPacket (l : List Byte) : List Byte :=
  let b := toBytesBE 2 l.length ++ l
  [0x7E, 0xA5] ++ b ++ toBytesBE 3 (crc24 b)

/-- The recovery frame in what an interface brings: the payload of a halter or DATA frame is the frame itself, a UART
packet must be whole. -/
def recoveryFrame (ifc : RecovIface) (l : List Byte) : Option (List Byte) :=
  match ifc with
  | .uart =>
    let p := (l.drop 4).take (l.length - 7)
    if l = uartPacket p then some p else none
  | .radio => some l
  | .chord => some l

/-- What an interface carries for a recovery frame. -/
def recoverySend (ifc : RecovIface) (l : List Byte) : List Byte :=
  match ifc with
  | .uart => uartPacket l
  | .radio => l
  | .chord => l

/-- A STATUS frame for INDEX `i`. -/
def State.statusFrame (s : State) (i st : Nat) : List Byte :=
  let total := s.update.total.getD 0
  let missing := ((List.range (pieceCount total)).find? (fun j => !s.received 0 j)).getD 0xFFFF
  [0x02] ++ s.idDigest.take 4 ++ toBytesBE 3 total ++ toBytesBE 2 i ++ toBytesBE 2 (s.receivedCount 0) ++
    toBytesBE 2 missing ++ [BitVec.ofNat 8 st, 0]

/-! ## Answers (R494) -/

/-- A STATUS leaves on an interface: UART0 takes its packet's bytes, and the chord a DATA frame. How the ROM hands a
frame to the radio the spec does not say; `sent` keeps what left on each (notes/assumptions/36.md). -/
def State.sendStatus (s : State) (ifc : RecovIface) (i st : Nat) : State :=
  let l := recoverySend ifc (s.statusFrame i st)
  let t := s.modUpdate (fun u => { u with sent := u.sent ++ [(ifc, l)] })
  match ifc with
  | .uart => l.foldl State.uartPush t
  | .chord => t.chordSend l
  | .radio => t

/-- The state in an answer to a BLOCK: a download that the flash cannot take is refused (R474, R493). -/
def State.answerState (s : State) : Nat := if s.flashUnfit then 2 else 0

/-- Whether an answer owed since tick `at0` is due: 384,000 ticks after a BLOCK on the radio, once the chord is idle,
on UART0 at once. -/
def State.answerDue (s : State) (ifc : RecovIface) (at0 : Nat) : Bool :=
  match ifc with
  | .radio => s.tick == at0 + 384000
  | .chord => s.recoveryHears .chord && s.chordIdle
  | .uart => true

/-- The first answer owed that is due leaves. -/
def State.answer (s : State) : State :=
  match s.update.owed.find? (fun e => s.answerDue e.1 e.2.2) with
  | some e => (s.modUpdate (fun u => { u with owed := u.owed.erase e })).sendStatus e.1 e.2.1 s.answerState
  | none => s

/-- RECOVERY_STATUS (R494). -/
def execRecoveryStatus (s : State) : Out := s.during s.inRun <| .next (if s.recovering then s.answer else s)

/-! ## Blocks (R493) -/

/-- A BLOCK that fits: a new one is committed, a duplicate ignored, one that the flash cannot take refused with result
10; a BLOCK to this device's own TARGET is owed an answer (R474, R481, R494). -/
def State.blockTake (s : State) (ifc : RecovIface) (l : List Byte) : State :=
  let i := beAt l 8 2
  let own := beAt l 1 4 != 0xFFFFFFFF || (l.drop 1).take 4 == s.idDigest.take 4
  let t := if s.flashUnfit then s.put UPD_STAT_RESULT 10
    else
      (if s.received 0 i then s else (s.setFuse none).commitPiece 0 i (l.drop 10)).modUpdate
        (fun u => { u with total := some (beAt l 5 3) })
  if own then t.modUpdate (fun u => { u with last := some (ifc, i), owed := u.owed ++ [(ifc, i, s.tick)] }) else t

/-- A recovery frame reaches the ROM. -/
def State.recoveryTake (s : State) (ifc : RecovIface) (l : List Byte) : State :=
  if s.recovering && s.recoveryHears ifc && s.blockFits l then s.blockTake ifc l else s

/-- RECOVERY_BLOCK (R493): what a halter frame, a chord DATA frame or a run of bytes on UART0 brings. -/
def execRecoveryBlock (ifc : RecovIface) (bytes : List Byte) (s : State) : Out := s.during s.inRun <|
  match recoveryFrame ifc bytes with
  | some l => .next (s.recoveryTake ifc l)
  | none => .next s

/-- RECOVERY_IMAGE_JUDGED (R495): with every block committed. The report goes to the interface of the last BLOCK
addressed to this device. -/
def execRecoveryImageJudged (s : State) : Out := s.during s.inRun <|
  match s.update.total with
  | none => .next s
  | some n =>
    if !s.recovering || !s.receivedAll 0 n then .next s
    else
      let report := fun (t : State) (st : Nat) => match t.update.last with
        | some (ifc, i) => t.sendStatus ifc i st
        | none => t
      let s := s.setFuse none
      match s.goodLoader (s.stagingAt 0) with
      | none => .next (report (s.updErase (receiptAt 0) 0x4000) 2)
      | some r =>
        let t := s.flashCopy (s.stagingAt 0) 0 n
        let t := t.journal { t.partRec 0 with part := 0, phase := 0, active := r.version }
        .next ((report (t.setFails 0) 1).sysRst .keeper 1)

/-! ## UART0 (R134, R493) -/

/-- What the ROM makes of the bytes it has received: it looks for a packet from each byte on, drops what begins none,
and takes the first whole one. No recovery frame is longer than a BLOCK. -/
def uartScan : Nat → List Byte → List Byte × Option (List Byte)
  | 0, l => (l, none)
  | n + 1, l =>
    if l.length < 2 then (if l = [0x7E] then l else [], none)
    else if l.take 2 ≠ [0x7E, 0xA5] then uartScan n (l.drop 1)
    else if l.length < 4 then (l, none)
    else
      let k := beAt l 2 2 + 7
      if 1041 < k then uartScan n (l.drop 1)
      else if l.length < k then (l, none)
      else match recoveryFrame .uart (l.take k) with
        | some p => (l.drop k, some p)
        | none => uartScan n (l.drop 1)

/-- In ROM recovery mode the ROM takes the byte that UART0 holds. -/
def State.romUart (s : State) : State :=
  if !s.recovering then s
  else
    let (v, t) := s.uartPop
    if !v.getLsbD 8 then t
    else
      let l := t.update.rx ++ [v.setWidth 8]
      let (rest, p) := uartScan l.length l
      let t := t.modUpdate (fun u => { u with rx := rest })
      match p with
      | some f => t.recoveryTake .uart f
      | none => t

/-- UART_RX_BYTE (R134): from the pin, unless LOOP joins the receiver to the transmitter; a break sets BREAK and
brings no byte (notes/assumptions/10.md). In ROM recovery mode the ROM takes it (R493). -/
def execUartRxByte (b : Byte) (ferr brk : Bool) (s : State) : Out := s.during s.inRun <|
  if s.test U0_CTRL_LOOP then .next s
  else if brk then .next (if s.test U0_CTRL_RXEN then (s.put U0_STATUS_BREAK 1).uartSettle s else s)
  else .next ((s.uartStore b ferr).uartSettle s).romUart

end Sys2Proof.Machine
end

