-- ==== Sys2Proof/Machine/Rfcal.lean ====
section
/-! DEFINITION. Radio calibration (R160-R162, R518): the commanded run, temperature-triggered calibrations, and the die
temperature. -/

namespace Sys2Proof.Machine

/-! ## The commanded run (R162) -/

/-- The ticks of a step. -/
def CalStep.ticks : CalStep → Nat
  | .rxsyn => 3456 | .txsyn => 3456 | .tpm => 3840 | .iqa => 7680 | .iqb => 7680

/-- Allowed only in STANDBY. -/
def CalStep.standby : CalStep → Bool
  | .rxsyn => false | .txsyn => false | _ => true

/-- A write of RFE_CAL (R162): refused whole outside STANDBY and LISTEN, while a run is in progress, or where it
selects a step that the state does not allow. -/
def State.calWrite (s : State) (v : W20) : State :=
  let l := calSteps v.toNat
  if (s.rfe ≠ 2 ∧ s.rfe ≠ 4) ∨ s.test RFE_CAL_BUSY ∨ (s.rfe = 4 ∧ l.any CalStep.standby) then
    s.raise RFE_FLAGS_CAL_REFUSED
  else match l with
  | [] => s.setRg RFE_CAL (v &&& 0x1F)
  | step :: _ =>
    let t := s.setRg RFE_CAL ((v &&& 0x1F) ||| 0x80000)
    (t.modRadio (fun r => { r with cal := l, calBegun := none })).ask 0 step.extra

/-- The step at the front of the run begins, once its rations are held, at die temperature `temp`. -/
def State.calBegin (s : State) (step : CalStep) (temp : BitVec 10) : State :=
  if s.radio.cal.head? = some step ∧ s.radio.calBegun = none ∧ step.extra.all s.holds then
    let t := (s.modRadio (fun r => { r with calBegun := some s.tick })).calShow
    match step with
    | .rxsyn => (((t.put RFE_TCALT_RX temp.toNat).put RFE_STATE_TCALP_RX 0).put RFE_STATE_RXLOCK 0).stallSync
    | .txsyn => (t.put RFE_TCALT_TX temp.toNat).put RFE_STATE_TCALP_TX 0
    | _ => t
  else s

def execCalRxsyn (temp : BitVec 10) (s : State) : Out := s.during s.clocked <| .next (s.calBegin .rxsyn temp)
def execCalTxsyn (temp : BitVec 10) (s : State) : Out := s.during s.clocked <| .next (s.calBegin .txsyn temp)
def execCalTpm (temp : BitVec 10) (s : State) : Out := s.during s.clocked <| .next (s.calBegin .tpm temp)
def execCalIqa (temp : BitVec 10) (s : State) : Out := s.during s.clocked <| .next (s.calBegin .iqa temp)
def execCalIqb (temp : BitVec 10) (s : State) : Out := s.during s.clocked <| .next (s.calBegin .iqb temp)

/-- The run ends: CAL_DONE, what nothing else needs returned, and a listen window opened meanwhile starts its ramp. A
TX start that waited has its synthesizer locked after a last step TXSYN, or calibrated from here, at die temperature
`temp`, where it is uncalibrated (R162, R518). -/
def State.calFinish (s : State) (last : CalStep) (temp : BitVec 10) : State :=
  let t := (s.modRadio (fun r => { r with cal := [], calBegun := none })).put RFE_CAL_BUSY 0
  let t := t.settle [0, 1, 4, 6]
  let t := if t.rfe = 5 then (if last = .txsyn then t.put RFE_STATE_TXLOCK 1 else t.txCalNeed temp) else t
  let t := (t.calShow).raise RFE_FLAGS_CAL_DONE
  if t.rfe = 2 ∧ t.winOpen ≠ 0 then t.rampStart t.window else t

/-- CAL_STEP_DONE (R160, R162): `trim` is what an IQ step writes, `temp` the die temperature of a calibration that
starts as the run ends. -/
def execCalStepDone (trim : W20) (s : State) (temp : BitVec 10 := 0) : Out := s.during s.inAir <|
  match s.radio.cal, s.radio.calBegun with
  | step :: rest, some b =>
    if s.since b < step.ticks then .next s
    else
      let t := match step with
        | .rxsyn => ((s.put RFE_STATE_RXLOCK 1).modRadio (fun r => { r with rxCaled := true }))
        | .txsyn => s.modRadio (fun r => { r with txCaled := true })
        | .tpm => s
        | .iqa => s.setRg RFE_IQA trim
        | .iqb => s.setRg RFE_IQB trim
      let t := t.modRadio (fun r => { r with cal := rest, calBegun := none })
      match rest with
      | [] => .next ((t.calFinish step temp).stallSync)
      | n :: _ => .next (((t.ask 0 n.extra).calShow).stallSync)
  | _, _ => .next s

/-! ## Temperature (R160, R161) -/

/-- TCAL_DELTA in quarter degrees. -/
def State.tcalDelta (s : State) : Nat := 4 * max 2 (min 30 (s.get RFE_TCAL_DELTA))

/-- DIE has moved TCAL_DELTA or more from `f`. -/
def State.tempMoved (s : State) (f : Field) : Bool :=
  s.tcalDelta ≤ (s.getInt RFE_TEMP_DIE - s.getInt f).natAbs

/-- DIE_TEMP_SAMPLE (R160): while the radio is not OFF. -/
def execDieTempSample (temp : BitVec 10) (s : State) : Out := s.during s.inAir <|
  if s.rfe = 0 then .next s
  else
    let t := s.put RFE_TEMP_DIE temp.toNat
    let t := if t.test RFE_TCAL_AUTO_RX && t.radio.rxCaled && t.tempMoved RFE_TCALT_RX &&
        !t.test RFE_STATE_TCALP_RX then
      (t.put RFE_STATE_TCALP_RX 1).modRadio (fun r => { r with deferRx := false }) else t
    let t := if t.test RFE_TCAL_AUTO_TX && t.radio.txCaled && t.tempMoved RFE_TCALT_TX &&
        !t.test RFE_STATE_TCALP_TX then
      (t.put RFE_STATE_TCALP_TX 1).modRadio (fun r => { r with deferTx := false }) else t
    .next t

/-- An armed entry is a TX start, or a kind 0x6 naming table 0, within the next 3,456 ticks (R161). -/
def State.txSoon (s : State) : Bool :=
  s.cores.toList.any (fun x => x.acts.toList.any (fun a =>
    (a.status == .armed || a.status == .reserving || a.status == .reserved) &&
      (a.kind == 1 || (a.kind == 6 && !a.param.getLsbD 3)) && (a.fire - s.mesh).toNat < 3456))

/-- The conditions of R161 that both calibrations share. -/
def State.tcalOk (s : State) : Bool := (s.rfe == 2 || s.rfe == 4) && s.radio.cal.isEmpty && !s.txSoon

/-- TEMP_CAL_START (R161): what is pending starts, RX before TX; a first tick of waiting sets TCAL_DEFERRED. -/
def execTempCalStart (temp : BitVec 10) (s : State) : Out := s.during s.inAir <|
  let rx := s.test RFE_STATE_TCALP_RX
  let tx := s.test RFE_STATE_TCALP_TX
  let ok := s.tcalOk
  let t :=
    if !rx then s
    else if ok && s.radio.rxCal.isNone && (!s.test RFE_TCAL_RXDEFER || s.rfe == 2) then
      let t := ((s.put RFE_STATE_TCALP_RX 0).put RFE_TCALT_RX temp.toNat).put RFE_STATE_RXLOCK 0
      (t.modRadio (fun r => { r with rxCal := some ⟨some s.tick⟩ })).calShow.stallSync
    else if s.radio.deferRx then s
    else (s.modRadio (fun r => { r with deferRx := true })).raise RFE_FLAGS_TCAL_DEFERRED
  let t :=
    if !tx then t
    else if ok && s.radio.txCal.isNone then t.txCalStart temp
    else if t.radio.deferTx then t
    else (t.modRadio (fun r => { r with deferTx := true })).raise RFE_FLAGS_TCAL_DEFERRED
  .next t

/-- SYNTH_CAL_DONE (R160): after 3,456 ticks, with the synthesizer locked; the TX synthesizer stays locked only for a
TX start that waits. -/
def execSynthCalDone (tx : Bool) (s : State) : Out := s.during s.inAir <|
  if tx then
    match s.radio.txCal with
    | some ⟨some b⟩ =>
      if s.since b < 3456 then .next s
      else
        let t := (s.modRadio (fun r => { r with txCal := none, txCaled := true })).calShow
        .next (if t.rfe = 5 then t.put RFE_STATE_TXLOCK 1 else t.settle [6])
    | _ => .next s
  else
    match s.radio.rxCal with
    | some ⟨some b⟩ =>
      if s.since b < 3456 then .next s
      else .next ((((s.modRadio (fun r => { r with rxCal := none, rxCaled := true })).calShow).put
        RFE_STATE_RXLOCK 1).stallSync)
    | _ => .next s

end Sys2Proof.Machine
end

