-- ==== Sys2Proof/Machine/Keeper.lean ====
section
/-! DEFINITION. The keeper (spec/18, R302-R305, R467-R470): its start sequences, first light, halter mode, the orders
of its mailbox, BOOT and the start watchdog. -/

namespace Sys2Proof.Machine

/-! ## Boot counter (R443, R444) -/

def State.modKeeper (s : State) (f : Keeper → Keeper) : State := { s with keeper := f s.keeper }

def State.modFaults (s : State) (f : Faults → Faults) : State := { s with faults := f s.faults }

def State.modOtp (s : State) (f : Otp → Otp) : State := { s with otp := f s.otp }

/-- KMB_BCNT and SYS_OTP.EPOCH show the boot counter. -/
def State.bootShow (s : State) : State :=
  (s.set32 KMB_BCNTLO KMB_BCNTHI (BitVec.ofNat 32 s.bootCount)).put SYS_OTP_EPOCH s.otp.epoch

/-- The boot counter advances. -/
def State.bootAdvance (s : State) : State :=
  if !s.keeper.valid ∨ s.keeper.count = 2 ^ 24 - 1 then
    let t := if 128 ≤ s.otp.epoch then s.put SYS_OTP_BCNT_SPENT 1
      else s.modOtp (fun o => { o with epoch := o.epoch + 1 })
    ((t.modKeeper (fun k => { k with count := 0, valid := true })).setFails 0).bootShow
  else (s.modKeeper (fun k => { k with count := k.count + 1 })).bootShow

/-! ## What OTP shows (R28, R441, R452, R455, R509) -/

/-- The CRC-12 of the identity words ID0 to ID4. -/
def Otp.idCheck (o : Otp) : Nat := crc12 100 ((o.id.toList.take 5).foldl (fun n w => n * 2 ^ 20 + w.toNat) 0)

/-- The identity words, and ID_BAD where their check fails (R441). -/
def State.idShow (s : State) : State :=
  let t := (List.range 6).foldl (fun (t : State) k => t.setRg (SYS_ID k) (s.otp.id.toList.getD k 0)) s
  if s.otp.idCheck = (s.otp.id[5]).toNat % 2 ^ 12 then t.put SYS_OTP_ID_BAD 0
  else (t.put SYS_OTP_ID_BAD 1).report 28 0

/-- The halter record in use: the committed one, or the defaults of R452. -/
def Otp.halterInUse (o : Otp) : Vector W20 4 :=
  o.halter.getD #v[BitVec.ofNat 20 (88 * 32 + 21), 0xE5555, 0, 0]

def State.halterShow (s : State) : State :=
  (List.range 4).foldl (fun (t : State) k => t.setRg (SYS_HALTER k) (s.otp.halterInUse.toList.getD k 0)) s

/-- The ceiling in force: free is the new total less what is held (R27, R28). -/
def State.ceilShow (s : State) : State :=
  match s.otp.ceil with
  | none => s
  | some r =>
    let t := (s.put MNG_CEIL_BAND0_LOCK (r.toNat / 1024)).put MNG_CEIL_CEIL_FUSED 1
    let t := t.put MNG_CEIL_CEILING (r.toNat % 1024)
    let t := t.modManger (fun m => { m with free := t.mngTotal - m.heldSum })
    t.moveBand (t.bandFor (t.get MNG_BAND_MEAS_BAND)) false

/-- The drive modes (R509, R510). -/
def State.padShow (s : State) : State :=
  let n := bit s.otp.energy
  ((s.put PAD_CFG_ENERGY n).put PAD_CFG_LIM_VFL n).put PAD_CFG_LIM_VIO n

/-- The floors (R450). -/
def State.floorShow (s : State) : State :=
  (s.set32 KMB_FLOORLO KMB_FLOORHI (BitVec.ofNat 32 s.otp.floor)).put SYS_OTP_FLOORS s.otp.floors.length

/-- The OTP read of a cold start: POOL starts at the effective ceiling (R28, R44). -/
def State.otpRead (s : State) : State :=
  let t := (s.idShow.halterShow.floorShow.padShow).ceilShow
  let t := t.put MNG_POOL_POOL (t.get MNG_CEIL_CEILING)
  let t := t.modManger (fun m => { m with free := t.mngTotal - m.heldSum })
  ((t.put SYS_OTP_CEIL (bit s.otp.ceil.isSome)).put SYS_OTP_HALTER (bit s.otp.halter.isSome)).put SYS_OTP_ENERGY
    (bit s.otp.energy)

/-! ## Self-test and spares (R467-R471) -/

/-- A failure that no spare record covers yet is committed. -/
def State.spareNew (s : State) (kind idx : Nat) (ok : Bool) : State :=
  if s.otp.spares.contains (kind, idx) then s else s.spareTry kind idx ok

/-- The records of the self-test's failures. -/
def State.spareTest (s : State) (st : SelfTest) : State :=
  let t := st.lanes.foldl (fun (t : State) l => if l.toNat < 52 then t.spareNew 1 l.toNat st.otpOk else t) s
  let t := st.sramRows.foldl (fun (t : State) r => t.spareNew 2 (128 * r.1.val + r.2.toNat) st.otpOk) t
  st.loftRows.foldl (fun (t : State) r => t.spareNew 3 (128 * r.1.val + r.2.toNat) st.otpOk) t

/-- Lane `l` is failed. -/
def State.setLaneFail (s : State) (l : Nat) : State := s.setRg (STC_LANEFAIL (l / 20))
  (s.rg (STC_LANEFAIL (l / 20)) ||| BitVec.twoPow 20 (l % 20))

/-- The lowest-numbered healthy spare lane that no position carries. -/
def State.spareLane (s : State) : Option Nat :=
  (List.range 52).find? (fun l => !s.laneFailed l && !s.laneMap.contains l)

/-- Position `p` takes the lowest healthy spare lane, or is unmapped with LANE_OUT (R467, R468). -/
def State.respare (s : State) (p : Nat) : State :=
  let l := s.get (laneOf p)
  match s.spareLane with
  | some n => s.put (laneOf p) n
  | none => (s.put (laneOf p) 63).report 29 (BitVec.ofNat 20 l)

/-- The lanes of the committed records, and those of `failed` that the self-test found beside them, marked; positions
whose lanes fail take spares in ascending order. -/
def State.lanesApply (s : State) (failed : List Nat) : State :=
  let t := ((s.otp.spares.filter (fun e => e.1 == 1)).map (·.2) ++ failed).foldl State.setLaneFail s
  ((List.range 48).foldl (fun (u : State) p => if u.laneFailed (u.get (laneOf p)) then u.respare p else u) t).lanesShow

/-- The rows in force of one bank or loft: kind and number. -/
def Otp.rowsOf (o : Otp) (kind b : Nat) : List Nat :=
  (((o.spares.take o.inForce).filter (fun e => e.1 == kind)).map (·.2)).filter (fun i => i / 128 == b)

/-- Rows beyond a bank's or loft's spares stay in use and are reported. -/
def State.rowsOut (s : State) (kind b most code : Nat) : State :=
  ((s.otp.rowsOf kind b).drop most).foldl
    (fun (t : State) i => t.report code (BitVec.ofNat 20 (kind * 2 ^ 16 + i))) s

/-- The spare rows in use, and what has none. -/
def State.rowsApply (s : State) : State :=
  let t := (List.range 10).foldl (fun (t : State) b =>
    (t.put ⟨if b < 5 then FLT_SRAMSP0 else FLT_SRAMSP1, 4 * (b % 5) + 3, 4 * (b % 5)⟩
      (min 8 (t.otp.rowsOf 2 b).length)).rowsOut 2 b 8 30) s
  (List.range 4).foldl (fun (t : State) c =>
    (t.put ⟨FLT_LOFTSP, 3 * c + 2, 3 * c⟩ (min 4 (t.otp.rowsOf 3 c).length)).rowsOut 3 c 4 31) t

/-- The supply steps on record. -/
def Otp.vsteps (o : Otp) : Nat := (o.spares.filter (fun e => e.1 == 4)).length

/-- What the records put in force: every lane, and the rows that were applied last (R467). -/
def State.sparesApply (s : State) (failed : List Nat) : State :=
  (((s.lanesApply failed).rowsApply).put FLT_SPARE_VSTEPS s.otp.vsteps).put FLT_SPARE_OTPROWS s.otp.rows

/-- Every committed record is in force from this cold start on (R467). -/
def State.rowsForce (s : State) : State := s.modOtp (fun o => { o with inForce := o.spares.length })

/-- The smallest timing margin in percent: below 5 the supply rises by one step, which a record of it keeps; with no
record there is no step (R469, R470). -/
def State.ageing (s : State) (margin : Nat) (ok : Bool) : State :=
  let t := (s.put FLT_SPARE_MARGIN margin).modFaults (fun f => { f with aged := s.tick })
  if 5 ≤ margin then t
  else if 4 ≤ s.otp.vsteps then t.report 32 (BitVec.ofNat 20 margin)
  else
    let u := t.spareTry 4 (s.otp.vsteps + 1) ok
    u.put FLT_SPARE_VSTEPS u.otp.vsteps

/-- The ageing measurement of a DORMANT exit, whose command gives no margin: an open value (R469,
notes/assumptions/59.md). -/
def State.ageingOpen (s : State) : State :=
  let (n, t) := s.fresh
  t.ageing ((Config.freeW20 n).toNat % 128) (Config.freeBit n 0)

/-- AGEING_CHECK (R469): in RUN, once 24 hours have passed since the last measurement.  Whether the step's row can be
programmed is open (notes/assumptions/59.md). -/
def execAgeingCheck (margin : BitVec 7) (s : State) : Out := s.during s.inRun <|
  let (n, t) := s.fresh
  .next (if s.allGated ∨ s.tick - s.faults.aged < 86400 * 38400000 then s
    else t.ageing margin.toNat (Config.freeBit n 0))

/-- Lofts at 0xFFFFF and private RAMs at 0, every group good (R51). -/
def State.fillLofts (s : State) : State :=
  { s with pram := [], loft := [], memChk := s.memChk.filter (fun e => e.1 < 0x100000) }

/-! ## First light (R299, R442) -/

/-- The key-wrapping key and the identity key pair, drawn and committed together. -/
def State.firstLight (s : State) (ok : Bool) : State :=
  if s.otp.lit ∨ !ok then s
  else
    let (a, t) := s.fresh
    let (b, t) := t.fresh
    let d := ecScalar (Config.freeKey b)
    let q := (ecMul 256 d ecG).getD (0, 0)
    (t.modOtp (fun o => { o with
      lit := true, kek := Config.freeKey a, d := BitVec.ofNat 256 d, qx := BitVec.ofNat 256 q.1
      qy := BitVec.ofNat 256 q.2 })).trustShow

/-! ## The sequences (R438, R439, R446, R451) -/

/-- The radio's part of halter mode before it is in force: the LO, and STANDBY (R452). -/
def State.halterRadio (s : State) : State :=
  let v := fun (k : Nat) => s.rg (SYS_HALTER k)
  let t := ((s.put RFE_RXSYN_INT ((v 0).toNat / 32 % 128)).rxFracWrite (v 1)).gainWrite false 0x0008C
  let t := ((t.put RFE_TXMOD_ORDER 0).put RFE_TXMOD_RATE 1).put RFE_TXMOD_SHAPE 2
  let t := ((t.put RFE_TXMOD_DEV 683).put RFE_TXCH_CH 0).put RFE_TXCH_DRV ((v 0).toNat % 32)
  let t := t.setRg (PAS_TX 0) ((v 2 &&& 0x7FFF) ||| 0x80000)
  (t.setRg (PAS_RX 0) ((v 3 &&& 0x7FFF) ||| 0x80000)).radioRequest 1

/-- REASON from the first condition that holds (R451). -/
def State.startReason (s : State) (recovLow : Bool) : Nat :=
  if recovLow then 1 else if 8 ≤ s.keeper.fails then 2 else if s.keeper.recov then 4 else 0

/-- B0 released at 0xC000 in privileged mode. -/
def State.releaseB0 (s : State) : State :=
  (s.modCore 0 (fun x => { CoreSt.reset with epc := x.epc, esw := x.esw, ecause := x.ecause, eaddr := x.eaddr
                                             acts := x.acts })).coreOn 0

/-- The end of every start sequence. The ROM enters recovery where there is a REASON; else it issues APPLY for part 0,
whose work BOOT waits for (R446, R489). -/
def State.startEnd (s : State) (recovLow : Bool) : State :=
  let t := (s.put KMB_BOOT_REASON (s.startReason recovLow)).modKeeper (fun k => { k with started := true })
  if t.test KMB_BOOT_REASON then t.enterRecovery.releaseB0 else t.releaseB0.updCmd (.core 0 true) (updWord 4 0 0)

/-- The reference and the system PLL are ready (R438). -/
def State.clocksReady (s : State) : State :=
  if s.test CLK_STAT_REF_FAIL then s else (s.put CLK_STAT_REF_OK 1).put CLK_STAT_SPLL 1

/-- A start sequence of this kind is due, and nothing holds the device in reset. -/
def State.startDue (s : State) (cold : Bool) : Bool :=
  !s.stopped && !s.keeper.started && ((s.keeper.kind == .cold) == cold)

/-- The rows of a start up to the 900 µs one, once (R438, R439, R452): a cold start reads OTP and starts the clocks;
every start takes the committed halter record into use and requests STANDBY for halter mode. -/
def State.keeperEarly (s : State) : State :=
  if s.keeper.early then s
  else
    let t := s.modKeeper (fun k => { k with early := true })
    (if s.keeper.kind = .warm then t else t.otpRead.clocksReady).halterShow.halterRadio

/-- KEEPER_SEQUENCE (R438): after a cold reset other than a DORMANT exit. -/
def execKeeperSequence (st : SelfTest) (s : State) : Out := s.live <|
  if !s.startDue true then .next s
  else
    let t := s.keeperEarly.bootAdvance
    let t := ((t.spareTest st).rowsForce).sparesApply ((st.lanes.map (·.toNat)).filter (· < 52))
    let t := t.ageing st.margin.toNat st.otpOk
    let t := t.fillLofts.firstLight st.otpOk
    .next ((t.setRg FLC_INFO (st.flcInfo &&& 0x81FFF)).startEnd st.recovLow)

/-- KEEPER_SHORT_SEQUENCE (R439): after a warm reset, or after a DORMANT exit with the OTP read. -/
def execKeeperShortSequence (recovLow : Bool) (s : State) : Out := s.live <|
  if !s.startDue false then .next s
  else
    let t := s.keeperEarly.bootAdvance
    .next ((if s.keeper.kind = .dormant then ((t.sparesApply []).ageingOpen).fillLofts else t).startEnd recovLow)

/-! ## Halter mode and full service (R192, R334, R452, R453) -/

/-- The chord's part: the capture ring, both ports, 12.5 MBd. -/
def State.halterChord (s : State) : State :=
  let t := (s.setRg CHD_RXBASE 0x91A80).setRg CHD_RXCFG (BitVec.ofNat 20 (26 * 16 + 3))
  (t.put CHD_STATE_HALTER 1).chdCtl ((t.rg CHD_CTL) ||| 3)

/-- The stall's part: plan, pool 0 and S0. -/
def State.halterStall (s : State) : State :=
  let t := (s.put STC_PLAN_SPACING 0).setRg (STC_POOL_BUF 0) 0x90000
  let t := (t.setRg (STC_POOL_DESC 0) 0x91A00).poolFill 0 (BitVec.ofNat 20 (26 * 512 + 4))
  let t := t.setRg (STL_CFG 0) (BitVec.ofNat 20 (2 ^ 16 + 2 ^ 14 + 683))
  let t := (t.setRg (STL_SYNCLO 0) (regReset (STL_SYNCLO 0))).setRg (STL_SYNCHI 0) (regReset (STL_SYNCHI 0))
  (t.stallEn 0 true).put STC_STATE_HALTER 1

/-- The radio's next move toward LISTEN: the RX synthesizer calibration, then the window of chain A (R452). -/
def State.halterListen (s : State) : State :=
  if s.test KMB_BOOT_HRADIO ∨ s.rfe ≠ 2 ∨ !s.radio.cal.isEmpty then s
  else if !s.radio.rxCaled then s.calWrite 1
  else if 91392 ≤ s.tick - s.power.rstTick then s.windowOpen 1
  else s

/-- HRADIO and HCHORD show the parts in service. -/
def State.halterServe (s : State) : State :=
  let t := if s.rfe = 4 then s.put KMB_BOOT_HRADIO 1 else s
  if s.holds 12 && s.holds 13 then t.put KMB_BOOT_HCHORD 1 else t

/-- HALTER_MODE_IN_FORCE (R438, R452): the keeper's early rows end by tick 34,560 and the radio is prepared ahead,
whether or not B0 has been released; from tick 96,000 halter mode is in force, and each part is in service once it has
its grant. -/
def execHalterModeInForce (s : State) : Out :=
  if s.stopped ∨ s.test KMB_BOOT_SERVICE ∨ (!s.keeper.early ∧ s.tick - s.power.rstTick < 34560) then .next s
  else
    let t := s.keeperEarly.halterListen
    if s.test KMB_BOOT_HALTER then .next t.halterServe
    else if s.tick - s.power.rstTick < 96000 then .next t
    else .next ((t.put KMB_BOOT_HALTER 1).halterStall.halterChord.halterServe)

/-- The end of halter mode (R192, R453): a frame that a halter node is sending is cut, and its reads are forgotten
(R322). -/
def State.halterEnd (s : State) : State :=
  if !s.test KMB_BOOT_HALTER then s
  else
    let s := if s.chord.halter.isSome then (s.txForget).modChord (fun c => { c with txGot := [] }) else s
    let t := (((s.stallEn 0 false).put STC_STATE_HALTER 0).put CHD_STATE_HALTER 0).put KMB_BOOT_HALTER 0
    ((t.put KMB_BOOT_HRADIO 0).put KMB_BOOT_HCHORD 0).modChord (fun c => { c with halter := none })

/-- DECLARE := 1 (R453). -/
def State.declare (s : State) (src : Source) : State :=
  if !mayTrust src ∨ s.test KMB_BOOT_SERVICE then s
  else ((s.halterEnd.setFails 0).modKeeper (fun k => { k with launch := none })).put KMB_BOOT_SERVICE 1

def execDeclareService (src : Source) (s : State) : Out := s.during s.clocked <|
  .next (s.reachWith src KMB_SVC (fun t => t.declare src))

/-! ## The start watchdog (R449) -/

/-- START_TIMEOUT: MS milliseconds after the launch; it does not run in recovery, nor with MS 0. -/
def execStartTimeout (s : State) : Out :=
  match s.keeper.launch with
  | none => .next s
  | some t0 =>
    let ms := s.get KMB_WDOG_MS
    .next (if s.stopped ∨ ms = 0 ∨ s.test KMB_BOOT_REASON ∨ s.tick - t0 < 38400 * ms then s else s.warmReset 7 false)

def execKmbWdogWrite (v : W20) (s : State) : Out := s.during s.clocked <| .next (s.setRg KMB_WDOG v)

/-! ## BOOT (R446-R448) -/

/-- B0's loft from word 0: the code, then 0xFFFFF to its end. -/
def State.loftLoad (s : State) (code : List Byte) : State :=
  let w := (chunks 3 code.length code).map wordOf
  { s with loft := tabFill loftDflt s.loft 0 0x4000 (fun i => w.getD i 0xFFFFF)
           memChk := tabFill chkDflt s.memChk 0x200000 0x4000 (fun _ => .good) }

/-- An area tried: its code and data are loaded as they are hashed. -/
def State.bootTry (s : State) (f : Nat) : Option Loader × State :=
  if !s.test FLC_INFO_PRESENT then (none, s)
  else match s.loaderAt f with
    | none => (none, s)
    | some r =>
      let t := s.loftLoad (s.loaderCode f r)
      let t := if r.ndata = 0 then t else t.ramWrite .sram r.daddr (s.loaderData f r)
      (if s.loaderPasses f r then some r else none, t)

/-- An area passes: B0 is core-reset at ENTRY and the watchdog starts. -/
def State.launch (s : State) (r : Loader) (area : Nat) : State :=
  let t := (s.set32 KMB_VERLO KMB_VERHI (BitVec.ofNat 32 r.version)).put KMB_BOOT_AREA area
  let t := (t.put KMB_BOOT_UNVERIFIED (bit !s.otp.anyRoot)).setFails (min 15 (s.keeper.fails + 1))
  let t := (t.put (CC_START_START 0) r.entry).put (CC_RUN_RUN 0) 1
  (t.coreReset 0).modKeeper (fun k => { k with launch := some s.tick })

/-- Both areas fail: B0 starts again in the ROM, which enters recovery. -/
def State.noLoader (s : State) : State :=
  let t := ((s.loftLoad []).put KMB_BOOT_REASON 3).enterRecovery
  ((t.put (CC_START_START 0) 0xC000).put (CC_RUN_RUN 0) 1).coreReset 0

/-- BOOT to its end, with its result. -/
def State.boot (s : State) : Nat × State :=
  match s.bootTry 0 with
  | (some r, t) => (0, t.launch r 0)
  | (none, t) => match t.bootTry 0x40000 with
    | (some r, u) => (0, u.launch r 1)
    | (none, u) => (12, u.noLoader)

/-! ## Orders (R302-R305, R454) -/

/-- A signed order's conditions in the order of R304; 0 accepted. -/
def State.signedJudge (s : State) (code : Nat) (l : List Byte) : Nat :=
  let magic := match code with
    | 0x10 => [0x52, 0x53, 0x54, 0x31]
    | 0x11 => [0x52, 0x52, 0x56, 0x31]
    | _ => [0x44, 0x42, 0x54, 0x31]
  let target := beAt l 42 1
  let signer := beAt l 43 1
  let key := (l.drop 44).take 64
  if l.take 4 ≠ magic ∨ (code = 0x13 ∧ 8 ≤ beAt l 40 2) then 1
  else if (l.drop 4).take 32 ≠ s.idDigest then 2
  else if s.test SYS_OTP_BCNT_SPENT ∨ beAt l 36 4 ≠ s.bootCount then 3
  else if !s.otp.rootIs signer key then 4
  else if !signedBy key (l.drop 172) (l.take 172) then 5
  else if code = 0x10 ∧ (1 < target ∨ (s.otp.rootSet target).isSome ∨ target = signer) then 6
  else if code = 0x11 ∧ ((s.otp.validRoot target).isNone ∨ target = signer) then 6
  else 0

/-- What an accepted trust order commits. -/
def trustCommit (code : Nat) (l : List Byte) : OtpCommit :=
  match code with
  | 0x10 => .rootSet (beAt l 42 1) (BitVec.ofNat 256 (ofBytesBE (sha256 ((l.drop 108).take 64))))
  | 0x11 => .rootRevoke (beAt l 42 1)
  | _ => .unlock (beAt l 40 2 % 8)

/-- A trust order before seal: its target decides (R302). -/
def State.unsignedJudge (s : State) (code : Nat) (l : List Byte) : Nat :=
  let target := beAt l 42 1
  if code = 0x10 then (if 1 < target ∨ (s.otp.rootSet target).isSome then 6 else 0)
  else if (s.otp.validRoot target).isNone ∨ (s.otp.validRoot (1 - target)).isNone then 6
  else 0

/-- ROOT_SET, ROOT_REVOKE and DBG_UNLOCK: result and commit, with the boot's allowance spent (R302, R304). -/
def State.trustOrder (s : State) (code : Nat) : KOrder × State :=
  match s.operand (s.get KMB_ADDR_VALUE) 236 with
  | (none, t) => (⟨code, 10, .none⟩, t)
  | (some l, t) =>
    if !s.otp.isSealed then
      let r := if code = 0x13 then 6 else s.unsignedJudge code l
      (⟨code, r, if r = 0 then trustCommit code l else .none⟩, t)
    else if s.test TRUST_STATE_ORDER_USED then (⟨code, 7, .none⟩, t)
    else
      let r := s.signedJudge code l
      (⟨code, r, if r = 0 then trustCommit code l else .none⟩, t.put TRUST_STATE_ORDER_USED 1)

/-- CEIL_SET. -/
def State.ceilOrder (s : State) : KOrder :=
  let v := s.get KMB_ARG_VALUE
  if s.otp.ceil.isSome then ⟨0x20, 9, .none⟩
  else if v % 1024 = 0 ∨ v % 1024 < s.manger.heldSum then ⟨0x20, 10, .none⟩
  else ⟨0x20, 0, .ceil (BitVec.ofNat 11 v)⟩

/-- HALTER_SET. -/
def State.halterOrder (s : State) : KOrder × State :=
  if s.otp.halter.isSome then (⟨0x21, 9, .none⟩, s)
  else match s.operand (s.get KMB_ADDR_VALUE) 12 with
    | (none, t) => (⟨0x21, 10, .none⟩, t)
    | (some l, t) =>
      let w := fun i => wordOf (l.drop (3 * i))
      if loInRange ((w 0).toNat / 32 % 128) (w 1).toNat then
        (⟨0x21, 0, .halter #v[w 0 &&& 0xFFF, w 1, w 2 &&& 0x7FFF, w 3 &&& 0x7FFF]⟩, t)
      else (⟨0x21, 10, .none⟩, t)

/-- FLOOR_RAISE. -/
def State.floorOrder (s : State) : KOrder × State :=
  if 16 ≤ s.otp.floors.length then (⟨0x23, 9, .none⟩, s)
  else match s.operand (s.get KMB_ADDR_VALUE) 4 with
    | (none, t) => (⟨0x23, 10, .none⟩, t)
    | (some l, t) =>
      if beAt l 0 4 ≤ s.otp.floor then (⟨0x23, 10, .none⟩, t)
      else (⟨0x23, 0, .floor (BitVec.ofNat 32 (beAt l 0 4))⟩, t)

/-- Whether the source may give the order (R454). -/
def State.orderAllowed (s : State) (src : Source) (code : Nat) : Bool :=
  mayTrust src && !(src == .debug && s.otp.isSealed && code != 0x13) &&
    (code != 1 || (match src with
      | .core c _ => c == 0
      | _ => false))

/-- An order judged as it starts.  BOOT stops B0. -/
def State.orderStart (s : State) (src : Source) (code : Nat) : KOrder × State :=
  if !s.orderAllowed src code then (⟨code, 8, .none⟩, s)
  else match code with
    | 0x01 => (⟨1, 0, .none⟩, s.coreOff 0)
    | 0x02 => (⟨2, 0, .none⟩, s)
    | 0x10 | 0x11 | 0x13 => s.trustOrder code
    | 0x12 => (if s.otp.isSealed ∨ !s.otp.anyRoot then ⟨0x12, 6, .none⟩ else ⟨0x12, 0, .seal⟩, s)
    | 0x20 => (s.ceilOrder, s)
    | 0x21 => s.halterOrder
    | 0x22 => (if s.otp.energy then ⟨0x22, 9, .none⟩ else ⟨0x22, 0, .energy⟩, s)
    | 0x23 => s.floorOrder
    | _ => (⟨code, 10, .none⟩, s)

/-- A START: discarded with REFUSED while an order runs; the keeper takes none before first light (R442, R454). -/
def State.keeperOrder (s : State) (src : Source) (code : Nat) : State :=
  if s.keeper.order.isSome then s.raise KMB_FLAGS_REFUSED
  else if !s.otp.lit then s
  else
    let (o, t) := s.orderStart src code
    let t := ((t.put KMB_STAT_BUSY 1).put KMB_STAT_LAST code).modKeeper
      (fun k => { k with order := some o, bootWaits := o.boots && s.updHolds })
    if o.engine then t.cphWork else t

/-- A write of KMB_ORDER. -/
def State.orderWrite (s : State) (src : Source) (v : W20) : State :=
  let t := s.setRg KMB_ORDER (v &&& 0xFF)
  if v.getLsbD 19 then t.writeAction 0xF0 (fun u => u.keeperOrder src (v.toNat % 256)) else t

def execKoBoot (src : Source) (s : State) : Out :=
  s.during s.clocked <| .next (s.reachWith src KMB_ORDER (fun t => t.orderWrite src 0x80001))
def execKoFailsClear (src : Source) (s : State) : Out :=
  s.during s.clocked <| .next (s.reachWith src KMB_ORDER (fun t => t.orderWrite src 0x80002))
def execKoCeilSet (src : Source) (s : State) : Out :=
  s.during s.clocked <| .next (s.reachWith src KMB_ORDER (fun t => t.orderWrite src 0x80020))
def execKoHalterSet (src : Source) (s : State) : Out :=
  s.during s.clocked <| .next (s.reachWith src KMB_ORDER (fun t => t.orderWrite src 0x80021))
def execKoEnergyClass (src : Source) (s : State) : Out :=
  s.during s.clocked <| .next (s.reachWith src KMB_ORDER (fun t => t.orderWrite src 0x80022))
def execKoFloorRaise (src : Source) (s : State) : Out :=
  s.during s.clocked <| .next (s.reachWith src KMB_ORDER (fun t => t.orderWrite src 0x80023))
def execKoRootSet (src : Source) (s : State) : Out :=
  s.during s.clocked <| .next (s.reachWith src KMB_ORDER (fun t => t.orderWrite src 0x80010))
def execKoRootRevoke (src : Source) (s : State) : Out :=
  s.during s.clocked <| .next (s.reachWith src KMB_ORDER (fun t => t.orderWrite src 0x80011))
def execKoSeal (src : Source) (s : State) : Out :=
  s.during s.clocked <| .next (s.reachWith src KMB_ORDER (fun t => t.orderWrite src 0x80012))
def execKoDbgUnlock (src : Source) (s : State) : Out :=
  s.during s.clocked <| .next (s.reachWith src KMB_ORDER (fun t => t.orderWrite src 0x80013))

/-- A record committed to OTP, and what takes effect with it (R302, R305, R454, R510). -/
def State.otpCommit (s : State) : OtpCommit → State
  | .none => s
  | .ceil r => ((s.modOtp (fun o => { o with ceil := some r })).put SYS_OTP_CEIL 1).ceilShow
  | .halter v => (s.modOtp (fun o => { o with halter := some v })).put SYS_OTP_HALTER 1
  | .energy => ((s.modOtp (fun o => { o with energy := true })).put SYS_OTP_ENERGY 1).padShow
  | .floor v => (s.modOtp (fun o => { o with floors := o.floors ++ [v] })).floorShow
  | .rootSet n d =>
    (s.modOtp (fun o => if n = 0 then { o with root0 := some d } else { o with root1 := some d })).trustShow
  | .rootRevoke n => (s.modOtp (fun o => if n = 0 then { o with rev0 := true } else { o with rev1 := true })).trustShow
  | .seal => (s.modOtp (fun o => { o with isSealed := true })).trustShow
  | .unlock n => (s.put TRUST_STATE_DBG_OPEN 1).put TRUST_STATE_SCOPE n

/-- Whether a commit programs OTP. -/
def OtpCommit.programs : OtpCommit → Bool
  | .none | .unlock _ => false
  | _ => true

/-- What an order leaves, with its result; a ceiling that has fallen below what is held is not committed. -/
def State.orderEnd (s : State) (o : KOrder) (otpOk : Bool) : Nat × State :=
  if o.res ≠ 0 then (o.res, s)
  else if o.code = 1 then s.boot
  else if o.code = 2 then (0, s.setFails 0)
  else match o.commit with
    | .ceil r => if r.toNat % 1024 < s.manger.heldSum then (10, s)
      else if otpOk then (0, s.otpCommit (.ceil r)) else (11, s)
    | c => if c.programs && !otpOk then (11, s) else (0, s.otpCommit c)

/-- An order can end: one that works with the engines has their charge, and BOOT has waited for the flash and for an
update command that held it (R293, R448, R496). -/
def State.orderReady (s : State) (o : KOrder) : Bool :=
  (!o.engine || s.holds 14) && (!o.boots || !(s.test FLC_STATUS_BUSY || s.keeper.bootWaits))

/-- KEEPER_ORDER_DONE (R454). -/
def execKeeperOrderDone (otpOk : Bool) (s : State) : Out :=
  match s.keeper.order with
  | none => .next s
  | some o =>
    if s.stopped ∨ !s.orderReady o then .next s
    else
      let (res, t) := s.orderEnd o otpOk
      let t := t.modKeeper (fun k => { k with order := none })
      .next ((((t.put KMB_STAT_BUSY 0).put KMB_STAT_RESULT res).put KMB_FLAGS_DONE 1).latchReqs)

end Sys2Proof.Machine
end

