-- ==== Sys2Proof/Machine/FaultLog.lean ====
section
/-! DEFINITION. The commands of the fault block (R459-R464, R468) and of the pads (R509, R510). -/

namespace Sys2Proof.Machine

/-- The cause of a source still holds, as the "Persists while" column of R460 gives it. -/
def State.persists (s : State) (code : Nat) : Bool :=
  match code with
  | 6 => (List.range 4).any (fun c => (s.cores.toList[c]?.map (fun x => x.run == .doubleExc)).getD false)
  | 13 => s.test RFE_FLAGS_MASK_BREACH
  | 15 => s.test LNK_FLAGS_FOLD_ERR
  | 16 => s.test TRNG_STAT_FAIL
  | 17 => s.test DMA_FLAGS_HALT
  | 19 => s.test CLK_STAT_SLK_FAIL
  | 20 => s.test CLK_STAT_REF_FAIL
  | 21 | 23 | 24 => s.yst == yFAILED
  | 28 => s.test SYS_OTP_ID_BAD
  | 29 => (List.range 48).any (fun p => s.get (laneOf p) == 63)
  | _ => false

/-- DETAIL of a repeated report, as its column in R460 has it: for DMA_STOP and CORE_DOUBLE from the registers, and
for a source whose cause names no register what it reported last (notes/assumptions/18.md). -/
def State.lastDetail (s : State) (code : Nat) : W20 :=
  match code with
  | 6 => BitVec.ofNat 20 (((List.range 4).find? (fun c => s.cores.toList[c]?.map (·.run) == some .doubleExc)).getD 0)
  | 13 | 21 | 23 | 29 => tabGet (fun _ => 0) s.faults.last code
  | 17 => s.rg DMA_ERRINFO
  | _ => 0

/-- A W1C write of FLT_SRC0 or FLT_SRC1 (R459). -/
def State.srcClear (s : State) (k : Nat) (v : W20) : State :=
  let bits := (List.range (if k = 0 then 20 else 16)).filter (fun i => v.getLsbD i)
  let t := bits.foldl (fun (t : State) i => t.put (faultBit (20 * k + i)) 0) s
  bits.foldl (fun (t : State) i =>
    if s.test (faultBit (20 * k + i)) && t.persists (20 * k + i) then
      t.report (20 * k + i) (t.lastDetail (20 * k + i))
    else t) t

/-- FLT_RELEASE (R464): each named entry is free. -/
def State.release16 (s : State) (v : W20) : State :=
  (List.range 16).foldl (fun (t : State) k => if v.getLsbD k then
    { t.put (FLT_E_HDR_COMMIT k) 0 with faults := { t.faults with order := t.faults.order.filter (· != k) } } else t) s

/-- The position that a lane carries. -/
def State.posOf (s : State) (l : Nat) : Option Nat := (List.range 48).find? (fun p => s.get (laneOf p) == l)

/-- WITHDRAW (R468). -/
def State.withdrawLane (s : State) (l : Nat) : State :=
  let done := fun (t : State) (r : Nat) => t.put FLT_SPSTAT_RESULT r
  if 52 ≤ l ∨ s.laneFailed l then done s 1
  else if (s.posOf l).any (fun p => s.test (STL_CFG_EN p)) then done s 2
  else if 64 ≤ s.otp.rows then done (s.report 33 0) 4
  else
    let t := s.setLaneFail l
    match s.posOf l with
    | none => done (t.spareOpen 1 l) 0
    | some p => done ((t.respare p).spareOpen 1 l).lanesShow (if t.spareLane.isSome then 0 else 3)

/-- A write of FLT_SPCMD: only WITHDRAW does anything. -/
def State.spareCmd (s : State) (v : W20) : State :=
  if v.toNat / 2 ^ 16 = 1 then s.withdrawLane (v.toNat % 64) else s

/-- An error in the group that DETAIL names, which a read finds (R115, R460, R466). -/
def State.ramFinds (r : Ram) (a : Nat) (c : Chk) (s : State) : State := ((s.setChk (r.group a) c).ramRead r a 1).2

/-- An error in the loft word that DETAIL names, which a fetch finds (R460, R466). -/
def State.loftFinds (c : CoreId) (w : Nat) (e : Chk) (s : State) : State :=
  ((s.setChk (0x200000 + State.loftKey c w) e).loftRead c w).2

/-- An error in a yard word, which a read finds (R431, R466): DETAIL is the low part of its channel-local address, and
the rest of the address is open (notes/assumptions/6.md and 68.md). -/
def State.yardFinds (d : W20) (ue : Bool) (s : State) : State :=
  let (n, t) := s.fresh
  let c := (Config.freeW20 n).toNat / 2 ^ 19 % t.yardChans
  let a := (Config.freeW20 n).toNat % (t.yardU / 2 ^ 20) * 2 ^ 20 + d.toNat
  if ue then (t.setYardChk (t.yardKeyAt c a) .bad).yardUe c a else t.yardCe c a

/-- FAULT_REPORT (R457-R466).  The errors of a memory are those of the word that DETAIL names, as a read of it finds
them: a corrected one is put right and counted against its row, and an uncorrectable one stays in the word. -/
def execFaultReport (code : Fin 36) (detail : W20) (s : State) : Out :=
  let d := detail.toNat
  let c : CoreId := Fin.ofNat 4 (d / 2 ^ 18)
  .next (match code.val with
    | 7 => if inSram d 1 then s.ramFinds .sram d .correctable else s.report 7 detail
    | 8 => if inSram d 1 then s.ramFinds .sram d .bad else s.report 8 detail
    | 9 => s.loftFinds c d .correctable
    | 10 => s.loftFinds c d .bad
    | 11 => s.ramFinds (.pram c) d .correctable
    | 12 => s.ramFinds (.pram c) d .bad
    | 25 => if s.test YRD_CTL_ECC then s.yardFinds detail false else s.report 25 detail
    | 26 => if s.test YRD_CTL_ECC then s.yardFinds detail true else s.report 26 detail
    | k => s.report k detail)

def execFltSrcClear (k : Fin 2) (v : W20) (s : State) : Out := s.during s.clocked <| .next (s.srcClear k.val v)
def execFltRelease (v : W20) (s : State) : Out := s.during s.clocked <| .next (s.release16 v)
def execLaneWithdraw (lane : BitVec 6) (s : State) : Out := s.during s.inAir <| .next (s.withdrawLane lane.toNat)

/-- A write of PAD_CFG (R509, R510). -/
def State.padWrite (s : State) (v : W20) : State :=
  if s.otp.energy then s else (s.put PAD_CFG_LIM_VFL (bit (v.getLsbD 1))).put PAD_CFG_LIM_VIO (bit (v.getLsbD 0))

def execPadCfgWrite (v : W20) (s : State) : Out := s.during s.clocked <| .next (s.padWrite v)

end Sys2Proof.Machine
end

