-- ==== Sys2Proof/Machine/Nbt.lean ====
section
/-! DEFINITION. The neighbour table's commands (R242, R243, R246), the writes that place it (R239, R257), and the knock
catch (R234, R235). -/

namespace Sys2Proof.Machine

/-! ## Commands -/

/-- The table's key (R246). -/
def State.nbKey (s : State) : BitVec 32 := s.get32 NBT_KEYLO NBT_KEYHI

/-- A command's RESULT and INDEX. -/
def State.nbResult (s : State) (r i : Nat) : State := (s.put NBT_STAT_RESULT r).put NBT_STAT_INDEX i

/-- A replay record's word 0 cleared (R257). -/
def State.rpwClear (s : State) (i : Nat) : State := s.ramWrite .sram (s.get RPW_BASE_BASE + 32 * i) [0, 0, 0]

/-- FIND (R246). -/
def State.nbCmdFind (s : State) : State :=
  match s.nbFind s.nbKey with
  | some i => s.nbResult 1 i
  | none => match (s.nbProbe s.nbKey).find? (fun i => (s.nb i).st == 0) with
    | some i => s.nbResult 2 i
    | none => s.put NBT_STAT_RESULT 3

/-- ADD (R246). -/
def State.nbCmdAdd (s : State) (i : Nat) : State :=
  let (r, t) := s.nbRead i
  if r.st = 0 ∧ (s.nbProbe s.nbKey).contains i ∧ s.nbFind s.nbKey = none then
    (((t.nbWrite i { r with st := 1, miss := 0, tsrc := false, nsamp := 0, unc := s.get NBT_UCFG_UINIT
                            addr := s.nbKey, era := 0, ofs := 0, last := 0, drift := 0 })).rpwClear i).nbResult 0 i
  else t.nbResult 4 i

/-- MISS (R242): discarded in the tick of an accepted sample for the same record (notes/assumptions/12.md). -/
def State.nbCmdMiss (s : State) (i : Nat) : State :=
  let (r, t) := s.nbRead i
  if r.st = 0 then t.nbResult 4 i
  else if s.sched.taken.contains (s.tick, i) then t.nbResult 0 i
  else
    let m := min 7 (r.miss + 1)
    let t := t.nbResult 0 i
    if r.st = 2 ∧ max 1 (s.get NBT_CFG_MISS_LIMIT) ≤ m then
      ((t.nbWrite i { r with miss := m, st := 3 }).bump NBT_CNT1_LOSTS).raise SCH_FLAGS_LOST
    else t.nbWrite i { r with miss := m }

/-- SET (R246). -/
def State.nbCmdSet (s : State) (i : Nat) : State :=
  let (r, t) := s.nbRead i
  if r.st = 0 then t.nbResult 4 i
  else
    let tm := s.get40 NBT_TLO NBT_THI
    (t.nbWrite i { r with last := tm, era := s.eraOf tm, ofs := (s.get40 NBT_OFSLO NBT_OFSHI).toInt
                          drift := s.getInt NBT_DRIFT_DRIFT, unc := s.get NBT_HALF_HALF % 2 ^ 10, nsamp := 1
                          miss := 0, st := 2 }).nbResult 0 i

/-- The first rendezvous slot whose start is at or after `t` (R231, R246). -/
def State.nbRendezvous (s : State) (r : NbRec) (t : W40) : Int :=
  let d := (t - s.sched.start).toInt
  let len : Int := max 1 s.sched.slotLen
  let a : Int := s.sched.asn.toNat + (-((-d) / len))
  a + (r.phase - a) % r.si

/-- The receive half-width H of R243, in ticks; `up` says which way a half-width that is no whole number goes, which
the spec leaves open (notes/assumptions/12.md). -/
def State.nbHalf (s : State) (r : NbRec) (t : W40) (up : Bool) : Nat :=
  let g := s.nbGuard r t
  let l := max 1 (s.get NBT_CFG_MISS_LIMIT)
  let h := if r.st = 2 then g
    else if l ≤ r.miss + 1 then min (s.sched.slotLen / 2) (g * 2 ^ (r.miss + 1 - l))
    else
      let d := 2 ^ (l - r.miss - 1)
      min (s.sched.slotLen / 2) (g / d + bit (g % d != 0 && up))
  min 0xFFFFF h

/-- The send half-width S of R243, in units of 512 ticks. -/
def State.nbSend (s : State) (r : NbRec) (t : W40) : Nat :=
  let v := if r.st = 2 then s.nbGuard r t
    else s.get NBT_CFG_GBASE + ceilDiv (s.get NBT_DBOUND_DBOUND * s.nbAge r t) (10 ^ 7)
  min 0xFFFFF (ceilDiv v 512)

/-- PREDICT (R243, R246). -/
def State.nbCmdPredict (s : State) (i : Nat) : State :=
  let (r, t) := s.nbRead i
  if r.st ≠ 2 ∧ r.st ≠ 3 then t.nbResult 4 i
  else
    let (k, t) := t.fresh
    let tm := s.get40 NBT_TLO NBT_THI
    let a := s.nbRendezvous r tm
    let tp : W40 := if r.si = 0 then tm else BitVec.ofInt 40 (s.mark a)
    let t := if r.si = 0 then t
      else (t.set40 NBT_TLO NBT_THI tp).setRg NBT_RVASN (BitVec.ofInt 20 a)
    let t := t.set40 NBT_OFSLO NBT_OFSHI (BitVec.ofInt 40 (s.nbPred r tp))
    let t := t.setRg NBT_DRIFT (BitVec.ofInt 20 r.drift)
    let t := t.setRg NBT_HALF (BitVec.ofNat 20 (s.nbHalf r tp (Config.freeBit k 0)))
    let t := t.setRg NBT_SENDH (BitVec.ofNat 20 (s.nbSend r tp))
    t.nbResult 0 i

/-- TSRC1 and TSRC0 (R246). -/
def State.nbCmdTsrc (s : State) (i : Nat) (on : Bool) : State :=
  let (r, t) := s.nbRead i
  if on ∧ r.st = 0 then t.nbResult 4 i else (t.nbWrite i { r with tsrc := on }).nbResult 0 i

/-- CLEAR (R246). -/
def State.nbCmdClear (s : State) (i : Nat) : State :=
  ((s.ramWrite .sram (s.nbAt i) [0, 0, 0]).rpwClear i).nbResult 0 i

/-- A write of NBT_CMD (R246): refused while BUSY; INDEX beyond COUNT, a disabled table or another OP gives RESULT 4.
-/
def State.nbCommand (s : State) (op i : Nat) : State :=
  if s.test NBT_STAT_BUSY then s.raise SCH_FLAGS_CMD_REFUSED
  else
    let t := s.nbResult 4 i
    let t :=
      if !s.test NBT_SIZE_EN then t
      else if op = 1 then (if s.nbCount = 0 then t else s.nbCmdFind)
      else if s.nbCount ≤ i then t
      else match op with
        | 2 => s.nbCmdAdd i
        | 3 => s.nbCmdClear i
        | 4 => s.nbCmdMiss i
        | 5 => s.nbCmdSet i
        | 6 => s.nbCmdPredict i
        | 7 => s.nbCmdTsrc i true
        | 8 => s.nbCmdTsrc i false
        | _ => t
    (t.modSched (fun c => { c with busy := true })).put NBT_STAT_BUSY 1

def execNbtFind (s : State) : Out := s.during s.clocked <| .next (s.nbCommand 1 0)
def execNbtAdd (i : BitVec 11) (s : State) : Out := s.during s.clocked <| .next (s.nbCommand 2 i.toNat)
def execNbtClear (i : BitVec 11) (s : State) : Out := s.during s.clocked <| .next (s.nbCommand 3 i.toNat)
def execNbtMiss (i : BitVec 11) (s : State) : Out := s.during s.clocked <| .next (s.nbCommand 4 i.toNat)
def execNbtSet (i : BitVec 11) (s : State) : Out := s.during s.clocked <| .next (s.nbCommand 5 i.toNat)
def execNbtPredict (i : BitVec 11) (s : State) : Out := s.during s.clocked <| .next (s.nbCommand 6 i.toNat)
def execNbtTsrc1 (i : BitVec 11) (s : State) : Out := s.during s.clocked <| .next (s.nbCommand 7 i.toNat)
def execNbtTsrc0 (i : BitVec 11) (s : State) : Out := s.during s.clocked <| .next (s.nbCommand 8 i.toNat)

/-- NBT_COMMAND_DONE (R246): BUSY clears, and the samples that waited are taken (R241). -/
def execNbtCommandDone (s : State) : Out := s.during s.inRun <|
  if !s.sched.busy then .next s
  else .next (((s.modSched (fun c => { c with busy := false })).put NBT_STAT_BUSY (bit s.sched.sweep)).sampleRun)

/-! ## Placing the table (R239, R257) -/

/-- A write of NBT_BASE or RPW_BASE: only while EN is 0, on a multiple of 64, within shared SRAM. -/
def State.tableBase (s : State) (a : Nat) (v : W20) : State :=
  if s.test NBT_SIZE_EN ∨ v.toNat % 64 ≠ 0 ∨ 0xA0000 < v.toNat + 32 * s.nbCount then s.raise SCH_FLAGS_CFG_REFUSED
  else s.setRg a v

/-- A write of NBT_SIZE: COUNT and PROBE only while EN is 0 (R239). -/
def State.nbtSize (s : State) (v : W20) : State :=
  let n := v.toNat % 2 ^ 11
  if s.test NBT_SIZE_EN then
    let same := (s.rg NBT_SIZE &&& 0x3C7FF) == (v &&& 0x3C7FF)
    if same then s.setRg NBT_SIZE (v &&& 0xFC7FF)
    else (s.setRg NBT_SIZE ((v &&& 0xC0000) ||| (s.rg NBT_SIZE &&& 0x3C7FF))).raise SCH_FLAGS_CFG_REFUSED
  else if 1024 < n ∨ 0xA0000 < s.get NBT_BASE_BASE + 32 * n ∨ 0xA0000 < s.get RPW_BASE_BASE + 32 * n then
    s.raise SCH_FLAGS_CFG_REFUSED
  else s.setRg NBT_SIZE (v &&& 0xFC7FF)

/-! ## Knocks (R234, R235) -/

/-- Knocks are sought on a stall: KNK_EN, or whatever it holds in an orbit step of TEST 1 (R234, R410). -/
def State.knockOn (s : State) (p : Nat) : Bool :=
  (s.rg (KNK_EN (p / 20))).getLsbD (p % 20) ||
    (s.power.phase == .pass && (match s.power.orbit with
      | some o => s.get (ORB_S_OP_TEST o.step) == 1
      | none => false))

/-- Hard decisions of 32 symbols are a knock: they differ from the stall's sync word in at least 32 - ERRS positions,
and LEN is 32 (R234). -/
def State.knockMatch (s : State) (p : Nat) (rx : AerialRx) : Bool :=
  s.get (STL_SYNCHI_LEN p) == 32 && 32 ≤ s.syncDiff p 32 rx.hard + s.get (STL_SYNCHI_ERRS p)

/-- KNOCK_CAUGHT (R234): for each aerial the hard decisions, and in `corr` the magnitude of their sync correlation. -/
def execKnockCaught (p : Pos) (rxA rxB : AerialRx) (s : State) : Out := s.during s.inAir <|
  let a := s.knockMatch p.val rxA && s.aerialOn p.val false
  let b := s.knockMatch p.val rxB && s.aerialOn p.val true
  if s.stl p.val < 2 ∨ 4 < s.stl p.val ∨ (s.stall p.val).knock.isSome ∨ !s.knockOn p.val ∨
      !s.symsSince p.val (s.stall p.val).search 32 then .next s
  else match bestAerial a b rxA rxB with
    | none => .next s
    | some onB =>
      let r := s.syncRec p.val onB rxA rxB
      .next (s.modStall p.val (fun x => { x with sync := r, knock := some (r.ts, s.tick) }))

/-- The catch record that takes a knock of position `p`. -/
def State.kcSlot (s : State) (p : Nat) : Option Nat :=
  match (List.range 4).find? (fun n => s.test (KC_INFO_VALID n) && s.get (KC_INFO_POS n) == p) with
  | some n => some n
  | none => (List.range 4).find? (fun n => !s.test (KC_INFO_VALID n))

/-- COUNTDOWN_RECEIVED (R234, R235): the decisions of the 52 symbols after a knock, once they have reached RFIN; the
stall returns to SEARCH. -/
def execCountdownReceived (p : Pos) (fields : BitVec 52) (s : State) : Out := s.during s.inAir <|
  match (s.stall p.val).knock with
  | none => .next s
  | some (tk, b) =>
    if !s.symsSince p.val b 52 then .next s else
    let t := (s.modStall p.val (fun x => { x with knock := none })).put (STL_STATUS_STATE p.val) 2
    let v := fields.toNat / 2 ^ 12
    if crc12 40 v ≠ fields.toNat % 2 ^ 12 then .next (t.bump KNK_CNT_BAD)
    else
      let t := (t.bump KNK_CNT_CAUGHT).orbitHear 1 p.val
      match t.kcSlot p.val with
      | none => .next (t.raise SCH_FLAGS_KC_FULL)
      | some n =>
        let d := tk + BitVec.ofNat 40 ((52 + 92 * (v / 2 ^ 20) + 48) * s.symTicks p.val)
        let t := (t.set40 (KC_DLO n) (KC_DHI n) d).setRg (KC_ASN n) (BitVec.ofNat 20 v)
        .next ((t.setRg (KC_INFO n) (BitVec.ofNat 20 (2 ^ 19 + p.val))).raise SCH_FLAGS_KNOCK)

end Sys2Proof.Machine
end

