-- ==== Sys2Proof/Machine/Power.lean ====
section
/-! DEFINITION. Clocks, power states, sleep and wake (R391-R406, R411), and orbit (R407-R410). -/

namespace Sys2Proof.Machine

def State.modPower (s : State) (f : Power → Power) : State := { s with power := f s.power }

/-! ## Gated cores and DOZE (R399) -/

/-- PWR_STATE as it reads: DOZE in place of RUN while every core is gated. DESIGN CHOICE: right after a cold reset
every core is stopped, and it reads 1 as R399 has it, where the register's reset column says 0
(notes/assumptions/66.md). -/
def State.pwrState (s : State) : W20 :=
  if s.power.phase = .run then fieldSet (s.rg PWR_STATE) 2 0 (bit s.allGated) else s.rg PWR_STATE

/-- DOZE (R399). -/
def execDoze (s : State) : Out := s.during s.inRun <| .next (s.setRg PWR_STATE s.pwrState)

/-! ## Wake sources (R402, R403) -/

/-- A GPIO pin's level-type wake condition holds. -/
def State.gpioWakes (s : State) : Bool :=
  (List.range 24).any (fun n => (s.get (GPIO_CFG_WAKE n) == 1 && s.ballLvl n) ||
    (s.get (GPIO_CFG_WAKE n) == 2 && !s.ballLvl n))

/-- A pin selected in PWR_DWAKE is at its level. -/
def State.dwakeHolds (s : State) : Bool :=
  (List.range 4).any (fun n =>
    let v := s.get PWR_DWAKE_LEVEL / 4 ^ n % 4
    (v == 1 && s.ballLvl n) || (v == 2 && !s.ballLvl n))

/-- An alarm with WAKE 1 holds its flag (R385). -/
def State.alarmWakes (s : State) : Bool :=
  (s.test RTC_FLAGS_ALARM0 && s.test (RTC_ALCFG_WAKE 0)) || (s.test RTC_FLAGS_ALARM1 && s.test (RTC_ALCFG_WAKE 1))

/-- An armed action whose wake has come (R403). -/
def State.actionWakes (s : State) : Bool :=
  s.cores.toList.any (fun x => x.acts.toList.any (fun a =>
    (a.status == .armed || a.status == .reserving || a.status == .reserved) &&
      s.reached (a.fire - BitVec.ofNat 40 (s.get PWR_AWAKE_LEAD))))

/-- The causes in PWR_WAKE of the level-type sources of a target state that hold: the target is 2 REST, 3 ORBIT or
4 DORMANT. -/
def State.levelCauses (s : State) (target : Nat) : List Field :=
  if target = 4 then
    (if s.dwakeHolds then [PWR_WAKE_GPIO_LEVEL] else []) ++
      (if s.power.csLow && s.test PWR_DWAKE_HITCH then [PWR_WAKE_HITCH] else []) ++
      (if s.alarmWakes then [PWR_WAKE_RTC] else [])
  else
    (if s.gpioWakes then [PWR_WAKE_GPIO_LEVEL] else []) ++ (if s.alarmWakes then [PWR_WAKE_RTC] else []) ++
      (if s.meets TMR_FLAGS TMR_WAKEEN then [PWR_WAKE_TIMER] else []) ++
      (if s.test CHD_FLAGS_KNOCKED && s.test CHD_CTL_KDET then [PWR_WAKE_CHORD] else []) ++
      (if s.actionWakes then [PWR_WAKE_ACTION] else [])

/-- Causes recorded in PWR_WAKE. -/
def State.wakeCauses (s : State) (l : List Field) : State := l.foldl (fun (t : State) f => t.put f 1) s

def wakeField : WakeSource → Field
  | .gpioLevel => PWR_WAKE_GPIO_LEVEL
  | .gpioEdge _ _ => PWR_WAKE_GPIO_EDGE
  | .hitch => PWR_WAKE_HITCH
  | .rtc => PWR_WAKE_RTC
  | .timer => PWR_WAKE_TIMER
  | .chord => PWR_WAKE_CHORD

/-- An edge-type source of REST and ORBIT. -/
def wakeEdge : WakeSource → Bool
  | .gpioEdge _ _ | .hitch => true
  | _ => false

/-- Whether a source is enabled for a target state: a pin's edge in the direction that its WAKE selects (R136), a
level-type source while it holds. -/
def State.wakeOn (s : State) (target : Nat) : WakeSource → Bool
  | .gpioEdge n rising => target != 4 && s.get (GPIO_CFG_WAKE n.val) == (if rising then 3 else 4)
  | .hitch => target != 4 || s.test PWR_DWAKE_HITCH
  | w => (s.levelCauses target).contains (wakeField w)

/-! ## Requests for sleep (R400) -/

/-- A pending entry is cancelled; `wake` when a wake source cancels it. -/
def State.cancelEntry (s : State) (wake : Bool) : State :=
  if !s.test PWR_STATE_PEND then s
  else
    let t := s.put PWR_STATE_PEND 0
    if wake then t.put PWR_WAKE_ENTRY_CANCEL 1 else t

/-- A write of PWR_CTL. -/
def State.pwrCtl (s : State) (v : W20) : State :=
  let n := v.toNat % 8
  let t := s.put PWR_CTL_EARLY (v.toNat / 8 % 2)
  if n = 0 then (t.put PWR_CTL_ENTER 0).cancelEntry false
  else if 2 ≤ n ∧ n ≤ 4 then
    ((t.put PWR_CTL_ENTER n).put PWR_STATE_PEND 1).modPower (fun p => { p with target := n })
  else t

/-- A write of PWR_CTL with EARLY as it stands. -/
def State.enterSleep (s : State) (n : Nat) : State := s.pwrCtl (BitVec.ofNat 20 (8 * s.get PWR_CTL_EARLY + n))

def execEnterRest (s : State) : Out := .next (if s.clocked then s.enterSleep 2 else s)
def execEnterOrbit (s : State) : Out := .next (if s.clocked then s.enterSleep 3 else s)
def execEnterDormant (s : State) : Out := .next (if s.clocked then s.enterSleep 4 else s)

/-- The present tick is a slow-clock edge (R395). -/
def State.atSlowEdge (s : State) : Bool := s.power.slowAcc < 8

/-- ENTRY_CANCEL (R400, R402): by an enabled level-type source that holds at a slow-clock edge, or else by a write of
ENTER := 0. -/
def execEntryCancel (s : State) : Out := s.live <|
  .next (if !s.test PWR_STATE_PEND then s
    else if (s.levelCauses s.power.target).isEmpty || !s.atSlowEdge then s.enterSleep 0 else s.cancelEntry true)

/-- The conditions of R400 for E0. -/
def State.entryReady (s : State) : Bool :=
  s.test PWR_STATE_PEND && s.allGated && s.dmaQuiet && !s.test DMA_FLAGS_HALT && !s.flashBusy && s.rfe == 0 &&
    s.frame.jobs.isEmpty && s.frame.running.isNone && s.cipher.queue.isEmpty && s.cipher.running.isNone &&
    s.cipher.tr.isNone && !s.hpkBusy && (!s.test YRD_CTL_EN || s.yst == ySELF)

/-- E0 (R401): the fast clocks stop, mesh time passes to the slow clock, and the bypass closes. -/
def State.goE0 (s : State) : State :=
  let t := (((s.put PWR_STATE_PEND 0).put CLK_STAT_REF_OK 0).put CLK_STAT_SPLL 0).put PWR_STATE_STATE 0
  t.chordSleep.modPower (fun p => { p with
    phase := .entry 0, refMesh := false, frac := 0, captured := false, orbit := none })

/-- SLEEP_ENTRY_BEGIN (R400, R401): at a slow-clock edge, where a level-type source that holds cancels the entry
instead. -/
def execSleepEntryBegin (s : State) : Out :=
  .next (if s.stopped || s.power.phase != .run || !s.entryReady || !s.atSlowEdge then s
    else if (s.levelCauses s.power.target).isEmpty then s.goE0.modPower (fun p => { p with lastPass := none })
    else s.cancelEntry true)

/-! ## The states (R398, R401, R404) -/

/-- A bank that is not retained loses its contents: its groups fail their check (R404). -/
def State.bankLost (s : State) (b : Nat) : State :=
  { s with
    sram := s.sram.filter (fun e => e.1 / 0x10000 != b)
    memChk := tabFill chkDflt s.memChk (0x4000 * b) 0x4000 (fun _ => .bad) }

def State.banksLost (s : State) : State :=
  (List.range 10).foldl (fun (t : State) b => if (t.rg PWR_RETAIN).getLsbD b then t else t.bankLost b) s

/-- A wake from REST or ORBIT is taken (R405, R414). -/
def State.wakeNow (s : State) (l : List Field) : State :=
  ((s.wakeCauses l).put PWR_STATE_STATE 2).modPower (fun p => { p with
    phase := .waking s.tick false, captured := false, wakes := [], fromPass := p.phase == .pass, orbit := none })

/-- The positions of the step in progress take EN, and the window stays open (R409). -/
def State.orbitKeep (s : State) : State :=
  match s.power.orbit with
  | some o => o.stalls.foldl (fun (t : State) p => t.put (STL_CFG_EN p) 1) s
  | none => s

/-- A wake source is taken at a slow-clock edge (R400, R402, R405, R409): a pending entry is cancelled; a sleep state
or a pass ends. -/
def State.wakeTake (s : State) (l : List Field) : State :=
  match s.power.phase with
  | .run => s.cancelEntry true
  | .rest | .orbit | .leaving => s.wakeNow l
  | .pass => (s.orbitKeep.wakeNow l).stallSync
  | _ => s

/-- The edge-type events captured since the last slow-clock edge are taken (R402). -/
def State.wakeEdges (s : State) : State :=
  if s.power.wakes.isEmpty then s else (s.modPower (fun p => { p with wakes := [] })).wakeTake s.power.wakes

/-- The exit from DORMANT: a cold reset of the core domain (R406). -/
def State.dormantWake (s : State) (l : List Field) : State := (s.wakeCauses l).coldReset 3 .dormant

/-- Entry to DORMANT: action tables cleared, every slot of the tack room EMPTY (R281), and every holding and
reservation discarded (R43, R403). -/
def State.dormantIn (s : State) : State :=
  ((List.finRange 4).foldl State.actClear s).slotsClear.modManger (fun m => { Manger.reset with free := m.free + m.heldSum })

/-- The latest slot whose pass has its start at or before now (R407). -/
def State.orbitSlot (s : State) : Int :=
  let d : Int := (s.mesh.toNat : Int) - s.mark s.sched.asn.toNat - s.getInt ORB_T0_VALUE
  let a := (s.sched.asn.toNat : Int) + d / (s.sched.slotLen : Int)
  a - (a - s.get ORB_PHASE_PHASE) % (max 1 (s.get ORB_CTL_SI) : Nat)

/-- SLEEP_STATE_ENTERED (R401, R403): at E4 the state is entered; a level-type source that holds, or an edge taken
between E0 and E1, wakes the device at once. -/
def execSleepStateEntered (s : State) : Out := s.live <|
  match s.power.phase with
  | .entry 4 =>
    if !s.atSlowEdge then .next s else
    let lv := s.levelCauses s.power.target
    let causes := (if lv.isEmpty then [] else [PWR_WAKE_AT_ENTRY]) ++ lv
    if s.power.target = 4 then
      let t := s.dormantIn.modPower (fun p => { p with phase := .dormant })
      .next (if lv.isEmpty && !s.power.captured then t else t.dormantWake causes)
    else
      let t := s.banksLost.modPower (fun p => { p with
        phase := if p.target = 3 then .orbit else .rest
        lastPass := if p.target = 3 then some (p.lastPass.getD (BitVec.ofInt 40 s.orbitSlot)) else none })
      .next (if lv.isEmpty && !s.power.captured then t else t.wakeNow causes)
  | _ => .next s

/-! ## Wakes (R405, R406) -/

/-- WAKE (R400-R402): a level-type source is taken at a slow-clock edge; an edge is captured for the next one, kept
between E0 and E1, and lost in the entry window, where HSPI_CS_N may stay low (R401). -/
def execWake (ws : WakeSource) (s : State) : Out :=
  let s := if ws == .hitch then s.modPower (fun p => { p with csLow := true }) else s
  if s.stopped || !s.wakeOn s.power.target ws then .next s
  else match s.power.phase with
    | .entry 0 => .next (if wakeEdge ws && s.power.target != 4 then
        (s.wakeCauses [PWR_WAKE_ENTRY_CANCEL, wakeField ws]).modPower (fun p => { p with captured := true }) else s)
    | .entry _ | .dormant | .waking .. => .next s
    | .run | .rest | .orbit | .leaving | .pass =>
      .next (if wakeEdge ws then s.modPower (fun p => { p with wakes := p.wakes ++ [wakeField ws] })
        else if s.atSlowEdge then s.wakeTake [wakeField ws] else s)

/-- ACTION_WAKE (R403): at a slow-clock edge. -/
def execActionWake (s : State) : Out :=
  .next (if s.stopped || !s.actionWakes || s.power.target == 4 || !s.atSlowEdge then s else s.wakeTake [PWR_WAKE_ACTION])

/-- DORMANT_EXIT (R402, R406): a level-type source at a slow-clock edge. -/
def execDormantExit (ws : WakeSource) (s : State) : Out :=
  let t := if ws == .hitch then s.modPower (fun p => { p with csLow := true }) else s
  .next (if !s.stopped && s.power.phase == .dormant && t.atSlowEdge && t.wakeOn 4 ws then t.dormantWake [wakeField ws]
    else t)

/-- FAST_RC_RUNNING (R405): 768 ticks into a wake. -/
def execFastRcRunning (s : State) : Out := s.live <|
  match s.power.phase with
  | .waking t0 _ => .next (if 768 ≤ s.tick - t0 && s.test PWR_CTL_EARLY then
      s.modPower (fun p => { p with phase := .waking t0 true }) else s)
  | _ => .next s

/-- WAKE_RUN_REACHED (R405): the clocks have moved to the PLL, or stay on the fast RC under REF_FAIL (R393); after a
wake from a pass, 2,304 ticks after its outcome (R409). -/
def execWakeRunReached (s : State) : Out := s.live <|
  match s.power.phase with
  | .waking t0 _ =>
    if ((s.test CLK_STAT_REF_OK && s.test CLK_STAT_SPLL) || (s.test CLK_STAT_REF_FAIL && 768 ≤ s.tick - t0)) &&
        (!s.power.fromPass || 2304 ≤ s.tick - t0) then
      .next (((s.put PWR_STATE_STATE 0).modPower (fun p => { p with phase := .run })).chordSettle.latchReqs)
    else .next s
  | _ => .next s

/-! ## The reference and the system PLL (R393, R394, R397) -/

/-- The orbit table holds a LISTEN step, for which a pass needs the radio (R393, R408). -/
def State.orbitListens (s : State) : Bool := (List.range 8).any (fun k => s.get (ORB_S_OP_OP k) == 1)

/-- The reference is requested (R393). -/
def State.refWanted (s : State) : Bool :=
  match s.power.phase with
  | .run | .waking _ _ => true
  | .pass => s.orbitListens
  | _ => false

/-- REFERENCE_READY (R393): mesh time rejoins at the next slow-clock edge (R397, State.slowEdge); a retry that
succeeds clears REF_FAIL. -/
def execReferenceReady (s : State) : Out :=
  if s.stopped || !s.refWanted || s.test CLK_STAT_REF_OK || (s.test CLK_STAT_REF_FAIL && !s.power.retry) then .next s
  else
    let t := ((s.put CLK_STAT_REF_OK 1).put CLK_STAT_REF_FAIL 0).modPower
      (fun p => { p with retry := false })
    .next (if s.test CLK_STAT_REF_FAIL && t.get RFE_CTL_REQ = 1 then t.radioRequest 1 else t)

/-- SYSTEM_PLL_LOCK (R394). -/
def execSystemPllLock (s : State) : Out :=
  .next (if !s.stopped && s.test CLK_STAT_REF_OK && s.refWanted && s.power.phase != .pass then s.put CLK_STAT_SPLL 1
    else s)

/-- REF_FAIL (R393): the radio is held OFF and the yard is disabled. -/
def execRefFail (s : State) : Out :=
  if s.stopped || !s.refWanted || (s.test CLK_STAT_REF_FAIL && !s.power.retry) then .next s
  else
    let t := ((s.put CLK_STAT_REF_OK 0).put CLK_STAT_SPLL 0).put CLK_STAT_REF_FAIL 1
    let t := t.modPower (fun p => { p with refMesh := false, frac := 0, retry := false })
    .next ((if t.rfe = 0 then t.yardStop else t.radioOff.yardStop).report 20 0)

/-- RETRY (R393). -/
def State.refRetry (s : State) : State :=
  if s.test CLK_STAT_REF_FAIL then s.modPower (fun p => { p with retry := true }) else s

def execRefRetry (s : State) : Out := s.during s.clocked <| .next s.refRetry

/-- A write of CLK_CTL (R393, R394). -/
def State.clkCtl (s : State) (v : W20) : State :=
  let t := s.setRg CLK_CTL (v &&& 7)
  if v.getLsbD 3 then t.refRetry else t

/-- CDIV_WRITE (R394). -/
def execCdivWrite (d : BitVec 2) (s : State) : Out := s.during s.clocked <| .next (s.put CLK_CTL_CDIV d.toNat)

/-! ## The slow clock (R392, R396) -/

/-- The source of the slow clock, which CLK_STAT.SLK_RC shows. -/
def State.slowSource (s : State) (rc : Bool) : State :=
  (s.modPower (fun p => { p with slowRc := rc })).put CLK_STAT_SLK_RC (bit rc)

/-- SLK_FAIL (R392): the crystal is selected and in use. -/
def execSlkFail (s : State) : Out :=
  if s.test SLK_CFG_SRC || s.power.slowRc then .next s
  else .next (((s.slowSource true).put CLK_STAT_SLK_FAIL 1).report 19 0)

/-- SLK_CFG_WRITE (R392). -/
def State.slkCfg (s : State) (v : W20) : State :=
  (s.put SLK_CFG_SRC (bit (v.getLsbD 0))).slowSource (v.getLsbD 0)

def execSlkCfgWrite (v : W20) (s : State) : Out := s.during s.clocked <| .next (s.slkCfg v)

/-- RATE in units of 2^-20 tick (R395). -/
def State.rate (s : State) : Nat := s.get MT_RATEI_VALUE % 2 ^ 11 * 2 ^ 20 + s.get MT_RATEF_VALUE

/-- CALW within 4 to 12. -/
def State.calw (s : State) : Nat := max 4 (min 12 (s.get MT_CAL_CALW))

/-- RATE is learnt: the reference runs and AUTO is 1 (R396). -/
def State.learns (s : State) : Bool := s.test MT_CAL_AUTO && s.test CLK_STAT_REF_OK

/-- A slow-clock edge of the learning window, which lasts while the reference runs with AUTO 1: the edge that begins
it, one within it, or the last of its 2^CALW cycles, which gives its reference ticks and begins the next (R396). -/
def State.winEdge (s : State) : State :=
  if !s.learns then s.modPower (fun p => { p with win := 0, winAt := none })
  else match s.power.winAt with
    | none => s.modPower (fun p => { p with win := 0, winAt := some s.tick })
    | some a =>
      if s.power.win + 1 < 2 ^ s.calw then s.modPower (fun p => { p with win := p.win + 1 })
      else s.modPower (fun p => { p with win := 0, winAt := some s.tick, winN := some (s.tick - a) })

/-- A write of MT_RATEI or MT_RATEF: the value is stored, and the window begins anew (R396). -/
def State.rateWrite (s : State) (a : Nat) (v : W20) : State :=
  (s.setRg a v).modPower (fun p => { p with win := 0, winAt := none, winN := none })

/-- RATE_WINDOW_END (R396): a window of 2^CALW slow-clock cycles is complete, and `n` is the count of its reference
ticks. -/
def execRateWindowEnd (n : Nat) (s : State) : Out := s.during s.inAir <|
  if s.power.winN ≠ some n then .next s
  else
    let w : Int := (n * 2 ^ (20 - s.calw) : Nat) - (s.rate : Int)
    let r := ((s.rate : Int) + roundDiv w (2 ^ s.get MT_CAL_CALG)).toNat % 2 ^ 31
    .next ((((s.setRg MT_RATEI (BitVec.ofNat 20 (r / 2 ^ 20))).setRg MT_RATEF (BitVec.ofNat 20 r)).put
      CLK_STAT_RATE_OK 1).modPower (fun p => { p with winN := none }))

/-- Mesh time at a slow-clock edge while the reference is stopped (R395). -/
def State.carryMesh (s : State) : State :=
  let f := s.power.frac.toNat + s.get MT_RATEF_VALUE
  (s.meshMove ((s.get MT_RATEI_VALUE % 2 ^ 11 + f / 2 ^ 20 : Nat) : Int)).modPower
    (fun p => { p with frac := BitVec.ofNat 20 f })

/-! ## Supplies (R411, R430) -/

def supplyField : Supply → Field
  | .vio => SUP_STAT_VIO
  | .vfl => SUP_STAT_VFL
  | .vbkp => SUP_STAT_VBKP
  | .vddq => SUP_STAT_VDDQ
  | .vpp => SUP_STAT_VPP

/-- SUPPLY_GOOD_CHANGE (R411): SUP_STAT; a loss of VDDQ or VPP reaches an enabled yard, and VIO the balls of its bank.
-/
def execSupplyGoodChange (bank : Supply) (good : Bool) (s : State) : Out :=
  let t := s.put (supplyField bank) (bit good)
  .next (match bank with
    | .vddq | .vpp => if good then t else deliver t.yardLostSupply
    | .vio => (List.range 24).foldl (fun (u : State) n => u.pinMoved n s) t
    | _ => t)

/-! ## Orbit (R407-R410) -/

/-- Step 0 of the pass of slot `a` begins at this mesh time. -/
def State.orbitStart (s : State) (a : Int) : Int := s.mark a + s.getInt ORB_T0_VALUE

/-- The slot of the next pass: the last one's slot and SI. -/
def State.orbitNext (s : State) : Int :=
  (match s.power.lastPass with
    | some a => (a.toNat : Int)
    | none => s.orbitSlot) + (max 1 (s.get ORB_CTL_SI) : Nat)

def State.modOrbit (s : State) (f : OrbitRun → OrbitRun) : State :=
  s.modPower (fun p => { p with orbit := p.orbit.map f })

/-- Passes run: ORBIT with EN and the schedule running. -/
def State.orbitOn (s : State) : Bool := !s.stopped && s.test ORB_CTL_EN && s.test SCH_CTL_RUN

/-- ORBIT_PREPARE (R408): at slow-clock edges the reference, then holders 0, 2 and 5 as one class 0 request at the
last one at or before the step's start minus 27,648 ticks, or once the reference is ready after it; then the window of
chain A. -/
def execOrbitPrepare (s : State) : Out := s.live <|
  if !s.orbitOn || !s.orbitListens then .next s
  else
    let a := s.orbitNext
    let now : Int := s.mesh.toNat
    match s.power.phase with
    | .orbit =>
      .next (if s.atSlowEdge && s.orbitStart a - s.get ORB_PREP_VALUE ≤ now then
        (s.put PWR_STATE_STATE 3).modPower (fun p => { p with
          phase := .pass, orbit := some ⟨BitVec.ofInt 40 a, false, 0, 0, none, [], false, []⟩ }) else s)
    | .pass => match s.power.orbit with
      | some o =>
        if !o.prepared then
          .next (if s.atSlowEdge && s.test CLK_STAT_REF_OK && s.rfe == 0 &&
              s.orbitStart o.slot.toNat - 27648 ≤ now + (s.get MT_RATEI_VALUE % 2 ^ 11 : Nat) then
            (((s.put RFE_STATE_CHAINS 1).askOne 0 [0, 2, 5]).modOrbit (fun r => { r with prepared := true })).radioRequest 1
            else s)
        else .next (if s.rfe = 2 then s.windowOpen 1 else s)
      | none => .next s
    | _ => .next s

/-- ORBIT_PASS_START (R407). -/
def execOrbitPassStart (s : State) : Out :=
  if s.stopped || !s.test ORB_CTL_EN || s.power.target != 3 then .next s
  else if !s.test SCH_CTL_RUN then .next (if s.power.phase = .orbit then s.put ORB_STAT_NOSCHED 1 else s)
  else
    let a := s.orbitSlot
    let due := s.power.lastPass != some (BitVec.ofInt 40 a)
    let run : OrbitRun := ⟨BitVec.ofInt 40 a, true, 0, 0, none, [], false, []⟩
    let mark := fun (t : State) => t.modPower (fun p => { p with lastPass := some (BitVec.ofInt 40 a) })
    if !due then .next s
    else match s.power.phase with
      | .orbit => .next ((mark s).put PWR_STATE_STATE 3 |>.modPower (fun p => { p with phase := .pass, orbit := some run }))
      | .pass => .next (match s.power.orbit with
        | some o => if o.slot = BitVec.ofInt 40 a then (mark s).modOrbit (fun r => { r with started := true })
          else (mark s).put ORB_STAT_SKIPPED 1
        | none => s)
      | _ => .next s

/-- The step in progress has begun its pass: step 0 waits for the pass's start. -/
def State.orbitStep (s : State) : Option OrbitRun :=
  match s.power.phase, s.power.orbit with
  | .pass, some o =>
    if o.started && o.begun.isNone && o.step < 8 then some o else none
  | _, _ => none

/-- The condition of TEST 4 or 5 holds (R410). -/
def State.orbitTest (s : State) (test : Nat) : Bool :=
  match test with
  | 4 => s.test CHD_FLAGS_KNOCKED
  | 5 => (List.range 2).all (fun r => (List.range 20).all (fun i =>
      ((s.rg (ORB_GMASK r)).getLsbD i && decide (i < if r = 0 then 16 else 8) && s.gpioIn (16 * r + i)) ==
        (s.rg (ORB_GVAL r)).getLsbD i))
  | _ => false

/-- A pass's step ends with an outcome: the next step, a wake, a jump, or the end of the pass (R407, R409). -/
def State.orbitOutcome (s : State) (o : OrbitRun) (hit : Bool) : State :=
  let k := o.step
  let out := if hit then s.get (ORB_S_OP_HIT k) else s.get (ORB_S_OP_MISS k)
  let t := s.put ORB_STAT_STEP k
  let t := if hit then t.put ORB_STAT_TEST (s.get (ORB_S_OP_TEST k)) else t
  if out = 1 then (t.orbitKeep.wakeNow [PWR_WAKE_ORBIT]).stallSync
  else
    let n := o.executed + 1
    let next := if out = 0 then k + 1 else if out = 2 then s.get (ORB_S_OP_JUMP k) else 8
    let t := if n = 16 then t.put ORB_STAT_LOOP 1 else t
    (t.modOrbit (fun r => { r with
      step := if n = 16 then 8 else next, executed := n, begun := none, stalls := [], heard := [] })).stallSync

/-- ORBIT_LISTEN (R408, R409): the step's stalls run; a step that begins before LISTEN is LATE. -/
def execOrbitListen (s : State) : Out := s.live <|
  match s.orbitStep with
  | some o =>
    if s.get (ORB_S_OP_OP o.step) ≠ 1 then .next s
    else
      let l := (List.range (s.get (ORB_S_OP_NST o.step) + 1)).map
        (fun j => s.hopChannel o.slot (s.get (ORB_S_OP_OFS o.step) + j))
      let t := if s.rfe = 4 then s else s.put ORB_STAT_LATE 1
      .next ((t.modOrbit (fun r => { r with begun := some s.tick, stalls := l })).stallSync)
  | none => .next s

/-- ORBIT_CHECK (R409, R410). -/
def execOrbitCheck (s : State) : Out := s.live <|
  match s.orbitStep with
  | some o =>
    .next (if s.get (ORB_S_OP_OP o.step) = 2 then s.orbitOutcome o (s.orbitTest (s.get (ORB_S_OP_TEST o.step))) else s)
  | none => .next s

/-- ORBIT_PAUSE (R409). -/
def execOrbitPause (s : State) : Out := s.live <|
  match s.orbitStep with
  | some o => .next (if s.get (ORB_S_OP_OP o.step) = 3 then s.modOrbit (fun r => { r with begun := some s.tick }) else s)
  | none => .next s

/-- ORBIT_END (R409). -/
def execOrbitEnd (s : State) : Out := s.live <|
  match s.orbitStep with
  | some o => .next (if s.get (ORB_S_OP_OP o.step) = 0 then s.modOrbit (fun r => { r with step := 8 }) else s)
  | none => .next s

/-- The present LISTEN step, begun in tick `b`, has met its hit condition by its last tick (R18, R409, R410): what its
stalls or chain A have reported since it began, or what holds now. -/
def State.orbitHit (s : State) (o : OrbitRun) (b : Nat) : Bool :=
  s.get (ORB_S_OP_OP o.step) == 1 &&
    (o.heard.contains (s.get (ORB_S_OP_TEST o.step)) ||
      (decide (s.tick ≤ b + s.orbitDur o.step) && s.orbitTest (s.get (ORB_S_OP_TEST o.step))))

/-- ORBIT_STEP_END (R409): at the first hit, or without one after DUR ticks; `hit` says which of the two is meant. -/
def execOrbitStepEnd (hit : Bool) (s : State) : Out := s.live <|
  match s.power.phase, s.power.orbit with
  | .pass, some o => match o.begun with
    | none => .next s
    | some b =>
      .next (if s.orbitHit o b then s.orbitOutcome o true
        else if !hit && decide (s.orbitDur o.step ≤ s.tick - b) then s.orbitOutcome o false else s)
  | _, _ => .next s

/-- ORBIT_PASS_SLEEP (R408, R409): packets in progress end as BLANKED, the radio goes OFF, and the reference stops;
the sleep phase begins with E0 at the next slow-clock edge, at which mesh time passes to the slow clock (R401,
notes/assumptions/37.md). -/
def execOrbitPassSleep (s : State) : Out := s.live <|
  match s.power.phase, s.power.orbit with
  | .pass, some o =>
    if o.step < 8 then .next s
    else
      let t := (List.range 48).foldl (fun (t : State) p =>
        if t.get (STL_STATUS_STATE p) = 5 then (t.stallAbandon p 3).put (STL_STATUS_STATE p) 6 else t) s
      .next ((((((t.put RFE_STATE_CHAINS 0).put RFE_CTL_REQ 0).radioOff).put CLK_STAT_REF_OK 0).put CLK_STAT_SPLL 0).modPower
        (fun p => { p with phase := .leaving }))
  | _, _ => .next s

end Sys2Proof.Machine
end

