-- ==== Sys2Proof/Machine/Rtc.lean ====
section
/-! DEFINITION. The real-time clock and the backup domain (R380-R390). -/

namespace Sys2Proof.Machine

/-! ## Calendar (R380) -/

/-- Leap years among 2000-2199: 2100 is not one. -/
def leapYear (y : Nat) : Bool := y % 4 = 0 && y != 100

def daysIn (y m : Nat) : Nat :=
  if m = 2 then (if leapYear y then 29 else 28) else if m = 4 ∨ m = 6 ∨ m = 9 ∨ m = 11 then 30 else 31

/-- Days from 2000-01-01 to the first of January of year `y`. -/
def daysTo (y : Nat) : Nat := 365 * y + (y + 3) / 4 - (if 100 < y then 1 else 0)

/-- The day of the week of a date: 2000-01-01 is a Saturday, 6. -/
def weekday (y m d : Nat) : Nat :=
  (daysTo y + ((List.range (m - 1)).map (fun i => daysIn y (i + 1))).sum + (d - 1) + 6) % 7

/-- A calendar second: year, month, day, hour, minute, second. -/
structure Cal where
  y : Nat
  mo : Nat
  d : Nat
  h : Nat
  mi : Nat
  s : Nat
deriving DecidableEq, Repr

/-- Date and time from the layouts of RTC_DATE and RTC_TIME. -/
def calOf (time date : W20) : Cal :=
  ⟨fieldGet date 19 12, fieldGet date 11 8, fieldGet date 7 3, fieldGet time 16 12, fieldGet time 11 6,
   fieldGet time 5 0⟩

def timeWord (c : Cal) : W20 := BitVec.ofNat 20 (c.h * 2 ^ 12 + c.mi * 2 ^ 6 + c.s)

def dateWord (c : Cal) : W20 := BitVec.ofNat 20 (c.y * 2 ^ 12 + c.mo * 2 ^ 8 + c.d * 2 ^ 3 + weekday c.y c.mo c.d)

/-- The next second, and whether the calendar wrapped to 2000. -/
def nextSecond (c : Cal) : Cal × Bool :=
  if c.s < 59 then ({ c with s := c.s + 1 }, false)
  else if c.mi < 59 then ({ c with s := 0, mi := c.mi + 1 }, false)
  else if c.h < 23 then ({ c with s := 0, mi := 0, h := c.h + 1 }, false)
  else if c.d < daysIn c.y c.mo then ({ c with s := 0, mi := 0, h := 0, d := c.d + 1 }, false)
  else if c.mo < 12 then ({ c with s := 0, mi := 0, h := 0, d := 1, mo := c.mo + 1 }, false)
  else if c.y < 199 then ({ c with s := 0, mi := 0, h := 0, d := 1, mo := 1, y := c.y + 1 }, false)
  else (⟨0, 1, 1, 0, 0, 0⟩, true)

/-- The second before. -/
def prevSecond (c : Cal) : Cal :=
  if 0 < c.s then { c with s := c.s - 1 }
  else if 0 < c.mi then { c with s := 59, mi := c.mi - 1 }
  else if 0 < c.h then { c with s := 59, mi := 59, h := c.h - 1 }
  else if 1 < c.d then { c with s := 59, mi := 59, h := 23, d := c.d - 1 }
  else if 1 < c.mo then { c with s := 59, mi := 59, h := 23, mo := c.mo - 1, d := daysIn c.y (c.mo - 1) }
  else if 0 < c.y then { c with s := 59, mi := 59, h := 23, mo := 12, d := 31, y := c.y - 1 }
  else ⟨199, 12, 31, 23, 59, 59⟩

/-! ## Alarms (R384) -/

/-- A time of day, date and sub-second match alarm `k`'s fields that its MASK does not ignore. -/
def State.alarmMatch (s : State) (k : Nat) (c : Cal) (sub : Nat) : Bool :=
  let m := BitVec.ofNat 8 (s.get (RTC_ALCFG_MASK k))
  let at_ := s.rg (RTC_ALTIME k)
  let ad := s.rg (RTC_ALDATE k)
  let ok := fun (i : Nat) (b : Bool) => m.getLsbD i || b
  ok 0 (s.get ⟨RTC_ALSUB k, 14, 0⟩ == sub) && ok 1 (fieldGet at_ 5 0 == c.s) && ok 2 (fieldGet at_ 11 6 == c.mi) &&
    ok 3 (fieldGet at_ 16 12 == c.h) && ok 4 (fieldGet ad 7 3 == c.d) && ok 5 (fieldGet ad 11 8 == c.mo) &&
    ok 6 (fieldGet ad 19 12 == c.y) && ok 7 (fieldGet ad 2 0 == weekday c.y c.mo c.d)

/-- A value from which a match of alarm `k` begins: it matches, and the value before it does not. -/
def State.alarmBegins (s : State) (k : Nat) (c : Cal) (sub : Nat) : Bool :=
  s.alarmMatch k c sub &&
    !(if sub = 0 then s.alarmMatch k (prevSecond c) 32767 else s.alarmMatch k c (sub - 1))

/-- Some sub-second from `lo` up to but not at `hi` of second `c` begins a match of alarm `k`: only the alarm's own
sub-second, or the second's first, can. -/
def State.alarmIn (s : State) (k : Nat) (c : Cal) (lo hi : Nat) : Bool :=
  [s.get ⟨RTC_ALSUB k, 14, 0⟩, 0].any (fun v => lo ≤ v && v < hi && s.alarmBegins k c v)

/-- Whether a forward shift, less than a second long, skipped a value that begins a match: (`c0`, `s0`) is the value
that the edge's own count would have given, (`c1`, `s1`) the one in force after it (R383, R384). -/
def State.alarmSkipped (s : State) (k : Nat) (c0 : Cal) (s0 : Nat) (c1 : Cal) (s1 : Nat) : Bool :=
  if c0 = c1 then s.alarmIn k c0 s0 s1 else s.alarmIn k c0 s0 32768 || s.alarmIn k c1 0 s1

/-- The matches after an edge: an alarm that is enabled and whose match began, or was skipped, is due (R384). -/
def State.alarmEdge (s : State) (k : Nat) (skipped : Bool) : State :=
  let now := s.alarmMatch k (calOf s.rtc.time s.rtc.date) (s.get RTC_SUBSEC_SUBSEC)
  let was := if k = 0 then s.rtc.match0 else s.rtc.match1
  let due := s.test (RTC_ALCFG_EN k) && ((now && !was) || skipped)
  let now := now && s.test (RTC_ALCFG_EN k)
  { s with rtc :=
    if k = 0 then { s.rtc with match0 := now, due0 := s.rtc.due0 || due }
    else { s.rtc with match1 := now, due1 := s.rtc.due1 || due } }

/-! ## Edges of the slow clock (R380, R382, R383) -/

/-- SUBSEC advanced, with the rollover of the second (R380). -/
def State.rtcCount (s : State) : State :=
  if s.get RTC_SUBSEC_SUBSEC < 32767 then s.put RTC_SUBSEC_SUBSEC (s.get RTC_SUBSEC_SUBSEC + 1)
  else
    let (c, w) := nextSecond (calOf s.rtc.time s.rtc.date)
    let t := { s.put RTC_SUBSEC_SUBSEC 0 with rtc := { s.rtc with time := timeWord c, date := dateWord c } }
    let t := t.raise RTC_FLAGS_SECOND
    if w then t.raise RTC_FLAGS_WRAP else t

/-- The staged groups replace the running values (R382). -/
def State.rtcApply (s : State) (sub time date : Option W20) : State :=
  let t := match sub with
    | some v => s.put RTC_SUBSEC_SUBSEC v.toNat
    | none => s
  { t with rtc := { t.rtc with
    time := time.getD t.rtc.time
    date := (date.map (fun v => dateWord (calOf 0 v))).getD t.rtc.date } }

/-- The time moved by `n` counts, with carry or borrow through the calendar (R383); the flag says whether the calendar
wrapped. -/
def State.rtcMove (s : State) (n : Int) : State :=
  let v := (s.get RTC_SUBSEC_SUBSEC : Int) + n
  let c := calOf s.rtc.time s.rtc.date
  let (v, c, w) :=
    if v < 0 then (v + 32768, prevSecond c, false)
    else if 32768 ≤ v then (v - 32768, (nextSecond c).1, (nextSecond c).2)
    else (v, c, false)
  let t := { s.put RTC_SUBSEC_SUBSEC v.toNat with rtc := { s.rtc with time := timeWord c, date := dateWord c } }
  if w then t.raise RTC_FLAGS_WRAP else t

/-- One slow-clock edge of the RTC: it counts, then applies what is pending, then the alarms see the new time. -/
def State.rtcEdge (s : State) : State :=
  let t := s.rtcCount
  let u := match t.rtc.pend with
    | .none => t
    | .apply a b c => t.rtcApply a b c
    | .shift n => t.rtcMove n
  let fwd := match t.rtc.pend with
    | .shift n => decide (0 < n)
    | _ => false
  let skip := fun k => fwd && s.alarmSkipped k (calOf t.rtc.time t.rtc.date) (t.get RTC_SUBSEC_SUBSEC)
    (calOf u.rtc.time u.rtc.date) (u.get RTC_SUBSEC_SUBSEC)
  let u := { u.put RTC_STAT_PEND 0 with rtc := { u.rtc with pend := .none } }
  (u.alarmEdge 0 (skip 0)).alarmEdge 1 (skip 1)

/-- A slow-clock edge at which nothing but the count changes: every other edge has its own command
(notes/assumptions/11.md). -/
def State.rtcPlain (s : State) : State :=
  if s.get RTC_SUBSEC_SUBSEC < 32767 && s.rtc.pend == .none then s.rtcEdge else s

/-! ## The commands -/

/-- RTC_SECOND (R380, R382): the edge at which a second rolls over. -/
def execRtcSecond (s : State) : Out := .next (if s.get RTC_SUBSEC_SUBSEC = 32767 then s.rtcEdge else s)

/-- RTC_STAGED_APPLY (R382, R383): the edge that applies what is pending. -/
def execRtcStagedApply (s : State) : Out := .next (if s.rtc.pend = .none then s else s.rtcEdge)

/-- A read of RTC_SUBSEC (R381): the time and date are copied into the snapshot. -/
def State.rtcSnap (s : State) : State := (s.setRg RTC_TIME s.rtc.time).setRg RTC_DATE s.rtc.date

def execRtcSubsecRead (s : State) : Out := s.during s.clocked <| .next s.rtcSnap

/-- A write of RTC_CMD (R382): refused, or PEND set, with the staged values as they then stand. -/
def State.rtcCmd (s : State) (sub time date : Bool) : State :=
  let c := calOf (s.rg RTC_STIME) (s.rg RTC_SDATE)
  let badTime := time && (23 < c.h || 59 < c.mi || 59 < c.s)
  let badDate := date && (199 < c.y || c.mo < 1 || 12 < c.mo || c.d < 1 || daysIn c.y c.mo < c.d)
  if s.test RTC_STAT_PEND || badTime || badDate then s.raise RTC_FLAGS_REFUSED
  else
    let f := fun (b : Bool) (v : W20) => if b then some v else none
    let p : RtcPend := .apply (f sub (BitVec.ofNat 20 (s.get RTC_SSUB_SUBSEC))) (f time (s.rg RTC_STIME)) (f date (s.rg RTC_SDATE))
    { s.put RTC_STAT_PEND 1 with rtc := { s.rtc with pend := p } }

def execRtcApplySub (s : State) : Out := s.during s.clocked <| .next (s.rtcCmd true false false)
def execRtcApplyTime (s : State) : Out := s.during s.clocked <| .next (s.rtcCmd false true false)
def execRtcApplyDate (s : State) : Out := s.during s.clocked <| .next (s.rtcCmd false false true)

/-- A write of RTC_SHIFT (R383). -/
def State.rtcShiftWrite (s : State) (n : BitVec 16) : State :=
  if s.test RTC_STAT_PEND || n = 0x8000 then s.raise RTC_FLAGS_REFUSED
  else if n = 0 then s
  else { s.put RTC_STAT_PEND 1 with rtc := { s.rtc with pend := .shift n.toInt } }

def execRtcShift (n : BitVec 16) (s : State) : Out := s.during s.clocked <| .next (s.rtcShiftWrite n)

/-- ALARM (R353, R384): the alarm that is due sets its flag and fires its producer. -/
def execRtcAlarm (k : Fin 2) (s : State) : Out :=
  let due := if k = 0 then s.rtc.due0 else s.rtc.due1
  if !due then .next s
  else
    let t := { s with rtc := if k = 0 then { s.rtc with due0 := false } else { s.rtc with due1 := false } }
    .next ((t.raise (if k = 0 then RTC_FLAGS_ALARM0 else RTC_FLAGS_ALARM1)).fire (0x28 + k.val))

/-! ## The backup domain (R386, R388) -/

/-- A store that completes in the backup domain only later (R386). -/
def backupStore (a : Nat) : Bool :=
  a = RTC_IRQEN || (RTC_ALSUB 0 ≤ a && a < RTC_ALSUB 2) || (RTC_BKP 0 ≤ a && a < RTC_BKP 16)

/-- A store reaches its backup register. -/
def State.backupApply (s : State) (a : Nat) (v : W20) : State :=
  match regRow a with
  | none => s
  | some r =>
    let t := s.setRg a (regMerge r (s.rg a) v)
    let off := fun k => a = RTC_ALCFG k && !t.test (RTC_ALCFG_EN k)
    { t with rtc := { t.rtc with match0 := t.rtc.match0 && !off 0, match1 := t.rtc.match1 && !off 1 } }.latchReqs

/-- The oldest store on its way completes (R386). -/
def State.backupNext (s : State) : State :=
  match s.rtc.late with
  | [] => s
  | (a, v) :: l => ({ s with rtc := { s.rtc with late := l } }).backupApply a v

/-- Every store on its way completes, as a later load of the domain waits for (R386). -/
def State.backupFlush (s : State) : State :=
  s.rtc.late.foldl (fun t e => t.backupApply e.1 e.2) { s with rtc := { s.rtc with late := [] } }

/-- BKP_INVALID (R388, R443): the calendar at 2000-01-01 00:00:00, the backup bytes 0, both alarms off, and the
keeper's area cleared. -/
def State.bkpInvalidate (s : State) : State :=
  let t := (List.range 16).foldl (fun t k => t.setRg (RTC_BKP k) 0) s
  let t := (List.range 2).foldl (fun t k =>
    ((((t.put (RTC_ALCFG_EN k) 0).put (RTC_ALCFG_WAKE k) 0).setRg (RTC_ALSUB k) 0).setRg (RTC_ALTIME k) 0).setRg
      (RTC_ALDATE k) 0x0010E) t
  let t := t.put RTC_SUBSEC_SUBSEC 0
  let t := { t.put KMB_FAILS_FAILS 0 with keeper := { t.keeper with count := 0, fails := 0, valid := false } }
  let c := { t.rtc with time := Rtc.reset.time, date := Rtc.reset.date, match0 := false, match1 := false }
  { t with rtc := c }.raise RTC_FLAGS_BKP_INVALID

def execBkpInvalid (s : State) : Out := .next s.bkpInvalidate

end Sys2Proof.Machine
end

