-- ==== Sys2Proof/Machine/Timers.lean ====
section
/-! DEFINITION. The eight timers (R368-R379): steps, wraps and matches, chains, masters and slaves, preloads, and their
registers. -/

namespace Sys2Proof.Machine

def State.tmr (s : State) (i : Nat) : TimerH := s.timers[i % 8]'(Nat.mod_lt _ (by decide))

def State.modTmr (s : State) (i : Nat) (f : TimerH → TimerH) : State :=
  { s with timers := s.timers.set (i % 8) (f (s.tmr i)) (Nat.mod_lt _ (by decide)) }

def State.tcnt (s : State) (i : Nat) : Nat := s.get (TMR_CNT_CNT i)

/-! ## Chains (R371) -/

/-- Timer `i` is an upper member of a chain. -/
def State.upper (s : State) (i : Nat) : Bool := 0 < i && i < 8 && s.test (TMR_CTL_CHAIN i)

/-- The members above `i` in its chain. -/
def State.above (s : State) : Nat → Nat → List Nat
  | 0, _ => []
  | fuel + 1, i => if s.upper (i + 1) then (i + 1) :: State.above s fuel (i + 1) else []

/-- The lowest member of the chain that `i` belongs to. -/
def State.lowest (s : State) : Nat → Nat → Nat
  | 0, i => i
  | fuel + 1, i => if s.upper i then State.lowest s fuel (i - 1) else i

/-- A chain from its lowest member up; a lone timer is a chain of one. -/
def State.chain (s : State) (i : Nat) : List Nat := i :: s.above 7 i

/-! ## Gates and counting (R369, R375) -/

/-- RUN is 1 and no gate holds. -/
def State.counting (s : State) (i : Nat) : Bool :=
  s.test (TMR_CTL_RUN i) && (s.get (TMR_CTL_SLAVE i) != 1 || s.test (TMR_STAT_OUT (s.get (TMR_CTL_MASTER i))))

/-! ## One step (R368, R371-R373) -/

/-- Whether a member's next step takes it to 0. -/
def State.atTop (s : State) (i : Nat) : Bool := s.tcnt i == (s.tmr i).top.toNat || s.tcnt i == 0xFFFFF

/-- The members of a chain that one step moves, with whether each wraps: the lowest, then each above a wrap. -/
def State.moved (s : State) : List Nat → List (Nat × Bool)
  | [] => []
  | i :: r => if s.atTop i then (i, true) :: State.moved s r else [(i, false)]

/-- A preload that waits is copied into the active values (R372). -/
def State.copyPreload (s : State) (i : Nat) : State :=
  if s.test (TMR_STAT_PEND i) then
    (s.modTmr i (fun t => { t with top := s.rg (TMR_TOP i), cmp := s.rg (TMR_CMP i) })).put (TMR_STAT_PEND i) 0
  else s

/-- The wrap or match flag of timer `i`, with its producer (R353, R378). -/
def State.tmrFlag (s : State) (wrap : Bool) (i : Nat) : State :=
  let t := s.put ⟨TMR_FLAGS, bit wrap * 8 + i, bit wrap * 8 + i⟩ 1
  (t.fire ((if wrap then 0x20 else 0x18) + i)).latchReqs

/-- A reset by a master or an event: counts to 0, no wrap, no match (R375). -/
def State.tmrZero (s : State) (i : Nat) : State := (s.chain i).foldl (fun t j => t.put (TMR_CNT_CNT j) 0) s

/-- The step of a chain without its effects on slaves: the state, the members that wrapped, and those that matched. -/
def State.chainStep (s : State) (lo : Nat) : State × List Nat × List Nat :=
  let members := s.chain lo
  let mv := s.moved members
  let wrapped := (mv.filter (·.2)).map (·.1)
  let full := wrapped.length = members.length
  let t := mv.foldl (fun t e => t.put (TMR_CNT_CNT e.1) (if e.2 then 0 else t.tcnt e.1 + 1)) s
  let t := wrapped.foldl (fun t i => (t.put (TMR_STAT_OUT i) 1).tmrFlag true i) t
  let t := if full then members.foldl (fun t i => t.copyPreload i) t else t
  let t := if full && t.test (TMR_CTL_ONESHOT lo) then t.put (TMR_CTL_RUN lo) 0 else t
  let top := members.getLastD lo
  let low := (mv.map (·.1)).filter (fun i => i != top && t.tcnt i == (t.tmr i).cmp.toNat)
  let hit := if members.all (fun i => t.tcnt i == (t.tmr i).cmp.toNat) then low ++ [top] else low
  (hit.foldl (fun t i => (t.put (TMR_STAT_OUT i) 0).tmrFlag false i) t, wrapped, hit)

/-- The steps that timer `j` has taken on the bus clock since `n` bus cycles ago. -/
def State.busSteps (s : State) (j n : Nat) : Nat :=
  let d := 2 ^ s.get (TMR_CTL_PRE j)
  let p := (s.tmr j).phase % d
  if s.get (TMR_CTL_CLK j) = 0 ∧ p < n then ceilDiv (n - p) d else 0

/-- An event of the master resets slave `j` in the bus cycle after it (R375).  The master's edge lies `ago` bus cycles
back; where the next cycle has passed too, the slave has since then counted on from 0. -/
def State.slaveReset (s : State) (ago j : Nat) : State :=
  if ago = 0 then s.modTmr j (fun h => { h with rst := true })
  else
    let n := s.busSteps j (ago - 1)
    (s.tmrZero j).put (TMR_CNT_CNT j) n

/-- The resets that are due in this bus cycle, after its steps: a reset and a step in one cycle leave 0. -/
def State.slaveResets (on : Nat → Bool) (s : State) : State :=
  (List.range 8).foldl (fun t j =>
    if on j && (t.tmr j).rst then (t.modTmr j (fun h => { h with rst := false })).tmrZero j else t) s

/-- A step, `ago` bus cycles back, and what it does to the timers that follow a master (R369, R375): CLK 4 steps at
each match, and a slave is reset at each match or wrap. -/
def State.tmrStep (ago : Nat) : Nat → Nat → State → State
  | 0, _, s => s
  | fuel + 1, lo, s =>
    let (t, wrapped, hit) := s.chainStep lo
    (List.range 8).foldl (fun u j =>
      if u.upper j then u
      else
        let m := u.get (TMR_CTL_MASTER j)
        let u := if hit.contains m && u.get (TMR_CTL_CLK j) == 4 && u.counting j then State.tmrStep ago fuel j u else u
        if (hit.contains m && u.get (TMR_CTL_SLAVE j) == 2) || (wrapped.contains m && u.get (TMR_CTL_SLAVE j) == 3)
        then u.slaveReset ago j else u) t

/-- One counter-clock edge of a timer that counts. -/
def State.tmrEdge (i : Nat) (s : State) : State := if s.counting i then State.tmrStep 0 9 i s else s

/-- The next step of chain `lo` neither wraps nor matches. -/
def State.plainStep (s : State) (lo : Nat) : Bool :=
  !s.atTop lo &&
    (match s.above 7 lo with
     | [] => s.tcnt lo + 1 != (s.tmr lo).cmp.toNat
     | l => s.tcnt lo + 1 != (s.tmr lo).cmp.toNat || !(l.all (fun i => s.tcnt i == (s.tmr i).cmp.toNat)))

/-- The divider of a timer's clock (R369). -/
def State.divider (s : State) (i : Nat) : Nat := if s.get (TMR_CTL_CLK i) ≤ 1 then 2 ^ s.get (TMR_CTL_PRE i) else 1

/-- A divided edge of timer `i`'s clock is due. -/
def State.edgeDue (s : State) (i : Nat) : Bool := s.divider i ≤ (s.tmr i).phase

/-- Due plain steps of timer `i` taken; an edge that wraps or matches waits for its own command, and the edges behind
it for it (notes/assumptions/11.md). -/
def State.takeSteps : Nat → Nat → State → State
  | 0, _, s => s
  | fuel + 1, i, s =>
    if s.edgeDue i && s.counting i && s.plainStep i && s.tcnt i + 1 != (s.tmr i).cmp.toNat then
      State.takeSteps fuel i ((s.modTmr i (fun t => { t with phase := t.phase - s.divider i })).put (TMR_CNT_CNT i)
        (s.tcnt i + 1))
    else s

/-- Every due plain step of timer `i`. -/
def State.catchUp (s : State) (i : Nat) : State := State.takeSteps ((s.tmr i).phase / s.divider i) i s

/-- `n` edges of source clock `clk` reach the timers on it (R369).  While a gate holds, the divider runs on and its
counter-clock edges are ignored (R375). -/
def State.clockTimers (clk n : Nat) (s : State) : State :=
  (List.range 8).foldl (fun t i =>
    if t.upper i || t.get (TMR_CTL_CLK i) != clk || !t.test (TMR_CTL_RUN i) then t
    else if t.counting i then (t.modTmr i (fun h => { h with phase := h.phase + n })).catchUp i
    else t.modTmr i (fun h => { h with phase := (h.phase + n) % t.divider i })) s

/-- The `n` bus edges of a tick reach the timers: those on other clocks are reset before them, those on the bus clock
in the first of them (R369, R375). -/
def State.busTimers (s : State) (n : Nat) : State :=
  let t := s.slaveResets (fun j => s.get (TMR_CTL_CLK j) != 0)
  if n = 0 then t else ((t.clockTimers 0 1).slaveResets (fun _ => true)).clockTimers 0 (n - 1)

/-- A clock of its own steps timer `lo`, and an edge of it is due: the slow clock always, the fast clocks while they
run; a timer on events or on a master's matches steps with those alone (R369). -/
def State.ownClock (s : State) (lo : Nat) : Bool :=
  s.edgeDue lo && (s.get (TMR_CTL_CLK lo) == 2 || (s.get (TMR_CTL_CLK lo) ≤ 1 && s.busRuns))

/-- The edge that timer `lo` waits at taken, with the plain ones behind it; edges of the bus clock that are still due
lie after it. -/
def State.ownStep (s : State) (lo : Nat) : State :=
  let left := (s.tmr lo).phase - s.divider lo
  let ago := if s.get (TMR_CTL_CLK lo) = 0 then left else 0
  ((State.tmrStep ago 9 lo s).modTmr lo (fun t => { t with phase := left })).catchUp lo

/-- RUN set: a timer released starts its divider anew, so those released together step together (R377). -/
def State.tmrRun (s : State) (i : Nat) : State :=
  if s.test (TMR_CTL_RUN i) then s else (s.put (TMR_CTL_RUN i) 1).modTmr i (fun h => { h with phase := 0 })

/-! ## The commands -/

/-- TIMER_WRAP (R368): the step that wraps. -/
def execTimerWrap (i : Fin 8) (s : State) : Out := s.during s.notDormant <|
  let lo := s.lowest 8 i.val
  if s.ownClock lo ∧ s.counting lo ∧ ((s.moved (s.chain lo)).any (fun e => e.1 == i.val && e.2)) then
    .next (s.ownStep lo)
  else .next s

/-- TIMER_MATCH (R368, R373): the step that reaches the compare value. -/
def execTimerMatch (i : Fin 8) (s : State) : Out := s.during s.notDormant <|
  let lo := s.lowest 8 i.val
  if s.ownClock lo ∧ s.counting lo ∧ (s.chainStep lo).2.2.contains i.val then
    .next (s.ownStep lo)
  else .next s

/-- TMR_CTL written, or the write refused whole (R370). -/
def State.tmrCtl (s : State) (i : Nat) (v : W20) : State :=
  let t := s.setRg (TMR_CTL i) (v &&& 0x7FFFF)
  let f := fun (g : Nat → Field) => s.get (g i) != t.get (g i)
  let changes := f TMR_CTL_CLK || f TMR_CTL_PRE || f TMR_CTL_CHAIN || f TMR_CTL_MASTER || f TMR_CTL_SLAVE
  let members := fun (u : State) => u.chain (u.lowest 8 i)
  let running := (members s ++ members t).any (fun j => s.test (TMR_CTL_RUN j))
  let bad := 5 ≤ t.get (TMR_CTL_CLK i) || (i = 0 && t.test (TMR_CTL_CHAIN i)) || 3 < (members t).length ||
    (t.get (TMR_CTL_MASTER i) = i && (t.test (TMR_CTL_SLAVE i) || t.get (TMR_CTL_CLK i) = 4)) || (changes && running)
  if bad then s.raise TMR_FLAGS_CFG_REFUSED
  else if s.test (TMR_CTL_RUN i) then t else t.modTmr i (fun h => { h with phase := 0 })

def execTmrCtlWrite (i : Fin 8) (v : W20) (s : State) : Out := s.during s.clocked <| .next (s.tmrCtl i.val v)

/-- TMR_CNT_WRITE (R369): no wrap, no match. -/
def execTmrCntWrite (i : Fin 8) (v : W20) (s : State) : Out := s.during s.clocked <| .next (s.setRg (TMR_CNT i.val) v)

/-- A read of TMRi_CNT (R374): a lowest member latches those above it; an upper member shows its latch. -/
def State.tmrRead (s : State) (i : Nat) : W20 × State :=
  if s.upper i then ((s.tmr i).latch, s)
  else (s.rg (TMR_CNT i), (s.above 7 i).foldl (fun t j => t.modTmr j (fun h => { h with latch := t.rg (TMR_CNT j) })) s)

def execTmrCntRead (i : Fin 8) (s : State) : Out := s.during s.clocked <| .next (s.tmrRead i.val).2

/-- TOP or CMP written: to the preload with the timer's own PRELOAD 1, else directly (R372). DEDUCED: PRELOAD is not
among the fields that an upper chain member ignores (R371, notes/assumptions/11.md). -/
def State.tmrTopCmp (s : State) (i : Nat) (cmp : Bool) (v : W20) : State :=
  let t := s.setRg (if cmp then TMR_CMP i else TMR_TOP i) v
  if s.test (TMR_CTL_PRELOAD i) then t.put (TMR_STAT_PEND i) 1
  else t.modTmr i (fun h => if cmp then { h with cmp := v } else { h with top := v })

def execTmrTopCmpWrite (i : Fin 8) (cmp : Bool) (v : W20) (s : State) : Out :=
  s.during s.clocked <| .next (s.tmrTopCmp i.val cmp v)

/-- An event at a timer's input (R376); an upper chain member ignores its EVFN. -/
def State.tmrEvent (s : State) (i : Nat) : State :=
  if s.upper i then s
  else if s.get (TMR_CTL_CLK i) = 3 then s.tmrEdge i
  else match s.get (TMR_CTL_EVFN i) with
    | 1 => s.tmrRun i
    | 2 => s.put (TMR_CTL_RUN i) 0
    | 3 => s.tmrZero i
    | 4 => (s.chain i).foldl (fun t j => t.setRg (TMR_CAP j) (t.rg (TMR_CNT j))) s
    | _ => s

/-- TIMER_EVENT_INPUT (R376): the lattice delivers it, while the bus clock runs (R366). -/
def execTimerEventInput (i : Fin 8) (s : State) : Out := s.live <| .next (if s.busRuns then s.tmrEvent i.val else s)

/-- TMR_GSTART (R377): START wins over STOP; upper members are left alone. -/
def State.gstart (s : State) (v : W20) : State :=
  (List.range 8).foldl (fun t i =>
    if t.upper i then t
    else if v.getLsbD i then t.tmrRun i
    else if v.getLsbD (8 + i) then t.put (TMR_CTL_RUN i) 0 else t) s

def execTmrGstart (v : W20) (s : State) : Out := s.during s.clocked <| .next (s.gstart v)

/-- TMRi_STAT as it reads: COUNTING is RUN with no gate holding; an upper member counts with its lowest. -/
def State.tmrStat (s : State) (i : Nat) : W20 :=
  fieldSet (s.rg (TMR_STAT i)) 0 0 (bit (s.counting (s.lowest 8 i)))

/-- Every timer register and latch at its reset value (R378). -/
def State.resetTimers (s : State) : State :=
  { s with regs := s.regs.filter (fun e => e.1 / 0x1000 != 0xC4), timers := Vector.replicate 8 TimerH.reset }

end Sys2Proof.Machine
end

