-- ==== Sys2Proof/Machine/Bus.lean ====
section
/-! DEFINITION. The register space as its masters see it (R114, R121, R122): what a register reads as, what a read does
beside, and what a write does, block by block. -/

namespace Sys2Proof.Machine

/-- Index `k` of the register at `a` in a row of `n` registers from `base`, `stride` apart. -/
def ix (a base stride n : Nat) : Option Nat := if among a base stride n then some ((a - base) / stride) else none

/-! ## What registers read as -/

/-- The charge that waits for account `h` (MNG_HOLD.REQ, R44). -/
def State.askedCharge (s : State) (h : Nat) : Nat :=
  (s.manger.waits.map (fun w => match w.kind with
    | .program _ _ => if w.id = h then s.waitCost w else 0
    | .resv _ _ => 0
    | .holders hs => if hs.contains h then s.costOf [h] else 0
    | .swap _ take => if take.contains h then s.costOf [h] else 0)).sum

/-- The manger's registers that show its accounts (R44). -/
def State.viewMng (s : State) (a : Nat) : W20 :=
  let m := s.manger
  let at10 := fun (x y : Nat) => BitVec.ofNat 20 (x * 2 ^ 10 + y)
  if a = MNG_STATE then at10 m.heldSum m.free
  else if a = MNG_DEBT then BitVec.ofNat 20 m.owed
  else if a = MNG_WAIT then BitVec.ofNat 20 ((m.waits.filter (·.urgent)).length * 2 ^ 7 + m.waits.length)
  else match ix a (MNG_EXT 0) 4 4 with
  | some n => s.rg a ||| BitVec.ofNat 20 (bit (s.holds (28 + n)) * 2 ^ 13 + bit (s.asked (28 + n)) * 2 ^ 12)
  | none => match ix a (MNG_HOLD 0) 4 32 with
    | some h => at10 (s.askedCharge h) (s.heldOf h)
    | none => match ix a (MNG_COST 0) 4 16 with
      | some h =>
        let parts := if h = 11 then 2 else 1
        at10 (chargeAt s.mngF (holderCost 2 h) parts true) (holderCost 2 h)
      | none => match ix a (MNG_FACTOR 0) 4 8 with
        | some b => BitVec.ofNat 20 (bandFactor b)
        | none => s.rg a

/-- DMA_CRED and DMA_BUSY (R352). -/
def State.viewDma (s : State) (a : Nat) : W20 :=
  let held := s.dma.credits.length
  let active := fun n => if n < 12 then s.dmaSt n != 0
    else 0 < s.credHeld n || (blkQueues n).any (fun q => !s.dma.blk[q].isEmpty)
  if a = DMA_CRED then BitVec.ofNat 20 (held * 2 ^ 7 + (64 - held))
  else if a = DMA_BUSY then
    BitVec.ofNat 20 (bit (s.holds 15) * 2 ^ 16 + ((List.range 16).map (fun n => bit (active n) * 2 ^ n)).sum)
  else match (List.range 4).find? (fun i => a == DMA_CH_STAT (12 + i)) with
    | some i => fieldSet (s.rg a) 19 17 (if active (12 + i) then 2 else 0)
    | none => s.rg a

/-- CPH_STATE (R307). -/
def State.viewCph (s : State) (a : Nat) : W20 :=
  let c := s.cipher
  if a = CPH_STATE then
    BitVec.ofNat 20 (bit c.running.isSome * 2 ^ 19 + bit (s.holds 14) * 2 ^ 18 + bit c.half1.isSome * 2 ^ 17 +
      bit c.half0.isSome * 2 ^ 16 + (c.queue.length + bit c.running.isSome) * 2 ^ 7 +
      ((List.range 7).map (fun k => bit (c.waits.any (fun w => w.src == k)) * 2 ^ k)).sum)
  else s.rg a

/-- Bits of 20 positions from `20 * r` that meet `p`. -/
def posBits (r : Nat) (p : Nat → Bool) : W20 :=
  BitVec.ofNat 20 ((List.range (if r < 2 then 20 else 8)).map (fun i => bit (p (20 * r + i)) * 2 ^ i)).sum

/-- The channelizer's common registers that show pools and stalls (R194). -/
def State.viewStc (s : State) (a : Nat) : W20 :=
  match ix a (STC_POOL_STATE 0) 16 2 with
  | some q => BitVec.ofNat 20 ((s.pool (poolIx q)).held * 2 ^ 9 + (s.pool (poolIx q)).queue.length)
  | none => match ix a (STC_BUSY 0) 4 3 with
    | some r => posBits r (fun p => s.get (STL_STATUS_STATE p) == 5)
    | none => match ix a (STC_EN 0) 4 3 with
      | some r => posBits r (fun p => s.test (STL_CFG_EN p))
      | none => s.rg a

/-- DEC_STATE (R223). -/
def State.viewDec (s : State) (a : Nat) : W20 :=
  let u := s.frame
  if a = DEC_STATE then
    BitVec.ofNat 20 (bit u.running.isSome * 2 ^ 19 + bit (s.holds 3) * 2 ^ 18 + u.jobs.length * 2 ^ 8 +
      (u.jobs.filter s.jobUrgent).length)
  else s.rg a

/-- The link-assist registers that are computed or counted (R230, R280). -/
def State.viewLink (s : State) (a : Nat) : W20 :=
  if a = SCH_HOPQ then s.hopQuery
  else if a = RLY_STATE then
    BitVec.ofNat 20 (s.link.relays.filter (fun r => r.st != .copy)).length
  else if a = RC_STATE then fieldSet (s.rg a) 18 13 s.link.rc.length
  else s.rg a

/-- The statuses of R90 by code. -/
def ActStatus.code : ActStatus → Nat
  | .empty => 0 | .armed => 1 | .reserving => 2 | .reserved => 3 | .fired => 4 | .firedPassed => 5 | .noRations => 6
  | .clash => 7

/-- CC_ACTn (R113). -/
def ActEntry.view (e : ActEntry) : W20 :=
  BitVec.ofNat 20 (e.kind.toNat * 2 ^ 16 + e.status.code * 2 ^ 12 + e.resv.toNat)

/-- The core control registers that show a core (R113). -/
def State.viewCore (s : State) (a : Nat) : W20 :=
  let k := (a - 0xD2000) / 256
  match s.cores.toList[k]? with
  | none => s.rg a
  | some x =>
    if a = CC_STATUS k then fieldSet (s.rg a) 19 16 x.run.code
    else if a = CC_PC k then if x.cold then 0 else (s.nextPc ⟨k % 4, Nat.mod_lt _ (by decide)⟩).setWidth 20
    else match ix a (CC_ACT k 0) 4 16 with
      | some e => ((x.acts.toList[e]?).map ActEntry.view).getD 0
      | none => s.rg a

/-- The journal's view of a part (R484, R496). -/
def State.viewPart (s : State) (a : Nat) : W20 :=
  match ix a (UPD_PSTAT 0) 16 5 with
  | some p =>
    let r := s.partRec p
    BitVec.ofNat 20 (r.phase * 2 ^ 16 + r.tries * 2 ^ 12 + r.limit * 2 ^ 8)
  | none => match ix a (UPD_PRCV 0) 16 5 with
    | some p => BitVec.ofNat 20 (s.receivedCount p)
    | none => match ix a (UPD_PVERLO 0) 16 5 with
      | some p => BitVec.ofNat 20 (s.partRec p).active
      | none => match ix a (UPD_PVERHI 0) 16 5 with
        | some p => BitVec.ofNat 20 ((s.partRec p).active / 2 ^ 20)
        | none => s.rg a

/-- What the register at `a` reads as, its side effects apart; a listed register that only takes writes reads 0, and
so does an offset that no map lists (R5, R122). -/
def State.regView (s : State) (a : Nat) : W20 :=
  if a = PWR_STATE then s.pwrState
  else if a = FLT_USED then BitVec.ofNat 20 ((List.range 16).map (fun k => bit (s.committed k) * 2 ^ k)).sum
  else if a = HPK_STAT then fieldSet (s.rg a) 19 19 (bit s.hpkBusy)
  else if a = RFE_ENERGYA then fieldSet (s.rg a) RFE_ENERGYA_OVL.hi RFE_ENERGYA_OVL.lo (bit (s.ovlRecent s.radio.ovlA))
  else if a = RFE_ENERGYB then fieldSet (s.rg a) RFE_ENERGYB_OVL.hi RFE_ENERGYB_OVL.lo (bit (s.ovlRecent s.radio.ovlB))
  else if a = HSP_H2CCLR then s.rg HSP_H2C
  else if a = GPIO_OUTSET 0 ∨ a = GPIO_OUTCLR 0 then s.rg (GPIO_OUT 0)
  else if a = GPIO_OUTSET 1 ∨ a = GPIO_OUTCLR 1 then s.rg (GPIO_OUT 1)
  else match a / 0x1000 with
    | 0xC1 => s.viewMng a
    | 0xC4 => (match ix a (TMR_STAT 0) 32 8 with
      | some i => s.tmrStat i
      | none => s.rg a)
    | 0xC6 => s.viewDma a
    | 0xC7 => s.viewCph a
    | 0xCA => s.viewStc a
    | 0xCC => s.viewDec a
    | 0xCD => s.viewLink a
    | 0xD2 => s.viewCore a
    | 0xD3 => s.viewPart a
    | _ => s.rg a

/-! ## Reads with a side effect (R122) -/

/-- A read of STL_LIVE: the bin's level is measured, and so open, from SEARCH to RECEIVE (R195). -/
def State.liveRead (s : State) (p : Nat) : W20 × State :=
  let st := s.get (STL_STATUS_STATE p)
  if 2 ≤ st ∧ st ≤ 5 then
    let (k, t) := s.fresh
    let v := Config.freeW20 k &&& 0x00FFF
    (if v = 0x00800 then 0x00801 else v, t)
  else (0x00800, s)

/-- A read of the register at `a`, with its side effect. -/
def State.regRead (s : State) (a : Nat) : W20 × State :=
  if a = U0_DATA then s.uartPop
  else if a = TRNG_DATA then s.trngRead
  else if a = SCH_ASNLO then (s.asnSnapshot.rg a, s.asnSnapshot)
  else if a = RTC_SUBSEC then (s.backupFlush.rg a, s.backupFlush.rtcSnap)
  else if a / 0x1000 = 0xC5 then (s.backupFlush.rg a, s.backupFlush)
  else if a = GPIO_IN 0 then s.gpioRead 0
  else if a = GPIO_IN 1 then s.gpioRead 1
  else match ix a (TMR_CNT 0) 32 8 with
  | some i => s.tmrRead i
  | none => match ix a (STL_TSLO 0) 64 48 with
    | some p => ((s.snapshot p).rg a, s.snapshot p)
    | none => match ix a (STL_LIVE 0) 64 48 with
      | some p => s.liveRead p
      | none => match ix a (CC_LOFTDATA 0) 256 4 with
        | some k => s.loftGet ⟨k % 4, Nat.mod_lt _ (by decide)⟩
        | none => (s.regView a, s)

/-- The image bytes of `n` addresses from `a`: bytes +0 to +2 of a register's group hold its value, byte +3 reads 0,
and every register whose bytes are touched is read once (R121, R122). -/
def State.imageRead (s : State) (a n : Nat) : List Byte × State :=
  let (img, t) := (groupsOf a n).foldl (fun (p : List Byte × State) r =>
    let (v, u) := p.2.regRead r
    (p.1 ++ tripleOf v ++ [0], u)) ([], s)
  ((img.drop (a % 4)).take n, t)

/-! ## Writes (R4, R5, R114, R121, R122) -/

/-- A write that only the access codes of the map govern. -/
def State.plainWrite (s : State) (a : Nat) (v : W20) : State :=
  match regRow a with
  | some r => s.setRg a (regMerge r (s.rg a) v)
  | none => s

/-- The manger (R44). -/
def State.writeMng (s : State) (a : Nat) (v : W20) : State :=
  if a = MNG_POOL then s.writePool v
  else match ix a (MNG_EXT 0) 4 4 with
    | some n => s.extWrite n v
    | none => s.plainWrite a v

/-- System control (R413, R455, R509). -/
def State.writeSys (s : State) (src : Source) (a : Nat) (v : W20) : State :=
  if a = SYS_RST then s.sysRst src v
  else if a = PWR_CTL then s.pwrCtl v
  else if a = CLK_CTL then s.clkCtl v
  else if a = SLK_CFG then s.slkCfg v
  else if a = MT_RATEI ∨ a = MT_RATEF then s.rateWrite a v
  else if a = PAD_CFG then s.padWrite v
  else if among a (ORB_S_OP 0) 4 16 ∧ s.power.phase = .pass then s
  else s.plainWrite a v

/-- The fault log (R459, R464, R468, R472). -/
def State.writeFlt (s : State) (a : Nat) (v : W20) : State :=
  if a = FLT_SRC0 then s.srcClear 0 v
  else if a = FLT_SRC1 then s.srcClear 1 v
  else if a = FLT_RELEASE then s.release16 v
  else if a = FLT_SPCMD then s.spareCmd v
  else s.plainWrite a v

/-- The timers (R378). -/
def State.writeTmr (s : State) (a : Nat) (v : W20) : State :=
  if a = TMR_GSTART then s.gstart v
  else match ix a (TMR_CTL 0) 32 8 with
    | some i => s.tmrCtl i v
    | none => match ix a (TMR_TOP 0) 32 8 with
      | some i => s.tmrTopCmp i false v
      | none => match ix a (TMR_CMP 0) 32 8 with
        | some i => s.tmrTopCmp i true v
        | none => s.plainWrite a v

/-- The RTC and the backup domain: some stores complete later (R382, R383, R386). -/
def State.writeRtc (s : State) (a : Nat) (v : W20) : State :=
  if a = RTC_CMD then s.rtcCmd (v.getLsbD 2) (v.getLsbD 1) (v.getLsbD 0)
  else if a = RTC_SHIFT then s.rtcShiftWrite (v.setWidth 16)
  else if backupStore a then { s with rtc := { s.rtc with late := s.rtc.late ++ [(a, v)] } }
  else s.plainWrite a v

/-- The DMA engine (R336, R352). -/
def State.writeDma (s : State) (a : Nat) (v : W20) : State :=
  match ix a (DMA_CH_CTL 0) 32 16 with
  | some n => s.dmaCtl n v
  | none => match ix a (DMA_CH_NEXT 0) 32 16 with
    | some n => s.dmaNext n v
    | none => s.plainWrite a v

/-- The source number of a submission (R290); none for a master that R290 does not list. -/
def cphSource : Source → Option Nat
  | .core c _ => some (2 + c.val)
  | .host => some 6
  | .keeper => some 1
  | _ => none

/-- The cipher and the tack room (R283, R290, R307). -/
def State.writeCph (s : State) (src : Source) (a : Nat) (v : W20) : State :=
  if a = CPH_SUBMIT then (match cphSource src with
    | some n => s.cphSubmit n v
    | none => s)
  else if a = TR_CMD then s.trCmd src (v.toNat / 2 ^ 16) (v.toNat / 2 ^ 10 % 64)
  else s.plainWrite a v

/-- Hash, public key and TRNG (R295, R297, R307); whether a restart passes its tests is open
(notes/assumptions/6.md). -/
def State.writeHpk (s : State) (src : Source) (a : Nat) (v : W20) : State :=
  if a = HPK_CMD then s.hpkCmd (privCore src) (v.toNat / 2 ^ 16)
  else if a = TRNG_STAT ∧ v.getLsbD 0 then
    let (k, t) := (s.plainWrite a v).fresh
    t.trngRestart ((Config.freeW20 k).getLsbD 0)
  else s.plainWrite a v

/-- The radio is turning toward TALK or in TALK (R151). -/
def State.txFixed (s : State) : Bool := s.rfe == 5 || s.rfe == 6

/-- The radio front end (R138, R144, R150, R151, R155, R162, R163). -/
def State.writeRfe (s : State) (a : Nat) (v : W20) : State :=
  if a = RFE_CTL then s.rfeCtl v
  else if a = RFE_RXFRAC then s.rxFracWrite v
  else if a = RFE_GAINA then s.gainWrite false v
  else if a = RFE_GAINB then s.gainWrite true v
  else if a = RFE_CAL then s.calWrite v
  else if among a (PAS_TX 0) 4 32 then s.paWrite (a - 0xC9000) v
  else if a = RFE_TXMOD ∨ a = RFE_TXCH ∨ a = RFE_TXOFS ∨ among a (RFE_TXCOEF 0) 4 32 then
    if s.txFixed ∨ (a = RFE_TXMOD ∧ 9 ≤ v.toNat / 2 ^ 13 % 16) then s.raise RFE_FLAGS_CFG_REFUSED
    else s.plainWrite a v
  else s.plainWrite a v

/-- The channelizer's common registers (R166, R168, R189, R191, R192, R194). -/
def State.writeStc (s : State) (a : Nat) (v : W20) : State :=
  if a = STC_GIVE then s.stcGive v
  else if s.stcLocked then s
  else if a = STC_PLAN then s.planWrite v
  else match ix a (STC_MAP 0) 4 16 with
  | some k => s.mapWrite k v
  | none => match ix a (STC_EN 0) 4 3 with
    | some r => s.enWrite r v
    | none => match ix a (STC_POOL_CFG 0) 16 2 with
      | some q => s.poolWrite (poolIx q) .cfg v
      | none => match ix a (STC_POOL_BUF 0) 16 2 with
        | some q => s.poolWrite (poolIx q) .buf v
        | none => match ix a (STC_POOL_DESC 0) 16 2 with
          | some q => s.poolWrite (poolIx q) .desc v
          | none => s.plainWrite a v

/-- The stalls' windows (R168, R192, R195). -/
def State.writeStl (s : State) (a : Nat) (v : W20) : State :=
  let p := (a - 0xCB000) / 64
  if a = STL_CFG p then s.stlCfg p v
  else if a = STL_SYNCHI p then s.stlSyncHi p v
  else if s.stcLocked ∧ a < STL_CNT0 p then s
  else s.plainWrite a v

/-- The decoder and the frame unit (R211, R216, R223). -/
def State.writeFu (s : State) (a : Nat) (v : W20) : State :=
  if a = DEC_CTL then s.decCtl v
  else if a = FU_TXSYNCHI then s.txSyncHi v
  else match ix a (FU_TX_CTL 0) 16 16 with
    | some k => s.txCtl k v
    | none =>
      if among a (FU_TX_SRC 0) 16 16 ∨ among a (FU_TX_LEN 0) 16 16 ∨ among a (FU_TX_PRE 0) 16 16 then
        if s.test (FU_TX_CTL_READY ((a - FU_TX_CTL 0) / 16)) then s.raise FU_FLAGS_CFG_REFUSED else s.plainWrite a v
      else s.plainWrite a v

/-- The slot schedule and the neighbour table (R225-R230, R233, R239, R245-R247). -/
def State.writeSch (s : State) (a : Nat) (v : W20) : State :=
  if a = SCH_CTL then s.schCtl v
  else if a = SCH_SLOTLEN then s.slotLenWrite v
  else if a = SCH_SYNCOFS then s.syncOfsWrite v
  else if a = SCH_HOPLEN then s.hopLenWrite v
  else if a = SCH_STEPHI then s.modSched (fun c => { c with stepHi := v })
  else if a = SCH_STEPLO then
    s.modSched (fun c => { c with steps := c.steps ++ [(signed 40 (s.sched.stepHi.toNat * 2 ^ 20 + v.toNat), false)] })
  else if a = NBT_BASE then s.tableBase a v
  else if a = NBT_SIZE then s.nbtSize v
  else if a = NBT_CMD then s.nbCommand (v.toNat / 2 ^ 16) (v.toNat % 2 ^ 11)
  else match ix a (HOP 0) 4 22 with
    | some k => s.hopWrite k v
    | none => match ix a (SCH_CD 0) 4 16 with
      | some k => s.txReg k a v SCH_FLAGS_CFG_REFUSED
      | none => s.plainWrite a v

/-- The link assists (R257, R262, R265, R271, R273, R279, R280, R282). -/
def State.writeLnk (s : State) (a : Nat) (v : W20) : State :=
  if a < LNK_ADDRLO then s.writeSch a v
  else if a = RPW_BASE then s.tableBase a v
  else if a = FOLD_CFG then s.foldCfg v
  else if a = RLY_CFG then s.relayCfg v
  else if a = RLY_POOL then s.relayPool a v
  else if a = RLY_PCFG then s.relayPool a (v &&& 0x3FF)
  else if a = RC_COPY then s.rcCopy v
  else match ix a (KEYMAP 0) 4 64 with
    | some k => s.keymapSet k v
    | none => s.plainWrite a v

/-- The chord (R322, R324, R335). -/
def State.writeChd (s : State) (a : Nat) (v : W20) : State :=
  if a = CHD_CTL then s.chdCtl v
  else if a = CHD_RXBASE then s.chdRing a v
  else if a = CHD_RXCFG then s.chdRing a (v &&& 0x3FF)
  else match ix a (CTX_CTL 0) 16 8 with
    | some k => s.ctxCtl k v
    | none => match ix a (CTX_SRC 0) 16 8 with
      | some k => s.ctxReg k a v
      | none => match ix a (CTX_LEN 0) 16 8 with
        | some k => s.ctxReg k a (v &&& 0x7FF)
        | none => s.plainWrite a v

/-- The yard's controller (R421, R434). -/
def State.writeYrd (s : State) (a : Nat) (v : W20) : State :=
  if a = YRD_CTL then s.yardCtl v
  else if a = YRD_CFG ∨ a = YRD_MAP ∨ among a (YRD_QXOR 0) 4 3 then s.yardCfgWrite a v
  else if a = YRD_PPRCMD then s.yardPprWrite v
  else s.plainWrite a v

/-- HSP_RING (R133): a core sets doorbells to the host. -/
def State.hspRing (s : State) (v : W20) : State := s.setRg HSP_FLAGS (s.rg HSP_FLAGS ||| (v &&& 0x0FFFF))

/-- HSP_H2C (R133): doorbells to the cores; a host write that sets a bit which was 0 fires the doorbell's producer. -/
def State.hspH2c (s : State) (v : W20) (host : Bool) : State :=
  let old := s.rg HSP_H2C
  let new := old ||| (v &&& 0x0FFFF)
  let t := s.setRg HSP_H2C new
  if host && new != old then t.fire 0x2A else t

/-- The hitch port, UART0 and GPIO (R133-R136, R38). -/
def State.writeIo (s : State) (src : Source) (a : Nat) (v : W20) : State :=
  if a = HSP_PERM ∨ a = HSP_BANKPERM then (if privCore src then s.plainWrite a v else s)
  else if a = HSP_RING then s.hspRing v
  else if a = HSP_H2C then s.hspH2c v (src == .host)
  else if a = HSP_H2CCLR then s.setRg HSP_H2C (s.rg HSP_H2C &&& ~~~v)
  else if a = U0_DATA then s.uartPush (v.setWidth 8)
  else if a = U0_CTRL then s.uartCtrl v
  else if a = U0_STATUS then (s.plainWrite a v).uartSettle s
  else match ix a (GPIO_OUT 0) 4 2 with
  | some r => s.gpioWrite r 0xFFFFF v
  | none => match ix a (GPIO_OUTSET 0) 4 2 with
    | some r => s.gpioWrite r v v
    | none => match ix a (GPIO_OUTCLR 0) 4 2 with
      | some r => s.gpioWrite r v 0
      | none => match ix a (GPIO_CFG 0) 4 24 with
        | some n => s.gpioCfg n v
        | none => s.plainWrite a v

/-- Core control (R113). -/
def State.writeCore (s : State) (a : Nat) (v : W20) : State :=
  let c : CoreId := ⟨(a - 0xD2000) / 256 % 4, Nat.mod_lt _ (by decide)⟩
  if a = CC_RUN c.val then s.ccRun c v
  else if a = CC_LOFTDATA c.val then s.loftPut c v
  else s.plainWrite a v

/-- The keeper's mailbox and the update engine (R453, R454, R474, R496). -/
def State.writeKmb (s : State) (src : Source) (a : Nat) (v : W20) : State :=
  if a = KMB_ORDER then s.orderWrite src v
  else if a = KMB_SVC then (if v.getLsbD 0 then s.declare src else s)
  else if a = UPD_CMD then s.updCmd src v
  else match ix a (UPD_AREA 0) 4 4 with
    | some q => s.areaWrite q v
    | none => s.plainWrite a v

/-- A word write of the register at `a` by a master; an offset that no map lists ignores it, and after any other the
requests follow their flags and enables (R122, R365). -/
def State.regWrite (s : State) (src : Source) (a : Nat) (v : W20) : State :=
  if !regListed a then s
  else
    (match a / 0x1000 with
      | 0xC0 => s.writeSys src a v
      | 0xC1 => s.writeMng a v
      | 0xC2 => s.writeFlt a v
      | 0xC3 => s.latWrite src (a - 0xC3000) v
      | 0xC4 => s.writeTmr a v
      | 0xC5 => s.writeRtc a v
      | 0xC6 => s.writeDma a v
      | 0xC7 => s.writeCph src a v
      | 0xC8 => s.writeHpk src a v
      | 0xC9 => s.writeRfe a v
      | 0xCA => s.writeStc a v
      | 0xCB => s.writeStl a v
      | 0xCC => s.writeFu a v
      | 0xCD => s.writeLnk a v
      | 0xCE => s.writeChd a v
      | 0xCF => s.writeYrd a v
      | 0xD0 => if a = FLC_CMD then s.flashCmd v else s.plainWrite a v
      | 0xD1 => s.writeIo src a v
      | 0xD2 => s.writeCore a v
      | _ => s.writeKmb src a v).latchReqs

/-- REGISTER_WRITE (R101, R122, R132, R305): any register that the master may reach, by the meaning its block gives
the write. -/
def execRegisterWrite (src : Source) (addr v : W20) (s : State) : Out := s.during s.clocked <|
  .next (if addr.toNat % 4 == 0 then s.reachWith src addr.toNat (fun t => t.regWrite src addr.toNat v) else s)

/-- HSP_RING_WRITE (R133). -/
def execHspRingWrite (v : W20) (s : State) : Out := s.during s.clocked <| .next (s.hspRing v)

/-- HSP_H2C_WRITE (R131-R133): by the host, while the device is awake. -/
def execHspH2cWrite (v : W20) (s : State) : Out := s.during s.clocked <|
  .next (s.reachWith .host HSP_H2C (fun t => t.hspH2c v true))

end Sys2Proof.Machine
end

