-- ==== Sys2Proof/Machine/Dma.lean ====
section
/-! DEFINITION. The engines at work (spec/13): fetching a descriptor, reading and writing chunks through the credits, and
completing a descriptor (R338-R346). -/

namespace Sys2Proof.Machine

/-! ## Reading for an engine -/

/-- The check key of an SRAM group is a quarter of its address. -/
def State.sramBadAt (s : State) (a n : Nat) : Nat :=
  (((groupsOf a n).find? (fun g => s.chk (Ram.sram.group g) == .bad || s.chk (Ram.sram.group g) == .poison)).map
    (max a)).getD a

/-- What a chunk's read gives: its bytes, the number of its yard read, or the cause and address of a bus stop. -/
inductive Got
  | data (l : List Byte)
  | yard (id : Nat)
  | err (cause addr : Nat)
deriving DecidableEq, Repr

/-- The read engine reads `n` bytes at wide address `a` (R114, R128, R343, R420). -/
def State.engineRead (s : State) (cls a n : Nat) : Got × State :=
  match s.target a n with
  | .chip c =>
    if inSram c n then
      match s.ramRead .sram c n with
      | (some l, t) => (.data l, t)
      | (none, t) => (.err 4 (s.sramBadAt c n), t)
    else if 0xC0000 ≤ c ∧ c + n ≤ 0xD4000 then
      let (l, t) := s.imageRead c n
      (.data l, t)
    else if 0xF0000 ≤ c then (.data (romBytes c n), s)
    else (.err 2 a, s)
  | .yard q =>
    match s.yardEnqueue 0 cls q n false [] with
    | (_, true, t) => (.err 2 a, t)
    | (id, false, t) => (.yard id, t)
  | .flash f => if s.flashBusy then (.err 5 a, s) else (.data (s.flashBytes f n), s)
  | .undecoded => (.err 2 a, s)

/-! ## Fetching (R338-R342) -/

def DmaDesc.irq (d : DmaDesc) : Bool := d.w0.getLsbD 17
def DmaDesc.chain (d : DmaDesc) : Bool := d.w0.getLsbD 16
def DmaDesc.cls (d : DmaDesc) : Nat := bit (d.w0.getLsbD 15)
/-- A descriptor from its 24 bytes. -/
def DmaDesc.ofBytes (l : List Byte) : DmaDesc :=
  let w := fun k => wordOf (l.drop (3 * k))
  let src := (w 3).toNat * 2 ^ 20 + (w 2).toNat
  let dst := (w 5).toNat * 2 ^ 20 + (w 4).toNat
  let len := (w 1).toNat
  let fixed := (w 0).getLsbD 14 || (w 0).getLsbD 13
  { w0 := w 0, len := len, src := src, dst := dst, next := w 6
    down := !fixed && decide (src < dst ∧ dst < src + len), read := 0, carry := [], aborted := false }

/-- A fixed bit that the descriptor may not set (R343). -/
def DmaDesc.bad (d : DmaDesc) : Bool :=
  (d.srcFix && (d.src % 4 != 0 || d.len % 4 != 0)) || (d.dstFix && (d.dst % 4 != 0 || d.len % 4 != 0)) ||
    (d.srcFix && d.dstFix)

/-- IRQ at a completion: the DONE bit and the channel's producer (R346, R353). -/
def State.dmaIrq (s : State) (n : Nat) (irq : Bool) : State :=
  if irq then (s.raise ⟨DMA_DONE, n, n⟩).fire (0x50 + n) else s

/-- A completed descriptor chains or ends the channel (R340). -/
def State.dmaGoOn (s : State) (n : Nat) (d : DmaDesc) : State :=
  if d.chain then ((s.setRg (DMA_CH_NEXT n) d.next).put (DMA_CH_STAT_STATE n) 1).setDesc n none
  else s.dmaEnd n 1

/-- An owned descriptor is taken: HOPS, CUR, DONE; then ZERO_LENGTH, BAD_DESC, a range failure, or the move. -/
def State.dmaTake (s : State) (n a : Nat) (d : DmaDesc) : State :=
  let t := (s.bump (DMA_CH_HOPS_VALUE n)).put (DMA_CH_CUR_VALUE n) a
  let t := t.put (DMA_CH_DONE_VALUE n) 0
  if d.len = 0 then ((t.dmaClose n 2 d.w0).dmaIrq n d.irq).dmaGoOn n d
  else if d.bad then ((t.dmaClose n 4 d.w0).dmaIrq n d.irq).dmaEnd n 6
  else
    ((t.setDesc n (some d)).put (DMA_CH_STAT_STATE n) 2).rangeCheck n d

/-- The engines may work: no HALT, and their charge is held (R348, R351). -/
def State.dmaLive (s : State) : Bool := !s.test DMA_FLAGS_HALT && s.holds 15

/-- A fetch at DMA_CHn_NEXT (R340). -/
def State.dmaFetch (s : State) (n : Nat) : State :=
  let a := s.get (DMA_CH_NEXT_ADDR n)
  if !inSram a 24 then s.dmaEnd n 4
  else if s.get (DMA_CH_HOPS_VALUE n) = max 1 (s.get DMA_HOPLIM_LIMIT) then s.dmaEnd n 3
  else match s.ramRead .sram a 24 with
    | (none, t) => t.dmaStop 0 4 (s.sramBadAt a 24) none
    | (some l, t) =>
      let d := DmaDesc.ofBytes l
      if d.w0.getLsbD 19 then t.dmaTake n a d else t.dmaEnd n 2

/-- DESCRIPTOR_FETCH (R340). -/
def execDmaDescriptorFetch (ch : Fin 12) (s : State) : Out := s.during s.inRun <|
  .next (if s.dmaLive && s.dmaSt ch.val == 1 then s.dmaFetch ch.val else s)

/-! ## Arbitration (R345) -/

/-- A ready channel has waited more bus cycles than its patience (R14, R345, R394). -/
def State.dmaUrgent (s : State) (n : Nat) : Bool :=
  s.get (DMA_CH_PAT_PATIENCE n) * 48 < s.since ((s.dma.since.toList[n]?).getD 0) * s.busRate

/-- The channel whose chunk is read next. -/
def State.dmaPick (s : State) : Option Nat :=
  let ready := (List.range 16).filter s.dmaReady
  let age := fun n => (s.dma.since.toList[n]?).getD 0
  match ready.filter s.dmaUrgent with
  | n :: l => some (l.foldl (fun m k => if age k < age m then k else m) n)
  | [] => ((List.range 16).map (fun i => (s.dma.served + 1 + i) % 16)).find? (fun n => ready.contains n)

/-- Channel `n` is granted a credit for its next chunk. -/
def State.dmaServe (s : State) (n : Nat) : State :=
  s.modDma (fun d => { d with served := n, since := d.since.setIfInBounds n s.tick })

/-- A credit taken, at the end of the read order. -/
def State.credTake (s : State) (c : Credit) : State :=
  (s.modDma (fun d => { d with credits := d.credits ++ [{ c with id := d.nextId }], nextId := d.nextId + 1 })).credCheck

/-! ## Reading a chunk (R343, R344) -/

/-- The next chunk of a descriptor: its source address and length. -/
def DmaDesc.chunk (d : DmaDesc) : Nat × Nat :=
  if d.srcFix then (d.src, 4)
  else if d.down then
    let e := d.src + d.len - d.read
    let lo := max d.src ((e - 1) / 64 * 64)
    (lo, e - lo)
  else
    let a := d.src + d.read
    (a, min (64 - a % 64) (d.len - d.read))

/-- Where a chunk goes. -/
def DmaDesc.chunkDst (d : DmaDesc) (a : Nat) : Nat :=
  if d.dstFix then d.dst else if d.srcFix then d.dst + d.read else d.dst + (a - d.src)

/-- A program channel reads its next chunk. -/
def State.chunkRead (s : State) (n : Nat) (d : DmaDesc) : State :=
  let (a, m) := d.chunk
  let (g, t) := s.engineRead d.cls a m
  let c : Credit := { id := 0, rd := false, ch := n, addr := d.chunkDst a, len := m, data := none, rid := none
                      wrote := false, wids := [], bulk := d.cls == 1, tag := .none, fin := false,
                      hop := s.get (DMA_CH_HOPS_VALUE n) }
  match g with
  | .err cause e => t.dmaStop 0 cause e none
  | .data l => (t.setDesc n (some { d with read := d.read + m })).credTake { c with data := some l }
  | .yard id => (t.setDesc n (some { d with read := d.read + m })).credTake { c with rid := some id }

/-- The yard class of a block's access (R420). -/
def State.wideClass (s : State) (a : Nat) : Nat :=
  match s.target a 1 with
  | .yard q => s.yardArea q
  | _ => 0

/-- The first address of a block transfer's range outside its region, checked before any of its bytes moves (R337,
R342). -/
def State.blockFail (s : State) (x : Xfer) : Option Nat :=
  if x.begun then none
  else if x.rd ≠ 0 then s.rangeFail false x.addr x.rd
  else s.rangeFail true x.addr x.data.length

/-- A block's read takes its next chunk, within one 64-byte source line; `l` waits behind it in queue `q`. -/
def State.blockRead (s : State) (n : Nat) (q : Fin 5) (x : Xfer) (l : List Xfer) : State :=
  let m := min (64 - x.addr % 64) x.rd
  let c : Credit := { id := 0, rd := true, ch := n, addr := x.addr, len := m, data := none, rid := none, wrote := false
                      wids := [], bulk := false, tag := x.tag, fin := x.rd == m, hop := 0 }
  let left := if x.rd = m then l else { x with addr := x.addr + m, rd := x.rd - m, begun := true } :: l
  match s.engineRead (s.wideClass x.addr) x.addr m with
  | (.err cause e, t) => t.dmaStop 0 cause e none
  | (.data d, t) => ((t.modBlk q (fun _ => left)).credTake { c with data := some d }).readSweep
  | (.yard id, t) => (t.modBlk q (fun _ => left)).credTake { c with rid := some id }

/-- A block channel takes the next chunk of its queue: up to 64 bytes. -/
def State.blockChunk (s : State) (n : Nat) : State :=
  match (blkQueues n).find? (fun q => !s.dma.blk[q].isEmpty) with
  | none => s
  | some q => match s.dma.blk[q] with
    | [] => s
    | x :: l =>
      let begun := s.modBlk q (fun _ => { x with begun := true } :: l)
      match s.blockFail x with
      | some e => begun.dmaStop (bit (x.rd == 0)) 1 e (some n)
      | none =>
      if x.rd ≠ 0 then begun.blockRead n q x l
      else
      let part := x.data.take 64
      let rest := x.data.drop 64
      let c : Credit := { id := 0, rd := false, ch := n, addr := x.addr, len := part.length, data := some part, rid := none, wrote := false
                          wids := [], bulk := false, tag := x.tag, fin := rest.isEmpty, hop := 0 }
      let left := if rest.isEmpty then l else { x with addr := x.addr + 64, data := rest, begun := true } :: l
      (s.modBlk q (fun _ => left)).credTake c

/-- CHUNK_READ (R343, R345): the grant goes to the channel that the arbitration picks. -/
def execDmaChunkRead (ch : Fin 16) (s : State) : Out := s.during s.inRun <|
  let t := s.dmaTouch
  if !t.dmaLive || 64 ≤ t.dma.credits.length || t.dmaPick != some ch.val then .next s
  else
    let t := t.dmaServe ch.val
    if ch.val < 12 then
      match t.dmaDesc ch.val with
      | some d => .next (t.chunkRead ch.val d)
      | none => .next s
    else .next (t.blockChunk ch.val)

/-! ## Writing a chunk (R343, R345, R346) -/

/-- Bytes of the descriptor in progress that are in place: counted, after any earlier write not yet acknowledged. -/
def State.dmaPlaced (s : State) (n len hop : Nat) : State :=
  match s.dma.acks.reverse.find? (fun a => a.ch == n && a.hop == hop) with
  | some e => s.modDma (fun d => { d with
      acks := d.acks.map (fun (x : DmaAck) => if x.wid = e.wid then { x with len := x.len + len } else x) })
  | none => s.dmaCount n len hop

/-- Bytes cut where `line`-byte lines of their addresses end, lowest first; `fuel` bounds the pieces. -/
def cutLines (line : Nat) : Nat → Nat → List Byte → List (Nat × List Byte)
  | 0, _, _ => []
  | _, _, [] => []
  | fuel + 1, a, l =>
    let m := line - a % line
    (a, l.take m) :: cutLines line fuel (a + m) (l.drop m)

/-- The groups of four bytes of a list. -/
def fours : Nat → List Byte → List (List Byte)
  | 0, _ => []
  | fuel + 1, l => if l.length < 4 then [] else l.take 4 :: fours fuel (l.drop 4)

/-- One access of the write engine, in shared SRAM or the yard; the second part is the cause of a bus stop. -/
def State.engineWrite (s : State) (c : Credit) (a : Nat) (l : List Byte) : State × Option Nat :=
  match s.target a l.length with
  | .chip x =>
    if inSram x l.length then ((s.ramWrite .sram x l).dmaPlaced c.ch l.length c.hop, none) else (s, some 2)
  | .yard q =>
    match s.yardEnqueue 1 (if c.ch < 12 then bit c.bulk else s.yardArea q) q l.length true l with
    | (_, true, t) => (t, some 2)
    | (id, false, t) =>
      (t.modDma (fun d => { d with
        acks := d.acks ++ [⟨id, c.ch, l.length, c.hop⟩]
        credits := d.credits.map (fun x => if x.id = c.id then { x with wids := x.wids ++ [id] } else x) }), none)
  | _ => (s, some 2)

/-- The register groups of some bytes written: upward, each whole group from the lowest; downward, from the highest.
Bytes before the first whole group of the range are discarded; what remains waits for the next chunk (R343). -/
def State.groupsWrite (s : State) (down : Bool) (c : Credit) (a : Nat) (l carry : List Byte) : State × List Byte :=
  if down then
    let all := l ++ carry
    let drop := (a + all.length) % 4
    let body := all.take (all.length - drop)
    let keep := body.length % 4
    let gs := (fours body.length (body.drop keep)).zipIdx
    let t := gs.reverse.foldl (fun (t : State) g => t.regWrite .dma (a + keep + 4 * g.2) (wordOf g.1)) s
    (t.dmaPlaced c.ch (drop + (body.length - keep)) c.hop, body.take keep)
  else
    let all := carry ++ l
    let start := a - carry.length
    let drop := min all.length ((4 - start % 4) % 4)
    let body := all.drop drop
    let gs := (fours body.length body).zipIdx
    let t := gs.foldl (fun (t : State) g => t.regWrite .dma (start + drop + 4 * g.2) (wordOf g.1)) s
    (t.dmaPlaced c.ch (drop + 4 * gs.length) c.hop, body.drop (4 * gs.length))

/-- The pieces of a list written in order, up to one that stops the engines. -/
def State.piecesWrite (c : Credit) : List (Nat × List Byte) → State → State × Option (Nat × Nat)
  | [], s => (s, none)
  | (a, l) :: r, s =>
    match s.engineWrite c a l with
    | (t, none) => State.piecesWrite c r t
    | (t, some cause) => (t, some (cause, a))

/-- The groups of a transfer with DSTFIX, each to the same four bytes. -/
def State.fixedWrite (s : State) (c : Credit) (a : Nat) (l : List Byte) : State × Option (Nat × Nat) :=
  if 0xC0000 ≤ a ∧ a < 0xD4000 then
    ((fours l.length l).foldl (fun (t : State) g => (t.regWrite .dma a (wordOf g)).dmaPlaced c.ch 4 c.hop) s, none)
  else State.piecesWrite c ((fours l.length l).map (fun g => (a, g))) s

/-- The bytes of a credit written: to registers, to a fixed group, or line by line. -/
def State.creditWrite (s : State) (c : Credit) (l : List Byte) : State × Option (Nat × Nat) :=
  let d := if c.ch < 12 then s.dmaDesc c.ch else none
  let down := (d.map (·.down)).getD false
  let carry := (d.map (·.carry)).getD []
  let keep := fun (t : State) (r : List Byte) => t.setDesc c.ch ((t.dmaDesc c.ch).map (fun d => { d with carry := r }))
  if (d.map DmaDesc.dstFix).getD false then
    let all := carry ++ l
    let n := all.length / 4 * 4
    let (t, e) := s.fixedWrite c c.addr (all.take n)
    (keep t (all.drop n), e)
  else if 0xC0000 ≤ c.addr ∧ c.addr + l.length ≤ 0xD4000 then
    let (t, r) := s.groupsWrite down c c.addr l carry
    (keep t r, none)
  else
    let ps := cutLines 64 (l.length + 1) c.addr l
    State.piecesWrite c (if down then ps.reverse else ps) s

/-- The last transfer of a record, a request or a capture follows everything before it on its channel (R22). -/
def XferTag.ends : XferTag → Bool
  | .record .. | .cipher _ | .chordRx .. => true
  | _ => false

/-- Whether the credit at the head of the write order may be written. -/
def State.mayWrite (s : State) (c : Credit) : Bool :=
  !c.tag.ends || (!s.dma.credits.any (fun x => x.ch == c.ch && x.wrote) && !s.dma.acks.any (fun a => a.ch == c.ch))

/-- The channel waits at the barrier of R346. -/
def State.dmaBarrier (s : State) (n : Nat) : State :=
  match s.dmaDesc n with
  | some d => if s.dmaSt n = 2 ∧ d.barrier ∧ s.dmaIssued n d then s.put (DMA_CH_STAT_STATE n) 3 else s
  | none => s

/-- CHUNK_WRITTEN (R343, R345): the oldest chunk not yet written is written, and its credit returns once every write
is acknowledged. -/
def execDmaChunkWritten (s : State) : Out := s.during s.inRun <|
  match s.dma.credits.find? (fun c => !c.wrote && !c.rd) with
  | none => .next s
  | some c => match c.data with
    | none => .next s
    | some l =>
      if !s.dmaLive || !s.mayWrite c then .next s
      else match s.dmaTouch.creditWrite c l with
        | (t, some (cause, a)) => .next (t.dmaStop 1 cause a none)
        | (t, none) =>
          let t := t.modDma (fun d => { d with
            credits := d.credits.map (fun x => if x.id = c.id then { x with wrote := true } else x) })
          .next (t.credSweep.dmaBarrier c.ch)

/-! ## Completion (R346, R347) -/

/-- DESCRIPTOR_COMPLETE (R346, R347): w7, then w0 with OWN cleared; DONE with IRQ; the chain or the end. -/
def execDmaDescriptorComplete (ch : Fin 12) (s : State) : Out := s.during s.inRun <|
  match s.dmaDesc ch.val with
  | none => .next s
  | some d =>
    if !s.dmaLive || (s.dmaSt ch.val != 2 && s.dmaSt ch.val != 3) || !s.dmaFinished ch.val d then .next s
    else if d.aborted then .next ((s.dmaClose ch.val 3 d.w0).dmaEnd ch.val 5)
    else .next (((s.dmaClose ch.val 1 d.w0).dmaIrq ch.val d.irq).dmaGoOn ch.val d)

/-! ## Timeouts (R120, R346, R348) -/

/-- The yard request of a number, while it has no answer. -/
def State.yardFind (s : State) (id : Nat) : Option YReq :=
  ((s.ych 0).queue ++ (s.ych 0).cmds ++ (s.ych 1).queue ++ (s.ych 1).cmds).find? (fun r => r.id == id)

/-- The 256 bus cycles of access `id` of an engine have passed: a bus stop, unless it has been answered; an answer in
the cycle of the expiry is taken (R18, R346). -/
def State.dmaTimeout (s : State) (id : Nat) : State :=
  match s.yardFind id with
  | none => s
  | some r =>
    if (s.tick - r.since) * s.busRate < 256 * 48 then s
    else if s.dma.acks.any (fun a => a.wid == id) then
      (s.modDma (fun d => { d with acks := d.acks.filter (fun x => x.wid != id) })).dmaStop 1 3 (yardBus r.q) none
    else if s.dma.credits.any (fun c => c.rid == some id && c.data.isNone) then s.dmaStop 0 3 (yardBus r.q) none
    else s

end Sys2Proof.Machine
end

