-- ==== Sys2Proof/Machine/CoreMem.lean ====
section
/-! DEFINITION. The loads and stores of a core: the core's address map (R52, R56, R114), the gates (R123-R125), the store
buffer (R98, R99), `xchg` (R97), and the placing of action-table entries, which waits for the buffer (R86-R88). -/

namespace Sys2Proof.Machine

/-! ## The core's map (R114) -/

/-- The ranges of the core address map. -/
inductive Region
  | sram
  | gate (g : Nat)
  | regs | gap | own | hole | rom
deriving DecidableEq, Repr

def regionOf (a : Nat) : Region :=
  if a < 0xA0000 then .sram
  else if a < 0xC0000 then .gate ((a - 0xA0000) / 0x8000)
  else if a < 0xD4000 then .regs
  else if a < 0xE0000 then .gap
  else if a < 0xE4000 then .own
  else if a < 0xF0000 then .hole
  else .rom

/-- The detail of the DATA_FAULT found as an address is formed, 0 for none (R52, R55, R56, R101, R111). -/
def State.addrFault (s : State) (c : CoreId) (wr : Bool) (a n : Nat) : Nat :=
  if 0x100000 < a + n ∨ regionOf a ≠ regionOf (a + n - 1) then 1
  else match regionOf a with
    | .rom => if wr then 2 else 0
    | .gap | .hole => 3
    | .regs => if swPriv (s.core c).sw || s.taskMay c a n then 0 else 7
    | _ => 0

/-! ## Gates (R123, R124) -/

/-- The wide address that core address `a` reaches through gate `g`. -/
def State.gateAddr (s : State) (g a : Nat) : Nat :=
  s.get (GATE_HI_BASE_HI g) * 2 ^ 20 + s.get (GATE_CTL_BASE_LO g) * 2 ^ 15 + (a - 0xA0000 - 0x8000 * g)

/-- What the gate's configuration and the map refuse, in the order of R123's table; 0 for nothing. -/
def State.gateFault (s : State) (g : Nat) (wr priv : Bool) (a n : Nat) : Nat :=
  let t := s.target (s.gateAddr g a) n
  if !s.test (GATE_CTL_EN g) then 4
  else if t = .undecoded then 4
  else if wr && (match t with
      | .flash _ => true
      | _ => false) then 4
  else if wr && !s.test (GATE_CTL_WRITE g) then 4
  else if s.test (GATE_CTL_PRIVONLY g) && !priv then 7
  else match t with
    | .chip _ => 4
    | _ => 0

/-- The detail an access's ending gives: a bus timeout, or a bus error (R111). -/
def endDetail (e : Ending) : Nat := if e = 0 then 0 else if e = 3 then 5 else 4

def State.gateRead (s : State) (c : CoreId) (g a n : Nat) : Nat × List Byte × State :=
  match s.gateFault g false (swPriv (s.core c).sw) a n with
  | 0 =>
    let (e, d, t) := s.wideRead 2 (s.gateAddr g a) n
    (endDetail e, d, t)
  | k => (k, [], s)

def State.gateWrite (s : State) (c : CoreId) (g a : Nat) (bs : List Byte) : Nat × State :=
  match s.gateFault g true (swPriv (s.core c).sw) a bs.length with
  | 0 =>
    let (e, t) := s.wideWrite 2 (s.gateAddr g a) bs
    (endDetail e, t)
  | k => (k, s)

/-! ## The store buffer (R98) -/

/-- A store reaches its target.  In register space only a word store at a multiple of 4 has effect (R122). -/
def State.storeLand (s : State) (c : CoreId) (st : Store) : State :=
  let a := st.addr.toNat
  match regionOf a with
  | .sram => s.ramWrite .sram a st.bytes
  | .own => s.ramWrite (.pram c) a st.bytes
  | .regs => if st.word && a % 4 == 0 then s.regWrite (.core c st.priv) a (wordOf st.bytes) else s
  | _ => s

/-- A core reset that waited for the buffer takes place once it is empty (R113). -/
def State.coreResetDue (s : State) (c : CoreId) : State :=
  if (s.core c).creset && (s.core c).stores.isEmpty then s.coreResetNow c else s

/-- A store to a register of the backup domain in which it completes only later (R386). -/
def Store.late (st : Store) : Bool := st.word && backupStore st.addr.toNat

/-- The oldest store of a core becomes visible; one to the backup domain only once it completes there (R386). -/
def State.drainOne (s : State) (c : CoreId) : State :=
  match (s.core c).stores with
  | [] => s
  | st :: rest =>
    let t := (s.modCore c (fun x => { x with stores := rest })).storeLand c st
    (if st.late then t.backupFlush else t).coreResetDue c

/-- The `n` oldest stores become visible. -/
def State.drain (s : State) (c : CoreId) : Nat → State
  | 0 => s
  | n + 1 => State.drain (s.drainOne c) c n

/-- Every buffered store becomes visible. -/
def State.drainAll (s : State) (c : CoreId) : State := s.drain c (s.core c).stores.length

/-- Two byte ranges meet. -/
def overlap (a n b m : Nat) : Bool := a < b + m && b < a + n

/-- How many of the oldest stores a load of `n` bytes at `a` waits for: those up to the youngest that it overlaps. -/
def storesMet (a n : Nat) : List Store → Nat
  | [] => 0
  | st :: r =>
    let k := storesMet a n r
    if k ≠ 0 then k + 1 else if overlap a n st.addr.toNat st.bytes.length then 1 else 0

/-! ## Loads -/

/-- The bytes of a load whose address has passed: detail (0 for none), bytes, state. Of the boot ROM it returns the
bytes, whatever their check says (notes/assumptions/62.md). -/
def State.loadBytes (s : State) (c : CoreId) (a n : Nat) : Nat × List Byte × State :=
  match regionOf a with
  | .sram => match s.ramRead .sram a n with
    | (some d, t) => (0, d, t)
    | (none, t) => (6, [], t)
  | .own => match s.ramRead (.pram c) a n with
    | (some d, t) => (0, d, t)
    | (none, t) => (6, [], t)
  | .regs =>
    let (d, t) := s.imageRead a n
    (0, d, t)
  | .gate g => s.gateRead c g a n
  | _ => (0, romBytes a n, s)

/-- A load of `n` bytes at `a` by an instruction of `words` words; `f` writes the bytes to the destination. -/
def State.load (s : State) (c : CoreId) (words : Nat) (a : W20) (n : Nat) (f : CoreSt → List Byte → CoreSt) : State :=
  match s.addrFault c false a.toNat n with
  | 0 =>
    let t := s.drain c (storesMet a.toNat n (s.core c).stores)
    if !t.runs c then t
    else match t.loadBytes c a.toNat n with
      | (0, d, u) => u.modCore c (fun x => (f x d).advance words)
      | (k, _, u) => u.dataFault c k a
  | k => s.dataFault c k a

/-- The destination register of a load holds `g` of the bytes, taken little-endian (R53, R77). -/
def loadTo (d : RegId) (g : Nat → Nat) (x : CoreSt) (l : List Byte) : CoreSt :=
  x.set d (BitVec.ofNat 20 (g (ofBytesLE l)))

/-- The effective address with a 20-bit displacement (R77). -/
def CoreSt.ea (x : CoreSt) (a : RegId) (imm20 : W20) : W20 := x.get a + imm20

def execILdw (c : CoreId) (d a : RegId) (disp8 : BitVec 8) (s : State) : Out :=
  s.instr c (fun x => s.load c 1 (x.get a + disp8.signExtend 20) 3 (loadTo d id))

def execILdbu (c : CoreId) (d a : RegId) (imm20 : W20) (s : State) : Out :=
  s.instr c (fun x => s.load c 2 (x.ea a imm20) 1 (loadTo d id))

def execILdbs (c : CoreId) (d a : RegId) (imm20 : W20) (s : State) : Out :=
  s.instr c (fun x => s.load c 2 (x.ea a imm20) 1 (loadTo d (fun v => unsigned 20 (signed 8 v))))

def execILdhu (c : CoreId) (d a : RegId) (imm20 : W20) (s : State) : Out :=
  s.instr c (fun x => s.load c 2 (x.ea a imm20) 2 (loadTo d id))

def execILdhs (c : CoreId) (d a : RegId) (imm20 : W20) (s : State) : Out :=
  s.instr c (fun x => s.load c 2 (x.ea a imm20) 2 (loadTo d (fun v => unsigned 20 (signed 16 v))))

def execILdwl (c : CoreId) (d a : RegId) (imm20 : W20) (s : State) : Out :=
  s.instr c (fun x => s.load c 2 (x.ea a imm20) 3 (loadTo d id))

/-- `ldp` (R53, R77, R78): the lower triple to the odd register, the upper one to the even. -/
def execILdp (c : CoreId) (d a : RegId) (imm20 : W20) (s : State) : Out :=
  s.instr c (fun x =>
    if !isPair d then s.illegal c
    else s.load c 2 (x.ea a imm20) 6 (fun y l =>
      (y.set d (wordOf (l.drop 3))).set (oddOf d) (wordOf l)))

/-! ## Stores -/

/-- A store of `bs` at `a` by an instruction of `words` words.  A store through a gate waits until its target
acknowledges it (R124); any other enters the buffer, whose oldest store drains first when four wait (R98). -/
def State.store (s : State) (c : CoreId) (words : Nat) (a : W20) (bs : List Byte) (word : Bool) : State :=
  match s.addrFault c true a.toNat bs.length with
  | 0 =>
    match regionOf a.toNat with
    | .gate g =>
      let t := s.drainAll c
      if !t.runs c then t
      else match t.gateWrite c g a.toNat bs with
        | (0, u) => u.modCore c (fun x => x.advance words)
        | (k, u) => u.dataFault c k a
    | _ =>
      let t := if 4 ≤ (s.core c).stores.length then s.drainOne c else s
      if !t.runs c then t
      else t.modCore c (fun x => { x with stores := x.stores ++ [(⟨a, bs, word, swPriv x.sw⟩ : Store)] }.advance words)
  | k => s.dataFault c k a

def execIStw (c : CoreId) (d a : RegId) (disp8 : BitVec 8) (s : State) : Out :=
  s.instr c (fun x => s.store c 1 (x.get a + disp8.signExtend 20) (tripleOf (x.get d)) true)

def execIStb (c : CoreId) (d a : RegId) (imm20 : W20) (s : State) : Out :=
  s.instr c (fun x => s.store c 2 (x.ea a imm20) (toBytesLE 1 (x.get d).toNat) false)

def execISth (c : CoreId) (d a : RegId) (imm20 : W20) (s : State) : Out :=
  s.instr c (fun x => s.store c 2 (x.ea a imm20) (toBytesLE 2 (x.get d).toNat) false)

def execIStwl (c : CoreId) (d a : RegId) (imm20 : W20) (s : State) : Out :=
  s.instr c (fun x => s.store c 2 (x.ea a imm20) (tripleOf (x.get d)) true)

/-- `stp` (R53, R77, R122): no word store. -/
def execIStp (c : CoreId) (d a : RegId) (imm20 : W20) (s : State) : Out :=
  s.instr c (fun x =>
    if !isPair d then s.illegal c
    else s.store c 2 (x.ea a imm20) (tripleOf (x.get (oddOf d)) ++ tripleOf (x.get d)) false)

/-- STORE_VISIBLE (R98, R113): the oldest buffered store reaches its target, or a core reset that waited takes place.
-/
def execStoreVisible (c : CoreId) (s : State) : Out :=
  .next (if s.clocked then (s.drainOne c).coreResetDue c else s)

/-- BACKUP_STORE_COMPLETE (R386): the oldest store on its way to the backup domain completes, or the one that a core's
buffer waits with. -/
def execBackupStoreComplete (s : State) : Out :=
  .next (if !s.rtc.late.isEmpty then s.backupNext
    else match ([0, 1, 2, 3] : List CoreId).find? (fun c => (s.core c).stores.head?.any Store.late) with
      | some c => if s.clocked then s.drainOne c else s
      | none => s)

/-! ## Order and atomic access (R97, R99) -/

/-- What an instruction does once every earlier store of its core is visible; a store that stops the core ends it. -/
def State.afterDrain (s : State) (c : CoreId) (f : State → CoreSt → State) : State :=
  let t := s.drainAll c
  if t.runs c then f t (t.core c) else t

/-- `fence` (R99). -/
def execIFence (c : CoreId) (s : State) : Out :=
  s.instr c (fun _ => s.afterDrain c (fun t x => t.setCore c (x.advance 1)))

/-- The memory that an `xchg` may name: shared SRAM or the core's own data RAM, within one 64-byte line (R97). -/
def xchgRam (c : CoreId) (a : Nat) : Option Ram :=
  if a / 64 ≠ (a + 2) / 64 then none
  else match regionOf a with
    | .sram => some .sram
    | .own => some (.pram c)
    | _ => none

/-- `xchg` (R97). -/
def execIXchg (c : CoreId) (d a : RegId) (s : State) : Out :=
  s.instr c (fun x =>
    let e := x.get a
    match xchgRam c e.toNat with
    | none => s.dataFault c 8 e
    | some r => s.afterDrain c (fun t _ => match t.ramRead r e.toNat 3 with
      | (some l, u) =>
        (u.ramWrite r e.toNat (tripleOf (x.get d))).modCore c (fun y => (y.set d (wordOf l)).advance 1)
      | (none, u) => u.dataFault c 6 e))

/-! ## Arming (R86-R88) -/

/-- The parameters of an action kind (R87). -/
def paramOk (kind param : Nat) : Bool :=
  match kind with
  | 0x0 | 0x3 => param == 0
  | 0x1 | 0x6 => param < 16
  | 0x2 => 1 ≤ param && param ≤ 3
  | 0x4 | 0x5 => param == 0x8000 || param < 48
  | 0x7 => param < 8
  | 0x8 => param < 32
  | _ => false

/-- The entry that `arm` replaces gives up its reservation or its request (R40, R86). -/
def State.actVacate (s : State) (c : CoreId) (e : Nat) : State :=
  (s.release [resvId c e]).withdraw (fun w => match w.kind with
    | .resv d k => d == c && k == e
    | _ => false)

/-- An entry of an action table written. -/
def State.setAct (s : State) (c : CoreId) (e : Nat) (a : ActEntry) : State :=
  s.modCore c (fun x => { x with acts := x.acts.setIfInBounds e a })

/-- The reservation of a freshly placed entry (R39, R86): refused at once when its charge exceeds the pool total,
requested at once when its lead is already reached. -/
def State.actReserve (s : State) (c : CoreId) (e : Nat) (a : ActEntry) : State :=
  if a.resv = 0 then s
  else if s.mngTotal < ceilDiv (a.resv.toNat * s.mngF) 16 then
    (s.setAct c e { a with status := .noRations }).raise MNG_FLAGS_EXCEEDS_POOL
  else if s.reached (a.fire - BitVec.ofNat 40 (s.get MNG_LEAD_LEAD)) then
    (s.addWait (resvId c e) 3 (.resv c e)).setAct c e { a with status := .reserving }
  else s

/-- An entry placed (R86): whether its fire tick was already reached, and the state. -/
def State.place (s : State) (c : CoreId) (wd fire wb : Nat) : Bool × State :=
  let e := wd % 16
  let t := s.actVacate c e
  if wb / 2 ^ 16 = 0 then (false, t.setAct c e ⟨0, 0, 0, 0, .empty, false⟩)
  else
    let tick := BitVec.ofNat 40 fire
    let z := s.reached tick
    let a : ActEntry := ⟨BitVec.ofNat 4 (wb / 2 ^ 16), BitVec.ofNat 16 wb, tick, BitVec.ofNat 10 (wd / 1024), .armed, z⟩
    (z, (t.setAct c e a).actReserve c e a)

/-- `arm` (R86-R88). -/
def execIArm (c : CoreId) (d a b : RegId) (s : State) : Out :=
  s.instr c (fun x =>
    let wb := (x.get b).toNat
    let kind := wb / 2 ^ 16
    if !isPair a || !paramOk kind (wb % 2 ^ 16) then s.illegal c
    else if kind ≠ 0 && !swPriv x.sw && !(s.rg (CC_ACTPERM c.val)).getLsbD kind then s.privOp c
    else s.afterDrain c (fun t _ =>
      let (z, u) := t.place c (x.get d).toNat (x.pair a) wb
      u.modCore c (fun y => { y with sw := swSetZ y.sw z }.advance 1)))

end Sys2Proof.Machine
end

