-- ==== Sys2Proof/Machine/Grant.lean ====
section
/-! DEFINITION. What a grant does to the block that waited for it (R33-R39), the manger's evaluation (R36), the firing of
armed actions (R7, R10, R39, R40, R86-R90, R157), and the delivery of lattice events (R355, R358, R363, R364). -/

namespace Sys2Proof.Machine

/-! ## Grants -/

/-- A core that waits for its charge starts (R517). -/
def State.coreGranted (s : State) (c : CoreId) : State :=
  if (s.core c).run = .starting ∧ s.holds (coreHolder c) then s.modCore c (fun x => { x with run := .running }) else s

/-- Holder `h` has been granted its charge. -/
def State.onHolder (s : State) (h : Nat) : State :=
  if h ≤ 6 then s.radioSettle
  else if h ≤ 10 then s.coreGranted ⟨(h - 7) % 4, Nat.mod_lt _ (by decide)⟩
  else if h = 11 then s.yardGranted
  else if h = 12 ∨ h = 13 then (if s.busRuns then s.chordSettle else s)
  else if 28 ≤ h ∧ h ≤ 31 then s.tiedApply (s.get (MNG_EXT_PIN (h - 28)))
  else s

def State.onHolders (s : State) (hs : List Nat) : State := hs.foldl State.onHolder s

/-- What follows a granted request. -/
def State.onGrant (s : State) (w : Wait) : State :=
  match w.kind with
  | .holders hs => s.onHolders hs
  | .swap _ take => s.radioSettle.onHolders (take.filter (6 < ·))
  | .program c _ => (match (s.core c).run with
    | .inTake h _ _ d => if h = w.id then s.modCore c (fun x => x.finish d 0 true) else s
    | _ => s)
  | .resv c e => s.modCore c (fun x => { x with
      acts := (match x.acts.toList[e]? with
        | some a => x.acts.setIfInBounds e { a with status := .reserved }
        | none => x.acts) })

/-- MANGER_EVALUATION (R36). -/
def execMangerEvaluation (s : State) : Out := s.during s.notDormant <|
  let (t, g) := s.evaluate
  .next (g.foldl State.onGrant t)

/-- TAKE_TIMEOUT (R96): the waiting request is withdrawn, with code 2, unless the evaluation of the tick grants it
(R18). -/
def execTakeTimeout (c : CoreId) (s : State) : Out :=
  let x := s.core c
  match x.run with
  | .inTake h start limit d =>
    if !s.clocked ∨ limit = 0xFFFFF ∨ s.tick - start < limit.toNat then .next s
    else
      let (t, g) := s.evaluate
      if g.any (fun w => w.id == h && (match w.kind with
          | .program e _ => e == c
          | _ => false)) then .next (g.foldl State.onGrant t)
      else .next ((s.withdrawTake c).setCore c (x.finish d 2 false))
  | _ => .next s

/-! ## Which actions fire (R40, R89) -/

/-- An entry due to fire: its core, index and contents. -/
structure Due where
  c : CoreId
  e : Nat
  a : ActEntry
deriving DecidableEq, Repr

/-- An entry that waits for its fire tick (R90). -/
def ActEntry.live (a : ActEntry) : Bool := a.status == .armed || a.status == .reserving || a.status == .reserved

/-- The entries whose fire tick is reached, or was when they were armed, or was passed (R10, R86), in core and then
index order. -/
def State.dueActs (s : State) : List Due :=
  ([0, 1, 2, 3] : List CoreId).flatMap (fun c => (List.range 16).filterMap (fun e =>
    match (s.core c).acts.toList[e]? with
    | some a => if a.live && (a.passed || s.reached a.fire) then some ⟨c, e, a⟩ else none
    | none => none))

/-- An entry whose reservation has not been granted (R40). -/
def Due.starved (d : Due) : Bool := d.a.resv != 0 && d.a.status != .reserved

/-- A parameter that names every position. -/
def Due.allPos (d : Due) : Bool := d.a.param.getLsbD 15

def Due.pos (d : Due) : Nat := d.a.param.toNat % 64

/-- Two entries conflict (R89). -/
def Due.clash (d f : Due) : Bool :=
  let k := d.a.kind.toNat
  let l := f.a.kind.toNat
  (k == l && (k == 1 || k == 6)) || (k == 2 && l == 3) || (k == 3 && l == 2) ||
    (((k == 4 && l == 5) || (k == 5 && l == 4)) && (d.allPos || f.allPos || d.pos == f.pos))

/-- The entries of a list that fire, after those of `won`, and those that clash (R89). -/
def splitClash : List Due → List Due → List Due × List Due
  | [], won => (won, [])
  | d :: r, won =>
    if won.any d.clash then
      let (w, l) := splitClash r won
      (w, d :: l)
    else splitClash r (won ++ [d])

/-- The status that an entry ends with. -/
def State.actEnd (s : State) (st : ActStatus) (d : Due) : State := s.setAct d.c d.e { d.a with status := st }

/-- An entry without its rations (R40). -/
def State.actStarve (s : State) (d : Due) : State :=
  ((s.actVacate d.c d.e).actEnd .noRations d).raise MNG_FLAGS_NO_RATIONS

/-- An entry that clashes returns its reservation (R89). -/
def State.actLose (s : State) (d : Due) : State := (s.actVacate d.c d.e).actEnd .clash d

/-! ## What an action does (R87) -/

/-- The consumers that have newly requested their charges since `old`. -/
def State.newlyAsked (s old : State) : List Nat :=
  s.manger.waits.flatMap (fun w => match w.kind with
    | .holders l => if old.manger.waits.contains w then [] else l
    | _ => [])

/-- A reservation applied to the charges that the action's consumers have just requested (R39): the excess returns,
the shortfall waits as one request of class 0. -/
def State.applyResv (s old : State) (r : Nat) : State :=
  match s.newlyAsked old with
  | [] => s.release [r]
  | hs =>
    let (t, ret) := s.applied (some r)
    let t := (t.drop hs).applyTo ret hs
    t.onHolders (hs.filter t.holds)

/-- The reservation that an entry fires with. -/
def Due.resv (d : Due) : Option Nat := if d.a.resv = 0 then none else some (resvId d.c d.e)

/-- An action fires (R87), at die temperature `temp` for a calibration that a TX start makes; a reservation not
already applied is applied to what the action requests (R39). -/
def State.actDo (temp : BitVec 10) (s : State) (d : Due) : State :=
  let p := d.a.param.toNat
  if d.a.kind = 1 then (s.txStart p d.resv temp).1
  else
    let t := match d.a.kind.toNat with
      | 2 => s.windowOpen (p % 4)
      | 3 => s.windowClose
      | 4 => s.stallAction d.allPos d.pos true
      | 5 => s.stallAction d.allPos d.pos false
      | 6 => s.paAction (p / 8 % 2) (p % 8)
      | 7 => s.fire (0x30 + 8 * d.c.val + p % 8)
      | 8 => s.event d.c (p % 32)
      | _ => s
    match d.resv with
    | some r => t.applyResv s r
    | none => t

/-- How far the armed time of an entry lies back. -/
def State.age (s : State) (d : Due) : Nat := (s.mesh - d.a.fire).toNat

/-- Entries in order of armed time, ties in table order, the lower core's table first (R10, notes/assumptions/46.md).
-/
def State.byAge (s : State) : List Due → List Due
  | [] => []
  | d :: r => ins d (State.byAge s r)
where
  /-- An entry put before the first that is armed no earlier. -/
  ins (d : Due) : List Due → List Due
    | [] => [d]
    | f :: r => if s.age f ≤ s.age d then d :: f :: r else f :: ins d r

/-- The order in which actions of one tick take effect: the armed order, but a window change stands after a TX start
of its tick (R10, R144). -/
def fireOrder (l : List Due) : List Due :=
  let window := fun (d : Due) => d.a.kind == 2 || d.a.kind == 3
  match l.findIdx? (fun d => d.a.kind == 1) with
  | none => l
  | some n =>
    let front := l.take n
    front.filter (fun d => !window d) ++ (l.drop n).take 1 ++ front.filter window ++ l.drop (n + 1)

/-- The status of an entry that fires: FIRED at its armed tick, FIRED_PASSED at a later one (R86, R90, R403). -/
def State.firedStatus (s : State) (d : Due) : ActStatus :=
  if d.a.passed ∨ s.mesh ≠ d.a.fire then .firedPassed else .fired

/-- The evaluation of a tick in which an entry still waits for its reservation comes before the entry fires (R18,
R40). -/
def State.lateGrants (s : State) : State :=
  if s.dueActs.any (fun d => d.a.status == .reserving) then
    let (t, g) := s.evaluate
    g.foldl State.onGrant t
  else s

/-- The actions whose tick is reached fire (R7, R10, R18, R39, R40, R86, R89, R144, R157); `temp` is the die
temperature of a calibration that a TX start makes (R518). -/
def State.actionsFire (s : State) (temp : BitVec 10) : State :=
  let s := s.lateGrants
  let due := s.dueActs
  let (won, lost) := splitClash (due.filter (fun d => !d.starved)) []
  let t := (due.filter Due.starved).foldl State.actStarve s
  let t := lost.foldl State.actLose t
  let t := won.foldl (fun (t : State) d => t.actEnd (s.firedStatus d) d) t
  (fireOrder (s.byAge won)).foldl (State.actDo temp) t

/-- ACTION_FIRE (R7, R403): in RUN. -/
def execActionFire (temp : BitVec 10) (s : State) : Out :=
  s.live <| .next (if s.busRuns then s.actionsFire temp else s)

/-! ## Lattice delivery (R355, R358, R363, R364) -/

/-- A consumer acts once. -/
def State.consume (s : State) (k : Nat) : State :=
  if k < 0x80 then s.event ⟨k / 32 % 4, Nat.mod_lt _ (by decide)⟩ (k % 32)
  else if k < 0x98 then s.gpioAct (k - 0x80)
  else if k < 0xA4 then (if s.test (DMA_CH_CFG_LSTART (k - 0x98)) then s.dmaStart (k - 0x98) else s)
  else if 0xA8 ≤ k ∧ k < 0xB0 then s.tmrEvent (k - 0xA8)
  else if k = 0xF0 then s.keeperOrder .lattice (s.get KMB_ORDER_CODE)
  else if k = 0xF1 then s.cphSubmit (2 + s.get LAT_CSUBCFG_CORE0) (s.rg LAT_CSUB0)
  else if k = 0xF2 then s.cphSubmit (2 + s.get LAT_CSUBCFG_CORE1) (s.rg LAT_CSUB1)
  else s

/-- Two or more events met at one consumer: an event line records the merge in EMISS, another consumer in its OVL bit
and OVERLAP (R91, R364). -/
def State.merged (s : State) (k : Nat) : State :=
  if k < 0x80 then s.consume k else s.overlap k

/-- The event `f` has been delivered: the run of a clocked channel grows where it delivered in the bus cycle before,
and begins anew after a bus cycle without a delivery; a run of 1,024 stands until the channel is disabled (R363). -/
def State.stormCount (s : State) (f : Flight) : State :=
  let (last, run) := s.stormOf f.ch
  if f.async || (run != 0 && f.due == last) || 1024 ≤ run then s
  else { s with lattice := { s.lattice with
    storm := tabSet (fun _ => (0, 0)) s.lattice.storm f.ch (f.due, if f.due = last + 1 then run + 1 else 1) } }

/-- An event of bus cycle `cyc` reaches consumer `k` through channels: it acts once, and merges with what has reached
the consumer in the same bus cycle, another channel's event or a register write of the same action (R364). -/
def State.arrive (s : State) (k cyc : Nat) : State :=
  if 0x80 ≤ k ∧ (s.lattice.acts.contains (k, cyc) ∨ s.lattice.writes.contains (k, cyc)) then s.merged k
  else ({ s with lattice := { s.lattice with acts := s.lattice.acts ++ [(k, cyc)] } }).consume k

/-- The oldest event inside channel `ch` that is due is delivered, merged with every event that reaches the same
consumer in its bus cycle (R358, R364). -/
def State.deliver (s : State) (ch : Nat) : State :=
  match s.lattice.flights.find? (fun f => f.ch == ch && f.due ≤ s.lattice.cyc) with
  | none => s
  | some f =>
    let same := s.lattice.flights.filter (fun g => g.cons == f.cons && g.due == f.due)
    let t := { s with lattice := { s.lattice with flights := s.lattice.flights.filter (fun g => !same.contains g) } }
    let t := (same.foldl State.stormCount t).arrive f.cons f.due
    if 2 ≤ same.length then t.merged f.cons else t

/-- LATTICE_EVENT_DELIVERY (R355, R358, R364, R366). -/
def execLatticeEventDelivery (ch : Fin 64) (s : State) : Out :=
  s.live <| .next (if s.busRuns then s.deliver ch.val else s)

end Sys2Proof.Machine
end

