-- ==== Sys2Proof/Machine/Hitch.lean ====
section
/-! DEFINITION. The hitch port's transactions (R130-R132) and the bus timeout (R120). -/

namespace Sys2Proof.Machine

/-! ## Answers (R130, R131) -/

/-- The status byte (R131). -/
def State.hitchStatusByte (s : State) : Byte :=
  BitVec.ofNat 8 (128 * bit (s.meets HSP_FLAGS HSP_IRQEN) + 64 * bit (s.test HSP_FLAGS_ERR) + 32 * bit s.awake +
    16 * bit (s.rg HSP_H2C != 0) + 0b1010)

/-- What the device sends, less the zeros before the first datum; the transaction ends, and HSPI_CS_N rises. -/
def State.hitchSend (s : State) (l : List Byte) : State :=
  { s with hitch := l, power := { s.power with csLow := false } }

/-! ## Permissions (R132) -/

/-- How many of `n` bytes from `a` the host may reach in one range. -/
def State.hostRun (s : State) (a : Nat) : Nat → Nat
  | 0 => 0
  | n + 1 => if s.hostMay a then 1 + State.hostRun s (a + 1) n else 0

/-- `n` open bytes. -/
def State.openBytes (s : State) (n : Nat) : List Byte × State :=
  ((List.range n).map (fun i => BitVec.ofNat 8 (Config.freeW20 (s.free + i)).toNat), { s with free := s.free + n })

/-! ## READ (R130, R132) -/

/-- The data of a burst from SRAM or the ROM view: `none` for an error at the first datum. -/
def State.hostBurst (s : State) (a n : Nat) : Option (List Byte) × State :=
  let top := if a < 0xA0000 then 0xA0000 else 0x100000
  let m := s.hostRun a (min n (top - a))
  let (d, t) :=
    if a < 0xA0000 then
      match s.ramRead .sram a m with
      | (some l, t) => (some l, t)
      | (none, t) =>
        let k := s.sramBadAt a m - a
        if k = 0 then (none, t.hitchErr 5)
        else
          let (l, u) := t.openBytes (m - k)
          (some (s.bytes .sram a k ++ l), u.hitchErr 5)
    else (some (romBytes a m), s)
  match d with
  | none => (none, t)
  | some l => (some (l ++ List.replicate (n - m) 0), if m < n then t.hitchErr 2 else t)

/-- A READ of `n` data bytes at `a`. -/
def State.hitchReadAt (s : State) (a n : Nat) : Option (List Byte) × State :=
  if n = 0 then (some [], s)
  else if !s.hostMay a then (none, s.hitchErr (hostCause a))
  else if 0xC0000 ≤ a ∧ a < 0xD4000 then
    let (d, t) := s.imageRead (a / 4 * 4) 4
    (some ((d ++ List.replicate (n - 4) 0).take n), t)
  else s.hostBurst a n

/-- HITCH_READ (R130-R132): the status byte, 0xFF for each address byte, then 0x5A and the data, or 0xE5 and 0xFF.
DESIGN CHOICE: with AWAKE 0, the status byte is all that this or any other command is answered
(notes/assumptions/65.md). -/
def execHitchRead (addr : W20) (n : Nat) (s : State) : Out := s.live <|
  let st := s.hitchStatusByte
  if !s.awake then .next (s.hitchSend [st])
  else
    match s.hitchReadAt addr.toNat n with
    | (some d, t) => .next (t.hitchSend ([st, 0xFF, 0xFF, 0xFF, 0x5A] ++ d))
    | (none, t) => .next (t.hitchSend ([st, 0xFF, 0xFF, 0xFF, 0xE5] ++ List.replicate n 0xFF))

/-! ## WRITE (R132) -/

/-- Bytes written to SRAM as they are received; a byte past the permitted range is discarded with cause 2. -/
def State.hostSram (s : State) (a : Nat) : List Byte → State
  | [] => s
  | b :: l =>
    if a < 0xA0000 ∧ s.hostMay a then State.hostSram (s.ramWrite .sram a [b]) (a + 1) l else s.hitchErr 2

/-- Register writes from the 4-byte groups of a burst that begins at a multiple of 4; an incomplete group is
discarded. -/
def State.hostRegs (s : State) (a : Nat) : List Byte → State
  | b0 :: b1 :: b2 :: _ :: l =>
    if a < 0xD4000 ∧ s.hostMay a then State.hostRegs (s.regWrite .host a (wordOf [b0, b1, b2])) (a + 4) l
    else s.hitchErr 2
  | _ => s

/-- A WRITE of bytes at `a`. -/
def State.hitchWriteAt (s : State) (a : Nat) (l : List Byte) : State :=
  if l.isEmpty then s
  else if 0xF0000 ≤ a then s.hitchErr 1
  else if !s.hostMay a then s.hitchErr (hostCause a)
  else if a < 0xA0000 then s.hostSram a l
  else s.hostRegs ((a + 3) / 4 * 4) (l.drop ((a + 3) / 4 * 4 - a))

/-- HITCH_WRITE (R130-R132). -/
def execHitchWrite (addr : W20) (bytes : List Byte) (s : State) : Out := s.live <|
  let st := s.hitchStatusByte
  if !s.awake then .next (s.hitchSend [st])
  else .next ((s.hitchWriteAt addr.toNat bytes).hitchSend (st :: List.replicate (3 + bytes.length) 0xFF))

/-- HITCH_STATUS (R130, R131): a transaction of `n` bytes after its command byte `cmd`, which is neither READ nor
WRITE. STATUS repeats the status byte; any other command is ignored, and the device sends 0xFF. Asleep it ignores the
command. -/
def execHitchStatus (s : State) (cmd : Byte := 0x05) (n : Nat := 1) : Out := s.live <|
  let st := s.hitchStatusByte
  if cmd = 0x0B ∨ cmd = 0x02 then .next s
  else if !s.awake then .next (s.hitchSend [st])
  else .next (s.hitchSend (st :: List.replicate n (if cmd = 0x05 then st else 0xFF)))

/-! ## Bus timeout (R120) -/

/-- BUS_TIMEOUT (R111, R120, R123, R348): the access that a master has outstanding ends. -/
def execBusTimeout (who : BusMaster) (s : State) : Out := s.during s.inRun <|
  match who with
  | .core c a =>
    .next (if s.runs c && (0xA0000 ≤ a.toNat && a.toNat < 0xC0000) then s.dataFault c 5 a else s)
  | .dma access => .next (s.dmaTimeout access)
  | .host => .next (if s.awake then
      (s.hitchErr 4).hitchSend [s.hitchStatusByte, 0xFF, 0xFF, 0xFF, 0xE5, 0xFF] else s)
  | .fold => .next (if s.test FOLD_CFG_EN then s.foldFail else s)

end Sys2Proof.Machine
end

