-- ==== Sys2Proof/Machine/Tick.lean ====
section
/-! DEFINITION. What one mesh tick does when no command waits (R8, R353, R363, R369, R380, R395, R401): the clocks move.
Every event that has a command of its own waits for that command (notes/assumptions/11.md, notes/assumptions/19.md). -/

namespace Sys2Proof.Machine

/-- A slow-clock edge (R380, R392, R395-R397, R401, R402, R408): mesh time where the reference does not carry it, or
rejoins it, the source shown, the real-time clock, the slow timers, the learning and wear windows, the wake events
captured since the last edge, and the edges of a sleep entry. -/
def State.slowEdge (s : State) : State :=
  let t := if s.power.refMesh || s.stopped then s else s.carryMesh
  let t := if t.test CLK_STAT_REF_OK && !t.power.refMesh then t.modPower (fun p => { p with refMesh := true, frac := 0 })
    else t
  let t := (t.put CLK_STAT_SLK_RC (bit t.power.slowRc)).rtcPlain
  let t := if t.notDormant then ((((t.clockTimers 2 1).winEdge).wearEdge).yardEdge).wakeEdges else t
  match t.power.phase with
  | .leaving => if t.stopped then t else t.goE0
  | .entry k => if k < 4 then t.modPower (fun p => { p with phase := .entry (k + 1) }) else t
  | _ => t

/-- The slow clock runs 32,768 cycles while mesh time counts 38,400,000 ticks: one cycle is 9,375/8 ticks (R395). -/
def State.slowTick (s : State) : State :=
  let n := s.power.slowAcc + 8
  if 9375 ≤ n then (s.modPower (fun p => { p with slowAcc := n - 9375 })).slowEdge
  else s.modPower (fun p => { p with slowAcc := n })

/-- `n` edges of the bus clock (R353, R359). -/
def State.busEdges : Nat → State → State
  | 0, s => s
  | n + 1, s => State.busEdges n s.busEdge

/-- The bus clock in one tick (R394): the edges left of the tick that ends pass, and those of the new one are to come,
which the timers count at its beginning. -/
def State.latticeTick (s : State) : State :=
  let n := (s.lattice.phase + s.busRate) / 48
  let t := State.busEdges s.lattice.left s
  let t := { t with lattice := { t.lattice with phase := (s.lattice.phase + s.busRate) % 48, left := n } }
  t.busTimers n

/-- What runs on the fast clocks in one tick, in RUN and DOZE (R182, R218, R345, R369). -/
def State.fastTick (s : State) : State :=
  let t := (((((s.latticeTick.dmaTouch).clockTimers 1 1).trngStep).updStep).cphTouch).txFeed
  (if t.tick = t.radio.blankTo then t.stallSync else t).latchReqs

/-- One mesh tick. -/
def State.idleTick (s : State) : State :=
  let t := { s with tick := s.tick + 1 }
  let t := if t.stopped then t else t.coreReturns
  let t := if t.power.refMesh && !(t.power.held || t.power.vbatLow) then t.meshMove 1 else t
  let t := if t.stopped then t else t.schedTick
  let t := if t.busRuns then (if t.stopped then t else t.fastTick) else t.slaveResets (fun _ => true)
  t.slowTick

end Sys2Proof.Machine
end

