-- ==== Sys2Proof/Machine/Dispatch.lean ====
section
/-! DEFINITION. The dispatch of a command to its meaning: one arm for each constructor of Instr, in the order of the
table. -/

namespace Sys2Proof.Machine

/-- What a command does to everything but the queue. -/
def exec (i : Instr) (s : State) : Host.Outcome State Fault Refusal :=
  match i with
  | .iAdd c d a b => Sys2Proof.Machine.execIAdd c d a b s
  | .iAdc c d a b => Sys2Proof.Machine.execIAdc c d a b s
  | .iSub c d a b => Sys2Proof.Machine.execISub c d a b s
  | .iSbc c d a b => Sys2Proof.Machine.execISbc c d a b s
  | .iAnd c d a b => Sys2Proof.Machine.execIAnd c d a b s
  | .iOr c d a b => Sys2Proof.Machine.execIOr c d a b s
  | .iXor c d a b => Sys2Proof.Machine.execIXor c d a b s
  | .iAndn c d a b => Sys2Proof.Machine.execIAndn c d a b s
  | .iSll c d a b => Sys2Proof.Machine.execISll c d a b s
  | .iSrl c d a b => Sys2Proof.Machine.execISrl c d a b s
  | .iSra c d a b => Sys2Proof.Machine.execISra c d a b s
  | .iRor c d a b => Sys2Proof.Machine.execIRor c d a b s
  | .iSlt c d a b => Sys2Proof.Machine.execISlt c d a b s
  | .iSltu c d a b => Sys2Proof.Machine.execISltu c d a b s
  | .iJalr c d a => Sys2Proof.Machine.execIJalr c d a s
  | .iAddi c d a imm8 => Sys2Proof.Machine.execIAddi c d a imm8 s
  | .iLui c d imm12 => Sys2Proof.Machine.execILui c d imm12 s
  | .iLdw c d a disp8 => Sys2Proof.Machine.execILdw c d a disp8 s
  | .iStw c d a disp8 => Sys2Proof.Machine.execIStw c d a disp8 s
  | .iBranch c cond disp12 => Sys2Proof.Machine.execIBranch c cond disp12 s
  | .iJ c imm16 => Sys2Proof.Machine.execIJ c imm16 s
  | .iCall c imm16 => Sys2Proof.Machine.execICall c imm16 s
  | .iPadd c d a b => Sys2Proof.Machine.execIPadd c d a b s
  | .iPsub c d a b => Sys2Proof.Machine.execIPsub c d a b s
  | .iPcmp c a b => Sys2Proof.Machine.execIPcmp c a b s
  | .iPaddsx c d a b => Sys2Proof.Machine.execIPaddsx c d a b s
  | .iPaddzx c d a b => Sys2Proof.Machine.execIPaddzx c d a b s
  | .iPsll c d a b => Sys2Proof.Machine.execIPsll c d a b s
  | .iPsrl c d a b => Sys2Proof.Machine.execIPsrl c d a b s
  | .iPsra c d a b => Sys2Proof.Machine.execIPsra c d a b s
  | .iPmov c d a => Sys2Proof.Machine.execIPmov c d a s
  | .iMul c d a b => Sys2Proof.Machine.execIMul c d a b s
  | .iMuluP c d a b => Sys2Proof.Machine.execIMuluP c d a b s
  | .iMulsP c d a b => Sys2Proof.Machine.execIMulsP c d a b s
  | .iMacuP c d a b => Sys2Proof.Machine.execIMacuP c d a b s
  | .iMacsP c d a b => Sys2Proof.Machine.execIMacsP c d a b s
  | .iDivuP c d a b => Sys2Proof.Machine.execIDivuP c d a b s
  | .iDivsP c d a b => Sys2Proof.Machine.execIDivsP c d a b s
  | .iDivu c d a b => Sys2Proof.Machine.execIDivu c d a b s
  | .iDivs c d a b => Sys2Proof.Machine.execIDivs c d a b s
  | .iRemu c d a b => Sys2Proof.Machine.execIRemu c d a b s
  | .iRems c d a b => Sys2Proof.Machine.execIRems c d a b s
  | .iSlli c d a n => Sys2Proof.Machine.execISlli c d a n s
  | .iSrli c d a n => Sys2Proof.Machine.execISrli c d a n s
  | .iSrai c d a n => Sys2Proof.Machine.execISrai c d a n s
  | .iRori c d a n => Sys2Proof.Machine.execIRori c d a n s
  | .iExtu c d a pos width => Sys2Proof.Machine.execIExtu c d a pos width s
  | .iExts c d a pos width => Sys2Proof.Machine.execIExts c d a pos width s
  | .iIns c d a pos width => Sys2Proof.Machine.execIIns c d a pos width s
  | .iClz c d a => Sys2Proof.Machine.execIClz c d a s
  | .iPopc c d a => Sys2Proof.Machine.execIPopc c d a s
  | .iLongAlu c fn d a imm20 => Sys2Proof.Machine.execILongAlu c fn d a imm20 s
  | .iLi c d imm20 => Sys2Proof.Machine.execILi c d imm20 s
  | .iLdbu c d a imm20 => Sys2Proof.Machine.execILdbu c d a imm20 s
  | .iLdbs c d a imm20 => Sys2Proof.Machine.execILdbs c d a imm20 s
  | .iLdhu c d a imm20 => Sys2Proof.Machine.execILdhu c d a imm20 s
  | .iLdhs c d a imm20 => Sys2Proof.Machine.execILdhs c d a imm20 s
  | .iLdwl c d a imm20 => Sys2Proof.Machine.execILdwl c d a imm20 s
  | .iLdp c d a imm20 => Sys2Proof.Machine.execILdp c d a imm20 s
  | .iStb c d a imm20 => Sys2Proof.Machine.execIStb c d a imm20 s
  | .iSth c d a imm20 => Sys2Proof.Machine.execISth c d a imm20 s
  | .iStwl c d a imm20 => Sys2Proof.Machine.execIStwl c d a imm20 s
  | .iStp c d a imm20 => Sys2Proof.Machine.execIStp c d a imm20 s
  | .iTrap c imm12 => Sys2Proof.Machine.execITrap c imm12 s
  | .iTnow c d => Sys2Proof.Machine.execITnow c d s
  | .iWat c a => Sys2Proof.Machine.execIWat c a s
  | .watRelease c => Sys2Proof.Machine.execWatRelease c s
  | .iArm c d a b => Sys2Proof.Machine.execIArm c d a b s
  | .actionFire temp => Sys2Proof.Machine.execActionFire temp s
  | .iPost c a b => Sys2Proof.Machine.execIPost c a b s
  | .iSense c d a => Sys2Proof.Machine.execISense c d a s
  | .iWev c d a b => Sys2Proof.Machine.execIWev c d a b s
  | .wevEvent c => Sys2Proof.Machine.execWevEvent c s
  | .wevTimeout c => Sys2Proof.Machine.execWevTimeout c s
  | .iAck c a => Sys2Proof.Machine.execIAck c a s
  | .iTake c d a b => Sys2Proof.Machine.execITake c d a b s
  | .takeTimeout c => Sys2Proof.Machine.execTakeTimeout c s
  | .iGive c d a => Sys2Proof.Machine.execIGive c d a s
  | .iXchg c d a => Sys2Proof.Machine.execIXchg c d a s
  | .iFence c => Sys2Proof.Machine.execIFence c s
  | .storeVisible c => Sys2Proof.Machine.execStoreVisible c s
  | .iRti c => Sys2Proof.Machine.execIRti c s
  | .iSys c imm8 => Sys2Proof.Machine.execISys c imm8 s
  | .iMfs c d sr => Sys2Proof.Machine.execIMfs c d sr s
  | .iMts c sr d => Sys2Proof.Machine.execIMts c sr d s
  | .iHalt c => Sys2Proof.Machine.execIHalt c s
  | .interruptEntry c => Sys2Proof.Machine.execInterruptEntry c s
  | .coreReset c => Sys2Proof.Machine.execCoreReset c s
  | .coreRun c run => Sys2Proof.Machine.execCoreRun c run s
  | .loftWrite c v => Sys2Proof.Machine.execLoftWrite c v s
  | .loftRead c => Sys2Proof.Machine.execLoftRead c s
  | .poolWrite v => Sys2Proof.Machine.execPoolWrite v s
  | .vbatSample vbat => Sys2Proof.Machine.execVbatSample vbat s
  | .mangerEvaluation => Sys2Proof.Machine.execMangerEvaluation s
  | .patienceExpiry => Sys2Proof.Machine.execPatienceExpiry s
  | .extHolderModeWrite n v => Sys2Proof.Machine.execExtHolderModeWrite n v s
  | .tiedPinAssert n level => Sys2Proof.Machine.execTiedPinAssert n level s
  | .reservationRequest c e => Sys2Proof.Machine.execReservationRequest c e s
  | .hitchRead addr n => Sys2Proof.Machine.execHitchRead addr n s
  | .hitchWrite addr bytes => Sys2Proof.Machine.execHitchWrite addr bytes s
  | .hitchStatus cmd n => Sys2Proof.Machine.execHitchStatus s cmd n
  | .hspRingWrite v => Sys2Proof.Machine.execHspRingWrite v s
  | .hspH2cWrite v => Sys2Proof.Machine.execHspH2cWrite v s
  | .flashProgram len pageOfs => Sys2Proof.Machine.execFlashProgram len pageOfs s
  | .flashErase => Sys2Proof.Machine.execFlashErase s
  | .flashOpDone ok => Sys2Proof.Machine.execFlashOpDone ok s
  | .uartRxByte b ferr brk => Sys2Proof.Machine.execUartRxByte b ferr brk s
  | .uartTxByteSent => Sys2Proof.Machine.execUartTxByteSent s
  | .uartDataRead => Sys2Proof.Machine.execUartDataRead s
  | .uartDataWrite b => Sys2Proof.Machine.execUartDataWrite b s
  | .gpioInputChange p level => Sys2Proof.Machine.execGpioInputChange p level s
  | .busTimeout who => Sys2Proof.Machine.execBusTimeout who s
  | .radioReq req => Sys2Proof.Machine.execRadioReq req s
  | .listenWindowOpen chains => Sys2Proof.Machine.execListenWindowOpen chains s
  | .listenWindowClose => Sys2Proof.Machine.execListenWindowClose s
  | .radioTransitionDone => Sys2Proof.Machine.execRadioTransitionDone s
  | .rxLoWrite int frac => Sys2Proof.Machine.execRxLoWrite int frac s
  | .synthLock tx => Sys2Proof.Machine.execSynthLock tx s
  | .gainWrite chainB v => Sys2Proof.Machine.execGainWrite chainB v s
  | .overloadDetect chainB => Sys2Proof.Machine.execOverloadDetect chainB s
  | .energyWindowEnd chainB level => Sys2Proof.Machine.execEnergyWindowEnd chainB level s
  | .txHoldCheck => Sys2Proof.Machine.execTxHoldCheck s
  | .txLate => Sys2Proof.Machine.execTxLate s
  | .talkReached => Sys2Proof.Machine.execTalkReached s
  | .frameSent => Sys2Proof.Machine.execFrameSent s
  | .turnBackSwap => Sys2Proof.Machine.execTurnBackSwap s
  | .maskWindowEnd meas => Sys2Proof.Machine.execMaskWindowEnd meas s
  | .lockLost tx temp => Sys2Proof.Machine.execLockLost tx temp s
  | .paStep => Sys2Proof.Machine.execPaStep s
  | .paStepGrant => Sys2Proof.Machine.execPaStepGrant s
  | .calRxsyn temp => Sys2Proof.Machine.execCalRxsyn temp s
  | .calTxsyn temp => Sys2Proof.Machine.execCalTxsyn temp s
  | .calTpm temp => Sys2Proof.Machine.execCalTpm temp s
  | .calIqa temp => Sys2Proof.Machine.execCalIqa temp s
  | .calIqb temp => Sys2Proof.Machine.execCalIqb temp s
  | .calStepDone trim temp => Sys2Proof.Machine.execCalStepDone trim s temp
  | .dieTempSample temp => Sys2Proof.Machine.execDieTempSample temp s
  | .tempCalStart temp => Sys2Proof.Machine.execTempCalStart temp s
  | .synthCalDone tx => Sys2Proof.Machine.execSynthCalDone tx s
  | .stcPlanWrite v => Sys2Proof.Machine.execStcPlanWrite v s
  | .stcMapWrite k v => Sys2Proof.Machine.execStcMapWrite k v s
  | .stallEnable p en byAction => Sys2Proof.Machine.execStallEnable p en byAction s
  | .preambleDetect p qualA qualB => Sys2Proof.Machine.execPreambleDetect p qualA qualB s
  | .aerialChoice p meanA meanB => Sys2Proof.Machine.execAerialChoice p meanA meanB s
  | .syncDeclared p rxA rxB => Sys2Proof.Machine.execSyncDeclared p rxA rxB s
  | .nosync p => Sys2Proof.Machine.execNosync p s
  | .packetReceived p body => Sys2Proof.Machine.execPacketReceived p body s
  | .stlTsloRead p => Sys2Proof.Machine.execStlTsloRead p s
  | .stcGive v => Sys2Proof.Machine.execStcGive v s
  | .poolConfigWrite q which v => Sys2Proof.Machine.execPoolConfigWrite q which v s
  | .headerReceived p soft => Sys2Proof.Machine.execHeaderReceived p soft s
  | .blockQueued p soft => Sys2Proof.Machine.execBlockQueued p s soft
  | .decodeStart => Sys2Proof.Machine.execDecodeStart s
  | .decodeDone iters info parity => Sys2Proof.Machine.execDecodeDone iters info parity s
  | .decoderIdle => Sys2Proof.Machine.execDecoderIdle s
  | .decHoldWrite hold => Sys2Proof.Machine.execDecHoldWrite hold s
  | .txSlotReadyWrite k v => Sys2Proof.Machine.execTxSlotReadyWrite k v s
  | .sramErr addr => Sys2Proof.Machine.execSramErr addr s
  | .slotBoundary => Sys2Proof.Machine.execSlotBoundary s
  | .schSlotlenWrite v => Sys2Proof.Machine.execSchSlotlenWrite v s
  | .schSyncofsWrite v => Sys2Proof.Machine.execSchSyncofsWrite v s
  | .schLoad => Sys2Proof.Machine.execSchLoad s
  | .schRunSet => Sys2Proof.Machine.execSchRunSet s
  | .schAsnloRead => Sys2Proof.Machine.execSchAsnloRead s
  | .hopWrite k v => Sys2Proof.Machine.execHopWrite k v s
  | .schHopqRead => Sys2Proof.Machine.execSchHopqRead s
  | .knockCaught p rxA rxB => Sys2Proof.Machine.execKnockCaught p rxA rxB s
  | .countdownReceived p fields => Sys2Proof.Machine.execCountdownReceived p fields s
  | .nbtFind => Sys2Proof.Machine.execNbtFind s
  | .nbtAdd index => Sys2Proof.Machine.execNbtAdd index s
  | .nbtClear index => Sys2Proof.Machine.execNbtClear index s
  | .nbtMiss n => Sys2Proof.Machine.execNbtMiss n s
  | .nbtSet n => Sys2Proof.Machine.execNbtSet n s
  | .nbtPredict n => Sys2Proof.Machine.execNbtPredict n s
  | .nbtTsrc1 n => Sys2Proof.Machine.execNbtTsrc1 n s
  | .nbtTsrc0 n => Sys2Proof.Machine.execNbtTsrc0 n s
  | .nbtCommandDone => Sys2Proof.Machine.execNbtCommandDone s
  | .meshTimeStep delta => Sys2Proof.Machine.execMeshTimeStep delta s
  | .stepSweepDone => Sys2Proof.Machine.execStepSweepDone s
  | .relayFire temp => Sys2Proof.Machine.execRelayFire temp s
  | .relayTry => Sys2Proof.Machine.execRelayTry s
  | .immediateAckStart temp => Sys2Proof.Machine.execImmediateAckStart temp s
  | .ackDecision => Sys2Proof.Machine.execAckDecision s
  | .ackWaitTimeout => Sys2Proof.Machine.execAckWaitTimeout s
  | .ackPrimWrite v => Sys2Proof.Machine.execAckPrimWrite v s
  | .rcCopy addr => Sys2Proof.Machine.execRcCopy addr s
  | .rcCopyDone => Sys2Proof.Machine.execRcCopyDone s
  | .foldEnable v => Sys2Proof.Machine.execFoldEnable v s
  | .foldClearDone => Sys2Proof.Machine.execFoldClearDone s
  | .foldErr => Sys2Proof.Machine.execFoldErr s
  | .relayDisable => Sys2Proof.Machine.execRelayDisable s
  | .keymapWrite k v => Sys2Proof.Machine.execKeymapWrite k v s
  | .trGenerate src slot => Sys2Proof.Machine.execTrGenerate src slot s
  | .trImportEcdh src slot => Sys2Proof.Machine.execTrImportEcdh src slot s
  | .trImportKek src slot => Sys2Proof.Machine.execTrImportKek src slot s
  | .trErase src slot => Sys2Proof.Machine.execTrErase src slot s
  | .trExport src slot => Sys2Proof.Machine.execTrExport src slot s
  | .trRestore src slot => Sys2Proof.Machine.execTrRestore src slot s
  | .trCommandDone => Sys2Proof.Machine.execTrCommandDone s
  | .cphSubmit src addr => Sys2Proof.Machine.execCphSubmit src addr s
  | .cipherAccept => Sys2Proof.Machine.execCipherAccept s
  | .cipherRequestStart => Sys2Proof.Machine.execCipherRequestStart s
  | .cipherRequestDone => Sys2Proof.Machine.execCipherRequestDone s
  | .cipherIdle => Sys2Proof.Machine.execCipherIdle s
  | .hashInit => Sys2Proof.Machine.execHashInit s
  | .hashUpdate => Sys2Proof.Machine.execHashUpdate s
  | .hashFinal => Sys2Proof.Machine.execHashFinal s
  | .hpkVerify => Sys2Proof.Machine.execHpkVerify s
  | .hpkSignId src => Sys2Proof.Machine.execHpkSignId src s
  | .hpkIdRecord => Sys2Proof.Machine.execHpkIdRecord s
  | .hpkCommandDone => Sys2Proof.Machine.execHpkCommandDone s
  | .trngDataRead => Sys2Proof.Machine.execTrngDataRead s
  | .trngHealthFail rct apt => Sys2Proof.Machine.execTrngHealthFail rct apt s
  | .trngRestart passed => Sys2Proof.Machine.execTrngRestart passed s
  | .koRootSet src => Sys2Proof.Machine.execKoRootSet src s
  | .koRootRevoke src => Sys2Proof.Machine.execKoRootRevoke src s
  | .koSeal src => Sys2Proof.Machine.execKoSeal src s
  | .koDbgUnlock src => Sys2Proof.Machine.execKoDbgUnlock src s
  | .chdCtlWrite v => Sys2Proof.Machine.execChdCtlWrite v s
  | .bypassChange => Sys2Proof.Machine.execBypassChange s
  | .repeatLock portA portB => Sys2Proof.Machine.execRepeatLock portA portB s
  | .repeatRelease => Sys2Proof.Machine.execRepeatRelease s
  | .bayStart e => Sys2Proof.Machine.execBayStart e s
  | .bayEnd => Sys2Proof.Machine.execBayEnd s
  | .ctxReadyWrite k v => Sys2Proof.Machine.execCtxReadyWrite k v s
  | .chordFrameReceived port rx => Sys2Proof.Machine.execChordFrameReceived port rx s
  | .chordFrameSent => Sys2Proof.Machine.execChordFrameSent s
  | .rangingBurstReceived port frac => Sys2Proof.Machine.execRangingBurstReceived port s frac
  | .rangingEchoReceived port ns => Sys2Proof.Machine.execRangingEchoReceived port ns s
  | .norange port => Sys2Proof.Machine.execNorange port s
  | .timeFrameEmit frac => Sys2Proof.Machine.execTimeFrameEmit frac s
  | .chordKnocked syms => Sys2Proof.Machine.execChordKnocked s syms
  | .dmaStart ch => Sys2Proof.Machine.execDmaStart ch s
  | .dmaDescriptorFetch ch => Sys2Proof.Machine.execDmaDescriptorFetch ch s
  | .dmaChunkRead ch => Sys2Proof.Machine.execDmaChunkRead ch s
  | .dmaChunkWritten => Sys2Proof.Machine.execDmaChunkWritten s
  | .dmaDescriptorComplete ch => Sys2Proof.Machine.execDmaDescriptorComplete ch s
  | .dmaAbort ch => Sys2Proof.Machine.execDmaAbort ch s
  | .dmaResume ch => Sys2Proof.Machine.execDmaResume ch s
  | .dmaHaltRelease => Sys2Proof.Machine.execDmaHaltRelease s
  | .dmaIdle => Sys2Proof.Machine.execDmaIdle s
  | .latticeEventDelivery ch => Sys2Proof.Machine.execLatticeEventDelivery ch s
  | .storm ch => Sys2Proof.Machine.execStorm ch s
  | .latticeConfigWrite src ofs v => Sys2Proof.Machine.execLatticeConfigWrite src ofs v s
  | .timerWrap n => Sys2Proof.Machine.execTimerWrap n s
  | .timerMatch n => Sys2Proof.Machine.execTimerMatch n s
  | .tmrCtlWrite n v => Sys2Proof.Machine.execTmrCtlWrite n v s
  | .tmrCntWrite n v => Sys2Proof.Machine.execTmrCntWrite n v s
  | .tmrCntRead n => Sys2Proof.Machine.execTmrCntRead n s
  | .tmrTopCmpWrite n cmp v => Sys2Proof.Machine.execTmrTopCmpWrite n cmp v s
  | .timerEventInput n => Sys2Proof.Machine.execTimerEventInput n s
  | .tmrGstart v => Sys2Proof.Machine.execTmrGstart v s
  | .rtcSecond => Sys2Proof.Machine.execRtcSecond s
  | .rtcSubsecRead => Sys2Proof.Machine.execRtcSubsecRead s
  | .rtcApplySub => Sys2Proof.Machine.execRtcApplySub s
  | .rtcApplyTime => Sys2Proof.Machine.execRtcApplyTime s
  | .rtcApplyDate => Sys2Proof.Machine.execRtcApplyDate s
  | .rtcStagedApply => Sys2Proof.Machine.execRtcStagedApply s
  | .rtcShift n => Sys2Proof.Machine.execRtcShift n s
  | .rtcAlarm k => Sys2Proof.Machine.execRtcAlarm k s
  | .backupStoreComplete => Sys2Proof.Machine.execBackupStoreComplete s
  | .bkpInvalid => Sys2Proof.Machine.execBkpInvalid s
  | .slkFail => Sys2Proof.Machine.execSlkFail s
  | .slkCfgWrite v => Sys2Proof.Machine.execSlkCfgWrite v s
  | .refFail => Sys2Proof.Machine.execRefFail s
  | .refRetry => Sys2Proof.Machine.execRefRetry s
  | .referenceReady => Sys2Proof.Machine.execReferenceReady s
  | .systemPllLock => Sys2Proof.Machine.execSystemPllLock s
  | .cdivWrite d => Sys2Proof.Machine.execCdivWrite d s
  | .rateWindowEnd n => Sys2Proof.Machine.execRateWindowEnd n s
  | .doze => Sys2Proof.Machine.execDoze s
  | .enterRest => Sys2Proof.Machine.execEnterRest s
  | .enterOrbit => Sys2Proof.Machine.execEnterOrbit s
  | .enterDormant => Sys2Proof.Machine.execEnterDormant s
  | .entryCancel => Sys2Proof.Machine.execEntryCancel s
  | .sleepEntryBegin => Sys2Proof.Machine.execSleepEntryBegin s
  | .sleepStateEntered => Sys2Proof.Machine.execSleepStateEntered s
  | .wake ws => Sys2Proof.Machine.execWake ws s
  | .wakeRunReached => Sys2Proof.Machine.execWakeRunReached s
  | .actionWake => Sys2Proof.Machine.execActionWake s
  | .dormantExit ws => Sys2Proof.Machine.execDormantExit ws s
  | .orbitPassStart => Sys2Proof.Machine.execOrbitPassStart s
  | .orbitPrepare => Sys2Proof.Machine.execOrbitPrepare s
  | .orbitListen => Sys2Proof.Machine.execOrbitListen s
  | .orbitCheck => Sys2Proof.Machine.execOrbitCheck s
  | .orbitPause => Sys2Proof.Machine.execOrbitPause s
  | .orbitEnd => Sys2Proof.Machine.execOrbitEnd s
  | .orbitStepEnd hit => Sys2Proof.Machine.execOrbitStepEnd hit s
  | .orbitPassSleep => Sys2Proof.Machine.execOrbitPassSleep s
  | .vbatBrownout below => Sys2Proof.Machine.execVbatBrownout below s
  | .yardEnable => Sys2Proof.Machine.execYardEnable s
  | .yardDisable => Sys2Proof.Machine.execYardDisable s
  | .trainingDone ok stp => Sys2Proof.Machine.execTrainingDone ok stp s
  | .yardRequestServe ch => Sys2Proof.Machine.execYardRequestServe ch s
  | .yardRefresh ch => Sys2Proof.Machine.execYardRefresh ch s
  | .yardRetrain => Sys2Proof.Machine.execYardRetrain s
  | .yardRetrainTrigger ch => Sys2Proof.Machine.execYardRetrainTrigger ch s
  | .yardRetrainPauseDone ch => Sys2Proof.Machine.execYardRetrainPauseDone ch s
  | .yardCommandRetire ch => Sys2Proof.Machine.execYardCommandRetire ch s
  | .yardAlert ch => Sys2Proof.Machine.execYardAlert ch s
  | .yardSelfRefreshEnter => Sys2Proof.Machine.execYardSelfRefreshEnter s
  | .yardSelfRefreshExit => Sys2Proof.Machine.execYardSelfRefreshExit s
  | .yardSupplyLost => Sys2Proof.Machine.execYardSupplyLost s
  | .yardInit => Sys2Proof.Machine.execYardInit s
  | .yardInitDone => Sys2Proof.Machine.execYardInitDone s
  | .yardSoftRepair v noResource => Sys2Proof.Machine.execYardSoftRepair v noResource s
  | .yardHardRepair v noResource => Sys2Proof.Machine.execYardHardRepair v noResource s
  | .yardRepairDone ok => Sys2Proof.Machine.execYardRepairDone ok s
  | .resetPor => Sys2Proof.Machine.execResetPor s
  | .resetPin => Sys2Proof.Machine.execResetPin s
  | .resetSoftWarm src => Sys2Proof.Machine.execResetSoftWarm src s
  | .resetSoftCold src => Sys2Proof.Machine.execResetSoftCold src s
  | .resetRecovery src => Sys2Proof.Machine.execResetRecovery src s
  | .keeperSequence st => Sys2Proof.Machine.execKeeperSequence st s
  | .keeperShortSequence recovLow => Sys2Proof.Machine.execKeeperShortSequence recovLow s
  | .halterModeInForce => Sys2Proof.Machine.execHalterModeInForce s
  | .koBoot src => Sys2Proof.Machine.execKoBoot src s
  | .koFailsClear src => Sys2Proof.Machine.execKoFailsClear src s
  | .koCeilSet src => Sys2Proof.Machine.execKoCeilSet src s
  | .koHalterSet src => Sys2Proof.Machine.execKoHalterSet src s
  | .koEnergyClass src => Sys2Proof.Machine.execKoEnergyClass src s
  | .koFloorRaise src => Sys2Proof.Machine.execKoFloorRaise src s
  | .keeperOrderDone otpOk => Sys2Proof.Machine.execKeeperOrderDone otpOk s
  | .startTimeout => Sys2Proof.Machine.execStartTimeout s
  | .kmbWdogWrite v => Sys2Proof.Machine.execKmbWdogWrite v s
  | .declareService src => Sys2Proof.Machine.execDeclareService src s
  | .faultReport code detail => Sys2Proof.Machine.execFaultReport code detail s
  | .fatalWarmReset => Sys2Proof.Machine.execFatalWarmReset s
  | .fltSrcClear k v => Sys2Proof.Machine.execFltSrcClear k v s
  | .fltRelease v => Sys2Proof.Machine.execFltRelease v s
  | .trackerHalving => Sys2Proof.Machine.execTrackerHalving s
  | .laneWithdraw lane => Sys2Proof.Machine.execLaneWithdraw lane s
  | .ageingCheck margin => Sys2Proof.Machine.execAgeingCheck margin s
  | .updManifest src => Sys2Proof.Machine.execUpdManifest src s
  | .updResume src => Sys2Proof.Machine.execUpdResume src s
  | .updPiece src => Sys2Proof.Machine.execUpdPiece src s
  | .updApply src part => Sys2Proof.Machine.execUpdApply src part s
  | .updConfirm src part => Sys2Proof.Machine.execUpdConfirm src part s
  | .updPieceOut src part idx => Sys2Proof.Machine.execUpdPieceOut src part idx s
  | .updAbandon src => Sys2Proof.Machine.execUpdAbandon src s
  | .updCommandDone flashOk => Sys2Proof.Machine.execUpdCommandDone flashOk s
  | .updAreaWrite q v => Sys2Proof.Machine.execUpdAreaWrite q v s
  | .recoveryBlock ifc payload => Sys2Proof.Machine.execRecoveryBlock ifc payload s
  | .recoveryStatus => Sys2Proof.Machine.execRecoveryStatus s
  | .recoveryImageJudged => Sys2Proof.Machine.execRecoveryImageJudged s
  | .padCfgWrite v => Sys2Proof.Machine.execPadCfgWrite v s
  | .registerWrite src addr v => Sys2Proof.Machine.execRegisterWrite src addr v s
  | .illegalOp c w x => Sys2Proof.Machine.execIllegalOp c w x s
  | .fetchFault c addr twoWord => Sys2Proof.Machine.execFetchFault c addr twoWord s
  | .supplyGoodChange bank good => Sys2Proof.Machine.execSupplyGoodChange bank good s
  | .halterDataFrameStart k => Sys2Proof.Machine.execHalterDataFrameStart k s
  | .rangingPhase2 => Sys2Proof.Machine.execRangingPhase2 s
  | .fastRcRunning => Sys2Proof.Machine.execFastRcRunning s

end Sys2Proof.Machine
end

