-- ==== Sys2Proof/Safety.lean ====
section
/-! DEFINITION. The terms in which claims about the machine are stated: what a command answers, what it leaves alone
(frames), and what every state should keep (canonical tables, the conservation of rations). -/

namespace Sys2Proof.Machine

/-! ## What a command answers -/

/-- The command runs to a next state, and that state is as `P` says. -/
def Answers (i : Instr) (s : State) (P : State → Prop) : Prop := ∃ t, exec i s = .next t ∧ P t

/-! ## Frames -/

/-- What a core holds beside its pending bits, which a block request can set at any moment, and EMISS, which records a
merge of such a request with a channel's event (R364, R365). -/
def CoreSt.bare (x : CoreSt) : CoreSt := { x with pend := 0, emiss := 0 }

/-- Every byte of the shared SRAM and of the private data RAMs, every loft word and every flash byte reads as before.
-/
def State.memKept (s t : State) : Prop :=
  (∀ r a, t.byte r a = s.byte r a) ∧ (∀ c w, t.loftWord c w = s.loftWord c w) ∧ ∀ f, t.flashByte f = s.flashByte f

/-- Every core keeps its registers, program counter, status word, run state, exception and interrupt registers, store
buffer and action table. -/
def State.coresKept (s t : State) : Prop := ∀ c, (t.core c).bare = (s.core c).bare

/-- Every register of the register map reads as before, but those listed. -/
def State.regsKept (s t : State) (but : List Nat) : Prop := ∀ a, a ∉ but → t.rg a = s.rg a

/-- Every core but `c` keeps everything it holds. -/
def State.othersKept (s t : State) (c : CoreId) : Prop := ∀ d, d ≠ c → t.core d = s.core d

/-! ## Canonical form -/

/-- The addressed tables of the state (registers, shared SRAM, private data RAMs, lofts, check states, flash) are each
in their one canonical form: keys strictly rising, no entry equal to what an unlisted key reads as. -/
structure State.tablesWf (s : State) : Prop where
  regs   : tabWf regReset s.regs
  sram   : tabWf byteDflt s.sram
  pram   : tabWf byteDflt s.pram
  loft   : tabWf loftDflt s.loft
  memChk : tabWf chkDflt s.memChk
  flash  : tabWf flashDflt s.flash

/-! ## Rations (R25, R41) -/

/-- The sum of free rations, holdings and reservations. -/
def Manger.total (m : Manger) : Nat := m.free + m.heldSum

/-- The rations that the accounts hold and that are free make up the pool total. -/
def State.conserved (s : State) : Prop := s.manger.total = s.mngTotal

/-- No two accounts have one number. -/
def Manger.distinct (m : Manger) : Prop := (m.accts.map (·.id)).Nodup

/-! ## A device that has stopped (R43, R411, R461) -/

/-- The commands that still act on a device that has stopped: the resets, supplies and faults, its pins, and what the
backup domain and the slow clock do by themselves. -/
def actsStopped : Instr → Bool
  | .resetPor | .resetPin | .resetSoftWarm _ | .resetSoftCold _ | .resetRecovery _ | .vbatBrownout _ => true
  | .fatalWarmReset | .faultReport _ _ | .supplyGoodChange _ _ | .slkFail | .gpioInputChange _ _ => true
  | .rtcSecond | .rtcStagedApply | .rtcAlarm _ | .backupStoreComplete | .bkpInvalid => true
  | .wake .hitch | .dormantExit .hitch => true
  | _ => false

end Sys2Proof.Machine
end

