-- ==== Sys2Proof/Certificates/Slice0/Obligations.lean ====
section
/-! DEFINITION. The statements for the provers, in the order of the spec's files: the core instructions, the events a core
meets, the blocks around the cores, and the whole machine.  Each docstring names the rules it formalises. -/

open Sys2Proof Sys2Proof.Machine

/-- R45, R61, R63: the word operations of two registers. `add`, `adc`, `sub` and `sbc` write the sum modulo 2^20
(subtraction adds the inverted operand with a carry in of 1), with N and Z from the result, C the carry out of bit 19
and V the signed overflow; the logic operations keep C and clear V; the two compares write 1 or 0 with the flags of
the subtraction. Each goes to the next word, and nothing else of the machine changes. R45: w0 reads 0 and keeps
nothing written to it. -/
def Obligations.ArithmeticAndLogicResults : Prop :=
  ∀ (c : CoreId) (d a b : RegId) (s : State), s.runs c = true →
    let x := s.core c
    let u := x.get a
    let v := x.get b
    let k : W20 := if swC x.sw then 1 else 0
    let done := fun (r : W20) (cf vf : Bool) =>
      (.next (s.setCore c ({ x.set d r with sw := swFlags x.sw r.msb (r == 0) cf vf }.advance 1)) : Out)
    let ovf := fun (n : Int) => decide (n < -(2 ^ 19) ∨ 2 ^ 19 ≤ n)
    let logic := fun (r : W20) => done r (swC x.sw) false
    let compare := fun (r : Bool) =>
      (.next (s.setCore c ({ x.set d (if r then 1 else 0) with
        sw := swFlags x.sw (u - v).msb (u == v) (decide (v.toNat ≤ u.toNat)) (ovf (u.toInt - v.toInt)) }.advance 1)) : Out)
    x.get 0 = 0 ∧ (∀ r, x.set 0 r = x) ∧
    exec (.iAdd c d a b) s = done (u + v) (decide (2 ^ 20 ≤ u.toNat + v.toNat)) (ovf (u.toInt + v.toInt)) ∧
    exec (.iAdc c d a b) s =
      done (u + v + k) (decide (2 ^ 20 ≤ u.toNat + v.toNat + k.toNat)) (ovf (u.toInt + v.toInt + k.toNat)) ∧
    exec (.iSub c d a b) s = done (u - v) (decide (v.toNat ≤ u.toNat)) (ovf (u.toInt - v.toInt)) ∧
    exec (.iSbc c d a b) s =
      done (u + ~~~v + k) (decide (2 ^ 20 ≤ u.toNat + (~~~v).toNat + k.toNat)) (ovf (u.toInt - v.toInt - 1 + k.toNat)) ∧
    exec (.iAnd c d a b) s = logic (u &&& v) ∧
    exec (.iOr c d a b) s = logic (u ||| v) ∧
    exec (.iXor c d a b) s = logic (u ^^^ v) ∧
    exec (.iAndn c d a b) s = logic (u &&& ~~~v) ∧
    exec (.iSlt c d a b) s = compare (decide (u.toInt < v.toInt)) ∧
    exec (.iSltu c d a b) s = compare (decide (u.toNat < v.toNat))

/-- R64, R63, R74: the word shifts and rotates, by a register amount modulo 32 or by an immediate below 20, with the
last bit shifted out in C (kept for an amount of 0), N and Z from the result and V 0. -/
def Obligations.ShiftAndRotateResults : Prop :=
  ∀ (c : CoreId) (d a b : RegId) (m : BitVec 5) (s : State), s.runs c = true →
    let x := s.core c
    let u := x.get a
    let n := (x.get b).toNat % 32
    let done := fun (r : W20) (cf : Bool) =>
      (.next (s.setCore c ({ x.set d r with sw := swFlags x.sw r.msb (r == 0) cf false }.advance 1)) : Out)
    let left := fun (n : Nat) =>
      done (u <<< n) (if n = 0 then swC x.sw else if n ≤ 20 then u.getLsbD (20 - n) else false)
    let right := fun (n : Nat) => done (u >>> n) (if n = 0 then swC x.sw else u.getLsbD (n - 1))
    let arith := fun (n : Nat) =>
      done (u.sshiftRight n) (if n = 0 then swC x.sw else if n ≤ 19 then u.getLsbD (n - 1) else u.msb)
    let rot := fun (n : Nat) =>
      done (u.rotateRight n) (if n % 20 = 0 then swC x.sw else (u.rotateRight n).msb)
    exec (.iSll c d a b) s = left n ∧ exec (.iSrl c d a b) s = right n ∧
    exec (.iSra c d a b) s = arith n ∧ exec (.iRor c d a b) s = rot n ∧
    (m.toNat < 20 →
      exec (.iSlli c d a m) s = left m.toNat ∧ exec (.iSrli c d a m) s = right m.toNat ∧
      exec (.iSrai c d a m) s = arith m.toNat ∧ exec (.iRori c d a m) s = rot m.toNat)

/-- R65, R66, R76: `addi`, `lui` and `li`, and the long ALU forms, which give the register and the flags of the one-
word form whose second operand is imm20, two words on. -/
def Obligations.ImmediateResults : Prop :=
  ∀ (c : CoreId) (d a b : RegId) (imm8 : BitVec 8) (imm12 : BitVec 12) (imm20 : W20) (s : State), s.runs c = true →
    let x := s.core c
    let u := x.get a
    let v := imm8.signExtend 20
    let r := u + v
    exec (.iAddi c d a imm8) s = .next (s.setCore c ({ x.set d r with
      sw := swFlags x.sw r.msb (r == 0) (decide (2 ^ 20 ≤ u.toNat + v.toNat))
        (decide (u.toInt + v.toInt < -(2 ^ 19) ∨ 2 ^ 19 ≤ u.toInt + v.toInt)) }.advance 1)) ∧
    exec (.iLui c d imm12) s = .next (s.setCore c ((x.set d (imm12.setWidth 20 <<< 8)).advance 1)) ∧
    exec (.iLi c d imm20) s = .next (s.setCore c ((x.set d imm20).advance 2)) ∧
    (∀ fn : BitVec 4, fn.toNat < 14 → ∃ r sw, aluFn fn.toNat x.sw u.toNat imm20.toNat = some (r, sw) ∧
      exec (.iLongAlu c fn d a imm20) s =
        .next (s.setCore c ({ x.set d (BitVec.ofNat 20 r) with sw := sw }.advance 2)) ∧
      (x.get b = imm20 → ∀ i, decodeAlu c (formA 0 d.val a.val b.val fn.toNat) = some i →
        exec i s = .next (s.setCore c ({ x.set d (BitVec.ofNat 20 r) with sw := sw }.advance 1))))

/-- R62, R68, R69: a branch goes to pc + 1 + disp12 exactly when its condition holds of the flags and else to the next
word; `j`, `call` and `jalr` transfer control, the last two with the return address in a register; none changes a
flag. The condition 0xF is illegal. -/
def Obligations.BranchAndJumpResults : Prop :=
  ∀ (c : CoreId) (d a : RegId) (cond : BitVec 4) (disp12 : BitVec 12) (imm16 : BitVec 16) (s : State), s.runs c = true →
    let x := s.core c
    let n := x.sw.getLsbD 3
    let z := x.sw.getLsbD 2
    let cf := x.sw.getLsbD 1
    let v := x.sw.getLsbD 0
    let taken := [z, !z, cf, !cf, n, !n, v, !v, cf && !z, !cf || z, n == v, n != v, !z && n == v, z || n != v, true]
    (∀ k, taken[cond.toNat]? = some k → exec (.iBranch c cond disp12) s =
      .next (s.setCore c { x with pc := if k then x.pc + 1 + disp12.signExtend 16 else x.pc + 1 })) ∧
    (cond = 0xF → exec (.iBranch c cond disp12) s = .next (s.illegal c)) ∧
    exec (.iJ c imm16) s = .next (s.setCore c { x with pc := imm16 }) ∧
    exec (.iCall c imm16) s = .next (s.setCore c { x.set 15 ((x.pc + 1).setWidth 20) with pc := imm16 }) ∧
    exec (.iJalr c d a) s = .next (s.setCore c { x.set d ((x.pc + 1).setWidth 20) with pc := (x.get a).setWidth 16 })

/-- R46, R61, R70, R71: the pair operations: sums and differences modulo 2^40 with their 40-bit flags, the pair shifts
by the amount modulo 64, and the move. -/
def Obligations.PairResults : Prop :=
  ∀ (c : CoreId) (d a b : RegId) (s : State), s.runs c = true → d.val % 2 = 0 → a.val % 2 = 0 →
    let x := s.core c
    let u : W40 := BitVec.ofNat 40 (x.pair a)
    let n := (x.get b).toNat % 64
    let flags := fun (r : W40) (cf vf : Bool) => swFlags x.sw r.msb (r == 0) cf vf
    let done := fun (r : W40) (sw : W20) =>
      (.next (s.setCore c ({ x.setPair d r.toNat with sw := sw }.advance 1)) : Out)
    let sum := fun (v : W40) => flags (u + v) (decide (2 ^ 40 ≤ u.toNat + v.toNat)) (BitVec.saddOverflow u v)
    let diff := fun (v : W40) => flags (u - v) (decide (v.toNat ≤ u.toNat)) (BitVec.ssubOverflow u v)
    (b.val % 2 = 0 →
      let v : W40 := BitVec.ofNat 40 (x.pair b)
      exec (.iPadd c d a b) s = done (u + v) (sum v) ∧ exec (.iPsub c d a b) s = done (u - v) (diff v) ∧
      exec (.iPcmp c a b) s = .next (s.setCore c ({ x with sw := diff v }.advance 1))) ∧
    exec (.iPaddsx c d a b) s = done (u + (x.get b).signExtend 40) (sum ((x.get b).signExtend 40)) ∧
    exec (.iPaddzx c d a b) s = done (u + (x.get b).setWidth 40) (sum ((x.get b).setWidth 40)) ∧
    exec (.iPsll c d a b) s = done (u <<< n)
      (flags (u <<< n) (if n = 0 then swC x.sw else if n ≤ 40 then u.getLsbD (40 - n) else false) false) ∧
    exec (.iPsrl c d a b) s = done (u >>> n)
      (flags (u >>> n) (if n = 0 then swC x.sw else u.getLsbD (n - 1)) false) ∧
    exec (.iPsra c d a b) s = done (u.sshiftRight n)
      (flags (u.sshiftRight n) (if n = 0 then swC x.sw else if n ≤ 39 then u.getLsbD (n - 1) else u.msb) false) ∧
    exec (.iPmov c d a) s = done u x.sw

/-- R61, R72, R73: products modulo 2^20 and 2^40, unsigned and signed, and their accumulation into a pair, with C and
V 0; the divides and remainders: truncation toward zero, the results of a zero divisor and of a quotient out of range
with V 1, N and Z from the value written (the quotient in the 40/20 forms), and C 0. -/
def Obligations.MultiplyAndDivideResults : Prop :=
  (∀ (c : CoreId) (d a b : RegId) (s : State), s.runs c = true →
    let x := s.core c
    let u := x.get a
    let v := x.get b
    exec (.iMul c d a b) s = .next (s.setCore c ({ x.set d (u * v) with
      sw := swFlags x.sw (u * v).msb (u * v == 0) false false }.advance 1)) ∧
    (d.val % 2 = 0 →
      let old : W40 := BitVec.ofNat 40 (x.pair d)
      let done := fun (r : W40) =>
        (.next (s.setCore c ({ x.setPair d r.toNat with sw := swFlags x.sw r.msb (r == 0) false false }.advance 1)) : Out)
      exec (.iMuluP c d a b) s = done (u.setWidth 40 * v.setWidth 40) ∧
      exec (.iMulsP c d a b) s = done (u.signExtend 40 * v.signExtend 40) ∧
      exec (.iMacuP c d a b) s = done (old + u.setWidth 40 * v.setWidth 40) ∧
      exec (.iMacsP c d a b) s = done (old + u.signExtend 40 * v.signExtend 40))) ∧
  (∀ (c : CoreId) (d a b : RegId) (s : State), s.runs c = true →
    let x := s.core c
    let m := x.get b
    let unsignedOf := fun (n : Nat) => (if m = 0 then (0xFFFFF, BitVec.ofNat 20 n, true)
      else if 2 ^ 20 ≤ n / m.toNat then (0xFFFFF, 0, true)
      else (BitVec.ofNat 20 (n / m.toNat), BitVec.ofNat 20 (n % m.toNat), false) : W20 × W20 × Bool)
    let signedOf := fun (n : Int) => (if m = 0 then (if 0 ≤ n then 0x7FFFF else 0x80000, BitVec.ofInt 20 n, true)
      else if 2 ^ 19 ≤ n.tdiv m.toInt then (0x7FFFF, 0, true)
      else if n.tdiv m.toInt < -(2 ^ 19) then (0x80000, 0, true)
      else (BitVec.ofInt 20 (n.tdiv m.toInt), BitVec.ofInt 20 (n.tmod m.toInt), false) : W20 × W20 × Bool)
    let word := fun (r : W20) (v : Bool) =>
      (.next (s.setCore c ({ x.set d r with sw := swFlags x.sw r.msb (r == 0) false v }.advance 1)) : Out)
    let pair := fun (p : W20 × W20 × Bool) =>
      (.next (s.setCore c ({ (x.set (oddOf d) p.1).set d p.2.1 with
        sw := swFlags x.sw p.1.msb (p.1 == 0) false p.2.2 }.advance 1)) : Out)
    let u := unsignedOf (x.get a).toNat
    let i := signedOf (x.get a).toInt
    exec (.iDivu c d a b) s = word u.1 u.2.2 ∧ exec (.iRemu c d a b) s = word u.2.1 u.2.2 ∧
    exec (.iDivs c d a b) s = word i.1 i.2.2 ∧ exec (.iRems c d a b) s = word i.2.1 i.2.2 ∧
    (d.val % 2 = 0 → a.val % 2 = 0 →
      exec (.iDivuP c d a b) s = pair (unsignedOf (x.pair a)) ∧
      exec (.iDivsP c d a b) s = pair (signedOf (BitVec.ofNat 40 (x.pair a)).toInt)))

/-- R61, R74, R75: the bit-field operations and the counts, with C and V kept. -/
def Obligations.BitFieldResults : Prop :=
  ∀ (c : CoreId) (d a : RegId) (pos width : BitVec 5) (s : State), s.runs c = true →
    let x := s.core c
    let u := x.get a
    let p := pos.toNat
    let w := width.toNat
    let field := (u >>> p) &&& (BitVec.allOnes 20 >>> (20 - w))
    let mask := (BitVec.allOnes 20 >>> (20 - w)) <<< p
    let done := fun (n : Nat) (r : W20) =>
      (.next (s.setCore c (CoreSt.advance { x.set d r with sw := swFlags x.sw r.msb (r == 0) (swC x.sw) (swV x.sw) } n)) : Out)
    (1 ≤ width.toNat → width.toNat ≤ 20 → pos.toNat + width.toNat ≤ 20 →
      exec (.iExtu c d a pos width) s = done 2 field ∧
      exec (.iExts c d a pos width) s = done 2 ((field <<< (20 - w)).sshiftRight (20 - w)) ∧
      exec (.iIns c d a pos width) s = done 2 ((x.get d &&& ~~~mask) ||| ((u <<< p) &&& mask))) ∧
    exec (.iClz c d a) s = done 1 u.clz ∧
    exec (.iPopc c d a) s = done 1 (BitVec.ofNat 20 ((List.range 20).filter (fun i => u.getLsbD i)).length)

/-- R50, R59, R79, R103, R108, R110, R111: the exceptions of a core. With the exception bank free, `trap`, `sys`, an
illegal encoding and a fetch from an undecoded address save pc and sw in EPCX and ESWX, set ACT.X, PRIV and all four
IMASK bits, write ECAUSE and EADDR, and go to their vector; no general register and no flag changes. With the bank in
use each stops the core with STATE 6 and reports CORE_DOUBLE, and RUN written 0 or 1 does not restart it. -/
def Obligations.ExceptionEntry : Prop :=
  ∀ (c : CoreId) (s : State), s.runs c = true →
    let x := s.core c
    let doubled := fun (t : State) => (t.core c).run = .doubleExc ∧ (t.core c).run.code = 6 ∧
      t.test (faultBit 6) = true ∧ (t.core c).w = x.w ∧ (t.core c).epc = x.epc ∧
      ∀ run : Bool, t.clocked = true → Answers (.coreRun c run) t (fun u => (u.core c).run = .doubleExc)
    let enter := fun (cls detail : Nat) (ea : W20) (ret : BitVec 16) =>
      (.next (s.setCore c { x with
        epc := x.epc.set 4 (ret.setWidth 20), esw := x.esw.set 4 x.sw, act := x.act ||| 0b10000
        sw := x.sw ||| 0x800F0, ecause := BitVec.ofNat 20 (cls * 2 ^ 16 + detail), eaddr := ea
        pc := BitVec.ofNat 16 (cls - 1) }) : Out)
    (x.act.getLsbD 4 = false →
      (∀ imm12 : BitVec 12, exec (.iTrap c imm12) s = enter 4 imm12.toNat 0 (x.pc + 1)) ∧
      (∀ imm8 : BitVec 8, exec (.iSys c imm8) s = enter 5 imm8.toNat 0 (x.pc + 1)) ∧
      (∀ w y : W20, decodeCore c w y = none → exec (.illegalOp c w y) s = enter 1 0 0 x.pc) ∧
      (∀ (addr : BitVec 16) (two : Bool), addr = (if two then x.pc + 1 else x.pc) → 0x4000 ≤ addr.toNat →
        addr.toNat < 0xC000 → exec (.fetchFault c addr two) s = enter 2 1 (addr.setWidth 20) x.pc)) ∧
    (x.act.getLsbD 4 = true →
      (∀ imm12 : BitVec 12, Answers (.iTrap c imm12) s doubled) ∧ (∀ imm8 : BitVec 8, Answers (.iSys c imm8) s doubled) ∧
      (∀ w y : W20, decodeCore c w y = none → Answers (.illegalOp c w y) s doubled) ∧
      (∀ (addr : BitVec 16) (two : Bool), addr = (if two then x.pc + 1 else x.pc) → 0x4000 ≤ addr.toNat →
        addr.toNat < 0xC000 → Answers (.fetchFault c addr two) s doubled))

/-- R93, R95, R96, R100, R102, R112: what task mode may not do: `rti`, `halt`, a read of any system register but SW,
IPEND0, IPEND1 and COREID, a write of any but SW, and a `post` to another core take PRIV_OP and have no other effect.
(Where the spec leaves a reading open, the model's own: notes/assumptions 21.) -/
def Obligations.TaskModePrivilege : Prop :=
  ∀ (c : CoreId) (d a b : RegId) (sr : BitVec 8) (s : State), s.runs c = true → (s.core c).sw.getLsbD 19 = false →
    (s.core c).act.getLsbD 4 = false →
    let x := s.core c
    let trapped : Out := .next (s.setCore c { x with
      epc := x.epc.set 4 (x.pc.setWidth 20), esw := x.esw.set 4 x.sw, act := x.act ||| 0b10000
      sw := x.sw ||| 0x800F0, ecause := 0x60000, eaddr := 0, pc := 5 })
    exec (.iRti c) s = trapped ∧ exec (.iHalt c) s = trapped ∧
    ((x.sysReg c sr.toNat).isSome → sr ≠ 0x00 → exec (.iMts c sr d) s = trapped ∧
      (sr ≠ 0x02 → sr ≠ 0x03 → sr ≠ 0x1F → exec (.iMfs c d sr) s = trapped)) ∧
    exec (.iMts c 0 d) s = .next (s.setCore c (CoreSt.advance { x with sw := (x.sw &&& 0xFFFF0) ||| (x.get d &&& 0xF) } 1)) ∧
    ((x.get a).getLsbD 2 = false → (x.get a).toNat % 4 ≠ c.val → exec (.iPost c a b) s = trapped)

/-- R84, R85, R91-R95, R105: mesh time, events and waits in a core that runs. `tnow` writes mesh time; `wat` passes a
reached time and else gates the core; `post` sets a pending bit; `sense` reads pending bits and clears none; `ack`
clears one; `wev` takes the lowest pending line of its mask, times out at once with timeout 0, and else waits; `halt`
halts. The ends of waits: a `wat` whose time is reached goes on; a `wev` takes a masked line that became pending, also
in the tick of its timeout, and else ends with 0xFFFFF and Z; a waiting `take` whose time is over ends with code 0
where the evaluation of that tick grants it (R18), and else withdraws its request and ends with code 2. -/
def Obligations.TimesEventsAndWaits : Prop :=
  (∀ (c : CoreId) (d a b : RegId) (s : State), s.runs c = true →
    let x := s.core c
    let u := x.get a
    let high := u.getLsbD 16
    let sensed : W20 := if u.getLsbD 0 then ((x.pend >>> 16).setWidth 16).setWidth 20 else (x.pend.setWidth 16).setWidth 20
    (d.val % 2 = 0 → exec (.iTnow c d) s = .next (s.setCore c ((x.setPair d s.mesh.toNat).advance 1))) ∧
    (a.val % 2 = 0 → exec (.iWat c a) s = .next (s.setCore c
      (if (s.mesh - BitVec.ofNat 40 (x.pair a)).getLsbD 39 then { x with run := .inWat (BitVec.ofNat 40 (x.pair a)) }
       else x.advance 1))) ∧
    (u.getLsbD 2 = false → (u.toNat % 4 = c.val ∨ x.sw.getLsbD 19 = true) →
      Answers (.iPost c a b) s (fun t => ∀ k : CoreId, k.val = u.toNat % 4 →
        (t.core k).pend.getLsbD ((x.get b).toNat % 32) = true ∧ (t.core c).pc = x.pc + 1 ∧ t.regs = s.regs)) ∧
    (u.getLsbD 2 = true → Answers (.iPost c a b) s (fun t =>
      t = (s.fire (0x30 + 8 * c.val + (x.get b).toNat % 8)).modCore c (·.advance 1))) ∧
    exec (.iSense c d a) s = 
      .next (s.setCore c (CoreSt.advance { x.set d sensed with sw := swSetZ x.sw (sensed == 0) } 1)) ∧
    Answers (.iAck c a) s (fun t => (t.core c).bare = (x.advance 1).bare ∧ t.regs = s.regs ∧
      ((∀ k, k < 16 → s.routed k ≠ some (c, u.toNat % 32)) → (t.core c).pend.getLsbD (u.toNat % 32) = false)) ∧
    (∀ k, k < 16 → u.getLsbD k = true → x.pend.getLsbD (16 * bit high + k) = true →
      (∀ j, j < k → u.getLsbD j = true → x.pend.getLsbD (16 * bit high + j) = false) →
      exec (.iWev c d a b) s = .next (s.setCore c (CoreSt.advance { x.set d (BitVec.ofNat 20 (16 * bit high + k)) with
        sw := swSetZ x.sw false, run := .running } 1))) ∧
    ((∀ j, j < 16 → u.getLsbD j = true → x.pend.getLsbD (16 * bit high + j) = false) →
      exec (.iWev c d a b) s = .next (s.setCore c (if x.get b = 0
        then CoreSt.advance { x.set d 0xFFFFF with sw := swSetZ x.sw true, run := .running } 1
        else { x with run := .inWev high (u.setWidth 16) s.tick (x.get b) d }))) ∧
    (x.sw.getLsbD 19 = true → exec (.iHalt c) s = .next (s.setCore c (CoreSt.advance { x with run := .halted } 1)))) ∧
  (∀ (c : CoreId) (s : State), s.clocked = true →
    let x := s.core c
    (∀ t : W40, x.run = .inWat t → (s.mesh - t).toNat < 2 ^ 39 →
      exec (.watRelease c) s = .next (s.setCore c (CoreSt.advance { x with run := .running } 1))) ∧
    (∀ (high : Bool) (mask : BitVec 16) (start : Nat) (lim : W20) (d : RegId), x.run = .inWev high mask start lim d →
      (∀ k, k < 16 → mask.getLsbD k = true → x.pend.getLsbD (16 * bit high + k) = true →
        (∀ j, j < k → mask.getLsbD j = true → x.pend.getLsbD (16 * bit high + j) = false) →
        let t : State := s.setCore c ({ x.set d (BitVec.ofNat 20 (16 * bit high + k)) with
          sw := swSetZ x.sw false, run := .running }.advance 1)
        exec (.wevEvent c) s = .next t ∧
        (lim ≠ 0xFFFFF → lim.toNat ≤ s.tick - start → exec (.wevTimeout c) s = .next t)) ∧
      ((∀ j, j < 16 → mask.getLsbD j = true → x.pend.getLsbD (16 * bit high + j) = false) → lim ≠ 0xFFFFF →
        lim.toNat ≤ s.tick - start → exec (.wevTimeout c) s =
          .next (s.setCore c (CoreSt.advance { x.set d 0xFFFFF with sw := swSetZ x.sw true, run := .running } 1)))) ∧
    (∀ (h start : Nat) (lim : W20) (d : RegId), x.run = .inTake h start lim d → lim ≠ 0xFFFFF →
      lim.toNat ≤ s.tick - start →
      ((∀ w ∈ s.evaluate.2, w.id = h → ∀ m, w.kind ≠ .program c m) → Answers (.takeTimeout c) s (fun t =>
        t.core c = { x.set d 2 with sw := swSetZ x.sw false, run := .running }.advance 1 ∧ s.othersKept t c ∧
        t.regs = s.regs ∧ ∀ w ∈ t.manger.waits, ∀ m, w.kind ≠ .program c m)) ∧
      (∀ m, s.manger.waits = [⟨h, 1, start, false, .program c m⟩] → start < s.tick → s.manger.owed = 0 →
        s.takeCost h m ≤ s.manger.free → Answers (.takeTimeout c) s (fun t =>
          t.core c = { x.set d 0 with sw := swSetZ x.sw true, run := .running }.advance 1 ∧ s.othersKept t c ∧
          t.regs = s.regs ∧ t.manger.waits = []))))

/-- R35, R96: `take` and `give` of a program holder. Each writes its code to d and Z exactly for code 0, and goes on;
a `take` that cannot be answered at once gates the core and adds one class 1 request. A holder outside 16 to 27 is
code 3; a holder for which another `take` waits is code 4; else an amount of 0 is code 0 and changes no charge; else
one whose whole charge exceeds the pool total is code 1 and sets EXCEEDS_POOL; else, with timeout 0, one that fits at
once is code 0 and any other code 2. A `give` of more than the amount held is code 5, sets GIVE_EXCESS and empties the
holder. (Where the spec leaves a reading open, the model's own: notes/assumptions 60.) -/
def Obligations.TakeAndGiveResults : Prop :=
  ∀ (c : CoreId) (d a b : RegId) (s : State), s.runs c = true →
    let x := s.core c
    let h := (x.get a).toNat % 32
    let m := (x.get a).toNat / 1024
    let charge := fun (n : Nat) => ceilDiv (n * s.mngF) 16
    let total := min (s.get MNG_POOL_POOL) (s.get MNG_CEIL_CEILING)
    let cost := charge (s.progAmount h + m) - s.chargeOf h
    let asks := fun (w : Wait) => w.id = h ∧ ∃ e n, w.kind = .program e n
    let atOnce := s.manger.owed = 0 ∧ (∀ w ∈ s.manger.waits, w.urgent = false) ∧ cost ≤ s.manger.free
    let coded := fun (n : Nat) => ({ x.set d (BitVec.ofNat 20 n) with
      sw := swSetZ x.sw (n == 0), run := .running } : CoreSt).advance 1
    (h < 16 ∨ 27 < h → exec (.iTake c d a b) s = .next (s.setCore c (coded 3)) ∧
      exec (.iGive c d a) s = .next (s.setCore c (coded 3))) ∧
    (16 ≤ h → h ≤ 27 →
      ((∃ w ∈ s.manger.waits, asks w) → exec (.iTake c d a b) s = .next (s.setCore c (coded 4))) ∧
      ((∀ w ∈ s.manger.waits, ¬ asks w) →
        (m = 0 → exec (.iTake c d a b) s = .next (s.setCore c (coded 0))) ∧
        (m ≠ 0 → total < charge (s.progAmount h + m) → Answers (.iTake c d a b) s (fun t =>
          (t.core c).bare = (coded 1).bare ∧ t.test MNG_FLAGS_EXCEEDS_POOL = true ∧ s.regsKept t [MNG_FLAGS] ∧
          t.manger = s.manger)) ∧
        (m ≠ 0 → charge (s.progAmount h + m) ≤ total →
          (x.get b = 0 → atOnce → s.chargeOf h = charge (s.progAmount h) → Answers (.iTake c d a b) s (fun t =>
            t.core c = coded 0 ∧ t.progAmount h = s.progAmount h + m ∧ t.manger.free = s.manger.free - cost ∧
            t.manger.waits = s.manger.waits)) ∧
          (x.get b = 0 → ¬ atOnce → exec (.iTake c d a b) s = .next (s.setCore c (coded 2))) ∧
          (x.get b ≠ 0 → Answers (.iTake c d a b) s (fun t =>
            t.core c = { x with run := .inTake h s.tick (x.get b) d } ∧ t.manger.free = s.manger.free ∧
            t.manger.waits = waitInsert s.manger.waits ⟨h, 1, s.tick, false, .program c m⟩)))) ∧
      (m = 0 → exec (.iGive c d a) s = .next (s.setCore c (coded 0))) ∧
      (s.progAmount h < m → Answers (.iGive c d a) s (fun t =>
        (t.core c).bare = (coded 5).bare ∧ t.holds h = false ∧ t.test MNG_FLAGS_GIVE_EXCESS = true)) ∧
      (0 < m → m ≤ s.progAmount h → Answers (.iGive c d a) s (fun t =>
        t.core c = coded 0 ∧ t.progAmount h = s.progAmount h - m ∧ t.regs = s.regs ∧ s.othersKept t c)))

/-- R100, R104, R112: the system registers in privileged mode: `mfs` reads each register of the table, `mts` writes
the fields of the writable ones, and `rti` returns from the highest bank in use, or is illegal with none in use. -/
def Obligations.SystemRegisterResults : Prop :=
  ∀ (c : CoreId) (d : RegId) (s : State), s.runs c = true → (s.core c).sw.getLsbD 19 = true →
    let x := s.core c
    let v := x.get d
    let reads := fun (sr : BitVec 8) (r : W20) => exec (.iMfs c d sr) s = .next (s.setCore c ((x.set d r).advance 1))
    let writes := fun (sr : BitVec 8) (y : CoreSt) => exec (.iMts c sr d) s = .next (s.setCore c (y.advance 1))
    reads 0x00 x.sw ∧ reads 0x01 (x.act.setWidth 20) ∧ reads 0x02 ((x.pend.setWidth 16).setWidth 20) ∧
    reads 0x03 (((x.pend >>> 16).setWidth 16).setWidth 20) ∧ reads 0x04 ((x.ien.setWidth 16).setWidth 20) ∧
    reads 0x05 (((x.ien >>> 16).setWidth 16).setWidth 20) ∧
    (∀ m : Fin 4, reads (BitVec.ofNat 8 (6 + m.val)) (x.ilvl[m].setWidth 20)) ∧
    reads 0x0A ((x.emiss.setWidth 16).setWidth 20) ∧ reads 0x0B (((x.emiss >>> 16).setWidth 16).setWidth 20) ∧
    (∀ n : Fin 5, reads (BitVec.ofNat 8 (0x10 + n.val)) x.epc[n] ∧ reads (BitVec.ofNat 8 (0x18 + n.val)) x.esw[n]) ∧
    reads 0x1D x.ecause ∧ reads 0x1E x.eaddr ∧ reads 0x1F (BitVec.ofNat 20 c.val) ∧
    writes 0x00 { x with sw := v &&& 0x800FF } ∧ writes 0x01 x ∧ writes 0x02 x ∧ writes 0x03 x ∧ writes 0x1E x ∧
    writes 0x1F x ∧ writes 0x1D { x with ecause := v &&& 0xF0FFF } ∧
    writes 0x04 { x with ien := (x.ien &&& 0xFFFF0000) ||| ((v.setWidth 16).setWidth 32) } ∧
    writes 0x05 { x with ien := (x.ien &&& 0x0000FFFF) ||| ((v.setWidth 16).setWidth 32 <<< 16) } ∧
    (∀ m : Fin 4, writes (BitVec.ofNat 8 (6 + m.val)) { x with ilvl := x.ilvl.set m (v.setWidth 16) }) ∧
    writes 0x0A { x with emiss := x.emiss &&& ~~~((v.setWidth 16).setWidth 32) } ∧
    writes 0x0B { x with emiss := x.emiss &&& ~~~((v.setWidth 16).setWidth 32 <<< 16) } ∧
    (∀ n : Fin 5, writes (BitVec.ofNat 8 (0x10 + n.val)) { x with epc := x.epc.set n (v &&& 0xFFFF) } ∧
      writes (BitVec.ofNat 8 (0x18 + n.val)) { x with esw := x.esw.set n (v &&& 0x800FF) }) ∧
    (∀ n : Fin 5, x.act.getLsbD n = true → (∀ k : Fin 5, n < k → x.act.getLsbD k = false) →
      exec (.iRti c) s = .next (s.setCore c { x with
        pc := x.epc[n].setWidth 16, sw := x.esw[n], act := x.act &&& ~~~(BitVec.twoPow 5 n) })) ∧
    (x.act = 0 → exec (.iRti c) s = .next (s.illegal c))

/-- R107, R108, R109: a core that runs, halts or waits takes the interrupt of the line that is pending, enabled, not
masked and whose level's bank is free, when no line of a higher level and no lower-numbered line of its level is so:
pc and sw go to the level's bank, its ACT bit is set, PRIV is set and the levels up to its own are masked, the line's
vector is next, and a waiting `take` has withdrawn its request. -/
def Obligations.InterruptEntryEffect : Prop :=
  ∀ (c : CoreId) (s : State) (k : Fin 32), s.clocked = true → (s.core c).run.interruptible = true →
    let x := s.core c
    let level := fun (j : Fin 32) => (x.ilvl[j.val / 8]'(by omega)).toNat / 4 ^ (j.val % 8) % 4
    let ready := fun (j : Fin 32) => x.pend.getLsbD j && x.ien.getLsbD j && !x.sw.getLsbD (4 + level j) &&
      !x.act.getLsbD (level j)
    let n := level k
    ready k = true → (∀ j, ready j = true → level j ≤ n ∧ (level j = n → k ≤ j)) →
    Answers (.interruptEntry c) s (fun t =>
      t.core c = { x with
        epc := x.epc.setIfInBounds n (x.pc.setWidth 20), esw := x.esw.setIfInBounds n x.sw
        act := x.act ||| BitVec.twoPow 5 n, run := .running
        sw := x.sw ||| 0x80000 ||| BitVec.ofNat 20 ((2 ^ (n + 1) - 1) * 16), pc := BitVec.ofNat 16 (8 + k.val) } ∧
      t.regs = s.regs ∧ s.othersKept t c ∧ ∀ w ∈ t.manger.waits, ∀ m, w.kind ≠ .program c m)

/-- R52, R53, R67, R77, R78, R98: a load from shared SRAM or the core's own data RAM, of bytes without errors, with no
store of the core waiting: the byte, half, word or pair at the effective address goes to its register, little-endian,
and the core goes on; nothing else changes. A store there enters the core's store buffer when fewer than four stores
wait in it: the address, the bytes in address order (a word as a triple whose top four bits are 0) and the mode; no
byte of memory changes until it becomes visible. The faults: an access past 0xFFFFF or across two ranges of the map
raises DATA_FAULT with detail 1, a store to the boot ROM's view with 2, an access to a reserved range with 3, one
through a gate that is off, or a store through one that takes none, with 4, a load of an error that cannot be
corrected with 6, and a task-mode access to a register block without permission with 7; EADDR is the effective address
and no register, byte or buffered store changes. A pair form with an odd register is illegal (R52, R55, R56, R101,
R103, R111, R115, R123). (Where the spec leaves a reading open, the model's own: notes/assumptions 22.) -/
def Obligations.LoadAndStoreResults : Prop :=
  ((∀ (c : CoreId) (d a : RegId) (disp8 : BitVec 8) (imm20 : W20) (s : State), s.runs c = true →
    (s.core c).stores = [] →
    let x := s.core c
    let may := fun (r : Ram) (e n : Nat) => (r = .sram ∧ e + n ≤ 0xA0000 ∨ r = .pram c ∧ 0xE0000 ≤ e ∧ e + n ≤ 0xE4000) ∧
      ∀ g, e / 4 ≤ g → g ≤ (e + n - 1) / 4 → s.chk (r.group (4 * g)) = .good
    let triple := fun (r : Ram) (e : Nat) => (s.byte r (e + 2)).setWidth 4 ++ (s.byte r (e + 1) ++ s.byte r e)
    let done := fun (n : Nat) (v : W20) => (.next (s.setCore c ((x.set d v).advance n)) : Out)
    (∀ r : Ram, let e := (x.get a + disp8.signExtend 20).toNat
      may r e 3 → exec (.iLdw c d a disp8) s = done 1 (triple r e)) ∧
    (∀ r : Ram, let e := (x.get a + imm20).toNat
      (may r e 1 → exec (.iLdbu c d a imm20) s = done 2 ((s.byte r e).setWidth 20) ∧
        exec (.iLdbs c d a imm20) s = done 2 ((s.byte r e).signExtend 20)) ∧
      (may r e 2 → exec (.iLdhu c d a imm20) s = done 2 ((s.byte r (e + 1) ++ s.byte r e).setWidth 20) ∧
        exec (.iLdhs c d a imm20) s = done 2 ((s.byte r (e + 1) ++ s.byte r e).signExtend 20)) ∧
      (may r e 3 → exec (.iLdwl c d a imm20) s = done 2 (triple r e)) ∧
      (may r e 6 → d.val % 2 = 0 → exec (.iLdp c d a imm20) s =
        .next (s.setCore c (((x.set d (triple r (e + 3))).set (oddOf d) (triple r e)).advance 2))))) ∧
  (∀ (c : CoreId) (d a : RegId) (disp8 : BitVec 8) (imm20 : W20) (s : State), s.runs c = true →
    (s.core c).stores.length < 4 →
    let x := s.core c
    let may := fun (e : W20) (n : Nat) => e.toNat + n ≤ 0xA0000 ∨ 0xE0000 ≤ e.toNat ∧ e.toNat + n ≤ 0xE4000
    let triple := fun (v : W20) => [v.setWidth 8, (v >>> 8).setWidth 8, ((v >>> 16).setWidth 8 : Byte)]
    let done := fun (n : Nat) (e : W20) (bs : List Byte) (word : Bool) =>
      (.next (s.setCore c (CoreSt.advance { x with stores := x.stores ++ [⟨e, bs, word, x.sw.getLsbD 19⟩] } n)) : Out)
    let v := x.get d
    (let e := x.get a + disp8.signExtend 20
     may e 3 → exec (.iStw c d a disp8) s = done 1 e (triple v) true) ∧
    (let e := x.get a + imm20
     (may e 1 → exec (.iStb c d a imm20) s = done 2 e [v.setWidth 8] false) ∧
     (may e 2 → exec (.iSth c d a imm20) s = done 2 e [v.setWidth 8, (v >>> 8).setWidth 8] false) ∧
     (may e 3 → exec (.iStwl c d a imm20) s = done 2 e (triple v) true) ∧
     (may e 6 → d.val % 2 = 0 →
       exec (.iStp c d a imm20) s = done 2 e (triple (x.get (oddOf d)) ++ triple v) false)))) ∧
  (∀ (c : CoreId) (d a : RegId) (disp8 : BitVec 8) (imm20 : W20) (s : State), s.runs c = true →
    (s.core c).act.getLsbD 4 = false →
    let x := s.core c
    let near := x.get a + disp8.signExtend 20
    let far := x.get a + imm20
    let loads := [(Instr.iLdw c d a disp8, near, 3), (.iLdbu c d a imm20, far, 1), (.iLdbs c d a imm20, far, 1),
      (.iLdhu c d a imm20, far, 2), (.iLdhs c d a imm20, far, 2), (.iLdwl c d a imm20, far, 3)] ++
      (if d.val % 2 = 0 then [(.iLdp c d a imm20, far, 6)] else [])
    let stores := [(Instr.iStw c d a disp8, near, 3), (.iStb c d a imm20, far, 1), (.iSth c d a imm20, far, 2),
      (.iStwl c d a imm20, far, 3)] ++ (if d.val % 2 = 0 then [(.iStp c d a imm20, far, 6)] else [])
    let faulted := fun (e : W20) (k : Nat) => (.next (s.setCore c { x with
      epc := x.epc.set 4 (x.pc.setWidth 20), esw := x.esw.set 4 x.sw, act := x.act ||| 0b10000, sw := x.sw ||| 0x800F0
      ecause := BitVec.ofNat 20 (0x30000 + k), eaddr := e, pc := 2 }) : Out)
    let edges := [0xA0000, 0xA8000, 0xB0000, 0xB8000, 0xC0000, 0xD4000, 0xE0000, 0xE4000, 0xF0000, 0x100000]
    let within := fun (e n lo hi : Nat) => lo ≤ e ∧ e + n ≤ hi
    (∀ f ∈ loads ++ stores,
      let e := f.2.1.toNat
      ((∃ b ∈ edges, e < b ∧ b < e + f.2.2) → exec f.1 s = faulted f.2.1 1) ∧
      (within e f.2.2 0xD4000 0xE0000 ∨ within e f.2.2 0xE4000 0xF0000 → exec f.1 s = faulted f.2.1 3) ∧
      (within e f.2.2 0xC0000 0xD4000 → x.sw.getLsbD 19 = false →
        (∃ i < f.2.2, (s.rg (CC_TASKPERM c.val)).getLsbD ((e + i - 0xC0000) / 0x1000) = false) →
        exec f.1 s = faulted f.2.1 7) ∧
      (∀ g : Fin 4, within e f.2.2 (0xA0000 + 0x8000 * g.val) (0xA8000 + 0x8000 * g.val) → x.stores = [] →
        s.test (GATE_CTL_EN g.val) = false → exec f.1 s = faulted f.2.1 4)) ∧
    (∀ f ∈ stores,
      let e := f.2.1.toNat
      (within e f.2.2 0xF0000 0x100000 → exec f.1 s = faulted f.2.1 2) ∧
      (∀ g : Fin 4, within e f.2.2 (0xA0000 + 0x8000 * g.val) (0xA8000 + 0x8000 * g.val) → x.stores = [] →
        s.test (GATE_CTL_WRITE g.val) = false → exec f.1 s = faulted f.2.1 4)) ∧
    (∀ f ∈ loads, ∀ r : Ram,
      let e := f.2.1.toNat
      (r = .sram ∧ within e f.2.2 0 0xA0000 ∨ r = .pram c ∧ within e f.2.2 0xE0000 0xE4000) → x.stores = [] →
      (∃ g, e / 4 ≤ g ∧ g ≤ (e + f.2.2 - 1) / 4 ∧ s.chk (r.group (4 * g)) = .bad) →
      Answers f.1 s (fun t => (t.core c).ecause = 0x30006 ∧ (t.core c).eaddr = f.2.1 ∧ (t.core c).pc = 2 ∧
        (t.core c).w = x.w ∧ t.test (faultBit (r.ce + 1)) = true ∧ s.memKept t)) ∧
    (d.val % 2 = 1 → exec (.iLdp c d a imm20) s = .next (s.illegal c) ∧ exec (.iStp c d a imm20) s = .next (s.illegal c)))

/-- R98, R116: the oldest waiting store of a core becomes visible: its bytes stand at its address, every other byte of
the RAMs reads as before, and it leaves the buffer. (Where the spec leaves a reading open, the model's own:
notes/assumptions 22.) -/
def Obligations.StoreBecomesVisible : Prop :=
  ∀ (c : CoreId) (st : Store) (rest : List Store) (s : State), s.clocked = true → (s.core c).creset = false →
    (s.core c).stores = st :: rest →
    let e := st.addr.toNat
    ∀ r : Ram, (r = .sram ∧ e + st.bytes.length ≤ 0xA0000 ∨ r = .pram c ∧ 0xE0000 ≤ e ∧ e + st.bytes.length ≤ 0xE4000) →
      (∀ g, e / 4 ≤ g → g ≤ (e + st.bytes.length - 1) / 4 → s.chk (r.group (4 * g)) = .good) → st.bytes ≠ [] →
      Answers (.storeVisible c) s (fun t =>
        (∀ i (h : i < st.bytes.length), t.byte r (e + i) = st.bytes[i]) ∧
        (∀ q k, (q ≠ r ∨ ∀ i, i < st.bytes.length → q.key k ≠ r.key (e + i)) → t.byte q k = s.byte q k) ∧
        t.core c = { s.core c with stores := rest } ∧ s.othersKept t c ∧ t.regs = s.regs)

/-- R97, R99: `fence` and `xchg` of a core with no store waiting. `fence` goes on; `xchg` swaps d with the word at
w(a) in shared SRAM or the core's own data RAM; a target outside them, or a triple that spans two 64-byte lines,
raises DATA_FAULT with detail 0x008 and changes no byte. (Where the spec leaves a reading open, the model's own:
notes/assumptions 21.) -/
def Obligations.FenceAndExchangeResults : Prop :=
  ∀ (c : CoreId) (d a : RegId) (s : State), s.runs c = true → (s.core c).stores = [] →
    let x := s.core c
    let e := (x.get a).toNat
    exec (.iFence c) s = .next (s.setCore c (x.advance 1)) ∧
    (∀ r : Ram, (r = .sram ∧ e + 3 ≤ 0xA0000 ∨ r = .pram c ∧ 0xE0000 ≤ e ∧ e + 3 ≤ 0xE4000) → e % 64 ≤ 61 →
      s.chk (r.group (e / 4 * 4)) = .good → s.chk (r.group ((e + 2) / 4 * 4)) = .good →
      Answers (.iXchg c d a) s (fun t =>
        t.core c = (x.set d ((s.byte r (e + 2)).setWidth 4 ++ (s.byte r (e + 1) ++ s.byte r e))).advance 1 ∧
        t.byte r e = (x.get d).setWidth 8 ∧ t.byte r (e + 1) = (x.get d >>> 8).setWidth 8 ∧
        t.byte r (e + 2) = (x.get d >>> 16).setWidth 8 ∧
        (∀ q k, (q ≠ r ∨ ∀ i, i < 3 → q.key k ≠ r.key (e + i)) → t.byte q k = s.byte q k) ∧
        s.othersKept t c ∧ t.regs = s.regs)) ∧
    (61 < e % 64 ∨ 0xA0000 ≤ e ∧ e < 0xE0000 ∨ 0xE4000 ≤ e → x.act.getLsbD 4 = false →
      Answers (.iXchg c d a) s (fun t =>
        (t.core c).ecause = 0x30008 ∧ (t.core c).eaddr = x.get a ∧ (t.core c).pc = 2 ∧ (t.core c).w = x.w ∧
        s.memKept t))

/-- R39, R86, R87, R88, R90: `arm` with no store waiting. In privileged mode, or in task mode with the kind's
CC_ACTPERM bit, it places the entry with its kind, parameter, fire tick and reservation, and Z set exactly when the
tick is already reached: in status ARMED; in NO_RATIONS with EXCEEDS_POOL where the reservation's charge exceeds the
pool total; and else in RESERVING, with a class 3 request, where the tick less MNG_LEAD is already reached. Kind 0
empties the entry and clears Z; no general register changes. A kind without its permission is privileged, and a
reserved kind or a parameter outside its range illegal; neither changes an entry. (Where the spec leaves a reading
open, the model's own: notes/assumptions 20, 24.) -/
def Obligations.ArmPlacesEntry : Prop :=
  ∀ (c : CoreId) (d a b : RegId) (s : State), s.runs c = true → (s.core c).stores = [] → a.val % 2 = 0 →
    let x := s.core c
    let kind := (x.get b).toNat / 2 ^ 16
    let param := (x.get b).toNat % 2 ^ 16
    let e : Fin 16 := ⟨(x.get d).toNat % 16, Nat.mod_lt _ (by decide)⟩
    let resv := (x.get d).toNat / 1024
    let tick : W40 := BitVec.ofNat 40 (x.pair a)
    let reached := fun (n : W40) => !(s.mesh - n).getLsbD 39
    let may := x.sw.getLsbD 19 = true ∨ (s.rg (CC_ACTPERM c.val)).getLsbD kind = true
    let listed := 1 ≤ kind ∧ kind ≤ 8 ∧ ((kind = 1 ∨ kind = 6) → param < 16) ∧ (kind = 2 → 1 ≤ param ∧ param ≤ 3) ∧
      (kind = 3 → param = 0) ∧ ((kind = 4 ∨ kind = 5) → param < 48 ∨ param = 0x8000) ∧ (kind = 7 → param < 8) ∧
      (kind = 8 → param < 32)
    let dear := min (s.get MNG_POOL_POOL) (s.get MNG_CEIL_CEILING) < ceilDiv (resv * s.mngF) 16
    let early := reached (tick - BitVec.ofNat 40 (s.get MNG_LEAD_LEAD))
    let went := fun (t : State) (z : Bool) => (t.core c).w = x.w ∧ (t.core c).pc = x.pc + 1 ∧
      (t.core c).sw = swSetZ x.sw z ∧ (∀ k : Fin 16, k ≠ e → (t.core c).acts[k] = x.acts[k])
    let placed := fun (t : State) (st : ActStatus) =>
      (t.core c).acts[e] = ⟨BitVec.ofNat 4 kind, BitVec.ofNat 16 param, tick, BitVec.ofNat 10 resv, st, reached tick⟩
    (kind = 0 → param = 0 → Answers (.iArm c d a b) s (fun t =>
      (t.core c).acts[e] = ⟨0, 0, 0, 0, .empty, false⟩ ∧ went t false ∧ t.regs = s.regs ∧ s.othersKept t c)) ∧
    (listed → may → (resv = 0 ∨ ¬ dear) → Answers (.iArm c d a b) s (fun t =>
      went t (reached tick) ∧ t.regs = s.regs ∧ s.othersKept t c ∧
      (resv = 0 ∨ early = false → placed t .armed) ∧
      (resv ≠ 0 → early = true → placed t .reserving ∧
        ⟨32 + 16 * c.val + e.val, 3, s.tick, false, .resv c e⟩ ∈ t.manger.waits))) ∧
    (listed → may → resv ≠ 0 → dear → Answers (.iArm c d a b) s (fun t =>
      went t (reached tick) ∧ placed t .noRations ∧ t.test MNG_FLAGS_EXCEEDS_POOL = true ∧ s.regsKept t [MNG_FLAGS])) ∧
    (listed → ¬ may → exec (.iArm c d a b) s = .next (s.privOp c)) ∧
    (¬ listed → (kind ≠ 0 ∨ param ≠ 0) → exec (.iArm c d a b) s = .next (s.illegal c))

/-- R47, R104, R113, R517: starting, stopping and resetting a core. A stopped core that holds its charge runs from its
pc, or from START after a core reset; one that does not hold it waits for the grant of a class 0 request; RUN 0 stops
it, and the returns that the next tick begins with take its charge; a core reset with RUN 0 and no store waiting
clears its registers, sets sw to 0x800F0 and empties its action table, and keeps loft and memory. (Where the spec
leaves a reading open, the model's own: notes/assumptions 48.) -/
def Obligations.CoreControlResults : Prop :=
  ∀ (c : CoreId) (s : State), s.clocked = true →
    let x := s.core c
    let start := if x.fresh then BitVec.ofNat 16 (s.get (CC_START_START c.val)) else x.pc
    (x.run = .stopped → s.holds (7 + c.val) = true → Answers (.coreRun c true) s (fun t =>
      t.core c = { x with run := .running, pc := start, fresh := false, cold := false, stopAt := none } ∧ t.test (CC_RUN_RUN c.val) = true ∧
      s.othersKept t c ∧ s.memKept t)) ∧
    (x.run = .stopped → s.holds (7 + c.val) = false → s.asked (7 + c.val) = false → Answers (.coreRun c true) s (fun t =>
      t.core c = { x with run := .starting, pc := start, fresh := false, cold := false, stopAt := none } ∧
      ∃ w ∈ t.manger.waits, w.cls = 0 ∧ w.kind = .holders [7 + c.val])) ∧
    (x.run ≠ .doubleExc → x.run ≠ .stopped → Answers (.coreRun c false) s (fun t =>
      (t.core c).run = .stopped ∧ (t.core c).pc = x.pc ∧ (t.core c).w = x.w ∧ t.test (CC_RUN_RUN c.val) = false ∧
      (x.run ≠ .starting → t.core c = { x with run := .stopped, stopAt := some s.tick } ∧
        t.holds (7 + c.val) = s.holds (7 + c.val) ∧ ∀ w ∈ t.manger.waits, ∀ m, w.kind ≠ .program c m) ∧
      (x.run = .starting → t.holds (7 + c.val) = false) ∧ s.othersKept t c ∧ s.memKept t)) ∧
    (x.run = .stopped → exec (.coreRun c false) s = .next (s.put (CC_RUN_RUN c.val) 0)) ∧
    (∀ k, x.stopAt = some k → k < s.tick →
      (s.coreReturns.core c).stopAt = none ∧ s.coreReturns.holds (7 + c.val) = false) ∧
    (x.stores = [] → s.test (CC_RUN_RUN c.val) = false → Answers (.coreReset c) s (fun t =>
      (t.core c).bare = { CoreSt.reset with cold := false, pc := BitVec.ofNat 16 (s.get (CC_START_START c.val)) } ∧
      (t.core c).sw = 0x800F0 ∧ (∀ r : RegId, (t.core c).get r = 0) ∧ t.holds (7 + c.val) = false ∧ s.memKept t)) ∧
    (x.stores ≠ [] → Answers (.coreReset c) s (fun t => t = s.setCore c { x with creset := true }))

/-- R51, R113: the loft port. A write while RUN is 0 stores the word at CC_LOFTADDR.ADDR, and while RUN is 1 is
ignored and sets LOFT_REFUSED; a write or a read advances ADDR by 1 under AUTOINC; no other loft word changes. -/
def Obligations.LoftPortResults : Prop :=
  ∀ (c : CoreId) (v : W20) (s : State), s.clocked = true →
    let a := s.get (CC_LOFTADDR_ADDR c.val)
    let next := if s.test (CC_LOFTADDR_AUTOINC c.val) then (a + 1) % 2 ^ 14 else a
    (s.test (CC_RUN_RUN c.val) = false → Answers (.loftWrite c v) s (fun t =>
      t.loftWord c a = v ∧ (∀ (k : CoreId) w, w < 2 ^ 14 → (k ≠ c ∨ w ≠ a) → t.loftWord k w = s.loftWord k w) ∧
      t.get (CC_LOFTADDR_ADDR c.val) = next ∧ s.coresKept t)) ∧
    (s.test (CC_RUN_RUN c.val) = true → Answers (.loftWrite c v) s (fun t =>
      t.test (CC_STATUS_LOFT_REFUSED c.val) = true ∧ t.get (CC_LOFTADDR_ADDR c.val) = next ∧ s.memKept t ∧
      s.coresKept t)) ∧
    (s.chk (0x200000 + State.loftKey c a) = .good → Answers (.loftRead c) s (fun t =>
      (s.loftGet c).1 = s.loftWord c a ∧ t.get (CC_LOFTADDR_ADDR c.val) = next ∧ s.memKept t ∧ s.coresKept t))

/-- R27, R28, R31, R37: the manger's own commands. A pool write outside 1 to 1023, or one whose total would fall below
what is held, leaves POOL and sets POOL_REFUSED; any other sets POOL, bounded by the ceiling, with CLAMPED above it. A
VBAT sample shows VBAT; the first one places the measured band, a lower one moves it at once, and the 32nd in a row at
least 20 mV above a band's edge raises it to that band. Patience makes exactly the requests urgent that have waited
longer than their class allows. A declared reservation whose lead is reached asks under class 3. (Where the spec
leaves a reading open, the model's own: notes/assumptions 43.) -/
def Obligations.MangerCommandEffects : Prop :=
  ∀ s : State, s.notDormant = true →
    let ceil := s.get MNG_CEIL_CEILING
    (∀ v : W20, s.clocked = true → let p := v.toNat % 1024
      ((p = 0 ∨ min p ceil < s.manger.heldSum) → Answers (.poolWrite v) s (fun t =>
        t.get MNG_POOL_POOL = s.get MNG_POOL_POOL ∧ t.test MNG_FLAGS_POOL_REFUSED = true ∧ s.memKept t ∧
        s.coresKept t)) ∧
      (p ≠ 0 → s.manger.heldSum ≤ min p ceil → ceil ≤ 1023 → Answers (.poolWrite v) s (fun t =>
        t.get MNG_POOL_POOL = min p ceil ∧ (ceil < p → t.test MNG_FLAGS_CLAMPED = true) ∧ s.memKept t ∧
        s.coresKept t))) ∧
    (∀ vbat : BitVec 10, Answers (.vbatSample vbat) s (fun t =>
      t.get MNG_BAND_VBAT = vbat.toNat ∧ s.memKept t ∧ s.coresKept t ∧
      (s.manger.sampled = false → t.get MNG_BAND_MEAS_BAND = bandOf 0 vbat.toNat ∧ t.manger.sampled = true) ∧
      (s.manger.sampled = true → bandOf 0 vbat.toNat < s.get MNG_BAND_MEAS_BAND →
        t.get MNG_BAND_MEAS_BAND = bandOf 0 vbat.toNat) ∧
      (∀ b : Fin 8, 0 < b.val → s.manger.sampled = true → s.get MNG_BAND_MEAS_BAND ≤ bandOf 0 vbat.toNat →
        31 ≤ s.manger.up[b] → bandEdge b.val + 2 ≤ vbat.toNat → b.val ≤ t.get MNG_BAND_MEAS_BAND))) ∧
    exec .patienceExpiry s = .next { s with manger := { s.manger with
      waits := s.manger.waits.map (fun w => { w with urgent := w.urgent || s.get (MNG_PAT_PATIENCE w.cls) < s.tick - w.since }) } } ∧
    (∀ (c : CoreId) (e : Fin 16), let a := (s.core c).acts[e]
      a.status = .armed → a.resv ≠ 0 → (s.mesh - (a.fire - BitVec.ofNat 40 (s.get MNG_LEAD_LEAD))).toNat < 2 ^ 39 →
      Answers (.reservationRequest c e) s (fun t =>
        (t.core c).acts[e] = { a with status := .reserving } ∧ t.regs = s.regs ∧ t.manger.free = s.manger.free ∧
        t.manger.waits = waitInsert s.manger.waits ⟨32 + 16 * c.val + e.val, 3, s.tick, false, .resv c e⟩))

/-- R36, R37: a lone request for a holder's charge, of any holder and of any class, that arrived before the tick of an
evaluation. It is granted when nothing is owed and free holds its charge, which moves from free to the holder, and the
block that waited goes on; otherwise it goes on waiting and nothing else changes, urgent once the patience of its
class is over. The cipher blocks and the DMA, whose blocks look at the grant when they next act, change nothing else.
-/
def Obligations.EvaluationGrantsWhatFits : Prop :=
  ∀ (s : State) (h cls since : Nat), s.notDormant = true → h < 32 → cls < 4 → s.holds h = false → since < s.tick →
    s.manger.waits = [⟨h, cls, since, false, .holders [h]⟩] →
    let cost := s.costOf [h]
    let late := decide (s.get (MNG_PAT_PATIENCE cls) < s.tick - since)
    let asked : Wait := ⟨h, cls, since, late, .holders [h]⟩
    (h < 16 → h ≠ 11 → cost = ceilDiv (holderCost s.yardChans h * s.mngF) 16) ∧
    (s.manger.owed = 0 → cost ≤ s.manger.free → ∃ t : State, exec .mangerEvaluation s = .next (t.onGrant asked) ∧
      t.holds h = true ∧ t.heldOf h = cost ∧ t.manger.free = s.manger.free - cost ∧ t.manger.waits = [] ∧
      (∀ k, k ≠ h → t.heldOf k = s.heldOf k) ∧ t = { s with manger := t.manger } ∧
      (13 < h → h < 28 → t.onGrant asked = t)) ∧
    (s.manger.owed ≠ 0 ∨ s.manger.free < cost → exec .mangerEvaluation s =
      .next { s with manger := { s.manger with waits := [asked] } })

/-- R38, R136: external holders and pins. MODE 1 asks for AMOUNT under class 2, MODE 0 returns it; a tied PA_EN or
LNA_EN about to be asserted asks, and deasserted returns; a GPIO pin shows a new level that drives it, and no such
level while its own output holds the ball (the output's precedence is the model's choice: notes/assumptions/41.md).
(Where the spec leaves a reading open, the model's own: notes/assumptions 41, 47.) -/
def Obligations.ExternalHolderAndPinEffects : Prop :=
  ∀ s : State,
    (∀ (n : Fin 4) (v : W20), s.clocked = true →
      (v.toNat / 2 ^ 18 = 1 → s.holds (28 + n.val) = false → Answers (.extHolderModeWrite n v) s (fun t =>
        t.asked (28 + n.val) = true ∧ t.get (MNG_EXT_MODE n.val) = 1 ∧ s.memKept t ∧ s.coresKept t)) ∧
      (v.toNat / 2 ^ 18 = 0 → Answers (.extHolderModeWrite n v) s (fun t =>
        t.holds (28 + n.val) = false ∧ t.get (MNG_EXT_MODE n.val) = 0 ∧ s.memKept t ∧ s.coresKept t))) ∧
    (∀ n : Fin 4, s.notDormant = true → s.get (MNG_EXT_MODE n.val) = 2 → s.get (MNG_EXT_PIN n.val) < 2 →
      Answers (.tiedPinAssert n true) s (fun t =>
        (t.holds (28 + n.val) = true ∨ t.asked (28 + n.val) = true) ∧ t.regs = s.regs ∧ t.cores = s.cores) ∧
      Answers (.tiedPinAssert n false) s (fun t =>
        t.holds (28 + n.val) = false ∧ t.regs = s.regs ∧ t.cores = s.cores)) ∧
    (∀ (p : Fin 24) (level : Bool), Answers (.gpioInputChange p level) s (fun t =>
      (let own := s.padsOn = true ∧ (s.get (GPIO_CFG_MODE p.val) = 1 ∨
        s.get (GPIO_CFG_MODE p.val) = 2 ∧ s.gpioOut p.val = false)
       (own → t.gpioIn p.val = s.gpioIn p.val) ∧
       (¬ own → s.ball p.val ≠ some level → t.gpioIn p.val = level)) ∧
      (∀ q : Fin 24, q ≠ p → t.gpioIn q.val = s.gpioIn q.val) ∧ s.memKept t ∧ s.coresKept t))

/-- R457-R464, R466, R468, R509, R510: the fault block and the pads. A report sets its source's status bit and leaves
memory and the cores' registers alone; a written bit whose cause has ended is cleared; a released entry is free; a
lane number above 51 is refused with RESULT 1, and a healthy lane whose position is disabled is failed, with a spare
row spent and its position moved or unmapped; after WIN hours of the slow clock halving halves every tracked count;
PAD_CFG takes its two limits while no energy class is fused. (Where the spec leaves a reading open, the model's own:
notes/assumptions 59.) -/
def Obligations.FaultBlockEffects : Prop :=
  ∀ s : State,
    (∀ (code : Fin 36) (detail : W20), Answers (.faultReport code detail) s (fun t =>
      t.test (faultBit code.val) = true ∧ s.memKept t ∧ s.coresKept t ∧ t.manger = s.manger ∧
      (faultClass code.val = 2 → t.stopped = true))) ∧
    (s.clocked = true →
      (∀ (code : Fin 36) (k : Fin 2), k.val = code.val / 20 → s.persists code.val = false →
        Answers (.fltSrcClear k (BitVec.twoPow 20 (code.val % 20))) s (fun t =>
          t.test (faultBit code.val) = false ∧ s.memKept t ∧ s.coresKept t)) ∧
      (∀ v : W20, Answers (.fltRelease v) s (fun t =>
        (∀ k : Fin 16, v.getLsbD k.val = true → t.committed k.val = false) ∧
        (∀ k : Fin 16, v.getLsbD k.val = false → t.rg (FLT_E_HDR k.val) = s.rg (FLT_E_HDR k.val)) ∧
        s.memKept t ∧ s.coresKept t)) ∧
      (∀ v : W20, Answers (.padCfgWrite v) s (fun t => if s.otp.energy then t = s else
        t.get PAD_CFG_LIM_VFL = bit (v.getLsbD 1) ∧ t.get PAD_CFG_LIM_VIO = bit (v.getLsbD 0) ∧
        s.regsKept t [PAD_CFG] ∧ s.memKept t ∧ s.coresKept t))) ∧
    (s.inAir = true →
      (∀ lane : BitVec 6, 52 ≤ lane.toNat → exec (.laneWithdraw lane) s = .next (s.put FLT_SPSTAT_RESULT 1)) ∧
      (∀ lane : BitVec 6, lane.toNat < 52 → s.laneFailed lane.toNat = false → s.otp.rows < 64 →
        let went := fun (t : State) => t.laneFailed lane.toNat = true ∧ t.otp.rows = s.otp.rows + 1 ∧ s.memKept t ∧ s.coresKept t
        (s.posOf lane.toNat = none → Answers (.laneWithdraw lane) s (fun t => t.get FLT_SPSTAT_RESULT = 0 ∧ went t)) ∧
        (∀ p, s.posOf lane.toNat = some p → s.test (STL_CFG_EN p) = false → Answers (.laneWithdraw lane) s (fun t =>
          t.get (laneOf p) ≠ lane.toNat ∧ (t.get FLT_SPSTAT_RESULT = 0 ∨ t.get FLT_SPSTAT_RESULT = 3) ∧ went t)))) ∧
    (s.notDormant = true →
      let half := fun (l : List Track) => l.map (fun e => { e with count := e.count / 2 })
      let window := max 1 (s.get FLT_CFG_WIN) * 3600 * 32768
      (window ≤ s.faults.slow → exec .trackerHalving s = .next { s with faults := { s.faults with
        trkSram := half s.faults.trkSram, trkLoft := half s.faults.trkLoft, trkYard := half s.faults.trkYard, slow := 0 } }) ∧
      (s.faults.slow < window → exec .trackerHalving s = .next s))

/-- R130-R133: the hitch port. Each transaction ends with HSPI_CS_N high. A STATUS repeats the status byte, and any
other command but READ and WRITE is ignored and answered with 0xFF; asleep the status byte is all that is sent (the
model's choice: notes/assumptions/65.md); a READ of permitted SRAM without errors sends the status, three filler
bytes, 0x5A and the bytes; a WRITE of permitted SRAM stores its bytes and no other; a WRITE the map has nothing for
sets ERR with cause 2; HSP_RING, and HSP_H2C while the device is awake, set doorbells and clear none. (Where the spec
leaves a reading open, the model's own: notes/assumptions 23, 65.) -/
def Obligations.HitchPortEffects : Prop :=
  ∀ s : State, s.stopped = false →
    let sends := fun (l : List Byte) => ({ s with hitch := l, power := { s.power with csLow := false } } : State)
    (∀ (cmd : Byte) (n : Nat), cmd ≠ 0x0B → cmd ≠ 0x02 →
      (s.power.phase = .run → exec (.hitchStatus cmd n) s =
        .next (sends (s.hitchStatusByte :: List.replicate n (if cmd = 0x05 then s.hitchStatusByte else 0xFF)))) ∧
      (s.power.phase ≠ .run → exec (.hitchStatus cmd n) s = .next (sends [s.hitchStatusByte]))) ∧
    (∀ (addr : W20) (bs : List Byte) (n : Nat), s.power.phase ≠ .run →
      exec (.hitchRead addr n) s = .next (sends [s.hitchStatusByte]) ∧
      exec (.hitchWrite addr bs) s = .next (sends [s.hitchStatusByte])) ∧
    (∀ (addr : W20) (n : Nat), s.power.phase = .run → addr.toNat + n ≤ 0xA0000 → 0 < n →
      (∀ i, i < n → (s.rg HSP_BANKPERM).getLsbD ((addr.toNat + i) / 0x10000) = true) →
      (∀ g, addr.toNat / 4 ≤ g → g ≤ (addr.toNat + n - 1) / 4 → s.chk g = .good) →
      exec (.hitchRead addr n) s =
        .next (sends ([s.hitchStatusByte, 0xFF, 0xFF, 0xFF, 0x5A] ++ s.bytes .sram addr.toNat n))) ∧
    (∀ (addr : W20) (bs : List Byte), s.power.phase = .run → addr.toNat + bs.length ≤ 0xA0000 → bs ≠ [] →
      (∀ i, i < bs.length → (s.rg HSP_BANKPERM).getLsbD ((addr.toNat + i) / 0x10000) = true) →
      (∀ g, addr.toNat / 4 ≤ g → g ≤ (addr.toNat + bs.length - 1) / 4 → s.chk g = .good) →
      Answers (.hitchWrite addr bs) s (fun t =>
        (∀ i (h : i < bs.length), t.byte .sram (addr.toNat + i) = bs[i]) ∧
        (∀ k, k < addr.toNat ∨ addr.toNat + bs.length ≤ k → t.byte .sram k = s.byte .sram k) ∧
        t.regs = s.regs ∧ t.cores = s.cores)) ∧
    (∀ (addr : W20) (b : Byte), s.power.phase = .run → 0xA0000 ≤ addr.toNat → addr.toNat < 0xC0000 →
      Answers (.hitchWrite addr [b]) s (fun t => t.test HSP_FLAGS_ERR = true ∧ t.get HSP_FLAGS_CAUSE = 2 ∧
        s.memKept t ∧ s.coresKept t)) ∧
    (∀ v : W20, (s.clocked = true → Answers (.hspRingWrite v) s (fun t => t.rg HSP_FLAGS = s.rg HSP_FLAGS ||| (v &&& 0x0FFFF) ∧
        s.regsKept t [HSP_FLAGS] ∧ t.cores = s.cores)) ∧
      (s.power.phase = .run → Answers (.hspH2cWrite v) s (fun t => t.rg HSP_H2C = s.rg HSP_H2C ||| (v &&& 0x0FFFF) ∧
        s.regsKept t [HSP_H2C] ∧ t.cores = s.cores)) ∧
      (s.power.phase ≠ .run → exec (.hspH2cWrite v) s = .next s))

/-- R134, R135: UART0. A received byte joins the FIFO of 32 while the receiver is on and no recovery reads it, and is
discarded with OVERRUN when it is full; a break sets BREAK, and that it delivers no byte is the model's reading
(notes/assumptions/10.md); a read takes the oldest byte; a written byte goes to the shifter when it is idle and the
transmitter is on, else it is queued, and is discarded with TXOVF when 32 wait; a byte sent lets the next one into the
shifter. (Where the spec leaves a reading open, the model's own: notes/assumptions 10.) -/
def Obligations.UartEffects : Prop :=
  ∀ s : State,
    let rx := s.uart.rx
    let tx := s.uart.tx
    (∀ (b : Byte) (ferr : Bool), s.inRun = true → s.test U0_CTRL_LOOP = false → s.test U0_CTRL_RXEN = true →
      (s.test KMB_BOOT_REASON = false →
        (rx.length < 32 → Answers (.uartRxByte b ferr false) s (fun t => t.uart.rx = rx ++ [(b, ferr)] ∧
          t.uart.tx = tx ∧ s.memKept t ∧ s.coresKept t)) ∧
        (32 ≤ rx.length → Answers (.uartRxByte b ferr false) s (fun t => t.uart = s.uart ∧
          t.test U0_STATUS_OVERRUN = true ∧ s.memKept t ∧ s.coresKept t))) ∧
      Answers (.uartRxByte b ferr true) s (fun t => t.uart = s.uart ∧ t.test U0_STATUS_BREAK = true)) ∧
    (s.clocked = true →
      (∀ e r, rx = e :: r → Answers .uartDataRead s (fun t => t.uart.rx = r ∧
        t.rg U0_DATA = BitVec.ofNat 20 (512 * bit e.2 + 256 + e.1.toNat) ∧ s.memKept t ∧ s.coresKept t)) ∧
      (rx = [] → Answers .uartDataRead s (fun t => t.uart = s.uart ∧ t.test U0_DATA_VALID = false)) ∧
      (∀ b : Byte,
        (s.uart.shift = none → tx = [] → s.test U0_CTRL_TXEN = true → Answers (.uartDataWrite b) s (fun t =>
          t.uart = { s.uart with shift := some b } ∧ s.memKept t ∧ s.coresKept t)) ∧
        (tx.length < 32 → s.uart.shift ≠ none ∨ s.test U0_CTRL_TXEN = false → Answers (.uartDataWrite b) s (fun t =>
          t.uart = { s.uart with tx := tx ++ [b] } ∧ s.memKept t ∧ s.coresKept t)) ∧
        (32 ≤ tx.length → s.uart.shift ≠ none ∨ s.test U0_CTRL_TXEN = false → Answers (.uartDataWrite b) s (fun t =>
          t.uart = s.uart ∧ t.test U0_STATUS_TXOVF = true ∧ s.memKept t ∧ s.coresKept t)))) ∧
    (∀ b n r, s.inRun = true → s.uart.shift = some b → tx = n :: r → s.test U0_CTRL_TXEN = true →
      s.test U0_CTRL_LOOP = false →
      Answers .uartTxByteSent s (fun t => t.uart = { s.uart with shift := some n, tx := r } ∧ s.memKept t ∧
        s.coresKept t))

/-- R7, R86, R89, R90, R355-R358, R363, R364: what fires and what is delivered. An armed core event that is the only
entry due fires: its line is pending and its status FIRED, or FIRED_PASSED at any later tick; a lattice event that is
due and alone in the channels reaches its event line; a channel in its storm is disabled and STORM is reported; a
task-mode write of a matrix channel is refused with PRIV_REFUSED. (Where the spec leaves a reading open, the model's
own: notes/assumptions 9, 24, 43, 46, 50, 51.) -/
def Obligations.ActionAndLatticeEffects : Prop :=
  ∀ s : State, s.inRun = true →
    (∀ (temp : BitVec 10) (c : CoreId) (e : Fin 16) (a : ActEntry), a.kind = 8 → a.status = .armed → a.resv = 0 →
      a.param.toNat < 32 → s.dueActs = [⟨c, e.val, a⟩] → Answers (.actionFire temp) s (fun t =>
        (t.core c).pend.getLsbD a.param.toNat = true ∧
        (t.core c).acts[e] = { a with status := if a.passed ∨ s.mesh ≠ a.fire then .firedPassed else .fired } ∧ t.regs = s.regs ∧
        s.othersKept t c)) ∧
    (∀ (ch : Fin 64) (f : Flight), s.lattice.flights = [f] → f.ch = ch.val → f.due ≤ s.lattice.cyc → f.cons < 0x80 →
      Answers (.latticeEventDelivery ch) s (fun t => t.lattice.flights = [] ∧ t.regs = s.regs ∧
        ∀ c : CoreId, c.val = f.cons / 32 → (t.core c).pend.getLsbD (f.cons % 32) = true ∧ s.othersKept t c)) ∧
    (∀ ch : Fin 64, 1024 ≤ (s.stormOf ch.val).2 → Answers (.storm ch) s (fun t =>
        t.test (LAT_CH_EN ch.val) = false ∧ t.test LAT_FLAGS_STORM = true ∧ (t.stormOf ch.val).2 = 0 ∧
        t.get LAT_SINFO_CHAN = ch.val ∧ t.test (faultBit 18) = true ∧ s.memKept t ∧ s.coresKept t)) ∧
    (∀ (c : CoreId) (ofs : BitVec 12) (v : W20), 0x0E0 ≤ ofs.toNat → ofs.toNat < 0x100 →
      (s.rg (CC_TASKPERM c.val)).getLsbD 3 = true → Answers (.latticeConfigWrite (.core c false) ofs v) s (fun t => t.test LAT_FLAGS_PRIV_REFUSED = true ∧
        s.regsKept t [LAT_FLAGS] ∧ s.memKept t ∧ s.coresKept t)) ∧
    (∀ (src : Source) (k : Fin 16) (v : W20), s.mayReach src (0xC3240 + 4 * k.val) = true → Answers (.latticeConfigWrite src (BitVec.ofNat 12 (0x240 + 4 * k.val)) v) s (fun t =>
      t.rg (0xC3240 + 4 * k.val) &&& 0x000FF = v &&& 0x000FF ∧ s.regsKept t [0xC3240 + 4 * k.val] ∧ s.memKept t ∧ s.coresKept t))

/-- R5, R101, R120, R122, R132: register writes and bus timeouts. A word write of MNG_LEAD by a master that may reach
it takes all 20 bits and no other register; one by a host without permission is refused with cause 1, one by task mode
without permission has no effect; a write at an address that is no multiple of 4 has no effect; a timeout of a core's
access through a gate raises DATA_FAULT with detail 5, and one of the host sets ERR with cause 4. (Where the spec
leaves a reading open, the model's own: notes/assumptions 2, 49.) -/
def Obligations.RegisterWriteAndTimeoutEffects : Prop :=
  ∀ s : State, s.clocked = true →
    (∀ (src : Source) (v : W20), s.mayReach src MNG_LEAD = true →
      Answers (.registerWrite src (BitVec.ofNat 20 MNG_LEAD) v) s (fun t =>
        t.rg MNG_LEAD = v ∧ s.regsKept t [MNG_LEAD] ∧ s.memKept t ∧ s.coresKept t)) ∧
    (∀ v : W20, s.power.phase = .run → (s.rg HSP_PERM).getLsbD 1 = false →
      exec (.registerWrite .host (BitVec.ofNat 20 MNG_LEAD) v) s =
        .next ((s.put HSP_FLAGS_CAUSE 1).put HSP_FLAGS_ERR 1)) ∧
    (∀ (c : CoreId) (v : W20), (s.rg (CC_TASKPERM c.val)).getLsbD 1 = false →
      exec (.registerWrite (.core c false) (BitVec.ofNat 20 MNG_LEAD) v) s = .next s) ∧
    (∀ (src : Source) (addr v : W20), addr.toNat % 4 ≠ 0 → exec (.registerWrite src addr v) s = .next s) ∧
    (∀ (c : CoreId) (a : W20), s.power.phase = .run → s.runs c = true → 0xA0000 ≤ a.toNat → a.toNat < 0xC0000 →
      (s.core c).act.getLsbD 4 = false → Answers (.busTimeout (.core c a)) s (fun t =>
        (t.core c).ecause = 0x30005 ∧ (t.core c).eaddr = a ∧ (t.core c).pc = 2 ∧ (t.core c).w = (s.core c).w ∧
        s.othersKept t c ∧ t.regs = s.regs ∧ s.memKept t)) ∧
    (s.power.phase = .run → Answers (.busTimeout .host) s (fun t =>
      t.test HSP_FLAGS_ERR = true ∧ t.get HSP_FLAGS_CAUSE = 4 ∧
      t.hitch = [s.hitchStatusByte, 0xFF, 0xFF, 0xFF, 0xE5, 0xFF] ∧ s.regsKept t [HSP_FLAGS] ∧ s.memKept t ∧ s.coresKept t))

/-- R126, R127, R481: the flash controller. A program of an idle controller takes its bytes from shared SRAM and sets
BUSY; a length of 0, above 256 or past the page's end is refused with CAUSE 3; an erase takes the whole erase block
that holds PAGE; a command while BUSY is refused with CAUSE 1. At its end the bytes are ANDed into the flash, or read
0xFF; every other byte of the flash and every byte of the RAMs reads as before. (Where the spec leaves a reading open,
the model's own: notes/assumptions 60.) -/
def Obligations.FlashControllerEffects : Prop :=
  ∀ s : State, s.clocked = true →
    let page := 256 * s.get FLC_ADDR_PAGE
    let src := s.get FLC_SRC_SRC
    (∀ (len : BitVec 9) (o : BitVec 8), s.test FLC_STATUS_BUSY = false → s.update.run = none → page < s.flashSize →
      (len.toNat ≠ 0 → len.toNat ≤ 256 → o.toNat + len.toNat ≤ 256 → src + len.toNat ≤ 0xA0000 →
        (∀ g, src / 4 ≤ g → g ≤ (src + len.toNat - 1) / 4 → s.chk g = .good) →
        Answers (.flashProgram len o) s (fun t => t.test FLC_STATUS_BUSY = true ∧
          t.flashOp = some ⟨false, page + o.toNat, len.toNat, s.bytes .sram src len.toNat⟩ ∧
          s.regsKept t [FLC_CMD, FLC_STATUS] ∧ s.memKept t ∧ t.cores = s.cores)) ∧
      (len.toNat = 0 ∨ 256 < o.toNat + len.toNat → Answers (.flashProgram len o) s (fun t =>
        t.test FLC_STATUS_ERR = true ∧ t.get FLC_STATUS_CAUSE = 3 ∧ t.flashOp = s.flashOp ∧ s.memKept t ∧
        s.coresKept t))) ∧
    (s.test FLC_STATUS_BUSY = false → s.update.run = none → page < s.flashSize →
      let sz := 2 ^ s.get FLC_INFO_ERASE_LOG2
      Answers .flashErase s (fun t => t.test FLC_STATUS_BUSY = true ∧
        t.flashOp = some ⟨true, page / sz * sz, sz, []⟩ ∧ s.regsKept t [FLC_CMD, FLC_STATUS] ∧ s.memKept t ∧
        t.cores = s.cores)) ∧
    (s.test FLC_STATUS_BUSY = true → Answers .flashErase s (fun t => t.test FLC_STATUS_ERR = true ∧
      t.get FLC_STATUS_CAUSE = 1 ∧ t.flashOp = s.flashOp ∧ s.regsKept t [FLC_STATUS] ∧ s.memKept t ∧ s.coresKept t)) ∧
    (∀ op, s.inRun = true → s.flashOp = some op → op.data.length ≤ op.len → Answers (.flashOpDone true) s (fun t =>
      t.flashOp = none ∧ t.test FLC_STATUS_DONE = true ∧ t.test FLC_STATUS_BUSY = false ∧
      (∀ i b, op.erase = false → op.data[i]? = some b → t.flashByte (op.ofs + i) = s.flashByte (op.ofs + i) &&& b) ∧
      (∀ i, i < op.len → op.erase = true → t.flashByte (op.ofs + i) = 0xFF) ∧
      (∀ f, f < op.ofs ∨ op.ofs + op.len ≤ f → t.flashByte f = s.flashByte f) ∧
      (∀ r a, t.byte r a = s.byte r a) ∧ s.regsKept t [FLC_STATUS] ∧ s.coresKept t)) ∧
    (∀ op, s.inRun = true → s.flashOp = some op → Answers (.flashOpDone false) s (fun t =>
      t.flashOp = none ∧ t.test FLC_STATUS_ERR = true ∧ t.get FLC_STATUS_CAUSE = 5 ∧ t.test FLC_STATUS_BUSY = false ∧
      (∀ f, f < op.ofs ∨ op.ofs + op.len ≤ f → t.flashByte f = s.flashByte f)))

/-- R340, R347, R350, R351: control of a DMA channel. START begins an IDLE channel's run with HOPS 0, and sets MISSED
on any other; ABORT ends a channel that fetches, with cause 5, and marks a descriptor in progress; RESUME of a HALTED
channel takes its descriptor, whose ranges it checks again, up at DONE; a W1C of HALT clears it; the engine that has
nothing left returns its charge. (Where the spec leaves a reading open, the model's own: notes/assumptions 27.) -/
def Obligations.DmaControlEffects : Prop :=
  ∀ s : State, s.clocked = true →
    (∀ ch : Fin 12, let n := ch.val
      let merges := s.test (DMA_CH_CFG_LSTART n) = true ∧ s.lattice.acts.contains (0x98 + n, s.lattice.cyc) = true
      (s.dmaSt n = 0 → ¬ merges → Answers (.dmaStart ch) s (fun t => t.dmaSt n = 1 ∧ t.rg (DMA_CH_HOPS n) = 0 ∧
        (t.holds 15 = true ∨ t.asked 15 = true) ∧ s.regsKept t [DMA_CH_HOPS n, DMA_CH_STAT n] ∧ s.memKept t ∧
        t.cores = s.cores)) ∧
      (s.dmaSt n ≠ 0 → ¬ merges → Answers (.dmaStart ch) s (fun t => t.test (DMA_CH_STAT_MISSED n) = true ∧
        t.dmaSt n = s.dmaSt n ∧ t.dma = s.dma ∧ s.regsKept t [DMA_CH_STAT n] ∧ s.memKept t ∧ t.cores = s.cores)) ∧
      (merges → Answers (.dmaStart ch) s (fun t => t.dmaSt n = s.dmaSt n ∧ t.test LAT_FLAGS_OVERLAP = true ∧ t.dma = s.dma ∧
        s.memKept t ∧ s.coresKept t)) ∧
      (s.test DMA_FLAGS_HALT = true → exec (.dmaAbort ch) s = .next s) ∧
      (s.dmaSt n = 0 → exec (.dmaAbort ch) s = .next s) ∧
      (s.dmaSt n = 1 → s.test DMA_FLAGS_HALT = false → Answers (.dmaAbort ch) s (fun t => t.dmaSt n = 0 ∧ t.get (DMA_CH_STAT_CAUSE n) = 5 ∧
        t.test DMA_FLAGS_ENDED = true ∧ t.dmaDesc n = none ∧ s.regsKept t [DMA_CH_STAT n, DMA_FLAGS] ∧ s.memKept t ∧
        s.coresKept t)) ∧
      (∀ d, s.dmaDesc n = some d → s.dmaSt n = 2 ∨ s.dmaSt n = 3 → s.dmaFinished n d = true →
        exec (.dmaAbort ch) s = .next s) ∧
      (∀ d, s.dmaDesc n = some d → s.dmaSt n = 2 ∨ s.dmaSt n = 3 → s.test DMA_FLAGS_HALT = false →
        s.dmaFinished n d = false → Answers (.dmaAbort ch) s (fun t =>
        t.dmaDesc n = some { d with aborted := true } ∧ t.regs = s.regs ∧ s.memKept t ∧ t.cores = s.cores)) ∧
      (∀ d, s.dmaDesc n = some d → s.dmaSt n = 4 → s.test DMA_FLAGS_HALT = false → d.src + d.srcLen ≤ 0xA0000 →
        d.dst + d.dstLen ≤ 0xA0000 → Answers (.dmaResume ch) s (fun t =>
        t.dmaSt n = 2 ∧ t.dmaDesc n = some { d with read := s.get (DMA_CH_DONE_VALUE n), carry := [], aborted := false } ∧
        (t.holds 15 = true ∨ t.asked 15 = true) ∧ s.regsKept t [DMA_CH_STAT n] ∧ s.memKept t ∧ t.cores = s.cores))) ∧
    exec .dmaHaltRelease s = .next (s.put DMA_FLAGS_HALT 0) ∧
    (s.inRun = true → s.dmaQuiet = true → Answers .dmaIdle s (fun t => t.holds 15 = false ∧ t.regs = s.regs ∧ s.memKept t ∧
      t.cores = s.cores))

/-- R338-R346: a DMA descriptor in shared SRAM. An owned one is taken (HOPS, CUR, DONE 0, state 2); one not owned ends
the channel with cause 2. Its next chunk in shared SRAM takes a credit with its bytes; a chunk is written to shared
SRAM and counted in DONE; a descriptor that has moved everything gets w7 with CODE 1 and its OWN bit cleared, and ends
its channel with cause 1 where it does not chain. (Where the spec leaves a reading open, the model's own:
notes/assumptions 27.) -/
def Obligations.DmaTransferEffects : Prop :=
  ∀ s : State, s.inRun = true → s.dmaLive = true →
    (∀ ch : Fin 12, let n := ch.val
      let a := s.get (DMA_CH_NEXT_ADDR n)
      let d := DmaDesc.ofBytes (s.bytes .sram a 24)
      s.dmaSt n = 1 → a + 24 ≤ 0xA0000 → s.get (DMA_CH_HOPS_VALUE n) < max 1 (s.get DMA_HOPLIM_LIMIT) →
      (∀ g, a / 4 ≤ g → g ≤ (a + 23) / 4 → s.chk g = .good) →
      (d.w0.getLsbD 19 = true → d.len ≠ 0 → d.bad = false → d.src + d.srcLen ≤ 0xA0000 → d.dst + d.dstLen ≤ 0xA0000 →
        Answers (.dmaDescriptorFetch ch) s (fun t => t.dmaDesc n = some d ∧ t.dmaSt n = 2 ∧
          t.get (DMA_CH_CUR_VALUE n) = a ∧ t.get (DMA_CH_DONE_VALUE n) = 0 ∧
          t.get (DMA_CH_HOPS_VALUE n) = s.get (DMA_CH_HOPS_VALUE n) + 1 ∧
          s.regsKept t [DMA_CH_HOPS n, DMA_CH_CUR n, DMA_CH_DONE n, DMA_CH_STAT n] ∧ s.memKept t ∧ t.cores = s.cores)) ∧
      (d.w0.getLsbD 19 = false → Answers (.dmaDescriptorFetch ch) s (fun t => t.dmaDesc n = none ∧ t.dmaSt n = 0 ∧
        t.get (DMA_CH_STAT_CAUSE n) = 2 ∧ t.test DMA_FLAGS_ENDED = true ∧
        s.regsKept t [DMA_CH_STAT n, DMA_FLAGS] ∧ s.memKept t ∧ s.coresKept t))) ∧
    (∀ (ch : Fin 12) (d : DmaDesc), s.dmaDesc ch.val = some d → s.dma.credits = [] → s.dmaTouch.dmaPick = some ch.val →
      d.srcFix = false → d.dstFix = false → d.down = false → d.read < d.len → d.src + d.len ≤ 0xA0000 →
      let a := d.src + d.read
      let m := min (64 - a % 64) (d.len - d.read)
      (∀ g, a / 4 ≤ g → g ≤ (a + m - 1) / 4 → s.chk g = .good) →
      Answers (.dmaChunkRead (ch.castLE (by omega))) s (fun t =>
        t.dmaDesc ch.val = some { d with read := d.read + m } ∧
        (t.dma.credits.map (fun c => (c.ch, c.addr, c.data, c.wrote))) =
          [(ch.val, d.dst + (a - d.src), some (s.bytes .sram a m), false)] ∧
        t.get CONS_DMA_HELD_SUM = 1 ∧ t.get CONS_DMA_FREE = 63 ∧ s.memKept t ∧ t.cores = s.cores)) ∧
    (∀ (c : Credit) (d : DmaDesc) (l : List Byte), s.dma.credits = [c] → c.rd = false → c.wrote = false → c.data = some l → c.ch < 12 →
      c.tag = .none → c.wids = [] → c.fin = false → s.dma.acks = [] → s.dmaDesc c.ch = some d → d.dstFix = false →
      d.down = false → l ≠ [] → c.addr % 64 + l.length ≤ 64 → c.addr + l.length ≤ 0xA0000 →
      (∀ g, c.addr / 4 ≤ g → g ≤ (c.addr + l.length - 1) / 4 → s.chk g = .good) →
      s.get (DMA_CH_HOPS_VALUE c.ch) = c.hop → s.get (DMA_CH_DONE_VALUE c.ch) + l.length < 2 ^ 20 →
      Answers .dmaChunkWritten s (fun t =>
        (∀ i (h : i < l.length), t.byte .sram (c.addr + i) = l[i]) ∧
        (∀ k, k < c.addr ∨ c.addr + l.length ≤ k → t.byte .sram k = s.byte .sram k) ∧
        t.get (DMA_CH_DONE_VALUE c.ch) = s.get (DMA_CH_DONE_VALUE c.ch) + l.length ∧ t.dma.credits = [] ∧
        t.cores = s.cores)) ∧
    (∀ (ch : Fin 12) (d : DmaDesc), let n := ch.val
      let a := s.get (DMA_CH_CUR_VALUE n)
      s.dmaDesc n = some d → s.dmaSt n = 2 → d.len ≤ d.read → d.aborted = false → d.barrier = false → d.irq = false →
      d.chain = false → s.dma.credits = [] → a % 4 = 0 → a + 24 ≤ 0xA0000 →
      (∀ g, a / 4 ≤ g → g ≤ (a + 23) / 4 → s.chk g = .good) → Answers (.dmaDescriptorComplete ch) s (fun t =>
        t.bytes .sram (a + 21) 3 = [0, 0, 1] ∧ t.bytes .sram a 3 = tripleOf (d.w0 &&& 0x7FFFF) ∧
        (∀ k, k < a ∨ a + 3 ≤ k → k < a + 21 ∨ a + 24 ≤ k → t.byte .sram k = s.byte .sram k) ∧
        t.dmaDesc n = none ∧ t.dmaSt n = 0 ∧ t.get (DMA_CH_STAT_CAUSE n) = 1 ∧ s.regsKept t [DMA_CH_STAT n] ∧
        t.cores = s.cores))

/-- R138, R139, R143, R144, R147: the radio's states and its receive LO. A request for STANDBY turns the crystal's
holder on; one for OFF returns every ration; a window opened in STANDBY asks for its receive set and goes to the ramp;
a window closed goes back to STANDBY; a transition is done when its ticks have run since its grant; an RX LO pair in
range applies, at the return from a turn where one is under way; a synthesizer that locks shows it. (Where the spec
leaves a reading open, the model's own: notes/assumptions 44, 45.) -/
def Obligations.RadioStateEffects : Prop :=
  ∀ s : State, s.inAir = true →
    let went := fun (t : State) (n : Nat) => t.rfe = n ∧ s.memKept t ∧ s.coresKept t
    (s.clocked = true → s.rfe = 0 → s.test CLK_STAT_REF_FAIL = false → Answers (.radioReq 1) s (fun t => went t 1 ∧
      t.get RFE_CTL_REQ = 1 ∧ (t.holds 5 = true ∨ t.asked 5 = true))) ∧
    (s.clocked = true → 1 ≤ s.rfe → s.rfe ≤ 4 → Answers (.radioReq 0) s (fun t => went t 0 ∧ t.radio.pins = 0 ∧ t.radio.tx = none ∧
      ∀ h ∈ [0, 1, 2, 4, 5, 6], t.holds h = false)) ∧
    (∀ ch : BitVec 2, ch ≠ 0 →
      (s.rfe = 2 → s.radio.cal = [] → Answers (.listenWindowOpen ch) s (fun t => went t 3 ∧ t.window = ch.toNat ∧
        ∀ h ∈ rxSet ch.toNat, t.holds h = true ∨ t.asked h = true)) ∧
      (s.rfe = 4 → Answers (.listenWindowOpen ch) s (fun t => went t 4 ∧ t.window = ch.toNat ∧
        t.radio.blankTo = max s.radio.blankTo (s.tick + 96)))) ∧
    (s.rfe = 3 ∨ s.rfe = 4 → Answers .listenWindowClose s (fun t => went t 2 ∧ t.window = 0 ∧
      ∀ h ∈ [0, 1, 2], h ∉ s.calNeeds → t.holds h = false)) ∧
    (∀ b, s.radio.since = some b →
      (s.rfe = 1 → 23040 ≤ s.tick - b → Answers .radioTransitionDone s (fun t => went t 2 ∧
        t.test RFE_STATE_RXLOCK = true)) ∧
      (s.rfe = 3 → 4608 ≤ s.tick - b → Answers .radioTransitionDone s (fun t => went t 4 ∧ t.radio.blankTo = 0)) ∧
      (s.rfe = 7 → s.radio.swapped = true → 1344 ≤ s.tick - b → s.get RFE_CTL_REQ ≠ 0 → s.winOpen ≠ 0 →
        Answers .radioTransitionDone s (fun t => went t 4 ∧ t.test RFE_GAINA_PEND = false ∧
          t.test RFE_GAINB_PEND = false)) ∧
      (s.rfe = 8 → s.radio.swapped = true → 1344 ≤ s.tick - b → s.get RFE_CTL_REQ ≠ 0 → s.winOpen = 0 →
        Answers .radioTransitionDone s (fun t => went t 2))) ∧
    (∀ (int : BitVec 7) (frac : W20), s.clocked = true →
      (loInRange int.toNat frac.toNat = false → Answers (.rxLoWrite int frac) s (fun t =>
        t.test RFE_FLAGS_CFG_REFUSED = true ∧ t.radio = s.radio ∧ s.memKept t ∧ s.coresKept t)) ∧
      (loInRange int.toNat frac.toNat = true → s.rfe ≤ 4 ∨ 8 < s.rfe → Answers (.rxLoWrite int frac) s (fun t =>
        t.radio.rxInt = int.toNat ∧ t.radio.rxFrac = frac ∧ (2 ≤ s.rfe → t.test RFE_STATE_RXLOCK = false) ∧
        s.memKept t ∧ s.coresKept t)) ∧
      (loInRange int.toNat frac.toNat = true → 5 ≤ s.rfe → s.rfe ≤ 8 → Answers (.rxLoWrite int frac) s (fun t =>
        t.radio = { s.radio with rxPend := some (int.toNat, frac) } ∧ t.get RFE_RXSYN_INT = int.toNat ∧ t.rg RFE_RXFRAC = frac ∧
        s.regsKept t [RFE_RXSYN, RFE_RXFRAC] ∧ s.memKept t ∧ s.coresKept t))) ∧
    (s.rfe = 5 → s.holds 6 = true → s.radio.txCal = none → s.radio.cal = [] → s.radio.txCaled = true →
      exec (.synthLock true) s = .next (s.put RFE_STATE_TXLOCK 1)) ∧
    (2 ≤ s.rfe → s.radio.rxCal = none → s.radio.cal = [] → Answers (.synthLock false) s (fun t =>
      t.test RFE_STATE_RXLOCK = true ∧ t.rfe = s.rfe ∧ s.memKept t ∧ s.coresKept t))

/-- R141, R142, R155, R158: gains, detectors and the amplifier's tables. A gain write shows PEND exactly when it is
held; an overload sets OVL and its flag; an energy window shows its level; a due step of a table whose pins no holder
bars puts its pins at its levels at once and names the next step's tick. -/
def Obligations.GainDetectorAndAmplifierEffects : Prop :=
  ∀ s : State, s.inAir = true →
    (∀ v : W20, s.clocked = true → Answers (.gainWrite false v) s (fun t =>
        t.rg RFE_GAINA = (v &&& 0x4039F) ||| (if v.getLsbD 18 then 0x80000 else 0) ∧ s.regsKept t [RFE_GAINA] ∧
        s.memKept t ∧ t.cores = s.cores) ∧
      Answers (.gainWrite true v) s (fun t =>
        t.rg RFE_GAINB = (v &&& 0x4039F) ||| (if v.getLsbD 18 then 0x80000 else 0) ∧ s.regsKept t [RFE_GAINB] ∧
        s.memKept t ∧ t.cores = s.cores)) ∧
    Answers (.overloadDetect false) s (fun t => t.test RFE_ENERGYA_OVL = true ∧ t.test RFE_FLAGS_OVLA = true ∧
      s.regsKept t [RFE_ENERGYA, RFE_FLAGS] ∧ s.memKept t ∧ s.coresKept t) ∧
    Answers (.overloadDetect true) s (fun t => t.test RFE_ENERGYB_OVL = true ∧ t.test RFE_FLAGS_OVLB = true ∧
      s.regsKept t [RFE_ENERGYB, RFE_FLAGS] ∧ s.memKept t ∧ s.coresKept t) ∧
    (∀ lv : BitVec 12, Answers (.energyWindowEnd false lv) s (fun t => t.get RFE_ENERGYA_LEVEL = lv.toNat ∧
        s.regsKept t [RFE_ENERGYA] ∧ s.memKept t ∧ t.cores = s.cores) ∧
      Answers (.energyWindowEnd true lv) s (fun t => t.get RFE_ENERGYB_LEVEL = lv.toNat ∧
        s.regsKept t [RFE_ENERGYB] ∧ s.memKept t ∧ t.cores = s.cores)) ∧
    (∀ p : PaRun, s.radio.pa = some p → let w := s.rg (0xC9080 + 0x40 * p.table + 8 * p.step)
      (∀ q ∈ [0, 1], (s.paAsserts (w.setWidth 15)).contains q = true → s.tiedGranted q = true) →
      let stepped := fun (t : State) => t.radio.pins = w.setWidth 15 ∧
        t.radio.pa = (if w.getLsbD 19 ∨ 7 ≤ p.step then none
          else some ⟨p.table, p.step + 1, s.tick + max 1 (s.rg (0xC9084 + 0x40 * p.table + 8 * p.step)).toNat, false⟩) ∧
        t.regs = s.regs ∧ s.memKept t ∧ t.cores = s.cores
      (p.wait = false → p.due ≤ s.tick → Answers .paStep s stepped) ∧ (p.wait = true → Answers .paStepGrant s stepped))

/-- R146-R148, R152-R154, R217: a transmission under way. From tick 1,344 the driver ramp starts once nothing holds
it, and the hold is recorded; at LIMIT it is abandoned with CODE 2 and LATE; 192 ticks after the ramp TALK is reached;
a mask point over its limit in two windows abandons it with CODE 3 and reports 13; a loss of TX lock in TALK with CODE
4 and 14; an abandoned slot leaves SENDING; at tick 192 of the turn back the transmit set returns, but for what a
calibration needs. (Where the spec leaves a reading open, the model's own: notes/assumptions 43, 50, 54.) -/
def Obligations.TransmissionEffects : Prop :=
  ∀ s : State, s.inAir = true →
    (∀ x : TxRun, s.radio.tx = some x → s.rfe = 5 → x.ramp = none →
      let n := s.tick - x.begun
      let ramped := fun (t : State) => t.get RFE_TXSTAT_HOLD = min (n - 1344) 0xFFFF ∧
        t.radio = { s.radio with tx := some { x with ramp := some s.tick } } ∧ s.regsKept t [RFE_TXSTAT] ∧ s.memKept t ∧
        t.cores = s.cores
      (1344 ≤ n → s.txFree = true → Answers .txHoldCheck s ramped) ∧
      (1344 ≤ n → s.txFree = false → exec .txHoldCheck s = .next { s with radio := { s.radio with
        tx := some { x with hold := some (x.begun + 1344) } } }) ∧
      (1344 + s.get RFE_TXLATE_LIMIT ≤ n → s.txFree = true → Answers .txLate s ramped) ∧
      (1344 + s.get RFE_TXLATE_LIMIT ≤ n → s.txFree = false → x.slot < 8 → Answers .txLate s (fun t =>
        t.get RFE_TXSTAT_CODE = 2 ∧ t.test RFE_FLAGS_LATE = true ∧ (t.rfe = 7 ∨ t.rfe = 8) ∧ t.radio.tx = none ∧
        t.test (FU_TX_CTL_SENDING x.slot) = false))) ∧
    (∀ (x : TxRun) (b : Nat), s.radio.tx = some x → x.ramp = some b → s.rfe = 5 → 192 ≤ s.tick - b →
      Answers .talkReached s (fun t => t.rfe = 6 ∧ (t.stopped = false → t.radio.tx = some x) ∧ s.memKept t ∧ s.coresKept t)) ∧
    (∀ meas : List (Nat × Nat), s.rfe = 6 →
      let pts := (meas.filter (fun e => e.1 < 8 && s.test (RFE_MASK_EN e.1) && e.2 < s.get (RFE_MASK_LIMIT e.1))).map (·.1)
      ((∀ k ∈ pts, k ∉ s.radio.maskPrev) → exec (.maskWindowEnd meas) s =
        .next { s with radio := { s.radio with maskPrev := pts } }) ∧
      ((∃ k ∈ pts, k ∈ s.radio.maskPrev) → Answers (.maskWindowEnd meas) s (fun t => t.get RFE_TXSTAT_CODE = 3 ∧
        t.test RFE_FLAGS_MASK_BREACH = true ∧ t.test (faultBit 13) = true ∧ (t.rfe = 7 ∨ t.rfe = 8) ∧
        t.radio.tx = none))) ∧
    (∀ temp : BitVec 10,
      (s.rfe = 6 → Answers (.lockLost true temp) s (fun t => t.get RFE_TXSTAT_CODE = 4 ∧
        t.test RFE_FLAGS_LOCK_LOST = true ∧ t.test (faultBit 14) = true ∧ t.test RFE_STATE_TXLOCK = false ∧
        t.test RFE_STATE_TCALP_TX = true ∧ (t.rfe = 7 ∨ t.rfe = 8) ∧ t.radio.tx = none)) ∧
      (s.rfe = 2 ∨ s.rfe = 4 → Answers (.lockLost false temp) s (fun t => t.test RFE_FLAGS_LOCK_LOST = true ∧
        t.test RFE_STATE_RXLOCK = false ∧ t.radio.rxCal = some ⟨some s.tick⟩ ∧ t.get RFE_TCALT_RX = temp.toNat ∧
        s.memKept t ∧ s.coresKept t))) ∧
    (∀ b, s.radio.turn = some b → s.rfe = 7 ∨ s.rfe = 8 → s.radio.swapped = false → 192 ≤ s.tick - b →
      (s.rfe = 8 ∨ s.winOpen = 0 → Answers .turnBackSwap s (fun t => (4 ∉ s.calNeeds → t.holds 4 = false) ∧
        t.radio.swapped = true ∧ t.radio.since = some s.tick ∧ s.memKept t ∧ t.cores = s.cores)) ∧
      (s.rfe = 7 → s.winOpen ≠ 0 → Answers .turnBackSwap s (fun t => t.radio.swapped = true ∧
        (t.radio.since = some s.tick ∧ (4 ∉ s.calNeeds → t.holds 4 = false) ∨
          t.test RFE_FLAGS_RX_HELD = true ∧ (s.holds 2 = false → t.asked 2 = true)) ∧ s.memKept t ∧ s.coresKept t)))

/-- R160-R162, R518: calibration. The step at the front of a commanded run begins once its rations are held, and ends
after its ticks, an IQ step with its trim; the run's last step sets CAL_DONE and clears BUSY; a die temperature shows
in DIE; a pending calibration whose conditions hold starts, and otherwise sets TCAL_DEFERRED; a synthesizer's
calibration ends after 3,456 ticks. (Where the spec leaves a reading open, the model's own: notes/assumptions 25, 45.)
-/
def Obligations.CalibrationEffects : Prop :=
  ∀ s : State, s.inAir = true →
    (∀ (temp : BitVec 10) (rest : List CalStep),
      let begins := fun (k : CalStep) (t : State) => (t.stopped = false → t.radio = { s.radio with calBegun := some s.tick }) ∧
        t.test RFE_STATE_CAL = true ∧ t.manger = s.manger ∧ s.memKept t ∧ s.coresKept t ∧
        (k = .rxsyn → t.get RFE_TCALT_RX = temp.toNat ∧ t.test RFE_STATE_RXLOCK = false) ∧
        (k = .txsyn → t.get RFE_TCALT_TX = temp.toNat)
      s.clocked = true → s.radio.calBegun = none →
      (s.radio.cal = .rxsyn :: rest → Answers (.calRxsyn temp) s (begins .rxsyn)) ∧
      (s.radio.cal = .txsyn :: rest → s.holds 6 = true → Answers (.calTxsyn temp) s (begins .txsyn)) ∧
      (s.radio.cal = .tpm :: rest → s.holds 6 = true → s.holds 4 = true → s.holds 0 = true →
        Answers (.calTpm temp) s (begins .tpm)) ∧
      (s.radio.cal = .iqa :: rest → s.holds 6 = true → s.holds 0 = true → Answers (.calIqa temp) s (begins .iqa)) ∧
      (s.radio.cal = .iqb :: rest → s.holds 6 = true → s.holds 1 = true → Answers (.calIqb temp) s (begins .iqb))) ∧
    (∀ (k : CalStep) (rest : List CalStep) (b : Nat) (trim : W20) (temp : BitVec 10), s.radio.cal = k :: rest → s.radio.calBegun = some b →
      k.ticks ≤ s.tick - b → Answers (.calStepDone trim temp) s (fun t => t.radio.cal = rest ∧ t.radio.calBegun = none ∧
        (k = .iqa → t.rg RFE_IQA = trim) ∧ (k = .iqb → t.rg RFE_IQB = trim) ∧ (k = .rxsyn → t.radio.rxCaled = true) ∧
        (k = .txsyn → t.radio.txCaled = true) ∧ s.memKept t ∧ s.coresKept t ∧
        (rest = [] → t.test RFE_FLAGS_CAL_DONE = true ∧ t.test RFE_CAL_BUSY = false))) ∧
    (∀ temp : BitVec 10, s.rfe ≠ 0 → Answers (.dieTempSample temp) s (fun t => t.get RFE_TEMP_DIE = temp.toNat ∧
      (s.test RFE_TCAL_AUTO_RX = true → s.radio.rxCaled = true → t.tempMoved RFE_TCALT_RX = true →
        t.test RFE_STATE_TCALP_RX = true) ∧
      (s.test RFE_TCAL_AUTO_TX = true → s.radio.txCaled = true → t.tempMoved RFE_TCALT_TX = true →
        t.test RFE_STATE_TCALP_TX = true) ∧
      s.regsKept t [RFE_TEMP, RFE_STATE] ∧ s.memKept t ∧ t.cores = s.cores)) ∧
    (∀ temp : BitVec 10, s.test RFE_STATE_TCALP_RX = true → s.test RFE_STATE_TCALP_TX = false →
      (s.tcalOk = true → s.radio.rxCal = none → s.test RFE_TCAL_RXDEFER = false ∨ s.rfe = 2 → Answers (.tempCalStart temp) s (fun t =>
        t.test RFE_STATE_TCALP_RX = false ∧ t.get RFE_TCALT_RX = temp.toNat ∧ t.test RFE_STATE_RXLOCK = false ∧
        (t.stopped = false → t.radio = { s.radio with rxCal := some ⟨some s.tick⟩ }) ∧ s.memKept t ∧ s.coresKept t)) ∧
      (s.tcalOk = false → s.radio.deferRx = false → Answers (.tempCalStart temp) s (fun t =>
        t.test RFE_FLAGS_TCAL_DEFERRED = true ∧ t.radio = { s.radio with deferRx := true } ∧
        s.regsKept t [RFE_FLAGS] ∧ s.memKept t ∧ s.coresKept t))) ∧
    (∀ b, s.radio.rxCal = some ⟨some b⟩ → 3456 ≤ s.tick - b → Answers (.synthCalDone false) s (fun t =>
      (t.stopped = false → t.radio = { s.radio with rxCal := none, rxCaled := true }) ∧ t.test RFE_STATE_RXLOCK = true ∧ s.memKept t ∧
      s.coresKept t)) ∧
    (∀ b, s.radio.txCal = some ⟨some b⟩ → 3456 ≤ s.tick - b → Answers (.synthCalDone true) s (fun t =>
      t.radio = { s.radio with txCal := none, txCaled := true } ∧ (s.rfe = 5 → t.test RFE_STATE_TXLOCK = true) ∧
      s.regsKept t [RFE_STATE] ∧ s.memKept t ∧ t.cores = s.cores))

/-- R164, R166, R168, R170, R187, R189, R191: the channel plan, the lane map, EN, and the descriptor pools. A plan is
taken in OFF or STANDBY; a map field of a position that is not enabled takes a lane that works and that no other
position carries, and of an enabled one is refused; EN follows its write, but for an action of the same tick, which is
applied after it, and an unmapped position is refused; a descriptor in PROGRAM is given back to the tail of its queue,
any other is refused; an idle pool takes its configuration. -/
def Obligations.PlanMapAndPoolEffects : Prop :=
  ∀ s : State, s.clocked = true → s.test STC_STATE_HALTER = false →
    (∀ v : W20, let n := v.toNat % 4
      let fits := (s.rfe = 0 ∨ s.rfe = 2) ∧ ∀ p : Pos, s.get (STL_CFG_RATE p.val) ≤ topRate n
      (fits → Answers (.stcPlanWrite v) s (fun t => t.get STC_PLAN_SPACING = n ∧ t.radio.blankTo = 2 ^ 64 ∧
        s.memKept t ∧ s.coresKept t)) ∧
      (¬ fits → Answers (.stcPlanWrite v) s (fun t => t.test STC_FLAGS_CFG_REFUSED = true ∧ s.regsKept t [STC_FLAGS] ∧
        s.memKept t ∧ s.coresKept t))) ∧
    (∀ (k : Fin 16) (v : W20), let lane := fun (i : Fin 3) => v.toNat / 64 ^ i.val % 64
      let at3 := fun (i : Fin 3) => laneOf (3 * k.val + i.val)
      ((∀ i : Fin 3, s.test (STL_CFG_EN (3 * k.val + i.val)) = false ∧ s.laneFailed (lane i) = false ∧
          (lane i = 63 ∨ (∀ p : Pos, p.val / 3 ≠ k.val → s.get (laneOf p.val) ≠ lane i) ∧
            ∀ j : Fin 3, j ≠ i → lane j ≠ lane i)) →
        Answers (.stcMapWrite k v) s (fun t => (∀ i : Fin 3, t.get (at3 i) = lane i) ∧
          t.get FLT_SPARE_LANES = ([48, 49, 50, 51].filter t.laneMap.contains).length ∧
          s.regsKept t [STC_MAP k.val, FLT_SPARE] ∧ s.memKept t ∧ t.cores = s.cores)) ∧
      (∀ i : Fin 3, s.test (STL_CFG_EN (3 * k.val + i.val)) = true → s.get (at3 i) ≠ lane i →
        Answers (.stcMapWrite k v) s (fun t => t.get (at3 i) = s.get (at3 i) ∧ t.test STC_FLAGS_CFG_REFUSED = true ∧
          s.memKept t ∧ s.coresKept t))) ∧
    (∀ (p : Pos) (en act : Bool), let acted := fun (e : Bool) => ∃ o, (s.stall p.val).acted = some (s.tick, e, o)
      ((en = false ∨ s.mapped p.val = true) → act = true ∨ (∀ e, ¬ acted e) → Answers (.stallEnable p en act) s (fun t =>
        t.test (STL_CFG_EN p.val) = en ∧ s.memKept t ∧ s.coresKept t)) ∧
      (∀ e, acted e → s.mapped p.val = true → Answers (.stallEnable p en false) s (fun t =>
        t.test (STL_CFG_EN p.val) = e ∧ s.memKept t ∧ s.coresKept t)) ∧
      (en = true → s.mapped p.val = false → s.test (STL_CFG_EN p.val) = false → act = true ∨ (∀ e, ¬ acted e) → Answers (.stallEnable p en act) s (fun t =>
        t.test (STL_CFG_EN p.val) = false ∧ (act = false → t.test STC_FLAGS_CFG_REFUSED = true) ∧
        s.memKept t ∧ s.coresKept t))) ∧
    (∀ v : W20, let q := poolIx (v.toNat / 256)
      let i := v.toNat % 256
      (i < s.get (STC_POOL_CFG_COUNT q.val) → s.desc q i = .program → Answers (.stcGive v) s (fun t =>
        t.desc q i = .free ∧ (t.pool q).queue = (s.pool q).queue ++ [i] ∧ s.memKept t ∧ s.coresKept t)) ∧
      (s.get (STC_POOL_CFG_COUNT q.val) ≤ i ∨ s.desc q i ≠ .program → Answers (.stcGive v) s (fun t =>
        t.test STC_FLAGS_GIVE_REFUSED = true ∧ t.pools = s.pools ∧ s.regsKept t [STC_FLAGS] ∧ s.memKept t ∧
        s.coresKept t))) ∧
    (∀ (q : Fin 2) (v : W20), let count := v.toNat % 512
      let size := v.toNat / 512 % 64
      ((s.pool q).st = [] → s.poolNamed q = false →
        exec (.poolConfigWrite q .buf v) s = .next (s.setRg (STC_POOL_BUF q.val) v) ∧
        exec (.poolConfigWrite q .desc v) s = .next (s.setRg (STC_POOL_DESC q.val) v) ∧
        (1 ≤ size → size ≤ 32 → count ≤ 256 → s.get (STC_POOL_BUF_BASE q.val) + 64 * size * count ≤ 0xA0000 →
          s.get (STC_POOL_DESC_BASE q.val) + 24 * count ≤ 0xA0000 → Answers (.poolConfigWrite q .cfg v) s (fun t =>
            t.rg (STC_POOL_CFG q.val) = v &&& 0x7FFF ∧ t.pool q = ⟨List.range count, []⟩ ∧
            s.regsKept t [STC_POOL_CFG q.val] ∧ s.memKept t ∧ t.cores = s.cores))) ∧
      (∀ w : PoolReg, (s.pool q).st ≠ [] ∨ s.poolNamed q = true → Answers (.poolConfigWrite q w v) s (fun t =>
        t.test STC_FLAGS_CFG_REFUSED = true ∧ t.pools = s.pools ∧ s.regsKept t [STC_FLAGS] ∧ s.memKept t ∧
        s.coresKept t)))

/-- R173-R181: a stall from preamble to sync. A detected preamble goes to the aerial choice under diversity, and else
to SYNCWAIT on its one aerial; the choice takes the aerial of the larger mean QUAL; hard decisions that differ from
the sync word in at most ERRS of LEN positions match; a declared sync takes the descriptor at the head of its pool's
queue (what higher positions took in the same tick moves down), with mesh time as its timestamp, or counts NODESC
where there is none; no sync in time counts NOSYNC (that the count has then passed SYNC_TO is the model's reading); a
read of TSLO takes the snapshot of the sync record. (Where the spec leaves a reading open, the model's own:
notes/assumptions 52.) -/
def Obligations.StallEffects : Prop :=
  ∀ (p : Pos) (s : State), s.inAir = true →
    let st := s.get (STL_STATUS_STATE p.val)
    let x := s.stall p.val
    let sym := s.symTicks p.val
    let q := poolIx (s.get (STL_CFG_POOL p.val))
    (∀ a b : BitVec 10, st = 2 → x.search + max 4 (s.get STC_RXCFG_PDET) * sym ≤ s.tick →
      (s.aerialOn p.val false = true ∧ s.get STC_DETCFG_PTHR ≤ a.toNat) ∨
        (s.aerialOn p.val true = true ∧ s.get STC_DETCFG_PTHR ≤ b.toNat) →
      (s.diversity p.val = true → Answers (.preambleDetect p a b) s (fun t => t.get (STL_STATUS_STATE p.val) = 3 ∧
        t.stall p.val = { x with heard := s.tick } ∧ s.regsKept t [STL_STATUS p.val] ∧ s.memKept t ∧ t.cores = s.cores)) ∧
      (s.diversity p.val = false → Answers (.preambleDetect p a b) s (fun t => t.get (STL_STATUS_STATE p.val) = 4 ∧
        (t.stall p.val).choice = s.tick ∧ (t.stall p.val).onB = s.aerialOn p.val true ∧
        s.regsKept t [STL_STATUS p.val] ∧ s.memKept t ∧ t.cores = s.cores))) ∧
    (∀ a b : BitVec 10, st = 3 → x.heard + max 1 (s.get STC_RXCFG_DWIN) * sym ≤ s.tick →
      Answers (.aerialChoice p a b) s (fun t => t.get (STL_STATUS_STATE p.val) = 4 ∧
      (t.stall p.val).onB = decide (a.toNat < b.toNat) ∧ (t.stall p.val).choice = s.tick ∧
      s.regsKept t [STL_STATUS p.val] ∧ s.memKept t ∧ t.cores = s.cores)) ∧
    (∀ rxA rxB : AerialRx, st = 2 → x.search + s.get (STL_SYNCHI_LEN p.val) * sym ≤ s.tick →
      s.aerialOn p.val false = true → s.aerialOn p.val true = false →
      let word := BitVec.ofNat 32 (s.get (STL_SYNCHI_HI p.val) * 2 ^ 20 + s.get (STL_SYNCLO_LO p.val))
      let wrong := (List.range (s.get (STL_SYNCHI_LEN p.val))).countP (fun i => rxA.hard.getLsbD i != word.getLsbD i)
      s.declares p.val rxA rxB = if wrong ≤ s.get (STL_SYNCHI_ERRS p.val) then some false else none) ∧
    (∀ rxA rxB : AerialRx, s.declares p.val rxA rxB = none → exec (.syncDeclared p rxA rxB) s = .next s) ∧
    (∀ (rxA rxB : AerialRx) (onB : Bool), s.declares p.val rxA rxB = some onB → st ≠ 5 →
      (∀ i r, (s.pool q).queue = i :: r → i < 256 → Answers (.syncDeclared p rxA rxB) s (fun t =>
        t.get (STL_STATUS_STATE p.val) = 5 ∧ t.test (STL_STATUS_HOLDS p.val) = true ∧
        t.get (STL_STATUS_AERIAL p.val) = bit onB ∧ (t.stall p.val).sync = s.syncRec p.val onB rxA rxB ∧
        (t.stall p.val).sync.ts = s.mesh ∧ t.desc q i = .stall ∧ (t.pool q).queue = r ∧
        (s.tookAbove q p.val = [] → t.get (STL_STATUS_INDEX p.val) = i) ∧ s.memKept t ∧ s.coresKept t)) ∧
      ((s.pool q).queue = [] → s.tookAbove q p.val = [] → Answers (.syncDeclared p rxA rxB) s (fun t =>
        t.get (STL_STATUS_STATE p.val) = 2 ∧ t.get (STL_STATUS_LAST p.val) = 5 ∧
        t.get (STL_STATUS_AERIAL p.val) = bit onB ∧ t.test STC_FLAGS_NODESC = true ∧ t.pools = s.pools ∧ s.memKept t ∧
        s.coresKept t))) ∧
    (st = 4 → x.knock = none → x.choice + (max 1 (s.get STC_SYNCTO_SYNC_TO) + 1) * sym ≤ s.tick →
      Answers (.nosync p) s (fun t => t.get (STL_STATUS_STATE p.val) = 2 ∧ t.get (STL_STATUS_LAST p.val) = 6 ∧
        s.regsKept t [STL_STATUS p.val, STL_CNT3 p.val] ∧ s.memKept t ∧ t.cores = s.cores)) ∧
    (let r := (s.stall p.val).sync
     s.clocked = true → Answers (.stlTsloRead p) s (fun t => t.get40 (STL_TSLO p.val) (STL_TSHI p.val) = r.ts ∧
      t.rg (STL_FOFS p.val) = r.fofs.setWidth 20 ∧
      t.rg (STL_RSSI p.val) = BitVec.ofNat 20 (bit r.ovl * 2 ^ 13 + bit r.onB * 2 ^ 12 + r.rssi.toNat) ∧
      t.rg (STL_QUAL p.val) = BitVec.ofNat 20 (r.other.toNat * 2 ^ 10 + r.qual.toNat) ∧
      s.regsKept t [STL_TSLO p.val, STL_TSHI p.val, STL_FOFS p.val, STL_RSSI p.val, STL_QUAL p.val] ∧ s.memKept t ∧
      t.cores = s.cores))

/-- R185, R188, R200, R208-R216: the frame unit. A header that fails its check ends the packet with HEADER_BAD, one
too long for its buffer with OVERSIZE, and any other opens the body, its bits decided by the sums of the soft values
of both copies; a block joins the decoder's queue with its soft values; the decoder takes it, ends no earlier than its
cycles have run, and reports in DEC_LAST; a packet's last symbol passes its descriptor to FRAME, and an uncoded body
whose check holds goes to its buffer, then its record; READY = 1 is taken exactly when the slot's fields are in range.
(Where the spec leaves a reading open, the model's own: notes/assumptions 13, 54.) -/
def Obligations.FrameUnitEffects : Prop :=
  ∀ s : State,
    (∀ (p : Pos) (id : Nat) (f : Frame) (soft : List Int), s.inAir = true → (s.stall p.val).frame = some id → s.frameOf id = some f →
      f.headed = false → s.get (STL_STATUS_STATE p.val) = 5 → f.headTick ≤ s.tick →
      let at_ := fun i => (soft[i]?).getD 0
      let v := bitsNat (s.decisions (if f.sun then (List.range 16).map at_
        else (List.range 32).map (fun i => at_ i + at_ (32 + i)))).1
      let size := s.bufSize (poolIx f.pool)
      let j := if f.sun then judgeSun size v else judgeNative (s.test STC_STATE_HALTER) size (BitVec.ofNat 32 v)
      (j = .bad → Answers (.headerReceived p soft) s (fun t => t.get (STL_STATUS_STATE p.val) = 2 ∧
        t.test FU_FLAGS_HEADER_BAD = true ∧ s.memKept t ∧ s.coresKept t)) ∧
      (j = .oversize → Answers (.headerReceived p soft) s (fun t => t.get (STL_STATUS_STATE p.val) = 2 ∧
        t.get (STL_STATUS_LAST p.val) = 4 ∧ t.test STC_FLAGS_OVERSIZE = true ∧ s.memKept t ∧ s.coresKept t)) ∧
      (∀ len rate bs mode, j = .ok len rate bs mode → (s.jobsOf f.pos).length < 3 →
        Answers (.headerReceived p soft) s (fun t => t.frameOf id = some { f with
          hdr := BitVec.ofNat 20 (if f.sun then v else v / 2 ^ 12), headed := true, len := len, rate := rate, bs := bs,
          mode := mode, blocks := List.replicate (blockCount len rate bs) none } ∧ t.regs = s.regs ∧ s.memKept t ∧
          t.cores = s.cores))) ∧
    (∀ (p : Pos) (f : Frame) (soft : List Int), s.inAir = true → s.blockFrame p.val = some f → f.blockTick f.queued ≤ s.tick →
      f.queued + 1 = f.blocks.length ∨ (s.jobsOf p.val).length < 2 → Answers (.blockQueued p soft) s (fun t =>
        t.frame.jobs = s.frame.jobs ++ [⟨f.id, f.queued, f.pos, s.tick, false, soft⟩] ∧
        t.frameOf f.id = some { f with queued := f.queued + 1 } ∧ (t.holds 3 = true ∨ t.asked 3 = true) ∧
        t.regs = s.regs ∧ s.memKept t ∧ t.cores = s.cores)) ∧
    (∀ j : Job, s.inRun = true → s.frame.running = none → s.holds 3 = true → s.frame.jobs = [j] → Answers .decodeStart s (fun t =>
      t.frame.running = some j ∧ t.frame.jobs = [] ∧ t.frame.begun = s.tick ∧
      t.frame.iter = (if s.get DEC_CTL_ITER = 0 then 16 else s.get DEC_CTL_ITER) ∧ t.regs = s.regs ∧ s.memKept t ∧
      t.cores = s.cores)) ∧
    (∀ (j : Job) (f : Frame) (iters : Nat) (inf par : List Bool), s.inRun = true → s.frame.running = some j → s.frame.dead = none →
      s.frameOf j.frame = some f → f.last = false → j.block ≠ 0 → iters ≤ s.frame.iter →
      48 * (40 + iters * iterCycles f.rate) ≤ 125 * (s.tick - s.frame.begun) →
      let bits := codeKnown f.rate f.bs (blockData f.len f.rate f.bs j.block) (bitsTo (24 * codeZ f.bs) (inf ++ par))
      let zero := synZero f.rate f.bs bits
      let k := codeK f.rate f.bs / 8
      let info := packMsb k bits
      (1 ≤ iters ∧ zero = true) ∨ iters = s.frame.iter →
      (crc24 info = 0 → Answers (.decodeDone iters inf par) s (fun t =>
        t.frameOf j.frame = some { f with blocks := f.blocks.set j.block (some (.good (info.take (k - 3)))) } ∧
        t.frame.running = none ∧
        t.rg DEC_LAST = BitVec.ofNat 20 (iters * 2 ^ 15 + bit zero * 2 ^ 14 + 2 ^ 13 + j.pos) ∧ s.regsKept t [DEC_LAST] ∧
        s.memKept t ∧ t.cores = s.cores)) ∧
      (crc24 info ≠ 0 → Answers (.decodeDone iters inf par) s (fun t =>
        t.frameOf j.frame = some { f with blocks := f.blocks.set j.block (some (.crcBad (info.take (k - 3)))) } ∧
        t.frame.running = none ∧ t.test FU_FLAGS_BLOCK_FAIL = true ∧ s.memKept t ∧ s.coresKept t))) ∧
    (∀ (j : Job) (f : Frame) (iters : Nat) (inf par : List Bool), s.inRun = true → s.frame.running = some j → s.frame.dead = none →
      s.frameOf j.frame = some f → 125 * (s.tick - s.frame.begun) < 48 * (40 + iters * iterCycles f.rate) →
      exec (.decodeDone iters inf par) s = .next s) ∧
    (∀ b, s.inRun = true → s.frame.idleAt = some b → b < s.tick → s.frame.running = none → s.frame.jobs = [] →
      s.test DEC_CTL_HOLD = false → Answers .decoderIdle s (fun t => t.holds 3 = false ∧ t.frame.idleAt = none ∧
        t.regs = s.regs ∧ s.memKept t ∧ t.cores = s.cores)) ∧
    (∀ hold : Bool, s.clocked = true → Answers (.decHoldWrite hold) s (fun t => t.test DEC_CTL_HOLD = hold ∧
      (hold = true → t.holds 3 = true ∨ t.asked 3 = true) ∧ s.regsKept t [DEC_CTL] ∧ s.memKept t ∧ t.cores = s.cores)) ∧
    (∀ (p : Pos) (f : Frame) (body : List Bool), s.inAir = true → s.packetFrame p.val = some f → f.lastTick ≤ s.tick → f.last = false →
      f.sun = false → f.rate = 3 → f.mode = 1 → f.blocks = [none] → f.len ≠ 0 → f.pool < 2 →
      let all := packMsb (f.len + 3) (whiten body)
      let q := poolIx f.pool
      all.length = f.len + 3 → crc24 all = 0 → Answers (.packetReceived p body) s (fun t =>
        t.get (STL_STATUS_LAST p.val) = 1 ∧ t.test (STL_STATUS_HOLDS p.val) = false ∧ t.desc q f.idx = .frame ∧
        t.dma.blk[(0 : Fin 5)].map (fun x => (x.addr, x.data)) =
          s.dma.blk[(0 : Fin 5)].map (fun x => (x.addr, x.data)) ++
            [(s.bufAt q f.idx, all.take f.len),
             (s.recAt q f.idx + 3, recordBody f.len f.hdr f.sync), (s.recAt q f.idx, recordHead 0 q.val f.pos)] ∧
        s.memKept t ∧ t.cores = s.cores)) ∧
    (∀ (k : Fin 16) (v : W20), s.clocked = true → s.test (FU_TX_CTL_READY k.val) = false →
      (v.getLsbD 19 = false → exec (.txSlotReadyWrite k v) s = .next (s.setRg (FU_TX_CTL k.val) (v &&& 0x3FFE0))) ∧
      (v.getLsbD 19 = true → let u := s.setRg (FU_TX_CTL k.val) (v &&& 0x3FFE0)
        (u.txValid k.val = true → exec (.txSlotReadyWrite k v) s = .next (u.put (FU_TX_CTL_READY k.val) 1)) ∧
        (u.txValid k.val = false → Answers (.txSlotReadyWrite k v) s (fun t => t.test FU_FLAGS_CFG_REFUSED = true ∧
          t.test (FU_TX_CTL_READY k.val) = false ∧ s.regsKept t [FU_TX_CTL k.val, FU_FLAGS] ∧ s.memKept t ∧
          s.coresKept t))))

/-- R224-R229, R245: the slot schedule. At a boundary ASN moves by 1, START by the active slot length, and the staged
length becomes active; staged values out of range are refused; LOAD takes ASN and START; RUN brings them to the
present slot; a read of ASNLO takes the snapshot; a step moves mesh time by its value. (Where the spec leaves a
reading open, the model's own: notes/assumptions 30.) -/
def Obligations.SlotScheduleEffects : Prop :=
  ∀ s : State, s.notDormant = true →
    let c := s.sched
    let len := s.get SCH_SLOTLEN_LEN
    (s.test SCH_CTL_RUN = true → s.reached (c.start + BitVec.ofNat 40 c.slotLen) = true →
      Answers .slotBoundary s (fun t => t.sched.asn = c.asn + 1 ∧ t.sched.start = c.start + BitVec.ofNat 40 c.slotLen ∧
        t.sched.slotLen = len ∧ t.test SCH_FLAGS_SLOT = true ∧ t.mesh = s.mesh ∧ s.coresKept t)) ∧
    (∀ v : W20, s.clocked = true →
      (let fits := 38400 ≤ v.toNat ∧ v.toNat ≤ 1036800 ∧ s.get SCH_SYNCOFS_OFS < v.toNat
       (fits → exec (.schSlotlenWrite v) s = .next (s.setRg SCH_SLOTLEN v)) ∧
       (¬ fits → Answers (.schSlotlenWrite v) s (fun t => t.test SCH_FLAGS_CFG_REFUSED = true ∧
         s.regsKept t [SCH_FLAGS] ∧ s.memKept t ∧ s.coresKept t))) ∧
      (let fits := v.toNat < c.slotLen ∧ v.toNat < len
       (fits → exec (.schSyncofsWrite v) s = .next (s.setRg SCH_SYNCOFS v)) ∧
       (¬ fits → Answers (.schSyncofsWrite v) s (fun t => t.test SCH_FLAGS_CFG_REFUSED = true ∧
         s.regsKept t [SCH_FLAGS] ∧ s.memKept t ∧ s.coresKept t)))) ∧
    (let start := s.get40 SCH_LDSTARTLO SCH_LDSTARTHI
     s.clocked = true → (s.mesh - start).toNat < len → Answers .schLoad s (fun t => t.sched.asn = s.get40 SCH_LDASNLO SCH_LDASNHI ∧
       t.sched.start = start ∧ t.sched.slotLen = len ∧ s.memKept t ∧ s.coresKept t)) ∧
    (let k := (s.mesh - c.start).toNat / max 1 c.slotLen
     s.clocked = true → s.test SCH_CTL_RUN = false → (s.mesh - c.start).toNat < 2 ^ 39 → Answers .schRunSet s (fun t =>
       t.test SCH_CTL_RUN = true ∧ t.sched.asn = c.asn + BitVec.ofNat 40 k ∧
       t.sched.start = c.start + BitVec.ofNat 40 (k * max 1 c.slotLen) ∧ s.regsKept t [SCH_CTL] ∧ s.memKept t ∧
       t.cores = s.cores)) ∧
    (s.clocked = true → Answers .schAsnloRead s (fun t => t.get40 SCH_ASNLO SCH_ASNHI = c.asn ∧ t.get40 SCH_STARTLO SCH_STARTHI = c.start ∧
      s.regsKept t [SCH_ASNLO, SCH_ASNHI, SCH_STARTLO, SCH_STARTHI] ∧ s.memKept t ∧ t.cores = s.cores)) ∧
    (∀ (k : Fin 21) (v : W20), s.clocked = true → v.toNat % 64 ≤ 47 → v.toNat / 64 % 64 ≤ 47 → v.toNat / 4096 % 64 ≤ 47 →
      Answers (.hopWrite (some (k.castLE (by omega))) v) s (fun t => t.get (HOP_E0 k.val) = v.toNat % 64 ∧
        t.get (HOP_E1 k.val) = v.toNat / 64 % 64 ∧ t.get (HOP_E2 k.val) = v.toNat / 4096 % 64 ∧
        s.regsKept t [HOP k.val] ∧ s.memKept t ∧ t.cores = s.cores)) ∧
    (∀ v : W20, s.clocked = true → 1 ≤ v.toNat % 128 → v.toNat % 128 ≤ 64 → exec (.hopWrite none v) s =
      .next (s.put SCH_HOPLEN_L (v.toNat % 128))) ∧
    (s.clocked = true → exec .schHopqRead s = .next s) ∧
    (∀ d : W40, Answers (.meshTimeStep d) s (fun t => t.mesh = s.mesh + d)) ∧
    (∀ d : W40, d ≠ 0 → s.test SCH_CTL_RUN = false → s.nbCount = 0 → c.sweep = false →
      (∀ n : Fin 4, s.test (KC_INFO_VALID n.val) = false) → Answers (.meshTimeStep d) s (fun t => t.mesh = s.mesh + d ∧
        t.sched = { c with sweep := true } ∧ t.test NBT_STAT_BUSY = true ∧ s.regsKept t [SCH_ERA, NBT_STAT] ∧
        s.memKept t)) ∧
    (c.sweep = true → c.sweepQ = [] → c.samples = [] → exec .stepSweepDone s =
      .next ({ s with sched := { c with sweep := false } }.put NBT_STAT_BUSY (bit c.busy)))

/-- R234, R235, R239, R242, R243, R246: the neighbour table's commands on a record of shared SRAM, and knocks. FIND
shows the record of the key; ADD makes an EMPTY record of the key's probe sequence ACQUIRE with that key; CLEAR
empties it; MISS counts, but not in the tick of an accepted sample of its record; SET takes the staged time, offset
and drift; PREDICT shows the record's drift and prediction; TSRC1 and TSRC0 set and clear its bit; each sets BUSY
until it is done; a caught knock and its countdown fill a catch record. (Where the spec leaves a reading open, the
model's own: notes/assumptions 12, 30.) -/
def Obligations.NeighbourTableEffects : Prop :=
  ∀ s : State,
    (∀ i : BitVec 11, let k := i.toNat
      let a := s.nbAt k
      let w := s.rpwAt k
      let key := s.get32 NBT_KEYLO NBT_KEYHI
      let r := s.nb k
      let tm := s.get40 NBT_TLO NBT_THI
      let done := fun (t : State) (res : Nat) => t.test NBT_STAT_BUSY = true ∧ t.get NBT_STAT_RESULT = res ∧
        t.get NBT_STAT_INDEX = k ∧ t.sched.busy = true ∧ s.coresKept t ∧
        ∀ x, (x < a ∨ a + 24 ≤ x) → (x < w ∨ w + 3 ≤ x) → t.byte .sram x = s.byte .sram x
      s.clocked = true → s.test NBT_STAT_BUSY = false → s.test NBT_SIZE_EN = true → k < s.nbCount → a + 30 ≤ 0xA0000 → w + 3 ≤ 0xA0000 →
      (w + 3 ≤ a ∨ a + 30 ≤ w) → (∀ g, a / 4 ≤ g → g ≤ (a + 29) / 4 → s.chk g = .good) →
      (∀ g, w / 4 ≤ g → g ≤ (w + 2) / 4 → s.chk g = .good) →
      (s.nbFind key = some k → Answers .nbtFind s (fun t => done t 1 ∧ s.memKept t ∧ s.regsKept t [NBT_STAT])) ∧
      (r.st = 0 → k ∈ s.nbProbe key → s.nbFind key = none → Answers (.nbtAdd i) s (fun t => done t 0 ∧
        (t.nb k).st = 1 ∧ (t.nb k).addr = key ∧ (t.nb k).nsamp = 0 ∧ (t.nb k).ofs = 0 ∧ s.regsKept t [NBT_STAT])) ∧
      Answers (.nbtClear i) s (fun t => done t 0 ∧ (t.nb k).st = 0 ∧ s.regsKept t [NBT_STAT]) ∧
      ((s.tick, k) ∈ s.sched.taken → r.st ≠ 0 → Answers (.nbtMiss i) s (fun t => done t 0 ∧ s.memKept t ∧
        s.regsKept t [NBT_STAT])) ∧
      ((s.tick, k) ∉ s.sched.taken → r.st = 1 ∨ r.st = 3 → Answers (.nbtMiss i) s (fun t => done t 0 ∧ (t.nb k).miss = min 7 (r.miss + 1) ∧
        (t.nb k).st = r.st ∧ (t.nb k).addr = r.addr ∧ s.regsKept t [NBT_STAT])) ∧
      ((s.tick, k) ∉ s.sched.taken → r.st = 2 → max 1 (s.get NBT_CFG_MISS_LIMIT) ≤ min 7 (r.miss + 1) → Answers (.nbtMiss i) s (fun t => done t 0 ∧
        (t.nb k).st = 3 ∧ t.test SCH_FLAGS_LOST = true)) ∧
      (r.st ≠ 0 → Answers (.nbtSet i) s (fun t => done t 0 ∧ (t.nb k).st = 2 ∧ (t.nb k).last = tm ∧
        (t.nb k).ofs = (s.get40 NBT_OFSLO NBT_OFSHI).toInt ∧ (t.nb k).nsamp = 1 ∧ (t.nb k).miss = 0 ∧
        (t.nb k).addr = r.addr ∧ s.regsKept t [NBT_STAT])) ∧
      (r.st = 2 ∨ r.st = 3 → r.si = 0 → Answers (.nbtPredict i) s (fun t => done t 0 ∧ s.memKept t ∧
        t.get40 NBT_OFSLO NBT_OFSHI = BitVec.ofInt 40 (s.nbPred r tm) ∧ t.rg NBT_DRIFT = BitVec.ofInt 20 r.drift ∧
        s.regsKept t [NBT_OFSLO, NBT_OFSHI, NBT_DRIFT, NBT_HALF, NBT_SENDH, NBT_STAT])) ∧
      (r.st ≠ 0 → Answers (.nbtTsrc1 i) s (fun t => done t 0 ∧ (t.nb k).tsrc = true ∧ (t.nb k).st = r.st ∧
        s.regsKept t [NBT_STAT])) ∧
      Answers (.nbtTsrc0 i) s (fun t => done t 0 ∧ (t.nb k).tsrc = false ∧ (t.nb k).st = r.st ∧
        s.regsKept t [NBT_STAT])) ∧
    (s.inRun = true → s.sched.busy = true → s.sched.samples = [] → exec .nbtCommandDone s =
      .next ({ s with sched := { s.sched with busy := false } }.put NBT_STAT_BUSY (bit s.sched.sweep))) ∧
    (∀ (p : Pos) (rxA rxB : AerialRx), s.inAir = true → 2 ≤ s.get (STL_STATUS_STATE p.val) → s.get (STL_STATUS_STATE p.val) ≤ 4 →
      (s.stall p.val).knock = none → s.knockOn p.val = true → s.get (STL_SYNCHI_LEN p.val) = 32 →
      (s.stall p.val).search + 32 * s.symTicks p.val ≤ s.tick →
      32 ≤ s.syncDiff p.val 32 rxA.hard + s.get (STL_SYNCHI_ERRS p.val) → s.aerialOn p.val false = true →
      s.knockMatch p.val rxB = false ∨ s.aerialOn p.val true = false → Answers (.knockCaught p rxA rxB) s (fun t =>
        t.stall p.val = { s.stall p.val with sync := s.syncRec p.val false rxA rxB, knock := some (s.mesh, s.tick) } ∧
        t.regs = s.regs ∧ s.memKept t ∧ t.cores = s.cores)) ∧
    (∀ (p : Pos) (fields : BitVec 52) (tk : W40) (b : Nat), s.inAir = true → (s.stall p.val).knock = some (tk, b) →
      b + 52 * s.symTicks p.val ≤ s.tick →
      let v := fields.toNat / 2 ^ 12
      (crc12 40 v ≠ fields.toNat % 2 ^ 12 → Answers (.countdownReceived p fields) s (fun t =>
        (t.stall p.val).knock = none ∧ t.get (STL_STATUS_STATE p.val) = 2 ∧
        s.regsKept t [STL_STATUS p.val, KNK_CNT] ∧ s.memKept t ∧ t.cores = s.cores)) ∧
      (∀ n, crc12 40 v = fields.toNat % 2 ^ 12 → s.kcSlot p.val = some n → Answers (.countdownReceived p fields) s (fun t =>
        (t.stall p.val).knock = none ∧ t.get (STL_STATUS_STATE p.val) = 2 ∧ t.test SCH_FLAGS_KNOCK = true ∧
        t.test (KC_INFO_VALID n) = true ∧ t.get (KC_INFO_POS n) = p.val ∧ t.rg (KC_ASN n) = BitVec.ofNat 20 v ∧
        s.memKept t ∧ s.coresKept t)))

/-- R265, R269-R282, R217, R218: the link assists and the end of a transmission. A fold that is placed well is cleared
and BUSY until it is done; an error disables it; a relay fires, is tried again or is dropped; an immediate ACK starts
in its window, and ends as its frame's decision says; an ACK wait times out; a roll-call copy is cut and written; a
frame sent clears its slot's READY and SENDING with CODE 1, and an SRAM error in it ends it with CODE 9 and reports 8.
(Where the spec leaves a reading open, the model's own: notes/assumptions 14, 15, 16, 52, 55.) -/
def Obligations.LinkAssistEffects : Prop :=
  ∀ s : State, s.inRun = true →
    (∀ v : W20,
      (s.test FOLD_CFG_EN = false → s.test FOLD_CFG_BUSY = false → v.getLsbD 19 = true →
        s.foldPlaced (v.toNat % 32) = true → s.foldBase < 0xA0000 → Answers (.foldEnable v) s (fun t =>
          t.test FOLD_CFG_EN = true ∧ t.test FOLD_CFG_BUSY = true ∧ t.link.foldClr = true ∧
          ∀ x, s.foldBase ≤ x → x < s.foldBase + 64 * 2 ^ (v.toNat % 32) → t.byte .sram x = 0)) ∧
      (s.test FOLD_CFG_EN = true → v.getLsbD 19 = false → Answers (.foldEnable v) s (fun t =>
        t.test FOLD_CFG_EN = false ∧ s.regsKept t [FOLD_CFG] ∧ s.memKept t ∧ t.cores = s.cores))) ∧
    (s.link.foldClr = true → Answers .foldClearDone s (fun t => t.test FOLD_CFG_BUSY = false ∧ t.link.foldClr = false ∧
      s.regsKept t [FOLD_CFG] ∧ s.memKept t ∧ t.cores = s.cores)) ∧
    (s.test FOLD_CFG_EN = true → Answers .foldErr s (fun t => t.test FOLD_CFG_EN = false ∧
      t.test LNK_FLAGS_FOLD_ERR = true ∧ t.test (faultBit 15) = true ∧ s.memKept t ∧ s.coresKept t)) ∧
    (s.test RLY_CFG_EN = true → s.link.relays = [] → Answers .relayDisable s (fun t => t.test RLY_CFG_EN = false ∧
      s.regsKept t [RLY_CFG] ∧ s.memKept t ∧ t.cores = s.cores)) ∧
    (∀ (temp : BitVec 10) (r : Relay), s.link.relays = [r] → r.st = .loaded → s.foldUsable = true →
      s.reached (s.sched.start + BitVec.ofNat 40 (s.get RLY_FIRE_FIRE)) = true →
      let end_ := (s.wideRead 3 r.entry 15).1
      let heard := (FoldEnt.ofBytes (s.wideRead 3 r.entry 15).2.1).heard
      let u := (s.wideRead 3 r.entry 15).2.2
      (end_ ≠ 0 → Answers (.relayFire temp) s (fun t => t.link.relays = [] ∧ t.test FOLD_CFG_EN = false ∧
        t.test LNK_FLAGS_FOLD_ERR = true ∧ t.test (faultBit 15) = true ∧ u.memKept t ∧ s.coresKept t)) ∧
      (end_ = 0 → u.relayK ≤ heard → Answers (.relayFire temp) s (fun t => t.link.relays = [] ∧
        t.test (FU_TX_CTL_READY (u.get RLY_CFG_SLOT)) = false ∧ s.coresKept t ∧
        ∀ x, x < r.entry ∨ r.entry + 15 ≤ x → t.byte .sram x = u.byte .sram x)) ∧
      (end_ = 0 → heard < u.relayK → u.txArmed = false → u.ackDue = false → u.txBar (u.get RLY_CFG_SLOT) = none →
        Answers (.relayFire temp) s (fun t => t.link.relays = [{ r with st := .fired }] ∧ t.rfe = 5 ∧
          (t.stopped = false → t.test (FU_TX_CTL_SENDING (u.get RLY_CFG_SLOT)) = true) ∧ u.memKept t ∧ s.coresKept t))) ∧
    (∀ r : Relay, s.link.relays = [r] → r.st = .failed → s.test LNK_FLAGS_FOLD_ERR = false →
      let kept := fun (t : State) => ∀ x, x < r.entry ∨ r.entry + 15 ≤ x → t.byte .sram x = s.byte .sram x
      (max 1 (s.get RLY_CFG_TRIES) ≤ r.tries + 1 → Answers .relayTry s (fun t => t.link.relays = [] ∧
        t.test LNK_FLAGS_RELAY_DROP = true ∧ kept t ∧ s.coresKept t)) ∧
      (r.tries + 1 < max 1 (s.get RLY_CFG_TRIES) → Answers .relayTry s (fun t => t.link.relays =
        [{ r with tries := r.tries + 1, due := s.sched.asn + 1, st := .pending }] ∧ s.memKept t ∧ t.cores = s.cores))) ∧
    (∀ (temp : BitVec 10) (a : AckRun) (e : Nat), s.link.ack = some a → a.endAt = some e → a.fired = false →
      max e a.decAt < s.tick →
      (s.get ACK_CFG_WIN < a.decAt - e → Answers (.immediateAckStart temp) s (fun t => t.link.ack = none ∧
        t.get ACK_STAT_LAST = 5 ∧ s.memKept t ∧ s.coresKept t)) ∧
      (∀ u, s.ackLoad a = some u → a.decAt - e ≤ s.get ACK_CFG_WIN → s.test (FU_TX_CTL_READY (s.get ACK_CFG_SLOT)) = false →
        u.txArmed = false → u.txBar (s.get ACK_CFG_SLOT) = none → Answers (.immediateAckStart temp) s (fun t =>
          t.link.ack = some { a with fired := true } ∧ t.rfe = 5 ∧ s.coresKept t))) ∧
    (∀ (a : AckRun) (x : TxRun), s.link.ack = some a → s.radio.tx = some x → a.fired = true → a.full = false →
      a.cut = false → x.slot = s.get ACK_CFG_SLOT → s.rfe = 6 →
      192 + ((s.frame.tx.map (·.lead.length)).getD 0 - 1) * s.txSym ≤ s.tick - x.ramp.getD s.tick →
      (a.st = .accepted → a.nbr = none → s.get ACK_BUF_ADDR + 18 ≤ 0xA0000 → Answers .ackDecision s (fun t =>
        t.link.ack = some { a with full := true } ∧ t.get ACK_STAT_LAST = 1 ∧ s.coresKept t)) ∧
      (a.st = .rejected ∨ a.st = .waiting → Answers .ackDecision s (fun t => t.link.ack = some { a with cut := true } ∧
        t.get ACK_STAT_LAST = (if a.st = .rejected then 3 else 4) ∧ t.test (FU_TX_CTL_READY x.slot) = false ∧
        s.memKept t ∧ s.coresKept t))) ∧
    (∀ d k b, s.link.ackWait = some (d, k, b) → (s.rg ACKW_TO).toNat < s.tick - b → Answers .ackWaitTimeout s (fun t =>
      t.get ACK_STAT_WAIT = 3 ∧ t.link.ackWait = none ∧ t.test LNK_FLAGS_ACK_MISS = true ∧
      s.regsKept t [ACK_STAT, LNK_FLAGS] ∧ s.memKept t ∧ s.coresKept t)) ∧
    (∀ v : W20, exec (.ackPrimWrite v) s = .next (s.setRg ACK_PRIM (v &&& 0x7F))) ∧
    (∀ v : W20, let n := min (min (max 1 (s.get RC_STATE_MAX)) 32) s.link.rc.length
      s.test RC_STATE_BUSY = false → v.toNat + 1 + 8 * n ≤ 0xA0000 → Answers (.rcCopy v) s (fun t =>
        t.test RC_STATE_BUSY = true ∧ t.get RC_STATE_N = n ∧ t.link.rc = s.link.rc.drop n ∧
        (∃ bs, t.link.rcCopy = some (v.toNat, BitVec.ofNat 8 n :: bs) ∧ bs.length = 8 * n) ∧
        s.regsKept t [RC_STATE] ∧ s.memKept t ∧ t.cores = s.cores)) ∧
    (∀ a bs, s.link.rcCopy = some (a, bs) → a + bs.length ≤ 0xA0000 → bs ≠ [] →
      (∀ g, a / 4 ≤ g → g ≤ (a + bs.length - 1) / 4 → s.chk g = .good) → Answers .rcCopyDone s (fun t =>
        (∀ i (h : i < bs.length), t.byte .sram (a + i) = bs[i]) ∧
        (∀ x, x < a ∨ a + bs.length ≤ x → t.byte .sram x = s.byte .sram x) ∧ t.link.rcCopy = none ∧
        t.test RC_STATE_BUSY = false ∧ s.regsKept t [RC_STATE] ∧ t.cores = s.cores)) ∧
    (∀ (k : Fin 64) (v : W20), let n := v.toNat % 64
      (v.getLsbD 19 = false ∨ s.get (TR_INFO_STATE n) ≠ 0 ∧ 8 ≤ s.get (TR_INFO_USE n) →
        exec (.keymapWrite k v) s = .next (s.setRg (KEYMAP k.val) (v &&& 0x8003F))) ∧
      (v.getLsbD 19 = true → s.get (TR_INFO_STATE n) = 0 ∨ s.get (TR_INFO_USE n) < 8 → Answers (.keymapWrite k v) s (fun t =>
        t.test LNK_FLAGS_CFG_REFUSED = true ∧ s.regsKept t [LNK_FLAGS] ∧ s.memKept t ∧ s.coresKept t))) ∧
    (∀ (x : TxRun) (f : TxFrame), s.radio.tx = some x → s.frame.tx = some f → x.slot < 16 →
      (s.rfe = 6 → s.link.ack = none → s.link.relays = [] → s.txBlocks x.slot ≤ f.next →
        f.nextTick (x.ramp.getD s.tick) ≤ s.tick → Answers .frameSent s (fun t =>
          t.test (FU_TX_CTL_READY x.slot) = false ∧ t.test (FU_TX_CTL_SENDING x.slot) = false ∧
          t.get RFE_TXSTAT_CODE = 1 ∧ t.test RFE_FLAGS_TX_DONE = true ∧ t.radio.tx = none ∧ t.frame.tx = none ∧
          t.frame.sent = f.symbols (s.test (FU_TX_CTL_FORMAT x.slot)) ∧ (t.rfe = 7 ∨ t.rfe = 8) ∧
          s.memKept t ∧ s.coresKept t)) ∧
      (s.rfe = 6 → s.link.ack = none → s.tick < f.nextTick (x.ramp.getD s.tick) → exec .frameSent s = .next s) ∧
      (∀ a : W20, s.rfe = 5 ∨ s.rfe = 6 → s.get (FU_TX_SRC_SRC x.slot) ≤ a.toNat + 3 →
        a.toNat < s.get (FU_TX_SRC_SRC x.slot) + s.get (FU_TX_LEN_LENGTH x.slot) → Answers (.sramErr a) s (fun t =>
          t.get RFE_TXSTAT_CODE = 9 ∧ t.test (faultBit 8) = true ∧ t.radio.tx = none ∧ (t.rfe = 7 ∨ t.rfe = 8) ∧
          s.memKept t ∧ s.coresKept t)))

/-- R281-R287: the tack room. A command from the keeper, the debug port or privileged mode starts while BUSY is 0, and
any other is refused with RESULT 1: GENERATE and the imports provision an EMPTY slot with the staged attributes and
COUNT 0, an import by KEKSLOT using that key once, and RESULT 5 where the integrity check fails; ERASE of a slot no
request names leaves it EMPTY; EXPORT writes its wrapped blob and moves RESERVE, and RESTORE provisions what the blob
holds. At its end a command shows its RESULT. (Where the spec leaves a reading open, the model's own:
notes/assumptions 17, 28, 57.) -/
def Obligations.TackRoomEffects : Prop :=
  ∀ (src : Source) (slot : Fin 64) (s : State), s.inRun = true →
    let k := slot.val
    let a := s.get TR_ARG_VALUE
    let attr := s.rg TR_ATTR &&& 0xFC03F
    let limit := if s.get TR_LIMIT_VALUE = 0 then 65536 else s.get TR_LIMIT_VALUE
    let runs := fun (t : State) (op res : Nat) => t.test TR_STAT_BUSY = true ∧ s.memKept t ∧ s.coresKept t ∧
      ∃ r, t.cipher.tr = some r ∧ r.op = op ∧ r.slot = k ∧ r.res = res
    let empty := s.get (TR_INFO_STATE k) = 0
    let goodAt := fun (n : Nat) => a + n ≤ 0xA0000 ∧ ∀ g, a / 4 ≤ g → g ≤ (a + n - 1) / 4 → s.chk g = .good
    let valid := s.get TR_ATTR_USE ≠ 0 ∧ s.get TR_WARN_VALUE < limit
    (s.mayReach src TR_CMD = false → src ≠ .host → exec (.trGenerate src slot) s = .next s ∧
      exec (.trImportEcdh src slot) s = .next s ∧ exec (.trImportKek src slot) s = .next s ∧
      exec (.trErase src slot) s = .next s ∧ exec (.trExport src slot) s = .next s ∧
      exec (.trRestore src slot) s = .next s) ∧
    (s.mayReach src TR_CMD = true → mayTrust src = false ∨ s.test TR_STAT_BUSY = true →
      let refused := fun (t : State) => t.get TR_STAT_RESULT = 1 ∧ t.test CPH_FLAGS_TR_REFUSED = true ∧
        t.cipher = s.cipher ∧ s.regsKept t [TR_STAT, CPH_FLAGS] ∧ s.memKept t ∧ s.coresKept t
      Answers (.trGenerate src slot) s refused ∧ Answers (.trImportEcdh src slot) s refused ∧
      Answers (.trImportKek src slot) s refused ∧ Answers (.trErase src slot) s refused ∧
      Answers (.trExport src slot) s refused ∧ Answers (.trRestore src slot) s refused) ∧
    (s.mayReach src TR_CMD = true → mayTrust src = true → s.test TR_STAT_BUSY = false →
      (empty → valid → s.test TRNG_STAT_FAIL = false → Answers (.trGenerate src slot) s (fun t => runs t 1 0 ∧
        s.regsKept t [TR_STAT] ∧ ∀ r, t.cipher.tr = some r → r.attr = attr ∧ r.count = 0 ∧ r.limit = limit ∧
          r.warn = s.get TR_WARN_VALUE)) ∧
      (¬ empty → Answers (.trGenerate src slot) s (fun t => runs t 1 2)) ∧
      (let n := if s.test TR_ATTR_SIZE then 40 else 24
       let b := s.bytes .sram a (64 + n)
       let x := ofBytesBE (b.take 32)
       let y := ofBytesBE ((b.drop 32).take 32)
       let got := if onCurve x y then kwUnwrap (s.importKek k x y) (b.drop 64) else none
       empty → valid → goodAt (64 + n) → Answers (.trImportEcdh src slot) s (fun t => (got = none → runs t 2 5) ∧
        ∀ key, got = some key → runs t 2 0 ∧
          ∀ r, t.cipher.tr = some r → r.key = keyOf key ∧ r.attr = attr ∧ r.count = 0 ∧ r.limit = limit)) ∧
      (let n := if s.test TR_ATTR_SIZE then 40 else 24
       let q := s.get TR_ATTR_KEKSLOT
       empty → s.get (TR_INFO_STATE q) = 1 → s.get (TR_INFO_USE q) % 2 = 1 → valid → goodAt n →
       s.get (TR_COUNT_VALUE q) + 1 < 2 ^ 20 → let got := kwUnwrap (s.slotBytes q) (s.bytes .sram a n)
       Answers (.trImportKek src slot) s (fun t => t.get (TR_COUNT_VALUE q) = s.get (TR_COUNT_VALUE q) + 1 ∧
        (got = none → runs t 3 5) ∧ ∀ key, got = some key → runs t 3 0 ∧
          ∀ r, t.cipher.tr = some r → r.key = keyOf key ∧ r.attr = attr ∧ r.count = 0 ∧ r.limit = limit)) ∧
      Answers (.trErase src slot) s (fun t => runs t 4 (if s.slotBusy k then 3 else 0) ∧ s.regsKept t [TR_STAT]) ∧
      (¬ empty → a + 56 ≤ 0xA0000 → Answers (.trExport src slot) s (fun t => runs t 5 0 ∧ s.regsKept t [TR_STAT] ∧
        ∀ r, t.cipher.tr = some r → r.outAt = a ∧ r.reserve = min (s.get (TR_LIMITS_VALUE k))
          (s.get (TR_COUNT_VALUE k) + max 1 (s.get TR_STEP_STEP)))) ∧
      (empty → goodAt 56 → let got := kwUnwrap (toBytesBE 32 s.otp.kek.toNat) (s.bytes .sram a 56)
        Answers (.trRestore src slot) s (fun t => (got = none → runs t 6 5) ∧
          ∀ b, got = some b → if ofBytesBE ((b.drop 44).take 1) = k then runs t 6 0 ∧
            ∀ r, t.cipher.tr = some r → r.key = BitVec.ofNat 256 (ofBytesBE ((b.drop 0).take 32)) ∧
              r.count = ofBytesBE ((b.drop 41).take 3) ∧ r.limit = ofBytesBE ((b.drop 35).take 3) else runs t 6 4))) ∧
    (∀ r, s.cipher.tr = some r → trWork r.op = true → s.holds 14 = false → exec .trCommandDone s = .next s) ∧
    (∀ r, s.cipher.tr = some r → r.slot < 64 → trWork r.op = false ∨ s.holds 14 = true →
      let ended := fun (t : State) => t.test TR_STAT_BUSY = false ∧ t.get TR_STAT_RESULT = r.res % 8 ∧
        t.test CPH_FLAGS_TR_DONE = true ∧ t.cipher.tr = none ∧ s.coresKept t
      (r.res ≠ 0 → Answers .trCommandDone s (fun t => ended t ∧ s.regsKept t [TR_STAT, CPH_FLAGS] ∧ s.memKept t)) ∧
      (r.res = 0 → r.op = 4 → Answers .trCommandDone s (fun t => ended t ∧ t.rg (TR_INFO r.slot) = 0 ∧
        t.slotKey r.slot = 0 ∧ s.memKept t)) ∧
      (r.res = 0 → r.op ≠ 4 → r.op ≠ 5 → r.count < 2 ^ 20 → Answers .trCommandDone s (fun t => ended t ∧ s.memKept t ∧
        t.get (TR_INFO_STATE r.slot) = (if r.count = r.limit then 2 else 1) ∧ t.get (TR_COUNT_VALUE r.slot) = r.count ∧
        t.slotKey r.slot = r.key ∧ t.get (TR_INFO_USE r.slot) = r.attr.toNat / 2 ^ 14 % 16)) ∧
      (r.res = 0 → r.op = 5 → r.reserve < 2 ^ 20 → r.outAt + r.out.length ≤ 0xA0000 → r.out ≠ [] →
        (∀ g, r.outAt / 4 ≤ g → g ≤ (r.outAt + r.out.length - 1) / 4 → s.chk g = .good) →
        Answers .trCommandDone s (fun t => ended t ∧ t.get (TR_RESERVE_VALUE r.slot) = r.reserve ∧
          (∀ i (h : i < r.out.length), t.byte .sram (r.outAt + i) = r.out[i]) ∧
          (∀ x, x < r.outAt ∨ r.outAt + r.out.length ≤ x → t.byte .sram x = s.byte .sram x))))

/-- R132, R283, R287-R293: the cipher engine. A submission waits, one of each source, the host's only where it may
reach the register; a free entry takes it with one use of its key, or writes its refusal's STATUS into its record, and
an ERASE of its slot written in that tick is refused (the tick for the rule's cycle is the model's choice:
notes/assumptions/57.md); the oldest request starts, an authenticated decryption with a hold half, its operands read
by the DMA read engine; a CCM encryption gives its ciphertext, its tag and then its record's DONE, a decryption its
plaintext, and one whose tag differs STATUS 0x20 and none; engines that were idle in an earlier tick return their
charge. (Where the spec leaves a reading open, the model's own: notes/assumptions 17, 28, 55, 57.) -/
def Obligations.CipherEngineEffects : Prop :=
  ∀ s : State, s.inRun = true →
    (∀ a : W20, s.mayReach .host CPH_SUBMIT = false → Answers (.cphSubmit 6 a) s (fun t => t.cipher = s.cipher ∧
      t.test HSP_FLAGS_ERR = true ∧ t.get HSP_FLAGS_CAUSE = 1 ∧ s.regsKept t [HSP_FLAGS] ∧ s.memKept t ∧ t.cores = s.cores)) ∧
    (∀ (src : Fin 7) (a : W20), src ≠ 0 → (src = 6 → s.mayReach .host CPH_SUBMIT = true) →
      ((∀ w ∈ s.cipher.waits, w.src ≠ src.val) → exec (.cphSubmit src a) s = .next { s with cipher := { s.cipher with
        waits := s.cipher.waits ++ [⟨src.val, a.toNat, s.tick⟩] } }) ∧
      ((∃ w ∈ s.cipher.waits, w.src = src.val) → Answers (.cphSubmit src a) s (fun t => t.cipher = s.cipher ∧
        t.test CPH_FLAGS_SUBMIT_REFUSED = true ∧ s.regsKept t [CPH_FLAGS] ∧ s.memKept t ∧ s.coresKept t))) ∧
    (∀ w : CphWait, s.cipher.waits = [w] → w.src ≠ 0 → w.addr ≠ updReqAt → s.cqFree = true → w.addr + 24 ≤ 0xA0000 →
      (∀ g, w.addr / 4 ≤ g → g ≤ (w.addr + 23) / 4 → s.chk g = .good) →
      let r := CphReq.ofBytes w.src w.addr (s.bytes .sram w.addr 24)
      let judged := match r.refuse with
        | some c => some c
        | none => s.slotRefuse r.slot (usePermits (s.get (TR_INFO_USE r.slot)) r.op)
      (judged = none → s.get (TR_COUNT_VALUE r.slot) + 1 < 2 ^ 20 → Answers .cipherAccept s (fun t =>
        t.cipher.queue = s.cipher.queue ++ [r] ∧ t.cipher.waits = [] ∧
        t.get (TR_COUNT_VALUE r.slot) = s.get (TR_COUNT_VALUE r.slot) + 1 ∧
        (t.holds 14 = true ∨ t.asked 14 = true) ∧ s.memKept t ∧ s.coresKept t ∧
        ∀ x, s.cipher.tr = some x → x.op = 4 → x.slot = r.slot → x.wrAt = s.tick →
          t.cipher.tr = some { x with res := 3 })) ∧
      (∀ c, judged = some c → Answers .cipherAccept s (fun t => t.cipher.queue = s.cipher.queue ∧ t.cipher.waits = [] ∧
        t.bytes .sram w.addr 3 = tripleOf (BitVec.ofNat 20 (2 ^ 19 + c * 2 ^ 8)) ∧
        (∀ x, x < w.addr ∨ w.addr + 3 ≤ x → t.byte .sram x = s.byte .sram x) ∧ s.coresKept t))) ∧
    (∀ r rest, s.cipher.queue = r :: rest → r.recAt ≠ updReqAt → s.cipher.running = none → s.holds 14 = true →
      let reads := fun (t : State) => t.dma.blk[(1 : Fin 5)].map (fun x => (x.addr, x.rd)) =
        s.dma.blk[(1 : Fin 5)].map (fun x => (x.addr, x.rd)) ++ (s.operands r).filter (fun o => o.2 != 0)
      (r.op ≠ 2 → r.op ≠ 4 → Answers .cipherRequestStart s (fun t => t.cipher = { s.cipher with
        queue := rest, running := some (r, none), got := [] } ∧ reads t ∧ t.regs = s.regs ∧ s.memKept t ∧
        t.cores = s.cores)) ∧
      (r.op = 2 ∨ r.op = 4 → s.cipher.half0 = none → Answers .cipherRequestStart s (fun t => t.cipher = { s.cipher with
        queue := rest, running := some (r, some 0), half0 := some r.slot, got := [] } ∧ reads t ∧ t.regs = s.regs ∧
        s.memKept t ∧ t.cores = s.cores))) ∧
    (∀ (r : CphReq) (h : Option Nat), s.cipher.running = some (r, h) →
      s.cipher.got.length < ((s.operands r).map (·.2)).sum → exec .cipherRequestDone s = .next s) ∧
    (∀ (r : CphReq) (nonce aad data tag : List Byte), r.src ≠ 0 → r.recAt ≠ updReqAt → s.cipher.queue.length ≤ 16 → nonce.length = 13 →
      aad.length = r.aadN → data.length = r.len → r.len ≠ 0 →
      let key := s.slotBytes r.slot
      let sent := fun (t : State) => t.dma.blk[(1 : Fin 5)].map (fun x => (x.addr, x.data))
      let answer := ccmXor key nonce data
      let word := fun (status : Nat) => tripleOf (BitVec.ofNat 20 (2 ^ 19 + status * 2 ^ 8))
      (s.cipher.running = some (r, none) → r.op = 1 → s.cipher.got = nonce ++ aad ++ data →
        Answers .cipherRequestDone s (fun t => t.cipher.running = none ∧ s.memKept t ∧ t.cores = s.cores ∧
          sent t = sent s ++ [(r.dst, answer), (r.tagAt, ccmTag key nonce aad data (4 * 2 ^ r.tagN)),
            (r.recAt, word 0)])) ∧
      (s.cipher.running = some (r, some 0) → r.op = 2 → tag.length = 4 * 2 ^ r.tagN →
        s.cipher.got = nonce ++ aad ++ data ++ tag →
        Answers .cipherRequestDone s (fun t => t.cipher.running = none ∧ s.memKept t ∧ s.coresKept t ∧
          (ccmTag key nonce aad answer (4 * 2 ^ r.tagN) = tag →
            t.cipher.half0 = s.cipher.half0 ∧ sent t = sent s ++ [(r.dst, answer), (r.recAt, word 0)]) ∧
          (ccmTag key nonce aad answer (4 * 2 ^ r.tagN) ≠ tag →
            t.cipher.half0 = none ∧ t.test CPH_FLAGS_AUTH_FAIL = true ∧ sent t = sent s ++ [(r.recAt, word 0x20)])))) ∧
    (s.cphQuiet = true → s.cipher.workAt < s.tick → Answers .cipherIdle s (fun t => t.holds 14 = false ∧ t.regs = s.regs ∧ s.memKept t ∧
      t.cores = s.cores))

/-- R293, R295-R297: the hash and public-key engine and the TRNG. A command while the engine is busy sets REFUSED and
does nothing else; otherwise it runs: HASH_INIT empties the context, HASH_UPDATE reads LEN bytes line by line into it,
HASH_FINAL writes the digest at A, VERIFY gives its verdict, SIGN_ID counts one use, ID_RECORD writes the identity. At
its end RESULT and DONE show. A read of TRNG_DATA gives VALID with 16 of the bits at hand and makes more of them when
they run out, 0 where there are none or the tests failed; a health failure reports 16; a restart runs its tests once
the TRNG holds its charge, and clears FAIL or tells of RCT or APT. (Where the spec leaves a reading open, the model's
own: notes/assumptions 17, 28, 67.) -/
def Obligations.HashAndTrngEffects : Prop :=
  ∀ s : State, s.inRun = true →
    let runs := fun (t : State) (op res : Nat) (sha : ShaCtx) => t.cipher.sha = sha ∧ s.memKept t ∧ t.cores = s.cores ∧
      (t.holds 14 = true ∨ t.asked 14 = true) ∧ ∃ r, t.cipher.hpk = some r ∧ r.op = op ∧ r.res = res
    let goodAt := fun (a n : Nat) => a + n ≤ 0xA0000 ∧ ∀ g, a / 4 ≤ g → g ≤ (a + n - 1) / 4 → s.chk g = .good
    (s.hpkBusy = true → ∀ src : Source,
      let refused := (.next (s.put HPK_STAT_REFUSED 1) : Out)
      exec .hashInit s = refused ∧ exec .hashUpdate s = refused ∧ exec .hashFinal s = refused ∧
      exec .hpkVerify s = refused ∧ (s.mayReach src HPK_CMD = true → exec (.hpkSignId src) s = refused) ∧
      exec .hpkIdRecord s = refused) ∧
    (s.hpkBusy = false →
      Answers .hashInit s (fun t => runs t 1 0 ShaCtx.reset ∧ t.regs = s.regs) ∧
      (let n := s.get HPK_LEN_VALUE
       let a := (s.get40 HPK_WLO HPK_WHI).toNat
       n ≠ 0 → Answers .hashUpdate s (fun t => runs t 2 0 s.cipher.sha ∧ t.regs = s.regs ∧
         (∀ r, t.cipher.hpk = some r → r.left = n) ∧ t.dma.blk[(4 : Fin 5)].map (fun x => (x.addr, x.rd)) =
           s.dma.blk[(4 : Fin 5)].map (fun x => (x.addr, x.rd)) ++ [(a, n)])) ∧
      Answers .hashFinal s (fun t => runs t 3 0 s.cipher.sha ∧ t.regs = s.regs ∧
        ∀ r, t.cipher.hpk = some r → r.out = s.cipher.sha.final ∧ r.outAt = s.get HPK_A_ADDR) ∧
      (let a := s.get HPK_A_ADDR
       let x := ofBytesBE (s.bytes .sram a 32)
       let y := ofBytesBE (s.bytes .sram (a + 32) 32)
       goodAt a 64 → goodAt (s.get HPK_B_ADDR) 32 → goodAt (s.get HPK_C_ADDR) 64 → Answers .hpkVerify s (fun t =>
         runs t 4 (if !onCurve x y then 2 else if ecdsaVerify x y (s.bytes .sram (s.get HPK_B_ADDR) 32)
           (s.bytes .sram (s.get HPK_C_ADDR) 64) then 0 else 1) s.cipher.sha ∧ t.regs = s.regs)) ∧
      (∀ src : Source, privCore src = false → s.mayReach src HPK_CMD = true → exec (.hpkSignId src) s = .next s) ∧
      (∀ src : Source, privCore src = true → s.get TRUST_STATE_ID_USES < 16 → s.test TRNG_STAT_FAIL = false →
        goodAt (s.get HPK_B_ADDR) 32 → Answers (.hpkSignId src) s (fun t => runs t 5 0 s.cipher.sha ∧
          t.get TRUST_STATE_ID_USES = s.get TRUST_STATE_ID_USES + 1 ∧ s.regsKept t [TRUST_STATE])) ∧
      Answers .hpkIdRecord s (fun t => runs t 6 0 s.cipher.sha ∧ t.regs = s.regs ∧
        ∀ r, t.cipher.hpk = some r → r.out = s.idRecord ∧ r.outAt = s.get HPK_A_ADDR)) ∧
    (∀ x : Xfer, let m := min (64 - x.addr % 64) x.rd
      s.dma.blk[(3 : Fin 5)] = [] → s.dma.blk[(4 : Fin 5)] = [x] → x.tag = .hashLine → s.dma.credits = [] → 0 < x.rd →
      s.dmaLive = true → s.dmaTouch.dmaPick = some 15 → goodAt x.addr m → Answers (.dmaChunkRead 15) s (fun t =>
        t.cipher.sha = s.cipher.sha.update (s.bytes .sram x.addr m) ∧
        t.cipher.hpk = s.cipher.hpk.map (fun h => { h with left := h.left - m }) ∧ t.dma.credits = [] ∧ s.memKept t ∧
        t.cores = s.cores)) ∧
    (∀ r, s.cipher.hpk = some r → r.left ≠ 0 → exec .hpkCommandDone s = .next s) ∧
    (∀ r, s.cipher.hpk = some r → r.left = 0 → s.holds 14 = true →
      (r.out = [] → Answers .hpkCommandDone s (fun t => t.cipher.hpk = none ∧ t.get HPK_STAT_RESULT = r.res % 8 ∧
        t.test HPK_STAT_DONE = true ∧ s.regsKept t [HPK_STAT] ∧ s.memKept t ∧ s.coresKept t)) ∧
      (r.out ≠ [] → goodAt r.outAt r.out.length → Answers .hpkCommandDone s (fun t => t.cipher.hpk = none ∧
        t.get HPK_STAT_RESULT = r.res % 8 ∧ t.test HPK_STAT_DONE = true ∧
        (∀ i (h : i < r.out.length), t.byte .sram (r.outAt + i) = r.out[i]) ∧
        (∀ x, x < r.outAt ∨ r.outAt + r.out.length ≤ x → t.byte .sram x = s.byte .sram x) ∧ s.coresKept t))) ∧
    (s.test TRNG_STAT_FAIL = true → exec .trngDataRead s = .next s ∧ s.trngRead.1 = 0) ∧
    (s.test TRNG_STAT_FAIL = false → Answers .trngDataRead s (fun t =>
      t = { s with free := t.free, manger := t.manger, cipher := t.cipher } ∧
      (s.cipher.trngN = 0 → s.trngRead.1 = 0) ∧
      (s.cipher.trngN ≠ 0 → s.trngRead.1.getLsbD 19 = true) ∧ t.cipher.trngN = s.cipher.trngN - 1 ∧
      (s.cipher.trngN ≤ 1 → t.cipher.trngRun = true ∧ (t.holds 14 = true ∨ t.asked 14 = true)))) ∧
    (∀ rct apt : Bool, rct = true ∨ apt = true → Answers (.trngHealthFail rct apt) s (fun t =>
      t.test TRNG_STAT_FAIL = true ∧ (rct = true → t.test TRNG_STAT_RCT = true) ∧
      (apt = true → t.test TRNG_STAT_APT = true) ∧ t.test (faultBit 16) = true ∧ s.memKept t ∧ s.coresKept t)) ∧
    (s.holds 14 = true →
      Answers (.trngRestart true) s (fun t => t.test TRNG_STAT_FAIL = false ∧ t.cipher.trngTest = none ∧
        s.regsKept t [TRNG_STAT] ∧ s.memKept t ∧ t.cores = s.cores) ∧
      Answers (.trngRestart false) s (fun t => t.test TRNG_STAT_FAIL = true ∧
        (t.test TRNG_STAT_RCT = true ∨ t.test TRNG_STAT_APT = true) ∧ t.test (faultBit 16) = true ∧
        t.cipher.trngTest = none ∧ s.memKept t ∧ s.coresKept t)) ∧
    (∀ passed : Bool, s.holds 14 = false → Answers (.trngRestart passed) s (fun t =>
      t.holds 14 = true ∨ t.asked 14 = true ∧ t.cipher.trngTest = some passed ∧ t.regs = s.regs ∧ s.memKept t ∧
        t.cores = s.cores))

/-- R313, R314, R317, R320, R322-R326, R328, R333, R334: the chord. A write of CHD_CTL while no port is in line asks
for the holder of each enabled port and drops the others, and a change of TOPO or HEAL in line is refused; the bypass
opens with a port in line; the first port locks the repeater, port A of two; a bay of the active table begins and ends
at its ticks; what a bay drives, its ports, its start and its symbols stand in the state, the bytes of a transmit slot
read through channel 14; a frame's symbols decode to it, and one cut, bad or good is counted or captured; ranging
sends and answers bursts and writes the latency it measured; a knock within 3 errors is flagged. (Where the spec
leaves a reading open, the model's own: notes/assumptions 29.) -/
def Obligations.ChordEffects : Prop :=
  ∀ s : State, s.notDormant = true →
    let quiet := fun (t : State) => s.memKept t ∧ s.coresKept t
    let reads := fun (t : State) (x : Nat × Nat) => t.dma.blk[(2 : Fin 5)].map (fun y => (y.addr, y.rd)) =
      s.dma.blk[(2 : Fin 5)].map (fun y => (y.addr, y.rd)) ++ [x]
    (∀ v : W20, s.clocked = true →
      (s.anyIn = false → Answers (.chdCtlWrite v) s (fun t => t.rg CHD_CTL = v &&& 0xFF ∧ s.memKept t ∧
        (∀ p : Fin 2, let h := 12 + p.val
          (v.getLsbD p.val = true → t.holds h = true ∨ t.asked h = true) ∧
          (v.getLsbD p.val = false → t.holds h = false)))) ∧
      (s.anyIn = true → (s.rg CHD_CTL).toNat / 4 % 4 ≠ v.toNat / 4 % 4 → Answers (.chdCtlWrite v) s (fun t =>
        t.test CHD_FLAGS_CFG_REFUSED = true ∧ s.regsKept t [CHD_FLAGS] ∧ t.manger = s.manger ∧ quiet t))) ∧
    (s.inRun = true →
     let asked := s.test CHD_CTL_EN_A || s.test CHD_CTL_EN_B
     (s.chord.bay = none → s.anyIn = true ∨ asked = false → Answers .bypassChange s (fun t =>
       t.test CHD_STATE_BYPASS = (!s.anyIn) ∧ s.regsKept t [CHD_STATE] ∧ quiet t)) ∧
     (s.anyIn = false → asked = true → exec .bypassChange s = .next s)) ∧
    (∀ a b : Bool, s.inRun = true → s.inLine .a = true → s.inLine .b = true → s.chord.lock = none → s.chord.bay = none →
      (a || b) = true → exec (.repeatLock a b) s =
        .next { s with chord := { s.chord with lock := some (if a then .a else .b) } }) ∧
    (s.inRun = true →
      (s.chord.lock ≠ none → exec .repeatRelease s =
        .next { s with chord := { s.chord with lock := none, busyAt := s.tick } }) ∧
      (s.chord.lock = none → exec .repeatRelease s = .next s)) ∧
    (∀ e : Fin 32, let b := s.bay e.val
      s.inRun = true → s.test SCH_CTL_RUN = true → s.test CHD_STATE_HALTER = false → s.test CHD_CTL_ACQ = false →
      s.chord.bay = none → s.bayActive e.val = true → s.chord.ended.contains e.val = false → b.role < 6 → s.reached (s.sched.start + BitVec.ofNat 40 b.ofs) = true →
      s.reached (s.sched.start + BitVec.ofNat 40 b.ofs + BitVec.ofNat 40 b.len) = false →
      let begun := fun (t : State) => t.get CHD_STATE_BAY = e.val ∧ (∃ r, t.chord.bay = some r ∧ r.entry = e.val) ∧
        quiet t
      Answers (.bayStart e) s begun ∧
      (b.role = 4 ∨ b.role = 5 → Answers (.bayStart e) s (fun t => begun t ∧ t.chord.lock = none ∧
        (s.chord.lock ≠ none → t.test CHD_FLAGS_CUT = true))) ∧
      (b.role = 4 → s.inLine .b = true → Answers (.bayStart e) s (fun t =>
        t.chord.out = [⟨2, s.bayAt256 e.val, burstSyms⟩])) ∧
      (b.role = 5 → s.portsIn b.dir ≠ 0 → Answers (.bayStart e) s (fun t => t.chord.out =
        [⟨s.portsIn b.dir, s.bayAt256 e.val, (List.replicate (max 1 (s.get CHD_KNOCK_REP)) knockSyms).flatten⟩])) ∧
      (∀ k, s.grantOf e.val = some k → b.role = 2 → s.portsIn b.dir ≠ 0 → s.test CHD_STATE_HEALED = false →
        let n := s.get (CTX_LEN_LENGTH k)
        let a := s.get (CTX_SRC_SRC k)
        let hdr := chordHdr 0 n e.val (s.get (CTX_CTL_SEQ k))
        (88 + 8 * n) * 15360 ≤ b.len * 10000 → n ≠ 0 → Answers (.bayStart e) s (fun t => begun t ∧
          t.chord.txHdr = hdr ∧ t.chord.out = [⟨s.portsIn b.dir, s.bayAt256 e.val, chordLead hdr⟩] ∧
          reads t (a, n) ∧ ∃ r, t.chord.bay = some r ∧ r.drive = some k ∧ r.ports = s.portsIn b.dir))) ∧
    (∀ r, s.inRun = true → s.chord.bay = some r →
      (s.reached (s.sched.start + BitVec.ofNat 40 (s.bay r.entry).ofs + BitVec.ofNat 40 (s.bay r.entry).len) = true →
        Answers .bayEnd s (fun t => t.chord.bay = none ∧ t.get CHD_STATE_BAY = 63 ∧
          (∀ k, s.grantOf r.entry = some k → k < 8 → t.test (CTX_CTL_GRANTED k) = false) ∧
          (r.check = true → r.passed = true → t.chord.fails = 0) ∧
          (r.check = true → r.passed = false → t.chord.fails = s.chord.fails + 1) ∧
          ((s.bay r.entry).role = 3 → s.test CHD_CTL_MASTER = false → r.taken = false →
            (s.inLine .a = true ∨ s.inLine .b = true) →
            t.test CHD_STATE_TVALID = false ∧ t.test CHD_FLAGS_TIME_MISS = true) ∧ quiet t)) ∧
      (∀ k, r.drive = some k → k < 8 → s.chord.halter = none →
        (s.get (CTX_LEN_LENGTH k) ≤ s.chord.txGot.length → Answers .chordFrameSent s (fun t =>
          t.test (CTX_CTL_READY k) = false ∧ t.test (CTX_CTL_GRANTED k) = false ∧ t.test CHD_FLAGS_TX_DONE = true ∧
          t.chord.out = (s.driveMore (chordTail s.chord.txHdr s.chord.txGot)).chord.out ∧
          s.regsKept t [CTX_CTL k, CHD_FLAGS] ∧ quiet t)) ∧
        (s.chord.txGot.length < s.get (CTX_LEN_LENGTH k) → exec .chordFrameSent s = .next s)) ∧
      (∀ (p : Port) (frac : BitVec 8), r.phase = (match p with | .a => 1 | .b => 2) → s.inLine p = true →
        s.phaseOver r = false → Answers (.rangingBurstReceived p frac) s (fun t => t.chord.bay = some (match p with
          | .a => { r with replyA := true } | .b => { r with replyB := true }) ∧
          t.chord.out = s.chord.out ++ [⟨portBit p, s.now256 frac + BitVec.ofNat 48 (nsTo256 2000), burstSyms⟩] ∧
          t.regs = s.regs ∧ quiet t)) ∧
      (∀ p : Port, r.phase = (match p with | .b => 1 | .a => 2) → s.inLine p = true →
        let reg := match p with | .a => CHD_RNGA | .b => CHD_RNGB
        (∀ m : Nat, m < 2 ^ 20 → s.phaseOver r = false → Answers (.rangingEchoReceived p (2960 + 2 * m)) s (fun t => t.rg reg = BitVec.ofNat 20 m ∧
          s.regsKept t [reg] ∧ quiet t)) ∧
        ((match p with | .a => r.echoA | .b => r.echoB) = false →
          s.reached (s.bayAt r.entry + (if r.phase = 1 then 307 else 614)) = true → Answers (.norange p) s (fun t => t.rg reg = 0xFFFFF ∧
          t.test CHD_FLAGS_NORANGE = true ∧ s.regsKept t [reg, CHD_FLAGS] ∧ quiet t))) ∧
      (r.phase = 1 → s.reached (s.bayAt r.entry + 307) = true → Answers .rangingPhase2 s (fun t =>
        t.chord.bay = some { r with phase := 2 } ∧ (s.inLine .a = true → t.chord.out = s.chord.out ++
          [⟨1, s.bayAt256 r.entry + BitVec.ofNat 48 (nsTo256 8000), burstSyms⟩]) ∧ t.regs = s.regs ∧ quiet t)) ∧
      (∀ (x : TimeRelay) (frac : BitVec 8), s.chord.relay = some x → (s.bay r.entry).role = 3 →
        s.inLine (otherPort x.port) = true →
        let stop := (s.bayAt r.entry + BitVec.ofNat 40 (s.bay r.entry).len).toNat * 256
        let ref := s.now256 frac + chordRef
        (nsTo256 9280 : Int) ≤ (BitVec.ofNat 48 stop - ref).toInt → Answers (.timeFrameEmit frac) s (fun t =>
          t.chord.relay = none ∧ (∃ seq, t.chord.out = s.chord.out ++ [⟨portBit (otherPort x.port), s.now256 frac,
            chordSyms (chordHdr 1 22 r.entry seq) (s.timePayload ref x.res
              ((x.c + if s.test CHD_CTL_ANCHOR then 80 else 4) % 2 ^ 20) (x.hops % 2 ^ 8))⟩]) ∧
          t.regs = s.regs ∧ quiet t))) ∧
    (∀ (k : Fin 8) (v : W20), s.clocked = true → let n := s.get (CTX_LEN_LENGTH k.val)
      let fits := n ≠ 0 ∧ n ≤ 1600 ∧ s.get (CTX_SRC_SRC k.val) + n ≤ 0xA0000
      s.test (CTX_CTL_READY k.val) = false → v.getLsbD 19 = true →
      (fits → Answers (.ctxReadyWrite k v) s (fun t => t.rg (CTX_CTL k.val) = v &&& 0x300FF ||| 0x80000 ∧
        s.regsKept t [CTX_CTL k.val] ∧ quiet t)) ∧
      (¬ fits → Answers (.ctxReadyWrite k v) s (fun t => t.test CHD_FLAGS_CFG_REFUSED = true ∧
        s.regsKept t [CHD_FLAGS] ∧ quiet t))) ∧
    (∀ k : Fin 8, let n := s.get (CTX_LEN_LENGTH k.val)
      let a := s.get (CTX_SRC_SRC k.val)
      s.inRun = true → s.test CHD_STATE_HALTER = true → s.test (CTX_CTL_READY k.val) = true → s.chord.halter = none →
      2458 ≤ s.tick - s.chord.busyAt →
      s.portsIn 3 ≠ 0 → s.chord.lock = none → n ≠ 0 → Answers (.halterDataFrameStart k) s (fun t =>
        t.chord.halter = some k.val ∧ reads t (a, n) ∧ (∃ bay, t.chord.out =
          [⟨s.portsIn 3, s.now256 0, chordLead (chordHdr 0 n bay (s.get (CTX_CTL_SEQ k.val)))⟩]) ∧
        t.regs = s.regs ∧ quiet t)) ∧
    (∀ (hdr : BitVec 32) (payload : List Byte) (frac : BitVec 8), hdrLen hdr = payload.length →
      ∃ f, s.chordDecode ⟨(chordSyms hdr payload).drop 64, true, frac⟩ = some f ∧ f.hdr = hdr ∧ f.payload = payload ∧
        f.check.toNat = chordCheck hdr payload) ∧
    (∀ (p : Port) (rx : ChordRx), s.inRun = true → s.inLine p = true →
      (rx.whole = false → Answers (.chordFrameReceived p rx) s (fun t => t.test CHD_FLAGS_CUT = true ∧
        s.regsKept t [CHD_CNT 0, CHD_FLAGS] ∧ quiet t)) ∧
      (rx.whole = true → (s.chordDecode rx).filter chordGood = none → Answers (.chordFrameReceived p rx) s (fun t =>
        t.test CHD_FLAGS_CRC_BAD = true ∧ s.regsKept t [CHD_CNT 0, CHD_FLAGS] ∧ quiet t)) ∧
      (∀ f e, rx.whole = true → s.chordDecode rx = some f → chordGood f = true → hdrType f.hdr = 0 →
        s.test CHD_STATE_HALTER = false → s.test CHD_CTL_ACQ = false → s.test SCH_CTL_RUN = true →
        s.bayOf f.arrived = some e → s.capturesOut = 0 → s.chord.bay = none →
        let n := s.get CHD_RXCFG_SIZE * 64
        let a := s.get CHD_RXBASE_BASE + n * s.get CHD_RXNEXT_NEXT
        s.get CHD_RXNEXT_NEXT ≤ s.get CHD_RXCFG_COUNT1 → a + 3 ≤ 0xA0000 → hdrLen f.hdr + 6 ≤ n →
        (∀ g, a / 4 ≤ g → g ≤ (a + 2) / 4 → s.chk g = .good) →
        (wordOf (s.bytes .sram a 3)).getLsbD 19 = false →
        Answers (.chordFrameReceived p rx) s (fun t => t.regs = s.regs ∧ s.memKept t ∧
          (t.dma.blk[(2 : Fin 5)].drop s.dma.blk[(2 : Fin 5)].length).map (fun x => (x.addr, x.data)) =
            [(a + 6, f.payload),
             (a + 3, tripleOf (BitVec.ofNat 20 (hdrBay f.hdr * 2 ^ 8 + hdrSeq f.hdr))),
             (a, tripleOf (BitVec.ofNat 20 (2 ^ 19 + (match p with | .a => 0 | .b => 2 ^ 18) + e * 2 ^ 13 +
               hdrLen f.hdr)))]))) ∧
    (s.test CHD_CTL_KDET = true → ∀ syms, knockHeard syms = true →
      Answers (.chordKnocked syms) s (fun t =>
      t.test CHD_FLAGS_KNOCKED = true ∧ s.regsKept t [CHD_CNT 2, CHD_FLAGS] ∧ quiet t))

/-- R368-R377: the timers. A lone timer that counts, that no timer follows, and for which one edge of its clock is
due, wraps to 0 from its top value with OUT 1 and its wrap flag, and at a match shows OUT 0 and its match flag; a
refused write of CTL changes nothing; CNT takes what is written; a read of a lowest member's CNT latches those above
it; TOP and CMP wait with PRELOAD 1; an event acts as EVFN says while the bus clock runs; GSTART starts and stops.
(Where the spec leaves a reading open, the model's own: notes/assumptions 11.) -/
def Obligations.TimerEffects : Prop :=
  ∀ (i : Fin 8) (s : State), s.notDormant = true →
    let k := i.val
    let quiet := fun (t : State) => s.memKept t ∧ s.coresKept t
    let lone := s.upper k = false ∧ s.upper (k + 1) = false
    let counts := s.test (TMR_CTL_RUN k) = true ∧ s.get (TMR_CTL_SLAVE k) ≠ 1
    let unfollowed := ∀ j : Fin 8, s.get (TMR_CTL_MASTER j.val) = k → s.get (TMR_CTL_CLK j.val) ≠ 4 ∧
      s.get (TMR_CTL_SLAVE j.val) < 2
    let now := s.get (TMR_CNT_CNT k)
    let goal := s.tmr k
    (lone → counts → unfollowed → s.ownClock k = true → goal.phase < 2 * s.divider k →
      (now = goal.top.toNat ∨ now = 0xFFFFF → goal.cmp ≠ 0 → s.test (TMR_STAT_PEND k) = false →
        Answers (.timerWrap i) s (fun t => t.get (TMR_CNT_CNT k) = 0 ∧ t.test (TMR_STAT_OUT k) = true ∧
          (t.rg TMR_FLAGS).getLsbD (8 + k) = true ∧
          t.test (TMR_CTL_RUN k) = (s.test (TMR_CTL_RUN k) && !s.test (TMR_CTL_ONESHOT k)) ∧
          s.regsKept t [TMR_CNT k, TMR_STAT k, TMR_FLAGS, TMR_CTL k] ∧ s.memKept t)) ∧
      (now ≠ goal.top.toNat → now + 1 = goal.cmp.toNat → Answers (.timerMatch i) s (fun t =>
        t.get (TMR_CNT_CNT k) = now + 1 ∧ t.test (TMR_STAT_OUT k) = false ∧ (t.rg TMR_FLAGS).getLsbD k = true ∧
        s.regsKept t [TMR_CNT k, TMR_STAT k, TMR_FLAGS] ∧ s.memKept t))) ∧
    (∀ v : W20, s.clocked = true →
      (5 ≤ v.toNat / 16 % 8 → Answers (.tmrCtlWrite i v) s (fun t => t.test TMR_FLAGS_CFG_REFUSED = true ∧
        s.regsKept t [TMR_FLAGS] ∧ t.timers = s.timers ∧ quiet t)) ∧
      (lone → s.test (TMR_CTL_RUN k) = false → v.toNat / 16 % 8 < 4 → v.getLsbD 3 = false → v.toNat / 2 ^ 14 % 4 = 0 →
        Answers (.tmrCtlWrite i v) s (fun t => t.rg (TMR_CTL k) = v &&& 0x7FFFF ∧ t.tmr k = { goal with phase := 0 } ∧
          s.regsKept t [TMR_CTL k] ∧ quiet t)) ∧
      exec (.tmrCntWrite i v) s = .next (s.setRg (TMR_CNT k) v) ∧
      (∀ cmp : Bool, let reg := if cmp then TMR_CMP k else TMR_TOP k
        (s.test (TMR_CTL_PRELOAD k) = true → exec (.tmrTopCmpWrite i cmp v) s =
          .next ((s.setRg reg v).put (TMR_STAT_PEND k) 1)) ∧
        (s.test (TMR_CTL_PRELOAD k) = false → Answers (.tmrTopCmpWrite i cmp v) s (fun t => t.rg reg = v ∧
          t.tmr k = (if cmp then { goal with cmp := v } else { goal with top := v }) ∧ s.regsKept t [reg] ∧ quiet t))) ∧
      Answers (.tmrGstart v) s (fun t => (s.upper k = false →
        t.test (TMR_CTL_RUN k) = (v.getLsbD k || s.test (TMR_CTL_RUN k) && !v.getLsbD (8 + k))) ∧
        (s.upper k = true → t.rg (TMR_CTL k) = s.rg (TMR_CTL k)) ∧
        (s.upper k = false → v.getLsbD k = true → s.test (TMR_CTL_RUN k) = false → (t.tmr k).phase = 0) ∧
        (t.tmr k).top = goal.top ∧ (t.tmr k).cmp = goal.cmp ∧ (t.tmr k).latch = goal.latch ∧
        s.regsKept t ((List.range 8).map TMR_CTL) ∧ quiet t)) ∧
    (s.clocked = true → lone → exec (.tmrCntRead i) s = .next s) ∧
    (s.clocked = true → s.upper k = false → s.upper (k + 1) = true → s.upper (k + 2) = false → Answers (.tmrCntRead i) s (fun t =>
      (t.tmr (k + 1)).latch = s.rg (TMR_CNT (k + 1)) ∧ t.regs = s.regs ∧ quiet t)) ∧
    (s.busRuns = true → s.upper k = false → s.get (TMR_CTL_CLK k) ≠ 3 →
      (s.get (TMR_CTL_EVFN k) = 1 → Answers (.timerEventInput i) s (fun t => t.test (TMR_CTL_RUN k) = true ∧
        (s.test (TMR_CTL_RUN k) = false → (t.tmr k).phase = 0) ∧ s.regsKept t [TMR_CTL k] ∧ quiet t)) ∧
      (s.get (TMR_CTL_EVFN k) = 2 → exec (.timerEventInput i) s = .next (s.put (TMR_CTL_RUN k) 0)) ∧
      (s.get (TMR_CTL_EVFN k) = 3 → lone → exec (.timerEventInput i) s = .next (s.put (TMR_CNT_CNT k) 0)) ∧
      (s.get (TMR_CTL_EVFN k) = 4 → lone → exec (.timerEventInput i) s =
        .next (s.setRg (TMR_CAP k) (s.rg (TMR_CNT k)))))

/-- R380-R388: the real-time clock and its backup domain. The edge at 32767 rolls the second over and sets SECOND; a
staged group, as it stood at a request the calendar allows, is applied at the next edge; a shift waits the same way; a
read of SUBSEC takes the snapshot; a due alarm sets its flag; the oldest late store reaches its register; an invalid
backup domain reads 2000-01-01 00:00:00 with its bytes 0. (Where the spec leaves a reading open, the model's own:
notes/assumptions 11.) -/
def Obligations.ClockAndBackupEffects : Prop :=
  ∀ s : State,
    let sub := s.get RTC_SUBSEC_SUBSEC
    let cal := calOf s.rtc.time s.rtc.date
    let quiet := fun (t : State) => s.memKept t ∧ s.coresKept t
    let idle := s.rtc.pend = .none
    let staged := calOf (s.rg RTC_STIME) (s.rg RTC_SDATE)
    (sub = 32767 → idle → Answers .rtcSecond s (fun t => t.get RTC_SUBSEC_SUBSEC = 0 ∧
      t.rtc.time = timeWord (nextSecond cal).1 ∧ t.rtc.date = dateWord (nextSecond cal).1 ∧
      t.test RTC_FLAGS_SECOND = true ∧ s.regsKept t [RTC_SUBSEC, RTC_FLAGS, RTC_STAT] ∧ quiet t)) ∧
    (cal.s < 59 → sub = 32767 → idle → Answers .rtcSecond s (fun t => fieldGet t.rtc.time 5 0 = cal.s + 1)) ∧
    (∀ a b c : Option W20, sub < 32767 → s.rtc.pend = .apply a b c → Answers .rtcStagedApply s (fun t =>
      (a = none → t.get RTC_SUBSEC_SUBSEC = sub + 1) ∧
      (∀ v, a = some v → t.get RTC_SUBSEC_SUBSEC = v.toNat % 2 ^ 15) ∧ t.rtc.time = b.getD s.rtc.time ∧
      (c = none → t.rtc.date = s.rtc.date) ∧ (∀ v, c = some v → t.rtc.date = dateWord (calOf 0 v)) ∧ t.rtc.pend = .none ∧
      t.test RTC_STAT_PEND = false ∧ s.regsKept t [RTC_SUBSEC, RTC_STAT] ∧ quiet t)) ∧
    (∀ n : Int, s.rtc.pend = .shift n → sub < 32767 → 0 ≤ sub + 1 + n → sub + 1 + n < 32768 →
      Answers .rtcStagedApply s (fun t => (t.get RTC_SUBSEC_SUBSEC : Int) = sub + 1 + n ∧ t.rtc.pend = .none ∧
        s.regsKept t [RTC_SUBSEC, RTC_STAT] ∧ quiet t)) ∧
    (∀ k : Fin 2, (if k.val = 0 then s.rtc.due0 else s.rtc.due1) = true → Answers (.rtcAlarm k) s (fun t =>
      t.test (if k.val = 0 then RTC_FLAGS_ALARM0 else RTC_FLAGS_ALARM1) = true ∧
      (if k.val = 0 then t.rtc.due0 else t.rtc.due1) = false ∧ s.regsKept t [RTC_FLAGS] ∧ s.memKept t)) ∧
    (∀ x rest, s.rtc.late = x :: rest → RTC_BKP 0 ≤ x.1 → x.1 < RTC_BKP 16 → x.1 % 4 = 0 →
      Answers .backupStoreComplete s (fun t => t.rg x.1 &&& 0xFFFF = x.2 &&& 0xFFFF ∧ t.rtc.late = rest ∧ s.regsKept t [x.1] ∧ quiet t)) ∧
    Answers .bkpInvalid s (fun t => calOf t.rtc.time t.rtc.date = ⟨0, 1, 1, 0, 0, 0⟩ ∧ t.get RTC_SUBSEC_SUBSEC = 0 ∧
      t.rtc.pend = s.rtc.pend ∧ (∀ k : Fin 16, t.rg (RTC_BKP k.val) = 0) ∧
      (∀ k : Fin 2, t.test (RTC_ALCFG_EN k.val) = false) ∧ t.test RTC_FLAGS_BKP_INVALID = true ∧ quiet t) ∧
    (s.clocked = true →
      Answers .rtcSubsecRead s (fun t => t.rg RTC_TIME = s.rtc.time ∧ t.rg RTC_DATE = s.rtc.date ∧
        s.regsKept t [RTC_TIME, RTC_DATE] ∧ quiet t) ∧
      (let asked := fun (t : State) (p : RtcPend) => t.test RTC_STAT_PEND = true ∧ t.rtc.pend = p ∧
         s.regsKept t [RTC_STAT] ∧ quiet t
       let refused := fun (t : State) => t.test RTC_FLAGS_REFUSED = true ∧ t.rtc = s.rtc ∧ s.regsKept t [RTC_FLAGS] ∧
         quiet t
       let timeOk := staged.h ≤ 23 ∧ staged.mi ≤ 59 ∧ staged.s ≤ 59
       let dateOk := staged.y ≤ 199 ∧ 1 ≤ staged.mo ∧ staged.mo ≤ 12 ∧ 1 ≤ staged.d ∧
         staged.d ≤ daysIn staged.y staged.mo
       (s.test RTC_STAT_PEND = false → Answers .rtcApplySub s (fun t => asked t (.apply (some (BitVec.ofNat 20 (s.get RTC_SSUB_SUBSEC))) none none)) ∧
         (timeOk → Answers .rtcApplyTime s (fun t => asked t (.apply none (some (s.rg RTC_STIME)) none))) ∧
         (¬ timeOk → Answers .rtcApplyTime s refused) ∧
         (dateOk → Answers .rtcApplyDate s (fun t => asked t (.apply none none (some (s.rg RTC_SDATE))))) ∧
         (¬ dateOk → Answers .rtcApplyDate s refused) ∧
         (∀ n : BitVec 16, (n ≠ 0 → n ≠ 0x8000 → Answers (.rtcShift n) s (fun t => asked t (.shift n.toInt))) ∧
           Answers (.rtcShift 0x8000) s refused ∧ exec (.rtcShift 0) s = .next s)) ∧
       (s.test RTC_STAT_PEND = true → Answers .rtcApplySub s refused ∧ Answers .rtcApplyTime s refused ∧
         Answers .rtcApplyDate s refused ∧ ∀ n : BitVec 16, Answers (.rtcShift n) s refused)))

/-- R398-R406: sleep and wake. DOZE is read while every core is gated; a request names its state and sets PEND; entry
begins at a slow-clock edge when everything R400 names is idle, unless a level-type source holds, and stops the fast
clocks; at E4 the state is entered, or is left at once where a level-type source holds; a level-type source wakes a
sleep state at a slow-clock edge, and an edge is captured for the next one, or in the first cycle of the entry; a wake
from DORMANT is a cold reset that keeps the clock; RUN is reached on the clocks, or on the fast RC under REF_FAIL.
Every form named answers a next state, its own effect, wherever the conditions on the state and its operands hold.
(Where the spec leaves a reading open, the model's own: notes/assumptions 37.) -/
def Obligations.SleepAndWakeEffects : Prop :=
  ∀ s : State, s.stopped = false →
    let quiet := fun (t : State) => s.memKept t ∧ s.coresKept t
    let gated := ∀ c : CoreId, (s.core c).run ≠ .running ∧ (s.core c).run ≠ .starting
    let target := s.power.target
    (s.power.phase = .run → Answers .doze s (fun t => s.regsKept t [PWR_STATE] ∧ quiet t ∧
      (gated → t.get PWR_STATE_STATE % 2 = 1) ∧ (¬ gated → t.get PWR_STATE_STATE % 2 = 0))) ∧
    (let asked := fun (t : State) (n : Nat) => t.get PWR_CTL_ENTER = n ∧ t.test PWR_STATE_PEND = true ∧
       t.power.target = n ∧ s.regsKept t [PWR_CTL, PWR_STATE] ∧ quiet t
     s.clocked = true → Answers .enterRest s (asked · 2) ∧ Answers .enterOrbit s (asked · 3) ∧
       Answers .enterDormant s (asked · 4)) ∧
    (s.test PWR_STATE_PEND = true →
      (s.levelCauses target = [] ∨ s.atSlowEdge = false → Answers .entryCancel s (fun t => t.test PWR_STATE_PEND = false ∧
        t.get PWR_CTL_ENTER = 0 ∧ s.regsKept t [PWR_CTL, PWR_STATE] ∧ quiet t)) ∧
      (s.levelCauses target ≠ [] → s.atSlowEdge = true → Answers .entryCancel s (fun t => t.test PWR_STATE_PEND = false ∧
        t.test PWR_WAKE_ENTRY_CANCEL = true ∧ s.regsKept t [PWR_STATE, PWR_WAKE] ∧ quiet t)) ∧
      (s.power.phase = .run → (s.entryReady = true ↔ gated ∧ s.dmaQuiet = true ∧ s.test DMA_FLAGS_HALT = false ∧
          s.flashBusy = false ∧ s.rfe = 0 ∧ s.frame.jobs = [] ∧ s.frame.running = none ∧ s.cipher.queue = [] ∧
          s.cipher.running = none ∧ s.cipher.tr = none ∧ s.hpkBusy = false ∧
          (s.test YRD_CTL_EN = false ∨ s.yst = ySELF)) ∧
        (s.entryReady = false ∨ s.atSlowEdge = false → exec .sleepEntryBegin s = .next s) ∧
        (s.entryReady = true → s.atSlowEdge = true → s.levelCauses target ≠ [] → Answers .sleepEntryBegin s (fun t =>
          t.test PWR_STATE_PEND = false ∧ t.test PWR_WAKE_ENTRY_CANCEL = true ∧ t.power = s.power ∧
          s.regsKept t [PWR_STATE, PWR_WAKE] ∧ quiet t)) ∧
        (s.entryReady = true → s.atSlowEdge = true → s.levelCauses target = [] → Answers .sleepEntryBegin s (fun t =>
          t.power.phase = .entry 0 ∧
          t.test PWR_STATE_PEND = false ∧ t.test CLK_STAT_REF_OK = false ∧ t.test CLK_STAT_SPLL = false ∧
          t.test CHD_STATE_BYPASS = true ∧ t.inLine .a = false ∧ t.inLine .b = false ∧ t.power.refMesh = false ∧
          t.mesh = s.mesh ∧ quiet t)))) ∧
    (s.power.phase = .entry 4 → s.atSlowEdge = false → exec .sleepStateEntered s = .next s) ∧
    (s.power.phase = .entry 4 → s.atSlowEdge = true →
      (s.levelCauses target = [] → s.power.captured = false → target = 2 ∨ target = 3 → Answers .sleepStateEntered s (fun t =>
        t.power.phase = (if target = 3 then .orbit else .rest) ∧
        (∀ b : Fin 10, (s.rg PWR_RETAIN).getLsbD b.val = true → ∀ k : Fin 0x4000,
          t.chk (0x4000 * b.val + k.val) = s.chk (0x4000 * b.val + k.val) ∧
          ∀ j : Fin 4, t.byte .sram (0x10000 * b.val + 4 * k.val + j.val) =
            s.byte .sram (0x10000 * b.val + 4 * k.val + j.val)) ∧
        (∀ b : Fin 10, (s.rg PWR_RETAIN).getLsbD b.val = false → ∀ k : Fin 0x4000,
          t.chk (0x4000 * b.val + k.val) = .bad) ∧ t.regs = s.regs ∧ t.cores = s.cores)) ∧
      (s.levelCauses target = [] → s.power.captured = false → target = 4 → Answers .sleepStateEntered s (fun t => t.power.phase = .dormant ∧
        t.manger.heldSum = 0 ∧ (∀ (c : CoreId) (e : Fin 16), ((t.core c).acts[e.val]).status = .empty) ∧
        (∀ k : Fin 64, t.rg (TR_INFO k.val) = 0 ∧ t.slotKey k.val = 0) ∧ s.regsKept t ((List.range 64).flatMap
          (fun k => [TR_INFO k, TR_COUNT k, TR_LIMITS k, TR_WARNS k, TR_RESERVE k])) ∧ s.memKept t)) ∧
      (s.levelCauses target ≠ [] → target = 2 ∨ target = 3 → Answers .sleepStateEntered s (fun t =>
        t.power.phase = .waking s.tick false ∧ t.test PWR_WAKE_AT_ENTRY = true ∧
        (∀ f ∈ s.levelCauses target, t.test f = true) ∧ t.cores = s.cores))) ∧
    (let woke := fun (t : State) (f : Field) => t.power.phase = .waking s.tick false ∧ t.test f = true ∧ quiet t ∧
       t.power.orbit = none
     s.power.phase = .rest ∨ s.power.phase = .orbit ∨ s.power.phase = .leaving →
       (∀ w : WakeSource, s.wakeOn target w = true →
         (wakeEdge w = false → s.atSlowEdge = true → Answers (.wake w) s (fun t => woke t (wakeField w) ∧
           s.regsKept t [PWR_WAKE, PWR_STATE])) ∧
         (wakeEdge w = false → s.atSlowEdge = false → exec (.wake w) s = .next s) ∧
         (wakeEdge w = true → Answers (.wake w) s (fun t => t.power.wakes = s.power.wakes ++ [wakeField w] ∧
           t.power.phase = s.power.phase ∧ t.regs = s.regs ∧ quiet t ∧ woke t.wakeEdges (wakeField w)))) ∧
       (s.actionWakes = true → target ≠ 4 → s.atSlowEdge = true → Answers .actionWake s (fun t =>
         woke t PWR_WAKE_ACTION ∧ s.regsKept t [PWR_WAKE, PWR_STATE]))) ∧
    (∀ w : WakeSource, s.power.phase = .entry 0 → wakeEdge w = true → target ≠ 4 → s.wakeOn target w = true →
      Answers (.wake w) s (fun t => t.power.captured = true ∧ t.power.phase = .entry 0 ∧
        t.test PWR_WAKE_ENTRY_CANCEL = true ∧ t.test (wakeField w) = true ∧ s.regsKept t [PWR_WAKE] ∧ quiet t)) ∧
    (∀ w : WakeSource, s.power.phase = .dormant → s.atSlowEdge = true → s.wakeOn 4 w = true → Answers (.dormantExit w) s (fun t =>
      t.test (wakeField w) = true ∧ t.get SYS_RSTCAUSE_CAUSE = 3 ∧ t.mesh = 0 ∧ t.keeper.kind = .dormant ∧
      t.rtc = s.rtc ∧ t.power.phase = .run)) ∧
    (∀ b e, s.power.phase = .waking b e →
      (768 ≤ s.tick - b → s.test PWR_CTL_EARLY = true → exec .fastRcRunning s =
        .next { s with power := { s.power with phase := .waking b true } }) ∧
      ((s.test CLK_STAT_REF_OK = true ∧ s.test CLK_STAT_SPLL = true) ∨
          (s.test CLK_STAT_REF_FAIL = true ∧ 768 ≤ s.tick - b) →
        s.power.fromPass = false ∨ 2304 ≤ s.tick - b → Answers .wakeRunReached s (fun t =>
        t.power.phase = .run ∧ t.get PWR_STATE_STATE = 0 ∧ quiet t)))

/-- R392-R396, R411: the clock sources and the supplies. A reference that is ready clears a failure and lets the
system PLL lock; one that fails puts the radio OFF and is reported; the slow clock's failure falls back on its RC; a
calibration window that is complete moves RATE by its gain; SUP_STAT shows each supply, and without VIO a GPIO ball
that nothing outside drives is Z. Every form named answers a next state, its own effect, wherever the conditions on
the state and its operands hold. (Where the spec leaves a reading open, the model's own: notes/assumptions 37.) -/
def Obligations.ClockSourceEffects : Prop :=
  ∀ s : State, s.stopped = false →
    let quiet := fun (t : State) => s.memKept t ∧ s.coresKept t
    let wanted := s.refWanted = true
    (wanted → s.test CLK_STAT_REF_OK = false → s.test CLK_STAT_REF_FAIL = false →
      Answers .referenceReady s (fun t => t.test CLK_STAT_REF_OK = true ∧ t.power.refMesh = s.power.refMesh ∧
        s.regsKept t [CLK_STAT] ∧ quiet t)) ∧
    (wanted → s.test CLK_STAT_REF_OK = false → s.test CLK_STAT_REF_FAIL = true → s.power.retry = true →
      Answers .referenceReady s (fun t => t.test CLK_STAT_REF_OK = true ∧ t.test CLK_STAT_REF_FAIL = false ∧
        t.power.retry = false ∧ quiet t)) ∧
    (wanted → s.power.phase ≠ .pass → s.test CLK_STAT_REF_OK = true → exec .systemPllLock s =
      .next (s.put CLK_STAT_SPLL 1)) ∧
    (wanted → s.test CLK_STAT_REF_FAIL = false ∨ s.power.retry = true → Answers .refFail s (fun t =>
      t.power.refMesh = false ∧ (s.test YRD_CTL_EN = false → s.yst ≠ yFAILED → t.test CLK_STAT_REF_OK = false ∧
        t.test CLK_STAT_SPLL = false ∧ t.test CLK_STAT_REF_FAIL = true ∧ t.rfe = 0 ∧ t.test (faultBit 20) = true ∧
        quiet t))) ∧
    (s.clocked = true → s.test CLK_STAT_REF_FAIL = true → exec .refRetry s = .next { s with power := { s.power with retry := true } }) ∧
    (s.clocked = true → s.test CLK_STAT_REF_FAIL = false → exec .refRetry s = .next s) ∧
    (∀ d : BitVec 2, s.clocked = true → Answers (.cdivWrite d) s (fun t => t.get CLK_CTL_CDIV = d.toNat ∧ s.regsKept t [CLK_CTL] ∧
      quiet t)) ∧
    (s.test SLK_CFG_SRC = false → s.power.slowRc = false → Answers .slkFail s (fun t =>
      t.test CLK_STAT_SLK_RC = true ∧ t.power.slowRc = true ∧ t.test CLK_STAT_SLK_FAIL = true ∧ t.test (faultBit 19) = true ∧ quiet t)) ∧
    (∀ v : W20, s.clocked = true → Answers (.slkCfgWrite v) s (fun t => t.test SLK_CFG_SRC = v.getLsbD 0 ∧
      t.test CLK_STAT_SLK_RC = v.getLsbD 0 ∧ t.power.slowRc = v.getLsbD 0 ∧ s.regsKept t [SLK_CFG, CLK_STAT] ∧ quiet t)) ∧
    (∀ n : Nat, s.inAir = true → s.power.winN = some n → s.get MT_CAL_CALG = 0 →
      n * 2 ^ (20 - s.calw) < 2 ^ 31 → Answers (.rateWindowEnd n) s (fun t => t.rate = n * 2 ^ (20 - s.calw) ∧
        t.test CLK_STAT_RATE_OK = true ∧ t.power.winN = none ∧ s.regsKept t [MT_RATEI, MT_RATEF, CLK_STAT] ∧ quiet t)) ∧
    (∀ (b : Supply) (good : Bool), let f := match b with
        | .vio => SUP_STAT_VIO | .vfl => SUP_STAT_VFL | .vbkp => SUP_STAT_VBKP
        | .vddq => SUP_STAT_VDDQ | .vpp => SUP_STAT_VPP
      (b = .vfl ∨ b = .vbkp ∨ (b ≠ .vio ∧ good = true) →
        Answers (.supplyGoodChange b good) s (fun t => t.test f = good ∧ s.regsKept t [SUP_STAT] ∧ quiet t)) ∧
      (b = .vio → Answers (.supplyGoodChange b good) s (fun t => t.test f = good ∧
        (good = false → ∀ n : Fin 24, t.pins.getLsbD n.val = false → t.ball n.val = none) ∧ quiet t)))

/-- R407-R410: orbit. A pass that is due starts in the slot its phase names, prepared or not, or is skipped behind one
that still runs; it prepares the reference and the radio's holders at slow-clock edges; a LISTEN step runs stalls on
its channels, a CHECK ends at once by its test, a PAUSE waits, an END ends the pass; a step ends at its hit, or after
its duration without one, with its HIT or MISS outcome (next, wake, jump, end); a pass that has ended goes to sleep
with the radio OFF. Every form named answers a next state, its own effect, wherever the conditions on the state and
its operands hold. (Where the spec leaves a reading open, the model's own: notes/assumptions 37.) -/
def Obligations.OrbitEffects : Prop :=
  ∀ s : State, s.stopped = false →
    let quiet := fun (t : State) => s.memKept t ∧ s.coresKept t
    let a := s.orbitSlot
    let due := s.test ORB_CTL_EN = true ∧ s.power.target = 3 ∧ s.test SCH_CTL_RUN = true ∧
      s.power.lastPass ≠ some (BitVec.ofInt 40 a)
    (s.test ORB_CTL_EN = true → s.power.target = 3 → s.test SCH_CTL_RUN = false → s.power.phase = .orbit →
      exec .orbitPassStart s = .next (s.put ORB_STAT_NOSCHED 1)) ∧
    (due → s.power.phase = .orbit → Answers .orbitPassStart s (fun t => t.power.phase = .pass ∧
      t.power.lastPass = some (BitVec.ofInt 40 a) ∧
      t.power.orbit = some ⟨BitVec.ofInt 40 a, true, 0, 0, none, [], false, []⟩ ∧ s.regsKept t [PWR_STATE] ∧ quiet t)) ∧
    (∀ o, s.power.orbit = some o → o.slot = BitVec.ofInt 40 a → due → s.power.phase = .pass →
      Answers .orbitPassStart s (fun t => t.power.orbit = some { o with started := true } ∧
        t.power.lastPass = some o.slot ∧ t.regs = s.regs ∧ quiet t)) ∧
    (∀ o, s.power.orbit = some o → o.slot ≠ BitVec.ofInt 40 a → due → s.power.phase = .pass →
      Answers .orbitPassStart s (fun t => t.test ORB_STAT_SKIPPED = true ∧ t.power.orbit = some o ∧
        s.regsKept t [ORB_STAT] ∧ quiet t)) ∧
    (let n := s.orbitNext
     s.test ORB_CTL_EN = true → s.test SCH_CTL_RUN = true → (∃ k : Fin 8, s.get (ORB_S_OP_OP k.val) = 1) →
      (s.power.phase = .orbit → s.atSlowEdge = true → s.mark n + s.getInt ORB_T0_VALUE - s.get ORB_PREP_VALUE ≤ s.mesh.toNat →
        Answers .orbitPrepare s (fun t => t.power.phase = .pass ∧
          t.power.orbit = some ⟨BitVec.ofInt 40 n, false, 0, 0, none, [], false, []⟩ ∧ s.regsKept t [PWR_STATE] ∧ quiet t)) ∧
      (∀ o, s.power.orbit = some o → s.power.phase = .pass → o.prepared = false → s.atSlowEdge = true →
        s.test CLK_STAT_REF_OK = true → s.test CLK_STAT_REF_FAIL = false → s.rfe = 0 →
        s.mark o.slot.toNat + s.getInt ORB_T0_VALUE - 27648 ≤ s.mesh.toNat + (s.get MT_RATEI_VALUE % 2 ^ 11 : Nat) → Answers .orbitPrepare s (fun t =>
          t.rfe = 1 ∧ t.window = 1 ∧ t.power.orbit = some { o with prepared := true } ∧
          (∀ h ∈ [0, 2, 5], t.holds h = true ∨ t.asked h = true) ∧ quiet t))) ∧
    (∀ o, s.power.orbit = some o → s.power.phase = .pass → o.started = true → o.begun = none →
      o.step < 8 →
      let k := o.step
      let op := s.get (ORB_S_OP_OP k)
      (op = 1 → Answers .orbitListen s (fun t => (∃ r, t.power.orbit = some r ∧ r.begun = some s.tick ∧ r.step = k ∧
        r.stalls = (List.range (s.get (ORB_S_OP_NST k) + 1)).map
          (fun j => s.hopChannel o.slot (s.get (ORB_S_OP_OFS k) + j))) ∧
        (s.rfe ≠ 4 → t.test ORB_STAT_LATE = true) ∧ quiet t)) ∧
      (op = 3 → exec .orbitPause s = .next { s with power := { s.power with
        orbit := some { o with begun := some s.tick } } }) ∧
      (op = 0 → exec .orbitEnd s = .next { s with power := { s.power with orbit := some { o with step := 8 } } }) ∧
      (op = 2 → s.get (ORB_S_OP_TEST k) = 4 → s.test CHD_FLAGS_KNOCKED = true → s.get (ORB_S_OP_HIT k) = 1 →
        Answers .orbitCheck s (fun t => t.power.phase = .waking s.tick false ∧ t.test PWR_WAKE_ORBIT = true ∧
          t.get ORB_STAT_STEP = k ∧ t.get ORB_STAT_TEST = 4 ∧ quiet t)) ∧
      (op = 2 → s.get (ORB_S_OP_TEST k) = 0 → s.get (ORB_S_OP_MISS k) = 2 → o.executed < 15 →
        Answers .orbitCheck s (fun t => (∃ r, t.power.orbit = some r ∧ r.step = s.get (ORB_S_OP_JUMP k) ∧
          r.executed = o.executed + 1 ∧ r.begun = none) ∧ quiet t))) ∧
    (∀ o, s.power.orbit = some o → ∀ b, o.begun = some b → s.power.phase = .pass → o.step < 8 →
      let k := o.step
      let ended := fun (t : State) (n : Nat) => (∃ r, t.power.orbit = some r ∧ r.step = n ∧
        r.executed = o.executed + 1 ∧ r.begun = none) ∧ t.get ORB_STAT_STEP = k ∧ quiet t
      (s.get (ORB_S_OP_OP k) = 1 → o.heard.contains (s.get (ORB_S_OP_TEST k)) = true → s.get (ORB_S_OP_HIT k) = 1 →
        ∀ hit : Bool, Answers (.orbitStepEnd hit) s (fun t => t.power.phase = .waking s.tick false ∧
          t.test PWR_WAKE_ORBIT = true ∧ (∀ p ∈ o.stalls, p < 48 → t.test (STL_CFG_EN p) = true) ∧ quiet t)) ∧
      (max 1 (s.get (ORB_S_DUR_DUR k)) ≤ s.tick - b → s.orbitHit o b = false →
        (s.get (ORB_S_OP_MISS k) = 0 → o.executed < 15 → Answers (.orbitStepEnd false) s (fun t => ended t (k + 1))) ∧
        (s.get (ORB_S_OP_MISS k) = 3 → Answers (.orbitStepEnd false) s (fun t => ended t 8)) ∧
        (o.executed = 15 → s.get (ORB_S_OP_MISS k) ≠ 1 → Answers (.orbitStepEnd false) s (fun t => ended t 8 ∧
          t.test ORB_STAT_LOOP = true)))) ∧
    (∀ o, s.power.orbit = some o → s.power.phase = .pass → 8 ≤ o.step → Answers .orbitPassSleep s (fun t =>
      t.power.phase = .leaving ∧ t.test CLK_STAT_REF_OK = false ∧ t.power.refMesh = s.power.refMesh ∧ t.rfe = 0 ∧ t.window = 0 ∧
      (∀ p : Pos, t.get (STL_STATUS_STATE p.val) ≠ 5) ∧ (∀ h ∈ [0, 2, 5], t.holds h = false) ∧ s.coresKept t))

/-- R6, R43, R435, R436, R411, R461: the resets. A cold reset leaves its cause, mesh time 0, the RTC and the flash as
they were, POOL at the effective ceiling and every ration free; a warm reset keeps memory and mesh time, shows WARM
with its cause, and frees every ration; below the VBAT threshold the device is held; task mode and the host cannot
reset it. (Where the spec leaves a reading open, the model's own: notes/assumptions 31.) -/
def Obligations.ResetEffects : Prop :=
  ∀ s : State,
    let freed := fun (t : State) => t.manger.accts = [] ∧ t.manger.waits = [] ∧ t.manger.free = t.mngTotal ∧
      t.keeper.started = false ∧ t.pending = s.pending ∧ t.otp = s.otp ∧ t.rtc = s.rtc ∧
      (∀ c, t.core c = CoreSt.reset ∨ (t.core c).bare = CoreSt.reset.bare)
    let cold := fun (t : State) (cause : Nat) => t.get SYS_RSTCAUSE_CAUSE = cause ∧ t.test SYS_RSTCAUSE_WARM = false ∧
      t.mesh = 0 ∧ t.keeper.kind = .cold ∧ t.get FLT_SPARE_MARGIN = 0 ∧ t.get MNG_POOL_POOL = s.get MNG_CEIL_CEILING ∧ freed t
    let warm := fun (t : State) (cause : Nat) => t.get SYS_RSTCAUSE_CAUSE = cause ∧ t.test SYS_RSTCAUSE_WARM = true ∧
      t.mesh = s.mesh ∧ t.sram = s.sram ∧ t.pram = s.pram ∧ t.loft = s.loft ∧ t.cipher.keys = s.cipher.keys ∧
      t.keeper.kind = .warm ∧ t.rg MNG_POOL = s.rg MNG_POOL ∧ freed t
    Answers .resetPor s (fun t => cold t 1 ∧ t.stopped = false) ∧
    (s.power.vbatLow = false → Answers .resetPin s (fun t => cold t 2 ∧ t.stopped = false)) ∧
    Answers (.vbatBrownout true) s (fun t => t.stopped = true ∧ cold t 1) ∧
    (s.power.vbatLow = true → Answers (.vbatBrownout false) s (fun t => t.stopped = false ∧ cold t 1)) ∧
    (s.power.vbatLow = false → exec (.vbatBrownout false) s = .next s) ∧
    (∀ b, s.faults.fatalAt = some b → s.power.held = false → 64 ≤ s.tick - b →
      Answers .fatalWarmReset s (fun t => warm t 6 ∧ t.faults.fatalAt = none)) ∧
    (∀ b, s.faults.fatalAt = some b → s.tick - b < 64 → exec .fatalWarmReset s = .next s) ∧
    (∀ src : Source,
      let may := match src with
        | .core _ p => p
        | .host => false
        | _ => true
      let reach := s.mayReach src SYS_RST
      (may = false ∨ reach = false → src ≠ .host ∨ reach = true ∨ s.awake = false →
        exec (.resetSoftWarm src) s = .next s ∧ exec (.resetSoftCold src) s = .next s ∧
        exec (.resetRecovery src) s = .next s) ∧
      (src = .host → reach = false → s.awake = true → exec (.resetSoftWarm src) s = .next (s.hitchErr 1) ∧
        exec (.resetSoftCold src) s = .next (s.hitchErr 1) ∧ exec (.resetRecovery src) s = .next (s.hitchErr 1)) ∧
      (may = true → reach = true → s.power.held = false → s.power.vbatLow = false →
        Answers (.resetSoftWarm src) s (fun t => warm t 5 ∧ t.keeper.recov = false) ∧
        Answers (.resetSoftCold src) s (fun t => cold t 4) ∧
        Answers (.resetRecovery src) s (fun t => warm t 8 ∧ t.keeper.recov = true)))

/-- R438, R439, R443, R449, R451-R453, R469, R470, R489, R492: the keeper's start. A sequence that is due advances the
boot counter, shows REASON, releases B0 at 0xC000 and, after a cold start, draws the keys at first light and fills the
lofts; without a REASON the ROM issues APPLY for part 0, with one it enters recovery; halter mode is in force from
tick 96,000, whether or not B0 is released; DECLARE ends it; the watchdog resets a start that is not declared; the
ageing check, a day after the last one, raises the supply with a record of it. Whether an OTP row can be programmed in
service is open (notes/assumptions/59.md). (Where the spec leaves a reading open, the model's own: notes/assumptions
32, 33, 59.) -/
def Obligations.KeeperStartEffects : Prop :=
  ∀ s : State, s.stopped = false →
    let k := s.keeper
    let quiet := fun (t : State) => s.memKept t ∧ s.coresKept t
    let due := k.started = false ∧ k.valid = true ∧ k.count + 1 < 2 ^ 24
    let reason := fun (low : Bool) => if low then 1 else if 8 ≤ k.fails then 2 else if k.recov then 4 else 0
    let begun := fun (t : State) (low : Bool) => t.keeper.started = true ∧ t.keeper.count = k.count + 1 ∧
      t.get KMB_BOOT_REASON = reason low ∧ (t.core 0).pc = 0xC000 ∧ (t.core 0).sw = CoreSt.reset.sw ∧
      ((t.core 0).run = .running ∨ (t.core 0).run = .starting) ∧
      ∀ c : CoreId, c ≠ 0 → (t.core c).bare = (s.core c).bare
    (∀ st : SelfTest,
      (due → k.kind = .cold → Answers (.keeperSequence st) s (fun t => begun t st.recovLow ∧
        (∀ c w, t.loftWord c w = 0xFFFFF) ∧ (st.otpOk = true ∨ s.otp.lit = true → t.otp.lit = true) ∧
        (s.otp.lit = true → t.otp.kek = s.otp.kek ∧ t.otp.d = s.otp.d) ∧
        t.rg FLC_INFO = st.flcInfo &&& 0x81FFF ∧
        (reason st.recovLow = 0 → s.update.run = none → ∃ r, t.update.run = some r ∧ r.op = 4 ∧ r.part = 0) ∧
        (reason st.recovLow ≠ 0 → t.rg U0_BAUD = 0x000A7 ∧ t.update.owed = [] ∧ ∀ j, j < 0x4000 →
          t.flashByte (receiptAt 0 + j) = 0xFF))) ∧
      (k.started = true → exec (.keeperSequence st) s = .next s)) ∧
    (∀ low : Bool,
      (due → k.kind ≠ .cold → Answers (.keeperShortSequence low) s (fun t => begun t low)) ∧
      (k.started = true → exec (.keeperShortSequence low) s = .next s)) ∧
    (s.test KMB_BOOT_SERVICE = false → s.test KMB_BOOT_HALTER = false →
      96000 ≤ s.tick - s.power.rstTick → Answers .halterModeInForce s (fun t => t.test KMB_BOOT_HALTER = true ∧
        t.test STC_STATE_HALTER = true ∧ t.test CHD_STATE_HALTER = true ∧ s.memKept t)) ∧
    (∀ src : Source, s.clocked = true →
      let may := mayTrust src
      (may = false ∨ s.test KMB_BOOT_SERVICE = true → src ≠ .host ∨ s.mayReach src KMB_SVC = true →
        exec (.declareService src) s = .next s) ∧
      (may = true → s.test KMB_BOOT_SERVICE = false → Answers (.declareService src) s (fun t =>
        t.test KMB_BOOT_SERVICE = true ∧ t.test KMB_BOOT_HALTER = false ∧ t.keeper.fails = 0 ∧
        t.keeper.launch = none ∧ s.memKept t ∧ s.coresKept t))) ∧
    (∀ v : W20, s.clocked = true → exec (.kmbWdogWrite v) s = .next (s.setRg KMB_WDOG v)) ∧
    (∀ b, k.launch = some b →
      let ms := s.get KMB_WDOG_MS
      (ms ≠ 0 → s.get KMB_BOOT_REASON = 0 → 38400 * ms ≤ s.tick - b → Answers .startTimeout s (fun t =>
        t.get SYS_RSTCAUSE_CAUSE = 7 ∧ t.test SYS_RSTCAUSE_WARM = true ∧ t.mesh = s.mesh ∧ t.sram = s.sram ∧
        t.keeper.launch = none ∧ t.keeper.started = false)) ∧
      (ms = 0 ∨ s.get KMB_BOOT_REASON ≠ 0 ∨ s.tick - b < 38400 * ms → exec .startTimeout s = .next s)) ∧
    (∀ m : BitVec 7, let n := s.otp.vsteps
      let due := s.power.phase = .run ∧ s.allGated = false ∧ 86400 * 38400000 ≤ s.tick - s.faults.aged
      (¬ due → exec (.ageingCheck m) s = .next s) ∧
      (due → Answers (.ageingCheck m) s (fun t => t.get FLT_SPARE_MARGIN = m.toNat ∧ t.faults.aged = s.tick ∧ quiet t ∧
        (5 ≤ m.toNat → t.otp = s.otp ∧ s.regsKept t [FLT_SPARE]) ∧
        (m.toNat < 5 → 4 ≤ n → t.otp = s.otp ∧ t.test (faultBit 32) = true) ∧
        (m.toNat < 5 → n < 4 → 64 ≤ s.otp.rows → t.otp = s.otp ∧ t.test (faultBit 33) = true) ∧
        (m.toNat < 5 → n < 4 → t.get FLT_SPARE_VSTEPS = t.otp.vsteps ∧ (t.otp.vsteps = n ∨ t.otp.vsteps = n + 1) ∧
          (s.otp.rows < 64 → t.otp.rows = s.otp.rows + 1)))))

/-- R293, R302-R305, R448, R454: the keeper's orders. One order runs at a time, and another is refused with REFUSED; a
source that may not give it gets result 8; an order for a record that OTP holds gets 9, a bad operand 10; ROOT_SET,
ROOT_REVOKE and DBG_UNLOCK are taken when their operand meets every condition (before SEAL without a signature, after
it with one, once a boot); BOOT stops B0; an order that works with the engines waits for their charge, and BOOT for
the flash and for an update command that holds it; at its end an accepted order commits what it names, with an OTP
failure as result 11. Every form named answers a next state, its own effect, wherever the conditions on the state and
its operands hold. (Where the spec leaves a reading open, the model's own: notes/assumptions 32.) -/
def Obligations.KeeperOrderEffects : Prop :=
  ∀ s : State, s.clocked = true → s.otp.lit = true →
    let o := s.otp
    let arg := s.get KMB_ARG_VALUE
    let quiet := fun (t : State) => s.memKept t ∧ s.coresKept t
    let taken := fun (t : State) (code : Nat) (p : Nat → OtpCommit → Prop) => t.test KMB_STAT_BUSY = true ∧
      t.get KMB_STAT_LAST = code ∧ t.otp = o ∧ ∃ x, t.keeper.order = some x ∧ x.code = code ∧ p x.res x.commit
    (∀ src : Source, s.lattice.acts.contains (0xF0, s.lattice.cyc) = false →
      let each := fun (P : Nat → State → Prop) => Answers (.koBoot src) s (P 1) ∧ Answers (.koFailsClear src) s (P 2) ∧
        Answers (.koRootSet src) s (P 0x10) ∧ Answers (.koRootRevoke src) s (P 0x11) ∧
        Answers (.koSeal src) s (P 0x12) ∧ Answers (.koDbgUnlock src) s (P 0x13) ∧
        Answers (.koCeilSet src) s (P 0x20) ∧ Answers (.koHalterSet src) s (P 0x21) ∧
        Answers (.koEnergyClass src) s (P 0x22) ∧ Answers (.koFloorRaise src) s (P 0x23)
      let reach := s.mayReach src KMB_ORDER = true
      (s.mayReach src KMB_ORDER = false → src ≠ .host → each (fun _ t => t = s)) ∧
      (∀ x, s.keeper.order = some x → reach → each (fun code t => t.test KMB_FLAGS_REFUSED = true ∧
        t.keeper = s.keeper ∧ t.otp = o ∧ t.rg KMB_ORDER = BitVec.ofNat 20 code ∧
        s.regsKept t [KMB_ORDER, KMB_FLAGS] ∧ quiet t)) ∧
      (s.keeper.order = none →
        (mayTrust src = false → reach → each (fun code t => taken t code (fun r c => r = 8 ∧ c = .none) ∧
          s.regsKept t [KMB_ORDER, KMB_STAT] ∧ quiet t)) ∧
        (mayTrust src = true → src ≠ .debug ∨ o.isSealed = false →
          ((∃ p, src = .core 0 p) → Answers (.koBoot src) s (fun t => taken t 1 (fun r _ => r = 0) ∧ s.memKept t ∧
            ((s.core 0).run ≠ .doubleExc → (t.core 0).run = .stopped))) ∧
          ((∀ p, src ≠ .core 0 p) → Answers (.koBoot src) s (fun t => taken t 1 (fun r _ => r = 8))) ∧
          Answers (.koFailsClear src) s (fun t => taken t 2 (fun r _ => r = 0) ∧ quiet t) ∧
          Answers (.koSeal src) s (fun t => taken t 0x12 (fun r c => (r = 0 ↔ o.isSealed = false ∧ o.anyRoot = true) ∧
            (r = 0 → c = .seal) ∧ (r ≠ 0 → r = 6)) ∧ quiet t) ∧
          Answers (.koEnergyClass src) s (fun t => taken t 0x22 (fun r c => (o.energy = true → r = 9) ∧
            (o.energy = false → r = 0 ∧ c = .energy)) ∧ quiet t) ∧
          Answers (.koCeilSet src) s (fun t => taken t 0x20 (fun r c => (o.ceil.isSome = true → r = 9) ∧
            (o.ceil = none → arg % 1024 = 0 ∨ arg % 1024 < s.manger.heldSum → r = 10) ∧
            (o.ceil = none → arg % 1024 ≠ 0 → s.manger.heldSum ≤ arg % 1024 → r = 0 ∧
              c = .ceil (BitVec.ofNat 11 arg))) ∧ quiet t) ∧
          Answers (.koHalterSet src) s (fun t => taken t 0x21 (fun r _ => (o.halter.isSome = true → r = 9) ∧
            (o.halter = none → r = 0 ∨ r = 10)) ∧ quiet t) ∧
          Answers (.koFloorRaise src) s (fun t => taken t 0x23 (fun r c => (16 ≤ o.floors.length → r = 9) ∧
            (∀ v, c = .floor v → o.floor < v.toNat ∧ r = 0)) ∧ quiet t)) ∧
        (src = .debug → o.isSealed = true → Answers (.koBoot src) s (fun t => taken t 1 (fun r _ => r = 8)) ∧
          Answers (.koSeal src) s (fun t => taken t 0x12 (fun r _ => r = 8)) ∧
          Answers (.koRootSet src) s (fun t => taken t 0x10 (fun r _ => r = 8)) ∧
          Answers (.koRootRevoke src) s (fun t => taken t 0x11 (fun r _ => r = 8)) ∧
          Answers (.koFailsClear src) s (fun t => taken t 2 (fun r _ => r = 8)) ∧
          Answers (.koCeilSet src) s (fun t => taken t 0x20 (fun r _ => r = 8)) ∧
          Answers (.koHalterSet src) s (fun t => taken t 0x21 (fun r _ => r = 8)) ∧
          Answers (.koEnergyClass src) s (fun t => taken t 0x22 (fun r _ => r = 8)) ∧
          Answers (.koFloorRaise src) s (fun t => taken t 0x23 (fun r _ => r = 8))) ∧
        (mayTrust src = true →
          (let a := s.get KMB_ADDR_VALUE
           let l := s.bytes .sram a 236
           let target := beAt l 42 1
           let signer := beAt l 43 1
           let key := (l.drop 44).take 64
           let signed := fun (magic : List Byte) => s.test TRUST_STATE_ORDER_USED = false ∧ l.take 4 = magic ∧
             (l.drop 4).take 32 = s.idDigest ∧ s.test SYS_OTP_BCNT_SPENT = false ∧ beAt l 36 4 = s.bootCount ∧
             o.rootIs signer key = true ∧ signedBy key (l.drop 172) (l.take 172) = true
           a + 236 ≤ 0xA0000 → (∀ g, a / 4 ≤ g → g ≤ (a + 235) / 4 → s.chk g = .good) →
           let trusts := src ≠ .debug ∨ o.isSealed = false
           (o.isSealed = true → s.test TRUST_STATE_ORDER_USED = true →
             (trusts → Answers (.koRootSet src) s (fun t => taken t 0x10 (fun r c => r = 7 ∧ c = .none)) ∧
               Answers (.koRootRevoke src) s (fun t => taken t 0x11 (fun r c => r = 7 ∧ c = .none))) ∧
             Answers (.koDbgUnlock src) s (fun t => taken t 0x13 (fun r c => r = 7 ∧ c = .none))) ∧
           (trusts → o.isSealed = false ∨ signed [0x52, 0x53, 0x54, 0x31] ∧ target ≠ signer → target ≤ 1 → o.rootSet target = none →
             Answers (.koRootSet src) s (fun t => quiet t ∧ taken t 0x10 (fun r c => r = 0 ∧
               c = .rootSet target (BitVec.ofNat 256 (ofBytesBE (sha256 ((l.drop 108).take 64))))))) ∧
           (trusts → o.isSealed = false ∧ o.validRoot (1 - target) ≠ none ∨
               signed [0x52, 0x52, 0x56, 0x31] ∧ target ≠ signer →
             o.validRoot target ≠ none → Answers (.koRootRevoke src) s (fun t => quiet t ∧
               taken t 0x11 (fun r c => r = 0 ∧ c = .rootRevoke target))) ∧
           (o.isSealed = true → signed [0x44, 0x42, 0x54, 0x31] → beAt l 40 2 < 8 →
             Answers (.koDbgUnlock src) s (fun t => quiet t ∧ t.test TRUST_STATE_ORDER_USED = true ∧
               taken t 0x13 (fun r c => r = 0 ∧ c = .unlock (beAt l 40 2)))))))) ∧
    (∀ x, s.keeper.order = some x → ((x.engine = true ∧ s.holds 14 = false) ∨ (x.boots = true ∧
        (s.test FLC_STATUS_BUSY = true ∨ s.keeper.bootWaits = true)) ↔ s.orderReady x = false) ∧
      ∀ ok : Bool, s.orderReady x = false → exec (.keeperOrderDone ok) s = .next s) ∧
    (∀ x, s.keeper.order = some x → s.orderReady x = true → ∀ ok : Bool,
      let ended := fun (t : State) (r : Nat) => t.test KMB_STAT_BUSY = false ∧ t.get KMB_STAT_RESULT = r % 16 ∧
        t.test KMB_FLAGS_DONE = true ∧ t.keeper.order = none
      (x.res ≠ 0 → Answers (.keeperOrderDone ok) s (fun t => ended t x.res ∧ t.otp = o ∧ s.regsKept t [KMB_STAT, KMB_FLAGS] ∧ quiet t)) ∧
      (x.res = 0 → x.code = 2 → Answers (.keeperOrderDone ok) s (fun t => ended t 0 ∧ t.keeper.fails = 0 ∧ t.otp = o ∧ quiet t)) ∧
      (x.res = 0 → x.code = 1 → s.test FLC_INFO_PRESENT = false → Answers (.keeperOrderDone ok) s (fun t =>
        ended t 12 ∧ t.get KMB_BOOT_REASON = 3)) ∧
      (x.res = 0 → x.code ≠ 1 → x.code ≠ 2 →
        let gives := fun (p : Otp) => (ok = true → Answers (.keeperOrderDone ok) s (fun t => ended t 0 ∧ t.otp = p ∧ quiet t)) ∧
          (ok = false → Answers (.keeperOrderDone ok) s (fun t => ended t 11 ∧ t.otp = o ∧ quiet t))
        (x.commit = .energy → gives { o with energy := true }) ∧
        (x.commit = .seal → gives { o with isSealed := true }) ∧
        (∀ v, x.commit = .halter v → gives { o with halter := some v }) ∧
        (∀ v, x.commit = .floor v → gives { o with floors := o.floors ++ [v] }) ∧
        (∀ n d, x.commit = .rootSet n d → gives (if n = 0 then { o with root0 := some d } else { o with root1 := some d })) ∧
        (∀ n, x.commit = .rootRevoke n → gives (if n = 0 then { o with rev0 := true } else { o with rev1 := true })) ∧
        (∀ v, x.commit = .ceil v → s.manger.heldSum ≤ v.toNat % 1024 → gives { o with ceil := some v }) ∧
        (∀ n, x.commit = .unlock n → Answers (.keeperOrderDone ok) s (fun t => ended t 0 ∧ t.test TRUST_STATE_DBG_OPEN = true ∧
          t.get TRUST_STATE_SCOPE = n % 8 ∧ t.otp = o ∧ quiet t))))

/-- R474, R477, R482, R486, R490-R496: field update and ROM recovery. A command runs alone and from a source that may
give it, with the engines' charge asked for; it ends once it holds them, the flash controller and, for a piece, its
decryption, and shows its result: 13 for a phase that forbids it, 10 for a part out of range, what R481 names for a
piece; APPLY of a part that is IDLE, RECEIVING, CONFIRMED or REVERTED does nothing; CONFIRM and ABANDON write only the
journal, the mark and their records; a recovery BLOCK is programmed once, and one that is addressed to the device is
owed an answer, which leaves when its interface lets it; a whole image that passes is copied to the loader's area and
the device restarts. That RESUME with no stored manifest gives 14, and the results of a piece whose slot does not
decrypt or whose operand cannot be read, are the model's choice (notes/assumptions/34.md). (Where the spec leaves a
reading open, the model's own: notes/assumptions 8, 34, 35, 36.) -/
def Obligations.UpdateEffects : Prop :=
  ∀ s : State, s.stopped = false →
    let quiet := fun (t : State) => s.memKept t ∧ s.coresKept t
    (∀ (src : Source) (p : BitVec 3) (i : BitVec 14), s.clocked = true →
      let each := fun (P : Nat → Nat → Nat → State → Prop) => Answers (.updManifest src) s (P 1 0 0) ∧
        Answers (.updResume src) s (P 2 0 0) ∧ Answers (.updPiece src) s (P 3 0 0) ∧
        Answers (.updApply src p) s (P 4 p.toNat 0) ∧ Answers (.updConfirm src p) s (P 5 p.toNat 0) ∧
        Answers (.updPieceOut src p i) s (P 6 p.toNat i.toNat) ∧ Answers (.updAbandon src) s (P 7 0 0)
      let reach := s.mayReach src UPD_CMD = true
      (s.mayReach src UPD_CMD = false → src ≠ .host → each (fun _ _ _ t => t = s)) ∧
      (mayTrust src = true → reach → s.update.run = none → each (fun n part idx t =>
        t.test UPD_STAT_BUSY = true ∧ t.update = { s.update with run := some ⟨n, part, idx, s.get UPD_ADDR_ADDR, .idle⟩ } ∧
        (t.holds 14 = true ∨ t.asked 14 = true) ∧
        s.regsKept t [UPD_STAT] ∧ quiet t)) ∧
      (reach → mayTrust src = false ∨ s.update.run ≠ none → each (fun _ _ _ t =>
        t.get UPD_STAT_RESULT = 1 ∧ t.test UPD_FLAGS_REFUSED = true ∧ t.update = s.update ∧
        s.regsKept t [UPD_STAT, UPD_FLAGS] ∧ quiet t))) ∧
    (∀ x, s.update.run = some x → ∀ ok : Bool, s.inRun = true → s.updReady x = false →
      exec (.updCommandDone ok) s = .next s) ∧
    (∀ x, s.update.run = some x → ∀ ok : Bool, s.inRun = true → s.updHolds = true → s.holds 14 = true →
      let ended := fun (t : State) (r : Nat) => t.test UPD_STAT_BUSY = false ∧ t.get UPD_STAT_RESULT = r ∧
        t.test UPD_FLAGS_DONE = true ∧ t.update.run = none ∧ s.coresKept t
      let journalOnly := fun (t : State) => ∀ f, f < 0xC0000 ∨ 0x100000 ≤ f → t.flashByte f = s.flashByte f
      (4 ≤ x.op → x.op ≤ 6 → 4 < x.part → Answers (.updCommandDone ok) s (fun t => ended t 10 ∧ s.regsKept t [UPD_STAT, UPD_FLAGS] ∧
        s.memKept t)) ∧
      (x.op = 1 → s.flashUnfit = true → Answers (.updCommandDone ok) s (fun t => ended t 10 ∧ s.memKept t)) ∧
      (x.op = 2 → s.flashUnfit = false → s.stored = none → Answers (.updCommandDone ok) s (fun t => ended t 14 ∧ s.memKept t)) ∧
      (x.op = 3 → ∀ n, x.dec = .refused n → n < 16 → Answers (.updCommandDone ok) s (fun t => ended t n ∧ s.memKept t)) ∧
      (x.op = 3 → ∀ c, x.dec = .failed c → Answers (.updCommandDone ok) s (fun t =>
        ended t (if c = 0x20 then 8 else if c = 0x25 then 10 else 2) ∧ s.memKept t)) ∧
      (x.op = 6 → x.part ≤ 4 → s.test UPD_STAT_CAMP = false → Answers (.updCommandDone ok) s (fun t => ended t 2 ∧ s.memKept t)) ∧
      (x.op = 4 → x.part ≤ 4 → s.phase x.part = 2 →
        (∃ q, q < 5 ∧ (s.phase q = 3 ∨ s.phase q = 4)) → Answers (.updCommandDone ok) s (fun t => ended t 13 ∧ s.memKept t)) ∧
      (x.op = 4 → x.part ≤ 4 → (s.phase x.part = 0 ∨ s.phase x.part = 1 ∨ s.phase x.part = 5 ∨ s.phase x.part = 6) →
        Answers (.updCommandDone ok) s (fun t => ended t 0 ∧ s.memKept t)) ∧
      (x.op = 5 → x.part ≤ 4 → s.phase x.part ≠ 4 → Answers (.updCommandDone ok) s (fun t => ended t 13 ∧ s.memKept t)) ∧
      (x.op = 5 → x.part ≤ 4 → s.phase x.part = 4 → ok = true → Answers (.updCommandDone ok) s (fun t => ended t 0 ∧ journalOnly t ∧
        (s.orderLast = some x.part → t.test UPD_FLAGS_DONE_ALL = true) ∧ ∀ r a, t.byte r a = s.byte r a)) ∧
      (x.op = 7 → (∃ q, q < 5 ∧ (s.phase q = 3 ∨ s.phase q = 4)) → Answers (.updCommandDone ok) s (fun t => ended t 13 ∧ s.memKept t)) ∧
      (x.op = 7 → (∀ q, q < 5 → s.phase q ≠ 3 ∧ s.phase q ≠ 4) → ok = true → Answers (.updCommandDone ok) s (fun t => ended t 0 ∧
        t.test UPD_STAT_CAMP = false ∧ t.stored = none ∧ (∀ r a, t.byte r a = s.byte r a) ∧
        ∀ f, f < 0xC0000 ∨ 0x100404 ≤ f → t.flashByte f = s.flashByte f))) ∧
    (∀ x, s.update.run = some x → x.op = 3 → x.dec = .idle → s.updHolds = true →
      (∀ w ∈ s.cipher.waits, w.src ≠ 1) → (s.test UPD_STAT_CAMP = false → ∃ r, s.updStep.update.run = some r ∧
        r.dec = .refused 2 ∧ s.updStep.regs = s.regs)) ∧
    (∀ (q : Fin 4) (v : W20), s.clocked = true →
      (s.update.run = none → s.phase (q.val + 1) ≠ 3 → s.phase (q.val + 1) ≠ 4 → exec (.updAreaWrite q v) s =
        .next (s.setRg (UPD_AREA q.val) v)) ∧
      (s.update.run ≠ none ∨ s.phase (q.val + 1) = 3 ∨ s.phase (q.val + 1) = 4 → exec (.updAreaWrite q v) s =
        .next (s.put UPD_FLAGS_REFUSED 1))) ∧
    (∀ (f : RecovIface) (w l : List Byte), recoveryFrame f w = some l → s.inRun = true → s.recovering = true →
      s.recoveryHears f = true → s.blockFits l = true →
      let i := beAt l 8 2
      let noted := fun (t : State) => (beAt l 1 4 ≠ 0xFFFFFFFF → t.update.last = some (f, i) ∧
        t.update.owed = s.update.owed ++ [(f, i, s.tick)]) ∧ (beAt l 1 4 = 0xFFFFFFFF → (l.drop 1).take 4 ≠ s.idDigest.take 4 →
        t.update.last = s.update.last ∧ t.update.owed = s.update.owed)
      (s.flashUnfit = true → Answers (.recoveryBlock f w) s (fun t => t.get UPD_STAT_RESULT = 10 ∧ noted t ∧
        s.regsKept t [UPD_STAT] ∧ quiet t)) ∧
      (s.flashUnfit = false → s.received 0 i = true → Answers (.recoveryBlock f w) s (fun t =>
        t.update.total = some (beAt l 5 3) ∧ noted t ∧ t.regs = s.regs ∧ quiet t)) ∧
      (s.flashUnfit = false → s.received 0 i = false → s.flashByte (receiptAt 0 + i) = 0xFF →
        Answers (.recoveryBlock f w) s (fun t => t.received 0 i = true ∧
          (∀ j (h : 10 + j < l.length), t.flashByte (s.stagingAt 0 + 1024 * i + j) =
            s.flashByte (s.stagingAt 0 + 1024 * i + j) &&& l[10 + j]) ∧ t.update.total = some (beAt l 5 3) ∧ noted t ∧
          t.regs = s.regs ∧ s.coresKept t))) ∧
    (∀ f i a rest, s.inRun = true → s.recovering = true → s.update.owed = (f, i, a) :: rest →
      let due := match f with
        | .radio => s.tick = a + 384000
        | .chord => s.test KMB_BOOT_HCHORD = true ∧ s.chordIdle = true
        | .uart => True
      (due → Answers .recoveryStatus s (fun t => t.update.owed = rest ∧ t.update.sent = s.update.sent ++
        [(f, recoverySend f (s.statusFrame i (if s.flashUnfit = true then 2 else 0)))] ∧ quiet t)) ∧
      (¬ due → rest = [] → exec .recoveryStatus s = .next s)) ∧
    (∀ f i n, s.update.last = some (f, i) → s.inRun = true → s.recovering = true → s.update.total = some n →
      s.receivedAll 0 n = true →
      let good := s.goodLoader (s.stagingAt 0)
      Answers .recoveryImageJudged s (fun t =>
        (good = none → s.coresKept t ∧ (∃ y, t.update.sent = s.update.sent ++ [(f, recoverySend f y)] ∧ y[14]? = some 2) ∧
          (∀ a, a < receiptAt 0 ∨ receiptAt 0 + 0x4000 ≤ a → t.flashByte a = s.flashByte a) ∧
          ∀ j, j < 0x4000 → t.flashByte (receiptAt 0 + j) = 0xFF) ∧
        (good ≠ none → t.get SYS_RSTCAUSE_CAUSE = 5 ∧ t.test SYS_RSTCAUSE_WARM = true ∧ t.keeper.fails = 0 ∧
          (∃ y, t.update.sent = s.update.sent ++ [(f, recoverySend f y)] ∧ y[14]? = some 1) ∧ t.sram = s.sram)))

/-- R421-R433: the yard. EN asks for its holder with its supplies there; training ends in READY or FAILED; a request
is issued with what its device holds, never during a pause or a replay, and retires in order; a due refresh is
postponed behind an urgent request, at most eight; a retraining pause holds a channel, one at a time; alerts replay
and the third fails the yard; self-refresh returns the charge; a lost supply, and a yard turned off, lose the
contents; INIT writes zeros; a repair keeps every other row. Every form named answers a next state, its own effect,
wherever the conditions on the state and its operands hold. (Where the spec leaves a reading open, the model's own:
notes/assumptions 26, 56, 58.) -/
def Obligations.YardEffects : Prop :=
  ∀ s : State, s.stopped = false →
    let clear := ∀ c : Fin 2, (s.ych c.val).queue = [] ∧ (s.ych c.val).cmds = [] ∧ (s.ych c.val).done = []
    let on := s.clocked = true
    let runs := s.inRun = true
    let quiet := fun (t : State) => s.memKept t ∧ s.coresKept t
    (on → s.test SUP_STAT_VDDQ = true → s.test SUP_STAT_VPP = true → s.test TRNG_STAT_FAIL = false →
      s.test CLK_STAT_REF_FAIL = false → s.test YRD_CTL_EN = false → Answers .yardEnable s (fun t =>
        t.test YRD_CTL_EN = true ∧ (t.holds 11 = true ∨ t.asked 11 = true) ∧ t.yard = s.yard ∧
        s.regsKept t [YRD_CTL] ∧ quiet t)) ∧
    (on → s.test SUP_STAT_VDDQ = false ∨ s.test SUP_STAT_VPP = false → Answers .yardEnable s (fun t =>
      t.test YRD_FLAGS_CFG_REFUSED = true ∧ t.yard = s.yard ∧ s.regsKept t [YRD_FLAGS] ∧ quiet t)) ∧
    (∀ stp : W20, runs → s.yst = yTRAINING →
      Answers (.trainingDone true stp) s (fun t => t.yst = yREADY ∧ t.get YRD_STAT_CAP = s.yardCap / 2 ^ 24 % 512 ∧
        s.regsKept t [YRD_STAT] ∧ t.yard.bytes = s.yard.bytes ∧ quiet t) ∧
      (clear → Answers (.trainingDone false stp) s (fun t => t.yst = yFAILED ∧ t.holds 11 = false ∧
        t.test YRD_FLAGS_TRAIN_FAIL = true ∧ quiet t))) ∧
    (on → s.test YRD_CTL_EN = true ∨ s.yst = yFAILED → clear → Answers .yardDisable s (fun t => t.test YRD_CTL_EN = false ∧ t.yst = yOFF ∧
      t.holds 11 = false ∧ t.yard.bytes = [] ∧ t.yard.keys = none ∧ (∀ k, t.yardByte k = none) ∧ quiet t)) ∧
    (∀ ch : Fin 2, runs → let y := s.ych ch.val
      (∀ r, s.yardNext ch.val = some r → y.pause = false → y.replay = 0 → y.owed < 8 → y.rfcTo ≤ s.tick → y.cmds.length < 16 → s.yst = yREADY →
        s.yardStuck r.q = false → s.test YRD_CTL_ECC = false → r ∈ y.queue → (s.yardLocal r.q).1 = ch.val →
        Answers (.yardRequestServe ch) s (fun t => t.regs = s.regs ∧ quiet t ∧
          (t.ych ch.val).queue = y.queue.filter (fun x => x.id != r.id) ∧
          (r.wr = false → t.yard.bytes = s.yard.bytes ∧ (t.ych ch.val).cmds = y.cmds ++
            [{ r with data := (List.range r.len).map (fun i => s.yardRead1 (s.yardKey (r.q + i))) }]) ∧
          (r.wr = true → (t.ych ch.val).cmds = y.cmds ++ [r] ∧
            (∀ k, (∀ i, i < r.data.length → s.yardKey (r.q + i) ≠ k) → t.yardByte k = s.yardByte k)))) ∧
      (y.pause = true ∨ y.replay ≠ 0 ∨ 16 ≤ y.cmds.length ∨ 8 ≤ y.owed ∨ s.tick < y.rfcTo →
        exec (.yardRequestServe ch) s = .next s) ∧
      (let due := s.tREFI * 384 ≤ (s.tick - y.refAt) * 10000
       let urgent := ∃ r ∈ y.queue, s.yardUrgent r = true
       s.yst = yREADY → y.rfcTo ≤ s.tick →
       (due → urgent → y.owed < 8 → Answers (.yardRefresh ch) s (fun t =>
         t.ych ch.val = { y with owed := y.owed + 1, refAt := s.tick } ∧ t.regs = s.regs ∧ quiet t)) ∧
       (due → ¬ urgent ∨ 8 ≤ y.owed → Answers (.yardRefresh ch) s (fun t => t.ych ch.val = { y with
         refAt := s.tick, rfcTo := s.tick + (s.tRFC * 384 + 9999) / 10000, openRow := [] } ∧ t.regs = s.regs ∧ quiet t)) ∧
       (¬ due → y.owed ≠ 0 → ¬ urgent ∨ 8 ≤ y.owed → Answers (.yardRefresh ch) s (fun t => t.ych ch.val = { y with
         owed := y.owed - 1, rfcTo := s.tick + (s.tRFC * 384 + 9999) / 10000, openRow := [] } ∧ t.regs = s.regs ∧
         quiet t)) ∧
       (¬ due → y.owed = 0 ∨ urgent ∧ y.owed < 8 → exec (.yardRefresh ch) s = .next s)) ∧
      (s.yst = yREADY → ch.val < s.yardChans → y.pause = false → s.yard.waitP.contains ch.val = false →
        38400 * max 1 (min 1000 (s.get YRD_RTCFG_PERIOD)) ≤ s.tick - y.paused →
        (s.pauseFree ch.val = true → Answers (.yardRetrainTrigger ch) s (fun t =>
          t.ych ch.val = { y with pause := true, openRow := [] } ∧ t.regs = s.regs ∧ quiet t)) ∧
        (s.pauseFree ch.val = false → Answers (.yardRetrainTrigger ch) s (fun t =>
          t.yard = { s.yard with waitP := s.yard.waitP ++ [ch.val] } ∧ t.regs = s.regs ∧ quiet t))) ∧
      (y.pause = true → s.yard.waitP = [] → Answers (.yardRetrainPauseDone ch) s (fun t =>
        (t.ych ch.val).pause = false ∧ (t.ych ch.val).paused = s.tick ∧ s.regsKept t [YRD_CNT1, YRD_STAT] ∧ quiet t ∧
        (s.yst = ySELF → s.yard.since ≠ none → (∀ d : Fin 2, d ≠ ch → (s.ych d.val).pause = false) → t.yst = yREADY))) ∧
      (∀ d : Fin 2, y.pause = true → s.yard.waitP = [d.val] → d ≠ ch → (s.ych d.val).pause = false →
        (s.ych d.val).replay = 0 → Answers (.yardRetrainPauseDone ch) s (fun t => (t.ych ch.val).pause = false ∧
          (t.ych d.val).pause = true ∧ t.yard.waitP = [] ∧ t.yst = s.yst ∧ quiet t)) ∧
      (∀ r rest, y.cmds = r :: rest → y.done = [] → y.replay ≠ 1 → r.wr = false → (∀ x ∈ s.dma.credits, x.rid ≠ some r.id) →
        Answers (.yardCommandRetire ch) s (fun t => (t.ych ch.val).cmds = rest ∧ (t.ych ch.val).alerts = 0 ∧
          t.regs = s.regs ∧ t.dma = s.dma ∧ quiet t)) ∧
      (s.yst = yREADY → y.alerts < 2 → y.cmds ≠ [] → Answers (.yardAlert ch) s (fun t =>
        (t.ych ch.val).alerts = y.alerts + 1 ∧ (t.ych ch.val).replay = y.cmds.length ∧
        (t.ych ch.val).cmds = y.cmds ∧ t.test YRD_FLAGS_REPLAY = true ∧ t.yst = yREADY ∧ quiet t)) ∧
      (s.yst = yREADY → 2 ≤ y.alerts → clear → Answers (.yardAlert ch) s (fun t => t.yst = yFAILED ∧
        t.test YRD_FLAGS_REPLAY_FAIL = true ∧ t.holds 11 = false ∧ quiet t))) ∧
    (on → s.yst = yREADY → s.yard.waitP = [] → s.pauseFree 0 = true → Answers .yardRetrain s (fun t =>
      (t.ych 0).pause = true ∧ (s.yardChans = 2 → t.yard.waitP = [1]) ∧ t.regs = s.regs ∧ quiet t)) ∧
    (on → s.yst = yREADY → clear → Answers .yardSelfRefreshEnter s (fun t => t.yst = ySELF ∧ t.test YRD_CTL_SR = true ∧
      t.holds 11 = false ∧ t.yard.bytes = s.yard.bytes ∧ quiet t)) ∧
    (on → s.yst = ySELF → s.test YRD_CTL_SR = true → Answers .yardSelfRefreshExit s (fun t => t.test YRD_CTL_SR = false ∧
      (t.holds 11 = true ∨ t.asked 11 = true) ∧ t.yard = s.yard ∧ s.regsKept t [YRD_CTL] ∧ quiet t)) ∧
    (s.test YRD_CTL_EN = true → clear → Answers .yardSupplyLost s (fun t => t.yst = yFAILED ∧
      t.test YRD_CTL_EN = false ∧ t.test YRD_FLAGS_SUPPLY_LOST = true ∧ t.holds 11 = false ∧ quiet t)) ∧
    (on → s.yst = yREADY → exec .yardInit s = .next (s.put YRD_STAT_INITBUSY 1)) ∧
    (runs → s.test YRD_STAT_INITBUSY = true → Answers .yardInitDone s (fun t => t.test YRD_STAT_INITBUSY = false ∧
      t.test YRD_FLAGS_INIT_DONE = true ∧ (∀ k, t.yardByte k = some 0 ∧ t.yardChk k = .good) ∧ quiet t)) ∧
    (∀ v : W20, on → s.test YRD_PPRCMD_BUSY = false → s.yst = yREADY → s.test YRD_STAT_INITBUSY = false → clear →
      s.get YRD_PPRROW_ROW < 2 ^ s.yardR → s.yardChans = 2 →
      let row := fun (t : State) => (8 * t.get YRD_PPRCMD_CH + 4 * t.get YRD_PPRCMD_BG + t.get YRD_PPRCMD_BA) * 2 ^ 17 +
        s.get YRD_PPRROW_ROW
      let begun := fun (t : State) (hard : Bool) => t.test YRD_PPRCMD_BUSY = true ∧ t.yard.ppr = some (hard, row t) ∧
        s.regsKept t [YRD_PPRCMD] ∧ quiet t
      Answers (.yardSoftRepair v false) s (begun · false) ∧ Answers (.yardHardRepair v false) s (begun · true) ∧
      Answers (.yardSoftRepair v true) s (fun t => t.get YRD_PPRCMD_RESULT = 2 ∧ t.yard = s.yard) ∧
      Answers (.yardHardRepair v true) s (fun t => t.get YRD_PPRCMD_RESULT = 2 ∧ t.yard = s.yard)) ∧
    (∀ row, runs → s.yard.ppr = some (false, row) → Answers (.yardRepairDone true) s (fun t =>
      t.test YRD_PPRCMD_BUSY = false ∧ t.get YRD_PPRCMD_RESULT = 0 ∧ t.yard.ppr = none ∧
      (∀ k, keyRow k = row → t.yardByte k = none) ∧ s.regsKept t [YRD_PPRCMD] ∧ quiet t)) ∧
    (∀ x, runs → s.yard.ppr = some x → Answers (.yardRepairDone false) s (fun t => t.test YRD_PPRCMD_BUSY = false ∧
      t.get YRD_PPRCMD_RESULT = 3 ∧ t.yard.ppr = none ∧ quiet t))

/-- A step takes the command at the front of the queue and answers what that command does to the state with the rest
of the queue; with no command waiting one mesh tick passes, which always answers a next state and, where no step of
mesh time and no time sample waits, leaves every byte of memory as it was (the tick is the model's own choice,
notes/assumptions/19.md). -/
def Obligations.StepRunsFrontCommand : Prop :=
  (∀ (c : Instr) (s : State), step { s with pending := c :: s.pending } = exec c s) ∧
  (∀ (c : Instr) (rest : List Instr) (s : State), s.pending = c :: rest → step s = exec c { s with pending := rest }) ∧
  (∀ s : State, s.pending = [] → ∃ t, step s = .next t ∧ t.tick = s.tick + 1 ∧ t.pending = [] ∧
    (s.sched.steps = [] → s.sched.samples = [] → s.memKept t))

/-- R6, R7, R27, R43, R388, R435: the state right after a cold reset. Every register of the map reads its reset value
and every table is in canonical form; the cores are stopped with the values of the reset; every ration is free; mesh
time, the schedule and the clock are at their start; no command waits. What the spec gives no reset value is the
model's choice (notes/assumptions/5.md). -/
def Obligations.ResetState : Prop :=
  let s := State.reset
  (∀ a, s.rg a = regReset a) ∧ s.tablesWf ∧ s.conserved ∧ s.manger.accts = [] ∧ s.manger.waits = [] ∧ s.pending = [] ∧ s.stopped = false ∧
    (∀ c : CoreId, (s.core c).run = .stopped ∧ (s.core c).sw = 0x800F0 ∧ (s.core c).act = 0 ∧ (s.core c).stores = [] ∧
      (s.core c).pend = 0 ∧ ∀ e : Fin 16, ((s.core c).acts[e.val]).status = .empty) ∧
    s.manger.free = 1023 ∧ s.manger.heldSum = 0 ∧ s.mesh = 0 ∧ s.sched.asn = 0 ∧ s.test SCH_CTL_RUN = false ∧
    calOf s.rtc.time s.rtc.date = ⟨0, 1, 1, 0, 0, 0⟩ ∧ s.rfe = 0 ∧ s.yst = yOFF ∧ s.test CHD_STATE_BYPASS = true ∧
    (∀ c w, s.loftWord c w = 0xFFFFF) ∧ (∀ f, s.flashByte f = 0xFF) ∧ (∀ n : Fin 12, s.dmaSt n.val = 0)

/-- R57-R79, R83, R92, R103: the Balrath instruction words. Every well-formed core instruction has words, and is read
back from them with every operand at every value; and a word that reads as an instruction reads as a well-formed one,
whose encoding has that very first word, so that no bit of it is ignored. -/
def Obligations.CoreWordsReadBack : Prop :=
  (∀ (c : CoreId) (d a b : RegId) (imm8 disp8 sr : BitVec 8) (imm12 disp12 : BitVec 12) (cond fn : BitVec 4)
      (imm16 : BitVec 16) (n pos width : BitVec 5) (imm20 : W20),
    ∀ i ∈ ([
      .iAdd c d a b, .iAdc c d a b, .iSub c d a b, .iSbc c d a b, .iAnd c d a b, .iOr c d a b, .iXor c d a b,
      .iAndn c d a b, .iSll c d a b, .iSrl c d a b, .iSra c d a b, .iRor c d a b, .iSlt c d a b, .iSltu c d a b,
      .iJalr c d a, .iAddi c d a imm8, .iLui c d imm12, .iLdw c d a disp8, .iStw c d a disp8, .iBranch c cond disp12,
      .iJ c imm16, .iCall c imm16, .iPadd c d a b, .iPsub c d a b, .iPcmp c a b, .iPaddsx c d a b, .iPaddzx c d a b,
      .iPsll c d a b, .iPsrl c d a b, .iPsra c d a b, .iPmov c d a, .iMul c d a b, .iMuluP c d a b, .iMulsP c d a b,
      .iMacuP c d a b, .iMacsP c d a b, .iDivuP c d a b, .iDivsP c d a b, .iDivu c d a b, .iDivs c d a b,
      .iRemu c d a b, .iRems c d a b, .iSlli c d a n, .iSrli c d a n, .iSrai c d a n, .iRori c d a n,
      .iExtu c d a pos width, .iExts c d a pos width, .iIns c d a pos width, .iClz c d a, .iPopc c d a,
      .iLongAlu c fn d a imm20, .iLi c d imm20, .iLdbu c d a imm20, .iLdbs c d a imm20, .iLdhu c d a imm20,
      .iLdhs c d a imm20, .iLdwl c d a imm20, .iLdp c d a imm20, .iStb c d a imm20, .iSth c d a imm20,
      .iStwl c d a imm20, .iStp c d a imm20, .iTrap c imm12, .iTnow c d, .iWat c a, .iArm c d a b, .iPost c a b,
      .iSense c d a, .iWev c d a b, .iAck c a, .iTake c d a b, .iGive c d a, .iXchg c d a, .iFence c, .iRti c,
      .iSys c imm8, .iMfs c d sr, .iMts c sr d, .iHalt c] : List Instr),
      i.wellFormed = true → (encodeCore i).isSome = true) ∧
  (∀ (i : Instr) (w x : W20), i.wellFormed = true → encodeCore i = some (w, x) → ∃ c, decodeCore c w x = some i) ∧
  (∀ (c : CoreId) (w x : W20) (i : Instr), decodeCore c w x = some i → i.wellFormed = true ∧
    ∃ y, encodeCore i = some (w, y) ∧ decodeCore c w y = some i)

/-- Every step keeps each addressed table of the state (the registers, shared SRAM, the private data RAMs, the lofts,
the check states and the flash) in its one canonical form: keys strictly rising and no entry equal to what an unlisted
key reads as. -/
def Obligations.StepKeepsTablesCanonical : Prop :=
  ∀ s t : State, s.tablesWf → step s = .next t → t.tablesWf

/-- R43, R411, R461: a device that a fatal report, a failed start or a low VBAT has stopped does nothing: every
command but the resets, the supplies, further fault reports, its pins and the backup domain's own leaves the whole
state as it is. (What a stopped device still does is the model's choice: notes/assumptions/38.md.) -/
def Obligations.StoppedDeviceKeepsItsState : Prop :=
  ∀ (c : Instr) (s : State), s.stopped = true → actsStopped c = false → exec c s = .next s

/-- R25, R27, R31, R32, R35, R41: eleven commands conserve the rations: a sample of VBAT, a write of the pool, a
change of an external holder, an assertion of a tied pin, a take, a give, the timeout of a take (whose evaluation
grants takes alone), an expiry of patience, a reservation request, and the return of an engine that is idle. Where the
holdings and the free rations make up the pool total, the accounts rise strictly by number, and each account's holding
and what it is short make up its charge at the present factor, all three stay so. -/
def Obligations.RationsConserved : Prop :=
  let sound := fun (t : State) => t.conserved ∧ (t.manger.accts.map (·.id)).Pairwise (· < ·) ∧
    ∀ a ∈ t.manger.accts, a.held + a.short = a.charge t.mngF
  ∀ s : State, sound s →
    (∀ v : BitVec 10, Answers (.vbatSample v) s sound) ∧ (∀ v : W20, Answers (.poolWrite v) s sound) ∧
    (∀ (n : Fin 4) (v : W20), Answers (.extHolderModeWrite n v) s sound) ∧
    (∀ (n : Fin 4) (level : Bool), Answers (.tiedPinAssert n level) s sound) ∧ Answers .patienceExpiry s sound ∧
    (∀ (c : CoreId) (d a b : RegId), Answers (.iTake c d a b) s sound ∧ Answers (.iGive c d a) s sound) ∧
    (∀ c : CoreId, (∀ w ∈ s.evaluate.2, ∃ d m, w.kind = .program d m) → Answers (.takeTimeout c) s sound) ∧
    (∀ (c : CoreId) (e : Fin 16), Answers (.reservationRequest c e) s sound) ∧ Answers .cipherIdle s sound ∧
    Answers .dmaIdle s sound
end

