-- ==== Sys2Proof/Laws/Flags.lean ====
section
/-! SUPPORT. The flag computations and operand forms in the arithmetic of bit vectors. -/

namespace Sys2Proof.Machine

theorem topBit_toNat (n : Nat) (h : 0 < n) (x : BitVec n) : topBit n x.toNat = x.msb := by
  have h1 : x.toNat / 2 ^ (n - 1) < 2 := by
    rw [Nat.div_lt_iff_lt_mul (by positivity), ← pow_succ']
    have : n - 1 + 1 = n := by omega
    rw [this]; exact x.isLt
  have h2 := BitVec.msb_eq_decide x
  rw [topBit, h2]
  have : (2 ^ (n - 1) ≤ x.toNat) ↔ x.toNat / 2 ^ (n - 1) = 1 := by
    constructor
    · intro h; have := Nat.div_pos h (by positivity); omega
    · intro h; by_contra hc; rw [Nat.div_eq_of_lt (by omega)] at h; omega
  simp only [this, Nat.mod_eq_of_lt h1]

/-- The result of an addition over the width of a word. -/
theorem addFlags_fst (n : Nat) (x y : BitVec n) (k : Nat) : (addFlags n x.toNat y.toNat k).1 = (x + y + BitVec.ofNat n k).toNat := by
  simp [addFlags, Nat.add_mod]

/-- Its overflow is the signed one. -/
theorem addFlags_overflow (x y : W20) (k : Nat) (hk : k ≤ 1) :
    (addFlags 20 x.toNat y.toNat k).2.2 = decide (x.toInt + y.toInt + k < -(2 ^ 19) ∨ 2 ^ 19 ≤ x.toInt + y.toInt + k) := by
  have hx := x.isLt
  have hy := y.isLt
  simp only [addFlags, topBit, BitVec.toInt_eq_toNat_cond]
  rw [Bool.eq_iff_iff]
  simp only [Bool.and_eq_true, beq_iff_eq, decide_eq_decide, bne_iff_ne, ne_eq, decide_eq_true_eq]
  norm_num at *
  split <;> split <;> omega

theorem decide_toNat_zero (n : Nat) (x : BitVec n) : decide (x.toNat = 0) = (x == 0#n) := by
  rw [Bool.eq_iff_iff]; simp [BitVec.toNat_eq]

theorem not_toNat_word (y : W20) : 2 ^ 20 - 1 - y.toNat = (~~~y).toNat := by simp [BitVec.toNat_not]

theorem not_toInt_word (y : W20) : (~~~y).toInt = -1 - y.toInt := by
  have hy := y.isLt
  simp only [BitVec.toInt_eq_toNat_cond, BitVec.toNat_not]
  norm_num at *
  split <;> split <;> omega

/-- The arith rule over a word. -/
theorem swArith_addFlags (x y : W20) (k : Nat) (sw : W20) :
    swArith 20 sw (addFlags 20 x.toNat y.toNat k) =
      swFlags sw (x + y + BitVec.ofNat 20 k).msb (x + y + BitVec.ofNat 20 k == 0#20)
        (addFlags 20 x.toNat y.toNat k).2.1 (addFlags 20 x.toNat y.toNat k).2.2 := by
  have h := addFlags_fst 20 x y k
  simp only [swArith, h, topBit_toNat 20 (by decide), decide_toNat_zero]

/-- The logic rule over a word. -/
theorem swLogic_word (sw r : W20) : swLogic sw r.toNat = swFlags sw r.msb (r == 0#20) (swC sw) false := by
  simp only [swLogic, topBit_toNat 20 (by decide), decide_toNat_zero]

theorem swShift_word (sw r : W20) (k : Option Bool) :
    swShift 20 sw r.toNat k = swFlags sw r.msb (r == 0#20) (k.getD (swC sw)) false := by
  simp only [swShift, topBit_toNat 20 (by decide), decide_toNat_zero]

end Sys2Proof.Machine
end

