-- ==== Sys2Proof/Laws/State.lean ====
section
/-! SUPPORT. What each update of the state leaves alone, one lemma for each field, so that no proof unfolds a record
update. -/

namespace Sys2Proof.Machine

/-! ## setRg -/

@[simp] theorem State.setRg_regs (s : State) (a : Nat) (v : W20) : (s.setRg a v).regs = tabSet regReset s.regs a v := rfl
@[simp] theorem State.setRg_tick (s : State) (a : Nat) (v : W20) : (s.setRg a v).tick = s.tick := rfl
@[simp] theorem State.setRg_mesh (s : State) (a : Nat) (v : W20) : (s.setRg a v).mesh = s.mesh := rfl
@[simp] theorem State.setRg_free (s : State) (a : Nat) (v : W20) : (s.setRg a v).free = s.free := rfl
@[simp] theorem State.setRg_cores (s : State) (a : Nat) (v : W20) : (s.setRg a v).cores = s.cores := rfl
@[simp] theorem State.setRg_manger (s : State) (a : Nat) (v : W20) : (s.setRg a v).manger = s.manger := rfl
@[simp] theorem State.setRg_faults (s : State) (a : Nat) (v : W20) : (s.setRg a v).faults = s.faults := rfl
@[simp] theorem State.setRg_lattice (s : State) (a : Nat) (v : W20) : (s.setRg a v).lattice = s.lattice := rfl
@[simp] theorem State.setRg_timers (s : State) (a : Nat) (v : W20) : (s.setRg a v).timers = s.timers := rfl
@[simp] theorem State.setRg_rtc (s : State) (a : Nat) (v : W20) : (s.setRg a v).rtc = s.rtc := rfl
@[simp] theorem State.setRg_power (s : State) (a : Nat) (v : W20) : (s.setRg a v).power = s.power := rfl
@[simp] theorem State.setRg_sram (s : State) (a : Nat) (v : W20) : (s.setRg a v).sram = s.sram := rfl
@[simp] theorem State.setRg_pram (s : State) (a : Nat) (v : W20) : (s.setRg a v).pram = s.pram := rfl
@[simp] theorem State.setRg_loft (s : State) (a : Nat) (v : W20) : (s.setRg a v).loft = s.loft := rfl
@[simp] theorem State.setRg_memChk (s : State) (a : Nat) (v : W20) : (s.setRg a v).memChk = s.memChk := rfl
@[simp] theorem State.setRg_flash (s : State) (a : Nat) (v : W20) : (s.setRg a v).flash = s.flash := rfl
@[simp] theorem State.setRg_flashOp (s : State) (a : Nat) (v : W20) : (s.setRg a v).flashOp = s.flashOp := rfl
@[simp] theorem State.setRg_uart (s : State) (a : Nat) (v : W20) : (s.setRg a v).uart = s.uart := rfl
@[simp] theorem State.setRg_hitch (s : State) (a : Nat) (v : W20) : (s.setRg a v).hitch = s.hitch := rfl
@[simp] theorem State.setRg_pins (s : State) (a : Nat) (v : W20) : (s.setRg a v).pins = s.pins := rfl
@[simp] theorem State.setRg_pinLvl (s : State) (a : Nat) (v : W20) : (s.setRg a v).pinLvl = s.pinLvl := rfl
@[simp] theorem State.setRg_filt (s : State) (a : Nat) (v : W20) : (s.setRg a v).filt = s.filt := rfl
@[simp] theorem State.setRg_radio (s : State) (a : Nat) (v : W20) : (s.setRg a v).radio = s.radio := rfl
@[simp] theorem State.setRg_stalls (s : State) (a : Nat) (v : W20) : (s.setRg a v).stalls = s.stalls := rfl
@[simp] theorem State.setRg_pools (s : State) (a : Nat) (v : W20) : (s.setRg a v).pools = s.pools := rfl
@[simp] theorem State.setRg_frame (s : State) (a : Nat) (v : W20) : (s.setRg a v).frame = s.frame := rfl
@[simp] theorem State.setRg_sched (s : State) (a : Nat) (v : W20) : (s.setRg a v).sched = s.sched := rfl
@[simp] theorem State.setRg_link (s : State) (a : Nat) (v : W20) : (s.setRg a v).link = s.link := rfl
@[simp] theorem State.setRg_cipher (s : State) (a : Nat) (v : W20) : (s.setRg a v).cipher = s.cipher := rfl
@[simp] theorem State.setRg_chord (s : State) (a : Nat) (v : W20) : (s.setRg a v).chord = s.chord := rfl
@[simp] theorem State.setRg_dma (s : State) (a : Nat) (v : W20) : (s.setRg a v).dma = s.dma := rfl
@[simp] theorem State.setRg_yard (s : State) (a : Nat) (v : W20) : (s.setRg a v).yard = s.yard := rfl
@[simp] theorem State.setRg_otp (s : State) (a : Nat) (v : W20) : (s.setRg a v).otp = s.otp := rfl
@[simp] theorem State.setRg_keeper (s : State) (a : Nat) (v : W20) : (s.setRg a v).keeper = s.keeper := rfl
@[simp] theorem State.setRg_update (s : State) (a : Nat) (v : W20) : (s.setRg a v).update = s.update := rfl
@[simp] theorem State.setRg_pending (s : State) (a : Nat) (v : W20) : (s.setRg a v).pending = s.pending := rfl
@[simp] theorem State.setRg_core (s : State) (a : Nat) (v : W20) (cc : CoreId) : (s.setRg a v).core cc = s.core cc := rfl
@[simp] theorem State.setRg_holds (s : State) (a : Nat) (v : W20) (h : Nat) : (s.setRg a v).holds h = s.holds h := rfl

/-! ## put -/

@[simp] theorem State.put_regs (s : State) (f : Field) (n : Nat) : (s.put f n).regs = tabSet regReset s.regs f.reg (fieldSet (s.rg f.reg) f.hi f.lo n) := rfl
@[simp] theorem State.put_tick (s : State) (f : Field) (n : Nat) : (s.put f n).tick = s.tick := rfl
@[simp] theorem State.put_mesh (s : State) (f : Field) (n : Nat) : (s.put f n).mesh = s.mesh := rfl
@[simp] theorem State.put_free (s : State) (f : Field) (n : Nat) : (s.put f n).free = s.free := rfl
@[simp] theorem State.put_cores (s : State) (f : Field) (n : Nat) : (s.put f n).cores = s.cores := rfl
@[simp] theorem State.put_manger (s : State) (f : Field) (n : Nat) : (s.put f n).manger = s.manger := rfl
@[simp] theorem State.put_faults (s : State) (f : Field) (n : Nat) : (s.put f n).faults = s.faults := rfl
@[simp] theorem State.put_lattice (s : State) (f : Field) (n : Nat) : (s.put f n).lattice = s.lattice := rfl
@[simp] theorem State.put_timers (s : State) (f : Field) (n : Nat) : (s.put f n).timers = s.timers := rfl
@[simp] theorem State.put_rtc (s : State) (f : Field) (n : Nat) : (s.put f n).rtc = s.rtc := rfl
@[simp] theorem State.put_power (s : State) (f : Field) (n : Nat) : (s.put f n).power = s.power := rfl
@[simp] theorem State.put_sram (s : State) (f : Field) (n : Nat) : (s.put f n).sram = s.sram := rfl
@[simp] theorem State.put_pram (s : State) (f : Field) (n : Nat) : (s.put f n).pram = s.pram := rfl
@[simp] theorem State.put_loft (s : State) (f : Field) (n : Nat) : (s.put f n).loft = s.loft := rfl
@[simp] theorem State.put_memChk (s : State) (f : Field) (n : Nat) : (s.put f n).memChk = s.memChk := rfl
@[simp] theorem State.put_flash (s : State) (f : Field) (n : Nat) : (s.put f n).flash = s.flash := rfl
@[simp] theorem State.put_flashOp (s : State) (f : Field) (n : Nat) : (s.put f n).flashOp = s.flashOp := rfl
@[simp] theorem State.put_uart (s : State) (f : Field) (n : Nat) : (s.put f n).uart = s.uart := rfl
@[simp] theorem State.put_hitch (s : State) (f : Field) (n : Nat) : (s.put f n).hitch = s.hitch := rfl
@[simp] theorem State.put_pins (s : State) (f : Field) (n : Nat) : (s.put f n).pins = s.pins := rfl
@[simp] theorem State.put_pinLvl (s : State) (f : Field) (n : Nat) : (s.put f n).pinLvl = s.pinLvl := rfl
@[simp] theorem State.put_filt (s : State) (f : Field) (n : Nat) : (s.put f n).filt = s.filt := rfl
@[simp] theorem State.put_radio (s : State) (f : Field) (n : Nat) : (s.put f n).radio = s.radio := rfl
@[simp] theorem State.put_stalls (s : State) (f : Field) (n : Nat) : (s.put f n).stalls = s.stalls := rfl
@[simp] theorem State.put_pools (s : State) (f : Field) (n : Nat) : (s.put f n).pools = s.pools := rfl
@[simp] theorem State.put_frame (s : State) (f : Field) (n : Nat) : (s.put f n).frame = s.frame := rfl
@[simp] theorem State.put_sched (s : State) (f : Field) (n : Nat) : (s.put f n).sched = s.sched := rfl
@[simp] theorem State.put_link (s : State) (f : Field) (n : Nat) : (s.put f n).link = s.link := rfl
@[simp] theorem State.put_cipher (s : State) (f : Field) (n : Nat) : (s.put f n).cipher = s.cipher := rfl
@[simp] theorem State.put_chord (s : State) (f : Field) (n : Nat) : (s.put f n).chord = s.chord := rfl
@[simp] theorem State.put_dma (s : State) (f : Field) (n : Nat) : (s.put f n).dma = s.dma := rfl
@[simp] theorem State.put_yard (s : State) (f : Field) (n : Nat) : (s.put f n).yard = s.yard := rfl
@[simp] theorem State.put_otp (s : State) (f : Field) (n : Nat) : (s.put f n).otp = s.otp := rfl
@[simp] theorem State.put_keeper (s : State) (f : Field) (n : Nat) : (s.put f n).keeper = s.keeper := rfl
@[simp] theorem State.put_update (s : State) (f : Field) (n : Nat) : (s.put f n).update = s.update := rfl
@[simp] theorem State.put_pending (s : State) (f : Field) (n : Nat) : (s.put f n).pending = s.pending := rfl
@[simp] theorem State.put_core (s : State) (f : Field) (n : Nat) (cc : CoreId) : (s.put f n).core cc = s.core cc := rfl
@[simp] theorem State.put_holds (s : State) (f : Field) (n : Nat) (h : Nat) : (s.put f n).holds h = s.holds h := rfl

/-! ## setCore -/

@[simp] theorem State.setCore_regs (s : State) (c : CoreId) (x : CoreSt) : (s.setCore c x).regs = s.regs := rfl
@[simp] theorem State.setCore_tick (s : State) (c : CoreId) (x : CoreSt) : (s.setCore c x).tick = s.tick := rfl
@[simp] theorem State.setCore_mesh (s : State) (c : CoreId) (x : CoreSt) : (s.setCore c x).mesh = s.mesh := rfl
@[simp] theorem State.setCore_free (s : State) (c : CoreId) (x : CoreSt) : (s.setCore c x).free = s.free := rfl
@[simp] theorem State.setCore_cores (s : State) (c : CoreId) (x : CoreSt) : (s.setCore c x).cores = s.cores.set c x := rfl
@[simp] theorem State.setCore_manger (s : State) (c : CoreId) (x : CoreSt) : (s.setCore c x).manger = s.manger := rfl
@[simp] theorem State.setCore_faults (s : State) (c : CoreId) (x : CoreSt) : (s.setCore c x).faults = s.faults := rfl
@[simp] theorem State.setCore_lattice (s : State) (c : CoreId) (x : CoreSt) : (s.setCore c x).lattice = s.lattice := rfl
@[simp] theorem State.setCore_timers (s : State) (c : CoreId) (x : CoreSt) : (s.setCore c x).timers = s.timers := rfl
@[simp] theorem State.setCore_rtc (s : State) (c : CoreId) (x : CoreSt) : (s.setCore c x).rtc = s.rtc := rfl
@[simp] theorem State.setCore_power (s : State) (c : CoreId) (x : CoreSt) : (s.setCore c x).power = s.power := rfl
@[simp] theorem State.setCore_sram (s : State) (c : CoreId) (x : CoreSt) : (s.setCore c x).sram = s.sram := rfl
@[simp] theorem State.setCore_pram (s : State) (c : CoreId) (x : CoreSt) : (s.setCore c x).pram = s.pram := rfl
@[simp] theorem State.setCore_loft (s : State) (c : CoreId) (x : CoreSt) : (s.setCore c x).loft = s.loft := rfl
@[simp] theorem State.setCore_memChk (s : State) (c : CoreId) (x : CoreSt) : (s.setCore c x).memChk = s.memChk := rfl
@[simp] theorem State.setCore_flash (s : State) (c : CoreId) (x : CoreSt) : (s.setCore c x).flash = s.flash := rfl
@[simp] theorem State.setCore_flashOp (s : State) (c : CoreId) (x : CoreSt) : (s.setCore c x).flashOp = s.flashOp := rfl
@[simp] theorem State.setCore_uart (s : State) (c : CoreId) (x : CoreSt) : (s.setCore c x).uart = s.uart := rfl
@[simp] theorem State.setCore_hitch (s : State) (c : CoreId) (x : CoreSt) : (s.setCore c x).hitch = s.hitch := rfl
@[simp] theorem State.setCore_pins (s : State) (c : CoreId) (x : CoreSt) : (s.setCore c x).pins = s.pins := rfl
@[simp] theorem State.setCore_pinLvl (s : State) (c : CoreId) (x : CoreSt) : (s.setCore c x).pinLvl = s.pinLvl := rfl
@[simp] theorem State.setCore_filt (s : State) (c : CoreId) (x : CoreSt) : (s.setCore c x).filt = s.filt := rfl
@[simp] theorem State.setCore_radio (s : State) (c : CoreId) (x : CoreSt) : (s.setCore c x).radio = s.radio := rfl
@[simp] theorem State.setCore_stalls (s : State) (c : CoreId) (x : CoreSt) : (s.setCore c x).stalls = s.stalls := rfl
@[simp] theorem State.setCore_pools (s : State) (c : CoreId) (x : CoreSt) : (s.setCore c x).pools = s.pools := rfl
@[simp] theorem State.setCore_frame (s : State) (c : CoreId) (x : CoreSt) : (s.setCore c x).frame = s.frame := rfl
@[simp] theorem State.setCore_sched (s : State) (c : CoreId) (x : CoreSt) : (s.setCore c x).sched = s.sched := rfl
@[simp] theorem State.setCore_link (s : State) (c : CoreId) (x : CoreSt) : (s.setCore c x).link = s.link := rfl
@[simp] theorem State.setCore_cipher (s : State) (c : CoreId) (x : CoreSt) : (s.setCore c x).cipher = s.cipher := rfl
@[simp] theorem State.setCore_chord (s : State) (c : CoreId) (x : CoreSt) : (s.setCore c x).chord = s.chord := rfl
@[simp] theorem State.setCore_dma (s : State) (c : CoreId) (x : CoreSt) : (s.setCore c x).dma = s.dma := rfl
@[simp] theorem State.setCore_yard (s : State) (c : CoreId) (x : CoreSt) : (s.setCore c x).yard = s.yard := rfl
@[simp] theorem State.setCore_otp (s : State) (c : CoreId) (x : CoreSt) : (s.setCore c x).otp = s.otp := rfl
@[simp] theorem State.setCore_keeper (s : State) (c : CoreId) (x : CoreSt) : (s.setCore c x).keeper = s.keeper := rfl
@[simp] theorem State.setCore_update (s : State) (c : CoreId) (x : CoreSt) : (s.setCore c x).update = s.update := rfl
@[simp] theorem State.setCore_pending (s : State) (c : CoreId) (x : CoreSt) : (s.setCore c x).pending = s.pending := rfl
@[simp] theorem State.setCore_rg (s : State) (c : CoreId) (x : CoreSt) (r : Nat) : (s.setCore c x).rg r = s.rg r := rfl
@[simp] theorem State.setCore_get (s : State) (c : CoreId) (x : CoreSt) (g : Field) : (s.setCore c x).get g = s.get g := rfl
@[simp] theorem State.setCore_test (s : State) (c : CoreId) (x : CoreSt) (g : Field) : (s.setCore c x).test g = s.test g := rfl
@[simp] theorem State.setCore_holds (s : State) (c : CoreId) (x : CoreSt) (h : Nat) : (s.setCore c x).holds h = s.holds h := rfl

/-! ## modCore -/

@[simp] theorem State.modCore_regs (s : State) (c : CoreId) (f : CoreSt → CoreSt) : (s.modCore c f).regs = s.regs := rfl
@[simp] theorem State.modCore_tick (s : State) (c : CoreId) (f : CoreSt → CoreSt) : (s.modCore c f).tick = s.tick := rfl
@[simp] theorem State.modCore_mesh (s : State) (c : CoreId) (f : CoreSt → CoreSt) : (s.modCore c f).mesh = s.mesh := rfl
@[simp] theorem State.modCore_free (s : State) (c : CoreId) (f : CoreSt → CoreSt) : (s.modCore c f).free = s.free := rfl
@[simp] theorem State.modCore_cores (s : State) (c : CoreId) (f : CoreSt → CoreSt) : (s.modCore c f).cores = s.cores.set c (f (s.core c)) := rfl
@[simp] theorem State.modCore_manger (s : State) (c : CoreId) (f : CoreSt → CoreSt) : (s.modCore c f).manger = s.manger := rfl
@[simp] theorem State.modCore_faults (s : State) (c : CoreId) (f : CoreSt → CoreSt) : (s.modCore c f).faults = s.faults := rfl
@[simp] theorem State.modCore_lattice (s : State) (c : CoreId) (f : CoreSt → CoreSt) : (s.modCore c f).lattice = s.lattice := rfl
@[simp] theorem State.modCore_timers (s : State) (c : CoreId) (f : CoreSt → CoreSt) : (s.modCore c f).timers = s.timers := rfl
@[simp] theorem State.modCore_rtc (s : State) (c : CoreId) (f : CoreSt → CoreSt) : (s.modCore c f).rtc = s.rtc := rfl
@[simp] theorem State.modCore_power (s : State) (c : CoreId) (f : CoreSt → CoreSt) : (s.modCore c f).power = s.power := rfl
@[simp] theorem State.modCore_sram (s : State) (c : CoreId) (f : CoreSt → CoreSt) : (s.modCore c f).sram = s.sram := rfl
@[simp] theorem State.modCore_pram (s : State) (c : CoreId) (f : CoreSt → CoreSt) : (s.modCore c f).pram = s.pram := rfl
@[simp] theorem State.modCore_loft (s : State) (c : CoreId) (f : CoreSt → CoreSt) : (s.modCore c f).loft = s.loft := rfl
@[simp] theorem State.modCore_memChk (s : State) (c : CoreId) (f : CoreSt → CoreSt) : (s.modCore c f).memChk = s.memChk := rfl
@[simp] theorem State.modCore_flash (s : State) (c : CoreId) (f : CoreSt → CoreSt) : (s.modCore c f).flash = s.flash := rfl
@[simp] theorem State.modCore_flashOp (s : State) (c : CoreId) (f : CoreSt → CoreSt) : (s.modCore c f).flashOp = s.flashOp := rfl
@[simp] theorem State.modCore_uart (s : State) (c : CoreId) (f : CoreSt → CoreSt) : (s.modCore c f).uart = s.uart := rfl
@[simp] theorem State.modCore_hitch (s : State) (c : CoreId) (f : CoreSt → CoreSt) : (s.modCore c f).hitch = s.hitch := rfl
@[simp] theorem State.modCore_pins (s : State) (c : CoreId) (f : CoreSt → CoreSt) : (s.modCore c f).pins = s.pins := rfl
@[simp] theorem State.modCore_pinLvl (s : State) (c : CoreId) (f : CoreSt → CoreSt) : (s.modCore c f).pinLvl = s.pinLvl := rfl
@[simp] theorem State.modCore_filt (s : State) (c : CoreId) (f : CoreSt → CoreSt) : (s.modCore c f).filt = s.filt := rfl
@[simp] theorem State.modCore_radio (s : State) (c : CoreId) (f : CoreSt → CoreSt) : (s.modCore c f).radio = s.radio := rfl
@[simp] theorem State.modCore_stalls (s : State) (c : CoreId) (f : CoreSt → CoreSt) : (s.modCore c f).stalls = s.stalls := rfl
@[simp] theorem State.modCore_pools (s : State) (c : CoreId) (f : CoreSt → CoreSt) : (s.modCore c f).pools = s.pools := rfl
@[simp] theorem State.modCore_frame (s : State) (c : CoreId) (f : CoreSt → CoreSt) : (s.modCore c f).frame = s.frame := rfl
@[simp] theorem State.modCore_sched (s : State) (c : CoreId) (f : CoreSt → CoreSt) : (s.modCore c f).sched = s.sched := rfl
@[simp] theorem State.modCore_link (s : State) (c : CoreId) (f : CoreSt → CoreSt) : (s.modCore c f).link = s.link := rfl
@[simp] theorem State.modCore_cipher (s : State) (c : CoreId) (f : CoreSt → CoreSt) : (s.modCore c f).cipher = s.cipher := rfl
@[simp] theorem State.modCore_chord (s : State) (c : CoreId) (f : CoreSt → CoreSt) : (s.modCore c f).chord = s.chord := rfl
@[simp] theorem State.modCore_dma (s : State) (c : CoreId) (f : CoreSt → CoreSt) : (s.modCore c f).dma = s.dma := rfl
@[simp] theorem State.modCore_yard (s : State) (c : CoreId) (f : CoreSt → CoreSt) : (s.modCore c f).yard = s.yard := rfl
@[simp] theorem State.modCore_otp (s : State) (c : CoreId) (f : CoreSt → CoreSt) : (s.modCore c f).otp = s.otp := rfl
@[simp] theorem State.modCore_keeper (s : State) (c : CoreId) (f : CoreSt → CoreSt) : (s.modCore c f).keeper = s.keeper := rfl
@[simp] theorem State.modCore_update (s : State) (c : CoreId) (f : CoreSt → CoreSt) : (s.modCore c f).update = s.update := rfl
@[simp] theorem State.modCore_pending (s : State) (c : CoreId) (f : CoreSt → CoreSt) : (s.modCore c f).pending = s.pending := rfl
@[simp] theorem State.modCore_rg (s : State) (c : CoreId) (f : CoreSt → CoreSt) (r : Nat) : (s.modCore c f).rg r = s.rg r := rfl
@[simp] theorem State.modCore_get (s : State) (c : CoreId) (f : CoreSt → CoreSt) (g : Field) : (s.modCore c f).get g = s.get g := rfl
@[simp] theorem State.modCore_test (s : State) (c : CoreId) (f : CoreSt → CoreSt) (g : Field) : (s.modCore c f).test g = s.test g := rfl
@[simp] theorem State.modCore_holds (s : State) (c : CoreId) (f : CoreSt → CoreSt) (h : Nat) : (s.modCore c f).holds h = s.holds h := rfl

/-! ## modManger -/

@[simp] theorem State.modManger_regs (s : State) (f : Manger → Manger) : (s.modManger f).regs = s.regs := rfl
@[simp] theorem State.modManger_tick (s : State) (f : Manger → Manger) : (s.modManger f).tick = s.tick := rfl
@[simp] theorem State.modManger_mesh (s : State) (f : Manger → Manger) : (s.modManger f).mesh = s.mesh := rfl
@[simp] theorem State.modManger_free (s : State) (f : Manger → Manger) : (s.modManger f).free = s.free := rfl
@[simp] theorem State.modManger_cores (s : State) (f : Manger → Manger) : (s.modManger f).cores = s.cores := rfl
@[simp] theorem State.modManger_manger (s : State) (f : Manger → Manger) : (s.modManger f).manger = f s.manger := rfl
@[simp] theorem State.modManger_faults (s : State) (f : Manger → Manger) : (s.modManger f).faults = s.faults := rfl
@[simp] theorem State.modManger_lattice (s : State) (f : Manger → Manger) : (s.modManger f).lattice = s.lattice := rfl
@[simp] theorem State.modManger_timers (s : State) (f : Manger → Manger) : (s.modManger f).timers = s.timers := rfl
@[simp] theorem State.modManger_rtc (s : State) (f : Manger → Manger) : (s.modManger f).rtc = s.rtc := rfl
@[simp] theorem State.modManger_power (s : State) (f : Manger → Manger) : (s.modManger f).power = s.power := rfl
@[simp] theorem State.modManger_sram (s : State) (f : Manger → Manger) : (s.modManger f).sram = s.sram := rfl
@[simp] theorem State.modManger_pram (s : State) (f : Manger → Manger) : (s.modManger f).pram = s.pram := rfl
@[simp] theorem State.modManger_loft (s : State) (f : Manger → Manger) : (s.modManger f).loft = s.loft := rfl
@[simp] theorem State.modManger_memChk (s : State) (f : Manger → Manger) : (s.modManger f).memChk = s.memChk := rfl
@[simp] theorem State.modManger_flash (s : State) (f : Manger → Manger) : (s.modManger f).flash = s.flash := rfl
@[simp] theorem State.modManger_flashOp (s : State) (f : Manger → Manger) : (s.modManger f).flashOp = s.flashOp := rfl
@[simp] theorem State.modManger_uart (s : State) (f : Manger → Manger) : (s.modManger f).uart = s.uart := rfl
@[simp] theorem State.modManger_hitch (s : State) (f : Manger → Manger) : (s.modManger f).hitch = s.hitch := rfl
@[simp] theorem State.modManger_pins (s : State) (f : Manger → Manger) : (s.modManger f).pins = s.pins := rfl
@[simp] theorem State.modManger_pinLvl (s : State) (f : Manger → Manger) : (s.modManger f).pinLvl = s.pinLvl := rfl
@[simp] theorem State.modManger_filt (s : State) (f : Manger → Manger) : (s.modManger f).filt = s.filt := rfl
@[simp] theorem State.modManger_radio (s : State) (f : Manger → Manger) : (s.modManger f).radio = s.radio := rfl
@[simp] theorem State.modManger_stalls (s : State) (f : Manger → Manger) : (s.modManger f).stalls = s.stalls := rfl
@[simp] theorem State.modManger_pools (s : State) (f : Manger → Manger) : (s.modManger f).pools = s.pools := rfl
@[simp] theorem State.modManger_frame (s : State) (f : Manger → Manger) : (s.modManger f).frame = s.frame := rfl
@[simp] theorem State.modManger_sched (s : State) (f : Manger → Manger) : (s.modManger f).sched = s.sched := rfl
@[simp] theorem State.modManger_link (s : State) (f : Manger → Manger) : (s.modManger f).link = s.link := rfl
@[simp] theorem State.modManger_cipher (s : State) (f : Manger → Manger) : (s.modManger f).cipher = s.cipher := rfl
@[simp] theorem State.modManger_chord (s : State) (f : Manger → Manger) : (s.modManger f).chord = s.chord := rfl
@[simp] theorem State.modManger_dma (s : State) (f : Manger → Manger) : (s.modManger f).dma = s.dma := rfl
@[simp] theorem State.modManger_yard (s : State) (f : Manger → Manger) : (s.modManger f).yard = s.yard := rfl
@[simp] theorem State.modManger_otp (s : State) (f : Manger → Manger) : (s.modManger f).otp = s.otp := rfl
@[simp] theorem State.modManger_keeper (s : State) (f : Manger → Manger) : (s.modManger f).keeper = s.keeper := rfl
@[simp] theorem State.modManger_update (s : State) (f : Manger → Manger) : (s.modManger f).update = s.update := rfl
@[simp] theorem State.modManger_pending (s : State) (f : Manger → Manger) : (s.modManger f).pending = s.pending := rfl
@[simp] theorem State.modManger_rg (s : State) (f : Manger → Manger) (r : Nat) : (s.modManger f).rg r = s.rg r := rfl
@[simp] theorem State.modManger_get (s : State) (f : Manger → Manger) (g : Field) : (s.modManger f).get g = s.get g := rfl
@[simp] theorem State.modManger_test (s : State) (f : Manger → Manger) (g : Field) : (s.modManger f).test g = s.test g := rfl
@[simp] theorem State.modManger_core (s : State) (f : Manger → Manger) (cc : CoreId) : (s.modManger f).core cc = s.core cc := rfl

/-! ## modRadio -/

@[simp] theorem State.modRadio_regs (s : State) (f : Radio → Radio) : (s.modRadio f).regs = s.regs := rfl
@[simp] theorem State.modRadio_tick (s : State) (f : Radio → Radio) : (s.modRadio f).tick = s.tick := rfl
@[simp] theorem State.modRadio_mesh (s : State) (f : Radio → Radio) : (s.modRadio f).mesh = s.mesh := rfl
@[simp] theorem State.modRadio_free (s : State) (f : Radio → Radio) : (s.modRadio f).free = s.free := rfl
@[simp] theorem State.modRadio_cores (s : State) (f : Radio → Radio) : (s.modRadio f).cores = s.cores := rfl
@[simp] theorem State.modRadio_manger (s : State) (f : Radio → Radio) : (s.modRadio f).manger = s.manger := rfl
@[simp] theorem State.modRadio_faults (s : State) (f : Radio → Radio) : (s.modRadio f).faults = s.faults := rfl
@[simp] theorem State.modRadio_lattice (s : State) (f : Radio → Radio) : (s.modRadio f).lattice = s.lattice := rfl
@[simp] theorem State.modRadio_timers (s : State) (f : Radio → Radio) : (s.modRadio f).timers = s.timers := rfl
@[simp] theorem State.modRadio_rtc (s : State) (f : Radio → Radio) : (s.modRadio f).rtc = s.rtc := rfl
@[simp] theorem State.modRadio_power (s : State) (f : Radio → Radio) : (s.modRadio f).power = s.power := rfl
@[simp] theorem State.modRadio_sram (s : State) (f : Radio → Radio) : (s.modRadio f).sram = s.sram := rfl
@[simp] theorem State.modRadio_pram (s : State) (f : Radio → Radio) : (s.modRadio f).pram = s.pram := rfl
@[simp] theorem State.modRadio_loft (s : State) (f : Radio → Radio) : (s.modRadio f).loft = s.loft := rfl
@[simp] theorem State.modRadio_memChk (s : State) (f : Radio → Radio) : (s.modRadio f).memChk = s.memChk := rfl
@[simp] theorem State.modRadio_flash (s : State) (f : Radio → Radio) : (s.modRadio f).flash = s.flash := rfl
@[simp] theorem State.modRadio_flashOp (s : State) (f : Radio → Radio) : (s.modRadio f).flashOp = s.flashOp := rfl
@[simp] theorem State.modRadio_uart (s : State) (f : Radio → Radio) : (s.modRadio f).uart = s.uart := rfl
@[simp] theorem State.modRadio_hitch (s : State) (f : Radio → Radio) : (s.modRadio f).hitch = s.hitch := rfl
@[simp] theorem State.modRadio_pins (s : State) (f : Radio → Radio) : (s.modRadio f).pins = s.pins := rfl
@[simp] theorem State.modRadio_pinLvl (s : State) (f : Radio → Radio) : (s.modRadio f).pinLvl = s.pinLvl := rfl
@[simp] theorem State.modRadio_filt (s : State) (f : Radio → Radio) : (s.modRadio f).filt = s.filt := rfl
@[simp] theorem State.modRadio_radio (s : State) (f : Radio → Radio) : (s.modRadio f).radio = f s.radio := rfl
@[simp] theorem State.modRadio_stalls (s : State) (f : Radio → Radio) : (s.modRadio f).stalls = s.stalls := rfl
@[simp] theorem State.modRadio_pools (s : State) (f : Radio → Radio) : (s.modRadio f).pools = s.pools := rfl
@[simp] theorem State.modRadio_frame (s : State) (f : Radio → Radio) : (s.modRadio f).frame = s.frame := rfl
@[simp] theorem State.modRadio_sched (s : State) (f : Radio → Radio) : (s.modRadio f).sched = s.sched := rfl
@[simp] theorem State.modRadio_link (s : State) (f : Radio → Radio) : (s.modRadio f).link = s.link := rfl
@[simp] theorem State.modRadio_cipher (s : State) (f : Radio → Radio) : (s.modRadio f).cipher = s.cipher := rfl
@[simp] theorem State.modRadio_chord (s : State) (f : Radio → Radio) : (s.modRadio f).chord = s.chord := rfl
@[simp] theorem State.modRadio_dma (s : State) (f : Radio → Radio) : (s.modRadio f).dma = s.dma := rfl
@[simp] theorem State.modRadio_yard (s : State) (f : Radio → Radio) : (s.modRadio f).yard = s.yard := rfl
@[simp] theorem State.modRadio_otp (s : State) (f : Radio → Radio) : (s.modRadio f).otp = s.otp := rfl
@[simp] theorem State.modRadio_keeper (s : State) (f : Radio → Radio) : (s.modRadio f).keeper = s.keeper := rfl
@[simp] theorem State.modRadio_update (s : State) (f : Radio → Radio) : (s.modRadio f).update = s.update := rfl
@[simp] theorem State.modRadio_pending (s : State) (f : Radio → Radio) : (s.modRadio f).pending = s.pending := rfl
@[simp] theorem State.modRadio_rg (s : State) (f : Radio → Radio) (r : Nat) : (s.modRadio f).rg r = s.rg r := rfl
@[simp] theorem State.modRadio_get (s : State) (f : Radio → Radio) (g : Field) : (s.modRadio f).get g = s.get g := rfl
@[simp] theorem State.modRadio_test (s : State) (f : Radio → Radio) (g : Field) : (s.modRadio f).test g = s.test g := rfl
@[simp] theorem State.modRadio_core (s : State) (f : Radio → Radio) (cc : CoreId) : (s.modRadio f).core cc = s.core cc := rfl
@[simp] theorem State.modRadio_holds (s : State) (f : Radio → Radio) (h : Nat) : (s.modRadio f).holds h = s.holds h := rfl

/-! ## modPower -/

@[simp] theorem State.modPower_regs (s : State) (f : Power → Power) : (s.modPower f).regs = s.regs := rfl
@[simp] theorem State.modPower_tick (s : State) (f : Power → Power) : (s.modPower f).tick = s.tick := rfl
@[simp] theorem State.modPower_mesh (s : State) (f : Power → Power) : (s.modPower f).mesh = s.mesh := rfl
@[simp] theorem State.modPower_free (s : State) (f : Power → Power) : (s.modPower f).free = s.free := rfl
@[simp] theorem State.modPower_cores (s : State) (f : Power → Power) : (s.modPower f).cores = s.cores := rfl
@[simp] theorem State.modPower_manger (s : State) (f : Power → Power) : (s.modPower f).manger = s.manger := rfl
@[simp] theorem State.modPower_faults (s : State) (f : Power → Power) : (s.modPower f).faults = s.faults := rfl
@[simp] theorem State.modPower_lattice (s : State) (f : Power → Power) : (s.modPower f).lattice = s.lattice := rfl
@[simp] theorem State.modPower_timers (s : State) (f : Power → Power) : (s.modPower f).timers = s.timers := rfl
@[simp] theorem State.modPower_rtc (s : State) (f : Power → Power) : (s.modPower f).rtc = s.rtc := rfl
@[simp] theorem State.modPower_power (s : State) (f : Power → Power) : (s.modPower f).power = f s.power := rfl
@[simp] theorem State.modPower_sram (s : State) (f : Power → Power) : (s.modPower f).sram = s.sram := rfl
@[simp] theorem State.modPower_pram (s : State) (f : Power → Power) : (s.modPower f).pram = s.pram := rfl
@[simp] theorem State.modPower_loft (s : State) (f : Power → Power) : (s.modPower f).loft = s.loft := rfl
@[simp] theorem State.modPower_memChk (s : State) (f : Power → Power) : (s.modPower f).memChk = s.memChk := rfl
@[simp] theorem State.modPower_flash (s : State) (f : Power → Power) : (s.modPower f).flash = s.flash := rfl
@[simp] theorem State.modPower_flashOp (s : State) (f : Power → Power) : (s.modPower f).flashOp = s.flashOp := rfl
@[simp] theorem State.modPower_uart (s : State) (f : Power → Power) : (s.modPower f).uart = s.uart := rfl
@[simp] theorem State.modPower_hitch (s : State) (f : Power → Power) : (s.modPower f).hitch = s.hitch := rfl
@[simp] theorem State.modPower_pins (s : State) (f : Power → Power) : (s.modPower f).pins = s.pins := rfl
@[simp] theorem State.modPower_pinLvl (s : State) (f : Power → Power) : (s.modPower f).pinLvl = s.pinLvl := rfl
@[simp] theorem State.modPower_filt (s : State) (f : Power → Power) : (s.modPower f).filt = s.filt := rfl
@[simp] theorem State.modPower_radio (s : State) (f : Power → Power) : (s.modPower f).radio = s.radio := rfl
@[simp] theorem State.modPower_stalls (s : State) (f : Power → Power) : (s.modPower f).stalls = s.stalls := rfl
@[simp] theorem State.modPower_pools (s : State) (f : Power → Power) : (s.modPower f).pools = s.pools := rfl
@[simp] theorem State.modPower_frame (s : State) (f : Power → Power) : (s.modPower f).frame = s.frame := rfl
@[simp] theorem State.modPower_sched (s : State) (f : Power → Power) : (s.modPower f).sched = s.sched := rfl
@[simp] theorem State.modPower_link (s : State) (f : Power → Power) : (s.modPower f).link = s.link := rfl
@[simp] theorem State.modPower_cipher (s : State) (f : Power → Power) : (s.modPower f).cipher = s.cipher := rfl
@[simp] theorem State.modPower_chord (s : State) (f : Power → Power) : (s.modPower f).chord = s.chord := rfl
@[simp] theorem State.modPower_dma (s : State) (f : Power → Power) : (s.modPower f).dma = s.dma := rfl
@[simp] theorem State.modPower_yard (s : State) (f : Power → Power) : (s.modPower f).yard = s.yard := rfl
@[simp] theorem State.modPower_otp (s : State) (f : Power → Power) : (s.modPower f).otp = s.otp := rfl
@[simp] theorem State.modPower_keeper (s : State) (f : Power → Power) : (s.modPower f).keeper = s.keeper := rfl
@[simp] theorem State.modPower_update (s : State) (f : Power → Power) : (s.modPower f).update = s.update := rfl
@[simp] theorem State.modPower_pending (s : State) (f : Power → Power) : (s.modPower f).pending = s.pending := rfl
@[simp] theorem State.modPower_rg (s : State) (f : Power → Power) (r : Nat) : (s.modPower f).rg r = s.rg r := rfl
@[simp] theorem State.modPower_get (s : State) (f : Power → Power) (g : Field) : (s.modPower f).get g = s.get g := rfl
@[simp] theorem State.modPower_test (s : State) (f : Power → Power) (g : Field) : (s.modPower f).test g = s.test g := rfl
@[simp] theorem State.modPower_core (s : State) (f : Power → Power) (cc : CoreId) : (s.modPower f).core cc = s.core cc := rfl
@[simp] theorem State.modPower_holds (s : State) (f : Power → Power) (h : Nat) : (s.modPower f).holds h = s.holds h := rfl

/-! ## modLink -/

@[simp] theorem State.modLink_regs (s : State) (f : Link → Link) : (s.modLink f).regs = s.regs := rfl
@[simp] theorem State.modLink_tick (s : State) (f : Link → Link) : (s.modLink f).tick = s.tick := rfl
@[simp] theorem State.modLink_mesh (s : State) (f : Link → Link) : (s.modLink f).mesh = s.mesh := rfl
@[simp] theorem State.modLink_free (s : State) (f : Link → Link) : (s.modLink f).free = s.free := rfl
@[simp] theorem State.modLink_cores (s : State) (f : Link → Link) : (s.modLink f).cores = s.cores := rfl
@[simp] theorem State.modLink_manger (s : State) (f : Link → Link) : (s.modLink f).manger = s.manger := rfl
@[simp] theorem State.modLink_faults (s : State) (f : Link → Link) : (s.modLink f).faults = s.faults := rfl
@[simp] theorem State.modLink_lattice (s : State) (f : Link → Link) : (s.modLink f).lattice = s.lattice := rfl
@[simp] theorem State.modLink_timers (s : State) (f : Link → Link) : (s.modLink f).timers = s.timers := rfl
@[simp] theorem State.modLink_rtc (s : State) (f : Link → Link) : (s.modLink f).rtc = s.rtc := rfl
@[simp] theorem State.modLink_power (s : State) (f : Link → Link) : (s.modLink f).power = s.power := rfl
@[simp] theorem State.modLink_sram (s : State) (f : Link → Link) : (s.modLink f).sram = s.sram := rfl
@[simp] theorem State.modLink_pram (s : State) (f : Link → Link) : (s.modLink f).pram = s.pram := rfl
@[simp] theorem State.modLink_loft (s : State) (f : Link → Link) : (s.modLink f).loft = s.loft := rfl
@[simp] theorem State.modLink_memChk (s : State) (f : Link → Link) : (s.modLink f).memChk = s.memChk := rfl
@[simp] theorem State.modLink_flash (s : State) (f : Link → Link) : (s.modLink f).flash = s.flash := rfl
@[simp] theorem State.modLink_flashOp (s : State) (f : Link → Link) : (s.modLink f).flashOp = s.flashOp := rfl
@[simp] theorem State.modLink_uart (s : State) (f : Link → Link) : (s.modLink f).uart = s.uart := rfl
@[simp] theorem State.modLink_hitch (s : State) (f : Link → Link) : (s.modLink f).hitch = s.hitch := rfl
@[simp] theorem State.modLink_pins (s : State) (f : Link → Link) : (s.modLink f).pins = s.pins := rfl
@[simp] theorem State.modLink_pinLvl (s : State) (f : Link → Link) : (s.modLink f).pinLvl = s.pinLvl := rfl
@[simp] theorem State.modLink_filt (s : State) (f : Link → Link) : (s.modLink f).filt = s.filt := rfl
@[simp] theorem State.modLink_radio (s : State) (f : Link → Link) : (s.modLink f).radio = s.radio := rfl
@[simp] theorem State.modLink_stalls (s : State) (f : Link → Link) : (s.modLink f).stalls = s.stalls := rfl
@[simp] theorem State.modLink_pools (s : State) (f : Link → Link) : (s.modLink f).pools = s.pools := rfl
@[simp] theorem State.modLink_frame (s : State) (f : Link → Link) : (s.modLink f).frame = s.frame := rfl
@[simp] theorem State.modLink_sched (s : State) (f : Link → Link) : (s.modLink f).sched = s.sched := rfl
@[simp] theorem State.modLink_link (s : State) (f : Link → Link) : (s.modLink f).link = f s.link := rfl
@[simp] theorem State.modLink_cipher (s : State) (f : Link → Link) : (s.modLink f).cipher = s.cipher := rfl
@[simp] theorem State.modLink_chord (s : State) (f : Link → Link) : (s.modLink f).chord = s.chord := rfl
@[simp] theorem State.modLink_dma (s : State) (f : Link → Link) : (s.modLink f).dma = s.dma := rfl
@[simp] theorem State.modLink_yard (s : State) (f : Link → Link) : (s.modLink f).yard = s.yard := rfl
@[simp] theorem State.modLink_otp (s : State) (f : Link → Link) : (s.modLink f).otp = s.otp := rfl
@[simp] theorem State.modLink_keeper (s : State) (f : Link → Link) : (s.modLink f).keeper = s.keeper := rfl
@[simp] theorem State.modLink_update (s : State) (f : Link → Link) : (s.modLink f).update = s.update := rfl
@[simp] theorem State.modLink_pending (s : State) (f : Link → Link) : (s.modLink f).pending = s.pending := rfl
@[simp] theorem State.modLink_rg (s : State) (f : Link → Link) (r : Nat) : (s.modLink f).rg r = s.rg r := rfl
@[simp] theorem State.modLink_get (s : State) (f : Link → Link) (g : Field) : (s.modLink f).get g = s.get g := rfl
@[simp] theorem State.modLink_test (s : State) (f : Link → Link) (g : Field) : (s.modLink f).test g = s.test g := rfl
@[simp] theorem State.modLink_core (s : State) (f : Link → Link) (cc : CoreId) : (s.modLink f).core cc = s.core cc := rfl
@[simp] theorem State.modLink_holds (s : State) (f : Link → Link) (h : Nat) : (s.modLink f).holds h = s.holds h := rfl

/-! ## modCipher -/

@[simp] theorem State.modCipher_regs (s : State) (f : Cipher → Cipher) : (s.modCipher f).regs = s.regs := rfl
@[simp] theorem State.modCipher_tick (s : State) (f : Cipher → Cipher) : (s.modCipher f).tick = s.tick := rfl
@[simp] theorem State.modCipher_mesh (s : State) (f : Cipher → Cipher) : (s.modCipher f).mesh = s.mesh := rfl
@[simp] theorem State.modCipher_free (s : State) (f : Cipher → Cipher) : (s.modCipher f).free = s.free := rfl
@[simp] theorem State.modCipher_cores (s : State) (f : Cipher → Cipher) : (s.modCipher f).cores = s.cores := rfl
@[simp] theorem State.modCipher_manger (s : State) (f : Cipher → Cipher) : (s.modCipher f).manger = s.manger := rfl
@[simp] theorem State.modCipher_faults (s : State) (f : Cipher → Cipher) : (s.modCipher f).faults = s.faults := rfl
@[simp] theorem State.modCipher_lattice (s : State) (f : Cipher → Cipher) : (s.modCipher f).lattice = s.lattice := rfl
@[simp] theorem State.modCipher_timers (s : State) (f : Cipher → Cipher) : (s.modCipher f).timers = s.timers := rfl
@[simp] theorem State.modCipher_rtc (s : State) (f : Cipher → Cipher) : (s.modCipher f).rtc = s.rtc := rfl
@[simp] theorem State.modCipher_power (s : State) (f : Cipher → Cipher) : (s.modCipher f).power = s.power := rfl
@[simp] theorem State.modCipher_sram (s : State) (f : Cipher → Cipher) : (s.modCipher f).sram = s.sram := rfl
@[simp] theorem State.modCipher_pram (s : State) (f : Cipher → Cipher) : (s.modCipher f).pram = s.pram := rfl
@[simp] theorem State.modCipher_loft (s : State) (f : Cipher → Cipher) : (s.modCipher f).loft = s.loft := rfl
@[simp] theorem State.modCipher_memChk (s : State) (f : Cipher → Cipher) : (s.modCipher f).memChk = s.memChk := rfl
@[simp] theorem State.modCipher_flash (s : State) (f : Cipher → Cipher) : (s.modCipher f).flash = s.flash := rfl
@[simp] theorem State.modCipher_flashOp (s : State) (f : Cipher → Cipher) : (s.modCipher f).flashOp = s.flashOp := rfl
@[simp] theorem State.modCipher_uart (s : State) (f : Cipher → Cipher) : (s.modCipher f).uart = s.uart := rfl
@[simp] theorem State.modCipher_hitch (s : State) (f : Cipher → Cipher) : (s.modCipher f).hitch = s.hitch := rfl
@[simp] theorem State.modCipher_pins (s : State) (f : Cipher → Cipher) : (s.modCipher f).pins = s.pins := rfl
@[simp] theorem State.modCipher_pinLvl (s : State) (f : Cipher → Cipher) : (s.modCipher f).pinLvl = s.pinLvl := rfl
@[simp] theorem State.modCipher_filt (s : State) (f : Cipher → Cipher) : (s.modCipher f).filt = s.filt := rfl
@[simp] theorem State.modCipher_radio (s : State) (f : Cipher → Cipher) : (s.modCipher f).radio = s.radio := rfl
@[simp] theorem State.modCipher_stalls (s : State) (f : Cipher → Cipher) : (s.modCipher f).stalls = s.stalls := rfl
@[simp] theorem State.modCipher_pools (s : State) (f : Cipher → Cipher) : (s.modCipher f).pools = s.pools := rfl
@[simp] theorem State.modCipher_frame (s : State) (f : Cipher → Cipher) : (s.modCipher f).frame = s.frame := rfl
@[simp] theorem State.modCipher_sched (s : State) (f : Cipher → Cipher) : (s.modCipher f).sched = s.sched := rfl
@[simp] theorem State.modCipher_link (s : State) (f : Cipher → Cipher) : (s.modCipher f).link = s.link := rfl
@[simp] theorem State.modCipher_cipher (s : State) (f : Cipher → Cipher) : (s.modCipher f).cipher = f s.cipher := rfl
@[simp] theorem State.modCipher_chord (s : State) (f : Cipher → Cipher) : (s.modCipher f).chord = s.chord := rfl
@[simp] theorem State.modCipher_dma (s : State) (f : Cipher → Cipher) : (s.modCipher f).dma = s.dma := rfl
@[simp] theorem State.modCipher_yard (s : State) (f : Cipher → Cipher) : (s.modCipher f).yard = s.yard := rfl
@[simp] theorem State.modCipher_otp (s : State) (f : Cipher → Cipher) : (s.modCipher f).otp = s.otp := rfl
@[simp] theorem State.modCipher_keeper (s : State) (f : Cipher → Cipher) : (s.modCipher f).keeper = s.keeper := rfl
@[simp] theorem State.modCipher_update (s : State) (f : Cipher → Cipher) : (s.modCipher f).update = s.update := rfl
@[simp] theorem State.modCipher_pending (s : State) (f : Cipher → Cipher) : (s.modCipher f).pending = s.pending := rfl
@[simp] theorem State.modCipher_rg (s : State) (f : Cipher → Cipher) (r : Nat) : (s.modCipher f).rg r = s.rg r := rfl
@[simp] theorem State.modCipher_get (s : State) (f : Cipher → Cipher) (g : Field) : (s.modCipher f).get g = s.get g := rfl
@[simp] theorem State.modCipher_test (s : State) (f : Cipher → Cipher) (g : Field) : (s.modCipher f).test g = s.test g := rfl
@[simp] theorem State.modCipher_core (s : State) (f : Cipher → Cipher) (cc : CoreId) : (s.modCipher f).core cc = s.core cc := rfl
@[simp] theorem State.modCipher_holds (s : State) (f : Cipher → Cipher) (h : Nat) : (s.modCipher f).holds h = s.holds h := rfl

/-! ## modChord -/

@[simp] theorem State.modChord_regs (s : State) (f : Chord → Chord) : (s.modChord f).regs = s.regs := rfl
@[simp] theorem State.modChord_tick (s : State) (f : Chord → Chord) : (s.modChord f).tick = s.tick := rfl
@[simp] theorem State.modChord_mesh (s : State) (f : Chord → Chord) : (s.modChord f).mesh = s.mesh := rfl
@[simp] theorem State.modChord_free (s : State) (f : Chord → Chord) : (s.modChord f).free = s.free := rfl
@[simp] theorem State.modChord_cores (s : State) (f : Chord → Chord) : (s.modChord f).cores = s.cores := rfl
@[simp] theorem State.modChord_manger (s : State) (f : Chord → Chord) : (s.modChord f).manger = s.manger := rfl
@[simp] theorem State.modChord_faults (s : State) (f : Chord → Chord) : (s.modChord f).faults = s.faults := rfl
@[simp] theorem State.modChord_lattice (s : State) (f : Chord → Chord) : (s.modChord f).lattice = s.lattice := rfl
@[simp] theorem State.modChord_timers (s : State) (f : Chord → Chord) : (s.modChord f).timers = s.timers := rfl
@[simp] theorem State.modChord_rtc (s : State) (f : Chord → Chord) : (s.modChord f).rtc = s.rtc := rfl
@[simp] theorem State.modChord_power (s : State) (f : Chord → Chord) : (s.modChord f).power = s.power := rfl
@[simp] theorem State.modChord_sram (s : State) (f : Chord → Chord) : (s.modChord f).sram = s.sram := rfl
@[simp] theorem State.modChord_pram (s : State) (f : Chord → Chord) : (s.modChord f).pram = s.pram := rfl
@[simp] theorem State.modChord_loft (s : State) (f : Chord → Chord) : (s.modChord f).loft = s.loft := rfl
@[simp] theorem State.modChord_memChk (s : State) (f : Chord → Chord) : (s.modChord f).memChk = s.memChk := rfl
@[simp] theorem State.modChord_flash (s : State) (f : Chord → Chord) : (s.modChord f).flash = s.flash := rfl
@[simp] theorem State.modChord_flashOp (s : State) (f : Chord → Chord) : (s.modChord f).flashOp = s.flashOp := rfl
@[simp] theorem State.modChord_uart (s : State) (f : Chord → Chord) : (s.modChord f).uart = s.uart := rfl
@[simp] theorem State.modChord_hitch (s : State) (f : Chord → Chord) : (s.modChord f).hitch = s.hitch := rfl
@[simp] theorem State.modChord_pins (s : State) (f : Chord → Chord) : (s.modChord f).pins = s.pins := rfl
@[simp] theorem State.modChord_pinLvl (s : State) (f : Chord → Chord) : (s.modChord f).pinLvl = s.pinLvl := rfl
@[simp] theorem State.modChord_filt (s : State) (f : Chord → Chord) : (s.modChord f).filt = s.filt := rfl
@[simp] theorem State.modChord_radio (s : State) (f : Chord → Chord) : (s.modChord f).radio = s.radio := rfl
@[simp] theorem State.modChord_stalls (s : State) (f : Chord → Chord) : (s.modChord f).stalls = s.stalls := rfl
@[simp] theorem State.modChord_pools (s : State) (f : Chord → Chord) : (s.modChord f).pools = s.pools := rfl
@[simp] theorem State.modChord_frame (s : State) (f : Chord → Chord) : (s.modChord f).frame = s.frame := rfl
@[simp] theorem State.modChord_sched (s : State) (f : Chord → Chord) : (s.modChord f).sched = s.sched := rfl
@[simp] theorem State.modChord_link (s : State) (f : Chord → Chord) : (s.modChord f).link = s.link := rfl
@[simp] theorem State.modChord_cipher (s : State) (f : Chord → Chord) : (s.modChord f).cipher = s.cipher := rfl
@[simp] theorem State.modChord_chord (s : State) (f : Chord → Chord) : (s.modChord f).chord = f s.chord := rfl
@[simp] theorem State.modChord_dma (s : State) (f : Chord → Chord) : (s.modChord f).dma = s.dma := rfl
@[simp] theorem State.modChord_yard (s : State) (f : Chord → Chord) : (s.modChord f).yard = s.yard := rfl
@[simp] theorem State.modChord_otp (s : State) (f : Chord → Chord) : (s.modChord f).otp = s.otp := rfl
@[simp] theorem State.modChord_keeper (s : State) (f : Chord → Chord) : (s.modChord f).keeper = s.keeper := rfl
@[simp] theorem State.modChord_update (s : State) (f : Chord → Chord) : (s.modChord f).update = s.update := rfl
@[simp] theorem State.modChord_pending (s : State) (f : Chord → Chord) : (s.modChord f).pending = s.pending := rfl
@[simp] theorem State.modChord_rg (s : State) (f : Chord → Chord) (r : Nat) : (s.modChord f).rg r = s.rg r := rfl
@[simp] theorem State.modChord_get (s : State) (f : Chord → Chord) (g : Field) : (s.modChord f).get g = s.get g := rfl
@[simp] theorem State.modChord_test (s : State) (f : Chord → Chord) (g : Field) : (s.modChord f).test g = s.test g := rfl
@[simp] theorem State.modChord_core (s : State) (f : Chord → Chord) (cc : CoreId) : (s.modChord f).core cc = s.core cc := rfl
@[simp] theorem State.modChord_holds (s : State) (f : Chord → Chord) (h : Nat) : (s.modChord f).holds h = s.holds h := rfl

/-! ## modDma -/

@[simp] theorem State.modDma_regs (s : State) (f : Dma → Dma) : (s.modDma f).regs = s.regs := rfl
@[simp] theorem State.modDma_tick (s : State) (f : Dma → Dma) : (s.modDma f).tick = s.tick := rfl
@[simp] theorem State.modDma_mesh (s : State) (f : Dma → Dma) : (s.modDma f).mesh = s.mesh := rfl
@[simp] theorem State.modDma_free (s : State) (f : Dma → Dma) : (s.modDma f).free = s.free := rfl
@[simp] theorem State.modDma_cores (s : State) (f : Dma → Dma) : (s.modDma f).cores = s.cores := rfl
@[simp] theorem State.modDma_manger (s : State) (f : Dma → Dma) : (s.modDma f).manger = s.manger := rfl
@[simp] theorem State.modDma_faults (s : State) (f : Dma → Dma) : (s.modDma f).faults = s.faults := rfl
@[simp] theorem State.modDma_lattice (s : State) (f : Dma → Dma) : (s.modDma f).lattice = s.lattice := rfl
@[simp] theorem State.modDma_timers (s : State) (f : Dma → Dma) : (s.modDma f).timers = s.timers := rfl
@[simp] theorem State.modDma_rtc (s : State) (f : Dma → Dma) : (s.modDma f).rtc = s.rtc := rfl
@[simp] theorem State.modDma_power (s : State) (f : Dma → Dma) : (s.modDma f).power = s.power := rfl
@[simp] theorem State.modDma_sram (s : State) (f : Dma → Dma) : (s.modDma f).sram = s.sram := rfl
@[simp] theorem State.modDma_pram (s : State) (f : Dma → Dma) : (s.modDma f).pram = s.pram := rfl
@[simp] theorem State.modDma_loft (s : State) (f : Dma → Dma) : (s.modDma f).loft = s.loft := rfl
@[simp] theorem State.modDma_memChk (s : State) (f : Dma → Dma) : (s.modDma f).memChk = s.memChk := rfl
@[simp] theorem State.modDma_flash (s : State) (f : Dma → Dma) : (s.modDma f).flash = s.flash := rfl
@[simp] theorem State.modDma_flashOp (s : State) (f : Dma → Dma) : (s.modDma f).flashOp = s.flashOp := rfl
@[simp] theorem State.modDma_uart (s : State) (f : Dma → Dma) : (s.modDma f).uart = s.uart := rfl
@[simp] theorem State.modDma_hitch (s : State) (f : Dma → Dma) : (s.modDma f).hitch = s.hitch := rfl
@[simp] theorem State.modDma_pins (s : State) (f : Dma → Dma) : (s.modDma f).pins = s.pins := rfl
@[simp] theorem State.modDma_pinLvl (s : State) (f : Dma → Dma) : (s.modDma f).pinLvl = s.pinLvl := rfl
@[simp] theorem State.modDma_filt (s : State) (f : Dma → Dma) : (s.modDma f).filt = s.filt := rfl
@[simp] theorem State.modDma_radio (s : State) (f : Dma → Dma) : (s.modDma f).radio = s.radio := rfl
@[simp] theorem State.modDma_stalls (s : State) (f : Dma → Dma) : (s.modDma f).stalls = s.stalls := rfl
@[simp] theorem State.modDma_pools (s : State) (f : Dma → Dma) : (s.modDma f).pools = s.pools := rfl
@[simp] theorem State.modDma_frame (s : State) (f : Dma → Dma) : (s.modDma f).frame = s.frame := rfl
@[simp] theorem State.modDma_sched (s : State) (f : Dma → Dma) : (s.modDma f).sched = s.sched := rfl
@[simp] theorem State.modDma_link (s : State) (f : Dma → Dma) : (s.modDma f).link = s.link := rfl
@[simp] theorem State.modDma_cipher (s : State) (f : Dma → Dma) : (s.modDma f).cipher = s.cipher := rfl
@[simp] theorem State.modDma_chord (s : State) (f : Dma → Dma) : (s.modDma f).chord = s.chord := rfl
@[simp] theorem State.modDma_dma (s : State) (f : Dma → Dma) : (s.modDma f).dma = f s.dma := rfl
@[simp] theorem State.modDma_yard (s : State) (f : Dma → Dma) : (s.modDma f).yard = s.yard := rfl
@[simp] theorem State.modDma_otp (s : State) (f : Dma → Dma) : (s.modDma f).otp = s.otp := rfl
@[simp] theorem State.modDma_keeper (s : State) (f : Dma → Dma) : (s.modDma f).keeper = s.keeper := rfl
@[simp] theorem State.modDma_update (s : State) (f : Dma → Dma) : (s.modDma f).update = s.update := rfl
@[simp] theorem State.modDma_pending (s : State) (f : Dma → Dma) : (s.modDma f).pending = s.pending := rfl
@[simp] theorem State.modDma_rg (s : State) (f : Dma → Dma) (r : Nat) : (s.modDma f).rg r = s.rg r := rfl
@[simp] theorem State.modDma_get (s : State) (f : Dma → Dma) (g : Field) : (s.modDma f).get g = s.get g := rfl
@[simp] theorem State.modDma_test (s : State) (f : Dma → Dma) (g : Field) : (s.modDma f).test g = s.test g := rfl
@[simp] theorem State.modDma_core (s : State) (f : Dma → Dma) (cc : CoreId) : (s.modDma f).core cc = s.core cc := rfl
@[simp] theorem State.modDma_holds (s : State) (f : Dma → Dma) (h : Nat) : (s.modDma f).holds h = s.holds h := rfl

/-! ## modYard -/

@[simp] theorem State.modYard_regs (s : State) (f : Yard → Yard) : (s.modYard f).regs = s.regs := rfl
@[simp] theorem State.modYard_tick (s : State) (f : Yard → Yard) : (s.modYard f).tick = s.tick := rfl
@[simp] theorem State.modYard_mesh (s : State) (f : Yard → Yard) : (s.modYard f).mesh = s.mesh := rfl
@[simp] theorem State.modYard_free (s : State) (f : Yard → Yard) : (s.modYard f).free = s.free := rfl
@[simp] theorem State.modYard_cores (s : State) (f : Yard → Yard) : (s.modYard f).cores = s.cores := rfl
@[simp] theorem State.modYard_manger (s : State) (f : Yard → Yard) : (s.modYard f).manger = s.manger := rfl
@[simp] theorem State.modYard_faults (s : State) (f : Yard → Yard) : (s.modYard f).faults = s.faults := rfl
@[simp] theorem State.modYard_lattice (s : State) (f : Yard → Yard) : (s.modYard f).lattice = s.lattice := rfl
@[simp] theorem State.modYard_timers (s : State) (f : Yard → Yard) : (s.modYard f).timers = s.timers := rfl
@[simp] theorem State.modYard_rtc (s : State) (f : Yard → Yard) : (s.modYard f).rtc = s.rtc := rfl
@[simp] theorem State.modYard_power (s : State) (f : Yard → Yard) : (s.modYard f).power = s.power := rfl
@[simp] theorem State.modYard_sram (s : State) (f : Yard → Yard) : (s.modYard f).sram = s.sram := rfl
@[simp] theorem State.modYard_pram (s : State) (f : Yard → Yard) : (s.modYard f).pram = s.pram := rfl
@[simp] theorem State.modYard_loft (s : State) (f : Yard → Yard) : (s.modYard f).loft = s.loft := rfl
@[simp] theorem State.modYard_memChk (s : State) (f : Yard → Yard) : (s.modYard f).memChk = s.memChk := rfl
@[simp] theorem State.modYard_flash (s : State) (f : Yard → Yard) : (s.modYard f).flash = s.flash := rfl
@[simp] theorem State.modYard_flashOp (s : State) (f : Yard → Yard) : (s.modYard f).flashOp = s.flashOp := rfl
@[simp] theorem State.modYard_uart (s : State) (f : Yard → Yard) : (s.modYard f).uart = s.uart := rfl
@[simp] theorem State.modYard_hitch (s : State) (f : Yard → Yard) : (s.modYard f).hitch = s.hitch := rfl
@[simp] theorem State.modYard_pins (s : State) (f : Yard → Yard) : (s.modYard f).pins = s.pins := rfl
@[simp] theorem State.modYard_pinLvl (s : State) (f : Yard → Yard) : (s.modYard f).pinLvl = s.pinLvl := rfl
@[simp] theorem State.modYard_filt (s : State) (f : Yard → Yard) : (s.modYard f).filt = s.filt := rfl
@[simp] theorem State.modYard_radio (s : State) (f : Yard → Yard) : (s.modYard f).radio = s.radio := rfl
@[simp] theorem State.modYard_stalls (s : State) (f : Yard → Yard) : (s.modYard f).stalls = s.stalls := rfl
@[simp] theorem State.modYard_pools (s : State) (f : Yard → Yard) : (s.modYard f).pools = s.pools := rfl
@[simp] theorem State.modYard_frame (s : State) (f : Yard → Yard) : (s.modYard f).frame = s.frame := rfl
@[simp] theorem State.modYard_sched (s : State) (f : Yard → Yard) : (s.modYard f).sched = s.sched := rfl
@[simp] theorem State.modYard_link (s : State) (f : Yard → Yard) : (s.modYard f).link = s.link := rfl
@[simp] theorem State.modYard_cipher (s : State) (f : Yard → Yard) : (s.modYard f).cipher = s.cipher := rfl
@[simp] theorem State.modYard_chord (s : State) (f : Yard → Yard) : (s.modYard f).chord = s.chord := rfl
@[simp] theorem State.modYard_dma (s : State) (f : Yard → Yard) : (s.modYard f).dma = s.dma := rfl
@[simp] theorem State.modYard_yard (s : State) (f : Yard → Yard) : (s.modYard f).yard = f s.yard := rfl
@[simp] theorem State.modYard_otp (s : State) (f : Yard → Yard) : (s.modYard f).otp = s.otp := rfl
@[simp] theorem State.modYard_keeper (s : State) (f : Yard → Yard) : (s.modYard f).keeper = s.keeper := rfl
@[simp] theorem State.modYard_update (s : State) (f : Yard → Yard) : (s.modYard f).update = s.update := rfl
@[simp] theorem State.modYard_pending (s : State) (f : Yard → Yard) : (s.modYard f).pending = s.pending := rfl
@[simp] theorem State.modYard_rg (s : State) (f : Yard → Yard) (r : Nat) : (s.modYard f).rg r = s.rg r := rfl
@[simp] theorem State.modYard_get (s : State) (f : Yard → Yard) (g : Field) : (s.modYard f).get g = s.get g := rfl
@[simp] theorem State.modYard_test (s : State) (f : Yard → Yard) (g : Field) : (s.modYard f).test g = s.test g := rfl
@[simp] theorem State.modYard_core (s : State) (f : Yard → Yard) (cc : CoreId) : (s.modYard f).core cc = s.core cc := rfl
@[simp] theorem State.modYard_holds (s : State) (f : Yard → Yard) (h : Nat) : (s.modYard f).holds h = s.holds h := rfl

/-! ## modSched -/

@[simp] theorem State.modSched_regs (s : State) (f : Sched → Sched) : (s.modSched f).regs = s.regs := rfl
@[simp] theorem State.modSched_tick (s : State) (f : Sched → Sched) : (s.modSched f).tick = s.tick := rfl
@[simp] theorem State.modSched_mesh (s : State) (f : Sched → Sched) : (s.modSched f).mesh = s.mesh := rfl
@[simp] theorem State.modSched_free (s : State) (f : Sched → Sched) : (s.modSched f).free = s.free := rfl
@[simp] theorem State.modSched_cores (s : State) (f : Sched → Sched) : (s.modSched f).cores = s.cores := rfl
@[simp] theorem State.modSched_manger (s : State) (f : Sched → Sched) : (s.modSched f).manger = s.manger := rfl
@[simp] theorem State.modSched_faults (s : State) (f : Sched → Sched) : (s.modSched f).faults = s.faults := rfl
@[simp] theorem State.modSched_lattice (s : State) (f : Sched → Sched) : (s.modSched f).lattice = s.lattice := rfl
@[simp] theorem State.modSched_timers (s : State) (f : Sched → Sched) : (s.modSched f).timers = s.timers := rfl
@[simp] theorem State.modSched_rtc (s : State) (f : Sched → Sched) : (s.modSched f).rtc = s.rtc := rfl
@[simp] theorem State.modSched_power (s : State) (f : Sched → Sched) : (s.modSched f).power = s.power := rfl
@[simp] theorem State.modSched_sram (s : State) (f : Sched → Sched) : (s.modSched f).sram = s.sram := rfl
@[simp] theorem State.modSched_pram (s : State) (f : Sched → Sched) : (s.modSched f).pram = s.pram := rfl
@[simp] theorem State.modSched_loft (s : State) (f : Sched → Sched) : (s.modSched f).loft = s.loft := rfl
@[simp] theorem State.modSched_memChk (s : State) (f : Sched → Sched) : (s.modSched f).memChk = s.memChk := rfl
@[simp] theorem State.modSched_flash (s : State) (f : Sched → Sched) : (s.modSched f).flash = s.flash := rfl
@[simp] theorem State.modSched_flashOp (s : State) (f : Sched → Sched) : (s.modSched f).flashOp = s.flashOp := rfl
@[simp] theorem State.modSched_uart (s : State) (f : Sched → Sched) : (s.modSched f).uart = s.uart := rfl
@[simp] theorem State.modSched_hitch (s : State) (f : Sched → Sched) : (s.modSched f).hitch = s.hitch := rfl
@[simp] theorem State.modSched_pins (s : State) (f : Sched → Sched) : (s.modSched f).pins = s.pins := rfl
@[simp] theorem State.modSched_pinLvl (s : State) (f : Sched → Sched) : (s.modSched f).pinLvl = s.pinLvl := rfl
@[simp] theorem State.modSched_filt (s : State) (f : Sched → Sched) : (s.modSched f).filt = s.filt := rfl
@[simp] theorem State.modSched_radio (s : State) (f : Sched → Sched) : (s.modSched f).radio = s.radio := rfl
@[simp] theorem State.modSched_stalls (s : State) (f : Sched → Sched) : (s.modSched f).stalls = s.stalls := rfl
@[simp] theorem State.modSched_pools (s : State) (f : Sched → Sched) : (s.modSched f).pools = s.pools := rfl
@[simp] theorem State.modSched_frame (s : State) (f : Sched → Sched) : (s.modSched f).frame = s.frame := rfl
@[simp] theorem State.modSched_sched (s : State) (f : Sched → Sched) : (s.modSched f).sched = f s.sched := rfl
@[simp] theorem State.modSched_link (s : State) (f : Sched → Sched) : (s.modSched f).link = s.link := rfl
@[simp] theorem State.modSched_cipher (s : State) (f : Sched → Sched) : (s.modSched f).cipher = s.cipher := rfl
@[simp] theorem State.modSched_chord (s : State) (f : Sched → Sched) : (s.modSched f).chord = s.chord := rfl
@[simp] theorem State.modSched_dma (s : State) (f : Sched → Sched) : (s.modSched f).dma = s.dma := rfl
@[simp] theorem State.modSched_yard (s : State) (f : Sched → Sched) : (s.modSched f).yard = s.yard := rfl
@[simp] theorem State.modSched_otp (s : State) (f : Sched → Sched) : (s.modSched f).otp = s.otp := rfl
@[simp] theorem State.modSched_keeper (s : State) (f : Sched → Sched) : (s.modSched f).keeper = s.keeper := rfl
@[simp] theorem State.modSched_update (s : State) (f : Sched → Sched) : (s.modSched f).update = s.update := rfl
@[simp] theorem State.modSched_pending (s : State) (f : Sched → Sched) : (s.modSched f).pending = s.pending := rfl
@[simp] theorem State.modSched_rg (s : State) (f : Sched → Sched) (r : Nat) : (s.modSched f).rg r = s.rg r := rfl
@[simp] theorem State.modSched_get (s : State) (f : Sched → Sched) (g : Field) : (s.modSched f).get g = s.get g := rfl
@[simp] theorem State.modSched_test (s : State) (f : Sched → Sched) (g : Field) : (s.modSched f).test g = s.test g := rfl
@[simp] theorem State.modSched_core (s : State) (f : Sched → Sched) (cc : CoreId) : (s.modSched f).core cc = s.core cc := rfl
@[simp] theorem State.modSched_holds (s : State) (f : Sched → Sched) (h : Nat) : (s.modSched f).holds h = s.holds h := rfl

/-! ## modKeeper -/

@[simp] theorem State.modKeeper_regs (s : State) (f : Keeper → Keeper) : (s.modKeeper f).regs = s.regs := rfl
@[simp] theorem State.modKeeper_tick (s : State) (f : Keeper → Keeper) : (s.modKeeper f).tick = s.tick := rfl
@[simp] theorem State.modKeeper_mesh (s : State) (f : Keeper → Keeper) : (s.modKeeper f).mesh = s.mesh := rfl
@[simp] theorem State.modKeeper_free (s : State) (f : Keeper → Keeper) : (s.modKeeper f).free = s.free := rfl
@[simp] theorem State.modKeeper_cores (s : State) (f : Keeper → Keeper) : (s.modKeeper f).cores = s.cores := rfl
@[simp] theorem State.modKeeper_manger (s : State) (f : Keeper → Keeper) : (s.modKeeper f).manger = s.manger := rfl
@[simp] theorem State.modKeeper_faults (s : State) (f : Keeper → Keeper) : (s.modKeeper f).faults = s.faults := rfl
@[simp] theorem State.modKeeper_lattice (s : State) (f : Keeper → Keeper) : (s.modKeeper f).lattice = s.lattice := rfl
@[simp] theorem State.modKeeper_timers (s : State) (f : Keeper → Keeper) : (s.modKeeper f).timers = s.timers := rfl
@[simp] theorem State.modKeeper_rtc (s : State) (f : Keeper → Keeper) : (s.modKeeper f).rtc = s.rtc := rfl
@[simp] theorem State.modKeeper_power (s : State) (f : Keeper → Keeper) : (s.modKeeper f).power = s.power := rfl
@[simp] theorem State.modKeeper_sram (s : State) (f : Keeper → Keeper) : (s.modKeeper f).sram = s.sram := rfl
@[simp] theorem State.modKeeper_pram (s : State) (f : Keeper → Keeper) : (s.modKeeper f).pram = s.pram := rfl
@[simp] theorem State.modKeeper_loft (s : State) (f : Keeper → Keeper) : (s.modKeeper f).loft = s.loft := rfl
@[simp] theorem State.modKeeper_memChk (s : State) (f : Keeper → Keeper) : (s.modKeeper f).memChk = s.memChk := rfl
@[simp] theorem State.modKeeper_flash (s : State) (f : Keeper → Keeper) : (s.modKeeper f).flash = s.flash := rfl
@[simp] theorem State.modKeeper_flashOp (s : State) (f : Keeper → Keeper) : (s.modKeeper f).flashOp = s.flashOp := rfl
@[simp] theorem State.modKeeper_uart (s : State) (f : Keeper → Keeper) : (s.modKeeper f).uart = s.uart := rfl
@[simp] theorem State.modKeeper_hitch (s : State) (f : Keeper → Keeper) : (s.modKeeper f).hitch = s.hitch := rfl
@[simp] theorem State.modKeeper_pins (s : State) (f : Keeper → Keeper) : (s.modKeeper f).pins = s.pins := rfl
@[simp] theorem State.modKeeper_pinLvl (s : State) (f : Keeper → Keeper) : (s.modKeeper f).pinLvl = s.pinLvl := rfl
@[simp] theorem State.modKeeper_filt (s : State) (f : Keeper → Keeper) : (s.modKeeper f).filt = s.filt := rfl
@[simp] theorem State.modKeeper_radio (s : State) (f : Keeper → Keeper) : (s.modKeeper f).radio = s.radio := rfl
@[simp] theorem State.modKeeper_stalls (s : State) (f : Keeper → Keeper) : (s.modKeeper f).stalls = s.stalls := rfl
@[simp] theorem State.modKeeper_pools (s : State) (f : Keeper → Keeper) : (s.modKeeper f).pools = s.pools := rfl
@[simp] theorem State.modKeeper_frame (s : State) (f : Keeper → Keeper) : (s.modKeeper f).frame = s.frame := rfl
@[simp] theorem State.modKeeper_sched (s : State) (f : Keeper → Keeper) : (s.modKeeper f).sched = s.sched := rfl
@[simp] theorem State.modKeeper_link (s : State) (f : Keeper → Keeper) : (s.modKeeper f).link = s.link := rfl
@[simp] theorem State.modKeeper_cipher (s : State) (f : Keeper → Keeper) : (s.modKeeper f).cipher = s.cipher := rfl
@[simp] theorem State.modKeeper_chord (s : State) (f : Keeper → Keeper) : (s.modKeeper f).chord = s.chord := rfl
@[simp] theorem State.modKeeper_dma (s : State) (f : Keeper → Keeper) : (s.modKeeper f).dma = s.dma := rfl
@[simp] theorem State.modKeeper_yard (s : State) (f : Keeper → Keeper) : (s.modKeeper f).yard = s.yard := rfl
@[simp] theorem State.modKeeper_otp (s : State) (f : Keeper → Keeper) : (s.modKeeper f).otp = s.otp := rfl
@[simp] theorem State.modKeeper_keeper (s : State) (f : Keeper → Keeper) : (s.modKeeper f).keeper = f s.keeper := rfl
@[simp] theorem State.modKeeper_update (s : State) (f : Keeper → Keeper) : (s.modKeeper f).update = s.update := rfl
@[simp] theorem State.modKeeper_pending (s : State) (f : Keeper → Keeper) : (s.modKeeper f).pending = s.pending := rfl
@[simp] theorem State.modKeeper_rg (s : State) (f : Keeper → Keeper) (r : Nat) : (s.modKeeper f).rg r = s.rg r := rfl
@[simp] theorem State.modKeeper_get (s : State) (f : Keeper → Keeper) (g : Field) : (s.modKeeper f).get g = s.get g := rfl
@[simp] theorem State.modKeeper_test (s : State) (f : Keeper → Keeper) (g : Field) : (s.modKeeper f).test g = s.test g := rfl
@[simp] theorem State.modKeeper_core (s : State) (f : Keeper → Keeper) (cc : CoreId) : (s.modKeeper f).core cc = s.core cc := rfl
@[simp] theorem State.modKeeper_holds (s : State) (f : Keeper → Keeper) (h : Nat) : (s.modKeeper f).holds h = s.holds h := rfl

/-! ## modFaults -/

@[simp] theorem State.modFaults_regs (s : State) (f : Faults → Faults) : (s.modFaults f).regs = s.regs := rfl
@[simp] theorem State.modFaults_tick (s : State) (f : Faults → Faults) : (s.modFaults f).tick = s.tick := rfl
@[simp] theorem State.modFaults_mesh (s : State) (f : Faults → Faults) : (s.modFaults f).mesh = s.mesh := rfl
@[simp] theorem State.modFaults_free (s : State) (f : Faults → Faults) : (s.modFaults f).free = s.free := rfl
@[simp] theorem State.modFaults_cores (s : State) (f : Faults → Faults) : (s.modFaults f).cores = s.cores := rfl
@[simp] theorem State.modFaults_manger (s : State) (f : Faults → Faults) : (s.modFaults f).manger = s.manger := rfl
@[simp] theorem State.modFaults_faults (s : State) (f : Faults → Faults) : (s.modFaults f).faults = f s.faults := rfl
@[simp] theorem State.modFaults_lattice (s : State) (f : Faults → Faults) : (s.modFaults f).lattice = s.lattice := rfl
@[simp] theorem State.modFaults_timers (s : State) (f : Faults → Faults) : (s.modFaults f).timers = s.timers := rfl
@[simp] theorem State.modFaults_rtc (s : State) (f : Faults → Faults) : (s.modFaults f).rtc = s.rtc := rfl
@[simp] theorem State.modFaults_power (s : State) (f : Faults → Faults) : (s.modFaults f).power = s.power := rfl
@[simp] theorem State.modFaults_sram (s : State) (f : Faults → Faults) : (s.modFaults f).sram = s.sram := rfl
@[simp] theorem State.modFaults_pram (s : State) (f : Faults → Faults) : (s.modFaults f).pram = s.pram := rfl
@[simp] theorem State.modFaults_loft (s : State) (f : Faults → Faults) : (s.modFaults f).loft = s.loft := rfl
@[simp] theorem State.modFaults_memChk (s : State) (f : Faults → Faults) : (s.modFaults f).memChk = s.memChk := rfl
@[simp] theorem State.modFaults_flash (s : State) (f : Faults → Faults) : (s.modFaults f).flash = s.flash := rfl
@[simp] theorem State.modFaults_flashOp (s : State) (f : Faults → Faults) : (s.modFaults f).flashOp = s.flashOp := rfl
@[simp] theorem State.modFaults_uart (s : State) (f : Faults → Faults) : (s.modFaults f).uart = s.uart := rfl
@[simp] theorem State.modFaults_hitch (s : State) (f : Faults → Faults) : (s.modFaults f).hitch = s.hitch := rfl
@[simp] theorem State.modFaults_pins (s : State) (f : Faults → Faults) : (s.modFaults f).pins = s.pins := rfl
@[simp] theorem State.modFaults_pinLvl (s : State) (f : Faults → Faults) : (s.modFaults f).pinLvl = s.pinLvl := rfl
@[simp] theorem State.modFaults_filt (s : State) (f : Faults → Faults) : (s.modFaults f).filt = s.filt := rfl
@[simp] theorem State.modFaults_radio (s : State) (f : Faults → Faults) : (s.modFaults f).radio = s.radio := rfl
@[simp] theorem State.modFaults_stalls (s : State) (f : Faults → Faults) : (s.modFaults f).stalls = s.stalls := rfl
@[simp] theorem State.modFaults_pools (s : State) (f : Faults → Faults) : (s.modFaults f).pools = s.pools := rfl
@[simp] theorem State.modFaults_frame (s : State) (f : Faults → Faults) : (s.modFaults f).frame = s.frame := rfl
@[simp] theorem State.modFaults_sched (s : State) (f : Faults → Faults) : (s.modFaults f).sched = s.sched := rfl
@[simp] theorem State.modFaults_link (s : State) (f : Faults → Faults) : (s.modFaults f).link = s.link := rfl
@[simp] theorem State.modFaults_cipher (s : State) (f : Faults → Faults) : (s.modFaults f).cipher = s.cipher := rfl
@[simp] theorem State.modFaults_chord (s : State) (f : Faults → Faults) : (s.modFaults f).chord = s.chord := rfl
@[simp] theorem State.modFaults_dma (s : State) (f : Faults → Faults) : (s.modFaults f).dma = s.dma := rfl
@[simp] theorem State.modFaults_yard (s : State) (f : Faults → Faults) : (s.modFaults f).yard = s.yard := rfl
@[simp] theorem State.modFaults_otp (s : State) (f : Faults → Faults) : (s.modFaults f).otp = s.otp := rfl
@[simp] theorem State.modFaults_keeper (s : State) (f : Faults → Faults) : (s.modFaults f).keeper = s.keeper := rfl
@[simp] theorem State.modFaults_update (s : State) (f : Faults → Faults) : (s.modFaults f).update = s.update := rfl
@[simp] theorem State.modFaults_pending (s : State) (f : Faults → Faults) : (s.modFaults f).pending = s.pending := rfl
@[simp] theorem State.modFaults_rg (s : State) (f : Faults → Faults) (r : Nat) : (s.modFaults f).rg r = s.rg r := rfl
@[simp] theorem State.modFaults_get (s : State) (f : Faults → Faults) (g : Field) : (s.modFaults f).get g = s.get g := rfl
@[simp] theorem State.modFaults_test (s : State) (f : Faults → Faults) (g : Field) : (s.modFaults f).test g = s.test g := rfl
@[simp] theorem State.modFaults_core (s : State) (f : Faults → Faults) (cc : CoreId) : (s.modFaults f).core cc = s.core cc := rfl
@[simp] theorem State.modFaults_holds (s : State) (f : Faults → Faults) (h : Nat) : (s.modFaults f).holds h = s.holds h := rfl

/-! ## modUpdate -/

@[simp] theorem State.modUpdate_regs (s : State) (f : Update → Update) : (s.modUpdate f).regs = s.regs := rfl
@[simp] theorem State.modUpdate_tick (s : State) (f : Update → Update) : (s.modUpdate f).tick = s.tick := rfl
@[simp] theorem State.modUpdate_mesh (s : State) (f : Update → Update) : (s.modUpdate f).mesh = s.mesh := rfl
@[simp] theorem State.modUpdate_free (s : State) (f : Update → Update) : (s.modUpdate f).free = s.free := rfl
@[simp] theorem State.modUpdate_cores (s : State) (f : Update → Update) : (s.modUpdate f).cores = s.cores := rfl
@[simp] theorem State.modUpdate_manger (s : State) (f : Update → Update) : (s.modUpdate f).manger = s.manger := rfl
@[simp] theorem State.modUpdate_faults (s : State) (f : Update → Update) : (s.modUpdate f).faults = s.faults := rfl
@[simp] theorem State.modUpdate_lattice (s : State) (f : Update → Update) : (s.modUpdate f).lattice = s.lattice := rfl
@[simp] theorem State.modUpdate_timers (s : State) (f : Update → Update) : (s.modUpdate f).timers = s.timers := rfl
@[simp] theorem State.modUpdate_rtc (s : State) (f : Update → Update) : (s.modUpdate f).rtc = s.rtc := rfl
@[simp] theorem State.modUpdate_power (s : State) (f : Update → Update) : (s.modUpdate f).power = s.power := rfl
@[simp] theorem State.modUpdate_sram (s : State) (f : Update → Update) : (s.modUpdate f).sram = s.sram := rfl
@[simp] theorem State.modUpdate_pram (s : State) (f : Update → Update) : (s.modUpdate f).pram = s.pram := rfl
@[simp] theorem State.modUpdate_loft (s : State) (f : Update → Update) : (s.modUpdate f).loft = s.loft := rfl
@[simp] theorem State.modUpdate_memChk (s : State) (f : Update → Update) : (s.modUpdate f).memChk = s.memChk := rfl
@[simp] theorem State.modUpdate_flash (s : State) (f : Update → Update) : (s.modUpdate f).flash = s.flash := rfl
@[simp] theorem State.modUpdate_flashOp (s : State) (f : Update → Update) : (s.modUpdate f).flashOp = s.flashOp := rfl
@[simp] theorem State.modUpdate_uart (s : State) (f : Update → Update) : (s.modUpdate f).uart = s.uart := rfl
@[simp] theorem State.modUpdate_hitch (s : State) (f : Update → Update) : (s.modUpdate f).hitch = s.hitch := rfl
@[simp] theorem State.modUpdate_pins (s : State) (f : Update → Update) : (s.modUpdate f).pins = s.pins := rfl
@[simp] theorem State.modUpdate_pinLvl (s : State) (f : Update → Update) : (s.modUpdate f).pinLvl = s.pinLvl := rfl
@[simp] theorem State.modUpdate_filt (s : State) (f : Update → Update) : (s.modUpdate f).filt = s.filt := rfl
@[simp] theorem State.modUpdate_radio (s : State) (f : Update → Update) : (s.modUpdate f).radio = s.radio := rfl
@[simp] theorem State.modUpdate_stalls (s : State) (f : Update → Update) : (s.modUpdate f).stalls = s.stalls := rfl
@[simp] theorem State.modUpdate_pools (s : State) (f : Update → Update) : (s.modUpdate f).pools = s.pools := rfl
@[simp] theorem State.modUpdate_frame (s : State) (f : Update → Update) : (s.modUpdate f).frame = s.frame := rfl
@[simp] theorem State.modUpdate_sched (s : State) (f : Update → Update) : (s.modUpdate f).sched = s.sched := rfl
@[simp] theorem State.modUpdate_link (s : State) (f : Update → Update) : (s.modUpdate f).link = s.link := rfl
@[simp] theorem State.modUpdate_cipher (s : State) (f : Update → Update) : (s.modUpdate f).cipher = s.cipher := rfl
@[simp] theorem State.modUpdate_chord (s : State) (f : Update → Update) : (s.modUpdate f).chord = s.chord := rfl
@[simp] theorem State.modUpdate_dma (s : State) (f : Update → Update) : (s.modUpdate f).dma = s.dma := rfl
@[simp] theorem State.modUpdate_yard (s : State) (f : Update → Update) : (s.modUpdate f).yard = s.yard := rfl
@[simp] theorem State.modUpdate_otp (s : State) (f : Update → Update) : (s.modUpdate f).otp = s.otp := rfl
@[simp] theorem State.modUpdate_keeper (s : State) (f : Update → Update) : (s.modUpdate f).keeper = s.keeper := rfl
@[simp] theorem State.modUpdate_update (s : State) (f : Update → Update) : (s.modUpdate f).update = f s.update := rfl
@[simp] theorem State.modUpdate_pending (s : State) (f : Update → Update) : (s.modUpdate f).pending = s.pending := rfl
@[simp] theorem State.modUpdate_rg (s : State) (f : Update → Update) (r : Nat) : (s.modUpdate f).rg r = s.rg r := rfl
@[simp] theorem State.modUpdate_get (s : State) (f : Update → Update) (g : Field) : (s.modUpdate f).get g = s.get g := rfl
@[simp] theorem State.modUpdate_test (s : State) (f : Update → Update) (g : Field) : (s.modUpdate f).test g = s.test g := rfl
@[simp] theorem State.modUpdate_core (s : State) (f : Update → Update) (cc : CoreId) : (s.modUpdate f).core cc = s.core cc := rfl
@[simp] theorem State.modUpdate_holds (s : State) (f : Update → Update) (h : Nat) : (s.modUpdate f).holds h = s.holds h := rfl

/-! ## setFuse -/

@[simp] theorem State.setFuse_regs (s : State) (n : Option Nat) : (s.setFuse n).regs = s.regs := rfl
@[simp] theorem State.setFuse_tick (s : State) (n : Option Nat) : (s.setFuse n).tick = s.tick := rfl
@[simp] theorem State.setFuse_mesh (s : State) (n : Option Nat) : (s.setFuse n).mesh = s.mesh := rfl
@[simp] theorem State.setFuse_free (s : State) (n : Option Nat) : (s.setFuse n).free = s.free := rfl
@[simp] theorem State.setFuse_cores (s : State) (n : Option Nat) : (s.setFuse n).cores = s.cores := rfl
@[simp] theorem State.setFuse_manger (s : State) (n : Option Nat) : (s.setFuse n).manger = s.manger := rfl
@[simp] theorem State.setFuse_faults (s : State) (n : Option Nat) : (s.setFuse n).faults = s.faults := rfl
@[simp] theorem State.setFuse_lattice (s : State) (n : Option Nat) : (s.setFuse n).lattice = s.lattice := rfl
@[simp] theorem State.setFuse_timers (s : State) (n : Option Nat) : (s.setFuse n).timers = s.timers := rfl
@[simp] theorem State.setFuse_rtc (s : State) (n : Option Nat) : (s.setFuse n).rtc = s.rtc := rfl
@[simp] theorem State.setFuse_power (s : State) (n : Option Nat) : (s.setFuse n).power = s.power := rfl
@[simp] theorem State.setFuse_sram (s : State) (n : Option Nat) : (s.setFuse n).sram = s.sram := rfl
@[simp] theorem State.setFuse_pram (s : State) (n : Option Nat) : (s.setFuse n).pram = s.pram := rfl
@[simp] theorem State.setFuse_loft (s : State) (n : Option Nat) : (s.setFuse n).loft = s.loft := rfl
@[simp] theorem State.setFuse_memChk (s : State) (n : Option Nat) : (s.setFuse n).memChk = s.memChk := rfl
@[simp] theorem State.setFuse_flash (s : State) (n : Option Nat) : (s.setFuse n).flash = s.flash := rfl
@[simp] theorem State.setFuse_flashOp (s : State) (n : Option Nat) : (s.setFuse n).flashOp = s.flashOp := rfl
@[simp] theorem State.setFuse_uart (s : State) (n : Option Nat) : (s.setFuse n).uart = s.uart := rfl
@[simp] theorem State.setFuse_hitch (s : State) (n : Option Nat) : (s.setFuse n).hitch = s.hitch := rfl
@[simp] theorem State.setFuse_pins (s : State) (n : Option Nat) : (s.setFuse n).pins = s.pins := rfl
@[simp] theorem State.setFuse_pinLvl (s : State) (n : Option Nat) : (s.setFuse n).pinLvl = s.pinLvl := rfl
@[simp] theorem State.setFuse_filt (s : State) (n : Option Nat) : (s.setFuse n).filt = s.filt := rfl
@[simp] theorem State.setFuse_radio (s : State) (n : Option Nat) : (s.setFuse n).radio = s.radio := rfl
@[simp] theorem State.setFuse_stalls (s : State) (n : Option Nat) : (s.setFuse n).stalls = s.stalls := rfl
@[simp] theorem State.setFuse_pools (s : State) (n : Option Nat) : (s.setFuse n).pools = s.pools := rfl
@[simp] theorem State.setFuse_frame (s : State) (n : Option Nat) : (s.setFuse n).frame = s.frame := rfl
@[simp] theorem State.setFuse_sched (s : State) (n : Option Nat) : (s.setFuse n).sched = s.sched := rfl
@[simp] theorem State.setFuse_link (s : State) (n : Option Nat) : (s.setFuse n).link = s.link := rfl
@[simp] theorem State.setFuse_cipher (s : State) (n : Option Nat) : (s.setFuse n).cipher = s.cipher := rfl
@[simp] theorem State.setFuse_chord (s : State) (n : Option Nat) : (s.setFuse n).chord = s.chord := rfl
@[simp] theorem State.setFuse_dma (s : State) (n : Option Nat) : (s.setFuse n).dma = s.dma := rfl
@[simp] theorem State.setFuse_yard (s : State) (n : Option Nat) : (s.setFuse n).yard = s.yard := rfl
@[simp] theorem State.setFuse_otp (s : State) (n : Option Nat) : (s.setFuse n).otp = s.otp := rfl
@[simp] theorem State.setFuse_keeper (s : State) (n : Option Nat) : (s.setFuse n).keeper = s.keeper := rfl
@[simp] theorem State.setFuse_update (s : State) (n : Option Nat) : (s.setFuse n).update = { s.update with fuse := n } := rfl
@[simp] theorem State.setFuse_pending (s : State) (n : Option Nat) : (s.setFuse n).pending = s.pending := rfl
@[simp] theorem State.setFuse_rg (s : State) (n : Option Nat) (r : Nat) : (s.setFuse n).rg r = s.rg r := rfl
@[simp] theorem State.setFuse_get (s : State) (n : Option Nat) (g : Field) : (s.setFuse n).get g = s.get g := rfl
@[simp] theorem State.setFuse_test (s : State) (n : Option Nat) (g : Field) : (s.setFuse n).test g = s.test g := rfl
@[simp] theorem State.setFuse_core (s : State) (n : Option Nat) (cc : CoreId) : (s.setFuse n).core cc = s.core cc := rfl
@[simp] theorem State.setFuse_holds (s : State) (n : Option Nat) (h : Nat) : (s.setFuse n).holds h = s.holds h := rfl

/-! ## modOtp -/

@[simp] theorem State.modOtp_regs (s : State) (f : Otp → Otp) : (s.modOtp f).regs = s.regs := rfl
@[simp] theorem State.modOtp_tick (s : State) (f : Otp → Otp) : (s.modOtp f).tick = s.tick := rfl
@[simp] theorem State.modOtp_mesh (s : State) (f : Otp → Otp) : (s.modOtp f).mesh = s.mesh := rfl
@[simp] theorem State.modOtp_free (s : State) (f : Otp → Otp) : (s.modOtp f).free = s.free := rfl
@[simp] theorem State.modOtp_cores (s : State) (f : Otp → Otp) : (s.modOtp f).cores = s.cores := rfl
@[simp] theorem State.modOtp_manger (s : State) (f : Otp → Otp) : (s.modOtp f).manger = s.manger := rfl
@[simp] theorem State.modOtp_faults (s : State) (f : Otp → Otp) : (s.modOtp f).faults = s.faults := rfl
@[simp] theorem State.modOtp_lattice (s : State) (f : Otp → Otp) : (s.modOtp f).lattice = s.lattice := rfl
@[simp] theorem State.modOtp_timers (s : State) (f : Otp → Otp) : (s.modOtp f).timers = s.timers := rfl
@[simp] theorem State.modOtp_rtc (s : State) (f : Otp → Otp) : (s.modOtp f).rtc = s.rtc := rfl
@[simp] theorem State.modOtp_power (s : State) (f : Otp → Otp) : (s.modOtp f).power = s.power := rfl
@[simp] theorem State.modOtp_sram (s : State) (f : Otp → Otp) : (s.modOtp f).sram = s.sram := rfl
@[simp] theorem State.modOtp_pram (s : State) (f : Otp → Otp) : (s.modOtp f).pram = s.pram := rfl
@[simp] theorem State.modOtp_loft (s : State) (f : Otp → Otp) : (s.modOtp f).loft = s.loft := rfl
@[simp] theorem State.modOtp_memChk (s : State) (f : Otp → Otp) : (s.modOtp f).memChk = s.memChk := rfl
@[simp] theorem State.modOtp_flash (s : State) (f : Otp → Otp) : (s.modOtp f).flash = s.flash := rfl
@[simp] theorem State.modOtp_flashOp (s : State) (f : Otp → Otp) : (s.modOtp f).flashOp = s.flashOp := rfl
@[simp] theorem State.modOtp_uart (s : State) (f : Otp → Otp) : (s.modOtp f).uart = s.uart := rfl
@[simp] theorem State.modOtp_hitch (s : State) (f : Otp → Otp) : (s.modOtp f).hitch = s.hitch := rfl
@[simp] theorem State.modOtp_pins (s : State) (f : Otp → Otp) : (s.modOtp f).pins = s.pins := rfl
@[simp] theorem State.modOtp_pinLvl (s : State) (f : Otp → Otp) : (s.modOtp f).pinLvl = s.pinLvl := rfl
@[simp] theorem State.modOtp_filt (s : State) (f : Otp → Otp) : (s.modOtp f).filt = s.filt := rfl
@[simp] theorem State.modOtp_radio (s : State) (f : Otp → Otp) : (s.modOtp f).radio = s.radio := rfl
@[simp] theorem State.modOtp_stalls (s : State) (f : Otp → Otp) : (s.modOtp f).stalls = s.stalls := rfl
@[simp] theorem State.modOtp_pools (s : State) (f : Otp → Otp) : (s.modOtp f).pools = s.pools := rfl
@[simp] theorem State.modOtp_frame (s : State) (f : Otp → Otp) : (s.modOtp f).frame = s.frame := rfl
@[simp] theorem State.modOtp_sched (s : State) (f : Otp → Otp) : (s.modOtp f).sched = s.sched := rfl
@[simp] theorem State.modOtp_link (s : State) (f : Otp → Otp) : (s.modOtp f).link = s.link := rfl
@[simp] theorem State.modOtp_cipher (s : State) (f : Otp → Otp) : (s.modOtp f).cipher = s.cipher := rfl
@[simp] theorem State.modOtp_chord (s : State) (f : Otp → Otp) : (s.modOtp f).chord = s.chord := rfl
@[simp] theorem State.modOtp_dma (s : State) (f : Otp → Otp) : (s.modOtp f).dma = s.dma := rfl
@[simp] theorem State.modOtp_yard (s : State) (f : Otp → Otp) : (s.modOtp f).yard = s.yard := rfl
@[simp] theorem State.modOtp_otp (s : State) (f : Otp → Otp) : (s.modOtp f).otp = f s.otp := rfl
@[simp] theorem State.modOtp_keeper (s : State) (f : Otp → Otp) : (s.modOtp f).keeper = s.keeper := rfl
@[simp] theorem State.modOtp_update (s : State) (f : Otp → Otp) : (s.modOtp f).update = s.update := rfl
@[simp] theorem State.modOtp_pending (s : State) (f : Otp → Otp) : (s.modOtp f).pending = s.pending := rfl
@[simp] theorem State.modOtp_rg (s : State) (f : Otp → Otp) (r : Nat) : (s.modOtp f).rg r = s.rg r := rfl
@[simp] theorem State.modOtp_get (s : State) (f : Otp → Otp) (g : Field) : (s.modOtp f).get g = s.get g := rfl
@[simp] theorem State.modOtp_test (s : State) (f : Otp → Otp) (g : Field) : (s.modOtp f).test g = s.test g := rfl
@[simp] theorem State.modOtp_core (s : State) (f : Otp → Otp) (cc : CoreId) : (s.modOtp f).core cc = s.core cc := rfl
@[simp] theorem State.modOtp_holds (s : State) (f : Otp → Otp) (h : Nat) : (s.modOtp f).holds h = s.holds h := rfl

/-! ## modFrames -/

@[simp] theorem State.modFrames_regs (s : State) (f : FrameUnit → FrameUnit) : (s.modFrames f).regs = s.regs := rfl
@[simp] theorem State.modFrames_tick (s : State) (f : FrameUnit → FrameUnit) : (s.modFrames f).tick = s.tick := rfl
@[simp] theorem State.modFrames_mesh (s : State) (f : FrameUnit → FrameUnit) : (s.modFrames f).mesh = s.mesh := rfl
@[simp] theorem State.modFrames_free (s : State) (f : FrameUnit → FrameUnit) : (s.modFrames f).free = s.free := rfl
@[simp] theorem State.modFrames_cores (s : State) (f : FrameUnit → FrameUnit) : (s.modFrames f).cores = s.cores := rfl
@[simp] theorem State.modFrames_manger (s : State) (f : FrameUnit → FrameUnit) : (s.modFrames f).manger = s.manger := rfl
@[simp] theorem State.modFrames_faults (s : State) (f : FrameUnit → FrameUnit) : (s.modFrames f).faults = s.faults := rfl
@[simp] theorem State.modFrames_lattice (s : State) (f : FrameUnit → FrameUnit) : (s.modFrames f).lattice = s.lattice := rfl
@[simp] theorem State.modFrames_timers (s : State) (f : FrameUnit → FrameUnit) : (s.modFrames f).timers = s.timers := rfl
@[simp] theorem State.modFrames_rtc (s : State) (f : FrameUnit → FrameUnit) : (s.modFrames f).rtc = s.rtc := rfl
@[simp] theorem State.modFrames_power (s : State) (f : FrameUnit → FrameUnit) : (s.modFrames f).power = s.power := rfl
@[simp] theorem State.modFrames_sram (s : State) (f : FrameUnit → FrameUnit) : (s.modFrames f).sram = s.sram := rfl
@[simp] theorem State.modFrames_pram (s : State) (f : FrameUnit → FrameUnit) : (s.modFrames f).pram = s.pram := rfl
@[simp] theorem State.modFrames_loft (s : State) (f : FrameUnit → FrameUnit) : (s.modFrames f).loft = s.loft := rfl
@[simp] theorem State.modFrames_memChk (s : State) (f : FrameUnit → FrameUnit) : (s.modFrames f).memChk = s.memChk := rfl
@[simp] theorem State.modFrames_flash (s : State) (f : FrameUnit → FrameUnit) : (s.modFrames f).flash = s.flash := rfl
@[simp] theorem State.modFrames_flashOp (s : State) (f : FrameUnit → FrameUnit) : (s.modFrames f).flashOp = s.flashOp := rfl
@[simp] theorem State.modFrames_uart (s : State) (f : FrameUnit → FrameUnit) : (s.modFrames f).uart = s.uart := rfl
@[simp] theorem State.modFrames_hitch (s : State) (f : FrameUnit → FrameUnit) : (s.modFrames f).hitch = s.hitch := rfl
@[simp] theorem State.modFrames_pins (s : State) (f : FrameUnit → FrameUnit) : (s.modFrames f).pins = s.pins := rfl
@[simp] theorem State.modFrames_pinLvl (s : State) (f : FrameUnit → FrameUnit) : (s.modFrames f).pinLvl = s.pinLvl := rfl
@[simp] theorem State.modFrames_filt (s : State) (f : FrameUnit → FrameUnit) : (s.modFrames f).filt = s.filt := rfl
@[simp] theorem State.modFrames_radio (s : State) (f : FrameUnit → FrameUnit) : (s.modFrames f).radio = s.radio := rfl
@[simp] theorem State.modFrames_stalls (s : State) (f : FrameUnit → FrameUnit) : (s.modFrames f).stalls = s.stalls := rfl
@[simp] theorem State.modFrames_pools (s : State) (f : FrameUnit → FrameUnit) : (s.modFrames f).pools = s.pools := rfl
@[simp] theorem State.modFrames_frame (s : State) (f : FrameUnit → FrameUnit) : (s.modFrames f).frame = f s.frame := rfl
@[simp] theorem State.modFrames_sched (s : State) (f : FrameUnit → FrameUnit) : (s.modFrames f).sched = s.sched := rfl
@[simp] theorem State.modFrames_link (s : State) (f : FrameUnit → FrameUnit) : (s.modFrames f).link = s.link := rfl
@[simp] theorem State.modFrames_cipher (s : State) (f : FrameUnit → FrameUnit) : (s.modFrames f).cipher = s.cipher := rfl
@[simp] theorem State.modFrames_chord (s : State) (f : FrameUnit → FrameUnit) : (s.modFrames f).chord = s.chord := rfl
@[simp] theorem State.modFrames_dma (s : State) (f : FrameUnit → FrameUnit) : (s.modFrames f).dma = s.dma := rfl
@[simp] theorem State.modFrames_yard (s : State) (f : FrameUnit → FrameUnit) : (s.modFrames f).yard = s.yard := rfl
@[simp] theorem State.modFrames_otp (s : State) (f : FrameUnit → FrameUnit) : (s.modFrames f).otp = s.otp := rfl
@[simp] theorem State.modFrames_keeper (s : State) (f : FrameUnit → FrameUnit) : (s.modFrames f).keeper = s.keeper := rfl
@[simp] theorem State.modFrames_update (s : State) (f : FrameUnit → FrameUnit) : (s.modFrames f).update = s.update := rfl
@[simp] theorem State.modFrames_pending (s : State) (f : FrameUnit → FrameUnit) : (s.modFrames f).pending = s.pending := rfl
@[simp] theorem State.modFrames_rg (s : State) (f : FrameUnit → FrameUnit) (r : Nat) : (s.modFrames f).rg r = s.rg r := rfl
@[simp] theorem State.modFrames_get (s : State) (f : FrameUnit → FrameUnit) (g : Field) : (s.modFrames f).get g = s.get g := rfl
@[simp] theorem State.modFrames_test (s : State) (f : FrameUnit → FrameUnit) (g : Field) : (s.modFrames f).test g = s.test g := rfl
@[simp] theorem State.modFrames_core (s : State) (f : FrameUnit → FrameUnit) (cc : CoreId) : (s.modFrames f).core cc = s.core cc := rfl
@[simp] theorem State.modFrames_holds (s : State) (f : FrameUnit → FrameUnit) (h : Nat) : (s.modFrames f).holds h = s.holds h := rfl

/-! ## setPool -/

@[simp] theorem State.setPool_regs (s : State) (q : Fin 2) (p : Pool) : (s.setPool q p).regs = s.regs := rfl
@[simp] theorem State.setPool_tick (s : State) (q : Fin 2) (p : Pool) : (s.setPool q p).tick = s.tick := rfl
@[simp] theorem State.setPool_mesh (s : State) (q : Fin 2) (p : Pool) : (s.setPool q p).mesh = s.mesh := rfl
@[simp] theorem State.setPool_free (s : State) (q : Fin 2) (p : Pool) : (s.setPool q p).free = s.free := rfl
@[simp] theorem State.setPool_cores (s : State) (q : Fin 2) (p : Pool) : (s.setPool q p).cores = s.cores := rfl
@[simp] theorem State.setPool_manger (s : State) (q : Fin 2) (p : Pool) : (s.setPool q p).manger = s.manger := rfl
@[simp] theorem State.setPool_faults (s : State) (q : Fin 2) (p : Pool) : (s.setPool q p).faults = s.faults := rfl
@[simp] theorem State.setPool_lattice (s : State) (q : Fin 2) (p : Pool) : (s.setPool q p).lattice = s.lattice := rfl
@[simp] theorem State.setPool_timers (s : State) (q : Fin 2) (p : Pool) : (s.setPool q p).timers = s.timers := rfl
@[simp] theorem State.setPool_rtc (s : State) (q : Fin 2) (p : Pool) : (s.setPool q p).rtc = s.rtc := rfl
@[simp] theorem State.setPool_power (s : State) (q : Fin 2) (p : Pool) : (s.setPool q p).power = s.power := rfl
@[simp] theorem State.setPool_sram (s : State) (q : Fin 2) (p : Pool) : (s.setPool q p).sram = s.sram := rfl
@[simp] theorem State.setPool_pram (s : State) (q : Fin 2) (p : Pool) : (s.setPool q p).pram = s.pram := rfl
@[simp] theorem State.setPool_loft (s : State) (q : Fin 2) (p : Pool) : (s.setPool q p).loft = s.loft := rfl
@[simp] theorem State.setPool_memChk (s : State) (q : Fin 2) (p : Pool) : (s.setPool q p).memChk = s.memChk := rfl
@[simp] theorem State.setPool_flash (s : State) (q : Fin 2) (p : Pool) : (s.setPool q p).flash = s.flash := rfl
@[simp] theorem State.setPool_flashOp (s : State) (q : Fin 2) (p : Pool) : (s.setPool q p).flashOp = s.flashOp := rfl
@[simp] theorem State.setPool_uart (s : State) (q : Fin 2) (p : Pool) : (s.setPool q p).uart = s.uart := rfl
@[simp] theorem State.setPool_hitch (s : State) (q : Fin 2) (p : Pool) : (s.setPool q p).hitch = s.hitch := rfl
@[simp] theorem State.setPool_pins (s : State) (q : Fin 2) (p : Pool) : (s.setPool q p).pins = s.pins := rfl
@[simp] theorem State.setPool_pinLvl (s : State) (q : Fin 2) (p : Pool) : (s.setPool q p).pinLvl = s.pinLvl := rfl
@[simp] theorem State.setPool_filt (s : State) (q : Fin 2) (p : Pool) : (s.setPool q p).filt = s.filt := rfl
@[simp] theorem State.setPool_radio (s : State) (q : Fin 2) (p : Pool) : (s.setPool q p).radio = s.radio := rfl
@[simp] theorem State.setPool_stalls (s : State) (q : Fin 2) (p : Pool) : (s.setPool q p).stalls = s.stalls := rfl
@[simp] theorem State.setPool_pools (s : State) (q : Fin 2) (p : Pool) : (s.setPool q p).pools = s.pools.set q p := rfl
@[simp] theorem State.setPool_frame (s : State) (q : Fin 2) (p : Pool) : (s.setPool q p).frame = s.frame := rfl
@[simp] theorem State.setPool_sched (s : State) (q : Fin 2) (p : Pool) : (s.setPool q p).sched = s.sched := rfl
@[simp] theorem State.setPool_link (s : State) (q : Fin 2) (p : Pool) : (s.setPool q p).link = s.link := rfl
@[simp] theorem State.setPool_cipher (s : State) (q : Fin 2) (p : Pool) : (s.setPool q p).cipher = s.cipher := rfl
@[simp] theorem State.setPool_chord (s : State) (q : Fin 2) (p : Pool) : (s.setPool q p).chord = s.chord := rfl
@[simp] theorem State.setPool_dma (s : State) (q : Fin 2) (p : Pool) : (s.setPool q p).dma = s.dma := rfl
@[simp] theorem State.setPool_yard (s : State) (q : Fin 2) (p : Pool) : (s.setPool q p).yard = s.yard := rfl
@[simp] theorem State.setPool_otp (s : State) (q : Fin 2) (p : Pool) : (s.setPool q p).otp = s.otp := rfl
@[simp] theorem State.setPool_keeper (s : State) (q : Fin 2) (p : Pool) : (s.setPool q p).keeper = s.keeper := rfl
@[simp] theorem State.setPool_update (s : State) (q : Fin 2) (p : Pool) : (s.setPool q p).update = s.update := rfl
@[simp] theorem State.setPool_pending (s : State) (q : Fin 2) (p : Pool) : (s.setPool q p).pending = s.pending := rfl
@[simp] theorem State.setPool_rg (s : State) (q : Fin 2) (p : Pool) (r : Nat) : (s.setPool q p).rg r = s.rg r := rfl
@[simp] theorem State.setPool_get (s : State) (q : Fin 2) (p : Pool) (g : Field) : (s.setPool q p).get g = s.get g := rfl
@[simp] theorem State.setPool_test (s : State) (q : Fin 2) (p : Pool) (g : Field) : (s.setPool q p).test g = s.test g := rfl
@[simp] theorem State.setPool_core (s : State) (q : Fin 2) (p : Pool) (cc : CoreId) : (s.setPool q p).core cc = s.core cc := rfl
@[simp] theorem State.setPool_holds (s : State) (q : Fin 2) (p : Pool) (h : Nat) : (s.setPool q p).holds h = s.holds h := rfl

/-! ## setChk -/

@[simp] theorem State.setChk_regs (s : State) (k : Nat) (c : Chk) : (s.setChk k c).regs = s.regs := rfl
@[simp] theorem State.setChk_tick (s : State) (k : Nat) (c : Chk) : (s.setChk k c).tick = s.tick := rfl
@[simp] theorem State.setChk_mesh (s : State) (k : Nat) (c : Chk) : (s.setChk k c).mesh = s.mesh := rfl
@[simp] theorem State.setChk_free (s : State) (k : Nat) (c : Chk) : (s.setChk k c).free = s.free := rfl
@[simp] theorem State.setChk_cores (s : State) (k : Nat) (c : Chk) : (s.setChk k c).cores = s.cores := rfl
@[simp] theorem State.setChk_manger (s : State) (k : Nat) (c : Chk) : (s.setChk k c).manger = s.manger := rfl
@[simp] theorem State.setChk_faults (s : State) (k : Nat) (c : Chk) : (s.setChk k c).faults = s.faults := rfl
@[simp] theorem State.setChk_lattice (s : State) (k : Nat) (c : Chk) : (s.setChk k c).lattice = s.lattice := rfl
@[simp] theorem State.setChk_timers (s : State) (k : Nat) (c : Chk) : (s.setChk k c).timers = s.timers := rfl
@[simp] theorem State.setChk_rtc (s : State) (k : Nat) (c : Chk) : (s.setChk k c).rtc = s.rtc := rfl
@[simp] theorem State.setChk_power (s : State) (k : Nat) (c : Chk) : (s.setChk k c).power = s.power := rfl
@[simp] theorem State.setChk_sram (s : State) (k : Nat) (c : Chk) : (s.setChk k c).sram = s.sram := rfl
@[simp] theorem State.setChk_pram (s : State) (k : Nat) (c : Chk) : (s.setChk k c).pram = s.pram := rfl
@[simp] theorem State.setChk_loft (s : State) (k : Nat) (c : Chk) : (s.setChk k c).loft = s.loft := rfl
@[simp] theorem State.setChk_memChk (s : State) (k : Nat) (c : Chk) : (s.setChk k c).memChk = tabSet chkDflt s.memChk k c := rfl
@[simp] theorem State.setChk_flash (s : State) (k : Nat) (c : Chk) : (s.setChk k c).flash = s.flash := rfl
@[simp] theorem State.setChk_flashOp (s : State) (k : Nat) (c : Chk) : (s.setChk k c).flashOp = s.flashOp := rfl
@[simp] theorem State.setChk_uart (s : State) (k : Nat) (c : Chk) : (s.setChk k c).uart = s.uart := rfl
@[simp] theorem State.setChk_hitch (s : State) (k : Nat) (c : Chk) : (s.setChk k c).hitch = s.hitch := rfl
@[simp] theorem State.setChk_pins (s : State) (k : Nat) (c : Chk) : (s.setChk k c).pins = s.pins := rfl
@[simp] theorem State.setChk_pinLvl (s : State) (k : Nat) (c : Chk) : (s.setChk k c).pinLvl = s.pinLvl := rfl
@[simp] theorem State.setChk_filt (s : State) (k : Nat) (c : Chk) : (s.setChk k c).filt = s.filt := rfl
@[simp] theorem State.setChk_radio (s : State) (k : Nat) (c : Chk) : (s.setChk k c).radio = s.radio := rfl
@[simp] theorem State.setChk_stalls (s : State) (k : Nat) (c : Chk) : (s.setChk k c).stalls = s.stalls := rfl
@[simp] theorem State.setChk_pools (s : State) (k : Nat) (c : Chk) : (s.setChk k c).pools = s.pools := rfl
@[simp] theorem State.setChk_frame (s : State) (k : Nat) (c : Chk) : (s.setChk k c).frame = s.frame := rfl
@[simp] theorem State.setChk_sched (s : State) (k : Nat) (c : Chk) : (s.setChk k c).sched = s.sched := rfl
@[simp] theorem State.setChk_link (s : State) (k : Nat) (c : Chk) : (s.setChk k c).link = s.link := rfl
@[simp] theorem State.setChk_cipher (s : State) (k : Nat) (c : Chk) : (s.setChk k c).cipher = s.cipher := rfl
@[simp] theorem State.setChk_chord (s : State) (k : Nat) (c : Chk) : (s.setChk k c).chord = s.chord := rfl
@[simp] theorem State.setChk_dma (s : State) (k : Nat) (c : Chk) : (s.setChk k c).dma = s.dma := rfl
@[simp] theorem State.setChk_yard (s : State) (k : Nat) (c : Chk) : (s.setChk k c).yard = s.yard := rfl
@[simp] theorem State.setChk_otp (s : State) (k : Nat) (c : Chk) : (s.setChk k c).otp = s.otp := rfl
@[simp] theorem State.setChk_keeper (s : State) (k : Nat) (c : Chk) : (s.setChk k c).keeper = s.keeper := rfl
@[simp] theorem State.setChk_update (s : State) (k : Nat) (c : Chk) : (s.setChk k c).update = s.update := rfl
@[simp] theorem State.setChk_pending (s : State) (k : Nat) (c : Chk) : (s.setChk k c).pending = s.pending := rfl
@[simp] theorem State.setChk_rg (s : State) (k : Nat) (c : Chk) (r : Nat) : (s.setChk k c).rg r = s.rg r := rfl
@[simp] theorem State.setChk_get (s : State) (k : Nat) (c : Chk) (g : Field) : (s.setChk k c).get g = s.get g := rfl
@[simp] theorem State.setChk_test (s : State) (k : Nat) (c : Chk) (g : Field) : (s.setChk k c).test g = s.test g := rfl
@[simp] theorem State.setChk_core (s : State) (k : Nat) (c : Chk) (cc : CoreId) : (s.setChk k c).core cc = s.core cc := rfl
@[simp] theorem State.setChk_holds (s : State) (k : Nat) (c : Chk) (h : Nat) : (s.setChk k c).holds h = s.holds h := rfl

/-! ## hitchSend -/

@[simp] theorem State.hitchSend_regs (s : State) (l : List Byte) : (s.hitchSend l).regs = s.regs := rfl
@[simp] theorem State.hitchSend_tick (s : State) (l : List Byte) : (s.hitchSend l).tick = s.tick := rfl
@[simp] theorem State.hitchSend_mesh (s : State) (l : List Byte) : (s.hitchSend l).mesh = s.mesh := rfl
@[simp] theorem State.hitchSend_free (s : State) (l : List Byte) : (s.hitchSend l).free = s.free := rfl
@[simp] theorem State.hitchSend_cores (s : State) (l : List Byte) : (s.hitchSend l).cores = s.cores := rfl
@[simp] theorem State.hitchSend_manger (s : State) (l : List Byte) : (s.hitchSend l).manger = s.manger := rfl
@[simp] theorem State.hitchSend_faults (s : State) (l : List Byte) : (s.hitchSend l).faults = s.faults := rfl
@[simp] theorem State.hitchSend_lattice (s : State) (l : List Byte) : (s.hitchSend l).lattice = s.lattice := rfl
@[simp] theorem State.hitchSend_timers (s : State) (l : List Byte) : (s.hitchSend l).timers = s.timers := rfl
@[simp] theorem State.hitchSend_rtc (s : State) (l : List Byte) : (s.hitchSend l).rtc = s.rtc := rfl
@[simp] theorem State.hitchSend_sram (s : State) (l : List Byte) : (s.hitchSend l).sram = s.sram := rfl
@[simp] theorem State.hitchSend_pram (s : State) (l : List Byte) : (s.hitchSend l).pram = s.pram := rfl
@[simp] theorem State.hitchSend_loft (s : State) (l : List Byte) : (s.hitchSend l).loft = s.loft := rfl
@[simp] theorem State.hitchSend_memChk (s : State) (l : List Byte) : (s.hitchSend l).memChk = s.memChk := rfl
@[simp] theorem State.hitchSend_flash (s : State) (l : List Byte) : (s.hitchSend l).flash = s.flash := rfl
@[simp] theorem State.hitchSend_flashOp (s : State) (l : List Byte) : (s.hitchSend l).flashOp = s.flashOp := rfl
@[simp] theorem State.hitchSend_uart (s : State) (l : List Byte) : (s.hitchSend l).uart = s.uart := rfl
@[simp] theorem State.hitchSend_hitch (s : State) (l : List Byte) : (s.hitchSend l).hitch = l := rfl
@[simp] theorem State.hitchSend_pins (s : State) (l : List Byte) : (s.hitchSend l).pins = s.pins := rfl
@[simp] theorem State.hitchSend_pinLvl (s : State) (l : List Byte) : (s.hitchSend l).pinLvl = s.pinLvl := rfl
@[simp] theorem State.hitchSend_filt (s : State) (l : List Byte) : (s.hitchSend l).filt = s.filt := rfl
@[simp] theorem State.hitchSend_radio (s : State) (l : List Byte) : (s.hitchSend l).radio = s.radio := rfl
@[simp] theorem State.hitchSend_stalls (s : State) (l : List Byte) : (s.hitchSend l).stalls = s.stalls := rfl
@[simp] theorem State.hitchSend_pools (s : State) (l : List Byte) : (s.hitchSend l).pools = s.pools := rfl
@[simp] theorem State.hitchSend_frame (s : State) (l : List Byte) : (s.hitchSend l).frame = s.frame := rfl
@[simp] theorem State.hitchSend_sched (s : State) (l : List Byte) : (s.hitchSend l).sched = s.sched := rfl
@[simp] theorem State.hitchSend_link (s : State) (l : List Byte) : (s.hitchSend l).link = s.link := rfl
@[simp] theorem State.hitchSend_cipher (s : State) (l : List Byte) : (s.hitchSend l).cipher = s.cipher := rfl
@[simp] theorem State.hitchSend_chord (s : State) (l : List Byte) : (s.hitchSend l).chord = s.chord := rfl
@[simp] theorem State.hitchSend_dma (s : State) (l : List Byte) : (s.hitchSend l).dma = s.dma := rfl
@[simp] theorem State.hitchSend_yard (s : State) (l : List Byte) : (s.hitchSend l).yard = s.yard := rfl
@[simp] theorem State.hitchSend_otp (s : State) (l : List Byte) : (s.hitchSend l).otp = s.otp := rfl
@[simp] theorem State.hitchSend_keeper (s : State) (l : List Byte) : (s.hitchSend l).keeper = s.keeper := rfl
@[simp] theorem State.hitchSend_update (s : State) (l : List Byte) : (s.hitchSend l).update = s.update := rfl
@[simp] theorem State.hitchSend_pending (s : State) (l : List Byte) : (s.hitchSend l).pending = s.pending := rfl
@[simp] theorem State.hitchSend_rg (s : State) (l : List Byte) (r : Nat) : (s.hitchSend l).rg r = s.rg r := rfl
@[simp] theorem State.hitchSend_get (s : State) (l : List Byte) (g : Field) : (s.hitchSend l).get g = s.get g := rfl
@[simp] theorem State.hitchSend_test (s : State) (l : List Byte) (g : Field) : (s.hitchSend l).test g = s.test g := rfl
@[simp] theorem State.hitchSend_core (s : State) (l : List Byte) (cc : CoreId) : (s.hitchSend l).core cc = s.core cc := rfl
@[simp] theorem State.hitchSend_holds (s : State) (l : List Byte) (h : Nat) : (s.hitchSend l).holds h = s.holds h := rfl

/-! ## setDesc -/

@[simp] theorem State.setDesc_regs (s : State) (n : Nat) (d : Option DmaDesc) : (s.setDesc n d).regs = s.regs := rfl
@[simp] theorem State.setDesc_tick (s : State) (n : Nat) (d : Option DmaDesc) : (s.setDesc n d).tick = s.tick := rfl
@[simp] theorem State.setDesc_mesh (s : State) (n : Nat) (d : Option DmaDesc) : (s.setDesc n d).mesh = s.mesh := rfl
@[simp] theorem State.setDesc_free (s : State) (n : Nat) (d : Option DmaDesc) : (s.setDesc n d).free = s.free := rfl
@[simp] theorem State.setDesc_cores (s : State) (n : Nat) (d : Option DmaDesc) : (s.setDesc n d).cores = s.cores := rfl
@[simp] theorem State.setDesc_manger (s : State) (n : Nat) (d : Option DmaDesc) : (s.setDesc n d).manger = s.manger := rfl
@[simp] theorem State.setDesc_faults (s : State) (n : Nat) (d : Option DmaDesc) : (s.setDesc n d).faults = s.faults := rfl
@[simp] theorem State.setDesc_lattice (s : State) (n : Nat) (d : Option DmaDesc) : (s.setDesc n d).lattice = s.lattice := rfl
@[simp] theorem State.setDesc_timers (s : State) (n : Nat) (d : Option DmaDesc) : (s.setDesc n d).timers = s.timers := rfl
@[simp] theorem State.setDesc_rtc (s : State) (n : Nat) (d : Option DmaDesc) : (s.setDesc n d).rtc = s.rtc := rfl
@[simp] theorem State.setDesc_power (s : State) (n : Nat) (d : Option DmaDesc) : (s.setDesc n d).power = s.power := rfl
@[simp] theorem State.setDesc_sram (s : State) (n : Nat) (d : Option DmaDesc) : (s.setDesc n d).sram = s.sram := rfl
@[simp] theorem State.setDesc_pram (s : State) (n : Nat) (d : Option DmaDesc) : (s.setDesc n d).pram = s.pram := rfl
@[simp] theorem State.setDesc_loft (s : State) (n : Nat) (d : Option DmaDesc) : (s.setDesc n d).loft = s.loft := rfl
@[simp] theorem State.setDesc_memChk (s : State) (n : Nat) (d : Option DmaDesc) : (s.setDesc n d).memChk = s.memChk := rfl
@[simp] theorem State.setDesc_flash (s : State) (n : Nat) (d : Option DmaDesc) : (s.setDesc n d).flash = s.flash := rfl
@[simp] theorem State.setDesc_flashOp (s : State) (n : Nat) (d : Option DmaDesc) : (s.setDesc n d).flashOp = s.flashOp := rfl
@[simp] theorem State.setDesc_uart (s : State) (n : Nat) (d : Option DmaDesc) : (s.setDesc n d).uart = s.uart := rfl
@[simp] theorem State.setDesc_hitch (s : State) (n : Nat) (d : Option DmaDesc) : (s.setDesc n d).hitch = s.hitch := rfl
@[simp] theorem State.setDesc_pins (s : State) (n : Nat) (d : Option DmaDesc) : (s.setDesc n d).pins = s.pins := rfl
@[simp] theorem State.setDesc_pinLvl (s : State) (n : Nat) (d : Option DmaDesc) : (s.setDesc n d).pinLvl = s.pinLvl := rfl
@[simp] theorem State.setDesc_filt (s : State) (n : Nat) (d : Option DmaDesc) : (s.setDesc n d).filt = s.filt := rfl
@[simp] theorem State.setDesc_radio (s : State) (n : Nat) (d : Option DmaDesc) : (s.setDesc n d).radio = s.radio := rfl
@[simp] theorem State.setDesc_stalls (s : State) (n : Nat) (d : Option DmaDesc) : (s.setDesc n d).stalls = s.stalls := rfl
@[simp] theorem State.setDesc_pools (s : State) (n : Nat) (d : Option DmaDesc) : (s.setDesc n d).pools = s.pools := rfl
@[simp] theorem State.setDesc_frame (s : State) (n : Nat) (d : Option DmaDesc) : (s.setDesc n d).frame = s.frame := rfl
@[simp] theorem State.setDesc_sched (s : State) (n : Nat) (d : Option DmaDesc) : (s.setDesc n d).sched = s.sched := rfl
@[simp] theorem State.setDesc_link (s : State) (n : Nat) (d : Option DmaDesc) : (s.setDesc n d).link = s.link := rfl
@[simp] theorem State.setDesc_cipher (s : State) (n : Nat) (d : Option DmaDesc) : (s.setDesc n d).cipher = s.cipher := rfl
@[simp] theorem State.setDesc_chord (s : State) (n : Nat) (d : Option DmaDesc) : (s.setDesc n d).chord = s.chord := rfl
@[simp] theorem State.setDesc_yard (s : State) (n : Nat) (d : Option DmaDesc) : (s.setDesc n d).yard = s.yard := rfl
@[simp] theorem State.setDesc_otp (s : State) (n : Nat) (d : Option DmaDesc) : (s.setDesc n d).otp = s.otp := rfl
@[simp] theorem State.setDesc_keeper (s : State) (n : Nat) (d : Option DmaDesc) : (s.setDesc n d).keeper = s.keeper := rfl
@[simp] theorem State.setDesc_update (s : State) (n : Nat) (d : Option DmaDesc) : (s.setDesc n d).update = s.update := rfl
@[simp] theorem State.setDesc_pending (s : State) (n : Nat) (d : Option DmaDesc) : (s.setDesc n d).pending = s.pending := rfl
@[simp] theorem State.setDesc_rg (s : State) (n : Nat) (d : Option DmaDesc) (r : Nat) : (s.setDesc n d).rg r = s.rg r := rfl
@[simp] theorem State.setDesc_get (s : State) (n : Nat) (d : Option DmaDesc) (g : Field) : (s.setDesc n d).get g = s.get g := rfl
@[simp] theorem State.setDesc_test (s : State) (n : Nat) (d : Option DmaDesc) (g : Field) : (s.setDesc n d).test g = s.test g := rfl
@[simp] theorem State.setDesc_core (s : State) (n : Nat) (d : Option DmaDesc) (cc : CoreId) : (s.setDesc n d).core cc = s.core cc := rfl
@[simp] theorem State.setDesc_holds (s : State) (n : Nat) (d : Option DmaDesc) (h : Nat) : (s.setDesc n d).holds h = s.holds h := rfl

/-! ## modTmr -/

@[simp] theorem State.modTmr_regs (s : State) (i : Nat) (f : TimerH → TimerH) : (s.modTmr i f).regs = s.regs := rfl
@[simp] theorem State.modTmr_tick (s : State) (i : Nat) (f : TimerH → TimerH) : (s.modTmr i f).tick = s.tick := rfl
@[simp] theorem State.modTmr_mesh (s : State) (i : Nat) (f : TimerH → TimerH) : (s.modTmr i f).mesh = s.mesh := rfl
@[simp] theorem State.modTmr_free (s : State) (i : Nat) (f : TimerH → TimerH) : (s.modTmr i f).free = s.free := rfl
@[simp] theorem State.modTmr_cores (s : State) (i : Nat) (f : TimerH → TimerH) : (s.modTmr i f).cores = s.cores := rfl
@[simp] theorem State.modTmr_manger (s : State) (i : Nat) (f : TimerH → TimerH) : (s.modTmr i f).manger = s.manger := rfl
@[simp] theorem State.modTmr_faults (s : State) (i : Nat) (f : TimerH → TimerH) : (s.modTmr i f).faults = s.faults := rfl
@[simp] theorem State.modTmr_lattice (s : State) (i : Nat) (f : TimerH → TimerH) : (s.modTmr i f).lattice = s.lattice := rfl
@[simp] theorem State.modTmr_rtc (s : State) (i : Nat) (f : TimerH → TimerH) : (s.modTmr i f).rtc = s.rtc := rfl
@[simp] theorem State.modTmr_power (s : State) (i : Nat) (f : TimerH → TimerH) : (s.modTmr i f).power = s.power := rfl
@[simp] theorem State.modTmr_sram (s : State) (i : Nat) (f : TimerH → TimerH) : (s.modTmr i f).sram = s.sram := rfl
@[simp] theorem State.modTmr_pram (s : State) (i : Nat) (f : TimerH → TimerH) : (s.modTmr i f).pram = s.pram := rfl
@[simp] theorem State.modTmr_loft (s : State) (i : Nat) (f : TimerH → TimerH) : (s.modTmr i f).loft = s.loft := rfl
@[simp] theorem State.modTmr_memChk (s : State) (i : Nat) (f : TimerH → TimerH) : (s.modTmr i f).memChk = s.memChk := rfl
@[simp] theorem State.modTmr_flash (s : State) (i : Nat) (f : TimerH → TimerH) : (s.modTmr i f).flash = s.flash := rfl
@[simp] theorem State.modTmr_flashOp (s : State) (i : Nat) (f : TimerH → TimerH) : (s.modTmr i f).flashOp = s.flashOp := rfl
@[simp] theorem State.modTmr_uart (s : State) (i : Nat) (f : TimerH → TimerH) : (s.modTmr i f).uart = s.uart := rfl
@[simp] theorem State.modTmr_hitch (s : State) (i : Nat) (f : TimerH → TimerH) : (s.modTmr i f).hitch = s.hitch := rfl
@[simp] theorem State.modTmr_pins (s : State) (i : Nat) (f : TimerH → TimerH) : (s.modTmr i f).pins = s.pins := rfl
@[simp] theorem State.modTmr_pinLvl (s : State) (i : Nat) (f : TimerH → TimerH) : (s.modTmr i f).pinLvl = s.pinLvl := rfl
@[simp] theorem State.modTmr_filt (s : State) (i : Nat) (f : TimerH → TimerH) : (s.modTmr i f).filt = s.filt := rfl
@[simp] theorem State.modTmr_radio (s : State) (i : Nat) (f : TimerH → TimerH) : (s.modTmr i f).radio = s.radio := rfl
@[simp] theorem State.modTmr_stalls (s : State) (i : Nat) (f : TimerH → TimerH) : (s.modTmr i f).stalls = s.stalls := rfl
@[simp] theorem State.modTmr_pools (s : State) (i : Nat) (f : TimerH → TimerH) : (s.modTmr i f).pools = s.pools := rfl
@[simp] theorem State.modTmr_frame (s : State) (i : Nat) (f : TimerH → TimerH) : (s.modTmr i f).frame = s.frame := rfl
@[simp] theorem State.modTmr_sched (s : State) (i : Nat) (f : TimerH → TimerH) : (s.modTmr i f).sched = s.sched := rfl
@[simp] theorem State.modTmr_link (s : State) (i : Nat) (f : TimerH → TimerH) : (s.modTmr i f).link = s.link := rfl
@[simp] theorem State.modTmr_cipher (s : State) (i : Nat) (f : TimerH → TimerH) : (s.modTmr i f).cipher = s.cipher := rfl
@[simp] theorem State.modTmr_chord (s : State) (i : Nat) (f : TimerH → TimerH) : (s.modTmr i f).chord = s.chord := rfl
@[simp] theorem State.modTmr_dma (s : State) (i : Nat) (f : TimerH → TimerH) : (s.modTmr i f).dma = s.dma := rfl
@[simp] theorem State.modTmr_yard (s : State) (i : Nat) (f : TimerH → TimerH) : (s.modTmr i f).yard = s.yard := rfl
@[simp] theorem State.modTmr_otp (s : State) (i : Nat) (f : TimerH → TimerH) : (s.modTmr i f).otp = s.otp := rfl
@[simp] theorem State.modTmr_keeper (s : State) (i : Nat) (f : TimerH → TimerH) : (s.modTmr i f).keeper = s.keeper := rfl
@[simp] theorem State.modTmr_update (s : State) (i : Nat) (f : TimerH → TimerH) : (s.modTmr i f).update = s.update := rfl
@[simp] theorem State.modTmr_pending (s : State) (i : Nat) (f : TimerH → TimerH) : (s.modTmr i f).pending = s.pending := rfl
@[simp] theorem State.modTmr_rg (s : State) (i : Nat) (f : TimerH → TimerH) (r : Nat) : (s.modTmr i f).rg r = s.rg r := rfl
@[simp] theorem State.modTmr_get (s : State) (i : Nat) (f : TimerH → TimerH) (g : Field) : (s.modTmr i f).get g = s.get g := rfl
@[simp] theorem State.modTmr_test (s : State) (i : Nat) (f : TimerH → TimerH) (g : Field) : (s.modTmr i f).test g = s.test g := rfl
@[simp] theorem State.modTmr_core (s : State) (i : Nat) (f : TimerH → TimerH) (cc : CoreId) : (s.modTmr i f).core cc = s.core cc := rfl
@[simp] theorem State.modTmr_holds (s : State) (i : Nat) (f : TimerH → TimerH) (h : Nat) : (s.modTmr i f).holds h = s.holds h := rfl

end Sys2Proof.Machine
end

