-- ==== Sys2Proof/Laws/Tab.lean ====
section
/-! SUPPORT. The laws of sparse tables: what a read sees after a write, and that a write keeps the canonical form. -/

namespace Sys2Proof.Machine

theorem tabFind_erase {α : Type} (t : Tab α) (k j : Nat) :
    tabFind (tabErase t k) j = if j = k then none else tabFind t j := by
  induction t with
  | nil => simp [tabErase, tabFind]
  | cons e r ih =>
    obtain ⟨i, v⟩ := e
    unfold tabErase at ih ⊢
    by_cases hik : i = k
    · subst hik
      rw [List.filter_cons_of_neg (by simp), ih]
      by_cases hj : j = i
      · simp [hj]
      · simp [hj, tabFind, Ne.symm hj]
    · rw [List.filter_cons_of_pos (by simpa using hik)]
      simp only [tabFind]
      by_cases hj : i = j
      · subst hj; simp [hik]
      · simp only [if_neg hj]; exact ih

theorem tabFind_insert {α : Type} (t : Tab α) (k j : Nat) (v : α) :
    tabFind (tabInsert t k v) j = if j = k then some v else tabFind t j := by
  induction t with
  | nil =>
    by_cases h : j = k
    · simp [tabInsert, tabFind, h]
    · simp [tabInsert, tabFind, h, Ne.symm h]
  | cons e r ih =>
    obtain ⟨i, u⟩ := e
    by_cases h1 : k < i
    · by_cases h : k = j
      · subst h; simp [tabInsert, tabFind, h1]
      · simp [tabInsert, tabFind, h1, h, Ne.symm h]
    · by_cases h2 : i = k
      · subst h2
        by_cases h : i = j
        · subst h; simp [tabInsert, tabFind]
        · simp [tabInsert, tabFind, h, Ne.symm h]
      · by_cases h : i = j
        · subst h; simp [tabInsert, tabFind, h1, h2]
        · simp only [tabInsert, if_neg h1, if_neg h2, tabFind, if_neg h]; exact ih

/-- A write is read back, and no other key reads differently. -/
theorem tabGet_set {α : Type} [DecidableEq α] (d : Nat → α) (t : Tab α) (k j : Nat) (v : α) :
    tabGet d (tabSet d t k v) j = if j = k then v else tabGet d t j := by
  unfold tabGet tabSet
  split
  · rw [tabFind_erase]; split <;> simp_all
  · rw [tabFind_insert]; split <;> simp_all

@[simp] theorem tabGet_set_same {α : Type} [DecidableEq α] (d : Nat → α) (t : Tab α) (k : Nat) (v : α) :
    tabGet d (tabSet d t k v) k = v := by simp [tabGet_set]

theorem tabGet_set_ne {α : Type} [DecidableEq α] (d : Nat → α) (t : Tab α) {k j : Nat} (v : α) (h : j ≠ k) :
    tabGet d (tabSet d t k v) j = tabGet d t j := by simp [tabGet_set, h]

theorem mem_tabInsert {α : Type} (t : Tab α) (k : Nat) (v : α) (e : Nat × α) (h : e ∈ tabInsert t k v) :
    e = (k, v) ∨ e ∈ t := by
  induction t with
  | nil => simpa [tabInsert] using h
  | cons x r ih =>
    obtain ⟨i, u⟩ := x
    simp only [tabInsert] at h
    split at h
    · simpa using h
    · split at h
      · rcases List.mem_cons.1 h with h | h
        · exact .inl h
        · exact .inr (List.mem_cons_of_mem _ h)
      · rcases List.mem_cons.1 h with h | h
        · exact .inr (by simp [h])
        · rcases ih h with h | h
          · exact .inl h
          · exact .inr (List.mem_cons_of_mem _ h)

theorem tabInsert_sorted {α : Type} (t : Tab α) (k : Nat) (v : α) (h : t.Pairwise (fun x y => x.1 < y.1)) :
    (tabInsert t k v).Pairwise (fun x y => x.1 < y.1) := by
  induction t with
  | nil => simp [tabInsert]
  | cons x r ih =>
    obtain ⟨i, u⟩ := x
    rw [List.pairwise_cons] at h
    simp only [tabInsert]
    split
    · rename_i hk
      rw [List.pairwise_cons, List.pairwise_cons]
      refine ⟨fun y hy => ?_, h⟩
      rcases List.mem_cons.1 hy with rfl | hy
      · exact hk
      · exact lt_trans hk (h.1 y hy)
    · split
      · rename_i hik
        subst hik
        exact List.pairwise_cons.2 h
      · rename_i h1 h2
        refine List.pairwise_cons.2 ⟨fun y hy => ?_, ih h.2⟩
        rcases mem_tabInsert _ _ _ _ hy with rfl | hy
        · simp only; omega
        · exact h.1 y hy

/-- A write keeps the canonical form. -/
theorem tabSet_wf {α : Type} [DecidableEq α] (d : Nat → α) (t : Tab α) (k : Nat) (v : α) (h : tabWf d t) :
    tabWf d (tabSet d t k v) := by
  unfold tabSet
  split
  · exact ⟨h.1.filter _, fun e he => h.2 e (List.mem_filter.1 he).1⟩
  · rename_i hv
    refine ⟨tabInsert_sorted t k v h.1, fun e he => ?_⟩
    rcases mem_tabInsert _ _ _ _ he with rfl | he
    · exact hv
    · exact h.2 e he

end Sys2Proof.Machine
end

