-- ==== Sys2Proof/Laws/Regs.lean ====
section
/-! SUPPORT. The laws of registers and fields: what a read of one gives after a write of another. -/

namespace Sys2Proof.Machine

/-- A register written reads back, and no other register changes. -/
theorem State.rg_setRg (s : State) (a b : Nat) (v : W20) : (s.setRg a v).rg b = if b = a then v else s.rg b := by
  simp [State.rg, tabGet_set]

@[simp] theorem State.rg_setRg_same (s : State) (a : Nat) (v : W20) : (s.setRg a v).rg a = v := by
  simp [State.rg_setRg]

theorem State.rg_setRg_ne (s : State) {a b : Nat} (v : W20) (h : b ≠ a) : (s.setRg a v).rg b = s.rg b := by
  simp [State.rg_setRg, h]

theorem State.rg_put (s : State) (f : Field) (n b : Nat) :
    (s.put f n).rg b = if b = f.reg then fieldSet (s.rg f.reg) f.hi f.lo n else s.rg b := by
  simp [State.put, State.rg_setRg]

theorem State.rg_put_ne (s : State) (f : Field) (n : Nat) {b : Nat} (h : b ≠ f.reg) : (s.put f n).rg b = s.rg b := by
  simp [State.rg_put, h]

/-- A field of another register. -/
theorem State.get_setRg_ne (s : State) {a : Nat} (v : W20) {g : Field} (h : g.reg ≠ a) :
    (s.setRg a v).get g = s.get g := by
  simp [State.get, State.rg_setRg, h]

theorem State.test_setRg_ne (s : State) {a : Nat} (v : W20) {g : Field} (h : g.reg ≠ a) :
    (s.setRg a v).test g = s.test g := by
  simp [State.test, State.get_setRg_ne s v h]

theorem State.get_put_ne (s : State) {f g : Field} (n : Nat) (h : g.reg ≠ f.reg) : (s.put f n).get g = s.get g :=
  State.get_setRg_ne s _ h

theorem State.test_put_ne (s : State) {f g : Field} (n : Nat) (h : g.reg ≠ f.reg) : (s.put f n).test g = s.test g :=
  State.test_setRg_ne s _ h

/-! ## Bits of a field -/

/-- The bits of a word with a field replaced. -/
theorem fieldSet_getLsbD (w : W20) (hi lo x i : Nat) (hh : hi < 20) (hl : lo ≤ hi) :
    (fieldSet w hi lo x).getLsbD i =
      if lo ≤ i ∧ i ≤ hi then x.testBit (i - lo) else w.getLsbD i := by
  simp only [fieldSet, BitVec.getLsbD_or, BitVec.getLsbD_and, BitVec.getLsbD_not, BitVec.getLsbD_ofNat,
    Nat.testBit_shiftLeft, Nat.testBit_two_pow_sub_one]
  by_cases h1 : lo ≤ i <;> by_cases h2 : i ≤ hi
  · have : i - lo < hi + 1 - lo := by omega
    have h3 : i < 20 := by omega
    simp [h1, h2, h3, this]
  · have : ¬ (i - lo < hi + 1 - lo) := by omega
    by_cases h3 : i < 20
    · simp [h1, h2, h3, this]
    · simp [h2, h3, BitVec.getLsbD_of_ge w i (by omega)]
  · have h3 : i < 20 := by omega
    simp [h1, h3]
  · omega

/-- The bits of a field's value. -/
theorem fieldGet_testBit (w : W20) (hi lo i : Nat) :
    (fieldGet w hi lo).testBit i = (decide (i < hi + 1 - lo) && w.getLsbD (lo + i)) := by
  simp [fieldGet, Nat.testBit_mod_two_pow, BitVec.getLsbD]

theorem fieldGet_fieldSet_same (w : W20) (hi lo x : Nat) (hh : hi < 20) (hl : lo ≤ hi) :
    fieldGet (fieldSet w hi lo x) hi lo = x % 2 ^ (hi + 1 - lo) := by
  apply Nat.eq_of_testBit_eq
  intro i
  rw [fieldGet_testBit, fieldSet_getLsbD _ _ _ _ _ hh hl, Nat.testBit_mod_two_pow]
  by_cases h : i < hi + 1 - lo
  · have : lo ≤ lo + i ∧ lo + i ≤ hi := by omega
    simp [h, this]
  · simp [h]

theorem fieldGet_fieldSet_disjoint (w : W20) (hi lo x hi' lo' : Nat) (hh : hi < 20) (hl : lo ≤ hi)
    (hd : hi' < lo ∨ hi < lo') : fieldGet (fieldSet w hi lo x) hi' lo' = fieldGet w hi' lo' := by
  apply Nat.eq_of_testBit_eq
  intro i
  rw [fieldGet_testBit, fieldGet_testBit, fieldSet_getLsbD _ _ _ _ _ hh hl]
  by_cases h : i < hi' + 1 - lo'
  · have : ¬ (lo ≤ lo' + i ∧ lo' + i ≤ hi) := by omega
    simp [this]
  · simp [h]

/-- A field written reads back what fits in it. -/
theorem State.get_put_same (s : State) (f : Field) (n : Nat) (hh : f.hi < 20) (hl : f.lo ≤ f.hi) :
    (s.put f n).get f = n % 2 ^ (f.hi + 1 - f.lo) := by
  simp [State.get, State.rg_put, fieldGet_fieldSet_same _ _ _ _ hh hl]

/-- Another field of the same register keeps its value. -/
theorem State.get_put_disjoint (s : State) (f g : Field) (n : Nat) (hh : f.hi < 20) (hl : f.lo ≤ f.hi)
    (hr : g.reg = f.reg) (hd : g.hi < f.lo ∨ f.hi < g.lo) : (s.put f n).get g = s.get g := by
  simp [State.get, State.rg_put, hr, fieldGet_fieldSet_disjoint _ _ _ _ _ _ hh hl hd]

/-- Any field after a field write: the three cases at once. -/
theorem State.get_put (s : State) (f g : Field) (n : Nat) (hh : f.hi < 20) (hl : f.lo ≤ f.hi)
    (hd : g = f ∨ g.reg ≠ f.reg ∨ g.hi < f.lo ∨ f.hi < g.lo) :
    (s.put f n).get g = if g = f then n % 2 ^ (f.hi + 1 - f.lo) else s.get g := by
  split
  · rename_i h; subst h; exact s.get_put_same g n hh hl
  · rename_i h
    by_cases hr : g.reg = f.reg
    · exact s.get_put_disjoint f g n hh hl hr (by tauto)
    · exact s.get_put_ne n hr

/-- A field of a register that was written whole. -/
theorem State.get_setRg_same (s : State) (v : W20) (g : Field) : (s.setRg g.reg v).get g = fieldGet v g.hi g.lo := by
  simp [State.get]

theorem State.test_put_same (s : State) (f : Field) (n : Nat) (hh : f.hi < 20) (hl : f.lo ≤ f.hi)
    (h : n < 2 ^ (f.hi + 1 - f.lo)) : (s.put f n).test f = (n != 0) := by
  simp [State.test, State.get_put_same s f n hh hl, Nat.mod_eq_of_lt h]

end Sys2Proof.Machine
end

