-- ==== Sys2Proof/Laws/Ops.lean ====
section
/-! SUPPORT. Everything that a producer's firing, the latching of requests and the raising of a flag can do, and the laws
of cores. -/

namespace Sys2Proof.Machine

/-! ## Folds -/

/-- A fold of updates that each keep a view of the state keeps it. -/
theorem foldl_keep {α β : Type} (v : State → β) (g : State → α → State) (h : ∀ s x, v (g s x) = v s) (l : List α) (s : State) :
    v (l.foldl g s) = v s := by
  induction l generalizing s with
  | nil => rfl
  | cons x r ih => rw [List.foldl_cons, ih, h]

/-- A fold whose every update keeps a property keeps it. -/
theorem foldl_inv {β : Type} (P : State → Prop) (g : State → β → State) (l : List β) (s : State)
    (h : ∀ t, ∀ x ∈ l, P t → P (g t x)) (h0 : P s) : P (l.foldl g s) := by
  induction l generalizing s with
  | nil => exact h0
  | cons x r ih =>
    rw [List.foldl_cons]
    exact ih _ (fun t y hy => h t y (List.mem_cons_of_mem _ hy)) (h s x (by simp) h0)

/-! ## fire: only the lattice changes -/

/-- The firing of a producer changes nothing but the lattice. -/
theorem State.fireAt_eq (n p : Nat) (s : State) : ∃ l, State.fireAt n p s = { s with lattice := l } := by
  induction n generalizing p s with
  | zero => exact ⟨s.lattice, rfl⟩
  | succ n ih =>
    simp only [State.fireAt, State.enter]
    have hf : ∀ (l : List Nat) (t : State), (∃ k, t = { s with lattice := k }) →
        ∃ k, l.foldl (fun u i =>
          if u.get (LAT_CCFG_FF i) == 0 && 24 ≤ p && u.cellTaps i p &&
            u.cellRises (s.lattice.live.filter (· != p)) i p
          then State.fireAt n (0x60 + i) u else u) t = { s with lattice := k } := by
      intro l
      induction l with
      | nil => intro t h; exact h
      | cons i r ihl =>
        intro t h
        rw [List.foldl_cons]
        apply ihl
        obtain ⟨k, rfl⟩ := h
        split
        · obtain ⟨k', h'⟩ := ih (0x60 + i) { s with lattice := k }
          exact ⟨k', h'⟩
        · exact ⟨k, rfl⟩
    exact hf _ _ ⟨_, rfl⟩

theorem State.fire_eq (p : Nat) (s : State) : ∃ l, s.fire p = { s with lattice := l } := by
  unfold State.fire State.pulse
  split
  · exact ⟨_, rfl⟩
  · split
    · exact State.fireAt_eq 17 p s
    · exact ⟨s.lattice, rfl⟩


@[simp] theorem State.fire_regs (p : Nat) (s : State) : (s.fire p).regs = s.regs := by
  obtain ⟨l, h⟩ := State.fire_eq p s; rw [h]
@[simp] theorem State.fire_tick (p : Nat) (s : State) : (s.fire p).tick = s.tick := by
  obtain ⟨l, h⟩ := State.fire_eq p s; rw [h]
@[simp] theorem State.fire_mesh (p : Nat) (s : State) : (s.fire p).mesh = s.mesh := by
  obtain ⟨l, h⟩ := State.fire_eq p s; rw [h]
@[simp] theorem State.fire_free (p : Nat) (s : State) : (s.fire p).free = s.free := by
  obtain ⟨l, h⟩ := State.fire_eq p s; rw [h]
@[simp] theorem State.fire_cores (p : Nat) (s : State) : (s.fire p).cores = s.cores := by
  obtain ⟨l, h⟩ := State.fire_eq p s; rw [h]
@[simp] theorem State.fire_manger (p : Nat) (s : State) : (s.fire p).manger = s.manger := by
  obtain ⟨l, h⟩ := State.fire_eq p s; rw [h]
@[simp] theorem State.fire_faults (p : Nat) (s : State) : (s.fire p).faults = s.faults := by
  obtain ⟨l, h⟩ := State.fire_eq p s; rw [h]
@[simp] theorem State.fire_timers (p : Nat) (s : State) : (s.fire p).timers = s.timers := by
  obtain ⟨l, h⟩ := State.fire_eq p s; rw [h]
@[simp] theorem State.fire_rtc (p : Nat) (s : State) : (s.fire p).rtc = s.rtc := by
  obtain ⟨l, h⟩ := State.fire_eq p s; rw [h]
@[simp] theorem State.fire_power (p : Nat) (s : State) : (s.fire p).power = s.power := by
  obtain ⟨l, h⟩ := State.fire_eq p s; rw [h]
@[simp] theorem State.fire_sram (p : Nat) (s : State) : (s.fire p).sram = s.sram := by
  obtain ⟨l, h⟩ := State.fire_eq p s; rw [h]
@[simp] theorem State.fire_pram (p : Nat) (s : State) : (s.fire p).pram = s.pram := by
  obtain ⟨l, h⟩ := State.fire_eq p s; rw [h]
@[simp] theorem State.fire_loft (p : Nat) (s : State) : (s.fire p).loft = s.loft := by
  obtain ⟨l, h⟩ := State.fire_eq p s; rw [h]
@[simp] theorem State.fire_memChk (p : Nat) (s : State) : (s.fire p).memChk = s.memChk := by
  obtain ⟨l, h⟩ := State.fire_eq p s; rw [h]
@[simp] theorem State.fire_flash (p : Nat) (s : State) : (s.fire p).flash = s.flash := by
  obtain ⟨l, h⟩ := State.fire_eq p s; rw [h]
@[simp] theorem State.fire_flashOp (p : Nat) (s : State) : (s.fire p).flashOp = s.flashOp := by
  obtain ⟨l, h⟩ := State.fire_eq p s; rw [h]
@[simp] theorem State.fire_uart (p : Nat) (s : State) : (s.fire p).uart = s.uart := by
  obtain ⟨l, h⟩ := State.fire_eq p s; rw [h]
@[simp] theorem State.fire_hitch (p : Nat) (s : State) : (s.fire p).hitch = s.hitch := by
  obtain ⟨l, h⟩ := State.fire_eq p s; rw [h]
@[simp] theorem State.fire_pins (p : Nat) (s : State) : (s.fire p).pins = s.pins := by
  obtain ⟨l, h⟩ := State.fire_eq p s; rw [h]
@[simp] theorem State.fire_pinLvl (p : Nat) (s : State) : (s.fire p).pinLvl = s.pinLvl := by
  obtain ⟨l, h⟩ := State.fire_eq p s; rw [h]
@[simp] theorem State.fire_filt (p : Nat) (s : State) : (s.fire p).filt = s.filt := by
  obtain ⟨l, h⟩ := State.fire_eq p s; rw [h]
@[simp] theorem State.fire_radio (p : Nat) (s : State) : (s.fire p).radio = s.radio := by
  obtain ⟨l, h⟩ := State.fire_eq p s; rw [h]
@[simp] theorem State.fire_stalls (p : Nat) (s : State) : (s.fire p).stalls = s.stalls := by
  obtain ⟨l, h⟩ := State.fire_eq p s; rw [h]
@[simp] theorem State.fire_pools (p : Nat) (s : State) : (s.fire p).pools = s.pools := by
  obtain ⟨l, h⟩ := State.fire_eq p s; rw [h]
@[simp] theorem State.fire_frame (p : Nat) (s : State) : (s.fire p).frame = s.frame := by
  obtain ⟨l, h⟩ := State.fire_eq p s; rw [h]
@[simp] theorem State.fire_sched (p : Nat) (s : State) : (s.fire p).sched = s.sched := by
  obtain ⟨l, h⟩ := State.fire_eq p s; rw [h]
@[simp] theorem State.fire_link (p : Nat) (s : State) : (s.fire p).link = s.link := by
  obtain ⟨l, h⟩ := State.fire_eq p s; rw [h]
@[simp] theorem State.fire_cipher (p : Nat) (s : State) : (s.fire p).cipher = s.cipher := by
  obtain ⟨l, h⟩ := State.fire_eq p s; rw [h]
@[simp] theorem State.fire_chord (p : Nat) (s : State) : (s.fire p).chord = s.chord := by
  obtain ⟨l, h⟩ := State.fire_eq p s; rw [h]
@[simp] theorem State.fire_dma (p : Nat) (s : State) : (s.fire p).dma = s.dma := by
  obtain ⟨l, h⟩ := State.fire_eq p s; rw [h]
@[simp] theorem State.fire_yard (p : Nat) (s : State) : (s.fire p).yard = s.yard := by
  obtain ⟨l, h⟩ := State.fire_eq p s; rw [h]
@[simp] theorem State.fire_otp (p : Nat) (s : State) : (s.fire p).otp = s.otp := by
  obtain ⟨l, h⟩ := State.fire_eq p s; rw [h]
@[simp] theorem State.fire_keeper (p : Nat) (s : State) : (s.fire p).keeper = s.keeper := by
  obtain ⟨l, h⟩ := State.fire_eq p s; rw [h]
@[simp] theorem State.fire_update (p : Nat) (s : State) : (s.fire p).update = s.update := by
  obtain ⟨l, h⟩ := State.fire_eq p s; rw [h]
@[simp] theorem State.fire_pending (p : Nat) (s : State) : (s.fire p).pending = s.pending := by
  obtain ⟨l, h⟩ := State.fire_eq p s; rw [h]
@[simp] theorem State.fire_rg (p : Nat) (s : State) (a : Nat) : (s.fire p).rg a = s.rg a := by simp [State.rg]
@[simp] theorem State.fire_get (p : Nat) (s : State) (f : Field) : (s.fire p).get f = s.get f := by simp [State.get]
@[simp] theorem State.fire_test (p : Nat) (s : State) (f : Field) : (s.fire p).test f = s.test f := by simp [State.test]
@[simp] theorem State.fire_core (p : Nat) (s : State) (c : CoreId) : (s.fire p).core c = s.core c := by simp [State.core]

/-! ## latchReqs: only pending bits of cores change -/

theorem State.latchReqs_eq (s : State) : ∃ cs, s.latchReqs = { s with cores := cs } := by
  unfold State.latchReqs
  have h : ∀ (l : List Nat) (t : State), (∃ cs, t = { s with cores := cs }) → ∃ cs, l.foldl (fun t k => match s.routed k with
      | some (c, l) => t.modCore c (fun x => x.hold (t.lattice.acts.contains (32 * c.val + l, t.lattice.cyc)) l)
      | none => t) t = { s with cores := cs } := by
    intro l
    induction l with
    | nil => intro t h; exact h
    | cons k r ih =>
      intro t h
      rw [List.foldl_cons]
      apply ih
      obtain ⟨cs, rfl⟩ := h
      split
      · exact ⟨_, rfl⟩
      · exact ⟨cs, rfl⟩
  exact h _ _ ⟨s.cores, rfl⟩

@[simp] theorem State.latchReqs_regs (s : State) : s.latchReqs.regs = s.regs := by
  obtain ⟨cs, h⟩ := s.latchReqs_eq; rw [h]
@[simp] theorem State.latchReqs_tick (s : State) : s.latchReqs.tick = s.tick := by
  obtain ⟨cs, h⟩ := s.latchReqs_eq; rw [h]
@[simp] theorem State.latchReqs_mesh (s : State) : s.latchReqs.mesh = s.mesh := by
  obtain ⟨cs, h⟩ := s.latchReqs_eq; rw [h]
@[simp] theorem State.latchReqs_free (s : State) : s.latchReqs.free = s.free := by
  obtain ⟨cs, h⟩ := s.latchReqs_eq; rw [h]
@[simp] theorem State.latchReqs_manger (s : State) : s.latchReqs.manger = s.manger := by
  obtain ⟨cs, h⟩ := s.latchReqs_eq; rw [h]
@[simp] theorem State.latchReqs_faults (s : State) : s.latchReqs.faults = s.faults := by
  obtain ⟨cs, h⟩ := s.latchReqs_eq; rw [h]
@[simp] theorem State.latchReqs_lattice (s : State) : s.latchReqs.lattice = s.lattice := by
  obtain ⟨cs, h⟩ := s.latchReqs_eq; rw [h]
@[simp] theorem State.latchReqs_timers (s : State) : s.latchReqs.timers = s.timers := by
  obtain ⟨cs, h⟩ := s.latchReqs_eq; rw [h]
@[simp] theorem State.latchReqs_rtc (s : State) : s.latchReqs.rtc = s.rtc := by
  obtain ⟨cs, h⟩ := s.latchReqs_eq; rw [h]
@[simp] theorem State.latchReqs_power (s : State) : s.latchReqs.power = s.power := by
  obtain ⟨cs, h⟩ := s.latchReqs_eq; rw [h]
@[simp] theorem State.latchReqs_sram (s : State) : s.latchReqs.sram = s.sram := by
  obtain ⟨cs, h⟩ := s.latchReqs_eq; rw [h]
@[simp] theorem State.latchReqs_pram (s : State) : s.latchReqs.pram = s.pram := by
  obtain ⟨cs, h⟩ := s.latchReqs_eq; rw [h]
@[simp] theorem State.latchReqs_loft (s : State) : s.latchReqs.loft = s.loft := by
  obtain ⟨cs, h⟩ := s.latchReqs_eq; rw [h]
@[simp] theorem State.latchReqs_memChk (s : State) : s.latchReqs.memChk = s.memChk := by
  obtain ⟨cs, h⟩ := s.latchReqs_eq; rw [h]
@[simp] theorem State.latchReqs_flash (s : State) : s.latchReqs.flash = s.flash := by
  obtain ⟨cs, h⟩ := s.latchReqs_eq; rw [h]
@[simp] theorem State.latchReqs_flashOp (s : State) : s.latchReqs.flashOp = s.flashOp := by
  obtain ⟨cs, h⟩ := s.latchReqs_eq; rw [h]
@[simp] theorem State.latchReqs_uart (s : State) : s.latchReqs.uart = s.uart := by
  obtain ⟨cs, h⟩ := s.latchReqs_eq; rw [h]
@[simp] theorem State.latchReqs_hitch (s : State) : s.latchReqs.hitch = s.hitch := by
  obtain ⟨cs, h⟩ := s.latchReqs_eq; rw [h]
@[simp] theorem State.latchReqs_pins (s : State) : s.latchReqs.pins = s.pins := by
  obtain ⟨cs, h⟩ := s.latchReqs_eq; rw [h]
@[simp] theorem State.latchReqs_pinLvl (s : State) : s.latchReqs.pinLvl = s.pinLvl := by
  obtain ⟨cs, h⟩ := s.latchReqs_eq; rw [h]
@[simp] theorem State.latchReqs_filt (s : State) : s.latchReqs.filt = s.filt := by
  obtain ⟨cs, h⟩ := s.latchReqs_eq; rw [h]
@[simp] theorem State.latchReqs_radio (s : State) : s.latchReqs.radio = s.radio := by
  obtain ⟨cs, h⟩ := s.latchReqs_eq; rw [h]
@[simp] theorem State.latchReqs_stalls (s : State) : s.latchReqs.stalls = s.stalls := by
  obtain ⟨cs, h⟩ := s.latchReqs_eq; rw [h]
@[simp] theorem State.latchReqs_pools (s : State) : s.latchReqs.pools = s.pools := by
  obtain ⟨cs, h⟩ := s.latchReqs_eq; rw [h]
@[simp] theorem State.latchReqs_frame (s : State) : s.latchReqs.frame = s.frame := by
  obtain ⟨cs, h⟩ := s.latchReqs_eq; rw [h]
@[simp] theorem State.latchReqs_sched (s : State) : s.latchReqs.sched = s.sched := by
  obtain ⟨cs, h⟩ := s.latchReqs_eq; rw [h]
@[simp] theorem State.latchReqs_link (s : State) : s.latchReqs.link = s.link := by
  obtain ⟨cs, h⟩ := s.latchReqs_eq; rw [h]
@[simp] theorem State.latchReqs_cipher (s : State) : s.latchReqs.cipher = s.cipher := by
  obtain ⟨cs, h⟩ := s.latchReqs_eq; rw [h]
@[simp] theorem State.latchReqs_chord (s : State) : s.latchReqs.chord = s.chord := by
  obtain ⟨cs, h⟩ := s.latchReqs_eq; rw [h]
@[simp] theorem State.latchReqs_dma (s : State) : s.latchReqs.dma = s.dma := by
  obtain ⟨cs, h⟩ := s.latchReqs_eq; rw [h]
@[simp] theorem State.latchReqs_yard (s : State) : s.latchReqs.yard = s.yard := by
  obtain ⟨cs, h⟩ := s.latchReqs_eq; rw [h]
@[simp] theorem State.latchReqs_otp (s : State) : s.latchReqs.otp = s.otp := by
  obtain ⟨cs, h⟩ := s.latchReqs_eq; rw [h]
@[simp] theorem State.latchReqs_keeper (s : State) : s.latchReqs.keeper = s.keeper := by
  obtain ⟨cs, h⟩ := s.latchReqs_eq; rw [h]
@[simp] theorem State.latchReqs_update (s : State) : s.latchReqs.update = s.update := by
  obtain ⟨cs, h⟩ := s.latchReqs_eq; rw [h]
@[simp] theorem State.latchReqs_pending (s : State) : s.latchReqs.pending = s.pending := by
  obtain ⟨cs, h⟩ := s.latchReqs_eq; rw [h]
@[simp] theorem State.latchReqs_rg (s : State) (a : Nat) : s.latchReqs.rg a = s.rg a := by simp [State.rg]
@[simp] theorem State.latchReqs_get (s : State) (f : Field) : s.latchReqs.get f = s.get f := by simp [State.get]
@[simp] theorem State.latchReqs_test (s : State) (f : Field) : s.latchReqs.test f = s.test f := by simp [State.test]
@[simp] theorem State.latchReqs_holds (s : State) (h : Nat) : s.latchReqs.holds h = s.holds h := by
  simp [State.holds, State.acct]

/-! ## Cores -/

@[simp] theorem State.core_setCore_same (s : State) (c : CoreId) (x : CoreSt) : (s.setCore c x).core c = x := by
  simp [State.core, State.setCore]

theorem State.core_setCore_ne (s : State) {c d : CoreId} (x : CoreSt) (h : d ≠ c) : (s.setCore c x).core d = s.core d := by
  have hv : c.val ≠ d.val := fun e => h (Fin.ext e.symm)
  simp [State.core, State.setCore, Vector.getElem_set_ne, hv]

@[simp] theorem State.core_modCore_same (s : State) (c : CoreId) (f : CoreSt → CoreSt) :
    (s.modCore c f).core c = f (s.core c) := by simp [State.modCore]

theorem State.core_modCore_ne (s : State) {c d : CoreId} (f : CoreSt → CoreSt) (h : d ≠ c) :
    (s.modCore c f).core d = s.core d := by simp [State.modCore, State.core_setCore_ne s _ h]

/-- A core written twice. -/
@[simp] theorem State.setCore_setCore (s : State) (c : CoreId) (x y : CoreSt) : (s.setCore c x).setCore c y = s.setCore c y := by
  simp [State.setCore]

@[simp] theorem CoreSt.hold_bare (x : CoreSt) (m : Bool) (k : Nat) : (x.hold m k).bare = x.bare := rfl

/-- Latching requests changes nothing of a core but its pending bits, and clears none of them. -/
theorem State.latchReqs_bare (s : State) (c : CoreId) : (s.latchReqs.core c).bare = (s.core c).bare := by
  unfold State.latchReqs
  refine foldl_keep (fun t => (t.core c).bare) _ (fun t k => ?_) _ s
  split
  · rename_i d l _
    by_cases h : c = d
    · subst h; simp
    · simp [State.core_modCore_ne _ _ h]
  · rfl

@[simp] theorem State.latchReqs_core_w (s : State) (c : CoreId) : (s.latchReqs.core c).w = (s.core c).w := by
  have h := congrArg CoreSt.w (s.latchReqs_bare c); exact h
@[simp] theorem State.latchReqs_core_pc (s : State) (c : CoreId) : (s.latchReqs.core c).pc = (s.core c).pc := by
  have h := congrArg CoreSt.pc (s.latchReqs_bare c); exact h
@[simp] theorem State.latchReqs_core_sw (s : State) (c : CoreId) : (s.latchReqs.core c).sw = (s.core c).sw := by
  have h := congrArg CoreSt.sw (s.latchReqs_bare c); exact h
@[simp] theorem State.latchReqs_core_run (s : State) (c : CoreId) : (s.latchReqs.core c).run = (s.core c).run := by
  have h := congrArg CoreSt.run (s.latchReqs_bare c); exact h
@[simp] theorem State.latchReqs_core_act (s : State) (c : CoreId) : (s.latchReqs.core c).act = (s.core c).act := by
  have h := congrArg CoreSt.act (s.latchReqs_bare c); exact h
@[simp] theorem State.latchReqs_core_epc (s : State) (c : CoreId) : (s.latchReqs.core c).epc = (s.core c).epc := by
  have h := congrArg CoreSt.epc (s.latchReqs_bare c); exact h
@[simp] theorem State.latchReqs_core_esw (s : State) (c : CoreId) : (s.latchReqs.core c).esw = (s.core c).esw := by
  have h := congrArg CoreSt.esw (s.latchReqs_bare c); exact h
@[simp] theorem State.latchReqs_core_ecause (s : State) (c : CoreId) : (s.latchReqs.core c).ecause = (s.core c).ecause := by
  have h := congrArg CoreSt.ecause (s.latchReqs_bare c); exact h
@[simp] theorem State.latchReqs_core_eaddr (s : State) (c : CoreId) : (s.latchReqs.core c).eaddr = (s.core c).eaddr := by
  have h := congrArg CoreSt.eaddr (s.latchReqs_bare c); exact h
@[simp] theorem State.latchReqs_core_ien (s : State) (c : CoreId) : (s.latchReqs.core c).ien = (s.core c).ien := by
  have h := congrArg CoreSt.ien (s.latchReqs_bare c); exact h
@[simp] theorem State.latchReqs_core_ilvl (s : State) (c : CoreId) : (s.latchReqs.core c).ilvl = (s.core c).ilvl := by
  have h := congrArg CoreSt.ilvl (s.latchReqs_bare c); exact h
@[simp] theorem State.latchReqs_core_stores (s : State) (c : CoreId) : (s.latchReqs.core c).stores = (s.core c).stores := by
  have h := congrArg CoreSt.stores (s.latchReqs_bare c); exact h
@[simp] theorem State.latchReqs_core_acts (s : State) (c : CoreId) : (s.latchReqs.core c).acts = (s.core c).acts := by
  have h := congrArg CoreSt.acts (s.latchReqs_bare c); exact h
@[simp] theorem State.latchReqs_core_fresh (s : State) (c : CoreId) : (s.latchReqs.core c).fresh = (s.core c).fresh := by
  have h := congrArg CoreSt.fresh (s.latchReqs_bare c); exact h
@[simp] theorem State.latchReqs_core_creset (s : State) (c : CoreId) : (s.latchReqs.core c).creset = (s.core c).creset := by
  have h := congrArg CoreSt.creset (s.latchReqs_bare c); exact h

/-! ## raise: the flag is set, and nothing else of the registers changes -/

theorem State.raise_eq (f : Field) (s : State) : ∃ l cs, s.raise f = { s.put f 1 with lattice := l, cores := cs } := by
  unfold State.raise
  cases h : flagProducer f with
  | none => obtain ⟨cs, h'⟩ := (s.put f 1).latchReqs_eq; exact ⟨_, cs, by simp only [h']; rfl⟩
  | some p =>
    obtain ⟨l, h1⟩ := State.fire_eq p (s.put f 1)
    obtain ⟨cs, h2⟩ := ((s.put f 1).fire p).latchReqs_eq
    refine ⟨l, cs, ?_⟩
    show ((s.put f 1).fire p).latchReqs = _
    rw [h2, h1]

@[simp] theorem State.raise_tick (g : Field) (s : State) : (s.raise g).tick = s.tick := by
  obtain ⟨l, cs, h⟩ := State.raise_eq g s; simp [h]
@[simp] theorem State.raise_mesh (g : Field) (s : State) : (s.raise g).mesh = s.mesh := by
  obtain ⟨l, cs, h⟩ := State.raise_eq g s; simp [h]
@[simp] theorem State.raise_free (g : Field) (s : State) : (s.raise g).free = s.free := by
  obtain ⟨l, cs, h⟩ := State.raise_eq g s; simp [h]
@[simp] theorem State.raise_manger (g : Field) (s : State) : (s.raise g).manger = s.manger := by
  obtain ⟨l, cs, h⟩ := State.raise_eq g s; simp [h]
@[simp] theorem State.raise_faults (g : Field) (s : State) : (s.raise g).faults = s.faults := by
  obtain ⟨l, cs, h⟩ := State.raise_eq g s; simp [h]
@[simp] theorem State.raise_timers (g : Field) (s : State) : (s.raise g).timers = s.timers := by
  obtain ⟨l, cs, h⟩ := State.raise_eq g s; simp [h]
@[simp] theorem State.raise_rtc (g : Field) (s : State) : (s.raise g).rtc = s.rtc := by
  obtain ⟨l, cs, h⟩ := State.raise_eq g s; simp [h]
@[simp] theorem State.raise_power (g : Field) (s : State) : (s.raise g).power = s.power := by
  obtain ⟨l, cs, h⟩ := State.raise_eq g s; simp [h]
@[simp] theorem State.raise_sram (g : Field) (s : State) : (s.raise g).sram = s.sram := by
  obtain ⟨l, cs, h⟩ := State.raise_eq g s; simp [h]
@[simp] theorem State.raise_pram (g : Field) (s : State) : (s.raise g).pram = s.pram := by
  obtain ⟨l, cs, h⟩ := State.raise_eq g s; simp [h]
@[simp] theorem State.raise_loft (g : Field) (s : State) : (s.raise g).loft = s.loft := by
  obtain ⟨l, cs, h⟩ := State.raise_eq g s; simp [h]
@[simp] theorem State.raise_memChk (g : Field) (s : State) : (s.raise g).memChk = s.memChk := by
  obtain ⟨l, cs, h⟩ := State.raise_eq g s; simp [h]
@[simp] theorem State.raise_flash (g : Field) (s : State) : (s.raise g).flash = s.flash := by
  obtain ⟨l, cs, h⟩ := State.raise_eq g s; simp [h]
@[simp] theorem State.raise_flashOp (g : Field) (s : State) : (s.raise g).flashOp = s.flashOp := by
  obtain ⟨l, cs, h⟩ := State.raise_eq g s; simp [h]
@[simp] theorem State.raise_uart (g : Field) (s : State) : (s.raise g).uart = s.uart := by
  obtain ⟨l, cs, h⟩ := State.raise_eq g s; simp [h]
@[simp] theorem State.raise_hitch (g : Field) (s : State) : (s.raise g).hitch = s.hitch := by
  obtain ⟨l, cs, h⟩ := State.raise_eq g s; simp [h]
@[simp] theorem State.raise_pins (g : Field) (s : State) : (s.raise g).pins = s.pins := by
  obtain ⟨l, cs, h⟩ := State.raise_eq g s; simp [h]
@[simp] theorem State.raise_pinLvl (g : Field) (s : State) : (s.raise g).pinLvl = s.pinLvl := by
  obtain ⟨l, cs, h⟩ := State.raise_eq g s; simp [h]
@[simp] theorem State.raise_filt (g : Field) (s : State) : (s.raise g).filt = s.filt := by
  obtain ⟨l, cs, h⟩ := State.raise_eq g s; simp [h]
@[simp] theorem State.raise_radio (g : Field) (s : State) : (s.raise g).radio = s.radio := by
  obtain ⟨l, cs, h⟩ := State.raise_eq g s; simp [h]
@[simp] theorem State.raise_stalls (g : Field) (s : State) : (s.raise g).stalls = s.stalls := by
  obtain ⟨l, cs, h⟩ := State.raise_eq g s; simp [h]
@[simp] theorem State.raise_pools (g : Field) (s : State) : (s.raise g).pools = s.pools := by
  obtain ⟨l, cs, h⟩ := State.raise_eq g s; simp [h]
@[simp] theorem State.raise_frame (g : Field) (s : State) : (s.raise g).frame = s.frame := by
  obtain ⟨l, cs, h⟩ := State.raise_eq g s; simp [h]
@[simp] theorem State.raise_sched (g : Field) (s : State) : (s.raise g).sched = s.sched := by
  obtain ⟨l, cs, h⟩ := State.raise_eq g s; simp [h]
@[simp] theorem State.raise_link (g : Field) (s : State) : (s.raise g).link = s.link := by
  obtain ⟨l, cs, h⟩ := State.raise_eq g s; simp [h]
@[simp] theorem State.raise_cipher (g : Field) (s : State) : (s.raise g).cipher = s.cipher := by
  obtain ⟨l, cs, h⟩ := State.raise_eq g s; simp [h]
@[simp] theorem State.raise_chord (g : Field) (s : State) : (s.raise g).chord = s.chord := by
  obtain ⟨l, cs, h⟩ := State.raise_eq g s; simp [h]
@[simp] theorem State.raise_dma (g : Field) (s : State) : (s.raise g).dma = s.dma := by
  obtain ⟨l, cs, h⟩ := State.raise_eq g s; simp [h]
@[simp] theorem State.raise_yard (g : Field) (s : State) : (s.raise g).yard = s.yard := by
  obtain ⟨l, cs, h⟩ := State.raise_eq g s; simp [h]
@[simp] theorem State.raise_otp (g : Field) (s : State) : (s.raise g).otp = s.otp := by
  obtain ⟨l, cs, h⟩ := State.raise_eq g s; simp [h]
@[simp] theorem State.raise_keeper (g : Field) (s : State) : (s.raise g).keeper = s.keeper := by
  obtain ⟨l, cs, h⟩ := State.raise_eq g s; simp [h]
@[simp] theorem State.raise_update (g : Field) (s : State) : (s.raise g).update = s.update := by
  obtain ⟨l, cs, h⟩ := State.raise_eq g s; simp [h]
@[simp] theorem State.raise_pending (g : Field) (s : State) : (s.raise g).pending = s.pending := by
  obtain ⟨l, cs, h⟩ := State.raise_eq g s; simp [h]
@[simp] theorem State.raise_regs (f : Field) (s : State) : (s.raise f).regs = (s.put f 1).regs := by
  obtain ⟨l, cs, h⟩ := State.raise_eq f s; simp [h]
theorem State.raise_rg (f : Field) (s : State) (a : Nat) : (s.raise f).rg a = (s.put f 1).rg a := by
  obtain ⟨l, cs, h⟩ := State.raise_eq f s; rw [h]; rfl
theorem State.raise_get (f g : Field) (s : State) : (s.raise f).get g = (s.put f 1).get g := by
  simp only [State.get, State.raise_rg]
theorem State.raise_test (f g : Field) (s : State) : (s.raise f).test g = (s.put f 1).test g := by
  simp only [State.test, State.raise_get]
theorem State.raise_rg_ne (f : Field) (s : State) {a : Nat} (h : a ≠ f.reg) : (s.raise f).rg a = s.rg a := by
  rw [State.raise_rg, State.rg_put_ne s f 1 h]
theorem State.raise_get_ne (f : Field) (s : State) {g : Field} (h : g.reg ≠ f.reg) : (s.raise f).get g = s.get g := by
  rw [State.raise_get, State.get_put_ne s 1 h]
theorem State.raise_test_ne (f : Field) (s : State) {g : Field} (h : g.reg ≠ f.reg) : (s.raise f).test g = s.test g := by
  simp only [State.test, State.raise_get_ne f s h]
/-- The flag is set. -/
theorem State.raise_self (f : Field) (s : State) (hh : f.hi < 20) (hl : f.lo ≤ f.hi) : (s.raise f).test f = true := by
  rw [State.raise_test, State.test_put_same s f 1 hh hl (Nat.one_lt_two_pow (by omega))]
  rfl
@[simp] theorem State.raise_holds (f : Field) (s : State) (h : Nat) : (s.raise f).holds h = s.holds h := by
  simp [State.holds, State.acct]

/-- Raising a flag changes nothing of a core but its pending bits. -/
theorem State.raise_bare (f : Field) (s : State) (c : CoreId) : ((s.raise f).core c).bare = (s.core c).bare := by
  unfold State.raise
  dsimp only
  rw [State.latchReqs_bare]
  split <;> simp

@[simp] theorem State.raise_core_w (g : Field) (s : State) (c : CoreId) : ((s.raise g).core c).w = (s.core c).w := by
  have h := congrArg CoreSt.w (s.raise_bare g c); exact h
@[simp] theorem State.raise_core_pc (g : Field) (s : State) (c : CoreId) : ((s.raise g).core c).pc = (s.core c).pc := by
  have h := congrArg CoreSt.pc (s.raise_bare g c); exact h
@[simp] theorem State.raise_core_sw (g : Field) (s : State) (c : CoreId) : ((s.raise g).core c).sw = (s.core c).sw := by
  have h := congrArg CoreSt.sw (s.raise_bare g c); exact h
@[simp] theorem State.raise_core_run (g : Field) (s : State) (c : CoreId) : ((s.raise g).core c).run = (s.core c).run := by
  have h := congrArg CoreSt.run (s.raise_bare g c); exact h
@[simp] theorem State.raise_core_act (g : Field) (s : State) (c : CoreId) : ((s.raise g).core c).act = (s.core c).act := by
  have h := congrArg CoreSt.act (s.raise_bare g c); exact h
@[simp] theorem State.raise_core_epc (g : Field) (s : State) (c : CoreId) : ((s.raise g).core c).epc = (s.core c).epc := by
  have h := congrArg CoreSt.epc (s.raise_bare g c); exact h
@[simp] theorem State.raise_core_esw (g : Field) (s : State) (c : CoreId) : ((s.raise g).core c).esw = (s.core c).esw := by
  have h := congrArg CoreSt.esw (s.raise_bare g c); exact h
@[simp] theorem State.raise_core_ecause (g : Field) (s : State) (c : CoreId) : ((s.raise g).core c).ecause = (s.core c).ecause := by
  have h := congrArg CoreSt.ecause (s.raise_bare g c); exact h
@[simp] theorem State.raise_core_eaddr (g : Field) (s : State) (c : CoreId) : ((s.raise g).core c).eaddr = (s.core c).eaddr := by
  have h := congrArg CoreSt.eaddr (s.raise_bare g c); exact h
@[simp] theorem State.raise_core_ien (g : Field) (s : State) (c : CoreId) : ((s.raise g).core c).ien = (s.core c).ien := by
  have h := congrArg CoreSt.ien (s.raise_bare g c); exact h
@[simp] theorem State.raise_core_ilvl (g : Field) (s : State) (c : CoreId) : ((s.raise g).core c).ilvl = (s.core c).ilvl := by
  have h := congrArg CoreSt.ilvl (s.raise_bare g c); exact h
@[simp] theorem State.raise_core_stores (g : Field) (s : State) (c : CoreId) : ((s.raise g).core c).stores = (s.core c).stores := by
  have h := congrArg CoreSt.stores (s.raise_bare g c); exact h
@[simp] theorem State.raise_core_acts (g : Field) (s : State) (c : CoreId) : ((s.raise g).core c).acts = (s.core c).acts := by
  have h := congrArg CoreSt.acts (s.raise_bare g c); exact h
@[simp] theorem State.raise_core_fresh (g : Field) (s : State) (c : CoreId) : ((s.raise g).core c).fresh = (s.core c).fresh := by
  have h := congrArg CoreSt.fresh (s.raise_bare g c); exact h
@[simp] theorem State.raise_core_creset (g : Field) (s : State) (c : CoreId) : ((s.raise g).core c).creset = (s.core c).creset := by
  have h := congrArg CoreSt.creset (s.raise_bare g c); exact h

/-! ## The stop -/

@[simp] theorem State.live_eq (s : State) (o : Out) (h : s.stopped = false) : s.live o = o := by simp [State.live, h]

theorem State.stopped_live (s : State) (o : Out) (h : s.stopped = true) : s.live o = .next s := by simp [State.live, h]

end Sys2Proof.Machine
end

