-- ==== Sys2Proof/Laws/Report.lean ====
section
/-! SUPPORT. What a fault report can do: it sets the status bit of its source, writes the log, and leaves memory, the
manger and everything of the cores but pending bits alone. -/

namespace Sys2Proof.Machine

/-- The second state differs from the first in the parts that a report can write, and in no other. -/
def State.Near (s t : State) : Prop :=
  (∃ r co fa la ra pw fr, t = { s with
    regs := r, cores := co, faults := fa, lattice := la, radio := ra, power := pw, frame := fr }) ∧
    s.coresKept t ∧ (tabWf regReset s.regs → tabWf regReset t.regs)

theorem State.Near.rfl' (s : State) : s.Near s := ⟨⟨_, _, _, _, _, _, _, rfl⟩, fun _ => rfl, id⟩

theorem State.Near.trans {s t u : State} (h : s.Near t) (g : t.Near u) : s.Near u := by
  obtain ⟨⟨r, co, fa, la, ra, pw, fr, rfl⟩, hb, hw⟩ := h
  obtain ⟨⟨r', co', fa', la', ra', pw', fr', rfl⟩, gb, gw⟩ := g
  exact ⟨⟨_, _, _, _, _, _, _, rfl⟩, fun c => (gb c).trans (hb c), fun h => gw (hw h)⟩

theorem State.Near.setRg (s : State) (a : Nat) (v : W20) : s.Near (s.setRg a v) :=
  ⟨⟨_, _, _, _, _, _, _, rfl⟩, fun _ => rfl, fun h => tabSet_wf _ _ _ _ h⟩
theorem State.Near.put (s : State) (f : Field) (n : Nat) : s.Near (s.put f n) := State.Near.setRg _ _ _

theorem State.Near.raise (s : State) (f : Field) : s.Near (s.raise f) := by
  refine ⟨?_, fun c => s.raise_bare f c, fun h => by rw [State.raise_regs]; exact tabSet_wf _ _ _ _ h⟩
  obtain ⟨l, cs, h⟩ := State.raise_eq f s
  rw [h]; exact ⟨_, _, _, _, _, _, _, rfl⟩

theorem State.near_logReport (s : State) (code : Nat) (d : W20) : s.Near (s.logReport code d) := by
  unfold State.logReport
  dsimp only
  split
  · split
    · exact State.Near.put _ _ _
    · exact State.Near.rfl' s
  · split
    · split
      · rename_i k _
        have h : s.Near (s.commitEntry k (faultClass code) code d) :=
          ((((State.Near.setRg s _ _).trans (State.Near.setRg _ _ _)).trans (State.Near.setRg _ _ _)).trans
            (State.Near.setRg _ _ _)).trans ⟨⟨_, _, _, _, _, _, _, rfl⟩, fun _ => rfl, id⟩
        split
        · exact h.trans (State.Near.raise _ _)
        · exact h
      · exact (State.Near.put _ _ _).trans (State.Near.raise _ _)
    · exact State.Near.rfl' s

theorem State.near_fatalCut (s : State) : s.Near s.fatalCut := by
  unfold State.fatalCut
  dsimp only
  split
  · rename_i x _
    exact ((((((State.Near.put s (FU_TX_CTL_SENDING x.slot) 0).trans (State.Near.setRg _ FU_TXBUSY 0)).trans
      ⟨⟨_, _, _, _, _, _, _, rfl⟩, fun _ => rfl, id⟩).trans (State.Near.put _ CHD_STATE_BYPASS 1)).trans
      (State.Near.put _ CHD_STATE_INA 0)).trans (State.Near.put _ CHD_STATE_INB 0)).trans
      ⟨⟨_, _, _, _, _, _, _, rfl⟩, fun _ => rfl, id⟩
  · exact ((((State.Near.rfl' s).trans
      ⟨⟨_, _, _, _, _, _, _, rfl⟩, fun _ => rfl, id⟩ |>.trans (State.Near.put _ CHD_STATE_BYPASS 1)).trans
      (State.Near.put _ CHD_STATE_INA 0)).trans (State.Near.put _ CHD_STATE_INB 0)).trans
      ⟨⟨_, _, _, _, _, _, _, rfl⟩, fun _ => rfl, id⟩

theorem State.Near.last (s : State) (code : Nat) (d : W20) :
    s.Near { s with faults := { s.faults with last := tabSet (fun _ => 0) s.faults.last code d } } :=
  ⟨⟨_, _, _, _, _, _, _, rfl⟩, fun _ => rfl, id⟩

theorem State.near_report (code : Nat) (d : W20) (s : State) : s.Near (State.report code d s) := by
  unfold State.report
  dsimp only
  have h1 := (State.near_logReport s code d).trans (State.Near.put _ (faultBit code) 1)
  generalize (s.logReport code d).put (faultBit code) 1 = u at h1
  have h0 := h1.trans (State.Near.last u code d)
  generalize hv : ({ u with faults := { u.faults with last := tabSet (fun _ => 0) u.faults.last code d } } : State) = t at h0 ⊢
  have cut := fun u => State.near_fatalCut u
  repeat' split
  all_goals
    repeat first
      | exact h0
      | refine State.Near.trans ?_ (State.Near.raise _ _)
      | refine State.Near.trans ?_ (cut _)
      | refine State.Near.trans ?_ (t := State.fatalCut _) ⟨⟨_, _, _, _, _, _, _, rfl⟩, fun _ => rfl, id⟩

@[simp] theorem State.report_tick (code : Nat) (d : W20) (s : State) : (State.report code d s).tick = s.tick := by
  obtain ⟨⟨_, _, _, _, _, _, _, h⟩, _, _⟩ := State.near_report code d s; rw [h]
@[simp] theorem State.report_mesh (code : Nat) (d : W20) (s : State) : (State.report code d s).mesh = s.mesh := by
  obtain ⟨⟨_, _, _, _, _, _, _, h⟩, _, _⟩ := State.near_report code d s; rw [h]
@[simp] theorem State.report_free (code : Nat) (d : W20) (s : State) : (State.report code d s).free = s.free := by
  obtain ⟨⟨_, _, _, _, _, _, _, h⟩, _, _⟩ := State.near_report code d s; rw [h]
@[simp] theorem State.report_manger (code : Nat) (d : W20) (s : State) : (State.report code d s).manger = s.manger := by
  obtain ⟨⟨_, _, _, _, _, _, _, h⟩, _, _⟩ := State.near_report code d s; rw [h]
@[simp] theorem State.report_timers (code : Nat) (d : W20) (s : State) : (State.report code d s).timers = s.timers := by
  obtain ⟨⟨_, _, _, _, _, _, _, h⟩, _, _⟩ := State.near_report code d s; rw [h]
@[simp] theorem State.report_rtc (code : Nat) (d : W20) (s : State) : (State.report code d s).rtc = s.rtc := by
  obtain ⟨⟨_, _, _, _, _, _, _, h⟩, _, _⟩ := State.near_report code d s; rw [h]
@[simp] theorem State.report_sram (code : Nat) (d : W20) (s : State) : (State.report code d s).sram = s.sram := by
  obtain ⟨⟨_, _, _, _, _, _, _, h⟩, _, _⟩ := State.near_report code d s; rw [h]
@[simp] theorem State.report_pram (code : Nat) (d : W20) (s : State) : (State.report code d s).pram = s.pram := by
  obtain ⟨⟨_, _, _, _, _, _, _, h⟩, _, _⟩ := State.near_report code d s; rw [h]
@[simp] theorem State.report_loft (code : Nat) (d : W20) (s : State) : (State.report code d s).loft = s.loft := by
  obtain ⟨⟨_, _, _, _, _, _, _, h⟩, _, _⟩ := State.near_report code d s; rw [h]
@[simp] theorem State.report_memChk (code : Nat) (d : W20) (s : State) : (State.report code d s).memChk = s.memChk := by
  obtain ⟨⟨_, _, _, _, _, _, _, h⟩, _, _⟩ := State.near_report code d s; rw [h]
@[simp] theorem State.report_flash (code : Nat) (d : W20) (s : State) : (State.report code d s).flash = s.flash := by
  obtain ⟨⟨_, _, _, _, _, _, _, h⟩, _, _⟩ := State.near_report code d s; rw [h]
@[simp] theorem State.report_flashOp (code : Nat) (d : W20) (s : State) : (State.report code d s).flashOp = s.flashOp := by
  obtain ⟨⟨_, _, _, _, _, _, _, h⟩, _, _⟩ := State.near_report code d s; rw [h]
@[simp] theorem State.report_uart (code : Nat) (d : W20) (s : State) : (State.report code d s).uart = s.uart := by
  obtain ⟨⟨_, _, _, _, _, _, _, h⟩, _, _⟩ := State.near_report code d s; rw [h]
@[simp] theorem State.report_hitch (code : Nat) (d : W20) (s : State) : (State.report code d s).hitch = s.hitch := by
  obtain ⟨⟨_, _, _, _, _, _, _, h⟩, _, _⟩ := State.near_report code d s; rw [h]
@[simp] theorem State.report_pins (code : Nat) (d : W20) (s : State) : (State.report code d s).pins = s.pins := by
  obtain ⟨⟨_, _, _, _, _, _, _, h⟩, _, _⟩ := State.near_report code d s; rw [h]
@[simp] theorem State.report_pinLvl (code : Nat) (d : W20) (s : State) : (State.report code d s).pinLvl = s.pinLvl := by
  obtain ⟨⟨_, _, _, _, _, _, _, h⟩, _, _⟩ := State.near_report code d s; rw [h]
@[simp] theorem State.report_stalls (code : Nat) (d : W20) (s : State) : (State.report code d s).stalls = s.stalls := by
  obtain ⟨⟨_, _, _, _, _, _, _, h⟩, _, _⟩ := State.near_report code d s; rw [h]
@[simp] theorem State.report_pools (code : Nat) (d : W20) (s : State) : (State.report code d s).pools = s.pools := by
  obtain ⟨⟨_, _, _, _, _, _, _, h⟩, _, _⟩ := State.near_report code d s; rw [h]
@[simp] theorem State.report_sched (code : Nat) (d : W20) (s : State) : (State.report code d s).sched = s.sched := by
  obtain ⟨⟨_, _, _, _, _, _, _, h⟩, _, _⟩ := State.near_report code d s; rw [h]
@[simp] theorem State.report_link (code : Nat) (d : W20) (s : State) : (State.report code d s).link = s.link := by
  obtain ⟨⟨_, _, _, _, _, _, _, h⟩, _, _⟩ := State.near_report code d s; rw [h]
@[simp] theorem State.report_cipher (code : Nat) (d : W20) (s : State) : (State.report code d s).cipher = s.cipher := by
  obtain ⟨⟨_, _, _, _, _, _, _, h⟩, _, _⟩ := State.near_report code d s; rw [h]
@[simp] theorem State.report_chord (code : Nat) (d : W20) (s : State) : (State.report code d s).chord = s.chord := by
  obtain ⟨⟨_, _, _, _, _, _, _, h⟩, _, _⟩ := State.near_report code d s; rw [h]
@[simp] theorem State.report_dma (code : Nat) (d : W20) (s : State) : (State.report code d s).dma = s.dma := by
  obtain ⟨⟨_, _, _, _, _, _, _, h⟩, _, _⟩ := State.near_report code d s; rw [h]
@[simp] theorem State.report_yard (code : Nat) (d : W20) (s : State) : (State.report code d s).yard = s.yard := by
  obtain ⟨⟨_, _, _, _, _, _, _, h⟩, _, _⟩ := State.near_report code d s; rw [h]
@[simp] theorem State.report_otp (code : Nat) (d : W20) (s : State) : (State.report code d s).otp = s.otp := by
  obtain ⟨⟨_, _, _, _, _, _, _, h⟩, _, _⟩ := State.near_report code d s; rw [h]
@[simp] theorem State.report_keeper (code : Nat) (d : W20) (s : State) : (State.report code d s).keeper = s.keeper := by
  obtain ⟨⟨_, _, _, _, _, _, _, h⟩, _, _⟩ := State.near_report code d s; rw [h]
@[simp] theorem State.report_update (code : Nat) (d : W20) (s : State) : (State.report code d s).update = s.update := by
  obtain ⟨⟨_, _, _, _, _, _, _, h⟩, _, _⟩ := State.near_report code d s; rw [h]
@[simp] theorem State.report_pending (code : Nat) (d : W20) (s : State) : (State.report code d s).pending = s.pending := by
  obtain ⟨⟨_, _, _, _, _, _, _, h⟩, _, _⟩ := State.near_report code d s; rw [h]

/-- A report changes nothing of a core but its pending bits. -/
theorem State.report_bare (code : Nat) (d : W20) (s : State) (c : CoreId) :
    ((State.report code d s).core c).bare = (s.core c).bare :=
  (State.near_report code d s).2.1 c

@[simp] theorem State.report_core_w (code : Nat) (d : W20) (s : State) (c : CoreId) :
    ((State.report code d s).core c).w = (s.core c).w := by
  have h := congrArg CoreSt.w (s.report_bare code d c); exact h
@[simp] theorem State.report_core_pc (code : Nat) (d : W20) (s : State) (c : CoreId) :
    ((State.report code d s).core c).pc = (s.core c).pc := by
  have h := congrArg CoreSt.pc (s.report_bare code d c); exact h
@[simp] theorem State.report_core_sw (code : Nat) (d : W20) (s : State) (c : CoreId) :
    ((State.report code d s).core c).sw = (s.core c).sw := by
  have h := congrArg CoreSt.sw (s.report_bare code d c); exact h
@[simp] theorem State.report_core_run (code : Nat) (d : W20) (s : State) (c : CoreId) :
    ((State.report code d s).core c).run = (s.core c).run := by
  have h := congrArg CoreSt.run (s.report_bare code d c); exact h
@[simp] theorem State.report_core_act (code : Nat) (d : W20) (s : State) (c : CoreId) :
    ((State.report code d s).core c).act = (s.core c).act := by
  have h := congrArg CoreSt.act (s.report_bare code d c); exact h
@[simp] theorem State.report_core_epc (code : Nat) (d : W20) (s : State) (c : CoreId) :
    ((State.report code d s).core c).epc = (s.core c).epc := by
  have h := congrArg CoreSt.epc (s.report_bare code d c); exact h
@[simp] theorem State.report_core_esw (code : Nat) (d : W20) (s : State) (c : CoreId) :
    ((State.report code d s).core c).esw = (s.core c).esw := by
  have h := congrArg CoreSt.esw (s.report_bare code d c); exact h
@[simp] theorem State.report_core_ecause (code : Nat) (d : W20) (s : State) (c : CoreId) :
    ((State.report code d s).core c).ecause = (s.core c).ecause := by
  have h := congrArg CoreSt.ecause (s.report_bare code d c); exact h
@[simp] theorem State.report_core_eaddr (code : Nat) (d : W20) (s : State) (c : CoreId) :
    ((State.report code d s).core c).eaddr = (s.core c).eaddr := by
  have h := congrArg CoreSt.eaddr (s.report_bare code d c); exact h
@[simp] theorem State.report_core_ien (code : Nat) (d : W20) (s : State) (c : CoreId) :
    ((State.report code d s).core c).ien = (s.core c).ien := by
  have h := congrArg CoreSt.ien (s.report_bare code d c); exact h
@[simp] theorem State.report_core_ilvl (code : Nat) (d : W20) (s : State) (c : CoreId) :
    ((State.report code d s).core c).ilvl = (s.core c).ilvl := by
  have h := congrArg CoreSt.ilvl (s.report_bare code d c); exact h
@[simp] theorem State.report_core_stores (code : Nat) (d : W20) (s : State) (c : CoreId) :
    ((State.report code d s).core c).stores = (s.core c).stores := by
  have h := congrArg CoreSt.stores (s.report_bare code d c); exact h
@[simp] theorem State.report_core_acts (code : Nat) (d : W20) (s : State) (c : CoreId) :
    ((State.report code d s).core c).acts = (s.core c).acts := by
  have h := congrArg CoreSt.acts (s.report_bare code d c); exact h
@[simp] theorem State.report_core_fresh (code : Nat) (d : W20) (s : State) (c : CoreId) :
    ((State.report code d s).core c).fresh = (s.core c).fresh := by
  have h := congrArg CoreSt.fresh (s.report_bare code d c); exact h
@[simp] theorem State.report_core_creset (code : Nat) (d : W20) (s : State) (c : CoreId) :
    ((State.report code d s).core c).creset = (s.core c).creset := by
  have h := congrArg CoreSt.creset (s.report_bare code d c); exact h
@[simp] theorem State.report_core_stopAt (code : Nat) (d : W20) (s : State) (c : CoreId) :
    ((State.report code d s).core c).stopAt = (s.core c).stopAt := by
  have h := congrArg CoreSt.stopAt (s.report_bare code d c); exact h

/-- A report keeps the form of the register table. -/
theorem State.report_regs_wf (code : Nat) (d : W20) (s : State) (h : tabWf regReset s.regs) :
    tabWf regReset (State.report code d s).regs := (State.near_report code d s).2.2 h

end Sys2Proof.Machine
end

