-- ==== Sys2Proof/Laws/Core.lean ====
section
/-! SUPPORT. What an instruction of a core that runs comes to, and the registers of a core. -/

namespace Sys2Proof.Machine

/-- An instruction of a core that runs. -/
theorem State.instr_runs (s : State) (c : CoreId) (f : CoreSt → State) (h : s.runs c = true) :
    s.instr c f = .next (f (s.core c)) := by simp [State.instr, h]

/-- A legal instruction of a core that runs changes its core alone. -/
theorem State.plain_runs (s : State) (c : CoreId) (n : Nat) (ok : Bool) (f : CoreSt → CoreSt) (h : s.runs c = true)
    (hk : ok = true) : s.plain c n ok f = .next (s.setCore c ((f (s.core c)).advance n)) := by
  simp [State.plain, State.instr_runs s c _ h, hk]

/-- An instruction of a core that does not run has no effect. -/
theorem State.instr_idle (s : State) (c : CoreId) (f : CoreSt → State) (h : s.runs c = false) : s.instr c f = .next s := by
  simp [State.instr, h]

/-- A core that runs: its state, and the device is not stopped. -/
theorem State.runs_run {s : State} {c : CoreId} (h : s.runs c = true) : (s.core c).run = .running := by
  simp only [State.runs, Bool.and_eq_true, beq_iff_eq] at h; exact h.1.1

theorem State.runs_clocked {s : State} {c : CoreId} (h : s.runs c = true) : s.clocked = true := by
  simp only [State.runs, Bool.and_eq_true] at h; exact h.1.2

theorem State.runs_live {s : State} {c : CoreId} (h : s.runs c = true) : s.stopped = false := by
  have := State.runs_clocked h
  simp only [State.clocked, Bool.and_eq_true, Bool.not_eq_true'] at this; exact this.1

theorem CoreSt.get_set (x : CoreSt) (d r : RegId) (v : W20) :
    (x.set d v).get r = if r = 0 then 0 else if r = d then v else x.get r := by
  unfold CoreSt.get CoreSt.set
  by_cases hr : r = 0
  · simp [hr]
  · by_cases hd : d = 0
    · subst hd; simp [hr]
    · by_cases h : r = d
      · subst h; simp [hr]
      · have hv : d.val ≠ r.val := fun e => h (Fin.ext e.symm)
        simp [hr, hd, h, Vector.getElem_set_ne, hv]

/-- The register w0 reads 0 and keeps nothing. -/
@[simp] theorem CoreSt.get_zero (x : CoreSt) : x.get 0 = 0 := rfl
@[simp] theorem CoreSt.set_zero (x : CoreSt) (v : W20) : x.set 0 v = x := rfl

@[simp] theorem CoreSt.set_pc (x : CoreSt) (d : RegId) (v : W20) : (x.set d v).pc = x.pc := by unfold CoreSt.set; split <;> rfl
@[simp] theorem CoreSt.set_sw (x : CoreSt) (d : RegId) (v : W20) : (x.set d v).sw = x.sw := by unfold CoreSt.set; split <;> rfl
@[simp] theorem CoreSt.set_run (x : CoreSt) (d : RegId) (v : W20) : (x.set d v).run = x.run := by unfold CoreSt.set; split <;> rfl
@[simp] theorem CoreSt.set_act (x : CoreSt) (d : RegId) (v : W20) : (x.set d v).act = x.act := by unfold CoreSt.set; split <;> rfl
@[simp] theorem CoreSt.set_pend (x : CoreSt) (d : RegId) (v : W20) : (x.set d v).pend = x.pend := by unfold CoreSt.set; split <;> rfl
@[simp] theorem CoreSt.set_stores (x : CoreSt) (d : RegId) (v : W20) : (x.set d v).stores = x.stores := by
  unfold CoreSt.set; split <;> rfl
@[simp] theorem CoreSt.set_acts (x : CoreSt) (d : RegId) (v : W20) : (x.set d v).acts = x.acts := by
  unfold CoreSt.set; split <;> rfl
@[simp] theorem CoreSt.set_creset (x : CoreSt) (d : RegId) (v : W20) : (x.set d v).creset = x.creset := by
  unfold CoreSt.set; split <;> rfl

@[simp] theorem CoreSt.advance_w (x : CoreSt) (n : Nat) : (x.advance n).w = x.w := rfl
@[simp] theorem CoreSt.advance_sw (x : CoreSt) (n : Nat) : (x.advance n).sw = x.sw := rfl
@[simp] theorem CoreSt.advance_pc (x : CoreSt) (n : Nat) : (x.advance n).pc = x.pc + BitVec.ofNat 16 n := rfl
@[simp] theorem CoreSt.advance_run (x : CoreSt) (n : Nat) : (x.advance n).run = x.run := rfl
@[simp] theorem CoreSt.advance_get (x : CoreSt) (n : Nat) (r : RegId) : (x.advance n).get r = x.get r := rfl

/-! ## Taking an exception (R108, R110) -/

/-- An exception of a core whose exception bank is free. -/
theorem State.takeException_free (s : State) (c : CoreId) (cls detail : Nat) (ea : W20) (ret : BitVec 16)
    (h : (s.core c).act.getLsbD 4 = false) :
    s.takeException c cls detail ea ret = s.setCore c { s.core c with
      epc := (s.core c).epc.set 4 (ret.setWidth 20)
      esw := (s.core c).esw.set 4 (s.core c).sw
      act := (s.core c).act ||| 0b10000
      sw := (s.core c).sw ||| 0x800F0
      ecause := BitVec.ofNat 20 (cls * 2 ^ 16 + detail)
      eaddr := ea
      pc := BitVec.ofNat 16 (cls - 1) } := by
  unfold State.takeException
  dsimp only
  rw [if_neg (by rw [h]; decide)]

/-- A double exception. -/
theorem State.takeException_double (s : State) (c : CoreId) (cls detail : Nat) (ea : W20) (ret : BitVec 16)
    (h : (s.core c).act.getLsbD 4 = true) :
    s.takeException c cls detail ea ret = (s.setCore c { s.core c with run := .doubleExc }).report 6 (BitVec.ofNat 20 c.val) := by
  unfold State.takeException
  dsimp only
  rw [if_pos h]

/-- An exception leaves every other core alone, but for pending bits that a report can set. -/
theorem State.takeException_other (s : State) {c d : CoreId} (cls detail : Nat) (ea : W20) (ret : BitVec 16) (h : d ≠ c) :
    ((s.takeException c cls detail ea ret).core d).bare = (s.core d).bare := by
  cases ha : (s.core c).act.getLsbD 4
  · rw [State.takeException_free s c _ _ _ _ ha, State.core_setCore_ne _ _ h]
  · rw [State.takeException_double s c _ _ _ _ ha, State.report_bare, State.core_setCore_ne _ _ h]

end Sys2Proof.Machine
end

