-- ==== Sys2Proof/Laws/Mem.lean ====
section
/-! SUPPORT. The laws of memory: what a byte, a loft word or a check state reads as after a write of another, and that
every write keeps the canonical form of its table. -/

namespace Sys2Proof.Machine

/-! ## Bytes of the RAMs -/

@[simp] theorem State.byte_setByte_same (s : State) (r : Ram) (a : Nat) (v : Byte) : (s.setByte r a v).byte r a = v := by
  cases r <;> simp [State.setByte, State.byte]

theorem State.byte_setByte_sram (s : State) (a b : Nat) (v : Byte) :
    (s.setByte .sram a v).byte .sram b = if b = a then v else s.byte .sram b := by
  simp [State.setByte, State.byte, tabGet_set, Ram.key]

theorem State.byte_setByte_pram (s : State) (c d : CoreId) (a b : Nat) (v : Byte) :
    (s.setByte (.pram c) a v).byte (.pram d) b =
      if (Ram.pram d).key b = (Ram.pram c).key a then v else s.byte (.pram d) b := by
  simp [State.setByte, State.byte, tabGet_set]

@[simp] theorem State.byte_setByte_sp (s : State) (c : CoreId) (a b : Nat) (v : Byte) :
    (s.setByte .sram a v).byte (.pram c) b = s.byte (.pram c) b := rfl

@[simp] theorem State.byte_setByte_ps (s : State) (c : CoreId) (a b : Nat) (v : Byte) :
    (s.setByte (.pram c) a v).byte .sram b = s.byte .sram b := rfl

/-- Bytes of the shared SRAM after a run of bytes is written. -/
theorem State.byte_setBytes_sram (l : List Byte) (s : State) (a b : Nat) :
    (s.setBytes .sram a l).byte .sram b =
      if a ≤ b then (l[b - a]?).getD (s.byte .sram b) else s.byte .sram b := by
  induction l generalizing s a with
  | nil => simp [State.setBytes]
  | cons v l ih =>
    rw [State.setBytes, ih, State.byte_setByte_sram]
    by_cases h : a ≤ b
    · by_cases e : b = a
      · subst e; simp
      · have h1 : a + 1 ≤ b := by omega
        have h2 : b - a = b - (a + 1) + 1 := by omega
        simp only [h, h1, e, if_true, if_false, h2, List.getElem?_cons_succ]
    · have h1 : ¬ a + 1 ≤ b := by omega
      have e : b ≠ a := by omega
      simp [h, h1, e]

@[simp] theorem State.byte_setBytes_sp (l : List Byte) (s : State) (c : CoreId) (a b : Nat) :
    (s.setBytes .sram a l).byte (.pram c) b = s.byte (.pram c) b := by
  induction l generalizing s a with
  | nil => rfl
  | cons v l ih => rw [State.setBytes, ih]; rfl

@[simp] theorem State.byte_setBytes_ps (l : List Byte) (s : State) (c : CoreId) (a b : Nat) :
    (s.setBytes (.pram c) a l).byte .sram b = s.byte .sram b := by
  induction l generalizing s a with
  | nil => rfl
  | cons v l ih => rw [State.setBytes, ih]; rfl

/-! ## What a write of bytes leaves alone -/

/-- A write of bytes changes its own table alone. -/
theorem State.setBytes_eq (l : List Byte) (s : State) (r : Ram) (a : Nat) :
    ∃ m p, s.setBytes r a l = { s with sram := m, pram := p } := by
  induction l generalizing s a with
  | nil => exact ⟨_, _, rfl⟩
  | cons v l ih =>
    obtain ⟨m, p, h⟩ := ih (s.setByte r a v) (a + 1)
    cases r <;> exact ⟨m, p, h⟩

/-! ## Reads and writes of memory without errors (R115, R116) -/

/-- Every check group that `n` bytes at `a` touch is good. -/
def State.allGood (s : State) (r : Ram) (a n : Nat) : Prop := ∀ g ∈ groupsOf a n, s.chk (r.group g) = .good

/-- No element of the list fails the test, so the filter keeps none. -/
theorem filter_none (l : List Nat) (p : Nat → Bool) (h : ∀ g ∈ l, p g = false) : l.filter p = [] :=
  List.filter_eq_nil_iff.2 (fun g hg => by simp [h g hg])

/-- A good group is neither bad nor poisoned. -/
theorem State.ramBad_good (s : State) (r : Ram) (g : Nat) (h : s.chk (r.group g) = .good) : s.ramBad r g = false := by
  unfold State.ramBad
  rw [h]
  rfl

/-- A read that meets no error gives the bytes and changes nothing. -/
theorem State.ramRead_good (s : State) (r : Ram) (a n : Nat) (h : s.allGood r a n) :
    s.ramRead r a n = (some (s.bytes r a n), s) := by
  have hb : (groupsOf a n).filter (s.ramBad r) = [] := filter_none _ _ (fun g hg => s.ramBad_good r g (h g hg))
  have hc : (groupsOf a n).filter (fun g => s.chk (r.group g) == .correctable) = [] :=
    filter_none _ _ (fun g hg => by rw [h g hg]; rfl)
  unfold State.ramRead
  rw [hb, hc]
  rfl

theorem State.chk_setChk_good (s : State) (k j : Nat) (h : s.chk k = .good) : (s.setChk k .good).chk j = s.chk j := by
  simp only [State.chk, State.setChk, tabGet_set]
  split
  · rename_i e; subst e; exact h.symm
  · rfl

/-- A write that meets no error stores its bytes; every check state reads as before. -/
theorem State.ramWrite_good (s : State) (r : Ram) (a : Nat) (bs : List Byte) (h : s.allGood r a bs.length) :
    ∃ m, s.ramWrite r a bs = ({ s with memChk := m } : State).setBytes r a bs ∧
      (∀ k, ({ s with memChk := m } : State).chk k = s.chk k) ∧ (tabWf chkDflt s.memChk → tabWf chkDflt m) := by
  let P : State → Prop := fun t => ∃ m, t = { s with memChk := m } ∧ (∀ k, t.chk k = s.chk k) ∧
    (tabWf chkDflt s.memChk → tabWf chkDflt m)
  let whole := fun g => decide (a ≤ g) && decide (g + 4 ≤ a + bs.length)
  have hP : P (((groupsOf a bs.length).filter whole).foldl (fun (t : State) g => t.setChk (r.group g) .good) s) := by
    apply foldl_inv P
    · intro t g hg ⟨m, e, hk, hw⟩
      have hc : t.chk (r.group g) = .good := by rw [hk]; exact h g (List.mem_filter.1 hg).1
      refine ⟨tabSet chkDflt m (r.group g) .good, by rw [e]; rfl, fun k => ?_, fun w => tabSet_wf _ _ _ _ (hw w)⟩
      rw [State.chk_setChk_good _ _ _ hc, hk]
    · exact ⟨s.memChk, rfl, fun _ => rfl, id⟩
  obtain ⟨m, e, hk, hw⟩ := hP
  refine ⟨m, ?_, by rw [← e]; exact hk, hw⟩
  have part : ∀ g ∈ (groupsOf a bs.length).filter (not ∘ whole), s.chk (r.group g) = .good :=
    fun g hg => h g (List.mem_filter.1 hg).1
  have hb : ((groupsOf a bs.length).filter (not ∘ whole)).filter (s.ramBad r) = [] :=
    filter_none _ _ (fun g hg => s.ramBad_good r g (part g hg))
  have hc : ((groupsOf a bs.length).filter (not ∘ whole)).filter (fun g => s.chk (r.group g) == .correctable) = [] :=
    filter_none _ _ (fun g hg => by rw [part g hg]; rfl)
  unfold State.ramWrite
  rw [List.partition_eq_filter_filter]
  dsimp only
  rw [← e]
  simp only [whole] at hb hc ⊢
  rw [hb, hc]
  rfl

/-! ## Canonical form -/

theorem State.setByte_wf (s : State) (r : Ram) (a : Nat) (v : Byte) (h : s.tablesWf) : (s.setByte r a v).tablesWf := by
  cases r
  · exact ⟨h.regs, tabSet_wf _ _ _ _ h.sram, h.pram, h.loft, h.memChk, h.flash⟩
  · exact ⟨h.regs, h.sram, tabSet_wf _ _ _ _ h.pram, h.loft, h.memChk, h.flash⟩

theorem State.setBytes_wf (l : List Byte) (s : State) (r : Ram) (a : Nat) (h : s.tablesWf) : (s.setBytes r a l).tablesWf := by
  induction l generalizing s a with
  | nil => exact h
  | cons v l ih => exact ih _ _ (s.setByte_wf r a v h)

theorem State.setRg_wf (s : State) (a : Nat) (v : W20) (h : s.tablesWf) : (s.setRg a v).tablesWf :=
  ⟨tabSet_wf _ _ _ _ h.regs, h.sram, h.pram, h.loft, h.memChk, h.flash⟩

theorem State.put_wf (s : State) (f : Field) (n : Nat) (h : s.tablesWf) : (s.put f n).tablesWf := s.setRg_wf _ _ h

theorem State.setChk_wf (s : State) (k : Nat) (c : Chk) (h : s.tablesWf) : (s.setChk k c).tablesWf :=
  ⟨h.regs, h.sram, h.pram, h.loft, tabSet_wf _ _ _ _ h.memChk, h.flash⟩

theorem State.setLoft_wf (s : State) (c : CoreId) (w : Nat) (v : W20) (h : s.tablesWf) : (s.setLoft c w v).tablesWf :=
  State.setChk_wf _ _ _ ⟨h.regs, h.sram, h.pram, tabSet_wf _ _ _ _ h.loft, h.memChk, h.flash⟩

theorem State.raise_wf (f : Field) (s : State) (h : s.tablesWf) : (s.raise f).tablesWf := by
  obtain ⟨l, cs, e⟩ := State.raise_eq f s
  rw [e]
  have g := s.put_wf f 1 h
  exact ⟨g.regs, g.sram, g.pram, g.loft, g.memChk, g.flash⟩

/-- A report keeps every table canonical. -/
theorem State.report_wf (code : Nat) (d : W20) (s : State) (h : s.tablesWf) : (State.report code d s).tablesWf :=
  ⟨State.report_regs_wf code d s h.regs, by simpa using h.sram, by simpa using h.pram, by simpa using h.loft,
    by simpa using h.memChk, by simpa using h.flash⟩

/-- Every table is canonical after reset. -/
theorem State.reset_wf : State.reset.tablesWf := by
  constructor <;> exact ⟨List.Pairwise.nil, by simp [State.reset]⟩

end Sys2Proof.Machine
end

