-- ==== Sys2Proof/Laws/PerInstr.lean ====
section
/-! SUPPORT. What holds of each command as syntax, one lemma per constructor: no encoded instruction has the first word
0xFFFFF, which R59 calls illegal, and so none can be mistaken for it. -/

namespace Sys2Proof.Laws.Words

/-- The command has no encoding whose first word is 0xFFFFF. -/
def Statement (i : Instr) : Prop := ∀ p ∈ encodeCore i, p.1 ≠ 0xFFFFF

theorem formA_ne (op d a b fn : Nat) (ho : op < 15) (hd : d < 16) (ha : a < 16) (hb : b < 16) (hf : fn < 16) :
    formA op d a b fn ≠ 0xFFFFF := by
  intro h
  have := congrArg BitVec.toNat h
  rw [show (0xFFFFF : W20).toNat = 1048575 from rfl] at this
  simp only [formA, BitVec.toNat_ofNat] at this
  omega

theorem formI_ne (op d a imm : Nat) (ho : op < 15) (hd : d < 16)
    (hi : a * 2 ^ 8 + imm < 2 ^ 12) : formI op d a imm ≠ 0xFFFFF := by
  intro h
  have := congrArg BitVec.toNat h
  rw [show (0xFFFFF : W20).toNat = 1048575 from rfl] at this
  simp only [formI, BitVec.toNat_ofNat] at this
  omega

theorem formI_jump_ne (op imm : Nat) (ho : op < 15) (hi : imm < 2 ^ 16) : formI op 0 0 imm ≠ 0xFFFFF := by
  intro h
  have := congrArg BitVec.toNat h
  rw [show (0xFFFFF : W20).toNat = 1048575 from rfl] at this
  simp only [formI, BitVec.toNat_ofNat] at this
  omega

theorem formI_trap_ne (imm : Nat) (hi : imm < 2 ^ 12) : formI 0xF 0 0 imm ≠ 0xFFFFF := by
  intro h
  have := congrArg BitVec.toNat h
  rw [show (0xFFFFF : W20).toNat = 1048575 from rfl] at this
  simp only [formI, BitVec.toNat_ofNat] at this
  omega

theorem iAdd (c : CoreId) (d : RegId) (a : RegId) (b : RegId) : Statement (.iAdd c d a b) := by
  rintro _ ⟨⟩
  apply formA_ne <;> omega

theorem iAdc (c : CoreId) (d : RegId) (a : RegId) (b : RegId) : Statement (.iAdc c d a b) := by
  rintro _ ⟨⟩
  apply formA_ne <;> omega

theorem iSub (c : CoreId) (d : RegId) (a : RegId) (b : RegId) : Statement (.iSub c d a b) := by
  rintro _ ⟨⟩
  apply formA_ne <;> omega

theorem iSbc (c : CoreId) (d : RegId) (a : RegId) (b : RegId) : Statement (.iSbc c d a b) := by
  rintro _ ⟨⟩
  apply formA_ne <;> omega

theorem iAnd (c : CoreId) (d : RegId) (a : RegId) (b : RegId) : Statement (.iAnd c d a b) := by
  rintro _ ⟨⟩
  apply formA_ne <;> omega

theorem iOr (c : CoreId) (d : RegId) (a : RegId) (b : RegId) : Statement (.iOr c d a b) := by
  rintro _ ⟨⟩
  apply formA_ne <;> omega

theorem iXor (c : CoreId) (d : RegId) (a : RegId) (b : RegId) : Statement (.iXor c d a b) := by
  rintro _ ⟨⟩
  apply formA_ne <;> omega

theorem iAndn (c : CoreId) (d : RegId) (a : RegId) (b : RegId) : Statement (.iAndn c d a b) := by
  rintro _ ⟨⟩
  apply formA_ne <;> omega

theorem iSll (c : CoreId) (d : RegId) (a : RegId) (b : RegId) : Statement (.iSll c d a b) := by
  rintro _ ⟨⟩
  apply formA_ne <;> omega

theorem iSrl (c : CoreId) (d : RegId) (a : RegId) (b : RegId) : Statement (.iSrl c d a b) := by
  rintro _ ⟨⟩
  apply formA_ne <;> omega

theorem iSra (c : CoreId) (d : RegId) (a : RegId) (b : RegId) : Statement (.iSra c d a b) := by
  rintro _ ⟨⟩
  apply formA_ne <;> omega

theorem iRor (c : CoreId) (d : RegId) (a : RegId) (b : RegId) : Statement (.iRor c d a b) := by
  rintro _ ⟨⟩
  apply formA_ne <;> omega

theorem iSlt (c : CoreId) (d : RegId) (a : RegId) (b : RegId) : Statement (.iSlt c d a b) := by
  rintro _ ⟨⟩
  apply formA_ne <;> omega

theorem iSltu (c : CoreId) (d : RegId) (a : RegId) (b : RegId) : Statement (.iSltu c d a b) := by
  rintro _ ⟨⟩
  apply formA_ne <;> omega

theorem iJalr (c : CoreId) (d : RegId) (a : RegId) : Statement (.iJalr c d a) := by
  rintro _ ⟨⟩
  apply formA_ne <;> omega

theorem iAddi (c : CoreId) (d : RegId) (a : RegId) (imm8 : BitVec 8) : Statement (.iAddi c d a imm8) := by
  rintro _ ⟨⟩
  apply formI_ne <;> omega

theorem iLui (c : CoreId) (d : RegId) (imm12 : BitVec 12) : Statement (.iLui c d imm12) := by
  rintro _ ⟨⟩
  apply formI_ne <;> omega

theorem iLdw (c : CoreId) (d : RegId) (a : RegId) (disp8 : BitVec 8) : Statement (.iLdw c d a disp8) := by
  rintro _ ⟨⟩
  apply formI_ne <;> omega

theorem iStw (c : CoreId) (d : RegId) (a : RegId) (disp8 : BitVec 8) : Statement (.iStw c d a disp8) := by
  rintro _ ⟨⟩
  apply formI_ne <;> omega

theorem iBranch (c : CoreId) (cond : BitVec 4) (disp12 : BitVec 12) : Statement (.iBranch c cond disp12) := by
  rintro _ ⟨⟩
  apply formI_ne <;> omega

theorem iJ (c : CoreId) (imm16 : BitVec 16) : Statement (.iJ c imm16) := by
  rintro _ ⟨⟩
  exact formI_jump_ne _ _ (by decide) imm16.isLt

theorem iCall (c : CoreId) (imm16 : BitVec 16) : Statement (.iCall c imm16) := by
  rintro _ ⟨⟩
  exact formI_jump_ne _ _ (by decide) imm16.isLt

theorem iPadd (c : CoreId) (d : RegId) (a : RegId) (b : RegId) : Statement (.iPadd c d a b) := by
  rintro _ ⟨⟩
  apply formA_ne <;> omega

theorem iPsub (c : CoreId) (d : RegId) (a : RegId) (b : RegId) : Statement (.iPsub c d a b) := by
  rintro _ ⟨⟩
  apply formA_ne <;> omega

theorem iPcmp (c : CoreId) (a : RegId) (b : RegId) : Statement (.iPcmp c a b) := by
  rintro _ ⟨⟩
  apply formA_ne <;> omega

theorem iPaddsx (c : CoreId) (d : RegId) (a : RegId) (b : RegId) : Statement (.iPaddsx c d a b) := by
  rintro _ ⟨⟩
  apply formA_ne <;> omega

theorem iPaddzx (c : CoreId) (d : RegId) (a : RegId) (b : RegId) : Statement (.iPaddzx c d a b) := by
  rintro _ ⟨⟩
  apply formA_ne <;> omega

theorem iPsll (c : CoreId) (d : RegId) (a : RegId) (b : RegId) : Statement (.iPsll c d a b) := by
  rintro _ ⟨⟩
  apply formA_ne <;> omega

theorem iPsrl (c : CoreId) (d : RegId) (a : RegId) (b : RegId) : Statement (.iPsrl c d a b) := by
  rintro _ ⟨⟩
  apply formA_ne <;> omega

theorem iPsra (c : CoreId) (d : RegId) (a : RegId) (b : RegId) : Statement (.iPsra c d a b) := by
  rintro _ ⟨⟩
  apply formA_ne <;> omega

theorem iPmov (c : CoreId) (d : RegId) (a : RegId) : Statement (.iPmov c d a) := by
  rintro _ ⟨⟩
  apply formA_ne <;> omega

theorem iMul (c : CoreId) (d : RegId) (a : RegId) (b : RegId) : Statement (.iMul c d a b) := by
  rintro _ ⟨⟩
  apply formA_ne <;> omega

theorem iMuluP (c : CoreId) (d : RegId) (a : RegId) (b : RegId) : Statement (.iMuluP c d a b) := by
  rintro _ ⟨⟩
  apply formA_ne <;> omega

theorem iMulsP (c : CoreId) (d : RegId) (a : RegId) (b : RegId) : Statement (.iMulsP c d a b) := by
  rintro _ ⟨⟩
  apply formA_ne <;> omega

theorem iMacuP (c : CoreId) (d : RegId) (a : RegId) (b : RegId) : Statement (.iMacuP c d a b) := by
  rintro _ ⟨⟩
  apply formA_ne <;> omega

theorem iMacsP (c : CoreId) (d : RegId) (a : RegId) (b : RegId) : Statement (.iMacsP c d a b) := by
  rintro _ ⟨⟩
  apply formA_ne <;> omega

theorem iDivuP (c : CoreId) (d : RegId) (a : RegId) (b : RegId) : Statement (.iDivuP c d a b) := by
  rintro _ ⟨⟩
  apply formA_ne <;> omega

theorem iDivsP (c : CoreId) (d : RegId) (a : RegId) (b : RegId) : Statement (.iDivsP c d a b) := by
  rintro _ ⟨⟩
  apply formA_ne <;> omega

theorem iDivu (c : CoreId) (d : RegId) (a : RegId) (b : RegId) : Statement (.iDivu c d a b) := by
  rintro _ ⟨⟩
  apply formA_ne <;> omega

theorem iDivs (c : CoreId) (d : RegId) (a : RegId) (b : RegId) : Statement (.iDivs c d a b) := by
  rintro _ ⟨⟩
  apply formA_ne <;> omega

theorem iRemu (c : CoreId) (d : RegId) (a : RegId) (b : RegId) : Statement (.iRemu c d a b) := by
  rintro _ ⟨⟩
  apply formA_ne <;> omega

theorem iRems (c : CoreId) (d : RegId) (a : RegId) (b : RegId) : Statement (.iRems c d a b) := by
  rintro _ ⟨⟩
  apply formA_ne <;> omega

theorem iSlli (c : CoreId) (d : RegId) (a : RegId) (n : BitVec 5) : Statement (.iSlli c d a n) := by
  rintro _ ⟨⟩
  apply formA_ne <;> omega

theorem iSrli (c : CoreId) (d : RegId) (a : RegId) (n : BitVec 5) : Statement (.iSrli c d a n) := by
  rintro _ ⟨⟩
  apply formA_ne <;> omega

theorem iSrai (c : CoreId) (d : RegId) (a : RegId) (n : BitVec 5) : Statement (.iSrai c d a n) := by
  rintro _ ⟨⟩
  apply formA_ne <;> omega

theorem iRori (c : CoreId) (d : RegId) (a : RegId) (n : BitVec 5) : Statement (.iRori c d a n) := by
  rintro _ ⟨⟩
  apply formA_ne <;> omega

theorem iExtu (c : CoreId) (d : RegId) (a : RegId) (pos : BitVec 5) (width : BitVec 5) : Statement (.iExtu c d a pos width) := by
  rintro _ ⟨⟩
  apply formA_ne <;> omega

theorem iExts (c : CoreId) (d : RegId) (a : RegId) (pos : BitVec 5) (width : BitVec 5) : Statement (.iExts c d a pos width) := by
  rintro _ ⟨⟩
  apply formA_ne <;> omega

theorem iIns (c : CoreId) (d : RegId) (a : RegId) (pos : BitVec 5) (width : BitVec 5) : Statement (.iIns c d a pos width) := by
  rintro _ ⟨⟩
  apply formA_ne <;> omega

theorem iClz (c : CoreId) (d : RegId) (a : RegId) : Statement (.iClz c d a) := by
  rintro _ ⟨⟩
  apply formA_ne <;> omega

theorem iPopc (c : CoreId) (d : RegId) (a : RegId) : Statement (.iPopc c d a) := by
  rintro _ ⟨⟩
  apply formA_ne <;> omega

theorem iLongAlu (c : CoreId) (fn : BitVec 4) (d : RegId) (a : RegId) (imm20 : W20) : Statement (.iLongAlu c fn d a imm20) := by
  rintro _ ⟨⟩
  apply formA_ne <;> omega

theorem iLi (c : CoreId) (d : RegId) (imm20 : W20) : Statement (.iLi c d imm20) := by
  rintro _ ⟨⟩
  apply formA_ne <;> omega

theorem iLdbu (c : CoreId) (d : RegId) (a : RegId) (imm20 : W20) : Statement (.iLdbu c d a imm20) := by
  rintro _ ⟨⟩
  apply formA_ne <;> omega

theorem iLdbs (c : CoreId) (d : RegId) (a : RegId) (imm20 : W20) : Statement (.iLdbs c d a imm20) := by
  rintro _ ⟨⟩
  apply formA_ne <;> omega

theorem iLdhu (c : CoreId) (d : RegId) (a : RegId) (imm20 : W20) : Statement (.iLdhu c d a imm20) := by
  rintro _ ⟨⟩
  apply formA_ne <;> omega

theorem iLdhs (c : CoreId) (d : RegId) (a : RegId) (imm20 : W20) : Statement (.iLdhs c d a imm20) := by
  rintro _ ⟨⟩
  apply formA_ne <;> omega

theorem iLdwl (c : CoreId) (d : RegId) (a : RegId) (imm20 : W20) : Statement (.iLdwl c d a imm20) := by
  rintro _ ⟨⟩
  apply formA_ne <;> omega

theorem iLdp (c : CoreId) (d : RegId) (a : RegId) (imm20 : W20) : Statement (.iLdp c d a imm20) := by
  rintro _ ⟨⟩
  apply formA_ne <;> omega

theorem iStb (c : CoreId) (d : RegId) (a : RegId) (imm20 : W20) : Statement (.iStb c d a imm20) := by
  rintro _ ⟨⟩
  apply formA_ne <;> omega

theorem iSth (c : CoreId) (d : RegId) (a : RegId) (imm20 : W20) : Statement (.iSth c d a imm20) := by
  rintro _ ⟨⟩
  apply formA_ne <;> omega

theorem iStwl (c : CoreId) (d : RegId) (a : RegId) (imm20 : W20) : Statement (.iStwl c d a imm20) := by
  rintro _ ⟨⟩
  apply formA_ne <;> omega

theorem iStp (c : CoreId) (d : RegId) (a : RegId) (imm20 : W20) : Statement (.iStp c d a imm20) := by
  rintro _ ⟨⟩
  apply formA_ne <;> omega

theorem iTrap (c : CoreId) (imm12 : BitVec 12) : Statement (.iTrap c imm12) := by
  rintro _ ⟨⟩
  exact formI_trap_ne _ imm12.isLt

theorem iTnow (c : CoreId) (d : RegId) : Statement (.iTnow c d) := by
  rintro _ ⟨⟩
  apply formA_ne <;> omega

theorem iWat (c : CoreId) (a : RegId) : Statement (.iWat c a) := by
  rintro _ ⟨⟩
  apply formA_ne <;> omega

theorem watRelease (c : CoreId) : Statement (.watRelease c) := by rintro _ ⟨⟩
theorem iArm (c : CoreId) (d : RegId) (a : RegId) (b : RegId) : Statement (.iArm c d a b) := by
  rintro _ ⟨⟩
  apply formA_ne <;> omega

theorem actionFire (temp : BitVec 10) : Statement (.actionFire temp) := by rintro _ ⟨⟩
theorem iPost (c : CoreId) (a : RegId) (b : RegId) : Statement (.iPost c a b) := by
  rintro _ ⟨⟩
  apply formA_ne <;> omega

theorem iSense (c : CoreId) (d : RegId) (a : RegId) : Statement (.iSense c d a) := by
  rintro _ ⟨⟩
  apply formA_ne <;> omega

theorem iWev (c : CoreId) (d : RegId) (a : RegId) (b : RegId) : Statement (.iWev c d a b) := by
  rintro _ ⟨⟩
  apply formA_ne <;> omega

theorem wevEvent (c : CoreId) : Statement (.wevEvent c) := by rintro _ ⟨⟩
theorem wevTimeout (c : CoreId) : Statement (.wevTimeout c) := by rintro _ ⟨⟩
theorem iAck (c : CoreId) (a : RegId) : Statement (.iAck c a) := by
  rintro _ ⟨⟩
  apply formA_ne <;> omega

theorem iTake (c : CoreId) (d : RegId) (a : RegId) (b : RegId) : Statement (.iTake c d a b) := by
  rintro _ ⟨⟩
  apply formA_ne <;> omega

theorem takeTimeout (c : CoreId) : Statement (.takeTimeout c) := by rintro _ ⟨⟩
theorem iGive (c : CoreId) (d : RegId) (a : RegId) : Statement (.iGive c d a) := by
  rintro _ ⟨⟩
  apply formA_ne <;> omega

theorem iXchg (c : CoreId) (d : RegId) (a : RegId) : Statement (.iXchg c d a) := by
  rintro _ ⟨⟩
  apply formA_ne <;> omega

theorem iFence (c : CoreId) : Statement (.iFence c) := by
  rintro _ ⟨⟩
  apply formA_ne <;> omega

theorem storeVisible (c : CoreId) : Statement (.storeVisible c) := by rintro _ ⟨⟩
theorem iRti (c : CoreId) : Statement (.iRti c) := by
  rintro _ ⟨⟩
  apply formA_ne <;> omega

theorem iSys (c : CoreId) (imm8 : BitVec 8) : Statement (.iSys c imm8) := by
  rintro _ ⟨⟩
  apply formI_ne <;> omega

theorem iMfs (c : CoreId) (d : RegId) (sr : BitVec 8) : Statement (.iMfs c d sr) := by
  rintro _ ⟨⟩
  apply formI_ne <;> omega

theorem iMts (c : CoreId) (sr : BitVec 8) (d : RegId) : Statement (.iMts c sr d) := by
  rintro _ ⟨⟩
  apply formI_ne <;> omega

theorem iHalt (c : CoreId) : Statement (.iHalt c) := by
  rintro _ ⟨⟩
  apply formA_ne <;> omega

theorem interruptEntry (c : CoreId) : Statement (.interruptEntry c) := by rintro _ ⟨⟩
theorem coreReset (c : CoreId) : Statement (.coreReset c) := by rintro _ ⟨⟩
theorem coreRun (c : CoreId) (run : Bool) : Statement (.coreRun c run) := by rintro _ ⟨⟩
theorem loftWrite (c : CoreId) (v : W20) : Statement (.loftWrite c v) := by rintro _ ⟨⟩
theorem loftRead (c : CoreId) : Statement (.loftRead c) := by rintro _ ⟨⟩
theorem poolWrite (v : W20) : Statement (.poolWrite v) := by rintro _ ⟨⟩
theorem vbatSample (vbat : BitVec 10) : Statement (.vbatSample vbat) := by rintro _ ⟨⟩
theorem mangerEvaluation : Statement .mangerEvaluation := by rintro _ ⟨⟩
theorem patienceExpiry : Statement .patienceExpiry := by rintro _ ⟨⟩
theorem extHolderModeWrite (n : Fin 4) (v : W20) : Statement (.extHolderModeWrite n v) := by rintro _ ⟨⟩
theorem tiedPinAssert (n : Fin 4) (level : Bool) : Statement (.tiedPinAssert n level) := by rintro _ ⟨⟩
theorem reservationRequest (c : CoreId) (e : Fin 16) : Statement (.reservationRequest c e) := by rintro _ ⟨⟩
theorem hitchRead (addr : W20) (n : Nat) : Statement (.hitchRead addr n) := by rintro _ ⟨⟩
theorem hitchWrite (addr : W20) (bytes : List Byte) : Statement (.hitchWrite addr bytes) := by rintro _ ⟨⟩
theorem hitchStatus (cmd : Byte) (n : Nat) : Statement (.hitchStatus cmd n) := by rintro _ ⟨⟩
theorem hspRingWrite (v : W20) : Statement (.hspRingWrite v) := by rintro _ ⟨⟩
theorem hspH2cWrite (v : W20) : Statement (.hspH2cWrite v) := by rintro _ ⟨⟩
theorem flashProgram (len : BitVec 9) (pageOfs : BitVec 8) : Statement (.flashProgram len pageOfs) := by rintro _ ⟨⟩
theorem flashErase : Statement .flashErase := by rintro _ ⟨⟩
theorem flashOpDone (ok : Bool) : Statement (.flashOpDone ok) := by rintro _ ⟨⟩
theorem uartRxByte (b : Byte) (ferr : Bool) (brk : Bool) : Statement (.uartRxByte b ferr brk) := by rintro _ ⟨⟩
theorem uartTxByteSent : Statement .uartTxByteSent := by rintro _ ⟨⟩
theorem uartDataRead : Statement .uartDataRead := by rintro _ ⟨⟩
theorem uartDataWrite (b : Byte) : Statement (.uartDataWrite b) := by rintro _ ⟨⟩
theorem gpioInputChange (p : Fin 24) (level : Bool) : Statement (.gpioInputChange p level) := by rintro _ ⟨⟩
theorem busTimeout (who : BusMaster) : Statement (.busTimeout who) := by rintro _ ⟨⟩
theorem radioReq (req : BitVec 2) : Statement (.radioReq req) := by rintro _ ⟨⟩
theorem listenWindowOpen (chains : BitVec 2) : Statement (.listenWindowOpen chains) := by rintro _ ⟨⟩
theorem listenWindowClose : Statement .listenWindowClose := by rintro _ ⟨⟩
theorem radioTransitionDone : Statement .radioTransitionDone := by rintro _ ⟨⟩
theorem rxLoWrite (int : BitVec 7) (frac : W20) : Statement (.rxLoWrite int frac) := by rintro _ ⟨⟩
theorem synthLock (tx : Bool) : Statement (.synthLock tx) := by rintro _ ⟨⟩
theorem gainWrite (chainB : Bool) (v : W20) : Statement (.gainWrite chainB v) := by rintro _ ⟨⟩
theorem overloadDetect (chainB : Bool) : Statement (.overloadDetect chainB) := by rintro _ ⟨⟩
theorem energyWindowEnd (chainB : Bool) (level : BitVec 12) : Statement (.energyWindowEnd chainB level) := by rintro _ ⟨⟩
theorem txHoldCheck : Statement .txHoldCheck := by rintro _ ⟨⟩
theorem txLate : Statement .txLate := by rintro _ ⟨⟩
theorem talkReached : Statement .talkReached := by rintro _ ⟨⟩
theorem frameSent : Statement .frameSent := by rintro _ ⟨⟩
theorem turnBackSwap : Statement .turnBackSwap := by rintro _ ⟨⟩
theorem maskWindowEnd (meas : List (Nat×Nat)) : Statement (.maskWindowEnd meas) := by rintro _ ⟨⟩
theorem lockLost (tx : Bool) (temp : BitVec 10) : Statement (.lockLost tx temp) := by rintro _ ⟨⟩
theorem paStep : Statement .paStep := by rintro _ ⟨⟩
theorem paStepGrant : Statement .paStepGrant := by rintro _ ⟨⟩
theorem calRxsyn (temp : BitVec 10) : Statement (.calRxsyn temp) := by rintro _ ⟨⟩
theorem calTxsyn (temp : BitVec 10) : Statement (.calTxsyn temp) := by rintro _ ⟨⟩
theorem calTpm (temp : BitVec 10) : Statement (.calTpm temp) := by rintro _ ⟨⟩
theorem calIqa (temp : BitVec 10) : Statement (.calIqa temp) := by rintro _ ⟨⟩
theorem calIqb (temp : BitVec 10) : Statement (.calIqb temp) := by rintro _ ⟨⟩
theorem calStepDone (trim : W20) (temp : BitVec 10) : Statement (.calStepDone trim temp) := by rintro _ ⟨⟩
theorem dieTempSample (temp : BitVec 10) : Statement (.dieTempSample temp) := by rintro _ ⟨⟩
theorem tempCalStart (temp : BitVec 10) : Statement (.tempCalStart temp) := by rintro _ ⟨⟩
theorem synthCalDone (tx : Bool) : Statement (.synthCalDone tx) := by rintro _ ⟨⟩
theorem stcPlanWrite (v : W20) : Statement (.stcPlanWrite v) := by rintro _ ⟨⟩
theorem stcMapWrite (k : Fin 16) (v : W20) : Statement (.stcMapWrite k v) := by rintro _ ⟨⟩
theorem stallEnable (p : Pos) (en : Bool) (byAction : Bool) : Statement (.stallEnable p en byAction) := by rintro _ ⟨⟩
theorem preambleDetect (p : Pos) (qualA : BitVec 10) (qualB : BitVec 10) : Statement (.preambleDetect p qualA qualB) := by rintro _ ⟨⟩
theorem aerialChoice (p : Pos) (meanA : BitVec 10) (meanB : BitVec 10) : Statement (.aerialChoice p meanA meanB) := by rintro _ ⟨⟩
theorem syncDeclared (p : Pos) (rxA : AerialRx) (rxB : AerialRx) : Statement (.syncDeclared p rxA rxB) := by rintro _ ⟨⟩
theorem nosync (p : Pos) : Statement (.nosync p) := by rintro _ ⟨⟩
theorem packetReceived (p : Pos) (body : List Bool) : Statement (.packetReceived p body) := by rintro _ ⟨⟩
theorem stlTsloRead (p : Pos) : Statement (.stlTsloRead p) := by rintro _ ⟨⟩
theorem stcGive (v : W20) : Statement (.stcGive v) := by rintro _ ⟨⟩
theorem poolConfigWrite (q : Fin 2) (which : PoolReg) (v : W20) : Statement (.poolConfigWrite q which v) := by rintro _ ⟨⟩
theorem headerReceived (p : Pos) (soft : List Int) : Statement (.headerReceived p soft) := by rintro _ ⟨⟩
theorem blockQueued (p : Pos) (soft : List Int) : Statement (.blockQueued p soft) := by rintro _ ⟨⟩
theorem decodeStart : Statement .decodeStart := by rintro _ ⟨⟩
theorem decodeDone (iters : Nat) (info parity : List Bool) : Statement (.decodeDone iters info parity) := by rintro _ ⟨⟩
theorem decoderIdle : Statement .decoderIdle := by rintro _ ⟨⟩
theorem decHoldWrite (hold : Bool) : Statement (.decHoldWrite hold) := by rintro _ ⟨⟩
theorem txSlotReadyWrite (k : Fin 16) (v : W20) : Statement (.txSlotReadyWrite k v) := by rintro _ ⟨⟩
theorem sramErr (addr : W20) : Statement (.sramErr addr) := by rintro _ ⟨⟩
theorem slotBoundary : Statement .slotBoundary := by rintro _ ⟨⟩
theorem schSlotlenWrite (v : W20) : Statement (.schSlotlenWrite v) := by rintro _ ⟨⟩
theorem schSyncofsWrite (v : W20) : Statement (.schSyncofsWrite v) := by rintro _ ⟨⟩
theorem schLoad : Statement .schLoad := by rintro _ ⟨⟩
theorem schRunSet : Statement .schRunSet := by rintro _ ⟨⟩
theorem schAsnloRead : Statement .schAsnloRead := by rintro _ ⟨⟩
theorem hopWrite (k : Option (Fin 22)) (v : W20) : Statement (.hopWrite k v) := by rintro _ ⟨⟩
theorem schHopqRead : Statement .schHopqRead := by rintro _ ⟨⟩
theorem knockCaught (p : Pos) (rxA : AerialRx) (rxB : AerialRx) : Statement (.knockCaught p rxA rxB) := by rintro _ ⟨⟩
theorem countdownReceived (p : Pos) (fields : BitVec 52) : Statement (.countdownReceived p fields) := by rintro _ ⟨⟩
theorem nbtFind : Statement .nbtFind := by rintro _ ⟨⟩
theorem nbtAdd (i : BitVec 11) : Statement (.nbtAdd i) := by rintro _ ⟨⟩
theorem nbtClear (i : BitVec 11) : Statement (.nbtClear i) := by rintro _ ⟨⟩
theorem nbtMiss (i : BitVec 11) : Statement (.nbtMiss i) := by rintro _ ⟨⟩
theorem nbtSet (i : BitVec 11) : Statement (.nbtSet i) := by rintro _ ⟨⟩
theorem nbtPredict (i : BitVec 11) : Statement (.nbtPredict i) := by rintro _ ⟨⟩
theorem nbtTsrc1 (i : BitVec 11) : Statement (.nbtTsrc1 i) := by rintro _ ⟨⟩
theorem nbtTsrc0 (i : BitVec 11) : Statement (.nbtTsrc0 i) := by rintro _ ⟨⟩
theorem nbtCommandDone : Statement .nbtCommandDone := by rintro _ ⟨⟩
theorem meshTimeStep (delta : W40) : Statement (.meshTimeStep delta) := by rintro _ ⟨⟩
theorem stepSweepDone : Statement .stepSweepDone := by rintro _ ⟨⟩
theorem relayFire (temp : BitVec 10) : Statement (.relayFire temp) := by rintro _ ⟨⟩
theorem relayTry : Statement .relayTry := by rintro _ ⟨⟩
theorem immediateAckStart (temp : BitVec 10) : Statement (.immediateAckStart temp) := by rintro _ ⟨⟩
theorem ackDecision : Statement .ackDecision := by rintro _ ⟨⟩
theorem ackWaitTimeout : Statement .ackWaitTimeout := by rintro _ ⟨⟩
theorem ackPrimWrite (v : W20) : Statement (.ackPrimWrite v) := by rintro _ ⟨⟩
theorem rcCopy (addr : W20) : Statement (.rcCopy addr) := by rintro _ ⟨⟩
theorem rcCopyDone : Statement .rcCopyDone := by rintro _ ⟨⟩
theorem foldEnable (v : W20) : Statement (.foldEnable v) := by rintro _ ⟨⟩
theorem foldClearDone : Statement .foldClearDone := by rintro _ ⟨⟩
theorem foldErr : Statement .foldErr := by rintro _ ⟨⟩
theorem relayDisable : Statement .relayDisable := by rintro _ ⟨⟩
theorem keymapWrite (k : Fin 64) (v : W20) : Statement (.keymapWrite k v) := by rintro _ ⟨⟩
theorem trGenerate (src : Source) (slot : Fin 64) : Statement (.trGenerate src slot) := by rintro _ ⟨⟩
theorem trImportEcdh (src : Source) (slot : Fin 64) : Statement (.trImportEcdh src slot) := by rintro _ ⟨⟩
theorem trImportKek (src : Source) (slot : Fin 64) : Statement (.trImportKek src slot) := by rintro _ ⟨⟩
theorem trErase (src : Source) (slot : Fin 64) : Statement (.trErase src slot) := by rintro _ ⟨⟩
theorem trExport (src : Source) (slot : Fin 64) : Statement (.trExport src slot) := by rintro _ ⟨⟩
theorem trRestore (src : Source) (slot : Fin 64) : Statement (.trRestore src slot) := by rintro _ ⟨⟩
theorem trCommandDone : Statement .trCommandDone := by rintro _ ⟨⟩
theorem cphSubmit (src : Fin 7) (addr : W20) : Statement (.cphSubmit src addr) := by rintro _ ⟨⟩
theorem cipherAccept : Statement .cipherAccept := by rintro _ ⟨⟩
theorem cipherRequestStart : Statement .cipherRequestStart := by rintro _ ⟨⟩
theorem cipherRequestDone : Statement .cipherRequestDone := by rintro _ ⟨⟩
theorem cipherIdle : Statement .cipherIdle := by rintro _ ⟨⟩
theorem hashInit : Statement .hashInit := by rintro _ ⟨⟩
theorem hashUpdate : Statement .hashUpdate := by rintro _ ⟨⟩
theorem hashFinal : Statement .hashFinal := by rintro _ ⟨⟩
theorem hpkVerify : Statement .hpkVerify := by rintro _ ⟨⟩
theorem hpkSignId (src : Source) : Statement (.hpkSignId src) := by rintro _ ⟨⟩
theorem hpkIdRecord : Statement .hpkIdRecord := by rintro _ ⟨⟩
theorem hpkCommandDone : Statement .hpkCommandDone := by rintro _ ⟨⟩
theorem trngDataRead : Statement .trngDataRead := by rintro _ ⟨⟩
theorem trngHealthFail (rct : Bool) (apt : Bool) : Statement (.trngHealthFail rct apt) := by rintro _ ⟨⟩
theorem trngRestart (passed : Bool) : Statement (.trngRestart passed) := by rintro _ ⟨⟩
theorem koRootSet (src : Source) : Statement (.koRootSet src) := by rintro _ ⟨⟩
theorem koRootRevoke (src : Source) : Statement (.koRootRevoke src) := by rintro _ ⟨⟩
theorem koSeal (src : Source) : Statement (.koSeal src) := by rintro _ ⟨⟩
theorem koDbgUnlock (src : Source) : Statement (.koDbgUnlock src) := by rintro _ ⟨⟩
theorem chdCtlWrite (v : W20) : Statement (.chdCtlWrite v) := by rintro _ ⟨⟩
theorem bypassChange : Statement .bypassChange := by rintro _ ⟨⟩
theorem repeatLock (portA : Bool) (portB : Bool) : Statement (.repeatLock portA portB) := by rintro _ ⟨⟩
theorem repeatRelease : Statement .repeatRelease := by rintro _ ⟨⟩
theorem bayStart (e : Fin 32) : Statement (.bayStart e) := by rintro _ ⟨⟩
theorem bayEnd : Statement .bayEnd := by rintro _ ⟨⟩
theorem ctxReadyWrite (k : Fin 8) (v : W20) : Statement (.ctxReadyWrite k v) := by rintro _ ⟨⟩
theorem chordFrameReceived (port : Port) (rx : ChordRx) : Statement (.chordFrameReceived port rx) := by rintro _ ⟨⟩
theorem chordFrameSent : Statement .chordFrameSent := by rintro _ ⟨⟩
theorem rangingBurstReceived (port : Port) (frac : BitVec 8) : Statement (.rangingBurstReceived port frac) := by rintro _ ⟨⟩
theorem rangingEchoReceived (port : Port) (ns : Nat) : Statement (.rangingEchoReceived port ns) := by rintro _ ⟨⟩
theorem norange (port : Port) : Statement (.norange port) := by rintro _ ⟨⟩
theorem timeFrameEmit (frac : BitVec 8) : Statement (.timeFrameEmit frac) := by rintro _ ⟨⟩
theorem chordKnocked (syms : BitVec 64) : Statement (.chordKnocked syms) := by rintro _ ⟨⟩
theorem dmaStart (ch : Fin 12) : Statement (.dmaStart ch) := by rintro _ ⟨⟩
theorem dmaDescriptorFetch (ch : Fin 12) : Statement (.dmaDescriptorFetch ch) := by rintro _ ⟨⟩
theorem dmaChunkRead (ch : Fin 16) : Statement (.dmaChunkRead ch) := by rintro _ ⟨⟩
theorem dmaChunkWritten : Statement .dmaChunkWritten := by rintro _ ⟨⟩
theorem dmaDescriptorComplete (ch : Fin 12) : Statement (.dmaDescriptorComplete ch) := by rintro _ ⟨⟩
theorem dmaAbort (ch : Fin 12) : Statement (.dmaAbort ch) := by rintro _ ⟨⟩
theorem dmaResume (ch : Fin 12) : Statement (.dmaResume ch) := by rintro _ ⟨⟩
theorem dmaHaltRelease : Statement .dmaHaltRelease := by rintro _ ⟨⟩
theorem dmaIdle : Statement .dmaIdle := by rintro _ ⟨⟩
theorem latticeEventDelivery (ch : Fin 64) : Statement (.latticeEventDelivery ch) := by rintro _ ⟨⟩
theorem storm (ch : Fin 64) : Statement (.storm ch) := by rintro _ ⟨⟩
theorem latticeConfigWrite (src : Source) (ofs : BitVec 12) (v : W20) : Statement (.latticeConfigWrite src ofs v) := by rintro _ ⟨⟩
theorem timerWrap (i : Fin 8) : Statement (.timerWrap i) := by rintro _ ⟨⟩
theorem timerMatch (i : Fin 8) : Statement (.timerMatch i) := by rintro _ ⟨⟩
theorem tmrCtlWrite (i : Fin 8) (v : W20) : Statement (.tmrCtlWrite i v) := by rintro _ ⟨⟩
theorem tmrCntWrite (i : Fin 8) (v : W20) : Statement (.tmrCntWrite i v) := by rintro _ ⟨⟩
theorem tmrCntRead (i : Fin 8) : Statement (.tmrCntRead i) := by rintro _ ⟨⟩
theorem tmrTopCmpWrite (i : Fin 8) (cmp : Bool) (v : W20) : Statement (.tmrTopCmpWrite i cmp v) := by rintro _ ⟨⟩
theorem timerEventInput (i : Fin 8) : Statement (.timerEventInput i) := by rintro _ ⟨⟩
theorem tmrGstart (v : W20) : Statement (.tmrGstart v) := by rintro _ ⟨⟩
theorem rtcSecond : Statement .rtcSecond := by rintro _ ⟨⟩
theorem rtcSubsecRead : Statement .rtcSubsecRead := by rintro _ ⟨⟩
theorem rtcApplySub : Statement .rtcApplySub := by rintro _ ⟨⟩
theorem rtcApplyTime : Statement .rtcApplyTime := by rintro _ ⟨⟩
theorem rtcApplyDate : Statement .rtcApplyDate := by rintro _ ⟨⟩
theorem rtcStagedApply : Statement .rtcStagedApply := by rintro _ ⟨⟩
theorem rtcShift (n : BitVec 16) : Statement (.rtcShift n) := by rintro _ ⟨⟩
theorem rtcAlarm (k : Fin 2) : Statement (.rtcAlarm k) := by rintro _ ⟨⟩
theorem backupStoreComplete : Statement .backupStoreComplete := by rintro _ ⟨⟩
theorem bkpInvalid : Statement .bkpInvalid := by rintro _ ⟨⟩
theorem slkFail : Statement .slkFail := by rintro _ ⟨⟩
theorem slkCfgWrite (v : W20) : Statement (.slkCfgWrite v) := by rintro _ ⟨⟩
theorem refFail : Statement .refFail := by rintro _ ⟨⟩
theorem refRetry : Statement .refRetry := by rintro _ ⟨⟩
theorem referenceReady : Statement .referenceReady := by rintro _ ⟨⟩
theorem systemPllLock : Statement .systemPllLock := by rintro _ ⟨⟩
theorem cdivWrite (d : BitVec 2) : Statement (.cdivWrite d) := by rintro _ ⟨⟩
theorem rateWindowEnd (n : Nat) : Statement (.rateWindowEnd n) := by rintro _ ⟨⟩
theorem doze : Statement .doze := by rintro _ ⟨⟩
theorem enterRest : Statement .enterRest := by rintro _ ⟨⟩
theorem enterOrbit : Statement .enterOrbit := by rintro _ ⟨⟩
theorem enterDormant : Statement .enterDormant := by rintro _ ⟨⟩
theorem entryCancel : Statement .entryCancel := by rintro _ ⟨⟩
theorem sleepEntryBegin : Statement .sleepEntryBegin := by rintro _ ⟨⟩
theorem sleepStateEntered : Statement .sleepStateEntered := by rintro _ ⟨⟩
theorem wake (ws : WakeSource) : Statement (.wake ws) := by rintro _ ⟨⟩
theorem wakeRunReached : Statement .wakeRunReached := by rintro _ ⟨⟩
theorem actionWake : Statement .actionWake := by rintro _ ⟨⟩
theorem dormantExit (ws : WakeSource) : Statement (.dormantExit ws) := by rintro _ ⟨⟩
theorem orbitPassStart : Statement .orbitPassStart := by rintro _ ⟨⟩
theorem orbitPrepare : Statement .orbitPrepare := by rintro _ ⟨⟩
theorem orbitListen : Statement .orbitListen := by rintro _ ⟨⟩
theorem orbitCheck : Statement .orbitCheck := by rintro _ ⟨⟩
theorem orbitPause : Statement .orbitPause := by rintro _ ⟨⟩
theorem orbitEnd : Statement .orbitEnd := by rintro _ ⟨⟩
theorem orbitStepEnd (hit : Bool) : Statement (.orbitStepEnd hit) := by rintro _ ⟨⟩
theorem orbitPassSleep : Statement .orbitPassSleep := by rintro _ ⟨⟩
theorem vbatBrownout (below : Bool) : Statement (.vbatBrownout below) := by rintro _ ⟨⟩
theorem yardEnable : Statement .yardEnable := by rintro _ ⟨⟩
theorem yardDisable : Statement .yardDisable := by rintro _ ⟨⟩
theorem trainingDone (ok : Bool) (stp : W20) : Statement (.trainingDone ok stp) := by rintro _ ⟨⟩
theorem yardRequestServe (ch : Fin 2) : Statement (.yardRequestServe ch) := by rintro _ ⟨⟩
theorem yardRefresh (ch : Fin 2) : Statement (.yardRefresh ch) := by rintro _ ⟨⟩
theorem yardRetrain : Statement .yardRetrain := by rintro _ ⟨⟩
theorem yardRetrainTrigger (ch : Fin 2) : Statement (.yardRetrainTrigger ch) := by rintro _ ⟨⟩
theorem yardRetrainPauseDone (ch : Fin 2) : Statement (.yardRetrainPauseDone ch) := by rintro _ ⟨⟩
theorem yardCommandRetire (ch : Fin 2) : Statement (.yardCommandRetire ch) := by rintro _ ⟨⟩
theorem yardAlert (ch : Fin 2) : Statement (.yardAlert ch) := by rintro _ ⟨⟩
theorem yardSelfRefreshEnter : Statement .yardSelfRefreshEnter := by rintro _ ⟨⟩
theorem yardSelfRefreshExit : Statement .yardSelfRefreshExit := by rintro _ ⟨⟩
theorem yardSupplyLost : Statement .yardSupplyLost := by rintro _ ⟨⟩
theorem yardInit : Statement .yardInit := by rintro _ ⟨⟩
theorem yardInitDone : Statement .yardInitDone := by rintro _ ⟨⟩
theorem yardSoftRepair (v : W20) (noResource : Bool) : Statement (.yardSoftRepair v noResource) := by rintro _ ⟨⟩
theorem yardHardRepair (v : W20) (noResource : Bool) : Statement (.yardHardRepair v noResource) := by rintro _ ⟨⟩
theorem yardRepairDone (ok : Bool) : Statement (.yardRepairDone ok) := by rintro _ ⟨⟩
theorem resetPor : Statement .resetPor := by rintro _ ⟨⟩
theorem resetPin : Statement .resetPin := by rintro _ ⟨⟩
theorem resetSoftWarm (src : Source) : Statement (.resetSoftWarm src) := by rintro _ ⟨⟩
theorem resetSoftCold (src : Source) : Statement (.resetSoftCold src) := by rintro _ ⟨⟩
theorem resetRecovery (src : Source) : Statement (.resetRecovery src) := by rintro _ ⟨⟩
theorem keeperSequence (st : SelfTest) : Statement (.keeperSequence st) := by rintro _ ⟨⟩
theorem keeperShortSequence (recovLow : Bool) : Statement (.keeperShortSequence recovLow) := by rintro _ ⟨⟩
theorem halterModeInForce : Statement .halterModeInForce := by rintro _ ⟨⟩
theorem koBoot (src : Source) : Statement (.koBoot src) := by rintro _ ⟨⟩
theorem koFailsClear (src : Source) : Statement (.koFailsClear src) := by rintro _ ⟨⟩
theorem koCeilSet (src : Source) : Statement (.koCeilSet src) := by rintro _ ⟨⟩
theorem koHalterSet (src : Source) : Statement (.koHalterSet src) := by rintro _ ⟨⟩
theorem koEnergyClass (src : Source) : Statement (.koEnergyClass src) := by rintro _ ⟨⟩
theorem koFloorRaise (src : Source) : Statement (.koFloorRaise src) := by rintro _ ⟨⟩
theorem keeperOrderDone (otpOk : Bool) : Statement (.keeperOrderDone otpOk) := by rintro _ ⟨⟩
theorem startTimeout : Statement .startTimeout := by rintro _ ⟨⟩
theorem kmbWdogWrite (v : W20) : Statement (.kmbWdogWrite v) := by rintro _ ⟨⟩
theorem declareService (src : Source) : Statement (.declareService src) := by rintro _ ⟨⟩
theorem faultReport (code : Fin 36) (detail : W20) : Statement (.faultReport code detail) := by rintro _ ⟨⟩
theorem fatalWarmReset : Statement .fatalWarmReset := by rintro _ ⟨⟩
theorem fltSrcClear (k : Fin 2) (v : W20) : Statement (.fltSrcClear k v) := by rintro _ ⟨⟩
theorem fltRelease (v : W20) : Statement (.fltRelease v) := by rintro _ ⟨⟩
theorem trackerHalving : Statement .trackerHalving := by rintro _ ⟨⟩
theorem laneWithdraw (lane : BitVec 6) : Statement (.laneWithdraw lane) := by rintro _ ⟨⟩
theorem ageingCheck (margin : BitVec 7) : Statement (.ageingCheck margin) := by rintro _ ⟨⟩
theorem updManifest (src : Source) : Statement (.updManifest src) := by rintro _ ⟨⟩
theorem updResume (src : Source) : Statement (.updResume src) := by rintro _ ⟨⟩
theorem updPiece (src : Source) : Statement (.updPiece src) := by rintro _ ⟨⟩
theorem updApply (src : Source) (part : BitVec 3) : Statement (.updApply src part) := by rintro _ ⟨⟩
theorem updConfirm (src : Source) (part : BitVec 3) : Statement (.updConfirm src part) := by rintro _ ⟨⟩
theorem updPieceOut (src : Source) (part : BitVec 3) (idx : BitVec 14) : Statement (.updPieceOut src part idx) := by rintro _ ⟨⟩
theorem updAbandon (src : Source) : Statement (.updAbandon src) := by rintro _ ⟨⟩
theorem updCommandDone (flashOk : Bool) : Statement (.updCommandDone flashOk) := by rintro _ ⟨⟩
theorem updAreaWrite (q : Fin 4) (v : W20) : Statement (.updAreaWrite q v) := by rintro _ ⟨⟩
theorem recoveryBlock (ifc : RecovIface) (payload : List Byte) : Statement (.recoveryBlock ifc payload) := by rintro _ ⟨⟩
theorem recoveryStatus : Statement .recoveryStatus := by rintro _ ⟨⟩
theorem recoveryImageJudged : Statement .recoveryImageJudged := by rintro _ ⟨⟩
theorem padCfgWrite (v : W20) : Statement (.padCfgWrite v) := by rintro _ ⟨⟩
theorem registerWrite (src : Source) (addr : W20) (v : W20) : Statement (.registerWrite src addr v) := by rintro _ ⟨⟩
theorem illegalOp (c : CoreId) (w : W20) (x : W20) : Statement (.illegalOp c w x) := by rintro _ ⟨⟩
theorem fetchFault (c : CoreId) (addr : BitVec 16) (twoWord : Bool) : Statement (.fetchFault c addr twoWord) := by rintro _ ⟨⟩
theorem supplyGoodChange (bank : Supply) (good : Bool) : Statement (.supplyGoodChange bank good) := by rintro _ ⟨⟩
theorem halterDataFrameStart (k : Fin 8) : Statement (.halterDataFrameStart k) := by rintro _ ⟨⟩
theorem rangingPhase2 : Statement .rangingPhase2 := by rintro _ ⟨⟩
theorem fastRcRunning : Statement .fastRcRunning := by rintro _ ⟨⟩

end Sys2Proof.Laws.Words
end

