-- ==== Sys2Proof/Machine/Pins.lean ====
section
/-! DEFINITION. The balls with their banks and types (R500), and the state of the pins as functions of the device's state
(R133, R136, R149, R155, R393, R422, R429, R458, R501).  No command reads one but GPIO_IN, which Ops.lean has. -/

namespace Sys2Proof.Machine

/-! ## Banks and types (R500) -/

/-- The balls, by group; an index counts within the group. -/
inductive Ball
  | supply | lx | vcore | vdecRf | gnd | chA | chB | rfinA | rfinB | rfout | xs | xr
  | paEn | lnaEn | trSw | antA | antB | refEn | hostIrq | uartTx | hspiDo | paVctl | faultN
  | gpio (n : Fin 24) | dbgIo | uartRx | hspiCk | hspiCsN | hspiDi | recovN | dbgCk | dbgEn | dbgRstN
  | xspiCk | xspiCsN | xspiRstN | xspiDqs | xspiIo (n : Fin 8) | dram | ddrZq
deriving DecidableEq, Repr

/-- A bank: a supply, or one of the device's own. -/
inductive Bank
  | none | vbat | internal | radio | backup | vio | vfl | vddq
deriving DecidableEq, Repr

inductive BallType
  | supply | switch | sense | decoupling | ground | chordPort | rfIn | rfOut | crystal | pushPull | analogue | openDrain
  | bidir | input | ddr
deriving DecidableEq, Repr

def Ball.bank : Ball → Bank
  | .supply | .vcore | .vdecRf | .gnd => .none
  | .lx => .vbat
  | .chA | .chB => .internal
  | .rfinA | .rfinB | .rfout | .xr => .radio
  | .xs => .backup
  | .xspiCk | .xspiCsN | .xspiRstN | .xspiDqs | .xspiIo _ => .vfl
  | .dram | .ddrZq => .vddq
  | .paEn | .lnaEn | .trSw | .antA | .antB | .refEn | .hostIrq | .uartTx | .hspiDo | .paVctl | .faultN | .gpio _ | .dbgIo
  | .uartRx | .hspiCk | .hspiCsN | .hspiDi | .recovN | .dbgCk | .dbgEn | .dbgRstN => .vio

def Ball.type : Ball → BallType
  | .supply => .supply
  | .lx => .switch
  | .vcore => .sense
  | .vdecRf => .decoupling
  | .gnd => .ground
  | .chA | .chB => .chordPort
  | .rfinA | .rfinB => .rfIn
  | .rfout => .rfOut
  | .xs | .xr => .crystal
  | .paEn | .lnaEn | .trSw | .antA | .antB | .refEn | .hostIrq | .uartTx | .hspiDo => .pushPull
  | .paVctl => .analogue
  | .faultN => .openDrain
  | .gpio _ | .dbgIo | .xspiDqs | .xspiIo _ => .bidir
  | .uartRx | .hspiCk | .hspiCsN | .hspiDi | .recovN | .dbgCk | .dbgEn | .dbgRstN => .input
  | .xspiCk | .xspiCsN | .xspiRstN => .pushPull
  | .dram | .ddrZq => .ddr

/-! ## Columns (R501, R502) -/

/-- What the device does at a ball: drives it, leaves it (with a weak or passive pull or none), or drives it with a
serial transfer whose bits the model does not time. -/
inductive PinOut
  | drive (level : Bool)
  | z
  | pull (level : Bool)
  | serial
deriving DecidableEq, Repr

/-- The columns of R501; `unpowered` stands for VBAT absent and for the bank absent, which agree. -/
inductive PinCol
  | unpowered | reset | run | sleep | pass | dormant | fatal
deriving DecidableEq, Repr

/-- The column in force for the balls of the device's own banks; a sleep state's from E0 (R502). -/
def State.devCol (s : State) : PinCol :=
  if s.power.vbatLow then .unpowered
  else if s.faults.fatalAt.isSome then .fatal
  else match s.power.phase with
    | .dormant => .dormant
    | .rest => .sleep
    | .orbit => .sleep
    | .leaving => .sleep
    | .entry _ => if s.power.target = 4 then .dormant else .sleep
    | .pass => .pass
    | _ => if s.power.held || !s.keeper.started then .reset else .run

/-- The column in force for the balls of a bank whose supply is shown by `sup`. -/
def State.pinCol (s : State) (sup : Field) : PinCol := if s.test sup then s.devCol else .unpowered

/-! ## The VIO bank -/

/-- PA_EN, LNA_EN, TR_SW, ANT_A and ANT_B, numbered 0 to 4. -/
def State.radioPin (s : State) (k : Nat) : PinOut :=
  match s.pinCol SUP_STAT_VIO with
  | .unpowered => .pull false
  | .dormant => .pull false
  | .run => .drive (s.get RFE_STATE_STATE != 0 && s.radio.pins.getLsbD (14 - k))
  | .pass => .drive (s.get RFE_STATE_STATE != 0 && s.radio.pins.getLsbD (14 - k))
  | _ => .drive false

/-- The VCTL step at PA_VCTL, which outputs VCTL / 1,023 of VIO; none where the pin is high-impedance (R155). -/
def State.vctlPin (s : State) : Option Nat :=
  match s.pinCol SUP_STAT_VIO with
  | .unpowered => none
  | .dormant => none
  | .run => some (s.radio.pins.toNat % 1024)
  | .pass => some (s.radio.pins.toNat % 1024)
  | _ => some 0

/-- FAULT_N, open drain: low while a status bit of a contained or fatal source is set (R458). -/
def State.faultPin (s : State) : PinOut :=
  match s.pinCol SUP_STAT_VIO with
  | .unpowered => .z
  | .dormant => .z
  | _ => if (List.range 36).any (fun c => faultClass c != 0 && s.test (faultBit c)) then .drive false else .z

/-- HOST_IRQ (R133). -/
def State.hostIrqPin (s : State) : PinOut :=
  match s.pinCol SUP_STAT_VIO with
  | .unpowered => .pull false
  | .dormant => .pull false
  | .reset => .drive false
  | _ => .drive (s.rg HSP_FLAGS &&& s.rg HSP_IRQEN != 0)

/-- REF_EN (R393, R438, R439): in a reset start, low until tick 19,200 unless the reference keeps running. -/
def State.refEnPin (s : State) : PinOut :=
  match s.pinCol SUP_STAT_VIO with
  | .unpowered => .pull false
  | .dormant => .pull false
  | .reset => .drive (s.keeper.kind == .warm || decide (s.power.rstTick + 19200 ≤ s.tick))
  | .sleep => .drive false
  | .pass => .drive s.refWanted
  | _ => .drive true

/-- GPIOn as an output (R136, R501). -/
def State.gpioPin (s : State) (n : Fin 24) : PinOut :=
  match s.pinCol SUP_STAT_VIO with
  | .unpowered => .z
  | .dormant => .z
  | _ =>
    let m := s.get (GPIO_CFG_MODE n.val)
    if m = 1 then .drive (s.gpioOut n.val)
    else if m = 2 ∧ s.gpioOut n.val = false then .drive false
    else match s.get (GPIO_CFG_PULL n.val) with
      | 1 => .pull true
      | 2 => .pull false
      | _ => .z

/-- UART0_TX (R134, R501). -/
def State.uartTxPin (s : State) : PinOut :=
  match s.pinCol SUP_STAT_VIO with
  | .unpowered => .z
  | .dormant => .pull true
  | .reset => .pull true
  | _ => if s.uart.shift.isSome then .serial else if s.test U0_CTRL_TXEN then .drive true else .pull true

/-- HSPI_DO, which a transfer drives while HSPI_CS_N is low; the model has each transfer as one event (R130). -/
def State.hspiDoPin (s : State) : PinOut :=
  match s.pinCol SUP_STAT_VIO with
  | .unpowered => .z
  | .reset => .z
  | .dormant => .z
  | _ => if s.power.csLow then .serial else .z

/-! ## The VFL and VDDQ banks -/

/-- XSPI_RST_N: low from a reset until the OTP row of its start (R438, R501). -/
def State.xspiRstPin (s : State) : PinOut :=
  match s.pinCol SUP_STAT_VFL with
  | .unpowered => .z
  | .dormant => .z
  | .reset => .drive s.keeper.early
  | _ => .drive true

/-- A transfer on the xSPI: an operation of the flash controller, or an update command that holds it (R126, R496). -/
def State.xspiBusy (s : State) : Bool := s.test FLC_STATUS_BUSY || s.updHolds

/-- Cn_RST_N: low in OFF and FAILED, high in READY and SELF_REFRESH, and in TRAINING from tick 7,680 (R422, R429). -/
def State.dramRstPin (s : State) : PinOut :=
  match s.pinCol SUP_STAT_VDDQ with
  | .unpowered => .pull false
  | .dormant => .pull false
  | _ =>
    if s.yst = yTRAINING then .drive (s.yard.since.any (fun t => decide (t + 7680 ≤ s.tick)))
    else .drive (s.yst == yREADY || s.yst == ySELF)

/-- Cn_CKE: high in READY, and in TRAINING from tick 26,880 (R422). -/
def State.dramCkePin (s : State) : PinOut :=
  match s.pinCol SUP_STAT_VDDQ with
  | .unpowered => .pull false
  | .dormant => .pull false
  | .run =>
    if s.yst = yTRAINING then .drive (s.yard.since.any (fun t => decide (t + 26880 ≤ s.tick)))
    else .drive (s.yst == yREADY)
  | .fatal =>
    if s.yst = yTRAINING then .drive (s.yard.since.any (fun t => decide (t + 26880 ≤ s.tick)))
    else .drive (s.yst == yREADY)
  | _ => .drive false

/-- The other balls of the DDR4 interface. -/
def State.dramBusPin (s : State) : PinOut :=
  let on := if s.yst = yTRAINING ∨ s.yst = yREADY then .serial else .z
  match s.pinCol SUP_STAT_VDDQ with
  | .run => on
  | .fatal => on
  | _ => .z

/-- XSPI_CS_N: high but for the flash controller's transfers. -/
def State.xspiCsPin (s : State) : PinOut :=
  match s.pinCol SUP_STAT_VFL with
  | .unpowered => .z
  | .dormant => .pull true
  | .run => if s.xspiBusy then .serial else .drive true
  | .fatal => if s.xspiBusy then .serial else .drive true
  | _ => .drive true

/-- XSPI_CK, and with `io` the data pins and XSPI_DQS. -/
def State.xspiBusPin (s : State) (io : Bool) : PinOut :=
  let idle := if io then PinOut.z else .drive false
  match s.pinCol SUP_STAT_VFL with
  | .unpowered => .z
  | .dormant => .z
  | .run => if s.xspiBusy then .serial else idle
  | .fatal => if s.xspiBusy then .serial else idle
  | _ => idle

/-! ## Other balls of the VIO bank -/

/-- DBG_IO between the debug port's answers. -/
def State.dbgIoPin (s : State) : PinOut :=
  match s.pinCol SUP_STAT_VIO with
  | .unpowered => .z
  | _ => .pull true

/-- The input pins of the VIO bank, by their pull: none for UART0_RX, HSPI_CK and HSPI_DI; up for HSPI_CS_N, RECOV_N
and DBG_RST_N; down for DBG_CK and DBG_EN. -/
def State.inputPin (s : State) (pull : Option Bool) : PinOut :=
  match s.pinCol SUP_STAT_VIO with
  | .unpowered => .z
  | _ => match pull with
    | some b => .pull b
    | none => .z

/-! ## The device's own banks -/

/-- The bypass of the chord ports is closed: outside RUN and DOZE always, else as CHD_STATE shows (R317, R501). -/
def State.bypassClosed (s : State) : Bool :=
  match s.devCol with
  | .run => s.test CHD_STATE_BYPASS
  | _ => true

/-- RFOUT is driven: in TURN toward TALK and in TALK alone. -/
def State.rfoutDriven (s : State) : Bool := s.devCol == .run && (s.rfe == 5 || s.rfe == 6)

/-- The level at RFOUT in dBm, −21 + DRV, where it is driven (R149). -/
def State.rfoutLevel (s : State) : Option Int :=
  if s.rfoutDriven then some ((s.get RFE_TXCH_DRV : Int) - 21) else none

/-- RFIN_A or RFIN_B is in use: while its chain is enabled, of which an ORBIT pass has A alone; else it lies at 0 V
DC. -/
def State.rfinInUse (s : State) (k : Fin 2) : Bool :=
  match s.devCol with
  | .run => s.winOpen.testBit k.val && (s.rfe == 3 || s.rfe == 4 || s.rfe == 7)
  | .pass => k == 0 && (s.rfe == 3 || s.rfe == 4)
  | _ => false

/-- XS_P and XS_N oscillate in every column, on VBKP where VBAT is absent. -/
def xsOscillates : PinCol → Bool := fun _ => true

/-- XR_P and XR_N: the reference oscillates, or is being started (R393, R438). -/
def State.refOscillates (s : State) : Bool :=
  match s.devCol with
  | .unpowered => false
  | .dormant => false
  | .reset => s.keeper.kind == .warm || decide (s.power.rstTick + 19200 ≤ s.tick)
  | _ => s.refWanted

/-- The buck's switch node LX, whose output is VCORE. -/
inductive LxOut
  | z | switching | skipping
deriving DecidableEq, Repr

def State.lxPin (s : State) : LxOut :=
  match s.devCol with
  | .unpowered => .z
  | .dormant => .z
  | .sleep => .skipping
  | _ => .switching

/-- A driver of the VIO bank, or with `vfl` of the VFL bank, is in limited mode (R508, R509). -/
def State.limited (s : State) (vfl : Bool) : Bool := s.test (if vfl then PAD_CFG_LIM_VFL else PAD_CFG_LIM_VIO)

end Sys2Proof.Machine
end

