-- ==== Sys2Proof/Tests/Slice0.lean ====
section
/-! SUPPORT. Tests of the model on single commands: what WellFormed refuses, words of the spec's encodings, worked results
of the spec, and for each statement of Certificates/Slice0/Obligations.lean a concrete state and operands that meet its
hypotheses, clause by clause. -/

namespace Sys2Proof.Tests

open Sys2Proof Sys2Proof.Machine

set_option maxRecDepth 100000

/-! ## Small states -/

/-- Core 0 runs, privileged or not, with the general registers of `l` from w0 on. -/
def core0 (priv : Bool) (l : List W20) : State :=
  State.reset.setCore 0 { State.reset.core 0 with
    run := .running, creset := false, sw := if priv then 0x80000 else 0, w := Vector.ofFn fun i => l.getD i.val 0 }

/-- Core 0 changed. -/
def at0 (s : State) (f : CoreSt → CoreSt) : State := s.setCore 0 (f (s.core 0))

/-- A predicate of the next state, false of a stop. -/
def after (o : Out) (p : State → Bool) : Bool :=
  match o with
  | .next s => p s
  | _ => false

/-! ## Core instructions -/

theorem witness_ArithmeticAndLogicResults : (core0 true []).runs 0 = true ∧ (core0 false []).runs 0 = true := by decide
theorem witness_MultiplyAndDivideResults : (core0 true []).runs 0 = true ∧ (14 : RegId).val % 2 = 0 ∧ (0 : RegId).val % 2 = 0 := by decide
theorem witness_ShiftAndRotateResults : (core0 true []).runs 0 = true ∧ (19 : BitVec 5).toNat < 20 := by decide
theorem witness_ImmediateResults : (core0 true [0, 7]).runs 0 = true ∧ (13 : BitVec 4).toNat < 14 ∧
    ((core0 true [0, 7]).core 0).get 1 = 7 ∧ (decodeAlu 0 (formA 0 2 1 1 0)).isSome = true := by decide
theorem witness_BranchAndJumpResults : (core0 true []).runs 0 = true ∧ ∀ cond : BitVec 4, cond.toNat < 15 ∨ cond = 0xF := by decide
theorem witness_PairResults : (core0 true []).runs 0 = true ∧ (2 : RegId).val % 2 = 0 ∧ (14 : RegId).val % 2 = 0 := by decide
theorem witness_BitFieldResults : (core0 true []).runs 0 = true ∧ 1 ≤ (1 : BitVec 5).toNat ∧ (20 : BitVec 5).toNat ≤ 20 ∧
    (0 : BitVec 5).toNat + (20 : BitVec 5).toNat ≤ 20 ∧ (19 : BitVec 5).toNat + (1 : BitVec 5).toNat ≤ 20 := by decide
theorem witness_ExceptionEntry : (core0 true []).runs 0 = true ∧ ((core0 true []).core 0).act.getLsbD 4 = false ∧
    decodeCore 0 0xFFFFF 0 = none ∧
    (at0 (core0 true []) fun x => { x with pc := 0x4000 }).runs 0 = true ∧
    (at0 (core0 true []) fun x => { x with pc := 0xBFFE }).runs 0 = true ∧
    (at0 (core0 true []) fun x => { x with act := 0b10000 }).runs 0 = true ∧
    (at0 (core0 true []) fun x => { x with act := 0b10000, pc := 0x4000 }).runs 0 = true := by decide
theorem witness_TaskModePrivilege : (core0 false [0, 1]).runs 0 = true ∧ ((core0 false [0, 1]).core 0).sw.getLsbD 19 = false ∧
    ((core0 false [0, 1]).core 0).act.getLsbD 4 = false ∧ (((core0 false [0, 1]).core 0).sysReg 0 0x1E).isSome = true ∧
    (((core0 false [0, 1]).core 0).get 1).getLsbD 2 = false ∧ (((core0 false [0, 1]).core 0).get 1).toNat % 4 ≠ (0 : CoreId).val := by
  decide
theorem witness_TimesEventsAndWaits :
    let s := core0 true [0, 0x00003, 4, 0x10001]
    s.runs 0 = true ∧ ((s.core 0).get 1).getLsbD 2 = false ∧ (s.core 0).sw.getLsbD 19 = true ∧ ((s.core 0).get 2).getLsbD 2 = true ∧
    (∀ k, k < 16 → s.routed k ≠ some (0, 3)) ∧
    (let t := at0 s fun x => { x with pend := 2 }
     t.runs 0 = true ∧ ((t.core 0).get 1).getLsbD 1 = true ∧ (t.core 0).pend.getLsbD (16 * bit false + 1) = true ∧
     ∀ j, j < 1 → ((t.core 0).get 1).getLsbD j = true → (t.core 0).pend.getLsbD (16 * bit false + j) = false) ∧
    ∀ j, j < 16 → ((s.core 0).get 3).getLsbD j = true → (s.core 0).pend.getLsbD (16 * bit true + j) = false := by decide
theorem witness_ends_of_waits :
    let s := core0 true [0]
    (let t := at0 s fun x => { x with run := .inWat 0 }
     t.clocked = true ∧ (t.core 0).run = .inWat 0 ∧ (t.mesh - 0).toNat < 2 ^ 39) ∧
    (let t := at0 s fun x => { x with run := .inWev true 0x8001 0 0 3, pend := 0x80000000 }
     t.clocked = true ∧ (t.core 0).run = .inWev true 0x8001 0 0 3 ∧ (0x8001 : BitVec 16).getLsbD 15 = true ∧
     (t.core 0).pend.getLsbD (16 * bit true + 15) = true ∧ (∀ j, j < 15 → (0x8001 : BitVec 16).getLsbD j = true →
       (t.core 0).pend.getLsbD (16 * bit true + j) = false) ∧ (0 : W20) ≠ 0xFFFFF ∧ (0 : W20).toNat ≤ t.tick - 0) ∧
    (let t := at0 s fun x => { x with run := .inWev false 0x0001 0 0 3 }
     t.clocked = true ∧ (t.core 0).run = .inWev false 0x0001 0 0 3 ∧ ∀ j, j < 16 → (0x0001 : BitVec 16).getLsbD j = true →
       (t.core 0).pend.getLsbD (16 * bit false + j) = false) ∧
    (let t := at0 s fun x => { x with run := .inTake 16 0 0 3 }
     t.clocked = true ∧ (t.core 0).run = .inTake 16 0 0 3 ∧ (0 : W20).toNat ≤ t.tick - 0 ∧
     t.evaluate.2 = []) ∧
    (let t := at0 s fun x => { x with run := .inTake 16 0 3 3 }
     let t := { t with tick := 3, manger := { t.manger with waits := [⟨16, 1, 0, false, .program 0 5⟩] } }
     t.clocked = true ∧ (t.core 0).run = .inTake 16 0 3 3 ∧ (3 : W20) ≠ 0xFFFFF ∧ (3 : W20).toNat ≤ t.tick - 0 ∧
     t.manger.owed = 0 ∧ t.takeCost 16 5 ≤ t.manger.free) := by decide

/-- Holder `h` holds `n` rations (amount `n` for a program holder), outside the free ones. -/
def holding (s : State) (h n : Nat) : State :=
  { s with manger := { s.manger with accts := [⟨h, n, 1, true, n, 0⟩] } }

/-- A request of another consumer waits and is urgent. -/
def urgentWait (s : State) : State :=
  { s with manger := { s.manger with waits := [⟨1, 2, 0, true, .holders [1]⟩] } }

theorem witness_TakeAndGiveResults :
    let take := fun (h m lim : Nat) => core0 true [0, BitVec.ofNat 20 (m * 1024 + h), BitVec.ofNat 20 lim]
    let charge := fun (s : State) (n : Nat) => ceilDiv (n * s.mngF) 16
    let total := fun (s : State) => min (s.get MNG_POOL_POOL) (s.get MNG_CEIL_CEILING)
    let cost := fun (s : State) (h m : Nat) => charge s (s.progAmount h + m) - s.chargeOf h
    let atOnce := fun (s : State) (h m : Nat) => s.manger.owed = 0 ∧ (∀ w ∈ s.manger.waits, w.urgent = false) ∧
      cost s h m ≤ s.manger.free
    (∀ h : Fin 32, (take h.val 5 7).runs 0 = true ∧ (((take h.val 5 7).core 0).get 1).toNat % 32 = h.val ∧
      (((take h.val 5 7).core 0).get 1).toNat / 1024 = 5) ∧
    (let s := take 27 5 0
     { s with manger := { s.manger with waits := [⟨27, 1, 0, false, .program 1 4⟩] } }.manger.waits =
       [⟨27, 1, 0, false, .program 1 4⟩]) ∧
    (((take 16 0 7).core 0).get 1).toNat / 1024 = 0 ∧ (take 16 0 7).manger.waits = [] ∧
    total (take 16 1023 7) < charge (take 16 1023 7) ((take 16 1023 7).progAmount 16 + 1023) ∧
    (let s := take 27 5 0
     (s.core 0).get 2 = 0 ∧ charge s (s.progAmount 27 + 5) ≤ total s ∧ atOnce s 27 5 ∧
     s.chargeOf 27 = charge s (s.progAmount 27) ∧ (∀ w ∈ s.manger.waits, w.id ≠ 27) ∧
     ¬ atOnce (urgentWait s) 27 5 ∧ ∀ w ∈ (urgentWait s).manger.waits, w.id ≠ 27) ∧
    ((take 16 5 7).core 0).get 2 ≠ 0 ∧ charge (take 16 5 7) ((take 16 5 7).progAmount 16 + 5) ≤ total (take 16 5 7) ∧
    (holding (take 16 5 0) 16 4).progAmount 16 < 5 ∧ 5 ≤ (holding (take 27 5 0) 27 5).progAmount 27 := by decide

theorem witness_SystemRegisterResults :
    (core0 true []).runs 0 = true ∧ ((core0 true []).core 0).sw.getLsbD 19 = true ∧ ((core0 true []).core 0).act = 0 ∧
    (let s := at0 (core0 true []) fun x => { x with act := 0b10101 }
     s.runs 0 = true ∧ (s.core 0).act.getLsbD 4 = true ∧ ∀ k : Fin 5, 4 < k → (s.core 0).act.getLsbD k = false) ∧
    (let s := at0 (core0 true []) fun x => { x with act := 0b00001 }
     s.runs 0 = true ∧ (s.core 0).act.getLsbD 0 = true ∧ ∀ k : Fin 5, 0 < k → (s.core 0).act.getLsbD k = false) := by decide

theorem witness_InterruptEntryEffect :
    let s := at0 (core0 false []) fun x => { x with pend := 0x80000001, ien := 0x80000001, ilvl := Vector.ofFn fun i => if i.val = 3 then 0xC000 else 0 }
    let x := s.core 0
    let level := fun (j : Fin 32) => (x.ilvl[j.val / 8]'(by omega)).toNat / 4 ^ (j.val % 8) % 4
    let ready := fun (j : Fin 32) => x.pend.getLsbD j && x.ien.getLsbD j && !x.sw.getLsbD (4 + level j) && !x.act.getLsbD (level j)
    s.clocked = true ∧ x.run.interruptible = true ∧ level 31 = 3 ∧ ready 31 = true ∧
    ∀ j, ready j = true → level j ≤ level 31 ∧ (level j = level 31 → 31 ≤ j) := by decide

theorem witness_LoadAndStoreResults :
    let s := core0 true [0, 0x9FFFA, 0xE0000, 0xE3FFF]
    (s.runs 0 = true ∧ (s.core 0).stores = [] ∧ (s.core 0).stores.length < 4 ∧
    ((s.core 0).get 1 + (0 : BitVec 8).signExtend 20).toNat + 6 ≤ 0xA0000 ∧
    ((s.core 0).get 2 + (0 : W20)).toNat = 0xE0000 ∧ ((s.core 0).get 3 + (0 : W20)).toNat + 1 ≤ 0xE4000) ∧
    (∀ g, 0x9FFFA / 4 ≤ g → g ≤ 0x9FFFF / 4 → s.chk (Ram.sram.group (4 * g)) = .good) ∧
    ∀ g, 0xE0000 / 4 ≤ g → g ≤ 0xE0005 / 4 → s.chk ((Ram.pram 0).group (4 * g)) = .good :=
  ⟨by decide, fun _ _ _ => rfl, fun _ _ _ => rfl⟩

theorem witness_LoadStoreFaults :
    let s := core0 true [0, 0x9FFFE, 0xD4000, 0xEFFFF, 0xC0000, 0xA0000, 0xBFFFA, 0xF0000, 0xFFFFF, 0x00003, 0xFFFFE]
    let e := fun (a : RegId) => ((s.core 0).get a + (0 : W20)).toNat
    let u := core0 false [0, 0, 0, 0, 0xC0000]
    (s.runs 0 = true ∧ (s.core 0).act.getLsbD 4 = false ∧ (s.core 0).stores = [] ∧
    (e 1 < 0xA0000 ∧ 0xA0000 < e 1 + 3 ∧ e 10 < 0x100000 ∧ 0x100000 < e 10 + 3) ∧
    (0xD4000 ≤ e 2 ∧ e 2 + 1 ≤ 0xE0000 ∧ 0xE4000 ≤ e 3 ∧ e 3 + 1 ≤ 0xF0000) ∧
    (u.runs 0 = true ∧ (u.core 0).act.getLsbD 4 = false ∧ (u.core 0).sw.getLsbD 19 = false ∧
      0xC0000 ≤ ((u.core 0).get 4).toNat ∧ (u.rg (CC_TASKPERM (0 : CoreId).val)).getLsbD 0 = false) ∧
    (∀ g : Fin 4, s.test (GATE_CTL_EN g.val) = false ∧ s.test (GATE_CTL_WRITE g.val) = false) ∧
    (0xA0000 ≤ e 5 ∧ e 5 + 6 ≤ 0xA8000 ∧ 0xB8000 ≤ e 6 ∧ e 6 + 6 ≤ 0xC0000) ∧
    (0xF0000 ≤ e 7 ∧ e 7 + 6 ≤ 0x100000 ∧ e 8 + 1 ≤ 0x100000) ∧ (15 : RegId).val % 2 = 1) ∧
    ({ s with memChk := tabSet (fun _ => .good) s.memChk (Ram.sram.group 4) .bad } : State).chk (Ram.sram.group 4) = .bad :=
  ⟨by decide, by decide⟩

/-- A store of two bytes at the end of the private data RAM. -/
def lastStore : Store := ⟨0xE3FFE, [1, 2], false, true⟩

theorem witness_StoreBecomesVisible :
    let s := at0 (core0 true []) fun x => { x with stores := [lastStore] }
    (s.clocked = true ∧ (s.core 0).creset = false ∧ (s.core 0).stores = lastStore :: [] ∧ 0xE0000 ≤ lastStore.addr.toNat ∧
    lastStore.addr.toNat + lastStore.bytes.length ≤ 0xE4000 ∧ lastStore.bytes ≠ []) ∧
    ∀ g, lastStore.addr.toNat / 4 ≤ g → g ≤ (lastStore.addr.toNat + lastStore.bytes.length - 1) / 4 →
      s.chk ((Ram.pram 0).group (4 * g)) = .good :=
  ⟨by decide, fun _ _ _ => rfl⟩

theorem witness_FenceAndExchangeResults :
    let s := core0 true [0, 0x9FFFD, 0xE003D, 0x9FFFE, 0xE4000]
    s.runs 0 = true ∧ (s.core 0).stores = [] ∧ (s.core 0).act.getLsbD 4 = false ∧
    ((s.core 0).get 1).toNat + 3 ≤ 0xA0000 ∧ ((s.core 0).get 1).toNat % 64 ≤ 61 ∧ ((s.core 0).get 2).toNat % 64 ≤ 61 ∧
    s.chk (Ram.sram.group (0x9FFFD / 4 * 4)) = .good ∧ s.chk (Ram.sram.group (0x9FFFF / 4 * 4)) = .good ∧
    s.chk ((Ram.pram 0).group (0xE003D / 4 * 4)) = .good ∧ s.chk ((Ram.pram 0).group (0xE003F / 4 * 4)) = .good ∧
    61 < ((s.core 0).get 3).toNat % 64 ∧ 0xE4000 ≤ ((s.core 0).get 4).toNat := by decide

theorem witness_ArmPlacesEntry :
    let s := core0 true [0, 0x0000F, 0, 0, 0x00000, 0x80000 + 31, 0x20003, 0x0040F, 0xFFC0F, 0x90000, 0x00001]
    let u := core0 false [0, 0x0000F, 0, 0, 0x00000, 0x80000 + 31]
    let kind := fun (b : RegId) => ((s.core 0).get b).toNat / 2 ^ 16
    let param := fun (b : RegId) => ((s.core 0).get b).toNat % 2 ^ 16
    let resv := fun (d : RegId) => ((s.core 0).get d).toNat / 1024
    let dear := fun (n : Nat) => min (s.get MNG_POOL_POOL) (s.get MNG_CEIL_CEILING) < ceilDiv (n * s.mngF) 16
    let far : State := s.setCore 0 { s.core 0 with w := (s.core 0).w.set 2 0x10000 }
    s.runs 0 = true ∧ (s.core 0).stores = [] ∧ (s.core 0).sw.getLsbD 19 = true ∧ (2 : RegId).val % 2 = 0 ∧
    (kind 4 = 0 ∧ param 4 = 0 ∧ kind 5 = 8 ∧ param 5 < 32 ∧ kind 6 = 2 ∧ 1 ≤ param 6 ∧ param 6 ≤ 3) ∧
    (resv 1 = 0 ∧ resv 7 = 1 ∧ ¬ dear 1 ∧ resv 8 = 1023 ∧ dear 1023) ∧
    (s.mesh - (BitVec.ofNat 40 ((s.core 0).pair 2) - BitVec.ofNat 40 (s.get MNG_LEAD_LEAD))).getLsbD 39 = false ∧
    (far.mesh - (BitVec.ofNat 40 ((far.core 0).pair 2) - BitVec.ofNat 40 (far.get MNG_LEAD_LEAD))).getLsbD 39 = true ∧
    (kind 9 = 9 ∧ kind 10 = 0 ∧ param 10 ≠ 0) ∧
    u.runs 0 = true ∧ (u.core 0).sw.getLsbD 19 = false ∧ (u.rg (CC_ACTPERM (0 : CoreId).val)).getLsbD 8 = false ∧
    ((u.setRg (CC_ACTPERM 0) 0x100).rg (CC_ACTPERM (0 : CoreId).val)).getLsbD 8 = true := by decide

theorem witness_CoreControlResults :
    (State.reset.clocked = true ∧ (State.reset.core 0).run = .stopped ∧ State.reset.holds (7 + (0 : CoreId).val) = false ∧
      State.reset.asked (7 + (0 : CoreId).val) = false ∧ State.reset.test (CC_RUN_RUN (0 : CoreId).val) = false ∧
      (State.reset.core 0).stores = [] ∧ (State.reset.core 0).run ≠ .doubleExc) ∧
    (holding State.reset 7 10).holds (7 + (0 : CoreId).val) = true ∧
    (holding (core0 true []) 7 10).clocked = true ∧ ((holding (core0 true []) 7 10).core 0).run ≠ .doubleExc ∧
    ((holding (core0 true []) 7 10).core 0).run ≠ .stopped ∧ ((holding (core0 true []) 7 10).core 0).run ≠ .starting ∧
    ((at0 State.reset fun x => { x with run := .starting }).core 0).run = .starting ∧
    (let s := { at0 (holding State.reset 7 10) fun x => { x with stopAt := some 4 } with tick := 5 }
     (s.core 0).stopAt = some 4 ∧ 4 < s.tick) ∧
    ((at0 State.reset fun x => { x with stores := [⟨0, [1], false, true⟩] }).core 0).stores ≠ [] := by decide

theorem witness_LoftPortResults :
    State.reset.clocked = true ∧ State.reset.test (CC_RUN_RUN (0 : CoreId).val) = false ∧
    (State.reset.put (CC_RUN_RUN (0 : CoreId).val) 1).test (CC_RUN_RUN (0 : CoreId).val) = true ∧
    (State.reset.put (CC_LOFTADDR_ADDR 0) (2 ^ 14 - 1)).get (CC_LOFTADDR_ADDR (0 : CoreId).val) = 2 ^ 14 - 1 ∧
    State.reset.chk (0x200000 + State.loftKey 0 (State.reset.get (CC_LOFTADDR_ADDR (0 : CoreId).val))) = .good := by decide
/-! ## The manger, the ports and the lattice -/

theorem witness_MangerCommandEffects :
    State.reset.notDormant = true ∧ State.reset.clocked = true ∧ (0x00400 : W20).toNat % 1024 = 0 ∧
    (let s := holding State.reset 15 5
     s.clocked = true ∧ min ((4 : W20).toNat % 1024) (s.get MNG_CEIL_CEILING) < s.manger.heldSum ∧
     s.manger.heldSum ≤ min ((5 : W20).toNat % 1024) (s.get MNG_CEIL_CEILING) ∧ s.get MNG_CEIL_CEILING ≤ 1023) ∧
    (let s := State.reset.put MNG_CEIL_CEILING 100
     s.get MNG_CEIL_CEILING < (101 : W20).toNat % 1024) ∧
    State.reset.manger.sampled = false ∧
    (let s := State.reset.put MNG_BAND_MEAS_BAND 3
     let s := { s with manger := { s.manger with sampled := true, up := Vector.ofFn fun _ => 31 } }
     s.notDormant = true ∧ s.manger.sampled = true ∧ bandOf 0 (0 : BitVec 10).toNat < s.get MNG_BAND_MEAS_BAND ∧
     s.get MNG_BAND_MEAS_BAND ≤ bandOf 0 (1023 : BitVec 10).toNat ∧ 31 ≤ s.manger.up[(7 : Fin 8)] ∧
     bandEdge (7 : Fin 8).val + 2 ≤ (1023 : BitVec 10).toNat) ∧
    (let s := at0 State.reset fun x => { x with acts := Vector.ofFn fun _ => ⟨8, 3, 0, 1, .armed, false⟩ }
     let a := (s.core 0).acts[(15 : Fin 16)]
     s.notDormant = true ∧ a.status = .armed ∧ a.resv ≠ 0 ∧ (s.mesh - (a.fire - BitVec.ofNat 40 (s.get MNG_LEAD_LEAD))).toNat < 2 ^ 39) := by
  decide

theorem witness_EvaluationGrantsWhatFits :
    let s := fun (h cls : Nat) => { State.reset with tick := 1, manger := { State.reset.manger with
      waits := [⟨h, cls, 0, false, .holders [h]⟩] } }
    let short := { s 15 0 with manger := { (s 15 0).manger with accts := [⟨1, 9, 1, true, 8, 1⟩] } }
    (∀ h : Fin 32, (s h.val 3).notDormant = true ∧ (s h.val 3).holds h.val = false ∧ 0 < (s h.val 3).tick ∧
      (s h.val 3).manger.waits = [⟨h.val, 3, 0, false, .holders [h.val]⟩] ∧ (s h.val 3).manger.owed = 0 ∧
      (s h.val 3).costOf [h.val] ≤ (s h.val 3).manger.free) ∧
    short.holds 15 = false ∧ short.manger.owed ≠ 0 ∧
    { s 15 0 with manger := { (s 15 0).manger with free := 0 } }.manger.free < (s 15 0).costOf [15] := by decide

theorem witness_ExternalHolderAndPinEffects :
    State.reset.clocked = true ∧ (0x40000 : W20).toNat / 2 ^ 18 = 1 ∧ State.reset.holds (28 + (3 : Fin 4).val) = false ∧
    (0x3FFFF : W20).toNat / 2 ^ 18 = 0 ∧
    (let s := (State.reset.put (MNG_EXT_MODE 3) 2).put (MNG_EXT_PIN 3) 1
     s.notDormant = true ∧ s.get (MNG_EXT_MODE (3 : Fin 4).val) = 2 ∧ s.get (MNG_EXT_PIN (3 : Fin 4).val) < 2) ∧
    (let s := (State.reset.put (GPIO_CFG_MODE 23) 1).put SUP_STAT_VIO 1
     s.padsOn = true ∧ s.get (GPIO_CFG_MODE (23 : Fin 24).val) = 1) ∧
    (let s := (State.reset.put (GPIO_CFG_MODE 0) 2).put SUP_STAT_VIO 1
     s.padsOn = true ∧ s.get (GPIO_CFG_MODE (0 : Fin 24).val) = 2 ∧ s.gpioOut 0 = false) ∧
    (State.reset.get (GPIO_CFG_MODE (0 : Fin 24).val) = 0 ∧ State.reset.ball 0 ≠ some false) := by decide

theorem witness_FaultBlockEffects :
    State.reset.clocked = true ∧ State.reset.inAir = true ∧ State.reset.notDormant = true ∧ (∀ code : Fin 36, ∃ k : Fin 2, k.val = code.val / 20) ∧
    State.reset.persists 35 = false ∧ State.reset.persists 19 = false ∧ 52 ≤ (52 : BitVec 6).toNat ∧
    (51 : BitVec 6).toNat < 52 ∧ State.reset.laneFailed 0 = false ∧ State.reset.otp.rows < 64 ∧
    State.reset.posOf 47 = some 47 ∧ State.reset.test (STL_CFG_EN 47) = false ∧
    State.reset.posOf 51 = none ∧ State.reset.otp.energy = false ∧
    State.reset.faults.slow < max 1 (State.reset.get FLT_CFG_WIN) * 3600 * 32768 ∧
    (let s := { State.reset with faults := { State.reset.faults with slow := 24 * 3600 * 32768 } }
     s.notDormant = true ∧ max 1 (s.get FLT_CFG_WIN) * 3600 * 32768 ≤ s.faults.slow) := by decide

theorem witness_HitchPortEffects :
    let s := State.reset.setRg HSP_BANKPERM 0x003FF
    (s.stopped = false ∧ s.power.phase = .run ∧ (0x9FFFF : W20).toNat + 1 ≤ 0xA0000 ∧
     (∀ i, i < 1 → (s.rg HSP_BANKPERM).getLsbD (((0x9FFFF : W20).toNat + i) / 0x10000) = true) ∧
     0xA0000 ≤ (0xBFFFF : W20).toNat ∧ (0xBFFFF : W20).toNat < 0xC0000 ∧ (0x05 : Byte) ≠ 0x0B ∧ (0x05 : Byte) ≠ 0x02 ∧
     { s with power := { s.power with phase := .orbit } }.power.phase ≠ .run) ∧
    ∀ g, (0x9FFFF : W20).toNat / 4 ≤ g → g ≤ ((0x9FFFF : W20).toNat + 1 - 1) / 4 → s.chk g = .good :=
  ⟨by decide, fun _ _ _ => rfl⟩

theorem witness_UartEffects :
    let s := State.reset.put U0_CTRL_RXEN 1 |>.put U0_CTRL_TXEN 1
    s.inRun = true ∧ s.clocked = true ∧ s.test KMB_BOOT_REASON = false ∧ s.test U0_CTRL_TXEN = true ∧ s.uart.shift = none ∧
    s.uart.tx = [] ∧ s.test U0_CTRL_LOOP = false ∧ s.test U0_CTRL_RXEN = true ∧ s.uart.rx.length < 32 ∧ s.uart.rx = [] ∧
    (let t := { s with uart := { s.uart with rx := List.replicate 32 (7, false), tx := List.replicate 32 9, shift := some 1 } }
     t.inRun = true ∧ t.clocked = true ∧ t.test U0_CTRL_LOOP = false ∧ t.test U0_CTRL_RXEN = true ∧ 32 ≤ t.uart.rx.length ∧ t.uart.rx = (7, false) :: List.replicate 31 (7, false) ∧
     32 ≤ t.uart.tx.length ∧ t.uart.shift ≠ none ∧ t.uart.tx = 9 :: List.replicate 31 9 ∧ t.test U0_CTRL_TXEN = true) ∧
    (let t := { s with uart := { s.uart with tx := List.replicate 31 9, shift := some 1 } }
     t.uart.tx.length < 32 ∧ t.uart.shift ≠ none) := by decide

theorem witness_ActionAndLatticeEffects :
    (let a : ActEntry := ⟨8, 31, 0, 0, .armed, false⟩
     let s := at0 State.reset fun x => { x with acts := x.acts.set 15 a }
     s.inRun = true ∧ a.kind = 8 ∧ a.resv = 0 ∧ a.param.toNat < 32 ∧ s.dueActs = [⟨0, 15, a⟩]) ∧
    (let s := { State.reset with lattice := { State.reset.lattice with
       flights := [⟨63, 0x7F, false, 0⟩], storm := [(63, 7, 1024)] } }
     s.inRun = true ∧ s.lattice.flights = [⟨63, 0x7F, false, 0⟩] ∧ 0 ≤ s.lattice.cyc ∧ 0x7F < 0x80 ∧
     1024 ≤ (s.stormOf (63 : Fin 64).val).2) ∧
    ((State.reset.setRg (CC_TASKPERM 0) 8).rg (CC_TASKPERM (0 : CoreId).val)).getLsbD 3 = true ∧
    (∀ k : Fin 16, (core0 true []).mayReach (.core 0 true) (0xC3240 + 4 * k.val) = true) ∧
    0x0E0 ≤ (0x0FC : BitVec 12).toNat ∧ (0x0FC : BitVec 12).toNat < 0x100 := by decide

theorem witness_RegisterWriteAndTimeoutEffects :
    (core0 true []).clocked = true ∧ (core0 true []).runs 0 = true ∧ ((core0 true []).core 0).act.getLsbD 4 = false ∧
    0xA0000 ≤ (0xBFFFF : W20).toNat ∧ (0xBFFFF : W20).toNat < 0xC0000 ∧ (0xBFFFF : W20).toNat % 4 ≠ 0 ∧
    (core0 true []).power.phase = .run ∧ (core0 true []).mayReach (.core 0 true) MNG_LEAD = true ∧
    (core0 true []).mayReach (.core 0 false) MNG_LEAD = false ∧
    (State.reset.setRg HSP_PERM 2).mayReach .host MNG_LEAD = true ∧
    ((core0 true []).rg HSP_PERM).getLsbD 1 = false ∧
    ((core0 true []).rg (CC_TASKPERM (0 : CoreId).val)).getLsbD 1 = false := by decide
/-! ## Flash, DMA and the radio -/

/-- The state with one field of a register at a value. -/
abbrev with1 (f : Field) (n : Nat) : State := State.reset.put f n

/-- A fitted flash of 64 KiB with erase blocks of 4 KiB. -/
def flashed : State := ((State.reset.put FLC_INFO_PRESENT 1).put FLC_INFO_SIZE_LOG2 16).put FLC_INFO_ERASE_LOG2 12

theorem witness_FlashControllerEffects :
    let s := flashed
    (s.clocked = true ∧ s.inRun = true ∧ s.test FLC_STATUS_BUSY = false ∧ s.update.run = none ∧ 256 * s.get FLC_ADDR_PAGE < s.flashSize ∧
     (256 : BitVec 9).toNat ≠ 0 ∧ (256 : BitVec 9).toNat ≤ 256 ∧ (0 : BitVec 8).toNat + (256 : BitVec 9).toNat ≤ 256 ∧
     s.get FLC_SRC_SRC + (256 : BitVec 9).toNat ≤ 0xA0000 ∧ (0 : BitVec 9).toNat = 0 ∧ 256 < (1 : BitVec 8).toNat + (256 : BitVec 9).toNat ∧
     (s.put FLC_STATUS_BUSY 1).test FLC_STATUS_BUSY = true) ∧
    (∀ g, s.get FLC_SRC_SRC / 4 ≤ g → g ≤ (s.get FLC_SRC_SRC + (256 : BitVec 9).toNat - 1) / 4 → s.chk g = .good) ∧
    { s with flashOp := some ⟨false, 3, 1, [7]⟩ }.flashOp = some ⟨false, 3, 1, [7]⟩ ∧ ([7] : List Byte).length ≤ 1 :=
  ⟨by decide, fun _ _ _ => rfl, by decide⟩

/-- A channel with a descriptor in progress and its state. -/
def dmaWith (st : Nat) (d : DmaDesc) : State :=
  let s := holding (State.reset.put (DMA_CH_STAT_STATE 11) st) 15 5
  { s with dma := { s.dma with desc := s.dma.desc.set 11 (some d) } }

/-- A descriptor of five bytes from 0x10 to 0x9FFF0, with `n` read. -/
def five (n : Nat) : DmaDesc := ⟨0x80000, 5, 0x10, 0x9FFF0, 0, false, n, [], false⟩

theorem witness_DmaControlEffects :
    State.reset.clocked = true ∧ State.reset.inRun = true ∧ State.reset.dmaSt (11 : Fin 12).val = 0 ∧
    (with1 (DMA_CH_STAT_STATE 11) 1).dmaSt (11 : Fin 12).val = 1 ∧ (with1 (DMA_CH_STAT_STATE 11) 1).dmaSt (11 : Fin 12).val ≠ 0 ∧
    ((dmaWith 3 (five 0)).dmaDesc (11 : Fin 12).val = some (five 0) ∧ (dmaWith 3 (five 0)).dmaSt (11 : Fin 12).val = 3) ∧
    ((dmaWith 4 (five 0)).dmaDesc (11 : Fin 12).val = some (five 0) ∧ (dmaWith 4 (five 0)).dmaSt (11 : Fin 12).val = 4 ∧
     (dmaWith 4 (five 0)).test DMA_FLAGS_HALT = false ∧ (five 0).src + (five 0).srcLen ≤ 0xA0000 ∧
     (five 0).dst + (five 0).dstLen ≤ 0xA0000) ∧ State.reset.dmaQuiet = true ∧
    (with1 DMA_FLAGS_HALT 1).test DMA_FLAGS_HALT = true ∧ (with1 (DMA_CH_STAT_STATE 11) 1).test DMA_FLAGS_HALT = false ∧
    State.reset.lattice.acts = [] ∧
    (let s := with1 (DMA_CH_CFG_LSTART 11) 1
     let s := { s with lattice := { s.lattice with acts := [(0x98 + 11, 0)] } }
     s.test (DMA_CH_CFG_LSTART (11 : Fin 12).val) = true ∧ s.lattice.acts.contains (0x98 + (11 : Fin 12).val, s.lattice.cyc) = true) ∧
    ((dmaWith 3 (five 0)).dmaFinished (11 : Fin 12).val (five 0) = false ∧ (dmaWith 3 (five 0)).test DMA_FLAGS_HALT = false) ∧
    (let s := dmaWith 2 (five 5)
     s.dmaDesc (11 : Fin 12).val = some (five 5) ∧ s.dmaSt (11 : Fin 12).val = 2 ∧ s.dmaFinished (11 : Fin 12).val (five 5) = true) :=
  by decide

/-- Channel 11 fetches, with the descriptor bytes `l` at 0x9FFE8. -/
def fetching (l : List Byte) : State :=
  let s := holding ((State.reset.put (DMA_CH_STAT_STATE 11) 1).put (DMA_CH_NEXT_ADDR 11) 0x9FFE8) 15 5
  s.setBytes .sram 0x9FFE8 l

theorem witness_DmaTransferEffects_fetch :
    let s := fetching [0, 0, 8, 0, 4, 0, 0, 0, 0, 0, 0, 0, 0, 1]
    let d := DmaDesc.ofBytes (s.bytes .sram 0x9FFE8 24)
    (s.inRun = true ∧ s.dmaLive = true ∧ s.dmaSt (11 : Fin 12).val = 1 ∧ s.get (DMA_CH_NEXT_ADDR (11 : Fin 12).val) = 0x9FFE8 ∧
     0x9FFE8 + 24 ≤ 0xA0000 ∧ s.get (DMA_CH_HOPS_VALUE (11 : Fin 12).val) < max 1 (s.get DMA_HOPLIM_LIMIT) ∧
     d.w0.getLsbD 19 = true ∧ d.len ≠ 0 ∧ d.bad = false ∧ d.src + d.srcLen ≤ 0xA0000 ∧ d.dst + d.dstLen ≤ 0xA0000 ∧
     (DmaDesc.ofBytes ((fetching []).bytes .sram 0x9FFE8 24)).w0.getLsbD 19 = false ∧ (fetching []).dmaLive = true) ∧
    ∀ g, 0x9FFE8 / 4 ≤ g → g ≤ (0x9FFE8 + 23) / 4 → s.chk g = .good :=
  ⟨by decide, fun _ _ _ => rfl⟩

theorem witness_DmaTransferEffects_move :
    (let s := dmaWith 2 (five 0)
     s.dmaLive = true ∧ s.dmaDesc (11 : Fin 12).val = some (five 0) ∧ s.dma.credits = [] ∧ s.dmaTouch.dmaPick = some (11 : Fin 12).val ∧
     (five 0).srcFix = false ∧ (five 0).dstFix = false ∧ (five 0).down = false ∧ (five 0).read < (five 0).len ∧
     (five 0).src + (five 0).len ≤ 0xA0000) ∧
    (let c : Credit := ⟨0, false, 11, 0x9FFFB, 5, some [1, 2, 3, 4, 5], none, false, [], false, .none, false, 0⟩
     let t := dmaWith 2 (five 5)
     let s := { t with dma := { t.dma with credits := [c] } }
     s.dmaLive = true ∧ s.dma.credits = [c] ∧ c.rd = false ∧ c.wrote = false ∧ c.data = some [1, 2, 3, 4, 5] ∧ c.ch < 12 ∧ c.tag = .none ∧
     c.wids = [] ∧ c.fin = false ∧ s.dma.acks = [] ∧ s.dmaDesc c.ch = some (five 5) ∧ (five 5).dstFix = false ∧
     (five 5).down = false ∧ c.addr % 64 + 5 ≤ 64 ∧ c.addr + 5 ≤ 0xA0000 ∧ s.get (DMA_CH_HOPS_VALUE c.ch) = c.hop ∧
     s.get (DMA_CH_DONE_VALUE c.ch) + 5 < 2 ^ 20) ∧
    (let s := (dmaWith 2 (five 5)).put (DMA_CH_CUR_VALUE 11) 0x9FFE8
     s.dmaLive = true ∧ s.dmaDesc (11 : Fin 12).val = some (five 5) ∧ s.dmaSt (11 : Fin 12).val = 2 ∧ (five 5).len ≤ (five 5).read ∧
     (five 5).aborted = false ∧ (five 5).barrier = false ∧ (five 5).irq = false ∧ (five 5).chain = false ∧ s.dma.credits = [] ∧
     s.get (DMA_CH_CUR_VALUE (11 : Fin 12).val) % 4 = 0 ∧ s.get (DMA_CH_CUR_VALUE (11 : Fin 12).val) + 24 ≤ 0xA0000) := by decide

theorem witness_DmaTransferEffects_good :
    (∀ g, 0x10 / 4 ≤ g → g ≤ (0x10 + 5 - 1) / 4 → (dmaWith 2 (five 0)).chk g = .good) ∧
    ∀ g, 0x9FFE8 / 4 ≤ g → g ≤ (0x9FFE8 + 23) / 4 → (dmaWith 2 (five 5)).chk g = .good :=
  ⟨fun _ _ _ => rfl, fun _ _ _ => rfl⟩
/-- The radio in state `n`, with the radio's part of the state changed. -/
def radioIn (n : Nat) (f : Radio → Radio) : State :=
  let s := { State.reset with tick := 30000 }.put RFE_STATE_STATE n
  { s with radio := f s.radio }

/-- The holders of `l` hold one ration each. -/
def holdingAll (s : State) (l : List Nat) : State :=
  { s with manger := { s.manger with accts := l.map fun h => ⟨h, 1, 1, true, 1, 0⟩ } }

theorem witness_RadioStateEffects :
    (State.reset.inAir = true ∧ State.reset.clocked = true ∧ State.reset.rfe = 0 ∧ State.reset.test CLK_STAT_REF_FAIL = false) ∧
    (let s := radioIn 4 id
     s.inAir = true ∧ s.clocked = true ∧ 1 ≤ s.rfe ∧ s.rfe ≤ 4 ∧ s.rfe = 4) ∧
    (let s := radioIn 2 id
     s.rfe = 2 ∧ s.radio.cal = [] ∧ s.radio.rxCal = none ∧ (3 : BitVec 2) ≠ 0 ∧ 2 ≤ s.rfe) ∧
    (let s := radioIn 1 fun r => { r with since := some (30000 - 23040) }
     s.radio.since = some 6960 ∧ s.rfe = 1 ∧ 23040 ≤ s.tick - 6960) ∧
    (let s := radioIn 3 fun r => { r with since := some (30000 - 4608) }
     s.radio.since = some 25392 ∧ s.rfe = 3 ∧ 4608 ≤ s.tick - 25392) ∧
    (let s := ((radioIn 7 fun r => { r with since := some (30000 - 1344), swapped := true }).put RFE_CTL_REQ 1).put RFE_STATE_CHAINS 1
     s.radio.since = some 28656 ∧ s.rfe = 7 ∧ s.radio.swapped = true ∧ 1344 ≤ s.tick - 28656 ∧ s.get RFE_CTL_REQ ≠ 0 ∧ s.winOpen ≠ 0) ∧
    (let s := (radioIn 8 fun r => { r with since := some (30000 - 1344), swapped := true }).put RFE_CTL_REQ 1
     s.radio.since = some 28656 ∧ s.rfe = 8 ∧ s.radio.swapped = true ∧ 1344 ≤ s.tick - 28656 ∧ s.get RFE_CTL_REQ ≠ 0 ∧ s.winOpen = 0) ∧
    (loInRange 0 0 = false ∧ (∃ i : Fin 128, loInRange i.val 0 = true) ∧ 5 ≤ (radioIn 8 id).rfe ∧ (radioIn 8 id).rfe ≤ 8) ∧
    (let s := holdingAll (radioIn 5 fun r => { r with txCaled := true }) [6]
     s.rfe = 5 ∧ s.holds 6 = true ∧ s.radio.txCal = none ∧ s.radio.cal = [] ∧ s.radio.txCaled = true) := by decide

theorem witness_GainDetectorAndAmplifierEffects :
    let s := radioIn 2 fun r => { r with pa := some ⟨3, 7, 30000, false⟩ }
    let t := radioIn 2 fun r => { r with pa := some ⟨0, 0, 30000, true⟩ }
    s.inAir = true ∧ s.clocked = true ∧ s.radio.pa = some ⟨3, 7, 30000, false⟩ ∧ t.radio.pa = some ⟨0, 0, 30000, true⟩ ∧
    (∀ q ∈ [0, 1], (s.paAsserts ((s.rg (0xC9080 + 0x40 * 3 + 8 * 7)).setWidth 15)).contains q = true → s.tiedGranted q = true) ∧
    ∀ q ∈ [0, 1], (t.paAsserts ((t.rg (0xC9080 + 0x40 * 0 + 8 * 0)).setWidth 15)).contains q = true → t.tiedGranted q = true := by
  decide

/-- A transmission of slot 7 begun at tick 28656. -/
def txRun (ramp : Option Nat) : TxRun := ⟨7, 0, 28656, none, ramp, 0⟩

theorem witness_TransmissionEffects :
    (let s := ((holdingAll (radioIn 5 fun r => { r with tx := some (txRun none) }) [4, 6]).put RFE_STATE_TXLOCK 1).put RFE_TXLATE_LIMIT 0
     s.inAir = true ∧ s.clocked = true ∧ s.radio.tx = some (txRun none) ∧ s.rfe = 5 ∧ (txRun none).ramp = none ∧ 1344 ≤ s.tick - (txRun none).begun ∧
     s.txFree = true ∧ 1344 + s.get RFE_TXLATE_LIMIT ≤ s.tick - (txRun none).begun) ∧
    (let s := (radioIn 5 fun r => { r with tx := some (txRun none) }).put RFE_TXLATE_LIMIT 0
     s.radio.tx = some (txRun none) ∧ s.rfe = 5 ∧ s.txFree = false ∧ 1344 + s.get RFE_TXLATE_LIMIT ≤ s.tick - (txRun none).begun ∧
     (txRun none).slot < 8) ∧
    (let s := radioIn 5 fun r => { r with tx := some (txRun (some 29808)) }
     s.radio.tx = some (txRun (some 29808)) ∧ s.rfe = 5 ∧ 192 ≤ s.tick - 29808) ∧
    (let s := ((radioIn 6 fun r => { r with maskPrev := [7] }).put (RFE_MASK_EN 7) 1).put (RFE_MASK_LIMIT 7) 5
     let pts := fun (meas : List (Nat × Nat)) =>
       (meas.filter (fun e => e.1 < 8 && s.test (RFE_MASK_EN e.1) && e.2 < s.get (RFE_MASK_LIMIT e.1))).map (·.1)
     s.rfe = 6 ∧ (∀ k ∈ pts [(7, 5), (8, 0)], k ∉ s.radio.maskPrev) ∧ ∃ k ∈ pts [(7, 4)], k ∈ s.radio.maskPrev) ∧
    (radioIn 4 id).rfe = 4 ∧ (radioIn 2 id).rfe = 2 ∧
    (let s := radioIn 8 fun r => { r with turn := some 29808 }
     s.radio.turn = some 29808 ∧ s.rfe = 8 ∧ s.radio.swapped = false ∧ 192 ≤ s.tick - 29808) ∧
    (let s := (radioIn 7 fun r => { r with turn := some 29808 }).put RFE_STATE_CHAINS 3
     s.radio.turn = some 29808 ∧ s.rfe = 7 ∧ s.radio.swapped = false ∧ 192 ≤ s.tick - 29808 ∧ s.winOpen ≠ 0) := by decide

theorem witness_CalibrationEffects :
    let running := fun (k : CalStep) => holdingAll (radioIn 2 fun r => { r with cal := [k] }) [0, 1, 4, 6]
    (∀ k ∈ [CalStep.rxsyn, .txsyn, .tpm, .iqa, .iqb], (running k).inAir = true ∧ (running k).clocked = true ∧ (running k).radio.calBegun = none ∧
      (running k).radio.cal = k :: [] ∧ (running k).holds 6 = true ∧ (running k).holds 4 = true ∧ (running k).holds 0 = true ∧
      (running k).holds 1 = true) ∧
    (∀ k ∈ [CalStep.rxsyn, .txsyn, .tpm, .iqa, .iqb],
      let s := { running k with radio := { (running k).radio with calBegun := some 0 } }
      s.radio.cal = k :: [] ∧ s.radio.calBegun = some 0 ∧ k.ticks ≤ s.tick - 0) ∧
    (let s := (radioIn 2 id).put RFE_STATE_TCALP_RX 1
     s.rfe ≠ 0 ∧ s.radio.rxCal = none ∧ s.test RFE_STATE_TCALP_RX = true ∧ s.test RFE_STATE_TCALP_TX = false ∧ s.tcalOk = true ∧ s.rfe = 2) ∧
    (let s := (radioIn 6 id).put RFE_STATE_TCALP_RX 1
     s.test RFE_STATE_TCALP_RX = true ∧ s.tcalOk = false ∧ s.radio.deferRx = false) ∧
    (let s := radioIn 2 fun r => { r with rxCal := some ⟨some 26544⟩, txCal := some ⟨some 26544⟩ }
     s.radio.rxCal = some ⟨some 26544⟩ ∧ s.radio.txCal = some ⟨some 26544⟩ ∧ 3456 ≤ s.tick - 26544) := by decide
/-! ## Stalls and the frame unit -/

theorem witness_PlanMapAndPoolEffects :
    let s := State.reset
    s.clocked = true ∧ s.test STC_STATE_HALTER = false ∧
    ((s.rfe = 0 ∨ s.rfe = 2) ∧ ∀ p : Pos, s.get (STL_CFG_RATE p.val) ≤ topRate 0) ∧ ¬ ((radioIn 3 id).rfe = 0 ∨ (radioIn 3 id).rfe = 2) ∧
    (let v : W20 := 0x3FFFF
     (∀ i : Fin 3, s.test (STL_CFG_EN (3 * (15 : Fin 16).val + i.val)) = false ∧ s.laneFailed (v.toNat / 64 ^ i.val % 64) = false ∧
       v.toNat / 64 ^ i.val % 64 = 63)) ∧
    (let v : W20 := 51
     s.laneFailed (v.toNat / 64 ^ (0 : Fin 3).val % 64) = false ∧ ∀ p : Pos, s.get (laneOf p.val) ≠ v.toNat / 64 ^ (0 : Fin 3).val % 64) ∧
    (let u := s.put (STL_CFG_EN 47) 1
     u.test (STL_CFG_EN (3 * (15 : Fin 16).val + (2 : Fin 3).val)) = true ∧ u.get (laneOf (3 * (15 : Fin 16).val + (2 : Fin 3).val)) ≠ 0) ∧
    s.mapped (47 : Pos).val = true ∧ (s.stall (47 : Pos).val).acted = none ∧
    (∀ e : Bool, let u := s.modStall 47 (fun x => { x with acted := some (0, e, !e) })
     (∃ o, (u.stall (47 : Pos).val).acted = some (u.tick, e, o)) ∧ u.mapped (47 : Pos).val = true) ∧
    ((s.put (laneOf 47) 63).mapped (47 : Pos).val = false ∧ (s.put (laneOf 47) 63).test (STL_CFG_EN (47 : Pos).val) = false) ∧
    (let q := poolIx ((0x1FF : W20).toNat / 256)
     let t := (s.put (STC_POOL_CFG_COUNT q) 256).setPool q ⟨[], [(255, .program)]⟩
     (0x1FF : W20).toNat % 256 < t.get (STC_POOL_CFG_COUNT q.val) ∧ t.desc q ((0x1FF : W20).toNat % 256) = .program ∧
     s.get (STC_POOL_CFG_COUNT q.val) ≤ (0x1FF : W20).toNat % 256) ∧
    ((s.pool 1).st = [] ∧ s.poolNamed 1 = false ∧
     (let v : W20 := 1 * 512 + 256
      1 ≤ v.toNat / 512 % 64 ∧ v.toNat / 512 % 64 ≤ 32 ∧ v.toNat % 512 ≤ 256 ∧
      s.get (STC_POOL_BUF_BASE (1 : Fin 2).val) + 64 * (v.toNat / 512 % 64) * (v.toNat % 512) ≤ 0xA0000 ∧
      s.get (STC_POOL_DESC_BASE (1 : Fin 2).val) + 24 * (v.toNat % 512) ≤ 0xA0000)) ∧
    ((s.setPool 1 ⟨[], [(0, .stall)]⟩).pool 1).st ≠ [] := by decide

/-- Position 47 in stall state `n` with window `w`, and pool 0's queue `l`. -/
def stallIn (n w : Nat) (l : List Nat) : State :=
  (((radioIn 4 id).put (STL_STATUS_STATE 47) n).put RFE_STATE_CHAINS w).setPool 0 ⟨l, []⟩

/-- What the correlators report of an aerial that matched. -/
def heard : AerialRx := ⟨0, 900, 800, 100, false⟩

theorem witness_StallEffects :
    (let s := stallIn 2 1 []
     s.inAir = true ∧ s.clocked = true ∧ s.get (STL_STATUS_STATE (47 : Pos).val) = 2 ∧ s.aerialOn (47 : Pos).val false = true ∧
     (s.stall (47 : Pos).val).search + max 4 (s.get STC_RXCFG_PDET) * s.symTicks (47 : Pos).val ≤ s.tick ∧
     s.get STC_DETCFG_PTHR ≤ (1023 : BitVec 10).toNat ∧ s.diversity (47 : Pos).val = false ∧
     (s.stall (47 : Pos).val).search + s.get (STL_SYNCHI_LEN (47 : Pos).val) * s.symTicks (47 : Pos).val ≤ s.tick ∧
     s.aerialOn (47 : Pos).val true = false) ∧
    (let s := stallIn 2 3 []
     s.get (STL_STATUS_STATE (47 : Pos).val) = 2 ∧ s.aerialOn (47 : Pos).val true = true ∧ s.diversity (47 : Pos).val = true) ∧
    (let s := stallIn 3 3 []
     s.get (STL_STATUS_STATE (47 : Pos).val) = 3 ∧
     (s.stall (47 : Pos).val).heard + max 1 (s.get STC_RXCFG_DWIN) * s.symTicks (47 : Pos).val ≤ s.tick) ∧
    (let s := ((stallIn 2 1 []).put (STL_SYNCHI_LEN 47) 16).put (STL_SYNCLO_LO 47) 0x1234
     s.declares (47 : Pos).val { heard with hard := 0x1234 } heard = some false ∧
     s.declares (47 : Pos).val { heard with hard := 0xEDCB } heard = none) ∧
    (let s := ((stallIn 4 1 [255]).put (STL_SYNCHI_LEN 47) 16).put (STL_SYNCLO_LO 47) 0
     s.declares (47 : Pos).val heard heard = some false ∧ s.get (STL_STATUS_STATE (47 : Pos).val) ≠ 5 ∧
     (s.pool (poolIx (s.get (STL_CFG_POOL (47 : Pos).val)))).queue = 255 :: [] ∧ 255 < 256 ∧
     s.tookAbove (poolIx (s.get (STL_CFG_POOL (47 : Pos).val))) (47 : Pos).val = []) ∧
    (let s := stallIn 4 1 []
     (s.pool (poolIx (s.get (STL_CFG_POOL (47 : Pos).val)))).queue = [] ∧ s.get (STL_STATUS_STATE (47 : Pos).val) = 4 ∧
     (s.stall (47 : Pos).val).knock = none ∧
     (s.stall (47 : Pos).val).choice + (max 1 (s.get STC_SYNCTO_SYNC_TO) + 1) * s.symTicks (47 : Pos).val ≤ { s with tick := 200000 }.tick) := by
  decide

/-- Position 47 receives frame `f`, with pool 0 of one buffer of 64 bytes. -/
def receiving (f : Frame) : State :=
  let s := (stallIn 5 1 []).put (STC_POOL_CFG_SIZE 0) 1
  { s.modStall 47 (fun x => { x with frame := some f.id }) with frame := { s.frame with frames := [f] } }

/-- A native frame of 47 whose header is to come. -/
def newFrame : Frame := ⟨9, 47, 0, 0, true, SyncRec.zero, 0, 0, 0, 0, false, false, 0, 0, 0, 0, [], 0, false⟩

theorem witness_FrameUnitEffects_headers :
    let s := receiving newFrame
    let soft := fun (w : Nat) => ((List.range 64).map (fun i => if w.testBit (31 - i % 32) then (9 : Int) else -9))
    let judge := fun (w : Nat) (bad : Nat) =>
      let l := soft (headerExt w + bad)
      judgeNative (s.test STC_STATE_HALTER) (s.bufSize (poolIx newFrame.pool)) (BitVec.ofNat 32 (bitsNat (s.decisions
        ((List.range 32).map (fun i => (l[i]?).getD 0 + (l[32 + i]?).getD 0))).1))
    s.inAir = true ∧ (s.stall (47 : Pos).val).frame = some 9 ∧ s.frameOf 9 = some newFrame ∧ newFrame.headed = false ∧ newFrame.headTick ≤ s.tick ∧
    newFrame.sun = false ∧ s.get (STL_STATUS_STATE (47 : Pos).val) = 5 ∧ judge (64 * 2 ^ 9) 1 = .bad ∧
    judge (65 * 2 ^ 9) 0 = .oversize ∧ judge (64 * 2 ^ 9) 0 = .ok 64 0 0 0 ∧ (s.jobsOf newFrame.pos).length < 3 := by decide

theorem witness_FrameUnitEffects_decoder :
    (let f := { newFrame with headed := true, len := 20, blocks := [some (.good []), none], queued := 1 }
     let s := receiving f
     s.inAir = true ∧ s.blockFrame (47 : Pos).val = some f ∧ f.blockTick f.queued ≤ s.tick ∧ f.queued + 1 = f.blocks.length) ∧
    (let j : Job := ⟨9, 1, 47, 0, false, []⟩
     let s := holdingAll (receiving { newFrame with headed := true, len := 114 }) [3]
     let t := { s with frame := { s.frame with jobs := [j] } }
     let u := { s with frame := { s.frame with running := some j, begun := 30000 - 2048, iter := 12 } }
     let f := { newFrame with headed := true, len := 114 }
     let data := List.replicate (codeK f.rate f.bs / 8 - 3) (7 : Byte)
     let crcBits := (toBytesBE 3 (crc24 data)).flatMap bitsMsb
     let hard := data.flatMap bitsMsb ++ crcBits
     let bits := fun (l : List Bool) => codeKnown f.rate f.bs (blockData f.len f.rate f.bs j.block) (bitsTo (24 * codeZ f.bs) l)
     t.inRun = true ∧ u.inRun = true ∧ t.frame.running = none ∧ t.holds 3 = true ∧ t.frame.jobs = [j] ∧ u.frame.running = some j ∧ u.frame.dead = none ∧
     u.frameOf j.frame = some f ∧ f.last = false ∧ j.block ≠ 0 ∧ 48 * (40 + 12 * iterCycles f.rate) ≤ 125 * (u.tick - u.frame.begun) ∧
     12 = u.frame.iter ∧ crc24 (packMsb (codeK f.rate f.bs / 8) (bits hard)) = 0 ∧
     crc24 (packMsb (codeK f.rate f.bs / 8) (bits [])) ≠ 0 ∧ synZero f.rate f.bs (bits []) = true ∧
     125 * ({ u with tick := 27952 }.tick - u.frame.begun) < 48 * (40 + 12 * iterCycles f.rate)) ∧
    (let s := { State.reset with tick := 1, frame := { State.reset.frame with idleAt := some 0 } }
     s.inRun = true ∧ s.clocked = true ∧ s.frame.idleAt = some 0 ∧ 0 < s.tick ∧ s.frame.running = none ∧ s.frame.jobs = [] ∧ s.test DEC_CTL_HOLD = false) := by
  decide +kernel

theorem witness_FrameUnitEffects_packets :
    let data : List Byte := [7] ++ toBytesBE 3 (crc24 [7])
    let body := whiten (data.flatMap bitsMsb)
    (let f := { newFrame with headed := true, rate := 3, mode := 1, blocks := [none], len := 1 }
     let s := receiving f
     s.inAir = true ∧ s.packetFrame (47 : Pos).val = some f ∧ f.lastTick ≤ s.tick ∧ f.last = false ∧ f.sun = false ∧ f.rate = 3 ∧ f.mode = 1 ∧
     f.blocks = [none] ∧ f.len ≠ 0 ∧ f.pool < 2 ∧ (packMsb (f.len + 3) (whiten body)).length = f.len + 3 ∧
     crc24 (packMsb (f.len + 3) (whiten body)) = 0) ∧
    (let v : W20 := 0x80000
     let u := fun (s : State) => s.setRg (FU_TX_CTL (15 : Fin 16).val) (v &&& 0x3FFE0)
     State.reset.test (FU_TX_CTL_READY (15 : Fin 16).val) = false ∧ v.getLsbD 19 = true ∧
     (u State.reset).txValid (15 : Fin 16).val = false ∧ (u (State.reset.put (FU_TX_LEN_LENGTH 15) 1600)).txValid (15 : Fin 16).val = true) := by
  decide
/-! ## The slot schedule, the neighbour table and the link assists -/

theorem witness_SlotScheduleEffects :
    let s := State.reset
    (s.notDormant = true ∧ s.clocked = true ∧
     (let t := { s.put SCH_CTL_RUN 1 with mesh := 384000 }
      t.test SCH_CTL_RUN = true ∧ t.reached (t.sched.start + BitVec.ofNat 40 t.sched.slotLen) = true) ∧
     (38400 ≤ (0xFD200 : W20).toNat ∧ (0xFD200 : W20).toNat ≤ 1036800 ∧ s.get SCH_SYNCOFS_OFS < (0xFD200 : W20).toNat) ∧
     ¬ 38400 ≤ (38399 : W20).toNat ∧ ((0 : W20).toNat < s.sched.slotLen ∧ (0 : W20).toNat < s.get SCH_SLOTLEN_LEN) ∧
     ¬ (384000 : W20).toNat < s.sched.slotLen ∧ (s.mesh - s.get40 SCH_LDSTARTLO SCH_LDSTARTHI).toNat < s.get SCH_SLOTLEN_LEN ∧
     s.test SCH_CTL_RUN = false ∧ (s.mesh - s.sched.start).toNat < 2 ^ 39 ∧
     ((0x2FBEF : W20).toNat % 64 ≤ 47 ∧ (0x2FBEF : W20).toNat / 64 % 64 ≤ 47 ∧ (0x2FBEF : W20).toNat / 4096 % 64 ≤ 47) ∧
     1 ≤ (64 : W20).toNat % 128 ∧ (64 : W20).toNat % 128 ≤ 64 ∧ (0xFFFFFFFFFF : W40) ≠ 0 ∧ s.nbCount = 0 ∧ s.sched.sweep = false ∧
     (∀ n : Fin 4, s.test (KC_INFO_VALID n.val) = false)) ∧
    (let c : Sched := { s.sched with sweep := true }
     c.sweep = true ∧ c.sweepQ = [] ∧ c.samples = []) := by decide

theorem witness_NeighbourTableEffects_commands :
    let s := ((((State.reset.put NBT_BASE_BASE 0x1000).put NBT_SIZE_EN 1).put NBT_SIZE_COUNT 2).put RPW_BASE_BASE 0x2000).setRg NBT_KEYLO 1
    let nb := fun (st : Byte) => s.setBytes .sram 0x1020 [0, 0, st * 4, 1]
    (s.clocked = true ∧ s.inRun = true ∧ s.test NBT_STAT_BUSY = false ∧ s.test NBT_SIZE_EN = true ∧ (1 : BitVec 11).toNat < s.nbCount ∧
     s.nbAt 1 + 30 ≤ 0xA0000 ∧ s.rpwAt 1 + 3 ≤ 0xA0000 ∧ s.nbAt 1 + 30 ≤ s.rpwAt 1 ∧
     (nb 2).nbFind ((nb 2).get32 NBT_KEYLO NBT_KEYHI) = some 1 ∧
     ((s.nb 1).st = 0 ∧ 1 ∈ s.nbProbe (s.get32 NBT_KEYLO NBT_KEYHI) ∧ s.nbFind (s.get32 NBT_KEYLO NBT_KEYHI) = none) ∧
     (nb 1).sched.taken = [] ∧
     (let t := { nb 2 with sched := { (nb 2).sched with taken := [(0, 1)] } }
      (t.tick, 1) ∈ t.sched.taken ∧ (t.nb 1).st ≠ 0) ∧ ((nb 1).nb 1).st = 1 ∧ ((nb 3).nb 1).st = 3 ∧ ((nb 2).nb 1).st = 2 ∧ ((nb 2).nb 1).si = 0 ∧
     (let t := (nb 2).put NBT_CFG_MISS_LIMIT 1
      (t.nb 1).st = 2 ∧ max 1 (t.get NBT_CFG_MISS_LIMIT) ≤ min 7 ((t.nb 1).miss + 1))) ∧
    (∀ g, s.nbAt 1 / 4 ≤ g → g ≤ (s.nbAt 1 + 29) / 4 → s.chk g = .good) ∧
    (∀ g, s.rpwAt 1 / 4 ≤ g → g ≤ (s.rpwAt 1 + 2) / 4 → s.chk g = .good) ∧
    (let t := { s with sched := { s.sched with busy := true } }
     t.sched.busy = true ∧ t.sched.samples = []) :=
  ⟨by decide, fun _ _ _ => rfl, fun _ _ _ => rfl, by decide⟩

theorem witness_NeighbourTableEffects_knocks :
    (let s := ((stallIn 2 1 []).setRg (KNK_EN 2) 0xFFFFF).put (STL_SYNCHI_LEN 47) 32
     s.inAir = true ∧ 2 ≤ s.get (STL_STATUS_STATE (47 : Pos).val) ∧ s.get (STL_STATUS_STATE (47 : Pos).val) ≤ 4 ∧
     (s.stall (47 : Pos).val).knock = none ∧ s.knockOn (47 : Pos).val = true ∧ s.get (STL_SYNCHI_LEN (47 : Pos).val) = 32 ∧
     (s.stall (47 : Pos).val).search + 32 * s.symTicks (47 : Pos).val ≤ s.tick ∧
     32 ≤ s.syncDiff (47 : Pos).val 32 (~~~(s.syncWord (47 : Pos).val)) + s.get (STL_SYNCHI_ERRS (47 : Pos).val) ∧
     s.knockMatch (47 : Pos).val { heard with hard := s.syncWord (47 : Pos).val } = false ∧
     s.aerialOn (47 : Pos).val false = true ∧ s.aerialOn (47 : Pos).val true = false) ∧
    (let s := { (stallIn 4 1 []).modStall 47 (fun x => { x with knock := some (5, 0) }) with tick := 200000 }
     (s.stall (47 : Pos).val).knock = some (5, 0) ∧ 0 + 52 * s.symTicks (47 : Pos).val ≤ s.tick ∧ s.kcSlot (47 : Pos).val = some 0 ∧
     crc12 40 ((BitVec.ofNat 52 (7 * 2 ^ 12 + crc12 40 7)).toNat / 2 ^ 12) = (BitVec.ofNat 52 (7 * 2 ^ 12 + crc12 40 7)).toNat % 2 ^ 12 ∧
     crc12 40 ((1 : BitVec 52).toNat / 2 ^ 12) ≠ (1 : BitVec 52).toNat % 2 ^ 12) := by decide

/-- The link part of the reset state changed, at tick 30000. -/
def linked (n : Nat) (f : Link → Link) : State :=
  let s := radioIn n id
  { s with link := f s.link }

/-- A relay of one frame in a stage, its fold entry at 0x40. -/
def relayAt (st : RelaySt) : Relay := ⟨0, st, 0x40, 0, 0, 20, 0, 0⟩

theorem witness_LinkAssistEffects_fold :
    let s := State.reset
    (s.inRun = true ∧ s.test FOLD_CFG_EN = false ∧ s.test FOLD_CFG_BUSY = false ∧ (0x80000 : W20).getLsbD 19 = true ∧
     s.foldPlaced ((0x80000 : W20).toNat % 32) = true ∧ s.foldBase < 0xA0000) ∧
    (s.put FOLD_CFG_EN 1).test FOLD_CFG_EN = true ∧ (0x7FFFF : W20).getLsbD 19 = false ∧
    (linked 0 fun l => { l with foldClr := true }).link.foldClr = true := by decide

theorem witness_LinkAssistEffects_relays :
    let on := fun (n : Nat) (st : RelaySt) (entry : Nat) =>
      (linked n fun l => { l with relays := [{ relayAt st with entry := entry }] }).put FOLD_CFG_EN 1
    ((State.reset.put RLY_CFG_EN 1).test RLY_CFG_EN = true ∧ State.reset.link.relays = []) ∧
    (let s := on 2 .loaded 0x40
     s.inRun = true ∧ s.link.relays = [relayAt .loaded] ∧ (relayAt .loaded).st = .loaded ∧ s.foldUsable = true ∧
     s.reached (s.sched.start + BitVec.ofNat 40 (s.get RLY_FIRE_FIRE)) = true ∧
     (let t := { s.put (FU_TX_CTL_READY (s.get RLY_CFG_SLOT)) 1 with radio := { s.radio with rxInt := 90 } }
      let u := (t.wideRead 3 0x40 15).2.2
      (t.wideRead 3 0x40 15).1 = 0 ∧ (FoldEnt.ofBytes (t.wideRead 3 0x40 15).2.1).heard < u.relayK ∧ u.txArmed = false ∧
      u.ackDue = false ∧ u.txBar (u.get RLY_CFG_SLOT) = none)) ∧
    (let s := on 2 .loaded 0x100000
     s.foldUsable = true ∧ (s.wideRead 3 0x100000 15).1 ≠ 0) ∧
    (let s := (on 2 .loaded 0x40).setBytes .sram 0x40 (List.replicate 15 0xFF)
     s.foldUsable = true ∧ (s.wideRead 3 0x40 15).1 = 0 ∧
     (s.wideRead 3 0x40 15).2.2.relayK ≤ (FoldEnt.ofBytes (s.wideRead 3 0x40 15).2.1).heard) ∧
    (let s := on 2 .failed 0x40
     s.link.relays = [relayAt .failed] ∧ (relayAt .failed).st = .failed ∧ s.test LNK_FLAGS_FOLD_ERR = false ∧
     max 1 ((s.put RLY_CFG_TRIES 1).get RLY_CFG_TRIES) ≤ (relayAt .failed).tries + 1 ∧
     (relayAt .failed).tries + 1 < max 1 ((s.put RLY_CFG_TRIES 2).get RLY_CFG_TRIES)) := by decide

/-- An immediate ACK of the frame that ended at tick 29000 and was decoded at 29100. -/
def ackRun (st : AckSt) (fired : Bool) : AckRun := ⟨9, 47, 0, 0, 0, none, st, 29100, some 29000, fired, false, false, false⟩

theorem witness_LinkAssistEffects_acks :
    (let s := (linked 2 fun l => { l with ack := some (ackRun .waiting false) }).put ACK_CFG_WIN 99
     s.inRun = true ∧ s.link.ack = some (ackRun .waiting false) ∧ (ackRun .waiting false).endAt = some 29000 ∧
     max 29000 (ackRun .waiting false).decAt < s.tick ∧ s.get ACK_CFG_WIN < (ackRun .waiting false).decAt - 29000) ∧
    (let t := (linked 2 fun l => { l with ack := some (ackRun .accepted false) }).put ACK_CFG_WIN 100
     let s := { t with radio := { t.radio with rxInt := 90 } }
     (ackRun .accepted false).decAt - 29000 ≤ s.get ACK_CFG_WIN ∧ s.test (FU_TX_CTL_READY (s.get ACK_CFG_SLOT)) = false ∧
     ((s.ackLoad (ackRun .accepted false)).any fun u => !u.txArmed && (u.txBar (s.get ACK_CFG_SLOT)).isNone) = true) ∧
    (let x : TxRun := ⟨0, 0, 20000, none, some 20000, 0⟩
     let on := fun (st : AckSt) => (linked 6 fun l => { l with ack := some (ackRun st true) })
     let f : TxFrame := ⟨List.replicate 40 3, 48, 1, [], 0, []⟩
     let s := { on .accepted with tick := 10000000, radio := { (on .accepted).radio with tx := some x } }
     let s := { s with frame := { s.frame with tx := some f } }
     s.inRun = true ∧ s.link.ack = some (ackRun .accepted true) ∧ s.radio.tx = some x ∧ (ackRun .accepted true).fired = true ∧
     (ackRun .accepted true).full = false ∧ (ackRun .accepted true).cut = false ∧ x.slot = s.get ACK_CFG_SLOT ∧ s.rfe = 6 ∧
     192 + ((s.frame.tx.map (·.lead.length)).getD 0 - 1) * s.txSym ≤ s.tick - x.ramp.getD s.tick ∧
     (ackRun .accepted true).nbr = none ∧ s.get ACK_BUF_ADDR + 18 ≤ 0xA0000) ∧
    (let s := linked 2 fun l => { l with ackWait := some (1, 2, 0) }
     s.link.ackWait = some (1, 2, 0) ∧ (s.rg ACKW_TO).toNat < { s with tick := 10000000 }.tick - 0) := by decide

theorem witness_LinkAssistEffects_ends :
    (let s := linked 2 fun l => { l with rc := [(1, 2)], rcCopy := some (0x9FFFE, [1, 2]) }
     s.inRun = true ∧ s.test RC_STATE_BUSY = false ∧ (0 : W20).toNat + 1 + 8 * min (min (max 1 (s.get RC_STATE_MAX)) 32) s.link.rc.length ≤ 0xA0000 ∧
     s.link.rcCopy = some (0x9FFFE, [1, 2]) ∧ 0x9FFFE + ([1, 2] : List Byte).length ≤ 0xA0000) ∧
    (let s := (State.reset.put (TR_INFO_STATE 63) 1).put (TR_INFO_USE 63) 8
     s.get (TR_INFO_STATE ((0x8003F : W20).toNat % 64)) ≠ 0 ∧ 8 ≤ s.get (TR_INFO_USE ((0x8003F : W20).toNat % 64)) ∧
     (0x8003F : W20).getLsbD 19 = true ∧ State.reset.get (TR_INFO_STATE ((0x8003F : W20).toNat % 64)) = 0 ∧
     (0x0003F : W20).getLsbD 19 = false) ∧
    (let x : TxRun := ⟨15, 0, 20000, none, some 20000, 0⟩
     let on := fun (n : Nat) => radioIn n fun r => { r with tx := some x }
     let s := ((on 6).put (FU_TX_SRC_SRC 15) 0x9FFFF).put (FU_TX_LEN_LENGTH 15) 1
     let f : TxFrame := ⟨List.replicate 40 3, 48, 1, [7], 1, [true]⟩
     let s := { s with frame := { s.frame with tx := some f } }
     s.frame.tx = some f ∧ s.txBlocks x.slot ≤ f.next ∧ f.nextTick (x.ramp.getD s.tick) ≤ s.tick ∧
     { s with tick := 20001 }.tick < f.nextTick (x.ramp.getD 20001) ∧ s.radio.tx = some x ∧ x.slot < 16 ∧ s.rfe = 6 ∧ (on 5).rfe = 5 ∧ s.inRun = true ∧ s.link.ack = none ∧ s.link.relays = [] ∧
     s.get (FU_TX_SRC_SRC x.slot) ≤ (0x9FFFC : W20).toNat + 3 ∧
     (0x9FFFC : W20).toNat < s.get (FU_TX_SRC_SRC x.slot) + s.get (FU_TX_LEN_LENGTH x.slot)) := by decide
/-! ## The tack room, the cipher engine and the hash engine -/

theorem witness_TackRoomEffects :
    let s := (State.reset.put TR_ATTR_USE 1).put TR_ATTR_KEKSLOT 1
    let full := s.put (TR_INFO_STATE 63) 1
    let kek := (s.put (TR_INFO_STATE 1) 1).put (TR_INFO_USE 1) 1
    s.inRun = true ∧ s.mayReach (.core 3 true) TR_CMD = true ∧ s.mayReach (.core 3 false) TR_CMD = false ∧ Source.core 3 false ≠ .host ∧
    (s.setRg HSP_PERM 0xFFFFF).mayReach .host TR_CMD = true ∧ mayTrust .host = false ∧ mayTrust (.core 3 true) = true ∧ s.test TR_STAT_BUSY = false ∧
    s.get (TR_INFO_STATE (63 : Fin 64).val) = 0 ∧ full.get (TR_INFO_STATE (63 : Fin 64).val) ≠ 0 ∧ s.get TR_ATTR_USE ≠ 0 ∧
    s.get TR_WARN_VALUE < 65536 ∧ s.get TR_LIMIT_VALUE = 0 ∧ s.test TRNG_STAT_FAIL = false ∧ s.get TR_ARG_VALUE + 104 ≤ 0xA0000 ∧
    kek.get (TR_INFO_STATE (63 : Fin 64).val) = 0 ∧ kek.get (TR_INFO_STATE (kek.get TR_ATTR_KEKSLOT)) = 1 ∧
    kek.get (TR_INFO_USE (kek.get TR_ATTR_KEKSLOT)) % 2 = 1 ∧ kek.get (TR_COUNT_VALUE (kek.get TR_ATTR_KEKSLOT)) + 1 < 2 ^ 20 := by
  decide

/-- The state with a tack-room command of result `res` at its end. -/
def trEnding (op res : Nat) : State :=
  { holding State.reset 14 3 with cipher := { State.reset.cipher with tr := some ⟨op, 63, res, 7, 0x04000, 3, 3, 0, 9, [1, 2], 0x9FFFE, 0⟩ } }

theorem witness_TackRoomEffects_ends :
    let run : Nat → Nat → TrRun := fun op res => ⟨op, 63, res, 7, 0x04000, 3, 3, 0, 9, [1, 2], 0x9FFFE, 0⟩
    ((trEnding 4 0).cipher.tr = some (run 4 0) ∧ (trEnding 1 0).cipher.tr = some (run 1 0) ∧ (trEnding 5 0).cipher.tr = some (run 5 0) ∧
     (trEnding 1 2).cipher.tr = some (run 1 2) ∧ (run 5 0).slot < 64 ∧ (run 1 2).res ≠ 0 ∧ (run 5 0).count < 2 ^ 20 ∧
     trWork 1 = true ∧ trWork 4 = false ∧ (trEnding 1 0).holds 14 = true ∧
     ({ trEnding 1 0 with manger := State.reset.manger } : State).holds 14 = false ∧ (run 5 0).reserve < 2 ^ 20 ∧ (run 5 0).outAt + (run 5 0).out.length ≤ 0xA0000 ∧ (run 5 0).out ≠ []) ∧
    ∀ g, 0x9FFFE / 4 ≤ g → g ≤ (0x9FFFE + 2 - 1) / 4 → (trEnding 5 0).chk g = .good :=
  ⟨by decide, fun _ _ _ => rfl⟩

/-- A CCM request of four bytes for slot 63. -/
def ccmReq (op : Nat) : CphReq := ⟨1, 0x100, op, 63, 1, 0, 4, 0x200, 0x240, 0x300, 0x400, 0x500⟩

/-- The cipher part of the reset state changed, with the engine's charge held. -/
def ciphered (f : Cipher → Cipher) : State :=
  let s := holding State.reset 14 3
  { s with cipher := f s.cipher }

theorem witness_CipherEngineEffects :
    (let s := ciphered fun c => { c with waits := [⟨6, 0x9FFE8, 0⟩] }
     s.inRun = true ∧ s.mayReach .host CPH_SUBMIT = false ∧ (s.setRg HSP_PERM 0xFFFFF).mayReach .host CPH_SUBMIT = true ∧
     0x9FFE8 ≠ updReqAt ∧ (ccmReq 1).recAt ≠ updReqAt ∧ (6 : Fin 7) ≠ 0 ∧ (∃ w ∈ s.cipher.waits, w.src = (6 : Fin 7).val) ∧ (∀ w ∈ s.cipher.waits, w.src ≠ (5 : Fin 7).val) ∧
     s.cipher.waits = [⟨6, 0x9FFE8, 0⟩] ∧ s.cqFree = true ∧ 0x9FFE8 + 24 ≤ 0xA0000 ∧
     (CphReq.ofBytes 6 0x9FFE8 (s.bytes .sram 0x9FFE8 24)).refuse = some 0x24) ∧
    (let t := (ciphered fun c => { c with waits := [⟨6, 0x9FFE8, 0⟩] }).setBytes .sram 0x9FFEB [0, 0, 1, 4]
     let s := (t.put (TR_INFO_STATE 0) 1).put (TR_INFO_USE 0) 4
     let r := CphReq.ofBytes 6 0x9FFE8 (s.bytes .sram 0x9FFE8 24)
     r.refuse = none ∧ s.slotRefuse r.slot (usePermits (s.get (TR_INFO_USE r.slot)) r.op) = none ∧
     s.get (TR_COUNT_VALUE r.slot) + 1 < 2 ^ 20 ∧
     (let x : TrRun := ⟨4, r.slot, 0, 0, 0, 0, 0, 0, 0, [], 0, 0⟩
      let u := { s with cipher := { s.cipher with tr := some x } }
      u.cipher.tr = some x ∧ x.op = 4 ∧ x.slot = r.slot ∧ x.wrAt = u.tick)) ∧
    (let s := ciphered fun c => { c with queue := [ccmReq 1] }
     s.cipher.queue = ccmReq 1 :: [] ∧ s.cipher.running = none ∧ s.holds 14 = true ∧ (ccmReq 1).op ≠ 2 ∧ (ccmReq 1).op ≠ 4) ∧
    (let s := ciphered fun c => { c with queue := [ccmReq 2] }
     s.cipher.queue = ccmReq 2 :: [] ∧ (ccmReq 2).op = 2 ∧ s.cipher.half0 = none) ∧
    (let nonce : List Byte := List.replicate 13 9
     let data : List Byte := [1, 2, 3, 4]
     let s := ciphered fun c => { c with running := some (ccmReq 1, none), got := nonce ++ [] ++ data }
     s.cipher.running = some (ccmReq 1, none) ∧ nonce.length = 13 ∧ ([] : List Byte).length = (ccmReq 1).aadN ∧
     data.length = (ccmReq 1).len ∧ s.cipher.got = nonce ++ [] ++ data ∧
     { s with cipher := { s.cipher with got := [] } }.cipher.got.length < ((s.operands (ccmReq 1)).map (·.2)).sum ∧ (ccmReq 1).src ≠ 0 ∧ (ccmReq 1).op = 1 ∧ (ccmReq 1).len ≠ 0 ∧ s.cipher.queue.length ≤ 16) ∧
    (let nonce : List Byte := List.replicate 13 9
     let data : List Byte := [1, 2, 3, 4]
     let tag := List.replicate 8 (0 : Byte)
     let key := State.reset.slotBytes (ccmReq 2).slot
     let s := ciphered fun c => { c with running := some (ccmReq 2, some 0), half0 := some 63, got := nonce ++ [] ++ data ++ tag }
     s.cipher.running = some (ccmReq 2, some 0) ∧ tag.length = 4 * 2 ^ (ccmReq 2).tagN ∧ s.cipher.got = nonce ++ [] ++ data ++ tag ∧
     ccmTag key nonce [] (ccmXor key nonce data) 8 ≠ tag ∧ (ccmTag key nonce [] (ccmXor key nonce data) 8).length = 8 ∧ (ccmReq 2).src ≠ 0 ∧ (ccmReq 2).op = 2 ∧ s.cipher.queue.length ≤ 16) ∧
    (let s := { State.reset with tick := 1 }
     s.cphQuiet = true ∧ s.cipher.workAt < s.tick) := by decide +kernel

theorem witness_HashAndTrngEffects :
    let s := { State.reset with otp := { State.reset.otp with lit := true } }
    let ended := fun (out : List Byte) => ({ ciphered (fun c => { c with hpk := some ⟨5, 0, 0, out, 0x9FFC0⟩ }) with otp := s.otp } : State)
    (s.inRun = true ∧ State.reset.hpkBusy = true ∧ s.hpkBusy = false ∧ (s.put HPK_LEN_VALUE 4095).get HPK_LEN_VALUE ≠ 0 ∧
     s.get HPK_A_ADDR + 64 ≤ 0xA0000 ∧ s.get HPK_B_ADDR + 32 ≤ 0xA0000 ∧
     s.get HPK_C_ADDR + 64 ≤ 0xA0000 ∧ s.mayReach (.core 0 false) HPK_CMD = false ∧ s.mayReach .debug HPK_CMD = true ∧ privCore .debug = false ∧
     privCore (.core 0 true) = true ∧ State.reset.mayReach .debug HPK_CMD = true ∧
     (let x : Xfer := ⟨0x9FFFD, [], 3, .hashLine, false⟩
      let t := holding { s with cipher := { s.cipher with hpk := some ⟨2, 0, 3, [], 0⟩ }, dma := { s.dma with
        blk := s.dma.blk.set 4 [x] } } 15 5
      t.dma.blk[(3 : Fin 5)] = [] ∧ t.dma.blk[(4 : Fin 5)] = [x] ∧ t.dma.credits = [] ∧ 0 < x.rd ∧ t.dmaLive = true ∧
      t.dmaTouch.dmaPick = some 15 ∧ x.addr + min (64 - x.addr % 64) x.rd ≤ 0xA0000 ∧
      t.cipher.hpk = some ⟨2, 0, 3, [], 0⟩) ∧ s.get TRUST_STATE_ID_USES < 16 ∧ s.test TRNG_STAT_FAIL = false ∧
     (ended []).holds 14 = true ∧ (ended []).cipher.hpk = some ⟨5, 0, 0, [], 0x9FFC0⟩ ∧ (ended [1]).cipher.hpk = some ⟨5, 0, 0, [1], 0x9FFC0⟩ ∧
     0x9FFC0 + 1 ≤ 0xA0000 ∧ (s.put TRNG_STAT_FAIL 1).test TRNG_STAT_FAIL = true ∧
     s.cipher.trngN = 0 ∧ ({ s with cipher := { s.cipher with trngN := 1 } } : State).cipher.trngN ≠ 0 ∧ s.holds 14 = false) ∧
    ∀ a n g, a / 4 ≤ g → g ≤ (a + n - 1) / 4 → s.chk g = .good :=
  ⟨by decide, fun _ _ _ _ _ => rfl⟩
/-! ## The chord, the timers and the clock -/

/-- Both ports in line, the schedule running from tick 0 with mesh time 100, entry 31 of the active bay table as given, and
the chord's part changed. -/
def chordUp (role dir : Nat) (f : Chord → Chord) : State :=
  let s := (((State.reset.put CHD_STATE_BYPASS 0).put CHD_STATE_INA 1).put CHD_STATE_INB 1).put SCH_CTL_RUN 1
  { s with mesh := 100, chord := f { s.chord with active := [(31, ⟨100, 400, role, dir, 0⟩)] } }

/-- A bay of entry 31 in progress. -/
def bayRun (drive : Option Nat) (phase : Nat) : BayRun :=
  ⟨31, drive, 3, 0, true, true, false, false, 0, phase, false, false, false, false, false⟩

theorem witness_ChordEffects_ports :
    State.reset.notDormant = true ∧ State.reset.clocked = true ∧ State.reset.inRun = true ∧ State.reset.anyIn = false ∧ (0x2 : W20).getLsbD (1 : Fin 2).val = true ∧
    (0x2 : W20).getLsbD (0 : Fin 2).val = false ∧
    (let s := chordUp 1 3 id
     s.inRun = true ∧ s.anyIn = true ∧ (s.rg CHD_CTL).toNat / 4 % 4 ≠ (0xC : W20).toNat / 4 % 4 ∧ s.chord.bay = none ∧
     s.inLine .a = true ∧ s.inLine .b = true ∧ s.chord.lock = none) ∧
    State.reset.chord.bay = none ∧ State.reset.test CHD_CTL_EN_A = false ∧ State.reset.test CHD_CTL_EN_B = false ∧
    (State.reset.put CHD_CTL_EN_A 1).test CHD_CTL_EN_A = true ∧
    (let s := State.reset.put CHD_CTL_KDET 1
     s.test CHD_CTL_KDET = true ∧ s.notDormant = true) ∧ knockHeard (knockWord ^^^ 0x8000000000000003) = true ∧
    knockHeard (knockWord ^^^ 0x800000000000000B) = false := by decide

theorem witness_ChordEffects_bays :
    (let s := (chordUp 2 3 fun c => { c with grants := [(31, 7)] }).put (CTX_LEN_LENGTH 7) 1
     s.test SCH_CTL_RUN = true ∧ s.test CHD_STATE_HALTER = false ∧ s.test CHD_CTL_ACQ = false ∧ s.chord.bay = none ∧
     s.bayActive (31 : Fin 32).val = true ∧ s.chord.ended.contains (31 : Fin 32).val = false ∧ (s.bay (31 : Fin 32).val).role < 6 ∧
     s.reached (s.sched.start + BitVec.ofNat 40 (s.bay (31 : Fin 32).val).ofs) = true ∧
     s.reached (s.sched.start + BitVec.ofNat 40 (s.bay (31 : Fin 32).val).ofs + BitVec.ofNat 40 (s.bay (31 : Fin 32).val).len) = false ∧
     s.grantOf (31 : Fin 32).val = some 7 ∧ (s.bay (31 : Fin 32).val).role = 2 ∧ s.portsIn (s.bay (31 : Fin 32).val).dir ≠ 0 ∧
     s.test CHD_STATE_HEALED = false ∧ (88 + 8 * s.get (CTX_LEN_LENGTH 7)) * 15360 ≤ (s.bay (31 : Fin 32).val).len * 10000 ∧
     s.get (CTX_LEN_LENGTH 7) ≠ 0) ∧
    (∀ role ∈ [4, 5], let s := chordUp role 3 (fun c => { c with lock := some .a })
     s.test SCH_CTL_RUN = true ∧ s.test CHD_STATE_HALTER = false ∧ s.test CHD_CTL_ACQ = false ∧ s.chord.bay = none ∧
     s.bayActive (31 : Fin 32).val = true ∧ s.chord.ended.contains (31 : Fin 32).val = false ∧ (s.bay (31 : Fin 32).val).role = role ∧
     s.chord.lock ≠ none ∧ s.inLine .b = true ∧ s.portsIn (s.bay (31 : Fin 32).val).dir ≠ 0 ∧
     s.reached (s.sched.start + BitVec.ofNat 40 (s.bay (31 : Fin 32).val).ofs) = true ∧
     s.reached (s.sched.start + BitVec.ofNat 40 (s.bay (31 : Fin 32).val).ofs + BitVec.ofNat 40 (s.bay (31 : Fin 32).val).len) = false) ∧
    (let s := { chordUp 3 3 (fun c => { c with grants := [(31, 7)], bay := some { bayRun none 0 with passed := false } }) with mesh := 500 }
     let r := { bayRun none 0 with passed := false }
     s.chord.bay = some r ∧ s.grantOf r.entry = some 7 ∧ r.check = true ∧ (s.bay r.entry).role = 3 ∧ s.test CHD_CTL_MASTER = false ∧
     r.taken = false ∧ s.inLine .a = true ∧
     s.reached (s.sched.start + BitVec.ofNat 40 (s.bay r.entry).ofs + BitVec.ofNat 40 (s.bay r.entry).len) = true) ∧
    (let s := { chordUp 5 3 (fun c => { c with bay := some (bayRun (some 7) 1) }) with mesh := 407 }
     s.chord.bay = some (bayRun (some 7) 1) ∧ (bayRun (some 7) 1).drive = some 7 ∧ s.chord.halter = none ∧
     (bayRun (some 7) 1).phase = 1 ∧ (bayRun (some 7) 1).echoA = false ∧ (bayRun (some 7) 1).echoB = false ∧
     s.phaseOver (bayRun (some 7) 1) = false ∧ s.inLine .a = true ∧ s.inLine .b = true ∧ s.get (CTX_LEN_LENGTH 7) ≤ s.chord.txGot.length ∧
     s.chord.txGot.length < (s.put (CTX_LEN_LENGTH 7) 1).get (CTX_LEN_LENGTH 7) ∧
     s.reached (s.bayAt 31 + 307) = true ∧ (bayRun none 2).phase = 2 ∧
     ({ s with mesh := 714 } : State).phaseOver (bayRun none 2) = false ∧
     ({ s with mesh := 714 } : State).reached (s.bayAt 31 + 614) = true) ∧
    (let x : TimeRelay := ⟨0, 0, .a, 0⟩
     let s := chordUp 3 3 fun c => { c with bay := some (bayRun none 0), relay := some x, active := [(31, ⟨100, 800, 3, 3, 0⟩)] }
     s.chord.relay = some x ∧ (s.bay 31).role = 3 ∧ s.inLine (otherPort x.port) = true ∧
     (nsTo256 9280 : Int) ≤ (BitVec.ofNat 48 ((s.bayAt 31 + BitVec.ofNat 40 (s.bay 31).len).toNat * 256) -
       (s.now256 0 + chordRef)).toInt) := by decide

theorem witness_ChordEffects_frames :
    (let s := (State.reset.put (CTX_LEN_LENGTH 7) 1600).put (CTX_SRC_SRC 7) (0xA0000 - 1600)
     s.test (CTX_CTL_READY (7 : Fin 8).val) = false ∧ (0x80000 : W20).getLsbD 19 = true ∧ s.get (CTX_LEN_LENGTH (7 : Fin 8).val) ≠ 0 ∧
     s.get (CTX_LEN_LENGTH (7 : Fin 8).val) ≤ 1600 ∧ s.get (CTX_SRC_SRC (7 : Fin 8).val) + s.get (CTX_LEN_LENGTH (7 : Fin 8).val) ≤ 0xA0000 ∧
     State.reset.get (CTX_LEN_LENGTH (7 : Fin 8).val) = 0) ∧
    (let s := (((chordUp 1 3 id).put CHD_STATE_HALTER 1).put (CTX_CTL_READY 7) 1).put (CTX_LEN_LENGTH 7) 1
     s.test CHD_STATE_HALTER = true ∧ s.test (CTX_CTL_READY (7 : Fin 8).val) = true ∧ s.chord.halter = none ∧ s.portsIn 3 ≠ 0 ∧
     2458 ≤ { s with tick := 2458 }.tick - s.chord.busyAt ∧
     s.chord.lock = none ∧ s.get (CTX_LEN_LENGTH (7 : Fin 8).val) ≠ 0) ∧
    hdrLen (chordHdr 0 2 31 9) = ([1, 2] : List Byte).length ∧
    (let s := { chordUp 1 3 id with mesh := 300 }.put CHD_RXCFG_SIZE 1
     let syms := (chordSyms (chordHdr 0 2 31 9) [1, 2]).drop 64
     let rx : ChordRx := ⟨syms, true, 0⟩
     let f := (s.chordDecode rx).getD ⟨0, [], 0, 0⟩
     s.inLine .b = true ∧ (⟨syms, false, 0⟩ : ChordRx).whole = false ∧ rx.whole = true ∧
     (s.chordDecode ⟨syms.reverse, true, 0⟩).filter chordGood = none ∧ s.chordDecode rx = some f ∧
     chordGood f = true ∧ hdrType f.hdr = 0 ∧ s.test CHD_STATE_HALTER = false ∧ s.test CHD_CTL_ACQ = false ∧ s.test SCH_CTL_RUN = true ∧
     s.bayOf f.arrived = some 31 ∧ s.capturesOut = 0 ∧ s.chord.bay = none ∧
     s.get CHD_RXNEXT_NEXT ≤ s.get CHD_RXCFG_COUNT1 ∧
     s.get CHD_RXBASE_BASE + s.get CHD_RXCFG_SIZE * 64 * s.get CHD_RXNEXT_NEXT + 3 ≤ 0xA0000 ∧ hdrLen f.hdr + 6 ≤ s.get CHD_RXCFG_SIZE * 64 ∧
     (wordOf (s.bytes .sram (s.get CHD_RXBASE_BASE + s.get CHD_RXCFG_SIZE * 64 * s.get CHD_RXNEXT_NEXT) 3)).getLsbD 19 = false) := by decide +kernel

theorem witness_TimerEffects :
    let s := (State.reset.put (TMR_CTL_RUN 7) 1).modTmr 7 fun x => { x with phase := 1 }
    (s.notDormant = true ∧ s.clocked = true ∧ s.busRuns = true ∧ (s.tmr 7).phase < 2 * s.divider 7 ∧ s.upper 7 = false ∧ s.upper 8 = false ∧ s.ownClock 7 = true ∧ s.test (TMR_CTL_RUN (7 : Fin 8).val) = true ∧
     s.get (TMR_CTL_SLAVE (7 : Fin 8).val) ≠ 1 ∧ (∀ j : Fin 8, s.get (TMR_CTL_MASTER j.val) = 7 → s.get (TMR_CTL_CLK j.val) ≠ 4 ∧
       s.get (TMR_CTL_SLAVE j.val) < 2)) ∧
    (let t := (s.put (TMR_CNT_CNT 7) 9).modTmr 7 fun x => { x with top := 9, cmp := 5 }
     t.get (TMR_CNT_CNT 7) = (t.tmr 7).top.toNat ∧ (t.tmr 7).cmp ≠ 0 ∧ t.test (TMR_STAT_PEND 7) = false) ∧
    (let t := (s.put (TMR_CNT_CNT 7) 4).modTmr 7 fun x => { x with top := 9, cmp := 5 }
     t.get (TMR_CNT_CNT 7) ≠ (t.tmr 7).top.toNat ∧ t.get (TMR_CNT_CNT 7) + 1 = (t.tmr 7).cmp.toNat) ∧
    (5 ≤ (0x00050 : W20).toNat / 16 % 8 ∧ State.reset.test (TMR_CTL_RUN (7 : Fin 8).val) = false ∧ (0x00031 : W20).toNat / 16 % 8 < 4 ∧
     (0x00031 : W20).getLsbD 3 = false ∧ (0x00031 : W20).toNat / 2 ^ 14 % 4 = 0) ∧
    ((State.reset.put (TMR_CTL_PRELOAD 7) 1).test (TMR_CTL_PRELOAD (7 : Fin 8).val) = true ∧
     State.reset.test (TMR_CTL_PRELOAD (7 : Fin 8).val) = false) ∧
    (let t := State.reset.put (TMR_CTL_CHAIN 7) 1
     t.upper 6 = false ∧ t.upper 7 = true ∧ t.upper 8 = false) ∧
    (∀ n ∈ [1, 2, 3, 4], (State.reset.put (TMR_CTL_EVFN 7) n).get (TMR_CTL_EVFN (7 : Fin 8).val) = n ∧
      (State.reset.put (TMR_CTL_EVFN 7) n).get (TMR_CTL_CLK (7 : Fin 8).val) ≠ 3 ∧ (State.reset.put (TMR_CTL_EVFN 7) n).upper 7 = false) := by
  decide

/-- The real-time clock's part of the state changed. -/
def clocked (sub : Nat) (f : Rtc → Rtc) : State :=
  let s := State.reset.put RTC_SUBSEC_SUBSEC sub
  { s with rtc := f s.rtc }

theorem witness_ClockAndBackupEffects :
    (let s := clocked 32767 fun r => { r with pend := .none }
     s.get RTC_SUBSEC_SUBSEC = 32767 ∧ s.rtc.pend = .none ∧ (calOf s.rtc.time s.rtc.date).s < 59) ∧
    (let s := clocked 32766 fun r => { r with pend := .apply (some 9) none (some 7) }
     s.get RTC_SUBSEC_SUBSEC < 32767 ∧ s.rtc.pend = .apply (some 9) none (some 7)) ∧
    (let s := clocked 5 fun r => { r with pend := .shift (-6) }
     s.rtc.pend = .shift (-6) ∧ s.get RTC_SUBSEC_SUBSEC < 32767 ∧ 0 ≤ (s.get RTC_SUBSEC_SUBSEC : Int) + 1 + (-6) ∧
     (s.get RTC_SUBSEC_SUBSEC : Int) + 1 + (-6) < 32768) ∧
    (let s := clocked 0 fun r => { r with due0 := true, due1 := true, late := [(RTC_BKP 15, 7)] }
     (∀ k : Fin 2, (if k.val = 0 then s.rtc.due0 else s.rtc.due1) = true) ∧ s.rtc.late = (RTC_BKP 15, 7) :: [] ∧
     RTC_BKP 0 ≤ RTC_BKP 15 ∧ RTC_BKP 15 < RTC_BKP 16 ∧ RTC_BKP 15 % 4 = 0) ∧
    (let cal := fun (tm dt : W20) => calOf tm dt
     let late := timeWord ⟨0, 0, 0, 23, 59, 59⟩
     let leap := dateWord ⟨124, 2, 29, 0, 0, 0⟩
     let none := dateWord ⟨125, 2, 29, 0, 0, 0⟩
     State.reset.clocked = true ∧ State.reset.test RTC_STAT_PEND = false ∧ (State.reset.put RTC_STAT_PEND 1).test RTC_STAT_PEND = true ∧
     ((cal late leap).h ≤ 23 ∧ (cal late leap).mi ≤ 59 ∧ (cal late leap).s ≤ 59) ∧ ¬ (cal (timeWord ⟨0, 0, 0, 24, 0, 0⟩) leap).h ≤ 23 ∧
     ((cal late leap).y ≤ 199 ∧ 1 ≤ (cal late leap).mo ∧ (cal late leap).mo ≤ 12 ∧ 1 ≤ (cal late leap).d ∧
       (cal late leap).d ≤ daysIn (cal late leap).y (cal late leap).mo) ∧
     ¬ (cal late none).d ≤ daysIn (cal late none).y (cal late none).mo ∧ (0x7FFF : BitVec 16) ≠ 0 ∧ (0x7FFF : BitVec 16) ≠ 0x8000) := by decide
/-! ## Power, orbit and resets -/

/-- The power part of the state changed. -/
def powered (f : Power → Power) : State := { State.reset with tick := 100000, power := f State.reset.power }

theorem witness_SleepAndWakeEffects :
    let lit := fun (s : State) => ({ s with otp := { s.otp with lit := true } } : State)
    (let s := lit State.reset
     s.stopped = false ∧ s.clocked = true ∧ s.power.phase = .run ∧ (∀ c : CoreId, (s.core c).run ≠ .running ∧ (s.core c).run ≠ .starting) ∧
     (s.put PWR_STATE_PEND 1).test PWR_STATE_PEND = true ∧ s.levelCauses s.power.target = [] ∧ (s.put PWR_STATE_PEND 1).entryReady = true ∧
     s.entryReady = false ∧ s.atSlowEdge = true ∧ ({ s with power := { s.power with slowAcc := 8 } } : State).atSlowEdge = false) ∧
    ¬ ((core0 true []).core 0).run ≠ .running ∧
    (let s := ((lit (powered fun p => { p with target := 2 })).put PWR_STATE_PEND 1).put CHD_FLAGS_KNOCKED 1 |>.put CHD_CTL_KDET 1
     s.test PWR_STATE_PEND = true ∧ s.levelCauses s.power.target ≠ [] ∧ s.entryReady = true ∧ s.atSlowEdge = true) ∧
    (∀ n ∈ [2, 3, 4], let s := powered fun p => { p with target := n, phase := .entry 4 }
      s.stopped = false ∧ s.atSlowEdge = true ∧ s.power.phase = .entry 4 ∧ s.power.captured = false ∧ s.levelCauses s.power.target = [] ∧ s.power.target = n) ∧
    (∀ n ∈ [2, 3], let s := ((powered fun p => { p with target := n, phase := .entry 4 }).put CHD_FLAGS_KNOCKED 1).put CHD_CTL_KDET 1
      s.levelCauses s.power.target ≠ [] ∧ s.power.target = n) ∧
    (let s := ((powered fun p => { p with target := 2, phase := .rest }).put CHD_FLAGS_KNOCKED 1).put CHD_CTL_KDET 1
     s.power.phase = .rest ∧ s.wakeOn s.power.target .chord = true ∧ wakeEdge .chord = false ∧ s.atSlowEdge = true ∧
     ({ s with power := { s.power with slowAcc := 8 } } : State).atSlowEdge = false ∧ s.wakeOn s.power.target .hitch = true ∧
     wakeEdge .hitch = true ∧
     (let t := ({ s with power := { s.power with phase := .entry 0 } } : State).put (GPIO_CFG_WAKE 23) 4
      t.power.phase = .entry 0 ∧ wakeEdge (.gpioEdge 23 false) = true ∧ t.power.target ≠ 4 ∧
      t.wakeOn t.power.target (.gpioEdge 23 false) = true)) ∧
    (powered fun p => { p with target := 3, phase := .leaving }).power.phase = .leaving ∧
    (let s := at0 (powered fun p => { p with target := 3, phase := .orbit }) fun x => { x with acts := x.acts.set 15 ⟨8, 0, 0, 0, .armed, false⟩ }
     s.power.phase = .orbit ∧ s.actionWakes = true ∧ s.power.target ≠ 4 ∧ s.atSlowEdge = true) ∧
    (let s := (powered fun p => { p with phase := .dormant }).put PWR_DWAKE_HITCH 1
     s.stopped = false ∧ s.power.phase = .dormant ∧ s.atSlowEdge = true ∧ s.wakeOn 4 .hitch = true) ∧
    (let s := ((powered fun p => { p with phase := .waking (100000 - 768) false }).put PWR_CTL_EARLY 1).put CLK_STAT_REF_OK 1 |>.put CLK_STAT_SPLL 1
     s.power.phase = .waking 99232 false ∧ 768 ≤ s.tick - 99232 ∧ s.test PWR_CTL_EARLY = true ∧ s.test CLK_STAT_REF_OK = true ∧
     s.test CLK_STAT_SPLL = true ∧ s.power.fromPass = false) ∧
    (let s := (powered fun p => { p with phase := .waking (100000 - 2304) false, fromPass := true }).put CLK_STAT_REF_FAIL 1
     s.power.phase = .waking 97696 false ∧ s.test CLK_STAT_REF_FAIL = true ∧ 768 ≤ s.tick - 97696 ∧ 2304 ≤ s.tick - 97696) := by decide

theorem witness_ClockSourceEffects :
    (let s := State.reset.put CLK_STAT_REF_OK 0
     s.stopped = false ∧ s.clocked = true ∧ s.refWanted = true ∧ s.power.phase ≠ .pass ∧ s.test CLK_STAT_REF_OK = false ∧ s.test CLK_STAT_REF_FAIL = false ∧
     s.test YRD_CTL_EN = false ∧ s.yst ≠ yFAILED) ∧
    (let s := ((powered fun p => { p with retry := true }).put CLK_STAT_REF_OK 0).put CLK_STAT_REF_FAIL 1
     s.refWanted = true ∧ s.test CLK_STAT_REF_OK = false ∧ s.test CLK_STAT_REF_FAIL = true ∧ s.power.retry = true) ∧
    (State.reset.put CLK_STAT_REF_OK 1).test CLK_STAT_REF_OK = true ∧ (State.reset.put SLK_CFG_SRC 0).test SLK_CFG_SRC = false ∧
    State.reset.power.slowRc = false ∧ State.reset.pins.getLsbD (23 : Fin 24).val = false ∧
    (let s := (powered fun p => { p with winN := some 1 }).put MT_CAL_CALG 0
     s.inAir = true ∧ s.power.winN = some 1 ∧ s.get MT_CAL_CALG = 0 ∧ 1 * 2 ^ (20 - s.calw) < 2 ^ 31) := by decide

/-- Orbit enabled with the schedule running; step `k` has the operation word `w`, and the pass in progress is `o`. -/
def orbiting (ph : PwrPhase) (k : Nat) (w : W20) (o : Option OrbitRun) : State :=
  ((powered fun p => { p with target := 3, phase := ph, orbit := o, lastPass := o.map (·.slot) }).put ORB_CTL_EN 1).put SCH_CTL_RUN 1
    |>.setRg (ORB_S_OP k) w

/-- The operation word of a step. -/
def stepWord (op test hit miss : Nat) : W20 :=
  ((((State.reset.put (ORB_S_OP_OP 0) op).put (ORB_S_OP_TEST 0) test).put (ORB_S_OP_HIT 0) hit).put (ORB_S_OP_MISS 0) miss).rg (ORB_S_OP 0)

/-- A pass of slot 5 at step 7. -/
def passRun (executed : Nat) (begun : Option Nat) : OrbitRun := ⟨5, true, 7, executed, begun, [47], false, [3]⟩

theorem witness_OrbitEffects_passes :
    (let s := (orbiting .orbit 0 0 none).put SCH_CTL_RUN 0
     s.stopped = false ∧ s.test ORB_CTL_EN = true ∧ s.power.target = 3 ∧ s.test SCH_CTL_RUN = false ∧ s.power.phase = .orbit) ∧
    (let s := orbiting .orbit 0 0 none
     s.test ORB_CTL_EN = true ∧ s.power.target = 3 ∧ s.test SCH_CTL_RUN = true ∧ s.power.lastPass ≠ some (BitVec.ofInt 40 s.orbitSlot)) ∧
    (let s := orbiting .pass 0 0 (some (passRun 0 none))
     s.power.orbit = some (passRun 0 none) ∧ (passRun 0 none).slot ≠ BitVec.ofInt 40 s.orbitSlot ∧
     s.power.lastPass ≠ some (BitVec.ofInt 40 s.orbitSlot) ∧ s.power.phase = .pass) ∧
    (let o : OrbitRun := { passRun 0 none with slot := BitVec.ofInt 40 (orbiting .pass 0 0 none).orbitSlot, started := false }
     let s := { orbiting .pass 0 0 (some o) with power := { (orbiting .pass 0 0 (some o)).power with lastPass := none } }
     s.power.orbit = some o ∧ o.slot = BitVec.ofInt 40 s.orbitSlot ∧ s.power.lastPass ≠ some (BitVec.ofInt 40 s.orbitSlot)) ∧
    (let s : State := { (orbiting .orbit 7 (stepWord 1 0 0 0) none).put ORB_PREP_VALUE 800000 with mesh := 384000 }
     (∃ k : Fin 8, s.get (ORB_S_OP_OP k.val) = 1) ∧ s.power.phase = .orbit ∧ s.atSlowEdge = true ∧
     s.mark s.orbitNext + s.getInt ORB_T0_VALUE - s.get ORB_PREP_VALUE ≤ s.mesh.toNat) ∧
    (let s : State := { (orbiting .pass 7 (stepWord 1 0 0 0) (some (passRun 0 none))).put CLK_STAT_REF_OK 1 with mesh := 2000000 }
     s.power.orbit = some (passRun 0 none) ∧ s.power.phase = .pass ∧ s.atSlowEdge = true ∧ (passRun 0 none).prepared = false ∧ s.test CLK_STAT_REF_OK = true ∧
     s.test CLK_STAT_REF_FAIL = false ∧ s.rfe = 0 ∧
     s.mark (passRun 0 none).slot.toNat + s.getInt ORB_T0_VALUE - 27648 ≤ s.mesh.toNat + (s.get MT_RATEI_VALUE % 2 ^ 11 : Nat)) := by decide

theorem witness_OrbitEffects_steps :
    (∀ op ∈ [0, 1, 3], let s := orbiting .pass 7 (stepWord op 0 0 0) (some (passRun 0 none))
      s.stopped = false ∧ s.power.orbit = some (passRun 0 none) ∧ s.power.phase = .pass ∧ (passRun 0 none).started = true ∧
      (passRun 0 none).begun = none ∧ (passRun 0 none).step < 8 ∧ s.get (ORB_S_OP_OP 7) = op) ∧
    (let s := (orbiting .pass 7 (stepWord 2 4 1 0) (some (passRun 0 none))).put CHD_FLAGS_KNOCKED 1
     s.get (ORB_S_OP_OP 7) = 2 ∧ s.get (ORB_S_OP_TEST 7) = 4 ∧ s.test CHD_FLAGS_KNOCKED = true ∧ s.get (ORB_S_OP_HIT 7) = 1) ∧
    (let s := orbiting .pass 7 (stepWord 2 0 0 2) (some (passRun 14 none))
     s.get (ORB_S_OP_OP 7) = 2 ∧ s.get (ORB_S_OP_TEST 7) = 0 ∧ s.get (ORB_S_OP_MISS 7) = 2 ∧ (passRun 14 none).executed < 15) ∧
    (let s := orbiting .pass 7 (stepWord 1 3 1 0) (some (passRun 14 (some 5)))
     s.power.orbit = some (passRun 14 (some 5)) ∧ (passRun 14 (some 5)).begun = some 5 ∧ s.get (ORB_S_OP_OP 7) = 1 ∧
     (passRun 14 (some 5)).heard.contains (s.get (ORB_S_OP_TEST 7)) = true ∧ s.get (ORB_S_OP_HIT 7) = 1 ∧ max 1 (s.get (ORB_S_DUR_DUR 7)) ≤ s.tick - 5 ∧
     (passRun 14 (some 5)).executed < 15) ∧
    (let s := orbiting .pass 7 (stepWord 1 2 1 0) (some (passRun 14 (some 5)))
     s.orbitHit (passRun 14 (some 5)) 5 = false ∧ max 1 (s.get (ORB_S_DUR_DUR 7)) ≤ s.tick - 5 ∧ s.get (ORB_S_OP_MISS 7) = 0) ∧
    (let s := orbiting .pass 7 (stepWord 1 2 1 3) (some (passRun 15 (some 5)))
     s.orbitHit (passRun 15 (some 5)) 5 = false ∧ s.get (ORB_S_OP_MISS 7) = 3 ∧ (passRun 15 (some 5)).executed = 15 ∧ s.get (ORB_S_OP_MISS 7) ≠ 1) ∧
    (let s := orbiting .pass 0 0 (some { passRun 0 none with step := 8 })
     s.power.orbit = some { passRun 0 none with step := 8 } ∧ s.power.phase = .pass ∧ 8 ≤ { passRun 0 none with step := 8 }.step) := by decide

theorem witness_ResetEffects :
    State.reset.power.vbatLow = false ∧ (powered fun p => { p with vbatLow := true }).power.vbatLow = true ∧
    (let s := { State.reset with tick := 64, faults := { State.reset.faults with fatalAt := some 0 } }
     s.faults.fatalAt = some 0 ∧ s.power.held = false ∧ 64 ≤ s.tick - 0 ∧ { s with tick := 63 }.tick - 0 < 64) := by decide
/-! ## The keeper, field update, the yard -/

/-- The keeper's part of the state changed. -/
def kept (f : Keeper → Keeper) : State := { State.reset with tick := 100000, keeper := f State.reset.keeper }

theorem witness_KeeperStartEffects :
    (∀ kind ∈ [StartKind.cold, .warm, .dormant], let s := kept fun k => { k with started := false, valid := true, count := 2 ^ 24 - 2, kind := kind }
      s.stopped = false ∧ s.clocked = true ∧ s.keeper.started = false ∧ s.keeper.valid = true ∧ s.keeper.count + 1 < 2 ^ 24 ∧ s.keeper.kind = kind) ∧
    (let s := (kept fun k => { k with started := true, launch := some (100000 - 38400) }).put KMB_WDOG_MS 1
     s.keeper.started = true ∧ s.clocked = true ∧ s.test KMB_BOOT_SERVICE = false ∧ s.test KMB_BOOT_HALTER = false ∧ 96000 ≤ s.tick - s.power.rstTick ∧
     mayTrust .debug = true ∧ mayTrust (.core 3 false) = false ∧ Source.core 3 false ≠ .host ∧ mayTrust .host = false ∧
     (s.setRg HSP_PERM 0xFFFFF).mayReach .host KMB_SVC = true ∧ s.power.phase = .run ∧
     ({ s with power := { s.power with phase := .rest } } : State).power.phase ≠ .run ∧ s.keeper.launch = some 61600 ∧ s.get KMB_WDOG_MS ≠ 0 ∧
     s.get KMB_BOOT_REASON = 0 ∧ 38400 * s.get KMB_WDOG_MS ≤ s.tick - 61600 ∧ { s with tick := 99999 }.tick - 61600 < 38400 * s.get KMB_WDOG_MS) ∧
    State.reset.update.run = none ∧ State.reset.keeper.fails < 8 ∧ State.reset.keeper.recov = false ∧
    (let s := { State.reset with tick := 86400 * 38400000 }.setCore 0 { State.reset.core 0 with run := .running }
     s.power.phase = .run ∧ s.allGated = false ∧ 86400 * 38400000 ≤ s.tick - s.faults.aged ∧ s.otp.vsteps < 4 ∧ s.otp.rows < 64 ∧
     5 ≤ (5 : BitVec 7).toNat ∧ (4 : BitVec 7).toNat < 5 ∧ 64 ≤ { s with otp := { s.otp with rows := 64 } }.otp.rows) := by decide

theorem witness_ResetEffects_sources :
    (State.reset.setRg HSP_PERM 0xFFFFF).mayReach .host SYS_RST = true ∧ State.reset.mayReach .host SYS_RST = false ∧
    State.reset.awake = true ∧ State.reset.mayReach (.core 3 true) SYS_RST = true ∧ State.reset.power.held = false ∧
    ({ State.reset with power := { State.reset.power with phase := .rest } } : State).awake = false := by decide

/-- First light has been, and the OTP and the keeper's order are as given. -/
def ordering (f : Otp → Otp) (x : Option KOrder) : State :=
  let s := kept fun k => { k with order := x }
  { s with otp := f { s.otp with lit := true } }

theorem witness_KeeperOrderEffects_taken :
    (let s := ordering id none
     s.clocked = true ∧ s.otp.lit = true ∧ s.lattice.acts = [] ∧ s.keeper.order = none ∧ mayTrust (.core 1 false) = false ∧ mayTrust (.core 0 true) = true ∧
     mayTrust .keeper = true ∧ Source.keeper ≠ .debug ∧ (∀ p, Source.keeper ≠ .core 0 p) ∧ (∃ p, Source.core 0 true = .core 0 p) ∧
     s.otp.energy = false ∧ s.otp.ceil = none ∧ s.get KMB_ARG_VALUE % 1024 = 0 ∧ (s.put KMB_ARG_VALUE 1023).get KMB_ARG_VALUE % 1024 ≠ 0 ∧
     s.mayReach (.core 1 false) KMB_ORDER = false ∧ Source.core 1 false ≠ .host ∧ s.mayReach (.core 0 true) KMB_ORDER = true ∧
     s.mayReach .debug KMB_ORDER = true ∧ (s.setRg HSP_PERM 0xFFFFF).mayReach .host KMB_ORDER = true ∧ mayTrust .host = false ∧
     s.otp.isSealed = false ∧ beAt (s.bytes .sram 0 236) 42 1 ≤ 1 ∧ s.otp.rootSet 0 = none ∧
     (let o := { s.otp with root0 := some 5, root1 := some 6 }
      o.validRoot 0 ≠ none ∧ o.validRoot (1 - 0) ≠ none) ∧
     s.manger.heldSum ≤ 1023 ∧ s.otp.halter = none ∧ s.get KMB_ADDR_VALUE + 236 ≤ 0xA0000) ∧
    (let s := (ordering (fun o => { o with isSealed := true, energy := true, ceil := some 5, halter := some (Vector.replicate 4 0),
                                           floors := List.replicate 16 1 }) none).put TRUST_STATE_ORDER_USED 1
     s.otp.isSealed = true ∧ s.test TRUST_STATE_ORDER_USED = true ∧ s.otp.energy = true ∧ s.otp.ceil.isSome = true ∧
     s.otp.halter.isSome = true ∧ 16 ≤ s.otp.floors.length) ∧
    (ordering id (some ⟨1, 0, .none⟩)).keeper.order = some ⟨1, 0, .none⟩ ∧ (holding (ordering id none) 15 5).manger.heldSum > 4 := by decide

/-- A sealed device with root 0 set, and at KMB_ADDR a DBT1 record of scope 7 that root 0's key 2G signed: the digest of the
device's identity record, the key and the signature were worked out apart from the model. -/
def unlockable : State :=
  (ordering (fun o => { o with isSealed := true, root0 := some 0xd07aeb134840b15242e12d4a06ce3ab493cbd020ebc3bd5aaecd822f51e0c3d8 }) none).setBytes .sram 0 (toBytesBE 236
    0x44425431e12fbf11f9c2cd12fab9edc34354fe86d47a021b57bb07aae3a77679576145ab00000000000700007cf27b188d034f7e8a52380304b51ac3c08969e277f21b35a60b48fc4766997807775510db8ed040293d9ac69f7430dbba7dade63ce982299e04b79d227873d1000000000000000000000000000000000000000000000000000000000000000000000000000000000000000000000000000000000000000000000000000000006b17d1f2e12c4247f8bce6e563a440f277037d812deb33a0f4a13945d898c296fffca2f63cc0ca5712f07ab6dae06ec668533a9fd72ac1d938158b0db789ce4b)

theorem witness_KeeperOrderEffects_unlock :
    let s := unlockable
    let l := s.bytes .sram (s.get KMB_ADDR_VALUE) 236
    s.otp.isSealed = true ∧ s.otp.lit = true ∧ s.keeper.order = none ∧ s.test TRUST_STATE_ORDER_USED = false ∧
    l.take 4 = [0x44, 0x42, 0x54, 0x31] ∧ (l.drop 4).take 32 = s.idDigest ∧ s.test SYS_OTP_BCNT_SPENT = false ∧
    beAt l 36 4 = s.bootCount ∧ s.otp.rootIs (beAt l 43 1) ((l.drop 44).take 64) = true ∧ beAt l 40 2 < 8 ∧
    signedBy ((l.drop 44).take 64) (l.drop 172) (l.take 172) = true := by decide +kernel

theorem witness_KeeperOrderEffects_done :
    (∀ x ∈ [(⟨2, 9, .none⟩ : KOrder), ⟨2, 0, .none⟩, ⟨1, 0, .none⟩, ⟨0x22, 0, .energy⟩, ⟨0x12, 0, .seal⟩, ⟨0x21, 0, .halter (Vector.replicate 4 0)⟩,
        ⟨0x23, 0, .floor 7⟩, ⟨0x10, 0, .rootSet 1 7⟩, ⟨0x11, 0, .rootRevoke 0⟩, ⟨0x20, 0, .ceil 1023⟩, ⟨0x13, 0, .unlock 7⟩],
      (ordering id (some x)).clocked = true ∧ (ordering id (some x)).keeper.order = some x ∧ (ordering id (some x)).otp.lit = true ∧
      (holding (ordering id (some x)) 14 3).orderReady x = true ∧
      (x.engine = true → (ordering id (some x)).orderReady x = false) ∧ (ordering id (some x)).test FLC_INFO_PRESENT = false ∧
      (ordering id (some x)).manger.heldSum ≤ (1023 : BitVec 11).toNat % 1024) ∧
    (holding (with1 FLC_STATUS_BUSY 1) 14 3).orderReady ⟨1, 0, .none⟩ = false := by decide

/-- An update command in progress. -/
def updating (op part : Nat) : State :=
  { State.reset with update := { State.reset.update with run := some ⟨op, part, 0, 0, .idle⟩ } }

/-- A fitted flash of 4 MiB, which field update takes. -/
def bigFlash (s : State) : State := ((s.put FLC_INFO_PRESENT 1).put FLC_INFO_SIZE_LOG2 22).put FLC_INFO_ERASE_LOG2 12

theorem witness_UpdateEffects_commands :
    (mayTrust .debug = true ∧ mayTrust .host = false ∧ State.reset.mayReach .debug UPD_CMD = true ∧
     State.reset.mayReach (.core 0 false) UPD_CMD = false ∧ Source.core 0 false ≠ .host ∧
     (State.reset.setRg HSP_PERM 0xFFFFF).mayReach .host UPD_CMD = true ∧ State.reset.update.run = none ∧ State.reset.clocked = true) ∧
    (∀ op ∈ [1, 2, 3, 4, 5, 6, 7], ∀ part ∈ [0, 4, 5], (updating op part).update.run = some ⟨op, part, 0, 0, .idle⟩ ∧
      (updating op part).update.run ≠ none ∧ (updating op part).updHolds = true ∧ (holding (updating op part) 14 3).holds 14 = true ∧
      (updating op part).updReady ⟨op, part, 0, 0, .idle⟩ = false ∧ (updating op part).inRun = true ∧ (updating op part).test UPD_STAT_CAMP = false) ∧
    (∀ dec ∈ [PieceDec.refused 2, .failed 0x20, .failed 0x25, .failed 1], let x : UpdRun := ⟨3, 0, 0, 0, dec⟩
      ({ updating 3 0 with update := { (updating 3 0).update with run := some x } } : State).update.run = some x ∧ x.op = 3) ∧
    ((updating 3 0).cipher.waits = [] ∧ (updating 3 0).updHolds = true ∧ (updating 3 0).test UPD_STAT_CAMP = false) ∧
    (updating 1 0).flashUnfit = true ∧ (bigFlash (updating 2 0)).flashUnfit = false ∧ (bigFlash (updating 2 0)).stored = none ∧
    (updating 4 4).phase 4 = 0 ∧ (updating 5 4).phase 4 ≠ 4 ∧ (∀ q, q < 5 → (updating 7 0).phase q ≠ 3 ∧ (updating 7 0).phase q ≠ 4) := by decide
/-- Part `p` in a phase, by a record of the journal. -/
def phased (s : State) (p ph : Nat) : State := s.journal ⟨p, ph, 1, 3, 1, 2, 3, 4, 0⟩

theorem witness_UpdateEffects_phases :
    (let s := phased (phased (updating 4 1) 1 2) 2 3
     s.update.run = some ⟨4, 1, 0, 0, .idle⟩ ∧ s.updHolds = true ∧ s.inRun = true ∧ s.phase 1 = 2 ∧
     (2 < 5 ∧ (s.phase 2 = 3 ∨ s.phase 2 = 4))) ∧
    (∀ ph ∈ [1, 5, 6], (phased (updating 4 4) 4 ph).phase 4 = ph ∧ (phased (updating 4 4) 4 ph).updHolds = true) ∧
    (let s := (phased (updating 5 3) 3 4).put UPD_ORDER_VALUE 0x7FFB
     s.update.run = some ⟨5, 3, 0, 0, .idle⟩ ∧ s.phase 3 = 4 ∧ s.orderLast = some 3) ∧
    (phased (updating 7 0) 4 4).phase 4 = 4 ∧ (phased (updating 1 0) 1 3).phase ((0 : Fin 4).val + 1) = 3 ∧
    (updating 1 0).update.run ≠ none ∧ (phased State.reset 4 4).phase ((3 : Fin 4).val + 1) = 4 ∧ State.reset.update.run = none ∧
    State.reset.phase ((3 : Fin 4).val + 1) ≠ 3 ∧ State.reset.phase ((3 : Fin 4).val + 1) ≠ 4 := by decide

/-- ROM recovery runs, with a fitted flash. -/
def recovers (f : Update → Update) : State :=
  let s := bigFlash (kept fun k => { k with started := true })
  { s.put KMB_BOOT_REASON 2 with update := f s.update }

/-- A BLOCK to every device: 160 bytes in all, block 0. -/
def oneBlock : List Byte := [1, 0xFF, 0xFF, 0xFF, 0xFF, 0, 0, 160, 0, 0] ++ List.replicate 1024 0x11

/-- The same BLOCK to this device alone. -/
def ownBlock : List Byte := [1] ++ State.reset.idDigest.take 4 ++ [0, 0, 160, 0, 0] ++ List.replicate 1024 0x11

theorem witness_UpdateEffects_recovery :
    (let s := recovers id
     s.stopped = false ∧ s.inRun = true ∧ s.recovering = true ∧ s.flashUnfit = false ∧ s.recoveryHears .uart = true ∧
     (∀ l ∈ [oneBlock, ownBlock], s.blockFits l = true ∧ recoveryFrame .uart (uartPacket l) = some l) ∧
     beAt oneBlock 1 4 = 0xFFFFFFFF ∧ (oneBlock.drop 1).take 4 ≠ s.idDigest.take 4 ∧ beAt ownBlock 1 4 ≠ 0xFFFFFFFF ∧
     s.received 0 (beAt oneBlock 8 2) = false ∧ s.flashByte (receiptAt 0 + beAt oneBlock 8 2) = 0xFF ∧
     (s.flashProgram (receiptAt 0) [0x5A]).received 0 (beAt oneBlock 8 2) = true ∧ (s.put FLC_INFO_PRESENT 0).flashUnfit = true) ∧
    (let s := (recovers fun u => { u with last := some (.uart, 0), total := some 160 }).flashProgram (receiptAt 0) [0x5A]
     s.update.last = some (.uart, 0) ∧ s.inRun = true ∧ s.recovering = true ∧ s.update.total = some 160 ∧ s.receivedAll 0 160 = true) ∧
    (∀ f ∈ [RecovIface.radio, .chord, .uart], (recovers fun u => { u with owed := [(f, 0, 0)] }).update.owed = [(f, 0, 0)]) ∧
    (recovers id).recovering = true ∧ ({ recovers id with tick := 384000 } : State).tick = 0 + 384000 ∧ (recovers id).tick ≠ 0 + 384000 ∧
    (let s := ((({ recovers id with tick := 2458 } : State).put KMB_BOOT_HCHORD 1).put CHD_STATE_BYPASS 0).put CHD_STATE_INA 1
     s.test KMB_BOOT_HCHORD = true ∧ s.chordIdle = true) := by decide +kernel

/-- The yard in a state, with requests waiting on channel 1 and what it has issued. -/
def yarded (st : Nat) (q c : List YReq) : State :=
  ((((with1 YRD_STAT_STATE st).put YRD_CTL_EN 1).put YRD_CTL_ECC 0).modYch 1 fun y => { y with queue := q, cmds := c })

/-- A read and a write of eight bytes of channel 1. -/
def readReq : YReq := ⟨7, 0, 0, 0x1008, 8, false, [], 0, 0⟩
def writeReq : YReq := ⟨8, 0, 0, 0x1010, 8, true, [1, 2, 3, 4, 5, 6, 7, 8], 0, 0⟩

theorem witness_YardEffects_control :
    (let s := (((State.reset.put SUP_STAT_VDDQ 1).put SUP_STAT_VPP 1).put TRNG_STAT_FAIL 0).put CLK_STAT_REF_FAIL 0
     s.clocked = true ∧ s.inRun = true ∧ s.test SUP_STAT_VDDQ = true ∧ s.test SUP_STAT_VPP = true ∧ s.test TRNG_STAT_FAIL = false ∧
     s.test CLK_STAT_REF_FAIL = false ∧ s.test YRD_CTL_EN = false) ∧
    (State.reset.put SUP_STAT_VDDQ 0).test SUP_STAT_VDDQ = false ∧
    (∀ st ∈ [yTRAINING, yREADY, ySELF], (yarded st [] []).yst = st ∧ (yarded st [] []).clocked = true ∧ (yarded st [] []).inRun = true ∧
      (yarded st [] []).test YRD_CTL_EN = true ∧ ((yarded st [] []).put YRD_CTL_SR 1).test YRD_CTL_SR = true ∧
      (yarded st [] []).yard.waitP = [] ∧ (yarded st [] []).pauseFree 0 = true ∧
      (∀ c : Fin 2, ((yarded st [] []).ych c.val).queue = [] ∧ ((yarded st [] []).ych c.val).cmds = [] ∧ ((yarded st [] []).ych c.val).done = [])) ∧
    (State.reset.put YRD_STAT_STATE yFAILED).yst = yFAILED ∧ ((yarded yREADY [] []).put YRD_STAT_INITBUSY 1).test YRD_STAT_INITBUSY = true ∧
    (let s := yarded yREADY [] []
     s.test YRD_PPRCMD_BUSY = false ∧ s.test YRD_STAT_INITBUSY = false ∧ s.get YRD_PPRROW_ROW < 2 ^ s.yardR ∧ s.yardChans = 2) ∧
    ∀ h : Bool, ((yarded yREADY [] []).modYard fun y => { y with ppr := some (h, 5) }).yard.ppr = some (h, 5) := by decide

theorem witness_YardEffects_channels :
    (∀ r ∈ [readReq, writeReq], let s := yarded yREADY [r] []; let y := s.ych (1 : Fin 2).val
      s.yardNext (1 : Fin 2).val = some r ∧ y.pause = false ∧ y.replay = 0 ∧ y.owed < 8 ∧ y.rfcTo ≤ s.tick ∧ y.cmds.length < 16 ∧ s.yst = yREADY ∧
      s.yardStuck r.q = false ∧ s.test YRD_CTL_ECC = false ∧ r ∈ y.queue ∧ (s.yardLocal r.q).1 = (1 : Fin 2).val ∧
      (∀ i, i < r.data.length → s.yardKey (r.q + i) ≠ s.yardKey 0)) ∧
    (let s := { yarded yREADY [readReq] [] with tick := 100000 }
     s.yst = yREADY ∧ (s.ych (1 : Fin 2).val).rfcTo ≤ s.tick ∧ readReq ∈ (s.ych (1 : Fin 2).val).queue ∧ s.yardUrgent readReq = true ∧
     (s.ych (1 : Fin 2).val).owed < 8 ∧ s.tREFI * 384 ≤ (s.tick - (s.ych (1 : Fin 2).val).refAt) * 10000) ∧
    (let s := (yarded yREADY [] []).modYch 1 fun y => { y with owed := 3 }
     s.yst = yREADY ∧ (∀ r ∈ (s.ych (1 : Fin 2).val).queue, s.yardUrgent r = false) ∧ (s.ych (1 : Fin 2).val).owed ≠ 0 ∧
     ¬ s.tREFI * 384 ≤ (s.tick - (s.ych (1 : Fin 2).val).refAt) * 10000 ∧
     s.tREFI * 384 ≤ (({ s with tick := 100000 } : State).tick - (s.ych (1 : Fin 2).val).refAt) * 10000) ∧
    (let s := (yarded yREADY [readReq] []).modYch 1 fun y => { y with owed := 8 }
     8 ≤ (s.ych (1 : Fin 2).val).owed) ∧ ((yarded yREADY [] []).ych (1 : Fin 2).val).owed = 0 := by decide

theorem witness_YardEffects_pauses :
    (((yarded yREADY [] []).modYch 1 fun y => { y with replay := 1 }).ych (1 : Fin 2).val).replay ≠ 0 ∧
    (let s := { yarded yREADY [] [] with tick := 38400000 }
     s.yst = yREADY ∧ (1 : Fin 2).val < s.yardChans ∧ (s.ych (1 : Fin 2).val).pause = false ∧
     s.yard.waitP.contains (1 : Fin 2).val = false ∧ s.pauseFree (1 : Fin 2).val = true ∧
     (s.modYch 0 fun y => { y with pause := true }).pauseFree (1 : Fin 2).val = false ∧
     38400 * max 1 (min 1000 (s.get YRD_RTCFG_PERIOD)) ≤ s.tick - (s.ych (1 : Fin 2).val).paused) ∧
    (let s := ((yarded ySELF [] []).modYch 0 fun y => { y with pause := true }).modYard fun y => { y with since := some 0 }
     (s.ych (0 : Fin 2).val).pause = true ∧ s.yst = ySELF ∧ s.yard.since ≠ none ∧ s.yard.waitP = [] ∧
     (∀ d : Fin 2, d ≠ 0 → (s.ych d.val).pause = false) ∧ (s.modYard fun y => { y with waitP := [1] }).yard.waitP = [(1 : Fin 2).val] ∧
     (s.ych (1 : Fin 2).val).replay = 0) ∧
    (let s := yarded yREADY [] [readReq]; let y := s.ych (1 : Fin 2).val
     y.cmds = [readReq] ∧ y.done = [] ∧ y.replay ≠ 1 ∧ readReq.wr = false ∧ (∀ x ∈ s.dma.credits, x.rid ≠ some readReq.id) ∧
     s.yst = yREADY ∧ y.alerts < 2 ∧ y.cmds ≠ []) ∧
    (let s := (yarded yREADY [] []).modYch 1 fun y => { y with alerts := 2 }
     2 ≤ (s.ych (1 : Fin 2).val).alerts ∧ (∀ c : Fin 2, (s.ych c.val).queue = [] ∧ (s.ych c.val).cmds = [] ∧ (s.ych c.val).done = [])) := by decide

/-! ## The whole device -/

theorem witness_StoppedDeviceKeepsItsState :
    { State.reset with faults := { State.reset.faults with fatalAt := some 0 } }.stopped = true ∧
    actsStopped (.iAdd 3 0 6 8) = false := by decide

theorem witness_RationsConserved :
    let s := holding State.reset 16 5
    let s := { s with manger := { s.manger with accts := [⟨7, 9, 1, true, ceilDiv (9 * s.mngF) 16, 0⟩, ⟨16, 5, 1, false, 5, 0⟩] } }
    let s := { s with manger := { s.manger with free := s.mngTotal - s.manger.heldSum } }
    s.conserved ∧ (s.manger.accts.map (·.id)).Pairwise (· < ·) ∧ ∀ a ∈ s.manger.accts, a.held + a.short = a.charge s.mngF := by
  unfold State.conserved; decide

theorem witness_RationsConserved_take :
    let t := at0 (core0 true []) fun x => { x with run := .inTake 16 0 3 3 }
    let s := { t with tick := 3, manger := { t.manger with waits := [⟨16, 1, 0, false, .program 0 5⟩] } }
    s.evaluate.2.map (fun w => w.kind) = [.program 0 5] := by decide

theorem witness_CoreWordsReadBack :
    (Instr.iLdw 3 1 12 14).wellFormed = true ∧ (encodeCore (.iLdw 3 1 12 14)).isSome = true ∧
    (decodeCore 3 0x33E0C 0).isSome = true := by decide

theorem witness_StepKeepsTablesCanonical :
    State.reset.tablesWf ∧ (step State.reset = .next (match step State.reset with | .next t => t | _ => State.reset)) :=
  ⟨State.reset_wf, rfl⟩

theorem witness_StepRunsFrontCommand :
    { State.reset with pending := [Instr.resetPor] }.pending = [Instr.resetPor] ∧ State.reset.pending = [] ∧
    State.reset.sched.steps = [] ∧ State.reset.sched.samples = [] := by decide

/-! ## What WellFormed refuses -/

/-- R46, R59: an odd pair field. -/
theorem smoke_odd_pair : ∀ i ∈ ([.iPadd 0 1 2 4, .iPsub 0 2 3 4, .iPcmp 0 2 5, .iPaddsx 0 1 2 4, .iPaddzx 0 2 1 4, .iPsll 0 1 2 3,
    .iPsrl 0 2 1 3, .iPsra 0 1 2 3, .iPmov 0 1 2, .iMuluP 0 1 2 3, .iMulsP 0 15 2 3, .iMacuP 0 3 2 3, .iMacsP 0 5 2 3,
    .iDivuP 0 2 1 3, .iDivsP 0 1 2 3, .iLdp 0 1 2 0, .iStp 0 1 2 0, .iTnow 0 1, .iWat 0 1, .iArm 0 0 1 2] : List Instr),
    i.wellFormed = false := by decide

/-- R62, R75, R76: condition 0xF, a shift of 20, a field outside the word, a long form that does not exist. -/
theorem smoke_ranges : ∀ i ∈ ([.iBranch 0 0xF 0, .iSlli 0 1 2 20, .iSrli 0 1 2 31, .iSrai 0 1 2 20, .iRori 0 1 2 20, .iExtu 0 1 2 19 2,
    .iExtu 0 1 2 0 0, .iExts 0 1 2 0 21, .iExts 0 1 2 20 1, .iIns 0 1 2 10 11, .iLongAlu 0 14 1 2 3] : List Instr),
    i.wellFormed = false := by decide

/-- An ill-formed command is one that its core takes ILLEGAL_OP for: pc stays and the error is entered (R59). -/
theorem smoke_illformed_is_illegal :
    after (exec (.iPadd 0 1 2 4) (core0 true [])) (fun s => (s.core 0).ecause == 0x10000 && (s.core 0).epc[4] == 0 && (s.core 0).act == 0x10 && (s.core 0).w == ((core0 true []).core 0).w) = true := by
  decide

/-! ## Words of the spec's encodings -/

/-- R67's encoding example, R59's words, and one word of every major opcode, laid out by the tables of R58-R79, R83, R92
and R103. -/
theorem test_words :
    decodeCore 0 0x33E0C 0 = some (.iLdw 0 3 14 12) ∧ decodeCore 0 0x20000 0 = some (.iLui 0 0 0) ∧ decodeCore 0 0xFFFFF 0 = none ∧
    decodeCore 0 0x00000 0 = some (.iAdd 0 0 0 0) ∧ decodeCore 0 0x0F0EE 0 = none ∧ decodeCore 0 0x0FB0E 0 = some (.iJalr 0 15 11) ∧
    decodeCore 0 0x1B0FF 0 = some (.iAddi 0 11 0 0xFF) ∧ decodeCore 0 0x46203 0 = some (.iStw 0 6 2 3) ∧
    decodeCore 0 0x51FFE 0 = some (.iBranch 0 1 0xFFE) ∧ decodeCore 0 0x6C000 0 = some (.iJ 0 0xC000) ∧
    decodeCore 0 0x71234 0 = some (.iCall 0 0x1234) ∧ decodeCore 0 0x808A2 0 = some (.iArm 0 0 8 10) ∧
    decodeCore 0 0x93450 0 = none ∧ decodeCore 0 0x90450 0 = some (.iPost 0 4 5) ∧ decodeCore 0 0xA3102 0 = some (.iMfs 0 3 0x10) ∧
    decodeCore 0 0xB8464 0 = some (.iPaddzx 0 8 4 6) ∧ decodeCore 0 0xC2468 0 = some (.iDivuP 0 2 4 6) ∧
    decodeCore 0 0xD1231 0 = some (.iSlli 0 1 2 19) ∧ decodeCore 0 0xD1208 0x0A5 = some (.iExtu 0 1 2 5 5) ∧
    decodeCore 0 0xE600E 0x12C00 = some (.iLi 0 6 0x12C00) ∧ decodeCore 0 0xE4015 0x0003E = some (.iLdp 0 4 0 0x3E) ∧
    decodeCore 0 0xF0ABC 0 = some (.iTrap 0 0xABC) ∧ decodeTableWord 20 0x33E0C = none := by decide

/-! ## Worked results of the spec -/

/-- The example after R54: `stw w6, 3(w2)`. -/
theorem test_stw_bytes :
    after (exec (.iStw 0 6 2 3) (core0 true [0, 0, 0x01000, 0, 0, 0, 0x5DC00])) (fun s =>
      (s.core 0).stores == [⟨0x01003, [0x00, 0xDC, 0x05], true, true⟩]) = true := by decide

/-- The same example: `ldp w4, 0x3E(w0)` puts the lower triple into w5. -/
theorem test_ldp_order :
    after (exec (.iLdp 0 4 0 0x3E) ((core0 true []).setBytes .sram 0x3E [1, 2, 3, 4, 5, 6])) (fun s =>
      (s.core 0).get 5 == 0x30201 && (s.core 0).get 4 == 0x60504) = true := by decide

/-- R59's caution: word 0x00000 writes no register and sets Z. -/
theorem test_add_w0 :
    after (exec (.iAdd 0 0 0 0) (core0 true [0, 7])) (fun s =>
      (s.core 0).get 0 == 0 && (s.core 0).get 1 == 7 && (s.core 0).sw == 0x80004) = true := by decide

/-- R73: an unsigned division by zero. -/
theorem test_divu_zero :
    after (exec (.iDivu 0 3 1 2) (core0 true [0, 5, 0])) (fun s => (s.core 0).get 3 == 0xFFFFF) = true := by decide

/-- R64: sra by 20 or more leaves the sign. -/
theorem test_sra_far :
    after (exec (.iSra 0 3 1 2) (core0 true [0, 0x80000, 31])) (fun s => (s.core 0).get 3 == 0xFFFFF) = true := by decide

/-- R68: a branch counts from the word after it. -/
theorem test_branch_back :
    after (exec (.iBranch 0 0xE 0xFFE) (core0 true [])) (fun s => (s.core 0).pc == ((core0 true []).core 0).pc - 1) = true := by decide

/-- R206's example: the shifts of row 3 at rate 1/2. -/
theorem test_code_shifts :
    [3, 4, 6, 10].map (codeShift 40 3) = [25, 17, 1, 9] ∧ [3, 4, 6, 10].map (codeShift 20 3) = [5, 17, 1, 9] := by decide

/-- R202: data followed by its CRC-24 leaves the register at 0. -/
theorem test_crc24_residue : crc24 ([0x12, 0x34] ++ toBytesBE 3 (crc24 [0x12, 0x34])) = 0 := by decide

/-- R300: SHA-256 as FIPS 180-4 works it for "abc". -/
theorem test_sha256_abc : ofBytesBE (sha256 [0x61, 0x62, 0x63]) =
    0xba7816bf8f01cfea414140de5dae2223b00361a396177a9cb410ff61f20015ad := by decide +kernel


/-- R136: an open-drain pin whose OUT bit is 0 pulls its ball low, and a push-pull pin reads back its output. -/
theorem test_gpio_reads_ball :
    after (exec (.registerWrite .debug 0xD1210 0x40)
      { ((State.reset.put (GPIO_CFG_MODE 5) 2).put (GPIO_CFG_MODE 6) 1).put SUP_STAT_VIO 1 with
        pins := 0xFF, pinLvl := 0xBF, filt := ⟨0x80, []⟩ }) (fun s =>
        (s.gpioIn 5, s.gpioIn 6, s.gpioIn 7) == (false, true, true)) = true := by decide

/-- R359, R353: an asynchronous AND of two pulses of one bus cycle fires once, with the second. -/
theorem test_async_and_fires_once :
    (let s := (((State.reset.put (LAT_CLUT_TRUTH 0) 0x8888).put (LAT_CINA_IN0 0) 0x80).put (LAT_CINA_IN1 0) 0x81)
     ((s.fire 0x80).lattice.live, ((s.fire 0x80).fire 0x81).lattice.live)) = ([0x80], [0x80, 0x81, 0x60]) := by decide

/-- R133, R458, R501: HOST_IRQ and FAULT_N follow their registers in RUN. -/
theorem test_pins_follow :
    (let s := (State.reset.put SUP_STAT_VIO 1).modKeeper (fun k => { k with started := true })
     (s.hostIrqPin, ((s.setRg HSP_IRQEN 1).setRg HSP_FLAGS 1).hostIrqPin, s.faultPin, (s.put (faultBit 6) 1).faultPin)) =
    (.drive false, .drive true, .z, .drive false) := by decide

/-- R353: a second pulse of a producer in a tick comes in a later bus cycle, so that an AND with another producer is not met twice
in one cycle. -/
theorem test_second_pulse_waits :
    (let s := (State.reset.fire 0x80).fire 0x80
     (s.lattice.live, s.lattice.again)) = ([0x80], [0x80]) := by decide

/-- R113: CC_PC reads 0 after a reset of the device, although the core will start at START. -/
theorem test_pc_after_reset : State.reset.viewCore (CC_PC 0) = 0 := by decide

/-- R441: silicon revision A1. -/
theorem test_revision : State.reset.idShow.rg (SYS_ID 3) = 0x00011 ∧ State.reset.idShow.test SYS_OTP_ID_BAD = false := by decide
end Sys2Proof.Tests
end

section
/-! SUPPORT. The shifts and rotates (R64, R71, R74), the pair operations (R70, R71) and the branches and jumps (R62, R68,
R69) in the arithmetic of bit vectors, and the statements about them. -/

namespace Sys2Proof.Machine

/-! ## The last bit shifted out, and the shift results -/

/-- The model's shift outcome `p` is the word `r`, and C after it is `cf` where it was `k` before. -/
def ShiftsTo {w : Nat} (p : Nat × Option Bool) (k : Bool) (r : BitVec w) (cf : Bool) : Prop :=
  p.1 = r.toNat ∧ p.2.getD k = cf

theorem decide_div_pow_odd {w : Nat} (x : BitVec w) (i : Nat) : decide (x.toNat / 2 ^ i % 2 = 1) = x.getLsbD i := by
  rw [← Nat.testBit_eq_decide_div_mod_eq, BitVec.testBit_toNat]

theorem shl_shiftsTo {w : Nat} (x : BitVec w) (n : Nat) (k : Bool) :
    ShiftsTo (shl w x.toNat n) k (x <<< n) (if n = 0 then k else if n ≤ w then x.getLsbD (w - n) else false) := by
  rcases Nat.eq_zero_or_pos n with rfl | hpos
  · simp [ShiftsTo, shl]
  · have hn : n ≠ 0 := by omega
    by_cases hle : n ≤ w
    · simp [ShiftsTo, shl, hn, hle, decide_div_pow_odd, Nat.shiftLeft_eq]
    · simp [ShiftsTo, shl, hn, hle, BitVec.shiftLeft_eq_zero (x := x) (n := n) (by omega)]

theorem shr_shiftsTo {w : Nat} (x : BitVec w) (n : Nat) (k : Bool) :
    ShiftsTo (shr w x.toNat n) k (x >>> n) (if n = 0 then k else x.getLsbD (n - 1)) := by
  rcases Nat.eq_zero_or_pos n with rfl | hpos
  · simp [ShiftsTo, shr]
  · have hn : n ≠ 0 := by omega
    by_cases hle : n ≤ w
    · simp [ShiftsTo, shr, hn, hle, decide_div_pow_odd, Nat.shiftRight_eq_div_pow]
    · simp [ShiftsTo, shr, hn, hle, BitVec.ushiftRight_eq_zero (x := x) (n := n) (by omega),
        BitVec.getLsbD_of_ge x (n - 1) (by omega)]

theorem signed_toNat {w : Nat} (x : BitVec w) : signed w x.toNat = x.toInt := by
  have hx : x.toNat % 2 ^ w = x.toNat := Nat.mod_eq_of_lt x.isLt
  simp only [signed, hx, BitVec.toInt_eq_msb_cond, BitVec.msb_eq_decide, decide_eq_true_eq, Nat.cast_pow, Nat.cast_ofNat]

/-- Arithmetic shifts below the width divide, rounding toward minus infinity. -/
theorem unsigned_signed_div {w : Nat} (x : BitVec w) (n : Nat) :
    unsigned w (signed w x.toNat / 2 ^ n) = (x.sshiftRight n).toNat := by
  rw [signed_toNat, BitVec.sshiftRight, BitVec.toNat_ofInt, Int.shiftRight_eq_div_pow]
  simp [unsigned]

/-- Arithmetic shifts by the width or more leave copies of the sign. -/
theorem toNat_sshiftRight_of_ge {w : Nat} (x : BitVec w) (n : Nat) (h : w ≤ n) :
    (x.sshiftRight n).toNat = if x.msb then 2 ^ w - 1 else 0 := by
  have hpow : 2 ^ w ≤ 2 ^ n := Nat.pow_le_pow_right (by decide) h
  cases hm : x.msb
  · simp [BitVec.toNat_sshiftRight_of_msb_false hm, Nat.shiftRight_eq_div_pow, Nat.div_eq_of_lt (x.isLt.trans_le hpow)]
  · have hlt : 2 ^ w - 1 - x.toNat < 2 ^ n := by have := x.isLt; omega
    simp [BitVec.toNat_sshiftRight_of_msb_true hm, Nat.shiftRight_eq_div_pow, Nat.div_eq_of_lt hlt]

theorem sar_shiftsTo {w : Nat} (hw : 0 < w) (x : BitVec w) (n : Nat) (k : Bool) :
    ShiftsTo (sar w x.toNat n) k (x.sshiftRight n)
      (if n = 0 then k else if n ≤ w - 1 then x.getLsbD (n - 1) else x.msb) := by
  rcases Nat.eq_zero_or_pos n with rfl | hpos
  · simp [ShiftsTo, sar]
  · have hn : n ≠ 0 := by omega
    by_cases hlt : n < w
    · have hle : n ≤ w - 1 := by omega
      simp [ShiftsTo, sar, hn, hlt, hle, decide_div_pow_odd, unsigned_signed_div]
    · have hle : ¬ n ≤ w - 1 := by omega
      simp [ShiftsTo, sar, hn, hlt, hle, topBit_toNat w hw, toNat_sshiftRight_of_ge x n (by omega)]

/-- The two parts of a rotated word do not overlap, so that they add. -/
theorem toNat_rotateRight_add (x : W20) (n : Nat) :
    (x.rotateRight n).toNat = x.toNat / 2 ^ (n % 20) + x.toNat % 2 ^ (n % 20) * 2 ^ (20 - n % 20) := by
  have hn : n % 20 < 20 := Nat.mod_lt _ (by decide)
  have hsplit : (2 : Nat) ^ 20 = 2 ^ (n % 20) * 2 ^ (20 - n % 20) := by rw [← pow_add]; congr 1; omega
  have hlow : x.toNat / 2 ^ (n % 20) < 2 ^ (20 - n % 20) :=
    Nat.div_lt_of_lt_mul (hsplit ▸ x.isLt)
  calc (x.rotateRight n).toNat
      = x.toNat / 2 ^ (n % 20) ||| x.toNat * 2 ^ (20 - n % 20) % 2 ^ 20 := by
        rw [BitVec.toNat_rotateRight, Nat.shiftRight_eq_div_pow, Nat.shiftLeft_eq]
    _ = x.toNat / 2 ^ (n % 20) ||| (x.toNat % 2 ^ (n % 20)) <<< (20 - n % 20) := by
        rw [hsplit, Nat.mul_mod_mul_right, Nat.shiftLeft_eq]
    _ = x.toNat / 2 ^ (n % 20) + x.toNat % 2 ^ (n % 20) * 2 ^ (20 - n % 20) := by
        rw [Nat.or_comm, ← Nat.shiftLeft_add_eq_or_of_lt hlow, Nat.shiftLeft_eq, Nat.add_comm]

theorem rotr_shiftsTo (x : W20) (n : Nat) (k : Bool) :
    ShiftsTo (rotr x.toNat n) k (x.rotateRight n) (if n % 20 = 0 then k else (x.rotateRight n).msb) := by
  by_cases hn : n % 20 = 0
  · have hid : x.rotateRight n = x := BitVec.eq_of_toNat_eq (by rw [toNat_rotateRight_add, hn]; simp [Nat.mod_one])
    simp [ShiftsTo, rotr, hn, hid]
  · simp only [ShiftsTo, rotr, hn, if_false, ← toNat_rotateRight_add, topBit_toNat 20 (by decide), Option.getD_some,
      and_self]

/-- The shift rule's status word, over any width. -/
theorem swShift_of_shiftsTo {w : Nat} (hw : 0 < w) {sw : W20} {p : Nat × Option Bool} {r : BitVec w} {cf : Bool}
    (h : ShiftsTo p (swC sw) r cf) : swShift w sw p.1 p.2 = swFlags sw r.msb (r == 0#w) cf false := by
  obtain ⟨hr, hc⟩ := h
  rw [swShift, hr, hc, topBit_toNat w hw, decide_toNat_zero]

/-! ## The word shifts (R64, R74) -/

section WordShift

variable {s : State} {c : CoreId} {d a : RegId} {r : W20} {cf : Bool}

/-- An ALU operation that shifts, by what the shift comes to. -/
theorem State.alu_of_shiftsTo {fn : Nat} {b : RegId} {p : Nat × Option Bool} (h : s.runs c = true)
    (hfn : aluFn fn (s.core c).sw ((s.core c).get a).toNat ((s.core c).get b).toNat =
      some (p.1, swShift 20 (s.core c).sw p.1 p.2))
    (hp : ShiftsTo p (swC (s.core c).sw) r cf) :
    s.alu c fn 1 d a (·.get b) = .next (s.setCore c (CoreSt.advance
      { (s.core c).set d r with sw := swFlags (s.core c).sw r.msb (r == 0#20) cf false } 1)) := by
  rw [State.alu, State.instr_runs _ _ _ h]
  simp only [hfn, swShift_of_shiftsTo (by decide) hp]
  rw [hp.1, BitVec.ofNat_toNat, BitVec.setWidth_eq]

/-- A shift by a legal immediate. -/
theorem State.shiftImm_of_shiftsTo {m : BitVec 5} {f : Nat → Nat → Nat × Option Bool} (h : s.runs c = true) (hm : m.toNat < 20)
    (hp : ShiftsTo (f ((s.core c).get a).toNat m.toNat) (swC (s.core c).sw) r cf) :
    s.shiftImm c d a m f = .next (s.setCore c (CoreSt.advance
      { (s.core c).set d r with sw := swFlags (s.core c).sw r.msb (r == 0#20) cf false } 1)) := by
  rw [State.shiftImm, State.plain_runs _ _ _ _ _ h (by simpa using hm)]
  simp only [swShift_of_shiftsTo (by decide) hp]
  rw [hp.1, BitVec.ofNat_toNat, BitVec.setWidth_eq]

end WordShift

/-! ## Sums and differences over a width (R61) -/

theorem addFlags_toNat {w p q : Nat} (hw : 0 < w) {x y : BitVec w} (hx : x.toNat = p) (hy : y.toNat = q) :
    addFlags w p q 0 = ((x + y).toNat, decide (2 ^ w ≤ x.toNat + y.toNat), BitVec.saddOverflow x y) := by
  subst hx hy
  have hsum : (x.toNat + y.toNat) % 2 ^ w = (x + y).toNat := (BitVec.toNat_add x y).symm
  simp only [addFlags, Nat.add_zero, hsum, topBit_toNat w hw, BitVec.saddOverflow_eq]
  rfl

theorem subFlags_toNat {w p q : Nat} (hw : 0 < w) {x y : BitVec w} (hx : x.toNat = p) (hy : y.toNat = q) :
    subFlags w p q = ((x - y).toNat, decide (y.toNat ≤ x.toNat), BitVec.ssubOverflow x y) := by
  subst hx hy
  have hlt := y.isLt
  have hnot : 2 ^ w - 1 - y.toNat = (~~~y).toNat := BitVec.toNat_not.symm
  have hdiff : (x.toNat + (~~~y).toNat + 1) % 2 ^ w = (x - y).toNat := by
    rw [BitVec.toNat_sub, ← hnot]; congr 1; omega
  have hcarry : (2 ^ w ≤ x.toNat + (~~~y).toNat + 1) ↔ y.toNat ≤ x.toNat := by rw [← hnot]; omega
  have hmsb : (~~~y).msb = !y.msb := by rw [BitVec.msb_not]; simp [hw]
  simp only [subFlags, addFlags, hnot, hdiff, hcarry, topBit_toNat w hw, hmsb, BitVec.ssubOverflow_eq]
  cases x.msb <;> cases y.msb <;> cases (x - y).msb <;> rfl

theorem swArith_toNat {w : Nat} (hw : 0 < w) (sw : W20) (r : BitVec w) (cf vf : Bool) :
    swArith w sw (r.toNat, cf, vf) = swFlags sw r.msb (r == 0#w) cf vf := by
  rw [swArith, topBit_toNat w hw, decide_toNat_zero]

/-! ## The pair operations (R70, R71) -/

/-- The value of a pair fits 40 bits. -/
theorem CoreSt.toNat_ofNat_pair (x : CoreSt) (a : RegId) : (BitVec.ofNat 40 (x.pair a)).toNat = x.pair a := by
  have hhi := (x.get a).isLt
  have hlo := (x.get (oddOf a)).isLt
  rw [BitVec.toNat_ofNat, Nat.mod_eq_of_lt]
  rw [CoreSt.pair]; omega

section Pair

variable {s : State} {c : CoreId} {d a b : RegId} {r : W40} {cf vf : Bool}

/-- A sum or difference written to a pair. -/
theorem State.pairArith_runs {ok : Bool} {f : CoreSt → Nat → Nat × Bool × Bool} (h : s.runs c = true)
    (hd : d.val % 2 = 0) (ha : a.val % 2 = 0) (hok : ok = true)
    (hf : f (s.core c) ((s.core c).pair a) = (r.toNat, cf, vf)) :
    s.pairArith c ok d a f = .next (s.setCore c (CoreSt.advance
      { (s.core c).setPair d r.toNat with sw := swFlags (s.core c).sw r.msb (r == 0#40) cf vf } 1)) := by
  rw [State.pairArith, State.plain_runs _ _ _ _ _ h (by simp [isPair, hd, ha, hok]), hf, swArith_toNat (by decide)]
  rfl

/-- A pair shift, by what the shift comes to. -/
theorem State.pairShift_of_shiftsTo {f : Nat → Nat → Nat × Option Bool} (h : s.runs c = true)
    (hd : d.val % 2 = 0) (ha : a.val % 2 = 0)
    (hp : ShiftsTo (f ((s.core c).pair a) (((s.core c).get b).toNat % 64)) (swC (s.core c).sw) r cf) :
    s.pairShift c d a b f = .next (s.setCore c (CoreSt.advance
      { (s.core c).setPair d r.toNat with sw := swFlags (s.core c).sw r.msb (r == 0#40) cf false } 1)) := by
  rw [State.pairShift, State.plain_runs _ _ _ _ _ h (by simp [isPair, hd, ha])]
  simp only [swShift_of_shiftsTo (by decide) hp]
  rw [hp.1]
  rfl

theorem execIPcmp_runs (h : s.runs c = true) (ha : a.val % 2 = 0) (hb : b.val % 2 = 0)
    (hf : subFlags 40 ((s.core c).pair a) ((s.core c).pair b) = (r.toNat, cf, vf)) :
    execIPcmp c a b s = .next (s.setCore c (CoreSt.advance
      { s.core c with sw := swFlags (s.core c).sw r.msb (r == 0#40) cf vf } 1)) := by
  rw [execIPcmp, State.plain_runs _ _ _ _ _ h (by simp [isPair, ha, hb]), hf, swArith_toNat (by decide)]

theorem CoreSt.setPair_keep_sw (x : CoreSt) (d : RegId) (v : Nat) : { x.setPair d v with sw := x.sw } = x.setPair d v := by
  have hsw : (x.setPair d v).sw = x.sw := by simp [CoreSt.setPair]
  rw [← hsw]

theorem execIPmov_runs (h : s.runs c = true) (hd : d.val % 2 = 0) (ha : a.val % 2 = 0)
    (hr : r.toNat = (s.core c).pair a) :
    execIPmov c d a s = .next (s.setCore c (CoreSt.advance
      { (s.core c).setPair d r.toNat with sw := (s.core c).sw } 1)) := by
  rw [execIPmov, State.plain_runs _ _ _ _ _ h (by simp [isPair, hd, ha]), CoreSt.setPair_keep_sw, hr]

end Pair

/-! ## Branches and jumps (R62, R68, R69) -/

/-- The conditions of R62 in the order of their codes. -/
def branchTable (sw : W20) : List Bool :=
  let n := sw.getLsbD 3
  let z := sw.getLsbD 2
  let c := sw.getLsbD 1
  let v := sw.getLsbD 0
  [z, !z, c, !c, n, !n, v, !v, c && !z, !c || z, n == v, n != v, !z && n == v, z || n != v, true]

theorem condition_eq_branchTable (sw : W20) (cond : BitVec 4) : condition sw cond.toNat = (branchTable sw)[cond.toNat]? := by
  have hlt : cond.toNat < 16 := cond.isLt
  generalize cond.toNat = k at hlt ⊢
  interval_cases k <;> rfl

/-- A branch whose condition is one of R62. -/
theorem execIBranch_runs {s : State} {c : CoreId} {cond : BitVec 4} {k : Bool} (disp12 : BitVec 12) (h : s.runs c = true)
    (hk : condition (s.core c).sw cond.toNat = some k) :
    execIBranch c cond disp12 s = .next (s.setCore c { s.core c with
      pc := if k then (s.core c).pc + 1 + disp12.signExtend 16 else (s.core c).pc + 1 }) := by
  rw [execIBranch, State.instr_runs _ _ _ h, hk]
  cases k <;> rfl

/-- A branch of the condition that R62 leaves out. -/
theorem execIBranch_illegal {s : State} {c : CoreId} {cond : BitVec 4} (disp12 : BitVec 12) (h : s.runs c = true)
    (hk : condition (s.core c).sw cond.toNat = none) : execIBranch c cond disp12 s = .next (s.illegal c) := by
  rw [execIBranch, State.instr_runs _ _ _ h, hk]

/-! ## The statements -/

/-- Settles O2: each shift is what the bit vectors' own shift is, and its last bit out is C. -/
theorem shiftAndRotateResults : Obligations.ShiftAndRotateResults := by
  unfold Obligations.ShiftAndRotateResults
  intro c d a b m s h x u n
  refine ⟨?sll, ?srl, ?sra, ?ror, fun hm => ⟨?slli, ?srli, ?srai, ?rori⟩⟩
  case sll => exact State.alu_of_shiftsTo (fn := 0x8) (b := b) h rfl (shl_shiftsTo u n _)
  case srl => exact State.alu_of_shiftsTo (fn := 0x9) (b := b) h rfl (shr_shiftsTo u n _)
  case sra => exact State.alu_of_shiftsTo (fn := 0xA) (b := b) h rfl (sar_shiftsTo (by decide) u n _)
  case ror => exact State.alu_of_shiftsTo (fn := 0xB) (b := b) h rfl (rotr_shiftsTo u n _)
  case slli => exact State.shiftImm_of_shiftsTo h hm (shl_shiftsTo u m.toNat _)
  case srli => exact State.shiftImm_of_shiftsTo h hm (shr_shiftsTo u m.toNat _)
  case srai => exact State.shiftImm_of_shiftsTo h hm (sar_shiftsTo (by decide) u m.toNat _)
  case rori => exact State.shiftImm_of_shiftsTo h hm (rotr_shiftsTo u m.toNat _)

/-- Settles O5: the pair's value fits 40 bits, and sums, differences and shifts are those of 40-bit vectors. -/
theorem pairResults : Obligations.PairResults := by
  unfold Obligations.PairResults
  intro c d a b s h hd ha x u n
  have hu : u.toNat = x.pair a := x.toNat_ofNat_pair a
  have h40 : 0 < 40 := by decide
  refine ⟨?pairs, ?paddsx, ?paddzx, ?psll, ?psrl, ?psra, ?pmov⟩
  case pairs =>
    intro hb v
    have hv : v.toNat = x.pair b := x.toNat_ofNat_pair b
    have hpair : isPair b = true := by simp [isPair, hb]
    refine ⟨?padd, ?psub, ?pcmp⟩
    case padd =>
      exact State.pairArith_runs (f := fun y p => addFlags 40 p (y.pair b) 0) h hd ha hpair (addFlags_toNat h40 hu hv)
    case psub =>
      exact State.pairArith_runs (f := fun y p => subFlags 40 p (y.pair b)) h hd ha hpair (subFlags_toNat h40 hu hv)
    case pcmp => exact execIPcmp_runs h ha hb (subFlags_toNat h40 hu hv)
  case paddsx =>
    exact State.pairArith_runs (f := fun y p => addFlags 40 p ((y.get b).signExtend 40).toNat 0) h hd ha rfl
      (addFlags_toNat h40 hu rfl)
  case paddzx =>
    exact State.pairArith_runs (f := fun y p => addFlags 40 p (y.get b).toNat 0) h hd ha rfl
      (addFlags_toNat h40 hu (BitVec.toNat_setWidth_of_le (by decide)))
  case psll => exact State.pairShift_of_shiftsTo h hd ha (hu ▸ shl_shiftsTo u n _)
  case psrl => exact State.pairShift_of_shiftsTo h hd ha (hu ▸ shr_shiftsTo u n _)
  case psra => exact State.pairShift_of_shiftsTo h hd ha (hu ▸ sar_shiftsTo h40 u n _)
  case pmov => exact execIPmov_runs h hd ha hu

/-- Settles O4: `condition` reads the table of R62, and each transfer writes pc alone but for the return address. -/
theorem branchAndJumpResults : Obligations.BranchAndJumpResults := by
  unfold Obligations.BranchAndJumpResults
  intro c d a cond disp12 imm16 s h x n z cf v taken
  refine ⟨fun k hk => ?branch, fun hcond => ?illegal, ?j, ?call, ?jalr⟩
  case branch => exact execIBranch_runs disp12 h ((condition_eq_branchTable x.sw cond).trans hk)
  case illegal => exact execIBranch_illegal disp12 h (by rw [condition_eq_branchTable, hcond]; rfl)
  case j => show execIJ c imm16 s = _; rw [execIJ, State.instr_runs s c _ h]
  case call => show execICall c imm16 s = _; rw [execICall, State.instr_runs s c _ h]
  case jalr => show execIJalr c d a s = _; rw [execIJalr, State.instr_runs s c _ h]

end Sys2Proof.Machine
end

section
/-! SUPPORT. The system registers of a core (R104): what each reads, and what a write leaves in it; the bank that `rti`
returns from (R112); and the statement about `mfs`, `mts` and `rti` in privileged mode. -/

namespace Sys2Proof.Machine

/-! ## The halves of a 32-bit register -/

theorem ofNat_half (v : BitVec 32) (k : Nat) :
    BitVec.ofNat 20 (v.toNat / 2 ^ (16 * k) % 2 ^ 16) = ((v >>> (16 * k)).setWidth 16).setWidth 20 := by
  apply BitVec.eq_of_toNat_eq
  simp [Nat.shiftRight_eq_div_pow]

/-- The bits that a W1C write of `v` clears in half `k`. -/
theorem ofNat_half_shifted (v : W20) (k : Nat) :
    BitVec.ofNat 32 (v.toNat % 2 ^ 16 * 2 ^ (16 * k)) = (v.setWidth 16).setWidth 32 <<< (16 * k) := by
  apply BitVec.eq_of_toNat_eq
  simp [Nat.shiftLeft_eq]

/-- A number written as two halves, bit by bit. -/
theorem getLsbD_ofNat_halves (hi lo : Nat) (i : Nat) :
    (BitVec.ofNat 32 (hi * 2 ^ 16 + lo % 2 ^ 16)).getLsbD i =
      (decide (i < 32) && if i < 16 then lo.testBit i else hi.testBit (i - 16)) := by
  have hlo : lo % 2 ^ 16 < 2 ^ 16 := Nat.mod_lt _ (by decide)
  rw [BitVec.getLsbD_ofNat, Nat.mul_comm, Nat.testBit_two_pow_mul_add _ hlo]
  by_cases hi16 : i < 16 <;> simp [hi16, -Nat.reducePow, Nat.testBit_mod_two_pow]

theorem getLsbD_low_mask : ∀ i < 32, (0x0000FFFF : BitVec 32).getLsbD i = decide (i < 16) := by decide
theorem getLsbD_high_mask : ∀ i < 32, (0xFFFF0000 : BitVec 32).getLsbD i = !decide (i < 16) := by decide

theorem setHalf_low (v : BitVec 32) (u : W20) :
    setHalf v 0 u.toNat = (v &&& 0xFFFF0000) ||| (u.setWidth 16).setWidth 32 := by
  refine BitVec.eq_of_getLsbD_eq fun i hi => ?_
  rw [setHalf, if_pos rfl, getLsbD_ofNat_halves, BitVec.getLsbD_or, BitVec.getLsbD_and, getLsbD_high_mask i hi]
  by_cases h16 : i < 16
  · simp [hi, h16, BitVec.testBit_toNat]
  · have hback : i - 16 + 16 = i := Nat.sub_add_cancel (Nat.le_of_not_lt h16)
    simp [hi, h16, hback, -Nat.reducePow, Nat.testBit_div_two_pow, BitVec.testBit_toNat]

theorem setHalf_high (v : BitVec 32) (u : W20) :
    setHalf v 1 u.toNat = (v &&& (0x0000FFFF : BitVec 32)) ||| ((u.setWidth 16).setWidth 32 <<< 16) := by
  refine BitVec.eq_of_getLsbD_eq fun i hi => ?_
  have hhigh : i - 16 < 16 := by omega
  rw [setHalf, if_neg (by decide), BitVec.getLsbD_or, BitVec.getLsbD_and, getLsbD_low_mask i hi, getLsbD_ofNat_halves]
  by_cases h16 : i < 16
  · simp [hi, h16, BitVec.testBit_toNat]
  · simp [hi, h16, hhigh, -Nat.reducePow, Nat.testBit_mod_two_pow, BitVec.testBit_toNat]

/-! ## What each system register reads (R104) -/

/-- A row of `w` registers from number `base` fits the eight bits of sr (R103). -/
theorem toNat_sysRegNumber {base w : Nat} (hb : base + w ≤ 2 ^ 8) (n : Fin w) :
    (BitVec.ofNat 8 (base + n.val)).toNat = base + n.val :=
  Nat.mod_eq_of_lt (by omega)

section Reads

variable (x : CoreSt) (c : CoreId)

theorem CoreSt.sysReg_pend_low : x.sysReg c 0x02 = some ((x.pend.setWidth 16).setWidth 20) :=
  congrArg some (ofNat_half x.pend 0)

theorem CoreSt.sysReg_pend_high : x.sysReg c 0x03 = some (((x.pend >>> 16).setWidth 16).setWidth 20) :=
  congrArg some (ofNat_half x.pend 1)

theorem CoreSt.sysReg_ien_low : x.sysReg c 0x04 = some ((x.ien.setWidth 16).setWidth 20) :=
  congrArg some (ofNat_half x.ien 0)

theorem CoreSt.sysReg_ien_high : x.sysReg c 0x05 = some (((x.ien >>> 16).setWidth 16).setWidth 20) :=
  congrArg some (ofNat_half x.ien 1)

theorem CoreSt.sysReg_ilvl (m : Fin 4) : x.sysReg c (0x06 + m.val) = some (x.ilvl[m].setWidth 20) := by
  have hm := m.isLt
  simp (disch := omega) only [CoreSt.sysReg, if_neg, if_pos, Nat.add_sub_cancel_left]
  simp

theorem CoreSt.sysReg_emiss_low : x.sysReg c 0x0A = some ((x.emiss.setWidth 16).setWidth 20) :=
  congrArg some (ofNat_half x.emiss 0)

theorem CoreSt.sysReg_emiss_high : x.sysReg c 0x0B = some (((x.emiss >>> 16).setWidth 16).setWidth 20) :=
  congrArg some (ofNat_half x.emiss 1)

theorem CoreSt.sysReg_epc (n : Fin 5) : x.sysReg c (0x10 + n.val) = some x.epc[n] := by
  have hn := n.isLt
  simp (disch := omega) only [CoreSt.sysReg, if_neg, if_pos, Nat.add_sub_cancel_left]
  simp

theorem CoreSt.sysReg_esw (n : Fin 5) : x.sysReg c (0x18 + n.val) = some x.esw[n] := by
  have hn := n.isLt
  simp (disch := omega) only [CoreSt.sysReg, if_neg, if_pos, Nat.add_sub_cancel_left]
  simp

end Reads

/-! ## What a privileged write leaves in each (R104) -/

theorem setIfInBounds_fin {α : Type} {n : Nat} (xs : Vector α n) (i : Fin n) (v : α) :
    xs.setIfInBounds i.val v = xs.set i.val v :=
  Vector.ext fun j hj => by rw [Vector.getElem_setIfInBounds, Vector.getElem_set]

section Writes

variable (x : CoreSt) (v : W20)

theorem CoreSt.setSysReg_ien_low : x.setSysReg 0x04 v =
    { x with ien := (x.ien &&& 0xFFFF0000) ||| ((v.setWidth 16).setWidth 32) } :=
  congrArg (fun w => { x with ien := w }) (setHalf_low x.ien v)

theorem CoreSt.setSysReg_ien_high : x.setSysReg 0x05 v =
    { x with ien := (x.ien &&& 0x0000FFFF) ||| ((v.setWidth 16).setWidth 32 <<< 16) } :=
  congrArg (fun w => { x with ien := w }) (setHalf_high x.ien v)

theorem CoreSt.setSysReg_ilvl (m : Fin 4) : x.setSysReg (0x06 + m.val) v =
    { x with ilvl := x.ilvl.set m (v.setWidth 16) } := by
  have hm := m.isLt
  simp (disch := omega) only [CoreSt.setSysReg, if_neg, if_pos, Nat.add_sub_cancel_left, setIfInBounds_fin]

theorem CoreSt.setSysReg_emiss_low : x.setSysReg 0x0A v =
    { x with emiss := x.emiss &&& ~~~((v.setWidth 16).setWidth 32) } :=
  congrArg (fun w => { x with emiss := x.emiss &&& ~~~w }) ((ofNat_half_shifted v 0).trans (BitVec.shiftLeft_zero _))

theorem CoreSt.setSysReg_emiss_high : x.setSysReg 0x0B v =
    { x with emiss := x.emiss &&& ~~~((v.setWidth 16).setWidth 32 <<< 16) } :=
  congrArg (fun w => { x with emiss := x.emiss &&& ~~~w }) (ofNat_half_shifted v 1)

theorem CoreSt.setSysReg_epc (n : Fin 5) : x.setSysReg (0x10 + n.val) v =
    { x with epc := x.epc.set n (v &&& 0xFFFF) } := by
  have hn := n.isLt
  simp (disch := omega) only [CoreSt.setSysReg, if_neg, if_pos, Nat.add_sub_cancel_left, setIfInBounds_fin]

theorem CoreSt.setSysReg_esw (n : Fin 5) : x.setSysReg (0x18 + n.val) v =
    { x with esw := x.esw.set n (v &&& 0x800FF) } := by
  have hn := n.isLt
  simp (disch := omega) only [CoreSt.setSysReg, if_neg, if_pos, Nat.add_sub_cancel_left, setIfInBounds_fin]

end Writes

/-! ## The bank that `rti` returns from (R112) -/

theorem CoreSt.topBank_of_highest {x : CoreSt} {n : Fin 5} (hn : x.act.getLsbD n = true)
    (above : ∀ k : Fin 5, n < k → x.act.getLsbD k = false) : x.topBank = some n.val := by
  refine List.find?_eq_some_iff_append.2 ⟨hn, ?_⟩
  match n with
  | 4 => exact ⟨[], [3, 2, 1, 0], rfl, by simp⟩
  | 3 => exact ⟨[4], [2, 1, 0], rfl, by simpa using above 4 (by decide)⟩
  | 2 => exact ⟨[4, 3], [1, 0], rfl, by simpa using ⟨above 4 (by decide), above 3 (by decide)⟩⟩
  | 1 => exact ⟨[4, 3, 2], [0], rfl,
      by simpa using ⟨above 4 (by decide), above 3 (by decide), above 2 (by decide)⟩⟩
  | 0 => exact ⟨[4, 3, 2, 1], [], rfl,
      by simpa using ⟨above 4 (by decide), above 3 (by decide), above 2 (by decide), above 1 (by decide)⟩⟩

theorem CoreSt.topBank_of_act_zero {x : CoreSt} (h : x.act = 0) : x.topBank = none := by
  simp [CoreSt.topBank, h]

theorem CoreSt.leave_bank (x : CoreSt) (n : Fin 5) : x.leave n.val = { x with
    pc := x.epc[n].setWidth 16, sw := x.esw[n], act := x.act &&& ~~~(BitVec.twoPow 5 n) } := by
  have hbit : BitVec.ofNat 5 (2 ^ n.val) = BitVec.twoPow 5 n.val :=
    BitVec.eq_of_toNat_eq (by rw [BitVec.toNat_ofNat, BitVec.toNat_twoPow])
  simp [CoreSt.leave, hbit]

/-! ## The three instructions in privileged mode -/

section Privileged

variable {s : State} {c : CoreId} (h : s.runs c = true) (hp : (s.core c).sw.getLsbD 19 = true)
include h hp

theorem exec_iMfs_privileged {d : RegId} {sr : BitVec 8} {k : Nat} {r : W20} (hsr : sr.toNat = k)
    (hr : (s.core c).sysReg c k = some r) :
    exec (.iMfs c d sr) s = .next (s.setCore c (((s.core c).set d r).advance 1)) := by
  show execIMfs c d sr s = _
  rw [execIMfs, State.instr_runs _ _ _ h, hsr, hr]
  simp only [swPriv, hp, true_or, if_true]

theorem exec_iMts_privileged {d : RegId} {sr : BitVec 8} {k : Nat} {r : W20} {y : CoreSt} (hsr : sr.toNat = k)
    (hr : (s.core c).sysReg c k = some r) (hy : (s.core c).setSysReg k ((s.core c).get d) = y) :
    exec (.iMts c sr d) s = .next (s.setCore c (y.advance 1)) := by
  show execIMts c sr d s = _
  rw [execIMts, State.instr_runs _ _ _ h, hsr, hr, hy]
  simp only [swPriv, hp, if_true]

theorem exec_iRti_bank {n : Nat} (hn : (s.core c).topBank = some n) :
    exec (.iRti c) s = .next (s.setCore c ((s.core c).leave n)) := by
  show execIRti c s = _
  rw [execIRti, State.instr_runs _ _ _ h, hn]
  simp [swPriv, hp]

theorem exec_iRti_no_bank (hn : (s.core c).topBank = none) : exec (.iRti c) s = .next (s.illegal c) := by
  show execIRti c s = _
  rw [execIRti, State.instr_runs _ _ _ h, hn]
  simp [swPriv, hp]

end Privileged

/-! ## The statement -/

/-- Settles O12: each number of the table is listed, reads its register and takes the writable fields of a write, and
the bank returned from is the highest whose ACT bit is 1. -/
theorem systemRegisterResults : Obligations.SystemRegisterResults := by
  unfold Obligations.SystemRegisterResults
  intro c d s h hp x v reads writes
  have read {sr : BitVec 8} {k : Nat} {r : W20} (hsr : sr.toNat = k) (hr : x.sysReg c k = some r) : reads sr r :=
    exec_iMfs_privileged h hp hsr hr
  have write {sr : BitVec 8} {k : Nat} {r : W20} {y : CoreSt} (hsr : sr.toNat = k) (hr : x.sysReg c k = some r)
      (hy : x.setSysReg k v = y) : writes sr y := exec_iMts_privileged h hp hsr hr hy
  have ilvl := toNat_sysRegNumber (base := 0x06) (w := 4) (by decide)
  have epc := toNat_sysRegNumber (base := 0x10) (w := 5) (by decide)
  have esw := toNat_sysRegNumber (base := 0x18) (w := 5) (by decide)
  refine ⟨?readSw, ?readAct, ?readPend0, ?readPend1, ?readIen0, ?readIen1, ?readIlvl, ?readEmiss0, ?readEmiss1,
    ?readBank, ?readEcause, ?readEaddr, ?readCoreId, ?writeSw, ?writeAct, ?writePend0, ?writePend1, ?writeEaddr,
    ?writeCoreId, ?writeEcause, ?writeIen0, ?writeIen1, ?writeIlvl, ?writeEmiss0, ?writeEmiss1, ?writeBank,
    ?rtiBank, ?rtiIllegal⟩
  case readSw | readAct | readEcause | readEaddr | readCoreId => exact read rfl rfl
  case readPend0 => exact read rfl (x.sysReg_pend_low c)
  case readPend1 => exact read rfl (x.sysReg_pend_high c)
  case readIen0 => exact read rfl (x.sysReg_ien_low c)
  case readIen1 => exact read rfl (x.sysReg_ien_high c)
  case readIlvl => exact fun m => read (ilvl m) (x.sysReg_ilvl c m)
  case readEmiss0 => exact read rfl (x.sysReg_emiss_low c)
  case readEmiss1 => exact read rfl (x.sysReg_emiss_high c)
  case readBank => exact fun n => ⟨read (epc n) (x.sysReg_epc c n), read (esw n) (x.sysReg_esw c n)⟩
  case writeSw | writeEcause | writeAct | writePend0 | writePend1 | writeEaddr | writeCoreId => exact write rfl rfl rfl
  case writeIen0 => exact write rfl rfl (x.setSysReg_ien_low v)
  case writeIen1 => exact write rfl rfl (x.setSysReg_ien_high v)
  case writeIlvl => exact fun m => write (ilvl m) (x.sysReg_ilvl c m) (x.setSysReg_ilvl v m)
  case writeEmiss0 => exact write rfl rfl (x.setSysReg_emiss_low v)
  case writeEmiss1 => exact write rfl rfl (x.setSysReg_emiss_high v)
  case writeBank => exact fun n => ⟨write (epc n) (x.sysReg_epc c n) (x.setSysReg_epc v n),
      write (esw n) (x.sysReg_esw c n) (x.setSysReg_esw v n)⟩
  case rtiBank => exact fun n hn above => x.leave_bank n ▸ exec_iRti_bank h hp (CoreSt.topBank_of_highest hn above)
  case rtiIllegal => exact fun hact => exec_iRti_no_bank h hp (CoreSt.topBank_of_act_zero hact)

end Sys2Proof.Machine
end

section
/-! SUPPORT. The Balrath instruction words (R57-R79): the fields of a word in each format, what `decodeCore` reads from the
words of `encodeCore`, and the words it reads an instruction from. -/

set_option Elab.async false

namespace Sys2Proof.Words

/-! ## The fields of a word -/

theorem nibble_lt (w : W20) (lo : Nat) : nibble w lo < 16 := Nat.mod_lt _ (by decide)

section FormA
variable {op d a b fn : Nat} (ho : op < 16) (hd : d < 16) (ha : a < 16) (hb : b < 16) (hf : fn < 16)
include ho hd ha hb hf

theorem toNat_formA : (formA op d a b fn).toNat = op * 2 ^ 16 + d * 2 ^ 12 + a * 2 ^ 8 + b * 2 ^ 4 + fn := by
  simp only [formA, BitVec.toNat_ofNat]
  omega

theorem nibble_formA_op : nibble (formA op d a b fn) 16 = op := by
  rw [nibble, toNat_formA ho hd ha hb hf]; omega

theorem nibble_formA_fn : nibble (formA op d a b fn) 0 = fn := by
  rw [nibble, toNat_formA ho hd ha hb hf]; omega

theorem nibble_formA_b : nibble (formA op d a b fn) 4 = b := by
  rw [nibble, toNat_formA ho hd ha hb hf]; omega

theorem regField_formA_d : regField (formA op d a b fn) 12 = ⟨d, hd⟩ := by
  simp only [regField, toNat_formA ho hd ha hb hf, Fin.mk.injEq]; omega

theorem regField_formA_a : regField (formA op d a b fn) 8 = ⟨a, ha⟩ := by
  simp only [regField, toNat_formA ho hd ha hb hf, Fin.mk.injEq]; omega

theorem regField_formA_b : regField (formA op d a b fn) 4 = ⟨b, hb⟩ := by
  simp only [regField, toNat_formA ho hd ha hb hf, Fin.mk.injEq]; omega

end FormA

section FormI
variable {op d a imm : Nat} (ho : op < 16) (hd : d < 16) (ha : a * 2 ^ 8 + imm < 2 ^ 12)
include ho hd ha

theorem toNat_formI : (formI op d a imm).toNat = op * 2 ^ 16 + d * 2 ^ 12 + a * 2 ^ 8 + imm := by
  simp only [formI, BitVec.toNat_ofNat]
  omega

theorem nibble_formI_op : nibble (formI op d a imm) 16 = op := by
  rw [nibble, toNat_formI ho hd ha]; omega

theorem regField_formI_d : regField (formI op d a imm) 12 = ⟨d, hd⟩ := by
  simp only [regField, toNat_formI ho hd ha, Fin.mk.injEq]; omega

theorem regField_formI_a (hi : imm < 2 ^ 8) : regField (formI op d a imm) 8 = ⟨a, by omega⟩ := by
  simp only [regField, toNat_formI ho hd ha, Fin.mk.injEq]; omega

theorem nibble_formI_d : nibble (formI op d a imm) 12 = d := by
  rw [nibble, toNat_formI ho hd ha]; omega

theorem nibble_formI_fn (hf : a = 0) : nibble (formI op d a imm) 0 = imm % 16 := by
  rw [nibble, toNat_formI ho hd ha]; omega

end FormI

section Jump
variable {op : Nat} (ho : op < 16) (imm : BitVec 16)
include ho

theorem toNat_formI_jump : (formI op 0 0 imm.toNat).toNat = op * 2 ^ 16 + imm.toNat := by
  simp only [formI, BitVec.toNat_ofNat]
  omega

theorem nibble_formI_jump : nibble (formI op 0 0 imm.toNat) 16 = op := by
  rw [nibble, toNat_formI_jump ho]; omega

theorem setWidth_formI_jump : BitVec.setWidth 16 (formI op 0 0 imm.toNat) = imm := by
  apply BitVec.eq_of_toNat_eq
  rw [BitVec.toNat_setWidth, toNat_formI_jump ho]; omega

end Jump

/-- The low bits of a word in format I read back its immediate. -/
theorem setWidth_formI {n op d a : Nat} (hn : n = 8 ∨ n = 12 ∧ a = 0) (imm : BitVec n) (ho : op < 16) (hd : d < 16)
    (ha : a < 16) : BitVec.setWidth n (formI op d a imm.toNat) = imm := by
  have hi := imm.isLt
  apply BitVec.eq_of_toNat_eq
  obtain rfl | ⟨rfl, rfl⟩ := hn <;>
  · rw [BitVec.toNat_setWidth, toNat_formI ho hd (by omega)]; omega

/-- The immediate of `sys`, `mfs` and `mts` stands above the function nibble. -/
theorem ofNat_formI_div {op d k : Nat} (imm : BitVec 8) (ho : op < 16) (hd : d < 16) (hk : k < 16) :
    BitVec.ofNat 8 ((formI op d 0 (imm.toNat * 16 + k)).toNat / 16) = imm := by
  have hi := imm.isLt
  apply BitVec.eq_of_toNat_eq
  rw [toNat_formI ho hd (by omega), BitVec.toNat_ofNat]; omega

/-! ## From the instruction to its words and back -/

/-- Whatever words encode the command, their fields spell it for core `c`. -/
def ReadsBack (c : CoreId) (i : Instr) : Prop :=
  i.wellFormed = true → ∀ p ∈ encodeCore i, decodeFields c p.1 p.2 = some i

theorem alu_readsBack (c : CoreId) (d a b : RegId) : ∀ i ∈ ([.iAdd c d a b, .iAdc c d a b, .iSub c d a b, .iSbc c d
    a b, .iAnd c d a b, .iOr c d a b, .iXor c d a b, .iAndn c d a b, .iSll c d a b, .iSrl c d a b, .iSra c d a b,
    .iRor c d a b, .iSlt c d a b, .iSltu c d a b, .iJalr c d a] : List Instr), ReadsBack c i := by
  simp only [List.forall_mem_cons, List.not_mem_nil, false_imp_iff, implies_true, and_true]
  and_intros
  all_goals rintro - _ ⟨⟩
  all_goals simp (disch := omega) [decodeFields, nibble_formA_op, decodeAlu, nibble_formA_fn, regField_formA_d,
    regField_formA_a, regField_formA_b]

theorem timed_readsBack (c : CoreId) (d a b : RegId) : ∀ i ∈ ([.iTnow c d, .iWat c a, .iArm c d a b] : List Instr),
    ReadsBack c i := by
  simp only [List.forall_mem_cons, List.not_mem_nil, false_imp_iff, implies_true, and_true]
  and_intros
  all_goals rintro - _ ⟨⟩
  all_goals simp (disch := omega) [decodeFields, nibble_formA_op, decodeTimed, nibble_formA_fn, regField_formA_d,
    regField_formA_a, regField_formA_b]

theorem event_readsBack (c : CoreId) (a b d : RegId) : ∀ i ∈ ([.iPost c a b, .iSense c d a, .iWev c d a b, .iAck c
    a, .iTake c d a b, .iGive c d a] : List Instr), ReadsBack c i := by
  simp only [List.forall_mem_cons, List.not_mem_nil, false_imp_iff, implies_true, and_true]
  and_intros
  all_goals rintro - _ ⟨⟩
  all_goals simp (disch := omega) [decodeFields, nibble_formA_op, decodeEvent, nibble_formA_fn, regField_formA_d,
    regField_formA_a, regField_formA_b]

theorem pair_readsBack (c : CoreId) (d a b : RegId) : ∀ i ∈ ([.iPadd c d a b, .iPsub c d a b, .iPcmp c a b, .iPaddsx
    c d a b, .iPaddzx c d a b, .iPsll c d a b, .iPsrl c d a b, .iPsra c d a b, .iPmov c d a] : List Instr),
    ReadsBack c i := by
  simp only [List.forall_mem_cons, List.not_mem_nil, false_imp_iff, implies_true, and_true]
  and_intros
  all_goals rintro - _ ⟨⟩
  all_goals simp (disch := omega) [decodeFields, nibble_formA_op, decodePair, nibble_formA_fn, regField_formA_d,
    regField_formA_a, regField_formA_b]

theorem mulDiv_readsBack (c : CoreId) (d a b : RegId) : ∀ i ∈ ([.iMul c d a b, .iMuluP c d a b, .iMulsP c d a b,
    .iMacuP c d a b, .iMacsP c d a b, .iDivuP c d a b, .iDivsP c d a b, .iDivu c d a b, .iDivs c d a b, .iRemu c d a
    b, .iRems c d a b] : List Instr), ReadsBack c i := by
  simp only [List.forall_mem_cons, List.not_mem_nil, false_imp_iff, implies_true, and_true]
  and_intros
  all_goals rintro - _ ⟨⟩
  all_goals simp (disch := omega) [decodeFields, nibble_formA_op, decodeMulDiv, nibble_formA_fn, regField_formA_d,
    regField_formA_a, regField_formA_b]

theorem immediate_readsBack (c : CoreId) (d a : RegId) (imm8 disp8 : BitVec 8) (imm12 disp12 : BitVec 12)
    (cond : BitVec 4) (imm16 : BitVec 16) : ∀ i ∈ ([.iAddi c d a imm8, .iLui c d imm12, .iLdw c d a disp8,
      .iStw c d a disp8, .iBranch c cond disp12, .iJ c imm16, .iCall c imm16, .iTrap c imm12] : List Instr),
    ReadsBack c i := by
  simp only [List.forall_mem_cons, List.not_mem_nil, false_imp_iff, implies_true, and_true]
  and_intros
  all_goals rintro - _ ⟨⟩
  all_goals simp (disch := omega) [decodeFields, nibble_formI_op, regField_formI_d, regField_formI_a, nibble_formI_d,
    setWidth_formI, nibble_formI_jump, setWidth_formI_jump]

theorem system_readsBack (c : CoreId) (d a : RegId) (imm8 sr : BitVec 8) : ∀ i ∈ ([.iRti c, .iSys c imm8,
      .iMfs c d sr, .iMts c sr d, .iHalt c, .iXchg c d a, .iFence c] : List Instr), ReadsBack c i := by
  simp only [List.forall_mem_cons, List.not_mem_nil, false_imp_iff, implies_true, and_true]
  and_intros
  all_goals rintro - _ ⟨⟩
  all_goals simp (disch := omega) [decodeFields, nibble_formA_op, decodeSystem, nibble_formA_fn, regField_formA_d,
    regField_formA_a, regField_formA_b, nibble_formI_op, nibble_formI_fn, regField_formI_d, ofNat_formI_div]

theorem shift_readsBack (c : CoreId) (d a : RegId) (n : BitVec 5) : ∀ i ∈ ([.iSlli c d a n, .iSrli c d a n,
      .iSrai c d a n, .iRori c d a n] : List Instr), ReadsBack c i := by
  have hn := n.isLt
  have half : n.toNat / 16 = 0 ∨ n.toNat / 16 = 1 := by omega
  simp only [List.forall_mem_cons, List.not_mem_nil, false_imp_iff, implies_true, and_true]
  and_intros
  all_goals rintro - _ ⟨⟩
  all_goals
    obtain h | h := half
    · simp (disch := omega) [decodeFields, nibble_formA_op, decodeBits, nibble_formA_fn, nibble_formA_b,
        regField_formA_d, regField_formA_a, h]
      bv_omega
    · simp (disch := omega) [decodeFields, nibble_formA_op, decodeBits, nibble_formA_fn, nibble_formA_b,
        regField_formA_d, regField_formA_a, h]
      bv_omega

theorem field_readsBack (c : CoreId) (d a : RegId) (pos width : BitVec 5) : ∀ i ∈ ([.iExtu c d a pos width,
      .iExts c d a pos width, .iIns c d a pos width] : List Instr), ReadsBack c i := by
  simp only [List.forall_mem_cons, List.not_mem_nil, false_imp_iff, implies_true, and_true]
  and_intros
  all_goals rintro - _ ⟨⟩
  all_goals
    simp (disch := omega) [decodeFields, nibble_formA_op, decodeBits, nibble_formA_fn, regField_formA_d,
      regField_formA_a, regField_formA_b]
    and_intros <;> bv_omega

theorem count_readsBack (c : CoreId) (d a : RegId) :
    ∀ i ∈ ([.iClz c d a, .iPopc c d a] : List Instr), ReadsBack c i := by
  simp only [List.forall_mem_cons, List.not_mem_nil, false_imp_iff, implies_true, and_true]
  and_intros
  all_goals rintro - _ ⟨⟩
  all_goals simp (disch := omega) [decodeFields, nibble_formA_op, decodeBits, nibble_formA_fn, regField_formA_d,
    regField_formA_a, regField_formA_b]

theorem longAlu_readsBack (c : CoreId) (fn : BitVec 4) (d a : RegId) (imm20 : W20) :
    ReadsBack c (.iLongAlu c fn d a imm20) := by
  rintro hfn _ ⟨⟩
  replace hfn : fn.toNat < 14 := by simpa [Instr.wellFormed] using hfn
  simp (disch := omega) [decodeFields, nibble_formA_op, decodeLong, nibble_formA_fn, nibble_formA_b,
    regField_formA_d, regField_formA_a]
  omega

theorem long_readsBack (c : CoreId) (d a : RegId) (imm20 : W20) :
    ∀ i ∈ ([.iLi c d imm20, .iLdbu c d a imm20, .iLdbs c d a imm20, .iLdhu c d a imm20,
      .iLdhs c d a imm20, .iLdwl c d a imm20, .iLdp c d a imm20, .iStb c d a imm20, .iSth c d a imm20,
      .iStwl c d a imm20, .iStp c d a imm20] : List Instr), ReadsBack c i := by
  simp only [List.forall_mem_cons, List.not_mem_nil, false_imp_iff, implies_true, and_true]
  and_intros
  all_goals rintro - _ ⟨⟩
  all_goals simp (disch := omega) [decodeFields, nibble_formA_op, decodeLong, nibble_formA_fn, nibble_formA_b,
    regField_formA_d, regField_formA_a]

/-- Every command that has words is read back from them. -/
theorem exists_readsBack (i : Instr) : ∃ c, ReadsBack c i := by
  cases i
  case iAdd c d a b | iAdc c d a b | iSub c d a b | iSbc c d a b | iAnd c d a b | iOr c d a b | iXor c d a b | iAndn
    c d a b | iSll c d a b | iSrl c d a b | iSra c d a b | iRor c d a b | iSlt c d a b | iSltu c d a b => exact ⟨c,
    alu_readsBack c d a b _ (by simp)⟩
  case iJalr c d a => exact ⟨c, alu_readsBack c d a 0 _ (by simp)⟩
  case iAddi c d a imm8 => exact ⟨c, immediate_readsBack c d a imm8 0 0 0 0 0 _ (by simp)⟩
  case iLui c d imm12 => exact ⟨c, immediate_readsBack c d 0 0 0 imm12 0 0 0 _ (by simp)⟩
  case iLdw c d a disp8 | iStw c d a disp8 => exact ⟨c, immediate_readsBack c d a 0 disp8 0 0 0 0 _ (by simp)⟩
  case iBranch c cond disp12 => exact ⟨c, immediate_readsBack c 0 0 0 0 0 disp12 cond 0 _ (by simp)⟩
  case iJ c imm16 | iCall c imm16 => exact ⟨c, immediate_readsBack c 0 0 0 0 0 0 0 imm16 _ (by simp)⟩
  case iTnow c d => exact ⟨c, timed_readsBack c d 0 0 _ (by simp)⟩
  case iWat c a => exact ⟨c, timed_readsBack c 0 a 0 _ (by simp)⟩
  case iArm c d a b => exact ⟨c, timed_readsBack c d a b _ (by simp)⟩
  case iPost c a b => exact ⟨c, event_readsBack c a b 0 _ (by simp)⟩
  case iSense c d a | iGive c d a => exact ⟨c, event_readsBack c a 0 d _ (by simp)⟩
  case iWev c d a b | iTake c d a b => exact ⟨c, event_readsBack c a b d _ (by simp)⟩
  case iAck c a => exact ⟨c, event_readsBack c a 0 0 _ (by simp)⟩
  case iRti c | iHalt c | iFence c => exact ⟨c, system_readsBack c 0 0 0 0 _ (by simp)⟩
  case iSys c imm8 => exact ⟨c, system_readsBack c 0 0 imm8 0 _ (by simp)⟩
  case iMfs c d sr => exact ⟨c, system_readsBack c d 0 0 sr _ (by simp)⟩
  case iMts c sr d => exact ⟨c, system_readsBack c d 0 0 sr _ (by simp)⟩
  case iXchg c d a => exact ⟨c, system_readsBack c d a 0 0 _ (by simp)⟩
  case iPadd c d a b | iPsub c d a b | iPaddsx c d a b | iPaddzx c d a b | iPsll c d a b | iPsrl c d a b | iPsra c d
    a b => exact ⟨c, pair_readsBack c d a b _ (by simp)⟩
  case iPcmp c a b => exact ⟨c, pair_readsBack c 0 a b _ (by simp)⟩
  case iPmov c d a => exact ⟨c, pair_readsBack c d a 0 _ (by simp)⟩
  case iMul c d a b | iMuluP c d a b | iMulsP c d a b | iMacuP c d a b | iMacsP c d a b | iDivuP c d a b | iDivsP c
    d a b | iDivu c d a b | iDivs c d a b | iRemu c d a b | iRems c d a b => exact ⟨c, mulDiv_readsBack c d a b _
    (by simp)⟩
  case iSlli c d a n | iSrli c d a n | iSrai c d a n | iRori c d a n => exact ⟨c, shift_readsBack c d a n _ (by
    simp)⟩
  case iExtu c d a pos width | iExts c d a pos width | iIns c d a pos width => exact ⟨c, field_readsBack c d a pos
    width _ (by simp)⟩
  case iClz c d a | iPopc c d a => exact ⟨c, count_readsBack c d a _ (by simp)⟩
  case iLongAlu c fn d a imm20 => exact ⟨c, longAlu_readsBack c fn d a imm20⟩
  case iLi c d imm20 => exact ⟨c, long_readsBack c d 0 imm20 _ (by simp)⟩
  case iLdbu c d a imm20 | iLdbs c d a imm20 | iLdhu c d a imm20 | iLdhs c d a imm20 | iLdwl c d a imm20 | iLdp c d
    a imm20 | iStb c d a imm20 | iSth c d a imm20 | iStwl c d a imm20 | iStp c d a imm20 => exact ⟨c, long_readsBack
    c d a imm20 _ (by simp)⟩
  case iTrap c imm12 => exact ⟨c, immediate_readsBack c 0 0 0 0 imm12 0 0 0 _ (by simp)⟩
  all_goals exact ⟨0, fun _ _ h => nomatch h⟩

/-! ## From the words to the instruction and back -/

/-- A word in format A is its five fields. -/
theorem formA_eq {w : W20} {op d a b fn : Nat} (hop : nibble w 16 = op) (hd : nibble w 12 = d) (ha : nibble w 8 = a)
    (hb : nibble w 4 = b) (hf : nibble w 0 = fn) : formA op d a b fn = w := by
  subst hop hd ha hb hf
  apply BitVec.eq_of_toNat_eq
  have hw := w.isLt
  simp only [formA, BitVec.toNat_ofNat, nibble]
  omega

/-- A word in format I is its opcode, its register fields and what stands below them. -/
theorem formI_eq {w : W20} {op d a imm : Nat} (hop : nibble w 16 = op) (hd : nibble w 12 = d) 
    (hi : a * 2 ^ 8 + imm = w.toNat % 2 ^ 12) : formI op d a imm = w := by
  subst hop hd
  apply BitVec.eq_of_toNat_eq
  have hw := w.isLt
  simp only [formI, BitVec.toNat_ofNat, nibble]
  omega

theorem formI_jump_eq {w : W20} {op imm : Nat} (hop : nibble w 16 = op) (hi : imm = w.toNat % 2 ^ 16) :
    formI op 0 0 imm = w := by
  subst hop hi
  apply BitVec.eq_of_toNat_eq
  have hw := w.isLt
  simp only [formI, BitVec.toNat_ofNat, nibble]
  omega

@[simp] theorem regField_val (w : W20) (lo : Nat) : (regField w lo).val = nibble w lo := rfl

theorem regField_eq_zero {w : W20} {lo : Nat} : regField w lo = 0 ↔ nibble w lo = 0 :=
  ⟨fun h => congrArg Fin.val h, fun h => Fin.ext h⟩

section
variable {c : CoreId} {w : W20} {i : Instr}

theorem encodeCore_of_decodeAlu (hop : nibble w 16 = 0) (h : decodeAlu c w = some i) :
    encodeCore i = some (w, 0) := by
  unfold decodeAlu at h
  dsimp only at h
  split at h
  all_goals simp only [Option.ite_none_right_eq_some, Option.some.injEq, regField_eq_zero, reduceCtorEq] at h
  all_goals casesm* _ ∧ _, _ = i
  all_goals exact congrArg (fun v => some (v, 0)) (formA_eq hop (by simp [*]) (by simp [*]) (by simp [*]) ‹_›)

theorem encodeCore_of_decodeTimed (hop : nibble w 16 = 8) (h : decodeTimed c w = some i) :
    encodeCore i = some (w, 0) := by
  unfold decodeTimed at h
  dsimp only at h
  split at h
  all_goals simp only [Option.ite_none_right_eq_some, Option.some.injEq, regField_eq_zero, reduceCtorEq] at h
  all_goals casesm* _ ∧ _, _ = i
  all_goals exact congrArg (fun v => some (v, 0)) (formA_eq hop (by simp [*]) (by simp [*]) (by simp [*]) ‹_›)

theorem encodeCore_of_decodeEvent (hop : nibble w 16 = 9) (h : decodeEvent c w = some i) :
    encodeCore i = some (w, 0) := by
  unfold decodeEvent at h
  dsimp only at h
  split at h
  all_goals simp only [Option.ite_none_right_eq_some, Option.some.injEq, regField_eq_zero, reduceCtorEq] at h
  all_goals casesm* _ ∧ _, _ = i
  all_goals exact congrArg (fun v => some (v, 0)) (formA_eq hop (by simp [*]) (by simp [*]) (by simp [*]) ‹_›)

theorem encodeCore_of_decodePair (hop : nibble w 16 = 11) (h : decodePair c w = some i) :
    encodeCore i = some (w, 0) := by
  unfold decodePair at h
  dsimp only at h
  split at h
  all_goals simp only [Option.ite_none_right_eq_some, Option.some.injEq, regField_eq_zero, reduceCtorEq] at h
  all_goals casesm* _ ∧ _, _ = i
  all_goals exact congrArg (fun v => some (v, 0)) (formA_eq hop (by simp [*]) (by simp [*]) (by simp [*]) ‹_›)

theorem encodeCore_of_decodeMulDiv (hop : nibble w 16 = 12) (h : decodeMulDiv c w = some i) :
    encodeCore i = some (w, 0) := by
  unfold decodeMulDiv at h
  dsimp only at h
  split at h
  all_goals simp only [Option.some.injEq, reduceCtorEq] at h
  all_goals casesm* _ = i
  all_goals exact congrArg (fun v => some (v, 0)) (formA_eq hop rfl rfl rfl ‹_›)

/-- The immediate of `sys`, `mfs` and `mts` stands above the function nibble. -/
theorem formI_system_eq {d k : Nat} (hop : nibble w 16 = 10) (hd : nibble w 12 = d) (hf : nibble w 0 = k) :
    formI 0xA d 0 ((BitVec.ofNat 8 (w.toNat / 16)).toNat * 16 + k) = w := by
  refine formI_eq hop hd ?_
  simp only [nibble, BitVec.toNat_ofNat] at *
  omega

theorem encodeCore_of_decodeSystem (hop : nibble w 16 = 10) (h : decodeSystem c w = some i) :
    encodeCore i = some (w, 0) := by
  unfold decodeSystem at h
  dsimp only at h
  split at h
  all_goals simp only [Option.ite_none_right_eq_some, Option.some.injEq, regField_eq_zero, reduceCtorEq] at h
  all_goals casesm* _ ∧ _, _ = i
  case h_2 | h_3 | h_4 => exact congrArg (fun v => some (v, 0)) (formI_system_eq hop (by simp [*]) ‹_›)
  all_goals exact congrArg (fun v => some (v, 0)) (formA_eq hop (by simp [*]) (by simp [*]) (by simp [*]) ‹_›)

/-- A shift's amount lies in the field b and the low bit of the function. -/
theorem formA_shift_eq {k : Nat} (hop : nibble w 16 = 13) (hk : nibble w 0 / 2 = k) :
    formA 0xD (nibble w 12) (nibble w 8) ((BitVec.ofNat 5 (nibble w 0 % 2 * 16 + nibble w 4)).toNat % 16)
      (2 * k + (BitVec.ofNat 5 (nibble w 0 % 2 * 16 + nibble w 4)).toNat / 16) = w := by
  have hb := nibble_lt w 4
  refine formA_eq hop rfl rfl ?_ ?_
  all_goals
    simp only [BitVec.toNat_ofNat]
    omega

/-- The extension word of a bit field below 1,024 is its position and its width. -/
theorem fieldWord_eq {x : W20} (hx : x.toNat < 1024) :
    BitVec.ofNat 20 ((BitVec.ofNat 5 (x.toNat / 32)).toNat * 32 + (BitVec.ofNat 5 x.toNat).toNat) = x := by
  apply BitVec.eq_of_toNat_eq
  simp only [BitVec.toNat_ofNat]
  omega

theorem encodeCore_of_decodeBits {x : W20} (hop : nibble w 16 = 13) (h : decodeBits c w x = some i) :
    ∃ y, encodeCore i = some (w, y) ∧ decodeBits c w y = some i := by
  have whole := h
  unfold decodeBits at h
  dsimp only at h
  split at h
  case h_1 | h_2 | h_3 | h_4 =>
    rename_i hk
    cases h
    exact ⟨0, congrArg (fun v => some (v, 0)) (formA_shift_eq hop hk), by simp only [decodeBits, hk]⟩
  have counts : ∀ {fn d a}, nibble w 4 = 0 → nibble w 0 = fn → nibble w 12 = d → nibble w 8 = a →
      some (formA 0xD d a 0 fn, (0 : W20)) = some (w, 0) :=
    fun hb hfn hd ha => congrArg (fun v => some (v, 0)) (formA_eq hop hd ha hb hfn)
  have fields : ∀ {fn d a}, nibble w 4 = 0 → nibble w 0 = fn → nibble w 12 = d → nibble w 8 = a → x.toNat < 1024 →
      some (formA 0xD d a 0 fn,
        BitVec.ofNat 20 ((BitVec.ofNat 5 (x.toNat / 32)).toNat * 32 + (BitVec.ofNat 5 x.toNat).toNat)) = some (w, x) :=
    fun hb hfn hd ha hx => by rw [fieldWord_eq hx, formA_eq hop hd ha hb hfn]
  split_ifs at h with hb hclz hpopc hx hextu hexts hins
  all_goals
    cases h
    replace hb : nibble w 4 = 0 := regField_eq_zero.1 (not_not.1 hb)
  case pos => exact ⟨0, counts hb hclz rfl rfl, by simp [decodeBits, hclz, regField_eq_zero, hb]⟩
  case pos => exact ⟨0, counts hb hpopc rfl rfl, by simp [decodeBits, hpopc, regField_eq_zero, hb]⟩
  case pos => exact ⟨x, fields hb hextu rfl rfl (not_le.1 hx), whole⟩
  case pos => exact ⟨x, fields hb hexts rfl rfl (not_le.1 hx), whole⟩
  case pos => exact ⟨x, fields hb hins rfl rfl (not_le.1 hx), whole⟩

theorem encodeCore_of_decodeLong {x : W20} (hop : nibble w 16 = 14) (h : decodeLong c w x = some i) :
    encodeCore i = some (w, x) := by
  have known : ∀ {fn b d a}, nibble w 4 = b → nibble w 0 = fn → nibble w 12 = d → nibble w 8 = a →
      some (formA 0xE d a b fn, x) = some (w, x) :=
    fun hb hfn hd ha => congrArg (fun v => some (v, x)) (formA_eq hop hd ha hb hfn)
  unfold decodeLong at h
  dsimp only at h
  split_ifs at h with hb hF hE ha hb'
  · cases h
    exact known hb hE rfl (regField_eq_zero.1 ha)
  · cases h
    have hfn : nibble w 0 = (BitVec.ofNat 4 (nibble w 0)).toNat := by
      rw [BitVec.toNat_ofNat, Nat.mod_eq_of_lt (nibble_lt w 0)]
    exact known hb hfn rfl rfl
  · split at h
    all_goals cases h
    all_goals exact known hb' ‹_› rfl rfl

/-- A word whose fields spell an instruction is that instruction's first word. -/
theorem encodeCore_of_decodeFields {x : W20} (h : decodeFields c w x = some i) :
    ∃ y, encodeCore i = some (w, y) ∧ decodeFields c w y = some i := by
  have wordI : ∀ {op : Nat} {v : W20}, nibble w 16 = op → (nibble w 16 = op → v = w) →
      some (v, (0 : W20)) = some (w, 0) := fun hop hv => congrArg (fun v => some (v, 0)) (hv hop)
  have low8 : nibble w 8 * 2 ^ 8 + (BitVec.ofNat 8 w.toNat).toNat = w.toNat % 2 ^ 12 := by
    simp only [nibble, BitVec.toNat_ofNat]
    omega
  have low12 : 0 * 2 ^ 8 + (BitVec.ofNat 12 w.toNat).toNat = w.toNat % 2 ^ 12 := by
    rw [Nat.zero_mul, Nat.zero_add, BitVec.toNat_ofNat]
  unfold decodeFields at h ⊢
  dsimp only at h ⊢
  split at h
  case h_1 => exact ⟨0, encodeCore_of_decodeAlu ‹_› h, h⟩
  case h_9 => exact ⟨0, encodeCore_of_decodeTimed ‹_› h, h⟩
  case h_10 => exact ⟨0, encodeCore_of_decodeEvent ‹_› h, h⟩
  case h_11 => exact ⟨0, encodeCore_of_decodeSystem ‹_› h, h⟩
  case h_12 => exact ⟨0, encodeCore_of_decodePair ‹_› h, h⟩
  case h_13 => exact ⟨0, encodeCore_of_decodeMulDiv ‹_› h, h⟩
  case h_14 => exact encodeCore_of_decodeBits ‹_› h
  case h_15 => exact ⟨x, encodeCore_of_decodeLong ‹_› h, h⟩
  case h_16 =>
    obtain ⟨hd, h'⟩ := Option.ite_none_right_eq_some.1 h
    cases h'
    have hlt := nibble_lt w 16
    have hop : nibble w 16 = 15 := by
      simp only [imp_false] at *
      omega
    exact ⟨0, wordI hop (formI_eq · (regField_eq_zero.1 hd) low12), h⟩
  case h_2 | h_4 | h_5 =>
    cases h
    exact ⟨0, wordI ‹_› (formI_eq · rfl low8), rfl⟩
  case h_3 =>
    cases h
    exact ⟨0, wordI ‹_› (formI_eq · rfl low12), rfl⟩
  case h_6 =>
    cases h
    have hcond : nibble w 12 = (BitVec.ofNat 4 (nibble w 12)).toNat := by
      rw [BitVec.toNat_ofNat, Nat.mod_eq_of_lt (nibble_lt w 12)]
    exact ⟨0, wordI ‹_› (formI_eq · hcond low12), rfl⟩
  case h_7 | h_8 =>
    cases h
    exact ⟨0, wordI ‹_› (formI_jump_eq · (BitVec.toNat_ofNat ..)), rfl⟩
end

theorem decodeCore_eq_some {c : CoreId} {w x : W20} {i : Instr} :
    decodeCore c w x = some i ↔ decodeFields c w x = some i ∧ i.wellFormed = true := by
  unfold decodeCore
  cases hf : decodeFields c w x with
  | none => simp
  | some j =>
    simp only [Option.ite_none_right_eq_some, Option.some.injEq]
    exact ⟨fun ⟨hj, e⟩ => ⟨e, e ▸ hj⟩, fun ⟨e, hi⟩ => ⟨e ▸ hi, e⟩⟩

/-- Settles O57: the fields of an encoded word spell its instruction, and a word that spells one is that instruction's
own first word. -/
theorem coreWordsReadBack : Obligations.CoreWordsReadBack := by
  refine ⟨?encodes, fun i w x hi h => ?readsBack, fun c w x i h => ?isEncoding⟩
  case encodes =>
    intro c d a b imm8 disp8 sr imm12 disp12 cond fn imm16 n pos width imm20 i hi _
    exact (List.all_eq_true (p := fun i => (encodeCore i).isSome)).1 (by rfl) i hi
  case readsBack =>
    obtain ⟨c, hc⟩ := exists_readsBack i
    exact ⟨c, decodeCore_eq_some.2 ⟨hc hi (w, x) h, hi⟩⟩
  case isEncoding =>
    obtain ⟨hf, hi⟩ := decodeCore_eq_some.1 h
    obtain ⟨y, hy, hd⟩ := encodeCore_of_decodeFields hf
    exact ⟨hi, y, hy, decodeCore_eq_some.2 ⟨hd, hi⟩⟩

end Sys2Proof.Words
end

section
/-! SUPPORT. The word operations of two registers (R61, R63) and the immediates and long ALU forms (R65, R66, R76) in the
arithmetic of bit vectors, and the statements about them. -/

set_option Elab.async false

namespace Sys2Proof.Machine

/-! ## What an ALU operation comes to -/

/-- An ALU operation of a core that runs, by the row of R63 it selects. -/
theorem State.alu_runs {s : State} {c : CoreId} {fn n r : Nat} {d a : RegId} {b : CoreSt → W20} {sw : W20}
    (h : s.runs c = true)
    (hfn : aluFn fn (s.core c).sw ((s.core c).get a).toNat (b (s.core c)).toNat = some (r, sw)) :
    s.alu c fn n d a b = .next (s.setCore c (CoreSt.advance { (s.core c).set d (BitVec.ofNat 20 r) with sw := sw } n)) := by
  rw [State.alu, State.instr_runs _ _ _ h]
  simp only [hfn]

theorem State.alu_runs_word {s : State} {c : CoreId} {fn n : Nat} {d a : RegId} {b : CoreSt → W20} {r sw : W20}
    (h : s.runs c = true)
    (hfn : aluFn fn (s.core c).sw ((s.core c).get a).toNat (b (s.core c)).toNat = some (r.toNat, sw)) :
    s.alu c fn n d a b = .next (s.setCore c (CoreSt.advance { (s.core c).set d r with sw := sw } n)) := by
  rw [State.alu_runs h hfn, BitVec.ofNat_toNat, BitVec.setWidth_eq]

/-! ## Sums, differences and logic over a word -/

/-- The carry into an addition, as a word. -/
def carryIn (sw : W20) : W20 := if swC sw then 1 else 0

theorem bit_swC (sw : W20) : bit (swC sw) = (carryIn sw).toNat := by
  cases h : swC sw <;> simp [bit, carryIn, h]

theorem carryIn_le_one (sw : W20) : (carryIn sw).toNat ≤ 1 := by
  rw [← bit_swC]; cases swC sw <;> decide

/-- The signed range of a word, left by `n`. -/
def outOfWord (n : Int) : Bool := decide (n < -(2 ^ 19) ∨ 2 ^ 19 ≤ n)

theorem addFlags_word (u v k : W20) (hk : k.toNat ≤ 1) :
    addFlags 20 u.toNat v.toNat k.toNat =
      ((u + v + k).toNat, decide (2 ^ 20 ≤ u.toNat + v.toNat + k.toNat), outOfWord (u.toInt + v.toInt + k.toNat)) := by
  have hr := addFlags_fst 20 u v k.toNat
  have hv := addFlags_overflow u v k.toNat hk
  rw [BitVec.ofNat_toNat, BitVec.setWidth_eq] at hr
  exact Prod.ext hr (Prod.ext rfl hv)

theorem ssubOverflow_eq_outOfWord (u v : W20) : BitVec.ssubOverflow u v = outOfWord (u.toInt - v.toInt) := by
  simp only [BitVec.ssubOverflow, outOfWord]
  rw [Bool.eq_iff_iff]
  simp only [ge_iff_le, Bool.or_eq_true, decide_eq_true_eq]
  exact Or.comm

theorem saddOverflow_eq_outOfWord (u v : W20) : BitVec.saddOverflow u v = outOfWord (u.toInt + v.toInt) := by
  simp only [BitVec.saddOverflow, outOfWord]
  rw [Bool.eq_iff_iff]
  simp only [ge_iff_le, Bool.or_eq_true, decide_eq_true_eq]
  exact Or.comm

/-- Equal words are those of difference 0. -/
theorem sub_beq_zero (u v : W20) : (u - v == 0#20) = (u == v) := by
  rw [Bool.eq_iff_iff, beq_iff_eq, beq_iff_eq]
  exact sub_eq_zero

theorem swArith_sub_word (sw u v : W20) :
    swArith 20 sw (subFlags 20 u.toNat v.toNat) =
      swFlags sw (u - v).msb (u - v == 0) (decide (v.toNat ≤ u.toNat)) (outOfWord (u.toInt - v.toInt)) := by
  rw [subFlags_toNat (by decide) rfl rfl, swArith_toNat (by decide), ssubOverflow_eq_outOfWord]
  rfl

theorem bit_toNat (b : Bool) : bit b = (if b then 1 else 0 : W20).toNat := by cases b <;> rfl

section Rows

variable (sw u v : W20)

/-! ## The rows of R63 -/

theorem aluFn_add : aluFn 0x0 sw u.toNat v.toNat = some ((u + v).toNat,
    swFlags sw (u + v).msb (u + v == 0) (decide (2 ^ 20 ≤ u.toNat + v.toNat)) (outOfWord (u.toInt + v.toInt))) := by
  simp only [aluFn, addFlags_toNat (w := 20) (by decide) (Eq.refl u.toNat) (Eq.refl v.toNat), swArith_toNat (w := 20) (by decide),
    saddOverflow_eq_outOfWord]
  rfl

theorem aluFn_adc : aluFn 0x1 sw u.toNat v.toNat = some ((u + v + carryIn sw).toNat,
    swFlags sw (u + v + carryIn sw).msb (u + v + carryIn sw == 0) (decide (2 ^ 20 ≤ u.toNat + v.toNat + (carryIn sw).toNat))
      (outOfWord (u.toInt + v.toInt + (carryIn sw).toNat))) := by
  simp only [aluFn, bit_swC, addFlags_word u v _ (carryIn_le_one sw), swArith_toNat (w := 20) (by decide)]
  rfl

theorem aluFn_sub : aluFn 0x2 sw u.toNat v.toNat = some ((u - v).toNat,
    swFlags sw (u - v).msb (u - v == 0) (decide (v.toNat ≤ u.toNat)) (outOfWord (u.toInt - v.toInt))) := by
  rw [← swArith_sub_word, subFlags_toNat (w := 20) (by decide) (Eq.refl u.toNat) (Eq.refl v.toNat)]
  simp only [aluFn, subFlags_toNat (w := 20) (by decide) (Eq.refl u.toNat) (Eq.refl v.toNat)]

theorem aluFn_sbc : aluFn 0x3 sw u.toNat v.toNat = some ((u + ~~~v + carryIn sw).toNat,
    swFlags sw (u + ~~~v + carryIn sw).msb (u + ~~~v + carryIn sw == 0)
      (decide (2 ^ 20 ≤ u.toNat + (~~~v).toNat + (carryIn sw).toNat))
      (outOfWord (u.toInt - v.toInt - 1 + (carryIn sw).toNat))) := by
  have hint : u.toInt + (~~~v).toInt = u.toInt - v.toInt - 1 := by rw [not_toInt_word]; omega
  simp only [aluFn, bit_swC, not_toNat_word, addFlags_word u _ _ (carryIn_le_one sw), swArith_toNat (w := 20) (by decide),
    hint]
  rfl

/-- A logic row, whose result is the word `r`. -/
theorem logic_word (r : W20) : some (r.toNat, swLogic sw r.toNat) = some (r.toNat, swFlags sw r.msb (r == 0) (swC sw) false) := by
  rw [swLogic_word]; rfl

theorem aluFn_and : aluFn 0x4 sw u.toNat v.toNat =
    some ((u &&& v).toNat, swFlags sw (u &&& v).msb (u &&& v == 0) (swC sw) false) := by
  rw [← logic_word, BitVec.toNat_and]; rfl

theorem aluFn_or : aluFn 0x5 sw u.toNat v.toNat =
    some ((u ||| v).toNat, swFlags sw (u ||| v).msb (u ||| v == 0) (swC sw) false) := by
  rw [← logic_word, BitVec.toNat_or]; rfl

theorem aluFn_xor : aluFn 0x6 sw u.toNat v.toNat =
    some ((u ^^^ v).toNat, swFlags sw (u ^^^ v).msb (u ^^^ v == 0) (swC sw) false) := by
  rw [← logic_word, BitVec.toNat_xor]; rfl

theorem aluFn_andn : aluFn 0x7 sw u.toNat v.toNat =
    some ((u &&& ~~~v).toNat, swFlags sw (u &&& ~~~v).msb (u &&& ~~~v == 0) (swC sw) false) := by
  rw [← logic_word, BitVec.toNat_and, ← not_toNat_word]; rfl

theorem aluFn_slt : aluFn 0xC sw u.toNat v.toNat =
    some ((if decide (u.toInt < v.toInt) then 1 else 0 : W20).toNat,
      swFlags sw (u - v).msb (u == v) (decide (v.toNat ≤ u.toNat)) (outOfWord (u.toInt - v.toInt))) := by
  rw [← bit_toNat, ← sub_beq_zero]
  simp only [aluFn, swArith_sub_word, signed_toNat]
  rfl

theorem aluFn_sltu : aluFn 0xD sw u.toNat v.toNat =
    some ((if decide (u.toNat < v.toNat) then 1 else 0 : W20).toNat,
      swFlags sw (u - v).msb (u == v) (decide (v.toNat ≤ u.toNat)) (outOfWord (u.toInt - v.toInt))) := by
  rw [← bit_toNat, ← sub_beq_zero]
  simp only [aluFn, swArith_sub_word]
  rfl

end Rows

theorem aluFn_isSome {fn : Nat} (h : fn < 14) (sw : W20) (a b : Nat) : ∃ r sw', aluFn fn sw a b = some (r, sw') := by
  interval_cases fn <;> exact ⟨_, _, rfl⟩

/-- A word of group 0 below `jalr` reads as the ALU operation of its fn. -/
theorem exec_of_decodeAlu {c : CoreId} {d a b : RegId} {fn : Nat} {i : Instr} (hfn : fn < 14)
    (h : decodeAlu c (formA 0 d.val a.val b.val fn) = some i) (s : State) : exec i s = s.alu c fn 1 d a (·.get b) := by
  have h0 : (0 : Nat) < 16 := by decide
  have hf : fn < 16 := by omega
  simp only [decodeAlu, Words.nibble_formA_fn h0 d.isLt a.isLt b.isLt hf, Words.regField_formA_d h0 d.isLt a.isLt b.isLt hf,
    Words.regField_formA_a h0 d.isLt a.isLt b.isLt hf, Words.regField_formA_b h0 d.isLt a.isLt b.isLt hf] at h
  interval_cases fn <;> obtain rfl := Option.some.inj h <;> rfl

/-! ## The statements -/

/-- Settles O1: each operation is its row of R63, which in bit vectors is the statement's. -/
theorem arithmeticAndLogicResults : Obligations.ArithmeticAndLogicResults := by
  unfold Obligations.ArithmeticAndLogicResults
  intro c d a b s h x u v k done ovf logic compare
  refine ⟨rfl, fun _ => rfl, ?add, ?adc, ?sub, ?sbc, ?and, ?or, ?xor, ?andn, ?slt, ?sltu⟩
  case add => exact State.alu_runs_word (b := (·.get b)) h (aluFn_add x.sw u v)
  case adc => exact State.alu_runs_word (b := (·.get b)) h (aluFn_adc x.sw u v)
  case sub => exact State.alu_runs_word (b := (·.get b)) h (aluFn_sub x.sw u v)
  case sbc => exact State.alu_runs_word (b := (·.get b)) h (aluFn_sbc x.sw u v)
  case and => exact State.alu_runs_word (b := (·.get b)) h (aluFn_and x.sw u v)
  case or => exact State.alu_runs_word (b := (·.get b)) h (aluFn_or x.sw u v)
  case xor => exact State.alu_runs_word (b := (·.get b)) h (aluFn_xor x.sw u v)
  case andn => exact State.alu_runs_word (b := (·.get b)) h (aluFn_andn x.sw u v)
  case slt => exact State.alu_runs_word (b := (·.get b)) h (aluFn_slt x.sw u v)
  case sltu => exact State.alu_runs_word (b := (·.get b)) h (aluFn_sltu x.sw u v)

theorem shiftLeft_eight_eq_ofNat (imm12 : BitVec 12) : BitVec.ofNat 20 (imm12.toNat * 256) = imm12.setWidth 20 <<< 8 := by
  apply BitVec.eq_of_toNat_eq
  have := imm12.isLt
  simp [Nat.shiftLeft_eq]

/-- Settles O3: `addi` is the row of `add`, and a long form the row of its fn, at the immediate. -/
theorem immediateResults : Obligations.ImmediateResults := by
  unfold Obligations.ImmediateResults
  intro c d a b imm8 imm12 imm20 s h x u v r
  refine ⟨?addi, ?lui, ?li, fun fn hfn => ?long⟩
  case addi => exact State.alu_runs_word (b := fun _ => v) h (aluFn_add x.sw u v)
  case lui =>
    show execILui c d imm12 s = _
    rw [execILui, State.plain_runs _ _ _ _ _ h rfl, shiftLeft_eight_eq_ofNat]
  case li =>
    show execILi c d imm20 s = _
    rw [execILi, State.plain_runs _ _ _ _ _ h rfl]
  case long =>
    obtain ⟨r', sw, halu⟩ := aluFn_isSome hfn x.sw u.toNat imm20.toNat
    refine ⟨r', sw, halu, State.alu_runs (b := fun _ => imm20) h halu, fun hb i hi => ?_⟩
    rw [exec_of_decodeAlu hfn hi]
    exact State.alu_runs (b := (·.get b)) h (hb ▸ halu)

end Sys2Proof.Machine
end

section
/-! SUPPORT. Products, quotients and remainders (R72, R73) and the bit fields and counts (R74, R75) in the arithmetic of bit
vectors, and the statements about them. -/

set_option Elab.async false

namespace Sys2Proof.Machine

/-! ## Products (R72) -/

theorem swMul_word {w : Nat} (hw : 0 < w) (sw : W20) (r : BitVec w) :
    swMul w sw r.toNat = swFlags sw r.msb (r == 0#w) false false := by
  rw [swMul, topBit_toNat w hw, decide_toNat_zero]

theorem execIMul_runs {s : State} {c : CoreId} (d : RegId) {a b : RegId} {u v : W20} (h : s.runs c = true)
    (hu : (s.core c).get a = u) (hv : (s.core c).get b = v) :
    execIMul c d a b s = .next (s.setCore c (CoreSt.advance
      { (s.core c).set d (u * v) with sw := swFlags (s.core c).sw (u * v).msb (u * v == 0#20) false false } 1)) := by
  have hr : u.toNat * v.toNat % 2 ^ 20 = (u * v).toNat := (BitVec.toNat_mul u v).symm
  rw [execIMul, State.plain_runs _ _ _ _ _ h rfl]
  simp only [hu, hv, hr, swMul_word (w := 20) (by decide), BitVec.ofNat_toNat, BitVec.setWidth_eq]

/-- The product of two words over 40 bits. -/
def product40 (sgn : Bool) (u v : W20) : W40 :=
  if sgn then u.signExtend 40 * v.signExtend 40 else u.setWidth 40 * v.setWidth 40

theorem product_mod (sgn : Bool) (u v : W20) : product sgn u v % 2 ^ 40 = (product40 sgn u v).toNat := by
  cases sgn
  case false =>
    simp only [product, product40, Bool.false_eq_true, if_false]
    rw [BitVec.toNat_mul, BitVec.toNat_setWidth_of_le (by decide), BitVec.toNat_setWidth_of_le (by decide)]
  case true =>
    have hofInt : u.signExtend 40 * v.signExtend 40 = BitVec.ofInt 40 (u.toInt * v.toInt) := (BitVec.ofInt_mul _ _).symm
    simp only [product, product40, if_true, hofInt, BitVec.toNat_ofInt, unsigned]
    norm_cast
    exact Nat.mod_eq_of_lt (by omega)

/-- A product written to a pair, alone or added to what it held. -/
theorem State.pairMul_runs {s : State} {c : CoreId} {sgn acc : Bool} {d a b : RegId} {r : W40} (h : s.runs c = true)
    (hd : d.val % 2 = 0)
    (hr : (if acc then BitVec.ofNat 40 ((s.core c).pair d) else 0) + product40 sgn ((s.core c).get a) ((s.core c).get b) = r) :
    s.pairMul c sgn acc d a b = .next (s.setCore c (CoreSt.advance
      { (s.core c).setPair d r.toNat with sw := swFlags (s.core c).sw r.msb (r == 0#40) false false } 1)) := by
  have hsum : ((if acc then (s.core c).pair d else 0) + product sgn ((s.core c).get a) ((s.core c).get b)) % 2 ^ 40 =
      r.toNat := by
    rw [← hr, BitVec.toNat_add, ← product_mod, Nat.add_mod_mod]
    cases acc
    · rfl
    · rw [if_pos rfl, if_pos rfl, CoreSt.toNat_ofNat_pair]
  rw [State.pairMul, State.plain_runs _ _ _ _ _ h (by simp [isPair, hd])]
  simp only [hsum, CoreSt.pairResult, swMul_word (w := 40) (by decide)]

/-! ## Quotients and remainders (R73) -/

/-- Quotient, remainder and V of an unsigned divide. -/
def quotU (n : Nat) (m : W20) : W20 × W20 × Bool :=
  if m = 0 then (0xFFFFF, BitVec.ofNat 20 n, true)
  else if 2 ^ 20 ≤ n / m.toNat then (0xFFFFF, 0, true)
  else (BitVec.ofNat 20 (n / m.toNat), BitVec.ofNat 20 (n % m.toNat), false)

/-- Quotient, remainder and V of a signed divide. -/
def quotS (n : Int) (m : W20) : W20 × W20 × Bool :=
  if m = 0 then (if 0 ≤ n then 0x7FFFF else 0x80000, BitVec.ofInt 20 n, true)
  else if 2 ^ 19 ≤ n.tdiv m.toInt then (0x7FFFF, 0, true)
  else if n.tdiv m.toInt < -(2 ^ 19) then (0x80000, 0, true)
  else (BitVec.ofInt 20 (n.tdiv m.toInt), BitVec.ofInt 20 (n.tmod m.toInt), false)

/-- The model's quotient, remainder and V are the words of `p`. -/
def DividesTo (q : Nat × Nat × Bool) (p : W20 × W20 × Bool) : Prop := q = (p.1.toNat, p.2.1.toNat, p.2.2)

theorem divU_dividesTo (n : Nat) (m : W20) : DividesTo (divU n m.toNat) (quotU n m) := by
  have hm : m.toNat = 0 ↔ m = 0 := by rw [← BitVec.toNat_inj]; rfl
  unfold DividesTo divU quotU
  by_cases h0 : m = 0
  · simp [h0]
  · have hpos : 0 < m.toNat := Nat.pos_of_ne_zero (mt hm.1 h0)
    have hrem : n % m.toNat < 2 ^ 20 := (Nat.mod_lt n hpos).trans m.isLt
    rw [if_neg (mt hm.1 h0), if_neg h0]
    by_cases hbig : 2 ^ 20 ≤ n / m.toNat
    · rw [if_pos hbig, if_pos hbig]; rfl
    · rw [if_neg hbig, if_neg hbig]
      simp only [BitVec.toNat_ofNat, Nat.mod_eq_of_lt hrem, Nat.mod_eq_of_lt (Nat.lt_of_not_le hbig)]

theorem unsigned_eq_toNat (w : Nat) (n : Int) : unsigned w n = (BitVec.ofInt w n).toNat := by
  rw [BitVec.toNat_ofInt, unsigned]; norm_cast

theorem divS_dividesTo (n : Int) (m : W20) : DividesTo (divS n m.toInt) (quotS n m) := by
  have hm : m.toInt = 0 ↔ m = 0 := by rw [← BitVec.toInt_inj]; rfl
  unfold DividesTo divS quotS
  by_cases h0 : m = 0
  · rw [if_pos (hm.2 h0), if_pos h0, unsigned_eq_toNat]
    by_cases hn : 0 ≤ n
    · simp [hn]
    · simp [hn]
  · rw [if_neg (mt hm.1 h0), if_neg h0]
    simp only [unsigned_eq_toNat, Int.sub_lt_iff, Int.lt_add_one_iff]
    split
    · rfl
    · split <;> rfl

section Divide

variable {s : State} {c : CoreId} {d : RegId} {f : CoreSt → Nat × Nat × Bool} {p : W20 × W20 × Bool}

theorem swDiv_word (sw r : W20) (v : Bool) : swDiv sw r.toNat v = swFlags sw r.msb (r == 0#20) false v := by
  rw [swDiv, topBit_toNat 20 (by decide), decide_toNat_zero]

/-- A word divide, by what the quotient comes to. -/
theorem State.wordDiv_runs (rem : Bool) (h : s.runs c = true) (hp : DividesTo (f (s.core c)) p) :
    s.wordDiv c d rem f = .next (s.setCore c (CoreSt.advance
      { (s.core c).set d (if rem then p.2.1 else p.1) with
        sw := swFlags (s.core c).sw (if rem then p.2.1 else p.1).msb ((if rem then p.2.1 else p.1) == 0#20) false p.2.2 } 1)) := by
  rw [State.wordDiv, State.plain_runs _ _ _ _ _ h rfl, hp]
  cases rem <;> simp [swDiv_word]

/-- A divide of a pair, by what the quotient comes to. -/
theorem State.pairDiv_runs {a : RegId} (h : s.runs c = true) (hd : d.val % 2 = 0) (ha : a.val % 2 = 0)
    (hp : DividesTo (f (s.core c)) p) :
    s.pairDiv c d a f = .next (s.setCore c (CoreSt.advance
      { ((s.core c).set (oddOf d) p.1).set d p.2.1 with
        sw := swFlags (s.core c).sw p.1.msb (p.1 == 0#20) false p.2.2 } 1)) := by
  rw [State.pairDiv, State.plain_runs _ _ _ _ _ h (by simp [isPair, hd, ha]), hp]
  simp [swDiv_word]

end Divide

/-- Settles O6: products are those of bit vectors, and `divU` and `divS` are the tables of R73. -/
theorem multiplyAndDivideResults : Obligations.MultiplyAndDivideResults := by
  unfold Obligations.MultiplyAndDivideResults
  refine ⟨fun c d a b s h => ⟨?mul, fun hd => ⟨?mulu, ?muls, ?macu, ?macs⟩⟩, fun c d a b s h => ⟨?divu, ?remu, ?divs, ?rems,
    fun hd ha => ⟨?divuP, ?divsP⟩⟩⟩
  case mul => exact execIMul_runs d h rfl rfl
  case mulu => exact State.pairMul_runs (sgn := false) (acc := false) h hd (BitVec.zero_add _)
  case muls => exact State.pairMul_runs (sgn := true) (acc := false) h hd (BitVec.zero_add _)
  case macu => exact State.pairMul_runs (sgn := false) (acc := true) h hd rfl
  case macs => exact State.pairMul_runs (sgn := true) (acc := true) h hd rfl
  case divu =>
    exact State.wordDiv_runs (f := fun x => divU (x.get a).toNat (x.get b).toNat) false h
      (divU_dividesTo ((s.core c).get a).toNat ((s.core c).get b))
  case remu =>
    exact State.wordDiv_runs (f := fun x => divU (x.get a).toNat (x.get b).toNat) true h
      (divU_dividesTo ((s.core c).get a).toNat ((s.core c).get b))
  case divs =>
    exact State.wordDiv_runs (f := fun x => divS (x.get a).toInt (x.get b).toInt) false h
      (divS_dividesTo ((s.core c).get a).toInt ((s.core c).get b))
  case rems =>
    exact State.wordDiv_runs (f := fun x => divS (x.get a).toInt (x.get b).toInt) true h
      (divS_dividesTo ((s.core c).get a).toInt ((s.core c).get b))
  case divuP =>
    exact State.pairDiv_runs (f := fun x => divU (x.pair a) (x.get b).toNat) h hd ha
      (divU_dividesTo ((s.core c).pair a) ((s.core c).get b))
  case divsP =>
    have hs : signed 40 ((s.core c).pair a) = (BitVec.ofNat 40 ((s.core c).pair a)).toInt := by
      rw [← signed_toNat, CoreSt.toNat_ofNat_pair]
    exact State.pairDiv_runs (f := fun x => divS (signed 40 (x.pair a)) (x.get b).toInt) h hd ha
      (hs ▸ divS_dividesTo _ ((s.core c).get b))

/-! ## Counts (R74) -/

/-- An operation under the count rule whose result is the word `r`. -/
theorem State.count_runs {s : State} {c : CoreId} {n : Nat} {ok : Bool} {d : RegId} {f : CoreSt → Nat} {r : W20}
    (h : s.runs c = true) (hok : ok = true) (hf : f (s.core c) = r.toNat) :
    s.count c n ok d f = .next (s.setCore c (CoreSt.advance
      { (s.core c).set d r with
        sw := swFlags (s.core c).sw r.msb (r == 0#20) (swC (s.core c).sw) (swV (s.core c).sw) } n)) := by
  rw [State.count, State.plain_runs _ _ _ _ _ h hok]
  simp only [hf, swCount, topBit_toNat 20 (by decide), decide_toNat_zero, BitVec.ofNat_toNat, BitVec.setWidth_eq]

theorem leadZeros_eq_clz (u : W20) : leadZeros u.toNat = u.clz.toNat := by
  by_cases h0 : u = 0#20
  · subst h0; decide
  · have hlt : u.clz.toNat < 20 := by
      have h := BitVec.clz_lt_iff_ne_zero.2 h0
      rwa [BitVec.lt_def] at h
    have htop := BitVec.getLsbD_true_clz_of_ne_zero (by decide) h0
    have hbelow := BitVec.toNat_lt_two_pow_sub_clz (x := u)
    have hfind : (List.range 20).find? (fun i => decide (u.toNat / 2 ^ (19 - i) % 2 = 1)) = some u.clz.toNat := by
      rw [List.find?_range_eq_some]
      refine ⟨?_, List.mem_range.2 hlt, fun j hj => ?_⟩
      · rwa [decide_div_pow_odd]
      · have hle : 2 ^ (20 - u.clz.toNat) ≤ 2 ^ (19 - j) := Nat.pow_le_pow_right (by decide) (by omega)
        simp [Nat.div_eq_of_lt (hbelow.trans_le hle)]
    rw [leadZeros, hfind, Option.getD_some]

theorem popCount_eq_length (u : W20) :
    popCount u.toNat = ((List.range 20).filter (fun i => u.getLsbD i)).length := by
  rw [popCount]
  induction List.range 20 with
  | nil => rfl
  | cons i l ih =>
    have hbit := decide_div_pow_odd u i
    rw [List.map_cons, List.sum_cons, ih, List.filter_cons]
    cases hi : u.getLsbD i
    · rw [hi, decide_eq_false_iff_not] at hbit
      simp only [Bool.false_eq_true, if_false]; omega
    · rw [hi, decide_eq_true_eq] at hbit
      simp only [if_true, List.length_cons, hbit]; omega

theorem popCount_word (u : W20) :
    popCount u.toNat = (BitVec.ofNat 20 ((List.range 20).filter (fun i => u.getLsbD i)).length).toNat := by
  have hle : ((List.range 20).filter (fun i => u.getLsbD i)).length ≤ 20 :=
    (List.length_filter_le _ _).trans_eq List.length_range
  rw [popCount_eq_length, BitVec.toNat_ofNat, Nat.mod_eq_of_lt (by omega)]

/-! ## Bit fields (R75) -/

/-- The field of `w` bits at `p`, and its mask in place. -/
def fieldOf (u : W20) (p w : Nat) : W20 := (u >>> p) &&& (BitVec.allOnes 20 >>> (20 - w))
def fieldMask (p w : Nat) : W20 := (BitVec.allOnes 20 >>> (20 - w)) <<< p

theorem getLsbD_lowMask {w : Nat} (hw : w ≤ 20) (i : Nat) : (BitVec.allOnes 20 >>> (20 - w)).getLsbD i = decide (i < w) := by
  rw [BitVec.getLsbD_ushiftRight, BitVec.getLsbD_allOnes]
  rw [decide_eq_decide]; omega

theorem getLsbD_fieldMask {p w : Nat} (hw : p + w ≤ 20) (i : Nat) :
    (fieldMask p w).getLsbD i = (decide (p ≤ i) && decide (i < p + w)) := by
  rw [fieldMask, BitVec.getLsbD_shiftLeft, getLsbD_lowMask (by omega)]
  rw [Bool.eq_iff_iff]
  simp only [Bool.and_eq_true, Bool.not_eq_true', decide_eq_true_eq, decide_eq_false_iff_not]
  omega

theorem extract_eq_fieldOf (u : W20) {p w : Nat} (hw : w ≤ 20) : extract u.toNat p w = (fieldOf u p w).toNat := by
  apply Nat.eq_of_testBit_eq
  intro i
  rw [extract, Nat.testBit_mod_two_pow, Nat.testBit_div_two_pow, BitVec.testBit_toNat, BitVec.testBit_toNat, fieldOf,
    BitVec.getLsbD_and, getLsbD_lowMask hw, BitVec.getLsbD_ushiftRight, Nat.add_comm, Bool.and_comm]

theorem extract_lt (a p w : Nat) : extract a p w < 2 ^ w := Nat.mod_lt _ (by positivity)

/-- A field moved to the top of a longer word has its sign there. -/
theorem signed_mul_pow {w e : Nat} (hw : 0 < w) (k : Nat) (he : e < 2 ^ w) :
    signed (w + k) (e * 2 ^ k) = signed w e * 2 ^ k := by
  have hpos : 0 < 2 ^ k := by positivity
  have hpow : 2 ^ (w + k - 1) = 2 ^ (w - 1) * 2 ^ k := by rw [← pow_add]; congr 1; omega
  have hlt : e * 2 ^ k < 2 ^ (w + k) := by rw [pow_add]; exact Nat.mul_lt_mul_of_pos_right he hpos
  simp only [signed, Nat.mod_eq_of_lt he, Nat.mod_eq_of_lt hlt, hpow, Nat.mul_le_mul_right_iff hpos]
  split <;> push_cast <;> ring

theorem extend_field (u : W20) {p w : Nat} (hw0 : 0 < w) (hw : w ≤ 20) :
    unsigned 20 (signed w (extract u.toNat p w)) = ((fieldOf u p w <<< (20 - w)).sshiftRight (20 - w)).toNat := by
  have he := extract_lt u.toNat p w
  have hsplit : 2 ^ 20 = 2 ^ w * 2 ^ (20 - w) := by rw [← pow_add]; congr 1; omega
  have hshift : (fieldOf u p w <<< (20 - w)).toNat = extract u.toNat p w * 2 ^ (20 - w) := by
    rw [BitVec.toNat_shiftLeft, ← extract_eq_fieldOf u hw, Nat.shiftLeft_eq, Nat.mod_eq_of_lt]
    rw [hsplit]; exact Nat.mul_lt_mul_of_pos_right he (by positivity)
  have hsigned := signed_mul_pow hw0 (20 - w) he
  rw [show w + (20 - w) = 20 by omega] at hsigned
  rw [← unsigned_signed_div, hshift, hsigned, Int.mul_ediv_cancel _ (by positivity)]

theorem testBit_insert (d a : Nat) (p w i : Nat) :
    (insert d a p w).testBit i = if p ≤ i ∧ i < p + w then a.testBit (i - p) else d.testBit i := by
  have hform : insert d a p w = 2 ^ p * (2 ^ w * (d / 2 ^ (p + w)) + a % 2 ^ w) + d % 2 ^ p := by
    rw [insert, pow_add]; ring
  rw [hform, Nat.testBit_two_pow_mul_add _ (Nat.mod_lt _ (by positivity)),
    Nat.testBit_two_pow_mul_add _ (Nat.mod_lt _ (by positivity))]
  simp only [Nat.testBit_mod_two_pow, Nat.testBit_div_two_pow]
  by_cases hlow : i < p
  · simp [hlow, show ¬ p ≤ i by omega]
  · by_cases hmid : i < p + w
    · simp [hlow, hmid, show i - p < w by omega, show p ≤ i by omega]
    · simp [hlow, hmid, show ¬ i - p < w by omega, show i - p - w + (p + w) = i by omega]

theorem insert_word (x u : W20) {p w : Nat} (hw : p + w ≤ 20) :
    insert x.toNat u.toNat p w = ((x &&& ~~~fieldMask p w) ||| ((u <<< p) &&& fieldMask p w)).toNat := by
  apply Nat.eq_of_testBit_eq
  intro i
  rw [testBit_insert, BitVec.testBit_toNat, BitVec.testBit_toNat, BitVec.testBit_toNat, BitVec.getLsbD_or,
    BitVec.getLsbD_and, BitVec.getLsbD_and, BitVec.getLsbD_not, BitVec.getLsbD_shiftLeft, getLsbD_fieldMask hw]
  by_cases hin : p ≤ i ∧ i < p + w
  · obtain ⟨hp, hi⟩ := hin
    simp [hp, hi, show i < 20 by omega, show ¬ i < p by omega]
  · rw [if_neg hin]
    have hmask : (decide (p ≤ i) && decide (i < p + w)) = false := by simpa using hin
    by_cases h20 : i < 20
    · simp [hmask, h20]
    · simp [hmask, h20, BitVec.getLsbD_of_ge x i (by omega)]

theorem fieldOk_of_le {p w : Nat} (h1 : 1 ≤ w) (h20 : w ≤ 20) (hsum : p + w ≤ 20) : fieldOk p w = true := by
  simp only [fieldOk, Bool.and_eq_true, decide_eq_true_eq]; omega

/-- Settles O7: `extract` and `insert` are masks and shifts of bit vectors, bit by bit. -/
theorem bitFieldResults : Obligations.BitFieldResults := by
  unfold Obligations.BitFieldResults
  intro c d a pos width s h x u p w field mask done
  refine ⟨fun h1 h20 hsum => ⟨?extu, ?exts, ?ins⟩, ?clz, ?popc⟩
  case extu =>
    exact State.count_runs (f := fun x => extract (x.get a).toNat p w) h (fieldOk_of_le h1 h20 hsum)
      (extract_eq_fieldOf u h20)
  case exts =>
    exact State.count_runs (f := fun x => unsigned 20 (signed w (extract (x.get a).toNat p w))) h (fieldOk_of_le h1 h20 hsum)
      (extend_field u h1 h20)
  case ins =>
    exact State.count_runs (f := fun x => insert (x.get d).toNat (x.get a).toNat p w) h (fieldOk_of_le h1 h20 hsum)
      (insert_word (x.get d) u hsum)
  case clz =>
    exact State.count_runs (f := fun x => leadZeros (x.get a).toNat) h rfl
      (leadZeros_eq_clz u)
  case popc =>
    exact State.count_runs (f := fun x => popCount (x.get a).toNat) h rfl
      (popCount_word u)

end Sys2Proof.Machine
end

section
/-! SUPPORT. The status bit of a reported source (R460), exceptions and the privilege of task mode (R100, R108-R111), and
interrupt entry (R107-R109), with the statements about them. -/

set_option Elab.async false

namespace Sys2Proof.Machine

/-! ## The status bit of a reported source -/

/-- The fatal sequence writes no register below the frame unit's. -/
theorem State.fatalCut_rg (s : State) {a : Nat} (h : a < 0xC3000) : s.fatalCut.rg a = s.rg a := by
  have hslot (k : Nat) : a ≠ FU_TX_CTL k := by simp only [FU_TX_CTL]; omega
  have hbusy : a ≠ FU_TXBUSY := by simp only [FU_TXBUSY]; omega
  have hchd : a ≠ CHD_STATE := by simp only [CHD_STATE]; omega
  have hfield (t : State) (f : Field) (n : Nat) (hf : f.reg = CHD_STATE) : (t.put f n).rg a = t.rg a :=
    State.rg_put_ne t f n (hf ▸ hchd)
  unfold State.fatalCut
  dsimp only
  show (State.put (State.put (State.put _ CHD_STATE_BYPASS 1) CHD_STATE_INA 0) CHD_STATE_INB 0).rg a = _
  rw [hfield _ _ _ rfl, hfield _ _ _ rfl, hfield _ _ _ rfl]
  split
  · show (State.setRg _ FU_TXBUSY 0).rg a = _
    rw [State.rg_setRg_ne _ _ hbusy, State.rg_put_ne _ _ _ (hslot _)]
  · rfl

/-- Registers that a test of a source's bit reads. -/
theorem State.test_of_rg {s t : State} {f : Field} (h : t.rg f.reg = s.rg f.reg) : t.test f = s.test f := by
  simp only [State.test, State.get, h]

theorem faultBit_reg (code : Nat) : (faultBit code).reg = FLT_SRC0 ∨ (faultBit code).reg = FLT_SRC1 := by
  unfold faultBit; split
  · exact Or.inl rfl
  · exact Or.inr rfl

theorem faultBit_reg_ne_flags (code : Nat) : (faultBit code).reg ≠ FLT_FLAGS := by
  rcases faultBit_reg code with h | h <;> rw [h] <;> decide

theorem test_ite {p : Prop} [Decidable p] {a b : State} {f : Field} (ha : p → a.test f = true) (hb : ¬ p → b.test f = true) :
    (if p then a else b).test f = true := by
  by_cases h : p
  · rw [if_pos h]; exact ha h
  · rw [if_neg h]; exact hb h

/-- The flag that a report of a class that is not fatal raises. -/
def reportFlag (code : Nat) (t : State) : State :=
  match faultClass code with
  | 0 => t.raise FLT_FLAGS_NEW_CORR
  | 1 => t.raise FLT_FLAGS_NEW_CONT
  | _ => t

/-- The steps of a report: the log and the status bit, the flag of its class, and the cut of a fatal one. -/
theorem State.report_eq (code : Nat) (d : W20) (s : State) : State.report code d s =
    (let u := (s.logReport code d).put (faultBit code) 1
     let t := reportFlag code { u with faults := { u.faults with last := tabSet (fun _ => 0) u.faults.last code d } }
     let t := if code = 34 then t.raise FLT_FLAGS_SUBST else t
     if faultClass code = 2 then
       if code = 35 then { t.fatalCut with power := { t.power with held := true } } else t.fatalCut
     else t) := rfl

/-- A report sets the status bit of its source. -/
theorem State.report_status {code : Nat} (hcode : code < 40) (d : W20) (s : State) :
    (State.report code d s).test (faultBit code) = true := by
  have hset : ((s.logReport code d).put (faultBit code) 1).test (faultBit code) = true := by
    have hb : (faultBit code).hi < 20 ∧ (faultBit code).hi = (faultBit code).lo := by
      unfold faultBit; split <;> exact ⟨by simp only []; omega, rfl⟩
    rw [State.test_put_same _ _ _ hb.1 hb.2.ge (by rw [hb.2]; simp)]
    rfl
  have hne := faultBit_reg_ne_flags code
  have hraise (t : State) {f : Field} (hf : f.reg = FLT_FLAGS) (h : t.test (faultBit code) = true) :
      (t.raise f).test (faultBit code) = true := (State.raise_test_ne f t (hf ▸ hne)).trans h
  have hcut (t : State) (h : t.test (faultBit code) = true) : t.fatalCut.test (faultBit code) = true :=
    (State.test_of_rg (State.fatalCut_rg t (by rcases faultBit_reg code with h | h <;> rw [h] <;> decide))).trans h
  have hpower (t : State) (p : Power) (h : t.test (faultBit code) = true) :
      State.test { t with power := p } (faultBit code) = true := h
  have hlast (t : State) (l) (h : t.test (faultBit code) = true) :
      State.test { t with faults := { t.faults with last := l } } (faultBit code) = true := h
  have hflag (t : State) (h : t.test (faultBit code) = true) : (reportFlag code t).test (faultBit code) = true := by
    unfold reportFlag
    split
    · exact hraise _ rfl h
    · exact hraise _ rfl h
    · exact h
  rw [State.report_eq]
  have hlogged := hflag _ (hlast _ (tabSet (fun _ => 0) ((s.logReport code d).put (faultBit code) 1).faults.last code d) hset)
  have hsubst := test_ite (p := code = 34) (fun _ => hraise _ (f := FLT_FLAGS_SUBST) rfl hlogged) (fun _ => hlogged)
  exact test_ite (fun _ => test_ite (fun _ => hpower _ _ (hcut _ hsubst)) (fun _ => hcut _ hsubst)) (fun _ => hsubst)

/-! ## Exceptions (R100, R108, R110, R111) -/

section Raised

variable {s : State} {c : CoreId} (h : s.runs c = true)
include h

theorem exec_iTrap_runs (imm12 : BitVec 12) :
    exec (.iTrap c imm12) s = .next (s.takeException c 4 imm12.toNat 0 ((s.core c).pc + 1)) := by
  show execITrap c imm12 s = _
  rw [execITrap, State.instr_runs _ _ _ h]

theorem exec_iSys_runs (imm8 : BitVec 8) :
    exec (.iSys c imm8) s = .next (s.takeException c 5 imm8.toNat 0 ((s.core c).pc + 1)) := by
  show execISys c imm8 s = _
  rw [execISys, State.instr_runs _ _ _ h]

theorem exec_illegalOp_runs {w y : W20} (hw : decodeCore c w y = none) :
    exec (.illegalOp c w y) s = .next (s.takeException c 1 0 0 (s.core c).pc) := by
  show execIllegalOp c w y s = _
  rw [execIllegalOp, State.instr_runs _ _ _ h, if_pos hw, State.illegal]

theorem exec_fetchFault_undecoded {addr : BitVec 16} {two : Bool}
    (haddr : addr = if two then (s.core c).pc + 1 else (s.core c).pc) (hlo : 0x4000 ≤ addr.toNat)
    (hhi : addr.toNat < 0xC000) :
    exec (.fetchFault c addr two) s = .next (s.takeException c 2 1 (addr.setWidth 20) (s.core c).pc) := by
  show execFetchFault c addr two s = _
  rw [execFetchFault, State.instr_runs _ _ _ h]
  simp only [ne_eq, haddr, not_true_eq_false, if_false]
  rw [← haddr, if_pos ⟨hlo, hhi⟩]

end Raised

/-- A core stopped by a double exception: nothing of it but STATE changes, and RUN does not restart it. -/
def State.Doubled (s : State) (c : CoreId) (t : State) : Prop :=
  (t.core c).run = .doubleExc ∧ (t.core c).run.code = 6 ∧ t.test (faultBit 6) = true ∧ (t.core c).w = (s.core c).w ∧
    (t.core c).epc = (s.core c).epc ∧
    ∀ run : Bool, t.clocked = true → Answers (.coreRun c run) t (fun u => (u.core c).run = .doubleExc)

theorem State.coreRun_doubleExc {t : State} {c : CoreId} (hrun : (t.core c).run = .doubleExc) (run : Bool)
    (hclk : t.clocked = true) : Answers (.coreRun c run) t (fun u => (u.core c).run = .doubleExc) := by
  refine ⟨if run then t.coreOn c else t.coreOff c, ?_, ?_⟩
  · show execCoreRun c run t = _
    rw [execCoreRun, State.during, if_pos hclk]
  · cases run
    · simp only [Bool.false_eq_true, if_false, State.coreOff, hrun, State.put_core]
    · simp only [if_true, State.coreOn, hrun, ne_eq, reduceCtorEq, not_false_eq_true, State.put_core]

theorem State.takeException_doubled {s : State} {c : CoreId} (hact : (s.core c).act.getLsbD 4 = true) (cls detail : Nat)
    (ea : W20) (ret : BitVec 16) : s.Doubled c (s.takeException c cls detail ea ret) := by
  rw [State.takeException_double _ _ _ _ _ _ hact]
  have hrun : ((State.report 6 (BitVec.ofNat 20 c.val) (s.setCore c { s.core c with run := .doubleExc })).core c).run =
      .doubleExc := by simp
  refine ⟨hrun, by rw [hrun]; rfl, State.report_status (by decide) _ _, by simp, by simp,
    fun run hclk => State.coreRun_doubleExc hrun run hclk⟩

/-- Settles O8: each is `takeException`, in its two cases. -/
theorem exceptionEntry : Obligations.ExceptionEntry := by
  unfold Obligations.ExceptionEntry
  intro c s h x doubled enter
  constructor
  · intro hact
    have hfree (cls detail : Nat) (ea : W20) (ret : BitVec 16) :
        (.next (s.takeException c cls detail ea ret) : Out) = enter cls detail ea ret :=
      congrArg (fun t => (.next t : Out)) (State.takeException_free s c cls detail ea ret hact)
    refine ⟨fun imm12 => ?trap, fun imm8 => ?sys, fun w y hw => ?illegal, fun addr two haddr hlo hhi => ?fetch⟩
    case trap => exact (exec_iTrap_runs h imm12).trans (hfree 4 imm12.toNat 0 (x.pc + 1))
    case sys => exact (exec_iSys_runs h imm8).trans (hfree 5 imm8.toNat 0 (x.pc + 1))
    case illegal => exact (exec_illegalOp_runs h hw).trans (hfree 1 0 0 x.pc)
    case fetch => exact (exec_fetchFault_undecoded h haddr hlo hhi).trans (hfree 2 1 (addr.setWidth 20) x.pc)
  · intro hact
    refine ⟨fun imm12 => ?trap, fun imm8 => ?sys, fun w y hw => ?illegal, fun addr two haddr hlo hhi => ?fetch⟩
    case trap => exact ⟨_, exec_iTrap_runs h imm12, State.takeException_doubled hact _ _ _ _⟩
    case sys => exact ⟨_, exec_iSys_runs h imm8, State.takeException_doubled hact _ _ _ _⟩
    case illegal => exact ⟨_, exec_illegalOp_runs h hw, State.takeException_doubled hact _ _ _ _⟩
    case fetch => exact ⟨_, exec_fetchFault_undecoded h haddr hlo hhi, State.takeException_doubled hact _ _ _ _⟩

/-! ## Task mode (R100) -/

section TaskMode

variable {s : State} {c : CoreId} (h : s.runs c = true) (hpriv : (s.core c).sw.getLsbD 19 = false)
include h hpriv

theorem exec_iRti_task : exec (.iRti c) s = .next (s.privOp c) := by
  show execIRti c s = _
  rw [execIRti, State.instr_runs _ _ _ h]
  simp only [swPriv, hpriv, Bool.not_false, if_true]

theorem exec_iHalt_task : exec (.iHalt c) s = .next (s.privOp c) := by
  show execIHalt c s = _
  rw [execIHalt, State.instr_runs _ _ _ h]
  simp only [swPriv, hpriv, Bool.false_eq_true, if_false]

theorem exec_iMts_task {sr : BitVec 8} {d : RegId} (hlisted : ((s.core c).sysReg c sr.toNat).isSome) (hsr : sr ≠ 0x00) :
    exec (.iMts c sr d) s = .next (s.privOp c) := by
  obtain ⟨v, hv⟩ := Option.isSome_iff_exists.1 hlisted
  show execIMts c sr d s = _
  rw [execIMts, State.instr_runs _ _ _ h, hv]
  simp only [swPriv, hpriv, Bool.false_eq_true, if_false, if_neg hsr]

theorem exec_iMts_task_sw (d : RegId) : exec (.iMts c 0 d) s = .next (s.setCore c (CoreSt.advance
    { s.core c with sw := ((s.core c).sw &&& 0xFFFF0) ||| ((s.core c).get d &&& 0xF) } 1)) := by
  have hv : (s.core c).sysReg c (0 : BitVec 8).toNat = some (s.core c).sw := rfl
  show execIMts c 0 d s = _
  rw [execIMts, State.instr_runs _ _ _ h, hv]
  simp only [swPriv, hpriv, Bool.false_eq_true, if_false]
  rfl

theorem exec_iMfs_task {sr : BitVec 8} {d : RegId} (hlisted : ((s.core c).sysReg c sr.toNat).isSome) (h0 : sr ≠ 0x00)
    (h2 : sr ≠ 0x02) (h3 : sr ≠ 0x03) (h1F : sr ≠ 0x1F) : exec (.iMfs c d sr) s = .next (s.privOp c) := by
  obtain ⟨v, hv⟩ := Option.isSome_iff_exists.1 hlisted
  show execIMfs c d sr s = _
  rw [execIMfs, State.instr_runs _ _ _ h, hv]
  simp only [swPriv, hpriv, Bool.false_eq_true, h0, h2, h3, h1F, or_self, if_false]

theorem exec_iPost_task {a b : RegId} (hcore : ((s.core c).get a).getLsbD 2 = false)
    (hother : ((s.core c).get a).toNat % 4 ≠ c.val) : exec (.iPost c a b) s = .next (s.privOp c) := by
  have hbit : ¬ ((s.core c).get a).toNat / 4 % 2 = 1 := by
    have := decide_div_pow_odd ((s.core c).get a) 2
    rw [hcore] at this
    simpa using this
  have hne : (⟨((s.core c).get a).toNat % 4, Nat.mod_lt _ (by decide)⟩ : CoreId) ≠ c := fun e => hother (congrArg Fin.val e)
  show execIPost c a b s = _
  rw [execIPost, State.instr_runs _ _ _ h]
  simp only [hbit, if_false, swPriv, hpriv, Bool.not_false, and_true, if_pos hne]

end TaskMode

/-- Settles O9: what task mode may not do is `privOp`, which with the exception bank free enters PRIV_OP. -/
theorem taskModePrivilege : Obligations.TaskModePrivilege := by
  unfold Obligations.TaskModePrivilege
  intro c d a b sr s h hpriv hact x trapped
  have htrap : (.next (s.privOp c) : Out) = trapped :=
    congrArg (fun t => (.next t : Out)) (State.takeException_free s c 6 0 0 (s.core c).pc hact)
  refine ⟨?rti, ?halt, fun hlisted h0 => ⟨?mts, fun h2 h3 h1F => ?mfs⟩, ?sw, fun hcore hother => ?post⟩
  case rti => exact (exec_iRti_task h hpriv).trans htrap
  case halt => exact (exec_iHalt_task h hpriv).trans htrap
  case mts => exact (exec_iMts_task h hpriv hlisted h0).trans htrap
  case mfs => exact (exec_iMfs_task h hpriv hlisted h0 h2 h3 h1F).trans htrap
  case sw => exact exec_iMts_task_sw h hpriv d
  case post => exact (exec_iPost_task h hpriv hcore hother).trans htrap

/-! ## Interrupt entry (R107-R109) -/

theorem CoreSt.level_fin (x : CoreSt) (j : Fin 32) :
    x.level j.val = (x.ilvl[j.val / 8]'(by omega)).toNat / 4 ^ (j.val % 8) % 4 := by
  have hj : j.val / 8 < 4 := by omega
  simp [CoreSt.level, hj]

theorem CoreSt.level_lt (x : CoreSt) (k : Nat) : x.level k < 4 := Nat.mod_lt _ (by decide)

/-- The line of the highest level that can be taken, and there the lowest-numbered. -/
theorem CoreSt.interrupt_of_first {x : CoreSt} {k : Fin 32} (hk : x.takeable k.val = true)
    (hfirst : ∀ j : Fin 32, x.takeable j.val = true → x.level j.val ≤ x.level k.val ∧ (x.level j.val = x.level k.val → k ≤ j)) :
    x.interrupt = some k.val := by
  have hlt := x.level_lt k.val
  have hown : (List.range 32).find? (fun j => x.takeable j && x.level j == x.level k.val) = some k.val := by
    rw [List.find?_range_eq_some]
    refine ⟨by simp [hk], List.mem_range.2 k.isLt, fun j hj => ?_⟩
    by_contra hc
    simp only [Bool.not_eq_true', Bool.not_eq_false, Bool.and_eq_true, beq_iff_eq] at hc
    have := (hfirst ⟨j, hj.trans k.isLt⟩ hc.1).2 hc.2
    exact absurd (Fin.le_def.1 this) (by simp only []; omega)
  have habove (n : Nat) (hn : x.level k.val < n) : (List.range 32).find? (fun j => x.takeable j && x.level j == n) = none := by
    rw [List.find?_eq_none]
    intro j hj hc
    simp only [Bool.and_eq_true, beq_iff_eq] at hc
    have := (hfirst ⟨j, List.mem_range.1 hj⟩ hc.1).1
    simp only [hc.2] at this
    omega
  unfold CoreSt.interrupt
  generalize x.level k.val = n at hlt hown habove
  match n with
  | 3 => simp [hown]
  | 2 => simp [habove 3, hown]
  | 1 => simp [habove 3, habove 2, hown]
  | 0 => simp [habove 3, habove 2, habove 1, hown]

theorem CoreSt.enterLine_eq (x : CoreSt) (k : Nat) : x.enterLine k = { x with
    epc := x.epc.setIfInBounds (x.level k) (x.pc.setWidth 20), esw := x.esw.setIfInBounds (x.level k) x.sw
    act := x.act ||| BitVec.twoPow 5 (x.level k), run := .running
    sw := x.sw ||| 0x80000 ||| BitVec.ofNat 20 ((2 ^ (x.level k + 1) - 1) * 16), pc := BitVec.ofNat 16 (8 + k) } := by
  have hlt := x.level_lt k
  have hmask : ∀ n < 4, BitVec.ofNat 20 (0x80000 + (2 ^ (n + 1) - 1) * 16) = 0x80000#20 ||| BitVec.ofNat 20 ((2 ^ (n + 1) - 1) * 16) := by
    decide
  have hact : ∀ n < 4, BitVec.ofNat 5 (2 ^ n) = BitVec.twoPow 5 n := by decide
  simp only [CoreSt.enterLine, hmask _ hlt, hact _ hlt, BitVec.or_assoc]
  rfl

/-- The withdrawal of requests leaves all but the manger alone. -/
@[simp] theorem State.withdrawTake_regs (s : State) (c : CoreId) : (s.withdrawTake c).regs = s.regs := rfl
@[simp] theorem State.withdrawTake_core (s : State) (c d : CoreId) : (s.withdrawTake c).core d = s.core d := rfl

theorem State.credit_waits (m : Manger) (n : Nat) : (m.credit n).waits = m.waits := rfl

theorem State.withdraw_waits (s : State) (p : Wait → Bool) :
    (s.withdraw p).manger.waits = s.manger.waits.filter (fun w => !p w) := rfl

/-- No request of a `take` of the core waits after its withdrawal. -/
theorem State.withdrawTake_waits (s : State) (c : CoreId) :
    ∀ w ∈ (s.withdrawTake c).manger.waits, ∀ m, w.kind ≠ .program c m := by
  intro w hw m hk
  rw [State.withdrawTake, State.withdraw_waits, List.mem_filter, hk] at hw
  simp at hw

/-- Settles O13: the first line of `interrupt` is the one of the statement, and entry writes its level's bank. -/
theorem interruptEntryEffect : Obligations.InterruptEntryEffect := by
  unfold Obligations.InterruptEntryEffect
  intro c s k hclk hint x level ready n hk hfirst
  have hlevel (j : Fin 32) : x.level j.val = level j := x.level_fin j
  have hready (j : Fin 32) : x.takeable j.val = ready j := by simp only [CoreSt.takeable, hlevel]; rfl
  have hline : x.interrupt = some k.val :=
    CoreSt.interrupt_of_first ((hready k).trans hk) (fun j hj => by
      rw [hlevel, hlevel]; exact hfirst j ((hready j).symm.trans hj))
  refine ⟨(s.withdrawTake c).setCore c (x.enterLine k.val), ?_, ?_, rfl, fun d hd => ?_, s.withdrawTake_waits c⟩
  · show execInterruptEntry c s = _
    simp only [execInterruptEntry]
    rw [show (s.core c).interrupt = some k.val from hline]
    simp only [hint, hclk, and_self, if_true]
    rfl
  · rw [State.core_setCore_same, CoreSt.enterLine_eq, hlevel]
  · rw [State.core_setCore_ne _ _ hd, State.withdrawTake_core]

end Sys2Proof.Machine
end

section
/-! SUPPORT. The accounts of the manger (R25-R36): what a placed account, a payment and a return leave in the table of
accounts; the evaluation of a lone request; and the statements about `take`, `give`, times, events and waits. -/

set_option Elab.async false

namespace Sys2Proof.Machine

/-! ## Accounts by number -/

theorem find_acctInsert_same (l : List Acct) (a : Acct) : (acctInsert l a).find? (fun b => b.id == a.id) = some a := by
  induction l with
  | nil => simp [acctInsert]
  | cons b r ih =>
    rw [acctInsert]
    split
    · simp
    · split
      · simp
      · have hne : (b.id == a.id) = false := by rw [beq_eq_false_iff_ne]; omega
        rw [List.find?_cons, hne]; exact ih

theorem find_acctInsert_ne (l : List Acct) (a : Acct) {k : Nat} (hk : k ≠ a.id) :
    (acctInsert l a).find? (fun b => b.id == k) = l.find? (fun b => b.id == k) := by
  have ha : (a.id == k) = false := by rw [beq_eq_false_iff_ne]; exact hk.symm
  induction l with
  | nil => simp [acctInsert, ha]
  | cons b r ih =>
    rw [acctInsert]
    split
    · rw [List.find?_cons, ha]
    · split
      · rename_i hb
        have hbk : (b.id == k) = false := by rw [← hb]; exact ha
        rw [List.find?_cons, ha, List.find?_cons, hbk]
      · rw [List.find?_cons, List.find?_cons, ih]

/-- A payment moves what accounts hold and are short, and nothing else of them. -/
theorem find_payShort {α : Type} (g : Acct → α) (hg : ∀ (a : Acct) x y, g { a with held := x, short := y } = g a)
    (l : List Acct) (n k : Nat) :
    ((payShort l n).1.find? (fun b => b.id == k)).map g = (l.find? (fun b => b.id == k)).map g := by
  induction l generalizing n with
  | nil => rfl
  | cons a r ih =>
    rw [payShort, List.find?_cons, List.find?_cons]
    cases (a.id == k)
    · exact ih _
    · exact congrArg some (hg a _ _)

theorem find_without (m : Manger) (hs : List Nat) (k : Nat) :
    (m.without hs).accts.find? (fun b => b.id == k) = if k ∈ hs then none else m.accts.find? (fun b => b.id == k) := by
  unfold Manger.without
  simp only
  induction m.accts with
  | nil => simp
  | cons a r ih =>
    rw [List.filter_cons]
    by_cases ha : a.id = k
    · subst ha
      by_cases hm : a.id ∈ hs
      · simpa [hm] using ih
      · simp [hm]
    · have hb : (a.id == k) = false := beq_eq_false_iff_ne.2 ha
      split
      · rw [List.find?_cons, hb, List.find?_cons, hb]; exact ih
      · rw [List.find?_cons, hb]; exact ih

/-! ## What changes the manger alone -/

/-- The second state differs from the first in the manger alone. -/
def State.MangerOnly (s t : State) : Prop := t = { s with manger := t.manger }

theorem State.MangerOnly.rfl' (s : State) : s.MangerOnly s := rfl

theorem State.MangerOnly.trans {s t u : State} (h : s.MangerOnly t) (g : t.MangerOnly u) : s.MangerOnly u := by
  unfold State.MangerOnly at *; rw [g, h]

theorem State.mangerOnly_modManger (s : State) (f : Manger → Manger) : s.MangerOnly (s.modManger f) := rfl
theorem State.mangerOnly_release (s : State) (hs : List Nat) : s.MangerOnly (s.release hs) := rfl
theorem State.mangerOnly_withdraw (s : State) (p : Wait → Bool) : s.MangerOnly (s.withdraw p) := rfl
theorem State.mangerOnly_addWait (s : State) (id cls : Nat) (k : WaitKind) : s.MangerOnly (s.addWait id cls k) := rfl
theorem State.mangerOnly_charge (s : State) (hs : List Nat) : s.MangerOnly (s.charge hs) := rfl
theorem State.mangerOnly_exchange (s : State) (ret take : List Nat) : s.MangerOnly (s.exchange ret take) := rfl

theorem State.mangerOnly_setProgram (s : State) (h n : Nat) : s.MangerOnly (s.setProgram h n) := by
  unfold State.setProgram
  split
  · exact s.mangerOnly_release [h]
  · exact s.mangerOnly_modManger _

section MangerOnly

variable {s t : State} (h : s.MangerOnly t)
include h

theorem State.MangerOnly.regs : t.regs = s.regs := by rw [h]
theorem State.MangerOnly.cores : t.cores = s.cores := by rw [h]
theorem State.MangerOnly.tick : t.tick = s.tick := by rw [h]
theorem State.MangerOnly.core (c : CoreId) : t.core c = s.core c := by rw [h]; rfl
theorem State.MangerOnly.rg (a : Nat) : t.rg a = s.rg a := by rw [h]; rfl
theorem State.MangerOnly.get (f : Field) : t.get f = s.get f := by rw [h]; rfl
theorem State.MangerOnly.test (f : Field) : t.test f = s.test f := by rw [h]; rfl

end MangerOnly

/-! ## A program holder's amount (R35) -/

theorem State.release_holds (s : State) (h : Nat) : (s.release [h]).holds h = false := by
  have hfind := find_payShort (fun _ => ()) (fun _ _ _ => rfl) (s.manger.without [h]).accts
    ((s.manger.accts.filter (fun a => [h].contains a.id)).map (·.held)).sum h
  rw [find_without, if_pos (List.mem_singleton.2 rfl)] at hfind
  rw [State.holds, State.acct, Option.isSome_eq_false_iff, Option.isNone_iff_eq_none]
  exact Option.map_eq_none_iff.1 hfind

theorem State.progAmount_of_not_holds {s : State} {h : Nat} (hh : s.holds h = false) : s.progAmount h = 0 := by
  rw [State.holds, Option.isSome_eq_false_iff, Option.isNone_iff_eq_none] at hh
  rw [State.progAmount, hh]; rfl

theorem State.progAmount_credit (s : State) (m : Manger) (n h : Nat) :
    (s.modManger (fun _ => m.credit n)).progAmount h = (s.modManger (fun _ => m)).progAmount h := by
  have hfind := find_payShort (·.base) (fun _ _ _ => rfl) m.accts n h
  rw [State.progAmount, State.progAmount]
  exact congrArg (fun o => Option.getD o 0) hfind

theorem State.progAmount_acctInsert (s : State) (m : Manger) (a : Acct) :
    (s.modManger (fun _ => { m with accts := acctInsert m.accts a })).progAmount a.id = a.base := by
  have hfind := find_acctInsert_same m.accts a
  rw [State.progAmount]
  show ((List.find? (fun b => b.id == a.id) (acctInsert m.accts a)).map _).getD 0 = _
  rw [hfind]; rfl

theorem State.setProgram_progAmount (s : State) (h n : Nat) : (s.setProgram h n).progAmount h = n := by
  unfold State.setProgram
  by_cases hn : n = 0
  · rw [if_pos hn, hn]
    exact State.progAmount_of_not_holds (s.release_holds h)
  · rw [if_neg hn]
    by_cases hle : s.chargeOf h ≤ ceilDiv (n * s.mngF) 16
    · simp only [hle, if_true]
      exact State.progAmount_acctInsert s { s.manger with free := _ } ⟨h, n, 1, true, _, _⟩
    · simp only [hle, if_false]
      exact (State.progAmount_credit s { s.manger with accts := acctInsert s.manger.accts ⟨h, n, 1, true, _, _⟩ } _ h).trans
        (State.progAmount_acctInsert s s.manger ⟨h, n, 1, true, _, _⟩)

theorem State.setProgram_waits (s : State) (h n : Nat) : (s.setProgram h n).manger.waits = s.manger.waits := by
  unfold State.setProgram
  split
  · rfl
  · simp only [State.modManger]
    split <;> rfl

/-- A rise of a program holder's charge is taken from free. -/
theorem State.setProgram_free {s : State} {h n : Nat} (hn : n ≠ 0) (hle : s.chargeOf h ≤ ceilDiv (n * s.mngF) 16) :
    (s.setProgram h n).manger.free = s.manger.free - (ceilDiv (n * s.mngF) 16 - s.chargeOf h) := by
  simp only [State.setProgram, hn, if_false, State.modManger, hle, if_true]

theorem ceilDiv_mono {a b : Nat} (k : Nat) (h : a ≤ b) : ceilDiv a k ≤ ceilDiv b k :=
  Nat.div_le_div_right (Nat.add_le_add_right h _)

/-! ## `take` and `give` (R35, R96) -/

/-- A `take` of holder `h` waits. -/
def Wait.takes (w : Wait) (h : Nat) : Prop := w.id = h ∧ ∃ e n, w.kind = .program e n

/-- `Wait.takes` as the model tests it. -/
def Wait.isTake (w : Wait) (h : Nat) : Bool := w.id == h && (match w.kind with | .program _ _ => true | _ => false)

theorem Wait.isTake_iff (w : Wait) (h : Nat) : w.isTake h = true ↔ w.takes h := by
  unfold Wait.takes Wait.isTake
  cases w.kind <;> simp

theorem State.takeCode_eq (s : State) (h m : Nat) (now : Bool) : s.takeCode h m now =
    if h < 16 ∨ 27 < h then some 3
    else if s.manger.waits.any (·.isTake h) then some 4
    else if m = 0 then some 0
    else if s.mngTotal < ceilDiv ((s.progAmount h + m) * s.mngF) 16 then some 1
    else if now then
      if s.manger.owed = 0 ∧ s.noneUrgent ∧ s.takeCost h m ≤ s.manger.free then some 0 else some 2
    else none := rfl

section TakeCode

variable {s : State} {h : Nat} (m : Nat) (now : Bool)

theorem State.takeCode_unlisted (hh : h < 16 ∨ 27 < h) : s.takeCode h m now = some 3 := by
  rw [State.takeCode_eq, if_pos hh]

theorem State.takeCode_taken (hlo : 16 ≤ h) (hhi : h ≤ 27) (hw : ∃ w ∈ s.manger.waits, w.takes h) :
    s.takeCode h m now = some 4 := by
  obtain ⟨w, hmem, ht⟩ := hw
  rw [State.takeCode_eq, if_neg (by omega), if_pos (List.any_eq_true.2 ⟨w, hmem, (w.isTake_iff h).2 ht⟩)]

theorem State.takeCode_free (hlo : 16 ≤ h) (hhi : h ≤ 27) (hw : ∀ w ∈ s.manger.waits, ¬ w.takes h) :
    s.takeCode h m now =
      if m = 0 then some 0
      else if s.mngTotal < ceilDiv ((s.progAmount h + m) * s.mngF) 16 then some 1
      else if now then
        if s.manger.owed = 0 ∧ s.noneUrgent ∧ s.takeCost h m ≤ s.manger.free then some 0 else some 2
      else none := by
  have hany : ¬ s.manger.waits.any (·.isTake h) = true := fun hc => by
    obtain ⟨w, hmem, ht⟩ := List.any_eq_true.1 hc
    exact hw w hmem ((w.isTake_iff h).1 ht)
  rw [State.takeCode_eq, if_neg (by omega), if_neg hany]

end TakeCode

/-- No waiting request is urgent. -/
theorem State.noneUrgent_iff (s : State) : s.noneUrgent = true ↔ ∀ w ∈ s.manger.waits, w.urgent = false := by
  simp [State.noneUrgent]

section Takes

variable {s : State} {c : CoreId} {d a b : RegId} (hr : s.runs c = true)
include hr

/-- The state in which a `take` that meets a code ends, its code apart. -/
def State.takeEnds (s : State) (h m code : Nat) : State :=
  if code = 1 then s.raise MNG_FLAGS_EXCEEDS_POOL
  else if code = 0 ∧ m ≠ 0 then s.setProgram h (s.progAmount h + m) else s

theorem exec_iTake_code {h m code : Nat} (hh : ((s.core c).get a).toNat % 32 = h) (hm : ((s.core c).get a).toNat / 1024 = m)
    (hcode : s.takeCode h m ((s.core c).get b = 0) = some code) :
    exec (.iTake c d a b) s =
      .next ((s.takeEnds h m code).modCore c (fun x => x.finish d (BitVec.ofNat 20 code) (code = 0))) := by
  show execITake c d a b s = _
  rw [execITake, State.instr_runs _ _ _ hr]
  simp only [hh, hm, hcode]
  rfl

theorem exec_iTake_waits {h m : Nat} (hh : ((s.core c).get a).toNat % 32 = h) (hm : ((s.core c).get a).toNat / 1024 = m)
    (hcode : s.takeCode h m ((s.core c).get b = 0) = none) :
    exec (.iTake c d a b) s = .next ((s.addWait h 1 (.program c m)).setCore c
      { s.core c with run := .inTake h s.tick ((s.core c).get b) d }) := by
  show execITake c d a b s = _
  rw [execITake, State.instr_runs _ _ _ hr]
  simp only [hh, hm, hcode]

theorem exec_iGive_runs {h m : Nat} (hh : ((s.core c).get a).toNat % 32 = h) (hm : ((s.core c).get a).toNat / 1024 = m) :
    exec (.iGive c d a) s =
      .next ((s.give h m).2.modCore c (fun x => x.finish d (BitVec.ofNat 20 (s.give h m).1) ((s.give h m).1 = 0))) := by
  show execIGive c d a s = _
  rw [execIGive, State.instr_runs _ _ _ hr]
  simp only [hh, hm]

end Takes

theorem State.modCore_eq_setCore (s : State) (c : CoreId) (f : CoreSt → CoreSt) : s.modCore c f = s.setCore c (f (s.core c)) := rfl

theorem CoreSt.finish_bare {x y : CoreSt} (h : x.bare = y.bare) (d : RegId) (v : W20) (z : Bool) :
    (x.finish d v z).bare = (y.finish d v z).bare := by
  have hb (x : CoreSt) : (x.finish d v z).bare = (x.bare.finish d v z).bare := by
    unfold CoreSt.finish CoreSt.set CoreSt.bare CoreSt.advance
    split <;> rfl
  rw [hb, h, ← hb]

/-- Settles O11: the code is `takeCode`'s or `give`'s, and an amount changes only through `setProgram`. -/
theorem takeAndGiveResults : Obligations.TakeAndGiveResults := by
  unfold Obligations.TakeAndGiveResults
  intro c d a b s hr x h m charge total cost asks atOnce coded
  have code {k : Nat} (hcode : s.takeCode h m (x.get b = 0) = some k) :
      exec (.iTake c d a b) s = .next ((s.takeEnds h m k).modCore c (fun y => y.finish d (BitVec.ofNat 20 k) (k = 0))) :=
    exec_iTake_code hr rfl rfl hcode
  have give {k : Nat} {t : State} (hg : s.give h m = (k, t)) :
      exec (.iGive c d a) s = .next (t.modCore c (fun y => y.finish d (BitVec.ofNat 20 k) (k = 0))) := by
    rw [exec_iGive_runs (h := h) (m := m) hr rfl rfl, hg]
  refine ⟨fun hh => ⟨?take3, ?give3⟩, fun hlo hhi => ⟨?taken, ?free, ?give0, ?give5, ?giveM⟩⟩
  case take3 => exact code (s.takeCode_unlisted m _ hh)
  case give3 => exact give (if_pos hh)
  case taken => exact fun hw => code (State.takeCode_taken m _ hlo hhi hw)
  case free =>
    intro hw
    have hfree := State.takeCode_free m (x.get b = 0) hlo hhi hw
    refine ⟨fun hm => ?zero, fun hm hdear => ?dear, fun hm hfits => ⟨fun hb hnow hchg => ?now, fun hb hnot => ?late,
      fun hb => ?waits⟩⟩
    case zero =>
      rw [if_pos hm] at hfree
      rw [code hfree]
      simp only [State.takeEnds, hm, ne_eq, not_true_eq_false, and_false, if_false]
      rfl
    case dear =>
      have hdear : s.mngTotal < ceilDiv ((s.progAmount h + m) * s.mngF) 16 := hdear
      rw [if_neg hm, if_pos hdear] at hfree
      have hrun := code hfree
      rw [show s.takeEnds h m 1 = s.raise MNG_FLAGS_EXCEEDS_POOL from rfl] at hrun
      refine ⟨_, hrun, ?_, ?_, ?_, ?_⟩
      · rw [State.core_modCore_same]
        exact CoreSt.finish_bare (State.raise_bare _ s c) d _ _
      · exact State.raise_self MNG_FLAGS_EXCEEDS_POOL s (by decide) (by decide)
      · exact fun r hr' => State.raise_rg_ne MNG_FLAGS_EXCEEDS_POOL s (fun e => hr' (List.mem_singleton.2 e))
      · exact State.raise_manger MNG_FLAGS_EXCEEDS_POOL s
    case now =>
      have hfits : ¬ s.mngTotal < ceilDiv ((s.progAmount h + m) * s.mngF) 16 := Nat.not_lt.2 hfits
      obtain ⟨howed, hurgent, hcost⟩ := hnow
      rw [if_neg hm, if_neg hfits, if_pos (by simpa using hb),
        if_pos ⟨howed, (s.noneUrgent_iff).2 hurgent, hcost⟩] at hfree
      have hends : s.takeEnds h m 0 = s.setProgram h (s.progAmount h + m) := by simp [State.takeEnds, hm]
      have hle : s.chargeOf h ≤ charge (s.progAmount h + m) := by
        rw [hchg]; exact ceilDiv_mono 16 (Nat.mul_le_mul_right _ (Nat.le_add_right _ _))
      have hrun := code hfree
      rw [hends] at hrun
      refine ⟨_, hrun, ?_, ?_, ?_, ?_⟩
      · rw [State.core_modCore_same, (s.mangerOnly_setProgram h _).core]
        rfl
      · exact s.setProgram_progAmount h _
      · exact State.setProgram_free (by omega) hle
      · exact s.setProgram_waits h _
    case late =>
      have hfits : ¬ s.mngTotal < ceilDiv ((s.progAmount h + m) * s.mngF) 16 := Nat.not_lt.2 hfits
      have hno : ¬ (s.manger.owed = 0 ∧ s.noneUrgent = true ∧ s.takeCost h m ≤ s.manger.free) := fun ⟨h1, h2, h3⟩ =>
        hnot ⟨h1, (s.noneUrgent_iff).1 h2, h3⟩
      rw [if_neg hm, if_neg hfits, if_pos (by simpa using hb), if_neg hno] at hfree
      exact code hfree
    case waits =>
      have hfits : ¬ s.mngTotal < ceilDiv ((s.progAmount h + m) * s.mngF) 16 := Nat.not_lt.2 hfits
      rw [if_neg hm, if_neg hfits, if_neg (by simpa using hb)] at hfree
      exact ⟨_, exec_iTake_waits hr rfl rfl hfree, State.core_setCore_same _ _ _, rfl, rfl⟩
  case give0 =>
    intro hm
    refine give ?_
    rw [State.give, if_neg (by omega), hm]
    simp
  case give5 =>
    intro hlt
    have hg : s.give h m = (5, (s.release [h]).raise MNG_FLAGS_GIVE_EXCESS) := by
      rw [State.give, if_neg (by omega), if_pos hlt]
    refine ⟨_, give hg, ?_, ?_, ?_⟩
    · rw [State.core_modCore_same]
      exact CoreSt.finish_bare (State.raise_bare _ (s.release [h]) c) d _ _
    · exact (State.raise_holds MNG_FLAGS_GIVE_EXCESS (s.release [h]) h).trans (s.release_holds h)
    · exact State.raise_self MNG_FLAGS_GIVE_EXCESS (s.release [h]) (by decide) (by decide)
  case giveM =>
    intro hpos hle
    have hg : s.give h m = (0, s.setProgram h (s.progAmount h - m)) := by
      rw [State.give, if_neg (by omega), if_neg (Nat.not_lt.2 hle), if_neg (by omega)]
    have hmo := s.mangerOnly_setProgram h (s.progAmount h - m)
    refine ⟨_, give hg, ?_, s.setProgram_progAmount h _, hmo.regs, fun k hk => ?_⟩
    · rw [State.core_modCore_same, hmo.core]
      rfl
    · rw [State.core_modCore_ne _ _ hk, hmo.core]

end Sys2Proof.Machine
end

section
/-! SUPPORT. The evaluation of a lone request (R36, R37), and the statements about it and about mesh time, events and waits
(R84, R85, R91-R96). -/

set_option Elab.async false

namespace Sys2Proof.Machine

/-! ## The evaluation of a lone request -/

/-- A waiting request after the urgency of a tick (R37). -/
def State.aged (s : State) (w : Wait) : Wait := { w with urgent := w.urgent || s.patience w.cls < s.tick - w.since }

/-- The state with the waiting requests `ws`. -/
def State.waiting (s : State) (ws : List Wait) : State := s.modManger (fun m => { m with waits := ws })

theorem State.refreshUrgent_eq (s : State) : s.refreshUrgent = s.waiting (s.manger.waits.map s.aged) := rfl

theorem State.grantEach_one (t : State) (w : Wait) :
    State.grantEach [w] (t, []) =
      if t.grantable w then ((t.grantWait w).withdraw (fun v => v == w), [w]) else (t, []) := by
  rw [State.grantEach]
  split <;> rfl

/-- With one request, which arrived before this tick, an evaluation grants it where it may be granted. -/
theorem State.evaluate_one {s : State} {w : Wait} (hw : s.manger.waits = [w]) (hsince : w.since < s.tick) :
    s.evaluate = State.grantEach [s.aged w] (s.waiting [s.aged w], []) := by
  have hrefresh : s.refreshUrgent = s.waiting [s.aged w] := by rw [State.refreshUrgent_eq, hw]; rfl
  have hdue : ([s.aged w].filter (fun v => v.since < (s.waiting [s.aged w]).tick)) = [s.aged w] := by
    rw [List.filter_eq_self]
    exact fun v hv => by rw [List.mem_singleton.1 hv]; exact decide_eq_true hsince
  unfold State.evaluate
  simp only [hrefresh]
  rw [show (s.waiting [s.aged w]).manger.waits = [s.aged w] from rfl, hdue]
  cases hurg : (s.aged w).urgent
  · rw [List.find?_cons_of_neg (by simp [hurg]), List.find?_nil]
  · rw [List.find?_cons_of_pos hurg]
    simp

theorem payShort_zero (l : List Acct) : payShort l 0 = (l, 0) := by
  induction l with
  | nil => rfl
  | cons a r ih => simp [payShort, ih]

theorem Manger.release_nil (m : Manger) : m.release [] = m := by
  simp [Manger.release, Manger.without, Manger.credit, payShort_zero]

/-- A withdrawal that meets no applied reservation leaves the accounts alone. -/
theorem State.withdraw_of_no_applied {s : State} {p : Wait → Bool}
    (h : (s.manger.waits.filter p).flatMap Wait.applied = []) :
    s.withdraw p = s.waiting (s.manger.waits.filter (fun w => !p w)) := by
  rw [State.withdraw, h, State.release, State.modManger]
  simp only [Manger.release_nil]
  rfl

/-! ## A lone holder's request -/

theorem State.costOf_one {s : State} {h : Nat} (hh : s.holds h = false) : s.costOf [h] = (s.newAcct h).held := by
  simp [State.costOf, hh]

theorem newAcct_id (s : State) (h : Nat) : (s.newAcct h).id = h := by
  unfold State.newAcct; split; rfl

theorem State.charge_one {s : State} {h : Nat} (hh : s.holds h = false) : s.charge [h] =
    s.modManger (fun m => { m with accts := acctInsert m.accts (s.newAcct h), free := m.free - (s.newAcct h).held }) := by
  simp [State.charge, hh]

/-- The state after the grant of a lone holder's request, its block apart. -/
def State.granted (s : State) (h : Nat) : State :=
  (s.modManger (fun m => { m with accts := acctInsert m.accts (s.newAcct h), free := m.free - (s.newAcct h).held })).waiting []

theorem State.grant_one {s : State} {h : Nat} {w : Wait} (hh : s.holds h = false) (hk : w.kind = .holders [h]) :
    ((s.waiting [w]).grantWait w).withdraw (fun v => v == w) = s.granted h := by
  have hcharge : (s.waiting [w]).grantWait w =
      (s.waiting [w]).modManger (fun m => { m with accts := acctInsert m.accts (s.newAcct h), free := m.free - (s.newAcct h).held }) := by
    rw [State.grantWait, hk]
    exact State.charge_one (s := s.waiting [w]) hh
  have hwaits : ((s.waiting [w]).grantWait w).manger.waits = [w] := by rw [hcharge]; rfl
  rw [State.withdraw_of_no_applied (by rw [hwaits]; simp [Wait.applied, hk]), hwaits, hcharge]
  simp only [List.filter_cons, BEq.rfl, Bool.not_true, Bool.false_eq_true, if_false, List.filter_nil]
  rfl

theorem State.grantable_one {s : State} {h : Nat} {w : Wait} (hk : w.kind = .holders [h]) :
    (s.waiting [w]).grantable w = (s.manger.owed == 0 && decide (s.costOf [h] ≤ s.manger.free)) := by
  have hcost : (s.waiting [w]).waitCost w = s.costOf [h] := by rw [State.waitCost, hk]; rfl
  have howed : (s.waiting [w]).manger.owed = s.manger.owed := rfl
  have hfree : (s.waiting [w]).manger.free = s.manger.free := rfl
  simp only [State.grantable, hcost, howed, hfree, hk, Bool.or_false]

theorem State.onGrant_other {t : State} {h : Nat} {w : Wait} (hk : w.kind = .holders [h]) (hlo : 13 < h) (hhi : h < 28) :
    t.onGrant w = t := by
  rw [State.onGrant, hk]
  show t.onHolder h = t
  rw [State.onHolder, if_neg (by omega), if_neg (by omega), if_neg (by omega), if_neg (by omega), if_neg (by omega)]

theorem State.newAcct_internal (s : State) {h : Nat} (hlt : h < 16) (h11 : h ≠ 11) :
    (s.newAcct h).held = ceilDiv (holderCost s.yardChans h * s.mngF) 16 := by
  rw [State.newAcct, if_pos (by omega), if_neg h11]
  simp [chargeAt]

/-- Settles O21: a lone request is granted by `charge` alone, and its withdrawal meets no applied reservation. -/
theorem evaluationGrantsWhatFits : Obligations.EvaluationGrantsWhatFits := by
  unfold Obligations.EvaluationGrantsWhatFits
  intro s h cls since hon hlt hcls hh hsince hw cost late asked
  have haged : s.aged ⟨h, cls, since, false, .holders [h]⟩ = asked := rfl
  have hk : asked.kind = .holders [h] := rfl
  have hcost : cost = (s.newAcct h).held := State.costOf_one hh
  have heval := State.evaluate_one hw hsince
  rw [haged, State.grantEach_one, State.grantable_one hk, State.grant_one hh hk] at heval
  have hexec : exec .mangerEvaluation s = .next (s.evaluate.2.foldl State.onGrant s.evaluate.1) := by
    show execMangerEvaluation s = _
    rw [execMangerEvaluation, State.during, if_pos hon]
  refine ⟨fun h16 h11 => ?cost, fun howed hfits => ?grant, fun hnot => ?wait⟩
  case cost => exact hcost.trans (s.newAcct_internal h16 h11)
  case grant =>
    have hyes : (s.manger.owed == 0 && decide (s.costOf [h] ≤ s.manger.free)) = true := by
      rw [howed, BEq.rfl, Bool.true_and]; exact decide_eq_true hfits
    rw [if_pos hyes] at heval
    have hid := newAcct_id s h
    have hown : (s.granted h).acct h = some (s.newAcct h) := by
      have := find_acctInsert_same s.manger.accts (s.newAcct h)
      rwa [hid] at this
    have hother (k : Nat) (hne : k ≠ h) : (s.granted h).acct k = s.acct k :=
      find_acctInsert_ne s.manger.accts (s.newAcct h) (by rwa [hid])
    refine ⟨s.granted h, ?_, ?_, ?_, ?_, rfl, fun k hne => ?_, rfl, fun h13 h28 => State.onGrant_other hk h13 h28⟩
    · rw [hexec, heval]; rfl
    · rw [State.holds, hown]; rfl
    · rw [State.heldOf, hown, hcost]; rfl
    · rw [hcost]; rfl
    · rw [State.heldOf, State.heldOf, hother k hne]
  case wait =>
    have hno : (s.manger.owed == 0 && decide (s.costOf [h] ≤ s.manger.free)) = false := by
      rcases hnot with howed | hbig
      · rw [beq_eq_false_iff_ne.2 howed, Bool.false_and]
      · rw [decide_eq_false (Nat.not_le.2 hbig), Bool.and_false]
    rw [hno, if_neg Bool.false_ne_true] at heval
    rw [hexec, heval]
    rfl

/-! ## Event lines (R91-R94) -/

theorem CoreSt.event_pend (x : CoreSt) {k : Nat} (hk : k < 32) : (x.event k).pend.getLsbD k = true := by
  unfold CoreSt.event
  split
  · assumption
  · simp [hk]

theorem CoreSt.event_pc (x : CoreSt) (k : Nat) : (x.event k).pc = x.pc := by
  unfold CoreSt.event; split <;> rfl

/-- A line to which no request is routed keeps its pending bit. -/
theorem State.latchReqs_pend {s : State} {c : CoreId} {l : Nat} (h : ∀ k, k < 16 → s.routed k ≠ some (c, l)) :
    (s.latchReqs.core c).pend.getLsbD l = (s.core c).pend.getLsbD l := by
  have hfold (ks : List Nat) (hks : ∀ k ∈ ks, k < 16) (t : State) :
      ((ks.foldl (fun t k => match s.routed k with
        | some (c, l) => t.modCore c (fun x => x.hold (t.lattice.acts.contains (32 * c.val + l, t.lattice.cyc)) l)
        | none => t) t).core c).pend.getLsbD l = (t.core c).pend.getLsbD l := by
    induction ks generalizing t with
    | nil => rfl
    | cons k r ih =>
      rw [List.foldl_cons, ih (fun j hj => hks j (List.mem_cons_of_mem _ hj))]
      have hne := h k (hks k List.mem_cons_self)
      split
      · rename_i d m hr
        by_cases hc : c = d
        · subst hc
          have hm : m ≠ l := fun e => hne (e ▸ hr)
          simp only [State.core_modCore_same, CoreSt.hold, BitVec.getLsbD_or, BitVec.getLsbD_twoPow]
          simp [hm]
        · rw [State.core_modCore_ne _ _ hc]
      · rfl
  exact hfold (List.range 16) (fun k hk => List.mem_range.1 hk) s

/-! ## Waits (R85, R95) -/

theorem State.reached_eq (s : State) (t : W40) : s.reached t = !(s.mesh - t).getLsbD 39 := by
  have hlt := (s.mesh - t).isLt
  have hbit : (s.mesh - t).getLsbD 39 = decide (2 ^ 39 ≤ (s.mesh - t).toNat) := by
    rw [← decide_div_pow_odd, decide_eq_decide]
    omega
  rw [State.reached, hbit, Bool.eq_iff_iff]
  simp

/-- The lowest pending line of a mask. -/
theorem CoreSt.masked_some {x : CoreSt} {high : Bool} {mask : BitVec 16} {k : Nat} (hlt : k < 16)
    (hk : mask.getLsbD k = true) (hp : x.pend.getLsbD (16 * bit high + k) = true)
    (hlow : ∀ j, j < k → mask.getLsbD j = true → x.pend.getLsbD (16 * bit high + j) = false) :
    x.masked high mask = some (16 * bit high + k) := by
  have hfind : (List.range 16).find? (fun i => mask.getLsbD i && x.pend.getLsbD (16 * bit high + i)) = some k := by
    rw [List.find?_range_eq_some]
    refine ⟨by rw [hk, hp]; rfl, List.mem_range.2 hlt, fun j hj => ?_⟩
    cases hm : mask.getLsbD j
    · rfl
    · rw [hlow j hj hm]; rfl
  rw [CoreSt.masked, hfind, Option.map_some]

theorem CoreSt.masked_none {x : CoreSt} {high : Bool} {mask : BitVec 16}
    (h : ∀ j, j < 16 → mask.getLsbD j = true → x.pend.getLsbD (16 * bit high + j) = false) : x.masked high mask = none := by
  have hfind : (List.range 16).find? (fun i => mask.getLsbD i && x.pend.getLsbD (16 * bit high + i)) = none := by
    rw [List.find?_eq_none]
    intro j hj hc
    rw [Bool.and_eq_true] at hc
    rw [h j (List.mem_range.1 hj) hc.1] at hc
    exact absurd hc.2 Bool.false_ne_true
  rw [CoreSt.masked, hfind, Option.map_none]

theorem getLsbD_setWidth_low (u : W20) {k : Nat} (hk : k < 16) : (u.setWidth 16).getLsbD k = u.getLsbD k := by
  simp [hk]

/-- The request of a waiting `take`. -/
def Wait.takesFor (w : Wait) (h : Nat) (c : CoreId) : Bool :=
  w.id == h && (match w.kind with | .program e _ => e == c | _ => false)

theorem Wait.takesFor_eq_false {w : Wait} {h : Nat} {c : CoreId} (hw : w.id = h → ∀ m, w.kind ≠ .program c m) :
    w.takesFor h c = false := by
  by_cases hid : w.id = h
  · have hk := hw hid
    unfold Wait.takesFor
    cases hkind : w.kind <;> simp
    rename_i e m
    intro _ he
    exact hk m (he ▸ hkind)
  · simp [Wait.takesFor, hid]

section TakeTimeout

variable {s : State} {c : CoreId} {h start : Nat} {lim : W20} {d : RegId}

/-- The end of a `take` whose time is over, by what the evaluation of the tick grants. -/
theorem exec_takeTimeout_over (hclk : s.clocked = true) (hrun : (s.core c).run = .inTake h start lim d) (hlim : lim ≠ 0xFFFFF)
    (hover : lim.toNat ≤ s.tick - start) :
    exec (.takeTimeout c) s = if s.evaluate.2.any (·.takesFor h c) then .next (s.evaluate.2.foldl State.onGrant s.evaluate.1)
      else .next ((s.withdrawTake c).setCore c ((s.core c).finish d 2 false)) := by
  have hgo : ¬ (!s.clocked ∨ lim = 0xFFFFF ∨ s.tick - start < lim.toNat) := by
    rintro (hoff | hnever | hearly)
    · rw [hclk] at hoff; exact absurd hoff Bool.false_ne_true
    · exact hlim hnever
    · omega
  show execTakeTimeout c s = _
  simp only [execTakeTimeout, hrun, if_neg hgo]
  rfl

end TakeTimeout

/-! ## The instructions in a core that runs -/

section Runs

variable {s : State} {c : CoreId} (h : s.runs c = true)
include h

theorem exec_iTnow_runs {d : RegId} (hd : d.val % 2 = 0) :
    exec (.iTnow c d) s = .next (s.setCore c (((s.core c).setPair d s.mesh.toNat).advance 1)) := by
  show execITnow c d s = _
  rw [execITnow, State.plain_runs _ _ _ _ _ h (by simp [isPair, hd])]

theorem exec_iWat_runs {a : RegId} (ha : a.val % 2 = 0) : exec (.iWat c a) s = .next (s.setCore c
    (if (s.mesh - BitVec.ofNat 40 ((s.core c).pair a)).getLsbD 39
     then { s.core c with run := .inWat (BitVec.ofNat 40 ((s.core c).pair a)) } else (s.core c).advance 1)) := by
  show execIWat c a s = _
  have hpair : (!isPair a) = false := by simp [isPair, ha]
  rw [execIWat, State.instr_runs _ _ _ h]
  simp only [hpair, Bool.false_eq_true, if_false, State.reached_eq]
  cases (s.mesh - BitVec.ofNat 40 ((s.core c).pair a)).getLsbD 39 <;> rfl

/-- A `post` to an event line that the core may reach. -/
theorem exec_iPost_line {a b : RegId} {k : CoreId} (hbit : ((s.core c).get a).getLsbD 2 = false)
    (hk : k.val = ((s.core c).get a).toNat % 4) (hmay : k = c ∨ (s.core c).sw.getLsbD 19 = true) :
    exec (.iPost c a b) s = .next ((s.event k (((s.core c).get b).toNat % 32)).modCore c (·.advance 1)) := by
  have hcore : ¬ ((s.core c).get a).toNat / 4 % 2 = 1 := by
    have := decide_div_pow_odd ((s.core c).get a) 2
    rw [hbit] at this
    simpa using this
  have hkc : (⟨((s.core c).get a).toNat % 4, Nat.mod_lt _ (by decide)⟩ : CoreId) = k := Fin.ext hk.symm
  have hno : ¬ (k ≠ c ∧ (!swPriv (s.core c).sw) = true) := by
    rintro ⟨hne, hp⟩
    rcases hmay with e | e
    · exact hne e
    · rw [swPriv, e] at hp; exact absurd hp Bool.false_ne_true
  show execIPost c a b s = _
  rw [execIPost, State.instr_runs _ _ _ h]
  simp only [hcore, if_false, hkc, hno]

/-- A `post` to a lattice producer. -/
theorem exec_iPost_lattice {a b : RegId} (hbit : ((s.core c).get a).getLsbD 2 = true) : exec (.iPost c a b) s =
    .next ((s.fire (0x30 + 8 * c.val + ((s.core c).get b).toNat % 8)).modCore c (·.advance 1)) := by
  have hlat : ((s.core c).get a).toNat / 4 % 2 = 1 := by
    have := decide_div_pow_odd ((s.core c).get a) 2
    rw [hbit] at this
    simpa using this
  show execIPost c a b s = _
  rw [execIPost, State.instr_runs _ _ _ h]
  simp only [hlat, if_true]

theorem exec_iAck_runs (a : RegId) : exec (.iAck c a) s = .next (s.setCore c (CoreSt.advance { s.core c with
    pend := (s.core c).pend &&& ~~~(BitVec.twoPow 32 (((s.core c).get a).toNat % 32)) } 1)).latchReqs := by
  show execIAck c a s = _
  rw [execIAck, State.instr_runs _ _ _ h]

/-- The pending bits that `sense` reads. -/
def CoreSt.sensed (x : CoreSt) (u : W20) : W20 :=
  if u.getLsbD 0 then ((x.pend >>> 16).setWidth 16).setWidth 20 else (x.pend.setWidth 16).setWidth 20

omit h in
theorem CoreSt.sensed_eq (x : CoreSt) (u : W20) :
    x.pend.toNat / 2 ^ (16 * (u.toNat % 2)) % 2 ^ 16 = (x.sensed u).toNat := by
  have hbit : u.getLsbD 0 = decide (u.toNat % 2 = 1) := by rw [← decide_div_pow_odd]; simp
  rcases Nat.mod_two_eq_zero_or_one u.toNat with h0 | h1
  · simp only [CoreSt.sensed, hbit, h0, Nat.zero_ne_one, decide_false, Bool.false_eq_true, if_false]
    simp only [BitVec.toNat_setWidth]
    omega
  · simp only [CoreSt.sensed, hbit, h1, decide_true, if_true]
    simp only [BitVec.toNat_setWidth, BitVec.toNat_ushiftRight, Nat.shiftRight_eq_div_pow]
    omega

theorem exec_iSense_runs (d a : RegId) : exec (.iSense c d a) s = .next (s.setCore c (CoreSt.advance
    { (s.core c).set d ((s.core c).sensed ((s.core c).get a)) with
      sw := swSetZ (s.core c).sw ((s.core c).sensed ((s.core c).get a) == 0#20) } 1)) := by
  show execISense c d a s = _
  rw [execISense, State.plain_runs _ _ _ _ _ h rfl]
  simp only [CoreSt.sensed_eq, decide_toNat_zero, BitVec.ofNat_toNat, BitVec.setWidth_eq]

theorem exec_iWev_some {d a b : RegId} {k : Nat}
    (hk : (s.core c).masked (((s.core c).get a).getLsbD 16) (((s.core c).get a).setWidth 16) = some k) :
    exec (.iWev c d a b) s = .next (s.setCore c ((s.core c).finish d (BitVec.ofNat 20 k) false)) := by
  show execIWev c d a b s = _
  rw [execIWev, State.instr_runs _ _ _ h]
  simp only [hk]

theorem exec_iWev_none {d a b : RegId}
    (hk : (s.core c).masked (((s.core c).get a).getLsbD 16) (((s.core c).get a).setWidth 16) = none) :
    exec (.iWev c d a b) s = .next (s.setCore c (if (s.core c).get b = 0 then (s.core c).finish d 0xFFFFF true
      else { s.core c with
        run := .inWev (((s.core c).get a).getLsbD 16) (((s.core c).get a).setWidth 16) s.tick ((s.core c).get b) d })) := by
  show execIWev c d a b s = _
  rw [execIWev, State.instr_runs _ _ _ h]
  simp only [hk]
  by_cases hb : (s.core c).get b = 0
  · rw [if_pos hb, if_pos hb]
  · rw [if_neg hb, if_neg hb]

theorem exec_iHalt_privileged (hp : (s.core c).sw.getLsbD 19 = true) :
    exec (.iHalt c) s = .next (s.setCore c (CoreSt.advance { s.core c with run := .halted } 1)) := by
  show execIHalt c s = _
  rw [execIHalt, State.instr_runs _ _ _ h]
  simp only [swPriv, hp, if_true]

end Runs

/-! ## The ends of waits -/

section Ends

variable {s : State} {c : CoreId} (hclk : s.clocked = true)
include hclk

theorem exec_watRelease_reached {t : W40} (hrun : (s.core c).run = .inWat t) (ht : (s.mesh - t).toNat < 2 ^ 39) :
    exec (.watRelease c) s = .next (s.setCore c (CoreSt.advance { s.core c with run := .running } 1)) := by
  show execWatRelease c s = _
  simp only [execWatRelease, hrun, hclk, State.reached, decide_eq_true ht, Bool.and_self, if_true]

variable {high : Bool} {mask : BitVec 16} {start : Nat} {lim : W20} {d : RegId}
  (hrun : (s.core c).run = .inWev high mask start lim d)
include hrun

theorem exec_wevEvent_some {k : Nat} (hk : (s.core c).masked high mask = some k) :
    exec (.wevEvent c) s = .next (s.setCore c ((s.core c).finish d (BitVec.ofNat 20 k) false)) := by
  show execWevEvent c s = _
  simp only [execWevEvent, hrun, hk, hclk, if_true]

theorem exec_wevTimeout_over (hlim : lim ≠ 0xFFFFF) (hover : lim.toNat ≤ s.tick - start) :
    exec (.wevTimeout c) s = .next (s.setCore c (match (s.core c).masked high mask with
      | some k => (s.core c).finish d (BitVec.ofNat 20 k) false
      | none => (s.core c).finish d 0xFFFFF true)) := by
  have hgo : ¬ ((!s.clocked) = true ∨ lim = 0xFFFFF ∨ s.tick - start < lim.toNat) := by
    rintro (hoff | hnever | hearly)
    · rw [hclk] at hoff; exact absurd hoff Bool.false_ne_true
    · exact hlim hnever
    · omega
  show execWevTimeout c s = _
  simp only [execWevTimeout, hrun, if_neg hgo]
  cases (s.core c).masked high mask <;> rfl

end Ends

/-- A `take` that nothing of the evaluation grants: its request is withdrawn, with code 2. -/
theorem takeTimeout_withdrawn {s : State} {c : CoreId} {h start : Nat} {lim : W20} {d : RegId} (hclk : s.clocked = true)
    (hrun : (s.core c).run = .inTake h start lim d) (hlim : lim ≠ 0xFFFFF) (hover : lim.toNat ≤ s.tick - start)
    (hno : ∀ w ∈ s.evaluate.2, w.id = h → ∀ m, w.kind ≠ .program c m) :
    exec (.takeTimeout c) s = .next ((s.withdrawTake c).setCore c ((s.core c).finish d 2 false)) := by
  have hany : s.evaluate.2.any (·.takesFor h c) = false := by
    rw [List.any_eq_false]
    exact fun w hw => by rw [Wait.takesFor_eq_false (hno w hw)]; exact Bool.false_ne_true
  rw [exec_takeTimeout_over hclk hrun hlim hover, hany, if_neg Bool.false_ne_true]

/-- The evaluation of a lone `take` that fits. -/
theorem State.evaluate_take {s : State} {c : CoreId} {h start m : Nat}
    (hw : s.manger.waits = [⟨h, 1, start, false, .program c m⟩]) (hsince : start < s.tick) (howed : s.manger.owed = 0)
    (hfits : s.takeCost h m ≤ s.manger.free) :
    ∃ t w, s.evaluate = (t, [w]) ∧ s.MangerOnly t ∧ t.manger.waits = [] ∧ w.id = h ∧ w.kind = .program c m := by
  have heval := State.evaluate_one hw hsince
  generalize hage : s.aged ⟨h, 1, start, false, .program c m⟩ = w at heval
  have hid : w.id = h := by rw [← hage]; rfl
  have hk : w.kind = .program c m := by rw [← hage]; rfl
  have hyes : (s.waiting [w]).grantable w = true := by
    have hcost : (s.waiting [w]).waitCost w = s.takeCost h m := by rw [State.waitCost, hk, hid]; rfl
    have ho : (s.waiting [w]).manger.owed = 0 := howed
    have hf : (s.waiting [w]).manger.free = s.manger.free := rfl
    simp only [State.grantable, hcost, ho, hf, decide_eq_true hfits, BEq.rfl, Bool.and_self, Bool.true_or]
  have hgrant : (s.waiting [w]).grantWait w =
      (s.waiting [w]).setProgram h ((s.waiting [w]).progAmount h + m) := by rw [State.grantWait, hk, hid]
  rw [State.grantEach_one, if_pos hyes] at heval
  refine ⟨_, w, heval, ?_, ?_, hid, hk⟩
  · exact ((s.mangerOnly_modManger _).trans (hgrant ▸ State.mangerOnly_setProgram _ _ _)).trans
      (State.mangerOnly_withdraw _ _)
  · rw [State.withdraw_waits, hgrant, State.setProgram_waits]
    simp [State.waiting, State.modManger]

/-- The grant of a `take` that waits: code 0. -/
theorem State.onGrant_take {t : State} {c : CoreId} {h start m : Nat} {lim : W20} {d : RegId} {w : Wait}
    (hrun : (t.core c).run = .inTake h start lim d) (hid : w.id = h) (hk : w.kind = .program c m) :
    t.onGrant w = t.modCore c (fun x => x.finish d 0 true) := by
  simp only [State.onGrant, hk, hrun, hid, if_true]

/-- Settles O10: each instruction and each end of a wait is its branch, with the lowest pending line of a mask, and a
`take` whose time is over looks at the evaluation of its tick. -/
theorem timesEventsAndWaits : Obligations.TimesEventsAndWaits := by
  unfold Obligations.TimesEventsAndWaits
  refine ⟨fun c d a b s h => ?_, fun c s hclk => ?_⟩
  · intro x u high sensed
    have hmask (j : Nat) (hj : j < 16) : (u.setWidth 16).getLsbD j = u.getLsbD j := getLsbD_setWidth_low u hj
    refine ⟨fun hd => exec_iTnow_runs h hd, fun ha => exec_iWat_runs h ha, fun hbit hmay => ?post, fun hbit => ?lattice,
      exec_iSense_runs h d a, ?ack, fun k hlt hk hp hlow => ?wev, fun hnone => ?wevNone,
      fun hp => exec_iHalt_privileged h hp⟩
    case post =>
      obtain ⟨k, hk⟩ : ∃ k : CoreId, k.val = u.toNat % 4 := ⟨⟨u.toNat % 4, Nat.mod_lt _ (by decide)⟩, rfl⟩
      have hline : k = c ∨ x.sw.getLsbD 19 = true := hmay.imp_left (fun e => Fin.ext (hk.trans e))
      refine ⟨_, exec_iPost_line h hbit hk hline, fun j hj => ?_⟩
      obtain rfl : j = k := Fin.ext (hj.trans hk.symm)
      have hpend : ((s.core j).event ((x.get b).toNat % 32)).pend.getLsbD ((x.get b).toNat % 32) = true :=
        CoreSt.event_pend _ (Nat.mod_lt _ (by decide))
      by_cases hjc : j = c
      · subst hjc
        refine ⟨?_, ?_, rfl⟩
        · rw [State.core_modCore_same, State.event, State.core_modCore_same]; exact hpend
        · rw [State.core_modCore_same, State.event, State.core_modCore_same, CoreSt.advance_pc, CoreSt.event_pc]; rfl
      · refine ⟨?_, ?_, rfl⟩
        · rw [State.core_modCore_ne _ _ hjc, State.event, State.core_modCore_same]; exact hpend
        · rw [State.core_modCore_same, State.event, State.core_modCore_ne _ _ (Ne.symm hjc)]; rfl
    case lattice => exact ⟨_, exec_iPost_lattice h hbit, rfl⟩
    case ack =>
      refine ⟨_, exec_iAck_runs h a, ?_, by rw [State.latchReqs_regs]; rfl, fun hfree => ?_⟩
      · rw [State.latchReqs_bare, State.core_setCore_same]; rfl
      · rw [State.latchReqs_pend (s := s.setCore c _) hfree, State.core_setCore_same]
        simp only [CoreSt.advance, BitVec.getLsbD_and, BitVec.getLsbD_not, BitVec.getLsbD_twoPow]
        simp [u, x]
    case wev =>
      have hm : x.masked high (u.setWidth 16) = some (16 * bit high + k) :=
        CoreSt.masked_some hlt ((hmask k hlt).trans hk) hp
          (fun j hj hu => hlow j hj ((hmask j (hj.trans hlt)).symm.trans hu))
      exact exec_iWev_some h hm
    case wevNone =>
      have hm : x.masked high (u.setWidth 16) = none :=
        CoreSt.masked_none (fun j hj hu => hnone j hj ((hmask j hj).symm.trans hu))
      exact exec_iWev_none h hm
  · intro x
    refine ⟨fun t hrun ht => exec_watRelease_reached hclk hrun ht, fun high mask start lim d hrun =>
      ⟨fun k hlt hk hp hlow => ?event, fun hnone hlim hover => ?timeout⟩, fun h start lim d hrun hlim hover =>
      ⟨fun hno => ?withdrawn, fun m hw hsince howed hfits => ?granted⟩⟩
    case event =>
      have hm : x.masked high mask = some (16 * bit high + k) := CoreSt.masked_some hlt hk hp hlow
      refine ⟨exec_wevEvent_some hclk hrun hm, fun hlim hover => ?_⟩
      rw [exec_wevTimeout_over hclk hrun hlim hover, show (s.core c).masked high mask = _ from hm]
      rfl
    case timeout =>
      have hm : x.masked high mask = none := CoreSt.masked_none hnone
      rw [exec_wevTimeout_over hclk hrun hlim hover, show (s.core c).masked high mask = _ from hm]
      rfl
    case withdrawn =>
      refine ⟨_, takeTimeout_withdrawn hclk hrun hlim hover hno, ?_, fun k hk => ?_, rfl, s.withdrawTake_waits c⟩
      · rw [State.core_setCore_same]; rfl
      · rw [State.core_setCore_ne _ _ hk, State.withdrawTake_core]
    case granted =>
      obtain ⟨t, w, heval, hmo, hwaits, hid, hk⟩ := State.evaluate_take hw hsince howed hfits
      have hfor : w.takesFor h c = true := by simp [Wait.takesFor, hid, hk]
      have hgrant := State.onGrant_take (t := t) (by rw [hmo.core]; exact hrun) hid hk
      refine ⟨t.modCore c (fun x => x.finish d 0 true), ?_, ?_, fun k hne => ?_, hmo.regs, hwaits⟩
      · rw [exec_takeTimeout_over hclk hrun hlim hover, heval]
        simp only [List.any_cons, hfor, Bool.true_or, if_true, List.foldl_cons, List.foldl_nil, hgrant]
      · rw [State.core_modCore_same, hmo.core]; rfl
      · rw [State.core_modCore_ne _ _ hne, hmo.core]

end Sys2Proof.Machine
end

section
/-! SUPPORT. Runs of bytes in a RAM (R53, R97-R99, R114-R116): their keys, their check groups, what a write of them leaves,
and the statements about the oldest store and about `fence` and `xchg`. -/

set_option Elab.async false

namespace Sys2Proof.Machine

/-! ## The bytes of a core in the RAMs -/

/-- `n` bytes at core address `a` lie in memory `r` as core `c` sees it (R114). -/
def Ram.spans (r : Ram) (c : CoreId) (a n : Nat) : Prop :=
  r = .sram ∧ a + n ≤ 0xA0000 ∨ r = .pram c ∧ 0xE0000 ≤ a ∧ a + n ≤ 0xE4000

theorem Ram.spans.key_ne {r : Ram} {c : CoreId} {a n : Nat} (h : r.spans c a n) {i j : Nat} (hi : i < n) (hj : j < n)
    (hij : i ≠ j) : r.key (a + i) ≠ r.key (a + j) := by
  rcases h with ⟨rfl, _⟩ | ⟨rfl, hlo, hhi⟩
  · simp only [Ram.key]; omega
  · simp only [Ram.key]; omega

theorem regionOf_sram {a : Nat} (h : a < 0xA0000) : regionOf a = .sram := by rw [regionOf, if_pos h]

theorem regionOf_own {a : Nat} (hlo : 0xE0000 ≤ a) (hhi : a < 0xE4000) : regionOf a = .own := by
  rw [regionOf, if_neg (by omega), if_neg (by omega), if_neg (by omega), if_neg (by omega), if_pos hhi]

/-- A write of a byte leaves the bytes of other keys and other memories. -/
theorem State.byte_setByte_ne (s : State) {r q : Ram} {a k : Nat} (v : Byte) (h : q ≠ r ∨ q.key k ≠ r.key a) :
    (s.setByte r a v).byte q k = s.byte q k := by
  cases r with
  | sram =>
    cases q with
    | sram =>
      have hne : k ≠ a := by simpa [Ram.key] using h
      rw [State.byte_setByte_sram, if_neg hne]
    | pram d => rfl
  | pram c =>
    cases q with
    | sram => rfl
    | pram d =>
      have hne : (Ram.pram d).key k ≠ (Ram.pram c).key a := by
        rcases h with hq | hk
        · have hdc : d.val ≠ c.val := fun e => hq (congrArg Ram.pram (Fin.ext e))
          simp only [Ram.key]; omega
        · exact hk
      rw [State.byte_setByte_pram, if_neg hne]

theorem State.byte_setBytes_ne (l : List Byte) (s : State) {r q : Ram} {a k : Nat}
    (h : q ≠ r ∨ ∀ i, i < l.length → q.key k ≠ r.key (a + i)) : (s.setBytes r a l).byte q k = s.byte q k := by
  induction l generalizing s a with
  | nil => rfl
  | cons v l ih =>
    have htail : q ≠ r ∨ ∀ i, i < l.length → q.key k ≠ r.key (a + 1 + i) := h.imp_right (fun hk i hi => by
      rw [Nat.add_assoc, Nat.add_comm 1]; exact hk (i + 1) (Nat.succ_lt_succ hi))
    rw [State.setBytes, ih _ htail]
    exact s.byte_setByte_ne v (h.imp_right (fun hk => hk 0 (Nat.succ_pos _)))

/-- A run of bytes stands where it was written. -/
theorem State.byte_setBytes_at (l : List Byte) (s : State) {r : Ram} {a : Nat}
    (hkey : ∀ i j, i < l.length → j < l.length → i ≠ j → r.key (a + i) ≠ r.key (a + j)) {i : Nat} (hi : i < l.length) :
    (s.setBytes r a l).byte r (a + i) = l[i] := by
  induction l generalizing s a i with
  | nil => exact absurd hi (Nat.not_lt_zero _)
  | cons v l ih =>
    rw [State.setBytes]
    match i with
    | 0 =>
      rw [State.byte_setBytes_ne _ _ (Or.inr fun j hj => ?_), Nat.add_zero, State.byte_setByte_same, List.getElem_cons_zero]
      rw [Nat.add_assoc, Nat.add_comm 1]
      exact hkey 0 (j + 1) hi (Nat.succ_lt_succ hj) (by omega)
    | i + 1 =>
      have htail (p q : Nat) (hp : p < l.length) (hq : q < l.length) (hpq : p ≠ q) :
          r.key (a + 1 + p) ≠ r.key (a + 1 + q) := by
        rw [Nat.add_assoc, Nat.add_comm 1, Nat.add_assoc, Nat.add_comm 1]
        exact hkey (p + 1) (q + 1) (Nat.succ_lt_succ hp) (Nat.succ_lt_succ hq) (by omega)
      have := ih (s.setByte r a v) htail (Nat.lt_of_succ_lt_succ hi)
      rw [Nat.add_assoc, Nat.add_comm 1] at this
      rw [this, List.getElem_cons_succ]

@[simp] theorem State.setBytes_core (s : State) (r : Ram) (a : Nat) (l : List Byte) (c : CoreId) :
    (s.setBytes r a l).core c = s.core c := by
  obtain ⟨m, p, h⟩ := State.setBytes_eq l s r a; rw [h]; rfl

@[simp] theorem State.setBytes_regs (s : State) (r : Ram) (a : Nat) (l : List Byte) : (s.setBytes r a l).regs = s.regs := by
  obtain ⟨m, p, h⟩ := State.setBytes_eq l s r a; rw [h]

/-- The groups of `n` bytes, each by its number. -/
theorem mem_groupsOf {a n g : Nat} (h : g ∈ groupsOf a n) : ∃ k, g = 4 * k ∧ a / 4 ≤ k ∧ k ≤ (a + n - 1) / 4 := by
  unfold groupsOf at h
  split at h
  · simp at h
  · obtain ⟨i, hi, rfl⟩ := List.mem_map.1 h
    rw [List.mem_range] at hi
    exact ⟨a / 4 + i, by omega, by omega, by omega⟩

theorem State.allGood_of_groups {s : State} {r : Ram} {a n : Nat}
    (h : ∀ g, a / 4 ≤ g → g ≤ (a + n - 1) / 4 → s.chk (r.group (4 * g)) = .good) : s.allGood r a n := by
  intro g hg
  obtain ⟨k, rfl, hlo, hhi⟩ := mem_groupsOf hg
  exact h k hlo hhi

/-- What a write of a run of bytes that meets no error leaves (R116). -/
theorem State.ramWrite_spans {s : State} {r : Ram} {c : CoreId} {a : Nat} {l : List Byte} (hs : r.spans c a l.length)
    (hg : s.allGood r a l.length) :
    (∀ i (h : i < l.length), (s.ramWrite r a l).byte r (a + i) = l[i]) ∧
    (∀ q k, (q ≠ r ∨ ∀ i, i < l.length → q.key k ≠ r.key (a + i)) → (s.ramWrite r a l).byte q k = s.byte q k) ∧
    (∀ d, (s.ramWrite r a l).core d = s.core d) ∧ (s.ramWrite r a l).regs = s.regs := by
  obtain ⟨m, hw, -, -⟩ := s.ramWrite_good r a l hg
  rw [hw]
  refine ⟨fun i hi => ?_, fun q k hk => ?_, fun d => ?_, ?_⟩
  · exact State.byte_setBytes_at l _ (fun i j hi hj hij => hs.key_ne hi hj hij) hi
  · exact State.byte_setBytes_ne l _ hk
  · exact State.setBytes_core _ _ _ _ _
  · exact State.setBytes_regs _ _ _ _

/-! ## The oldest store (R98) -/

/-- A store to a RAM is no store to the backup domain. -/
theorem Store.late_of_spans {st : Store} {r : Ram} {c : CoreId} {n : Nat} (hn : 0 < n) (h : r.spans c st.addr.toNat n) :
    st.late = false := by
  have hback : backupStore st.addr.toNat = false := by
    rw [Bool.eq_false_iff]
    unfold backupStore
    simp only [ne_eq, Bool.or_eq_true, Bool.and_eq_true, decide_eq_true_eq]
    simp only [RTC_IRQEN, RTC_ALSUB, RTC_BKP]
    rcases h with ⟨-, h⟩ | ⟨-, h, -⟩ <;> omega
  rw [Store.late, hback, Bool.and_false]

theorem State.storeLand_spans {s : State} {r : Ram} {c : CoreId} {st : Store} (hne : st.bytes ≠ [])
    (h : r.spans c st.addr.toNat st.bytes.length) : s.storeLand c st = s.ramWrite r st.addr.toNat st.bytes := by
  have hpos : 0 < st.bytes.length := List.length_pos_iff.2 hne
  rcases h with ⟨rfl, hhi⟩ | ⟨rfl, hlo, hhi⟩
  · simp only [State.storeLand, regionOf_sram (show st.addr.toNat < 0xA0000 by omega)]
  · simp only [State.storeLand, regionOf_own hlo (show st.addr.toNat < 0xE4000 by omega)]

theorem State.coreResetDue_none {s : State} {c : CoreId} (h : (s.core c).creset = false) : s.coreResetDue c = s := by
  rw [State.coreResetDue, h, Bool.false_and, if_neg Bool.false_ne_true]

/-- Settles O15: the store lands by a RAM write that meets no error, and no core reset waits for it. -/
theorem storeBecomesVisible : Obligations.StoreBecomesVisible := by
  unfold Obligations.StoreBecomesVisible
  intro c st rest s hclk hreset hstores e r hspan hgood hne
  have hs : r.spans c e st.bytes.length := hspan
  have hlate := Store.late_of_spans (List.length_pos_iff.2 hne) hs
  generalize hpop : s.modCore c (fun x => { x with stores := rest }) = u
  have hland : u.storeLand c st = u.ramWrite r e st.bytes := State.storeLand_spans hne hs
  have hallGood : u.allGood r e st.bytes.length := by rw [← hpop]; exact State.allGood_of_groups hgood
  obtain ⟨hat, hother, hcore, hregs⟩ := State.ramWrite_spans hs hallGood
  have hcoreC : u.core c = { s.core c with stores := rest } := by rw [← hpop, State.core_modCore_same]
  have hdue : (u.ramWrite r e st.bytes).coreResetDue c = u.ramWrite r e st.bytes :=
    State.coreResetDue_none (by rw [hcore, hcoreC]; exact hreset)
  have hdrain : s.drainOne c = u.ramWrite r e st.bytes := by
    simp only [State.drainOne, hstores, hlate, Bool.false_eq_true, if_false, hpop, hland, hdue]
  refine ⟨u.ramWrite r e st.bytes, ?_, hat, fun q k hk => ?_, ?_, fun d hd => ?_, ?_⟩
  · show execStoreVisible c s = _
    rw [execStoreVisible, if_pos hclk, hdrain, hdue]
  · rw [hother q k hk, ← hpop]; rfl
  · rw [hcore, hcoreC]
  · rw [hcore, ← hpop, State.core_modCore_ne _ _ hd]
  · rw [hregs, ← hpop]; rfl

/-! ## `fence` and `xchg` (R97, R99) -/

theorem State.afterDrain_empty {s : State} {c : CoreId} (h : s.runs c = true) (hst : (s.core c).stores = [])
    (f : State → CoreSt → State) : s.afterDrain c f = f s (s.core c) := by
  have hdrain : s.drainAll c = s := by rw [State.drainAll, hst]; rfl
  rw [State.afterDrain, hdrain, if_pos h]

/-- The word of three bytes: the top four bits of the container are ignored (R53). -/
theorem wordOf_three (x y z : Byte) (l : List Byte) : wordOf (x :: y :: z :: l) = z.setWidth 4 ++ (y ++ x) := by
  apply BitVec.eq_of_toNat_eq
  have hx := x.isLt
  have hy := y.isLt
  have hz := z.isLt
  simp only [wordOf, List.take_succ_cons, List.take_zero, ofBytesLE, BitVec.toNat_ofNat, BitVec.toNat_append,
    BitVec.toNat_setWidth]
  rw [← Nat.shiftLeft_add_eq_or_of_lt hx, ← Nat.shiftLeft_add_eq_or_of_lt (by rw [Nat.shiftLeft_eq]; omega)]
  simp only [Nat.shiftLeft_eq]
  omega

theorem ofNat_byte_shift (v : W20) (n : Nat) : BitVec.ofNat 8 (v.toNat / 2 ^ n) = (v >>> n).setWidth 8 := by
  apply BitVec.eq_of_toNat_eq
  simp [Nat.shiftRight_eq_div_pow]

theorem ofNat_byte (v : W20) : BitVec.ofNat 8 v.toNat = v.setWidth 8 := by
  apply BitVec.eq_of_toNat_eq
  simp

theorem tripleOf_eq (v : W20) : tripleOf v = [v.setWidth 8, (v >>> 8).setWidth 8, (v >>> 16).setWidth 8] := by
  have h16 : v.toNat / 256 / 256 = v.toNat / 2 ^ 16 := by omega
  have h8 : v.toNat / 256 = v.toNat / 2 ^ 8 := rfl
  simp only [tripleOf, toBytesLE, h16]
  rw [h8]
  rw [ofNat_byte, ← ofNat_byte_shift, ← ofNat_byte_shift]

theorem xchgRam_some {r : Ram} {c : CoreId} {e : Nat} (h : r.spans c e 3) (hline : e % 64 ≤ 61) : xchgRam c e = some r := by
  rw [xchgRam, if_neg (by omega)]
  rcases h with ⟨rfl, hhi⟩ | ⟨rfl, hlo, hhi⟩
  · rw [regionOf_sram (by omega)]
  · rw [regionOf_own hlo (by omega)]

theorem xchgRam_none {c : CoreId} {e : Nat} (h : 61 < e % 64 ∨ 0xA0000 ≤ e ∧ e < 0xE0000 ∨ 0xE4000 ≤ e) :
    xchgRam c e = none := by
  unfold xchgRam
  split
  · rfl
  · have hout : 0xA0000 ≤ e ∧ e < 0xE0000 ∨ 0xE4000 ≤ e := by omega
    unfold regionOf
    split_ifs <;> first | rfl | omega

/-- The groups of three bytes are those of the first and the last. -/
theorem State.allGood_three {s : State} {r : Ram} {e : Nat} (h0 : s.chk (r.group (e / 4 * 4)) = .good)
    (h2 : s.chk (r.group ((e + 2) / 4 * 4)) = .good) : s.allGood r e 3 := by
  refine State.allGood_of_groups (fun g hlo hhi => ?_)
  have hg : 4 * g = e / 4 * 4 ∨ 4 * g = (e + 2) / 4 * 4 := by omega
  rcases hg with h | h
  · rw [h]; exact h0
  · rw [h]; exact h2

theorem exec_iXchg_swaps {s : State} {c : CoreId} {d a : RegId} {r : Ram} (h : s.runs c = true)
    (hst : (s.core c).stores = []) (hram : xchgRam c ((s.core c).get a).toNat = some r)
    (hgood : s.allGood r ((s.core c).get a).toNat 3) :
    exec (.iXchg c d a) s = .next ((s.ramWrite r ((s.core c).get a).toNat (tripleOf ((s.core c).get d))).modCore c
      (fun y => (y.set d (wordOf (s.bytes r ((s.core c).get a).toNat 3))).advance 1)) := by
  show execIXchg c d a s = _
  rw [execIXchg, State.instr_runs _ _ _ h]
  simp only [hram]
  rw [State.afterDrain_empty h hst]
  simp only [State.ramRead_good _ _ _ _ hgood]

theorem exec_iXchg_fault {s : State} {c : CoreId} {d a : RegId} (h : s.runs c = true)
    (hram : xchgRam c ((s.core c).get a).toNat = none) :
    exec (.iXchg c d a) s = .next (s.dataFault c 8 ((s.core c).get a)) := by
  show execIXchg c d a s = _
  rw [execIXchg, State.instr_runs _ _ _ h]
  simp only [hram]

/-- Settles O16: with no store waiting both act at once, and `xchg` writes after it has read. -/
theorem fenceAndExchangeResults : Obligations.FenceAndExchangeResults := by
  unfold Obligations.FenceAndExchangeResults
  intro c d a s h hst x e
  refine ⟨?fence, fun r hspan hline h0 h2 => ?swap, fun hout hact => ?fault⟩
  case fence =>
    show execIFence c s = _
    rw [execIFence, State.instr_runs _ _ _ h, State.afterDrain_empty h hst]
  case swap =>
    have hs : r.spans c e 3 := hspan
    have hgood : s.allGood r e 3 := State.allGood_three h0 h2
    have hlen : (tripleOf (x.get d)).length = 3 := by rw [tripleOf_eq]; rfl
    obtain ⟨hat, hother, hcore, hregs⟩ := State.ramWrite_spans (l := tripleOf (x.get d)) (hlen.symm ▸ hs) (hlen.symm ▸ hgood)
    have hbyte (i : Nat) (hi : i < 3) := hat i (hlen.symm ▸ hi)
    simp only [tripleOf_eq] at hbyte
    refine ⟨_, exec_iXchg_swaps h hst (xchgRam_some hs hline) hgood, ?_, ?_, ?_, ?_, fun q k hk => ?_, fun k hk => ?_, hregs⟩
    · rw [State.core_modCore_same, hcore]
      show ((s.core c).set d (wordOf [s.byte r e, s.byte r (e + 1), s.byte r (e + 2)])).advance 1 = _
      rw [wordOf_three]
    · exact (congrArg (fun l => (s.ramWrite r e l).byte r e) (tripleOf_eq _)).trans (hbyte 0 (by decide))
    · exact (congrArg (fun l => (s.ramWrite r e l).byte r (e + 1)) (tripleOf_eq _)).trans (hbyte 1 (by decide))
    · exact (congrArg (fun l => (s.ramWrite r e l).byte r (e + 2)) (tripleOf_eq _)).trans (hbyte 2 (by decide))
    · exact hother q k (hlen.symm ▸ hk)
    · rw [State.core_modCore_ne _ _ hk, hcore]
  case fault =>
    have hfault : s.dataFault c 8 (x.get a) = _ := State.takeException_free s c 3 8 (x.get a) (s.core c).pc hact
    refine ⟨_, exec_iXchg_fault h (xchgRam_none hout), ?_⟩
    rw [show s.dataFault c 8 ((s.core c).get a) = _ from hfault]
    refine ⟨?_, ?_, ?_, ?_, fun _ _ => rfl, fun _ _ => rfl, fun _ => rfl⟩ <;> rw [State.core_setCore_same] <;> rfl

end Sys2Proof.Machine
end

section
/-! SUPPORT. What leaves the memories alone, the control of a core and its loft port (R51, R113, R517), and the placing of
action-table entries (R86-R88), with the statements about them. -/

set_option Elab.async false

namespace Sys2Proof.Machine

/-! ## Frames -/

theorem State.memKept_of_tables {s t : State} (hs : t.sram = s.sram) (hp : t.pram = s.pram) (hl : t.loft = s.loft)
    (hf : t.flash = s.flash) : s.memKept t := by
  refine ⟨fun r a => ?_, fun c w => ?_, fun f => ?_⟩
  · cases r
    · rw [State.byte, State.byte, hs]
    · rw [State.byte, State.byte, hp]
  · rw [State.loftWord, State.loftWord, hl]
  · rw [State.flashByte, State.flashByte, hf]

theorem State.MangerOnly.memKept {s t : State} (h : s.MangerOnly t) : s.memKept t :=
  State.memKept_of_tables (by rw [h]) (by rw [h]) (by rw [h]) (by rw [h])

theorem State.memKept.trans {s t u : State} (h : s.memKept t) (g : t.memKept u) : s.memKept u :=
  ⟨fun r a => (g.1 r a).trans (h.1 r a), fun c w => (g.2.1 c w).trans (h.2.1 c w), fun f => (g.2.2 f).trans (h.2.2 f)⟩

theorem State.memKept_setCore (s : State) (c : CoreId) (x : CoreSt) : s.memKept (s.setCore c x) :=
  State.memKept_of_tables rfl rfl rfl rfl

theorem State.memKept_put (s : State) (f : Field) (n : Nat) : s.memKept (s.put f n) := State.memKept_of_tables rfl rfl rfl rfl

theorem State.mangerOnly_drop (s : State) (hs : List Nat) : s.MangerOnly (s.drop hs) := rfl
theorem State.mangerOnly_askOne (s : State) (cls : Nat) (hs : List Nat) : s.MangerOnly (s.askOne cls hs) := by
  unfold State.askOne; split
  · exact State.MangerOnly.rfl' s
  · exact s.mangerOnly_addWait _ _ _

/-! ## What a holder that returned holds -/

/-- A return takes no account in. -/
theorem State.release_holds_false {s : State} {h : Nat} (hs : List Nat) (hh : s.holds h = false) : (s.release hs).holds h = false := by
  have hfind := find_payShort (fun _ => ()) (fun _ _ _ => rfl) (s.manger.without hs).accts
    ((s.manger.accts.filter (fun a => hs.contains a.id)).map (·.held)).sum h
  have hnone : (s.manger.without hs).accts.find? (fun b => b.id == h) = none := by
    rw [find_without]
    split
    · rfl
    · rw [State.holds, Option.isSome_eq_false_iff, Option.isNone_iff_eq_none] at hh
      exact hh
  rw [hnone] at hfind
  rw [State.holds, Option.isSome_eq_false_iff, Option.isNone_iff_eq_none]
  exact Option.map_eq_none_iff.1 hfind

theorem State.drop_holds (s : State) (h : Nat) : (s.drop [h]).holds h = false :=
  State.release_holds_false (s := ((s.release [h]).modManger _).modManger _) _ (s.release_holds h)

theorem State.drop_holds_false {s : State} {h : Nat} (hs : List Nat) (hh : s.holds h = false) : (s.drop hs).holds h = false :=
  State.release_holds_false (s := ((s.release hs).modManger _).modManger _) _ (s.release_holds_false hs hh)

/-- A waiting `take` counts on no applied reservation. -/
theorem State.withdrawTake_eq (s : State) (c : CoreId) : s.withdrawTake c = s.waiting (s.manger.waits.filter (fun w =>
    !(match w.kind with
      | .program d _ => d == c
      | _ => false))) := by
  refine State.withdraw_of_no_applied (List.flatMap_eq_nil_iff.2 fun w hw => ?_)
  have hp := (List.mem_filter.1 hw).2
  cases hk : w.kind <;> simp_all [Wait.applied]

theorem State.withdrawTake_holds (s : State) (c : CoreId) (h : Nat) : (s.withdrawTake c).holds h = s.holds h := by
  rw [State.withdrawTake_eq]; rfl

theorem mem_waitInsert (l : List Wait) (w : Wait) : w ∈ waitInsert l w := by
  induction l with
  | nil => exact List.mem_singleton.2 rfl
  | cons v r ih =>
    rw [waitInsert]
    split
    · exact List.mem_cons_self
    · exact List.mem_cons_of_mem _ ih

/-! ## Starting and stopping (R113, R517) -/

theorem CC_RUN_RUN_put (s : State) (k n : Nat) (hn : n < 2) : (s.put (CC_RUN_RUN k) n).test (CC_RUN_RUN k) = (n != 0) :=
  State.test_put_same s _ n (Nat.le_of_ble_eq_true rfl) (Nat.le_of_ble_eq_true rfl) (by simpa [CC_RUN_RUN] using hn)

/-- A core that goes on from where it goes on. -/
def State.restarted (s : State) (c : CoreId) (r : CoreRun) : CoreSt :=
  { s.core c with run := r, pc := s.nextPc c, fresh := false, cold := false, stopAt := none }

section CoreOn

variable {s : State} {c : CoreId} (hrun : (s.core c).run = .stopped)
include hrun

theorem State.coreOn_holds (hh : s.holds (coreHolder c) = true) :
    s.coreOn c = (s.put (CC_RUN_RUN c.val) 1).setCore c (s.restarted c .running) := by
  simp only [State.coreOn, hrun, ne_eq, not_true_eq_false, if_false, hh, if_true]
  rfl

theorem State.coreOn_asks (hh : s.holds (coreHolder c) = false) (ha : s.asked (coreHolder c) = false) :
    s.coreOn c = ((s.put (CC_RUN_RUN c.val) 1).setCore c (s.restarted c .starting)).addWait (coreHolder c) 0
      (.holders [coreHolder c]) := by
  have hask (t : State) (ht : t.manger = s.manger) : t.ask 0 [coreHolder c] = t.addWait (coreHolder c) 0 (.holders [coreHolder c]) := by
    have hh' : t.holds (coreHolder c) = false := by rw [State.holds, State.acct, ht]; exact hh
    have ha' : t.asked (coreHolder c) = false := by rw [State.asked, ht]; exact ha
    simp [State.ask, State.askOne, hh', ha']
  simp only [State.coreOn, hrun, ne_eq, not_true_eq_false, if_false, hh, Bool.false_eq_true]
  exact hask _ rfl

theorem State.coreOff_stopped : s.coreOff c = s.put (CC_RUN_RUN c.val) 0 := by
  simp only [State.coreOff, hrun]

end CoreOn

theorem State.coreOff_starting {s : State} {c : CoreId} (hrun : (s.core c).run = .starting) :
    s.coreOff c = (((s.put (CC_RUN_RUN c.val) 0).modCore c (fun x => { x with run := .stopped }))).drop [coreHolder c] := by
  simp only [State.coreOff, hrun]

theorem State.coreOff_running {s : State} {c : CoreId} (h1 : (s.core c).run ≠ .doubleExc) (h2 : (s.core c).run ≠ .stopped)
    (h3 : (s.core c).run ≠ .starting) : s.coreOff c =
      ((s.put (CC_RUN_RUN c.val) 0).withdrawTake c).modCore c (fun x => { x with run := .stopped, stopAt := some s.tick }) := by
  unfold State.coreOff
  split <;> first | contradiction | rfl

/-- What RUN := 0 does to a core that is not stopped. -/
theorem State.coreOff_stops {s : State} {c : CoreId} (h1 : (s.core c).run ≠ .doubleExc) (h2 : (s.core c).run ≠ .stopped) :
    ∃ st, (s.coreOff c).core c = { s.core c with run := .stopped, stopAt := st } ∧
      (s.coreOff c).regs = (s.put (CC_RUN_RUN c.val) 0).regs ∧ s.othersKept (s.coreOff c) c ∧ s.memKept (s.coreOff c) := by
  by_cases h3 : (s.core c).run = .starting
  · rw [State.coreOff_starting h3]
    have hmo := State.mangerOnly_drop ((s.put (CC_RUN_RUN c.val) 0).modCore c (fun x => { x with run := .stopped })) [coreHolder c]
    refine ⟨(s.core c).stopAt, ?_, hmo.regs, fun d hd => ?_, ?_⟩
    · rw [hmo.core, State.core_modCore_same]; rfl
    · rw [hmo.core, State.core_modCore_ne _ _ hd]; rfl
    · exact ((s.memKept_put _ _).trans (State.memKept_setCore _ _ _)).trans hmo.memKept
  · rw [State.coreOff_running h1 h2 h3]
    refine ⟨some s.tick, ?_, rfl, fun d hd => ?_, ?_⟩
    · rw [State.core_modCore_same]; rfl
    · rw [State.core_modCore_ne _ _ hd]; rfl
    · exact ((s.memKept_put _ _).trans (State.mangerOnly_withdraw _ _).memKept).trans (State.memKept_setCore _ _ _)

/-! ## The returns of stopped cores (R517) -/

/-- The return of one core's charge, as `coreReturns` makes it. -/
def State.coreReturn (t : State) (c : CoreId) : State :=
  match (t.core c).stopAt with
  | some k => if k < t.tick then (t.modCore c (fun x => { x with stopAt := none })).drop [coreHolder c] else t
  | none => t

theorem State.coreReturns_eq (s : State) : s.coreReturns = [0, 1, 2, 3].foldl State.coreReturn s := rfl

theorem State.coreReturn_tick (t : State) (c : CoreId) : (t.coreReturn c).tick = t.tick := by
  unfold State.coreReturn; split
  · split <;> rfl
  · rfl

theorem State.coreReturn_core_ne (t : State) {c d : CoreId} (h : d ≠ c) : (t.coreReturn c).core d = t.core d := by
  unfold State.coreReturn; split
  · split
    · rw [(State.mangerOnly_drop _ _).core, State.core_modCore_ne _ _ h]
    · rfl
  · rfl

theorem State.coreReturn_holds_false {t : State} (c : CoreId) {h : Nat} (hh : t.holds h = false) :
    (t.coreReturn c).holds h = false := by
  unfold State.coreReturn; split
  · split
    · exact State.drop_holds_false (s := t.modCore c _) _ hh
    · exact hh
  · exact hh

theorem State.coreReturn_due {t : State} {c : CoreId} {k : Nat} (hk : (t.core c).stopAt = some k) (hlt : k < t.tick) :
    ((t.coreReturn c).core c).stopAt = none ∧ (t.coreReturn c).holds (coreHolder c) = false := by
  simp only [State.coreReturn, hk, hlt, if_true]
  refine ⟨?_, State.drop_holds _ _⟩
  rw [(State.mangerOnly_drop _ _).core, State.core_modCore_same]

/-- Once a core's charge has returned, the other cores' returns leave it so. -/
theorem State.coreReturned_foldl {c : CoreId} (l : List CoreId) (t : State)
    (h : (t.core c).stopAt = none ∧ t.holds (coreHolder c) = false) :
    ((l.foldl State.coreReturn t).core c).stopAt = none ∧ (l.foldl State.coreReturn t).holds (coreHolder c) = false := by
  induction l generalizing t with
  | nil => exact h
  | cons d r ih =>
    refine ih _ ⟨?_, State.coreReturn_holds_false d h.2⟩
    by_cases hd : c = d
    · subst hd
      simp only [State.coreReturn, h.1]
    · rw [State.coreReturn_core_ne t hd]; exact h.1

theorem State.coreReturn_foldl {c : CoreId} {k : Nat} (l : List CoreId) (t : State) (hc : c ∈ l)
    (hk : (t.core c).stopAt = some k) (hlt : k < t.tick) :
    ((l.foldl State.coreReturn t).core c).stopAt = none ∧ (l.foldl State.coreReturn t).holds (coreHolder c) = false := by
  induction l generalizing t with
  | nil => exact absurd hc (by simp)
  | cons d r ih =>
    by_cases hd : c = d
    · subst hd
      exact State.coreReturned_foldl r _ (State.coreReturn_due hk hlt)
    · exact ih _ ((List.mem_cons.1 hc).resolve_left hd) (by rw [State.coreReturn_core_ne t hd]; exact hk)
        (by rw [State.coreReturn_tick]; exact hlt)

/-! ## A core reset (R113) -/

/-- The core after a core reset with RUN 0. -/
def State.coreAfterReset (s : State) (c : CoreId) : CoreSt :=
  { CoreSt.reset with cold := false, pc := BitVec.ofNat 16 (s.get (CC_START_START c.val)) }

theorem State.actClear_regs (s : State) (c : CoreId) : (s.actClear c).regs = s.regs := rfl
theorem State.actClear_memKept (s : State) (c : CoreId) : s.memKept (s.actClear c) :=
  ((s.mangerOnly_release _).memKept.trans (State.mangerOnly_withdraw _ _).memKept).trans (State.memKept_setCore _ _ _)

theorem State.coreResetNow_off {s : State} {c : CoreId} (h : s.test (CC_RUN_RUN c.val) = false) :
    ∃ u, s.coreResetNow c = (u.setCore c (s.coreAfterReset c)).latchReqs ∧ u.holds (coreHolder c) = false ∧ s.memKept u := by
  have hdrop := State.mangerOnly_drop ((s.withdrawTake c).actClear c) [coreHolder c]
  refine ⟨((s.withdrawTake c).actClear c).drop [coreHolder c], ?_, State.drop_holds _ _, ?_⟩
  · have htest : ((((s.withdrawTake c).actClear c).drop [coreHolder c]).modCore c (fun _ => s.coreAfterReset c)).test
        (CC_RUN_RUN c.val) = false := by
      rw [State.modCore_test, hdrop.test, ← h]
      simp only [State.test, State.get, State.rg, State.actClear_regs, State.withdrawTake_regs]
    have hnow : s.coreResetNow c =
        (if ((((s.withdrawTake c).actClear c).drop [coreHolder c]).modCore c (fun _ => s.coreAfterReset c)).test
            (CC_RUN_RUN c.val) then
          ((((s.withdrawTake c).actClear c).drop [coreHolder c]).modCore c (fun _ => s.coreAfterReset c)).coreOn c
         else (((s.withdrawTake c).actClear c).drop [coreHolder c]).modCore c (fun _ => s.coreAfterReset c)).latchReqs := rfl
    rw [hnow, htest, if_neg Bool.false_ne_true]
    rfl
  · exact ((State.mangerOnly_withdraw _ _).memKept.trans (State.actClear_memKept _ c)).trans hdrop.memKept

theorem exec_coreRun_clocked {s : State} (h : s.clocked = true) (c : CoreId) (run : Bool) :
    exec (.coreRun c run) s = .next (if run then s.coreOn c else s.coreOff c) := by
  show execCoreRun c run s = _
  rw [execCoreRun, State.during, if_pos h]

theorem exec_coreReset_clocked {s : State} (h : s.clocked = true) (c : CoreId) :
    exec (.coreReset c) s = .next (s.coreReset c) := by
  show execCoreReset c s = _
  rw [execCoreReset, State.during, if_pos h]

/-- Settles O18: RUN := 1 and RUN := 0 by the state of the core, and a core reset once its buffer is empty. -/
theorem coreControlResults : Obligations.CoreControlResults := by
  unfold Obligations.CoreControlResults
  intro c s hclk x start
  refine ⟨fun hrun hh => ?on, fun hrun hh ha => ?ask, fun h1 h2 => ?off, fun hrun => ?stopped, fun k hk hlt => ?returns,
    fun hst hoff => ?reset, fun hst => ?resetLater⟩
  case on =>
    refine ⟨_, exec_coreRun_clocked hclk c true, ?_⟩
    rw [if_pos rfl, State.coreOn_holds hrun hh]
    refine ⟨State.core_setCore_same _ _ _, ?_, fun d hd => State.core_setCore_ne _ _ hd, State.memKept_of_tables rfl rfl rfl rfl⟩
    rw [State.setCore_test, CC_RUN_RUN_put _ _ _ (by decide)]; rfl
  case ask =>
    refine ⟨_, exec_coreRun_clocked hclk c true, ?_⟩
    rw [if_pos rfl, State.coreOn_asks hrun hh ha]
    exact ⟨State.core_setCore_same _ _ _, _, mem_waitInsert _ _, rfl, rfl⟩
  case off =>
    obtain ⟨st, hcore, hregs, hother, hmem⟩ := State.coreOff_stops h1 h2
    refine ⟨s.coreOff c, exec_coreRun_clocked hclk c false, by rw [hcore], by rw [hcore], by rw [hcore], ?_, fun h3 => ?_,
      fun h3 => ?_, hother, hmem⟩
    · have htest : (s.coreOff c).test (CC_RUN_RUN c.val) = (s.put (CC_RUN_RUN c.val) 0).test (CC_RUN_RUN c.val) := by
        simp only [State.test, State.get, State.rg, hregs]
      rw [htest, CC_RUN_RUN_put _ _ _ (by decide)]; rfl
    · rw [State.coreOff_running h1 h2 h3]
      exact ⟨State.core_modCore_same _ _ _, State.withdrawTake_holds _ _ _, State.withdrawTake_waits _ _⟩
    · rw [State.coreOff_starting h3]
      exact State.drop_holds _ _
  case stopped =>
    rw [exec_coreRun_clocked hclk c false]
    exact congrArg (fun t => (.next t : Out)) (State.coreOff_stopped hrun)
  case returns =>
    rw [State.coreReturns_eq]
    refine State.coreReturn_foldl _ s ?_ hk hlt
    clear hk hlt x start; revert c; decide
  case reset =>
    obtain ⟨u, hu, hholds, hmem⟩ := State.coreResetNow_off hoff
    have hempty : s.coreReset c = (u.setCore c (s.coreAfterReset c)).latchReqs := by
      rw [State.coreReset, show (s.core c).stores = [] from hst, ← hu]; rfl
    refine ⟨_, (exec_coreReset_clocked hclk c).trans (congrArg _ hempty), ?_, ?_, fun r => ?_, ?_, ?_⟩
    · rw [State.latchReqs_bare, State.core_setCore_same]; rfl
    · rw [State.latchReqs_core_sw, State.core_setCore_same]; rfl
    · have hw : ((u.setCore c (s.coreAfterReset c)).latchReqs.core c).w = Vector.replicate 16 0 := by
        rw [State.latchReqs_core_w, State.core_setCore_same]; rfl
      rw [CoreSt.get, hw]
      split
      · rfl
      · exact Vector.getElem_replicate _
    · rw [State.latchReqs_holds]; exact hholds
    · exact hmem.trans (State.memKept_of_tables (by simp) (by simp) (by simp) (by simp))
  case resetLater =>
    refine ⟨_, exec_coreReset_clocked hclk c, ?_⟩
    have hne : (s.core c).stores.isEmpty = false := by rw [List.isEmpty_eq_false_iff]; exact hst
    rw [State.coreReset, hne]
    rfl

/-! ## The loft port (R113) -/

/-- Where the loft address stands after an access. -/
def State.loftNext (s : State) (c : CoreId) : Nat :=
  if s.test (CC_LOFTADDR_AUTOINC c.val) then (s.get (CC_LOFTADDR_ADDR c.val) + 1) % 2 ^ 14
  else s.get (CC_LOFTADDR_ADDR c.val)

theorem State.loftStep_addr (s : State) (c : CoreId) : (s.loftStep c).get (CC_LOFTADDR_ADDR c.val) = s.loftNext c := by
  rw [State.loftStep, State.loftNext]
  by_cases h : s.test (CC_LOFTADDR_AUTOINC c.val) = true
  · rw [if_pos h, if_pos h, State.get_put_same _ _ _ (Nat.le_of_ble_eq_true rfl) (Nat.le_of_ble_eq_true rfl)]
    exact Nat.mod_eq_of_lt (Nat.mod_lt _ (by decide))
  · rw [if_neg h, if_neg h]

theorem State.loftStep_rg (s : State) (c : CoreId) {a : Nat} (h : a ≠ CC_LOFTADDR c.val) : (s.loftStep c).rg a = s.rg a := by
  rw [State.loftStep]
  split
  · exact State.rg_put_ne _ _ _ h
  · rfl

theorem State.loftStep_memKept (s : State) (c : CoreId) : s.memKept (s.loftStep c) := by
  rw [State.loftStep]
  split
  · exact s.memKept_put _ _
  · exact State.memKept_of_tables rfl rfl rfl rfl

theorem State.loftStep_core (s : State) (c d : CoreId) : (s.loftStep c).core d = s.core d := by
  rw [State.loftStep]; split <;> rfl

theorem State.loftWord_setLoft (s : State) (c k : CoreId) (a w : Nat) (v : W20) :
    (s.setLoft c a v).loftWord k w = if State.loftKey k w = State.loftKey c a then v else s.loftWord k w :=
  tabGet_set loftDflt s.loft _ _ v

theorem loftKey_ne {c k : CoreId} {a w : Nat} (ha : a < 2 ^ 14) (hw : w < 2 ^ 14) (h : k ≠ c ∨ w ≠ a) :
    State.loftKey k w ≠ State.loftKey c a := by
  have hval : k.val ≠ c.val ∨ w ≠ a := h.imp_left (fun hne e => hne (Fin.ext e))
  simp only [State.loftKey]
  omega

theorem State.loftAddr_lt (s : State) (c : CoreId) : s.get (CC_LOFTADDR_ADDR c.val) < 2 ^ 14 := Nat.mod_lt _ (Nat.le_of_ble_eq_true rfl)

/-- Settles O19: the port's word is the one at ADDR, and ADDR alone steps. -/
theorem loftPortResults : Obligations.LoftPortResults := by
  unfold Obligations.LoftPortResults
  intro c v s hclk a next
  have hwrite : exec (.loftWrite c v) s = .next (s.loftPut c v) := by
    show execLoftWrite c v s = _
    rw [execLoftWrite, State.during, if_pos hclk]
  refine ⟨fun hoff => ?write, fun hon => ?refuse, fun hgood => ?read⟩
  case write =>
    have hput : s.loftPut c v = (s.setLoft c a v).loftStep c := by
      rw [State.loftPut, hoff, if_neg Bool.false_ne_true]
    have hmem := (s.setLoft c a v).loftStep_memKept c
    refine ⟨_, hwrite.trans (congrArg _ hput), ?_, fun k w hw hne => ?_, (s.setLoft c a v).loftStep_addr c, fun d => ?_⟩
    · rw [hmem.2.1, State.loftWord_setLoft, if_pos rfl]
    · rw [hmem.2.1, State.loftWord_setLoft, if_neg (loftKey_ne (s.loftAddr_lt c) hw hne)]
    · rw [State.loftStep_core]; rfl
  case refuse =>
    have hput : s.loftPut c v = (s.put (CC_STATUS_LOFT_REFUSED c.val) 1).loftStep c := by
      rw [State.loftPut, hon, if_pos rfl]
    have hreg : CC_STATUS c.val ≠ CC_LOFTADDR c.val := by simp only [CC_STATUS, CC_LOFTADDR]; omega
    have hkeep (f : Field) (hf : f.reg = CC_LOFTADDR c.val) :
        (s.put (CC_STATUS_LOFT_REFUSED c.val) 1).get f = s.get f := State.get_put_ne _ _ (hf ▸ hreg.symm)
    refine ⟨_, hwrite.trans (congrArg _ hput), ?_, ?_, ?_, fun d => ?_⟩
    · rw [State.test_of_rg (State.loftStep_rg _ c hreg), State.test_put_same _ _ _ (Nat.le_of_ble_eq_true rfl) (Nat.le_of_ble_eq_true rfl)
        (Nat.le_of_ble_eq_true rfl)]
      rfl
    · rw [State.loftStep_addr, State.loftNext, State.test, hkeep _ rfl, hkeep _ rfl]
      rfl
    · exact (s.memKept_put _ _).trans (State.loftStep_memKept _ c)
    · rw [State.loftStep_core]; rfl
  case read =>
    have hget : s.loftGet c = (s.loftWord c a, s.loftStep c) := by
      have hread : s.loftRead c a = (some (s.loftWord c a), s) := by simp only [State.loftRead, hgood]
      rw [State.loftGet, hread]
    have hexec : exec (.loftRead c) s = .next (s.loftGet c).2 := by
      show execLoftRead c s = _
      rw [execLoftRead, State.during, if_pos hclk]
    refine ⟨s.loftStep c, hexec.trans (by rw [hget]), by rw [hget], s.loftStep_addr c, s.loftStep_memKept c, fun d => ?_⟩
    rw [State.loftStep_core]

end Sys2Proof.Machine
end

section
/-! SUPPORT. The placing of action-table entries (R39, R86-R88), and the statement about `arm`. -/

set_option Elab.async false

namespace Sys2Proof.Machine

/-! ## The kinds and their parameters (R87) -/

/-- A kind that fires, with a parameter in its range. -/
def armListed (kind param : Nat) : Prop :=
  1 ≤ kind ∧ kind ≤ 8 ∧ ((kind = 1 ∨ kind = 6) → param < 16) ∧ (kind = 2 → 1 ≤ param ∧ param ≤ 3) ∧
    (kind = 3 → param = 0) ∧ ((kind = 4 ∨ kind = 5) → param < 48 ∨ param = 0x8000) ∧ (kind = 7 → param < 8) ∧
    (kind = 8 → param < 32)

theorem paramOk_iff {kind : Nat} (hk : kind < 16) (param : Nat) :
    paramOk kind param = true ↔ armListed kind param ∨ kind = 0 ∧ param = 0 := by
  unfold armListed
  interval_cases kind <;> simp [paramOk] <;> omega

/-! ## What an entry's placing leaves -/

@[simp] theorem State.setAct_core_ne (s : State) {c d : CoreId} (e : Nat) (a : ActEntry) (h : d ≠ c) :
    (s.setAct c e a).core d = s.core d := State.core_modCore_ne _ _ h

theorem State.setAct_core (s : State) (c : CoreId) (e : Nat) (a : ActEntry) :
    (s.setAct c e a).core c = { s.core c with acts := (s.core c).acts.setIfInBounds e a } := State.core_modCore_same _ _ _

/-- The second state differs from the first in entry `e` of core `c`, which holds `a`, in the manger, and in pending
bits. -/
structure State.Armed (s : State) (c : CoreId) (e : Fin 16) (a : ActEntry) (t : State) : Prop where
  w     : (t.core c).w = (s.core c).w
  pc    : (t.core c).pc = (s.core c).pc
  sw    : (t.core c).sw = (s.core c).sw
  entry : (t.core c).acts[e] = a
  acts  : ∀ k : Fin 16, k ≠ e → (t.core c).acts[k] = (s.core c).acts[k]

theorem State.armed_setAct {s u : State} (hu : ∀ d, u.core d = s.core d) (c : CoreId) (e : Fin 16) (a : ActEntry) :
    s.Armed c e a (u.setAct c e.val a) := by
  have hc := u.setAct_core c e.val a
  rw [hu] at hc
  refine ⟨by rw [hc], by rw [hc], by rw [hc], ?_, fun k hk => ?_⟩
  · rw [hc]
    show ((s.core c).acts.setIfInBounds e.val a)[e.val] = a
    exact Vector.getElem_setIfInBounds_self _
  · rw [hc]
    show ((s.core c).acts.setIfInBounds e.val a)[k.val] = (s.core c).acts[k.val]
    exact Vector.getElem_setIfInBounds_ne _ (fun h => hk (Fin.ext h.symm))

/-- An entry placed anew over one already placed. -/
theorem State.Armed.setAct {s t : State} {c : CoreId} {e : Fin 16} {a : ActEntry} (h : s.Armed c e a t) (b : ActEntry) :
    s.Armed c e b (t.setAct c e.val b) := by
  have hb := State.armed_setAct (s := t) (fun _ => rfl) c e b
  exact ⟨hb.w.trans h.w, hb.pc.trans h.pc, hb.sw.trans h.sw, hb.entry, fun k hk => (hb.acts k hk).trans (h.acts k hk)⟩

theorem State.Armed.raise {s t : State} {c : CoreId} {e : Fin 16} {a : ActEntry} (h : s.Armed c e a t) (f : Field) :
    s.Armed c e a (t.raise f) :=
  ⟨by simpa using h.w, by simpa using h.pc, by simpa using h.sw, by simpa using h.entry, fun k hk => by simpa using h.acts k hk⟩

theorem State.Armed.manger {s t u : State} {c : CoreId} {e : Fin 16} {a : ActEntry} (h : s.Armed c e a t)
    (hu : t.MangerOnly u) : s.Armed c e a u :=
  ⟨by rw [hu.core]; exact h.w, by rw [hu.core]; exact h.pc, by rw [hu.core]; exact h.sw, by rw [hu.core]; exact h.entry,
    fun k hk => by rw [hu.core]; exact h.acts k hk⟩

theorem State.mangerOnly_actVacate (s : State) (c : CoreId) (e : Nat) : s.MangerOnly (s.actVacate c e) :=
  (s.mangerOnly_release _).trans (State.mangerOnly_withdraw _ _)

/-! ## The reservation of a placed entry (R39) -/

section Reserve

variable {s t : State} {c : CoreId} {e : Fin 16} {a : ActEntry}

theorem State.actReserve_none (h : a.resv = 0) : t.actReserve c e.val a = t := by rw [State.actReserve, if_pos h]

theorem State.actReserve_dear (h : a.resv ≠ 0) (hdear : t.mngTotal < ceilDiv (a.resv.toNat * t.mngF) 16) :
    t.actReserve c e.val a = (t.setAct c e.val { a with status := .noRations }).raise MNG_FLAGS_EXCEEDS_POOL := by
  rw [State.actReserve, if_neg h, if_pos hdear]

theorem State.actReserve_early (h : a.resv ≠ 0) (hdear : ¬ t.mngTotal < ceilDiv (a.resv.toNat * t.mngF) 16)
    (hreach : t.reached (a.fire - BitVec.ofNat 40 (t.get MNG_LEAD_LEAD)) = true) :
    t.actReserve c e.val a =
      (t.addWait (resvId c e.val) 3 (.resv c e.val)).setAct c e.val { a with status := .reserving } := by
  rw [State.actReserve, if_neg h, if_neg hdear, if_pos hreach]

theorem State.actReserve_later (h : a.resv ≠ 0) (hdear : ¬ t.mngTotal < ceilDiv (a.resv.toNat * t.mngF) 16)
    (hreach : t.reached (a.fire - BitVec.ofNat 40 (t.get MNG_LEAD_LEAD)) = false) : t.actReserve c e.val a = t := by
  rw [State.actReserve, if_neg h, if_neg hdear, hreach, if_neg Bool.false_ne_true]

end Reserve

/-! ## The statement -/

section Arm

variable {s : State} {c : CoreId} {d a b : RegId} (h : s.runs c = true) (hst : (s.core c).stores = []) (ha : a.val % 2 = 0)
include h hst ha

/-- `arm` with a legal and permitted kind. -/
theorem exec_iArm_places (hok : paramOk (((s.core c).get b).toNat / 2 ^ 16) (((s.core c).get b).toNat % 2 ^ 16) = true)
    (hmay : ((s.core c).get b).toNat / 2 ^ 16 = 0 ∨ (s.core c).sw.getLsbD 19 = true ∨
      (s.rg (CC_ACTPERM c.val)).getLsbD (((s.core c).get b).toNat / 2 ^ 16) = true) {z : Bool} {t : State}
    (hplace : s.place c ((s.core c).get d).toNat ((s.core c).pair a) ((s.core c).get b).toNat = (z, t)) :
    exec (.iArm c d a b) s = .next (t.modCore c (fun y => { y with sw := swSetZ y.sw z }.advance 1)) := by
  have hlegal : ¬ (!isPair a || !paramOk (((s.core c).get b).toNat / 2 ^ 16) (((s.core c).get b).toNat % 2 ^ 16)) = true := by
    rw [hok]; simp [isPair, ha]
  have hperm : ¬ (decide (((s.core c).get b).toNat / 2 ^ 16 ≠ 0) && !swPriv (s.core c).sw &&
      !(s.rg (CC_ACTPERM c.val)).getLsbD (((s.core c).get b).toNat / 2 ^ 16)) = true := by
    rcases hmay with h0 | hp | hp
    · simp only [h0]; simp
    · rw [show swPriv (s.core c).sw = true from hp]; simp
    · rw [hp]; simp
  show execIArm c d a b s = _
  rw [execIArm, State.instr_runs _ _ _ h]
  simp only [if_neg hlegal, if_neg hperm]
  rw [State.afterDrain_empty h hst, hplace]

omit hst ha in
theorem exec_iArm_illegal (hno : paramOk (((s.core c).get b).toNat / 2 ^ 16) (((s.core c).get b).toNat % 2 ^ 16) = false) :
    exec (.iArm c d a b) s = .next (s.illegal c) := by
  show execIArm c d a b s = _
  rw [execIArm, State.instr_runs _ _ _ h]
  simp only [hno, Bool.not_false, Bool.or_true, if_true]

omit hst in
theorem exec_iArm_privOp (hok : paramOk (((s.core c).get b).toNat / 2 ^ 16) (((s.core c).get b).toNat % 2 ^ 16) = true)
    (hk : ((s.core c).get b).toNat / 2 ^ 16 ≠ 0) (hpriv : (s.core c).sw.getLsbD 19 = false)
    (hperm : (s.rg (CC_ACTPERM c.val)).getLsbD (((s.core c).get b).toNat / 2 ^ 16) = false) :
    exec (.iArm c d a b) s = .next (s.privOp c) := by
  have hpair : isPair a = true := by simp [isPair, ha]
  show execIArm c d a b s = _
  rw [execIArm, State.instr_runs _ _ _ h]
  simp only [hok, hpair, Bool.not_true, Bool.or_self, Bool.false_eq_true, if_false, decide_eq_true hk,
    show swPriv (s.core c).sw = false from hpriv, hperm, Bool.not_false, Bool.and_self, if_true]

end Arm

/-- Settles O17: `place` writes the entry, and `actReserve` its status. -/
theorem armPlacesEntry : Obligations.ArmPlacesEntry := by
  unfold Obligations.ArmPlacesEntry
  intro c d a b s h hst ha x kind param e resv tick reached may listed dear early went placed
  have hkind : kind < 16 := Nat.div_lt_of_lt_mul (x.get b).isLt
  have hresv : resv < 2 ^ 10 := Nat.div_lt_of_lt_mul (x.get d).isLt
  have hreached (n : W40) : s.reached n = reached n := s.reached_eq n
  -- Z and the step to the next word, over a state in which the entry stands
  have hwent {t : State} {v : ActEntry} {z : Bool} (ht : s.Armed c e v t) :
      went (t.modCore c (fun y => { y with sw := swSetZ y.sw z }.advance 1)) z ∧
        ((t.modCore c (fun y => CoreSt.advance { y with sw := swSetZ y.sw z } 1)).core c).acts[e] = v := by
    simp only [went]
    rw [State.core_modCore_same]
    exact ⟨⟨ht.w, congrArg (· + 1#16) ht.pc, congrArg (swSetZ · z) ht.sw, ht.acts⟩, ht.entry⟩
  have hvacate : ∀ k, (s.actVacate c e.val).core k = s.core k := (s.mangerOnly_actVacate c e.val).core
  have hothers {t : State} (f : CoreSt → CoreSt) (ht : ∀ k, k ≠ c → t.core k = s.core k) : s.othersKept (t.modCore c f) c :=
    fun k hk => (State.core_modCore_ne _ _ hk).trans (ht k hk)
  refine ⟨fun h0 hp0 => ?empty, fun hl hm hfits => ?place, fun hl hm hne hdear => ?dear, fun hl hm => ?privileged,
    fun hl hne => ?illegal⟩
  case empty =>
    have hplace : s.place c (x.get d).toNat (x.pair a) (x.get b).toNat =
        (false, (s.actVacate c e.val).setAct c e.val ⟨0, 0, 0, 0, .empty, false⟩) := by
      simp only [State.place]
      rw [if_pos h0]
    have harmed := State.armed_setAct hvacate c e ⟨0, 0, 0, 0, .empty, false⟩
    obtain ⟨hw, hentry⟩ := hwent (z := false) harmed
    refine ⟨_, exec_iArm_places h hst ha ((paramOk_iff hkind param).2 (Or.inr ⟨h0, hp0⟩)) (Or.inl h0) hplace, hentry, hw, rfl,
      hothers _ fun k hk => ?_⟩
    rw [State.setAct_core_ne _ _ _ hk, hvacate]
  case illegal =>
    refine exec_iArm_illegal h (Bool.eq_false_iff.2 fun hok => ?_)
    rcases (paramOk_iff hkind param).1 hok with hl' | h0
    · exact hl hl'
    · exact hne.elim (fun hk => hk h0.1) (fun hp => hp h0.2)
  case privileged =>
    have hk0 : kind ≠ 0 := Nat.one_le_iff_ne_zero.1 hl.1
    obtain ⟨hpriv, hperm⟩ := not_or.1 hm
    exact exec_iArm_privOp h ha ((paramOk_iff hkind param).2 (Or.inl hl)) hk0 (Bool.eq_false_iff.2 hpriv)
      (Bool.eq_false_iff.2 hperm)
  all_goals
    have hk0 : kind ≠ 0 := Nat.one_le_iff_ne_zero.1 hl.1
    generalize hA : (⟨BitVec.ofNat 4 kind, BitVec.ofNat 16 param, tick, BitVec.ofNat 10 resv, .armed, reached tick⟩ : ActEntry) = A
    have hplace : s.place c (x.get d).toNat (x.pair a) (x.get b).toNat =
        (reached tick, ((s.actVacate c e.val).setAct c e.val A).actReserve c e.val A) := by
      have hparam : BitVec.ofNat 16 (x.get b).toNat = BitVec.ofNat 16 param :=
        BitVec.eq_of_toNat_eq (by simp [param])
      simp only [State.place]
      rw [if_neg hk0, show s.reached (BitVec.ofNat 40 (x.pair a)) = reached tick from hreached tick, hparam, ← hA]
    have harmed := State.armed_setAct hvacate c e A
    have hcores : ∀ k, k ≠ c → ((s.actVacate c e.val).setAct c e.val A).core k = s.core k := fun k hk => by
      rw [State.setAct_core_ne _ _ _ hk, hvacate]
    generalize hu : (s.actVacate c e.val).setAct c e.val A = u at hplace harmed hcores
    have hregs : u.regs = s.regs := by rw [← hu]; rfl
    have htick : u.tick = s.tick := by rw [← hu]; rfl
    have hget (f : Field) : u.get f = s.get f := by rw [State.get, State.get, State.rg, State.rg, hregs]
    have hAresv : A.resv.toNat = resv := by rw [← hA]; exact Nat.mod_eq_of_lt hresv
    have hAzero : A.resv = 0 ↔ resv = 0 := by rw [← hAresv, ← BitVec.toNat_inj]; rfl
    have hdear' : u.mngTotal < ceilDiv (A.resv.toNat * u.mngF) 16 ↔ dear := by
      simp only [State.mngTotal, State.mngF, hget, hAresv]; rfl
    have hearly' : u.reached (A.fire - BitVec.ofNat 40 (u.get MNG_LEAD_LEAD)) = early := by
      rw [hget, ← hA, ← hu]; exact hreached _
    have hrun {t : State} (ht : u.actReserve c e.val A = t) := exec_iArm_places h hst ha
      ((paramOk_iff hkind param).2 (Or.inl hl)) (Or.inr hm) (hplace.trans (by rw [ht]))
  case place =>
    by_cases hwait : resv ≠ 0 ∧ early = true
    · obtain ⟨hr0, hearly⟩ := hwait
      have hreserve := State.actReserve_early (c := c) (e := e) (mt hAzero.1 hr0)
        (mt hdear'.1 (hfits.resolve_left hr0)) (hearly'.trans hearly)
      have harmed' := (harmed.manger (u.mangerOnly_addWait (resvId c e.val) 3 (.resv c e.val))).setAct
        { A with status := .reserving }
      obtain ⟨hw, hentry⟩ := hwent (z := reached tick) harmed'
      refine ⟨_, hrun hreserve, hw, hregs, hothers _ fun k hk => ?_, fun hno => ?_, fun _ _ => ⟨?_, ?_⟩⟩
      · rw [State.setAct_core_ne _ _ _ hk]; exact hcores k hk
      · rcases hno with h0 | h0
        · exact absurd h0 hr0
        · rw [hearly] at h0; exact absurd h0.symm Bool.false_ne_true
      · exact hentry.trans (by rw [← hA])
      · rw [← htick]; exact mem_waitInsert _ _
    · have hreserve : u.actReserve c e.val A = u := by
        by_cases hr0 : resv = 0
        · exact State.actReserve_none (hAzero.2 hr0)
        · exact State.actReserve_later (mt hAzero.1 hr0) (mt hdear'.1 (hfits.resolve_left hr0))
            (hearly'.trans (Bool.eq_false_iff.2 fun he => hwait ⟨hr0, he⟩))
      obtain ⟨hw, hentry⟩ := hwent (z := reached tick) harmed
      exact ⟨_, hrun hreserve, hw, hregs, hothers _ hcores, fun _ => hentry.trans hA.symm,
        fun hr0 he => absurd ⟨hr0, he⟩ hwait⟩
  case dear =>
    have hreserve := State.actReserve_dear (c := c) (e := e) (mt hAzero.1 hne) (hdear'.2 hdear)
    obtain ⟨hw, hentry⟩ := hwent (z := reached tick) ((harmed.setAct { A with status := .noRations }).raise MNG_FLAGS_EXCEEDS_POOL)
    refine ⟨_, hrun hreserve, hw, hentry.trans (by rw [← hA]), ?_, fun r hr => ?_⟩
    · exact State.raise_self MNG_FLAGS_EXCEEDS_POOL _ (by decide) (by decide)
    · refine (State.raise_rg_ne MNG_FLAGS_EXCEEDS_POOL _ (fun e => hr (List.mem_singleton.2 e))).trans ?_
      show tabGet regReset u.regs r = _
      rw [hregs]; rfl

end Sys2Proof.Machine
end

section
/-! SUPPORT. The registers that a report writes (R460-R465), and the pool, the bands and the reservations of the manger (R27-R39),
with the statement about them. -/

set_option Elab.async false

namespace Sys2Proof.Machine

/-! ## The registers that a report writes -/

/-- The registers that neither the log nor a flag of the fault block touches. -/
def outsideLog (a : Nat) : Prop := a < FLT_LOST 0 ∧ a ≠ FLT_FLAGS

theorem State.commitEntry_rg (s : State) (k cls code : Nat) (d : W20) {a : Nat} (h : outsideLog a) :
    (s.commitEntry k cls code d).rg a = s.rg a := by
  have hlt : a < 0xC2010 := h.1
  have h1 : a ≠ FLT_E_HDR k := by simp only [FLT_E_HDR]; omega
  have h2 : a ≠ FLT_E_DET k := by simp only [FLT_E_DET]; omega
  have h3 : a ≠ FLT_E_TLO k := by simp only [FLT_E_TLO]; omega
  have h4 : a ≠ FLT_E_THI k := by simp only [FLT_E_THI]; omega
  show (State.setRg (State.set40 (s.setRg (FLT_E_DET k) d) (FLT_E_TLO k) (FLT_E_THI k) _) (FLT_E_HDR k) _).rg a = _
  rw [State.rg_setRg_ne _ _ h1, State.set40, State.rg_setRg_ne _ _ h4, State.rg_setRg_ne _ _ h3, State.rg_setRg_ne _ _ h2]

theorem State.logReport_rg (s : State) (code : Nat) (d : W20) {a : Nat} (h : outsideLog a) :
    (s.logReport code d).rg a = s.rg a := by
  have hlt : a < 0xC2010 := h.1
  have hhdr (k : Nat) : a ≠ (FLT_E_HDR_REPEAT k).reg := by simp only [FLT_E_HDR_REPEAT, FLT_E_HDR]; omega
  have hlost (k : Nat) : a ≠ (lostField k).reg := by simp only [lostField, FLT_LOST]; omega
  unfold State.logReport
  dsimp only
  split
  · split
    · exact State.rg_put_ne _ _ _ (hhdr _)
    · rfl
  · split
    · split
      · split
        · rw [State.raise_rg_ne _ _ (by exact h.2), State.commitEntry_rg _ _ _ _ _ h]
        · rw [State.commitEntry_rg _ _ _ _ _ h]
      · rw [State.raise_rg_ne _ _ (by exact h.2)]
        exact State.rg_put_ne _ _ _ (hlost _)
    · rfl

theorem reportFlag_rg (code : Nat) (t : State) {a : Nat} (h : a ≠ FLT_FLAGS) : (reportFlag code t).rg a = t.rg a := by
  unfold reportFlag
  split
  · exact State.raise_rg_ne _ _ h
  · exact State.raise_rg_ne _ _ h
  · rfl

theorem rg_ite {p : Prop} [Decidable p] {s t u : State} {a : Nat} (ht : t.rg a = s.rg a) (hu : u.rg a = s.rg a) :
    (if p then t else u).rg a = s.rg a := by
  by_cases h : p
  · rw [if_pos h, ht]
  · rw [if_neg h, hu]

theorem State.report_rg (code : Nat) (d : W20) (s : State) {a : Nat} (h : outsideLog a) :
    (State.report code d s).rg a = ((s.logReport code d).put (faultBit code) 1).rg a := by
  have hcut (t : State) : t.fatalCut.rg a = t.rg a :=
    State.fatalCut_rg t (Nat.lt_trans h.1 (by decide))
  rw [State.report_eq]
  have hflag := reportFlag_rg code { (s.logReport code d).put (faultBit code) 1 with
    faults := { ((s.logReport code d).put (faultBit code) 1).faults with
      last := tabSet (fun _ => 0) ((s.logReport code d).put (faultBit code) 1).faults.last code d } } h.2
  have hsubst := rg_ite (p := code = 34) ((State.raise_rg_ne FLT_FLAGS_SUBST _ h.2).trans hflag) hflag
  exact rg_ite (rg_ite ((hcut _).trans hsubst) ((hcut _).trans hsubst)) hsubst

/-- A report leaves every register below the fault block's. -/
theorem State.report_rg_low (code : Nat) (d : W20) (s : State) {a : Nat} (h : a < FLT_FLAGS) :
    (State.report code d s).rg a = s.rg a := by
  have ha : a < 0xC2000 := h
  have hout : outsideLog a := ⟨Nat.lt_trans h (by decide), h.ne⟩
  have hbit : a ≠ (faultBit code).reg := by
    rcases faultBit_reg code with e | e <;> rw [e]
    · exact (Nat.lt_trans h (by decide)).ne
    · exact (Nat.lt_trans h (by decide)).ne
  rw [State.report_rg _ _ _ hout, State.rg_put_ne _ _ _ hbit, State.logReport_rg _ _ _ hout]

theorem State.report_get_low (code : Nat) (d : W20) (s : State) {f : Field} (h : f.reg < FLT_FLAGS) :
    (State.report code d s).get f = s.get f := by
  rw [State.get, State.get, State.report_rg_low code d s h]

theorem faultBit_wf {code : Nat} (h : code < 40) : (faultBit code).hi < 20 ∧ (faultBit code).lo = (faultBit code).hi := by
  unfold faultBit; split <;> exact ⟨by simp only []; omega, rfl⟩

theorem faultBit_disjoint {i j : Nat} (hij : i ≠ j) :
    (faultBit i).reg ≠ (faultBit j).reg ∨ (faultBit i).hi < (faultBit j).lo ∨ (faultBit j).hi < (faultBit i).lo := by
  unfold faultBit
  split <;> split <;> simp only [] <;> first | exact Or.inl (by decide) | (right; omega)

/-- A report clears the status bit of no source. -/
theorem State.report_test_src {i j : Nat} (hi : i < 40) (hj : j < 40) (d : W20) {s : State}
    (h : s.test (faultBit j) = true) : (State.report i d s).test (faultBit j) = true := by
  by_cases hij : i = j
  · subst hij; exact State.report_status hi d s
  · have hout : outsideLog (faultBit j).reg := by
      rcases faultBit_reg j with e | e <;> rw [e] <;> exact ⟨by decide, by decide⟩
    have hlog : (s.logReport i d).test (faultBit j) = true := (State.test_of_rg (State.logReport_rg s i d hout)).trans h
    rw [State.test_of_rg (State.report_rg i d s hout), State.test]
    by_cases hr : (faultBit j).reg = (faultBit i).reg
    · have hd := (faultBit_disjoint hij).resolve_left (fun hne => hne hr.symm)
      rw [State.get_put_disjoint _ _ _ _ (faultBit_wf hi).1 (faultBit_wf hi).2.le hr hd.symm]
      exact hlog
    · rw [State.get_put_ne _ _ hr]; exact hlog

/-! ## What leaves memory and the cores alone -/

/-- No byte of memory and nothing of a core but pending bits differs. -/
structure State.Still (s t : State) : Prop where
  mem   : s.memKept t
  cores : s.coresKept t

namespace State.Still

theorem rfl' (s : State) : s.Still s := ⟨State.memKept_of_tables rfl rfl rfl rfl, fun _ => rfl⟩

theorem trans {s t u : State} (h : s.Still t) (g : t.Still u) : s.Still u :=
  ⟨h.mem.trans g.mem, fun c => (g.cores c).trans (h.cores c)⟩

theorem setRg (s : State) (a : Nat) (v : W20) : s.Still (s.setRg a v) :=
  ⟨State.memKept_of_tables rfl rfl rfl rfl, fun _ => rfl⟩

theorem put (s : State) (f : Field) (n : Nat) : s.Still (s.put f n) := State.Still.setRg _ _ _

theorem raise (s : State) (f : Field) : s.Still (s.raise f) :=
  ⟨State.memKept_of_tables (by simp) (by simp) (by simp) (by simp), s.raise_bare f⟩

theorem report (s : State) (code : Nat) (d : W20) : s.Still (s.report code d) :=
  ⟨State.memKept_of_tables (by simp) (by simp) (by simp) (by simp), State.report_bare code d s⟩

theorem manger {s t : State} (h : s.MangerOnly t) : s.Still t := ⟨h.memKept, fun c => by rw [h.core]⟩

theorem ite {s t u : State} {p : Prop} [Decidable p] (ht : s.Still t) (hu : s.Still u) : s.Still (if p then t else u) := by
  split <;> assumption

end State.Still

/-! ## Bands (R30-R32) -/

theorem State.moveBand_still (s : State) (b : Nat) (quiet : Bool) : s.Still (s.moveBand b quiet) := by
  unfold State.moveBand
  have hmoved : s.Still ((s.put MNG_BAND_CHARGE_BAND b).modManger (·.recharge (s.put MNG_BAND_CHARGE_BAND b).mngF)) :=
    (State.Still.put s _ _).trans (State.Still.manger (State.mangerOnly_modManger _ _))
  have hflag := State.Still.ite (p := quiet) hmoved
    (State.Still.ite (p := b < s.get MNG_BAND_CHARGE_BAND) (hmoved.trans (State.Still.raise _ MNG_FLAGS_BAND_DOWN))
      (hmoved.trans (State.Still.raise _ MNG_FLAGS_BAND_UP)))
  exact State.Still.ite (State.Still.rfl' s) (State.Still.ite (hflag.trans (State.Still.raise _ _)) hflag)

/-- A move of the band leaves every register but the band's and the flags' as they were. -/
theorem State.moveBand_rg (s : State) (b : Nat) (quiet : Bool) {a : Nat} (hb : a ≠ MNG_BAND) (hf : a ≠ MNG_FLAGS) :
    (s.moveBand b quiet).rg a = s.rg a := by
  unfold State.moveBand
  have hmoved : ((s.put MNG_BAND_CHARGE_BAND b).modManger (·.recharge (s.put MNG_BAND_CHARGE_BAND b).mngF)).rg a = s.rg a :=
    State.rg_put_ne s _ _ hb
  have hflag := rg_ite (p := quiet) hmoved
    (rg_ite (p := b < s.get MNG_BAND_CHARGE_BAND) ((State.raise_rg_ne MNG_FLAGS_BAND_DOWN _ hf).trans hmoved)
      ((State.raise_rg_ne MNG_FLAGS_BAND_UP _ hf).trans hmoved))
  exact rg_ite rfl (rg_ite ((State.raise_rg_ne MNG_FLAGS_DEBT _ hf).trans hflag) hflag)

/-- Fields that a move of the band leaves: none of its own flags, and not the charge band. -/
abbrev keptByBand (f : Field) : Prop :=
  ∀ g ∈ [MNG_BAND_CHARGE_BAND, MNG_FLAGS_BAND_DOWN, MNG_FLAGS_BAND_UP, MNG_FLAGS_DEBT], f.reg ≠ g.reg ∨ f.hi < g.lo ∨ g.hi < f.lo

theorem get_ite {p : Prop} [Decidable p] {t u : State} {f : Field} {n : Nat} (ht : t.get f = n) (hu : u.get f = n) :
    (if p then t else u).get f = n := by
  split <;> assumption

theorem State.get_put_other (s : State) {f g : Field} (n : Nat) (hh : g.hi < 20) (hl : g.lo ≤ g.hi)
    (h : f.reg ≠ g.reg ∨ f.hi < g.lo ∨ g.hi < f.lo) : (s.put g n).get f = s.get f := by
  by_cases hr : f.reg = g.reg
  · exact State.get_put_disjoint s g f n hh hl hr (h.resolve_left (fun hne => hne hr))
  · exact State.get_put_ne s n hr

theorem State.moveBand_get (s : State) (b : Nat) (quiet : Bool) {f : Field} (h : keptByBand f) :
    (s.moveBand b quiet).get f = s.get f := by
  have hraise (t : State) (g : Field) (hh : g.hi < 20) (hl : g.lo ≤ g.hi) (hg : f.reg ≠ g.reg ∨ f.hi < g.lo ∨ g.hi < f.lo) :
      (t.raise g).get f = t.get f := by rw [State.raise_get, State.get_put_other t 1 hh hl hg]
  have hband := h MNG_BAND_CHARGE_BAND (by simp)
  have hdown := h MNG_FLAGS_BAND_DOWN (by simp)
  have hup := h MNG_FLAGS_BAND_UP (by simp)
  have hdebt := h MNG_FLAGS_DEBT (by simp)
  unfold State.moveBand
  have hmoved : ((s.put MNG_BAND_CHARGE_BAND b).modManger (·.recharge (s.put MNG_BAND_CHARGE_BAND b).mngF)).get f = s.get f :=
    State.get_put_other s b (by decide) (by decide) hband
  have hflag := get_ite (p := quiet) hmoved
    (get_ite (p := b < s.get MNG_BAND_CHARGE_BAND) ((hraise _ MNG_FLAGS_BAND_DOWN (by decide) (by decide) hdown).trans hmoved)
      ((hraise _ MNG_FLAGS_BAND_UP (by decide) (by decide) hup).trans hmoved))
  exact get_ite rfl (get_ite ((hraise _ MNG_FLAGS_DEBT (by decide) (by decide) hdebt).trans hflag) hflag)

theorem State.moveBand_test (s : State) (b : Nat) (quiet : Bool) {f : Field} (h : keptByBand f) :
    (s.moveBand b quiet).test f = s.test f := by rw [State.test, State.test, s.moveBand_get b quiet h]

/-! ## Pool writes (R27) -/

/-- The pool total moved to `p`: what it gains pays OWED first. -/
def State.poolMoved (s : State) (p : Nat) : State :=
  (s.put MNG_POOL_POOL p).modManger (fun m =>
    let (as, rest) := payShort m.accts ((s.put MNG_POOL_POOL p).mngTotal - m.heldSum)
    { m with accts := as, free := rest })

theorem State.writePool_eq (s : State) (v : W20) : s.writePool v =
    (let t := s.put MNG_POOL_BAND_FLOOR (v.toNat / 1024 % 8)
     let u := if v.toNat % 1024 = 0 ∨ min (v.toNat % 1024) (s.get MNG_CEIL_CEILING) < t.manger.heldSum then
         t.raise MNG_FLAGS_POOL_REFUSED
       else if s.get MNG_CEIL_CEILING < v.toNat % 1024 then
         (t.poolMoved (min (v.toNat % 1024) (s.get MNG_CEIL_CEILING))).raise MNG_FLAGS_CLAMPED
       else t.poolMoved (min (v.toNat % 1024) (s.get MNG_CEIL_CEILING))
     u.moveBand (u.bandFor (u.get MNG_BAND_MEAS_BAND)) false) := rfl

theorem State.poolMoved_still (s : State) (p : Nat) : s.Still (s.poolMoved p) :=
  (State.Still.put s _ _).trans (State.Still.manger (State.mangerOnly_modManger _ _))

theorem exec_poolWrite_clocked {s : State} (h : s.clocked = true) (v : W20) : exec (.poolWrite v) s = .next (s.writePool v) := by
  show execPoolWrite v s = _
  rw [execPoolWrite, State.during, if_pos h]

/-! ## Samples of VBAT (R31) -/

theorem bandOf_le (m v : Nat) : bandOf m v ≤ 7 := by
  unfold bandOf
  cases h : [7, 6, 5, 4, 3, 2, 1].find? (fun b => decide (bandEdge b + m ≤ v)) with
  | none => exact Nat.zero_le _
  | some b =>
    have := List.mem_of_find?_eq_some h
    simp only [List.mem_cons, List.not_mem_nil, or_false] at this
    simp only [Option.getD_some]; omega

theorem Manger.risen_le (m : Manger) : m.risen ≤ 7 := by
  unfold Manger.risen
  cases h : [7, 6, 5, 4, 3, 2, 1].find? (fun b => decide (32 ≤ (m.up.toList[b]?).getD 0)) with
  | none => exact Nat.zero_le _
  | some b =>
    have := List.mem_of_find?_eq_some h
    simp only [List.mem_cons, List.not_mem_nil, or_false] at this
    simp only [Option.getD_some]; omega

/-- The first of a falling list that passes a test is the largest that does. -/
theorem le_find_of_falling {l : List Nat} (hl : l.Pairwise (· ≥ ·)) {p : Nat → Bool} {b : Nat} (hb : b ∈ l)
    (hp : p b = true) : b ≤ (l.find? p).getD 0 := by
  induction l with
  | nil => exact absurd hb (List.not_mem_nil)
  | cons a r ih =>
    rw [List.find?_cons]
    cases ha : p a with
    | true =>
      rcases List.mem_cons.1 hb with rfl | hr
      · exact le_refl _
      · exact List.rel_of_pairwise_cons hl hr
    | false =>
      have hne : b ≠ a := fun e => by rw [e, ha] at hp; exact Bool.false_ne_true hp
      exact ih hl.of_cons ((List.mem_cons.1 hb).resolve_left hne)

/-- A band whose count has reached 32 is no higher than the highest such band. -/
theorem Manger.le_risen {m : Manger} {b : Fin 8} (hb : 0 < b.val) (hup : 32 ≤ m.up[b]) : b.val ≤ m.risen := by
  refine le_find_of_falling (by decide) ?_ ?_
  · simp only [List.mem_cons, List.not_mem_nil, or_false]; omega
  · have hget : (m.up.toList[b.val]?).getD 0 = m.up[b] := by simp
    rw [hget]; exact decide_eq_true hup

theorem Manger.countUp_up (m : Manger) (v : Nat) (b : Fin 8) (h : bandEdge b.val + 2 ≤ v) : (m.countUp v).up[b] = m.up[b] + 1 := by
  show (Vector.ofFn _)[b.val] = _
  rw [Vector.getElem_ofFn, if_pos h]

/-- The measured band after a sample. -/
def State.measured (s : State) (v : Nat) : Nat :=
  if !s.manger.sampled ∨ bandOf 0 v < s.get MNG_BAND_MEAS_BAND then bandOf 0 v
  else max (s.get MNG_BAND_MEAS_BAND) (s.manger.countUp v).risen

theorem State.measured_lt (s : State) (v : Nat) : s.measured v < 8 := by
  have hm : s.get MNG_BAND_MEAS_BAND < 8 := Nat.mod_lt _ (by decide)
  have hb := bandOf_le 0 v
  have hr := (s.manger.countUp v).risen_le
  unfold State.measured
  split <;> omega

theorem State.sampleBand_eq (s : State) (v : Nat) : s.sampleBand v =
    ((s.modManger (fun m => { m.countUp v with sampled := true })).put MNG_BAND_MEAS_BAND (s.measured v)).moveBand
      (s.bandFor (s.measured v)) (!s.manger.sampled) := rfl

theorem State.sampleBand_meas (s : State) (v : Nat) : (s.sampleBand v).get MNG_BAND_MEAS_BAND = s.measured v := by
  rw [State.sampleBand_eq, State.moveBand_get _ _ _ (by decide), State.get_put_same _ _ _ (by decide) (by decide)]
  exact Nat.mod_eq_of_lt (s.measured_lt v)

theorem State.sampleBand_vbat (s : State) (v : Nat) : (s.sampleBand v).get MNG_BAND_VBAT = s.get MNG_BAND_VBAT := by
  rw [State.sampleBand_eq, State.moveBand_get _ _ _ (by decide),
    State.get_put_other _ _ (by decide) (by decide) (by decide)]
  rfl

theorem State.sampleBand_still (s : State) (v : Nat) : s.Still (s.sampleBand v) := by
  rw [State.sampleBand_eq]
  exact ((State.Still.manger (State.mangerOnly_modManger s _)).trans (State.Still.put _ _ _)).trans (State.moveBand_still _ _ _)

theorem State.moveBand_sampled (s : State) (b : Nat) (quiet : Bool) : (s.moveBand b quiet).manger.sampled = s.manger.sampled := by
  have hraise (t : State) (f : Field) : (t.raise f).manger.sampled = t.manger.sampled := by rw [State.raise_manger]
  have hite {p : Prop} [Decidable p] {t u : State} (ht : t.manger.sampled = s.manger.sampled)
      (hu : u.manger.sampled = s.manger.sampled) : (if p then t else u).manger.sampled = s.manger.sampled := by
    split <;> assumption
  unfold State.moveBand
  have hmoved : ((s.put MNG_BAND_CHARGE_BAND b).modManger (·.recharge (s.put MNG_BAND_CHARGE_BAND b).mngF)).manger.sampled =
      s.manger.sampled := rfl
  have hflag := hite (p := quiet) hmoved (hite (p := b < s.get MNG_BAND_CHARGE_BAND)
    ((hraise _ MNG_FLAGS_BAND_DOWN).trans hmoved) ((hraise _ MNG_FLAGS_BAND_UP).trans hmoved))
  exact hite rfl (hite ((hraise _ MNG_FLAGS_DEBT).trans hflag) hflag)

theorem State.sampleBand_sampled (s : State) (v : Nat) : (s.sampleBand v).manger.sampled = true := by
  rw [State.sampleBand_eq, State.moveBand_sampled]; rfl

/-- The ration check's snapshot. -/
def State.rationsShown (s : State) : State :=
  (s.put CONS_RATIONS_HELD_SUM s.manger.heldSum).put CONS_RATIONS_FREE s.manger.free

theorem State.checkRations_eq (s : State) : s.checkRations =
    if s.manger.heldSum + s.manger.free = s.mngTotal then s.rationsShown
    else s.rationsShown.report 0 (BitVec.ofNat 20 s.manger.heldSum) := rfl

theorem State.rationsShown_rg (s : State) {a : Nat} (h : a ≠ CONS_RATIONS) : s.rationsShown.rg a = s.rg a := by
  rw [State.rationsShown, State.rg_put_ne _ _ _ h, State.rg_put_ne _ _ _ h]

theorem State.checkRations_get (s : State) {f : Field} (h : f.reg < CONS_RATIONS) : s.checkRations.get f = s.get f := by
  have hshown : s.rationsShown.get f = s.get f := by rw [State.get, State.rationsShown_rg s h.ne, State.get]
  rw [State.checkRations_eq]
  exact get_ite hshown ((State.report_get_low _ _ _ (Nat.lt_trans h (by decide))).trans hshown)

theorem State.checkRations_still (s : State) : s.Still s.checkRations := by
  have hshown : s.Still s.rationsShown := (State.Still.put s _ _).trans (State.Still.put _ _ _)
  rw [State.checkRations_eq]
  exact State.Still.ite hshown (hshown.trans (State.Still.report _ _ _))

theorem State.checkRations_manger (s : State) : s.checkRations.manger = s.manger := by
  rw [State.checkRations_eq]
  split
  · rfl
  · exact State.report_manger _ _ _

theorem exec_vbatSample_on {s : State} (h : s.notDormant = true) (vbat : BitVec 10) : exec (.vbatSample vbat) s =
    .next ((s.put MNG_BAND_VBAT vbat.toNat).sampleBand vbat.toNat).checkRations := by
  show execVbatSample vbat s = _
  rw [execVbatSample, State.during, if_pos h]

/-- The measured band of a sample, through the write of VBAT itself. -/
theorem State.measured_put_vbat (s : State) (n v : Nat) : (s.put MNG_BAND_VBAT n).measured v = s.measured v := by
  have hmeas : (s.put MNG_BAND_VBAT n).get MNG_BAND_MEAS_BAND = s.get MNG_BAND_MEAS_BAND :=
    State.get_put_other _ _ (by decide) (by decide) (by decide)
  rw [State.measured, hmeas]; rfl

/-- Settles O20: each is a write of its fields, and a sample moves the measured band by `countUp`. -/
theorem mangerCommandEffects : Obligations.MangerCommandEffects := by
  unfold Obligations.MangerCommandEffects
  intro s hon ceil
  refine ⟨fun v hclk => ⟨fun hbad => ?refused, fun hp0 hfits hceil => ?taken⟩, fun vbat => ?sample, ?patience, fun c e => ?resv⟩
  case refused =>
    refine ⟨_, exec_poolWrite_clocked hclk v, ?_⟩
    rw [State.writePool_eq]
    simp only [if_pos (show v.toNat % 1024 = 0 ∨ min (v.toNat % 1024) (s.get MNG_CEIL_CEILING) <
      (s.put MNG_POOL_BAND_FLOOR (v.toNat / 1024 % 8)).manger.heldSum from hbad)]
    have hstill := ((State.Still.put s MNG_POOL_BAND_FLOOR (v.toNat / 1024 % 8)).trans (State.Still.raise _ MNG_FLAGS_POOL_REFUSED))
    have hmove := State.moveBand_still ((s.put MNG_POOL_BAND_FLOOR (v.toNat / 1024 % 8)).raise MNG_FLAGS_POOL_REFUSED)
      (State.bandFor ((s.put MNG_POOL_BAND_FLOOR (v.toNat / 1024 % 8)).raise MNG_FLAGS_POOL_REFUSED)
        (State.get ((s.put MNG_POOL_BAND_FLOOR (v.toNat / 1024 % 8)).raise MNG_FLAGS_POOL_REFUSED) MNG_BAND_MEAS_BAND)) false
    refine ⟨?_, ?_, (hstill.trans hmove).mem, (hstill.trans hmove).cores⟩
    · rw [State.moveBand_get _ _ _ (by decide), State.raise_get_ne _ _ (by decide),
        State.get_put_other _ _ (by decide) (by decide) (by decide)]
    · rw [State.moveBand_test _ _ _ (by decide), State.raise_self _ _ (by decide) (by decide)]
  case taken =>
    have hok : ¬ (v.toNat % 1024 = 0 ∨ min (v.toNat % 1024) (s.get MNG_CEIL_CEILING) <
        (s.put MNG_POOL_BAND_FLOOR (v.toNat / 1024 % 8)).manger.heldSum) :=
      not_or.2 ⟨hp0, Nat.not_lt.2 hfits⟩
    have hlt : min (v.toNat % 1024) (s.get MNG_CEIL_CEILING) < 1024 := (min_le_left _ _).trans_lt (Nat.mod_lt _ (by decide))
    refine ⟨_, exec_poolWrite_clocked hclk v, ?_⟩
    rw [State.writePool_eq]
    simp only [if_neg hok]
    have hpool : ((s.put MNG_POOL_BAND_FLOOR (v.toNat / 1024 % 8)).poolMoved
        (min (v.toNat % 1024) (s.get MNG_CEIL_CEILING))).get MNG_POOL_POOL = min (v.toNat % 1024) (s.get MNG_CEIL_CEILING) :=
      (State.get_put_same _ _ _ (by decide) (by decide)).trans (Nat.mod_eq_of_lt hlt)
    have hstill := (State.Still.put s MNG_POOL_BAND_FLOOR (v.toNat / 1024 % 8)).trans
      (State.poolMoved_still _ (min (v.toNat % 1024) (s.get MNG_CEIL_CEILING)))
    generalize State.poolMoved _ _ = u at hpool hstill
    have hboth := State.Still.ite (p := s.get MNG_CEIL_CEILING < v.toNat % 1024) (hstill.trans (State.Still.raise _ MNG_FLAGS_CLAMPED)) hstill
    have hpoolBoth := get_ite (p := s.get MNG_CEIL_CEILING < v.toNat % 1024)
      ((State.raise_get_ne MNG_FLAGS_CLAMPED u (g := MNG_POOL_POOL) (by decide)).trans hpool) hpool
    refine ⟨?_, fun hclamp => ?_, (hboth.trans (State.moveBand_still _ _ _)).mem, (hboth.trans (State.moveBand_still _ _ _)).cores⟩
    · rw [State.moveBand_get _ _ _ (by decide)]; exact hpoolBoth
    · rw [State.moveBand_test _ _ _ (by decide), if_pos hclamp, State.raise_self _ _ (by decide) (by decide)]
  case sample =>
    refine ⟨_, exec_vbatSample_on hon vbat, ?_⟩
    have hmeas : ((s.put MNG_BAND_VBAT vbat.toNat).sampleBand vbat.toNat).checkRations.get MNG_BAND_MEAS_BAND =
        s.measured vbat.toNat := by
      rw [State.checkRations_get _ (by decide), State.sampleBand_meas, State.measured_put_vbat]
    have hstill := ((State.Still.put s MNG_BAND_VBAT vbat.toNat).trans (State.sampleBand_still _ vbat.toNat)).trans
      (State.checkRations_still _)
    refine ⟨?_, hstill.mem, hstill.cores, fun hfirst => ⟨?_, ?_⟩, fun hlater hlow => ?_, fun b hb hlater hge hup hedge => ?_⟩
    · rw [State.checkRations_get _ (by decide), State.sampleBand_vbat, State.get_put_same _ _ _ (by decide) (by decide)]
      exact Nat.mod_eq_of_lt vbat.isLt
    · rw [hmeas, State.measured, hfirst]; rfl
    · rw [State.checkRations_manger, State.sampleBand_sampled]
    · rw [hmeas, State.measured, if_pos (Or.inr hlow)]
    · have hno : ¬ ((!s.manger.sampled) = true ∨ bandOf 0 vbat.toNat < s.get MNG_BAND_MEAS_BAND) := by
        rw [hlater]; simpa using hge
      rw [hmeas, State.measured, if_neg hno]
      refine (Manger.le_risen hb ?_).trans (le_max_right _ _)
      rw [Manger.countUp_up _ _ _ hedge]; omega
  case patience =>
    show execPatienceExpiry s = _
    rw [execPatienceExpiry, State.during, if_pos hon]
    rfl
  case resv =>
    intro a harmed hresv hreach
    have hdue : a.status = .armed ∧ a.resv ≠ 0 ∧ s.reached (a.fire - BitVec.ofNat 40 (s.get MNG_LEAD_LEAD)) = true :=
      ⟨harmed, hresv, decide_eq_true hreach⟩
    have hexec : exec (.reservationRequest c e) s = .next ((s.addWait (resvId c e.val) 3 (.resv c e.val)).modCore c
        (fun x => { x with acts := x.acts.set e { a with status := .reserving } })) := by
      show execReservationRequest c e s = _
      rw [execReservationRequest, State.during, if_pos hon, if_pos hdue]
    refine ⟨_, hexec, ?_, rfl, rfl, rfl⟩
    · rw [State.core_modCore_same]
      show ((s.core c).acts.set e.val _)[e.val] = _
      rw [Vector.getElem_set_self]

end Sys2Proof.Machine
end

section
/-! SUPPORT. A device that has stopped (R43, R411, R461) and the state after reset (R6, R7), and the statements about them. -/

set_option Elab.async false

namespace Sys2Proof.Machine

/-! ## What does not run on a device that has stopped -/

section Stopped

variable {s : State} (h : s.stopped = true)
include h

theorem State.clocked_stopped : s.clocked = false := by rw [State.clocked, h, Bool.not_true, Bool.false_and]
theorem State.inRun_stopped : s.inRun = false := by rw [State.inRun, h, Bool.not_true, Bool.false_and]
theorem State.inAir_stopped : s.inAir = false := by rw [State.inAir, h, Bool.not_true, Bool.false_and]
theorem State.notDormant_stopped : s.notDormant = false := by rw [State.notDormant, h, Bool.not_true, Bool.false_and]

theorem State.runs_stopped (c : CoreId) : s.runs c = false := by
  rw [State.runs, State.clocked_stopped h, Bool.and_false, Bool.false_and]

end Stopped

theorem State.during_off {s : State} {on : Bool} (h : on = false) (o : Out) : s.during on o = .next s := by
  rw [State.during, h, if_neg Bool.false_ne_true]

/-- The shape of every instruction of a core that does not run. -/
theorem next_of_runs_false {s : State} {c : CoreId} (h : s.runs c = false) (t : State) :
    (.next (if s.runs c then t else s) : Out) = .next s := by rw [h, if_neg Bool.false_ne_true]

/-- Settles O59: a command either runs in `live`, in `during` what is off, or on a core that does not run; those that
test `stopped` themselves are named. -/
theorem stoppedDeviceKeepsItsState : Obligations.StoppedDeviceKeepsItsState := by
  unfold Obligations.StoppedDeviceKeepsItsState
  intro i s h ha
  have hclk := State.clocked_stopped h
  have hstopped (p : Bool) : (s.stopped || p) = true := by rw [h, Bool.true_or]
  have hstopped' (p : Prop) : s.stopped = true ∨ p := Or.inl h
  cases i
  case watRelease c =>
    show execWatRelease c s = _
    unfold execWatRelease
    dsimp only
    split
    · rw [hclk, Bool.false_and, if_neg Bool.false_ne_true]
    · rfl
  case wevEvent c =>
    show execWevEvent c s = _
    unfold execWevEvent
    dsimp only
    split
    · split
      · rw [hclk, if_neg Bool.false_ne_true]
      · rfl
    · rfl
  case wevTimeout c =>
    show execWevTimeout c s = _
    unfold execWevTimeout
    dsimp only
    split
    · rw [hclk, Bool.not_false, if_pos (Or.inl rfl)]
    · rfl
  case takeTimeout c =>
    show execTakeTimeout c s = _
    unfold execTakeTimeout
    dsimp only
    split
    · rw [hclk, Bool.not_false, if_pos (Or.inl rfl)]
    · rfl
  case storeVisible c => show execStoreVisible c s = _; rw [execStoreVisible, hclk, if_neg Bool.false_ne_true]
  case interruptEntry c =>
    show execInterruptEntry c s = _
    unfold execInterruptEntry
    dsimp only
    split
    · rw [hclk, if_neg (fun hc => Bool.false_ne_true hc.2)]
    · rfl
  case refFail =>
    show execRefFail s = _
    rw [execRefFail, Bool.or_assoc, hstopped, if_pos rfl]
  case referenceReady =>
    show execReferenceReady s = _
    rw [execReferenceReady, Bool.or_assoc, Bool.or_assoc, hstopped, if_pos rfl]
  case systemPllLock => show execSystemPllLock s = _; rw [execSystemPllLock, h]; rfl
  case enterRest => show execEnterRest s = _; rw [execEnterRest, hclk, if_neg Bool.false_ne_true]
  case enterOrbit => show execEnterOrbit s = _; rw [execEnterOrbit, hclk, if_neg Bool.false_ne_true]
  case enterDormant => show execEnterDormant s = _; rw [execEnterDormant, hclk, if_neg Bool.false_ne_true]
  case sleepEntryBegin =>
    show execSleepEntryBegin s = _
    rw [execSleepEntryBegin, Bool.or_assoc, Bool.or_assoc, hstopped, if_pos rfl]
  case actionWake =>
    show execActionWake s = _
    rw [execActionWake, Bool.or_assoc, Bool.or_assoc, hstopped, if_pos rfl]
  case wake ws =>
    have hws : (ws == WakeSource.hitch) = false := by cases ws <;> first | rfl | exact absurd ha (by decide)
    show execWake ws s = _
    unfold execWake
    dsimp only
    rw [hws, if_neg Bool.false_ne_true, hstopped, if_pos rfl]
  case dormantExit ws =>
    have hws : (ws == WakeSource.hitch) = false := by cases ws <;> first | rfl | exact absurd ha (by decide)
    show execDormantExit ws s = _
    unfold execDormantExit
    dsimp only
    rw [hws, if_neg Bool.false_ne_true, h]
    rfl
  case orbitPassStart =>
    show execOrbitPassStart s = _
    rw [execOrbitPassStart, Bool.or_assoc, hstopped, if_pos rfl]
  case halterModeInForce => show execHalterModeInForce s = _; rw [execHalterModeInForce, if_pos (hstopped' _)]
  case keeperOrderDone ok =>
    show execKeeperOrderDone ok s = _
    unfold execKeeperOrderDone
    split
    · rfl
    · rw [if_pos (hstopped' _)]
  case startTimeout =>
    show execStartTimeout s = _
    unfold execStartTimeout
    split
    · rfl
    · dsimp only; rw [if_pos (hstopped' _)]
  all_goals first
    | exact State.stopped_live s _ h
    | exact State.during_off hclk _
    | exact State.during_off (State.notDormant_stopped h) _
    | exact State.during_off (State.inRun_stopped h) _
    | exact State.during_off (State.inAir_stopped h) _
    | exact next_of_runs_false (State.runs_stopped h _) _
    | exact Bool.noConfusion (ha : true = false)

/-! ## The state after reset -/

theorem tabGet_nil {α : Type} (d : Nat → α) (k : Nat) : tabGet d [] k = d k := rfl

/-- Settles O56: every table of the reset state is empty, so that each entry reads its default. -/
theorem resetState : Obligations.ResetState := by
  unfold Obligations.ResetState
  refine ⟨fun a => tabGet_nil regReset a, State.reset_wf, ?conserved, rfl, rfl, rfl, rfl, fun c => ?cores, rfl, rfl, rfl, rfl, ?run,
    ?cal, ?rfe, ?yst, ?bypass, fun c w => tabGet_nil loftDflt _, fun f => tabGet_nil flashDflt f, ?dma⟩
  case cores =>
    have hcore : State.reset.core c = CoreSt.reset := by revert c; decide
    rw [hcore]
    refine ⟨rfl, rfl, rfl, rfl, rfl, fun e => ?_⟩
    revert e; decide
  case conserved => show State.reset.manger.total = State.reset.mngTotal; decide
  case run => decide
  case cal => decide
  case rfe => decide
  case yst => decide
  case bypass => decide
  case dma => decide

end Sys2Proof.Machine
end

section
/-! SUPPORT. The conservation of the rations (R41) does not survive every command: a concrete state. -/

set_option Elab.async false

namespace Sys2Proof.Machine

/-- A conserved state whose one account belongs to program holder 16 and is listed as unscaled, at a factor above 16:
the 1023 rations of the pool are the holder's whole amount. Core 0 runs, and its w1 names holder 16 and the amount 1. -/
def unscaledProgram : State :=
  { State.reset.setCore 0 { CoreSt.reset with run := .running, w := CoreSt.reset.w.set 1 1040 } with
    manger := { Manger.reset with free := 0, accts := [⟨16, 1023, 1, false, 1023, 0⟩] } }

theorem unscaledProgram_runs : unscaledProgram.runs 0 = true := by decide

theorem unscaledProgram_sound :
    unscaledProgram.conserved ∧ (unscaledProgram.manger.accts.map (·.id)).Pairwise (· < ·) ∧
      ∀ a ∈ unscaledProgram.manger.accts, a.held + a.short = a.charge unscaledProgram.mngF := by
  unfold State.conserved; decide

/-- The `give` of one ration lists the rest at the scaled charge, 1406, of which the holder keeps more than the pool has. -/
theorem unscaledProgram_give : ¬ (unscaledProgram.give 16 1).2.conserved := by
  unfold State.conserved; decide

theorem State.conserved_modCore (s : State) (c : CoreId) (f : CoreSt → CoreSt) : (s.modCore c f).conserved ↔ s.conserved := Iff.rfl

/-- Refutes O60: a `give` of one ration from an account of a program holder that is listed as unscaled sets the account's
charge at the factor 22, and what the holder then holds is no longer what the pool has. -/
theorem not_rationsConserved : ¬ Obligations.RationsConserved := by
  unfold Obligations.RationsConserved
  intro h
  obtain ⟨-, -, -, -, -, hprogram, -⟩ := h unscaledProgram unscaledProgram_sound
  obtain ⟨t, hstep, hcons, -⟩ := (hprogram 0 2 1 0).2
  rw [exec_iGive_runs (h := 16) (m := 1) unscaledProgram_runs (by decide) (by decide)] at hstep
  injection hstep with ht
  rw [← ht, State.conserved_modCore] at hcons
  exact unscaledProgram_give hcons

end Sys2Proof.Machine
end

section
/-! SUPPORT. Loads and stores (R52-R56, R77, R98, R101, R111, R115): the ranges of the map, the faults that the address
and the gates give, loads from the RAMs with and without errors, and the statement about them. -/

set_option Elab.async false

namespace Sys2Proof.Machine

/-! ## The ranges of the map (R114) -/

/-- The addresses at which one range of the core's map ends and the next begins. -/
def mapEdges : List Nat :=
  [0xA0000, 0xA8000, 0xB0000, 0xB8000, 0xC0000, 0xD4000, 0xE0000, 0xE4000, 0xF0000, 0x100000]

theorem regionOf_gate {a : Nat} {g : Nat} (hg : g < 4) (hlo : 0xA0000 + 0x8000 * g ≤ a) (hhi : a < 0xA8000 + 0x8000 * g) :
    regionOf a = .gate g := by
  rw [regionOf, if_neg (by omega), if_pos (by omega)]
  congr 1; omega

theorem regionOf_regs {a : Nat} (hlo : 0xC0000 ≤ a) (hhi : a < 0xD4000) : regionOf a = .regs := by
  rw [regionOf, if_neg (by omega), if_neg (by omega), if_pos hhi]

theorem regionOf_gap {a : Nat} (hlo : 0xD4000 ≤ a) (hhi : a < 0xE0000) : regionOf a = .gap := by
  rw [regionOf, if_neg (by omega), if_neg (by omega), if_neg (by omega), if_pos hhi]

theorem regionOf_hole {a : Nat} (hlo : 0xE4000 ≤ a) (hhi : a < 0xF0000) : regionOf a = .hole := by
  rw [regionOf, if_neg (by omega), if_neg (by omega), if_neg (by omega), if_neg (by omega), if_neg (by omega), if_pos hhi]

theorem regionOf_rom {a : Nat} (hlo : 0xF0000 ≤ a) : regionOf a = .rom := by
  rw [regionOf, if_neg (by omega), if_neg (by omega), if_neg (by omega), if_neg (by omega), if_neg (by omega),
    if_neg (by omega)]

/-- Two addresses of one range lie on the same side of every edge. -/
theorem lt_edge_of_regionOf_eq {a a' b : Nat} (hb : b ∈ mapEdges) (htop : b < 0x100000) (h : regionOf a = regionOf a')
    (ha : a < b) : a' < b := by
  by_contra hlt
  simp only [mapEdges, List.mem_cons, List.not_mem_nil, or_false] at hb
  unfold regionOf at h
  split_ifs at h <;> simp only [Region.gate.injEq, reduceCtorEq] at h <;> omega

/-! ## The detail found as an address is formed -/

section Address

variable (s : State) (c : CoreId) (wr : Bool) {e n : Nat}

/-- What a range of the map refuses. -/
def State.rangeFault : Region → Nat
  | .rom => if wr then 2 else 0
  | .gap | .hole => 3
  | .regs => if swPriv (s.core c).sw || s.taskMay c e n then 0 else 7
  | _ => 0

/-- An access within one range meets what that range gives. -/
theorem State.addrFault_within (hn : 0 < n) (htop : e + n ≤ 0x100000) (hsame : regionOf (e + n - 1) = regionOf e) :
    s.addrFault c wr e n = s.rangeFault c wr (e := e) (n := n) (regionOf e) := by
  unfold State.addrFault
  rw [if_neg (not_or.mpr ⟨by omega, fun h => h hsame.symm⟩)]
  cases regionOf e <;> rfl

theorem State.addrFault_edge {b : Nat} (hb : b ∈ mapEdges) (hlo : e < b) (hhi : b < e + n) :
    s.addrFault c wr e n = 1 := by
  refine if_pos ?_
  by_cases htop : b < 0x100000
  · refine .inr fun h => ?_
    have := lt_edge_of_regionOf_eq hb htop h hlo
    omega
  · exact .inl (by omega)

theorem State.addrFault_reserved (hn : 0 < n) (h : 0xD4000 ≤ e ∧ e + n ≤ 0xE0000 ∨ 0xE4000 ≤ e ∧ e + n ≤ 0xF0000) :
    s.addrFault c wr e n = 3 := by
  rcases h with ⟨hlo, hhi⟩ | ⟨hlo, hhi⟩
  · have hr := regionOf_gap hlo (by omega)
    rw [s.addrFault_within c wr hn (by omega) ((regionOf_gap (by omega) (by omega)).trans hr.symm), hr]
    rfl
  · have hr := regionOf_hole hlo (by omega)
    rw [s.addrFault_within c wr hn (by omega) ((regionOf_hole (by omega) (by omega)).trans hr.symm), hr]
    rfl

theorem State.addrFault_rom (hn : 0 < n) (hlo : 0xF0000 ≤ e) (hhi : e + n ≤ 0x100000) : s.addrFault c true e n = 2 := by
  have hr := regionOf_rom hlo
  rw [s.addrFault_within c true hn hhi ((regionOf_rom (by omega)).trans hr.symm), hr]
  rfl

/-- Task mode reaches a register block by its permission only (R101). -/
theorem State.addrFault_task (hn : 0 < n) (hlo : 0xC0000 ≤ e) (hhi : e + n ≤ 0xD4000) (hsmall : n ≤ 0x1000)
    (htask : (s.core c).sw.getLsbD 19 = false)
    (hperm : ∃ i < n, (s.rg (CC_TASKPERM c.val)).getLsbD ((e + i - 0xC0000) / 0x1000) = false) :
    s.addrFault c wr e n = 7 := by
  have hr := regionOf_regs hlo (by omega)
  have hmay : s.taskMay c e n = false := by
    obtain ⟨i, hi, hbit⟩ := hperm
    have hends : (e + i - 0xC0000) / 0x1000 = (e - 0xC0000) / 0x1000 ∨
        (e + i - 0xC0000) / 0x1000 = (e + n - 1 - 0xC0000) / 0x1000 := by omega
    unfold State.taskMay
    rcases hends with h | h <;> rw [h] at hbit <;> simp [hbit]
  rw [s.addrFault_within c wr hn (by omega) ((regionOf_regs (by omega) (by omega)).trans hr.symm), hr]
  exact if_neg (by rw [hmay, Bool.or_false]; exact Bool.eq_false_iff.mp htask)

theorem State.addrFault_gate (hn : 0 < n) {g : Nat} (hg : g < 4) (hlo : 0xA0000 + 0x8000 * g ≤ e)
    (hhi : e + n ≤ 0xA8000 + 0x8000 * g) : s.addrFault c wr e n = 0 := by
  have hr := regionOf_gate hg hlo (by omega)
  rw [s.addrFault_within c wr hn (by omega) ((regionOf_gate hg (by omega) (by omega)).trans hr.symm), hr]
  rfl

/-- The RAM that a core reaches at an address. -/
theorem Ram.spans.region {r : Ram} (hn : 0 < n) (h : r.spans c e n) :
    regionOf e = .sram ∧ r = .sram ∨ regionOf e = .own ∧ r = .pram c := by
  rcases h with ⟨hr, hhi⟩ | ⟨hr, hlo, hhi⟩
  · exact .inl ⟨regionOf_sram (by omega), hr⟩
  · exact .inr ⟨regionOf_own hlo (by omega), hr⟩

theorem State.addrFault_ram {r : Ram} (hn : 0 < n) (h : r.spans c e n) : s.addrFault c wr e n = 0 := by
  rcases h with ⟨-, hhi⟩ | ⟨-, hlo, hhi⟩
  · have hr := regionOf_sram (a := e) (by omega)
    rw [s.addrFault_within c wr hn (by omega) ((regionOf_sram (by omega)).trans hr.symm), hr]
    rfl
  · have hr := regionOf_own hlo (by omega)
    rw [s.addrFault_within c wr hn (by omega) ((regionOf_own (by omega) (by omega)).trans hr.symm), hr]
    rfl

end Address

/-! ## What `load` and `store` do -/

section Access

variable {s : State} {c : CoreId} (w : Nat) {a : W20} {n : Nat} (f : CoreSt → List Byte → CoreSt)

theorem State.load_addrFault {k : Nat} (h : s.addrFault c false a.toNat n = k) (hk : k ≠ 0) :
    s.load c w a n f = s.dataFault c k a := by
  unfold State.load
  rw [h]
  cases k with
  | zero => exact absurd rfl hk
  | succ k => rfl

theorem State.store_addrFault {bs : List Byte} {word : Bool} {k : Nat} (h : s.addrFault c true a.toNat bs.length = k)
    (hk : k ≠ 0) : s.store c w a bs word = s.dataFault c k a := by
  unfold State.store
  rw [h]
  cases k with
  | zero => exact absurd rfl hk
  | succ k => rfl

/-- A load with no store waiting whose address has passed. -/
theorem State.load_empty (hrun : s.runs c = true) (hst : (s.core c).stores = []) (h : s.addrFault c false a.toNat n = 0)
    {k : Nat} {d : List Byte} {u : State} (hb : s.loadBytes c a.toNat n = (k, d, u)) :
    s.load c w a n f = if k = 0 then u.modCore c (fun x => (f x d).advance w) else u.dataFault c k a := by
  unfold State.load
  rw [h]
  simp only [hst, storesMet, State.drain, hrun, Bool.not_true, Bool.false_eq_true, if_false, hb]
  cases k <;> rfl

theorem State.loadBytes_ram {r : Ram} {e : Nat} (hn : 0 < n) (h : r.spans c e n) :
    s.loadBytes c e n = (match s.ramRead r e n with
      | (some d, t) => (0, d, t)
      | (none, t) => (6, [], t)) := by
  unfold State.loadBytes
  rcases h.region c hn with ⟨hr, rfl⟩ | ⟨hr, rfl⟩ <;> rw [hr] <;> rfl

theorem State.loadBytes_gate_off {g e : Nat} (hg : g < 4) (hn : 0 < n) (hlo : 0xA0000 + 0x8000 * g ≤ e)
    (hhi : e + n ≤ 0xA8000 + 0x8000 * g) (hoff : s.test (GATE_CTL_EN g) = false) : s.loadBytes c e n = (4, [], s) := by
  have hfault : s.gateFault g false (swPriv (s.core c).sw) e n = 4 := by
    unfold State.gateFault; rw [hoff]; rfl
  unfold State.loadBytes
  rw [regionOf_gate hg hlo (by omega)]
  show s.gateRead c g e n = _
  unfold State.gateRead
  rw [hfault]
  rfl

/-- A load of bytes without errors. -/
theorem State.load_good {r : Ram} (hrun : s.runs c = true) (hst : (s.core c).stores = []) (hn : 0 < n)
    (h : r.spans c a.toNat n) (hg : s.allGood r a.toNat n) :
    s.load c w a n f = s.setCore c ((f (s.core c) (s.bytes r a.toNat n)).advance w) := by
  have hb : s.loadBytes c a.toNat n = (0, s.bytes r a.toNat n, s) := by
    rw [State.loadBytes_ram hn h, s.ramRead_good _ _ _ hg]
  exact (State.load_empty w f hrun hst (s.addrFault_ram c false hn h) hb).trans rfl

theorem State.load_gate_off {g : Nat} (hg : g < 4) (hrun : s.runs c = true) (hst : (s.core c).stores = []) (hn : 0 < n)
    (hlo : 0xA0000 + 0x8000 * g ≤ a.toNat) (hhi : a.toNat + n ≤ 0xA8000 + 0x8000 * g)
    (hoff : s.test (GATE_CTL_EN g) = false) : s.load c w a n f = s.dataFault c 4 a :=
  (State.load_empty w f hrun hst (s.addrFault_gate c false hn hg hlo hhi)
    (State.loadBytes_gate_off hg hn hlo hhi hoff)).trans rfl

theorem State.store_gate {bs : List Byte} {word : Bool} {g : Nat} (hg : g < 4) (hrun : s.runs c = true)
    (hst : (s.core c).stores = []) (hn : 0 < bs.length) (hlo : 0xA0000 + 0x8000 * g ≤ a.toNat)
    (hhi : a.toNat + bs.length ≤ 0xA8000 + 0x8000 * g)
    (hoff : s.test (GATE_CTL_EN g) = false ∨ s.test (GATE_CTL_WRITE g) = false) :
    s.store c w a bs word = s.dataFault c 4 a := by
  have hfault : s.gateFault g true (swPriv (s.core c).sw) a.toNat bs.length = 4 := by
    unfold State.gateFault
    rcases hoff with h | h
    · rw [h]; rfl
    · simp only [h, Bool.not_false, Bool.and_true, if_true]
      split_ifs <;> rfl
  have hwrite : s.gateWrite c g a.toNat bs = (4, s) := by unfold State.gateWrite; rw [hfault]; rfl
  unfold State.store
  rw [s.addrFault_gate c true hn hg hlo hhi, regionOf_gate hg hlo (by omega)]
  simp only [State.drainAll, hst, List.length_nil, State.drain, hrun, Bool.not_true, Bool.false_eq_true, if_false, hwrite]

/-- A store to a RAM enters the buffer that has room. -/
theorem State.store_enters {bs : List Byte} {word : Bool} {r : Ram} (hrun : s.runs c = true)
    (hroom : (s.core c).stores.length < 4) (hn : 0 < bs.length) (h : r.spans c a.toNat bs.length) :
    s.store c w a bs word = s.setCore c (CoreSt.advance { s.core c with
      stores := (s.core c).stores ++ [⟨a, bs, word, (s.core c).sw.getLsbD 19⟩] } w) := by
  unfold State.store
  rw [s.addrFault_ram c true hn h]
  rcases h.region c hn with ⟨hr, -⟩ | ⟨hr, -⟩ <;> rw [hr] <;>
    simp only [Nat.not_le.mpr hroom, if_false, hrun, Bool.not_true, Bool.false_eq_true] <;> rfl

end Access

/-! ## A load that meets an error -/

/-- What reports and spare records leave: memory, the cores' bare state, and every status bit that is set. -/
structure State.Logged (s t : State) : Prop where
  still : s.Still t
  marks : ∀ j, j < 40 → s.test (faultBit j) = true → t.test (faultBit j) = true

namespace State.Logged

theorem refl (s : State) : s.Logged s := ⟨State.Still.rfl' s, fun _ _ h => h⟩

theorem trans {s t u : State} (h : s.Logged t) (g : t.Logged u) : s.Logged u :=
  ⟨h.still.trans g.still, fun j hj hs => g.marks j hj (h.marks j hj hs)⟩

theorem report {i : Nat} (hi : i < 40) (d : W20) (s : State) : s.Logged (s.report i d) :=
  ⟨State.Still.report s i d, fun _ hj h => State.report_test_src hi hj d h⟩

/-- A change of the fields that no byte, core or register stands in. -/
theorem of_eq {s t : State} (hsram : t.sram = s.sram) (hpram : t.pram = s.pram) (hloft : t.loft = s.loft)
    (hflash : t.flash = s.flash) (hcores : t.cores = s.cores) (hregs : t.regs = s.regs) : s.Logged t :=
  ⟨⟨State.memKept_of_tables hsram hpram hloft hflash, fun c => by rw [State.core, State.core, hcores]⟩,
    fun j _ h => (State.test_of_rg (by rw [State.rg, State.rg, hregs])).trans h⟩

theorem otp (s : State) (x : Otp) : s.Logged { s with otp := x } := of_eq rfl rfl rfl rfl rfl rfl

theorem faults (s : State) (x : Faults) : s.Logged { s with faults := x } := of_eq rfl rfl rfl rfl rfl rfl

theorem setChk (s : State) (k : Nat) (x : Chk) : s.Logged (s.setChk k x) := of_eq rfl rfl rfl rfl rfl rfl

theorem put (s : State) {f : Field} (n : Nat) (hf : f.reg ≠ FLT_SRC0 ∧ f.reg ≠ FLT_SRC1) : s.Logged (s.put f n) :=
  ⟨State.Still.put s f n, fun j _ h => (State.test_put_ne s n (by
    rcases faultBit_reg j with e | e <;> rw [e]
    · exact hf.1.symm
    · exact hf.2.symm)).trans h⟩

theorem ite {s t u : State} {p : Prop} [Decidable p] (ht : s.Logged t) (hu : s.Logged u) : s.Logged (if p then t else u) := by
  split <;> assumption

theorem foldl {α : Type} {f : State → α → State} (hf : ∀ (s : State) (x : α), s.Logged (f s x)) (l : List α) (s : State) :
    s.Logged (l.foldl f s) := by
  induction l generalizing s with
  | nil => exact refl s
  | cons x l ih => exact (hf s x).trans (ih _)

end State.Logged

theorem State.logged_commitSpare (kind idx : Nat) (s : State) : s.Logged (s.commitSpare kind idx) := by
  unfold State.commitSpare
  exact State.Logged.ite (State.Logged.report (by decide) _ _)
    (((State.Logged.otp s _).trans (State.Logged.put _ (f := FLT_SPARE_OTPROWS) _ (by decide))).trans
      (State.Logged.report (by decide) _ _))

theorem State.logged_spareOpen (kind idx : Nat) (s : State) : s.Logged (s.spareOpen kind idx) := by
  have htry (t : State) (ok : Bool) : t.Logged (t.spareTry kind idx ok) := by
    unfold State.spareTry
    exact State.Logged.ite (State.logged_commitSpare _ _ _)
      ((State.Logged.otp t _).trans (State.Logged.put _ (f := FLT_SPARE_OTPROWS) _ (by decide)))
  have hfresh : s.Logged s.fresh.2 := State.Logged.of_eq rfl rfl rfl rfl rfl rfl
  exact hfresh.trans (htry s.fresh.2 _)

theorem State.logged_trackRow (kind idx : Nat) (s : State) : s.Logged (s.trackRow kind idx) := by
  unfold State.trackRow
  exact State.Logged.ite (State.Logged.refl s)
    (State.Logged.ite (((State.Logged.faults s _).trans (State.Logged.faults _ _)).trans (State.logged_spareOpen _ _ _))
      (State.Logged.faults s _))

theorem State.logged_ramTrack (r : Ram) (g : Nat) (s : State) : s.Logged (s.ramTrack r g) := by
  cases r with
  | sram => exact State.logged_trackRow _ _ _
  | pram c => exact State.Logged.refl s

theorem Ram.ce_lt (r : Ram) : r.ce + 1 < 40 := by
  cases r with
  | sram => decide
  | pram c => exact (by decide : 11 + 1 < 40)

/-- The errors of a read leave memory and the cores, and an uncorrectable one is reported (R115). -/
theorem State.logged_ramErrors (r : Ram) (ces ues : List Nat) (s : State) :
    s.Logged (s.ramErrors r ces ues) ∧ (ues ≠ [] → (s.ramErrors r ces ues).test (faultBit (r.ce + 1)) = true) := by
  have hce (t : State) (g : Nat) : t.Logged ((t.setChk (r.group g) .good).report r.ce (r.detail g)) :=
    (State.Logged.setChk t _ _).trans (State.Logged.report (Nat.lt_of_succ_lt r.ce_lt) _ _)
  have hue (t : State) (g : Nat) : t.Logged (t.report (r.ce + 1) (r.detail g)) := State.Logged.report r.ce_lt _ _
  have hces := State.Logged.foldl hce ces s
  have htrack (t : State) := State.Logged.foldl (fun t g => State.logged_ramTrack r g t) ces t
  unfold State.ramErrors
  refine ⟨(hces.trans (State.Logged.foldl hue ues _)).trans (htrack _), fun hne => (htrack _).marks _ r.ce_lt ?_⟩
  cases ues with
  | nil => exact absurd rfl hne
  | cons g l => exact (State.Logged.foldl hue l _).marks _ r.ce_lt (State.report_status r.ce_lt _ _)

theorem mem_groupsOf_of_between {a n k : Nat} (hn : 0 < n) (hlo : a / 4 ≤ k) (hhi : k ≤ (a + n - 1) / 4) :
    4 * k ∈ groupsOf a n := by
  rw [groupsOf, if_neg (by omega), List.mem_map]
  exact ⟨k - a / 4, List.mem_range.mpr (by omega), by omega⟩

/-- A read that meets an uncorrectable error answers no bytes and reports it. -/
theorem State.ramRead_bad (s : State) {r : Ram} {a n k : Nat} (hn : 0 < n) (hlo : a / 4 ≤ k) (hhi : k ≤ (a + n - 1) / 4)
    (hbad : s.chk (r.group (4 * k)) = .bad) :
    ∃ t, s.ramRead r a n = (none, t) ∧ s.Logged t ∧ t.test (faultBit (r.ce + 1)) = true := by
  have hne : (groupsOf a n).filter (s.ramBad r) ≠ [] := by
    refine List.ne_nil_of_mem (a := 4 * k) (List.mem_filter.mpr ⟨mem_groupsOf_of_between hn hlo hhi, ?_⟩)
    rw [State.ramBad, hbad]; rfl
  obtain ⟨hlog, hmark⟩ := State.logged_ramErrors r ((groupsOf a n).filter (fun g => s.chk (r.group g) == .correctable))
    ((groupsOf a n).filter (s.ramBad r)) s
  refine ⟨_, ?_, hlog, hmark hne⟩
  unfold State.ramRead
  rw [if_neg (by rw [List.isEmpty_iff]; exact hne)]

/-- The DATA_FAULT of a load that met an uncorrectable error. -/
theorem State.load_bad {s : State} {c : CoreId} (w : Nat) {a : W20} {n k : Nat} (f : CoreSt → List Byte → CoreSt) {r : Ram}
    (hrun : s.runs c = true) (hact : (s.core c).act.getLsbD 4 = false) (hst : (s.core c).stores = []) (hn : 0 < n)
    (h : r.spans c a.toNat n) (hlo : a.toNat / 4 ≤ k) (hhi : k ≤ (a.toNat + n - 1) / 4)
    (hbad : s.chk (r.group (4 * k)) = .bad) :
    ((s.load c w a n f).core c).ecause = 0x30006 ∧ ((s.load c w a n f).core c).eaddr = a ∧
      ((s.load c w a n f).core c).pc = 2 ∧ ((s.load c w a n f).core c).w = (s.core c).w ∧
      (s.load c w a n f).test (faultBit (r.ce + 1)) = true ∧ s.memKept (s.load c w a n f) := by
  obtain ⟨u, hread, hlog, hmark⟩ := s.ramRead_bad hn hlo hhi hbad
  have hb : s.loadBytes c a.toNat n = (6, [], u) := by rw [State.loadBytes_ram hn h, hread]
  have hbare := hlog.still.cores c
  have hact' : (u.core c).act.getLsbD 4 = false := by
    have hsame : (u.core c).bare.act = (s.core c).bare.act := by rw [hbare]
    exact (congrArg (·.getLsbD 4) hsame).trans hact
  have hw : (u.core c).bare.w = (s.core c).bare.w := by rw [hbare]
  have hload : s.load c w a n f = u.dataFault c 6 a :=
    (State.load_empty w f hrun hst (s.addrFault_ram c false hn h) hb).trans rfl
  have hfault : u.dataFault c 6 a = _ := State.takeException_free u c 3 6 a (u.core c).pc hact'
  rw [hload, hfault, State.core_setCore_same]
  exact ⟨rfl, rfl, rfl, hw, hmark, hlog.still.mem.trans (State.memKept_of_tables rfl rfl rfl rfl)⟩

/-! ## The forms -/

/-- The loads with a destination of the core: their words, effective addresses and bytes. -/
def loadForms (c : CoreId) (d a : RegId) (disp8 : BitVec 8) (imm20 : W20) (x : CoreSt) : List (Instr × W20 × Nat) :=
  [(Instr.iLdw c d a disp8, x.get a + disp8.signExtend 20, 3), (.iLdbu c d a imm20, x.get a + imm20, 1),
    (.iLdbs c d a imm20, x.get a + imm20, 1), (.iLdhu c d a imm20, x.get a + imm20, 2), (.iLdhs c d a imm20, x.get a + imm20, 2),
    (.iLdwl c d a imm20, x.get a + imm20, 3)] ++ (if d.val % 2 = 0 then [(.iLdp c d a imm20, x.get a + imm20, 6)] else [])

/-- The stores. -/
def storeForms (c : CoreId) (d a : RegId) (disp8 : BitVec 8) (imm20 : W20) (x : CoreSt) : List (Instr × W20 × Nat) :=
  [(Instr.iStw c d a disp8, x.get a + disp8.signExtend 20, 3), (.iStb c d a imm20, x.get a + imm20, 1),
    (.iSth c d a imm20, x.get a + imm20, 2), (.iStwl c d a imm20, x.get a + imm20, 3)] ++
    (if d.val % 2 = 0 then [(.iStp c d a imm20, x.get a + imm20, 6)] else [])

theorem tripleOf_length (v : W20) : (tripleOf v).length = 3 := by rw [tripleOf_eq]; rfl

section Forms

variable {c : CoreId} {d a : RegId} {disp8 : BitVec 8} {imm20 : W20} {s : State} (hrun : s.runs c = true)
include hrun

theorem exec_iLdw : exec (.iLdw c d a disp8) s = .next (s.load c 1 ((s.core c).get a + disp8.signExtend 20) 3 (loadTo d id)) := by
  show execILdw c d a disp8 s = _
  rw [execILdw, State.instr_runs _ _ _ hrun]

theorem exec_iLdbu : exec (.iLdbu c d a imm20) s = .next (s.load c 2 ((s.core c).get a + imm20) 1 (loadTo d id)) := by
  show execILdbu c d a imm20 s = _
  rw [execILdbu, State.instr_runs _ _ _ hrun, CoreSt.ea]

theorem exec_iLdbs : exec (.iLdbs c d a imm20) s =
    .next (s.load c 2 ((s.core c).get a + imm20) 1 (loadTo d (fun v => unsigned 20 (signed 8 v)))) := by
  show execILdbs c d a imm20 s = _
  rw [execILdbs, State.instr_runs _ _ _ hrun, CoreSt.ea]

theorem exec_iLdhu : exec (.iLdhu c d a imm20) s = .next (s.load c 2 ((s.core c).get a + imm20) 2 (loadTo d id)) := by
  show execILdhu c d a imm20 s = _
  rw [execILdhu, State.instr_runs _ _ _ hrun, CoreSt.ea]

theorem exec_iLdhs : exec (.iLdhs c d a imm20) s =
    .next (s.load c 2 ((s.core c).get a + imm20) 2 (loadTo d (fun v => unsigned 20 (signed 16 v)))) := by
  show execILdhs c d a imm20 s = _
  rw [execILdhs, State.instr_runs _ _ _ hrun, CoreSt.ea]

theorem exec_iLdwl : exec (.iLdwl c d a imm20) s = .next (s.load c 2 ((s.core c).get a + imm20) 3 (loadTo d id)) := by
  show execILdwl c d a imm20 s = _
  rw [execILdwl, State.instr_runs _ _ _ hrun, CoreSt.ea]

theorem exec_iLdp (hd : d.val % 2 = 0) : exec (.iLdp c d a imm20) s = .next (s.load c 2 ((s.core c).get a + imm20) 6
    (fun y l => (y.set d (wordOf (l.drop 3))).set (oddOf d) (wordOf l))) := by
  have hp : isPair d = true := by simp [isPair, hd]
  show execILdp c d a imm20 s = _
  rw [execILdp, State.instr_runs _ _ _ hrun]
  simp only [hp, Bool.not_true, Bool.false_eq_true, if_false, CoreSt.ea]

theorem exec_iStw : exec (.iStw c d a disp8) s =
    .next (s.store c 1 ((s.core c).get a + disp8.signExtend 20) (tripleOf ((s.core c).get d)) true) := by
  show execIStw c d a disp8 s = _
  rw [execIStw, State.instr_runs _ _ _ hrun]

theorem exec_iStb : exec (.iStb c d a imm20) s =
    .next (s.store c 2 ((s.core c).get a + imm20) (toBytesLE 1 ((s.core c).get d).toNat) false) := by
  show execIStb c d a imm20 s = _
  rw [execIStb, State.instr_runs _ _ _ hrun, CoreSt.ea]

theorem exec_iSth : exec (.iSth c d a imm20) s =
    .next (s.store c 2 ((s.core c).get a + imm20) (toBytesLE 2 ((s.core c).get d).toNat) false) := by
  show execISth c d a imm20 s = _
  rw [execISth, State.instr_runs _ _ _ hrun, CoreSt.ea]

theorem exec_iStwl : exec (.iStwl c d a imm20) s =
    .next (s.store c 2 ((s.core c).get a + imm20) (tripleOf ((s.core c).get d)) true) := by
  show execIStwl c d a imm20 s = _
  rw [execIStwl, State.instr_runs _ _ _ hrun, CoreSt.ea]

theorem exec_iStp (hd : d.val % 2 = 0) : exec (.iStp c d a imm20) s = .next (s.store c 2 ((s.core c).get a + imm20)
    (tripleOf ((s.core c).get (oddOf d)) ++ tripleOf ((s.core c).get d)) false) := by
  have hp : isPair d = true := by simp [isPair, hd]
  show execIStp c d a imm20 s = _
  rw [execIStp, State.instr_runs _ _ _ hrun]
  simp only [hp, Bool.not_true, Bool.false_eq_true, if_false, CoreSt.ea]

theorem exec_pair_illegal (hd : d.val % 2 = 1) :
    exec (.iLdp c d a imm20) s = .next (s.illegal c) ∧ exec (.iStp c d a imm20) s = .next (s.illegal c) := by
  have hp : isPair d = false := by simp [isPair, hd]
  constructor
  · show execILdp c d a imm20 s = _
    rw [execILdp, State.instr_runs _ _ _ hrun]
    simp only [hp, Bool.not_false, if_true]
  · show execIStp c d a imm20 s = _
    rw [execIStp, State.instr_runs _ _ _ hrun]
    simp only [hp, Bool.not_false, if_true]

/-- Every load form is a `load` of its bytes at its address. -/
theorem exec_loadForms {f : Instr × W20 × Nat} (hf : f ∈ loadForms c d a disp8 imm20 (s.core c)) :
    (0 < f.2.2 ∧ f.2.2 ≤ 6) ∧ ∃ w g, exec f.1 s = .next (s.load c w f.2.1 f.2.2 g) := by
  rcases List.mem_append.mp hf with hf | hf
  · fin_cases hf
    · exact ⟨⟨Nat.succ_pos _, Nat.le_of_ble_eq_true rfl⟩, _, _, exec_iLdw hrun⟩
    · exact ⟨⟨Nat.succ_pos _, Nat.le_of_ble_eq_true rfl⟩, _, _, exec_iLdbu hrun⟩
    · exact ⟨⟨Nat.succ_pos _, Nat.le_of_ble_eq_true rfl⟩, _, _, exec_iLdbs hrun⟩
    · exact ⟨⟨Nat.succ_pos _, Nat.le_of_ble_eq_true rfl⟩, _, _, exec_iLdhu hrun⟩
    · exact ⟨⟨Nat.succ_pos _, Nat.le_of_ble_eq_true rfl⟩, _, _, exec_iLdhs hrun⟩
    · exact ⟨⟨Nat.succ_pos _, Nat.le_of_ble_eq_true rfl⟩, _, _, exec_iLdwl hrun⟩
  · split at hf
    next hd =>
      obtain rfl := List.mem_singleton.mp hf
      exact ⟨⟨Nat.succ_pos _, Nat.le_of_ble_eq_true rfl⟩, _, _, exec_iLdp hrun hd⟩
    next => exact absurd hf List.not_mem_nil

/-- Every store form is a `store` of as many bytes at its address. -/
theorem exec_storeForms {f : Instr × W20 × Nat} (hf : f ∈ storeForms c d a disp8 imm20 (s.core c)) :
    (0 < f.2.2 ∧ f.2.2 ≤ 6) ∧ ∃ w bs word, bs.length = f.2.2 ∧ exec f.1 s = .next (s.store c w f.2.1 bs word) := by
  rcases List.mem_append.mp hf with hf | hf
  · fin_cases hf
    · exact ⟨⟨Nat.succ_pos _, Nat.le_of_ble_eq_true rfl⟩, _, _, _, tripleOf_length _, exec_iStw hrun⟩
    · exact ⟨⟨Nat.succ_pos _, Nat.le_of_ble_eq_true rfl⟩, _, _, _, rfl, exec_iStb hrun⟩
    · exact ⟨⟨Nat.succ_pos _, Nat.le_of_ble_eq_true rfl⟩, _, _, _, rfl, exec_iSth hrun⟩
    · exact ⟨⟨Nat.succ_pos _, Nat.le_of_ble_eq_true rfl⟩, _, _, _, tripleOf_length _, exec_iStwl hrun⟩
  · split at hf
    next hd =>
      obtain rfl := List.mem_singleton.mp hf
      exact ⟨⟨Nat.succ_pos _, Nat.le_of_ble_eq_true rfl⟩, _, _, _, by rw [List.length_append, tripleOf_length, tripleOf_length], exec_iStp hrun hd⟩
    next => exact absurd hf List.not_mem_nil

/-- A detail found as the address is formed is the fault of every form there. -/
theorem exec_forms_addrFault {f : Instr × W20 × Nat} {k : Nat} (hk : k ≠ 0)
    (hf : f ∈ loadForms c d a disp8 imm20 (s.core c) ++ storeForms c d a disp8 imm20 (s.core c))
    (h : 0 < f.2.2 → f.2.2 ≤ 6 → ∀ wr, s.addrFault c wr f.2.1.toNat f.2.2 = k) :
    exec f.1 s = .next (s.dataFault c k f.2.1) := by
  rcases List.mem_append.mp hf with hf | hf
  · obtain ⟨⟨hpos, hsix⟩, w, g, he⟩ := exec_loadForms hrun hf
    rw [he, State.load_addrFault w g (h hpos hsix false) hk]
  · obtain ⟨⟨hpos, hsix⟩, w, bs, word, hlen, he⟩ := exec_storeForms hrun hf
    rw [he, State.store_addrFault w (hlen ▸ h hpos hsix true) hk]

end Forms

/-! ## The values of the loads -/

theorem ofNat_byteWord (b : Byte) : BitVec.ofNat 20 (id (ofBytesLE [b])) = b.setWidth 20 := by
  apply BitVec.eq_of_toNat_eq
  simp [ofBytesLE]

theorem ofBytesLE_pair (lo hi : Byte) : ofBytesLE [lo, hi] = (hi ++ lo).toNat := by
  have hlo := lo.isLt
  simp only [ofBytesLE, BitVec.toNat_append, Nat.mul_zero, Nat.add_zero]
  rw [Nat.shiftLeft_eq, Nat.mul_comm hi.toNat, ← Nat.two_pow_add_eq_or_of_lt hlo]
  omega

/-- Sign extension of a value of `n` bits to a word. -/
theorem ofNat_unsigned_signed {n : Nat} (hn : 0 < n) (v : BitVec n) :
    BitVec.ofNat 20 (unsigned 20 (signed n v.toNat)) = v.signExtend 20 := by
  have hs : signed n v.toNat = v.toInt := by
    rw [signed, Nat.mod_eq_of_lt v.isLt, BitVec.toInt_eq_toNat_cond]
    have h2 : 2 ^ n = 2 * 2 ^ (n - 1) := by
      rw [← Nat.pow_succ', Nat.succ_eq_add_one, Nat.sub_add_cancel hn]
    split_ifs <;> first | rfl | omega
  apply BitVec.eq_of_toInt_eq
  rw [hs, unsigned, BitVec.signExtend, BitVec.toInt_ofInt, BitVec.toInt_ofNat']
  have : (((v.toInt % 2 ^ 20).toNat : Nat) : Int) = v.toInt % 2 ^ 20 := Int.toNat_of_nonneg (Int.emod_nonneg _ (by decide))
  rw [this]
  exact Int.emod_bmod _ _

/-- Settles O14: a load or a store is decided by the address, then by the range it lies in, then by the bytes there. -/
theorem loadAndStoreResults : Obligations.LoadAndStoreResults := by
  unfold Obligations.LoadAndStoreResults
  refine ⟨⟨?loads, ?stores⟩, ?faults⟩
  case loads =>
    intro c d a disp8 imm20 s hrun hst x may triple done
    have good {r : Ram} {e : W20} {n : Nat} (w : Nat) (f : CoreSt → List Byte → CoreSt) (hn : 0 < n) (h : may r e.toNat n) :
        s.load c w e n f = s.setCore c ((f x (s.bytes r e.toNat n)).advance w) :=
      State.load_good w f hrun hst hn h.1 (State.allGood_of_groups h.2)
    have hword (r : Ram) (e : Nat) (l : List Byte) :
        wordOf (s.byte r e :: s.byte r (e + 1) :: s.byte r (e + 1 + 1) :: l) = triple r e := wordOf_three _ _ _ _
    have hthree {r : Ram} {e : Nat} : loadTo d id x (s.bytes r e 3) = x.set d (triple r e) :=
      congrArg (x.set d) (hword r e [])
    refine ⟨fun r h => ?ldw, fun r => ⟨fun h => ⟨?ldbu, ?ldbs⟩, fun h => ⟨?ldhu, ?ldhs⟩, fun h => ?ldwl, fun h hd => ?ldp⟩⟩
    case ldw => rw [exec_iLdw hrun, good 1 _ (by decide) h, hthree]
    case ldbu =>
      rw [exec_iLdbu hrun, good 2 _ (by decide) h]
      exact congrArg (fun v => done 2 v) (ofNat_byteWord _)
    case ldbs =>
      rw [exec_iLdbs hrun, good 2 _ (by decide) h]
      refine congrArg (fun v => done 2 v) ?_
      rw [show ofBytesLE (s.bytes r (x.get a + imm20).toNat 1) = (s.byte r (x.get a + imm20).toNat).toNat by
        simp [State.bytes, ofBytesLE]]
      exact ofNat_unsigned_signed (by decide) _
    case ldhu =>
      rw [exec_iLdhu hrun, good 2 _ (by decide) h]
      refine congrArg (fun v => done 2 v) ?_
      rw [show s.bytes r (x.get a + imm20).toNat 2 = [_, _] from rfl, ofBytesLE_pair]
      exact BitVec.eq_of_toNat_eq (by rw [BitVec.toNat_ofNat, BitVec.toNat_setWidth]; rfl)
    case ldhs =>
      rw [exec_iLdhs hrun, good 2 _ (by decide) h]
      refine congrArg (fun v => done 2 v) ?_
      rw [show s.bytes r (x.get a + imm20).toNat 2 = [_, _] from rfl, ofBytesLE_pair]
      exact ofNat_unsigned_signed (by decide) _
    case ldwl => rw [exec_iLdwl hrun, good 2 _ (by decide) h, hthree]
    case ldp =>
      rw [exec_iLdp hrun hd, good 2 _ (by decide) h]
      have hlow (e : Nat) : wordOf (s.bytes r e 6) = triple r e := hword r e _
      have hhigh (e : Nat) : wordOf ((s.bytes r e 6).drop 3) = triple r (e + 3) := hword r (e + 3) []
      rw [hlow, hhigh]
  case stores =>
    intro c d a disp8 imm20 s hrun hroom x may triple done v
    have enters {e : W20} {bs : List Byte} {n : Nat} (w : Nat) (word : Bool) (hlen : bs.length = n) (hn : 0 < n) (h : may e n) :
        s.store c w e bs word = _ :=
      h.elim (fun h => State.store_enters (r := .sram) w hrun hroom (hlen ▸ hn) (.inl ⟨rfl, hlen ▸ h⟩))
        (fun h => State.store_enters (r := .pram c) w hrun hroom (hlen ▸ hn) (.inr ⟨rfl, hlen ▸ h⟩))
    have htriple (v : W20) : tripleOf v = triple v := tripleOf_eq v
    refine ⟨fun h => ?stw, fun h => ?stb, fun h => ?sth, fun h => ?stwl, fun h hd => ?stp⟩
    case stw => rw [exec_iStw hrun, enters 1 true (tripleOf_length _) (by decide) h, htriple]
    case stb =>
      rw [exec_iStb hrun, enters (n := 1) 2 false rfl (by decide) h]
      exact congrArg (fun b => done 2 _ [b] false) (ofNat_byte _)
    case sth =>
      rw [exec_iSth hrun, enters (n := 2) 2 false rfl (by decide) h]
      have hpair : toBytesLE 2 ((s.core c).get d).toNat = [v.setWidth 8, (v >>> 8).setWidth 8] := by
        simp only [toBytesLE]
        rw [ofNat_byte, show (256 : Nat) = 2 ^ 8 from rfl, ofNat_byte_shift]
      rw [hpair]
    case stwl => rw [exec_iStwl hrun, enters 2 true (tripleOf_length _) (by decide) h, htriple]
    case stp =>
      rw [exec_iStp hrun hd, enters 2 false (by rw [List.length_append, tripleOf_length, tripleOf_length]) (by decide) h,
        htriple, htriple]
  case faults =>
    intro c d a disp8 imm20 s hrun hact x near far loads stores faulted edges within
    have hfault (e : W20) (k : Nat) : (.next (s.dataFault c k e) : Out) = faulted e k :=
      congrArg Host.Outcome.next (State.takeException_free s c 3 k e x.pc hact)
    refine ⟨fun f hf => ?any, fun f hf => ?store, fun f hf r h hst hbad => ?bad, fun hd => exec_pair_illegal hrun hd⟩
    case any =>
      have form {k : Nat} (hk : k ≠ 0) (h : 0 < f.2.2 → f.2.2 ≤ 6 → ∀ wr, s.addrFault c wr f.2.1.toNat f.2.2 = k) :
          exec f.1 s = faulted f.2.1 k := (exec_forms_addrFault hrun hk hf h).trans (hfault _ _)
      refine ⟨fun ⟨b, hb, hlo, hhi⟩ => form (by decide) fun _ _ wr => s.addrFault_edge c wr hb hlo hhi,
        fun h => form (by decide) fun hn _ wr => s.addrFault_reserved c wr hn h,
        fun h htask hperm => form (by decide) fun hn hsix wr => s.addrFault_task c wr hn h.1 h.2 (by omega) htask hperm,
        fun g h hst hoff => ?_⟩
      rcases List.mem_append.mp hf with hf | hf
      · obtain ⟨⟨hn, -⟩, w, u, he⟩ := exec_loadForms hrun hf
        rw [he, State.load_gate_off w u g.isLt hrun hst hn h.1 h.2 hoff, hfault]
      · obtain ⟨⟨hn, -⟩, w, bs, word, hlen, he⟩ := exec_storeForms hrun hf
        rw [he, State.store_gate w g.isLt hrun hst (hlen ▸ hn) h.1 (hlen ▸ h.2) (.inl hoff), hfault]
    case store =>
      obtain ⟨⟨hn, -⟩, w, bs, word, hlen, he⟩ := exec_storeForms hrun hf
      refine ⟨fun h => ?_, fun g h hst hoff => ?_⟩
      · rw [he, State.store_addrFault w (s.addrFault_rom c (hlen ▸ hn) h.1 (hlen ▸ h.2)) (by decide), hfault]
      · rw [he, State.store_gate w g.isLt hrun hst (hlen ▸ hn) h.1 (hlen ▸ h.2) (.inr hoff), hfault]
    case bad =>
      obtain ⟨⟨hn, -⟩, w, u, he⟩ := exec_loadForms hrun hf
      obtain ⟨k, hlo, hhi, hbad⟩ := hbad
      have hs : r.spans c f.2.1.toNat f.2.2 := h.imp (fun h => ⟨h.1, h.2.2⟩) id
      exact ⟨_, he, State.load_bad w u hrun hact hst hn hs hlo hhi hbad⟩

end Sys2Proof.Machine
end

section
/-! SUPPORT. The fault block (R457-R468): a state in which the log of a report changes STC_LANEFAIL. -/

set_option Elab.async false

namespace Sys2Proof.Machine

/-- A state whose log names entry 0x7F8, at the address of STC_LANEFAIL0: position 0 carries lane 10, every other lane is
carried or failed, and LANE_OUT is set. -/
def strayLaneLog : State :=
  let s := { State.reset with faults := { State.reset.faults with order := [0x7F8] } }
  let s := (s.put (faultBit 29) 1).setRg (STC_LANEFAIL 0) 0xA001D
  (List.range 48).foldl (fun t p => t.put (laneOf p) (if p = 0 then 10 else if p = 6 then 1 else p + 4)) s

theorem strayLaneLog_meets :
    strayLaneLog.inAir = true ∧ strayLaneLog.laneFailed 10 = false ∧ strayLaneLog.otp.rows < 64 ∧
      strayLaneLog.posOf 10 = some 0 ∧ strayLaneLog.test (STL_CFG_EN 0) = false ∧
      (strayLaneLog.setLaneFail 10).spareLane = none := by decide +kernel

/-- The repeated report of LANE_OUT counts in the entry, and lane 10's bit is gone, whether its row's programming fails or not. -/
theorem strayLaneLog_respare : ∀ ok, ((((strayLaneLog.setLaneFail 10).respare 0).fresh.2.spareTry 1 10 ok).lanesShow.put
    FLT_SPSTAT_RESULT 3).laneFailed 10 = false := by decide +kernel

theorem strayLaneLog_withdrawLane : strayLaneLog.withdrawLane 10 =
    (((strayLaneLog.setLaneFail 10).respare 0).spareOpen 1 10).lanesShow.put FLT_SPSTAT_RESULT 3 := by
  obtain ⟨-, hfail, hrows, hpos, hen, hspare⟩ := strayLaneLog_meets
  unfold State.withdrawLane
  dsimp only
  rw [hpos, hspare, hfail, if_neg (by decide), if_neg (by rw [Option.any_some, hen]; decide), if_neg (Nat.not_le.mpr hrows)]
  rfl

/-- Refutes O23: with an entry of the log at the address of STC_LANEFAIL0, the report that the withdrawn lane's position
has no spare clears the lane's own bit. -/
theorem not_faultBlockEffects : ¬ Obligations.FaultBlockEffects := by
  unfold Obligations.FaultBlockEffects
  intro h
  obtain ⟨hair, hfail, hrows, hpos, hen, -⟩ := strayLaneLog_meets
  obtain ⟨-, -, hlane, -⟩ := h strayLaneLog
  obtain ⟨t, hstep, -, -, hfailed, -⟩ := ((hlane hair).2 10 (by decide) hfail hrows).2 0 hpos hen
  have hexec : exec (.laneWithdraw 10) strayLaneLog = .next (strayLaneLog.withdrawLane 10) := by
    show execLaneWithdraw 10 strayLaneLog = _
    rw [execLaneWithdraw, State.during, if_pos hair]
    rfl
  rw [hexec, strayLaneLog_withdrawLane] at hstep
  injection hstep with ht
  rw [← ht, State.spareOpen] at hfailed
  exact Bool.false_ne_true ((strayLaneLog_respare _).symm.trans hfailed)

end Sys2Proof.Machine
end

section
/-! SUPPORT. The hitch port (R130-R133): reads and writes of SRAM that the host may reach, and the statement about it. -/

set_option Elab.async false

namespace Sys2Proof.Machine

section Host

variable {s : State} {a : Nat}

theorem State.hostRun_all : ∀ (n : Nat) (a : Nat), (∀ i, i < n → s.hostMay (a + i) = true) → s.hostRun a n = n
  | 0, _, _ => rfl
  | n + 1, a, h => by
    have hfirst : s.hostMay a = true := h 0 (Nat.succ_pos n)
    rw [State.hostRun, if_pos hfirst, State.hostRun_all n (a + 1) (fun i hi => by
      rw [Nat.add_assoc, Nat.add_comm 1]; exact h (i + 1) (Nat.succ_lt_succ hi)), Nat.add_comm]

theorem State.hostMay_sram (h : a < 0xA0000) : s.hostMay a = (s.rg HSP_BANKPERM).getLsbD (a / 0x10000) := by
  rw [State.hostMay, if_pos h]

/-- A READ of SRAM without errors that the host may reach. -/
theorem State.hitchReadAt_sram {n : Nat} (hn : 0 < n) (htop : a + n ≤ 0xA0000) (hmay : ∀ i, i < n → s.hostMay (a + i) = true)
    (hgood : s.allGood .sram a n) : s.hitchReadAt a n = (some (s.bytes .sram a n), s) := by
  have hmin : min n (0xA0000 - a) = n := by omega
  have hburst : s.hostBurst a n = (some (s.bytes .sram a n), s) := by
    unfold State.hostBurst
    simp only [if_pos (show a < 0xA0000 by omega), hmin, s.hostRun_all n a hmay, s.ramRead_good _ _ _ hgood, Nat.sub_self,
      List.replicate_zero, List.append_nil, Nat.lt_irrefl, if_false]
  unfold State.hitchReadAt
  rw [if_neg hn.ne', if_neg (by rw [show s.hostMay a = true from hmay 0 hn]; decide), if_neg (by omega), hburst]

/-- A burst into SRAM without errors that the host may reach stores its bytes. -/
theorem State.hostSram_good : ∀ (l : List Byte) (s : State) (a : Nat), a + l.length ≤ 0xA0000 →
    (∀ i, i < l.length → s.hostMay (a + i) = true) → (∀ i, i < l.length → s.chk ((a + i) / 4) = .good) →
    ∃ m, s.hostSram a l = ({ s with memChk := m } : State).setBytes .sram a l
  | [], s, _, _, _, _ => ⟨s.memChk, rfl⟩
  | b :: l, s, a, htop, hmay, hgood => by
    have hlen : (b :: l).length = l.length + 1 := rfl
    have hone : s.allGood .sram a [b].length := State.allGood_of_groups fun g hlo hhi => by
      have hg : g = a / 4 := le_antisymm hhi hlo
      have hkey : (4 * g) / 4 = (a + 0) / 4 := by omega
      exact (congrArg s.chk hkey).trans (hgood 0 (Nat.succ_pos _))
    obtain ⟨m, hwrite, hchk, -⟩ := s.ramWrite_good .sram a [b] hone
    obtain ⟨m', htail⟩ := State.hostSram_good l (s.ramWrite .sram a [b]) (a + 1) (by omega)
      (fun i hi => by
        have h := hmay (i + 1) (by omega)
        rw [hwrite]
        rw [State.hostMay_sram (by omega)] at h ⊢
        rwa [Nat.add_assoc, Nat.add_comm 1])
      (fun i hi => by
        have h := hgood (i + 1) (by omega)
        rw [hwrite, Nat.add_assoc, Nat.add_comm 1]
        exact (hchk _).trans h)
    refine ⟨m', ?_⟩
    rw [State.hostSram, if_pos ⟨by omega, hmay 0 (Nat.succ_pos _)⟩, htail, hwrite]
    rfl

end Host

theorem State.setBytes_cores (s : State) (r : Ram) (a : Nat) (l : List Byte) : (s.setBytes r a l).cores = s.cores := by
  obtain ⟨p, q, h⟩ := State.setBytes_eq l s r a
  rw [h]

theorem State.awake_of_run {s : State} (h : s.power.phase = .run) : s.awake = true := by
  rw [State.awake, State.busRuns, h]; rfl

theorem State.awake_of_not_run {s : State} (h : s.power.phase ≠ .run) : s.awake = false := by
  rw [State.awake, State.busRuns, decide_eq_false h]

theorem State.live_of_not_stopped {s : State} (h : s.stopped = false) (o : Out) : s.live o = o := by
  rw [State.live, h, if_neg Bool.false_ne_true]

theorem State.clocked_of_run {s : State} (h : s.stopped = false) (hrun : s.power.phase = .run) : s.clocked = true := by
  rw [State.clocked, h, hrun]; rfl

/-- What a host access that is refused or fails leaves. -/
theorem State.hitchErr_shows (cause : Nat) (hc : cause < 8) (s : State) :
    (s.hitchErr cause).test HSP_FLAGS_ERR = true ∧ (s.hitchErr cause).get HSP_FLAGS_CAUSE = cause ∧ s.Still (s.hitchErr cause) := by
  refine ⟨?_, ?_, (State.Still.put s _ _).trans (State.Still.put _ _ _)⟩
  · rw [State.hitchErr, State.test_put_same _ _ _ (by decide) (by decide) (by decide)]; rfl
  · rw [State.hitchErr, State.get_put_disjoint _ HSP_FLAGS_ERR HSP_FLAGS_CAUSE _ (by decide) (by decide) rfl (by decide),
      State.get_put_same _ _ _ (by decide) (by decide)]
    exact Nat.mod_eq_of_lt hc

theorem State.regsKept_setRg (s : State) (a : Nat) (v : W20) : s.regsKept (s.setRg a v) [a] := fun _ hb =>
  State.rg_setRg_ne s v (fun h => hb (h ▸ List.mem_singleton_self _))

/-- Settles O24: a transaction is decided by AWAKE, then by what the host may reach at its address. -/
theorem hitchPortEffects : Obligations.HitchPortEffects := by
  unfold Obligations.HitchPortEffects
  intro s hstopped sends
  have hlive (o : Out) : s.live o = o := State.live_of_not_stopped hstopped o
  refine ⟨fun cmd n h0B h02 => ⟨fun hrun => ?status, fun hsleep => ?asleep⟩, fun addr bs n hsleep => ⟨?readAsleep, ?writeAsleep⟩,
    fun addr n hrun htop hn hperm hgood => ?read, fun addr bs hrun htop hne hperm hgood => ?write,
    fun addr b hrun hlo hhi => ?outside, fun v => ⟨fun hclk => ?ring, fun hrun => ?h2c, fun hsleep => ?h2cAsleep⟩⟩
  case status =>
    show execHitchStatus s cmd n = _
    rw [execHitchStatus, hlive, if_neg (not_or.mpr ⟨h0B, h02⟩), State.awake_of_run hrun]
    rfl
  case asleep =>
    show execHitchStatus s cmd n = _
    rw [execHitchStatus, hlive, if_neg (not_or.mpr ⟨h0B, h02⟩), State.awake_of_not_run hsleep]
    rfl
  case readAsleep =>
    show execHitchRead addr n s = _
    rw [execHitchRead, hlive, State.awake_of_not_run hsleep]
    rfl
  case writeAsleep =>
    show execHitchWrite addr bs s = _
    rw [execHitchWrite, hlive, State.awake_of_not_run hsleep]
    rfl
  case read =>
    have hmay (i : Nat) (hi : i < n) : s.hostMay (addr.toNat + i) = true := by
      rw [State.hostMay_sram (by omega)]; exact hperm i hi
    have hall : s.allGood .sram addr.toNat n := State.allGood_of_groups fun g hlo hhi => by
      rw [Ram.group, Nat.mul_div_cancel_left g (by decide)]; exact hgood g hlo hhi
    show execHitchRead addr n s = _
    rw [execHitchRead, hlive]
    simp only [State.awake_of_run hrun, Bool.not_true, Bool.false_eq_true, if_false, State.hitchReadAt_sram hn htop hmay hall]
    rfl
  case write =>
    have hpos : 0 < bs.length := List.length_pos_iff.mpr hne
    have hmay (i : Nat) (hi : i < bs.length) : s.hostMay (addr.toNat + i) = true := by
      rw [State.hostMay_sram (by omega)]; exact hperm i hi
    obtain ⟨m, hburst⟩ := State.hostSram_good bs s addr.toNat htop hmay (fun i hi => hgood _ (by omega) (by omega))
    have hat : s.hitchWriteAt addr.toNat bs = ({ s with memChk := m } : State).setBytes .sram addr.toNat bs := by
      unfold State.hitchWriteAt
      rw [if_neg (by rw [List.isEmpty_iff]; exact hne), if_neg (by omega),
        if_neg (by rw [show s.hostMay addr.toNat = true from hmay 0 hpos]; decide), if_pos (by omega), hburst]
    refine ⟨(({ s with memChk := m } : State).setBytes .sram addr.toNat bs).hitchSend
      (s.hitchStatusByte :: List.replicate (3 + bs.length) 0xFF), ?_, fun i hi => ?_, fun k hk => ?_, ?_, ?_⟩
    rotate_left
    · exact State.byte_setBytes_at bs { s with memChk := m } (r := .sram) (fun i j _ _ hij => by simp only [Ram.key]; omega) hi
    · exact State.byte_setBytes_ne bs { s with memChk := m } (r := .sram) (q := .sram) (.inr fun i hi => by simp only [Ram.key]; omega)
    · exact State.setBytes_regs _ _ _ _
    · exact State.setBytes_cores _ _ _ _
    · show execHitchWrite addr bs s = _
      rw [execHitchWrite, hlive]
      simp only [State.awake_of_run hrun, Bool.not_true, Bool.false_eq_true, if_false, hat]
  case outside =>
    have hmay : s.hostMay addr.toNat = false := by
      rw [State.hostMay, if_neg (by omega), if_neg (by omega), if_neg (by omega)]
    have hat : s.hitchWriteAt addr.toNat [b] = s.hitchErr 2 := by
      unfold State.hitchWriteAt
      rw [if_neg (show ¬ [b].isEmpty = true from Bool.false_ne_true), if_neg (by omega), hmay, if_pos (Bool.not_false), hostCause, if_neg (by omega)]
    obtain ⟨herr, hcause, hstill⟩ := s.hitchErr_shows 2 (by decide)
    refine ⟨(s.hitchErr 2).hitchSend (s.hitchStatusByte :: List.replicate 4 0xFF), ?_, herr, hcause, hstill.mem, hstill.cores⟩
    show execHitchWrite addr [b] s = _
    rw [execHitchWrite, hlive]
    simp only [State.awake_of_run hrun, Bool.not_true, Bool.false_eq_true, if_false, hat]
    rfl
  case ring =>
    refine ⟨s.hspRing v, ?_, State.rg_setRg_same _ _ _, s.regsKept_setRg _ _, rfl⟩
    show execHspRingWrite v s = _
    rw [execHspRingWrite, State.during, if_pos hclk]
  case h2c =>
    have hreach : s.mayReach .host HSP_H2C = true := by
      rw [State.mayReach, State.awake_of_run hrun, State.hostMay, if_neg (by decide), if_pos (by decide)]
      rfl
    have hregs : (s.hspH2c v true).regs = (s.setRg HSP_H2C (s.rg HSP_H2C ||| (v &&& 0x0FFFF))).regs := by
      unfold State.hspH2c; dsimp only; split <;> simp
    have hcores : (s.hspH2c v true).cores = s.cores := by
      unfold State.hspH2c; dsimp only; split <;> simp
    have hrg (b : Nat) : (s.hspH2c v true).rg b = (s.setRg HSP_H2C (s.rg HSP_H2C ||| (v &&& 0x0FFFF))).rg b := by
      rw [State.rg, State.rg, hregs]
    refine ⟨s.hspH2c v true, ?_, (hrg _).trans (State.rg_setRg_same _ _ _), fun b hb => (hrg b).trans (s.regsKept_setRg _ _ b hb),
      hcores⟩
    show execHspH2cWrite v s = _
    rw [execHspH2cWrite, State.during, if_pos (State.clocked_of_run hstopped hrun), State.reachWith, if_pos hreach]
  case h2cAsleep =>
    have hreach : s.mayReach .host HSP_H2C = false := by rw [State.mayReach, State.awake_of_not_run hsleep]; rfl
    show execHspH2cWrite v s = _
    rw [execHspH2cWrite, State.during, State.reachWith, hreach, State.awake_of_not_run hsleep]
    split <;> simp

end Sys2Proof.Machine
end

section
/-! SUPPORT. UART0 (R134, R135): what U0_STATUS shows after an operation, and the statement about it. -/

set_option Elab.async false

namespace Sys2Proof.Machine

/-- U0_STATUS with the present levels. -/
def State.uartShown (s : State) : State :=
  ((s.put U0_STATUS_TXLVL s.uart.tx.length).put U0_STATUS_RXLVL s.uart.rx.length).put U0_STATUS_TXIDLE
    (bit (s.uart.tx.isEmpty && s.uart.shift.isNone))

theorem State.fire_if (s : State) (b : Bool) (p : Nat) : ∃ l, (if b then s.fire p else s) = { s with lattice := l } := by
  cases b
  · exact ⟨s.lattice, rfl⟩
  · exact s.fire_eq p

/-- Beside U0_STATUS, only the lattice sees the end of an operation. -/
theorem State.uartSettle_eq (s old : State) : ∃ l, s.uartSettle old = { s.uartShown with lattice := l } := by
  show ∃ l, (let t := s.uartShown
    let t := if t.uartReqs.1 && !old.uartReqs.1 then t.fire 0x2B else t
    let t := if s.uartShown.uartReqs.2.1 && !old.uartReqs.2.1 then t.fire 0x2C else t
    if s.uartShown.uartReqs.2.2 && !old.uartReqs.2.2 then t.fire 0x2D else t) = { s.uartShown with lattice := l }
  obtain ⟨l0, h0⟩ := s.uartShown.fire_if (s.uartShown.uartReqs.1 && !old.uartReqs.1) 0x2B
  obtain ⟨l1, h1⟩ := State.fire_if { s.uartShown with lattice := l0 } (s.uartShown.uartReqs.2.1 && !old.uartReqs.2.1) 0x2C
  obtain ⟨l2, h2⟩ := State.fire_if { s.uartShown with lattice := l1 } (s.uartShown.uartReqs.2.2 && !old.uartReqs.2.2) 0x2D
  refine ⟨l2, ?_⟩
  dsimp only
  rw [h0, h1, h2]

section Settle

variable (s old : State)

theorem State.uartSettle_uart : (s.uartSettle old).uart = s.uart := by
  obtain ⟨l, h⟩ := s.uartSettle_eq old
  rw [h]; rfl

theorem State.uartSettle_still : s.Still (s.uartSettle old) := by
  obtain ⟨l, h⟩ := s.uartSettle_eq old
  rw [h]
  exact ⟨State.memKept_of_tables rfl rfl rfl rfl, fun _ => rfl⟩

theorem State.uartSettle_rg {a : Nat} (ha : a ≠ U0_STATUS) : (s.uartSettle old).rg a = s.rg a := by
  obtain ⟨l, h⟩ := s.uartSettle_eq old
  rw [h]
  show s.uartShown.rg a = s.rg a
  rw [State.uartShown, State.rg_put_ne _ _ _ ha, State.rg_put_ne _ _ _ ha, State.rg_put_ne _ _ _ ha]

/-- The error bits of U0_STATUS stand between the levels and TXIDLE. -/
theorem State.uartSettle_test {f : Field} (hlo : 0 < f.lo) (hhi : f.hi < 8) : (s.uartSettle old).test f = s.test f := by
  obtain ⟨l, h⟩ := s.uartSettle_eq old
  rw [h]
  show s.uartShown.test f = s.test f
  have hi8 : f.hi < (8 : Nat) := hhi
  rw [State.uartShown, State.test, State.get_put_other _ _ (by decide) (by decide) (.inr (.inr hlo)),
    State.get_put_other _ _ (by decide) (by decide) (.inr (.inl hi8)),
    State.get_put_other _ _ (by decide) (by decide) (.inr (.inl (Nat.lt_trans hi8 (by decide)))), State.test]

end Settle

theorem State.uartStill (s : State) (u : Uart) : s.Still { s with uart := u } :=
  ⟨State.memKept_of_tables rfl rfl rfl rfl, fun _ => rfl⟩

theorem State.uartLoad_full {s : State} (h : s.uart.shift ≠ none ∨ s.test U0_CTRL_TXEN = false) : s.uartLoad = s := by
  unfold State.uartLoad
  split
  · next hshift _ => rw [h.resolve_left (fun hne => hne hshift)]; rfl
  · rfl

theorem State.uartLoad_next {s : State} {b : Byte} {l : List Byte} (hshift : s.uart.shift = none) (htx : s.uart.tx = b :: l)
    (hen : s.test U0_CTRL_TXEN = true) : s.uartLoad = { s with uart := { s.uart with shift := some b, tx := l } } := by
  unfold State.uartLoad
  rw [hshift, htx]
  exact if_pos hen

/-- FERR of a byte with a framing error. -/
def State.uartMarked (s : State) (ferr : Bool) : State := if ferr then s.put U0_STATUS_FERR 1 else s

section Store

variable {s : State} (b : Byte) (ferr : Bool)

theorem State.uartMarked_frame : (s.uartMarked ferr).uart = s.uart ∧ s.Still (s.uartMarked ferr) ∧
    ∀ a, a ≠ U0_STATUS → (s.uartMarked ferr).rg a = s.rg a := by
  cases ferr
  · exact ⟨rfl, State.Still.rfl' s, fun _ _ => rfl⟩
  · exact ⟨rfl, State.Still.put s _ _, fun a ha => State.rg_put_ne s U0_STATUS_FERR 1 ha⟩

theorem State.uartStore_room (hen : s.test U0_CTRL_RXEN = true) (hroom : s.uart.rx.length < 32) :
    (s.uartStore b ferr).uart = { s.uart with rx := s.uart.rx ++ [(b, ferr)] } ∧ s.Still (s.uartStore b ferr) ∧
      ∀ a, a ≠ U0_STATUS → (s.uartStore b ferr).rg a = s.rg a := by
  obtain ⟨huart, hstill, hrg⟩ := State.uartMarked_frame (s := s) ferr
  have hstore : s.uartStore b ferr =
      { s.uartMarked ferr with uart := { s.uart with rx := s.uart.rx ++ [(b, ferr)] } } := by
    unfold State.uartStore
    rw [hen, if_neg (by decide)]
    show (if 32 ≤ (s.uartMarked ferr).uart.rx.length then _ else { s.uartMarked ferr with
      uart := { (s.uartMarked ferr).uart with rx := (s.uartMarked ferr).uart.rx ++ [(b, ferr)] } }) = _
    rw [huart, if_neg (Nat.not_le.mpr hroom)]
  rw [hstore]
  exact ⟨rfl, hstill.trans (State.uartStill _ _), hrg⟩

theorem State.uartStore_full (hen : s.test U0_CTRL_RXEN = true) (hfull : 32 ≤ s.uart.rx.length) :
    (s.uartStore b ferr).uart = s.uart ∧ s.Still (s.uartStore b ferr) ∧
      (s.uartStore b ferr).test U0_STATUS_OVERRUN = true ∧ ∀ a, a ≠ U0_STATUS → (s.uartStore b ferr).rg a = s.rg a := by
  obtain ⟨huart, hstill, hrg⟩ := State.uartMarked_frame (s := s) ferr
  have hstore : s.uartStore b ferr = (s.uartMarked ferr).put U0_STATUS_OVERRUN 1 := by
    unfold State.uartStore
    rw [hen, if_neg (by decide)]
    show (if 32 ≤ (s.uartMarked ferr).uart.rx.length then (s.uartMarked ferr).put U0_STATUS_OVERRUN 1 else _) = _
    rw [huart, if_pos hfull]
  rw [hstore]
  refine ⟨huart, hstill.trans (State.Still.put _ _ _), ?_, fun a ha => ?_⟩
  · rw [State.test_put_same _ _ _ (by decide) (by decide) (by decide)]; rfl
  · rw [State.rg_put_ne _ U0_STATUS_OVERRUN 1 ha, hrg a ha]

end Store

/-- The ROM takes no byte of UART0 without a REASON. -/
theorem State.romUart_idle {s : State} (h : s.test KMB_BOOT_REASON = false) : s.romUart = s := by
  rw [State.romUart, State.recovering, h, Bool.and_false]; rfl

/-- A write of U0_DATA ends with the shifter loaded and U0_STATUS shown. -/
theorem exec_uartDataWrite {s t : State} (b : Byte) (hclk : s.clocked = true)
    (ht : (if 32 ≤ s.uart.tx.length then s.put U0_STATUS_TXOVF 1 else { s with uart := { s.uart with tx := s.uart.tx ++ [b] } }) = t) :
    exec (.uartDataWrite b) s = .next (t.uartLoad.uartSettle s) := by
  show execUartDataWrite b s = _
  rw [execUartDataWrite, State.during, if_pos hclk, State.uartPush]
  dsimp only
  rw [ht]

/-- Settles O25: the FIFOs and the shifter are lists and an option, and U0_STATUS follows them. -/
theorem uartEffects : Obligations.UartEffects := by
  unfold Obligations.UartEffects
  intro s rx tx
  refine ⟨fun b ferr hrun hloop hrxen => ⟨fun hreason => ?byte, ?brk⟩,
    fun hclk => ⟨fun e r hrx => ?read, fun hrx => ?readEmpty, fun b => ⟨fun hshift htx hen => ?shifts, fun hroom hbusy => ?queued,
      fun hfull hbusy => ?overflow⟩⟩, fun b n r hrun hshift htx hen hloop => ?sent⟩
  case byte =>
    have hexec (hrg : (s.uartStore b ferr).rg KMB_BOOT = s.rg KMB_BOOT) :
        exec (.uartRxByte b ferr false) s = .next ((s.uartStore b ferr).uartSettle s) := by
      have hidle : ((s.uartStore b ferr).uartSettle s).test KMB_BOOT_REASON = false :=
        (State.test_of_rg ((State.uartSettle_rg _ s (by decide)).trans hrg)).trans hreason
      show execUartRxByte b ferr false s = _
      rw [execUartRxByte, State.during, if_pos hrun, hloop, if_neg Bool.false_ne_true, if_neg Bool.false_ne_true,
        State.romUart_idle hidle]
    refine ⟨fun hroom => ?_, fun hfull => ?_⟩
    · obtain ⟨huart, hstill, hrg⟩ := State.uartStore_room b ferr hrxen hroom
      have hend := hstill.trans (State.uartSettle_still _ s)
      have hshown := (State.uartSettle_uart (s.uartStore b ferr) s).trans huart
      exact ⟨_, hexec (hrg _ (by decide)), by rw [hshown], by rw [hshown], hend.mem, hend.cores⟩
    · obtain ⟨huart, hstill, hover, hrg⟩ := State.uartStore_full b ferr hrxen hfull
      have hend := hstill.trans (State.uartSettle_still _ s)
      exact ⟨_, hexec (hrg _ (by decide)), (State.uartSettle_uart _ s).trans huart,
        (State.uartSettle_test _ s (by decide) (by decide)).trans hover, hend.mem, hend.cores⟩
  case brk =>
    refine ⟨(s.put U0_STATUS_BREAK 1).uartSettle s, ?_, State.uartSettle_uart _ s, ?_⟩
    · show execUartRxByte b ferr true s = _
      rw [execUartRxByte, State.during, if_pos hrun, hloop, if_neg Bool.false_ne_true, if_pos rfl, if_pos hrxen]
    · rw [State.uartSettle_test _ s (by decide) (by decide), State.test_put_same _ _ _ (by decide) (by decide) (by decide)]
      rfl
  case read =>
    have hpop : s.uartPop.2 = ({ s with uart := { s.uart with rx := r } }.setRg U0_DATA
        (BitVec.ofNat 20 (512 * bit e.2 + 256 + e.1.toNat))).uartSettle s := by
      unfold State.uartPop
      rw [show s.uart.rx = e :: r from hrx]
    have hstill := ((State.uartStill s { s.uart with rx := r }).trans (State.Still.setRg _ U0_DATA
        (BitVec.ofNat 20 (512 * bit e.2 + 256 + e.1.toNat)))).trans (State.uartSettle_still _ s)
    refine ⟨s.uartPop.2, ?_, ?_, ?_, hpop ▸ hstill.mem, hpop ▸ hstill.cores⟩
    · show execUartDataRead s = _
      rw [execUartDataRead, State.during, if_pos hclk]
    · rw [hpop, State.uartSettle_uart]; rfl
    · rw [hpop, State.uartSettle_rg _ _ (by decide), State.rg_setRg_same]
  case readEmpty =>
    have hpop : s.uartPop.2 = s.setRg U0_DATA 0 := by
      unfold State.uartPop
      rw [show s.uart.rx = [] from hrx]
    refine ⟨s.setRg U0_DATA 0, ?_, rfl, ?_⟩
    · show execUartDataRead s = _
      rw [execUartDataRead, State.during, if_pos hclk, hpop]
    · rw [State.test, State.get]
      show (fieldGet ((s.setRg U0_DATA 0).rg U0_DATA) 8 8 != 0) = false
      rw [State.rg_setRg_same]; rfl
  case shifts =>
    have hlen : ¬ 32 ≤ s.uart.tx.length := by rw [show s.uart.tx = [] from htx]; decide
    have hload : State.uartLoad { s with uart := { s.uart with tx := s.uart.tx ++ [b] } } =
        { s with uart := { s.uart with shift := some b, tx := [] } } :=
      State.uartLoad_next (l := []) hshift (by rw [show s.uart.tx = [] from htx]; rfl) hen
    have hend := (State.uartStill s { s.uart with shift := some b, tx := [] }).trans (State.uartSettle_still _ s)
    refine ⟨_, exec_uartDataWrite b hclk (if_neg hlen), ?_, ?_, ?_⟩
    · rw [hload, State.uartSettle_uart]
      exact congrArg (fun l => ({ s.uart with shift := some b, tx := l } : Uart)) (Eq.symm htx)
    · rw [hload]; exact hend.mem
    · rw [hload]; exact hend.cores
  case queued =>
    have hload : State.uartLoad { s with uart := { s.uart with tx := s.uart.tx ++ [b] } } =
        { s with uart := { s.uart with tx := s.uart.tx ++ [b] } } := State.uartLoad_full hbusy
    have hend := (State.uartStill s { s.uart with tx := s.uart.tx ++ [b] }).trans (State.uartSettle_still _ s)
    refine ⟨_, exec_uartDataWrite b hclk (if_neg (Nat.not_le.mpr hroom)), ?_, ?_, ?_⟩
    · rw [hload, State.uartSettle_uart]
    · rw [hload]; exact hend.mem
    · rw [hload]; exact hend.cores
  case overflow =>
    have hload : (s.put U0_STATUS_TXOVF 1).uartLoad = s.put U0_STATUS_TXOVF 1 :=
      State.uartLoad_full (hbusy.imp id fun h => (State.test_put_ne s 1 (by decide)).trans h)
    have hend := (State.Still.put s U0_STATUS_TXOVF 1).trans (State.uartSettle_still _ s)
    refine ⟨_, exec_uartDataWrite b hclk (if_pos hfull), ?_, ?_, ?_, ?_⟩
    · rw [hload, State.uartSettle_uart]; rfl
    · rw [hload, State.uartSettle_test _ s (by decide) (by decide), State.test_put_same _ _ _ (by decide) (by decide) (by decide)]
      rfl
    · rw [hload]; exact hend.mem
    · rw [hload]; exact hend.cores
  case sent =>
    have hload : State.uartLoad { s with uart := { s.uart with shift := none } } =
        { s with uart := { s.uart with shift := some n, tx := r } } := State.uartLoad_next rfl htx hen
    have hend := (State.uartStill s { s.uart with shift := some n, tx := r }).trans (State.uartSettle_still _ s)
    refine ⟨State.uartSettle { s with uart := { s.uart with shift := some n, tx := r } } s, ?_, State.uartSettle_uart _ s,
      hend.mem, hend.cores⟩
    show execUartTxByteSent s = _
    rw [execUartTxByteSent, State.during, if_pos hrun]
    simp only [hshift]
    rw [show State.test { s with uart := { s.uart with shift := none } } U0_CTRL_LOOP = false from hloop,
      if_neg Bool.false_ne_true, hload]

end Sys2Proof.Machine
end

section
/-! SUPPORT. Actions that fire and lattice events that are delivered (R7, R86-R90, R353-R364), and the statement about them. -/

set_option Elab.async false

namespace Sys2Proof.Machine

/-! ## A lone core event of the action tables -/

theorem State.lateGrants_none {s : State} (h : ∀ d ∈ s.dueActs, d.a.status ≠ .reserving) : s.lateGrants = s := by
  rw [State.lateGrants, if_neg]
  simp only [List.any_eq_true, beq_iff_eq, not_exists, not_and]
  exact h

/-- The only entry due, armed, without a reservation and a core event: its status, then the event. -/
theorem State.actionsFire_event {s : State} {temp : BitVec 10} {d : Due} (hdue : s.dueActs = [d]) (hst : d.a.status = .armed)
    (hresv : d.a.resv = 0) (hkind : d.a.kind = 8) :
    s.actionsFire temp = (s.actEnd (s.firedStatus d) d).event d.c (d.a.param.toNat % 32) := by
  have hlate : s.lateGrants = s := State.lateGrants_none (by
    rw [hdue]; intro e he; rw [List.mem_singleton.mp he, hst]; decide)
  have hstarved : d.starved = false := by simp [Due.starved, hresv]
  have hstarves : [d].filter Due.starved = [] := by simp [hstarved]
  have hwon : [d].filter (fun d => !d.starved) = [d] := by simp [hstarved]
  have hage : s.byAge [d] = [d] := rfl
  have hone : fireOrder [d] = [d] := by
    have hfind : [d].findIdx? (fun d => d.a.kind == 1) = none := by simp [hkind]
    simp only [fireOrder, hfind]
  have hdo (t : State) : State.actDo temp t d = t.event d.c (d.a.param.toNat % 32) := by
    have hnone : d.resv = none := by rw [Due.resv, if_pos hresv]
    unfold State.actDo
    rw [if_neg (by rw [hkind]; decide), hnone, hkind]
    rfl
  unfold State.actionsFire
  rw [hlate]
  dsimp only
  rw [hdue]
  simp only [hstarves, hwon, splitClash, List.any_nil, Bool.false_eq_true, if_false, List.nil_append, List.foldl_nil,
    List.foldl_cons, hage, hone, hdo]

theorem CoreSt.event_acts (x : CoreSt) (k : Nat) : (x.event k).acts = x.acts := by
  unfold CoreSt.event; split <;> rfl

theorem State.event_core (s : State) (c : CoreId) (k : Nat) : (s.event c k).core c = (s.core c).event k := State.core_modCore_same _ _ _

theorem State.event_core_ne (s : State) {c d : CoreId} (k : Nat) (h : d ≠ c) : (s.event c k).core d = s.core d :=
  State.core_modCore_ne _ _ h

/-! ## A lone delivery -/

theorem State.stormCount_frame (s : State) (f : Flight) : ∃ l, s.stormCount f = { s with lattice := l } ∧
    l.flights = s.lattice.flights := by
  unfold State.stormCount
  dsimp only
  split
  · exact ⟨s.lattice, rfl, rfl⟩
  · exact ⟨_, rfl, rfl⟩

/-- The one event in the channels reaches its event line. -/
theorem State.deliver_line {s : State} {f : Flight} (hf : s.lattice.flights = [f]) (hdue : f.due ≤ s.lattice.cyc)
    (hcons : f.cons < 0x80) : ∃ l, s.deliver f.ch =
      State.event { s with lattice := l } ⟨f.cons / 32 % 4, Nat.mod_lt _ (by decide)⟩ (f.cons % 32) ∧ l.flights = [] := by
  have hfind : s.lattice.flights.find? (fun g => g.ch == f.ch && g.due ≤ s.lattice.cyc) = some f := by
    rw [hf]; simp [hdue]
  have hsame : s.lattice.flights.filter (fun g => g.cons == f.cons && g.due == f.due) = [f] := by rw [hf]; simp
  have hleft : s.lattice.flights.filter (fun g => !(List.contains [f] g)) = [] := by rw [hf]; simp
  obtain ⟨l, hstorm, hl⟩ := State.stormCount_frame { s with lattice := { s.lattice with flights := [] } } f
  have harrive (t : State) : t.arrive f.cons f.due =
      State.event { t with lattice := { t.lattice with acts := t.lattice.acts ++ [(f.cons, f.due)] } }
        ⟨f.cons / 32 % 4, Nat.mod_lt _ (by decide)⟩ (f.cons % 32) := by
    rw [State.arrive, if_neg (by omega), State.consume, if_pos hcons]
  refine ⟨{ l with acts := l.acts ++ [(f.cons, f.due)] }, ?_, hl⟩
  unfold State.deliver
  simp only [hfind, hsame, hleft, List.foldl_cons, List.foldl_nil, hstorm, harrive, List.length_singleton,
    show ¬ 2 ≤ 1 from by decide, if_false]

/-! ## Writes of the lattice's registers -/

theorem regRow_latReq : ∀ k : Fin 16, (regRow (0xC3240 + 4 * k.val)).map (fun r => (r.rw, r.w1c, r.w1s)) = some (0xFF, 0, 0) := by
  decide

theorem regMerge_plain {r : RegRow} (hrow : (r.rw, r.w1c, r.w1s) = (0xFF, 0, 0)) (old v : W20) :
    regMerge r old v &&& 0x000FF = v &&& 0x000FF := by
  obtain ⟨hrw, hw1c, hw1s⟩ : r.rw = 0xFF ∧ r.w1c = 0 ∧ r.w1s = 0 := by simpa using hrow
  rw [regMerge, hrw, hw1c, hw1s]
  ext i hi
  simp only [BitVec.getElem_and, BitVec.getElem_or, BitVec.getElem_not, BitVec.ofNat_eq_ofNat, BitVec.getElem_zero,
    Bool.and_false, Bool.or_false, Bool.not_false, Bool.and_true]
  cases (0xFF#20)[i] <;> simp

theorem State.latchReqs_still (s : State) : s.Still s.latchReqs :=
  ⟨State.memKept_of_tables (by simp) (by simp) (by simp) (by simp), fun c => State.latchReqs_bare s c⟩

/-! ## What a report leaves of the registers above the fault block, and the lattice -/

/-- A field that the log's counters of repeated reports do not share a register's bits with. -/
def outsideRepeat (f : Field) : Prop := 0xC3000 ≤ f.reg ∧ (f.hi < 10 ∨ 13 < f.lo)

theorem State.logReport_get (s : State) (code : Nat) (d : W20) {f : Field} (h : outsideRepeat f) :
    (s.logReport code d).get f = s.get f := by
  have hlt : 0xC3000 ≤ f.reg := h.1
  have hflags : f.reg ≠ FLT_FLAGS := by simp only [FLT_FLAGS]; omega
  have hlost (cls : Nat) (hc : cls < 3) : f.reg ≠ (lostField cls).reg := by simp only [lostField, FLT_LOST]; omega
  have hcls : faultClass code < 3 := by unfold faultClass; split_ifs <;> decide
  have hcommit (k : Nat) (hk : k < 16) (cls : Nat) : (s.commitEntry k cls code d).rg f.reg = s.rg f.reg := by
    show (State.setRg (State.set40 (s.setRg (FLT_E_DET k) d) (FLT_E_TLO k) (FLT_E_THI k) _) (FLT_E_HDR k) _).rg f.reg = _
    rw [State.rg_setRg_ne _ _ (by simp only [FLT_E_HDR]; omega), State.set40,
      State.rg_setRg_ne _ _ (by simp only [FLT_E_THI]; omega), State.rg_setRg_ne _ _ (by simp only [FLT_E_TLO]; omega),
      State.rg_setRg_ne _ _ (by simp only [FLT_E_DET]; omega)]
  unfold State.logReport
  dsimp only
  split
  · split
    · exact State.get_put_other s _ (Nat.le_of_ble_eq_true rfl) (Nat.le_of_ble_eq_true rfl) (.inr h.2)
    · rfl
  · split
    · split
      next k hfree =>
        have hk : k < 16 := by
          have := List.mem_of_find?_eq_some hfree
          rw [List.mem_range] at this
          split at this <;> omega
        have hget : (s.commitEntry k (faultClass code) code d).get f = s.get f := by rw [State.get, State.get, hcommit k hk]
        split
        · rw [State.raise_get_ne _ _ hflags, hget]
        · exact hget
      next =>
        rw [State.raise_get_ne _ _ hflags]
        exact State.get_put_ne s _ (hlost _ hcls)
    · rfl

/-- A report that is not fatal leaves every such field. -/
theorem State.report_get_high (code : Nat) (d : W20) (s : State) (hclass : faultClass code ≠ 2) {f : Field} (h : outsideRepeat f) :
    (State.report code d s).get f = s.get f := by
  have hlt : 0xC3000 ≤ f.reg := h.1
  have hflags : f.reg ≠ FLT_FLAGS := by simp only [FLT_FLAGS]; omega
  have hbit : f.reg ≠ (faultBit code).reg := by
    rcases faultBit_reg code with e | e <;> rw [e]
    · simp only [FLT_SRC0]; omega
    · simp only [FLT_SRC1]; omega
  have hput : ((s.logReport code d).put (faultBit code) 1).get f = s.get f := by
    rw [State.get_put_ne _ _ hbit, s.logReport_get code d h]
  have hflag (u : State) : (reportFlag code u).get f = u.get f := by rw [State.get, State.get, reportFlag_rg code u hflags]
  rw [State.report_eq, if_neg hclass]
  split
  · rw [State.raise_get_ne _ _ hflags, hflag]; exact hput
  · rw [hflag]; exact hput

theorem State.raise_lattice {f : Field} (h : flagProducer f = none) (s : State) : (s.raise f).lattice = s.lattice := by
  rw [State.raise, h, State.latchReqs_lattice]; rfl

theorem State.logReport_lattice (s : State) (code : Nat) (d : W20) : (s.logReport code d).lattice = s.lattice := by
  have hraise {f : Field} (h : flagProducer f = none) (t : State) : (t.raise f).lattice = t.lattice := State.raise_lattice h t
  unfold State.logReport
  dsimp only
  split
  · split <;> rfl
  · split
    · split
      · split
        · rw [hraise (by decide)]; rfl
        · rfl
      · rw [hraise (by decide)]; rfl
    · rfl

/-- No flag of the fault block fires a producer. -/
theorem State.report_lattice (code : Nat) (d : W20) (s : State) : (State.report code d s).lattice = s.lattice := by
  have hflag (u : State) : (reportFlag code u).lattice = u.lattice := by
    unfold reportFlag
    split
    · exact State.raise_lattice (by decide) u
    · exact State.raise_lattice (by decide) u
    · rfl
  have hcut (u : State) : u.fatalCut.lattice = u.lattice := by
    unfold State.fatalCut
    cases u.radio.tx <;> rfl
  have hlog := s.logReport_lattice code d
  have hsubst (u : State) (h : u.lattice = s.lattice) : (if code = 34 then u.raise FLT_FLAGS_SUBST else u).lattice = s.lattice := by
    split
    · rw [State.raise_lattice (by decide), h]
    · exact h
  have hend (u : State) (h : u.lattice = s.lattice) : (if faultClass code = 2 then
      if code = 35 then { u.fatalCut with power := { u.power with held := true } } else u.fatalCut else u).lattice = s.lattice := by
    split
    · split
      · exact (hcut u).trans h
      · exact (hcut u).trans h
    · exact h
  rw [State.report_eq]
  exact hend _ (hsubst _ ((hflag _).trans hlog))

/-- The lattice's registers are those of block 3. -/
theorem latBlock {n : Nat} (h : n < 2 ^ 12) : (0xC3000 + n - 0xC0000) / 0x1000 = 3 := by omega

/-- Settles O26: a lone action and a lone event each reach one consumer; the rest is decided by the register's offset. -/
theorem actionAndLatticeEffects : Obligations.ActionAndLatticeEffects := by
  unfold Obligations.ActionAndLatticeEffects
  intro s hrun
  have hlive : s.stopped = false := by
    simp only [State.inRun, Bool.and_eq_true, Bool.not_eq_true'] at hrun; exact hrun.1
  have hphase : s.power.phase = .run := by
    simp only [State.inRun, Bool.and_eq_true, beq_iff_eq] at hrun; exact hrun.2
  have hbus : s.busRuns = true := decide_eq_true hphase
  have hclk : s.clocked = true := State.clocked_of_run hlive hphase
  refine ⟨fun temp c e a hkind hst hresv hparam hdue => ?fires, fun ch f hf hch hdue hcons => ?delivered,
    fun ch hrun' => ?storm, fun c ofs v hlo hhi hperm => ?refused, fun src k v hmay => ?written⟩
  case fires =>
    have hfire := State.actionsFire_event (s := s) (temp := temp) hdue hst hresv hkind
    have hmod : a.param.toNat % 32 = a.param.toNat := Nat.mod_eq_of_lt hparam
    let st := s.firedStatus ⟨c, e.val, a⟩
    refine ⟨(s.setAct c e.val { a with status := st }).event c a.param.toNat, ?_, ?_, ?_, rfl, fun d hd => ?_⟩
    · show execActionFire temp s = _
      rw [execActionFire, State.live_of_not_stopped hlive, hbus, if_pos rfl, hfire]
      dsimp only
      rw [hmod]; rfl
    · rw [State.event_core, CoreSt.event_pend _ hparam]
    · have hacts : (((s.setAct c e.val { a with status := st }).event c a.param.toNat).core c).acts =
          (s.core c).acts.setIfInBounds e.val { a with status := st } := by
        rw [State.event_core, CoreSt.event_acts, State.setAct_core]
      simp only [hacts, Fin.getElem_fin, Vector.getElem_setIfInBounds_self]
      rfl
    · rw [State.event_core_ne _ _ hd, State.setAct_core_ne _ _ _ hd]
  case delivered =>
    obtain ⟨l, hdel, hl⟩ := State.deliver_line hf hdue hcons
    rw [hch] at hdel
    refine ⟨s.deliver ch.val, ?_, ?_, ?_, fun c hc => ⟨?_, fun d hd => ?_⟩⟩
    · show execLatticeEventDelivery ch s = _
      rw [execLatticeEventDelivery, State.live_of_not_stopped hlive, hbus, if_pos rfl]
    · rw [hdel]; exact hl
    · rw [hdel]; rfl
    all_goals
      have hcore : (⟨f.cons / 32 % 4, Nat.mod_lt _ (by decide)⟩ : CoreId) = c := Fin.ext (by show f.cons / 32 % 4 = c.val; omega)
      rw [hdel, hcore]
    · rw [State.event_core, CoreSt.event_pend _ (Nat.mod_lt _ (by decide))]
    · rw [State.event_core_ne _ _ hd]; rfl
  case storm =>
    let u := ({ s with lattice := { s.lattice with storm := tabSet (fun _ => (0, 0)) s.lattice.storm ch.val (0, 0) } } : State)
    let t := ((u.put (LAT_CH_EN ch.val) 0).put LAT_SINFO_CHAN ch.val).put LAT_SINFO_VALID 1
    have hch (r : Nat) (h : 0xC3100 ≤ r) : (LAT_CH_EN ch.val).reg ≠ r := by simp only [LAT_CH_EN, LAT_CH]; omega
    have hen : t.test (LAT_CH_EN ch.val) = false := by
      rw [State.test_put_ne _ _ (hch _ (by decide)), State.test_put_ne _ _ (hch _ (by decide)),
        State.test_put_same _ _ _ (Nat.le_of_ble_eq_true rfl) (Nat.le_of_ble_eq_true rfl) (Nat.le_of_ble_eq_true rfl)]
      rfl
    have hchan : t.get LAT_SINFO_CHAN = ch.val := by
      rw [State.get_put_other _ _ (by decide) (by decide) (by decide), State.get_put_same _ _ _ (by decide) (by decide)]
      exact Nat.mod_eq_of_lt ch.isLt
    have hstill : s.Still t :=
      (((⟨State.memKept_of_tables rfl rfl rfl rfl, fun _ => rfl⟩ : s.Still u).trans (State.Still.put _ _ _)).trans
        (State.Still.put _ _ _)).trans (State.Still.put _ _ _)
    have hend := (hstill.trans (State.Still.raise t LAT_FLAGS_STORM)).trans (State.Still.report _ 18 (BitVec.ofNat 20 ch.val))
    have hget {f : Field} (h : outsideRepeat f) : ((t.raise LAT_FLAGS_STORM).report 18 (BitVec.ofNat 20 ch.val)).get f =
        (t.raise LAT_FLAGS_STORM).get f := State.report_get_high _ _ _ (by decide) h
    refine ⟨(t.raise LAT_FLAGS_STORM).report 18 (BitVec.ofNat 20 ch.val), ?_, ?_, ?_, ?_, ?_,
      State.report_status (by decide) _ _, hend.mem, hend.cores⟩
    · show execStorm ch s = _
      rw [execStorm, State.during, if_pos hrun, if_neg (Nat.not_lt.mpr hrun')]
    · rw [State.test, hget ⟨by simp only [LAT_CH_EN, LAT_CH]; omega, .inr (Nat.le_of_ble_eq_true rfl)⟩]
      exact (State.raise_test_ne _ _ (hch _ (by decide))).trans hen
    · rw [State.test, hget ⟨by decide, .inl (by decide)⟩]
      exact State.raise_self _ _ (by decide) (by decide)
    · rw [State.stormOf, State.report_lattice, State.raise_lattice (by decide)]
      exact congrArg Prod.snd (tabGet_set_same (fun _ => ((0 : Nat), (0 : Nat))) s.lattice.storm ch.val (0, 0))
    · rw [hget ⟨by decide, .inl (by decide)⟩, State.raise_get_ne _ _ (by decide)]
      exact hchan
  case refused =>
    have hpriv : latPrivileged ofs.toNat = true := by simp [latPrivileged, hlo, hhi]
    have hreach : s.mayReach (.core c false) (0xC3000 + ofs.toNat) = true := by
      have hblock : (0xC3000 + ofs.toNat - 0xC0000) / 0x1000 = 3 := latBlock ofs.isLt
      have hblock' : (0xC3000 + ofs.toNat + 1 - 1 - 0xC0000) / 0x1000 = 3 := latBlock ofs.isLt
      simp only [State.mayReach, State.taskMay, Bool.false_or, hblock, hblock', hperm, Bool.and_self]
    refine ⟨s.raise LAT_FLAGS_PRIV_REFUSED, ?_, State.raise_self _ _ (by decide) (by decide), fun a ha => ?_,
      (State.Still.raise s _).mem, (State.Still.raise s _).cores⟩
    · show execLatticeConfigWrite (.core c false) ofs v s = _
      rw [execLatticeConfigWrite, State.during, if_pos hclk, State.reachWith, if_pos hreach, State.latWrite, hpriv]
      rfl
    · exact State.raise_rg_ne _ _ (fun h => ha (h ▸ List.mem_singleton_self _))
  case written =>
    have hofs : (BitVec.ofNat 12 (0x240 + 4 * k.val)).toNat = 0x240 + 4 * k.val := by
      rw [BitVec.toNat_ofNat]; exact Nat.mod_eq_of_lt (by omega)
    have hpriv : latPrivileged (0x240 + 4 * k.val) = false := by
      simp only [latPrivileged, Bool.or_eq_false_iff, Bool.and_eq_false_iff, decide_eq_false_iff_not]; omega
    obtain ⟨r, hrow, hmasks⟩ := Option.map_eq_some_iff.mp (regRow_latReq k)
    have haddr : 0xC3000 + (0x240 + 4 * k.val) = 0xC3240 + 4 * k.val := by omega
    have hval : (v &&& 0xFFFFF) ||| (s.rg (0xC3240 + 4 * k.val) &&& ~~~(0xFFFFF : W20)) = v := by
      ext i hi
      have : (0xFFFFF : W20)[i] = true := by rw [show (0xFFFFF : W20) = BitVec.allOnes 20 from rfl, BitVec.getElem_allOnes]
      simp only [BitVec.getElem_or, BitVec.getElem_and, BitVec.getElem_not, this, Bool.and_true, Bool.not_true, Bool.and_false,
        Bool.or_false]
    have hwrite : s.latWrite src (0x240 + 4 * k.val) v =
        (s.setRg (0xC3240 + 4 * k.val) (regMerge r (s.rg (0xC3240 + 4 * k.val)) v)).latchReqs := by
      unfold State.latWrite
      simp only [hpriv, Bool.false_and, Bool.false_eq_true, if_false, haddr, hrow, if_neg (show ¬ 0x240 + 4 * k.val < 0x0E0 by omega),
        if_neg (show ¬ 0x240 + 4 * k.val < 0x200 by omega), hval]
    have hrg (a : Nat) : (s.latWrite src (0x240 + 4 * k.val) v).rg a =
        (s.setRg (0xC3240 + 4 * k.val) (regMerge r (s.rg (0xC3240 + 4 * k.val)) v)).rg a := by
      rw [hwrite, State.rg, State.latchReqs_regs]; rfl
    have hstill : s.Still (s.latWrite src (0x240 + 4 * k.val) v) := by
      rw [hwrite]; exact (State.Still.setRg s _ _).trans (State.latchReqs_still _)
    refine ⟨s.latWrite src (0x240 + 4 * k.val) v, ?_, ?_, fun a ha => ?_, hstill.mem, hstill.cores⟩
    · show execLatticeConfigWrite src (BitVec.ofNat 12 (0x240 + 4 * k.val)) v s = _
      rw [execLatticeConfigWrite, State.during, if_pos hclk, hofs, haddr, State.reachWith, if_pos hmay]
    · rw [hrg, State.rg_setRg_same, regMerge_plain hmasks]
    · rw [hrg]; exact State.rg_setRg_ne _ _ (fun h => ha (List.mem_singleton.mpr h))

end Sys2Proof.Machine
end

section
/-! SUPPORT. Register writes by a master (R5, R101, R120, R122, R132) and bus timeouts, and the statement about them. -/

set_option Elab.async false

namespace Sys2Proof.Machine

theorem regMerge_all {r : RegRow} (hrow : (r.rw, r.w1c, r.w1s) = (0xFFFFF, 0, 0)) (old v : W20) : regMerge r old v = v := by
  obtain ⟨hrw, hw1c, hw1s⟩ : r.rw = 0xFFFFF ∧ r.w1c = 0 ∧ r.w1s = 0 := by simpa using hrow
  rw [regMerge, hrw, hw1c, hw1s]
  ext i hi
  have : (BitVec.ofNat 20 0xFFFFF)[i] = true := by
    rw [show BitVec.ofNat 20 0xFFFFF = BitVec.allOnes 20 from rfl, BitVec.getElem_allOnes]
  simp only [BitVec.getElem_and, BitVec.getElem_or, BitVec.getElem_not, this, BitVec.ofNat_eq_ofNat, BitVec.getElem_zero,
    Bool.and_false, Bool.or_false, Bool.not_false, Bool.and_true, Bool.not_true, Bool.false_or]

theorem regRow_lead : (regRow MNG_LEAD).map (fun r => (r.rw, r.w1c, r.w1s)) = some (0xFFFFF, 0, 0) := by decide

/-- MNG_LEAD is a plain register: its write is followed by the requests alone. -/
theorem State.regWrite_lead (s : State) (src : Source) (v : W20) : s.regWrite src MNG_LEAD v = (s.setRg MNG_LEAD v).latchReqs := by
  obtain ⟨r, hrow, hmasks⟩ := Option.map_eq_some_iff.mp regRow_lead
  have hplain : s.plainWrite MNG_LEAD v = s.setRg MNG_LEAD v := by
    rw [State.plainWrite, hrow]
    exact congrArg (s.setRg MNG_LEAD) (regMerge_all hmasks _ _)
  have hmng : s.writeMng MNG_LEAD v = s.plainWrite MNG_LEAD v := by
    rw [State.writeMng, if_neg (by decide), show ix MNG_LEAD (MNG_EXT 0) 4 4 = none from by decide]
  have hlist : regListed MNG_LEAD = true := by decide
  rw [State.regWrite, hlist, if_neg (by decide)]
  exact congrArg State.latchReqs (hmng.trans hplain)

/-- A write at a multiple of 4 while the clocks run. -/
theorem exec_registerWrite {s : State} (hclk : s.clocked = true) (src : Source) (addr v : W20) :
    exec (.registerWrite src addr v) s =
      .next (if addr.toNat % 4 == 0 then s.reachWith src addr.toNat (fun t => t.regWrite src addr.toNat v) else s) := by
  show execRegisterWrite src addr v s = _
  rw [execRegisterWrite, State.during, if_pos hclk]

theorem State.reachWith_may {s : State} {src : Source} {a : Nat} (h : s.mayReach src a = true) (f : State → State) :
    s.reachWith src a f = f s := by rw [State.reachWith, if_pos h]

/-- Settles O27: a write goes by its address, then by what the master may reach, then by the register. -/
theorem registerWriteAndTimeoutEffects : Obligations.RegisterWriteAndTimeoutEffects := by
  unfold Obligations.RegisterWriteAndTimeoutEffects
  intro s hclk
  have hlead (src : Source) (v : W20) : exec (.registerWrite src (BitVec.ofNat 20 MNG_LEAD) v) s =
      .next (s.reachWith src MNG_LEAD (fun t => t.regWrite src MNG_LEAD v)) := exec_registerWrite hclk src _ v
  have hrun {o : Out} (hphase : s.power.phase = .run) : s.during s.inRun o = o := by
    have hstopped : s.stopped = false := by
      cases h : s.stopped
      · rfl
      · rw [State.clocked_stopped h] at hclk; exact absurd hclk Bool.false_ne_true
    rw [State.during, State.inRun, hstopped, hphase]; rfl
  refine ⟨fun src v hmay => ?lead, fun v hphase hperm => ?host, fun c v hperm => ?task, fun src addr v hodd => ?odd,
    fun c a hphase hruns hlo hhi hact => ?core, fun hphase => ?hostTimeout⟩
  case lead =>
    have hrg (a : Nat) : (s.setRg MNG_LEAD v).latchReqs.rg a = (s.setRg MNG_LEAD v).rg a := by
      rw [State.rg, State.rg, State.latchReqs_regs]
    have hstill := (State.Still.setRg s MNG_LEAD v).trans (State.latchReqs_still _)
    refine ⟨(s.setRg MNG_LEAD v).latchReqs, ?_, ?_, fun a ha => ?_, hstill.mem, hstill.cores⟩
    · rw [hlead, State.reachWith_may hmay, State.regWrite_lead]
    · rw [hrg, State.rg_setRg_same]
    · rw [hrg, State.rg_setRg_ne _ _ (fun h => ha (List.mem_singleton.mpr h))]
  case host =>
    have hmay : s.mayReach .host MNG_LEAD = false := by
      rw [State.mayReach, State.hostMay, if_neg (by decide), if_pos (by decide)]
      rw [show (MNG_LEAD - 0xC0000) / 0x1000 = 1 from rfl, hperm, Bool.and_eq_false_iff]
      exact .inr (by decide)
    rw [hlead, State.reachWith, hmay, if_neg Bool.false_ne_true, if_pos ⟨rfl, State.awake_of_run hphase⟩]
    rfl
  case task =>
    have hmay : s.mayReach (.core c false) MNG_LEAD = false := by
      rw [State.mayReach, State.taskMay, Bool.false_or]
      exact Bool.and_eq_false_iff.mpr (.inl hperm)
    rw [hlead, State.reachWith, hmay, if_neg Bool.false_ne_true, if_neg (fun h => Source.noConfusion h.1)]
  case odd =>
    rw [exec_registerWrite hclk, if_neg (by rw [beq_iff_eq]; exact hodd)]
  case core =>
    have hfault : s.dataFault c 5 a = _ := State.takeException_free s c 3 5 a (s.core c).pc hact
    refine ⟨s.dataFault c 5 a, ?_, ?_⟩
    · show execBusTimeout (.core c a) s = _
      rw [execBusTimeout, hrun hphase]
      rw [if_pos (by rw [hruns, decide_eq_true hlo, decide_eq_true hhi]; rfl)]
    · rw [hfault]
      beta_reduce
      rw [State.core_setCore_same]
      exact ⟨rfl, rfl, rfl, rfl, fun d hd => State.core_setCore_ne _ _ hd, rfl, State.memKept_of_tables rfl rfl rfl rfl⟩
  case hostTimeout =>
    obtain ⟨herr, hcause, hstill⟩ := s.hitchErr_shows 4 (by decide)
    refine ⟨(s.hitchErr 4).hitchSend [s.hitchStatusByte, 0xFF, 0xFF, 0xFF, 0xE5, 0xFF], ?_, herr, hcause, rfl,
      fun a ha => ?_, hstill.mem, hstill.cores⟩
    · show execBusTimeout .host s = _
      rw [execBusTimeout, hrun hphase]
      rw [if_pos (State.awake_of_run hphase)]
    · have hne : a ≠ HSP_FLAGS := fun h => ha (List.mem_singleton.mpr h)
      show ((s.put HSP_FLAGS_CAUSE 4).put HSP_FLAGS_ERR 1).rg a = s.rg a
      rw [State.rg_put_ne _ _ _ hne, State.rg_put_ne _ _ _ hne]

end Sys2Proof.Machine
end

section
/-! SUPPORT. The flash controller (R126, R127, R481): a write of FLC_CMD, what an operation leaves in the flash, and the
statement about it. -/

set_option Elab.async false

namespace Sys2Proof.Machine

/-! ## Tables cut by key -/

theorem tabFind_filter_keep {α : Type} {p : Nat → Bool} {k : Nat} (h : p k = true) :
    ∀ t : Tab α, tabFind (t.filter (fun e => p e.1)) k = tabFind t k
  | [] => rfl
  | (j, v) :: r => by
    by_cases hj : p j = true
    · rw [List.filter_cons_of_pos (p := fun e : Nat × α => p e.1) hj, tabFind, tabFind, tabFind_filter_keep h r]
    · rw [List.filter_cons_of_neg (p := fun e : Nat × α => p e.1) hj, tabFind, if_neg (show ¬ j = k from fun e => hj (e ▸ h)), tabFind_filter_keep h r]

theorem tabFind_none {α : Type} {k : Nat} : ∀ {t : Tab α}, (∀ e ∈ t, e.1 ≠ k) → tabFind t k = none
  | [], _ => rfl
  | (j, v) :: r, h => by
    rw [tabFind, if_neg (h (j, v) List.mem_cons_self), tabFind_none (fun e he => h e (List.mem_cons_of_mem _ he))]

theorem tabFind_filter_drop {α : Type} {p : Nat → Bool} {k : Nat} (h : p k = false) (t : Tab α) :
    tabFind (t.filter (fun e => p e.1)) k = none :=
  tabFind_none fun e he hk => by
    have := (List.mem_filter.mp he).2
    rw [hk, h] at this
    exact Bool.false_ne_true this

theorem tabFind_append {α : Type} (k : Nat) (u : Tab α) : ∀ t : Tab α, tabFind (t ++ u) k = (tabFind t k).or (tabFind u k)
  | [] => rfl
  | (j, v) :: r => by
    rw [List.cons_append, tabFind, tabFind, tabFind_append k u r]
    split <;> rfl

/-- Outside the range a filled table reads as before. -/
theorem tabGet_fill_out {α : Type} [DecidableEq α] (d : Nat → α) (t : Tab α) (lo n : Nat) (f : Nat → α) {k : Nat}
    (h : k < lo ∨ lo + n ≤ k) : tabGet d (tabFill d t lo n f) k = tabGet d t k := by
  have hmid : tabFind (((List.range n).map (fun i => (lo + i, f i))).filter (fun e => e.2 ≠ d e.1)) k = none := by
    refine tabFind_none fun e he hk => ?_
    obtain ⟨i, hi, rfl⟩ := List.mem_map.mp (List.mem_of_mem_filter he)
    rw [List.mem_range] at hi
    simp only [] at hk
    omega
  rw [tabGet, tabGet, tabFill, tabFind_append, tabFind_append, hmid]
  rcases h with h | h
  · rw [tabFind_filter_keep (p := fun j => decide (j < lo)) (decide_eq_true h)]
    cases tabFind t k with
    | some v => rfl
    | none =>
      rw [tabFind_filter_drop (p := fun j => decide (lo + n ≤ j)) (decide_eq_false (by omega))]
      rfl
  · rw [tabFind_filter_drop (p := fun j => decide (j < lo)) (decide_eq_false (by omega)),
      tabFind_filter_keep (p := fun j => decide (lo + n ≤ j)) (decide_eq_true h)]
    rfl

/-! ## The flash's bytes -/

/-- A program's bytes are ANDed in, from its first address on. -/
theorem State.flashByte_program : ∀ (l : List Byte) (s : State) (f : Nat),
    (∀ i b, l[i]? = some b → (s.flashProgram f l).flashByte (f + i) = s.flashByte (f + i) &&& b) ∧
      (∀ k, k < f ∨ f + l.length ≤ k → (s.flashProgram f l).flashByte k = s.flashByte k)
  | [], s, f => ⟨fun i b h => by rw [List.getElem?_nil] at h; exact absurd h (by simp), fun _ _ => rfl⟩
  | b :: l, s, f => by
    let u : State := { s with flash := tabSet flashDflt s.flash f (s.flashByte f &&& b) }
    have hu (k : Nat) : u.flashByte k = if k = f then s.flashByte f &&& b else s.flashByte k := tabGet_set _ _ _ _ _
    obtain ⟨hat, hout⟩ := State.flashByte_program l u (f + 1)
    refine ⟨fun i c h => ?_, fun k hk => ?_⟩
    · cases i with
      | zero =>
        obtain rfl : b = c := by simpa using h
        exact (hout f (.inl (Nat.lt_succ_self f))).trans ((hu f).trans (if_pos rfl))
      | succ i =>
        have := hat i c (by simpa using h)
        rw [hu, if_neg (by omega), show f + 1 + i = f + (i + 1) by omega] at this
        exact this
    · have hlen : (b :: l).length = l.length + 1 := rfl
      exact (hout k (by omega)).trans ((hu k).trans (if_neg (by omega)))

theorem State.flashByte_erase (s : State) (f n k : Nat) :
    (s.flashErase f n).flashByte k = if k < f ∨ f + n ≤ k then s.flashByte k else 0xFF := by
  rw [State.flashByte, State.flashByte, State.flashErase, tabGet, tabGet]
  dsimp only
  split
  next h => rw [tabFind_filter_keep (p := fun j => decide (j < f) || decide (f + n ≤ j)) (by simpa using h)]
  next h =>
    rw [tabFind_filter_drop (p := fun j => decide (j < f) || decide (f + n ≤ j)) (by simpa using h)]
    rfl

/-- What an operation that succeeds leaves (R127, R481). -/
theorem State.flashByte_apply (s : State) (op : FlashOp) (hlen : op.data.length ≤ op.len) :
    (∀ i b, op.erase = false → op.data[i]? = some b → (s.flashApply op).flashByte (op.ofs + i) = s.flashByte (op.ofs + i) &&& b) ∧
      (∀ i, i < op.len → op.erase = true → (s.flashApply op).flashByte (op.ofs + i) = 0xFF) ∧
      (∀ f, f < op.ofs ∨ op.ofs + op.len ≤ f → (s.flashApply op).flashByte f = s.flashByte f) := by
  unfold State.flashApply
  cases herase : op.erase with
  | false =>
    obtain ⟨hat, hout⟩ := State.flashByte_program op.data s op.ofs
    exact ⟨fun i b _ h => hat i b h, fun _ _ h => absurd h Bool.false_ne_true, fun f h => hout f (by omega)⟩
  | true =>
    refine ⟨fun _ _ h => absurd h (by decide), fun i hi _ => ?_, fun f h => ?_⟩
    · exact (s.flashByte_erase _ _ _).trans (if_neg (by omega))
    · exact (s.flashByte_erase _ _ _).trans (if_pos h)

/-- An operation touches the flash alone. -/
theorem State.flashApply_eq (s : State) (op : FlashOp) : ∃ l, s.flashApply op = { s with flash := l } := by
  have hprog : ∀ (l : List Byte) (s : State) (f : Nat), ∃ m, s.flashProgram f l = { s with flash := m } := by
    intro l
    induction l with
    | nil => exact fun s _ => ⟨s.flash, rfl⟩
    | cons b l ih => exact fun s f => ih { s with flash := tabSet flashDflt s.flash f (s.flashByte f &&& b) } (f + 1)
  unfold State.flashApply
  split
  · exact ⟨_, rfl⟩
  · exact hprog _ _ _

/-! ## A refusal -/

/-- ERR with its cause. -/
theorem State.flashErr_shows (cause : Nat) (hc : cause < 8) (s : State) :
    (s.flashErr cause).test FLC_STATUS_ERR = true ∧ (s.flashErr cause).get FLC_STATUS_CAUSE = cause ∧
      (∀ f : Field, f.reg = FLC_STATUS → f.hi < 2 → (s.flashErr cause).get f = s.get f) ∧
      (s.flashErr cause).flashOp = s.flashOp ∧ s.regsKept (s.flashErr cause) [FLC_STATUS] ∧ s.Still (s.flashErr cause) := by
  refine ⟨State.raise_self _ _ (by decide) (by decide), ?_, fun f hr hf => ?_, by simp [State.flashErr], fun a ha => ?_,
    (State.Still.put s _ _).trans (State.Still.raise _ _)⟩
  · rw [State.flashErr, State.raise_get, State.get_put_other _ _ (by decide) (by decide) (by decide),
      State.get_put_same _ _ _ (by decide) (by decide)]
    exact Nat.mod_eq_of_lt hc
  · rw [State.flashErr, State.raise_get, State.get_put_disjoint _ _ _ _ (by decide) (by decide) hr (.inl hf),
      State.get_put_disjoint _ _ _ _ (by decide) (by decide) hr (.inl (Nat.lt_trans hf (by decide)))]
  · have hne : a ≠ FLC_STATUS := fun h => ha (List.mem_singleton.mpr h)
    rw [State.flashErr, State.raise_rg_ne _ _ hne, State.rg_put_ne _ _ _ hne]

/-! ## The command word -/

/-- The word that a program command writes. -/
def flashWord (len : BitVec 9) (o : BitVec 8) : W20 := BitVec.ofNat 20 (2 ^ 18 + len.toNat * 2 ^ 9 + o.toNat)

theorem flashWord_toNat (len : BitVec 9) (o : BitVec 8) : (flashWord len o).toNat = 2 ^ 18 + len.toNat * 2 ^ 9 + o.toNat := by
  rw [flashWord, BitVec.toNat_ofNat]; exact Nat.mod_eq_of_lt (by omega)

theorem flashMask_bits : ∀ i : Fin 20, (0xFFEFF : W20).getLsbD i.val = decide (i.val ≠ 8) := by decide

/-- Bit 8 of FLC_CMD is not stored, and no program command sets it. -/
theorem flashWord_masked (len : BitVec 9) (o : BitVec 8) : flashWord len o &&& 0xFFEFF = flashWord len o := by
  apply BitVec.eq_of_getLsbD_eq
  intro i hi
  rw [BitVec.getLsbD_and, flashMask_bits ⟨i, hi⟩]
  by_cases h : i = 8
  · subst h
    have hbit : (flashWord len o).getLsbD 8 = false := by
      rw [BitVec.getLsbD, flashWord_toNat, Nat.testBit_eq_decide_div_mod_eq]
      exact decide_eq_false (by omega)
    rw [hbit]; rfl
  · rw [decide_eq_true h, Bool.and_true]

theorem flashWord_fields (len : BitVec 9) (o : BitVec 8) : fieldGet (flashWord len o) 19 18 = 1 ∧
    fieldGet (flashWord len o) 17 9 = len.toNat ∧ fieldGet (flashWord len o) 7 0 = o.toNat := by
  simp only [fieldGet, flashWord_toNat, Nat.shiftRight_eq_div_pow]
  refine ⟨?_, ?_, ?_⟩ <;> omega

/-! ## A command of an idle controller -/

section Idle

variable {s : State} (hbusy : s.test FLC_STATUS_BUSY = false) (hrun : s.update.run = none)
  (hpage : 256 * s.get FLC_ADDR_PAGE < s.flashSize)


include hrun in
theorem State.updHolds_idle : s.updHolds = false := by
  rw [State.updHolds, hrun]; rfl

theorem State.flashSize_setCmd (v : W20) : (s.setRg FLC_CMD v).flashSize = s.flashSize := by
  rw [State.flashSize, State.flashSize, State.test_setRg_ne s v (by decide), State.get_setRg_ne s v (by decide)]

/-- The fields of FLC_CMD that a program writes. -/
theorem State.setCmd_fields (len : BitVec 9) (o : BitVec 8) :
    (s.setRg FLC_CMD (flashWord len o)).get FLC_CMD_OP = 1 ∧ (s.setRg FLC_CMD (flashWord len o)).get FLC_CMD_LEN = len.toNat ∧
      (s.setRg FLC_CMD (flashWord len o)).get FLC_CMD_PAGE_OFS = o.toNat := by
  obtain ⟨hop, hlen, hofs⟩ := flashWord_fields len o
  have hfield (f : Field) (hr : f.reg = FLC_CMD) :
      (s.setRg FLC_CMD (flashWord len o)).get f = fieldGet (flashWord len o) f.hi f.lo := by
    rw [State.get, hr, State.rg_setRg_same]
  exact ⟨(hfield FLC_CMD_OP rfl).trans hop, (hfield FLC_CMD_LEN rfl).trans hlen, (hfield FLC_CMD_PAGE_OFS rfl).trans hofs⟩

include hbusy hrun hpage

/-- A program of no bytes or past its page (R126). -/
theorem State.flashCmd_refused {len : BitVec 9} {o : BitVec 8}
    (h : len.toNat = 0 ∨ 256 < len.toNat ∨ 256 < o.toNat + len.toNat) :
    s.flashCmd (flashWord len o) = (s.setRg FLC_CMD (flashWord len o)).flashErr 3 := by
  obtain ⟨hop, hlen, hofs⟩ := State.setCmd_fields (s := s) len o
  unfold State.flashCmd
  rw [hbusy, State.updHolds_idle hrun, Bool.or_false, if_neg Bool.false_ne_true, flashWord_masked]
  dsimp only
  rw [hop, hlen, hofs, State.get_setRg_ne s _ (g := FLC_ADDR_PAGE) (by decide), State.flashSize_setCmd, if_neg (by decide),
    if_neg (Nat.not_le.mpr hpage), if_pos rfl, if_pos h]

/-- A program takes its bytes from shared SRAM. -/
theorem State.flashCmd_starts {len : BitVec 9} {o : BitVec 8}
    (h : ¬ (len.toNat = 0 ∨ 256 < len.toNat ∨ 256 < o.toNat + len.toNat)) (hsram : inSram (s.get FLC_SRC_SRC) len.toNat = true)
    (hgood : (s.setRg FLC_CMD (flashWord len o)).allGood .sram (s.get FLC_SRC_SRC) len.toNat) :
    s.flashCmd (flashWord len o) = { (s.setRg FLC_CMD (flashWord len o)).put FLC_STATUS_BUSY 1 with
      flashOp := some ⟨false, 256 * s.get FLC_ADDR_PAGE + o.toNat, len.toNat,
        (s.setRg FLC_CMD (flashWord len o)).bytes .sram (s.get FLC_SRC_SRC) len.toNat⟩ } := by
  obtain ⟨hop, hlen, hofs⟩ := State.setCmd_fields (s := s) len o
  unfold State.flashCmd
  rw [hbusy, State.updHolds_idle hrun, Bool.or_false, if_neg Bool.false_ne_true, flashWord_masked]
  dsimp only
  rw [hop, hlen, hofs, State.get_setRg_ne s _ (g := FLC_ADDR_PAGE) (by decide), State.get_setRg_ne s _ (g := FLC_SRC_SRC) (by decide),
    State.flashSize_setCmd, if_neg (by decide), if_neg (Nat.not_le.mpr hpage), if_pos rfl, if_neg h, hsram, if_neg (by decide),
    State.ramRead_good _ _ _ _ hgood]

/-- An erase takes the whole erase block that holds the page. -/
theorem State.flashCmd_erase : s.flashCmd 0x80000 = { (s.setRg FLC_CMD 0x80000).put FLC_STATUS_BUSY 1 with
    flashOp := some ⟨true, 256 * s.get FLC_ADDR_PAGE / 2 ^ s.get FLC_INFO_ERASE_LOG2 * 2 ^ s.get FLC_INFO_ERASE_LOG2,
      2 ^ s.get FLC_INFO_ERASE_LOG2, []⟩ } := by
  have hop : (s.setRg FLC_CMD 0x80000).get FLC_CMD_OP = 2 := by
    rw [State.get, show FLC_CMD_OP.reg = FLC_CMD from rfl, State.rg_setRg_same]; rfl
  unfold State.flashCmd
  rw [hbusy, State.updHolds_idle hrun, Bool.or_false, if_neg Bool.false_ne_true, show (0x80000 : W20) &&& 0xFFEFF = 0x80000 from rfl]
  dsimp only
  rw [hop, State.get_setRg_ne s _ (g := FLC_ADDR_PAGE) (by decide), State.get_setRg_ne s _ (g := FLC_INFO_ERASE_LOG2) (by decide),
    State.flashSize_setCmd, if_neg (by decide), if_neg (Nat.not_le.mpr hpage), if_neg (by decide)]

end Idle

/-- Settles O28: a command is decided by BUSY, then by its fields, and an operation's end by its kind. -/
theorem flashControllerEffects : Obligations.FlashControllerEffects := by
  unfold Obligations.FlashControllerEffects
  intro s hclk page src
  have hexecP (len : BitVec 9) (o : BitVec 8) : exec (.flashProgram len o) s = .next (s.flashCmd (flashWord len o)) := by
    show execFlashProgram len o s = _
    rw [execFlashProgram, State.during, if_pos hclk]; rfl
  have hexecE : exec .flashErase s = .next (s.flashCmd 0x80000) := by
    show execFlashErase s = _
    rw [execFlashErase, State.during, if_pos hclk]
  refine ⟨fun len o hbusy hrun hpage => ⟨fun hne hle hin hsrc hgood => ?program, fun hbad => ?refused⟩,
    fun hbusy hrun hpage => ?erase, fun hbusy => ?busy, fun op hin hop hlen => ?done, fun op hin hop => ?failed⟩
  case program =>
    let t := s.setRg FLC_CMD (flashWord len o)
    have hall : t.allGood .sram src len.toNat := State.allGood_of_groups fun g hlo hhi => by
      rw [Ram.group, Nat.mul_div_cancel_left g (by decide)]; exact hgood g hlo hhi
    have hsram : inSram (s.get FLC_SRC_SRC) len.toNat = true := decide_eq_true hsrc
    have hbytes : t.bytes .sram src len.toNat = s.bytes .sram src len.toNat := by
      have (n : Nat) : ∀ a, t.bytes .sram a n = s.bytes .sram a n := by
        induction n with
        | zero => exact fun _ => rfl
        | succ n ih => exact fun a => by rw [State.bytes, State.bytes, ih]; rfl
      exact this _ _
    have hcmd : s.flashCmd (flashWord len o) = { t.put FLC_STATUS_BUSY 1 with
        flashOp := some ⟨false, page + o.toNat, len.toNat, s.bytes .sram src len.toNat⟩ } := by
      rw [State.flashCmd_starts hbusy hrun hpage (by omega) hsram hall, hbytes]
    refine ⟨_, (hexecP len o).trans (congrArg Host.Outcome.next hcmd), ?_, rfl, fun a ha => ?_, State.memKept_of_tables rfl rfl rfl rfl, rfl⟩
    · exact (State.test_put_same t FLC_STATUS_BUSY 1 (by decide) (by decide) (by decide))
    · have hne : a ≠ FLC_STATUS ∧ a ≠ FLC_CMD := by simp only [List.mem_cons, List.not_mem_nil, or_false, not_or] at ha; exact ha.symm
      show (t.put FLC_STATUS_BUSY 1).rg a = s.rg a
      rw [State.rg_put_ne _ _ _ hne.1, State.rg_setRg_ne _ _ hne.2]
  case refused =>
    obtain ⟨herr, hcause, -, hflash, -, hstill⟩ := (s.setRg FLC_CMD (flashWord len o)).flashErr_shows 3 (by decide)
    have hend := (State.Still.setRg s FLC_CMD (flashWord len o)).trans hstill
    refine ⟨_, (hexecP len o).trans (congrArg Host.Outcome.next ?_), herr, hcause, hflash, hend.mem, hend.cores⟩
    exact State.flashCmd_refused hbusy hrun hpage (by omega)
  case erase =>
    intro sz
    let t := s.setRg FLC_CMD 0x80000
    refine ⟨_, hexecE.trans (congrArg Host.Outcome.next (State.flashCmd_erase hbusy hrun hpage)), ?_, rfl, fun a ha => ?_, State.memKept_of_tables rfl rfl rfl rfl, rfl⟩
    · exact State.test_put_same t FLC_STATUS_BUSY 1 (by decide) (by decide) (by decide)
    · have hne : a ≠ FLC_STATUS ∧ a ≠ FLC_CMD := by simp only [List.mem_cons, List.not_mem_nil, or_false, not_or] at ha; exact ha.symm
      show (t.put FLC_STATUS_BUSY 1).rg a = s.rg a
      rw [State.rg_put_ne _ _ _ hne.1, State.rg_setRg_ne _ _ hne.2]
  case busy =>
    obtain ⟨herr, hcause, -, hflash, hregs, hstill⟩ := s.flashErr_shows 1 (by decide)
    refine ⟨s.flashErr 1, hexecE.trans ?_, herr, hcause, hflash, hregs, hstill.mem, hstill.cores⟩
    rw [State.flashCmd, hbusy, Bool.true_or, if_pos rfl]
  case done =>
    let t : State := { s.put FLC_STATUS_BUSY 0 with flashOp := none }
    obtain ⟨hand, hff, hout⟩ := t.flashByte_apply op hlen
    obtain ⟨l, hl⟩ := t.flashApply_eq op
    have hraise (f : Nat) : ((t.flashApply op).raise FLC_STATUS_DONE).flashByte f = (t.flashApply op).flashByte f := by
      rw [State.flashByte, State.flashByte, State.raise_flash]
    refine ⟨(t.flashApply op).raise FLC_STATUS_DONE, ?_, ?_, State.raise_self _ _ (by decide) (by decide), ?_,
      fun i b he h => (hraise _).trans (hand i b he h), fun i hi he => (hraise _).trans (hff i hi he),
      fun f hf => (hraise f).trans (hout f hf), fun r a => ?_, fun a ha => ?_, fun c => ?_⟩
    · show execFlashOpDone true s = _
      rw [execFlashOpDone, State.during, if_pos hin, hop]
      rfl
    · rw [State.raise_flashOp, hl]
    · rw [hl, State.test, State.raise_get, State.get_put_other _ _ (by decide) (by decide) (by decide)]
      exact State.test_put_same s FLC_STATUS_BUSY 0 (by decide) (by decide) (by decide)
    · rw [hl]; cases r <;> simp only [State.byte, State.raise_sram, State.raise_pram] <;> rfl
    · have hne : a ≠ FLC_STATUS := fun h => ha (List.mem_singleton.mpr h)
      rw [State.raise_rg_ne _ _ hne, hl]
      exact State.rg_put_ne s FLC_STATUS_BUSY 0 hne
    · rw [State.raise_bare, hl]; rfl
  case failed =>
    let t : State := { s.put FLC_STATUS_BUSY 0 with flashOp := none }
    obtain ⟨herr, hcause, hlow, hflash, -, hstill⟩ := (t.flashTorn op).flashErr_shows 5 (by decide)
    refine ⟨(t.flashTorn op).flashErr 5, ?_, hflash.trans rfl, herr, hcause, ?_, fun f hf => ?_⟩
    · show execFlashOpDone false s = _
      rw [execFlashOpDone, State.during, if_pos hin, hop]
      rfl
    · rw [State.test, hlow _ rfl (by decide)]
      exact State.test_put_same s FLC_STATUS_BUSY 0 (by decide) (by decide) (by decide)
    · rw [hstill.mem.2.2]
      exact tabGet_fill_out _ _ _ _ _ hf

end Sys2Proof.Machine
end

section
/-! SUPPORT. Control of the DMA channels (R340, R347, R350, R351), and the statement about it. -/

set_option Elab.async false

namespace Sys2Proof.Machine

/-! ## A consumer asks -/

theorem State.mangerOnly_ask (s : State) (cls : Nat) (hs : List Nat) : s.MangerOnly (s.ask cls hs) := by
  unfold State.ask
  induction hs generalizing s with
  | nil => exact State.MangerOnly.rfl' s
  | cons h l ih => exact (s.mangerOnly_askOne cls [h]).trans (ih _)

/-- A consumer that asks holds its charge or waits for it (R33). -/
theorem State.ask_one (s : State) (cls h : Nat) : (s.ask cls [h]).holds h = true ∨ (s.ask cls [h]).asked h = true := by
  show (s.askOne cls [h]).holds h = true ∨ (s.askOne cls [h]).asked h = true
  unfold State.askOne
  cases hh : s.holds h with
  | true => rw [List.filter_cons_of_neg (by rw [hh]; simp), List.filter_nil]; exact .inl hh
  | false =>
    cases ha : s.asked h with
    | true => rw [List.filter_cons_of_neg (by rw [hh, ha]; simp), List.filter_nil]; exact .inr ha
    | false =>
      rw [List.filter_cons_of_pos (by rw [hh, ha]; simp), List.filter_nil]
      refine .inr (List.any_eq_true.mpr ⟨⟨h, cls, s.tick, false, .holders [h]⟩, mem_waitInsert _ _, ?_⟩)
      simp

/-! ## Channels and descriptors -/

section Channel

variable (s : State) {n : Nat}

theorem State.dmaDesc_setDesc (hn : n < 12) (d : Option DmaDesc) : (s.setDesc n d).dmaDesc n = d := by
  simp only [State.dmaDesc, State.setDesc, State.modDma, Vector.getElem?_toList]
  rw [Vector.getElem?_setIfInBounds_self_of_lt hn]
  rfl

theorem State.dmaForget_rg (a : Nat) : (s.dmaForget n).rg a = s.rg a := rfl

/-- A descriptor goes, and ENDED is raised. -/
theorem State.endedDesc_frame (hn : n < 12) : ((s.setDesc n none).raise DMA_FLAGS_ENDED).test DMA_FLAGS_ENDED = true ∧
    ((s.setDesc n none).raise DMA_FLAGS_ENDED).dmaDesc n = none ∧
    (∀ a, a ≠ DMA_FLAGS → ((s.setDesc n none).raise DMA_FLAGS_ENDED).rg a = s.rg a) ∧
    s.Still ((s.setDesc n none).raise DMA_FLAGS_ENDED) := by
  have hdesc := s.dmaDesc_setDesc hn none
  have hset : s.Still (s.setDesc n none) := ⟨State.memKept_of_tables rfl rfl rfl rfl, fun _ => rfl⟩
  refine ⟨State.raise_self _ _ (by decide) (by decide), ?_, fun a ha => ?_, hset.trans (State.Still.raise _ _)⟩
  · rw [State.dmaDesc, State.raise_dma]; exact hdesc
  · rw [State.raise_rg_ne _ _ ha, State.setDesc_rg]

/-- The end of a channel by a cause other than its last descriptor (R346, R347). -/
theorem State.dmaEnd_shows (hn : n < 12) {cause : Nat} (hc : cause ≠ 1) (hlt : cause < 16) :
    (s.dmaEnd n cause).dmaSt n = 0 ∧ (s.dmaEnd n cause).get (DMA_CH_STAT_CAUSE n) = cause ∧
      (s.dmaEnd n cause).test DMA_FLAGS_ENDED = true ∧ (s.dmaEnd n cause).dmaDesc n = none ∧
      s.regsKept (s.dmaEnd n cause) [DMA_CH_STAT n, DMA_FLAGS] ∧ s.Still (s.dmaEnd n cause) := by
  have hreg : DMA_CH_STAT n ≠ DMA_FLAGS := by simp only [DMA_CH_STAT, DMA_FLAGS]; omega
  obtain ⟨hended, hdesc, hrg, hstill⟩ :=
    State.endedDesc_frame ((s.put (DMA_CH_STAT_STATE n) 0).put (DMA_CH_STAT_CAUSE n) cause) hn
  have hget (f : Field) (hf : f.reg = DMA_CH_STAT n) : (s.dmaEnd n cause).get f =
      ((s.put (DMA_CH_STAT_STATE n) 0).put (DMA_CH_STAT_CAUSE n) cause).get f := by
    rw [State.dmaEnd, if_neg hc, State.get, State.get, hrg _ (hf ▸ hreg)]
  have hend := ((State.Still.put s (DMA_CH_STAT_STATE n) 0).trans (State.Still.put _ (DMA_CH_STAT_CAUSE n) cause)).trans hstill
  refine ⟨?_, ?_, ?_, ?_, fun a ha => ?_, ?_⟩
  · rw [State.dmaSt, hget _ rfl, State.get_put_other _ _ (Nat.le_of_ble_eq_true rfl) (Nat.le_of_ble_eq_true rfl)
      (.inr (.inr (Nat.le_of_ble_eq_true rfl))), State.get_put_same _ _ _ (Nat.le_of_ble_eq_true rfl) (Nat.le_of_ble_eq_true rfl)]
    exact Nat.zero_mod _
  · rw [hget _ rfl, State.get_put_same _ _ _ (Nat.le_of_ble_eq_true rfl) (Nat.le_of_ble_eq_true rfl)]
    exact Nat.mod_eq_of_lt hlt
  · rw [State.dmaEnd, if_neg hc]; exact hended
  · rw [State.dmaEnd, if_neg hc]; exact hdesc
  · obtain ⟨hstat, hflags⟩ : a ≠ DMA_CH_STAT n ∧ a ≠ DMA_FLAGS := by simpa using ha
    rw [State.dmaEnd, if_neg hc, hrg a hflags, State.rg_put_ne _ _ _ hstat, State.rg_put_ne _ _ _ hstat]
  · rw [State.dmaEnd, if_neg hc]; exact hend

/-- The start of an idle channel. -/
theorem State.dmaStart_idle (h : s.dmaSt n = 0) :
    (s.dmaStart n).dmaSt n = 1 ∧ (s.dmaStart n).rg (DMA_CH_HOPS n) = 0 ∧
      ((s.dmaStart n).holds 15 = true ∨ (s.dmaStart n).asked 15 = true) ∧
      s.regsKept (s.dmaStart n) [DMA_CH_HOPS n, DMA_CH_STAT n] ∧ s.memKept (s.dmaStart n) ∧ (s.dmaStart n).cores = s.cores := by
  let t := ((s.dmaForget n).setRg (DMA_CH_HOPS n) 0).put (DMA_CH_STAT_STATE n) 1
  have hstart : s.dmaStart n = t.ask 0 [15] := by rw [State.dmaStart, if_neg (fun hne => hne h)]
  have hask := t.mangerOnly_ask 0 [15]
  have hreg : DMA_CH_HOPS n ≠ DMA_CH_STAT n := by simp only [DMA_CH_HOPS, DMA_CH_STAT]; omega
  rw [hstart]
  refine ⟨?_, ?_, t.ask_one 0 15, fun a ha => ?_, (State.memKept_of_tables (t := t) rfl rfl rfl rfl).trans hask.memKept,
    hask.cores⟩
  · rw [State.dmaSt, hask.get]
    exact (State.get_put_same _ _ _ (Nat.le_of_ble_eq_true rfl) (Nat.le_of_ble_eq_true rfl))
  · rw [hask.rg]
    exact (State.rg_put_ne _ (DMA_CH_STAT_STATE n) 1 hreg).trans (State.rg_setRg_same _ _ _)
  · obtain ⟨hhops, hstat⟩ : a ≠ DMA_CH_HOPS n ∧ a ≠ DMA_CH_STAT n := by simpa using ha
    rw [hask.rg]
    exact (State.rg_put_ne _ (DMA_CH_STAT_STATE n) 1 hstat).trans (State.rg_setRg_ne _ _ hhops)

/-- A start of a channel at work. -/
theorem State.dmaStart_missed (h : s.dmaSt n ≠ 0) :
    (s.dmaStart n).test (DMA_CH_STAT_MISSED n) = true ∧ (s.dmaStart n).dmaSt n = s.dmaSt n ∧ (s.dmaStart n).dma = s.dma ∧
      s.regsKept (s.dmaStart n) [DMA_CH_STAT n] ∧ s.memKept (s.dmaStart n) ∧ (s.dmaStart n).cores = s.cores := by
  have hstart : s.dmaStart n = s.put (DMA_CH_STAT_MISSED n) 1 := by rw [State.dmaStart, if_pos h]
  rw [hstart]
  refine ⟨?_, ?_, rfl, fun a ha => ?_, State.memKept_of_tables rfl rfl rfl rfl, rfl⟩
  · exact State.test_put_same s _ 1 (Nat.le_of_ble_eq_true rfl) (Nat.le_of_ble_eq_true rfl) (Nat.le_of_ble_eq_true rfl)
  · exact State.get_put_other s _ (Nat.le_of_ble_eq_true rfl) (Nat.le_of_ble_eq_true rfl) (.inr (.inr (Nat.le_of_ble_eq_true rfl)))
  · exact State.rg_put_ne s (DMA_CH_STAT_MISSED n) 1 (fun h => ha (List.mem_singleton.mpr h))

end Channel

/-- A written START that does not merge with an event of its bus cycle: the channel's start, in a state that differs in
the lattice alone. -/
theorem State.dmaStartWrite_plain {s : State} {n : Nat}
    (h : ¬ (s.test (DMA_CH_CFG_LSTART n) = true ∧ s.lattice.acts.contains (0x98 + n, s.lattice.cyc) = true)) :
    ∃ l, s.dmaStartWrite n = State.dmaStart { s with lattice := l } n := by
  unfold State.dmaStartWrite
  split
  next hl =>
    rw [State.writeAction, if_neg (fun hc => h ⟨hl, hc⟩)]
    exact ⟨_, rfl⟩
  next => exact ⟨s.lattice, rfl⟩

/-- A written START that merges (R364). -/
theorem State.dmaStartWrite_merges {s : State} {n : Nat} (hn : n < 12) (hl : s.test (DMA_CH_CFG_LSTART n) = true)
    (hc : s.lattice.acts.contains (0x98 + n, s.lattice.cyc) = true) :
    s.dmaStartWrite n = (s.setRg (LAT_OVL 1) (s.rg (LAT_OVL 1) ||| BitVec.twoPow 20 (n + 4))).raise LAT_FLAGS_OVERLAP := by
  have hbit : ovlBit (0x98 + n) = some (1, n + 4) := by
    rw [ovlBit, if_neg (by omega), if_pos (by omega)]
    exact congrArg (fun k => some (1, k)) (by omega)
  rw [State.dmaStartWrite, if_pos hl, State.writeAction, if_pos hc, State.overlap, hbit]

/-- A range of shared SRAM passes the check (R342). -/
theorem State.rangeFail_sram {s : State} {wr : Bool} {a n : Nat} (h : a + n ≤ 0xA0000) : s.rangeFail wr a n = none := by
  unfold State.rangeFail
  refine if_pos ?_
  by_cases hlt : a < 0xA0000
  · rw [State.regionEnd, if_pos hlt]; exact h
  · have : a = 0xA0000 ∧ n = 0 := by omega
    obtain ⟨rfl, rfl⟩ := this
    unfold State.regionEnd
    simp

theorem State.rangeCheck_sram {s : State} {n : Nat} {d : DmaDesc} (hsrc : d.src + d.srcLen ≤ 0xA0000)
    (hdst : d.dst + d.dstLen ≤ 0xA0000) : s.rangeCheck n d = s := by
  rw [State.rangeCheck, State.rangeFail_sram hsrc, State.rangeFail_sram hdst]

/-- Settles O29: what a control does is decided by the channel's state, HALT and the descriptor. -/
theorem dmaControlEffects : Obligations.DmaControlEffects := by
  unfold Obligations.DmaControlEffects
  intro s hclk
  have hstart (ch : Fin 12) : exec (.dmaStart ch) s = .next (s.dmaStartWrite ch.val) := by
    show execDmaStart ch s = _
    rw [execDmaStart, State.during, if_pos hclk]
  have habort (ch : Fin 12) : exec (.dmaAbort ch) s = .next (s.dmaAbort ch.val) := by
    show execDmaAbort ch s = _
    rw [execDmaAbort, State.during, if_pos hclk]
  refine ⟨fun ch => ⟨fun hst hmerge => ?start, fun hst hmerge => ?missed, fun hmerge => ?merges, fun hhalt => ?abortHalt,
    fun hst => ?abortIdle, fun hst hhalt => ?abortFetch, fun d hd hst hfin => ?abortDone, fun d hd hst hhalt hfin => ?abortMark,
    fun d hd hst hhalt hsrc hdst => ?resume⟩, ?release, fun hrun hquiet => ?idle⟩
  case start =>
    obtain ⟨l, hl⟩ := State.dmaStartWrite_plain hmerge
    exact ⟨_, (hstart ch).trans (congrArg Host.Outcome.next hl), State.dmaStart_idle { s with lattice := l } hst⟩
  case missed =>
    obtain ⟨l, hl⟩ := State.dmaStartWrite_plain hmerge
    exact ⟨_, (hstart ch).trans (congrArg Host.Outcome.next hl), State.dmaStart_missed { s with lattice := l } hst⟩
  case merges =>
    have hstill := (State.Still.setRg s (LAT_OVL 1) (s.rg (LAT_OVL 1) ||| BitVec.twoPow 20 (ch.val + 4))).trans
      (State.Still.raise _ LAT_FLAGS_OVERLAP)
    have hstat : DMA_CH_STAT ch.val ≠ LAT_FLAGS ∧ DMA_CH_STAT ch.val ≠ LAT_OVL 1 := by
      simp only [DMA_CH_STAT, LAT_FLAGS, LAT_OVL]; omega
    refine ⟨_, (hstart ch).trans (congrArg Host.Outcome.next (State.dmaStartWrite_merges ch.isLt hmerge.1 hmerge.2)), ?_,
      State.raise_self _ _ (by decide) (by decide), by rw [State.raise_dma]; rfl, hstill.mem, hstill.cores⟩
    rw [State.dmaSt, State.raise_get_ne _ _ hstat.1]
    exact State.get_setRg_ne s _ hstat.2
  case abortHalt => rw [habort, State.dmaAbort, if_pos hhalt]
  case abortIdle =>
    rw [habort, State.dmaAbort, hst]
    split <;> rfl
  case abortFetch =>
    obtain ⟨hst0, hcause, hended, hdesc, hregs, hstill⟩ := s.dmaEnd_shows ch.isLt (cause := 5) (by decide) (by decide)
    refine ⟨s.dmaEnd ch.val 5, (habort ch).trans ?_, hst0, hcause, hended, hdesc, hregs, hstill.mem, hstill.cores⟩
    rw [State.dmaAbort, hhalt, if_neg Bool.false_ne_true, hst]
    cases s.dmaDesc ch.val <;> rfl
  case abortDone =>
    rw [habort, State.dmaAbort, hd]
    rcases hst with hst | hst <;> rw [hst] <;> simp only [hfin, if_true] <;> split <;> rfl
  case abortMark =>
    refine ⟨s.setDesc ch.val (some { d with aborted := true }), (habort ch).trans ?_, State.dmaDesc_setDesc s ch.isLt _, rfl,
      State.memKept_of_tables rfl rfl rfl rfl, rfl⟩
    rw [State.dmaAbort, hhalt, if_neg Bool.false_ne_true, hd]
    rcases hst with hst | hst <;> rw [hst] <;> simp only [hfin, Bool.false_eq_true, if_false]
  case resume =>
    let d' : DmaDesc := { d with read := s.get (DMA_CH_DONE_VALUE ch.val), carry := [], aborted := false }
    let t := (s.dmaForget ch.val).ask 0 [15]
    have hask := (s.dmaForget ch.val).mangerOnly_ask 0 [15]
    have hres : s.dmaResume ch.val = (t.setDesc ch.val (some d')).put (DMA_CH_STAT_STATE ch.val) 2 := by
      rw [State.dmaResume, if_neg (not_or.mpr ⟨fun hne => hne hst, by rw [hhalt]; exact Bool.false_ne_true⟩), hd]
      exact State.rangeCheck_sram hsrc hdst
    have hregs : t.regs = s.regs := hask.regs
    refine ⟨(t.setDesc ch.val (some d')).put (DMA_CH_STAT_STATE ch.val) 2, ?_, ?_, State.dmaDesc_setDesc t ch.isLt _,
      (s.dmaForget ch.val).ask_one 0 15, fun a ha => ?_, ?_, hask.cores⟩
    · show execDmaResume ch s = _
      rw [execDmaResume, State.during, if_pos hclk, hres]
    · exact State.get_put_same _ _ _ (Nat.le_of_ble_eq_true rfl) (Nat.le_of_ble_eq_true rfl)
    · rw [State.rg_put_ne _ _ _ (fun h => ha (List.mem_singleton.mpr h))]
      show t.rg a = s.rg a
      rw [State.rg, State.rg, hregs]
    · exact (State.memKept_of_tables (t := s.dmaForget ch.val) rfl rfl rfl rfl).trans (hask.memKept.trans
        (State.memKept_of_tables rfl rfl rfl rfl))
  case release =>
    show execDmaHaltRelease s = _
    rw [execDmaHaltRelease, State.during, if_pos hclk]
  case idle =>
    have hdrop := s.mangerOnly_drop [15]
    refine ⟨s.drop [15], ?_, s.drop_holds 15, hdrop.regs, hdrop.memKept, hdrop.cores⟩
    show execDmaIdle s = _
    rw [execDmaIdle, State.during, if_pos hrun, if_pos hquiet]

end Sys2Proof.Machine
end

section
/-! SUPPORT. The amplifier's tables (R155-R159) in an ORBIT pass (R501): a run that has not ended. -/

set_option Elab.async false

namespace Sys2Proof.Machine

/-- In an ORBIT pass, a run of table 0 whose step 0 is due: the step's levels assert no pin of a tied holder, and its
END bit is 0. -/
def passRun : State :=
  { State.reset with
    power := { State.reset.power with phase := .pass }
    radio := { State.reset.radio with pa := some ⟨0, 0, 0, false⟩ } }

theorem passRun_inAir : passRun.inAir = true := by decide +kernel

theorem passRun_asserts : passRun.paAsserts ((passRun.rg (0xC9080 + 0x40 * 0 + 8 * 0)).setWidth 15) = [] := by decide +kernel

theorem passRun_unended : (passRun.rg (0xC9080 + 0x40 * 0 + 8 * 0)).getLsbD 19 = false := by decide +kernel

/-- In the pass the one step stands, and the run ends with it. -/
theorem passRun_paDo : (passRun.paDo 0 0).radio.pa = none := by decide +kernel

/-- Refutes O32: in an ORBIT pass the run ends at its first step, though that step's END bit is 0 (R501). -/
theorem not_gainDetectorAndAmplifierEffects : ¬ Obligations.GainDetectorAndAmplifierEffects := by
  unfold Obligations.GainDetectorAndAmplifierEffects
  intro h
  obtain ⟨-, -, -, -, hpa⟩ := h passRun passRun_inAir
  have hrun := hpa ⟨0, 0, 0, false⟩ rfl
  dsimp only at hrun
  rw [passRun_asserts] at hrun
  obtain ⟨t, hstep, -, hnext, -⟩ := (hrun (by intro q _ hq; cases hq)).1 rfl (Nat.zero_le _)
  have hexec : exec .paStep passRun = .next (passRun.paDo 0 0) := by
    show execPaStep passRun = _
    rw [execPaStep, State.during, if_pos passRun_inAir]
    rfl
  rw [hexec] at hstep
  injection hstep with ht
  rw [← ht, passRun_paDo, passRun_unended, if_neg (by decide)] at hnext
  cases hnext

end Sys2Proof.Machine
end

section
/-! SUPPORT. Calibration (R162): a state in which the log of a report changes RFE_IQA. -/

set_option Elab.async false

namespace Sys2Proof.Machine

/-- A state whose log names entry 0x6F4, at the address of RFE_IQA: an IQA step is at its last tick, and stall 0, which
is not on, holds descriptor 0 of a pool whose COUNT is 0. The status bit of source 2 is set. -/
def strayCalLog : State :=
  let s := { State.reset with
    tick := 7680
    faults := { State.reset.faults with order := [0x6F4] }
    radio := { State.reset.radio with cal := [.iqa], calBegun := some 0 }
    pools := State.reset.pools.set 0 ⟨[], [(0, .stall)]⟩ }
  ((s.put (faultBit 2) 1).put (STL_STATUS_STATE 0) 5).put (STL_STATUS_HOLDS 0) 1

theorem strayCalLog_inAir : strayCalLog.inAir = true := by decide +kernel

theorem strayCalLog_step : strayCalLog.radio.cal = [.iqa] ∧ strayCalLog.radio.calBegun = some 0 ∧
    CalStep.iqa.ticks ≤ strayCalLog.tick - 0 := by decide +kernel

/-- The state after the step has written its trim 0xA0002. -/
def strayCalDone : State :=
  ((((strayCalLog.setRg RFE_IQA 0xA0002).modRadio (fun r => { r with cal := [], calBegun := none })).calFinish .iqa 0).stallSync)

/-- Stall 0 gives its descriptor back, the pool's check fails, and the repeated report counts in the entry. -/
theorem strayCalDone_trim : strayCalDone.rg RFE_IQA = 0xA0402 := by decide +kernel

theorem strayCalLog_exec : exec (.calStepDone 0xA0002 0) strayCalLog = .next strayCalDone := by
  obtain ⟨hcal, hbegun, hticks⟩ := strayCalLog_step
  show execCalStepDone 0xA0002 strayCalLog 0 = _
  rw [execCalStepDone, State.during, if_pos strayCalLog_inAir, hcal, hbegun]
  dsimp only
  rw [if_neg (show ¬ strayCalLog.since 0 < CalStep.iqa.ticks from Nat.not_lt.mpr hticks)]
  rfl

/-- Refutes O34: with an entry of the log at the address of RFE_IQA, the report that follows the end of the IQ step
changes the trim that the step has written. -/
theorem not_calibrationEffects : ¬ Obligations.CalibrationEffects := by
  unfold Obligations.CalibrationEffects
  intro h
  obtain ⟨hcal, hbegun, hticks⟩ := strayCalLog_step
  obtain ⟨-, hdone, -⟩ := h strayCalLog strayCalLog_inAir
  obtain ⟨t, hstep, -, -, htrim, -⟩ := hdone .iqa [] 0 0xA0002 0 hcal hbegun hticks
  rw [strayCalLog_exec] at hstep
  injection hstep with ht
  have htrim := htrim rfl
  rw [← ht, strayCalDone_trim] at htrim
  exact absurd htrim (by decide)

end Sys2Proof.Machine
end

section
/-! SUPPORT. Operations that touch only named registers, and the real-time clock with its backup domain (R380-R388). -/

set_option Elab.async false

namespace Sys2Proof.Machine

/-- Beside the registers of `but` and pending bits, the map, the memory and the cores are as before. -/
structure State.Within (but : List Nat) (s t : State) : Prop where
  regs  : s.regsKept t but
  still : s.Still t

namespace State.Within

variable {but : List Nat} {s t u : State}

theorem rfl' (s : State) : s.Within but s := ⟨fun _ _ => rfl, State.Still.rfl' s⟩

theorem trans (h : s.Within but t) (g : t.Within but u) : s.Within but u :=
  ⟨fun a ha => (g.regs a ha).trans (h.regs a ha), h.still.trans g.still⟩

theorem setRg (s : State) {a : Nat} (v : W20) (ha : a ∈ but) : s.Within but (s.setRg a v) :=
  ⟨fun _ hb => State.rg_setRg_ne s v (fun h => hb (h ▸ ha)), State.Still.setRg s a v⟩

theorem put (s : State) {f : Field} (n : Nat) (hf : f.reg ∈ but) : s.Within but (s.put f n) := setRg s _ hf

theorem raise (s : State) {f : Field} (hf : f.reg ∈ but) : s.Within but (s.raise f) :=
  ⟨fun _ hb => State.raise_rg_ne f s (fun h => hb (h ▸ hf)), State.Still.raise s f⟩

theorem fire (s : State) (p : Nat) : s.Within but (s.fire p) := by
  obtain ⟨l, h⟩ := s.fire_eq p
  rw [h]
  exact ⟨fun _ _ => rfl, State.memKept_of_tables rfl rfl rfl rfl, fun _ => rfl⟩

theorem latchReqs (s : State) : s.Within but s.latchReqs := ⟨fun a _ => s.latchReqs_rg a, s.latchReqs_still⟩

theorem ite {p : Prop} [Decidable p] (ht : s.Within but t) (hu : s.Within but u) :
    s.Within but (if p then t else u) := by
  split <;> assumption

theorem foldl {α : Type} (f : State → α → State) (l : List α) (h : ∀ t, ∀ x ∈ l, State.Within but t (f t x)) (s : State) :
    s.Within but (l.foldl f s) :=
  foldl_inv (s.Within but) f l s (fun t x hx ht => ht.trans (h t x hx)) (rfl' s)

/-- An update of the clock's own fields. -/
theorem rtc (s : State) (r : Rtc) : s.Within but { s with rtc := r } :=
  ⟨fun _ _ => rfl, State.memKept_of_tables rfl rfl rfl rfl, fun _ => rfl⟩

theorem mono {l : List Nat} (h : s.Within but t) (hl : ∀ a ∈ but, a ∈ l) : s.Within l t :=
  ⟨fun a ha => h.regs a (fun hb => ha (hl a hb)), h.still⟩

theorem get (h : s.Within but t) {f : Field} (hf : f.reg ∉ but) : t.get f = s.get f := by
  rw [State.get, State.get, h.regs _ hf]

theorem test (h : s.Within but t) {f : Field} (hf : f.reg ∉ but) : t.test f = s.test f := by
  rw [State.test, State.test, h.get hf]

end State.Within

/-! ## An edge of the slow clock (R380-R384) -/

/-- The end of an edge: nothing is pending, and the alarms have seen the time. -/
def State.rtcEnd (u : State) (skip0 skip1 : Bool) : State :=
  (State.alarmEdge { u.put RTC_STAT_PEND 0 with rtc := { u.rtc with pend := .none } } 0 skip0).alarmEdge 1 skip1

theorem State.alarmEdge_eq (s : State) (k : Nat) (skipped : Bool) : ∃ r, s.alarmEdge k skipped = { s with rtc := r } ∧
    r.time = s.rtc.time ∧ r.date = s.rtc.date ∧ r.pend = s.rtc.pend := by
  by_cases hk : k = 0
  · exact ⟨_, rfl, by simp only [hk, if_pos], by simp only [hk, if_pos], by simp only [hk, if_pos]⟩
  · exact ⟨_, rfl, by simp only [hk, if_false], by simp only [hk, if_false], by simp only [hk, if_false]⟩

theorem State.rtcEnd_eq (u : State) (skip0 skip1 : Bool) : ∃ r, u.rtcEnd skip0 skip1 = { u.put RTC_STAT_PEND 0 with rtc := r } ∧
    r.time = u.rtc.time ∧ r.date = u.rtc.date ∧ r.pend = .none := by
  obtain ⟨r0, h0, htime0, hdate0, hpend0⟩ :=
    State.alarmEdge_eq { u.put RTC_STAT_PEND 0 with rtc := { u.rtc with pend := .none } } 0 skip0
  obtain ⟨r1, h1, htime1, hdate1, hpend1⟩ :=
    State.alarmEdge_eq { u.put RTC_STAT_PEND 0 with rtc := r0 } 1 skip1
  refine ⟨r1, ?_, htime1.trans htime0, hdate1.trans hdate0, hpend1.trans hpend0⟩
  rw [State.rtcEnd, h0]
  exact h1

/-- What the end of an edge shows of a state `u` that has counted and applied what was pending. -/
theorem State.rtcEnd_shows {s u : State} {l : List Nat} (skip0 skip1 : Bool) (h : s.Within l u) (hl : RTC_STAT ∈ l) :
    let t := u.rtcEnd skip0 skip1
    t.get RTC_SUBSEC_SUBSEC = u.get RTC_SUBSEC_SUBSEC ∧ t.rtc.time = u.rtc.time ∧ t.rtc.date = u.rtc.date ∧
      t.rtc.pend = .none ∧ t.test RTC_STAT_PEND = false ∧ t.test RTC_FLAGS_SECOND = u.test RTC_FLAGS_SECOND ∧
      s.Within l t := by
  obtain ⟨r, hr, htime, hdate, hpend⟩ := u.rtcEnd_eq skip0 skip1
  dsimp only
  rw [hr]
  refine ⟨State.get_put_ne u (f := RTC_STAT_PEND) (g := RTC_SUBSEC_SUBSEC) 0 (by decide), htime, hdate, hpend,
    State.test_put_same u RTC_STAT_PEND 0 (by decide) (by decide) (by decide),
    State.test_put_ne u (f := RTC_STAT_PEND) (g := RTC_FLAGS_SECOND) 0 (by decide), h.trans ((State.Within.put u 0 hl).trans (State.Within.rtc _ _))⟩

theorem State.rtcEdge_idle {s : State} (h : s.rtcCount.rtc.pend = .none) : ∃ p q, s.rtcEdge = s.rtcCount.rtcEnd p q := by
  unfold State.rtcEdge
  dsimp only
  rw [h]
  exact ⟨_, _, rfl⟩

theorem State.rtcEdge_apply {s : State} {a b c : Option W20} (h : s.rtcCount.rtc.pend = .apply a b c) :
    ∃ p q, s.rtcEdge = (s.rtcCount.rtcApply a b c).rtcEnd p q := by
  unfold State.rtcEdge
  dsimp only
  rw [h]
  exact ⟨_, _, rfl⟩

theorem State.rtcEdge_shift {s : State} {n : Int} (h : s.rtcCount.rtc.pend = .shift n) :
    ∃ p q, s.rtcEdge = (s.rtcCount.rtcMove n).rtcEnd p q := by
  unfold State.rtcEdge
  dsimp only
  rw [h]
  exact ⟨_, _, rfl⟩

theorem State.rtcCount_low {s : State} (h : s.get RTC_SUBSEC_SUBSEC < 32767) :
    s.rtcCount = s.put RTC_SUBSEC_SUBSEC (s.get RTC_SUBSEC_SUBSEC + 1) := if_pos h

theorem State.get_subsec_low {s : State} (h : s.get RTC_SUBSEC_SUBSEC < 32767) :
    (s.put RTC_SUBSEC_SUBSEC (s.get RTC_SUBSEC_SUBSEC + 1)).get RTC_SUBSEC_SUBSEC = s.get RTC_SUBSEC_SUBSEC + 1 :=
  (State.get_put_same _ _ _ (by decide) (by decide)).trans (Nat.mod_eq_of_lt (Nat.succ_lt_succ h))

/-- The count at the last sub-second rolls the second over. -/
theorem State.rtcCount_rollover {s : State} (h : s.get RTC_SUBSEC_SUBSEC = 32767) :
    let t := s.rtcCount
    let c := (nextSecond (calOf s.rtc.time s.rtc.date)).1
    t.get RTC_SUBSEC_SUBSEC = 0 ∧ t.rtc = { s.rtc with time := timeWord c, date := dateWord c } ∧
      t.test RTC_FLAGS_SECOND = true ∧ s.Within [RTC_SUBSEC, RTC_FLAGS, RTC_STAT] t := by
  dsimp only
  rw [State.rtcCount, if_neg (by rw [h]; decide)]
  dsimp only
  have hzero := State.get_put_same s RTC_SUBSEC_SUBSEC 0 (by decide) (by decide)
  have hw := (State.Within.put (but := [RTC_SUBSEC, RTC_FLAGS, RTC_STAT]) s (f := RTC_SUBSEC_SUBSEC) 0 (by decide)).trans
    (State.Within.rtc _ { s.rtc with
      time := timeWord (nextSecond (calOf s.rtc.time s.rtc.date)).1, date := dateWord (nextSecond (calOf s.rtc.time s.rtc.date)).1 })
  split
  · refine ⟨?_, by rw [State.raise_rtc, State.raise_rtc], ?_,
      (hw.trans (State.Within.raise _ (f := RTC_FLAGS_SECOND) (by decide))).trans (State.Within.raise _ (by decide))⟩
    · rw [State.raise_get_ne _ _ (by decide), State.raise_get_ne _ _ (by decide)]
      exact hzero
    · rw [State.raise_test, State.test, State.get_put_disjoint _ _ _ _ (by decide) (by decide) (by decide) (by decide)]
      exact State.raise_self _ _ (by decide) (by decide)
  · refine ⟨?_, by rw [State.raise_rtc], State.raise_self _ _ (by decide) (by decide),
      hw.trans (State.Within.raise _ (by decide))⟩
    rw [State.raise_get_ne _ _ (by decide)]
    exact hzero

theorem timeWord_second (c : Cal) (h : c.s < 64) : fieldGet (timeWord c) 5 0 = c.s := by
  simp only [fieldGet, timeWord, BitVec.toNat_ofNat, Nat.shiftRight_zero]
  omega

/-- The staged groups replace what they name. -/
theorem State.rtcApply_shows (s : State) (a b c : Option W20) :
    let t := s.rtcApply a b c
    (a = none → t.get RTC_SUBSEC_SUBSEC = s.get RTC_SUBSEC_SUBSEC) ∧
      (∀ v, a = some v → t.get RTC_SUBSEC_SUBSEC = v.toNat % 2 ^ 15) ∧ t.rtc.time = b.getD s.rtc.time ∧
      (c = none → t.rtc.date = s.rtc.date) ∧ (∀ v, c = some v → t.rtc.date = dateWord (calOf 0 v)) ∧
      s.Within [RTC_SUBSEC, RTC_STAT] t := by
  have hdate {d : W20} : (c = none → (c.map (fun v => dateWord (calOf 0 v))).getD d = d) ∧
      ∀ v, c = some v → (c.map (fun v => dateWord (calOf 0 v))).getD d = dateWord (calOf 0 v) := by
    constructor <;> intros <;> subst c <;> rfl
  cases a with
  | none => exact ⟨fun _ => rfl, fun _ hv => absurd hv (by simp), rfl, hdate.1, hdate.2, State.Within.rtc _ _⟩
  | some w =>
    refine ⟨fun hn => absurd hn (by simp), fun v hv => ?_, rfl, hdate.1, hdate.2,
      (State.Within.put s (f := RTC_SUBSEC_SUBSEC) w.toNat (by decide)).trans (State.Within.rtc _ _)⟩
    obtain rfl := Option.some.inj hv
    exact State.get_put_same s RTC_SUBSEC_SUBSEC w.toNat (by decide) (by decide)

/-- A shift that stays in the second. -/
theorem State.rtcMove_within {s : State} {n : Int} (hlo : 0 ≤ (s.get RTC_SUBSEC_SUBSEC : Int) + n)
    (hhi : (s.get RTC_SUBSEC_SUBSEC : Int) + n < 32768) :
    ((s.rtcMove n).get RTC_SUBSEC_SUBSEC : Int) = s.get RTC_SUBSEC_SUBSEC + n ∧
      s.Within [RTC_SUBSEC, RTC_STAT] (s.rtcMove n) := by
  rw [State.rtcMove]
  dsimp only
  rw [if_neg (Int.not_lt.mpr hlo), if_neg (Int.not_le.mpr hhi)]
  dsimp only
  rw [if_neg Bool.false_ne_true]
  refine ⟨?_, (State.Within.put s (f := RTC_SUBSEC_SUBSEC) _ (by decide)).trans (State.Within.rtc _ _)⟩
  have hget := State.get_put_same s RTC_SUBSEC_SUBSEC ((s.get RTC_SUBSEC_SUBSEC : Int) + n).toNat (by decide) (by decide)
  have hval : ((s.get RTC_SUBSEC_SUBSEC : Int) + n).toNat % 2 ^ 15 = ((s.get RTC_SUBSEC_SUBSEC : Int) + n).toNat := by omega
  calc _ = ((((s.get RTC_SUBSEC_SUBSEC : Int) + n).toNat % 2 ^ 15 : Nat) : Int) := congrArg Int.ofNat hget
    _ = _ := by omega

/-! ## The backup domain (R386, R388) -/

theorem regMerge_half {r : RegRow} (hrow : (r.rw, r.w1c, r.w1s) = (0xFFFF, 0, 0)) (old v : W20) :
    regMerge r old v &&& 0xFFFF = v &&& 0xFFFF := by
  obtain ⟨hrw, hw1c, hw1s⟩ : r.rw = 0xFFFF ∧ r.w1c = 0 ∧ r.w1s = 0 := by simpa using hrow
  rw [regMerge, hrw, hw1c, hw1s]
  ext i hi
  simp only [BitVec.getElem_and, BitVec.getElem_or, BitVec.getElem_not, BitVec.ofNat_eq_ofNat, BitVec.getElem_zero,
    Bool.and_false, Bool.or_false, Bool.not_false, Bool.and_true]
  cases (0xFFFF#20)[i] <;> simp

/-- Each backup register has a row of sixteen plain bits. -/
theorem regRow_backup : ∀ k : Fin 16, ∃ r, regRow (RTC_BKP k.val) = some r ∧ (r.rw, r.w1c, r.w1s) = (0xFFFF, 0, 0) := by
  decide +kernel

theorem State.backupApply_bkp (s : State) {a : Nat} (v : W20) (hlo : RTC_BKP 0 ≤ a) (hhi : a < RTC_BKP 16) (h4 : a % 4 = 0) :
    (s.backupApply a v).rg a &&& 0xFFFF = v &&& 0xFFFF ∧ (s.backupApply a v).rtc.late = s.rtc.late ∧
      s.Within [a] (s.backupApply a v) := by
  obtain ⟨k, rfl⟩ : ∃ k : Fin 16, a = RTC_BKP k.val := by
    simp only [RTC_BKP] at hlo hhi ⊢
    exact ⟨⟨(a - 0xC5080) / 4, by omega⟩, by show a = _ + 4 * ((a - 0xC5080) / 4); omega⟩
  obtain ⟨r, hrow, hmasks⟩ := regRow_backup k
  rw [State.backupApply, hrow]
  refine ⟨?_, by rw [State.latchReqs_rtc]; rfl,
    ((State.Within.setRg s _ (List.mem_singleton_self _)).trans (State.Within.rtc _ _)).trans (State.Within.latchReqs _)⟩
  rw [State.latchReqs_rg]
  exact (congrArg (· &&& 0xFFFF) (State.rg_setRg_same _ _ _)).trans (regMerge_half hmasks _ _)

/-- The registers of a list, each written with one value. -/
theorem State.rg_foldl_setRg {α : Type} (f : α → Nat) (v : W20) (l : List α) (s : State) (a : Nat) :
    (l.foldl (fun t x => t.setRg (f x) v) s).rg a = if a ∈ l.map f then v else s.rg a := by
  induction l generalizing s with
  | nil => rfl
  | cons x r ih =>
    rw [List.foldl_cons, ih, State.rg_setRg]
    by_cases hx : a = f x <;> simp [hx]

/-- One alarm switched off and set back (R388). -/
@[irreducible] def State.alarmCleared (t : State) (k : Nat) : State :=
  ((((t.put (RTC_ALCFG_EN k) 0).put (RTC_ALCFG_WAKE k) 0).setRg (RTC_ALSUB k) 0).setRg (RTC_ALTIME k) 0).setRg
    (RTC_ALDATE k) 0x0010E

/-- The registers that clearing the two alarms writes. -/
def alarmRegs : List Nat :=
  [RTC_ALCFG 0, RTC_ALSUB 0, RTC_ALTIME 0, RTC_ALDATE 0, RTC_ALCFG 1, RTC_ALSUB 1, RTC_ALTIME 1, RTC_ALDATE 1]

theorem State.alarmCleared_frame (t : State) (k : Fin 2) :
    t.Within [RTC_ALCFG k.val, RTC_ALSUB k.val, RTC_ALTIME k.val, RTC_ALDATE k.val] (t.alarmCleared k.val) := by
  rw [State.alarmCleared]
  exact ((((State.Within.put t (f := RTC_ALCFG_EN k.val) 0 List.mem_cons_self).trans
    (State.Within.put _ (f := RTC_ALCFG_WAKE k.val) 0 List.mem_cons_self)).trans (State.Within.setRg _ 0 (by simp))).trans
    (State.Within.setRg _ 0 (by simp))).trans (State.Within.setRg _ _ (by simp))

theorem State.alarmCleared_off (t : State) (k : Fin 2) : (t.alarmCleared k.val).test (RTC_ALCFG_EN k.val) = false := by
  have hkept (u : State) : (((u.setRg (RTC_ALSUB k.val) 0).setRg (RTC_ALTIME k.val) 0).setRg
      (RTC_ALDATE k.val) 0x0010E).test (RTC_ALCFG_EN k.val) = u.test (RTC_ALCFG_EN k.val) := by
    fin_cases k <;> exact State.test_of_rg (by
      rw [State.rg_setRg_ne _ _ (by decide), State.rg_setRg_ne _ _ (by decide), State.rg_setRg_ne _ _ (by decide)])
  rw [State.alarmCleared, hkept, State.test]
  have hget := State.get_put_disjoint (t.put (RTC_ALCFG_EN k.val) 0) (RTC_ALCFG_WAKE k.val) (RTC_ALCFG_EN k.val) 0
    (Nat.le_of_ble_eq_true rfl) (Nat.le_of_ble_eq_true rfl) rfl (.inr (Nat.le_of_ble_eq_true rfl))
  rw [hget]
  exact State.test_put_same t (RTC_ALCFG_EN k.val) 0 (Nat.le_of_ble_eq_true rfl) (Nat.le_of_ble_eq_true rfl) (Nat.le_of_ble_eq_true rfl)

/-- The backup bytes cleared. -/
@[irreducible] def State.bytesCleared (s : State) : State := (List.range 16).foldl (fun t k => t.setRg (RTC_BKP k) 0) s

theorem State.bytesCleared_rtc (s : State) : s.bytesCleared.rtc = s.rtc := by
  rw [State.bytesCleared]
  generalize List.range 16 = l
  exact foldl_keep State.rtc (fun t k => t.setRg (RTC_BKP k) 0) (fun _ _ => rfl) l s

theorem State.bytesCleared_still (s : State) : s.Still s.bytesCleared := by
  rw [State.bytesCleared]
  generalize List.range 16 = l
  exact (State.Within.foldl (but := l.map RTC_BKP) _ l (fun t k hk => State.Within.setRg t 0 (List.mem_map_of_mem hk)) s).still

/-- The registers that an invalid backup domain shows, before its flag. -/
@[irreducible] def State.bkpCleared (t : State) : State :=
  (((t.alarmCleared 0).alarmCleared 1).put RTC_SUBSEC_SUBSEC 0).put KMB_FAILS_FAILS 0

theorem State.bkpCleared_rtc (t : State) : t.bkpCleared.rtc = t.rtc := by
  simp only [State.bkpCleared, State.alarmCleared, State.put_rtc, State.setRg_rtc]

theorem State.bkpInvalidate_eq (s : State) : ∃ k, s.bkpInvalidate = State.raise RTC_FLAGS_BKP_INVALID { s.bytesCleared.bkpCleared with
    keeper := k
    rtc := { s.bytesCleared.bkpCleared.rtc with
      time := Rtc.reset.time, date := Rtc.reset.date, match0 := false, match1 := false } } := by
  rw [State.bkpInvalidate, ← State.bytesCleared, State.bkpCleared, show List.range 2 = [0, 1] from rfl]
  rw [List.foldl_cons, List.foldl_cons, List.foldl_nil, ← State.alarmCleared, ← State.alarmCleared]
  generalize (s.bytesCleared.alarmCleared 0).alarmCleared 1 = u
  exact ⟨_, rfl⟩

/-- The clock of an invalid backup domain. -/
theorem State.bkpInvalidate_rtc (s : State) : s.bkpInvalidate.rtc =
    { s.rtc with time := Rtc.reset.time, date := Rtc.reset.date, match0 := false, match1 := false } := by
  obtain ⟨k, heq⟩ := s.bkpInvalidate_eq
  rw [heq, State.raise_rtc, State.bkpCleared_rtc, State.bytesCleared_rtc]

theorem State.bkpInvalidate_rg (s : State) {a : Nat} (ha : a ≠ RTC_FLAGS) :
    s.bkpInvalidate.rg a = s.bytesCleared.bkpCleared.rg a := by
  obtain ⟨k, heq⟩ := s.bkpInvalidate_eq
  rw [heq, State.raise_rg_ne _ _ ha]
  rfl

theorem State.bkpCleared_frame (t : State) :
    ((t.alarmCleared 0).alarmCleared 1).Within [RTC_SUBSEC, KMB_FAILS] t.bkpCleared := by
  rw [State.bkpCleared]
  exact (State.Within.put (but := [RTC_SUBSEC, KMB_FAILS]) _ (f := RTC_SUBSEC_SUBSEC) 0 (by decide)).trans
    (State.Within.put (but := [RTC_SUBSEC, KMB_FAILS]) _ (f := KMB_FAILS_FAILS) 0 (by decide))

theorem State.still_keeper_rtc (u : State) (k : Keeper) (r : Rtc) : u.Still { u with keeper := k, rtc := r } :=
  ⟨State.memKept_of_tables rfl rfl rfl rfl, fun _ => rfl⟩

theorem State.bkpInvalidate_still (s : State) : s.Still s.bkpInvalidate := by
  obtain ⟨k, heq⟩ := s.bkpInvalidate_eq
  have hcleared : s.Still s.bytesCleared.bkpCleared := s.bytesCleared_still.trans
    ((State.alarmCleared_frame s.bytesCleared 0).still.trans
      ((State.alarmCleared_frame (s.bytesCleared.alarmCleared 0) 1).still.trans (State.bkpCleared_frame _).still))
  rw [heq]
  exact hcleared.trans ((State.still_keeper_rtc _ _ _).trans (State.Still.raise _ _))

/-- An invalid backup domain: everything R388 names is at its start. -/
theorem State.bkpInvalidate_shows (s : State) : let t := s.bkpInvalidate
    calOf t.rtc.time t.rtc.date = ⟨0, 1, 1, 0, 0, 0⟩ ∧ t.get RTC_SUBSEC_SUBSEC = 0 ∧ t.rtc.pend = s.rtc.pend ∧
      (∀ k : Fin 16, t.rg (RTC_BKP k.val) = 0) ∧ (∀ k : Fin 2, t.test (RTC_ALCFG_EN k.val) = false) ∧
      t.test RTC_FLAGS_BKP_INVALID = true ∧ s.memKept t ∧ s.coresKept t := by
  have ha := State.alarmCleared_frame s.bytesCleared 0
  have hb := State.alarmCleared_frame (s.bytesCleared.alarmCleared 0) 1
  have hc := s.bytesCleared.bkpCleared_frame
  dsimp only
  refine ⟨?_, ?_, ?_, fun k => ?_, fun k => ?_, ?_, s.bkpInvalidate_still.mem, s.bkpInvalidate_still.cores⟩
  · rw [State.bkpInvalidate_rtc]
    show calOf Rtc.reset.time Rtc.reset.date = _
    decide
  · rw [State.get, State.bkpInvalidate_rg s (by decide)]
    show s.bytesCleared.bkpCleared.get RTC_SUBSEC_SUBSEC = 0
    rw [State.bkpCleared, State.get_put_ne _ _ (by decide)]
    exact State.get_put_same _ RTC_SUBSEC_SUBSEC 0 (by decide) (by decide)
  · rw [State.bkpInvalidate_rtc]
  · have hfar : RTC_BKP k.val ≠ RTC_FLAGS ∧ RTC_BKP k.val ∉ [RTC_SUBSEC, KMB_FAILS] ∧ RTC_BKP k.val ∉ alarmRegs ∧
        RTC_BKP k.val ∈ (List.range 16).map RTC_BKP := by
      revert k
      decide
    obtain ⟨hflags, hsub, halarm, hin⟩ := hfar
    have hlate : ∀ l : List Nat, l ⊆ alarmRegs → RTC_BKP k.val ∉ l := fun l hl h => halarm (hl h)
    calc s.bkpInvalidate.rg (RTC_BKP k.val)
        = s.bytesCleared.bkpCleared.rg (RTC_BKP k.val) := State.bkpInvalidate_rg s hflags
      _ = ((s.bytesCleared.alarmCleared 0).alarmCleared 1).rg (RTC_BKP k.val) := hc.regs _ hsub
      _ = (s.bytesCleared.alarmCleared 0).rg (RTC_BKP k.val) := hb.regs _ (hlate _ (by decide))
      _ = s.bytesCleared.rg (RTC_BKP k.val) := ha.regs _ (hlate _ (by decide))
      _ = 0 := by rw [State.bytesCleared, State.rg_foldl_setRg, if_pos hin]
  · have hfar : RTC_ALCFG k.val ≠ RTC_FLAGS ∧ RTC_ALCFG k.val ∉ [RTC_SUBSEC, KMB_FAILS] := by
      revert k
      decide
    rw [State.test_of_rg ((State.bkpInvalidate_rg s (a := (RTC_ALCFG_EN k.val).reg) hfar.1).trans (hc.regs _ hfar.2))]
    fin_cases k
    · exact (State.test_of_rg (hb.regs (RTC_ALCFG_EN 0).reg (by decide))).trans (State.alarmCleared_off s.bytesCleared 0)
    · exact State.alarmCleared_off _ 1
  · obtain ⟨k, heq⟩ := s.bkpInvalidate_eq
    rw [heq]
    exact State.raise_self _ _ (by decide) (by decide)

/-! ## The commands -/

theorem exec_rtcSecond {s : State} (h : s.get RTC_SUBSEC_SUBSEC = 32767) : exec .rtcSecond s = .next s.rtcEdge := by
  show execRtcSecond s = _
  rw [execRtcSecond, if_pos h]

theorem exec_rtcStagedApply {s : State} (h : s.rtc.pend ≠ .none) : exec .rtcStagedApply s = .next s.rtcEdge := by
  show execRtcStagedApply s = _
  rw [execRtcStagedApply, if_neg h]

theorem exec_rtcAlarm0 {s : State} (h : s.rtc.due0 = true) : exec (.rtcAlarm 0) s =
    .next ((State.raise RTC_FLAGS_ALARM0 { s with rtc := { s.rtc with due0 := false } }).fire 0x28) := by
  show execRtcAlarm 0 s = _
  rw [execRtcAlarm]
  exact if_neg (by simp [h])

theorem exec_rtcAlarm1 {s : State} (h : s.rtc.due1 = true) : exec (.rtcAlarm 1) s =
    .next ((State.raise RTC_FLAGS_ALARM1 { s with rtc := { s.rtc with due1 := false } }).fire 0x29) := by
  show execRtcAlarm 1 s = _
  rw [execRtcAlarm]
  exact if_neg (by simp [h])

/-- The staged time, and the staged date, are ones the calendar has (R382). -/
def State.timeFits (s : State) : Prop :=
  let c := calOf (s.rg RTC_STIME) (s.rg RTC_SDATE)
  c.h ≤ 23 ∧ c.mi ≤ 59 ∧ c.s ≤ 59

def State.dateFits (s : State) : Prop :=
  let c := calOf (s.rg RTC_STIME) (s.rg RTC_SDATE)
  c.y ≤ 199 ∧ 1 ≤ c.mo ∧ c.mo ≤ 12 ∧ 1 ≤ c.d ∧ c.d ≤ daysIn c.y c.mo

section Request

variable {s : State} {sub time date : Bool}

theorem State.rtcCmd_taken (hfree : s.test RTC_STAT_PEND = false) (ht : time = true → s.timeFits) (hd : date = true → s.dateFits) :
    s.rtcCmd sub time date = { s.put RTC_STAT_PEND 1 with rtc := { s.rtc with
      pend := .apply (if sub then some (BitVec.ofNat 20 (s.get RTC_SSUB_SUBSEC)) else none)
        (if time then some (s.rg RTC_STIME) else none) (if date then some (s.rg RTC_SDATE) else none) } } := by
  rw [State.rtcCmd]
  refine if_neg ?_
  simp only [hfree, Bool.false_or, Bool.or_eq_true, Bool.and_eq_true, decide_eq_true_eq, not_or, not_and, State.timeFits,
    State.dateFits] at ht hd ⊢
  exact ⟨fun h => by have := ht h; omega, fun h => by have := hd h; omega⟩

theorem State.rtcCmd_refused (h : s.test RTC_STAT_PEND = true ∨ time = true ∧ ¬ s.timeFits ∨ date = true ∧ ¬ s.dateFits) :
    s.rtcCmd sub time date = s.raise RTC_FLAGS_REFUSED := by
  rw [State.rtcCmd]
  refine if_pos ?_
  simp only [Bool.or_eq_true, Bool.and_eq_true, decide_eq_true_eq, State.timeFits, State.dateFits] at h ⊢
  rcases h with hbusy | ⟨htime, hbad⟩ | ⟨hdate, hbad⟩
  · exact .inl (.inl hbusy)
  · exact .inl (.inr ⟨htime, by omega⟩)
  · exact .inr ⟨hdate, by omega⟩

end Request

/-- A request refused: the flag, and nothing else but pending bits. -/
theorem State.rtcRefused (s : State) : let t := s.raise RTC_FLAGS_REFUSED
    t.test RTC_FLAGS_REFUSED = true ∧ t.rtc = s.rtc ∧ s.regsKept t [RTC_FLAGS] ∧ s.memKept t ∧ s.coresKept t := by
  have h := State.Within.raise (but := [RTC_FLAGS]) s (f := RTC_FLAGS_REFUSED) (by decide)
  exact ⟨State.raise_self _ _ (by decide) (by decide), State.raise_rtc _ _, h.regs, h.still.mem, h.still.cores⟩

/-- A request taken: PEND, and what is pending. -/
theorem State.rtcAsked (s : State) (p : RtcPend) : let t := { s.put RTC_STAT_PEND 1 with rtc := { s.rtc with pend := p } }
    t.test RTC_STAT_PEND = true ∧ t.rtc.pend = p ∧ s.regsKept t [RTC_STAT] ∧ s.memKept t ∧ s.coresKept t := by
  have h := (State.Within.put (but := [RTC_STAT]) s (f := RTC_STAT_PEND) 1 (by decide)).trans
    (State.Within.rtc _ { s.rtc with pend := p })
  exact ⟨State.test_put_same s RTC_STAT_PEND 1 (by decide) (by decide) (by decide), rfl, h.regs, h.still.mem, h.still.cores⟩

/-- Settles O46: an edge counts and applies what is pending; a request waits for the next edge; the backup domain's
stores and its clearing write their own registers. -/
theorem clockAndBackupEffects : Obligations.ClockAndBackupEffects := by
  unfold Obligations.ClockAndBackupEffects
  intro s sub cal quiet idle staged
  refine ⟨fun hsub hidle => ?second, fun hs hsub hidle => ?seconds, fun a b c hsub hpend => ?apply,
    fun n hpend hsub hlo hhi => ?shift, fun k hdue => ?alarm, fun x rest hlate hlo hhi h4 => ?late, ?invalid, fun hclk => ?asks⟩
  case second =>
    obtain ⟨hzero, hrtc, hflag, hw⟩ := State.rtcCount_rollover hsub
    obtain ⟨p, q, hedge⟩ := State.rtcEdge_idle (s := s) (by rw [hrtc]; exact hidle)
    obtain ⟨hget, htime, hdate, -, -, hsec, hwt⟩ := State.rtcEnd_shows p q hw (by decide)
    refine ⟨_, (exec_rtcSecond hsub).trans (congrArg Host.Outcome.next hedge), hget.trans hzero, ?_, ?_, hsec.trans hflag,
      hwt.regs, hwt.still.mem, hwt.still.cores⟩
    · rw [htime, hrtc]
    · rw [hdate, hrtc]
  case seconds =>
    obtain ⟨-, hrtc, -, hw⟩ := State.rtcCount_rollover hsub
    obtain ⟨p, q, hedge⟩ := State.rtcEdge_idle (s := s) (by rw [hrtc]; exact hidle)
    obtain ⟨-, htime, -⟩ := State.rtcEnd_shows p q hw (by decide)
    refine ⟨_, (exec_rtcSecond hsub).trans (congrArg Host.Outcome.next hedge), ?_⟩
    have hnext : (nextSecond cal).1 = { cal with s := cal.s + 1 } := by rw [nextSecond, if_pos hs]
    show fieldGet (State.rtcEnd _ p q).rtc.time 5 0 = _
    rw [htime, hrtc]
    show fieldGet (timeWord (nextSecond cal).1) 5 0 = cal.s + 1
    rw [hnext]
    exact timeWord_second _ (Nat.lt_trans (Nat.succ_lt_succ hs) (by decide))
  case apply =>
    have hcount := State.rtcCount_low hsub
    obtain ⟨p, q, hedge⟩ := State.rtcEdge_apply (s := s) (a := a) (b := b) (c := c) (by rw [hcount]; exact hpend)
    obtain ⟨hnone, hsome, htime, hdnone, hdsome, hw⟩ := State.rtcApply_shows s.rtcCount a b c
    have hbase : s.Within [RTC_SUBSEC, RTC_STAT] s.rtcCount := by
      rw [hcount]
      exact State.Within.put _ _ (by decide)
    obtain ⟨hget, htime', hdate', hpend', hflag, -, hwt⟩ := State.rtcEnd_shows p q (hbase.trans hw) (by decide)
    refine ⟨_, (exec_rtcStagedApply (by rw [hpend]; simp)).trans (congrArg Host.Outcome.next hedge), fun ha => ?_,
      fun v hv => hget.trans (hsome v hv), ?_, fun hc => ?_, fun v hv => hdate'.trans (hdsome v hv), hpend', hflag, hwt.regs,
      hwt.still.mem, hwt.still.cores⟩
    · rw [hget, hnone ha, hcount]
      exact State.get_subsec_low hsub
    · rw [htime', htime, hcount]
      rfl
    · rw [hdate', hdnone hc, hcount]
      rfl
  case shift =>
    have hcount := State.rtcCount_low hsub
    have hnow : s.rtcCount.get RTC_SUBSEC_SUBSEC = sub + 1 := by
      rw [hcount]
      exact State.get_subsec_low hsub
    obtain ⟨p, q, hedge⟩ := State.rtcEdge_shift (s := s) (n := n) (by rw [hcount]; exact hpend)
    obtain ⟨hmoved, hw⟩ := State.rtcMove_within (s := s.rtcCount) (n := n) (by rw [hnow]; exact hlo) (by rw [hnow]; exact hhi)
    have hbase : s.Within [RTC_SUBSEC, RTC_STAT] s.rtcCount := by
      rw [hcount]
      exact State.Within.put _ _ (by decide)
    obtain ⟨hget, -, -, hpend', -, -, hwt⟩ := State.rtcEnd_shows p q (hbase.trans hw) (by decide)
    refine ⟨_, (exec_rtcStagedApply (by rw [hpend]; simp)).trans (congrArg Host.Outcome.next hedge), ?_, hpend', hwt.regs,
      hwt.still.mem, hwt.still.cores⟩
    rw [hget, hmoved, hnow]
    rfl
  case alarm =>
    have hexec (r : Rtc) (f : Field) (hf : f.reg ∈ [RTC_FLAGS]) (hhi : f.hi < 20) (hlo : f.lo ≤ f.hi) (p : Nat) :
        let t := ((State.raise f { s with rtc := r }).fire p)
        t.test f = true ∧ t.rtc = r ∧ s.regsKept t [RTC_FLAGS] ∧ s.memKept t := by
      have hw := ((State.Within.rtc (but := [RTC_FLAGS]) s r).trans (State.Within.raise _ hf)).trans (State.Within.fire _ p)
      exact ⟨(State.fire_test _ _ _).trans (State.raise_self _ _ hhi hlo), by simp, hw.regs, hw.still.mem⟩
    fin_cases k
    · obtain ⟨hflag, hrtc, hregs, hmem⟩ := hexec { s.rtc with due0 := false } RTC_FLAGS_ALARM0 (by decide) (by decide) (by decide) 0x28
      exact ⟨_, exec_rtcAlarm0 hdue, hflag, congrArg Rtc.due0 hrtc, hregs, hmem⟩
    · obtain ⟨hflag, hrtc, hregs, hmem⟩ := hexec { s.rtc with due1 := false } RTC_FLAGS_ALARM1 (by decide) (by decide) (by decide) 0x29
      exact ⟨_, exec_rtcAlarm1 hdue, hflag, congrArg Rtc.due1 hrtc, hregs, hmem⟩
  case late =>
    obtain ⟨hmerge, hlate', hw⟩ := State.backupApply_bkp { s with rtc := { s.rtc with late := rest } } x.2 hlo hhi h4
    have hwt := (State.Within.rtc (but := [x.1]) s { s.rtc with late := rest }).trans hw
    refine ⟨_, ?_, hmerge, hlate', hwt.regs, hwt.still.mem, hwt.still.cores⟩
    show execBackupStoreComplete s = _
    rw [execBackupStoreComplete, if_pos (by rw [hlate]; rfl), State.backupNext, hlate]
  case invalid =>
    obtain ⟨hcal, hsub, hpend, hbytes, halarms, hflag, hmem, hcores⟩ := s.bkpInvalidate_shows
    exact ⟨_, rfl, hcal, hsub, hpend, hbytes, halarms, hflag, hmem, hcores⟩
  case asks =>
    have hrun (f : State → State) : s.during s.clocked (.next (f s)) = .next (f s) := by rw [State.during, if_pos hclk]
    refine ⟨?snap, fun hfree => ⟨?sub, fun hok => ?time, fun hbad => ?badTime, fun hok => ?date, fun hbad => ?badDate,
      fun n => ⟨fun h0 h8 => ?shiftAsk, ?shiftBad, ?shiftZero⟩⟩, fun hbusy => ?busy⟩
    case snap =>
      have hw := (State.Within.setRg (but := [RTC_TIME, RTC_DATE]) s (a := RTC_TIME) s.rtc.time (by decide)).trans
        (State.Within.setRg _ (a := RTC_DATE) s.rtc.date (by decide))
      refine ⟨s.rtcSnap, hrun State.rtcSnap, ?_, State.rg_setRg_same _ _ _, hw.regs, hw.still.mem, hw.still.cores⟩
      exact (State.rg_setRg_ne _ _ (by decide)).trans (State.rg_setRg_same _ _ _)
    case sub =>
      exact ⟨_, (hrun (fun s => s.rtcCmd true false false)).trans
        (congrArg _ (State.rtcCmd_taken hfree (fun h => absurd h (by decide)) (fun h => absurd h (by decide)))), s.rtcAsked _⟩
    case time =>
      exact ⟨_, (hrun (fun s => s.rtcCmd false true false)).trans
        (congrArg _ (State.rtcCmd_taken hfree (fun _ => hok) (fun h => absurd h (by decide)))), s.rtcAsked _⟩
    case badTime =>
      exact ⟨_, (hrun (fun s => s.rtcCmd false true false)).trans
        (congrArg _ (State.rtcCmd_refused (.inr (.inl ⟨rfl, hbad⟩)))), s.rtcRefused⟩
    case date =>
      exact ⟨_, (hrun (fun s => s.rtcCmd false false true)).trans
        (congrArg _ (State.rtcCmd_taken hfree (fun h => absurd h (by decide)) (fun _ => hok))), s.rtcAsked _⟩
    case badDate =>
      exact ⟨_, (hrun (fun s => s.rtcCmd false false true)).trans
        (congrArg _ (State.rtcCmd_refused (.inr (.inr ⟨rfl, hbad⟩)))), s.rtcRefused⟩
    case shiftAsk =>
      refine ⟨_, (hrun (fun s => s.rtcShiftWrite n)).trans (congrArg _ ?_), s.rtcAsked _⟩
      rw [State.rtcShiftWrite, if_neg (by rw [hfree, Bool.false_or, decide_eq_true_eq]; exact h8), if_neg h0]
    case shiftBad =>
      refine ⟨_, (hrun (fun s => s.rtcShiftWrite 0x8000)).trans (congrArg _ ?_), s.rtcRefused⟩
      rw [State.rtcShiftWrite, if_pos (by simp)]
    case shiftZero =>
      refine (hrun (fun s => s.rtcShiftWrite 0)).trans (congrArg _ ?_)
      rw [State.rtcShiftWrite, if_neg (by simp [hfree]), if_pos rfl]
    case busy =>
      refine ⟨⟨_, (hrun (fun s => s.rtcCmd true false false)).trans (congrArg _ (State.rtcCmd_refused (.inl hbusy))), s.rtcRefused⟩,
        ⟨_, (hrun (fun s => s.rtcCmd false true false)).trans (congrArg _ (State.rtcCmd_refused (.inl hbusy))), s.rtcRefused⟩,
        ⟨_, (hrun (fun s => s.rtcCmd false false true)).trans (congrArg _ (State.rtcCmd_refused (.inl hbusy))), s.rtcRefused⟩,
        fun n => ⟨_, (hrun (fun s => s.rtcShiftWrite n)).trans (congrArg _ ?_), s.rtcRefused⟩⟩
      rw [State.rtcShiftWrite, if_pos (by simp [hbusy])]

end Sys2Proof.Machine
end

section
/-! SUPPORT. The timers (R368-R377): what one step of a lone timer does, and the registers' commands. -/

set_option Elab.async false

namespace Sys2Proof.Machine

/-! ## What a timer's settings are made of -/

/-- The fields of every TMR_CTL but RUN read as before. -/
def State.CtlKept (s t : State) : Prop := ∀ j < 8, ∀ f : Field, f.reg = TMR_CTL j → 0 < f.lo → t.get f = s.get f

namespace State.CtlKept

variable {s t u : State}

theorem rfl' (s : State) : s.CtlKept s := fun _ _ _ _ _ => rfl

theorem trans (h : s.CtlKept t) (g : t.CtlKept u) : s.CtlKept u := fun j hj f hf h0 => (g j hj f hf h0).trans (h j hj f hf h0)

theorem of_within {l : List Nat} (h : s.Within l t) (hl : ∀ j < 8, TMR_CTL j ∉ l) : s.CtlKept t := fun j hj f hf _ =>
  h.get (by rw [hf]; exact hl j hj)

theorem put_run (s : State) (k n : Nat) : s.CtlKept (s.put (TMR_CTL_RUN k) n) := fun j _ f _ h0 =>
  State.get_put_other s n (Nat.le_of_ble_eq_true rfl) (Nat.le_of_ble_eq_true rfl) (.inr (.inr h0))

theorem upper (h : s.CtlKept t) (j : Nat) : t.upper j = s.upper j := by
  unfold State.upper
  by_cases hj : j < 8
  · rw [State.test, State.test, h j hj (TMR_CTL_CHAIN j) rfl (Nat.le_of_ble_eq_true rfl)]
  · simp [hj]

theorem get (h : s.CtlKept t) (f : Nat → Field) {j : Nat} (hj : j < 8) (hreg : (f j).reg = TMR_CTL j) (hlo : 0 < (f j).lo) :
    t.get (f j) = s.get (f j) := h j hj _ hreg hlo

theorem divider (h : s.CtlKept t) {j : Nat} (hj : j < 8) : t.divider j = s.divider j := by
  rw [State.divider, State.divider, h.get TMR_CTL_CLK hj rfl (Nat.le_of_ble_eq_true rfl),
    h.get TMR_CTL_PRE hj rfl (Nat.le_of_ble_eq_true rfl)]

end State.CtlKept

theorem State.tmr_modTmr_same (s : State) (k : Nat) (f : TimerH → TimerH) : (s.modTmr k f).tmr k = f (s.tmr k) :=
  Vector.getElem_set_self _

theorem State.tmr_modTmr_ne (s : State) {j k : Nat} (f : TimerH → TimerH) (h : j % 8 ≠ k % 8) :
    (s.modTmr k f).tmr j = s.tmr j :=
  Vector.getElem_set_ne (Nat.mod_lt _ (by decide)) (Nat.mod_lt _ (by decide)) (Ne.symm h)

theorem State.Within.modTmr {but : List Nat} (s : State) (k : Nat) (f : TimerH → TimerH) : s.Within but (s.modTmr k f) :=
  ⟨fun _ _ => rfl, State.memKept_of_tables rfl rfl rfl rfl, fun _ => rfl⟩

theorem State.tmr_of_timers {s t : State} (h : t.timers = s.timers) (k : Nat) : t.tmr k = s.tmr k := by
  rw [State.tmr, State.tmr]
  exact congrArg (fun v : Vector TimerH 8 => v[k % 8]'(Nat.mod_lt _ (by decide))) h

/-! ## A lone timer (R371) -/

section Lone

variable {s : State} {k : Nat}

theorem State.lowest_of_not_upper (h : s.upper k = false) : s.lowest 8 k = k := by
  rw [State.lowest, h, if_neg Bool.false_ne_true]

theorem State.above_of_not_upper (h : s.upper (k + 1) = false) : s.above 7 k = [] := by
  rw [State.above, h, if_neg Bool.false_ne_true]

theorem State.chain_of_not_upper (h : s.upper (k + 1) = false) : s.chain k = [k] := by
  rw [State.chain, State.above_of_not_upper h]

/-- The flag of a wrap or a match. -/
theorem State.tmrFlag_shows (s : State) (wrap : Bool) (hk : k < 8) :
    ((s.tmrFlag wrap k).rg TMR_FLAGS).getLsbD (bit wrap * 8 + k) = true ∧ (s.tmrFlag wrap k).timers = s.timers ∧
      s.Within [TMR_FLAGS] (s.tmrFlag wrap k) := by
  have hbit : bit wrap * 8 + k < 20 := by
    cases wrap
    · exact Nat.lt_trans (Nat.add_lt_add_left hk 0) (by decide)
    · exact Nat.lt_trans (Nat.add_lt_add_left hk 8) (by decide)
  rw [State.tmrFlag]
  refine ⟨?_, by simp, ((State.Within.put (but := [TMR_FLAGS]) s (f := ⟨TMR_FLAGS, _, _⟩) 1 (List.mem_singleton_self _)).trans
    (State.Within.fire _ _)).trans (State.Within.latchReqs _)⟩
  rw [State.latchReqs_rg, State.fire_rg, State.rg_put, if_pos rfl, fieldSet_getLsbD _ _ _ _ _ hbit (Nat.le_refl _)]
  simp

/-- A lone timer after the step that wraps. -/
def State.wrapEnd (s : State) (k : Nat) : State :=
  let t := ((s.put (TMR_CNT_CNT k) 0).put (TMR_STAT_OUT k) 1).tmrFlag true k
  if t.test (TMR_CTL_ONESHOT k) then t.put (TMR_CTL_RUN k) 0 else t

/-- A lone timer after the step that matches. -/
def State.matchEnd (s : State) (k : Nat) : State :=
  ((s.put (TMR_CNT_CNT k) (s.tcnt k + 1)).put (TMR_STAT_OUT k) 0).tmrFlag false k

theorem ctl_far {j k : Nat} (hj : j < 8) :
    TMR_CTL j ≠ TMR_CNT k ∧ TMR_CTL j ≠ TMR_STAT k ∧ TMR_CTL j ≠ TMR_FLAGS ∧ TMR_CNT k ≠ TMR_STAT k ∧ TMR_CNT k ≠ TMR_FLAGS := by
  simp only [TMR_CTL, TMR_CNT, TMR_STAT, TMR_FLAGS]
  omega

theorem stat_ne_flags (k : Nat) : TMR_STAT k ≠ TMR_FLAGS := by
  simp only [TMR_STAT, TMR_FLAGS]
  omega

/-- Count, output and flag written. -/
def State.stepShown (s : State) (k n o : Nat) (wrap : Bool) : State :=
  ((s.put (TMR_CNT_CNT k) n).put (TMR_STAT_OUT k) o).tmrFlag wrap k

theorem State.stepShown_shows (s : State) {n o : Nat} (wrap : Bool) (hk : k < 8) (hn : n < 2 ^ 20) (ho : o < 2) :
    let t := s.stepShown k n o wrap
    t.get (TMR_CNT_CNT k) = n ∧ t.test (TMR_STAT_OUT k) = (o != 0) ∧ t.test (TMR_STAT_PEND k) = s.test (TMR_STAT_PEND k) ∧
      (t.rg TMR_FLAGS).getLsbD (bit wrap * 8 + k) = true ∧ t.timers = s.timers ∧
      s.Within [TMR_CNT k, TMR_STAT k, TMR_FLAGS] t := by
  obtain ⟨-, -, -, hcs, hcf⟩ := ctl_far (k := k) hk
  obtain ⟨hflag, htimers, hw⟩ := State.tmrFlag_shows ((s.put (TMR_CNT_CNT k) n).put (TMR_STAT_OUT k) o) wrap hk
  dsimp only [State.stepShown]
  refine ⟨?_, ?_, ?_, hflag, htimers, ?_⟩
  · rw [hw.get (f := TMR_CNT_CNT k) (fun h => hcf (List.mem_singleton.mp h)), State.get_put_ne _ _ hcs,
      State.get_put_same s (TMR_CNT_CNT k) n (Nat.le_of_ble_eq_true rfl) (Nat.zero_le _)]
    exact Nat.mod_eq_of_lt hn
  · rw [hw.test (f := TMR_STAT_OUT k) (fun h => stat_ne_flags k (List.mem_singleton.mp h))]
    exact State.test_put_same _ (TMR_STAT_OUT k) o (Nat.le_of_ble_eq_true rfl) (Nat.le_of_ble_eq_true rfl) ho
  · rw [hw.test (f := TMR_STAT_PEND k) (fun h => stat_ne_flags k (List.mem_singleton.mp h)), State.test,
      State.get_put_other _ o (g := TMR_STAT_OUT k) (f := TMR_STAT_PEND k) (Nat.le_of_ble_eq_true rfl)
        (Nat.le_of_ble_eq_true rfl) (.inr (.inl (Nat.le_of_ble_eq_true rfl))), State.get_put_ne _ _ (Ne.symm hcs)]
    rfl
  · exact ((State.Within.put s (f := TMR_CNT_CNT k) n (by simp [TMR_CNT_CNT])).trans
      (State.Within.put _ (f := TMR_STAT_OUT k) o (by simp [TMR_STAT_OUT]))).trans (hw.mono (by simp))

theorem State.stepShown_ctl (s : State) {n o : Nat} (wrap : Bool) (hk : k < 8) (hn : n < 2 ^ 20) (ho : o < 2) :
    s.CtlKept (s.stepShown k n o wrap) := by
  obtain ⟨-, -, -, -, -, hw⟩ := s.stepShown_shows wrap hk hn ho
  refine State.CtlKept.of_within hw (fun j hj => ?_)
  obtain ⟨hcnt, hstat, hflags, -, -⟩ := ctl_far (k := k) hj
  simp [hcnt, hstat, hflags]

/-- The step of a lone timer at its top value. -/
theorem State.chainStep_wrap (hk : k < 8) (hup : s.upper (k + 1) = false) (htop : s.atTop k = true)
    (hcmp : (s.tmr k).cmp ≠ 0) (hpend : s.test (TMR_STAT_PEND k) = false) : s.chainStep k = (s.wrapEnd k, [k], []) := by
  obtain ⟨hcnt, -, hpend', -, htimers, -⟩ := s.stepShown_shows (n := 0) (o := 1) true hk (by decide) (by decide)
  have hzero : (s.wrapEnd k).tcnt k = 0 ∧ (s.wrapEnd k).tmr k = s.tmr k := by
    rw [State.wrapEnd]
    split
    · refine ⟨?_, State.tmr_of_timers htimers k⟩
      rw [State.tcnt, State.get_put_ne _ _ (Ne.symm (ctl_far hk).1)]
      exact hcnt
    · exact ⟨hcnt, State.tmr_of_timers htimers k⟩
  have hmiss : (((s.wrapEnd k).tcnt k) == ((s.wrapEnd k).tmr k).cmp.toNat) = false := by
    rw [hzero.1, hzero.2, beq_eq_false_iff_ne]
    exact fun h => hcmp (BitVec.eq_of_toNat_eq h.symm)
  have hcopy : (s.stepShown k 0 1 true).copyPreload k = s.stepShown k 0 1 true := by
    rw [State.copyPreload, hpend', hpend, if_neg Bool.false_ne_true]
  rw [State.chainStep, State.chain_of_not_upper hup]
  simp only [State.moved, htop, if_pos, List.filter_cons, List.filter_nil, List.map_cons, List.map_nil, List.length_cons,
    List.length_nil, List.foldl_cons, List.foldl_nil, decide_true, Bool.true_and, if_true, List.getLastD_cons, List.all_cons,
    List.all_nil, Bool.and_true]
  rw [show ((s.put (TMR_CNT_CNT k) 0).put (TMR_STAT_OUT k) 1).tmrFlag true k = s.stepShown k 0 1 true from rfl, hcopy,
    show (if (s.stepShown k 0 1 true).test (TMR_CTL_ONESHOT k) = true then (s.stepShown k 0 1 true).put (TMR_CTL_RUN k) 0
      else s.stepShown k 0 1 true) = s.wrapEnd k from rfl, hmiss]
  simp

/-- The step of a lone timer that reaches its compare value. -/
theorem State.chainStep_match (hk : k < 8) (hup : s.upper (k + 1) = false) (htop : s.tcnt k ≠ (s.tmr k).top.toNat)
    (hcmp : s.tcnt k + 1 = (s.tmr k).cmp.toNat) : s.chainStep k = (s.matchEnd k, [], [k]) := by
  have hlt : s.tcnt k + 1 < 2 ^ 20 := hcmp ▸ (s.tmr k).cmp.isLt
  have hplain : s.atTop k = false := by
    simp only [State.atTop, Bool.or_eq_false_iff, beq_eq_false_iff_ne]
    exact ⟨htop, by omega⟩
  have hcnt : (s.put (TMR_CNT_CNT k) (s.tcnt k + 1)).tcnt k = (s.tmr k).cmp.toNat := by
    rw [State.tcnt, State.get_put_same s (TMR_CNT_CNT k) _ (Nat.le_of_ble_eq_true rfl) (Nat.zero_le _), ← hcmp]
    exact Nat.mod_eq_of_lt hlt
  have hhit : ((s.put (TMR_CNT_CNT k) (s.tcnt k + 1)).tcnt k ==
      ((s.put (TMR_CNT_CNT k) (s.tcnt k + 1)).tmr k).cmp.toNat) = true := by
    rw [hcnt]
    exact beq_self_eq_true _
  rw [State.chainStep, State.chain_of_not_upper hup]
  simp only [State.moved, hplain, Bool.false_eq_true, if_false, List.filter_cons, List.filter_nil, List.map_cons, List.map_nil,
    List.length_cons, List.length_nil, List.foldl_cons, List.foldl_nil, List.getLastD_cons, List.getLastD_nil, List.all_cons, List.all_nil,
    Bool.and_true, Nat.zero_add, Nat.zero_ne_one, decide_false, Bool.false_and, hhit, if_true, bne_self_eq_false,
    List.nil_append]
  rfl

/-- Timer `k` is followed by none: no timer steps at its matches, and none is reset at its matches or wraps. -/
def State.unfollowed (s : State) (k : Nat) : Prop :=
  ∀ j < 8, s.get (TMR_CTL_MASTER j) = k → s.get (TMR_CTL_CLK j) ≠ 4 ∧ s.get (TMR_CTL_SLAVE j) < 2

theorem State.unfollowed_of_ctl {t : State} (h : s.CtlKept t) (hs : s.unfollowed k) : t.unfollowed k := by
  intro j hj hm
  rw [h.get TMR_CTL_MASTER hj rfl (Nat.le_of_ble_eq_true rfl)] at hm
  rw [h.get TMR_CTL_CLK hj rfl (Nat.le_of_ble_eq_true rfl), h.get TMR_CTL_SLAVE hj rfl (Nat.le_of_ble_eq_true rfl)]
  exact hs j hj hm

theorem foldl_fixed {α : Type} (f : State → α → State) (l : List α) (t : State) (h : ∀ x ∈ l, f t x = t) : l.foldl f t = t := by
  induction l with
  | nil => rfl
  | cons x r ih =>
    rw [List.foldl_cons, h x List.mem_cons_self]
    exact ih (fun y hy => h y (List.mem_cons_of_mem _ hy))

/-- A step that wraps or matches `k` alone moves no other timer, where none follows it. -/
theorem State.tmrStep_alone {t : State} {wrapped hit : List Nat} (ago fuel : Nat) (hstep : s.chainStep k = (t, wrapped, hit))
    (hw : ∀ m, wrapped.contains m = true → m = k) (hh : ∀ m, hit.contains m = true → m = k) (hun : t.unfollowed k) :
    State.tmrStep ago (fuel + 1) k s = t := by
  rw [State.tmrStep, hstep]
  refine foldl_fixed _ _ _ (fun j hj => ?_)
  have hnone : (t.get (TMR_CTL_MASTER j) = k → t.get (TMR_CTL_CLK j) ≠ 4 ∧ t.get (TMR_CTL_SLAVE j) < 2) :=
    hun j (List.mem_range.mp hj)
  have hclk : (hit.contains (t.get (TMR_CTL_MASTER j)) && t.get (TMR_CTL_CLK j) == 4 && t.counting j) = false := by
    by_cases hm : t.get (TMR_CTL_MASTER j) = k
    · simp [(hnone hm).1]
    · rw [Bool.eq_false_iff.mpr (fun hc => hm (hh _ hc))]
      rfl
  have hslave : (hit.contains (t.get (TMR_CTL_MASTER j)) && t.get (TMR_CTL_SLAVE j) == 2 ||
      wrapped.contains (t.get (TMR_CTL_MASTER j)) && t.get (TMR_CTL_SLAVE j) == 3) = false := by
    by_cases hm : t.get (TMR_CTL_MASTER j) = k
    · have h2 : (t.get (TMR_CTL_SLAVE j) == 2) = false := beq_eq_false_iff_ne.mpr (by have := (hnone hm).2; omega)
      have h3 : (t.get (TMR_CTL_SLAVE j) == 3) = false := beq_eq_false_iff_ne.mpr (by have := (hnone hm).2; omega)
      rw [h2, h3, Bool.and_false, Bool.and_false]
      rfl
    · rw [Bool.eq_false_iff.mpr (fun hc => hm (hh _ hc)), Bool.eq_false_iff.mpr (fun hc => hm (hw _ hc))]
      rfl
  dsimp only
  rw [hclk, if_neg Bool.false_ne_true, hslave, if_neg Bool.false_ne_true, ite_self]

/-- The edge behind which none waits: the step, and the divider restarted. -/
theorem State.ownStep_alone {t : State} {wrapped hit : List Nat} (hk : k < 8) (hstep : s.chainStep k = (t, wrapped, hit))
    (hw : ∀ m, wrapped.contains m = true → m = k) (hh : ∀ m, hit.contains m = true → m = k) (hctl : s.CtlKept t)
    (hun : s.unfollowed k) (hphase : (s.tmr k).phase < 2 * s.divider k) :
    ∃ p, s.ownStep k = t.modTmr k (fun h => { h with phase := p }) := by
  refine ⟨(s.tmr k).phase - s.divider k, ?_⟩
  rw [State.ownStep]
  rw [State.tmrStep_alone _ 8 hstep hw hh (State.unfollowed_of_ctl hctl hun), State.catchUp, State.tmr_modTmr_same]
  have hdiv : (t.modTmr k fun h => { h with phase := (s.tmr k).phase - s.divider k }).divider k = s.divider k := hctl.divider hk
  have hfuel : ((s.tmr k).phase - s.divider k) / s.divider k = 0 := by
    rw [Nat.div_eq_zero_iff]
    omega
  rw [hdiv, hfuel, State.takeSteps]

end Lone

/-! ## The registers' commands (R370-R377) -/

theorem field_and_mask (v : W20) {hi lo : Nat} (h : hi < 19) : fieldGet (v &&& 0x7FFFF) hi lo = fieldGet v hi lo := by
  apply Nat.eq_of_testBit_eq
  intro i
  rw [fieldGet_testBit, fieldGet_testBit]
  by_cases hi' : i < hi + 1 - lo
  · have : lo + i < 19 := by omega
    rw [BitVec.getLsbD_and, show (0x7FFFF : W20) = BitVec.ofNat 20 (2 ^ 19 - 1) from rfl, BitVec.getLsbD_ofNat,
      Nat.testBit_two_pow_sub_one]
    have h20 : lo + i < 20 := Nat.lt_succ_of_lt this
    simp [this, h20]
  · simp [hi']

/-- A write of TMR_CTL with a counter clock that does not exist is refused. -/
theorem State.tmrCtl_refused {s : State} {v : W20} (k : Nat) (h : 5 ≤ fieldGet v 6 4) :
    s.tmrCtl k v = s.raise TMR_FLAGS_CFG_REFUSED := by
  have hclk : (s.setRg (TMR_CTL k) (v &&& 0x7FFFF)).get (TMR_CTL_CLK k) = fieldGet v 6 4 :=
    (congrArg (fun w => fieldGet w 6 4) (State.rg_setRg_same s _ _)).trans (field_and_mask v (by decide))
  rw [State.tmrCtl]
  refine if_pos ?_
  rw [hclk, decide_eq_true h]
  rfl

/-- A write of a lone, stopped timer's TMR_CTL that chains it to none and names no master. -/
theorem State.tmrCtl_taken {s : State} {v : W20} {k : Nat} (hk : k < 8) (hup : s.upper k = false) (hup1 : s.upper (k + 1) = false)
    (hrun : s.test (TMR_CTL_RUN k) = false) (hclk : fieldGet v 6 4 < 4) (hchain : fieldGet v 3 3 = 0) (hslave : fieldGet v 15 14 = 0) :
    s.tmrCtl k v = (s.setRg (TMR_CTL k) (v &&& 0x7FFFF)).modTmr k (fun h => { h with phase := 0 }) := by
  have hget (hi lo : Nat) (h : hi < 19) : (s.setRg (TMR_CTL k) (v &&& 0x7FFFF)).get ⟨TMR_CTL k, hi, lo⟩ = fieldGet v hi lo :=
    (congrArg (fun w => fieldGet w hi lo) (State.rg_setRg_same s _ _)).trans (field_and_mask v h)
  have hup' : (s.setRg (TMR_CTL k) (v &&& 0x7FFFF)).upper k = false := by
    rw [State.upper, State.test, show TMR_CTL_CHAIN k = ⟨TMR_CTL k, 3, 3⟩ from rfl, hget 3 3 (by decide), hchain]
    exact Bool.and_false _
  have hup1' : (s.setRg (TMR_CTL k) (v &&& 0x7FFFF)).upper (k + 1) = false := by
    rw [← hup1, State.upper, State.upper, State.test_setRg_ne _ _ (g := TMR_CTL_CHAIN (k + 1)) (by
      show TMR_CTL (k + 1) ≠ TMR_CTL k
      simp only [TMR_CTL]
      omega)]
  have hslave' : (s.setRg (TMR_CTL k) (v &&& 0x7FFFF)).test (TMR_CTL_SLAVE k) = false := by
    rw [State.test, show TMR_CTL_SLAVE k = ⟨TMR_CTL k, 15, 14⟩ from rfl, hget 15 14 (by decide), hslave]
    rfl
  have hchain' : (s.setRg (TMR_CTL k) (v &&& 0x7FFFF)).test (TMR_CTL_CHAIN k) = false := by
    rw [State.test, show TMR_CTL_CHAIN k = ⟨TMR_CTL k, 3, 3⟩ from rfl, hget 3 3 (by decide), hchain]
    rfl
  have hclk' : (s.setRg (TMR_CTL k) (v &&& 0x7FFFF)).get (TMR_CTL_CLK k) = fieldGet v 6 4 := hget 6 4 (by decide)
  rw [State.tmrCtl]
  simp only [hslave', hchain', hclk', State.lowest_of_not_upper hup, State.lowest_of_not_upper hup',
    State.chain_of_not_upper hup1, State.chain_of_not_upper hup1', List.cons_append, List.nil_append, List.any_cons, List.any_nil,
    hrun, Bool.or_false, Bool.and_false, List.length_cons, List.length_nil]
  rw [if_neg (by simp; omega), if_neg Bool.false_ne_true]

/-- What a start or stop of one timer does to it and leaves of every other. -/
def State.gstartOne (v : W20) (t : State) (i : Nat) : State :=
  if t.upper i then t
  else if v.getLsbD i then t.tmrRun i
  else if v.getLsbD (8 + i) then t.put (TMR_CTL_RUN i) 0 else t

theorem State.gstart_eq (s : State) (v : W20) : s.gstart v = (List.range 8).foldl (State.gstartOne v) s := rfl

/-- A timer set running, its divider started anew where it stood. -/
theorem State.tmrRun_shows (s : State) (k : Nat) : let t := s.tmrRun k
    t.test (TMR_CTL_RUN k) = true ∧ (s.test (TMR_CTL_RUN k) = false → (t.tmr k).phase = 0) ∧
      s.Within [TMR_CTL k] t ∧ s.CtlKept t ∧ (∃ p, t.tmr k = { s.tmr k with phase := p }) ∧
      ∀ j, j % 8 ≠ k % 8 → t.tmr j = s.tmr j := by
  dsimp only
  rw [State.tmrRun]
  split
  · next hrun =>
    exact ⟨hrun, fun h => absurd (hrun.symm.trans h) (by decide), State.Within.rfl' s, State.CtlKept.rfl' s, ⟨_, rfl⟩, fun _ _ => rfl⟩
  · exact ⟨State.test_put_same s (TMR_CTL_RUN k) 1 (Nat.le_of_ble_eq_true rfl) (Nat.zero_le _) (Nat.le_of_ble_eq_true rfl),
      fun _ => congrArg TimerH.phase (State.tmr_modTmr_same _ k _),
      (State.Within.put s (f := TMR_CTL_RUN k) 1 (List.mem_singleton_self _)).trans (State.Within.modTmr _ _ _),
      State.CtlKept.put_run s k 1, ⟨0, State.tmr_modTmr_same _ k _⟩, fun j hj => State.tmr_modTmr_ne _ _ hj⟩

/-- One timer's part of a start. -/
theorem State.gstartOne_shows (v : W20) (s : State) (k : Nat) : let t := State.gstartOne v s k
    (s.upper k = false → t.test (TMR_CTL_RUN k) = (v.getLsbD k || s.test (TMR_CTL_RUN k) && !v.getLsbD (8 + k))) ∧
      (s.upper k = true → t.rg (TMR_CTL k) = s.rg (TMR_CTL k)) ∧
      (s.upper k = false → v.getLsbD k = true → s.test (TMR_CTL_RUN k) = false → (t.tmr k).phase = 0) ∧
      s.Within [TMR_CTL k] t ∧ s.CtlKept t ∧ (∃ p, t.tmr k = { s.tmr k with phase := p }) ∧
      ∀ j, j % 8 ≠ k % 8 → t.tmr j = s.tmr j := by
  dsimp only
  rw [State.gstartOne]
  obtain ⟨hrun, hphase, hwithin, hctl, hself, hothers⟩ := s.tmrRun_shows k
  split
  · next hup => exact ⟨fun h => absurd (hup.symm.trans h) (by decide), fun _ => rfl,
      fun h => absurd (hup.symm.trans h) (by decide), State.Within.rfl' s, State.CtlKept.rfl' s, ⟨_, rfl⟩, fun _ _ => rfl⟩
  · next hup =>
    split
    · next hv => exact ⟨fun _ => by rw [hrun, hv]; rfl, fun h => absurd h hup, fun _ _ => hphase, hwithin, hctl, hself, hothers⟩
    · next hv =>
      have hv : v.getLsbD k = false := Bool.eq_false_iff.mpr hv
      split
      · next hstop =>
        refine ⟨fun _ => ?_, fun h => absurd h hup, fun _ h => absurd (hv.symm.trans h) (by decide),
          State.Within.put s (f := TMR_CTL_RUN k) 0 (List.mem_singleton_self _), State.CtlKept.put_run s k 0, ⟨_, rfl⟩, fun _ _ => rfl⟩
        rw [hv, hstop, State.test_put_same s (TMR_CTL_RUN k) 0 (Nat.le_of_ble_eq_true rfl) (Nat.zero_le _) (Nat.le_of_ble_eq_true rfl)]
        simp
      · next hstop =>
        refine ⟨fun _ => ?_, fun h => absurd h hup, fun _ h => absurd (hv.symm.trans h) (by decide), State.Within.rfl' s,
          State.CtlKept.rfl' s, ⟨_, rfl⟩, fun _ _ => rfl⟩
        rw [hv, Bool.eq_false_iff.mpr hstop]
        simp

/-- The parts of the other timers leave timer `k` as it is. -/
theorem State.gstart_others (v : W20) {k : Nat} (hk : k < 8) (l : List Nat) (hl : ∀ j ∈ l, j < 8 ∧ j ≠ k) (s : State) :
    let t := l.foldl (State.gstartOne v) s
    t.rg (TMR_CTL k) = s.rg (TMR_CTL k) ∧ t.tmr k = s.tmr k ∧ s.CtlKept t := by
  induction l generalizing s with
  | nil => exact ⟨rfl, rfl, State.CtlKept.rfl' s⟩
  | cons j r ih =>
    obtain ⟨hj8, hjk⟩ := hl j List.mem_cons_self
    obtain ⟨-, -, -, hwithin, hctl, -, hothers⟩ := State.gstartOne_shows v s j
    obtain ⟨hrg, htmr, hctl'⟩ := ih (fun i hi => hl i (List.mem_cons_of_mem _ hi)) (State.gstartOne v s j)
    rw [List.foldl_cons]
    refine ⟨hrg.trans (hwithin.regs _ ?_), htmr.trans (hothers k (by omega)), hctl.trans hctl'⟩
    simp only [List.mem_singleton, TMR_CTL]
    omega

/-- The eight timers: those below `k`, `k`, and those above. -/
theorem range8_split {k : Nat} (hk : k < 8) : ∃ a b, List.range 8 = a ++ k :: b ∧ (∀ j ∈ a, j < 8 ∧ j ≠ k) ∧ ∀ j ∈ b, j < 8 ∧ j ≠ k := by
  have hall : ∀ k : Fin 8, List.range 8 = (List.range 8).take k.val ++ k.val :: (List.range 8).drop (k.val + 1) ∧
      (∀ j ∈ (List.range 8).take k.val, j < 8 ∧ j ≠ k.val) ∧ ∀ j ∈ (List.range 8).drop (k.val + 1), j < 8 ∧ j ≠ k.val := by decide
  exact ⟨_, _, hall ⟨k, hk⟩⟩

theorem State.gstart_shows (s : State) (v : W20) {k : Nat} (hk : k < 8) : let t := s.gstart v
    (s.upper k = false → t.test (TMR_CTL_RUN k) = (v.getLsbD k || s.test (TMR_CTL_RUN k) && !v.getLsbD (8 + k))) ∧
      (s.upper k = true → t.rg (TMR_CTL k) = s.rg (TMR_CTL k)) ∧
      (s.upper k = false → v.getLsbD k = true → s.test (TMR_CTL_RUN k) = false → (t.tmr k).phase = 0) ∧
      (t.tmr k).top = (s.tmr k).top ∧ (t.tmr k).cmp = (s.tmr k).cmp ∧ (t.tmr k).latch = (s.tmr k).latch := by
  obtain ⟨a, b, hsplit, ha, hb⟩ := range8_split hk
  dsimp only
  rw [State.gstart_eq, hsplit, List.foldl_append, List.foldl_cons]
  obtain ⟨hrga, htmra, hctla⟩ := State.gstart_others v hk a ha s
  generalize a.foldl (State.gstartOne v) s = u at hrga htmra hctla ⊢
  obtain ⟨hrun, hupper, hphase, -, -, ⟨p, hself⟩, -⟩ := State.gstartOne_shows v u k
  obtain ⟨hrgb, htmrb, -⟩ := State.gstart_others v hk b hb (State.gstartOne v u k)
  rw [hctla.upper k, State.test_of_rg (f := TMR_CTL_RUN k) hrga] at hrun hphase
  rw [hctla.upper k, hrga] at hupper
  rw [htmrb]
  refine ⟨fun h => ?_, fun h => hrgb.trans (hupper h), hphase, ?_, ?_, ?_⟩
  · rw [State.test_of_rg (f := TMR_CTL_RUN k) hrgb]
    exact hrun h
  all_goals rw [hself, htmra]

theorem State.gstart_within (s : State) (v : W20) : s.Within ((List.range 8).map TMR_CTL) (s.gstart v) := by
  rw [State.gstart_eq]
  refine State.Within.foldl _ _ (fun t k hk => ?_) s
  obtain ⟨-, -, -, hwithin, -⟩ := State.gstartOne_shows v t k
  exact hwithin.mono (fun a ha => List.mem_map.mpr ⟨k, hk, (List.mem_singleton.mp ha).symm⟩)

/-- Settles O45: a lone timer's step touches its own registers, and each command its own timer. -/
theorem timerEffects : Obligations.TimerEffects := by
  unfold Obligations.TimerEffects
  intro i s hon k quiet lone counts unfollowed now goal
  have hk : k < 8 := i.isLt
  have hstopped : s.stopped = false := by
    rw [State.notDormant, Bool.and_eq_true, Bool.not_eq_true'] at hon
    exact hon.1
  have hquiet {l : List Nat} {t : State} (h : s.Within l t) : quiet t := ⟨h.still.mem, h.still.cores⟩
  refine ⟨fun hlone hcounts hun hclock hphase => ?steps, fun v hclk => ?writes, fun hclk hlone => ?readLone,
    fun hclk hup hup1 hup2 => ?readPair, fun hbus hup hclk3 => ?events⟩
  case steps =>
    obtain ⟨hup, hup1⟩ := hlone
    obtain ⟨hrun, hslave⟩ := hcounts
    have hcounting : s.counting k = true := by
      rw [State.counting, hrun, bne_iff_ne.mpr hslave]
      rfl
    have hun' : s.unfollowed k := fun j hj => hun ⟨j, hj⟩
    refine ⟨fun htop hcmp hpend => ?wrap, fun htop hcmp => ?hits⟩
    case wrap =>
      have hat : s.atTop k = true := by
        rw [State.atTop, Bool.or_eq_true, beq_iff_eq, beq_iff_eq]
        exact htop
      obtain ⟨hcnt, hout, -, hflag, -, hw⟩ := s.stepShown_shows (n := 0) (o := 1) true hk (by decide) (by decide)
      have hctl1 := s.stepShown_ctl (n := 0) (o := 1) true hk (by decide) (by decide)
      have hctl : s.CtlKept (s.wrapEnd k) := by
        rw [State.wrapEnd]
        split
        · exact hctl1.trans (State.CtlKept.put_run _ k 0)
        · exact hctl1
      obtain ⟨p, hown⟩ := State.ownStep_alone hk (State.chainStep_wrap hk hup1 hat hcmp hpend)
        (fun m hm => by simpa using hm) (fun m hm => by simp at hm) hctl hun' hphase
      have hmoved : ((s.moved (s.chain k)).any fun e => e.1 == k && e.2) = true := by
        rw [State.chain_of_not_upper hup1, State.moved, hat, if_pos rfl]
        simp [State.moved]
      have hexec : exec (.timerWrap i) s = .next (s.ownStep k) := by
        show execTimerWrap i s = _
        rw [execTimerWrap, State.during, if_pos hon]
        show (if _ then _ else _) = _
        rw [State.lowest_of_not_upper (k := k) hup, if_pos ⟨hclock, hcounting, hmoved⟩]
      have honeshot : (s.stepShown k 0 1 true).test (TMR_CTL_ONESHOT k) = s.test (TMR_CTL_ONESHOT k) := by
        rw [State.test, State.test, hctl1.get TMR_CTL_ONESHOT hk rfl (Nat.le_of_ble_eq_true rfl)]
      have hctlrg : (s.stepShown k 0 1 true).test (TMR_CTL_RUN k) = s.test (TMR_CTL_RUN k) := by
        obtain ⟨hc, hs, hf, -, -⟩ := ctl_far (k := k) hk
        exact hw.test (by simp [TMR_CTL_RUN, hc, hs, hf])
      obtain ⟨hc, hs, hf, -, -⟩ := ctl_far (k := k) hk
      refine ⟨s.ownStep k, hexec, ?_⟩
      rw [hown]
      have hend : s.wrapEnd k = if s.test (TMR_CTL_ONESHOT k) then (s.stepShown k 0 1 true).put (TMR_CTL_RUN k) 0
          else s.stepShown k 0 1 true := by
        rw [← honeshot]
        rfl
      have hmono {t : State} (h : State.Within [TMR_CTL k] (s.stepShown k 0 1 true) t) :
          s.Within [TMR_CNT k, TMR_STAT k, TMR_FLAGS, TMR_CTL k] t :=
        (hw.mono (by simp)).trans (h.mono (by simp))
      show (s.wrapEnd k).get _ = 0 ∧ (s.wrapEnd k).test _ = true ∧ ((s.wrapEnd k).rg TMR_FLAGS).getLsbD (8 + k) = true ∧
        (s.wrapEnd k).test (TMR_CTL_RUN k) = (s.test (TMR_CTL_RUN k) && !s.test (TMR_CTL_ONESHOT k)) ∧
        s.regsKept (s.wrapEnd k) _ ∧ s.memKept (s.wrapEnd k)
      rw [hend]
      cases hone : s.test (TMR_CTL_ONESHOT k)
      · have hall := hmono (State.Within.rfl' _)
        exact ⟨hcnt, hout, hflag, hctlrg.trans (by simp), hall.regs, hall.still.mem⟩
      · have hall := hmono (State.Within.put _ (f := TMR_CTL_RUN k) 0 (List.mem_singleton_self _))
        refine ⟨(State.get_put_ne _ _ (Ne.symm hc)).trans hcnt, (State.test_put_ne _ _ (Ne.symm hs)).trans hout,
          (congrArg (fun w : W20 => w.getLsbD (8 + k)) (State.rg_put_ne _ _ _ (Ne.symm hf))).trans hflag, ?_, hall.regs, hall.still.mem⟩
        rw [if_pos rfl, State.test_put_same _ (TMR_CTL_RUN k) 0 (Nat.le_of_ble_eq_true rfl) (Nat.zero_le _)
          (Nat.le_of_ble_eq_true rfl)]
        simp
    case hits =>
      have hlt : now + 1 < 2 ^ 20 := hcmp ▸ goal.cmp.isLt
      obtain ⟨hcnt, hout, -, hflag, -, hw⟩ := s.stepShown_shows (n := now + 1) (o := 0) false hk hlt (by decide)
      have hchain := State.chainStep_match hk hup1 htop hcmp
      have hctl : s.CtlKept (s.matchEnd k) := s.stepShown_ctl (n := now + 1) (o := 0) false hk hlt (by decide)
      obtain ⟨p, hown⟩ := State.ownStep_alone hk hchain (fun m hm => by simp at hm) (fun m hm => by simpa using hm) hctl hun' hphase
      have hexec : exec (.timerMatch i) s = .next (s.ownStep k) := by
        show execTimerMatch i s = _
        rw [execTimerMatch, State.during, if_pos hon]
        show (if _ then _ else _) = _
        rw [State.lowest_of_not_upper (k := k) hup, if_pos ⟨hclock, hcounting, by rw [hchain]; exact List.contains_iff_mem.mpr (List.mem_singleton_self k)⟩]
      refine ⟨s.ownStep k, hexec, ?_⟩
      rw [hown]
      rw [show bit false * 8 + k = k by simp [bit]] at hflag
      exact ⟨hcnt, hout, hflag, hw.regs, hw.still.mem⟩
  case writes =>
    have hrun (o : Out) : s.during s.clocked o = o := if_pos hclk
    refine ⟨fun hbad => ?refused, fun hlone hstill hclk4 hchain hslave => ?taken, hrun _, fun cmp => ⟨fun hpre => ?preload, fun hpre => ?direct⟩, ?gstart⟩
    case refused =>
      have hw := State.Within.raise (but := [TMR_FLAGS]) s (f := TMR_FLAGS_CFG_REFUSED) (by decide)
      refine ⟨_, (hrun _).trans (congrArg _ (State.tmrCtl_refused k ?_)), State.raise_self _ _ (by decide) (by decide), hw.regs,
        State.raise_timers _ _, hquiet hw⟩
      simpa [fieldGet, Nat.shiftRight_eq_div_pow] using hbad
    case taken =>
      have hfield : fieldGet v 6 4 < 4 ∧ fieldGet v 3 3 = 0 ∧ fieldGet v 15 14 = 0 := by
        refine ⟨by simpa [fieldGet, Nat.shiftRight_eq_div_pow] using hclk4, ?_, by simpa [fieldGet, Nat.shiftRight_eq_div_pow] using hslave⟩
        have hbit : v.toNat.testBit 3 = false := hchain
        rw [Nat.testBit_eq_decide_div_mod_eq] at hbit
        simp only [decide_eq_false_iff_not] at hbit
        simp only [fieldGet, Nat.shiftRight_eq_div_pow]
        omega
      obtain ⟨hc4, hc3, hs0⟩ := hfield
      have hw : s.Within [TMR_CTL k] ((s.setRg (TMR_CTL k) (v &&& 0x7FFFF)).modTmr k (fun h => { h with phase := 0 })) :=
        (State.Within.setRg s _ (List.mem_singleton_self _)).trans (State.Within.modTmr _ _ _)
      refine ⟨_, (hrun _).trans (congrArg _ (State.tmrCtl_taken hk hlone.1 hlone.2 hstill hc4 hc3 hs0)), State.rg_setRg_same _ _ _,
        State.tmr_modTmr_same _ k _, hw.regs, hquiet hw⟩
    case preload =>
      refine (hrun _).trans (congrArg _ ?_)
      rw [State.tmrTopCmp, if_pos hpre]
    case direct =>
      have hend : s.tmrTopCmp k cmp v = (s.setRg (if cmp then TMR_CMP k else TMR_TOP k) v).modTmr k
          (fun h => if cmp then { h with cmp := v } else { h with top := v }) := by
        rw [State.tmrTopCmp]
        exact if_neg (by simp [hpre])
      have hw : s.Within [if cmp then TMR_CMP k else TMR_TOP k] (s.tmrTopCmp k cmp v) := by
        rw [hend]
        exact (State.Within.setRg s _ (List.mem_singleton_self _)).trans (State.Within.modTmr _ _ _)
      refine ⟨s.tmrTopCmp k cmp v, hrun _, ?_, ?_, hw.regs, hquiet hw⟩
      · rw [hend]
        exact State.rg_setRg_same _ _ _
      · rw [hend]
        exact State.tmr_modTmr_same _ k _
    case gstart =>
      obtain ⟨hset, hupper, hphase, htop, hcmp, hlatch⟩ := s.gstart_shows v hk
      have hw := s.gstart_within v
      exact ⟨s.gstart v, hrun _, hset, hupper, hphase, htop, hcmp, hlatch, hw.regs, hquiet hw⟩
  case readLone =>
    show s.during s.clocked _ = _
    rw [State.during, if_pos hclk, State.tmrRead, if_neg (by rw [hlone.1]; decide), State.above_of_not_upper hlone.2]
    rfl
  case readPair =>
    have hread : (s.tmrRead k).2 = s.modTmr (k + 1) (fun h => { h with latch := s.rg (TMR_CNT (k + 1)) }) := by
      rw [State.tmrRead, if_neg (by rw [hup]; decide), State.above, if_pos hup1, State.above,
        show s.upper (k + 1 + 1) = false from hup2, if_neg Bool.false_ne_true]
      rfl
    have hw : s.Within [] (s.tmrRead k).2 := by
      rw [hread]
      exact State.Within.modTmr _ _ _
    refine ⟨(s.tmrRead k).2, if_pos hclk, ?_, ?_, hquiet hw⟩
    · rw [hread]
      exact congrArg TimerH.latch (State.tmr_modTmr_same s (k + 1) _)
    · rw [hread]
      rfl
  case events =>
    have hexec {t : State} (h : s.tmrEvent k = t) : exec (.timerEventInput i) s = .next t := by
      show execTimerEventInput i s = _
      rw [execTimerEventInput, State.live_of_not_stopped hstopped, if_pos hbus]
      exact congrArg _ h
    refine ⟨fun h => ?_, fun h => hexec (by rw [State.tmrEvent, if_neg (by rw [hup]; decide), if_neg hclk3, h] <;> rfl), fun h hl => hexec ?_, fun h hl => hexec ?_⟩
    · obtain ⟨hrun, hphase, hw, -⟩ := s.tmrRun_shows k
      exact ⟨s.tmrRun k, hexec (by rw [State.tmrEvent, if_neg (by rw [hup]; decide), if_neg hclk3, h] <;> rfl), hrun, hphase, hw.regs, hquiet hw⟩
    · rw [State.tmrEvent, if_neg (by rw [hup]; decide), if_neg hclk3, h]
      show s.tmrZero k = _
      rw [State.tmrZero, State.chain_of_not_upper hl.2]
      rfl
    · rw [State.tmrEvent, if_neg (by rw [hup]; decide), if_neg hclk3, h]
      show (s.chain k).foldl _ s = _
      rw [State.chain_of_not_upper hl.2]
      rfl

end Sys2Proof.Machine
end

section
/-! SUPPORT. The tack room (R281-R287): what a command starts with, and what its end leaves. -/

set_option Elab.async false

namespace Sys2Proof.Machine

/-- Shared SRAM whose groups from the first to the last byte are without errors. -/
theorem State.sram_allGood {s : State} {a n : Nat} (h : ∀ g, a / 4 ≤ g → g ≤ (a + n - 1) / 4 → s.chk g = .good) :
    s.allGood .sram a n := State.allGood_of_groups fun g hlo hhi => by
  rw [Ram.group, Nat.mul_div_cancel_left g (by decide)]
  exact h g hlo hhi

theorem inSram_of_le {a n : Nat} (h : a + n ≤ 0xA0000) : inSram a n = true := decide_eq_true h

theorem State.Within.manger {but : List Nat} {s t : State} (h : s.MangerOnly t) : s.Within but t :=
  ⟨fun a _ => h.rg a, State.Still.manger h⟩

theorem State.Within.modCipher {but : List Nat} (s : State) (f : Cipher → Cipher) : s.Within but (s.modCipher f) :=
  ⟨fun _ _ => rfl, State.memKept_of_tables rfl rfl rfl rfl, fun _ => rfl⟩

theorem State.Within.fresh {but : List Nat} (s : State) : s.Within but s.fresh.2 :=
  ⟨fun _ _ => rfl, State.memKept_of_tables rfl rfl rfl rfl, fun _ => rfl⟩

theorem State.MangerOnly.cipher {s t : State} (h : s.MangerOnly t) : t.cipher = s.cipher := by rw [h]

theorem State.inRun_clocked {s : State} (h : s.inRun = true) : s.clocked = true := by
  rw [State.inRun, Bool.and_eq_true, Bool.not_eq_true', beq_iff_eq] at h
  exact State.clocked_of_run h.1 h.2

/-! ## Work for the engines (R293) -/

/-- Work asks for the engines' charge, or keeps it. -/
theorem State.cphWork_shows (s : State) :
    s.cphWork.cipher = { s.cipher with workAt := s.tick } ∧ ∀ l, s.Within l s.cphWork := by
  rw [State.cphWork]
  split
  · have h := State.mangerOnly_charge (s.modCipher (fun c => { c with workAt := s.tick })) [14]
    exact ⟨h.cipher, fun l => (State.Within.modCipher s _).trans (State.Within.manger h)⟩
  · have h := State.mangerOnly_ask (s.modCipher (fun c => { c with workAt := s.tick })) 0 [14]
    exact ⟨h.cipher, fun l => (State.Within.modCipher s _).trans (State.Within.manger h)⟩

/-! ## A command's start (R283) -/

/-- A command taken: BUSY, what it will do, and the charge it asks for. -/
def State.trStart (u : State) (r : TrRun) (now : Nat) (work : Bool) : State :=
  let t := (u.put TR_STAT_BUSY 1).modCipher (fun c => { c with tr := some { r with wrAt := now } })
  if work then t.cphWork else t

theorem State.trStart_shows (u : State) (r : TrRun) (now : Nat) (work : Bool) : let t := u.trStart r now work
    t.test TR_STAT_BUSY = true ∧ t.cipher.tr = some { r with wrAt := now } ∧ u.Within [TR_STAT] t := by
  have hbusy := State.test_put_same u TR_STAT_BUSY 1 (by decide) (by decide) (by decide)
  have hw := (State.Within.put u (f := TR_STAT_BUSY) 1 (List.mem_singleton_self _)).trans
    (State.Within.modCipher _ (fun c => { c with tr := some { r with wrAt := now } }))
  dsimp only
  rw [State.trStart]
  split
  · obtain ⟨hcipher, hwork⟩ := State.cphWork_shows
      ((u.put TR_STAT_BUSY 1).modCipher (fun c => { c with tr := some { r with wrAt := now } }))
    exact ⟨((hwork []).test (by decide)).trans hbusy, by rw [hcipher]; rfl, hw.trans (hwork _)⟩
  · exact ⟨hbusy, rfl, hw⟩

section Start

variable {s : State} {src : Source} {slot : Nat}

/-- A source that may give commands, while none is in progress. -/
def State.trFree (s : State) (src : Source) : Prop := ¬(!mayTrust src ∨ s.test TR_STAT_BUSY)

variable (h : s.trFree src)
include h

theorem State.trCmd_generate :
    s.trCmd src 1 slot = (s.trGenerate slot).2.trStart (s.trGenerate slot).1 s.tick true := by
  rw [State.trCmd, if_neg h]; rfl

theorem State.trCmd_importEcdh :
    s.trCmd src 2 slot = (s.trImportEcdh slot).2.trStart (s.trImportEcdh slot).1 s.tick true := by
  rw [State.trCmd, if_neg h]; rfl

theorem State.trCmd_importKek :
    s.trCmd src 3 slot = (s.trImportKek slot).2.trStart (s.trImportKek slot).1 s.tick true := by
  rw [State.trCmd, if_neg h]; rfl

theorem State.trCmd_erase :
    s.trCmd src 4 slot = s.trStart (TrRun.fail 4 slot (if s.slotBusy slot then 3 else 0)) s.tick false := by
  rw [State.trCmd, if_neg h]; rfl

theorem State.trCmd_export :
    s.trCmd src 5 slot = (s.trExport slot).2.trStart (s.trExport slot).1 s.tick true := by
  rw [State.trCmd, if_neg h]; rfl

theorem State.trCmd_restore :
    s.trCmd src 6 slot = (s.trRestore slot).2.trStart (s.trRestore slot).1 s.tick true := by
  rw [State.trCmd, if_neg h]; rfl

end Start

/-- A refused command. -/
theorem State.trCmd_refused {s : State} {src : Source} (op slot : Nat) (h : mayTrust src = false ∨ s.test TR_STAT_BUSY = true) :
    let t := s.trCmd src op slot
    t.get TR_STAT_RESULT = 1 ∧ t.test CPH_FLAGS_TR_REFUSED = true ∧ t.cipher = s.cipher ∧
      s.regsKept t [TR_STAT, CPH_FLAGS] ∧ s.memKept t ∧ s.coresKept t := by
  have hw := (State.Within.put (but := [TR_STAT, CPH_FLAGS]) s (f := TR_STAT_RESULT) 1 (by decide)).trans
    (State.Within.raise _ (f := CPH_FLAGS_TR_REFUSED) (by decide))
  dsimp only
  unfold State.trCmd
  rw [if_pos (h.imp (fun h => by rw [h]; rfl) id)]
  refine ⟨?_, State.raise_self _ _ (by decide) (by decide), State.raise_cipher _ _, hw.regs, hw.still.mem, hw.still.cores⟩
  rw [State.raise_get_ne _ _ (by decide)]
  exact State.get_put_same s TR_STAT_RESULT 1 (by decide) (by decide)

/-! ## What each command will do -/

section Commands

variable {s : State} {slot : Nat}

theorem State.trAttrOk_of (huse : s.get TR_ATTR_USE ≠ 0)
    (hwarn : s.get TR_WARN_VALUE < if s.get TR_LIMIT_VALUE = 0 then 65536 else s.get TR_LIMIT_VALUE) : s.trAttrOk = true := by
  rw [State.trAttrOk, Bool.and_eq_true, bne_iff_ne, decide_eq_true_eq]
  exact ⟨huse, hwarn⟩

theorem State.trGenerate_ready (hempty : s.slotSt slot = 0) (hattr : s.trAttrOk = true) (hfail : s.test TRNG_STAT_FAIL = false) :
    ∃ key, s.trGenerate slot = (s.trFresh 1 slot key, s.fresh.2) := by
  rw [State.trGenerate, if_neg (fun h => h hempty), hattr, hfail]
  exact ⟨_, rfl⟩

theorem State.trGenerate_full (h : s.slotSt slot ≠ 0) : s.trGenerate slot = (TrRun.fail 1 slot 2, s) := by
  rw [State.trGenerate, if_pos h]

/-- The key of an ECDH block, where its point and its integrity check hold (R284). -/
def State.ecdhKey (s : State) (slot : Nat) (b : List Byte) : Option (List Byte) :=
  let x := ofBytesBE (b.take 32)
  let y := ofBytesBE ((b.drop 32).take 32)
  if onCurve x y then kwUnwrap (s.importKek slot x y) (b.drop 64) else none

/-- The command that provisions an unwrapped key, or fails without one. -/
def State.trGot (s : State) (op slot : Nat) (got : Option (List Byte)) : TrRun :=
  match got with
  | some k => s.trFresh op slot (keyOf k)
  | none => TrRun.fail op slot 5

theorem State.trImportEcdh_ready (hempty : s.slotSt slot = 0) (hattr : s.trAttrOk = true)
    (hin : s.get TR_ARG_VALUE + (64 + s.trWrapped) ≤ 0xA0000) (hgood : s.allGood .sram (s.get TR_ARG_VALUE) (64 + s.trWrapped)) :
    s.trImportEcdh slot =
      (s.trGot 2 slot (s.ecdhKey slot (s.bytes .sram (s.get TR_ARG_VALUE) (64 + s.trWrapped))), s) := by
  have hsram : inSram (s.get TR_ARG_VALUE) (64 + s.trWrapped) = true := inSram_of_le hin
  rw [State.trImportEcdh, if_neg (fun h => h hempty), hattr, if_neg (by decide), hsram, if_neg (by decide),
    State.ramRead_good s _ _ _ hgood]
  show (if _ then _ else _) = _
  rw [State.ecdhKey]
  cases hcurve : onCurve (ofBytesBE ((s.bytes .sram (s.get TR_ARG_VALUE) (64 + s.trWrapped)).take 32))
    (ofBytesBE (((s.bytes .sram (s.get TR_ARG_VALUE) (64 + s.trWrapped)).drop 32).take 32))
  · rfl
  · rw [if_neg (by decide), if_pos rfl]
    cases kwUnwrap _ _ <;> rfl

theorem State.slotUse_frame (s : State) (q : Nat) : (s.slotUse q).memChk = s.memChk ∧ (s.slotUse q).sram = s.sram ∧
    s.Within [TR_COUNT q, TR_INFO q, CPH_FLAGS] (s.slotUse q) := by
  have h0 := State.Within.put (but := [TR_COUNT q, TR_INFO q, CPH_FLAGS]) s (f := TR_COUNT_VALUE q)
    (s.get (TR_COUNT_VALUE q) + 1) (by simp [TR_COUNT_VALUE])
  unfold State.slotUse
  dsimp only
  have hraise (f : Field) (hf : f.reg = CPH_FLAGS) {p : Prop} [Decidable p] {t : State}
      (ht : t.memChk = s.memChk ∧ t.sram = s.sram ∧ s.Within [TR_COUNT q, TR_INFO q, CPH_FLAGS] t) :
      (if p then t.raise f else t).memChk = s.memChk ∧ (if p then t.raise f else t).sram = s.sram ∧
        s.Within [TR_COUNT q, TR_INFO q, CPH_FLAGS] (if p then t.raise f else t) := by
    split
    · exact ⟨(State.raise_memChk _ _).trans ht.1, (State.raise_sram _ _).trans ht.2.1,
        ht.2.2.trans (State.Within.raise _ (by simp [hf]))⟩
    · exact ht
  have hspent {p : Prop} [Decidable p] {t : State}
      (ht : t.memChk = s.memChk ∧ t.sram = s.sram ∧ s.Within [TR_COUNT q, TR_INFO q, CPH_FLAGS] t) :
      (if p then t.put (TR_INFO_STATE q) 2 else t).memChk = s.memChk ∧ (if p then t.put (TR_INFO_STATE q) 2 else t).sram = s.sram ∧
        s.Within [TR_COUNT q, TR_INFO q, CPH_FLAGS] (if p then t.put (TR_INFO_STATE q) 2 else t) := by
    split
    · exact ⟨ht.1, ht.2.1, ht.2.2.trans (State.Within.put _ (f := TR_INFO_STATE q) 2 (by simp [TR_INFO_STATE]))⟩
    · exact ht
  exact hraise _ rfl (hspent (hraise _ rfl ⟨rfl, rfl, h0⟩))

/-- One use counts. -/
theorem State.slotUse_count {q : Nat} (hq : q < 64) (hlt : s.get (TR_COUNT_VALUE q) + 1 < 2 ^ 20) :
    (s.slotUse q).get (TR_COUNT_VALUE q) = s.get (TR_COUNT_VALUE q) + 1 := by
  have hinfo : TR_COUNT q ≠ TR_INFO q := by simp only [TR_COUNT, TR_INFO]; omega
  have hflags : TR_COUNT q ≠ CPH_FLAGS := by simp only [TR_COUNT, CPH_FLAGS]; omega
  have hraise (f : Field) (hf : f.reg = CPH_FLAGS) {p : Prop} [Decidable p] (t : State) :
      (if p then t.raise f else t).get (TR_COUNT_VALUE q) = t.get (TR_COUNT_VALUE q) := by
    split
    · exact State.raise_get_ne _ _ (by rw [hf]; exact hflags)
    · rfl
  have hspent {p : Prop} [Decidable p] (t : State) :
      (if p then t.put (TR_INFO_STATE q) 2 else t).get (TR_COUNT_VALUE q) = t.get (TR_COUNT_VALUE q) := by
    split
    · exact State.get_put_ne _ _ hinfo
    · rfl
  unfold State.slotUse
  dsimp only
  rw [hraise _ rfl, hspent, hraise _ rfl,
    State.get_put_same s (TR_COUNT_VALUE q) _ (Nat.le_of_ble_eq_true rfl) (Nat.zero_le _)]
  exact Nat.mod_eq_of_lt hlt

/-- A read of shared SRAM whose groups are good, after a use of a key. -/
theorem State.slotUse_read {q a n : Nat} (hgood : s.allGood .sram a n) :
    (s.slotUse q).ramRead .sram a n = (some (s.bytes .sram a n), s.slotUse q) := by
  obtain ⟨hchk, hsram, hw⟩ := s.slotUse_frame q
  have hgood' : (s.slotUse q).allGood .sram a n := fun g hg => by
    rw [State.chk, hchk]
    exact hgood g hg
  have hbytes (n : Nat) : ∀ a, (s.slotUse q).bytes .sram a n = s.bytes .sram a n := by
    induction n with
    | zero => exact fun _ => rfl
    | succ n ih => exact fun a => congrArg₂ List.cons (hw.still.mem.1 .sram a) (ih (a + 1))
  rw [State.ramRead_good _ _ _ _ hgood', hbytes]

theorem State.trImportKek_ready (hempty : s.slotSt slot = 0) (hkek : s.slotSt (s.get TR_ATTR_KEKSLOT) = 1)
    (huse : s.get (TR_INFO_USE (s.get TR_ATTR_KEKSLOT)) % 2 = 1) (hattr : s.trAttrOk = true)
    (hin : s.get TR_ARG_VALUE + s.trWrapped ≤ 0xA0000) (hgood : s.allGood .sram (s.get TR_ARG_VALUE) s.trWrapped) :
    s.trImportKek slot = (s.trGot 3 slot (kwUnwrap (s.slotBytes (s.get TR_ATTR_KEKSLOT))
      (s.bytes .sram (s.get TR_ARG_VALUE) s.trWrapped)), s.slotUse (s.get TR_ATTR_KEKSLOT)) := by
  have hsram : inSram (s.get TR_ARG_VALUE) s.trWrapped = true := inSram_of_le hin
  rw [State.trImportKek, if_neg (by simp only [hempty, hkek, huse]; decide), hattr, if_neg (by decide), hsram, if_neg (by decide),
    State.slotUse_read hgood]
  dsimp only
  cases kwUnwrap _ _ <;> rfl

theorem State.trExport_ready (hfull : s.slotSt slot ≠ 0) (hin : s.get TR_ARG_VALUE + 56 ≤ 0xA0000) :
    ∃ out, s.trExport slot = ({ TrRun.fail 5 slot 0 with
      reserve := min (s.get (TR_LIMITS_VALUE slot)) (s.get (TR_COUNT_VALUE slot) + max 1 (s.get TR_STEP_STEP))
      out := out, outAt := s.get TR_ARG_VALUE }, s) := by
  have hsram : inSram (s.get TR_ARG_VALUE) 56 = true := inSram_of_le hin
  rw [State.trExport, if_neg hfull, hsram, if_neg (by decide)]
  exact ⟨_, rfl⟩

/-- What a restored blob provisions (R286). -/
def trBlob (slot : Nat) (r : List Byte) : TrRun :=
  let f := fun o n => ofBytesBE ((r.drop o).take n)
  { op := 6, slot := slot, res := 0, key := BitVec.ofNat 256 (f 0 32), attr := BitVec.ofNat 20 (f 32 3)
    count := f 41 3, limit := f 35 3, warn := f 38 3, reserve := f 41 3, out := [], outAt := 0, wrAt := 0 }

/-- The command of a restore: the blob's integrity, then its slot. -/
def trRestored (slot : Nat) (got : Option (List Byte)) : TrRun :=
  match got with
  | none => TrRun.fail 6 slot 5
  | some r => if ofBytesBE ((r.drop 44).take 1) ≠ slot then TrRun.fail 6 slot 4 else trBlob slot r

/-- A restore past its checks. -/
theorem State.trRestore_read {b : List Byte} {t : State} (hempty : s.slotSt slot = 0) (hin : inSram (s.get TR_ARG_VALUE) 56 = true)
    (hread : s.ramRead .sram (s.get TR_ARG_VALUE) 56 = (some b, t)) :
    s.trRestore slot = (trRestored slot (kwUnwrap (toBytesBE 32 s.otp.kek.toNat) b), t) := by
  rw [State.trRestore, if_neg (fun h => h hempty), hin, if_neg (by decide), hread]
  dsimp only
  generalize toBytesBE 32 s.otp.kek.toNat = kek
  cases kwUnwrap kek b with
  | none => rfl
  | some r =>
    show (if ofBytesBE ((r.drop 44).take 1) ≠ slot then (TrRun.fail 6 slot 4, t) else (trBlob slot r, t)) =
      ((if ofBytesBE ((r.drop 44).take 1) ≠ slot then TrRun.fail 6 slot 4 else trBlob slot r), t)
    split <;> rfl

theorem State.trRestore_ready (hempty : s.slotSt slot = 0) (hin : s.get TR_ARG_VALUE + 56 ≤ 0xA0000)
    (hgood : s.allGood .sram (s.get TR_ARG_VALUE) 56) : s.trRestore slot =
      (trRestored slot (kwUnwrap (toBytesBE 32 s.otp.kek.toNat) (s.bytes .sram (s.get TR_ARG_VALUE) 56)), s) :=
  State.trRestore_read hempty (inSram_of_le hin) (State.ramRead_good s _ _ _ hgood)

end Commands

/-! ## A command's end (R283, R286) -/

/-- The end of a command after what it leaves: BUSY 0, RESULT and TR_DONE. -/
def State.trEnd (t : State) (res : Nat) : State :=
  (((t.modCipher (fun c => { c with tr := none })).put TR_STAT_BUSY 0).put TR_STAT_RESULT res).raise CPH_FLAGS_TR_DONE

theorem State.trEnd_shows (t : State) (res : Nat) : let u := t.trEnd res
    u.test TR_STAT_BUSY = false ∧ u.get TR_STAT_RESULT = res % 8 ∧ u.test CPH_FLAGS_TR_DONE = true ∧
      u.cipher = { t.cipher with tr := none } ∧ t.Within [TR_STAT, CPH_FLAGS] u := by
  have hw := (((State.Within.modCipher t (fun c => { c with tr := none })).trans
    (State.Within.put (but := [TR_STAT, CPH_FLAGS]) _ (f := TR_STAT_BUSY) 0 (by decide))).trans
    (State.Within.put _ (f := TR_STAT_RESULT) res (by decide))).trans (State.Within.raise _ (f := CPH_FLAGS_TR_DONE) (by decide))
  dsimp only [State.trEnd]
  refine ⟨?_, ?_, State.raise_self _ _ (by decide) (by decide), State.raise_cipher _ _, hw⟩
  · rw [State.raise_test_ne _ _ (by decide), State.test,
      State.get_put_other _ res (f := TR_STAT_BUSY) (g := TR_STAT_RESULT) (by decide) (by decide) (.inr (by decide))]
    exact State.test_put_same _ TR_STAT_BUSY 0 (by decide) (by decide) (by decide)
  · rw [State.raise_get_ne _ _ (by decide)]
    exact State.get_put_same _ TR_STAT_RESULT res (by decide) (by decide)

theorem exec_trCommandDone {s : State} {r : TrRun} (hin : s.inRun = true) (hr : s.cipher.tr = some r)
    (hwork : trWork r.op = false ∨ s.holds 14 = true) : exec .trCommandDone s = .next ((s.trApply r).trEnd r.res) := by
  have hgo : (trWork r.op && !s.holds 14) = false := by
    rcases hwork with h | h <;> simp [h]
  show execTrCommandDone s = _
  rw [execTrCommandDone, State.during, if_pos hin, hr]
  dsimp only
  rw [hgo]
  rfl

/-- The five registers of a slot. -/
def slotRegs (k : Nat) : List Nat := [TR_INFO k, TR_COUNT k, TR_LIMITS k, TR_WARNS k, TR_RESERVE k]

theorem State.slotErase_shows (s : State) {k : Nat} (hk : k < 64) : (s.slotErase k).rg (TR_INFO k) = 0 ∧
    (s.slotErase k).slotKey k = 0 ∧ s.Within (slotRegs k) (s.slotErase k) := by
  have hne : TR_INFO k ≠ TR_COUNT k ∧ TR_INFO k ≠ TR_LIMITS k ∧ TR_INFO k ≠ TR_WARNS k ∧ TR_INFO k ≠ TR_RESERVE k := by
    simp only [TR_INFO, TR_COUNT, TR_LIMITS, TR_WARNS, TR_RESERVE]
    omega
  obtain ⟨hcount, hlimit, hwarn, hreserve⟩ := hne
  rw [State.slotErase]
  refine ⟨?_, ?_, ?_⟩
  · rw [State.rg_setRg_ne _ _ hreserve, State.rg_setRg_ne _ _ hwarn, State.rg_setRg_ne _ _ hlimit, State.rg_setRg_ne _ _ hcount]
    exact State.rg_setRg_same _ _ _
  · exact tabGet_set_same keyDflt s.cipher.keys k 0
  · exact (((((State.Within.modCipher s _).trans (State.Within.setRg _ 0 (by simp [slotRegs]))).trans
      (State.Within.setRg _ 0 (by simp [slotRegs]))).trans (State.Within.setRg _ 0 (by simp [slotRegs]))).trans
      (State.Within.setRg _ 0 (by simp [slotRegs]))).trans (State.Within.setRg _ 0 (by simp [slotRegs]))

theorem slotRegs_far {k : Nat} (hk : k < 64) : ∀ a ∈ slotRegs k, a ∉ [TR_STAT, CPH_FLAGS] := by
  intro a ha
  simp only [slotRegs, List.mem_cons, List.not_mem_nil, or_false, TR_INFO, TR_COUNT, TR_LIMITS, TR_WARNS, TR_RESERVE] at ha
  simp only [List.mem_cons, List.not_mem_nil, or_false, TR_STAT, CPH_FLAGS]
  omega

/-- The registers of a slot filled with `r`. -/
theorem State.slotFill_shows (s : State) {r : TrRun} (hk : r.slot < 64) (hcount : r.count < 2 ^ 20) :
    (s.slotFill r).get (TR_INFO_STATE r.slot) = (if r.count = r.limit then 2 else 1) ∧
      (s.slotFill r).get (TR_COUNT_VALUE r.slot) = r.count ∧ (s.slotFill r).slotKey r.slot = r.key ∧
      (s.slotFill r).get (TR_INFO_USE r.slot) = r.attr.toNat / 2 ^ 14 % 16 ∧ s.Within (slotRegs r.slot) (s.slotFill r) := by
  have hne : TR_COUNT r.slot ≠ TR_INFO r.slot ∧ TR_COUNT r.slot ≠ TR_LIMITS r.slot ∧ TR_COUNT r.slot ≠ TR_WARNS r.slot ∧
      TR_COUNT r.slot ≠ TR_RESERVE r.slot := by
    simp only [TR_INFO, TR_COUNT, TR_LIMITS, TR_WARNS, TR_RESERVE]
    omega
  obtain ⟨hinfo, hlimit, hwarn, hreserve⟩ := hne
  have hin (f : Field) (hf : f.reg ∈ slotRegs r.slot) (n : Nat) (t : State) : t.Within (slotRegs r.slot) (t.put f n) :=
    State.Within.put t n hf
  rw [State.slotFill]
  refine ⟨?_, ?_, tabGet_set_same keyDflt s.cipher.keys r.slot r.key, ?_, ?_⟩
  · rw [State.get_put_same _ (TR_INFO_STATE r.slot) _ (Nat.le_of_ble_eq_true rfl) (Nat.le_of_ble_eq_true rfl)]
    show (if r.count = r.limit then 2 else 1) % 4 = _
    split <;> rfl
  · rw [State.get_put_ne _ _ hinfo, State.get_put_ne _ _ hinfo, State.get_put_ne _ _ hinfo, State.get_put_ne _ _ hinfo,
      State.get_put_ne _ _ hreserve, State.get_put_ne _ _ hwarn, State.get_put_ne _ _ hlimit,
      State.get_put_same _ (TR_COUNT_VALUE r.slot) _ (Nat.le_of_ble_eq_true rfl) (Nat.zero_le _)]
    exact Nat.mod_eq_of_lt hcount
  · rw [State.get_put_other _ _ (f := TR_INFO_USE r.slot) (g := TR_INFO_STATE r.slot) (Nat.le_of_ble_eq_true rfl)
        (Nat.le_of_ble_eq_true rfl) (.inr (.inl (Nat.le_of_ble_eq_true rfl))),
      State.get_put_same _ (TR_INFO_USE r.slot) _ (Nat.le_of_ble_eq_true rfl) (Nat.le_of_ble_eq_true rfl)]
    exact Nat.mod_mod _ _
  · exact ((((((((State.Within.modCipher s _).trans (hin (TR_COUNT_VALUE r.slot) (by simp [slotRegs, TR_COUNT_VALUE]) _ _)).trans
      (hin (TR_LIMITS_VALUE r.slot) (by simp [slotRegs, TR_LIMITS_VALUE]) _ _)).trans
      (hin (TR_WARNS_VALUE r.slot) (by simp [slotRegs, TR_WARNS_VALUE]) _ _)).trans
      (hin (TR_RESERVE_VALUE r.slot) (by simp [slotRegs, TR_RESERVE_VALUE]) _ _)).trans
      (hin (TR_INFO_SIZE r.slot) (by simp [slotRegs, TR_INFO_SIZE]) _ _)).trans
      (hin (TR_INFO_PERSIST r.slot) (by simp [slotRegs, TR_INFO_PERSIST]) _ _)).trans
      (hin (TR_INFO_USE r.slot) (by simp [slotRegs, TR_INFO_USE]) _ _)).trans
      (hin (TR_INFO_STATE r.slot) (by simp [slotRegs, TR_INFO_STATE]) _ _)

theorem State.trApply_fill {s : State} {r : TrRun} (hres : r.res = 0) (h4 : r.op ≠ 4) (h5 : r.op ≠ 5) : s.trApply r = s.slotFill r := by
  unfold State.trApply
  rw [if_neg (fun h => h hres)]
  split
  · next h => exact absurd h h4
  · next h => exact absurd h h5
  · rfl

/-- Settles O41: a command's start shows what it will do, and its end what it leaves. -/
theorem tackRoomEffects : Obligations.TackRoomEffects := by
  unfold Obligations.TackRoomEffects
  intro src slot s hin k a attr limit runs empty goodAt valid
  have hclk := State.inRun_clocked hin
  have hk : k < 64 := slot.isLt
  have hexec (f : State → State) (hreach : s.mayReach src TR_CMD = true) :
      s.during s.clocked (.next (s.reachWith src TR_CMD f)) = .next (f s) := by
    rw [State.during, if_pos hclk, State.reachWith, if_pos hreach]
  refine ⟨fun hno hhost => ?closed, fun hreach hbad => ?refused, fun hreach htrust hbusy => ?taken,
    fun r hr hwork hhold => ?waits, fun r hr hslot hwork => ?ends⟩
  case closed =>
    have hstay (f : State → State) : s.during s.clocked (.next (s.reachWith src TR_CMD f)) = .next s := by
      rw [State.during, if_pos hclk, State.reachWith, if_neg (by simp [hno]), if_neg (fun h => hhost h.1)]
    exact ⟨hstay _, hstay _, hstay _, hstay _, hstay _, hstay _⟩
  case refused =>
    exact ⟨⟨_, hexec _ hreach, State.trCmd_refused 1 k hbad⟩, ⟨_, hexec _ hreach, State.trCmd_refused 2 k hbad⟩,
      ⟨_, hexec _ hreach, State.trCmd_refused 3 k hbad⟩, ⟨_, hexec _ hreach, State.trCmd_refused 4 k hbad⟩,
      ⟨_, hexec _ hreach, State.trCmd_refused 5 k hbad⟩, ⟨_, hexec _ hreach, State.trCmd_refused 6 k hbad⟩⟩
  case taken =>
    have hfree : s.trFree src := by simp [State.trFree, htrust, hbusy]
    have hruns {u : State} {r : TrRun} {op res : Nat} {l : List Nat} {work : Bool} (hu : s.Within l u)
        (hr : r.op = op ∧ r.slot = k ∧ r.res = res) : runs (u.trStart r s.tick work) op res := by
      obtain ⟨hb, htr, hw⟩ := u.trStart_shows r s.tick work
      have hall := hu.still.trans hw.still
      exact ⟨hb, hall.mem, hall.cores, _, htr, hr⟩
    have htr {u : State} {r r' : TrRun} {work : Bool} (h : (u.trStart r s.tick work).cipher.tr = some r') :
        r' = { r with wrAt := s.tick } :=
      Option.some.inj (h.symm.trans (u.trStart_shows r s.tick work).2.1)
    have hregs {u : State} {r : TrRun} {work : Bool} (hu : s.Within [TR_STAT] u) :
        s.regsKept (u.trStart r s.tick work) [TR_STAT] := (hu.trans (u.trStart_shows r s.tick work).2.2).regs
    have hself (l : List Nat) := State.Within.rfl' (but := l) s
    have hgood (n : Nat) (h : goodAt n) : a + n ≤ 0xA0000 ∧ s.allGood .sram a n := ⟨h.1, State.sram_allGood h.2⟩
    refine ⟨fun he hv hfail => ?generate, fun he => ?full, fun he hv hg => ?ecdh, fun he hq hu hv hg hlt => ?kek, ?erase,
      fun he hroom => ?exports, fun he hg => ?restore⟩
    case generate =>
      obtain ⟨key, hgen⟩ := State.trGenerate_ready (slot := k) he (State.trAttrOk_of hv.1 hv.2) hfail
      refine ⟨_, (hexec (fun t => t.trCmd src 1 k) hreach).trans (congrArg _ (State.trCmd_generate hfree)), ?_⟩
      rw [hgen]
      refine ⟨hruns (State.Within.fresh (but := []) s) ⟨rfl, rfl, rfl⟩, hregs (State.Within.fresh s), fun r h => ?_⟩
      rw [htr h]
      exact ⟨rfl, rfl, rfl, rfl⟩
    case full =>
      refine ⟨_, (hexec (fun t => t.trCmd src 1 k) hreach).trans (congrArg _ (State.trCmd_generate hfree)), ?_⟩
      rw [State.trGenerate_full (slot := k) he]
      exact hruns (hself []) ⟨rfl, rfl, rfl⟩
    case ecdh =>
      obtain ⟨hroom, hall⟩ := hgood _ hg
      refine ⟨_, (hexec (fun t => t.trCmd src 2 k) hreach).trans (congrArg _ (State.trCmd_importEcdh hfree)), ?_⟩
      rw [State.trImportEcdh_ready (slot := k) he (State.trAttrOk_of hv.1 hv.2) hroom hall]
      refine ⟨fun hnone => ?_, fun key hkey => ?_⟩
      · rw [show s.ecdhKey k (s.bytes .sram (s.get TR_ARG_VALUE) (64 + s.trWrapped)) = none from hnone]
        exact hruns (hself []) ⟨rfl, rfl, rfl⟩
      · rw [show s.ecdhKey k (s.bytes .sram (s.get TR_ARG_VALUE) (64 + s.trWrapped)) = some key from hkey]
        refine ⟨hruns (hself []) ⟨rfl, rfl, rfl⟩, fun r h => ?_⟩
        rw [htr h]
        exact ⟨rfl, rfl, rfl, rfl⟩
    case kek =>
      obtain ⟨hroom, hall⟩ := hgood _ hg
      have hq64 : s.get TR_ATTR_KEKSLOT < 64 := Nat.mod_lt _ (by decide)
      refine ⟨_, (hexec (fun t => t.trCmd src 3 k) hreach).trans (congrArg _ (State.trCmd_importKek hfree)), ?_⟩
      rw [State.trImportKek_ready (slot := k) he hq hu (State.trAttrOk_of hv.1 hv.2) hroom hall]
      obtain ⟨-, -, hused⟩ := s.slotUse_frame (s.get TR_ATTR_KEKSLOT)
      refine ⟨?_, fun hnone => ?_, fun key hkey => ?_⟩
      · obtain ⟨-, -, hw⟩ := (s.slotUse (s.get TR_ATTR_KEKSLOT)).trStart_shows (s.trGot 3 k
          (kwUnwrap (s.slotBytes (s.get TR_ATTR_KEKSLOT)) (s.bytes .sram (s.get TR_ARG_VALUE) s.trWrapped))) s.tick true
        refine (hw.get (f := TR_COUNT_VALUE (s.get TR_ATTR_KEKSLOT)) ?_).trans (State.slotUse_count hq64 hlt)
        simp only [TR_COUNT_VALUE, List.mem_singleton, TR_COUNT, TR_STAT]
        omega
      · rw [show kwUnwrap (s.slotBytes (s.get TR_ATTR_KEKSLOT)) (s.bytes .sram (s.get TR_ARG_VALUE) s.trWrapped) = none from hnone]
        exact hruns hused ⟨rfl, rfl, rfl⟩
      · rw [show kwUnwrap (s.slotBytes (s.get TR_ATTR_KEKSLOT)) (s.bytes .sram (s.get TR_ARG_VALUE) s.trWrapped) = some key from hkey]
        refine ⟨hruns hused ⟨rfl, rfl, rfl⟩, fun r h => ?_⟩
        rw [htr h]
        exact ⟨rfl, rfl, rfl, rfl⟩
    case erase =>
      refine ⟨_, (hexec (fun t => t.trCmd src 4 k) hreach).trans (congrArg _ (State.trCmd_erase hfree)), ?_⟩
      exact ⟨hruns (hself []) ⟨rfl, rfl, rfl⟩, hregs (hself _)⟩
    case exports =>
      obtain ⟨out, hexp⟩ := State.trExport_ready (slot := k) he hroom
      refine ⟨_, (hexec (fun t => t.trCmd src 5 k) hreach).trans (congrArg _ (State.trCmd_export hfree)), ?_⟩
      rw [hexp]
      refine ⟨hruns (hself []) ⟨rfl, rfl, rfl⟩, hregs (hself _), fun r h => ?_⟩
      rw [htr h]
      exact ⟨rfl, rfl⟩
    case restore =>
      obtain ⟨hroom, hall⟩ := hgood _ hg
      refine ⟨_, (hexec (fun t => t.trCmd src 6 k) hreach).trans (congrArg _ (State.trCmd_restore hfree)), ?_⟩
      rw [State.trRestore_ready (slot := k) he hroom hall]
      refine ⟨fun hnone => ?_, fun b hb => ?_⟩
      · rw [show kwUnwrap _ (s.bytes .sram (s.get TR_ARG_VALUE) 56) = none from hnone]
        exact hruns (hself []) ⟨rfl, rfl, rfl⟩
      · rw [show kwUnwrap _ (s.bytes .sram (s.get TR_ARG_VALUE) 56) = some b from hb, trRestored]
        split
        · next hslot =>
          rw [if_neg (fun h => h hslot)]
          refine ⟨hruns (hself []) ⟨rfl, rfl, rfl⟩, fun r h => ?_⟩
          rw [htr h]
          exact ⟨rfl, rfl, rfl⟩
        · next hslot =>
          exact hruns (hself []) ⟨rfl, rfl, rfl⟩
  case waits =>
    show execTrCommandDone s = _
    rw [execTrCommandDone, State.during, if_pos hin, hr]
    dsimp only
    rw [hwork, hhold]
    rfl
  case ends =>
    have hdone := exec_trCommandDone hin hr hwork
    obtain ⟨hb, hres, hflag, hcipher, hend⟩ := (s.trApply r).trEnd_shows r.res
    have hnone : ((s.trApply r).trEnd r.res).cipher.tr = none := by rw [hcipher]
    have hfar := slotRegs_far hslot
    have hkey : ((s.trApply r).trEnd r.res).slotKey r.slot = (s.trApply r).slotKey r.slot := by
      rw [State.slotKey, State.slotKey, hcipher]
    refine ⟨fun h0 => ?fails, fun h0 h4 => ?erased, fun h0 h4 h5 hcount => ?filled, fun h0 h5 hreserve hroom hne hgood => ?exported⟩
    case fails =>
      have happly : s.trApply r = s := by unfold State.trApply; rw [if_pos h0]
      rw [happly] at hend hb hres hflag hnone hdone
      exact ⟨_, hdone, ⟨hb, hres, hflag, hnone, hend.still.cores⟩, hend.regs, hend.still.mem⟩
    case erased =>
      have happly : s.trApply r = s.slotErase r.slot := by unfold State.trApply; rw [if_neg (fun h => h h0), h4] <;> rfl
      obtain ⟨hinfo, hzero, hw⟩ := s.slotErase_shows hslot
      rw [happly] at hend hb hres hflag hnone hdone hkey
      exact ⟨_, hdone, ⟨hb, hres, hflag, hnone, (hw.still.trans hend.still).cores⟩,
        (hend.regs _ (hfar _ (by simp [slotRegs]))).trans hinfo, hkey.trans hzero, (hw.still.trans hend.still).mem⟩
    case filled =>
      have happly := State.trApply_fill (s := s) h0 h4 h5
      obtain ⟨hstate, hcnt, hkey', huse, hw⟩ := s.slotFill_shows hslot hcount
      rw [happly] at hend hb hres hflag hnone hdone hkey
      exact ⟨_, hdone, ⟨hb, hres, hflag, hnone, (hw.still.trans hend.still).cores⟩, (hw.still.trans hend.still).mem,
        (hend.get (f := TR_INFO_STATE r.slot) (hfar _ (by simp [slotRegs, TR_INFO_STATE]))).trans hstate,
        (hend.get (f := TR_COUNT_VALUE r.slot) (hfar _ (by simp [slotRegs, TR_COUNT_VALUE]))).trans hcnt, hkey.trans hkey',
        (hend.get (f := TR_INFO_USE r.slot) (hfar _ (by simp [slotRegs, TR_INFO_USE]))).trans huse⟩
    case exported =>
      have happly : s.trApply r = (s.put (TR_RESERVE_VALUE r.slot) r.reserve).ramWrite .sram r.outAt r.out := by
        unfold State.trApply; rw [if_neg (fun h => h h0), h5] <;> rfl
      have hspan : Ram.sram.spans 0 r.outAt r.out.length := .inl ⟨rfl, hroom⟩
      have hall : (s.put (TR_RESERVE_VALUE r.slot) r.reserve).allGood .sram r.outAt r.out.length := State.sram_allGood hgood
      obtain ⟨hbytes, hothers, hcores, hregs⟩ := State.ramWrite_spans hspan hall
      rw [happly] at hend hb hres hflag hnone hdone
      refine ⟨_, hdone, ⟨hb, hres, hflag, hnone, fun c => ?_⟩, ?_, fun i hi => ?_, fun x hx => ?_⟩
      · rw [hend.still.cores c, hcores]
        rfl
      · rw [hend.get (f := TR_RESERVE_VALUE r.slot) (hfar _ (by simp [slotRegs, TR_RESERVE_VALUE])),
          show (State.ramWrite _ .sram r.outAt r.out).get (TR_RESERVE_VALUE r.slot) =
            (s.put (TR_RESERVE_VALUE r.slot) r.reserve).get (TR_RESERVE_VALUE r.slot) by rw [State.get, State.get, State.rg, State.rg, hregs],
          State.get_put_same s (TR_RESERVE_VALUE r.slot) _ (Nat.le_of_ble_eq_true rfl) (Nat.zero_le _)]
        exact Nat.mod_eq_of_lt hreserve
      · rw [hend.still.mem.1]
        exact hbytes i hi
      · rw [hend.still.mem.1, hothers .sram x (.inr fun i hi => by simp only [Ram.key]; omega)]
        rfl

end Sys2Proof.Machine
end

section
/-! SUPPORT. The hash engine's reads (R295, R342): an update whose range leaves shared SRAM. -/

set_option Elab.async false

namespace Sys2Proof.Machine

/-- A HASH_UPDATE of 128 bytes from the last line of shared SRAM: none of its chunks has moved yet. -/
def overrunRead : Xfer := ⟨0x9FFC0, [], 128, .hashLine, false⟩

def overrunHash : State :=
  { State.reset with
    manger := { State.reset.manger with accts := [⟨15, 5, 1, true, 5, 0⟩], free := State.reset.manger.free - 5 }
    cipher := { State.reset.cipher with hpk := some ⟨2, 0, 128, [], 0⟩ }
    dma := { State.reset.dma with blk := State.reset.dma.blk.set 4 [overrunRead] } }

theorem overrunHash_inRun : overrunHash.inRun = true := by decide +kernel

theorem overrunHash_ready : overrunHash.dma.blk[(3 : Fin 5)] = [] ∧ overrunHash.dma.blk[(4 : Fin 5)] = [overrunRead] ∧
    overrunHash.dma.credits = [] ∧ overrunHash.dmaLive = true ∧ overrunHash.dmaTouch.dmaPick = some 15 := by decide +kernel

theorem overrunHash_granted :
    (!overrunHash.dmaTouch.dmaLive || 64 ≤ overrunHash.dmaTouch.dma.credits.length || overrunHash.dmaTouch.dmaPick != some 15) = false := by
  decide +kernel

/-- The range is checked before any of its bytes moves: the stop ends the update, and no line is read. -/
theorem overrunHash_left : (((overrunHash.dmaTouch).dmaServe 15).blockChunk 15).cipher.hpk.map (·.left) = some 0 := by
  decide +kernel

/-- Refutes O43: the first chunk of an update whose range leaves shared SRAM is not read; the range's check stops the
channel, though the chunk itself lies in shared SRAM (R342). -/
theorem not_hashAndTrngEffects : ¬ Obligations.HashAndTrngEffects := by
  unfold Obligations.HashAndTrngEffects
  intro h
  obtain ⟨-, -, hread, -⟩ := h overrunHash overrunHash_inRun
  obtain ⟨h3, h4, hcred, hlive, hpick⟩ := overrunHash_ready
  obtain ⟨t, hstep, -, hleft, -⟩ := hread overrunRead h3 h4 rfl hcred (by decide) hlive hpick
    ⟨by decide, fun g _ _ => rfl⟩
  have hexec : exec (.dmaChunkRead 15) overrunHash = .next (((overrunHash.dmaTouch).dmaServe 15).blockChunk 15) := by
    show execDmaChunkRead 15 overrunHash = _
    rw [execDmaChunkRead, State.during, if_pos overrunHash_inRun]
    dsimp only
    rw [if_neg (by rw [show ((15 : Fin 16).val) = 15 from rfl, overrunHash_granted]; decide), if_neg (by decide)]
    rfl
  rw [hexec] at hstep
  injection hstep with ht
  have hkept := overrunHash_left
  rw [ht, hleft] at hkept
  exact absurd hkept (by decide)

end Sys2Proof.Machine
end

section
/-! SUPPORT. AES and CCM (R288): the lengths that the cipher engine's results turn on. -/

set_option Elab.async false

namespace Sys2Proof.Machine

theorem xorBytes_length (a b : List Byte) : (xorBytes a b).length = min a.length b.length := List.length_zipWith

theorem xorBytes_ne_nil {a b : List Byte} (ha : a ≠ []) (hb : b ≠ []) : xorBytes a b ≠ [] := by
  rw [← List.length_pos_iff] at ha hb ⊢
  rw [xorBytes_length]
  exact Nat.lt_min.mpr ⟨ha, hb⟩

/-- No chunk is empty. -/
theorem chunks_ne_nil {n : Nat} (hn : 0 < n) (fuel : Nat) (l : List Byte) : ∀ c ∈ chunks n fuel l, c ≠ [] := by
  induction fuel generalizing l with
  | zero => intro c hc; cases hc
  | succ fuel ih =>
    intro c hc
    rw [chunks] at hc
    split at hc
    · cases hc
    · next hl =>
      rcases List.mem_cons.mp hc with rfl | hc
      · rw [Ne, List.take_eq_nil_iff]
        exact not_or.mpr ⟨Nat.ne_of_gt hn, fun h => hl (by rw [h]; rfl)⟩
      · exact ih _ c hc

/-- The chunks of four bytes of a list of `4 * k` bytes. -/
theorem chunks_words (k : Nat) (l : List Byte) (hl : l.length = 4 * k) :
    (chunks 4 k l).length = k ∧ ∀ w ∈ chunks 4 k l, w.length = 4 := by
  induction k generalizing l with
  | zero => exact ⟨rfl, fun w hw => by cases hw⟩
  | succ k ih =>
    have hne : l.isEmpty = false := by
      cases l with
      | nil => simp at hl
      | cons _ _ => rfl
    obtain ⟨hlen, hall⟩ := ih (l.drop 4) (by rw [List.length_drop]; omega)
    rw [chunks, hne, if_neg Bool.false_ne_true]
    refine ⟨congrArg Nat.succ hlen, fun w hw => ?_⟩
    rcases List.mem_cons.mp hw with rfl | hw
    · rw [List.length_take]; omega
    · exact hall w hw

/-- The schedule has one word for each word of the key and of the fuel, each of four bytes. -/
theorem aesExpand_words {nk : Nat} (hnk : 0 < nk) (fuel i rc : Nat) (w : List (List Byte)) (hlen : nk ≤ w.length)
    (hw : ∀ x ∈ w, x.length = 4) :
    (aesExpand nk fuel i rc w).length = w.length + fuel ∧ ∀ x ∈ aesExpand nk fuel i rc w, x.length = 4 := by
  induction fuel generalizing i rc w with
  | zero => exact ⟨List.length_reverse, fun x hx => hw x (List.mem_reverse.mp hx)⟩
  | succ fuel ih =>
    have hget (k : Nat) (hk : k < w.length) : ((w[k]?).getD []).length = 4 := by
      rw [List.getElem?_eq_getElem hk]
      exact hw _ (List.getElem_mem hk)
    have hstep (t : List Byte) (rc' : Nat) (ht : t.length = 4) :
        (aesExpand nk fuel (i + 1) rc' (xorBytes ((w[nk - 1]?).getD []) t :: w)).length = w.length + (fuel + 1) ∧
          ∀ x ∈ aesExpand nk fuel (i + 1) rc' (xorBytes ((w[nk - 1]?).getD []) t :: w), x.length = 4 := by
      obtain ⟨hl, hall⟩ := ih (i + 1) rc' (xorBytes ((w[nk - 1]?).getD []) t :: w)
        (Nat.le_succ_of_le hlen) (fun x hx => by
          rcases List.mem_cons.mp hx with rfl | hx
          · rw [xorBytes_length, hget _ (by omega), ht]; rfl
          · exact hw x hx)
      exact ⟨by rw [hl, List.length_cons]; omega, hall⟩
    have h0 := hget 0 (by omega)
    rw [aesExpand]
    dsimp only
    split
    · exact hstep _ _ (by
        rw [xorBytes_length, List.length_map, List.length_append, List.length_drop, List.length_take, h0]
        rfl)
    · split
      · exact hstep _ _ (by rw [List.length_map, h0])
      · exact hstep _ _ h0

theorem flatten_words (l : List (List Byte)) (h : ∀ x ∈ l, x.length = 4) : l.flatten.length = 4 * l.length := by
  induction l with
  | nil => rfl
  | cons x r ih =>
    rw [List.flatten_cons, List.length_append, h x List.mem_cons_self, ih (fun y hy => h y (List.mem_cons_of_mem _ hy)),
      List.length_cons]
    omega

/-- A key of 16 or 32 bytes has a last round key behind its first. -/
theorem aesKeys_last {key : List Byte} (h : key.length = 16 ∨ key.length = 32) :
    ∃ k0 ks, aesKeys key = k0 :: ks ∧ ks.getLastD [] ≠ [] := by
  obtain ⟨nk, hnk, hkey⟩ : ∃ nk, 4 ≤ nk ∧ key.length = 4 * nk := by
    rcases h with h | h
    · exact ⟨4, by decide, h⟩
    · exact ⟨8, by decide, h⟩
  have hdiv : key.length / 4 = nk := by omega
  obtain ⟨hclen, hcall⟩ := chunks_words nk key hkey
  obtain ⟨hlen, hall⟩ := aesExpand_words (nk := nk) (by omega) (4 * (nk + 7) - nk) nk 1 (chunks 4 nk key).reverse
    (by rw [List.length_reverse, hclen]) (fun x hx => hcall x (List.mem_reverse.mp hx))
  have hflat := flatten_words _ hall
  rw [hlen, List.length_reverse, hclen] at hflat
  have hkeys : aesKeys key = chunks 16 (nk + 7) (aesExpand nk (4 * (nk + 7) - nk) nk 1 (chunks 4 nk key).reverse).flatten := by
    rw [aesKeys, hdiv]
  generalize (aesExpand nk (4 * (nk + 7) - nk) nk 1 (chunks 4 nk key).reverse).flatten = l at hflat hkeys
  have hfirst : l.isEmpty = false := List.isEmpty_eq_false_iff.mpr (fun h => by rw [h, List.length_nil] at hflat; omega)
  have hsecond : (l.drop 16).isEmpty = false := List.isEmpty_eq_false_iff.mpr (fun h => by
    have := congrArg List.length h
    rw [List.length_drop, List.length_nil] at this
    omega)
  have hne := chunks_ne_nil (n := 16) (by decide) (nk + 7) l
  rw [chunks, hfirst, if_neg Bool.false_ne_true, chunks, hsecond, if_neg Bool.false_ne_true] at hkeys hne
  refine ⟨_, _, hkeys, fun hlast => ?_⟩
  rw [List.getLastD_cons] at hlast
  generalize hrest : chunks 16 (nk + 5) ((l.drop 16).drop 16) = r at hne hlast
  cases r with
  | nil => exact hne _ (by simp) hlast
  | cons c r =>
    rw [List.getLastD_cons] at hlast
    refine hne ((c :: r).getLastD []) ?_ (by rw [List.getLastD_cons]; exact hlast)
    rw [List.getLastD_eq_getLast?, List.getLast?_eq_getLast_of_ne_nil (List.cons_ne_nil c r)]
    exact List.mem_cons_of_mem _ (List.mem_cons_of_mem _ (List.getLast_mem _))

/-- A block encrypted under a key of 16 or 32 bytes is not empty. -/
theorem aesEnc_ne_nil {key : List Byte} (h : key.length = 16 ∨ key.length = 32) (blk : List Byte) : aesEnc key blk ≠ [] := by
  obtain ⟨k0, ks, hkeys, hlast⟩ := aesKeys_last h
  rw [aesEnc, hkeys]
  exact xorBytes_ne_nil (by rw [aesShift]; simp) hlast

theorem ccmXor_ne_nil {key : List Byte} (h : key.length = 16 ∨ key.length = 32) (nonce : List Byte) {l : List Byte} (hl : l ≠ []) :
    ccmXor key nonce l ≠ [] := by
  cases l with
  | nil => exact absurd rfl hl
  | cons x r =>
    rw [ccmXor, ctrXor, blocks16, List.length_cons, chunks, List.isEmpty_cons, if_neg Bool.false_ne_true, List.zipIdx_cons,
      List.flatMap_cons]
    exact fun hnil => xorBytes_ne_nil (by simp) (aesEnc_ne_nil h _) (List.append_eq_nil_iff.mp hnil).1

theorem cbcMac_ne_nil {key : List Byte} (h : key.length = 16 ∨ key.length = 32) (l : List Byte) : cbcMac key l ≠ [] := by
  have hfold (bs : List (List Byte)) (t : List Byte) (ht : t ≠ []) :
      bs.foldl (fun t b => aesEnc key (xorBytes t b)) t ≠ [] := by
    induction bs generalizing t with
    | nil => exact ht
    | cons b bs ih => exact ih _ (aesEnc_ne_nil h _)
  exact hfold _ _ (by decide)

theorem ccmTag_ne_nil {key : List Byte} (h : key.length = 16 ∨ key.length = 32) (nonce aad plain : List Byte) {m : Nat} (hm : m ≠ 0) :
    ccmTag key nonce aad plain m ≠ [] := by
  rw [ccmTag]
  rw [Ne, List.take_eq_nil_iff]
  exact not_or.mpr ⟨hm, xorBytes_ne_nil (cbcMac_ne_nil h _) (aesEnc_ne_nil h _)⟩

theorem toBytesBE_length (n v : Nat) : (toBytesBE n v).length = n := by
  have hle (n : Nat) : ∀ v, (toBytesLE n v).length = n := by
    induction n with
    | zero => exact fun _ => rfl
    | succ n ih => exact fun v => congrArg Nat.succ (ih _)
  rw [toBytesBE, List.length_reverse, hle]

/-- A slot's key has 16 or 32 bytes. -/
theorem State.slotBytes_length (s : State) (k : Nat) : (s.slotBytes k).length = 16 ∨ (s.slotBytes k).length = 32 := by
  rw [State.slotBytes, keyBytes, List.length_take, toBytesBE_length]
  split
  · exact .inr rfl
  · exact .inl rfl

end Sys2Proof.Machine
end

section
/-! SUPPORT. The cipher engine (R287-R293): what a block transfer adds to its queue, what an acceptance and a refusal
leave, and what a request sends. -/

set_option Elab.async false

namespace Sys2Proof.Machine

theorem State.bytes_congr {s t : State} {r : Ram} (h : ∀ a, t.byte r a = s.byte r a) (n a : Nat) :
    t.bytes r a n = s.bytes r a n := by
  induction n generalizing a with
  | zero => rfl
  | succ n ih => exact congrArg₂ List.cons (h a) (ih (a + 1))

/-! ## Block transfers (R336) -/

/-- `t` is `s` with the transfers `l` behind the others of queue `q`, but for the manger and other parts of the DMA. -/
structure State.Sends (q : Fin 5) (l : List Xfer) (s t : State) : Prop where
  queue  : t.dma.blk[q] = s.dma.blk[q] ++ l
  cipher : t.cipher = s.cipher
  regs   : t.regs = s.regs
  mem    : s.memKept t
  cores  : t.cores = s.cores

namespace State.Sends

variable {q : Fin 5} {l m : List Xfer} {s t u : State}

theorem nil (s : State) : State.Sends q [] s s := ⟨(List.append_nil _).symm, rfl, rfl, State.memKept_of_tables rfl rfl rfl rfl, rfl⟩

theorem trans (h : State.Sends q l s t) (g : State.Sends q m t u) : State.Sends q (l ++ m) s u :=
  ⟨by rw [g.queue, h.queue, List.append_assoc], g.cipher.trans h.cipher, g.regs.trans h.regs, h.mem.trans g.mem,
    g.cores.trans h.cores⟩

theorem still (h : State.Sends q l s t) : s.Still t := ⟨h.mem, fun c => by rw [State.core, State.core, h.cores]⟩

theorem rg (h : State.Sends q l s t) (a : Nat) : t.rg a = s.rg a := by rw [State.rg, State.rg, h.regs]

theorem test (h : State.Sends q l s t) (f : Field) : t.test f = s.test f := State.test_of_rg (h.rg _)

end State.Sends

theorem State.dmaPush_sends (s : State) (q : Fin 5) (x : Xfer) : State.Sends q [x] s (s.dmaPush q x) := by
  rw [State.dmaPush]
  generalize ht : { s with dma := { s.dma with blk := s.dma.blk.set q (s.dma.blk[q] ++ [x]) } } = t
  have h := t.mangerOnly_ask 0 [15]
  have hbase : State.Sends q [x] s t := by
    subst ht
    exact ⟨Vector.getElem_set_self _, rfl, rfl, State.memKept_of_tables rfl rfl rfl rfl, rfl⟩
  refine ⟨?_, ?_, h.regs.trans hbase.regs, hbase.mem.trans h.memKept, h.cores.trans hbase.cores⟩
  · rw [show (t.ask 0 [15]).dma = t.dma by rw [h]]
    exact hbase.queue
  · rw [h.cipher]
    exact hbase.cipher

theorem State.dmaWrite_sends (s : State) (q : Fin 5) (a : Nat) (l : List Byte) (tag : XferTag) :
    State.Sends q [⟨a, l, 0, tag, false⟩] s (s.dmaWrite q a l tag) := s.dmaPush_sends q _

/-- Reads of operands, those of no bytes left out. -/
theorem State.dmaReads_sends (q : Fin 5) (tag : XferTag) (ops : List (Nat × Nat)) (s : State) :
    State.Sends q ((ops.filter (fun o => o.2 != 0)).map (fun o => (⟨o.1, [], o.2, tag, false⟩ : Xfer))) s
      (ops.foldl (fun t o => t.dmaRead q o.1 o.2 tag) s) := by
  induction ops generalizing s with
  | nil => exact State.Sends.nil s
  | cons o r ih =>
    rw [List.foldl_cons]
    by_cases ho : o.2 = 0
    · rw [show s.dmaRead q o.1 o.2 tag = s by rw [State.dmaRead, if_pos ho],
        List.filter_cons_of_neg (by rw [bne_iff_ne]; exact fun h => h ho)]
      exact ih s
    · rw [show s.dmaRead q o.1 o.2 tag = s.dmaPush q ⟨o.1, [], o.2, tag, false⟩ by rw [State.dmaRead, if_neg ho],
        List.filter_cons_of_pos (p := fun o : Nat × Nat => o.2 != 0) (bne_iff_ne.mpr ho), List.map_cons]
      exact (s.dmaPush_sends q _).trans (ih _)

/-! ## The queue's own registers (R43) -/

theorem State.cqCheck_shows {s : State} (h : s.cipher.queue.length + (if s.cipher.running.isSome then 1 else 0) ≤ 16) :
    s.cqCheck.cipher = s.cipher ∧ s.cqCheck.cores = s.cores ∧ s.cqCheck.dma = s.dma ∧ s.Within [CONS_CQ] s.cqCheck := by
  rw [State.cqCheck]
  rw [if_pos h]
  exact ⟨rfl, rfl, rfl, (State.Within.put s (f := CONS_CQ_HELD_SUM) _ (by decide)).trans
    (State.Within.put _ (f := CONS_CQ_FREE) _ (by decide))⟩

/-- The charge that work asks for. -/
theorem State.cphWork_charged (s : State) : s.cphWork.holds 14 = true ∨ s.cphWork.asked 14 = true := by
  rw [State.cphWork]
  split
  · next h =>
    obtain ⟨-, hfree, -⟩ := h
    have hno : (s.modCipher (fun c => { c with workAt := s.tick })).holds 14 = false := by
      rw [State.modCipher_holds]
      simpa using hfree
    rw [State.charge_one hno]
    exact .inl (congrArg Option.isSome (find_acctInsert_same _ (State.newAcct _ 14)))
  · exact State.ask_one _ 0 14

/-! ## Acceptance (R287, R289, R290) -/

section Accept

variable {s : State}

theorem State.slotUse_cipher (s : State) (q : Nat) : (s.slotUse q).cipher = s.cipher := by
  have hraise (f : Field) {p : Prop} [Decidable p] (t : State) : (if p then t.raise f else t).cipher = t.cipher := by
    split
    · exact State.raise_cipher _ _
    · rfl
  have hspent {p : Prop} [Decidable p] (t : State) : (if p then t.put (TR_INFO_STATE q) 2 else t).cipher = t.cipher := by
    split <;> rfl
  unfold State.slotUse
  dsimp only
  rw [hraise, hspent, hraise]
  rfl

/-- An ERASE of the request's slot written in the tick of its acceptance is refused. -/
def TrRun.afterAccept (x : TrRun) (r : CphReq) (now : Nat) : TrRun :=
  if x.op = 4 ∧ x.slot = r.slot ∧ x.wrAt = now then { x with res := 3 } else x

/-- A request accepted. -/
theorem State.cphAccept_shows {r : CphReq} (hslot : r.slot < 64) (hlt : s.get (TR_COUNT_VALUE r.slot) + 1 < 2 ^ 20)
    (hfree : s.cipher.queue.length + (if s.cipher.running.isSome then 1 else 0) < 16) : let t := s.cphAccept r
    t.cipher.queue = s.cipher.queue ++ [r] ∧ t.cipher.waits = s.cipher.waits ∧
      t.get (TR_COUNT_VALUE r.slot) = s.get (TR_COUNT_VALUE r.slot) + 1 ∧ (t.holds 14 = true ∨ t.asked 14 = true) ∧ s.Still t ∧
      t.cipher.tr = s.cipher.tr.map (fun x => x.afterAccept r s.tick) := by
  let f : Cipher → Cipher := fun c => { c with queue := c.queue ++ [r], tr := c.tr.map (fun x => x.afterAccept r s.tick) }
  have hcipher : ((s.slotUse r.slot).modCipher f).cipher = f s.cipher := congrArg f (s.slotUse_cipher r.slot)
  obtain ⟨-, -, hused⟩ := s.slotUse_frame r.slot
  obtain ⟨hcq, -, -, hchecked⟩ := State.cqCheck_shows (s := (s.slotUse r.slot).modCipher f) (by
    rw [hcipher]
    show (s.cipher.queue ++ [r]).length + _ ≤ 16
    rw [List.length_append]
    show s.cipher.queue.length + 1 + (if s.cipher.running.isSome then 1 else 0) ≤ 16
    omega)
  obtain ⟨hwork, hworked⟩ := ((s.slotUse r.slot).modCipher f).cqCheck.cphWork_shows
  have hend : s.cphAccept r = ((s.slotUse r.slot).modCipher f).cqCheck.cphWork := rfl
  dsimp only
  rw [hend]
  refine ⟨by rw [hwork, hcq, hcipher], by rw [hwork, hcq, hcipher], ?_, State.cphWork_charged _,
    hused.still.trans ((State.Within.modCipher (but := []) _ f).still.trans (hchecked.still.trans (hworked []).still)),
    by rw [hwork, hcq, hcipher]⟩
  rw [(hworked []).get (by simp), hchecked.get (by simp only [TR_COUNT_VALUE, List.mem_singleton, TR_COUNT, CONS_CQ]; omega)]
  exact State.slotUse_count hslot hlt

/-- The counters and flags of a refusal. -/
theorem State.cphCount_frame (s : State) (c : Nat) : (s.cphCount c).cipher = s.cipher ∧ (s.cphCount c).memChk = s.memChk ∧
    s.Still (s.cphCount c) := by
  unfold State.cphCount
  split
  · exact ⟨State.raise_cipher _ _, State.raise_memChk _ _, (State.Still.put s _ _).trans (State.Still.raise _ _)⟩
  · exact ⟨State.raise_cipher _ _, State.raise_memChk _ _, (State.Still.put s _ _).trans (State.Still.raise _ _)⟩
  · exact ⟨rfl, rfl, State.Still.put s _ _⟩

/-- A write that meets no error touches the RAMs and their check states alone. -/
theorem State.ramWrite_eq (s : State) (r : Ram) (a : Nat) (l : List Byte) (h : s.allGood r a l.length) :
    ∃ m p k, s.ramWrite r a l = { s with sram := m, pram := p, memChk := k } := by
  obtain ⟨k, hw, -, -⟩ := s.ramWrite_good r a l h
  obtain ⟨m, p, hset⟩ := State.setBytes_eq l { s with memChk := k } r a
  exact ⟨m, p, k, hw.trans hset⟩

/-- A refused record of a program, the keeper or the host: its STATUS stands in its first word. -/
theorem State.cphRefuse_shows {src a c : Nat} (hsrc : src ≠ 0) (hupd : a ≠ updReqAt) (hroom : a + 24 ≤ 0xA0000)
    (hgood : ∀ g, a / 4 ≤ g → g ≤ (a + 23) / 4 → s.chk g = .good) : let t := s.cphRefuse src a c
    t.cipher = s.cipher ∧ t.bytes .sram a 3 = tripleOf (BitVec.ofNat 20 (2 ^ 19 + c * 2 ^ 8)) ∧
      (∀ x, x < a ∨ a + 3 ≤ x → t.byte .sram x = s.byte .sram x) ∧ s.coresKept t := by
  obtain ⟨hcipher, hchk, hstill⟩ := s.cphCount_frame c
  have hlen : (cphDone c).length = 3 := rfl
  have hall : (s.cphCount c).allGood .sram a (cphDone c).length := State.sram_allGood fun g hlo hhi => by
    rw [State.chk, hchk]
    exact hgood g hlo (by rw [hlen] at hhi; omega)
  have hspan : Ram.sram.spans 0 a (cphDone c).length := .inl ⟨rfl, by rw [hlen]; omega⟩
  obtain ⟨hbytes, hothers, hcores, -⟩ := State.ramWrite_spans hspan hall
  obtain ⟨m, p, k, heq⟩ := State.ramWrite_eq _ _ _ _ hall
  have hend : s.cphRefuse src a c = (s.cphCount c).ramWrite .sram a (cphDone c) := by
    rw [State.cphRefuse, if_neg hsrc, if_neg hupd, inSram_of_le (show a + 3 ≤ 0xA0000 by omega), if_pos rfl]
  dsimp only
  rw [hend]
  refine ⟨by rw [heq]; exact hcipher, ?_, fun x hx => ?_, fun d => ?_⟩
  · have h0 := hbytes 0 (by rw [hlen]; decide)
    have h1 := hbytes 1 (by rw [hlen]; decide)
    have h2 := hbytes 2 (by rw [hlen]; decide)
    show [_, _, _] = cphDone c
    rw [show State.byte _ .sram a = _ from h0, h1, show a + 1 + 1 = a + 2 from rfl, h2]
    rfl
  · rw [hothers .sram x (.inr fun i hi => by rw [hlen] at hi; simp only [Ram.key]; omega), hstill.mem.1]
  · rw [hcores, hstill.cores]

/-- The judgement of a record read as the request `r` (R289). -/
def State.cphJudge (s : State) (r : CphReq) : Option Nat :=
  match r.refuse with
  | some c => some c
  | none => s.slotRefuse r.slot (usePermits (s.get (TR_INFO_USE r.slot)) r.op)

/-- What a judged record leads to. -/
def State.cphTaken (s : State) (src a : Nat) (r : CphReq) : State :=
  match s.cphJudge r with
  | some c => s.cphRefuse src a c
  | none => s.cphAccept r

theorem State.cphRecord_judged {w : CphWait} (hroom : w.addr + 24 ≤ 0xA0000) (hgood : s.allGood .sram w.addr 24) :
    s.cphRecord w = s.cphTaken w.src w.addr (CphReq.ofBytes w.src w.addr (s.bytes .sram w.addr 24)) := by
  rw [State.cphRecord, inSram_of_le hroom, if_neg (by decide), State.ramRead_good _ _ _ _ hgood]
  dsimp only
  generalize CphReq.ofBytes w.src w.addr (s.bytes .sram w.addr 24) = r
  cases hr : r.refuse with
  | some c => simp only [State.cphTaken, State.cphJudge, hr]
  | none =>
    cases hs : s.slotRefuse r.slot (usePermits (s.get (TR_INFO_USE r.slot)) r.op) with
    | some c => simp only [State.cphTaken, State.cphJudge, hr, hs]
    | none => simp only [State.cphTaken, State.cphJudge, hr, hs]

/-- The lone submission goes next. -/
theorem State.cphNext_alone {w : CphWait} (h : s.cipher.waits = [w]) : s.cphNext = some w := by
  rw [State.cphNext, h]
  cases hu : s.cphUrgent w
  · rw [List.filter_cons_of_neg (by rw [hu]; decide)]
    rfl
  · rw [List.filter_cons_of_pos hu]
    rfl

end Accept

/-! ## A request's run (R288, R291) -/

section Request

variable {s : State} {r : CphReq}

/-- The operands of a record's request. -/
theorem State.operands_record (hsrc : r.src ≠ 0) (hupd : r.recAt ≠ updReqAt) : s.operands r =
    [(r.nonce, cphNonce r.op), (r.aad, if r.op ≤ 4 then r.aadN else 0), (r.srcAt, r.len),
      (r.tagAt, if r.holds then cphTag r.op (4 * 2 ^ r.tagN) else 0)] := by
  rw [State.operands, if_neg hsrc, if_neg hupd]

/-- The state in which a request whose operands are read gives its result. -/
def State.cphFinished (s : State) : State := (s.modCipher (fun c => { c with running := none, got := [] })).cqCheck

theorem State.cphFinished_shows (h : s.cipher.queue.length ≤ 16) : s.cphFinished.cipher = { s.cipher with running := none, got := [] } ∧
    s.cphFinished.cores = s.cores ∧ s.cphFinished.dma = s.dma ∧ s.Within [CONS_CQ] s.cphFinished := by
  obtain ⟨hcipher, hcores, hdma, hw⟩ := State.cqCheck_shows (s := s.modCipher (fun c => { c with running := none, got := [] })) h
  exact ⟨hcipher, hcores, hdma, (State.Within.modCipher s _).trans hw⟩

/-- Four operands in one list, cut by their lengths. -/
theorem exec_cipherRequestDone {h : Option Nat} {b0 b1 b2 b3 : List Byte} (hin : s.inRun = true)
    (hrun : s.cipher.running = some (r, h)) (hsrc : r.src ≠ 0) (hupd : r.recAt ≠ updReqAt)
    (hlen : (s.operands r).map (·.2) = [b0.length, b1.length, b2.length, b3.length])
    (hgot : s.cipher.got = b0 ++ b1 ++ b2 ++ b3) :
    exec .cipherRequestDone s = .next (s.cphFinished.cphResult r (h.getD 2) b0 b1 b2 b3) := by
  show execCipherRequestDone s = _
  rw [execCipherRequestDone, State.during, if_pos hin, hrun]
  dsimp only
  rw [hlen, hgot, if_neg (by simp), if_neg hsrc, if_neg hupd]
  have hcut : ∀ k, ((b0 ++ b1 ++ b2 ++ b3).drop (([b0.length, b1.length, b2.length, b3.length].take k).sum)).take
      (([b0.length, b1.length, b2.length, b3.length][k]?).getD 0) = ([b0, b1, b2, b3][k]?).getD [] := by
    intro k
    match k with
    | 0 => simp
    | 1 => simp
    | 2 =>
      show List.take b2.length (List.drop (b0.length + (b1.length + 0)) _) = b2
      rw [Nat.add_zero, ← List.length_append, List.append_assoc (b0 ++ b1), List.drop_left, List.take_left]
    | 3 => simp [← List.append_assoc, ← List.length_append, Nat.add_assoc]
    | k + 4 => simp
  rw [hcut 0, hcut 1, hcut 2, hcut 3]
  rfl

theorem State.cphOut_sends {half a : Nat} {l : List Byte} (hl : l ≠ []) :
    ∃ x : Xfer, (x.addr, x.data) = (a, l) ∧ State.Sends 1 [x] s (s.cphOut r half a l) := by
  rw [State.cphOut, List.isEmpty_eq_false_iff.mpr hl, if_neg Bool.false_ne_true]
  exact ⟨_, rfl, s.dmaWrite_sends 1 a l _⟩

theorem State.cphEnd_sends (s : State) (r : CphReq) (status : Nat) :
    ∃ x : Xfer, (x.addr, x.data) = (r.recAt, cphDone status) ∧ State.Sends 1 [x] s (s.cphEnd r status) :=
  ⟨_, rfl, s.dmaWrite_sends 1 r.recAt (cphDone status) _⟩

/-- A CCM encryption sends its ciphertext, its tag, and then its record's first word. -/
theorem State.cphResult_enc (hop : r.op = 1) (half : Nat) (nonce aad data tag : List Byte) (hdata : data ≠ []) :
    let key := s.slotBytes r.slot
    ∃ l, State.Sends 1 l s (s.cphResult r half nonce aad data tag) ∧ l.map (fun x => (x.addr, x.data)) =
      [(r.dst, ccmXor key nonce data), (r.tagAt, ccmTag key nonce aad data (4 * 2 ^ r.tagN)), (r.recAt, cphDone 0)] := by
  have hkey := s.slotBytes_length r.slot
  obtain ⟨x, hx, hsx⟩ := State.cphOut_sends (s := s) (r := r) (half := 2) (a := r.dst) (ccmXor_ne_nil hkey nonce hdata)
  obtain ⟨y, hy, hsy⟩ := State.cphOut_sends (s := s.cphOut r 2 r.dst (ccmXor (s.slotBytes r.slot) nonce data)) (r := r)
    (half := 2) (a := r.tagAt) (ccmTag_ne_nil hkey nonce aad data (m := 4 * 2 ^ r.tagN)
      (Nat.mul_ne_zero (by decide) (Nat.pos_iff_ne_zero.mp (Nat.two_pow_pos _))))
  obtain ⟨z, hz, hsz⟩ := State.cphEnd_sends ((s.cphOut r 2 r.dst (ccmXor (s.slotBytes r.slot) nonce data)).cphOut r 2 r.tagAt
    (ccmTag (s.slotBytes r.slot) nonce aad data (4 * 2 ^ r.tagN))) r 0
  have hend : s.cphResult r half nonce aad data tag = ((s.cphOut r 2 r.dst (ccmXor (s.slotBytes r.slot) nonce data)).cphOut r 2
      r.tagAt (ccmTag (s.slotBytes r.slot) nonce aad data (4 * 2 ^ r.tagN))).cphEnd r 0 := by
    rw [State.cphResult, hop] <;> rfl
  dsimp only
  rw [hend]
  exact ⟨_, (hsx.trans hsy).trans hsz, by simp [hx, hy, hz]⟩

/-- A CCM decryption whose tag holds sends its plaintext and its record's first word; its half stays. -/
theorem State.cphResult_dec (hop : r.op = 2) (half : Nat) (nonce aad data tag : List Byte) (hdata : data ≠ [])
    (htag : ccmTag (s.slotBytes r.slot) nonce aad (ccmXor (s.slotBytes r.slot) nonce data) (4 * 2 ^ r.tagN) = tag) :
    ∃ l, State.Sends 1 l s (s.cphResult r half nonce aad data tag) ∧ l.map (fun x => (x.addr, x.data)) =
      [(r.dst, ccmXor (s.slotBytes r.slot) nonce data), (r.recAt, cphDone 0)] := by
  have hkey := s.slotBytes_length r.slot
  obtain ⟨x, hx, hsx⟩ := State.cphOut_sends (s := s) (r := r) (half := half) (a := r.dst) (ccmXor_ne_nil hkey nonce hdata)
  obtain ⟨z, hz, hsz⟩ := State.cphEnd_sends (s.cphOut r half r.dst (ccmXor (s.slotBytes r.slot) nonce data)) r 0
  have hend : s.cphResult r half nonce aad data tag = (s.cphOut r half r.dst (ccmXor (s.slotBytes r.slot) nonce data)).cphEnd r 0 := by
    rw [State.cphResult, hop]
    exact if_pos htag
  rw [hend]
  exact ⟨_, hsx.trans hsz, by simp [hx, hz]⟩

/-- The state of a decryption whose tag differs, before its record's word. -/
def State.cphFailed (s : State) : State := ((s.halfFree 0).bump CPH_CNT0_AUTH_FAIL).raise CPH_FLAGS_AUTH_FAIL

theorem State.cphResult_bad (hop : r.op = 2) (nonce aad data tag : List Byte)
    (htag : ccmTag (s.slotBytes r.slot) nonce aad (ccmXor (s.slotBytes r.slot) nonce data) (4 * 2 ^ r.tagN) ≠ tag) :
    s.cphResult r 0 nonce aad data tag = s.cphFailed.cphEnd r 0x20 := by
  rw [State.cphResult, hop]
  exact if_neg htag

theorem State.cphFailed_shows (s : State) : s.cphFailed.cipher = { s.cipher with half0 := none } ∧
    s.cphFailed.test CPH_FLAGS_AUTH_FAIL = true ∧ s.cphFailed.dma = s.dma ∧ s.Still s.cphFailed :=
  ⟨State.raise_cipher _ _, State.raise_self _ _ (by decide) (by decide), State.raise_dma _ _,
    ((⟨State.memKept_of_tables rfl rfl rfl rfl, fun _ => rfl⟩ : s.Still (s.halfFree 0)).trans (State.Still.put _ _ _)).trans
      (State.Still.raise _ _)⟩

end Request

/-- Settles O42: a submission, its acceptance or refusal, the start of a request and what it sends at its end. -/
theorem cipherEngineEffects : Obligations.CipherEngineEffects := by
  unfold Obligations.CipherEngineEffects
  intro s hin
  have hclk := State.inRun_clocked hin
  have hphase : s.power.phase = .run ∧ s.stopped = false := by
    rw [State.inRun, Bool.and_eq_true, Bool.not_eq_true', beq_iff_eq] at hin
    exact ⟨hin.2, hin.1⟩
  refine ⟨fun a hno => ?hostRefused, fun src a h0 h6 => ⟨fun hfree => ?submitted, fun hbusy => ?again⟩,
    fun w hwaits hsrc hupd hfree hroom hgood => ?accept, fun r rest hqueue hupd hrun hhold => ?start,
    fun r h hrun hgot => ?early, fun r nonce aad data tag hsrc hupd hq hnonce haad hdata hlen => ?done, fun hquiet hwork => ?idle⟩
  case hostRefused =>
    obtain ⟨herr, hcause, hstill⟩ := s.hitchErr_shows 1 (by decide)
    have hw : s.Within [HSP_FLAGS] (s.hitchErr 1) := (State.Within.put s (f := HSP_FLAGS_CAUSE) 1 (by decide)).trans
      (State.Within.put _ (f := HSP_FLAGS_ERR) 1 (by decide))
    refine ⟨s.hitchErr 1, ?_, rfl, herr, hcause, hw.regs, hstill.mem, rfl⟩
    show execCphSubmit 6 a s = _
    rw [execCphSubmit, State.during, if_pos hclk, if_pos (show ((6 : Fin 7) : Nat) = 6 from rfl), State.reachWith, hno, if_neg Bool.false_ne_true,
      if_pos ⟨rfl, State.awake_of_run hphase.1⟩]
    rfl
  case submitted =>
    have hsub : s.cphSubmit src.val a = { s with cipher := { s.cipher with waits := s.cipher.waits ++ [⟨src.val, a.toNat, s.tick⟩] } } := by
      rw [State.cphSubmit, if_neg (by have := src.isLt; have := Fin.val_ne_iff.mpr h0; simp at this; omega), if_neg]
      · rfl
      · rw [Bool.not_eq_true, List.any_eq_false]
        exact fun w hw => by simpa using hfree w hw
    show execCphSubmit src a s = _
    rw [execCphSubmit, State.during, if_pos hclk]
    split
    · next h => rw [State.reachWith_may (h6 (Fin.ext h)), ← h, hsub]
    · rw [hsub]
  case again =>
    have hsub : s.cphSubmit src.val a = s.raise CPH_FLAGS_SUBMIT_REFUSED := by
      rw [State.cphSubmit, if_neg (by have := src.isLt; have := Fin.val_ne_iff.mpr h0; simp at this; omega), if_pos]
      obtain ⟨w, hw, hsame⟩ := hbusy
      exact List.any_eq_true.mpr ⟨w, hw, beq_iff_eq.mpr hsame⟩
    have hw := State.Within.raise (but := [CPH_FLAGS]) s (f := CPH_FLAGS_SUBMIT_REFUSED) (by decide)
    refine ⟨_, ?_, State.raise_cipher CPH_FLAGS_SUBMIT_REFUSED s, State.raise_self _ _ (by decide) (by decide), hw.regs, hw.still.mem,
      hw.still.cores⟩
    show execCphSubmit src a s = _
    rw [execCphSubmit, State.during, if_pos hclk]
    split
    · next h => rw [State.reachWith_may (h6 (Fin.ext h)), ← h, hsub]
    · rw [hsub]
  case accept =>
    let t := s.modCipher (fun c => { c with waits := c.waits.filter (· != w) })
    have hnone : t.cipher.waits = [] := by
      show s.cipher.waits.filter (· != w) = []
      rw [hwaits]
      simp
    have hbytes : t.bytes .sram w.addr 24 = s.bytes .sram w.addr 24 := State.bytes_congr (fun _ => rfl) 24 w.addr
    have hexec : exec .cipherAccept s = .next (t.cphTaken w.src w.addr (CphReq.ofBytes w.src w.addr (s.bytes .sram w.addr 24))) := by
      show execCipherAccept s = _
      rw [execCipherAccept, State.during, if_pos hin, hfree, if_neg (by decide), State.cphNext_alone hwaits]
      dsimp only
      rw [if_neg hsrc, if_neg hupd, State.cphRecord_judged (s := t) hroom (State.sram_allGood hgood), hbytes]
    intro r judged
    have hjudge : t.cphJudge r = judged := by
      show State.cphJudge t r = _
      rw [State.cphJudge]
      cases hr : r.refuse with
      | some c => simp only [judged, hr]
      | none => simp only [judged, hr]; rfl
    have hslot : r.slot < 64 := Nat.mod_lt _ (by decide)
    refine ⟨fun hj hcount => ?_, fun c hj => ?_⟩
    · have htaken : t.cphTaken w.src w.addr r = t.cphAccept r := by rw [State.cphTaken, hjudge, hj]
      have hlt : s.cipher.queue.length + (if s.cipher.running.isSome then 1 else 0) < 16 := by
        simpa [State.cqFree] using hfree
      obtain ⟨hqueue, hwait, hcnt, hcharge, hstill, htr⟩ := State.cphAccept_shows (s := t) hslot hcount hlt
      refine ⟨_, hexec.trans (congrArg _ htaken), hqueue, hwait.trans hnone, hcnt, hcharge, hstill.mem, hstill.cores,
        fun x hx h4 hs hnow => ?_⟩
      rw [htr, show t.cipher.tr = some x from hx, Option.map_some, TrRun.afterAccept, if_pos ⟨h4, hs, hnow⟩]
    · have htaken : t.cphTaken w.src w.addr r = t.cphRefuse w.src w.addr c := by rw [State.cphTaken, hjudge, hj]
      obtain ⟨hcipher, hword, hothers, hcores⟩ := State.cphRefuse_shows (s := t) (c := c) hsrc hupd hroom hgood
      exact ⟨_, hexec.trans (congrArg _ htaken), by rw [hcipher]; rfl, by rw [hcipher]; exact hnone, hword, hothers, hcores⟩
  case start =>
    have hbegin (h : Option Nat) : let t := s.cphBegin r rest h
        t.cipher = { s.cipher with
          queue := rest, running := some (r, h), got := []
          half0 := if h = some 0 then some r.slot else s.cipher.half0, half1 := if h = some 1 then some r.slot else s.cipher.half1 } ∧
        t.dma.blk[(1 : Fin 5)].map (fun x => (x.addr, x.rd)) = s.dma.blk[(1 : Fin 5)].map (fun x => (x.addr, x.rd)) ++
          (s.operands r).filter (fun o => o.2 != 0) ∧ t.regs = s.regs ∧ s.memKept t ∧ t.cores = s.cores := by
      have hsends := State.dmaReads_sends 1 (.operand r.src r.recAt) (s.operands r) (s.modCipher (fun c => { c with
        queue := rest, running := some (r, h), got := []
        half0 := if h = some 0 then some r.slot else c.half0, half1 := if h = some 1 then some r.slot else c.half1 }))
      refine ⟨hsends.cipher, ?_, hsends.regs, hsends.mem, hsends.cores⟩
      rw [State.cphBegin, hsends.queue, List.map_append, List.map_map]
      exact congrArg₂ (· ++ ·) rfl (List.map_id' _)
    have hgo : ¬(s.cipher.running.isSome = true ∨ (!s.holds 14) = true) := by simp [hrun, hhold]
    have hexec : exec .cipherRequestStart s = (if !r.holds then .next (s.cphBegin r rest none)
        else if s.cipher.half0.isNone then .next (s.cphBegin r rest (some 0))
        else if s.cipher.half1.isNone then .next (s.cphBegin r rest (some 1)) else .next s) := by
      show execCipherRequestStart s = _
      rw [execCipherRequestStart, State.during, if_pos hin, hqueue]
      exact if_neg hgo
    refine ⟨fun h2 h4 => ?_, fun hdec hhalf => ?_⟩
    · obtain ⟨hcipher, hreads, hregs, hmem, hcores⟩ := hbegin none
      refine ⟨_, hexec.trans (if_pos (by simp [CphReq.holds, h2, h4])), ?_, hreads, hregs, hmem, hcores⟩
      rw [hcipher]
      rfl
    · obtain ⟨hcipher, hreads, hregs, hmem, hcores⟩ := hbegin (some 0)
      refine ⟨_, hexec.trans ((if_neg (by rcases hdec with h | h <;> simp [CphReq.holds, h])).trans (if_pos (by rw [hhalf]; rfl))), ?_,
        hreads, hregs, hmem, hcores⟩
      rw [hcipher]
      rfl
  case early =>
    show execCipherRequestDone s = _
    rw [execCipherRequestDone, State.during, if_pos hin, hrun]
    exact if_pos hgot
  case done =>
    obtain ⟨hfc, hfcores, hfdma, hfw⟩ := State.cphFinished_shows hq
    have hkey : s.cphFinished.slotBytes r.slot = s.slotBytes r.slot := by
      rw [State.slotBytes, State.slotBytes, State.slotKey, State.slotKey, hfc,
        hfw.test (by simp only [TR_INFO_SIZE, List.mem_singleton, TR_INFO, CONS_CQ]; omega)]
    have hne : data ≠ [] := fun h => hlen (by rw [← hdata, h]; rfl)
    have hops := State.operands_record (s := s) hsrc hupd
    refine ⟨fun hrun hop hgot => ?_, fun hrun hop htagl hgot => ?_⟩
    · have hdone := exec_cipherRequestDone (b0 := nonce) (b1 := aad) (b2 := data) (b3 := []) hin hrun hsrc hupd
        (by rw [hops]; simp [cphNonce, CphReq.holds, hop, hnonce, haad, hdata]) (by rw [hgot, List.append_nil])
      obtain ⟨l, hsends, hl⟩ := State.cphResult_enc (s := s.cphFinished) hop (Option.getD none 2) nonce aad data [] hne
      refine ⟨_, hdone, by rw [hsends.cipher, hfc], hfw.still.mem.trans hsends.mem, hsends.cores.trans hfcores, ?_⟩
      show (State.cphResult _ _ _ _ _ _ _).dma.blk[(1 : Fin 5)].map _ = _
      rw [hsends.queue, List.map_append, hl, hkey, hfdma]
      rfl
    · have hdone := exec_cipherRequestDone (b0 := nonce) (b1 := aad) (b2 := data) (b3 := tag) hin hrun hsrc hupd
        (by rw [hops]; simp [cphNonce, cphTag, CphReq.holds, hop, hnonce, haad, hdata, htagl]) hgot
      by_cases htag : ccmTag (s.slotBytes r.slot) nonce aad (ccmXor (s.slotBytes r.slot) nonce data) (4 * 2 ^ r.tagN) = tag
      · obtain ⟨l, hsends, hl⟩ := State.cphResult_dec (s := s.cphFinished) hop 0 nonce aad data tag hne (by rw [hkey]; exact htag)
        have hall := hfw.still.trans hsends.still
        refine ⟨_, hdone, ?_, hall.mem, hall.cores, fun _ => ⟨?_, ?_⟩, fun h => absurd htag h⟩
        · show (State.cphResult _ _ 0 _ _ _ _).cipher.running = none
          rw [hsends.cipher, hfc]
        · show (State.cphResult _ _ 0 _ _ _ _).cipher.half0 = _
          rw [hsends.cipher, hfc]
        · show (State.cphResult _ _ 0 _ _ _ _).dma.blk[(1 : Fin 5)].map _ = _
          rw [hsends.queue, List.map_append, hl, hkey, hfdma]
          rfl
      · have hbad := State.cphResult_bad (s := s.cphFinished) hop nonce aad data tag (by rw [hkey]; exact htag)
        obtain ⟨hcipher, hflag, hdma, hstill⟩ := s.cphFinished.cphFailed_shows
        obtain ⟨z, hz, hsends⟩ := State.cphEnd_sends s.cphFinished.cphFailed r 0x20
        have hall := hfw.still.trans (hstill.trans hsends.still)
        refine ⟨_, hdone.trans (congrArg _ hbad), ?_, hall.mem, hall.cores, fun h => absurd h htag, fun _ => ⟨?_, ?_, ?_⟩⟩
        · rw [hsends.cipher, hcipher, hfc]
        · rw [hsends.cipher, hcipher]
        · rw [hsends.test, hflag]
        · show (State.cphEnd _ r 0x20).dma.blk[(1 : Fin 5)].map _ = _
          rw [hsends.queue, List.map_append, List.map_singleton, hz, hdma, hfdma]
          rfl
  case idle =>
    show Answers _ _ _
    by_cases hh : s.holds 14 = true
    · have hdrop := s.mangerOnly_drop [14]
      refine ⟨(s.drop [14]).modCipher (fun c => { c with gaveAt := some s.tick }), ?_, s.drop_holds 14, hdrop.regs, hdrop.memKept, hdrop.cores⟩
      show execCipherIdle s = _
      rw [execCipherIdle, State.during, if_pos hin, if_pos ⟨hquiet, hwork, hh⟩]
    · refine ⟨s, ?_, Bool.eq_false_iff.mpr hh, rfl, (State.Still.rfl' s).mem, rfl⟩
      show execCipherIdle s = _
      rw [execCipherIdle, State.during, if_pos hin, if_neg (fun h => hh h.2.2)]

end Sys2Proof.Machine
end

section
/-! SUPPORT. A stall from preamble to sync (R173-R181), and the descriptor that a sync takes (R187). -/

set_option Elab.async false

namespace Sys2Proof.Machine

/-- An operation that leaves the register map, the memory and the cores as they are. -/
theorem State.Within.of_parts {but : List Nat} {s t : State} (hregs : t.regs = s.regs) (hsram : t.sram = s.sram)
    (hpram : t.pram = s.pram) (hloft : t.loft = s.loft) (hflash : t.flash = s.flash) (hcores : t.cores = s.cores) :
    s.Within but t :=
  ⟨fun a _ => by rw [State.rg, State.rg, hregs], State.memKept_of_tables hsram hpram hloft hflash,
    fun c => by rw [State.core, State.core, hcores]⟩

theorem State.Within.modStall {but : List Nat} (s : State) (p : Nat) (f : StallH → StallH) : s.Within but (s.modStall p f) :=
  State.Within.of_parts rfl rfl rfl rfl rfl rfl

/-- Another field of one register, by its bits. -/
theorem State.get_put_beside (s : State) {f g : Field} (n : Nat) (hh : g.hi < 20) (hl : g.lo ≤ g.hi)
    (h : f.hi < g.lo ∨ g.hi < f.lo) : (s.put g n).get f = s.get f := State.get_put_other s n hh hl (.inr h)

theorem State.stall_modStall (s : State) {p : Nat} (hp : p < 48) (f : StallH → StallH) : (s.modStall p f).stall p = f (s.stall p) := by
  rw [State.stall, State.modStall]
  dsimp only
  rw [Vector.toList_setIfInBounds, List.getElem?_set_self (by simpa using hp)]
  rfl

theorem State.stall_of_stalls {s t : State} (h : t.stalls = s.stalls) (p : Nat) : t.stall p = s.stall p := by
  rw [State.stall, State.stall, h]

/-! ## Waiting for a sync (R173, R174, R176) -/

/-- A fixed number of a stall's fields, all in STL_STATUS. -/
theorem State.stl_put (s : State) (p n : Nat) (hn : n < 8) : (s.put (STL_STATUS_STATE p) n).get (STL_STATUS_STATE p) = n :=
  (State.get_put_same s (STL_STATUS_STATE p) n (Nat.le_of_ble_eq_true rfl) (Nat.le_of_ble_eq_true rfl)).trans (Nat.mod_eq_of_lt hn)

theorem State.syncWait_shows (s : State) {p : Nat} (hp : p < 48) (onB : Bool) (a b : BitVec 10) : let t := s.syncWait p onB a b
    t.get (STL_STATUS_STATE p) = 4 ∧ (t.stall p).onB = onB ∧ (t.stall p).choice = s.tick ∧ s.Within [STL_STATUS p] t ∧
      t.cores = s.cores := by
  have hst := s.stall_modStall hp (fun x => { x with choice := s.tick, onB := onB, meanA := a, meanB := b })
  exact ⟨State.stl_put _ p 4 (by decide), congrArg StallH.onB hst, congrArg StallH.choice hst,
    (State.Within.modStall s p _).trans (State.Within.put _ (f := STL_STATUS_STATE p) 4 (List.mem_singleton_self _)), rfl⟩

/-- The stall goes back to searching with an outcome. -/
theorem State.nosync_shows (s : State) (p : Nat) : let t := (s.put (STL_STATUS_STATE p) 2).stallLast p 6
    t.get (STL_STATUS_STATE p) = 2 ∧ t.get (STL_STATUS_LAST p) = 6 ∧ s.Within [STL_STATUS p, STL_CNT3 p] t ∧ t.cores = s.cores := by
  have hne : STL_STATUS p ≠ STL_CNT3 p := by simp only [STL_STATUS, STL_CNT3]; omega
  let t := (s.put (STL_STATUS_STATE p) 2).put (STL_STATUS_LAST p) 6
  have hend : (s.put (STL_STATUS_STATE p) 2).stallLast p 6 = t.bump (STL_CNT3_NOSYNC p) := rfl
  dsimp only
  rw [hend]
  refine ⟨?_, ?_, ((State.Within.put s (f := STL_STATUS_STATE p) 2 (by simp [STL_STATUS_STATE])).trans
    (State.Within.put _ (f := STL_STATUS_LAST p) 6 (by simp [STL_STATUS_LAST]))).trans
    (State.Within.put _ (f := STL_CNT3_NOSYNC p) _ (by simp [STL_CNT3_NOSYNC])), rfl⟩
  · rw [State.bump, State.get_put_ne _ _ hne, State.get_put_beside _ _ (Nat.le_of_ble_eq_true rfl) (Nat.le_of_ble_eq_true rfl)
      (.inr (Nat.le_of_ble_eq_true rfl))]
    exact State.stl_put s p 2 (by decide)
  · rw [State.bump, State.get_put_ne _ _ hne]
    exact State.get_put_same _ (STL_STATUS_LAST p) 6 (Nat.le_of_ble_eq_true rfl) (Nat.le_of_ble_eq_true rfl)

/-! ## The take of a descriptor (R187) -/

theorem State.poolCheck_frame (s : State) (q : Fin 2) : s.Still (s.poolCheck q) ∧ (s.poolCheck q).pools = s.pools ∧
    (s.poolCheck q).stalls = s.stalls := by
  rw [State.poolCheck]
  have hput : s.Still ((s.put CONS_DESC_HELD_SUM ((s.pool 0).held + (s.pool 1).held)).put CONS_DESC_FREE
      ((s.pool 0).queue.length + (s.pool 1).queue.length)) := (State.Still.put _ _ _).trans (State.Still.put _ _ _)
  split
  · exact ⟨hput, rfl, rfl⟩
  · exact ⟨hput.trans (State.Still.report _ _ _), State.report_pools _ _ _, State.report_stalls _ _ _⟩

theorem State.dmaPush_frame (s : State) (q : Fin 5) (x : Xfer) :
    (s.dmaPush q x).pools = s.pools ∧ (s.dmaPush q x).stalls = s.stalls ∧ (s.dmaPush q x).frame = s.frame := by
  rw [State.dmaPush]
  have h := State.mangerOnly_ask { s with dma := { s.dma with blk := s.dma.blk.set q (s.dma.blk[q] ++ [x]) } } 0 [15]
  exact ⟨by rw [h], by rw [h], by rw [h]⟩

theorem State.descTake_shows {s : State} {q : Fin 2} {i : Nat} {r : List Nat} (h : (s.pool q).queue = i :: r) :
    ∃ t, s.descTake q = some (i, t) ∧ t.desc q i = .stall ∧ (t.pool q).queue = r ∧ s.Still t ∧ t.stalls = s.stalls := by
  let u := s.setPool q { queue := r, st := tabSet descDflt (s.pool q).st i .stall }
  have hu : u.pool q = { queue := r, st := tabSet descDflt (s.pool q).st i .stall } := Vector.getElem_set_self _
  obtain ⟨hstill, hpools, hstalls⟩ := u.poolCheck_frame q
  obtain ⟨hpools', hstalls', -⟩ := (u.poolCheck q).dmaPush_frame 0
    { addr := s.recAt q i, data := [0, 0, 0], rd := 0, tag := .take q.val i, begun := false }
  have hsend := (u.poolCheck q).dmaWrite_sends 0 (s.recAt q i) [0, 0, 0] (.take q.val i)
  have hpool : ((u.poolCheck q).dmaWrite 0 (s.recAt q i) [0, 0, 0] (.take q.val i)).pool q = u.pool q := by
    rw [State.pool, State.pool, State.dmaWrite, hpools', hpools]
  refine ⟨(u.poolCheck q).dmaWrite 0 (s.recAt q i) [0, 0, 0] (.take q.val i), ?_, ?_, ?_, ?_, hstalls'.trans hstalls⟩
  · rw [State.descTake, h]
  · rw [State.desc, hpool, hu]
    exact tabGet_set_same descDflt (s.pool q).st i .stall
  · rw [hpool, hu]
  · have hset : s.Still u := ⟨State.memKept_of_tables rfl rfl rfl rfl, fun _ => rfl⟩
    exact hset.trans (hstill.trans hsend.still)

theorem State.reseat_frame (s : State) (p i : Nat) : s.Still (s.reseat p i) ∧ (s.reseat p i).pools = s.pools ∧
    (s.reseat p i).stalls = s.stalls := by
  unfold State.reseat
  split
  · exact ⟨(⟨State.memKept_of_tables rfl rfl rfl rfl, fun _ => rfl⟩ : s.Still (s.setFrame _)).trans (State.Still.put _ _ _), rfl, rfl⟩
  · exact ⟨State.Still.put _ _ _, rfl, rfl⟩

theorem State.reseats_frame (l : List (Nat × Nat)) (s : State) : let t := l.foldl (fun t e => t.reseat e.1 e.2) s
    s.Still t ∧ t.pools = s.pools ∧ t.stalls = s.stalls :=
  foldl_inv (fun t => s.Still t ∧ t.pools = s.pools ∧ t.stalls = s.stalls) _ l s
    (fun t e _ ⟨hstill, hpools, hstalls⟩ =>
      have ⟨h1, h2, h3⟩ := t.reseat_frame e.1 e.2
      ⟨hstill.trans h1, h2.trans hpools, h3.trans hstalls⟩) ⟨State.Still.rfl' s, rfl, rfl⟩

/-- A take from a queue with a head gives some descriptor, the new one where none above took in this tick. -/
theorem State.takeFor_shows {s : State} {p : Nat} {q : Fin 2} {i : Nat} {r : List Nat} (h : (s.pool q).queue = i :: r) :
    ∃ k u, s.takeFor p q = some (k, u) ∧ u.desc q i = .stall ∧ (u.pool q).queue = r ∧ s.Still u ∧ u.stalls = s.stalls ∧
      (s.tookAbove q p = [] → k = i) := by
  obtain ⟨t, htake, hdesc, hqueue, hstill, hstalls⟩ := State.descTake_shows h
  unfold State.takeFor
  rw [htake]
  cases habove : s.tookAbove q p with
  | nil => exact ⟨i, t, rfl, hdesc, hqueue, hstill, hstalls, fun _ => rfl⟩
  | cons x l =>
    obtain ⟨hs, hp, ht⟩ := State.reseats_frame
      ((x :: l).zip (((x :: l).map (fun y => s.get (STL_STATUS_INDEX y))).tail ++ [i])) t
    refine ⟨_, _, rfl, ?_, ?_, hstill.trans hs, ht.trans hstalls, fun h => absurd h (by simp)⟩
    · rw [← hdesc, State.desc, State.desc, State.pool, State.pool, hp]
    · rw [← hqueue, State.pool, State.pool, hp]

/-! ## At sync (R175, R177, R179, R185) -/

/-- A packet begins: the state, the aerial and the descriptor stand in STL_STATUS, the sync record in the stall. -/
theorem State.packetStart_shows (s : State) {p : Nat} (hp : p < 48) (q : Fin 2) {i : Nat} (took : Bool) (r : SyncRec) :
    let t := s.packetStart p q i took r
    t.get (STL_STATUS_STATE p) = 5 ∧ t.test (STL_STATUS_HOLDS p) = true ∧ t.get (STL_STATUS_AERIAL p) = bit r.onB ∧
      (t.stall p).sync = r ∧ t.get (STL_STATUS_INDEX p) = i % 256 ∧ t.pools = s.pools ∧ s.Still t := by
  have hb {f g : Field} (n : Nat) (u : State) (hh : g.hi < 20) (hl : g.lo ≤ g.hi) (h : f.hi < g.lo ∨ g.hi < f.lo) :
      (u.put g n).get f = u.get f := u.get_put_beside n hh hl h
  obtain ⟨fr, u, hu, hend⟩ : ∃ (fr : FrameUnit) (u : State),
      u = ({ s with frame := fr } : State).modStall p (fun x => { x with sync := r, frame := some s.frame.nextId, knock := none }) ∧
      s.packetStart p q i took r = ((((u.put (STL_STATUS_STATE p) 5).put (STL_STATUS_AERIAL p) (bit r.onB)).put
        (STL_STATUS_HOLDS p) 1).put (STL_STATUS_POOL p) q.val).put (STL_STATUS_INDEX p) i := ⟨_, _, rfl, rfl⟩
  have hustill : s.Still u := by
    rw [hu]
    exact ⟨State.memKept_of_tables rfl rfl rfl rfl, fun _ => rfl⟩
  dsimp only
  rw [hend]
  refine ⟨?_, ?_, ?_, ?_, ?_, by rw [hu]; rfl, hustill.trans (((((State.Still.put _ _ _).trans (State.Still.put _ _ _)).trans
    (State.Still.put _ _ _)).trans (State.Still.put _ _ _)).trans (State.Still.put _ _ _))⟩
  · rw [hb _ _ (Nat.le_of_ble_eq_true rfl) (Nat.zero_le _) (.inr (Nat.le_of_ble_eq_true rfl)),
      hb _ _ (Nat.le_of_ble_eq_true rfl) (Nat.le_of_ble_eq_true rfl) (.inr (Nat.le_of_ble_eq_true rfl)),
      hb _ _ (Nat.le_of_ble_eq_true rfl) (Nat.le_of_ble_eq_true rfl) (.inr (Nat.le_of_ble_eq_true rfl)),
      hb _ _ (Nat.le_of_ble_eq_true rfl) (Nat.le_of_ble_eq_true rfl) (.inr (Nat.le_of_ble_eq_true rfl))]
    exact State.stl_put _ p 5 (by decide)
  · rw [State.test, hb _ _ (Nat.le_of_ble_eq_true rfl) (Nat.zero_le _) (.inr (Nat.le_of_ble_eq_true rfl)),
      hb _ _ (Nat.le_of_ble_eq_true rfl) (Nat.le_of_ble_eq_true rfl) (.inr (Nat.le_of_ble_eq_true rfl)),
      State.get_put_same _ (STL_STATUS_HOLDS p) 1 (Nat.le_of_ble_eq_true rfl) (Nat.le_of_ble_eq_true rfl)]
    rfl
  · rw [hb _ _ (Nat.le_of_ble_eq_true rfl) (Nat.zero_le _) (.inr (Nat.le_of_ble_eq_true rfl)),
      hb _ _ (Nat.le_of_ble_eq_true rfl) (Nat.le_of_ble_eq_true rfl) (.inr (Nat.le_of_ble_eq_true rfl)),
      hb _ _ (Nat.le_of_ble_eq_true rfl) (Nat.le_of_ble_eq_true rfl) (.inr (Nat.le_of_ble_eq_true rfl)),
      State.get_put_same _ (STL_STATUS_AERIAL p) _ (Nat.le_of_ble_eq_true rfl) (Nat.le_of_ble_eq_true rfl)]
    cases r.onB <;> rfl
  · exact (congrArg StallH.sync (State.stall_of_stalls (s := u) rfl p)).trans (by rw [hu, State.stall_modStall _ hp])
  · exact State.get_put_same _ (STL_STATUS_INDEX p) i (Nat.le_of_ble_eq_true rfl) (Nat.zero_le _)

/-- A sync without a descriptor: the stall searches again. -/
theorem State.noDesc_shows (s : State) (p : Nat) (r : SyncRec) : let t := s.noDesc p r
    t.get (STL_STATUS_STATE p) = 2 ∧ t.get (STL_STATUS_LAST p) = 5 ∧ t.get (STL_STATUS_AERIAL p) = bit r.onB ∧
      t.test STC_FLAGS_NODESC = true ∧ t.pools = s.pools ∧ s.Still t := by
  have hb {f g : Field} (n : Nat) (u : State) (hh : g.hi < 20) (hl : g.lo ≤ g.hi) (h : f.hi < g.lo ∨ g.hi < f.lo) :
      (u.put g n).get f = u.get f := u.get_put_beside n hh hl h
  have hcnt : STL_STATUS p ≠ STL_CNT2 p := by simp only [STL_STATUS, STL_CNT2]; omega
  have hflags : STL_STATUS p ≠ STC_FLAGS := by simp only [STL_STATUS, STC_FLAGS]; omega
  obtain ⟨u, hu, hend⟩ : ∃ u : State, u = s.modStall p (fun x => { x with sync := r, frame := none, knock := none }) ∧
      s.noDesc p r = (((((u.put (STL_STATUS_AERIAL p) (bit r.onB)).put (STL_STATUS_HOLDS p) 0).put (STL_STATUS_STATE p) 2).put
        (STL_STATUS_LAST p) 5).bump (STL_CNT2_NODESC p)).raise STC_FLAGS_NODESC := ⟨_, rfl, rfl⟩
  have hustill : s.Still u := by
    rw [hu]
    exact ⟨State.memKept_of_tables rfl rfl rfl rfl, fun _ => rfl⟩
  dsimp only
  rw [hend]
  refine ⟨?_, ?_, ?_, State.raise_self _ _ (by decide) (by decide), by rw [State.raise_pools, hu]; rfl,
    hustill.trans ((((((State.Still.put _ _ _).trans (State.Still.put _ _ _)).trans (State.Still.put _ _ _)).trans
      (State.Still.put _ _ _)).trans (State.Still.put _ _ _)).trans (State.Still.raise _ _))⟩
  · rw [State.raise_get_ne _ _ hflags, State.bump, State.get_put_ne _ _ hcnt,
      hb _ _ (Nat.le_of_ble_eq_true rfl) (Nat.le_of_ble_eq_true rfl) (.inr (Nat.le_of_ble_eq_true rfl))]
    exact State.stl_put _ p 2 (by decide)
  · rw [State.raise_get_ne _ _ hflags, State.bump, State.get_put_ne _ _ hcnt]
    exact State.get_put_same _ (STL_STATUS_LAST p) 5 (Nat.le_of_ble_eq_true rfl) (Nat.le_of_ble_eq_true rfl)
  · rw [State.raise_get_ne _ _ hflags, State.bump, State.get_put_ne _ _ hcnt,
      hb _ _ (Nat.le_of_ble_eq_true rfl) (Nat.le_of_ble_eq_true rfl) (.inl (Nat.le_of_ble_eq_true rfl)),
      hb _ _ (Nat.le_of_ble_eq_true rfl) (Nat.le_of_ble_eq_true rfl) (.inl (Nat.le_of_ble_eq_true rfl)),
      hb _ _ (Nat.le_of_ble_eq_true rfl) (Nat.le_of_ble_eq_true rfl) (.inr (Nat.le_of_ble_eq_true rfl)),
      State.get_put_same _ (STL_STATUS_AERIAL p) _ (Nat.le_of_ble_eq_true rfl) (Nat.le_of_ble_eq_true rfl)]
    cases r.onB <;> rfl

/-- What an orbit step hears changes the power unit alone. -/
theorem State.orbitHear_eq (s : State) (n p : Nat) : ∃ w, s.orbitHear n p = { s with power := w } := by
  unfold State.orbitHear
  split
  · split
    · exact ⟨_, rfl⟩
    · exact ⟨s.power, rfl⟩
  · exact ⟨s.power, rfl⟩

/-- The state in which a declared sync is served. -/
def State.synced (s : State) (p : Nat) : State := (s.bump (STL_CNT0_SYNCS p)).orbitHear 3 p

theorem State.synced_shows (s : State) {p : Nat} : s.Still (s.synced p) ∧ (s.synced p).pools = s.pools ∧
    (s.synced p).get (STL_CFG_POOL p) = s.get (STL_CFG_POOL p) ∧ ∀ q, (s.synced p).tookAbove q p = s.tookAbove q p := by
  obtain ⟨w, hw⟩ := (s.bump (STL_CNT0_SYNCS p)).orbitHear_eq 3 p
  rw [State.synced, hw]
  refine ⟨State.Still.trans (t := s.bump (STL_CNT0_SYNCS p)) (State.Still.put _ _ _)
    ⟨State.memKept_of_tables rfl rfl rfl rfl, fun _ => rfl⟩, rfl, ?_, fun _ => ?_⟩
  · exact State.get_put_ne _ _ (by simp only [STL_CFG_POOL, STL_CNT0_SYNCS, STL_CFG, STL_CNT0]; omega)
  · rfl

/-- A sync declared in a state other than RECEIVE. -/
theorem exec_syncDeclared {s : State} {p : Pos} {rxA rxB : AerialRx} {onB : Bool} (hin : s.inAir = true)
    (hdec : s.declares p.val rxA rxB = some onB) (hst : s.stl p.val ≠ 5) :
    exec (.syncDeclared p rxA rxB) s = .next ((s.synced p.val).packetNew p.val (s.syncRec p.val onB rxA rxB)) := by
  show execSyncDeclared p rxA rxB s = _
  rw [execSyncDeclared, State.during, if_pos hin, hdec]
  exact if_pos hst

/-- The two halves of a 40-bit value read back. -/
theorem State.get40_set40 (s : State) {lo hi : Nat} (h : lo ≠ hi) (v : W40) : (s.set40 lo hi v).get40 lo hi = v := by
  rw [State.get40, State.set40, State.rg_setRg_same, State.rg_setRg_ne _ _ h, State.rg_setRg_same]
  apply BitVec.eq_of_toNat_eq
  simp only [BitVec.toNat_ofNat]
  have := v.isLt
  omega

/-- Settles O36: each step of a stall writes STL_STATUS and the stall's own fields; a sync takes the head of its queue. -/
theorem stallEffects : Obligations.StallEffects := by
  unfold Obligations.StallEffects
  intro p s hin st x sym q
  have hp : p.val < 48 := p.isLt
  refine ⟨fun a b hst hsearch hheard => ?preamble, fun a b hst hmeans => ?choice, fun rxA rxB hst hsearch hA hB => ?declares,
    fun rxA rxB hnone => ?silent, fun rxA rxB onB hdec hst => ⟨fun i r hqueue hi => ?taken, fun hqueue habove => ?without⟩,
    fun hst hknock hchoice => ?nosync, fun hclk => ?snapshot⟩
  case preamble =>
    have hgo : ¬(s.stl p.val ≠ 2 ∨
        (!(s.aerialOn p.val false && decide (s.get STC_DETCFG_PTHR ≤ a.toNat) ||
          s.aerialOn p.val true && decide (s.get STC_DETCFG_PTHR ≤ b.toNat))) = true ∨
        (!s.symsSince p.val x.search (max 4 (s.get STC_RXCFG_PDET))) = true) := by
      have hsyms : s.symsSince p.val x.search (max 4 (s.get STC_RXCFG_PDET)) = true := decide_eq_true hsearch
      rw [hsyms, show s.stl p.val = 2 from hst]
      rcases hheard with ⟨hon, hle⟩ | ⟨hon, hle⟩ <;> simp [hon, hle]
    have hexec : exec (.preambleDetect p a b) s = (if s.diversity p.val then
        .next ((s.modStall p.val (fun x => { x with heard := s.tick })).put (STL_STATUS_STATE p.val) 3)
        else .next (s.syncWait p.val (s.aerialOn p.val true) 0 0)) := by
      show execPreambleDetect p a b s = _
      rw [execPreambleDetect, State.during, if_pos hin]
      exact if_neg hgo
    refine ⟨fun hdiv => ?_, fun hdiv => ?_⟩
    · have hw : s.Within [STL_STATUS p.val] ((s.modStall p.val (fun x => { x with heard := s.tick })).put (STL_STATUS_STATE p.val) 3) :=
        (State.Within.modStall s p.val _).trans (State.Within.put _ (f := STL_STATUS_STATE p.val) 3 (List.mem_singleton_self _))
      exact ⟨_, hexec.trans (if_pos hdiv), State.stl_put _ p.val 3 (by decide),
        s.stall_modStall hp (fun x => { x with heard := s.tick }), hw.regs, hw.still.mem, rfl⟩
    · obtain ⟨hstate, honB, hch, hw, hcores⟩ := s.syncWait_shows hp (s.aerialOn p.val true) 0 0
      exact ⟨_, hexec.trans (if_neg (by rw [hdiv]; decide)), hstate, hch, honB, hw.regs, hw.still.mem, hcores⟩
  case choice =>
    obtain ⟨hstate, honB, hch, hw, hcores⟩ := s.syncWait_shows hp (decide (a.toNat < b.toNat)) a b
    refine ⟨s.syncWait p.val (decide (a.toNat < b.toNat)) a b, ?_, hstate, honB, hch, hw.regs, hw.still.mem, hcores⟩
    show execAerialChoice p a b s = _
    rw [execAerialChoice, State.during, if_pos hin, if_pos ⟨hst, decide_eq_true hmeans⟩]
  case declares =>
    intro word wrong
    have hsyms : s.symsSince p.val x.search (s.get (STL_SYNCHI_LEN p.val)) = true := decide_eq_true hsearch
    have hst2 : s.stl p.val = 2 := hst
    rw [State.declares, if_neg (by rw [hsyms, hst2]; decide), if_neg (by rw [hst2]; exact fun h => absurd h.1 (by decide)), hA, hB,
      Bool.and_true, Bool.and_false, bestAerial, Bool.and_false, if_neg Bool.false_ne_true]
    show (if s.syncMatch p.val rxA = true then some false else _) = _
    by_cases hle : wrong ≤ s.get (STL_SYNCHI_ERRS p.val)
    · rw [if_pos hle, if_pos (show s.syncMatch p.val rxA = true from decide_eq_true hle)]
    · rw [if_neg hle, if_neg (show ¬ s.syncMatch p.val rxA = true from fun h => hle (of_decide_eq_true h)), if_neg Bool.false_ne_true]
  case silent =>
    show execSyncDeclared p rxA rxB s = _
    rw [execSyncDeclared, State.during, if_pos hin, hnone]
  case taken =>
    obtain ⟨hstill, hpools, hpool, habove⟩ := s.synced_shows (p := p.val)
    have hq : ((s.synced p.val).pool q).queue = i :: r := by rw [State.pool, hpools]; exact hqueue
    obtain ⟨k, u, htake, hdesc, hrest, hustill, hstalls, hk⟩ := State.takeFor_shows (p := p.val) hq
    obtain ⟨hstate, hholds, haerial, hsync, hindex, hpools', hend⟩ :=
      u.packetStart_shows hp q (i := k) true (s.syncRec p.val onB rxA rxB)
    have hnew : (s.synced p.val).packetNew p.val (s.syncRec p.val onB rxA rxB) =
        u.packetStart p.val q k true (s.syncRec p.val onB rxA rxB) := by
      rw [State.packetNew, hpool]
      show (match (s.synced p.val).takeFor p.val q with | some (i, u) => _ | none => _) = _
      rw [htake] <;> rfl
    have hall := hstill.trans (hustill.trans hend)
    refine ⟨_, (exec_syncDeclared hin hdec hst).trans (congrArg _ hnew), hstate, hholds, haerial, hsync, by rw [hsync]; rfl, ?_, ?_,
      fun hno => ?_, hall.mem, hall.cores⟩
    · rw [State.desc, State.pool, hpools']
      exact hdesc
    · rw [State.pool, hpools']
      exact hrest
    · rw [hindex, hk ((habove q).trans hno)]
      exact Nat.mod_eq_of_lt hi
  case without =>
    obtain ⟨hstill, hpools, hpool, hsame⟩ := s.synced_shows (p := p.val)
    have hq : ((s.synced p.val).pool q).queue = [] := by rw [State.pool, hpools]; exact hqueue
    have htake : (s.synced p.val).takeFor p.val q = none := by
      rw [State.takeFor, State.descTake, hq, (hsame q).trans habove]
      rfl
    obtain ⟨hstate, hlast, haerial, hflag, hpools', hend⟩ := (s.synced p.val).noDesc_shows p.val (s.syncRec p.val onB rxA rxB)
    have hnew : (s.synced p.val).packetNew p.val (s.syncRec p.val onB rxA rxB) =
        (s.synced p.val).noDesc p.val (s.syncRec p.val onB rxA rxB) := by
      rw [State.packetNew, hpool]
      show (match (s.synced p.val).takeFor p.val q with | some (i, u) => _ | none => _) = _
      rw [htake] <;> rfl
    have hall := hstill.trans hend
    exact ⟨_, (exec_syncDeclared hin hdec hst).trans (congrArg _ hnew), hstate, hlast, haerial, hflag, hpools'.trans hpools, hall.mem,
      hall.cores⟩
  case nosync =>
    obtain ⟨hstate, hlast, hw, hcores⟩ := s.nosync_shows p.val
    refine ⟨(s.put (STL_STATUS_STATE p.val) 2).stallLast p.val 6, ?_, hstate, hlast, hw.regs, hw.still.mem, hcores⟩
    show execNosync p s = _
    rw [execNosync, State.during, if_pos hin, if_pos ⟨hst, hknock, decide_eq_true hchoice⟩]
  case snapshot =>
    have hne : STL_TSLO p.val ≠ STL_TSHI p.val ∧ STL_TSLO p.val ≠ STL_RSSI p.val ∧ STL_TSLO p.val ≠ STL_FOFS p.val ∧
        STL_TSLO p.val ≠ STL_QUAL p.val ∧ STL_TSHI p.val ≠ STL_RSSI p.val ∧ STL_TSHI p.val ≠ STL_FOFS p.val ∧
        STL_TSHI p.val ≠ STL_QUAL p.val ∧ STL_FOFS p.val ≠ STL_QUAL p.val ∧ STL_RSSI p.val ≠ STL_FOFS p.val ∧
        STL_RSSI p.val ≠ STL_QUAL p.val := by
      simp only [STL_TSLO, STL_TSHI, STL_RSSI, STL_FOFS, STL_QUAL]
      omega
    obtain ⟨hlh, hlr, hlf, hlq, hhr, hhf, hhq, hfq, hrf, hrq⟩ := hne
    let l := [STL_TSLO p.val, STL_TSHI p.val, STL_FOFS p.val, STL_RSSI p.val, STL_QUAL p.val]
    have hw : s.Within l (s.snapshot p.val) := ((((State.Within.setRg s (a := STL_TSLO p.val) _ (by simp [l])).trans
      (State.Within.setRg _ (a := STL_TSHI p.val) _ (by simp [l]))).trans
      (State.Within.setRg _ (a := STL_RSSI p.val) _ (by simp [l]))).trans
      (State.Within.setRg _ (a := STL_FOFS p.val) _ (by simp [l]))).trans (State.Within.setRg _ (a := STL_QUAL p.val) _ (by simp [l]))
    refine ⟨s.snapshot p.val, if_pos hclk, ?_, ?_, ?_, State.rg_setRg_same _ _ _, hw.regs, hw.still.mem, rfl⟩
    · rw [State.get40, State.snapshot, State.rg_setRg_ne _ _ hhq, State.rg_setRg_ne _ _ hhf, State.rg_setRg_ne _ _ hhr,
        State.rg_setRg_ne _ _ hlq, State.rg_setRg_ne _ _ hlf, State.rg_setRg_ne _ _ hlr]
      exact State.get40_set40 s hlh _
    · rw [State.snapshot, State.rg_setRg_ne _ _ hfq]
      exact State.rg_setRg_same _ _ _
    · rw [State.snapshot, State.rg_setRg_ne _ _ hrq, State.rg_setRg_ne _ _ hrf]
      exact State.rg_setRg_same _ _ _

end Sys2Proof.Machine
end

section
/-! SUPPORT. The frame unit's receive side (R185, R200-R213): headers, blocks, the decoder and the packet's last symbol. -/

set_option Elab.async false

namespace Sys2Proof.Machine

/-! ## The frames in the unit -/

theorem State.still_modFrames (s : State) (f : FrameUnit → FrameUnit) : s.Still (s.modFrames f) :=
  ⟨State.memKept_of_tables rfl rfl rfl rfl, fun _ => rfl⟩

theorem State.still_modLink (s : State) (f : Link → Link) : s.Still (s.modLink f) :=
  ⟨State.memKept_of_tables rfl rfl rfl rfl, fun _ => rfl⟩

theorem State.frameOf_id {s : State} {id : Nat} {f : Frame} (h : s.frameOf id = some f) : f.id = id := by
  have := List.find?_some h
  simpa using this

/-- The unit's first frame of a number is the one just set, where it had one. -/
theorem State.frameOf_setFrame {s : State} {f g : Frame} (h : s.frameOf g.id = some f) : (s.setFrame g).frameOf g.id = some g := by
  show (s.frame.frames.map (fun x => if x.id = g.id then g else x)).find? (fun x => x.id == g.id) = some g
  have hfind : s.frame.frames.find? (fun x => x.id == g.id) = some f := h
  generalize s.frame.frames = l at hfind ⊢
  induction l with
  | nil => simp at hfind
  | cons x r ih =>
    rw [List.map_cons]
    by_cases hx : x.id = g.id
    · rw [if_pos hx, List.find?_cons_of_pos (by simp)]
    · rw [if_neg hx, List.find?_cons_of_neg (by simpa using hx)]
      exact ih ((List.find?_cons_of_neg (by simpa using hx)).symm.trans hfind)

/-- A frame in the unit's list is found by its number, or one before it of that number is. -/
theorem State.frameOf_of_mem {s : State} {f : Frame} (h : f ∈ s.frame.frames) : ∃ g, s.frameOf f.id = some g := by
  have hsome : (s.frame.frames.find? (fun x => x.id == f.id)).isSome := List.find?_isSome.mpr ⟨f, h, by simp⟩
  exact Option.isSome_iff_exists.mp hsome

/-! ## A stall's packet is given up (R183-R185) -/

theorem State.still_rcAdd (s : State) (a b : BitVec 32) : s.Still (s.rcAdd a b) := by
  unfold State.rcAdd
  exact State.Still.ite (State.Still.rfl' s)
    (State.Still.ite ((State.Still.put _ _ _).trans (State.Still.raise _ _)) (s.still_modLink _))

theorem State.still_decIdle (s : State) : s.Still s.decIdle := by
  unfold State.decIdle
  exact State.Still.ite ⟨State.memKept_of_tables rfl rfl rfl rfl, fun _ => rfl⟩ (State.Still.rfl' s)

theorem State.still_macDrop (s : State) (id : Nat) : s.Still (s.macDrop id) := by
  unfold State.macDrop
  dsimp only
  split
  · exact State.Still.ite ((s.still_modLink _).trans (State.still_rcAdd _ _ _)) (s.still_modLink _)
  · exact s.still_modLink _

theorem State.still_frameWithdraw (s : State) (id : Nat) : s.Still (s.frameWithdraw id) := by
  have hleave : ∀ u : FrameUnit, s.Still ({ s with frame := u } : State) := fun _ =>
    ⟨State.memKept_of_tables rfl rfl rfl rfl, fun _ => rfl⟩
  exact (hleave _).trans ((State.still_decIdle _).trans (State.still_macDrop _ _))

theorem State.still_descFree (s : State) (q : Fin 2) (i : Nat) : s.Still (s.descFree q i) := by
  unfold State.descFree
  refine State.Still.ite (State.Still.rfl' s) (State.Still.trans ?_ (State.poolCheck_frame _ q).1)
  exact ⟨State.memKept_of_tables rfl rfl rfl rfl, fun _ => rfl⟩

theorem State.still_stallDrop (s : State) (p : Nat) : s.Still (s.stallDrop p) := by
  unfold State.stallDrop
  have hframe : s.Still (match (s.stall p).frame with | some id => s.frameWithdraw id | none => s) := by
    split
    · exact s.still_frameWithdraw _
    · exact State.Still.rfl' s
  have hfree : ∀ u : State, u.Still (if u.test (STL_STATUS_HOLDS p) then
      (u.descFree (poolIx (u.get (STL_STATUS_POOL p))) (u.get (STL_STATUS_INDEX p))).put (STL_STATUS_HOLDS p) 0 else u) := fun u =>
    State.Still.ite ((u.still_descFree _ _).trans (State.Still.put _ _ _)) (State.Still.rfl' u)
  exact (hframe.trans (hfree _)).trans ⟨State.memKept_of_tables rfl rfl rfl rfl, fun _ => rfl⟩

/-! ## Headers (R200, R220) -/

/-- The decisions take a free choice and change nothing else. -/
def State.decided (s : State) : State := { s with free := s.free + 1 }

theorem State.decisions_snd (s : State) (soft : List Int) : (s.decisions soft).2 = s.decided := rfl

/-- The soft values that decide a header: those of the PHR, or the sums of the two copies. -/
def headerSoft (f : Frame) (soft : List Int) : List Int :=
  if f.sun then (List.range 16).map (fun i => (soft[i]?).getD 0)
  else (List.range 32).map (fun i => (soft[i]?).getD 0 + (soft[32 + i]?).getD 0)

/-- A header's value in state `s`. -/
def State.headerValue (s : State) (f : Frame) (soft : List Int) : Nat := bitsNat (s.decisions (headerSoft f soft)).1

/-- How the header of frame `f` is judged. -/
def State.headerJudge (s : State) (f : Frame) (soft : List Int) : HdrJudge :=
  if f.sun then judgeSun (s.bufSize (poolIx f.pool)) (s.headerValue f soft)
  else judgeNative (s.test STC_STATE_HALTER) (s.bufSize (poolIx f.pool)) (BitVec.ofNat 32 (s.headerValue f soft))

/-- The frame whose header is due, and what its judgement leads to. -/
theorem exec_headerReceived {s : State} {p : Pos} {id : Nat} {f : Frame} {soft : List Int} (hin : s.inAir = true)
    (hframe : (s.stall p.val).frame = some id) (hid : s.frameOf id = some f) (hhead : f.headed = false)
    (hst : s.get (STL_STATUS_STATE p.val) = 5) (htick : f.headTick ≤ s.tick) :
    exec (.headerReceived p soft) s = match s.headerJudge f soft with
      | .bad => .next (s.decided.headerBad p.val)
      | .oversize => .next ((s.decided.stallAbandon p.val 4).put (STL_STATUS_STATE p.val) 2)
      | .ok len rate bs mode => .next (s.decided.headerOk f (BitVec.ofNat 20 (if f.sun then s.headerValue f soft
          else s.headerValue f soft / 2 ^ 12)) len rate bs mode) := by
  show execHeaderReceived p soft s = _
  rw [execHeaderReceived, State.during, if_pos hin, hframe, Option.bind_some, hid]
  refine (if_neg ?_).trans ?_
  · rw [hhead, show s.stl p.val = 5 from hst]
    simpa using htick
  · rfl

theorem State.headerBad_shows (s : State) (p : Nat) : let t := s.headerBad p
    t.get (STL_STATUS_STATE p) = 2 ∧ t.test FU_FLAGS_HEADER_BAD = true ∧ s.Still t := by
  have hcnt : STL_STATUS p ≠ FU_CNT1 := by simp only [STL_STATUS, FU_CNT1]; omega
  have hflags : STL_STATUS p ≠ FU_FLAGS := by simp only [STL_STATUS, FU_FLAGS]; omega
  have hlast : ∀ u : State, u.Still (u.stallLast p 8) := fun u => State.Still.put _ _ _
  dsimp only
  rw [State.headerBad]
  refine ⟨?_, State.raise_self _ _ (by decide) (by decide), ((s.still_stallDrop p).trans (hlast _)).trans
    (((State.Still.put _ _ _).trans (State.Still.put _ _ _)).trans (State.Still.raise _ _))⟩
  rw [State.raise_get_ne _ _ hflags, State.bump, State.get_put_ne _ _ hcnt]
  exact State.stl_put _ p 2 (by decide)

theorem State.oversize_shows (s : State) (p : Nat) : let t := (s.stallAbandon p 4).put (STL_STATUS_STATE p) 2
    t.get (STL_STATUS_STATE p) = 2 ∧ t.get (STL_STATUS_LAST p) = 4 ∧ t.test STC_FLAGS_OVERSIZE = true ∧ s.Still t := by
  have hcnt : STL_STATUS p ≠ STL_CNT2 p := by simp only [STL_STATUS, STL_CNT2]; omega
  have hflags : STL_STATUS p ≠ STC_FLAGS := by simp only [STL_STATUS, STC_FLAGS]; omega
  have hend : s.stallAbandon p 4 = (((s.stallDrop p).put (STL_STATUS_LAST p) 4).bump (STL_CNT2_OVERSIZE p)).raise STC_FLAGS_OVERSIZE :=
    rfl
  dsimp only
  rw [hend]
  refine ⟨State.stl_put _ p 2 (by decide), ?_, ?_, (((s.still_stallDrop p).trans (State.Still.put _ _ _)).trans
    ((State.Still.put _ _ _).trans (State.Still.raise _ _))).trans (State.Still.put _ _ _)⟩
  · rw [State.get_put_beside _ _ (Nat.le_of_ble_eq_true rfl) (Nat.le_of_ble_eq_true rfl) (.inl (Nat.le_of_ble_eq_true rfl)),
      State.raise_get_ne _ _ hflags, State.bump, State.get_put_ne _ _ hcnt]
    exact State.get_put_same _ (STL_STATUS_LAST p) 4 (Nat.le_of_ble_eq_true rfl) (Nat.le_of_ble_eq_true rfl)
  · rw [State.test, State.get_put_ne _ _ (Ne.symm hflags)]
    exact State.raise_self _ _ (by decide) (by decide)

/-- With fewer than three jobs of a stall a new block finds a slot. -/
theorem State.slotNeeded_free {s : State} {p : Nat} (h : (s.jobsOf p).length < 3) : s.slotNeeded p = s := by
  rw [State.slotNeeded]
  exact if_pos h

theorem State.headerOk_eq {s : State} {f : Frame} (hdr : W20) (len rate bs mode : Nat) (hjobs : (s.jobsOf f.pos).length < 3) :
    s.headerOk f hdr len rate bs mode = s.setFrame { f with hdr := hdr, headed := true, len := len, rate := rate, bs := bs, mode := mode, blocks := List.replicate (blockCount len rate bs) none } := by
  rw [State.headerOk]
  split
  · rfl
  · exact State.slotNeeded_free hjobs

/-! ## Blocks and decodes (R208-R213) -/

theorem State.nextJob_one {s : State} {j : Job} (h : s.frame.jobs = [j]) : s.nextJob = some j := by
  have hfilter : ∀ q : Job → Bool, oldestJob ([j].filter q) = none ∨ oldestJob ([j].filter q) = some j := fun q => by
    cases hq : q j with
    | false => exact .inl (by rw [List.filter_cons_of_neg (by rw [hq]; decide)]; rfl)
    | true => exact .inr (by rw [List.filter_cons_of_pos hq]; rfl)
  rw [State.nextJob, h]
  rcases hfilter s.jobUrgent with h1 | h1
  · rcases hfilter (fun j => decide (3 ≤ (s.jobsOf j.pos).length)) with h2 | h2
    · simp only [h1, h2]
      rfl
    · simp only [h1, h2]
  · simp only [h1]

/-- A block that is not the first, of a frame whose last symbol is to come, is recorded. -/
theorem State.blockDone_eq {s : State} {id b : Nat} {f : Frame} (r : BlkRes) (h : s.frameOf id = some f) (hlast : f.last = false)
    (hb : b ≠ 0) : s.blockDone id b r = s.setFrame { f with blocks := f.blocks.set b (some r) } := by
  have hid := State.frameOf_id h
  subst hid
  have hset := State.frameOf_setFrame (g := { f with blocks := f.blocks.set b (some r) }) h
  rw [State.blockDone, h]
  dsimp only
  rw [if_neg (fun hh => hb hh.1), State.frameSettle, show (s.setFrame _).frameOf f.id = _ from hset]
  dsimp only
  rw [if_pos (.inl (by rw [hlast]; decide))]

/-- A decode that ended by itself: its report, and its block's decision. -/
theorem exec_decodeDone {s : State} {j : Job} {f : Frame} {iters : Nat} {inf par : List Bool} (hin : s.inRun = true)
    (hrun : s.frame.running = some j) (hdead : s.frame.dead = none) (hf : s.frameOf j.frame = some f) :
    exec (.decodeDone iters inf par) s =
      let bits := codeKnown f.rate f.bs (blockData f.len f.rate f.bs j.block) (bitsTo (24 * codeZ f.bs) (inf ++ par))
      .next (if s.frame.iter < iters ∨
          !((1 ≤ iters && synZero f.rate f.bs bits || iters == s.frame.iter) &&
            48 * (40 + iters * iterCycles f.rate) ≤ 125 * (s.tick - s.frame.begun))
        then s else s.decodeEnd f j iters bits) := by
  have hbits : s.decodeBits f j (inf ++ par) =
      (codeKnown f.rate f.bs (blockData f.len f.rate f.bs j.block) (bitsTo (24 * codeZ f.bs) (inf ++ par)), s) := by
    rw [State.decodeBits, hdead]
    exact if_neg (by simp)
  show execDecodeDone iters inf par s = _
  rw [execDecodeDone, State.during, if_pos hin, hrun]
  dsimp only
  rw [hf]
  dsimp only
  rw [hbits, State.decodeTime, hdead]
  rfl

/-- The state of a decode's end before its block is decided. -/
def State.decoded (s : State) (f : Frame) (j : Job) (iters : Nat) (bits : List Bool) (good : Bool) : State :=
  ((s.setRg DEC_LAST (BitVec.ofNat 20 (iters * 2 ^ 15 + bit (synZero f.rate f.bs bits) * 2 ^ 14 + bit good * 2 ^ 13 + j.pos))).modFrames
    (fun u => { u with running := none, dead := none })).decIdle

theorem State.decIdle_shows (s : State) : s.decIdle.frame.running = s.frame.running ∧ s.decIdle.regs = s.regs ∧
    s.decIdle.cores = s.cores ∧ s.decIdle.frame.frames = s.frame.frames := by
  unfold State.decIdle
  split
  · exact ⟨rfl, rfl, rfl, rfl⟩
  · exact ⟨rfl, rfl, rfl, rfl⟩

theorem State.decoded_shows (s : State) (f : Frame) (j : Job) (iters : Nat) (bits : List Bool) (good : Bool) :
    let t := s.decoded f j iters bits good
    t.frame.running = none ∧ t.frame.frames = s.frame.frames ∧ s.Within [DEC_LAST] t ∧ t.cores = s.cores ∧
      t.rg DEC_LAST = BitVec.ofNat 20 (iters * 2 ^ 15 + bit (synZero f.rate f.bs bits) * 2 ^ 14 + bit good * 2 ^ 13 + j.pos) := by
  let u := (s.setRg DEC_LAST (BitVec.ofNat 20 (iters * 2 ^ 15 + bit (synZero f.rate f.bs bits) * 2 ^ 14 + bit good * 2 ^ 13 +
    j.pos))).modFrames (fun u => { u with running := none, dead := none })
  obtain ⟨hrun, hregs, hcores, hframes⟩ := u.decIdle_shows
  refine ⟨hrun, hframes, ⟨fun a ha => ?_, ?_⟩, hcores, ?_⟩
  · show u.decIdle.rg a = s.rg a
    rw [State.rg, hregs]
    exact State.rg_setRg_ne s _ (fun h => ha (by simp [h]))
  · exact ((State.Still.setRg _ _ _).trans (State.still_modFrames _ _)).trans (State.still_decIdle _)
  · show u.decIdle.rg DEC_LAST = _
    rw [State.rg, hregs]
    exact State.rg_setRg_same s _ _

theorem State.decodeEnd_eq {s : State} {f : Frame} {j : Job} (iters : Nat) (bits : List Bool) (hdead : s.frame.dead = none) :
    let info := packMsb (codeK f.rate f.bs / 8) bits
    s.decodeEnd f j iters bits =
      if crc24 info = 0 then (s.decoded f j iters bits true).blockDone j.frame j.block (.good (info.take (codeK f.rate f.bs / 8 - 3)))
      else (((s.decoded f j iters bits false).bump FU_CNT0_BLKFAIL).raise FU_FLAGS_BLOCK_FAIL).blockDone j.frame j.block
        (.crcBad (info.take (codeK f.rate f.bs / 8 - 3))) := by
  dsimp only
  rw [State.decodeEnd, hdead]
  simp only [Option.any_none, Bool.not_false, Bool.and_true]
  by_cases h : crc24 (packMsb (codeK f.rate f.bs / 8) bits) = 0
  · rw [if_pos h, show (crc24 (packMsb (codeK f.rate f.bs / 8) bits) == 0) = true by simpa using h]
    rfl
  · rw [if_neg h, show (crc24 (packMsb (codeK f.rate f.bs / 8) bits) == 0) = false by simpa using h]
    rfl

/-! ## The packet's last symbol (R185, R204) -/

/-- The registers that show the end of a packet. -/
def State.packetRegs (s : State) (p : Nat) : State :=
  (((s.put (STL_STATUS_LAST p) 1).bump (STL_CNT0_RECEIVED p)).put (STL_STATUS_HOLDS p) 0).put (STL_STATUS_STATE p) 2

theorem State.packetRegs_shows (s : State) (p : Nat) : let t := s.packetRegs p
    t.get (STL_STATUS_LAST p) = 1 ∧ t.test (STL_STATUS_HOLDS p) = false ∧ s.Within [STL_STATUS p, STL_CNT0 p] t := by
  have hcnt : STL_STATUS p ≠ STL_CNT0 p := by simp only [STL_STATUS, STL_CNT0]; omega
  refine ⟨?_, ?_, (((State.Within.put _ (f := STL_STATUS_LAST p) 1 (by simp [STL_STATUS_LAST])).trans
    (State.Within.put _ (f := STL_CNT0_RECEIVED p) _ (by simp [STL_CNT0_RECEIVED]))).trans
    (State.Within.put _ (f := STL_STATUS_HOLDS p) 0 (by simp [STL_STATUS_HOLDS]))).trans
    (State.Within.put _ (f := STL_STATUS_STATE p) 2 (by simp [STL_STATUS_STATE]))⟩
  · rw [State.packetRegs,
      State.get_put_beside _ _ (Nat.le_of_ble_eq_true rfl) (Nat.le_of_ble_eq_true rfl) (.inl (Nat.le_of_ble_eq_true rfl)),
      State.get_put_beside _ _ (Nat.le_of_ble_eq_true rfl) (Nat.le_of_ble_eq_true rfl) (.inr (Nat.le_of_ble_eq_true rfl)),
      State.bump, State.get_put_ne _ _ hcnt]
    exact State.get_put_same _ (STL_STATUS_LAST p) 1 (Nat.le_of_ble_eq_true rfl) (Nat.le_of_ble_eq_true rfl)
  · rw [State.packetRegs, State.test,
      State.get_put_beside _ _ (Nat.le_of_ble_eq_true rfl) (Nat.le_of_ble_eq_true rfl) (.inl (Nat.le_of_ble_eq_true rfl)),
      State.get_put_same _ (STL_STATUS_HOLDS p) 0 (Nat.le_of_ble_eq_true rfl) (Nat.le_of_ble_eq_true rfl)]
    rfl

/-- What the end of a packet changes: registers, the frame's mark, its descriptor, the stall and an acknowledgement's count. -/
theorem State.packetEnd_eq (s : State) (p : Nat) (f : Frame) : s.packetEnd p f =
    { s with
      regs := (s.packetRegs p).regs
      frame := (s.setFrame { f with last := true }).frame
      pools := (s.descSet (poolIx f.pool) f.idx .frame).pools
      stalls := (s.modStall p (fun x => { x with frame := none })).stalls
      link := { s.link with ack := s.link.ack.map (fun a => if a.frame == f.id then { a with endAt := some f.lastTick } else a) } } := rfl

theorem State.packetEnd_shows (s : State) {p : Nat} (f : Frame) :
    let t := s.packetEnd p f
    t.regs = (s.packetRegs p).regs ∧ t.desc (poolIx f.pool) f.idx = .frame ∧
      t.frame = (s.setFrame { f with last := true }).frame ∧ t.dma = s.dma ∧ s.memKept t ∧ t.cores = s.cores ∧
      (∀ a, t.link.ack = some a → a.frame = f.id → a.endAt = some f.lastTick) := by
  dsimp only
  rw [s.packetEnd_eq p f]
  refine ⟨rfl, ?_, rfl, rfl, State.memKept_of_tables rfl rfl rfl rfl, rfl, fun a ha hid => ?_⟩
  · have hpool : (s.descSet (poolIx f.pool) f.idx .frame).pool (poolIx f.pool) = { s.pool (poolIx f.pool) with
        st := tabSet descDflt (s.pool (poolIx f.pool)).st f.idx .frame } := Vector.getElem_set_self _
    show tabGet descDflt ((s.descSet (poolIx f.pool) f.idx .frame).pool (poolIx f.pool)).st f.idx = .frame
    rw [hpool]
    exact tabGet_set_same descDflt _ f.idx .frame
  · obtain ⟨a', -, rfl⟩ := Option.map_eq_some_iff.mp ha
    split at hid
    · next h => rw [if_pos h]
    · next h => exact absurd (by simpa using hid) h

/-- A frame whose acknowledgement counts from its last symbol leaves the link assists with no entry for the roll call. -/
theorem State.macDrop_ended {s : State} {id : Nat} (h : ∀ a, s.link.ack = some a → a.frame = id → a.endAt ≠ none) :
    ∃ l, s.macDrop id = { s with link := l } := by
  unfold State.macDrop
  dsimp only
  split
  · next a ha =>
    have hgone : (!a.fired && a.endAt.isNone && a.frame == id) = false := by
      by_cases hid : a.frame = id
      · rw [Option.isNone_eq_false_iff.mpr (Option.isSome_iff_ne_none.mpr (h a ha hid)), Bool.and_false, Bool.false_and]
      · rw [show (a.frame == id) = false by simpa using hid, Bool.and_false]
    exact ⟨_, if_neg (fun h => absurd ((Bool.and_eq_true _ _).mp h).1 (by rw [hgone]; exact Bool.false_ne_true))⟩
  · exact ⟨_, rfl⟩

/-- What completing a record sends: the buffer's bytes, words 1 to 7, and word 0 last (R188). -/
theorem State.complete_sends (s : State) (q : Fin 2) (i status pos : Nat) (hdr : W20) (r : SyncRec) {data : List Byte} (hdata : data ≠ []) :
    ∃ l, State.Sends 0 l s (s.complete q i status pos hdr r data) ∧ l.map (fun x => (x.addr, x.data)) =
      [(s.bufAt q i, data), (s.recAt q i + 3, recordBody data.length hdr r), (s.recAt q i, recordHead status q.val pos)] ∧
      (s.complete q i status pos hdr r data).pools = s.pools := by
  let a := s.dmaWrite 0 (s.bufAt q i) data (.part q.val i)
  let b := a.dmaWrite 0 (a.recAt q i + 3) (recordBody data.length hdr r) (.part q.val i)
  have ha := s.dmaWrite_sends 0 (s.bufAt q i) data (.part q.val i)
  have hb := a.dmaWrite_sends 0 (a.recAt q i + 3) (recordBody data.length hdr r) (.part q.val i)
  have hc := b.dmaWrite_sends 0 (a.recAt q i) (recordHead status q.val pos) (.record q.val i)
  have hrec : a.recAt q i = s.recAt q i := by rw [State.recAt, State.recAt, State.get, State.get, ha.rg]
  have hend : s.complete q i status pos hdr r data = b.dmaWrite 0 (a.recAt q i) (recordHead status q.val pos) (.record q.val i) := by
    rw [State.complete, List.isEmpty_eq_false_iff.mpr hdata, if_neg Bool.false_ne_true]
    rfl
  rw [hend]
  refine ⟨_, (ha.trans hb).trans hc, by simp [hrec], ?_⟩
  exact ((b.dmaPush_frame 0 _).1.trans (a.dmaPush_frame 0 _).1).trans (s.dmaPush_frame 0 _).1

theorem asMac_of_mode (s : State) {f : Frame} (h : f.mode = 1) : s.asMac f = false := by
  rw [State.asMac, h]
  simp

/-- A block of a frame that the link assists do not judge is recorded, and the frame settled. -/
theorem State.blockDone_mode {s : State} {id b : Nat} {f : Frame} (r : BlkRes) (h : s.frameOf id = some f) (hmode : f.mode = 1) :
    s.blockDone id b r = (s.setFrame { f with blocks := f.blocks.set b (some r) }).frameSettle id := by
  rw [State.blockDone, h]
  dsimp only
  rw [if_neg (fun hh => Bool.false_ne_true ((asMac_of_mode _ hmode).symm.trans hh.2.2))]

/-- A frame of one good block whose last symbol has come is released to its buffer and record. -/
theorem State.frameSettle_good {s : State} {id : Nat} {f : Frame} {data : List Byte} (hf : s.frameOf id = some f)
    (hlast : f.last = true) (hmode : f.mode = 1) (hblocks : f.blocks = [some (.good data)]) (hlen : data.length = f.len) :
    s.frameSettle id = ((s.frameEnd f.id).macDrop f.id).complete (poolIx f.pool) f.idx 0 f.pos f.hdr f.sync data := by
  have hdata : ([BlkRes.good data].flatMap (·.bytes)).take f.len = data := by
    show (data ++ []).take f.len = data
    rw [List.append_nil, List.take_of_length_le (Nat.le_of_eq hlen)]
  have hgood : s.frameGood f data = ((s.frameEnd f.id).macDrop f.id).complete (poolIx f.pool) f.idx 0 f.pos f.hdr f.sync data := by
    rw [State.frameGood]
    exact if_neg (fun h => Bool.false_ne_true ((asMac_of_mode _ hmode).symm.trans h))
  rw [State.frameSettle, hf]
  dsimp only
  rw [hblocks, hlast, if_neg (by simp)]
  show s.frameGood f (([BlkRes.good data].flatMap (·.bytes)).take f.len) = _
  rw [hdata, hgood]

/-- The only block of a frame whose last symbol has come, good and not for the link assists' judgement: the frame goes to
its buffer and its record. -/
theorem State.blockDone_whole {s : State} {f : Frame} {data : List Byte} (hf : s.frameOf f.id = some f) (hlast : f.last = true)
    (hmode : f.mode = 1) (hblocks : f.blocks = [none]) (hlen : data.length = f.len) (hdata : data ≠ [])
    (hack : ∀ a, s.link.ack = some a → a.frame = f.id → a.endAt ≠ none) :
    ∃ l, State.Sends 0 l s (s.blockDone f.id 0 (.good data)) ∧ l.map (fun x => (x.addr, x.data)) =
      [(s.bufAt (poolIx f.pool) f.idx, data), (s.recAt (poolIx f.pool) f.idx + 3, recordBody f.len f.hdr f.sync),
        (s.recAt (poolIx f.pool) f.idx, recordHead 0 (poolIx f.pool).val f.pos)] ∧
      (s.blockDone f.id 0 (.good data)).pools = s.pools := by
  let g : Frame := { f with blocks := [some (.good data)] }
  let t := (s.setFrame g).frameEnd f.id
  obtain ⟨lk, hdrop⟩ : ∃ lk, t.macDrop f.id = { t with link := lk } := State.macDrop_ended hack
  have hset : (s.setFrame g).frameOf f.id = some g := State.frameOf_setFrame (g := g) hf
  have hend : s.blockDone f.id 0 (.good data) = ({ t with link := lk } : State).complete (poolIx f.pool) f.idx 0 f.pos f.hdr f.sync data := by
    rw [State.blockDone_mode _ hf hmode, hblocks]
    show (s.setFrame g).frameSettle f.id = _
    rw [State.frameSettle_good hset hlast hmode rfl hlen]
    exact congrArg (fun u : State => u.complete (poolIx f.pool) f.idx 0 f.pos f.hdr f.sync data) hdrop
  obtain ⟨l, hsends, hl, hpools⟩ :=
    ({ t with link := lk } : State).complete_sends (poolIx f.pool) f.idx 0 f.pos f.hdr f.sync hdata
  rw [hend]
  rw [hlen] at hl
  exact ⟨l, ⟨hsends.queue, hsends.cipher, hsends.regs, hsends.mem, hsends.cores⟩, hl, hpools⟩

/-! ## Transmit slots (R216) -/

theorem exec_txSlotReadyWrite {s : State} {k : Fin 16} {v : W20} (hclk : s.clocked = true) (hready : s.test (FU_TX_CTL_READY k.val) = false) :
    exec (.txSlotReadyWrite k v) s = .next (let u := s.setRg (FU_TX_CTL k.val) (v &&& 0x3FFE0)
      if !v.getLsbD 19 then u else if u.txValid k.val then u.put (FU_TX_CTL_READY k.val) 1 else u.raise FU_FLAGS_CFG_REFUSED) := by
  show execTxSlotReadyWrite k v s = _
  rw [execTxSlotReadyWrite, State.during, if_pos hclk, State.txCtl]
  dsimp only
  rw [hready, if_neg Bool.false_ne_true]

/-- What a write of FU_TXk_CTL stores leaves READY 0. -/
theorem txCtl_ready_zero (s : State) (k : Nat) (v : W20) :
    (s.setRg (FU_TX_CTL k) (v &&& 0x3FFE0)).test (FU_TX_CTL_READY k) = false := by
  show (fieldGet ((s.setRg (FU_TX_CTL k) (v &&& 0x3FFE0)).rg (FU_TX_CTL k)) 19 19 != 0) = false
  rw [State.rg_setRg_same]
  have : (v &&& 0x3FFE0#20).toNat ≤ 0x3FFE0 := by
    rw [BitVec.toNat_and]
    exact Nat.and_le_right
  have hzero : (v &&& 0x3FFE0).toNat >>> 19 = 0 := by
    rw [Nat.shiftRight_eq_div_pow]
    exact Nat.div_eq_of_lt (Nat.lt_of_le_of_lt this (by decide))
  rw [fieldGet, hzero]
  rfl

end Sys2Proof.Machine
end

section
set_option Elab.async false

namespace Sys2Proof.Machine

/-- The state of a decode whose check failed, before its block is decided. -/
def State.decodeFailed (s : State) (f : Frame) (j : Job) (iters : Nat) (bits : List Bool) : State :=
  ((s.decoded f j iters bits false).bump FU_CNT0_BLKFAIL).raise FU_FLAGS_BLOCK_FAIL

theorem State.decodeFailed_shows (s : State) (f : Frame) (j : Job) (iters : Nat) (bits : List Bool) :
    let t := s.decodeFailed f j iters bits
    t.frame.running = none ∧ t.frame.frames = s.frame.frames ∧ t.test FU_FLAGS_BLOCK_FAIL = true ∧ s.Still t := by
  obtain ⟨hnone, hframes, hw, -, -⟩ := s.decoded_shows f j iters bits false
  have hfr : (s.decodeFailed f j iters bits).frame = (s.decoded f j iters bits false).frame := State.raise_frame _ _
  exact ⟨by rw [hfr]; exact hnone, by rw [hfr]; exact hframes, State.raise_self _ _ (by decide) (by decide),
    hw.still.trans ((State.Still.put _ _ _).trans (State.Still.raise _ _))⟩

/-- A frame set changes only the unit's frames. -/
theorem State.setFrame_shows (s : State) (g : Frame) : (s.setFrame g).frame.running = s.frame.running ∧ (s.setFrame g).regs = s.regs ∧
    (s.setFrame g).cores = s.cores ∧ s.memKept (s.setFrame g) := ⟨rfl, rfl, rfl, State.memKept_of_tables rfl rfl rfl rfl⟩

theorem State.frameOf_setBlocks {s : State} {id : Nat} {f : Frame} (h : s.frameOf id = some f) (l : List (Option BlkRes)) :
    (s.setFrame { f with blocks := l }).frameOf id = some { f with blocks := l } := by
  have hid := State.frameOf_id h
  subst hid
  exact State.frameOf_setFrame (g := { f with blocks := l }) h

/-- The start of the decode of the only job. -/
def State.decodeFirst (s : State) (j : Job) : State :=
  s.modFrames (fun u => { u with
    jobs := [], running := some j, begun := s.tick, dead := none
    iter := if s.get DEC_CTL_ITER = 0 then 16 else s.get DEC_CTL_ITER })

theorem exec_decodeStart {s : State} {j : Job} (hin : s.inRun = true) (hrun : s.frame.running = none) (hholds : s.holds 3 = true)
    (hjobs : s.frame.jobs = [j]) : exec .decodeStart s = .next (s.decodeFirst j) := by
  have hnone : s.frame.jobs.filter (· != j) = [] := by
    rw [hjobs, List.filter_cons_of_neg (by simp)]
    rfl
  show execDecodeStart s = _
  rw [execDecodeStart, State.during, if_pos hin, hrun, hholds, if_neg (by simp), State.nextJob_one hjobs]
  dsimp only
  rw [State.decodeFirst, State.modFrames, State.modFrames, hnone] <;> rfl

/-- Settles O37: each operation of the frame unit by its cases; a frame set is found again by its number, and what a packet's end leaves of
an acknowledgement makes no entry for the roll call. -/
theorem frameUnitEffects : Obligations.FrameUnitEffects := by
  unfold Obligations.FrameUnitEffects
  intro s
  refine ⟨fun p id f soft hin hframe hid hhead hst htick => ?header, fun p f soft hin hf htick hroom => ?block,
    fun j hin hrun hholds hjobs => ?start, fun j f iters inf par hin hrun hdead hf hlast hb hiters htime => ?done,
    fun j f iters inf par hin hrun hdead hf htime => ?early, fun b hin hidle hb hrun hjobs hhold => ?idle, fun hold hclk => ?hold,
    fun p f body hin hf htick hlast hsun hrate hmode hblocks hlen hpool => ?packet, fun k v hclk hready => ⟨fun hv => ?slot, fun hv => ⟨fun hok => ?ready, fun hbad => ?refused⟩⟩⟩
  case header =>
    have hexec := exec_headerReceived (soft := soft) hin hframe hid hhead hst htick
    have hst' : s.Still s.decided := ⟨State.memKept_of_tables rfl rfl rfl rfl, fun _ => rfl⟩
    intro at_ v size j
    have hj : j = s.headerJudge f soft := by
      simp only [j, v, size, at_, State.headerJudge, State.headerValue, headerSoft]
    have hv : v = s.headerValue f soft := rfl
    refine ⟨fun h => ?_, fun h => ?_, fun len rate bs mode h hjobs => ?_⟩
    · obtain ⟨hstate, hflag, hstill⟩ := s.decided.headerBad_shows p.val
      rw [← hj, h] at hexec
      exact ⟨_, hexec, hstate, hflag, (hst'.trans hstill).mem, (hst'.trans hstill).cores⟩
    · obtain ⟨hstate, hlast, hflag, hstill⟩ := s.decided.oversize_shows p.val
      rw [← hj, h] at hexec
      exact ⟨_, hexec, hstate, hlast, hflag, (hst'.trans hstill).mem, (hst'.trans hstill).cores⟩
    · rw [← hj, h] at hexec
      dsimp only at hexec
      rw [State.headerOk_eq (s := s.decided) _ _ _ _ _ hjobs] at hexec
      have hfid := State.frameOf_id hid
      refine ⟨_, hexec, ?_, rfl, State.memKept_of_tables rfl rfl rfl rfl, rfl⟩
      rw [hv]
      subst hfid
      exact State.frameOf_setFrame (s := s.decided) (f := f) hid
  case block =>
    let u := (s.setFrame { f with queued := f.queued + 1 }).modFrames
      (fun u => { u with jobs := u.jobs ++ [⟨f.id, f.queued, f.pos, s.tick, false, soft⟩], idleAt := none })
    have hm := u.mangerOnly_ask 0 [3]
    have hpos : f.pos = p.val := by
      have := List.find?_some (show s.frame.frames.find? _ = some f from hf)
      simp only [Bool.and_eq_true, beq_iff_eq] at this
      exact this.1.1.1
    have hfr : (u.ask 0 [3]).frame = u.frame := by rw [hm]
    have hslot : (if f.queued + 1 < f.blocks.length then (u.ask 0 [3]).slotNeeded p.val else u.ask 0 [3]) = u.ask 0 [3] := by
      split
      · next hlt =>
        refine State.slotNeeded_free ?_
        have h2 : (s.jobsOf p.val).length < 2 := hroom.resolve_left (Nat.ne_of_lt hlt)
        rw [State.jobsOf, hfr]
        show (List.filter _ s.frame.running.toList ++ (s.frame.jobs ++ [_]).filter _).length < 3
        rw [State.jobsOf, List.length_append] at h2
        rw [List.length_append, List.filter_append, List.length_append, List.filter_cons_of_pos (by show (f.pos == p.val) = true; rw [hpos]; exact beq_self_eq_true _)]
        simp only [List.filter_nil, List.length_cons, List.length_nil]
        show (List.filter (fun j => j.pos == p.val && s.frame.dead.isNone) s.frame.running.toList).length + _ < 3
        omega
      · rfl
    obtain ⟨g, hg⟩ := State.frameOf_of_mem (List.mem_of_find?_eq_some (show s.frame.frames.find? _ = some f from hf))
    refine ⟨u.ask 0 [3], ?_, by rw [hfr]; rfl, ?_, u.ask_one 0 3, hm.regs, ?_, hm.cores⟩
    · show execBlockQueued p s soft = _
      rw [execBlockQueued, State.during, if_pos hin, hf]
      dsimp only
      rw [if_neg (Nat.not_lt.mpr htick)]
      exact congrArg Host.Outcome.next hslot
    · rw [State.frameOf, hfr]
      exact State.frameOf_setFrame (s := s) (f := g) (g := { f with queued := f.queued + 1 }) hg
    · exact (State.memKept_of_tables (s := s) (t := u) rfl rfl rfl rfl).trans hm.memKept
  case start =>
    exact ⟨_, exec_decodeStart hin hrun hholds hjobs, rfl, rfl, rfl, rfl, rfl, State.memKept_of_tables rfl rfl rfl rfl, rfl⟩
  case done =>
    intro bits zero k info hends
    have hexec := exec_decodeDone (inf := inf) (par := par) (iters := iters) hin hrun hdead hf
    dsimp only at hexec
    have hgo : ¬(s.frame.iter < iters ∨ (!((1 ≤ iters && zero || iters == s.frame.iter) &&
        48 * (40 + iters * iterCycles f.rate) ≤ 125 * (s.tick - s.frame.begun))) = true) := by
      have hz : (1 ≤ iters && zero || iters == s.frame.iter) = true := by
        rcases hends with ⟨h1, h2⟩ | h
        · rw [h2]; simp [h1]
        · simp [h]
      rw [hz]
      simp [Nat.not_lt.mpr hiters, htime]
    rw [if_neg hgo, State.decodeEnd_eq iters _ hdead] at hexec
    refine ⟨fun hcrc => ?_, fun hcrc => ?_⟩
    · obtain ⟨hnone, hframes, hw, hcores, hrg⟩ := s.decoded_shows f j iters bits true
      have hfo : (s.decoded f j iters bits true).frameOf j.frame = some f := by rw [State.frameOf, hframes]; exact hf
      rw [if_pos hcrc, State.blockDone_eq _ hfo hlast hb] at hexec
      generalize s.decoded f j iters bits true = u at *
      exact ⟨_, hexec, State.frameOf_setBlocks hfo _, hnone, hrg, hw.regs, hw.still.mem, hcores⟩
    · obtain ⟨hnone, hframes, hflag, hstill⟩ := s.decodeFailed_shows f j iters bits
      have hfo : (s.decodeFailed f j iters bits).frameOf j.frame = some f := by rw [State.frameOf, hframes]; exact hf
      rw [if_neg hcrc] at hexec
      change _ = Host.Outcome.next ((s.decodeFailed f j iters bits).blockDone _ _ _) at hexec
      rw [State.blockDone_eq _ hfo hlast hb] at hexec
      generalize s.decodeFailed f j iters bits = u at *
      obtain ⟨h1, h2, h3, h4⟩ := u.setFrame_shows { f with blocks := f.blocks.set j.block (some (.crcBad (info.take (k - 3)))) }
      refine ⟨_, hexec, State.frameOf_setBlocks hfo _, h1.trans hnone, ?_, hstill.mem.trans h4, fun c => ?_⟩
      · rw [← hflag]
        exact State.test_of_rg (by rw [State.rg, State.rg, h2])
      · rw [← hstill.cores c, State.core, State.core, h3]
  case early =>
    rw [exec_decodeDone hin hrun hdead hf]
    dsimp only
    rw [decide_eq_false (Nat.not_le.mpr htime), Bool.and_false, if_pos (.inr rfl)]
  case idle =>
    let u := s.modFrames (fun u => { u with idleAt := none })
    have hm := u.mangerOnly_drop [3]
    refine ⟨u.drop [3], ?_, u.drop_holds 3, rfl, rfl, (State.memKept_of_tables (s := s) (t := u) rfl rfl rfl rfl).trans hm.memKept, rfl⟩
    show execDecoderIdle s = _
    rw [execDecoderIdle, State.during, if_pos hin, hidle]
    dsimp only
    rw [if_neg (by simp [hb, hrun, hjobs])]
    show Host.Outcome.next (if s.test DEC_CTL_HOLD = true then u else u.drop [3]) = _
    rw [hhold, if_neg Bool.false_ne_true]
  case hold =>
    let u := s.put DEC_CTL_HOLD (bit hold)
    have hu : s.Within [DEC_CTL] u := State.Within.put s (f := DEC_CTL_HOLD) _ (List.mem_singleton_self _)
    have htest : u.test DEC_CTL_HOLD = hold := by
      rw [State.test, State.get_put_same s DEC_CTL_HOLD (bit hold) (by decide) (by decide)]
      cases hold <;> rfl
    have hexec : exec (.decHoldWrite hold) s = .next (if hold then u.ask 0 [3] else u.decIdle) := if_pos hclk
    cases hold with
    | true =>
      have hm := u.mangerOnly_ask 0 [3]
      exact ⟨_, hexec, (hm.test _).trans htest, fun _ => u.ask_one 0 3, (hu.trans (State.Within.manger hm)).regs,
        (hu.trans (State.Within.manger hm)).still.mem, hm.cores⟩
    | false =>
      obtain ⟨-, hregs, hcores, -⟩ := u.decIdle_shows
      refine ⟨u.decIdle, hexec, (State.test_of_rg (by rw [State.rg, State.rg, hregs])).trans htest, fun h => absurd h (by decide), fun a ha => ?_,
        (hu.still.trans u.still_decIdle).mem, hcores⟩
      show u.decIdle.rg a = s.rg a
      rw [State.rg, hregs]
      exact hu.regs a ha
  case packet =>
    intro all q hall hcrc
    obtain ⟨hlast1, hholds, hw⟩ := s.packetRegs_shows p.val
    obtain ⟨hregs, hdesc, hfr, hdma, hmem, hcores, hack⟩ := s.packetEnd_shows (p := p.val) f
    have hsame : ∀ x : Field, (s.packetEnd p.val f).get x = (s.packetRegs p.val).get x := fun x => by
      rw [State.get, State.get, State.rg, State.rg, hregs]
    obtain ⟨g, hg⟩ := State.frameOf_of_mem (List.mem_of_find?_eq_some (show s.frame.frames.find? _ = some f from hf))
    let f' : Frame := { f with last := true }
    have hfo : (s.packetEnd p.val f).frameOf f'.id = some f' := by
      rw [State.frameOf, hfr]
      exact State.frameOf_setFrame (s := s) (f := g) (g := f') hg
    have hlen' : (all.take f.len).length = f.len := by rw [List.length_take, hall]; omega
    have hne : all.take f.len ≠ [] := fun h => hlen (by rw [h] at hlen'; exact hlen'.symm)
    obtain ⟨l, hsends, hl, hpools⟩ := State.blockDone_whole (f := f') hfo rfl hmode hblocks hlen' hne
      (fun a ha hid h => by rw [hack a ha hid] at h; cases h)
    have hexec : exec (.packetReceived p body) s = .next ((s.packetEnd p.val f).blockDone f'.id 0 (.good (all.take f.len))) := by
      show execPacketReceived p body s = _
      rw [execPacketReceived, State.during, if_pos hin, hf]
      dsimp only
      rw [if_neg (Nat.not_lt.mpr htick), hlast, if_neg Bool.false_ne_true, hsun, if_neg Bool.false_ne_true, hrate, if_pos rfl,
        State.rawBody]
      exact congrArg Host.Outcome.next (if_pos ⟨hall, hcrc⟩)
    have hbuf : (s.packetEnd p.val f).bufAt q f.idx = s.bufAt q f.idx := by
      rw [State.bufAt, State.bufAt, State.bufSize, State.bufSize, hsame, hsame, hw.get, hw.get]
      all_goals simp only [STL_STATUS, STL_CNT0, STC_POOL_CFG_SIZE, STC_POOL_CFG, STC_POOL_BUF_BASE, STC_POOL_BUF, List.mem_cons, List.not_mem_nil, or_false]; omega
    have hrec : (s.packetEnd p.val f).recAt q f.idx = s.recAt q f.idx := by
      rw [State.recAt, State.recAt, hsame, hw.get]
      simp only [STL_STATUS, STL_CNT0, STC_POOL_DESC_BASE, STC_POOL_DESC, List.mem_cons, List.not_mem_nil, or_false]; omega
    refine ⟨_, hexec, ?_, ?_, ?_, ?_, hmem.trans hsends.mem, hsends.cores.trans hcores⟩
    · rw [State.get, hsends.rg]
      exact (hsame _).trans hlast1
    · rw [hsends.test, State.test, hsame]
      exact hholds
    · rw [State.desc, State.pool, hpools]
      exact hdesc
    · rw [hsends.queue, List.map_append, hl, hdma]
      show _ ++ [((s.packetEnd p.val f).bufAt q f.idx, _), ((s.packetEnd p.val f).recAt q f.idx + 3, _), ((s.packetEnd p.val f).recAt q f.idx, _)] = _
      rw [hbuf, hrec]
  case slot =>
    rw [exec_txSlotReadyWrite hclk hready, hv]
    rfl
  case ready =>
    rw [exec_txSlotReadyWrite hclk hready, hv]
    exact congrArg Host.Outcome.next (if_pos hok)
  case refused =>
    have hexec := exec_txSlotReadyWrite (k := k) (v := v) hclk hready
    dsimp only at hexec
    rw [hv, hbad, Bool.not_true, if_neg Bool.false_ne_true, if_neg Bool.false_ne_true] at hexec
    have hne : FU_TX_CTL k.val ≠ FU_FLAGS := by simp only [FU_TX_CTL, FU_FLAGS]; omega
    have hw : s.Within [FU_TX_CTL k.val, FU_FLAGS] ((s.setRg (FU_TX_CTL k.val) (v &&& 0x3FFE0)).raise FU_FLAGS_CFG_REFUSED) :=
      (State.Within.setRg s (a := FU_TX_CTL k.val) _ (by simp)).trans (State.Within.raise _ (f := FU_FLAGS_CFG_REFUSED) (by simp [FU_FLAGS_CFG_REFUSED]))
    refine ⟨_, hexec, State.raise_self _ _ (by decide) (by decide), ?_, hw.regs, hw.still.mem, hw.still.cores⟩
    rw [State.test, State.raise_get_ne _ _ hne]
    exact txCtl_ready_zero s k.val v

end Sys2Proof.Machine
end

section
/-! SUPPORT. What the stalls' following of their conditions keeps (R170-R185): every register of the radio, the power unit and
the configuration, the manger, and the radio itself but where a fatal report cuts it. -/

set_option Elab.async false

namespace Sys2Proof.Machine

/-- The radio once a fatal report has cut the driver. -/
def Radio.cut (r : Radio) : Radio := { r with tx := none, pa := none, pins := 0 }

/-- A register that a step of a stall writes. -/
def stallReg (a : Nat) : Prop :=
  a = CONS_DESC ∨ (0xC2000 ≤ a ∧ a < 0xC3000) ∨ a = STC_STATE ∨ a = STC_FLAGS ∨ (0xCB000 ≤ a ∧ a < 0xCC000 ∧ a % 64 ≠ 0) ∨
    0xCD000 ≤ a

/-- A field that no step of a stall and no report's repeat counter writes. -/
def calmField (f : Field) : Prop :=
  (f.reg < 0xC2000 ∨ 0xC3000 ≤ f.reg ∧ f.reg < 0xCC000 ∧ (f.reg % 16 ≠ 0 ∨ f.hi < 10 ∨ 13 < f.lo)) ∧ ¬ stallReg f.reg

/-- `t` is `s` after steps of its stalls. -/
structure State.Follows (s t : State) : Prop where
  still  : s.Still t
  tick   : t.tick = s.tick
  mesh   : t.mesh = s.mesh
  manger : t.manger = s.manger
  power  : t.power = s.power
  sched  : t.sched = s.sched
  fatal  : s.faults.fatalAt.isSome → t.faults.fatalAt.isSome
  radio  : t.radio = s.radio ∨ (t.radio = s.radio.cut ∧ t.faults.fatalAt.isSome)
  get    : ∀ f : Field, calmField f → t.get f = s.get f
  idle   : s.radio.tx = none → ∀ k < 8, t.get (FU_TX_CTL_SENDING k) = s.get (FU_TX_CTL_SENDING k)
  mapped : ∀ p < 48, t.mapped p = s.mapped p

namespace State.Follows

variable {s t u : State}

theorem rfl' (s : State) : s.Follows s := ⟨State.Still.rfl' s, rfl, rfl, rfl, rfl, rfl, id, .inl rfl, fun _ _ => rfl, fun _ _ _ => rfl,
  fun _ _ => rfl⟩

theorem tx (h : s.Follows t) (hs : s.radio.tx = none) : t.radio.tx = none := by
  rcases h.radio with hr | ⟨hr, -⟩ <;> rw [hr]
  · exact hs
  · rfl

theorem trans (h : s.Follows t) (g : t.Follows u) : s.Follows u where
  still := h.still.trans g.still
  tick := g.tick.trans h.tick
  mesh := g.mesh.trans h.mesh
  manger := g.manger.trans h.manger
  power := g.power.trans h.power
  sched := g.sched.trans h.sched
  fatal := fun hf => g.fatal (h.fatal hf)
  radio := by
    rcases h.radio with hr | ⟨hr, hf⟩ <;> rcases g.radio with gr | ⟨gr, gf⟩
    · exact .inl (gr.trans hr)
    · exact .inr ⟨by rw [gr, hr], gf⟩
    · exact .inr ⟨gr.trans hr, g.fatal hf⟩
    · exact .inr ⟨by rw [gr, hr]; rfl, gf⟩
  get := fun f hf => (g.get f hf).trans (h.get f hf)
  idle := fun hs k hk => (g.idle (h.tx hs) k hk).trans (h.idle hs k hk)
  mapped := fun p hp => (g.mapped p hp).trans (h.mapped p hp)

theorem test (h : s.Follows t) {f : Field} (hf : calmField f) : t.test f = s.test f := by
  rw [State.test, State.test, h.get f hf]

/-- A register all of whose fields are calm. -/
theorem rg (h : s.Follows t) {a : Nat} (ha : calmField ⟨a, 19, 0⟩) : t.rg a = s.rg a := by
  have hget := h.get _ ha
  apply BitVec.eq_of_toNat_eq
  have hval : ∀ u : State, u.get ⟨a, 19, 0⟩ = (u.rg a).toNat := fun u => Nat.mod_eq_of_lt (u.rg a).isLt
  rw [← hval, ← hval, hget]

/-- The register of a position's lane is none that a stall writes. -/
theorem lane_ne {p a : Nat} (hp : p < 48) (h : stallReg a ∨ 0xCC000 ≤ a) : (laneOf p).reg ≠ a := by
  show 0xCA040 + 4 * (p / 3) ≠ a
  simp only [stallReg, CONS_DESC, STC_STATE, STC_FLAGS] at h
  omega

theorem mapped_of_get {p : Nat} (h : t.get (laneOf p) = s.get (laneOf p)) : t.mapped p = s.mapped p := by
  rw [State.mapped, State.mapped, h]

/-- Only registers that a stall may write differ, and the frames, links, pools and stalls. -/
theorem of_put {f : Field} (n : Nat) (hf : stallReg f.reg) : s.Follows (s.put f n) where
  still := State.Still.put _ _ _
  tick := rfl
  mesh := rfl
  manger := rfl
  power := rfl
  sched := rfl
  fatal := id
  radio := .inl rfl
  get := fun g hg => State.get_put_ne s n (fun h => hg.2 (h ▸ hf))
  idle := fun _ k hk => State.get_put_ne s n (fun h => by
    have hreg : f.reg = 0xCC100 + 16 * k := h.symm
    simp only [stallReg, CONS_DESC, STC_STATE, STC_FLAGS] at hf
    omega)
  mapped := fun _ hp => mapped_of_get (State.get_put_ne s n (lane_ne hp (.inl hf)))

theorem of_raise {f : Field} (hf : stallReg f.reg) : s.Follows (s.raise f) where
  still := State.Still.raise _ _
  tick := State.raise_tick _ _
  mesh := State.raise_mesh _ _
  manger := State.raise_manger _ _
  power := State.raise_power _ _
  sched := State.raise_sched _ _
  fatal := by rw [State.raise_faults]; exact id
  radio := .inl (State.raise_radio _ _)
  get := fun g hg => State.raise_get_ne f s (fun h => hg.2 (h ▸ hf))
  idle := fun _ k hk => State.raise_get_ne f s (fun h => by
    have hreg : f.reg = 0xCC100 + 16 * k := h.symm
    simp only [stallReg, CONS_DESC, STC_STATE, STC_FLAGS] at hf
    omega)
  mapped := fun _ hp => mapped_of_get (State.raise_get_ne f s (lane_ne hp (.inl hf)))

/-- Parts of the state that a stall's steps may change, and nothing else of it. -/
theorem of_parts {s t : State} (hregs : t.regs = s.regs) (hsram : t.sram = s.sram) (hpram : t.pram = s.pram)
    (hloft : t.loft = s.loft) (hflash : t.flash = s.flash) (hcores : t.cores = s.cores) (htick : t.tick = s.tick)
    (hmesh : t.mesh = s.mesh) (hmanger : t.manger = s.manger) (hpower : t.power = s.power) (hsched : t.sched = s.sched)
    (hfaults : t.faults = s.faults) (hradio : t.radio = s.radio) : s.Follows t where
  still := ⟨State.memKept_of_tables hsram hpram hloft hflash, fun c => by rw [State.core, State.core, hcores]⟩
  tick := htick
  mesh := hmesh
  manger := hmanger
  power := hpower
  sched := hsched
  fatal := by rw [hfaults]; exact id
  radio := .inl hradio
  get := fun f _ => by rw [State.get, State.get, State.rg, State.rg, hregs]
  idle := fun _ k _ => by rw [State.get, State.get, State.rg, State.rg, hregs]
  mapped := fun _ _ => mapped_of_get (by rw [State.get, State.get, State.rg, State.rg, hregs])

theorem ite {p : Prop} [Decidable p] (ht : s.Follows t) (hu : s.Follows u) : s.Follows (if p then t else u) := by
  split <;> assumption

end State.Follows

/-! ## Reports and the cut of a fatal one -/

theorem State.follows_modFrames (s : State) (f : FrameUnit → FrameUnit) : s.Follows (s.modFrames f) :=
  State.Follows.of_parts rfl rfl rfl rfl rfl rfl rfl rfl rfl rfl rfl rfl rfl

theorem State.follows_modLink (s : State) (f : Link → Link) : s.Follows (s.modLink f) :=
  State.Follows.of_parts rfl rfl rfl rfl rfl rfl rfl rfl rfl rfl rfl rfl rfl

theorem State.follows_modStall (s : State) (p : Nat) (f : StallH → StallH) : s.Follows (s.modStall p f) :=
  State.Follows.of_parts rfl rfl rfl rfl rfl rfl rfl rfl rfl rfl rfl rfl rfl

/-- A committed header of a source's code has lanes other than 63 in its two upper lane fields. -/
theorem lanes_of_header {n : Nat} (hcommit : n >>> 16 % 16 = 10) (hcode : n >>> 0 % 256 < 64) :
    n >>> 6 % 64 ≠ 63 ∧ n >>> 12 % 64 ≠ 63 := by
  simp only [Nat.shiftRight_eq_div_pow] at *
  omega

theorem State.mapped_of_header {s : State} {k p : Nat} (hreg : (laneOf p).reg = FLT_E_HDR k) (hp : p % 3 ≠ 0)
    (hcommit : s.get (FLT_E_HDR_COMMIT k) = 10) (hcode : s.get (FLT_E_HDR_CODE k) < 64) : s.mapped p = true := by
  obtain ⟨h1, h2⟩ := lanes_of_header (n := (s.rg (FLT_E_HDR k)).toNat) hcommit hcode
  have hget : s.get (laneOf p) = (s.rg (FLT_E_HDR k)).toNat >>> (6 * (p % 3)) % 2 ^ (6 * (p % 3) + 5 + 1 - 6 * (p % 3)) := by
    rw [State.get, hreg]
    rfl
  have hcase : p % 3 = 1 ∨ p % 3 = 2 := by omega
  rw [State.mapped, hget, bne_iff_ne]
  rcases hcase with h | h <;> rw [h]
  · exact h1
  · exact h2

/-- The counter of an entry of the log, whichever register it is taken to be, shares no bit with a calm field. -/
theorem State.follows_repeat (s : State) {k : Nat} (hcommit : s.committed k = true) (hcode : s.get (FLT_E_HDR_CODE k) < 64) : s.Follows (s.bump (FLT_E_HDR_REPEAT k)) where
  still := State.Still.put _ _ _
  tick := rfl
  mesh := rfl
  manger := rfl
  power := rfl
  sched := rfl
  fatal := id
  radio := .inl rfl
  get := fun f hf => by
    by_cases hreg : f.reg = FLT_E_HDR k
    · refine State.get_put_other s _ (Nat.le_of_ble_eq_true rfl) (Nat.le_of_ble_eq_true rfl) (.inr ?_)
      obtain ⟨hf, -⟩ := hf
      simp only [FLT_E_HDR] at hreg
      show f.hi < 10 ∨ 13 < f.lo
      omega
    · exact State.get_put_ne s _ hreg
  idle := fun _ j _ => State.get_put_other s _ (Nat.le_of_ble_eq_true rfl) (Nat.le_of_ble_eq_true rfl)
    (.inr (.inr (Nat.le_of_ble_eq_true rfl)))
  mapped := fun p _ => by
    have hother : ∀ f : Field, f.hi < 10 ∨ 13 < f.lo → (s.bump (FLT_E_HDR_REPEAT k)).get f = s.get f := fun f hf =>
      State.get_put_other s _ (Nat.le_of_ble_eq_true rfl) (Nat.le_of_ble_eq_true rfl) (.inr hf)
    by_cases hreg : (laneOf p).reg = FLT_E_HDR k
    · by_cases hp : p % 3 = 0
      · exact State.Follows.mapped_of_get (hother _ (.inl (by show 6 * (p % 3) + 5 < 10; omega)))
      · have hc : s.get (FLT_E_HDR_COMMIT k) = 10 := by simpa [State.committed] using hcommit
        rw [State.mapped_of_header hreg hp hc hcode, State.mapped_of_header hreg hp
          ((hother _ (.inr (Nat.le_of_ble_eq_true rfl))).trans hc)
          (by rw [hother _ (.inl (Nat.le_of_ble_eq_true rfl))]; exact hcode)]
    · exact State.Follows.mapped_of_get (State.get_put_ne s _ hreg)

theorem State.follows_commitEntry (s : State) {k : Nat} (hk : k < 16) (cls code : Nat) (d : W20) : s.Follows (s.commitEntry k cls code d) := by
  have hset : ∀ (u : State) (a : Nat) (v : W20), 0xC2000 ≤ a → a < 0xC3000 → u.Follows (u.setRg a v) := fun u a v h1 h2 =>
    { still := State.Still.setRg _ _ _, tick := rfl, mesh := rfl, manger := rfl, power := rfl, sched := rfl, fatal := id, radio := .inl rfl
      get := fun f hf => by
        rw [State.get, State.get, State.rg_setRg_ne u v (fun (h : f.reg = a) => hf.2 (.inr (.inl (by rw [h]; exact ⟨h1, h2⟩))))]
      idle := fun _ k _ => by
        rw [State.get, State.get, State.rg_setRg_ne u v (fun h => by
          have : 0xCC100 + 16 * k = a := h
          omega)]
      mapped := fun p hp => State.Follows.mapped_of_get (by
        rw [State.get, State.get, State.rg_setRg_ne u v (State.Follows.lane_ne hp (.inl (.inr (.inl ⟨h1, h2⟩))))]) }
  have hend : s.Follows (((s.setRg (FLT_E_DET k) d).set40 (FLT_E_TLO k) (FLT_E_THI k) s.mesh).setRg (FLT_E_HDR k)
      (BitVec.ofNat 20 (0b1010 * 2 ^ 16 + cls * 2 ^ 14 + code))) := by
    refine ((hset _ _ _ ?_ ?_).trans ((hset _ _ _ ?_ ?_).trans (hset _ _ _ ?_ ?_))).trans (hset _ _ _ ?_ ?_)
    all_goals simp only [FLT_E_DET, FLT_E_TLO, FLT_E_THI, FLT_E_HDR]; omega
  exact ⟨⟨hend.still.mem, hend.still.cores⟩, rfl, rfl, rfl, rfl, rfl, hend.fatal, .inl rfl, hend.get, hend.idle, hend.mapped⟩

theorem State.follows_logReport (s : State) {code : Nat} (hcode : code < 35) (d : W20) : s.Follows (s.logReport code d) := by
  have hlost (cls : Nat) (hc : cls < 3) : stallReg (lostField cls).reg := .inr (.inl (by simp only [lostField, FLT_LOST]; omega))
  have hcls : faultClass code < 3 := by unfold faultClass; split_ifs <;> decide
  have hflag : ∀ (u : State) (f : Field), f.reg = FLT_FLAGS → u.Follows (u.raise f) := fun u f h =>
    State.Follows.of_raise (.inr (.inl (by rw [h]; decide)))
  unfold State.logReport
  dsimp only
  split
  · split
    · next k hlast =>
      have hfind := List.find?_some (show s.faults.order.find? _ = some k from hlast)
      obtain ⟨hc, hk⟩ := (Bool.and_eq_true _ _).mp hfind
      exact s.follows_repeat hc (by rw [eq_of_beq hk]; omega)
    · exact State.Follows.rfl' s
  · split
    · split
      next k hfree =>
        have hk : k < 16 := by
          have := List.mem_of_find?_eq_some hfree
          rw [List.mem_range] at this
          split at this <;> omega
        exact State.Follows.ite ((s.follows_commitEntry hk _ _ _).trans (hflag _ _ rfl)) (s.follows_commitEntry hk _ _ _)
      next => exact (State.Follows.of_put _ (hlost _ hcls)).trans (hflag _ _ rfl)
    · exact State.Follows.rfl' s

/-- The slot that was sending when a fatal report came no longer does. -/
def State.sendCut (s : State) : State :=
  match s.radio.tx with
  | some x => (s.put (FU_TX_CTL_SENDING x.slot) 0).setRg FU_TXBUSY 0
  | none => s

/-- The radio is cut, and the frame being sent is lost. -/
def State.radioCut (s : State) : State := { s with radio := s.radio.cut, frame := { s.frame with tx := none } }

/-- The bypass of the chord is open and no port is in line. -/
def State.bypassed (s : State) : State := ((s.put CHD_STATE_BYPASS 1).put CHD_STATE_INA 0).put CHD_STATE_INB 0

/-- A fatal sequence has begun. -/
def State.fatalSet (s : State) : State := { s with faults := { s.faults with fatalAt := some (s.faults.fatalAt.getD s.tick) } }

theorem State.fatalCut_eq (s : State) : s.fatalCut = s.sendCut.radioCut.bypassed.fatalSet := rfl

theorem State.still_sendCut (s : State) : s.Still s.sendCut := by
  unfold State.sendCut
  split
  · exact (State.Still.put _ _ _).trans (State.Still.setRg _ _ _)
  · exact State.Still.rfl' s

/-- Only registers differ. -/
theorem State.sendCut_eq (s : State) : ∃ l, s.sendCut = { s with regs := l } := by
  unfold State.sendCut
  split
  · exact ⟨_, rfl⟩
  · exact ⟨s.regs, rfl⟩

theorem State.sendCut_get (s : State) {f : Field} (hslot : ∀ k, f.reg ≠ FU_TX_CTL k) (hbusy : f.reg ≠ FU_TXBUSY) :
    s.sendCut.get f = s.get f := by
  unfold State.sendCut
  split
  · next x _ =>
    rw [State.get, State.rg_setRg_ne _ _ hbusy]
    exact State.get_put_ne s 0 (hslot x.slot)
  · rfl

theorem State.follows_fatalCut (s : State) : s.Follows s.fatalCut := by
  obtain ⟨l, hl⟩ := s.sendCut_eq
  have hbypass : ∀ (u : State) (f : Field), f.reg ≠ CHD_STATE → u.bypassed.get f = u.get f := fun u f hf => by
    rw [State.bypassed, State.get_put_ne _ _ hf, State.get_put_ne _ _ hf, State.get_put_ne _ _ hf]
  have hcut : ∀ u : State, u.Still u.radioCut := fun _ => ⟨State.memKept_of_tables rfl rfl rfl rfl, fun _ => rfl⟩
  have hset : ∀ u : State, u.Still u.fatalSet := fun _ => ⟨State.memKept_of_tables rfl rfl rfl rfl, fun _ => rfl⟩
  have hby : ∀ u : State, u.Still u.bypassed := fun _ =>
    ((State.Still.put _ _ _).trans (State.Still.put _ _ _)).trans (State.Still.put _ _ _)
  have hregs : ∀ (u : State) (f : Field), u.radioCut.bypassed.fatalSet.get f = u.radioCut.bypassed.get f := fun _ _ => rfl
  rw [s.fatalCut_eq]
  refine ⟨s.still_sendCut.trans ((hcut _).trans ((hby _).trans (hset _))), ?_, ?_, ?_, ?_, ?_, fun _ => rfl, .inr ⟨?_, rfl⟩,
    fun f hf => ?_, fun hidle k _ => ?_, fun p hp => State.Follows.mapped_of_get ?_⟩
  case refine_7 =>
    obtain ⟨hf, hnot⟩ := hf
    rw [hregs, hbypass _ _ (fun h => hnot (by rw [h]; simp only [stallReg, CHD_STATE]; omega))]
    refine s.sendCut_get (fun k h => ?_) (fun h => ?_)
    · simp only [FU_TX_CTL] at h
      simp only [stallReg] at hnot
      omega
    · simp only [FU_TXBUSY] at h
      simp only [stallReg] at hnot
      omega
  case refine_8 =>
    rw [hregs, hbypass _ _ (by show 0xCC100 + 16 * k ≠ 0xCE004; omega), State.sendCut, hidle] <;> rfl
  case refine_9 =>
    rw [hregs, hbypass _ _ (State.Follows.lane_ne hp (.inr (by decide)))]
    exact s.sendCut_get (fun k => State.Follows.lane_ne hp (.inr (by simp only [FU_TX_CTL]; omega)))
      (State.Follows.lane_ne hp (.inr (by decide)))
  all_goals rw [hl]; rfl

/-- A report, that of the stopped keeper apart. -/
theorem State.follows_report {code : Nat} (hcode : code < 35) (d : W20) (s : State) : s.Follows (State.report code d s) := by
  have hbit : stallReg (faultBit code).reg := .inr (.inl (by
    rcases faultBit_reg code with h | h <;> rw [h] <;> decide))
  have hflag : ∀ (u : State) (f : Field), f.reg = FLT_FLAGS → u.Follows (u.raise f) := fun u f h =>
    State.Follows.of_raise (.inr (.inl (by rw [h]; decide)))
  have hclass : ∀ u : State, u.Follows (reportFlag code u) := fun u => by
    unfold reportFlag
    split
    · exact hflag _ _ rfl
    · exact hflag _ _ rfl
    · exact State.Follows.rfl' u
  have hlast : ∀ (u : State) (l : Tab W20), u.Follows ({ u with faults := { u.faults with last := l } } : State) := fun u l =>
    ⟨⟨State.memKept_of_tables rfl rfl rfl rfl, fun _ => rfl⟩, rfl, rfl, rfl, rfl, rfl, id, .inl rfl, fun _ _ => rfl, fun _ _ _ => rfl,
      fun _ _ => rfl⟩
  have hlog := (s.follows_logReport hcode d).trans (State.Follows.of_put (s := s.logReport code d) 1 hbit)
  rw [State.report_eq]
  dsimp only
  have hbase := (hlog.trans (hlast _ (tabSet (fun _ => 0) ((s.logReport code d).put (faultBit code) 1).faults.last code d))).trans (hclass _)
  rw [if_neg (Nat.ne_of_lt hcode)]
  exact State.Follows.ite ((hbase.trans (State.Follows.ite (hflag _ _ rfl) (State.Follows.rfl' _))).trans (State.follows_fatalCut _))
    (hbase.trans (State.Follows.ite (hflag _ _ rfl) (State.Follows.rfl' _)))

/-! ## A stall's packet and its descriptor -/

theorem State.follows_poolCheck (s : State) (q : Fin 2) : s.Follows (s.poolCheck q) := by
  have hput : s.Follows ((s.put CONS_DESC_HELD_SUM ((s.pool 0).held + (s.pool 1).held)).put CONS_DESC_FREE
      ((s.pool 0).queue.length + (s.pool 1).queue.length)) :=
    (State.Follows.of_put _ (.inl rfl)).trans (State.Follows.of_put _ (.inl rfl))
  rw [State.poolCheck]
  exact State.Follows.ite hput (hput.trans (State.follows_report (by decide) _ _))

theorem State.follows_descFree (s : State) (q : Fin 2) (i : Nat) : s.Follows (s.descFree q i) := by
  unfold State.descFree
  refine State.Follows.ite (State.Follows.rfl' s) (State.Follows.trans ?_ (State.follows_poolCheck _ q))
  exact State.Follows.of_parts rfl rfl rfl rfl rfl rfl rfl rfl rfl rfl rfl rfl rfl

theorem State.follows_rcAdd (s : State) (a b : BitVec 32) : s.Follows (s.rcAdd a b) := by
  unfold State.rcAdd
  refine State.Follows.ite (State.Follows.rfl' s) (State.Follows.ite ((State.Follows.of_put _ ?_).trans (State.Follows.of_raise ?_))
    (s.follows_modLink _))
  · unfold stallReg; decide
  · unfold stallReg; decide

theorem State.follows_macDrop (s : State) (id : Nat) : s.Follows (s.macDrop id) := by
  unfold State.macDrop
  dsimp only
  split
  · exact State.Follows.ite ((s.follows_modLink _).trans (State.follows_rcAdd _ _ _)) (s.follows_modLink _)
  · exact s.follows_modLink _

theorem State.follows_decIdle (s : State) : s.Follows s.decIdle := by
  unfold State.decIdle
  exact State.Follows.ite (State.Follows.of_parts rfl rfl rfl rfl rfl rfl rfl rfl rfl rfl rfl rfl rfl) (State.Follows.rfl' s)

theorem State.follows_frameWithdraw (s : State) (id : Nat) : s.Follows (s.frameWithdraw id) := by
  unfold State.frameWithdraw
  have hleave : ∀ u : FrameUnit, s.Follows ({ s with frame := u } : State) := fun _ =>
    State.Follows.of_parts rfl rfl rfl rfl rfl rfl rfl rfl rfl rfl rfl rfl rfl
  exact (hleave _).trans ((State.follows_decIdle _).trans (State.follows_macDrop _ _))

theorem stallReg_status {p : Nat} (hp : p < 48) : stallReg (STL_STATUS p) := by
  simp only [stallReg, STL_STATUS]; omega

theorem State.follows_status (s : State) {p : Nat} (hp : p < 48) {f : Field} (n : Nat) (hf : f.reg = STL_STATUS p) : s.Follows (s.put f n) :=
  State.Follows.of_put n (hf ▸ stallReg_status hp)

theorem State.follows_stallDrop (s : State) {p : Nat} (hp : p < 48) : s.Follows (s.stallDrop p) := by
  unfold State.stallDrop
  have hframe : s.Follows (match (s.stall p).frame with | some id => s.frameWithdraw id | none => s) := by
    split
    · exact s.follows_frameWithdraw _
    · exact State.Follows.rfl' s
  have hfree : ∀ u : State, u.Follows (if u.test (STL_STATUS_HOLDS p) then
      (u.descFree (poolIx (u.get (STL_STATUS_POOL p))) (u.get (STL_STATUS_INDEX p))).put (STL_STATUS_HOLDS p) 0 else u) := fun u =>
    State.Follows.ite ((u.follows_descFree _ _).trans (State.follows_status _ hp 0 rfl)) (State.Follows.rfl' u)
  exact (hframe.trans (hfree _)).trans (State.follows_modStall _ _ _)

theorem State.follows_stallLast (s : State) {p : Nat} (hp : p < 48) (o : Nat) : s.Follows (s.stallLast p o) := by
  have hcnt : stallReg (STL_CNT0 p) ∧ stallReg (STL_CNT1 p) ∧ stallReg (STL_CNT2 p) ∧ stallReg (STL_CNT3 p) := by
    simp only [stallReg, STL_CNT0, STL_CNT1, STL_CNT2, STL_CNT3]; omega
  obtain ⟨h0, h1, h2, h3⟩ := hcnt
  have hflag : ∀ (u : State) (f : Field), f.reg = STC_FLAGS → u.Follows (u.raise f) := fun u f h =>
    State.Follows.of_raise (by rw [h]; unfold stallReg; decide)
  have hput : s.Follows (s.put (STL_STATUS_LAST p) o) := s.follows_status hp o rfl
  unfold State.stallLast
  dsimp only
  split
  · exact hput.trans (State.Follows.of_put _ h0)
  · exact hput.trans ((State.Follows.of_put _ h1).trans (hflag _ _ rfl))
  · exact hput.trans ((State.Follows.of_put _ h1).trans (hflag _ _ rfl))
  · exact hput.trans ((State.Follows.of_put _ h2).trans (hflag _ _ rfl))
  · exact hput.trans ((State.Follows.of_put _ h2).trans (hflag _ _ rfl))
  · exact hput.trans (State.Follows.of_put _ h3)
  · exact hput.trans (State.Follows.of_put _ h3)
  · exact hput

theorem State.follows_stallAbandon (s : State) {p : Nat} (hp : p < 48) (o : Nat) : s.Follows (s.stallAbandon p o) :=
  (s.follows_stallDrop hp).trans (State.follows_stallLast _ hp o)

theorem State.follows_packetEnd (s : State) {p : Nat} (hp : p < 48) (f : Frame) : s.Follows (s.packetEnd p f) := by
  have hregs : s.Follows (s.packetRegs p) := (((State.follows_status s hp 1 rfl).trans (State.Follows.of_put _ (by
    simp only [stallReg, STL_CNT0_RECEIVED, STL_CNT0]; omega))).trans (State.follows_status _ hp 0 rfl)).trans (State.follows_status _ hp 2 rfl)
  rw [s.packetEnd_eq p f]
  exact hregs.trans (State.Follows.of_parts rfl rfl rfl rfl rfl rfl rfl rfl rfl rfl rfl rfl rfl)

theorem State.follows_packetLeave (s : State) {p : Nat} (hp : p < 48) (o : Nat) : s.Follows (s.packetLeave p o) := by
  unfold State.packetLeave
  split
  · exact s.follows_packetEnd hp _
  · exact s.follows_stallAbandon hp o

/-! ## A stall follows its conditions (R170, R171, R184) -/

theorem State.follows_stallFollow (s : State) {p : Nat} (hp : p < 48) : s.Follows (s.stallFollow p) := by
  unfold State.stallFollow
  dsimp only
  have hchain : ∀ n, s.Follows (s.put (STL_STATUS_NOCHAIN p) n) := fun n => s.follows_status hp n rfl
  refine State.Follows.ite (State.Follows.ite (hchain _) ?_) ?_
  · exact ((hchain _).trans (State.follows_modStall _ _ _)).trans (State.follows_status _ hp _ rfl)
  · refine State.Follows.trans (State.Follows.ite ?_ ?_) (State.follows_status _ hp _ rfl)
    · exact (hchain _).trans (State.follows_packetLeave _ hp _)
    · exact (hchain _).trans (State.follows_modStall _ _ _)

theorem State.follows_foldl {α : Type} (f : State → α → State) (l : List α) (s : State) (h : ∀ t : State, ∀ x ∈ l, t.Follows (f t x)) :
    s.Follows (l.foldl f s) :=
  foldl_inv (s.Follows) f l s (fun t x hx ht => ht.trans (h t x hx)) (State.Follows.rfl' s)

theorem State.follows_stallSync (s : State) : s.Follows s.stallSync := by
  have hblank : s.Follows (s.put STC_STATE_BLANK (bit s.blanked)) := State.Follows.of_put _ (by unfold stallReg; decide)
  exact hblank.trans (State.follows_foldl _ _ _ (fun t p hp => t.follows_stallFollow (List.mem_range.mp hp)))

end Sys2Proof.Machine
end

section
/-! SUPPORT. The channel plan, the lane map, EN and the descriptor pools (R164-R170, R187-R191). -/

set_option Elab.async false

namespace Sys2Proof.Machine

/-- A part of the radio that the cut of a fatal report leaves. -/
theorem State.Follows.radio_part {s t : State} (h : s.Follows t) {α : Type} (g : Radio → α) (hg : ∀ r, g (Radio.cut r) = g r) :
    g t.radio = g s.radio := by
  rcases h.radio with hr | ⟨hr, -⟩ <;> rw [hr]
  exact hg _

/-! ## The plan (R166) -/

/-- A plan taken: its spacing, and blanking until the next LISTEN. -/
def State.planned (s : State) (n : Nat) : State :=
  { s.put STC_PLAN_SPACING n with radio := { s.radio with blankTo := untilListen } }

theorem exec_stcPlanWrite {s : State} (v : W20) (hclk : s.clocked = true) (hfree : s.test STC_STATE_HALTER = false) :
    exec (.stcPlanWrite v) s = .next (
      if (s.rfe = 0 ∨ s.rfe = 2) ∧ (List.range 48).all (fun p => s.get (STL_CFG_RATE p) ≤ topRate (v.toNat % 4)) then
        (s.planned (v.toNat % 4)).stallSync
      else s.raise STC_FLAGS_CFG_REFUSED) := by
  show execStcPlanWrite v s = _
  rw [execStcPlanWrite, State.during, if_pos hclk, State.planWrite]
  exact congrArg Host.Outcome.next (if_neg (fun h => Bool.false_ne_true (hfree.symm.trans h)))

theorem State.planned_shows (s : State) (n : Nat) (hn : n < 4) :
    let t := (s.planned n).stallSync
    t.get STC_PLAN_SPACING = n ∧ t.radio.blankTo = 2 ^ 64 ∧ s.Still t := by
  have h := (s.planned n).follows_stallSync
  have hu : s.Still (s.planned n) := ⟨(State.Still.put s STC_PLAN_SPACING n).mem, (State.Still.put s STC_PLAN_SPACING n).cores⟩
  have hblank : (s.planned n).radio.blankTo = 2 ^ 64 := by
    show untilListen = _
    rw [untilListen]
  have hsp : (s.planned n).get STC_PLAN_SPACING = n :=
    (State.get_put_same s STC_PLAN_SPACING n (by decide) (by decide)).trans (Nat.mod_eq_of_lt hn)
  generalize s.planned n = u at *
  exact ⟨(h.get _ (by unfold calmField stallReg; decide)).trans hsp,
    (h.radio_part Radio.blankTo (fun _ => rfl)).trans hblank, hu.trans h.still⟩

/-! ## The lane map (R168) -/

theorem laneOf_wf (p : Nat) : (laneOf p).hi < 20 ∧ (laneOf p).lo ≤ (laneOf p).hi := by
  simp only [laneOf]; omega

theorem laneOf_apart {p q : Nat} (h : p ≠ q) :
    (laneOf p).reg ≠ (laneOf q).reg ∨ (laneOf p).hi < (laneOf q).lo ∨ (laneOf q).hi < (laneOf p).lo := by
  simp only [laneOf, STC_MAP]; omega

theorem State.get_putLane_same (s : State) (p : Nat) {n : Nat} (hn : n < 64) : (s.put (laneOf p) n).get (laneOf p) = n := by
  have hwidth : (laneOf p).hi + 1 - (laneOf p).lo = 6 := by simp only [laneOf]; omega
  rw [State.get_put_same s _ n (laneOf_wf p).1 (laneOf_wf p).2, hwidth]
  exact Nat.mod_eq_of_lt hn

/-- The fields of the map that a list of pairs names take its values. -/
def State.putLanes (s : State) (l : List (Nat × Nat)) : State := l.foldl (fun t e => t.put (laneOf e.1) e.2) s

theorem State.putLanes_cons (s : State) (e : Nat × Nat) (l : List (Nat × Nat)) :
    s.putLanes (e :: l) = (s.put (laneOf e.1) e.2).putLanes l := rfl

theorem State.putLanes_get_out {p : Nat} {l : List (Nat × Nat)} (h : p ∉ l.map Prod.fst) (s : State) :
    (s.putLanes l).get (laneOf p) = s.get (laneOf p) := by
  induction l generalizing s with
  | nil => rfl
  | cons e r ih =>
    rw [List.map_cons, List.mem_cons, not_or] at h
    rw [State.putLanes_cons, ih h.2]
    exact State.get_put_other s _ (laneOf_wf e.1).1 (laneOf_wf e.1).2 (laneOf_apart h.1)

/-- Values that agree with `g` leave every named field as `g` has it. -/
theorem State.putLanes_get_in {p : Nat} {l : List (Nat × Nat)} {g : Nat → Nat} (hg : ∀ e ∈ l, e.2 = g e.1) (hlt : ∀ q, g q < 64)
    (h : p ∈ l.map Prod.fst) (s : State) : (s.putLanes l).get (laneOf p) = g p := by
  induction l generalizing s with
  | nil => simp at h
  | cons e r ih =>
    rw [State.putLanes_cons]
    by_cases hr : p ∈ r.map Prod.fst
    · exact ih (fun x hx => hg x (List.mem_cons_of_mem _ hx)) hr _
    · have he : p = e.1 := (List.mem_cons.mp h).resolve_right hr
      subst he
      rw [State.putLanes_get_out hr, hg e List.mem_cons_self]
      exact State.get_putLane_same s e.1 (hlt _)

theorem State.putLanes_within {k : Nat} {l : List (Nat × Nat)} (h : ∀ e ∈ l, e.1 / 3 = k) (s : State) :
    s.Within [STC_MAP k, FLT_SPARE] (s.putLanes l) ∧ (s.putLanes l).cores = s.cores :=
  foldl_inv (fun t => s.Within [STC_MAP k, FLT_SPARE] t ∧ t.cores = s.cores) _ l s
    (fun t e he ⟨hw, hc⟩ => ⟨hw.trans (State.Within.put t (f := laneOf e.1) _ (by simp [laneOf, h e he])), hc⟩) ⟨State.Within.rfl' s, rfl⟩

theorem mapSettle_sublist (n : Nat) (m : List Nat) (l : List (Nat × Nat)) : (mapSettle n m l).Sublist l := by
  induction n generalizing l with
  | zero => exact List.Sublist.refl l
  | succ n ih => exact (ih _).trans List.filter_sublist

/-- Fields that no other position carries in the map they form are all kept. -/
theorem mapSettle_all {m : List Nat} {l : List (Nat × Nat)}
    (h : ∀ e ∈ l, (e.2 == 63 || !laneTaken (l.foldl (fun m e => m.set e.1 e.2) m) e.1 e.2) = true) (n : Nat) : mapSettle n m l = l := by
  induction n with
  | zero => rfl
  | succ n ih =>
    show mapSettle n m (l.filter _) = l
    rw [List.filter_eq_self.mpr h]
    exact ih

/-- A map with the pairs of a list put in it, where the list agrees with `g` and the map does elsewhere. -/
theorem foldl_set_get {g : Nat → Nat} {l : List (Nat × Nat)} (hg : ∀ e ∈ l, e.2 = g e.1) {m : List Nat} {q : Nat} (hq : q < m.length)
    (hm : q ∉ l.map Prod.fst → m[q]? = some (g q)) : (l.foldl (fun m e => m.set e.1 e.2) m)[q]? = some (g q) := by
  induction l generalizing m with
  | nil => exact hm (by simp)
  | cons e r ih =>
    rw [List.foldl_cons]
    refine ih (fun x hx => hg x (List.mem_cons_of_mem _ hx)) (by rw [List.length_set]; exact hq) (fun hr => ?_)
    by_cases he : e.1 = q
    · rw [he, List.getElem?_set_self hq, hg e List.mem_cons_self, he]
    · rw [List.getElem?_set_ne he]
      refine hm (fun h => ?_)
      rcases List.mem_cons.mp h with h | h
      · exact he h.symm
      · exact hr h

/-- The lane that `v` names for position `i` of its three. -/
def laneIn (v : W20) (i : Nat) : Nat := v.toNat / 64 ^ i % 64

/-- The fields of STC_MAPk that a write changes. -/
def State.mapChanged (s : State) (k : Nat) (v : W20) : List (Nat × Nat) :=
  ((List.range 3).map (fun i => (3 * k + i, laneIn v i))).filter (fun e => s.get (laneOf e.1) != e.2)

/-- Those of them whose position is off and whose lane works. -/
def State.mapFree (s : State) (k : Nat) (v : W20) : List (Nat × Nat) :=
  (s.mapChanged k v).filter (fun e => !s.test (STL_CFG_EN e.1) && !s.laneFailed e.2)

theorem exec_stcMapWrite {s : State} (k : Fin 16) (v : W20) (hclk : s.clocked = true) (hfree : s.test STC_STATE_HALTER = false) :
    exec (.stcMapWrite k v) s = .next (
      let done := mapSettle 4 s.laneMap (s.mapFree k.val v)
      let t := (s.putLanes done).lanesShow
      if done.length < (s.mapChanged k.val v).length then t.raise STC_FLAGS_CFG_REFUSED else t) := by
  show execStcMapWrite k v s = _
  rw [execStcMapWrite, State.during, if_pos hclk, State.mapWrite]
  exact congrArg Host.Outcome.next (if_neg (fun h => Bool.false_ne_true (hfree.symm.trans h)))

theorem State.mem_mapChanged {s : State} {k : Nat} {v : W20} {e : Nat × Nat} :
    e ∈ s.mapChanged k v ↔ ∃ i < 3, e = (3 * k + i, laneIn v i) ∧ s.get (laneOf e.1) ≠ e.2 := by
  simp only [State.mapChanged, List.mem_filter, List.mem_map, List.mem_range, bne_iff_ne]
  constructor
  · rintro ⟨⟨i, hi, rfl⟩, hne⟩
    exact ⟨i, hi, rfl, hne⟩
  · rintro ⟨i, hi, rfl, hne⟩
    exact ⟨⟨i, hi, rfl⟩, hne⟩

theorem State.lanesShow_shows (s : State) : s.lanesShow.get FLT_SPARE_LANES = ([48, 49, 50, 51].filter s.lanesShow.laneMap.contains).length ∧
    (∀ p, s.lanesShow.get (laneOf p) = s.get (laneOf p)) := by
  have hget : ∀ p, s.lanesShow.get (laneOf p) = s.get (laneOf p) := fun p => State.get_put_ne s _ (by
    show 0xCA040 + 4 * (p / 3) ≠ 0xC2030
    omega)
  have hmap : s.lanesShow.laneMap = s.laneMap := by
    rw [State.laneMap, State.laneMap]
    exact List.map_congr_left (fun p _ => hget p)
  refine ⟨?_, hget⟩
  rw [hmap]
  have hlen : ([48, 49, 50, 51].filter s.laneMap.contains).length ≤ 4 := List.length_filter_le _ _
  refine (State.get_put_same s FLT_SPARE_LANES _ (by decide) (by decide)).trans (Nat.mod_eq_of_lt ?_)
  exact Nat.lt_of_le_of_lt hlen (by decide)

/-- The map after a write whose fields are all free: what `v` names for its three positions, and what stood elsewhere. -/
def State.laneAfter (s : State) (k : Nat) (v : W20) (q : Nat) : Nat := if q / 3 = k then laneIn v (q % 3) else s.get (laneOf q)

/-- A write all of whose fields are free is taken whole. -/
theorem State.mapSettle_free {s : State} {k : Nat} (hk : k < 16) {v : W20}
    (h : ∀ i < 3, s.test (STL_CFG_EN (3 * k + i)) = false ∧ s.laneFailed (laneIn v i) = false ∧
      (laneIn v i = 63 ∨ (∀ p < 48, p / 3 ≠ k → s.get (laneOf p) ≠ laneIn v i) ∧ ∀ j < 3, j ≠ i → laneIn v j ≠ laneIn v i)) :
    mapSettle 4 s.laneMap (s.mapFree k v) = s.mapChanged k v := by
  have hfree : s.mapFree k v = s.mapChanged k v := List.filter_eq_self.mpr (fun e he => by
    obtain ⟨i, hi, rfl, -⟩ := State.mem_mapChanged.mp he
    obtain ⟨hen, hfail, -⟩ := h i hi
    rw [hen, hfail]
    rfl)
  rw [hfree]
  refine mapSettle_all (fun e he => ?_) 4
  have hg : ∀ e ∈ s.mapChanged k v, e.2 = s.laneAfter k v e.1 := fun e he => by
    obtain ⟨i, hi, rfl, -⟩ := State.mem_mapChanged.mp he
    show laneIn v i = s.laneAfter k v (3 * k + i)
    rw [State.laneAfter, if_pos (by omega), show (3 * k + i) % 3 = i by omega]
  have hformed : ∀ q < 48, ((s.mapChanged k v).foldl (fun m e => m.set e.1 e.2) s.laneMap)[q]? = some (s.laneAfter k v q) := fun q hq => by
    refine foldl_set_get hg (by rw [State.laneMap, List.length_map, List.length_range]; exact hq) (fun hout => ?_)
    rw [State.laneMap, List.getElem?_map, List.getElem?_range hq, State.laneAfter]
    refine congrArg some ?_
    split
    · next hin =>
      by_contra hne
      exact hout (List.mem_map.mpr ⟨(q, laneIn v (q % 3)), State.mem_mapChanged.mpr ⟨q % 3, Nat.mod_lt _ (by decide), by
        rw [Prod.mk.injEq]; exact ⟨by omega, rfl⟩, hne⟩, rfl⟩)
    · rfl
  obtain ⟨i, hi, rfl, -⟩ := State.mem_mapChanged.mp he
  obtain ⟨-, -, hlane⟩ := h i hi
  rw [Bool.or_eq_true, beq_iff_eq, Bool.not_eq_true']
  refine hlane.imp id (fun ⟨hout, hin⟩ => List.any_eq_false.mpr (fun q hq => ?_))
  have hq48 : q < 48 := List.mem_range.mp hq
  rw [hformed q hq48]
  simp only [Bool.and_eq_true, bne_iff_ne, beq_iff_eq, Option.some.injEq, not_and]
  intro hne
  rw [State.laneAfter]
  split
  · exact hin _ (Nat.mod_lt _ (by decide)) (by omega)
  · next hk' => exact hout q hq48 hk'

/-! ## EN (R170, R194) -/

theorem calm_en {p : Nat} (hp : p < 48) : calmField (STL_CFG_EN p) := by
  simp only [calmField, stallReg, STL_CFG_EN, STL_CFG, CONS_DESC, STC_STATE, STC_FLAGS]; omega

theorem State.mapped_putEn (s : State) {p q : Nat} (n : Nat) (hp : p < 48) : (s.put (STL_CFG_EN q) n).mapped p = s.mapped p :=
  State.Follows.mapped_of_get (State.get_put_ne s n (by show 0xCA040 + 4 * (p / 3) ≠ 0xCB000 + 64 * q; omega))

/-- EN set or cleared, where it may be. -/
theorem State.stallEn_shows {s : State} {p : Nat} (hp : p < 48) {en : Bool} (h : en = false ∨ s.mapped p = true) :
    (s.stallEn p en).test (STL_CFG_EN p) = en ∧ s.Still (s.stallEn p en) ∧ (s.stallEn p en).mapped p = s.mapped p := by
  have hgo : s.stallEn p en = (s.put (STL_CFG_EN p) (bit en)).stallFollow p := by
    rw [State.stallEn]
    refine if_neg (fun hh => ?_)
    obtain ⟨h1, h2⟩ := (Bool.and_eq_true _ _).mp hh
    rcases h with h | h <;> simp_all
  have hf := (s.put (STL_CFG_EN p) (bit en)).follows_stallFollow hp
  rw [hgo]
  refine ⟨?_, (State.Still.put _ _ _).trans hf.still, (hf.mapped p hp).trans (s.mapped_putEn _ hp)⟩
  rw [hf.test (calm_en hp), State.test, State.get_put_same s _ _ (Nat.le_of_ble_eq_true rfl) (Nat.le_of_ble_eq_true rfl)]
  cases en <;> rfl

theorem State.stallEn_refused {s : State} {p : Nat} (hp : p < 48) (hmap : s.mapped p = false) (hen : s.test (STL_CFG_EN p) = false) :
    (s.stallEn p true).test (STL_CFG_EN p) = false ∧ (s.stallEn p true).test STC_FLAGS_CFG_REFUSED = true ∧ s.Still (s.stallEn p true) := by
  have hgo : s.stallEn p true = s.raise STC_FLAGS_CFG_REFUSED := by
    rw [State.stallEn, hmap, hen]
    rfl
  rw [hgo]
  exact ⟨(State.raise_test_ne _ _ (by show 0xCB000 + 64 * p ≠ 0xCA010; omega)).trans hen, State.raise_self _ _ (by decide) (by decide),
    State.Still.raise _ _⟩

/-- An action sets EN in the state that remembers it. -/
def State.actNoted (s : State) (p : Nat) (en : Bool) : State :=
  let old := match (s.stall p).acted with
    | some (b, _, o) => if b = s.tick then o else s.test (STL_CFG_EN p)
    | none => s.test (STL_CFG_EN p)
  s.modStall p (fun x => { x with acted := some (s.tick, en, old) })

theorem exec_stallEnable_act {s : State} (p : Pos) (en : Bool) (hclk : s.clocked = true) :
    exec (.stallEnable p en true) s = .next ((s.actNoted p.val en).stallEn p.val en) := if_pos hclk

theorem exec_stallEnable_write {s : State} (p : Pos) (en : Bool) (hclk : s.clocked = true) (hfree : s.test STC_STATE_HALTER = false) :
    exec (.stallEnable p en false) s = .next (s.enWritten p.val (fun t => t.stallEn p.val en)) := by
  show execStallEnable p en false s = _
  rw [execStallEnable, State.during, if_pos hclk, if_neg Bool.false_ne_true]
  exact congrArg Host.Outcome.next (if_neg (fun h => Bool.false_ne_true (hfree.symm.trans h)))

theorem State.enWritten_free {s : State} {p : Nat} (h : ∀ e, ¬ ∃ o, (s.stall p).acted = some (s.tick, e, o)) (f : State → State) :
    s.enWritten p f = f s := by
  unfold State.enWritten
  split
  · next b e o hacted => exact if_neg (fun hb => h e ⟨o, by rw [hacted, hb]⟩)
  · rfl

theorem State.enWritten_acted {s : State} {p : Nat} {e o : Bool} (h : (s.stall p).acted = some (s.tick, e, o)) (f : State → State) :
    s.enWritten p f = (f (s.put (STL_CFG_EN p) (bit o))).stallEn p e := by
  rw [State.enWritten, h]
  exact if_pos rfl

/-! ## Pools (R187, R189, R191) -/

theorem exec_stcGive {s : State} (v : W20) (hclk : s.clocked = true) : exec (.stcGive v) s = .next (s.stcGive v) := if_pos hclk

theorem State.descFree_shows {s : State} {q : Fin 2} {i : Nat} (h : s.desc q i = .program) :
    (s.descFree q i).desc q i = .free ∧ ((s.descFree q i).pool q).queue = (s.pool q).queue ++ [i] := by
  let u := s.setPool q { queue := (s.pool q).queue ++ [i], st := tabSet descDflt (s.pool q).st i .free }
  have hu : u.pool q = { queue := (s.pool q).queue ++ [i], st := tabSet descDflt (s.pool q).st i .free } := Vector.getElem_set_self _
  have hpools : (s.descFree q i).pool q = u.pool q := by
    rw [State.descFree, if_neg (by rw [h]; decide)]
    show ((u.poolCheck q).pools)[q] = _
    rw [(u.poolCheck_frame q).2.1]
    rfl
  refine ⟨?_, by rw [hpools, hu]⟩
  rw [State.desc, hpools, hu]
  exact tabGet_set_same descDflt _ i .free

theorem exec_poolConfigWrite {s : State} (q : Fin 2) (w : PoolReg) (v : W20) (hclk : s.clocked = true)
    (hfree : s.test STC_STATE_HALTER = false) : exec (.poolConfigWrite q w v) s = .next (
      if (s.pool q).held ≠ 0 ∨ s.poolNamed q then s.raise STC_FLAGS_CFG_REFUSED
      else match w with
        | .buf => s.setRg (STC_POOL_BUF q) v
        | .desc => s.setRg (STC_POOL_DESC q) v
        | .cfg =>
          let n := v.toNat % 512
          let z := v.toNat / 512 % 64
          if z = 0 ∨ 32 < z ∨ 256 < n ∨
              (n ≠ 0 ∧ (0xA0000 < s.get (STC_POOL_BUF_BASE q) + 64 * z * n ∨
                0xA0000 < s.get (STC_POOL_DESC_BASE q) + 24 * n)) then s.raise STC_FLAGS_CFG_REFUSED
          else s.poolFill q v) := by
  show execPoolConfigWrite q w v s = _
  rw [execPoolConfigWrite, State.during, if_pos hclk]
  unfold State.poolWrite
  refine (congrArg Host.Outcome.next (if_neg (fun h => Bool.false_ne_true (hfree.symm.trans h)))).trans ?_
  cases w <;> rfl

/-- Settles O35: a stall's following writes neither the plan, EN nor the map; a write of the map whose fields are all free is taken
whole, for no other position carries their lanes in the map they form. -/
theorem planMapAndPoolEffects : Obligations.PlanMapAndPoolEffects := by
  unfold Obligations.PlanMapAndPoolEffects
  intro s hclk hfree
  refine ⟨fun v => ?plan, fun k v => ⟨fun h => ?free, fun i hen hne => ?barred⟩, fun p en act => ⟨fun hmap hact => ?en, fun e ⟨o, hacted⟩ hmap => ?acted,
    fun hen hmap hoff hact => ?unmapped⟩, fun v => ⟨fun hi hst => ?give, fun h => ?giveRefused⟩,
    fun q v => ⟨fun hst hnamed => ?pool, fun w h => ?poolRefused⟩⟩
  case plan =>
    have hexec := exec_stcPlanWrite v hclk hfree
    have hall : (List.range 48).all (fun p => decide (s.get (STL_CFG_RATE p) ≤ topRate (v.toNat % 4))) = true ↔
        ∀ p : Pos, s.get (STL_CFG_RATE p.val) ≤ topRate (v.toNat % 4) := by
      rw [List.all_eq_true]
      exact ⟨fun h p => of_decide_eq_true (h p.val (List.mem_range.mpr p.isLt)), fun h p hp => decide_eq_true (h ⟨p, List.mem_range.mp hp⟩)⟩
    intro n fits
    refine ⟨fun ⟨hst, hrate⟩ => ?_, fun hnot => ?_⟩
    · obtain ⟨hsp, hblank, hstill⟩ := s.planned_shows (v.toNat % 4) (Nat.mod_lt _ (by decide))
      rw [if_pos ⟨hst, hall.mpr hrate⟩] at hexec
      exact ⟨_, hexec, hsp, hblank, hstill.mem, hstill.cores⟩
    · rw [if_neg (fun ⟨hst, hrate⟩ => hnot ⟨hst, hall.mp hrate⟩)] at hexec
      have hw : s.Within [STC_FLAGS] (s.raise STC_FLAGS_CFG_REFUSED) := State.Within.raise s (List.mem_singleton_self _)
      exact ⟨_, hexec, State.raise_self _ _ (by decide) (by decide), hw.regs, hw.still.mem, hw.still.cores⟩
  case free =>
    have hdone := State.mapSettle_free (s := s) k.isLt (v := v) (fun i hi => by
      obtain ⟨hen, hfail, hlane⟩ := h ⟨i, hi⟩
      exact ⟨hen, hfail, hlane.imp id (fun ⟨hout, hin⟩ => ⟨fun p hp => hout ⟨p, hp⟩, fun j hj hne =>
        hin ⟨j, hj⟩ (fun hh => hne (congrArg Fin.val hh))⟩)⟩)
    have hexec := exec_stcMapWrite k v hclk hfree
    rw [hdone] at hexec
    dsimp only at hexec
    rw [if_neg (Nat.lt_irrefl _)] at hexec
    obtain ⟨hspare, hget⟩ := (s.putLanes (s.mapChanged k.val v)).lanesShow_shows
    obtain ⟨hw, hcores⟩ := State.putLanes_within (k := k.val) (l := s.mapChanged k.val v) (fun e he => by
      obtain ⟨i, hi, rfl, -⟩ := State.mem_mapChanged.mp he
      show (3 * k.val + i) / 3 = k.val
      omega) s
    have hshow := hw.trans (State.Within.put (s.putLanes (s.mapChanged k.val v)) (f := FLT_SPARE_LANES)
      (([48, 49, 50, 51].filter (s.putLanes (s.mapChanged k.val v)).laneMap.contains).length) (by simp [FLT_SPARE_LANES]))
    refine ⟨_, hexec, fun i => (hget _).trans ?_, hspare, hshow.regs, hshow.still.mem, hcores⟩
    show (s.putLanes (s.mapChanged k.val v)).get (laneOf (3 * k.val + i.val)) = laneIn v i.val
    by_cases hin : 3 * k.val + i.val ∈ (s.mapChanged k.val v).map Prod.fst
    · have hval : ∀ e ∈ s.mapChanged k.val v, e.2 = laneIn v (e.1 - 3 * k.val) := fun e he => by
        obtain ⟨j, hj, rfl, -⟩ := State.mem_mapChanged.mp he
        show laneIn v j = laneIn v (3 * k.val + j - 3 * k.val)
        rw [Nat.add_sub_cancel_left]
      rw [State.putLanes_get_in (g := fun q => laneIn v (q - 3 * k.val)) hval (fun q => Nat.mod_lt _ (by decide)) hin]
      show laneIn v (3 * k.val + i.val - 3 * k.val) = _
      rw [Nat.add_sub_cancel_left]
    · rw [State.putLanes_get_out hin]
      by_contra hne
      exact hin (List.mem_map.mpr ⟨_, State.mem_mapChanged.mpr ⟨i.val, i.isLt, rfl, hne⟩, rfl⟩)
  case barred =>
    have hexec := exec_stcMapWrite k v hclk hfree
    have hsub := mapSettle_sublist 4 s.laneMap (s.mapFree k.val v)
    generalize mapSettle 4 s.laneMap (s.mapFree k.val v) = done at hexec hsub
    have hmem : (3 * k.val + i.val, laneIn v i.val) ∈ s.mapChanged k.val v := State.mem_mapChanged.mpr ⟨i.val, i.isLt, rfl, hne⟩
    have hlt : done.length < (s.mapChanged k.val v).length := Nat.lt_of_le_of_lt hsub.length_le
      (List.length_filter_lt_length_iff_exists.mpr ⟨_, hmem, by show ¬ (!s.test (STL_CFG_EN (3 * k.val + i.val)) && _) = true; rw [hen]; simp⟩)
    have hout : 3 * k.val + i.val ∉ done.map Prod.fst := fun hh => by
      obtain ⟨e, he, heq⟩ := List.mem_map.mp hh
      have hfilter := (List.mem_filter.mp (hsub.subset he)).2
      rw [heq, hen] at hfilter
      simp at hfilter
    dsimp only at hexec
    rw [if_pos hlt] at hexec
    obtain ⟨hspare, hget⟩ := (s.putLanes done).lanesShow_shows
    have hstill : s.Still ((s.putLanes done).lanesShow.raise STC_FLAGS_CFG_REFUSED) := by
      refine State.Still.trans ?_ (State.Still.raise _ _)
      exact (foldl_inv (fun t => s.Still t) _ done s (fun t e _ ht => ht.trans (State.Still.put _ _ _)) (State.Still.rfl' s)).trans
        (State.Still.put _ _ _)
    refine ⟨_, hexec, ?_, State.raise_self _ _ (by decide) (by decide), hstill.mem, hstill.cores⟩
    rw [State.raise_get_ne _ _ (by show 0xCA040 + 4 * ((3 * k.val + i.val) / 3) ≠ 0xCA010; omega), hget, State.putLanes_get_out hout]
  case en =>
    cases act with
    | true =>
      have hmap' : en = false ∨ (s.actNoted p.val en).mapped p.val = true := hmap
      obtain ⟨htest, hstill, -⟩ := State.stallEn_shows p.isLt hmap'
      have hnote : s.Still (s.actNoted p.val en) := ⟨State.memKept_of_tables rfl rfl rfl rfl, fun _ => rfl⟩
      exact ⟨_, exec_stallEnable_act p en hclk, htest, (hnote.trans hstill).mem, (hnote.trans hstill).cores⟩
    | false =>
      obtain ⟨htest, hstill, -⟩ := State.stallEn_shows p.isLt hmap
      refine ⟨_, (exec_stallEnable_write p en hclk hfree).trans
        (congrArg Host.Outcome.next (State.enWritten_free (hact.resolve_left (by decide)) _)), htest, hstill.mem, hstill.cores⟩
  case acted =>
    have hold : (s.put (STL_CFG_EN p.val) (bit o)).mapped p.val = true := (s.mapped_putEn _ p.isLt).trans hmap
    obtain ⟨-, hstill, hkeep⟩ := State.stallEn_shows p.isLt (en := en) (.inr hold)
    obtain ⟨htest, hstill', -⟩ := State.stallEn_shows p.isLt (en := e) (.inr (hkeep.trans hold))
    have hall := ((State.Still.put s (STL_CFG_EN p.val) (bit o)).trans hstill).trans hstill'
    exact ⟨_, (exec_stallEnable_write p en hclk hfree).trans (congrArg Host.Outcome.next (State.enWritten_acted hacted _)), htest, hall.mem,
      hall.cores⟩
  case unmapped =>
    subst hen
    cases act with
    | true =>
      have hmap' : (s.actNoted p.val true).mapped p.val = false := hmap
      have hoff' : (s.actNoted p.val true).test (STL_CFG_EN p.val) = false := hoff
      obtain ⟨htest, -, hstill⟩ := State.stallEn_refused p.isLt hmap' hoff'
      have hnote : s.Still (s.actNoted p.val true) := ⟨State.memKept_of_tables rfl rfl rfl rfl, fun _ => rfl⟩
      exact ⟨_, exec_stallEnable_act p true hclk, htest, fun h => absurd h (by decide), (hnote.trans hstill).mem, (hnote.trans hstill).cores⟩
    | false =>
      obtain ⟨htest, hflag, hstill⟩ := State.stallEn_refused p.isLt hmap hoff
      exact ⟨_, (exec_stallEnable_write p true hclk hfree).trans
        (congrArg Host.Outcome.next (State.enWritten_free (hact.resolve_left (by decide)) _)), htest, fun _ => hflag, hstill.mem, hstill.cores⟩
  case give =>
    obtain ⟨hdesc, hqueue⟩ := State.descFree_shows hst
    have hstill := s.still_descFree (poolIx (v.toNat / 256)) (v.toNat % 256)
    refine ⟨_, (exec_stcGive v hclk).trans (congrArg Host.Outcome.next ?_), hdesc, hqueue, hstill.mem, hstill.cores⟩
    exact if_neg (fun h => h.elim (fun h => Nat.not_le.mpr hi h) (fun h => h hst))
  case giveRefused =>
    have hw : s.Within [STC_FLAGS] (s.raise STC_FLAGS_GIVE_REFUSED) := State.Within.raise s (List.mem_singleton_self _)
    exact ⟨_, (exec_stcGive v hclk).trans (congrArg Host.Outcome.next (if_pos h)), State.raise_self _ _ (by decide) (by decide),
      State.raise_pools _ _, hw.regs, hw.still.mem, hw.still.cores⟩
  case pool =>
    have hgo : ¬((s.pool q).held ≠ 0 ∨ s.poolNamed q = true) := by
      rw [Pool.held, hst, hnamed]
      simp
    refine ⟨?_, ?_, fun h1 h2 h3 h4 h5 => ?_⟩
    · rw [exec_poolConfigWrite q .buf v hclk hfree, if_neg hgo]
    · rw [exec_poolConfigWrite q .desc v hclk hfree, if_neg hgo]
    · have hexec := exec_poolConfigWrite q .cfg v hclk hfree
      rw [if_neg hgo] at hexec
      dsimp only at hexec
      rw [if_neg (by omega)] at hexec
      have hw : s.Within [STC_POOL_CFG q.val] (s.poolFill q v) :=
        (State.Within.setRg s (a := STC_POOL_CFG q.val) (v &&& 0x7FFF) (List.mem_singleton_self _)).trans
          (State.Within.of_parts rfl rfl rfl rfl rfl rfl)
      exact ⟨_, hexec, State.rg_setRg_same _ _ _, Vector.getElem_set_self _, hw.regs, hw.still.mem, rfl⟩
  case poolRefused =>
    have hgo : (s.pool q).held ≠ 0 ∨ s.poolNamed q = true := h.imp (fun hne hh => hne (List.length_eq_zero_iff.mp hh)) id
    have hw : s.Within [STC_FLAGS] (s.raise STC_FLAGS_CFG_REFUSED) := State.Within.raise s (List.mem_singleton_self _)
    exact ⟨_, (exec_poolConfigWrite q w v hclk hfree).trans (congrArg Host.Outcome.next (if_pos hgo)),
      State.raise_self _ _ (by decide) (by decide), State.raise_pools _ _, hw.regs, hw.still.mem, hw.still.cores⟩

end Sys2Proof.Machine
end

section
/-! SUPPORT. The radio's states and its receive LO (R138-R147): what its steps keep, and what they ask for and return. -/

set_option Elab.async false

namespace Sys2Proof.Machine

/-! ## What a consumer that asks or returns holds (R33) -/

theorem mem_waitInsert_iff {w x : Wait} : ∀ {l : List Wait}, x ∈ waitInsert l w ↔ x = w ∨ x ∈ l
  | [] => by simp [waitInsert]
  | v :: r => by
    rw [waitInsert]
    split
    · simp
    · rw [List.mem_cons, mem_waitInsert_iff, List.mem_cons]
      tauto

theorem State.asked_addWait {s : State} {h : Nat} (id cls : Nat) (k : WaitKind) (ha : s.asked h = true) : (s.addWait id cls k).asked h = true := by
  rw [State.asked, List.any_eq_true] at ha ⊢
  obtain ⟨w, hw, hin⟩ := ha
  exact ⟨w, mem_waitInsert_iff.mpr (.inr hw), hin⟩

theorem State.addWait_asked (s : State) (id cls : Nat) {l : List Nat} {h : Nat} (hh : h ∈ l) : (s.addWait id cls (.holders l)).asked h = true := by
  rw [State.asked, List.any_eq_true]
  exact ⟨⟨id, cls, s.tick, false, .holders l⟩, mem_waitInsert_iff.mpr (.inl rfl), List.contains_iff_mem.mpr hh⟩

/-- A consumer holds its charge or waits for it. -/
def State.served (s : State) (h : Nat) : Prop := s.holds h = true ∨ s.asked h = true

theorem State.served_askOne {s : State} {h : Nat} (cls : Nat) (hs : List Nat) (hh : s.served h) : (s.askOne cls hs).served h := by
  unfold State.askOne
  split
  · exact hh
  · exact hh.imp id (State.asked_addWait _ _ _)

theorem State.askOne_served (s : State) (cls : Nat) {hs : List Nat} {h : Nat} (hh : h ∈ hs) : (s.askOne cls hs).served h := by
  by_cases hserved : s.served h
  · exact State.served_askOne cls hs hserved
  · rw [State.served, not_or, Bool.not_eq_true, Bool.not_eq_true] at hserved
    have hmem : h ∈ hs.filter (fun h => !s.holds h && !s.asked h) := List.mem_filter.mpr ⟨hh, by rw [hserved.1, hserved.2]; rfl⟩
    unfold State.askOne
    split
    · next hnil => rw [hnil] at hmem; cases hmem
    · next hcons => exact .inr (State.addWait_asked _ _ _ (hcons ▸ hmem))

theorem State.served_ask {s : State} {h : Nat} (cls : Nat) (hs : List Nat) (hh : s.served h) : (s.ask cls hs).served h := by
  unfold State.ask
  induction hs generalizing s with
  | nil => exact hh
  | cons x r ih => exact ih (State.served_askOne cls [x] hh)

theorem State.ask_served (s : State) (cls : Nat) {hs : List Nat} {h : Nat} (hh : h ∈ hs) : (s.ask cls hs).served h := by
  unfold State.ask
  induction hs generalizing s with
  | nil => cases hh
  | cons x r ih =>
    rcases List.mem_cons.mp hh with rfl | hr
    · exact State.served_ask cls r (s.askOne_served cls (List.mem_singleton_self _))
    · exact ih _ hr

theorem State.release_holds_mem (s : State) {hs : List Nat} {h : Nat} (hh : h ∈ hs) : (s.release hs).holds h = false := by
  have hfind := find_payShort (fun _ => ()) (fun _ _ _ => rfl) (s.manger.without hs).accts
    ((s.manger.accts.filter (fun a => hs.contains a.id)).map (·.held)).sum h
  rw [find_without, if_pos hh] at hfind
  rw [State.holds, Option.isSome_eq_false_iff, Option.isNone_iff_eq_none]
  exact Option.map_eq_none_iff.1 hfind

theorem State.drop_holds_mem (s : State) {hs : List Nat} {h : Nat} (hh : h ∈ hs) : (s.drop hs).holds h = false :=
  State.release_holds_false (s := ((s.release hs).modManger _).modManger _) _ (s.release_holds_mem hh)

theorem State.withdraw_holds_false {s : State} {h : Nat} (p : Wait → Bool) (hh : s.holds h = false) : (s.withdraw p).holds h = false :=
  State.release_holds_false (s := s.modManger _) _ hh

theorem State.settle_holds {s : State} {hs : List Nat} {h : Nat} (hh : h ∈ hs) (hneed : h ∉ s.radioNeeds) : (s.settle hs).holds h = false :=
  s.drop_holds_mem (List.mem_filter.mpr ⟨hh, by simpa using hneed⟩)

/-! ## Steps of the radio that write no register -/

/-- `t` is `s` but for the manger, the amplifier's pins and its run. -/
def State.PaOnly (s t : State) : Prop := ∃ pins pa, t = { s with manger := t.manger, radio := { s.radio with pins := pins, pa := pa } }

namespace State.PaOnly

variable {s t u : State}

theorem of_manger (h : s.MangerOnly t) : s.PaOnly t := ⟨s.radio.pins, s.radio.pa, h⟩

theorem trans (h : s.PaOnly t) (g : t.PaOnly u) : s.PaOnly u := by
  obtain ⟨_, _, ht⟩ := h
  obtain ⟨pins, pa, hu⟩ := g
  exact ⟨pins, pa, by rw [hu, ht]⟩

theorem mod (s : State) (f : Radio → Radio) (hf : f s.radio = { s.radio with pins := (f s.radio).pins, pa := (f s.radio).pa }) :
    s.PaOnly (s.modRadio f) :=
  ⟨(f s.radio).pins, (f s.radio).pa, congrArg (fun r => { s with radio := r }) hf⟩

theorem regs (h : s.PaOnly t) : t.regs = s.regs := by obtain ⟨_, _, h⟩ := h; rw [h]

theorem get (h : s.PaOnly t) (f : Field) : t.get f = s.get f := by rw [State.get, State.get, State.rg, State.rg, h.regs]

theorem test (h : s.PaOnly t) (f : Field) : t.test f = s.test f := by rw [State.test, State.test, h.get]

theorem tx (h : s.PaOnly t) : t.radio.tx = s.radio.tx := by
  obtain ⟨_, _, h⟩ := h
  have htx := congrArg (fun u : State => u.radio.tx) h
  exact htx

theorem power (h : s.PaOnly t) : t.power = s.power := by obtain ⟨_, _, h⟩ := h; rw [h]

theorem cores (h : s.PaOnly t) : t.cores = s.cores := by obtain ⟨_, _, h⟩ := h; rw [h]

theorem still (h : s.PaOnly t) : s.Still t := by
  obtain ⟨_, _, h⟩ := h
  exact ⟨State.memKept_of_tables (by rw [h]) (by rw [h]) (by rw [h]) (by rw [h]), fun c => by rw [State.core, State.core, h]⟩

theorem foldl {α : Type} (f : State → α → State) (l : List α) (s : State) (h : ∀ t : State, ∀ x ∈ l, t.PaOnly (f t x)) : s.PaOnly (l.foldl f s) :=
  foldl_inv (s.PaOnly) f l s (fun t x hx ht => ht.trans (h t x hx)) (of_manger (State.MangerOnly.rfl' s))

end State.PaOnly

theorem State.mangerOnly_tiedDrop (s : State) (p : Nat) : s.MangerOnly (s.tiedDrop p) := by
  unfold State.tiedDrop
  dsimp only
  split
  · exact s.mangerOnly_modManger _
  · exact (s.mangerOnly_drop _).trans (State.mangerOnly_modManger _ _)

theorem State.mangerOnly_tiedAsk (s : State) (p : Nat) : s.MangerOnly (s.tiedAsk p) :=
  foldl_inv (s.MangerOnly) _ _ s (fun t n _ ht => ht.trans (t.mangerOnly_ask _ _)) (State.MangerOnly.rfl' s)

theorem State.tiedDrop_holds_false {s : State} {h : Nat} (p : Nat) (hh : s.holds h = false) : (s.tiedDrop p).holds h = false := by
  unfold State.tiedDrop
  dsimp only
  split
  · exact hh
  · have hdrop := State.drop_holds_false ((s.tiedTo p).map (28 + ·)) hh
    generalize s.drop ((s.tiedTo p).map (28 + ·)) = u at hdrop ⊢
    exact hdrop

/-- The state with the levels of step `k` at the pins and the run moved on or ended. -/
def State.paStepped (s : State) (table k : Nat) : State :=
  { s with radio := { s.radio with
      pins := (s.rg (pasReg table k)).setWidth 15
      pa := if (s.rg (pasReg table k)).getLsbD 19 ∨ 7 ≤ k ∨ s.power.phase = .pass then none
        else some ⟨table, k + 1, s.tick + max 1 (s.rg (padReg table k)).toNat, false⟩ } }

/-- The pins that step `k` no longer asserts. -/
def State.paOff (s : State) (table k : Nat) : List Nat :=
  let v : BitVec 15 := (s.rg (pasReg table k)).setWidth 15
  (if s.radio.pins.getLsbD 14 && !v.getLsbD 14 then [0] else []) ++ (if s.radio.pins.getLsbD 13 && !v.getLsbD 13 then [1] else [])

theorem State.paApply_eq (s : State) (table k : Nat) :
    s.paApply table k = (s.paOff table k).foldl (fun t p => t.tiedDrop p) (s.paStepped table k) := rfl

theorem State.paApply_only (s : State) (table k : Nat) : s.PaOnly (s.paApply table k) := by
  have hstep : s.PaOnly (s.paStepped table k) := ⟨_, _, rfl⟩
  rw [State.paApply_eq]
  exact hstep.trans (State.PaOnly.foldl _ _ _ (fun t p _ => State.PaOnly.of_manger (t.mangerOnly_tiedDrop p)))

theorem State.paDo_only (s : State) (table k : Nat) : s.PaOnly (s.paDo table k) := by
  unfold State.paDo
  dsimp only
  split
  · exact s.paApply_only table k
  · exact State.PaOnly.trans
      (State.PaOnly.foldl (fun t p => t.tiedAsk p) _ _ (fun t p _ => State.PaOnly.of_manger (t.mangerOnly_tiedAsk p)))
      (State.PaOnly.mod _ _ rfl)

theorem State.paStart_only (s : State) (table k : Nat) : s.PaOnly (s.paStart table k) :=
  State.PaOnly.trans (State.PaOnly.mod s _ rfl) (State.paDo_only _ table k)

theorem State.passPins_only (s : State) : s.PaOnly s.passPins := by
  unfold State.passPins
  split
  · exact s.paStart_only _ _
  · exact State.PaOnly.of_manger (State.MangerOnly.rfl' s)

/-- The settling of a transition sets the times that wait for a grant. -/
theorem State.radioSettle_eq (s : State) : ∃ since txCal, s.radioSettle = { s with radio := { s.radio with since := since, txCal := txCal } } := by
  have hmod : ∀ t : State, (∃ since, t = { s with radio := { s.radio with since := since } }) →
      ∃ since txCal, (match t.radio.txCal with
        | some ⟨none⟩ => if t.holds 6 then t.modRadio (fun r => { r with txCal := some ⟨some t.tick⟩ }) else t
        | _ => t) = { s with radio := { s.radio with since := since, txCal := txCal } } := by
    rintro t ⟨since, rfl⟩
    split
    · split
      · exact ⟨_, _, rfl⟩
      · exact ⟨since, s.radio.txCal, rfl⟩
    · exact ⟨since, s.radio.txCal, rfl⟩
  unfold State.radioSettle
  refine hmod _ ?_
  split
  · exact ⟨_, rfl⟩
  · exact ⟨s.radio.since, rfl⟩

/-! ## The state code moves (R143) -/

/-- A field of the radio's block that no report's repeat counter shares. -/
theorem calm_radio {f : Field} (h1 : 0xC9000 ≤ f.reg) (h2 : f.reg < 0xCA000) (h3 : f.reg % 16 ≠ 0 ∨ f.hi < 10 ∨ 13 < f.lo) : calmField f := by
  simp only [calmField, stallReg, CONS_DESC, STC_STATE, STC_FLAGS]
  omega

theorem calm_state {f : Field} (h : f.reg = RFE_STATE) : calmField f :=
  calm_radio (by rw [h]; decide) (by rw [h]; decide) (.inl (by rw [h]; decide))

theorem State.rfe_put (s : State) {n : Nat} (hn : n < 16) : (s.put RFE_STATE_STATE n).rfe = n :=
  (State.get_put_same s RFE_STATE_STATE n (by decide) (by decide)).trans (Nat.mod_eq_of_lt hn)

theorem State.rfeGo_follows (s : State) (n : Nat) : (s.put RFE_STATE_STATE n).Follows (s.rfeGo n) := State.follows_stallSync _

/-- A move of the state code keeps the rest of RFE_STATE. -/
theorem State.rfeGo_shows (s : State) {n : Nat} (hn : n < 16) : (s.rfeGo n).rfe = n ∧ s.Still (s.rfeGo n) ∧
    (s.rfeGo n).manger = s.manger ∧ (s.rfeGo n).power = s.power ∧
    (∀ f : Field, calmField f → f.reg ≠ RFE_STATE ∨ f.hi < 16 → (s.rfeGo n).get f = s.get f) ∧
    (∀ {α : Type} (g : Radio → α), (∀ r, g (Radio.cut r) = g r) → g (s.rfeGo n).radio = g s.radio) := by
  have h := s.rfeGo_follows n
  refine ⟨(h.get _ (calm_state rfl)).trans (s.rfe_put hn), (State.Still.put _ _ _).trans h.still, h.manger, h.power, fun f hf hne => ?_,
    fun g hg => h.radio_part g hg⟩
  rw [h.get f hf]
  exact State.get_put_other s n (by decide) (by decide) (hne.imp id .inl)

/-! ## OFF (R143) -/

/-- `t` is `s` after steps of its radio: other blocks' calm fields, times and the power unit stand. -/
structure State.Airs (s t : State) : Prop where
  still : s.Still t
  tick  : t.tick = s.tick
  mesh  : t.mesh = s.mesh
  power : t.power = s.power
  get   : ∀ f : Field, calmField f → f.reg < 0xC9000 ∨ 0xCA000 ≤ f.reg → t.get f = s.get f

namespace State.Airs

variable {s t u : State}

theorem trans (h : s.Airs t) (g : t.Airs u) : s.Airs u :=
  ⟨h.still.trans g.still, g.tick.trans h.tick, g.mesh.trans h.mesh, g.power.trans h.power, fun f hf hr => (g.get f hf hr).trans (h.get f hf hr)⟩

theorem rfl' (s : State) : s.Airs s := ⟨State.Still.rfl' s, rfl, rfl, rfl, fun _ _ _ => rfl⟩

theorem of_follows (h : s.Follows t) : s.Airs t := ⟨h.still, h.tick, h.mesh, h.power, fun f hf _ => h.get f hf⟩

theorem of_manger (h : s.MangerOnly t) : s.Airs t := ⟨State.Still.manger h, h.tick, by rw [h], by rw [h], fun f _ _ => h.get f⟩

theorem of_radio (s : State) (f : Radio → Radio) : s.Airs (s.modRadio f) :=
  ⟨⟨State.memKept_of_tables rfl rfl rfl rfl, fun _ => rfl⟩, rfl, rfl, rfl, fun _ _ _ => rfl⟩

theorem of_put (s : State) {f : Field} (n : Nat) (h : (0xC9000 ≤ f.reg ∧ f.reg < 0xCA000) ∨ 0xCC000 ≤ f.reg) : s.Airs (s.put f n) :=
  ⟨State.Still.put _ _ _, rfl, rfl, rfl, fun g hg hr => State.get_put_ne s n (fun he => by
    have hg1 := hg.1
    have hnot := hg.2
    simp only [stallReg] at hnot
    rw [he] at hr hg1 hnot
    omega)⟩

theorem of_raise (s : State) {f : Field} (h : (0xC9000 ≤ f.reg ∧ f.reg < 0xCA000) ∨ 0xCC000 ≤ f.reg) : s.Airs (s.raise f) :=
  ⟨State.Still.raise _ _, State.raise_tick _ _, State.raise_mesh _ _, State.raise_power _ _, fun g hg hr =>
    (State.raise_get f g s).trans ((of_put s 1 h).get g hg hr)⟩

theorem of_paOnly (h : s.PaOnly t) : s.Airs t :=
  ⟨h.still, by obtain ⟨_, _, h⟩ := h; rw [h], by obtain ⟨_, _, h⟩ := h; rw [h], h.power, fun f _ _ => h.get f⟩

end State.Airs

/-- `t` is `s` but for the frame unit, the link and their registers. -/
structure State.LinkOnly (s t : State) : Prop where
  still  : s.Still t
  tick   : t.tick = s.tick
  mesh   : t.mesh = s.mesh
  power  : t.power = s.power
  manger : t.manger = s.manger
  radio  : t.radio = s.radio
  get    : ∀ f : Field, f.reg < 0xCC000 → t.get f = s.get f

namespace State.LinkOnly

variable {s t u : State}

theorem rfl' (s : State) : s.LinkOnly s := ⟨State.Still.rfl' s, rfl, rfl, rfl, rfl, rfl, fun _ _ => rfl⟩

theorem trans (h : s.LinkOnly t) (g : t.LinkOnly u) : s.LinkOnly u :=
  ⟨h.still.trans g.still, g.tick.trans h.tick, g.mesh.trans h.mesh, g.power.trans h.power, g.manger.trans h.manger,
    g.radio.trans h.radio, fun f hf => (g.get f hf).trans (h.get f hf)⟩

theorem setRg (s : State) {a : Nat} (v : W20) (h : 0xCC000 ≤ a) : s.LinkOnly (s.setRg a v) :=
  ⟨State.Still.setRg _ _ _, rfl, rfl, rfl, rfl, rfl, fun f hf => by
    rw [State.get, State.get, State.rg_setRg_ne s v (Nat.ne_of_lt (Nat.lt_of_lt_of_le hf h))]⟩

theorem put (s : State) {f : Field} (n : Nat) (h : 0xCC000 ≤ f.reg) : s.LinkOnly (s.put f n) := setRg s _ h

theorem raise (s : State) {f : Field} (h : 0xCC000 ≤ f.reg) : s.LinkOnly (s.raise f) :=
  ⟨State.Still.raise _ _, State.raise_tick _ _, State.raise_mesh _ _, State.raise_power _ _, State.raise_manger _ _, State.raise_radio _ _,
    fun _ hg => State.raise_get_ne f s (Nat.ne_of_lt (Nat.lt_of_lt_of_le hg h))⟩

theorem modLink (s : State) (f : Link → Link) : s.LinkOnly (s.modLink f) :=
  ⟨s.still_modLink f, rfl, rfl, rfl, rfl, rfl, fun _ _ => rfl⟩

theorem modFrames (s : State) (f : FrameUnit → FrameUnit) : s.LinkOnly (s.modFrames f) :=
  ⟨s.still_modFrames f, rfl, rfl, rfl, rfl, rfl, fun _ _ => rfl⟩

theorem ite {p : Prop} [Decidable p] (ht : s.LinkOnly t) (hu : s.LinkOnly u) : s.LinkOnly (if p then t else u) := by
  split <;> assumption

theorem airs (h : s.LinkOnly t) : s.Airs t :=
  ⟨h.still, h.tick, h.mesh, h.power, fun f hf hr => h.get f (by
    have h1 := hf.1
    have h2 := hf.2
    omega)⟩

end State.LinkOnly

theorem State.rcAdd_link (s : State) (a b : BitVec 32) : s.LinkOnly (s.rcAdd a b) := by
  unfold State.rcAdd
  exact State.LinkOnly.ite (State.LinkOnly.rfl' s) (State.LinkOnly.ite
    ((State.LinkOnly.put _ _ (by decide)).trans (State.LinkOnly.raise _ (by decide))) (State.LinkOnly.modLink s _))

theorem State.ackFail_link (s : State) (code : Nat) : s.LinkOnly (s.ackFail code) := by
  unfold State.ackFail
  split
  · exact State.LinkOnly.rfl' s
  · have hbase : ∀ l, s.LinkOnly (((s.put ACK_STAT_LAST code).linkLo 6).modLink l) := fun l =>
      ((State.LinkOnly.put _ _ (by decide)).trans (State.LinkOnly.put _ _ (by decide))).trans (State.LinkOnly.modLink _ l)
    exact State.LinkOnly.ite ((hbase _).trans (State.rcAdd_link _ _ _)) (hbase _)

theorem slot_high (k : Nat) : 0xCC000 ≤ FU_TX_CTL k := by simp only [FU_TX_CTL]; omega

theorem State.ackAbandon_link (s : State) (k : Nat) : s.LinkOnly (s.ackAbandon k) := by
  unfold State.ackAbandon
  split
  · exact State.LinkOnly.ite (State.LinkOnly.rfl' s) (State.LinkOnly.ite (State.LinkOnly.modLink s _)
      ((s.ackFail_link 6).trans (State.LinkOnly.put _ _ (slot_high k))))
  · exact State.LinkOnly.rfl' s

theorem State.txDrop_link (s : State) : s.LinkOnly s.txDrop := by
  unfold State.txDrop
  split
  · exact (((State.LinkOnly.put _ _ (slot_high _)).trans (State.LinkOnly.setRg _ _ (by decide))).trans (State.LinkOnly.modFrames _ _)).trans
      (State.ackAbandon_link _ _)
  · exact State.LinkOnly.rfl' s

/-- The radio's own part of going OFF. -/
def Radio.off (r : Radio) (blank : Bool) : Radio :=
  { r with
    since := none, tx := none, turn := none, swapped := false, cal := [], calBegun := none, rxCal := none
    txCal := none, maskPrev := [], winIdle := true, paAct := none
    rxInt := (r.rxPend.map (·.1)).getD r.rxInt, rxFrac := (r.rxPend.map (·.2)).getD r.rxFrac, rxPend := none
    blankTo := if blank then untilListen else r.blankTo }

/-- The rations of the radio returned and its requests withdrawn. -/
def State.airReturned (s : State) : State :=
  (s.drop [0, 1, 2, 4, 5, 6]).withdraw (fun w => match w.kind with
    | .swap _ take => take.any ([0, 1, 2, 4, 6].contains ·)
    | _ => false)

/-- Locks and BUSY read 0 in OFF. -/
def State.locksOff (s : State) : State := ((s.put RFE_STATE_RXLOCK 0).put RFE_STATE_TXLOCK 0).put RFE_CAL_BUSY 0

theorem State.radioOff_eq (s : State) : s.radioOff =
    ((s.airReturned.txDrop.modRadio (fun r => r.off (4 ≤ s.rfe))).locksOff.paSafe.calShow).rfeGo 0 := by
  simp only [State.radioOff, Radio.off, decide_eq_true_eq]
  rfl

/-- OFF: no ration of the radio is held, nothing is sent and the pins are safe; the window's chains stand. -/
theorem State.radioOff_shows (s : State) : s.Airs s.radioOff ∧ s.radioOff.rfe = 0 ∧ s.radioOff.radio.pins = 0 ∧ s.radioOff.radio.tx = none ∧
    (∀ h ∈ [0, 1, 2, 4, 5, 6], s.radioOff.holds h = false) ∧ s.radioOff.window = s.window ∧
    (∀ f : Field, calmField f → 0xC9000 ≤ f.reg → f.reg < 0xCA000 → f.reg ≠ RFE_STATE → f.reg ≠ RFE_CAL → s.radioOff.get f = s.get f) := by
  have hret : s.MangerOnly s.airReturned := (s.mangerOnly_drop _).trans (State.mangerOnly_withdraw _ _)
  have hheld : ∀ h ∈ [0, 1, 2, 4, 5, 6], s.airReturned.holds h = false := fun h hh =>
    State.withdraw_holds_false _ (s.drop_holds_mem hh)
  obtain ⟨a, ha⟩ : ∃ a, a = s.airReturned := ⟨_, rfl⟩
  have hdrop := a.txDrop_link
  obtain ⟨b, hb⟩ : ∃ b, b = a.txDrop := ⟨_, rfl⟩
  obtain ⟨c, hc⟩ : ∃ c, c = b.modRadio (fun r => r.off (4 ≤ s.rfe)) := ⟨_, rfl⟩
  obtain ⟨d, hd⟩ : ∃ d, d = c.locksOff := ⟨_, rfl⟩
  let e := d.modRadio (fun r => { r with pins := 0, pa := none })
  have hsafe : d.paSafe = (e.tiedDrop 0).tiedDrop 1 := rfl
  have hties : e.MangerOnly ((e.tiedDrop 0).tiedDrop 1) := (e.mangerOnly_tiedDrop 0).trans (State.mangerOnly_tiedDrop _ 1)
  have hheld' : ∀ h ∈ [0, 1, 2, 4, 5, 6], ((e.tiedDrop 0).tiedDrop 1).holds h = false := fun h hh => by
    refine State.tiedDrop_holds_false _ (State.tiedDrop_holds_false _ ?_)
    show d.holds h = false
    rw [hd]
    show c.holds h = false
    rw [hc]
    show b.holds h = false
    rw [State.holds, State.acct, hb, hdrop.manger, ha]
    exact hheld h hh
  obtain ⟨g, hg⟩ : ∃ g, g = (e.tiedDrop 0).tiedDrop 1 := ⟨_, rfl⟩
  rw [← hg] at hties hheld' hsafe
  have hend : s.radioOff = g.calShow.rfeGo 0 := by
    rw [s.radioOff_eq, ← ha, ← hb, ← hc, ← hd, hsafe]
  obtain ⟨hrfe, hstill, hmanger, hpower, hget, hradio⟩ := g.calShow.rfeGo_shows (n := 0) (by decide)
  have hfo := g.calShow.rfeGo_follows 0
  have hcair : b.Airs c := hc ▸ State.Airs.of_radio b _
  have hdair : c.Airs d := by
    rw [hd]
    exact ((State.Airs.of_put _ _ (by decide)).trans (State.Airs.of_put _ _ (by decide))).trans (State.Airs.of_put _ _ (by decide))
  have hair : s.Airs g.calShow := ((((((ha ▸ State.Airs.of_manger hret).trans (hb ▸ hdrop.airs)).trans hcair).trans hdair).trans
    (State.Airs.of_radio d _)).trans (State.Airs.of_manger hties)).trans (State.Airs.of_put _ _ (by decide))
  have hgradio : g.radio = e.radio := by rw [hties]
  have hdradio : d.radio = c.radio := by rw [hd]; rfl
  have hcradio : c.radio.tx = none := by rw [hc]; rfl
  have hin : ∀ f : Field, calmField f → f.reg ≠ RFE_CAL → 0xC9000 ≤ f.reg → f.reg < 0xCA000 →
      (f.reg = RFE_STATE → 13 < f.lo ∧ f.hi < 16) → s.radioOff.get f = s.get f := fun f hf hne h1 h2 hst => by
    have hother : ∀ (u : State) (p : Field) (n : Nat), p.reg = RFE_STATE → p.hi < 14 → p.lo ≤ p.hi → (u.put p n).get f = u.get f :=
      fun u p n hp hhi hlo => State.get_put_other u n (by omega) hlo (by
        by_cases hreg : f.reg = RFE_STATE
        · exact .inr (.inr (by have := (hst hreg).1; omega))
        · exact .inl (hp ▸ hreg))
    rw [hend, hget f hf (by by_cases h : f.reg = RFE_STATE; exact .inr (hst h).2; exact .inl h), State.calShow,
      hother _ _ _ rfl (by decide) (by decide), hties.get]
    show d.get f = _
    rw [hd, State.locksOff, State.get_put_ne _ _ hne, hother _ _ _ rfl (by decide) (by decide), hother _ _ _ rfl (by decide) (by decide), hc]
    show b.get f = _
    rw [hb, hdrop.get f (by omega), ha, hret.get]
  refine ⟨?_, ?_, ?_, ?_, fun h hh => ?_, hin RFE_STATE_CHAINS (calm_state rfl) (by decide) (by decide) (by decide) (fun _ => by decide),
    fun f hf h1 h2 hst hcal => hin f hf hcal h1 h2 (fun h => absurd h hst)⟩
  · rw [hend]
    exact (hair.trans (State.Airs.of_put _ _ (by decide))).trans (State.Airs.of_follows hfo)
  · rw [hend]; exact hrfe
  · rw [hend]
    have hpins : g.calShow.radio.pins = 0 := by show g.radio.pins = 0; rw [hgradio]; rfl
    rcases hfo.radio with h | ⟨h, -⟩ <;> rw [h]
    · exact hpins
    · rfl
  · rw [hend]
    exact hfo.tx (by show g.radio.tx = none; rw [hgradio]; show d.radio.tx = none; rw [hdradio]; exact hcradio)
  · rw [State.holds, State.acct, hend, hmanger]
    exact hheld' h hh

end Sys2Proof.Machine
end

section
/-! SUPPORT. Windows, requests and the receive LO (R138-R144), and the statement about the radio's states. -/

set_option Elab.async false

namespace Sys2Proof.Machine

theorem State.served_of_manger {s t : State} (h : t.manger = s.manger) {n : Nat} (hs : s.served n) : t.served n := by
  simpa only [State.served, State.holds, State.acct, State.asked, h] using hs

theorem State.calNeeds_of {s t : State} (hcal : t.radio.cal = s.radio.cal) (htx : t.radio.txCal = s.radio.txCal)
    (hrg : t.rg RFE_CAL = s.rg RFE_CAL) : t.calNeeds = s.calNeeds := by
  rw [State.calNeeds, State.calNeeds, State.calHeld, State.calHeld, hcal, htx, hrg]

theorem State.window_put (s : State) {ch : Nat} (h : ch < 4) : (s.put RFE_STATE_CHAINS ch).window = ch :=
  (State.get_put_same s RFE_STATE_CHAINS ch (by decide) (by decide)).trans (Nat.mod_eq_of_lt h)

theorem State.window_put_state (s : State) (n : Nat) : (s.put RFE_STATE_STATE n).window = s.window :=
  s.get_put_beside n (by decide) (by decide) (.inl (by decide))

/-- A settled transition keeps all but its times. -/
theorem State.radioSettle_shows (s : State) : s.Airs s.radioSettle ∧ s.radioSettle.manger = s.manger ∧ s.radioSettle.regs = s.regs ∧
    ∀ {α : Type} (g : Radio → α), (∀ (r : Radio) (a : Option Nat) (b : Option SynCal), g { r with since := a, txCal := b } = g r) →
      g s.radioSettle.radio = g s.radio := by
  obtain ⟨a, b, h⟩ := s.radioSettle_eq
  rw [h]
  exact ⟨State.Airs.of_radio s (fun r => { r with since := a, txCal := b }), rfl, rfl, fun g hg => hg _ _ _⟩

/-! ## A ramp (R143, R144) -/

/-- The receive set of a ramp's chains is asked for. -/
def State.rampAsked (s : State) (ch : Nat) : State :=
  ((((s.put RFE_STATE_CHAINS ch).put RFE_STATE_STATE 3).settle [0, 1, 2]).ask 0 (rxSet ch)).modRadio (fun r => { r with since := none })

theorem State.rampStart_eq (s : State) (ch : Nat) : s.rampStart ch = (s.rampAsked ch).radioSettle.rfeGo 3 := rfl

theorem State.rampAsked_shows (s : State) {ch : Nat} (hch : ch < 4) : s.Airs (s.rampAsked ch) ∧ (s.rampAsked ch).window = ch ∧
    (∀ h ∈ rxSet ch, (s.rampAsked ch).served h) := by
  obtain ⟨a, ha⟩ : ∃ a, a = (s.put RFE_STATE_CHAINS ch).put RFE_STATE_STATE 3 := ⟨_, rfl⟩
  have hab : a.MangerOnly ((a.settle [0, 1, 2]).ask 0 (rxSet ch)) := (a.mangerOnly_drop _).trans (State.mangerOnly_ask _ 0 _)
  obtain ⟨b, hb⟩ : ∃ b, b = (a.settle [0, 1, 2]).ask 0 (rxSet ch) := ⟨_, rfl⟩
  have hend : s.rampAsked ch = b.modRadio (fun r => { r with since := none }) := by rw [hb, ha]; rfl
  have hair : s.Airs a := by
    rw [ha]
    exact (State.Airs.of_put _ _ (.inl ⟨by decide, by decide⟩)).trans (State.Airs.of_put _ _ (.inl ⟨by decide, by decide⟩))
  refine ⟨?_, ?_, fun h hh => ?_⟩
  · rw [hend]
    exact (hair.trans (State.Airs.of_manger (hb ▸ hab))).trans (State.Airs.of_radio _ _)
  · rw [hend]
    show b.window = ch
    rw [← hb] at hab
    rw [State.window, hab.get, ha]
    exact (State.window_put_state _ _).trans (s.window_put hch)
  · rw [hend]
    refine State.served_of_manger (s := b) rfl ?_
    rw [hb]
    exact State.ask_served _ 0 hh

/-- The ramp runs in state 3 with its chains, which hold or wait for their charges. -/
theorem State.rampStart_shows (s : State) {ch : Nat} (hch : ch < 4) : s.Airs (s.rampStart ch) ∧ (s.rampStart ch).rfe = 3 ∧
    (s.rampStart ch).window = ch ∧ ∀ h ∈ rxSet ch, (s.rampStart ch).served h := by
  obtain ⟨hair, hwin, hserved⟩ := s.rampAsked_shows hch
  rw [s.rampStart_eq]
  obtain ⟨hset, hman, hregs, -⟩ := (s.rampAsked ch).radioSettle_shows
  obtain ⟨hrfe, -, hmanger, -, hget, -⟩ := (s.rampAsked ch).radioSettle.rfeGo_shows (n := 3) (by decide)
  have hgo := (s.rampAsked ch).radioSettle.rfeGo_follows 3
  refine ⟨(hair.trans hset).trans ((State.Airs.of_put _ _ (.inl ⟨by decide, by decide⟩)).trans (State.Airs.of_follows hgo)), hrfe, ?_,
    fun h hh => State.served_of_manger (hmanger.trans hman) (hserved h hh)⟩
  rw [State.window, hget RFE_STATE_CHAINS (calm_state rfl) (.inr (by decide)), State.get, State.rg, hregs]
  exact hwin

/-! ## Requests (R143) -/

/-- A request for STANDBY of a radio in OFF. -/
def State.standbyAsked (s : State) : State := ((s.put RFE_CTL_REQ 1).ask 0 [5]).modRadio (fun r => { r with since := none })

theorem State.radioRequest_one {s : State} (h0 : s.rfe = 0) (href : s.test CLK_STAT_REF_FAIL = false) :
    s.radioRequest 1 = s.standbyAsked.radioSettle.rfeGo 1 := if_pos ⟨rfl, h0, by rw [href]; rfl⟩

theorem State.standby_shows {s : State} (h0 : s.rfe = 0) (href : s.test CLK_STAT_REF_FAIL = false) : s.Airs (s.radioRequest 1) ∧
    (s.radioRequest 1).rfe = 1 ∧ (s.radioRequest 1).get RFE_CTL_REQ = 1 ∧ (s.radioRequest 1).window = s.window ∧
    (s.radioRequest 1).served 5 ∧ ∀ h, s.served h → (s.radioRequest 1).served h := by
  obtain ⟨a, ha⟩ : ∃ a, a = s.put RFE_CTL_REQ 1 := ⟨_, rfl⟩
  have hm : a.MangerOnly (a.ask 0 [5]) := a.mangerOnly_ask 0 [5]
  obtain ⟨b, hb⟩ : ∃ b, b = a.ask 0 [5] := ⟨_, rfl⟩
  rw [← hb] at hm
  have hend : s.standbyAsked = b.modRadio (fun r => { r with since := none }) := by rw [hb, ha]; rfl
  have hair : s.Airs s.standbyAsked := by
    rw [hend]
    exact ((ha ▸ State.Airs.of_put s 1 (.inl ⟨by decide, by decide⟩)).trans (State.Airs.of_manger hm)).trans (State.Airs.of_radio _ _)
  have hregs : s.standbyAsked.regs = a.regs := by rw [hend]; exact hm.regs
  have hserved : ∀ h, b.served h → s.standbyAsked.served h := fun h hh => by
    rw [hend]
    exact State.served_of_manger (s := b) rfl hh
  rw [State.radioRequest_one h0 href]
  obtain ⟨hset, hman, hregs', -⟩ := s.standbyAsked.radioSettle_shows
  obtain ⟨hrfe, -, hmanger, -, hget, -⟩ := s.standbyAsked.radioSettle.rfeGo_shows (n := 1) (by decide)
  have hgo := s.standbyAsked.radioSettle.rfeGo_follows 1
  have hkeep : ∀ f : Field, calmField f → f.reg ≠ RFE_STATE ∨ f.hi < 16 → (s.standbyAsked.radioSettle.rfeGo 1).get f = a.get f :=
    fun f hf hne => by rw [hget f hf hne, State.get, State.get, State.rg, State.rg, hregs', hregs]
  refine ⟨(hair.trans hset).trans ((State.Airs.of_put _ _ (.inl ⟨by decide, by decide⟩)).trans (State.Airs.of_follows hgo)), hrfe, ?_, ?_,
    State.served_of_manger (hmanger.trans hman) (hserved 5 (hb ▸ State.ask_served a 0 (List.mem_singleton_self 5))),
    fun h hh => State.served_of_manger (hmanger.trans hman) (hserved h (hb ▸ State.served_ask 0 [5] ?_))⟩
  · rw [hkeep RFE_CTL_REQ (calm_radio (by decide) (by decide) (.inr (.inl (by decide)))) (.inl (by decide)), ha]
    exact State.get_put_same s RFE_CTL_REQ 1 (by decide) (by decide)
  · rw [State.window, hkeep RFE_STATE_CHAINS (calm_state rfl) (.inr (by decide)), ha]
    exact State.get_put_ne s 1 (by decide)
  · rw [ha]
    exact hh

/-! ## A window closed (R144) -/

/-- The receive set of a closed window is returned. -/
def State.closing (s : State) : State :=
  (((s.put RFE_STATE_CHAINS 0).modRadio (fun r => { r with winIdle := false })).put RFE_STATE_STATE 2).settle [0, 1, 2]

theorem State.windowClose_eq {s : State} (h : s.rfe = 3 ∨ s.rfe = 4) : s.windowClose =
    (s.closing.modRadio (fun r => { r with since := none, blankTo := if s.rfe = 4 then untilListen else r.blankTo })).rfeGo 2 := by
  rw [State.windowClose]
  exact if_pos h

theorem State.windowClose_shows {s : State} (h : s.rfe = 3 ∨ s.rfe = 4) : s.Airs s.windowClose ∧ s.windowClose.rfe = 2 ∧
    s.windowClose.window = 0 ∧ ∀ n ∈ [0, 1, 2], n ∉ s.calNeeds → s.windowClose.holds n = false := by
  obtain ⟨a, ha⟩ : ∃ a, a = ((s.put RFE_STATE_CHAINS 0).modRadio (fun r => { r with winIdle := false })).put RFE_STATE_STATE 2 := ⟨_, rfl⟩
  have hclose : s.closing = a.settle [0, 1, 2] := by rw [ha]; rfl
  have hm : a.MangerOnly s.closing := hclose ▸ a.mangerOnly_drop _
  have hcal : a.calNeeds = s.calNeeds := by
    rw [ha]
    exact State.calNeeds_of rfl rfl ((State.rg_put_ne _ RFE_STATE_STATE 2 (by decide)).trans (State.rg_put_ne s RFE_STATE_CHAINS 0 (by decide)))
  have hrfe2 : a.rfe = 2 := by rw [ha]; exact State.rfe_put _ (by decide)
  have hneeds : a.radioNeeds = s.calNeeds := by simp [State.radioNeeds, hrfe2, hcal]
  have hheld : ∀ n ∈ [0, 1, 2], n ∉ s.calNeeds → s.closing.holds n = false := fun n hn hne => by
    rw [hclose]
    exact State.settle_holds hn (hneeds ▸ hne)
  have hwin : a.window = 0 := by
    rw [ha]
    exact (State.window_put_state _ _).trans (s.window_put (by decide))
  have hair : s.Airs a := by
    rw [ha]
    exact ((State.Airs.of_put _ _ (.inl ⟨by decide, by decide⟩)).trans (State.Airs.of_radio _ _)).trans
      (State.Airs.of_put _ _ (.inl ⟨by decide, by decide⟩))
  rw [State.windowClose_eq h]
  generalize s.closing = c at hm hheld ⊢
  obtain ⟨d, hd⟩ : ∃ d, d = c.modRadio (fun r => { r with since := none, blankTo := if s.rfe = 4 then untilListen else r.blankTo }) := ⟨_, rfl⟩
  rw [← hd]
  obtain ⟨hrfe, -, hmanger, -, hget, -⟩ := d.rfeGo_shows (n := 2) (by decide)
  have hgo := d.rfeGo_follows 2
  refine ⟨((hair.trans (State.Airs.of_manger hm)).trans (hd ▸ State.Airs.of_radio c _)).trans
    ((State.Airs.of_put _ _ (.inl ⟨by decide, by decide⟩)).trans (State.Airs.of_follows hgo)), hrfe, ?_, fun n hn hne => ?_⟩
  · rw [State.window, hget RFE_STATE_CHAINS (calm_state rfl) (.inr (by decide)), hd]
    show c.get RFE_STATE_CHAINS = 0
    rw [hm.get]
    exact hwin
  · rw [State.holds, State.acct, hmanger, hd]
    exact hheld n hn hne

/-! ## A window opened (R144) -/

/-- The state in which a window is opened: held gains have applied. -/
def State.opening (s : State) : State := s.gainApply.modRadio (fun r => { r with winIdle := s.rfe < 2 })

theorem State.gainApply_shows (s : State) : s.Airs s.gainApply ∧ (∀ f : Field, f.reg = RFE_STATE ∨ f.reg = RFE_CTL → s.gainApply.get f = s.get f) ∧
    s.gainApply.test RFE_GAINA_PEND = false ∧ s.gainApply.test RFE_GAINB_PEND = false ∧
    s.gainApply.radio = { s.radio with gainA := none, gainB := none } := by
  have hb : (s.put RFE_GAINA_PEND 0).put RFE_GAINB_PEND 0 = (s.put RFE_GAINA_PEND 0).put RFE_GAINB_PEND 0 := rfl
  refine ⟨((State.Airs.of_put _ _ (.inl ⟨by decide, by decide⟩)).trans (State.Airs.of_put _ _ (.inl ⟨by decide, by decide⟩))).trans
    (State.Airs.of_radio _ _), fun f hf => ?_, ?_, ?_, rfl⟩
  · show ((s.put RFE_GAINA_PEND 0).put RFE_GAINB_PEND 0).get f = s.get f
    rw [State.get_put_ne _ _ (by rcases hf with h | h <;> rw [h] <;> decide),
      State.get_put_ne _ _ (by rcases hf with h | h <;> rw [h] <;> decide)]
  · show ((s.put RFE_GAINA_PEND 0).put RFE_GAINB_PEND 0).test RFE_GAINA_PEND = false
    rw [State.test, State.get_put_ne _ _ (by decide), State.get_put_same s RFE_GAINA_PEND 0 (by decide) (by decide)]
    rfl
  · show ((s.put RFE_GAINA_PEND 0).put RFE_GAINB_PEND 0).test RFE_GAINB_PEND = false
    rw [State.test, State.get_put_same _ RFE_GAINB_PEND 0 (by decide) (by decide)]
    rfl

theorem State.opening_shows (s : State) : s.Airs s.opening ∧ s.opening.rfe = s.rfe ∧ s.opening.radio.cal = s.radio.cal ∧
    s.opening.radio.blankTo = s.radio.blankTo := by
  obtain ⟨hair, hget, -, -, hradio⟩ := s.gainApply_shows
  refine ⟨hair.trans (State.Airs.of_radio _ _), hget RFE_STATE_STATE (.inl rfl), ?_, ?_⟩
  · show s.gainApply.radio.cal = _
    rw [hradio]
  · show s.gainApply.radio.blankTo = _
    rw [hradio]

/-- The chains of the open window change in LISTEN, and the stalls are blanked for 96 ticks. -/
def State.chainsChanged (s : State) (ch : Nat) : State :=
  (((s.put RFE_STATE_CHAINS ch).settle [0, 1]).ask 0 (rxSet ch)).modRadio (fun r => { r with blankTo := max r.blankTo (s.tick + 96) })

theorem State.chainsChanged_shows (s : State) {ch : Nat} (hch : ch < 4) : let t := (s.chainsChanged ch).stallSync
    s.Airs t ∧ t.rfe = s.rfe ∧ t.window = ch ∧ t.radio.blankTo = max s.radio.blankTo (s.tick + 96) := by
  obtain ⟨a, ha⟩ : ∃ a, a = s.put RFE_STATE_CHAINS ch := ⟨_, rfl⟩
  have hm : a.MangerOnly ((a.settle [0, 1]).ask 0 (rxSet ch)) := (a.mangerOnly_drop _).trans (State.mangerOnly_ask _ 0 _)
  obtain ⟨b, hb⟩ : ∃ b, b = (a.settle [0, 1]).ask 0 (rxSet ch) := ⟨_, rfl⟩
  rw [← hb] at hm
  have hend : s.chainsChanged ch = b.modRadio (fun r => { r with blankTo := max r.blankTo (s.tick + 96) }) := by rw [hb, ha]; rfl
  have hb' : b.radio = s.radio := by rw [hm, ha]; rfl
  have hblank : (s.chainsChanged ch).radio.blankTo = max s.radio.blankTo (s.tick + 96) := by
    rw [hend, ← hb']
    rfl
  have hget : ∀ f, (s.chainsChanged ch).get f = a.get f := fun f => by rw [hend]; exact hm.get f
  have hair : s.Airs (s.chainsChanged ch) := by
    rw [hend]
    exact ((ha ▸ State.Airs.of_put s ch (.inl ⟨by decide, by decide⟩)).trans (State.Airs.of_manger hm)).trans (State.Airs.of_radio _ _)
  have hgo := (s.chainsChanged ch).follows_stallSync
  refine ⟨hair.trans (State.Airs.of_follows hgo), ?_, ?_, (hgo.radio_part Radio.blankTo (fun _ => rfl)).trans hblank⟩
  · rw [State.rfe, hgo.get _ (calm_state rfl), hget, ha]
    exact s.get_put_beside ch (by decide) (by decide) (.inr (by decide))
  · rw [State.window, hgo.get _ (calm_state rfl), hget, ha]
    exact s.window_put hch

theorem State.windowOpen_standby {s : State} {ch : Nat} (h : s.rfe = 2) (hcal : s.radio.cal = []) : s.windowOpen ch = s.opening.rampStart ch := by
  obtain ⟨-, hrfe, hc, -⟩ := s.opening_shows
  unfold State.windowOpen
  dsimp only
  rw [show (s.gainApply.modRadio (fun r => { r with winIdle := s.rfe < 2 })).rfe = 2 from hrfe.trans h]
  exact if_pos (by rw [show (s.gainApply.modRadio (fun r => { r with winIdle := s.rfe < 2 })).radio.cal = [] from hc.trans hcal]; rfl)

theorem State.windowOpen_listen {s : State} {ch : Nat} (h : s.rfe = 4) : s.windowOpen ch = (s.opening.chainsChanged ch).stallSync := by
  obtain ⟨-, hrfe, -, -⟩ := s.opening_shows
  unfold State.windowOpen
  dsimp only
  rw [show (s.gainApply.modRadio (fun r => { r with winIdle := s.rfe < 2 })).rfe = 4 from hrfe.trans h]
  rfl

/-! ## The receive LO (R138, R139) -/

/-- The radio with an RX LO pair in force. -/
def State.loSet (s : State) (int : Nat) (frac : W20) : State := s.modRadio (fun r => { r with rxInt := int, rxFrac := frac, rxPend := none })

theorem State.loApply_eq (s : State) (int : Nat) (frac : W20) :
    s.loApply int frac = if 2 ≤ s.rfe then ((s.loSet int frac).put RFE_STATE_RXLOCK 0).stallSync else s.loSet int frac := rfl

theorem State.loApply_shows (s : State) (int : Nat) (frac : W20) : let t := s.loApply int frac
    s.Airs t ∧ (2 ≤ s.rfe → t.test RFE_STATE_RXLOCK = false) ∧
    (∀ f : Field, calmField f → f.reg ≠ RFE_STATE ∨ 13 < f.lo → t.get f = s.get f) ∧
    (∀ {α : Type} (g : Radio → α), (∀ r, g (Radio.cut r) = g r) → g t.radio = g { s.radio with rxInt := int, rxFrac := frac, rxPend := none }) := by
  dsimp only
  rw [State.loApply_eq]
  have hset : s.Airs (s.loSet int frac) := State.Airs.of_radio s _
  have hradio : (s.loSet int frac).radio = { s.radio with rxInt := int, rxFrac := frac, rxPend := none } := rfl
  have hget : ∀ f, (s.loSet int frac).get f = s.get f := fun _ => rfl
  generalize s.loSet int frac = u at *
  split
  · have hgo := (u.put RFE_STATE_RXLOCK 0).follows_stallSync
    refine ⟨(hset.trans (State.Airs.of_put _ _ (.inl ⟨by decide, by decide⟩))).trans (State.Airs.of_follows hgo), fun _ => ?_, fun f hf hne => ?_,
      fun g hg => ?_⟩
    · rw [hgo.test (calm_state rfl), State.test, State.get_put_same _ _ _ (by decide) (by decide)]
      rfl
    · rw [hgo.get f hf, State.get_put_other u 0 (by decide) (by decide) (hne.imp id .inr), hget]
    · rw [hgo.radio_part g hg]
      exact congrArg g hradio
  · next h => exact ⟨hset, fun h' => absurd h' h, fun f _ _ => hget f, fun g _ => congrArg g hradio⟩

/-! ## Transitions (R143, R147) -/

/-- The radio's part of reaching LISTEN. -/
def State.listening (s : State) : State := s.modRadio (fun r => { r with since := none, blankTo := 0, turn := none, swapped := false })

theorem State.listenReached_shows (s : State) : s.Airs s.listenReached ∧ s.listenReached.rfe = 4 ∧ s.listenReached.window = s.window ∧
    s.listenReached.radio.blankTo = 0 ∧ s.listenReached.radio.winIdle = s.radio.winIdle ∧
    (∀ f : Field, calmField f → f.reg ≠ RFE_STATE → s.listenReached.get f = s.get f) := by
  have hend : s.listenReached = s.listening.rfeGo 4 := rfl
  have hair : s.Airs s.listening := State.Airs.of_radio s _
  have hblank : s.listening.radio.blankTo = 0 ∧ s.listening.radio.winIdle = s.radio.winIdle := ⟨rfl, rfl⟩
  have hsame : ∀ f, s.listening.get f = s.get f := fun _ => rfl
  rw [hend]
  generalize s.listening = u at *
  obtain ⟨hrfe, -, -, -, hget, hradio⟩ := u.rfeGo_shows (n := 4) (by decide)
  exact ⟨hair.trans ((State.Airs.of_put _ _ (.inl ⟨by decide, by decide⟩)).trans (State.Airs.of_follows (u.rfeGo_follows 4))), hrfe,
    (hget RFE_STATE_CHAINS (calm_state rfl) (.inr (by decide))).trans (hsame _),
    (hradio Radio.blankTo (fun _ => rfl)).trans hblank.1, (hradio Radio.winIdle (fun _ => rfl)).trans hblank.2,
    fun f hf hne => (hget f hf (.inl hne)).trans (hsame f)⟩

theorem State.winOpen_of {s t : State} (hidle : t.radio.winIdle = s.radio.winIdle) (hwin : t.window = s.window) : t.winOpen = s.winOpen := by
  rw [State.winOpen, State.winOpen, hidle, hwin]

/-- An RX LO change that waited applies at the return. -/
def State.loArrived (s : State) : State :=
  match s.radio.rxPend with
  | some (i, f) => s.loApply i f
  | none => s

theorem State.radioArrive_eq {s : State} (h : s.get RFE_CTL_REQ ≠ 0) : s.radioArrive =
    if s.loArrived.rfe = 4 then
      if s.loArrived.winOpen = 0 then s.loArrived.windowClose
      else (s.loArrived.settle [0, 1]).ask 0 (rxSet s.loArrived.winOpen)
    else if s.loArrived.winOpen ≠ 0 ∧ s.loArrived.radio.cal.isEmpty then s.loArrived.rampStart s.loArrived.window
    else s.loArrived := by
  rw [State.radioArrive]
  exact if_neg h

theorem State.loArrived_shows (s : State) : s.Airs s.loArrived ∧ s.loArrived.rfe = s.rfe ∧ s.loArrived.winOpen = s.winOpen ∧
    ∀ f : Field, calmField f → f.reg ≠ RFE_STATE → s.loArrived.get f = s.get f := by
  unfold State.loArrived
  split
  · next i f _ =>
    obtain ⟨hair, -, hget, hradio⟩ := s.loApply_shows i f
    exact ⟨hair, hget _ (calm_state rfl) (.inr (by decide)), State.winOpen_of (hradio Radio.winIdle (fun _ => rfl))
      (hget _ (calm_state rfl) (.inr (by decide))), fun f hf hne => hget f hf (.inl hne)⟩
  · exact ⟨State.Airs.rfl' s, rfl, rfl, fun _ _ _ => rfl⟩

/-- The return to LISTEN with an open window. -/
theorem State.radioArrive_listen {s : State} (hreq : s.get RFE_CTL_REQ ≠ 0) (h4 : s.rfe = 4) (hwin : s.winOpen ≠ 0) :
    s.Airs s.radioArrive ∧ s.radioArrive.rfe = 4 ∧ ∀ f : Field, calmField f → f.reg ≠ RFE_STATE → s.radioArrive.get f = s.get f := by
  obtain ⟨hair, hrfe, hopen, hget⟩ := s.loArrived_shows
  rw [State.radioArrive_eq hreq, if_pos (hrfe.trans h4), if_neg (hopen ▸ hwin)]
  have hm : s.loArrived.MangerOnly ((s.loArrived.settle [0, 1]).ask 0 (rxSet s.loArrived.winOpen)) :=
    (State.mangerOnly_drop _ _).trans (State.mangerOnly_ask _ 0 _)
  exact ⟨hair.trans (State.Airs.of_manger hm), (hm.get _).trans (hrfe.trans h4), fun f hf hne => (hm.get f).trans (hget f hf hne)⟩

/-- The return to STANDBY without a window. -/
theorem State.radioArrive_standby {s : State} (hreq : s.get RFE_CTL_REQ ≠ 0) (h2 : s.rfe = 2) (hwin : s.winOpen = 0) :
    s.Airs s.radioArrive ∧ s.radioArrive.rfe = 2 := by
  obtain ⟨hair, hrfe, hopen, -⟩ := s.loArrived_shows
  rw [State.radioArrive_eq hreq, if_neg (by rw [hrfe, h2]; decide), if_neg (fun h => h.1 (hopen.trans hwin))]
  exact ⟨hair, hrfe.trans h2⟩

theorem exec_radioTransitionDone {s : State} {b : Nat} (hin : s.inAir = true) (hsince : s.radio.since = some b) :
    exec .radioTransitionDone s = (match s.rfe with
      | 1 => .next (if 23040 ≤ s.tick - b then
          (((s.put RFE_STATE_RXLOCK 1).modRadio (fun r => { r with since := none })).rfeGo 2).passPins else s)
      | 3 => .next (if 4608 ≤ s.tick - b then s.listenReached else s)
      | 7 => .next (if s.radio.swapped ∧ 1344 ≤ s.tick - b then s.gainApply.listenReached.radioArrive else s)
      | 8 => .next (if s.radio.swapped ∧ 1344 ≤ s.tick - b then
          ((s.modRadio (fun r => { r with since := none, turn := none, swapped := false })).rfeGo 2).radioArrive else s)
      | _ => .next s) := by
  show execRadioTransitionDone s = _
  rw [execRadioTransitionDone, State.during, if_pos hin, hsince]
  rfl

theorem State.standbyReached_shows (s : State) :
    let t := (((s.put RFE_STATE_RXLOCK 1).modRadio (fun r => { r with since := none })).rfeGo 2).passPins
    s.Still t ∧ t.rfe = 2 ∧ t.test RFE_STATE_RXLOCK = true := by
  have hu : s.Still ((s.put RFE_STATE_RXLOCK 1).modRadio (fun r => { r with since := none })) ∧
      ((s.put RFE_STATE_RXLOCK 1).modRadio (fun r => { r with since := none })).get RFE_STATE_RXLOCK = 1 :=
    ⟨((State.Airs.of_put s (f := RFE_STATE_RXLOCK) 1 (.inl ⟨by decide, by decide⟩)).trans (State.Airs.of_radio _ _)).still,
      State.get_put_same s RFE_STATE_RXLOCK 1 (by decide) (by decide)⟩
  dsimp only
  generalize (s.put RFE_STATE_RXLOCK 1).modRadio (fun r => { r with since := none }) = u at hu ⊢
  obtain ⟨hrfe, hstill, -, -, hget, -⟩ := u.rfeGo_shows (n := 2) (by decide)
  have hpa := (u.rfeGo 2).passPins_only
  refine ⟨(hu.1.trans hstill).trans hpa.still, (hpa.get _).trans hrfe, ?_⟩
  rw [hpa.test, State.test, hget RFE_STATE_RXLOCK (calm_state rfl) (.inr (by decide)), hu.2]
  rfl

/-- Settles O31: each step of the radio moves the state code, and what the stalls do then keeps it, the window and the locks. -/
theorem radioStateEffects : Obligations.RadioStateEffects := by
  unfold Obligations.RadioStateEffects
  intro s hin went
  have hmoves : ∀ {t : State} {n : Nat}, s.Still t → t.rfe = n → went t n := fun h hn => ⟨hn, h.mem, h.cores⟩
  refine ⟨fun hclk h0 href => ?standby, fun hclk h1 h4 => ?off, fun ch hch => ⟨fun h2 hcal => ?ramp, fun h4 => ?chains⟩, fun h34 => ?close,
    fun b hb => ⟨fun h1 hn => ?reached, fun h3 hn => ?listen, fun h7 hsw hn hreq hwin => ?back, fun h8 hsw hn hreq hwin => ?rest⟩,
    fun int frac hclk => ⟨fun hbad => ?loBad, fun hok hst => ?loNow, fun hok h5 h8 => ?loWaits⟩, fun h5 hh htx hcal hcaled => ?txLock,
    fun h2 hrx hcal => ?rxLock⟩
  case standby =>
    obtain ⟨hair, hrfe, hreq, -, hserved, -⟩ := State.standby_shows h0 href
    exact ⟨_, if_pos hclk, hmoves hair.still hrfe, hreq, hserved⟩
  case off =>
    obtain ⟨hair, hrfe, hpins, htx, hheld, -, -⟩ := (s.put RFE_CTL_REQ 0).radioOff_shows
    have hrfe0 : (s.put RFE_CTL_REQ 0).rfe = s.rfe := State.get_put_ne s 0 (by decide)
    have hexec : exec (.radioReq 0) s = .next ((s.put RFE_CTL_REQ 0).radioOff) := by
      show execRadioReq 0 s = _
      rw [execRadioReq, State.during, if_pos hclk]
      refine congrArg Host.Outcome.next ?_
      show s.radioRequest 0 = _
      rw [State.radioRequest, if_neg (fun h => absurd h.1 (by decide)), if_pos ⟨rfl, h1, h4⟩]
    exact ⟨_, hexec, hmoves ((State.Still.put s RFE_CTL_REQ 0).trans hair.still) hrfe, hpins, htx, hheld⟩
  case ramp =>
    have hlt : ch.toNat < 4 := ch.isLt
    obtain ⟨hopen, -, -, -⟩ := s.opening_shows
    obtain ⟨hair, hrfe, hwin, hserved⟩ := s.opening.rampStart_shows hlt
    have hexec : exec (.listenWindowOpen ch) s = .next (s.opening.rampStart ch.toNat) := by
      show execListenWindowOpen ch s = _
      rw [execListenWindowOpen, State.during, if_pos hin, if_neg hch, State.windowOpen_standby h2 hcal]
    exact ⟨_, hexec, hmoves (hopen.still.trans hair.still) hrfe, hwin, hserved⟩
  case chains =>
    have hlt : ch.toNat < 4 := ch.isLt
    obtain ⟨hopen, hrfe, -, hblank⟩ := s.opening_shows
    obtain ⟨hair, hrfe', hwin, hto⟩ := s.opening.chainsChanged_shows hlt
    have hexec : exec (.listenWindowOpen ch) s = .next (s.opening.chainsChanged ch.toNat).stallSync := by
      show execListenWindowOpen ch s = _
      rw [execListenWindowOpen, State.during, if_pos hin, if_neg hch, State.windowOpen_listen h4]
    refine ⟨_, hexec, hmoves (hopen.still.trans hair.still) (hrfe'.trans (hrfe.trans h4)), hwin, ?_⟩
    rw [hto, hblank, hopen.tick]
  case close =>
    obtain ⟨hair, hrfe, hwin, hheld⟩ := State.windowClose_shows h34
    exact ⟨_, if_pos hin, hmoves hair.still hrfe, hwin, hheld⟩
  case reached =>
    obtain ⟨hstill, hrfe, hlock⟩ := s.standbyReached_shows
    have hexec := exec_radioTransitionDone hin hb
    rw [h1] at hexec
    exact ⟨_, hexec.trans (congrArg Host.Outcome.next (if_pos hn)), hmoves hstill hrfe, hlock⟩
  case listen =>
    obtain ⟨hair, hrfe, -, hblank, -, -⟩ := s.listenReached_shows
    have hexec := exec_radioTransitionDone hin hb
    rw [h3] at hexec
    exact ⟨_, hexec.trans (congrArg Host.Outcome.next (if_pos hn)), hmoves hair.still hrfe, hblank⟩
  case back =>
    obtain ⟨hgain, hgget, hga, hgb, hgradio⟩ := s.gainApply_shows
    obtain ⟨hlis, hrfe, hlwin, -, hidle, hlget⟩ := s.gainApply.listenReached_shows
    have hpend : ∀ f : Field, f.reg = RFE_GAINA ∨ f.reg = RFE_GAINB → 13 < f.lo → calmField f := fun f hf hlo =>
      calm_radio (by rcases hf with h | h <;> rw [h] <;> decide) (by rcases hf with h | h <;> rw [h] <;> decide) (.inr (.inr hlo))
    have hreq' : s.gainApply.listenReached.get RFE_CTL_REQ ≠ 0 := by
      rw [hlget _ (calm_radio (by decide) (by decide) (.inr (.inl (by decide)))) (by decide), hgget _ (.inr rfl)]
      exact hreq
    have hwin' : s.gainApply.listenReached.winOpen ≠ 0 := by
      rw [State.winOpen_of hidle hlwin, State.winOpen_of (s := s) (by rw [hgradio]) (hgget _ (.inl rfl))]
      exact hwin
    obtain ⟨harr, harfe, harget⟩ := State.radioArrive_listen hreq' hrfe hwin'
    have hexec := exec_radioTransitionDone hin hb
    rw [h7] at hexec
    refine ⟨_, hexec.trans (congrArg Host.Outcome.next (if_pos ⟨hsw, hn⟩)), hmoves ((hgain.still.trans hlis.still).trans harr.still) harfe, ?_, ?_⟩
    · rw [State.test, harget _ (hpend _ (.inl rfl) (by decide)) (by decide), hlget _ (hpend _ (.inl rfl) (by decide)) (by decide)]
      exact hga
    · rw [State.test, harget _ (hpend _ (.inr rfl) (by decide)) (by decide), hlget _ (hpend _ (.inr rfl) (by decide)) (by decide)]
      exact hgb
  case rest =>
    obtain ⟨u, hu⟩ : ∃ u, u = s.modRadio (fun r => { r with since := none, turn := none, swapped := false }) := ⟨_, rfl⟩
    have huair : s.Airs u := hu ▸ State.Airs.of_radio s _
    have husame : u.radio.winIdle = s.radio.winIdle ∧ ∀ f, u.get f = s.get f := by rw [hu]; exact ⟨rfl, fun _ => rfl⟩
    obtain ⟨hrfe, hstill, -, -, hget, hradio⟩ := u.rfeGo_shows (n := 2) (by decide)
    have hreq' : (u.rfeGo 2).get RFE_CTL_REQ ≠ 0 := by
      rw [hget _ (calm_radio (by decide) (by decide) (.inr (.inl (by decide)))) (.inl (by decide)), husame.2]
      exact hreq
    have hwin' : (u.rfeGo 2).winOpen = 0 := by
      rw [State.winOpen_of (s := s) ((hradio Radio.winIdle (fun _ => rfl)).trans husame.1)
        ((hget _ (calm_state rfl) (.inr (by decide))).trans (husame.2 _))]
      exact hwin
    obtain ⟨harr, harfe⟩ := State.radioArrive_standby hreq' hrfe hwin'
    have hexec := exec_radioTransitionDone hin hb
    rw [h8] at hexec
    refine ⟨(u.rfeGo 2).radioArrive, hexec.trans (congrArg Host.Outcome.next ((if_pos ⟨hsw, hn⟩).trans (by rw [hu]))),
      hmoves ((huair.still.trans hstill).trans harr.still) harfe⟩
  case loBad =>
    have hint : (s.put RFE_RXSYN_INT int.toNat).get RFE_RXSYN_INT = int.toNat :=
      (State.get_put_same s RFE_RXSYN_INT int.toNat (by decide) (by decide)).trans (Nat.mod_eq_of_lt int.isLt)
    have hexec : exec (.rxLoWrite int frac) s = .next ((s.put RFE_RXSYN_INT int.toNat).raise RFE_FLAGS_CFG_REFUSED) := by
      show execRxLoWrite int frac s = _
      rw [execRxLoWrite, State.during, if_pos hclk, State.rxFracWrite, hint, hbad]
      rfl
    have hstill : s.Still ((s.put RFE_RXSYN_INT int.toNat).raise RFE_FLAGS_CFG_REFUSED) :=
      (State.Still.put _ _ _).trans (State.Still.raise _ _)
    exact ⟨_, hexec, State.raise_self _ _ (by decide) (by decide), State.raise_radio _ _, hstill.mem, hstill.cores⟩
  case loNow =>
    have hint : (s.put RFE_RXSYN_INT int.toNat).get RFE_RXSYN_INT = int.toNat :=
      (State.get_put_same s RFE_RXSYN_INT int.toNat (by decide) (by decide)).trans (Nat.mod_eq_of_lt int.isLt)
    obtain ⟨u, hu⟩ : ∃ u, u = (s.put RFE_RXSYN_INT int.toNat).setRg RFE_RXFRAC frac := ⟨_, rfl⟩
    have hrfe : u.rfe = s.rfe := by
      rw [hu, State.rfe, State.get, State.rg_setRg_ne _ _ (by decide)]
      exact State.get_put_ne s int.toNat (by decide)
    have hstill : s.Still u := hu ▸ (State.Still.put _ _ _).trans (State.Still.setRg _ _ _)
    obtain ⟨hair, hlock, -, hradio⟩ := u.loApply_shows int.toNat frac
    have hexec : exec (.rxLoWrite int frac) s = .next (u.loApply int.toNat frac) := by
      show execRxLoWrite int frac s = _
      rw [execRxLoWrite, State.during, if_pos hclk, State.rxFracWrite, hint, hok]
      refine congrArg Host.Outcome.next ?_
      dsimp only
      rw [hu]
      have hsame : (s.put RFE_RXSYN_INT int.toNat).rfe = s.rfe := State.get_put_ne s int.toNat (by decide)
      exact if_neg (fun h : 5 ≤ (s.put RFE_RXSYN_INT int.toNat).rfe ∧ (s.put RFE_RXSYN_INT int.toNat).rfe ≤ 8 => by
        rw [hsame] at h
        omega)
    exact ⟨_, hexec, hradio Radio.rxInt (fun _ => rfl), hradio Radio.rxFrac (fun _ => rfl), fun h => hlock (hrfe ▸ h),
      (hstill.trans hair.still).mem, (hstill.trans hair.still).cores⟩
  case loWaits =>
    have hint : (s.put RFE_RXSYN_INT int.toNat).get RFE_RXSYN_INT = int.toNat :=
      (State.get_put_same s RFE_RXSYN_INT int.toNat (by decide) (by decide)).trans (Nat.mod_eq_of_lt int.isLt)
    have hw : s.Within [RFE_RXSYN, RFE_RXFRAC] ((s.put RFE_RXSYN_INT int.toNat).setRg RFE_RXFRAC frac) :=
      (State.Within.put s (f := RFE_RXSYN_INT) _ (by simp [RFE_RXSYN_INT])).trans (State.Within.setRg _ (a := RFE_RXFRAC) frac (by simp))
    have hexec : exec (.rxLoWrite int frac) s = .next (((s.put RFE_RXSYN_INT int.toNat).setRg RFE_RXFRAC frac).modRadio
        (fun r => { r with rxPend := some (int.toNat, frac) })) := by
      show execRxLoWrite int frac s = _
      rw [execRxLoWrite, State.during, if_pos hclk, State.rxFracWrite, hint, hok]
      refine congrArg Host.Outcome.next ?_
      have hsame : (s.put RFE_RXSYN_INT int.toNat).rfe = s.rfe := State.get_put_ne s int.toNat (by decide)
      exact if_pos (show 5 ≤ (s.put RFE_RXSYN_INT int.toNat).rfe ∧ (s.put RFE_RXSYN_INT int.toNat).rfe ≤ 8 from hsame ▸ ⟨h5, h8⟩)
    refine ⟨_, hexec, rfl, ?_, State.rg_setRg_same _ _ _, hw.regs, ⟨hw.still.mem.1, hw.still.mem.2⟩, hw.still.cores⟩
    show ((s.put RFE_RXSYN_INT int.toNat).setRg RFE_RXFRAC frac).get RFE_RXSYN_INT = int.toNat
    rw [State.get, State.rg_setRg_ne _ _ (by decide)]
    exact hint
  case txLock =>
    show execSynthLock true s = _
    rw [execSynthLock, State.during, if_pos hin, if_pos rfl, if_pos ⟨h5, hh, by rw [htx]; rfl, by rw [hcal]; rfl, hcaled⟩]
  case rxLock =>
    have hexec : exec (.synthLock false) s = .next ((s.put RFE_STATE_RXLOCK 1).stallSync) := by
      show execSynthLock false s = _
      rw [execSynthLock, State.during, if_pos hin, if_neg Bool.false_ne_true, if_pos ⟨h2, by rw [hrx]; rfl, by rw [hcal]; simp⟩]
    have hgo := (s.put RFE_STATE_RXLOCK 1).follows_stallSync
    have hstill := (State.Still.put s RFE_STATE_RXLOCK 1).trans hgo.still
    refine ⟨_, hexec, ?_, ?_, hstill.mem, hstill.cores⟩
    · rw [hgo.test (calm_state rfl), State.test, State.get_put_same s _ _ (by decide) (by decide)]
      rfl
    · rw [State.rfe, hgo.get _ (calm_state rfl)]
      exact s.get_put_beside 1 (by decide) (by decide) (.inr (by decide))

end Sys2Proof.Machine
end

section
/-! SUPPORT. A transmission under way (R146-R154): its hold, its abandonment and the turn back, and the statement about it. -/

set_option Elab.async false

namespace Sys2Proof.Machine

/-! ## The turn back (R147) -/

/-- The turn back's tick 0, before the state code moves. -/
def State.turning (s : State) : State :=
  let t := s.modRadio (fun r => { r with tx := none, turn := some s.tick, swapped := false, since := none, maskPrev := [] })
  let t := t.withdraw (fun w => match w.kind with
    | .swap _ take => take.contains 4 || (take.contains 6 && !take.contains 2)
    | .holders hs => (hs.contains 4 && !s.calNeeds.contains 4) || (hs.contains 6 && !s.calNeeds.contains 6)
    | _ => false)
  t.ask 0 s.calNeeds

theorem State.turnBack_eq (s : State) : s.turnBack =
    (s.turning.rfeGo (if s.winOpen = 0 then 8 else 7)).paStart 1 (s.get RFE_PACFG_RXFIRST) := rfl

theorem State.turning_shows (s : State) : s.Airs s.turning ∧ s.turning.regs = s.regs ∧ s.turning.radio.tx = none := by
  obtain ⟨u, hu⟩ : ∃ u, u = s.modRadio (fun r => { r with tx := none, turn := some s.tick, swapped := false, since := none, maskPrev := [] }) :=
    ⟨_, rfl⟩
  have hm : u.MangerOnly s.turning := by
    rw [hu]
    exact (State.mangerOnly_withdraw _ _).trans (State.mangerOnly_ask _ 0 _)
  have hair : s.Airs u := hu ▸ State.Airs.of_radio s _
  have hregs : u.regs = s.regs ∧ u.radio.tx = none := by rw [hu]; exact ⟨rfl, rfl⟩
  exact ⟨hair.trans (State.Airs.of_manger hm), hm.regs.trans hregs.1, by rw [hm]; exact hregs.2⟩

/-- The turn back ends the transmission in state 7 or 8, and keeps the registers but for the state code. -/
theorem State.turnBack_shows (s : State) : s.Airs s.turnBack ∧ (s.turnBack.rfe = 7 ∨ s.turnBack.rfe = 8) ∧ s.turnBack.radio.tx = none ∧
    (∀ f : Field, calmField f → f.reg ≠ RFE_STATE ∨ f.hi < 16 → s.turnBack.get f = s.get f) ∧
    ∀ k < 8, s.turnBack.get (FU_TX_CTL_SENDING k) = s.get (FU_TX_CTL_SENDING k) := by
  obtain ⟨hair, hregs, htx⟩ := s.turning_shows
  have hsame : ∀ f, s.turning.get f = s.get f := fun f => by rw [State.get, State.get, State.rg, State.rg, hregs]
  rw [s.turnBack_eq]
  generalize s.turning = u at *
  have hn : (if s.winOpen = 0 then 8 else 7) < 16 := by split <;> decide
  have hcode : (if s.winOpen = 0 then 8 else 7) = 7 ∨ (if s.winOpen = 0 then 8 else 7) = 8 := by
    split
    · exact .inr rfl
    · exact .inl rfl
  generalize (if s.winOpen = 0 then 8 else 7) = n at hn hcode ⊢
  obtain ⟨hrfe, -, -, -, hget, -⟩ := u.rfeGo_shows hn
  have hgo := u.rfeGo_follows n
  have hpa := (u.rfeGo n).paStart_only 1 (s.get RFE_PACFG_RXFIRST)
  have hnone : (u.rfeGo n).radio.tx = none := hgo.tx htx
  refine ⟨(hair.trans ((State.Airs.of_put u n (.inl ⟨by decide, by decide⟩)).trans (State.Airs.of_follows hgo))).trans (State.Airs.of_paOnly hpa),
    by rw [State.rfe, hpa.get]; exact hcode.imp (hrfe.trans ·) (hrfe.trans ·), ?_,
    fun f hf hne => (hpa.get f).trans ((hget f hf hne).trans (hsame f)), fun k hk => (hpa.get _).trans ?_⟩
  · exact hpa.tx.trans hnone
  · have hne : (FU_TX_CTL_SENDING k).reg ≠ RFE_STATE := by
      show 0xCC100 + 16 * k ≠ 0xC9004
      omega
    exact (hgo.idle htx k hk).trans ((State.get_put_ne u n hne).trans (hsame _))

/-! ## A transmission abandoned (R217) -/

/-- SENDING of a slot stays 0 through the link's steps. -/
def State.sendKept (s t : State) (k : Nat) : Prop := t.get (FU_TX_CTL_SENDING k) = s.get (FU_TX_CTL_SENDING k)

theorem State.sendKept_rcAdd (s : State) (a b : BitVec 32) {k : Nat} (hk : k < 8) : s.sendKept (s.rcAdd a b) k := by
  unfold State.rcAdd
  split
  · rfl
  · split
    · show (State.raise LNK_FLAGS_RC_OVF (s.bump (LNK_CNT_HI 7))).get _ = _
      rw [State.raise_get_ne _ _ (by show 0xCC100 + 16 * k ≠ 0xCD250; omega)]
      exact State.get_put_ne s _ (by show 0xCC100 + 16 * k ≠ 0xCD258 + 4 * 7; omega)
    · rfl

theorem State.sendKept_ackFail (s : State) (code : Nat) {k : Nat} (hk : k < 8) : s.sendKept (s.ackFail code) k := by
  unfold State.ackFail
  split
  · rfl
  · have hbase : ∀ l, s.sendKept (((s.put ACK_STAT_LAST code).linkLo 6).modLink l) k := fun l => by
      show ((s.put ACK_STAT_LAST code).bump (LNK_CNT_LO 6)).get _ = _
      rw [State.bump, State.get_put_ne _ _ (by show 0xCC100 + 16 * k ≠ 0xCD258 + 4 * 6; omega)]
      exact State.get_put_ne s _ (Nat.ne_of_lt (by show 0xCC100 + 16 * k < ACK_STAT; simp only [ACK_STAT]; omega))
    dsimp only
    split
    · exact (State.sendKept_rcAdd _ _ _ hk).trans (hbase _)
    · exact hbase _

theorem State.sendKept_ackAbandon (s : State) {k : Nat} (hk : k < 8) : s.sendKept (s.ackAbandon k) k := by
  unfold State.ackAbandon
  split
  · split
    · rfl
    · split
      · rfl
      · exact ((s.ackFail 6).get_put_beside (f := FU_TX_CTL_SENDING k) (g := FU_TX_CTL_READY k) 0 (Nat.le_of_ble_eq_true rfl)
          (Nat.le_of_ble_eq_true rfl) (.inl (Nat.le_of_ble_eq_true rfl))).trans (s.sendKept_ackFail 6 hk)
  · rfl

theorem State.txDrop_sending {s : State} {x : TxRun} (hx : s.radio.tx = some x) (hk : x.slot < 8) :
    s.txDrop.get (FU_TX_CTL_SENDING x.slot) = 0 := by
  have hend : s.txDrop = (((s.put (FU_TX_CTL_SENDING x.slot) 0).setRg FU_TXBUSY 0).modFrames (fun u => { u with tx := none })).ackAbandon x.slot := by
    rw [State.txDrop, hx]
  rw [hend, State.sendKept_ackAbandon _ hk]
  show ((s.put (FU_TX_CTL_SENDING x.slot) 0).setRg FU_TXBUSY 0).get _ = 0
  rw [State.get, State.rg_setRg_ne _ _ (by show 0xCC100 + 16 * x.slot ≠ 0xCC02C; omega)]
  exact State.get_put_same s _ 0 (Nat.le_of_ble_eq_true rfl) (Nat.le_of_ble_eq_true rfl)

theorem State.txAbandon_shows (s : State) {code : Nat} (hcode : code < 16) : (s.txAbandon code).get RFE_TXSTAT_CODE = code ∧
    ((s.txAbandon code).rfe = 7 ∨ (s.txAbandon code).rfe = 8) ∧ (s.txAbandon code).radio.tx = none ∧ s.Still (s.txAbandon code) ∧
    (∀ f : Field, f.reg = RFE_STATE → f.hi < 16 → (s.txAbandon code).get f = s.get f) ∧
    (∀ x, s.radio.tx = some x → x.slot < 8 → (s.txAbandon code).get (FU_TX_CTL_SENDING x.slot) = 0) := by
  obtain ⟨u, hu⟩ : ∃ u, u = s.put RFE_TXSTAT_CODE code := ⟨_, rfl⟩
  have hdrop := u.txDrop_link
  obtain ⟨hair, hrfe, htx, hget, hsend⟩ := u.txDrop.turnBack_shows
  have hend : s.txAbandon code = u.txDrop.turnBack := by rw [hu]; rfl
  rw [hend]
  refine ⟨?_, hrfe, htx, ?_, fun f hf hhi => ?_, fun x hx hk => (hsend _ hk).trans (State.txDrop_sending (by rw [hu]; exact hx) hk)⟩
  · rw [hget _ (calm_radio (by decide) (by decide) (.inl (by decide))) (.inl (by decide)), hdrop.get _ (by decide), hu]
    exact (State.get_put_same s RFE_TXSTAT_CODE code (by decide) (by decide)).trans (Nat.mod_eq_of_lt hcode)
  · exact (hu ▸ State.Still.put s RFE_TXSTAT_CODE code).trans (hdrop.still.trans hair.still)
  · rw [hget f (calm_state hf) (.inr hhi), hdrop.get f (by rw [hf]; decide), hu]
    exact State.get_put_ne s code (by rw [hf]; decide)

/-- An abandoned transmission reported with its flag. -/
theorem State.abandoned_shows (s : State) {code fault : Nat} (hcode : code < 16) (hfault : fault < 35) {g : Field} (hg : g.reg = RFE_FLAGS)
    (hhi : g.hi < 20) (hlo : g.lo = g.hi) (d : W20) : let t := State.report fault d ((s.txAbandon code).raise g)
    t.get RFE_TXSTAT_CODE = code ∧ t.test g = true ∧ t.test (faultBit fault) = true ∧ (t.rfe = 7 ∨ t.rfe = 8) ∧ t.radio.tx = none ∧
    ∀ f : Field, f.reg = RFE_STATE → f.hi < 16 → t.get f = s.get f := by
  obtain ⟨hc, hrfe, htx, -, hget, -⟩ := s.txAbandon_shows hcode
  generalize s.txAbandon code = u at *
  have hgo := State.follows_report hfault d (u.raise g)
  have hraise : ∀ f : Field, f.reg ≠ RFE_FLAGS → (u.raise g).get f = u.get f := fun f hf => State.raise_get_ne g u (hg ▸ hf)
  refine ⟨?_, ?_, State.report_status (Nat.lt_trans hfault (by decide)) d _, ?_, hgo.tx ((congrArg Radio.tx (State.raise_radio g u)).trans htx),
    fun f hf hhi => ?_⟩
  · rw [hgo.get _ (calm_radio (by decide) (by decide) (.inl (by decide))), hraise _ (by decide)]
    exact hc
  · rw [hgo.test (calm_radio (by rw [hg]; decide) (by rw [hg]; decide) (.inl (by rw [hg]; decide)))]
    exact State.raise_self _ _ hhi (Nat.le_of_eq hlo)
  · rw [State.rfe, hgo.get _ (calm_state rfl), hraise _ (by decide)]
    exact hrfe
  · rw [hgo.get f (calm_state hf), hraise f (by rw [hf]; decide)]
    exact hget f hf hhi

/-! ## The swap of the turn back (R147) -/

/-- At tick 192 of the turn back the TX synthesizer's lock goes, unless a calibration needs it. -/
def State.swapping (s : State) : State :=
  (if s.calNeeds.contains 6 then s else s.put RFE_STATE_TXLOCK 0).modRadio (fun r => { r with swapped := true })

theorem State.swapping_shows (s : State) : s.Airs s.swapping ∧ s.swapping.cores = s.cores ∧ s.swapping.manger = s.manger ∧
    s.swapping.radio = { s.radio with swapped := true } ∧ s.swapping.rfe = s.rfe ∧ s.swapping.window = s.window ∧
    s.swapping.calNeeds = s.calNeeds := by
  rw [State.swapping]
  split
  · exact ⟨State.Airs.of_radio s _, rfl, rfl, rfl, rfl, rfl, rfl⟩
  · refine ⟨(State.Airs.of_put s (f := RFE_STATE_TXLOCK) 0 (.inl ⟨by decide, by decide⟩)).trans (State.Airs.of_radio _ _), rfl, rfl, rfl,
      s.get_put_beside 0 (by decide) (by decide) (.inr (by decide)), s.get_put_beside 0 (by decide) (by decide) (.inr (by decide)),
      State.calNeeds_of rfl rfl (State.rg_put_ne s RFE_STATE_TXLOCK 0 (by decide))⟩

theorem exec_turnBackSwap {s : State} {b : Nat} (hin : s.inAir = true) (hturn : s.radio.turn = some b) (h78 : s.rfe = 7 ∨ s.rfe = 8)
    (hsw : s.radio.swapped = false) (hn : 192 ≤ s.tick - b) : exec .turnBackSwap s =
      if s.rfe = 8 ∨ s.winOpen = 0 then
        .next ((s.swapping.settle [0, 1, 2, 4, 6]).modRadio (fun r => { r with since := some s.tick }))
      else
        match s.swapping.trySwap ([0, 1, 2, 4, 6].filter (fun h => s.swapping.holds h && !s.swapping.radioNeeds.contains h))
            ((rxSet s.winOpen).filter (fun h => !s.swapping.holds h)) with
        | some u => .next (u.modRadio (fun r => { r with since := some s.tick }))
        | none => .next ((s.swapping.addWait 0 0 (.swap
            ([0, 1, 2, 4, 6].filter (fun h => s.swapping.holds h && !s.swapping.radioNeeds.contains h))
            ((rxSet s.winOpen).filter (fun h => !s.swapping.holds h)))).raise RFE_FLAGS_RX_HELD) := by
  have hgo : ¬((s.rfe ≠ 7 ∧ s.rfe ≠ 8) ∨ s.radio.swapped = true ∨ s.since b < 192) := by
    rintro (⟨h7, h8⟩ | h | h)
    · exact h78.elim h7 h8
    · exact Bool.false_ne_true (hsw.symm.trans h)
    · exact Nat.not_lt.mpr hn h
  show execTurnBackSwap s = _
  rw [execTurnBackSwap, State.during, if_pos hin, hturn]
  exact if_neg hgo

/-- Nothing but a calibration needs the transmit set once it has been swapped. -/
theorem State.swapping_needs {s : State} (h78 : s.rfe = 7 ∨ s.rfe = 8) (h : 4 ∉ s.calNeeds) : 4 ∉ s.swapping.radioNeeds := by
  obtain ⟨-, -, -, hradio, hrfe, -, hcal⟩ := s.swapping_shows
  have hswapped : s.swapping.radio.swapped = true := by rw [hradio]
  have hrx : 4 ∉ rxSet s.swapping.winOpen := by
    rw [rxSet, chainHolders]
    split <;> split <;> simp
  rw [State.radioNeeds, hcal, hswapped]
  simp only [Bool.not_true, Bool.and_false, Bool.or_false]
  intro hmem
  rcases List.mem_append.mp hmem with hmem | hmem
  · rcases List.mem_append.mp hmem with hmem | hmem
    · split at hmem
      · exact hrx hmem
      · cases hmem
    · split at hmem
      · next h56 =>
        rw [hrfe] at h56
        rcases h78 with h | h <;> rw [h] at h56 <;> exact absurd h56 (by decide)
      · cases hmem
  · exact h hmem

/-! ## What a swap leaves (R34) -/

theorem payShort_ids (l : List Acct) (n : Nat) : (payShort l n).1.map Acct.id = l.map Acct.id := by
  induction l generalizing n with
  | nil => rfl
  | cons a r ih => exact congrArg (a.id :: ·) (ih _)

theorem find_foldl_acctInsert {new : List Acct} {h : Nat} (hne : ∀ a ∈ new, a.id ≠ h) (l : List Acct) :
    (new.foldl acctInsert l).find? (fun b => b.id == h) = l.find? (fun b => b.id == h) := by
  induction new generalizing l with
  | nil => rfl
  | cons a r ih =>
    rw [List.foldl_cons, ih (fun x hx => hne x (List.mem_cons_of_mem _ hx)),
      find_acctInsert_ne l a (fun hh => hne a List.mem_cons_self hh.symm)]

theorem State.holds_credit (s : State) (m : Manger) (n h : Nat) (hnone : m.accts.find? (fun b => b.id == h) = none) :
    ({ s with manger := m.credit n } : State).holds h = false := by
  have hfind := find_payShort (fun _ => ()) (fun _ _ _ => rfl) m.accts n h
  rw [hnone] at hfind
  rw [State.holds, Option.isSome_eq_false_iff, Option.isNone_iff_eq_none]
  exact Option.map_eq_none_iff.1 hfind

/-- The accounts of a swap's taken set. -/
def State.swapAccts (s : State) (ret take : List Nat) : List Acct :=
  ((take.filter (fun h => !s.holds h || ret.contains h)).map s.newAcct).map (fun a => { a with held := 0, short := a.held })

theorem State.swapAccts_id {s : State} {ret take : List Nat} {h : Nat} (htake : h ∉ take) (n : Nat) :
    ∀ a ∈ (payShort (s.swapAccts ret take) n).1, a.id ≠ h := fun a ha hid => by
  have hmem : h ∈ (payShort (s.swapAccts ret take) n).1.map Acct.id := List.mem_map.mpr ⟨a, ha, hid⟩
  rw [payShort_ids, State.swapAccts, List.map_map, List.map_map] at hmem
  obtain ⟨x, hx, hxh⟩ := List.mem_map.mp hmem
  have hxid : x = h := hxh
  exact htake (hxid ▸ (List.mem_filter.mp hx).1)

theorem State.exchange_eq (s : State) (ret take : List Nat) : s.exchange ret take =
    let pot := ((s.manger.accts.filter (fun a => ret.contains a.id)).map (·.held)).sum
    let new := payShort (s.swapAccts ret take) (pot + s.manger.free)
    { s with manger := Manger.credit { s.manger.without ret with
        accts := new.1.foldl acctInsert (s.manger.without ret).accts, free := 0 } new.2 } := rfl

/-- A holder that a swap returns and does not take holds nothing after it. -/
theorem State.exchange_holds_false (s : State) {ret take : List Nat} {h : Nat} (hret : h ∈ ret ∨ s.holds h = false) (htake : h ∉ take) :
    (s.exchange ret take).holds h = false := by
  rw [s.exchange_eq]
  refine s.holds_credit _ _ h ?_
  rw [show (_ : Manger).accts = _ from rfl, find_foldl_acctInsert (State.swapAccts_id htake _), find_without]
  split
  · rfl
  · next hnot =>
    have hh := hret.resolve_left hnot
    rw [State.holds, Option.isSome_eq_false_iff, Option.isNone_iff_eq_none] at hh
    exact hh

/-- A swap that completes in its tick is an exchange. -/
theorem State.trySwap_exchange {s u : State} {ret take : List Nat} (h : s.trySwap ret take = some u) : u = s.exchange ret take := by
  rw [State.trySwap] at h
  split at h
  · exact (Option.some.inj h).symm
  · split at h
    · exact (Option.some.inj h).symm
    · cases h

theorem State.asked_swap (s : State) (id cls : Nat) (ret : List Nat) {take : List Nat} {h : Nat} (hh : h ∈ take) :
    (s.addWait id cls (.swap ret take)).asked h = true := by
  rw [State.asked, List.any_eq_true]
  exact ⟨⟨id, cls, s.tick, false, .swap ret take⟩, mem_waitInsert_iff.mpr (.inl rfl), List.contains_iff_mem.mpr hh⟩

/-! ## The statement -/

/-- A calibration of the receive synthesizer put under way. -/
def State.rxRecal (s : State) (g : Radio → Radio) : State := ((s.modRadio g).put RFE_STATE_TCALP_RX 0).calShow

theorem State.still_rxRecal (s : State) (g : Radio → Radio) : s.Still (s.rxRecal g) := by
  rw [State.rxRecal]
  have hg : s.Still (s.modRadio g) := (State.Airs.of_radio s g).still
  generalize s.modRadio g = u at *
  have hu : s.Still (u.put RFE_STATE_TCALP_RX 0) := hg.trans (State.Still.put _ _ _)
  generalize u.put RFE_STATE_TCALP_RX 0 = v at *
  exact hu.trans (State.Still.put _ _ _)

theorem State.rxRecal_get (s : State) (g : Radio → Radio) :
    ∃ n, ∀ f, (s.rxRecal g).get f = ((s.put RFE_STATE_TCALP_RX 0).put RFE_STATE_CAL n).get f := ⟨_, fun _ => rfl⟩

theorem State.ramped_shows (s : State) (x : TxRun) (n : Nat) : let t := s.rampGo x n
    t.get RFE_TXSTAT_HOLD = min n 0xFFFF ∧ t.radio = { s.radio with tx := some { x with ramp := some s.tick } } ∧
    s.regsKept t [RFE_TXSTAT] ∧ s.memKept t ∧ t.cores = s.cores := by
  have hw : s.Within [RFE_TXSTAT] (s.put RFE_TXSTAT_HOLD (min n 0xFFFF)) := State.Within.put s (f := RFE_TXSTAT_HOLD) _ (List.mem_singleton_self _)
  have hmin : min n 0xFFFF < 2 ^ 16 := by omega
  exact ⟨(State.get_put_same s RFE_TXSTAT_HOLD _ (by decide) (by decide)).trans (Nat.mod_eq_of_lt hmin), rfl, hw.regs, hw.still.mem, rfl⟩

/-- Settles O33: an abandoned transmission turns back in state 7 or 8 with its code; the swap of the turn back returns the transmit set. -/
theorem transmissionEffects : Obligations.TransmissionEffects := by
  unfold Obligations.TransmissionEffects
  intro s hin
  refine ⟨fun x hx h5 hramp => ?hold, fun x b hx hb h5 hn => ?talk, fun meas h6 => ?mask,
    fun temp => ⟨fun h6 => ?txLost, fun h24 => ?rxLost⟩, fun b hb h78 hsw hn => ⟨fun h => ?swap, fun h7 hwin => ?back⟩⟩
  case hold =>
    intro n ramped
    have hold : 1344 ≤ n → exec .txHoldCheck s = .next (if s.txFree then s.rampGo x (n - 1344)
        else s.modRadio (fun r => { r with tx := some { x with hold := some (x.begun + 1344) } })) := fun hn => by
      show execTxHoldCheck s = _
      rw [execTxHoldCheck, State.during, if_pos hin, hx]
      dsimp only
      rw [if_neg (by rw [h5, hramp]; simpa [State.since] using hn)]
      split <;> rfl
    have late : 1344 + s.get RFE_TXLATE_LIMIT ≤ n → exec .txLate s = .next (if s.txFree then s.rampGo x (n - 1344)
        else ((s.put RFE_TXSTAT_HOLD (min (n - 1344) 0xFFFF)).txAbandon 2).raise RFE_FLAGS_LATE) := fun hn => by
      show execTxLate s = _
      rw [execTxLate, State.during, if_pos hin, hx]
      dsimp only
      rw [if_neg (by rw [h5, hramp]; simpa [State.since] using hn)]
      split <;> rfl
    refine ⟨fun hn hfree => ?_, fun hn hfree => ?_, fun hn hfree => ?_, fun hn hfree hslot => ?_⟩
    · exact ⟨_, (hold hn).trans (congrArg Host.Outcome.next (if_pos hfree)), s.ramped_shows x _⟩
    · rw [hold hn, hfree]
      rfl
    · exact ⟨_, (late hn).trans (congrArg Host.Outcome.next (if_pos hfree)), s.ramped_shows x _⟩
    · have hexec := late hn
      rw [hfree, if_neg Bool.false_ne_true] at hexec
      obtain ⟨hc, hrfe, htx, -, -, hsend⟩ := (s.put RFE_TXSTAT_HOLD (min (n - 1344) 0xFFFF)).txAbandon_shows (code := 2) (by decide)
      have hsend2 := hsend x hx hslot
      generalize (s.put RFE_TXSTAT_HOLD (min (n - 1344) 0xFFFF)).txAbandon 2 = u at *
      refine ⟨_, hexec, (State.raise_get_ne _ _ (by decide)).trans hc, State.raise_self _ _ (by decide) (by decide), ?_,
        (congrArg Radio.tx (State.raise_radio _ u)).trans htx, ?_⟩
      · rw [State.rfe, State.raise_get_ne _ _ (by decide)]
        exact hrfe
      · rw [State.test, State.raise_get_ne _ _ (by show 0xCC100 + 16 * x.slot ≠ 0xC9008; omega), hsend2]
        rfl
  case talk =>
    have hexec : exec .talkReached s = .next (s.rfeGo 6) := by
      show execTalkReached s = _
      rw [execTalkReached, State.during, if_pos hin, hx]
      dsimp only
      rw [hb]
      dsimp only
      rw [if_pos ⟨h5, hn⟩]
    obtain ⟨hrfe, hstill, -, -, -, -⟩ := s.rfeGo_shows (n := 6) (by decide)
    refine ⟨_, hexec, hrfe, fun hstop => ?_, hstill.mem, hstill.cores⟩
    rcases (s.rfeGo_follows 6).radio with hr | ⟨-, hf⟩
    · rw [hr]
      exact hx
    · rw [State.stopped, hf] at hstop
      exact absurd hstop (by simp)
  case mask =>
    intro pts
    have hexec : exec (.maskWindowEnd meas) s = match pts.find? (fun k => s.radio.maskPrev.contains k) with
        | some k => .next (((s.txAbandon 3).raise RFE_FLAGS_MASK_BREACH).report 13 (BitVec.ofNat 20 k))
        | none => .next (s.modRadio (fun r => { r with maskPrev := pts })) := by
      show execMaskWindowEnd meas s = _
      rw [execMaskWindowEnd, State.during, if_pos hin, if_neg (fun h => h h6)]
      rfl
    refine ⟨fun hnone => ?_, fun ⟨k, hk, hprev⟩ => ?_⟩
    · rw [hexec, List.find?_eq_none.mpr (fun k hk => by simpa using hnone k hk)]
      rfl
    · obtain ⟨j, hj⟩ := Option.isSome_iff_exists.mp (List.find?_isSome.mpr ⟨k, hk, List.contains_iff_mem.mpr hprev⟩)
      rw [hj] at hexec
      obtain ⟨h1, h2, h3, h4, h5, -⟩ := s.abandoned_shows (code := 3) (fault := 13) (by decide) (by decide) (g := RFE_FLAGS_MASK_BREACH) rfl
        (by decide) rfl (BitVec.ofNat 20 j)
      exact ⟨_, hexec, h1, h2, h3, h4, h5⟩
  case txLost =>
    obtain ⟨u, hu⟩ : ∃ u, u = ((s.put RFE_STATE_TXLOCK 0).put RFE_STATE_TCALP_TX 1).modRadio
        (fun r => { r with txCaled := false, deferTx := false }) := ⟨_, rfl⟩
    have hlock : u.get RFE_STATE_TXLOCK = 0 ∧ u.get RFE_STATE_TCALP_TX = 1 := by
      rw [hu]
      refine ⟨?_, State.get_put_same _ RFE_STATE_TCALP_TX 1 (by decide) (by decide)⟩
      show ((s.put RFE_STATE_TXLOCK 0).put RFE_STATE_TCALP_TX 1).get RFE_STATE_TXLOCK = 0
      rw [State.get_put_beside _ _ (by decide) (by decide) (.inr (by decide))]
      exact State.get_put_same s RFE_STATE_TXLOCK 0 (by decide) (by decide)
    obtain ⟨h1, h2, h3, h4, h5, hget⟩ := u.abandoned_shows (code := 4) (fault := 14) (by decide) (by decide) (g := RFE_FLAGS_LOCK_LOST) rfl
      (by decide) rfl (BitVec.ofNat 20 ((s.radio.tx.map (·.ch)).getD 0))
    have hexec : exec (.lockLost true temp) s =
        .next (State.report 14 (BitVec.ofNat 20 ((s.radio.tx.map (·.ch)).getD 0)) ((u.txAbandon 4).raise RFE_FLAGS_LOCK_LOST)) := by
      show execLockLost true temp s = _
      rw [execLockLost, State.during, if_pos hin, if_pos rfl, if_neg (fun h => h h6), hu]
    refine ⟨_, hexec, h1, h2, h3, ?_, ?_, h4, h5⟩
    · rw [State.test, hget _ rfl (by decide), hlock.1]
      rfl
    · rw [State.test, hget _ rfl (by decide), hlock.2]
      rfl
  case rxLost =>
    obtain ⟨v, hv⟩ : ∃ v, v = (s.put RFE_STATE_RXLOCK 0).put RFE_TCALT_RX temp.toNat := ⟨_, rfl⟩
    obtain ⟨u, hu⟩ : ∃ u, u = v.rxRecal (fun r => { r with rxCal := some ⟨some s.tick⟩, deferRx := false }) := ⟨_, rfl⟩
    have hexec : exec (.lockLost false temp) s = .next (u.stallSync.raise RFE_FLAGS_LOCK_LOST) := by
      show execLockLost false temp s = _
      rw [execLockLost, State.during, if_pos hin, if_neg Bool.false_ne_true, if_pos h24, hu, hv, State.rxRecal]
    obtain ⟨n, huv⟩ := v.rxRecal_get (fun r => { r with rxCal := some ⟨some s.tick⟩, deferRx := false })
    have hput : s.Still v := hv ▸ (State.Still.put _ _ _).trans (State.Still.put _ _ _)
    have hstill : s.Still u := hput.trans (hu ▸ v.still_rxRecal _)
    have hcal : u.radio.rxCal = some ⟨some s.tick⟩ := by rw [hu]; rfl
    rw [← hu] at huv
    have hlock : u.get RFE_STATE_RXLOCK = 0 := by
      rw [huv, State.get_put_beside _ _ (by decide) (by decide) (.inr (by decide)),
        State.get_put_beside _ _ (by decide) (by decide) (.inr (by decide)), hv, State.get_put_ne _ _ (by decide)]
      exact State.get_put_same s RFE_STATE_RXLOCK 0 (by decide) (by decide)
    have htemp : u.get RFE_TCALT_RX = temp.toNat := by
      rw [huv, State.get_put_ne _ _ (by decide), State.get_put_ne _ _ (by decide), hv]
      exact (State.get_put_same _ RFE_TCALT_RX _ (by decide) (by decide)).trans (Nat.mod_eq_of_lt temp.isLt)
    have hgo := u.follows_stallSync
    generalize u.stallSync = w at *
    have hall := (hstill.trans hgo.still).trans (State.Still.raise w RFE_FLAGS_LOCK_LOST)
    clear hu
    refine ⟨_, hexec, State.raise_self _ _ (by decide) (by decide), ?_, ?_, ?_, hall.mem, hall.cores⟩
    · rw [State.test, State.raise_get_ne _ _ (by decide), hgo.get _ (calm_state rfl), hlock]
      rfl
    · rw [State.raise_radio]
      exact (hgo.radio_part Radio.rxCal (fun _ => rfl)).trans hcal
    · rw [State.raise_get_ne _ _ (by decide), hgo.get _ (calm_radio (by decide) (by decide) (.inl (by decide)))]
      exact htemp
  case swap =>
    have hexec := exec_turnBackSwap hin hb h78 hsw hn
    rw [if_pos h] at hexec
    obtain ⟨hair, hcores, -, hradio, -, -, -⟩ := s.swapping_shows
    have hneeds : 4 ∉ s.calNeeds → 4 ∉ s.swapping.radioNeeds := State.swapping_needs h78
    generalize s.swapping = u at *
    have hm : u.MangerOnly (u.settle [0, 1, 2, 4, 6]) := u.mangerOnly_drop _
    have hset : 4 ∉ s.calNeeds → (u.settle [0, 1, 2, 4, 6]).holds 4 = false := fun h => State.settle_holds (by decide) (hneeds h)
    generalize u.settle [0, 1, 2, 4, 6] = w at *
    exact ⟨_, hexec, hset, by show w.radio.swapped = true; rw [hm, hradio], rfl, hair.still.mem.trans hm.memKept, hm.cores.trans hcores⟩
  case back =>
    have hexec := exec_turnBackSwap hin hb h78 hsw hn
    rw [if_neg (by rw [h7]; simpa using hwin)] at hexec
    obtain ⟨hair, hcores, hmanger, hradio, -, -, -⟩ := s.swapping_shows
    have hneeds : 4 ∉ s.calNeeds → 4 ∉ s.swapping.radioNeeds := State.swapping_needs h78
    have hrx : 2 ∈ rxSet s.winOpen ∧ 4 ∉ rxSet s.winOpen := by
      rw [rxSet, chainHolders]
      split <;> split <;> simp
    generalize s.swapping = u at *
    cases htry : u.trySwap ([0, 1, 2, 4, 6].filter (fun h => u.holds h && !u.radioNeeds.contains h)) ((rxSet s.winOpen).filter (fun h => !u.holds h)) with
    | some w =>
      rw [htry] at hexec
      have hw := State.trySwap_exchange htry
      have hm : u.MangerOnly w := hw ▸ u.mangerOnly_exchange _ _
      have hheld : 4 ∉ s.calNeeds → w.holds 4 = false := fun hcal => by
        rw [hw]
        refine u.exchange_holds_false ?_ (fun hmem => hrx.2 (List.mem_filter.mp hmem).1)
        cases hh : u.holds 4 with
        | false => exact .inr rfl
        | true => exact .inl (List.mem_filter.mpr ⟨by decide, by simpa [hh] using hneeds hcal⟩)
      exact ⟨_, hexec, by show w.radio.swapped = true; rw [hm, hradio], .inl ⟨rfl, hheld⟩, hair.still.mem.trans hm.memKept,
        fun c => by rw [show (w.modRadio _).core c = w.core c from rfl, hm.core, hair.still.cores c]⟩
    | none =>
      rw [htry] at hexec
      have hm := u.mangerOnly_addWait 0 0 (.swap ([0, 1, 2, 4, 6].filter (fun h => u.holds h && !u.radioNeeds.contains h))
        ((rxSet s.winOpen).filter (fun h => !u.holds h)))
      have hasked : s.holds 2 = false → (u.addWait 0 0 (.swap ([0, 1, 2, 4, 6].filter (fun h => u.holds h && !u.radioNeeds.contains h))
          ((rxSet s.winOpen).filter (fun h => !u.holds h)))).asked 2 = true := fun h2 => by
        have h2' : u.holds 2 = false := by rw [State.holds, State.acct, hmanger]; exact h2
        exact u.asked_swap 0 0 _ (List.mem_filter.mpr ⟨hrx.1, by rw [h2']; rfl⟩)
      generalize u.addWait 0 0 _ = w at hexec hm hasked
      have hall := (hair.still.trans (State.Still.manger hm)).trans (State.Still.raise w RFE_FLAGS_RX_HELD)
      refine ⟨_, hexec, ?_, .inr ⟨State.raise_self _ _ (by decide) (by decide), fun h2 => ?_⟩, hall.mem, hall.cores⟩
      · rw [State.raise_radio, hm, hradio]
      · rw [State.asked, State.raise_manger]
        exact hasked h2

end Sys2Proof.Machine
end

section
/-! SUPPORT. Orbit (R407-R410): the outcomes of a step, the sleep that ends a pass, and the statement about them. -/

set_option Elab.async false

namespace Sys2Proof.Machine

/-! ## What a wake out of a pass shows (R405, R409) -/

theorem State.keepEn_shows (l : List Nat) (s : State) : let t := l.foldl (fun (t : State) p => t.put (STL_CFG_EN p) 1) s
    s.Still t ∧ t.power = s.power ∧ t.tick = s.tick ∧ (∀ f : Field, f.reg < 0xCB000 → t.get f = s.get f) ∧
    ∀ p, p ∈ l ∨ s.test (STL_CFG_EN p) = true → t.test (STL_CFG_EN p) = true := by
  induction l generalizing s with
  | nil => exact ⟨State.Still.rfl' s, rfl, rfl, fun _ _ => rfl, fun p h => h.resolve_left List.not_mem_nil⟩
  | cons q r ih =>
    obtain ⟨hstill, hpower, htick, hget, hen⟩ := ih (s.put (STL_CFG_EN q) 1)
    have hself : (s.put (STL_CFG_EN q) 1).test (STL_CFG_EN q) = true := by
      rw [State.test, State.get_put_same s (STL_CFG_EN q) 1 (Nat.le_of_ble_eq_true rfl) (Nat.le_of_ble_eq_true rfl)]
      exact rfl
    refine ⟨(State.Still.put _ _ _).trans hstill, hpower, htick, fun f hf => (hget f hf).trans (State.get_put_ne s 1 ?_),
      fun p h => hen p ?_⟩
    · show f.reg ≠ 0xCB000 + 64 * q
      omega
    · by_cases hpq : p = q
      · exact .inr (hpq ▸ hself)
      · rcases h with h | h
        · exact .inl ((List.mem_cons.mp h).resolve_left hpq)
        · exact .inr (by
            rw [State.test, State.get_put_ne s 1 (by show 0xCB000 + 64 * p ≠ 0xCB000 + 64 * q; omega)]
            exact h)

theorem State.orbitKeep_shows (s : State) : s.Still s.orbitKeep ∧ s.orbitKeep.power = s.power ∧ s.orbitKeep.tick = s.tick ∧
    (∀ f : Field, f.reg < 0xCB000 → s.orbitKeep.get f = s.get f) ∧
    ∀ o, s.power.orbit = some o → ∀ p ∈ o.stalls, s.orbitKeep.test (STL_CFG_EN p) = true := by
  unfold State.orbitKeep
  split
  next o ho =>
    obtain ⟨hstill, hpower, htick, hget, hen⟩ := s.keepEn_shows o.stalls
    refine ⟨hstill, hpower, htick, hget, fun o' ho' p hp => hen p (.inl ?_)⟩
    rw [ho] at ho'
    exact Option.some.inj ho' ▸ hp
  next ho => exact ⟨State.Still.rfl' s, rfl, rfl, fun _ _ => rfl, fun o' ho' => absurd (ho ▸ ho') (by simp)⟩

theorem State.wakeNow_shows (s : State) : (s.wakeNow [PWR_WAKE_ORBIT]).power.phase = .waking s.tick false ∧
    (∀ f, (s.wakeNow [PWR_WAKE_ORBIT]).get f = ((s.put PWR_WAKE_ORBIT 1).put PWR_STATE_STATE 2).get f) ∧
    s.Still (s.wakeNow [PWR_WAKE_ORBIT]) := by
  refine ⟨rfl, fun _ => rfl, ?_⟩
  unfold State.wakeNow
  have h : s.Still ((s.wakeCauses [PWR_WAKE_ORBIT]).put PWR_STATE_STATE 2) := (State.Still.put _ _ _).trans (State.Still.put _ _ _)
  generalize (s.wakeCauses [PWR_WAKE_ORBIT]).put PWR_STATE_STATE 2 = u at *
  exact h.trans ⟨State.memKept_of_tables rfl rfl rfl rfl, fun _ => rfl⟩

/-- A pass's wake: its stalls stay on, and the wake's cause and phase show. -/
theorem State.passWake_shows (s : State) : let t := (s.orbitKeep.wakeNow [PWR_WAKE_ORBIT]).stallSync
    t.power.phase = .waking s.tick false ∧ t.test PWR_WAKE_ORBIT = true ∧
    (∀ o, s.power.orbit = some o → ∀ p ∈ o.stalls, p < 48 → t.test (STL_CFG_EN p) = true) ∧
    (∀ f : Field, calmField f → f.reg < 0xCB000 → f.reg ≠ PWR_WAKE → f.reg ≠ PWR_STATE → t.get f = s.get f) ∧ s.Still t := by
  obtain ⟨hstill, hpower, htick, hget, hen⟩ := s.orbitKeep_shows
  generalize s.orbitKeep = u at *
  obtain ⟨hphase, hregs, hw⟩ := u.wakeNow_shows
  generalize u.wakeNow [PWR_WAKE_ORBIT] = w at *
  have hf := w.follows_stallSync
  generalize w.stallSync = t at *
  refine ⟨?_, ?_, fun o ho p hp hlt => ?_, fun f hcalm hlow h1 h2 => ?_, (hstill.trans hw).trans hf.still⟩
  · rw [hf.power, hphase, htick]
  · rw [hf.test (by unfold calmField stallReg; decide), State.test, hregs, State.get_put_ne _ _ (by decide),
      State.get_put_same u PWR_WAKE_ORBIT 1 (by decide) (by decide)]
    rfl
  · rw [hf.test (by simp only [calmField, stallReg, STL_CFG_EN, STL_CFG, CONS_DESC, STC_STATE, STC_FLAGS]; omega), State.test, hregs,
      State.get_put_ne _ _ (by show 0xCB000 + 64 * p ≠ 0xC0404; omega), State.get_put_ne _ _ (by show 0xCB000 + 64 * p ≠ 0xC040C; omega)]
    exact hen o ho p hp
  · rw [hf.get f hcalm, hregs, State.get_put_ne _ _ h2, State.get_put_ne _ _ h1, hget f hlow]

/-! ## A step's outcome (R407, R409) -/

/-- ORB_STAT names the step that ends, and the test it met. -/
def State.outcomeShown (s : State) (o : OrbitRun) (hit : Bool) : State :=
  if hit then (s.put ORB_STAT_STEP o.step).put ORB_STAT_TEST (s.get (ORB_S_OP_TEST o.step)) else s.put ORB_STAT_STEP o.step

theorem State.outcomeShown_shows (s : State) (o : OrbitRun) (hit : Bool) (hk : o.step < 8) :
    (s.outcomeShown o hit).get ORB_STAT_STEP = o.step ∧ (hit = true → (s.outcomeShown o hit).get ORB_STAT_TEST = s.get (ORB_S_OP_TEST o.step)) ∧
    (s.outcomeShown o hit).power = s.power ∧ (s.outcomeShown o hit).tick = s.tick ∧ s.Still (s.outcomeShown o hit) := by
  have hput : (s.put ORB_STAT_STEP o.step).get ORB_STAT_STEP = o.step :=
    (State.get_put_same s ORB_STAT_STEP o.step (by decide) (by decide)).trans (Nat.mod_eq_of_lt hk)
  unfold State.outcomeShown
  split
  · refine ⟨?_, fun _ => ?_, rfl, rfl, (State.Still.put _ _ _).trans (State.Still.put _ _ _)⟩
    · rw [State.get_put_beside _ _ (by decide) (by decide) (.inl (by decide))]
      exact hput
    · refine (State.get_put_same _ ORB_STAT_TEST _ (by decide) (by decide)).trans (Nat.mod_eq_of_lt ?_)
      exact Nat.mod_lt _ (Nat.le_of_ble_eq_true rfl)
  · next h => exact ⟨hput, fun h' => absurd h' h, rfl, rfl, State.Still.put _ _ _⟩

/-- The outcome that the step's word names. -/
def State.outcomeOf (s : State) (o : OrbitRun) (hit : Bool) : Nat := if hit then s.get (ORB_S_OP_HIT o.step) else s.get (ORB_S_OP_MISS o.step)

/-- The pass after a step that ends without a wake. -/
def OrbitRun.next (o : OrbitRun) (out jump : Nat) : OrbitRun :=
  { o with
    step := if o.executed + 1 = 16 then 8 else if out = 0 then o.step + 1 else if out = 2 then jump else 8
    executed := o.executed + 1, begun := none, stalls := [], heard := [] }

theorem State.orbitOutcome_wake {s : State} {o : OrbitRun} {hit : Bool} (h : s.outcomeOf o hit = 1) :
    s.orbitOutcome o hit = ((s.outcomeShown o hit).orbitKeep.wakeNow [PWR_WAKE_ORBIT]).stallSync := by
  cases hit <;> exact if_pos h

theorem State.outcome_wakes {s : State} {o : OrbitRun} {hit : Bool} (ho : s.power.orbit = some o) (hk : o.step < 8) (h : s.outcomeOf o hit = 1) :
    let t := s.orbitOutcome o hit
    t.power.phase = .waking s.tick false ∧ t.test PWR_WAKE_ORBIT = true ∧ (∀ p ∈ o.stalls, p < 48 → t.test (STL_CFG_EN p) = true) ∧
    t.get ORB_STAT_STEP = o.step ∧ (hit = true → t.get ORB_STAT_TEST = s.get (ORB_S_OP_TEST o.step)) ∧ s.Still t := by
  obtain ⟨hstep, htest, hpower, htick, hstill⟩ := s.outcomeShown_shows o hit hk
  rw [State.orbitOutcome_wake h]
  generalize s.outcomeShown o hit = u at *
  obtain ⟨hphase, hwake, hen, hget, hw⟩ := u.passWake_shows
  generalize (u.orbitKeep.wakeNow [PWR_WAKE_ORBIT]).stallSync = t at *
  have hstat : ∀ f : Field, f.reg = ORB_STAT → t.get f = u.get f := fun f hf =>
    hget f (by simp only [calmField, stallReg, hf, ORB_STAT, CONS_DESC, STC_STATE, STC_FLAGS]; omega) (by rw [hf]; decide) (by rw [hf]; decide)
      (by rw [hf]; decide)
  exact ⟨by rw [hphase, htick], hwake, hen o (hpower ▸ ho), by rw [hstat _ rfl, hstep], fun hh => by rw [hstat _ rfl, htest hh], hstill.trans hw⟩

theorem State.orbitOutcome_next {s : State} {o : OrbitRun} {hit : Bool} (h : s.outcomeOf o hit ≠ 1) :
    s.orbitOutcome o hit = ((if o.executed + 1 = 16 then (s.outcomeShown o hit).put ORB_STAT_LOOP 1 else s.outcomeShown o hit).modOrbit
      (fun r => { r with
        step := (o.next (s.outcomeOf o hit) (s.get (ORB_S_OP_JUMP o.step))).step, executed := o.executed + 1, begun := none, stalls := []
        heard := [] })).stallSync := by
  cases hit <;> exact if_neg h

theorem State.outcome_goesOn {s : State} {o : OrbitRun} {hit : Bool} (ho : s.power.orbit = some o) (hk : o.step < 8) (h : s.outcomeOf o hit ≠ 1) :
    let t := s.orbitOutcome o hit
    t.power.orbit = some (o.next (s.outcomeOf o hit) (s.get (ORB_S_OP_JUMP o.step))) ∧ t.get ORB_STAT_STEP = o.step ∧
    (o.executed = 15 → t.test ORB_STAT_LOOP = true) ∧ s.Still t := by
  obtain ⟨hstep, -, hpower, -, hstill⟩ := s.outcomeShown_shows o hit hk
  rw [State.orbitOutcome_next h]
  generalize s.outcomeShown o hit = u at *
  obtain ⟨v, hv⟩ : ∃ v, v = if o.executed + 1 = 16 then u.put ORB_STAT_LOOP 1 else u := ⟨_, rfl⟩
  have hvs : v.get ORB_STAT_STEP = o.step ∧ (o.executed = 15 → v.test ORB_STAT_LOOP = true) ∧ v.power = u.power ∧ u.Still v := by
    rw [hv]
    split
    · refine ⟨?_, fun _ => ?_, rfl, State.Still.put _ _ _⟩
      · rw [State.get_put_beside _ _ (by decide) (by decide) (.inl (by decide)), hstep]
      · rw [State.test, State.get_put_same u ORB_STAT_LOOP 1 (by decide) (by decide)]
        rfl
    · next hne => exact ⟨hstep, fun h15 => absurd (by rw [h15]) hne, rfl, State.Still.rfl' u⟩
  obtain ⟨hvstep, hvloop, hvpower, hvstill⟩ := hvs
  rw [← hv]
  obtain ⟨w, hw⟩ : ∃ w, w = v.modOrbit (fun r => { r with
      step := (o.next (s.outcomeOf o hit) (s.get (ORB_S_OP_JUMP o.step))).step, executed := o.executed + 1, begun := none, stalls := []
      heard := [] }) := ⟨_, rfl⟩
  have hworbit : w.power.orbit = some (o.next (s.outcomeOf o hit) (s.get (ORB_S_OP_JUMP o.step))) := by
    rw [hw, State.modOrbit]
    show v.power.orbit.map _ = _
    rw [hvpower, hpower, ho]
    rfl
  have hwregs : w.regs = v.regs := by rw [hw]; rfl
  have hwstill : v.Still w := by rw [hw]; exact ⟨State.memKept_of_tables rfl rfl rfl rfl, fun _ => rfl⟩
  rw [← hw]
  clear hw hv
  have hf := w.follows_stallSync
  generalize w.stallSync = t at *
  have hstat : ∀ f : Field, f.reg = ORB_STAT → t.get f = v.get f := fun f hcalm => by
    rw [hf.get f (by simp only [calmField, stallReg, hcalm, ORB_STAT, CONS_DESC, STC_STATE, STC_FLAGS]; omega), State.get, State.get, State.rg,
      State.rg, hwregs]
  exact ⟨by rw [hf.power, hworbit], by rw [hstat _ rfl, hvstep], fun h15 => by rw [State.test, hstat _ rfl]; exact hvloop h15,
    ((hstill.trans hvstill).trans hwstill).trans hf.still⟩

/-! ## Packets that end with the pass (R408) -/

/-- No step of a stall but a declared sync puts a stall into RECEIVE. -/
theorem State.stallTarget_ne (s : State) (p : Nat) : s.stallTarget p ≠ 5 ∧ s.stallTarget p < 8 := by
  unfold State.stallTarget
  split_ifs <;> decide

/-- No stall is in RECEIVE. -/
def State.NoneReceives (s : State) : Prop := ∀ q < 48, s.get (STL_STATUS_STATE q) ≠ 5

theorem status_reg {p q : Nat} (h : q ≠ p) (m : Nat) : (⟨STL_STATUS q, m, m⟩ : Field).reg ≠ STL_STATUS p := by
  show 0xCB00C + 64 * q ≠ 0xCB00C + 64 * p
  omega

theorem State.noneReceives_put {s : State} (h : s.NoneReceives) {p n : Nat} (hn : n ≠ 5) (hn' : n < 8) : (s.put (STL_STATUS_STATE p) n).NoneReceives := by
  intro q hq
  by_cases hqp : q = p
  · rw [hqp, State.stl_put s p n hn']
    exact hn
  · rw [State.get_put_ne s n (status_reg hqp 0)]
    exact h q hq

theorem State.noneReceives_stallFollow {s : State} (h : s.NoneReceives) {p : Nat} (hp : p < 48) : (s.stallFollow p).NoneReceives := by
  have hne := h p hp
  obtain ⟨hgoal, hgoal'⟩ := s.stallTarget_ne p
  have hchain : ∀ n, (s.put (STL_STATUS_NOCHAIN p) n).NoneReceives := fun n q hq => by
    by_cases hqp : q = p
    · rw [hqp, State.get_put_beside _ _ (Nat.le_of_ble_eq_true rfl) (Nat.le_of_ble_eq_true rfl) (.inr (Nat.le_of_ble_eq_true rfl))]
      exact h p hp
    · rw [State.get_put_ne s n (status_reg hqp 0)]
      exact h q hq
  have hmod : ∀ (u : State) (f : StallH → StallH), u.NoneReceives → (u.modStall p f).NoneReceives := fun _ _ hu => hu
  unfold State.stallFollow
  dsimp only
  rw [if_neg hne]
  split
  · split
    · exact hchain _
    · exact State.noneReceives_put (hmod _ _ (hchain _)) (by decide) (by decide)
  · exact State.noneReceives_put (hmod _ _ (hchain _)) hgoal hgoal'

theorem State.noneReceives_stallSync {s : State} (h : s.NoneReceives) : s.stallSync.NoneReceives :=
  foldl_inv State.NoneReceives _ _ _ (fun _ _ hx ht => State.noneReceives_stallFollow ht (List.mem_range.mp hx)) (fun q hq => by
    rw [State.get_put_ne s _ (by show 0xCB00C + 64 * q ≠ 0xCA00C; omega)]
    exact h q hq)

theorem State.frameWithdraw_link (s : State) (id : Nat) : s.LinkOnly (s.frameWithdraw id) := by
  have hleave : ∀ (u : State) (x : FrameUnit), u.LinkOnly ({ u with frame := x } : State) := fun u x => State.LinkOnly.modFrames u (fun _ => x)
  have hidle : ∀ u : State, u.LinkOnly u.decIdle := fun u => by
    unfold State.decIdle
    exact State.LinkOnly.ite (hleave u _) (State.LinkOnly.rfl' u)
  have hmac : ∀ u : State, u.LinkOnly (u.macDrop id) := fun u => by
    unfold State.macDrop
    dsimp only
    split
    · exact State.LinkOnly.ite ((State.LinkOnly.modLink u _).trans (State.rcAdd_link _ _ _)) (State.LinkOnly.modLink u _)
    · exact State.LinkOnly.modLink u _
  unfold State.frameWithdraw
  exact (hleave s _).trans ((hidle _).trans (hmac _))

/-- A report's marks: its log entry, its status bit and its detail. -/
def State.noted (s : State) (code : Nat) (d : W20) : State :=
  let t := (s.logReport code d).put (faultBit code) 1
  { t with faults := { t.faults with last := tabSet (fun _ => 0) t.faults.last code d } }

theorem State.report_noted (s : State) {code : Nat} (hcode : code < 35) (d : W20) : State.report code d s =
    if faultClass code = 2 then
      (if code = 34 then (reportFlag code (s.noted code d)).raise FLT_FLAGS_SUBST else reportFlag code (s.noted code d)).fatalCut
    else if code = 34 then (reportFlag code (s.noted code d)).raise FLT_FLAGS_SUBST else reportFlag code (s.noted code d) := by
  rw [State.report_eq]
  dsimp only
  rw [if_neg (Nat.ne_of_lt hcode)]
  rfl

/-- A report leaves a field whose bits lie beside those of the log's repeat counters and of a slot's SENDING. -/
theorem State.report_get_beside {code : Nat} (hcode : code < 35) (d : W20) (s : State) {f : Field} (h : outsideRepeat f)
    (hchd : f.reg ≠ CHD_STATE) (hbusy : f.reg ≠ FU_TXBUSY) (hslot : ∀ k, f.reg ≠ FU_TX_CTL k ∨ f.hi < 18) :
    (State.report code d s).get f = s.get f := by
  have hlt : 0xC3000 ≤ f.reg := h.1
  have hflags : f.reg ≠ FLT_FLAGS := by simp only [FLT_FLAGS]; omega
  have hbit : f.reg ≠ (faultBit code).reg := by
    rcases faultBit_reg code with e | e <;> rw [e]
    · simp only [FLT_SRC0]; omega
    · simp only [FLT_SRC1]; omega
  have hsend : ∀ u : State, u.sendCut.get f = u.get f := fun u => by
    unfold State.sendCut
    split
    · next x _ =>
      rw [State.get, State.rg_setRg_ne _ _ hbusy]
      exact State.get_put_other u 0 (Nat.le_of_ble_eq_true rfl) (Nat.le_of_ble_eq_true rfl) ((hslot x.slot).imp id .inl)
    · rfl
  have hcut : ∀ u : State, u.fatalCut.get f = u.get f := fun u => by
    rw [u.fatalCut_eq]
    show u.sendCut.radioCut.bypassed.get f = u.get f
    rw [State.bypassed, State.get_put_ne _ _ hchd, State.get_put_ne _ _ hchd, State.get_put_ne _ _ hchd]
    exact hsend u
  have hflag (u : State) : (reportFlag code u).get f = u.get f := by rw [State.get, State.get, reportFlag_rg code u hflags]
  have hput : ((s.logReport code d).put (faultBit code) 1).get f = s.get f := by
    rw [State.get_put_ne _ _ hbit, s.logReport_get code d h]
  have hbase : (if code = 34 then (reportFlag code (s.noted code d)).raise FLT_FLAGS_SUBST else reportFlag code (s.noted code d)).get f = s.get f := by
    split
    · rw [State.raise_get_ne _ _ hflags, hflag]; exact hput
    · rw [hflag]; exact hput
  rw [s.report_noted hcode]
  split
  · rw [hcut]; exact hbase
  · exact hbase

/-- So it leaves the stalls' states. -/
theorem State.report_get_stall {code : Nat} (hcode : code < 35) (d : W20) (s : State) {f : Field} (h : outsideRepeat f) (hlow : f.reg < 0xCC000) :
    (State.report code d s).get f = s.get f :=
  State.report_get_beside hcode d s h (by simp only [CHD_STATE]; omega) (by simp only [FU_TXBUSY]; omega)
    (fun k => .inl (by simp only [FU_TX_CTL]; omega))

/-- A packet abandoned leaves every stall's state. -/
theorem State.stallAbandon_state (s : State) {p q : Nat} (hq : q < 48) (o : Nat) :
    (s.stallAbandon p o).get (STL_STATUS_STATE q) = s.get (STL_STATUS_STATE q) := by
  have hreg : ∀ (u : State) (f : Field) (n : Nat), f.reg ≠ STL_STATUS q → (u.put f n).get (STL_STATUS_STATE q) = u.get (STL_STATUS_STATE q) :=
    fun u f n h => State.get_put_ne u n (Ne.symm h)
  have hlowbits : ∀ (u : State) (f : Field) (n : Nat), f.hi < 17 → f.lo ≤ f.hi →
      (u.put f n).get (STL_STATUS_STATE q) = u.get (STL_STATUS_STATE q) := fun u f n h hl =>
    State.get_put_other u n (Nat.lt_trans h (by decide)) hl (.inr (.inr h))
  have hflag : ∀ (u : State) (f : Field), f.reg = STC_FLAGS → (u.raise f).get (STL_STATUS_STATE q) = u.get (STL_STATUS_STATE q) := fun u f h =>
    State.raise_get_ne f u (by rw [h]; show 0xCB00C + 64 * q ≠ 0xCA010; omega)
  have hdesc : CONS_DESC ≠ STL_STATUS q := by show 0xC1188 ≠ 0xCB00C + 64 * q; omega
  have hcheck : ∀ (u : State) (a : Fin 2), (u.poolCheck a).get (STL_STATUS_STATE q) = u.get (STL_STATUS_STATE q) := fun u a => by
    have hput : ((u.put CONS_DESC_HELD_SUM ((u.pool 0).held + (u.pool 1).held)).put CONS_DESC_FREE
        ((u.pool 0).queue.length + (u.pool 1).queue.length)).get (STL_STATUS_STATE q) = u.get (STL_STATUS_STATE q) :=
      (hreg _ _ _ hdesc).trans (hreg _ _ _ hdesc)
    rw [State.poolCheck]
    split
    · exact hput
    · refine (State.report_get_stall (by decide) _ _ ⟨?_, .inr (Nat.le_of_ble_eq_true rfl)⟩ ?_).trans hput
      · show 0xC3000 ≤ 0xCB00C + 64 * q
        omega
      · show 0xCB00C + 64 * q < 0xCC000
        omega
  have hfree : ∀ (u : State) (a : Fin 2) (i : Nat), (u.descFree a i).get (STL_STATUS_STATE q) = u.get (STL_STATUS_STATE q) := fun u a i => by
    unfold State.descFree
    split
    · rfl
    · exact hcheck _ a
  have hframe : ∀ id, (s.frameWithdraw id).get (STL_STATUS_STATE q) = s.get (STL_STATUS_STATE q) := fun id =>
    (s.frameWithdraw_link id).get _ (by show 0xCB00C + 64 * q < 0xCC000; omega)
  have hbegun : (match (s.stall p).frame with | some id => s.frameWithdraw id | none => s).get (STL_STATUS_STATE q) =
      s.get (STL_STATUS_STATE q) := by
    split
    · exact hframe _
    · rfl
  have hreturn : ∀ u : State, (if u.test (STL_STATUS_HOLDS p) then
      (u.descFree (poolIx (u.get (STL_STATUS_POOL p))) (u.get (STL_STATUS_INDEX p))).put (STL_STATUS_HOLDS p) 0 else u).get
        (STL_STATUS_STATE q) = u.get (STL_STATUS_STATE q) := fun u => by
    split
    · exact (hlowbits _ _ _ (Nat.le_of_ble_eq_true rfl) (Nat.le_of_ble_eq_true rfl)).trans (hfree _ _ _)
    · rfl
  have hdrop : (s.stallDrop p).get (STL_STATUS_STATE q) = s.get (STL_STATUS_STATE q) := (hreturn _).trans hbegun
  have hlast : ∀ u : State, (u.stallLast p o).get (STL_STATUS_STATE q) = u.get (STL_STATUS_STATE q) := fun u => by
    have hput : (u.put (STL_STATUS_LAST p) o).get (STL_STATUS_STATE q) = u.get (STL_STATUS_STATE q) :=
      hlowbits _ _ _ (Nat.le_of_ble_eq_true rfl) (Nat.le_of_ble_eq_true rfl)
    have hcnt : ∀ (v : State) (f : Field), f.reg % 64 ≠ 12 → (v.bump f).get (STL_STATUS_STATE q) = v.get (STL_STATUS_STATE q) :=
      fun v f h => hreg v f _ (by intro h'; rw [h'] at h; simp only [STL_STATUS] at h; omega)
    have h0 : STL_CNT0 p % 64 ≠ 12 ∧ STL_CNT1 p % 64 ≠ 12 ∧ STL_CNT2 p % 64 ≠ 12 ∧ STL_CNT3 p % 64 ≠ 12 := by
      simp only [STL_CNT0, STL_CNT1, STL_CNT2, STL_CNT3]; omega
    obtain ⟨h0, h1, h2, h3⟩ := h0
    unfold State.stallLast
    dsimp only
    split
    · exact (hcnt _ _ h0).trans hput
    · exact (hflag _ _ rfl).trans ((hcnt _ _ h1).trans hput)
    · exact (hflag _ _ rfl).trans ((hcnt _ _ h1).trans hput)
    · exact (hflag _ _ rfl).trans ((hcnt _ _ h2).trans hput)
    · exact (hflag _ _ rfl).trans ((hcnt _ _ h2).trans hput)
    · exact (hcnt _ _ h3).trans hput
    · exact (hcnt _ _ h3).trans hput
    · exact hput
  exact (hlast _).trans hdrop

/-- The packets in progress of the positions up to 47 end as BLANKED. -/
def State.packetsBlanked (s : State) : State := (List.range 48).foldl (fun (t : State) p =>
  if t.get (STL_STATUS_STATE p) = 5 then (t.stallAbandon p 3).put (STL_STATUS_STATE p) 6 else t) s

theorem State.blankOne_state (s : State) {p q : Nat} (hq : q < 48) (hqp : q = p ∨ s.get (STL_STATUS_STATE q) ≠ 5) :
    (if s.get (STL_STATUS_STATE p) = 5 then (s.stallAbandon p 3).put (STL_STATUS_STATE p) 6 else s).get (STL_STATUS_STATE q) ≠ 5 := by
  by_cases h : q = p
  · subst h
    split
    · rw [State.stl_put _ _ 6 (by decide)]
      decide
    · next h5 => exact h5
  · split
    · rw [State.get_put_ne _ 6 (status_reg h 0), s.stallAbandon_state hq]
      exact hqp.resolve_left h
    · exact hqp.resolve_left h

theorem State.packetsBlanked_clear (s : State) : s.packetsBlanked.NoneReceives := by
  have hall : ∀ (l : List Nat) (u : State) (q : Nat), q < 48 → q ∈ l ∨ u.get (STL_STATUS_STATE q) ≠ 5 →
      (l.foldl (fun (t : State) p => if t.get (STL_STATUS_STATE p) = 5 then (t.stallAbandon p 3).put (STL_STATUS_STATE p) 6 else t) u).get
        (STL_STATUS_STATE q) ≠ 5 := fun l => by
    induction l with
    | nil => exact fun u q _ h => h.resolve_left List.not_mem_nil
    | cons p r ih =>
      intro u q hq h
      rw [List.foldl_cons]
      by_cases hr : q ∈ r
      · exact ih _ q hq (.inl hr)
      · exact ih _ q hq (.inr (u.blankOne_state hq (h.imp_left (fun h => (List.mem_cons.mp h).resolve_right hr))))
  exact fun q hq => hall _ s q hq (.inl (List.mem_range.mpr hq))

theorem State.packetsBlanked_follows (s : State) : s.Follows s.packetsBlanked :=
  State.follows_foldl _ _ s (fun t p hp => State.Follows.ite ((t.follows_stallAbandon (List.mem_range.mp hp) 3).trans
    (State.follows_status _ (List.mem_range.mp hp) 6 rfl)) (State.Follows.rfl' t))

/-- OFF puts no stall into RECEIVE. -/
theorem State.noneReceives_radioOff {s : State} (h : s.NoneReceives) : s.radioOff.NoneReceives := by
  have hret : s.MangerOnly s.airReturned := (s.mangerOnly_drop _).trans (State.mangerOnly_withdraw _ _)
  obtain ⟨a, ha⟩ : ∃ a, a = s.airReturned := ⟨_, rfl⟩
  have hdrop := a.txDrop_link
  obtain ⟨b, hb⟩ : ∃ b, b = a.txDrop := ⟨_, rfl⟩
  obtain ⟨c, hc⟩ : ∃ c, c = b.modRadio (fun r => r.off (4 ≤ s.rfe)) := ⟨_, rfl⟩
  obtain ⟨d, hd⟩ : ∃ d, d = c.locksOff := ⟨_, rfl⟩
  let e := d.modRadio (fun r => { r with pins := 0, pa := none })
  have hsafe : d.paSafe = (e.tiedDrop 0).tiedDrop 1 := rfl
  have hties : e.MangerOnly ((e.tiedDrop 0).tiedDrop 1) := (e.mangerOnly_tiedDrop 0).trans (State.mangerOnly_tiedDrop _ 1)
  obtain ⟨g, hg⟩ : ∃ g, g = (e.tiedDrop 0).tiedDrop 1 := ⟨_, rfl⟩
  rw [← hg] at hties hsafe
  have hput : ∀ (u : State) (f : Field) (n : Nat), f.reg < 0xCB000 → u.NoneReceives → (u.put f n).NoneReceives := fun u f n hf hu q hq => by
    rw [State.get_put_ne u n (by show 0xCB00C + 64 * q ≠ f.reg; omega)]
    exact hu q hq
  have hb' : b.NoneReceives := fun q hq => by
    rw [hb, hdrop.get _ (by show 0xCB00C + 64 * q < 0xCC000; omega), ha, hret.get]
    exact h q hq
  have hc' : c.NoneReceives := hc ▸ hb'
  have hd' : d.NoneReceives := by
    rw [hd, State.locksOff]
    exact hput _ _ _ (by decide) (hput _ _ _ (by decide) (hput _ _ _ (by decide) hc'))
  have hg' : g.NoneReceives := fun q hq => by
    rw [hties.get]
    exact hd' q hq
  rw [s.radioOff_eq, ← ha, ← hb, ← hc, ← hd, hsafe, State.rfeGo]
  exact State.noneReceives_stallSync (hput _ _ _ (by decide) (hput _ _ _ (by decide) hg'))

/-! ## The statement -/

theorem orbitStep_of {s : State} {o : OrbitRun} (hp : s.power.phase = .pass) (ho : s.power.orbit = some o) (hst : o.started = true)
    (hb : o.begun = none) (hk : o.step < 8) : s.orbitStep = some o := by
  simp [State.orbitStep, hp, ho, hst, hb, hk]

theorem exec_orbitStepEnd {s : State} {o : OrbitRun} {b : Nat} (hlive : s.stopped = false) (hp : s.power.phase = .pass)
    (ho : s.power.orbit = some o) (hb : o.begun = some b) (hit : Bool) : exec (.orbitStepEnd hit) s =
      .next (if s.orbitHit o b then s.orbitOutcome o true
        else if !hit && decide (s.orbitDur o.step ≤ s.tick - b) then s.orbitOutcome o false else s) := by
  show execOrbitStepEnd hit s = _
  rw [execOrbitStepEnd, State.live, if_neg (by rw [hlive]; decide), hp, ho]
  dsimp only
  rw [hb]

theorem orbitOn_of {s : State} (hlive : s.stopped = false) (hen : s.test ORB_CTL_EN = true) (hrun : s.test SCH_CTL_RUN = true) : s.orbitOn = true := by
  rw [State.orbitOn, hlive, hen, hrun]; rfl

/-- The stalls `l` of a LISTEN step run from this tick. -/
def State.listens (s : State) (l : List Nat) : State :=
  (if s.rfe = 4 then s else s.put ORB_STAT_LATE 1).modOrbit (fun r => { r with begun := some s.tick, stalls := l })

theorem State.listens_shows (s : State) (l : List Nat) :
    (s.listens l).power.orbit = s.power.orbit.map (fun r => { r with begun := some s.tick, stalls := l }) ∧
    (s.rfe ≠ 4 → (s.listens l).test ORB_STAT_LATE = true) ∧ s.Still (s.listens l) := by
  unfold State.listens
  split
  · next h => exact ⟨rfl, fun h' => absurd h h', State.memKept_of_tables rfl rfl rfl rfl, fun _ => rfl⟩
  · refine ⟨rfl, fun _ => ?_, State.memKept_of_tables rfl rfl rfl rfl, fun _ => rfl⟩
    show ((s.put ORB_STAT_LATE 1).get ORB_STAT_LATE != 0) = true
    rw [State.get_put_same s ORB_STAT_LATE 1 (by decide) (by decide)]
    rfl

/-- A pass asks for the rations of its window. -/
theorem State.orbitAsks_shows (s : State) :
    let u := ((s.put RFE_STATE_CHAINS 1).askOne 0 [0, 2, 5]).modOrbit (fun r => { r with prepared := true })
    u.rfe = s.rfe ∧ u.test CLK_STAT_REF_FAIL = s.test CLK_STAT_REF_FAIL ∧ u.window = 1 ∧
    u.power.orbit = s.power.orbit.map (fun r => { r with prepared := true }) ∧ s.Still u ∧ ∀ h ∈ [0, 2, 5], u.served h := by
  have hm := (s.put RFE_STATE_CHAINS 1).mangerOnly_askOne 0 [0, 2, 5]
  have hserved : ∀ h ∈ [0, 2, 5], ((s.put RFE_STATE_CHAINS 1).askOne 0 [0, 2, 5]).served h := fun h hh => State.askOne_served _ 0 hh
  generalize (s.put RFE_STATE_CHAINS 1).askOne 0 [0, 2, 5] = v at *
  refine ⟨?_, ?_, ?_, ?_, ⟨(State.memKept_put s RFE_STATE_CHAINS 1).trans hm.memKept, fun c => congrArg CoreSt.bare (hm.core c)⟩, hserved⟩
  · show v.get RFE_STATE_STATE = s.get RFE_STATE_STATE
    rw [hm.get, State.get_put_beside _ _ (by decide) (by decide) (by decide)]
  · show v.test CLK_STAT_REF_FAIL = _
    rw [hm.test, State.test, State.get_put_ne _ _ (by decide)]
    rfl
  · show v.get RFE_STATE_CHAINS = 1
    rw [hm.get]
    exact State.get_put_same s RFE_STATE_CHAINS 1 (by decide) (by decide)
  · show v.power.orbit.map _ = _
    rw [hm]
    rfl

/-- Settles O49: each step of a pass by its own operation; a packet that ends with the pass leaves no stall in RECEIVE. -/
theorem orbitEffects : Obligations.OrbitEffects := by
  unfold Obligations.OrbitEffects
  intro s hlive
  have live : ∀ o, s.live o = o := fun o => if_neg (by rw [hlive]; decide)
  intro quiet a due
  have begins : s.test ORB_CTL_EN = true → s.power.target = 3 → (s.stopped || !s.test ORB_CTL_EN || s.power.target != 3) = false := fun h1 h2 => by
    rw [hlive, h1, h2]; rfl
  have listens : (∃ k : Fin 8, s.get (ORB_S_OP_OP k.val) = 1) → s.orbitListens = true := fun ⟨k, hk⟩ =>
    List.any_eq_true.mpr ⟨k.val, List.mem_range.mpr k.isLt, beq_iff_eq.mpr hk⟩
  have start : due → exec .orbitPassStart s = (match s.power.phase with
      | .orbit => .next (((s.modPower (fun p => { p with lastPass := some (BitVec.ofInt 40 a) })).put PWR_STATE_STATE 3).modPower
          (fun p => { p with phase := .pass, orbit := some ⟨BitVec.ofInt 40 a, true, 0, 0, none, [], false, []⟩ }))
      | .pass => .next (match s.power.orbit with
        | some o => if o.slot = BitVec.ofInt 40 a then
            (s.modPower (fun p => { p with lastPass := some (BitVec.ofInt 40 a) })).modOrbit (fun r => { r with started := true })
          else (s.modPower (fun p => { p with lastPass := some (BitVec.ofInt 40 a) })).put ORB_STAT_SKIPPED 1
        | none => s)
      | _ => .next s) := fun ⟨hen, htgt, hrun, hlast⟩ => by
    show execOrbitPassStart s = _
    have hdue : (s.power.lastPass != some (BitVec.ofInt 40 s.orbitSlot)) = true := bne_iff_ne.mpr hlast
    unfold execOrbitPassStart
    rw [begins hen htgt, hrun, if_neg Bool.false_ne_true, if_neg (by decide)]
    dsimp only
    rw [hdue, if_neg (by decide)] <;> rfl
  refine ⟨fun hen htgt hrun hph => ?nosched, fun hdue hph => ?starts, fun o ho hslot hdue hph => ?follows, fun o ho hslot hdue hph => ?skipped,
    fun hen hrun hlisten => ⟨fun hph hedge hlead => ?prepare, fun o ho hph hprep hedge hok hfail hrfe htime => ?radio⟩,
    fun o ho hph hst hb hk => ?step, fun o ho b hb hph hk => ?ends, fun o ho hph hk => ?sleep⟩
  case nosched =>
    show execOrbitPassStart s = _
    rw [execOrbitPassStart, begins hen htgt, hrun, if_neg Bool.false_ne_true, if_pos (by decide), if_pos hph]
  case starts =>
    have hexec := start hdue
    rw [hph] at hexec
    exact ⟨_, hexec, rfl, rfl, rfl, (State.Within.put s (f := PWR_STATE_STATE) 3 (List.mem_singleton_self _)).regs,
      State.memKept_of_tables rfl rfl rfl rfl, fun _ => rfl⟩
  case follows =>
    have hexec := start hdue
    rw [hph, ho] at hexec
    dsimp only at hexec
    rw [if_pos hslot] at hexec
    refine ⟨_, hexec, ?_, ?_, rfl, State.memKept_of_tables rfl rfl rfl rfl, fun _ => rfl⟩
    · show s.power.orbit.map _ = _
      rw [ho]
      rfl
    · rw [hslot]
      rfl
  case skipped =>
    have hexec := start hdue
    rw [hph, ho] at hexec
    dsimp only at hexec
    rw [if_neg hslot] at hexec
    refine ⟨_, hexec, ?_, ho, (State.Within.put s (f := ORB_STAT_SKIPPED) 1 (List.mem_singleton_self _)).regs,
      State.memKept_of_tables rfl rfl rfl rfl, fun _ => rfl⟩
    rw [State.test, State.get_put_same _ ORB_STAT_SKIPPED 1 (by decide) (by decide)]
    rfl
  case prepare =>
    have hexec : exec .orbitPrepare s = .next ((s.put PWR_STATE_STATE 3).modPower (fun p => { p with
        phase := .pass, orbit := some ⟨BitVec.ofInt 40 s.orbitNext, false, 0, 0, none, [], false, []⟩ })) := by
      show execOrbitPrepare s = _
      rw [execOrbitPrepare, live, if_neg (by rw [orbitOn_of hlive hen hrun, listens hlisten]; decide)]
      dsimp only
      rw [hph]
      dsimp only
      rw [if_pos (by rw [hedge, State.orbitStart, decide_eq_true hlead]; rfl)]
    exact ⟨_, hexec, rfl, rfl, (State.Within.put s (f := PWR_STATE_STATE) 3 (List.mem_singleton_self _)).regs,
      State.memKept_of_tables rfl rfl rfl rfl, fun _ => rfl⟩
  case radio =>
    obtain ⟨u, hu⟩ : ∃ u, u = ((s.put RFE_STATE_CHAINS 1).askOne 0 [0, 2, 5]).modOrbit (fun r => { r with prepared := true }) := ⟨_, rfl⟩
    have hexec : exec .orbitPrepare s = .next (u.radioRequest 1) := by
      show execOrbitPrepare s = _
      rw [execOrbitPrepare, live, if_neg (by rw [orbitOn_of hlive hen hrun, listens hlisten]; decide)]
      dsimp only
      rw [hph, ho]
      dsimp only
      rw [hprep, if_pos (by decide), if_pos (by rw [hedge, hok, hrfe, State.orbitStart, decide_eq_true htime]; rfl), hu]
    obtain ⟨hurfe, hufail, huwin, huorbit, hustill, huserved⟩ := s.orbitAsks_shows
    rw [← hu] at hurfe hufail huwin huorbit hustill huserved
    obtain ⟨hair, hrfe1, -, hwin, -, hserved⟩ := State.standby_shows (hurfe.trans hrfe) (hufail.trans hfail)
    generalize u.radioRequest 1 = t at *
    refine ⟨t, hexec, hrfe1, by rw [hwin, huwin], ?_, fun h hh => hserved h (huserved h hh), (hustill.trans hair.still).mem, (hustill.trans hair.still).cores⟩
    rw [hair.power, huorbit, ho]
    rfl
  case step =>
    have hat := orbitStep_of hph ho hst hb hk
    have check : s.get (ORB_S_OP_OP o.step) = 2 → exec .orbitCheck s = .next (s.orbitOutcome o (s.orbitTest (s.get (ORB_S_OP_TEST o.step)))) := fun hop => by
      show execOrbitCheck s = _
      rw [execOrbitCheck, live, hat]
      dsimp only
      rw [if_pos hop]
    refine ⟨fun hop => ?_, fun hop => ?_, fun hop => ?_, fun hop htest hknock hout => ?_, fun hop htest hout hex => ?_⟩
    · obtain ⟨l, hl⟩ : ∃ l, l = (List.range (s.get (ORB_S_OP_NST o.step) + 1)).map
        (fun j => s.hopChannel o.slot (s.get (ORB_S_OP_OFS o.step) + j)) := ⟨_, rfl⟩
      have hexec : exec .orbitListen s = .next ((s.listens l).stallSync) := by
        show execOrbitListen s = _
        rw [execOrbitListen, live, hat]
        dsimp only
        rw [if_neg (fun h => h hop), ← hl]
        rfl
      obtain ⟨horbit, hlate, hstill⟩ := s.listens_shows l
      generalize s.listens l = u at *
      have hf := u.follows_stallSync
      generalize u.stallSync = t at *
      refine ⟨t, hexec, ⟨{ o with begun := some s.tick, stalls := l }, ?_, rfl, rfl, hl⟩, fun h4 => ?_, (hstill.trans hf.still).mem,
        (hstill.trans hf.still).cores⟩
      · rw [hf.power, horbit, ho]
        rfl
      · rw [hf.test (by unfold calmField stallReg; decide)]
        exact hlate h4
    · show execOrbitPause s = _
      rw [execOrbitPause, live, hat]
      dsimp only
      rw [if_pos hop, State.modOrbit, State.modPower, ho]
      rfl
    · show execOrbitEnd s = _
      rw [execOrbitEnd, live, hat]
      dsimp only
      rw [if_pos hop, State.modOrbit, State.modPower, ho]
      rfl
    · have hexec := check hop
      rw [htest, show s.orbitTest 4 = true from hknock] at hexec
      obtain ⟨h1, h2, -, h3, h4, h5⟩ := State.outcome_wakes (hit := true) ho hk hout
      exact ⟨_, hexec, h1, h2, h3, by rw [h4 rfl, htest], h5.mem, h5.cores⟩
    · have hexec := check hop
      rw [htest, show s.orbitTest 0 = false from rfl] at hexec
      have hof : s.outcomeOf o false = 2 := hout
      obtain ⟨h1, -, -, h4⟩ := State.outcome_goesOn (hit := false) ho hk (by rw [hof]; decide)
      rw [hof] at h1
      exact ⟨_, hexec, ⟨_, h1, by rw [OrbitRun.next, if_neg (by omega)]; rfl, rfl, rfl⟩, h4.mem, h4.cores⟩
  case ends =>
    have hexec := exec_orbitStepEnd hlive hph ho hb
    refine ⟨fun hop hheard hout hit => ?_, fun hdur hmiss => ?_⟩
    · have hhit : s.orbitHit o b = true := by rw [State.orbitHit, hop, hheard]; rfl
      have hexec := hexec hit
      rw [hhit, if_pos rfl] at hexec
      obtain ⟨h1, h2, h3, -, -, h5⟩ := State.outcome_wakes (hit := true) ho hk hout
      exact ⟨_, hexec, h1, h2, h3, h5.mem, h5.cores⟩
    · have hexec := hexec false
      rw [hmiss, if_neg Bool.false_ne_true, if_pos (by rw [State.orbitDur, decide_eq_true hdur]; rfl)] at hexec
      have goesOn : s.get (ORB_S_OP_MISS o.step) ≠ 1 → ∀ n, (o.next (s.get (ORB_S_OP_MISS o.step)) (s.get (ORB_S_OP_JUMP o.step))).step = n →
          Answers (.orbitStepEnd false) s (fun t => ((∃ r, t.power.orbit = some r ∧ r.step = n ∧ r.executed = o.executed + 1 ∧ r.begun = none) ∧
            t.get ORB_STAT_STEP = o.step ∧ quiet t) ∧ (o.executed = 15 → t.test ORB_STAT_LOOP = true)) := fun hne n hn => by
        obtain ⟨h1, h2, h3, h4⟩ := State.outcome_goesOn (hit := false) ho hk hne
        exact ⟨_, hexec, ⟨⟨_, h1, hn, rfl, rfl⟩, h2, h4.mem, h4.cores⟩, h3⟩
      refine ⟨fun hout hex => ?_, fun hout => ?_, fun hex hout => ?_⟩
      · obtain ⟨t, ht, hended, -⟩ := goesOn (by rw [hout]; decide) (o.step + 1) (by rw [OrbitRun.next, hout, if_neg (by omega)]; rfl)
        exact ⟨t, ht, hended⟩
      · obtain ⟨t, ht, hended, -⟩ := goesOn (by rw [hout]; decide) 8 (by rw [OrbitRun.next, hout]; exact ite_self 8)
        exact ⟨t, ht, hended⟩
      · obtain ⟨t, ht, hended, hloop⟩ := goesOn hout 8 (by rw [OrbitRun.next, if_pos (by omega)])
        exact ⟨t, ht, hended, hloop hex⟩
  case sleep =>
    obtain ⟨u, hu⟩ : ∃ u, u = (s.packetsBlanked.put RFE_STATE_CHAINS 0).put RFE_CTL_REQ 0 := ⟨_, rfl⟩
    have hexec : exec .orbitPassSleep s = .next (((u.radioOff.put CLK_STAT_REF_OK 0).put CLK_STAT_SPLL 0).modPower (fun p => { p with phase := .leaving })) := by
      show execOrbitPassSleep s = _
      rw [execOrbitPassSleep, live, hph, ho]
      dsimp only
      rw [if_neg (by omega), hu]
      rfl
    have hclear := s.packetsBlanked_clear
    have hblank := s.packetsBlanked_follows
    generalize s.packetsBlanked = v at *
    have huwin : u.window = 0 := by
      rw [hu, State.window, State.get_put_ne _ _ (by decide)]
      exact State.get_put_same v RFE_STATE_CHAINS 0 (by decide) (by decide)
    have huclear : u.NoneReceives := fun q hq => by
      rw [hu, State.get_put_ne _ _ (by show 0xCB00C + 64 * q ≠ 0xC9000; omega), State.get_put_ne _ _ (by show 0xCB00C + 64 * q ≠ 0xC9004; omega)]
      exact hclear q hq
    have hupower : u.power = v.power := by rw [hu]; rfl
    have hustill : v.Still u := by rw [hu]; exact (State.Still.put _ _ _).trans (State.Still.put _ _ _)
    clear hu
    obtain ⟨hair, hrfe, -, -, hholds, hwin, -⟩ := u.radioOff_shows
    have hoff := State.noneReceives_radioOff huclear
    generalize u.radioOff = w at *
    have hother : ∀ f : Field, f.reg ≠ CLK_STAT → ((w.put CLK_STAT_REF_OK 0).put CLK_STAT_SPLL 0).get f = w.get f := fun f hf => by
      rw [State.get_put_ne _ _ hf, State.get_put_ne _ _ hf]
    refine ⟨_, hexec, rfl, ?_, ?_, (hother _ (by decide)).trans hrfe, (hother _ (by decide)).trans (hwin.trans huwin), fun p => ?_, fun h hh => ?_, fun c => ?_⟩
    · show (((w.put CLK_STAT_REF_OK 0).put CLK_STAT_SPLL 0).get CLK_STAT_REF_OK != 0) = false
      rw [State.get_put_beside _ _ (by decide) (by decide) (by decide), State.get_put_same w CLK_STAT_REF_OK 0 (by decide) (by decide)]
      rfl
    · show w.power.refMesh = _
      rw [hair.power, hupower, hblank.power]
    · show ((w.put CLK_STAT_REF_OK 0).put CLK_STAT_SPLL 0).get _ ≠ 5
      rw [hother _ (by show 0xCB00C + 64 * p.val ≠ 0xC0424; omega)]
      exact hoff p.val p.isLt
    · exact hholds h (by revert h; decide)
    · exact ((hblank.still.trans hustill).trans hair.still).cores c

end Sys2Proof.Machine
end

section
/-! SUPPORT. What an operation of the model leaves of the state beside its registers: the bytes of memory, the cores and the power
state stand or not, and every table stays in canonical form. One lemma per operation. -/

set_option Elab.async false

namespace Sys2Proof.Machine

/-! ## Canonical tables -/

theorem tabWf.nil {α : Type} [DecidableEq α] (d : Nat → α) : tabWf d [] := ⟨List.Pairwise.nil, by simp⟩

theorem tabWf.filter {α : Type} [DecidableEq α] {d : Nat → α} {t : Tab α} (h : tabWf d t) (p : Nat × α → Bool) : tabWf d (t.filter p) :=
  ⟨h.1.filter p, fun e he => h.2 e (List.mem_of_mem_filter he)⟩

/-- Filling a range leaves a table canonical. -/
theorem tabFill_wf {α : Type} [DecidableEq α] {d : Nat → α} {t : Tab α} (lo n : Nat) (f : Nat → α) (h : tabWf d t) :
    tabWf d (tabFill d t lo n f) := by
  have hmid : ∀ e ∈ ((List.range n).map (fun i => (lo + i, f i))).filter (fun e => e.2 ≠ d e.1), lo ≤ e.1 ∧ e.1 < lo + n ∧ e.2 ≠ d e.1 := by
    intro e he
    obtain ⟨hm, hne⟩ := List.mem_filter.mp he
    obtain ⟨i, hi, rfl⟩ := List.mem_map.mp hm
    exact ⟨Nat.le_add_right _ _, Nat.add_lt_add_left (List.mem_range.mp hi) lo, of_decide_eq_true hne⟩
  have hlow : ∀ e ∈ t.filter (fun e => e.1 < lo), e.1 < lo := fun e he => of_decide_eq_true (List.mem_filter.mp he).2
  have hhigh : ∀ e ∈ t.filter (fun e => lo + n ≤ e.1), lo + n ≤ e.1 := fun e he => of_decide_eq_true (List.mem_filter.mp he).2
  refine ⟨?_, fun e he => ?_⟩
  · refine List.pairwise_append.mpr ⟨h.1.filter _, List.pairwise_append.mpr ⟨List.Pairwise.filter _ ?_, h.1.filter _, fun a ha b hb => ?_⟩,
      fun a ha b hb => ?_⟩
    · exact List.pairwise_map.mpr (List.pairwise_lt_range.imp (fun hij => Nat.add_lt_add_left hij lo))
    · exact Nat.lt_of_lt_of_le (hmid a ha).2.1 (hhigh b hb)
    · have := hlow a ha
      rcases List.mem_append.mp hb with hb | hb
      · exact Nat.lt_of_lt_of_le this (hmid b hb).1
      · exact Nat.lt_of_lt_of_le this (Nat.le_trans (Nat.le_add_right lo n) (hhigh b hb))
  · rcases List.mem_append.mp he with he | he
    · exact h.2 e (List.mem_of_mem_filter he)
    · rcases List.mem_append.mp he with he | he
      · exact (hmid e he).2.2
      · exact h.2 e (List.mem_of_mem_filter he)

/-! ## The relation -/

/-- The parts of the state that are asked to stand. -/
structure Standing where
  mem : Bool
  cores : Bool
  power : Bool

/-- The second state comes from the first within a tick: its tables are canonical where the first one's are, the tick and the waiting
commands are the same, and the parts asked for stand. -/
structure State.Quiet (k : Standing) (s t : State) : Prop where
  wf    : s.tablesWf → t.tablesWf
  mem   : k.mem = true → t.sram = s.sram ∧ t.pram = s.pram ∧ t.loft = s.loft ∧ t.flash = s.flash
  cores : k.cores = true → s.coresKept t
  power : k.power = true → t.power = s.power
  clock : t.tick = s.tick ∧ t.pending = s.pending

namespace State.Quiet

theorem refl (k : Standing) (s : State) : s.Quiet k s := ⟨id, fun _ => ⟨rfl, rfl, rfl, rfl⟩, fun _ _ => rfl, fun _ => rfl, rfl, rfl⟩

section
variable {k : Standing} {s t u : State} (h : s.Quiet k t)
include h

theorem trans (g : t.Quiet k u) : s.Quiet k u where
  wf hw := g.wf (h.wf hw)
  mem hk := by
    obtain ⟨g1, g2, g3, g4⟩ := g.mem hk
    obtain ⟨h1, h2, h3, h4⟩ := h.mem hk
    exact ⟨g1.trans h1, g2.trans h2, g3.trans h3, g4.trans h4⟩
  cores hk c := (g.cores hk c).trans (h.cores hk c)
  power hk := (g.power hk).trans (h.power hk)
  clock := ⟨g.clock.1.trans h.clock.1, g.clock.2.trans h.clock.2⟩

theorem memKept (hk : k.mem = true) : s.memKept t := by
  obtain ⟨h1, h2, h3, h4⟩ := h.mem hk
  exact State.memKept_of_tables h1 h2 h3 h4

theorem still (hm : k.mem = true) (hc : k.cores = true) : s.Still t := ⟨h.memKept hm, h.cores hc⟩

/-- The rest of the state is free. -/
theorem mk' {mesh free manger faults lattice timers rtc flashOp uart hitch pins pinLvl filt radio stalls pools frame sched link cipher
    chord dma yard otp keeper update} :
    s.Quiet k (State.mk t.regs t.tick mesh free t.cores manger faults lattice timers rtc t.power t.sram t.pram t.loft t.memChk t.flash flashOp uart
      hitch pins pinLvl filt radio stalls pools frame sched link cipher chord dma yard otp keeper update t.pending) :=
  h.trans ⟨fun hw => ⟨hw.regs, hw.sram, hw.pram, hw.loft, hw.memChk, hw.flash⟩, fun _ => ⟨rfl, rfl, rfl, rfl⟩, fun _ _ => rfl, fun _ => rfl, rfl, rfl⟩

theorem withPower (hp : k.power = false) (p : Power) : s.Quiet k { t with power := p } :=
  h.trans ⟨fun hw => ⟨hw.regs, hw.sram, hw.pram, hw.loft, hw.memChk, hw.flash⟩, fun _ => ⟨rfl, rfl, rfl, rfl⟩, fun _ _ => rfl,
    fun hk => absurd (hp ▸ hk) Bool.false_ne_true, rfl, rfl⟩

theorem withCores (hc : k.cores = false) (cs : Vector CoreSt 4) : s.Quiet k { t with cores := cs } :=
  h.trans ⟨fun hw => ⟨hw.regs, hw.sram, hw.pram, hw.loft, hw.memChk, hw.flash⟩, fun _ => ⟨rfl, rfl, rfl, rfl⟩,
    fun hk => absurd (hc ▸ hk) Bool.false_ne_true, fun _ => rfl, rfl, rfl⟩

/-- A write of memory, where memory need not stand. -/
theorem written (hm : k.mem = false) (hwf : t.tablesWf → u.tablesWf) (hc : u.cores = t.cores) (hp : u.power = t.power) (ht : u.tick = t.tick)
    (hq : u.pending = t.pending) : s.Quiet k u :=
  h.trans ⟨hwf, fun hk => absurd (hm ▸ hk) Bool.false_ne_true, fun _ c => by rw [State.core, State.core, hc], fun _ => hp, ht, hq⟩

theorem setRg (a : Nat) (v : W20) : s.Quiet k (t.setRg a v) :=
  h.trans ⟨t.setRg_wf a v, fun _ => ⟨rfl, rfl, rfl, rfl⟩, fun _ _ => rfl, fun _ => rfl, rfl, rfl⟩

theorem setChk (q : Nat) (c : Chk) : s.Quiet k (t.setChk q c) :=
  h.trans ⟨t.setChk_wf q c, fun _ => ⟨rfl, rfl, rfl, rfl⟩, fun _ _ => rfl, fun _ => rfl, rfl, rfl⟩

theorem put (f : Field) (n : Nat) : s.Quiet k (t.put f n) := h.setRg _ _

theorem bump (f : Field) : s.Quiet k (t.bump f) := h.put _ _

theorem setCore (hc : k.cores = false) (c : CoreId) (x : CoreSt) : s.Quiet k (t.setCore c x) := h.withCores hc _

theorem latchReqs : s.Quiet k t.latchReqs := by
  have hs := t.latchReqs_still
  obtain ⟨cs, e⟩ := t.latchReqs_eq
  rw [e] at hs ⊢
  exact h.trans ⟨fun hw => ⟨hw.regs, hw.sram, hw.pram, hw.loft, hw.memChk, hw.flash⟩, fun _ => ⟨rfl, rfl, rfl, rfl⟩, fun _ => hs.cores,
    fun _ => rfl, rfl, rfl⟩

theorem raise (f : Field) : s.Quiet k (t.raise f) :=
  h.trans ⟨t.raise_wf f, fun _ => ⟨t.raise_sram f, t.raise_pram f, t.raise_loft f, t.raise_flash f⟩,
    fun _ => (State.Still.raise t f).cores, fun _ => t.raise_power f, State.raise_tick f t, State.raise_pending f t⟩

theorem event (c : CoreId) (n : Nat) : s.Quiet k (t.event c n) := by
  refine h.trans ⟨fun hw => ⟨hw.regs, hw.sram, hw.pram, hw.loft, hw.memChk, hw.flash⟩, fun _ => ⟨rfl, rfl, rfl, rfl⟩, fun _ d => ?_, fun _ => rfl, rfl, rfl⟩
  by_cases hd : d = c
  · subst hd
    rw [State.event, State.modCore, State.core_setCore_same, CoreSt.event]
    split <;> rfl
  · rw [State.event, State.modCore, State.core_setCore_ne _ _ hd]

/-- A report; that of the stopped keeper changes the power state. -/
theorem report {code : Nat} (d : W20) (hp : k.power = false ∨ code < 35) : s.Quiet k (State.report code d t) :=
  h.trans ⟨State.report_wf code d t, fun _ => ⟨by simp, by simp, by simp, by simp⟩, fun _ => (State.Still.report t code d).cores,
    fun hk => (State.follows_report (hp.resolve_left (by rw [hk]; decide)) d t).power, State.report_tick code d t, State.report_pending code d t⟩

theorem ite {c : Prop} [Decidable c] (g : s.Quiet k u) : s.Quiet k (if c then t else u) := by
  split <;> assumption

theorem foldl {α : Type} {g : State → α → State} {l : List α} (hg : ∀ v x, s.Quiet k v → s.Quiet k (g v x)) : s.Quiet k (l.foldl g t) :=
  foldl_inv (s.Quiet k) g l t (fun v x _ => hg v x) h

end

end State.Quiet

end Sys2Proof.Machine
end

section
/-! SUPPORT. What each operation leaves standing, continued: operations 1 to 150 of the model, callees before callers. -/

set_option Elab.async false

namespace Sys2Proof.Machine

theorem State.Quiet.set40 {κ : Standing} {s₀ s : State} (hQ : s₀.Quiet κ s) (lo : Nat) (hi : Nat) (v : W40) :
    s₀.Quiet κ (State.set40 s lo hi v) := by
  unfold State.set40
  grind (gen := 30) (ematch := 30) only [← State.Quiet.setRg]

theorem State.Quiet.set32 {κ : Standing} {s₀ s : State} (hQ : s₀.Quiet κ s) (lo : Nat) (hi : Nat) (v : BitVec 32) :
    s₀.Quiet κ (State.set32 s lo hi v) := by
  unfold State.set32
  grind (gen := 30) (ematch := 30) only [← State.Quiet.setRg]

theorem State.Quiet.fresh {κ : Standing} {s₀ s : State} (hQ : s₀.Quiet κ s) :
    s₀.Quiet κ (State.fresh s).2 := by
  unfold State.fresh
  grind (gen := 30) (ematch := 30) only [← State.Quiet.mk']

theorem State.Quiet.modCore {κ : Standing} {s₀ s : State} (hQ : s₀.Quiet κ s) (hc : κ.cores = false) (c : CoreId) (f : CoreSt → CoreSt) :
    s₀.Quiet κ (State.modCore s c f) := by
  unfold State.modCore
  grind (gen := 30) (ematch := 30) only [← State.Quiet.setCore]

theorem State.Quiet.enter {κ : Standing} {s₀ s : State} (hQ : s₀.Quiet κ s) (p : Nat) :
    s₀.Quiet κ (State.enter s p) := by
  unfold State.enter
  grind (gen := 30) (ematch := 30) only [← State.Quiet.mk']

theorem State.Quiet.fireAt {κ : Standing} {s₀ s : State} (hQ : s₀.Quiet κ s) (n p : Nat) :
    s₀.Quiet κ (State.fireAt n p s) := by
  obtain ⟨l, e⟩ := State.fireAt_eq n p s
  rw [e]
  exact hQ.mk'


theorem State.Quiet.pulse {κ : Standing} {s₀ s : State} (hQ : s₀.Quiet κ s) (p : Nat) :
    s₀.Quiet κ (State.pulse p s) := by
  unfold State.pulse
  grind only [← State.Quiet.fireAt]


theorem State.Quiet.settleCells {κ : Standing} {s₀ s : State} (hQ : s₀.Quiet κ s) :
    s₀.Quiet κ (State.settleCells s) := by
  unfold State.settleCells
  grind (gen := 30) (ematch := 30) only [← State.Quiet.pulse, ← State.Quiet.put, ← State.Quiet.foldl]

theorem State.Quiet.pinPev {κ : Standing} {s₀ s : State} (hQ : s₀.Quiet κ s) (n : Nat) (was : Bool) (now : Bool) :
    s₀.Quiet κ (State.pinPev s n was now) := by
  unfold State.pinPev
  grind (gen := 30) (ematch := 30) only [← State.Quiet.pulse, ← State.Quiet.settleCells]

theorem State.Quiet.pinShow {κ : Standing} {s₀ s : State} (hQ : s₀.Quiet κ s) (n : Nat) (was : Bool) (v : Bool) :
    s₀.Quiet κ (State.pinShow s n was v) := by
  unfold State.pinShow
  grind (gen := 30) (ematch := 30) only [← State.Quiet.pinPev, ← State.Quiet.mk']

theorem State.Quiet.filterEdge {κ : Standing} {s₀ s : State} (hQ : s₀.Quiet κ s) :
    s₀.Quiet κ (State.filterEdge s) := by
  unfold State.filterEdge
  grind (gen := 30) (ematch := 30) only [← State.Quiet.pinShow, ← State.Quiet.foldl, ← State.Quiet.mk']

theorem State.Quiet.cellStep {κ : Standing} {s₀ s : State} (hQ : s₀.Quiet κ s) (pulses : List Nat) (n : Nat) :
    s₀.Quiet κ (State.cellStep s pulses n) := by
  unfold State.cellStep
  grind (gen := 30) (ematch := 30) only [← State.Quiet.pulse, ← State.Quiet.put, ← State.Quiet.settleCells, ← State.Quiet.mk']

theorem State.Quiet.busEdge {κ : Standing} {s₀ s : State} (hQ : s₀.Quiet κ s) :
    s₀.Quiet κ (State.busEdge s) := by
  unfold State.busEdge
  refine State.Quiet.filterEdge (State.Quiet.foldl ?_ fun u p hu => hu.pulse p)
  exact State.Quiet.foldl hQ.mk' fun u n hu => State.Quiet.ite (hu.cellStep _ _) (State.Quiet.ite (hu.pulse _) hu)

theorem State.Quiet.fire {κ : Standing} {s₀ s : State} (hQ : s₀.Quiet κ s) (p : Nat) :
    s₀.Quiet κ (State.fire p s) := by
  obtain ⟨l, e⟩ := State.fire_eq p s
  rw [e]
  exact hQ.mk'


theorem State.Quiet.overlap {κ : Standing} {s₀ s : State} (hQ : s₀.Quiet κ s) (k : Nat) :
    s₀.Quiet κ (State.overlap s k) := by
  unfold State.overlap
  grind (gen := 30) (ematch := 30) only [← State.Quiet.raise, ← State.Quiet.setRg, ← State.Quiet.mk']

theorem State.Quiet.writeAction {κ : Standing} {s₀ s : State} (hQ : s₀.Quiet κ s) (k : Nat) {act : State → State} (hf : ∀ {t}, s₀.Quiet κ t → s₀.Quiet κ (act t)) :
    s₀.Quiet κ (s.writeAction k act) := by
  unfold State.writeAction
  grind (gen := 30) (ematch := 30) only [← State.Quiet.overlap, ← State.Quiet.mk']

theorem State.Quiet.commitEntry {κ : Standing} {s₀ s : State} (hQ : s₀.Quiet κ s) (k : Nat) (cls : Nat) (code : Nat) (detail : W20) :
    s₀.Quiet κ (State.commitEntry s k cls code detail) := by
  unfold State.commitEntry
  grind (gen := 30) (ematch := 30) only [← State.Quiet.set40, ← State.Quiet.setRg, ← State.Quiet.mk']

theorem State.Quiet.logReport {κ : Standing} {s₀ s : State} (hQ : s₀.Quiet κ s) (code : Nat) (detail : W20) :
    s₀.Quiet κ (State.logReport s code detail) := by
  unfold State.logReport
  grind (gen := 30) (ematch := 30) only [← State.Quiet.bump, ← State.Quiet.commitEntry, ← State.Quiet.raise, ← State.Quiet.mk']

theorem State.Quiet.fatalCut {κ : Standing} {s₀ s : State} (hQ : s₀.Quiet κ s) :
    s₀.Quiet κ (State.fatalCut s) := by
  unfold State.fatalCut
  grind (gen := 30) (ematch := 30) only [← State.Quiet.put, ← State.Quiet.setRg, ← State.Quiet.mk']

theorem State.Quiet.modManger {κ : Standing} {s₀ s : State} (hQ : s₀.Quiet κ s) (f : Manger → Manger) :
    s₀.Quiet κ (State.modManger s f) := by
  unfold State.modManger
  grind (gen := 30) (ematch := 30) only [← State.Quiet.mk']

theorem State.Quiet.release {κ : Standing} {s₀ s : State} (hQ : s₀.Quiet κ s) (hs : List Nat) :
    s₀.Quiet κ (State.release s hs) := by
  unfold State.release
  grind (gen := 30) (ematch := 30) only [← State.Quiet.modManger]

theorem State.Quiet.withdraw {κ : Standing} {s₀ s : State} (hQ : s₀.Quiet κ s) (p : Wait → Bool) :
    s₀.Quiet κ (State.withdraw s p) := by
  unfold State.withdraw
  grind (gen := 30) (ematch := 30) only [← State.Quiet.modManger, ← State.Quiet.release, ← State.Quiet.mk']

theorem State.Quiet.addWait {κ : Standing} {s₀ s : State} (hQ : s₀.Quiet κ s) (id : Nat) (cls : Nat) (k : WaitKind) :
    s₀.Quiet κ (State.addWait s id cls k) := by
  unfold State.addWait
  grind (gen := 30) (ematch := 30) only [← State.Quiet.modManger, ← State.Quiet.mk']

theorem State.Quiet.askOne {κ : Standing} {s₀ s : State} (hQ : s₀.Quiet κ s) (cls : Nat) (hs : List Nat) :
    s₀.Quiet κ (State.askOne s cls hs) := by
  unfold State.askOne
  grind (gen := 30) (ematch := 30) only [← State.Quiet.addWait, ← State.Quiet.foldl, ← State.Quiet.mk']

theorem State.Quiet.ask {κ : Standing} {s₀ s : State} (hQ : s₀.Quiet κ s) (cls : Nat) (hs : List Nat) :
    s₀.Quiet κ (State.ask s cls hs) := by
  unfold State.ask
  grind (gen := 30) (ematch := 30) only [← State.Quiet.askOne, ← State.Quiet.foldl]

theorem State.Quiet.drop {κ : Standing} {s₀ s : State} (hQ : s₀.Quiet κ s) (hs : List Nat) :
    s₀.Quiet κ (State.drop s hs) := by
  unfold State.drop
  grind (gen := 30) (ematch := 30) only [← State.Quiet.modManger, ← State.Quiet.release, ← State.Quiet.withdraw, ← State.Quiet.mk']

theorem State.Quiet.charge {κ : Standing} {s₀ s : State} (hQ : s₀.Quiet κ s) (hs : List Nat) :
    s₀.Quiet κ (State.charge s hs) := by
  unfold State.charge
  grind (gen := 30) (ematch := 30) only [← State.Quiet.modManger, ← State.Quiet.foldl, ← State.Quiet.mk']

theorem State.Quiet.setProgram {κ : Standing} {s₀ s : State} (hQ : s₀.Quiet κ s) (h : Nat) (h3 : Nat) :
    s₀.Quiet κ (State.setProgram s h h3) := by
  unfold State.setProgram
  grind (gen := 30) (ematch := 30) only [← State.Quiet.modManger, ← State.Quiet.release, ← State.Quiet.mk']

theorem State.Quiet.exchange {κ : Standing} {s₀ s : State} (hQ : s₀.Quiet κ s) (ret : List Nat) (take : List Nat) :
    s₀.Quiet κ (State.exchange s ret take) := by
  unfold State.exchange
  grind (gen := 30) (ematch := 30) only [← State.Quiet.modManger, ← State.Quiet.foldl, ← State.Quiet.mk']

theorem State.Quiet.trySwap {κ : Standing} {s₀ s : State} (hQ : s₀.Quiet κ s) (ret : List Nat) (take : List Nat) {t} (e : State.trySwap s ret take = some t) :
    s₀.Quiet κ t := by
  unfold State.trySwap at e
  grind only [← State.Quiet.exchange]


theorem State.Quiet.grantWait {κ : Standing} {s₀ s : State} (hQ : s₀.Quiet κ s) (w : Wait) :
    s₀.Quiet κ (State.grantWait s w) := by
  unfold State.grantWait
  grind (gen := 30) (ematch := 30) only [← State.Quiet.charge, ← State.Quiet.exchange, ← State.Quiet.modManger, ← State.Quiet.setProgram, ← State.Quiet.mk']

theorem State.Quiet.refreshUrgent {κ : Standing} {s₀ s : State} (hQ : s₀.Quiet κ s) :
    s₀.Quiet κ (State.refreshUrgent s) := by
  unfold State.refreshUrgent
  grind (gen := 30) (ematch := 30) only [← State.Quiet.modManger, ← State.Quiet.mk']

theorem State.Quiet.grantEach {κ : Standing} {s₀ : State} (ws : List Wait) (r : State × List Wait) (hQ : s₀.Quiet κ r.1) :
    s₀.Quiet κ (State.grantEach ws r).1 := by
  induction ws generalizing r with
  | nil => exact hQ
  | cons w ws ih =>
    obtain ⟨s, g⟩ := r
    unfold State.grantEach
    split
    · exact ih _ ((State.Quiet.grantWait hQ w).withdraw _)
    · exact ih _ hQ


theorem State.Quiet.evaluate {κ : Standing} {s₀ s : State} (hQ : s₀.Quiet κ s) :
    s₀.Quiet κ (State.evaluate s).1 := by
  unfold State.evaluate
  grind (gen := 30) (ematch := 30) only [← State.Quiet.grantEach, ← State.Quiet.refreshUrgent, ← State.Quiet.mk']

theorem State.Quiet.moveBand {κ : Standing} {s₀ s : State} (hQ : s₀.Quiet κ s) (b : Nat) (quiet : Bool) :
    s₀.Quiet κ (State.moveBand s b quiet) := by
  unfold State.moveBand
  grind (gen := 30) (ematch := 30) only [← State.Quiet.modManger, ← State.Quiet.put, ← State.Quiet.raise]

theorem State.Quiet.sampleBand {κ : Standing} {s₀ s : State} (hQ : s₀.Quiet κ s) (v : Nat) :
    s₀.Quiet κ (State.sampleBand s v) := by
  unfold State.sampleBand
  grind (gen := 30) (ematch := 30) only [← State.Quiet.modManger, ← State.Quiet.moveBand, ← State.Quiet.put, ← State.Quiet.mk']

theorem State.Quiet.checkRations {κ : Standing} {s₀ s : State} (hQ : s₀.Quiet κ s) :
    s₀.Quiet κ (State.checkRations s) := by
  unfold State.checkRations
  grind (gen := 30) (ematch := 30) only [← State.Quiet.put, ← State.Quiet.report]

theorem State.Quiet.writePool {κ : Standing} {s₀ s : State} (hQ : s₀.Quiet κ s) (v : W20) :
    s₀.Quiet κ (State.writePool s v) := by
  unfold State.writePool
  grind (gen := 30) (ematch := 30) only [← State.Quiet.modManger, ← State.Quiet.moveBand, ← State.Quiet.put, ← State.Quiet.raise, ← State.Quiet.mk']

theorem State.Quiet.give {κ : Standing} {s₀ s : State} (hQ : s₀.Quiet κ s) (h : Nat) (m : Nat) :
    s₀.Quiet κ (State.give s h m).2 := by
  unfold State.give
  grind (gen := 30) (ematch := 30) only [← State.Quiet.raise, ← State.Quiet.release, ← State.Quiet.setProgram]

theorem State.Quiet.takeException {κ : Standing} {s₀ s : State} (hQ : s₀.Quiet κ s) (hc : κ.cores = false) (c : CoreId) (cls : Cause) (detail : Nat) (eaddr : W20) (ret : BitVec 16) :
    s₀.Quiet κ (State.takeException s c cls detail eaddr ret) := by
  unfold State.takeException
  grind (gen := 30) (ematch := 30) only [← State.Quiet.report, ← State.Quiet.setCore, ← State.Quiet.mk']

theorem State.Quiet.illegal {κ : Standing} {s₀ s : State} (hQ : s₀.Quiet κ s) (hc : κ.cores = false) (c : CoreId) :
    s₀.Quiet κ (State.illegal s c) := by
  unfold State.illegal
  grind (gen := 30) (ematch := 30) only [← State.Quiet.takeException]

theorem State.Quiet.privOp {κ : Standing} {s₀ s : State} (hQ : s₀.Quiet κ s) (hc : κ.cores = false) (c : CoreId) :
    s₀.Quiet κ (State.privOp s c) := by
  unfold State.privOp
  grind (gen := 30) (ematch := 30) only [← State.Quiet.takeException]

theorem State.Quiet.dataFault {κ : Standing} {s₀ s : State} (hQ : s₀.Quiet κ s) (hc : κ.cores = false) (c : CoreId) (detail : Nat) (a : W20) :
    s₀.Quiet κ (State.dataFault s c detail a) := by
  unfold State.dataFault
  grind (gen := 30) (ematch := 30) only [← State.Quiet.takeException]

theorem State.Quiet.withdrawTake {κ : Standing} {s₀ s : State} (hQ : s₀.Quiet κ s) (c : CoreId) :
    s₀.Quiet κ (State.withdrawTake s c) := by
  unfold State.withdrawTake
  grind (gen := 30) (ematch := 30) only [← State.Quiet.withdraw, ← State.Quiet.mk']

theorem State.Quiet.hitchErr {κ : Standing} {s₀ s : State} (hQ : s₀.Quiet κ s) (cause : Nat) :
    s₀.Quiet κ (State.hitchErr cause s) := by
  unfold State.hitchErr
  grind (gen := 30) (ematch := 30) only [← State.Quiet.put]

theorem State.Quiet.reachWith {κ : Standing} {s₀ s : State} (hQ : s₀.Quiet κ s) (src : Source) (a : Nat) {f : State → State} (hf : ∀ {t}, s₀.Quiet κ t → s₀.Quiet κ (f t)) :
    s₀.Quiet κ (s.reachWith src a f) := by
  unfold State.reachWith
  grind (gen := 30) (ematch := 30) only [← State.Quiet.hitchErr]

theorem State.Quiet.commitSpare {κ : Standing} {s₀ s : State} (hQ : s₀.Quiet κ s) (kind : Nat) (idx : Nat) :
    s₀.Quiet κ (State.commitSpare kind idx s) := by
  unfold State.commitSpare
  grind (gen := 30) (ematch := 30) only [← State.Quiet.put, ← State.Quiet.report, ← State.Quiet.mk']

theorem State.Quiet.spareTry {κ : Standing} {s₀ s : State} (hQ : s₀.Quiet κ s) (kind : Nat) (idx : Nat) (ok : Bool) :
    s₀.Quiet κ (State.spareTry s kind idx ok) := by
  unfold State.spareTry
  grind (gen := 30) (ematch := 30) only [← State.Quiet.commitSpare, ← State.Quiet.put, ← State.Quiet.mk']

theorem State.Quiet.spareOpen {κ : Standing} {s₀ s : State} (hQ : s₀.Quiet κ s) (kind : Nat) (idx : Nat) :
    s₀.Quiet κ (State.spareOpen s kind idx) := by
  unfold State.spareOpen
  grind (gen := 30) (ematch := 30) only [← State.Quiet.fresh, ← State.Quiet.spareTry]

theorem State.Quiet.trackRow {κ : Standing} {s₀ s : State} (hQ : s₀.Quiet κ s) (kind : Nat) (idx : Nat) :
    s₀.Quiet κ (State.trackRow kind idx s) := by
  unfold State.trackRow
  grind (gen := 30) (ematch := 30) only [← State.Quiet.spareOpen, ← State.Quiet.mk']

theorem State.Quiet.candidate {κ : Standing} {s₀ s : State} (hQ : s₀.Quiet κ s) (row : Nat) (ue : Bool) :
    s₀.Quiet κ (State.candidate row ue s) := by
  unfold State.candidate
  grind (gen := 30) (ematch := 30) only [← State.Quiet.raise, ← State.Quiet.report, ← State.Quiet.setRg, ← State.Quiet.mk']

theorem State.Quiet.trackYard {κ : Standing} {s₀ s : State} (hQ : s₀.Quiet κ s) (row : Nat) :
    s₀.Quiet κ (State.trackYard row s) := by
  unfold State.trackYard
  grind (gen := 30) (ematch := 30) only [← State.Quiet.candidate, ← State.Quiet.mk']

theorem State.Quiet.wearEdge {κ : Standing} {s₀ s : State} (hQ : s₀.Quiet κ s) :
    s₀.Quiet κ (State.wearEdge s) := by
  unfold State.wearEdge
  grind (gen := 30) (ematch := 30) only [← State.Quiet.mk']

theorem State.Quiet.setByte {κ : Standing} {s₀ s : State} (hQ : s₀.Quiet κ s) (hm : κ.mem = false) (r : Ram) (a : Nat) (b : Byte) :
    s₀.Quiet κ (State.setByte s r a b) := by
  refine hQ.written hm (s.setByte_wf r a b) ?_ ?_ ?_ ?_ <;> cases r <;> rfl

theorem State.Quiet.setBytes {κ : Standing} {s₀ s : State} (hQ : s₀.Quiet κ s) (hm : κ.mem = false) (r : Ram) (a : Nat) (l : List Byte) :
    s₀.Quiet κ (s.setBytes r a l) := by
  induction l generalizing s a with
  | nil => exact hQ
  | cons b l ih => exact ih (hQ.setByte hm r a b) _

theorem State.Quiet.ramTrack {κ : Standing} {s₀ s : State} (hQ : s₀.Quiet κ s) (r : Ram) (g : Nat) :
    s₀.Quiet κ (State.ramTrack r g s) := by
  unfold State.ramTrack
  grind (gen := 30) (ematch := 30) only [← State.Quiet.trackRow, ← State.Quiet.mk']

theorem State.Quiet.ramErrors {κ : Standing} {s₀ s : State} (hQ : s₀.Quiet κ s) (r : Ram) (ces : List Nat) (ues : List Nat) :
    s₀.Quiet κ (State.ramErrors r ces ues s) := by
  have hce : r.ce + 1 < 35 := by cases r with
    | sram => decide
    | pram c => exact Nat.le_of_ble_eq_true rfl
  unfold State.ramErrors
  refine State.Quiet.foldl (State.Quiet.foldl (State.Quiet.foldl hQ fun u g hu => ?_) fun u g hu => hu.report _ (.inr hce))
    fun u g hu => hu.ramTrack r g
  exact (hu.setChk _ _).report _ (.inr (Nat.lt_of_succ_lt hce))

theorem State.Quiet.ramRead {κ : Standing} {s₀ s : State} (hQ : s₀.Quiet κ s) (r : Ram) (a : Nat) (n : Nat) :
    s₀.Quiet κ (State.ramRead s r a n).2 := by
  unfold State.ramRead
  grind (gen := 30) (ematch := 30) only [← State.Quiet.ramErrors]

theorem State.Quiet.ramWrite {κ : Standing} {s₀ s : State} (hQ : s₀.Quiet κ s) (hm : κ.mem = false) (r : Ram) (a : Nat) (bs : List Byte) :
    s₀.Quiet κ (State.ramWrite s r a bs) := by
  unfold State.ramWrite
  grind (gen := 30) (ematch := 30) only [← State.Quiet.ramErrors, ← State.Quiet.setBytes, ← State.Quiet.setChk, ← State.Quiet.foldl]

theorem State.Quiet.sramWord {κ : Standing} {s₀ s : State} (hQ : s₀.Quiet κ s) (a : Nat) :
    s₀.Quiet κ (State.sramWord s a).2 := by
  unfold State.sramWord
  grind (gen := 30) (ematch := 30) only [← State.Quiet.ramRead]

theorem State.Quiet.setSramWord {κ : Standing} {s₀ s : State} (hQ : s₀.Quiet κ s) (hm : κ.mem = false) (a : Nat) (v : W20) :
    s₀.Quiet κ (State.setSramWord s a v) := by
  unfold State.setSramWord
  grind (gen := 30) (ematch := 30) only [← State.Quiet.ramWrite]

theorem State.Quiet.setLoft {κ : Standing} {s₀ s : State} (hQ : s₀.Quiet κ s) (hm : κ.mem = false) (c : CoreId) (w : Nat) (v : W20) :
    s₀.Quiet κ (State.setLoft s c w v) := by
  exact hQ.written hm (s.setLoft_wf c w v) rfl rfl rfl rfl

theorem State.Quiet.loftRead {κ : Standing} {s₀ s : State} (hQ : s₀.Quiet κ s) (c : CoreId) (w : Nat) :
    s₀.Quiet κ (State.loftRead s c w).2 := by
  unfold State.loftRead
  grind (gen := 30) (ematch := 30) only [← State.Quiet.report, ← State.Quiet.setChk, ← State.Quiet.trackRow, ← State.Quiet.mk']

theorem State.Quiet.dmaPush {κ : Standing} {s₀ s : State} (hQ : s₀.Quiet κ s) (q : Fin 5) (x : Xfer) :
    s₀.Quiet κ (State.dmaPush s q x) := by
  unfold State.dmaPush
  grind (gen := 30) (ematch := 30) only [← State.Quiet.ask, ← State.Quiet.mk']

theorem State.Quiet.dmaWrite {κ : Standing} {s₀ s : State} (hQ : s₀.Quiet κ s) (q : Fin 5) (a : Nat) (l : List Byte) (tag : XferTag) :
    s₀.Quiet κ (State.dmaWrite s q a l tag) := by
  unfold State.dmaWrite
  grind (gen := 30) (ematch := 30) only [← State.Quiet.dmaPush]

theorem State.Quiet.dmaRead {κ : Standing} {s₀ s : State} (hQ : s₀.Quiet κ s) (q : Fin 5) (a : Nat) (n : Nat) (tag : XferTag) :
    s₀.Quiet κ (State.dmaRead s q a n tag) := by
  unfold State.dmaRead
  grind (gen := 30) (ematch := 30) only [← State.Quiet.dmaPush]

theorem State.Quiet.poolCheck {κ : Standing} {s₀ s : State} (hQ : s₀.Quiet κ s) (q : Fin 2) :
    s₀.Quiet κ (State.poolCheck s q) := by
  unfold State.poolCheck
  grind (gen := 30) (ematch := 30) only [← State.Quiet.put, ← State.Quiet.report]

theorem State.Quiet.setPool {κ : Standing} {s₀ s : State} (hQ : s₀.Quiet κ s) (q : Fin 2) (p : Pool) :
    s₀.Quiet κ (State.setPool s q p) := by
  unfold State.setPool
  grind (gen := 30) (ematch := 30) only [← State.Quiet.mk']

theorem State.Quiet.descSet {κ : Standing} {s₀ s : State} (hQ : s₀.Quiet κ s) (q : Fin 2) (i : Nat) (d : DescSt) :
    s₀.Quiet κ (State.descSet s q i d) := by
  unfold State.descSet
  grind (gen := 30) (ematch := 30) only [← State.Quiet.setPool, ← State.Quiet.mk']

theorem State.Quiet.descTake {κ : Standing} {s₀ s : State} (hQ : s₀.Quiet κ s) (q : Fin 2) {r} (e : State.descTake s q = some r) :
    s₀.Quiet κ r.2 := by
  unfold State.descTake at e
  split at e
  · cases e
  · cases e
    exact ((hQ.setPool q _).poolCheck q).dmaWrite ..


theorem State.Quiet.descFree {κ : Standing} {s₀ s : State} (hQ : s₀.Quiet κ s) (q : Fin 2) (i : Nat) :
    s₀.Quiet κ (State.descFree s q i) := by
  unfold State.descFree
  grind (gen := 30) (ematch := 30) only [← State.Quiet.poolCheck, ← State.Quiet.setPool]

theorem State.Quiet.stcGive {κ : Standing} {s₀ s : State} (hQ : s₀.Quiet κ s) (v : W20) :
    s₀.Quiet κ (State.stcGive s v) := by
  unfold State.stcGive
  grind (gen := 30) (ematch := 30) only [← State.Quiet.descFree, ← State.Quiet.raise]

theorem State.Quiet.poolFill {κ : Standing} {s₀ s : State} (hQ : s₀.Quiet κ s) (q : Fin 2) (v : W20) :
    s₀.Quiet κ (State.poolFill s q v) := by
  unfold State.poolFill
  grind (gen := 30) (ematch := 30) only [← State.Quiet.setPool, ← State.Quiet.setRg]

theorem State.Quiet.poolWrite {κ : Standing} {s₀ s : State} (hQ : s₀.Quiet κ s) (q : Fin 2) (which : PoolReg) (v : W20) :
    s₀.Quiet κ (State.poolWrite s q which v) := by
  unfold State.poolWrite
  grind (gen := 30) (ematch := 30) only [← State.Quiet.poolFill, ← State.Quiet.raise, ← State.Quiet.setRg, ← State.Quiet.mk']

theorem State.Quiet.completeRec {κ : Standing} {s₀ s : State} (hQ : s₀.Quiet κ s) (q : Fin 2) (i : Nat) (status : Nat) (pos : Nat) (hdr : W20) (r : SyncRec) (n : Nat) :
    s₀.Quiet κ (State.completeRec s q i status pos hdr r n) := by
  unfold State.completeRec
  grind (gen := 30) (ematch := 30) only [← State.Quiet.dmaWrite]

theorem State.Quiet.complete {κ : Standing} {s₀ s : State} (hQ : s₀.Quiet κ s) (q : Fin 2) (i : Nat) (status : Nat) (pos : Nat) (hdr : W20) (r : SyncRec) (data : List Byte) :
    s₀.Quiet κ (State.complete s q i status pos hdr r data) := by
  unfold State.complete
  grind (gen := 30) (ematch := 30) only [← State.Quiet.completeRec, ← State.Quiet.dmaWrite]

theorem State.Quiet.modLink {κ : Standing} {s₀ s : State} (hQ : s₀.Quiet κ s) (f : Link → Link) :
    s₀.Quiet κ (State.modLink s f) := by
  unfold State.modLink
  grind (gen := 30) (ematch := 30) only [← State.Quiet.mk']

theorem State.Quiet.linkHi {κ : Standing} {s₀ s : State} (hQ : s₀.Quiet κ s) (k : Nat) :
    s₀.Quiet κ (State.linkHi s k) := by
  unfold State.linkHi
  grind (gen := 30) (ematch := 30) only [← State.Quiet.bump]

theorem State.Quiet.linkLo {κ : Standing} {s₀ s : State} (hQ : s₀.Quiet κ s) (k : Nat) :
    s₀.Quiet κ (State.linkLo s k) := by
  unfold State.linkLo
  grind (gen := 30) (ematch := 30) only [← State.Quiet.bump]

theorem State.Quiet.rcAdd {κ : Standing} {s₀ s : State} (hQ : s₀.Quiet κ s) (src : BitVec 32) (ctr : BitVec 32) :
    s₀.Quiet κ (State.rcAdd s src ctr) := by
  unfold State.rcAdd
  grind (gen := 30) (ematch := 30) only [← State.Quiet.linkHi, ← State.Quiet.modLink, ← State.Quiet.raise, ← State.Quiet.mk']

theorem State.Quiet.ackFail {κ : Standing} {s₀ s : State} (hQ : s₀.Quiet κ s) (code : Nat) :
    s₀.Quiet κ (State.ackFail s code) := by
  unfold State.ackFail
  grind (gen := 30) (ematch := 30) only [← State.Quiet.linkLo, ← State.Quiet.modLink, ← State.Quiet.put, ← State.Quiet.rcAdd, ← State.Quiet.mk']

theorem State.Quiet.ackAbandon {κ : Standing} {s₀ s : State} (hQ : s₀.Quiet κ s) (slot : Nat) :
    s₀.Quiet κ (State.ackAbandon s slot) := by
  unfold State.ackAbandon
  grind (gen := 30) (ematch := 30) only [← State.Quiet.ackFail, ← State.Quiet.modLink, ← State.Quiet.put, ← State.Quiet.mk']

theorem State.Quiet.modFrames {κ : Standing} {s₀ s : State} (hQ : s₀.Quiet κ s) (f : FrameUnit → FrameUnit) :
    s₀.Quiet κ (State.modFrames s f) := by
  unfold State.modFrames
  grind (gen := 30) (ematch := 30) only [← State.Quiet.mk']

theorem State.Quiet.setFrame {κ : Standing} {s₀ s : State} (hQ : s₀.Quiet κ s) (f : Frame) :
    s₀.Quiet κ (State.setFrame s f) := by
  unfold State.setFrame
  grind (gen := 30) (ematch := 30) only [← State.Quiet.modFrames, ← State.Quiet.mk']

theorem State.Quiet.decIdle {κ : Standing} {s₀ s : State} (hQ : s₀.Quiet κ s) :
    s₀.Quiet κ (State.decIdle s) := by
  unfold State.decIdle
  grind (gen := 30) (ematch := 30) only [← State.Quiet.mk']

theorem State.Quiet.macDrop {κ : Standing} {s₀ s : State} (hQ : s₀.Quiet κ s) (id : Nat) :
    s₀.Quiet κ (State.macDrop s id) := by
  unfold State.macDrop
  grind (gen := 30) (ematch := 30) only [← State.Quiet.modLink, ← State.Quiet.rcAdd, ← State.Quiet.mk']

theorem State.Quiet.frameWithdraw {κ : Standing} {s₀ s : State} (hQ : s₀.Quiet κ s) (id : Nat) :
    s₀.Quiet κ (State.frameWithdraw s id) := by
  unfold State.frameWithdraw
  grind (gen := 30) (ematch := 30) only [← State.Quiet.decIdle, ← State.Quiet.macDrop, ← State.Quiet.mk']

theorem State.Quiet.modStall {κ : Standing} {s₀ s : State} (hQ : s₀.Quiet κ s) (p : Nat) (f : StallH → StallH) :
    s₀.Quiet κ (State.modStall s p f) := by
  unfold State.modStall
  grind (gen := 30) (ematch := 30) only [← State.Quiet.mk']

theorem State.Quiet.stallLast {κ : Standing} {s₀ s : State} (hQ : s₀.Quiet κ s) (p : Nat) (o : Nat) :
    s₀.Quiet κ (State.stallLast s p o) := by
  unfold State.stallLast
  grind (gen := 30) (ematch := 30) only [← State.Quiet.bump, ← State.Quiet.put, ← State.Quiet.raise, ← State.Quiet.mk']

theorem State.Quiet.stallDrop {κ : Standing} {s₀ s : State} (hQ : s₀.Quiet κ s) (p : Nat) :
    s₀.Quiet κ (State.stallDrop s p) := by
  unfold State.stallDrop
  grind (gen := 30) (ematch := 30) only [← State.Quiet.descFree, ← State.Quiet.frameWithdraw, ← State.Quiet.modStall, ← State.Quiet.put, ← State.Quiet.mk']

theorem State.Quiet.stallAbandon {κ : Standing} {s₀ s : State} (hQ : s₀.Quiet κ s) (p : Nat) (o : Nat) :
    s₀.Quiet κ (State.stallAbandon s p o) := by
  unfold State.stallAbandon
  grind (gen := 30) (ematch := 30) only [← State.Quiet.stallDrop, ← State.Quiet.stallLast]

theorem State.Quiet.packetEnd {κ : Standing} {s₀ s : State} (hQ : s₀.Quiet κ s) (p : Nat) (f : Frame) :
    s₀.Quiet κ (State.packetEnd s p f) := by
  unfold State.packetEnd
  grind (gen := 30) (ematch := 30) only [← State.Quiet.descSet, ← State.Quiet.modStall, ← State.Quiet.put, ← State.Quiet.setFrame, ← State.Quiet.stallLast, ← State.Quiet.mk']

theorem State.Quiet.packetLeave {κ : Standing} {s₀ s : State} (hQ : s₀.Quiet κ s) (p : Nat) (o : Nat) :
    s₀.Quiet κ (State.packetLeave s p o) := by
  unfold State.packetLeave
  grind (gen := 30) (ematch := 30) only [← State.Quiet.packetEnd, ← State.Quiet.stallAbandon, ← State.Quiet.mk']

theorem State.Quiet.orbitHear {κ : Standing} {s₀ s : State} (hQ : s₀.Quiet κ s) (hp : κ.power = false) (n : Nat) (p : Nat) :
    s₀.Quiet κ (State.orbitHear s n p) := by
  unfold State.orbitHear
  split
  · exact State.Quiet.ite (hQ.withPower hp _) hQ
  · exact hQ

theorem State.Quiet.orbitLevel {κ : Standing} {s₀ s : State} (hQ : s₀.Quiet κ s) (hp : κ.power = false) :
    s₀.Quiet κ (State.orbitLevel s) := by
  unfold State.orbitLevel
  split
  · exact State.Quiet.ite (hQ.withPower hp _) hQ
  · exact hQ

theorem State.Quiet.stallFollow {κ : Standing} {s₀ s : State} (hQ : s₀.Quiet κ s) (p : Nat) :
    s₀.Quiet κ (State.stallFollow s p) := by
  unfold State.stallFollow
  grind (gen := 30) (ematch := 30) only [← State.Quiet.modStall, ← State.Quiet.packetLeave, ← State.Quiet.put, ← State.Quiet.mk']

theorem State.Quiet.stallSync {κ : Standing} {s₀ s : State} (hQ : s₀.Quiet κ s) :
    s₀.Quiet κ (State.stallSync s) := by
  unfold State.stallSync
  grind (gen := 30) (ematch := 30) only [← State.Quiet.put, ← State.Quiet.stallFollow, ← State.Quiet.foldl]

theorem State.Quiet.stallEn {κ : Standing} {s₀ s : State} (hQ : s₀.Quiet κ s) (p : Nat) (en : Bool) :
    s₀.Quiet κ (State.stallEn s p en) := by
  unfold State.stallEn
  grind (gen := 30) (ematch := 30) only [← State.Quiet.put, ← State.Quiet.raise, ← State.Quiet.stallFollow]

theorem State.Quiet.stallAct {κ : Standing} {s₀ s : State} (hQ : s₀.Quiet κ s) (p : Nat) (en : Bool) :
    s₀.Quiet κ (State.stallAct s p en) := by
  unfold State.stallAct
  grind (gen := 30) (ematch := 30) only [← State.Quiet.modStall, ← State.Quiet.stallEn, ← State.Quiet.mk']

theorem State.Quiet.stallAction {κ : Standing} {s₀ s : State} (hQ : s₀.Quiet κ s) (all : Bool) (p : Nat) (en : Bool) :
    s₀.Quiet κ (State.stallAction s all p en) := by
  unfold State.stallAction
  grind (gen := 30) (ematch := 30) only [← State.Quiet.stallAct, ← State.Quiet.foldl]

theorem State.Quiet.enWritten {κ : Standing} {s₀ s : State} (hQ : s₀.Quiet κ s) (p : Nat) {write : State → State} (hf : ∀ {t}, s₀.Quiet κ t → s₀.Quiet κ (write t)) :
    s₀.Quiet κ (s.enWritten p write) := by
  unfold State.enWritten
  grind (gen := 30) (ematch := 30) only [← State.Quiet.put, ← State.Quiet.stallEn, ← State.Quiet.mk']

theorem State.Quiet.uartSettle {κ : Standing} {s₀ s : State} (hQ : s₀.Quiet κ s) (old : State) :
    s₀.Quiet κ (s.uartSettle old) := by
  unfold State.uartSettle
  grind (gen := 30) (ematch := 30) only [← State.Quiet.fire, ← State.Quiet.put]

theorem State.Quiet.uartLoad {κ : Standing} {s₀ s : State} (hQ : s₀.Quiet κ s) :
    s₀.Quiet κ (State.uartLoad s) := by
  unfold State.uartLoad
  grind (gen := 30) (ematch := 30) only [← State.Quiet.mk']

theorem State.Quiet.uartStore {κ : Standing} {s₀ s : State} (hQ : s₀.Quiet κ s) (b : Byte) (ferr : Bool) :
    s₀.Quiet κ (State.uartStore s b ferr) := by
  unfold State.uartStore
  grind (gen := 30) (ematch := 30) only [← State.Quiet.put, ← State.Quiet.mk']

theorem State.Quiet.uartPop {κ : Standing} {s₀ s : State} (hQ : s₀.Quiet κ s) :
    s₀.Quiet κ (State.uartPop s).2 := by
  unfold State.uartPop
  grind (gen := 30) (ematch := 30) only [← State.Quiet.setRg, ← State.Quiet.uartSettle, ← State.Quiet.mk']

theorem State.Quiet.uartPush {κ : Standing} {s₀ s : State} (hQ : s₀.Quiet κ s) (b : Byte) :
    s₀.Quiet κ (State.uartPush s b) := by
  unfold State.uartPush
  grind (gen := 30) (ematch := 30) only [← State.Quiet.put, ← State.Quiet.uartLoad, ← State.Quiet.uartSettle, ← State.Quiet.mk']

theorem State.Quiet.uartCtrl {κ : Standing} {s₀ s : State} (hQ : s₀.Quiet κ s) (v : W20) :
    s₀.Quiet κ (State.uartCtrl s v) := by
  unfold State.uartCtrl
  grind (gen := 30) (ematch := 30) only [← State.Quiet.setRg, ← State.Quiet.uartLoad, ← State.Quiet.uartSettle]

theorem State.Quiet.tiedAsk {κ : Standing} {s₀ s : State} (hQ : s₀.Quiet κ s) (p : Nat) :
    s₀.Quiet κ (State.tiedAsk s p) := by
  unfold State.tiedAsk
  grind (gen := 30) (ematch := 30) only [← State.Quiet.ask, ← State.Quiet.foldl]

theorem State.Quiet.tiedDrop {κ : Standing} {s₀ s : State} (hQ : s₀.Quiet κ s) (p : Nat) :
    s₀.Quiet κ (State.tiedDrop s p) := by
  unfold State.tiedDrop
  grind (gen := 30) (ematch := 30) only [← State.Quiet.drop, ← State.Quiet.modManger, ← State.Quiet.mk']

theorem State.Quiet.pinMoved {κ : Standing} {s₀ s : State} (hQ : s₀.Quiet κ s) (n : Nat) (old : State) :
    s₀.Quiet κ (s.pinMoved n old) := by
  unfold State.pinMoved
  grind (gen := 30) (ematch := 30) only [← State.Quiet.pinPev, ← State.Quiet.pinShow, ← State.Quiet.mk']

theorem State.Quiet.heldApply {κ : Standing} {s₀ s : State} (hQ : s₀.Quiet κ s) (h : HeldPin) :
    s₀.Quiet κ (State.heldApply s h) := by
  unfold State.heldApply
  grind (gen := 30) (ematch := 30) only [← State.Quiet.put, ← State.Quiet.mk']

theorem State.Quiet.heldForget {κ : Standing} {s₀ s : State} (hQ : s₀.Quiet κ s) (p : Nat) (f : HeldPin → Bool) :
    s₀.Quiet κ (State.heldForget s p f) := by
  unfold State.heldForget
  grind (gen := 30) (ematch := 30) only [← State.Quiet.modManger, ← State.Quiet.mk']

theorem State.Quiet.heldDone {κ : Standing} {s₀ s : State} (hQ : s₀.Quiet κ s) (n : Nat) :
    s₀.Quiet κ (State.heldDone s n) := by
  unfold State.heldDone
  grind (gen := 30) (ematch := 30) only [← State.Quiet.heldApply, ← State.Quiet.pinMoved, ← State.Quiet.tiedDrop, ← State.Quiet.foldl]

theorem State.Quiet.gpioSet {κ : Standing} {s₀ s : State} (hQ : s₀.Quiet κ s) (n : Nat) (v : Bool) :
    s₀.Quiet κ (State.gpioSet s n v) := by
  unfold State.gpioSet
  grind (gen := 30) (ematch := 30) only [← State.Quiet.heldDone, ← State.Quiet.heldForget, ← State.Quiet.modManger, ← State.Quiet.pinMoved, ← State.Quiet.put, ← State.Quiet.tiedAsk, ← State.Quiet.tiedDrop, ← State.Quiet.mk']

theorem State.Quiet.gpioCfg {κ : Standing} {s₀ s : State} (hQ : s₀.Quiet κ s) (n : Nat) (v : W20) :
    s₀.Quiet κ (State.gpioCfg s n v) := by
  unfold State.gpioCfg
  grind (gen := 30) (ematch := 30) only [← State.Quiet.heldDone, ← State.Quiet.heldForget, ← State.Quiet.modManger, ← State.Quiet.pinMoved, ← State.Quiet.put, ← State.Quiet.setRg, ← State.Quiet.tiedAsk, ← State.Quiet.tiedDrop, ← State.Quiet.mk']

theorem State.Quiet.tiedApply {κ : Standing} {s₀ s : State} (hQ : s₀.Quiet κ s) (p : Nat) :
    s₀.Quiet κ (State.tiedApply s p) := by
  unfold State.tiedApply
  grind (gen := 30) (ematch := 30) only [← State.Quiet.heldApply, ← State.Quiet.heldForget, ← State.Quiet.pinMoved, ← State.Quiet.foldl]

theorem State.Quiet.gpioWrite {κ : Standing} {s₀ s : State} (hQ : s₀.Quiet κ s) (r : Nat) (mask : W20) (v : W20) :
    s₀.Quiet κ (State.gpioWrite s r mask v) := by
  unfold State.gpioWrite
  grind (gen := 30) (ematch := 30) only [← State.Quiet.gpioSet, ← State.Quiet.foldl]

theorem State.Quiet.gpioAct {κ : Standing} {s₀ s : State} (hQ : s₀.Quiet κ s) (n : Nat) :
    s₀.Quiet κ (State.gpioAct s n) := by
  unfold State.gpioAct
  grind (gen := 30) (ematch := 30) only [← State.Quiet.gpioSet, ← State.Quiet.mk']

theorem State.Quiet.gpioRead {κ : Standing} {s₀ s : State} (hQ : s₀.Quiet κ s) (r : Nat) :
    s₀.Quiet κ (State.gpioRead s r).2 := by
  unfold State.gpioRead
  grind (gen := 30) (ematch := 30) only [← State.Quiet.fresh, ← State.Quiet.foldl]

theorem State.Quiet.extWrite {κ : Standing} {s₀ s : State} (hQ : s₀.Quiet κ s) (n : Nat) (v : W20) :
    s₀.Quiet κ (State.extWrite s n v) := by
  unfold State.extWrite
  grind (gen := 30) (ematch := 30) only [← State.Quiet.ask, ← State.Quiet.drop, ← State.Quiet.setRg, ← State.Quiet.tiedApply, ← State.Quiet.mk']

theorem State.Quiet.modRadio {κ : Standing} {s₀ s : State} (hQ : s₀.Quiet κ s) (f : Radio → Radio) :
    s₀.Quiet κ (State.modRadio s f) := by
  unfold State.modRadio
  grind (gen := 30) (ematch := 30) only [← State.Quiet.mk']

theorem State.Quiet.rfeGo {κ : Standing} {s₀ s : State} (hQ : s₀.Quiet κ s) (st : Nat) :
    s₀.Quiet κ (State.rfeGo s st) := by
  unfold State.rfeGo
  grind (gen := 30) (ematch := 30) only [← State.Quiet.put, ← State.Quiet.stallSync]

theorem State.Quiet.calShow {κ : Standing} {s₀ s : State} (hQ : s₀.Quiet κ s) :
    s₀.Quiet κ (State.calShow s) := by
  unfold State.calShow
  grind (gen := 30) (ematch := 30) only [← State.Quiet.put]

theorem State.Quiet.settle {κ : Standing} {s₀ s : State} (hQ : s₀.Quiet κ s) (hs : List Nat) :
    s₀.Quiet κ (State.settle s hs) := by
  unfold State.settle
  grind (gen := 30) (ematch := 30) only [← State.Quiet.drop]

theorem State.Quiet.paApply {κ : Standing} {s₀ s : State} (hQ : s₀.Quiet κ s) (table : Nat) (k : Nat) :
    s₀.Quiet κ (State.paApply s table k) := by
  unfold State.paApply
  grind (gen := 30) (ematch := 30) only [← State.Quiet.modRadio, ← State.Quiet.tiedDrop, ← State.Quiet.foldl, ← State.Quiet.mk']

theorem State.Quiet.paDo {κ : Standing} {s₀ s : State} (hQ : s₀.Quiet κ s) (table : Nat) (k : Nat) :
    s₀.Quiet κ (State.paDo s table k) := by
  unfold State.paDo
  grind (gen := 30) (ematch := 30) only [← State.Quiet.modRadio, ← State.Quiet.paApply, ← State.Quiet.tiedAsk, ← State.Quiet.foldl, ← State.Quiet.mk']

theorem State.Quiet.paStart {κ : Standing} {s₀ s : State} (hQ : s₀.Quiet κ s) (table : Nat) (k : Nat) :
    s₀.Quiet κ (State.paStart s table k) := by
  unfold State.paStart
  grind (gen := 30) (ematch := 30) only [← State.Quiet.modRadio, ← State.Quiet.paDo, ← State.Quiet.mk']

theorem State.Quiet.paRetie {κ : Standing} {s₀ s : State} (hQ : s₀.Quiet κ s) (p : Nat) :
    s₀.Quiet κ (State.paRetie s p) := by
  unfold State.paRetie
  grind (gen := 30) (ematch := 30) only [← State.Quiet.charge, ← State.Quiet.modRadio, ← State.Quiet.mk']

theorem State.Quiet.paUndo {κ : Standing} {s₀ s : State} (hQ : s₀.Quiet κ s) (old : BitVec 15) :
    s₀.Quiet κ (State.paUndo s old) := by
  unfold State.paUndo
  grind (gen := 30) (ematch := 30) only [← State.Quiet.modRadio, ← State.Quiet.paRetie, ← State.Quiet.tiedDrop, ← State.Quiet.foldl, ← State.Quiet.mk']

theorem State.Quiet.paAction {κ : Standing} {s₀ s : State} (hQ : s₀.Quiet κ s) (table : Nat) (k : Nat) :
    s₀.Quiet κ (State.paAction s table k) := by
  unfold State.paAction
  grind (gen := 30) (ematch := 30) only [← State.Quiet.modRadio, ← State.Quiet.paStart, ← State.Quiet.paUndo, ← State.Quiet.raise, ← State.Quiet.mk']

theorem State.Quiet.paTransmit {κ : Standing} {s₀ s : State} (hQ : s₀.Quiet κ s) :
    s₀.Quiet κ (State.paTransmit s) := by
  unfold State.paTransmit
  grind (gen := 30) (ematch := 30) only [← State.Quiet.paStart, ← State.Quiet.paUndo, ← State.Quiet.raise, ← State.Quiet.mk']

theorem State.Quiet.paWrite {κ : Standing} {s₀ s : State} (hQ : s₀.Quiet κ s) (ofs : Nat) (v : W20) :
    s₀.Quiet κ (State.paWrite s ofs v) := by
  unfold State.paWrite
  grind (gen := 30) (ematch := 30) only [← State.Quiet.raise, ← State.Quiet.setRg]

theorem State.Quiet.paSafe {κ : Standing} {s₀ s : State} (hQ : s₀.Quiet κ s) :
    s₀.Quiet κ (State.paSafe s) := by
  unfold State.paSafe
  grind (gen := 30) (ematch := 30) only [← State.Quiet.modRadio, ← State.Quiet.tiedDrop, ← State.Quiet.mk']

theorem State.Quiet.txDrop {κ : Standing} {s₀ s : State} (hQ : s₀.Quiet κ s) :
    s₀.Quiet κ (State.txDrop s) := by
  unfold State.txDrop
  grind (gen := 30) (ematch := 30) only [← State.Quiet.ackAbandon, ← State.Quiet.modFrames, ← State.Quiet.put, ← State.Quiet.setRg, ← State.Quiet.mk']

theorem State.Quiet.radioOff {κ : Standing} {s₀ s : State} (hQ : s₀.Quiet κ s) :
    s₀.Quiet κ (State.radioOff s) := by
  unfold State.radioOff
  grind (gen := 30) (ematch := 30) only [← State.Quiet.calShow, ← State.Quiet.drop, ← State.Quiet.modRadio, ← State.Quiet.paSafe, ← State.Quiet.put, ← State.Quiet.rfeGo, ← State.Quiet.txDrop, ← State.Quiet.withdraw, ← State.Quiet.mk']

theorem State.Quiet.radioSettle {κ : Standing} {s₀ s : State} (hQ : s₀.Quiet κ s) :
    s₀.Quiet κ (State.radioSettle s) := by
  unfold State.radioSettle
  grind (gen := 30) (ematch := 30) only [← State.Quiet.modRadio, ← State.Quiet.mk']

theorem State.Quiet.rampStart {κ : Standing} {s₀ s : State} (hQ : s₀.Quiet κ s) (ch : Nat) :
    s₀.Quiet κ (State.rampStart s ch) := by
  unfold State.rampStart
  grind (gen := 30) (ematch := 30) only [← State.Quiet.ask, ← State.Quiet.modRadio, ← State.Quiet.put, ← State.Quiet.radioSettle, ← State.Quiet.rfeGo, ← State.Quiet.settle, ← State.Quiet.mk']

theorem State.Quiet.loApply {κ : Standing} {s₀ s : State} (hQ : s₀.Quiet κ s) (int : Nat) (frac : W20) :
    s₀.Quiet κ (State.loApply s int frac) := by
  unfold State.loApply
  grind (gen := 30) (ematch := 30) only [← State.Quiet.modRadio, ← State.Quiet.put, ← State.Quiet.stallSync, ← State.Quiet.mk']

theorem State.Quiet.gainApply {κ : Standing} {s₀ s : State} (hQ : s₀.Quiet κ s) :
    s₀.Quiet κ (State.gainApply s) := by
  unfold State.gainApply
  grind (gen := 30) (ematch := 30) only [← State.Quiet.modRadio, ← State.Quiet.put, ← State.Quiet.mk']

theorem State.Quiet.listenReached {κ : Standing} {s₀ s : State} (hQ : s₀.Quiet κ s) :
    s₀.Quiet κ (State.listenReached s) := by
  unfold State.listenReached
  grind (gen := 30) (ematch := 30) only [← State.Quiet.modRadio, ← State.Quiet.rfeGo, ← State.Quiet.mk']

theorem State.Quiet.windowOpen {κ : Standing} {s₀ s : State} (hQ : s₀.Quiet κ s) (ch : Nat) :
    s₀.Quiet κ (State.windowOpen s ch) := by
  unfold State.windowOpen
  grind (gen := 30) (ematch := 30) only [← State.Quiet.ask, ← State.Quiet.gainApply, ← State.Quiet.modRadio, ← State.Quiet.put, ← State.Quiet.rampStart, ← State.Quiet.settle, ← State.Quiet.stallSync, ← State.Quiet.mk']

theorem State.Quiet.windowClose {κ : Standing} {s₀ s : State} (hQ : s₀.Quiet κ s) :
    s₀.Quiet κ (State.windowClose s) := by
  unfold State.windowClose
  grind (gen := 30) (ematch := 30) only [← State.Quiet.modRadio, ← State.Quiet.put, ← State.Quiet.rfeGo, ← State.Quiet.settle, ← State.Quiet.stallSync, ← State.Quiet.mk']

theorem State.Quiet.radioRequest {κ : Standing} {s₀ s : State} (hQ : s₀.Quiet κ s) (req : Nat) :
    s₀.Quiet κ (State.radioRequest s req) := by
  unfold State.radioRequest
  grind (gen := 30) (ematch := 30) only [← State.Quiet.ask, ← State.Quiet.modRadio, ← State.Quiet.put, ← State.Quiet.radioOff, ← State.Quiet.radioSettle, ← State.Quiet.rfeGo, ← State.Quiet.mk']

theorem State.Quiet.rfeCtl {κ : Standing} {s₀ s : State} (hQ : s₀.Quiet κ s) (v : W20) :
    s₀.Quiet κ (State.rfeCtl s v) := by
  unfold State.rfeCtl
  grind (gen := 30) (ematch := 30) only [← State.Quiet.radioRequest, ← State.Quiet.raise, ← State.Quiet.windowClose, ← State.Quiet.windowOpen]

theorem State.Quiet.radioArrive {κ : Standing} {s₀ s : State} (hQ : s₀.Quiet κ s) :
    s₀.Quiet κ (State.radioArrive s) := by
  unfold State.radioArrive
  grind (gen := 30) (ematch := 30) only [← State.Quiet.ask, ← State.Quiet.loApply, ← State.Quiet.radioOff, ← State.Quiet.rampStart, ← State.Quiet.settle, ← State.Quiet.windowClose, ← State.Quiet.mk']

theorem State.Quiet.passPins {κ : Standing} {s₀ s : State} (hQ : s₀.Quiet κ s) :
    s₀.Quiet κ (State.passPins s) := by
  unfold State.passPins
  grind (gen := 30) (ematch := 30) only [← State.Quiet.paStart]

theorem State.Quiet.rxFracWrite {κ : Standing} {s₀ s : State} (hQ : s₀.Quiet κ s) (v : W20) :
    s₀.Quiet κ (State.rxFracWrite s v) := by
  unfold State.rxFracWrite
  dsimp only
  split
  · exact hQ.raise _
  · split
    · exact (hQ.setRg _ _).modRadio _
    · exact (hQ.setRg _ _).loApply ..


theorem State.Quiet.gainWrite {κ : Standing} {s₀ s : State} (hQ : s₀.Quiet κ s) (b : Bool) (v : W20) :
    s₀.Quiet κ (State.gainWrite s b v) := by
  unfold State.gainWrite
  grind (gen := 30) (ematch := 30) only [← State.Quiet.modRadio, ← State.Quiet.setRg, ← State.Quiet.mk']

theorem State.Quiet.txRefuse {κ : Standing} {s₀ s : State} (hQ : s₀.Quiet κ s) (code : Nat) :
    s₀.Quiet κ (State.txRefuse s code) := by
  unfold State.txRefuse
  grind (gen := 30) (ematch := 30) only [← State.Quiet.put, ← State.Quiet.raise, ← State.Quiet.setRg]

theorem State.Quiet.txCalStart {κ : Standing} {s₀ s : State} (hQ : s₀.Quiet κ s) (temp : BitVec 10) :
    s₀.Quiet κ (State.txCalStart s temp) := by
  unfold State.txCalStart
  grind (gen := 30) (ematch := 30) only [← State.Quiet.ask, ← State.Quiet.calShow, ← State.Quiet.modRadio, ← State.Quiet.put, ← State.Quiet.mk']

end Sys2Proof.Machine
end

section
/-! SUPPORT. What each operation leaves standing, continued: operations 151 to 300 of the model, callees before callers. -/

set_option Elab.async false

namespace Sys2Proof.Machine

theorem State.Quiet.applied {κ : Standing} {s₀ s : State} (hQ : s₀.Quiet κ s) (r : Option Nat) :
    s₀.Quiet κ (State.applied s r).1 := by
  unfold State.applied
  grind (gen := 30) (ematch := 30) only [← State.Quiet.mk']

theorem State.Quiet.applyTo {κ : Standing} {s₀ s : State} (hQ : s₀.Quiet κ s) (ret : List Nat) (hs : List Nat) :
    s₀.Quiet κ (State.applyTo s ret hs) := by
  unfold State.applyTo
  grind (gen := 30) (ematch := 30) only [← State.Quiet.addWait, ← State.Quiet.exchange, ← State.Quiet.foldl]

theorem State.Quiet.txTake {κ : Standing} {s₀ s : State} (hQ : s₀.Quiet κ s) (resv : Option Nat) :
    s₀.Quiet κ (State.txTake s resv) := by
  unfold State.txTake
  have ha := hQ.applied resv
  dsimp only
  split
  · split
    · exact ha.trySwap _ _ ‹_›
    · exact ha.addWait ..
  · split
    · exact ha.ask ..
    · exact ha.applyTo ..


theorem State.Quiet.txCalNeed {κ : Standing} {s₀ s : State} (hQ : s₀.Quiet κ s) (temp : BitVec 10) :
    s₀.Quiet κ (State.txCalNeed s temp) := by
  unfold State.txCalNeed
  grind (gen := 30) (ematch := 30) only [← State.Quiet.txCalStart]

theorem State.Quiet.txGo {κ : Standing} {s₀ s : State} (hQ : s₀.Quiet κ s) (slot : Nat) (ch : Nat) (resv : Option Nat) (temp : BitVec 10) :
    s₀.Quiet κ (State.txGo s slot ch resv temp) := by
  unfold State.txGo
  grind (gen := 30) (ematch := 30) only [← State.Quiet.drop, ← State.Quiet.modFrames, ← State.Quiet.modRadio, ← State.Quiet.paTransmit, ← State.Quiet.put, ← State.Quiet.radioSettle, ← State.Quiet.rfeGo, ← State.Quiet.setRg, ← State.Quiet.txCalNeed, ← State.Quiet.txTake, ← State.Quiet.mk']

theorem State.Quiet.txStart {κ : Standing} {s₀ s : State} (hQ : s₀.Quiet κ s) (k : Nat) (resv : Option Nat) (temp : BitVec 10) :
    s₀.Quiet κ (State.txStart s k resv temp).1 := by
  unfold State.txStart
  grind (gen := 30) (ematch := 30) only [← State.Quiet.raise, ← State.Quiet.release, ← State.Quiet.txGo, ← State.Quiet.txRefuse, ← State.Quiet.mk']

theorem State.Quiet.txLesser {κ : Standing} {s₀ s : State} (hQ : s₀.Quiet κ s) (k : Nat) (gives : Bool) (temp : BitVec 10) :
    s₀.Quiet κ (State.txLesser s k gives temp).1 := by
  unfold State.txLesser
  grind (gen := 30) (ematch := 30) only [← State.Quiet.txRefuse, ← State.Quiet.txStart]

theorem State.Quiet.turnBack {κ : Standing} {s₀ s : State} (hQ : s₀.Quiet κ s) :
    s₀.Quiet κ (State.turnBack s) := by
  unfold State.turnBack
  grind (gen := 30) (ematch := 30) only [← State.Quiet.ask, ← State.Quiet.modRadio, ← State.Quiet.paStart, ← State.Quiet.rfeGo, ← State.Quiet.withdraw, ← State.Quiet.mk']

theorem State.Quiet.txAbandon {κ : Standing} {s₀ s : State} (hQ : s₀.Quiet κ s) (code : Nat) :
    s₀.Quiet κ (State.txAbandon s code) := by
  unfold State.txAbandon
  grind (gen := 30) (ematch := 30) only [← State.Quiet.put, ← State.Quiet.turnBack, ← State.Quiet.txDrop]

theorem State.Quiet.rampGo {κ : Standing} {s₀ s : State} (hQ : s₀.Quiet κ s) (x : TxRun) (n : Nat) :
    s₀.Quiet κ (State.rampGo s x n) := by
  unfold State.rampGo
  grind (gen := 30) (ematch := 30) only [← State.Quiet.modRadio, ← State.Quiet.put, ← State.Quiet.mk']

theorem State.Quiet.modChord {κ : Standing} {s₀ s : State} (hQ : s₀.Quiet κ s) (f : Chord → Chord) :
    s₀.Quiet κ (State.modChord s f) := by
  unfold State.modChord
  grind (gen := 30) (ematch := 30) only [← State.Quiet.mk']

theorem State.Quiet.tokenCheck {κ : Standing} {s₀ s : State} (hQ : s₀.Quiet κ s) :
    s₀.Quiet κ (State.tokenCheck s) := by
  unfold State.tokenCheck
  grind (gen := 30) (ematch := 30) only [← State.Quiet.put, ← State.Quiet.report]

theorem State.Quiet.tokenTake {κ : Standing} {s₀ s : State} (hQ : s₀.Quiet κ s) (dir : Nat) :
    s₀.Quiet κ (State.tokenTake s dir) := by
  unfold State.tokenTake
  grind (gen := 30) (ematch := 30) only [← State.Quiet.modChord, ← State.Quiet.tokenCheck, ← State.Quiet.mk']

theorem State.Quiet.tokenGive {κ : Standing} {s₀ s : State} (hQ : s₀.Quiet κ s) (dir : Nat) :
    s₀.Quiet κ (State.tokenGive s dir) := by
  unfold State.tokenGive
  grind (gen := 30) (ematch := 30) only [← State.Quiet.modChord, ← State.Quiet.tokenCheck, ← State.Quiet.mk']

theorem State.Quiet.chordTable {κ : Standing} {s₀ s : State} (hQ : s₀.Quiet κ s) :
    s₀.Quiet κ (State.chordTable s) := by
  unfold State.chordTable
  grind (gen := 30) (ematch := 30) only [← State.Quiet.modChord, ← State.Quiet.raise, ← State.Quiet.tokenCheck, ← State.Quiet.foldl, ← State.Quiet.mk']

theorem State.Quiet.txForget {κ : Standing} {s₀ s : State} (hQ : s₀.Quiet κ s) :
    s₀.Quiet κ (State.txForget s) := by
  unfold State.txForget
  grind (gen := 30) (ematch := 30) only [← State.Quiet.mk']

theorem State.Quiet.loopPass {κ : Standing} {s₀ s : State} (hQ : s₀.Quiet κ s) (b : BayRun) :
    s₀.Quiet κ (State.loopPass s b) := by
  unfold State.loopPass
  grind (gen := 30) (ematch := 30) only [← State.Quiet.modChord, ← State.Quiet.put, ← State.Quiet.raise, ← State.Quiet.mk']

theorem State.Quiet.loopFail {κ : Standing} {s₀ s : State} (hQ : s₀.Quiet κ s) :
    s₀.Quiet κ (State.loopFail s) := by
  unfold State.loopFail
  grind (gen := 30) (ematch := 30) only [← State.Quiet.bump, ← State.Quiet.modChord, ← State.Quiet.put, ← State.Quiet.raise, ← State.Quiet.mk']

theorem State.Quiet.bayClose {κ : Standing} {s₀ s : State} (hQ : s₀.Quiet κ s) (b : BayRun) :
    s₀.Quiet κ (State.bayClose s b) := by
  unfold State.bayClose
  grind (gen := 30) (ematch := 30) only [← State.Quiet.bump, ← State.Quiet.loopFail, ← State.Quiet.loopPass, ← State.Quiet.modChord, ← State.Quiet.put, ← State.Quiet.raise, ← State.Quiet.tokenGive, ← State.Quiet.txForget, ← State.Quiet.mk']

theorem State.Quiet.chordEnd {κ : Standing} {s₀ s : State} (hQ : s₀.Quiet κ s) :
    s₀.Quiet κ (State.chordEnd s) := by
  unfold State.chordEnd
  grind (gen := 30) (ematch := 30) only [← State.Quiet.bayClose, ← State.Quiet.modChord, ← State.Quiet.put, ← State.Quiet.tokenGive, ← State.Quiet.foldl, ← State.Quiet.mk']

theorem State.Quiet.slotLeave {κ : Standing} {s₀ s : State} (hQ : s₀.Quiet κ s) :
    s₀.Quiet κ (State.slotLeave s) := by
  unfold State.slotLeave
  grind (gen := 30) (ematch := 30) only [← State.Quiet.chordEnd, ← State.Quiet.modChord, ← State.Quiet.mk']

theorem State.Quiet.chordGrant {κ : Standing} {s₀ s : State} (hQ : s₀.Quiet κ s) :
    s₀.Quiet κ (State.chordGrant s) := by
  unfold State.chordGrant
  grind (gen := 30) (ematch := 30) only [← State.Quiet.modChord, ← State.Quiet.put, ← State.Quiet.tokenTake, ← State.Quiet.foldl, ← State.Quiet.mk']

theorem State.Quiet.txCtl {κ : Standing} {s₀ s : State} (hQ : s₀.Quiet κ s) (k : Nat) (v : W20) :
    s₀.Quiet κ (State.txCtl s k v) := by
  unfold State.txCtl
  grind (gen := 30) (ematch := 30) only [← State.Quiet.put, ← State.Quiet.raise, ← State.Quiet.setRg]

theorem State.Quiet.txReg {κ : Standing} {s₀ s : State} (hQ : s₀.Quiet κ s) (k : Nat) (a : Nat) (v : W20) (refuse : Field) :
    s₀.Quiet κ (State.txReg s k a v refuse) := by
  unfold State.txReg
  grind (gen := 30) (ematch := 30) only [← State.Quiet.raise, ← State.Quiet.setRg]

theorem State.Quiet.txSyncHi {κ : Standing} {s₀ s : State} (hQ : s₀.Quiet κ s) (v : W20) :
    s₀.Quiet κ (State.txSyncHi s v) := by
  unfold State.txSyncHi
  grind (gen := 30) (ematch := 30) only [← State.Quiet.raise, ← State.Quiet.setRg]

theorem State.Quiet.modSched {κ : Standing} {s₀ s : State} (hQ : s₀.Quiet κ s) (f : Sched → Sched) :
    s₀.Quiet κ (State.modSched s f) := by
  unfold State.modSched
  grind (gen := 30) (ematch := 30) only [← State.Quiet.mk']

theorem State.Quiet.tables {κ : Standing} {s₀ s : State} (hQ : s₀.Quiet κ s) :
    s₀.Quiet κ (State.tables s) := by
  unfold State.tables
  grind (gen := 30) (ematch := 30) only [← State.Quiet.chordTable, ← State.Quiet.modSched, ← State.Quiet.foldl, ← State.Quiet.mk']

theorem State.Quiet.activate {κ : Standing} {s₀ s : State} (hQ : s₀.Quiet κ s) :
    s₀.Quiet κ (State.activate s) := by
  unfold State.activate
  grind (gen := 30) (ematch := 30) only [← State.Quiet.tables, ← State.Quiet.mk']

theorem State.Quiet.normalise {κ : Standing} {s₀ s : State} (hQ : s₀.Quiet κ s) :
    s₀.Quiet κ (State.normalise s).1 := by
  unfold State.normalise
  grind (gen := 30) (ematch := 30) only [← State.Quiet.modSched, ← State.Quiet.mk']

theorem State.Quiet.modRelay {κ : Standing} {s₀ s : State} (hQ : s₀.Quiet κ s) (buf : Nat) (f : Relay → Relay) :
    s₀.Quiet κ (State.modRelay s buf f) := by
  unfold State.modRelay
  grind (gen := 30) (ematch := 30) only [← State.Quiet.mk']

theorem State.Quiet.relayLoad {κ : Standing} {s₀ s : State} (hQ : s₀.Quiet κ s) :
    s₀.Quiet κ (State.relayLoad s) := by
  unfold State.relayLoad
  grind (gen := 30) (ematch := 30) only [← State.Quiet.modRelay, ← State.Quiet.put, ← State.Quiet.raise, ← State.Quiet.setRg, ← State.Quiet.mk']

theorem State.Quiet.slotBegin {κ : Standing} {s₀ s : State} (hQ : s₀.Quiet κ s) :
    s₀.Quiet κ (State.slotBegin s) := by
  unfold State.slotBegin
  grind (gen := 30) (ematch := 30) only [← State.Quiet.chordGrant, ← State.Quiet.raise, ← State.Quiet.relayLoad]

theorem State.Quiet.slotLenWrite {κ : Standing} {s₀ s : State} (hQ : s₀.Quiet κ s) (v : W20) :
    s₀.Quiet κ (State.slotLenWrite s v) := by
  unfold State.slotLenWrite
  grind (gen := 30) (ematch := 30) only [← State.Quiet.raise, ← State.Quiet.setRg]

theorem State.Quiet.syncOfsWrite {κ : Standing} {s₀ s : State} (hQ : s₀.Quiet κ s) (v : W20) :
    s₀.Quiet κ (State.syncOfsWrite s v) := by
  unfold State.syncOfsWrite
  grind (gen := 30) (ematch := 30) only [← State.Quiet.raise, ← State.Quiet.setRg]

theorem State.Quiet.schAt {κ : Standing} {s₀ s : State} (hQ : s₀.Quiet κ s) (asn : W40) (start : W40) :
    s₀.Quiet κ (State.schAt s asn start) := by
  unfold State.schAt
  grind (gen := 30) (ematch := 30) only [← State.Quiet.modSched, ← State.Quiet.normalise, ← State.Quiet.slotLeave, ← State.Quiet.tables, ← State.Quiet.mk']

theorem State.Quiet.schLoad {κ : Standing} {s₀ s : State} (hQ : s₀.Quiet κ s) :
    s₀.Quiet κ (State.schLoad s) := by
  unfold State.schLoad
  grind (gen := 30) (ematch := 30) only [← State.Quiet.schAt]

theorem State.Quiet.schRun {κ : Standing} {s₀ s : State} (hQ : s₀.Quiet κ s) (run : Bool) :
    s₀.Quiet κ (State.schRun s run) := by
  unfold State.schRun
  grind (gen := 30) (ematch := 30) only [← State.Quiet.chordEnd, ← State.Quiet.normalise, ← State.Quiet.put]

theorem State.Quiet.schCtl {κ : Standing} {s₀ s : State} (hQ : s₀.Quiet κ s) (v : W20) :
    s₀.Quiet κ (State.schCtl s v) := by
  unfold State.schCtl
  grind (gen := 30) (ematch := 30) only [← State.Quiet.modSched, ← State.Quiet.put, ← State.Quiet.schRun, ← State.Quiet.mk']

theorem State.Quiet.asnSnapshot {κ : Standing} {s₀ s : State} (hQ : s₀.Quiet κ s) :
    s₀.Quiet κ (State.asnSnapshot s) := by
  unfold State.asnSnapshot
  grind (gen := 30) (ematch := 30) only [← State.Quiet.set40]

theorem State.Quiet.hopWrite {κ : Standing} {s₀ s : State} (hQ : s₀.Quiet κ s) (k : Nat) (v : W20) :
    s₀.Quiet κ (State.hopWrite s k v) := by
  unfold State.hopWrite
  grind (gen := 30) (ematch := 30) only [← State.Quiet.put, ← State.Quiet.raise, ← State.Quiet.foldl]

theorem State.Quiet.hopLenWrite {κ : Standing} {s₀ s : State} (hQ : s₀.Quiet κ s) (v : W20) :
    s₀.Quiet κ (State.hopLenWrite s v) := by
  unfold State.hopLenWrite
  grind (gen := 30) (ematch := 30) only [← State.Quiet.put, ← State.Quiet.raise]

theorem State.Quiet.nbRead {κ : Standing} {s₀ s : State} (hQ : s₀.Quiet κ s) (i : Nat) :
    s₀.Quiet κ (State.nbRead s i).2 := by
  unfold State.nbRead
  grind (gen := 30) (ematch := 30) only [← State.Quiet.ramRead, ← State.Quiet.mk']

theorem State.Quiet.nbWrite {κ : Standing} {s₀ s : State} (hQ : s₀.Quiet κ s) (hm : κ.mem = false) (i : Nat) (r : NbRec) :
    s₀.Quiet κ (State.nbWrite s i r) := by
  unfold State.nbWrite
  grind (gen := 30) (ematch := 30) only [← State.Quiet.modSched, ← State.Quiet.ramWrite, ← State.Quiet.mk']

theorem State.Quiet.sweepNow {κ : Standing} {s₀ s : State} (hQ : s₀.Quiet κ s) (hm : κ.mem = false) (d : Int) :
    s₀.Quiet κ (State.sweepNow s d) := by
  unfold State.sweepNow
  grind (gen := 30) (ematch := 30) only [← State.Quiet.nbRead, ← State.Quiet.nbWrite, ← State.Quiet.set40, ← State.Quiet.foldl, ← State.Quiet.mk']

theorem State.Quiet.sweepGo {κ : Standing} {s₀ s : State} (hQ : s₀.Quiet κ s) (hm : κ.mem = false) (d : Int) :
    s₀.Quiet κ (State.sweepGo s d) := by
  unfold State.sweepGo
  grind (gen := 30) (ematch := 30) only [← State.Quiet.modSched, ← State.Quiet.put, ← State.Quiet.sweepNow, ← State.Quiet.mk']

theorem State.Quiet.meshMove {κ : Standing} {s₀ s : State} (hQ : s₀.Quiet κ s) (d : Int) :
    s₀.Quiet κ (State.meshMove s d) := by
  unfold State.meshMove
  grind (gen := 30) (ematch := 30) only [← State.Quiet.put, ← State.Quiet.mk']

theorem State.Quiet.markPassed {κ : Standing} {s₀ s : State} (hQ : s₀.Quiet κ s) (hc : κ.cores = false) (old : W40) :
    s₀.Quiet κ (State.markPassed s old) := by
  exact hQ.withCores hc _

theorem State.Quiet.meshStep {κ : Standing} {s₀ s : State} (hQ : s₀.Quiet κ s) (hm : κ.mem = false) (hc : κ.cores = false) (d : Int) :
    s₀.Quiet κ (State.meshStep s d) := by
  unfold State.meshStep
  grind (gen := 30) (ematch := 30) only [← State.Quiet.activate, ← State.Quiet.markPassed, ← State.Quiet.meshMove, ← State.Quiet.normalise, ← State.Quiet.raise, ← State.Quiet.slotBegin, ← State.Quiet.slotLeave, ← State.Quiet.sweepGo]

theorem State.Quiet.sampleApply {κ : Standing} {s₀ s : State} (hQ : s₀.Quiet κ s) (hm : κ.mem = false) (x : Sample) :
    s₀.Quiet κ (State.sampleApply s x) := by
  have hbegun : s₀.Quiet κ (match x.ann with | some (n, _) => s.put (KC_INFO_VALID n) 0 | none => s) := by
    split
    · exact hQ.put _ _
    · exact hQ
  unfold State.sampleApply
  extract_lets u
  have hu : s₀.Quiet κ u := by
    unfold u
    split
    · exact hQ.put _ _
    · exact hQ
  clear_value u
  clear hbegun
  split
  · exact hu
  · next i _ =>
    have hread := hu.nbRead i
    generalize u.nbRead i = p at *
    obtain ⟨r, v⟩ := p
    dsimp only at hread ⊢
    have hre : ∀ r', s₀.Quiet κ (((v.nbWrite i r').bump NBT_CNT1_RESYNCS).raise SCH_FLAGS_RESYNC) := fun r' =>
      ((hread.nbWrite hm i r').bump _).raise _
    have htaken : ∀ r' f, s₀.Quiet κ (((v.nbWrite i r').bump NBT_CNT0_ACCEPTED).modSched f) := fun r' f =>
      ((hread.nbWrite hm i r').bump _).modSched f
    refine State.Quiet.ite hread (State.Quiet.ite (State.Quiet.ite (hre _) hread) (State.Quiet.ite ?_ (State.Quiet.ite (hre _) (hread.bump _))))
    exact State.Quiet.ite ((htaken _ _).modSched _) (htaken _ _)

theorem State.Quiet.sampleOffer {κ : Standing} {s₀ s : State} (hQ : s₀.Quiet κ s) (addr : BitVec 32) (p : Nat) (r : SyncRec) :
    s₀.Quiet κ (State.sampleOffer s addr p r) := by
  unfold State.sampleOffer
  grind (gen := 30) (ematch := 30) only [← State.Quiet.modSched, ← State.Quiet.mk']

theorem State.Quiet.sampleRun {κ : Standing} {s₀ s : State} (hQ : s₀.Quiet κ s) (hm : κ.mem = false) :
    s₀.Quiet κ (State.sampleRun s) := by
  unfold State.sampleRun
  grind (gen := 30) (ematch := 30) only [← State.Quiet.modSched, ← State.Quiet.sampleApply, ← State.Quiet.foldl, ← State.Quiet.mk']

theorem State.Quiet.acqLoad {κ : Standing} {s₀ s : State} (hQ : s₀.Quiet κ s) :
    s₀.Quiet κ (State.acqLoad s) := by
  unfold State.acqLoad
  grind (gen := 30) (ematch := 30) only [← State.Quiet.modChord, ← State.Quiet.put, ← State.Quiet.schAt, ← State.Quiet.mk']

theorem State.Quiet.schedTick {κ : Standing} {s₀ s : State} (hQ : s₀.Quiet κ s) (hm : κ.mem = false) (hc : κ.cores = false) :
    s₀.Quiet κ (State.schedTick s) := by
  unfold State.schedTick
  grind (gen := 30) (ematch := 30) only [← State.Quiet.acqLoad, ← State.Quiet.meshStep, ← State.Quiet.modSched, ← State.Quiet.raise, ← State.Quiet.sampleRun, ← State.Quiet.schLoad, ← State.Quiet.foldl, ← State.Quiet.mk']

theorem State.Quiet.planWrite {κ : Standing} {s₀ s : State} (hQ : s₀.Quiet κ s) (v : W20) :
    s₀.Quiet κ (State.planWrite s v) := by
  unfold State.planWrite
  grind (gen := 30) (ematch := 30) only [← State.Quiet.put, ← State.Quiet.raise, ← State.Quiet.stallSync, ← State.Quiet.mk']

theorem State.Quiet.lanesShow {κ : Standing} {s₀ s : State} (hQ : s₀.Quiet κ s) :
    s₀.Quiet κ (State.lanesShow s) := by
  unfold State.lanesShow
  grind (gen := 30) (ematch := 30) only [← State.Quiet.put]

theorem State.Quiet.mapWrite {κ : Standing} {s₀ s : State} (hQ : s₀.Quiet κ s) (k : Nat) (v : W20) :
    s₀.Quiet κ (State.mapWrite s k v) := by
  unfold State.mapWrite
  grind (gen := 30) (ematch := 30) only [← State.Quiet.lanesShow, ← State.Quiet.put, ← State.Quiet.raise, ← State.Quiet.foldl]

theorem State.Quiet.stlCfgPut {κ : Standing} {s₀ s : State} (hQ : s₀.Quiet κ s) (p : Nat) (v : W20) :
    s₀.Quiet κ (State.stlCfgPut p v s) := by
  unfold State.stlCfgPut
  grind (gen := 30) (ematch := 30) only [← State.Quiet.raise, ← State.Quiet.setRg, ← State.Quiet.stallFollow]

theorem State.Quiet.stlCfg {κ : Standing} {s₀ s : State} (hQ : s₀.Quiet κ s) (p : Nat) (v : W20) :
    s₀.Quiet κ (State.stlCfg s p v) := by
  unfold State.stlCfg
  grind (gen := 30) (ematch := 30) only [← State.Quiet.enWritten, ← State.Quiet.stlCfgPut]

theorem State.Quiet.stlSyncHi {κ : Standing} {s₀ s : State} (hQ : s₀.Quiet κ s) (p : Nat) (v : W20) :
    s₀.Quiet κ (State.stlSyncHi s p v) := by
  unfold State.stlSyncHi
  grind (gen := 30) (ematch := 30) only [← State.Quiet.raise, ← State.Quiet.setRg]

theorem State.Quiet.enWrite {κ : Standing} {s₀ s : State} (hQ : s₀.Quiet κ s) (r : Nat) (v : W20) :
    s₀.Quiet κ (State.enWrite s r v) := by
  unfold State.enWrite
  grind (gen := 30) (ematch := 30) only [← State.Quiet.enWritten, ← State.Quiet.stallEn, ← State.Quiet.foldl]

theorem State.Quiet.syncWait {κ : Standing} {s₀ s : State} (hQ : s₀.Quiet κ s) (p : Nat) (onB : Bool) (meanA : BitVec 10) (meanB : BitVec 10) :
    s₀.Quiet κ (State.syncWait s p onB meanA meanB) := by
  unfold State.syncWait
  grind (gen := 30) (ematch := 30) only [← State.Quiet.modStall, ← State.Quiet.put, ← State.Quiet.mk']

theorem State.Quiet.packetStart {κ : Standing} {s₀ s : State} (hQ : s₀.Quiet κ s) (p : Nat) (q : Fin 2) (i : Nat) (took : Bool) (r : SyncRec) :
    s₀.Quiet κ (State.packetStart s p q i took r) := by
  unfold State.packetStart
  grind (gen := 30) (ematch := 30) only [← State.Quiet.modStall, ← State.Quiet.put, ← State.Quiet.mk']

theorem State.Quiet.noDesc {κ : Standing} {s₀ s : State} (hQ : s₀.Quiet κ s) (p : Nat) (r : SyncRec) :
    s₀.Quiet κ (State.noDesc s p r) := by
  unfold State.noDesc
  grind (gen := 30) (ematch := 30) only [← State.Quiet.modStall, ← State.Quiet.put, ← State.Quiet.stallLast, ← State.Quiet.mk']

theorem State.Quiet.reseat {κ : Standing} {s₀ s : State} (hQ : s₀.Quiet κ s) (p : Nat) (i : Nat) :
    s₀.Quiet κ (State.reseat s p i) := by
  unfold State.reseat
  grind (gen := 30) (ematch := 30) only [← State.Quiet.put, ← State.Quiet.setFrame, ← State.Quiet.mk']

theorem State.Quiet.takeFor {κ : Standing} {s₀ s : State} (hQ : s₀.Quiet κ s) (p : Nat) (q : Fin 2) {r} (e : State.takeFor s p q = some r) :
    s₀.Quiet κ r.2 := by
  unfold State.takeFor at e
  dsimp only at e
  have reseats : ∀ (l : List (Nat × Nat)) {u : State}, s₀.Quiet κ u →
      s₀.Quiet κ (l.foldl (fun t e => t.reseat e.1 e.2) u) := by
    intro l u hu
    exact State.Quiet.foldl hu fun t x ht => ht.reseat x.1 x.2
  split at e
  · exact hQ.descTake q e
  · cases e
    exact reseats _ (hQ.descTake q ‹_›)
  · cases e
    refine State.Quiet.noDesc ?_ _ _
    split
    · exact (reseats _ hQ).frameWithdraw _
    · exact reseats _ hQ


theorem State.Quiet.packetNew {κ : Standing} {s₀ s : State} (hQ : s₀.Quiet κ s) (p : Nat) (r : SyncRec) :
    s₀.Quiet κ (State.packetNew s p r) := by
  unfold State.packetNew
  dsimp only
  split
  · have ht := hQ.takeFor p _ ‹_›
    exact ht.packetStart ..
  · exact hQ.noDesc p r


theorem State.Quiet.packetCapture {κ : Standing} {s₀ s : State} (hQ : s₀.Quiet κ s) (p : Nat) (r : SyncRec) :
    s₀.Quiet κ (State.packetCapture s p r) := by
  unfold State.packetCapture
  grind (gen := 30) (ematch := 30) only [← State.Quiet.frameWithdraw, ← State.Quiet.packetStart, ← State.Quiet.stallLast, ← State.Quiet.mk']

theorem State.Quiet.snapshot {κ : Standing} {s₀ s : State} (hQ : s₀.Quiet κ s) (p : Nat) :
    s₀.Quiet κ (State.snapshot s p) := by
  unfold State.snapshot
  grind (gen := 30) (ematch := 30) only [← State.Quiet.set40, ← State.Quiet.setRg]

theorem State.Quiet.modYard {κ : Standing} {s₀ s : State} (hQ : s₀.Quiet κ s) (f : Yard → Yard) :
    s₀.Quiet κ (State.modYard s f) := by
  unfold State.modYard
  grind (gen := 30) (ematch := 30) only [← State.Quiet.mk']

theorem State.Quiet.modYch {κ : Standing} {s₀ s : State} (hQ : s₀.Quiet κ s) (c : Nat) (f : YChan → YChan) :
    s₀.Quiet κ (State.modYch s c f) := by
  unfold State.modYch
  grind (gen := 30) (ematch := 30) only [← State.Quiet.modYard, ← State.Quiet.mk']

theorem State.Quiet.setYardByte {κ : Standing} {s₀ s : State} (hQ : s₀.Quiet κ s) (k : Nat) (b : Byte) :
    s₀.Quiet κ (State.setYardByte s k b) := by
  unfold State.setYardByte
  grind (gen := 30) (ematch := 30) only [← State.Quiet.modYard, ← State.Quiet.mk']

theorem State.Quiet.yardLose {κ : Standing} {s₀ s : State} (hQ : s₀.Quiet κ s) :
    s₀.Quiet κ (State.yardLose s) := by
  unfold State.yardLose
  grind (gen := 30) (ematch := 30) only [← State.Quiet.modYard, ← State.Quiet.modYch, ← State.Quiet.mk']

theorem State.Quiet.setYardChk {κ : Standing} {s₀ s : State} (hQ : s₀.Quiet κ s) (k : Nat) (c : Chk) :
    s₀.Quiet κ (State.setYardChk s k c) := by
  unfold State.setYardChk
  grind (gen := 30) (ematch := 30) only [← State.Quiet.modYard, ← State.Quiet.mk']

theorem State.Quiet.yardErr {κ : Standing} {s₀ s : State} (hQ : s₀.Quiet κ s) (c : Nat) (a : Nat) (ue : Bool) :
    s₀.Quiet κ (State.yardErr s c a ue) := by
  unfold State.yardErr
  grind (gen := 30) (ematch := 30) only [← State.Quiet.setRg]

theorem State.Quiet.yardFix {κ : Standing} {s₀ s : State} (hQ : s₀.Quiet κ s) (c : Nat) (a : Nat) :
    s₀.Quiet κ (State.yardFix s c a) := by
  unfold State.yardFix
  grind (gen := 30) (ematch := 30) only [← State.Quiet.bump, ← State.Quiet.raise, ← State.Quiet.report, ← State.Quiet.setYardChk, ← State.Quiet.yardErr]

theorem State.Quiet.yardCe {κ : Standing} {s₀ s : State} (hQ : s₀.Quiet κ s) (c : Nat) (a : Nat) :
    s₀.Quiet κ (State.yardCe s c a) := by
  unfold State.yardCe
  grind (gen := 30) (ematch := 30) only [← State.Quiet.trackYard, ← State.Quiet.yardFix]

theorem State.Quiet.yardUe {κ : Standing} {s₀ s : State} (hQ : s₀.Quiet κ s) (c : Nat) (a : Nat) :
    s₀.Quiet κ (State.yardUe s c a) := by
  unfold State.yardUe
  grind (gen := 30) (ematch := 30) only [← State.Quiet.bump, ← State.Quiet.candidate, ← State.Quiet.raise, ← State.Quiet.report, ← State.Quiet.yardErr]

theorem State.Quiet.yardFound {κ : Standing} {s₀ s : State} (hQ : s₀.Quiet κ s) (ws : List (Nat × Nat)) (ue : Option (Nat × Nat)) :
    s₀.Quiet κ (State.yardFound s ws ue) := by
  unfold State.yardFound
  have fixed : ∀ (l : List (Nat × Nat)), s₀.Quiet κ (l.foldl (fun t w => State.yardFix t w.1 w.2) s) := fun l =>
    State.Quiet.foldl hQ fun t w ht => ht.yardFix w.1 w.2
  refine State.Quiet.foldl ?_ fun t w ht => ht.trackYard _
  cases ue with
  | none => exact fixed _
  | some w => exact (fixed _).yardUe w.1 w.2

theorem State.Quiet.yardLoad {κ : Standing} {s₀ s : State} (hQ : s₀.Quiet κ s) (q : Nat) (len : Nat) :
    s₀.Quiet κ (State.yardLoad s q len).2 := by
  unfold State.yardLoad
  grind (gen := 30) (ematch := 30) only [← State.Quiet.yardFound]

theorem State.Quiet.yardStore {κ : Standing} {s₀ s : State} (hQ : s₀.Quiet κ s) (q : Nat) (bs : List Byte) :
    s₀.Quiet κ (State.yardStore s q bs) := by
  unfold State.yardStore
  grind (gen := 30) (ematch := 30) only [← State.Quiet.candidate, ← State.Quiet.setYardByte, ← State.Quiet.setYardChk, ← State.Quiet.yardFound, ← State.Quiet.foldl]

theorem State.Quiet.setYst {κ : Standing} {s₀ s : State} (hQ : s₀.Quiet κ s) (n : Nat) :
    s₀.Quiet κ (State.setYst s n) := by
  unfold State.setYst
  grind (gen := 30) (ematch := 30) only [← State.Quiet.put]

theorem State.Quiet.yardPerform {κ : Standing} {s₀ s : State} (hQ : s₀.Quiet κ s) (r : YReq) :
    s₀.Quiet κ (State.yardPerform s r).1 := by
  obtain ⟨f, hf⟩ : ∃ f, f = @State.yardPerform := ⟨_, rfl⟩
  generalize hr : State.yardPerform s r = p
  rw [← hf] at hr
  delta State.yardPerform at hf
  subst hf
  beta_reduce at hr
  split at hr
  next c a _ =>
  split at hr
  next row bank x _ =>
  have ht := hQ.modYch c (fun y => { y with openRow := tabSet (fun _ => none) y.openRow bank (some row) })
  dsimp only at hr
  generalize s.modYch _ _ = t at *
  have hl := ht.yardLoad r.q r.len
  generalize t.yardLoad r.q r.len = z at *
  split at hr
  · subst hr
    exact ht.yardStore ..
  · obtain ⟨_ | d, u⟩ := z <;> subst hr <;> exact hl

theorem State.Quiet.yardEnqueue {κ : Standing} {s₀ s : State} (hQ : s₀.Quiet κ s) (port : Nat) (cls : Nat) (q : Nat) (len : Nat) (wr : Bool) (data : List Byte) :
    s₀.Quiet κ (State.yardEnqueue s port cls q len wr data).2.2 := by
  unfold State.yardEnqueue
  grind (gen := 30) (ematch := 30) only [← State.Quiet.modYard, ← State.Quiet.modYch, ← State.Quiet.raise, ← State.Quiet.mk']

theorem State.Quiet.yardIssue {κ : Standing} {s₀ s : State} (hQ : s₀.Quiet κ s) (c : Nat) (r : YReq) :
    s₀.Quiet κ (State.yardIssue s c r) := by
  have hp := hQ.yardPerform r
  obtain ⟨f, hf⟩ : ∃ f, f = @State.yardIssue := ⟨_, rfl⟩
  generalize hr : State.yardIssue s c r = p
  rw [← hf] at hr
  delta State.yardIssue at hf
  subst hf
  beta_reduce at hr
  generalize s.yardPerform r = z at *
  obtain ⟨t, r'⟩ := z
  subst hr
  dsimp only
  exact hp.modYch c _

theorem State.Quiet.yardIssueAll {κ : Standing} {s₀ s : State} (hQ : s₀.Quiet κ s) (c : Nat) :
    s₀.Quiet κ (State.yardIssueAll s c) := by
  unfold State.yardIssueAll
  grind (gen := 30) (ematch := 30) only [← State.Quiet.yardIssue, ← State.Quiet.foldl]

theorem State.Quiet.yardDrain {κ : Standing} {s₀ s : State} (hQ : s₀.Quiet κ s) (c : Nat) :
    s₀.Quiet κ (State.yardDrain s c).1 := by
  unfold State.yardDrain
  grind (gen := 30) (ematch := 30) only [← State.Quiet.modYch, ← State.Quiet.yardIssueAll, ← State.Quiet.mk']

theorem State.Quiet.yardFailAll {κ : Standing} {s₀ s : State} (hQ : s₀.Quiet κ s) :
    s₀.Quiet κ (State.yardFailAll s).1 := by
  unfold State.yardFailAll
  grind (gen := 30) (ematch := 30) only [← State.Quiet.modYch, ← State.Quiet.mk']

theorem State.Quiet.yardPause {κ : Standing} {s₀ s : State} (hQ : s₀.Quiet κ s) (c : Nat) :
    s₀.Quiet κ (State.yardPause s c) := by
  unfold State.yardPause
  grind (gen := 30) (ematch := 30) only [← State.Quiet.modYch, ← State.Quiet.mk']

theorem State.Quiet.yardPauseAsk {κ : Standing} {s₀ s : State} (hQ : s₀.Quiet κ s) (c : Nat) :
    s₀.Quiet κ (State.yardPauseAsk s c) := by
  unfold State.yardPauseAsk
  grind (gen := 30) (ematch := 30) only [← State.Quiet.modYard, ← State.Quiet.yardPause, ← State.Quiet.mk']

theorem State.Quiet.yardPauseNext {κ : Standing} {s₀ s : State} (hQ : s₀.Quiet κ s) :
    s₀.Quiet κ (State.yardPauseNext s) := by
  unfold State.yardPauseNext
  grind (gen := 30) (ematch := 30) only [← State.Quiet.modYard, ← State.Quiet.yardPause, ← State.Quiet.mk']

theorem State.Quiet.refreshIssue {κ : Standing} {s₀ s : State} (hQ : s₀.Quiet κ s) (c : Nat) :
    s₀.Quiet κ (State.refreshIssue s c) := by
  unfold State.refreshIssue
  grind (gen := 30) (ematch := 30) only [← State.Quiet.modYch, ← State.Quiet.mk']

theorem State.Quiet.yardPauseEnd {κ : Standing} {s₀ s : State} (hQ : s₀.Quiet κ s) (c : Nat) :
    s₀.Quiet κ (State.yardPauseEnd s c) := by
  unfold State.yardPauseEnd
  grind (gen := 30) (ematch := 30) only [← State.Quiet.bump, ← State.Quiet.modYch, ← State.Quiet.yardPauseNext, ← State.Quiet.mk']

theorem State.Quiet.yardRetire1 {κ : Standing} {s₀ s : State} (hQ : s₀.Quiet κ s) (c : Nat) :
    s₀.Quiet κ (State.yardRetire1 s c) := by
  unfold State.yardRetire1
  grind (gen := 30) (ematch := 30) only [← State.Quiet.modYch, ← State.Quiet.report, ← State.Quiet.yardPauseNext, ← State.Quiet.mk']

theorem State.Quiet.yardRetireN {κ : Standing} {s₀ s : State} (hQ : s₀.Quiet κ s) (c n : Nat) :
    s₀.Quiet κ (State.yardRetireN c n s) := by
  induction n generalizing s with
  | zero => exact hQ
  | succ n ih => exact ih (hQ.yardRetire1 c)


theorem State.Quiet.yardClear {κ : Standing} {s₀ s : State} (hQ : s₀.Quiet κ s) (c : Nat) :
    s₀.Quiet κ (State.yardClear s c) := by
  unfold State.yardClear
  grind (gen := 30) (ematch := 30) only [← State.Quiet.refreshIssue, ← State.Quiet.yardPauseEnd, ← State.Quiet.yardRetireN]

theorem State.Quiet.yardServeTo {κ : Standing} {s₀ s : State} (hQ : s₀.Quiet κ s) (c id n : Nat) :
    s₀.Quiet κ (State.yardServeTo c id n s) := by
  induction n generalizing s with
  | zero => exact hQ
  | succ n ih =>
    unfold State.yardServeTo
    split
    · exact hQ
    · have hnext := fun u (hu : s₀.Quiet κ u) => @ih u hu
      grind only [← State.Quiet.yardIssue, ← State.Quiet.yardRetire1]


theorem State.Quiet.yardAccess {κ : Standing} {s₀ s : State} (hQ : s₀.Quiet κ s) (port : Nat) (q : Nat) (len : Nat) (wr : Bool) (data : List Byte) :
    s₀.Quiet κ (State.yardAccess s port q len wr data).1 := by
  obtain ⟨f, hf⟩ : ∃ f, f = @State.yardAccess := ⟨_, rfl⟩
  generalize hr : State.yardAccess s port q len wr data = p
  rw [← hf] at hr
  delta State.yardAccess at hf
  subst hf
  beta_reduce at hr
  extract_lets c at hr
  clear_value c
  have he := (hQ.yardClear c).yardEnqueue port (s.yardArea q) q len wr data
  generalize (s.yardClear c).yardEnqueue port (s.yardArea q) q len wr data = e at *
  obtain ⟨id, x, t⟩ := e
  dsimp only at hr he
  have h1 := he.yardServeTo c id ((t.ych c).queue.length + 1)
  generalize State.yardServeTo c id ((t.ych c).queue.length + 1) t = u at *
  have h2 := h1.yardRetireN c (u.ych c).cmds.length
  generalize State.yardRetireN c (u.ych c).cmds.length u = v at *
  subst hr
  dsimp only
  exact h2.modYch c _

theorem State.Quiet.yardNowRead {κ : Standing} {s₀ s : State} (hQ : s₀.Quiet κ s) (port : Nat) (q : Nat) (len : Nat) :
    s₀.Quiet κ (State.yardNowRead s port q len).2 := by
  have ha := hQ.yardAccess port q len false []
  obtain ⟨f, hf⟩ : ∃ f, f = @State.yardNowRead := ⟨_, rfl⟩
  generalize hr : State.yardNowRead s port q len = p
  rw [← hf] at hr
  delta State.yardNowRead at hf
  subst hf
  beta_reduce at hr
  generalize s.yardAccess port q len false [] = z at *
  obtain ⟨t, _ | r⟩ := z <;> subst hr <;> exact ha

theorem State.Quiet.yardNowWrite {κ : Standing} {s₀ s : State} (hQ : s₀.Quiet κ s) (port : Nat) (q : Nat) (bs : List Byte) :
    s₀.Quiet κ (State.yardNowWrite s port q bs) := by
  have hdef : State.yardNowWrite = fun s port q bs => (State.yardAccess s port q bs.length true bs).1 := rfl
  rw [hdef]
  exact hQ.yardAccess ..


theorem State.Quiet.yardReady {κ : Standing} {s₀ s : State} (hQ : s₀.Quiet κ s) :
    s₀.Quiet κ (State.yardReady s) := by
  unfold State.yardReady
  grind (gen := 30) (ematch := 30) only [← State.Quiet.modYch, ← State.Quiet.setYst, ← State.Quiet.foldl, ← State.Quiet.mk']

theorem State.Quiet.yardCfgWrite {κ : Standing} {s₀ s : State} (hQ : s₀.Quiet κ s) (a : Nat) (v : W20) :
    s₀.Quiet κ (State.yardCfgWrite s a v) := by
  unfold State.yardCfgWrite
  dsimp only
  refine State.Quiet.ite ?_ (hQ.raise _)
  split
  · exact hQ.setRg ..
  · exact hQ


theorem State.Quiet.yardTurnOn {κ : Standing} {s₀ s : State} (hQ : s₀.Quiet κ s) :
    s₀.Quiet κ (State.yardTurnOn s) := by
  unfold State.yardTurnOn
  grind (gen := 30) (ematch := 30) only [← State.Quiet.ask, ← State.Quiet.put, ← State.Quiet.raise]

theorem State.Quiet.yardKeys {κ : Standing} {s₀ s : State} (hQ : s₀.Quiet κ s) :
    s₀.Quiet κ (State.yardKeys s).2 := by
  unfold State.yardKeys
  grind (gen := 30) (ematch := 30) only [← State.Quiet.fresh]

theorem State.Quiet.yardGranted {κ : Standing} {s₀ s : State} (hQ : s₀.Quiet κ s) :
    s₀.Quiet κ (State.yardGranted s) := by
  unfold State.yardGranted
  grind (gen := 30) (ematch := 30) only [← State.Quiet.modYard, ← State.Quiet.put, ← State.Quiet.setYst, ← State.Quiet.yardKeys, ← State.Quiet.yardLose, ← State.Quiet.yardPauseAsk, ← State.Quiet.foldl, ← State.Quiet.mk']

theorem State.Quiet.yardReturn {κ : Standing} {s₀ s : State} (hQ : s₀.Quiet κ s) :
    s₀.Quiet κ (State.yardReturn s) := by
  unfold State.yardReturn
  grind (gen := 30) (ematch := 30) only [← State.Quiet.drop, ← State.Quiet.modYard, ← State.Quiet.put, ← State.Quiet.mk']

theorem State.Quiet.yardTurnOff {κ : Standing} {s₀ s : State} (hQ : s₀.Quiet κ s) :
    s₀.Quiet κ (State.yardTurnOff s).1 := by
  unfold State.yardTurnOff
  grind (gen := 30) (ematch := 30) only [← State.Quiet.modYard, ← State.Quiet.modYch, ← State.Quiet.put, ← State.Quiet.setYst, ← State.Quiet.yardDrain, ← State.Quiet.yardLose, ← State.Quiet.yardReturn, ← State.Quiet.mk']

theorem State.Quiet.yardFail {κ : Standing} {s₀ s : State} (hQ : s₀.Quiet κ s) :
    s₀.Quiet κ (State.yardFail s).1 := by
  unfold State.yardFail
  grind (gen := 30) (ematch := 30) only [← State.Quiet.put, ← State.Quiet.setYst, ← State.Quiet.yardFailAll, ← State.Quiet.yardReturn]

theorem State.Quiet.yardLostSupply {κ : Standing} {s₀ s : State} (hQ : s₀.Quiet κ s) :
    s₀.Quiet κ (State.yardLostSupply s).1 := by
  unfold State.yardLostSupply
  grind (gen := 30) (ematch := 30) only [← State.Quiet.put, ← State.Quiet.raise, ← State.Quiet.report, ← State.Quiet.yardFail]

theorem State.Quiet.yardRest {κ : Standing} {s₀ s : State} (hQ : s₀.Quiet κ s) :
    s₀.Quiet κ (State.yardRest s).1 := by
  unfold State.yardRest
  grind (gen := 30) (ematch := 30) only [← State.Quiet.put, ← State.Quiet.setYst, ← State.Quiet.yardDrain, ← State.Quiet.yardReturn]

theorem State.Quiet.yardWake {κ : Standing} {s₀ s : State} (hQ : s₀.Quiet κ s) :
    s₀.Quiet κ (State.yardWake s) := by
  unfold State.yardWake
  grind (gen := 30) (ematch := 30) only [← State.Quiet.ask, ← State.Quiet.put]

theorem State.Quiet.yardWarm {κ : Standing} {s₀ s : State} (hQ : s₀.Quiet κ s) :
    s₀.Quiet κ (State.yardWarm s) := by
  unfold State.yardWarm
  grind (gen := 30) (ematch := 30) only [← State.Quiet.modYard, ← State.Quiet.put, ← State.Quiet.setYst, ← State.Quiet.yardFailAll, ← State.Quiet.mk']

theorem State.Quiet.yardRetrainNow {κ : Standing} {s₀ s : State} (hQ : s₀.Quiet κ s) :
    s₀.Quiet κ (State.yardRetrainNow s) := by
  unfold State.yardRetrainNow
  grind (gen := 30) (ematch := 30) only [← State.Quiet.yardPauseAsk, ← State.Quiet.foldl]

theorem State.Quiet.yardInitNow {κ : Standing} {s₀ s : State} (hQ : s₀.Quiet κ s) :
    s₀.Quiet κ (State.yardInitNow s) := by
  unfold State.yardInitNow
  grind (gen := 30) (ematch := 30) only [← State.Quiet.put]

theorem State.Quiet.yardRepair {κ : Standing} {s₀ s : State} (hQ : s₀.Quiet κ s) (v : W20) (noResource : Bool) :
    s₀.Quiet κ (State.yardRepair s v noResource).1 := by
  unfold State.yardRepair
  grind (gen := 30) (ematch := 30) only [← State.Quiet.modYard, ← State.Quiet.put, ← State.Quiet.setRg, ← State.Quiet.yardDrain, ← State.Quiet.mk']

theorem State.Quiet.yardLoseRow {κ : Standing} {s₀ s : State} (hQ : s₀.Quiet κ s) (row : Nat) :
    s₀.Quiet κ (State.yardLoseRow s row) := by
  unfold State.yardLoseRow
  grind (gen := 30) (ematch := 30) only [← State.Quiet.modYard, ← State.Quiet.mk']

theorem State.Quiet.yardLoseChan {κ : Standing} {s₀ s : State} (hQ : s₀.Quiet κ s) (c : Nat) :
    s₀.Quiet κ (State.yardLoseChan s c) := by
  unfold State.yardLoseChan
  grind (gen := 30) (ematch := 30) only [← State.Quiet.modYard, ← State.Quiet.modYch, ← State.Quiet.mk']

theorem State.Quiet.yardTemp {κ : Standing} {s₀ s : State} (hQ : s₀.Quiet κ s) :
    s₀.Quiet κ (State.yardTemp s) := by
  unfold State.yardTemp
  grind (gen := 30) (ematch := 30) only [← State.Quiet.put]

theorem State.Quiet.yardEdge {κ : Standing} {s₀ s : State} (hQ : s₀.Quiet κ s) :
    s₀.Quiet κ (State.yardEdge s) := by
  unfold State.yardEdge
  grind (gen := 30) (ematch := 30) only [← State.Quiet.modYard, ← State.Quiet.yardTemp, ← State.Quiet.mk']

theorem State.Quiet.flashProgram {κ : Standing} {s₀ s : State} (hQ : s₀.Quiet κ s) (hm : κ.mem = false) (f : Nat) (l : List Byte) :
    s₀.Quiet κ (s.flashProgram f l) := by
  induction l generalizing s f with
  | nil => exact hQ
  | cons b l ih =>
    have hset : s₀.Quiet κ { s with flash := tabSet flashDflt s.flash f (s.flashByte f &&& b) } :=
      hQ.written hm (fun hw => ⟨hw.regs, hw.sram, hw.pram, hw.loft, hw.memChk, tabSet_wf _ _ _ _ hw.flash⟩) rfl rfl rfl rfl
    exact ih hset _

theorem State.Quiet.flashErase {κ : Standing} {s₀ s : State} (hQ : s₀.Quiet κ s) (hm : κ.mem = false) (f : Nat) (n : Nat) :
    s₀.Quiet κ (State.flashErase s f n) := by
  exact hQ.written hm (fun hw => ⟨hw.regs, hw.sram, hw.pram, hw.loft, hw.memChk, hw.flash.filter _⟩) rfl rfl rfl rfl

theorem State.Quiet.flashApply {κ : Standing} {s₀ s : State} (hQ : s₀.Quiet κ s) (hm : κ.mem = false) (op : FlashOp) :
    s₀.Quiet κ (State.flashApply s op) := by
  unfold State.flashApply
  grind (gen := 30) (ematch := 30) only [← State.Quiet.flashErase, ← State.Quiet.flashProgram]

theorem State.Quiet.wideRead {κ : Standing} {s₀ s : State} (hQ : s₀.Quiet κ s) (port : Nat) (a : Nat) (n : Nat) :
    s₀.Quiet κ (State.wideRead s port a n).2.2 := by
  have hram := fun c => hQ.ramRead .sram c n
  have hyard := fun q => hQ.yardNowRead port q n
  unfold State.wideRead
  split
  · next c _ =>
    split
    · have h := hram c
      split <;> next he => rw [he] at h; exact h
    · split <;> exact hQ
  · next q _ =>
    split
    · exact hQ
    · have h := hyard q
      split <;> next he => rw [he] at h; exact h
  · split <;> exact hQ
  · exact hQ

theorem State.Quiet.wideWrite {κ : Standing} {s₀ s : State} (hQ : s₀.Quiet κ s) (hm : κ.mem = false) (port : Nat) (a : Nat) (bs : List Byte) :
    s₀.Quiet κ (State.wideWrite s port a bs).2 := by
  unfold State.wideWrite
  grind (gen := 30) (ematch := 30) only [← State.Quiet.ramWrite, ← State.Quiet.yardNowWrite, ← State.Quiet.mk']

theorem State.Quiet.flashErr {κ : Standing} {s₀ s : State} (hQ : s₀.Quiet κ s) (cause : Nat) :
    s₀.Quiet κ (State.flashErr cause s) := by
  unfold State.flashErr
  grind (gen := 30) (ematch := 30) only [← State.Quiet.put, ← State.Quiet.raise]

theorem State.Quiet.flashCmd {κ : Standing} {s₀ s : State} (hQ : s₀.Quiet κ s) (v : W20) :
    s₀.Quiet κ (State.flashCmd s v) := by
  unfold State.flashCmd
  grind (gen := 30) (ematch := 30) only [← State.Quiet.flashErr, ← State.Quiet.put, ← State.Quiet.ramRead, ← State.Quiet.setRg, ← State.Quiet.mk']

theorem State.Quiet.flashTorn {κ : Standing} {s₀ s : State} (hQ : s₀.Quiet κ s) (hm : κ.mem = false) (op : FlashOp) :
    s₀.Quiet κ (State.flashTorn s op) := by
  have h : s₀.Quiet κ { s with free := s.free + op.len } := hQ.mk'
  exact h.written hm (fun hw => ⟨hw.regs, hw.sram, hw.pram, hw.loft, hw.memChk, tabFill_wf _ _ _ hw.flash⟩) rfl rfl rfl rfl

theorem State.Quiet.setRpw {κ : Standing} {s₀ s : State} (hQ : s₀.Quiet κ s) (hm : κ.mem = false) (i : Nat) (r : Replay) :
    s₀.Quiet κ (State.setRpw s i r) := by
  unfold State.setRpw
  grind (gen := 30) (ematch := 30) only [← State.Quiet.ramRead, ← State.Quiet.ramWrite]

theorem State.Quiet.relayEmpty {κ : Standing} {s₀ s : State} (hQ : s₀.Quiet κ s) (r : Relay) :
    s₀.Quiet κ (State.relayEmpty s r) := by
  unfold State.relayEmpty
  grind (gen := 30) (ematch := 30) only [← State.Quiet.put]

theorem State.Quiet.relaysOut {κ : Standing} {s₀ s : State} (hQ : s₀.Quiet κ s) :
    s₀.Quiet κ (State.relaysOut s) := by
  unfold State.relaysOut
  grind (gen := 30) (ematch := 30) only [← State.Quiet.modLink, ← State.Quiet.relayEmpty, ← State.Quiet.foldl, ← State.Quiet.mk']

theorem State.Quiet.foldFail {κ : Standing} {s₀ s : State} (hQ : s₀.Quiet κ s) :
    s₀.Quiet κ (State.foldFail s) := by
  unfold State.foldFail
  grind (gen := 30) (ematch := 30) only [← State.Quiet.modLink, ← State.Quiet.put, ← State.Quiet.raise, ← State.Quiet.relaysOut, ← State.Quiet.report, ← State.Quiet.mk']

theorem State.Quiet.foldRead {κ : Standing} {s₀ s : State} (hQ : s₀.Quiet κ s) (a : Nat) :
    s₀.Quiet κ (State.foldRead s a).2 := by
  unfold State.foldRead
  grind (gen := 30) (ematch := 30) only [← State.Quiet.foldFail, ← State.Quiet.wideRead, ← State.Quiet.mk']

theorem State.Quiet.foldWrite {κ : Standing} {s₀ s : State} (hQ : s₀.Quiet κ s) (hm : κ.mem = false) (a : Nat) (e : FoldEnt) :
    s₀.Quiet κ (State.foldWrite s a e) := by
  unfold State.foldWrite
  grind (gen := 30) (ematch := 30) only [← State.Quiet.foldFail, ← State.Quiet.wideWrite, ← State.Quiet.mk']

theorem State.Quiet.foldMod {κ : Standing} {s₀ s : State} (hQ : s₀.Quiet κ s) (hm : κ.mem = false) (a : Nat) (f : FoldEnt → FoldEnt) :
    s₀.Quiet κ (State.foldMod s a f) := by
  unfold State.foldMod
  grind (gen := 30) (ematch := 30) only [← State.Quiet.foldRead, ← State.Quiet.foldWrite, ← State.Quiet.mk']

theorem State.Quiet.foldLoad {κ : Standing} {s₀ s : State} (hQ : s₀.Quiet κ s) (o : BitVec 32) (q : Nat) :
    s₀.Quiet κ (State.foldLoad s o q).2 := by
  have hstep : ∀ (l : List Nat) (p : Option (List (Nat × FoldEnt)) × State), s₀.Quiet κ p.2 →
      s₀.Quiet κ (l.foldl (fun (r : Option (List (Nat × FoldEnt)) × State) a =>
        match r with
        | (some l, t) => match t.foldRead a with
          | (some e, u) => (some (l ++ [(a, e)]), u)
          | (none, u) => (none, u)
        | (none, t) => (none, t)) p).2 := fun l => by
    induction l with
    | nil => exact fun p hp => hp
    | cons a l ih =>
      intro p hp
      refine ih _ ?_
      obtain ⟨_ | m, t⟩ := p
      · exact hp
      · have h := hp.foldRead a
        dsimp only
        split <;> next he => rw [he] at h; exact h
  unfold State.foldLoad
  split
  · exact hQ
  · exact hstep _ _ hQ

theorem State.Quiet.suppress {κ : Standing} {s₀ s : State} (hQ : s₀.Quiet κ s) (hm : κ.mem = false) (r : Relay) :
    s₀.Quiet κ (State.suppress s r) := by
  unfold State.suppress
  grind (gen := 30) (ematch := 30) only [← State.Quiet.foldMod, ← State.Quiet.linkHi, ← State.Quiet.modLink, ← State.Quiet.relayEmpty, ← State.Quiet.mk']

theorem State.Quiet.foldHeard {κ : Standing} {s₀ s : State} (hQ : s₀.Quiet κ s) (hm : κ.mem = false) (a : Nat) :
    s₀.Quiet κ (State.foldHeard s a) := by
  unfold State.foldHeard
  grind (gen := 30) (ematch := 30) only [← State.Quiet.foldMod, ← State.Quiet.foldRead, ← State.Quiet.suppress, ← State.Quiet.mk']

theorem State.Quiet.floodCopy {κ : Standing} {s₀ s : State} (hQ : s₀.Quiet κ s) (hm : κ.mem = false) (a : Nat) :
    s₀.Quiet κ (State.floodCopy s a) := by
  unfold State.floodCopy
  grind (gen := 30) (ematch := 30) only [← State.Quiet.foldHeard, ← State.Quiet.linkLo]

theorem State.Quiet.macOut {κ : Standing} {s₀ s : State} (hQ : s₀.Quiet κ s) (m : Mac) :
    s₀.Quiet κ (State.macOut s m) := by
  unfold State.macOut
  grind (gen := 30) (ematch := 30) only [← State.Quiet.modLink, ← State.Quiet.mk']

theorem State.Quiet.macComplete {κ : Standing} {s₀ s : State} (hQ : s₀.Quiet κ s) (m : Mac) (status : Nat) (data : List Byte) :
    s₀.Quiet κ (State.macComplete s m status data) := by
  unfold State.macComplete
  grind (gen := 30) (ematch := 30) only [← State.Quiet.complete, ← State.Quiet.completeRec, ← State.Quiet.macOut]

theorem State.Quiet.macFree {κ : Standing} {s₀ s : State} (hQ : s₀.Quiet κ s) (m : Mac) :
    s₀.Quiet κ (State.macFree s m) := by
  unfold State.macFree
  grind (gen := 30) (ematch := 30) only [← State.Quiet.descFree, ← State.Quiet.macOut]

theorem State.Quiet.ackMark {κ : Standing} {s₀ s : State} (hQ : s₀.Quiet κ s) (id : Nat) (st : AckSt) :
    s₀.Quiet κ (State.ackMark s id st) := by
  unfold State.ackMark
  grind (gen := 30) (ematch := 30) only [← State.Quiet.modLink, ← State.Quiet.mk']

theorem State.Quiet.rollCall {κ : Standing} {s₀ s : State} (hQ : s₀.Quiet κ s) (m : Mac) :
    s₀.Quiet κ (State.rollCall s m) := by
  unfold State.rollCall
  grind (gen := 30) (ematch := 30) only [← State.Quiet.modLink, ← State.Quiet.rcAdd, ← State.Quiet.mk']

theorem State.Quiet.macDuplicate {κ : Standing} {s₀ s : State} (hQ : s₀.Quiet κ s) (m : Mac) :
    s₀.Quiet κ (State.macDuplicate s m) := by
  unfold State.macDuplicate
  grind (gen := 30) (ematch := 30) only [← State.Quiet.ackMark, ← State.Quiet.linkHi, ← State.Quiet.raise, ← State.Quiet.rollCall]

theorem State.Quiet.foldInsert {κ : Standing} {s₀ s : State} (hQ : s₀.Quiet κ s) (hm : κ.mem = false) (m : Mac) (l : List (Nat × FoldEnt)) :
    s₀.Quiet κ (State.foldInsert s m l) := by
  unfold State.foldInsert
  grind (gen := 30) (ematch := 30) only [← State.Quiet.foldWrite, ← State.Quiet.fresh, ← State.Quiet.modRelay, ← State.Quiet.raise, ← State.Quiet.mk']

theorem State.Quiet.macAccept {κ : Standing} {s₀ s : State} (hQ : s₀.Quiet κ s) (m : Mac) (auth : Bool) (data : List Byte) :
    s₀.Quiet κ (State.macAccept s m auth data) := by
  unfold State.macAccept
  grind (gen := 30) (ematch := 30) only [← State.Quiet.ackMark, ← State.Quiet.macComplete, ← State.Quiet.macFree, ← State.Quiet.raise, ← State.Quiet.rollCall, ← State.Quiet.sampleOffer]

theorem State.Quiet.macCommit {κ : Standing} {s₀ s : State} (hQ : s₀.Quiet κ s) (hm : κ.mem = false) (m : Mac) (auth : Bool) (data : List Byte) :
    s₀.Quiet κ (State.macCommit s m auth data) := by
  unfold State.macCommit
  grind (gen := 30) (ematch := 30) only [← State.Quiet.ackMark, ← State.Quiet.floodCopy, ← State.Quiet.foldInsert, ← State.Quiet.foldLoad, ← State.Quiet.linkLo, ← State.Quiet.macAccept, ← State.Quiet.macDuplicate, ← State.Quiet.macFree, ← State.Quiet.setRpw, ← State.Quiet.mk']

theorem State.Quiet.ackFrame {κ : Standing} {s₀ s : State} (hQ : s₀.Quiet κ s) (l : List Byte) :
    s₀.Quiet κ (State.ackFrame s l) := by
  unfold State.ackFrame
  grind (gen := 30) (ematch := 30) only [← State.Quiet.linkLo, ← State.Quiet.modLink, ← State.Quiet.put, ← State.Quiet.raise, ← State.Quiet.mk']

theorem State.Quiet.relayTake {κ : Standing} {s₀ s : State} (hQ : s₀.Quiet κ s) (m : Mac) :
    s₀.Quiet κ (State.relayTake s m).2 := by
  unfold State.relayTake
  grind (gen := 30) (ematch := 30) only [← State.Quiet.linkHi, ← State.Quiet.modLink, ← State.Quiet.raise, ← State.Quiet.mk']

theorem State.Quiet.macKeyed {κ : Standing} {s₀ s : State} (hQ : s₀.Quiet κ s) (m : Mac) (miss : Bool) :
    s₀.Quiet κ (State.macKeyed s m miss).2.2 := by
  unfold State.macKeyed
  grind (gen := 30) (ematch := 30) only [← State.Quiet.linkHi, ← State.Quiet.relayTake]

theorem State.Quiet.ackUndraw {κ : Standing} {s₀ s : State} (hQ : s₀.Quiet κ s) (id : Nat) :
    s₀.Quiet κ (State.ackUndraw s id) := by
  unfold State.ackUndraw
  grind (gen := 30) (ematch := 30) only [← State.Quiet.modLink, ← State.Quiet.mk']

end Sys2Proof.Machine
end

section
/-! SUPPORT. What each operation leaves standing, continued: operations 301 to 450 of the model, callees before callers. -/

set_option Elab.async false

namespace Sys2Proof.Machine

theorem State.Quiet.macSteps {κ : Standing} {s₀ s : State} (hQ : s₀.Quiet κ s) (hm : κ.mem = false) (m : Mac) :
    s₀.Quiet κ (State.macSteps s m).2 := by
  unfold State.macSteps
  grind (gen := 30) (ematch := 30) only [← State.Quiet.ackFrame, ← State.Quiet.ackUndraw, ← State.Quiet.floodCopy, ← State.Quiet.foldLoad, ← State.Quiet.linkHi, ← State.Quiet.linkLo, ← State.Quiet.macDuplicate, ← State.Quiet.macKeyed, ← State.Quiet.mk']

theorem State.Quiet.ackDraw {κ : Standing} {s₀ s : State} (hQ : s₀.Quiet κ s) (m : Mac) (gone : Option Nat) :
    s₀.Quiet κ (State.ackDraw s m gone) := by
  unfold State.ackDraw
  grind (gen := 30) (ematch := 30) only [← State.Quiet.modLink, ← State.Quiet.mk']

theorem State.Quiet.macJudge {κ : Standing} {s₀ s : State} (hQ : s₀.Quiet κ s) (hm : κ.mem = false) (f : Frame) (head : List Byte) :
    s₀.Quiet κ (State.macJudge s f head) := by
  unfold State.macJudge
  grind (gen := 30) (ematch := 30) only [← State.Quiet.ackDraw, ← State.Quiet.ackMark, ← State.Quiet.macSteps, ← State.Quiet.modLink, ← State.Quiet.mk']

theorem State.Quiet.setMac {κ : Standing} {s₀ s : State} (hQ : s₀.Quiet κ s) (m : Mac) :
    s₀.Quiet κ (State.setMac s m) := by
  unfold State.setMac
  grind (gen := 30) (ematch := 30) only [← State.Quiet.modLink, ← State.Quiet.mk']

theorem State.Quiet.macRelease {κ : Standing} {s₀ s : State} (hQ : s₀.Quiet κ s) (hm : κ.mem = false) (id : Nat) (data : List Byte) :
    s₀.Quiet κ (State.macRelease s id data) := by
  unfold State.macRelease
  grind (gen := 30) (ematch := 30) only [← State.Quiet.dmaWrite, ← State.Quiet.macCommit, ← State.Quiet.macComplete, ← State.Quiet.macFree, ← State.Quiet.setMac, ← State.Quiet.mk']

theorem State.Quiet.macFail {κ : Standing} {s₀ s : State} (hQ : s₀.Quiet κ s) (id : Nat) (status : Option Nat) :
    s₀.Quiet κ (State.macFail s id status) := by
  unfold State.macFail
  grind (gen := 30) (ematch := 30) only [← State.Quiet.ackMark, ← State.Quiet.macComplete, ← State.Quiet.macFree, ← State.Quiet.mk']

theorem State.Quiet.macSubmit {κ : Standing} {s₀ s : State} (hQ : s₀.Quiet κ s) (id : Nat) :
    s₀.Quiet κ (State.macSubmit s id) := by
  unfold State.macSubmit
  grind (gen := 30) (ematch := 30) only [← State.Quiet.macFail, ← State.Quiet.raise, ← State.Quiet.mk']

theorem State.Quiet.macPlain {κ : Standing} {s₀ s : State} (hQ : s₀.Quiet κ s) (id : Nat) (plain : List Byte) :
    s₀.Quiet κ (State.macPlain s id plain) := by
  unfold State.macPlain
  grind (gen := 30) (ematch := 30) only [← State.Quiet.setMac, ← State.Quiet.mk']

theorem State.Quiet.macOpened {κ : Standing} {s₀ s : State} (hQ : s₀.Quiet κ s) (hm : κ.mem = false) (id : Nat) :
    s₀.Quiet κ (State.macOpened s id) := by
  unfold State.macOpened
  grind (gen := 30) (ematch := 30) only [← State.Quiet.macCommit, ← State.Quiet.mk']

theorem State.Quiet.foldCfg {κ : Standing} {s₀ s : State} (hQ : s₀.Quiet κ s) (hm : κ.mem = false) (v : W20) :
    s₀.Quiet κ (State.foldCfg s v) := by
  have hclear := ((hQ.setRg FOLD_CFG (v &&& 0xA001F)).put FOLD_CFG_BUSY 1).modLink (fun l => { l with foldClr := true })
  unfold State.foldCfg
  dsimp only
  refine State.Quiet.ite (State.Quiet.ite (hQ.raise _) (hQ.setRg _ _)) (State.Quiet.ite (hQ.setRg _ _) (State.Quiet.ite (hQ.raise _) ?_))
  generalize ((s.setRg FOLD_CFG (v &&& 0xA001F)).put FOLD_CFG_BUSY 1).modLink (fun l => { l with foldClr := true }) = t at *
  have h := hclear.wideWrite hm 3 t.foldBase (List.replicate (64 * 2 ^ (v.toNat % 32)) 0)
  split
  · next he => rw [he] at h; exact h
  · next he => rw [he] at h; exact h.foldFail

theorem State.Quiet.relayCfg {κ : Standing} {s₀ s : State} (hQ : s₀.Quiet κ s) (hm : κ.mem = false) (v : W20) :
    s₀.Quiet κ (State.relayCfg s v) := by
  unfold State.relayCfg
  grind (gen := 30) (ematch := 30) only [← State.Quiet.foldMod, ← State.Quiet.raise, ← State.Quiet.relaysOut, ← State.Quiet.setRg, ← State.Quiet.foldl, ← State.Quiet.mk']

theorem State.Quiet.relayPool {κ : Standing} {s₀ s : State} (hQ : s₀.Quiet κ s) (a : Nat) (v : W20) :
    s₀.Quiet κ (State.relayPool s a v) := by
  unfold State.relayPool
  grind (gen := 30) (ematch := 30) only [← State.Quiet.raise, ← State.Quiet.setRg]

theorem State.Quiet.ackLoad {κ : Standing} {s₀ s : State} (hQ : s₀.Quiet κ s) (hm : κ.mem = false) (a : AckRun) {t} (e : State.ackLoad s a = some t) :
    s₀.Quiet κ t := by
  have hbuf : s₀.Quiet κ (if inSram (s.get ACK_BUF_ADDR) 18 then s.ramWrite .sram (s.get ACK_BUF_ADDR) (s.ackBytes a) else s) :=
    State.Quiet.ite (hQ.ramWrite hm _ _ _) hQ
  unfold State.ackLoad at e
  dsimp only at e
  generalize (if inSram (s.get ACK_BUF_ADDR) 18 then s.ramWrite .sram (s.get ACK_BUF_ADDR) (s.ackBytes a) else s) = u at *
  split at e
  · exact Option.some.inj e ▸ (((hbuf.setRg _ _).setRg _ _).setRg _ _).put _ _
  · cases e

theorem State.Quiet.ackCut {κ : Standing} {s₀ s : State} (hQ : s₀.Quiet κ s) (a : AckRun) (code : Nat) :
    s₀.Quiet κ (State.ackCut s a code) := by
  unfold State.ackCut
  grind (gen := 30) (ematch := 30) only [← State.Quiet.ackFail, ← State.Quiet.modLink, ← State.Quiet.put, ← State.Quiet.mk']

theorem State.Quiet.ackFull {κ : Standing} {s₀ s : State} (hQ : s₀.Quiet κ s) (hm : κ.mem = false) (a : AckRun) :
    s₀.Quiet κ (State.ackFull s a) := by
  unfold State.ackFull
  grind (gen := 30) (ematch := 30) only [← State.Quiet.modLink, ← State.Quiet.put, ← State.Quiet.ramWrite, ← State.Quiet.setRpw, ← State.Quiet.mk']

theorem State.Quiet.rcCopy {κ : Standing} {s₀ s : State} (hQ : s₀.Quiet κ s) (addr : W20) :
    s₀.Quiet κ (State.rcCopy s addr) := by
  unfold State.rcCopy
  grind (gen := 30) (ematch := 30) only [← State.Quiet.modLink, ← State.Quiet.put, ← State.Quiet.raise, ← State.Quiet.mk']

theorem State.Quiet.keymapSet {κ : Standing} {s₀ s : State} (hQ : s₀.Quiet κ s) (k : Nat) (v : W20) :
    s₀.Quiet κ (State.keymapSet s k v) := by
  unfold State.keymapSet
  grind (gen := 30) (ematch := 30) only [← State.Quiet.raise, ← State.Quiet.setRg]

theorem State.Quiet.txRead {κ : Standing} {s₀ s : State} (hQ : s₀.Quiet κ s) (x : TxRun) (f : TxFrame) :
    s₀.Quiet κ (State.txRead s x f) := by
  unfold State.txRead
  grind (gen := 30) (ematch := 30) only [← State.Quiet.modFrames, ← State.Quiet.ramRead, ← State.Quiet.txAbandon, ← State.Quiet.mk']

theorem State.Quiet.txFeed {κ : Standing} {s₀ s : State} (hQ : s₀.Quiet κ s) :
    s₀.Quiet κ (State.txFeed s) := by
  unfold State.txFeed
  grind (gen := 30) (ematch := 30) only [← State.Quiet.txRead, ← State.Quiet.mk']

theorem State.Quiet.relaySent {κ : Standing} {s₀ s : State} (hQ : s₀.Quiet κ s) (hm : κ.mem = false) (k : Nat) :
    s₀.Quiet κ (State.relaySent s k) := by
  unfold State.relaySent
  grind (gen := 30) (ematch := 30) only [← State.Quiet.foldMod, ← State.Quiet.linkLo, ← State.Quiet.modLink, ← State.Quiet.mk']

theorem State.Quiet.waitOpen {κ : Standing} {s₀ s : State} (hQ : s₀.Quiet κ s) (k : Nat) :
    s₀.Quiet κ (State.waitOpen s k) := by
  unfold State.waitOpen
  grind (gen := 30) (ematch := 30) only [← State.Quiet.modLink, ← State.Quiet.put, ← State.Quiet.mk']

theorem State.Quiet.txSent {κ : Standing} {s₀ s : State} (hQ : s₀.Quiet κ s) (k : Nat) :
    s₀.Quiet κ (State.txSent s k) := by
  unfold State.txSent
  grind (gen := 30) (ematch := 30) only [← State.Quiet.modFrames, ← State.Quiet.mk']

theorem State.Quiet.txDone {κ : Standing} {s₀ s : State} (hQ : s₀.Quiet κ s) (hm : κ.mem = false) (k : Nat) :
    s₀.Quiet κ (State.txDone s k) := by
  unfold State.txDone
  grind (gen := 30) (ematch := 30) only [← State.Quiet.linkHi, ← State.Quiet.modLink, ← State.Quiet.put, ← State.Quiet.raise, ← State.Quiet.relaySent, ← State.Quiet.setRg, ← State.Quiet.turnBack, ← State.Quiet.txSent, ← State.Quiet.waitOpen, ← State.Quiet.mk']

theorem State.Quiet.cutDone {κ : Standing} {s₀ s : State} (hQ : s₀.Quiet κ s) (k : Nat) :
    s₀.Quiet κ (State.cutDone s k) := by
  unfold State.cutDone
  grind (gen := 30) (ematch := 30) only [← State.Quiet.modLink, ← State.Quiet.put, ← State.Quiet.setRg, ← State.Quiet.turnBack, ← State.Quiet.txSent, ← State.Quiet.mk']

theorem State.Quiet.freshBytes {κ : Standing} {s₀ s : State} (hQ : s₀.Quiet κ s) (n : Nat) :
    s₀.Quiet κ (State.freshBytes n s).2 := by
  induction n generalizing s with
  | zero => exact hQ
  | succ n ih => exact ih hQ.fresh


theorem State.Quiet.frameEnd {κ : Standing} {s₀ s : State} (hQ : s₀.Quiet κ s) (id : Nat) :
    s₀.Quiet κ (State.frameEnd s id) := by
  unfold State.frameEnd
  grind (gen := 30) (ematch := 30) only [← State.Quiet.modFrames, ← State.Quiet.mk']

theorem State.Quiet.frameFailed {κ : Standing} {s₀ s : State} (hQ : s₀.Quiet κ s) (f : Frame) (st : Nat) (data : List Byte) :
    s₀.Quiet κ (State.frameFailed s f st data) := by
  unfold State.frameFailed
  grind (gen := 30) (ematch := 30) only [← State.Quiet.ackMark, ← State.Quiet.complete, ← State.Quiet.descFree, ← State.Quiet.frameEnd, ← State.Quiet.macDrop, ← State.Quiet.raise]

theorem State.Quiet.frameGood {κ : Standing} {s₀ s : State} (hQ : s₀.Quiet κ s) (hm : κ.mem = false) (f : Frame) (data : List Byte) :
    s₀.Quiet κ (State.frameGood s f data) := by
  unfold State.frameGood
  grind (gen := 30) (ematch := 30) only [← State.Quiet.complete, ← State.Quiet.frameEnd, ← State.Quiet.macDrop, ← State.Quiet.macRelease]

theorem State.Quiet.frameSettle {κ : Standing} {s₀ s : State} (hQ : s₀.Quiet κ s) (hm : κ.mem = false) (id : Nat) :
    s₀.Quiet κ (State.frameSettle s id) := by
  unfold State.frameSettle
  grind (gen := 30) (ematch := 30) only [← State.Quiet.frameFailed, ← State.Quiet.frameGood, ← State.Quiet.mk']

theorem State.Quiet.blockDone {κ : Standing} {s₀ s : State} (hQ : s₀.Quiet κ s) (hm : κ.mem = false) (id : Nat) (b : Nat) (r : BlkRes) :
    s₀.Quiet κ (State.blockDone s id b r) := by
  unfold State.blockDone
  grind (gen := 30) (ematch := 30) only [← State.Quiet.frameSettle, ← State.Quiet.macJudge, ← State.Quiet.setFrame, ← State.Quiet.mk']

theorem State.Quiet.blockLate {κ : Standing} {s₀ s : State} (hQ : s₀.Quiet κ s) (hm : κ.mem = false) (id : Nat) (b : Nat) (bytes : List Byte) :
    s₀.Quiet κ (State.blockLate s id b bytes) := by
  unfold State.blockLate
  grind (gen := 30) (ematch := 30) only [← State.Quiet.blockDone, ← State.Quiet.bump, ← State.Quiet.raise]

theorem State.Quiet.slotNeeded {κ : Standing} {s₀ s : State} (hQ : s₀.Quiet κ s) (hm : κ.mem = false) (p : Nat) :
    s₀.Quiet κ (State.slotNeeded s p) := by
  unfold State.slotNeeded
  grind (gen := 30) (ematch := 30) only [← State.Quiet.blockLate, ← State.Quiet.decIdle, ← State.Quiet.freshBytes, ← State.Quiet.modFrames, ← State.Quiet.mk']

theorem State.Quiet.headerBad {κ : Standing} {s₀ s : State} (hQ : s₀.Quiet κ s) (p : Nat) :
    s₀.Quiet κ (State.headerBad s p) := by
  unfold State.headerBad
  grind (gen := 30) (ematch := 30) only [← State.Quiet.bump, ← State.Quiet.put, ← State.Quiet.raise, ← State.Quiet.stallAbandon]

theorem State.Quiet.headerOk {κ : Standing} {s₀ s : State} (hQ : s₀.Quiet κ s) (hm : κ.mem = false) (f : Frame) (hdr : W20) (len : Nat) (rate : Nat) (bs : Nat) (mode : Nat) :
    s₀.Quiet κ (State.headerOk s f hdr len rate bs mode) := by
  unfold State.headerOk
  grind (gen := 30) (ematch := 30) only [← State.Quiet.setFrame, ← State.Quiet.slotNeeded, ← State.Quiet.mk']

theorem State.Quiet.decisions {κ : Standing} {s₀ s : State} (hQ : s₀.Quiet κ s) (soft : List Int) :
    s₀.Quiet κ (State.decisions s soft).2 := by
  unfold State.decisions
  grind (gen := 30) (ematch := 30) only [← State.Quiet.fresh]

theorem State.Quiet.decodeBits {κ : Standing} {s₀ s : State} (hQ : s₀.Quiet κ s) (f : Frame) (j : Job) (hard : List Bool) :
    s₀.Quiet κ (State.decodeBits s f j hard).2 := by
  unfold State.decodeBits
  grind (gen := 30) (ematch := 30) only [← State.Quiet.decisions]

theorem State.Quiet.decodeEnd {κ : Standing} {s₀ s : State} (hQ : s₀.Quiet κ s) (hm : κ.mem = false) (f : Frame) (j : Job) (iters : Nat) (bits : List Bool) :
    s₀.Quiet κ (State.decodeEnd s f j iters bits) := by
  unfold State.decodeEnd
  grind (gen := 30) (ematch := 30) only [← State.Quiet.blockDone, ← State.Quiet.blockLate, ← State.Quiet.bump, ← State.Quiet.decIdle, ← State.Quiet.modFrames, ← State.Quiet.raise, ← State.Quiet.setRg, ← State.Quiet.mk']

theorem State.Quiet.decHold {κ : Standing} {s₀ s : State} (hQ : s₀.Quiet κ s) (hold : Bool) :
    s₀.Quiet κ (State.decHold s hold) := by
  unfold State.decHold
  grind (gen := 30) (ematch := 30) only [← State.Quiet.ask, ← State.Quiet.decIdle, ← State.Quiet.put]

theorem State.Quiet.decCtl {κ : Standing} {s₀ s : State} (hQ : s₀.Quiet κ s) (v : W20) :
    s₀.Quiet κ (State.decCtl s v) := by
  unfold State.decCtl
  grind (gen := 30) (ematch := 30) only [← State.Quiet.decHold, ← State.Quiet.setRg]

theorem State.Quiet.sunBody {κ : Standing} {s₀ s : State} (hQ : s₀.Quiet κ s) (hm : κ.mem = false) (f : Frame) (body : List Bool) :
    s₀.Quiet κ (State.sunBody s f body) := by
  unfold State.sunBody
  grind (gen := 30) (ematch := 30) only [← State.Quiet.bump, ← State.Quiet.frameFailed, ← State.Quiet.frameGood, ← State.Quiet.raise]

theorem State.Quiet.rawBody {κ : Standing} {s₀ s : State} (hQ : s₀.Quiet κ s) (hm : κ.mem = false) (f : Frame) (body : List Bool) :
    s₀.Quiet κ (State.rawBody s f body) := by
  unfold State.rawBody
  grind (gen := 30) (ematch := 30) only [← State.Quiet.blockDone, ← State.Quiet.bump, ← State.Quiet.raise]

theorem State.Quiet.latWrite {κ : Standing} {s₀ s : State} (hQ : s₀.Quiet κ s) (src : Source) (ofs : Nat) (v : W20) :
    s₀.Quiet κ (State.latWrite s src ofs v) := by
  unfold State.latWrite
  dsimp only
  split
  · exact hQ.raise _
  split
  · exact (hQ.put _ _).put _ _
  split
  · exact hQ
  · refine State.Quiet.ite (State.Quiet.ite ?_ ?_) ?_
    · exact (hQ.setRg _ _).settleCells
    · exact (hQ.put _ _).raise _
    · exact (hQ.setRg _ _).latchReqs


theorem State.Quiet.modDma {κ : Standing} {s₀ s : State} (hQ : s₀.Quiet κ s) (f : Dma → Dma) :
    s₀.Quiet κ (State.modDma s f) := by
  unfold State.modDma
  grind (gen := 30) (ematch := 30) only [← State.Quiet.mk']

theorem State.Quiet.setDesc {κ : Standing} {s₀ s : State} (hQ : s₀.Quiet κ s) (n : Nat) (d : Option DmaDesc) :
    s₀.Quiet κ (State.setDesc s n d) := by
  unfold State.setDesc
  grind (gen := 30) (ematch := 30) only [← State.Quiet.modDma, ← State.Quiet.mk']

theorem State.Quiet.credCheck {κ : Standing} {s₀ s : State} (hQ : s₀.Quiet κ s) :
    s₀.Quiet κ (State.credCheck s) := by
  unfold State.credCheck
  grind (gen := 30) (ematch := 30) only [← State.Quiet.put, ← State.Quiet.report]

theorem State.Quiet.modBlk {κ : Standing} {s₀ s : State} (hQ : s₀.Quiet κ s) (q : Fin 5) (f : List Xfer → List Xfer) :
    s₀.Quiet κ (State.modBlk s q f) := by
  unfold State.modBlk
  grind (gen := 30) (ematch := 30) only [← State.Quiet.modDma, ← State.Quiet.mk']

theorem State.Quiet.modCipher {κ : Standing} {s₀ s : State} (hQ : s₀.Quiet κ s) (f : Cipher → Cipher) :
    s₀.Quiet κ (State.modCipher s f) := by
  unfold State.modCipher
  grind (gen := 30) (ematch := 30) only [← State.Quiet.mk']

theorem State.Quiet.cqCheck {κ : Standing} {s₀ s : State} (hQ : s₀.Quiet κ s) :
    s₀.Quiet κ (State.cqCheck s) := by
  unfold State.cqCheck
  grind (gen := 30) (ematch := 30) only [← State.Quiet.put, ← State.Quiet.report]

theorem State.Quiet.halfFree {κ : Standing} {s₀ s : State} (hQ : s₀.Quiet κ s) (h : Nat) :
    s₀.Quiet κ (State.halfFree s h) := by
  unfold State.halfFree
  grind (gen := 30) (ematch := 30) only [← State.Quiet.mk']

theorem State.Quiet.updHears {κ : Standing} {s₀ s : State} (hQ : s₀.Quiet κ s) (d : PieceDec) :
    s₀.Quiet κ (State.updHears s d) := by
  unfold State.updHears
  grind (gen := 30) (ematch := 30) only [← State.Quiet.mk']

theorem State.Quiet.pieceOut {κ : Standing} {s₀ s : State} (hQ : s₀.Quiet κ s) :
    s₀.Quiet κ (State.pieceOut s) := by
  unfold State.pieceOut
  grind (gen := 30) (ematch := 30) only [← State.Quiet.updHears, ← State.Quiet.mk']

theorem State.Quiet.cphBad {κ : Standing} {s₀ s : State} (hQ : s₀.Quiet κ s) (src : Nat) (r : Nat) :
    s₀.Quiet κ (State.cphBad s src r) := by
  unfold State.cphBad
  grind (gen := 30) (ematch := 30) only [← State.Quiet.bump, ← State.Quiet.dmaWrite, ← State.Quiet.macFail, ← State.Quiet.updHears]

theorem State.Quiet.takeLost {κ : Standing} {s₀ s : State} (hQ : s₀.Quiet κ s) (p : Nat) (i : Nat) :
    s₀.Quiet κ (State.takeLost s p i) := by
  unfold State.takeLost
  grind (gen := 30) (ematch := 30) only [← State.Quiet.descFree, ← State.Quiet.frameWithdraw, ← State.Quiet.macFail, ← State.Quiet.put, ← State.Quiet.raise, ← State.Quiet.stallDrop, ← State.Quiet.mk']

theorem State.Quiet.dmaTell {κ : Standing} {s₀ s : State} (hQ : s₀.Quiet κ s) (hm : κ.mem = false) (ended : Bool) (t : XferTag) :
    s₀.Quiet κ (State.dmaTell s ended t) := by
  unfold State.dmaTell
  grind (gen := 30) (ematch := 30) only [← State.Quiet.bump, ← State.Quiet.cphBad, ← State.Quiet.cqCheck, ← State.Quiet.descFree, ← State.Quiet.foldMod, ← State.Quiet.halfFree, ← State.Quiet.linkHi, ← State.Quiet.macFail, ← State.Quiet.modBlk, ← State.Quiet.modChord, ← State.Quiet.modCipher, ← State.Quiet.modLink, ← State.Quiet.raise, ← State.Quiet.takeLost, ← State.Quiet.foldl, ← State.Quiet.mk']

theorem State.Quiet.dmaHalt {κ : Standing} {s₀ s : State} (hQ : s₀.Quiet κ s) (hm : κ.mem = false) :
    s₀.Quiet κ (State.dmaHalt s) := by
  unfold State.dmaHalt
  grind (gen := 30) (ematch := 30) only [← State.Quiet.credCheck, ← State.Quiet.dmaTell, ← State.Quiet.halfFree, ← State.Quiet.modDma, ← State.Quiet.put, ← State.Quiet.foldl, ← State.Quiet.mk']

theorem State.Quiet.dmaStop {κ : Standing} {s₀ s : State} (hQ : s₀.Quiet κ s) (hm : κ.mem = false) (eng : Nat) (cause : Nat) (addr : Nat) (chan : Option Nat) :
    s₀.Quiet κ (State.dmaStop s eng cause addr chan) := by
  unfold State.dmaStop
  grind (gen := 30) (ematch := 30) only [← State.Quiet.dmaHalt, ← State.Quiet.put, ← State.Quiet.raise, ← State.Quiet.report, ← State.Quiet.set40, ← State.Quiet.setRg, ← State.Quiet.mk']

theorem State.Quiet.rangeCheck {κ : Standing} {s₀ s : State} (hQ : s₀.Quiet κ s) (hm : κ.mem = false) (n : Nat) (d : DmaDesc) :
    s₀.Quiet κ (State.rangeCheck s n d) := by
  unfold State.rangeCheck
  grind (gen := 30) (ematch := 30) only [← State.Quiet.dmaStop, ← State.Quiet.mk']

theorem State.Quiet.dmaEnd {κ : Standing} {s₀ s : State} (hQ : s₀.Quiet κ s) (n : Nat) (cause : Nat) :
    s₀.Quiet κ (State.dmaEnd s n cause) := by
  unfold State.dmaEnd
  grind (gen := 30) (ematch := 30) only [← State.Quiet.put, ← State.Quiet.raise, ← State.Quiet.setDesc]

theorem State.Quiet.dmaClose {κ : Standing} {s₀ s : State} (hQ : s₀.Quiet κ s) (hm : κ.mem = false) (n : Nat) (code : Nat) (w0 : W20) :
    s₀.Quiet κ (State.dmaClose s n code w0) := by
  unfold State.dmaClose
  grind (gen := 30) (ematch := 30) only [← State.Quiet.setSramWord]

theorem State.Quiet.dmaForget {κ : Standing} {s₀ s : State} (hQ : s₀.Quiet κ s) (n : Nat) :
    s₀.Quiet κ (State.dmaForget s n) := by
  unfold State.dmaForget
  grind (gen := 30) (ematch := 30) only [← State.Quiet.modDma, ← State.Quiet.mk']

theorem State.Quiet.dmaStart {κ : Standing} {s₀ s : State} (hQ : s₀.Quiet κ s) (n : Nat) :
    s₀.Quiet κ (State.dmaStart s n) := by
  unfold State.dmaStart
  grind (gen := 30) (ematch := 30) only [← State.Quiet.ask, ← State.Quiet.dmaForget, ← State.Quiet.put, ← State.Quiet.setRg]

theorem State.Quiet.dmaAbort {κ : Standing} {s₀ s : State} (hQ : s₀.Quiet κ s) (hm : κ.mem = false) (n : Nat) :
    s₀.Quiet κ (State.dmaAbort s n) := by
  unfold State.dmaAbort
  grind (gen := 30) (ematch := 30) only [← State.Quiet.dmaClose, ← State.Quiet.dmaEnd, ← State.Quiet.setDesc, ← State.Quiet.mk']

theorem State.Quiet.dmaStartWrite {κ : Standing} {s₀ s : State} (hQ : s₀.Quiet κ s) (n : Nat) :
    s₀.Quiet κ (State.dmaStartWrite s n) := by
  unfold State.dmaStartWrite
  grind (gen := 30) (ematch := 30) only [← State.Quiet.dmaStart, ← State.Quiet.writeAction]

theorem State.Quiet.dmaResume {κ : Standing} {s₀ s : State} (hQ : s₀.Quiet κ s) (hm : κ.mem = false) (n : Nat) :
    s₀.Quiet κ (State.dmaResume s n) := by
  unfold State.dmaResume
  grind (gen := 30) (ematch := 30) only [← State.Quiet.ask, ← State.Quiet.dmaForget, ← State.Quiet.put, ← State.Quiet.rangeCheck, ← State.Quiet.setDesc, ← State.Quiet.mk']

theorem State.Quiet.dmaCtl {κ : Standing} {s₀ s : State} (hQ : s₀.Quiet κ s) (hm : κ.mem = false) (n : Nat) (v : W20) :
    s₀.Quiet κ (State.dmaCtl s n v) := by
  unfold State.dmaCtl
  grind (gen := 30) (ematch := 30) only [← State.Quiet.dmaAbort, ← State.Quiet.dmaResume, ← State.Quiet.dmaStartWrite]

theorem State.Quiet.dmaNext {κ : Standing} {s₀ s : State} (hQ : s₀.Quiet κ s) (n : Nat) (v : W20) :
    s₀.Quiet κ (State.dmaNext s n v) := by
  unfold State.dmaNext
  grind (gen := 30) (ematch := 30) only [← State.Quiet.setRg]

theorem State.Quiet.chordSettle {κ : Standing} {s₀ s : State} (hQ : s₀.Quiet κ s) :
    s₀.Quiet κ (State.chordSettle s) := by
  unfold State.chordSettle
  grind (gen := 30) (ematch := 30) only [← State.Quiet.modChord, ← State.Quiet.put, ← State.Quiet.setRg, ← State.Quiet.mk']

theorem State.Quiet.portWant {κ : Standing} {s₀ s : State} (hQ : s₀.Quiet κ s) (h : Nat) (on : Bool) :
    s₀.Quiet κ (State.portWant s h on) := by
  unfold State.portWant
  grind (gen := 30) (ematch := 30) only [← State.Quiet.ask, ← State.Quiet.drop]

theorem State.Quiet.chdCtl {κ : Standing} {s₀ s : State} (hQ : s₀.Quiet κ s) (v : W20) :
    s₀.Quiet κ (State.chdCtl s v) := by
  unfold State.chdCtl
  grind (gen := 30) (ematch := 30) only [← State.Quiet.chordEnd, ← State.Quiet.chordSettle, ← State.Quiet.portWant, ← State.Quiet.raise, ← State.Quiet.setRg]

theorem State.Quiet.chordSleep {κ : Standing} {s₀ s : State} (hQ : s₀.Quiet κ s) :
    s₀.Quiet κ (State.chordSleep s) := by
  unfold State.chordSleep
  grind (gen := 30) (ematch := 30) only [← State.Quiet.chordEnd, ← State.Quiet.modChord, ← State.Quiet.put, ← State.Quiet.setRg, ← State.Quiet.mk']

theorem State.Quiet.chdRing {κ : Standing} {s₀ s : State} (hQ : s₀.Quiet κ s) (a : Nat) (v : W20) :
    s₀.Quiet κ (State.chdRing s a v) := by
  unfold State.chdRing
  grind (gen := 30) (ematch := 30) only [← State.Quiet.raise, ← State.Quiet.setRg]

theorem State.Quiet.chordBusy {κ : Standing} {s₀ s : State} (hQ : s₀.Quiet κ s) :
    s₀.Quiet κ (State.chordBusy s) := by
  unfold State.chordBusy
  grind (gen := 30) (ematch := 30) only [← State.Quiet.modChord, ← State.Quiet.mk']

theorem State.Quiet.chordCutOne {κ : Standing} {s₀ s : State} (hQ : s₀.Quiet κ s) :
    s₀.Quiet κ (State.chordCutOne s) := by
  unfold State.chordCutOne
  grind (gen := 30) (ematch := 30) only [← State.Quiet.bump, ← State.Quiet.raise]

theorem State.Quiet.unrepeat {κ : Standing} {s₀ s : State} (hQ : s₀.Quiet κ s) :
    s₀.Quiet κ (State.unrepeat s) := by
  unfold State.unrepeat
  grind (gen := 30) (ematch := 30) only [← State.Quiet.chordCutOne, ← State.Quiet.modChord, ← State.Quiet.mk']

theorem State.Quiet.drivePins {κ : Standing} {s₀ s : State} (hQ : s₀.Quiet κ s) (ports : Nat) (start : BitVec 48) (syms : List Bool) :
    s₀.Quiet κ (State.drivePins s ports start syms) := by
  unfold State.drivePins
  grind (gen := 30) (ematch := 30) only [← State.Quiet.modChord, ← State.Quiet.mk']

theorem State.Quiet.driveMore {κ : Standing} {s₀ s : State} (hQ : s₀.Quiet κ s) (syms : List Bool) :
    s₀.Quiet κ (State.driveMore s syms) := by
  unfold State.driveMore
  grind (gen := 30) (ematch := 30) only [← State.Quiet.modChord, ← State.Quiet.mk']

theorem State.Quiet.emitTime {κ : Standing} {s₀ s : State} (hQ : s₀.Quiet κ s) (e : Nat) (ports : Nat) (start : BitVec 48) (res : Int) (cum : Nat) (hops : Nat) :
    s₀.Quiet κ (State.emitTime s e ports start res cum hops) := by
  unfold State.emitTime
  grind (gen := 30) (ematch := 30) only [← State.Quiet.drivePins, ← State.Quiet.fresh]

theorem State.Quiet.setBay {κ : Standing} {s₀ s : State} (hQ : s₀.Quiet κ s) (b : BayRun) :
    s₀.Quiet κ (State.setBay s b) := by
  unfold State.setBay
  grind (gen := 30) (ematch := 30) only [← State.Quiet.modChord, ← State.Quiet.mk']

theorem State.Quiet.modBay {κ : Standing} {s₀ s : State} (hQ : s₀.Quiet κ s) (f : BayRun → BayRun) :
    s₀.Quiet κ (State.modBay s f) := by
  unfold State.modBay
  grind (gen := 30) (ematch := 30) only [← State.Quiet.modChord, ← State.Quiet.mk']

theorem State.Quiet.ctxBegin {κ : Standing} {s₀ s : State} (hQ : s₀.Quiet κ s) (k : Nat) (bay : Nat) (ports : Nat) (start : BitVec 48) :
    s₀.Quiet κ (State.ctxBegin s k bay ports start) := by
  unfold State.ctxBegin
  grind (gen := 30) (ematch := 30) only [← State.Quiet.dmaRead, ← State.Quiet.drivePins, ← State.Quiet.modChord, ← State.Quiet.mk']

theorem State.Quiet.probeUse {κ : Standing} {s₀ s : State} (hQ : s₀.Quiet κ s) (probe : Bool) :
    s₀.Quiet κ (State.probeUse s probe) := by
  unfold State.probeUse
  grind (gen := 30) (ematch := 30) only [← State.Quiet.modChord, ← State.Quiet.mk']

theorem State.Quiet.bayDrive {κ : Standing} {s₀ s : State} (hQ : s₀.Quiet κ s) (e : Nat) (k : Nat) :
    s₀.Quiet κ (State.bayDrive s e k) := by
  unfold State.bayDrive
  grind (gen := 30) (ematch := 30) only [← State.Quiet.ctxBegin, ← State.Quiet.probeUse, ← State.Quiet.raise, ← State.Quiet.setBay, ← State.Quiet.unrepeat, ← State.Quiet.mk']

theorem State.Quiet.bayTime {κ : Standing} {s₀ s : State} (hQ : s₀.Quiet κ s) (e : Nat) :
    s₀.Quiet κ (State.bayTime s e) := by
  unfold State.bayTime
  grind (gen := 30) (ematch := 30) only [← State.Quiet.emitTime, ← State.Quiet.probeUse, ← State.Quiet.setBay, ← State.Quiet.unrepeat, ← State.Quiet.mk']

theorem State.Quiet.bayKnock {κ : Standing} {s₀ s : State} (hQ : s₀.Quiet κ s) (e : Nat) :
    s₀.Quiet κ (State.bayKnock s e) := by
  unfold State.bayKnock
  grind (gen := 30) (ematch := 30) only [← State.Quiet.drivePins, ← State.Quiet.setBay, ← State.Quiet.tokenTake, ← State.Quiet.unrepeat, ← State.Quiet.mk']

theorem State.Quiet.burst {κ : Standing} {s₀ s : State} (hQ : s₀.Quiet κ s) (p : Port) (start : BitVec 48) :
    s₀.Quiet κ (State.burst s p start) := by
  unfold State.burst
  grind (gen := 30) (ematch := 30) only [← State.Quiet.drivePins]

theorem State.Quiet.ctxCtl {κ : Standing} {s₀ s : State} (hQ : s₀.Quiet κ s) (k : Nat) (v : W20) :
    s₀.Quiet κ (State.ctxCtl s k v) := by
  unfold State.ctxCtl
  grind (gen := 30) (ematch := 30) only [← State.Quiet.modChord, ← State.Quiet.raise, ← State.Quiet.setRg, ← State.Quiet.mk']

theorem State.Quiet.ctxReg {κ : Standing} {s₀ s : State} (hQ : s₀.Quiet κ s) (k : Nat) (a : Nat) (v : W20) :
    s₀.Quiet κ (State.ctxReg s k a v) := by
  unfold State.ctxReg
  grind (gen := 30) (ematch := 30) only [← State.Quiet.raise, ← State.Quiet.setRg]

theorem State.Quiet.ctxSent {κ : Standing} {s₀ s : State} (hQ : s₀.Quiet κ s) (k : Nat) :
    s₀.Quiet κ (State.ctxSent s k) := by
  unfold State.ctxSent
  grind (gen := 30) (ematch := 30) only [← State.Quiet.driveMore, ← State.Quiet.modChord, ← State.Quiet.put, ← State.Quiet.raise, ← State.Quiet.mk']

theorem State.Quiet.chordSend {κ : Standing} {s₀ s : State} (hQ : s₀.Quiet κ s) (l : List Byte) :
    s₀.Quiet κ (State.chordSend s l) := by
  unfold State.chordSend
  grind (gen := 30) (ematch := 30) only [← State.Quiet.drivePins, ← State.Quiet.fresh, ← State.Quiet.modChord, ← State.Quiet.mk']

theorem State.Quiet.chordNobuf {κ : Standing} {s₀ s : State} (hQ : s₀.Quiet κ s) :
    s₀.Quiet κ (State.chordNobuf s) := by
  unfold State.chordNobuf
  grind (gen := 30) (ematch := 30) only [← State.Quiet.bump, ← State.Quiet.raise]

theorem State.Quiet.capture {κ : Standing} {s₀ s : State} (hQ : s₀.Quiet κ s) (p : Port) (e : Nat) (f : ChordFrame) :
    s₀.Quiet κ (State.capture s p e f) := by
  unfold State.capture
  grind (gen := 30) (ematch := 30) only [← State.Quiet.chordNobuf, ← State.Quiet.dmaWrite, ← State.Quiet.sramWord, ← State.Quiet.mk']

theorem State.Quiet.captured {κ : Standing} {s₀ s : State} (hQ : s₀.Quiet κ s) (j : Nat) :
    s₀.Quiet κ (State.captured s j) := by
  unfold State.captured
  grind (gen := 30) (ematch := 30) only [← State.Quiet.put, ← State.Quiet.raise]

theorem State.Quiet.timeTake {κ : Standing} {s₀ s : State} (hQ : s₀.Quiet κ s) (p : Port) (f : ChordFrame) (r : Nat) (c : Nat) (force : Bool) :
    s₀.Quiet κ (State.timeTake s p f r c force) := by
  unfold State.timeTake
  grind (gen := 30) (ematch := 30) only [← State.Quiet.modBay, ← State.Quiet.modChord, ← State.Quiet.modSched, ← State.Quiet.put, ← State.Quiet.raise, ← State.Quiet.setRg, ← State.Quiet.mk']

theorem State.Quiet.timeFrame {κ : Standing} {s₀ s : State} (hQ : s₀.Quiet κ s) (p : Port) (f : ChordFrame) :
    s₀.Quiet κ (State.timeFrame s p f) := by
  unfold State.timeFrame
  grind (gen := 30) (ematch := 30) only [← State.Quiet.raise, ← State.Quiet.timeTake]

theorem State.Quiet.timeAcquire {κ : Standing} {s₀ s : State} (hQ : s₀.Quiet κ s) (p : Port) (f : ChordFrame) :
    s₀.Quiet κ (State.timeAcquire s p f) := by
  unfold State.timeAcquire
  grind (gen := 30) (ematch := 30) only [← State.Quiet.modChord, ← State.Quiet.raise, ← State.Quiet.timeTake, ← State.Quiet.mk']

theorem State.Quiet.loopSee {κ : Standing} {s₀ s : State} (hQ : s₀.Quiet κ s) (p : Port) (f : ChordFrame) :
    s₀.Quiet κ (State.loopSee s p f) := by
  unfold State.loopSee
  grind (gen := 30) (ematch := 30) only [← State.Quiet.modBay, ← State.Quiet.mk']

theorem State.Quiet.chordFrame {κ : Standing} {s₀ s : State} (hQ : s₀.Quiet κ s) (p : Port) (f : ChordFrame) :
    s₀.Quiet κ (State.chordFrame s p f) := by
  unfold State.chordFrame
  grind (gen := 30) (ematch := 30) only [← State.Quiet.capture, ← State.Quiet.fresh, ← State.Quiet.loopSee, ← State.Quiet.timeAcquire, ← State.Quiet.timeFrame, ← State.Quiet.mk']

theorem State.Quiet.actClear {κ : Standing} {s₀ s : State} (hQ : s₀.Quiet κ s) (hc : κ.cores = false) (c : CoreId) :
    s₀.Quiet κ (State.actClear s c) := by
  unfold State.actClear
  grind (gen := 30) (ematch := 30) only [← State.Quiet.modCore, ← State.Quiet.release, ← State.Quiet.withdraw, ← State.Quiet.mk']

theorem State.Quiet.coreOn {κ : Standing} {s₀ s : State} (hQ : s₀.Quiet κ s) (hc : κ.cores = false) (c : CoreId) :
    s₀.Quiet κ (State.coreOn s c) := by
  unfold State.coreOn
  grind (gen := 30) (ematch := 30) only [← State.Quiet.ask, ← State.Quiet.put, ← State.Quiet.setCore, ← State.Quiet.mk']

theorem State.Quiet.coreOff {κ : Standing} {s₀ s : State} (hQ : s₀.Quiet κ s) (hc : κ.cores = false) (c : CoreId) :
    s₀.Quiet κ (State.coreOff s c) := by
  unfold State.coreOff
  grind (gen := 30) (ematch := 30) only [← State.Quiet.drop, ← State.Quiet.modCore, ← State.Quiet.put, ← State.Quiet.withdrawTake, ← State.Quiet.mk']

theorem State.Quiet.coreReturns {κ : Standing} {s₀ s : State} (hQ : s₀.Quiet κ s) (hc : κ.cores = false) :
    s₀.Quiet κ (State.coreReturns s) := by
  unfold State.coreReturns
  grind (gen := 30) (ematch := 30) only [← State.Quiet.drop, ← State.Quiet.modCore, ← State.Quiet.foldl, ← State.Quiet.mk']

theorem State.Quiet.coreResetNow {κ : Standing} {s₀ s : State} (hQ : s₀.Quiet κ s) (hc : κ.cores = false) (c : CoreId) :
    s₀.Quiet κ (State.coreResetNow s c) := by
  unfold State.coreResetNow
  grind (gen := 30) (ematch := 30) only [← State.Quiet.actClear, ← State.Quiet.coreOn, ← State.Quiet.drop, ← State.Quiet.latchReqs, ← State.Quiet.modCore, ← State.Quiet.withdrawTake, ← State.Quiet.mk']

theorem State.Quiet.coreReset {κ : Standing} {s₀ s : State} (hQ : s₀.Quiet κ s) (hc : κ.cores = false) (c : CoreId) :
    s₀.Quiet κ (State.coreReset s c) := by
  unfold State.coreReset
  grind (gen := 30) (ematch := 30) only [← State.Quiet.coreResetNow, ← State.Quiet.modCore, ← State.Quiet.mk']

theorem State.Quiet.ccRun {κ : Standing} {s₀ s : State} (hQ : s₀.Quiet κ s) (hc : κ.cores = false) (c : CoreId) (v : W20) :
    s₀.Quiet κ (State.ccRun s c v) := by
  unfold State.ccRun
  grind (gen := 30) (ematch := 30) only [← State.Quiet.coreOff, ← State.Quiet.coreOn, ← State.Quiet.coreReset, ← State.Quiet.put]

theorem State.Quiet.loftStep {κ : Standing} {s₀ s : State} (hQ : s₀.Quiet κ s) (c : CoreId) :
    s₀.Quiet κ (State.loftStep s c) := by
  unfold State.loftStep
  grind (gen := 30) (ematch := 30) only [← State.Quiet.put]

theorem State.Quiet.loftPut {κ : Standing} {s₀ s : State} (hQ : s₀.Quiet κ s) (hm : κ.mem = false) (c : CoreId) (v : W20) :
    s₀.Quiet κ (State.loftPut s c v) := by
  unfold State.loftPut
  grind (gen := 30) (ematch := 30) only [← State.Quiet.loftStep, ← State.Quiet.put, ← State.Quiet.setLoft]

theorem State.Quiet.loftGet {κ : Standing} {s₀ s : State} (hQ : s₀.Quiet κ s) (c : CoreId) :
    s₀.Quiet κ (State.loftGet s c).2 := by
  unfold State.loftGet
  grind (gen := 30) (ematch := 30) only [← State.Quiet.fresh, ← State.Quiet.loftRead, ← State.Quiet.loftStep, ← State.Quiet.mk']

theorem State.Quiet.cphWork {κ : Standing} {s₀ s : State} (hQ : s₀.Quiet κ s) :
    s₀.Quiet κ (State.cphWork s) := by
  unfold State.cphWork
  grind (gen := 30) (ematch := 30) only [← State.Quiet.ask, ← State.Quiet.charge, ← State.Quiet.modCipher, ← State.Quiet.mk']

theorem State.Quiet.slotUse {κ : Standing} {s₀ s : State} (hQ : s₀.Quiet κ s) (k : Nat) :
    s₀.Quiet κ (State.slotUse s k) := by
  unfold State.slotUse
  grind (gen := 30) (ematch := 30) only [← State.Quiet.put, ← State.Quiet.raise]

theorem State.Quiet.slotFill {κ : Standing} {s₀ s : State} (hQ : s₀.Quiet κ s) (r : TrRun) :
    s₀.Quiet κ (State.slotFill s r) := by
  unfold State.slotFill
  grind (gen := 30) (ematch := 30) only [← State.Quiet.modCipher, ← State.Quiet.put, ← State.Quiet.mk']

theorem State.Quiet.slotErase {κ : Standing} {s₀ s : State} (hQ : s₀.Quiet κ s) (k : Nat) :
    s₀.Quiet κ (State.slotErase s k) := by
  unfold State.slotErase
  grind (gen := 30) (ematch := 30) only [← State.Quiet.modCipher, ← State.Quiet.setRg, ← State.Quiet.mk']

theorem State.Quiet.slotsClear {κ : Standing} {s₀ s : State} (hQ : s₀.Quiet κ s) :
    s₀.Quiet κ (State.slotsClear s) := by
  unfold State.slotsClear
  grind (gen := 30) (ematch := 30) only [← State.Quiet.slotErase, ← State.Quiet.foldl]

theorem State.Quiet.trGenerate {κ : Standing} {s₀ s : State} (hQ : s₀.Quiet κ s) (slot : Nat) :
    s₀.Quiet κ (State.trGenerate s slot).2 := by
  unfold State.trGenerate
  grind (gen := 30) (ematch := 30) only [← State.Quiet.fresh]

theorem State.Quiet.trImportEcdh {κ : Standing} {s₀ s : State} (hQ : s₀.Quiet κ s) (slot : Nat) :
    s₀.Quiet κ (State.trImportEcdh s slot).2 := by
  unfold State.trImportEcdh
  grind (gen := 30) (ematch := 30) only [← State.Quiet.ramRead, ← State.Quiet.mk']

theorem State.Quiet.trImportKek {κ : Standing} {s₀ s : State} (hQ : s₀.Quiet κ s) (slot : Nat) :
    s₀.Quiet κ (State.trImportKek s slot).2 := by
  unfold State.trImportKek
  grind (gen := 30) (ematch := 30) only [← State.Quiet.ramRead, ← State.Quiet.slotUse, ← State.Quiet.mk']

theorem State.Quiet.trExport {κ : Standing} {s₀ s : State} (hQ : s₀.Quiet κ s) (slot : Nat) :
    s₀.Quiet κ (State.trExport s slot).2 := by
  unfold State.trExport
  grind (gen := 30) (ematch := 30) only [← State.Quiet.mk']

theorem State.Quiet.trRestore {κ : Standing} {s₀ s : State} (hQ : s₀.Quiet κ s) (slot : Nat) :
    s₀.Quiet κ (State.trRestore s slot).2 := by
  unfold State.trRestore
  grind (gen := 30) (ematch := 30) only [← State.Quiet.ramRead, ← State.Quiet.mk']

theorem State.Quiet.trCmd {κ : Standing} {s₀ s : State} (hQ : s₀.Quiet κ s) (src : Source) (op : Nat) (slot : Nat) :
    s₀.Quiet κ (State.trCmd s src op slot) := by
  unfold State.trCmd
  grind (gen := 30) (ematch := 30) only [← State.Quiet.cphWork, ← State.Quiet.modCipher, ← State.Quiet.put, ← State.Quiet.raise, ← State.Quiet.trExport, ← State.Quiet.trGenerate, ← State.Quiet.trImportEcdh, ← State.Quiet.trImportKek, ← State.Quiet.trRestore, ← State.Quiet.mk']

theorem State.Quiet.trApply {κ : Standing} {s₀ s : State} (hQ : s₀.Quiet κ s) (hm : κ.mem = false) (r : TrRun) :
    s₀.Quiet κ (State.trApply s r) := by
  unfold State.trApply
  grind (gen := 30) (ematch := 30) only [← State.Quiet.put, ← State.Quiet.ramWrite, ← State.Quiet.slotErase, ← State.Quiet.slotFill, ← State.Quiet.mk']

theorem State.Quiet.cphSubmit {κ : Standing} {s₀ s : State} (hQ : s₀.Quiet κ s) (src : Nat) (addr : W20) :
    s₀.Quiet κ (State.cphSubmit s src addr) := by
  unfold State.cphSubmit
  grind (gen := 30) (ematch := 30) only [← State.Quiet.modCipher, ← State.Quiet.raise, ← State.Quiet.mk']

theorem State.Quiet.cphCount {κ : Standing} {s₀ s : State} (hQ : s₀.Quiet κ s) (status : Nat) :
    s₀.Quiet κ (State.cphCount s status) := by
  unfold State.cphCount
  grind (gen := 30) (ematch := 30) only [← State.Quiet.bump, ← State.Quiet.raise, ← State.Quiet.mk']

theorem State.Quiet.cphRefuse {κ : Standing} {s₀ s : State} (hQ : s₀.Quiet κ s) (hm : κ.mem = false) (src : Nat) (recAt : Nat) (status : Nat) :
    s₀.Quiet κ (State.cphRefuse s src recAt status) := by
  unfold State.cphRefuse
  grind (gen := 30) (ematch := 30) only [← State.Quiet.cphCount, ← State.Quiet.macFail, ← State.Quiet.ramWrite, ← State.Quiet.updHears]

theorem State.Quiet.cphAccept {κ : Standing} {s₀ s : State} (hQ : s₀.Quiet κ s) (r : CphReq) :
    s₀.Quiet κ (State.cphAccept s r) := by
  unfold State.cphAccept
  grind (gen := 30) (ematch := 30) only [← State.Quiet.cphWork, ← State.Quiet.cqCheck, ← State.Quiet.modCipher, ← State.Quiet.slotUse, ← State.Quiet.mk']

theorem State.Quiet.cphRecord {κ : Standing} {s₀ s : State} (hQ : s₀.Quiet κ s) (hm : κ.mem = false) (w : CphWait) :
    s₀.Quiet κ (State.cphRecord s w) := by
  unfold State.cphRecord
  grind (gen := 30) (ematch := 30) only [← State.Quiet.cphAccept, ← State.Quiet.cphRefuse, ← State.Quiet.ramRead, ← State.Quiet.mk']

theorem State.Quiet.cphBegin {κ : Standing} {s₀ s : State} (hQ : s₀.Quiet κ s) (r : CphReq) (rest : List CphReq) (h : Option Nat) :
    s₀.Quiet κ (State.cphBegin s r rest h) := by
  unfold State.cphBegin
  grind (gen := 30) (ematch := 30) only [← State.Quiet.dmaRead, ← State.Quiet.modCipher, ← State.Quiet.foldl, ← State.Quiet.mk']

theorem State.Quiet.linkEnd {κ : Standing} {s₀ s : State} (hQ : s₀.Quiet κ s) (hm : κ.mem = false) (r : CphReq) (half : Nat) (got : List Byte) :
    s₀.Quiet κ (State.linkEnd s r half got) := by
  unfold State.linkEnd
  grind (gen := 30) (ematch := 30) only [← State.Quiet.bump, ← State.Quiet.dmaWrite, ← State.Quiet.halfFree, ← State.Quiet.macFail, ← State.Quiet.macOpened, ← State.Quiet.macPlain, ← State.Quiet.raise, ← State.Quiet.mk']

theorem State.Quiet.cphOut {κ : Standing} {s₀ s : State} (hQ : s₀.Quiet κ s) (r : CphReq) (half : Nat) (a : Nat) (l : List Byte) :
    s₀.Quiet κ (State.cphOut s r half a l) := by
  unfold State.cphOut
  grind (gen := 30) (ematch := 30) only [← State.Quiet.dmaWrite, ← State.Quiet.halfFree]

theorem State.Quiet.pieceEnd {κ : Standing} {s₀ s : State} (hQ : s₀.Quiet κ s) (r : CphReq) (half : Nat) (got : List Byte) :
    s₀.Quiet κ (State.pieceEnd s r half got) := by
  unfold State.pieceEnd
  grind (gen := 30) (ematch := 30) only [← State.Quiet.bump, ← State.Quiet.cphOut, ← State.Quiet.halfFree, ← State.Quiet.raise, ← State.Quiet.updHears]

theorem State.Quiet.cphEnd {κ : Standing} {s₀ s : State} (hQ : s₀.Quiet κ s) (r : CphReq) (status : Nat) :
    s₀.Quiet κ (State.cphEnd s r status) := by
  unfold State.cphEnd
  grind (gen := 30) (ematch := 30) only [← State.Quiet.dmaWrite]

theorem State.Quiet.cphResult {κ : Standing} {s₀ s : State} (hQ : s₀.Quiet κ s) (r : CphReq) (half : Nat) (nonce : List Byte) (aad : List Byte) (data : List Byte) (tag : List Byte) :
    s₀.Quiet κ (State.cphResult s r half nonce aad data tag) := by
  unfold State.cphResult
  grind (gen := 30) (ematch := 30) only [← State.Quiet.bump, ← State.Quiet.cphEnd, ← State.Quiet.cphOut, ← State.Quiet.halfFree, ← State.Quiet.raise, ← State.Quiet.mk']

theorem State.Quiet.cphAcked {κ : Standing} {s₀ s : State} (hQ : s₀.Quiet κ s) :
    s₀.Quiet κ (State.cphAcked s) := by
  unfold State.cphAcked
  grind (gen := 30) (ematch := 30) only [← State.Quiet.raise]

theorem State.Quiet.cphTouch {κ : Standing} {s₀ s : State} (hQ : s₀.Quiet κ s) :
    s₀.Quiet κ (State.cphTouch s) := by
  unfold State.cphTouch
  grind (gen := 30) (ematch := 30) only [← State.Quiet.modCipher, ← State.Quiet.mk']

theorem State.Quiet.hpkRead {κ : Standing} {s₀ s : State} (hQ : s₀.Quiet κ s) (hm : κ.mem = false) (a : Nat) (n : Nat) :
    s₀.Quiet κ (State.hpkRead s a n).2 := by
  unfold State.hpkRead
  grind (gen := 30) (ematch := 30) only [← State.Quiet.dmaStop, ← State.Quiet.wideRead, ← State.Quiet.mk']

theorem State.Quiet.hashUpdate {κ : Standing} {s₀ s : State} (hQ : s₀.Quiet κ s) :
    s₀.Quiet κ (State.hashUpdate s).2 := by
  unfold State.hashUpdate
  grind (gen := 30) (ematch := 30) only [← State.Quiet.dmaRead, ← State.Quiet.mk']

theorem State.Quiet.hpkVerify {κ : Standing} {s₀ s : State} (hQ : s₀.Quiet κ s) (hm : κ.mem = false) :
    s₀.Quiet κ (State.hpkVerify s).2 := by
  unfold State.hpkVerify
  grind (gen := 30) (ematch := 30) only [← State.Quiet.hpkRead, ← State.Quiet.mk']

theorem State.Quiet.hpkSign {κ : Standing} {s₀ s : State} (hQ : s₀.Quiet κ s) (hm : κ.mem = false) :
    s₀.Quiet κ (State.hpkSign s).2 := by
  unfold State.hpkSign
  grind (gen := 30) (ematch := 30) only [← State.Quiet.bump, ← State.Quiet.fresh, ← State.Quiet.hpkRead, ← State.Quiet.mk']

theorem State.Quiet.hpkCmd {κ : Standing} {s₀ s : State} (hQ : s₀.Quiet κ s) (hm : κ.mem = false) (priv : Bool) (op : Nat) :
    s₀.Quiet κ (State.hpkCmd s priv op) := by
  unfold State.hpkCmd
  grind (gen := 30) (ematch := 30) only [← State.Quiet.cphWork, ← State.Quiet.hashUpdate, ← State.Quiet.hpkSign, ← State.Quiet.hpkVerify, ← State.Quiet.modCipher, ← State.Quiet.put, ← State.Quiet.mk']

theorem State.Quiet.trngStep {κ : Standing} {s₀ s : State} (hQ : s₀.Quiet κ s) :
    s₀.Quiet κ (State.trngStep s) := by
  unfold State.trngStep
  grind (gen := 30) (ematch := 30) only [← State.Quiet.fresh, ← State.Quiet.modCipher, ← State.Quiet.put, ← State.Quiet.report, ← State.Quiet.mk']

theorem State.Quiet.trngRead {κ : Standing} {s₀ s : State} (hQ : s₀.Quiet κ s) :
    s₀.Quiet κ (State.trngRead s).2 := by
  unfold State.trngRead
  grind (gen := 30) (ematch := 30) only [← State.Quiet.cphWork, ← State.Quiet.fresh, ← State.Quiet.modCipher, ← State.Quiet.mk']

theorem State.Quiet.trngRestart {κ : Standing} {s₀ s : State} (hQ : s₀.Quiet κ s) (passed : Bool) :
    s₀.Quiet κ (State.trngRestart s passed) := by
  unfold State.trngRestart
  grind (gen := 30) (ematch := 30) only [← State.Quiet.cphWork, ← State.Quiet.modCipher, ← State.Quiet.trngStep, ← State.Quiet.mk']

theorem State.Quiet.dmaTouch {κ : Standing} {s₀ s : State} (hQ : s₀.Quiet κ s) :
    s₀.Quiet κ (State.dmaTouch s) := by
  unfold State.dmaTouch
  grind (gen := 30) (ematch := 30) only [← State.Quiet.modDma, ← State.Quiet.foldl, ← State.Quiet.mk']

theorem State.Quiet.dmaTold {κ : Standing} {s₀ s : State} (hQ : s₀.Quiet κ s) (hm : κ.mem = false) (t : XferTag) :
    s₀.Quiet κ (State.dmaTold s t) := by
  unfold State.dmaTold
  grind (gen := 30) (ematch := 30) only [← State.Quiet.captured, ← State.Quiet.cphAcked, ← State.Quiet.descSet, ← State.Quiet.halfFree, ← State.Quiet.macOpened, ← State.Quiet.macSubmit, ← State.Quiet.pieceOut, ← State.Quiet.raise, ← State.Quiet.mk']

theorem State.Quiet.dmaCount {κ : Standing} {s₀ s : State} (hQ : s₀.Quiet κ s) (n : Nat) (len : Nat) (hop : Nat) :
    s₀.Quiet κ (State.dmaCount s n len hop) := by
  unfold State.dmaCount
  grind (gen := 30) (ematch := 30) only [← State.Quiet.put]

theorem State.Quiet.credReturn {κ : Standing} {s₀ s : State} (hQ : s₀.Quiet κ s) (hm : κ.mem = false) (c : Credit) :
    s₀.Quiet κ (State.credReturn s c) := by
  unfold State.credReturn
  grind (gen := 30) (ematch := 30) only [← State.Quiet.credCheck, ← State.Quiet.dmaTold, ← State.Quiet.modDma, ← State.Quiet.mk']

theorem State.Quiet.dmaGot {κ : Standing} {s₀ s : State} (hQ : s₀.Quiet κ s) (t : XferTag) (l : List Byte) :
    s₀.Quiet κ (State.dmaGot s t l) := by
  unfold State.dmaGot
  grind (gen := 30) (ematch := 30) only [← State.Quiet.driveMore, ← State.Quiet.modChord, ← State.Quiet.modCipher, ← State.Quiet.mk']

theorem State.Quiet.readGive {κ : Standing} {s₀ s : State} (hQ : s₀.Quiet κ s) (hm : κ.mem = false) (c : Credit) :
    s₀.Quiet κ (State.readGive s c) := by
  unfold State.readGive
  grind (gen := 30) (ematch := 30) only [← State.Quiet.credReturn, ← State.Quiet.dmaGot, ← State.Quiet.mk']

theorem State.Quiet.readSweep {κ : Standing} {s₀ s : State} (hQ : s₀.Quiet κ s) (hm : κ.mem = false) :
    s₀.Quiet κ (State.readSweep s) := by
  unfold State.readSweep
  grind (gen := 30) (ematch := 30) only [← State.Quiet.readGive, ← State.Quiet.foldl]

theorem State.Quiet.credSweep {κ : Standing} {s₀ s : State} (hQ : s₀.Quiet κ s) (hm : κ.mem = false) :
    s₀.Quiet κ (State.credSweep s) := by
  unfold State.credSweep
  grind (gen := 30) (ematch := 30) only [← State.Quiet.credReturn, ← State.Quiet.foldl]

theorem State.Quiet.ackWrite {κ : Standing} {s₀ s : State} (hQ : s₀.Quiet κ s) (hm : κ.mem = false) (a : DmaAck) :
    s₀.Quiet κ (State.ackWrite s a) := by
  unfold State.ackWrite
  grind (gen := 30) (ematch := 30) only [← State.Quiet.credSweep, ← State.Quiet.dmaCount, ← State.Quiet.dmaTouch, ← State.Quiet.modDma, ← State.Quiet.mk']

theorem State.Quiet.dmaAnswer {κ : Standing} {s₀ s : State} (hQ : s₀.Quiet κ s) (hm : κ.mem = false) (r : YReq) :
    s₀.Quiet κ (State.dmaAnswer s r) := by
  unfold State.dmaAnswer
  grind (gen := 30) (ematch := 30) only [← State.Quiet.ackWrite, ← State.Quiet.dmaStop, ← State.Quiet.modDma, ← State.Quiet.readSweep, ← State.Quiet.mk']

end Sys2Proof.Machine
end

section
/-! SUPPORT. What each operation leaves standing, continued: operations 451 to 600 of the model, callees before callers. -/

set_option Elab.async false

namespace Sys2Proof.Machine

theorem State.Quiet.dmaAnswers {κ : Standing} {s₀ s : State} (hQ : s₀.Quiet κ s) (hm : κ.mem = false) (l : List YReq) :
    s₀.Quiet κ (State.dmaAnswers s l) := by
  unfold State.dmaAnswers
  grind (gen := 30) (ematch := 30) only [← State.Quiet.dmaAnswer, ← State.Quiet.foldl]

theorem State.Quiet.of_deliver {κ : Standing} {s₀ : State} {p : State × List YReq} (hQ : s₀.Quiet κ p.1) (hm : κ.mem = false) :
    s₀.Quiet κ (Sys2Proof.Machine.deliver p) := by
  exact hQ.dmaAnswers hm p.2

theorem State.Quiet.yardStop {κ : Standing} {s₀ s : State} (hQ : s₀.Quiet κ s) (hm : κ.mem = false) :
    s₀.Quiet κ (State.yardStop s) := by
  unfold State.yardStop
  grind (gen := 30) (ematch := 30) only [← State.Quiet.yardTurnOff, ← State.Quiet.of_deliver]

theorem State.Quiet.yardRetire {κ : Standing} {s₀ s : State} (hQ : s₀.Quiet κ s) (hm : κ.mem = false) (c : Nat) :
    s₀.Quiet κ (State.yardRetire s c) := by
  unfold State.yardRetire
  grind (gen := 30) (ematch := 30) only [← State.Quiet.dmaAnswers, ← State.Quiet.modYch, ← State.Quiet.yardRetire1, ← State.Quiet.mk']

theorem State.Quiet.yardAlert {κ : Standing} {s₀ s : State} (hQ : s₀.Quiet κ s) (hm : κ.mem = false) (c : Nat) :
    s₀.Quiet κ (State.yardAlert s c) := by
  unfold State.yardAlert
  grind (gen := 30) (ematch := 30) only [← State.Quiet.bump, ← State.Quiet.modYch, ← State.Quiet.raise, ← State.Quiet.report, ← State.Quiet.yardFail, ← State.Quiet.of_deliver, ← State.Quiet.mk']

theorem State.Quiet.yardPprWrite {κ : Standing} {s₀ s : State} (hQ : s₀.Quiet κ s) (hm : κ.mem = false) (v : W20) :
    s₀.Quiet κ (State.yardPprWrite s v) := by
  unfold State.yardPprWrite
  grind (gen := 30) (ematch := 30) only [← State.Quiet.fresh, ← State.Quiet.setRg, ← State.Quiet.yardRepair, ← State.Quiet.of_deliver]

theorem State.Quiet.yardCtlTake {κ : Standing} {s₀ s : State} (hQ : s₀.Quiet κ s) (hm : κ.mem = false) (v : W20) :
    s₀.Quiet κ (State.yardCtlTake s v) := by
  unfold State.yardCtlTake
  grind (gen := 30) (ematch := 30) only [← State.Quiet.put, ← State.Quiet.raise, ← State.Quiet.setRg, ← State.Quiet.yardInitNow, ← State.Quiet.yardRest, ← State.Quiet.yardRetrainNow, ← State.Quiet.yardStop, ← State.Quiet.yardTurnOn, ← State.Quiet.yardWake, ← State.Quiet.of_deliver]

theorem State.Quiet.yardCtl {κ : Standing} {s₀ s : State} (hQ : s₀.Quiet κ s) (hm : κ.mem = false) (v : W20) :
    s₀.Quiet κ (State.yardCtl s v) := by
  unfold State.yardCtl
  grind (gen := 30) (ematch := 30) only [← State.Quiet.raise, ← State.Quiet.yardCtlTake]

theorem State.Quiet.setFuse {κ : Standing} {s₀ s : State} (hQ : s₀.Quiet κ s) (n : Option Nat) :
    s₀.Quiet κ (State.setFuse s n) := by
  unfold State.setFuse
  grind (gen := 30) (ematch := 30) only [← State.Quiet.mk']

theorem State.Quiet.flashDo {κ : Standing} {s₀ s : State} (hQ : s₀.Quiet κ s) (hm : κ.mem = false) (op : FlashOp) :
    s₀.Quiet κ (State.flashDo s op) := by
  unfold State.flashDo
  grind (gen := 30) (ematch := 30) only [← State.Quiet.flashApply, ← State.Quiet.flashTorn, ← State.Quiet.setFuse, ← State.Quiet.mk']

theorem State.Quiet.updErase {κ : Standing} {s₀ s : State} (hQ : s₀.Quiet κ s) (hm : κ.mem = false) (f : Nat) (n : Nat) :
    s₀.Quiet κ (State.updErase s f n) := by
  unfold State.updErase
  grind (gen := 30) (ematch := 30) only [← State.Quiet.flashDo]

theorem State.Quiet.updProgram {κ : Standing} {s₀ s : State} (hQ : s₀.Quiet κ s) (hm : κ.mem = false) (f : Nat) (l : List Byte) :
    s₀.Quiet κ (State.updProgram s f l) := by
  unfold State.updProgram
  grind (gen := 30) (ematch := 30) only [← State.Quiet.flashDo]

theorem State.Quiet.flashCopy {κ : Standing} {s₀ s : State} (hQ : s₀.Quiet κ s) (hm : κ.mem = false) (src : Nat) (dst : Nat) (n : Nat) :
    s₀.Quiet κ (State.flashCopy s src dst n) := by
  unfold State.flashCopy
  grind (gen := 30) (ematch := 30) only [← State.Quiet.updErase, ← State.Quiet.updProgram]

theorem State.Quiet.commitPiece {κ : Standing} {s₀ s : State} (hQ : s₀.Quiet κ s) (hm : κ.mem = false) (p : Nat) (i : Nat) (data : List Byte) :
    s₀.Quiet κ (State.commitPiece s p i data) := by
  unfold State.commitPiece
  grind (gen := 30) (ematch := 30) only [← State.Quiet.updProgram]

theorem State.Quiet.recordAt {κ : Standing} {s₀ s : State} (hQ : s₀.Quiet κ s) (hm : κ.mem = false) (h : Nat) (n : Nat) (seq : Nat) (r : PartRec) :
    s₀.Quiet κ (State.recordAt s h n seq r) := by
  unfold State.recordAt
  grind (gen := 30) (ematch := 30) only [← State.Quiet.updProgram]

theorem State.Quiet.journalMove {κ : Standing} {s₀ s : State} (hQ : s₀.Quiet κ s) (hm : κ.mem = false) :
    s₀.Quiet κ (State.journalMove s) := by
  unfold State.journalMove
  grind (gen := 30) (ematch := 30) only [← State.Quiet.recordAt, ← State.Quiet.updErase, ← State.Quiet.foldl]

theorem State.Quiet.journalRoom {κ : Standing} {s₀ s : State} (hQ : s₀.Quiet κ s) (hm : κ.mem = false) :
    s₀.Quiet κ (State.journalRoom s) := by
  unfold State.journalRoom
  grind (gen := 30) (ematch := 30) only [← State.Quiet.journalMove]

theorem State.Quiet.journal {κ : Standing} {s₀ s : State} (hQ : s₀.Quiet κ s) (hm : κ.mem = false) (r : PartRec) :
    s₀.Quiet κ (State.journal s r) := by
  unfold State.journal
  grind (gen := 30) (ematch := 30) only [← State.Quiet.journalRoom, ← State.Quiet.recordAt]

theorem State.Quiet.setFails {κ : Standing} {s₀ s : State} (hQ : s₀.Quiet κ s) (n : Nat) :
    s₀.Quiet κ (State.setFails s n) := by
  unfold State.setFails
  grind (gen := 30) (ematch := 30) only [← State.Quiet.put, ← State.Quiet.mk']

theorem State.Quiet.campaignKey {κ : Standing} {s₀ s : State} (hQ : s₀.Quiet κ s) (m : Manifest) :
    s₀.Quiet κ (State.campaignKey s m).2 := by
  unfold State.campaignKey
  grind (gen := 30) (ematch := 30) only [← State.Quiet.slotFill, ← State.Quiet.slotUse, ← State.Quiet.mk']

theorem State.Quiet.campaignShow {κ : Standing} {s₀ s : State} (hQ : s₀.Quiet κ s) (m : Manifest) :
    s₀.Quiet κ (State.campaignShow s m) := by
  unfold State.campaignShow
  grind (gen := 30) (ematch := 30) only [← State.Quiet.put, ← State.Quiet.set32]

theorem State.Quiet.receiving {κ : Standing} {s₀ s : State} (hQ : s₀.Quiet κ s) (hm : κ.mem = false) (m : Manifest) (p : MPart) :
    s₀.Quiet κ (State.receiving s m p) := by
  unfold State.receiving
  grind (gen := 30) (ematch := 30) only [← State.Quiet.journal, ← State.Quiet.mk']

theorem State.Quiet.manifestStore {κ : Standing} {s₀ s : State} (hQ : s₀.Quiet κ s) (hm : κ.mem = false) (m : Manifest) :
    s₀.Quiet κ (State.manifestStore s m) := by
  unfold State.manifestStore
  grind (gen := 30) (ematch := 30) only [← State.Quiet.receiving, ← State.Quiet.updErase, ← State.Quiet.updProgram, ← State.Quiet.foldl]

theorem State.Quiet.ifSound {κ : Standing} {s₀ s : State} (hQ : s₀.Quiet κ s) {k : State → Nat × State} (hf : ∀ {t}, s₀.Quiet κ t → s₀.Quiet κ (k t).2) :
    s₀.Quiet κ (s.ifSound k).2 := by
  unfold State.ifSound
  grind only


theorem State.Quiet.manifestTake {κ : Standing} {s₀ s : State} (hQ : s₀.Quiet κ s) (hm : κ.mem = false) (m : Manifest) :
    s₀.Quiet κ (State.manifestTake s m).2 := by
  unfold State.manifestTake
  grind (gen := 30) (ematch := 30) only [← State.Quiet.campaignKey, ← State.Quiet.campaignShow, ← State.Quiet.ifSound, ← State.Quiet.manifestStore, ← State.Quiet.mk']

theorem State.Quiet.operand {κ : Standing} {s₀ s : State} (hQ : s₀.Quiet κ s) (a : Nat) (n : Nat) :
    s₀.Quiet κ (State.operand s a n).2 := by
  unfold State.operand
  grind (gen := 30) (ematch := 30) only [← State.Quiet.ramRead]

theorem State.Quiet.updManifest {κ : Standing} {s₀ s : State} (hQ : s₀.Quiet κ s) (hm : κ.mem = false) (a : Nat) :
    s₀.Quiet κ (State.updManifest s a).2 := by
  unfold State.updManifest
  grind (gen := 30) (ematch := 30) only [← State.Quiet.manifestTake, ← State.Quiet.operand, ← State.Quiet.mk']

theorem State.Quiet.updResume {κ : Standing} {s₀ s : State} (hQ : s₀.Quiet κ s) (hm : κ.mem = false) :
    s₀.Quiet κ (State.updResume s).2 := by
  unfold State.updResume
  grind (gen := 30) (ematch := 30) only [← State.Quiet.manifestTake, ← State.Quiet.mk']

theorem State.Quiet.partWhole {κ : Standing} {s₀ s : State} (hQ : s₀.Quiet κ s) (hm : κ.mem = false) (p : MPart) :
    s₀.Quiet κ (State.partWhole s p).2 := by
  unfold State.partWhole
  grind (gen := 30) (ematch := 30) only [← State.Quiet.ifSound, ← State.Quiet.journal, ← State.Quiet.put, ← State.Quiet.updErase, ← State.Quiet.mk']

theorem State.Quiet.pieceStore {κ : Standing} {s₀ s : State} (hQ : s₀.Quiet κ s) (hm : κ.mem = false) (p : MPart) (i : Nat) (data : List Byte) :
    s₀.Quiet κ (State.pieceStore s p i data).2 := by
  unfold State.pieceStore
  grind (gen := 30) (ematch := 30) only [← State.Quiet.commitPiece, ← State.Quiet.ifSound, ← State.Quiet.partWhole]

theorem State.Quiet.pieceBegin {κ : Standing} {s₀ s : State} (hQ : s₀.Quiet κ s) (r : UpdRun) :
    s₀.Quiet κ (State.pieceBegin s r) := by
  unfold State.pieceBegin
  grind (gen := 30) (ematch := 30) only [← State.Quiet.modCipher, ← State.Quiet.put, ← State.Quiet.ramRead, ← State.Quiet.updHears, ← State.Quiet.mk']

theorem State.Quiet.updStep {κ : Standing} {s₀ s : State} (hQ : s₀.Quiet κ s) :
    s₀.Quiet κ (State.updStep s) := by
  unfold State.updStep
  grind (gen := 30) (ematch := 30) only [← State.Quiet.pieceBegin, ← State.Quiet.mk']

theorem State.Quiet.updPiece {κ : Standing} {s₀ s : State} (hQ : s₀.Quiet κ s) (hm : κ.mem = false) (r : UpdRun) :
    s₀.Quiet κ (State.updPiece s r).2 := by
  unfold State.updPiece
  grind (gen := 30) (ematch := 30) only [← State.Quiet.pieceStore, ← State.Quiet.mk']

theorem State.Quiet.updPieceOut {κ : Standing} {s₀ s : State} (hQ : s₀.Quiet κ s) (hm : κ.mem = false) (part : Nat) (i : Nat) (a : Nat) :
    s₀.Quiet κ (State.updPieceOut s part i a).2 := by
  unfold State.updPieceOut
  grind (gen := 30) (ematch := 30) only [← State.Quiet.cphCount, ← State.Quiet.put, ← State.Quiet.ramWrite, ← State.Quiet.slotUse, ← State.Quiet.mk']

theorem State.Quiet.idle {κ : Standing} {s₀ s : State} (hQ : s₀.Quiet κ s) (hm : κ.mem = false) (f : PartRec → Bool) :
    s₀.Quiet κ (State.idle s f) := by
  unfold State.idle
  grind (gen := 30) (ematch := 30) only [← State.Quiet.journal, ← State.Quiet.foldl, ← State.Quiet.mk']

theorem State.Quiet.applySaved {κ : Standing} {s₀ s : State} (hQ : s₀.Quiet κ s) (hm : κ.mem = false) (p : Nat) (n : Nat) :
    s₀.Quiet κ (State.applySaved s p n) := by
  unfold State.applySaved
  grind (gen := 30) (ematch := 30) only [← State.Quiet.flashCopy, ← State.Quiet.journal, ← State.Quiet.mk']

theorem State.Quiet.applyTrial {κ : Standing} {s₀ s : State} (hQ : s₀.Quiet κ s) (hm : κ.mem = false) (p : Nat) :
    s₀.Quiet κ (State.applyTrial s p).2 := by
  unfold State.applyTrial
  grind (gen := 30) (ematch := 30) only [← State.Quiet.flashCopy, ← State.Quiet.idle, ← State.Quiet.ifSound, ← State.Quiet.journal, ← State.Quiet.put, ← State.Quiet.mk']

theorem State.Quiet.updApply {κ : Standing} {s₀ s : State} (hQ : s₀.Quiet κ s) (hm : κ.mem = false) (p : Nat) :
    s₀.Quiet κ (State.updApply s p).2 := by
  unfold State.updApply
  grind (gen := 30) (ematch := 30) only [← State.Quiet.applySaved, ← State.Quiet.applyTrial, ← State.Quiet.flashCopy, ← State.Quiet.ifSound, ← State.Quiet.journal, ← State.Quiet.mk']

theorem State.Quiet.updConfirm {κ : Standing} {s₀ s : State} (hQ : s₀.Quiet κ s) (hm : κ.mem = false) (p : Nat) :
    s₀.Quiet κ (State.updConfirm s p).2 := by
  unfold State.updConfirm
  grind (gen := 30) (ematch := 30) only [← State.Quiet.ifSound, ← State.Quiet.journal, ← State.Quiet.put, ← State.Quiet.mk']

theorem State.Quiet.updAbandon {κ : Standing} {s₀ s : State} (hQ : s₀.Quiet κ s) (hm : κ.mem = false) :
    s₀.Quiet κ (State.updAbandon s).2 := by
  unfold State.updAbandon
  grind (gen := 30) (ematch := 30) only [← State.Quiet.idle, ← State.Quiet.ifSound, ← State.Quiet.put, ← State.Quiet.slotErase, ← State.Quiet.updErase]

theorem State.Quiet.updCmd {κ : Standing} {s₀ s : State} (hQ : s₀.Quiet κ s) (src : Source) (v : W20) :
    s₀.Quiet κ (State.updCmd s src v) := by
  unfold State.updCmd
  grind (gen := 30) (ematch := 30) only [← State.Quiet.cphWork, ← State.Quiet.put, ← State.Quiet.mk']

theorem State.Quiet.updDo {κ : Standing} {s₀ s : State} (hQ : s₀.Quiet κ s) (hm : κ.mem = false) (r : UpdRun) :
    s₀.Quiet κ (State.updDo s r).2 := by
  unfold State.updDo
  grind (gen := 30) (ematch := 30) only [← State.Quiet.updAbandon, ← State.Quiet.updApply, ← State.Quiet.updConfirm, ← State.Quiet.updManifest, ← State.Quiet.updPiece, ← State.Quiet.updPieceOut, ← State.Quiet.updResume, ← State.Quiet.mk']

theorem State.Quiet.updFail {κ : Standing} {s₀ s : State} (hQ : s₀.Quiet κ s) (hm : κ.mem = false) (r : UpdRun) (k : Nat) :
    s₀.Quiet κ (State.updFail s r k).2 := by
  unfold State.updFail
  grind (gen := 30) (ematch := 30) only [← State.Quiet.setFuse, ← State.Quiet.updDo]

theorem State.Quiet.updEnd {κ : Standing} {s₀ s : State} (hQ : s₀.Quiet κ s) (hm : κ.mem = false) (r : UpdRun) (ok : Bool) :
    s₀.Quiet κ (State.updEnd s r ok).2 := by
  unfold State.updEnd
  grind (gen := 30) (ematch := 30) only [← State.Quiet.fresh, ← State.Quiet.setFuse, ← State.Quiet.updDo, ← State.Quiet.updFail]

theorem State.Quiet.updCut {κ : Standing} {s₀ s : State} (hQ : s₀.Quiet κ s) (hm : κ.mem = false) :
    s₀.Quiet κ (State.updCut s) := by
  unfold State.updCut
  grind (gen := 30) (ematch := 30) only [← State.Quiet.fresh, ← State.Quiet.updFail, ← State.Quiet.mk']

theorem State.Quiet.areaWrite {κ : Standing} {s₀ s : State} (hQ : s₀.Quiet κ s) (q : Nat) (v : W20) :
    s₀.Quiet κ (State.areaWrite s q v) := by
  unfold State.areaWrite
  grind (gen := 30) (ematch := 30) only [← State.Quiet.put, ← State.Quiet.setRg]

theorem State.Quiet.flashCut {κ : Standing} {s₀ s : State} (hQ : s₀.Quiet κ s) (hm : κ.mem = false) :
    s₀.Quiet κ (State.flashCut s) := by
  unfold State.flashCut
  grind (gen := 30) (ematch := 30) only [← State.Quiet.flashTorn, ← State.Quiet.updCut, ← State.Quiet.mk']

theorem State.Quiet.trustShow {κ : Standing} {s₀ s : State} (hQ : s₀.Quiet κ s) :
    s₀.Quiet κ (State.trustShow s) := by
  unfold State.trustShow
  grind (gen := 30) (ematch := 30) only [← State.Quiet.put]

theorem State.Quiet.rationsBack {κ : Standing} {s₀ s : State} (hQ : s₀.Quiet κ s) (hp : κ.power = false) :
    s₀.Quiet κ (State.rationsBack s) := by
  have hback : ∀ t : State, s₀.Quiet κ t → s₀.Quiet κ
      (if t.manger.heldSum + t.manger.free = t.mngTotal then t else t.report 35 0) := fun t ht => State.Quiet.ite ht (ht.report _ (.inl hp))
  unfold State.rationsBack
  exact hback _ (((hQ.modManger _).put _ _).put _ _)

theorem State.Quiet.resetCore {κ : Standing} {s₀ s : State} (hQ : s₀.Quiet κ s) (hm : κ.mem = false) (hc : κ.cores = false) (hp : κ.power = false) {regs : Tab W20} (hr : s₀.tablesWf → tabWf regReset regs) (kind : StartKind) :
    s₀.Quiet κ (s.resetCore regs kind) := by
  exact ⟨fun hw => ⟨hr hw, tabWf.nil _, tabWf.nil _, tabWf.nil _, tabWf.nil _, ((hQ.flashCut hm).wf hw).flash⟩,
    fun hk => absurd (hm ▸ hk) Bool.false_ne_true, fun hk => absurd (hc ▸ hk) Bool.false_ne_true, fun hk => absurd (hp ▸ hk) Bool.false_ne_true, hQ.clock⟩

theorem State.Quiet.coldReset {κ : Standing} {s₀ s : State} (hQ : s₀.Quiet κ s) (hm : κ.mem = false) (hc : κ.cores = false) (hp : κ.power = false) (cause : Nat) (kind : StartKind) :
    s₀.Quiet κ (State.coldReset s cause kind) := by
  have ht := hQ.resetCore hm hc hp (fun hw => ((hQ.wf hw).regs.filter (fun e => backupReg e.1 || shownReg e.1))) kind
  unfold State.coldReset
  exact ((((((ht.mk'.trustShow).put _ _).put _ _).put _ _).put _ _).rationsBack hp).latchReqs

theorem State.Quiet.warmReset {κ : Standing} {s₀ s : State} (hQ : s₀.Quiet κ s) (hm : κ.mem = false) (hc : κ.cores = false) (hp : κ.power = false) (cause : Nat) (recov : Bool) :
    s₀.Quiet κ (State.warmReset s cause recov) := by
  have ht := hQ.resetCore hm hc hp (fun hw => ((hQ.wf hw).regs.filter (fun e => backupReg e.1 || shownReg e.1 || warmReg e.1))) .warm
  have hkept : s₀.Quiet κ { s.resetCore (s.keepRegs (fun a => backupReg a || shownReg a || warmReg a)) .warm with
      sram := s.sram, pram := s.pram, loft := s.loft, memChk := s.memChk } :=
    ⟨fun hw => ⟨(ht.wf hw).regs, (hQ.wf hw).sram, (hQ.wf hw).pram, (hQ.wf hw).loft, (hQ.wf hw).memChk, (ht.wf hw).flash⟩,
      fun hk => absurd (hm ▸ hk) Bool.false_ne_true, fun hk => absurd (hc ▸ hk) Bool.false_ne_true, fun hk => absurd (hp ▸ hk) Bool.false_ne_true, ht.clock⟩
  unfold State.warmReset
  dsimp only
  exact (((((((((((hkept.withPower hp _).mk'.put _ _).put _ _).put _ _).trustShow).put _ _).setRg _ _).put _ _).put _ _).put _ _).put _ _).rationsBack
    hp |>.latchReqs

theorem State.Quiet.ifFree {κ : Standing} {s₀ s t : State} (hQ : s₀.Quiet κ s) (ht : s₀.Quiet κ t) :
    s₀.Quiet κ (s.ifFree t) := by
  unfold State.ifFree
  grind (gen := 30) (ematch := 30) only []

theorem State.Quiet.sysRst {κ : Standing} {s₀ s : State} (hQ : s₀.Quiet κ s) (hm : κ.mem = false) (hc : κ.cores = false) (hp : κ.power = false) (src : Source) (v : W20) :
    s₀.Quiet κ (State.sysRst s src v) := by
  unfold State.sysRst
  grind (gen := 30) (ematch := 30) only [← State.Quiet.coldReset, ← State.Quiet.ifFree, ← State.Quiet.warmReset, ← State.Quiet.mk']

theorem State.Quiet.modUpdate {κ : Standing} {s₀ s : State} (hQ : s₀.Quiet κ s) (f : Update → Update) :
    s₀.Quiet κ (State.modUpdate s f) := by
  unfold State.modUpdate
  grind (gen := 30) (ematch := 30) only [← State.Quiet.mk']

theorem State.Quiet.enterRecovery {κ : Standing} {s₀ s : State} (hQ : s₀.Quiet κ s) (hm : κ.mem = false) :
    s₀.Quiet κ (State.enterRecovery s) := by
  unfold State.enterRecovery
  grind (gen := 30) (ematch := 30) only [← State.Quiet.modUpdate, ← State.Quiet.put, ← State.Quiet.setFuse, ← State.Quiet.setRg, ← State.Quiet.updErase, ← State.Quiet.mk']

theorem State.Quiet.sendStatus {κ : Standing} {s₀ s : State} (hQ : s₀.Quiet κ s) (ifc : RecovIface) (i : Nat) (st : Nat) :
    s₀.Quiet κ (State.sendStatus s ifc i st) := by
  unfold State.sendStatus
  grind (gen := 30) (ematch := 30) only [← State.Quiet.chordSend, ← State.Quiet.modUpdate, ← State.Quiet.uartPush, ← State.Quiet.foldl, ← State.Quiet.mk']

theorem State.Quiet.answer {κ : Standing} {s₀ s : State} (hQ : s₀.Quiet κ s) :
    s₀.Quiet κ (State.answer s) := by
  unfold State.answer
  grind (gen := 30) (ematch := 30) only [← State.Quiet.modUpdate, ← State.Quiet.sendStatus, ← State.Quiet.mk']

theorem State.Quiet.blockTake {κ : Standing} {s₀ s : State} (hQ : s₀.Quiet κ s) (hm : κ.mem = false) (ifc : RecovIface) (l : List Byte) :
    s₀.Quiet κ (State.blockTake s ifc l) := by
  unfold State.blockTake
  grind (gen := 30) (ematch := 30) only [← State.Quiet.commitPiece, ← State.Quiet.modUpdate, ← State.Quiet.put, ← State.Quiet.setFuse, ← State.Quiet.mk']

theorem State.Quiet.recoveryTake {κ : Standing} {s₀ s : State} (hQ : s₀.Quiet κ s) (hm : κ.mem = false) (ifc : RecovIface) (l : List Byte) :
    s₀.Quiet κ (State.recoveryTake s ifc l) := by
  unfold State.recoveryTake
  grind (gen := 30) (ematch := 30) only [← State.Quiet.blockTake]

theorem State.Quiet.romUart {κ : Standing} {s₀ s : State} (hQ : s₀.Quiet κ s) (hm : κ.mem = false) :
    s₀.Quiet κ (State.romUart s) := by
  unfold State.romUart
  grind (gen := 30) (ematch := 30) only [← State.Quiet.modUpdate, ← State.Quiet.recoveryTake, ← State.Quiet.uartPop, ← State.Quiet.mk']

theorem State.Quiet.calWrite {κ : Standing} {s₀ s : State} (hQ : s₀.Quiet κ s) (v : W20) :
    s₀.Quiet κ (State.calWrite s v) := by
  unfold State.calWrite
  grind (gen := 30) (ematch := 30) only [← State.Quiet.ask, ← State.Quiet.modRadio, ← State.Quiet.raise, ← State.Quiet.setRg, ← State.Quiet.mk']

theorem State.Quiet.calBegin {κ : Standing} {s₀ s : State} (hQ : s₀.Quiet κ s) (step : CalStep) (temp : BitVec 10) :
    s₀.Quiet κ (State.calBegin s step temp) := by
  unfold State.calBegin
  grind (gen := 30) (ematch := 30) only [← State.Quiet.calShow, ← State.Quiet.modRadio, ← State.Quiet.put, ← State.Quiet.stallSync, ← State.Quiet.mk']

theorem State.Quiet.calFinish {κ : Standing} {s₀ s : State} (hQ : s₀.Quiet κ s) (last : CalStep) (temp : BitVec 10) :
    s₀.Quiet κ (State.calFinish s last temp) := by
  unfold State.calFinish
  grind (gen := 30) (ematch := 30) only [← State.Quiet.calShow, ← State.Quiet.modRadio, ← State.Quiet.put, ← State.Quiet.raise, ← State.Quiet.rampStart, ← State.Quiet.settle, ← State.Quiet.txCalNeed, ← State.Quiet.mk']

theorem State.Quiet.modKeeper {κ : Standing} {s₀ s : State} (hQ : s₀.Quiet κ s) (f : Keeper → Keeper) :
    s₀.Quiet κ (State.modKeeper s f) := by
  unfold State.modKeeper
  grind (gen := 30) (ematch := 30) only [← State.Quiet.mk']

theorem State.Quiet.modFaults {κ : Standing} {s₀ s : State} (hQ : s₀.Quiet κ s) (f : Faults → Faults) :
    s₀.Quiet κ (State.modFaults s f) := by
  unfold State.modFaults
  grind (gen := 30) (ematch := 30) only [← State.Quiet.mk']

theorem State.Quiet.modOtp {κ : Standing} {s₀ s : State} (hQ : s₀.Quiet κ s) (f : Otp → Otp) :
    s₀.Quiet κ (State.modOtp s f) := by
  unfold State.modOtp
  grind (gen := 30) (ematch := 30) only [← State.Quiet.mk']

theorem State.Quiet.bootShow {κ : Standing} {s₀ s : State} (hQ : s₀.Quiet κ s) :
    s₀.Quiet κ (State.bootShow s) := by
  unfold State.bootShow
  grind (gen := 30) (ematch := 30) only [← State.Quiet.put, ← State.Quiet.set32]

theorem State.Quiet.bootAdvance {κ : Standing} {s₀ s : State} (hQ : s₀.Quiet κ s) :
    s₀.Quiet κ (State.bootAdvance s) := by
  unfold State.bootAdvance
  grind (gen := 30) (ematch := 30) only [← State.Quiet.bootShow, ← State.Quiet.modKeeper, ← State.Quiet.modOtp, ← State.Quiet.put, ← State.Quiet.setFails, ← State.Quiet.mk']

theorem State.Quiet.idShow {κ : Standing} {s₀ s : State} (hQ : s₀.Quiet κ s) :
    s₀.Quiet κ (State.idShow s) := by
  unfold State.idShow
  grind (gen := 30) (ematch := 30) only [← State.Quiet.put, ← State.Quiet.report, ← State.Quiet.setRg, ← State.Quiet.foldl]

theorem State.Quiet.halterShow {κ : Standing} {s₀ s : State} (hQ : s₀.Quiet κ s) :
    s₀.Quiet κ (State.halterShow s) := by
  unfold State.halterShow
  grind (gen := 30) (ematch := 30) only [← State.Quiet.setRg, ← State.Quiet.foldl]

theorem State.Quiet.ceilShow {κ : Standing} {s₀ s : State} (hQ : s₀.Quiet κ s) :
    s₀.Quiet κ (State.ceilShow s) := by
  unfold State.ceilShow
  grind (gen := 30) (ematch := 30) only [← State.Quiet.modManger, ← State.Quiet.moveBand, ← State.Quiet.put, ← State.Quiet.mk']

theorem State.Quiet.padShow {κ : Standing} {s₀ s : State} (hQ : s₀.Quiet κ s) :
    s₀.Quiet κ (State.padShow s) := by
  unfold State.padShow
  grind (gen := 30) (ematch := 30) only [← State.Quiet.put]

theorem State.Quiet.floorShow {κ : Standing} {s₀ s : State} (hQ : s₀.Quiet κ s) :
    s₀.Quiet κ (State.floorShow s) := by
  unfold State.floorShow
  grind (gen := 30) (ematch := 30) only [← State.Quiet.put, ← State.Quiet.set32]

theorem State.Quiet.otpRead {κ : Standing} {s₀ s : State} (hQ : s₀.Quiet κ s) :
    s₀.Quiet κ (State.otpRead s) := by
  unfold State.otpRead
  grind (gen := 30) (ematch := 30) only [← State.Quiet.ceilShow, ← State.Quiet.floorShow, ← State.Quiet.halterShow, ← State.Quiet.idShow, ← State.Quiet.modManger, ← State.Quiet.padShow, ← State.Quiet.put, ← State.Quiet.mk']

theorem State.Quiet.spareNew {κ : Standing} {s₀ s : State} (hQ : s₀.Quiet κ s) (kind : Nat) (idx : Nat) (ok : Bool) :
    s₀.Quiet κ (State.spareNew s kind idx ok) := by
  unfold State.spareNew
  grind (gen := 30) (ematch := 30) only [← State.Quiet.spareTry]

theorem State.Quiet.spareTest {κ : Standing} {s₀ s : State} (hQ : s₀.Quiet κ s) (st : SelfTest) :
    s₀.Quiet κ (State.spareTest s st) := by
  unfold State.spareTest
  grind (gen := 30) (ematch := 30) only [← State.Quiet.spareNew, ← State.Quiet.foldl]

theorem State.Quiet.setLaneFail {κ : Standing} {s₀ s : State} (hQ : s₀.Quiet κ s) (l : Nat) :
    s₀.Quiet κ (State.setLaneFail s l) := by
  unfold State.setLaneFail
  grind (gen := 30) (ematch := 30) only [← State.Quiet.setRg]

theorem State.Quiet.respare {κ : Standing} {s₀ s : State} (hQ : s₀.Quiet κ s) (p : Nat) :
    s₀.Quiet κ (State.respare s p) := by
  unfold State.respare
  grind (gen := 30) (ematch := 30) only [← State.Quiet.put, ← State.Quiet.report, ← State.Quiet.mk']

theorem State.Quiet.lanesApply {κ : Standing} {s₀ s : State} (hQ : s₀.Quiet κ s) (failed : List Nat) :
    s₀.Quiet κ (State.lanesApply s failed) := by
  unfold State.lanesApply
  grind (gen := 30) (ematch := 30) only [← State.Quiet.lanesShow, ← State.Quiet.respare, ← State.Quiet.setLaneFail, ← State.Quiet.foldl]

theorem State.Quiet.rowsOut {κ : Standing} {s₀ s : State} (hQ : s₀.Quiet κ s) (kind b most : Nat) {code : Nat} (hcode : code < 35) :
    s₀.Quiet κ (s.rowsOut kind b most code) := by
  exact State.Quiet.foldl hQ fun u i hu => hu.report _ (.inr hcode)

theorem State.Quiet.rowsApply {κ : Standing} {s₀ s : State} (hQ : s₀.Quiet κ s) :
    s₀.Quiet κ (State.rowsApply s) := by
  unfold State.rowsApply
  grind (gen := 30) (ematch := 30) only [← State.Quiet.put, ← State.Quiet.rowsOut, ← State.Quiet.foldl]

theorem State.Quiet.sparesApply {κ : Standing} {s₀ s : State} (hQ : s₀.Quiet κ s) (failed : List Nat) :
    s₀.Quiet κ (State.sparesApply s failed) := by
  unfold State.sparesApply
  grind (gen := 30) (ematch := 30) only [← State.Quiet.lanesApply, ← State.Quiet.put, ← State.Quiet.rowsApply]

theorem State.Quiet.rowsForce {κ : Standing} {s₀ s : State} (hQ : s₀.Quiet κ s) :
    s₀.Quiet κ (State.rowsForce s) := by
  unfold State.rowsForce
  grind (gen := 30) (ematch := 30) only [← State.Quiet.modOtp, ← State.Quiet.mk']

theorem State.Quiet.ageing {κ : Standing} {s₀ s : State} (hQ : s₀.Quiet κ s) (margin : Nat) (ok : Bool) :
    s₀.Quiet κ (State.ageing s margin ok) := by
  unfold State.ageing
  grind (gen := 30) (ematch := 30) only [← State.Quiet.modFaults, ← State.Quiet.put, ← State.Quiet.report, ← State.Quiet.spareTry, ← State.Quiet.mk']

theorem State.Quiet.ageingOpen {κ : Standing} {s₀ s : State} (hQ : s₀.Quiet κ s) :
    s₀.Quiet κ (State.ageingOpen s) := by
  unfold State.ageingOpen
  grind (gen := 30) (ematch := 30) only [← State.Quiet.ageing, ← State.Quiet.fresh]

theorem State.Quiet.fillLofts {κ : Standing} {s₀ s : State} (hQ : s₀.Quiet κ s) (hm : κ.mem = false) :
    s₀.Quiet κ (State.fillLofts s) := by
  exact hQ.written hm (fun hw => ⟨hw.regs, hw.sram, tabWf.nil _, tabWf.nil _, hw.memChk.filter _, hw.flash⟩) rfl rfl rfl rfl

theorem State.Quiet.firstLight {κ : Standing} {s₀ s : State} (hQ : s₀.Quiet κ s) (ok : Bool) :
    s₀.Quiet κ (State.firstLight s ok) := by
  unfold State.firstLight
  grind (gen := 30) (ematch := 30) only [← State.Quiet.fresh, ← State.Quiet.modOtp, ← State.Quiet.trustShow, ← State.Quiet.mk']

theorem State.Quiet.halterRadio {κ : Standing} {s₀ s : State} (hQ : s₀.Quiet κ s) :
    s₀.Quiet κ (State.halterRadio s) := by
  unfold State.halterRadio
  grind (gen := 30) (ematch := 30) only [← State.Quiet.gainWrite, ← State.Quiet.put, ← State.Quiet.radioRequest, ← State.Quiet.rxFracWrite, ← State.Quiet.setRg]

theorem State.Quiet.releaseB0 {κ : Standing} {s₀ s : State} (hQ : s₀.Quiet κ s) (hc : κ.cores = false) :
    s₀.Quiet κ (State.releaseB0 s) := by
  unfold State.releaseB0
  grind (gen := 30) (ematch := 30) only [← State.Quiet.coreOn, ← State.Quiet.modCore, ← State.Quiet.mk']

theorem State.Quiet.startEnd {κ : Standing} {s₀ s : State} (hQ : s₀.Quiet κ s) (hm : κ.mem = false) (hc : κ.cores = false) (recovLow : Bool) :
    s₀.Quiet κ (State.startEnd s recovLow) := by
  unfold State.startEnd
  grind (gen := 30) (ematch := 30) only [← State.Quiet.enterRecovery, ← State.Quiet.modKeeper, ← State.Quiet.put, ← State.Quiet.releaseB0, ← State.Quiet.updCmd, ← State.Quiet.mk']

theorem State.Quiet.clocksReady {κ : Standing} {s₀ s : State} (hQ : s₀.Quiet κ s) :
    s₀.Quiet κ (State.clocksReady s) := by
  unfold State.clocksReady
  grind (gen := 30) (ematch := 30) only [← State.Quiet.put]

theorem State.Quiet.keeperEarly {κ : Standing} {s₀ s : State} (hQ : s₀.Quiet κ s) :
    s₀.Quiet κ (State.keeperEarly s) := by
  unfold State.keeperEarly
  grind (gen := 30) (ematch := 30) only [← State.Quiet.clocksReady, ← State.Quiet.halterRadio, ← State.Quiet.halterShow, ← State.Quiet.modKeeper, ← State.Quiet.otpRead, ← State.Quiet.mk']

theorem State.Quiet.halterChord {κ : Standing} {s₀ s : State} (hQ : s₀.Quiet κ s) :
    s₀.Quiet κ (State.halterChord s) := by
  unfold State.halterChord
  grind (gen := 30) (ematch := 30) only [← State.Quiet.chdCtl, ← State.Quiet.put, ← State.Quiet.setRg]

theorem State.Quiet.halterStall {κ : Standing} {s₀ s : State} (hQ : s₀.Quiet κ s) :
    s₀.Quiet κ (State.halterStall s) := by
  unfold State.halterStall
  grind (gen := 30) (ematch := 30) only [← State.Quiet.poolFill, ← State.Quiet.put, ← State.Quiet.setRg, ← State.Quiet.stallEn]

theorem State.Quiet.halterListen {κ : Standing} {s₀ s : State} (hQ : s₀.Quiet κ s) :
    s₀.Quiet κ (State.halterListen s) := by
  unfold State.halterListen
  grind (gen := 30) (ematch := 30) only [← State.Quiet.calWrite, ← State.Quiet.windowOpen]

theorem State.Quiet.halterServe {κ : Standing} {s₀ s : State} (hQ : s₀.Quiet κ s) :
    s₀.Quiet κ (State.halterServe s) := by
  unfold State.halterServe
  grind (gen := 30) (ematch := 30) only [← State.Quiet.put]

theorem State.Quiet.halterEnd {κ : Standing} {s₀ s : State} (hQ : s₀.Quiet κ s) :
    s₀.Quiet κ (State.halterEnd s) := by
  unfold State.halterEnd
  grind (gen := 30) (ematch := 30) only [← State.Quiet.modChord, ← State.Quiet.put, ← State.Quiet.stallEn, ← State.Quiet.txForget, ← State.Quiet.mk']

theorem State.Quiet.declare {κ : Standing} {s₀ s : State} (hQ : s₀.Quiet κ s) (src : Source) :
    s₀.Quiet κ (State.declare s src) := by
  unfold State.declare
  grind (gen := 30) (ematch := 30) only [← State.Quiet.halterEnd, ← State.Quiet.modKeeper, ← State.Quiet.put, ← State.Quiet.setFails, ← State.Quiet.mk']

theorem State.Quiet.loftLoad {κ : Standing} {s₀ s : State} (hQ : s₀.Quiet κ s) (hm : κ.mem = false) (code : List Byte) :
    s₀.Quiet κ (State.loftLoad s code) := by
  exact hQ.written hm (fun hw => ⟨hw.regs, hw.sram, hw.pram, tabFill_wf _ _ _ hw.loft, tabFill_wf _ _ _ hw.memChk, hw.flash⟩) rfl rfl rfl rfl

theorem State.Quiet.bootTry {κ : Standing} {s₀ s : State} (hQ : s₀.Quiet κ s) (hm : κ.mem = false) (f : Nat) :
    s₀.Quiet κ (State.bootTry s f).2 := by
  unfold State.bootTry
  grind (gen := 30) (ematch := 30) only [← State.Quiet.loftLoad, ← State.Quiet.ramWrite, ← State.Quiet.mk']

theorem State.Quiet.launch {κ : Standing} {s₀ s : State} (hQ : s₀.Quiet κ s) (hc : κ.cores = false) (r : Loader) (area : Nat) :
    s₀.Quiet κ (State.launch s r area) := by
  unfold State.launch
  grind (gen := 30) (ematch := 30) only [← State.Quiet.coreReset, ← State.Quiet.modKeeper, ← State.Quiet.put, ← State.Quiet.set32, ← State.Quiet.setFails, ← State.Quiet.mk']

theorem State.Quiet.noLoader {κ : Standing} {s₀ s : State} (hQ : s₀.Quiet κ s) (hm : κ.mem = false) (hc : κ.cores = false) :
    s₀.Quiet κ (State.noLoader s) := by
  unfold State.noLoader
  grind (gen := 30) (ematch := 30) only [← State.Quiet.coreReset, ← State.Quiet.enterRecovery, ← State.Quiet.loftLoad, ← State.Quiet.put]

theorem State.Quiet.boot {κ : Standing} {s₀ s : State} (hQ : s₀.Quiet κ s) (hm : κ.mem = false) (hc : κ.cores = false) :
    s₀.Quiet κ (State.boot s).2 := by
  unfold State.boot
  grind (gen := 30) (ematch := 30) only [← State.Quiet.bootTry, ← State.Quiet.launch, ← State.Quiet.noLoader, ← State.Quiet.mk']

theorem State.Quiet.trustOrder {κ : Standing} {s₀ s : State} (hQ : s₀.Quiet κ s) (code : Nat) :
    s₀.Quiet κ (State.trustOrder s code).2 := by
  unfold State.trustOrder
  grind (gen := 30) (ematch := 30) only [← State.Quiet.operand, ← State.Quiet.put, ← State.Quiet.mk']

theorem State.Quiet.halterOrder {κ : Standing} {s₀ s : State} (hQ : s₀.Quiet κ s) :
    s₀.Quiet κ (State.halterOrder s).2 := by
  have h := hQ.operand (s.get KMB_ADDR_VALUE) 12
  obtain ⟨f, hf⟩ : ∃ f, f = @State.halterOrder := ⟨_, rfl⟩
  generalize hr : State.halterOrder s = p
  rw [← hf] at hr
  delta State.halterOrder at hf
  subst hf
  beta_reduce at hr
  split at hr
  · subst hr
    exact hQ
  · generalize s.operand (s.get KMB_ADDR_VALUE) 12 = z at *
    obtain ⟨_ | l, t⟩ := z
    · subst hr
      exact h
    · dsimp only at hr h
      split at hr <;> subst hr <;> exact h

theorem State.Quiet.floorOrder {κ : Standing} {s₀ s : State} (hQ : s₀.Quiet κ s) :
    s₀.Quiet κ (State.floorOrder s).2 := by
  unfold State.floorOrder
  grind (gen := 30) (ematch := 30) only [← State.Quiet.operand, ← State.Quiet.mk']

theorem State.Quiet.orderStart {κ : Standing} {s₀ s : State} (hQ : s₀.Quiet κ s) (hc : κ.cores = false) (src : Source) (code : Nat) :
    s₀.Quiet κ (State.orderStart s src code).2 := by
  unfold State.orderStart
  grind (gen := 30) (ematch := 30) only [← State.Quiet.coreOff, ← State.Quiet.floorOrder, ← State.Quiet.halterOrder, ← State.Quiet.trustOrder, ← State.Quiet.mk']

theorem State.Quiet.keeperOrder {κ : Standing} {s₀ s : State} (hQ : s₀.Quiet κ s) (hc : κ.cores = false) (src : Source) (code : Nat) :
    s₀.Quiet κ (State.keeperOrder s src code) := by
  unfold State.keeperOrder
  grind (gen := 30) (ematch := 30) only [← State.Quiet.cphWork, ← State.Quiet.modKeeper, ← State.Quiet.orderStart, ← State.Quiet.put, ← State.Quiet.raise, ← State.Quiet.mk']

theorem State.Quiet.orderWrite {κ : Standing} {s₀ s : State} (hQ : s₀.Quiet κ s) (hc : κ.cores = false) (src : Source) (v : W20) :
    s₀.Quiet κ (State.orderWrite s src v) := by
  unfold State.orderWrite
  grind (gen := 30) (ematch := 30) only [← State.Quiet.keeperOrder, ← State.Quiet.setRg, ← State.Quiet.writeAction]

theorem State.Quiet.otpCommit {κ : Standing} {s₀ s : State} (hQ : s₀.Quiet κ s) (c : OtpCommit) :
    s₀.Quiet κ (s.otpCommit c) := by
  unfold State.otpCommit
  grind (gen := 30) (ematch := 30) only [← State.Quiet.ceilShow, ← State.Quiet.floorShow, ← State.Quiet.modOtp, ← State.Quiet.padShow, ← State.Quiet.put, ← State.Quiet.trustShow, ← State.Quiet.mk']

theorem State.Quiet.orderEnd {κ : Standing} {s₀ s : State} (hQ : s₀.Quiet κ s) (hm : κ.mem = false) (hc : κ.cores = false) (o : KOrder) (otpOk : Bool) :
    s₀.Quiet κ (State.orderEnd s o otpOk).2 := by
  unfold State.orderEnd
  grind (gen := 30) (ematch := 30) only [← State.Quiet.boot, ← State.Quiet.otpCommit, ← State.Quiet.setFails, ← State.Quiet.mk']

theorem State.Quiet.srcClear {κ : Standing} {s₀ s : State} (hQ : s₀.Quiet κ s) (hp : κ.power = false) (k : Nat) (v : W20) :
    s₀.Quiet κ (State.srcClear s k v) := by
  unfold State.srcClear
  refine State.Quiet.foldl (State.Quiet.foldl hQ fun u i hu => hu.put _ _) fun u i hu => ?_
  exact State.Quiet.ite (hu.report _ (.inl hp)) hu

theorem State.Quiet.release16 {κ : Standing} {s₀ s : State} (hQ : s₀.Quiet κ s) (v : W20) :
    s₀.Quiet κ (State.release16 s v) := by
  unfold State.release16
  grind (gen := 30) (ematch := 30) only [← State.Quiet.put, ← State.Quiet.foldl, ← State.Quiet.mk']

theorem State.Quiet.withdrawLane {κ : Standing} {s₀ s : State} (hQ : s₀.Quiet κ s) (l : Nat) :
    s₀.Quiet κ (State.withdrawLane s l) := by
  unfold State.withdrawLane
  grind (gen := 30) (ematch := 30) only [← State.Quiet.lanesShow, ← State.Quiet.put, ← State.Quiet.report, ← State.Quiet.respare, ← State.Quiet.setLaneFail, ← State.Quiet.spareOpen, ← State.Quiet.mk']

theorem State.Quiet.spareCmd {κ : Standing} {s₀ s : State} (hQ : s₀.Quiet κ s) (v : W20) :
    s₀.Quiet κ (State.spareCmd s v) := by
  unfold State.spareCmd
  grind (gen := 30) (ematch := 30) only [← State.Quiet.withdrawLane]

theorem State.Quiet.ramFinds {κ : Standing} {s₀ s : State} (hQ : s₀.Quiet κ s) (r : Ram) (a : Nat) (c : Chk) :
    s₀.Quiet κ (State.ramFinds r a c s) := by
  unfold State.ramFinds
  grind (gen := 30) (ematch := 30) only [← State.Quiet.ramRead, ← State.Quiet.setChk]

theorem State.Quiet.loftFinds {κ : Standing} {s₀ s : State} (hQ : s₀.Quiet κ s) (c : CoreId) (w : Nat) (e : Chk) :
    s₀.Quiet κ (State.loftFinds c w e s) := by
  unfold State.loftFinds
  grind (gen := 30) (ematch := 30) only [← State.Quiet.loftRead, ← State.Quiet.setChk]

theorem State.Quiet.yardFinds {κ : Standing} {s₀ s : State} (hQ : s₀.Quiet κ s) (d : W20) (ue : Bool) :
    s₀.Quiet κ (State.yardFinds d ue s) := by
  unfold State.yardFinds
  grind (gen := 30) (ematch := 30) only [← State.Quiet.fresh, ← State.Quiet.setYardChk, ← State.Quiet.yardCe, ← State.Quiet.yardUe]

theorem State.Quiet.padWrite {κ : Standing} {s₀ s : State} (hQ : s₀.Quiet κ s) (v : W20) :
    s₀.Quiet κ (State.padWrite s v) := by
  unfold State.padWrite
  grind (gen := 30) (ematch := 30) only [← State.Quiet.put]

theorem State.Quiet.nbResult {κ : Standing} {s₀ s : State} (hQ : s₀.Quiet κ s) (r : Nat) (i : Nat) :
    s₀.Quiet κ (State.nbResult s r i) := by
  unfold State.nbResult
  grind (gen := 30) (ematch := 30) only [← State.Quiet.put]

theorem State.Quiet.rpwClear {κ : Standing} {s₀ s : State} (hQ : s₀.Quiet κ s) (hm : κ.mem = false) (i : Nat) :
    s₀.Quiet κ (State.rpwClear s i) := by
  unfold State.rpwClear
  grind (gen := 30) (ematch := 30) only [← State.Quiet.ramWrite]

theorem State.Quiet.nbCmdFind {κ : Standing} {s₀ s : State} (hQ : s₀.Quiet κ s) :
    s₀.Quiet κ (State.nbCmdFind s) := by
  unfold State.nbCmdFind
  grind (gen := 30) (ematch := 30) only [← State.Quiet.nbResult, ← State.Quiet.put, ← State.Quiet.mk']

theorem State.Quiet.nbCmdAdd {κ : Standing} {s₀ s : State} (hQ : s₀.Quiet κ s) (hm : κ.mem = false) (i : Nat) :
    s₀.Quiet κ (State.nbCmdAdd s i) := by
  unfold State.nbCmdAdd
  grind (gen := 30) (ematch := 30) only [← State.Quiet.nbRead, ← State.Quiet.nbResult, ← State.Quiet.nbWrite, ← State.Quiet.rpwClear, ← State.Quiet.mk']

theorem State.Quiet.nbCmdMiss {κ : Standing} {s₀ s : State} (hQ : s₀.Quiet κ s) (hm : κ.mem = false) (i : Nat) :
    s₀.Quiet κ (State.nbCmdMiss s i) := by
  unfold State.nbCmdMiss
  grind (gen := 30) (ematch := 30) only [← State.Quiet.bump, ← State.Quiet.nbRead, ← State.Quiet.nbResult, ← State.Quiet.nbWrite, ← State.Quiet.raise, ← State.Quiet.mk']

theorem State.Quiet.nbCmdSet {κ : Standing} {s₀ s : State} (hQ : s₀.Quiet κ s) (hm : κ.mem = false) (i : Nat) :
    s₀.Quiet κ (State.nbCmdSet s i) := by
  unfold State.nbCmdSet
  grind (gen := 30) (ematch := 30) only [← State.Quiet.nbRead, ← State.Quiet.nbResult, ← State.Quiet.nbWrite, ← State.Quiet.mk']

theorem State.Quiet.nbCmdPredict {κ : Standing} {s₀ s : State} (hQ : s₀.Quiet κ s) (i : Nat) :
    s₀.Quiet κ (State.nbCmdPredict s i) := by
  unfold State.nbCmdPredict
  grind (gen := 30) (ematch := 30) only [← State.Quiet.fresh, ← State.Quiet.nbRead, ← State.Quiet.nbResult, ← State.Quiet.set40, ← State.Quiet.setRg]

theorem State.Quiet.nbCmdTsrc {κ : Standing} {s₀ s : State} (hQ : s₀.Quiet κ s) (hm : κ.mem = false) (i : Nat) (on : Bool) :
    s₀.Quiet κ (State.nbCmdTsrc s i on) := by
  unfold State.nbCmdTsrc
  grind (gen := 30) (ematch := 30) only [← State.Quiet.nbRead, ← State.Quiet.nbResult, ← State.Quiet.nbWrite, ← State.Quiet.mk']

theorem State.Quiet.nbCmdClear {κ : Standing} {s₀ s : State} (hQ : s₀.Quiet κ s) (hm : κ.mem = false) (i : Nat) :
    s₀.Quiet κ (State.nbCmdClear s i) := by
  unfold State.nbCmdClear
  grind (gen := 30) (ematch := 30) only [← State.Quiet.nbResult, ← State.Quiet.ramWrite, ← State.Quiet.rpwClear]

theorem State.Quiet.nbCommand {κ : Standing} {s₀ s : State} (hQ : s₀.Quiet κ s) (hm : κ.mem = false) (op : Nat) (i : Nat) :
    s₀.Quiet κ (State.nbCommand s op i) := by
  unfold State.nbCommand
  grind (gen := 30) (ematch := 30) only [← State.Quiet.modSched, ← State.Quiet.nbCmdAdd, ← State.Quiet.nbCmdClear, ← State.Quiet.nbCmdFind, ← State.Quiet.nbCmdMiss, ← State.Quiet.nbCmdPredict, ← State.Quiet.nbCmdSet, ← State.Quiet.nbCmdTsrc, ← State.Quiet.nbResult, ← State.Quiet.put, ← State.Quiet.raise, ← State.Quiet.mk']

theorem State.Quiet.tableBase {κ : Standing} {s₀ s : State} (hQ : s₀.Quiet κ s) (a : Nat) (v : W20) :
    s₀.Quiet κ (State.tableBase s a v) := by
  unfold State.tableBase
  grind (gen := 30) (ematch := 30) only [← State.Quiet.raise, ← State.Quiet.setRg]

theorem State.Quiet.nbtSize {κ : Standing} {s₀ s : State} (hQ : s₀.Quiet κ s) (v : W20) :
    s₀.Quiet κ (State.nbtSize s v) := by
  unfold State.nbtSize
  grind (gen := 30) (ematch := 30) only [← State.Quiet.raise, ← State.Quiet.setRg]

theorem State.Quiet.modPower {κ : Standing} {s₀ s : State} (hQ : s₀.Quiet κ s) (hp : κ.power = false) (f : Power → Power) :
    s₀.Quiet κ (State.modPower s f) := by
  exact hQ.withPower hp _

theorem State.Quiet.wakeCauses {κ : Standing} {s₀ s : State} (hQ : s₀.Quiet κ s) (l : List Field) :
    s₀.Quiet κ (State.wakeCauses s l) := by
  unfold State.wakeCauses
  grind (gen := 30) (ematch := 30) only [← State.Quiet.put, ← State.Quiet.foldl]

theorem State.Quiet.cancelEntry {κ : Standing} {s₀ s : State} (hQ : s₀.Quiet κ s) (wake : Bool) :
    s₀.Quiet κ (State.cancelEntry s wake) := by
  unfold State.cancelEntry
  grind (gen := 30) (ematch := 30) only [← State.Quiet.put]

theorem State.Quiet.pwrCtl {κ : Standing} {s₀ s : State} (hQ : s₀.Quiet κ s) (hp : κ.power = false) (v : W20) :
    s₀.Quiet κ (State.pwrCtl s v) := by
  unfold State.pwrCtl
  grind (gen := 30) (ematch := 30) only [← State.Quiet.cancelEntry, ← State.Quiet.modPower, ← State.Quiet.put, ← State.Quiet.mk']

theorem State.Quiet.enterSleep {κ : Standing} {s₀ s : State} (hQ : s₀.Quiet κ s) (hp : κ.power = false) (n : Nat) :
    s₀.Quiet κ (State.enterSleep s n) := by
  unfold State.enterSleep
  grind (gen := 30) (ematch := 30) only [← State.Quiet.pwrCtl]

theorem State.Quiet.goE0 {κ : Standing} {s₀ s : State} (hQ : s₀.Quiet κ s) (hp : κ.power = false) :
    s₀.Quiet κ (State.goE0 s) := by
  unfold State.goE0
  grind (gen := 30) (ematch := 30) only [← State.Quiet.chordSleep, ← State.Quiet.modPower, ← State.Quiet.put, ← State.Quiet.mk']

theorem State.Quiet.bankLost {κ : Standing} {s₀ s : State} (hQ : s₀.Quiet κ s) (hm : κ.mem = false) (b : Nat) :
    s₀.Quiet κ (State.bankLost s b) := by
  exact hQ.written hm (fun hw => ⟨hw.regs, hw.sram.filter _, hw.pram, hw.loft, tabFill_wf _ _ _ hw.memChk, hw.flash⟩) rfl rfl rfl rfl

theorem State.Quiet.banksLost {κ : Standing} {s₀ s : State} (hQ : s₀.Quiet κ s) (hm : κ.mem = false) :
    s₀.Quiet κ (State.banksLost s) := by
  unfold State.banksLost
  grind (gen := 30) (ematch := 30) only [← State.Quiet.bankLost, ← State.Quiet.foldl]

theorem State.Quiet.wakeNow {κ : Standing} {s₀ s : State} (hQ : s₀.Quiet κ s) (hp : κ.power = false) (l : List Field) :
    s₀.Quiet κ (State.wakeNow s l) := by
  unfold State.wakeNow
  grind (gen := 30) (ematch := 30) only [← State.Quiet.modPower, ← State.Quiet.put, ← State.Quiet.wakeCauses, ← State.Quiet.mk']

theorem State.Quiet.orbitKeep {κ : Standing} {s₀ s : State} (hQ : s₀.Quiet κ s) :
    s₀.Quiet κ (State.orbitKeep s) := by
  unfold State.orbitKeep
  grind (gen := 30) (ematch := 30) only [← State.Quiet.put, ← State.Quiet.foldl, ← State.Quiet.mk']

theorem State.Quiet.wakeTake {κ : Standing} {s₀ s : State} (hQ : s₀.Quiet κ s) (hp : κ.power = false) (l : List Field) :
    s₀.Quiet κ (State.wakeTake s l) := by
  unfold State.wakeTake
  grind (gen := 30) (ematch := 30) only [← State.Quiet.cancelEntry, ← State.Quiet.orbitKeep, ← State.Quiet.stallSync, ← State.Quiet.wakeNow, ← State.Quiet.mk']

theorem State.Quiet.wakeEdges {κ : Standing} {s₀ s : State} (hQ : s₀.Quiet κ s) (hp : κ.power = false) :
    s₀.Quiet κ (State.wakeEdges s) := by
  unfold State.wakeEdges
  grind (gen := 30) (ematch := 30) only [← State.Quiet.modPower, ← State.Quiet.wakeTake, ← State.Quiet.mk']

theorem State.Quiet.dormantWake {κ : Standing} {s₀ s : State} (hQ : s₀.Quiet κ s) (hm : κ.mem = false) (hc : κ.cores = false) (hp : κ.power = false) (l : List Field) :
    s₀.Quiet κ (State.dormantWake s l) := by
  unfold State.dormantWake
  grind (gen := 30) (ematch := 30) only [← State.Quiet.coldReset, ← State.Quiet.wakeCauses]

theorem State.Quiet.dormantIn {κ : Standing} {s₀ s : State} (hQ : s₀.Quiet κ s) (hc : κ.cores = false) :
    s₀.Quiet κ (State.dormantIn s) := by
  unfold State.dormantIn
  grind (gen := 30) (ematch := 30) only [← State.Quiet.actClear, ← State.Quiet.modManger, ← State.Quiet.slotsClear, ← State.Quiet.foldl, ← State.Quiet.mk']

theorem State.Quiet.refRetry {κ : Standing} {s₀ s : State} (hQ : s₀.Quiet κ s) (hp : κ.power = false) :
    s₀.Quiet κ (State.refRetry s) := by
  unfold State.refRetry
  grind (gen := 30) (ematch := 30) only [← State.Quiet.modPower, ← State.Quiet.mk']

theorem State.Quiet.clkCtl {κ : Standing} {s₀ s : State} (hQ : s₀.Quiet κ s) (hp : κ.power = false) (v : W20) :
    s₀.Quiet κ (State.clkCtl s v) := by
  unfold State.clkCtl
  grind (gen := 30) (ematch := 30) only [← State.Quiet.refRetry, ← State.Quiet.setRg]

theorem State.Quiet.slowSource {κ : Standing} {s₀ s : State} (hQ : s₀.Quiet κ s) (hp : κ.power = false) (rc : Bool) :
    s₀.Quiet κ (State.slowSource s rc) := by
  unfold State.slowSource
  grind (gen := 30) (ematch := 30) only [← State.Quiet.modPower, ← State.Quiet.put, ← State.Quiet.mk']

theorem State.Quiet.slkCfg {κ : Standing} {s₀ s : State} (hQ : s₀.Quiet κ s) (hp : κ.power = false) (v : W20) :
    s₀.Quiet κ (State.slkCfg s v) := by
  unfold State.slkCfg
  grind (gen := 30) (ematch := 30) only [← State.Quiet.put, ← State.Quiet.slowSource]

end Sys2Proof.Machine
end

section
/-! SUPPORT. What each operation leaves standing, continued: operations 601 to 728 of the model, callees before callers. -/

set_option Elab.async false

namespace Sys2Proof.Machine

theorem State.Quiet.winEdge {κ : Standing} {s₀ s : State} (hQ : s₀.Quiet κ s) (hp : κ.power = false) :
    s₀.Quiet κ (State.winEdge s) := by
  unfold State.winEdge
  grind (gen := 30) (ematch := 30) only [← State.Quiet.modPower, ← State.Quiet.mk']

theorem State.Quiet.rateWrite {κ : Standing} {s₀ s : State} (hQ : s₀.Quiet κ s) (hp : κ.power = false) (a : Nat) (v : W20) :
    s₀.Quiet κ (State.rateWrite s a v) := by
  unfold State.rateWrite
  grind (gen := 30) (ematch := 30) only [← State.Quiet.modPower, ← State.Quiet.setRg, ← State.Quiet.mk']

theorem State.Quiet.carryMesh {κ : Standing} {s₀ s : State} (hQ : s₀.Quiet κ s) (hp : κ.power = false) :
    s₀.Quiet κ (State.carryMesh s) := by
  unfold State.carryMesh
  grind (gen := 30) (ematch := 30) only [← State.Quiet.meshMove, ← State.Quiet.modPower, ← State.Quiet.mk']

theorem State.Quiet.modOrbit {κ : Standing} {s₀ s : State} (hQ : s₀.Quiet κ s) (hp : κ.power = false) (f : OrbitRun → OrbitRun) :
    s₀.Quiet κ (State.modOrbit s f) := by
  unfold State.modOrbit
  grind (gen := 30) (ematch := 30) only [← State.Quiet.modPower, ← State.Quiet.mk']

theorem State.Quiet.orbitOutcome {κ : Standing} {s₀ s : State} (hQ : s₀.Quiet κ s) (hp : κ.power = false) (o : OrbitRun) (hit : Bool) :
    s₀.Quiet κ (State.orbitOutcome s o hit) := by
  unfold State.orbitOutcome
  grind (gen := 30) (ematch := 30) only [← State.Quiet.modOrbit, ← State.Quiet.orbitKeep, ← State.Quiet.put, ← State.Quiet.stallSync, ← State.Quiet.wakeNow, ← State.Quiet.mk']

theorem State.Quiet.alarmEdge {κ : Standing} {s₀ s : State} (hQ : s₀.Quiet κ s) (k : Nat) (skipped : Bool) :
    s₀.Quiet κ (State.alarmEdge s k skipped) := by
  unfold State.alarmEdge
  grind (gen := 30) (ematch := 30) only [← State.Quiet.mk']

theorem State.Quiet.rtcCount {κ : Standing} {s₀ s : State} (hQ : s₀.Quiet κ s) :
    s₀.Quiet κ (State.rtcCount s) := by
  unfold State.rtcCount
  grind (gen := 30) (ematch := 30) only [← State.Quiet.put, ← State.Quiet.raise, ← State.Quiet.mk']

theorem State.Quiet.rtcApply {κ : Standing} {s₀ s : State} (hQ : s₀.Quiet κ s) (sub : Option W20) (time : Option W20) (date : Option W20) :
    s₀.Quiet κ (State.rtcApply s sub time date) := by
  unfold State.rtcApply
  grind (gen := 30) (ematch := 30) only [← State.Quiet.put, ← State.Quiet.mk']

theorem State.Quiet.rtcMove {κ : Standing} {s₀ s : State} (hQ : s₀.Quiet κ s) (n : Int) :
    s₀.Quiet κ (State.rtcMove s n) := by
  unfold State.rtcMove
  grind (gen := 30) (ematch := 30) only [← State.Quiet.put, ← State.Quiet.raise, ← State.Quiet.mk']

theorem State.Quiet.rtcEdge {κ : Standing} {s₀ s : State} (hQ : s₀.Quiet κ s) :
    s₀.Quiet κ (State.rtcEdge s) := by
  unfold State.rtcEdge
  grind (gen := 30) (ematch := 30) only [← State.Quiet.alarmEdge, ← State.Quiet.put, ← State.Quiet.rtcApply, ← State.Quiet.rtcCount, ← State.Quiet.rtcMove, ← State.Quiet.mk']

theorem State.Quiet.rtcPlain {κ : Standing} {s₀ s : State} (hQ : s₀.Quiet κ s) :
    s₀.Quiet κ (State.rtcPlain s) := by
  unfold State.rtcPlain
  grind (gen := 30) (ematch := 30) only [← State.Quiet.rtcEdge]

theorem State.Quiet.rtcSnap {κ : Standing} {s₀ s : State} (hQ : s₀.Quiet κ s) :
    s₀.Quiet κ (State.rtcSnap s) := by
  unfold State.rtcSnap
  grind (gen := 30) (ematch := 30) only [← State.Quiet.setRg]

theorem State.Quiet.rtcCmd {κ : Standing} {s₀ s : State} (hQ : s₀.Quiet κ s) (sub : Bool) (time : Bool) (date : Bool) :
    s₀.Quiet κ (State.rtcCmd s sub time date) := by
  unfold State.rtcCmd
  grind (gen := 30) (ematch := 30) only [← State.Quiet.put, ← State.Quiet.raise, ← State.Quiet.mk']

theorem State.Quiet.rtcShiftWrite {κ : Standing} {s₀ s : State} (hQ : s₀.Quiet κ s) (n : BitVec 16) :
    s₀.Quiet κ (State.rtcShiftWrite s n) := by
  unfold State.rtcShiftWrite
  grind (gen := 30) (ematch := 30) only [← State.Quiet.put, ← State.Quiet.raise, ← State.Quiet.mk']

theorem State.Quiet.backupApply {κ : Standing} {s₀ s : State} (hQ : s₀.Quiet κ s) (a : Nat) (v : W20) :
    s₀.Quiet κ (State.backupApply s a v) := by
  unfold State.backupApply
  grind (gen := 30) (ematch := 30) only [← State.Quiet.latchReqs, ← State.Quiet.setRg, ← State.Quiet.mk']

theorem State.Quiet.backupNext {κ : Standing} {s₀ s : State} (hQ : s₀.Quiet κ s) :
    s₀.Quiet κ (State.backupNext s) := by
  unfold State.backupNext
  grind (gen := 30) (ematch := 30) only [← State.Quiet.backupApply, ← State.Quiet.mk']

theorem State.Quiet.backupFlush {κ : Standing} {s₀ s : State} (hQ : s₀.Quiet κ s) :
    s₀.Quiet κ (State.backupFlush s) := by
  unfold State.backupFlush
  grind (gen := 30) (ematch := 30) only [← State.Quiet.backupApply, ← State.Quiet.foldl, ← State.Quiet.mk']

theorem State.Quiet.bkpInvalidate {κ : Standing} {s₀ s : State} (hQ : s₀.Quiet κ s) :
    s₀.Quiet κ (State.bkpInvalidate s) := by
  unfold State.bkpInvalidate
  grind (gen := 30) (ematch := 30) only [← State.Quiet.put, ← State.Quiet.raise, ← State.Quiet.setRg, ← State.Quiet.foldl, ← State.Quiet.mk']

theorem State.Quiet.modTmr {κ : Standing} {s₀ s : State} (hQ : s₀.Quiet κ s) (i : Nat) (f : TimerH → TimerH) :
    s₀.Quiet κ (State.modTmr s i f) := by
  unfold State.modTmr
  grind (gen := 30) (ematch := 30) only [← State.Quiet.mk']

theorem State.Quiet.copyPreload {κ : Standing} {s₀ s : State} (hQ : s₀.Quiet κ s) (i : Nat) :
    s₀.Quiet κ (State.copyPreload s i) := by
  unfold State.copyPreload
  grind (gen := 30) (ematch := 30) only [← State.Quiet.modTmr, ← State.Quiet.put, ← State.Quiet.mk']

theorem State.Quiet.tmrFlag {κ : Standing} {s₀ s : State} (hQ : s₀.Quiet κ s) (wrap : Bool) (i : Nat) :
    s₀.Quiet κ (State.tmrFlag s wrap i) := by
  unfold State.tmrFlag
  grind (gen := 30) (ematch := 30) only [← State.Quiet.fire, ← State.Quiet.latchReqs, ← State.Quiet.put]

theorem State.Quiet.tmrZero {κ : Standing} {s₀ s : State} (hQ : s₀.Quiet κ s) (i : Nat) :
    s₀.Quiet κ (State.tmrZero s i) := by
  unfold State.tmrZero
  grind (gen := 30) (ematch := 30) only [← State.Quiet.put, ← State.Quiet.foldl]

theorem State.Quiet.chainStep {κ : Standing} {s₀ s : State} (hQ : s₀.Quiet κ s) (lo : Nat) :
    s₀.Quiet κ (State.chainStep s lo).1 := by
  unfold State.chainStep
  grind (gen := 30) (ematch := 30) only [← State.Quiet.copyPreload, ← State.Quiet.put, ← State.Quiet.tmrFlag, ← State.Quiet.foldl]

theorem State.Quiet.slaveReset {κ : Standing} {s₀ s : State} (hQ : s₀.Quiet κ s) (ago : Nat) (j : Nat) :
    s₀.Quiet κ (State.slaveReset s ago j) := by
  unfold State.slaveReset
  grind (gen := 30) (ematch := 30) only [← State.Quiet.modTmr, ← State.Quiet.put, ← State.Quiet.tmrZero, ← State.Quiet.mk']

theorem State.Quiet.slaveResets {κ : Standing} {s₀ s : State} (hQ : s₀.Quiet κ s) (on : Nat → Bool) :
    s₀.Quiet κ (State.slaveResets on s) := by
  unfold State.slaveResets
  grind (gen := 30) (ematch := 30) only [← State.Quiet.modTmr, ← State.Quiet.tmrZero, ← State.Quiet.foldl, ← State.Quiet.mk']

theorem State.Quiet.tmrStep {κ : Standing} {s₀ s : State} (hQ : s₀.Quiet κ s) (ago n lo : Nat) :
    s₀.Quiet κ (State.tmrStep ago n lo s) := by
  induction n generalizing s lo with
  | zero => exact hQ
  | succ n ih =>
    unfold State.tmrStep
    refine State.Quiet.foldl (hQ.chainStep lo) (fun u j hu => ?_)
    have hstep := @ih u hu j
    grind only [← State.Quiet.slaveReset]

theorem State.Quiet.tmrEdge {κ : Standing} {s₀ s : State} (hQ : s₀.Quiet κ s) (i : Nat) :
    s₀.Quiet κ (State.tmrEdge i s) := by
  unfold State.tmrEdge
  grind (gen := 30) (ematch := 30) only [← State.Quiet.tmrStep]

theorem State.Quiet.takeSteps {κ : Standing} {s₀ s : State} (hQ : s₀.Quiet κ s) (n i : Nat) :
    s₀.Quiet κ (State.takeSteps n i s) := by
  induction n generalizing s with
  | zero => exact hQ
  | succ n ih =>
    unfold State.takeSteps
    split
    · exact ih ((hQ.modTmr i _).put _ _)
    · exact hQ


theorem State.Quiet.catchUp {κ : Standing} {s₀ s : State} (hQ : s₀.Quiet κ s) (i : Nat) :
    s₀.Quiet κ (State.catchUp s i) := by
  unfold State.catchUp
  grind (gen := 30) (ematch := 30) only [← State.Quiet.takeSteps]

theorem State.Quiet.clockTimers {κ : Standing} {s₀ s : State} (hQ : s₀.Quiet κ s) (clk : Nat) (n : Nat) :
    s₀.Quiet κ (State.clockTimers clk n s) := by
  unfold State.clockTimers
  grind (gen := 30) (ematch := 30) only [← State.Quiet.catchUp, ← State.Quiet.modTmr, ← State.Quiet.foldl, ← State.Quiet.mk']

theorem State.Quiet.busTimers {κ : Standing} {s₀ s : State} (hQ : s₀.Quiet κ s) (n : Nat) :
    s₀.Quiet κ (State.busTimers s n) := by
  unfold State.busTimers
  grind (gen := 30) (ematch := 30) only [← State.Quiet.clockTimers, ← State.Quiet.slaveResets]

theorem State.Quiet.ownStep {κ : Standing} {s₀ s : State} (hQ : s₀.Quiet κ s) (lo : Nat) :
    s₀.Quiet κ (State.ownStep s lo) := by
  unfold State.ownStep
  grind (gen := 30) (ematch := 30) only [← State.Quiet.catchUp, ← State.Quiet.modTmr, ← State.Quiet.tmrStep, ← State.Quiet.mk']

theorem State.Quiet.tmrRun {κ : Standing} {s₀ s : State} (hQ : s₀.Quiet κ s) (i : Nat) :
    s₀.Quiet κ (State.tmrRun s i) := by
  unfold State.tmrRun
  grind (gen := 30) (ematch := 30) only [← State.Quiet.modTmr, ← State.Quiet.put, ← State.Quiet.mk']

theorem State.Quiet.tmrCtl {κ : Standing} {s₀ s : State} (hQ : s₀.Quiet κ s) (i : Nat) (v : W20) :
    s₀.Quiet κ (State.tmrCtl s i v) := by
  unfold State.tmrCtl
  grind (gen := 30) (ematch := 30) only [← State.Quiet.modTmr, ← State.Quiet.raise, ← State.Quiet.setRg, ← State.Quiet.mk']

theorem State.Quiet.tmrRead {κ : Standing} {s₀ s : State} (hQ : s₀.Quiet κ s) (i : Nat) :
    s₀.Quiet κ (State.tmrRead s i).2 := by
  unfold State.tmrRead
  grind (gen := 30) (ematch := 30) only [← State.Quiet.modTmr, ← State.Quiet.foldl, ← State.Quiet.mk']

theorem State.Quiet.tmrTopCmp {κ : Standing} {s₀ s : State} (hQ : s₀.Quiet κ s) (i : Nat) (cmp : Bool) (v : W20) :
    s₀.Quiet κ (State.tmrTopCmp s i cmp v) := by
  unfold State.tmrTopCmp
  grind (gen := 30) (ematch := 30) only [← State.Quiet.modTmr, ← State.Quiet.put, ← State.Quiet.setRg, ← State.Quiet.mk']

theorem State.Quiet.tmrEvent {κ : Standing} {s₀ s : State} (hQ : s₀.Quiet κ s) (i : Nat) :
    s₀.Quiet κ (State.tmrEvent s i) := by
  unfold State.tmrEvent
  grind (gen := 30) (ematch := 30) only [← State.Quiet.put, ← State.Quiet.setRg, ← State.Quiet.tmrEdge, ← State.Quiet.tmrRun, ← State.Quiet.tmrZero, ← State.Quiet.foldl, ← State.Quiet.mk']

theorem State.Quiet.gstart {κ : Standing} {s₀ s : State} (hQ : s₀.Quiet κ s) (v : W20) :
    s₀.Quiet κ (State.gstart s v) := by
  unfold State.gstart
  grind (gen := 30) (ematch := 30) only [← State.Quiet.put, ← State.Quiet.tmrRun, ← State.Quiet.foldl]

theorem State.Quiet.resetTimers {κ : Standing} {s₀ s : State} (hQ : s₀.Quiet κ s) :
    s₀.Quiet κ (State.resetTimers s) := by
  have h : s₀.Quiet κ { s with regs := s.regs.filter (fun e => e.1 / 0x1000 != 0xC4) } := hQ.trans
    ⟨fun hw => ⟨hw.regs.filter _, hw.sram, hw.pram, hw.loft, hw.memChk, hw.flash⟩, fun _ => ⟨rfl, rfl, rfl, rfl⟩, fun _ _ => rfl, fun _ => rfl, rfl, rfl⟩
  exact h.mk'

theorem State.Quiet.liveRead {κ : Standing} {s₀ s : State} (hQ : s₀.Quiet κ s) (p : Nat) :
    s₀.Quiet κ (State.liveRead s p).2 := by
  unfold State.liveRead
  grind (gen := 30) (ematch := 30) only [← State.Quiet.fresh]

theorem State.Quiet.regRead {κ : Standing} {s₀ s : State} (hQ : s₀.Quiet κ s) (a : Nat) :
    s₀.Quiet κ (State.regRead s a).2 := by
  have h1 := hQ.uartPop
  have h2 := hQ.trngRead
  have h3 := hQ.asnSnapshot
  have h4 := hQ.backupFlush.rtcSnap
  have h5 := hQ.backupFlush
  have h6 := fun r => hQ.gpioRead r
  have h7 := fun i => hQ.tmrRead i
  have h8 := fun p => hQ.snapshot p
  have h9 := fun p => hQ.liveRead p
  have h10 := fun c => hQ.loftGet c
  unfold State.regRead
  split_ifs
  · exact h1
  · exact h2
  · exact h3
  · exact h4
  · exact h5
  · exact h6 0
  · exact h6 1
  · split
    · exact h7 _
    · split
      · exact h8 _
      · split
        · exact h9 _
        · split
          · exact h10 _
          · exact hQ

theorem State.Quiet.imageRead {κ : Standing} {s₀ s : State} (hQ : s₀.Quiet κ s) (a : Nat) (n : Nat) :
    s₀.Quiet κ (State.imageRead s a n).2 := by
  have hall : ∀ (l : List Nat) (p : List Byte × State), s₀.Quiet κ p.2 → s₀.Quiet κ (l.foldl (fun (p : List Byte × State) r =>
      let (v, u) := p.2.regRead r
      (p.1 ++ tripleOf v ++ [0], u)) p).2 := fun l => by
    induction l with
    | nil => exact fun p hp => hp
    | cons r l ih => exact fun p hp => ih _ (hp.regRead r)
  unfold State.imageRead
  exact hall (groupsOf a n) ([], s) hQ

theorem State.Quiet.plainWrite {κ : Standing} {s₀ s : State} (hQ : s₀.Quiet κ s) (a : Nat) (v : W20) :
    s₀.Quiet κ (State.plainWrite s a v) := by
  unfold State.plainWrite
  grind (gen := 30) (ematch := 30) only [← State.Quiet.setRg, ← State.Quiet.mk']

theorem State.Quiet.writeMng {κ : Standing} {s₀ s : State} (hQ : s₀.Quiet κ s) (a : Nat) (v : W20) :
    s₀.Quiet κ (State.writeMng s a v) := by
  unfold State.writeMng
  grind (gen := 30) (ematch := 30) only [← State.Quiet.extWrite, ← State.Quiet.plainWrite, ← State.Quiet.writePool, ← State.Quiet.mk']

theorem State.Quiet.writeSys {κ : Standing} {s₀ s : State} (hQ : s₀.Quiet κ s) (hm : κ.mem = false) (hc : κ.cores = false) (hp : κ.power = false) (src : Source) (a : Nat) (v : W20) :
    s₀.Quiet κ (State.writeSys s src a v) := by
  unfold State.writeSys
  grind (gen := 30) (ematch := 30) only [← State.Quiet.clkCtl, ← State.Quiet.padWrite, ← State.Quiet.plainWrite, ← State.Quiet.pwrCtl, ← State.Quiet.rateWrite, ← State.Quiet.slkCfg, ← State.Quiet.sysRst]

theorem State.Quiet.writeFlt {κ : Standing} {s₀ s : State} (hQ : s₀.Quiet κ s) (hp : κ.power = false) (a : Nat) (v : W20) :
    s₀.Quiet κ (State.writeFlt s a v) := by
  unfold State.writeFlt
  grind (gen := 30) (ematch := 30) only [← State.Quiet.plainWrite, ← State.Quiet.release16, ← State.Quiet.spareCmd, ← State.Quiet.srcClear]

theorem State.Quiet.writeTmr {κ : Standing} {s₀ s : State} (hQ : s₀.Quiet κ s) (a : Nat) (v : W20) :
    s₀.Quiet κ (State.writeTmr s a v) := by
  unfold State.writeTmr
  grind (gen := 30) (ematch := 30) only [← State.Quiet.gstart, ← State.Quiet.plainWrite, ← State.Quiet.tmrCtl, ← State.Quiet.tmrTopCmp, ← State.Quiet.mk']

theorem State.Quiet.writeRtc {κ : Standing} {s₀ s : State} (hQ : s₀.Quiet κ s) (a : Nat) (v : W20) :
    s₀.Quiet κ (State.writeRtc s a v) := by
  unfold State.writeRtc
  grind (gen := 30) (ematch := 30) only [← State.Quiet.plainWrite, ← State.Quiet.rtcCmd, ← State.Quiet.rtcShiftWrite, ← State.Quiet.mk']

theorem State.Quiet.writeDma {κ : Standing} {s₀ s : State} (hQ : s₀.Quiet κ s) (hm : κ.mem = false) (a : Nat) (v : W20) :
    s₀.Quiet κ (State.writeDma s a v) := by
  unfold State.writeDma
  grind (gen := 30) (ematch := 30) only [← State.Quiet.dmaCtl, ← State.Quiet.dmaNext, ← State.Quiet.plainWrite, ← State.Quiet.mk']

theorem State.Quiet.writeCph {κ : Standing} {s₀ s : State} (hQ : s₀.Quiet κ s) (src : Source) (a : Nat) (v : W20) :
    s₀.Quiet κ (State.writeCph s src a v) := by
  unfold State.writeCph
  grind (gen := 30) (ematch := 30) only [← State.Quiet.cphSubmit, ← State.Quiet.plainWrite, ← State.Quiet.trCmd, ← State.Quiet.mk']

theorem State.Quiet.writeHpk {κ : Standing} {s₀ s : State} (hQ : s₀.Quiet κ s) (hm : κ.mem = false) (src : Source) (a : Nat) (v : W20) :
    s₀.Quiet κ (State.writeHpk s src a v) := by
  unfold State.writeHpk
  grind (gen := 30) (ematch := 30) only [← State.Quiet.fresh, ← State.Quiet.hpkCmd, ← State.Quiet.plainWrite, ← State.Quiet.trngRestart]

theorem State.Quiet.writeRfe {κ : Standing} {s₀ s : State} (hQ : s₀.Quiet κ s) (a : Nat) (v : W20) :
    s₀.Quiet κ (State.writeRfe s a v) := by
  unfold State.writeRfe
  grind (gen := 30) (ematch := 30) only [← State.Quiet.calWrite, ← State.Quiet.gainWrite, ← State.Quiet.paWrite, ← State.Quiet.plainWrite, ← State.Quiet.raise, ← State.Quiet.rfeCtl, ← State.Quiet.rxFracWrite]

theorem State.Quiet.writeStc {κ : Standing} {s₀ s : State} (hQ : s₀.Quiet κ s) (a : Nat) (v : W20) :
    s₀.Quiet κ (State.writeStc s a v) := by
  unfold State.writeStc
  grind (gen := 30) (ematch := 30) only [← State.Quiet.enWrite, ← State.Quiet.mapWrite, ← State.Quiet.plainWrite, ← State.Quiet.planWrite, ← State.Quiet.poolWrite, ← State.Quiet.stcGive, ← State.Quiet.mk']

theorem State.Quiet.writeStl {κ : Standing} {s₀ s : State} (hQ : s₀.Quiet κ s) (a : Nat) (v : W20) :
    s₀.Quiet κ (State.writeStl s a v) := by
  unfold State.writeStl
  grind (gen := 30) (ematch := 30) only [← State.Quiet.plainWrite, ← State.Quiet.stlCfg, ← State.Quiet.stlSyncHi]

theorem State.Quiet.writeFu {κ : Standing} {s₀ s : State} (hQ : s₀.Quiet κ s) (a : Nat) (v : W20) :
    s₀.Quiet κ (State.writeFu s a v) := by
  unfold State.writeFu
  grind (gen := 30) (ematch := 30) only [← State.Quiet.decCtl, ← State.Quiet.plainWrite, ← State.Quiet.raise, ← State.Quiet.txCtl, ← State.Quiet.txSyncHi, ← State.Quiet.mk']

theorem State.Quiet.writeSch {κ : Standing} {s₀ s : State} (hQ : s₀.Quiet κ s) (hm : κ.mem = false) (a : Nat) (v : W20) :
    s₀.Quiet κ (State.writeSch s a v) := by
  have h1 := hQ.schCtl v
  have h2 := hQ.slotLenWrite v
  have h3 := hQ.syncOfsWrite v
  have h4 := hQ.hopLenWrite v
  have h5 := hQ.tableBase a v
  have h6 := hQ.nbtSize v
  have h7 := hQ.nbCommand hm (v.toNat / 2 ^ 16) (v.toNat % 2 ^ 11)
  have h8 := fun k => hQ.hopWrite k v
  have h9 := fun k => hQ.txReg k a v SCH_FLAGS_CFG_REFUSED
  have h10 := hQ.plainWrite a v
  unfold State.writeSch
  refine State.Quiet.ite h1 (State.Quiet.ite h2 (State.Quiet.ite h3 (State.Quiet.ite h4 (State.Quiet.ite (hQ.modSched _) (State.Quiet.ite (hQ.modSched _)
    (State.Quiet.ite h5 (State.Quiet.ite h6 (State.Quiet.ite h7 ?_))))))))
  split
  · exact h8 _
  · split
    · exact h9 _
    · exact h10

theorem State.Quiet.writeLnk {κ : Standing} {s₀ s : State} (hQ : s₀.Quiet κ s) (hm : κ.mem = false) (a : Nat) (v : W20) :
    s₀.Quiet κ (State.writeLnk s a v) := by
  unfold State.writeLnk
  grind (gen := 30) (ematch := 30) only [← State.Quiet.foldCfg, ← State.Quiet.keymapSet, ← State.Quiet.plainWrite, ← State.Quiet.rcCopy, ← State.Quiet.relayCfg, ← State.Quiet.relayPool, ← State.Quiet.tableBase, ← State.Quiet.writeSch, ← State.Quiet.mk']

theorem State.Quiet.writeChd {κ : Standing} {s₀ s : State} (hQ : s₀.Quiet κ s) (a : Nat) (v : W20) :
    s₀.Quiet κ (State.writeChd s a v) := by
  unfold State.writeChd
  grind (gen := 30) (ematch := 30) only [← State.Quiet.chdCtl, ← State.Quiet.chdRing, ← State.Quiet.ctxCtl, ← State.Quiet.ctxReg, ← State.Quiet.plainWrite, ← State.Quiet.mk']

theorem State.Quiet.writeYrd {κ : Standing} {s₀ s : State} (hQ : s₀.Quiet κ s) (hm : κ.mem = false) (a : Nat) (v : W20) :
    s₀.Quiet κ (State.writeYrd s a v) := by
  unfold State.writeYrd
  grind (gen := 30) (ematch := 30) only [← State.Quiet.plainWrite, ← State.Quiet.yardCfgWrite, ← State.Quiet.yardCtl, ← State.Quiet.yardPprWrite]

theorem State.Quiet.hspRing {κ : Standing} {s₀ s : State} (hQ : s₀.Quiet κ s) (v : W20) :
    s₀.Quiet κ (State.hspRing s v) := by
  unfold State.hspRing
  grind (gen := 30) (ematch := 30) only [← State.Quiet.setRg]

theorem State.Quiet.hspH2c {κ : Standing} {s₀ s : State} (hQ : s₀.Quiet κ s) (v : W20) (host : Bool) :
    s₀.Quiet κ (State.hspH2c s v host) := by
  unfold State.hspH2c
  grind (gen := 30) (ematch := 30) only [← State.Quiet.fire, ← State.Quiet.setRg]

theorem State.Quiet.writeIo {κ : Standing} {s₀ s : State} (hQ : s₀.Quiet κ s) (src : Source) (a : Nat) (v : W20) :
    s₀.Quiet κ (State.writeIo s src a v) := by
  have h1 := hQ.plainWrite a v
  have h2 := hQ.hspRing v
  have h3 := hQ.hspH2c v (src == .host)
  have h4 := hQ.uartPush (v.setWidth 8)
  have h5 := hQ.uartCtrl v
  have h6 := h1.uartSettle s
  have h7 := fun r m w => hQ.gpioWrite r m w
  have h8 := fun n => hQ.gpioCfg n v
  unfold State.writeIo
  refine State.Quiet.ite (State.Quiet.ite h1 hQ) (State.Quiet.ite h2 (State.Quiet.ite h3 (State.Quiet.ite (hQ.setRg _ _) (State.Quiet.ite h4
    (State.Quiet.ite h5 (State.Quiet.ite h6 ?_))))))
  split
  · exact h7 _ _ _
  · split
    · exact h7 _ _ _
    · split
      · exact h7 _ _ _
      · split
        · exact h8 _
        · exact h1

theorem State.Quiet.writeCore {κ : Standing} {s₀ s : State} (hQ : s₀.Quiet κ s) (hm : κ.mem = false) (hc : κ.cores = false) (a : Nat) (v : W20) :
    s₀.Quiet κ (State.writeCore s a v) := by
  unfold State.writeCore
  grind (gen := 30) (ematch := 30) only [← State.Quiet.ccRun, ← State.Quiet.loftPut, ← State.Quiet.plainWrite]

theorem State.Quiet.writeKmb {κ : Standing} {s₀ s : State} (hQ : s₀.Quiet κ s) (hc : κ.cores = false) (src : Source) (a : Nat) (v : W20) :
    s₀.Quiet κ (State.writeKmb s src a v) := by
  unfold State.writeKmb
  grind (gen := 30) (ematch := 30) only [← State.Quiet.areaWrite, ← State.Quiet.declare, ← State.Quiet.orderWrite, ← State.Quiet.plainWrite, ← State.Quiet.updCmd, ← State.Quiet.mk']

theorem State.Quiet.regWrite {κ : Standing} {s₀ s : State} (hQ : s₀.Quiet κ s) (hm : κ.mem = false) (hc : κ.cores = false) (hp : κ.power = false) (src : Source) (a : Nat) (v : W20) :
    s₀.Quiet κ (State.regWrite s src a v) := by
  unfold State.regWrite
  grind (gen := 30) (ematch := 30) only [← State.Quiet.flashCmd, ← State.Quiet.latWrite, ← State.Quiet.latchReqs, ← State.Quiet.plainWrite, ← State.Quiet.writeChd, ← State.Quiet.writeCore, ← State.Quiet.writeCph, ← State.Quiet.writeDma, ← State.Quiet.writeFlt, ← State.Quiet.writeFu, ← State.Quiet.writeHpk, ← State.Quiet.writeIo, ← State.Quiet.writeKmb, ← State.Quiet.writeLnk, ← State.Quiet.writeMng, ← State.Quiet.writeRfe, ← State.Quiet.writeRtc, ← State.Quiet.writeStc, ← State.Quiet.writeStl, ← State.Quiet.writeSys, ← State.Quiet.writeTmr, ← State.Quiet.writeYrd, ← State.Quiet.mk']

theorem State.Quiet.engineRead {κ : Standing} {s₀ s : State} (hQ : s₀.Quiet κ s) (cls : Nat) (a : Nat) (n : Nat) :
    s₀.Quiet κ (State.engineRead s cls a n).2 := by
  unfold State.engineRead
  grind (gen := 30) (ematch := 30) only [← State.Quiet.imageRead, ← State.Quiet.ramRead, ← State.Quiet.yardEnqueue, ← State.Quiet.mk']

theorem State.Quiet.dmaIrq {κ : Standing} {s₀ s : State} (hQ : s₀.Quiet κ s) (n : Nat) (irq : Bool) :
    s₀.Quiet κ (State.dmaIrq s n irq) := by
  unfold State.dmaIrq
  grind (gen := 30) (ematch := 30) only [← State.Quiet.fire, ← State.Quiet.raise]

theorem State.Quiet.dmaGoOn {κ : Standing} {s₀ s : State} (hQ : s₀.Quiet κ s) (n : Nat) (d : DmaDesc) :
    s₀.Quiet κ (State.dmaGoOn s n d) := by
  unfold State.dmaGoOn
  grind (gen := 30) (ematch := 30) only [← State.Quiet.dmaEnd, ← State.Quiet.put, ← State.Quiet.setDesc, ← State.Quiet.setRg]

theorem State.Quiet.dmaTake {κ : Standing} {s₀ s : State} (hQ : s₀.Quiet κ s) (hm : κ.mem = false) (n : Nat) (a : Nat) (d : DmaDesc) :
    s₀.Quiet κ (State.dmaTake s n a d) := by
  unfold State.dmaTake
  grind (gen := 30) (ematch := 30) only [← State.Quiet.bump, ← State.Quiet.dmaClose, ← State.Quiet.dmaEnd, ← State.Quiet.dmaGoOn, ← State.Quiet.dmaIrq, ← State.Quiet.put, ← State.Quiet.rangeCheck, ← State.Quiet.setDesc]

theorem State.Quiet.dmaFetch {κ : Standing} {s₀ s : State} (hQ : s₀.Quiet κ s) (hm : κ.mem = false) (n : Nat) :
    s₀.Quiet κ (State.dmaFetch s n) := by
  unfold State.dmaFetch
  grind (gen := 30) (ematch := 30) only [← State.Quiet.dmaEnd, ← State.Quiet.dmaStop, ← State.Quiet.dmaTake, ← State.Quiet.ramRead, ← State.Quiet.mk']

theorem State.Quiet.dmaServe {κ : Standing} {s₀ s : State} (hQ : s₀.Quiet κ s) (n : Nat) :
    s₀.Quiet κ (State.dmaServe s n) := by
  unfold State.dmaServe
  grind (gen := 30) (ematch := 30) only [← State.Quiet.modDma, ← State.Quiet.mk']

theorem State.Quiet.credTake {κ : Standing} {s₀ s : State} (hQ : s₀.Quiet κ s) (c : Credit) :
    s₀.Quiet κ (State.credTake s c) := by
  unfold State.credTake
  grind (gen := 30) (ematch := 30) only [← State.Quiet.credCheck, ← State.Quiet.modDma, ← State.Quiet.mk']

theorem State.Quiet.chunkRead {κ : Standing} {s₀ s : State} (hQ : s₀.Quiet κ s) (hm : κ.mem = false) (n : Nat) (d : DmaDesc) :
    s₀.Quiet κ (State.chunkRead s n d) := by
  unfold State.chunkRead
  grind (gen := 30) (ematch := 30) only [← State.Quiet.credTake, ← State.Quiet.dmaStop, ← State.Quiet.engineRead, ← State.Quiet.setDesc, ← State.Quiet.mk']

theorem State.Quiet.blockRead {κ : Standing} {s₀ s : State} (hQ : s₀.Quiet κ s) (hm : κ.mem = false) (n : Nat) (q : Fin 5) (x : Xfer) (l : List Xfer) :
    s₀.Quiet κ (State.blockRead s n q x l) := by
  unfold State.blockRead
  grind (gen := 30) (ematch := 30) only [← State.Quiet.credTake, ← State.Quiet.dmaStop, ← State.Quiet.engineRead, ← State.Quiet.modBlk, ← State.Quiet.readSweep, ← State.Quiet.mk']

theorem State.Quiet.blockChunk {κ : Standing} {s₀ s : State} (hQ : s₀.Quiet κ s) (hm : κ.mem = false) (n : Nat) :
    s₀.Quiet κ (State.blockChunk s n) := by
  unfold State.blockChunk
  grind (gen := 30) (ematch := 30) only [← State.Quiet.blockRead, ← State.Quiet.credTake, ← State.Quiet.dmaStop, ← State.Quiet.modBlk, ← State.Quiet.mk']

theorem State.Quiet.dmaPlaced {κ : Standing} {s₀ s : State} (hQ : s₀.Quiet κ s) (n : Nat) (len : Nat) (hop : Nat) :
    s₀.Quiet κ (State.dmaPlaced s n len hop) := by
  unfold State.dmaPlaced
  grind (gen := 30) (ematch := 30) only [← State.Quiet.dmaCount, ← State.Quiet.modDma, ← State.Quiet.mk']

theorem State.Quiet.engineWrite {κ : Standing} {s₀ s : State} (hQ : s₀.Quiet κ s) (hm : κ.mem = false) (c : Credit) (a : Nat) (l : List Byte) :
    s₀.Quiet κ (State.engineWrite s c a l).1 := by
  unfold State.engineWrite
  grind (gen := 30) (ematch := 30) only [← State.Quiet.dmaPlaced, ← State.Quiet.modDma, ← State.Quiet.ramWrite, ← State.Quiet.yardEnqueue, ← State.Quiet.mk']

theorem State.Quiet.groupsWrite {κ : Standing} {s₀ s : State} (hQ : s₀.Quiet κ s) (hm : κ.mem = false) (hc : κ.cores = false) (hp : κ.power = false) (down : Bool) (c : Credit) (a : Nat) (l : List Byte) (carry : List Byte) :
    s₀.Quiet κ (State.groupsWrite s down c a l carry).1 := by
  unfold State.groupsWrite
  grind (gen := 30) (ematch := 30) only [← State.Quiet.dmaPlaced, ← State.Quiet.regWrite, ← State.Quiet.foldl]

theorem State.Quiet.piecesWrite {κ : Standing} {s₀ s : State} (hQ : s₀.Quiet κ s) (hm : κ.mem = false) (c : Credit) (l : List (Nat × List Byte)) :
    s₀.Quiet κ (State.piecesWrite c l s).1 := by
  induction l generalizing s with
  | nil => exact hQ
  | cons x r ih =>
    have he := hQ.engineWrite hm c x.1 x.2
    unfold State.piecesWrite
    split
    · next h => exact ih (by rw [h] at he; exact he)
    · next h => rw [h] at he; exact he

theorem State.Quiet.fixedWrite {κ : Standing} {s₀ s : State} (hQ : s₀.Quiet κ s) (hm : κ.mem = false) (hc : κ.cores = false) (hp : κ.power = false) (c : Credit) (a : Nat) (l : List Byte) :
    s₀.Quiet κ (State.fixedWrite s c a l).1 := by
  unfold State.fixedWrite
  grind (gen := 30) (ematch := 30) only [← State.Quiet.dmaPlaced, ← State.Quiet.piecesWrite, ← State.Quiet.regWrite, ← State.Quiet.foldl]

theorem State.Quiet.creditWrite {κ : Standing} {s₀ s : State} (hQ : s₀.Quiet κ s) (hm : κ.mem = false) (hc : κ.cores = false) (hp : κ.power = false) (c : Credit) (l : List Byte) :
    s₀.Quiet κ (State.creditWrite s c l).1 := by
  unfold State.creditWrite
  grind (gen := 30) (ematch := 30) only [← State.Quiet.fixedWrite, ← State.Quiet.groupsWrite, ← State.Quiet.piecesWrite, ← State.Quiet.setDesc, ← State.Quiet.mk']

theorem State.Quiet.dmaBarrier {κ : Standing} {s₀ s : State} (hQ : s₀.Quiet κ s) (n : Nat) :
    s₀.Quiet κ (State.dmaBarrier s n) := by
  unfold State.dmaBarrier
  grind (gen := 30) (ematch := 30) only [← State.Quiet.put, ← State.Quiet.mk']

theorem State.Quiet.dmaTimeout {κ : Standing} {s₀ s : State} (hQ : s₀.Quiet κ s) (hm : κ.mem = false) (id : Nat) :
    s₀.Quiet κ (State.dmaTimeout s id) := by
  unfold State.dmaTimeout
  grind (gen := 30) (ematch := 30) only [← State.Quiet.dmaStop, ← State.Quiet.modDma, ← State.Quiet.mk']

theorem State.Quiet.gateRead {κ : Standing} {s₀ s : State} (hQ : s₀.Quiet κ s) (c : CoreId) (g : Nat) (a : Nat) (n : Nat) :
    s₀.Quiet κ (State.gateRead s c g a n).2.2 := by
  have h := hQ.wideRead 2 (s.gateAddr g a) n
  obtain ⟨f, hf⟩ : ∃ f, f = @State.gateRead := ⟨_, rfl⟩
  generalize hr : State.gateRead s c g a n = p
  rw [← hf] at hr
  delta State.gateRead at hf
  subst hf
  beta_reduce at hr
  generalize s.gateFault g false (swPriv (s.core c).sw) a n = k at *
  generalize s.wideRead 2 (s.gateAddr g a) n = z at *
  obtain ⟨e, d, t⟩ := z
  cases k <;> subst hr
  · exact h
  · exact hQ

theorem State.Quiet.gateWrite {κ : Standing} {s₀ s : State} (hQ : s₀.Quiet κ s) (hm : κ.mem = false) (c : CoreId) (g : Nat) (a : Nat) (bs : List Byte) :
    s₀.Quiet κ (State.gateWrite s c g a bs).2 := by
  have h := hQ.wideWrite hm 2 (s.gateAddr g a) bs
  obtain ⟨f, hf⟩ : ∃ f, f = @State.gateWrite := ⟨_, rfl⟩
  generalize hr : State.gateWrite s c g a bs = p
  rw [← hf] at hr
  delta State.gateWrite at hf
  subst hf
  beta_reduce at hr
  generalize s.gateFault g true (swPriv (s.core c).sw) a bs.length = k at *
  generalize s.wideWrite 2 (s.gateAddr g a) bs = z at *
  obtain ⟨e, t⟩ := z
  cases k <;> subst hr
  · exact h
  · exact hQ

theorem State.Quiet.storeLand {κ : Standing} {s₀ s : State} (hQ : s₀.Quiet κ s) (hm : κ.mem = false) (hc : κ.cores = false) (hp : κ.power = false) (c : CoreId) (st : Store) :
    s₀.Quiet κ (State.storeLand s c st) := by
  unfold State.storeLand
  grind (gen := 30) (ematch := 30) only [← State.Quiet.ramWrite, ← State.Quiet.regWrite, ← State.Quiet.mk']

theorem State.Quiet.coreResetDue {κ : Standing} {s₀ s : State} (hQ : s₀.Quiet κ s) (hc : κ.cores = false) (c : CoreId) :
    s₀.Quiet κ (State.coreResetDue s c) := by
  unfold State.coreResetDue
  grind (gen := 30) (ematch := 30) only [← State.Quiet.coreResetNow]

theorem State.Quiet.drainOne {κ : Standing} {s₀ s : State} (hQ : s₀.Quiet κ s) (hm : κ.mem = false) (hc : κ.cores = false) (hp : κ.power = false) (c : CoreId) :
    s₀.Quiet κ (State.drainOne s c) := by
  unfold State.drainOne
  grind (gen := 30) (ematch := 30) only [← State.Quiet.backupFlush, ← State.Quiet.coreResetDue, ← State.Quiet.modCore, ← State.Quiet.storeLand, ← State.Quiet.mk']

theorem State.Quiet.drain {κ : Standing} {s₀ s : State} (hQ : s₀.Quiet κ s) (hm : κ.mem = false) (hc : κ.cores = false) (hp : κ.power = false) (c : CoreId) (n : Nat) :
    s₀.Quiet κ (s.drain c n) := by
  induction n generalizing s with
  | zero => exact hQ
  | succ n ih => exact ih (hQ.drainOne hm hc hp c)

theorem State.Quiet.drainAll {κ : Standing} {s₀ s : State} (hQ : s₀.Quiet κ s) (hm : κ.mem = false) (hc : κ.cores = false) (hp : κ.power = false) (c : CoreId) :
    s₀.Quiet κ (State.drainAll s c) := by
  unfold State.drainAll
  grind (gen := 30) (ematch := 30) only [← State.Quiet.drain]

theorem State.Quiet.loadBytes {κ : Standing} {s₀ s : State} (hQ : s₀.Quiet κ s) (c : CoreId) (a : Nat) (n : Nat) :
    s₀.Quiet κ (State.loadBytes s c a n).2.2 := by
  unfold State.loadBytes
  grind (gen := 30) (ematch := 30) only [← State.Quiet.gateRead, ← State.Quiet.imageRead, ← State.Quiet.ramRead, ← State.Quiet.mk']

theorem State.Quiet.load {κ : Standing} {s₀ s : State} (hQ : s₀.Quiet κ s) (hm : κ.mem = false) (hc : κ.cores = false) (hp : κ.power = false) (c : CoreId) (words : Nat) (a : W20) (n : Nat) (f : CoreSt → List Byte → CoreSt) :
    s₀.Quiet κ (State.load s c words a n f) := by
  unfold State.load
  grind (gen := 30) (ematch := 30) only [← State.Quiet.dataFault, ← State.Quiet.drain, ← State.Quiet.loadBytes, ← State.Quiet.modCore, ← State.Quiet.mk']

theorem State.Quiet.store {κ : Standing} {s₀ s : State} (hQ : s₀.Quiet κ s) (hm : κ.mem = false) (hc : κ.cores = false) (hp : κ.power = false) (c : CoreId) (words : Nat) (a : W20) (bs : List Byte) (word : Bool) :
    s₀.Quiet κ (State.store s c words a bs word) := by
  unfold State.store
  grind (gen := 30) (ematch := 30) only [← State.Quiet.dataFault, ← State.Quiet.drainAll, ← State.Quiet.drainOne, ← State.Quiet.gateWrite, ← State.Quiet.modCore, ← State.Quiet.mk']

theorem State.Quiet.afterDrain {κ : Standing} {s₀ s : State} (hQ : s₀.Quiet κ s) (hm : κ.mem = false) (hc : κ.cores = false) (hp : κ.power = false) (c : CoreId) {f : State → CoreSt → State} (hf : ∀ {t : State}, s₀.Quiet κ t → s₀.Quiet κ (f t (t.core c))) :
    s₀.Quiet κ (s.afterDrain c f) := by
  have hd := hQ.drainAll hm hc hp c
  unfold State.afterDrain
  exact State.Quiet.ite (hf hd) hd

theorem State.Quiet.actVacate {κ : Standing} {s₀ s : State} (hQ : s₀.Quiet κ s) (c : CoreId) (e : Nat) :
    s₀.Quiet κ (State.actVacate s c e) := by
  unfold State.actVacate
  grind (gen := 30) (ematch := 30) only [← State.Quiet.release, ← State.Quiet.withdraw, ← State.Quiet.mk']

theorem State.Quiet.setAct {κ : Standing} {s₀ s : State} (hQ : s₀.Quiet κ s) (hc : κ.cores = false) (c : CoreId) (e : Nat) (a : ActEntry) :
    s₀.Quiet κ (State.setAct s c e a) := by
  unfold State.setAct
  grind (gen := 30) (ematch := 30) only [← State.Quiet.modCore, ← State.Quiet.mk']

theorem State.Quiet.actReserve {κ : Standing} {s₀ s : State} (hQ : s₀.Quiet κ s) (hc : κ.cores = false) (c : CoreId) (e : Nat) (a : ActEntry) :
    s₀.Quiet κ (State.actReserve s c e a) := by
  unfold State.actReserve
  grind (gen := 30) (ematch := 30) only [← State.Quiet.addWait, ← State.Quiet.raise, ← State.Quiet.setAct, ← State.Quiet.mk']

theorem State.Quiet.place {κ : Standing} {s₀ s : State} (hQ : s₀.Quiet κ s) (hc : κ.cores = false) (c : CoreId) (wd : Nat) (fire : Nat) (wb : Nat) :
    s₀.Quiet κ (State.place s c wd fire wb).2 := by
  unfold State.place
  grind (gen := 30) (ematch := 30) only [← State.Quiet.actReserve, ← State.Quiet.actVacate, ← State.Quiet.setAct]

theorem State.Quiet.coreGranted {κ : Standing} {s₀ s : State} (hQ : s₀.Quiet κ s) (hc : κ.cores = false) (c : CoreId) :
    s₀.Quiet κ (State.coreGranted s c) := by
  unfold State.coreGranted
  grind (gen := 30) (ematch := 30) only [← State.Quiet.modCore, ← State.Quiet.mk']

theorem State.Quiet.onHolder {κ : Standing} {s₀ s : State} (hQ : s₀.Quiet κ s) (hc : κ.cores = false) (h : Nat) :
    s₀.Quiet κ (State.onHolder s h) := by
  unfold State.onHolder
  grind (gen := 30) (ematch := 30) only [← State.Quiet.chordSettle, ← State.Quiet.coreGranted, ← State.Quiet.radioSettle, ← State.Quiet.tiedApply, ← State.Quiet.yardGranted]

theorem State.Quiet.onHolders {κ : Standing} {s₀ s : State} (hQ : s₀.Quiet κ s) (hc : κ.cores = false) (hs : List Nat) :
    s₀.Quiet κ (State.onHolders s hs) := by
  unfold State.onHolders
  grind (gen := 30) (ematch := 30) only [← State.Quiet.onHolder, ← State.Quiet.foldl]

theorem State.Quiet.onGrant {κ : Standing} {s₀ s : State} (hQ : s₀.Quiet κ s) (hc : κ.cores = false) (w : Wait) :
    s₀.Quiet κ (State.onGrant s w) := by
  unfold State.onGrant
  grind (gen := 30) (ematch := 30) only [← State.Quiet.modCore, ← State.Quiet.onHolders, ← State.Quiet.radioSettle, ← State.Quiet.mk']

theorem State.Quiet.actEnd {κ : Standing} {s₀ s : State} (hQ : s₀.Quiet κ s) (hc : κ.cores = false) (st : ActStatus) (d : Due) :
    s₀.Quiet κ (State.actEnd s st d) := by
  unfold State.actEnd
  grind (gen := 30) (ematch := 30) only [← State.Quiet.setAct, ← State.Quiet.mk']

theorem State.Quiet.actStarve {κ : Standing} {s₀ s : State} (hQ : s₀.Quiet κ s) (hc : κ.cores = false) (d : Due) :
    s₀.Quiet κ (State.actStarve s d) := by
  unfold State.actStarve
  grind (gen := 30) (ematch := 30) only [← State.Quiet.actEnd, ← State.Quiet.actVacate, ← State.Quiet.raise]

theorem State.Quiet.actLose {κ : Standing} {s₀ s : State} (hQ : s₀.Quiet κ s) (hc : κ.cores = false) (d : Due) :
    s₀.Quiet κ (State.actLose s d) := by
  unfold State.actLose
  grind (gen := 30) (ematch := 30) only [← State.Quiet.actEnd, ← State.Quiet.actVacate]

theorem State.Quiet.applyResv {κ : Standing} {s₀ s : State} (hQ : s₀.Quiet κ s) (hc : κ.cores = false) (old : State) (r : Nat) :
    s₀.Quiet κ (s.applyResv old r) := by
  unfold State.applyResv
  grind (gen := 30) (ematch := 30) only [← State.Quiet.applied, ← State.Quiet.applyTo, ← State.Quiet.drop, ← State.Quiet.onHolders, ← State.Quiet.release, ← State.Quiet.mk']

theorem State.Quiet.actDo {κ : Standing} {s₀ s : State} (hQ : s₀.Quiet κ s) (hc : κ.cores = false) (temp : BitVec 10) (d : Due) :
    s₀.Quiet κ (State.actDo temp s d) := by
  unfold State.actDo
  grind (gen := 30) (ematch := 30) only [← State.Quiet.applyResv, ← State.Quiet.event, ← State.Quiet.fire, ← State.Quiet.paAction, ← State.Quiet.stallAction, ← State.Quiet.txStart, ← State.Quiet.windowClose, ← State.Quiet.windowOpen, ← State.Quiet.mk']

theorem State.Quiet.lateGrants {κ : Standing} {s₀ s : State} (hQ : s₀.Quiet κ s) (hc : κ.cores = false) :
    s₀.Quiet κ (State.lateGrants s) := by
  unfold State.lateGrants
  grind (gen := 30) (ematch := 30) only [← State.Quiet.evaluate, ← State.Quiet.onGrant, ← State.Quiet.foldl]

theorem State.Quiet.actionsFire {κ : Standing} {s₀ s : State} (hQ : s₀.Quiet κ s) (hc : κ.cores = false) (temp : BitVec 10) :
    s₀.Quiet κ (State.actionsFire s temp) := by
  unfold State.actionsFire
  grind (gen := 30) (ematch := 30) only [← State.Quiet.actDo, ← State.Quiet.actEnd, ← State.Quiet.actLose, ← State.Quiet.actStarve, ← State.Quiet.lateGrants, ← State.Quiet.foldl]

theorem State.Quiet.consume {κ : Standing} {s₀ s : State} (hQ : s₀.Quiet κ s) (hc : κ.cores = false) (k : Nat) :
    s₀.Quiet κ (State.consume s k) := by
  unfold State.consume
  grind (gen := 30) (ematch := 30) only [← State.Quiet.cphSubmit, ← State.Quiet.dmaStart, ← State.Quiet.event, ← State.Quiet.gpioAct, ← State.Quiet.keeperOrder, ← State.Quiet.tmrEvent]

theorem State.Quiet.merged {κ : Standing} {s₀ s : State} (hQ : s₀.Quiet κ s) (hc : κ.cores = false) (k : Nat) :
    s₀.Quiet κ (State.merged s k) := by
  unfold State.merged
  grind (gen := 30) (ematch := 30) only [← State.Quiet.consume, ← State.Quiet.overlap]

theorem State.Quiet.stormCount {κ : Standing} {s₀ s : State} (hQ : s₀.Quiet κ s) (f : Flight) :
    s₀.Quiet κ (State.stormCount s f) := by
  unfold State.stormCount
  grind (gen := 30) (ematch := 30) only [← State.Quiet.mk']

theorem State.Quiet.arrive {κ : Standing} {s₀ s : State} (hQ : s₀.Quiet κ s) (hc : κ.cores = false) (k : Nat) (cyc : Nat) :
    s₀.Quiet κ (State.arrive s k cyc) := by
  unfold State.arrive
  grind (gen := 30) (ematch := 30) only [← State.Quiet.consume, ← State.Quiet.merged, ← State.Quiet.mk']

theorem State.Quiet.deliver {κ : Standing} {s₀ s : State} (hQ : s₀.Quiet κ s) (hc : κ.cores = false) (ch : Nat) :
    s₀.Quiet κ (State.deliver s ch) := by
  unfold State.deliver
  grind (gen := 30) (ematch := 30) only [← State.Quiet.arrive, ← State.Quiet.merged, ← State.Quiet.stormCount, ← State.Quiet.foldl, ← State.Quiet.mk']

theorem State.Quiet.hitchSend {κ : Standing} {s₀ s : State} (hQ : s₀.Quiet κ s) (hp : κ.power = false) (l : List Byte) :
    s₀.Quiet κ (State.hitchSend s l) := by
  have h : s₀.Quiet κ { s with power := { s.power with csLow := false } } := hQ.withPower hp _
  exact h.mk'

theorem State.Quiet.openBytes {κ : Standing} {s₀ s : State} (hQ : s₀.Quiet κ s) (n : Nat) :
    s₀.Quiet κ (State.openBytes s n).2 := by
  unfold State.openBytes
  grind (gen := 30) (ematch := 30) only [← State.Quiet.mk']

theorem State.Quiet.hostBurst {κ : Standing} {s₀ s : State} (hQ : s₀.Quiet κ s) (a : Nat) (n : Nat) :
    s₀.Quiet κ (State.hostBurst s a n).2 := by
  unfold State.hostBurst
  grind (gen := 30) (ematch := 30) only [← State.Quiet.hitchErr, ← State.Quiet.openBytes, ← State.Quiet.ramRead, ← State.Quiet.mk']

theorem State.Quiet.hitchReadAt {κ : Standing} {s₀ s : State} (hQ : s₀.Quiet κ s) (a : Nat) (n : Nat) :
    s₀.Quiet κ (State.hitchReadAt s a n).2 := by
  unfold State.hitchReadAt
  grind (gen := 30) (ematch := 30) only [← State.Quiet.hitchErr, ← State.Quiet.hostBurst, ← State.Quiet.imageRead]

theorem State.Quiet.hostSram {κ : Standing} {s₀ s : State} (hQ : s₀.Quiet κ s) (hm : κ.mem = false) (a : Nat) (l : List Byte) :
    s₀.Quiet κ (s.hostSram a l) := by
  induction l generalizing s a with
  | nil => exact hQ
  | cons b l ih =>
    unfold State.hostSram
    split
    · exact ih (hQ.ramWrite hm .sram a [b]) _
    · exact hQ.hitchErr 2

theorem State.Quiet.hostRegs {κ : Standing} {s₀ s : State} (hQ : s₀.Quiet κ s) (hm : κ.mem = false) (hc : κ.cores = false) (hp : κ.power = false) (a : Nat) (l : List Byte) :
    s₀.Quiet κ (s.hostRegs a l) := by
  match l with
  | b0 :: b1 :: b2 :: _ :: l =>
    unfold State.hostRegs
    split
    · exact State.Quiet.hostRegs (hQ.regWrite hm hc hp .host a _) hm hc hp (a + 4) l
    · exact hQ.hitchErr 2
  | [] => exact hQ
  | [_] => exact hQ
  | [_, _] => exact hQ
  | [_, _, _] => exact hQ

theorem State.Quiet.hitchWriteAt {κ : Standing} {s₀ s : State} (hQ : s₀.Quiet κ s) (hm : κ.mem = false) (hc : κ.cores = false) (hp : κ.power = false) (a : Nat) (l : List Byte) :
    s₀.Quiet κ (State.hitchWriteAt s a l) := by
  unfold State.hitchWriteAt
  grind (gen := 30) (ematch := 30) only [← State.Quiet.hitchErr, ← State.Quiet.hostRegs, ← State.Quiet.hostSram]

theorem State.Quiet.slowEdge {κ : Standing} {s₀ s : State} (hQ : s₀.Quiet κ s) (hp : κ.power = false) :
    s₀.Quiet κ (State.slowEdge s) := by
  unfold State.slowEdge
  grind (gen := 30) (ematch := 30) only [← State.Quiet.carryMesh, ← State.Quiet.clockTimers, ← State.Quiet.goE0, ← State.Quiet.modPower, ← State.Quiet.put, ← State.Quiet.rtcPlain, ← State.Quiet.wakeEdges, ← State.Quiet.wearEdge, ← State.Quiet.winEdge, ← State.Quiet.yardEdge, ← State.Quiet.mk']

theorem State.Quiet.slowTick {κ : Standing} {s₀ s : State} (hQ : s₀.Quiet κ s) (hp : κ.power = false) :
    s₀.Quiet κ (State.slowTick s) := by
  unfold State.slowTick
  grind (gen := 30) (ematch := 30) only [← State.Quiet.modPower, ← State.Quiet.slowEdge, ← State.Quiet.mk']

theorem State.Quiet.busEdges {κ : Standing} {s₀ s : State} (hQ : s₀.Quiet κ s) (n : Nat) :
    s₀.Quiet κ (State.busEdges n s) := by
  induction n generalizing s with
  | zero => exact hQ
  | succ n ih => exact ih hQ.busEdge


theorem State.Quiet.latticeTick {κ : Standing} {s₀ s : State} (hQ : s₀.Quiet κ s) :
    s₀.Quiet κ (State.latticeTick s) := by
  unfold State.latticeTick
  grind (gen := 30) (ematch := 30) only [← State.Quiet.busEdges, ← State.Quiet.busTimers, ← State.Quiet.mk']

theorem State.Quiet.fastTick {κ : Standing} {s₀ s : State} (hQ : s₀.Quiet κ s) :
    s₀.Quiet κ (State.fastTick s) := by
  unfold State.fastTick
  grind (gen := 30) (ematch := 30) only [← State.Quiet.clockTimers, ← State.Quiet.cphTouch, ← State.Quiet.dmaTouch, ← State.Quiet.latchReqs, ← State.Quiet.latticeTick, ← State.Quiet.stallSync, ← State.Quiet.trngStep, ← State.Quiet.txFeed, ← State.Quiet.updStep]

/-- The state as the next tick begins. -/
def State.ticked (s : State) : State := { s with tick := s.tick + 1 }

theorem State.Quiet.idleTick {κ : Standing} (s : State) (hm : κ.mem = false) (hc : κ.cores = false) (hp : κ.power = false) :
    s.ticked.Quiet κ s.idleTick := by
  have hQ := State.Quiet.refl κ s.ticked
  unfold State.idleTick
  rw [show ({ s with tick := s.tick + 1 } : State) = s.ticked from rfl]
  grind (gen := 30) (ematch := 30) only [← State.Quiet.coreReturns, ← State.Quiet.fastTick, ← State.Quiet.meshMove, ← State.Quiet.schedTick, ← State.Quiet.slaveResets, ← State.Quiet.slowTick, ← State.Quiet.mk']

end Sys2Proof.Machine
end

section
/-! SUPPORT. What each command leaves standing, from the operations it runs. -/

set_option Elab.async false

namespace Sys2Proof.Machine

/-! ## The outcomes -/

/-- Where the outcome is a next state, that state comes from `s` with the parts asked for standing. -/
def State.Ends (k : Standing) (s : State) (o : Out) : Prop := ∀ t, o = .next t → s.Quiet k t

namespace State.Quiet

section
variable {k : Standing} {s t : State} (h : s.Quiet k t)

theorem ended {o : Out} (ho : s.Ends k o) (e : o = .next t) : s.Quiet k t := ho t e

include h

theorem next : s.Ends k (.next t) := fun _ e => Host.Outcome.next.inj e ▸ h

theorem during (b : Bool) {o : Out} (ho : s.Ends k o) : s.Ends k (t.during b o) := by
  unfold State.during
  split
  · exact ho
  · exact h.next

theorem live {o : Out} (ho : s.Ends k o) : s.Ends k (t.live o) := by
  unfold State.live
  split
  · exact h.next
  · exact ho

theorem instr (c : CoreId) {f : CoreSt → State} (hf : s.Quiet k (f (t.core c))) : s.Ends k (t.instr c f) := by
  unfold State.instr
  split
  · exact hf.next
  · exact h.next

theorem plain (hc : k.cores = false) (c : CoreId) (n : Nat) (ok : Bool) (f : CoreSt → CoreSt) : s.Ends k (t.plain c n ok f) :=
  h.instr c (State.Quiet.ite (h.setCore hc c _) (h.illegal hc c))

theorem alu (hc : k.cores = false) (c : CoreId) (fn n : Nat) (d a : RegId) (b : CoreSt → W20) : s.Ends k (t.alu c fn n d a b) := by
  refine h.instr c ?_
  split
  · exact h.setCore hc c _
  · exact h.illegal hc c

end

theorem refused {k : Standing} {s : State} (r : Refusal) : s.Ends k (.refused r) := fun _ e => nomatch e

theorem fault {k : Standing} {s : State} (r : Fault) : s.Ends k (.fault r) := fun _ e => nomatch e

theorem endsIte {k : Standing} {s : State} {p : Prop} [Decidable p] {o q : Out} (ho : s.Ends k o) (hq : s.Ends k q) :
    s.Ends k (if p then o else q) := by
  split <;> assumption

end State.Quiet

end Sys2Proof.Machine
end

section
/-! SUPPORT. What each command leaves standing, continued: commands 1 to 120. -/

set_option Elab.async false

namespace Sys2Proof.Machine

theorem State.Quiet.of_execVbatSample {κ : Standing} {s₀ s : State} (hQ : s₀.Quiet κ s) (vbat : BitVec 10) :
    s₀.Ends κ (execVbatSample vbat s) := by
  unfold execVbatSample
  grind (gen := 30) (ematch := 30) only [← State.Quiet.next, ← State.Quiet.checkRations, ← State.Quiet.during, ← State.Quiet.put, ← State.Quiet.sampleBand]

theorem State.Quiet.of_execPoolWrite {κ : Standing} {s₀ s : State} (hQ : s₀.Quiet κ s) (v : W20) :
    s₀.Ends κ (execPoolWrite v s) := by
  unfold execPoolWrite
  grind (gen := 30) (ematch := 30) only [← State.Quiet.next, ← State.Quiet.during, ← State.Quiet.writePool]

theorem State.Quiet.of_execPatienceExpiry {κ : Standing} {s₀ s : State} (hQ : s₀.Quiet κ s) :
    s₀.Ends κ (execPatienceExpiry s) := by
  unfold execPatienceExpiry
  grind (gen := 30) (ematch := 30) only [← State.Quiet.next, ← State.Quiet.during, ← State.Quiet.refreshUrgent]

theorem State.Quiet.of_execReservationRequest {κ : Standing} {s₀ s : State} (hQ : s₀.Quiet κ s) (hc : κ.cores = false) (c : CoreId) (e : Fin 16) :
    s₀.Ends κ (execReservationRequest c e s) := by
  unfold execReservationRequest
  grind (gen := 30) (ematch := 30) only [← State.Quiet.next, ← State.Quiet.addWait, ← State.Quiet.during, ← State.Quiet.modCore, ← State.Quiet.mk']

theorem State.Quiet.of_execIAdd {κ : Standing} {s₀ s : State} (hQ : s₀.Quiet κ s) (hc : κ.cores = false) (c : CoreId) (d : RegId) (a : RegId) (b : RegId) :
    s₀.Ends κ (execIAdd c d a b s) := by
  unfold execIAdd
  grind (gen := 30) (ematch := 30) only [← State.Quiet.next, ← State.Quiet.alu]

theorem State.Quiet.of_execIAdc {κ : Standing} {s₀ s : State} (hQ : s₀.Quiet κ s) (hc : κ.cores = false) (c : CoreId) (d : RegId) (a : RegId) (b : RegId) :
    s₀.Ends κ (execIAdc c d a b s) := by
  unfold execIAdc
  grind (gen := 30) (ematch := 30) only [← State.Quiet.next, ← State.Quiet.alu]

theorem State.Quiet.of_execISub {κ : Standing} {s₀ s : State} (hQ : s₀.Quiet κ s) (hc : κ.cores = false) (c : CoreId) (d : RegId) (a : RegId) (b : RegId) :
    s₀.Ends κ (execISub c d a b s) := by
  unfold execISub
  grind (gen := 30) (ematch := 30) only [← State.Quiet.next, ← State.Quiet.alu]

theorem State.Quiet.of_execISbc {κ : Standing} {s₀ s : State} (hQ : s₀.Quiet κ s) (hc : κ.cores = false) (c : CoreId) (d : RegId) (a : RegId) (b : RegId) :
    s₀.Ends κ (execISbc c d a b s) := by
  unfold execISbc
  grind (gen := 30) (ematch := 30) only [← State.Quiet.next, ← State.Quiet.alu]

theorem State.Quiet.of_execIAnd {κ : Standing} {s₀ s : State} (hQ : s₀.Quiet κ s) (hc : κ.cores = false) (c : CoreId) (d : RegId) (a : RegId) (b : RegId) :
    s₀.Ends κ (execIAnd c d a b s) := by
  unfold execIAnd
  grind (gen := 30) (ematch := 30) only [← State.Quiet.next, ← State.Quiet.alu]

theorem State.Quiet.of_execIOr {κ : Standing} {s₀ s : State} (hQ : s₀.Quiet κ s) (hc : κ.cores = false) (c : CoreId) (d : RegId) (a : RegId) (b : RegId) :
    s₀.Ends κ (execIOr c d a b s) := by
  unfold execIOr
  grind (gen := 30) (ematch := 30) only [← State.Quiet.next, ← State.Quiet.alu]

theorem State.Quiet.of_execIXor {κ : Standing} {s₀ s : State} (hQ : s₀.Quiet κ s) (hc : κ.cores = false) (c : CoreId) (d : RegId) (a : RegId) (b : RegId) :
    s₀.Ends κ (execIXor c d a b s) := by
  unfold execIXor
  grind (gen := 30) (ematch := 30) only [← State.Quiet.next, ← State.Quiet.alu]

theorem State.Quiet.of_execIAndn {κ : Standing} {s₀ s : State} (hQ : s₀.Quiet κ s) (hc : κ.cores = false) (c : CoreId) (d : RegId) (a : RegId) (b : RegId) :
    s₀.Ends κ (execIAndn c d a b s) := by
  unfold execIAndn
  grind (gen := 30) (ematch := 30) only [← State.Quiet.next, ← State.Quiet.alu]

theorem State.Quiet.of_execISll {κ : Standing} {s₀ s : State} (hQ : s₀.Quiet κ s) (hc : κ.cores = false) (c : CoreId) (d : RegId) (a : RegId) (b : RegId) :
    s₀.Ends κ (execISll c d a b s) := by
  unfold execISll
  grind (gen := 30) (ematch := 30) only [← State.Quiet.next, ← State.Quiet.alu]

theorem State.Quiet.of_execISrl {κ : Standing} {s₀ s : State} (hQ : s₀.Quiet κ s) (hc : κ.cores = false) (c : CoreId) (d : RegId) (a : RegId) (b : RegId) :
    s₀.Ends κ (execISrl c d a b s) := by
  unfold execISrl
  grind (gen := 30) (ematch := 30) only [← State.Quiet.next, ← State.Quiet.alu]

theorem State.Quiet.of_execISra {κ : Standing} {s₀ s : State} (hQ : s₀.Quiet κ s) (hc : κ.cores = false) (c : CoreId) (d : RegId) (a : RegId) (b : RegId) :
    s₀.Ends κ (execISra c d a b s) := by
  unfold execISra
  grind (gen := 30) (ematch := 30) only [← State.Quiet.next, ← State.Quiet.alu]

theorem State.Quiet.of_execIRor {κ : Standing} {s₀ s : State} (hQ : s₀.Quiet κ s) (hc : κ.cores = false) (c : CoreId) (d : RegId) (a : RegId) (b : RegId) :
    s₀.Ends κ (execIRor c d a b s) := by
  unfold execIRor
  grind (gen := 30) (ematch := 30) only [← State.Quiet.next, ← State.Quiet.alu]

theorem State.Quiet.of_execISlt {κ : Standing} {s₀ s : State} (hQ : s₀.Quiet κ s) (hc : κ.cores = false) (c : CoreId) (d : RegId) (a : RegId) (b : RegId) :
    s₀.Ends κ (execISlt c d a b s) := by
  unfold execISlt
  grind (gen := 30) (ematch := 30) only [← State.Quiet.next, ← State.Quiet.alu]

theorem State.Quiet.of_execISltu {κ : Standing} {s₀ s : State} (hQ : s₀.Quiet κ s) (hc : κ.cores = false) (c : CoreId) (d : RegId) (a : RegId) (b : RegId) :
    s₀.Ends κ (execISltu c d a b s) := by
  unfold execISltu
  grind (gen := 30) (ematch := 30) only [← State.Quiet.next, ← State.Quiet.alu]

theorem State.Quiet.of_execIJalr {κ : Standing} {s₀ s : State} (hQ : s₀.Quiet κ s) (hc : κ.cores = false) (c : CoreId) (d : RegId) (a : RegId) :
    s₀.Ends κ (execIJalr c d a s) := by
  unfold execIJalr
  grind (gen := 30) (ematch := 30) only [← State.Quiet.next, ← State.Quiet.instr, ← State.Quiet.setCore, ← State.Quiet.mk']

theorem State.Quiet.of_execIAddi {κ : Standing} {s₀ s : State} (hQ : s₀.Quiet κ s) (hc : κ.cores = false) (c : CoreId) (d : RegId) (a : RegId) (imm8 : BitVec 8) :
    s₀.Ends κ (execIAddi c d a imm8 s) := by
  unfold execIAddi
  grind (gen := 30) (ematch := 30) only [← State.Quiet.next, ← State.Quiet.alu]

theorem State.Quiet.of_execILui {κ : Standing} {s₀ s : State} (hQ : s₀.Quiet κ s) (hc : κ.cores = false) (c : CoreId) (d : RegId) (imm12 : BitVec 12) :
    s₀.Ends κ (execILui c d imm12 s) := by
  unfold execILui
  grind (gen := 30) (ematch := 30) only [← State.Quiet.next, ← State.Quiet.plain]

theorem State.Quiet.of_execILongAlu {κ : Standing} {s₀ s : State} (hQ : s₀.Quiet κ s) (hc : κ.cores = false) (c : CoreId) (fn : BitVec 4) (d : RegId) (a : RegId) (imm20 : W20) :
    s₀.Ends κ (execILongAlu c fn d a imm20 s) := by
  unfold execILongAlu
  grind (gen := 30) (ematch := 30) only [← State.Quiet.next, ← State.Quiet.alu]

theorem State.Quiet.of_execILi {κ : Standing} {s₀ s : State} (hQ : s₀.Quiet κ s) (hc : κ.cores = false) (c : CoreId) (d : RegId) (imm20 : W20) :
    s₀.Ends κ (execILi c d imm20 s) := by
  unfold execILi
  grind (gen := 30) (ematch := 30) only [← State.Quiet.next, ← State.Quiet.plain]

theorem State.Quiet.of_execIBranch {κ : Standing} {s₀ s : State} (hQ : s₀.Quiet κ s) (hc : κ.cores = false) (c : CoreId) (cond : BitVec 4) (disp12 : BitVec 12) :
    s₀.Ends κ (execIBranch c cond disp12 s) := by
  unfold execIBranch
  grind (gen := 30) (ematch := 30) only [← State.Quiet.next, ← State.Quiet.illegal, ← State.Quiet.instr, ← State.Quiet.setCore, ← State.Quiet.mk']

theorem State.Quiet.of_execIJ {κ : Standing} {s₀ s : State} (hQ : s₀.Quiet κ s) (hc : κ.cores = false) (c : CoreId) (imm16 : BitVec 16) :
    s₀.Ends κ (execIJ c imm16 s) := by
  unfold execIJ
  grind (gen := 30) (ematch := 30) only [← State.Quiet.next, ← State.Quiet.instr, ← State.Quiet.setCore, ← State.Quiet.mk']

theorem State.Quiet.of_execICall {κ : Standing} {s₀ s : State} (hQ : s₀.Quiet κ s) (hc : κ.cores = false) (c : CoreId) (imm16 : BitVec 16) :
    s₀.Ends κ (execICall c imm16 s) := by
  unfold execICall
  grind (gen := 30) (ematch := 30) only [← State.Quiet.next, ← State.Quiet.instr, ← State.Quiet.setCore, ← State.Quiet.mk']

theorem State.Quiet.pairArith {κ : Standing} {s₀ s : State} (hQ : s₀.Quiet κ s) (hc : κ.cores = false) (c : CoreId) (ok : Bool) (d : RegId) (a : RegId) (f : CoreSt → Nat → Nat × Bool × Bool) :
    s₀.Ends κ (State.pairArith s c ok d a f) := by
  unfold State.pairArith
  grind (gen := 30) (ematch := 30) only [← State.Quiet.next, ← State.Quiet.plain]

theorem State.Quiet.of_execIPadd {κ : Standing} {s₀ s : State} (hQ : s₀.Quiet κ s) (hc : κ.cores = false) (c : CoreId) (d : RegId) (a : RegId) (b : RegId) :
    s₀.Ends κ (execIPadd c d a b s) := by
  unfold execIPadd
  grind (gen := 30) (ematch := 30) only [← State.Quiet.next, ← State.Quiet.pairArith]

theorem State.Quiet.of_execIPsub {κ : Standing} {s₀ s : State} (hQ : s₀.Quiet κ s) (hc : κ.cores = false) (c : CoreId) (d : RegId) (a : RegId) (b : RegId) :
    s₀.Ends κ (execIPsub c d a b s) := by
  unfold execIPsub
  grind (gen := 30) (ematch := 30) only [← State.Quiet.next, ← State.Quiet.pairArith]

theorem State.Quiet.of_execIPcmp {κ : Standing} {s₀ s : State} (hQ : s₀.Quiet κ s) (hc : κ.cores = false) (c : CoreId) (a : RegId) (b : RegId) :
    s₀.Ends κ (execIPcmp c a b s) := by
  unfold execIPcmp
  grind (gen := 30) (ematch := 30) only [← State.Quiet.next, ← State.Quiet.plain, ← State.Quiet.mk']

theorem State.Quiet.of_execIPaddsx {κ : Standing} {s₀ s : State} (hQ : s₀.Quiet κ s) (hc : κ.cores = false) (c : CoreId) (d : RegId) (a : RegId) (b : RegId) :
    s₀.Ends κ (execIPaddsx c d a b s) := by
  unfold execIPaddsx
  grind (gen := 30) (ematch := 30) only [← State.Quiet.next, ← State.Quiet.pairArith]

theorem State.Quiet.of_execIPaddzx {κ : Standing} {s₀ s : State} (hQ : s₀.Quiet κ s) (hc : κ.cores = false) (c : CoreId) (d : RegId) (a : RegId) (b : RegId) :
    s₀.Ends κ (execIPaddzx c d a b s) := by
  unfold execIPaddzx
  grind (gen := 30) (ematch := 30) only [← State.Quiet.next, ← State.Quiet.pairArith]

theorem State.Quiet.pairShift {κ : Standing} {s₀ s : State} (hQ : s₀.Quiet κ s) (hc : κ.cores = false) (c : CoreId) (d : RegId) (a : RegId) (b : RegId) (f : Nat → Nat → Nat × Option Bool) :
    s₀.Ends κ (State.pairShift s c d a b f) := by
  unfold State.pairShift
  grind (gen := 30) (ematch := 30) only [← State.Quiet.next, ← State.Quiet.plain]

theorem State.Quiet.of_execIPsll {κ : Standing} {s₀ s : State} (hQ : s₀.Quiet κ s) (hc : κ.cores = false) (c : CoreId) (d : RegId) (a : RegId) (b : RegId) :
    s₀.Ends κ (execIPsll c d a b s) := by
  unfold execIPsll
  grind (gen := 30) (ematch := 30) only [← State.Quiet.next, ← State.Quiet.pairShift]

theorem State.Quiet.of_execIPsrl {κ : Standing} {s₀ s : State} (hQ : s₀.Quiet κ s) (hc : κ.cores = false) (c : CoreId) (d : RegId) (a : RegId) (b : RegId) :
    s₀.Ends κ (execIPsrl c d a b s) := by
  unfold execIPsrl
  grind (gen := 30) (ematch := 30) only [← State.Quiet.next, ← State.Quiet.pairShift]

theorem State.Quiet.of_execIPsra {κ : Standing} {s₀ s : State} (hQ : s₀.Quiet κ s) (hc : κ.cores = false) (c : CoreId) (d : RegId) (a : RegId) (b : RegId) :
    s₀.Ends κ (execIPsra c d a b s) := by
  unfold execIPsra
  grind (gen := 30) (ematch := 30) only [← State.Quiet.next, ← State.Quiet.pairShift]

theorem State.Quiet.of_execIPmov {κ : Standing} {s₀ s : State} (hQ : s₀.Quiet κ s) (hc : κ.cores = false) (c : CoreId) (d : RegId) (a : RegId) :
    s₀.Ends κ (execIPmov c d a s) := by
  unfold execIPmov
  grind (gen := 30) (ematch := 30) only [← State.Quiet.next, ← State.Quiet.plain]

theorem State.Quiet.of_execIMul {κ : Standing} {s₀ s : State} (hQ : s₀.Quiet κ s) (hc : κ.cores = false) (c : CoreId) (d : RegId) (a : RegId) (b : RegId) :
    s₀.Ends κ (execIMul c d a b s) := by
  unfold execIMul
  grind (gen := 30) (ematch := 30) only [← State.Quiet.next, ← State.Quiet.plain, ← State.Quiet.mk']

theorem State.Quiet.pairMul {κ : Standing} {s₀ s : State} (hQ : s₀.Quiet κ s) (hc : κ.cores = false) (c : CoreId) (sgn : Bool) (acc : Bool) (d : RegId) (a : RegId) (b : RegId) :
    s₀.Ends κ (State.pairMul s c sgn acc d a b) := by
  unfold State.pairMul
  grind (gen := 30) (ematch := 30) only [← State.Quiet.next, ← State.Quiet.plain]

theorem State.Quiet.of_execIMuluP {κ : Standing} {s₀ s : State} (hQ : s₀.Quiet κ s) (hc : κ.cores = false) (c : CoreId) (d : RegId) (a : RegId) (b : RegId) :
    s₀.Ends κ (execIMuluP c d a b s) := by
  unfold execIMuluP
  grind (gen := 30) (ematch := 30) only [← State.Quiet.next, ← State.Quiet.pairMul]

theorem State.Quiet.of_execIMulsP {κ : Standing} {s₀ s : State} (hQ : s₀.Quiet κ s) (hc : κ.cores = false) (c : CoreId) (d : RegId) (a : RegId) (b : RegId) :
    s₀.Ends κ (execIMulsP c d a b s) := by
  unfold execIMulsP
  grind (gen := 30) (ematch := 30) only [← State.Quiet.next, ← State.Quiet.pairMul]

theorem State.Quiet.of_execIMacuP {κ : Standing} {s₀ s : State} (hQ : s₀.Quiet κ s) (hc : κ.cores = false) (c : CoreId) (d : RegId) (a : RegId) (b : RegId) :
    s₀.Ends κ (execIMacuP c d a b s) := by
  unfold execIMacuP
  grind (gen := 30) (ematch := 30) only [← State.Quiet.next, ← State.Quiet.pairMul]

theorem State.Quiet.of_execIMacsP {κ : Standing} {s₀ s : State} (hQ : s₀.Quiet κ s) (hc : κ.cores = false) (c : CoreId) (d : RegId) (a : RegId) (b : RegId) :
    s₀.Ends κ (execIMacsP c d a b s) := by
  unfold execIMacsP
  grind (gen := 30) (ematch := 30) only [← State.Quiet.next, ← State.Quiet.pairMul]

theorem State.Quiet.pairDiv {κ : Standing} {s₀ s : State} (hQ : s₀.Quiet κ s) (hc : κ.cores = false) (c : CoreId) (d : RegId) (a : RegId) (f : CoreSt → Nat × Nat × Bool) :
    s₀.Ends κ (State.pairDiv s c d a f) := by
  unfold State.pairDiv
  grind (gen := 30) (ematch := 30) only [← State.Quiet.next, ← State.Quiet.plain, ← State.Quiet.mk']

theorem State.Quiet.of_execIDivuP {κ : Standing} {s₀ s : State} (hQ : s₀.Quiet κ s) (hc : κ.cores = false) (c : CoreId) (d : RegId) (a : RegId) (b : RegId) :
    s₀.Ends κ (execIDivuP c d a b s) := by
  unfold execIDivuP
  grind (gen := 30) (ematch := 30) only [← State.Quiet.next, ← State.Quiet.pairDiv]

theorem State.Quiet.of_execIDivsP {κ : Standing} {s₀ s : State} (hQ : s₀.Quiet κ s) (hc : κ.cores = false) (c : CoreId) (d : RegId) (a : RegId) (b : RegId) :
    s₀.Ends κ (execIDivsP c d a b s) := by
  unfold execIDivsP
  grind (gen := 30) (ematch := 30) only [← State.Quiet.next, ← State.Quiet.pairDiv]

theorem State.Quiet.wordDiv {κ : Standing} {s₀ s : State} (hQ : s₀.Quiet κ s) (hc : κ.cores = false) (c : CoreId) (d : RegId) (rem : Bool) (f : CoreSt → Nat × Nat × Bool) :
    s₀.Ends κ (State.wordDiv s c d rem f) := by
  unfold State.wordDiv
  grind (gen := 30) (ematch := 30) only [← State.Quiet.next, ← State.Quiet.plain, ← State.Quiet.mk']

theorem State.Quiet.of_execIDivu {κ : Standing} {s₀ s : State} (hQ : s₀.Quiet κ s) (hc : κ.cores = false) (c : CoreId) (d : RegId) (a : RegId) (b : RegId) :
    s₀.Ends κ (execIDivu c d a b s) := by
  unfold execIDivu
  grind (gen := 30) (ematch := 30) only [← State.Quiet.next, ← State.Quiet.wordDiv]

theorem State.Quiet.of_execIDivs {κ : Standing} {s₀ s : State} (hQ : s₀.Quiet κ s) (hc : κ.cores = false) (c : CoreId) (d : RegId) (a : RegId) (b : RegId) :
    s₀.Ends κ (execIDivs c d a b s) := by
  unfold execIDivs
  grind (gen := 30) (ematch := 30) only [← State.Quiet.next, ← State.Quiet.wordDiv]

theorem State.Quiet.of_execIRemu {κ : Standing} {s₀ s : State} (hQ : s₀.Quiet κ s) (hc : κ.cores = false) (c : CoreId) (d : RegId) (a : RegId) (b : RegId) :
    s₀.Ends κ (execIRemu c d a b s) := by
  unfold execIRemu
  grind (gen := 30) (ematch := 30) only [← State.Quiet.next, ← State.Quiet.wordDiv]

theorem State.Quiet.of_execIRems {κ : Standing} {s₀ s : State} (hQ : s₀.Quiet κ s) (hc : κ.cores = false) (c : CoreId) (d : RegId) (a : RegId) (b : RegId) :
    s₀.Ends κ (execIRems c d a b s) := by
  unfold execIRems
  grind (gen := 30) (ematch := 30) only [← State.Quiet.next, ← State.Quiet.wordDiv]

theorem State.Quiet.shiftImm {κ : Standing} {s₀ s : State} (hQ : s₀.Quiet κ s) (hc : κ.cores = false) (c : CoreId) (d : RegId) (a : RegId) (n : BitVec 5) (f : Nat → Nat → Nat × Option Bool) :
    s₀.Ends κ (State.shiftImm s c d a n f) := by
  unfold State.shiftImm
  grind (gen := 30) (ematch := 30) only [← State.Quiet.next, ← State.Quiet.plain, ← State.Quiet.mk']

theorem State.Quiet.of_execISlli {κ : Standing} {s₀ s : State} (hQ : s₀.Quiet κ s) (hc : κ.cores = false) (c : CoreId) (d : RegId) (a : RegId) (n : BitVec 5) :
    s₀.Ends κ (execISlli c d a n s) := by
  unfold execISlli
  grind (gen := 30) (ematch := 30) only [← State.Quiet.next, ← State.Quiet.shiftImm]

theorem State.Quiet.of_execISrli {κ : Standing} {s₀ s : State} (hQ : s₀.Quiet κ s) (hc : κ.cores = false) (c : CoreId) (d : RegId) (a : RegId) (n : BitVec 5) :
    s₀.Ends κ (execISrli c d a n s) := by
  unfold execISrli
  grind (gen := 30) (ematch := 30) only [← State.Quiet.next, ← State.Quiet.shiftImm]

theorem State.Quiet.of_execISrai {κ : Standing} {s₀ s : State} (hQ : s₀.Quiet κ s) (hc : κ.cores = false) (c : CoreId) (d : RegId) (a : RegId) (n : BitVec 5) :
    s₀.Ends κ (execISrai c d a n s) := by
  unfold execISrai
  grind (gen := 30) (ematch := 30) only [← State.Quiet.next, ← State.Quiet.shiftImm]

theorem State.Quiet.of_execIRori {κ : Standing} {s₀ s : State} (hQ : s₀.Quiet κ s) (hc : κ.cores = false) (c : CoreId) (d : RegId) (a : RegId) (n : BitVec 5) :
    s₀.Ends κ (execIRori c d a n s) := by
  unfold execIRori
  grind (gen := 30) (ematch := 30) only [← State.Quiet.next, ← State.Quiet.shiftImm]

theorem State.Quiet.count {κ : Standing} {s₀ s : State} (hQ : s₀.Quiet κ s) (hc : κ.cores = false) (c : CoreId) (n : Nat) (ok : Bool) (d : RegId) (f : CoreSt → Nat) :
    s₀.Ends κ (State.count s c n ok d f) := by
  unfold State.count
  grind (gen := 30) (ematch := 30) only [← State.Quiet.next, ← State.Quiet.plain, ← State.Quiet.mk']

theorem State.Quiet.of_execIExtu {κ : Standing} {s₀ s : State} (hQ : s₀.Quiet κ s) (hc : κ.cores = false) (c : CoreId) (d : RegId) (a : RegId) (pos : BitVec 5) (width : BitVec 5) :
    s₀.Ends κ (execIExtu c d a pos width s) := by
  unfold execIExtu
  grind (gen := 30) (ematch := 30) only [← State.Quiet.next, ← State.Quiet.count]

theorem State.Quiet.of_execIExts {κ : Standing} {s₀ s : State} (hQ : s₀.Quiet κ s) (hc : κ.cores = false) (c : CoreId) (d : RegId) (a : RegId) (pos : BitVec 5) (width : BitVec 5) :
    s₀.Ends κ (execIExts c d a pos width s) := by
  unfold execIExts
  grind (gen := 30) (ematch := 30) only [← State.Quiet.next, ← State.Quiet.count]

theorem State.Quiet.of_execIIns {κ : Standing} {s₀ s : State} (hQ : s₀.Quiet κ s) (hc : κ.cores = false) (c : CoreId) (d : RegId) (a : RegId) (pos : BitVec 5) (width : BitVec 5) :
    s₀.Ends κ (execIIns c d a pos width s) := by
  unfold execIIns
  grind (gen := 30) (ematch := 30) only [← State.Quiet.next, ← State.Quiet.count]

theorem State.Quiet.of_execIClz {κ : Standing} {s₀ s : State} (hQ : s₀.Quiet κ s) (hc : κ.cores = false) (c : CoreId) (d : RegId) (a : RegId) :
    s₀.Ends κ (execIClz c d a s) := by
  unfold execIClz
  grind (gen := 30) (ematch := 30) only [← State.Quiet.next, ← State.Quiet.count]

theorem State.Quiet.of_execIPopc {κ : Standing} {s₀ s : State} (hQ : s₀.Quiet κ s) (hc : κ.cores = false) (c : CoreId) (d : RegId) (a : RegId) :
    s₀.Ends κ (execIPopc c d a s) := by
  unfold execIPopc
  grind (gen := 30) (ematch := 30) only [← State.Quiet.next, ← State.Quiet.count]

theorem State.Quiet.of_execITrap {κ : Standing} {s₀ s : State} (hQ : s₀.Quiet κ s) (hc : κ.cores = false) (c : CoreId) (imm12 : BitVec 12) :
    s₀.Ends κ (execITrap c imm12 s) := by
  unfold execITrap
  grind (gen := 30) (ematch := 30) only [← State.Quiet.next, ← State.Quiet.instr, ← State.Quiet.takeException]

theorem State.Quiet.of_execISys {κ : Standing} {s₀ s : State} (hQ : s₀.Quiet κ s) (hc : κ.cores = false) (c : CoreId) (imm8 : BitVec 8) :
    s₀.Ends κ (execISys c imm8 s) := by
  unfold execISys
  grind (gen := 30) (ematch := 30) only [← State.Quiet.next, ← State.Quiet.instr, ← State.Quiet.takeException]

theorem State.Quiet.of_execTrackerHalving {κ : Standing} {s₀ s : State} (hQ : s₀.Quiet κ s) (hc : κ.cores = false) :
    s₀.Ends κ (execTrackerHalving s) := by
  unfold execTrackerHalving
  grind (gen := 30) (ematch := 30) only [← State.Quiet.next, ← State.Quiet.count, ← State.Quiet.during, ← State.Quiet.mk']

theorem State.Quiet.of_execStcGive {κ : Standing} {s₀ s : State} (hQ : s₀.Quiet κ s) (v : W20) :
    s₀.Ends κ (execStcGive v s) := by
  unfold execStcGive
  grind (gen := 30) (ematch := 30) only [← State.Quiet.next, ← State.Quiet.during, ← State.Quiet.stcGive]

theorem State.Quiet.of_execPoolConfigWrite {κ : Standing} {s₀ s : State} (hQ : s₀.Quiet κ s) (q : Fin 2) (which : PoolReg) (v : W20) :
    s₀.Ends κ (execPoolConfigWrite q which v s) := by
  unfold execPoolConfigWrite
  grind (gen := 30) (ematch := 30) only [← State.Quiet.next, ← State.Quiet.during, ← State.Quiet.poolWrite]

theorem State.Quiet.of_execUartTxByteSent {κ : Standing} {s₀ s : State} (hQ : s₀.Quiet κ s) :
    s₀.Ends κ (execUartTxByteSent s) := by
  unfold execUartTxByteSent
  grind (gen := 30) (ematch := 30) only [← State.Quiet.next, ← State.Quiet.during, ← State.Quiet.uartLoad, ← State.Quiet.uartSettle, ← State.Quiet.uartStore, ← State.Quiet.mk']

theorem State.Quiet.of_execUartDataRead {κ : Standing} {s₀ s : State} (hQ : s₀.Quiet κ s) :
    s₀.Ends κ (execUartDataRead s) := by
  unfold execUartDataRead
  grind (gen := 30) (ematch := 30) only [← State.Quiet.next, ← State.Quiet.during, ← State.Quiet.uartPop]

theorem State.Quiet.of_execUartDataWrite {κ : Standing} {s₀ s : State} (hQ : s₀.Quiet κ s) (b : Byte) :
    s₀.Ends κ (execUartDataWrite b s) := by
  unfold execUartDataWrite
  grind (gen := 30) (ematch := 30) only [← State.Quiet.next, ← State.Quiet.during, ← State.Quiet.uartPush]

theorem State.Quiet.of_execGpioInputChange {κ : Standing} {s₀ s : State} (hQ : s₀.Quiet κ s) (p : Fin 24) (level : Bool) :
    s₀.Ends κ (execGpioInputChange p level s) := by
  unfold execGpioInputChange
  grind (gen := 30) (ematch := 30) only [← State.Quiet.next, ← State.Quiet.pinShow, ← State.Quiet.mk']

theorem State.Quiet.of_execExtHolderModeWrite {κ : Standing} {s₀ s : State} (hQ : s₀.Quiet κ s) (n : Fin 4) (v : W20) :
    s₀.Ends κ (execExtHolderModeWrite n v s) := by
  unfold execExtHolderModeWrite
  grind (gen := 30) (ematch := 30) only [← State.Quiet.next, ← State.Quiet.during, ← State.Quiet.extWrite]

theorem State.Quiet.of_execTiedPinAssert {κ : Standing} {s₀ s : State} (hQ : s₀.Quiet κ s) (n : Fin 4) (level : Bool) :
    s₀.Ends κ (execTiedPinAssert n level s) := by
  unfold execTiedPinAssert
  grind (gen := 30) (ematch := 30) only [← State.Quiet.next, ← State.Quiet.during, ← State.Quiet.gpioSet, ← State.Quiet.tiedAsk, ← State.Quiet.tiedDrop, ← State.Quiet.mk']

theorem State.Quiet.of_execPaStep {κ : Standing} {s₀ s : State} (hQ : s₀.Quiet κ s) :
    s₀.Ends κ (execPaStep s) := by
  unfold execPaStep
  grind (gen := 30) (ematch := 30) only [← State.Quiet.next, ← State.Quiet.during, ← State.Quiet.paDo, ← State.Quiet.mk']

theorem State.Quiet.of_execPaStepGrant {κ : Standing} {s₀ s : State} (hQ : s₀.Quiet κ s) :
    s₀.Ends κ (execPaStepGrant s) := by
  unfold execPaStepGrant
  grind (gen := 30) (ematch := 30) only [← State.Quiet.next, ← State.Quiet.during, ← State.Quiet.paApply, ← State.Quiet.mk']

theorem State.Quiet.of_execRadioReq {κ : Standing} {s₀ s : State} (hQ : s₀.Quiet κ s) (req : BitVec 2) :
    s₀.Ends κ (execRadioReq req s) := by
  unfold execRadioReq
  grind (gen := 30) (ematch := 30) only [← State.Quiet.next, ← State.Quiet.during, ← State.Quiet.radioRequest]

theorem State.Quiet.of_execListenWindowOpen {κ : Standing} {s₀ s : State} (hQ : s₀.Quiet κ s) (chains : BitVec 2) :
    s₀.Ends κ (execListenWindowOpen chains s) := by
  unfold execListenWindowOpen
  grind (gen := 30) (ematch := 30) only [← State.Quiet.next, ← State.Quiet.during, ← State.Quiet.windowOpen]

theorem State.Quiet.of_execListenWindowClose {κ : Standing} {s₀ s : State} (hQ : s₀.Quiet κ s) :
    s₀.Ends κ (execListenWindowClose s) := by
  unfold execListenWindowClose
  grind (gen := 30) (ematch := 30) only [← State.Quiet.next, ← State.Quiet.during, ← State.Quiet.windowClose]

theorem State.Quiet.of_execRadioTransitionDone {κ : Standing} {s₀ s : State} (hQ : s₀.Quiet κ s) :
    s₀.Ends κ (execRadioTransitionDone s) := by
  unfold execRadioTransitionDone
  grind (gen := 30) (ematch := 30) only [← State.Quiet.next, ← State.Quiet.during, ← State.Quiet.gainApply, ← State.Quiet.listenReached, ← State.Quiet.modRadio, ← State.Quiet.passPins, ← State.Quiet.put, ← State.Quiet.radioArrive, ← State.Quiet.rfeGo, ← State.Quiet.mk']

theorem State.Quiet.of_execRxLoWrite {κ : Standing} {s₀ s : State} (hQ : s₀.Quiet κ s) (int : BitVec 7) (frac : W20) :
    s₀.Ends κ (execRxLoWrite int frac s) := by
  unfold execRxLoWrite
  grind (gen := 30) (ematch := 30) only [← State.Quiet.next, ← State.Quiet.during, ← State.Quiet.put, ← State.Quiet.rxFracWrite]

theorem State.Quiet.of_execSynthLock {κ : Standing} {s₀ s : State} (hQ : s₀.Quiet κ s) (tx : Bool) :
    s₀.Ends κ (execSynthLock tx s) := by
  unfold execSynthLock
  grind (gen := 30) (ematch := 30) only [← State.Quiet.next, ← State.Quiet.during, ← State.Quiet.put, ← State.Quiet.stallSync]

theorem State.Quiet.of_execGainWrite {κ : Standing} {s₀ s : State} (hQ : s₀.Quiet κ s) (chainB : Bool) (v : W20) :
    s₀.Ends κ (execGainWrite chainB v s) := by
  unfold execGainWrite
  grind (gen := 30) (ematch := 30) only [← State.Quiet.next, ← State.Quiet.during, ← State.Quiet.gainWrite]

theorem State.Quiet.of_execOverloadDetect {κ : Standing} {s₀ s : State} (hQ : s₀.Quiet κ s) (chainB : Bool) :
    s₀.Ends κ (execOverloadDetect chainB s) := by
  unfold execOverloadDetect
  grind (gen := 30) (ematch := 30) only [← State.Quiet.next, ← State.Quiet.during, ← State.Quiet.modRadio, ← State.Quiet.put, ← State.Quiet.raise, ← State.Quiet.mk']

theorem State.Quiet.of_execEnergyWindowEnd {κ : Standing} {s₀ s : State} (hQ : s₀.Quiet κ s) (hp : κ.power = false) (chainB : Bool) (level : BitVec 12) :
    s₀.Ends κ (execEnergyWindowEnd chainB level s) := by
  unfold execEnergyWindowEnd
  grind (gen := 30) (ematch := 30) only [← State.Quiet.next, ← State.Quiet.during, ← State.Quiet.orbitLevel, ← State.Quiet.put]

theorem State.Quiet.of_execTurnBackSwap {κ : Standing} {s₀ s : State} (hQ : s₀.Quiet κ s) :
    s₀.Ends κ (execTurnBackSwap s) := by
  unfold execTurnBackSwap
  refine hQ.during _ ?_
  split
  · exact hQ.next
  · refine State.Quiet.endsIte hQ.next ?_
    have hlock : s₀.Quiet κ (if s.calNeeds.contains 6 then s else s.put RFE_STATE_TXLOCK 0) := State.Quiet.ite hQ (hQ.put _ _)
    generalize (if s.calNeeds.contains 6 then s else s.put RFE_STATE_TXLOCK 0) = u at *
    have ht := hlock.modRadio (fun r => { r with swapped := true })
    refine State.Quiet.endsIte ((ht.settle _).modRadio _).next ?_
    extract_lets ret take
    split
    · next he => exact ((ht.trySwap _ _ he).modRadio _).next
    · exact ((ht.addWait _ _ _).raise _).next

theorem State.Quiet.of_execTxHoldCheck {κ : Standing} {s₀ s : State} (hQ : s₀.Quiet κ s) :
    s₀.Ends κ (execTxHoldCheck s) := by
  unfold execTxHoldCheck
  grind (gen := 30) (ematch := 30) only [← State.Quiet.next, ← State.Quiet.during, ← State.Quiet.modRadio, ← State.Quiet.rampGo, ← State.Quiet.mk']

theorem State.Quiet.of_execTxLate {κ : Standing} {s₀ s : State} (hQ : s₀.Quiet κ s) :
    s₀.Ends κ (execTxLate s) := by
  unfold execTxLate
  grind (gen := 30) (ematch := 30) only [← State.Quiet.next, ← State.Quiet.during, ← State.Quiet.put, ← State.Quiet.raise, ← State.Quiet.rampGo, ← State.Quiet.txAbandon, ← State.Quiet.mk']

theorem State.Quiet.of_execTalkReached {κ : Standing} {s₀ s : State} (hQ : s₀.Quiet κ s) :
    s₀.Ends κ (execTalkReached s) := by
  unfold execTalkReached
  grind (gen := 30) (ematch := 30) only [← State.Quiet.next, ← State.Quiet.during, ← State.Quiet.rfeGo, ← State.Quiet.mk']

theorem State.Quiet.of_execMaskWindowEnd {κ : Standing} {s₀ s : State} (hQ : s₀.Quiet κ s) (meas : List (Nat × Nat)) :
    s₀.Ends κ (execMaskWindowEnd meas s) := by
  unfold execMaskWindowEnd
  grind (gen := 30) (ematch := 30) only [← State.Quiet.next, ← State.Quiet.during, ← State.Quiet.modRadio, ← State.Quiet.raise, ← State.Quiet.report, ← State.Quiet.txAbandon, ← State.Quiet.mk']

theorem State.Quiet.of_execLockLost {κ : Standing} {s₀ s : State} (hQ : s₀.Quiet κ s) (tx : Bool) (temp : BitVec 10) :
    s₀.Ends κ (execLockLost tx temp s) := by
  unfold execLockLost
  grind (gen := 30) (ematch := 30) only [← State.Quiet.next, ← State.Quiet.calShow, ← State.Quiet.during, ← State.Quiet.modRadio, ← State.Quiet.put, ← State.Quiet.raise, ← State.Quiet.report, ← State.Quiet.stallSync, ← State.Quiet.txAbandon, ← State.Quiet.mk']

theorem State.Quiet.of_execTxSlotReadyWrite {κ : Standing} {s₀ s : State} (hQ : s₀.Quiet κ s) (k : Fin 16) (v : W20) :
    s₀.Ends κ (execTxSlotReadyWrite k v s) := by
  unfold execTxSlotReadyWrite
  grind (gen := 30) (ematch := 30) only [← State.Quiet.next, ← State.Quiet.during, ← State.Quiet.txCtl]

theorem State.Quiet.of_execSlotBoundary {κ : Standing} {s₀ s : State} (hQ : s₀.Quiet κ s) :
    s₀.Ends κ (execSlotBoundary s) := by
  unfold execSlotBoundary
  grind (gen := 30) (ematch := 30) only [← State.Quiet.next, ← State.Quiet.activate, ← State.Quiet.during, ← State.Quiet.modSched, ← State.Quiet.slotBegin, ← State.Quiet.slotLeave, ← State.Quiet.mk']

theorem State.Quiet.of_execSchSlotlenWrite {κ : Standing} {s₀ s : State} (hQ : s₀.Quiet κ s) (v : W20) :
    s₀.Ends κ (execSchSlotlenWrite v s) := by
  unfold execSchSlotlenWrite
  grind (gen := 30) (ematch := 30) only [← State.Quiet.next, ← State.Quiet.during, ← State.Quiet.slotLenWrite]

theorem State.Quiet.of_execSchSyncofsWrite {κ : Standing} {s₀ s : State} (hQ : s₀.Quiet κ s) (v : W20) :
    s₀.Ends κ (execSchSyncofsWrite v s) := by
  unfold execSchSyncofsWrite
  grind (gen := 30) (ematch := 30) only [← State.Quiet.next, ← State.Quiet.during, ← State.Quiet.syncOfsWrite]

theorem State.Quiet.of_execSchLoad {κ : Standing} {s₀ s : State} (hQ : s₀.Quiet κ s) :
    s₀.Ends κ (execSchLoad s) := by
  unfold execSchLoad
  grind (gen := 30) (ematch := 30) only [← State.Quiet.next, ← State.Quiet.during, ← State.Quiet.schLoad]

theorem State.Quiet.of_execSchRunSet {κ : Standing} {s₀ s : State} (hQ : s₀.Quiet κ s) :
    s₀.Ends κ (execSchRunSet s) := by
  unfold execSchRunSet
  grind (gen := 30) (ematch := 30) only [← State.Quiet.next, ← State.Quiet.during, ← State.Quiet.schRun]

theorem State.Quiet.of_execSchAsnloRead {κ : Standing} {s₀ s : State} (hQ : s₀.Quiet κ s) :
    s₀.Ends κ (execSchAsnloRead s) := by
  unfold execSchAsnloRead
  grind (gen := 30) (ematch := 30) only [← State.Quiet.next, ← State.Quiet.asnSnapshot, ← State.Quiet.during]

theorem State.Quiet.of_execHopWrite {κ : Standing} {s₀ s : State} (hQ : s₀.Quiet κ s) (k : Option (Fin 22)) (v : W20) :
    s₀.Ends κ (execHopWrite k v s) := by
  unfold execHopWrite
  grind (gen := 30) (ematch := 30) only [← State.Quiet.next, ← State.Quiet.during, ← State.Quiet.hopLenWrite, ← State.Quiet.hopWrite, ← State.Quiet.mk']

theorem State.Quiet.of_execSchHopqRead {κ : Standing} {s₀ s : State} (hQ : s₀.Quiet κ s) :
    s₀.Ends κ (execSchHopqRead s) := by
  unfold execSchHopqRead
  grind (gen := 30) (ematch := 30) only [← State.Quiet.next, ← State.Quiet.during]

theorem State.Quiet.of_execMeshTimeStep {κ : Standing} {s₀ s : State} (hQ : s₀.Quiet κ s) (hm : κ.mem = false) (hc : κ.cores = false) (delta : W40) :
    s₀.Ends κ (execMeshTimeStep delta s) := by
  unfold execMeshTimeStep
  grind (gen := 30) (ematch := 30) only [← State.Quiet.next, ← State.Quiet.during, ← State.Quiet.meshStep]

theorem State.Quiet.of_execStepSweepDone {κ : Standing} {s₀ s : State} (hQ : s₀.Quiet κ s) (hm : κ.mem = false) :
    s₀.Ends κ (execStepSweepDone s) := by
  unfold execStepSweepDone
  grind (gen := 30) (ematch := 30) only [← State.Quiet.next, ← State.Quiet.during, ← State.Quiet.modSched, ← State.Quiet.put, ← State.Quiet.sampleRun, ← State.Quiet.sweepNow, ← State.Quiet.mk']

theorem State.Quiet.of_execStcPlanWrite {κ : Standing} {s₀ s : State} (hQ : s₀.Quiet κ s) (v : W20) :
    s₀.Ends κ (execStcPlanWrite v s) := by
  unfold execStcPlanWrite
  grind (gen := 30) (ematch := 30) only [← State.Quiet.next, ← State.Quiet.during, ← State.Quiet.planWrite]

theorem State.Quiet.of_execStcMapWrite {κ : Standing} {s₀ s : State} (hQ : s₀.Quiet κ s) (k : Fin 16) (v : W20) :
    s₀.Ends κ (execStcMapWrite k v s) := by
  unfold execStcMapWrite
  grind (gen := 30) (ematch := 30) only [← State.Quiet.next, ← State.Quiet.during, ← State.Quiet.mapWrite]

theorem State.Quiet.of_execStallEnable {κ : Standing} {s₀ s : State} (hQ : s₀.Quiet κ s) (p : Pos) (en : Bool) (byAction : Bool) :
    s₀.Ends κ (execStallEnable p en byAction s) := by
  unfold execStallEnable
  grind (gen := 30) (ematch := 30) only [← State.Quiet.next, ← State.Quiet.during, ← State.Quiet.enWritten, ← State.Quiet.stallAction, ← State.Quiet.stallEn]

theorem State.Quiet.of_execPreambleDetect {κ : Standing} {s₀ s : State} (hQ : s₀.Quiet κ s) (p : Pos) (qualA : BitVec 10) (qualB : BitVec 10) :
    s₀.Ends κ (execPreambleDetect p qualA qualB s) := by
  unfold execPreambleDetect
  grind (gen := 30) (ematch := 30) only [← State.Quiet.next, ← State.Quiet.during, ← State.Quiet.modStall, ← State.Quiet.put, ← State.Quiet.syncWait, ← State.Quiet.mk']

theorem State.Quiet.of_execAerialChoice {κ : Standing} {s₀ s : State} (hQ : s₀.Quiet κ s) (p : Pos) (meanA : BitVec 10) (meanB : BitVec 10) :
    s₀.Ends κ (execAerialChoice p meanA meanB s) := by
  unfold execAerialChoice
  grind (gen := 30) (ematch := 30) only [← State.Quiet.next, ← State.Quiet.during, ← State.Quiet.syncWait]

theorem State.Quiet.of_execNosync {κ : Standing} {s₀ s : State} (hQ : s₀.Quiet κ s) (p : Pos) :
    s₀.Ends κ (execNosync p s) := by
  unfold execNosync
  grind (gen := 30) (ematch := 30) only [← State.Quiet.next, ← State.Quiet.during, ← State.Quiet.put, ← State.Quiet.stallLast]

theorem State.Quiet.of_execSyncDeclared {κ : Standing} {s₀ s : State} (hQ : s₀.Quiet κ s) (hp : κ.power = false) (p : Pos) (rxA : AerialRx) (rxB : AerialRx) :
    s₀.Ends κ (execSyncDeclared p rxA rxB s) := by
  unfold execSyncDeclared
  grind (gen := 30) (ematch := 30) only [← State.Quiet.next, ← State.Quiet.bump, ← State.Quiet.during, ← State.Quiet.orbitHear, ← State.Quiet.packetCapture, ← State.Quiet.packetEnd, ← State.Quiet.packetNew, ← State.Quiet.mk']

theorem State.Quiet.of_execStlTsloRead {κ : Standing} {s₀ s : State} (hQ : s₀.Quiet κ s) (p : Pos) :
    s₀.Ends κ (execStlTsloRead p s) := by
  unfold execStlTsloRead
  grind (gen := 30) (ematch := 30) only [← State.Quiet.next, ← State.Quiet.during, ← State.Quiet.snapshot]

theorem State.Quiet.of_execYardEnable {κ : Standing} {s₀ s : State} (hQ : s₀.Quiet κ s) :
    s₀.Ends κ (execYardEnable s) := by
  unfold execYardEnable
  grind (gen := 30) (ematch := 30) only [← State.Quiet.next, ← State.Quiet.during, ← State.Quiet.yardTurnOn]

theorem State.Quiet.of_execTrainingDone {κ : Standing} {s₀ s : State} (hQ : s₀.Quiet κ s) (ok : Bool) (stp : W20) :
    s₀.Ends κ (execTrainingDone ok stp s) := by
  unfold execTrainingDone
  grind (gen := 30) (ematch := 30) only [← State.Quiet.next, ← State.Quiet.during, ← State.Quiet.modYch, ← State.Quiet.raise, ← State.Quiet.report, ← State.Quiet.yardFail, ← State.Quiet.yardReady, ← State.Quiet.mk']

theorem State.Quiet.of_execYardRequestServe {κ : Standing} {s₀ s : State} (hQ : s₀.Quiet κ s) (ch : Fin 2) :
    s₀.Ends κ (execYardRequestServe ch s) := by
  unfold execYardRequestServe
  grind (gen := 30) (ematch := 30) only [← State.Quiet.next, ← State.Quiet.during, ← State.Quiet.yardIssue, ← State.Quiet.mk']

theorem State.Quiet.of_execYardRefresh {κ : Standing} {s₀ s : State} (hQ : s₀.Quiet κ s) (ch : Fin 2) :
    s₀.Ends κ (execYardRefresh ch s) := by
  unfold execYardRefresh
  grind (gen := 30) (ematch := 30) only [← State.Quiet.next, ← State.Quiet.during, ← State.Quiet.modYch, ← State.Quiet.refreshIssue, ← State.Quiet.mk']

theorem State.Quiet.of_execYardRetrain {κ : Standing} {s₀ s : State} (hQ : s₀.Quiet κ s) :
    s₀.Ends κ (execYardRetrain s) := by
  unfold execYardRetrain
  grind (gen := 30) (ematch := 30) only [← State.Quiet.next, ← State.Quiet.during, ← State.Quiet.yardRetrainNow]

theorem State.Quiet.of_execYardRetrainTrigger {κ : Standing} {s₀ s : State} (hQ : s₀.Quiet κ s) (ch : Fin 2) :
    s₀.Ends κ (execYardRetrainTrigger ch s) := by
  unfold execYardRetrainTrigger
  grind (gen := 30) (ematch := 30) only [← State.Quiet.next, ← State.Quiet.during, ← State.Quiet.yardPauseAsk]

theorem State.Quiet.of_execYardRetrainPauseDone {κ : Standing} {s₀ s : State} (hQ : s₀.Quiet κ s) (ch : Fin 2) :
    s₀.Ends κ (execYardRetrainPauseDone ch s) := by
  unfold execYardRetrainPauseDone
  grind (gen := 30) (ematch := 30) only [← State.Quiet.next, ← State.Quiet.during, ← State.Quiet.yardPauseEnd, ← State.Quiet.yardReady]

theorem State.Quiet.of_execYardSelfRefreshExit {κ : Standing} {s₀ s : State} (hQ : s₀.Quiet κ s) :
    s₀.Ends κ (execYardSelfRefreshExit s) := by
  unfold execYardSelfRefreshExit
  grind (gen := 30) (ematch := 30) only [← State.Quiet.next, ← State.Quiet.during, ← State.Quiet.yardWake]

theorem State.Quiet.of_execYardInit {κ : Standing} {s₀ s : State} (hQ : s₀.Quiet κ s) :
    s₀.Ends κ (execYardInit s) := by
  unfold execYardInit
  grind (gen := 30) (ematch := 30) only [← State.Quiet.next, ← State.Quiet.during, ← State.Quiet.yardInitNow]

theorem State.Quiet.of_execYardInitDone {κ : Standing} {s₀ s : State} (hQ : s₀.Quiet κ s) :
    s₀.Ends κ (execYardInitDone s) := by
  unfold execYardInitDone
  grind (gen := 30) (ematch := 30) only [← State.Quiet.next, ← State.Quiet.during, ← State.Quiet.modYard, ← State.Quiet.modYch, ← State.Quiet.put, ← State.Quiet.raise, ← State.Quiet.mk']

theorem State.Quiet.of_execYardRepairDone {κ : Standing} {s₀ s : State} (hQ : s₀.Quiet κ s) (ok : Bool) :
    s₀.Ends κ (execYardRepairDone ok s) := by
  unfold execYardRepairDone
  grind (gen := 30) (ematch := 30) only [← State.Quiet.next, ← State.Quiet.during, ← State.Quiet.modYard, ← State.Quiet.put, ← State.Quiet.report, ← State.Quiet.yardLoseChan, ← State.Quiet.yardLoseRow, ← State.Quiet.mk']

end Sys2Proof.Machine
end

section
/-! SUPPORT. What each command leaves standing, continued: commands 121 to 240. -/

set_option Elab.async false

namespace Sys2Proof.Machine

theorem State.Quiet.of_execFlashProgram {κ : Standing} {s₀ s : State} (hQ : s₀.Quiet κ s) (len : BitVec 9) (pageOfs : BitVec 8) :
    s₀.Ends κ (execFlashProgram len pageOfs s) := by
  unfold execFlashProgram
  grind (gen := 30) (ematch := 30) only [← State.Quiet.next, ← State.Quiet.during, ← State.Quiet.flashCmd]

theorem State.Quiet.of_execFlashErase {κ : Standing} {s₀ s : State} (hQ : s₀.Quiet κ s) :
    s₀.Ends κ (execFlashErase s) := by
  unfold execFlashErase
  grind (gen := 30) (ematch := 30) only [← State.Quiet.next, ← State.Quiet.during, ← State.Quiet.flashCmd]

theorem State.Quiet.of_execFlashOpDone {κ : Standing} {s₀ s : State} (hQ : s₀.Quiet κ s) (hm : κ.mem = false) (ok : Bool) :
    s₀.Ends κ (execFlashOpDone ok s) := by
  unfold execFlashOpDone
  grind (gen := 30) (ematch := 30) only [← State.Quiet.next, ← State.Quiet.during, ← State.Quiet.flashApply, ← State.Quiet.flashErr, ← State.Quiet.flashTorn, ← State.Quiet.put, ← State.Quiet.raise, ← State.Quiet.mk']

theorem State.Quiet.of_execFoldEnable {κ : Standing} {s₀ s : State} (hQ : s₀.Quiet κ s) (hm : κ.mem = false) (v : W20) :
    s₀.Ends κ (execFoldEnable v s) := by
  unfold execFoldEnable
  grind (gen := 30) (ematch := 30) only [← State.Quiet.next, ← State.Quiet.during, ← State.Quiet.foldCfg]

theorem State.Quiet.of_execFoldClearDone {κ : Standing} {s₀ s : State} (hQ : s₀.Quiet κ s) :
    s₀.Ends κ (execFoldClearDone s) := by
  unfold execFoldClearDone
  grind (gen := 30) (ematch := 30) only [← State.Quiet.next, ← State.Quiet.during, ← State.Quiet.modLink, ← State.Quiet.put, ← State.Quiet.mk']

theorem State.Quiet.of_execFoldErr {κ : Standing} {s₀ s : State} (hQ : s₀.Quiet κ s) :
    s₀.Ends κ (execFoldErr s) := by
  unfold execFoldErr
  grind (gen := 30) (ematch := 30) only [← State.Quiet.next, ← State.Quiet.during, ← State.Quiet.foldFail]

theorem State.Quiet.of_execRelayDisable {κ : Standing} {s₀ s : State} (hQ : s₀.Quiet κ s) (hm : κ.mem = false) :
    s₀.Ends κ (execRelayDisable s) := by
  unfold execRelayDisable
  grind (gen := 30) (ematch := 30) only [← State.Quiet.next, ← State.Quiet.during, ← State.Quiet.relayCfg]

theorem State.Quiet.of_execRelayFire {κ : Standing} {s₀ s : State} (hQ : s₀.Quiet κ s) (hm : κ.mem = false) (temp : BitVec 10) :
    s₀.Ends κ (execRelayFire temp s) := by
  unfold execRelayFire
  grind (gen := 30) (ematch := 30) only [← State.Quiet.next, ← State.Quiet.during, ← State.Quiet.foldRead, ← State.Quiet.modRelay, ← State.Quiet.suppress, ← State.Quiet.txLesser, ← State.Quiet.mk']

theorem State.Quiet.of_execRelayTry {κ : Standing} {s₀ s : State} (hQ : s₀.Quiet κ s) (hm : κ.mem = false) :
    s₀.Ends κ (execRelayTry s) := by
  unfold execRelayTry
  grind (gen := 30) (ematch := 30) only [← State.Quiet.next, ← State.Quiet.during, ← State.Quiet.foldMod, ← State.Quiet.linkLo, ← State.Quiet.modLink, ← State.Quiet.modRelay, ← State.Quiet.put, ← State.Quiet.raise, ← State.Quiet.mk']

theorem State.Quiet.of_execImmediateAckStart {κ : Standing} {s₀ s : State} (hQ : s₀.Quiet κ s) (hm : κ.mem = false) (temp : BitVec 10) :
    s₀.Ends κ (execImmediateAckStart temp s) := by
  unfold execImmediateAckStart
  refine hQ.during _ ?_
  split
  · exact hQ.next
  · split
    · exact hQ.next
    · refine State.Quiet.endsIte hQ.next (State.Quiet.endsIte (hQ.ackFail _).next (State.Quiet.endsIte (hQ.ackFail _).next ?_))
      split
      · exact ((hQ.raise _).ackFail _).next
      · next he =>
        have hsent := fun t (ht : s₀.Quiet κ t) => ht.txLesser (s.get ACK_CFG_SLOT) t.txArmed temp
        have hgo := hsent _ (hQ.ackLoad hm _ he)
        split
        next hp =>
        rw [hp] at hgo
        exact State.Quiet.endsIte (hgo.modLink _).next ((hgo.ackFail 6).put _ _).next

theorem State.Quiet.of_execAckDecision {κ : Standing} {s₀ s : State} (hQ : s₀.Quiet κ s) (hm : κ.mem = false) :
    s₀.Ends κ (execAckDecision s) := by
  unfold execAckDecision
  grind (gen := 30) (ematch := 30) only [← State.Quiet.next, ← State.Quiet.ackCut, ← State.Quiet.ackFull, ← State.Quiet.during, ← State.Quiet.mk']

theorem State.Quiet.of_execAckWaitTimeout {κ : Standing} {s₀ s : State} (hQ : s₀.Quiet κ s) :
    s₀.Ends κ (execAckWaitTimeout s) := by
  unfold execAckWaitTimeout
  grind (gen := 30) (ematch := 30) only [← State.Quiet.next, ← State.Quiet.during, ← State.Quiet.modLink, ← State.Quiet.put, ← State.Quiet.raise, ← State.Quiet.mk']

theorem State.Quiet.of_execAckPrimWrite {κ : Standing} {s₀ s : State} (hQ : s₀.Quiet κ s) (v : W20) :
    s₀.Ends κ (execAckPrimWrite v s) := by
  unfold execAckPrimWrite
  grind (gen := 30) (ematch := 30) only [← State.Quiet.next, ← State.Quiet.during, ← State.Quiet.setRg]

theorem State.Quiet.of_execRcCopy {κ : Standing} {s₀ s : State} (hQ : s₀.Quiet κ s) (addr : W20) :
    s₀.Ends κ (execRcCopy addr s) := by
  unfold execRcCopy
  grind (gen := 30) (ematch := 30) only [← State.Quiet.next, ← State.Quiet.during, ← State.Quiet.rcCopy]

theorem State.Quiet.of_execRcCopyDone {κ : Standing} {s₀ s : State} (hQ : s₀.Quiet κ s) (hm : κ.mem = false) :
    s₀.Ends κ (execRcCopyDone s) := by
  unfold execRcCopyDone
  grind (gen := 30) (ematch := 30) only [← State.Quiet.next, ← State.Quiet.during, ← State.Quiet.modLink, ← State.Quiet.put, ← State.Quiet.ramWrite, ← State.Quiet.mk']

theorem State.Quiet.of_execKeymapWrite {κ : Standing} {s₀ s : State} (hQ : s₀.Quiet κ s) (k : Fin 64) (v : W20) :
    s₀.Ends κ (execKeymapWrite k v s) := by
  unfold execKeymapWrite
  grind (gen := 30) (ematch := 30) only [← State.Quiet.next, ← State.Quiet.during, ← State.Quiet.keymapSet]

theorem State.Quiet.of_execFrameSent {κ : Standing} {s₀ s : State} (hQ : s₀.Quiet κ s) (hm : κ.mem = false) :
    s₀.Ends κ (execFrameSent s) := by
  unfold execFrameSent
  grind (gen := 30) (ematch := 30) only [← State.Quiet.next, ← State.Quiet.cutDone, ← State.Quiet.during, ← State.Quiet.txDone, ← State.Quiet.mk']

theorem State.Quiet.of_execSramErr {κ : Standing} {s₀ s : State} (hQ : s₀.Quiet κ s) (addr : W20) :
    s₀.Ends κ (execSramErr addr s) := by
  unfold execSramErr
  grind (gen := 30) (ematch := 30) only [← State.Quiet.next, ← State.Quiet.during, ← State.Quiet.report, ← State.Quiet.txAbandon, ← State.Quiet.mk']

theorem State.Quiet.of_execHeaderReceived {κ : Standing} {s₀ s : State} (hQ : s₀.Quiet κ s) (hm : κ.mem = false) (hc : κ.cores = false) (p : Pos) (soft : List Int) :
    s₀.Ends κ (execHeaderReceived p soft s) := by
  unfold execHeaderReceived
  grind (gen := 30) (ematch := 30) only [← State.Quiet.next, ← State.Quiet.decisions, ← State.Quiet.during, ← State.Quiet.headerBad, ← State.Quiet.headerOk, ← State.Quiet.put, ← State.Quiet.stallAbandon, ← State.Quiet.mk']

theorem State.Quiet.of_execBlockQueued {κ : Standing} {s₀ s : State} (hQ : s₀.Quiet κ s) (hm : κ.mem = false) (hc : κ.cores = false) (p : Pos) (soft : List Int := []) :
    s₀.Ends κ (execBlockQueued p s soft) := by
  unfold execBlockQueued
  grind (gen := 30) (ematch := 30) only [← State.Quiet.next, ← State.Quiet.ask, ← State.Quiet.during, ← State.Quiet.modFrames, ← State.Quiet.setFrame, ← State.Quiet.slotNeeded, ← State.Quiet.mk']

theorem State.Quiet.of_execDecodeStart {κ : Standing} {s₀ s : State} (hQ : s₀.Quiet κ s) :
    s₀.Ends κ (execDecodeStart s) := by
  unfold execDecodeStart
  grind (gen := 30) (ematch := 30) only [← State.Quiet.next, ← State.Quiet.during, ← State.Quiet.modFrames, ← State.Quiet.mk']

theorem State.Quiet.of_execDecodeDone {κ : Standing} {s₀ s : State} (hQ : s₀.Quiet κ s) (hm : κ.mem = false) (hc : κ.cores = false) (iters : Nat) (info : List Bool) (parity : List Bool) :
    s₀.Ends κ (execDecodeDone iters info parity s) := by
  unfold execDecodeDone
  grind (gen := 30) (ematch := 30) only [← State.Quiet.next, ← State.Quiet.decodeBits, ← State.Quiet.decodeEnd, ← State.Quiet.during, ← State.Quiet.mk']

theorem State.Quiet.of_execDecoderIdle {κ : Standing} {s₀ s : State} (hQ : s₀.Quiet κ s) :
    s₀.Ends κ (execDecoderIdle s) := by
  unfold execDecoderIdle
  grind (gen := 30) (ematch := 30) only [← State.Quiet.next, ← State.Quiet.drop, ← State.Quiet.during, ← State.Quiet.modFrames, ← State.Quiet.mk']

theorem State.Quiet.of_execDecHoldWrite {κ : Standing} {s₀ s : State} (hQ : s₀.Quiet κ s) (hold : Bool) :
    s₀.Ends κ (execDecHoldWrite hold s) := by
  unfold execDecHoldWrite
  grind (gen := 30) (ematch := 30) only [← State.Quiet.next, ← State.Quiet.decHold, ← State.Quiet.during]

theorem State.Quiet.of_execPacketReceived {κ : Standing} {s₀ s : State} (hQ : s₀.Quiet κ s) (hm : κ.mem = false) (hc : κ.cores = false) (p : Pos) (body : List Bool) :
    s₀.Ends κ (execPacketReceived p body s) := by
  unfold execPacketReceived
  grind (gen := 30) (ematch := 30) only [← State.Quiet.next, ← State.Quiet.during, ← State.Quiet.frameSettle, ← State.Quiet.packetEnd, ← State.Quiet.rawBody, ← State.Quiet.sunBody, ← State.Quiet.mk']

theorem State.Quiet.of_execLatticeConfigWrite {κ : Standing} {s₀ s : State} (hQ : s₀.Quiet κ s) (src : Source) (ofs : BitVec 12) (v : W20) :
    s₀.Ends κ (execLatticeConfigWrite src ofs v s) := by
  unfold execLatticeConfigWrite
  grind (gen := 30) (ematch := 30) only [← State.Quiet.next, ← State.Quiet.during, ← State.Quiet.latWrite, ← State.Quiet.reachWith]

theorem State.Quiet.of_execStorm {κ : Standing} {s₀ s : State} (hQ : s₀.Quiet κ s) (ch : Fin 64) :
    s₀.Ends κ (execStorm ch s) := by
  unfold execStorm
  grind (gen := 30) (ematch := 30) only [← State.Quiet.next, ← State.Quiet.during, ← State.Quiet.put, ← State.Quiet.raise, ← State.Quiet.report, ← State.Quiet.mk']

theorem State.Quiet.of_execDmaStart {κ : Standing} {s₀ s : State} (hQ : s₀.Quiet κ s) (ch : Fin 12) :
    s₀.Ends κ (execDmaStart ch s) := by
  unfold execDmaStart
  grind (gen := 30) (ematch := 30) only [← State.Quiet.next, ← State.Quiet.dmaStartWrite, ← State.Quiet.during]

theorem State.Quiet.of_execDmaAbort {κ : Standing} {s₀ s : State} (hQ : s₀.Quiet κ s) (hm : κ.mem = false) (ch : Fin 12) :
    s₀.Ends κ (execDmaAbort ch s) := by
  unfold execDmaAbort
  grind (gen := 30) (ematch := 30) only [← State.Quiet.next, ← State.Quiet.dmaAbort, ← State.Quiet.during]

theorem State.Quiet.of_execDmaResume {κ : Standing} {s₀ s : State} (hQ : s₀.Quiet κ s) (hm : κ.mem = false) (ch : Fin 12) :
    s₀.Ends κ (execDmaResume ch s) := by
  unfold execDmaResume
  grind (gen := 30) (ematch := 30) only [← State.Quiet.next, ← State.Quiet.dmaResume, ← State.Quiet.during]

theorem State.Quiet.of_execDmaHaltRelease {κ : Standing} {s₀ s : State} (hQ : s₀.Quiet κ s) :
    s₀.Ends κ (execDmaHaltRelease s) := by
  unfold execDmaHaltRelease
  grind (gen := 30) (ematch := 30) only [← State.Quiet.next, ← State.Quiet.during, ← State.Quiet.put]

theorem State.Quiet.of_execDmaIdle {κ : Standing} {s₀ s : State} (hQ : s₀.Quiet κ s) :
    s₀.Ends κ (execDmaIdle s) := by
  unfold execDmaIdle
  grind (gen := 30) (ematch := 30) only [← State.Quiet.next, ← State.Quiet.drop, ← State.Quiet.during]

theorem State.Quiet.of_execChdCtlWrite {κ : Standing} {s₀ s : State} (hQ : s₀.Quiet κ s) (v : W20) :
    s₀.Ends κ (execChdCtlWrite v s) := by
  unfold execChdCtlWrite
  grind (gen := 30) (ematch := 30) only [← State.Quiet.next, ← State.Quiet.chdCtl, ← State.Quiet.during]

theorem State.Quiet.of_execBypassChange {κ : Standing} {s₀ s : State} (hQ : s₀.Quiet κ s) :
    s₀.Ends κ (execBypassChange s) := by
  unfold execBypassChange
  grind (gen := 30) (ematch := 30) only [← State.Quiet.next, ← State.Quiet.during, ← State.Quiet.modChord, ← State.Quiet.put, ← State.Quiet.mk']

theorem State.Quiet.of_execRepeatLock {κ : Standing} {s₀ s : State} (hQ : s₀.Quiet κ s) (portA : Bool) (portB : Bool) :
    s₀.Ends κ (execRepeatLock portA portB s) := by
  unfold execRepeatLock
  grind (gen := 30) (ematch := 30) only [← State.Quiet.next, ← State.Quiet.during, ← State.Quiet.modChord, ← State.Quiet.mk']

theorem State.Quiet.of_execRepeatRelease {κ : Standing} {s₀ s : State} (hQ : s₀.Quiet κ s) :
    s₀.Ends κ (execRepeatRelease s) := by
  unfold execRepeatRelease
  grind (gen := 30) (ematch := 30) only [← State.Quiet.next, ← State.Quiet.chordBusy, ← State.Quiet.during, ← State.Quiet.modChord, ← State.Quiet.mk']

theorem State.Quiet.of_execBayStart {κ : Standing} {s₀ s : State} (hQ : s₀.Quiet κ s) (e : Fin 32) :
    s₀.Ends κ (execBayStart e s) := by
  unfold execBayStart
  grind (gen := 30) (ematch := 30) only [← State.Quiet.next, ← State.Quiet.bayDrive, ← State.Quiet.bayKnock, ← State.Quiet.bayTime, ← State.Quiet.burst, ← State.Quiet.during, ← State.Quiet.modChord, ← State.Quiet.put, ← State.Quiet.setBay, ← State.Quiet.unrepeat, ← State.Quiet.mk']

theorem State.Quiet.of_execBayEnd {κ : Standing} {s₀ s : State} (hQ : s₀.Quiet κ s) :
    s₀.Ends κ (execBayEnd s) := by
  unfold execBayEnd
  grind (gen := 30) (ematch := 30) only [← State.Quiet.next, ← State.Quiet.bayClose, ← State.Quiet.during, ← State.Quiet.mk']

theorem State.Quiet.of_execCtxReadyWrite {κ : Standing} {s₀ s : State} (hQ : s₀.Quiet κ s) (k : Fin 8) (v : W20) :
    s₀.Ends κ (execCtxReadyWrite k v s) := by
  unfold execCtxReadyWrite
  grind (gen := 30) (ematch := 30) only [← State.Quiet.next, ← State.Quiet.ctxCtl, ← State.Quiet.during]

theorem State.Quiet.of_execChordFrameSent {κ : Standing} {s₀ s : State} (hQ : s₀.Quiet κ s) :
    s₀.Ends κ (execChordFrameSent s) := by
  unfold execChordFrameSent
  grind (gen := 30) (ematch := 30) only [← State.Quiet.next, ← State.Quiet.chordBusy, ← State.Quiet.ctxSent, ← State.Quiet.during, ← State.Quiet.modBay, ← State.Quiet.modChord, ← State.Quiet.mk']

theorem State.Quiet.of_execHalterDataFrameStart {κ : Standing} {s₀ s : State} (hQ : s₀.Quiet κ s) (k : Fin 8) :
    s₀.Ends κ (execHalterDataFrameStart k s) := by
  unfold execHalterDataFrameStart
  grind (gen := 30) (ematch := 30) only [← State.Quiet.next, ← State.Quiet.ctxBegin, ← State.Quiet.during, ← State.Quiet.fresh, ← State.Quiet.modChord, ← State.Quiet.mk']

theorem State.Quiet.of_execTimeFrameEmit {κ : Standing} {s₀ s : State} (hQ : s₀.Quiet κ s) (frac : BitVec 8) :
    s₀.Ends κ (execTimeFrameEmit frac s) := by
  unfold execTimeFrameEmit
  grind (gen := 30) (ematch := 30) only [← State.Quiet.next, ← State.Quiet.during, ← State.Quiet.emitTime, ← State.Quiet.modChord, ← State.Quiet.mk']

theorem State.Quiet.of_execChordFrameReceived {κ : Standing} {s₀ s : State} (hQ : s₀.Quiet κ s) (port : Port) (rx : ChordRx) :
    s₀.Ends κ (execChordFrameReceived port rx s) := by
  unfold execChordFrameReceived
  grind (gen := 30) (ematch := 30) only [← State.Quiet.next, ← State.Quiet.bump, ← State.Quiet.chordBusy, ← State.Quiet.chordCutOne, ← State.Quiet.chordFrame, ← State.Quiet.during, ← State.Quiet.raise, ← State.Quiet.mk']

theorem State.Quiet.of_execRangingBurstReceived {κ : Standing} {s₀ s : State} (hQ : s₀.Quiet κ s) (port : Port) (frac : BitVec 8 := 0) :
    s₀.Ends κ (execRangingBurstReceived port s frac) := by
  unfold execRangingBurstReceived
  grind (gen := 30) (ematch := 30) only [← State.Quiet.next, ← State.Quiet.burst, ← State.Quiet.during, ← State.Quiet.modBay, ← State.Quiet.mk']

theorem State.Quiet.of_execRangingEchoReceived {κ : Standing} {s₀ s : State} (hQ : s₀.Quiet κ s) (port : Port) (ns : Nat) :
    s₀.Ends κ (execRangingEchoReceived port ns s) := by
  unfold execRangingEchoReceived
  grind (gen := 30) (ematch := 30) only [← State.Quiet.next, ← State.Quiet.during, ← State.Quiet.modBay, ← State.Quiet.setRg, ← State.Quiet.mk']

theorem State.Quiet.of_execNorange {κ : Standing} {s₀ s : State} (hQ : s₀.Quiet κ s) (port : Port) :
    s₀.Ends κ (execNorange port s) := by
  unfold execNorange
  grind (gen := 30) (ematch := 30) only [← State.Quiet.next, ← State.Quiet.during, ← State.Quiet.raise, ← State.Quiet.setRg, ← State.Quiet.mk']

theorem State.Quiet.of_execRangingPhase2 {κ : Standing} {s₀ s : State} (hQ : s₀.Quiet κ s) :
    s₀.Ends κ (execRangingPhase2 s) := by
  unfold execRangingPhase2
  grind (gen := 30) (ematch := 30) only [← State.Quiet.next, ← State.Quiet.burst, ← State.Quiet.during, ← State.Quiet.modBay, ← State.Quiet.mk']

theorem State.Quiet.of_execChordKnocked {κ : Standing} {s₀ s : State} (hQ : s₀.Quiet κ s) (syms : BitVec 64 := 0xF0E1D2C3B4A59687) :
    s₀.Ends κ (execChordKnocked s syms) := by
  unfold execChordKnocked
  grind (gen := 30) (ematch := 30) only [← State.Quiet.next, ← State.Quiet.bump, ← State.Quiet.during, ← State.Quiet.raise]

theorem State.Quiet.of_execITnow {κ : Standing} {s₀ s : State} (hQ : s₀.Quiet κ s) (hc : κ.cores = false) (c : CoreId) (d : RegId) :
    s₀.Ends κ (execITnow c d s) := by
  unfold execITnow
  grind (gen := 30) (ematch := 30) only [← State.Quiet.next, ← State.Quiet.plain]

theorem State.Quiet.of_execIWat {κ : Standing} {s₀ s : State} (hQ : s₀.Quiet κ s) (hc : κ.cores = false) (c : CoreId) (a : RegId) :
    s₀.Ends κ (execIWat c a s) := by
  unfold execIWat
  exact hQ.instr c (State.Quiet.ite (hQ.illegal hc c) (hQ.setCore hc c _))

theorem State.Quiet.of_execWatRelease {κ : Standing} {s₀ s : State} (hQ : s₀.Quiet κ s) (hc : κ.cores = false) (c : CoreId) :
    s₀.Ends κ (execWatRelease c s) := by
  unfold execWatRelease
  grind (gen := 30) (ematch := 30) only [← State.Quiet.next, ← State.Quiet.setCore, ← State.Quiet.mk']

theorem State.Quiet.of_execIPost {κ : Standing} {s₀ s : State} (hQ : s₀.Quiet κ s) (hc : κ.cores = false) (c : CoreId) (a : RegId) (b : RegId) :
    s₀.Ends κ (execIPost c a b s) := by
  unfold execIPost
  grind (gen := 30) (ematch := 30) only [← State.Quiet.next, ← State.Quiet.event, ← State.Quiet.fire, ← State.Quiet.instr, ← State.Quiet.modCore, ← State.Quiet.privOp]

theorem State.Quiet.of_execISense {κ : Standing} {s₀ s : State} (hQ : s₀.Quiet κ s) (hc : κ.cores = false) (c : CoreId) (d : RegId) (a : RegId) :
    s₀.Ends κ (execISense c d a s) := by
  unfold execISense
  grind (gen := 30) (ematch := 30) only [← State.Quiet.next, ← State.Quiet.plain, ← State.Quiet.mk']

theorem State.Quiet.of_execIAck {κ : Standing} {s₀ s : State} (hQ : s₀.Quiet κ s) (hc : κ.cores = false) (c : CoreId) (a : RegId) :
    s₀.Ends κ (execIAck c a s) := by
  unfold execIAck
  grind (gen := 30) (ematch := 30) only [← State.Quiet.next, ← State.Quiet.instr, ← State.Quiet.latchReqs, ← State.Quiet.setCore, ← State.Quiet.mk']

theorem State.Quiet.of_execIWev {κ : Standing} {s₀ s : State} (hQ : s₀.Quiet κ s) (hc : κ.cores = false) (c : CoreId) (d : RegId) (a : RegId) (b : RegId) :
    s₀.Ends κ (execIWev c d a b s) := by
  unfold execIWev
  grind (gen := 30) (ematch := 30) only [← State.Quiet.next, ← State.Quiet.instr, ← State.Quiet.setCore, ← State.Quiet.mk']

theorem State.Quiet.of_execWevEvent {κ : Standing} {s₀ s : State} (hQ : s₀.Quiet κ s) (hc : κ.cores = false) (c : CoreId) :
    s₀.Ends κ (execWevEvent c s) := by
  unfold execWevEvent
  grind (gen := 30) (ematch := 30) only [← State.Quiet.next, ← State.Quiet.setCore, ← State.Quiet.mk']

theorem State.Quiet.of_execWevTimeout {κ : Standing} {s₀ s : State} (hQ : s₀.Quiet κ s) (hc : κ.cores = false) (c : CoreId) :
    s₀.Ends κ (execWevTimeout c s) := by
  unfold execWevTimeout
  grind (gen := 30) (ematch := 30) only [← State.Quiet.next, ← State.Quiet.setCore, ← State.Quiet.mk']

theorem State.Quiet.of_execITake {κ : Standing} {s₀ s : State} (hQ : s₀.Quiet κ s) (hc : κ.cores = false) (c : CoreId) (d : RegId) (a : RegId) (b : RegId) :
    s₀.Ends κ (execITake c d a b s) := by
  unfold execITake
  grind (gen := 30) (ematch := 30) only [← State.Quiet.next, ← State.Quiet.addWait, ← State.Quiet.instr, ← State.Quiet.modCore, ← State.Quiet.raise, ← State.Quiet.setCore, ← State.Quiet.setProgram, ← State.Quiet.mk']

theorem State.Quiet.of_execIGive {κ : Standing} {s₀ s : State} (hQ : s₀.Quiet κ s) (hc : κ.cores = false) (c : CoreId) (d : RegId) (a : RegId) :
    s₀.Ends κ (execIGive c d a s) := by
  unfold execIGive
  grind (gen := 30) (ematch := 30) only [← State.Quiet.next, ← State.Quiet.give, ← State.Quiet.instr, ← State.Quiet.modCore]

theorem State.Quiet.of_execIMfs {κ : Standing} {s₀ s : State} (hQ : s₀.Quiet κ s) (hc : κ.cores = false) (c : CoreId) (d : RegId) (sr : BitVec 8) :
    s₀.Ends κ (execIMfs c d sr s) := by
  unfold execIMfs
  grind (gen := 30) (ematch := 30) only [← State.Quiet.next, ← State.Quiet.illegal, ← State.Quiet.instr, ← State.Quiet.privOp, ← State.Quiet.setCore, ← State.Quiet.mk']

theorem State.Quiet.of_execIMts {κ : Standing} {s₀ s : State} (hQ : s₀.Quiet κ s) (hc : κ.cores = false) (c : CoreId) (sr : BitVec 8) (d : RegId) :
    s₀.Ends κ (execIMts c sr d s) := by
  unfold execIMts
  grind (gen := 30) (ematch := 30) only [← State.Quiet.next, ← State.Quiet.illegal, ← State.Quiet.instr, ← State.Quiet.privOp, ← State.Quiet.setCore, ← State.Quiet.mk']

theorem State.Quiet.of_execIRti {κ : Standing} {s₀ s : State} (hQ : s₀.Quiet κ s) (hc : κ.cores = false) (c : CoreId) :
    s₀.Ends κ (execIRti c s) := by
  unfold execIRti
  grind (gen := 30) (ematch := 30) only [← State.Quiet.next, ← State.Quiet.illegal, ← State.Quiet.instr, ← State.Quiet.privOp, ← State.Quiet.setCore, ← State.Quiet.mk']

theorem State.Quiet.of_execIHalt {κ : Standing} {s₀ s : State} (hQ : s₀.Quiet κ s) (hc : κ.cores = false) (c : CoreId) :
    s₀.Ends κ (execIHalt c s) := by
  unfold execIHalt
  grind (gen := 30) (ematch := 30) only [← State.Quiet.next, ← State.Quiet.instr, ← State.Quiet.privOp, ← State.Quiet.setCore, ← State.Quiet.mk']

theorem State.Quiet.of_execInterruptEntry {κ : Standing} {s₀ s : State} (hQ : s₀.Quiet κ s) (hc : κ.cores = false) (c : CoreId) :
    s₀.Ends κ (execInterruptEntry c s) := by
  unfold execInterruptEntry
  grind (gen := 30) (ematch := 30) only [← State.Quiet.next, ← State.Quiet.setCore, ← State.Quiet.withdrawTake, ← State.Quiet.mk']

theorem State.Quiet.of_execIllegalOp {κ : Standing} {s₀ s : State} (hQ : s₀.Quiet κ s) (hc : κ.cores = false) (c : CoreId) (w : W20) (x : W20) :
    s₀.Ends κ (execIllegalOp c w x s) := by
  unfold execIllegalOp
  grind (gen := 30) (ematch := 30) only [← State.Quiet.next, ← State.Quiet.illegal, ← State.Quiet.instr]

theorem State.Quiet.of_execFetchFault {κ : Standing} {s₀ s : State} (hQ : s₀.Quiet κ s) (hc : κ.cores = false) (c : CoreId) (addr : BitVec 16) (twoWord : Bool) :
    s₀.Ends κ (execFetchFault c addr twoWord s) := by
  unfold execFetchFault
  grind (gen := 30) (ematch := 30) only [← State.Quiet.next, ← State.Quiet.fresh, ← State.Quiet.instr, ← State.Quiet.loftRead, ← State.Quiet.takeException, ← State.Quiet.mk']

theorem State.Quiet.of_execCoreReset {κ : Standing} {s₀ s : State} (hQ : s₀.Quiet κ s) (hc : κ.cores = false) (c : CoreId) :
    s₀.Ends κ (execCoreReset c s) := by
  unfold execCoreReset
  grind (gen := 30) (ematch := 30) only [← State.Quiet.next, ← State.Quiet.coreReset, ← State.Quiet.during]

theorem State.Quiet.of_execCoreRun {κ : Standing} {s₀ s : State} (hQ : s₀.Quiet κ s) (hc : κ.cores = false) (c : CoreId) (run : Bool) :
    s₀.Ends κ (execCoreRun c run s) := by
  unfold execCoreRun
  grind (gen := 30) (ematch := 30) only [← State.Quiet.next, ← State.Quiet.coreOff, ← State.Quiet.coreOn, ← State.Quiet.during]

theorem State.Quiet.of_execLoftWrite {κ : Standing} {s₀ s : State} (hQ : s₀.Quiet κ s) (hm : κ.mem = false) (c : CoreId) (v : W20) :
    s₀.Ends κ (execLoftWrite c v s) := by
  unfold execLoftWrite
  grind (gen := 30) (ematch := 30) only [← State.Quiet.next, ← State.Quiet.during, ← State.Quiet.loftPut]

theorem State.Quiet.of_execLoftRead {κ : Standing} {s₀ s : State} (hQ : s₀.Quiet κ s) (c : CoreId) :
    s₀.Ends κ (execLoftRead c s) := by
  unfold execLoftRead
  grind (gen := 30) (ematch := 30) only [← State.Quiet.next, ← State.Quiet.during, ← State.Quiet.loftGet]

theorem State.Quiet.of_execTrGenerate {κ : Standing} {s₀ s : State} (hQ : s₀.Quiet κ s) (hc : κ.cores = false) (src : Source) (slot : Fin 64) :
    s₀.Ends κ (execTrGenerate src slot s) := by
  unfold execTrGenerate
  grind (gen := 30) (ematch := 30) only [← State.Quiet.next, ← State.Quiet.during, ← State.Quiet.reachWith, ← State.Quiet.trCmd]

theorem State.Quiet.of_execTrImportEcdh {κ : Standing} {s₀ s : State} (hQ : s₀.Quiet κ s) (hc : κ.cores = false) (src : Source) (slot : Fin 64) :
    s₀.Ends κ (execTrImportEcdh src slot s) := by
  unfold execTrImportEcdh
  grind (gen := 30) (ematch := 30) only [← State.Quiet.next, ← State.Quiet.during, ← State.Quiet.reachWith, ← State.Quiet.trCmd]

theorem State.Quiet.of_execTrImportKek {κ : Standing} {s₀ s : State} (hQ : s₀.Quiet κ s) (hc : κ.cores = false) (src : Source) (slot : Fin 64) :
    s₀.Ends κ (execTrImportKek src slot s) := by
  unfold execTrImportKek
  grind (gen := 30) (ematch := 30) only [← State.Quiet.next, ← State.Quiet.during, ← State.Quiet.reachWith, ← State.Quiet.trCmd]

theorem State.Quiet.of_execTrErase {κ : Standing} {s₀ s : State} (hQ : s₀.Quiet κ s) (hc : κ.cores = false) (src : Source) (slot : Fin 64) :
    s₀.Ends κ (execTrErase src slot s) := by
  unfold execTrErase
  grind (gen := 30) (ematch := 30) only [← State.Quiet.next, ← State.Quiet.during, ← State.Quiet.reachWith, ← State.Quiet.trCmd]

theorem State.Quiet.of_execTrExport {κ : Standing} {s₀ s : State} (hQ : s₀.Quiet κ s) (hc : κ.cores = false) (src : Source) (slot : Fin 64) :
    s₀.Ends κ (execTrExport src slot s) := by
  unfold execTrExport
  grind (gen := 30) (ematch := 30) only [← State.Quiet.next, ← State.Quiet.during, ← State.Quiet.reachWith, ← State.Quiet.trCmd]

theorem State.Quiet.of_execTrRestore {κ : Standing} {s₀ s : State} (hQ : s₀.Quiet κ s) (hc : κ.cores = false) (src : Source) (slot : Fin 64) :
    s₀.Ends κ (execTrRestore src slot s) := by
  unfold execTrRestore
  grind (gen := 30) (ematch := 30) only [← State.Quiet.next, ← State.Quiet.during, ← State.Quiet.reachWith, ← State.Quiet.trCmd]

theorem State.Quiet.of_execTrCommandDone {κ : Standing} {s₀ s : State} (hQ : s₀.Quiet κ s) (hm : κ.mem = false) (hc : κ.cores = false) :
    s₀.Ends κ (execTrCommandDone s) := by
  unfold execTrCommandDone
  grind (gen := 30) (ematch := 30) only [← State.Quiet.next, ← State.Quiet.during, ← State.Quiet.modCipher, ← State.Quiet.put, ← State.Quiet.raise, ← State.Quiet.trApply, ← State.Quiet.mk']

theorem State.Quiet.of_execCphSubmit {κ : Standing} {s₀ s : State} (hQ : s₀.Quiet κ s) (src : Fin 7) (addr : W20) :
    s₀.Ends κ (execCphSubmit src addr s) := by
  unfold execCphSubmit
  grind (gen := 30) (ematch := 30) only [← State.Quiet.next, ← State.Quiet.cphSubmit, ← State.Quiet.during, ← State.Quiet.reachWith]

theorem State.Quiet.of_execCipherAccept {κ : Standing} {s₀ s : State} (hQ : s₀.Quiet κ s) (hm : κ.mem = false) :
    s₀.Ends κ (execCipherAccept s) := by
  unfold execCipherAccept
  grind (gen := 30) (ematch := 30) only [← State.Quiet.next, ← State.Quiet.cphAccept, ← State.Quiet.cphRecord, ← State.Quiet.cphRefuse, ← State.Quiet.during, ← State.Quiet.modCipher, ← State.Quiet.mk']

theorem State.Quiet.of_execCipherRequestStart {κ : Standing} {s₀ s : State} (hQ : s₀.Quiet κ s) :
    s₀.Ends κ (execCipherRequestStart s) := by
  unfold execCipherRequestStart
  grind (gen := 30) (ematch := 30) only [← State.Quiet.next, ← State.Quiet.cphBegin, ← State.Quiet.during, ← State.Quiet.mk']

theorem State.Quiet.of_execCipherRequestDone {κ : Standing} {s₀ s : State} (hQ : s₀.Quiet κ s) (hm : κ.mem = false) (hc : κ.cores = false) :
    s₀.Ends κ (execCipherRequestDone s) := by
  unfold execCipherRequestDone
  grind (gen := 30) (ematch := 30) only [← State.Quiet.next, ← State.Quiet.cphResult, ← State.Quiet.cqCheck, ← State.Quiet.during, ← State.Quiet.linkEnd, ← State.Quiet.modCipher, ← State.Quiet.pieceEnd, ← State.Quiet.mk']

theorem State.Quiet.of_execCipherIdle {κ : Standing} {s₀ s : State} (hQ : s₀.Quiet κ s) :
    s₀.Ends κ (execCipherIdle s) := by
  unfold execCipherIdle
  grind (gen := 30) (ematch := 30) only [← State.Quiet.next, ← State.Quiet.drop, ← State.Quiet.during, ← State.Quiet.modCipher, ← State.Quiet.mk']

theorem State.Quiet.of_execHashInit {κ : Standing} {s₀ s : State} (hQ : s₀.Quiet κ s) (hm : κ.mem = false) (hc : κ.cores = false) :
    s₀.Ends κ (execHashInit s) := by
  unfold execHashInit
  grind (gen := 30) (ematch := 30) only [← State.Quiet.next, ← State.Quiet.during, ← State.Quiet.hpkCmd]

theorem State.Quiet.of_execHashUpdate {κ : Standing} {s₀ s : State} (hQ : s₀.Quiet κ s) (hm : κ.mem = false) (hc : κ.cores = false) :
    s₀.Ends κ (execHashUpdate s) := by
  unfold execHashUpdate
  grind (gen := 30) (ematch := 30) only [← State.Quiet.next, ← State.Quiet.during, ← State.Quiet.hpkCmd]

theorem State.Quiet.of_execHashFinal {κ : Standing} {s₀ s : State} (hQ : s₀.Quiet κ s) (hm : κ.mem = false) (hc : κ.cores = false) :
    s₀.Ends κ (execHashFinal s) := by
  unfold execHashFinal
  grind (gen := 30) (ematch := 30) only [← State.Quiet.next, ← State.Quiet.during, ← State.Quiet.hpkCmd]

theorem State.Quiet.of_execHpkVerify {κ : Standing} {s₀ s : State} (hQ : s₀.Quiet κ s) (hm : κ.mem = false) (hc : κ.cores = false) :
    s₀.Ends κ (execHpkVerify s) := by
  unfold execHpkVerify
  grind (gen := 30) (ematch := 30) only [← State.Quiet.next, ← State.Quiet.during, ← State.Quiet.hpkCmd]

theorem State.Quiet.of_execHpkSignId {κ : Standing} {s₀ s : State} (hQ : s₀.Quiet κ s) (hm : κ.mem = false) (hc : κ.cores = false) (src : Source) :
    s₀.Ends κ (execHpkSignId src s) := by
  unfold execHpkSignId
  grind (gen := 30) (ematch := 30) only [← State.Quiet.next, ← State.Quiet.during, ← State.Quiet.hpkCmd, ← State.Quiet.reachWith]

theorem State.Quiet.of_execHpkIdRecord {κ : Standing} {s₀ s : State} (hQ : s₀.Quiet κ s) (hm : κ.mem = false) (hc : κ.cores = false) :
    s₀.Ends κ (execHpkIdRecord s) := by
  unfold execHpkIdRecord
  grind (gen := 30) (ematch := 30) only [← State.Quiet.next, ← State.Quiet.during, ← State.Quiet.hpkCmd]

theorem State.Quiet.of_execHpkCommandDone {κ : Standing} {s₀ s : State} (hQ : s₀.Quiet κ s) (hm : κ.mem = false) :
    s₀.Ends κ (execHpkCommandDone s) := by
  unfold execHpkCommandDone
  grind (gen := 30) (ematch := 30) only [← State.Quiet.next, ← State.Quiet.dmaStop, ← State.Quiet.during, ← State.Quiet.modCipher, ← State.Quiet.put, ← State.Quiet.raise, ← State.Quiet.wideWrite, ← State.Quiet.mk']

theorem State.Quiet.of_execTrngDataRead {κ : Standing} {s₀ s : State} (hQ : s₀.Quiet κ s) :
    s₀.Ends κ (execTrngDataRead s) := by
  unfold execTrngDataRead
  grind (gen := 30) (ematch := 30) only [← State.Quiet.next, ← State.Quiet.during, ← State.Quiet.trngRead]

theorem State.Quiet.of_execTrngHealthFail {κ : Standing} {s₀ s : State} (hQ : s₀.Quiet κ s) (rct : Bool) (apt : Bool) :
    s₀.Ends κ (execTrngHealthFail rct apt s) := by
  unfold execTrngHealthFail
  grind (gen := 30) (ematch := 30) only [← State.Quiet.next, ← State.Quiet.during, ← State.Quiet.modCipher, ← State.Quiet.put, ← State.Quiet.report, ← State.Quiet.mk']

theorem State.Quiet.of_execTrngRestart {κ : Standing} {s₀ s : State} (hQ : s₀.Quiet κ s) (passed : Bool) :
    s₀.Ends κ (execTrngRestart passed s) := by
  unfold execTrngRestart
  grind (gen := 30) (ematch := 30) only [← State.Quiet.next, ← State.Quiet.during, ← State.Quiet.trngRestart]

theorem State.Quiet.of_execYardDisable {κ : Standing} {s₀ s : State} (hQ : s₀.Quiet κ s) (hm : κ.mem = false) (hc : κ.cores = false) :
    s₀.Ends κ (execYardDisable s) := by
  unfold execYardDisable
  grind (gen := 30) (ematch := 30) only [← State.Quiet.next, ← State.Quiet.during, ← State.Quiet.yardStop]

theorem State.Quiet.of_execYardCommandRetire {κ : Standing} {s₀ s : State} (hQ : s₀.Quiet κ s) (hm : κ.mem = false) (hc : κ.cores = false) (ch : Fin 2) :
    s₀.Ends κ (execYardCommandRetire ch s) := by
  unfold execYardCommandRetire
  grind (gen := 30) (ematch := 30) only [← State.Quiet.next, ← State.Quiet.during, ← State.Quiet.yardRetire]

theorem State.Quiet.of_execYardAlert {κ : Standing} {s₀ s : State} (hQ : s₀.Quiet κ s) (hm : κ.mem = false) (hc : κ.cores = false) (ch : Fin 2) :
    s₀.Ends κ (execYardAlert ch s) := by
  unfold execYardAlert
  grind (gen := 30) (ematch := 30) only [← State.Quiet.next, ← State.Quiet.during, ← State.Quiet.yardAlert]

theorem State.Quiet.of_execYardSelfRefreshEnter {κ : Standing} {s₀ s : State} (hQ : s₀.Quiet κ s) (hm : κ.mem = false) (hc : κ.cores = false) :
    s₀.Ends κ (execYardSelfRefreshEnter s) := by
  unfold execYardSelfRefreshEnter
  grind (gen := 30) (ematch := 30) only [← State.Quiet.next, ← State.Quiet.during, ← State.Quiet.yardRest, ← State.Quiet.of_deliver]

theorem State.Quiet.of_execYardSupplyLost {κ : Standing} {s₀ s : State} (hQ : s₀.Quiet κ s) (hm : κ.mem = false) (hc : κ.cores = false) :
    s₀.Ends κ (execYardSupplyLost s) := by
  unfold execYardSupplyLost
  grind (gen := 30) (ematch := 30) only [← State.Quiet.next, ← State.Quiet.live, ← State.Quiet.yardLostSupply, ← State.Quiet.of_deliver]

theorem State.Quiet.of_execYardSoftRepair {κ : Standing} {s₀ s : State} (hQ : s₀.Quiet κ s) (hm : κ.mem = false) (hc : κ.cores = false) (v : W20) (noResource : Bool) :
    s₀.Ends κ (execYardSoftRepair v noResource s) := by
  unfold execYardSoftRepair
  grind (gen := 30) (ematch := 30) only [← State.Quiet.next, ← State.Quiet.during, ← State.Quiet.yardRepair, ← State.Quiet.of_deliver]

theorem State.Quiet.of_execYardHardRepair {κ : Standing} {s₀ s : State} (hQ : s₀.Quiet κ s) (hm : κ.mem = false) (hc : κ.cores = false) (v : W20) (noResource : Bool) :
    s₀.Ends κ (execYardHardRepair v noResource s) := by
  unfold execYardHardRepair
  grind (gen := 30) (ematch := 30) only [← State.Quiet.next, ← State.Quiet.during, ← State.Quiet.yardRepair, ← State.Quiet.of_deliver]

theorem State.Quiet.of_execUpdManifest {κ : Standing} {s₀ s : State} (hQ : s₀.Quiet κ s) (src : Source) :
    s₀.Ends κ (execUpdManifest src s) := by
  unfold execUpdManifest
  grind (gen := 30) (ematch := 30) only [← State.Quiet.next, ← State.Quiet.during, ← State.Quiet.reachWith, ← State.Quiet.updCmd]

theorem State.Quiet.of_execUpdResume {κ : Standing} {s₀ s : State} (hQ : s₀.Quiet κ s) (src : Source) :
    s₀.Ends κ (execUpdResume src s) := by
  unfold execUpdResume
  grind (gen := 30) (ematch := 30) only [← State.Quiet.next, ← State.Quiet.during, ← State.Quiet.reachWith, ← State.Quiet.updCmd]

theorem State.Quiet.of_execUpdPiece {κ : Standing} {s₀ s : State} (hQ : s₀.Quiet κ s) (src : Source) :
    s₀.Ends κ (execUpdPiece src s) := by
  unfold execUpdPiece
  grind (gen := 30) (ematch := 30) only [← State.Quiet.next, ← State.Quiet.during, ← State.Quiet.reachWith, ← State.Quiet.updCmd]

theorem State.Quiet.of_execUpdApply {κ : Standing} {s₀ s : State} (hQ : s₀.Quiet κ s) (src : Source) (part : BitVec 3) :
    s₀.Ends κ (execUpdApply src part s) := by
  unfold execUpdApply
  grind (gen := 30) (ematch := 30) only [← State.Quiet.next, ← State.Quiet.during, ← State.Quiet.reachWith, ← State.Quiet.updCmd]

theorem State.Quiet.of_execUpdConfirm {κ : Standing} {s₀ s : State} (hQ : s₀.Quiet κ s) (src : Source) (part : BitVec 3) :
    s₀.Ends κ (execUpdConfirm src part s) := by
  unfold execUpdConfirm
  grind (gen := 30) (ematch := 30) only [← State.Quiet.next, ← State.Quiet.during, ← State.Quiet.reachWith, ← State.Quiet.updCmd]

theorem State.Quiet.of_execUpdPieceOut {κ : Standing} {s₀ s : State} (hQ : s₀.Quiet κ s) (src : Source) (part : BitVec 3) (idx : BitVec 14) :
    s₀.Ends κ (execUpdPieceOut src part idx s) := by
  unfold execUpdPieceOut
  grind (gen := 30) (ematch := 30) only [← State.Quiet.next, ← State.Quiet.during, ← State.Quiet.reachWith, ← State.Quiet.updCmd]

theorem State.Quiet.of_execUpdAbandon {κ : Standing} {s₀ s : State} (hQ : s₀.Quiet κ s) (src : Source) :
    s₀.Ends κ (execUpdAbandon src s) := by
  unfold execUpdAbandon
  grind (gen := 30) (ematch := 30) only [← State.Quiet.next, ← State.Quiet.during, ← State.Quiet.reachWith, ← State.Quiet.updCmd]

theorem State.Quiet.of_execUpdCommandDone {κ : Standing} {s₀ s : State} (hQ : s₀.Quiet κ s) (hm : κ.mem = false) (hc : κ.cores = false) (flashOk : Bool) :
    s₀.Ends κ (execUpdCommandDone flashOk s) := by
  unfold execUpdCommandDone
  grind (gen := 30) (ematch := 30) only [← State.Quiet.next, ← State.Quiet.during, ← State.Quiet.put, ← State.Quiet.updEnd, ← State.Quiet.mk']

theorem State.Quiet.of_execUpdAreaWrite {κ : Standing} {s₀ s : State} (hQ : s₀.Quiet κ s) (q : Fin 4) (v : W20) :
    s₀.Ends κ (execUpdAreaWrite q v s) := by
  unfold execUpdAreaWrite
  grind (gen := 30) (ematch := 30) only [← State.Quiet.next, ← State.Quiet.areaWrite, ← State.Quiet.during]

theorem State.Quiet.of_execResetSoftWarm {κ : Standing} {s₀ s : State} (hQ : s₀.Quiet κ s) (hm : κ.mem = false) (hc : κ.cores = false) (hp : κ.power = false) (src : Source) :
    s₀.Ends κ (execResetSoftWarm src s) := by
  unfold execResetSoftWarm
  grind (gen := 30) (ematch := 30) only [← State.Quiet.next, ← State.Quiet.reachWith, ← State.Quiet.sysRst]

theorem State.Quiet.of_execResetSoftCold {κ : Standing} {s₀ s : State} (hQ : s₀.Quiet κ s) (hm : κ.mem = false) (hc : κ.cores = false) (hp : κ.power = false) (src : Source) :
    s₀.Ends κ (execResetSoftCold src s) := by
  unfold execResetSoftCold
  grind (gen := 30) (ematch := 30) only [← State.Quiet.next, ← State.Quiet.reachWith, ← State.Quiet.sysRst]

theorem State.Quiet.of_execResetRecovery {κ : Standing} {s₀ s : State} (hQ : s₀.Quiet κ s) (hm : κ.mem = false) (hc : κ.cores = false) (hp : κ.power = false) (src : Source) :
    s₀.Ends κ (execResetRecovery src s) := by
  unfold execResetRecovery
  grind (gen := 30) (ematch := 30) only [← State.Quiet.next, ← State.Quiet.reachWith, ← State.Quiet.sysRst]

theorem State.Quiet.of_execResetPor {κ : Standing} {s₀ s : State} (hQ : s₀.Quiet κ s) (hm : κ.mem = false) (hc : κ.cores = false) (hp : κ.power = false) :
    s₀.Ends κ (execResetPor s) := by
  have h : s₀.Quiet κ { s with power := { s.power with vbatLow := false, held := false } } := hQ.withPower hp _
  exact (h.coldReset hm hc hp 1 .cold).next

theorem State.Quiet.of_execResetPin {κ : Standing} {s₀ s : State} (hQ : s₀.Quiet κ s) (hm : κ.mem = false) (hc : κ.cores = false) (hp : κ.power = false) :
    s₀.Ends κ (execResetPin s) := by
  have h : s₀.Quiet κ { s with power := { s.power with held := false } } := hQ.withPower hp _
  unfold execResetPin
  exact (State.Quiet.ite hQ (h.coldReset hm hc hp 2 .cold)).next

theorem State.Quiet.of_execVbatBrownout {κ : Standing} {s₀ s : State} (hQ : s₀.Quiet κ s) (hm : κ.mem = false) (hc : κ.cores = false) (hp : κ.power = false) (below : Bool) :
    s₀.Ends κ (execVbatBrownout below s) := by
  have h : s₀.Quiet κ { s with power := { s.power with vbatLow := true, held := false } } := hQ.withPower hp _
  unfold execVbatBrownout
  exact State.Quiet.endsIte (h.coldReset hm hc hp 1 .cold).next (State.Quiet.endsIte (hQ.of_execResetPor hm hc hp) hQ.next)

theorem State.Quiet.of_execFatalWarmReset {κ : Standing} {s₀ s : State} (hQ : s₀.Quiet κ s) (hm : κ.mem = false) (hc : κ.cores = false) (hp : κ.power = false) :
    s₀.Ends κ (execFatalWarmReset s) := by
  unfold execFatalWarmReset
  grind (gen := 30) (ematch := 30) only [← State.Quiet.next, ← State.Quiet.warmReset, ← State.Quiet.mk']

theorem State.Quiet.of_execRecoveryStatus {κ : Standing} {s₀ s : State} (hQ : s₀.Quiet κ s) :
    s₀.Ends κ (execRecoveryStatus s) := by
  unfold execRecoveryStatus
  grind (gen := 30) (ematch := 30) only [← State.Quiet.next, ← State.Quiet.answer, ← State.Quiet.during]

theorem State.Quiet.of_execRecoveryBlock {κ : Standing} {s₀ s : State} (hQ : s₀.Quiet κ s) (hm : κ.mem = false) (ifc : RecovIface) (bytes : List Byte) :
    s₀.Ends κ (execRecoveryBlock ifc bytes s) := by
  unfold execRecoveryBlock
  grind (gen := 30) (ematch := 30) only [← State.Quiet.next, ← State.Quiet.during, ← State.Quiet.recoveryTake, ← State.Quiet.mk']

theorem State.Quiet.of_execRecoveryImageJudged {κ : Standing} {s₀ s : State} (hQ : s₀.Quiet κ s) (hm : κ.mem = false) (hc : κ.cores = false) (hp : κ.power = false) :
    s₀.Ends κ (execRecoveryImageJudged s) := by
  unfold execRecoveryImageJudged
  grind (gen := 30) (ematch := 30) only [← State.Quiet.next, ← State.Quiet.during, ← State.Quiet.flashCopy, ← State.Quiet.journal, ← State.Quiet.sendStatus, ← State.Quiet.setFails, ← State.Quiet.setFuse, ← State.Quiet.sysRst, ← State.Quiet.updErase, ← State.Quiet.mk']

theorem State.Quiet.of_execUartRxByte {κ : Standing} {s₀ s : State} (hQ : s₀.Quiet κ s) (hm : κ.mem = false) (b : Byte) (ferr : Bool) (brk : Bool) :
    s₀.Ends κ (execUartRxByte b ferr brk s) := by
  unfold execUartRxByte
  grind (gen := 30) (ematch := 30) only [← State.Quiet.next, ← State.Quiet.during, ← State.Quiet.put, ← State.Quiet.romUart, ← State.Quiet.uartSettle, ← State.Quiet.uartStore]

theorem State.Quiet.of_execCalRxsyn {κ : Standing} {s₀ s : State} (hQ : s₀.Quiet κ s) (temp : BitVec 10) :
    s₀.Ends κ (execCalRxsyn temp s) := by
  unfold execCalRxsyn
  grind (gen := 30) (ematch := 30) only [← State.Quiet.next, ← State.Quiet.calBegin, ← State.Quiet.during]

end Sys2Proof.Machine
end

section
/-! SUPPORT. What each command leaves standing, continued: commands 241 to 360. -/

set_option Elab.async false

namespace Sys2Proof.Machine

theorem State.Quiet.of_execCalTxsyn {κ : Standing} {s₀ s : State} (hQ : s₀.Quiet κ s) (temp : BitVec 10) :
    s₀.Ends κ (execCalTxsyn temp s) := by
  unfold execCalTxsyn
  grind (gen := 30) (ematch := 30) only [← State.Quiet.next, ← State.Quiet.calBegin, ← State.Quiet.during]

theorem State.Quiet.of_execCalTpm {κ : Standing} {s₀ s : State} (hQ : s₀.Quiet κ s) (temp : BitVec 10) :
    s₀.Ends κ (execCalTpm temp s) := by
  unfold execCalTpm
  grind (gen := 30) (ematch := 30) only [← State.Quiet.next, ← State.Quiet.calBegin, ← State.Quiet.during]

theorem State.Quiet.of_execCalIqa {κ : Standing} {s₀ s : State} (hQ : s₀.Quiet κ s) (temp : BitVec 10) :
    s₀.Ends κ (execCalIqa temp s) := by
  unfold execCalIqa
  grind (gen := 30) (ematch := 30) only [← State.Quiet.next, ← State.Quiet.calBegin, ← State.Quiet.during]

theorem State.Quiet.of_execCalIqb {κ : Standing} {s₀ s : State} (hQ : s₀.Quiet κ s) (temp : BitVec 10) :
    s₀.Ends κ (execCalIqb temp s) := by
  unfold execCalIqb
  grind (gen := 30) (ematch := 30) only [← State.Quiet.next, ← State.Quiet.calBegin, ← State.Quiet.during]

theorem State.Quiet.of_execCalStepDone {κ : Standing} {s₀ s : State} (hQ : s₀.Quiet κ s) (trim : W20) (temp : BitVec 10 := 0) :
    s₀.Ends κ (execCalStepDone trim s temp) := by
  unfold execCalStepDone
  grind (gen := 30) (ematch := 30) only [← State.Quiet.next, ← State.Quiet.ask, ← State.Quiet.calFinish, ← State.Quiet.calShow, ← State.Quiet.during, ← State.Quiet.modRadio, ← State.Quiet.put, ← State.Quiet.setRg, ← State.Quiet.stallSync, ← State.Quiet.mk']

theorem State.Quiet.of_execDieTempSample {κ : Standing} {s₀ s : State} (hQ : s₀.Quiet κ s) (temp : BitVec 10) :
    s₀.Ends κ (execDieTempSample temp s) := by
  unfold execDieTempSample
  grind (gen := 30) (ematch := 30) only [← State.Quiet.next, ← State.Quiet.during, ← State.Quiet.modRadio, ← State.Quiet.put, ← State.Quiet.mk']

theorem State.Quiet.of_execTempCalStart {κ : Standing} {s₀ s : State} (hQ : s₀.Quiet κ s) (temp : BitVec 10) :
    s₀.Ends κ (execTempCalStart temp s) := by
  unfold execTempCalStart
  grind (gen := 30) (ematch := 30) only [← State.Quiet.next, ← State.Quiet.calShow, ← State.Quiet.during, ← State.Quiet.modRadio, ← State.Quiet.put, ← State.Quiet.raise, ← State.Quiet.stallSync, ← State.Quiet.txCalStart, ← State.Quiet.mk']

theorem State.Quiet.of_execSynthCalDone {κ : Standing} {s₀ s : State} (hQ : s₀.Quiet κ s) (tx : Bool) :
    s₀.Ends κ (execSynthCalDone tx s) := by
  unfold execSynthCalDone
  grind (gen := 30) (ematch := 30) only [← State.Quiet.next, ← State.Quiet.calShow, ← State.Quiet.during, ← State.Quiet.modRadio, ← State.Quiet.put, ← State.Quiet.settle, ← State.Quiet.stallSync, ← State.Quiet.mk']

theorem State.Quiet.of_execAgeingCheck {κ : Standing} {s₀ s : State} (hQ : s₀.Quiet κ s) (margin : BitVec 7) :
    s₀.Ends κ (execAgeingCheck margin s) := by
  unfold execAgeingCheck
  grind (gen := 30) (ematch := 30) only [← State.Quiet.next, ← State.Quiet.ageing, ← State.Quiet.during, ← State.Quiet.fresh]

theorem State.Quiet.of_execKeeperSequence {κ : Standing} {s₀ s : State} (hQ : s₀.Quiet κ s) (hm : κ.mem = false) (hc : κ.cores = false) (st : SelfTest) :
    s₀.Ends κ (execKeeperSequence st s) := by
  unfold execKeeperSequence
  grind (gen := 30) (ematch := 30) only [← State.Quiet.next, ← State.Quiet.ageing, ← State.Quiet.bootAdvance, ← State.Quiet.fillLofts, ← State.Quiet.firstLight, ← State.Quiet.keeperEarly, ← State.Quiet.live, ← State.Quiet.rowsForce, ← State.Quiet.setRg, ← State.Quiet.spareTest, ← State.Quiet.sparesApply, ← State.Quiet.startEnd]

theorem State.Quiet.of_execKeeperShortSequence {κ : Standing} {s₀ s : State} (hQ : s₀.Quiet κ s) (hm : κ.mem = false) (hc : κ.cores = false) (recovLow : Bool) :
    s₀.Ends κ (execKeeperShortSequence recovLow s) := by
  unfold execKeeperShortSequence
  grind (gen := 30) (ematch := 30) only [← State.Quiet.next, ← State.Quiet.ageingOpen, ← State.Quiet.bootAdvance, ← State.Quiet.fillLofts, ← State.Quiet.keeperEarly, ← State.Quiet.live, ← State.Quiet.sparesApply, ← State.Quiet.startEnd]

theorem State.Quiet.of_execHalterModeInForce {κ : Standing} {s₀ s : State} (hQ : s₀.Quiet κ s) :
    s₀.Ends κ (execHalterModeInForce s) := by
  unfold execHalterModeInForce
  grind (gen := 30) (ematch := 30) only [← State.Quiet.next, ← State.Quiet.halterChord, ← State.Quiet.halterListen, ← State.Quiet.halterServe, ← State.Quiet.halterStall, ← State.Quiet.keeperEarly, ← State.Quiet.put]

theorem State.Quiet.of_execDeclareService {κ : Standing} {s₀ s : State} (hQ : s₀.Quiet κ s) (src : Source) :
    s₀.Ends κ (execDeclareService src s) := by
  unfold execDeclareService
  grind (gen := 30) (ematch := 30) only [← State.Quiet.next, ← State.Quiet.declare, ← State.Quiet.during, ← State.Quiet.reachWith]

theorem State.Quiet.of_execStartTimeout {κ : Standing} {s₀ s : State} (hQ : s₀.Quiet κ s) (hm : κ.mem = false) (hc : κ.cores = false) (hp : κ.power = false) :
    s₀.Ends κ (execStartTimeout s) := by
  unfold execStartTimeout
  grind (gen := 30) (ematch := 30) only [← State.Quiet.next, ← State.Quiet.warmReset, ← State.Quiet.mk']

theorem State.Quiet.of_execKmbWdogWrite {κ : Standing} {s₀ s : State} (hQ : s₀.Quiet κ s) (v : W20) :
    s₀.Ends κ (execKmbWdogWrite v s) := by
  unfold execKmbWdogWrite
  grind (gen := 30) (ematch := 30) only [← State.Quiet.next, ← State.Quiet.during, ← State.Quiet.setRg]

theorem State.Quiet.of_execKoBoot {κ : Standing} {s₀ s : State} (hQ : s₀.Quiet κ s) (hc : κ.cores = false) (src : Source) :
    s₀.Ends κ (execKoBoot src s) := by
  unfold execKoBoot
  grind (gen := 30) (ematch := 30) only [← State.Quiet.next, ← State.Quiet.during, ← State.Quiet.orderWrite, ← State.Quiet.reachWith]

theorem State.Quiet.of_execKoFailsClear {κ : Standing} {s₀ s : State} (hQ : s₀.Quiet κ s) (hc : κ.cores = false) (src : Source) :
    s₀.Ends κ (execKoFailsClear src s) := by
  unfold execKoFailsClear
  grind (gen := 30) (ematch := 30) only [← State.Quiet.next, ← State.Quiet.during, ← State.Quiet.orderWrite, ← State.Quiet.reachWith]

theorem State.Quiet.of_execKoCeilSet {κ : Standing} {s₀ s : State} (hQ : s₀.Quiet κ s) (hc : κ.cores = false) (src : Source) :
    s₀.Ends κ (execKoCeilSet src s) := by
  unfold execKoCeilSet
  grind (gen := 30) (ematch := 30) only [← State.Quiet.next, ← State.Quiet.during, ← State.Quiet.orderWrite, ← State.Quiet.reachWith]

theorem State.Quiet.of_execKoHalterSet {κ : Standing} {s₀ s : State} (hQ : s₀.Quiet κ s) (hc : κ.cores = false) (src : Source) :
    s₀.Ends κ (execKoHalterSet src s) := by
  unfold execKoHalterSet
  grind (gen := 30) (ematch := 30) only [← State.Quiet.next, ← State.Quiet.during, ← State.Quiet.orderWrite, ← State.Quiet.reachWith]

theorem State.Quiet.of_execKoEnergyClass {κ : Standing} {s₀ s : State} (hQ : s₀.Quiet κ s) (hc : κ.cores = false) (src : Source) :
    s₀.Ends κ (execKoEnergyClass src s) := by
  unfold execKoEnergyClass
  grind (gen := 30) (ematch := 30) only [← State.Quiet.next, ← State.Quiet.during, ← State.Quiet.orderWrite, ← State.Quiet.reachWith]

theorem State.Quiet.of_execKoFloorRaise {κ : Standing} {s₀ s : State} (hQ : s₀.Quiet κ s) (hc : κ.cores = false) (src : Source) :
    s₀.Ends κ (execKoFloorRaise src s) := by
  unfold execKoFloorRaise
  grind (gen := 30) (ematch := 30) only [← State.Quiet.next, ← State.Quiet.during, ← State.Quiet.orderWrite, ← State.Quiet.reachWith]

theorem State.Quiet.of_execKoRootSet {κ : Standing} {s₀ s : State} (hQ : s₀.Quiet κ s) (hc : κ.cores = false) (src : Source) :
    s₀.Ends κ (execKoRootSet src s) := by
  unfold execKoRootSet
  grind (gen := 30) (ematch := 30) only [← State.Quiet.next, ← State.Quiet.during, ← State.Quiet.orderWrite, ← State.Quiet.reachWith]

theorem State.Quiet.of_execKoRootRevoke {κ : Standing} {s₀ s : State} (hQ : s₀.Quiet κ s) (hc : κ.cores = false) (src : Source) :
    s₀.Ends κ (execKoRootRevoke src s) := by
  unfold execKoRootRevoke
  grind (gen := 30) (ematch := 30) only [← State.Quiet.next, ← State.Quiet.during, ← State.Quiet.orderWrite, ← State.Quiet.reachWith]

theorem State.Quiet.of_execKoSeal {κ : Standing} {s₀ s : State} (hQ : s₀.Quiet κ s) (hc : κ.cores = false) (src : Source) :
    s₀.Ends κ (execKoSeal src s) := by
  unfold execKoSeal
  grind (gen := 30) (ematch := 30) only [← State.Quiet.next, ← State.Quiet.during, ← State.Quiet.orderWrite, ← State.Quiet.reachWith]

theorem State.Quiet.of_execKoDbgUnlock {κ : Standing} {s₀ s : State} (hQ : s₀.Quiet κ s) (hc : κ.cores = false) (src : Source) :
    s₀.Ends κ (execKoDbgUnlock src s) := by
  unfold execKoDbgUnlock
  grind (gen := 30) (ematch := 30) only [← State.Quiet.next, ← State.Quiet.during, ← State.Quiet.orderWrite, ← State.Quiet.reachWith]

theorem State.Quiet.of_execKeeperOrderDone {κ : Standing} {s₀ s : State} (hQ : s₀.Quiet κ s) (hm : κ.mem = false) (hc : κ.cores = false) (otpOk : Bool) :
    s₀.Ends κ (execKeeperOrderDone otpOk s) := by
  unfold execKeeperOrderDone
  grind (gen := 30) (ematch := 30) only [← State.Quiet.next, ← State.Quiet.latchReqs, ← State.Quiet.modKeeper, ← State.Quiet.orderEnd, ← State.Quiet.put, ← State.Quiet.mk']

theorem State.Quiet.of_execFaultReport {κ : Standing} {s₀ s : State} (hQ : s₀.Quiet κ s) (hp : κ.power = false) (code : Fin 36) (detail : W20) :
    s₀.Ends κ (execFaultReport code detail s) := by
  have h1 := fun c => hQ.loftFinds c detail.toNat
  have h2 := fun r => hQ.ramFinds r detail.toNat
  have h3 := fun n => hQ.report (code := n) detail (.inl hp)
  have h4 := fun b => hQ.yardFinds detail b
  unfold execFaultReport
  dsimp only
  refine State.Quiet.next ?_
  split
  · exact State.Quiet.ite (h2 _ _) (h3 _)
  · exact State.Quiet.ite (h2 _ _) (h3 _)
  · exact h1 _ _
  · exact h1 _ _
  · exact h2 _ _
  · exact h2 _ _
  · exact State.Quiet.ite (h4 _) (h3 _)
  · exact State.Quiet.ite (h4 _) (h3 _)
  · exact h3 _

theorem State.Quiet.of_execFltSrcClear {κ : Standing} {s₀ s : State} (hQ : s₀.Quiet κ s) (hp : κ.power = false) (k : Fin 2) (v : W20) :
    s₀.Ends κ (execFltSrcClear k v s) := by
  unfold execFltSrcClear
  grind (gen := 30) (ematch := 30) only [← State.Quiet.next, ← State.Quiet.during, ← State.Quiet.srcClear]

theorem State.Quiet.of_execFltRelease {κ : Standing} {s₀ s : State} (hQ : s₀.Quiet κ s) (v : W20) :
    s₀.Ends κ (execFltRelease v s) := by
  unfold execFltRelease
  grind (gen := 30) (ematch := 30) only [← State.Quiet.next, ← State.Quiet.during, ← State.Quiet.release16]

theorem State.Quiet.of_execLaneWithdraw {κ : Standing} {s₀ s : State} (hQ : s₀.Quiet κ s) (lane : BitVec 6) :
    s₀.Ends κ (execLaneWithdraw lane s) := by
  unfold execLaneWithdraw
  grind (gen := 30) (ematch := 30) only [← State.Quiet.next, ← State.Quiet.during, ← State.Quiet.withdrawLane]

theorem State.Quiet.of_execPadCfgWrite {κ : Standing} {s₀ s : State} (hQ : s₀.Quiet κ s) (v : W20) :
    s₀.Ends κ (execPadCfgWrite v s) := by
  unfold execPadCfgWrite
  grind (gen := 30) (ematch := 30) only [← State.Quiet.next, ← State.Quiet.during, ← State.Quiet.padWrite]

theorem State.Quiet.of_execNbtFind {κ : Standing} {s₀ s : State} (hQ : s₀.Quiet κ s) (hm : κ.mem = false) :
    s₀.Ends κ (execNbtFind s) := by
  unfold execNbtFind
  grind (gen := 30) (ematch := 30) only [← State.Quiet.next, ← State.Quiet.during, ← State.Quiet.nbCommand]

theorem State.Quiet.of_execNbtAdd {κ : Standing} {s₀ s : State} (hQ : s₀.Quiet κ s) (hm : κ.mem = false) (i : BitVec 11) :
    s₀.Ends κ (execNbtAdd i s) := by
  unfold execNbtAdd
  grind (gen := 30) (ematch := 30) only [← State.Quiet.next, ← State.Quiet.during, ← State.Quiet.nbCommand]

theorem State.Quiet.of_execNbtClear {κ : Standing} {s₀ s : State} (hQ : s₀.Quiet κ s) (hm : κ.mem = false) (i : BitVec 11) :
    s₀.Ends κ (execNbtClear i s) := by
  unfold execNbtClear
  grind (gen := 30) (ematch := 30) only [← State.Quiet.next, ← State.Quiet.during, ← State.Quiet.nbCommand]

theorem State.Quiet.of_execNbtMiss {κ : Standing} {s₀ s : State} (hQ : s₀.Quiet κ s) (hm : κ.mem = false) (i : BitVec 11) :
    s₀.Ends κ (execNbtMiss i s) := by
  unfold execNbtMiss
  grind (gen := 30) (ematch := 30) only [← State.Quiet.next, ← State.Quiet.during, ← State.Quiet.nbCommand]

theorem State.Quiet.of_execNbtSet {κ : Standing} {s₀ s : State} (hQ : s₀.Quiet κ s) (hm : κ.mem = false) (i : BitVec 11) :
    s₀.Ends κ (execNbtSet i s) := by
  unfold execNbtSet
  grind (gen := 30) (ematch := 30) only [← State.Quiet.next, ← State.Quiet.during, ← State.Quiet.nbCommand]

theorem State.Quiet.of_execNbtPredict {κ : Standing} {s₀ s : State} (hQ : s₀.Quiet κ s) (hm : κ.mem = false) (i : BitVec 11) :
    s₀.Ends κ (execNbtPredict i s) := by
  unfold execNbtPredict
  grind (gen := 30) (ematch := 30) only [← State.Quiet.next, ← State.Quiet.during, ← State.Quiet.nbCommand]

theorem State.Quiet.of_execNbtTsrc1 {κ : Standing} {s₀ s : State} (hQ : s₀.Quiet κ s) (hm : κ.mem = false) (i : BitVec 11) :
    s₀.Ends κ (execNbtTsrc1 i s) := by
  unfold execNbtTsrc1
  grind (gen := 30) (ematch := 30) only [← State.Quiet.next, ← State.Quiet.during, ← State.Quiet.nbCommand]

theorem State.Quiet.of_execNbtTsrc0 {κ : Standing} {s₀ s : State} (hQ : s₀.Quiet κ s) (hm : κ.mem = false) (i : BitVec 11) :
    s₀.Ends κ (execNbtTsrc0 i s) := by
  unfold execNbtTsrc0
  grind (gen := 30) (ematch := 30) only [← State.Quiet.next, ← State.Quiet.during, ← State.Quiet.nbCommand]

theorem State.Quiet.of_execNbtCommandDone {κ : Standing} {s₀ s : State} (hQ : s₀.Quiet κ s) (hm : κ.mem = false) :
    s₀.Ends κ (execNbtCommandDone s) := by
  unfold execNbtCommandDone
  grind (gen := 30) (ematch := 30) only [← State.Quiet.next, ← State.Quiet.during, ← State.Quiet.modSched, ← State.Quiet.put, ← State.Quiet.sampleRun, ← State.Quiet.mk']

theorem State.Quiet.of_execKnockCaught {κ : Standing} {s₀ s : State} (hQ : s₀.Quiet κ s) (p : Pos) (rxA : AerialRx) (rxB : AerialRx) :
    s₀.Ends κ (execKnockCaught p rxA rxB s) := by
  unfold execKnockCaught
  grind (gen := 30) (ematch := 30) only [← State.Quiet.next, ← State.Quiet.during, ← State.Quiet.modStall, ← State.Quiet.mk']

theorem State.Quiet.of_execCountdownReceived {κ : Standing} {s₀ s : State} (hQ : s₀.Quiet κ s) (hp : κ.power = false) (p : Pos) (fields : BitVec 52) :
    s₀.Ends κ (execCountdownReceived p fields s) := by
  unfold execCountdownReceived
  grind (gen := 30) (ematch := 30) only [← State.Quiet.next, ← State.Quiet.bump, ← State.Quiet.during, ← State.Quiet.modStall, ← State.Quiet.orbitHear, ← State.Quiet.put, ← State.Quiet.raise, ← State.Quiet.set40, ← State.Quiet.setRg, ← State.Quiet.mk']

theorem State.Quiet.of_execDoze {κ : Standing} {s₀ s : State} (hQ : s₀.Quiet κ s) :
    s₀.Ends κ (execDoze s) := by
  unfold execDoze
  grind (gen := 30) (ematch := 30) only [← State.Quiet.next, ← State.Quiet.during, ← State.Quiet.setRg]

theorem State.Quiet.of_execEnterRest {κ : Standing} {s₀ s : State} (hQ : s₀.Quiet κ s) (hp : κ.power = false) :
    s₀.Ends κ (execEnterRest s) := by
  unfold execEnterRest
  grind (gen := 30) (ematch := 30) only [← State.Quiet.next, ← State.Quiet.enterSleep]

theorem State.Quiet.of_execEnterOrbit {κ : Standing} {s₀ s : State} (hQ : s₀.Quiet κ s) (hp : κ.power = false) :
    s₀.Ends κ (execEnterOrbit s) := by
  unfold execEnterOrbit
  grind (gen := 30) (ematch := 30) only [← State.Quiet.next, ← State.Quiet.enterSleep]

theorem State.Quiet.of_execEnterDormant {κ : Standing} {s₀ s : State} (hQ : s₀.Quiet κ s) (hp : κ.power = false) :
    s₀.Ends κ (execEnterDormant s) := by
  unfold execEnterDormant
  grind (gen := 30) (ematch := 30) only [← State.Quiet.next, ← State.Quiet.enterSleep]

theorem State.Quiet.of_execEntryCancel {κ : Standing} {s₀ s : State} (hQ : s₀.Quiet κ s) (hp : κ.power = false) :
    s₀.Ends κ (execEntryCancel s) := by
  unfold execEntryCancel
  grind (gen := 30) (ematch := 30) only [← State.Quiet.next, ← State.Quiet.cancelEntry, ← State.Quiet.enterSleep, ← State.Quiet.live]

theorem State.Quiet.of_execSleepEntryBegin {κ : Standing} {s₀ s : State} (hQ : s₀.Quiet κ s) (hp : κ.power = false) :
    s₀.Ends κ (execSleepEntryBegin s) := by
  unfold execSleepEntryBegin
  grind (gen := 30) (ematch := 30) only [← State.Quiet.next, ← State.Quiet.cancelEntry, ← State.Quiet.goE0, ← State.Quiet.modPower, ← State.Quiet.mk']

theorem State.Quiet.of_execSleepStateEntered {κ : Standing} {s₀ s : State} (hQ : s₀.Quiet κ s) (hm : κ.mem = false) (hc : κ.cores = false) (hp : κ.power = false) :
    s₀.Ends κ (execSleepStateEntered s) := by
  unfold execSleepStateEntered
  grind (gen := 30) (ematch := 30) only [← State.Quiet.next, ← State.Quiet.banksLost, ← State.Quiet.dormantIn, ← State.Quiet.dormantWake, ← State.Quiet.live, ← State.Quiet.modPower, ← State.Quiet.wakeNow, ← State.Quiet.mk']

theorem State.Quiet.of_execWake {κ : Standing} {s₀ s : State} (hQ : s₀.Quiet κ s) (hp : κ.power = false) (ws : WakeSource) :
    s₀.Ends κ (execWake ws s) := by
  unfold execWake
  grind (gen := 30) (ematch := 30) only [← State.Quiet.next, ← State.Quiet.modPower, ← State.Quiet.wakeCauses, ← State.Quiet.wakeTake, ← State.Quiet.mk']

theorem State.Quiet.of_execActionWake {κ : Standing} {s₀ s : State} (hQ : s₀.Quiet κ s) (hp : κ.power = false) :
    s₀.Ends κ (execActionWake s) := by
  unfold execActionWake
  grind (gen := 30) (ematch := 30) only [← State.Quiet.next, ← State.Quiet.wakeTake]

theorem State.Quiet.of_execDormantExit {κ : Standing} {s₀ s : State} (hQ : s₀.Quiet κ s) (hm : κ.mem = false) (hc : κ.cores = false) (hp : κ.power = false) (ws : WakeSource) :
    s₀.Ends κ (execDormantExit ws s) := by
  unfold execDormantExit
  grind (gen := 30) (ematch := 30) only [← State.Quiet.next, ← State.Quiet.dormantWake, ← State.Quiet.modPower, ← State.Quiet.mk']

theorem State.Quiet.of_execFastRcRunning {κ : Standing} {s₀ s : State} (hQ : s₀.Quiet κ s) (hp : κ.power = false) :
    s₀.Ends κ (execFastRcRunning s) := by
  unfold execFastRcRunning
  grind (gen := 30) (ematch := 30) only [← State.Quiet.next, ← State.Quiet.live, ← State.Quiet.modPower, ← State.Quiet.mk']

theorem State.Quiet.of_execWakeRunReached {κ : Standing} {s₀ s : State} (hQ : s₀.Quiet κ s) (hp : κ.power = false) :
    s₀.Ends κ (execWakeRunReached s) := by
  unfold execWakeRunReached
  grind (gen := 30) (ematch := 30) only [← State.Quiet.next, ← State.Quiet.chordSettle, ← State.Quiet.latchReqs, ← State.Quiet.live, ← State.Quiet.modPower, ← State.Quiet.put, ← State.Quiet.mk']

theorem State.Quiet.of_execReferenceReady {κ : Standing} {s₀ s : State} (hQ : s₀.Quiet κ s) (hp : κ.power = false) :
    s₀.Ends κ (execReferenceReady s) := by
  unfold execReferenceReady
  grind (gen := 30) (ematch := 30) only [← State.Quiet.next, ← State.Quiet.modPower, ← State.Quiet.put, ← State.Quiet.radioRequest, ← State.Quiet.mk']

theorem State.Quiet.of_execSystemPllLock {κ : Standing} {s₀ s : State} (hQ : s₀.Quiet κ s) :
    s₀.Ends κ (execSystemPllLock s) := by
  unfold execSystemPllLock
  grind (gen := 30) (ematch := 30) only [← State.Quiet.next, ← State.Quiet.put]

theorem State.Quiet.of_execRefFail {κ : Standing} {s₀ s : State} (hQ : s₀.Quiet κ s) (hm : κ.mem = false) (hc : κ.cores = false) (hp : κ.power = false) :
    s₀.Ends κ (execRefFail s) := by
  unfold execRefFail
  grind (gen := 30) (ematch := 30) only [← State.Quiet.next, ← State.Quiet.modPower, ← State.Quiet.put, ← State.Quiet.radioOff, ← State.Quiet.report, ← State.Quiet.yardStop, ← State.Quiet.mk']

theorem State.Quiet.of_execRefRetry {κ : Standing} {s₀ s : State} (hQ : s₀.Quiet κ s) (hp : κ.power = false) :
    s₀.Ends κ (execRefRetry s) := by
  unfold execRefRetry
  grind (gen := 30) (ematch := 30) only [← State.Quiet.next, ← State.Quiet.during, ← State.Quiet.refRetry]

theorem State.Quiet.of_execCdivWrite {κ : Standing} {s₀ s : State} (hQ : s₀.Quiet κ s) (d : BitVec 2) :
    s₀.Ends κ (execCdivWrite d s) := by
  unfold execCdivWrite
  grind (gen := 30) (ematch := 30) only [← State.Quiet.next, ← State.Quiet.during, ← State.Quiet.put]

theorem State.Quiet.of_execSlkFail {κ : Standing} {s₀ s : State} (hQ : s₀.Quiet κ s) (hp : κ.power = false) :
    s₀.Ends κ (execSlkFail s) := by
  unfold execSlkFail
  grind (gen := 30) (ematch := 30) only [← State.Quiet.next, ← State.Quiet.put, ← State.Quiet.report, ← State.Quiet.slowSource]

theorem State.Quiet.of_execSlkCfgWrite {κ : Standing} {s₀ s : State} (hQ : s₀.Quiet κ s) (hp : κ.power = false) (v : W20) :
    s₀.Ends κ (execSlkCfgWrite v s) := by
  unfold execSlkCfgWrite
  grind (gen := 30) (ematch := 30) only [← State.Quiet.next, ← State.Quiet.during, ← State.Quiet.slkCfg]

theorem State.Quiet.of_execRateWindowEnd {κ : Standing} {s₀ s : State} (hQ : s₀.Quiet κ s) (hp : κ.power = false) (n : Nat) :
    s₀.Ends κ (execRateWindowEnd n s) := by
  unfold execRateWindowEnd
  grind (gen := 30) (ematch := 30) only [← State.Quiet.next, ← State.Quiet.during, ← State.Quiet.modPower, ← State.Quiet.put, ← State.Quiet.setRg, ← State.Quiet.mk']

theorem State.Quiet.of_execSupplyGoodChange {κ : Standing} {s₀ s : State} (hQ : s₀.Quiet κ s) (hm : κ.mem = false) (hc : κ.cores = false) (bank : Supply) (good : Bool) :
    s₀.Ends κ (execSupplyGoodChange bank good s) := by
  unfold execSupplyGoodChange
  grind (gen := 30) (ematch := 30) only [← State.Quiet.next, ← State.Quiet.pinMoved, ← State.Quiet.put, ← State.Quiet.yardLostSupply, ← State.Quiet.of_deliver, ← State.Quiet.foldl, ← State.Quiet.mk']

theorem State.Quiet.of_execOrbitPrepare {κ : Standing} {s₀ s : State} (hQ : s₀.Quiet κ s) (hp : κ.power = false) :
    s₀.Ends κ (execOrbitPrepare s) := by
  unfold execOrbitPrepare
  grind (gen := 30) (ematch := 30) only [← State.Quiet.next, ← State.Quiet.askOne, ← State.Quiet.live, ← State.Quiet.modOrbit, ← State.Quiet.modPower, ← State.Quiet.put, ← State.Quiet.radioRequest, ← State.Quiet.windowOpen, ← State.Quiet.mk']

theorem State.Quiet.of_execOrbitPassStart {κ : Standing} {s₀ s : State} (hQ : s₀.Quiet κ s) (hp : κ.power = false) :
    s₀.Ends κ (execOrbitPassStart s) := by
  unfold execOrbitPassStart
  grind (gen := 30) (ematch := 30) only [← State.Quiet.next, ← State.Quiet.modOrbit, ← State.Quiet.modPower, ← State.Quiet.put, ← State.Quiet.mk']

theorem State.Quiet.of_execOrbitListen {κ : Standing} {s₀ s : State} (hQ : s₀.Quiet κ s) (hp : κ.power = false) :
    s₀.Ends κ (execOrbitListen s) := by
  unfold execOrbitListen
  grind (gen := 30) (ematch := 30) only [← State.Quiet.next, ← State.Quiet.live, ← State.Quiet.modOrbit, ← State.Quiet.put, ← State.Quiet.stallSync, ← State.Quiet.mk']

theorem State.Quiet.of_execOrbitCheck {κ : Standing} {s₀ s : State} (hQ : s₀.Quiet κ s) (hp : κ.power = false) :
    s₀.Ends κ (execOrbitCheck s) := by
  unfold execOrbitCheck
  grind (gen := 30) (ematch := 30) only [← State.Quiet.next, ← State.Quiet.live, ← State.Quiet.orbitOutcome, ← State.Quiet.mk']

theorem State.Quiet.of_execOrbitPause {κ : Standing} {s₀ s : State} (hQ : s₀.Quiet κ s) (hp : κ.power = false) :
    s₀.Ends κ (execOrbitPause s) := by
  unfold execOrbitPause
  grind (gen := 30) (ematch := 30) only [← State.Quiet.next, ← State.Quiet.live, ← State.Quiet.modOrbit, ← State.Quiet.mk']

theorem State.Quiet.of_execOrbitEnd {κ : Standing} {s₀ s : State} (hQ : s₀.Quiet κ s) (hp : κ.power = false) :
    s₀.Ends κ (execOrbitEnd s) := by
  unfold execOrbitEnd
  grind (gen := 30) (ematch := 30) only [← State.Quiet.next, ← State.Quiet.live, ← State.Quiet.modOrbit, ← State.Quiet.mk']

theorem State.Quiet.of_execOrbitStepEnd {κ : Standing} {s₀ s : State} (hQ : s₀.Quiet κ s) (hp : κ.power = false) (hit : Bool) :
    s₀.Ends κ (execOrbitStepEnd hit s) := by
  unfold execOrbitStepEnd
  grind (gen := 30) (ematch := 30) only [← State.Quiet.next, ← State.Quiet.live, ← State.Quiet.orbitOutcome, ← State.Quiet.mk']

theorem State.Quiet.of_execOrbitPassSleep {κ : Standing} {s₀ s : State} (hQ : s₀.Quiet κ s) (hp : κ.power = false) :
    s₀.Ends κ (execOrbitPassSleep s) := by
  unfold execOrbitPassSleep
  grind (gen := 30) (ematch := 30) only [← State.Quiet.next, ← State.Quiet.live, ← State.Quiet.modPower, ← State.Quiet.put, ← State.Quiet.radioOff, ← State.Quiet.stallAbandon, ← State.Quiet.foldl, ← State.Quiet.mk']

theorem State.Quiet.of_execRtcSecond {κ : Standing} {s₀ s : State} (hQ : s₀.Quiet κ s) :
    s₀.Ends κ (execRtcSecond s) := by
  unfold execRtcSecond
  grind (gen := 30) (ematch := 30) only [← State.Quiet.next, ← State.Quiet.rtcEdge]

theorem State.Quiet.of_execRtcStagedApply {κ : Standing} {s₀ s : State} (hQ : s₀.Quiet κ s) :
    s₀.Ends κ (execRtcStagedApply s) := by
  unfold execRtcStagedApply
  grind (gen := 30) (ematch := 30) only [← State.Quiet.next, ← State.Quiet.rtcEdge]

theorem State.Quiet.of_execRtcSubsecRead {κ : Standing} {s₀ s : State} (hQ : s₀.Quiet κ s) :
    s₀.Ends κ (execRtcSubsecRead s) := by
  unfold execRtcSubsecRead
  grind (gen := 30) (ematch := 30) only [← State.Quiet.next, ← State.Quiet.during, ← State.Quiet.rtcSnap]

theorem State.Quiet.of_execRtcApplySub {κ : Standing} {s₀ s : State} (hQ : s₀.Quiet κ s) :
    s₀.Ends κ (execRtcApplySub s) := by
  unfold execRtcApplySub
  grind (gen := 30) (ematch := 30) only [← State.Quiet.next, ← State.Quiet.during, ← State.Quiet.rtcCmd]

theorem State.Quiet.of_execRtcApplyTime {κ : Standing} {s₀ s : State} (hQ : s₀.Quiet κ s) :
    s₀.Ends κ (execRtcApplyTime s) := by
  unfold execRtcApplyTime
  grind (gen := 30) (ematch := 30) only [← State.Quiet.next, ← State.Quiet.during, ← State.Quiet.rtcCmd]

theorem State.Quiet.of_execRtcApplyDate {κ : Standing} {s₀ s : State} (hQ : s₀.Quiet κ s) :
    s₀.Ends κ (execRtcApplyDate s) := by
  unfold execRtcApplyDate
  grind (gen := 30) (ematch := 30) only [← State.Quiet.next, ← State.Quiet.during, ← State.Quiet.rtcCmd]

theorem State.Quiet.of_execRtcShift {κ : Standing} {s₀ s : State} (hQ : s₀.Quiet κ s) (n : BitVec 16) :
    s₀.Ends κ (execRtcShift n s) := by
  unfold execRtcShift
  grind (gen := 30) (ematch := 30) only [← State.Quiet.next, ← State.Quiet.during, ← State.Quiet.rtcShiftWrite]

theorem State.Quiet.of_execRtcAlarm {κ : Standing} {s₀ s : State} (hQ : s₀.Quiet κ s) (k : Fin 2) :
    s₀.Ends κ (execRtcAlarm k s) := by
  unfold execRtcAlarm
  grind (gen := 30) (ematch := 30) only [← State.Quiet.next, ← State.Quiet.fire, ← State.Quiet.raise, ← State.Quiet.mk']

theorem State.Quiet.of_execBkpInvalid {κ : Standing} {s₀ s : State} (hQ : s₀.Quiet κ s) (hc : κ.cores = false) :
    s₀.Ends κ (execBkpInvalid s) := by
  unfold execBkpInvalid
  grind (gen := 30) (ematch := 30) only [← State.Quiet.next, ← State.Quiet.bkpInvalidate]

theorem State.Quiet.of_execTimerWrap {κ : Standing} {s₀ s : State} (hQ : s₀.Quiet κ s) (i : Fin 8) :
    s₀.Ends κ (execTimerWrap i s) := by
  unfold execTimerWrap
  grind (gen := 30) (ematch := 30) only [← State.Quiet.next, ← State.Quiet.during, ← State.Quiet.ownStep]

theorem State.Quiet.of_execTimerMatch {κ : Standing} {s₀ s : State} (hQ : s₀.Quiet κ s) (i : Fin 8) :
    s₀.Ends κ (execTimerMatch i s) := by
  unfold execTimerMatch
  grind (gen := 30) (ematch := 30) only [← State.Quiet.next, ← State.Quiet.chainStep, ← State.Quiet.during, ← State.Quiet.ownStep]

theorem State.Quiet.of_execTmrCtlWrite {κ : Standing} {s₀ s : State} (hQ : s₀.Quiet κ s) (i : Fin 8) (v : W20) :
    s₀.Ends κ (execTmrCtlWrite i v s) := by
  unfold execTmrCtlWrite
  grind (gen := 30) (ematch := 30) only [← State.Quiet.next, ← State.Quiet.during, ← State.Quiet.tmrCtl]

theorem State.Quiet.of_execTmrCntWrite {κ : Standing} {s₀ s : State} (hQ : s₀.Quiet κ s) (i : Fin 8) (v : W20) :
    s₀.Ends κ (execTmrCntWrite i v s) := by
  unfold execTmrCntWrite
  grind (gen := 30) (ematch := 30) only [← State.Quiet.next, ← State.Quiet.during, ← State.Quiet.setRg]

theorem State.Quiet.of_execTmrCntRead {κ : Standing} {s₀ s : State} (hQ : s₀.Quiet κ s) (i : Fin 8) :
    s₀.Ends κ (execTmrCntRead i s) := by
  unfold execTmrCntRead
  grind (gen := 30) (ematch := 30) only [← State.Quiet.next, ← State.Quiet.during, ← State.Quiet.tmrRead]

theorem State.Quiet.of_execTmrTopCmpWrite {κ : Standing} {s₀ s : State} (hQ : s₀.Quiet κ s) (i : Fin 8) (cmp : Bool) (v : W20) :
    s₀.Ends κ (execTmrTopCmpWrite i cmp v s) := by
  unfold execTmrTopCmpWrite
  grind (gen := 30) (ematch := 30) only [← State.Quiet.next, ← State.Quiet.during, ← State.Quiet.tmrTopCmp]

theorem State.Quiet.of_execTimerEventInput {κ : Standing} {s₀ s : State} (hQ : s₀.Quiet κ s) (i : Fin 8) :
    s₀.Ends κ (execTimerEventInput i s) := by
  unfold execTimerEventInput
  grind (gen := 30) (ematch := 30) only [← State.Quiet.next, ← State.Quiet.live, ← State.Quiet.tmrEvent]

theorem State.Quiet.of_execTmrGstart {κ : Standing} {s₀ s : State} (hQ : s₀.Quiet κ s) (v : W20) :
    s₀.Ends κ (execTmrGstart v s) := by
  unfold execTmrGstart
  grind (gen := 30) (ematch := 30) only [← State.Quiet.next, ← State.Quiet.during, ← State.Quiet.gstart]

theorem State.Quiet.of_execRegisterWrite {κ : Standing} {s₀ s : State} (hQ : s₀.Quiet κ s) (hm : κ.mem = false) (hc : κ.cores = false) (hp : κ.power = false) (src : Source) (addr : W20) (v : W20) :
    s₀.Ends κ (execRegisterWrite src addr v s) := by
  unfold execRegisterWrite
  grind (gen := 30) (ematch := 30) only [← State.Quiet.next, ← State.Quiet.during, ← State.Quiet.reachWith, ← State.Quiet.regWrite]

theorem State.Quiet.of_execHspRingWrite {κ : Standing} {s₀ s : State} (hQ : s₀.Quiet κ s) (v : W20) :
    s₀.Ends κ (execHspRingWrite v s) := by
  unfold execHspRingWrite
  grind (gen := 30) (ematch := 30) only [← State.Quiet.next, ← State.Quiet.during, ← State.Quiet.hspRing]

theorem State.Quiet.of_execHspH2cWrite {κ : Standing} {s₀ s : State} (hQ : s₀.Quiet κ s) (v : W20) :
    s₀.Ends κ (execHspH2cWrite v s) := by
  unfold execHspH2cWrite
  grind (gen := 30) (ematch := 30) only [← State.Quiet.next, ← State.Quiet.during, ← State.Quiet.hspH2c, ← State.Quiet.reachWith]

theorem State.Quiet.of_execDmaDescriptorFetch {κ : Standing} {s₀ s : State} (hQ : s₀.Quiet κ s) (hm : κ.mem = false) (ch : Fin 12) :
    s₀.Ends κ (execDmaDescriptorFetch ch s) := by
  unfold execDmaDescriptorFetch
  grind (gen := 30) (ematch := 30) only [← State.Quiet.next, ← State.Quiet.dmaFetch, ← State.Quiet.during]

theorem State.Quiet.of_execDmaChunkRead {κ : Standing} {s₀ s : State} (hQ : s₀.Quiet κ s) (hm : κ.mem = false) (hc : κ.cores = false) (ch : Fin 16) :
    s₀.Ends κ (execDmaChunkRead ch s) := by
  unfold execDmaChunkRead
  grind (gen := 30) (ematch := 30) only [← State.Quiet.next, ← State.Quiet.blockChunk, ← State.Quiet.chunkRead, ← State.Quiet.dmaServe, ← State.Quiet.dmaTouch, ← State.Quiet.during, ← State.Quiet.mk']

theorem State.Quiet.of_execDmaChunkWritten {κ : Standing} {s₀ s : State} (hQ : s₀.Quiet κ s) (hm : κ.mem = false) (hc : κ.cores = false) (hp : κ.power = false) :
    s₀.Ends κ (execDmaChunkWritten s) := by
  unfold execDmaChunkWritten
  grind (gen := 30) (ematch := 30) only [← State.Quiet.next, ← State.Quiet.credSweep, ← State.Quiet.creditWrite, ← State.Quiet.dmaBarrier, ← State.Quiet.dmaStop, ← State.Quiet.dmaTouch, ← State.Quiet.during, ← State.Quiet.modDma, ← State.Quiet.mk']

theorem State.Quiet.of_execDmaDescriptorComplete {κ : Standing} {s₀ s : State} (hQ : s₀.Quiet κ s) (hm : κ.mem = false) (ch : Fin 12) :
    s₀.Ends κ (execDmaDescriptorComplete ch s) := by
  unfold execDmaDescriptorComplete
  grind (gen := 30) (ematch := 30) only [← State.Quiet.next, ← State.Quiet.dmaClose, ← State.Quiet.dmaEnd, ← State.Quiet.dmaGoOn, ← State.Quiet.dmaIrq, ← State.Quiet.during, ← State.Quiet.mk']

theorem State.Quiet.of_execILdw {κ : Standing} {s₀ s : State} (hQ : s₀.Quiet κ s) (hm : κ.mem = false) (hc : κ.cores = false) (hp : κ.power = false) (c : CoreId) (d : RegId) (a : RegId) (disp8 : BitVec 8) :
    s₀.Ends κ (execILdw c d a disp8 s) := by
  unfold execILdw
  grind (gen := 30) (ematch := 30) only [← State.Quiet.next, ← State.Quiet.instr, ← State.Quiet.load]

theorem State.Quiet.of_execILdbu {κ : Standing} {s₀ s : State} (hQ : s₀.Quiet κ s) (hm : κ.mem = false) (hc : κ.cores = false) (hp : κ.power = false) (c : CoreId) (d : RegId) (a : RegId) (imm20 : W20) :
    s₀.Ends κ (execILdbu c d a imm20 s) := by
  unfold execILdbu
  grind (gen := 30) (ematch := 30) only [← State.Quiet.next, ← State.Quiet.instr, ← State.Quiet.load]

theorem State.Quiet.of_execILdbs {κ : Standing} {s₀ s : State} (hQ : s₀.Quiet κ s) (hm : κ.mem = false) (hc : κ.cores = false) (hp : κ.power = false) (c : CoreId) (d : RegId) (a : RegId) (imm20 : W20) :
    s₀.Ends κ (execILdbs c d a imm20 s) := by
  unfold execILdbs
  grind (gen := 30) (ematch := 30) only [← State.Quiet.next, ← State.Quiet.instr, ← State.Quiet.load]

theorem State.Quiet.of_execILdhu {κ : Standing} {s₀ s : State} (hQ : s₀.Quiet κ s) (hm : κ.mem = false) (hc : κ.cores = false) (hp : κ.power = false) (c : CoreId) (d : RegId) (a : RegId) (imm20 : W20) :
    s₀.Ends κ (execILdhu c d a imm20 s) := by
  unfold execILdhu
  grind (gen := 30) (ematch := 30) only [← State.Quiet.next, ← State.Quiet.instr, ← State.Quiet.load]

theorem State.Quiet.of_execILdhs {κ : Standing} {s₀ s : State} (hQ : s₀.Quiet κ s) (hm : κ.mem = false) (hc : κ.cores = false) (hp : κ.power = false) (c : CoreId) (d : RegId) (a : RegId) (imm20 : W20) :
    s₀.Ends κ (execILdhs c d a imm20 s) := by
  unfold execILdhs
  grind (gen := 30) (ematch := 30) only [← State.Quiet.next, ← State.Quiet.instr, ← State.Quiet.load]

theorem State.Quiet.of_execILdwl {κ : Standing} {s₀ s : State} (hQ : s₀.Quiet κ s) (hm : κ.mem = false) (hc : κ.cores = false) (hp : κ.power = false) (c : CoreId) (d : RegId) (a : RegId) (imm20 : W20) :
    s₀.Ends κ (execILdwl c d a imm20 s) := by
  unfold execILdwl
  grind (gen := 30) (ematch := 30) only [← State.Quiet.next, ← State.Quiet.instr, ← State.Quiet.load]

theorem State.Quiet.of_execILdp {κ : Standing} {s₀ s : State} (hQ : s₀.Quiet κ s) (hm : κ.mem = false) (hc : κ.cores = false) (hp : κ.power = false) (c : CoreId) (d : RegId) (a : RegId) (imm20 : W20) :
    s₀.Ends κ (execILdp c d a imm20 s) := by
  unfold execILdp
  grind (gen := 30) (ematch := 30) only [← State.Quiet.next, ← State.Quiet.illegal, ← State.Quiet.instr, ← State.Quiet.load]

theorem State.Quiet.of_execIStw {κ : Standing} {s₀ s : State} (hQ : s₀.Quiet κ s) (hm : κ.mem = false) (hc : κ.cores = false) (hp : κ.power = false) (c : CoreId) (d : RegId) (a : RegId) (disp8 : BitVec 8) :
    s₀.Ends κ (execIStw c d a disp8 s) := by
  unfold execIStw
  grind (gen := 30) (ematch := 30) only [← State.Quiet.next, ← State.Quiet.instr, ← State.Quiet.store]

theorem State.Quiet.of_execIStb {κ : Standing} {s₀ s : State} (hQ : s₀.Quiet κ s) (hm : κ.mem = false) (hc : κ.cores = false) (hp : κ.power = false) (c : CoreId) (d : RegId) (a : RegId) (imm20 : W20) :
    s₀.Ends κ (execIStb c d a imm20 s) := by
  unfold execIStb
  grind (gen := 30) (ematch := 30) only [← State.Quiet.next, ← State.Quiet.instr, ← State.Quiet.store]

theorem State.Quiet.of_execISth {κ : Standing} {s₀ s : State} (hQ : s₀.Quiet κ s) (hm : κ.mem = false) (hc : κ.cores = false) (hp : κ.power = false) (c : CoreId) (d : RegId) (a : RegId) (imm20 : W20) :
    s₀.Ends κ (execISth c d a imm20 s) := by
  unfold execISth
  grind (gen := 30) (ematch := 30) only [← State.Quiet.next, ← State.Quiet.instr, ← State.Quiet.store]

theorem State.Quiet.of_execIStwl {κ : Standing} {s₀ s : State} (hQ : s₀.Quiet κ s) (hm : κ.mem = false) (hc : κ.cores = false) (hp : κ.power = false) (c : CoreId) (d : RegId) (a : RegId) (imm20 : W20) :
    s₀.Ends κ (execIStwl c d a imm20 s) := by
  unfold execIStwl
  grind (gen := 30) (ematch := 30) only [← State.Quiet.next, ← State.Quiet.instr, ← State.Quiet.store]

theorem State.Quiet.of_execIStp {κ : Standing} {s₀ s : State} (hQ : s₀.Quiet κ s) (hm : κ.mem = false) (hc : κ.cores = false) (hp : κ.power = false) (c : CoreId) (d : RegId) (a : RegId) (imm20 : W20) :
    s₀.Ends κ (execIStp c d a imm20 s) := by
  unfold execIStp
  grind (gen := 30) (ematch := 30) only [← State.Quiet.next, ← State.Quiet.illegal, ← State.Quiet.instr, ← State.Quiet.store]

theorem State.Quiet.of_execStoreVisible {κ : Standing} {s₀ s : State} (hQ : s₀.Quiet κ s) (hm : κ.mem = false) (hc : κ.cores = false) (hp : κ.power = false) (c : CoreId) :
    s₀.Ends κ (execStoreVisible c s) := by
  unfold execStoreVisible
  grind (gen := 30) (ematch := 30) only [← State.Quiet.next, ← State.Quiet.coreResetDue, ← State.Quiet.drainOne]

theorem State.Quiet.of_execBackupStoreComplete {κ : Standing} {s₀ s : State} (hQ : s₀.Quiet κ s) (hm : κ.mem = false) (hc : κ.cores = false) (hp : κ.power = false) :
    s₀.Ends κ (execBackupStoreComplete s) := by
  unfold execBackupStoreComplete
  grind (gen := 30) (ematch := 30) only [← State.Quiet.next, ← State.Quiet.backupNext, ← State.Quiet.drainOne, ← State.Quiet.mk']

theorem State.Quiet.of_execIFence {κ : Standing} {s₀ s : State} (hQ : s₀.Quiet κ s) (hm : κ.mem = false) (hc : κ.cores = false) (hp : κ.power = false) (c : CoreId) :
    s₀.Ends κ (execIFence c s) := by
  unfold execIFence
  grind (gen := 30) (ematch := 30) only [← State.Quiet.next, ← State.Quiet.afterDrain, ← State.Quiet.instr, ← State.Quiet.setCore]

theorem State.Quiet.of_execIXchg {κ : Standing} {s₀ s : State} (hQ : s₀.Quiet κ s) (hm : κ.mem = false) (hc : κ.cores = false) (hp : κ.power = false) (c : CoreId) (d : RegId) (a : RegId) :
    s₀.Ends κ (execIXchg c d a s) := by
  unfold execIXchg
  grind (gen := 30) (ematch := 30) only [← State.Quiet.next, ← State.Quiet.afterDrain, ← State.Quiet.dataFault, ← State.Quiet.instr, ← State.Quiet.modCore, ← State.Quiet.ramRead, ← State.Quiet.ramWrite, ← State.Quiet.mk']

theorem State.Quiet.of_execIArm {κ : Standing} {s₀ s : State} (hQ : s₀.Quiet κ s) (hm : κ.mem = false) (hc : κ.cores = false) (hp : κ.power = false) (c : CoreId) (d : RegId) (a : RegId) (b : RegId) :
    s₀.Ends κ (execIArm c d a b s) := by
  unfold execIArm
  grind (gen := 30) (ematch := 30) only [← State.Quiet.next, ← State.Quiet.afterDrain, ← State.Quiet.illegal, ← State.Quiet.instr, ← State.Quiet.modCore, ← State.Quiet.place, ← State.Quiet.privOp, ← State.Quiet.mk']

theorem State.Quiet.of_execMangerEvaluation {κ : Standing} {s₀ s : State} (hQ : s₀.Quiet κ s) (hc : κ.cores = false) :
    s₀.Ends κ (execMangerEvaluation s) := by
  unfold execMangerEvaluation
  grind (gen := 30) (ematch := 30) only [← State.Quiet.next, ← State.Quiet.during, ← State.Quiet.evaluate, ← State.Quiet.onGrant, ← State.Quiet.foldl]

theorem State.Quiet.of_execTakeTimeout {κ : Standing} {s₀ s : State} (hQ : s₀.Quiet κ s) (hc : κ.cores = false) (c : CoreId) :
    s₀.Ends κ (execTakeTimeout c s) := by
  unfold execTakeTimeout
  grind (gen := 30) (ematch := 30) only [← State.Quiet.next, ← State.Quiet.evaluate, ← State.Quiet.onGrant, ← State.Quiet.setCore, ← State.Quiet.withdrawTake, ← State.Quiet.foldl, ← State.Quiet.mk']

theorem State.Quiet.of_execActionFire {κ : Standing} {s₀ s : State} (hQ : s₀.Quiet κ s) (hc : κ.cores = false) (temp : BitVec 10) :
    s₀.Ends κ (execActionFire temp s) := by
  unfold execActionFire
  grind (gen := 30) (ematch := 30) only [← State.Quiet.next, ← State.Quiet.actionsFire, ← State.Quiet.live]

theorem State.Quiet.of_execLatticeEventDelivery {κ : Standing} {s₀ s : State} (hQ : s₀.Quiet κ s) (hc : κ.cores = false) (ch : Fin 64) :
    s₀.Ends κ (execLatticeEventDelivery ch s) := by
  unfold execLatticeEventDelivery
  grind (gen := 30) (ematch := 30) only [← State.Quiet.next, ← State.Quiet.deliver, ← State.Quiet.live]

theorem State.Quiet.of_execHitchRead {κ : Standing} {s₀ s : State} (hQ : s₀.Quiet κ s) (hp : κ.power = false) (addr : W20) (n : Nat) :
    s₀.Ends κ (execHitchRead addr n s) := by
  unfold execHitchRead
  grind (gen := 30) (ematch := 30) only [← State.Quiet.next, ← State.Quiet.hitchReadAt, ← State.Quiet.hitchSend, ← State.Quiet.live, ← State.Quiet.mk']

theorem State.Quiet.of_execHitchWrite {κ : Standing} {s₀ s : State} (hQ : s₀.Quiet κ s) (hm : κ.mem = false) (hc : κ.cores = false) (hp : κ.power = false) (addr : W20) (bytes : List Byte) :
    s₀.Ends κ (execHitchWrite addr bytes s) := by
  unfold execHitchWrite
  grind (gen := 30) (ematch := 30) only [← State.Quiet.next, ← State.Quiet.hitchSend, ← State.Quiet.hitchWriteAt, ← State.Quiet.live]

theorem State.Quiet.of_execHitchStatus {κ : Standing} {s₀ s : State} (hQ : s₀.Quiet κ s) (hp : κ.power = false) (cmd : Byte := 0x05) (n : Nat := 1) :
    s₀.Ends κ (execHitchStatus s cmd n) := by
  unfold execHitchStatus
  grind (gen := 30) (ematch := 30) only [← State.Quiet.next, ← State.Quiet.hitchSend, ← State.Quiet.live]

theorem State.Quiet.of_execBusTimeout {κ : Standing} {s₀ s : State} (hQ : s₀.Quiet κ s) (hm : κ.mem = false) (hc : κ.cores = false) (hp : κ.power = false) (who : BusMaster) :
    s₀.Ends κ (execBusTimeout who s) := by
  unfold execBusTimeout
  grind (gen := 30) (ematch := 30) only [← State.Quiet.next, ← State.Quiet.dataFault, ← State.Quiet.dmaTimeout, ← State.Quiet.during, ← State.Quiet.foldFail, ← State.Quiet.hitchErr, ← State.Quiet.hitchSend, ← State.Quiet.mk']

end Sys2Proof.Machine
end

section
/-! SUPPORT. Every command, and every step, keeps the tables canonical; the statement about it. -/

set_option Elab.async false

namespace Sys2Proof.Machine

/-- What a command leaves standing where nothing is asked to stand but the canonical form. -/
theorem State.Quiet.of_exec {κ : Standing} {s₀ s : State} (hQ : s₀.Quiet κ s) (hm : κ.mem = false) (hc : κ.cores = false) (hp : κ.power = false) (i : Instr) :
    s₀.Ends κ (exec i s) := by
  cases i with
  | iAdd c d a b => exact hQ.of_execIAdd hc c d a b
  | iAdc c d a b => exact hQ.of_execIAdc hc c d a b
  | iSub c d a b => exact hQ.of_execISub hc c d a b
  | iSbc c d a b => exact hQ.of_execISbc hc c d a b
  | iAnd c d a b => exact hQ.of_execIAnd hc c d a b
  | iOr c d a b => exact hQ.of_execIOr hc c d a b
  | iXor c d a b => exact hQ.of_execIXor hc c d a b
  | iAndn c d a b => exact hQ.of_execIAndn hc c d a b
  | iSll c d a b => exact hQ.of_execISll hc c d a b
  | iSrl c d a b => exact hQ.of_execISrl hc c d a b
  | iSra c d a b => exact hQ.of_execISra hc c d a b
  | iRor c d a b => exact hQ.of_execIRor hc c d a b
  | iSlt c d a b => exact hQ.of_execISlt hc c d a b
  | iSltu c d a b => exact hQ.of_execISltu hc c d a b
  | iJalr c d a => exact hQ.of_execIJalr hc c d a
  | iAddi c d a imm8 => exact hQ.of_execIAddi hc c d a imm8
  | iLui c d imm12 => exact hQ.of_execILui hc c d imm12
  | iLdw c d a disp8 => exact hQ.of_execILdw hm hc hp c d a disp8
  | iStw c d a disp8 => exact hQ.of_execIStw hm hc hp c d a disp8
  | iBranch c cond disp12 => exact hQ.of_execIBranch hc c cond disp12
  | iJ c imm16 => exact hQ.of_execIJ hc c imm16
  | iCall c imm16 => exact hQ.of_execICall hc c imm16
  | iPadd c d a b => exact hQ.of_execIPadd hc c d a b
  | iPsub c d a b => exact hQ.of_execIPsub hc c d a b
  | iPcmp c a b => exact hQ.of_execIPcmp hc c a b
  | iPaddsx c d a b => exact hQ.of_execIPaddsx hc c d a b
  | iPaddzx c d a b => exact hQ.of_execIPaddzx hc c d a b
  | iPsll c d a b => exact hQ.of_execIPsll hc c d a b
  | iPsrl c d a b => exact hQ.of_execIPsrl hc c d a b
  | iPsra c d a b => exact hQ.of_execIPsra hc c d a b
  | iPmov c d a => exact hQ.of_execIPmov hc c d a
  | iMul c d a b => exact hQ.of_execIMul hc c d a b
  | iMuluP c d a b => exact hQ.of_execIMuluP hc c d a b
  | iMulsP c d a b => exact hQ.of_execIMulsP hc c d a b
  | iMacuP c d a b => exact hQ.of_execIMacuP hc c d a b
  | iMacsP c d a b => exact hQ.of_execIMacsP hc c d a b
  | iDivuP c d a b => exact hQ.of_execIDivuP hc c d a b
  | iDivsP c d a b => exact hQ.of_execIDivsP hc c d a b
  | iDivu c d a b => exact hQ.of_execIDivu hc c d a b
  | iDivs c d a b => exact hQ.of_execIDivs hc c d a b
  | iRemu c d a b => exact hQ.of_execIRemu hc c d a b
  | iRems c d a b => exact hQ.of_execIRems hc c d a b
  | iSlli c d a n => exact hQ.of_execISlli hc c d a n
  | iSrli c d a n => exact hQ.of_execISrli hc c d a n
  | iSrai c d a n => exact hQ.of_execISrai hc c d a n
  | iRori c d a n => exact hQ.of_execIRori hc c d a n
  | iExtu c d a pos width => exact hQ.of_execIExtu hc c d a pos width
  | iExts c d a pos width => exact hQ.of_execIExts hc c d a pos width
  | iIns c d a pos width => exact hQ.of_execIIns hc c d a pos width
  | iClz c d a => exact hQ.of_execIClz hc c d a
  | iPopc c d a => exact hQ.of_execIPopc hc c d a
  | iLongAlu c fn d a imm20 => exact hQ.of_execILongAlu hc c fn d a imm20
  | iLi c d imm20 => exact hQ.of_execILi hc c d imm20
  | iLdbu c d a imm20 => exact hQ.of_execILdbu hm hc hp c d a imm20
  | iLdbs c d a imm20 => exact hQ.of_execILdbs hm hc hp c d a imm20
  | iLdhu c d a imm20 => exact hQ.of_execILdhu hm hc hp c d a imm20
  | iLdhs c d a imm20 => exact hQ.of_execILdhs hm hc hp c d a imm20
  | iLdwl c d a imm20 => exact hQ.of_execILdwl hm hc hp c d a imm20
  | iLdp c d a imm20 => exact hQ.of_execILdp hm hc hp c d a imm20
  | iStb c d a imm20 => exact hQ.of_execIStb hm hc hp c d a imm20
  | iSth c d a imm20 => exact hQ.of_execISth hm hc hp c d a imm20
  | iStwl c d a imm20 => exact hQ.of_execIStwl hm hc hp c d a imm20
  | iStp c d a imm20 => exact hQ.of_execIStp hm hc hp c d a imm20
  | iTrap c imm12 => exact hQ.of_execITrap hc c imm12
  | iTnow c d => exact hQ.of_execITnow hc c d
  | iWat c a => exact hQ.of_execIWat hc c a
  | watRelease c => exact hQ.of_execWatRelease hc c
  | iArm c d a b => exact hQ.of_execIArm hm hc hp c d a b
  | actionFire temp => exact hQ.of_execActionFire hc temp
  | iPost c a b => exact hQ.of_execIPost hc c a b
  | iSense c d a => exact hQ.of_execISense hc c d a
  | iWev c d a b => exact hQ.of_execIWev hc c d a b
  | wevEvent c => exact hQ.of_execWevEvent hc c
  | wevTimeout c => exact hQ.of_execWevTimeout hc c
  | iAck c a => exact hQ.of_execIAck hc c a
  | iTake c d a b => exact hQ.of_execITake hc c d a b
  | takeTimeout c => exact hQ.of_execTakeTimeout hc c
  | iGive c d a => exact hQ.of_execIGive hc c d a
  | iXchg c d a => exact hQ.of_execIXchg hm hc hp c d a
  | iFence c => exact hQ.of_execIFence hm hc hp c
  | storeVisible c => exact hQ.of_execStoreVisible hm hc hp c
  | iRti c => exact hQ.of_execIRti hc c
  | iSys c imm8 => exact hQ.of_execISys hc c imm8
  | iMfs c d sr => exact hQ.of_execIMfs hc c d sr
  | iMts c sr d => exact hQ.of_execIMts hc c sr d
  | iHalt c => exact hQ.of_execIHalt hc c
  | interruptEntry c => exact hQ.of_execInterruptEntry hc c
  | coreReset c => exact hQ.of_execCoreReset hc c
  | coreRun c run => exact hQ.of_execCoreRun hc c run
  | loftWrite c v => exact hQ.of_execLoftWrite hm c v
  | loftRead c => exact hQ.of_execLoftRead c
  | poolWrite v => exact hQ.of_execPoolWrite v
  | vbatSample vbat => exact hQ.of_execVbatSample vbat
  | mangerEvaluation => exact hQ.of_execMangerEvaluation hc
  | patienceExpiry => exact hQ.of_execPatienceExpiry
  | extHolderModeWrite n v => exact hQ.of_execExtHolderModeWrite n v
  | tiedPinAssert n level => exact hQ.of_execTiedPinAssert n level
  | reservationRequest c e => exact hQ.of_execReservationRequest hc c e
  | hitchRead addr n => exact hQ.of_execHitchRead hp addr n
  | hitchWrite addr bytes => exact hQ.of_execHitchWrite hm hc hp addr bytes
  | hitchStatus cmd n => exact hQ.of_execHitchStatus hp cmd n
  | hspRingWrite v => exact hQ.of_execHspRingWrite v
  | hspH2cWrite v => exact hQ.of_execHspH2cWrite v
  | flashProgram len pageOfs => exact hQ.of_execFlashProgram len pageOfs
  | flashErase => exact hQ.of_execFlashErase
  | flashOpDone ok => exact hQ.of_execFlashOpDone hm ok
  | uartRxByte b ferr brk => exact hQ.of_execUartRxByte hm b ferr brk
  | uartTxByteSent => exact hQ.of_execUartTxByteSent
  | uartDataRead => exact hQ.of_execUartDataRead
  | uartDataWrite b => exact hQ.of_execUartDataWrite b
  | gpioInputChange p level => exact hQ.of_execGpioInputChange p level
  | busTimeout who => exact hQ.of_execBusTimeout hm hc hp who
  | radioReq req => exact hQ.of_execRadioReq req
  | listenWindowOpen chains => exact hQ.of_execListenWindowOpen chains
  | listenWindowClose => exact hQ.of_execListenWindowClose
  | radioTransitionDone => exact hQ.of_execRadioTransitionDone
  | rxLoWrite int frac => exact hQ.of_execRxLoWrite int frac
  | synthLock tx => exact hQ.of_execSynthLock tx
  | gainWrite chainB v => exact hQ.of_execGainWrite chainB v
  | overloadDetect chainB => exact hQ.of_execOverloadDetect chainB
  | energyWindowEnd chainB level => exact hQ.of_execEnergyWindowEnd hp chainB level
  | txHoldCheck => exact hQ.of_execTxHoldCheck
  | txLate => exact hQ.of_execTxLate
  | talkReached => exact hQ.of_execTalkReached
  | frameSent => exact hQ.of_execFrameSent hm
  | turnBackSwap => exact hQ.of_execTurnBackSwap
  | maskWindowEnd meas => exact hQ.of_execMaskWindowEnd meas
  | lockLost tx temp => exact hQ.of_execLockLost tx temp
  | paStep => exact hQ.of_execPaStep
  | paStepGrant => exact hQ.of_execPaStepGrant
  | calRxsyn temp => exact hQ.of_execCalRxsyn temp
  | calTxsyn temp => exact hQ.of_execCalTxsyn temp
  | calTpm temp => exact hQ.of_execCalTpm temp
  | calIqa temp => exact hQ.of_execCalIqa temp
  | calIqb temp => exact hQ.of_execCalIqb temp
  | calStepDone trim temp => exact hQ.of_execCalStepDone trim temp
  | dieTempSample temp => exact hQ.of_execDieTempSample temp
  | tempCalStart temp => exact hQ.of_execTempCalStart temp
  | synthCalDone tx => exact hQ.of_execSynthCalDone tx
  | stcPlanWrite v => exact hQ.of_execStcPlanWrite v
  | stcMapWrite k v => exact hQ.of_execStcMapWrite k v
  | stallEnable p en byAction => exact hQ.of_execStallEnable p en byAction
  | preambleDetect p qualA qualB => exact hQ.of_execPreambleDetect p qualA qualB
  | aerialChoice p meanA meanB => exact hQ.of_execAerialChoice p meanA meanB
  | syncDeclared p rxA rxB => exact hQ.of_execSyncDeclared hp p rxA rxB
  | nosync p => exact hQ.of_execNosync p
  | packetReceived p body => exact hQ.of_execPacketReceived hm hc p body
  | stlTsloRead p => exact hQ.of_execStlTsloRead p
  | stcGive v => exact hQ.of_execStcGive v
  | poolConfigWrite q which v => exact hQ.of_execPoolConfigWrite q which v
  | headerReceived p soft => exact hQ.of_execHeaderReceived hm hc p soft
  | blockQueued p soft => exact hQ.of_execBlockQueued hm hc p soft
  | decodeStart => exact hQ.of_execDecodeStart
  | decodeDone iters info parity => exact hQ.of_execDecodeDone hm hc iters info parity
  | decoderIdle => exact hQ.of_execDecoderIdle
  | decHoldWrite hold => exact hQ.of_execDecHoldWrite hold
  | txSlotReadyWrite k v => exact hQ.of_execTxSlotReadyWrite k v
  | sramErr addr => exact hQ.of_execSramErr addr
  | slotBoundary => exact hQ.of_execSlotBoundary
  | schSlotlenWrite v => exact hQ.of_execSchSlotlenWrite v
  | schSyncofsWrite v => exact hQ.of_execSchSyncofsWrite v
  | schLoad => exact hQ.of_execSchLoad
  | schRunSet => exact hQ.of_execSchRunSet
  | schAsnloRead => exact hQ.of_execSchAsnloRead
  | hopWrite k v => exact hQ.of_execHopWrite k v
  | schHopqRead => exact hQ.of_execSchHopqRead
  | knockCaught p rxA rxB => exact hQ.of_execKnockCaught p rxA rxB
  | countdownReceived p fields => exact hQ.of_execCountdownReceived hp p fields
  | nbtFind => exact hQ.of_execNbtFind hm
  | nbtAdd index => exact hQ.of_execNbtAdd hm index
  | nbtClear index => exact hQ.of_execNbtClear hm index
  | nbtMiss n => exact hQ.of_execNbtMiss hm n
  | nbtSet n => exact hQ.of_execNbtSet hm n
  | nbtPredict n => exact hQ.of_execNbtPredict hm n
  | nbtTsrc1 n => exact hQ.of_execNbtTsrc1 hm n
  | nbtTsrc0 n => exact hQ.of_execNbtTsrc0 hm n
  | nbtCommandDone => exact hQ.of_execNbtCommandDone hm
  | meshTimeStep delta => exact hQ.of_execMeshTimeStep hm hc delta
  | stepSweepDone => exact hQ.of_execStepSweepDone hm
  | relayFire temp => exact hQ.of_execRelayFire hm temp
  | relayTry => exact hQ.of_execRelayTry hm
  | immediateAckStart temp => exact hQ.of_execImmediateAckStart hm temp
  | ackDecision => exact hQ.of_execAckDecision hm
  | ackWaitTimeout => exact hQ.of_execAckWaitTimeout
  | ackPrimWrite v => exact hQ.of_execAckPrimWrite v
  | rcCopy addr => exact hQ.of_execRcCopy addr
  | rcCopyDone => exact hQ.of_execRcCopyDone hm
  | foldEnable v => exact hQ.of_execFoldEnable hm v
  | foldClearDone => exact hQ.of_execFoldClearDone
  | foldErr => exact hQ.of_execFoldErr
  | relayDisable => exact hQ.of_execRelayDisable hm
  | keymapWrite k v => exact hQ.of_execKeymapWrite k v
  | trGenerate src slot => exact hQ.of_execTrGenerate hc src slot
  | trImportEcdh src slot => exact hQ.of_execTrImportEcdh hc src slot
  | trImportKek src slot => exact hQ.of_execTrImportKek hc src slot
  | trErase src slot => exact hQ.of_execTrErase hc src slot
  | trExport src slot => exact hQ.of_execTrExport hc src slot
  | trRestore src slot => exact hQ.of_execTrRestore hc src slot
  | trCommandDone => exact hQ.of_execTrCommandDone hm hc
  | cphSubmit src addr => exact hQ.of_execCphSubmit src addr
  | cipherAccept => exact hQ.of_execCipherAccept hm
  | cipherRequestStart => exact hQ.of_execCipherRequestStart
  | cipherRequestDone => exact hQ.of_execCipherRequestDone hm hc
  | cipherIdle => exact hQ.of_execCipherIdle
  | hashInit => exact hQ.of_execHashInit hm hc
  | hashUpdate => exact hQ.of_execHashUpdate hm hc
  | hashFinal => exact hQ.of_execHashFinal hm hc
  | hpkVerify => exact hQ.of_execHpkVerify hm hc
  | hpkSignId src => exact hQ.of_execHpkSignId hm hc src
  | hpkIdRecord => exact hQ.of_execHpkIdRecord hm hc
  | hpkCommandDone => exact hQ.of_execHpkCommandDone hm
  | trngDataRead => exact hQ.of_execTrngDataRead
  | trngHealthFail rct apt => exact hQ.of_execTrngHealthFail rct apt
  | trngRestart passed => exact hQ.of_execTrngRestart passed
  | koRootSet src => exact hQ.of_execKoRootSet hc src
  | koRootRevoke src => exact hQ.of_execKoRootRevoke hc src
  | koSeal src => exact hQ.of_execKoSeal hc src
  | koDbgUnlock src => exact hQ.of_execKoDbgUnlock hc src
  | chdCtlWrite v => exact hQ.of_execChdCtlWrite v
  | bypassChange => exact hQ.of_execBypassChange
  | repeatLock portA portB => exact hQ.of_execRepeatLock portA portB
  | repeatRelease => exact hQ.of_execRepeatRelease
  | bayStart e => exact hQ.of_execBayStart e
  | bayEnd => exact hQ.of_execBayEnd
  | ctxReadyWrite k v => exact hQ.of_execCtxReadyWrite k v
  | chordFrameReceived port rx => exact hQ.of_execChordFrameReceived port rx
  | chordFrameSent => exact hQ.of_execChordFrameSent
  | rangingBurstReceived port frac => exact hQ.of_execRangingBurstReceived port frac
  | rangingEchoReceived port ns => exact hQ.of_execRangingEchoReceived port ns
  | norange port => exact hQ.of_execNorange port
  | timeFrameEmit frac => exact hQ.of_execTimeFrameEmit frac
  | chordKnocked syms => exact hQ.of_execChordKnocked syms
  | dmaStart ch => exact hQ.of_execDmaStart ch
  | dmaDescriptorFetch ch => exact hQ.of_execDmaDescriptorFetch hm ch
  | dmaChunkRead ch => exact hQ.of_execDmaChunkRead hm hc ch
  | dmaChunkWritten => exact hQ.of_execDmaChunkWritten hm hc hp
  | dmaDescriptorComplete ch => exact hQ.of_execDmaDescriptorComplete hm ch
  | dmaAbort ch => exact hQ.of_execDmaAbort hm ch
  | dmaResume ch => exact hQ.of_execDmaResume hm ch
  | dmaHaltRelease => exact hQ.of_execDmaHaltRelease
  | dmaIdle => exact hQ.of_execDmaIdle
  | latticeEventDelivery ch => exact hQ.of_execLatticeEventDelivery hc ch
  | storm ch => exact hQ.of_execStorm ch
  | latticeConfigWrite src ofs v => exact hQ.of_execLatticeConfigWrite src ofs v
  | timerWrap n => exact hQ.of_execTimerWrap n
  | timerMatch n => exact hQ.of_execTimerMatch n
  | tmrCtlWrite n v => exact hQ.of_execTmrCtlWrite n v
  | tmrCntWrite n v => exact hQ.of_execTmrCntWrite n v
  | tmrCntRead n => exact hQ.of_execTmrCntRead n
  | tmrTopCmpWrite n cmp v => exact hQ.of_execTmrTopCmpWrite n cmp v
  | timerEventInput n => exact hQ.of_execTimerEventInput n
  | tmrGstart v => exact hQ.of_execTmrGstart v
  | rtcSecond => exact hQ.of_execRtcSecond
  | rtcSubsecRead => exact hQ.of_execRtcSubsecRead
  | rtcApplySub => exact hQ.of_execRtcApplySub
  | rtcApplyTime => exact hQ.of_execRtcApplyTime
  | rtcApplyDate => exact hQ.of_execRtcApplyDate
  | rtcStagedApply => exact hQ.of_execRtcStagedApply
  | rtcShift n => exact hQ.of_execRtcShift n
  | rtcAlarm k => exact hQ.of_execRtcAlarm k
  | backupStoreComplete => exact hQ.of_execBackupStoreComplete hm hc hp
  | bkpInvalid => exact hQ.of_execBkpInvalid hc
  | slkFail => exact hQ.of_execSlkFail hp
  | slkCfgWrite v => exact hQ.of_execSlkCfgWrite hp v
  | refFail => exact hQ.of_execRefFail hm hc hp
  | refRetry => exact hQ.of_execRefRetry hp
  | referenceReady => exact hQ.of_execReferenceReady hp
  | systemPllLock => exact hQ.of_execSystemPllLock
  | cdivWrite d => exact hQ.of_execCdivWrite d
  | rateWindowEnd n => exact hQ.of_execRateWindowEnd hp n
  | doze => exact hQ.of_execDoze
  | enterRest => exact hQ.of_execEnterRest hp
  | enterOrbit => exact hQ.of_execEnterOrbit hp
  | enterDormant => exact hQ.of_execEnterDormant hp
  | entryCancel => exact hQ.of_execEntryCancel hp
  | sleepEntryBegin => exact hQ.of_execSleepEntryBegin hp
  | sleepStateEntered => exact hQ.of_execSleepStateEntered hm hc hp
  | wake ws => exact hQ.of_execWake hp ws
  | wakeRunReached => exact hQ.of_execWakeRunReached hp
  | actionWake => exact hQ.of_execActionWake hp
  | dormantExit ws => exact hQ.of_execDormantExit hm hc hp ws
  | orbitPassStart => exact hQ.of_execOrbitPassStart hp
  | orbitPrepare => exact hQ.of_execOrbitPrepare hp
  | orbitListen => exact hQ.of_execOrbitListen hp
  | orbitCheck => exact hQ.of_execOrbitCheck hp
  | orbitPause => exact hQ.of_execOrbitPause hp
  | orbitEnd => exact hQ.of_execOrbitEnd hp
  | orbitStepEnd hit => exact hQ.of_execOrbitStepEnd hp hit
  | orbitPassSleep => exact hQ.of_execOrbitPassSleep hp
  | vbatBrownout below => exact hQ.of_execVbatBrownout hm hc hp below
  | yardEnable => exact hQ.of_execYardEnable
  | yardDisable => exact hQ.of_execYardDisable hm hc
  | trainingDone ok stp => exact hQ.of_execTrainingDone ok stp
  | yardRequestServe ch => exact hQ.of_execYardRequestServe ch
  | yardRefresh ch => exact hQ.of_execYardRefresh ch
  | yardRetrain => exact hQ.of_execYardRetrain
  | yardRetrainTrigger ch => exact hQ.of_execYardRetrainTrigger ch
  | yardRetrainPauseDone ch => exact hQ.of_execYardRetrainPauseDone ch
  | yardCommandRetire ch => exact hQ.of_execYardCommandRetire hm hc ch
  | yardAlert ch => exact hQ.of_execYardAlert hm hc ch
  | yardSelfRefreshEnter => exact hQ.of_execYardSelfRefreshEnter hm hc
  | yardSelfRefreshExit => exact hQ.of_execYardSelfRefreshExit
  | yardSupplyLost => exact hQ.of_execYardSupplyLost hm hc
  | yardInit => exact hQ.of_execYardInit
  | yardInitDone => exact hQ.of_execYardInitDone
  | yardSoftRepair v noResource => exact hQ.of_execYardSoftRepair hm hc v noResource
  | yardHardRepair v noResource => exact hQ.of_execYardHardRepair hm hc v noResource
  | yardRepairDone ok => exact hQ.of_execYardRepairDone ok
  | resetPor => exact hQ.of_execResetPor hm hc hp
  | resetPin => exact hQ.of_execResetPin hm hc hp
  | resetSoftWarm src => exact hQ.of_execResetSoftWarm hm hc hp src
  | resetSoftCold src => exact hQ.of_execResetSoftCold hm hc hp src
  | resetRecovery src => exact hQ.of_execResetRecovery hm hc hp src
  | keeperSequence st => exact hQ.of_execKeeperSequence hm hc st
  | keeperShortSequence recovLow => exact hQ.of_execKeeperShortSequence hm hc recovLow
  | halterModeInForce => exact hQ.of_execHalterModeInForce
  | koBoot src => exact hQ.of_execKoBoot hc src
  | koFailsClear src => exact hQ.of_execKoFailsClear hc src
  | koCeilSet src => exact hQ.of_execKoCeilSet hc src
  | koHalterSet src => exact hQ.of_execKoHalterSet hc src
  | koEnergyClass src => exact hQ.of_execKoEnergyClass hc src
  | koFloorRaise src => exact hQ.of_execKoFloorRaise hc src
  | keeperOrderDone otpOk => exact hQ.of_execKeeperOrderDone hm hc otpOk
  | startTimeout => exact hQ.of_execStartTimeout hm hc hp
  | kmbWdogWrite v => exact hQ.of_execKmbWdogWrite v
  | declareService src => exact hQ.of_execDeclareService src
  | faultReport code detail => exact hQ.of_execFaultReport hp code detail
  | fatalWarmReset => exact hQ.of_execFatalWarmReset hm hc hp
  | fltSrcClear k v => exact hQ.of_execFltSrcClear hp k v
  | fltRelease v => exact hQ.of_execFltRelease v
  | trackerHalving => exact hQ.of_execTrackerHalving hc
  | laneWithdraw lane => exact hQ.of_execLaneWithdraw lane
  | ageingCheck margin => exact hQ.of_execAgeingCheck margin
  | updManifest src => exact hQ.of_execUpdManifest src
  | updResume src => exact hQ.of_execUpdResume src
  | updPiece src => exact hQ.of_execUpdPiece src
  | updApply src part => exact hQ.of_execUpdApply src part
  | updConfirm src part => exact hQ.of_execUpdConfirm src part
  | updPieceOut src part idx => exact hQ.of_execUpdPieceOut src part idx
  | updAbandon src => exact hQ.of_execUpdAbandon src
  | updCommandDone flashOk => exact hQ.of_execUpdCommandDone hm hc flashOk
  | updAreaWrite q v => exact hQ.of_execUpdAreaWrite q v
  | recoveryBlock ifc payload => exact hQ.of_execRecoveryBlock hm ifc payload
  | recoveryStatus => exact hQ.of_execRecoveryStatus
  | recoveryImageJudged => exact hQ.of_execRecoveryImageJudged hm hc hp
  | padCfgWrite v => exact hQ.of_execPadCfgWrite v
  | registerWrite src addr v => exact hQ.of_execRegisterWrite hm hc hp src addr v
  | illegalOp c w x => exact hQ.of_execIllegalOp hc c w x
  | fetchFault c addr twoWord => exact hQ.of_execFetchFault hc c addr twoWord
  | supplyGoodChange bank good => exact hQ.of_execSupplyGoodChange hm hc bank good
  | halterDataFrameStart k => exact hQ.of_execHalterDataFrameStart k
  | rangingPhase2 => exact hQ.of_execRangingPhase2
  | fastRcRunning => exact hQ.of_execFastRcRunning hp

/-- Nothing is asked to stand. -/
def Standing.none : Standing := ⟨false, false, false⟩

/-- Settles O58: a tick and every command run operations that keep the tables canonical. -/
theorem stepKeepsTablesCanonical : Obligations.StepKeepsTablesCanonical := by
  unfold Obligations.StepKeepsTablesCanonical
  intro s t hwf hstep
  unfold step at hstep
  split at hstep
  · cases hstep
    exact (State.Quiet.idleTick (κ := Standing.none) s rfl rfl rfl).wf ⟨hwf.regs, hwf.sram, hwf.pram, hwf.loft, hwf.memChk, hwf.flash⟩
  · next c rest _ =>
    exact ((State.Quiet.refl Standing.none { s with pending := rest }).of_exec rfl rfl rfl c t hstep).wf
      ⟨hwf.regs, hwf.sram, hwf.pram, hwf.loft, hwf.memChk, hwf.flash⟩

end Sys2Proof.Machine
end

section
/-! SUPPORT. The yard's enable and state stand while the radio goes OFF (R143, R393). -/

set_option Elab.async false

namespace Sys2Proof.Machine

/-- The yard's enable and its state read as before. -/
structure State.YardStands (s t : State) : Prop where
  en : t.get YRD_CTL_EN = s.get YRD_CTL_EN
  st : t.yst = s.yst

namespace State.YardStands

variable {s t u : State}

theorem rfl' (s : State) : s.YardStands s := ⟨rfl, rfl⟩

theorem trans (h : s.YardStands t) (g : t.YardStands u) : s.YardStands u := ⟨g.en.trans h.en, g.st.trans h.st⟩

theorem of_regs (h : t.regs = s.regs) : s.YardStands t := by
  constructor
  · rw [State.get, State.get, State.rg, State.rg, h]
  · rw [State.yst, State.yst, State.get, State.get, State.rg, State.rg, h]

/-- A field beside the enable's bit, and not of the yard's status. -/
theorem put (s : State) {f : Field} (n : Nat) (hh : f.hi < 20) (hl : f.lo ≤ f.hi) (h1 : f.reg ≠ YRD_CTL ∨ 0 < f.lo) (h2 : f.reg ≠ YRD_STAT) :
    s.YardStands (s.put f n) :=
  ⟨State.get_put_other s n hh hl (h1.imp Ne.symm .inl), State.get_put_ne s n (Ne.symm h2)⟩

theorem setRg (s : State) {a : Nat} (v : W20) (h1 : a ≠ YRD_CTL) (h2 : a ≠ YRD_STAT) : s.YardStands (s.setRg a v) := by
  have he : (s.setRg a v).rg YRD_CTL = s.rg YRD_CTL := State.rg_setRg_ne _ _ (Ne.symm h1)
  have hs : (s.setRg a v).rg YRD_STAT = s.rg YRD_STAT := State.rg_setRg_ne _ _ (Ne.symm h2)
  exact ⟨congrArg (fun w => fieldGet w 0 0) he, congrArg (fun w => fieldGet w YRD_STAT_STATE.hi YRD_STAT_STATE.lo) hs⟩

theorem raise (s : State) {f : Field} (h1 : f.reg ≠ YRD_CTL) (h2 : f.reg ≠ YRD_STAT) : s.YardStands (s.raise f) :=
  ⟨State.raise_get_ne _ _ (Ne.symm h1), State.raise_get_ne _ _ (Ne.symm h2)⟩

/-- The parts that are no registers. -/
theorem modLink (s : State) (f : Link → Link) : s.YardStands (s.modLink f) := of_regs rfl
theorem frame (s : State) (x : FrameUnit) : s.YardStands ({ s with frame := x } : State) := of_regs rfl
theorem modFrames (s : State) (f : FrameUnit → FrameUnit) : s.YardStands (s.modFrames f) := of_regs rfl
theorem setPool (s : State) (q : Fin 2) (p : Pool) : s.YardStands (s.setPool q p) := of_regs rfl

theorem ite {p : Prop} [Decidable p] (ht : s.YardStands t) (hu : s.YardStands u) : s.YardStands (if p then t else u) := by
  split <;> assumption

end State.YardStands

/-! ## What the way to OFF runs -/

theorem State.yardStands_slot (s : State) (k n : Nat) {f : Field} (hf : f.reg = FU_TX_CTL k) (hh : f.hi < 20) (hl : f.lo ≤ f.hi) (h0 : 0 < f.lo) :
    s.YardStands (s.put f n) :=
  State.YardStands.put s n hh hl (.inr h0) (by rw [hf]; show 0xCC100 + 16 * k ≠ 0xCF018; omega)

theorem State.yardStands_report {code : Nat} (hcode : code < 35) (d : W20) (s : State) : s.YardStands (State.report code d s) :=
  ⟨State.report_get_beside hcode d s (by unfold outsideRepeat; decide) (by decide) (by decide) (fun _ => .inr (by decide)),
    State.report_get_beside hcode d s (by unfold outsideRepeat; decide) (by decide) (by decide)
      (fun k => .inl (by show 0xCF018 ≠ 0xCC100 + 16 * k; omega))⟩

theorem State.yardStands_low (s : State) {f : Field} (n : Nat) (h : f.reg < 0xCF000) : s.YardStands (s.put f n) :=
  State.YardStands.setRg s _ (by simp only [YRD_CTL]; omega) (by simp only [YRD_STAT]; omega)

theorem State.yardStands_flag (s : State) {f : Field} (h : f.reg < 0xCF000) : s.YardStands (s.raise f) :=
  State.YardStands.raise s (by simp only [YRD_CTL]; omega) (by simp only [YRD_STAT]; omega)

theorem State.yardStands_rcAdd (s : State) (a b : BitVec 32) : s.YardStands (s.rcAdd a b) := by
  unfold State.rcAdd
  exact State.YardStands.ite (State.YardStands.rfl' s) (State.YardStands.ite ((State.yardStands_low s _ (by decide)).trans
    (State.yardStands_flag _ (by decide))) (State.YardStands.modLink s _))

theorem State.yardStands_ackFail (s : State) (code : Nat) : s.YardStands (s.ackFail code) := by
  unfold State.ackFail
  split
  · exact State.YardStands.rfl' s
  · have hbase : ∀ l, s.YardStands (((s.put ACK_STAT_LAST code).linkLo 6).modLink l) := fun l =>
      ((State.yardStands_low s _ (by decide)).trans (State.yardStands_low _ _ (by decide))).trans (State.YardStands.modLink _ _)
    exact State.YardStands.ite ((hbase _).trans (State.yardStands_rcAdd _ _ _)) (hbase _)

theorem State.yardStands_txDrop (s : State) : s.YardStands s.txDrop := by
  have hack : ∀ (u : State) (k : Nat), u.YardStands (u.ackAbandon k) := fun u k => by
    unfold State.ackAbandon
    split
    · exact State.YardStands.ite (State.YardStands.rfl' u) (State.YardStands.ite (State.YardStands.modLink u _)
        ((u.yardStands_ackFail 6).trans (State.yardStands_slot _ k 0 rfl (Nat.le_of_ble_eq_true rfl) (Nat.le_of_ble_eq_true rfl)
          (Nat.le_of_ble_eq_true rfl))))
    · exact State.YardStands.rfl' u
  unfold State.txDrop
  split
  · next x _ =>
    exact (((State.yardStands_slot s x.slot 0 rfl (Nat.le_of_ble_eq_true rfl) (Nat.le_of_ble_eq_true rfl) (Nat.le_of_ble_eq_true rfl)).trans
      (State.YardStands.setRg _ _ (by decide) (by decide))).trans (State.YardStands.modFrames _ _)).trans (hack _ _)
  · exact State.YardStands.rfl' s

theorem State.yardStands_poolCheck (s : State) (q : Fin 2) : s.YardStands (s.poolCheck q) := by
  have hput : s.YardStands ((s.put CONS_DESC_HELD_SUM ((s.pool 0).held + (s.pool 1).held)).put CONS_DESC_FREE
      ((s.pool 0).queue.length + (s.pool 1).queue.length)) :=
    (State.yardStands_low s _ (by decide)).trans (State.yardStands_low _ _ (by decide))
  rw [State.poolCheck]
  exact State.YardStands.ite hput (hput.trans (State.yardStands_report (by decide) _ _))

theorem State.yardStands_descFree (s : State) (q : Fin 2) (i : Nat) : s.YardStands (s.descFree q i) := by
  unfold State.descFree
  exact State.YardStands.ite (State.YardStands.rfl' s) ((State.YardStands.setPool s q _).trans (State.yardStands_poolCheck _ q))

theorem State.yardStands_frameWithdraw (s : State) (id : Nat) : s.YardStands (s.frameWithdraw id) := by
  have hidle : ∀ u : State, u.YardStands u.decIdle := fun u => by
    unfold State.decIdle
    exact State.YardStands.ite (State.YardStands.frame u _) (State.YardStands.rfl' u)
  have hmac : ∀ u : State, u.YardStands (u.macDrop id) := fun u => by
    unfold State.macDrop
    dsimp only
    split
    · exact State.YardStands.ite ((State.YardStands.modLink u _).trans (State.yardStands_rcAdd _ _ _)) (State.YardStands.modLink u _)
    · exact State.YardStands.modLink u _
  unfold State.frameWithdraw
  exact (State.YardStands.frame s _).trans ((hidle _).trans (hmac _))

theorem stall_low {p : Nat} (hp : p < 48) {a : Nat} (ha : a < 64) : 0xCB000 + a + 64 * p < 0xCF000 := by omega

theorem State.yardStands_stallDrop (s : State) {p : Nat} (hp : p < 48) : s.YardStands (s.stallDrop p) := by
  have hframe : s.YardStands (match (s.stall p).frame with | some id => s.frameWithdraw id | none => s) := by
    split
    · exact s.yardStands_frameWithdraw _
    · exact State.YardStands.rfl' s
  have hfree : ∀ u : State, u.YardStands (if u.test (STL_STATUS_HOLDS p) then
      (u.descFree (poolIx (u.get (STL_STATUS_POOL p))) (u.get (STL_STATUS_INDEX p))).put (STL_STATUS_HOLDS p) 0 else u) := fun u =>
    State.YardStands.ite ((u.yardStands_descFree _ _).trans (State.yardStands_low _ 0 (stall_low hp (a := 12) (by decide)))) (State.YardStands.rfl' u)
  unfold State.stallDrop
  exact (hframe.trans (hfree _)).trans (State.YardStands.of_regs rfl)

theorem State.yardStands_stallLast (s : State) {p : Nat} (hp : p < 48) (o : Nat) : s.YardStands (s.stallLast p o) := by
  have hput : s.YardStands (s.put (STL_STATUS_LAST p) o) := s.yardStands_low o (stall_low hp (a := 12) (by decide))
  have hcnt : ∀ (u : State) (f : Field) (a : Nat), a < 64 → f.reg = 0xCB000 + a + 64 * p → u.YardStands (u.bump f) := fun u f a ha hf =>
    u.yardStands_low _ (hf ▸ stall_low hp ha)
  have hflag : ∀ (u : State) (f : Field), f.reg = STC_FLAGS → u.YardStands (u.raise f) := fun u f h => u.yardStands_flag (by rw [h]; decide)
  unfold State.stallLast
  dsimp only
  split
  · exact hput.trans (hcnt _ _ 40 (by decide) rfl)
  · exact hput.trans ((hcnt _ _ 44 (by decide) rfl).trans (hflag _ _ rfl))
  · exact hput.trans ((hcnt _ _ 44 (by decide) rfl).trans (hflag _ _ rfl))
  · exact hput.trans ((hcnt _ _ 48 (by decide) rfl).trans (hflag _ _ rfl))
  · exact hput.trans ((hcnt _ _ 48 (by decide) rfl).trans (hflag _ _ rfl))
  · exact hput.trans (hcnt _ _ 52 (by decide) rfl)
  · exact hput.trans (hcnt _ _ 52 (by decide) rfl)
  · exact hput

theorem State.yardStands_packetLeave (s : State) {p : Nat} (hp : p < 48) (o : Nat) : s.YardStands (s.packetLeave p o) := by
  unfold State.packetLeave
  split
  · next f _ =>
    have hregs : s.YardStands (s.packetRegs p) :=
      (((s.yardStands_low 1 (stall_low hp (a := 12) (by decide))).trans (State.yardStands_low _ _ (stall_low hp (a := 40) (by decide)))).trans
        (State.yardStands_low _ 0 (stall_low hp (a := 12) (by decide)))).trans (State.yardStands_low _ 2 (stall_low hp (a := 12) (by decide)))
    rw [s.packetEnd_eq p f]
    exact hregs.trans (State.YardStands.of_regs rfl)
  · exact (s.yardStands_stallDrop hp).trans (State.yardStands_stallLast _ hp o)

theorem State.yardStands_stallFollow (s : State) {p : Nat} (hp : p < 48) : s.YardStands (s.stallFollow p) := by
  have hput : ∀ (u : State) (f : Field) (n : Nat), f.reg = STL_STATUS p → u.YardStands (u.put f n) := fun u f n h =>
    u.yardStands_low n (h ▸ stall_low hp (a := 12) (by decide))
  have hmod : ∀ (u : State) (g : StallH → StallH), u.YardStands (u.modStall p g) := fun u g => State.YardStands.of_regs rfl
  unfold State.stallFollow
  dsimp only
  refine State.YardStands.ite (State.YardStands.ite (hput _ _ _ rfl) ?_) ?_
  · exact ((hput _ _ _ rfl).trans (hmod _ _)).trans (hput _ _ _ rfl)
  · refine State.YardStands.trans (State.YardStands.ite ?_ ?_) (hput _ _ _ rfl)
    · exact (hput _ _ _ rfl).trans (State.yardStands_packetLeave _ hp _)
    · exact (hput _ _ _ rfl).trans (hmod _ _)

theorem State.yardStands_stallSync (s : State) : s.YardStands s.stallSync :=
  (s.yardStands_low (f := STC_STATE_BLANK) _ (by decide)).trans
    (foldl_inv (State.YardStands _) _ _ _ (fun _ _ hx ht => ht.trans (State.yardStands_stallFollow _ (List.mem_range.mp hx))) (State.YardStands.rfl' _))

/-- OFF leaves the yard as it is. -/
theorem State.yardStands_radioOff (s : State) : s.YardStands s.radioOff := by
  have hret : s.MangerOnly s.airReturned := (s.mangerOnly_drop _).trans (State.mangerOnly_withdraw _ _)
  have hlow : ∀ (u : State) (f : Field) (n : Nat), f.reg < 0xCF000 → u.YardStands (u.put f n) := fun u f n h => u.yardStands_low n h
  obtain ⟨a, ha⟩ : ∃ a, a = s.airReturned := ⟨_, rfl⟩
  obtain ⟨b, hb⟩ : ∃ b, b = a.txDrop := ⟨_, rfl⟩
  obtain ⟨c, hc⟩ : ∃ c, c = b.modRadio (fun r => r.off (4 ≤ s.rfe)) := ⟨_, rfl⟩
  obtain ⟨d, hd⟩ : ∃ d, d = c.locksOff := ⟨_, rfl⟩
  let e := d.modRadio (fun r => { r with pins := 0, pa := none })
  have hsafe : d.paSafe = (e.tiedDrop 0).tiedDrop 1 := rfl
  have hties : e.MangerOnly ((e.tiedDrop 0).tiedDrop 1) := (e.mangerOnly_tiedDrop 0).trans (State.mangerOnly_tiedDrop _ 1)
  obtain ⟨g, hg⟩ : ∃ g, g = (e.tiedDrop 0).tiedDrop 1 := ⟨_, rfl⟩
  rw [← hg] at hties hsafe
  have hb' : s.YardStands b := (ha ▸ State.YardStands.of_regs hret.regs).trans (hb ▸ a.yardStands_txDrop)
  have hc' : s.YardStands c := hb'.trans (hc ▸ State.YardStands.of_regs rfl)
  have hd' : s.YardStands d := by
    rw [hd, State.locksOff]
    exact hc'.trans (((hlow _ _ _ (by decide)).trans (hlow _ _ _ (by decide))).trans (hlow _ _ _ (by decide)))
  have hg' : s.YardStands g := hd'.trans (State.YardStands.of_regs hties.regs)
  rw [s.radioOff_eq, ← ha, ← hb, ← hc, ← hd, hsafe, State.rfeGo]
  exact hg'.trans (((hlow _ _ _ (by decide)).trans (hlow _ _ _ (by decide))).trans (State.yardStands_stallSync _))

end Sys2Proof.Machine
end

section
/-! SUPPORT. The clock sources, the slow clock and the supplies (R392-R396, R411). -/

set_option Elab.async false

namespace Sys2Proof.Machine

/-- Memory and cores stand; the power state may move. -/
def Standing.bytes : Standing := ⟨true, true, false⟩

theorem State.test_eq_of_get {s t : State} {f g : Field} (h : t.get f = s.get g) : t.test f = s.test g := by
  rw [State.test, State.test, h]

theorem State.Within.modPower {but : List Nat} (s : State) (f : Power → Power) : s.Within but (s.modPower f) :=
  ⟨fun _ _ => rfl, State.memKept_of_tables rfl rfl rfl rfl, fun _ => rfl⟩

/-! ## The reference (R393) -/

/-- What a reference that is ready leaves before the radio's request is served. -/
def State.refUp (s : State) : State :=
  ((s.put CLK_STAT_REF_OK 1).put CLK_STAT_REF_FAIL 0).modPower (fun p => { p with retry := false })

theorem State.refUp_shows (s : State) : s.refUp.test CLK_STAT_REF_OK = true ∧ s.refUp.test CLK_STAT_REF_FAIL = false ∧
    s.Within [CLK_STAT] s.refUp := by
  refine ⟨?_, ?_, ?_⟩
  · show ((s.put CLK_STAT_REF_OK 1).put CLK_STAT_REF_FAIL 0).test CLK_STAT_REF_OK = true
    rw [State.test, State.get_put_beside _ _ (by decide) (by decide) (by decide), State.get_put_same s CLK_STAT_REF_OK 1 (by decide) (by decide)]
    rfl
  · exact State.test_put_same (s.put CLK_STAT_REF_OK 1) CLK_STAT_REF_FAIL 0 (by decide) (by decide) (by decide)
  · exact (State.Within.put (but := [CLK_STAT]) s (f := CLK_STAT_REF_OK) 1 (by decide)).trans
      ((State.Within.put _ (f := CLK_STAT_REF_FAIL) 0 (by decide)).trans (State.Within.modPower _ _))

/-- A request for STANDBY leaves the clock status and the power state. -/
theorem State.radioRequest_clk {s : State} (href : s.test CLK_STAT_REF_FAIL = false) {f : Field} (hf : f.reg = CLK_STAT) :
    (s.radioRequest 1).get f = s.get f := by
  by_cases h0 : s.rfe = 0
  · exact (State.standby_shows h0 href).1.get f (hcalm f hf) (.inl (by rw [hf]; decide))
  · rw [State.radioRequest]
    dsimp only
    rw [if_neg (fun h => h0 h.2.1), if_neg (fun h => absurd h.1 (by decide))]
    exact State.get_put_ne s 1 (by rw [hf]; decide)
where
  hcalm (f : Field) (hf : f.reg = CLK_STAT) : calmField f := by
    refine ⟨.inl (by rw [hf]; decide), ?_⟩
    rw [hf]
    unfold stallReg
    decide

/-- What a failing reference leaves before the radio and the yard. -/
def State.refDown (s : State) : State :=
  (((s.put CLK_STAT_REF_OK 0).put CLK_STAT_SPLL 0).put CLK_STAT_REF_FAIL 1).modPower
    (fun p => { p with refMesh := false, frac := 0, retry := false })

theorem State.refDown_shows (s : State) : s.refDown.test CLK_STAT_REF_OK = false ∧ s.refDown.test CLK_STAT_SPLL = false ∧
    s.refDown.test CLK_STAT_REF_FAIL = true ∧ s.refDown.power.refMesh = false ∧ s.Within [CLK_STAT] s.refDown := by
  have hget : ∀ f : Field, s.refDown.get f = (((s.put CLK_STAT_REF_OK 0).put CLK_STAT_SPLL 0).put CLK_STAT_REF_FAIL 1).get f := fun _ => rfl
  refine ⟨?_, ?_, ?_, rfl, ?_⟩
  · rw [State.test, hget, State.get_put_beside _ _ (by decide) (by decide) (by decide), State.get_put_beside _ _ (by decide) (by decide) (by decide),
      State.get_put_same s CLK_STAT_REF_OK 0 (by decide) (by decide)]
    rfl
  · rw [State.test, hget, State.get_put_beside _ _ (by decide) (by decide) (by decide),
      State.get_put_same (s.put CLK_STAT_REF_OK 0) CLK_STAT_SPLL 0 (by decide) (by decide)]
    rfl
  · exact State.test_put_same ((s.put CLK_STAT_REF_OK 0).put CLK_STAT_SPLL 0) CLK_STAT_REF_FAIL 1 (by decide) (by decide) (by decide)
  · exact (State.Within.put (but := [CLK_STAT]) s (f := CLK_STAT_REF_OK) 0 (by decide)).trans
      ((State.Within.put _ (f := CLK_STAT_SPLL) 0 (by decide)).trans ((State.Within.put _ (f := CLK_STAT_REF_FAIL) 1 (by decide)).trans
        (State.Within.modPower _ _)))

/-- The radio goes OFF where it is on, and the yard is disabled. -/
def State.airsOff (s : State) : State := if s.rfe = 0 then s.yardStop else s.radioOff.yardStop

theorem State.yardStop_idle {s : State} (he : s.test YRD_CTL_EN = false) (hf : s.yst ≠ yFAILED) : s.yardStop = s := by
  rw [State.yardStop, if_neg (by rw [he]; exact fun h => h.elim (fun h => absurd h (by decide)) hf)]

/-- With the yard off, going OFF moves nothing but the radio. -/
theorem State.airsOff_shows {s : State} (he : s.test YRD_CTL_EN = false) (hf : s.yst ≠ yFAILED) :
    s.Still s.airsOff ∧ s.airsOff.rfe = 0 ∧ ∀ f : Field, f.reg = CLK_STAT → s.airsOff.get f = s.get f := by
  rw [State.airsOff]
  split
  · next h0 =>
    rw [State.yardStop_idle he hf]
    exact ⟨State.Still.rfl' s, h0, fun _ _ => rfl⟩
  · have hy := s.yardStands_radioOff
    obtain ⟨hair, hrfe, -⟩ := s.radioOff_shows
    rw [State.yardStop_idle ((State.test_eq_of_get hy.en).trans he) (fun h => hf (hy.st ▸ h))]
    exact ⟨hair.still, hrfe, fun f hreg => hair.get f (State.radioRequest_clk.hcalm f hreg) (.inl (by rw [hreg]; decide))⟩

theorem State.airsOff_power (s : State) : s.airsOff.power = s.power := by
  have hQ := State.Quiet.refl ⟨false, true, true⟩ s
  rw [State.airsOff]
  split
  · exact (hQ.yardStop rfl).power rfl
  · exact (hQ.radioOff.yardStop rfl).power rfl

/-! ## Supplies (R411) -/

/-- Only the lattice's cells, its pulses and the pins' filters move. -/
structure State.PinsSettle (s t : State) : Prop where
  regs : ∀ a, (∀ k, a ≠ LAT_CCFG k) → t.rg a = s.rg a
  pins : t.pins = s.pins ∧ t.power = s.power

namespace State.PinsSettle

variable {s t u : State}

theorem rfl' (s : State) : s.PinsSettle s := ⟨fun _ _ => rfl, rfl, rfl⟩

theorem trans (h : s.PinsSettle t) (g : t.PinsSettle u) : s.PinsSettle u :=
  ⟨fun a ha => (g.regs a ha).trans (h.regs a ha), g.pins.1.trans h.pins.1, g.pins.2.trans h.pins.2⟩

theorem filt (s : State) (x : PinFilter) : s.PinsSettle ({ s with filt := x } : State) := ⟨fun _ _ => rfl, rfl, rfl⟩

theorem pulse (s : State) (p : Nat) : s.PinsSettle (s.pulse p) := by
  rw [State.pulse]
  split
  · obtain ⟨l, hl⟩ := State.fireAt_eq 17 p s
    rw [hl]
    exact ⟨fun _ _ => rfl, rfl, rfl⟩
  · exact rfl' s

theorem settleCells (s : State) : s.PinsSettle s.settleCells := by
  refine foldl_inv (State.PinsSettle _) _ _ _ (fun u n _ h => h.trans ?_) (rfl' s)
  have hput : u.PinsSettle (u.put (LAT_CCFG_Q n) (bit (u.cellLut [] n))) :=
    ⟨fun a ha => State.rg_setRg_ne u _ (ha n), rfl, rfl⟩
  split
  · dsimp only
    split
    · exact hput.trans (pulse _ _)
    · exact hput
  · exact rfl' u

theorem pinPev (s : State) (n : Nat) (was now : Bool) : s.PinsSettle (s.pinPev n was now) := by
  have hite : ∀ (c : Prop) [Decidable c], s.PinsSettle (if c then s.pulse n else s).settleCells := fun c _ => by
    split
    · exact (pulse s n).trans (settleCells _)
    · exact settleCells s
  exact hite _

theorem pinMoved (s : State) (n : Nat) (old : State) : s.PinsSettle (s.pinMoved n old) := by
  rw [State.pinMoved]
  split
  · exact rfl' s
  · have hshow : ∀ (was v : Bool), s.PinsSettle (s.pinShow n was v) := fun was v => (filt s _).trans (pinPev _ n was v)
    split
    · exact (filt s _).trans (pinPev _ _ _ _)
    · split
      · exact hshow _ _
      · exact filt s _

end State.PinsSettle

/-- A pin that nothing outside drives floats where VIO is lost. -/
theorem State.ball_floats {s : State} (hv : s.test SUP_STAT_VIO = false) {n : Nat} (hp : s.pins.getLsbD n = false) : s.ball n = none := by
  have hoff : s.padsOn = false := by rw [State.padsOn, hv]; rfl
  rw [State.ball, hoff, hp]
  rfl

end Sys2Proof.Machine
end

section
/-! SUPPORT. What the clock sources and the supplies show (R392-R396, R411). -/

set_option Elab.async false

namespace Sys2Proof.Machine

theorem State.Within.quiet {but : List Nat} {s t : State} (h : s.Within but t) : s.memKept t ∧ s.coresKept t := ⟨h.still.mem, h.still.cores⟩

/-- A register's whole field is its word. -/
theorem fieldGet_whole (w : W20) : fieldGet w 19 0 = w.toNat := by
  rw [fieldGet, Nat.shiftRight_zero]
  exact Nat.mod_eq_of_lt w.isLt

theorem roundDiv_one (a : Int) : roundDiv a 1 = a := by
  unfold roundDiv
  split <;> omega

theorem State.report_clk (s : State) (code : Nat) (f : Field) (hf : f.reg = CLK_STAT) : (State.report code 0 s).get f = s.get f :=
  State.report_get_low code 0 s (by rw [hf]; decide)

theorem State.slowSource_within (s : State) (rc : Bool) : s.Within [CLK_STAT] (s.slowSource rc) :=
  (State.Within.modPower s _).trans (State.Within.put _ _ (by decide))

theorem State.slowSource_test (s : State) (rc : Bool) : (s.slowSource rc).test CLK_STAT_SLK_RC = rc := by
  rw [State.slowSource, State.test_put_same _ _ _ (by decide) (by decide) (by cases rc <;> decide)]
  cases rc <;> rfl

theorem referenceReady_shows {s : State} (hs : s.stopped = false) (hw : s.refWanted = true) (hok : s.test CLK_STAT_REF_OK = false)
    (hr : s.test CLK_STAT_REF_FAIL = false ∨ s.power.retry = true) :
    exec .referenceReady s = .next (if s.test CLK_STAT_REF_FAIL && s.refUp.get RFE_CTL_REQ = 1 then s.refUp.radioRequest 1 else s.refUp) := by
  show execReferenceReady s = _
  rw [execReferenceReady, if_neg (by rw [hs, hw, hok]; rcases hr with h | h <;> simp [h])]
  rfl

theorem refFail_shows {s : State} (hs : s.stopped = false) (hw : s.refWanted = true)
    (hr : s.test CLK_STAT_REF_FAIL = false ∨ s.power.retry = true) : exec .refFail s = .next (State.report 20 0 s.refDown.airsOff) := by
  show execRefFail s = _
  rw [execRefFail, if_neg (by rw [hs, hw]; rcases hr with h | h <;> simp [h])]
  rfl

/-- A window of 2^CALW cycles gives the rate where the gain is whole. -/
theorem State.rate_learnt {s : State} {n : Nat} (hg : s.get MT_CAL_CALG = 0) (hn : n * 2 ^ (20 - s.calw) < 2 ^ 31) :
    exec (.rateWindowEnd n) s = s.during s.inAir (if s.power.winN ≠ some n then .next s else
      .next ((((s.setRg MT_RATEI (BitVec.ofNat 20 (n * 2 ^ (20 - s.calw) / 2 ^ 20))).setRg MT_RATEF (BitVec.ofNat 20 (n * 2 ^ (20 - s.calw)))).put
        CLK_STAT_RATE_OK 1).modPower (fun p => { p with winN := none }))) := by
  show execRateWindowEnd n s = _
  have hr : (((s.rate : Int) + roundDiv (((n * 2 ^ (20 - s.calw) : Nat) : Int) - (s.rate : Int)) (2 ^ s.get MT_CAL_CALG)).toNat) % 2 ^ 31 =
      n * 2 ^ (20 - s.calw) := by
    rw [hg, Nat.pow_zero, roundDiv_one, Nat.mod_eq_of_lt] <;> omega
  rw [execRateWindowEnd]
  dsimp only
  rw [hr]

/-- The rate that the two words of `r` show. -/
theorem State.rate_of_words {t : State} {r : Nat} (hr : r < 2 ^ 31) (hi : t.rg MT_RATEI = BitVec.ofNat 20 (r / 2 ^ 20))
    (hf : t.rg MT_RATEF = BitVec.ofNat 20 r) : t.rate = r := by
  have h1 : t.get MT_RATEI_VALUE = r / 2 ^ 20 % 2 ^ 20 := (fieldGet_whole _).trans (congrArg BitVec.toNat hi)
  have h2 : t.get MT_RATEF_VALUE = r % 2 ^ 20 := (fieldGet_whole _).trans (congrArg BitVec.toNat hf)
  rw [State.rate, h1, h2]
  omega

theorem supplyField_cases (b : Supply) : (supplyField b).reg = SUP_STAT ∧ (supplyField b).hi < 20 ∧ (supplyField b).lo = (supplyField b).hi := by
  cases b <;> exact ⟨rfl, by decide, rfl⟩

theorem State.supply_test (s : State) (b : Supply) (good : Bool) : (s.put (supplyField b) (bit good)).test (supplyField b) = good := by
  obtain ⟨-, hh, hl⟩ := supplyField_cases b
  rw [State.test_put_same _ _ _ hh hl.le (by rw [hl]; cases good <;> simp [bit])]
  cases good <;> rfl

/-- The pins' levels settle after VIO moved. -/
def State.pinsAfter (t s : State) : State := (List.range 24).foldl (fun (u : State) n => u.pinMoved n s) t

theorem State.pinsAfter_settle (t s : State) : t.PinsSettle (t.pinsAfter s) :=
  foldl_inv (State.PinsSettle _) _ _ _ (fun _ _ _ h => h.trans (State.PinsSettle.pinMoved _ _ _)) (State.PinsSettle.rfl' t)

theorem State.pinsAfter_quiet {κ : Standing} {s₀ t : State} (hQ : s₀.Quiet κ t) (s : State) : s₀.Quiet κ (t.pinsAfter s) :=
  foldl_inv (State.Quiet κ s₀) _ _ _ (fun _ _ _ h => h.pinMoved _ _) hQ

/-- Settles O48: the sources write the clock status; a failing reference goes through OFF and the yard's stop, and a supply through the pins. -/
theorem clockSourceEffects : Obligations.ClockSourceEffects := by
  unfold Obligations.ClockSourceEffects
  intro s hs
  refine ⟨fun hw hok hf => ?ready, fun hw hok hf hr => ?retried, fun hw hph hok => ?lock, fun hw hr => ?fail, fun hc hf => ?retry,
    fun hc hf => ?noRetry, fun d hc => ?cdiv, fun hsrc hrc => ?slkFail, fun v hc => ?slkCfg, fun n ha hn hg hlt => ?window, fun b good => ⟨?supply, ?vio⟩⟩
  case ready =>
    obtain ⟨h1, -, hwin⟩ := s.refUp_shows
    refine ⟨s.refUp, ?_, h1, rfl, hwin.regs, hwin.quiet⟩
    rw [referenceReady_shows hs hw hok (.inl hf), hf, Bool.false_and]
    rfl
  case retried =>
    obtain ⟨h1, h2, hwin⟩ := s.refUp_shows
    have hret : s.refUp.power.retry = false := rfl
    refine ⟨_, referenceReady_shows hs hw hok (.inr hr), ?_⟩
    generalize s.refUp = u at *
    split
    · have hQ := (State.Quiet.refl ⟨true, true, true⟩ u).radioRequest 1
      refine ⟨(State.test_eq_of_get (State.radioRequest_clk h2 rfl)).trans h1, (State.test_eq_of_get (State.radioRequest_clk h2 rfl)).trans h2,
        (congrArg Power.retry (hQ.power rfl)).trans hret, ?_⟩
      have hst := hwin.still.trans (hQ.still rfl rfl)
      exact ⟨hst.mem, hst.cores⟩
    · exact ⟨h1, h2, hret, hwin.quiet⟩
  case lock =>
    show execSystemPllLock s = _
    rw [execSystemPllLock, if_pos]
    rw [hs, hok, hw]
    simpa using hph
  case fail =>
    obtain ⟨h1, h2, h3, hmesh, hwin⟩ := s.refDown_shows
    refine ⟨_, refFail_shows hs hw hr, ?_, fun he hy => ?_⟩
    · rw [((State.Quiet.refl ⟨false, false, true⟩ _).report 0 (.inr (by decide))).power rfl, State.airsOff_power]
      exact hmesh
    · have he' : s.refDown.test YRD_CTL_EN = false := (State.test_eq_of_get (f := YRD_CTL_EN) (g := YRD_CTL_EN) (congrArg (fun w => fieldGet w 0 0) (hwin.regs YRD_CTL (by decide)))).trans he
      have hy' : s.refDown.yst ≠ yFAILED := fun h => hy ((congrArg (fun w => fieldGet w YRD_STAT_STATE.hi YRD_STAT_STATE.lo) (hwin.regs YRD_STAT (by decide))).symm.trans h)
      generalize s.refDown = u at *
      obtain ⟨hst, hrfe, hget⟩ := State.airsOff_shows he' hy'
      generalize u.airsOff = v at *
      have hrep : ∀ f : Field, f.reg = CLK_STAT → (State.report 20 0 v).test f = u.test f := fun f hf =>
        State.test_eq_of_get ((v.report_clk 20 f hf).trans (hget f hf))
      have hall := hwin.still.trans (hst.trans (State.Still.report v 20 0))
      refine ⟨(hrep _ rfl).trans h1, (hrep _ rfl).trans h2, (hrep _ rfl).trans h3, ?_, State.report_status (by decide) 0 v, hall.mem, hall.cores⟩
      exact ((State.follows_report (by decide) 0 v).get RFE_STATE_STATE ⟨.inr ⟨by decide, by decide, .inr (.inr (by decide))⟩, by unfold stallReg; decide⟩).trans hrfe
  case retry =>
    show s.during s.clocked _ = _
    rw [State.during, if_pos hc, State.refRetry, if_pos hf]
    rfl
  case noRetry =>
    show s.during s.clocked _ = _
    rw [State.during, if_pos hc, State.refRetry, if_neg (by rw [hf]; decide)]
  case cdiv =>
    refine ⟨s.put CLK_CTL_CDIV d.toNat, ?_, ?_, ?_⟩
    · show s.during s.clocked _ = _
      rw [State.during, if_pos hc]
    · rw [State.get_put_same s CLK_CTL_CDIV _ (by decide) (by decide)]
      exact Nat.mod_eq_of_lt d.isLt
    · have hwin := State.Within.put (but := [CLK_CTL]) s (f := CLK_CTL_CDIV) d.toNat (by decide)
      exact ⟨hwin.regs, hwin.quiet⟩
  case slkFail =>
    obtain ⟨u, hu⟩ : ∃ u, u = (s.slowSource true).put CLK_STAT_SLK_FAIL 1 := ⟨_, rfl⟩
    have hwin : s.Within [CLK_STAT] u := hu ▸ (s.slowSource_within true).trans (State.Within.put _ _ (by decide))
    have hrc1 : u.test CLK_STAT_SLK_RC = true := by
      rw [hu, State.test, State.get_put_beside _ _ (by decide) (by decide) (by decide)]
      exact s.slowSource_test true
    have hfail : u.test CLK_STAT_SLK_FAIL = true := by
      rw [hu]
      exact State.test_put_same _ CLK_STAT_SLK_FAIL 1 (by decide) (by decide) (by decide)
    have hpow : u.power.slowRc = true := by rw [hu]; rfl
    refine ⟨State.report 19 0 u, ?_, ?_, ?_, ?_, State.report_status (by decide) 0 u, ?_⟩
    · show execSlkFail s = _
      rw [execSlkFail, if_neg (by rw [hsrc, hrc]; decide), hu]
    · exact (State.test_eq_of_get (u.report_clk 19 _ rfl)).trans hrc1
    · rw [((State.Quiet.refl ⟨false, false, true⟩ u).report 0 (.inr (by decide))).power rfl]
      exact hpow
    · exact (State.test_eq_of_get (u.report_clk 19 _ rfl)).trans hfail
    · have hall := hwin.still.trans (State.Still.report u 19 0)
      exact ⟨hall.mem, hall.cores⟩
  case slkCfg =>
    obtain ⟨u, hu⟩ : ∃ u, u = s.put SLK_CFG_SRC (bit (v.getLsbD 0)) := ⟨_, rfl⟩
    have hwin : s.Within [SLK_CFG, CLK_STAT] (u.slowSource (v.getLsbD 0)) := hu ▸ (State.Within.put s _ (by decide)).trans
      ((State.Within.modPower _ _).trans (State.Within.put _ _ (by decide)))
    refine ⟨u.slowSource (v.getLsbD 0), ?_, ?_, State.slowSource_test u _, rfl, hwin.regs, hwin.quiet⟩
    · show s.during s.clocked _ = _
      rw [State.during, if_pos hc, hu]
      rfl
    · rw [State.slowSource, State.test_put_ne _ _ (by decide), hu]
      exact (State.test_put_same s SLK_CFG_SRC _ (by decide) (by decide) (by cases v.getLsbD 0 <;> decide)).trans (by cases v.getLsbD 0 <;> rfl)
  case window =>
    have hexec := State.rate_learnt hg hlt
    rw [State.during, if_pos ha, if_neg (fun h => h hn)] at hexec
    generalize n * 2 ^ (20 - s.calw) = r at *
    obtain ⟨a, hA⟩ : ∃ a, a = s.setRg MT_RATEI (BitVec.ofNat 20 (r / 2 ^ 20)) := ⟨_, rfl⟩
    rw [← hA] at hexec
    have hwin : s.Within [MT_RATEI, MT_RATEF, CLK_STAT] ((a.setRg MT_RATEF (BitVec.ofNat 20 r)).put CLK_STAT_RATE_OK 1) :=
      hA ▸ (State.Within.setRg s _ (by decide)).trans ((State.Within.setRg _ _ (by decide)).trans (State.Within.put _ _ (by decide)))
    refine ⟨_, hexec, State.rate_of_words hlt ?_ ?_, State.test_put_same _ CLK_STAT_RATE_OK 1 (by decide) (by decide) (by decide), rfl, hwin.regs, hwin.quiet⟩
    · show ((a.setRg MT_RATEF _).put CLK_STAT_RATE_OK 1).rg MT_RATEI = _
      rw [State.put, State.rg_setRg_ne _ _ (by decide), State.rg_setRg_ne _ _ (by decide), hA, State.rg_setRg_same]
    · show ((a.setRg MT_RATEF _).put CLK_STAT_RATE_OK 1).rg MT_RATEF = _
      rw [State.put, State.rg_setRg_ne _ _ (by decide), State.rg_setRg_same]
  case supply =>
    intro hb
    obtain ⟨hreg, -, -⟩ := supplyField_cases b
    have hwin : s.Within [SUP_STAT] (s.put (supplyField b) (bit good)) := State.Within.put s _ (hreg ▸ List.mem_singleton_self _)
    have htest := s.supply_test b good
    refine ⟨s.put (supplyField b) (bit good), ?_, ?_, hwin.regs, hwin.quiet⟩
    · show execSupplyGoodChange b good s = _
      cases b with
      | vfl => rfl
      | vbkp => rfl
      | vio => exact absurd rfl (hb.elim (fun h => nomatch h) (fun h => h.elim (fun h => nomatch h) (fun h => h.1)))
      | vddq => refine congrArg Host.Outcome.next (if_pos (hb.elim (fun h => nomatch h) (fun h => h.elim (fun h => nomatch h) (fun h => h.2))))
      | vpp => refine congrArg Host.Outcome.next (if_pos (hb.elim (fun h => nomatch h) (fun h => h.elim (fun h => nomatch h) (fun h => h.2))))
    · cases b <;> exact htest
  case vio =>
    rintro rfl
    obtain ⟨u, hu⟩ : ∃ u, u = s.put SUP_STAT_VIO (bit good) := ⟨_, rfl⟩
    have htest : u.test SUP_STAT_VIO = good := hu ▸ s.supply_test .vio good
    have hset := u.pinsAfter_settle s
    have hvio : (u.pinsAfter s).test SUP_STAT_VIO = good := (State.test_eq_of_get (f := SUP_STAT_VIO) (g := SUP_STAT_VIO) (congrArg (fun w => fieldGet w 1 1)
      (hset.regs SUP_STAT (fun k => by show 0xC0434 ≠ 0xC3100 + 16 * k; omega)))).trans htest
    have hst := (State.pinsAfter_quiet ((State.Quiet.refl ⟨true, true, true⟩ s).put SUP_STAT_VIO (bit good)) s).still rfl rfl
    rw [← hu] at hst
    refine ⟨u.pinsAfter s, ?_, hvio, fun hg n hp => State.ball_floats (hvio.trans hg) hp, hst.mem, hst.cores⟩
    show execSupplyGoodChange .vio good s = _
    rw [execSupplyGoodChange, hu]
    rfl

end Sys2Proof.Machine
end

section
/-! SUPPORT. What a report leaves of the registers above the fault block whose address is no multiple of 16, and what the chord's bays and
grants leave of the slot schedule (R224-R230, R319-R323). -/

set_option Elab.async false

namespace Sys2Proof.Machine

/-! ## Registers that a report leaves -/

/-- A register above the fault block that no entry of the log, no transmit slot and no fatal cut writes. -/
def besideReports (a : Nat) : Prop := 0xC3000 ≤ a ∧ a % 16 ≠ 0 ∧ a ≠ CHD_STATE ∧ a ≠ FU_TXBUSY

theorem State.logReport_rg_beside (s : State) (code : Nat) (d : W20) {a : Nat} (h : besideReports a) : (s.logReport code d).rg a = s.rg a := by
  obtain ⟨hlow, h16, -, -⟩ := h
  have hflags : a ≠ FLT_FLAGS := by simp only [FLT_FLAGS]; omega
  have hlost : a ≠ (lostField (faultClass code)).reg := by
    have hc : faultClass code < 3 := by unfold faultClass; split_ifs <;> decide
    simp only [lostField, FLT_LOST]
    omega
  have hfree (k : Nat) (hk : s.freeEntry (faultClass code) = some k) : k < 16 := by
    have hm := List.mem_range.mp (List.mem_of_find?_eq_some hk)
    split at hm <;> omega
  have hcommit (k : Nat) (hk : k < 16) : (s.commitEntry k (faultClass code) code d).rg a = s.rg a := by
    show (State.setRg (State.set40 (s.setRg (FLT_E_DET k) d) (FLT_E_TLO k) (FLT_E_THI k) _) (FLT_E_HDR k) _).rg a = _
    rw [State.rg_setRg_ne _ _ (by simp only [FLT_E_HDR]; omega), State.set40, State.rg_setRg_ne _ _ (by simp only [FLT_E_THI]; omega),
      State.rg_setRg_ne _ _ (by simp only [FLT_E_TLO]; omega), State.rg_setRg_ne _ _ (by simp only [FLT_E_DET]; omega)]
  unfold State.logReport
  dsimp only
  split
  · split
    · next k _ => exact State.rg_setRg_ne s _ (by show a ≠ 0xC2100 + 16 * k; omega)
    · rfl
  · split
    · split
      · next k hk =>
        split
        · rw [State.raise_rg_ne _ _ hflags, hcommit k (hfree k hk)]
        · exact hcommit k (hfree k hk)
      · rw [State.raise_rg_ne _ _ hflags]
        exact State.rg_setRg_ne s _ hlost
    · rfl

theorem State.fatalCut_rg_beside (s : State) {a : Nat} (h : besideReports a) : s.fatalCut.rg a = s.rg a := by
  obtain ⟨hlow, h16, hchd, hbusy⟩ := h
  have hsend : s.sendCut.rg a = s.rg a := by
    unfold State.sendCut
    split
    · next x _ =>
      rw [State.rg_setRg_ne _ _ hbusy]
      exact State.rg_setRg_ne s _ (by show a ≠ 0xCC100 + 16 * x.slot; omega)
    · rfl
  rw [s.fatalCut_eq]
  show s.sendCut.radioCut.bypassed.rg a = s.rg a
  rw [State.bypassed, State.rg_put_ne _ CHD_STATE_INB _ hchd, State.rg_put_ne _ CHD_STATE_INA _ hchd, State.rg_put_ne _ CHD_STATE_BYPASS _ hchd]
  exact hsend

theorem State.report_base (s : State) (code : Nat) (d : W20) : State.report code d s =
    (let t := (if code = 34 then (reportFlag code (s.noted code d)).raise FLT_FLAGS_SUBST else reportFlag code (s.noted code d))
      if faultClass code = 2 then (if code = 35 then { t.fatalCut with power := { t.power with held := true } } else t.fatalCut) else t) := by
  rw [State.report_eq]
  rfl

/-- A report leaves such a register. -/
theorem State.report_rg_beside (s : State) (code : Nat) (d : W20) {a : Nat} (h : besideReports a) : (State.report code d s).rg a = s.rg a := by
  have hflags : a ≠ FLT_FLAGS := by obtain ⟨hlow, -⟩ := h; simp only [FLT_FLAGS]; omega
  have hbit : a ≠ (faultBit code).reg := by
    obtain ⟨hlow, -⟩ := h
    rcases faultBit_reg code with e | e <;> rw [e]
    · simp only [FLT_SRC0]; omega
    · simp only [FLT_SRC1]; omega
  obtain ⟨u, hu⟩ : ∃ u, u = s.noted code d := ⟨_, rfl⟩
  have hnoted : u.rg a = s.rg a := by
    rw [hu]
    exact (State.rg_setRg_ne (s.logReport code d) _ hbit).trans (s.logReport_rg_beside code d h)
  have hsub : (if code = 34 then (reportFlag code u).raise FLT_FLAGS_SUBST else reportFlag code u).rg a = s.rg a := by
    split
    · rw [State.raise_rg_ne _ _ hflags, reportFlag_rg code u hflags, hnoted]
    · rw [reportFlag_rg code u hflags, hnoted]
  have hrep : State.report code d s = (let t := (if code = 34 then (reportFlag code u).raise FLT_FLAGS_SUBST else reportFlag code u)
      if faultClass code = 2 then (if code = 35 then { t.fatalCut with power := { t.power with held := true } } else t.fatalCut) else t) := by
    rw [hu]
    exact s.report_base code d
  rw [hrep]
  generalize (if code = 34 then (reportFlag code u).raise FLT_FLAGS_SUBST else reportFlag code u) = t at *
  dsimp only
  split
  · split
    · exact (t.fatalCut_rg_beside h).trans hsub
    · exact (t.fatalCut_rg_beside h).trans hsub
  · exact hsub

/-! ## Steps beside the slot schedule -/

/-- The registers of power and clocks, and those of the slot schedule and of the hop table, those of a log entry's address apart. -/
def besideBays (a : Nat) : Prop := a < 0xC0500 ∨ (0xCD000 ≤ a ∧ a < 0xCD100 ∧ a % 16 ≠ 0)

/-- Mesh time, the schedule, its registers, and those of power and clocks stand. -/
structure State.Slots (s t : State) : Prop where
  mesh  : t.mesh = s.mesh
  sched : t.sched = s.sched
  regs  : ∀ a, besideBays a → t.rg a = s.rg a

namespace State.Slots

variable {s t u : State}

theorem rfl' (s : State) : s.Slots s := ⟨rfl, rfl, fun _ _ => rfl⟩

theorem trans (h : s.Slots t) (g : t.Slots u) : s.Slots u := ⟨g.mesh.trans h.mesh, g.sched.trans h.sched, fun a ha => (g.regs a ha).trans (h.regs a ha)⟩

theorem setRg (s : State) {a : Nat} (v : W20) (h : ¬ besideBays a) : s.Slots (s.setRg a v) :=
  ⟨rfl, rfl, fun _ hb => State.rg_setRg_ne s v (fun e => h (e ▸ hb))⟩

theorem put (s : State) {f : Field} (n : Nat) (h : ¬ besideBays f.reg) : s.Slots (s.put f n) := setRg s _ h

theorem raise (s : State) {f : Field} (h : ¬ besideBays f.reg) : s.Slots (s.raise f) :=
  ⟨s.raise_mesh f, s.raise_sched f, fun _ hb => State.raise_rg_ne f s (fun e => h (e ▸ hb))⟩

theorem report (s : State) (code : Nat) (d : W20) : s.Slots (State.report code d s) :=
  ⟨s.report_mesh code d, s.report_sched code d, fun _ h => h.elim (fun h => s.report_rg_low code d (Nat.lt_trans h (by decide)))
    (fun ⟨h1, h2, h3⟩ => s.report_rg_beside code d ⟨by omega, h3, by simp only [CHD_STATE]; omega, by simp only [FU_TXBUSY]; omega⟩)⟩

theorem modChord (s : State) (f : Chord → Chord) : s.Slots (s.modChord f) := ⟨rfl, rfl, fun _ _ => rfl⟩

theorem ite {p : Prop} [Decidable p] (ht : s.Slots t) (hu : s.Slots u) : s.Slots (if p then t else u) := by
  split <;> assumption

theorem get (h : s.Slots t) {f : Field} (hf : besideBays f.reg) : t.get f = s.get f := congrArg (fun w => fieldGet w f.hi f.lo) (h.regs _ hf)

end State.Slots

theorem not_besideBays_high {a : Nat} (h : 0xCD100 ≤ a) : ¬ besideBays a := fun hb => by
  unfold besideBays at hb
  omega
theorem not_besideBays_low {a : Nat} (h1 : 0xC0500 ≤ a) (h2 : a < 0xCD000) : ¬ besideBays a := fun hb => by
  unfold besideBays at hb
  omega

theorem State.slots_high (s : State) {f : Field} (n : Nat) (h : 0xCD100 ≤ f.reg) : s.Slots (s.put f n) := State.Slots.put s n (not_besideBays_high h)
theorem State.slots_flag (s : State) {f : Field} (h : 0xCD100 ≤ f.reg) : s.Slots (s.raise f) := State.Slots.raise s (not_besideBays_high h)

theorem State.slots_granted (s : State) (k n : Nat) : s.Slots (s.put (CTX_CTL_GRANTED k) n) :=
  s.slots_high n (by show 0xCD100 ≤ 0xCE300 + 16 * k; omega)

/-! ## Tokens, the bay table and the bays -/

theorem State.slots_tokenCheck (s : State) : s.Slots s.tokenCheck := by
  have hput : s.Slots ((s.put CONS_BAY_HELD_SUM (s.chord.tokA + s.chord.tokB)).put CONS_BAY_FREE
      ((s.bayTotal 0 - s.chord.tokA) + (s.bayTotal 1 - s.chord.tokB))) :=
    (State.Slots.put s _ (not_besideBays_low (by decide) (by decide))).trans (State.Slots.put _ _ (not_besideBays_low (by decide) (by decide)))
  exact State.Slots.ite hput (hput.trans (State.Slots.report _ _ _))

theorem State.slots_tokenTake (s : State) (dir : Nat) : s.Slots (s.tokenTake dir) := (State.Slots.modChord s _).trans (State.slots_tokenCheck _)
theorem State.slots_tokenGive (s : State) (dir : Nat) : s.Slots (s.tokenGive dir) := (State.Slots.modChord s _).trans (State.slots_tokenCheck _)

theorem State.slots_chordTable (s : State) : s.Slots s.chordTable :=
  State.Slots.ite ((State.Slots.modChord s _).trans (State.slots_tokenCheck _)) (s.slots_flag (by decide))

theorem State.slots_loopPass (s : State) (b : BayRun) : s.Slots (s.loopPass b) :=
  State.Slots.ite ((State.Slots.modChord s _).trans ((State.slots_high _ 0 (by decide)).trans (State.slots_flag _ (by decide)))) (State.Slots.modChord s _)

theorem State.slots_loopFail (s : State) : s.Slots s.loopFail := by
  have hbump : s.Slots ((s.bump (CHD_CNT_LO 1)).modChord (fun c => { c with fails := s.chord.fails + 1 })) :=
    (s.slots_high (f := CHD_CNT_LO 1) _ (by decide)).trans (State.Slots.modChord _ _)
  exact State.Slots.ite (hbump.trans ((State.slots_high _ 1 (by decide)).trans (State.slots_flag _ (by decide)))) hbump

theorem State.slots_txForget (s : State) : s.Slots s.txForget := ⟨rfl, rfl, fun _ _ => rfl⟩

theorem State.slots_bayClose (s : State) (b : BayRun) : s.Slots (s.bayClose b) := by
  have hforget : ∀ u : State, u.Slots (if b.drive.isSome then u.txForget else u) := fun u => State.Slots.ite u.slots_txForget (State.Slots.rfl' u)
  have hgrant : ∀ u : State, u.Slots (match s.grantOf b.entry with | some k => u.put (CTX_CTL_GRANTED k) 0 | none => u) := fun u => by
    split
    · exact u.slots_granted _ 0
    · exact State.Slots.rfl' u
  have htoken : ∀ u : State, u.Slots (if b.tokens = 0 then u else u.tokenGive b.tokens) := fun u =>
    State.Slots.ite (State.Slots.rfl' u) (u.slots_tokenGive _)
  have hcheck : ∀ u : State, u.Slots (if b.check then (if b.passed then u.loopPass b else u.loopFail) else u) := fun u =>
    State.Slots.ite (State.Slots.ite (u.slots_loopPass b) u.slots_loopFail) (State.Slots.rfl' u)
  have hmiss : ∀ u : State, u.Slots (((u.bump (CHD_CNT_HI 1)).put CHD_STATE_TVALID 0).raise CHD_FLAGS_TIME_MISS) := fun u =>
    ((u.slots_high (f := CHD_CNT_HI 1) _ (by decide)).trans (State.slots_high _ 0 (by decide))).trans (State.slots_flag _ (by decide))
  have hall := (((((s.slots_high (f := CHD_STATE_BAY) 63 (by decide)).trans (State.Slots.modChord _ (fun c => { c with
    bay := none, relay := none, ended := b.entry :: c.ended, txGot := if b.drive.isSome then [] else c.txGot }))).trans (hforget _)).trans
      (hgrant _)).trans (htoken _)).trans (hcheck _)
  exact State.Slots.ite (hall.trans (hmiss _)) hall

theorem State.slots_chordEnd (s : State) : s.Slots s.chordEnd := by
  have hclose : s.Slots (match s.chord.bay with | some b => s.bayClose b | none => s) := by
    split
    · exact s.slots_bayClose _
    · exact State.Slots.rfl' s
  have hgive : ∀ (u : State) (g : Nat × Nat), u.Slots (if u.chord.ended.contains g.1 then u else
      (u.put (CTX_CTL_GRANTED g.2) 0).tokenGive (u.bay g.1).dir) := fun u g =>
    State.Slots.ite (State.Slots.rfl' u) ((u.slots_granted g.2 0).trans (State.slots_tokenGive _ _))
  unfold State.chordEnd
  exact (foldl_inv (State.Slots s) _ _ _ (fun u g _ h => h.trans (hgive u g)) hclose).trans (State.Slots.modChord _ _)

theorem State.slots_slotLeave (s : State) : s.Slots s.slotLeave := by
  unfold State.slotLeave
  exact s.slots_chordEnd.trans (State.Slots.modChord _ _)

theorem State.slots_chordGrant (s : State) : s.Slots s.chordGrant := by
  have hput := s.slots_high (f := CHD_STATE_BAY) 63 (by decide)
  have htake : ∀ (u : State) (e : Nat), u.Slots (match u.ctxPick (u.bay e).dir with
      | none => u
      | some k => ((u.put (CTX_CTL_GRANTED k) 1).modChord (fun c => { c with grants := c.grants ++ [(e, k)] })).tokenTake (u.bay e).dir) := fun u e => by
    split
    · exact State.Slots.rfl' u
    · exact ((u.slots_granted _ 1).trans (State.Slots.modChord _ _)).trans (State.slots_tokenTake _ _)
  unfold State.chordGrant
  exact State.Slots.ite hput (foldl_inv (State.Slots s) _ _ _ (fun u e _ h => h.trans (htake u e)) hput)

theorem State.slots_relayLoad (s : State) : s.Slots s.relayLoad := by
  have hslot : ∀ (u : State) (k : Nat), k < 16 → ∀ (b : Nat), b ≤ 8 → ∀ v, u.Slots (u.setRg (0xCC100 + b + 16 * k) v) := fun u k hk b hb v =>
    State.Slots.setRg u v (not_besideBays_low (by omega) (by omega))
  have hmod : ∀ (u : State) (b : Nat) (f : Relay → Relay), u.Slots (u.modRelay b f) := fun _ _ _ => ⟨rfl, rfl, fun _ _ => rfl⟩
  have hk : s.get RLY_CFG_SLOT < 16 := Nat.mod_lt _ (by decide)
  unfold State.relayLoad
  split
  · exact State.Slots.rfl' s
  · exact State.Slots.rfl' s
  · next r _ _ =>
    generalize s.get RLY_CFG_SLOT = k at *
    dsimp only
    refine State.Slots.ite (s.slots_flag (by decide)) ?_
    have hload := ((hslot s k hk 4 (by decide) (BitVec.ofNat 20 (s.get RLY_POOL_BASE + s.get RLY_PCFG_SIZE * 64 * r.buf))).trans
      (hslot _ k hk 8 (by decide) (BitVec.ofNat 20 r.len))).trans (hslot _ k hk 0 (by decide)
        (BitVec.ofNat 20 (r.rate * 2 ^ 15 + r.bs * 2 ^ 14 + 2 ^ 11 + s.hopChannel s.sched.asn (s.get RLY_CELL_OFS) * 2 ^ 5)))
    exact State.Slots.ite (hload.trans ((hslot _ k hk 0 (by decide) _).trans (hmod _ _ _)))
      (hload.trans ((State.Slots.raise _ (not_besideBays_low (by decide) (by decide))).trans (hmod _ _ _)))

end Sys2Proof.Machine
end

section
/-! SUPPORT. The keeper's start (R451): B0 released while CC_START of core 0 does not hold its reset value. -/

set_option Elab.async false

namespace Sys2Proof.Machine

/-- A warm start that is due, past its early rows, with CC_START0 at 0x100. -/
def movedStart : State :=
  let s := { State.reset with keeper := { State.reset.keeper with valid := true, kind := .warm, early := true, started := false } }
  s.setRg (CC_START 0) 0x100

theorem movedStart_due : movedStart.stopped = false ∧ movedStart.startDue false = true ∧ movedStart.keeper.started = false ∧
    movedStart.keeper.valid = true ∧ movedStart.keeper.count + 1 < 2 ^ 24 ∧ movedStart.keeper.kind = .warm := by decide +kernel

/-- The core reset of the release sets the mark of R113, so B0 goes on at START. -/
theorem movedStart_released : ((movedStart.keeperEarly.bootAdvance.startEnd false).core 0).pc = 0x100 := by decide +kernel

/-- Refutes O51: B0 is released as after a core reset, so that RUN takes its pc from CC_START0, which a program may have written,
and not 0xC000. -/
theorem not_keeperStartEffects : ¬ Obligations.KeeperStartEffects := by
  unfold Obligations.KeeperStartEffects
  intro h
  obtain ⟨hstop, hdue, hst, hv, hc, hkind⟩ := movedStart_due
  obtain ⟨-, hshort, -⟩ := h movedStart hstop
  obtain ⟨t, hstep, -, -, -, hpc, -⟩ := (hshort false).1 ⟨hst, hv, hc⟩ (by rw [hkind]; decide)
  have hexec : exec (.keeperShortSequence false) movedStart = .next (movedStart.keeperEarly.bootAdvance.startEnd false) := by
    show execKeeperShortSequence false movedStart = _
    rw [execKeeperShortSequence, State.live, hstop, if_neg (by decide), hdue, if_neg (by decide)]
    dsimp only
    rw [hkind, if_neg (by decide)]
  rw [hexec] at hstep
  injection hstep with ht
  have hat := movedStart_released
  rw [ht, hpc] at hat
  exact absurd hat (by decide)

end Sys2Proof.Machine
end

section
/-! SUPPORT. The keeper's orders (R454): an operand whose read puts a corrected error right and spends a spare row. -/

set_option Elab.async false

namespace Sys2Proof.Machine

/-- First light is past, one corrected error spends a row's spare, and the operand's first group holds such an error. -/
def wornOperand : State :=
  ({ State.reset with otp := { State.reset.otp with lit := true }, memChk := [(0, .correctable)] }.put FLT_CFG_CETHR 1).put KMB_ADDR_VALUE 0

theorem wornOperand_idle : wornOperand.clocked = true ∧ wornOperand.otp.lit = true ∧ wornOperand.keeper.order = none ∧
    wornOperand.lattice.acts.contains (0xF0, wornOperand.lattice.cyc) = false ∧ wornOperand.otp.isSealed = false := by decide +kernel

/-- The state in which the order is judged. -/
def judgedOrder : State :=
  let t := wornOperand.setRg KMB_ORDER 0x21
  { t with lattice := { t.lattice with writes := t.lattice.writes ++ [(0xF0, t.lattice.cyc)] } }

theorem orderWrite_halter (s : State) :
    s.orderWrite .keeper 0x80021 = (s.setRg KMB_ORDER 0x21).writeAction 0xF0 (fun u => u.keeperOrder .keeper 0x21) := rfl

theorem writeAction_alone (s : State) (k : Nat) (act : State → State) (h : s.lattice.acts.contains (k, s.lattice.cyc) = false) :
    s.writeAction k act = act { s with lattice := { s.lattice with writes := s.lattice.writes ++ [(k, s.lattice.cyc)] } } := by
  rw [State.writeAction, h, if_neg Bool.false_ne_true]

theorem orderWrite_judges : wornOperand.orderWrite .keeper 0x80021 = judgedOrder.keeperOrder .keeper 0x21 := by
  obtain ⟨-, -, -, hacts, -⟩ := wornOperand_idle
  exact (orderWrite_halter _).trans (writeAction_alone _ _ _ hacts)

theorem judgedOrder_reads : (groupsOf 0 12).filter (judgedOrder.ramBad .sram) = [] ∧
    (groupsOf 0 12).filter (fun g => judgedOrder.chk (Ram.sram.group g) == .correctable) = [0] ∧
    judgedOrder.get KMB_ADDR_VALUE = 0 ∧ judgedOrder.otp.halter.isSome = false ∧ judgedOrder.otp.lit = true ∧
    judgedOrder.keeper.order.isSome = false ∧ judgedOrder.orderAllowed .keeper 0x21 = true := by decide +kernel

/-- The operand's error corrected and reported, before it counts against its row. -/
def correctedOrder : State := (judgedOrder.setChk (Ram.sram.group 0) .good).report Ram.sram.ce (Ram.sram.detail 0)

/-- A row whose first counted error reaches the threshold leaves the tracker and tries a spare (R466). -/
theorem trackRow_spares (s : State) (row : Nat) (hnew : s.faults.doneRow.contains (2, row) = false)
    (hfull : s.ceThreshold ≤ (trackBump s.faults.trkSram row).2) :
    s.trackRow 2 row = { s with faults := { s.faults with
      trkSram := (trackBump s.faults.trkSram row).1.filter (fun e => e.row != row),
      doneRow := (2, row) :: s.faults.doneRow } }.spareOpen 2 row := by
  rw [State.trackRow, hnew, if_neg Bool.false_ne_true, if_pos rfl]
  dsimp only
  rw [if_pos rfl, if_pos hfull, if_pos hfull]

/-- The state in which the row's spare is tried. -/
def sparedOrder : State :=
  { correctedOrder with faults := { correctedOrder.faults with
      trkSram := (trackBump correctedOrder.faults.trkSram 0).1.filter (fun e => e.row != 0),
      doneRow := (2, 0) :: correctedOrder.faults.doneRow } }

theorem sparedOrder_due : correctedOrder.faults.doneRow.contains (2, 0) = false ∧
    correctedOrder.ceThreshold ≤ (trackBump correctedOrder.faults.trkSram 0).2 := by decide +kernel

theorem ramErrors_one (s : State) (r : Ram) (g : Nat) :
    s.ramErrors r [g] [] = ((s.setChk (r.group g) .good).report r.ce (r.detail g)).ramTrack r g := rfl

theorem judgedOrder_ramErrors : judgedOrder.ramErrors .sram [0] [] = sparedOrder.spareOpen 2 0 :=
  (ramErrors_one judgedOrder .sram 0).trans (trackRow_spares correctedOrder 0 sparedOrder_due.1 sparedOrder_due.2)

/-- A row tried for a spare is spent, whether its programming fails or not. -/
theorem spareTry_rows (s : State) (kind idx : Nat) (ok : Bool) (h : s.otp.rows < 64) :
    (s.spareTry kind idx ok).otp.rows = s.otp.rows + 1 := by
  rw [State.spareTry]
  split
  · rw [State.commitSpare, if_neg (Nat.not_le.mpr h)]
    exact congrArg Otp.rows (State.report_otp _ _ _)
  · rfl

/-- Whether the spare's row can be programmed is open; either way a row of OTP is spent. -/
theorem sparedOrder_spends : (sparedOrder.spareOpen 2 0).otp.rows = wornOperand.otp.rows + 1 := by
  have hrows : sparedOrder.otp = wornOperand.otp := State.report_otp _ _ _
  have hlow : wornOperand.otp.rows < 64 := by decide +kernel
  rw [State.spareOpen]
  exact (spareTry_rows _ 2 0 _ (by exact hrows ▸ hlow)).trans (congrArg (fun o => Otp.rows o + 1) hrows)

/-- HALTER_SET leaves the state as the read of its operand does. -/
theorem halterOrder_reads {s u : State} (hnone : s.otp.halter.isSome = false) (haddr : s.get KMB_ADDR_VALUE = 0)
    (hbad : (groupsOf 0 12).filter (s.ramBad .sram) = [])
    (hce : (groupsOf 0 12).filter (fun g => s.chk (Ram.sram.group g) == .correctable) = [0])
    (hu : s.ramErrors .sram [0] [] = u) : s.halterOrder.2 = u := by
  have hread : s.operand 0 12 = (some (u.bytes .sram 0 12), u) := by
    rw [State.operand, if_pos (by decide), State.ramRead, hbad, hce, hu]
    rfl
  rw [State.halterOrder, hnone, if_neg Bool.false_ne_true, haddr, hread]
  dsimp only
  split <;> rfl

theorem halterOrder_code (s : State) : s.halterOrder.1.code = 0x21 := by
  rw [State.halterOrder]
  generalize s.operand (s.get KMB_ADDR_VALUE) 12 = r
  obtain ⟨l, t⟩ := r
  cases l with
  | none => cases s.otp.halter.isSome <;> rfl
  | some l =>
    dsimp only
    generalize loInRange _ _ = b
    cases b <;> cases s.otp.halter.isSome <;> rfl

/-- HALTER_SET needs no engine, so OTP is as the order's judgement leaves it. -/
theorem keeperOrder_halter_otp {s : State} (hnone : s.keeper.order.isSome = false) (hlit : s.otp.lit = true)
    (hallow : s.orderAllowed .keeper 0x21 = true) : (s.keeperOrder .keeper 0x21).otp = s.halterOrder.2.otp := by
  have hstart : s.orderStart .keeper 0x21 = s.halterOrder := by
    rw [State.orderStart, hallow]
    rfl
  have hengine : s.halterOrder.1.engine = false := by
    rw [KOrder.engine, halterOrder_code]
    exact Bool.and_false _
  rw [State.keeperOrder, hnone, if_neg Bool.false_ne_true, hlit, if_neg (by decide), hstart]
  dsimp only
  rw [hengine, if_neg Bool.false_ne_true]
  rfl

theorem orderedHalter_otp : (wornOperand.orderWrite .keeper 0x80021).otp.rows = wornOperand.otp.rows + 1 := by
  obtain ⟨hbad, hce, haddr, hhalter, hlit, hnone, hallow⟩ := judgedOrder_reads
  rw [orderWrite_judges, keeperOrder_halter_otp hnone hlit hallow,
    halterOrder_reads hhalter haddr hbad hce judgedOrder_ramErrors]
  exact sparedOrder_spends

/-- Refutes O52: the read of HALTER_SET's operand counts a corrected error against its SRAM row (R466), and the spare record that
follows is programmed into OTP. -/
theorem not_keeperOrderEffects : ¬ Obligations.KeeperOrderEffects := by
  unfold Obligations.KeeperOrderEffects
  intro h
  obtain ⟨hclk, hlit, hnone, hacts, hseal⟩ := wornOperand_idle
  obtain ⟨horders, -⟩ := h wornOperand hclk hlit
  obtain ⟨-, -, hstart⟩ := horders .keeper hacts
  obtain ⟨-, htrust, -⟩ := hstart hnone
  obtain ⟨-, -, -, -, -, -, hhalter, -⟩ := htrust rfl (.inl (by decide))
  obtain ⟨t, hstep, ⟨-, -, hotp, -⟩, -⟩ := hhalter
  have hexec : exec (.koHalterSet .keeper) wornOperand = .next (wornOperand.orderWrite .keeper 0x80021) := by
    show execKoHalterSet .keeper wornOperand = _
    rw [execKoHalterSet, State.during, if_pos hclk, State.reachWith, if_pos (by decide +kernel)]
  rw [hexec] at hstep
  injection hstep with ht
  have hspent := orderedHalter_otp
  rw [ht, hotp] at hspent
  exact absurd hspent.symm (Nat.succ_ne_self _)

end Sys2Proof.Machine
end

section
/-! SUPPORT. The fold (R262-R265): an entry written back whole, its sixteenth byte with it. -/

set_option Elab.async false

namespace Sys2Proof.Machine

/-- The fold is in use, a relay of the entry at 0 has failed its last try, and the byte at 15 is 1. -/
def failedRelay : State :=
  let s := { State.reset with link := { State.reset.link with relays := [⟨0, .failed, 0, 0, 15, 0, 0, 0⟩] } }
  (s.put FOLD_CFG_EN 1).setByte .sram 15 1

theorem failedRelay_due : failedRelay.inRun = true ∧ failedRelay.test LNK_FLAGS_FOLD_ERR = false ∧
    max 1 (failedRelay.get RLY_CFG_TRIES) ≤ 15 + 1 ∧ failedRelay.byte .sram 15 = 1 ∧
    failedRelay.test (FU_TX_CTL_SENDING (failedRelay.get RLY_CFG_SLOT)) = false := by decide +kernel

/-- A relay out of tries: its slot is emptied and its entry free again (R271). -/
def State.relayDropped (s : State) (r : Relay) : State :=
  let t := (s.put (FU_TX_CTL_READY (s.get RLY_CFG_SLOT)) 0).modLink (fun l => { l with relays := l.relays.filter (· != r) })
  ((t.foldMod r.entry (fun e => { e with state := 0 })).linkLo 5).raise LNK_FLAGS_RELAY_DROP

theorem relayTry_drops {s : State} {r : Relay} (hrun : s.inRun = true) (hr : s.link.relays = [r]) (hst : r.st = .failed)
    (hsend : s.test (FU_TX_CTL_SENDING (s.get RLY_CFG_SLOT)) = false) (htries : max 1 (s.get RLY_CFG_TRIES) ≤ r.tries + 1) :
    execRelayTry s = .next (s.relayDropped r) := by
  have hfind : s.link.relays.find? s.relayFailed = some r := by
    rw [hr, List.find?_cons_of_pos (by rw [State.relayFailed, hst]; rfl)]
  rw [execRelayTry, State.during, if_pos hrun, hfind]
  dsimp only
  rw [hsend, if_neg Bool.false_ne_true, if_pos htries]
  rfl

/-- The relay of `failedRelay`. -/
def lastRelay : Relay := ⟨0, .failed, 0, 0, 15, 0, 0, 0⟩

theorem failedRelay_dropped : (failedRelay.relayDropped lastRelay).byte .sram 15 = 0 := by decide +kernel

/-- Refutes O40: an entry of the fold is written back with its reserved byte 0, so that the byte at entry + 15 changes. -/
theorem not_linkAssistEffects : ¬ Obligations.LinkAssistEffects := by
  unfold Obligations.LinkAssistEffects
  intro h
  obtain ⟨hrun, herr, htries, hbyte, hsend⟩ := failedRelay_due
  obtain ⟨-, -, -, -, -, htry, -⟩ := h failedRelay hrun
  obtain ⟨t, hstep, -, -, hkept, -⟩ := (htry lastRelay rfl rfl herr).1 htries
  have hexec : exec .relayTry failedRelay = .next (failedRelay.relayDropped lastRelay) :=
    relayTry_drops hrun rfl rfl hsend htries
  rw [hexec] at hstep
  injection hstep with ht
  have hat := failedRelay_dropped
  rw [ht, hkept 15 (.inr (Nat.le_refl _)), hbyte] at hat
  exact absurd hat (by decide)

end Sys2Proof.Machine
end

section
/-! SUPPORT. The chord's ports (R314): a request that waits for both ports' holders, withdrawn with the one port that is dropped. -/

set_option Elab.async false

namespace Sys2Proof.Machine

/-- One request waits for the holders of both ports, and no port is in line. -/
def pairedPorts : State :=
  { State.reset with manger := { State.reset.manger with waits := [⟨12, 0, 0, false, .holders [12, 13]⟩] } }

theorem pairedPorts_out : pairedPorts.notDormant = true ∧ pairedPorts.clocked = true ∧ pairedPorts.anyIn = false := by decide +kernel

theorem chdCtl_withdraws : (pairedPorts.chdCtl 1).holds 12 = false ∧ (pairedPorts.chdCtl 1).asked 12 = false := by decide +kernel

/-- Refutes O44: port A is enabled while a request already waits for its holder with port B's, so it asks for nothing more; the
drop of port B then withdraws that request, and port A's holder is neither held nor asked for. -/
theorem not_chordEffects : ¬ Obligations.ChordEffects := by
  unfold Obligations.ChordEffects
  intro h
  obtain ⟨hawake, hclk, hin⟩ := pairedPorts_out
  obtain ⟨hctl, -⟩ := h pairedPorts hawake
  obtain ⟨t, hstep, -, -, hports⟩ := (hctl 1 hclk).1 hin
  have hexec : exec (.chdCtlWrite 1) pairedPorts = .next (pairedPorts.chdCtl 1) := by
    show execChdCtlWrite 1 pairedPorts = _
    rw [execChdCtlWrite, State.during, if_pos hclk]
  rw [hexec] at hstep
  injection hstep with ht
  have hasks := (hports 0).1 (by decide)
  rw [← ht] at hasks
  obtain ⟨hholds, hasked⟩ := chdCtl_withdraws
  exact hasks.elim (fun hat => Bool.false_ne_true (hholds.symm.trans hat)) (fun hat => Bool.false_ne_true (hasked.symm.trans hat))

end Sys2Proof.Machine
end

section
/-! SUPPORT. The step of the front command, and the tick that passes with none waiting (notes/assumptions/19.md). -/

set_option Elab.async false

namespace Sys2Proof.Machine

/-! ## Memory stands in the tick's parts that no waiting step or sample reaches -/

/-- The memory and nothing else is asked to stand. -/
def Standing.memory : Standing := ⟨true, false, false⟩

/-- The returns of a tick leave the slot schedule. -/
theorem State.coreReturns_sched (s : State) : s.coreReturns.sched = s.sched := by
  unfold State.coreReturns
  refine foldl_inv (fun t => t.sched = s.sched) _ _ _ (fun t c _ ht => ?_) rfl
  split
  · split
    · exact (congrArg State.sched (mangerOnly_drop _ _)).trans ht
    · exact ht
  · exact ht

/-- What is staged taken into the schedule. -/
def State.activeTables (s : State) : State :=
  s.modSched (fun c => { c with
    slotLen := s.get SCH_SLOTLEN_LEN, hop := (List.range 64).foldl (fun h i => tabSet hopDflt h i (s.hopStaged i)) [], hopL := s.get SCH_HOPLEN_L })

theorem State.tables_sched (s : State) : s.tables.sched = s.activeTables.sched := (State.slots_chordTable s.activeTables).sched

theorem State.schAt_waiting (s : State) (asn start : W40) :
    (s.schAt asn start).sched.steps = s.sched.steps ∧ (s.schAt asn start).sched.samples = s.sched.samples := by
  obtain ⟨u, hu⟩ : ∃ u, u = s.slotLeave.modSched (fun c => { c with asn := asn, start := start }) := ⟨_, rfl⟩
  have hsteps : u.sched.steps = s.sched.steps := by
    have h := congrArg Sched.steps s.slots_slotLeave.sched
    rw [hu]
    exact h
  have hsamples : u.sched.samples = s.sched.samples := by
    have h := congrArg Sched.samples s.slots_slotLeave.sched
    rw [hu]
    exact h
  have htab := u.tables_sched
  unfold State.schAt
  rw [← hu]
  exact ⟨(congrArg Sched.steps htab).trans hsteps, (congrArg Sched.samples htab).trans hsamples⟩

theorem State.acqLoad_samples (s : State) : s.acqLoad.sched.samples = s.sched.samples := by
  unfold State.acqLoad
  split
  · exact (State.schAt_waiting _ _ _).2
  · rfl

theorem State.sampleRun_none (s : State) (h : s.sched.samples = []) : s.sampleRun = s := by
  rw [State.sampleRun, h]
  rfl

/-- The schedule's tick reaches no memory where no step and no sample waits. -/
theorem State.schedTick_memory {s₀ s : State} (hQ : s₀.Quiet .memory s) (hsteps : s.sched.steps = []) (hsamples : s.sched.samples = []) :
    s₀.Quiet .memory s.schedTick := by
  obtain ⟨u, hu, hQu, hst, hsm⟩ : ∃ u, u = (if s.sched.load then (s.modSched (fun c => { c with load := false })).schLoad else s) ∧
      s₀.Quiet .memory u ∧ u.sched.steps = [] ∧ u.sched.samples = [] := by
    refine ⟨_, rfl, ?_⟩
    split
    · obtain ⟨hst, hsm⟩ := State.schAt_waiting (s.modSched (fun c => { c with load := false })) _ _
      exact ⟨State.Quiet.schLoad hQ.mk', hst.trans hsteps, hsm.trans hsamples⟩
    · exact ⟨hQ, hsteps, hsamples⟩
  unfold State.schedTick
  rw [← hu]
  dsimp only
  rw [hst, List.foldl_nil]
  obtain ⟨v, hv⟩ : ∃ v, v = u.modSched (fun c => { c with steps := [] }) := ⟨_, rfl⟩
  have hnone : v.sched.samples = [] := by rw [hv]; exact hsm
  have hQv : s₀.Quiet .memory v := by rw [hv]; exact hQu.mk'
  rw [← hv, State.sampleRun_none v.acqLoad (v.acqLoad_samples.trans hnone)]
  exact hQv.acqLoad

/-- A tick with no step of mesh time and no sample waiting leaves the memory. -/
theorem State.idleTick_memory (s : State) (hsteps : s.sched.steps = []) (hsamples : s.sched.samples = []) :
    s.ticked.Quiet .memory s.idleTick := by
  obtain ⟨a, ha, hQa, hsa⟩ : ∃ a, a = (if s.ticked.stopped then s.ticked else s.ticked.coreReturns) ∧ s.ticked.Quiet .memory a ∧
      a.sched = s.sched := by
    refine ⟨_, rfl, ?_⟩
    split
    · exact ⟨.refl _ _, rfl⟩
    · exact ⟨(State.Quiet.refl _ _).coreReturns rfl, s.ticked.coreReturns_sched⟩
  obtain ⟨b, hb, hQb, hsb⟩ : ∃ b, b = (if a.power.refMesh && !(a.power.held || a.power.vbatLow) then a.meshMove 1 else a) ∧
      s.ticked.Quiet .memory b ∧ b.sched = s.sched := by
    refine ⟨_, rfl, ?_⟩
    split
    · exact ⟨hQa.meshMove 1, hsa⟩
    · exact ⟨hQa, hsa⟩
  obtain ⟨c, hc, hQc⟩ : ∃ c, c = (if b.stopped then b else b.schedTick) ∧ s.ticked.Quiet .memory c := by
    refine ⟨_, rfl, ?_⟩
    split
    · exact hQb
    · exact State.schedTick_memory hQb ((congrArg Sched.steps hsb).trans hsteps) ((congrArg Sched.samples hsb).trans hsamples)
  obtain ⟨d, hd, hQd⟩ : ∃ d, d = (if c.busRuns then (if c.stopped then c else c.fastTick) else c.slaveResets (fun _ => true)) ∧
      s.ticked.Quiet .memory d := by
    refine ⟨_, rfl, ?_⟩
    exact .ite (.ite hQc hQc.fastTick) (hQc.slaveResets _)
  have hend : s.idleTick = d.slowTick := by
    rw [hd, hc, hb, ha]
    rfl
  rw [hend]
  exact hQd.slowTick rfl

/-- Settles O55: the first two parts are how `step` reads, and the tick goes through the parts of the tick one by one. -/
theorem stepRunsFrontCommand : Obligations.StepRunsFrontCommand := by
  unfold Obligations.StepRunsFrontCommand
  refine ⟨fun c s => rfl, fun c rest s h => by rw [step, h], fun s h => ?_⟩
  obtain ⟨htick, hpend⟩ := (State.Quiet.idleTick (κ := Standing.none) s rfl rfl rfl).clock
  refine ⟨s.idleTick, by rw [step, h], htick, hpend.trans h, fun hsteps hsamples => ?_⟩
  exact (s.idleTick_memory hsteps hsamples).memKept rfl

end Sys2Proof.Machine
end

section
/-! SUPPORT. The slot schedule (R224-R230) and the steps of mesh time (R10, R245). -/

set_option Elab.async false

namespace Sys2Proof.Machine

/-! ## Boundaries and loads -/

theorem State.activate_slots (s : State) : s.activate.mesh = s.mesh ∧ s.activate.sched = s.activeTables.sched ∧
    ∀ a, besideBays a → s.activate.rg a = s.rg a := by
  obtain ⟨u, hu⟩ : ∃ u, u = ({ s with link := { s.link with
    primNow := if s.test ACK_PRIM_NONE then none else some (s.get ACK_PRIM_POS) } } : State) := ⟨_, rfl⟩
  have hact : s.activate = u.activeTables.chordTable := by
    rw [hu]
    rfl
  have h := State.slots_chordTable u.activeTables
  rw [hact]
  refine ⟨h.mesh.trans (by rw [hu]; rfl), h.sched.trans (by rw [hu]; rfl), fun a ha => (h.regs a ha).trans (by rw [hu]; rfl)⟩

theorem State.slotBegin_slots (s : State) : s.slotBegin.mesh = s.mesh ∧ s.slotBegin.sched = s.sched ∧ s.slotBegin.test SCH_FLAGS_SLOT = true := by
  have h := (State.slots_chordGrant (s.raise SCH_FLAGS_SLOT)).trans (State.slots_relayLoad _)
  refine ⟨h.mesh.trans (s.raise_mesh _), h.sched.trans (s.raise_sched _), ?_⟩
  rw [← State.raise_self SCH_FLAGS_SLOT s (by decide) (by decide)]
  exact State.test_eq_of_get (h.get (.inr ⟨by decide, by decide, by decide⟩))

/-- Within half the range of mesh time, START moves by whole slots to the present one (R226). -/
theorem State.normalise_forward (s : State) (h : (s.mesh - s.sched.start).toNat < 2 ^ 39) :
    let len := max 1 s.sched.slotLen
    let k := (s.mesh - s.sched.start).toNat / len
    s.normalise.1 = s.modSched (fun c => { c with start := c.start + BitVec.ofNat 40 (k * len), asn := c.asn + BitVec.ofNat 40 k }) := by
  intro len k
  have hadd (x : W40) (n : Nat) : BitVec.ofInt 40 ((x.toNat : Int) + (n : Int)) = x + BitVec.ofNat 40 n := by
    rw [← Int.natCast_add, BitVec.ofInt_natCast, BitVec.ofNat_add, BitVec.ofNat_toNat, BitVec.setWidth_eq]
  rw [State.normalise]
  dsimp only
  rw [if_pos h]
  simp only [← Int.natCast_mul, hadd]
  rfl

/-- A load whose slot is the present one stands as loaded. -/
theorem State.schAt_present (s : State) (asn start : W40) (h : (s.mesh - start).toNat < s.get SCH_SLOTLEN_LEN) :
    (s.schAt asn start).sched.asn = asn ∧ (s.schAt asn start).sched.start = start ∧
      (s.schAt asn start).sched.slotLen = s.get SCH_SLOTLEN_LEN := by
  have hleave := s.slots_slotLeave
  obtain ⟨u, hu⟩ : ∃ u, u = s.slotLeave.modSched (fun c => { c with asn := asn, start := start }) := ⟨_, rfl⟩
  have hmesh : u.tables.mesh = s.mesh := (State.slots_chordTable u.activeTables).mesh.trans (by rw [hu]; exact hleave.mesh)
  have hlen : u.tables.sched.slotLen = s.get SCH_SLOTLEN_LEN := by
    rw [u.tables_sched, hu]
    exact hleave.get (.inr ⟨by decide, by decide, by decide⟩)
  have hasn : u.tables.sched.asn = asn := by rw [u.tables_sched, hu]; rfl
  have hstart : u.tables.sched.start = start := by rw [u.tables_sched, hu]; rfl
  have hlt : s.get SCH_SLOTLEN_LEN < 2 ^ 20 := Nat.mod_lt _ (Nat.le_of_ble_eq_true rfl)
  have hat : s.schAt asn start = u.tables.normalise.1 := by rw [hu]; rfl
  have hk : (s.mesh - start).toNat / max 1 (s.get SCH_SLOTLEN_LEN) = 0 :=
    Nat.div_eq_of_lt (Nat.lt_of_lt_of_le h (Nat.le_max_right _ _))
  have hnorm := u.tables.normalise_forward (by rw [hmesh, hstart]; omega)
  simp only [hmesh, hstart, hlen, hk, Nat.zero_mul] at hnorm
  rw [hat, hnorm]
  exact ⟨(BitVec.add_zero _).trans hasn, (BitVec.add_zero _).trans hstart, hlen⟩

/-! ## Mesh time through a sweep of the neighbour table -/

theorem State.spareTry_mesh (s : State) (kind idx : Nat) (ok : Bool) : (s.spareTry kind idx ok).mesh = s.mesh := by
  rw [State.spareTry]
  split
  · rw [State.commitSpare]
    split
    · exact s.report_mesh _ _
    · exact State.report_mesh _ _ _
  · rfl

theorem State.trackRow_mesh (kind idx : Nat) (s : State) : (State.trackRow kind idx s).mesh = s.mesh := by
  rw [State.trackRow]
  split
  · rfl
  · dsimp only
    split
    · split
      · exact State.spareTry_mesh _ _ _ _
      · rfl
    · split
      · exact State.spareTry_mesh _ _ _ _
      · rfl

theorem State.ramErrors_mesh (r : Ram) (ces ues : List Nat) (s : State) : (s.ramErrors r ces ues).mesh = s.mesh := by
  have htrack : ∀ (t : State) (g : Nat), (t.ramTrack r g).mesh = t.mesh := fun t g => by
    cases r with
    | sram => exact t.trackRow_mesh _ _
    | pram _ => rfl
  unfold State.ramErrors
  refine foldl_inv (fun t => t.mesh = s.mesh) _ _ _ (fun t g _ ht => (htrack t g).trans ht) ?_
  refine foldl_inv (fun t => t.mesh = s.mesh) _ _ _ (fun t g _ ht => (t.report_mesh _ _).trans ht) ?_
  exact foldl_inv (fun t => t.mesh = s.mesh) _ _ _ (fun t g _ ht => (State.report_mesh _ _ _).trans ht) rfl

theorem State.ramRead_mesh (s : State) (r : Ram) (a n : Nat) : (s.ramRead r a n).2.mesh = s.mesh := by
  rw [State.ramRead]
  split <;> exact State.ramErrors_mesh _ _ _ _

theorem State.setBytes_mesh (r : Ram) (a : Nat) (l : List Byte) (s : State) : (s.setBytes r a l).mesh = s.mesh := by
  induction l generalizing s a with
  | nil => rfl
  | cons b l ih =>
    rw [State.setBytes, ih]
    cases r <;> rfl

theorem State.ramWrite_mesh (s : State) (r : Ram) (a : Nat) (bs : List Byte) : (s.ramWrite r a bs).mesh = s.mesh := by
  unfold State.ramWrite
  dsimp only
  rw [State.setBytes_mesh, State.ramErrors_mesh]
  refine foldl_inv (fun t => t.mesh = s.mesh) _ _ _ (fun t g _ ht => ht) ?_
  exact foldl_inv (fun t => t.mesh = s.mesh) _ _ _ (fun t g _ ht => ht) rfl

theorem State.nbWrite_mesh (s : State) (i : Nat) (r : NbRec) : (s.nbWrite i r).mesh = s.mesh := by
  unfold State.nbWrite
  generalize r.toBytes = l
  rw [State.modSched_mesh, State.ramWrite_mesh]

theorem State.nbRead_mesh (s : State) (i : Nat) : (s.nbRead i).2.mesh = s.mesh := by
  unfold State.nbRead
  generalize State.nbAt s i = a
  generalize NbRec.ofBytes _ = r
  exact s.ramRead_mesh .sram a 30

theorem State.set40_mesh (s : State) (lo hi : Nat) (v : W40) : (s.set40 lo hi v).mesh = s.mesh := rfl

theorem State.sweepNow_mesh (s : State) (d : Int) : (s.sweepNow d).mesh = s.mesh := by
  unfold State.sweepNow
  refine foldl_inv (fun t => t.mesh = s.mesh) _ _ _ (fun t n _ ht => ?_) ?_
  · split
    · rw [State.set40_mesh, ht]
    · exact ht
  · refine foldl_inv (fun t => t.mesh = s.mesh) _ _ _ (fun t i _ ht => ?_) rfl
    have hread := (t.nbRead_mesh i).trans ht
    generalize t.nbRead i = q at *
    obtain ⟨r, u⟩ := q
    dsimp only at hread ⊢
    split
    · exact hread
    · rw [State.nbWrite_mesh, hread]

theorem State.sweepGo_mesh (s : State) (d : Int) : (s.sweepGo d).mesh = s.mesh := by
  rw [State.sweepGo]
  split
  · rfl
  · exact s.sweepNow_mesh d

/-! ## A step -/

/-- The schedule follows a step: SLOT, SKIP or BACK. -/
theorem State.meshStep_mesh (s : State) (d : W40) : (s.meshStep d.toInt).mesh = s.mesh + d := by
  have hmove : (s.meshMove d.toInt).mesh = s.mesh + d := by
    show BitVec.ofInt 40 ((s.mesh.toNat : Int) + d.toInt) = _
    rw [BitVec.ofInt_add, BitVec.ofInt_natCast, BitVec.ofNat_toNat, BitVec.setWidth_eq, BitVec.ofInt_toInt]
  rw [State.meshStep]
  split
  · next h => rw [show d = 0 from BitVec.eq_of_toInt_eq (h.trans BitVec.toInt_zero.symm)]; exact (BitVec.add_zero _).symm
  · obtain ⟨t, ht, hmesh⟩ : ∃ t, t = (if 0 < d.toInt then (s.meshMove d.toInt).markPassed s.mesh else s.meshMove d.toInt) ∧
        t.mesh = s.mesh + d := by
      refine ⟨_, rfl, ?_⟩
      split <;> exact hmove
    dsimp only
    rw [← ht, State.sweepGo_mesh]
    split
    · have hbegin : t.slotLeave.normalise.1.activate.slotBegin.mesh = t.mesh :=
        ((State.slotBegin_slots _).1.trans (State.activate_slots _).1).trans t.slots_slotLeave.mesh
      split
      · split
        · exact (State.raise_mesh _ _).trans (hbegin.trans hmesh)
        · exact hbegin.trans hmesh
      · split
        · exact (State.raise_mesh _ _).trans hmesh
        · exact hmesh
    · exact hmesh

/-- With no neighbour and no catch record, a sweep finds nothing. -/
theorem State.sweepNow_idle (s : State) (d : Int) (hnone : s.nbCount = 0) (hcatch : ∀ n, n < 4 → s.test (KC_INFO_VALID n) = false) :
    s.sweepNow d = s := by
  unfold State.sweepNow
  rw [hnone, List.range_zero, List.foldl_nil]
  refine foldl_inv (fun t => t = s) _ _ _ (fun t n hn ht => ?_) rfl
  rw [ht, hcatch n (List.mem_range.mp hn), if_neg Bool.false_ne_true]

/-- A step with RUN 0 and nothing to sweep. -/
theorem State.meshStep_idle {s : State} {d : Int} (hd : d ≠ 0) (hrun : s.test SCH_CTL_RUN = false) (hnone : s.nbCount = 0)
    (hsweep : s.sched.sweep = false) (hcatch : ∀ n : Fin 4, s.test (KC_INFO_VALID n.val) = false) :
    let t := s.meshStep d
    t.sched = { s.sched with sweep := true } ∧ t.test NBT_STAT_BUSY = true ∧ s.regsKept t [SCH_ERA, NBT_STAT] ∧ s.memKept t := by
  intro t
  obtain ⟨u, hu, hregs, hsched, hmem⟩ : ∃ u, u = (if 0 < d then (s.meshMove d).markPassed s.mesh else s.meshMove d) ∧
      s.regsKept u [SCH_ERA] ∧ u.sched = s.sched ∧ s.memKept u := by
    have hera : s.regsKept (s.meshMove d) [SCH_ERA] := State.regsKept_setRg s SCH_ERA _
    refine ⟨_, rfl, ?_⟩
    split
    · exact ⟨hera, rfl, State.memKept_of_tables rfl rfl rfl rfl⟩
    · exact ⟨hera, rfl, State.memKept_of_tables rfl rfl rfl rfl⟩
  have hkeeps {f : Field} (hf : f.reg ≠ SCH_ERA) : u.get f = s.get f :=
    congrArg (fun w => fieldGet w f.hi f.lo) (hregs _ (by simpa using hf))
  have hidle : u.sweepNow d = u := u.sweepNow_idle d ((hkeeps (f := NBT_SIZE_COUNT) (by decide)).trans hnone)
    (fun n hn => (State.test_eq_of_get (hkeeps (f := KC_INFO_VALID n) (by show 0xCD190 + 16 * n ≠ 0xCD040; omega))).trans (hcatch ⟨n, hn⟩))
  have ht : t = (u.modSched (fun c => { c with sweep := true })).put NBT_STAT_BUSY 1 := by
    have hrun' : u.test SCH_CTL_RUN = false := (State.test_eq_of_get (hkeeps (f := SCH_CTL_RUN) (by decide))).trans hrun
    have hsweep' : u.sched.sweep = false := by rw [hsched, hsweep]
    show s.meshStep d = _
    rw [State.meshStep, if_neg hd]
    dsimp only
    rw [← hu, hrun', if_neg Bool.false_ne_true, State.sweepGo, hsweep', if_neg Bool.false_ne_true, hidle]
  have hbusy : (u.modSched (fun c => { c with sweep := true })).regsKept t [NBT_STAT] := by
    rw [ht]
    exact State.regsKept_setRg _ NBT_STAT _
  have hshow : t.test NBT_STAT_BUSY = true := by
    rw [ht]
    exact State.test_put_same _ NBT_STAT_BUSY 1 (by decide) (by decide) (by decide)
  refine ⟨by rw [ht, ← hsched]; rfl, hshow, fun a ha => ?_, ?_⟩
  · rw [List.mem_cons, List.mem_singleton, not_or] at ha
    exact (hbusy a (by simpa using ha.2)).trans (hregs a (by simpa using ha.1))
  · rw [ht]
    exact hmem

/-! ## Writes -/

/-- A refused write of the schedule: the flag, and nothing else but pending bits. -/
theorem State.schRefused (s : State) : let t := s.raise SCH_FLAGS_CFG_REFUSED
    t.test SCH_FLAGS_CFG_REFUSED = true ∧ s.regsKept t [SCH_FLAGS] ∧ s.memKept t ∧ s.coresKept t := by
  have h := State.Within.raise (but := [SCH_FLAGS]) s (f := SCH_FLAGS_CFG_REFUSED) (by decide)
  exact ⟨State.raise_self _ _ (by decide) (by decide), h.regs, h.quiet⟩

/-- Three channels in range are taken each into its field. -/
theorem State.hopWrite_takes (s : State) (k : Fin 21) (v : W20) (h0 : v.toNat % 64 ≤ 47) (h1 : v.toNat / 64 % 64 ≤ 47)
    (h2 : v.toNat / 4096 % 64 ≤ 47) : s.hopWrite k.val v =
      ((s.put (HOP_E0 k.val) (v.toNat % 64)).put (HOP_E1 k.val) (v.toNat / 64 % 64)).put (HOP_E2 k.val) (v.toNat / 4096 % 64) := by
  have e0 : ¬ 47 < v.toNat % 64 := Nat.not_lt.mpr h0
  have e1 : ¬ 47 < v.toNat / 64 % 64 := Nat.not_lt.mpr h1
  have e2 : ¬ 47 < v.toNat / 64 ^ 2 % 64 := Nat.not_lt.mpr h2
  rw [State.hopWrite, if_neg (Nat.ne_of_lt k.isLt)]
  simp only [show List.range 3 = [0, 1, 2] from rfl, List.foldl_cons, List.foldl_nil, Nat.pow_zero, Nat.pow_one,
    Nat.div_one, if_neg e0, if_neg e1, if_neg e2]
  rfl

/-- The three channels of a HOP register, written one after another. -/
theorem State.hopPut_shows (s : State) (k x y z : Nat) :
    let t := ((s.put (HOP_E0 k) x).put (HOP_E1 k) y).put (HOP_E2 k) z
    t.get (HOP_E0 k) = x % 64 ∧ t.get (HOP_E1 k) = y % 64 ∧ t.get (HOP_E2 k) = z % 64 ∧ s.regsKept t [HOP k] := by
  have w0 : (HOP_E0 k).hi < 20 ∧ (HOP_E0 k).lo ≤ (HOP_E0 k).hi := ⟨Nat.le_of_ble_eq_true rfl, Nat.le_of_ble_eq_true rfl⟩
  have w1 : (HOP_E1 k).hi < 20 ∧ (HOP_E1 k).lo ≤ (HOP_E1 k).hi := ⟨Nat.le_of_ble_eq_true rfl, Nat.le_of_ble_eq_true rfl⟩
  have w2 : (HOP_E2 k).hi < 20 ∧ (HOP_E2 k).lo ≤ (HOP_E2 k).hi := ⟨Nat.le_of_ble_eq_true rfl, Nat.le_of_ble_eq_true rfl⟩
  have h02 : (HOP_E0 k).hi < (HOP_E2 k).lo := Nat.le_of_ble_eq_true rfl
  have h12 : (HOP_E1 k).hi < (HOP_E2 k).lo := Nat.le_of_ble_eq_true rfl
  have h01 : (HOP_E0 k).hi < (HOP_E1 k).lo := Nat.le_of_ble_eq_true rfl
  refine ⟨?_, ?_, State.get_put_same _ _ _ w2.1 w2.2, fun a ha => ?_⟩
  · rw [State.get_put_disjoint _ (HOP_E2 k) (HOP_E0 k) _ w2.1 w2.2 rfl (.inl h02),
      State.get_put_disjoint _ (HOP_E1 k) (HOP_E0 k) _ w1.1 w1.2 rfl (.inl h01)]
    exact State.get_put_same _ _ _ w0.1 w0.2
  · rw [State.get_put_disjoint _ (HOP_E2 k) (HOP_E1 k) _ w2.1 w2.2 rfl (.inl h12)]
    exact State.get_put_same _ _ _ w1.1 w1.2
  · have hne : a ≠ HOP k := fun h => ha (List.mem_singleton.mpr h)
    rw [State.rg_put_ne _ (HOP_E2 k) _ hne, State.rg_put_ne _ (HOP_E1 k) _ hne, State.rg_put_ne _ (HOP_E0 k) _ hne]

/-- The last sweep done with no sample waiting. -/
theorem execStepSweepDone_idle {s : State} (hawake : s.notDormant = true) (hsweep : s.sched.sweep = true) (hq : s.sched.sweepQ = [])
    (hnone : s.sched.samples = []) :
    execStepSweepDone s = .next ((s.modSched (fun c => { c with sweep := false })).put NBT_STAT_BUSY (bit s.sched.busy)) := by
  obtain ⟨u, hu⟩ : ∃ u, u = (s.modSched (fun c => { c with sweep := false })).put NBT_STAT_BUSY (bit s.sched.busy) := ⟨_, rfl⟩
  have hrun : u.sampleRun = u := u.sampleRun_none (by rw [hu]; exact hnone)
  rw [execStepSweepDone, State.during, if_pos hawake, hsweep, if_neg (by decide), hq]
  dsimp only
  rw [← hu, hrun]

/-- Settles O38: a boundary and a load go through the active tables, and a step moves mesh time whatever the sweep does. -/
theorem slotScheduleEffects : Obligations.SlotScheduleEffects := by
  unfold Obligations.SlotScheduleEffects
  intro s hawake c len
  refine ⟨fun hrun hreached => ?boundary, fun v hclk => ⟨⟨fun hfits => ?len, fun hnot => ?lenRefused⟩, fun hfits => ?sync, fun hnot => ?syncRefused⟩,
    fun hclk hpresent => ?load, fun hclk hrun hnear => ?run, fun hclk => ?snapshot, fun k v hclk h0 h1 h2 => ?hop, fun v hclk h0 h1 => ?hopLen,
    fun hclk => ?query, fun d => ?step, fun d hd hrun hnone hsweep hcatch => ?sweep, fun hsweep hq hnone => ?done⟩
  case boundary =>
    obtain ⟨u, hu⟩ : ∃ u, u = s.slotLeave.modSched (fun c => { c with start := c.start + BitVec.ofNat 40 c.slotLen, asn := c.asn + 1 }) := ⟨_, rfl⟩
    have hleave := s.slots_slotLeave
    obtain ⟨hbmesh, hbsched, hbflag⟩ := u.activate.slotBegin_slots
    obtain ⟨hamesh, hasched, -⟩ := u.activate_slots
    have hsched := hbsched.trans hasched
    refine ⟨u.activate.slotBegin, ?_, ?_, ?_, ?_, hbflag, ?_, ?_⟩
    · show execSlotBoundary s = _
      rw [execSlotBoundary, State.during, if_pos hawake, if_pos ⟨hrun, hreached⟩, hu]
    · rw [hsched, hu]
      exact congrArg (fun x => Sched.asn x + 1) hleave.sched
    · rw [hsched, hu]
      exact congrArg (fun x => Sched.start x + BitVec.ofNat 40 x.slotLen) hleave.sched
    · rw [hsched, hu]
      exact hleave.get (.inr ⟨by decide, by decide, by decide⟩)
    · rw [hbmesh, hamesh, hu]
      exact hleave.mesh
    · have hQ := ((State.Quiet.refl ⟨true, true, true⟩ s).slotLeave).modSched (fun c => { c with
        start := c.start + BitVec.ofNat 40 c.slotLen, asn := c.asn + 1 })
      rw [← hu] at hQ
      exact (hQ.activate.slotBegin).cores rfl
  case len =>
    show execSchSlotlenWrite v s = _
    rw [execSchSlotlenWrite, State.during, if_pos hclk, State.slotLenWrite, if_pos hfits]
  case lenRefused =>
    refine ⟨_, ?_, s.schRefused⟩
    show execSchSlotlenWrite v s = _
    rw [execSchSlotlenWrite, State.during, if_pos hclk, State.slotLenWrite, if_neg hnot]
  case sync =>
    show execSchSyncofsWrite v s = _
    rw [execSchSyncofsWrite, State.during, if_pos hclk, State.syncOfsWrite, if_pos hfits]
  case syncRefused =>
    refine ⟨_, ?_, s.schRefused⟩
    show execSchSyncofsWrite v s = _
    rw [execSchSyncofsWrite, State.during, if_pos hclk, State.syncOfsWrite, if_neg hnot]
  case load =>
    obtain ⟨hasn, hstart, hlen⟩ := s.schAt_present (s.get40 SCH_LDASNLO SCH_LDASNHI) _ hpresent
    have hQ := (State.Quiet.refl ⟨true, true, true⟩ s).schLoad
    refine ⟨s.schLoad, ?_, hasn, hstart, hlen, hQ.memKept rfl, hQ.cores rfl⟩
    show execSchLoad s = _
    rw [execSchLoad, State.during, if_pos hclk]
  case run =>
    have hnorm := (s.put SCH_CTL_RUN 1).normalise_forward hnear
    have hrunset : s.schRun true = (s.put SCH_CTL_RUN 1).normalise.1 := by
      rw [State.schRun, hrun]
      rfl
    refine ⟨s.schRun true, ?_, ?_⟩
    · show execSchRunSet s = _
      rw [execSchRunSet, State.during, if_pos hclk]
    · rw [hrunset, hnorm]
      exact ⟨State.test_put_same s SCH_CTL_RUN 1 (by decide) (by decide) (by decide), rfl, rfl, State.regsKept_setRg s SCH_CTL _,
        State.memKept_of_tables rfl rfl rfl rfl, rfl⟩
  case snapshot =>
    refine ⟨s.asnSnapshot, ?_, ?_, ?_, fun a ha => ?_, State.memKept_of_tables rfl rfl rfl rfl, rfl⟩
    · show execSchAsnloRead s = _
      rw [execSchAsnloRead, State.during, if_pos hclk]
    · have h := s.get40_set40 (lo := SCH_ASNLO) (hi := SCH_ASNHI) (by decide) s.sched.asn
      rw [← h]
      show State.get40 (State.set40 _ _ _ _) _ _ = _
      unfold State.get40
      rw [State.set40, State.rg_setRg_ne _ _ (by decide), State.rg_setRg_ne _ _ (by decide), State.rg_setRg_ne _ _ (by decide),
        State.rg_setRg_ne _ _ (by decide)]
    · exact State.get40_set40 _ (by decide) _
    · simp only [List.mem_cons, List.not_mem_nil, or_false, not_or] at ha
      obtain ⟨h1, h2, h3, h4⟩ := ha
      show State.rg (State.set40 (State.set40 _ _ _ _) _ _ _) a = _
      rw [State.set40, State.rg_setRg_ne _ _ h4, State.rg_setRg_ne _ _ h3, State.set40, State.rg_setRg_ne _ _ h2, State.rg_setRg_ne _ _ h1]
  case hop =>
    refine ⟨s.hopWrite k.val v, ?_, ?_⟩
    · show execHopWrite (some (k.castLE (by omega))) v s = _
      rw [execHopWrite, State.during, if_pos hclk]
      rfl
    · rw [s.hopWrite_takes k v h0 h1 h2]
      obtain ⟨g0, g1, g2, hregs⟩ := s.hopPut_shows k.val (v.toNat % 64) (v.toNat / 64 % 64) (v.toNat / 4096 % 64)
      exact ⟨g0.trans (Nat.mod_mod _ _), g1.trans (Nat.mod_mod _ _), g2.trans (Nat.mod_mod _ _), hregs,
        State.memKept_of_tables rfl rfl rfl rfl, rfl⟩
  case hopLen =>
    show execHopWrite none v s = _
    rw [execHopWrite, State.during, if_pos hclk, State.hopLenWrite, if_neg (by omega)]
  case query =>
    show execSchHopqRead s = _
    rw [execSchHopqRead, State.during, if_pos hclk]
  case step =>
    refine ⟨s.meshStep d.toInt, ?_, s.meshStep_mesh d⟩
    show execMeshTimeStep d s = _
    rw [execMeshTimeStep, State.during, if_pos hawake]
  case sweep =>
    refine ⟨s.meshStep d.toInt, ?_, s.meshStep_mesh d, State.meshStep_idle (fun h => hd ?_) hrun hnone hsweep hcatch⟩
    · show execMeshTimeStep d s = _
      rw [execMeshTimeStep, State.during, if_pos hawake]
    · exact BitVec.eq_of_toInt_eq (h.trans BitVec.toInt_zero.symm)
  case done =>
    exact execStepSweepDone_idle hawake hsweep hq hnone

end Sys2Proof.Machine
end

section
/-! SUPPORT. Entry to the sleep states, and wake (R398-R406). -/

set_option Elab.async false

namespace Sys2Proof.Machine

/-! ## Causes of a wake -/

/-- The causes of PWR_WAKE. -/
def wakeCauseFields : List Field := [PWR_WAKE_ENTRY_CANCEL, PWR_WAKE_AT_ENTRY, PWR_WAKE_GPIO_EDGE, PWR_WAKE_GPIO_LEVEL, PWR_WAKE_HITCH,
  PWR_WAKE_RTC, PWR_WAKE_TIMER, PWR_WAKE_CHORD, PWR_WAKE_ORBIT, PWR_WAKE_ACTION]

theorem wakeCauseFields_bits : ∀ f ∈ wakeCauseFields, f.reg = PWR_WAKE ∧ f.hi < 20 ∧ f.lo = f.hi := by decide
theorem wakeCauseFields_apart : ∀ f ∈ wakeCauseFields, ∀ g ∈ wakeCauseFields, f = g ∨ f.hi < g.lo ∨ g.hi < f.lo := by decide

theorem wakeField_cause (w : WakeSource) : wakeField w ∈ wakeCauseFields := by
  cases w <;> simp only [wakeField] <;> decide

theorem levelCauses_fields (s : State) (target : Nat) : ∀ f ∈ s.levelCauses target, f ∈ wakeCauseFields := by
  have hif : ∀ (b : Bool) (g : Field), g ∈ wakeCauseFields → ∀ f ∈ (if b then [g] else []), f ∈ wakeCauseFields := fun b g hg f hf => by
    cases b with
    | false => exact absurd hf (List.not_mem_nil)
    | true => exact List.mem_singleton.mp hf ▸ hg
  intro f hf
  unfold State.levelCauses at hf
  split at hf
  · simp only [List.mem_append] at hf
    rcases hf with (hf | hf) | hf
    · exact hif _ _ (by decide) f hf
    · exact hif _ _ (by decide) f hf
    · exact hif _ _ (by decide) f hf
  · simp only [List.mem_append] at hf
    rcases hf with (((hf | hf) | hf) | hf) | hf
    · exact hif _ _ (by decide) f hf
    · exact hif _ _ (by decide) f hf
    · exact hif _ _ (by decide) f hf
    · exact hif _ _ (by decide) f hf
    · exact hif _ _ (by decide) f hf

/-- A bit that is set shows. -/
theorem State.test_put_bit (s : State) {f : Field} (hh : f.hi < 20) (hl : f.lo = f.hi) : (s.put f 1).test f = true := by
  rw [State.test_put_same s f 1 hh (Nat.le_of_eq hl) (by rw [hl, Nat.add_sub_cancel_left]; decide)]
  rfl

/-- A cause recorded stays while another is. -/
theorem State.test_cause_kept {s : State} {f g : Field} (hf : f ∈ wakeCauseFields) (hg : g ∈ wakeCauseFields) (h : s.test f = true) :
    (s.put g 1).test f = true := by
  obtain ⟨hfr, hfh, hfl⟩ := wakeCauseFields_bits f hf
  obtain ⟨hgr, hgh, hgl⟩ := wakeCauseFields_bits g hg
  rcases wakeCauseFields_apart f hf g hg with rfl | hd
  · exact s.test_put_bit hfh hfl
  · rw [State.test, s.get_put_disjoint g f 1 hgh (Nat.le_of_eq hgl) (hfr.trans hgr.symm) hd]
    exact h

theorem State.wakeCauses_kept {l : List Field} (hl : ∀ g ∈ l, g ∈ wakeCauseFields) {f : Field} (hf : f ∈ wakeCauseFields) {s : State}
    (h : s.test f = true) : (s.wakeCauses l).test f = true :=
  foldl_inv (fun t => t.test f = true) _ _ _ (fun _ g hg ht => State.test_cause_kept hf (hl g hg) ht) h

/-- Every cause recorded shows. -/
theorem State.wakeCauses_shows {l : List Field} (hl : ∀ g ∈ l, g ∈ wakeCauseFields) (s : State) : ∀ f ∈ l, (s.wakeCauses l).test f = true := by
  induction l generalizing s with
  | nil => exact fun f hf => absurd hf (List.not_mem_nil)
  | cons g l ih =>
    intro f hf
    have hrest : ∀ x ∈ l, x ∈ wakeCauseFields := fun x hx => hl x (List.mem_cons_of_mem _ hx)
    have hcons : s.wakeCauses (g :: l) = (s.put g 1).wakeCauses l := rfl
    rw [hcons]
    rcases List.mem_cons.mp hf with rfl | hf
    · obtain ⟨-, hh, hlo⟩ := wakeCauseFields_bits f (hl f List.mem_cons_self)
      exact State.wakeCauses_kept hrest (hl f List.mem_cons_self) (s.test_put_bit hh hlo)
    · exact ih hrest _ f hf

/-- The last cause recorded shows, whatever the ones before it are. -/
theorem State.wakeCauses_last (s : State) (l : List Field) {f : Field} (hf : f ∈ wakeCauseFields) : (s.wakeCauses (l ++ [f])).test f = true := by
  obtain ⟨-, hh, hlo⟩ := wakeCauseFields_bits f hf
  rw [State.wakeCauses, List.foldl_append]
  exact State.test_put_bit _ hh hlo

theorem State.wakeCauses_within {l : List Field} (hl : ∀ g ∈ l, g ∈ wakeCauseFields) (s : State) : s.Within [PWR_WAKE] (s.wakeCauses l) :=
  State.Within.foldl (but := [PWR_WAKE]) (fun t f => t.put f 1) l
    (fun t f hf => State.Within.put t 1 (List.mem_singleton.mpr (wakeCauseFields_bits f (hl f hf)).1)) s

/-- Causes change registers alone. -/
theorem State.wakeCauses_regs (s : State) (l : List Field) : ∃ r, s.wakeCauses l = { s with regs := r } := by
  refine foldl_inv (fun t => ∃ r, t = { s with regs := r }) _ _ _ (fun t f _ ⟨r, ht⟩ => ?_) ⟨s.regs, rfl⟩
  rw [ht]
  exact ⟨_, rfl⟩

/-! ## A wake taken -/

theorem State.wakeNow_enters (s : State) (l : List Field) : (s.wakeNow l).power.phase = .waking s.tick false ∧ (s.wakeNow l).power.orbit = none ∧
    (s.wakeNow l).cores = s.cores ∧ ∀ f ∈ wakeCauseFields, (s.wakeNow l).test f = (s.wakeCauses l).test f := by
  obtain ⟨r, hr⟩ := s.wakeCauses_regs l
  refine ⟨rfl, rfl, ?_, fun f hf => ?_⟩
  · show (State.put (s.wakeCauses l) PWR_STATE_STATE 2).cores = s.cores
    rw [hr]
    rfl
  · show (State.put (s.wakeCauses l) PWR_STATE_STATE 2).test f = _
    rw [State.test_put_ne _ _ (by rw [(wakeCauseFields_bits f hf).1]; decide)]

theorem State.wakeNow_still (s : State) (l : List Field) : s.memKept (s.wakeNow l) ∧ s.coresKept (s.wakeNow l) := by
  have hQ := (State.Quiet.refl ⟨true, true, false⟩ s).wakeNow rfl l
  exact ⟨hQ.memKept rfl, hQ.cores rfl⟩

theorem State.wakeNow_within {l : List Field} (hl : ∀ g ∈ l, g ∈ wakeCauseFields) (s : State) : s.regsKept (s.wakeNow l) [PWR_WAKE, PWR_STATE] := by
  have h := (((s.wakeCauses_within hl).mono (l := [PWR_WAKE, PWR_STATE]) (fun a ha => List.mem_cons.mpr (.inl (List.mem_singleton.mp ha)))).trans
    (State.Within.put _ (f := PWR_STATE_STATE) 2 (by decide))).trans (State.Within.modPower _ (fun p => { p with
    phase := .waking s.tick false, captured := false, wakes := [], fromPass := p.phase == .pass, orbit := none }))
  exact h.regs

/-- A sleep state ends at a wake. -/
theorem State.wakeTake_asleep {s : State} (h : s.power.phase = .rest ∨ s.power.phase = .orbit ∨ s.power.phase = .leaving) (l : List Field) :
    s.wakeTake l = s.wakeNow l := by
  unfold State.wakeTake
  rcases h with h | h | h <;> rw [h]

/-! ## Requests -/

/-- A write of PWR_CTL that requests a sleep state. -/
theorem State.enterSleep_asks (s : State) {n : Nat} (h : n = 2 ∨ n = 3 ∨ n = 4) : let t := s.enterSleep n
    t.get PWR_CTL_ENTER = n ∧ t.test PWR_STATE_PEND = true ∧ t.power.target = n ∧ s.regsKept t [PWR_CTL, PWR_STATE] ∧ s.memKept t ∧ s.coresKept t := by
  intro t
  have hearly : s.get PWR_CTL_EARLY < 2 := Nat.mod_lt _ (by decide)
  have hn : (BitVec.ofNat 20 (8 * s.get PWR_CTL_EARLY + n)).toNat % 8 = n := by rw [BitVec.toNat_ofNat]; omega
  obtain ⟨u, hu⟩ : ∃ u, u = s.put PWR_CTL_EARLY ((BitVec.ofNat 20 (8 * s.get PWR_CTL_EARLY + n)).toNat / 8 % 2) := ⟨_, rfl⟩
  have ht : t = ((u.put PWR_CTL_ENTER n).put PWR_STATE_PEND 1).modPower (fun p => { p with target := n }) := by
    show s.enterSleep n = _
    rw [State.enterSleep, State.pwrCtl, hn, if_neg (by omega), if_pos (by omega), hu]
  have hw : s.Within [PWR_CTL, PWR_STATE] u := by rw [hu]; exact State.Within.put s _ (by decide)
  have hall := ((hw.trans (State.Within.put u (f := PWR_CTL_ENTER) n (by decide))).trans
    (State.Within.put _ (f := PWR_STATE_PEND) 1 (by decide))).trans (State.Within.modPower _ (fun p => { p with target := n }))
  rw [ht]
  refine ⟨?_, State.test_put_bit (u.put PWR_CTL_ENTER n) (f := PWR_STATE_PEND) (by decide) (by decide), rfl, hall.regs, hall.quiet⟩
  show (State.put (u.put PWR_CTL_ENTER n) PWR_STATE_PEND 1).get PWR_CTL_ENTER = n
  rw [State.get_put_ne _ _ (by decide), State.get_put_same _ _ _ (by decide) (by decide)]
  exact Nat.mod_eq_of_lt (show n < 8 by omega)

/-- A write of ENTER := 0 cancels a pending entry. -/
theorem State.enterSleep_cancels {s : State} (hpend : s.test PWR_STATE_PEND = true) : let t := s.enterSleep 0
    t.test PWR_STATE_PEND = false ∧ t.get PWR_CTL_ENTER = 0 ∧ s.regsKept t [PWR_CTL, PWR_STATE] ∧ s.memKept t ∧ s.coresKept t := by
  intro t
  have hearly : s.get PWR_CTL_EARLY < 2 := Nat.mod_lt _ (by decide)
  have hn : (BitVec.ofNat 20 (8 * s.get PWR_CTL_EARLY + 0)).toNat % 8 = 0 := by rw [BitVec.toNat_ofNat]; omega
  obtain ⟨u, hu⟩ : ∃ u, u = s.put PWR_CTL_EARLY ((BitVec.ofNat 20 (8 * s.get PWR_CTL_EARLY + 0)).toNat / 8 % 2) := ⟨_, rfl⟩
  have hup : (u.put PWR_CTL_ENTER 0).test PWR_STATE_PEND = true := by
    rw [State.test_put_ne _ _ (by decide), hu, State.test_put_ne _ _ (by decide), hpend]
  have ht : t = (u.put PWR_CTL_ENTER 0).put PWR_STATE_PEND 0 := by
    show s.enterSleep 0 = _
    rw [State.enterSleep, State.pwrCtl, hn, if_pos rfl, ← hu, State.cancelEntry, hup]
    rfl
  have hw : s.Within [PWR_CTL, PWR_STATE] u := by rw [hu]; exact State.Within.put s _ (by decide)
  have hall := (hw.trans (State.Within.put u (f := PWR_CTL_ENTER) 0 (by decide))).trans (State.Within.put _ (f := PWR_STATE_PEND) 0 (by decide))
  rw [ht]
  refine ⟨State.test_put_same _ PWR_STATE_PEND 0 (by decide) (by decide) (by decide), ?_, hall.regs, hall.quiet⟩
  rw [State.get_put_ne _ _ (by decide), State.get_put_same _ _ _ (by decide) (by decide)]
  rfl

/-- A wake source that holds cancels a pending entry. -/
theorem State.cancelEntry_wakes {s : State} (hpend : s.test PWR_STATE_PEND = true) : let t := s.cancelEntry true
    t.test PWR_STATE_PEND = false ∧ t.test PWR_WAKE_ENTRY_CANCEL = true ∧ t.power = s.power ∧ s.regsKept t [PWR_STATE, PWR_WAKE] ∧
      s.memKept t ∧ s.coresKept t := by
  intro t
  have ht : t = (s.put PWR_STATE_PEND 0).put PWR_WAKE_ENTRY_CANCEL 1 := by
    show s.cancelEntry true = _
    rw [State.cancelEntry, hpend]
    rfl
  have hall := (State.Within.put (but := [PWR_STATE, PWR_WAKE]) s (f := PWR_STATE_PEND) 0 (by decide)).trans
    (State.Within.put _ (f := PWR_WAKE_ENTRY_CANCEL) 1 (by decide))
  rw [ht]
  refine ⟨?_, State.test_put_bit _ (by decide) (by decide), rfl, hall.regs, hall.quiet⟩
  rw [State.test_put_ne _ _ (by decide)]
  exact State.test_put_same _ PWR_STATE_PEND 0 (by decide) (by decide) (by decide)

/-! ## Entry -/

theorem State.allGated_iff (s : State) : s.allGated = true ↔ ∀ c : CoreId, (s.core c).run ≠ .running ∧ (s.core c).run ≠ .starting := by
  have hgated : ∀ r : CoreRun, r.gated = true ↔ r ≠ .running ∧ r ≠ .starting := fun r => by cases r <;> simp [CoreRun.gated]
  unfold State.allGated
  rw [List.all_eq_true]
  refine ⟨fun h c => (hgated _).mp (h _ ?_), fun h x hx => ?_⟩
  · exact Vector.mem_toList_iff.mpr (Vector.getElem_mem c.isLt)
  · obtain ⟨i, hi, rfl⟩ := Vector.getElem_of_mem (Vector.mem_toList_iff.mp hx)
    exact (hgated _).mpr (h ⟨i, hi⟩)

/-- What R400 names for E0. -/
theorem State.entryReady_iff {s : State} (hpend : s.test PWR_STATE_PEND = true) :
    s.entryReady = true ↔ (∀ c : CoreId, (s.core c).run ≠ .running ∧ (s.core c).run ≠ .starting) ∧ s.dmaQuiet = true ∧
      s.test DMA_FLAGS_HALT = false ∧ s.flashBusy = false ∧ s.rfe = 0 ∧ s.frame.jobs = [] ∧ s.frame.running = none ∧ s.cipher.queue = [] ∧
      s.cipher.running = none ∧ s.cipher.tr = none ∧ s.hpkBusy = false ∧ (s.test YRD_CTL_EN = false ∨ s.yst = ySELF) := by
  rw [← s.allGated_iff]
  unfold State.entryReady
  rw [hpend]
  simp only [Bool.and_eq_true, Bool.true_and, Bool.not_eq_true', beq_iff_eq, List.isEmpty_iff, Option.isNone_iff_eq_none, Bool.or_eq_true,
    and_assoc]

/-- E0 (R401): the fast clocks stop, and the chord's bypass closes with both ports out of line. -/
theorem State.goE0_shows (s : State) : let t := s.goE0
    t.power.phase = .entry 0 ∧ t.test PWR_STATE_PEND = false ∧ t.test CLK_STAT_REF_OK = false ∧ t.test CLK_STAT_SPLL = false ∧
      t.test CHD_STATE_BYPASS = true ∧ t.power.refMesh = false ∧ t.mesh = s.mesh := by
  intro t
  obtain ⟨v, hv⟩ : ∃ v, v = (((s.put PWR_STATE_PEND 0).put CLK_STAT_REF_OK 0).put CLK_STAT_SPLL 0).put PWR_STATE_STATE 0 := ⟨_, rfl⟩
  obtain ⟨x, hx⟩ : ∃ x, x = (((v.chordEnd.put CHD_STATE_BYPASS 1).put CHD_STATE_INA 0).put CHD_STATE_INB 0) := ⟨_, rfl⟩
  have hend := v.slots_chordEnd
  have hmesh : x.mesh = s.mesh := by
    rw [hx]
    exact hend.mesh.trans (by rw [hv]; rfl)
  have hlow {f : Field} (hf : f.reg < 0xC0500) : x.get f = v.get f := by
    have hne : f.reg ≠ CHD_STATE := by simp only [CHD_STATE]; omega
    rw [hx, State.get_put_ne _ (f := CHD_STATE_INB) _ hne, State.get_put_ne _ (f := CHD_STATE_INA) _ hne,
      State.get_put_ne _ (f := CHD_STATE_BYPASS) _ hne]
    exact hend.get (.inl hf)
  have hbypass : x.get CHD_STATE_BYPASS = 1 := by
    rw [hx, State.get_put_disjoint _ CHD_STATE_INB CHD_STATE_BYPASS _ (by decide) (by decide) rfl (by decide),
      State.get_put_disjoint _ CHD_STATE_INA CHD_STATE_BYPASS _ (by decide) (by decide) rfl (by decide), State.get_put_same _ _ _ (by decide) (by decide)]
    rfl
  have hsleep : ∀ f : Field, f.reg ≠ CHD_RNGA → f.reg ≠ CHD_RNGB → t.get f = x.get f := fun f h1 h2 => by
    have ht : t.get f = ((x.setRg CHD_RNGA 0xFFFFF).setRg CHD_RNGB 0xFFFFF).get f := by
      rw [hx, hv]
      rfl
    rw [ht, State.get, State.rg_setRg_ne _ _ h2, State.rg_setRg_ne _ _ h1]
    rfl
  have hclears {f : Field} (hlt : f.reg < 0xC0500) (h : v.get f = 0) : t.test f = false := by
    rw [State.test, hsleep f (by simp only [CHD_RNGA]; omega) (by simp only [CHD_RNGB]; omega), hlow hlt, h]
    rfl
  refine ⟨rfl, hclears (by decide) ?_, hclears (by decide) ?_, hclears (by decide) ?_, ?_, rfl, ?_⟩
  · rw [hv, State.get_put_disjoint _ PWR_STATE_STATE PWR_STATE_PEND _ (by decide) (by decide) rfl (by decide), State.get_put_ne _ _ (by decide),
      State.get_put_ne _ _ (by decide), State.get_put_same _ _ _ (by decide) (by decide)]
    rfl
  · rw [hv, State.get_put_ne _ _ (by decide), State.get_put_disjoint _ CLK_STAT_SPLL CLK_STAT_REF_OK _ (by decide) (by decide) rfl (by decide),
      State.get_put_same _ _ _ (by decide) (by decide)]
    rfl
  · rw [hv, State.get_put_ne _ _ (by decide), State.get_put_same _ _ _ (by decide) (by decide)]
    rfl
  · rw [State.test, hsleep _ (by decide) (by decide), hbypass]
    rfl
  · have ht : t.mesh = x.mesh := by
      rw [hx, hv]
      rfl
    exact ht.trans hmesh

/-! ## What a sleep state keeps -/

theorem tabFind_of_mem {α : Type} {k : Nat} {v : α} : ∀ {t : Tab α}, (k, v) ∈ t → (∀ e ∈ t, e.1 = k → e.2 = v) → tabFind t k = some v
  | (j, w) :: r, hmem, hall => by
    rw [tabFind]
    split
    · next h => rw [← hall (j, w) List.mem_cons_self h]
    · next h =>
      rcases List.mem_cons.mp hmem with he | hr
      · exact absurd (Prod.mk.inj he).1.symm h
      · exact tabFind_of_mem hr (fun e he => hall e (List.mem_cons_of_mem _ he))

/-- Within the range a table filled with one value reads as it, where unlisted keys do not. -/
theorem tabGet_fill_in {α : Type} [DecidableEq α] (d : Nat → α) (t : Tab α) (lo n : Nat) {v : α} {k : Nat} (hv : v ≠ d k) (hlo : lo ≤ k)
    (hhi : k < lo + n) : tabGet d (tabFill d t lo n (fun _ => v)) k = v := by
  have hmid : tabFind (((List.range n).map (fun i => (lo + i, v))).filter (fun e => e.2 ≠ d e.1)) k = some v := by
    refine tabFind_of_mem (List.mem_filter.mpr ⟨List.mem_map.mpr ⟨k - lo, List.mem_range.mpr (by omega), ?_⟩, decide_eq_true hv⟩) ?_
    · rw [Nat.add_sub_cancel' hlo]
    · intro e he _
      obtain ⟨i, -, rfl⟩ := List.mem_map.mp (List.mem_of_mem_filter he)
      rfl
  rw [tabGet, tabFill, tabFind_append, tabFind_append, hmid, tabFind_filter_drop (p := fun j => decide (j < lo)) (decide_eq_false (by omega))]
  rfl

theorem State.bankLost_chk_same (s : State) {b k : Nat} (hlo : 0x4000 * b ≤ k) (hhi : k < 0x4000 * b + 0x4000) : (s.bankLost b).chk k = .bad :=
  tabGet_fill_in chkDflt s.memChk _ _ (show Chk.bad ≠ Chk.good by decide) hlo hhi

theorem State.bankLost_chk_ne (s : State) {b k : Nat} (h : k < 0x4000 * b ∨ 0x4000 * b + 0x4000 ≤ k) : (s.bankLost b).chk k = s.chk k :=
  tabGet_fill_out chkDflt s.memChk _ _ _ h

theorem State.bankLost_byte_ne (s : State) {b a : Nat} (h : a / 0x10000 ≠ b) : (s.bankLost b).byte .sram a = s.byte .sram a := by
  show tabGet byteDflt (s.sram.filter (fun e => e.1 / 0x10000 != b)) a = tabGet byteDflt s.sram a
  rw [tabGet, tabGet, tabFind_filter_keep (p := fun j => j / 0x10000 != b) (bne_iff_ne.mpr h)]

/-- The banks below `n` that are not retained are lost, and every other is as before. -/
structure State.Retains (n : Nat) (s t : State) : Prop where
  regs  : t.regs = s.regs
  cores : t.cores = s.cores
  tick  : t.tick = s.tick
  power : t.power = s.power
  kept  : ∀ b, n ≤ b ∨ (s.rg PWR_RETAIN).getLsbD b = true →
    (∀ k < 0x4000, t.chk (0x4000 * b + k) = s.chk (0x4000 * b + k)) ∧ ∀ i < 0x10000, t.byte .sram (0x10000 * b + i) = s.byte .sram (0x10000 * b + i)
  lost  : ∀ b < n, (s.rg PWR_RETAIN).getLsbD b = false → ∀ k < 0x4000, t.chk (0x4000 * b + k) = .bad

theorem State.retains_fold (s : State) (n : Nat) :
    s.Retains n ((List.range n).foldl (fun (t : State) b => if (t.rg PWR_RETAIN).getLsbD b then t else t.bankLost b) s) := by
  induction n with
  | zero => exact ⟨rfl, rfl, rfl, rfl, fun _ _ => ⟨fun _ _ => rfl, fun _ _ => rfl⟩, fun b hb => absurd hb (Nat.not_lt_zero b)⟩
  | succ n ih =>
    rw [List.range_succ, List.foldl_append]
    generalize (List.range n).foldl (fun (t : State) b => if (t.rg PWR_RETAIN).getLsbD b then t else t.bankLost b) s = t at ih
    obtain ⟨hregs, hcores, htick, hpower, hkept, hlost⟩ := ih
    have hrg : t.rg PWR_RETAIN = s.rg PWR_RETAIN := by rw [State.rg, State.rg, hregs]
    rw [List.foldl_cons, List.foldl_nil, hrg]
    split
    · next hretain =>
      refine ⟨hregs, hcores, htick, hpower, fun b hb => hkept b (hb.elim (fun h => .inl (Nat.le_of_succ_le h)) .inr), fun b hb hl => hlost b ?_ hl⟩
      refine Nat.lt_of_le_of_ne (Nat.le_of_lt_succ hb) (fun he => ?_)
      rw [he, hretain] at hl
      exact absurd hl (by decide)
    · next hretain =>
      refine ⟨hregs, hcores, htick, hpower, fun b hb => ?_, fun b hb hl k hk => ?_⟩
      · have hne : b ≠ n := fun he => hb.elim (fun h => absurd he (by omega)) (fun h => hretain (he ▸ h))
        obtain ⟨hchk, hbyte⟩ := hkept b (hb.elim (fun h => .inl (Nat.le_of_succ_le h)) .inr)
        refine ⟨fun k hk => (t.bankLost_chk_ne ?_).trans (hchk k hk), fun i hi => (t.bankLost_byte_ne ?_).trans (hbyte i hi)⟩
        · omega
        · omega
      · by_cases he : b = n
        · exact t.bankLost_chk_same (by omega) (by omega)
        · exact (t.bankLost_chk_ne (by omega)).trans (hlost b (by omega) hl k hk)

/-! ## DORMANT -/

theorem State.actClear_core_same (s : State) (c : CoreId) : ((s.actClear c).core c).acts = CoreSt.reset.acts := by
  unfold State.actClear
  rw [State.core_modCore_same]

theorem State.actClear_core_ne (s : State) {c d : CoreId} (h : d ≠ c) : (s.actClear c).core d = s.core d := by
  unfold State.actClear
  rw [State.core_modCore_ne _ _ h, (State.mangerOnly_withdraw _ _).core, (s.mangerOnly_release _).core]

/-- The tables of the cores listed are empty. -/
theorem State.actClears_acts (l : List CoreId) (s : State) (d : CoreId) (h : d ∈ l ∨ (s.core d).acts = CoreSt.reset.acts) :
    ((l.foldl State.actClear s).core d).acts = CoreSt.reset.acts := by
  induction l generalizing s with
  | nil => exact h.resolve_left (List.not_mem_nil)
  | cons c l ih =>
    refine ih _ ?_
    by_cases hd : d = c
    · exact .inr (hd ▸ s.actClear_core_same c)
    · rw [s.actClear_core_ne hd]
      exact h.imp_left (fun hm => (List.mem_cons.mp hm).resolve_left hd)

theorem State.actClears_regs (l : List CoreId) (s : State) : (l.foldl State.actClear s).regs = s.regs :=
  foldl_inv (fun t => t.regs = s.regs) _ _ _ (fun t c _ ht => (t.actClear_regs c).trans ht) rfl

theorem State.slotErase_key (s : State) (k j : Nat) : (s.slotErase k).slotKey j = if j = k then 0 else s.slotKey j :=
  tabGet_set keyDflt s.cipher.keys k j 0

theorem State.slotErase_cores (s : State) (k : Nat) : (s.slotErase k).cores = s.cores := rfl

/-- Every slot EMPTY (R281). -/
theorem State.slotsErased (s : State) {n : Nat} (hn : n ≤ 64) : let t := (List.range n).foldl State.slotErase s
    (∀ k < n, t.rg (TR_INFO k) = 0 ∧ t.slotKey k = 0) ∧ s.regsKept t ((List.range n).flatMap slotRegs) ∧ t.cores = s.cores := by
  induction n with
  | zero => exact ⟨fun k hk => absurd hk (Nat.not_lt_zero k), fun _ _ => rfl, rfl⟩
  | succ n ih =>
    have ih := ih (Nat.le_of_succ_le hn)
    rw [List.range_succ, List.foldl_append]
    generalize (List.range n).foldl State.slotErase s = t at ih
    obtain ⟨hempty, hregs, hcores⟩ := ih
    obtain ⟨hinfo, hkey, hwithin⟩ := t.slotErase_shows (k := n) hn
    refine ⟨fun k hk => ?_, fun a ha => ?_, (t.slotErase_cores n).trans hcores⟩
    · by_cases he : k = n
      · rw [he]
        exact ⟨hinfo, hkey⟩
      · obtain ⟨hi, hz⟩ := hempty k (by omega)
        refine ⟨(hwithin.regs _ ?_).trans hi, (t.slotErase_key n k).trans ((if_neg he).trans hz)⟩
        simp only [slotRegs, List.mem_cons, List.not_mem_nil, or_false, not_or, TR_INFO, TR_COUNT, TR_LIMITS, TR_WARNS, TR_RESERVE]
        omega
    · rw [List.flatMap_append, List.mem_append, not_or] at ha
      exact (hwithin.regs a (by simpa using ha.2)).trans (hregs a ha.1)

/-- What DORMANT keeps and what it discards (R43, R281, R403). -/
theorem State.dormantIn_shows (s : State) : let t := s.dormantIn
    t.manger.heldSum = 0 ∧ (∀ (c : CoreId) (e : Fin 16), ((t.core c).acts[e.val]).status = .empty) ∧
      (∀ k : Fin 64, t.rg (TR_INFO k.val) = 0 ∧ t.slotKey k.val = 0) ∧ s.regsKept t ((List.range 64).flatMap
        (fun k => [TR_INFO k, TR_COUNT k, TR_LIMITS k, TR_WARNS k, TR_RESERVE k])) ∧ s.memKept t := by
  intro t
  rw [show (fun k => [TR_INFO k, TR_COUNT k, TR_LIMITS k, TR_WARNS k, TR_RESERVE k]) = slotRegs from rfl]
  obtain ⟨u, hu⟩ : ∃ u, u = (List.finRange 4).foldl State.actClear s := ⟨_, rfl⟩
  obtain ⟨w, hw⟩ : ∃ w, w = u.slotsClear := ⟨_, rfl⟩
  have ht : t = w.modManger (fun m => { Manger.reset with free := m.free + m.heldSum }) := by
    show s.dormantIn = _
    rw [State.dormantIn, hw, hu]
  obtain ⟨hempty, hregs, hcores⟩ := u.slotsErased (n := 64) (Nat.le_refl _)
  rw [← State.slotsClear, ← hw] at hempty hregs hcores
  have huregs : u.regs = s.regs := by rw [hu]; exact State.actClears_regs _ s
  have hacts (c : CoreId) : (t.core c).acts = CoreSt.reset.acts := by
    have hcore : t.core c = u.core c := by
      rw [ht, State.core, State.core, ← hcores]
      rfl
    rw [hcore, hu]
    exact State.actClears_acts _ s c (.inl (List.mem_finRange c))
  have hreset : ∀ e : Fin 16, (CoreSt.reset.acts[e.val]).status = .empty := by decide
  refine ⟨by rw [ht]; rfl, fun c e => ?_, fun k => ?_, fun a ha => ?_, ?_⟩
  · have hc := hacts c
    generalize t.core c = x at hc
    rw [show x.acts[e.val] = CoreSt.reset.acts[e.val] by rw [hc]]
    exact hreset e
  · rw [ht]
    exact hempty k.val k.isLt
  · rw [ht]
    refine (hregs a ha).trans ?_
    rw [State.rg, State.rg, huregs]
  · exact ((State.Quiet.refl .memory s).dormantIn rfl).memKept rfl

/-- The pools' return of a reset confirms its sum, so that it reports nothing. -/
theorem State.rationsBack_eq (s : State) : s.rationsBack = ((s.modManger (fun _ => { Manger.reset with free := s.mngTotal })).put
    CONS_RATIONS_HELD_SUM 0).put CONS_RATIONS_FREE s.mngTotal := by
  obtain ⟨u, hu⟩ : ∃ u, u = ((s.modManger (fun _ => { Manger.reset with free := s.mngTotal })).put CONS_RATIONS_HELD_SUM 0).put CONS_RATIONS_FREE s.mngTotal :=
    ⟨_, rfl⟩
  have hsum : u.manger.heldSum + u.manger.free = u.mngTotal := by
    have htotal : u.mngTotal = s.mngTotal := by
      rw [hu, State.mngTotal, State.get_put_ne _ _ (by decide), State.get_put_ne _ _ (by decide), State.get_put_ne _ _ (by decide),
        State.get_put_ne _ _ (by decide)]
      rfl
    rw [htotal, hu]
    exact Nat.zero_add _
  have hback : s.rationsBack = if u.manger.heldSum + u.manger.free = u.mngTotal then u else u.report 35 0 := by
    rw [hu]
    rfl
  rw [hback, if_pos hsum, hu]

theorem State.trustShow_rg (s : State) {a : Nat} (h : a ≠ TRUST_STATE) : s.trustShow.rg a = s.rg a := by
  unfold State.trustShow
  dsimp only
  rw [State.rg_put_ne _ TRUST_STATE_ROOT1_REV _ h, State.rg_put_ne _ TRUST_STATE_ROOT1_SET _ h, State.rg_put_ne _ TRUST_STATE_ROOT0_REV _ h,
    State.rg_put_ne _ TRUST_STATE_ROOT0_SET _ h, State.rg_put_ne _ TRUST_STATE_SEALED _ h, State.rg_put_ne _ TRUST_STATE_FIRSTLIT _ h]

/-- The end of a cold reset: what OTP gives, the cause, and every ration free. -/
def State.coldEnd (r s : State) (cause : Nat) : State :=
  let u := (((({ r with yard := { Yard.reset with epoch := s.yard.epoch + 1, nextId := s.yard.nextId } } : State).trustShow).put
    SYS_RSTCAUSE_CAUSE cause).put FLT_SPARE_MARGIN 0).put PAD_CFG_ENERGY (bit s.otp.energy)
  ((u.put MNG_POOL_POOL (u.get MNG_CEIL_CEILING)).rationsBack).latchReqs

theorem State.coldEnd_shows (r s : State) {cause : Nat} (hc : cause < 16) : let t := r.coldEnd s cause
    t.rg PWR_WAKE = r.rg PWR_WAKE ∧ t.get SYS_RSTCAUSE_CAUSE = cause ∧ t.mesh = r.mesh ∧ t.keeper = r.keeper ∧ t.rtc = r.rtc ∧ t.power = r.power := by
  intro t
  obtain ⟨v, hv⟩ : ∃ v, v = ({ r with yard := { Yard.reset with epoch := s.yard.epoch + 1, nextId := s.yard.nextId } } : State).trustShow := ⟨_, rfl⟩
  obtain ⟨x, hx⟩ : ∃ x, x = (((v.put SYS_RSTCAUSE_CAUSE cause).put FLT_SPARE_MARGIN 0).put PAD_CFG_ENERGY (bit s.otp.energy)).put MNG_POOL_POOL
      ((((v.put SYS_RSTCAUSE_CAUSE cause).put FLT_SPARE_MARGIN 0).put PAD_CFG_ENERGY (bit s.otp.energy)).get MNG_CEIL_CEILING) := ⟨_, rfl⟩
  have ht : t = x.rationsBack.latchReqs := by
    rw [hx, hv]
    rfl
  have hrg (a : Nat) (ha : a ≠ CONS_RATIONS) : t.rg a = x.rg a := by
    rw [ht, State.latchReqs_rg, State.rationsBack_eq, State.rg_put_ne _ CONS_RATIONS_FREE _ ha, State.rg_put_ne _ CONS_RATIONS_HELD_SUM _ ha]
    rfl
  have hwake : t.rg PWR_WAKE = r.rg PWR_WAKE := by
    rw [hrg _ (by decide), hx, State.rg_put_ne _ MNG_POOL_POOL _ (by decide), State.rg_put_ne _ PAD_CFG_ENERGY _ (by decide),
      State.rg_put_ne _ FLT_SPARE_MARGIN _ (by decide), State.rg_put_ne _ SYS_RSTCAUSE_CAUSE _ (by decide), hv, State.trustShow_rg _ (by decide)]
    rfl
  have hcause : t.get SYS_RSTCAUSE_CAUSE = cause := by
    rw [State.get, hrg _ (by decide), ← State.get, hx, State.get_put_ne _ _ (by decide), State.get_put_ne _ _ (by decide),
      State.get_put_ne _ _ (by decide), State.get_put_same _ _ _ (by decide) (by decide)]
    exact Nat.mod_eq_of_lt hc
  refine ⟨hwake, hcause, ?_, ?_, ?_, ?_⟩
  · rw [ht, State.latchReqs_mesh, State.rationsBack_eq, hx, hv]
    rfl
  · rw [ht, State.latchReqs_keeper, State.rationsBack_eq, hx, hv]
    rfl
  · rw [ht, State.latchReqs_rtc, State.rationsBack_eq, hx, hv]
    rfl
  · rw [ht, State.latchReqs_power, State.rationsBack_eq, hx, hv]
    rfl

/-- A cold reset keeps PWR_WAKE and the clock. -/
theorem State.coldReset_shows (s : State) {cause : Nat} (hc : cause < 16) (kind : StartKind) : let t := s.coldReset cause kind
    t.rg PWR_WAKE = s.rg PWR_WAKE ∧ t.get SYS_RSTCAUSE_CAUSE = cause ∧ t.mesh = 0 ∧ t.keeper.kind = kind ∧ t.rtc = s.rtc ∧ t.power.phase = .run := by
  intro t
  obtain ⟨r, hr⟩ : ∃ r, r = s.resetCore (s.keepRegs (fun a => backupReg a || shownReg a)) kind := ⟨_, rfl⟩
  obtain ⟨hwake, hcause, hmesh, hkeeper, hrtc, hpower⟩ := r.coldEnd_shows s hc
  have ht : t = r.coldEnd s cause := by
    rw [hr]
    rfl
  have hkept : r.rg PWR_WAKE = s.rg PWR_WAKE := by
    rw [hr]
    show tabGet regReset (s.regs.filter (fun e => backupReg e.1 || shownReg e.1)) PWR_WAKE = tabGet regReset s.regs PWR_WAKE
    rw [tabGet, tabGet, tabFind_filter_keep (p := fun a => backupReg a || shownReg a) (by decide)]
  rw [ht]
  refine ⟨hwake.trans hkept, hcause, hmesh.trans (by rw [hr]; rfl), ?_, hrtc.trans (by rw [hr]; rfl), ?_⟩
  · rw [hkeeper, hr]
    rfl
  · rw [hpower, hr]
    rfl

end Sys2Proof.Machine
end

section
/-! SUPPORT. Sleep and wake: each command's branch, and the statement (R398-R406). -/

set_option Elab.async false

namespace Sys2Proof.Machine

/-- A gate of every core shows in the low bit of PWR_STATE.STATE. -/
theorem State.pwrState_shows {s : State} (hrun : s.power.phase = .run) :
    (s.setRg PWR_STATE s.pwrState).get PWR_STATE_STATE % 2 = bit s.allGated := by
  have hbit : bit s.allGated < 2 := by cases s.allGated <;> decide
  rw [State.pwrState, if_pos hrun]
  show fieldGet (State.rg (s.setRg PWR_STATE _) PWR_STATE) 2 0 % 2 = _
  rw [State.rg_setRg_same, fieldGet_fieldSet_same _ _ _ _ (by decide) (by decide)]
  omega

/-- What a wake source leaves of the state before it is judged: HSPI_CS_N is low after the host's. -/
def State.wakeSeen (s : State) (w : WakeSource) : State := if w == .hitch then s.modPower (fun p => { p with csLow := true }) else s

theorem State.wakeSeen_shows (s : State) (w : WakeSource) : let u := s.wakeSeen w
    u.regs = s.regs ∧ u.power.phase = s.power.phase ∧ u.power.target = s.power.target ∧ u.power.wakes = s.power.wakes ∧ u.tick = s.tick ∧
      u.stopped = s.stopped ∧ u.wakeOn s.power.target w = s.wakeOn s.power.target w ∧ s.Within [] u ∧
      (wakeEdge w = false → u = s) := by
  unfold State.wakeSeen
  cases w
  case hitch => exact ⟨rfl, rfl, rfl, rfl, rfl, rfl, rfl, State.Within.of_parts rfl rfl rfl rfl rfl rfl, fun h => absurd h (by decide)⟩
  all_goals exact ⟨rfl, rfl, rfl, rfl, rfl, rfl, rfl, State.Within.rfl' s, fun _ => rfl⟩

/-- A wake source judged, the host's CS seen. -/
theorem execWake_eq (w : WakeSource) (s : State) : execWake w s =
    let u := s.wakeSeen w
    if u.stopped || !u.wakeOn u.power.target w then .next u
    else match u.power.phase with
      | .entry 0 => .next (if wakeEdge w && u.power.target != 4 then
          (u.wakeCauses [PWR_WAKE_ENTRY_CANCEL, wakeField w]).modPower (fun p => { p with captured := true }) else u)
      | .entry _ | .dormant | .waking .. => .next u
      | .run | .rest | .orbit | .leaving | .pass =>
        .next (if wakeEdge w then u.modPower (fun p => { p with wakes := p.wakes ++ [wakeField w] })
          else if u.atSlowEdge then u.wakeTake [wakeField w] else u) := rfl

/-- Asleep, an edge is captured and a level taken at a slow-clock edge. -/
theorem execWake_asleep {s : State} {w : WakeSource} (hstop : s.stopped = false) (hon : s.wakeOn s.power.target w = true)
    (h : s.power.phase = .rest ∨ s.power.phase = .orbit ∨ s.power.phase = .leaving) :
    execWake w s = .next (if wakeEdge w then (s.wakeSeen w).modPower (fun p => { p with wakes := p.wakes ++ [wakeField w] })
      else if (s.wakeSeen w).atSlowEdge then (s.wakeSeen w).wakeTake [wakeField w] else s.wakeSeen w) := by
  obtain ⟨-, hphase, htarget, -, -, hstopped, hwake, -, -⟩ := s.wakeSeen_shows w
  have hcond : ((s.wakeSeen w).stopped || !(s.wakeSeen w).wakeOn (s.wakeSeen w).power.target w) = false := by
    rw [htarget, hwake, hon, hstopped, hstop]
    rfl
  rw [execWake_eq]
  dsimp only
  rw [hcond, if_neg Bool.false_ne_true, hphase]
  rcases h with h | h | h <;> rw [h]

/-- In the first cycle of the entry an edge is captured (R400). -/
theorem execWake_entry {s : State} {w : WakeSource} (hstop : s.stopped = false) (hon : s.wakeOn s.power.target w = true)
    (hphase : s.power.phase = .entry 0) (hedge : wakeEdge w = true) (htarget : s.power.target ≠ 4) :
    execWake w s = .next (((s.wakeSeen w).wakeCauses [PWR_WAKE_ENTRY_CANCEL, wakeField w]).modPower (fun p => { p with captured := true })) := by
  obtain ⟨-, hphase', htarget', -, -, hstopped, hwake, -, -⟩ := s.wakeSeen_shows w
  have hcond : ((s.wakeSeen w).stopped || !(s.wakeSeen w).wakeOn (s.wakeSeen w).power.target w) = false := by
    rw [htarget', hwake, hon, hstopped, hstop]
    rfl
  rw [execWake_eq]
  dsimp only
  rw [hcond, if_neg Bool.false_ne_true, hphase', hphase, hedge, htarget', bne_iff_ne.mpr htarget]
  rfl

/-- A source that wakes: the phase, its cause, and no pass left. -/
theorem State.wakeNow_woke (s : State) (l : List Field) {f : Field} (hf : f ∈ wakeCauseFields) : let t := s.wakeNow (l ++ [f])
    t.power.phase = .waking s.tick false ∧ t.test f = true ∧ (s.memKept t ∧ s.coresKept t) ∧ t.power.orbit = none := by
  obtain ⟨hphase, horbit, -, htest⟩ := s.wakeNow_enters (l ++ [f])
  exact ⟨hphase, (htest f hf).trans (s.wakeCauses_last l hf), s.wakeNow_still _, horbit⟩

/-- An edge captured, then taken. -/
theorem State.wakeEdges_takes {u : State} (h : u.power.phase = .rest ∨ u.power.phase = .orbit ∨ u.power.phase = .leaving) {l : List Field} {f : Field}
    (hw : u.power.wakes = l ++ [f]) : u.wakeEdges = (u.modPower (fun p => { p with wakes := [] })).wakeNow (l ++ [f]) := by
  have hne : u.power.wakes.isEmpty = false := by
    rw [hw]
    cases l <;> rfl
  rw [State.wakeEdges, hne, if_neg Bool.false_ne_true, hw]
  have hasleep : (u.modPower (fun p => { p with wakes := [] })).power.phase = .rest ∨ (u.modPower (fun p => { p with wakes := [] })).power.phase = .orbit ∨
      (u.modPower (fun p => { p with wakes := [] })).power.phase = .leaving := h
  generalize u.modPower (fun p => { p with wakes := [] }) = v at *
  exact State.wakeTake_asleep hasleep _

/-- A source of DORMANT taken at a slow-clock edge. -/
theorem execDormantExit_wakes {s : State} {w : WakeSource} (hstop : s.stopped = false) (hphase : s.power.phase = .dormant)
    (hedge : s.atSlowEdge = true) (hon : s.wakeOn 4 w = true) :
    execDormantExit w s = .next ((s.wakeSeen w).dormantWake [wakeField w]) := by
  have hall : (!s.stopped && s.power.phase == .dormant && (s.wakeSeen w).atSlowEdge && (s.wakeSeen w).wakeOn 4 w) = true := by
    have he : (s.wakeSeen w).atSlowEdge = s.atSlowEdge := by cases w <;> rfl
    have ho : (s.wakeSeen w).wakeOn 4 w = s.wakeOn 4 w := by cases w <;> rfl
    rw [hstop, hphase, he, ho, hedge, hon]
    rfl
  have heq : execDormantExit w s = .next (if !s.stopped && s.power.phase == .dormant && (s.wakeSeen w).atSlowEdge && (s.wakeSeen w).wakeOn 4 w
      then (s.wakeSeen w).dormantWake [wakeField w] else s.wakeSeen w) := rfl
  rw [heq, hall]
  rfl

/-- Entry to the sleep states REST and ORBIT. -/
def State.sleepIn (s : State) : State := s.banksLost.modPower (fun p => { p with
  phase := if p.target = 3 then .orbit else .rest
  lastPass := if p.target = 3 then some (p.lastPass.getD (BitVec.ofInt 40 s.orbitSlot)) else none })

theorem execSleepStateEntered_rest {s : State} (hstop : s.stopped = false) (hphase : s.power.phase = .entry 4) (hedge : s.atSlowEdge = true)
    (htarget : s.power.target = 2 ∨ s.power.target = 3) : execSleepStateEntered s =
      .next (if (s.levelCauses s.power.target).isEmpty && !s.power.captured then s.sleepIn
        else s.sleepIn.wakeNow ((if (s.levelCauses s.power.target).isEmpty then [] else [PWR_WAKE_AT_ENTRY]) ++ s.levelCauses s.power.target)) := by
  rw [execSleepStateEntered, State.live, hstop, if_neg Bool.false_ne_true, hphase]
  dsimp only
  rw [hedge, if_neg (by decide), if_neg (by omega)]
  rfl

theorem execSleepStateEntered_dormant {s : State} (hstop : s.stopped = false) (hphase : s.power.phase = .entry 4) (hedge : s.atSlowEdge = true)
    (htarget : s.power.target = 4) (hnone : s.levelCauses s.power.target = []) (hcap : s.power.captured = false) :
    execSleepStateEntered s = .next (s.dormantIn.modPower (fun p => { p with phase := .dormant })) := by
  rw [execSleepStateEntered, State.live, hstop, if_neg Bool.false_ne_true, hphase]
  dsimp only
  rw [hedge, if_neg (by decide), if_pos htarget, hnone, hcap]
  rfl

theorem State.chordSettle_power (s : State) : s.chordSettle.power = s.power := by
  unfold State.chordSettle
  dsimp only
  split_ifs <;> rfl

theorem State.slots_chordSettle (s : State) : s.Slots s.chordSettle := by
  have hput : s.Slots ((s.put CHD_STATE_INA (bit (s.test CHD_CTL_EN_A && s.holds 12))).put CHD_STATE_INB (bit (s.test CHD_CTL_EN_B && s.holds 13))) :=
    (s.slots_high _ (by decide)).trans (State.slots_high _ _ (by decide))
  have ha := hput.trans (State.Slots.ite (p := (s.test CHD_CTL_EN_A && s.holds 12) = true) (State.Slots.rfl' _)
    (State.Slots.setRg _ (a := CHD_RNGA) 0xFFFFF (not_besideBays_high (by decide))))
  have hb := ha.trans (State.Slots.ite (p := (s.test CHD_CTL_EN_B && s.holds 13) = true) (State.Slots.rfl' _)
    (State.Slots.setRg _ (a := CHD_RNGB) 0xFFFFF (not_besideBays_high (by decide))))
  exact State.Slots.ite hb (hb.trans (State.Slots.modChord _ _))

/-- Settles O47: an entry, a captured edge and a wake each go through the causes recorded in PWR_WAKE and the state's phase. -/
theorem sleepAndWakeEffects : Obligations.SleepAndWakeEffects := by
  unfold Obligations.SleepAndWakeEffects
  intro s hstop quiet gated target
  refine ⟨fun hrun => ?doze, fun hclk => ⟨?rest, ?orbit, ?dormant⟩,
    fun hpend => ⟨fun hno => ?cancel, fun hlevel hedge => ?cancelWake, fun hrun => ⟨?ready, fun hno => ?wait, fun hready hedge hlevel => ?beginWake,
      fun hready hedge hnone => ?begin⟩⟩,
    fun hphase hedge => ?notYet, fun hphase hedge => ⟨fun hnone hcap htarget => ?sleeps, fun hnone hcap htarget => ?dormantIn,
      fun hlevel htarget => ?atEntry⟩,
    fun hasleep => ⟨fun w hon => ⟨fun hlevel hedge => ?level, fun hlevel hedge => ?levelLate, fun hcapt => ?edge⟩, fun hact htarget hedge => ?action⟩,
    fun w hphase hcapt htarget hon => ?captured, fun w hphase hedge hon => ?dormantExit,
    fun b e hphase => ⟨fun hlong hearly => ?fastRc, fun hclocks hpass => ?reached⟩⟩
  case doze =>
    have hbit := State.pwrState_shows hrun
    refine ⟨s.setRg PWR_STATE s.pwrState, ?_, State.regsKept_setRg s _ _, (State.Within.setRg (but := [PWR_STATE]) s s.pwrState (by decide)).quiet,
      fun hg => ?_, fun hg => ?_⟩
    · show execDoze s = _
      have hin : s.inRun = true := by rw [State.inRun, hstop, hrun]; rfl
      rw [execDoze, State.during, if_pos hin]
    · rw [hbit, s.allGated_iff.mpr hg]
      rfl
    · rw [hbit, Bool.eq_false_iff.mpr (fun h => hg (s.allGated_iff.mp h))]
      rfl
  case rest =>
    refine ⟨s.enterSleep 2, ?_, s.enterSleep_asks (.inl rfl)⟩
    show execEnterRest s = _
    rw [execEnterRest, if_pos hclk]
  case orbit =>
    refine ⟨s.enterSleep 3, ?_, s.enterSleep_asks (.inr (.inl rfl))⟩
    show execEnterOrbit s = _
    rw [execEnterOrbit, if_pos hclk]
  case dormant =>
    refine ⟨s.enterSleep 4, ?_, s.enterSleep_asks (.inr (.inr rfl))⟩
    show execEnterDormant s = _
    rw [execEnterDormant, if_pos hclk]
  case cancel =>
    refine ⟨s.enterSleep 0, ?_, State.enterSleep_cancels hpend⟩
    have hcond : ((s.levelCauses s.power.target).isEmpty || !s.atSlowEdge) = true := by
      rw [Bool.or_eq_true, Bool.not_eq_true', List.isEmpty_iff]
      exact hno
    show execEntryCancel s = _
    rw [execEntryCancel, State.live, hstop, if_neg Bool.false_ne_true, hpend, hcond]
    rfl
  case cancelWake =>
    obtain ⟨hp, hc, -, hregs, hquiet⟩ := State.cancelEntry_wakes hpend
    refine ⟨s.cancelEntry true, ?_, hp, hc, hregs, hquiet⟩
    have hcond : ((s.levelCauses s.power.target).isEmpty || !s.atSlowEdge) = false := by
      rw [hedge, List.isEmpty_eq_false_iff.mpr hlevel]
      rfl
    show execEntryCancel s = _
    rw [execEntryCancel, State.live, hstop, if_neg Bool.false_ne_true, hpend, hcond]
    rfl
  case ready => exact State.entryReady_iff hpend
  case wait =>
    have hcond : (s.stopped || s.power.phase != .run || !s.entryReady || !s.atSlowEdge) = true := by
      rcases hno with h | h <;> rw [h] <;> simp
    show execSleepEntryBegin s = _
    rw [execSleepEntryBegin, hcond]
    rfl
  case beginWake =>
    refine ⟨s.cancelEntry true, ?_, State.cancelEntry_wakes hpend⟩
    have hcond : (s.stopped || s.power.phase != .run || !s.entryReady || !s.atSlowEdge) = false := by
      rw [hstop, hrun, hready, hedge]
      rfl
    show execSleepEntryBegin s = _
    rw [execSleepEntryBegin, hcond, List.isEmpty_eq_false_iff.mpr hlevel]
    rfl
  case begin =>
    obtain ⟨hphase, hpending, hok, hspll, hbypass, hmesh, hsame⟩ := s.goE0_shows
    have hQ := (State.Quiet.refl ⟨true, true, false⟩ s).goE0 rfl
    have hcond : (s.stopped || s.power.phase != .run || !s.entryReady || !s.atSlowEdge) = false := by
      rw [hstop, hrun, hready, hedge]
      rfl
    have hline (p : Port) : s.goE0.inLine p = false := by unfold State.inLine; rw [hbypass]; rfl
    refine ⟨s.goE0.modPower (fun p => { p with lastPass := none }), ?_, hphase, hpending, hok, hspll, hbypass, hline .a, hline .b, hmesh, hsame,
      hQ.memKept rfl, hQ.cores rfl⟩
    show execSleepEntryBegin s = _
    rw [execSleepEntryBegin, hcond, show s.levelCauses s.power.target = [] from hnone]
    rfl
  case notYet =>
    show execSleepStateEntered s = _
    rw [execSleepStateEntered, State.live, hstop, if_neg Bool.false_ne_true, hphase]
    dsimp only
    rw [hedge]
    rfl
  case sleeps =>
    obtain ⟨hregs, hcores, -, hpower, hkept, hlost⟩ := s.retains_fold 10
    have hfold : s.banksLost = (List.range 10).foldl (fun (t : State) b => if (t.rg PWR_RETAIN).getLsbD b then t else t.bankLost b) s := rfl
    rw [← hfold] at hregs hcores hpower hkept hlost
    refine ⟨s.sleepIn, ?_, ?_, fun b hb k => ⟨(hkept b.val (.inr hb)).1 k.val k.isLt, fun j => ?_⟩, fun b hb k => hlost b.val b.isLt hb k.val k.isLt,
      hregs, hcores⟩
    · show execSleepStateEntered s = _
      rw [execSleepStateEntered_rest hstop hphase hedge htarget, show s.levelCauses s.power.target = [] from hnone, hcap]
      rfl
    · show (if s.banksLost.power.target = 3 then PwrPhase.orbit else .rest) = _
      rw [hpower]
    · have h := (hkept b.val (.inr hb)).2 (4 * k.val + j.val) (by omega)
      rw [← Nat.add_assoc] at h
      exact h
  case dormantIn =>
    obtain ⟨hsum, hacts, hslots, hregs, hmem⟩ := s.dormantIn_shows
    have hexec := execSleepStateEntered_dormant hstop hphase hedge htarget hnone hcap
    generalize s.dormantIn = d at *
    exact ⟨d.modPower (fun p => { p with phase := .dormant }), hexec, rfl, hsum, hacts, hslots, hregs, hmem⟩
  case atEntry =>
    obtain ⟨-, hcores, htick, -, -, -⟩ := s.retains_fold 10
    have hfold : s.banksLost = (List.range 10).foldl (fun (t : State) b => if (t.rg PWR_RETAIN).getLsbD b then t else t.bankLost b) s := rfl
    rw [← hfold] at hcores htick
    have hne : (s.levelCauses s.power.target).isEmpty = false := List.isEmpty_eq_false_iff.mpr hlevel
    obtain ⟨l, hl⟩ : ∃ l, l = [PWR_WAKE_AT_ENTRY] ++ s.levelCauses s.power.target := ⟨_, rfl⟩
    have hfields : ∀ f ∈ l, f ∈ wakeCauseFields := fun f hf => by
      rw [hl, List.mem_append] at hf
      exact hf.elim (fun h => List.mem_singleton.mp h ▸ by decide) (levelCauses_fields s _ f)
    obtain ⟨hwaking, -, hsame, htest⟩ := s.sleepIn.wakeNow_enters l
    have hshows (f : Field) (hf : f ∈ l) : (s.sleepIn.wakeNow l).test f = true :=
      (htest f (hfields f hf)).trans (State.wakeCauses_shows hfields _ f hf)
    refine ⟨s.sleepIn.wakeNow l, ?_, ?_, hshows _ (by rw [hl]; exact List.mem_cons_self), fun f hf => hshows f ?_, hsame.trans hcores⟩
    · show execSleepStateEntered s = _
      rw [execSleepStateEntered_rest hstop hphase hedge htarget, hne, hl]
      rfl
    · rw [hwaking]
      exact congrArg (fun n => PwrPhase.waking n false) htick
    · rw [hl]
      exact List.mem_append_right _ hf
  case level =>
    have hf := wakeField_cause w
    have hsame := (s.wakeSeen_shows w).2.2.2.2.2.2.2.2 hlevel
    refine ⟨s.wakeNow [wakeField w], ?_, s.wakeNow_woke [] hf, State.wakeNow_within (fun g hg => List.mem_singleton.mp hg ▸ hf) s⟩
    show execWake w s = _
    rw [execWake_asleep hstop hon hasleep, hlevel, hsame, hedge, State.wakeTake_asleep hasleep]
    rfl
  case levelLate =>
    have hsame := (s.wakeSeen_shows w).2.2.2.2.2.2.2.2 hlevel
    show execWake w s = _
    rw [execWake_asleep hstop hon hasleep, hlevel, hsame, hedge]
    rfl
  case edge =>
    obtain ⟨hregs, hph, -, hwakes, htick, -, -, hwithin, -⟩ := s.wakeSeen_shows w
    obtain ⟨t, ht⟩ : ∃ t, t = (s.wakeSeen w).modPower (fun p => { p with wakes := p.wakes ++ [wakeField w] }) := ⟨_, rfl⟩
    have hthis : t.power.wakes = s.power.wakes ++ [wakeField w] := by
      rw [ht, ← hwakes]
      rfl
    have hphase : t.power.phase = s.power.phase := by rw [ht]; exact hph
    have hmod := hwithin.trans (State.Within.modPower (s.wakeSeen w) (fun p => { p with wakes := p.wakes ++ [wakeField w] }))
    rw [← ht] at hmod
    obtain ⟨hwaking, hshow, hstill, horbit⟩ := (t.modPower (fun p => { p with wakes := [] })).wakeNow_woke s.power.wakes (wakeField_cause w)
    have hstill' := (hmod.trans (State.Within.modPower t (fun p => { p with wakes := [] }))).still.trans ⟨hstill.1, hstill.2⟩
    refine ⟨t, ?_, hthis, hphase, by rw [ht]; exact hregs, hmod.quiet, ?_⟩
    · show execWake w s = _
      rw [execWake_asleep hstop hon hasleep, hcapt, ht]
      rfl
    · rw [State.wakeEdges_takes (by rw [hphase]; exact hasleep) hthis]
      refine ⟨hwaking.trans (congrArg (fun n => PwrPhase.waking n false) ?_), hshow, ⟨hstill'.mem, hstill'.cores⟩, horbit⟩
      rw [ht]
      exact htick
  case action =>
    refine ⟨s.wakeNow [PWR_WAKE_ACTION], ?_, s.wakeNow_woke [] (by decide), State.wakeNow_within (by decide) s⟩
    have hcond : (s.stopped || !s.actionWakes || s.power.target == 4 || !s.atSlowEdge) = false := by
      rw [hstop, hact, hedge, beq_eq_false_iff_ne.mpr htarget]
      rfl
    show execActionWake s = _
    rw [execActionWake, hcond, State.wakeTake_asleep hasleep]
    rfl
  case captured =>
    obtain ⟨hregs, hph, -, -, -, -, -, hwithin, -⟩ := s.wakeSeen_shows w
    have hfields : ∀ f ∈ [PWR_WAKE_ENTRY_CANCEL, wakeField w], f ∈ wakeCauseFields := fun f hf => by
      rcases List.mem_cons.mp hf with rfl | hf
      · decide
      · exact List.mem_singleton.mp hf ▸ wakeField_cause w
    obtain ⟨u, hu⟩ : ∃ u, u = (s.wakeSeen w).wakeCauses [PWR_WAKE_ENTRY_CANCEL, wakeField w] := ⟨_, rfl⟩
    have hshows : ∀ f ∈ [PWR_WAKE_ENTRY_CANCEL, wakeField w], u.test f = true := by
      rw [hu]
      exact State.wakeCauses_shows hfields _
    have hall : s.Within [PWR_WAKE] u := by
      rw [hu]
      exact (hwithin.mono (fun a ha => absurd ha (List.not_mem_nil))).trans (State.wakeCauses_within hfields _)
    have hpow : u.power.phase = .entry 0 := by
      obtain ⟨r, hr⟩ := (s.wakeSeen w).wakeCauses_regs [PWR_WAKE_ENTRY_CANCEL, wakeField w]
      rw [hu, hr]
      exact hph.trans hphase
    have hend := hall.trans (State.Within.modPower u (fun p => { p with captured := true }))
    refine ⟨u.modPower (fun p => { p with captured := true }), ?_, rfl, hpow, hshows _ List.mem_cons_self,
      hshows _ (List.mem_cons_of_mem _ List.mem_cons_self), hend.regs, hend.quiet⟩
    show execWake w s = _
    rw [execWake_entry hstop hon hphase hcapt htarget, hu]
  case dormantExit =>
    have hf := wakeField_cause w
    obtain ⟨hreg, hh, hlo⟩ := wakeCauseFields_bits _ hf
    obtain ⟨u, hu⟩ : ∃ u, u = (s.wakeSeen w).wakeCauses [wakeField w] := ⟨_, rfl⟩
    have hshow : u.test (wakeField w) = true := by
      rw [hu]
      exact State.wakeCauses_last _ [] hf
    obtain ⟨hwake, hcause, hmesh, hkind, hrtc, hrun⟩ := u.coldReset_shows (cause := 3) (by decide) .dormant
    refine ⟨u.coldReset 3 .dormant, ?_, ?_, hcause, hmesh, hkind, hrtc.trans ?_, hrun⟩
    · show execDormantExit w s = _
      rw [execDormantExit_wakes hstop hphase hedge hon, hu]
      rfl
    · rw [← hshow, State.test, State.test, State.get, State.get, hreg, hwake]
    · rw [hu]
      cases w <;> rfl
  case fastRc =>
    show execFastRcRunning s = _
    rw [execFastRcRunning, State.live, hstop, if_neg Bool.false_ne_true, hphase]
    dsimp only
    rw [hearly, decide_eq_true hlong]
    rfl
  case reached =>
    obtain ⟨u, hu⟩ : ∃ u, u = (s.put PWR_STATE_STATE 0).modPower (fun p => { p with phase := .run }) := ⟨_, rfl⟩
    have hcond : (((s.test CLK_STAT_REF_OK && s.test CLK_STAT_SPLL) || (s.test CLK_STAT_REF_FAIL && decide (768 ≤ s.tick - b))) &&
        (!s.power.fromPass || decide (2304 ≤ s.tick - b))) = true := by
      simp only [Bool.and_eq_true, Bool.or_eq_true, Bool.not_eq_true', decide_eq_true_eq]
      exact ⟨hclocks, hpass⟩
    have hQ := ((((State.Quiet.refl ⟨true, true, false⟩ s).put PWR_STATE_STATE 0).withPower rfl { s.power with phase := .run }).chordSettle).latchReqs
    refine ⟨u.chordSettle.latchReqs, ?_, ?_, ?_, by rw [hu]; exact hQ.memKept rfl, by rw [hu]; exact hQ.cores rfl⟩
    · show execWakeRunReached s = _
      rw [execWakeRunReached, State.live, hstop, if_neg Bool.false_ne_true, hphase]
      dsimp only
      rw [hcond, hu]
      rfl
    · rw [State.latchReqs_power, State.chordSettle_power, hu]
      rfl
    · rw [State.get, State.latchReqs_rg, ← State.get, u.slots_chordSettle.get (.inl (by decide)), hu]
      exact State.get_put_same s PWR_STATE_STATE 0 (by decide) (by decide)

end Sys2Proof.Machine
end

section
/-! SUPPORT. A DMA descriptor in shared SRAM, from its fetch to its completion (R338-R346). -/

set_option Elab.async false

namespace Sys2Proof.Machine

/-! ## Writes of shared SRAM without errors -/

/-- Bytes of shared SRAM written: they stand, and nothing else but the check table's form changes. -/
theorem State.sramWrite_shows (s : State) {a : Nat} {l : List Byte} (hroom : a + l.length ≤ 0xA0000)
    (hgood : ∀ g, a / 4 ≤ g → g ≤ (a + l.length - 1) / 4 → s.chk g = .good) :
    ∃ m p k, s.ramWrite .sram a l = { s with sram := m, pram := p, memChk := k } ∧
      (∀ i (h : i < l.length), (s.ramWrite .sram a l).byte .sram (a + i) = l[i]) ∧
      (∀ x, x < a ∨ a + l.length ≤ x → (s.ramWrite .sram a l).byte .sram x = s.byte .sram x) ∧
      ∀ g, (s.ramWrite .sram a l).chk g = s.chk g := by
  have hall : s.allGood .sram a l.length := State.sram_allGood hgood
  obtain ⟨hat, hout, -, -⟩ := State.ramWrite_spans (c := 0) (l := l) (.inl ⟨rfl, hroom⟩) hall
  obtain ⟨c, hw, hchk, -⟩ := s.ramWrite_good .sram a l hall
  obtain ⟨m, p, hset⟩ := State.setBytes_eq l { s with memChk := c } .sram a
  refine ⟨m, p, c, hw.trans hset, hat, fun x hx => hout .sram x (.inr fun i hi => by simp only [Ram.key]; omega), fun g => ?_⟩
  rw [hw, hset]
  exact hchk g

/-! ## Fetching -/

/-- A fetch that finds 24 bytes without errors (R340). -/
theorem State.dmaFetch_reads {s : State} {n : Nat} (hroom : s.get (DMA_CH_NEXT_ADDR n) + 24 ≤ 0xA0000)
    (hhops : s.get (DMA_CH_HOPS_VALUE n) < max 1 (s.get DMA_HOPLIM_LIMIT))
    (hgood : s.allGood .sram (s.get (DMA_CH_NEXT_ADDR n)) 24) :
    s.dmaFetch n = (let d := DmaDesc.ofBytes (s.bytes .sram (s.get (DMA_CH_NEXT_ADDR n)) 24)
      if d.w0.getLsbD 19 then s.dmaTake n (s.get (DMA_CH_NEXT_ADDR n)) d else s.dmaEnd n 2) := by
  rw [State.dmaFetch, inSram_of_le hroom, if_neg (by decide), if_neg (Nat.ne_of_lt hhops), State.ramRead_good _ _ _ _ hgood]

/-- A descriptor taken whose ranges lie in shared SRAM. -/
theorem State.dmaTake_moves {s : State} {n a : Nat} {d : DmaDesc} (hn : n < 12) (ha : a < 2 ^ 20)
    (hhops : s.get (DMA_CH_HOPS_VALUE n) + 1 < 2 ^ 20) (hlen : d.len ≠ 0) (hbad : d.bad = false)
    (hsrc : d.src + d.srcLen ≤ 0xA0000) (hdst : d.dst + d.dstLen ≤ 0xA0000) : let t := s.dmaTake n a d
    t.dmaDesc n = some d ∧ t.dmaSt n = 2 ∧ t.get (DMA_CH_CUR_VALUE n) = a ∧ t.get (DMA_CH_DONE_VALUE n) = 0 ∧
      t.get (DMA_CH_HOPS_VALUE n) = s.get (DMA_CH_HOPS_VALUE n) + 1 ∧
      s.regsKept t [DMA_CH_HOPS n, DMA_CH_CUR n, DMA_CH_DONE n, DMA_CH_STAT n] ∧ s.memKept t ∧ t.cores = s.cores := by
  intro t
  obtain ⟨u, hu⟩ : ∃ u, u = ((s.bump (DMA_CH_HOPS_VALUE n)).put (DMA_CH_CUR_VALUE n) a).put (DMA_CH_DONE_VALUE n) 0 := ⟨_, rfl⟩
  have ht : t = (u.setDesc n (some d)).put (DMA_CH_STAT_STATE n) 2 := by
    show s.dmaTake n a d = _
    rw [State.dmaTake, if_neg hlen, hbad, if_neg Bool.false_ne_true, State.rangeCheck_sram hsrc hdst, hu]
  have hregs : DMA_CH_HOPS n ≠ DMA_CH_CUR n ∧ DMA_CH_HOPS n ≠ DMA_CH_DONE n ∧ DMA_CH_HOPS n ≠ DMA_CH_STAT n ∧ DMA_CH_CUR n ≠ DMA_CH_DONE n ∧
      DMA_CH_CUR n ≠ DMA_CH_STAT n ∧ DMA_CH_DONE n ≠ DMA_CH_STAT n := by
    simp only [DMA_CH_HOPS, DMA_CH_CUR, DMA_CH_DONE, DMA_CH_STAT]
    omega
  obtain ⟨h1, h2, h3, h4, h5, h6⟩ := hregs
  have hget {f : Field} (hf : f.reg ≠ DMA_CH_STAT n) : t.get f = u.get f := by
    rw [ht, State.get_put_ne _ _ hf]
    rfl
  refine ⟨?_, ?_, ?_, ?_, ?_, fun x hx => ?_, ?_, ?_⟩
  · rw [ht]
    exact u.dmaDesc_setDesc hn (some d)
  · rw [ht]
    exact State.get_put_same _ _ _ (Nat.le_of_ble_eq_true rfl) (Nat.le_of_ble_eq_true rfl)
  · rw [hget h5, hu, State.get_put_ne _ (f := DMA_CH_DONE_VALUE n) _ h4,
      State.get_put_same _ (DMA_CH_CUR_VALUE n) _ (Nat.le_of_ble_eq_true rfl) (Nat.le_of_ble_eq_true rfl)]
    exact Nat.mod_eq_of_lt ha
  · rw [hget h6, hu, State.get_put_same _ (DMA_CH_DONE_VALUE n) _ (Nat.le_of_ble_eq_true rfl) (Nat.le_of_ble_eq_true rfl)]
    exact Nat.zero_mod _
  · have hmin : min (s.get (DMA_CH_HOPS_VALUE n) + 1) (2 ^ 20 - 1) = s.get (DMA_CH_HOPS_VALUE n) + 1 := by omega
    rw [hget h3, hu, State.get_put_ne _ (f := DMA_CH_DONE_VALUE n) _ h2, State.get_put_ne _ (f := DMA_CH_CUR_VALUE n) _ h1, State.bump,
      State.get_put_same _ (DMA_CH_HOPS_VALUE n) _ (Nat.le_of_ble_eq_true rfl) (Nat.le_of_ble_eq_true rfl)]
    exact (congrArg (· % 2 ^ 20) hmin).trans (Nat.mod_eq_of_lt hhops)
  · simp only [List.mem_cons, List.not_mem_nil, or_false, not_or] at hx
    obtain ⟨x1, x2, x3, x4⟩ := hx
    rw [ht, State.rg_put_ne _ (DMA_CH_STAT_STATE n) _ x4, State.setDesc_rg, hu, State.rg_put_ne _ (DMA_CH_DONE_VALUE n) _ x3,
      State.rg_put_ne _ (DMA_CH_CUR_VALUE n) _ x2]
    exact State.rg_put_ne s (DMA_CH_HOPS_VALUE n) _ x1
  · rw [ht, hu]
    exact State.memKept_of_tables rfl rfl rfl rfl
  · rw [ht, hu]
    rfl

/-! ## Credits -/

/-- Credits within their number pass the check of R41. -/
theorem State.credCheck_fits {s : State} (h : s.dma.credits.length ≤ 64) : s.credCheck =
    (s.put CONS_DMA_HELD_SUM s.dma.credits.length).put CONS_DMA_FREE (64 - s.dma.credits.length) := if_pos h

/-- Waiting for a grant is noted beside everything but the engine's own note. -/
theorem State.dmaTouch_eq (s : State) : ∃ l, s.dmaTouch = { s with dma := { s.dma with since := l } } := by
  refine foldl_inv (fun t => ∃ l, t = { s with dma := { s.dma with since := l } }) _ _ _ (fun t n _ ⟨l, ht⟩ => ?_) ⟨s.dma.since, rfl⟩
  split
  · exact ⟨l, ht⟩
  · rw [ht]
    exact ⟨_, rfl⟩

/-! ## Reading a chunk -/

/-- The read engine reads shared SRAM without errors. -/
theorem State.engineRead_sram {s : State} {cls a m : Nat} (hroom : a + m ≤ 0xA0000) (hgood : s.allGood .sram a m) :
    s.engineRead cls a m = (.data (s.bytes .sram a m), s) := by
  have htarget : s.target a m = .chip a := if_pos (by omega)
  rw [State.engineRead, htarget]
  dsimp only
  rw [inSram_of_le hroom, if_pos rfl, State.ramRead_good _ _ _ _ hgood]

/-- The first credit. -/
theorem State.credTake_first {s : State} (h : s.dma.credits = []) (c : Credit) :
    s.credTake c = (s.modDma (fun x => { x with credits := [{ c with id := s.dma.nextId }], nextId := x.nextId + 1 })).credCheck := by
  have hd : ({ s.dma with credits := s.dma.credits ++ [{ c with id := s.dma.nextId }], nextId := s.dma.nextId + 1 } : Dma) =
      { s.dma with credits := [{ c with id := s.dma.nextId }], nextId := s.dma.nextId + 1 } := by
    rw [h]
    rfl
  exact congrArg (fun x => State.credCheck { s with dma := x }) hd

/-- The credit of a chunk read upward, with its bytes. -/
def State.chunkCredit (s : State) (n : Nat) (d : DmaDesc) (a m : Nat) : Credit :=
  { id := s.dma.nextId, rd := false, ch := n, addr := d.dst + (a - d.src), len := m, data := some (s.bytes .sram a m), rid := none
    wrote := false, wids := [], bulk := d.cls == 1, tag := .none, fin := false, hop := s.get (DMA_CH_HOPS_VALUE n) }

/-- The next chunk of an upward descriptor is read into one credit. -/
theorem State.chunkRead_sram {s : State} {n : Nat} {d : DmaDesc} (hn : n < 12) (hfix : d.srcFix = false) (hdst : d.dstFix = false)
    (hdown : d.down = false) (hcred : s.dma.credits = [])
    (hroom : d.src + d.read + min (64 - (d.src + d.read) % 64) (d.len - d.read) ≤ 0xA0000)
    (hgood : s.allGood .sram (d.src + d.read) (min (64 - (d.src + d.read) % 64) (d.len - d.read))) :
    let a := d.src + d.read
    let m := min (64 - a % 64) (d.len - d.read)
    let t := s.chunkRead n d
    t.dmaDesc n = some { d with read := d.read + m } ∧
      t.dma.credits.map (fun c => (c.ch, c.addr, c.data, c.wrote)) = [(n, d.dst + (a - d.src), some (s.bytes .sram a m), false)] ∧
      t.get CONS_DMA_HELD_SUM = 1 ∧ t.get CONS_DMA_FREE = 63 ∧ s.memKept t ∧ t.cores = s.cores := by
  intro a m t
  have hchunk : d.chunk = (a, m) := by
    rw [DmaDesc.chunk, hfix, if_neg Bool.false_ne_true, hdown, if_neg Bool.false_ne_true]
  have hplace : d.chunkDst a = d.dst + (a - d.src) := by
    rw [DmaDesc.chunkDst, hdst, if_neg Bool.false_ne_true, hfix, if_neg Bool.false_ne_true]
  obtain ⟨c, hc⟩ : ∃ c, c = s.chunkCredit n d a m := ⟨_, rfl⟩
  obtain ⟨u, hu⟩ : ∃ u, u = (s.setDesc n (some { d with read := d.read + m })).modDma (fun x => { x with credits := [c], nextId := x.nextId + 1 }) :=
    ⟨_, rfl⟩
  have ht : t = u.credCheck := by
    show s.chunkRead n d = _
    rw [State.chunkRead, hchunk]
    dsimp only
    rw [State.engineRead_sram hroom hgood]
    dsimp only
    rw [State.credTake_first (by exact hcred), hplace, hu, hc]
    rfl
  have hlen : u.dma.credits.length = 1 := by rw [hu]; rfl
  have hcheck : t = (u.put CONS_DMA_HELD_SUM 1).put CONS_DMA_FREE 63 := by
    rw [ht, State.credCheck_fits (by rw [hlen]; decide), hlen]
  rw [hcheck]
  refine ⟨?_, ?_, ?_, ?_, ?_, ?_⟩
  · rw [hu]
    exact s.dmaDesc_setDesc hn _
  · rw [hu, hc]
    rfl
  · rw [State.get_put_disjoint _ CONS_DMA_FREE CONS_DMA_HELD_SUM _ (by decide) (by decide) rfl (by decide),
      State.get_put_same _ _ _ (by decide) (by decide)]
    rfl
  · rw [State.get_put_same _ _ _ (by decide) (by decide)]
    rfl
  · rw [hu]
    exact State.memKept_of_tables rfl rfl rfl rfl
  · rw [hu]
    rfl

/-! ## Writing a chunk -/

/-- Bytes within one line are one piece. -/
theorem cutLines_one {line fuel a : Nat} {l : List Byte} (hne : l ≠ []) (hfit : a % line + l.length ≤ line) :
    cutLines line (fuel + 1) a l = [(a, l)] := by
  cases l with
  | nil => exact absurd rfl hne
  | cons b r =>
    rw [cutLines, List.take_of_length_le (by omega), List.drop_eq_nil_of_le (by omega)]
    · cases fuel <;> rfl
    · exact List.cons_ne_nil _ _

/-- A chunk written to shared SRAM, and counted where no earlier write waits. -/
theorem State.creditWrite_sram {s : State} {c : Credit} {d : DmaDesc} {l : List Byte} (hch : c.ch < 12) (hdesc : s.dmaDesc c.ch = some d)
    (hfix : d.dstFix = false) (hdown : d.down = false) (hne : l ≠ []) (hline : c.addr % 64 + l.length ≤ 64)
    (hroom : c.addr + l.length ≤ 0xA0000) (hacks : (s.ramWrite .sram c.addr l).dma.acks = [])
    (hhop : (s.ramWrite .sram c.addr l).get (DMA_CH_HOPS_VALUE c.ch) = c.hop) :
    s.creditWrite c l = ((s.ramWrite .sram c.addr l).put (DMA_CH_DONE_VALUE c.ch)
      ((s.ramWrite .sram c.addr l).get (DMA_CH_DONE_VALUE c.ch) + l.length), none) := by
  obtain ⟨v, hv⟩ : ∃ v, v = s.ramWrite .sram c.addr l := ⟨_, rfl⟩
  rw [← hv] at hacks hhop ⊢
  have hplaced : v.dmaPlaced c.ch l.length c.hop = v.put (DMA_CH_DONE_VALUE c.ch) (v.get (DMA_CH_DONE_VALUE c.ch) + l.length) := by
    rw [State.dmaPlaced, hacks, List.reverse_nil, List.find?_nil]
    exact if_pos ⟨hch, hhop⟩
  have hengine : s.engineWrite c c.addr l = (v.put (DMA_CH_DONE_VALUE c.ch) (v.get (DMA_CH_DONE_VALUE c.ch) + l.length), none) := by
    rw [State.engineWrite, show s.target c.addr l.length = .chip c.addr from if_pos (by omega)]
    dsimp only
    rw [inSram_of_le hroom, if_pos rfl, ← hv, hplaced]
  have hpieces : State.piecesWrite c [(c.addr, l)] s = (v.put (DMA_CH_DONE_VALUE c.ch) (v.get (DMA_CH_DONE_VALUE c.ch) + l.length), none) := by
    rw [State.piecesWrite, hengine]
    rfl
  rw [State.creditWrite, if_pos hch, hdesc]
  have hout : ¬ (0xC0000 ≤ c.addr ∧ c.addr + l.length ≤ 0xD4000) := by omega
  simp only [Option.map_some, Option.getD_some, hfix, hdown, Bool.false_eq_true, if_false, if_neg hout, cutLines_one hne hline, hpieces]

/-- The one credit, written, returns. -/
theorem State.credSweep_one {s : State} {c : Credit} (h : s.dma.credits = [c]) (hw : c.wrote = true) (hids : c.wids = []) (hfin : c.fin = false) :
    s.credSweep = ((s.modDma (fun d => { d with credits := [] })).put CONS_DMA_HELD_SUM 0).put CONS_DMA_FREE 64 := by
  have hd : ({ s.dma with credits := s.dma.credits.filter (fun x => x.id != c.id) } : Dma) = { s.dma with credits := [] } := by
    rw [h, List.filter_cons_of_neg (by simp), List.filter_nil]
  have hreturn : s.credReturn c = (s.modDma (fun d => { d with credits := [] })).credCheck := by
    rw [State.credReturn, hfin, if_neg Bool.false_ne_true]
    exact congrArg (fun x => State.credCheck { s with dma := x }) hd
  have hcheck := State.credCheck_fits (s := s.modDma (fun d => { d with credits := [] })) (Nat.zero_le _)
  have hfold : s.credSweep = s.credReturn c := by
    rw [State.credSweep, h, List.filter_cons_of_pos (by rw [hw, hids]; rfl), List.filter_nil, List.foldl_cons, List.foldl_nil]
  rw [hfold, hreturn, hcheck]
  rfl

/-- The barrier writes the channel's state alone. -/
theorem State.dmaBarrier_shows (s : State) (n : Nat) : (∀ f : Field, f.reg ≠ DMA_CH_STAT n → (s.dmaBarrier n).get f = s.get f) ∧
    (s.dmaBarrier n).dma = s.dma ∧ (s.dmaBarrier n).sram = s.sram ∧ (s.dmaBarrier n).cores = s.cores := by
  unfold State.dmaBarrier
  split
  · split
    · exact ⟨fun f hf => State.get_put_ne s _ hf, rfl, rfl, rfl⟩
    · exact ⟨fun _ _ => rfl, rfl, rfl, rfl⟩
  · exact ⟨fun _ _ => rfl, rfl, rfl, rfl⟩

/-- The oldest chunk may be written. -/
theorem execDmaChunkWritten_one {s t : State} {c : Credit} {l : List Byte} (hrun : s.inRun = true) (hlive : s.dmaLive = true)
    (hcred : s.dma.credits = [c]) (hrd : c.rd = false) (hwrote : c.wrote = false) (hdata : c.data = some l) (htag : c.tag = .none)
    (hwrite : s.dmaTouch.creditWrite c l = (t, none)) : execDmaChunkWritten s = .next ((t.modDma (fun d => { d with
      credits := d.credits.map (fun x => if x.id = c.id then { x with wrote := true } else x) })).credSweep.dmaBarrier c.ch) := by
  have hfind : s.dma.credits.find? (fun c => !c.wrote && !c.rd) = some c := by
    rw [hcred, List.find?_cons_of_pos (by rw [hwrote, hrd]; rfl)]
  have hmay : s.mayWrite c = true := by
    rw [State.mayWrite, htag]
    rfl
  rw [execDmaChunkWritten, State.during, if_pos hrun, hfind]
  dsimp only
  rw [hdata]
  dsimp only
  rw [hlive, hmay, if_neg (by decide), hwrite]

/-! ## Completion -/

/-- The last descriptor of a chain ends its channel without a flag. -/
theorem State.dmaEnd_last (s : State) {n : Nat} (hn : n < 12) : (s.dmaEnd n 1).dmaDesc n = none ∧ (s.dmaEnd n 1).dmaSt n = 0 ∧
    (s.dmaEnd n 1).get (DMA_CH_STAT_CAUSE n) = 1 ∧ s.regsKept (s.dmaEnd n 1) [DMA_CH_STAT n] ∧ (s.dmaEnd n 1).sram = s.sram ∧
    (s.dmaEnd n 1).cores = s.cores := by
  obtain ⟨u, hu⟩ : ∃ u, u = (s.put (DMA_CH_STAT_STATE n) 0).put (DMA_CH_STAT_CAUSE n) 1 := ⟨_, rfl⟩
  have hend : s.dmaEnd n 1 = u.setDesc n none := by
    rw [State.dmaEnd, if_pos rfl, hu]
  have hst : u.get (DMA_CH_STAT_STATE n) = 0 := by
    rw [hu, State.get_put_disjoint _ (DMA_CH_STAT_CAUSE n) (DMA_CH_STAT_STATE n) _ (Nat.le_of_ble_eq_true rfl) (Nat.le_of_ble_eq_true rfl) rfl
      (.inr (Nat.le_of_ble_eq_true rfl)), State.get_put_same _ _ _ (Nat.le_of_ble_eq_true rfl) (Nat.le_of_ble_eq_true rfl)]
    exact Nat.zero_mod _
  rw [hend]
  refine ⟨u.dmaDesc_setDesc hn none, hst, ?_, fun a ha => ?_, by rw [hu]; rfl, by rw [hu]; rfl⟩
  · show u.get (DMA_CH_STAT_CAUSE n) = 1
    rw [hu]
    exact State.get_put_same _ _ _ (Nat.le_of_ble_eq_true rfl) (Nat.le_of_ble_eq_true rfl)
  · have hne : a ≠ DMA_CH_STAT n := fun h => ha (List.mem_singleton.mpr h)
    rw [State.setDesc_rg, hu, State.rg_put_ne _ (DMA_CH_STAT_CAUSE n) _ hne, State.rg_put_ne _ (DMA_CH_STAT_STATE n) _ hne]

/-- w7 with its CODE, then w0 without OWN, in shared SRAM without errors (R346). -/
theorem State.dmaClose_sram {s : State} {n : Nat} (w0 : W20) (hroom : s.get (DMA_CH_CUR_VALUE n) + 24 ≤ 0xA0000)
    (hgood : ∀ g, s.get (DMA_CH_CUR_VALUE n) / 4 ≤ g → g ≤ (s.get (DMA_CH_CUR_VALUE n) + 23) / 4 → s.chk g = .good) :
    let a := s.get (DMA_CH_CUR_VALUE n)
    let t := s.dmaClose n 1 w0
    t.bytes .sram (a + 21) 3 = [0, 0, 1] ∧ t.bytes .sram a 3 = tripleOf (w0 &&& 0x7FFFF) ∧
      (∀ k, k < a ∨ a + 3 ≤ k → k < a + 21 ∨ a + 24 ≤ k → t.byte .sram k = s.byte .sram k) ∧
      t.regs = s.regs ∧ t.cores = s.cores ∧ t.dma = s.dma := by
  intro a t
  have hthree : ∀ v : W20, (tripleOf v).length = 3 := fun _ => rfl
  obtain ⟨u, hu⟩ : ∃ u, u = s.ramWrite .sram (a + 21) (tripleOf (BitVec.ofNat 20 (1 * 2 ^ 16))) := ⟨_, rfl⟩
  have ht : t = u.ramWrite .sram a (tripleOf (w0 &&& 0x7FFFF)) := by
    rw [hu]
    rfl
  obtain ⟨m, p, k, heq, hat, hout, hchk⟩ := s.sramWrite_shows (a := a + 21) (l := tripleOf (BitVec.ofNat 20 (1 * 2 ^ 16)))
    (by rw [hthree]; omega) (fun g hlo hhi => hgood g (by omega) (by rw [hthree] at hhi; omega))
  rw [← hu] at heq hat hout hchk
  obtain ⟨m', p', k', heq', hat', hout', -⟩ := u.sramWrite_shows (a := a) (l := tripleOf (w0 &&& 0x7FFFF))
    (by rw [hthree]; omega) (fun g hlo hhi => (hchk g).trans (hgood g hlo (by rw [hthree] at hhi; omega)))
  rw [← ht] at heq' hat' hout'
  rw [hthree] at hout hout'
  have hkept (i : Nat) (hi : i < 3) : t.byte .sram (a + 21 + i) = (tripleOf (BitVec.ofNat 20 (1 * 2 ^ 16)))[i]'(by rw [hthree]; exact hi) :=
    (hout' _ (.inr (by omega))).trans (hat i (by rw [hthree]; exact hi))
  refine ⟨?_, ?_, fun x h1 h2 => (hout' x h1).trans (hout x (h2.imp_right (fun h => by omega))), ?_, ?_, ?_⟩
  · show [t.byte .sram (a + 21), t.byte .sram (a + 21 + 1), t.byte .sram (a + 21 + 2)] = _
    rw [show t.byte .sram (a + 21) = _ from hkept 0 (by decide), hkept 1 (by decide), hkept 2 (by decide)]
    rfl
  · show [t.byte .sram a, t.byte .sram (a + 1), t.byte .sram (a + 2)] = _
    rw [show t.byte .sram a = _ from hat' 0 (by rw [hthree]; decide), hat' 1 (by rw [hthree]; decide), hat' 2 (by rw [hthree]; decide)]
    rfl
  · rw [heq', heq]
  · rw [heq', heq]
  · rw [heq', heq]

/-- Settles O30: each command on a descriptor in shared SRAM is one read or write there, and the channel's own registers and credits. -/
theorem dmaTransferEffects : Obligations.DmaTransferEffects := by
  unfold Obligations.DmaTransferEffects
  intro s hrun hlive
  refine ⟨fun ch => ?fetch, fun ch d hdesc hcred hpick hfix hdst hdown hread hsrc => ?read,
    fun c d l hcred hrd hwrote hdata hch htag hwids hfin hacks hdesc hdst hdown hne hline hroom hgood hhop hdone => ?written,
    fun ch d => ?complete⟩
  case fetch =>
    intro n a d hst hroom hhops hgood
    have hfetch := State.dmaFetch_reads hroom hhops (State.sram_allGood hgood)
    have hexec : execDmaDescriptorFetch ch s = .next (if d.w0.getLsbD 19 then s.dmaTake n a d else s.dmaEnd n 2) := by
      have hcond : (s.dmaLive && s.dmaSt ch.val == 1) = true := by
        rw [hlive, show s.dmaSt ch.val = 1 from hst]
        rfl
      rw [execDmaDescriptorFetch, State.during, if_pos hrun, hcond, if_pos rfl]
      exact congrArg Host.Outcome.next hfetch
    have hlimit : s.get DMA_HOPLIM_LIMIT < 2 ^ 20 := Nat.mod_lt _ (Nat.le_of_ble_eq_true rfl)
    refine ⟨fun hown hlen hbad hsrc hdst => ?_, fun hown => ?_⟩
    · refine ⟨s.dmaTake n a d, ?_, State.dmaTake_moves ch.isLt (by omega) (by omega) hlen hbad hsrc hdst⟩
      show execDmaDescriptorFetch ch s = _
      rw [hexec, if_pos hown]
    · obtain ⟨hst0, hcause, hended, hnone, hregs, hstill⟩ := s.dmaEnd_shows ch.isLt (cause := 2) (by decide) (by decide)
      refine ⟨s.dmaEnd n 2, ?_, hnone, hst0, hcause, hended, hregs, hstill.mem, hstill.cores⟩
      show execDmaDescriptorFetch ch s = _
      rw [hexec, hown, if_neg Bool.false_ne_true]
  case read =>
    intro a m hgood
    obtain ⟨since, htouch⟩ := s.dmaTouch_eq
    obtain ⟨u, hu⟩ : ∃ u, u = s.dmaTouch.dmaServe ch.val := ⟨_, rfl⟩
    have hroom : d.src + d.read + min (64 - (d.src + d.read) % 64) (d.len - d.read) ≤ 0xA0000 := by omega
    have hucred : u.dma.credits = [] := by
      rw [hu, htouch]
      exact hcred
    have hshows := State.chunkRead_sram (s := u) ch.isLt hfix hdst hdown hucred hroom (State.sram_allGood (by rw [hu, htouch]; exact hgood))
    have hbytes : u.bytes .sram a m = s.bytes .sram a m := State.bytes_congr (fun x => by rw [hu, htouch]; rfl) m a
    obtain ⟨hdesc', hcredits, hheld, hfree, hmem, hcores⟩ := hshows
    refine ⟨u.chunkRead ch.val d, ?_, hdesc', ?_, hheld, hfree, ?_, ?_⟩
    · have hlive' : s.dmaTouch.dmaLive = true := by rw [htouch]; exact hlive
      have hcred' : ¬ 64 ≤ s.dmaTouch.dma.credits.length := by
        rw [htouch]
        exact fun h => absurd (hcred ▸ h : 64 ≤ ([] : List Credit).length) (by decide)
      have hud : u.dmaDesc ch.val = some d := by rw [hu, htouch]; exact hdesc
      have hcond : ¬ ((!s.dmaTouch.dmaLive || decide (64 ≤ s.dmaTouch.dma.credits.length) ||
          s.dmaTouch.dmaPick != some (ch.castLE (by omega : 12 ≤ 16)).val) = true) := by
        rw [hlive', decide_eq_false hcred', hpick]
        simp
      show execDmaChunkRead (ch.castLE (by omega)) s = _
      rw [execDmaChunkRead, State.during, if_pos hrun]
      dsimp only
      rw [if_neg hcond, if_pos (show (ch.castLE (by omega : 12 ≤ 16)).val < 12 from ch.isLt)]
      show (match (s.dmaTouch.dmaServe ch.val).dmaDesc ch.val with | some d => _ | none => _) = _
      rw [← hu, hud, hu]
      rfl
    · rw [hcredits, hbytes]
    · exact (show s.memKept u by rw [hu, htouch]; exact State.memKept_of_tables rfl rfl rfl rfl).trans hmem
    · rw [hcores, hu, htouch]
      rfl
  case written =>
    obtain ⟨since, htouch⟩ := s.dmaTouch_eq
    obtain ⟨w, hw⟩ : ∃ w, w = s.dmaTouch := ⟨_, rfl⟩
    rw [← hw] at htouch
    obtain ⟨m, p, k, heq, hat, hout, -⟩ := w.sramWrite_shows hroom (by rw [htouch]; exact hgood)
    obtain ⟨v, hv⟩ : ∃ v, v = w.ramWrite .sram c.addr l := ⟨_, rfl⟩
    rw [← hv] at heq hat hout
    have hregs : v.regs = s.regs := by rw [heq, htouch]
    have hget (f : Field) : v.get f = s.get f := by rw [State.get, State.get, State.rg, State.rg, hregs]
    have hvacks : (w.ramWrite .sram c.addr l).dma.acks = [] := by rw [← hv, heq, htouch]; exact hacks
    have hwrite := State.creditWrite_sram (s := w) hch (by rw [htouch]; exact hdesc) hdst hdown hne hline hroom hvacks
      (by rw [← hv, hget]; exact hhop)
    rw [← hv] at hwrite
    obtain ⟨x, hx⟩ : ∃ x, x = (v.put (DMA_CH_DONE_VALUE c.ch) (v.get (DMA_CH_DONE_VALUE c.ch) + l.length)).modDma (fun d => { d with
      credits := d.credits.map (fun x => if x.id = c.id then { x with wrote := true } else x) }) := ⟨_, rfl⟩
    have hxcred : x.dma.credits = [{ c with wrote := true }] := by
      have hvc : v.dma.credits = [c] := by rw [heq, htouch]; exact hcred
      have hmap : x.dma.credits = v.dma.credits.map (fun x => if x.id = c.id then { x with wrote := true } else x) := by rw [hx]; rfl
      rw [hmap, hvc, List.map_cons, List.map_nil, if_pos rfl]
    have hsweep := State.credSweep_one hxcred rfl hwids hfin
    obtain ⟨hbget, hbdma, hbsram, hbcores⟩ := x.credSweep.dmaBarrier_shows c.ch
    have hsram : (x.credSweep.dmaBarrier c.ch).sram = v.sram := by rw [hbsram, hsweep, hx]; rfl
    have hbyte (y : Nat) : (x.credSweep.dmaBarrier c.ch).byte .sram y = v.byte .sram y := by
      show tabGet byteDflt (x.credSweep.dmaBarrier c.ch).sram y = tabGet byteDflt v.sram y
      rw [hsram]
    refine ⟨x.credSweep.dmaBarrier c.ch, ?_, fun i hi => (hbyte _).trans (hat i hi), fun y hy => ?_, ?_, ?_, ?_⟩
    · show execDmaChunkWritten s = _
      rw [execDmaChunkWritten_one hrun hlive hcred hrd hwrote hdata htag (hw ▸ hwrite), hx]
    · rw [hbyte, hout y hy, htouch]
      rfl
    · have hdonereg : DMA_CH_DONE c.ch ≠ CONS_DMA := by simp only [DMA_CH_DONE, CONS_DMA]; omega
      rw [hbget _ (by show DMA_CH_DONE c.ch ≠ DMA_CH_STAT c.ch; simp only [DMA_CH_DONE, DMA_CH_STAT]; omega), hsweep,
        State.get_put_ne _ (f := CONS_DMA_FREE) _ hdonereg, State.get_put_ne _ (f := CONS_DMA_HELD_SUM) _ hdonereg, hx]
      show (v.put (DMA_CH_DONE_VALUE c.ch) (v.get (DMA_CH_DONE_VALUE c.ch) + l.length)).get (DMA_CH_DONE_VALUE c.ch) = _
      rw [State.get_put_same _ _ _ (Nat.le_of_ble_eq_true rfl) (Nat.le_of_ble_eq_true rfl), hget]
      exact Nat.mod_eq_of_lt hdone
    · rw [hbdma, hsweep]
      rfl
    · rw [hbcores, hsweep, hx]
      show v.cores = s.cores
      rw [heq, htouch]
  case complete =>
    intro n a hdesc hst hlen habort hbar hirq hchain hcred _ hroom hgood
    obtain ⟨hcode, hown, hkept, hregs, hcores, hdma⟩ := State.dmaClose_sram d.w0 hroom hgood
    obtain ⟨u, hu⟩ : ∃ u, u = s.dmaClose n 1 d.w0 := ⟨_, rfl⟩
    rw [← hu] at hcode hown hkept hregs hcores hdma
    obtain ⟨hnone, hst0, hcause, hregs', hsram, hcores'⟩ := u.dmaEnd_last ch.isLt
    have hbyte (y : Nat) : (u.dmaEnd n 1).byte .sram y = u.byte .sram y := by
      show tabGet byteDflt (u.dmaEnd n 1).sram y = tabGet byteDflt u.sram y
      rw [hsram]
    have hbytes (y k : Nat) : (u.dmaEnd n 1).bytes .sram y k = u.bytes .sram y k := by
      induction k generalizing y with
      | zero => rfl
      | succ k ih => exact congrArg₂ List.cons (hbyte y) (ih (y + 1))
    refine ⟨u.dmaEnd n 1, ?_, (hbytes _ _).trans hcode, (hbytes _ _).trans hown, fun k h1 h2 => (hbyte k).trans (hkept k h1 h2), hnone, hst0, hcause,
      fun y hy => (hregs' y hy).trans ?_, hcores'.trans hcores⟩
    · have hfinished : s.dmaFinished n d = true := by
        rw [State.dmaFinished, State.dmaIssued, hcred, decide_eq_true hlen, hbar]
        rfl
      have hcond : ¬ ((!s.dmaLive || (s.dmaSt ch.val != 2 && s.dmaSt ch.val != 3) || !s.dmaFinished ch.val d) = true) := by
        rw [hlive, show s.dmaSt ch.val = 2 from hst, show s.dmaFinished ch.val d = true from hfinished]
        decide
      show execDmaDescriptorComplete ch s = _
      rw [execDmaDescriptorComplete, State.during, if_pos hrun, show s.dmaDesc ch.val = some d from hdesc]
      dsimp only
      rw [if_neg hcond, habort, if_neg Bool.false_ne_true, State.dmaIrq, hirq, if_neg Bool.false_ne_true, State.dmaGoOn, hchain,
        if_neg Bool.false_ne_true, hu]
    · rw [State.rg, State.rg, hregs]

end Sys2Proof.Machine
end

section
/-! SUPPORT. The update engine's flash operations (R20, R481, R484): while none of them fails, each changes the flash alone, and
only within its own range; what a journal record touches. -/

set_option Elab.async false

namespace Sys2Proof.Machine

/-! ## A change of the flash alone -/

/-- The second state differs from the first in flash bytes of the range from `lo` to `hi` alone, and no flash operation has
failed in either. -/
structure State.Flashes (lo hi : Nat) (s t : State) : Prop where
  fuse : s.update.fuse = none
  eq   : ∃ l, t = { s with flash := l }
  out  : ∀ f, f < lo ∨ hi ≤ f → t.flashByte f = s.flashByte f

namespace State.Flashes

variable {lo hi : Nat} {s t u : State}

theorem refl (lo hi : Nat) (h : s.update.fuse = none) : s.Flashes lo hi s := ⟨h, ⟨s.flash, rfl⟩, fun _ _ => rfl⟩

theorem regs (h : s.Flashes lo hi t) : t.regs = s.regs := by obtain ⟨l, rfl⟩ := h.eq; rfl

theorem update (h : s.Flashes lo hi t) : t.update = s.update := by obtain ⟨l, rfl⟩ := h.eq; rfl

theorem unfailed (h : s.Flashes lo hi t) : t.update.fuse = none := h.update ▸ h.fuse

theorem cores (h : s.Flashes lo hi t) : t.cores = s.cores := by obtain ⟨l, rfl⟩ := h.eq; rfl

theorem sram (h : s.Flashes lo hi t) : t.sram = s.sram := by obtain ⟨l, rfl⟩ := h.eq; rfl

theorem byte (h : s.Flashes lo hi t) (r : Ram) (a : Nat) : t.byte r a = s.byte r a := by obtain ⟨l, rfl⟩ := h.eq; rfl

theorem otp (h : s.Flashes lo hi t) : t.otp = s.otp := by obtain ⟨l, rfl⟩ := h.eq; rfl

theorem coresKept (h : s.Flashes lo hi t) : s.coresKept t := fun c => by rw [State.core, State.core, h.cores]

theorem trans (h : s.Flashes lo hi t) (g : t.Flashes lo hi u) : s.Flashes lo hi u := by
  obtain ⟨l, rfl⟩ := h.eq
  obtain ⟨m, rfl⟩ := g.eq
  exact ⟨h.fuse, ⟨m, rfl⟩, fun f hf => (g.out f hf).trans (h.out f hf)⟩

theorem mono {lo' hi' : Nat} (h : s.Flashes lo hi t) (hlo : lo' ≤ lo) (hhi : hi ≤ hi') : s.Flashes lo' hi' t :=
  ⟨h.fuse, h.eq, fun f hf => h.out f (by omega)⟩

/-- A run of steps that each keep to the range. -/
theorem foldl {α : Type} (f : State → α → State) (hf : s.update.fuse = none)
    (step : ∀ (t : State) x, t.update.fuse = none → t.Flashes lo hi (f t x)) (l : List α) : s.Flashes lo hi (l.foldl f s) :=
  foldl_inv (s.Flashes lo hi) f l s (fun t x _ ht => ht.trans (step t x ht.unfailed)) (refl lo hi hf)

end State.Flashes

theorem State.flashDo_unfailed {s : State} (h : s.update.fuse = none) (op : FlashOp) : s.flashDo op = s.flashApply op := by
  rw [State.flashDo, h]

theorem State.updErase_unfailed {s : State} (h : s.update.fuse = none) (f n : Nat) : s.updErase f n = s.flashErase f n :=
  State.flashDo_unfailed h _

theorem State.updProgram_unfailed {s : State} (h : s.update.fuse = none) (f : Nat) (l : List Byte) :
    s.updProgram f l = s.flashProgram f l := State.flashDo_unfailed h _

theorem State.flashes_erase {s : State} (h : s.update.fuse = none) (f n : Nat) : s.Flashes f (f + n) (s.updErase f n) := by
  rw [State.updErase_unfailed h]
  exact ⟨h, ⟨_, rfl⟩, fun k hk => (s.flashByte_erase f n k).trans (if_pos hk)⟩

theorem State.flashes_program {s : State} (h : s.update.fuse = none) (f : Nat) (l : List Byte) :
    s.Flashes f (f + l.length) (s.updProgram f l) := by
  rw [State.updProgram_unfailed h]
  exact ⟨h, s.flashApply_eq ⟨false, f, l.length, l⟩, (State.flashByte_program l s f).2⟩

/-- An erased byte. -/
theorem State.flashByte_updErase {s : State} (h : s.update.fuse = none) {f n k : Nat} (hlo : f ≤ k) (hhi : k < f + n) :
    (s.updErase f n).flashByte k = 0xFF := by
  rw [State.updErase_unfailed h, State.flashByte_erase, if_neg (by omega)]

/-- A programmed byte. -/
theorem State.flashByte_updProgram {s : State} (h : s.update.fuse = none) (f : Nat) {l : List Byte} {i : Nat} {b : Byte}
    (hi : l[i]? = some b) : (s.updProgram f l).flashByte (f + i) = s.flashByte (f + i) &&& b := by
  rw [State.updProgram_unfailed h]
  exact (State.flashByte_program l s f).1 i b hi

theorem State.flashes_copy {s : State} (h : s.update.fuse = none) (src dst n : Nat) :
    ∃ hi, s.Flashes dst hi (s.flashCopy src dst n) :=
  ⟨_, ((State.flashes_erase h dst (s.wholeBlocks n)).mono (Nat.le_refl _) (Nat.le_max_left _ _)).trans
    ((State.flashes_program (State.flashes_erase h dst _).unfailed dst (s.flashBytes src (s.wholeBlocks n))).mono
      (Nat.le_refl _) (Nat.le_max_right _ _))⟩

/-! ## Where the journal's records lie (R484) -/

theorem PartRec.toBytes_length (r : PartRec) (seq : Nat) : (r.toBytes seq).length = 28 := by
  simp only [PartRec.toBytes, List.length_append, toBytesBE_length, List.length_singleton]

/-- A record at a slot of a half touches that half alone. -/
theorem State.flashes_recordAt {s : State} (h : s.update.fuse = none) (k n seq : Nat) (r : PartRec) :
    s.Flashes (journalHalf k + 32 * n) (journalHalf k + 32 * n + 32) (s.recordAt k n seq r) := by
  have hdata := State.flashes_program h (journalHalf k + 32 * n) (r.toBytes seq)
  have hcode := State.flashes_program hdata.unfailed (journalHalf k + 32 * n + 28) journalCode
  rw [PartRec.toBytes_length] at hdata
  exact (hdata.mono (Nat.le_refl _) (by omega)).trans (hcode.mono (by omega) (Nat.le_refl _))

theorem State.lastOf_mem (s : State) {l : List Nat} {o : Nat} (h : s.lastOf l = some o) : o ∈ l := by
  have hinv := List.foldlRecOn (motive := fun m : Option Nat => ∀ o, m = some o → o ∈ l) l (fun m o => match m with
    | none => some o
    | some q => if s.seqAt q < s.seqAt o then some o else some q) (b := none) (fun o ho => absurd ho (by simp))
    (fun m ih x hx o ho => by
      cases m with
      | none => exact Option.some.inj ho ▸ hx
      | some q =>
        dsimp only at ho
        split at ho
        · exact Option.some.inj ho ▸ hx
        · exact ih o ho)
  exact hinv o h

/-- The newest record lies in one of the two halves. -/
theorem State.journalNow_lt (s : State) : s.journalNow < 2 := by
  rw [State.journalNow]
  cases hlast : s.lastOf s.journalAt with
  | none => exact Nat.zero_lt_two
  | some o =>
    have hmem := s.lastOf_mem hlast
    rw [State.journalAt] at hmem
    obtain ⟨e, he, rfl⟩ := List.mem_map.mp (List.mem_of_mem_filter hmem)
    have hrange := (List.mem_filter.mp he).2
    simp only [Bool.and_eq_true, decide_eq_true_eq, beq_iff_eq] at hrange
    rw [Option.map_some, Option.getD_some]
    omega

/-- The programmed bytes of a half lie in its first `n` records. -/
def State.HalfWithin (s : State) (k n : Nat) : Prop :=
  ∀ e ∈ s.flash, journalHalf k ≤ e.1 → e.1 < journalHalf k + 0x20000 → e.1 < journalHalf k + 32 * n

theorem State.HalfWithin.used {s : State} {k n : Nat} (h : s.HalfWithin k n) : s.journalUsed k ≤ n := by
  rw [State.journalUsed]
  refine List.foldlRecOn (motive := fun m => m ≤ n) _ _ (Nat.zero_le n) (fun m hm e he => ?_)
  obtain ⟨hmem, hrange⟩ := List.mem_filter.mp he
  rw [Bool.and_eq_true, decide_eq_true_eq, decide_eq_true_eq] at hrange
  have := h e hmem hrange.1 hrange.2
  exact max_le hm (by omega)

theorem State.halfWithin_erased (s : State) {f n k : Nat} (hf : f = journalHalf k) (hn : n = 0x20000) :
    (s.flashErase f n).HalfWithin k 0 := by
  intro e he hlo hhi
  have hkept := (List.mem_filter.mp he).2
  rw [Bool.or_eq_true, decide_eq_true_eq, decide_eq_true_eq] at hkept
  omega

/-- An erase adds no byte. -/
theorem State.HalfWithin.erase {s : State} {k n : Nat} (h : s.HalfWithin k n) (f m : Nat) : (s.flashErase f m).HalfWithin k n :=
  fun e he => h e (List.mem_of_mem_filter he)

theorem mem_tabSet {α : Type} [DecidableEq α] {d : Nat → α} {t : Tab α} {k : Nat} {v : α} {e : Nat × α} (h : e ∈ tabSet d t k v) :
    e ∈ t ∨ e.1 = k := by
  rw [tabSet] at h
  split at h
  · exact .inl (List.mem_of_mem_filter h)
  · exact (mem_tabInsert _ _ _ _ h).elim (fun h => .inr (by rw [h])) .inl

/-- A program within the first `n` records, or outside the half. -/
theorem State.HalfWithin.program {k n : Nat} : ∀ (l : List Byte) {s : State} (f : Nat), s.HalfWithin k n →
    f + l.length ≤ journalHalf k + 32 * n → (s.flashProgram f l).HalfWithin k n
  | [], _, _, h, _ => h
  | b :: l, s, f, h, hf => by
    rw [List.length_cons] at hf
    refine State.HalfWithin.program l (f + 1) (s := { s with flash := tabSet flashDflt s.flash f (s.flashByte f &&& b) })
      (fun e he hlo hhi => ?_) (by omega)
    rcases mem_tabSet he with hold | hnew
    · exact h e hold hlo hhi
    · omega

theorem State.HalfWithin.recordAt {s : State} {k n : Nat} (h : s.HalfWithin k n) (hfuse : s.update.fuse = none) {i : Nat} (hi : i < n)
    (seq : Nat) (r : PartRec) : (s.recordAt k i seq r).HalfWithin k n := by
  rw [State.recordAt, State.updProgram_unfailed (State.flashes_program hfuse _ _).unfailed, State.updProgram_unfailed hfuse]
  refine (h.program _ _ ?_).program _ _ ?_
  · rw [PartRec.toBytes_length]; omega
  · rw [show journalCode.length = 4 from rfl]; omega

/-! ## A full half moved (R484) -/

theorem journalHalf_range {k : Nat} (h : k < 2) : 0xC0000 ≤ journalHalf k ∧ journalHalf k + 0x20000 ≤ 0x100000 := by
  rw [journalHalf]; omega

/-- A move keeps to the journal, and leaves at most five records in either half. -/
theorem State.journalMove_shows {s : State} (hfuse : s.update.fuse = none) :
    s.Flashes 0xC0000 0x100000 s.journalMove ∧ ∀ k, k < 2 → s.journalMove.journalUsed k ≤ 5 := by
  have hnow := s.journalNow_lt
  obtain ⟨h, hh⟩ : ∃ h, h = s.journalNow := ⟨_, rfl⟩
  obtain ⟨k, hk⟩ : ∃ k, k = (h + 1) % 2 := ⟨_, rfl⟩
  have hk2 : k < 2 := hk ▸ Nat.mod_lt _ (by decide)
  rw [← hh] at hnow
  have hrk := journalHalf_range hk2
  have hrh := journalHalf_range hnow
  have herase := (State.flashes_erase hfuse (journalHalf k) 0x20000).mono hrk.1 hrk.2
  have hwithin : (s.updErase (journalHalf k) 0x20000).HalfWithin k 5 := by
    rw [State.updErase_unfailed hfuse]
    exact fun e he hlo hhi => absurd (s.halfWithin_erased rfl rfl e he hlo hhi) (by omega)
  obtain ⟨t, ht⟩ : ∃ t, t = (((List.range 5).filterMap s.latestRec).zip (List.range 5)).foldl
      (fun (t : State) e => t.recordAt k e.2 (s.nextSeq + e.2) e.1) (s.updErase (journalHalf k) 0x20000) := ⟨_, rfl⟩
  have hmoved : s.Flashes 0xC0000 0x100000 t ∧ t.HalfWithin k 5 := by
    rw [ht]
    refine foldl_inv (fun t : State => s.Flashes 0xC0000 0x100000 t ∧ t.HalfWithin k 5) _ _ _ (fun u e he ⟨hu, hw⟩ => ?_) ⟨herase, hwithin⟩
    have hslot : e.2 < 5 := List.mem_range.mp (List.of_mem_zip he).2
    exact ⟨hu.trans ((State.flashes_recordAt hu.unfailed k e.2 _ e.1).mono (by omega) (by omega)), hw.recordAt hu.unfailed hslot _ _⟩
  obtain ⟨hflash, hw⟩ := hmoved
  have hmove : s.journalMove = t.updErase (journalHalf h) 0x20000 := by rw [State.journalMove, ht, hk, hh]
  rw [hmove]
  refine ⟨hflash.trans ((State.flashes_erase hflash.unfailed _ _).mono hrh.1 hrh.2), fun j hj => ?_⟩
  rw [State.updErase_unfailed hflash.unfailed]
  by_cases hjk : j = k
  · exact hjk ▸ (hw.erase _ _).used
  · obtain rfl : j = h := by omega
    exact Nat.le_trans (State.halfWithin_erased t rfl rfl).used (by decide)

/-- Room for one more record. -/
theorem State.journalRoom_shows {s : State} (hfuse : s.update.fuse = none) :
    s.Flashes 0xC0000 0x100000 s.journalRoom ∧ s.journalRoom.journalUsed s.journalRoom.journalNow < 4096 := by
  rw [State.journalRoom]
  split
  · next h => exact ⟨State.Flashes.refl _ _ hfuse, h⟩
  · obtain ⟨hflash, hused⟩ := State.journalMove_shows hfuse
    exact ⟨hflash, Nat.lt_of_le_of_lt (hused _ (State.journalNow_lt _)) (by decide)⟩

/-- A record appended keeps to the journal. -/
theorem State.flashes_journal {s : State} (hfuse : s.update.fuse = none) (r : PartRec) : s.Flashes 0xC0000 0x100000 (s.journal r) := by
  obtain ⟨hroom, hused⟩ := State.journalRoom_shows hfuse
  have hrange := journalHalf_range s.journalRoom.journalNow_lt
  obtain ⟨u, hu⟩ : ∃ u, u = s.journalRoom := ⟨_, rfl⟩
  have hjournal : s.journal r = u.recordAt u.journalNow (u.journalUsed u.journalNow) u.nextSeq r := by rw [State.journal, hu]
  rw [← hu] at hroom hused hrange
  rw [hjournal]
  refine hroom.trans ((State.flashes_recordAt hroom.unfailed _ _ _ _).mono (by omega) ?_)
  have hh := u.journalNow_lt
  rw [journalHalf] at hrange ⊢
  omega

theorem State.flashes_idle {s : State} (hfuse : s.update.fuse = none) (f : PartRec → Bool) : s.Flashes 0xC0000 0x100000 (s.idle f) := by
  refine State.Flashes.foldl _ hfuse (fun t p ht => ?_) (List.range 5)
  dsimp only
  split
  · exact State.flashes_journal ht _
  · exact State.Flashes.refl _ _ ht

end Sys2Proof.Machine
end

section
/-! SUPPORT. Update commands (R475-R491, R496): a write of UPD_CMD, what a command's end leaves, and the commands that do
nothing but give their result. -/

set_option Elab.async false

namespace Sys2Proof.Machine

/-! ## A write of UPD_CMD -/

theorem updWord_toNat {op part idx : Nat} (hop : op < 8) (hpart : part < 8) (hidx : idx < 2 ^ 14) :
    (updWord op part idx).toNat = op * 2 ^ 17 + part * 2 ^ 14 + idx := by
  rw [updWord, BitVec.toNat_ofNat]; exact Nat.mod_eq_of_lt (by omega)

theorem State.cphWork_update (s : State) : s.cphWork.update = s.update := by
  rw [State.cphWork]
  split
  · rw [State.mangerOnly_charge (s.modCipher (fun c => { c with workAt := s.tick })) [14]]; rfl
  · rw [State.mangerOnly_ask (s.modCipher (fun c => { c with workAt := s.tick })) 0 [14]]; rfl

/-- A command accepted: BUSY, the command, and the charge it asks for. -/
theorem State.updCmd_accepted {s : State} {src : Source} {op part idx : Nat} (hop : op ≠ 0) (hop8 : op < 8) (hpart : part < 8)
    (hidx : idx < 2 ^ 14) (hsrc : mayTrust src = true) (hrun : s.update.run = none) :
    let t := s.updCmd src (updWord op part idx)
    t.test UPD_STAT_BUSY = true ∧ t.update = { s.update with run := some ⟨op, part, idx, s.get UPD_ADDR_ADDR, .idle⟩ } ∧
      (t.holds 14 = true ∨ t.asked 14 = true) ∧ s.regsKept t [UPD_STAT] ∧ s.memKept t ∧ s.coresKept t := by
  obtain ⟨u, hu⟩ : ∃ u : State, u = { s.put UPD_STAT_BUSY 1 with update := { s.update with
        run := some ⟨op, part, idx, s.get UPD_ADDR_ADDR, .idle⟩ } } := ⟨_, rfl⟩
  have hcmd : s.updCmd src (updWord op part idx) = u.cphWork := by
    rw [State.updCmd, updWord_toNat hop8 hpart hidx]
    dsimp only
    rw [show (op * 2 ^ 17 + part * 2 ^ 14 + idx) / 2 ^ 17 = op by omega,
      show (op * 2 ^ 17 + part * 2 ^ 14 + idx) / 2 ^ 14 % 8 = part by omega,
      show (op * 2 ^ 17 + part * 2 ^ 14 + idx) % 2 ^ 14 = idx by omega, if_neg hop, if_neg (by rw [hsrc, hrun]; decide), hu]
  have hu_within : s.Within [UPD_STAT] u := by
    rw [hu]
    exact ⟨(State.Within.put s (f := UPD_STAT_BUSY) 1 (List.mem_singleton_self _)).regs, State.memKept_of_tables rfl rfl rfl rfl, fun _ => rfl⟩
  have hbusy : u.test UPD_STAT_BUSY = true := by
    rw [hu]
    exact State.test_put_bit s (f := UPD_STAT_BUSY) (by decide) rfl
  have hw := u.cphWork_shows.2
  have hall := hu_within.trans (hw [UPD_STAT])
  dsimp only
  rw [hcmd]
  exact ⟨((hw []).test (by decide)).trans hbusy, u.cphWork_update.trans (by rw [hu]), u.cphWork_charged, hall.regs, hall.still.mem, hall.still.cores⟩

/-- A command refused: another runs, or the source may not give it. -/
theorem State.updCmd_refused {s : State} {src : Source} {op part idx : Nat} (hop : op ≠ 0) (hop8 : op < 8) (hpart : part < 8)
    (hidx : idx < 2 ^ 14) (h : mayTrust src = false ∨ s.update.run ≠ none) :
    let t := s.updCmd src (updWord op part idx)
    t.get UPD_STAT_RESULT = 1 ∧ t.test UPD_FLAGS_REFUSED = true ∧ t.update = s.update ∧
      s.regsKept t [UPD_STAT, UPD_FLAGS] ∧ s.memKept t ∧ s.coresKept t := by
  have hrefuse : (!mayTrust src) = true ∨ s.update.run.isSome = true := by
    rcases h with h | h
    · exact .inl (by rw [h]; rfl)
    · exact .inr (Option.isSome_iff_ne_none.mpr h)
  have hw := (State.Within.put (but := [UPD_STAT, UPD_FLAGS]) s (f := UPD_STAT_RESULT) 1 (by decide)).trans
    (State.Within.put _ (f := UPD_FLAGS_REFUSED) 1 (by decide))
  dsimp only
  rw [State.updCmd, updWord_toNat hop8 hpart hidx]
  dsimp only
  rw [show (op * 2 ^ 17 + part * 2 ^ 14 + idx) / 2 ^ 17 = op by omega, if_neg hop, if_pos hrefuse]
  refine ⟨?_, State.test_put_bit _ (f := UPD_FLAGS_REFUSED) (by decide) rfl, rfl, hw.regs, hw.still.mem, hw.still.cores⟩
  rw [State.get_put_ne (f := UPD_FLAGS_REFUSED) (g := UPD_STAT_RESULT) _ _ (by decide)]
  exact State.get_put_same s UPD_STAT_RESULT 1 (by decide) (by decide)

/-- What holds of the write of every command word holds of the seven commands. -/
theorem updCommands_answer {s : State} (hclk : s.clocked = true) (src : Source) (p : BitVec 3) (i : BitVec 14)
    {P : Nat → Nat → Nat → State → Prop}
    (h : ∀ op part idx, op ≠ 0 → op < 8 → part < 8 → idx < 2 ^ 14 →
      P op part idx (s.reachWith src UPD_CMD (fun t => t.updCmd src (updWord op part idx)))) :
    Answers (.updManifest src) s (P 1 0 0) ∧ Answers (.updResume src) s (P 2 0 0) ∧ Answers (.updPiece src) s (P 3 0 0) ∧
      Answers (.updApply src p) s (P 4 p.toNat 0) ∧ Answers (.updConfirm src p) s (P 5 p.toNat 0) ∧
      Answers (.updPieceOut src p i) s (P 6 p.toNat i.toNat) ∧ Answers (.updAbandon src) s (P 7 0 0) := by
  have hwrite (t : State) : s.during s.clocked (.next t) = .next t := by rw [State.during, if_pos hclk]
  have hp := p.isLt
  have hi := i.isLt
  exact ⟨⟨_, hwrite _, h 1 0 0 (by decide) (by decide) (by decide) (by decide)⟩,
    ⟨_, hwrite _, h 2 0 0 (by decide) (by decide) (by decide) (by decide)⟩,
    ⟨_, hwrite _, h 3 0 0 (by decide) (by decide) (by decide) (by decide)⟩,
    ⟨_, hwrite _, h 4 _ 0 (by decide) (by decide) hp (by decide)⟩,
    ⟨_, hwrite _, h 5 _ 0 (by decide) (by decide) hp (by decide)⟩,
    ⟨_, hwrite _, h 6 _ _ (by decide) (by decide) hp hi⟩,
    ⟨_, hwrite _, h 7 0 0 (by decide) (by decide) (by decide) (by decide)⟩⟩

/-! ## The end of a command -/

/-- A command that has ended shows its result. -/
def State.updEnded (t : State) (res : Nat) : State :=
  ((({ t with update := { t.update with run := none }, keeper := { t.keeper with bootWaits := false } } : State).put UPD_STAT_BUSY 0).put
    UPD_STAT_RESULT res).put UPD_FLAGS_DONE 1

theorem State.updEnded_shows (t : State) {res : Nat} (hres : res < 16) : let u := t.updEnded res
    u.test UPD_STAT_BUSY = false ∧ u.get UPD_STAT_RESULT = res ∧ u.test UPD_FLAGS_DONE = true ∧ u.update.run = none ∧
      t.Within [UPD_STAT, UPD_FLAGS] u ∧ u.flash = t.flash ∧ ∀ f : Field, f.reg = UPD_STAT ∧ f.hi < 15 ∨ f.reg = UPD_FLAGS ∧ 0 < f.lo →
      u.test f = t.test f := by
  obtain ⟨v, hv⟩ : ∃ v : State, v = { t with update := { t.update with run := none }, keeper := { t.keeper with bootWaits := false } } := ⟨_, rfl⟩
  have hended : t.updEnded res = ((v.put UPD_STAT_BUSY 0).put UPD_STAT_RESULT res).put UPD_FLAGS_DONE 1 := by rw [hv]; rfl
  have hwithin : t.Within [UPD_STAT, UPD_FLAGS] v := by
    rw [hv]; exact ⟨fun _ _ => rfl, State.memKept_of_tables rfl rfl rfl rfl, fun _ => rfl⟩
  have hget (f : Field) : v.get f = t.get f := by rw [hv]; rfl
  dsimp only
  rw [hended]
  refine ⟨?_, ?_, State.test_put_bit _ (f := UPD_FLAGS_DONE) (by decide) rfl, by rw [hv]; rfl, ?_, by rw [hv]; rfl, fun f hf => ?_⟩
  · rw [State.test, State.get_put_ne (f := UPD_FLAGS_DONE) (g := UPD_STAT_BUSY) _ _ (by decide),
      State.get_put_disjoint _ UPD_STAT_RESULT UPD_STAT_BUSY _ (by decide) (by decide) rfl (.inr (by decide)),
      State.get_put_same _ UPD_STAT_BUSY _ (by decide) (by decide)]
    rfl
  · rw [State.get_put_ne (f := UPD_FLAGS_DONE) (g := UPD_STAT_RESULT) _ _ (by decide),
      State.get_put_same _ UPD_STAT_RESULT _ (by decide) (by decide)]
    exact Nat.mod_eq_of_lt hres
  · exact ((hwithin.trans (State.Within.put _ (f := UPD_STAT_BUSY) _ (by decide))).trans
      (State.Within.put _ (f := UPD_STAT_RESULT) _ (by decide))).trans (State.Within.put _ (f := UPD_FLAGS_DONE) _ (by decide))
  · rw [State.test, State.test]
    rcases hf with ⟨hr, hhi⟩ | ⟨hr, hlo⟩
    · rw [State.get_put_ne (f := UPD_FLAGS_DONE) (g := f) _ _ (by rw [hr]; decide),
        State.get_put_disjoint _ UPD_STAT_RESULT f _ (by decide) (by decide) hr (.inl hhi),
        State.get_put_disjoint _ UPD_STAT_BUSY f _ (by decide) (by decide) hr (.inl (Nat.lt_trans hhi (by decide))), hget]
    · rw [State.get_put_disjoint _ UPD_FLAGS_DONE f _ (by decide) (by decide) hr (.inr hlo),
        State.get_put_ne (f := UPD_STAT_RESULT) (g := f) _ _ (by rw [hr]; decide),
        State.get_put_ne (f := UPD_STAT_BUSY) (g := f) _ _ (by rw [hr]; decide), hget]

theorem exec_updCommandDone {s : State} {x : UpdRun} (hrun : s.update.run = some x) (hin : s.inRun = true) (hready : s.updReady x = true)
    {ok : Bool} {res : Nat} {t : State} (hend : s.updEnd x ok = (res, t)) : exec (.updCommandDone ok) s = .next (t.updEnded res) := by
  show execUpdCommandDone ok s = _
  rw [execUpdCommandDone, State.during, if_pos hin, hrun]
  dsimp only
  rw [hready, hend]
  rfl

/-- The engine's count of flash operations starts at 2^30. -/
theorem State.updOps_of {n : Nat} (h : n = 2 ^ 30) (s : State) (x : UpdRun) :
    s.updOps x = n - (((s.setFuse (some n)).updDo x).2.update.fuse.getD 0) := by
  rw [State.updOps, h]

theorem State.updOps_idle {s : State} {x : UpdRun} {res : Nat} (h : ∀ n, (s.setFuse n).updDo x = (res, s.setFuse n)) :
    (s.setFuse none).updOps x = 0 := by
  obtain ⟨n, hn⟩ : ∃ n, n = 2 ^ 30 := ⟨_, rfl⟩
  have hdo : ((s.setFuse none).setFuse (some n)).updDo x = (res, s.setFuse (some n)) := h (some n)
  rw [State.updOps_of hn, hdo]
  exact Nat.sub_self n

/-- A command that does nothing but give its result, whichever flash operation would fail. -/
theorem State.updEnd_idle {s : State} {x : UpdRun} {res : Nat} (h : ∀ n, (s.setFuse n).updDo x = (res, s.setFuse n)) (ok : Bool) :
    s.updEnd x ok = (res, s.setFuse none) := by
  rw [State.updEnd]
  dsimp only
  rw [State.updOps_idle h, h, if_pos (by rw [beq_self_eq_true, Bool.or_true])]

/-- A command whose flash operations succeed. -/
theorem State.updEnd_ok (s : State) (x : UpdRun) : s.updEnd x true = (s.setFuse none).updDo x := by
  rw [State.updEnd, Bool.true_or]; rfl

section Idle

variable {s : State} {x : UpdRun} (hrun : s.update.run = some x) (hin : s.inRun = true) (hready : s.updReady x = true)
include hrun hin hready

/-- Such a command ends with its result, and changes the result's registers alone. -/
theorem updCommandDone_idle {res : Nat} (hres : res < 16) (h : ∀ n, (s.setFuse n).updDo x = (res, s.setFuse n)) (ok : Bool) :
    Answers (.updCommandDone ok) s (fun t => (t.test UPD_STAT_BUSY = false ∧ t.get UPD_STAT_RESULT = res ∧
      t.test UPD_FLAGS_DONE = true ∧ t.update.run = none ∧ s.coresKept t) ∧ s.regsKept t [UPD_STAT, UPD_FLAGS] ∧ s.memKept t) := by
  obtain ⟨hbusy, hresult, hdone, hnone, hwithin, -⟩ := (s.setFuse none).updEnded_shows hres
  exact ⟨_, exec_updCommandDone hrun hin hready (State.updEnd_idle h ok), ⟨hbusy, hresult, hdone, hnone, hwithin.still.cores⟩, hwithin.regs,
    hwithin.still.mem⟩

end Idle

section Results

variable {u : State} {x : UpdRun}

theorem State.updDo_noPart (hlo : 4 ≤ x.op) (hhi : x.op ≤ 6) (hpart : 4 < x.part) : u.updDo x = (10, u) := by
  rw [State.updDo, if_pos ⟨hlo, hhi, hpart⟩]

theorem State.updDo_manifest (hop : x.op = 1) : u.updDo x = u.updManifest x.addr := by
  rw [State.updDo, if_neg (by omega), hop]; rfl

theorem State.updDo_resume (hop : x.op = 2) : u.updDo x = u.updResume := by
  rw [State.updDo, if_neg (by omega), hop]; rfl

theorem State.updDo_piece (hop : x.op = 3) : u.updDo x = u.updPiece x := by
  rw [State.updDo, if_neg (by omega), hop]; rfl

theorem State.updDo_apply (hop : x.op = 4) (hpart : x.part ≤ 4) : u.updDo x = u.updApply x.part := by
  rw [State.updDo, if_neg (by omega), hop]; rfl

theorem State.updDo_confirm (hop : x.op = 5) (hpart : x.part ≤ 4) : u.updDo x = u.updConfirm x.part := by
  rw [State.updDo, if_neg (by omega), hop]; rfl

theorem State.updDo_pieceOut (hop : x.op = 6) (hpart : x.part ≤ 4) : u.updDo x = u.updPieceOut x.part x.idx x.addr := by
  rw [State.updDo, if_neg (by omega), hop]; rfl

theorem State.updDo_abandon (hop : x.op = 7) : u.updDo x = u.updAbandon := by
  rw [State.updDo, if_neg (by omega), hop]; rfl

theorem State.installing_iff (u : State) (q : Nat) : u.installing q = true ↔ u.phase q = 3 ∨ u.phase q = 4 := by
  rw [State.installing, Bool.or_eq_true, beq_iff_eq, beq_iff_eq]

theorem State.installing_any (h : ∃ q, q < 5 ∧ (u.phase q = 3 ∨ u.phase q = 4)) : (List.range 5).any u.installing = true := by
  obtain ⟨q, hq, hphase⟩ := h
  exact List.any_eq_true.mpr ⟨q, List.mem_range.mpr hq, (u.installing_iff q).mpr hphase⟩

theorem State.installing_none (h : ∀ q, q < 5 → u.phase q ≠ 3 ∧ u.phase q ≠ 4) : (List.range 5).any u.installing = false :=
  List.any_eq_false.mpr fun q hq hinst =>
    ((u.installing_iff q).mp hinst).elim (h q (List.mem_range.mp hq)).1 (h q (List.mem_range.mp hq)).2

/-- APPLY of a STAGED part while another is on its way in. -/
theorem State.updApply_barred {p : Nat} (hphase : u.phase p = 2) (h : ∃ q, q < 5 ∧ (u.phase q = 3 ∨ u.phase q = 4)) :
    u.updApply p = (13, u) := by
  rw [State.phase] at hphase
  rw [State.updApply]
  dsimp only
  rw [hphase]
  exact if_pos (by rw [State.installing_any h, Bool.or_true])

/-- APPLY of a part with nothing to apply. -/
theorem State.updApply_nothing {p : Nat} (h : u.phase p = 0 ∨ u.phase p = 1 ∨ u.phase p = 5 ∨ u.phase p = 6) : u.updApply p = (0, u) := by
  rw [State.phase] at h
  rw [State.updApply]
  dsimp only
  rcases h with h | h | h | h <;> rw [h] <;> rfl

theorem State.updConfirm_barred {p : Nat} (h : u.phase p ≠ 4) : u.updConfirm p = (13, u) := by
  rw [State.phase] at h
  rw [State.updConfirm]
  exact if_pos h

theorem State.updAbandon_barred (h : ∃ q, q < 5 ∧ (u.phase q = 3 ∨ u.phase q = 4)) : u.updAbandon = (13, u) := by
  rw [State.updAbandon, if_pos (State.installing_any h)]

end Results

end Sys2Proof.Machine
end

section
/-! SUPPORT. The ends of update commands (R477, R481, R486-R490, R496): which results need no flash operation, and what CONFIRM and
ABANDON leave. -/

set_option Elab.async false

namespace Sys2Proof.Machine

/-! ## CONFIRM and ABANDON -/

theorem State.ifSound_unfailed {s : State} (h : s.update.fuse = none) (k : State → Nat × State) : s.ifSound k = k s := by
  have hdead : s.flashDead = false := by rw [State.flashDead, h]; rfl
  rw [State.ifSound, hdead]; rfl

/-- No manifest is stored while its commit code's first byte is erased. -/
theorem State.stored_erased {s : State} (h : s.flashByte manifestMark = 0xFF) : s.stored = none := by
  rw [State.stored, if_neg]
  intro he
  rw [State.flashBytes, h, manifestCode] at he
  exact absurd (List.cons.inj he).1 (by decide)

theorem State.stored_of_flash {s t : State} (hf : t.flash = s.flash) : t.flashByte = s.flashByte := by
  funext f; rw [State.flashByte, State.flashByte, hf]

/-- CONFIRM of a part on trial appends its record; the last part of the order raises DONE_ALL. -/
theorem State.updConfirm_shows {u : State} {p : Nat} (hfuse : u.update.fuse = none) (hphase : u.phase p = 4) :
    ∃ t v, u.Flashes 0xC0000 0x100000 t ∧ u.updConfirm p = (0, v) ∧ v = if u.orderLast = some p then t.put UPD_FLAGS_DONE_ALL 1 else t := by
  rw [State.phase] at hphase
  have hflash := State.flashes_journal hfuse { u.partRec p with part := p, phase := 5, active := (u.partRec p).target }
  refine ⟨_, _, hflash, ?_, rfl⟩
  rw [State.updConfirm]
  dsimp only
  rw [if_neg (fun h => h hphase), State.ifSound_unfailed hflash.unfailed]

/-- ABANDON of a campaign with no part on its way in. -/
theorem State.updAbandon_shows {u : State} (hfuse : u.update.fuse = none) (h : ∀ q, q < 5 → u.phase q ≠ 3 ∧ u.phase q ≠ 4) :
    ∃ t, u.Flashes 0xC0000 0x100404 t ∧ t.flashByte manifestMark = 0xFF ∧
      u.updAbandon = (0, (t.slotErase (u.get UPD_KEYS_CSLOT)).put UPD_STAT_CAMP 0) := by
  have hidle := State.flashes_idle hfuse (fun _ => true)
  have herase := State.flashes_erase hidle.unfailed manifestMark 4
  refine ⟨_, (hidle.mono (Nat.le_refl _) (by omega)).trans (herase.mono (by decide) (by decide)),
    State.flashByte_updErase hidle.unfailed (Nat.le_refl _) (by omega), ?_⟩
  rw [State.updAbandon, State.installing_none h, if_neg Bool.false_ne_true, State.ifSound_unfailed herase.unfailed]

section Ends

variable {s : State} {x : UpdRun} (hrun : s.update.run = some x) (hin : s.inRun = true)
include hrun hin

/-- A command that cannot end yet goes on. -/
theorem updCommandDone_waits (hready : s.updReady x = false) (ok : Bool) : exec (.updCommandDone ok) s = .next s := by
  show execUpdCommandDone ok s = _
  rw [execUpdCommandDone, State.during, if_pos hin, hrun]
  dsimp only
  rw [hready]
  rfl

theorem updCommandDone_confirm (hready : s.updReady x = true) (hop : x.op = 5) (hpart : x.part ≤ 4) (hphase : s.phase x.part = 4) :
    Answers (.updCommandDone true) s (fun t => (t.test UPD_STAT_BUSY = false ∧ t.get UPD_STAT_RESULT = 0 ∧ t.test UPD_FLAGS_DONE = true ∧
      t.update.run = none ∧ s.coresKept t) ∧ (∀ f, f < 0xC0000 ∨ 0x100000 ≤ f → t.flashByte f = s.flashByte f) ∧
      (s.orderLast = some x.part → t.test UPD_FLAGS_DONE_ALL = true) ∧ ∀ r a, t.byte r a = s.byte r a) := by
  obtain ⟨t, v, hflash, hdo, hv⟩ := State.updConfirm_shows (u := s.setFuse none) rfl hphase
  have hend : s.updEnd x true = (0, v) := by rw [State.updEnd_ok, State.updDo_confirm hop hpart, hdo]
  have hput (t : State) : t.Still (t.put UPD_FLAGS_DONE_ALL 1) := State.Still.put _ _ _
  have hstill : t.Still v := by
    rw [hv]
    exact State.Still.ite (hput t) (State.Still.rfl' t)
  obtain ⟨hbusy, hresult, hdone, hnone, hwithin, -, hother⟩ := v.updEnded_shows (res := 0) (by decide)
  have hall := hstill.trans hwithin.still
  obtain ⟨hbyte, -, hfb⟩ := hall.mem
  refine ⟨_, exec_updCommandDone hrun hin hready hend, ⟨hbusy, hresult, hdone, hnone, fun c => (hall.cores c).trans (hflash.coresKept c)⟩,
    fun f hf => (hfb f).trans (hflash.out f hf), fun hlast => ?_, fun r a => (hbyte r a).trans (hflash.byte r a)⟩
  have hlast' : (s.setFuse none).orderLast = some x.part := hlast
  rw [hother UPD_FLAGS_DONE_ALL (.inr ⟨rfl, by decide⟩), hv, if_pos hlast']
  exact State.test_put_bit t (f := UPD_FLAGS_DONE_ALL) (by decide) rfl

theorem updCommandDone_abandon (hready : s.updReady x = true) (hop : x.op = 7) (hphase : ∀ q, q < 5 → s.phase q ≠ 3 ∧ s.phase q ≠ 4) :
    Answers (.updCommandDone true) s (fun t => (t.test UPD_STAT_BUSY = false ∧ t.get UPD_STAT_RESULT = 0 ∧ t.test UPD_FLAGS_DONE = true ∧
      t.update.run = none ∧ s.coresKept t) ∧ t.test UPD_STAT_CAMP = false ∧ t.stored = none ∧ (∀ r a, t.byte r a = s.byte r a) ∧
      ∀ f, f < 0xC0000 ∨ 0x100404 ≤ f → t.flashByte f = s.flashByte f) := by
  obtain ⟨t, hflash, hmark, hdo⟩ := State.updAbandon_shows (u := s.setFuse none) rfl hphase
  obtain ⟨v, hv⟩ : ∃ v, v = (t.slotErase ((s.setFuse none).get UPD_KEYS_CSLOT)).put UPD_STAT_CAMP 0 := ⟨_, rfl⟩
  have hend : s.updEnd x true = (0, v) := by rw [State.updEnd_ok, State.updDo_abandon hop, hdo, hv]
  have herased (k : Nat) : t.Still (t.slotErase k) := ⟨State.memKept_of_tables rfl rfl rfl rfl, fun _ => rfl⟩
  have hstill : t.Still v := by
    rw [hv]
    exact (herased _).trans (State.Still.put _ _ _)
  obtain ⟨hbusy, hresult, hdone, hnone, hwithin, -, hother⟩ := v.updEnded_shows (res := 0) (by decide)
  have hall := hstill.trans hwithin.still
  obtain ⟨hbyte, -, hfb⟩ := hall.mem
  refine ⟨_, exec_updCommandDone hrun hin hready hend, ⟨hbusy, hresult, hdone, hnone, fun c => (hall.cores c).trans (hflash.coresKept c)⟩,
    ?_, State.stored_erased ((hfb _).trans hmark), fun r a => (hbyte r a).trans (hflash.byte r a), fun f hf => (hfb f).trans (hflash.out f hf)⟩
  rw [hother UPD_STAT_CAMP (.inl ⟨rfl, by decide⟩), hv]
  exact State.test_put_same _ UPD_STAT_CAMP 0 (by decide) (by decide) (by decide)

end Ends

/-! ## When a command can end -/

theorem State.updReady_other {s : State} {x : UpdRun} (hholds : s.updHolds = true) (hcharge : s.holds 14 = true) (hop : x.op ≠ 3) :
    s.updReady x = true := by
  rw [State.updReady, hholds, hcharge, bne_iff_ne.mpr hop]; rfl

theorem State.updReady_refused {s : State} {x : UpdRun} (hholds : s.updHolds = true) (hcharge : s.holds 14 = true) {n : Nat}
    (hdec : x.dec = .refused n) : s.updReady x = true := by
  rw [State.updReady, hholds, hcharge, hdec]
  exact Bool.or_true _

theorem State.updReady_failed {s : State} {x : UpdRun} (hholds : s.updHolds = true) (hcharge : s.holds 14 = true) {c : Nat}
    (hdec : x.dec = .failed c) : s.updReady x = true := by
  rw [State.updReady, hholds, hcharge, hdec]
  exact Bool.or_true _

/-! ## A piece without a campaign -/

/-- A PIECE without a campaign is refused with 2 as it begins. -/
theorem State.updStep_noCampaign {s : State} {x : UpdRun} (hrun : s.update.run = some x) (hop : x.op = 3) (hdec : x.dec = .idle)
    (hholds : s.updHolds = true) (hwaits : ∀ w ∈ s.cipher.waits, w.src ≠ 1) (hcamp : s.test UPD_STAT_CAMP = false) :
    s.updStep = s.updHears (.refused 2) := by
  have hany : s.cipher.waits.any (fun w => w.src == 1) = false :=
    List.any_eq_false.mpr fun w hw h => hwaits w hw (beq_iff_eq.mp h)
  rw [State.updStep, hrun]
  dsimp only
  rw [if_pos ⟨hop, hdec, hholds, by rw [hany]; rfl⟩, State.pieceBegin, hcamp]
  rfl

/-! ## UPD_AREA -/

theorem exec_updAreaWrite {s : State} (hclk : s.clocked = true) (q : Fin 4) (v : W20) :
    exec (.updAreaWrite q v) s = .next (s.areaWrite q.val v) := by
  show execUpdAreaWrite q v s = _
  rw [execUpdAreaWrite, State.during, if_pos hclk]

theorem State.areaWrite_taken {s : State} {q : Nat} (hrun : s.update.run = none) (h3 : s.phase (q + 1) ≠ 3) (h4 : s.phase (q + 1) ≠ 4) (v : W20) :
    s.areaWrite q v = s.setRg (UPD_AREA q) v := by
  rw [State.areaWrite, if_neg]
  rw [State.installing_iff, hrun]
  exact fun h => h.elim (fun h => absurd h (by decide)) (fun h => h.elim h3 h4)

theorem State.areaWrite_refused {s : State} {q : Nat} (h : s.update.run ≠ none ∨ s.phase (q + 1) = 3 ∨ s.phase (q + 1) = 4) (v : W20) :
    s.areaWrite q v = s.put UPD_FLAGS_REFUSED 1 := by
  rw [State.areaWrite, if_pos]
  exact h.imp Option.isSome_iff_ne_none.mpr (s.installing_iff (q + 1)).mpr

end Sys2Proof.Machine
end

section
/-! SUPPORT. ROM recovery (R492-R495): what a BLOCK leaves, how a STATUS leaves, and the restart after a whole image. -/

set_option Elab.async false

namespace Sys2Proof.Machine

/-! ## A STATUS leaves -/

theorem State.uartLoad_eq (s : State) : ∃ u, s.uartLoad = { s with uart := u } := by
  unfold State.uartLoad
  split
  · split
    · exact ⟨_, rfl⟩
    · exact ⟨s.uart, rfl⟩
  · exact ⟨s.uart, rfl⟩

/-- A written byte changes UART0, the registers and the lattice alone. -/
theorem State.uartPush_eq (s : State) (b : Byte) : ∃ r u l, s.uartPush b = { s with regs := r, uart := u, lattice := l } := by
  obtain ⟨t, ht⟩ : ∃ t, t = if 32 ≤ s.uart.tx.length then s.put U0_STATUS_TXOVF 1
    else { s with uart := { s.uart with tx := s.uart.tx ++ [b] } } := ⟨_, rfl⟩
  have hpush : s.uartPush b = t.uartLoad.uartSettle s := by rw [State.uartPush, ht]
  have hqueued : ∃ r u, t = { s with regs := r, uart := u } := by
    rw [ht]
    split
    · exact ⟨_, s.uart, rfl⟩
    · exact ⟨s.regs, _, rfl⟩
  obtain ⟨r, u, hqueued⟩ := hqueued
  obtain ⟨v, hload⟩ := t.uartLoad_eq
  obtain ⟨l, hsettle⟩ := t.uartLoad.uartSettle_eq s
  rw [hpush, hsettle, hload, hqueued]
  exact ⟨_, _, _, rfl⟩

theorem State.uartPushes_eq (bs : List Byte) (s : State) : ∃ r u l, bs.foldl State.uartPush s = { s with regs := r, uart := u, lattice := l } :=
  foldl_inv (fun t => ∃ r u l, t = { s with regs := r, uart := u, lattice := l }) _ bs s (fun t b _ ht => by
    obtain ⟨r, u, l, rfl⟩ := ht
    obtain ⟨r', u', l', h⟩ := State.uartPush_eq { s with regs := r, uart := u, lattice := l } b
    exact ⟨r', u', l', h⟩) ⟨s.regs, s.uart, s.lattice, rfl⟩

/-- What leaves on each interface: beside it, the registers, UART0, the chord and the lattice alone differ. -/
theorem State.sendStatus_eq (s : State) (f : RecovIface) (i st : Nat) : ∃ r u l n c, s.sendStatus f i st =
    { s with regs := r, uart := u, lattice := l, free := n, chord := c
             update := { s.update with sent := s.update.sent ++ [(f, recoverySend f (s.statusFrame i st))] } } := by
  cases f with
  | uart =>
    obtain ⟨r, u, l, h⟩ := State.uartPushes_eq (recoverySend .uart (s.statusFrame i st))
      (s.modUpdate (fun u => { u with sent := u.sent ++ [(.uart, recoverySend .uart (s.statusFrame i st))] }))
    exact ⟨r, u, l, s.free, s.chord, h⟩
  | chord => exact ⟨s.regs, s.uart, s.lattice, _, _, rfl⟩
  | radio => exact ⟨s.regs, s.uart, s.lattice, s.free, s.chord, rfl⟩

theorem State.sendStatus_update (s : State) (f : RecovIface) (i st : Nat) : (s.sendStatus f i st).update =
    { s.update with sent := s.update.sent ++ [(f, recoverySend f (s.statusFrame i st))] } := by
  obtain ⟨r, u, l, n, c, h⟩ := s.sendStatus_eq f i st
  rw [h]

/-! ## The answer that is due -/

theorem exec_recoveryStatus {s : State} (hin : s.inRun = true) (hrec : s.recovering = true) : exec .recoveryStatus s = .next s.answer := by
  show execRecoveryStatus s = _
  rw [execRecoveryStatus, State.during, if_pos hin, if_pos hrec]

/-- The oldest answer owed leaves when it is due. -/
theorem State.answer_due {s : State} {f : RecovIface} {i a : Nat} {rest : List (RecovIface × Nat × Nat)} (howed : s.update.owed = (f, i, a) :: rest)
    (hdue : s.answerDue f a = true) : s.answer.update.owed = rest ∧
      s.answer.update.sent = s.update.sent ++ [(f, recoverySend f (s.statusFrame i (if s.flashUnfit = true then 2 else 0)))] ∧
      s.memKept s.answer ∧ s.coresKept s.answer := by
  obtain ⟨u, hu⟩ : ∃ u, u = s.modUpdate (fun u => { u with owed := u.owed.erase (f, i, a) }) := ⟨_, rfl⟩
  have hfind : ((f, i, a) :: rest).find? (fun e => s.answerDue e.1 e.2.2) = some (f, i, a) :=
    List.find?_cons_of_pos (p := fun e : RecovIface × Nat × Nat => s.answerDue e.1 e.2.2) hdue
  have hanswer : s.answer = u.sendStatus f i s.answerState := by
    rw [State.answer, howed, hfind, hu]
  have hframe (n : Nat) : u.statusFrame i n = s.statusFrame i n := by rw [hu]; rfl
  have hquiet := ((State.Quiet.refl ⟨true, true, true⟩ s).modUpdate (fun u => { u with owed := u.owed.erase (f, i, a) })).sendStatus f i s.answerState
  rw [← hu, ← hanswer] at hquiet
  refine ⟨?_, ?_, hquiet.memKept rfl, hquiet.cores rfl⟩
  · rw [hanswer, State.sendStatus_update, hu]
    show s.update.owed.erase (f, i, a) = rest
    rw [howed, List.erase_cons_head]
  · rw [hanswer, State.sendStatus_update, hframe, hu]
    rfl

theorem State.answer_none {s : State} {f : RecovIface} {i a : Nat} (howed : s.update.owed = [(f, i, a)]) (hdue : s.answerDue f a = false) :
    s.answer = s := by
  have hfind : [(f, i, a)].find? (fun e => s.answerDue e.1 e.2.2) = none :=
    List.find?_cons_of_neg (p := fun e : RecovIface × Nat × Nat => s.answerDue e.1 e.2.2) (by rw [hdue]; exact Bool.false_ne_true)
  rw [State.answer, howed, hfind]

/-! ## A BLOCK (R493) -/

/-- A BLOCK that fits: its length, and which pieces it can name. -/
theorem State.blockFits_bounds {s : State} {l : List Byte} (h : s.blockFits l = true) : l.length = 1034 ∧ beAt l 8 2 < 256 := by
  rw [State.blockFits] at h
  simp only [Bool.and_eq_true, decide_eq_true_eq, beq_iff_eq] at h
  obtain ⟨⟨⟨⟨⟨⟨hlen, -⟩, -⟩, -⟩, hmax⟩, hidx⟩, -⟩ := h
  refine ⟨hlen, Nat.lt_of_lt_of_le hidx ?_⟩
  rw [pieceCount, ceilDiv]
  omega

theorem exec_recoveryBlock {s : State} {f : RecovIface} {w l : List Byte} (hframe : recoveryFrame f w = some l) (hin : s.inRun = true)
    (hrec : s.recovering = true) (hhears : s.recoveryHears f = true) (hfits : s.blockFits l = true) :
    exec (.recoveryBlock f w) s = .next (s.blockTake f l) := by
  show execRecoveryBlock f w s = _
  rw [execRecoveryBlock, State.during, if_pos hin, hframe]
  dsimp only
  rw [State.recoveryTake, hrec, hhears, hfits]
  rfl

/-- What a BLOCK leaves before its answer is noted. -/
def State.blockKept (s : State) (l : List Byte) : State :=
  if s.flashUnfit then s.put UPD_STAT_RESULT 10
  else
    (if s.received 0 (beAt l 8 2) then s else (s.setFuse none).commitPiece 0 (beAt l 8 2) (l.drop 10)).modUpdate
      (fun u => { u with total := some (beAt l 5 3) })

/-- A BLOCK to this device's own TARGET is owed an answer, and one to every device is not. -/
theorem State.blockTake_noted {s t : State} {f : RecovIface} {l : List Byte} (ht : t = s.blockKept l) (hlast : t.update.last = s.update.last)
    (howed : t.update.owed = s.update.owed) : ∃ u, s.blockTake f l = { t with update := u } ∧ u.total = t.update.total ∧
      (beAt l 1 4 ≠ 0xFFFFFFFF → u.last = some (f, beAt l 8 2) ∧ u.owed = s.update.owed ++ [(f, beAt l 8 2, s.tick)]) ∧
      (beAt l 1 4 = 0xFFFFFFFF → (l.drop 1).take 4 ≠ s.idDigest.take 4 → u.last = s.update.last ∧ u.owed = s.update.owed) := by
  have htake : s.blockTake f l = if (beAt l 1 4 != 0xFFFFFFFF || (l.drop 1).take 4 == s.idDigest.take 4) = true then
      t.modUpdate (fun u => { u with last := some (f, beAt l 8 2), owed := u.owed ++ [(f, beAt l 8 2, s.tick)] }) else t := by
    rw [ht]; rfl
  rw [htake]
  split
  · next hown =>
    refine ⟨_, rfl, rfl, fun _ => ⟨rfl, congrArg (· ++ _) howed⟩, fun hall hne => ?_⟩
    rw [Bool.or_eq_true, bne_iff_ne, beq_iff_eq] at hown
    exact (hown.elim (fun h => h hall) hne).elim
  · next hown =>
    rw [Bool.or_eq_true, bne_iff_ne, beq_iff_eq] at hown
    exact ⟨t.update, rfl, rfl, fun hne => absurd (.inl hne) hown, fun _ _ => ⟨hlast, howed⟩⟩

theorem State.stagingAt_loader (s : State) : s.stagingAt 0 = 0x80000 := by
  rw [State.stagingAt, State.areaBase, State.areaSize, if_pos rfl, if_pos rfl]

theorem receiptAt_loader (i : Nat) : receiptAt 0 + i = 0x110000 + i := rfl

/-- A piece of the loader committed: its bytes in staging, its receipt, and no more. -/
theorem State.commitPiece_shows {s : State} (hfuse : s.update.fuse = none) {i : Nat} {data : List Byte} (hlen : data.length = 1024) (hi : i < 256)
    (hfree : s.flashByte (receiptAt 0 + i) = 0xFF) : (∃ l, s.commitPiece 0 i data = { s with flash := l }) ∧
      (s.commitPiece 0 i data).received 0 i = true ∧ ∀ j (h : j < data.length), (s.commitPiece 0 i data).flashByte (s.stagingAt 0 + 1024 * i + j) =
        s.flashByte (s.stagingAt 0 + 1024 * i + j) &&& data[j] := by
  have hdata := State.flashes_program hfuse (s.stagingAt 0 + 1024 * i) data
  have hreceipt := State.flashes_program hdata.unfailed (receiptAt 0 + i) [0x5A]
  rw [List.length_singleton] at hreceipt
  have hcommit : s.commitPiece 0 i data = (s.updProgram (s.stagingAt 0 + 1024 * i) data).updProgram (receiptAt 0 + i) [0x5A] := rfl
  have hplace : s.stagingAt 0 + 1024 * i + data.length ≤ receiptAt 0 + i := by
    rw [State.stagingAt_loader, receiptAt_loader]; omega
  obtain ⟨m, hm⟩ := hdata.eq
  obtain ⟨n, hn⟩ := hreceipt.eq
  rw [hcommit]
  refine ⟨⟨n, by rw [hn, hm]⟩, ?_, fun j hj => ?_⟩
  · have hand : (0xFF &&& 0x5A : Byte) = 0x5A := by decide
    have h0 := State.flashByte_updProgram hdata.unfailed (receiptAt 0 + i) (l := [0x5A]) (i := 0) rfl
    rw [Nat.add_zero, hdata.out _ (.inr hplace), hfree, hand] at h0
    rw [State.received, h0]
    exact beq_self_eq_true _
  · rw [hreceipt.out _ (.inl (by omega)), State.flashByte_updProgram hfuse _ (List.getElem?_eq_getElem hj)]

/-! ## A warm reset -/

theorem State.warmReset_eq (s : State) (cause : Nat) (recov : Bool) : ∃ z : State,
    s.warmReset cause recov = ((z.put SYS_RSTCAUSE_WARM 1).put SYS_RSTCAUSE_CAUSE cause).rationsBack.latchReqs ∧
      z.keeper.fails = s.keeper.fails ∧ z.update.sent = s.update.sent ∧ z.sram = s.sram := ⟨_, rfl, rfl, rfl, rfl⟩

/-- A warm reset shows its cause, and keeps FAILS, shared SRAM and what has left. -/
theorem State.warmReset_shows (s : State) {cause : Nat} (hc : cause < 16) (recov : Bool) : let t := s.warmReset cause recov
    t.get SYS_RSTCAUSE_CAUSE = cause ∧ t.test SYS_RSTCAUSE_WARM = true ∧ t.keeper.fails = s.keeper.fails ∧ t.update.sent = s.update.sent ∧
      t.sram = s.sram := by
  obtain ⟨z, hz, hfails, hsent, hsram⟩ := s.warmReset_eq cause recov
  obtain ⟨x, hx⟩ : ∃ x, x = (z.put SYS_RSTCAUSE_WARM 1).put SYS_RSTCAUSE_CAUSE cause := ⟨_, rfl⟩
  rw [← hx] at hz
  have hrg (a : Nat) (ha : a ≠ CONS_RATIONS) : x.rationsBack.latchReqs.rg a = x.rg a := by
    rw [State.latchReqs_rg, State.rationsBack_eq, State.rg_put_ne _ CONS_RATIONS_FREE _ ha, State.rg_put_ne _ CONS_RATIONS_HELD_SUM _ ha]
    rfl
  have hget (f : Field) (hf : f.reg ≠ CONS_RATIONS) : x.rationsBack.latchReqs.get f = x.get f := by
    rw [State.get, hrg _ hf, ← State.get]
  dsimp only
  rw [hz]
  refine ⟨?_, ?_, ?_, ?_, ?_⟩
  · rw [hget _ (by decide), hx, State.get_put_same _ SYS_RSTCAUSE_CAUSE _ (by decide) (by decide)]
    exact Nat.mod_eq_of_lt hc
  · rw [State.test, hget _ (by decide), hx, State.get_put_disjoint _ SYS_RSTCAUSE_CAUSE SYS_RSTCAUSE_WARM _ (by decide) (by decide) rfl (by decide)]
    exact State.test_put_bit z (f := SYS_RSTCAUSE_WARM) (by decide) rfl
  · rw [State.latchReqs_keeper, State.rationsBack_eq, hx]
    exact hfails
  · rw [State.latchReqs_update, State.rationsBack_eq, hx]
    exact hsent
  · rw [State.latchReqs_sram, State.rationsBack_eq, hx]
    exact hsram

end Sys2Proof.Machine
end

section
/-! SUPPORT. A whole recovery image judged (R495), and the statement about field update and ROM recovery. -/

set_option Elab.async false

namespace Sys2Proof.Machine

/-! ## The length of a digest -/

theorem shaRound_length (v : List (BitVec 32)) (kw : BitVec 32) : (shaRound v kw).length = v.length := by
  unfold shaRound
  split <;> rfl

theorem shaBlock_length (h : List (BitVec 32)) (blk : List Byte) : (shaBlock h blk).length = h.length := by
  have hrounds (w : List (BitVec 32)) : (w.foldl shaRound h).length = h.length :=
    List.foldlRecOn (motive := fun v : List (BitVec 32) => v.length = h.length) w shaRound rfl
      (fun v hv kw _ => (shaRound_length v kw).trans hv)
  rw [shaBlock]
  rw [List.length_zipWith, hrounds, Nat.min_self]

theorem shaBlocks_length : ∀ (n : Nat) (h : List (BitVec 32)) (l : List Byte), (shaBlocks n h l).1.length = h.length
  | 0, _, _ => rfl
  | n + 1, h, l => by
    rw [shaBlocks]
    split
    · rfl
    · rw [shaBlocks_length n, shaBlock_length]

theorem ShaCtx.update_length (c : ShaCtx) (l : List Byte) : (c.update l).h.length = c.h.length := shaBlocks_length _ _ _

theorem sha256_length (l : List Byte) : (sha256 l).length = 32 := by
  rw [sha256, ShaCtx.final]
  rw [List.length_flatMap, List.map_congr_left (g := fun _ => 4) (fun w _ => toBytesBE_length 4 w.toNat), List.map_const', List.sum_replicate,
    ShaCtx.update_length, ShaCtx.update_length]
  rfl

/-! ## A STATUS -/

/-- The state in a STATUS. -/
theorem State.statusFrame_state (s : State) (i st : Nat) : (s.statusFrame i st)[14]? = some (BitVec.ofNat 8 st) := by
  obtain ⟨d, hd⟩ : ∃ d, d = s.idDigest.take 4 := ⟨_, rfl⟩
  have hlen : d.length = 4 := by
    rw [hd, List.length_take, State.idDigest, sha256_length]; rfl
  rw [State.statusFrame]
  rw [← hd, List.getElem?_append_right (by simp [hlen, toBytesBE_length])]
  simp [hlen, toBytesBE_length]

/-! ## A loader image -/

theorem State.flashBytes_setFuse (s : State) (m : Option Nat) : ∀ n f, (s.setFuse m).flashBytes f n = s.flashBytes f n
  | 0, _ => rfl
  | n + 1, f => by rw [State.flashBytes, State.flashBytes, State.flashBytes_setFuse s m n]; rfl

/-- Whether an image passes does not turn on the engine's flash failures. -/
theorem State.goodLoader_setFuse (s : State) (m : Option Nat) (f : Nat) : (s.setFuse m).goodLoader f = s.goodLoader f := by
  have hhead : (s.setFuse m).loaderAt f = s.loaderAt f := by
    rw [State.loaderAt, State.loaderAt, State.flashBytes_setFuse]
  have hpasses (r : Loader) : (s.setFuse m).loaderPasses f r = s.loaderPasses f r := by
    rw [State.loaderPasses, State.loaderPasses, State.loaderCode, State.loaderCode, State.loaderData, State.loaderData]
    simp only [State.flashBytes_setFuse]
    rfl
  have htest : (s.setFuse m).test FLC_INFO_PRESENT = s.test FLC_INFO_PRESENT := rfl
  rw [State.goodLoader, State.goodLoader, htest, hhead]
  simp only [hpasses]

theorem State.phase_setFuse (s : State) (m : Option Nat) (p : Nat) : (s.setFuse m).phase p = s.phase p := rfl

theorem State.stored_setFuse (s : State) (m : Option Nat) : (s.setFuse m).stored = s.stored := by
  rw [State.stored, State.stored, State.flashBytes_setFuse, State.flashBytes_setFuse]

/-! ## A whole image (R495) -/

section Judged

variable {s : State} {f : RecovIface} {i n : Nat} (hlast : s.update.last = some (f, i)) (hin : s.inRun = true) (hrec : s.recovering = true)
  (htotal : s.update.total = some n) (hall : s.receivedAll 0 n = true)
include hlast hin hrec htotal hall

/-- An image that fails is told, and its receipts are erased. -/
theorem exec_recoveryImageJudged_bad (hbad : s.goodLoader (s.stagingAt 0) = none) :
    exec .recoveryImageJudged s = .next (((s.setFuse none).updErase (receiptAt 0) 0x4000).sendStatus f i 2) := by
  have hbad' : (s.setFuse none).goodLoader ((s.setFuse none).stagingAt 0) = none := (s.goodLoader_setFuse none _).trans hbad
  have hflash := State.flashes_erase (s := s.setFuse none) rfl (receiptAt 0) 0x4000
  have hlast' : ((s.setFuse none).updErase (receiptAt 0) 0x4000).update.last = some (f, i) := by rw [hflash.update]; exact hlast
  show execRecoveryImageJudged s = _
  rw [execRecoveryImageJudged, State.during, if_pos hin, htotal]
  dsimp only
  rw [hrec, hall, hbad']
  dsimp only
  rw [hlast']
  rfl

/-- An image that passes goes to the loader's area, with a record of it; it is told, and the device restarts. -/
theorem exec_recoveryImageJudged_good {r : Loader} (hgood : s.goodLoader (s.stagingAt 0) = some r) : ∃ t hi, (s.setFuse none).Flashes 0 hi t ∧
    exec .recoveryImageJudged s = .next (((t.setFails 0).sendStatus f i 1).sysRst .keeper 1) := by
  have hgood' : (s.setFuse none).goodLoader ((s.setFuse none).stagingAt 0) = some r := (s.goodLoader_setFuse none _).trans hgood
  obtain ⟨hi, hcopy⟩ := State.flashes_copy (s := s.setFuse none) rfl ((s.setFuse none).stagingAt 0) 0 n
  obtain ⟨u, hu⟩ : ∃ u, u = (s.setFuse none).flashCopy ((s.setFuse none).stagingAt 0) 0 n := ⟨_, rfl⟩
  rw [← hu] at hcopy
  have hjournal := State.flashes_journal hcopy.unfailed { u.partRec 0 with part := 0, phase := 0, active := r.version }
  have hboth := (hcopy.mono (Nat.le_refl _) (Nat.le_max_left hi 0x100000)).trans (hjournal.mono (Nat.zero_le _) (Nat.le_max_right hi 0x100000))
  obtain ⟨t, ht⟩ : ∃ t, t = u.journal { u.partRec 0 with part := 0, phase := 0, active := r.version } := ⟨_, rfl⟩
  rw [← ht] at hboth
  have hlast' : (t.setFails 0).update.last = some (f, i) := by
    show t.update.last = _
    rw [hboth.update]
    exact hlast
  refine ⟨t, _, hboth, ?_⟩
  show execRecoveryImageJudged s = _
  rw [execRecoveryImageJudged, State.during, if_pos hin, htotal]
  dsimp only
  rw [hrec, hall, hgood']
  dsimp only
  rw [← hu, ← ht, hlast']
  rfl

/-- What a failed image leaves. -/
theorem recoveryImageJudged_bad (hbad : s.goodLoader (s.stagingAt 0) = none) : Answers .recoveryImageJudged s (fun t => s.coresKept t ∧
    (∃ y, t.update.sent = s.update.sent ++ [(f, recoverySend f y)] ∧ y[14]? = some 2) ∧
      (∀ a, a < receiptAt 0 ∨ receiptAt 0 + 0x4000 ≤ a → t.flashByte a = s.flashByte a) ∧
      ∀ j, j < 0x4000 → t.flashByte (receiptAt 0 + j) = 0xFF) := by
  have hexec := exec_recoveryImageJudged_bad hlast hin hrec htotal hall hbad
  have hflash := State.flashes_erase (s := s.setFuse none) rfl (receiptAt 0) 0x4000
  have herased (j : Nat) (hj : j < 0x4000) := State.flashByte_updErase (s := s.setFuse none) (f := receiptAt 0) (n := 0x4000) (k := receiptAt 0 + j)
    rfl (Nat.le_add_right _ _) (Nat.add_lt_add_left hj _)
  obtain ⟨u, hu⟩ : ∃ u, u = (s.setFuse none).updErase (receiptAt 0) 0x4000 := ⟨_, rfl⟩
  rw [← hu] at hexec hflash herased
  have hquiet := (State.Quiet.refl ⟨true, true, true⟩ u).sendStatus f i 2
  obtain ⟨-, -, hfb⟩ := hquiet.memKept rfl
  refine ⟨_, hexec, fun c => (hquiet.cores rfl c).trans (hflash.coresKept c), ⟨_, ?_, u.statusFrame_state i 2⟩, fun a ha => (hfb a).trans (hflash.out a ha),
    fun j hj => (hfb _).trans (herased j hj)⟩
  rw [State.sendStatus_update, hflash.update]
  rfl

/-- What an image that passes leaves: a warm restart. -/
theorem recoveryImageJudged_good (hstop : s.stopped = false) {r : Loader} (hgood : s.goodLoader (s.stagingAt 0) = some r) :
    Answers .recoveryImageJudged s (fun t => t.get SYS_RSTCAUSE_CAUSE = 5 ∧ t.test SYS_RSTCAUSE_WARM = true ∧ t.keeper.fails = 0 ∧
      (∃ y, t.update.sent = s.update.sent ++ [(f, recoverySend f y)] ∧ y[14]? = some 1) ∧ t.sram = s.sram) := by
  obtain ⟨t, hi, hflash, hexec⟩ := exec_recoveryImageJudged_good hlast hin hrec htotal hall hgood
  obtain ⟨m, hm⟩ := hflash.eq
  obtain ⟨u, hu⟩ : ∃ u, u = t.setFails 0 := ⟨_, rfl⟩
  rw [← hu] at hexec
  obtain ⟨hupdate, hfails, hsram, hpower⟩ : u.update = (s.setFuse none).update ∧ u.keeper.fails = 0 ∧ u.sram = s.sram ∧ u.power = s.power := by
    rw [hu, hm]
    exact ⟨rfl, rfl, rfl, rfl⟩
  obtain ⟨rg, ua, la, fr, ch, hsend⟩ := u.sendStatus_eq f i 1
  obtain ⟨v, hv⟩ : ∃ v, v = u.sendStatus f i 1 := ⟨_, rfl⟩
  rw [← hv] at hexec hsend
  rw [State.stopped, Bool.or_eq_false_iff, Bool.or_eq_false_iff] at hstop
  obtain ⟨⟨-, hheld⟩, hlow⟩ := hstop
  have hfree : (v.power.held || v.power.vbatLow) = false := by
    rw [hsend]
    show (u.power.held || u.power.vbatLow) = false
    rw [hpower, hheld, hlow]
    rfl
  have hreset : v.sysRst .keeper 1 = v.warmReset 5 false := by
    show v.ifFree (v.warmReset 5 false) = _
    rw [State.ifFree, hfree]
    rfl
  obtain ⟨hcause, hwarm, hkfails, hsent, hksram⟩ := v.warmReset_shows (cause := 5) (by decide) false
  rw [hreset] at hexec
  refine ⟨_, hexec, hcause, hwarm, hkfails.trans ?_, ⟨_, hsent.trans ?_, u.statusFrame_state i 1⟩, hksram.trans ?_⟩
  · rw [hsend]
    exact hfails
  · rw [hsend, hupdate]
    rfl
  · rw [hsend]
    exact hsram

end Judged

/-! ## What each BLOCK leaves -/

section Block

variable {s : State} {f : RecovIface} {w l : List Byte} (hframe : recoveryFrame f w = some l) (hin : s.inRun = true) (hrec : s.recovering = true)
  (hhears : s.recoveryHears f = true) (hfits : s.blockFits l = true)
include hframe hin hrec hhears hfits

/-- What the ROM notes of a BLOCK. -/
def State.blockNoted (s : State) (f : RecovIface) (l : List Byte) (t : State) : Prop :=
  (beAt l 1 4 ≠ 0xFFFFFFFF → t.update.last = some (f, beAt l 8 2) ∧ t.update.owed = s.update.owed ++ [(f, beAt l 8 2, s.tick)]) ∧
    (beAt l 1 4 = 0xFFFFFFFF → (l.drop 1).take 4 ≠ s.idDigest.take 4 → t.update.last = s.update.last ∧ t.update.owed = s.update.owed)

theorem recoveryBlock_unfit (hunfit : s.flashUnfit = true) : Answers (.recoveryBlock f w) s (fun t => t.get UPD_STAT_RESULT = 10 ∧
    s.blockNoted f l t ∧ s.regsKept t [UPD_STAT] ∧ s.memKept t ∧ s.coresKept t) := by
  have hkept : s.put UPD_STAT_RESULT 10 = s.blockKept l := by rw [State.blockKept, if_pos hunfit]
  obtain ⟨u, htake, -, hown, hall⟩ := State.blockTake_noted (f := f) hkept rfl rfl
  have hw := State.Within.put (but := [UPD_STAT]) s (f := UPD_STAT_RESULT) 10 (List.mem_singleton_self _)
  refine ⟨_, exec_recoveryBlock hframe hin hrec hhears hfits, ?_⟩
  rw [htake]
  exact ⟨State.get_put_same s UPD_STAT_RESULT 10 (by decide) (by decide), ⟨hown, hall⟩, hw.regs, hw.still.mem, hw.still.cores⟩

theorem recoveryBlock_again (hfit : s.flashUnfit = false) (hgot : s.received 0 (beAt l 8 2) = true) :
    Answers (.recoveryBlock f w) s (fun t => t.update.total = some (beAt l 5 3) ∧ s.blockNoted f l t ∧ t.regs = s.regs ∧ s.memKept t ∧
      s.coresKept t) := by
  have hkept : s.modUpdate (fun u => { u with total := some (beAt l 5 3) }) = s.blockKept l := by
    rw [State.blockKept, hfit, hgot]; rfl
  obtain ⟨u, htake, htotal, hown, hall⟩ := State.blockTake_noted (f := f) hkept rfl rfl
  refine ⟨_, exec_recoveryBlock hframe hin hrec hhears hfits, ?_⟩
  rw [htake]
  exact ⟨htotal, ⟨hown, hall⟩, rfl, State.memKept_of_tables rfl rfl rfl rfl, fun _ => rfl⟩

theorem recoveryBlock_new (hfit : s.flashUnfit = false) (hnew : s.received 0 (beAt l 8 2) = false)
    (hfree : s.flashByte (receiptAt 0 + beAt l 8 2) = 0xFF) : Answers (.recoveryBlock f w) s (fun t => t.received 0 (beAt l 8 2) = true ∧
      (∀ j (h : 10 + j < l.length), t.flashByte (s.stagingAt 0 + 1024 * beAt l 8 2 + j) =
        s.flashByte (s.stagingAt 0 + 1024 * beAt l 8 2 + j) &&& l[10 + j]) ∧ t.update.total = some (beAt l 5 3) ∧ s.blockNoted f l t ∧
      t.regs = s.regs ∧ s.coresKept t) := by
  obtain ⟨hlen, hi⟩ := State.blockFits_bounds hfits
  have hdata : (l.drop 10).length = 1024 := by rw [List.length_drop, hlen]
  obtain ⟨⟨m, hm⟩, hgot, hbytes⟩ := State.commitPiece_shows (s := s.setFuse none) rfl hdata hi hfree
  obtain ⟨c, hc⟩ : ∃ c, c = (s.setFuse none).commitPiece 0 (beAt l 8 2) (l.drop 10) := ⟨_, rfl⟩
  rw [← hc] at hm hgot hbytes
  have hkept : c.modUpdate (fun u => { u with total := some (beAt l 5 3) }) = s.blockKept l := by
    rw [State.blockKept, hfit, hnew, hc]; rfl
  obtain ⟨u, htake, htotal, hown, hall⟩ := State.blockTake_noted (f := f) hkept (by rw [hm]; rfl) (by rw [hm]; rfl)
  refine ⟨_, exec_recoveryBlock hframe hin hrec hhears hfits, ?_⟩
  rw [htake]
  refine ⟨hgot, fun j hj => ?_, htotal, ⟨hown, hall⟩, ?_, fun d => ?_⟩
  · have hj' : j < (l.drop 10).length := by rw [List.length_drop]; omega
    exact (hbytes j hj').trans (by rw [List.getElem_drop]; rfl)
  · show c.regs = _
    rw [hm]
    rfl
  · show (c.core d).bare = _
    rw [hm]
    rfl

end Block

/-! ## The ends that the statement names -/

section Named

variable {s : State} {x : UpdRun} (hrun : s.update.run = some x) (hin : s.inRun = true) (hholds : s.updHolds = true) (hcharge : s.holds 14 = true)
include hrun hin hholds hcharge

/-- The ends that change nothing but the result's registers. -/
theorem updCommandDone_results (ok : Bool) : let gives := fun (res : Nat) => Answers (.updCommandDone ok) s (fun t =>
    (t.test UPD_STAT_BUSY = false ∧ t.get UPD_STAT_RESULT = res ∧ t.test UPD_FLAGS_DONE = true ∧ t.update.run = none ∧ s.coresKept t) ∧
      s.regsKept t [UPD_STAT, UPD_FLAGS] ∧ s.memKept t)
    (4 ≤ x.op → x.op ≤ 6 → 4 < x.part → gives 10) ∧ (x.op = 1 → s.flashUnfit = true → gives 10) ∧
    (x.op = 2 → s.flashUnfit = false → s.stored = none → gives 14) ∧ (x.op = 3 → ∀ n, x.dec = .refused n → n < 16 → gives n) ∧
    (x.op = 3 → ∀ c, x.dec = .failed c → gives (if c = 0x20 then 8 else if c = 0x25 then 10 else 2)) ∧
    (x.op = 6 → x.part ≤ 4 → s.test UPD_STAT_CAMP = false → gives 2) ∧
    (x.op = 4 → x.part ≤ 4 → s.phase x.part = 2 → (∃ q, q < 5 ∧ (s.phase q = 3 ∨ s.phase q = 4)) → gives 13) ∧
    (x.op = 4 → x.part ≤ 4 → (s.phase x.part = 0 ∨ s.phase x.part = 1 ∨ s.phase x.part = 5 ∨ s.phase x.part = 6) → gives 0) ∧
    (x.op = 5 → x.part ≤ 4 → s.phase x.part ≠ 4 → gives 13) ∧
    (x.op = 7 → (∃ q, q < 5 ∧ (s.phase q = 3 ∨ s.phase q = 4)) → gives 13) := by
  intro gives
  have hready (hop : x.op ≠ 3) := State.updReady_other hholds hcharge hop
  have hphase (n : Option Nat) (q : Nat) : (s.setFuse n).phase q = s.phase q := s.phase_setFuse n q
  refine ⟨fun hlo hhi hpart => ?_, fun hop hunfit => ?_, fun hop hfit hstored => ?_, fun hop n hdec hn => ?_, fun hop c hdec => ?_,
    fun hop hpart hcamp => ?_, fun hop hpart h2 hbar => ?_, fun hop hpart h => ?_, fun hop hpart h4 => ?_, fun hop hbar => ?_⟩
  · by_cases hop : x.op = 3
    · omega
    · exact updCommandDone_idle hrun hin (hready hop) (by decide) (fun n => State.updDo_noPart hlo hhi hpart) ok
  · refine updCommandDone_idle hrun hin (hready (by omega)) (by decide) (fun n => ?_) ok
    rw [State.updDo_manifest hop, State.updManifest]
    exact if_pos hunfit
  · refine updCommandDone_idle hrun hin (hready (by omega)) (by decide) (fun n => ?_) ok
    have hfit' : (s.setFuse n).flashUnfit = false := hfit
    rw [State.updDo_resume hop, State.updResume, hfit', State.stored_setFuse, hstored]
    rfl
  · refine updCommandDone_idle hrun hin (State.updReady_refused hholds hcharge hdec) hn (fun m => ?_) ok
    rw [State.updDo_piece hop, State.updPiece, hdec]
  · refine updCommandDone_idle hrun hin (State.updReady_failed hholds hcharge hdec) (by split <;> [decide; (split <;> decide)]) (fun m => ?_) ok
    rw [State.updDo_piece hop, State.updPiece, hdec]
  · refine updCommandDone_idle hrun hin (hready (by omega)) (by decide) (fun n => ?_) ok
    have hcamp' : (s.setFuse n).test UPD_STAT_CAMP = false := hcamp
    rw [State.updDo_pieceOut hop hpart, State.updPieceOut, hcamp']
    rfl
  · refine updCommandDone_idle hrun hin (hready (by omega)) (by decide) (fun n => ?_) ok
    rw [State.updDo_apply hop hpart]
    exact State.updApply_barred (by rw [hphase]; exact h2) (by simpa only [hphase] using hbar)
  · refine updCommandDone_idle hrun hin (hready (by omega)) (by decide) (fun n => ?_) ok
    rw [State.updDo_apply hop hpart]
    exact State.updApply_nothing (by simpa only [hphase] using h)
  · refine updCommandDone_idle hrun hin (hready (by omega)) (by decide) (fun n => ?_) ok
    rw [State.updDo_confirm hop hpart]
    exact State.updConfirm_barred (by rw [hphase]; exact h4)
  · refine updCommandDone_idle hrun hin (hready (by omega)) (by decide) (fun n => ?_) ok
    rw [State.updDo_abandon hop]
    exact State.updAbandon_barred (by simpa only [hphase] using hbar)

end Named

/-- A result without the registers it leaves. -/
theorem Answers.mem {i : Instr} {s : State} {P Q R : State → Prop} (h : Answers i s (fun t => P t ∧ Q t ∧ R t)) :
    Answers i s (fun t => P t ∧ R t) := by
  obtain ⟨t, ht, hP, -, hR⟩ := h
  exact ⟨t, ht, hP, hR⟩

/-- Settles O53: a command goes by its source, then by what the engine holds, then by its operation and its part's phase; recovery by
what is owed and what the image is. -/
theorem updateEffects : Obligations.UpdateEffects := by
  unfold Obligations.UpdateEffects
  intro s hstop quiet
  refine ⟨fun src p i hclk => ?_, fun x hrun ok hin hready => updCommandDone_waits hrun hin hready ok,
    fun x hrun ok hin hholds hcharge => ?_, fun x hrun hop hdec hholds hwaits hcamp => ?_, fun q v hclk => ?_,
    fun f w l hframe hin hrec hhears hfits => ?_, fun f i a rest hin hrec howed => ?_, fun f i n hlast hin hrec htotal hall => ?_⟩
  · intro each reach
    have hseven (P : Nat → Nat → Nat → State → Prop) (h : ∀ op part idx, op ≠ 0 → op < 8 → part < 8 → idx < 2 ^ 14 →
        P op part idx (s.reachWith src UPD_CMD (fun t => t.updCmd src (updWord op part idx)))) : each P := updCommands_answer hclk src p i h
    clear_value each
    refine ⟨fun hno hhost => ?_, fun hsrc hreach hrun => ?_, fun hreach hbar => ?_⟩
    · refine hseven _ fun op part idx _ _ _ _ => ?_
      rw [State.reachWith, hno, if_neg Bool.false_ne_true, if_neg (fun h => hhost h.1)]
    · refine hseven _ fun op part idx hop hop8 hpart hidx => ?_
      rw [State.reachWith_may hreach]
      exact State.updCmd_accepted hop hop8 hpart hidx hsrc hrun
    · refine hseven _ fun op part idx hop hop8 hpart hidx => ?_
      rw [State.reachWith_may hreach]
      exact State.updCmd_refused hop hop8 hpart hidx hbar
  · obtain ⟨hpart, hmanifest, hresume, hrefused, hfailed, hout, hbarred, hnothing, hconfirm, habandon⟩ :=
      updCommandDone_results hrun hin hholds hcharge ok
    have hready (hop : x.op ≠ 3) := State.updReady_other hholds hcharge hop
    refine ⟨hpart, fun h1 h2 => (hmanifest h1 h2).mem, fun h1 h2 h3 => (hresume h1 h2 h3).mem, fun h1 n h2 h3 => (hrefused h1 n h2 h3).mem,
      fun h1 c h2 => (hfailed h1 c h2).mem, fun h1 h2 h3 => (hout h1 h2 h3).mem, fun h1 h2 h3 h4 => (hbarred h1 h2 h3 h4).mem,
      fun h1 h2 h3 => (hnothing h1 h2 h3).mem, fun h1 h2 h3 => (hconfirm h1 h2 h3).mem, fun hop hp h4 hok => ?_,
      fun h1 h2 => (habandon h1 h2).mem, fun hop hphase hok => ?_⟩
    · subst hok
      exact updCommandDone_confirm hrun hin (hready (by omega)) hop hp h4
    · subst hok
      exact updCommandDone_abandon hrun hin (hready (by omega)) hop hphase
  · rw [State.updStep_noCampaign hrun hop hdec hholds hwaits hcamp]
    exact ⟨{ x with dec := .refused 2 }, congrArg (Option.map _) hrun, rfl, rfl⟩
  · refine ⟨fun hrun h3 h4 => ?_, fun h => ?_⟩
    · rw [exec_updAreaWrite hclk, State.areaWrite_taken hrun h3 h4]
    · rw [exec_updAreaWrite hclk, State.areaWrite_refused h]
  · exact ⟨recoveryBlock_unfit hframe hin hrec hhears hfits, recoveryBlock_again hframe hin hrec hhears hfits,
      recoveryBlock_new hframe hin hrec hhears hfits⟩
  · intro due
    have hdue : s.answerDue f a = true ↔ due := by
      cases f with
      | uart => exact ⟨fun _ => trivial, fun _ => rfl⟩
      | chord => exact Bool.and_eq_true_iff
      | radio => exact beq_iff_eq
    refine ⟨fun h => ⟨_, exec_recoveryStatus hin hrec, State.answer_due howed (hdue.mpr h)⟩, fun h hrest => ?_⟩
    subst hrest
    rw [exec_recoveryStatus hin hrec, State.answer_none howed (Bool.eq_false_iff.mpr (fun hd => h (hdue.mp hd)))]
  · intro good
    cases hgood : s.goodLoader (s.stagingAt 0) with
    | none =>
      obtain ⟨t, ht, hbad⟩ := recoveryImageJudged_bad hlast hin hrec htotal hall hgood
      exact ⟨t, ht, fun _ => hbad, fun h => absurd hgood h⟩
    | some r =>
      obtain ⟨t, ht, hback⟩ := recoveryImageJudged_good hlast hin hrec htotal hall hstop hgood
      exact ⟨t, ht, fun h => absurd (hgood.symm.trans h) (by simp), fun _ => hback⟩

end Sys2Proof.Machine
end
